-- ==== Sys2Proof/Word.lean ====
section
/-! DEFINITION. The word types of the module: a register is 32 bits wide (R10), a byte of a memory 8 bits (R6). -/

namespace Sys2Proof

/-- A 32-bit register word of the peripheral space (R10). -/
abbrev Word := BitVec 32

/-- One byte of DRAM, MRAM or UFS (R6). -/
abbrev Byte := BitVec 8

end Sys2Proof
end

