-- ==== Sys2Proof/Syntax.lean ====
section
/-! DEFINITION. The commands of the module: one constructor per row of the opcode table, with the row's operands, and the
types of those operands. A host access carries the core that makes it and the value it writes; an event of the machine's
surroundings (a pin, a measurement, a bus frame) carries what the event delivers. -/

namespace Sys2Proof

/-- A command-ring entry (Table 5-4) without its OPCODE: FLAGS (bytes 2-3), HANDLE (4-7), TAG (8-15) and ARGS (16-63),
each little-endian (R6). -/
structure Entry where
  flags : BitVec 16
  handle : Word
  tag : BitVec 64
  args : BitVec 384
  deriving DecidableEq, Repr

/-- The sources of a module reset (Table 3-2). -/
inductive ResetSource where
  | nrst
  | watchdog
  | safety
  deriving DecidableEq, Repr

/-- A sample of a loss input: its code and the LTC at which it was taken (R160). -/
structure LacSample where
  code : BitVec 24
  stamp : Nat
  deriving DecidableEq, Repr

/-- An edge of a digital input: its direction, and for how many µs the new level has lasted (R165). -/
structure DinEdge where
  rise : Bool
  held : Nat
  deriving DecidableEq, Repr

/-- What falls due at a tick of VDR for one of `n` outputs, contexts or requests, with that tick's samples: the current of the outputs
sampled, each at most once, and the boost voltage (R211). -/
structure AtTick (n : Nat) where
  i : Fin n
  samples : List (Fin 64 × BitVec 12)
  vbst : BitVec 16
  deriving DecidableEq, Repr


/-- The commands: one constructor per row of the opcode table. The docstring of each constructor names its row and the rule
that governs it. -/
inductive Instr where
  /-- REG_WRITE (R7). -/
  | regWrite (core : Fin 8) (addr : Nat) (value : Word)
  /-- BAD_ACCESS (R10). -/
  | badAccess (core : Fin 8) (addr size : Nat) (isWrite : Bool)
  /-- RC_READ (R8). -/
  | rcRead (core : Fin 8) (addr : Nat)
  /-- DRAM_READ_UE (R14). -/
  | dramReadUe (reader : Option (Fin 8)) (addr : Nat)
  /-- VSUP_UNDERVOLTAGE (R50). -/
  | vsupUndervoltage (mv : Nat)
  /-- VSUP_UV_CLEAR (R50). -/
  | vsupUvClear (mv : Nat)
  /-- VSUP_OVERVOLTAGE (R50). -/
  | vsupOvervoltage (mv : Nat)
  /-- VSUP_OV_CLEAR (R50). -/
  | vsupOvClear (mv : Nat)
  /-- POWER_ON_RESET (R50). -/
  | powerOnReset
  /-- RESET_HOLD_END (R66). -/
  | resetHoldEnd
  /-- OSCILLATORS_READY (R66). -/
  | oscillatorsReady
  /-- PLL_LOCK (R66). -/
  | pllLock
  /-- SAFETY_DOMAIN_READY (R67). -/
  | safetyDomainReady (ok : Bool) (safe : List (Nat × Word))
  /-- DRAM_READY (R66). -/
  | dramReady
  /-- GESSO_DONE (R80). -/
  | gessoDone (readErr : Bool)
  /-- HOST_FIRMWARE_LOADED (R66). -/
  | hostFirmwareLoaded (ok : Bool)
  /-- RUN_ENTRY (R525). -/
  | runEntry
  /-- START_REGION_LOAD_END (R93). -/
  | startRegionLoadEnd (readErr : Bool) (caps : List (Nat × Word))
  /-- NRST_ASSERT (R52). -/
  | nrstAssert
  /-- MODULE_RESET_ASSERT (R69). -/
  | moduleResetAssert (src : ResetSource)
  /-- MODULE_RESET_RELEASE (R69). -/
  | moduleResetRelease
  /-- KEEP_ALIVE_LOSS (R84). -/
  | keepAliveLoss
  /-- VKA_LOW (R53). -/
  | vkaLow
  /-- IGN_EDGE (R51). -/
  | ignEdge (wakePin rise : Bool)
  /-- VLV_SUPPLY_LOSS (R54). -/
  | vlvSupplyLoss
  /-- VLV_SUPPLY_RECOVER (R222). -/
  | vlvSupplyRecover
  /-- BOOST_DISCHARGE_CHANGEOVER (R60). -/
  | boostDischargeChangeover
  /-- THERMAL_UPDATE (R62). -/
  | thermalUpdate (tj tbp : BitVec 12)
  /-- WDT_KICK (R73). -/
  | wdtKick (core : Fin 8) (value : Word)
  /-- WDT_PERIOD_WRITE (R73). -/
  | wdtPeriodWrite (core : Fin 8) (value : Word)
  /-- WDT_EARLY (R73). -/
  | wdtEarly
  /-- WDT_EXPIRE (R73). -/
  | wdtExpire
  /-- BLOCK_RESET (R74). -/
  | blockReset (core : Fin 8) (value : Word)
  /-- BLK_RST_DONE (R74). -/
  | blkRstDone
  /-- IDLE_REQUEST (R75). -/
  | idleRequest (core : Fin 8) (value : Word)
  /-- IDLE_EXIT (R75). -/
  | idleExit
  /-- PARK_REQUEST (R76). -/
  | parkRequest (core : Fin 8) (value : Word)
  /-- STANDBY_REQUEST (R76). -/
  | standbyRequest (core : Fin 8) (value : Word)
  /-- POWER_STATE_ENTRY_DONE (R76). -/
  | powerStateEntryDone
  /-- PARK_EXIT (R78). -/
  | parkExit (readErr : Bool)
  /-- CAN_WAKE (R432). -/
  | canWake (bus : Fin 2)
  /-- OPSEC_TICK (R84). -/
  | opsecTick
  /-- KA_MIRROR_WRITE (R84). -/
  | kaMirrorWrite
  /-- KA_WRITE_PROPAGATE (R526). -/
  | kaWritePropagate
  /-- ENABLE_SET (R29). -/
  | enableSet (core : Fin 8) (blk : Fin 21) (value : Word)
  /-- CHECK_ENQUEUE (R127). -/
  | checkEnqueue (blk : Fin 21)
  /-- CHECK_END (R103). -/
  | checkEnd
  /-- RELOAD_REQUEST (R95). -/
  | reloadRequest (core : Fin 8) (value : Word)
  /-- RELOAD_CHECK_END (R96). -/
  | reloadCheckEnd (readErr : Bool)
  /-- RELOAD_STOP_END (R98). -/
  | reloadStopEnd
  /-- RELOAD_LOAD_END (R97). -/
  | reloadLoadEnd (readErr : Bool)
  /-- RELOAD_BIND (R96). -/
  | reloadBind (caps : List (Nat × Word))
  /-- CFG_CORR (R102). -/
  | cfgCorr
  /-- CFG_UNCORR (R102). -/
  | cfgUncorr (region : Fin 9)
  /-- SAFE_REGION_UPSET (R264). -/
  | safeRegionUpset
  /-- COMMAND_TAKE (R527). -/
  | commandTake (blk : Fin 21) (ring : Fin 17)
  /-- NOP (R120). -/
  | nop (blk : Fin 21) (ring : Fin 17) (e : Entry)
  /-- UNKNOWN_OPCODE (R120). -/
  | unknownOpcode (blk : Fin 21) (ring : Fin 17) (opcode : BitVec 16) (e : Entry)
  /-- EVT_SET (R129). -/
  | evtSet (core : Fin 8) (src : Fin 384) (value : Word)
  /-- TMS_SNAPSHOT_READ (R134). -/
  | tmsSnapshotRead (core : Fin 8)
  /-- OBS_PUSH (R138). -/
  | obsPush (core : Fin 8) (value : Word)
  /-- OBS_EFFECT (R139). -/
  | obsEffect
  /-- SLEW_END (R140). -/
  | slewEnd
  /-- MT_SECOND (R146). -/
  | mtSecond
  /-- TPULSE_FALL (R146). -/
  | tpulseFall
  /-- TPULSE_SHORT (R319). -/
  | tpulseShort
  /-- SOURCE_INVALID (R143). -/
  | sourceInvalid
  /-- SOURCE_SWITCH (R143). -/
  | sourceSwitch
  /-- HOLDOVER_EXPIRE (R144). -/
  | holdoverExpire
  /-- TMS_DISABLE (R144). -/
  | tmsDisable
  /-- CAPTURE_EDGE (R147). -/
  | captureEdge (ch : Fin 7) (rise : Bool) (stamp : Nat)
  /-- CAP_POP (R148). -/
  | capPop (core : Fin 8) (ch : Fin 7)
  /-- AIN_SAMPLE_PUBLISH (R153). -/
  | ainSamplePublish (n : Fin 48) (frames : List Nat) (stamp : Nat)
  /-- AIN_SHUNT (R155). -/
  | ainShunt (n : Fin 48)
  /-- AIN_REARM (R155). -/
  | ainRearm (core : Fin 8) (n : Fin 48) (value : Word)
  /-- AIN_RAW_READ (R152). -/
  | ainRawRead (core : Fin 8) (n : Fin 48)
  /-- PIN_EDGE (R156). -/
  | pinEdge (n : Fin 24) (rise both : Bool) (stamp held : Nat)
  /-- PIN_GATE_END (R157). -/
  | pinGateEnd (n : Fin 24)
  /-- PIN_STALL (R158). -/
  | pinStall (n : Fin 24)
  /-- PIN_WEAK (R159). -/
  | pinWeak (n : Fin 24)
  /-- PIN_VAL_READ (R157). -/
  | pinValRead (core : Fin 8) (n : Fin 24)
  /-- LAC_SAMPLE (R160). -/
  | lacSample (n : Fin 8) (sample : LacSample)
  /-- LAC_WIN (R161). -/
  | lacWin (n : Fin 8)
  /-- LAC_OPEN (R161). -/
  | lacOpen (n : Fin 8)
  /-- LAC_CNT_READ (R161). -/
  | lacCntRead (core : Fin 8) (n : Fin 8)
  /-- FLOW_WINDOW_END (R162). -/
  | flowWindowEnd
  /-- FLOW_STAT_READ (R162). -/
  | flowStatRead (core : Fin 8)
  /-- SSUP_FAULT (R163). -/
  | ssupFault (k : Fin 6)
  /-- SSUP_ENABLE (R163). -/
  | ssupEnable (core : Fin 8) (value : Word)
  /-- AOUT_FAULT (R164). -/
  | aoutFault (n : Fin 8)
  /-- DIN_EDGE (R165). -/
  | dinEdge (n : Fin 16) (edge : DinEdge)
  /-- INP_DISABLE (R163). -/
  | inpDisable
  /-- CLE_STROBE (R174). -/
  | cleStrobe
  /-- CLE_EVALUATE (R181). -/
  | cleEvaluate (slot : Fin 96)
  /-- CLE_PHASE_POINT (R186). -/
  | clePhasePoint (slot : Fin 96)
  /-- SLOT_CREATE (R187). -/
  | slotCreate (ring : Fin 2) (e : Entry)
  /-- SLOT_DESTROY (R189). -/
  | slotDestroy (ring : Fin 2) (e : Entry)
  /-- SLOT_START (R189). -/
  | slotStart (ring : Fin 2) (e : Entry)
  /-- SLOT_STOP (R189). -/
  | slotStop (ring : Fin 2) (e : Entry)
  /-- COEF_LIVE (R202). -/
  | coefLive (core : Fin 8) (slot : Fin 96) (word : Fin 1024) (value : Word)
  /-- CLE_HOST_SOURCE_WRITE (R177). -/
  | cleHostSourceWrite (core : Fin 8) (slot : Fin 96) (meas : Bool) (value : Word)
  /-- CLE_SAMPLE_READ (R209). -/
  | cleSampleRead (core : Fin 8) (slot : Fin 96)
  /-- CLE_FRAME_READ (R168). -/
  | cleFrameRead (core : Fin 8)
  /-- CLE_DISABLE (R191). -/
  | cleDisable
  /-- VDR_TICK (R211). -/
  | vdrTick (samples : List (Fin 64 × BitVec 12)) (vbst : BitVec 16)
  /-- FAST_REL (R219). -/
  | fastRel (k : AtTick 64)
  /-- OUTPUT_OVERCURRENT (R220). -/
  | outputOvercurrent (k : Fin 64)
  /-- OUTPUT_STB (R220). -/
  | outputStb (k : Fin 64)
  /-- OUTPUT_OPEN (R220). -/
  | outputOpen (k : Fin 64)
  /-- RMS_WINDOW_END (R221). -/
  | rmsWindowEnd
  /-- BANK_OVERCURRENT (R221). -/
  | bankOvercurrent (b : Fin 16)
  /-- VDR_FAULT_CLEAR (R220). -/
  | vdrFaultClear (core : Fin 8) (reg : Fin 80) (value : Word)
  /-- VDR_OUT_CFG_WRITE (R226). -/
  | vdrOutCfgWrite (core : Fin 8) (k : Fin 64) (value : Word)
  /-- VDR_SENSE_READ (R212). -/
  | vdrSenseRead (core : Fin 8) (k : Fin 64)
  /-- BOOST_CHARGE_START (R224). -/
  | boostChargeStart (vbst : BitVec 16)
  /-- BOOST_CHARGE_STOP (R224). -/
  | boostChargeStop (vbst : BitVec 16)
  /-- BST_OVP (R224). -/
  | bstOvp (vbst : BitVec 16)
  /-- VDR_DISABLE (R246). -/
  | vdrDisable
  /-- STROKE_WAIT_END (R231). -/
  | strokeWaitEnd (k : AtTick 64)
  /-- STROKE_RAMP_END (R233). -/
  | strokeRampEnd (k : AtTick 64)
  /-- WCUR_TIMEOUT (R235). -/
  | wcurTimeout (k : AtTick 64)
  /-- WTRG_TIMEOUT (R236). -/
  | wtrgTimeout (k : AtTick 64)
  /-- BOOST_NRDY (R240). -/
  | boostNrdy (k : AtTick 64)
  /-- STROKE_TRIGGER_EDGE (R236). -/
  | strokeTriggerEdge (n : Fin 32) (stamp : Nat)
  /-- SOFT_TRIGGER (R236). -/
  | softTrigger (core : Fin 8) (value : Word)
  /-- START (R242). -/
  | strokeStart (ring : Fin 2) (e : Entry)
  /-- CANCEL (R245). -/
  | strokeCancel (ring : Fin 2) (e : Entry)
  /-- STROKE_START_DUE (R244). -/
  | strokeStartDue (x : AtTick 256)
  /-- DEFER_EXPIRE (R241). -/
  | deferExpire (x : AtTick 256)
  /-- VDR_CTX_READ (R228). -/
  | vdrCtxRead (core : Fin 8) (k : Fin 64)
  /-- SIN_PIN_CHANGE (R252). -/
  | sinPinChange (pair : Fin 8) (memberB : Bool) (reading : Fin 3) (stamp : Nat)
  /-- DISC (R253). -/
  | pairDisc (pair : Fin 8)
  /-- STP_PULSE (R254). -/
  | stpPulse (stp : Fin 2)
  /-- STP_MASK_END (R255). -/
  | stpMaskEnd (stp : Fin 2) (failed : BitVec 8)
  /-- REARM_COMPLETE (R258). -/
  | rearmComplete (who : Fin 9)
  /-- SWITCH_TEST (R261). -/
  | switchTest (c : Fin 4) (upper : Bool)
  /-- SWITCH_TEST_END (R261). -/
  | switchTestEnd (c : Fin 4) (ok : Bool)
  /-- SOUT_OVERCURRENT (R262). -/
  | soutOvercurrent (c : Fin 4)
  /-- SFB_CHANGE (R263). -/
  | sfbChange (c : Fin 4) (closed : Bool)
  /-- FEEDBACK_TIMEOUT (R263). -/
  | feedbackTimeout (c : Fin 4) (which : Fin 3)
  /-- LOCKSTEP_MISMATCH (R264). -/
  | lockstepMismatch
  /-- SELFTEST (R264). -/
  | selftest (pass : Bool)
  /-- SAFETY_RESET_REQUEST (R264). -/
  | safetyResetRequest
  /-- DEG_EXPIRE (R265). -/
  | degExpire
  /-- PARTNER_SAFETY_FIELD (R467). -/
  | partnerSafetyField (sstate sseq : BitVec 8) (pad : BitVec 16) (scrc : Word)
  /-- PARTNER_LOST (R467). -/
  | partnerLost
  /-- ENERGISE (R260). -/
  | mbxEnergise
  /-- RELEASE (R260). -/
  | mbxRelease
  /-- ACK (R269). -/
  | mbxAck
  /-- RESET (R269). -/
  | mbxReset
  /-- MBX_UNKNOWN_OP (R269). -/
  | mbxUnknownOp
  /-- RF_INTERF (R274). -/
  | rfInterf (c : Fin 4) (clips : BitVec 17) (power : BitVec 16) (mean : Option (BitVec 16)) (gain : BitVec 8)
  /-- NOTCH (R275). -/
  | notchLock (c : Fin 4) (freq : BitVec 13) (level width : BitVec 8)
  /-- ANT_FAULT (R276). -/
  | antFault (a : Fin 2) (ma : BitVec 8)
  /-- ANT_BIAS_ENABLE (R276). -/
  | antBiasEnable (core : Fin 8) (a : Fin 2) (value : Word)
  /-- ACQ_START (R280). -/
  | acqStart (ring : Fin 2) (e : Entry)
  /-- ACQ_DONE (R281). -/
  | acqDone (k : Fin 8) (bin : Fin 512) (code dop peak second noise : Word) (cn0 : BitVec 16)
  /-- CH_CREATE (R283). -/
  | chCreate (ring : Fin 2) (e : Entry)
  /-- STEER (R292). -/
  | gnbSteer (ring : Fin 2) (e : Entry)
  /-- CH_DESTROY (R287). -/
  | chDestroy (ring : Fin 2) (e : Entry)
  /-- CH_RESOLVE (R310). -/
  | chResolve (ring : Fin 2) (e : Entry)
  /-- CHANNEL_BOUNDARY (R288). -/
  | channelBoundary (x : Fin 512) (n : Nat) (gain : BitVec 8)
  /-- ACC_TIMEOUT (R291). -/
  | accTimeout
  /-- GNB_DISABLE (R296). -/
  | gnbDisable
  /-- GNB_SC_READ (R279). -/
  | gnbScRead (core : Fin 8) (which : Fin 514)
  /-- MEAS_STROBE (R299). -/
  | measStrobe
  /-- MEAS_BLOCK_WRITE (R302). -/
  | measBlockWrite
  /-- LINK (R324). -/
  | camLink (l : Fin 4) (up : Bool) (gear : Fin 8)
  /-- POC_SHORT (R324). -/
  | pocShort (l : Fin 4)
  /-- POC_OPEN (R324). -/
  | pocOpen (l : Fin 4) (ma : BitVec 9)
  /-- LINK_CFG_WRITE (R324). -/
  | linkCfgWrite (core : Fin 8) (l : Fin 4) (value : Word)
  /-- CSI_PACKET (R325). -/
  | csiPacket (src : Fin 16) (hdr : Fin 3)
  /-- FS (R327). -/
  | frameStart (src : Fin 16) (no : BitVec 16)
  /-- FE (R327). -/
  | frameEnd (src : Fin 16)
  /-- LINE_PACKET (R331). -/
  | linePacket (src : Fin 16) (dt : BitVec 6) (payload : List Byte) (crcOk : Bool)
  /-- FRAME_TIMEOUT (R327). -/
  | frameTimeout (src : Fin 16)
  /-- PIPELINE_LINE (R334). -/
  | pipelineLine (p : Fin 8)
  /-- PIPELINE_SWITCH (R332). -/
  | pipelineSwitch (p : Fin 8)
  /-- FRAME (R342). -/
  | camFrame
  /-- CCI_START (R326). -/
  | cciStart (core : Fin 8) (l : Fin 4) (value : Word)
  /-- CCI (R326). -/
  | cciEnd (l : Fin 4) (result : Fin 3) (data : Word)
  /-- CTX_CREATE (R339). -/
  | ctxCreate (ring : Fin 1) (e : Entry)
  /-- CTX_DESTROY (R341). -/
  | ctxDestroy (ring : Fin 1) (e : Entry)
  /-- CTX_PALETTE (R337). -/
  | ctxPalette (ring : Fin 1) (e : Entry)
  /-- BUF_GIVE (R341). -/
  | bufGive (ring : Fin 1) (e : Entry)
  /-- CTX_BIND (R341). -/
  | ctxBind (ring : Fin 1) (e : Entry)
  /-- CAM_CTX_READ (R342). -/
  | camCtxRead (core : Fin 8) (x : Fin 32)
  /-- CAM_DISABLE (R344). -/
  | camDisable
  /-- PKG_LOAD (R351). -/
  | pkgLoad (ring : Fin 17) (e : Entry)
  /-- PKG_LOAD_DONE (R351). -/
  | pkgLoadDone (slot : Fin 8)
  /-- PKG_UNLOAD (R351). -/
  | pkgUnload (ring : Fin 17) (e : Entry)
  /-- FEN_STREAM_CREATE (R353). -/
  | fenStreamCreate (ring : Fin 17) (e : Entry)
  /-- FEN_STREAM_DESTROY (R354). -/
  | fenStreamDestroy (ring : Fin 17) (e : Entry)
  /-- JOB (R355). -/
  | fenJob (ring : Fin 17) (e : Entry)
  /-- JOB_REQUEST (R356). -/
  | jobRequest (x : Fin 16)
  /-- JOB_COMPLETE (R358). -/
  | jobComplete (x : Fin 16)
  /-- FEN_SRAM_CORRECTED (R347). -/
  | fenSramCorrected
  /-- SRAM_UE (R347). -/
  | sramUe (slot : Option (Fin 8))
  /-- FEN_DISABLE (R366). -/
  | fenDisable
  /-- ARB_DECIDE (R359). -/
  | arbDecide (a : Fin 2) (commit : Bool)
  /-- ARB_FREEZE (R362). -/
  | arbFreeze (core : Fin 8) (a : Fin 2) (value : Word)
  /-- STARVE (R363). -/
  | arbStarve (k : Fin 24)
  /-- HOST_ARB_REQUEST (R361). -/
  | hostArbRequest (core : Fin 8) (value : Word)
  /-- REQ_CREATE (R364). -/
  | reqCreate (ring : Fin 1) (e : Entry)
  /-- REQ_DESTROY (R364). -/
  | reqDestroy (ring : Fin 1) (e : Entry)
  /-- REQ_CLASS (R364). -/
  | reqClass (ring : Fin 1) (e : Entry)
  /-- SRC_CREATE (R372). -/
  | srcCreate (ring : Fin 1) (e : Entry)
  /-- SRC_DESTROY (R374). -/
  | srcDestroy (ring : Fin 1) (e : Entry)
  /-- SUBMIT (R374). -/
  | fusSubmit (ring : Fin 1) (e : Entry)
  /-- CONTRIBUTION_ARRIVE (R379). -/
  | contributionArrive
  /-- IMU_SAMPLE (R377). -/
  | imuSample (gx gy gz ax ay az : BitVec 16)
  /-- FUS_IMU_READ (R377). -/
  | fusImuRead (core : Fin 8)
  /-- INSTANT_BOUNDARY (R380). -/
  | instantBoundary
  /-- INSTANT_CLOSE (R380). -/
  | instantClose
  /-- PUBLICATION_START (R389). -/
  | publicationStart
  /-- INSTANT (R390). -/
  | instantEnd
  /-- CAL_COMMIT (R378). -/
  | calCommit (core : Fin 8) (x : Fin 24) (value : Word)
  /-- VOTE_READMIT (R401). -/
  | voteReadmit (core : Fin 8) (x : Fin 24) (value : Word)
  /-- FUS_CALV_READ (R407). -/
  | fusCalvRead (core : Fin 8) (x : Fin 24)
  /-- FUS_DISABLE (R393). -/
  | fusDisable
  /-- YLD_COMPUTE (R416). -/
  | yldCompute
  /-- TILE (R424). -/
  | yldTile
  /-- LAYER_CREATE (R423). -/
  | layerCreate (ring : Fin 1) (e : Entry)
  /-- LAYER_DESTROY (R423). -/
  | layerDestroy (ring : Fin 1) (e : Entry)
  /-- POSE (R417). -/
  | yldPose (ring : Fin 1) (e : Entry)
  /-- YLD_FLUSH (R423). -/
  | yldFlush (ring : Fin 1) (e : Entry)
  /-- YLD_DISABLE (R425). -/
  | yldDisable
  /-- CAN_FRAME_RX (R434). -/
  | canFrameRx (n : Fin 8) (id : BitVec 31) (fdf brs esi : Bool) (dlc : Fin 16) (data : List Byte) (sof : Nat)
  /-- CAN_TX_DONE (R438). -/
  | canTxDone (n : Fin 8) (x : Option (Fin 2048)) (sof : Nat)
  /-- CAN_TX_ERROR (R439). -/
  | canTxError (n : Fin 8) (x : Option (Fin 2048)) (kind : Fin 4)
  /-- BUS_OFF (R430). -/
  | busOff (n : Fin 8)
  /-- BUS_OFF_RECOVERED (R430). -/
  | busOffRecovered (n : Fin 8)
  /-- RECOVER (R430). -/
  | busRecover (core : Fin 8) (n : Fin 8) (value : Word)
  /-- TXD_DOM (R431). -/
  | txdDom (n : Fin 8)
  /-- BUS_DOM (R431). -/
  | busDom (n : Fin 8)
  /-- OBJ_SEND (R438). -/
  | objSend (core : Fin 8) (x : Fin 2048) (value : Word)
  /-- OBJ_ABORT (R438). -/
  | objAbort (core : Fin 8) (x : Fin 2048) (value : Word)
  /-- BUS_OBJ_READ (R435). -/
  | busObjRead (core : Fin 8) (x : Fin 2048)
  /-- TP_FRAME_RX (R441). -/
  | tpFrameRx (n : Fin 8) (id : BitVec 29) (data : List Byte) (sof : Nat)
  /-- TP_TIMEOUT (R440). -/
  | tpTimeout (k : Fin 32)
  /-- BAM_GAP (R440). -/
  | bamGap (k : Fin 32)
  /-- TP_DELIVERY (R442). -/
  | tpDelivery (k : Fin 32)
  /-- OBJ_CREATE (R434). -/
  | objCreate (ring : Fin 8) (e : Entry)
  /-- OBJ_DESTROY (R434). -/
  | objDestroy (ring : Fin 8) (e : Entry)
  /-- Q_CREATE (R437). -/
  | qCreate (ring : Fin 8) (e : Entry)
  /-- Q_DESTROY (R437). -/
  | qDestroy (ring : Fin 8) (e : Entry)
  /-- TP_SEND (R443). -/
  | tpSend (ring : Fin 8) (e : Entry)
  /-- TP_ABORT (R443). -/
  | tpAbort (ring : Fin 8) (e : Entry)
  /-- BUS_DISABLE (R445). -/
  | busDisable
  /-- ETH_FRAME_RX (R449). -/
  | ethFrameRx (p : Fin 4) (frame : List Byte) (fcsOk : Bool) (full : BitVec 16) (stamp : Nat)
  /-- MAC_AGE_OUT (R449). -/
  | macAgeOut (vid : BitVec 12) (mac : BitVec 48)
  /-- GPTP_SYNC (R453). -/
  | gptpSync (twoStep : Bool) (seq : BitVec 16) (origin : Nat) (corr : BitVec 64) (stamp : Nat)
  /-- GPTP_FOLLOW_UP (R453). -/
  | gptpFollowUp (seq : BitVec 16) (origin : Nat) (corr : BitVec 64)
  /-- FOLLOW_UP_TIMEOUT (R453). -/
  | followUpTimeout 
  /-- PDELAY_REQ (R452). -/
  | pdelayReq (ok : Bool) (delay : BitVec 16)
  /-- GPTP (R453). -/
  | gptpState 
  /-- LIDAR_FRAGMENT (R454). -/
  | lidarFragment (f : Fin 8) (payload : List Byte)
  /-- FLT_RX (R457). -/
  | fltRx (payload : List Byte) (stamp : Nat)
  /-- PEER_CREATE (R457). -/
  | peerCreate (ring : Fin 1) (e : Entry)
  /-- PEER_DESTROY (R457). -/
  | peerDestroy (ring : Fin 1) (e : Entry)
  /-- SEND (R456). -/
  | fleetSend (ring : Fin 1) (e : Entry)
  /-- KEY_LOAD (R455). -/
  | keyLoad (ring : Fin 1) (e : Entry)
  /-- KEY_ERASE (R455). -/
  | keyErase (ring : Fin 1) (e : Entry)
  /-- FRAME_TX (R448). -/
  | frameTx (ring : Fin 1) (e : Entry)
  /-- ETH_TX_COMPLETE (R456). -/
  | ethTxComplete (p : Fin 4)
  /-- ETH_LINK_CHANGE (R458). -/
  | ethLinkChange (p : Fin 4) (up : Bool)
  /-- ETH_DISABLE (R459). -/
  | ethDisable
  /-- PAIR_CYCLE (R463). -/
  | pairCycle 
  /-- HEAD_RX (R464). -/
  | headRx (lane : Fin 2) (cell : List Byte) (stamp : Nat)
  /-- SIG_RX (R469). -/
  | sigRx (lane : Fin 2) (cell : List Byte)
  /-- BULK_RX (R471). -/
  | bulkRx (lane : Fin 2) (cell : List Byte)
  /-- LANE_TIMEOUT (R462). -/
  | laneTimeout (lane : Fin 2)
  /-- BODY_SEND (R470). -/
  | bodySend (ring : Fin 1) (e : Entry)
  /-- BODY_SEND_DONE (R470). -/
  | bodySendDone 
  /-- PAIR_DISABLE (R473). -/
  | pairDisable 
  /-- POWER_ON (R486). -/
  | pnlPowerOn (ring : Fin 1) (e : Entry)
  /-- POWER_OFF (R488). -/
  | pnlPowerOff (ring : Fin 1) (e : Entry)
  /-- REFRESH (R487). -/
  | pnlRefresh (ring : Fin 1) (e : Entry)
  /-- DISCHARGE (R489). -/
  | pnlDischarge (ring : Fin 1) (e : Entry)
  /-- PNL_RAIL_READY (R486). -/
  | pnlRailReady (rail : Fin 5)
  /-- PNL_FRAME (R485). -/
  | pnlFrame 
  /-- RAIL_FAULT (R490). -/
  | railFault (rail : Fin 5)
  /-- PANEL_REMOVED (R490). -/
  | panelRemoved 
  /-- PTEMP_MEASURE (R479). -/
  | ptempMeasure (t : Option (BitVec 12))
  /-- FL_FAULT (R478). -/
  | flFault (short : Bool)
  /-- FL_ENABLE_WRITE (R478). -/
  | flEnableWrite (core : Fin 8) (value : Word)
  /-- PNL_DISABLE (R490). -/
  | pnlDisable 
  /-- REC_SCAN_END (R497). -/
  | recScanEnd 
  /-- REC_STREAM_CREATE (R498). -/
  | recStreamCreate (ring : Fin 1) (e : Entry)
  /-- REC_STREAM_DESTROY (R502). -/
  | recStreamDestroy (ring : Fin 1) (e : Entry)
  /-- PUT (R499). -/
  | recPut (ring : Fin 1) (e : Entry)
  /-- REC_FLUSH (R502). -/
  | recFlush (ring : Fin 1) (e : Entry)
  /-- EXPORT (R505). -/
  | recExport (ring : Fin 1) (e : Entry)
  /-- EXP_DONE (R505). -/
  | expDone 
  /-- REC_WINDOW_CLOSE (R498). -/
  | recWindowClose 
  /-- REC_DISABLE (R506). -/
  | recDisable 
  /-- STAGE (R510). -/
  | updStage (ring : Fin 1) (e : Entry)
  /-- STAGING_END (R512). -/
  | stagingEnd (stop : Option (Fin 64))
  /-- UPD_ABORT (R513). -/
  | updAbort (ring : Fin 1) (e : Entry)
  /-- VARNISH (R514). -/
  | updVarnish (ring : Fin 1) (e : Entry)
  /-- CONFIRM (R516). -/
  | updConfirm (ring : Fin 1) (e : Entry)
  /-- LC_CHANGE (R520). -/
  | lcChange (ring : Fin 1) (e : Entry)
  /-- KEY_PROG (R521). -/
  | keyProg (ring : Fin 1) (e : Entry)
  /-- USB_ENABLE (R522). -/
  | usbEnable (core : Fin 8) (value : Word)
  /-- USB_DATA (R522). -/
  | usbData (data : List Byte)
  /-- USB_RECOVERY (R522). -/
  | usbRecovery (pkg : List Byte) (stop : Option (Fin 64))
  /-- UPD_DISABLE (R513). -/
  | updDisable 
  /-- VLV_SUPPLY_RETURN (R54). -/
  | vlvSupplyReturn
  /-- SSUP_LIMIT (R163). -/
  | ssupLimit (k : Fin 6) (ovr : Bool)
  /-- CAN_RX_ERROR (R430). -/
  | canRxError (n : Fin 8) (kind : Fin 3)
  /-- CAN_BUS_INTEGRATION (R445). -/
  | canBusIntegration (n : Fin 8)
  /-- ANT_OPEN_CLEAR (R276). -/
  | antOpenClear (a : Fin 2) (ma : BitVec 8)
  /-- POC_OPEN_CLEAR (R324). -/
  | pocOpenClear (l : Fin 4) (ma : BitVec 9)
  /-- PAIR_CELL_CRC_FAIL (R462). -/
  | pairCellCrcFail (lane : Fin 2)
  /-- PDET_CHANGE (R495). -/
  | pdetChange (present : Bool)
  /-- PNL_RAIL_DOWN (R488). -/
  | pnlRailDown (rail : Fin 5)
  /-- USB_VBUS_CHANGE (R522). -/
  | usbVbusChange (present : Bool)
  deriving DecidableEq, Repr

end Sys2Proof
end

