-- ==== Sys2Proof/Config.lean ====
section
/-! DEFINITION. What an implementation fixes and the spec leaves open: free values and uninterpreted functions. None of
them has a body, so no proof can rest on a value of one (log entries 1 and 2). -/

namespace Sys2Proof.Config

/-- The free value drawn when the counter `State.free` reads `n`: used wherever the spec states that a value results but
not which (log entry 1). -/
opaque freeValue : Nat → Nat

/-- Slot of a completion written at an LTC, on a ring and after a completion sequence, once CRING_CI has been written past CRING_PI
(Table 5-6, log entry 94). -/
opaque strayCompletion : (ltc ring seq : Nat) → Nat

/-- Error of the stamp of sample-count mark `k`, of which only the bounds of R279 are used (log entry 12). -/
opaque markError : (k : Nat) → Nat

/-- A sample of chain `c` of the run of SC that began at LTC `t0`: the bits of I (2:0) and Q (5:3) of sample `j` (R273). The RF signal, the
notches and the AGC decide it (log entry 124). -/
opaque rfSample : (c t0 j : Nat) → Nat

/-- A chip of a primary code: signal, PRN, data or pilot component, index (R278). -/
opaque codeChip : (sig prn : Nat) → (data : Bool) → (idx : Nat) → Bool

/-- A chip of a secondary code (R286). -/
opaque secondaryChip : (sig prn : Nat) → (data : Bool) → (idx : Nat) → Bool

/-- The carrier replica's factors for the top 6 bits of θ (R286). -/
opaque carrierReplica : Nat → Int × Int

/-- What a model package computes: its body, its DRAM section, the job's input and its PARAM bytes give the output payload, as
a little-endian number (R348). Uninterpreted (log entry 13). -/
opaque fenResult : (body section0 input : List Byte) → (param : Nat) → Nat

/-- The UFS data partition: its first 4,096-byte block and its number of blocks (log entry 17). -/
opaque dataPartition : Nat × Nat

/-- SHA-384 (FIPS 180-4) over a list of bytes: 48 bytes. Uninterpreted (log entry 2). -/
opaque sha384Digest : List Byte → BitVec 384

/-- The digest's 48 bytes read as a little-endian number. -/
def sha384 (l : List Byte) : Nat := (sha384Digest l).toNat

/-- ECDSA P-384 with SHA-384 (FIPS 186-5): does the signature `r`, `s` (big-endian numbers) over `msg` verify under the
public key of one-time key slot content `key`? Uninterpreted (log entry 2). -/
opaque ecdsaVerify : (key : Nat) → (msg : List Byte) → (r s : Nat) → Bool

/-- Chroenaver's public key, in one-time key slot 0 from the factory (R521). Uninterpreted (log entry 2). -/
opaque factoryKey : Nat

/-- Is the 96-byte point on the P-384 curve? Uninterpreted (log entry 2). -/
opaque onCurve : Nat → Bool

/-- AES-256-GCM sealing: byte `i` of the ciphertext, and the tag, of a plaintext under key, nonce and additional data. Uninterpreted (log
entry 2). -/
opaque gcmByte : (key nonce : Nat) → (aad plain : List Byte) → (i : Nat) → Byte
opaque gcmTag : (key nonce : Nat) → (aad plain : List Byte) → BitVec 128

/-- AES-256-GCM opening: is the tag right, and byte `i` of the plaintext. Uninterpreted (log entry 2). -/
opaque gcmOpens : (key nonce : Nat) → (aad cipher : List Byte) → (tag : List Byte) → Bool
opaque gcmPlain : (key nonce : Nat) → (aad cipher : List Byte) → (i : Nat) → Byte

/-- Sealing gives a ciphertext as long as the plaintext and a 16-byte tag. -/
def aesGcmSeal (key nonce : Nat) (aad plain : List Byte) : List Byte × List Byte :=
  ((List.range plain.length).map (gcmByte key nonce aad plain), (List.range 16).map fun i => (gcmTag key nonce aad plain).extractLsb' (8 * i) 8)

/-- Opening gives a plaintext as long as the ciphertext where the tag is right. -/
def aesGcmOpen (key nonce : Nat) (aad cipher tag : List Byte) : Option (List Byte) :=
  if gcmOpens key nonce aad cipher tag then some ((List.range cipher.length).map (gcmPlain key nonce aad cipher)) else none

end Sys2Proof.Config
end

