-- ==== Sys2Proof/Machine/Bits.lean ====
section
/-! DEFINITION. Bit fields, signed fields and little-endian bytes (R6), and the saturating counters that many register
tables name. -/

namespace Sys2Proof.Machine

/-- Bits `[lo + n - 1 : lo]` of `v`. -/
def bitsOf (v lo n : Nat) : Nat := v / 2 ^ lo % 2 ^ n

/-- `v` with bits `[lo + n - 1 : lo]` replaced by the low `n` bits of `x`. -/
def putBits (v lo n x : Nat) : Nat :=
  v / 2 ^ (lo + n) * 2 ^ (lo + n) + x % 2 ^ n * 2 ^ lo + v % 2 ^ lo

/-- Is bit `i` of `v` one? -/
def bitAt (v i : Nat) : Bool := v / 2 ^ i % 2 = 1

/-- A Boolean as a one-bit field. -/
def b2n (b : Bool) : Nat := if b then 1 else 0

/-- The signed value of an `n`-bit two's-complement field. -/
def toSigned (n v : Nat) : Int :=
  if v % 2 ^ n < 2 ^ (n - 1) then (v % 2 ^ n : Nat) else ((v % 2 ^ n : Nat) : Int) - (2 ^ n : Nat)

/-- The `n`-bit two's-complement field of a signed value. -/
def fromSigned (n : Nat) (i : Int) : Nat := (i % (2 ^ n : Nat)).toNat

/-- Saturation of a signed value between two bounds. -/
def clampInt (lo hi i : Int) : Int := if i < lo then lo else if hi < i then hi else i

/-- Saturation of a natural value at `m`. -/
def satTo (m v : Nat) : Nat := if v < m then v else m

/-- Division rounded up. -/
def ceilDiv (a b : Nat) : Nat := (a + b - 1) / b

/-- Floor division of integers by a positive natural. -/
def floorDivNat (a : Int) (b : Nat) : Int := a.fdiv (b : Int)

/-- Division rounded to nearest, halves up. -/
def roundDiv (a : Int) (b : Nat) : Int := (2 * a + b).fdiv (2 * (b : Int))

/-- The `n` little-endian bytes of `v` (R6). -/
def bytesLE : Nat → Nat → List Byte
  | 0, _ => []
  | n + 1, v => BitVec.ofNat 8 v :: bytesLE n (v / 256)

/-- The value of little-endian bytes (R6). -/
def natLE : List Byte → Nat
  | [] => 0
  | b :: bs => b.toNat + 256 * natLE bs

/-- The value of big-endian bytes. -/
def natBE (bs : List Byte) : Nat := natLE bs.reverse

/-- The low and the high word of a 64-bit stamp. -/
def lo32 (v : Nat) : Nat := v % 2 ^ 32
def hi32 (v : Nat) : Nat := v / 2 ^ 32 % 2 ^ 32

/-- The number of one bits among the low `n` bits. -/
def popCount : Nat → Nat → Nat
  | 0, _ => 0
  | n + 1, v => v % 2 + popCount n (v / 2)

end Sys2Proof.Machine
end

