-- ==== Sys2Proof/Machine/RegMap.lean ====
section
/-! DEFINITION. The register map of the module: every register of the spec's register tables as an address, every field
as a `Fld` (address, lowest bit, width), and for each block the list of register descriptors that gives, per access
code of Table 0-4 (R7), the mask of the bits with that code, and the reset value of Table columns "Reset".
Register and field names are the spec's own. The index of an array of registers counts modulo the array's length, so that every name is a
register of its block; no command names an index beyond it. -/

namespace Sys2Proof.Machine

/-- A register field: the register's address in the peripheral space, the field's lowest bit and its width. -/
structure Fld where
  addr : Nat
  lo : Nat
  width : Nat
  deriving DecidableEq, Repr

/-- One line of a register table. `base`, strides and counts place the register (or the array of registers); the
masks give the bits of each access code of Table 0-4; `img` marks the bits whose value comes from the loaded
structure image; `reset` is the value of the Reset column (0 where that column gives no number: log entry 3). -/
structure RegDesc where
  base : Nat
  s1 : Nat
  n1 : Nat
  s2 : Nat
  n2 : Nat
  rw : Nat
  ro : Nat
  wo : Nat
  w1c : Nat
  rc : Nat
  rwl : Nat
  img : Nat
  reset : Nat
  deriving DecidableEq, Repr

/-- Is `a` the address of one of the registers of this line? -/
def RegDesc.covers (d : RegDesc) (a : Nat) : Bool :=
  d.base ≤ a && (a - d.base) / d.s1 < d.n1 && ((a - d.base) % d.s1) % d.s2 = 0
    && ((a - d.base) % d.s1) / d.s2 < d.n2

/-- SYS_ID: 00_scope.md. -/
def SYS_ID : Nat := 0xC0000000
def SYS_ID.GNSS_FIT : Fld := ⟨SYS_ID, 16, 1⟩
def SYS_ID.VARIANT : Fld := ⟨SYS_ID, 8, 8⟩
def SYS_ID.STEP_MAJOR : Fld := ⟨SYS_ID, 4, 4⟩
def SYS_ID.STEP_MINOR : Fld := ⟨SYS_ID, 0, 4⟩
/-- SYS_DET_STATUS: 01_architecture.md. -/
def SYS_DET_STATUS : Nat := 0xC0000040
def SYS_DET_STATUS.RECONF : Fld := ⟨SYS_DET_STATUS, 7, 1⟩
def SYS_DET_STATUS.REC_LATE : Fld := ⟨SYS_DET_STATUS, 6, 1⟩
def SYS_DET_STATUS.YLD_LATE : Fld := ⟨SYS_DET_STATUS, 5, 1⟩
def SYS_DET_STATUS.GNB_STEER : Fld := ⟨SYS_DET_STATUS, 4, 1⟩
def SYS_DET_STATUS.FUS_LATE : Fld := ⟨SYS_DET_STATUS, 3, 1⟩
def SYS_DET_STATUS.STK_LATE : Fld := ⟨SYS_DET_STATUS, 2, 1⟩
def SYS_DET_STATUS.CLE_COEF : Fld := ⟨SYS_DET_STATUS, 1, 1⟩
def SYS_DET_STATUS.CLE_LATE : Fld := ⟨SYS_DET_STATUS, 0, 1⟩
/-- SYS_DET_FIRST_LO: 01_architecture.md. -/
def SYS_DET_FIRST_LO : Nat := 0xC0000044
def SYS_DET_FIRST_LO.LTC_LO : Fld := ⟨SYS_DET_FIRST_LO, 0, 32⟩
/-- SYS_DET_FIRST_HI: 01_architecture.md. -/
def SYS_DET_FIRST_HI : Nat := 0xC0000048
def SYS_DET_FIRST_HI.LTC_HI : Fld := ⟨SYS_DET_FIRST_HI, 0, 32⟩
/-- SYS_SUPPLY: 02_connectors_power.md. -/
def SYS_SUPPLY : Nat := 0xC0000050
def SYS_SUPPLY.WAKE : Fld := ⟨SYS_SUPPLY, 28, 1⟩
def SYS_SUPPLY.IGN : Fld := ⟨SYS_SUPPLY, 27, 1⟩
def SYS_SUPPLY.VLV_OK : Fld := ⟨SYS_SUPPLY, 26, 1⟩
def SYS_SUPPLY.OV : Fld := ⟨SYS_SUPPLY, 25, 1⟩
def SYS_SUPPLY.UV : Fld := ⟨SYS_SUPPLY, 24, 1⟩
def SYS_SUPPLY.VLV_LOSS : Fld := ⟨SYS_SUPPLY, 19, 1⟩
def SYS_SUPPLY.VKA_LOW : Fld := ⟨SYS_SUPPLY, 18, 1⟩
def SYS_SUPPLY.OV_WARN : Fld := ⟨SYS_SUPPLY, 17, 1⟩
def SYS_SUPPLY.UV_WARN : Fld := ⟨SYS_SUPPLY, 16, 1⟩
def SYS_SUPPLY.VSUP_MV : Fld := ⟨SYS_SUPPLY, 0, 16⟩
/-- SYS_TEMP: 02_connectors_power.md. -/
def SYS_TEMP : Nat := 0xC0000054
def SYS_TEMP.THROTTLE : Fld := ⟨SYS_TEMP, 29, 1⟩
def SYS_TEMP.WARN : Fld := ⟨SYS_TEMP, 28, 1⟩
def SYS_TEMP.TBP : Fld := ⟨SYS_TEMP, 16, 12⟩
def SYS_TEMP.TJ : Fld := ⟨SYS_TEMP, 0, 12⟩
/-- SYS_RST_CAUSE: 03_start_reset_retention.md. -/
def SYS_RST_CAUSE : Nat := 0xC0000060
def SYS_RST_CAUSE.LAST : Fld := ⟨SYS_RST_CAUSE, 8, 4⟩
def SYS_RST_CAUSE.PARK_EXIT : Fld := ⟨SYS_RST_CAUSE, 6, 1⟩
def SYS_RST_CAUSE.SAFE_REQ : Fld := ⟨SYS_RST_CAUSE, 5, 1⟩
def SYS_RST_CAUSE.WDT : Fld := ⟨SYS_RST_CAUSE, 4, 1⟩
def SYS_RST_CAUSE.NRST : Fld := ⟨SYS_RST_CAUSE, 3, 1⟩
def SYS_RST_CAUSE.STBY_EXIT : Fld := ⟨SYS_RST_CAUSE, 2, 1⟩
def SYS_RST_CAUSE.POR : Fld := ⟨SYS_RST_CAUSE, 1, 1⟩
def SYS_RST_CAUSE.KA_LOSS : Fld := ⟨SYS_RST_CAUSE, 0, 1⟩
/-- SYS_WDT_CFG: 03_start_reset_retention.md. -/
def SYS_WDT_CFG : Nat := 0xC0000064
def SYS_WDT_CFG.PERIOD : Fld := ⟨SYS_WDT_CFG, 0, 16⟩
/-- SYS_WDT_KICK: 03_start_reset_retention.md. -/
def SYS_WDT_KICK : Nat := 0xC0000068
def SYS_WDT_KICK.KEY : Fld := ⟨SYS_WDT_KICK, 0, 32⟩
/-- SYS_BLK_RST: 03_start_reset_retention.md. -/
def SYS_BLK_RST : Nat := 0xC0000080
def SYS_BLK_RST.BUSY : Fld := ⟨SYS_BLK_RST, 31, 1⟩
def SYS_BLK_RST.BLK : Fld := ⟨SYS_BLK_RST, 0, 8⟩
/-- SYS_PWR_REQ: 03_start_reset_retention.md. -/
def SYS_PWR_REQ : Nat := 0xC0000070
def SYS_PWR_REQ.KEY : Fld := ⟨SYS_PWR_REQ, 16, 16⟩
def SYS_PWR_REQ.STATE : Fld := ⟨SYS_PWR_REQ, 0, 2⟩
/-- SYS_PWR_STAT: 03_start_reset_retention.md. -/
def SYS_PWR_STAT : Nat := 0xC0000074
def SYS_PWR_STAT.REASON : Fld := ⟨SYS_PWR_STAT, 16, 16⟩
def SYS_PWR_STAT.BUSY : Fld := ⟨SYS_PWR_STAT, 0, 1⟩
/-- SYS_RESUME_LO: 03_start_reset_retention.md. -/
def SYS_RESUME_LO : Nat := 0xC0000078
def SYS_RESUME_LO.ADDR_LO : Fld := ⟨SYS_RESUME_LO, 2, 30⟩
/-- SYS_RESUME_HI: 03_start_reset_retention.md. -/
def SYS_RESUME_HI : Nat := 0xC000007C
def SYS_RESUME_HI.ADDR_HI : Fld := ⟨SYS_RESUME_HI, 0, 32⟩
/-- KA_OPSEC: 03_start_reset_retention.md. -/
def KA_OPSEC : Nat := 0xD4000000
def KA_OPSEC.OPSEC : Fld := ⟨KA_OPSEC, 0, 32⟩
/-- KA_PWRCYC: 03_start_reset_retention.md. -/
def KA_PWRCYC : Nat := 0xD4000004
def KA_PWRCYC.PWRCYC : Fld := ⟨KA_PWRCYC, 0, 32⟩
/-- KA_FLAGS: 03_start_reset_retention.md. -/
def KA_FLAGS : Nat := 0xD4000008
def KA_FLAGS.WAKE_CAN1 : Fld := ⟨KA_FLAGS, 11, 1⟩
def KA_FLAGS.WAKE_CAN0 : Fld := ⟨KA_FLAGS, 10, 1⟩
def KA_FLAGS.WAKE_PIN : Fld := ⟨KA_FLAGS, 9, 1⟩
def KA_FLAGS.WAKE_IGN : Fld := ⟨KA_FLAGS, 8, 1⟩
def KA_FLAGS.KA_LOST : Fld := ⟨KA_FLAGS, 1, 1⟩
def KA_FLAGS.ORDERLY : Fld := ⟨KA_FLAGS, 0, 1⟩
/-- STR_STATUS: 04_structure_image.md. -/
def STR_STATUS : Nat := 0xC2000000
def STR_STATUS.BOOT_DONE : Fld := ⟨STR_STATUS, 31, 1⟩
def STR_STATUS.BUSY : Fld := ⟨STR_STATUS, 16, 10⟩
def STR_STATUS.LOADED : Fld := ⟨STR_STATUS, 0, 10⟩
/-- STR_IFACE_LO: 04_structure_image.md. -/
def STR_IFACE_LO : Nat := 0xC2000004
def STR_IFACE_LO.IFACE_LO : Fld := ⟨STR_IFACE_LO, 0, 32⟩
/-- STR_IFACE_HI: 04_structure_image.md. -/
def STR_IFACE_HI : Nat := 0xC2000008
def STR_IFACE_HI.IFACE_HI : Fld := ⟨STR_IFACE_HI, 0, 32⟩
/-- STR_IDENT: 04_structure_image.md. -/
def STR_IDENT (i : Nat) : Nat := 0xC2000010 + 0x4 * (i % 4)
def STR_IDENT.IDENT (i : Nat) : Fld := ⟨STR_IDENT i, 0, 32⟩
/-- STR_RLD_CTRL: 04_structure_image.md. -/
def STR_RLD_CTRL : Nat := 0xC2000040
def STR_RLD_CTRL.START : Fld := ⟨STR_RLD_CTRL, 31, 1⟩
def STR_RLD_CTRL.FORCE : Fld := ⟨STR_RLD_CTRL, 8, 1⟩
def STR_RLD_CTRL.SRC : Fld := ⟨STR_RLD_CTRL, 4, 1⟩
def STR_RLD_CTRL.REGION : Fld := ⟨STR_RLD_CTRL, 0, 4⟩
/-- STR_RLD_ADDR_LO: 04_structure_image.md. -/
def STR_RLD_ADDR_LO : Nat := 0xC2000044
def STR_RLD_ADDR_LO.ADDR_LO : Fld := ⟨STR_RLD_ADDR_LO, 12, 20⟩
/-- STR_RLD_ADDR_HI: 04_structure_image.md. -/
def STR_RLD_ADDR_HI : Nat := 0xC2000048
def STR_RLD_ADDR_HI.ADDR_HI : Fld := ⟨STR_RLD_ADDR_HI, 0, 32⟩
/-- STR_RLD_LEN: 04_structure_image.md. -/
def STR_RLD_LEN : Nat := 0xC200004C
def STR_RLD_LEN.LEN : Fld := ⟨STR_RLD_LEN, 0, 16⟩
/-- STR_RLD_STAT: 04_structure_image.md. -/
def STR_RLD_STAT : Nat := 0xC2000050
def STR_RLD_STAT.BUSY : Fld := ⟨STR_RLD_STAT, 31, 1⟩
def STR_RLD_STAT.PHASE : Fld := ⟨STR_RLD_STAT, 28, 3⟩
def STR_RLD_STAT.REGION : Fld := ⟨STR_RLD_STAT, 24, 4⟩
def STR_RLD_STAT.REASON : Fld := ⟨STR_RLD_STAT, 0, 16⟩
/-- STR_RECONF_CNT: 04_structure_image.md. -/
def STR_RECONF_CNT : Nat := 0xC2000054
def STR_RECONF_CNT.COUNT : Fld := ⟨STR_RECONF_CNT, 0, 16⟩
/-- STR_SCRUB_CNT: 04_structure_image.md. -/
def STR_SCRUB_CNT : Nat := 0xC2000058
def STR_SCRUB_CNT.CORR : Fld := ⟨STR_SCRUB_CNT, 0, 16⟩
/-- STR_SCRUB_UE: 04_structure_image.md. -/
def STR_SCRUB_UE : Nat := 0xC200005C
def STR_SCRUB_UE.UE : Fld := ⟨STR_SCRUB_UE, 0, 9⟩
/-- STR_CHK_RES: 04_structure_image.md. -/
def STR_CHK_RES (i : Nat) : Nat := 0xC2000100 + 0x8 * (i % 21)
def STR_CHK_RES.RUN (i : Nat) : Fld := ⟨STR_CHK_RES i, 31, 1⟩
def STR_CHK_RES.PASS (i : Nat) : Fld := ⟨STR_CHK_RES i, 30, 1⟩
def STR_CHK_RES.COUNT (i : Nat) : Fld := ⟨STR_CHK_RES i, 16, 8⟩
def STR_CHK_RES.REASON (i : Nat) : Fld := ⟨STR_CHK_RES i, 0, 16⟩
/-- STR_CHK_DET: 04_structure_image.md. -/
def STR_CHK_DET (i : Nat) : Nat := 0xC2000104 + 0x8 * (i % 21)
def STR_CHK_DET.OFFSET (i : Nat) : Fld := ⟨STR_CHK_DET i, 0, 24⟩
/-- SYS_DEBUG: 05_handles_rings_events.md. -/
def SYS_DEBUG : Nat := 0xC0000090
def SYS_DEBUG.HCHK : Fld := ⟨SYS_DEBUG, 0, 1⟩
/-- EVT_PEND: 05_handles_rings_events.md. -/
def EVT_PEND (i : Nat) : Nat := 0xC1000100 + 0x4 * (i % 12)
def EVT_PEND.PEND (i : Nat) : Fld := ⟨EVT_PEND i, 0, 32⟩
/-- EVT_CLAIM: 05_handles_rings_events.md. -/
def EVT_CLAIM (i : Nat) : Nat := 0xC1000200 + 0x4 * (i % 8)
def EVT_CLAIM.ID (i : Nat) : Fld := ⟨EVT_CLAIM i, 0, 9⟩
/-- EVT_SRC_CFG: 05_handles_rings_events.md. -/
def EVT_SRC_CFG (i : Nat) : Nat := 0xC1001000 + 0x10 * (i % 384)
def EVT_SRC_CFG.EN (i : Nat) : Fld := ⟨EVT_SRC_CFG i, 31, 1⟩
def EVT_SRC_CFG.PRIO (i : Nat) : Fld := ⟨EVT_SRC_CFG i, 24, 3⟩
def EVT_SRC_CFG.TGT (i : Nat) : Fld := ⟨EVT_SRC_CFG i, 0, 8⟩
/-- EVT_SRC_STAT: 05_handles_rings_events.md. -/
def EVT_SRC_STAT (i : Nat) : Nat := 0xC1001004 + 0x10 * (i % 384)
def EVT_SRC_STAT.SET (i : Nat) : Fld := ⟨EVT_SRC_STAT i, 2, 1⟩
def EVT_SRC_STAT.MULTI (i : Nat) : Fld := ⟨EVT_SRC_STAT i, 1, 1⟩
def EVT_SRC_STAT.PEND (i : Nat) : Fld := ⟨EVT_SRC_STAT i, 0, 1⟩
/-- EVT_SRC_LTC_LO: 05_handles_rings_events.md. -/
def EVT_SRC_LTC_LO (i : Nat) : Nat := 0xC1001008 + 0x10 * (i % 384)
def EVT_SRC_LTC_LO.LTC_LO (i : Nat) : Fld := ⟨EVT_SRC_LTC_LO i, 0, 32⟩
/-- EVT_SRC_LTC_HI: 05_handles_rings_events.md. -/
def EVT_SRC_LTC_HI (i : Nat) : Nat := 0xC100100C + 0x10 * (i % 384)
def EVT_SRC_LTC_HI.LTC_HI (i : Nat) : Fld := ⟨EVT_SRC_LTC_HI i, 0, 32⟩
/-- TMS_CTRL: 06_time_base.md. -/
def TMS_CTRL : Nat := 0xC3000000
def TMS_CTRL.ENABLE : Fld := ⟨TMS_CTRL, 0, 1⟩
/-- TMS_STATUS: 06_time_base.md. -/
def TMS_STATUS : Nat := 0xC3000004
def TMS_STATUS.HOLD_S : Fld := ⟨TMS_STATUS, 16, 16⟩
def TMS_STATUS.VALID : Fld := ⟨TMS_STATUS, 12, 3⟩
def TMS_STATUS.SLEW : Fld := ⟨TMS_STATUS, 9, 1⟩
def TMS_STATUS.STEP_PEND : Fld := ⟨TMS_STATUS, 8, 1⟩
def TMS_STATUS.REJ : Fld := ⟨TMS_STATUS, 6, 2⟩
def TMS_STATUS.SRC : Fld := ⟨TMS_STATUS, 4, 2⟩
def TMS_STATUS.STATE : Fld := ⟨TMS_STATUS, 0, 2⟩
/-- TMS_LTC_LO: 06_time_base.md. -/
def TMS_LTC_LO : Nat := 0xC3000010
def TMS_LTC_LO.LTC_LO : Fld := ⟨TMS_LTC_LO, 0, 32⟩
/-- TMS_LTC_HI: 06_time_base.md. -/
def TMS_LTC_HI : Nat := 0xC3000014
def TMS_LTC_HI.LTC_HI : Fld := ⟨TMS_LTC_HI, 0, 32⟩
/-- TMS_MT_LO: 06_time_base.md. -/
def TMS_MT_LO : Nat := 0xC3000018
def TMS_MT_LO.MT_LO : Fld := ⟨TMS_MT_LO, 0, 32⟩
/-- TMS_MT_HI: 06_time_base.md. -/
def TMS_MT_HI : Nat := 0xC300001C
def TMS_MT_HI.MT_HI : Fld := ⟨TMS_MT_HI, 0, 32⟩
/-- TMS_REL_SEQ: 06_time_base.md. -/
def TMS_REL_SEQ : Nat := 0xC3000020
def TMS_REL_SEQ.SEQ : Fld := ⟨TMS_REL_SEQ, 0, 32⟩
/-- TMS_REL_LTC_LO: 06_time_base.md. -/
def TMS_REL_LTC_LO : Nat := 0xC3000024
def TMS_REL_LTC_LO.LTC_REF : Fld := ⟨TMS_REL_LTC_LO, 0, 32⟩
/-- TMS_REL_LTC_HI: 06_time_base.md. -/
def TMS_REL_LTC_HI : Nat := 0xC3000028
def TMS_REL_LTC_HI.LTC_REF : Fld := ⟨TMS_REL_LTC_HI, 0, 32⟩
/-- TMS_REL_OFF_LO: 06_time_base.md. -/
def TMS_REL_OFF_LO : Nat := 0xC300002C
def TMS_REL_OFF_LO.OFFSET : Fld := ⟨TMS_REL_OFF_LO, 0, 32⟩
/-- TMS_REL_OFF_HI: 06_time_base.md. -/
def TMS_REL_OFF_HI : Nat := 0xC3000030
def TMS_REL_OFF_HI.OFFSET : Fld := ⟨TMS_REL_OFF_HI, 0, 32⟩
/-- TMS_REL_RATE: 06_time_base.md. -/
def TMS_REL_RATE : Nat := 0xC3000034
def TMS_REL_RATE.RATE : Fld := ⟨TMS_REL_RATE, 0, 32⟩
/-- TMS_SRC_CFG: 06_time_base.md. -/
def TMS_SRC_CFG : Nat := 0xC3000060
def TMS_SRC_CFG.SWITCH_HOLD : Fld := ⟨TMS_SRC_CFG, 16, 8⟩
def TMS_SRC_CFG.PRI_PAIR : Fld := ⟨TMS_SRC_CFG, 8, 2⟩
def TMS_SRC_CFG.PRI_GPTP : Fld := ⟨TMS_SRC_CFG, 4, 2⟩
def TMS_SRC_CFG.PRI_GNSS : Fld := ⟨TMS_SRC_CFG, 0, 2⟩
/-- TMS_SERVO_KP: 06_time_base.md. -/
def TMS_SERVO_KP : Nat := 0xC3000064
def TMS_SERVO_KP.KP : Fld := ⟨TMS_SERVO_KP, 0, 32⟩
/-- TMS_SERVO_KF: 06_time_base.md. -/
def TMS_SERVO_KF : Nat := 0xC3000068
def TMS_SERVO_KF.KF : Fld := ⟨TMS_SERVO_KF, 0, 32⟩
/-- TMS_SLEW_MAX: 06_time_base.md. -/
def TMS_SLEW_MAX : Nat := 0xC300006C
def TMS_SLEW_MAX.RATE_MAX : Fld := ⟨TMS_SLEW_MAX, 0, 6⟩
/-- TMS_HOLD_LIMIT: 06_time_base.md. -/
def TMS_HOLD_LIMIT : Nat := 0xC3000070
def TMS_HOLD_LIMIT.LIMIT : Fld := ⟨TMS_HOLD_LIMIT, 0, 16⟩
/-- TMS_OBS_LTC_LO: 06_time_base.md. -/
def TMS_OBS_LTC_LO : Nat := 0xC3000080
def TMS_OBS_LTC_LO.L : Fld := ⟨TMS_OBS_LTC_LO, 0, 32⟩
/-- TMS_OBS_LTC_HI: 06_time_base.md. -/
def TMS_OBS_LTC_HI : Nat := 0xC3000084
def TMS_OBS_LTC_HI.L : Fld := ⟨TMS_OBS_LTC_HI, 0, 32⟩
/-- TMS_OBS_MT_LO: 06_time_base.md. -/
def TMS_OBS_MT_LO : Nat := 0xC3000088
def TMS_OBS_MT_LO.M : Fld := ⟨TMS_OBS_MT_LO, 0, 32⟩
/-- TMS_OBS_MT_HI: 06_time_base.md. -/
def TMS_OBS_MT_HI : Nat := 0xC300008C
def TMS_OBS_MT_HI.M : Fld := ⟨TMS_OBS_MT_HI, 0, 32⟩
/-- TMS_OBS_FRAC: 06_time_base.md. -/
def TMS_OBS_FRAC : Nat := 0xC3000090
def TMS_OBS_FRAC.FRAC : Fld := ⟨TMS_OBS_FRAC, 0, 16⟩
/-- TMS_OBS_CTRL: 06_time_base.md. -/
def TMS_OBS_CTRL : Nat := 0xC3000094
def TMS_OBS_CTRL.PUSH : Fld := ⟨TMS_OBS_CTRL, 31, 1⟩
def TMS_OBS_CTRL.PEND : Fld := ⟨TMS_OBS_CTRL, 16, 1⟩
def TMS_OBS_CTRL.REASON : Fld := ⟨TMS_OBS_CTRL, 0, 16⟩
/-- TMS_TP_CFG: 06_time_base.md. -/
def TMS_TP_CFG : Nat := 0xC30000A0
def TMS_TP_CFG.TP_EN : Fld := ⟨TMS_TP_CFG, 31, 1⟩
def TMS_TP_CFG.WIDTH : Fld := ⟨TMS_TP_CFG, 0, 19⟩
/-- TMS_CAP_CFG: 06_time_base.md. -/
def TMS_CAP_CFG (i : Nat) : Nat := 0xC3000100 + 0x10 * (i % 7)
def TMS_CAP_CFG.IRQ (i : Nat) : Fld := ⟨TMS_CAP_CFG i, 2, 1⟩
def TMS_CAP_CFG.EDGE (i : Nat) : Fld := ⟨TMS_CAP_CFG i, 0, 2⟩
/-- TMS_CAP_STAT: 06_time_base.md. -/
def TMS_CAP_STAT (i : Nat) : Nat := 0xC3000104 + 0x10 * (i % 7)
def TMS_CAP_STAT.POP (i : Nat) : Fld := ⟨TMS_CAP_STAT i, 31, 1⟩
def TMS_CAP_STAT.OVR (i : Nat) : Fld := ⟨TMS_CAP_STAT i, 8, 8⟩
def TMS_CAP_STAT.COUNT (i : Nat) : Fld := ⟨TMS_CAP_STAT i, 0, 5⟩
/-- TMS_CAP_LTC_LO: 06_time_base.md. -/
def TMS_CAP_LTC_LO (i : Nat) : Nat := 0xC3000108 + 0x10 * (i % 7)
def TMS_CAP_LTC_LO.LTC_LO (i : Nat) : Fld := ⟨TMS_CAP_LTC_LO i, 0, 32⟩
/-- TMS_CAP_LTC_HI: 06_time_base.md. -/
def TMS_CAP_LTC_HI (i : Nat) : Nat := 0xC300010C + 0x10 * (i % 7)
def TMS_CAP_LTC_HI.LTC_HI (i : Nat) : Fld := ⟨TMS_CAP_LTC_HI i, 0, 32⟩
/-- INP_CTRL: 07_machine_inputs.md. -/
def INP_CTRL : Nat := 0xC4000000
def INP_CTRL.ENABLE : Fld := ⟨INP_CTRL, 0, 1⟩
/-- INP_AIN_CFG: 07_machine_inputs.md. -/
def INP_AIN_CFG (i : Nat) : Nat := 0xC4001000 + 0x20 * (i % 48)
def INP_AIN_CFG.OVS (i : Nat) : Fld := ⟨INP_AIN_CFG i, 24, 2⟩
def INP_AIN_CFG.REF (i : Nat) : Fld := ⟨INP_AIN_CFG i, 20, 2⟩
def INP_AIN_CFG.MODE (i : Nat) : Fld := ⟨INP_AIN_CFG i, 16, 3⟩
def INP_AIN_CFG.K (i : Nat) : Fld := ⟨INP_AIN_CFG i, 10, 4⟩
def INP_AIN_CFG.DIV (i : Nat) : Fld := ⟨INP_AIN_CFG i, 0, 10⟩
/-- INP_AIN_LIM: 07_machine_inputs.md. -/
def INP_AIN_LIM (i : Nat) : Nat := 0xC4001004 + 0x20 * (i % 48)
def INP_AIN_LIM.HI (i : Nat) : Fld := ⟨INP_AIN_LIM i, 16, 16⟩
def INP_AIN_LIM.LO (i : Nat) : Fld := ⟨INP_AIN_LIM i, 0, 16⟩
/-- INP_AIN_GAIN: 07_machine_inputs.md. -/
def INP_AIN_GAIN (i : Nat) : Nat := 0xC4001008 + 0x20 * (i % 48)
def INP_AIN_GAIN.GAIN (i : Nat) : Fld := ⟨INP_AIN_GAIN i, 0, 32⟩
/-- INP_AIN_OFS: 07_machine_inputs.md. -/
def INP_AIN_OFS (i : Nat) : Nat := 0xC400100C + 0x20 * (i % 48)
def INP_AIN_OFS.OFS (i : Nat) : Fld := ⟨INP_AIN_OFS i, 0, 32⟩
/-- INP_AIN_RAW: 07_machine_inputs.md. -/
def INP_AIN_RAW (i : Nat) : Nat := 0xC4001010 + 0x20 * (i % 48)
def INP_AIN_RAW.FLAGS (i : Nat) : Fld := ⟨INP_AIN_RAW i, 28, 4⟩
def INP_AIN_RAW.SEQ (i : Nat) : Fld := ⟨INP_AIN_RAW i, 16, 8⟩
def INP_AIN_RAW.CODE (i : Nat) : Fld := ⟨INP_AIN_RAW i, 0, 16⟩
/-- INP_AIN_VAL: 07_machine_inputs.md. -/
def INP_AIN_VAL (i : Nat) : Nat := 0xC4001014 + 0x20 * (i % 48)
def INP_AIN_VAL.VAL (i : Nat) : Fld := ⟨INP_AIN_VAL i, 0, 32⟩
/-- INP_AIN_FLT: 07_machine_inputs.md. -/
def INP_AIN_FLT (i : Nat) : Nat := 0xC4001018 + 0x20 * (i % 48)
def INP_AIN_FLT.REARM (i : Nat) : Fld := ⟨INP_AIN_FLT i, 31, 1⟩
def INP_AIN_FLT.STICKY (i : Nat) : Fld := ⟨INP_AIN_FLT i, 0, 4⟩
/-- INP_PIN_CFG: 07_machine_inputs.md. -/
def INP_PIN_CFG (i : Nat) : Nat := 0xC4002000 + 0x20 * (i % 24)
def INP_PIN_CFG.MINW (i : Nat) : Fld := ⟨INP_PIN_CFG i, 16, 8⟩
def INP_PIN_CFG.THR (i : Nat) : Fld := ⟨INP_PIN_CFG i, 8, 8⟩
def INP_PIN_CFG.TYPE (i : Nat) : Fld := ⟨INP_PIN_CFG i, 3, 1⟩
def INP_PIN_CFG.KIND (i : Nat) : Fld := ⟨INP_PIN_CFG i, 0, 3⟩
/-- INP_PIN_TIM: 07_machine_inputs.md. -/
def INP_PIN_TIM (i : Nat) : Nat := 0xC4002004 + 0x20 * (i % 24)
def INP_PIN_TIM.TIMEOUT (i : Nat) : Fld := ⟨INP_PIN_TIM i, 16, 10⟩
def INP_PIN_TIM.GATE (i : Nat) : Fld := ⟨INP_PIN_TIM i, 0, 10⟩
/-- INP_PIN_VAL: 07_machine_inputs.md. -/
def INP_PIN_VAL (i : Nat) : Nat := 0xC4002008 + 0x20 * (i % 24)
def INP_PIN_VAL.VAL (i : Nat) : Fld := ⟨INP_PIN_VAL i, 0, 32⟩
/-- INP_PIN_STAT: 07_machine_inputs.md. -/
def INP_PIN_STAT (i : Nat) : Nat := 0xC400200C + 0x20 * (i % 24)
def INP_PIN_STAT.STALL (i : Nat) : Fld := ⟨INP_PIN_STAT i, 31, 1⟩
def INP_PIN_STAT.SEQ (i : Nat) : Fld := ⟨INP_PIN_STAT i, 16, 8⟩
def INP_PIN_STAT.QERR (i : Nat) : Fld := ⟨INP_PIN_STAT i, 8, 8⟩
def INP_PIN_STAT.FAST (i : Nat) : Fld := ⟨INP_PIN_STAT i, 0, 8⟩
/-- INP_PIN_LTC_LO: 07_machine_inputs.md. -/
def INP_PIN_LTC_LO (i : Nat) : Nat := 0xC4002010 + 0x20 * (i % 24)
def INP_PIN_LTC_LO.LTC (i : Nat) : Fld := ⟨INP_PIN_LTC_LO i, 0, 32⟩
/-- INP_PIN_LTC_HI: 07_machine_inputs.md. -/
def INP_PIN_LTC_HI (i : Nat) : Nat := 0xC4002014 + 0x20 * (i % 24)
def INP_PIN_LTC_HI.LTC (i : Nat) : Fld := ⟨INP_PIN_LTC_HI i, 0, 32⟩
/-- INP_LAC_CFG: 07_machine_inputs.md. -/
def INP_LAC_CFG (i : Nat) : Nat := 0xC4003000 + 0x20 * (i % 8)
def INP_LAC_CFG.DEAD (i : Nat) : Fld := ⟨INP_LAC_CFG i, 16, 16⟩
def INP_LAC_CFG.DECAY (i : Nat) : Fld := ⟨INP_LAC_CFG i, 4, 4⟩
def INP_LAC_CFG.HP (i : Nat) : Fld := ⟨INP_LAC_CFG i, 0, 2⟩
/-- INP_LAC_THR: 07_machine_inputs.md. -/
def INP_LAC_THR (i : Nat) : Nat := 0xC4003004 + 0x20 * (i % 8)
def INP_LAC_THR.THR (i : Nat) : Fld := ⟨INP_LAC_THR i, 0, 23⟩
/-- INP_LAC_WIN: 07_machine_inputs.md. -/
def INP_LAC_WIN (i : Nat) : Nat := 0xC4003008 + 0x20 * (i % 8)
def INP_LAC_WIN.IRQ (i : Nat) : Fld := ⟨INP_LAC_WIN i, 31, 1⟩
def INP_LAC_WIN.WIN (i : Nat) : Fld := ⟨INP_LAC_WIN i, 0, 14⟩
/-- INP_LAC_CNT: 07_machine_inputs.md. -/
def INP_LAC_CNT (i : Nat) : Nat := 0xC400300C + 0x20 * (i % 8)
def INP_LAC_CNT.SEQ (i : Nat) : Fld := ⟨INP_LAC_CNT i, 24, 8⟩
def INP_LAC_CNT.COUNT (i : Nat) : Fld := ⟨INP_LAC_CNT i, 0, 24⟩
/-- INP_LAC_PEAK: 07_machine_inputs.md. -/
def INP_LAC_PEAK (i : Nat) : Nat := 0xC4003010 + 0x20 * (i % 8)
def INP_LAC_PEAK.PARTIAL (i : Nat) : Fld := ⟨INP_LAC_PEAK i, 31, 1⟩
def INP_LAC_PEAK.PEAK (i : Nat) : Fld := ⟨INP_LAC_PEAK i, 0, 23⟩
/-- INP_LAC_LTC_LO: 07_machine_inputs.md. -/
def INP_LAC_LTC_LO (i : Nat) : Nat := 0xC4003014 + 0x20 * (i % 8)
def INP_LAC_LTC_LO.LTC (i : Nat) : Fld := ⟨INP_LAC_LTC_LO i, 0, 32⟩
/-- INP_LAC_LTC_HI: 07_machine_inputs.md. -/
def INP_LAC_LTC_HI (i : Nat) : Nat := 0xC4003018 + 0x20 * (i % 8)
def INP_LAC_LTC_HI.LTC (i : Nat) : Fld := ⟨INP_LAC_LTC_HI i, 0, 32⟩
/-- INP_LAC_STAT: 07_machine_inputs.md. -/
def INP_LAC_STAT (i : Nat) : Nat := 0xC400301C + 0x20 * (i % 8)
def INP_LAC_STAT.FLT (i : Nat) : Fld := ⟨INP_LAC_STAT i, 0, 2⟩
/-- INP_FLOW_CFG: 07_machine_inputs.md. -/
def INP_FLOW_CFG : Nat := 0xC4004000
def INP_FLOW_CFG.EN : Fld := ⟨INP_FLOW_CFG, 31, 1⟩
def INP_FLOW_CFG.SRC : Fld := ⟨INP_FLOW_CFG, 0, 6⟩
/-- INP_FLOW_TARE: 07_machine_inputs.md. -/
def INP_FLOW_TARE : Nat := 0xC4004004
def INP_FLOW_TARE.TARE : Fld := ⟨INP_FLOW_TARE, 0, 32⟩
/-- INP_FLOW_K: 07_machine_inputs.md. -/
def INP_FLOW_K : Nat := 0xC4004008
def INP_FLOW_K.K : Fld := ⟨INP_FLOW_K, 0, 32⟩
/-- INP_FLOW_VAL: 07_machine_inputs.md. -/
def INP_FLOW_VAL : Nat := 0xC400400C
def INP_FLOW_VAL.FLOW : Fld := ⟨INP_FLOW_VAL, 0, 32⟩
/-- INP_FLOW_STAT: 07_machine_inputs.md. -/
def INP_FLOW_STAT : Nat := 0xC4004010
def INP_FLOW_STAT.VALID : Fld := ⟨INP_FLOW_STAT, 31, 1⟩
def INP_FLOW_STAT.SEQ : Fld := ⟨INP_FLOW_STAT, 16, 8⟩
def INP_FLOW_STAT.CNT : Fld := ⟨INP_FLOW_STAT, 0, 16⟩
/-- INP_FLOW_LTC_LO: 07_machine_inputs.md. -/
def INP_FLOW_LTC_LO : Nat := 0xC4004014
def INP_FLOW_LTC_LO.LTC : Fld := ⟨INP_FLOW_LTC_LO, 0, 32⟩
/-- INP_FLOW_LTC_HI: 07_machine_inputs.md. -/
def INP_FLOW_LTC_HI : Nat := 0xC4004018
def INP_FLOW_LTC_HI.LTC : Fld := ⟨INP_FLOW_LTC_HI, 0, 32⟩
/-- INP_SSUP: 07_machine_inputs.md. -/
def INP_SSUP : Nat := 0xC4005000
def INP_SSUP.LIMIT : Fld := ⟨INP_SSUP, 16, 6⟩
def INP_SSUP.FAULT : Fld := ⟨INP_SSUP, 8, 6⟩
def INP_SSUP.EN : Fld := ⟨INP_SSUP, 0, 6⟩
/-- INP_AOUT: 07_machine_inputs.md. -/
def INP_AOUT (i : Nat) : Nat := 0xC4005100 + 0x4 * (i % 8)
def INP_AOUT.SRC (i : Nat) : Fld := ⟨INP_AOUT i, 31, 1⟩
def INP_AOUT.EN (i : Nat) : Fld := ⟨INP_AOUT i, 30, 1⟩
def INP_AOUT.FAULT (i : Nat) : Fld := ⟨INP_AOUT i, 29, 1⟩
def INP_AOUT.CODE (i : Nat) : Fld := ⟨INP_AOUT i, 0, 16⟩
/-- INP_DIN: 07_machine_inputs.md. -/
def INP_DIN : Nat := 0xC4005200
def INP_DIN.LEVEL : Fld := ⟨INP_DIN, 0, 16⟩
/-- INP_DIN_CFG: 07_machine_inputs.md. -/
def INP_DIN_CFG : Nat := 0xC4005204
def INP_DIN_CFG.DEB : Fld := ⟨INP_DIN_CFG, 0, 8⟩
/-- INP_DIN_IRQ: 07_machine_inputs.md. -/
def INP_DIN_IRQ : Nat := 0xC4005208
def INP_DIN_IRQ.FALL : Fld := ⟨INP_DIN_IRQ, 16, 16⟩
def INP_DIN_IRQ.RISE : Fld := ⟨INP_DIN_IRQ, 0, 16⟩
/-- CLE_CTRL: 08_loop_engine.md. -/
def CLE_CTRL : Nat := 0xC5000000
def CLE_CTRL.SYNC_INP : Fld := ⟨CLE_CTRL, 1, 1⟩
def CLE_CTRL.ENABLE : Fld := ⟨CLE_CTRL, 0, 1⟩
/-- CLE_STATUS: 08_loop_engine.md. -/
def CLE_STATUS : Nat := 0xC5000004
def CLE_STATUS.GRID : Fld := ⟨CLE_STATUS, 31, 1⟩
def CLE_STATUS.SLOTS : Fld := ⟨CLE_STATUS, 16, 7⟩
def CLE_STATUS.RUNNING : Fld := ⟨CLE_STATUS, 0, 7⟩
/-- CLE_GRID_LTC_LO: 08_loop_engine.md. -/
def CLE_GRID_LTC_LO : Nat := 0xC5000008
def CLE_GRID_LTC_LO.GRID_LTC : Fld := ⟨CLE_GRID_LTC_LO, 0, 32⟩
/-- CLE_GRID_LTC_HI: 08_loop_engine.md. -/
def CLE_GRID_LTC_HI : Nat := 0xC500000C
def CLE_GRID_LTC_HI.GRID_LTC : Fld := ⟨CLE_GRID_LTC_HI, 0, 32⟩
/-- CLE_FRAME_LO: 08_loop_engine.md. -/
def CLE_FRAME_LO : Nat := 0xC5000010
def CLE_FRAME_LO.FRAME : Fld := ⟨CLE_FRAME_LO, 0, 32⟩
/-- CLE_FRAME_HI: 08_loop_engine.md. -/
def CLE_FRAME_HI : Nat := 0xC5000014
def CLE_FRAME_HI.FRAME : Fld := ⟨CLE_FRAME_HI, 0, 32⟩
/-- CLE_VIOL_CNT: 08_loop_engine.md. -/
def CLE_VIOL_CNT : Nat := 0xC5000018
def CLE_VIOL_CNT.COEF : Fld := ⟨CLE_VIOL_CNT, 16, 16⟩
def CLE_VIOL_CNT.LATE : Fld := ⟨CLE_VIOL_CNT, 0, 16⟩
/-- CLE_NUM_CNT: 08_loop_engine.md. -/
def CLE_NUM_CNT : Nat := 0xC500001C
def CLE_NUM_CNT.NUM : Fld := ⟨CLE_NUM_CNT, 0, 16⟩
/-- CLE_LATE_MAP: 08_loop_engine.md. -/
def CLE_LATE_MAP (i : Nat) : Nat := 0xC5000020 + 0x4 * (i % 3)
def CLE_LATE_MAP.LATE (i : Nat) : Fld := ⟨CLE_LATE_MAP i, 0, 32⟩
/-- CLE_SCLK_CFG: 08_loop_engine.md. -/
def CLE_SCLK_CFG (i : Nat) : Nat := 0xC5000040 + 0x4 * (i % 8)
def CLE_SCLK_CFG.EN (i : Nat) : Fld := ⟨CLE_SCLK_CFG i, 31, 1⟩
def CLE_SCLK_CFG.OFFSET (i : Nat) : Fld := ⟨CLE_SCLK_CFG i, 16, 9⟩
def CLE_SCLK_CFG.N (i : Nat) : Fld := ⟨CLE_SCLK_CFG i, 0, 9⟩
/-- CLE_SCLK_CAP: 08_loop_engine.md. -/
def CLE_SCLK_CAP (i : Nat) : Nat := 0xC5000060 + 0x4 * (i % 8)
def CLE_SCLK_CAP.NMIN (i : Nat) : Fld := ⟨CLE_SCLK_CAP i, 16, 9⟩
def CLE_SCLK_CAP.CAP (i : Nat) : Fld := ⟨CLE_SCLK_CAP i, 0, 7⟩
/-- CLE_S_STAT: 08_loop_engine.md. -/
def CLE_S_STAT (i : Nat) : Nat := 0xC5100000 + 0x1000 * (i % 96)
def CLE_S_STAT.LAT (i : Nat) : Fld := ⟨CLE_S_STAT i, 22, 10⟩
def CLE_S_STAT.POS (i : Nat) : Fld := ⟨CLE_S_STAT i, 17, 5⟩
def CLE_S_STAT.LANE (i : Nat) : Fld := ⟨CLE_S_STAT i, 15, 2⟩
def CLE_S_STAT.SCLK (i : Nat) : Fld := ⟨CLE_S_STAT i, 12, 3⟩
def CLE_S_STAT.SRC_LOST (i : Nat) : Fld := ⟨CLE_S_STAT i, 9, 1⟩
def CLE_S_STAT.DLOST (i : Nat) : Fld := ⟨CLE_S_STAT i, 8, 1⟩
def CLE_S_STAT.SAT (i : Nat) : Fld := ⟨CLE_S_STAT i, 7, 1⟩
def CLE_S_STAT.LATE (i : Nat) : Fld := ⟨CLE_S_STAT i, 6, 1⟩
def CLE_S_STAT.STATE (i : Nat) : Fld := ⟨CLE_S_STAT i, 0, 2⟩
/-- CLE_S_CTRL: 08_loop_engine.md. -/
def CLE_S_CTRL (i : Nat) : Nat := 0xC5100004 + 0x1000 * (i % 96)
def CLE_S_CTRL.HOLD (i : Nat) : Fld := ⟨CLE_S_CTRL i, 0, 1⟩
/-- CLE_S_SAMPLE: 08_loop_engine.md. -/
def CLE_S_SAMPLE (i : Nat) : Nat := 0xC5100008 + 0x1000 * (i % 96)
def CLE_S_SAMPLE.SAMPLE (i : Nat) : Fld := ⟨CLE_S_SAMPLE i, 0, 32⟩
/-- CLE_S_ROUTE: 08_loop_engine.md. -/
def CLE_S_ROUTE (i : Nat) : Nat := 0xC510000C + 0x1000 * (i % 96)
def CLE_S_ROUTE.MS_KIND (i : Nat) : Fld := ⟨CLE_S_ROUTE i, 28, 4⟩
def CLE_S_ROUTE.MS_INDEX (i : Nat) : Fld := ⟨CLE_S_ROUTE i, 21, 7⟩
def CLE_S_ROUTE.SP_KIND (i : Nat) : Fld := ⟨CLE_S_ROUTE i, 17, 4⟩
def CLE_S_ROUTE.SP_INDEX (i : Nat) : Fld := ⟨CLE_S_ROUTE i, 10, 7⟩
def CLE_S_ROUTE.DEST_KIND (i : Nat) : Fld := ⟨CLE_S_ROUTE i, 8, 2⟩
def CLE_S_ROUTE.DEST_INDEX (i : Nat) : Fld := ⟨CLE_S_ROUTE i, 2, 6⟩
/-- CLE_S_TIMING: 08_loop_engine.md. -/
def CLE_S_TIMING (i : Nat) : Nat := 0xC5100010 + 0x1000 * (i % 96)
def CLE_S_TIMING.PHASE (i : Nat) : Fld := ⟨CLE_S_TIMING i, 24, 8⟩
def CLE_S_TIMING.PHASE_CYC (i : Nat) : Fld := ⟨CLE_S_TIMING i, 0, 24⟩
/-- CLE_S_AGE: 08_loop_engine.md. -/
def CLE_S_AGE (i : Nat) : Nat := 0xC5100014 + 0x1000 * (i % 96)
def CLE_S_AGE.SP_AGE (i : Nat) : Fld := ⟨CLE_S_AGE i, 8, 8⟩
def CLE_S_AGE.MS_AGE (i : Nat) : Fld := ⟨CLE_S_AGE i, 0, 8⟩
/-- CLE_S_CNT: 08_loop_engine.md. -/
def CLE_S_CNT (i : Nat) : Nat := 0xC5100018 + 0x1000 * (i % 96)
def CLE_S_CNT.NUM (i : Nat) : Fld := ⟨CLE_S_CNT i, 16, 16⟩
def CLE_S_CNT.LATE (i : Nat) : Fld := ⟨CLE_S_CNT i, 0, 16⟩
/-- CLE_S_SP_HOST: 08_loop_engine.md. -/
def CLE_S_SP_HOST (i : Nat) : Nat := 0xC510001C + 0x1000 * (i % 96)
def CLE_S_SP_HOST.SP_HOST (i : Nat) : Fld := ⟨CLE_S_SP_HOST i, 0, 32⟩
/-- CLE_S_MS_HOST: 08_loop_engine.md. -/
def CLE_S_MS_HOST (i : Nat) : Nat := 0xC5100020 + 0x1000 * (i % 96)
def CLE_S_MS_HOST.MS_HOST (i : Nat) : Fld := ⟨CLE_S_MS_HOST i, 0, 32⟩
/-- CLE_S_OUT: 08_loop_engine.md. -/
def CLE_S_OUT (i : Nat) : Nat := 0xC5100024 + 0x1000 * (i % 96)
def CLE_S_OUT.OUT (i : Nat) : Fld := ⟨CLE_S_OUT i, 0, 32⟩
/-- CLE_S_OUT_LTC_LO: 08_loop_engine.md. -/
def CLE_S_OUT_LTC_LO (i : Nat) : Nat := 0xC5100028 + 0x1000 * (i % 96)
def CLE_S_OUT_LTC_LO.OUT_LTC (i : Nat) : Fld := ⟨CLE_S_OUT_LTC_LO i, 0, 32⟩
/-- CLE_S_OUT_LTC_HI: 08_loop_engine.md. -/
def CLE_S_OUT_LTC_HI (i : Nat) : Nat := 0xC510002C + 0x1000 * (i % 96)
def CLE_S_OUT_LTC_HI.OUT_LTC (i : Nat) : Fld := ⟨CLE_S_OUT_LTC_HI i, 0, 32⟩
/-- CLE_S_REF: 08_loop_engine.md. -/
def CLE_S_REF (i : Nat) : Nat := 0xC5100030 + 0x1000 * (i % 96)
def CLE_S_REF.REF (i : Nat) : Fld := ⟨CLE_S_REF i, 0, 32⟩
/-- CLE_S_MEAS: 08_loop_engine.md. -/
def CLE_S_MEAS (i : Nat) : Nat := 0xC5100034 + 0x1000 * (i % 96)
def CLE_S_MEAS.MEAS (i : Nat) : Fld := ⟨CLE_S_MEAS i, 0, 32⟩
/-- CLE_S_INTEG: 08_loop_engine.md. -/
def CLE_S_INTEG (i : Nat) : Nat := 0xC5100038 + 0x1000 * (i % 96)
def CLE_S_INTEG.INTEG (i : Nat) : Fld := ⟨CLE_S_INTEG i, 0, 32⟩
/-- CLE_S_DERIV: 08_loop_engine.md. -/
def CLE_S_DERIV (i : Nat) : Nat := 0xC510003C + 0x1000 * (i % 96)
def CLE_S_DERIV.DERIV (i : Nat) : Fld := ⟨CLE_S_DERIV i, 0, 32⟩
/-- CLE_S_SP_SCALE: 08_loop_engine.md. -/
def CLE_S_SP_SCALE (i : Nat) : Nat := 0xC5100040 + 0x1000 * (i % 96)
def CLE_S_SP_SCALE.SP_SCALE (i : Nat) : Fld := ⟨CLE_S_SP_SCALE i, 0, 32⟩
/-- CLE_S_SP_OFS: 08_loop_engine.md. -/
def CLE_S_SP_OFS (i : Nat) : Nat := 0xC5100044 + 0x1000 * (i % 96)
def CLE_S_SP_OFS.SP_OFS (i : Nat) : Fld := ⟨CLE_S_SP_OFS i, 0, 32⟩
/-- CLE_S_SP_DB: 08_loop_engine.md. -/
def CLE_S_SP_DB (i : Nat) : Nat := 0xC5100048 + 0x1000 * (i % 96)
def CLE_S_SP_DB.SP_DB (i : Nat) : Fld := ⟨CLE_S_SP_DB i, 0, 32⟩
/-- CLE_S_SP_SLEW_UP: 08_loop_engine.md. -/
def CLE_S_SP_SLEW_UP (i : Nat) : Nat := 0xC510004C + 0x1000 * (i % 96)
def CLE_S_SP_SLEW_UP.SP_SLEW_UP (i : Nat) : Fld := ⟨CLE_S_SP_SLEW_UP i, 0, 32⟩
/-- CLE_S_SP_SLEW_DN: 08_loop_engine.md. -/
def CLE_S_SP_SLEW_DN (i : Nat) : Nat := 0xC5100050 + 0x1000 * (i % 96)
def CLE_S_SP_SLEW_DN.SP_SLEW_DN (i : Nat) : Fld := ⟨CLE_S_SP_SLEW_DN i, 0, 32⟩
/-- CLE_S_MS_SCALE: 08_loop_engine.md. -/
def CLE_S_MS_SCALE (i : Nat) : Nat := 0xC5100054 + 0x1000 * (i % 96)
def CLE_S_MS_SCALE.MS_SCALE (i : Nat) : Fld := ⟨CLE_S_MS_SCALE i, 0, 32⟩
/-- CLE_S_MS_OFS: 08_loop_engine.md. -/
def CLE_S_MS_OFS (i : Nat) : Nat := 0xC5100058 + 0x1000 * (i % 96)
def CLE_S_MS_OFS.MS_OFS (i : Nat) : Fld := ⟨CLE_S_MS_OFS i, 0, 32⟩
/-- CLE_S_KP: 08_loop_engine.md. -/
def CLE_S_KP (i : Nat) : Nat := 0xC510005C + 0x1000 * (i % 96)
def CLE_S_KP.KP (i : Nat) : Fld := ⟨CLE_S_KP i, 0, 32⟩
/-- CLE_S_B: 08_loop_engine.md. -/
def CLE_S_B (i : Nat) : Nat := 0xC5100060 + 0x1000 * (i % 96)
def CLE_S_B.B (i : Nat) : Fld := ⟨CLE_S_B i, 0, 32⟩
/-- CLE_S_KI: 08_loop_engine.md. -/
def CLE_S_KI (i : Nat) : Nat := 0xC5100064 + 0x1000 * (i % 96)
def CLE_S_KI.KI (i : Nat) : Fld := ⟨CLE_S_KI i, 0, 32⟩
/-- CLE_S_KAW: 08_loop_engine.md. -/
def CLE_S_KAW (i : Nat) : Nat := 0xC5100068 + 0x1000 * (i % 96)
def CLE_S_KAW.KAW (i : Nat) : Fld := ⟨CLE_S_KAW i, 0, 32⟩
/-- CLE_S_I_MIN: 08_loop_engine.md. -/
def CLE_S_I_MIN (i : Nat) : Nat := 0xC510006C + 0x1000 * (i % 96)
def CLE_S_I_MIN.I_MIN (i : Nat) : Fld := ⟨CLE_S_I_MIN i, 0, 32⟩
/-- CLE_S_I_MAX: 08_loop_engine.md. -/
def CLE_S_I_MAX (i : Nat) : Nat := 0xC5100070 + 0x1000 * (i % 96)
def CLE_S_I_MAX.I_MAX (i : Nat) : Fld := ⟨CLE_S_I_MAX i, 0, 32⟩
/-- CLE_S_C: 08_loop_engine.md. -/
def CLE_S_C (i : Nat) : Nat := 0xC5100074 + 0x1000 * (i % 96)
def CLE_S_C.C (i : Nat) : Fld := ⟨CLE_S_C i, 0, 32⟩
/-- CLE_S_AD: 08_loop_engine.md. -/
def CLE_S_AD (i : Nat) : Nat := 0xC5100078 + 0x1000 * (i % 96)
def CLE_S_AD.AD (i : Nat) : Fld := ⟨CLE_S_AD i, 0, 32⟩
/-- CLE_S_BD: 08_loop_engine.md. -/
def CLE_S_BD (i : Nat) : Nat := 0xC510007C + 0x1000 * (i % 96)
def CLE_S_BD.BD (i : Nat) : Fld := ⟨CLE_S_BD i, 0, 32⟩
/-- CLE_S_KV: 08_loop_engine.md. -/
def CLE_S_KV (i : Nat) : Nat := 0xC5100080 + 0x1000 * (i % 96)
def CLE_S_KV.KV (i : Nat) : Fld := ⟨CLE_S_KV i, 0, 32⟩
/-- CLE_S_KA: 08_loop_engine.md. -/
def CLE_S_KA (i : Nat) : Nat := 0xC5100084 + 0x1000 * (i % 96)
def CLE_S_KA.KA (i : Nat) : Fld := ⟨CLE_S_KA i, 0, 32⟩
/-- CLE_S_U_BIAS: 08_loop_engine.md. -/
def CLE_S_U_BIAS (i : Nat) : Nat := 0xC5100088 + 0x1000 * (i % 96)
def CLE_S_U_BIAS.U_BIAS (i : Nat) : Fld := ⟨CLE_S_U_BIAS i, 0, 32⟩
/-- CLE_S_U_MIN: 08_loop_engine.md. -/
def CLE_S_U_MIN (i : Nat) : Nat := 0xC510008C + 0x1000 * (i % 96)
def CLE_S_U_MIN.U_MIN (i : Nat) : Fld := ⟨CLE_S_U_MIN i, 0, 32⟩
/-- CLE_S_U_MAX: 08_loop_engine.md. -/
def CLE_S_U_MAX (i : Nat) : Nat := 0xC5100090 + 0x1000 * (i % 96)
def CLE_S_U_MAX.U_MAX (i : Nat) : Fld := ⟨CLE_S_U_MAX i, 0, 32⟩
/-- CLE_S_RL_UP: 08_loop_engine.md. -/
def CLE_S_RL_UP (i : Nat) : Nat := 0xC5100094 + 0x1000 * (i % 96)
def CLE_S_RL_UP.RL_UP (i : Nat) : Fld := ⟨CLE_S_RL_UP i, 0, 32⟩
/-- CLE_S_RL_DN: 08_loop_engine.md. -/
def CLE_S_RL_DN (i : Nat) : Nat := 0xC5100098 + 0x1000 * (i % 96)
def CLE_S_RL_DN.RL_DN (i : Nat) : Fld := ⟨CLE_S_RL_DN i, 0, 32⟩
/-- CLE_HOLD_MAX: 09_loop_tables_coefficients.md. -/
def CLE_HOLD_MAX : Nat := 0xC5000030
def CLE_HOLD_MAX.LIMIT : Fld := ⟨CLE_HOLD_MAX, 0, 16⟩
/-- CLE_S_TBL_CTRL: 09_loop_tables_coefficients.md. -/
def CLE_S_TBL_CTRL (i : Nat) : Nat := 0xC51000A0 + 0x1000 * (i % 96)
def CLE_S_TBL_CTRL.COG_WRAP (i : Nat) : Fld := ⟨CLE_S_TBL_CTRL i, 6, 1⟩
def CLE_S_TBL_CTRL.COG_POS (i : Nat) : Fld := ⟨CLE_S_TBL_CTRL i, 5, 1⟩
def CLE_S_TBL_CTRL.COG_EN (i : Nat) : Fld := ⟨CLE_S_TBL_CTRL i, 4, 1⟩
def CLE_S_TBL_CTRL.FRIC_WRAP (i : Nat) : Fld := ⟨CLE_S_TBL_CTRL i, 3, 1⟩
def CLE_S_TBL_CTRL.FRIC_POS (i : Nat) : Fld := ⟨CLE_S_TBL_CTRL i, 2, 1⟩
def CLE_S_TBL_CTRL.FRIC_DIR (i : Nat) : Fld := ⟨CLE_S_TBL_CTRL i, 1, 1⟩
def CLE_S_TBL_CTRL.FRIC_EN (i : Nat) : Fld := ⟨CLE_S_TBL_CTRL i, 0, 1⟩
/-- CLE_S_FRIC_SCALE: 09_loop_tables_coefficients.md. -/
def CLE_S_FRIC_SCALE (i : Nat) : Nat := 0xC51000A4 + 0x1000 * (i % 96)
def CLE_S_FRIC_SCALE.FRIC_SCALE (i : Nat) : Fld := ⟨CLE_S_FRIC_SCALE i, 0, 32⟩
/-- CLE_S_FRIC_OFS: 09_loop_tables_coefficients.md. -/
def CLE_S_FRIC_OFS (i : Nat) : Nat := 0xC51000A8 + 0x1000 * (i % 96)
def CLE_S_FRIC_OFS.FRIC_OFS (i : Nat) : Fld := ⟨CLE_S_FRIC_OFS i, 0, 32⟩
/-- CLE_S_FRIC_VDB: 09_loop_tables_coefficients.md. -/
def CLE_S_FRIC_VDB (i : Nat) : Nat := 0xC51000AC + 0x1000 * (i % 96)
def CLE_S_FRIC_VDB.FRIC_VDB (i : Nat) : Fld := ⟨CLE_S_FRIC_VDB i, 0, 32⟩
/-- CLE_S_COG_SCALE: 09_loop_tables_coefficients.md. -/
def CLE_S_COG_SCALE (i : Nat) : Nat := 0xC51000B0 + 0x1000 * (i % 96)
def CLE_S_COG_SCALE.COG_SCALE (i : Nat) : Fld := ⟨CLE_S_COG_SCALE i, 0, 32⟩
/-- CLE_S_COG_OFS: 09_loop_tables_coefficients.md. -/
def CLE_S_COG_OFS (i : Nat) : Nat := 0xC51000B4 + 0x1000 * (i % 96)
def CLE_S_COG_OFS.COG_OFS (i : Nat) : Fld := ⟨CLE_S_COG_OFS i, 0, 32⟩
/-- CLE_S_XSTAT: 09_loop_tables_coefficients.md. -/
def CLE_S_XSTAT (i : Nat) : Nat := 0xC51000B8 + 0x1000 * (i % 96)
def CLE_S_XSTAT.DIR (i : Nat) : Fld := ⟨CLE_S_XSTAT i, 30, 2⟩
def CLE_S_XSTAT.WPEND (i : Nat) : Fld := ⟨CLE_S_XSTAT i, 27, 1⟩
def CLE_S_XSTAT.PHELD (i : Nat) : Fld := ⟨CLE_S_XSTAT i, 26, 1⟩
def CLE_S_XSTAT.HOLD_LONG (i : Nat) : Fld := ⟨CLE_S_XSTAT i, 25, 1⟩
def CLE_S_XSTAT.IDX_NF (i : Nat) : Fld := ⟨CLE_S_XSTAT i, 24, 1⟩
def CLE_S_XSTAT.COG_CLAMP (i : Nat) : Fld := ⟨CLE_S_XSTAT i, 23, 1⟩
def CLE_S_XSTAT.FRIC_CLAMP (i : Nat) : Fld := ⟨CLE_S_XSTAT i, 22, 1⟩
def CLE_S_XSTAT.COG_I0 (i : Nat) : Fld := ⟨CLE_S_XSTAT i, 8, 8⟩
def CLE_S_XSTAT.FRIC_I0 (i : Nat) : Fld := ⟨CLE_S_XSTAT i, 0, 8⟩
/-- CLE_S_WSEQ: 09_loop_tables_coefficients.md. -/
def CLE_S_WSEQ (i : Nat) : Nat := 0xC51000BC + 0x1000 * (i % 96)
def CLE_S_WSEQ.WSEQ (i : Nat) : Fld := ⟨CLE_S_WSEQ i, 0, 32⟩
/-- CLE_S_FRIC_P: 09_loop_tables_coefficients.md. -/
def CLE_S_FRIC_P (i j : Nat) : Nat := 0xC5100400 + 0x1000 * (i % 96) + 0x4 * (j % 256)
def CLE_S_FRIC_P.VAL (i j : Nat) : Fld := ⟨CLE_S_FRIC_P i j, 0, 32⟩
/-- CLE_S_FRIC_N: 09_loop_tables_coefficients.md. -/
def CLE_S_FRIC_N (i j : Nat) : Nat := 0xC5100800 + 0x1000 * (i % 96) + 0x4 * (j % 256)
def CLE_S_FRIC_N.VAL (i j : Nat) : Fld := ⟨CLE_S_FRIC_N i j, 0, 32⟩
/-- CLE_S_COG: 09_loop_tables_coefficients.md. -/
def CLE_S_COG (i j : Nat) : Nat := 0xC5100C00 + 0x1000 * (i % 96) + 0x4 * (j % 256)
def CLE_S_COG.VAL (i j : Nat) : Fld := ⟨CLE_S_COG i j, 0, 32⟩
/-- VDR_CTRL: 10_valve_outputs.md. -/
def VDR_CTRL : Nat := 0xC6000000
def VDR_CTRL.ENABLE : Fld := ⟨VDR_CTRL, 0, 1⟩
/-- VDR_STATUS: 10_valve_outputs.md. -/
def VDR_STATUS : Nat := 0xC6000004
def VDR_STATUS.VLV_OK : Fld := ⟨VDR_STATUS, 31, 1⟩
def VDR_STATUS.BST_RDY : Fld := ⟨VDR_STATUS, 30, 1⟩
def VDR_STATUS.BST_ON : Fld := ⟨VDR_STATUS, 29, 1⟩
def VDR_STATUS.MOD_OVL : Fld := ⟨VDR_STATUS, 28, 1⟩
def VDR_STATUS.SUPLOSS : Fld := ⟨VDR_STATUS, 27, 1⟩
def VDR_STATUS.BST_OVP : Fld := ⟨VDR_STATUS, 26, 1⟩
def VDR_STATUS.WIGN : Fld := ⟨VDR_STATUS, 0, 16⟩
/-- VDR_BST_CFG: 10_valve_outputs.md. -/
def VDR_BST_CFG : Nat := 0xC6000010
def VDR_BST_CFG.EN : Fld := ⟨VDR_BST_CFG, 31, 1⟩
def VDR_BST_CFG.TARGET : Fld := ⟨VDR_BST_CFG, 0, 10⟩
/-- VDR_BST_STAT: 10_valve_outputs.md. -/
def VDR_BST_STAT : Nat := 0xC6000014
def VDR_BST_STAT.VBST : Fld := ⟨VDR_BST_STAT, 0, 16⟩
/-- VDR_MOD_STAT: 10_valve_outputs.md. -/
def VDR_MOD_STAT : Nat := 0xC6000018
def VDR_MOD_STAT.IRMS : Fld := ⟨VDR_MOD_STAT, 0, 16⟩
/-- VDR_BANK_CFG: 10_valve_outputs.md. -/
def VDR_BANK_CFG (i : Nat) : Nat := 0xC6000200 + 0x10 * (i % 16)
def VDR_BANK_CFG.DEC_LIM (i : Nat) : Fld := ⟨VDR_BANK_CFG i, 16, 16⟩
def VDR_BANK_CFG.SHED_MA (i : Nat) : Fld := ⟨VDR_BANK_CFG i, 0, 16⟩
/-- VDR_BANK_PWM: 10_valve_outputs.md. -/
def VDR_BANK_PWM (i : Nat) : Nat := 0xC6000204 + 0x10 * (i % 16)
def VDR_BANK_PWM.PER (i : Nat) : Fld := ⟨VDR_BANK_PWM i, 0, 10⟩
/-- VDR_BANK_CAP: 10_valve_outputs.md. -/
def VDR_BANK_CAP (i : Nat) : Nat := 0xC6000208 + 0x10 * (i % 16)
def VDR_BANK_CAP.BST_OK (i : Nat) : Fld := ⟨VDR_BANK_CAP i, 9, 1⟩
def VDR_BANK_CAP.BAT_OK (i : Nat) : Fld := ⟨VDR_BANK_CAP i, 8, 1⟩
def VDR_BANK_CAP.INSVC (i : Nat) : Fld := ⟨VDR_BANK_CAP i, 0, 4⟩
/-- VDR_BANK_STAT: 10_valve_outputs.md. -/
def VDR_BANK_STAT (i : Nat) : Nat := 0xC600020C + 0x10 * (i % 16)
def VDR_BANK_STAT.HS (i : Nat) : Fld := ⟨VDR_BANK_STAT i, 30, 2⟩
def VDR_BANK_STAT.BANK_SC (i : Nat) : Fld := ⟨VDR_BANK_STAT i, 29, 1⟩
def VDR_BANK_STAT.BANK_OVL (i : Nat) : Fld := ⟨VDR_BANK_STAT i, 28, 1⟩
def VDR_BANK_STAT.SHED_CNT (i : Nat) : Fld := ⟨VDR_BANK_STAT i, 0, 16⟩
/-- VDR_OUT_CFG: 10_valve_outputs.md. -/
def VDR_OUT_CFG (i : Nat) : Nat := 0xC6001000 + 0x20 * (i % 64)
def VDR_OUT_CFG.REL_MA (i : Nat) : Fld := ⟨VDR_OUT_CFG i, 22, 10⟩
def VDR_OUT_CFG.SUP (i : Nat) : Fld := ⟨VDR_OUT_CFG i, 16, 1⟩
def VDR_OUT_CFG.SRC (i : Nat) : Fld := ⟨VDR_OUT_CFG i, 8, 1⟩
def VDR_OUT_CFG.MODE (i : Nat) : Fld := ⟨VDR_OUT_CFG i, 0, 3⟩
/-- VDR_OUT_TGT: 10_valve_outputs.md. -/
def VDR_OUT_TGT (i : Nat) : Nat := 0xC6001004 + 0x20 * (i % 64)
def VDR_OUT_TGT.TGT (i : Nat) : Fld := ⟨VDR_OUT_TGT i, 0, 32⟩
/-- VDR_OUT_BAND: 10_valve_outputs.md. -/
def VDR_OUT_BAND (i : Nat) : Nat := 0xC6001008 + 0x20 * (i % 64)
def VDR_OUT_BAND.BAND (i : Nat) : Fld := ⟨VDR_OUT_BAND i, 0, 32⟩
/-- VDR_OUT_DITH: 10_valve_outputs.md. -/
def VDR_OUT_DITH (i : Nat) : Nat := 0xC600100C + 0x20 * (i % 64)
def VDR_OUT_DITH.DITH_PER (i : Nat) : Fld := ⟨VDR_OUT_DITH i, 0, 6⟩
/-- VDR_OUT_DITH_AMP: 10_valve_outputs.md. -/
def VDR_OUT_DITH_AMP (i : Nat) : Nat := 0xC6001010 + 0x20 * (i % 64)
def VDR_OUT_DITH_AMP.DITH_AMP (i : Nat) : Fld := ⟨VDR_OUT_DITH_AMP i, 0, 32⟩
/-- VDR_OUT_SENSE: 10_valve_outputs.md. -/
def VDR_OUT_SENSE (i : Nat) : Nat := 0xC6001014 + 0x20 * (i % 64)
def VDR_OUT_SENSE.ACTIVE (i : Nat) : Fld := ⟨VDR_OUT_SENSE i, 31, 1⟩
def VDR_OUT_SENSE.CALL (i : Nat) : Fld := ⟨VDR_OUT_SENSE i, 30, 1⟩
def VDR_OUT_SENSE.DECAY (i : Nat) : Fld := ⟨VDR_OUT_SENSE i, 29, 1⟩
def VDR_OUT_SENSE.SEQ (i : Nat) : Fld := ⟨VDR_OUT_SENSE i, 16, 8⟩
def VDR_OUT_SENSE.CODE (i : Nat) : Fld := ⟨VDR_OUT_SENSE i, 0, 12⟩
/-- VDR_OUT_FLT: 10_valve_outputs.md. -/
def VDR_OUT_FLT (i : Nat) : Nat := 0xC6001018 + 0x20 * (i % 64)
def VDR_OUT_FLT.FLT (i : Nat) : Fld := ⟨VDR_OUT_FLT i, 0, 10⟩
/-- VDR_OUT_RELT: 10_valve_outputs.md. -/
def VDR_OUT_RELT (i : Nat) : Nat := 0xC600101C + 0x20 * (i % 64)
def VDR_OUT_RELT.EXT_US (i : Nat) : Fld := ⟨VDR_OUT_RELT i, 16, 16⟩
def VDR_OUT_RELT.REL_US (i : Nat) : Fld := ⟨VDR_OUT_RELT i, 0, 16⟩
/-- VDR_STK_STATUS: 11_stroke_microcode.md. -/
def VDR_STK_STATUS : Nat := 0xC6000020
def VDR_STK_STATUS.DEFERRED : Fld := ⟨VDR_STK_STATUS, 16, 9⟩
def VDR_STK_STATUS.QUEUED : Fld := ⟨VDR_STK_STATUS, 0, 9⟩
/-- VDR_STK_CNT: 11_stroke_microcode.md. -/
def VDR_STK_CNT : Nat := 0xC6000024
def VDR_STK_CNT.DROP : Fld := ⟨VDR_STK_CNT, 16, 16⟩
def VDR_STK_CNT.LATE : Fld := ⟨VDR_STK_CNT, 0, 16⟩
/-- VDR_STK_TBAND: 11_stroke_microcode.md. -/
def VDR_STK_TBAND : Nat := 0xC6000028
def VDR_STK_TBAND.BAND3 : Fld := ⟨VDR_STK_TBAND, 12, 3⟩
def VDR_STK_TBAND.BAND2 : Fld := ⟨VDR_STK_TBAND, 8, 3⟩
def VDR_STK_TBAND.BAND1 : Fld := ⟨VDR_STK_TBAND, 4, 3⟩
def VDR_STK_TBAND.BAND0 : Fld := ⟨VDR_STK_TBAND, 0, 3⟩
/-- VDR_STK_TRIG: 11_stroke_microcode.md. -/
def VDR_STK_TRIG : Nat := 0xC600002C
def VDR_STK_TRIG.TRG_OVR : Fld := ⟨VDR_STK_TRIG, 16, 8⟩
def VDR_STK_TRIG.SOFT : Fld := ⟨VDR_STK_TRIG, 0, 8⟩
/-- VDR_STK_DROP: 11_stroke_microcode.md. -/
def VDR_STK_DROP : Nat := 0xC6000030
def VDR_STK_DROP.OUT : Fld := ⟨VDR_STK_DROP, 24, 6⟩
def VDR_STK_DROP.WHY : Fld := ⟨VDR_STK_DROP, 0, 4⟩
/-- VDR_STK_BANK: 11_stroke_microcode.md. -/
def VDR_STK_BANK (i : Nat) : Nat := 0xC6000300 + 0x4 * (i % 16)
def VDR_STK_BANK.DEF_ACT (i : Nat) : Fld := ⟨VDR_STK_BANK i, 31, 1⟩
def VDR_STK_BANK.DEF_LIM (i : Nat) : Fld := ⟨VDR_STK_BANK i, 0, 16⟩
/-- VDR_CTX_CFG: 11_stroke_microcode.md. -/
def VDR_CTX_CFG (i : Nat) : Nat := 0xC6002000 + 0x20 * (i % 64)
def VDR_CTX_CFG.BST_WAIT (i : Nat) : Fld := ⟨VDR_CTX_CFG i, 16, 16⟩
def VDR_CTX_CFG.ENG (i : Nat) : Fld := ⟨VDR_CTX_CFG i, 8, 3⟩
def VDR_CTX_CFG.IRQ (i : Nat) : Fld := ⟨VDR_CTX_CFG i, 4, 1⟩
def VDR_CTX_CFG.BSEL (i : Nat) : Fld := ⟨VDR_CTX_CFG i, 0, 2⟩
/-- VDR_CTX_STAT: 11_stroke_microcode.md. -/
def VDR_CTX_STAT (i : Nat) : Nat := 0xC6002004 + 0x20 * (i % 64)
def VDR_CTX_STAT.PC (i : Nat) : Fld := ⟨VDR_CTX_STAT i, 16, 14⟩
def VDR_CTX_STAT.WAITK (i : Nat) : Fld := ⟨VDR_CTX_STAT i, 12, 3⟩
def VDR_CTX_STAT.TO (i : Nat) : Fld := ⟨VDR_CTX_STAT i, 11, 1⟩
def VDR_CTX_STAT.BAND (i : Nat) : Fld := ⟨VDR_CTX_STAT i, 8, 3⟩
def VDR_CTX_STAT.CAUSE (i : Nat) : Fld := ⟨VDR_CTX_STAT i, 4, 4⟩
def VDR_CTX_STAT.STATE (i : Nat) : Fld := ⟨VDR_CTX_STAT i, 0, 2⟩
/-- VDR_CTX_RUN: 11_stroke_microcode.md. -/
def VDR_CTX_RUN (i : Nat) : Nat := 0xC6002008 + 0x20 * (i % 64)
def VDR_CTX_RUN.LC (i : Nat) : Fld := ⟨VDR_CTX_RUN i, 16, 13⟩
def VDR_CTX_RUN.TGT_MA (i : Nat) : Fld := ⟨VDR_CTX_RUN i, 0, 16⟩
/-- VDR_CTX_LTC_LO: 11_stroke_microcode.md. -/
def VDR_CTX_LTC_LO (i : Nat) : Nat := 0xC600200C + 0x20 * (i % 64)
def VDR_CTX_LTC_LO.LTC (i : Nat) : Fld := ⟨VDR_CTX_LTC_LO i, 0, 32⟩
/-- VDR_CTX_LTC_HI: 11_stroke_microcode.md. -/
def VDR_CTX_LTC_HI (i : Nat) : Nat := 0xC6002010 + 0x20 * (i % 64)
def VDR_CTX_LTC_HI.LTC (i : Nat) : Fld := ⟨VDR_CTX_LTC_HI i, 0, 32⟩
/-- VDR_CTX_REQ: 11_stroke_microcode.md. -/
def VDR_CTX_REQ (i : Nat) : Nat := 0xC6002014 + 0x20 * (i % 64)
def VDR_CTX_REQ.HANDLE (i : Nat) : Fld := ⟨VDR_CTX_REQ i, 0, 32⟩
/-- VDR_STK_PROG: 11_stroke_microcode.md. -/
def VDR_STK_PROG (i : Nat) : Nat := 0xC6100000 + 0x4 * (i % 16384)
def VDR_STK_PROG.OPCODE (i : Nat) : Fld := ⟨VDR_STK_PROG i, 27, 5⟩
def VDR_STK_PROG.OPERAND (i : Nat) : Fld := ⟨VDR_STK_PROG i, 0, 27⟩
/-- SAF_CTRL: 12_safety_unit.md. -/
def SAF_CTRL : Nat := 0xC7000000
def SAF_CTRL.ENABLE : Fld := ⟨SAF_CTRL, 0, 1⟩
/-- SAF_STATUS: 12_safety_unit.md. -/
def SAF_STATUS : Nat := 0xC7000004
def SAF_STATUS.READY : Fld := ⟨SAF_STATUS, 31, 1⟩
def SAF_STATUS.DEGRADED : Fld := ⟨SAF_STATUS, 30, 1⟩
def SAF_STATUS.LATCHED : Fld := ⟨SAF_STATUS, 29, 1⟩
def SAF_STATUS.PARTNER : Fld := ⟨SAF_STATUS, 28, 1⟩
def SAF_STATUS.DEG_LEFT : Fld := ⟨SAF_STATUS, 0, 16⟩
/-- SAF_PAIR: 12_safety_unit.md:249. -/
def SAF_PAIR : Nat := 0xC7000008
def SAF_PAIR.STATES : Fld := ⟨SAF_PAIR, 0, 32⟩
/-- SAF_CH: 12_safety_unit.md. -/
def SAF_CH (i : Nat) : Nat := 0xC7000010 + 0x4 * (i % 4)
def SAF_CH.STATE (i : Nat) : Fld := ⟨SAF_CH i, 30, 2⟩
def SAF_CH.ARMABLE (i : Nat) : Fld := ⟨SAF_CH i, 29, 1⟩
def SAF_CH.FB (i : Nat) : Fld := ⟨SAF_CH i, 28, 1⟩
def SAF_CH.CAUSE (i : Nat) : Fld := ⟨SAF_CH i, 25, 3⟩
def SAF_CH.PAIR (i : Nat) : Fld := ⟨SAF_CH i, 21, 3⟩
def SAF_CH.STUCK2 (i : Nat) : Fld := ⟨SAF_CH i, 5, 1⟩
def SAF_CH.STUCK1 (i : Nat) : Fld := ⟨SAF_CH i, 4, 1⟩
def SAF_CH.OC (i : Nat) : Fld := ⟨SAF_CH i, 3, 1⟩
def SAF_CH.DROP (i : Nat) : Fld := ⟨SAF_CH i, 2, 1⟩
def SAF_CH.PULLIN (i : Nat) : Fld := ⟨SAF_CH i, 1, 1⟩
def SAF_CH.WELD (i : Nat) : Fld := ⟨SAF_CH i, 0, 1⟩
/-- SAF_FAULT: 12_safety_unit.md. -/
def SAF_FAULT : Nat := 0xC7000020
def SAF_FAULT.CLEARED : Fld := ⟨SAF_FAULT, 16, 7⟩
def SAF_FAULT.DEG_EXPIRED : Fld := ⟨SAF_FAULT, 6, 1⟩
def SAF_FAULT.SUPPLY : Fld := ⟨SAF_FAULT, 5, 1⟩
def SAF_FAULT.PARTNER_LOST : Fld := ⟨SAF_FAULT, 4, 1⟩
def SAF_FAULT.SELFTEST : Fld := ⟨SAF_FAULT, 3, 1⟩
def SAF_FAULT.THERM : Fld := ⟨SAF_FAULT, 2, 1⟩
def SAF_FAULT.SAFE_UE : Fld := ⟨SAF_FAULT, 1, 1⟩
def SAF_FAULT.LOCKSTEP : Fld := ⟨SAF_FAULT, 0, 1⟩
/-- SAF_MAP: 12_safety_unit.md:290. -/
def SAF_MAP : Nat := 0xC7000030
def SAF_MAP.MASKS : Fld := ⟨SAF_MAP, 0, 32⟩
/-- SAF_PCFG: 12_safety_unit.md. -/
def SAF_PCFG (i : Nat) : Nat := 0xC7000040 + 0x4 * (i % 8)
def SAF_PCFG.T_REARM (i : Nat) : Fld := ⟨SAF_PCFG i, 16, 10⟩
def SAF_PCFG.T_DISC (i : Nat) : Fld := ⟨SAF_PCFG i, 0, 9⟩
/-- SAF_CCFG: 12_safety_unit.md. -/
def SAF_CCFG (i : Nat) : Nat := 0xC7000060 + 0x4 * (i % 4)
def SAF_CCFG.FB_USE (i : Nat) : Fld := ⟨SAF_CCFG i, 31, 1⟩
def SAF_CCFG.START_ACK (i : Nat) : Fld := ⟨SAF_CCFG i, 30, 1⟩
def SAF_CCFG.DEG (i : Nat) : Fld := ⟨SAF_CCFG i, 29, 1⟩
def SAF_CCFG.PTRIP (i : Nat) : Fld := ⟨SAF_CCFG i, 28, 1⟩
def SAF_CCFG.T_FB (i : Nat) : Fld := ⟨SAF_CCFG i, 0, 8⟩
/-- SAF_DEG_CFG: 12_safety_unit.md. -/
def SAF_DEG_CFG : Nat := 0xC7000070
def SAF_DEG_CFG.P_REARM : Fld := ⟨SAF_DEG_CFG, 16, 10⟩
def SAF_DEG_CFG.T_DEG : Fld := ⟨SAF_DEG_CFG, 0, 6⟩
/-- SAF_MBX_REQ: 12_safety_unit.md. -/
def SAF_MBX_REQ : Nat := 0xC7000080
def SAF_MBX_REQ.SEQ : Fld := ⟨SAF_MBX_REQ, 24, 8⟩
def SAF_MBX_REQ.ARG : Fld := ⟨SAF_MBX_REQ, 8, 8⟩
def SAF_MBX_REQ.OP : Fld := ⟨SAF_MBX_REQ, 0, 8⟩
/-- SAF_MBX_RSP: 12_safety_unit.md. -/
def SAF_MBX_RSP : Nat := 0xC7000084
def SAF_MBX_RSP.SEQ : Fld := ⟨SAF_MBX_RSP, 24, 8⟩
def SAF_MBX_RSP.PEND : Fld := ⟨SAF_MBX_RSP, 16, 1⟩
def SAF_MBX_RSP.REASON : Fld := ⟨SAF_MBX_RSP, 0, 16⟩
/-- SAF_CNT: 12_safety_unit.md. -/
def SAF_CNT : Nat := 0xC7000088
def SAF_CNT.TRIPS : Fld := ⟨SAF_CNT, 16, 16⟩
def SAF_CNT.MBX_IGN : Fld := ⟨SAF_CNT, 8, 8⟩
def SAF_CNT.TEST_FAIL : Fld := ⟨SAF_CNT, 0, 8⟩
/-- SAF_TRIP_LTC_LO: 12_safety_unit.md. -/
def SAF_TRIP_LTC_LO : Nat := 0xC7000090
def SAF_TRIP_LTC_LO.LTC_LO : Fld := ⟨SAF_TRIP_LTC_LO, 0, 32⟩
/-- SAF_TRIP_LTC_HI: 12_safety_unit.md. -/
def SAF_TRIP_LTC_HI : Nat := 0xC7000094
def SAF_TRIP_LTC_HI.LTC_HI : Fld := ⟨SAF_TRIP_LTC_HI, 0, 32⟩
/-- GNB_CTRL: 13_gnss_baseband.md. -/
def GNB_CTRL : Nat := 0xC8000000
def GNB_CTRL.ENABLE : Fld := ⟨GNB_CTRL, 0, 1⟩
/-- GNB_STATUS: 13_gnss_baseband.md. -/
def GNB_STATUS : Nat := 0xC8000004
def GNB_STATUS.CHANNELS : Fld := ⟨GNB_STATUS, 16, 10⟩
def GNB_STATUS.SEARCHES : Fld := ⟨GNB_STATUS, 8, 4⟩
/-- GNB_SC_LO: 13_gnss_baseband.md. -/
def GNB_SC_LO : Nat := 0xC8000008
def GNB_SC_LO.SC : Fld := ⟨GNB_SC_LO, 0, 32⟩
/-- GNB_SC_HI: 13_gnss_baseband.md. -/
def GNB_SC_HI : Nat := 0xC800000C
def GNB_SC_HI.SC : Fld := ⟨GNB_SC_HI, 0, 32⟩
/-- GNB_MARK_SC_LO: 13_gnss_baseband.md. -/
def GNB_MARK_SC_LO : Nat := 0xC8000010
def GNB_MARK_SC_LO.MARK_SC : Fld := ⟨GNB_MARK_SC_LO, 0, 32⟩
/-- GNB_MARK_SC_HI: 13_gnss_baseband.md. -/
def GNB_MARK_SC_HI : Nat := 0xC8000014
def GNB_MARK_SC_HI.MARK_SC : Fld := ⟨GNB_MARK_SC_HI, 0, 32⟩
/-- GNB_MARK_LTC_LO: 13_gnss_baseband.md. -/
def GNB_MARK_LTC_LO : Nat := 0xC8000018
def GNB_MARK_LTC_LO.MARK_LTC : Fld := ⟨GNB_MARK_LTC_LO, 0, 32⟩
/-- GNB_MARK_LTC_HI: 13_gnss_baseband.md. -/
def GNB_MARK_LTC_HI : Nat := 0xC800001C
def GNB_MARK_LTC_HI.MARK_LTC : Fld := ⟨GNB_MARK_LTC_HI, 0, 32⟩
/-- GNB_CNT: 13_gnss_baseband.md. -/
def GNB_CNT : Nat := 0xC8000020
def GNB_CNT.LATE : Fld := ⟨GNB_CNT, 16, 16⟩
def GNB_CNT.REPL : Fld := ⟨GNB_CNT, 0, 16⟩
/-- GNB_ACC_DROP: 13_gnss_baseband.md. -/
def GNB_ACC_DROP : Nat := 0xC8000024
def GNB_ACC_DROP.DROP : Fld := ⟨GNB_ACC_DROP, 0, 32⟩
/-- GNB_DWIN_LO: 13_gnss_baseband.md. -/
def GNB_DWIN_LO (i : Nat) : Nat := 0xC8000040 + 0x10 * (i % 2)
def GNB_DWIN_LO.BASE_LO (i : Nat) : Fld := ⟨GNB_DWIN_LO i, 12, 20⟩
/-- GNB_DWIN_HI: 13_gnss_baseband.md. -/
def GNB_DWIN_HI (i : Nat) : Nat := 0xC8000044 + 0x10 * (i % 2)
def GNB_DWIN_HI.BASE_HI (i : Nat) : Fld := ⟨GNB_DWIN_HI i, 0, 32⟩
/-- GNB_DWIN_SIZE: 13_gnss_baseband.md. -/
def GNB_DWIN_SIZE (i : Nat) : Nat := 0xC8000048 + 0x10 * (i % 2)
def GNB_DWIN_SIZE.MIB (i : Nat) : Fld := ⟨GNB_DWIN_SIZE i, 0, 16⟩
/-- GNB_ACC_BASE_LO: 13_gnss_baseband.md. -/
def GNB_ACC_BASE_LO : Nat := 0xC8000140
def GNB_ACC_BASE_LO.ADDR_LO : Fld := ⟨GNB_ACC_BASE_LO, 12, 20⟩
/-- GNB_ACC_BASE_HI: 13_gnss_baseband.md. -/
def GNB_ACC_BASE_HI : Nat := 0xC8000144
def GNB_ACC_BASE_HI.ADDR_HI : Fld := ⟨GNB_ACC_BASE_HI, 0, 32⟩
/-- GNB_ACC_CFG: 13_gnss_baseband.md. -/
def GNB_ACC_CFG : Nat := 0xC8000148
def GNB_ACC_CFG.TMO : Fld := ⟨GNB_ACC_CFG, 24, 8⟩
def GNB_ACC_CFG.THR : Fld := ⟨GNB_ACC_CFG, 8, 16⟩
def GNB_ACC_CFG.LEN : Fld := ⟨GNB_ACC_CFG, 0, 5⟩
/-- GNB_ACC_PI: 13_gnss_baseband.md. -/
def GNB_ACC_PI : Nat := 0xC800014C
def GNB_ACC_PI.PI : Fld := ⟨GNB_ACC_PI, 0, 17⟩
/-- GNB_ACC_CI: 13_gnss_baseband.md. -/
def GNB_ACC_CI : Nat := 0xC8000150
def GNB_ACC_CI.CI : Fld := ⟨GNB_ACC_CI, 0, 17⟩
/-- GNB_ANT: 13_gnss_baseband.md. -/
def GNB_ANT (i : Nat) : Nat := 0xC8000200 + 0x4 * (i % 2)
def GNB_ANT.BIAS_EN (i : Nat) : Fld := ⟨GNB_ANT i, 31, 1⟩
def GNB_ANT.ON (i : Nat) : Fld := ⟨GNB_ANT i, 30, 1⟩
def GNB_ANT.OPEN (i : Nat) : Fld := ⟨GNB_ANT i, 29, 1⟩
def GNB_ANT.SHORT (i : Nat) : Fld := ⟨GNB_ANT i, 28, 1⟩
def GNB_ANT.MA (i : Nat) : Fld := ⟨GNB_ANT i, 0, 8⟩
/-- GNB_CHAIN_CFG: 13_gnss_baseband.md. -/
def GNB_CHAIN_CFG (i : Nat) : Nat := 0xC8000300 + 0x20 * (i % 4)
def GNB_CHAIN_CFG.HOLD (i : Nat) : Fld := ⟨GNB_CHAIN_CFG i, 1, 1⟩
def GNB_CHAIN_CFG.EN (i : Nat) : Fld := ⟨GNB_CHAIN_CFG i, 0, 1⟩
/-- GNB_CHAIN_STAT: 13_gnss_baseband.md. -/
def GNB_CHAIN_STAT (i : Nat) : Nat := 0xC8000304 + 0x20 * (i % 4)
def GNB_CHAIN_STAT.SAT (i : Nat) : Fld := ⟨GNB_CHAIN_STAT i, 31, 1⟩
def GNB_CHAIN_STAT.JAM (i : Nat) : Fld := ⟨GNB_CHAIN_STAT i, 30, 1⟩
def GNB_CHAIN_STAT.PWR (i : Nat) : Fld := ⟨GNB_CHAIN_STAT i, 16, 8⟩
def GNB_CHAIN_STAT.GAIN (i : Nat) : Fld := ⟨GNB_CHAIN_STAT i, 0, 8⟩
/-- GNB_NOTCH: 13_gnss_baseband.md. -/
def GNB_NOTCH (i j : Nat) : Nat := 0xC8000308 + 0x20 * (i % 4) + 0x4 * (j % 4)
def GNB_NOTCH.MODE (i j : Nat) : Fld := ⟨GNB_NOTCH i j, 30, 2⟩
def GNB_NOTCH.LOCK (i j : Nat) : Fld := ⟨GNB_NOTCH i j, 29, 1⟩
def GNB_NOTCH.WIDTH (i j : Nat) : Fld := ⟨GNB_NOTCH i j, 24, 4⟩
def GNB_NOTCH.FREQ (i j : Nat) : Fld := ⟨GNB_NOTCH i j, 0, 13⟩
/-- GNB_CH_STAT: 13_gnss_baseband.md. -/
def GNB_CH_STAT (i : Nat) : Nat := 0xC8100000 + 0x10 * (i % 512)
def GNB_CH_STAT.STATE (i : Nat) : Fld := ⟨GNB_CH_STAT i, 30, 2⟩
def GNB_CH_STAT.CHAIN (i : Nat) : Fld := ⟨GNB_CH_STAT i, 28, 2⟩
def GNB_CH_STAT.SIG (i : Nat) : Fld := ⟨GNB_CH_STAT i, 24, 4⟩
def GNB_CH_STAT.PEND (i : Nat) : Fld := ⟨GNB_CH_STAT i, 23, 1⟩
def GNB_CH_STAT.INT_MS (i : Nat) : Fld := ⟨GNB_CH_STAT i, 16, 5⟩
def GNB_CH_STAT.SPACING (i : Nat) : Fld := ⟨GNB_CH_STAT i, 8, 5⟩
def GNB_CH_STAT.PRN (i : Nat) : Fld := ⟨GNB_CH_STAT i, 0, 8⟩
/-- GNB_CH_BOUND: 13_gnss_baseband.md. -/
def GNB_CH_BOUND (i : Nat) : Nat := 0xC8100004 + 0x10 * (i % 512)
def GNB_CH_BOUND.BOUND (i : Nat) : Fld := ⟨GNB_CH_BOUND i, 0, 32⟩
/-- GNB_MS_CFG: 14_gnss_measurements_time_pulse.md. -/
def GNB_MS_CFG : Nat := 0xC8000400
def GNB_MS_CFG.MS_EN : Fld := ⟨GNB_MS_CFG, 31, 1⟩
def GNB_MS_CFG.PER_MS : Fld := ⟨GNB_MS_CFG, 16, 10⟩
def GNB_MS_CFG.MLEN : Fld := ⟨GNB_MS_CFG, 0, 5⟩
/-- GNB_MS_THR: 14_gnss_measurements_time_pulse.md. -/
def GNB_MS_THR : Nat := 0xC8000404
def GNB_MS_THR.PLI_MIN : Fld := ⟨GNB_MS_THR, 16, 16⟩
def GNB_MS_THR.CN0_MIN : Fld := ⟨GNB_MS_THR, 0, 16⟩
/-- GNB_MS_BASE_LO: 14_gnss_measurements_time_pulse.md. -/
def GNB_MS_BASE_LO : Nat := 0xC8000408
def GNB_MS_BASE_LO.ADDR_LO : Fld := ⟨GNB_MS_BASE_LO, 12, 20⟩
/-- GNB_MS_BASE_HI: 14_gnss_measurements_time_pulse.md. -/
def GNB_MS_BASE_HI : Nat := 0xC800040C
def GNB_MS_BASE_HI.ADDR_HI : Fld := ⟨GNB_MS_BASE_HI, 0, 32⟩
/-- GNB_MS_PI: 14_gnss_measurements_time_pulse.md. -/
def GNB_MS_PI : Nat := 0xC8000414
def GNB_MS_PI.PI : Fld := ⟨GNB_MS_PI, 0, 16⟩
/-- GNB_MS_CI: 14_gnss_measurements_time_pulse.md. -/
def GNB_MS_CI : Nat := 0xC8000418
def GNB_MS_CI.CI : Fld := ⟨GNB_MS_CI, 0, 16⟩
/-- GNB_MS_CNT: 14_gnss_measurements_time_pulse.md. -/
def GNB_MS_CNT : Nat := 0xC800041C
def GNB_MS_CNT.DROP : Fld := ⟨GNB_MS_CNT, 16, 16⟩
def GNB_MS_CNT.SKIP : Fld := ⟨GNB_MS_CNT, 0, 16⟩
/-- TMS_TP_STAT: 14_gnss_measurements_time_pulse.md. -/
def TMS_TP_STAT : Nat := 0xC30000A4
def TMS_TP_STAT.STATE : Fld := ⟨TMS_TP_STAT, 30, 2⟩
def TMS_TP_STAT.SRC : Fld := ⟨TMS_TP_STAT, 28, 2⟩
def TMS_TP_STAT.STEPPED : Fld := ⟨TMS_TP_STAT, 27, 1⟩
def TMS_TP_STAT.SHORT : Fld := ⟨TMS_TP_STAT, 26, 1⟩
def TMS_TP_STAT.SUPP : Fld := ⟨TMS_TP_STAT, 16, 8⟩
def TMS_TP_STAT.SEQ : Fld := ⟨TMS_TP_STAT, 0, 16⟩
/-- TMS_TP_LTC_LO: 14_gnss_measurements_time_pulse.md. -/
def TMS_TP_LTC_LO : Nat := 0xC30000A8
def TMS_TP_LTC_LO.LTC_LO : Fld := ⟨TMS_TP_LTC_LO, 0, 32⟩
/-- TMS_TP_LTC_HI: 14_gnss_measurements_time_pulse.md. -/
def TMS_TP_LTC_HI : Nat := 0xC30000AC
def TMS_TP_LTC_HI.LTC_HI : Fld := ⟨TMS_TP_LTC_HI, 0, 32⟩
/-- CAM_CTRL: 15_camera_pipeline.md. -/
def CAM_CTRL : Nat := 0xC9000000
def CAM_CTRL.ENABLE : Fld := ⟨CAM_CTRL, 0, 1⟩
/-- CAM_STATUS: 15_camera_pipeline.md. -/
def CAM_STATUS : Nat := 0xC9000004
def CAM_STATUS.CONTEXTS : Fld := ⟨CAM_STATUS, 16, 6⟩
def CAM_STATUS.LINKS_UP : Fld := ⟨CAM_STATUS, 0, 4⟩
/-- CAM_FEN_DROP: 15_camera_pipeline.md. -/
def CAM_FEN_DROP : Nat := 0xC9000008
def CAM_FEN_DROP.FRAMES : Fld := ⟨CAM_FEN_DROP, 0, 16⟩
/-- CAM_DWIN_LO: 15_camera_pipeline.md. -/
def CAM_DWIN_LO (i : Nat) : Nat := 0xC9000040 + 0x10 * (i % 4)
def CAM_DWIN_LO.BASE_LO (i : Nat) : Fld := ⟨CAM_DWIN_LO i, 12, 20⟩
/-- CAM_DWIN_HI: 15_camera_pipeline.md. -/
def CAM_DWIN_HI (i : Nat) : Nat := 0xC9000044 + 0x10 * (i % 4)
def CAM_DWIN_HI.BASE_HI (i : Nat) : Fld := ⟨CAM_DWIN_HI i, 0, 32⟩
/-- CAM_DWIN_SIZE: 15_camera_pipeline.md. -/
def CAM_DWIN_SIZE (i : Nat) : Nat := 0xC9000048 + 0x10 * (i % 4)
def CAM_DWIN_SIZE.MIB (i : Nat) : Fld := ⟨CAM_DWIN_SIZE i, 0, 16⟩
/-- CAM_FR_BASE_LO: 15_camera_pipeline.md. -/
def CAM_FR_BASE_LO : Nat := 0xC9000140
def CAM_FR_BASE_LO.ADDR_LO : Fld := ⟨CAM_FR_BASE_LO, 12, 20⟩
/-- CAM_FR_BASE_HI: 15_camera_pipeline.md. -/
def CAM_FR_BASE_HI : Nat := 0xC9000144
def CAM_FR_BASE_HI.ADDR_HI : Fld := ⟨CAM_FR_BASE_HI, 0, 32⟩
/-- CAM_FR_CFG: 15_camera_pipeline.md. -/
def CAM_FR_CFG : Nat := 0xC9000148
def CAM_FR_CFG.FLEN : Fld := ⟨CAM_FR_CFG, 0, 4⟩
/-- CAM_FR_PI: 15_camera_pipeline.md. -/
def CAM_FR_PI : Nat := 0xC900014C
def CAM_FR_PI.PI : Fld := ⟨CAM_FR_PI, 0, 15⟩
/-- CAM_FR_CI: 15_camera_pipeline.md. -/
def CAM_FR_CI : Nat := 0xC9000150
def CAM_FR_CI.CI : Fld := ⟨CAM_FR_CI, 0, 15⟩
/-- CAM_FR_DROP: 15_camera_pipeline.md. -/
def CAM_FR_DROP : Nat := 0xC9000154
def CAM_FR_DROP.DROP : Fld := ⟨CAM_FR_DROP, 0, 16⟩
/-- CAM_LNK_CFG: 15_camera_pipeline.md. -/
def CAM_LNK_CFG (i : Nat) : Nat := 0xC9000200 + 0x40 * (i % 4)
def CAM_LNK_CFG.EN (i : Nat) : Fld := ⟨CAM_LNK_CFG i, 31, 1⟩
def CAM_LNK_CFG.POC_EN (i : Nat) : Fld := ⟨CAM_LNK_CFG i, 30, 1⟩
def CAM_LNK_CFG.GEAR_MAX (i : Nat) : Fld := ⟨CAM_LNK_CFG i, 8, 3⟩
def CAM_LNK_CFG.VC_EN (i : Nat) : Fld := ⟨CAM_LNK_CFG i, 0, 4⟩
/-- CAM_LNK_STAT: 15_camera_pipeline.md. -/
def CAM_LNK_STAT (i : Nat) : Nat := 0xC9000204 + 0x40 * (i % 4)
def CAM_LNK_STAT.UP (i : Nat) : Fld := ⟨CAM_LNK_STAT i, 31, 1⟩
def CAM_LNK_STAT.POC_ON (i : Nat) : Fld := ⟨CAM_LNK_STAT i, 30, 1⟩
def CAM_LNK_STAT.POC_OPEN (i : Nat) : Fld := ⟨CAM_LNK_STAT i, 29, 1⟩
def CAM_LNK_STAT.POC_SHORT (i : Nat) : Fld := ⟨CAM_LNK_STAT i, 28, 1⟩
def CAM_LNK_STAT.GEAR (i : Nat) : Fld := ⟨CAM_LNK_STAT i, 24, 3⟩
def CAM_LNK_STAT.POC_MA (i : Nat) : Fld := ⟨CAM_LNK_STAT i, 0, 9⟩
/-- CAM_LNK_CNT: 15_camera_pipeline.md. -/
def CAM_LNK_CNT (i : Nat) : Nat := 0xC9000208 + 0x40 * (i % 4)
def CAM_LNK_CNT.OTHER (i : Nat) : Fld := ⟨CAM_LNK_CNT i, 16, 16⟩
def CAM_LNK_CNT.NOCTX (i : Nat) : Fld := ⟨CAM_LNK_CNT i, 8, 8⟩
def CAM_LNK_CNT.ORPHAN (i : Nat) : Fld := ⟨CAM_LNK_CNT i, 0, 8⟩
/-- CAM_LNK_ERR: 15_camera_pipeline.md. -/
def CAM_LNK_ERR (i : Nat) : Nat := 0xC900020C + 0x40 * (i % 4)
def CAM_LNK_ERR.CRC (i : Nat) : Fld := ⟨CAM_LNK_ERR i, 16, 16⟩
def CAM_LNK_ERR.HDR_LOST (i : Nat) : Fld := ⟨CAM_LNK_ERR i, 8, 8⟩
def CAM_LNK_ERR.ECC_FIX (i : Nat) : Fld := ⟨CAM_LNK_ERR i, 0, 8⟩
/-- CAM_LNK_STORE: 15_camera_pipeline.md. -/
def CAM_LNK_STORE (i : Nat) : Nat := 0xC9000210 + 0x40 * (i % 4)
def CAM_LNK_STORE.PEAK (i : Nat) : Fld := ⟨CAM_LNK_STORE i, 16, 16⟩
def CAM_LNK_STORE.USED (i : Nat) : Fld := ⟨CAM_LNK_STORE i, 0, 16⟩
/-- CAM_LNK_CAP: 15_camera_pipeline.md. -/
def CAM_LNK_CAP (i : Nat) : Nat := 0xC9000214 + 0x40 * (i % 4)
def CAM_LNK_CAP.INSVC (i : Nat) : Fld := ⟨CAM_LNK_CAP i, 0, 1⟩
/-- CAM_LNK_CCI_CMD: 15_camera_pipeline.md. -/
def CAM_LNK_CCI_CMD (i : Nat) : Nat := 0xC9000220 + 0x40 * (i % 4)
def CAM_LNK_CCI_CMD.START (i : Nat) : Fld := ⟨CAM_LNK_CCI_CMD i, 31, 1⟩
def CAM_LNK_CCI_CMD.RW (i : Nat) : Fld := ⟨CAM_LNK_CCI_CMD i, 30, 1⟩
def CAM_LNK_CCI_CMD.LEN (i : Nat) : Fld := ⟨CAM_LNK_CCI_CMD i, 28, 2⟩
def CAM_LNK_CCI_CMD.DEV (i : Nat) : Fld := ⟨CAM_LNK_CCI_CMD i, 16, 7⟩
def CAM_LNK_CCI_CMD.REG (i : Nat) : Fld := ⟨CAM_LNK_CCI_CMD i, 0, 16⟩
/-- CAM_LNK_CCI_DATA: 15_camera_pipeline.md. -/
def CAM_LNK_CCI_DATA (i : Nat) : Nat := 0xC9000224 + 0x40 * (i % 4)
def CAM_LNK_CCI_DATA.DATA (i : Nat) : Fld := ⟨CAM_LNK_CCI_DATA i, 0, 32⟩
/-- CAM_LNK_CCI_STAT: 15_camera_pipeline.md. -/
def CAM_LNK_CCI_STAT (i : Nat) : Nat := 0xC9000228 + 0x40 * (i % 4)
def CAM_LNK_CCI_STAT.IGN (i : Nat) : Fld := ⟨CAM_LNK_CCI_STAT i, 4, 1⟩
def CAM_LNK_CCI_STAT.TIMEOUT (i : Nat) : Fld := ⟨CAM_LNK_CCI_STAT i, 3, 1⟩
def CAM_LNK_CCI_STAT.NACK (i : Nat) : Fld := ⟨CAM_LNK_CCI_STAT i, 2, 1⟩
def CAM_LNK_CCI_STAT.DONE (i : Nat) : Fld := ⟨CAM_LNK_CCI_STAT i, 1, 1⟩
def CAM_LNK_CCI_STAT.BUSY (i : Nat) : Fld := ⟨CAM_LNK_CCI_STAT i, 0, 1⟩
/-- CAM_SRC_DEF: 15_camera_pipeline.md. -/
def CAM_SRC_DEF (i : Nat) : Nat := 0xC9000400 + 0x4 * (i % 16)
def CAM_SRC_DEF.INSVC (i : Nat) : Fld := ⟨CAM_SRC_DEF i, 31, 1⟩
def CAM_SRC_DEF.PL (i : Nat) : Fld := ⟨CAM_SRC_DEF i, 0, 3⟩
/-- CAM_PL_STAT: 15_camera_pipeline.md. -/
def CAM_PL_STAT (i : Nat) : Nat := 0xC9000500 + 0x4 * (i % 8)
def CAM_PL_STAT.BUSY (i : Nat) : Fld := ⟨CAM_PL_STAT i, 31, 1⟩
def CAM_PL_STAT.CTX (i : Nat) : Fld := ⟨CAM_PL_STAT i, 24, 5⟩
def CAM_PL_STAT.WAITING (i : Nat) : Fld := ⟨CAM_PL_STAT i, 16, 5⟩
def CAM_PL_STAT.FRAMES (i : Nat) : Fld := ⟨CAM_PL_STAT i, 0, 16⟩
/-- CAM_CTX_STAT: 15_camera_pipeline.md. -/
def CAM_CTX_STAT (i : Nat) : Nat := 0xC9100000 + 0x20 * (i % 32)
def CAM_CTX_STAT.LIVE (i : Nat) : Fld := ⟨CAM_CTX_STAT i, 31, 1⟩
def CAM_CTX_STAT.SRC (i : Nat) : Fld := ⟨CAM_CTX_STAT i, 24, 4⟩
def CAM_CTX_STAT.PL (i : Nat) : Fld := ⟨CAM_CTX_STAT i, 20, 3⟩
def CAM_CTX_STAT.BUFQ (i : Nat) : Fld := ⟨CAM_CTX_STAT i, 8, 5⟩
def CAM_CTX_STAT.PAL_SKIP (i : Nat) : Fld := ⟨CAM_CTX_STAT i, 0, 8⟩
/-- CAM_CTX_CSEQ: 15_camera_pipeline.md. -/
def CAM_CTX_CSEQ (i : Nat) : Nat := 0xC9100004 + 0x20 * (i % 32)
def CAM_CTX_CSEQ.CSEQ (i : Nat) : Fld := ⟨CAM_CTX_CSEQ i, 0, 32⟩
/-- FEN_CTRL: 16_feature_engine_arbiters.md. -/
def FEN_CTRL : Nat := 0xCA000000
def FEN_CTRL.ENABLE : Fld := ⟨FEN_CTRL, 0, 1⟩
/-- FEN_STATUS: 16_feature_engine_arbiters.md. -/
def FEN_STATUS : Nat := 0xCA000004
def FEN_STATUS.RUN : Fld := ⟨FEN_STATUS, 31, 1⟩
def FEN_STATUS.STREAM : Fld := ⟨FEN_STATUS, 24, 4⟩
def FEN_STATUS.PKGS : Fld := ⟨FEN_STATUS, 16, 8⟩
def FEN_STATUS.STREAMS : Fld := ⟨FEN_STATUS, 0, 5⟩
/-- FEN_SRAM: 16_feature_engine_arbiters.md. -/
def FEN_SRAM : Nat := 0xCA000008
def FEN_SRAM.FREE : Fld := ⟨FEN_SRAM, 0, 16⟩
/-- FEN_CNT: 16_feature_engine_arbiters.md. -/
def FEN_CNT : Nat := 0xCA00000C
def FEN_CNT.REVOKE : Fld := ⟨FEN_CNT, 16, 16⟩
def FEN_CNT.CORR : Fld := ⟨FEN_CNT, 8, 8⟩
def FEN_CNT.IN_DROP : Fld := ⟨FEN_CNT, 0, 8⟩
/-- FEN_JOB_PEND: 16_feature_engine_arbiters.md. -/
def FEN_JOB_PEND : Nat := 0xCA000010
def FEN_JOB_PEND.PEND : Fld := ⟨FEN_JOB_PEND, 0, 16⟩
/-- FEN_DWIN_LO: 16_feature_engine_arbiters.md. -/
def FEN_DWIN_LO (i : Nat) : Nat := 0xCA000040 + 0x10 * (i % 4)
def FEN_DWIN_LO.BASE_LO (i : Nat) : Fld := ⟨FEN_DWIN_LO i, 12, 20⟩
/-- FEN_DWIN_HI: 16_feature_engine_arbiters.md. -/
def FEN_DWIN_HI (i : Nat) : Nat := 0xCA000044 + 0x10 * (i % 4)
def FEN_DWIN_HI.BASE_HI (i : Nat) : Fld := ⟨FEN_DWIN_HI i, 0, 32⟩
/-- FEN_DWIN_SIZE: 16_feature_engine_arbiters.md. -/
def FEN_DWIN_SIZE (i : Nat) : Nat := 0xCA000048 + 0x10 * (i % 4)
def FEN_DWIN_SIZE.MIB (i : Nat) : Fld := ⟨FEN_DWIN_SIZE i, 0, 16⟩
/-- FEN_PKG: 16_feature_engine_arbiters.md. -/
def FEN_PKG (i : Nat) : Nat := 0xCA000400 + 0x8 * (i % 8)
def FEN_PKG.LOADED (i : Nat) : Fld := ⟨FEN_PKG i, 31, 1⟩
def FEN_PKG.FAULT (i : Nat) : Fld := ⟨FEN_PKG i, 30, 1⟩
def FEN_PKG.USERS (i : Nat) : Fld := ⟨FEN_PKG i, 0, 5⟩
/-- FEN_PKG_ID: 16_feature_engine_arbiters.md. -/
def FEN_PKG_ID (i : Nat) : Nat := 0xCA000404 + 0x8 * (i % 8)
def FEN_PKG_ID.PKG_ID (i : Nat) : Fld := ⟨FEN_PKG_ID i, 0, 32⟩
/-- FEN_STR: 16_feature_engine_arbiters.md. -/
def FEN_STR (i : Nat) : Nat := 0xCA000500 + 0x8 * (i % 16)
def FEN_STR.LIVE (i : Nat) : Fld := ⟨FEN_STR i, 31, 1⟩
def FEN_STR.STATE (i : Nat) : Fld := ⟨FEN_STR i, 28, 2⟩
def FEN_STR.RING (i : Nat) : Fld := ⟨FEN_STR i, 16, 5⟩
def FEN_STR.SLOT (i : Nat) : Fld := ⟨FEN_STR i, 8, 3⟩
/-- FEN_STR_JSEQ: 16_feature_engine_arbiters.md. -/
def FEN_STR_JSEQ (i : Nat) : Nat := 0xCA000504 + 0x8 * (i % 16)
def FEN_STR_JSEQ.JSEQ (i : Nat) : Fld := ⟨FEN_STR_JSEQ i, 0, 32⟩
/-- ARB_CTRL: 16_feature_engine_arbiters.md. -/
def ARB_CTRL : Nat := 0xCB000000
def ARB_CTRL.ENABLE : Fld := ⟨ARB_CTRL, 0, 1⟩
/-- ARB_CFG: 16_feature_engine_arbiters.md. -/
def ARB_CFG (i : Nat) : Nat := 0xCB000010 + 0x10 * (i % 2)
def ARB_CFG.FREEZE (i : Nat) : Fld := ⟨ARB_CFG i, 0, 1⟩
/-- ARB_STAT: 16_feature_engine_arbiters.md. -/
def ARB_STAT (i : Nat) : Nat := 0xCB000014 + 0x10 * (i % 2)
def ARB_STAT.GRANTED (i : Nat) : Fld := ⟨ARB_STAT i, 31, 1⟩
def ARB_STAT.DRAINED (i : Nat) : Fld := ⟨ARB_STAT i, 30, 1⟩
def ARB_STAT.OWNER (i : Nat) : Fld := ⟨ARB_STAT i, 8, 5⟩
def ARB_STAT.CLASS (i : Nat) : Fld := ⟨ARB_STAT i, 0, 2⟩
/-- ARB_CNT: 16_feature_engine_arbiters.md. -/
def ARB_CNT (i : Nat) : Nat := 0xCB000018 + 0x10 * (i % 2)
def ARB_CNT.REVOKE (i : Nat) : Fld := ⟨ARB_CNT i, 0, 16⟩
/-- ARB_HREQ: 16_feature_engine_arbiters.md. -/
def ARB_HREQ : Nat := 0xCB000040
def ARB_HREQ.REQ : Fld := ⟨ARB_HREQ, 31, 1⟩
def ARB_HREQ.GRANT : Fld := ⟨ARB_HREQ, 30, 1⟩
def ARB_HREQ.REVOKED : Fld := ⟨ARB_HREQ, 29, 1⟩
/-- ARB_REQ: 16_feature_engine_arbiters.md. -/
def ARB_REQ (i : Nat) : Nat := 0xCB000200 + 0x8 * (i % 24)
def ARB_REQ.LIVE (i : Nat) : Fld := ⟨ARB_REQ i, 31, 1⟩
def ARB_REQ.PEND (i : Nat) : Fld := ⟨ARB_REQ i, 30, 1⟩
def ARB_REQ.STARVE (i : Nat) : Fld := ⟨ARB_REQ i, 29, 1⟩
def ARB_REQ.CLASS (i : Nat) : Fld := ⟨ARB_REQ i, 0, 2⟩
/-- ARB_WAIT: 16_feature_engine_arbiters.md. -/
def ARB_WAIT (i : Nat) : Nat := 0xCB000204 + 0x8 * (i % 24)
def ARB_WAIT.WAIT_US (i : Nat) : Fld := ⟨ARB_WAIT i, 0, 32⟩
/-- FUS_CTRL: 17_canvas_fusion.md. -/
def FUS_CTRL : Nat := 0xCC000000
def FUS_CTRL.ENABLE : Fld := ⟨FUS_CTRL, 0, 1⟩
/-- FUS_STATUS: 17_canvas_fusion.md. -/
def FUS_STATUS : Nat := 0xCC000004
def FUS_STATUS.RUN : Fld := ⟨FUS_STATUS, 31, 1⟩
def FUS_STATUS.PUB : Fld := ⟨FUS_STATUS, 30, 1⟩
def FUS_STATUS.SOURCES : Fld := ⟨FUS_STATUS, 0, 5⟩
/-- FUS_GRID_CAP: 17_canvas_fusion.md. -/
def FUS_GRID_CAP : Nat := 0xCC000008
def FUS_GRID_CAP.CELL : Fld := ⟨FUS_GRID_CAP, 22, 10⟩
def FUS_GRID_CAP.GH : Fld := ⟨FUS_GRID_CAP, 11, 11⟩
def FUS_GRID_CAP.GW : Fld := ⟨FUS_GRID_CAP, 0, 11⟩
/-- FUS_ORG_X: 17_canvas_fusion.md. -/
def FUS_ORG_X : Nat := 0xCC00000C
def FUS_ORG_X.ORG : Fld := ⟨FUS_ORG_X, 0, 32⟩
/-- FUS_ORG_Y: 17_canvas_fusion.md. -/
def FUS_ORG_Y : Nat := 0xCC000010
def FUS_ORG_Y.ORG : Fld := ⟨FUS_ORG_Y, 0, 32⟩
/-- FUS_INST_CFG: 17_canvas_fusion.md. -/
def FUS_INST_CFG : Nat := 0xCC000014
def FUS_INST_CFG.W_MS : Fld := ⟨FUS_INST_CFG, 16, 10⟩
def FUS_INST_CFG.D_MS : Fld := ⟨FUS_INST_CFG, 8, 8⟩
def FUS_INST_CFG.P_MS : Fld := ⟨FUS_INST_CFG, 0, 8⟩
/-- FUS_CARRY: 17_canvas_fusion.md. -/
def FUS_CARRY : Nat := 0xCC000018
def FUS_CARRY.DECAY : Fld := ⟨FUS_CARRY, 0, 3⟩
/-- FUS_MOT_CFG: 17_canvas_fusion.md. -/
def FUS_MOT_CFG : Nat := 0xCC00001C
def FUS_MOT_CFG.MOT_AGE : Fld := ⟨FUS_MOT_CFG, 16, 8⟩
def FUS_MOT_CFG.W_SRC : Fld := ⟨FUS_MOT_CFG, 8, 5⟩
def FUS_MOT_CFG.V_SRC : Fld := ⟨FUS_MOT_CFG, 0, 5⟩
/-- FUS_CV_BASE_LO: 17_canvas_fusion.md. -/
def FUS_CV_BASE_LO : Nat := 0xCC000020
def FUS_CV_BASE_LO.ADDR_LO : Fld := ⟨FUS_CV_BASE_LO, 12, 20⟩
/-- FUS_CV_BASE_HI: 17_canvas_fusion.md. -/
def FUS_CV_BASE_HI : Nat := 0xCC000024
def FUS_CV_BASE_HI.ADDR_HI : Fld := ⟨FUS_CV_BASE_HI, 0, 32⟩
/-- FUS_CV_CFG: 17_canvas_fusion.md. -/
def FUS_CV_CFG : Nat := 0xCC000028
def FUS_CV_CFG.NBUF : Fld := ⟨FUS_CV_CFG, 0, 4⟩
/-- FUS_CV_STRIDE: 17_canvas_fusion.md. -/
def FUS_CV_STRIDE : Nat := 0xCC00002C
def FUS_CV_STRIDE.PAGES : Fld := ⟨FUS_CV_STRIDE, 0, 16⟩
/-- FUS_HEAD: 17_canvas_fusion.md. -/
def FUS_HEAD : Nat := 0xCC000030
def FUS_HEAD.STREAM : Fld := ⟨FUS_HEAD, 0, 32⟩
/-- FUS_LAST: 17_canvas_fusion.md. -/
def FUS_LAST : Nat := 0xCC000034
def FUS_LAST.ISEQ : Fld := ⟨FUS_LAST, 0, 32⟩
/-- FUS_LAST_LTC_LO: 17_canvas_fusion.md. -/
def FUS_LAST_LTC_LO : Nat := 0xCC000038
def FUS_LAST_LTC_LO.L_K : Fld := ⟨FUS_LAST_LTC_LO, 0, 32⟩
/-- FUS_LAST_LTC_HI: 17_canvas_fusion.md. -/
def FUS_LAST_LTC_HI : Nat := 0xCC00003C
def FUS_LAST_LTC_HI.L_K : Fld := ⟨FUS_LAST_LTC_HI, 0, 32⟩
/-- FUS_CNT: 17_canvas_fusion.md. -/
def FUS_CNT : Nat := 0xCC000040
def FUS_CNT.OVERRUN : Fld := ⟨FUS_CNT, 16, 16⟩
def FUS_CNT.HEAD_SKIP : Fld := ⟨FUS_CNT, 0, 16⟩
/-- FUS_LATE_CNT: 17_canvas_fusion.md. -/
def FUS_LATE_CNT : Nat := 0xCC000044
def FUS_LATE_CNT.LATE : Fld := ⟨FUS_LATE_CNT, 0, 16⟩
/-- FUS_DWIN_LO: 17_canvas_fusion.md. -/
def FUS_DWIN_LO (i : Nat) : Nat := 0xCC000060 + 0x10 * (i % 4)
def FUS_DWIN_LO.BASE_LO (i : Nat) : Fld := ⟨FUS_DWIN_LO i, 12, 20⟩
/-- FUS_DWIN_HI: 17_canvas_fusion.md. -/
def FUS_DWIN_HI (i : Nat) : Nat := 0xCC000064 + 0x10 * (i % 4)
def FUS_DWIN_HI.BASE_HI (i : Nat) : Fld := ⟨FUS_DWIN_HI i, 0, 32⟩
/-- FUS_DWIN_SIZE: 17_canvas_fusion.md. -/
def FUS_DWIN_SIZE (i : Nat) : Nat := 0xCC000068 + 0x10 * (i % 4)
def FUS_DWIN_SIZE.MIB (i : Nat) : Fld := ⟨FUS_DWIN_SIZE i, 0, 16⟩
/-- FUS_REC_BASE_LO: 17_canvas_fusion.md. -/
def FUS_REC_BASE_LO : Nat := 0xCC000140
def FUS_REC_BASE_LO.ADDR_LO : Fld := ⟨FUS_REC_BASE_LO, 12, 20⟩
/-- FUS_REC_BASE_HI: 17_canvas_fusion.md. -/
def FUS_REC_BASE_HI : Nat := 0xCC000144
def FUS_REC_BASE_HI.ADDR_HI : Fld := ⟨FUS_REC_BASE_HI, 0, 32⟩
/-- FUS_REC_CFG: 17_canvas_fusion.md. -/
def FUS_REC_CFG : Nat := 0xCC000148
def FUS_REC_CFG.RLEN : Fld := ⟨FUS_REC_CFG, 0, 4⟩
/-- FUS_REC_PI: 17_canvas_fusion.md. -/
def FUS_REC_PI : Nat := 0xCC00014C
def FUS_REC_PI.PI : Fld := ⟨FUS_REC_PI, 0, 13⟩
/-- FUS_REC_CI: 17_canvas_fusion.md. -/
def FUS_REC_CI : Nat := 0xCC000150
def FUS_REC_CI.CI : Fld := ⟨FUS_REC_CI, 0, 13⟩
/-- FUS_REC_DROP: 17_canvas_fusion.md. -/
def FUS_REC_DROP : Nat := 0xCC000154
def FUS_REC_DROP.DROP : Fld := ⟨FUS_REC_DROP, 0, 16⟩
/-- FUS_IMU0: 17_canvas_fusion.md. -/
def FUS_IMU0 : Nat := 0xCC000180
def FUS_IMU0.GY : Fld := ⟨FUS_IMU0, 16, 16⟩
def FUS_IMU0.GX : Fld := ⟨FUS_IMU0, 0, 16⟩
/-- FUS_IMU1: 17_canvas_fusion.md. -/
def FUS_IMU1 : Nat := 0xCC000184
def FUS_IMU1.AX : Fld := ⟨FUS_IMU1, 16, 16⟩
def FUS_IMU1.GZ : Fld := ⟨FUS_IMU1, 0, 16⟩
/-- FUS_IMU2: 17_canvas_fusion.md. -/
def FUS_IMU2 : Nat := 0xCC000188
def FUS_IMU2.AZ : Fld := ⟨FUS_IMU2, 16, 16⟩
def FUS_IMU2.AY : Fld := ⟨FUS_IMU2, 0, 16⟩
/-- FUS_IMU_LTC_LO: 17_canvas_fusion.md. -/
def FUS_IMU_LTC_LO : Nat := 0xCC00018C
def FUS_IMU_LTC_LO.LTC : Fld := ⟨FUS_IMU_LTC_LO, 0, 32⟩
/-- FUS_IMU_LTC_HI: 17_canvas_fusion.md. -/
def FUS_IMU_LTC_HI : Nat := 0xCC000190
def FUS_IMU_LTC_HI.LTC : Fld := ⟨FUS_IMU_LTC_HI, 0, 32⟩
/-- FUS_S_STAT: 17_canvas_fusion.md. -/
def FUS_S_STAT (i : Nat) : Nat := 0xCC100000 + 0x100 * (i % 24)
def FUS_S_STAT.LIVE (i : Nat) : Fld := ⟨FUS_S_STAT i, 31, 1⟩
def FUS_S_STAT.KIND (i : Nat) : Fld := ⟨FUS_S_STAT i, 28, 3⟩
def FUS_S_STAT.ORDER (i : Nat) : Fld := ⟨FUS_S_STAT i, 16, 5⟩
def FUS_S_STAT.ICLASS (i : Nat) : Fld := ⟨FUS_S_STAT i, 12, 2⟩
def FUS_S_STAT.FEED (i : Nat) : Fld := ⟨FUS_S_STAT i, 8, 1⟩
def FUS_S_STAT.FUT_F (i : Nat) : Fld := ⟨FUS_S_STAT i, 3, 1⟩
def FUS_S_STAT.UNUSED_F (i : Nat) : Fld := ⟨FUS_S_STAT i, 2, 1⟩
def FUS_S_STAT.OLB_F (i : Nat) : Fld := ⟨FUS_S_STAT i, 1, 1⟩
def FUS_S_STAT.LATE_F (i : Nat) : Fld := ⟨FUS_S_STAT i, 0, 1⟩
/-- FUS_S_CNT: 17_canvas_fusion.md. -/
def FUS_S_CNT (i : Nat) : Nat := 0xCC100004 + 0x100 * (i % 24)
def FUS_S_CNT.LATE (i : Nat) : Fld := ⟨FUS_S_CNT i, 16, 16⟩
def FUS_S_CNT.UNUSED (i : Nat) : Fld := ⟨FUS_S_CNT i, 0, 16⟩
/-- FUS_S_CNT2: 17_canvas_fusion.md. -/
def FUS_S_CNT2 (i : Nat) : Nat := 0xCC100008 + 0x100 * (i % 24)
def FUS_S_CNT2.FUTURE (i : Nat) : Fld := ⟨FUS_S_CNT2 i, 16, 16⟩
def FUS_S_CNT2.OVER_LB (i : Nat) : Fld := ⟨FUS_S_CNT2 i, 0, 16⟩
/-- FUS_S_LAST_LO: 17_canvas_fusion.md. -/
def FUS_S_LAST_LO (i : Nat) : Nat := 0xCC10000C + 0x100 * (i % 24)
def FUS_S_LAST_LO.TOV (i : Nat) : Fld := ⟨FUS_S_LAST_LO i, 0, 32⟩
/-- FUS_S_LAST_HI: 17_canvas_fusion.md. -/
def FUS_S_LAST_HI (i : Nat) : Nat := 0xCC100010 + 0x100 * (i % 24)
def FUS_S_LAST_HI.TOV (i : Nat) : Fld := ⟨FUS_S_LAST_HI i, 0, 32⟩
/-- FUS_S_CAL_CTRL: 17_canvas_fusion.md. -/
def FUS_S_CAL_CTRL (i : Nat) : Nat := 0xCC100014 + 0x100 * (i % 24)
def FUS_S_CAL_CTRL.COMMIT (i : Nat) : Fld := ⟨FUS_S_CAL_CTRL i, 31, 1⟩
def FUS_S_CAL_CTRL.PEND (i : Nat) : Fld := ⟨FUS_S_CAL_CTRL i, 30, 1⟩
/-- FUS_S_CALN: 17_canvas_fusion.md. -/
def FUS_S_CALN (i j : Nat) : Nat := 0xCC100040 + 0x100 * (i % 24) + 0x4 * (j % 12)
def FUS_S_CALN.VAL (i j : Nat) : Fld := ⟨FUS_S_CALN i j, 0, 32⟩
/-- FUS_S_CAL: 17_canvas_fusion.md. -/
def FUS_S_CAL (i j : Nat) : Nat := 0xCC100080 + 0x100 * (i % 24) + 0x4 * (j % 12)
def FUS_S_CAL.VAL (i j : Nat) : Fld := ⟨FUS_S_CAL i j, 0, 32⟩
/-- FUS_VOTE_CFG: 18_calibration_voting.md. -/
def FUS_VOTE_CFG : Nat := 0xCC000048
def FUS_VOTE_CFG.N : Fld := ⟨FUS_VOTE_CFG, 24, 8⟩
def FUS_VOTE_CFG.M : Fld := ⟨FUS_VOTE_CFG, 16, 8⟩
def FUS_VOTE_CFG.THR : Fld := ⟨FUS_VOTE_CFG, 8, 8⟩
/-- FUS_VOTE_MINC: 18_calibration_voting.md. -/
def FUS_VOTE_MINC : Nat := 0xCC00004C
def FUS_VOTE_MINC.MINC_T : Fld := ⟨FUS_VOTE_MINC, 0, 11⟩
/-- FUS_CAL_CFG: 18_calibration_voting.md. -/
def FUS_CAL_CFG : Nat := 0xCC000050
def FUS_CAL_CFG.FREEZE_ALL : Fld := ⟨FUS_CAL_CFG, 31, 1⟩
def FUS_CAL_CFG.STALL_N : Fld := ⟨FUS_CAL_CFG, 0, 8⟩
/-- FUS_CAL_BUD: 18_calibration_voting.md. -/
def FUS_CAL_BUD : Nat := 0xCC000054
def FUS_CAL_BUD.BUD_ANG : Fld := ⟨FUS_CAL_BUD, 16, 16⟩
def FUS_CAL_BUD.BUD_T : Fld := ⟨FUS_CAL_BUD, 0, 16⟩
/-- FUS_TILE_SUM: 18_calibration_voting.md. -/
def FUS_TILE_SUM : Nat := 0xCC000058
def FUS_TILE_SUM.CONFLICT : Fld := ⟨FUS_TILE_SUM, 16, 11⟩
def FUS_TILE_SUM.UNCHECKED : Fld := ⟨FUS_TILE_SUM, 0, 11⟩
/-- FUS_VOTE_CNT: 18_calibration_voting.md. -/
def FUS_VOTE_CNT : Nat := 0xCC00005C
def FUS_VOTE_CNT.OUTS : Fld := ⟨FUS_VOTE_CNT, 16, 16⟩
def FUS_VOTE_CNT.INS : Fld := ⟨FUS_VOTE_CNT, 0, 16⟩
/-- FUS_S_RF_CFG: 18_calibration_voting.md. -/
def FUS_S_RF_CFG (i : Nat) : Nat := 0xCC100018 + 0x100 * (i % 24)
def FUS_S_RF_CFG.RF_EN (i : Nat) : Fld := ⟨FUS_S_RF_CFG i, 31, 1⟩
def FUS_S_RF_CFG.FREEZE (i : Nat) : Fld := ⟨FUS_S_RF_CFG i, 30, 1⟩
def FUS_S_RF_CFG.MINC (i : Nat) : Fld := ⟨FUS_S_RF_CFG i, 16, 13⟩
def FUS_S_RF_CFG.GAIN (i : Nat) : Fld := ⟨FUS_S_RF_CFG i, 8, 8⟩
def FUS_S_RF_CFG.REF (i : Nat) : Fld := ⟨FUS_S_RF_CFG i, 0, 5⟩
/-- FUS_S_CALV: 18_calibration_voting.md. -/
def FUS_S_CALV (i : Nat) : Nat := 0xCC10001C + 0x100 * (i % 24)
def FUS_S_CALV.BY_HOST (i : Nat) : Fld := ⟨FUS_S_CALV i, 31, 1⟩
def FUS_S_CALV.BUD_OUT (i : Nat) : Fld := ⟨FUS_S_CALV i, 30, 1⟩
def FUS_S_CALV.CLAMP_F (i : Nat) : Fld := ⟨FUS_S_CALV i, 29, 1⟩
def FUS_S_CALV.STALL_F (i : Nat) : Fld := ⟨FUS_S_CALV i, 28, 1⟩
def FUS_S_CALV.STEP_PEND (i : Nat) : Fld := ⟨FUS_S_CALV i, 27, 1⟩
def FUS_S_CALV.CALV (i : Nat) : Fld := ⟨FUS_S_CALV i, 0, 16⟩
/-- FUS_S_EST_ROLL: 18_calibration_voting.md. -/
def FUS_S_EST_ROLL (i : Nat) : Nat := 0xCC100020 + 0x100 * (i % 24)
def FUS_S_EST_ROLL.EST (i : Nat) : Fld := ⟨FUS_S_EST_ROLL i, 0, 32⟩
/-- FUS_S_EST_PITCH: 18_calibration_voting.md. -/
def FUS_S_EST_PITCH (i : Nat) : Nat := 0xCC100024 + 0x100 * (i % 24)
def FUS_S_EST_PITCH.EST (i : Nat) : Fld := ⟨FUS_S_EST_PITCH i, 0, 32⟩
/-- FUS_S_EST_YAW: 18_calibration_voting.md. -/
def FUS_S_EST_YAW (i : Nat) : Nat := 0xCC100028 + 0x100 * (i % 24)
def FUS_S_EST_YAW.EST (i : Nat) : Fld := ⟨FUS_S_EST_YAW i, 0, 32⟩
/-- FUS_S_EST_TX: 18_calibration_voting.md. -/
def FUS_S_EST_TX (i : Nat) : Nat := 0xCC10002C + 0x100 * (i % 24)
def FUS_S_EST_TX.EST (i : Nat) : Fld := ⟨FUS_S_EST_TX i, 0, 32⟩
/-- FUS_S_EST_TY: 18_calibration_voting.md. -/
def FUS_S_EST_TY (i : Nat) : Nat := 0xCC100030 + 0x100 * (i % 24)
def FUS_S_EST_TY.EST (i : Nat) : Fld := ⟨FUS_S_EST_TY i, 0, 32⟩
/-- FUS_S_EST_TZ: 18_calibration_voting.md. -/
def FUS_S_EST_TZ (i : Nat) : Nat := 0xCC100034 + 0x100 * (i % 24)
def FUS_S_EST_TZ.EST (i : Nat) : Fld := ⟨FUS_S_EST_TZ i, 0, 32⟩
/-- FUS_S_RF_USED: 18_calibration_voting.md. -/
def FUS_S_RF_USED (i : Nat) : Nat := 0xCC100038 + 0x100 * (i % 24)
def FUS_S_RF_USED.ANG_USED (i : Nat) : Fld := ⟨FUS_S_RF_USED i, 16, 16⟩
def FUS_S_RF_USED.T_USED (i : Nat) : Fld := ⟨FUS_S_RF_USED i, 0, 16⟩
/-- FUS_S_VOTE: 18_calibration_voting.md. -/
def FUS_S_VOTE (i : Nat) : Nat := 0xCC10003C + 0x100 * (i % 24)
def FUS_S_VOTE.READMIT (i : Nat) : Fld := ⟨FUS_S_VOTE i, 31, 1⟩
def FUS_S_VOTE.DISSENT_TILES (i : Nat) : Fld := ⟨FUS_S_VOTE i, 16, 11⟩
def FUS_S_VOTE.OUT_TILES (i : Nat) : Fld := ⟨FUS_S_VOTE i, 0, 11⟩
/-- YLD_CTRL: 19_yield_mapping.md. -/
def YLD_CTRL : Nat := 0xCD000000
def YLD_CTRL.ENABLE : Fld := ⟨YLD_CTRL, 0, 1⟩
/-- YLD_STATUS: 19_yield_mapping.md. -/
def YLD_STATUS : Nat := 0xCD000004
def YLD_STATUS.WRITING : Fld := ⟨YLD_STATUS, 31, 1⟩
def YLD_STATUS.CLOSED : Fld := ⟨YLD_STATUS, 16, 10⟩
def YLD_STATUS.LAYERS : Fld := ⟨YLD_STATUS, 0, 4⟩
/-- YLD_CFG: 19_yield_mapping.md. -/
def YLD_CFG : Nat := 0xCD000008
def YLD_CFG.CD_MS : Fld := ⟨YLD_CFG, 16, 13⟩
def YLD_CFG.TD_MS : Fld := ⟨YLD_CFG, 0, 16⟩
/-- YLD_LTD: 19_yield_mapping.md. -/
def YLD_LTD : Nat := 0xCD00000C
def YLD_LTD.LTD_MS : Fld := ⟨YLD_LTD, 0, 16⟩
/-- YLD_CAL: 19_yield_mapping.md. -/
def YLD_CAL : Nat := 0xCD000010
def YLD_CAL.YCAL : Fld := ⟨YLD_CAL, 0, 32⟩
/-- YLD_MOIST_CFG: 19_yield_mapping.md. -/
def YLD_MOIST_CFG : Nat := 0xCD000014
def YLD_MOIST_CFG.MODE : Fld := ⟨YLD_MOIST_CFG, 31, 1⟩
def YLD_MOIST_CFG.FIX : Fld := ⟨YLD_MOIST_CFG, 16, 14⟩
def YLD_MOIST_CFG.BYTE : Fld := ⟨YLD_MOIST_CFG, 0, 6⟩
/-- YLD_MOIST_OBJ: 19_yield_mapping.md. -/
def YLD_MOIST_OBJ : Nat := 0xCD000018
def YLD_MOIST_OBJ.HANDLE : Fld := ⟨YLD_MOIST_OBJ, 0, 32⟩
/-- YLD_HDR_CFG: 19_yield_mapping.md. -/
def YLD_HDR_CFG : Nat := 0xCD00001C
def YLD_HDR_CFG.WMODE : Fld := ⟨YLD_HDR_CFG, 30, 2⟩
def YLD_HDR_CFG.LOOK_MM : Fld := ⟨YLD_HDR_CFG, 16, 14⟩
def YLD_HDR_CFG.HDR_W : Fld := ⟨YLD_HDR_CFG, 0, 16⟩
/-- YLD_HDR_POS: 19_yield_mapping.md. -/
def YLD_HDR_POS : Nat := 0xCD000020
def YLD_HDR_POS.HDR_X : Fld := ⟨YLD_HDR_POS, 16, 16⟩
def YLD_HDR_POS.HDR_Y : Fld := ⟨YLD_HDR_POS, 0, 16⟩
/-- YLD_HDR_HOST: 19_yield_mapping.md. -/
def YLD_HDR_HOST : Nat := 0xCD000024
def YLD_HDR_HOST.WIDTH : Fld := ⟨YLD_HDR_HOST, 0, 16⟩
/-- YLD_CLOSE: 19_yield_mapping.md. -/
def YLD_CLOSE : Nat := 0xCD000028
def YLD_CLOSE.CLOSE_S : Fld := ⟨YLD_CLOSE, 0, 8⟩
/-- YLD_CNT: 19_yield_mapping.md. -/
def YLD_CNT : Nat := 0xCD000030
def YLD_CNT.LATE : Fld := ⟨YLD_CNT, 16, 16⟩
def YLD_CNT.DROP : Fld := ⟨YLD_CNT, 0, 16⟩
/-- YLD_UNMAP: 19_yield_mapping.md. -/
def YLD_UNMAP : Nat := 0xCD000034
def YLD_UNMAP.KG : Fld := ⟨YLD_UNMAP, 0, 32⟩
/-- YLD_LOSS: 19_yield_mapping.md. -/
def YLD_LOSS (i : Nat) : Nat := 0xCD000040 + 0x4 * (i % 8)
def YLD_LOSS.EN (i : Nat) : Fld := ⟨YLD_LOSS i, 31, 1⟩
def YLD_LOSS.LG_MG (i : Nat) : Fld := ⟨YLD_LOSS i, 0, 24⟩
/-- YLD_DWIN_LO: 19_yield_mapping.md. -/
def YLD_DWIN_LO (i : Nat) : Nat := 0xCD000060 + 0x10 * (i % 2)
def YLD_DWIN_LO.BASE_LO (i : Nat) : Fld := ⟨YLD_DWIN_LO i, 12, 20⟩
/-- YLD_DWIN_HI: 19_yield_mapping.md. -/
def YLD_DWIN_HI (i : Nat) : Nat := 0xCD000064 + 0x10 * (i % 2)
def YLD_DWIN_HI.BASE_HI (i : Nat) : Fld := ⟨YLD_DWIN_HI i, 0, 32⟩
/-- YLD_DWIN_SIZE: 19_yield_mapping.md. -/
def YLD_DWIN_SIZE (i : Nat) : Nat := 0xCD000068 + 0x10 * (i % 2)
def YLD_DWIN_SIZE.MIB (i : Nat) : Fld := ⟨YLD_DWIN_SIZE i, 0, 16⟩
/-- YLD_L_STAT: 19_yield_mapping.md. -/
def YLD_L_STAT (i : Nat) : Nat := 0xCD100000 + 0x10 * (i % 8)
def YLD_L_STAT.LIVE (i : Nat) : Fld := ⟨YLD_L_STAT i, 31, 1⟩
def YLD_L_STAT.LOG_FULL (i : Nat) : Fld := ⟨YLD_L_STAT i, 30, 1⟩
def YLD_L_STAT.OPEN (i : Nat) : Fld := ⟨YLD_L_STAT i, 16, 7⟩
def YLD_L_STAT.CLOSED (i : Nat) : Fld := ⟨YLD_L_STAT i, 0, 7⟩
/-- YLD_L_WPOS: 19_yield_mapping.md. -/
def YLD_L_WPOS (i : Nat) : Nat := 0xCD100004 + 0x10 * (i % 8)
def YLD_L_WPOS.WPOS (i : Nat) : Fld := ⟨YLD_L_WPOS i, 0, 25⟩
/-- YLD_L_TSEQ: 19_yield_mapping.md. -/
def YLD_L_TSEQ (i : Nat) : Nat := 0xCD100008 + 0x10 * (i % 8)
def YLD_L_TSEQ.TSEQ (i : Nat) : Fld := ⟨YLD_L_TSEQ i, 0, 32⟩
/-- BUS_CTRL: 20_field_buses.md. -/
def BUS_CTRL : Nat := 0xCE000000
def BUS_CTRL.ENABLE : Fld := ⟨BUS_CTRL, 0, 1⟩
/-- BUS_STATUS: 20_field_buses.md. -/
def BUS_STATUS : Nat := 0xCE000004
def BUS_STATUS.OBJECTS : Fld := ⟨BUS_STATUS, 16, 12⟩
def BUS_STATUS.SESSIONS : Fld := ⟨BUS_STATUS, 8, 6⟩
def BUS_STATUS.QUEUES : Fld := ⟨BUS_STATUS, 0, 4⟩
/-- BUS_DWIN_LO: 20_field_buses.md. -/
def BUS_DWIN_LO (i : Nat) : Nat := 0xCE000040 + 0x10 * (i % 2)
def BUS_DWIN_LO.BASE_LO (i : Nat) : Fld := ⟨BUS_DWIN_LO i, 12, 20⟩
/-- BUS_DWIN_HI: 20_field_buses.md. -/
def BUS_DWIN_HI (i : Nat) : Nat := 0xCE000044 + 0x10 * (i % 2)
def BUS_DWIN_HI.BASE_HI (i : Nat) : Fld := ⟨BUS_DWIN_HI i, 0, 32⟩
/-- BUS_DWIN_SIZE: 20_field_buses.md. -/
def BUS_DWIN_SIZE (i : Nat) : Nat := 0xCE000048 + 0x10 * (i % 2)
def BUS_DWIN_SIZE.MIB (i : Nat) : Fld := ⟨BUS_DWIN_SIZE i, 0, 16⟩
/-- BUS_TP_RXBASE_LO: 20_field_buses.md. -/
def BUS_TP_RXBASE_LO : Nat := 0xCE000060
def BUS_TP_RXBASE_LO.ADDR_LO : Fld := ⟨BUS_TP_RXBASE_LO, 12, 20⟩
/-- BUS_TP_RXBASE_HI: 20_field_buses.md. -/
def BUS_TP_RXBASE_HI : Nat := 0xCE000064
def BUS_TP_RXBASE_HI.ADDR_HI : Fld := ⟨BUS_TP_RXBASE_HI, 0, 32⟩
/-- BUS_TP_RXMAX: 20_field_buses.md. -/
def BUS_TP_RXMAX : Nat := 0xCE000068
def BUS_TP_RXMAX.RXMAX : Fld := ⟨BUS_TP_RXMAX, 0, 25⟩
/-- BUS_Q_STAT: 20_field_buses.md. -/
def BUS_Q_STAT (i : Nat) : Nat := 0xCE000800 + 0x20 * (i % 8)
def BUS_Q_STAT.LIVE (i : Nat) : Fld := ⟨BUS_Q_STAT i, 31, 1⟩
def BUS_Q_STAT.CTRL (i : Nat) : Fld := ⟨BUS_Q_STAT i, 24, 3⟩
def BUS_Q_STAT.Q_DROP (i : Nat) : Fld := ⟨BUS_Q_STAT i, 0, 16⟩
/-- BUS_Q_PI: 20_field_buses.md. -/
def BUS_Q_PI (i : Nat) : Nat := 0xCE000804 + 0x20 * (i % 8)
def BUS_Q_PI.PI (i : Nat) : Fld := ⟨BUS_Q_PI i, 0, 9⟩
/-- BUS_Q_CI: 20_field_buses.md. -/
def BUS_Q_CI (i : Nat) : Nat := 0xCE000808 + 0x20 * (i % 8)
def BUS_Q_CI.CI (i : Nat) : Fld := ⟨BUS_Q_CI i, 0, 9⟩
/-- BUS_C_CFG: 20_field_buses.md. -/
def BUS_C_CFG (i : Nat) : Nat := 0xCE001000 + 0x100 * (i % 8)
def BUS_C_CFG.EN (i : Nat) : Fld := ⟨BUS_C_CFG i, 31, 1⟩
def BUS_C_CFG.FD_EN (i : Nat) : Fld := ⟨BUS_C_CFG i, 30, 1⟩
def BUS_C_CFG.TERM (i : Nat) : Fld := ⟨BUS_C_CFG i, 29, 1⟩
def BUS_C_CFG.AUTO_REC (i : Nat) : Fld := ⟨BUS_C_CFG i, 28, 1⟩
def BUS_C_CFG.MODE (i : Nat) : Fld := ⟨BUS_C_CFG i, 24, 2⟩
def BUS_C_CFG.TPQ (i : Nat) : Fld := ⟨BUS_C_CFG i, 0, 3⟩
/-- BUS_C_NBT: 20_field_buses.md. -/
def BUS_C_NBT (i : Nat) : Nat := 0xCE001004 + 0x100 * (i % 8)
def BUS_C_NBT.NSJW (i : Nat) : Fld := ⟨BUS_C_NBT i, 25, 7⟩
def BUS_C_NBT.NTSEG1 (i : Nat) : Fld := ⟨BUS_C_NBT i, 16, 9⟩
def BUS_C_NBT.NTSEG2 (i : Nat) : Fld := ⟨BUS_C_NBT i, 9, 7⟩
def BUS_C_NBT.NBRP (i : Nat) : Fld := ⟨BUS_C_NBT i, 0, 8⟩
/-- BUS_C_DBT: 20_field_buses.md. -/
def BUS_C_DBT (i : Nat) : Nat := 0xCE001008 + 0x100 * (i % 8)
def BUS_C_DBT.DSJW (i : Nat) : Fld := ⟨BUS_C_DBT i, 24, 4⟩
def BUS_C_DBT.DTSEG1 (i : Nat) : Fld := ⟨BUS_C_DBT i, 16, 5⟩
def BUS_C_DBT.DTSEG2 (i : Nat) : Fld := ⟨BUS_C_DBT i, 8, 4⟩
def BUS_C_DBT.DBRP (i : Nat) : Fld := ⟨BUS_C_DBT i, 0, 5⟩
/-- BUS_C_TDC: 20_field_buses.md. -/
def BUS_C_TDC (i : Nat) : Nat := 0xCE00100C + 0x100 * (i % 8)
def BUS_C_TDC.TDC_EN (i : Nat) : Fld := ⟨BUS_C_TDC i, 15, 1⟩
def BUS_C_TDC.TDCO (i : Nat) : Fld := ⟨BUS_C_TDC i, 0, 7⟩
/-- BUS_C_STAT: 20_field_buses.md. -/
def BUS_C_STAT (i : Nat) : Nat := 0xCE001010 + 0x100 * (i % 8)
def BUS_C_STAT.RECOVER (i : Nat) : Fld := ⟨BUS_C_STAT i, 31, 1⟩
def BUS_C_STAT.STATE (i : Nat) : Fld := ⟨BUS_C_STAT i, 24, 2⟩
def BUS_C_STAT.TEC (i : Nat) : Fld := ⟨BUS_C_STAT i, 8, 9⟩
def BUS_C_STAT.REC (i : Nat) : Fld := ⟨BUS_C_STAT i, 0, 8⟩
/-- BUS_C_ALERT: 20_field_buses.md. -/
def BUS_C_ALERT (i : Nat) : Nat := 0xCE001014 + 0x100 * (i % 8)
def BUS_C_ALERT.ALERT (i : Nat) : Fld := ⟨BUS_C_ALERT i, 0, 8⟩
/-- BUS_C_CLASH: 20_field_buses.md. -/
def BUS_C_CLASH (i : Nat) : Nat := 0xCE001018 + 0x100 * (i % 8)
def BUS_C_CLASH.ID (i : Nat) : Fld := ⟨BUS_C_CLASH i, 0, 30⟩
/-- BUS_C_CNT: 20_field_buses.md. -/
def BUS_C_CNT (i : Nat) : Nat := 0xCE00101C + 0x100 * (i % 8)
def BUS_C_CNT.NOMATCH (i : Nat) : Fld := ⟨BUS_C_CNT i, 16, 16⟩
def BUS_C_CNT.WIGN (i : Nat) : Fld := ⟨BUS_C_CNT i, 0, 16⟩
/-- BUS_C_TPADDR: 20_field_buses.md. -/
def BUS_C_TPADDR (i : Nat) : Nat := 0xCE001020 + 0x100 * (i % 8)
def BUS_C_TPADDR.ADDR (i : Nat) : Fld := ⟨BUS_C_TPADDR i, 0, 32⟩
/-- BUS_C_TPLIM: 20_field_buses.md. -/
def BUS_C_TPLIM (i : Nat) : Nat := 0xCE001024 + 0x100 * (i % 8)
def BUS_C_TPLIM.RATE (i : Nat) : Fld := ⟨BUS_C_TPLIM i, 24, 8⟩
def BUS_C_TPLIM.CTSMAX (i : Nat) : Fld := ⟨BUS_C_TPLIM i, 16, 8⟩
def BUS_C_TPLIM.BAM_GAP (i : Nat) : Fld := ⟨BUS_C_TPLIM i, 8, 8⟩
def BUS_C_TPLIM.SRCMAX (i : Nat) : Fld := ⟨BUS_C_TPLIM i, 0, 6⟩
/-- BUS_C_TPCNT: 20_field_buses.md. -/
def BUS_C_TPCNT (i : Nat) : Nat := 0xCE001028 + 0x100 * (i % 8)
def BUS_C_TPCNT.RATE_DROP (i : Nat) : Fld := ⟨BUS_C_TPCNT i, 16, 16⟩
def BUS_C_TPCNT.SRC_LIM (i : Nat) : Fld := ⟨BUS_C_TPCNT i, 8, 8⟩
def BUS_C_TPCNT.STRAY (i : Nat) : Fld := ⟨BUS_C_TPCNT i, 0, 8⟩
/-- BUS_C_TPCNT2: 20_field_buses.md. -/
def BUS_C_TPCNT2 (i : Nat) : Nat := 0xCE00102C + 0x100 * (i % 8)
def BUS_C_TPCNT2.ABORT_TX (i : Nat) : Fld := ⟨BUS_C_TPCNT2 i, 0, 16⟩
/-- BUS_C_CAP: 20_field_buses.md. -/
def BUS_C_CAP (i : Nat) : Nat := 0xCE001030 + 0x100 * (i % 8)
def BUS_C_CAP.TERM_FIT (i : Nat) : Fld := ⟨BUS_C_CAP i, 2, 1⟩
def BUS_C_CAP.TP (i : Nat) : Fld := ⟨BUS_C_CAP i, 1, 1⟩
def BUS_C_CAP.INSVC (i : Nat) : Fld := ⟨BUS_C_CAP i, 0, 1⟩
/-- BUS_OBJ_STAT: 20_field_buses.md. -/
def BUS_OBJ_STAT (i : Nat) : Nat := 0xCE100000 + 0x80 * (i % 2048)
def BUS_OBJ_STAT.LIVE (i : Nat) : Fld := ⟨BUS_OBJ_STAT i, 31, 1⟩
def BUS_OBJ_STAT.DIR (i : Nat) : Fld := ⟨BUS_OBJ_STAT i, 30, 1⟩
def BUS_OBJ_STAT.CTRL (i : Nat) : Fld := ⟨BUS_OBJ_STAT i, 24, 3⟩
def BUS_OBJ_STAT.PEND (i : Nat) : Fld := ⟨BUS_OBJ_STAT i, 4, 1⟩
def BUS_OBJ_STAT.FAILED (i : Nat) : Fld := ⟨BUS_OBJ_STAT i, 3, 1⟩
def BUS_OBJ_STAT.DONE (i : Nat) : Fld := ⟨BUS_OBJ_STAT i, 2, 1⟩
def BUS_OBJ_STAT.LOST (i : Nat) : Fld := ⟨BUS_OBJ_STAT i, 1, 1⟩
def BUS_OBJ_STAT.NEW (i : Nat) : Fld := ⟨BUS_OBJ_STAT i, 0, 1⟩
/-- BUS_OBJ_CTRL: 20_field_buses.md. -/
def BUS_OBJ_CTRL (i : Nat) : Nat := 0xCE100004 + 0x80 * (i % 2048)
def BUS_OBJ_CTRL.ABORT (i : Nat) : Fld := ⟨BUS_OBJ_CTRL i, 1, 1⟩
def BUS_OBJ_CTRL.SEND (i : Nat) : Fld := ⟨BUS_OBJ_CTRL i, 0, 1⟩
/-- ETH_CTRL: 21_ethernet_fleet.md. -/
def ETH_CTRL : Nat := 0xCF000000
def ETH_CTRL.ENABLE : Fld := ⟨ETH_CTRL, 0, 1⟩
/-- ETH_MAC_LO: 21_ethernet_fleet.md. -/
def ETH_MAC_LO : Nat := 0xCF000004
def ETH_MAC_LO.MAC : Fld := ⟨ETH_MAC_LO, 0, 32⟩
/-- ETH_MAC_HI: 21_ethernet_fleet.md. -/
def ETH_MAC_HI : Nat := 0xCF000008
def ETH_MAC_HI.MAC : Fld := ⟨ETH_MAC_HI, 0, 16⟩
/-- ETH_IP: 21_ethernet_fleet.md. -/
def ETH_IP : Nat := 0xCF00000C
def ETH_IP.ADDR : Fld := ⟨ETH_IP, 0, 32⟩
/-- ETH_SW_CFG: 21_ethernet_fleet.md. -/
def ETH_SW_CFG : Nat := 0xCF000010
def ETH_SW_CFG.AGE_S : Fld := ⟨ETH_SW_CFG, 0, 16⟩
/-- ETH_SW_CNT: 21_ethernet_fleet.md. -/
def ETH_SW_CNT : Nat := 0xCF000014
def ETH_SW_CNT.VDROP : Fld := ⟨ETH_SW_CNT, 16, 16⟩
def ETH_SW_CNT.LFULL : Fld := ⟨ETH_SW_CNT, 0, 16⟩
/-- ETH_PORT_CFG: 21_ethernet_fleet.md. -/
def ETH_PORT_CFG (i : Nat) : Nat := 0xCF000040 + 0x10 * (i % 4)
def ETH_PORT_CFG.EN (i : Nat) : Fld := ⟨ETH_PORT_CFG i, 31, 1⟩
def ETH_PORT_CFG.INSVC (i : Nat) : Fld := ⟨ETH_PORT_CFG i, 30, 1⟩
def ETH_PORT_CFG.MASTER (i : Nat) : Fld := ⟨ETH_PORT_CFG i, 29, 1⟩
def ETH_PORT_CFG.PVID (i : Nat) : Fld := ⟨ETH_PORT_CFG i, 0, 12⟩
/-- ETH_POL: 21_ethernet_fleet.md. -/
def ETH_POL (i : Nat) : Nat := 0xCF000044 + 0x10 * (i % 4)
def ETH_POL.RATE (i : Nat) : Fld := ⟨ETH_POL i, 16, 16⟩
def ETH_POL.BURST (i : Nat) : Fld := ⟨ETH_POL i, 0, 16⟩
/-- ETH_PORT_STAT: 21_ethernet_fleet.md. -/
def ETH_PORT_STAT (i : Nat) : Nat := 0xCF000048 + 0x10 * (i % 4)
def ETH_PORT_STAT.LINK (i : Nat) : Fld := ⟨ETH_PORT_STAT i, 31, 1⟩
def ETH_PORT_STAT.ERR (i : Nat) : Fld := ⟨ETH_PORT_STAT i, 16, 8⟩
def ETH_PORT_STAT.QDROP (i : Nat) : Fld := ⟨ETH_PORT_STAT i, 8, 8⟩
def ETH_PORT_STAT.POL (i : Nat) : Fld := ⟨ETH_PORT_STAT i, 0, 8⟩
/-- ETH_VLAN: 21_ethernet_fleet.md. -/
def ETH_VLAN (i : Nat) : Nat := 0xCF000080 + 0x4 * (i % 16)
def ETH_VLAN.VALID (i : Nat) : Fld := ⟨ETH_VLAN i, 31, 1⟩
def ETH_VLAN.UNTAG (i : Nat) : Fld := ⟨ETH_VLAN i, 24, 5⟩
def ETH_VLAN.MEMBER (i : Nat) : Fld := ⟨ETH_VLAN i, 16, 5⟩
def ETH_VLAN.VID (i : Nat) : Fld := ⟨ETH_VLAN i, 0, 12⟩
/-- ETH_GPTP_CFG: 21_ethernet_fleet.md. -/
def ETH_GPTP_CFG : Nat := 0xCF0000C0
def ETH_GPTP_CFG.GPTP_EN : Fld := ⟨ETH_GPTP_CFG, 31, 1⟩
def ETH_GPTP_CFG.GPTP_PORT : Fld := ⟨ETH_GPTP_CFG, 24, 2⟩
def ETH_GPTP_CFG.PD_MAX : Fld := ⟨ETH_GPTP_CFG, 0, 16⟩
/-- ETH_GPTP_STAT: 21_ethernet_fleet.md. -/
def ETH_GPTP_STAT : Nat := 0xCF0000C4
def ETH_GPTP_STAT.AS_CAP : Fld := ⟨ETH_GPTP_STAT, 31, 1⟩
def ETH_GPTP_STAT.PDELAY : Fld := ⟨ETH_GPTP_STAT, 0, 16⟩
/-- ETH_FLOW_CFG: 21_ethernet_fleet.md. -/
def ETH_FLOW_CFG (i : Nat) : Nat := 0xCF000200 + 0x20 * (i % 8)
def ETH_FLOW_CFG.EN (i : Nat) : Fld := ⟨ETH_FLOW_CFG i, 31, 1⟩
def ETH_FLOW_CFG.VID (i : Nat) : Fld := ⟨ETH_FLOW_CFG i, 16, 12⟩
def ETH_FLOW_CFG.UDP (i : Nat) : Fld := ⟨ETH_FLOW_CFG i, 0, 16⟩
/-- ETH_FLOW_BASE_LO: 21_ethernet_fleet.md. -/
def ETH_FLOW_BASE_LO (i : Nat) : Nat := 0xCF000204 + 0x20 * (i % 8)
def ETH_FLOW_BASE_LO.ADDR (i : Nat) : Fld := ⟨ETH_FLOW_BASE_LO i, 12, 20⟩
/-- ETH_FLOW_BASE_HI: 21_ethernet_fleet.md. -/
def ETH_FLOW_BASE_HI (i : Nat) : Nat := 0xCF000208 + 0x20 * (i % 8)
def ETH_FLOW_BASE_HI.ADDR (i : Nat) : Fld := ⟨ETH_FLOW_BASE_HI i, 0, 32⟩
/-- ETH_FLOW_BUF: 21_ethernet_fleet.md. -/
def ETH_FLOW_BUF (i : Nat) : Nat := 0xCF00020C + 0x20 * (i % 8)
def ETH_FLOW_BUF.BUF_KB (i : Nat) : Fld := ⟨ETH_FLOW_BUF i, 0, 15⟩
/-- ETH_FLOW_CNT: 21_ethernet_fleet.md. -/
def ETH_FLOW_CNT (i : Nat) : Nat := 0xCF000210 + 0x20 * (i % 8)
def ETH_FLOW_CNT.INCOMP (i : Nat) : Fld := ⟨ETH_FLOW_CNT i, 16, 16⟩
def ETH_FLOW_CNT.BUSY (i : Nat) : Fld := ⟨ETH_FLOW_CNT i, 8, 8⟩
def ETH_FLOW_CNT.BAD (i : Nat) : Fld := ⟨ETH_FLOW_CNT i, 0, 8⟩
/-- ETH_FLT_CFG: 21_ethernet_fleet.md. -/
def ETH_FLT_CFG : Nat := 0xCF000300
def ETH_FLT_CFG.NODE : Fld := ⟨ETH_FLT_CFG, 0, 32⟩
/-- ETH_FLT_PORT: 21_ethernet_fleet.md. -/
def ETH_FLT_PORT : Nat := 0xCF000304
def ETH_FLT_PORT.FLT_PORT : Fld := ⟨ETH_FLT_PORT, 0, 16⟩
/-- ETH_FLT_RX_BASE_LO: 21_ethernet_fleet.md. -/
def ETH_FLT_RX_BASE_LO : Nat := 0xCF000308
def ETH_FLT_RX_BASE_LO.ADDR : Fld := ⟨ETH_FLT_RX_BASE_LO, 12, 20⟩
/-- ETH_FLT_RX_BASE_HI: 21_ethernet_fleet.md. -/
def ETH_FLT_RX_BASE_HI : Nat := 0xCF00030C
def ETH_FLT_RX_BASE_HI.ADDR : Fld := ⟨ETH_FLT_RX_BASE_HI, 0, 32⟩
/-- ETH_FLT_RX_CFG: 21_ethernet_fleet.md. -/
def ETH_FLT_RX_CFG : Nat := 0xCF000310
def ETH_FLT_RX_CFG.RLEN : Fld := ⟨ETH_FLT_RX_CFG, 0, 4⟩
/-- ETH_FLT_RX_PI: 21_ethernet_fleet.md. -/
def ETH_FLT_RX_PI : Nat := 0xCF000314
def ETH_FLT_RX_PI.PI : Fld := ⟨ETH_FLT_RX_PI, 0, 11⟩
/-- ETH_FLT_RX_CI: 21_ethernet_fleet.md. -/
def ETH_FLT_RX_CI : Nat := 0xCF000318
def ETH_FLT_RX_CI.CI : Fld := ⟨ETH_FLT_RX_CI, 0, 11⟩
/-- ETH_FLT_CNT: 21_ethernet_fleet.md. -/
def ETH_FLT_CNT : Nat := 0xCF00031C
def ETH_FLT_CNT.FMT : Fld := ⟨ETH_FLT_CNT, 24, 8⟩
def ETH_FLT_CNT.NOPEER : Fld := ⟨ETH_FLT_CNT, 16, 8⟩
def ETH_FLT_CNT.REPLAY : Fld := ⟨ETH_FLT_CNT, 8, 8⟩
def ETH_FLT_CNT.AUTH : Fld := ⟨ETH_FLT_CNT, 0, 8⟩
/-- ETH_FLT_CNT2: 21_ethernet_fleet.md. -/
def ETH_FLT_CNT2 : Nat := 0xCF000320
def ETH_FLT_CNT2.RXDROP : Fld := ⟨ETH_FLT_CNT2, 0, 16⟩
/-- ETH_HRX_BASE_LO: 21_ethernet_fleet.md. -/
def ETH_HRX_BASE_LO : Nat := 0xCF000340
def ETH_HRX_BASE_LO.ADDR : Fld := ⟨ETH_HRX_BASE_LO, 12, 20⟩
/-- ETH_HRX_BASE_HI: 21_ethernet_fleet.md. -/
def ETH_HRX_BASE_HI : Nat := 0xCF000344
def ETH_HRX_BASE_HI.ADDR : Fld := ⟨ETH_HRX_BASE_HI, 0, 32⟩
/-- ETH_HRX_CFG: 21_ethernet_fleet.md. -/
def ETH_HRX_CFG : Nat := 0xCF000348
def ETH_HRX_CFG.HLEN : Fld := ⟨ETH_HRX_CFG, 0, 4⟩
/-- ETH_HRX_PI: 21_ethernet_fleet.md. -/
def ETH_HRX_PI : Nat := 0xCF00034C
def ETH_HRX_PI.PI : Fld := ⟨ETH_HRX_PI, 0, 11⟩
/-- ETH_HRX_CI: 21_ethernet_fleet.md. -/
def ETH_HRX_CI : Nat := 0xCF000350
def ETH_HRX_CI.CI : Fld := ⟨ETH_HRX_CI, 0, 11⟩
/-- ETH_HRX_DROP: 21_ethernet_fleet.md. -/
def ETH_HRX_DROP : Nat := 0xCF000354
def ETH_HRX_DROP.DROP : Fld := ⟨ETH_HRX_DROP, 0, 16⟩
/-- ETH_DWIN_LO: 21_ethernet_fleet.md. -/
def ETH_DWIN_LO (i : Nat) : Nat := 0xCF000380 + 0x10 * (i % 4)
def ETH_DWIN_LO.BASE (i : Nat) : Fld := ⟨ETH_DWIN_LO i, 12, 20⟩
/-- ETH_DWIN_HI: 21_ethernet_fleet.md. -/
def ETH_DWIN_HI (i : Nat) : Nat := 0xCF000384 + 0x10 * (i % 4)
def ETH_DWIN_HI.BASE (i : Nat) : Fld := ⟨ETH_DWIN_HI i, 0, 32⟩
/-- ETH_DWIN_SIZE: 21_ethernet_fleet.md. -/
def ETH_DWIN_SIZE (i : Nat) : Nat := 0xCF000388 + 0x10 * (i % 4)
def ETH_DWIN_SIZE.MIB (i : Nat) : Fld := ⟨ETH_DWIN_SIZE i, 0, 16⟩
/-- ETH_KEY_STAT: 21_ethernet_fleet.md. -/
def ETH_KEY_STAT (i : Nat) : Nat := 0xCF000400 + 0x4 * (i % 64)
def ETH_KEY_STAT.FULL (i : Nat) : Fld := ⟨ETH_KEY_STAT i, 31, 1⟩
def ETH_KEY_STAT.SPENT (i : Nat) : Fld := ⟨ETH_KEY_STAT i, 30, 1⟩
/-- PAIR_CTRL: 22_pair_link.md. -/
def PAIR_CTRL : Nat := 0xD0000000
def PAIR_CTRL.ENABLE : Fld := ⟨PAIR_CTRL, 0, 1⟩
/-- PAIR_CFG: 22_pair_link.md. -/
def PAIR_CFG : Nat := 0xD0000004
def PAIR_CFG.ROLE : Fld := ⟨PAIR_CFG, 31, 1⟩
def PAIR_CFG.RLS_DLY : Fld := ⟨PAIR_CFG, 16, 10⟩
def PAIR_CFG.LANE_EN : Fld := ⟨PAIR_CFG, 0, 2⟩
/-- PAIR_STAT: 22_pair_link.md. -/
def PAIR_STAT : Nat := 0xD0000008
def PAIR_STAT.STATE : Fld := ⟨PAIR_STAT, 30, 2⟩
def PAIR_STAT.WHY : Fld := ⟨PAIR_STAT, 28, 2⟩
def PAIR_STAT.UNTRUST : Fld := ⟨PAIR_STAT, 27, 1⟩
def PAIR_STAT.LANE_UP : Fld := ⟨PAIR_STAT, 24, 2⟩
def PAIR_STAT.CYC : Fld := ⟨PAIR_STAT, 0, 16⟩
/-- PAIR_OFS: 22_pair_link.md. -/
def PAIR_OFS : Nat := 0xD000000C
def PAIR_OFS.OFS : Fld := ⟨PAIR_OFS, 0, 32⟩
/-- PAIR_DLY: 22_pair_link.md. -/
def PAIR_DLY : Nat := 0xD0000010
def PAIR_DLY.DLY : Fld := ⟨PAIR_DLY, 0, 32⟩
/-- PAIR_CNT: 22_pair_link.md. -/
def PAIR_CNT : Nat := 0xD0000014
def PAIR_CNT.SIG_LATE : Fld := ⟨PAIR_CNT, 16, 16⟩
def PAIR_CNT.CV_DROP : Fld := ⟨PAIR_CNT, 0, 16⟩
/-- PAIR_LANE: 22_pair_link.md. -/
def PAIR_LANE (i : Nat) : Nat := 0xD0000020 + 0x4 * (i % 2)
def PAIR_LANE.CRC (i : Nat) : Fld := ⟨PAIR_LANE i, 0, 16⟩
/-- PAIR_CVI_BASE_LO: 22_pair_link.md. -/
def PAIR_CVI_BASE_LO : Nat := 0xD0000040
def PAIR_CVI_BASE_LO.ADDR : Fld := ⟨PAIR_CVI_BASE_LO, 12, 20⟩
/-- PAIR_CVI_BASE_HI: 22_pair_link.md. -/
def PAIR_CVI_BASE_HI : Nat := 0xD0000044
def PAIR_CVI_BASE_HI.ADDR : Fld := ⟨PAIR_CVI_BASE_HI, 0, 32⟩
/-- PAIR_CVI_BUF: 22_pair_link.md. -/
def PAIR_CVI_BUF : Nat := 0xD0000048
def PAIR_CVI_BUF.BUF_KB : Fld := ⟨PAIR_CVI_BUF, 0, 15⟩
/-- PAIR_DWIN_LO: 22_pair_link.md. -/
def PAIR_DWIN_LO (i : Nat) : Nat := 0xD0000060 + 0x10 * (i % 2)
def PAIR_DWIN_LO.BASE (i : Nat) : Fld := ⟨PAIR_DWIN_LO i, 12, 20⟩
/-- PAIR_DWIN_HI: 22_pair_link.md. -/
def PAIR_DWIN_HI (i : Nat) : Nat := 0xD0000064 + 0x10 * (i % 2)
def PAIR_DWIN_HI.BASE (i : Nat) : Fld := ⟨PAIR_DWIN_HI i, 0, 32⟩
/-- PAIR_DWIN_SIZE: 22_pair_link.md. -/
def PAIR_DWIN_SIZE (i : Nat) : Nat := 0xD0000068 + 0x10 * (i % 2)
def PAIR_DWIN_SIZE.MIB (i : Nat) : Fld := ⟨PAIR_DWIN_SIZE i, 0, 16⟩
/-- PAIR_SIGO: 22_pair_link.md. -/
def PAIR_SIGO (i : Nat) : Nat := 0xD0000400 + 0x4 * (i % 64)
def PAIR_SIGO.EN (i : Nat) : Fld := ⟨PAIR_SIGO i, 31, 1⟩
def PAIR_SIGO.SLOT (i : Nat) : Fld := ⟨PAIR_SIGO i, 0, 7⟩
/-- PNL_CTRL: 23_panel_driver.md. -/
def PNL_CTRL : Nat := 0xD1000000
def PNL_CTRL.ENABLE : Fld := ⟨PNL_CTRL, 0, 1⟩
/-- PNL_STAT: 23_panel_driver.md. -/
def PNL_STAT : Nat := 0xD1000004
def PNL_STAT.STATE : Fld := ⟨PNL_STAT, 29, 3⟩
def PNL_STAT.PDET : Fld := ⟨PNL_STAT, 28, 1⟩
def PNL_STAT.TEMP_FAULT : Fld := ⟨PNL_STAT, 27, 1⟩
def PNL_STAT.FL_CAP : Fld := ⟨PNL_STAT, 26, 1⟩
def PNL_STAT.FL_SHORT : Fld := ⟨PNL_STAT, 25, 1⟩
def PNL_STAT.FL_OPEN : Fld := ⟨PNL_STAT, 24, 1⟩
def PNL_STAT.RAIL_F : Fld := ⟨PNL_STAT, 16, 5⟩
def PNL_STAT.BAND : Fld := ⟨PNL_STAT, 0, 3⟩
/-- PNL_GEOM: 23_panel_driver.md. -/
def PNL_GEOM : Nat := 0xD1000008
def PNL_GEOM.CMODE : Fld := ⟨PNL_GEOM, 31, 1⟩
def PNL_GEOM.FLIP_Y : Fld := ⟨PNL_GEOM, 30, 1⟩
def PNL_GEOM.W : Fld := ⟨PNL_GEOM, 16, 11⟩
def PNL_GEOM.H : Fld := ⟨PNL_GEOM, 0, 11⟩
/-- PNL_TIM: 23_panel_driver.md. -/
def PNL_TIM : Nat := 0xD100000C
def PNL_TIM.FRATE : Fld := ⟨PNL_TIM, 24, 8⟩
def PNL_TIM.CDIV : Fld := ⟨PNL_TIM, 16, 4⟩
def PNL_TIM.HBLANK : Fld := ⟨PNL_TIM, 8, 8⟩
def PNL_TIM.VBLANK : Fld := ⟨PNL_TIM, 0, 8⟩
/-- PNL_RAIL: 23_panel_driver.md. -/
def PNL_RAIL : Nat := 0xD1000010
def PNL_RAIL.VGH : Fld := ⟨PNL_RAIL, 16, 8⟩
def PNL_RAIL.VGL : Fld := ⟨PNL_RAIL, 0, 8⟩
/-- PNL_VCOM: 23_panel_driver.md. -/
def PNL_VCOM : Nat := 0xD1000014
def PNL_VCOM.MV : Fld := ⟨PNL_VCOM, 0, 12⟩
/-- PNL_FL: 23_panel_driver.md. -/
def PNL_FL : Nat := 0xD1000018
def PNL_FL.FL_EN : Fld := ⟨PNL_FL, 31, 1⟩
def PNL_FL.MA : Fld := ⟨PNL_FL, 0, 9⟩
/-- PNL_TEMP: 23_panel_driver.md. -/
def PNL_TEMP : Nat := 0xD100001C
def PNL_TEMP.FIX_EN : Fld := ⟨PNL_TEMP, 31, 1⟩
def PNL_TEMP.FIX : Fld := ⟨PNL_TEMP, 16, 12⟩
def PNL_TEMP.T : Fld := ⟨PNL_TEMP, 0, 12⟩
/-- PNL_SEQ: 23_panel_driver.md. -/
def PNL_SEQ : Nat := 0xD1000020
def PNL_SEQ.SETTLE_FR : Fld := ⟨PNL_SEQ, 8, 8⟩
def PNL_SEQ.DIS_FR : Fld := ⟨PNL_SEQ, 0, 8⟩
/-- PNL_CNT: 23_panel_driver.md. -/
def PNL_CNT : Nat := 0xD1000024
def PNL_CNT.LSAT : Fld := ⟨PNL_CNT, 16, 16⟩
def PNL_CNT.REFR : Fld := ⟨PNL_CNT, 0, 16⟩
/-- PNL_WF_LO: 23_panel_driver.md. -/
def PNL_WF_LO (i : Nat) : Nat := 0xD1000040 + 0x8 * (i % 8)
def PNL_WF_LO.ADDR_LO (i : Nat) : Fld := ⟨PNL_WF_LO i, 6, 26⟩
/-- PNL_WF_HI: 23_panel_driver.md. -/
def PNL_WF_HI (i : Nat) : Nat := 0xD1000044 + 0x8 * (i % 8)
def PNL_WF_HI.ADDR_HI (i : Nat) : Fld := ⟨PNL_WF_HI i, 0, 32⟩
/-- PNL_DWIN_LO: 23_panel_driver.md. -/
def PNL_DWIN_LO (i : Nat) : Nat := 0xD1000080 + 0x10 * (i % 2)
def PNL_DWIN_LO.BASE (i : Nat) : Fld := ⟨PNL_DWIN_LO i, 12, 20⟩
/-- PNL_DWIN_HI: 23_panel_driver.md. -/
def PNL_DWIN_HI (i : Nat) : Nat := 0xD1000084 + 0x10 * (i % 2)
def PNL_DWIN_HI.BASE (i : Nat) : Fld := ⟨PNL_DWIN_HI i, 0, 32⟩
/-- PNL_DWIN_SIZE: 23_panel_driver.md. -/
def PNL_DWIN_SIZE (i : Nat) : Nat := 0xD1000088 + 0x10 * (i % 2)
def PNL_DWIN_SIZE.MIB (i : Nat) : Fld := ⟨PNL_DWIN_SIZE i, 0, 16⟩
/-- REC_CTRL: 24_event_recorder.md. -/
def REC_CTRL : Nat := 0xD2000000
def REC_CTRL.ENABLE : Fld := ⟨REC_CTRL, 0, 1⟩
/-- REC_STATUS: 24_event_recorder.md. -/
def REC_STATUS : Nat := 0xD2000004
def REC_STATUS.READY : Fld := ⟨REC_STATUS, 31, 1⟩
def REC_STATUS.EXP : Fld := ⟨REC_STATUS, 30, 1⟩
def REC_STATUS.STREAMS : Fld := ⟨REC_STATUS, 0, 9⟩
/-- REC_FREE: 24_event_recorder.md. -/
def REC_FREE : Nat := 0xD2000008
def REC_FREE.FREE : Fld := ⟨REC_FREE, 0, 14⟩
/-- REC_RNUM_LO: 24_event_recorder.md. -/
def REC_RNUM_LO : Nat := 0xD200000C
def REC_RNUM_LO.RNUM : Fld := ⟨REC_RNUM_LO, 0, 32⟩
/-- REC_RNUM_HI: 24_event_recorder.md. -/
def REC_RNUM_HI : Nat := 0xD2000010
def REC_RNUM_HI.RNUM : Fld := ⟨REC_RNUM_HI, 0, 32⟩
/-- REC_CNT: 24_event_recorder.md. -/
def REC_CNT : Nat := 0xD2000014
def REC_CNT.LATE : Fld := ⟨REC_CNT, 16, 16⟩
def REC_CNT.OVW : Fld := ⟨REC_CNT, 0, 16⟩
/-- REC_DROP: 24_event_recorder.md. -/
def REC_DROP : Nat := 0xD2000018
def REC_DROP.DROPS : Fld := ⟨REC_DROP, 0, 32⟩
/-- REC_TORN: 24_event_recorder.md. -/
def REC_TORN : Nat := 0xD200001C
def REC_TORN.TORN : Fld := ⟨REC_TORN, 0, 14⟩
/-- REC_EXP_CNT: 24_event_recorder.md. -/
def REC_EXP_CNT : Nat := 0xD2000020
def REC_EXP_CNT.COUNT : Fld := ⟨REC_EXP_CNT, 0, 32⟩
/-- REC_EXP_LAST_LO: 24_event_recorder.md. -/
def REC_EXP_LAST_LO : Nat := 0xD2000024
def REC_EXP_LAST_LO.LAST : Fld := ⟨REC_EXP_LAST_LO, 0, 32⟩
/-- REC_EXP_LAST_HI: 24_event_recorder.md. -/
def REC_EXP_LAST_HI : Nat := 0xD2000028
def REC_EXP_LAST_HI.LAST : Fld := ⟨REC_EXP_LAST_HI, 0, 32⟩
/-- REC_EXP_RES: 24_event_recorder.md. -/
def REC_EXP_RES : Nat := 0xD200002C
def REC_EXP_RES.RESTARTS : Fld := ⟨REC_EXP_RES, 16, 16⟩
def REC_EXP_RES.REASON : Fld := ⟨REC_EXP_RES, 0, 16⟩
/-- REC_DWIN_LO: 24_event_recorder.md. -/
def REC_DWIN_LO : Nat := 0xD2000040
def REC_DWIN_LO.BASE : Fld := ⟨REC_DWIN_LO, 12, 20⟩
/-- REC_DWIN_HI: 24_event_recorder.md. -/
def REC_DWIN_HI : Nat := 0xD2000044
def REC_DWIN_HI.BASE : Fld := ⟨REC_DWIN_HI, 0, 32⟩
/-- REC_DWIN_SIZE: 24_event_recorder.md. -/
def REC_DWIN_SIZE : Nat := 0xD2000048
def REC_DWIN_SIZE.MIB : Fld := ⟨REC_DWIN_SIZE, 0, 16⟩
/-- REC_S_STAT: 24_event_recorder.md. -/
def REC_S_STAT (i : Nat) : Nat := 0xD2100000 + 0x10 * (i % 256)
def REC_S_STAT.LIVE (i : Nat) : Fld := ⟨REC_S_STAT i, 31, 1⟩
def REC_S_STAT.KIND (i : Nat) : Fld := ⟨REC_S_STAT i, 28, 2⟩
def REC_S_STAT.SEV (i : Nat) : Fld := ⟨REC_S_STAT i, 24, 2⟩
def REC_S_STAT.LATE (i : Nat) : Fld := ⟨REC_S_STAT i, 0, 16⟩
/-- REC_S_SID: 24_event_recorder.md. -/
def REC_S_SID (i : Nat) : Nat := 0xD2100004 + 0x10 * (i % 256)
def REC_S_SID.SID (i : Nat) : Fld := ⟨REC_S_SID i, 0, 32⟩
/-- REC_S_NVAL: 24_event_recorder.md. -/
def REC_S_NVAL (i : Nat) : Nat := 0xD2100008 + 0x10 * (i % 256)
def REC_S_NVAL.NVAL (i : Nat) : Fld := ⟨REC_S_NVAL i, 0, 32⟩
/-- REC_SLOT: 24_event_recorder.md. -/
def REC_SLOT (i j : Nat) : Nat := 0xD2800000 + 0x100 * (i % 8192) + 0x4 * (j % 64)
def REC_SLOT.DATA (i j : Nat) : Fld := ⟨REC_SLOT i j, 0, 32⟩
/-- UPD_CTRL: 25_update_lifecycle.md. -/
def UPD_CTRL : Nat := 0xD3000000
def UPD_CTRL.ENABLE : Fld := ⟨UPD_CTRL, 0, 1⟩
/-- UPD_STAT: 25_update_lifecycle.md. -/
def UPD_STAT : Nat := 0xD3000004
def UPD_STAT.STAGING : Fld := ⟨UPD_STAT, 31, 1⟩
def UPD_STAT.FELLBACK : Fld := ⟨UPD_STAT, 30, 1⟩
def UPD_STAT.SET_RESET : Fld := ⟨UPD_STAT, 29, 1⟩
def UPD_STAT.ACTIVE : Fld := ⟨UPD_STAT, 28, 1⟩
def UPD_STAT.INACT : Fld := ⟨UPD_STAT, 26, 2⟩
def UPD_STAT.TRIAL : Fld := ⟨UPD_STAT, 25, 1⟩
def UPD_STAT.BOOTS : Fld := ⟨UPD_STAT, 20, 4⟩
def UPD_STAT.CONFIRM_N : Fld := ⟨UPD_STAT, 16, 4⟩
def UPD_STAT.REASON : Fld := ⟨UPD_STAT, 0, 16⟩
/-- UPD_PEND: 25_update_lifecycle.md. -/
def UPD_PEND : Nat := 0xD3000008
def UPD_PEND.PEND : Fld := ⟨UPD_PEND, 0, 10⟩
/-- UPD_LC: 25_update_lifecycle.md. -/
def UPD_LC : Nat := 0xD300000C
def UPD_LC.LC_PEND : Fld := ⟨UPD_LC, 7, 1⟩
def UPD_LC.TARGET : Fld := ⟨UPD_LC, 4, 3⟩
def UPD_LC.STATE : Fld := ⟨UPD_LC, 0, 3⟩
/-- UPD_SVN: 25_update_lifecycle.md. -/
def UPD_SVN : Nat := 0xD3000010
def UPD_SVN.MIN_SVN : Fld := ⟨UPD_SVN, 0, 32⟩
/-- UPD_PROG: 25_update_lifecycle.md. -/
def UPD_PROG : Nat := 0xD3000014
def UPD_PROG.ENTRY : Fld := ⟨UPD_PROG, 26, 6⟩
def UPD_PROG.KIB : Fld := ⟨UPD_PROG, 0, 26⟩
/-- UPD_DEVID_LO: 25_update_lifecycle.md. -/
def UPD_DEVID_LO : Nat := 0xD3000018
def UPD_DEVID_LO.DEVID : Fld := ⟨UPD_DEVID_LO, 0, 32⟩
/-- UPD_DEVID_HI: 25_update_lifecycle.md. -/
def UPD_DEVID_HI : Nat := 0xD300001C
def UPD_DEVID_HI.DEVID : Fld := ⟨UPD_DEVID_HI, 0, 32⟩
/-- UPD_NONCE: 25_update_lifecycle.md. -/
def UPD_NONCE (i : Nat) : Nat := 0xD3000020 + 0x4 * (i % 4)
def UPD_NONCE.NONCE (i : Nat) : Fld := ⟨UPD_NONCE i, 0, 32⟩
/-- UPD_KEY: 25_update_lifecycle.md. -/
def UPD_KEY (i : Nat) : Nat := 0xD3000030 + 0x4 * (i % 4)
def UPD_KEY.FULL (i : Nat) : Fld := ⟨UPD_KEY i, 0, 1⟩
/-- UPD_DEVINFO: 25_update_lifecycle.md. -/
def UPD_DEVINFO : Nat := 0xD3000040
def UPD_DEVINFO.BOARD : Fld := ⟨UPD_DEVINFO, 0, 8⟩
/-- UPD_SLOT_LBA_LO: 25_update_lifecycle.md. -/
def UPD_SLOT_LBA_LO (i : Nat) : Nat := 0xD3000050 + 0x8 * (i % 2)
def UPD_SLOT_LBA_LO.LBA (i : Nat) : Fld := ⟨UPD_SLOT_LBA_LO i, 0, 32⟩
/-- UPD_SLOT_LBA_HI: 25_update_lifecycle.md. -/
def UPD_SLOT_LBA_HI (i : Nat) : Nat := 0xD3000054 + 0x8 * (i % 2)
def UPD_SLOT_LBA_HI.LBA (i : Nat) : Fld := ⟨UPD_SLOT_LBA_HI i, 0, 32⟩
/-- UPD_SLOT_BLKS: 25_update_lifecycle.md. -/
def UPD_SLOT_BLKS : Nat := 0xD3000060
def UPD_SLOT_BLKS.BLKS : Fld := ⟨UPD_SLOT_BLKS, 0, 32⟩
/-- UPD_DWIN_LO: 25_update_lifecycle.md. -/
def UPD_DWIN_LO : Nat := 0xD3000080
def UPD_DWIN_LO.BASE : Fld := ⟨UPD_DWIN_LO, 12, 20⟩
/-- UPD_DWIN_HI: 25_update_lifecycle.md. -/
def UPD_DWIN_HI : Nat := 0xD3000084
def UPD_DWIN_HI.BASE : Fld := ⟨UPD_DWIN_HI, 0, 32⟩
/-- UPD_DWIN_SIZE: 25_update_lifecycle.md. -/
def UPD_DWIN_SIZE : Nat := 0xD3000088
def UPD_DWIN_SIZE.MIB : Fld := ⟨UPD_DWIN_SIZE, 0, 16⟩
/-- UPD_USB: 25_update_lifecycle.md. -/
def UPD_USB : Nat := 0xD30000C0
def UPD_USB.EN : Fld := ⟨UPD_USB, 31, 1⟩
def UPD_USB.CONN : Fld := ⟨UPD_USB, 30, 1⟩
def UPD_USB.DONE : Fld := ⟨UPD_USB, 29, 1⟩
def UPD_USB.ERR : Fld := ⟨UPD_USB, 0, 16⟩
/-- UPD_USB_BASE_LO: 25_update_lifecycle.md. -/
def UPD_USB_BASE_LO : Nat := 0xD30000C4
def UPD_USB_BASE_LO.ADDR : Fld := ⟨UPD_USB_BASE_LO, 12, 20⟩
/-- UPD_USB_BASE_HI: 25_update_lifecycle.md. -/
def UPD_USB_BASE_HI : Nat := 0xD30000C8
def UPD_USB_BASE_HI.ADDR : Fld := ⟨UPD_USB_BASE_HI, 0, 32⟩
/-- UPD_USB_LEN: 25_update_lifecycle.md. -/
def UPD_USB_LEN : Nat := 0xD30000CC
def UPD_USB_LEN.LEN : Fld := ⟨UPD_USB_LEN, 0, 10⟩
/-- UPD_USB_RCV: 25_update_lifecycle.md. -/
def UPD_USB_RCV : Nat := 0xD30000D0
def UPD_USB_RCV.RCV : Fld := ⟨UPD_USB_RCV, 0, 32⟩
/-- UPD_SET: 25_update_lifecycle.md. -/
def UPD_SET (i : Nat) : Nat := 0xD3800000 + 0x4 * (i % 507904)
def UPD_SET.DATA (i : Nat) : Fld := ⟨UPD_SET i, 0, 32⟩
/-- TMS_PREL_SEQ: 06_time_base.md. -/
def TMS_PREL_SEQ : Nat := 0xC3000040
def TMS_PREL_SEQ.SEQ : Fld := ⟨TMS_PREL_SEQ, 0, 32⟩
/-- TMS_PREL_LTC_LO: 06_time_base.md. -/
def TMS_PREL_LTC_LO : Nat := 0xC3000044
def TMS_PREL_LTC_LO.LTC_REF : Fld := ⟨TMS_PREL_LTC_LO, 0, 32⟩
/-- TMS_PREL_LTC_HI: 06_time_base.md. -/
def TMS_PREL_LTC_HI : Nat := 0xC3000048
def TMS_PREL_LTC_HI.LTC_REF : Fld := ⟨TMS_PREL_LTC_HI, 0, 32⟩
/-- TMS_PREL_OFF_LO: 06_time_base.md. -/
def TMS_PREL_OFF_LO : Nat := 0xC300004C
def TMS_PREL_OFF_LO.OFFSET : Fld := ⟨TMS_PREL_OFF_LO, 0, 32⟩
/-- TMS_PREL_OFF_HI: 06_time_base.md. -/
def TMS_PREL_OFF_HI : Nat := 0xC3000050
def TMS_PREL_OFF_HI.OFFSET : Fld := ⟨TMS_PREL_OFF_HI, 0, 32⟩
/-- TMS_PREL_RATE: 06_time_base.md. -/
def TMS_PREL_RATE : Nat := 0xC3000054
def TMS_PREL_RATE.RATE : Fld := ⟨TMS_PREL_RATE, 0, 32⟩
/-- BUS_OBJ_REC: 20_field_buses.md. -/
def BUS_OBJ_REC (i j : Nat) : Nat := 0xCE100020 + 0x80 * (i % 2048) + 0x4 * (j % 22)
def BUS_OBJ_REC.DATA (i j : Nat) : Fld := ⟨BUS_OBJ_REC i j, 0, 32⟩

/-- The ring register group of R117 at offset `g` of the window at `b`: command base, completion base and the four index
registers. -/
def ringGroup (b g : Nat) : List RegDesc :=
  [⟨b + g + 0x00, 4, 1, 4, 1, 0, 0, 0, 0, 0, 0xFFFFC000, 0, 0⟩, ⟨b + g + 0x04, 4, 1, 4, 1, 0, 0, 0, 0, 0, 0xFFFFFFFF, 0, 0⟩,
   ⟨b + g + 0x08, 4, 1, 4, 1, 0, 0, 0, 0, 0, 0xFFFFF000, 0, 0⟩, ⟨b + g + 0x0C, 4, 1, 4, 1, 0, 0, 0, 0, 0, 0xFFFFFFFF, 0, 0⟩,
   ⟨b + g + 0x10, 4, 1, 4, 1, 0x1FF, 0, 0, 0, 0, 0, 0, 0⟩, ⟨b + g + 0x14, 4, 1, 4, 1, 0, 0x1FF, 0, 0, 0, 0, 0, 0⟩,
   ⟨b + g + 0x18, 4, 1, 4, 1, 0, 0x1FF, 0, 0, 0, 0, 0, 0⟩, ⟨b + g + 0x1C, 4, 1, 4, 1, 0x1FF, 0, 0, 0, 0, 0, 0, 0⟩]

/-- The registers of SYS. -/
def sysRegs : List RegDesc :=
  [⟨SYS_ID, 0x4, 1, 0x4, 1, 0x0, 0x1FFFF, 0x0, 0x0, 0x0, 0x0, 0x0, 0xC0⟩,
  ⟨SYS_DET_STATUS, 0x4, 1, 0x4, 1, 0x0, 0x0, 0x0, 0xFF, 0x0, 0x0, 0x0, 0x0⟩,
  ⟨SYS_DET_FIRST_LO, 0x4, 1, 0x4, 1, 0x0, 0xFFFFFFFF, 0x0, 0x0, 0x0, 0x0, 0x0, 0x0⟩,
  ⟨SYS_DET_FIRST_HI, 0x4, 1, 0x4, 1, 0x0, 0xFFFFFFFF, 0x0, 0x0, 0x0, 0x0, 0x0, 0x0⟩,
  ⟨SYS_SUPPLY, 0x4, 1, 0x4, 1, 0x0, 0x1F00FFFF, 0x0, 0xF0000, 0x0, 0x0, 0x0, 0x0⟩,
  ⟨SYS_TEMP, 0x4, 1, 0x4, 1, 0x0, 0x2FFF0FFF, 0x0, 0x10000000, 0x0, 0x0, 0x0, 0x0⟩,
  ⟨SYS_RST_CAUSE, 0x4, 1, 0x4, 1, 0x0, 0xF00, 0x0, 0x7F, 0x0, 0x0, 0x0, 0x0⟩,
  ⟨SYS_WDT_CFG, 0x4, 1, 0x4, 1, 0xFFFF, 0x0, 0x0, 0x0, 0x0, 0x0, 0x0, 0x7D0⟩,
  ⟨SYS_WDT_KICK, 0x4, 1, 0x4, 1, 0x0, 0x0, 0xFFFFFFFF, 0x0, 0x0, 0x0, 0x0, 0x0⟩,
  ⟨SYS_BLK_RST, 0x4, 1, 0x4, 1, 0x0, 0x80000000, 0xFF, 0x0, 0x0, 0x0, 0x0, 0x0⟩,
  ⟨SYS_PWR_REQ, 0x4, 1, 0x4, 1, 0x0, 0x0, 0xFFFF0003, 0x0, 0x0, 0x0, 0x0, 0x0⟩,
  ⟨SYS_PWR_STAT, 0x4, 1, 0x4, 1, 0x0, 0xFFFF0001, 0x0, 0x0, 0x0, 0x0, 0x0, 0x0⟩,
  ⟨SYS_RESUME_LO, 0x4, 1, 0x4, 1, 0xFFFFFFFC, 0x0, 0x0, 0x0, 0x0, 0x0, 0x0, 0x0⟩,
  ⟨SYS_RESUME_HI, 0x4, 1, 0x4, 1, 0xFFFFFFFF, 0x0, 0x0, 0x0, 0x0, 0x0, 0x0, 0x0⟩,
  ⟨SYS_DEBUG, 0x4, 1, 0x4, 1, 0x1, 0x0, 0x0, 0x0, 0x0, 0x0, 0x0, 0x0⟩]
/-- The registers of KA. -/
def kaRegs : List RegDesc :=
  [⟨KA_OPSEC, 0x4, 1, 0x4, 1, 0x0, 0xFFFFFFFF, 0x0, 0x0, 0x0, 0x0, 0x0, 0x0⟩,
  ⟨KA_PWRCYC, 0x4, 1, 0x4, 1, 0x0, 0xFFFFFFFF, 0x0, 0x0, 0x0, 0x0, 0x0, 0x0⟩,
  ⟨KA_FLAGS, 0x4, 1, 0x4, 1, 0x1, 0xF00, 0x0, 0x2, 0x0, 0x0, 0x0, 0x0⟩]
/-- The registers of STR. -/
def strRegs : List RegDesc :=
  [⟨STR_STATUS, 0x4, 1, 0x4, 1, 0x0, 0x83FF03FF, 0x0, 0x0, 0x0, 0x0, 0x0, 0x1FF0000⟩,
  ⟨STR_IFACE_LO, 0x4, 1, 0x4, 1, 0x0, 0xFFFFFFFF, 0x0, 0x0, 0x0, 0x0, 0x0, 0x0⟩,
  ⟨STR_IFACE_HI, 0x4, 1, 0x4, 1, 0x0, 0xFFFFFFFF, 0x0, 0x0, 0x0, 0x0, 0x0, 0x0⟩,
  ⟨STR_IDENT 0, 0x4, 4, 0x4, 1, 0x0, 0xFFFFFFFF, 0x0, 0x0, 0x0, 0x0, 0x0, 0x0⟩,
  ⟨STR_RLD_CTRL, 0x4, 1, 0x4, 1, 0x11F, 0x0, 0x80000000, 0x0, 0x0, 0x0, 0x0, 0x0⟩,
  ⟨STR_RLD_ADDR_LO, 0x4, 1, 0x4, 1, 0xFFFFF000, 0x0, 0x0, 0x0, 0x0, 0x0, 0x0, 0x0⟩,
  ⟨STR_RLD_ADDR_HI, 0x4, 1, 0x4, 1, 0xFFFFFFFF, 0x0, 0x0, 0x0, 0x0, 0x0, 0x0, 0x0⟩,
  ⟨STR_RLD_LEN, 0x4, 1, 0x4, 1, 0xFFFF, 0x0, 0x0, 0x0, 0x0, 0x0, 0x0, 0x0⟩,
  ⟨STR_RLD_STAT, 0x4, 1, 0x4, 1, 0x0, 0xFF00FFFF, 0x0, 0x0, 0x0, 0x0, 0x0, 0x0⟩,
  ⟨STR_RECONF_CNT, 0x4, 1, 0x4, 1, 0x0, 0x0, 0x0, 0x0, 0xFFFF, 0x0, 0x0, 0x0⟩,
  ⟨STR_SCRUB_CNT, 0x4, 1, 0x4, 1, 0x0, 0x0, 0x0, 0x0, 0xFFFF, 0x0, 0x0, 0x0⟩,
  ⟨STR_SCRUB_UE, 0x4, 1, 0x4, 1, 0x0, 0x0, 0x0, 0x1FF, 0x0, 0x0, 0x0, 0x0⟩,
  ⟨STR_CHK_RES 0, 0x8, 21, 0x4, 1, 0x0, 0xC0FFFFFF, 0x0, 0x0, 0x0, 0x0, 0x0, 0x0⟩,
  ⟨STR_CHK_DET 0, 0x8, 21, 0x4, 1, 0x0, 0xFFFFFF, 0x0, 0x0, 0x0, 0x0, 0x0, 0x0⟩]
/-- The registers of EVT. -/
def evtRegs : List RegDesc :=
  [⟨EVT_PEND 0, 0x4, 12, 0x4, 1, 0x0, 0x0, 0x0, 0xFFFFFFFF, 0x0, 0x0, 0x0, 0x0⟩,
  ⟨EVT_CLAIM 0, 0x4, 8, 0x4, 1, 0x0, 0x1FF, 0x0, 0x0, 0x0, 0x0, 0x0, 0x0⟩,
  ⟨EVT_SRC_CFG 0, 0x10, 384, 0x4, 1, 0x870000FF, 0x0, 0x0, 0x0, 0x0, 0x0, 0x0, 0x0⟩,
  ⟨EVT_SRC_STAT 0, 0x10, 384, 0x4, 1, 0x0, 0x0, 0x4, 0x3, 0x0, 0x0, 0x0, 0x0⟩,
  ⟨EVT_SRC_LTC_LO 0, 0x10, 384, 0x4, 1, 0x0, 0xFFFFFFFF, 0x0, 0x0, 0x0, 0x0, 0x0, 0x0⟩,
  ⟨EVT_SRC_LTC_HI 0, 0x10, 384, 0x4, 1, 0x0, 0xFFFFFFFF, 0x0, 0x0, 0x0, 0x0, 0x0, 0x0⟩]
/-- The registers of TMS. -/
def tmsRegs : List RegDesc :=
  [⟨TMS_CTRL, 0x4, 1, 0x4, 1, 0x1, 0x0, 0x0, 0x0, 0x0, 0x0, 0x0, 0x0⟩,
  ⟨TMS_STATUS, 0x4, 1, 0x4, 1, 0x0, 0xFFFF7333, 0x0, 0x0, 0xC0, 0x0, 0x0, 0x0⟩,
  ⟨TMS_LTC_LO, 0x4, 1, 0x4, 1, 0x0, 0xFFFFFFFF, 0x0, 0x0, 0x0, 0x0, 0x0, 0x0⟩,
  ⟨TMS_LTC_HI, 0x4, 1, 0x4, 1, 0x0, 0xFFFFFFFF, 0x0, 0x0, 0x0, 0x0, 0x0, 0x0⟩,
  ⟨TMS_MT_LO, 0x4, 1, 0x4, 1, 0x0, 0xFFFFFFFF, 0x0, 0x0, 0x0, 0x0, 0x0, 0x0⟩,
  ⟨TMS_MT_HI, 0x4, 1, 0x4, 1, 0x0, 0xFFFFFFFF, 0x0, 0x0, 0x0, 0x0, 0x0, 0x0⟩,
  ⟨TMS_REL_SEQ, 0x4, 1, 0x4, 1, 0x0, 0xFFFFFFFF, 0x0, 0x0, 0x0, 0x0, 0x0, 0x0⟩,
  ⟨TMS_REL_LTC_LO, 0x4, 1, 0x4, 1, 0x0, 0xFFFFFFFF, 0x0, 0x0, 0x0, 0x0, 0x0, 0x0⟩,
  ⟨TMS_REL_LTC_HI, 0x4, 1, 0x4, 1, 0x0, 0xFFFFFFFF, 0x0, 0x0, 0x0, 0x0, 0x0, 0x0⟩,
  ⟨TMS_REL_OFF_LO, 0x4, 1, 0x4, 1, 0x0, 0xFFFFFFFF, 0x0, 0x0, 0x0, 0x0, 0x0, 0x0⟩,
  ⟨TMS_REL_OFF_HI, 0x4, 1, 0x4, 1, 0x0, 0xFFFFFFFF, 0x0, 0x0, 0x0, 0x0, 0x0, 0x0⟩,
  ⟨TMS_REL_RATE, 0x4, 1, 0x4, 1, 0x0, 0xFFFFFFFF, 0x0, 0x0, 0x0, 0x0, 0x0, 0x0⟩,
  ⟨TMS_SRC_CFG, 0x4, 1, 0x4, 1, 0x0, 0x0, 0x0, 0x0, 0x0, 0xFF0333, 0x0, 0xA0000⟩,
  ⟨TMS_SERVO_KP, 0x4, 1, 0x4, 1, 0x0, 0x0, 0x0, 0x0, 0x0, 0xFFFFFFFF, 0x0, 0x6DF37F⟩,
  ⟨TMS_SERVO_KF, 0x4, 1, 0x4, 1, 0x0, 0x0, 0x0, 0x0, 0x0, 0xFFFFFFFF, 0x0, 0xAFEC0⟩,
  ⟨TMS_SLEW_MAX, 0x4, 1, 0x4, 1, 0x0, 0x0, 0x0, 0x0, 0x0, 0x3F, 0x0, 0x32⟩,
  ⟨TMS_HOLD_LIMIT, 0x4, 1, 0x4, 1, 0x0, 0x0, 0x0, 0x0, 0x0, 0xFFFF, 0x0, 0x258⟩,
  ⟨TMS_OBS_LTC_LO, 0x4, 1, 0x4, 1, 0xFFFFFFFF, 0x0, 0x0, 0x0, 0x0, 0x0, 0x0, 0x0⟩,
  ⟨TMS_OBS_LTC_HI, 0x4, 1, 0x4, 1, 0xFFFFFFFF, 0x0, 0x0, 0x0, 0x0, 0x0, 0x0, 0x0⟩,
  ⟨TMS_OBS_MT_LO, 0x4, 1, 0x4, 1, 0xFFFFFFFF, 0x0, 0x0, 0x0, 0x0, 0x0, 0x0, 0x0⟩,
  ⟨TMS_OBS_MT_HI, 0x4, 1, 0x4, 1, 0xFFFFFFFF, 0x0, 0x0, 0x0, 0x0, 0x0, 0x0, 0x0⟩,
  ⟨TMS_OBS_FRAC, 0x4, 1, 0x4, 1, 0xFFFF, 0x0, 0x0, 0x0, 0x0, 0x0, 0x0, 0x0⟩,
  ⟨TMS_OBS_CTRL, 0x4, 1, 0x4, 1, 0x0, 0x1FFFF, 0x80000000, 0x0, 0x0, 0x0, 0x0, 0x0⟩,
  ⟨TMS_TP_CFG, 0x4, 1, 0x4, 1, 0x0, 0x0, 0x0, 0x0, 0x0, 0x8007FFFF, 0x0, 0x186A0⟩]
  ++ [⟨TMS_CAP_CFG 0, 0x10, 7, 0x4, 1, 0x7, 0x0, 0x0, 0x0, 0x0, 0x0, 0x0, 0x0⟩,
  ⟨TMS_CAP_STAT 0, 0x10, 7, 0x4, 1, 0x0, 0x1F, 0x80000000, 0x0, 0xFF00, 0x0, 0x0, 0x0⟩,
  ⟨TMS_CAP_LTC_LO 0, 0x10, 7, 0x4, 1, 0x0, 0xFFFFFFFF, 0x0, 0x0, 0x0, 0x0, 0x0, 0x0⟩,
  ⟨TMS_CAP_LTC_HI 0, 0x10, 7, 0x4, 1, 0x0, 0xFFFFFFFF, 0x0, 0x0, 0x0, 0x0, 0x0, 0x0⟩,
  ⟨TMS_TP_STAT, 0x4, 1, 0x4, 1, 0x0, 0xF800FFFF, 0x0, 0x4000000, 0xFF0000, 0x0, 0x0, 0x0⟩,
  ⟨TMS_TP_LTC_LO, 0x4, 1, 0x4, 1, 0x0, 0xFFFFFFFF, 0x0, 0x0, 0x0, 0x0, 0x0, 0x0⟩,
  ⟨TMS_TP_LTC_HI, 0x4, 1, 0x4, 1, 0x0, 0xFFFFFFFF, 0x0, 0x0, 0x0, 0x0, 0x0, 0x0⟩,
  ⟨TMS_PREL_SEQ, 0x4, 1, 0x4, 1, 0x0, 0xFFFFFFFF, 0x0, 0x0, 0x0, 0x0, 0x0, 0x0⟩,
  ⟨TMS_PREL_LTC_LO, 0x4, 1, 0x4, 1, 0x0, 0xFFFFFFFF, 0x0, 0x0, 0x0, 0x0, 0x0, 0x0⟩,
  ⟨TMS_PREL_LTC_HI, 0x4, 1, 0x4, 1, 0x0, 0xFFFFFFFF, 0x0, 0x0, 0x0, 0x0, 0x0, 0x0⟩,
  ⟨TMS_PREL_OFF_LO, 0x4, 1, 0x4, 1, 0x0, 0xFFFFFFFF, 0x0, 0x0, 0x0, 0x0, 0x0, 0x0⟩,
  ⟨TMS_PREL_OFF_HI, 0x4, 1, 0x4, 1, 0x0, 0xFFFFFFFF, 0x0, 0x0, 0x0, 0x0, 0x0, 0x0⟩,
  ⟨TMS_PREL_RATE, 0x4, 1, 0x4, 1, 0x0, 0xFFFFFFFF, 0x0, 0x0, 0x0, 0x0, 0x0, 0x0⟩]
/-- The registers of INP. -/
def inpRegs : List RegDesc :=
  [⟨INP_CTRL, 0x4, 1, 0x4, 1, 0x1, 0x0, 0x0, 0x0, 0x0, 0x0, 0x0, 0x0⟩,
  ⟨INP_AIN_CFG 0, 0x20, 48, 0x4, 1, 0x3C00, 0x370000, 0x0, 0x0, 0x0, 0x30003FF, 0x370000, 0x0⟩,
  ⟨INP_AIN_LIM 0, 0x20, 48, 0x4, 1, 0xFFFFFFFF, 0x0, 0x0, 0x0, 0x0, 0x0, 0x0, 0xFFFF0000⟩,
  ⟨INP_AIN_GAIN 0, 0x20, 48, 0x4, 1, 0xFFFFFFFF, 0x0, 0x0, 0x0, 0x0, 0x0, 0x0, 0x3F800000⟩,
  ⟨INP_AIN_OFS 0, 0x20, 48, 0x4, 1, 0xFFFFFFFF, 0x0, 0x0, 0x0, 0x0, 0x0, 0x0, 0x0⟩,
  ⟨INP_AIN_RAW 0, 0x20, 48, 0x4, 1, 0x0, 0xF0FFFFFF, 0x0, 0x0, 0x0, 0x0, 0x0, 0x0⟩,
  ⟨INP_AIN_VAL 0, 0x20, 48, 0x4, 1, 0x0, 0xFFFFFFFF, 0x0, 0x0, 0x0, 0x0, 0x0, 0x0⟩,
  ⟨INP_AIN_FLT 0, 0x20, 48, 0x4, 1, 0x0, 0x0, 0x80000000, 0xF, 0x0, 0x0, 0x0, 0x0⟩,
  ⟨INP_PIN_CFG 0, 0x20, 24, 0x4, 1, 0xFFFF00, 0x0, 0x0, 0x0, 0x0, 0xF, 0x0, 0x1400⟩,
  ⟨INP_PIN_TIM 0, 0x20, 24, 0x4, 1, 0x3FF03FF, 0x0, 0x0, 0x0, 0x0, 0x0, 0x0, 0x640064⟩,
  ⟨INP_PIN_VAL 0, 0x20, 24, 0x4, 1, 0x0, 0xFFFFFFFF, 0x0, 0x0, 0x0, 0x0, 0x0, 0x0⟩,
  ⟨INP_PIN_STAT 0, 0x20, 24, 0x4, 1, 0x0, 0x80FF0000, 0x0, 0x0, 0xFFFF, 0x0, 0x0, 0x0⟩,
  ⟨INP_PIN_LTC_LO 0, 0x20, 24, 0x4, 1, 0x0, 0xFFFFFFFF, 0x0, 0x0, 0x0, 0x0, 0x0, 0x0⟩,
  ⟨INP_PIN_LTC_HI 0, 0x20, 24, 0x4, 1, 0x0, 0xFFFFFFFF, 0x0, 0x0, 0x0, 0x0, 0x0, 0x0⟩,
  ⟨INP_LAC_CFG 0, 0x20, 8, 0x4, 1, 0xFFFF00F3, 0x0, 0x0, 0x0, 0x0, 0x0, 0x0, 0x61⟩,
  ⟨INP_LAC_THR 0, 0x20, 8, 0x4, 1, 0x7FFFFF, 0x0, 0x0, 0x0, 0x0, 0x0, 0x0, 0x10000⟩,
  ⟨INP_LAC_WIN 0, 0x20, 8, 0x4, 1, 0x80000000, 0x0, 0x0, 0x0, 0x0, 0x3FFF, 0x0, 0x3E8⟩,
  ⟨INP_LAC_CNT 0, 0x20, 8, 0x4, 1, 0x0, 0xFFFFFFFF, 0x0, 0x0, 0x0, 0x0, 0x0, 0x0⟩,
  ⟨INP_LAC_PEAK 0, 0x20, 8, 0x4, 1, 0x0, 0x807FFFFF, 0x0, 0x0, 0x0, 0x0, 0x0, 0x0⟩,
  ⟨INP_LAC_LTC_LO 0, 0x20, 8, 0x4, 1, 0x0, 0xFFFFFFFF, 0x0, 0x0, 0x0, 0x0, 0x0, 0x0⟩,
  ⟨INP_LAC_LTC_HI 0, 0x20, 8, 0x4, 1, 0x0, 0xFFFFFFFF, 0x0, 0x0, 0x0, 0x0, 0x0, 0x0⟩,
  ⟨INP_LAC_STAT 0, 0x20, 8, 0x4, 1, 0x0, 0x0, 0x0, 0x3, 0x0, 0x0, 0x0, 0x0⟩,
  ⟨INP_FLOW_CFG, 0x4, 1, 0x4, 1, 0x0, 0x0, 0x0, 0x0, 0x0, 0x8000003F, 0x0, 0x0⟩,
  ⟨INP_FLOW_TARE, 0x4, 1, 0x4, 1, 0xFFFFFFFF, 0x0, 0x0, 0x0, 0x0, 0x0, 0x0, 0x0⟩]
  ++ [⟨INP_FLOW_K, 0x4, 1, 0x4, 1, 0xFFFFFFFF, 0x0, 0x0, 0x0, 0x0, 0x0, 0x0, 0x3F800000⟩,
  ⟨INP_FLOW_VAL, 0x4, 1, 0x4, 1, 0x0, 0xFFFFFFFF, 0x0, 0x0, 0x0, 0x0, 0x0, 0x0⟩,
  ⟨INP_FLOW_STAT, 0x4, 1, 0x4, 1, 0x0, 0x80FFFFFF, 0x0, 0x0, 0x0, 0x0, 0x0, 0x0⟩,
  ⟨INP_FLOW_LTC_LO, 0x4, 1, 0x4, 1, 0x0, 0xFFFFFFFF, 0x0, 0x0, 0x0, 0x0, 0x0, 0x0⟩,
  ⟨INP_FLOW_LTC_HI, 0x4, 1, 0x4, 1, 0x0, 0xFFFFFFFF, 0x0, 0x0, 0x0, 0x0, 0x0, 0x0⟩,
  ⟨INP_SSUP, 0x4, 1, 0x4, 1, 0x3F, 0x3F0000, 0x0, 0x3F00, 0x0, 0x0, 0x0, 0x0⟩,
  ⟨INP_AOUT 0, 0x4, 8, 0x4, 1, 0x4000FFFF, 0x0, 0x0, 0x20000000, 0x0, 0x80000000, 0x0, 0x0⟩,
  ⟨INP_DIN, 0x4, 1, 0x4, 1, 0x0, 0xFFFF, 0x0, 0x0, 0x0, 0x0, 0x0, 0x0⟩,
  ⟨INP_DIN_CFG, 0x4, 1, 0x4, 1, 0xFF, 0x0, 0x0, 0x0, 0x0, 0x0, 0x0, 0xA⟩,
  ⟨INP_DIN_IRQ, 0x4, 1, 0x4, 1, 0xFFFFFFFF, 0x0, 0x0, 0x0, 0x0, 0x0, 0x0, 0x0⟩]
/-- The registers of CLE. -/
def cleRegs : List RegDesc :=
  [⟨CLE_CTRL, 0x4, 1, 0x4, 1, 0x1, 0x0, 0x0, 0x0, 0x0, 0x2, 0x0, 0x0⟩,
  ⟨CLE_STATUS, 0x4, 1, 0x4, 1, 0x0, 0x807F007F, 0x0, 0x0, 0x0, 0x0, 0x0, 0x0⟩,
  ⟨CLE_GRID_LTC_LO, 0x4, 1, 0x4, 1, 0x0, 0xFFFFFFFF, 0x0, 0x0, 0x0, 0x0, 0x0, 0x0⟩,
  ⟨CLE_GRID_LTC_HI, 0x4, 1, 0x4, 1, 0x0, 0xFFFFFFFF, 0x0, 0x0, 0x0, 0x0, 0x0, 0x0⟩,
  ⟨CLE_FRAME_LO, 0x4, 1, 0x4, 1, 0x0, 0xFFFFFFFF, 0x0, 0x0, 0x0, 0x0, 0x0, 0x0⟩,
  ⟨CLE_FRAME_HI, 0x4, 1, 0x4, 1, 0x0, 0xFFFFFFFF, 0x0, 0x0, 0x0, 0x0, 0x0, 0x0⟩,
  ⟨CLE_VIOL_CNT, 0x4, 1, 0x4, 1, 0x0, 0x0, 0x0, 0x0, 0xFFFFFFFF, 0x0, 0x0, 0x0⟩,
  ⟨CLE_NUM_CNT, 0x4, 1, 0x4, 1, 0x0, 0x0, 0x0, 0x0, 0xFFFF, 0x0, 0x0, 0x0⟩,
  ⟨CLE_LATE_MAP 0, 0x4, 3, 0x4, 1, 0x0, 0x0, 0x0, 0xFFFFFFFF, 0x0, 0x0, 0x0, 0x0⟩,
  ⟨CLE_SCLK_CFG 0, 0x4, 8, 0x4, 1, 0x0, 0x0, 0x0, 0x0, 0x0, 0x81FF01FF, 0x0, 0x0⟩,
  ⟨CLE_SCLK_CAP 0, 0x4, 8, 0x4, 1, 0x0, 0x1FF007F, 0x0, 0x0, 0x0, 0x0, 0x1FF007F, 0x0⟩,
  ⟨CLE_S_STAT 0, 0x1000, 96, 0x4, 1, 0x0, 0xFFFFF203, 0x0, 0x1C0, 0x0, 0x0, 0x0, 0x0⟩,
  ⟨CLE_S_CTRL 0, 0x1000, 96, 0x4, 1, 0x1, 0x0, 0x0, 0x0, 0x0, 0x0, 0x0, 0x0⟩,
  ⟨CLE_S_SAMPLE 0, 0x1000, 96, 0x4, 1, 0x0, 0xFFFFFFFF, 0x0, 0x0, 0x0, 0x0, 0x0, 0x0⟩,
  ⟨CLE_S_ROUTE 0, 0x1000, 96, 0x4, 1, 0x0, 0xFFFFFFFC, 0x0, 0x0, 0x0, 0x0, 0x0, 0x0⟩,
  ⟨CLE_S_TIMING 0, 0x1000, 96, 0x4, 1, 0x0, 0xFFFFFFFF, 0x0, 0x0, 0x0, 0x0, 0x0, 0x0⟩,
  ⟨CLE_S_AGE 0, 0x1000, 96, 0x4, 1, 0x0, 0xFFFF, 0x0, 0x0, 0x0, 0x0, 0x0, 0x0⟩,
  ⟨CLE_S_CNT 0, 0x1000, 96, 0x4, 1, 0x0, 0x0, 0x0, 0x0, 0xFFFFFFFF, 0x0, 0x0, 0x0⟩,
  ⟨CLE_S_SP_HOST 0, 0x1000, 96, 0x4, 1, 0xFFFFFFFF, 0x0, 0x0, 0x0, 0x0, 0x0, 0x0, 0x0⟩,
  ⟨CLE_S_MS_HOST 0, 0x1000, 96, 0x4, 1, 0xFFFFFFFF, 0x0, 0x0, 0x0, 0x0, 0x0, 0x0, 0x0⟩,
  ⟨CLE_S_OUT 0, 0x1000, 96, 0x4, 1, 0x0, 0xFFFFFFFF, 0x0, 0x0, 0x0, 0x0, 0x0, 0x0⟩,
  ⟨CLE_S_OUT_LTC_LO 0, 0x1000, 96, 0x4, 1, 0x0, 0xFFFFFFFF, 0x0, 0x0, 0x0, 0x0, 0x0, 0x0⟩,
  ⟨CLE_S_OUT_LTC_HI 0, 0x1000, 96, 0x4, 1, 0x0, 0xFFFFFFFF, 0x0, 0x0, 0x0, 0x0, 0x0, 0x0⟩,
  ⟨CLE_S_REF 0, 0x1000, 96, 0x4, 1, 0x0, 0xFFFFFFFF, 0x0, 0x0, 0x0, 0x0, 0x0, 0x0⟩]
  ++ [⟨CLE_S_MEAS 0, 0x1000, 96, 0x4, 1, 0x0, 0xFFFFFFFF, 0x0, 0x0, 0x0, 0x0, 0x0, 0x0⟩,
  ⟨CLE_S_INTEG 0, 0x1000, 96, 0x4, 1, 0x0, 0xFFFFFFFF, 0x0, 0x0, 0x0, 0x0, 0x0, 0x0⟩,
  ⟨CLE_S_DERIV 0, 0x1000, 96, 0x4, 1, 0x0, 0xFFFFFFFF, 0x0, 0x0, 0x0, 0x0, 0x0, 0x0⟩,
  ⟨CLE_S_SP_SCALE 0, 0x1000, 96, 0x4, 1, 0xFFFFFFFF, 0x0, 0x0, 0x0, 0x0, 0x0, 0x0, 0x3F800000⟩,
  ⟨CLE_S_SP_OFS 0, 0x1000, 96, 0x4, 1, 0xFFFFFFFF, 0x0, 0x0, 0x0, 0x0, 0x0, 0x0, 0x0⟩,
  ⟨CLE_S_SP_DB 0, 0x1000, 96, 0x4, 1, 0xFFFFFFFF, 0x0, 0x0, 0x0, 0x0, 0x0, 0x0, 0x0⟩,
  ⟨CLE_S_SP_SLEW_UP 0, 0x1000, 96, 0x4, 1, 0xFFFFFFFF, 0x0, 0x0, 0x0, 0x0, 0x0, 0x0, 0x0⟩,
  ⟨CLE_S_SP_SLEW_DN 0, 0x1000, 96, 0x4, 1, 0xFFFFFFFF, 0x0, 0x0, 0x0, 0x0, 0x0, 0x0, 0x0⟩,
  ⟨CLE_S_MS_SCALE 0, 0x1000, 96, 0x4, 1, 0xFFFFFFFF, 0x0, 0x0, 0x0, 0x0, 0x0, 0x0, 0x3F800000⟩,
  ⟨CLE_S_MS_OFS 0, 0x1000, 96, 0x4, 1, 0xFFFFFFFF, 0x0, 0x0, 0x0, 0x0, 0x0, 0x0, 0x0⟩,
  ⟨CLE_S_KP 0, 0x1000, 96, 0x4, 1, 0xFFFFFFFF, 0x0, 0x0, 0x0, 0x0, 0x0, 0x0, 0x0⟩,
  ⟨CLE_S_B 0, 0x1000, 96, 0x4, 1, 0xFFFFFFFF, 0x0, 0x0, 0x0, 0x0, 0x0, 0x0, 0x3F800000⟩,
  ⟨CLE_S_KI 0, 0x1000, 96, 0x4, 1, 0xFFFFFFFF, 0x0, 0x0, 0x0, 0x0, 0x0, 0x0, 0x0⟩,
  ⟨CLE_S_KAW 0, 0x1000, 96, 0x4, 1, 0xFFFFFFFF, 0x0, 0x0, 0x0, 0x0, 0x0, 0x0, 0x0⟩,
  ⟨CLE_S_I_MIN 0, 0x1000, 96, 0x4, 1, 0xFFFFFFFF, 0x0, 0x0, 0x0, 0x0, 0x0, 0x0, 0x0⟩,
  ⟨CLE_S_I_MAX 0, 0x1000, 96, 0x4, 1, 0xFFFFFFFF, 0x0, 0x0, 0x0, 0x0, 0x0, 0x0, 0x0⟩,
  ⟨CLE_S_C 0, 0x1000, 96, 0x4, 1, 0xFFFFFFFF, 0x0, 0x0, 0x0, 0x0, 0x0, 0x0, 0x0⟩,
  ⟨CLE_S_AD 0, 0x1000, 96, 0x4, 1, 0xFFFFFFFF, 0x0, 0x0, 0x0, 0x0, 0x0, 0x0, 0x0⟩,
  ⟨CLE_S_BD 0, 0x1000, 96, 0x4, 1, 0xFFFFFFFF, 0x0, 0x0, 0x0, 0x0, 0x0, 0x0, 0x0⟩,
  ⟨CLE_S_KV 0, 0x1000, 96, 0x4, 1, 0xFFFFFFFF, 0x0, 0x0, 0x0, 0x0, 0x0, 0x0, 0x0⟩,
  ⟨CLE_S_KA 0, 0x1000, 96, 0x4, 1, 0xFFFFFFFF, 0x0, 0x0, 0x0, 0x0, 0x0, 0x0, 0x0⟩,
  ⟨CLE_S_U_BIAS 0, 0x1000, 96, 0x4, 1, 0xFFFFFFFF, 0x0, 0x0, 0x0, 0x0, 0x0, 0x0, 0x0⟩,
  ⟨CLE_S_U_MIN 0, 0x1000, 96, 0x4, 1, 0xFFFFFFFF, 0x0, 0x0, 0x0, 0x0, 0x0, 0x0, 0x0⟩,
  ⟨CLE_S_U_MAX 0, 0x1000, 96, 0x4, 1, 0xFFFFFFFF, 0x0, 0x0, 0x0, 0x0, 0x0, 0x0, 0x0⟩]
  ++ [⟨CLE_S_RL_UP 0, 0x1000, 96, 0x4, 1, 0xFFFFFFFF, 0x0, 0x0, 0x0, 0x0, 0x0, 0x0, 0x0⟩,
  ⟨CLE_S_RL_DN 0, 0x1000, 96, 0x4, 1, 0xFFFFFFFF, 0x0, 0x0, 0x0, 0x0, 0x0, 0x0, 0x0⟩,
  ⟨CLE_HOLD_MAX, 0x4, 1, 0x4, 1, 0xFFFF, 0x0, 0x0, 0x0, 0x0, 0x0, 0x0, 0x0⟩,
  ⟨CLE_S_TBL_CTRL 0, 0x1000, 96, 0x4, 1, 0x7F, 0x0, 0x0, 0x0, 0x0, 0x0, 0x0, 0x0⟩,
  ⟨CLE_S_FRIC_SCALE 0, 0x1000, 96, 0x4, 1, 0xFFFFFFFF, 0x0, 0x0, 0x0, 0x0, 0x0, 0x0, 0x0⟩,
  ⟨CLE_S_FRIC_OFS 0, 0x1000, 96, 0x4, 1, 0xFFFFFFFF, 0x0, 0x0, 0x0, 0x0, 0x0, 0x0, 0x0⟩,
  ⟨CLE_S_FRIC_VDB 0, 0x1000, 96, 0x4, 1, 0xFFFFFFFF, 0x0, 0x0, 0x0, 0x0, 0x0, 0x0, 0x0⟩,
  ⟨CLE_S_COG_SCALE 0, 0x1000, 96, 0x4, 1, 0xFFFFFFFF, 0x0, 0x0, 0x0, 0x0, 0x0, 0x0, 0x0⟩,
  ⟨CLE_S_COG_OFS 0, 0x1000, 96, 0x4, 1, 0xFFFFFFFF, 0x0, 0x0, 0x0, 0x0, 0x0, 0x0, 0x0⟩,
  ⟨CLE_S_XSTAT 0, 0x1000, 96, 0x4, 1, 0x0, 0xC800FFFF, 0x0, 0x7C00000, 0x0, 0x0, 0x0, 0x0⟩,
  ⟨CLE_S_WSEQ 0, 0x1000, 96, 0x4, 1, 0x0, 0xFFFFFFFF, 0x0, 0x0, 0x0, 0x0, 0x0, 0x0⟩,
  ⟨CLE_S_FRIC_P 0 0, 0x1000, 96, 0x4, 256, 0xFFFFFFFF, 0x0, 0x0, 0x0, 0x0, 0x0, 0x0, 0x0⟩,
  ⟨CLE_S_FRIC_N 0 0, 0x1000, 96, 0x4, 256, 0xFFFFFFFF, 0x0, 0x0, 0x0, 0x0, 0x0, 0x0, 0x0⟩,
  ⟨CLE_S_COG 0 0, 0x1000, 96, 0x4, 256, 0xFFFFFFFF, 0x0, 0x0, 0x0, 0x0, 0x0, 0x0, 0x0⟩]
  ++ ringGroup 0xC5000000 0x100
  ++ ringGroup 0xC5000000 0x120
/-- The registers of VDR. -/
def vdrRegs : List RegDesc :=
  [⟨VDR_CTRL, 0x4, 1, 0x4, 1, 0x1, 0x0, 0x0, 0x0, 0x0, 0x0, 0x0, 0x0⟩,
  ⟨VDR_STATUS, 0x4, 1, 0x4, 1, 0x0, 0xE0000000, 0x0, 0x1C000000, 0xFFFF, 0x0, 0x0, 0x0⟩,
  ⟨VDR_BST_CFG, 0x4, 1, 0x4, 1, 0x800003FF, 0x0, 0x0, 0x0, 0x0, 0x0, 0x0, 0x1E0⟩,
  ⟨VDR_BST_STAT, 0x4, 1, 0x4, 1, 0x0, 0xFFFF, 0x0, 0x0, 0x0, 0x0, 0x0, 0x0⟩,
  ⟨VDR_MOD_STAT, 0x4, 1, 0x4, 1, 0x0, 0xFFFF, 0x0, 0x0, 0x0, 0x0, 0x0, 0x0⟩,
  ⟨VDR_BANK_CFG 0, 0x10, 16, 0x4, 1, 0xFFFFFFFF, 0x0, 0x0, 0x0, 0x0, 0x0, 0x0, 0x7D000C8⟩,
  ⟨VDR_BANK_PWM 0, 0x10, 16, 0x4, 1, 0x3FF, 0x0, 0x0, 0x0, 0x0, 0x0, 0x0, 0x64⟩,
  ⟨VDR_BANK_CAP 0, 0x10, 16, 0x4, 1, 0x0, 0x30F, 0x0, 0x0, 0x0, 0x0, 0x30F, 0x0⟩,
  ⟨VDR_BANK_STAT 0, 0x10, 16, 0x4, 1, 0x0, 0xC0000000, 0x0, 0x30000000, 0xFFFF, 0x0, 0x0, 0x0⟩,
  ⟨VDR_OUT_CFG 0, 0x20, 64, 0x4, 1, 0xFFC10107, 0x0, 0x0, 0x0, 0x0, 0x0, 0x0, 0xC800000⟩,
  ⟨VDR_OUT_TGT 0, 0x20, 64, 0x4, 1, 0xFFFFFFFF, 0x0, 0x0, 0x0, 0x0, 0x0, 0x0, 0x0⟩,
  ⟨VDR_OUT_BAND 0, 0x20, 64, 0x4, 1, 0xFFFFFFFF, 0x0, 0x0, 0x0, 0x0, 0x0, 0x0, 0x3DCCCCCD⟩,
  ⟨VDR_OUT_DITH 0, 0x20, 64, 0x4, 1, 0x3F, 0x0, 0x0, 0x0, 0x0, 0x0, 0x0, 0x0⟩,
  ⟨VDR_OUT_DITH_AMP 0, 0x20, 64, 0x4, 1, 0xFFFFFFFF, 0x0, 0x0, 0x0, 0x0, 0x0, 0x0, 0x0⟩,
  ⟨VDR_OUT_SENSE 0, 0x20, 64, 0x4, 1, 0x0, 0xE0FF0FFF, 0x0, 0x0, 0x0, 0x0, 0x0, 0x0⟩,
  ⟨VDR_OUT_FLT 0, 0x20, 64, 0x4, 1, 0x0, 0x0, 0x0, 0x3FF, 0x0, 0x0, 0x0, 0x0⟩,
  ⟨VDR_OUT_RELT 0, 0x20, 64, 0x4, 1, 0x0, 0xFFFFFFFF, 0x0, 0x0, 0x0, 0x0, 0x0, 0x0⟩,
  ⟨VDR_STK_STATUS, 0x4, 1, 0x4, 1, 0x0, 0x1FF01FF, 0x0, 0x0, 0x0, 0x0, 0x0, 0x0⟩,
  ⟨VDR_STK_CNT, 0x4, 1, 0x4, 1, 0x0, 0x0, 0x0, 0x0, 0xFFFFFFFF, 0x0, 0x0, 0x0⟩,
  ⟨VDR_STK_TBAND, 0x4, 1, 0x4, 1, 0x7777, 0x0, 0x0, 0x0, 0x0, 0x0, 0x0, 0x0⟩,
  ⟨VDR_STK_TRIG, 0x4, 1, 0x4, 1, 0x0, 0x0, 0xFF, 0x0, 0xFF0000, 0x0, 0x0, 0x0⟩,
  ⟨VDR_STK_DROP, 0x4, 1, 0x4, 1, 0x0, 0x3F00000F, 0x0, 0x0, 0x0, 0x0, 0x0, 0x0⟩,
  ⟨VDR_STK_BANK 0, 0x4, 16, 0x4, 1, 0x8000FFFF, 0x0, 0x0, 0x0, 0x0, 0x0, 0x0, 0x32⟩,
  ⟨VDR_CTX_CFG 0, 0x20, 64, 0x4, 1, 0xFFFF0013, 0x700, 0x0, 0x0, 0x0, 0x0, 0x700, 0x0⟩]
  ++ [⟨VDR_CTX_STAT 0, 0x20, 64, 0x4, 1, 0x0, 0x3FFF77F3, 0x0, 0x800, 0x0, 0x0, 0x0, 0x0⟩,
  ⟨VDR_CTX_RUN 0, 0x20, 64, 0x4, 1, 0x0, 0x1FFFFFFF, 0x0, 0x0, 0x0, 0x0, 0x0, 0x0⟩,
  ⟨VDR_CTX_LTC_LO 0, 0x20, 64, 0x4, 1, 0x0, 0xFFFFFFFF, 0x0, 0x0, 0x0, 0x0, 0x0, 0x0⟩,
  ⟨VDR_CTX_LTC_HI 0, 0x20, 64, 0x4, 1, 0x0, 0xFFFFFFFF, 0x0, 0x0, 0x0, 0x0, 0x0, 0x0⟩,
  ⟨VDR_CTX_REQ 0, 0x20, 64, 0x4, 1, 0x0, 0xFFFFFFFF, 0x0, 0x0, 0x0, 0x0, 0x0, 0x0⟩,
  ⟨VDR_STK_PROG 0, 0x4, 16384, 0x4, 1, 0xFFFFFFFF, 0x0, 0x0, 0x0, 0x0, 0x0, 0x0, 0x0⟩]
  ++ ringGroup 0xC6000000 0x100
  ++ ringGroup 0xC6000000 0x120
/-- The registers of SAF. -/
def safRegs : List RegDesc :=
  [⟨SAF_CTRL, 0x4, 1, 0x4, 1, 0x1, 0x0, 0x0, 0x0, 0x0, 0x0, 0x0, 0x0⟩,
  ⟨SAF_STATUS, 0x4, 1, 0x4, 1, 0x0, 0xF000FFFF, 0x0, 0x0, 0x0, 0x0, 0x0, 0x0⟩,
  ⟨SAF_PAIR, 0x4, 1, 0x4, 1, 0x0, 0xFFFFFFFF, 0x0, 0x0, 0x0, 0x0, 0x0, 0x0⟩,
  ⟨SAF_CH 0, 0x4, 4, 0x4, 1, 0x0, 0xFEE0003F, 0x0, 0x0, 0x0, 0x0, 0x0, 0x82000000⟩,
  ⟨SAF_FAULT, 0x4, 1, 0x4, 1, 0x0, 0x7F007F, 0x0, 0x0, 0x0, 0x0, 0x0, 0x0⟩,
  ⟨SAF_MAP, 0x4, 1, 0x4, 1, 0x0, 0xFFFFFFFF, 0x0, 0x0, 0x0, 0x0, 0xFFFFFFFF, 0x0⟩,
  ⟨SAF_PCFG 0, 0x4, 8, 0x4, 1, 0x0, 0x3FF01FF, 0x0, 0x0, 0x0, 0x0, 0x3FF01FF, 0x0⟩,
  ⟨SAF_CCFG 0, 0x4, 4, 0x4, 1, 0x0, 0xF00000FF, 0x0, 0x0, 0x0, 0x0, 0xF00000FF, 0x0⟩,
  ⟨SAF_DEG_CFG, 0x4, 1, 0x4, 1, 0x0, 0x3FF003F, 0x0, 0x0, 0x0, 0x0, 0x3FF003F, 0x0⟩,
  ⟨SAF_MBX_REQ, 0x4, 1, 0x4, 1, 0x0, 0x0, 0xFF00FFFF, 0x0, 0x0, 0x0, 0x0, 0x0⟩,
  ⟨SAF_MBX_RSP, 0x4, 1, 0x4, 1, 0x0, 0xFF01FFFF, 0x0, 0x0, 0x0, 0x0, 0x0, 0x0⟩,
  ⟨SAF_CNT, 0x4, 1, 0x4, 1, 0x0, 0x0, 0x0, 0x0, 0xFFFFFFFF, 0x0, 0x0, 0x0⟩,
  ⟨SAF_TRIP_LTC_LO, 0x4, 1, 0x4, 1, 0x0, 0xFFFFFFFF, 0x0, 0x0, 0x0, 0x0, 0x0, 0x0⟩,
  ⟨SAF_TRIP_LTC_HI, 0x4, 1, 0x4, 1, 0x0, 0xFFFFFFFF, 0x0, 0x0, 0x0, 0x0, 0x0, 0x0⟩]
/-- The registers of GNB. -/
def gnbRegs : List RegDesc :=
  [⟨GNB_CTRL, 0x4, 1, 0x4, 1, 0x1, 0x0, 0x0, 0x0, 0x0, 0x0, 0x0, 0x0⟩,
  ⟨GNB_STATUS, 0x4, 1, 0x4, 1, 0x0, 0x3FF0F00, 0x0, 0x0, 0x0, 0x0, 0x0, 0x0⟩,
  ⟨GNB_SC_LO, 0x4, 1, 0x4, 1, 0x0, 0xFFFFFFFF, 0x0, 0x0, 0x0, 0x0, 0x0, 0x0⟩,
  ⟨GNB_SC_HI, 0x4, 1, 0x4, 1, 0x0, 0xFFFFFFFF, 0x0, 0x0, 0x0, 0x0, 0x0, 0x0⟩,
  ⟨GNB_MARK_SC_LO, 0x4, 1, 0x4, 1, 0x0, 0xFFFFFFFF, 0x0, 0x0, 0x0, 0x0, 0x0, 0x0⟩,
  ⟨GNB_MARK_SC_HI, 0x4, 1, 0x4, 1, 0x0, 0xFFFFFFFF, 0x0, 0x0, 0x0, 0x0, 0x0, 0x0⟩,
  ⟨GNB_MARK_LTC_LO, 0x4, 1, 0x4, 1, 0x0, 0xFFFFFFFF, 0x0, 0x0, 0x0, 0x0, 0x0, 0x0⟩,
  ⟨GNB_MARK_LTC_HI, 0x4, 1, 0x4, 1, 0x0, 0xFFFFFFFF, 0x0, 0x0, 0x0, 0x0, 0x0, 0x0⟩,
  ⟨GNB_CNT, 0x4, 1, 0x4, 1, 0x0, 0x0, 0x0, 0x0, 0xFFFFFFFF, 0x0, 0x0, 0x0⟩,
  ⟨GNB_ACC_DROP, 0x4, 1, 0x4, 1, 0x0, 0x0, 0x0, 0x0, 0xFFFFFFFF, 0x0, 0x0, 0x0⟩,
  ⟨GNB_DWIN_LO 0, 0x10, 2, 0x4, 1, 0x0, 0x0, 0x0, 0x0, 0x0, 0xFFFFF000, 0x0, 0x0⟩,
  ⟨GNB_DWIN_HI 0, 0x10, 2, 0x4, 1, 0x0, 0x0, 0x0, 0x0, 0x0, 0xFFFFFFFF, 0x0, 0x0⟩,
  ⟨GNB_DWIN_SIZE 0, 0x10, 2, 0x4, 1, 0x0, 0x0, 0x0, 0x0, 0x0, 0xFFFF, 0x0, 0x0⟩,
  ⟨GNB_ACC_BASE_LO, 0x4, 1, 0x4, 1, 0x0, 0x0, 0x0, 0x0, 0x0, 0xFFFFF000, 0x0, 0x0⟩,
  ⟨GNB_ACC_BASE_HI, 0x4, 1, 0x4, 1, 0x0, 0x0, 0x0, 0x0, 0x0, 0xFFFFFFFF, 0x0, 0x0⟩,
  ⟨GNB_ACC_CFG, 0x4, 1, 0x4, 1, 0xFFFFFF00, 0x0, 0x0, 0x0, 0x0, 0x1F, 0x0, 0x0⟩,
  ⟨GNB_ACC_PI, 0x4, 1, 0x4, 1, 0x0, 0x1FFFF, 0x0, 0x0, 0x0, 0x0, 0x0, 0x0⟩,
  ⟨GNB_ACC_CI, 0x4, 1, 0x4, 1, 0x1FFFF, 0x0, 0x0, 0x0, 0x0, 0x0, 0x0, 0x0⟩,
  ⟨GNB_ANT 0, 0x4, 2, 0x4, 1, 0x80000000, 0x600000FF, 0x0, 0x10000000, 0x0, 0x0, 0x0, 0x80000000⟩,
  ⟨GNB_CHAIN_CFG 0, 0x20, 4, 0x4, 1, 0x3, 0x0, 0x0, 0x0, 0x0, 0x0, 0x0, 0x0⟩,
  ⟨GNB_CHAIN_STAT 0, 0x20, 4, 0x4, 1, 0x0, 0xFF00FF, 0x0, 0xC0000000, 0x0, 0x0, 0x0, 0x0⟩,
  ⟨GNB_NOTCH 0 0, 0x20, 4, 0x4, 4, 0xCF001FFF, 0x20000000, 0x0, 0x0, 0x0, 0x0, 0x0, 0x0⟩,
  ⟨GNB_CH_STAT 0, 0x10, 512, 0x4, 1, 0x0, 0xFF9F1FFF, 0x0, 0x0, 0x0, 0x0, 0x0, 0x0⟩,
  ⟨GNB_CH_BOUND 0, 0x10, 512, 0x4, 1, 0x0, 0xFFFFFFFF, 0x0, 0x0, 0x0, 0x0, 0x0, 0x0⟩]
  ++ [⟨GNB_MS_CFG, 0x4, 1, 0x4, 1, 0x0, 0x0, 0x0, 0x0, 0x0, 0x83FF001F, 0x0, 0x3E8000A⟩,
  ⟨GNB_MS_THR, 0x4, 1, 0x4, 1, 0xFFFFFFFF, 0x0, 0x0, 0x0, 0x0, 0x0, 0x0, 0x666609C4⟩,
  ⟨GNB_MS_BASE_LO, 0x4, 1, 0x4, 1, 0x0, 0x0, 0x0, 0x0, 0x0, 0xFFFFF000, 0x0, 0x0⟩,
  ⟨GNB_MS_BASE_HI, 0x4, 1, 0x4, 1, 0x0, 0x0, 0x0, 0x0, 0x0, 0xFFFFFFFF, 0x0, 0x0⟩,
  ⟨GNB_MS_PI, 0x4, 1, 0x4, 1, 0x0, 0xFFFF, 0x0, 0x0, 0x0, 0x0, 0x0, 0x0⟩,
  ⟨GNB_MS_CI, 0x4, 1, 0x4, 1, 0xFFFF, 0x0, 0x0, 0x0, 0x0, 0x0, 0x0, 0x0⟩,
  ⟨GNB_MS_CNT, 0x4, 1, 0x4, 1, 0x0, 0x0, 0x0, 0x0, 0xFFFFFFFF, 0x0, 0x0, 0x0⟩]
  ++ ringGroup 0xC8000000 0x100
  ++ ringGroup 0xC8000000 0x120
/-- The registers of CAM. -/
def camRegs : List RegDesc :=
  [⟨CAM_CTRL, 0x4, 1, 0x4, 1, 0x1, 0x0, 0x0, 0x0, 0x0, 0x0, 0x0, 0x0⟩,
  ⟨CAM_STATUS, 0x4, 1, 0x4, 1, 0x0, 0x3F000F, 0x0, 0x0, 0x0, 0x0, 0x0, 0x0⟩,
  ⟨CAM_FEN_DROP, 0x4, 1, 0x4, 1, 0x0, 0x0, 0x0, 0x0, 0xFFFF, 0x0, 0x0, 0x0⟩,
  ⟨CAM_DWIN_LO 0, 0x10, 4, 0x4, 1, 0x0, 0x0, 0x0, 0x0, 0x0, 0xFFFFF000, 0x0, 0x0⟩,
  ⟨CAM_DWIN_HI 0, 0x10, 4, 0x4, 1, 0x0, 0x0, 0x0, 0x0, 0x0, 0xFFFFFFFF, 0x0, 0x0⟩,
  ⟨CAM_DWIN_SIZE 0, 0x10, 4, 0x4, 1, 0x0, 0x0, 0x0, 0x0, 0x0, 0xFFFF, 0x0, 0x0⟩,
  ⟨CAM_FR_BASE_LO, 0x4, 1, 0x4, 1, 0x0, 0x0, 0x0, 0x0, 0x0, 0xFFFFF000, 0x0, 0x0⟩,
  ⟨CAM_FR_BASE_HI, 0x4, 1, 0x4, 1, 0x0, 0x0, 0x0, 0x0, 0x0, 0xFFFFFFFF, 0x0, 0x0⟩,
  ⟨CAM_FR_CFG, 0x4, 1, 0x4, 1, 0x0, 0x0, 0x0, 0x0, 0x0, 0xF, 0x0, 0x8⟩,
  ⟨CAM_FR_PI, 0x4, 1, 0x4, 1, 0x0, 0x7FFF, 0x0, 0x0, 0x0, 0x0, 0x0, 0x0⟩,
  ⟨CAM_FR_CI, 0x4, 1, 0x4, 1, 0x7FFF, 0x0, 0x0, 0x0, 0x0, 0x0, 0x0, 0x0⟩,
  ⟨CAM_FR_DROP, 0x4, 1, 0x4, 1, 0x0, 0x0, 0x0, 0x0, 0xFFFF, 0x0, 0x0, 0x0⟩,
  ⟨CAM_LNK_CFG 0, 0x40, 4, 0x4, 1, 0xC000000F, 0x0, 0x0, 0x0, 0x0, 0x700, 0x0, 0x50F⟩,
  ⟨CAM_LNK_STAT 0, 0x40, 4, 0x4, 1, 0x0, 0xE70001FF, 0x0, 0x10000000, 0x0, 0x0, 0x0, 0x0⟩,
  ⟨CAM_LNK_CNT 0, 0x40, 4, 0x4, 1, 0x0, 0x0, 0x0, 0x0, 0xFFFFFFFF, 0x0, 0x0, 0x0⟩,
  ⟨CAM_LNK_ERR 0, 0x40, 4, 0x4, 1, 0x0, 0x0, 0x0, 0x0, 0xFFFFFFFF, 0x0, 0x0, 0x0⟩,
  ⟨CAM_LNK_STORE 0, 0x40, 4, 0x4, 1, 0x0, 0xFFFF, 0x0, 0x0, 0xFFFF0000, 0x0, 0x0, 0x0⟩,
  ⟨CAM_LNK_CAP 0, 0x40, 4, 0x4, 1, 0x0, 0x1, 0x0, 0x0, 0x0, 0x0, 0x1, 0x0⟩,
  ⟨CAM_LNK_CCI_CMD 0, 0x40, 4, 0x4, 1, 0x0, 0x0, 0xF07FFFFF, 0x0, 0x0, 0x0, 0x0, 0x0⟩,
  ⟨CAM_LNK_CCI_DATA 0, 0x40, 4, 0x4, 1, 0xFFFFFFFF, 0x0, 0x0, 0x0, 0x0, 0x0, 0x0, 0x0⟩,
  ⟨CAM_LNK_CCI_STAT 0, 0x40, 4, 0x4, 1, 0x0, 0xF, 0x0, 0x10, 0x0, 0x0, 0x0, 0x0⟩,
  ⟨CAM_SRC_DEF 0, 0x4, 16, 0x4, 1, 0x0, 0x80000007, 0x0, 0x0, 0x0, 0x0, 0x80000007, 0x0⟩,
  ⟨CAM_PL_STAT 0, 0x4, 8, 0x4, 1, 0x0, 0x9F1FFFFF, 0x0, 0x0, 0x0, 0x0, 0x0, 0x0⟩,
  ⟨CAM_CTX_STAT 0, 0x20, 32, 0x4, 1, 0x0, 0x8F701F00, 0x0, 0x0, 0xFF, 0x0, 0x0, 0x0⟩]
  ++ [⟨CAM_CTX_CSEQ 0, 0x20, 32, 0x4, 1, 0x0, 0xFFFFFFFF, 0x0, 0x0, 0x0, 0x0, 0x0, 0x0⟩]
  ++ ringGroup 0xC9000000 0x100
/-- The registers of FEN. -/
def fenRegs : List RegDesc :=
  [⟨FEN_CTRL, 0x4, 1, 0x4, 1, 0x1, 0x0, 0x0, 0x0, 0x0, 0x0, 0x0, 0x0⟩,
  ⟨FEN_STATUS, 0x4, 1, 0x4, 1, 0x0, 0x8FFF001F, 0x0, 0x0, 0x0, 0x0, 0x0, 0x0⟩,
  ⟨FEN_SRAM, 0x4, 1, 0x4, 1, 0x0, 0xFFFF, 0x0, 0x0, 0x0, 0x0, 0x0, 0x8000⟩,
  ⟨FEN_CNT, 0x4, 1, 0x4, 1, 0x0, 0x0, 0x0, 0x0, 0xFFFFFFFF, 0x0, 0x0, 0x0⟩,
  ⟨FEN_JOB_PEND, 0x4, 1, 0x4, 1, 0x0, 0x0, 0x0, 0xFFFF, 0x0, 0x0, 0x0, 0x0⟩,
  ⟨FEN_DWIN_LO 0, 0x10, 4, 0x4, 1, 0x0, 0x0, 0x0, 0x0, 0x0, 0xFFFFF000, 0x0, 0x0⟩,
  ⟨FEN_DWIN_HI 0, 0x10, 4, 0x4, 1, 0x0, 0x0, 0x0, 0x0, 0x0, 0xFFFFFFFF, 0x0, 0x0⟩,
  ⟨FEN_DWIN_SIZE 0, 0x10, 4, 0x4, 1, 0x0, 0x0, 0x0, 0x0, 0x0, 0xFFFF, 0x0, 0x0⟩,
  ⟨FEN_PKG 0, 0x8, 8, 0x4, 1, 0x0, 0xC000001F, 0x0, 0x0, 0x0, 0x0, 0x0, 0x0⟩,
  ⟨FEN_PKG_ID 0, 0x8, 8, 0x4, 1, 0x0, 0xFFFFFFFF, 0x0, 0x0, 0x0, 0x0, 0x0, 0x0⟩,
  ⟨FEN_STR 0, 0x8, 16, 0x4, 1, 0x0, 0xB01F0700, 0x0, 0x0, 0x0, 0x0, 0x0, 0x0⟩,
  ⟨FEN_STR_JSEQ 0, 0x8, 16, 0x4, 1, 0x0, 0xFFFFFFFF, 0x0, 0x0, 0x0, 0x0, 0x0, 0x0⟩]
  ++ ringGroup 0xCA000000 0x100 ++ ((List.range 16).map fun r => ringGroup 0xCA000000 (0x200 + 0x20 * r)).flatten
/-- The registers of ARB. -/
def arbRegs : List RegDesc :=
  [⟨ARB_CTRL, 0x4, 1, 0x4, 1, 0x1, 0x0, 0x0, 0x0, 0x0, 0x0, 0x0, 0x0⟩,
  ⟨ARB_CFG 0, 0x10, 2, 0x4, 1, 0x1, 0x0, 0x0, 0x0, 0x0, 0x0, 0x0, 0x0⟩,
  ⟨ARB_STAT 0, 0x10, 2, 0x4, 1, 0x0, 0xC0001F03, 0x0, 0x0, 0x0, 0x0, 0x0, 0x0⟩,
  ⟨ARB_CNT 0, 0x10, 2, 0x4, 1, 0x0, 0x0, 0x0, 0x0, 0xFFFF, 0x0, 0x0, 0x0⟩,
  ⟨ARB_HREQ, 0x4, 1, 0x4, 1, 0x80000000, 0x40000000, 0x0, 0x20000000, 0x0, 0x0, 0x0, 0x0⟩,
  ⟨ARB_REQ 0, 0x8, 24, 0x4, 1, 0x0, 0xC0000003, 0x0, 0x20000000, 0x0, 0x0, 0x0, 0x0⟩,
  ⟨ARB_WAIT 0, 0x8, 24, 0x4, 1, 0x0, 0xFFFFFFFF, 0x0, 0x0, 0x0, 0x0, 0x0, 0x0⟩]
  ++ ringGroup 0xCB000000 0x100
/-- The registers of FUS. -/
def fusRegs : List RegDesc :=
  [⟨FUS_CTRL, 0x4, 1, 0x4, 1, 0x1, 0x0, 0x0, 0x0, 0x0, 0x0, 0x0, 0x0⟩,
  ⟨FUS_STATUS, 0x4, 1, 0x4, 1, 0x0, 0xC000001F, 0x0, 0x0, 0x0, 0x0, 0x0, 0x0⟩,
  ⟨FUS_GRID_CAP, 0x4, 1, 0x4, 1, 0x0, 0xFFFFFFFF, 0x0, 0x0, 0x0, 0x0, 0xFFFFFFFF, 0x0⟩,
  ⟨FUS_ORG_X, 0x4, 1, 0x4, 1, 0x0, 0x0, 0x0, 0x0, 0x0, 0xFFFFFFFF, 0x0, 0x0⟩,
  ⟨FUS_ORG_Y, 0x4, 1, 0x4, 1, 0x0, 0x0, 0x0, 0x0, 0x0, 0xFFFFFFFF, 0x0, 0x0⟩,
  ⟨FUS_INST_CFG, 0x4, 1, 0x4, 1, 0x0, 0x0, 0x0, 0x0, 0x0, 0x3FFFFFF, 0x0, 0x321E32⟩,
  ⟨FUS_CARRY, 0x4, 1, 0x4, 1, 0x7, 0x0, 0x0, 0x0, 0x0, 0x0, 0x0, 0x0⟩,
  ⟨FUS_MOT_CFG, 0x4, 1, 0x4, 1, 0xFF1F1F, 0x0, 0x0, 0x0, 0x0, 0x0, 0x0, 0x321F1F⟩,
  ⟨FUS_CV_BASE_LO, 0x4, 1, 0x4, 1, 0x0, 0x0, 0x0, 0x0, 0x0, 0xFFFFF000, 0x0, 0x0⟩,
  ⟨FUS_CV_BASE_HI, 0x4, 1, 0x4, 1, 0x0, 0x0, 0x0, 0x0, 0x0, 0xFFFFFFFF, 0x0, 0x0⟩,
  ⟨FUS_CV_CFG, 0x4, 1, 0x4, 1, 0x0, 0x0, 0x0, 0x0, 0x0, 0xF, 0x0, 0x2⟩,
  ⟨FUS_CV_STRIDE, 0x4, 1, 0x4, 1, 0x0, 0xFFFF, 0x0, 0x0, 0x0, 0x0, 0xFFFF, 0x0⟩,
  ⟨FUS_HEAD, 0x4, 1, 0x4, 1, 0x0, 0x0, 0x0, 0x0, 0x0, 0xFFFFFFFF, 0x0, 0x0⟩,
  ⟨FUS_LAST, 0x4, 1, 0x4, 1, 0x0, 0xFFFFFFFF, 0x0, 0x0, 0x0, 0x0, 0x0, 0x0⟩,
  ⟨FUS_LAST_LTC_LO, 0x4, 1, 0x4, 1, 0x0, 0xFFFFFFFF, 0x0, 0x0, 0x0, 0x0, 0x0, 0x0⟩,
  ⟨FUS_LAST_LTC_HI, 0x4, 1, 0x4, 1, 0x0, 0xFFFFFFFF, 0x0, 0x0, 0x0, 0x0, 0x0, 0x0⟩,
  ⟨FUS_CNT, 0x4, 1, 0x4, 1, 0x0, 0x0, 0x0, 0x0, 0xFFFFFFFF, 0x0, 0x0, 0x0⟩,
  ⟨FUS_LATE_CNT, 0x4, 1, 0x4, 1, 0x0, 0x0, 0x0, 0x0, 0xFFFF, 0x0, 0x0, 0x0⟩,
  ⟨FUS_DWIN_LO 0, 0x10, 4, 0x4, 1, 0x0, 0x0, 0x0, 0x0, 0x0, 0xFFFFF000, 0x0, 0x0⟩,
  ⟨FUS_DWIN_HI 0, 0x10, 4, 0x4, 1, 0x0, 0x0, 0x0, 0x0, 0x0, 0xFFFFFFFF, 0x0, 0x0⟩,
  ⟨FUS_DWIN_SIZE 0, 0x10, 4, 0x4, 1, 0x0, 0x0, 0x0, 0x0, 0x0, 0xFFFF, 0x0, 0x0⟩,
  ⟨FUS_REC_BASE_LO, 0x4, 1, 0x4, 1, 0x0, 0x0, 0x0, 0x0, 0x0, 0xFFFFF000, 0x0, 0x0⟩,
  ⟨FUS_REC_BASE_HI, 0x4, 1, 0x4, 1, 0x0, 0x0, 0x0, 0x0, 0x0, 0xFFFFFFFF, 0x0, 0x0⟩,
  ⟨FUS_REC_CFG, 0x4, 1, 0x4, 1, 0x0, 0x0, 0x0, 0x0, 0x0, 0xF, 0x0, 0x6⟩]
  ++ [⟨FUS_REC_PI, 0x4, 1, 0x4, 1, 0x0, 0x1FFF, 0x0, 0x0, 0x0, 0x0, 0x0, 0x0⟩,
  ⟨FUS_REC_CI, 0x4, 1, 0x4, 1, 0x1FFF, 0x0, 0x0, 0x0, 0x0, 0x0, 0x0, 0x0⟩,
  ⟨FUS_REC_DROP, 0x4, 1, 0x4, 1, 0x0, 0x0, 0x0, 0x0, 0xFFFF, 0x0, 0x0, 0x0⟩,
  ⟨FUS_IMU0, 0x4, 1, 0x4, 1, 0x0, 0xFFFFFFFF, 0x0, 0x0, 0x0, 0x0, 0x0, 0x0⟩,
  ⟨FUS_IMU1, 0x4, 1, 0x4, 1, 0x0, 0xFFFFFFFF, 0x0, 0x0, 0x0, 0x0, 0x0, 0x0⟩,
  ⟨FUS_IMU2, 0x4, 1, 0x4, 1, 0x0, 0xFFFFFFFF, 0x0, 0x0, 0x0, 0x0, 0x0, 0x0⟩,
  ⟨FUS_IMU_LTC_LO, 0x4, 1, 0x4, 1, 0x0, 0xFFFFFFFF, 0x0, 0x0, 0x0, 0x0, 0x0, 0x0⟩,
  ⟨FUS_IMU_LTC_HI, 0x4, 1, 0x4, 1, 0x0, 0xFFFFFFFF, 0x0, 0x0, 0x0, 0x0, 0x0, 0x0⟩,
  ⟨FUS_S_STAT 0, 0x100, 24, 0x4, 1, 0x0, 0xF01F3100, 0x0, 0xF, 0x0, 0x0, 0x0, 0x0⟩,
  ⟨FUS_S_CNT 0, 0x100, 24, 0x4, 1, 0x0, 0x0, 0x0, 0x0, 0xFFFFFFFF, 0x0, 0x0, 0x0⟩,
  ⟨FUS_S_CNT2 0, 0x100, 24, 0x4, 1, 0x0, 0x0, 0x0, 0x0, 0xFFFFFFFF, 0x0, 0x0, 0x0⟩,
  ⟨FUS_S_LAST_LO 0, 0x100, 24, 0x4, 1, 0x0, 0xFFFFFFFF, 0x0, 0x0, 0x0, 0x0, 0x0, 0x0⟩,
  ⟨FUS_S_LAST_HI 0, 0x100, 24, 0x4, 1, 0x0, 0xFFFFFFFF, 0x0, 0x0, 0x0, 0x0, 0x0, 0x0⟩,
  ⟨FUS_S_CAL_CTRL 0, 0x100, 24, 0x4, 1, 0x0, 0x40000000, 0x80000000, 0x0, 0x0, 0x0, 0x0, 0x0⟩,
  ⟨FUS_S_CALN 0 0, 0x100, 24, 0x4, 12, 0xFFFFFFFF, 0x0, 0x0, 0x0, 0x0, 0x0, 0x0, 0x0⟩,
  ⟨FUS_S_CAL 0 0, 0x100, 24, 0x4, 12, 0x0, 0xFFFFFFFF, 0x0, 0x0, 0x0, 0x0, 0x0, 0x0⟩,
  ⟨FUS_VOTE_CFG, 0x4, 1, 0x4, 1, 0xFFFFFF00, 0x0, 0x0, 0x0, 0x0, 0x0, 0x0, 0x3081000⟩,
  ⟨FUS_VOTE_MINC, 0x4, 1, 0x4, 1, 0x7FF, 0x0, 0x0, 0x0, 0x0, 0x0, 0x0, 0x10⟩,
  ⟨FUS_CAL_CFG, 0x4, 1, 0x4, 1, 0x800000FF, 0x0, 0x0, 0x0, 0x0, 0x0, 0x0, 0x0⟩,
  ⟨FUS_CAL_BUD, 0x4, 1, 0x4, 1, 0xFFFFFFFF, 0x0, 0x0, 0x0, 0x0, 0x0, 0x0, 0xDA30032⟩,
  ⟨FUS_TILE_SUM, 0x4, 1, 0x4, 1, 0x0, 0x7FF07FF, 0x0, 0x0, 0x0, 0x0, 0x0, 0x0⟩,
  ⟨FUS_VOTE_CNT, 0x4, 1, 0x4, 1, 0x0, 0x0, 0x0, 0x0, 0xFFFFFFFF, 0x0, 0x0, 0x0⟩,
  ⟨FUS_S_RF_CFG 0, 0x100, 24, 0x4, 1, 0xDFFFFF1F, 0x0, 0x0, 0x0, 0x0, 0x0, 0x0, 0x1004000⟩,
  ⟨FUS_S_CALV 0, 0x100, 24, 0x4, 1, 0x0, 0xC800FFFF, 0x0, 0x30000000, 0x0, 0x0, 0x0, 0x80000000⟩]
  ++ [⟨FUS_S_EST_ROLL 0, 0x100, 24, 0x4, 1, 0x0, 0xFFFFFFFF, 0x0, 0x0, 0x0, 0x0, 0x0, 0x0⟩,
  ⟨FUS_S_EST_PITCH 0, 0x100, 24, 0x4, 1, 0x0, 0xFFFFFFFF, 0x0, 0x0, 0x0, 0x0, 0x0, 0x0⟩,
  ⟨FUS_S_EST_YAW 0, 0x100, 24, 0x4, 1, 0x0, 0xFFFFFFFF, 0x0, 0x0, 0x0, 0x0, 0x0, 0x0⟩,
  ⟨FUS_S_EST_TX 0, 0x100, 24, 0x4, 1, 0x0, 0xFFFFFFFF, 0x0, 0x0, 0x0, 0x0, 0x0, 0x0⟩,
  ⟨FUS_S_EST_TY 0, 0x100, 24, 0x4, 1, 0x0, 0xFFFFFFFF, 0x0, 0x0, 0x0, 0x0, 0x0, 0x0⟩,
  ⟨FUS_S_EST_TZ 0, 0x100, 24, 0x4, 1, 0x0, 0xFFFFFFFF, 0x0, 0x0, 0x0, 0x0, 0x0, 0x0⟩,
  ⟨FUS_S_RF_USED 0, 0x100, 24, 0x4, 1, 0x0, 0xFFFFFFFF, 0x0, 0x0, 0x0, 0x0, 0x0, 0x0⟩,
  ⟨FUS_S_VOTE 0, 0x100, 24, 0x4, 1, 0x0, 0x7FF07FF, 0x80000000, 0x0, 0x0, 0x0, 0x0, 0x0⟩]
  ++ ringGroup 0xCC000000 0x100
/-- The registers of YLD. -/
def yldRegs : List RegDesc :=
  [⟨YLD_CTRL, 0x4, 1, 0x4, 1, 0x1, 0x0, 0x0, 0x0, 0x0, 0x0, 0x0, 0x0⟩,
  ⟨YLD_STATUS, 0x4, 1, 0x4, 1, 0x0, 0x83FF000F, 0x0, 0x0, 0x0, 0x0, 0x0, 0x0⟩,
  ⟨YLD_CFG, 0x4, 1, 0x4, 1, 0x0, 0x0, 0x0, 0x0, 0x0, 0x1FFFFFFF, 0x0, 0x3E82EE0⟩,
  ⟨YLD_LTD, 0x4, 1, 0x4, 1, 0x0, 0x0, 0x0, 0x0, 0x0, 0xFFFF, 0x0, 0x0⟩,
  ⟨YLD_CAL, 0x4, 1, 0x4, 1, 0xFFFFFFFF, 0x0, 0x0, 0x0, 0x0, 0x0, 0x0, 0x3F800000⟩,
  ⟨YLD_MOIST_CFG, 0x4, 1, 0x4, 1, 0x3FFF0000, 0x0, 0x0, 0x0, 0x0, 0x8000003F, 0x0, 0x5780000⟩,
  ⟨YLD_MOIST_OBJ, 0x4, 1, 0x4, 1, 0x0, 0x0, 0x0, 0x0, 0x0, 0xFFFFFFFF, 0x0, 0x0⟩,
  ⟨YLD_HDR_CFG, 0x4, 1, 0x4, 1, 0xFFFFFFFF, 0x0, 0x0, 0x0, 0x0, 0x0, 0x0, 0x3E82328⟩,
  ⟨YLD_HDR_POS, 0x4, 1, 0x4, 1, 0xFFFFFFFF, 0x0, 0x0, 0x0, 0x0, 0x0, 0x0, 0x0⟩,
  ⟨YLD_HDR_HOST, 0x4, 1, 0x4, 1, 0xFFFF, 0x0, 0x0, 0x0, 0x0, 0x0, 0x0, 0x0⟩,
  ⟨YLD_CLOSE, 0x4, 1, 0x4, 1, 0xFF, 0x0, 0x0, 0x0, 0x0, 0x0, 0x0, 0x1E⟩,
  ⟨YLD_CNT, 0x4, 1, 0x4, 1, 0x0, 0x0, 0x0, 0x0, 0xFFFFFFFF, 0x0, 0x0, 0x0⟩,
  ⟨YLD_UNMAP, 0x4, 1, 0x4, 1, 0x0, 0x0, 0x0, 0x0, 0xFFFFFFFF, 0x0, 0x0, 0x0⟩,
  ⟨YLD_LOSS 0, 0x4, 8, 0x4, 1, 0x80FFFFFF, 0x0, 0x0, 0x0, 0x0, 0x0, 0x0, 0x0⟩,
  ⟨YLD_DWIN_LO 0, 0x10, 2, 0x4, 1, 0x0, 0x0, 0x0, 0x0, 0x0, 0xFFFFF000, 0x0, 0x0⟩,
  ⟨YLD_DWIN_HI 0, 0x10, 2, 0x4, 1, 0x0, 0x0, 0x0, 0x0, 0x0, 0xFFFFFFFF, 0x0, 0x0⟩,
  ⟨YLD_DWIN_SIZE 0, 0x10, 2, 0x4, 1, 0x0, 0x0, 0x0, 0x0, 0x0, 0xFFFF, 0x0, 0x0⟩,
  ⟨YLD_L_STAT 0, 0x10, 8, 0x4, 1, 0x0, 0xC07F007F, 0x0, 0x0, 0x0, 0x0, 0x0, 0x0⟩,
  ⟨YLD_L_WPOS 0, 0x10, 8, 0x4, 1, 0x0, 0x1FFFFFF, 0x0, 0x0, 0x0, 0x0, 0x0, 0x0⟩,
  ⟨YLD_L_TSEQ 0, 0x10, 8, 0x4, 1, 0x0, 0xFFFFFFFF, 0x0, 0x0, 0x0, 0x0, 0x0, 0x0⟩]
  ++ ringGroup 0xCD000000 0x100
/-- The registers of BUS. -/
def busRegs : List RegDesc :=
  [⟨BUS_CTRL, 0x4, 1, 0x4, 1, 0x1, 0x0, 0x0, 0x0, 0x0, 0x0, 0x0, 0x0⟩,
  ⟨BUS_STATUS, 0x4, 1, 0x4, 1, 0x0, 0xFFF3F0F, 0x0, 0x0, 0x0, 0x0, 0x0, 0x0⟩,
  ⟨BUS_DWIN_LO 0, 0x10, 2, 0x4, 1, 0x0, 0x0, 0x0, 0x0, 0x0, 0xFFFFF000, 0x0, 0x0⟩,
  ⟨BUS_DWIN_HI 0, 0x10, 2, 0x4, 1, 0x0, 0x0, 0x0, 0x0, 0x0, 0xFFFFFFFF, 0x0, 0x0⟩,
  ⟨BUS_DWIN_SIZE 0, 0x10, 2, 0x4, 1, 0x0, 0x0, 0x0, 0x0, 0x0, 0xFFFF, 0x0, 0x0⟩,
  ⟨BUS_TP_RXBASE_LO, 0x4, 1, 0x4, 1, 0x0, 0x0, 0x0, 0x0, 0x0, 0xFFFFF000, 0x0, 0x0⟩,
  ⟨BUS_TP_RXBASE_HI, 0x4, 1, 0x4, 1, 0x0, 0x0, 0x0, 0x0, 0x0, 0xFFFFFFFF, 0x0, 0x0⟩,
  ⟨BUS_TP_RXMAX, 0x4, 1, 0x4, 1, 0x0, 0x0, 0x0, 0x0, 0x0, 0x1FFFFFF, 0x0, 0x6F9⟩,
  ⟨BUS_Q_STAT 0, 0x20, 8, 0x4, 1, 0x0, 0x87000000, 0x0, 0x0, 0xFFFF, 0x0, 0x0, 0x0⟩,
  ⟨BUS_Q_PI 0, 0x20, 8, 0x4, 1, 0x0, 0x1FF, 0x0, 0x0, 0x0, 0x0, 0x0, 0x0⟩,
  ⟨BUS_Q_CI 0, 0x20, 8, 0x4, 1, 0x1FF, 0x0, 0x0, 0x0, 0x0, 0x0, 0x0, 0x0⟩,
  ⟨BUS_C_CFG 0, 0x100, 8, 0x4, 1, 0x30000000, 0x0, 0x0, 0x0, 0x0, 0xC3000007, 0x0, 0x10000000⟩,
  ⟨BUS_C_NBT 0, 0x100, 8, 0x4, 1, 0x0, 0x0, 0x0, 0x0, 0x0, 0xFFFFFEFF, 0x0, 0x1E3E1E03⟩,
  ⟨BUS_C_DBT 0, 0x100, 8, 0x4, 1, 0x0, 0x0, 0x0, 0x0, 0x0, 0xF1F0F1F, 0x0, 0x71E0700⟩,
  ⟨BUS_C_TDC 0, 0x100, 8, 0x4, 1, 0x0, 0x0, 0x0, 0x0, 0x0, 0x807F, 0x0, 0x0⟩,
  ⟨BUS_C_STAT 0, 0x100, 8, 0x4, 1, 0x0, 0x301FFFF, 0x80000000, 0x0, 0x0, 0x0, 0x0, 0x0⟩,
  ⟨BUS_C_ALERT 0, 0x100, 8, 0x4, 1, 0x0, 0x0, 0x0, 0xFF, 0x0, 0x0, 0x0, 0x0⟩,
  ⟨BUS_C_CLASH 0, 0x100, 8, 0x4, 1, 0x0, 0x3FFFFFFF, 0x0, 0x0, 0x0, 0x0, 0x0, 0x0⟩,
  ⟨BUS_C_CNT 0, 0x100, 8, 0x4, 1, 0x0, 0x0, 0x0, 0x0, 0xFFFFFFFF, 0x0, 0x0, 0x0⟩,
  ⟨BUS_C_TPADDR 0, 0x100, 8, 0x4, 1, 0xFFFFFFFF, 0x0, 0x0, 0x0, 0x0, 0x0, 0x0, 0xFEFEFEFE⟩,
  ⟨BUS_C_TPLIM 0, 0x100, 8, 0x4, 1, 0xFFFFFF3F, 0x0, 0x0, 0x0, 0x0, 0x0, 0x0, 0x14103202⟩,
  ⟨BUS_C_TPCNT 0, 0x100, 8, 0x4, 1, 0x0, 0x0, 0x0, 0x0, 0xFFFFFFFF, 0x0, 0x0, 0x0⟩,
  ⟨BUS_C_TPCNT2 0, 0x100, 8, 0x4, 1, 0x0, 0x0, 0x0, 0x0, 0xFFFF, 0x0, 0x0, 0x0⟩,
  ⟨BUS_C_CAP 0, 0x100, 8, 0x4, 1, 0x0, 0x7, 0x0, 0x0, 0x0, 0x0, 0x3, 0x0⟩]
  ++ [⟨BUS_OBJ_STAT 0, 0x80, 2048, 0x4, 1, 0x0, 0xC7000010, 0x0, 0x0, 0xF, 0x0, 0x0, 0x0⟩,
  ⟨BUS_OBJ_CTRL 0, 0x80, 2048, 0x4, 1, 0x0, 0x0, 0x3, 0x0, 0x0, 0x0, 0x0, 0x0⟩,
  ⟨BUS_OBJ_REC 0 0, 0x80, 2048, 0x4, 22, 0x0, 0xFFFFFFFF, 0x0, 0x0, 0x0, 0x0, 0x0, 0x0⟩]
  ++ ((List.range 8).map fun n => ringGroup 0xCE000000 (0x100 + 0x20 * n)).flatten
/-- The registers of ETH. -/
def ethRegs : List RegDesc :=
  [⟨ETH_CTRL, 0x4, 1, 0x4, 1, 0x1, 0x0, 0x0, 0x0, 0x0, 0x0, 0x0, 0x0⟩,
  ⟨ETH_MAC_LO, 0x4, 1, 0x4, 1, 0x0, 0xFFFFFFFF, 0x0, 0x0, 0x0, 0x0, 0x0, 0x0⟩,
  ⟨ETH_MAC_HI, 0x4, 1, 0x4, 1, 0x0, 0xFFFF, 0x0, 0x0, 0x0, 0x0, 0x0, 0x0⟩,
  ⟨ETH_IP, 0x4, 1, 0x4, 1, 0x0, 0x0, 0x0, 0x0, 0x0, 0xFFFFFFFF, 0x0, 0x0⟩,
  ⟨ETH_SW_CFG, 0x4, 1, 0x4, 1, 0xFFFF, 0x0, 0x0, 0x0, 0x0, 0x0, 0x0, 0x12C⟩,
  ⟨ETH_SW_CNT, 0x4, 1, 0x4, 1, 0x0, 0x0, 0x0, 0x0, 0xFFFFFFFF, 0x0, 0x0, 0x0⟩,
  ⟨ETH_PORT_CFG 0, 0x10, 4, 0x4, 1, 0xFFF, 0x60000000, 0x0, 0x0, 0x0, 0x80000000, 0x60000000, 0x1⟩,
  ⟨ETH_POL 0, 0x10, 4, 0x4, 1, 0xFFFFFFFF, 0x0, 0x0, 0x0, 0x0, 0x0, 0x0, 0x40⟩,
  ⟨ETH_PORT_STAT 0, 0x10, 4, 0x4, 1, 0x0, 0x80000000, 0x0, 0x0, 0xFFFFFF, 0x0, 0x0, 0x0⟩,
  ⟨ETH_VLAN 0, 0x4, 16, 0x4, 1, 0x9F1F0FFF, 0x0, 0x0, 0x0, 0x0, 0x0, 0x0, 0x0⟩,
  ⟨ETH_GPTP_CFG, 0x4, 1, 0x4, 1, 0xFFFF, 0x0, 0x0, 0x0, 0x0, 0x83000000, 0x0, 0x320⟩,
  ⟨ETH_GPTP_STAT, 0x4, 1, 0x4, 1, 0x0, 0x8000FFFF, 0x0, 0x0, 0x0, 0x0, 0x0, 0x0⟩,
  ⟨ETH_FLOW_CFG 0, 0x20, 8, 0x4, 1, 0x0, 0x0, 0x0, 0x0, 0x0, 0x8FFFFFFF, 0x0, 0x0⟩,
  ⟨ETH_FLOW_BASE_LO 0, 0x20, 8, 0x4, 1, 0x0, 0x0, 0x0, 0x0, 0x0, 0xFFFFF000, 0x0, 0x0⟩,
  ⟨ETH_FLOW_BASE_HI 0, 0x20, 8, 0x4, 1, 0x0, 0x0, 0x0, 0x0, 0x0, 0xFFFFFFFF, 0x0, 0x0⟩,
  ⟨ETH_FLOW_BUF 0, 0x20, 8, 0x4, 1, 0x0, 0x0, 0x0, 0x0, 0x0, 0x7FFF, 0x0, 0x4⟩,
  ⟨ETH_FLOW_CNT 0, 0x20, 8, 0x4, 1, 0x0, 0x0, 0x0, 0x0, 0xFFFFFFFF, 0x0, 0x0, 0x0⟩,
  ⟨ETH_FLT_CFG, 0x4, 1, 0x4, 1, 0x0, 0x0, 0x0, 0x0, 0x0, 0xFFFFFFFF, 0x0, 0x0⟩,
  ⟨ETH_FLT_PORT, 0x4, 1, 0x4, 1, 0x0, 0x0, 0x0, 0x0, 0x0, 0xFFFF, 0x0, 0x0⟩,
  ⟨ETH_FLT_RX_BASE_LO, 0x4, 1, 0x4, 1, 0x0, 0x0, 0x0, 0x0, 0x0, 0xFFFFF000, 0x0, 0x0⟩,
  ⟨ETH_FLT_RX_BASE_HI, 0x4, 1, 0x4, 1, 0x0, 0x0, 0x0, 0x0, 0x0, 0xFFFFFFFF, 0x0, 0x0⟩,
  ⟨ETH_FLT_RX_CFG, 0x4, 1, 0x4, 1, 0x0, 0x0, 0x0, 0x0, 0x0, 0xF, 0x0, 0x6⟩,
  ⟨ETH_FLT_RX_PI, 0x4, 1, 0x4, 1, 0x0, 0x7FF, 0x0, 0x0, 0x0, 0x0, 0x0, 0x0⟩,
  ⟨ETH_FLT_RX_CI, 0x4, 1, 0x4, 1, 0x7FF, 0x0, 0x0, 0x0, 0x0, 0x0, 0x0, 0x0⟩]
  ++ [⟨ETH_FLT_CNT, 0x4, 1, 0x4, 1, 0x0, 0x0, 0x0, 0x0, 0xFFFFFFFF, 0x0, 0x0, 0x0⟩,
  ⟨ETH_FLT_CNT2, 0x4, 1, 0x4, 1, 0x0, 0x0, 0x0, 0x0, 0xFFFF, 0x0, 0x0, 0x0⟩,
  ⟨ETH_HRX_BASE_LO, 0x4, 1, 0x4, 1, 0x0, 0x0, 0x0, 0x0, 0x0, 0xFFFFF000, 0x0, 0x0⟩,
  ⟨ETH_HRX_BASE_HI, 0x4, 1, 0x4, 1, 0x0, 0x0, 0x0, 0x0, 0x0, 0xFFFFFFFF, 0x0, 0x0⟩,
  ⟨ETH_HRX_CFG, 0x4, 1, 0x4, 1, 0x0, 0x0, 0x0, 0x0, 0x0, 0xF, 0x0, 0x6⟩,
  ⟨ETH_HRX_PI, 0x4, 1, 0x4, 1, 0x0, 0x7FF, 0x0, 0x0, 0x0, 0x0, 0x0, 0x0⟩,
  ⟨ETH_HRX_CI, 0x4, 1, 0x4, 1, 0x7FF, 0x0, 0x0, 0x0, 0x0, 0x0, 0x0, 0x0⟩,
  ⟨ETH_HRX_DROP, 0x4, 1, 0x4, 1, 0x0, 0x0, 0x0, 0x0, 0xFFFF, 0x0, 0x0, 0x0⟩,
  ⟨ETH_DWIN_LO 0, 0x10, 4, 0x4, 1, 0x0, 0x0, 0x0, 0x0, 0x0, 0xFFFFF000, 0x0, 0x0⟩,
  ⟨ETH_DWIN_HI 0, 0x10, 4, 0x4, 1, 0x0, 0x0, 0x0, 0x0, 0x0, 0xFFFFFFFF, 0x0, 0x0⟩,
  ⟨ETH_DWIN_SIZE 0, 0x10, 4, 0x4, 1, 0x0, 0x0, 0x0, 0x0, 0x0, 0xFFFF, 0x0, 0x0⟩,
  ⟨ETH_KEY_STAT 0, 0x4, 64, 0x4, 1, 0x0, 0xC0000000, 0x0, 0x0, 0x0, 0x0, 0x0, 0x0⟩]
  ++ ringGroup 0xCF000000 0x100
/-- The registers of PAIR. -/
def pairRegs : List RegDesc :=
  [⟨PAIR_CTRL, 0x4, 1, 0x4, 1, 0x1, 0x0, 0x0, 0x0, 0x0, 0x0, 0x0, 0x0⟩,
  ⟨PAIR_CFG, 0x4, 1, 0x4, 1, 0x0, 0x0, 0x0, 0x0, 0x0, 0x83FF0003, 0x0, 0xC80000⟩,
  ⟨PAIR_STAT, 0x4, 1, 0x4, 1, 0x0, 0xFB00FFFF, 0x0, 0x0, 0x0, 0x0, 0x0, 0x0⟩,
  ⟨PAIR_OFS, 0x4, 1, 0x4, 1, 0x0, 0xFFFFFFFF, 0x0, 0x0, 0x0, 0x0, 0x0, 0x0⟩,
  ⟨PAIR_DLY, 0x4, 1, 0x4, 1, 0x0, 0xFFFFFFFF, 0x0, 0x0, 0x0, 0x0, 0x0, 0x0⟩,
  ⟨PAIR_CNT, 0x4, 1, 0x4, 1, 0x0, 0x0, 0x0, 0x0, 0xFFFFFFFF, 0x0, 0x0, 0x0⟩,
  ⟨PAIR_LANE 0, 0x4, 2, 0x4, 1, 0x0, 0x0, 0x0, 0x0, 0xFFFF, 0x0, 0x0, 0x0⟩,
  ⟨PAIR_CVI_BASE_LO, 0x4, 1, 0x4, 1, 0x0, 0x0, 0x0, 0x0, 0x0, 0xFFFFF000, 0x0, 0x0⟩,
  ⟨PAIR_CVI_BASE_HI, 0x4, 1, 0x4, 1, 0x0, 0x0, 0x0, 0x0, 0x0, 0xFFFFFFFF, 0x0, 0x0⟩,
  ⟨PAIR_CVI_BUF, 0x4, 1, 0x4, 1, 0x0, 0x0, 0x0, 0x0, 0x0, 0x7FFF, 0x0, 0x4⟩,
  ⟨PAIR_DWIN_LO 0, 0x10, 2, 0x4, 1, 0x0, 0x0, 0x0, 0x0, 0x0, 0xFFFFF000, 0x0, 0x0⟩,
  ⟨PAIR_DWIN_HI 0, 0x10, 2, 0x4, 1, 0x0, 0x0, 0x0, 0x0, 0x0, 0xFFFFFFFF, 0x0, 0x0⟩,
  ⟨PAIR_DWIN_SIZE 0, 0x10, 2, 0x4, 1, 0x0, 0x0, 0x0, 0x0, 0x0, 0xFFFF, 0x0, 0x0⟩,
  ⟨PAIR_SIGO 0, 0x4, 64, 0x4, 1, 0x8000007F, 0x0, 0x0, 0x0, 0x0, 0x0, 0x0, 0x0⟩]
  ++ ringGroup 0xD0000000 0x100
/-- The registers of PNL. -/
def pnlRegs : List RegDesc :=
  [⟨PNL_CTRL, 0x4, 1, 0x4, 1, 0x1, 0x0, 0x0, 0x0, 0x0, 0x0, 0x0, 0x0⟩,
  ⟨PNL_STAT, 0x4, 1, 0x4, 1, 0x0, 0xFD000007, 0x0, 0x21F0000, 0x0, 0x0, 0x0, 0x0⟩,
  ⟨PNL_GEOM, 0x4, 1, 0x4, 1, 0x0, 0x0, 0x0, 0x0, 0x0, 0xC7FF07FF, 0x0, 0x64004B0⟩,
  ⟨PNL_TIM, 0x4, 1, 0x4, 1, 0x0, 0x0, 0x0, 0x0, 0x0, 0xFF0FFFFF, 0x0, 0x32031808⟩,
  ⟨PNL_RAIL, 0x4, 1, 0x4, 1, 0x0, 0x0, 0x0, 0x0, 0x0, 0xFF00FF, 0x0, 0xC800C8⟩,
  ⟨PNL_VCOM, 0x4, 1, 0x4, 1, 0xFFF, 0x0, 0x0, 0x0, 0x0, 0x0, 0x0, 0x5DC⟩,
  ⟨PNL_FL, 0x4, 1, 0x4, 1, 0x800001FF, 0x0, 0x0, 0x0, 0x0, 0x0, 0x0, 0x0⟩,
  ⟨PNL_TEMP, 0x4, 1, 0x4, 1, 0x8FFF0000, 0xFFF, 0x0, 0x0, 0x0, 0x0, 0x0, 0x320000⟩,
  ⟨PNL_SEQ, 0x4, 1, 0x4, 1, 0x0, 0x0, 0x0, 0x0, 0x0, 0xFFFF, 0x0, 0x3C32⟩,
  ⟨PNL_CNT, 0x4, 1, 0x4, 1, 0x0, 0x0, 0x0, 0x0, 0xFFFFFFFF, 0x0, 0x0, 0x0⟩,
  ⟨PNL_WF_LO 0, 0x8, 8, 0x4, 1, 0x0, 0x0, 0x0, 0x0, 0x0, 0xFFFFFFC0, 0x0, 0x0⟩,
  ⟨PNL_WF_HI 0, 0x8, 8, 0x4, 1, 0x0, 0x0, 0x0, 0x0, 0x0, 0xFFFFFFFF, 0x0, 0x0⟩,
  ⟨PNL_DWIN_LO 0, 0x10, 2, 0x4, 1, 0x0, 0x0, 0x0, 0x0, 0x0, 0xFFFFF000, 0x0, 0x0⟩,
  ⟨PNL_DWIN_HI 0, 0x10, 2, 0x4, 1, 0x0, 0x0, 0x0, 0x0, 0x0, 0xFFFFFFFF, 0x0, 0x0⟩,
  ⟨PNL_DWIN_SIZE 0, 0x10, 2, 0x4, 1, 0x0, 0x0, 0x0, 0x0, 0x0, 0xFFFF, 0x0, 0x0⟩]
  ++ ringGroup 0xD1000000 0x100
/-- The registers of REC. -/
def recRegs : List RegDesc :=
  [⟨REC_CTRL, 0x4, 1, 0x4, 1, 0x1, 0x0, 0x0, 0x0, 0x0, 0x0, 0x0, 0x0⟩,
  ⟨REC_STATUS, 0x4, 1, 0x4, 1, 0x0, 0xC00001FF, 0x0, 0x0, 0x0, 0x0, 0x0, 0x0⟩,
  ⟨REC_FREE, 0x4, 1, 0x4, 1, 0x0, 0x3FFF, 0x0, 0x0, 0x0, 0x0, 0x0, 0x0⟩,
  ⟨REC_RNUM_LO, 0x4, 1, 0x4, 1, 0x0, 0xFFFFFFFF, 0x0, 0x0, 0x0, 0x0, 0x0, 0x0⟩,
  ⟨REC_RNUM_HI, 0x4, 1, 0x4, 1, 0x0, 0xFFFFFFFF, 0x0, 0x0, 0x0, 0x0, 0x0, 0x0⟩,
  ⟨REC_CNT, 0x4, 1, 0x4, 1, 0x0, 0x0, 0x0, 0x0, 0xFFFFFFFF, 0x0, 0x0, 0x0⟩,
  ⟨REC_DROP, 0x4, 1, 0x4, 1, 0x0, 0x0, 0x0, 0x0, 0xFFFFFFFF, 0x0, 0x0, 0x0⟩,
  ⟨REC_TORN, 0x4, 1, 0x4, 1, 0x0, 0x3FFF, 0x0, 0x0, 0x0, 0x0, 0x0, 0x0⟩,
  ⟨REC_EXP_CNT, 0x4, 1, 0x4, 1, 0x0, 0xFFFFFFFF, 0x0, 0x0, 0x0, 0x0, 0x0, 0x0⟩,
  ⟨REC_EXP_LAST_LO, 0x4, 1, 0x4, 1, 0x0, 0xFFFFFFFF, 0x0, 0x0, 0x0, 0x0, 0x0, 0x0⟩,
  ⟨REC_EXP_LAST_HI, 0x4, 1, 0x4, 1, 0x0, 0xFFFFFFFF, 0x0, 0x0, 0x0, 0x0, 0x0, 0x0⟩,
  ⟨REC_EXP_RES, 0x4, 1, 0x4, 1, 0x0, 0xFFFFFFFF, 0x0, 0x0, 0x0, 0x0, 0x0, 0x0⟩,
  ⟨REC_DWIN_LO, 0x4, 1, 0x4, 1, 0x0, 0x0, 0x0, 0x0, 0x0, 0xFFFFF000, 0x0, 0x0⟩,
  ⟨REC_DWIN_HI, 0x4, 1, 0x4, 1, 0x0, 0x0, 0x0, 0x0, 0x0, 0xFFFFFFFF, 0x0, 0x0⟩,
  ⟨REC_DWIN_SIZE, 0x4, 1, 0x4, 1, 0x0, 0x0, 0x0, 0x0, 0x0, 0xFFFF, 0x0, 0x0⟩,
  ⟨REC_S_STAT 0, 0x10, 256, 0x4, 1, 0x0, 0xB3000000, 0x0, 0x0, 0xFFFF, 0x0, 0x0, 0x0⟩,
  ⟨REC_S_SID 0, 0x10, 256, 0x4, 1, 0x0, 0xFFFFFFFF, 0x0, 0x0, 0x0, 0x0, 0x0, 0x0⟩,
  ⟨REC_S_NVAL 0, 0x10, 256, 0x4, 1, 0x0, 0xFFFFFFFF, 0x0, 0x0, 0x0, 0x0, 0x0, 0x0⟩,
  ⟨REC_SLOT 0 0, 0x100, 8192, 0x4, 64, 0x0, 0xFFFFFFFF, 0x0, 0x0, 0x0, 0x0, 0x0, 0x0⟩]
  ++ ringGroup 0xD2000000 0x100
/-- The registers of UPD. -/
def updRegs : List RegDesc :=
  [⟨UPD_CTRL, 0x4, 1, 0x4, 1, 0x1, 0x0, 0x0, 0x0, 0x0, 0x0, 0x0, 0x0⟩,
  ⟨UPD_STAT, 0x4, 1, 0x4, 1, 0x0, 0x9EFFFFFF, 0x0, 0x60000000, 0x0, 0x0, 0x0, 0x0⟩,
  ⟨UPD_PEND, 0x4, 1, 0x4, 1, 0x0, 0x3FF, 0x0, 0x0, 0x0, 0x0, 0x0, 0x0⟩,
  ⟨UPD_LC, 0x4, 1, 0x4, 1, 0x0, 0xF7, 0x0, 0x0, 0x0, 0x0, 0x0, 0x0⟩,
  ⟨UPD_SVN, 0x4, 1, 0x4, 1, 0x0, 0xFFFFFFFF, 0x0, 0x0, 0x0, 0x0, 0x0, 0x0⟩,
  ⟨UPD_PROG, 0x4, 1, 0x4, 1, 0x0, 0xFFFFFFFF, 0x0, 0x0, 0x0, 0x0, 0x0, 0x0⟩,
  ⟨UPD_DEVID_LO, 0x4, 1, 0x4, 1, 0x0, 0xFFFFFFFF, 0x0, 0x0, 0x0, 0x0, 0x0, 0x0⟩,
  ⟨UPD_DEVID_HI, 0x4, 1, 0x4, 1, 0x0, 0xFFFFFFFF, 0x0, 0x0, 0x0, 0x0, 0x0, 0x0⟩,
  ⟨UPD_NONCE 0, 0x4, 4, 0x4, 1, 0x0, 0xFFFFFFFF, 0x0, 0x0, 0x0, 0x0, 0x0, 0x0⟩,
  ⟨UPD_KEY 0, 0x4, 4, 0x4, 1, 0x0, 0x1, 0x0, 0x0, 0x0, 0x0, 0x0, 0x0⟩,
  ⟨UPD_DEVINFO, 0x4, 1, 0x4, 1, 0x0, 0xFF, 0x0, 0x0, 0x0, 0x0, 0x0, 0x0⟩,
  ⟨UPD_SLOT_LBA_LO 0, 0x8, 2, 0x4, 1, 0x0, 0xFFFFFFFF, 0x0, 0x0, 0x0, 0x0, 0x0, 0x0⟩,
  ⟨UPD_SLOT_LBA_HI 0, 0x8, 2, 0x4, 1, 0x0, 0xFFFFFFFF, 0x0, 0x0, 0x0, 0x0, 0x0, 0x0⟩,
  ⟨UPD_SLOT_BLKS, 0x4, 1, 0x4, 1, 0x0, 0xFFFFFFFF, 0x0, 0x0, 0x0, 0x0, 0x0, 0x0⟩,
  ⟨UPD_DWIN_LO, 0x4, 1, 0x4, 1, 0x0, 0x0, 0x0, 0x0, 0x0, 0xFFFFF000, 0x0, 0x0⟩,
  ⟨UPD_DWIN_HI, 0x4, 1, 0x4, 1, 0x0, 0x0, 0x0, 0x0, 0x0, 0xFFFFFFFF, 0x0, 0x0⟩,
  ⟨UPD_DWIN_SIZE, 0x4, 1, 0x4, 1, 0x0, 0x0, 0x0, 0x0, 0x0, 0xFFFF, 0x0, 0x0⟩,
  ⟨UPD_USB, 0x4, 1, 0x4, 1, 0x80000000, 0x60000000, 0x0, 0x0, 0xFFFF, 0x0, 0x0, 0x0⟩,
  ⟨UPD_USB_BASE_LO, 0x4, 1, 0x4, 1, 0x0, 0x0, 0x0, 0x0, 0x0, 0xFFFFF000, 0x0, 0x0⟩,
  ⟨UPD_USB_BASE_HI, 0x4, 1, 0x4, 1, 0x0, 0x0, 0x0, 0x0, 0x0, 0xFFFFFFFF, 0x0, 0x0⟩,
  ⟨UPD_USB_LEN, 0x4, 1, 0x4, 1, 0x0, 0x0, 0x0, 0x0, 0x0, 0x3FF, 0x0, 0x0⟩,
  ⟨UPD_USB_RCV, 0x4, 1, 0x4, 1, 0x0, 0xFFFFFFFF, 0x0, 0x0, 0x0, 0x0, 0x0, 0x0⟩,
  ⟨UPD_SET 0, 0x4, 507904, 0x4, 1, 0xFFFFFFFF, 0x0, 0x0, 0x0, 0x0, 0x0, 0x0, 0x0⟩]
  ++ ringGroup 0xD3000000 0x100

/-- The registers of the window that holds address `a` (Table 5-1: the window is bits 31:24 of the address). -/
def windowRegs (a : Nat) : List RegDesc :=
  match a / 0x1000000 with
  | 0xC0 => sysRegs
  | 0xD4 => kaRegs
  | 0xC2 => strRegs
  | 0xC1 => evtRegs
  | 0xC3 => tmsRegs
  | 0xC4 => inpRegs
  | 0xC5 => cleRegs
  | 0xC6 => vdrRegs
  | 0xC7 => safRegs
  | 0xC8 => gnbRegs
  | 0xC9 => camRegs
  | 0xCA => fenRegs
  | 0xCB => arbRegs
  | 0xCC => fusRegs
  | 0xCD => yldRegs
  | 0xCE => busRegs
  | 0xCF => ethRegs
  | 0xD0 => pairRegs
  | 0xD1 => pnlRegs
  | 0xD2 => recRegs
  | 0xD3 => updRegs
  | _ => []

/-- The register table's line for address `a`; none where R9 says the offset holds no register. -/
def findDesc (a : Nat) : Option RegDesc := (windowRegs a).find? (·.covers a)

/-- The value of the Reset column for the register at `a` (0 where no register lies, R9). -/
def resetOf (a : Nat) : Word :=
  match findDesc a with
  | some d => BitVec.ofNat 32 d.reset
  | none => 0#32

end Sys2Proof.Machine
end

