-- ==== Sys2Proof/Machine/State.lean ====
section
/-! DEFINITION. The state of the module as plain data. Software-visible registers live in `State.regs` at their addresses
(the register map gives each its fields and its reset value); what the spec describes behind the registers is held in one
structure per block, whose field defaults are the values right after reset. -/

namespace Sys2Proof.Machine

/-- The part (R1, Table 0-1). -/
inductive Part where
  | h24
  | s24
  deriving DecidableEq, Repr

/-- Reasons a step stops with a fault. -/
inductive Fault where
  /-- Raised by no command of this model: every command either has its effect or changes nothing. Safe. -/
  | none
  deriving DecidableEq, Repr

/-- Reasons a step is refused. -/
inductive Refusal where
  /-- The command has no meaning in this model yet. Safe. -/
  | notModelled (mnemonic : String)
  deriving DecidableEq, Repr

/-! ### Host accesses -/

/-- What the last host access returned to its core. -/
inductive BusResult where
  | none
  | value (core : Nat) (w : Word)
  | error (core : Nat)
  deriving DecidableEq, Repr

/-! ### SYS and the keep-alive domain -/

/-- Where the module stands between supply and RUN (Tables 3-1 and 3-3). `por` is the reset hold of phase 1, `osc` phase
2, `starting` phases 3 to 8, `resetHeld` an asserted module reset; `recovery` the boot ROM's wait for a
package over USB (R516). -/
inductive SysMode where
  | por
  | osc
  | resetHeld
  | starting
  | recovery
  | run
  | idle
  | park
  | standby
  deriving DecidableEq, Repr

/-- The cause that the cold start under way will record (R72). -/
inductive ColdCause where
  | por
  | standby
  | kaLoss
  deriving DecidableEq, Repr

/-- State of SYS behind its registers (chapter 3). -/
structure SysState where
  mode : SysMode := .por
  /-- Cause of the cold start under way. -/
  cold : ColdCause := .por
  /-- Phase 3 has ended. -/
  pll : Bool := false
  /-- Phase 4 has ended: the safety domain runs. -/
  safe : Bool := false
  /-- Phase 5 has ended. -/
  dram : Bool := false
  /-- Phase 6 has ended. -/
  gesso : Bool := false
  /-- Phase 7 has ended. -/
  fw : Bool := false
  /-- Cause bits of the module reset under way, as SYS_RST_CAUSE numbers them (R72). -/
  causes : Nat := 0
  /-- LTC of the last watchdog restart, and whether source 9 was raised since (R73). -/
  wdtStart : Nat := 0
  wdtEarly : Bool := false
  /-- The watchdog counts (RUN and IDLE). -/
  wdtOn : Bool := false
  /-- Block number of the block reset in progress (R74). -/
  blkRst : Option Nat := none
  /-- Cores that halt at their next wait-for-interrupt (R75), bit per core. -/
  halting : Nat := 0
  /-- Entry to PARK (`false`) or STANDBY (`true`) in progress (R76). -/
  entry : Option Bool := none
  /-- A wake source was latched since acceptance (R77). -/
  wake : Bool := false
  /-- Regions loaded at PARK entry (R78). -/
  atEntry : Nat := 0
  /-- A module reset broke off phase 2 of a cold start, whose closing steps are owed at release (R70). -/
  owePhase2 : Bool := false
  /-- A safety request for a module reset is on its way (R62, R264, R269, R520). -/
  safeReq : Bool := false
  deriving DecidableEq, Repr

/-- The keep-alive domain (R84) and the copy's outstanding write (R526). -/
structure KaState where
  opsec : Nat := 0
  pwrcyc : Nat := 0
  /-- KA_FLAGS as the domain holds it. -/
  flags : Nat := 0
  /-- VKA fell below 2.5 V while feeding the domain (R53). -/
  vkaLow : Bool := false
  /-- A write landed in the copy has not reached the domain (R526). -/
  writePend : Bool := false
  /-- Operating second of the last mirror write (R84). -/
  mirrorAt : Nat := 0
  deriving DecidableEq, Repr

/-! ### The present REF cycle -/

/-- What has landed in the REF cycle `at0`, an LTC (R8, R27, R130): the raises of enabled sources, each with its stamp and whether PEND
was 1 already; the determinism violations of the cycle, as SYS_DET_STATUS numbers them, and that register without them. -/
structure CycleState where
  at0 : Nat := 0
  raised : Tbl (Nat × Bool) := []
  detNew : Nat := 0
  detOld : Nat := 0
  deriving DecidableEq, Repr

/-! ### STR -/

/-- A reload in progress (R95 to R98, Table 4-6). -/
structure Reload where
  region : Nat
  src : Bool
  force : Bool
  /-- The section's digest, computed while it was written (Table 4-6). -/
  digest : Nat
  /-- LTC of acceptance, the stop phase's start. -/
  stopAt : Nat
  deriving DecidableEq, Repr

/-- State of STR behind its registers (chapter 4). -/
structure StrState where
  /-- Regions still to load at start or PARK exit, in order (R93). -/
  boot : List Nat := []
  /-- The header passed and phase 8 runs. -/
  booting : Bool := false
  /-- SECTION_DIGEST of each loaded region (R92). -/
  digests : Tbl Nat := []
  reload : Option Reload := none
  /-- Consistency checks queued, first in first out (R103). -/
  checks : List Nat := []
  /-- LTC of the last ENABLE write that joined the queue, and how many checks at its end landed at that LTC (R103). -/
  landAt : Nat := 0
  landed : Nat := 0
  /-- ENABLE writes held for commands in flight (R127). -/
  held : List Nat := []
  deriving DecidableEq, Repr

/-! ### Command rings -/

/-- A command taken and not yet completed (R123). `done` holds the reason and handle of an operation that has ended while
an earlier one runs (R124). -/
structure Taken where
  id : Nat
  opcode : Nat
  handle : Nat
  tag : Nat
  irq : Bool
  done : Option (Nat × Nat)
  deriving DecidableEq, Repr

/-- One command ring behind its register group: commands in flight in the order taken, the completion SEQ last used and
the time, in units of 1/61,380 ns, before which no entry is taken (R116, R122, R527); `odd` once PI has been written backwards or more
than 256 ahead of CI, `oddCi` once CRING_CI has been written past CRING_PI (Table 5-6). -/
structure Ring where
  taken : List Taken := []
  nextId : Nat := 0
  seq : Nat := 0
  readyAt : Nat := 0
  odd : Bool := false
  oddCi : Bool := false
  deriving DecidableEq, Repr

/-! ### The MRAM system area -/

/-- Condition of the inactive slot (R507). -/
inductive SlotCond where
  | invalid
  | staged
  | previous
  deriving DecidableEq, Repr

/-- The MRAM system area (R508): the slot pointer record, the life-cycle record, MIN_SVN, the keep-alive mirror and the
fleet key store. Each record changes all or nothing, so its two copies are one value here (log entry 6). -/
structure NvState where
  /-- Active slot: 0 A, 1 B. -/
  active : Nat := 0
  inact : SlotCond := .invalid
  trial : Bool := false
  boots : Nat := 0
  confirmN : Nat := 0
  lifeCycle : Nat := 0
  /-- Target of a life-cycle change that awaits its Gesso pass (R520). -/
  lcTarget : Option Nat := none
  minSvn : Nat := 0
  /-- SVN of the package staged into each slot. -/
  slotSvn : Tbl Nat := []
  mirrorOpsec : Nat := 0
  mirrorPwrcyc : Nat := 0
  /-- Fleet keys by slot: key and epoch (R455). -/
  keys : Tbl (Nat × Nat) := []
  /-- One-time programmable public keys by slot (R521); slot 0 holds Chroenaver's key from the factory. -/
  otp : Tbl Nat := [(0, Config.factoryKey)]
  /-- Safety flash: safety firmware and SAFE section of each slot, by `2 * slot + section` (R507). -/
  bank : Tbl (List Byte) := []
  /-- Does the GNSS front-end oscillator run (R296)? No command changes it (log entry 123). -/
  gnsRuns : Bool := true
  deriving DecidableEq, Repr

/-! ### TMS -/

/-- An accepted observation not yet in effect: true MT was `m` plus `frac` / 2^16 at LTC `l` (R138, R139). -/
structure Obs where
  l : Nat
  m : Nat
  frac : Nat
  effectAt : Nat
  deriving DecidableEq, Repr

/-- State of TMS behind its registers (chapter 6). Sources are numbered 1 GNSS, 2 gPTP, 3 PAIR. -/
structure TmsState where
  /-- Frequency correction and slew term, in 2^-40 (R140). -/
  freq : Int := 0
  slew : Int := 0
  /-- Error left to slew when the slew term began, in 2^-16 ns, and the LTC at which it began. -/
  slewLeft : Int := 0
  slewFrom : Nat := 0
  /-- Pending step, in 2^-16 ns (R141). -/
  stepPend : Option Int := none
  /-- Accepted observations by source. -/
  obs : Tbl Obs := []
  /-- LTC at which the latest accepted observation of a source took effect; and since when it has been valid. -/
  lastEff : Tbl Nat := []
  validSince : Tbl Nat := []
  /-- Last whole second of MT taken (R142), and the second in which MT has stood since its last boundary or step (R141). -/
  lastSec : Int := 0
  curSec : Int := 0
  /-- LTC at which HOLDOVER or FREE began. -/
  holdFrom : Nat := 0
  /-- The next pulse is the first after a step (R146). -/
  stepped : Bool := false
  /-- TPULSE is high: since when, and the width in µs with which it rose (R146). -/
  pulse : Option (Nat × Nat) := none
  /-- Steps taken since reset, and the sign of the last (true forward); read by the MT-grid users (R142). -/
  steps : Nat := 0
  lastFwd : Bool := false
  /-- Capture queues, oldest first, and the last selected edge of each channel (R147, R148). -/
  caps : Tbl (List Nat) := []
  capLast : Tbl Nat := []
  /-- Latest rising edges of each channel whatever its settings, oldest first (R328). -/
  rises : Tbl (List Nat) := []
  deriving DecidableEq, Repr

/-! ### INP -/

/-- An analog input behind its registers (R152, R155): the 16.4 filter value, whether a frame has passed since ENABLE, the number of the
frame that publishes next, an open shunt, the stamp of the latest sample, and the sample's number among all values INP has published. -/
structure Ain where
  y : Nat := 0
  started : Bool := false
  next : Nat := 0
  shunt : Bool := false
  stamp : Nat := 0
  tok : Nat := 0
  deriving DecidableEq, Repr

/-- A pulse input behind its registers (R156 to R159): the level last kept, stamps, the open gate and the counters. -/
structure Pin where
  /-- A value has been published since ENABLE; the latest one's number among all values INP has published. -/
  pub : Bool := false
  tok : Nat := 0
  level : Bool := false
  lastRise : Option Nat := none
  lastFall : Option Nat := none
  period : Option Nat := none
  /-- Rising edges kept for a FREQ gate: those of the open gate and after, and the two before it. -/
  rises : List Nat := []
  /-- Start of the open FREQ gate. -/
  gate : Nat := 0
  count : Nat := 0
  quad : Int := 0
  deriving DecidableEq, Repr

/-- A loss window not yet published (R161): impacts, highest envelope, stamp of its first sample. -/
structure LacAcc where
  count : Nat := 0
  peak : Nat := 0
  from0 : Nat := 0
  deriving DecidableEq, Repr

/-- A loss input behind its registers (R160, R161): the envelope, samples since the last counted impact, the windows not yet published by
window number, and the number of the next one to publish. -/
structure Lac where
  e : Nat := 0
  since : Option Nat := none
  wins : Tbl LacAcc := []
  next : Nat := 0
  deriving DecidableEq, Repr

/-- A crop-flow window as YLD receives it (R162). -/
structure FlowWin where
  flow : Nat
  valid : Bool
  endLtc : Nat
  deriving DecidableEq, Repr

/-- A loss window as YLD receives it (R161, R162). -/
structure LacWin where
  input : Nat
  count : Nat
  endLtc : Nat
  winMs : Nat
  deriving DecidableEq, Repr

/-- State of INP behind its registers (chapter 7). -/
structure InpState where
  ains : Tbl Ain := []
  pins : Tbl Pin := []
  lacs : Tbl Lac := []
  /-- Supplies switched off by a fault until EN is written from 0 to 1 (R163), bit per supply. -/
  supOff : Nat := 0
  /-- Since when a supply has been in current limit (R163). -/
  limitAt : Tbl Nat := []
  /-- What the reference supplies have been (R155): supply, the LTC until which, and whether it was off or in limit; oldest first. -/
  supPast : List (Nat × Nat × Bool) := []
  /-- Settings overwritten while INP ran (R150): the LTC of the write, the register and its word before; oldest first. -/
  past : List (Nat × Nat × Word) := []
  /-- Sums of the flow windows not yet published, by window number: sum of CODE, samples, a flagged sample. -/
  flow : Tbl (Nat × Nat × Bool) := []
  /-- Number of the next flow window to publish. -/
  flowNext : Nat := 0
  /-- Windows on their way to YLD, oldest first. -/
  flowQ : List FlowWin := []
  lacQ : List LacWin := []
  /-- LTC at which ENABLE last went to 1. -/
  start : Nat := 0
  /-- Values published since the module's reset. -/
  pubs : Nat := 0
  deriving DecidableEq, Repr

/-! ### CLE -/

/-- A command on a slot that has not completed (R124, R189): ring and place in flight, opcode, LTC at which it was taken,
and its two arguments. -/
structure SlotCmd where
  ring : Nat
  id : Nat
  op : Nat
  taken : Nat
  a : Nat
  b : Nat
  deriving DecidableEq, Repr

/-- A slot behind its registers (chapters 8 and 9): the law's state in binary32, the captured sources and what decides
whether they are new, and the commands in effect. -/
structure CleSlot where
  satIrq : Bool := false
  /-- The cascade source has been destroyed (R178). -/
  msLost : Bool := false
  spLost : Bool := false
  rPrev : Nat := 0
  rdPrev : Nat := 0
  qPrev : Nat := 0
  yPrev : Nat := 0
  uPrev : Nat := 0
  d : Nat := 0
  i : Nat := 0
  /-- The next evaluation is the first after SLOT_START (R183). -/
  first : Bool := false
  /-- Values the two sources last yielded. -/
  ms : Nat := 0
  sp : Nat := 0
  /-- What each source showed at the last strobe (a SEQ, a count of applied outputs, a release LTC). -/
  msTok : Nat := 0
  spTok : Nat := 0
  /-- Strobes in a row without a new value (R178). -/
  msRun : Nat := 0
  spRun : Nat := 0
  /-- A write of the host register has landed since the last strobe (R177). -/
  msWritten : Bool := false
  spWritten : Bool := false
  /-- 0 between phase point and strobe, 1 captured, 2 evaluated. -/
  phase : Nat := 0
  /-- Frame of the strobe last captured. -/
  frame : Nat := 0
  /-- Result held for the phase point: u, whether the clamp changed it, whether it was held. -/
  u : Nat := 0
  clamped : Bool := false
  heldOne : Bool := false
  /-- Held values in a row (R204). -/
  held : Nat := 0
  /-- Outputs applied since SLOT_CREATE, which a cascade reader compares. -/
  applied : Nat := 0
  /-- OUT, both OUT_LTC words, REF, MEAS, INTEG, DERIV and XSTAT of the last applied value (R186, R209). -/
  snap : List Nat := []
  /-- Commands in order, the head in effect; and whether a start in effect has captured its first strobe. -/
  cmds : List SlotCmd := []
  begun : Bool := false
  deriving DecidableEq, Repr

/-- State of CLE behind its registers. -/
structure CleState where
  slots : Tbl CleSlot := []
  /-- Last frame whose strobes have been taken. -/
  lastFrame : Option Nat := none
  /-- Latest applied outputs of each slot index since CLE was enabled, newest last: stamp and u (R233, R468). -/
  hist : Tbl (List (Nat × Nat)) := []
  deriving DecidableEq, Repr


/-! ### VDR -/

/-- An output behind its registers (R213 to R220). Currents are in codes of 2.5 mA. -/
structure Vlo where
  /-- The output runs: its low side is on, but for a shed. -/
  active : Bool := false
  /-- Mode under which it became active: 1 CURRENT, 2 PWM, 3 STROKE. -/
  run : Nat := 0
  call : Bool := false
  /-- Supply requested: 1 VBAT_VLV, 2 VBST. -/
  want : Nat := 1
  /-- In end decay since this tick. -/
  decay : Option Nat := none
  /-- Low side opened by a fast release at this tick, released 100 µs later (R219). -/
  fast : Option Nat := none
  /-- Re-energised µs of the decay under way. -/
  ext : Nat := 0
  /-- Shed: the low side is open for the moment (R215). -/
  shed : Bool := false
  /-- VLV cycles of closed high side since it became active, and whether a sample above 50 mA was seen (OPEN). -/
  closedCyc : Nat := 0
  seen : Bool := false
  /-- Latest samples, newest last: stamp and code. -/
  samples : List (Nat × Nat) := []
  /-- Sum of squared codes of the open RMS window. -/
  sq : Nat := 0
  /-- CLE values on their way: stamp and value, clamped to the destination kind's range (R217). -/
  cleQ : List (Nat × Nat) := []
  /-- PWM: VLV cycles of call from the period start, and the tick of that start. -/
  pwmOn : Nat := 0
  pwmStart : Nat := 0
  /-- LTC at which the low side last closed (SHORT). -/
  closedAt : Nat := 0
  deriving DecidableEq, Repr

/-- A bank behind its registers. -/
structure Bank where
  /-- Tick of the last change of the high side (R214), and LTC of its last closing (SHORT). -/
  changed : Option Nat := none
  closedAt : Nat := 0
  /-- PWM period in use, and the instant at which a high side closed for a PWM period opens again (R216). -/
  per : Nat := 100
  pwmOff : Option Nat := none
  /-- Sum over the window of the squared summed codes. -/
  sq : Nat := 0
  deriving DecidableEq, Repr

/-- How VBST_C is being discharged (R60). -/
inductive Discharge where
  | none
  | constant
  | resistor
  deriving DecidableEq, Repr

/-- A discharge begins; one under way goes on (R60). -/
def Discharge.started : Discharge → Discharge
  | .none => .constant
  | d => d

/-- State of VDR's outputs, banks and boost converter behind the registers (chapter 10). -/
structure VdrState where
  outs : Tbl Vlo := []
  banks : Tbl Bank := []
  /-- Stamp of the last tick taken. -/
  lastTick : Nat := 0
  /-- LTC since which VLV_OK has read 1, while the 10 ms recovery of R222 runs. -/
  recovery : Option Nat := none
  /-- The capacitor discharges from a power-on reset on. -/
  discharge : Discharge := .constant
  /-- LTC since which STR stops the region: every active output decays until it releases, or until STR opens it at 50 ms (R98, R102). -/
  stop : Option Nat := none
  /-- Start of the open RMS window, its ticks, and the sum of the squared sum of all codes. -/
  winAt : Nat := 0
  winN : Nat := 0
  modSq : Nat := 0
  deriving DecidableEq, Repr


/-! ### Stroke -/

/-- What a context waits for (Table 11-1), with the tick at which the wait began. -/
inductive StkWait where
  | none
  | wait (until0 : Nat)
  | wcur (t0 limit : Nat) (falling cont : Bool)
  | wtrg (t0 trg limit : Nat) (cont : Bool) (wake : Option Nat)
  | ramp (t0 from0 to0 d : Nat)
  | chk (t0 limit : Nat)
  | sup (t0 limit : Nat)
  deriving DecidableEq, Repr

/-- A Stroke context behind its registers (R228 to R240). -/
structure Ctx where
  sup : Nat := 0
  /-- TCLE: the slot whose output the target follows. -/
  follow : Option Nat := none
  dithAmp : Nat := 0
  dithPer : Nat := 0
  wait : StkWait := .none
  /-- Addresses written while this stroke ran (R248). -/
  dirty : List Nat := []
  /-- A word of `dirty` has been executed: the waveform is undefined. -/
  undef : Bool := false
  deriving DecidableEq, Repr

/-- A queued start request (R242 to R244). -/
structure StartReq where
  out : Nat
  prog : Nat
  /-- Due tick; `lateDrop`: a late request with LATE_DROP = 1. -/
  due : Nat
  lateDrop : Bool
  preempt : Bool
  /-- LTC and ring of the taking, and the order of taking. -/
  at0 : Nat
  ring : Nat
  seq : Nat
  /-- Deferred since the due tick. -/
  deferred : Bool
  deriving DecidableEq, Repr

/-- State of the Stroke engines (chapter 11). -/
structure StkState where
  ctx : Tbl Ctx := []
  reqs : Tbl StartReq := []
  nextSeq : Nat := 0
  /-- Latest kept edges of each trigger, newest last. -/
  trig : Tbl (List Nat) := []
  deriving DecidableEq, Repr


/-! ### SAF -/

/-- The faults of Table 12-2; pairs and channels by number. -/
inductive SafFault where
  | lockstep
  | safeUe
  | therm
  | selftest
  | partnerLost
  | supply
  | degExpired
  | xs (pair : Nat)
  | disc (pair : Nat)
  | stuck1 (ch : Nat)
  | stuck2 (ch : Nat)
  | oc (ch : Nat)
  | weld (ch : Nat)
  | pullin (ch : Nat)
  | drop (ch : Nat)
  deriving DecidableEq, Repr

/-- What the pins of the safety unit show (Table 12-1, R263); no reset changes it. -/
structure SafPins where
  /-- SINnA reads CLOSED, bit per pair. -/
  sinA : Nat := 0
  /-- SINnB by pair: 0 OTHER, 1 SUPV, 2 CLOSED. -/
  sinB : Tbl Nat := []
  /-- SFBc reads closed, bit per channel. -/
  sfb : Nat := 0
  deriving DecidableEq, Repr

/-- State of the safety domain behind the SAF mirror (chapter 12). -/
structure SafState where
  pins : SafPins := {}
  /-- Readings as the trip path takes them: the latest ones outside a test-pulse mask (R255). -/
  effA : Nat := 0
  effB : Tbl Nat := []
  /-- LTC at which the mask of an STP began, and the pairs under test at its pulse (R254). -/
  maskAt : Tbl Nat := []
  /-- LTC at which each STP last pulsed. -/
  stpAt : Tbl Nat := []
  tested : Tbl Nat := []
  /-- Passed tests since XS was set, by pair * 2 + STP. -/
  xsPass : Tbl Nat := []
  /-- Since when a pair has read RUN, and TRANSIT. -/
  runSince : Tbl Nat := []
  transSince : Tbl Nat := []
  /-- Re-arm times that have completed: bit per pair, bit 8 the partner (R258). -/
  rearmed : Nat := 0
  /-- Channels that have been armed since the safety reset (R259). -/
  armedOnce : Nat := 0
  /-- LTC at which a channel went ON; LTC of its opening while the mirror must still close; LTC at which its mirror closed
  while ON. -/
  onAt : Tbl Nat := []
  openAt : Tbl Nat := []
  closedAt : Tbl Nat := []
  /-- The mirror has read open since SOUTc rose, bit per channel (R263). -/
  pulled : Nat := 0
  /-- Stamp of each channel's last trip. -/
  tripAt : Tbl Nat := []
  /-- Switch test in progress: channel and whether the upper switch is tested; LTC of the last test by channel * 2 + switch. -/
  test : Option (Nat × Bool) := none
  testAt : Tbl Nat := []
  /-- LTC of each channel's last test while it was ON. -/
  onTest : Tbl Nat := []
  /-- Faults listed: present (`true`), or cleared and awaiting an acknowledge. -/
  faults : List (SafFault × Bool) := []
  /-- LTC of degraded entry; and the faults that the last expiry covered. -/
  degFrom : Option Nat := none
  covered : List SafFault := []
  /-- LTC of the last accepted partner field; since when the partner has read RUN. -/
  partnerAt : Option Nat := none
  /-- SSEQ of the last accepted field (R467). -/
  partnerSeq : Option Nat := none
  partnerRun : Option Nat := none
  /-- The mailbox request being handled: SEQ, ARG, OP. -/
  req : Option (Nat × Nat × Nat) := none
  /-- LTC of the first latched lockstep or SAFE fault. -/
  latchAt : Option Nat := none
  deriving DecidableEq, Repr

/-! ### GNB -/

/-- A pending steer (Table 13-7): the GNS cycle at which it was taken, and whether it has been counted as late. -/
structure Steer where
  target : Nat
  what : Nat
  intMs : Nat
  spacing : Nat
  freq : Int
  rate : Nat
  secPh : Nat
  codeStep : Int
  carrStep : Int
  taken : Nat
  late : Bool
  deriving DecidableEq, Repr

/-- An integration as CN0 and PLI use it (R308): boundary LTC, integration time, prompt and noise sums. -/
structure Integ where
  ltc : Nat
  intMs : Nat
  i2 : Int
  q2 : Int
  i6 : Int
  q6 : Int
  deriving DecidableEq, Repr

/-- A tracking channel (R283 to R294, R305 to R310). `sc0`, `phase`, `theta`, `code` and `acc` hold the sample, φ, θ, the
unwrapped code phase and the carrier sum at the last boundary passed. -/
structure Chan where
  handle : Nat
  chain : Nat
  sig : Nat
  prn : Nat
  irq : Bool
  startSc : Nat
  /-- Index of the next boundary. -/
  next : Nat := 0
  sc0 : Nat
  phase : Nat
  theta : Nat := 0
  code : Int
  acc : Int := 0
  freq : Int
  rate : Nat
  intMs : Nat
  spacing : Nat
  secPh : Nat
  epochs : Nat := 0
  steer : Option Steer := none
  /-- A steer was replaced since the last written entry. -/
  repl : Bool := false
  lockCnt : Nat := 0
  resolved : Bool := false
  flip : Bool := false
  /-- CH_RESOLVE commands waiting for their SL, in the order taken: GNS cycle and FLIP. -/
  resolves : List (Nat × Bool) := []
  /-- Late steers applied; and CODE_LOCK, PHASE_LOCK and that count at the last measurement entry. -/
  lates : Nat := 0
  prev : Option (Bool × Bool × Nat) := none
  hist : List Integ := []
  deriving DecidableEq, Repr

/-- A search in an engine (R280 to R282): its place in flight, its grid of Doppler bins and what its record repeats. -/
structure Search where
  id : Nat
  chain : Nat
  sig : Nat
  prn : Nat
  addr : Nat
  start : Nat
  samples : Nat
  dopMin : Int
  dopStep : Nat
  bins : Nat
  deriving DecidableEq, Repr

/-- A strobe whose block is not yet written (R299 to R304). `gains` (by chain) and `thr` (CN0_MIN, PLI_MIN) are those in force at SL. -/
structure Strobe where
  nom : Int
  ltc : Nat
  mt : Int
  sl : Nat
  ltcL : Nat
  state : Nat
  src : Nat
  fwd : Bool
  back : Bool
  skipped : Nat
  gains : Tbl Nat
  thr : Nat × Nat
  chans : List (Nat × Chan)
  deriving DecidableEq, Repr

/-- State of GNB behind its registers (chapters 13 and 14). -/
structure GnbState where
  /-- LTC of the first sample (SC = 0); none while SC is stopped. -/
  scStart : Option Nat := none
  chans : Tbl Chan := []
  /-- Searches by engine. -/
  searches : Tbl Search := []
  /-- When SAT of a chain was 1: the chain, the sample from which, the sample until which. -/
  sats : List (Nat × Nat × Option Nat) := []
  /-- The 1,024-sample step up to which a chain's GAIN is known; LTC since which PWR has stayed above its limit (R274). -/
  agcAt : Tbl Nat := []
  jamFrom : Tbl Nat := []
  /-- Lowest 1 s mean of a chain's in-band power since ENABLE, in 0.25 dB (R274); the narrowband interferers that stand in a chain, offset and
  level, the strongest first (R275). -/
  base : Tbl Nat := []
  interf : Tbl (List (Nat × Nat)) := []
  /-- Accumulation ring: entries dropped since the last written one; SEQ last used; LTC from which TMO counts. -/
  accGap : Bool := false
  accSeq : Nat := 0
  accFrom : Option Nat := none
  /-- Number of the last strobe boundary taken or passed over (MT divided by the period). -/
  lastNom : Int := 0
  strobes : List Strobe := []
  /-- Steps since the last strobe or header: forward, backward, boundaries skipped. -/
  fwd : Bool := false
  back : Bool := false
  skipped : Nat := 0
  msGap : Bool := false
  msSeq : Nat := 0
  deriving DecidableEq, Repr

/-! ### CAM -/

/-- A camera context behind its registers (R339, Table 15-5). `pal` is the Palette in force for the next frame: its address and
the copy of its header. -/
structure CamCtx where
  src : Nat
  dt : Nat
  cfa : Nat
  pl : Nat
  fselMod : Nat
  fsel : Nat
  irq : Bool
  ltab : Bool
  ofmt : Nat
  stb : Nat
  width : Nat
  height : Nat
  maxFps : Nat
  fto : Nat
  roOfs : Nat
  stbWin : Nat
  palAddr : Nat
  palHdr : List Byte
  newPal : Bool := true
  fen : Nat
  bufs : List Nat := []
  cseq : Nat := 0
  /-- A CTX_DESTROY waits for the context's frames: its place in flight. -/
  dying : Option Nat := none
  deriving DecidableEq, Repr

/-- Where a frame stands (R331 to R338). -/
inductive FrameState where
  | waiting
  | running
  /-- Its pipeline has been released; outputs complete at `done`. -/
  | released (done : Nat)
  | dropped
  /-- No output takes it: it needs no pipeline. -/
  | unprocessed
  deriving DecidableEq, Repr

/-- A frame of a context until its record is written. -/
structure CamFrame where
  ctx : Nat
  no : Nat
  pl : Nat
  fsAt : Nat
  sof : Nat
  st : FrameState
  /-- LTC at which it closed. -/
  closed : Option Nat := none
  flags : Nat := 0
  /-- Lines counted up to HEIGHT, and how many have entered processing. -/
  lines : Nat := 0
  entered : Nat := 0
  /-- Stored lines, oldest first; none stands for a line of zero raw values. -/
  store : List (Option (List Byte)) := []
  /-- Arrival stamps of the lines kept, by line (R328). -/
  stamps : Tbl Nat := []
  excess : Nat := 0
  padded : Nat := 0
  trunc : Nat := 0
  zlines : Nat := 0
  buf : Option Nat := none
  /-- Its number in the sequence of its context. -/
  cseq : Nat := 0
  /-- FEN output still goes on. -/
  fen : Bool := false
  palAddr : Nat
  palHdr : List Byte
  firstIn : Option Nat := none
  /-- The last two rows as they leave stage 2, older first. -/
  win : List (List (List Nat)) := []
  /-- Palette tables as read when the frame's first line was processed; they have changed since. -/
  tabs : List Byte := []
  undef : Bool := false
  deriving DecidableEq, Repr

/-- A pipeline: the frame that runs, when it takes the next line, and the context handle of its last frame. -/
structure CamPipe where
  run : Option Nat := none
  readyAt : Nat := 0
  last : Option Nat := none
  deriving DecidableEq, Repr

/-- A sensor control transaction under way (R326): a read of `n` bytes, or a write of `data`, at a device's register. -/
structure CciTx where
  read : Bool
  n : Nat
  dev : Nat
  target : Nat
  data : List Byte
  deriving DecidableEq, Repr

/-- State of CAM behind its registers (chapter 15). -/
structure CamState where
  ctxs : Tbl CamCtx := []
  /-- Frames by serial number, in order of FS. -/
  frames : Tbl CamFrame := []
  nextFrame : Nat := 0
  /-- Open frame of each source; none for a frame that matches no context. -/
  openSrc : Tbl (Option Nat) := []
  pipes : Tbl CamPipe := []
  /-- Sensor transactions under way, by link. -/
  cci : Tbl CciTx := []
  recGap : Bool := false
  recSeq : Nat := 0
  deriving DecidableEq, Repr

/-! ### FEN -/

/-- A model package in an SRAM slot, or one whose load runs (`load` holds its place in flight): header fields, body copy and
DRAM section (Table 16-1). -/
structure Pkg where
  hdr : List Byte
  hdrAddr : Nat
  dramAddr : Nat
  load : Option Nat
  fault : Bool := false
  body : List Byte := []
  deriving DecidableEq, Repr

/-- A job in flight (R355 to R358). -/
structure FenJob where
  id : Nat
  tag : Nat
  inAddr : Nat
  outAddr : Nat
  /-- IN_LTC of the output: entry, SOF_LTC or t_k. -/
  stamp : Nat
  param : Nat
  ready : Bool
  /-- The input as copied into SRAM. -/
  input : Option (List Byte)
  /-- The camera frame it is bound to. -/
  frame : Option Nat := none
  grantLtc : Option Nat := none
  revokes : Nat := 0
  flags : Nat := 0
  cseq : Nat := 0
  /-- L_k of the instant of a FUS job. -/
  lk : Nat := 0
  deriving DecidableEq, Repr

/-- A job stream; `req` is the index of its ARB0 requester. -/
structure FenStream where
  ring : Nat
  slot : Nat
  kind : Nat
  req : Nat
  jobs : List FenJob := []
  jseq : Nat := 0
  /-- Rows received of the camera frames that hold an input area, by frame. -/
  areas : Tbl (List (List Byte)) := []
  deriving DecidableEq, Repr

/-- The job that runs: its stream, the LTC of its grant, the FEN cycles of its start phase, those of its DRAM stalls, and the DRAM section as it read
when the job started (R358, R367). -/
structure FenRun where
  stream : Nat
  at0 : Nat
  start : Nat
  stall : Nat
  section0 : List Byte
  deriving DecidableEq, Repr

/-- State of FEN behind its registers (chapter 16). -/
structure FenState where
  pkgs : Tbl Pkg := []
  streams : Tbl FenStream := []
  run : Option FenRun := none
  /-- Slot of the previous job's package, while it stays there. -/
  lastPkg : Option Nat := none
  deriving DecidableEq, Repr

/-! ### ARB -/

/-- State of the arbiters behind their registers (R359 to R365). Requesters 0 to 19 are ARB0's, 20 to 23 ARB1's. -/
structure ArbState where
  /-- First-raise LTC of each outstanding request: pending, or granted and not released. -/
  since : Tbl Nat := []
  /-- LTC of the present grant of each arbiter. -/
  grantAt : Tbl Nat := []
  /-- LIMIT of each requester, in µs. -/
  limit : Tbl Nat := []
  /-- CLASS and LIMIT of a REQ_CLASS not yet applied (R364). -/
  newClass : Tbl (Nat × Nat) := []
  deriving DecidableEq, Repr

/-! ### FUS -/

/-- A refinement step waiting for its closure (R409): the new calibration, and the sums of |a| (µrad) and |u| (µm). -/
structure FusStep where
  cal : List Int
  a : Nat
  u : Nat
  deriving DecidableEq, Repr

/-- Vote state of a source in a tile (R401). -/
structure FusVote where
  out : Bool := false
  strike : Nat := 0
  agree : Nat := 0
  deriving DecidableEq, Repr

/-- A Canvas source (Table 17-3) and what R401, R410 and R411 keep for it. -/
structure FusSrc where
  kind : Nat
  feed : Nat
  order : Nat
  iclass : Nat
  weight : Nat
  opt : Nat
  lb : Nat
  link : Nat
  tovOfs : Int
  maxPts : Nat
  angUsed : Nat := 0
  tUsed : Nat := 0
  stall : Nat := 0
  step : Option FusStep := none
  readmit : Bool := false
  /-- By tile; a tile not listed is IN with both counts at 0. -/
  votes : Tbl FusVote := []
  deriving DecidableEq, Repr

/-- A grid contribution not yet released (R384): its arrival stamp, its bytes as they read when it arrived, and whether an instant it belongs to is
known. -/
structure FusBody where
  src : Nat
  addr : Nat
  n : Nat
  tov : Nat
  at0 : Nat
  bytes : List Byte
  used : Bool
  deriving DecidableEq, Repr

/-- A motion sample and its arrival stamp (R376, R377, R383). -/
structure FusMotion where
  src : Nat
  tov : Nat
  at0 : Nat
  v : Option Int
  w : Option Int
  deriving DecidableEq, Repr

/-- A direct body on its way to FUS (R379): from FEN stream `link` (kind 1), ETH flow `link` (2) or pair-link source `link`
(6). `tov` is given where the body does not carry it. -/
structure FusFeed where
  kind : Nat
  link : Nat
  addr : Nat
  tov : Option Nat
  deriving DecidableEq, Repr

/-- A closed instant whose publication has not ended: its record fields, the cells it writes anew (features and CONF), the
TILE plane, DECAY, and the previous planes as they read when publication started. -/
structure FusPub where
  n : Nat
  t : Int
  l : Nat
  flags : Nat
  oldest : Option Nat
  mask : Nat
  points : Nat
  cellsNew : Nat
  pose : Int × Int × Nat
  skipped : Nat
  cells : Tbl (List Int × Nat)
  tiles : List Nat
  decay : Nat
  started : Bool := false
  prev : List Byte := []
  deriving DecidableEq, Repr

/-- State of FUS behind its registers (chapters 17 and 18). -/
structure FusState where
  srcs : Tbl FusSrc := []
  inbox : List FusFeed := []
  bodies : List FusBody := []
  motion : List FusMotion := []
  /-- L_k and t_k of every instant taken since ENABLE, and how many of them have closed (R380, R381). -/
  insts : List (Nat × Int) := []
  closed : Nat := 0
  /-- Number of the last MT-grid multiple taken or passed over. -/
  lastNom : Int := 0
  fwd : Bool := false
  back : Bool := false
  skipped : Nat := 0
  pubs : List FusPub := []
  gap : Bool := false
  /-- Whether the record before carried a motion flag, CONFLICT and UNCHECKED. -/
  motFlag : Bool := false
  conflict : Bool := false
  unchecked : Bool := false
  /-- Consecutive closures in CONFLICT, by tile (Table 18-3). -/
  held : Tbl Nat := []
  /-- LTC of the latest IMU sample. -/
  imuAt : Option Nat := none
  deriving DecidableEq, Repr

/-! ### YLD -/

/-- A cell of a yield tile as summed (R421): WET, DRY, LOSS in mg, AREA in mm², the sum of wet × M, NWIN and FLAGS. -/
structure YldCell where
  wet : Nat := 0
  dry : Nat := 0
  loss : Nat := 0
  area : Nat := 0
  moist : Nat := 0
  nwin : Nat := 0
  flags : Nat := 0
  deriving DecidableEq, Repr

/-- A tile of a layer (R423). A closed tile has its place in the closing order; an evicted one has given up its buffer and is
kept as `kept`. -/
structure YldTile where
  te : Int
  tn : Int
  buf : Option Nat
  first : Nat
  last : Nat
  nwin : Nat := 0
  /-- Bits 1 FLUSHED and 2 EVICT of the record's FLAGS. -/
  flags : Nat := 0
  closed : Option Nat := none
  wet : Nat := 0
  cells : Tbl YldCell := []
  kept : List Byte := []
  deriving DecidableEq, Repr

/-- A command on a layer that waits for its tiles (LAYER_DESTROY, FLUSH): its place in flight, and whether the compute that
closes the tiles has come, with the closing numbers it waits for. -/
structure YldWait where
  id : Nat
  destroy : Bool
  tiles : Option (List Nat)
  deriving DecidableEq, Repr

/-- A yield layer (Table 19-3). -/
structure YldLayer where
  cellMm : Nat
  nslot : Nat
  cropId : Nat
  cache : Nat
  lba : Nat
  slots : Nat
  wpos : Nat := 0
  tseq : Nat := 0
  tiles : List YldTile := []
  waits : List YldWait := []
  deriving DecidableEq, Repr

/-- A header pose and its arrival stamp (R417). -/
structure YldPose where
  tov : Nat
  e : Int
  n : Int
  psi : Nat
  v : Nat
  at0 : Nat
  deriving DecidableEq, Repr

/-- State of YLD behind its registers (chapter 19). -/
structure YldState where
  layers : Tbl YldLayer := []
  poses : List YldPose := []
  /-- The last 16 moisture values, oldest first: start-of-frame LTC, value, arrival stamp. -/
  moist : List (Nat × Nat × Nat) := []
  /-- EDGE planes of committed grid-head jobs, oldest first: L_k, plane, arrival stamp. -/
  heads : List (Nat × List Byte × Nat) := []
  /-- Loss windows received, oldest first. -/
  lacs : List LacWin := []
  /-- End of the next window to compute; none before the first window. -/
  nextE : Option Nat := none
  /-- The last flow window used, and e of the last compute. -/
  flow : Option FlowWin := none
  lastE : Option Nat := none
  /-- Parts of a kilogram not yet shown by YLD_UNMAP and YLD_CNT.DROP, in mg. -/
  unmapMg : Nat := 0
  dropMg : Nat := 0
  /-- Tiles closed since ENABLE. -/
  closes : Nat := 0
  deriving DecidableEq, Repr

/-! ### BUS -/

/-- A message object (Table 20-4). A transmit object keeps when it became pending, whether further attempts are barred, the
stamps of its latest clash errors, and an OBJ_DESTROY that waits for the frame on the wire (ring and place in flight). -/
structure CanObj where
  ctrl : Nat
  tx : Bool
  irq : Bool
  single : Bool
  id : Nat
  queue : Option Nat := none
  pendAt : Nat := 0
  noRetry : Bool := false
  clash : List Nat := []
  dying : Option (Nat × Nat) := none
  deriving DecidableEq, Repr

/-- A receive queue (Table 20-4). -/
structure CanQueue where
  ctrl : Nat
  irq : Bool
  thr : Nat
  qid : Nat
  mask : Nat
  base : Nat
  deriving DecidableEq, Repr

/-- A transport session (R441 to R443). `next` is the number of the next packet, from 1; `blockEnd` the last packet asked for;
`base` the ETP packet offset. `timer` is the running time limit: its start and its length in ms. `result` is there once the session
has ended; `entry` names the queue and place of its delivery entry. -/
structure TpSess where
  ctrl : Nat
  rx : Bool
  /-- 0 TP connection, 1 BAM, 2 ETP. -/
  kind : Nat
  /-- The partner's address and the module's; 0xFF for BAM's other side. -/
  peer : Nat
  own : Nat
  pgn : Nat
  size : Nat
  buf : Nat
  prio : Nat := 7
  maxPk : Nat := 255
  next : Nat := 1
  blockEnd : Nat := 0
  base : Nat := 0
  /-- ETP: a DPO has opened the block. -/
  dpo : Bool := false
  /-- A send session: packets sent, and its DTs are on their way. -/
  sent : Nat := 0
  sending : Bool := false
  timer : Option (Nat × Nat) := none
  /-- A BAM that waits for its gap since this LTC; the gap in ms. -/
  gap : Option Nat := none
  gapMs : Nat := 50
  lastId : Nat := 0
  lastSof : Nat := 0
  result : Option Nat := none
  entry : Option (Nat × Nat) := none
  deriving DecidableEq, Repr

/-- A frame of the transport engine that waits to be sent. `dt` is a packet number whose bytes are read as it is sent; `after` says
what its end starts: 0 nothing, 1 T2, 2 T3, 3 the packet's account, 4 a BAM gap. -/
structure TpTx where
  sess : Option Nat
  id : Nat
  data : List Byte
  dt : Option Nat := none
  after : Nat := 0
  deriving DecidableEq, Repr

/-- A controller behind its registers: frames stored, recovery running, CM frames by source (window and count), engine frames
waiting. -/
structure CanCtl where
  fseq : Nat := 0
  recovering : Bool := false
  cm : Tbl (Nat × Nat) := []
  txq : List TpTx := []
  deriving DecidableEq, Repr

/-- State of BUS behind its registers (chapter 20). -/
structure BusState where
  objs : Tbl CanObj := []
  queues : Tbl CanQueue := []
  sess : Tbl TpSess := []
  ctls : Tbl CanCtl := []
  deriving DecidableEq, Repr

/-! ### ETH -/

/-- A body being put together (R454, R471): sweep or body number, total length where known, and the byte ranges that have
arrived. -/
structure Rasm where
  sweep : Nat
  total : Option Nat
  got : List (Nat × Nat)
  deriving DecidableEq, Repr

/-- A frame on its way out of an external port: its bytes without FCS, and the SEND or FRAME_TX it belongs to. -/
structure EgFrame where
  data : List Byte
  cmd : Option Nat
  deriving DecidableEq, Repr

/-- A fleet peer (Table 21-4) and its replay window: H, and the accepted sequences above H - 1,024. -/
structure Peer where
  id : Nat
  txKey : Nat
  rxKey : Nat
  port : Nat
  mac : Nat
  vid : Nat
  ip : Nat
  udp : Nat
  high : Nat := 0
  seen : List Nat := []
  deriving DecidableEq, Repr

/-- A two-step Sync that waits for its Follow_Up (R453): sequence and ingress LTC. -/
structure GptpSync where
  seq : Nat
  l : Nat
  deriving DecidableEq, Repr

/-- State of ETH behind its registers (chapter 21). -/
structure EthState where
  /-- Learned addresses by `vid * 2^48 + mac`: port and LTC last seen. -/
  macs : Tbl (Nat × Nat) := []
  /-- Policer of a port: tokens in thousandths of a bit, and the LTC they were counted at. -/
  pol : Tbl (Nat × Nat) := []
  /-- Egress queues by `port * 4 + queue`, and the frame on the wire of each port. -/
  egress : Tbl (List EgFrame) := []
  wire : Tbl EgFrame := []
  syncs : List GptpSync := []
  /-- The last three Pdelay exchanges, newest last; the LTC of the last Pdelay_Req; the LTC of the last delivered observation and
  whether its gap was reported. -/
  pd : List Bool := []
  pdAt : Option Nat := none
  lastObs : Option Nat := none
  gapSaid : Bool := false
  /-- Body buffers of the flows, by `flow * 2 + buffer`. -/
  bodies : Tbl Rasm := []
  peers : Tbl Peer := []
  /-- Datagrams sent with a slot since its epoch was taken. -/
  counts : Tbl Nat := []
  deriving DecidableEq, Repr

/-! ### PAIR -/

/-- A partner HEAD received lately: CYC, release LTC of its signals, and the SIG indices already taken (R462, R469). -/
structure PairHead where
  cyc : Nat
  rel : Nat
  seen : Nat
  deriving DecidableEq, Repr

/-- A body being sent (R470): its command, link, address, BODY number, length, the MT that replaces TOV, and bytes sent. -/
structure PairSend where
  id : Nat
  link : Nat
  addr : Nat
  body : Nat
  len : Nat
  mt : Nat
  pos : Nat
  deriving DecidableEq, Repr

/-- State of PAIR behind its registers (chapter 22). -/
structure PairState where
  /-- Received signal values, newest last: release LTC and binary32 word (R469). -/
  rx : Tbl (List (Nat × Nat)) := []
  /-- MT_TRUST of the partner's last HEAD (R466). -/
  trust : Bool := true
  /-- Every lane went down after the modules had joined. -/
  lost : Bool := false
  /-- LTC of the last valid HEAD of each lane. -/
  heard : Tbl Nat := []
  /-- Partner HEADs received lately, newest last; CYC and arrival of the last one. -/
  heads : List PairHead := []
  last : Option (Nat × Nat) := none
  /-- Consecutive HEADs that passed the join checks, and consecutive HEADs with a small offset. -/
  good : Nat := 0
  okTime : Nat := 0
  /-- The last 16 round trips, newest last. -/
  trips : List Int := []
  /-- LTC of the latest own cycle with each CYC; the next CYC and SSEQ; LTC of the last cycle. -/
  sent : Tbl Nat := []
  cyc : Nat := 0
  sseq : Nat := 0
  cycAt : Option Nat := none
  /-- The cells of the last cycle, as sent. -/
  out : List (List Byte) := []
  sends : List PairSend := []
  /-- Last BODY number of each link sent. -/
  bodyNo : Tbl Nat := []
  /-- Receive buffers, by `link * 2 + buffer`; BULK cells taken lately as CYC, LINK, BODY and OFFSET; last body of a link that found no
  buffer. -/
  bodies : Tbl Rasm := []
  bulk : List (Nat × Nat × Nat × Nat) := []
  skipped : Tbl Nat := []
  deriving DecidableEq, Repr

/-! ### PNL -/

/-- A pixel (R483): state, target and ledger in volt-frames, and the variant chosen for the operation (R484). -/
structure Pix where
  state : Nat := 0
  target : Nat := 0
  ledger : Int := 0
  v : Nat := 0
  deriving DecidableEq, Repr

/-- The operation PNL runs: its opcode (0 for the shutdown of R491) and command, PARK_ADDR, frames sent and to send, the rectangle, and
the latched waveform table: address and header (R481). -/
structure PnlOp where
  kind : Nat
  id : Nat := 0
  park : Nat := 0
  frame : Nat := 0
  frames : Nat := 0
  x0 : Nat := 0
  y0 : Nat := 0
  rw : Nat := 0
  rh : Nat := 0
  wf : Nat := 0
  hdr : List Byte := []
  deriving DecidableEq, Repr

/-- State of PNL behind its registers (chapter 23). -/
structure PnlState where
  op : Option PnlOp := none
  /-- Rails ready, in the order VGL, VGH, VSL, VSH, VCOM; VDDP is on. -/
  rails : Nat := 0
  vddp : Bool := false
  /-- LTC at which a rail was last ready, or down; the LTC of the first frame since the rails came up and the number of the next on the
  grid of FRATE (R475, R486, R488). -/
  railAt : Option Nat := none
  frameAt : Option (Nat × Nat) := none
  /-- A fault dropped the rails and no POWER_ON has been taken since (R490). -/
  faulted : Bool := false
  /-- Pixels that differ from the wiped SRAM, by `y * W + x`; every state is known. -/
  pix : Tbl Pix := []
  known : Bool := false
  /-- VCOM in mV as the operation under way applies it. -/
  vcom : Nat := 1500
  /-- The frontlight is off after a short (R478). -/
  flOff : Bool := false
  /-- The panel-present line, and the LTC of its last change. -/
  pdet : Bool := false
  pdetAt : Nat := 0
  /-- LTC of the acceptance of a PARK or STANDBY request (R491). -/
  parkAt : Option Nat := none
  deriving DecidableEq, Repr

/-! ### REC -/

/-- An open record (Tables 24-1 and 24-2): its window, the count of values and the body. -/
structure RecWin where
  opn : Nat
  close : Nat
  nval : Nat := 0
  sat : Bool := false
  under : Nat := 0
  ovr : Nat := 0
  bins : Tbl Nat := []
  mn : Int := 0x7FFFFFFF
  mx : Int := -0x80000000
  mnL : Nat := 0
  mxL : Nat := 0
  cnts : Tbl Nat := []
  deriving DecidableEq, Repr

/-- A stream (Table 24-3): the start of the window after its last open one, and its open records, oldest first. -/
structure RecStream where
  kind : Nat
  sev : Nat
  n : Nat
  irq : Bool
  sid : Nat
  lo : Int
  width : Nat
  per : Nat
  grace : Nat
  evt : Nat
  next : Nat
  wins : List RecWin
  deriving DecidableEq, Repr

/-- A running export (R505). -/
structure RecExport where
  lba : Nat
  maxBlk : Nat
  fromNum : Nat
  deriving DecidableEq, Repr

/-- State of REC behind its registers (chapter 24). -/
structure RcdState where
  streams : Tbl RecStream := []
  /-- Valid slots: RNUM and SEV, known from the scan on. -/
  slots : Tbl (Nat × Nat) := []
  run : Option RecExport := none
  deriving DecidableEq, Repr

/-! ### UPD -/

/-- A component of a slot (Table 25-3): TYPE, INDEX, VERSION, OFFSET, LENGTH and DIGEST. -/
structure UpdEntry where
  ty : Nat
  ix : Nat
  version : Nat
  off : Nat
  len : Nat
  digest : Nat
  deriving DecidableEq, Repr

/-- A running staging (R510 to R513): the package's address in DRAM, its manifest as read at STAGE, its SVN, and an ABORT that waits. -/
structure Staging where
  addr : Nat
  manLen : Nat
  svn : Nat
  man : List Byte
  abort : Option Nat := none
  deriving DecidableEq, Repr

/-- State of UPD behind its registers (chapter 25). -/
structure UpdState where
  staging : Option Staging := none
  /-- The USB device is connected: SVC_VBUS is at or above 4.0 V. -/
  vbus : Bool := false
  deriving DecidableEq, Repr

/-! ### The module -/

/-- The whole module. -/
structure State where
  part : Part
  /-- The local tick counter (R133), in nanoseconds. -/
  ltc : Nat
  /-- Registers that differ from their reset value, by address. -/
  regs : Tbl Word
  /-- Companion registers latched for a core, by `core * 2^32 + address`. -/
  latch : Tbl Word
  /-- Values of the "Image" fields and further facts of the loaded structure image, by register address or image key. -/
  img : Tbl Nat
  /-- What the last host access returned. -/
  access : BusResult
  dram : List Host.Cell
  mram : List Host.Cell
  ufs : List Host.Cell
  /-- The model's own counter of free values (log entry 1). -/
  free : Nat
  sys : SysState
  ka : KaState
  cyc : CycleState
  str : StrState
  /-- Command rings, by `block number * 32 + ring`. -/
  rings : Tbl Ring
  /-- GEN counters, by `class * 65536 + index` (R113). -/
  gens : Tbl Nat
  nv : NvState
  tms : TmsState
  inp : InpState
  cle : CleState
  vdr : VdrState
  stk : StkState
  saf : SafState
  gnb : GnbState
  cam : CamState
  fen : FenState
  arb : ArbState
  fus : FusState
  yld : YldState
  bus : BusState
  eth : EthState
  pair : PairState
  pnl : PnlState
  rcd : RcdState
  upd : UpdState
  /-- Commands waiting, first in first out. -/
  pending : List Instr
  deriving DecidableEq, Repr

/-- The module right after a power-on reset: every register at its reset value, every memory unlisted, no object, no
command waiting (Table 3-4; the values the spec does not give are those of log entry 3, among them the factory's placing of the
two firmware slots). -/
def State.reset : State where
  part := .h24
  ltc := 0
  regs := [(UPD_SLOT_LBA_LO 1, 131072#32), (UPD_SLOT_BLKS, 131072#32)]
  latch := []
  img := []
  access := .none
  dram := []
  mram := []
  ufs := []
  free := 0
  sys := {}
  ka := {}
  cyc := {}
  str := {}
  rings := []
  gens := []
  nv := {}
  tms := {}
  inp := {}
  cle := {}
  vdr := {}
  stk := {}
  saf := {}
  gnb := {}
  cam := {}
  fen := {}
  arb := {}
  fus := {}
  yld := {}
  bus := {}
  eth := {}
  pair := {}
  pnl := {}
  rcd := {}
  upd := {}
  pending := []

end Sys2Proof.Machine
end

