-- ==== Sys2Proof/Machine/Ops.lean ====
section
/-! DEFINITION. The named operations every block shares: registers and their fields, events (R129), determinism violations
(R24 to R26), memories, handles (R113, R114), command rings (R117 to R127), and what a reset of a block, a region or the
whole module clears (Table 3-4). -/

namespace Sys2Proof.Machine

/-- The type of a step's outcome. -/
abbrev Out := Host.Outcome State Fault Refusal

/-! ### Registers -/

/-- The word a register holds: its listed value, else the value of the Reset column. -/
def State.reg (s : State) (a : Nat) : Word := (tget s.regs a).getD (resetOf a)

/-- The register file with `w` at `a`; a register at its reset value is not listed. -/
def regsPut (r : Tbl Word) (a : Nat) (w : Word) : Tbl Word := if w = resetOf a then tdel r a else tput r a w

/-- The state with register `a` holding `w`. -/
def State.setReg (a : Nat) (w : Word) (s : State) : State := { s with regs := regsPut s.regs a w }

/-- The value of a field. -/
def State.get (s : State) (f : Fld) : Nat := bitsOf (s.reg f.addr).toNat f.lo f.width

/-- The state with a field set to `v` modulo the field's width. -/
def State.set (f : Fld) (v : Nat) (s : State) : State :=
  s.setReg f.addr (BitVec.ofNat 32 (putBits (s.reg f.addr).toNat f.lo f.width v))

/-- A one-bit field as a Boolean. -/
def State.getB (s : State) (f : Fld) : Bool := s.get f = 1

/-- The state with a one-bit field set. -/
def State.setB (f : Fld) (b : Bool) (s : State) : State := s.set f (b2n b)

/-- A counter field advanced by `n`, saturating at the field's largest value. -/
def State.bump (f : Fld) (n : Nat) (s : State) : State := s.set f (satTo (2 ^ f.width - 1) (s.get f + n))

/-- A counter field advanced by one, wrapping at the field's width. -/
def State.wrapInc (f : Fld) (s : State) : State := s.set f (s.get f + 1)

/-- A 64-bit value in a low and a high register. -/
def State.set64 (lo hi : Nat) (v : Nat) (s : State) : State :=
  (s.setReg lo (BitVec.ofNat 32 v)).setReg hi (BitVec.ofNat 32 (v / 2 ^ 32))

/-- The 64-bit value of a low and a high register. -/
def State.get64 (s : State) (lo hi : Nat) : Nat := (s.reg lo).toNat + 2 ^ 32 * (s.reg hi).toNat

/-- `f` where `c` holds. -/
def State.when (c : Bool) (f : State → State) (s : State) : State := if c then f s else s

/-- A free value below `2 ^ bits` (log entry 1). -/
def State.fresh (s : State) (bits : Nat) : Nat := Config.freeValue s.free % 2 ^ bits

/-- A free reason code: a common one or one of the block's own (R105, log entry 1). -/
def State.freshCode (s : State) (own : List Nat) : Nat := (List.range 16 ++ own).getD (s.fresh 8 % (16 + own.length)) 0

/-- The next free value. -/
def State.drawn (s : State) : State := { s with free := s.free + 1 }

/-- The local tick counter as the 64-bit stamp (R133). -/
def State.now (s : State) : Nat := s.ltc % 2 ^ 64

/-- A REF edge: LTC advances by 8 (R133) wherever it runs; a power-on reset, phase 2 of a cold start, an asserted module reset
and STANDBY hold it at 0 (Table 3-4). -/
def State.refEdge (s : State) : State :=
  if s.sys.mode = .por || s.sys.mode = .osc || s.sys.mode = .resetHeld || s.sys.mode = .standby then s
  else { s with ltc := s.ltc + 8 }

/-- The instant `t` of LTC has come: LTC, which moves in steps of 8 ns, stands for the 8 ns that follow it (log entry 24). -/
def State.reached (s : State) (t : Nat) : Bool := decide (t < s.now + 8)

/-- Nanoseconds since the stamp `t`, modulo 2^64. -/
def State.since (s : State) (t : Nat) : Nat := (s.now + 2 ^ 64 - t % 2 ^ 64) % 2 ^ 64

/-! ### Events (chapter 5) -/

/-- A stream's windows up to the LTC `now`, each opened at its start (R498). -/
def RecStream.upTo (r : RecStream) (now : Nat) : RecStream :=
  if now < r.next then r
  else
    let k := (now - r.next) / r.per + 1
    { r with next := r.next + k * r.per, wins := r.wins ++ (List.range k).map fun i => { opn := r.next + i * r.per, close := r.next + (i + 1) * r.per } }

/-- A count advanced by `n`, saturating at `m`; whether it saturated (R499). -/
def satCount (m c n : Nat) : Nat × Bool := if m < c + n then (m, true) else (c + n, false)

/-- The amount `n` added to CNT[j] of an open record. -/
def RecWin.count (w : RecWin) (j n : Nat) : RecWin :=
  let c := satCount (2 ^ 64 - 1) (tgetD w.cnts j 0) n
  { w with cnts := tput w.cnts j c.1, sat := w.sat || c.2, nval := (satCount 0xFFFFFFFF w.nval 1).1 }

/-- The open record that holds the stamp `l`, changed by `f`; the oldest one where none does. -/
def RecStream.inWindow (r : RecStream) (l : Nat) (f : RecWin → RecWin) : RecStream :=
  match r.wins.find? fun w => w.opn ≤ l && l < w.close with
  | some w => { r with wins := r.wins.map fun v => if v.opn = w.opn && v.close = w.close then f v else v }
  | none => match r.wins with
    | w :: ws => { r with wins := f w :: ws }
    | [] => r

/-- A raise of source `n` stamped `l` counts in every CNTR stream that names the source (R501). -/
def State.rcdRaise (n l : Nat) (s : State) : State :=
  if s.rcd.streams.all fun x => x.2.evt ≠ n then s
  else { s with rcd := { s.rcd with streams := tmap s.rcd.streams fun _ r => if r.evt = n then (r.upTo s.now).inWindow l (·.count 0 1) else r } }

/-- The GNSS baseband is not fitted (R2). -/
def State.noGnss (s : State) : Bool := decide (s.part = .s24)

/-- The sources that the blocks' chapters list, first and last of each run, and those of the structure image's signals (R128). -/
def listedSources : List (Nat × Nat) :=
  [(4, 11), (16, 43), (64, 82), (84, 91), (112, 125), (128, 135), (144, 147), (160, 173), (192, 197), (208, 213), (216, 232), (240, 245),
    (248, 306), (312, 318), (320, 327), (336, 362), (368, 383)]

/-- A source that no chapter lists is never raised (R128); nor is one of GNB's on the AHM7-S24 (R3). -/
def State.neverRaised (s : State) (n : Nat) : Bool :=
  !(listedSources.any fun r => r.1 ≤ n && n ≤ r.2) || (s.noGnss && 128 ≤ n && n < 160)

/-- What the present REF cycle holds so far. -/
def State.cycle (s : State) : CycleState :=
  if s.cyc.at0 = s.ltc then s.cyc else { at0 := s.ltc, detOld := (s.reg SYS_DET_STATUS).toNat }

/-- A raise of an enabled source is kept for its REF cycle: a clear in the same cycle meets it (R130). -/
def State.noteRaise (n l : Nat) (again : Bool) (s : State) : State :=
  { s with cyc := { s.cycle with raised := tput s.cycle.raised n (l, again) } }

/-- A raise of source `n` stamped `l` (R129): counted by REC whatever EN is (R501); lost while EN is 0; MULTI where PEND is 1; else
PEND and the latch. -/
def State.raiseAt (n l : Nat) (s : State) : State :=
  if s.neverRaised n then s
  else
    let s := s.rcdRaise n l
    if s.getB (EVT_SRC_CFG.EN n) then
      let s := s.noteRaise n l (s.getB (EVT_SRC_STAT.PEND n))
      if s.getB (EVT_SRC_STAT.PEND n) then s.setB (EVT_SRC_STAT.MULTI n) true
      else (s.setB (EVT_SRC_STAT.PEND n) true).set64 (EVT_SRC_LTC_LO n) (EVT_SRC_LTC_HI n) l
    else s

/-- A raise at the present LTC (R20). -/
def State.raise (n : Nat) (s : State) : State := s.raiseAt n s.now

/-- Is source `n` deliverable to core `c` (R131)? -/
def State.deliverable (s : State) (c n : Nat) : Bool :=
  s.getB (EVT_SRC_CFG.EN n) && s.getB (EVT_SRC_STAT.PEND n) && bitAt (s.get (EVT_SRC_CFG.TGT n)) c

/-- EVT_CLAIM(c) (R131): the deliverable source of highest PRIO, the lower number on a tie, plus 1; 0 if none. -/
def State.claim (s : State) (c : Nat) : Nat :=
  ((List.range 384).foldl (fun (best : Nat × Nat) n =>
    if s.deliverable c n && (best.1 = 0 || best.2 < s.get (EVT_SRC_CFG.PRIO n)) then (n + 1, s.get (EVT_SRC_CFG.PRIO n))
    else best) (0, 0)).1

/-- EVT_PEND(w): bit i is the PEND bit of source 32w + i. -/
def State.pendWord (s : State) (w : Nat) : Nat :=
  (List.range 32).foldl (fun acc i => acc + b2n (s.getB (EVT_SRC_STAT.PEND (32 * w + i))) * 2 ^ i) 0

/-! ### Determinism violations (R24 to R26) -/

/-- SYS_DET_STATUS has gone from zero to non-zero: the latch, and source 4 (R26). -/
def State.detLatch (s : State) : State := (s.set64 SYS_DET_FIRST_LO SYS_DET_FIRST_HI s.now).raise 4

/-- A violation that sets field `f` of SYS_DET_STATUS (R24, R26). -/
def State.detViol (f : Fld) (s : State) : State :=
  let first := decide (s.reg SYS_DET_STATUS = 0#32)
  let s := { s with cyc := { s.cycle with detNew := putBits s.cycle.detNew f.lo f.width 1 } }
  (s.setB f true).when first State.detLatch

/-! ### Memories -/

/-- The byte at `a`; an unlisted byte reads 0 (log entry 4). -/
def memByte (m : List Host.Cell) (a : Nat) : Byte := (tget m a).getD 0#8

/-- The memory with byte `b` at `a`; a zero byte is not listed. -/
def memPut (m : List Host.Cell) (a : Nat) (b : Byte) : List Host.Cell := if b = 0#8 then tdel m a else tput m a b

/-- The `n` bytes from `a`. -/
def memBytes (m : List Host.Cell) (a : Nat) : Nat → List Byte
  | 0 => []
  | n + 1 => memByte m a :: memBytes m (a + 1) n

/-- The little-endian value of the `n` bytes from `a` (R6). -/
def memNat (m : List Host.Cell) (a n : Nat) : Nat := natLE (memBytes m a n)

/-- The memory with the bytes `bs` from `a`. -/
def memPuts (m : List Host.Cell) (a : Nat) : List Byte → List Host.Cell
  | [] => m
  | b :: bs => memPuts (memPut m a b) (a + 1) bs

/-- The memory with the bytes from `a` to `a + n - 1` at zero. -/
def memZero (m : List Host.Cell) (a n : Nat) : List Host.Cell := m.filter fun c => !(a ≤ c.1 && c.1 < a + n)

/-- The canonical form of a memory: addresses strictly rising and no listed zero. -/
def memWf (m : List Host.Cell) : Bool := tsorted m && m.all fun c => decide (c.2 ≠ 0#8)

/-- One bit of CRC-32 (Table 19-2). -/
def crc32Bit (c : Nat) : Nat := if c % 2 = 1 then (c / 2) ^^^ 0xEDB88320 else c / 2

/-- CRC-32 of Table 19-2 over a list of bytes. -/
def crc32 (l : List Byte) : Nat :=
  (l.foldl (fun c b => (List.range 8).foldl (fun c _ => crc32Bit c) (c ^^^ b.toNat)) 0xFFFFFFFF) ^^^ 0xFFFFFFFF

/-- DRAM as the blocks and the cores see it. -/
def State.dramN (s : State) (a n : Nat) : Nat := memNat s.dram a n
def State.dramPuts (a : Nat) (bs : List Byte) (s : State) : State := { s with dram := memPuts s.dram a bs }
def State.dramPutN (a n v : Nat) (s : State) : State := s.dramPuts a (bytesLE n v)

/-- Usable DRAM: 15 GiB (Table 1-4) from address 0 (log entry 5). -/
def dramSize : Nat := 15 * 2 ^ 30

/-! ### Blocks, windows and regions (Tables 1-1 and 5-1) -/

/-- The window of block number `b`. -/
def blkBase (b : Nat) : Nat :=
  if b = 1 then 0xC0000000 else if b = 0x14 then 0xC1000000 else 0xC0000000 + b * 0x1000000

/-- The block number whose window holds `a`; 0 where none has a number. -/
def blkOf (a : Nat) : Nat :=
  match a / 0x1000000 with
  | 0xC0 => 1
  | 0xC1 => 0x14
  | w => if 0xC2 ≤ w && w ≤ 0xD3 then w - 0xC0 else 0

/-- The region of a block; none for a fixed block (Table 1-1). -/
def regionOf (b : Nat) : Option Nat :=
  match b with
  | 0x04 => some 0
  | 0x05 => some 1
  | 0x06 => some 2
  | 0x07 => some 9
  | 0x09 => some 3
  | 0x0A => some 4
  | 0x0C => some 5
  | 0x0D => some 5
  | 0x0E => some 6
  | 0x0F => some 7
  | 0x10 => some 7
  | 0x11 => some 8
  | _ => none

/-- The blocks of a region. -/
def blocksOf (r : Nat) : List Nat := (List.range 0x15).filter fun b => regionOf b = some r

/-- First source and number of sources of a block (Table 5-1). -/
def sourcesOf (b : Nat) : Nat × Nat :=
  match b with
  | 0x01 => (0, 16) | 0x02 => (16, 8) | 0x03 => (24, 8) | 0x04 => (352, 16) | 0x05 => (32, 32) | 0x06 => (64, 48)
  | 0x07 => (112, 16) | 0x08 => (128, 32) | 0x09 => (160, 32) | 0x0A => (192, 16) | 0x0B => (208, 8)
  | 0x0C => (216, 24) | 0x0D => (240, 8) | 0x0E => (248, 48) | 0x0F => (296, 16) | 0x10 => (312, 8)
  | 0x11 => (320, 16) | 0x12 => (336, 8) | 0x13 => (344, 8) | _ => (0, 0)

/-- STR_STATUS.LOADED and BUSY of a region. -/
def State.loaded (s : State) (r : Nat) : Bool := bitAt (s.get STR_STATUS.LOADED) r
def State.busy (s : State) (r : Nat) : Bool := bitAt (s.get STR_STATUS.BUSY) r
def State.setLoaded (r : Nat) (b : Bool) (s : State) : State :=
  s.set STR_STATUS.LOADED (putBits (s.get STR_STATUS.LOADED) r 1 (b2n b))
def State.setBusy (r : Nat) (b : Bool) (s : State) : State :=
  s.set STR_STATUS.BUSY (putBits (s.get STR_STATUS.BUSY) r 1 (b2n b))

/-- The region of a block is loaded, or the block is fixed. -/
def State.blkLoaded (s : State) (b : Nat) : Bool :=
  match regionOf b with
  | none => true
  | some r => s.loaded r

/-- The ENABLE bit of a block: bit 0 of its control register at offset 0. -/
def enableFld (b : Nat) : Fld := ⟨blkBase b, 0, 1⟩
def State.enabled (s : State) (b : Nat) : Bool := s.getB (enableFld b)

/-- The blocks that have an ENABLE. -/
def hasEnable (b : Nat) : Bool := 3 ≤ b && b ≤ 0x13

/-- The RWL fields of a block take no write: ENABLE is 1, or a check of the block is queued or running (R7, R103). -/
def State.locked (s : State) (b : Nat) : Bool := hasEnable b && (s.enabled b || s.getB (STR_CHK_RES.RUN b))

/-- A write by the access codes (R7): RW bits, RWL bits while ENABLE is 0 and no check of the block is queued or running (R103), W1C
bits. ENABLE itself is left out. -/
def State.plainWrite (a : Nat) (value : Word) (s : State) : State :=
  match findDesc a with
  | none => s
  | some d =>
    let b := blkOf a
    let m := d.rw ||| (if s.locked b then 0 else d.rwl)
    let m := if hasEnable b && a = blkBase b then m &&& 0xFFFFFFFE else m
    let mask := BitVec.ofNat 32 m
    let old := s.reg a
    s.setReg a (((old &&& ~~~mask) ||| (value &&& mask)) &&& ~~~(value &&& BitVec.ofNat 32 d.w1c))

/-- The value the loaded image gives under a key (a register address or an image key); 0 where it gives none. -/
def State.image (s : State) (k : Nat) : Nat := tgetD s.img k 0

/-- A field whose value comes from the image. -/
def State.imgFld (s : State) (f : Fld) : Nat := bitsOf (s.image f.addr) f.lo f.width

/-! ### Handles (R111 to R114) -/

/-- Pool size and owning block of a class (Table 5-3). -/
def classPool (c : Nat) : Nat :=
  match c with
  | 0x01 => 96 | 0x02 => 256 | 0x03 => 512 | 0x04 => 32 | 0x05 => 16 | 0x06 => 24 | 0x07 => 2048 | 0x08 => 8
  | 0x09 => 32 | 0x0A => 64 | 0x0B => 256 | 0x0C => 8 | 0x0D => 24 | _ => 0

/-- A handle (Table 5-2). -/
def handleOf (c g i : Nat) : Nat := c * 2 ^ 26 + g % 1024 * 2 ^ 16 + i
def hClass (h : Nat) : Nat := bitsOf h 26 6
def hGen (h : Nat) : Nat := bitsOf h 16 10
def hIndex (h : Nat) : Nat := bitsOf h 0 16

/-- The GEN counter of an index. -/
def State.gen (s : State) (c i : Nat) : Nat := tgetD s.gens (c * 65536 + i) 0

/-- A creation at index `i` of class `c` advances the GEN counter (R113). -/
def State.advGen (c i : Nat) (s : State) : State :=
  { s with gens := tput s.gens (c * 65536 + i) ((s.gen c i + 1) % 1024) }

/-- The handle of the object now at index `i`. -/
def State.handle (s : State) (c i : Nat) : Nat := handleOf c (s.gen c i) i

/-- The handle checks of R114, with `live` saying whether an index holds an object: the low byte of the reason. -/
def State.checkHandle (s : State) (c : Nat) (live : Nat → Bool) (h : Nat) : Option Nat :=
  if hClass h ≠ c || h = 0 then some 0x03
  else if classPool c ≤ hIndex h then some 0x05
  else if !live (hIndex h) then some 0x03
  else if s.getB SYS_DEBUG.HCHK && hGen h ≠ s.gen c (hIndex h) then some 0x03
  else none

/-! ### Command rings (R117 to R127, R527) -/

/-- A taken command: its block, ring and place in flight, and its entry. -/
structure Cmd where
  blk : Nat
  ring : Nat
  id : Nat
  e : Entry

/-- Argument bytes `[o, o + n)` of the entry (Table 5-4, `o` from 16). -/
def Cmd.arg (c : Cmd) (o n : Nat) : Nat := bitsOf c.e.args.toNat (8 * (o - 16)) (8 * n)
def Cmd.handle (c : Cmd) : Nat := c.e.handle.toNat
def Cmd.flag (c : Cmd) (i : Nat) : Bool := bitAt c.e.flags.toNat i

/-- Register addresses of a ring group (R117); a ring number counts modulo 32, more than any block has. -/
def ringG (b r : Nat) : Nat :=
  blkBase b + (if b = 0x0A && 1 ≤ r then 0x200 + 0x20 * ((r - 1) % 32) else 0x100 + 0x20 * (r % 32))
def RING_BASE_LO (b r : Nat) : Nat := ringG b r
def RING_BASE_HI (b r : Nat) : Nat := ringG b r + 0x04
def CRING_BASE_LO (b r : Nat) : Nat := ringG b r + 0x08
def CRING_BASE_HI (b r : Nat) : Nat := ringG b r + 0x0C
def RING_PI (b r : Nat) : Fld := ⟨ringG b r + 0x10, 0, 9⟩
def RING_CI (b r : Nat) : Fld := ⟨ringG b r + 0x14, 0, 9⟩
def CRING_PI (b r : Nat) : Fld := ⟨ringG b r + 0x18, 0, 9⟩
def CRING_CI (b r : Nat) : Fld := ⟨ringG b r + 0x1C, 0, 9⟩

/-- How many command rings a block has. -/
def ringCount (b : Nat) : Nat :=
  match b with
  | 0x05 => 2 | 0x06 => 2 | 0x08 => 2 | 0x0A => 17 | 0x0E => 8
  | 0x09 => 1 | 0x0B => 1 | 0x0C => 1 | 0x0D => 1 | 0x0F => 1 | 0x10 => 1 | 0x11 => 1 | 0x12 => 1 | 0x13 => 1
  | _ => 0

/-- A ring whose two command-base registers are both 0 is not in use (R118). -/
def State.ringUsed (s : State) (b r : Nat) : Bool := s.get64 (RING_BASE_LO b r) (RING_BASE_HI b r) ≠ 0

def State.ring (s : State) (b r : Nat) : Ring := tgetD s.rings (b * 32 + r) {}
def State.setRing (b r : Nat) (g : Ring) (s : State) : State := { s with rings := tput s.rings (b * 32 + r) g }

/-- The completion event of a ring (R125). A FEN job ring sets its FEN_JOB_PEND bit and raises 193 as that register's
line says. -/
def State.completionEvent (b r : Nat) (s : State) : State :=
  match b with
  | 0x05 => s.raise (32 + r)
  | 0x06 => s.raise (74 + r)
  | 0x08 => s.raise (128 + r)
  | 0x09 => s.raise 160
  | 0x0A =>
    if r = 0 then s.raise 192
    else
      let f : Fld := ⟨FEN_JOB_PEND, r - 1, 1⟩
      if s.getB f then s else (s.setB f true).raise 193
  | 0x0B => s.raise 213
  | 0x0C => s.raise 216
  | 0x0D => s.raise 240
  | 0x0E => s.raise (248 + 6 * r)
  | 0x0F => s.raise 296
  | 0x10 => s.raise 312
  | 0x11 => s.raise 320
  | 0x12 => s.raise 336
  | 0x13 => s.raise 344
  | _ => s

/-- Slot of a ring's next completion. Once CRING_CI has been written past CRING_PI, which completions are overwritten is undefined: a free
slot (R132, log entry 94). -/
def State.complSlot (s : State) (b r : Nat) : Nat :=
  if (s.ring b r).oddCi then Config.strayCompletion s.ltc (b * 32 + r) (s.ring b r).seq % 256 else s.get (CRING_PI b r) % 256

/-- One completion entry (Table 5-5): the entry, then CRING_PI, then the event (R123, R125); SEQ as R122 says. -/
def State.writeCompletion (b r : Nat) (t : Taken) (reason handle : Nat) (s : State) : State :=
  let g := s.ring b r
  let seq := if g.seq = 0xFFFF then 1 else g.seq + 1
  let pi := s.get (CRING_PI b r)
  let a := s.get64 (CRING_BASE_LO b r) (CRING_BASE_HI b r) + 16 * s.complSlot b r
  let bytes := bytesLE 8 t.tag ++ bytesLE 4 handle ++ bytesLE 2 reason ++ bytesLE 2 seq
  let s := ((s.setRing b r { g with seq := seq }).dramPuts a bytes).set (CRING_PI b r) (pi + 1)
  if t.irq || reason % 256 ≠ 0 then s.completionEvent b r else s

/-- The commands of `l` that have ended, up to the first that runs, completed in order (R124). -/
def flushTaken (b r : Nat) : List Taken → State → List Taken × State
  | [], s => ([], s)
  | t :: ts, s =>
    match t.done with
    | none => (t :: ts, s)
    | some (reason, handle) => flushTaken b r ts (s.writeCompletion b r t reason handle)

/-- Command `id` of a ring ends with a reason and a handle; completions go out in the order taken (R124). -/
def State.completeId (b r id reason handle : Nat) (s : State) : State :=
  let l := (s.ring b r).taken.map fun t => if t.id = id then { t with done := some (reason, handle) } else t
  let (rest, s) := flushTaken b r l s
  s.setRing b r { s.ring b r with taken := rest }

/-- Command `id` of a ring ends with its own HANDLE field. -/
def State.completeSelf (b r id code : Nat) (s : State) : State :=
  s.completeId b r id (b * 256 + code) ((((s.ring b r).taken.find? fun t => t.id = id).map (·.handle)).getD 0)

/-- A command ends, with its own handle (Table 5-5). The reason's high byte is the block number (R105). -/
def Cmd.finish (c : Cmd) (code : Nat) (s : State) : State := s.completeId c.blk c.ring c.id (c.blk * 256 + code) c.handle

/-- A successful creation ends with the new handle; a failed one with handle 0. -/
def Cmd.created (c : Cmd) (h : Nat) (s : State) : State := s.completeId c.blk c.ring c.id (c.blk * 256) h
def Cmd.failed (c : Cmd) (code : Nat) (s : State) : State := s.completeId c.blk c.ring c.id (c.blk * 256 + code) 0

/-- A command enters flight (R123). -/
def State.enlist (b r opcode : Nat) (e : Entry) (s : State) : Cmd × State :=
  let g := s.ring b r
  let t : Taken := { id := g.nextId, opcode := opcode, handle := e.handle.toNat, tag := e.tag.toNat, irq := bitAt e.flags.toNat 0, done := none }
  ({ blk := b, ring := r, id := g.nextId, e := e }, s.setRing b r { g with taken := g.taken ++ [t], nextId := g.nextId + 1 })

/-- The block is GNB on a part without the GNSS baseband, which answers every command with NOT_FITTED (R3). -/
def State.notFitted (s : State) (b : Nat) : Bool := s.noGnss && b = 0x08

/-- Opcodes that create an object (Table 5-5). -/
def creates (b opcode : Nat) : Bool :=
  match b, opcode with
  | 0x05, 1 => true | 0x06, 1 => true | 0x08, 1 => true | 0x09, 1 => true | 0x0A, 3 => true | 0x0B, 1 => true | 0x0C, 1 => true
  | 0x0D, 1 => true | 0x0E, 1 => true | 0x0E, 3 => true | 0x0E, 5 => true | 0x0F, 1 => true | 0x12, 1 => true
  | _, _ => false

/-- A command refused before its operation looks at it: a failed creation carries no handle (Table 5-5). -/
def Cmd.refuse (c : Cmd) (opcode code : Nat) (s : State) : State := if creates c.blk opcode then c.failed code s else c.finish code s

/-- A block runs an entry it has taken (R30, R120): reserved FLAGS bits (all but bits 0 and 1 and those in `mask`) complete
with 0x05; else the operation runs. -/
def State.runEntry (b r opcode mask : Nat) (e : Entry) (op : Cmd → State → State) (s : State) : State :=
  let (c, s) := s.enlist b r opcode e
  if s.notFitted b then c.refuse opcode 0x09 s
  else if e.flags.toNat % 4 + (e.flags.toNat &&& (mask &&& 0xFF00)) = e.flags.toNat then op c s else c.refuse opcode 0x05 s

/-- One cycle of a block's clock domain (Tables 1-1 and 1-5) in units of 1/61,380 ns, of which every domain's cycle is a whole number.
The APP clock is limited while THROTTLE is set (R62). -/
def State.cycleUnits (s : State) (b : Nat) : Nat :=
  let khz := match b with
    | 0x04 => 480000 | 0x05 => 480000 | 0x06 => 240000 | 0x08 => 163680 | 0x09 => 600000 | 0x0A => 1200000 | 0x0E => 80000
    | 0x0F => 312500 | 0x10 => 312500 | 0x11 => 80000
    | _ => if s.getB SYS_TEMP.THROTTLE then 1200000 else 1800000
  61380000000 / khz

/-- Handle fields that a command carries beyond its HANDLE (R116): the cascade fields of SLOT_CREATE, FEN_STREAM of CTX_CREATE, REQ of
STREAM_CREATE, LINK of SRC_CREATE and QUEUE of OBJ_CREATE. -/
def argHandles (b opcode : Nat) : Nat :=
  match b, opcode with
  | 0x05, 1 => 2
  | 0x09, 1 => 1
  | 0x0A, 3 => 1
  | 0x0C, 1 => 1
  | 0x0E, 1 => 1
  | _, _ => 0

/-- Cycles between an entry and the next of its ring (R116). -/
def State.spacing (s : State) (b opcode : Nat) : Nat := if s.getB SYS_DEBUG.HCHK then 40 + 8 * argHandles b opcode else 16

/-- A condition of the block's chapter holds the entry: GNB's searches an ACQ_START (R280), PNL's running command every entry (R491). -/
def State.blockHolds (s : State) (b r opcode : Nat) : Bool :=
  match b, r, opcode with
  | 0x08, 1, 0x10 => decide (8 ≤ s.gnb.searches.length)
  | 0x11, _, _ => s.pnl.op.isSome
  | _, _, _ => false

/-- An entry with this opcode may be taken from the ring now (R118, R123, R127, R527): LTC, which moves in steps of 8 ns, stands for the
8 ns that follow it. `fence` says whether it must wait for every earlier entry (R119). GNB answers where it is not fitted (R3). -/
def State.mayRun (s : State) (b r opcode : Nat) (fence : Bool) : Bool :=
  let n := (s.ring b r).taken.length
  (s.enabled b || s.notFitted b) && decide (r < ringCount b) && s.ringUsed b r
    && decide ((s.get (CRING_PI b r) + 512 - s.get (CRING_CI b r) + n) % 512 < 256)
    && decide ((s.ring b r).readyAt < (s.ltc + 8) * 61380) && !(fence && decide (n ≠ 0)) && !s.blockHolds b r opcode

/-- The spacing after an entry taken now: from the end of the spacing before it where that end lies in the present 8 ns, so that waiting
entries go at exactly the spacing (R527). -/
def State.restSpacing (b r opcode : Nat) (s : State) : State :=
  let g := s.ring b r
  s.setRing b r { g with readyAt := max g.readyAt (s.ltc * 61380) + s.spacing b opcode * s.cycleUnits b }

/-- The command of a row: the block takes and runs this entry where the ring lets one be taken. -/
def State.runRow (b r opcode mask : Nat) (e : Entry) (op : Cmd → State → State) (s : State) : State :=
  if s.mayRun b r opcode (bitAt e.flags.toNat 1) then (s.restSpacing b r opcode).runEntry b r opcode mask e op else s

/-- A table keyed by core and register address without the entries of the `n` bytes from `a`. -/
def dropRange {α : Type} (a n : Nat) (t : Tbl α) : Tbl α := t.filter fun e => !(a ≤ e.1 % 2 ^ 32 && e.1 % 2 ^ 32 < a + n)

/-- The registers of an object's window return to reset, and what cores have latched of them is gone. -/
def State.wipeRegs (a n : Nat) (s : State) : State := { s with regs := s.regs.filter fun e => !(a ≤ e.1 && e.1 < a + n), latch := dropRange a n s.latch }

/-! ### DRAM windows and the ring checks (R29, R118) -/

/-- One test of a consistency check: it fails; its code; the offset of its lowest-addressed register (R29, R103). -/
abbrev CheckTest := Bool × Nat × Nat

/-- Offset of a block's DRAM window registers and how many windows it has; the blocks without any address all usable
DRAM (log entry 11). -/
def dwinRegs (b : Nat) : Nat × Nat :=
  match b with
  | 0x08 => (0x40, 2) | 0x09 => (0x40, 4) | 0x0A => (0x40, 4) | 0x0C => (0x60, 4) | 0x0D => (0x60, 2) | 0x0E => (0x40, 2)
  | 0x0F => (0x380, 4) | 0x10 => (0x60, 2) | 0x11 => (0x80, 2) | 0x12 => (0x40, 1) | 0x13 => (0x80, 1) | _ => (0, 0)

/-- Base and size of window `w` of a block. -/
def State.dwin (s : State) (b w : Nat) : Nat × Nat :=
  let a := blkBase b + (dwinRegs b).1 + 16 * w
  (s.get64 a (a + 4), (s.reg (a + 8)).toNat % 65536 * 2 ^ 20)

/-- Do the `n` bytes from `a` lie inside one DRAM window of the block and inside usable DRAM? -/
def State.inWins (s : State) (b a n : Nat) : Bool :=
  decide (a + n ≤ dramSize) &&
    ((dwinRegs b).2 = 0 || (List.range (dwinRegs b).2).any fun w => (s.dwin b w).1 ≤ a && a + n ≤ (s.dwin b w).1 + (s.dwin b w).2)

/-- Bytes that block `b` writes at `a`: none of them lands outside the windows its check accepted (R32). -/
def State.blockPuts (b a : Nat) (bs : List Byte) (s : State) : State := if s.inWins b a bs.length then s.dramPuts a bs else s

/-- A DRAM window in use that leaves usable DRAM. -/
def State.winTests (s : State) (b : Nat) : List CheckTest :=
  (List.range (dwinRegs b).2).map fun w => (decide (dramSize < (s.dwin b w).1 + (s.dwin b w).2 && (s.dwin b w).2 ≠ 0), 0x05, (dwinRegs b).1 + 16 * w)

/-- Two areas overlap. -/
def overlaps (a b : Nat × Nat) : Bool := a.1 < b.1 + b.2 && b.1 < a.1 + a.2

/-- The command and completion areas of a ring. -/
def State.ringAreas (s : State) (b r : Nat) : List (Nat × Nat) :=
  [(s.get64 (RING_BASE_LO b r) (RING_BASE_HI b r), 16384), (s.get64 (CRING_BASE_LO b r) (CRING_BASE_HI b r), 4096)]

/-- The ring tests of R118. -/
def State.ringTests (s : State) (b : Nat) : List CheckTest :=
  (List.range (ringCount b)).flatMap fun r =>
    if !s.ringUsed b r then []
    else
      let o := ringG b r - blkBase b
      let mine := s.ringAreas b r
      let cb := s.get64 (CRING_BASE_LO b r) (CRING_BASE_HI b r)
      let clash := (List.range (ringCount b)).any fun q => q ≠ r && s.ringUsed b q && mine.any fun x => (s.ringAreas b q).any (overlaps x)
      [(!s.inWins b (s.get64 (RING_BASE_LO b r) (RING_BASE_HI b r)) 16384, 0x05, o), (decide (cb ≠ 0) && !s.inWins b cb 4096, 0x05, o + 8),
       (cb = 0, 0x08, o + 8), (match mine with | [x, y] => decide (cb ≠ 0) && overlaps x y | _ => false, 0x08, o), (clash, 0x08, o)]

/-! ### Resets (Table 3-4, R74, R98) -/

/-- The registers outside the window of block `b`. -/
def dropWindow (b : Nat) (r : Tbl Word) : Tbl Word := r.filter fun e => e.1 / 0x1000000 ≠ blkBase b / 0x1000000

/-- PEND, MULTI and latches of a block's sources return to reset; EVT_SRC_CFG stays (R129). -/
def dropSources (b : Nat) (r : Tbl Word) : Tbl Word :=
  let (n, k) := sourcesOf b
  r.filter fun e => !(0xC1001000 + 16 * n ≤ e.1 && e.1 < 0xC1001000 + 16 * (n + k) && e.1 % 16 ≠ 0)

/-- Latched companions outside the window of block `b`. -/
def dropLatch (b : Nat) (l : Tbl Word) : Tbl Word := l.filter fun e => e.1 % 2 ^ 32 / 0x1000000 ≠ blkBase b / 0x1000000

/-- A block's registers, sources, latched companions and ring state at reset. Entries not taken and commands in flight are
discarded without completions (R74). -/
def State.wipeBlock (b : Nat) (s : State) : State :=
  { s with
    regs := dropSources b (dropWindow b s.regs)
    latch := dropLatch b s.latch
    rings := s.rings.filter fun e => e.1 / 32 ≠ b }

end Sys2Proof.Machine
end

