-- ==== Sys2Proof/Machine/Image.lean ====
section
/-! DEFINITION. What is read from storage: the slot's manifest (R509, Tables 25-2 to 25-4), the structure image header
(R88, R89) in the active slot or in DRAM, and the life-cycle state. -/

namespace Sys2Proof.Machine

/-- First byte of a slot's UFS part: its first 4,096-byte block is in UPD_SLOT_LBA. -/
def State.slotBase (s : State) (a : Nat) : Nat := s.get64 (UPD_SLOT_LBA_LO a) (UPD_SLOT_LBA_HI a) * 4096

/-- Field of the manifest copy in block 0 of slot `a` (R507). -/
def State.manN (s : State) (a o n : Nat) : Nat := memNat s.ufs (s.slotBase a + o) n

/-- Number of manifest entries (Table 25-2), at most 48. -/
def State.manCount (s : State) (a : Nat) : Nat := satTo 48 (s.manN a 6 2)

/-- Manifest offset of the entry of a TYPE and INDEX (Table 25-3). -/
def State.manFind (s : State) (a ty ix : Nat) : Option Nat :=
  if s.manN a 0 4 ≠ 0x314E414D then none
  else (((List.range (s.manCount a)).map fun i => 64 + 64 * i).find? fun o => s.manN a o 1 = ty && s.manN a (o + 1) 1 = ix)

/-- UFS address and length of a component of slot `a`: its payload lies at its manifest OFFSET (R507). -/
def State.component (s : State) (a ty ix : Nat) : Option (Nat × Nat) :=
  (s.manFind a ty ix).map fun o => (s.slotBase a + 4096 * s.manN a (o + 8) 4, s.manN a (o + 12) 4)

/-- Bytes of a component; none where the slot lacks it. -/
def State.componentBytes (s : State) (a ty ix : Nat) : List Byte :=
  match s.component a ty ix with
  | some (p, n) => memBytes s.ufs p n
  | none => []

/-- Where a structure image is read from. -/
inductive ImgSrc where
  | slot (a : Nat)
  | dram (addr : Nat)
  deriving DecidableEq, Repr

/-- Bytes `[o, o + n)` of the image header (Table 4-3). -/
def State.hdrBytes (s : State) (src : ImgSrc) (o n : Nat) : List Byte :=
  match src with
  | .dram a => memBytes s.dram (a + o) n
  | .slot a =>
    match s.component a 0x03 0 with
    | some (p, _) => memBytes s.ufs (p + o) n
    | none => List.replicate n 0#8

def State.hdrN (s : State) (src : ImgSrc) (o n : Nat) : Nat := natLE (s.hdrBytes src o n)

/-- MAGIC, FORMAT and HDR_LEN are right (R88). -/
def State.hdrFormatOk (s : State) (src : ImgSrc) : Bool :=
  s.hdrN src 0 4 = 0x49533741 && s.hdrN src 4 2 = 1 && s.hdrN src 6 2 = 0x400

/-- HDR_DIGEST is the digest of bytes 0 to 975. -/
def State.hdrDigestOk (s : State) (src : ImgSrc) : Bool := Config.sha384 (s.hdrBytes src 0 976) = s.hdrN src 976 48

/-- The PARTS bit of this part is 1 and the stepping is C0. -/
def State.hdrPartOk (s : State) (src : ImgSrc) : Bool :=
  bitAt (s.hdrN src 8 2) (match s.part with | .h24 => 0 | .s24 => 1) && s.hdrN src 10 1 = 0x0C && s.hdrN src 11 1 = 0

def State.hdrMask (s : State) (src : ImgSrc) : Nat := s.hdrN src 12 2 % 1024
def State.hdrIface (s : State) (src : ImgSrc) : Nat := s.hdrN src 32 8

/-- Field of region `r`'s table entry (Table 4-4). -/
def State.hdrRegion (s : State) (src : ImgSrc) (r o n : Nat) : Nat := s.hdrN src (64 + 64 * r + o) n
def State.hdrDigest (s : State) (src : ImgSrc) (r : Nat) : Nat := s.hdrRegion src r 16 48

/-- Section length of a region in bytes (Table 4-2). -/
def sectionLen (r : Nat) : Nat :=
  2 ^ 20 * match r with
    | 0 => 8 | 1 => 12 | 2 => 10 | 3 => 24 | 4 => 20 | 5 => 28 | 6 => 10 | 7 => 12 | 8 => 6 | _ => 2

/-- The bytes of region `r`'s section, of the region's fixed length; none where the slot lacks it. -/
def State.sectionBytes (s : State) (src : ImgSrc) (r : Nat) : List Byte :=
  match src with
  | .dram a => memBytes s.dram (a + s.hdrRegion src r 4 4) (sectionLen r)
  | .slot a =>
    match s.component a 0x04 r with
    | some (p, _) => memBytes s.ufs p (sectionLen r)
    | none => []

/-- Is any region 0 to 8 other than `r` loaded (R91)? -/
def State.otherLoaded (s : State) (r : Nat) : Bool := (List.range 9).any fun q => q ≠ r && s.loaded q

/-- The image identity (R92): the first 16 bytes of a SHA-384 over the ten SECTION_DIGEST values. -/
def State.publishIdentity (s : State) : State :=
  let bytes := ((List.range 10).map fun r => bytesLE 48 (if s.loaded r then tgetD s.str.digests r 0 else 0)).flatten
  let d := Config.sha384 bytes
  (List.range 4).foldl (fun s i => s.setReg (STR_IDENT i) (BitVec.ofNat 32 (d / 2 ^ (32 * i)))) s

/-- Region that an image key belongs to: register keys by their window, further keys by their high word less 1. -/
def imgKeyRegion (k : Nat) : Option Nat := if k < 2 ^ 32 then regionOf (blkOf k) else some (k / 2 ^ 32 - 1)

/-- An image key for a fact of region `r` that no register shows. -/
def imgKey (r k : Nat) : Nat := (r + 1) * 2 ^ 32 + k

/-- The image values of region `r` replaced by those of its section as compiled (log entry 7). -/
def imgReplace (r : Nat) (caps : List (Nat × Word)) (img : Tbl Nat) : Tbl Nat :=
  (caps.filter fun c => imgKeyRegion c.1 = some r).foldl (fun t c => tput t c.1 c.2.toNat)
    (img.filter fun e => imgKeyRegion e.1 ≠ some r)

/-- Region `r` is loaded from `src` with the section digest `d` (R91, R92, R93). -/
def State.connectRegion (src : ImgSrc) (r d : Nat) (caps : List (Nat × Word)) (s : State) : State :=
  let s := if r < 9 && !s.otherLoaded r then s.set64 STR_IFACE_LO STR_IFACE_HI (s.hdrIface src) else s
  let s := { s with str := { s.str with digests := tput s.str.digests r d }, img := imgReplace r caps s.img }
  ((s.setLoaded r true).setBusy r false).publishIdentity

/-- Region `r` ends unloaded (R97, R102). -/
def State.unloadRegion (r : Nat) (s : State) : State :=
  let s := { s with str := { s.str with digests := tdel s.str.digests r }, img := imgReplace r [] s.img }
  ((s.setLoaded r false).setBusy r false).publishIdentity

/-- A reload with SRC = 0, or a start, clears the region's UPD_PEND bit; each clearing raises source 351 (R515). -/
def State.clearUpdPend (r : Nat) (s : State) : State :=
  let f : Fld := ⟨UPD_PEND, r, 1⟩
  if s.getB f then (s.setB f false).raise 351 else s

/-- An extent of the UFS data partition, in blocks. -/
def inDataPart (lba n : Nat) : Bool := Config.dataPartition.1 ≤ lba && lba + n ≤ Config.dataPartition.1 + Config.dataPartition.2

/-! ### Life cycle (Table 25-6) -/

/-- MANUFACTURE or DEVELOPMENT. -/
def State.openLifeCycle (s : State) : Bool := s.nv.lifeCycle ≤ 1

end Sys2Proof.Machine
end

