-- ==== Sys2Proof/Machine/Tms.lean ====
section
/-! DEFINITION. TMS (chapter 6): LTC and MT, the published relation, the discipline of MT, the time pulse and the capture
channels. -/

namespace Sys2Proof.Machine

/-! ### The relation (R135 to R137) -/

def State.relRef (s : State) : Nat := s.get64 TMS_REL_LTC_LO TMS_REL_LTC_HI
def State.relOff (s : State) : Int := toSigned 64 (s.get64 TMS_REL_OFF_LO TMS_REL_OFF_HI)
def State.relRate (s : State) : Int := toSigned 32 (s.reg TMS_REL_RATE).toNat

/-- MT at the LTC `l` under the record in force (R136). -/
def State.mtAt (s : State) (l : Nat) : Int :=
  (l : Int) + s.relOff + floorDivNat (((l : Int) - s.relRef) * s.relRate) (2 ^ 40)

/-- MT now, as the 64-bit register reads it. -/
def State.mtNow (s : State) : Int := s.mtAt s.now

/-- mt_at(L) in units of 2^-16 ns, without the floor of R136 and rounded toward minus infinity (R139). -/
def State.mtFine (s : State) (l : Nat) : Int :=
  ((l : Int) + s.relOff) * 65536 + floorDivNat (((l : Int) - s.relRef) * s.relRate) (2 ^ 24)

/-- A new record at the present LTC (R137): MT continuous but for `step` ns; the record before goes to TMS_PREL, which
is read under the same sequence; SEQ passes an odd value and ends even; source 30. -/
def State.publishRel (rate step : Int) (s : State) : State :=
  let off := s.relOff + floorDivNat (((s.now : Int) - s.relRef) * s.relRate) (2 ^ 40) + step
  let s := s.set64 TMS_PREL_LTC_LO TMS_PREL_LTC_HI s.relRef
  let s := s.set64 TMS_PREL_OFF_LO TMS_PREL_OFF_HI (s.get64 TMS_REL_OFF_LO TMS_REL_OFF_HI)
  let s := s.setReg TMS_PREL_RATE (s.reg TMS_REL_RATE)
  let s := s.setReg TMS_PREL_SEQ (s.reg TMS_REL_SEQ + 2#32)
  let s := s.setReg TMS_REL_SEQ (s.reg TMS_REL_SEQ + 2#32)
  let s := s.set64 TMS_REL_LTC_LO TMS_REL_LTC_HI s.now
  let s := s.set64 TMS_REL_OFF_LO TMS_REL_OFF_HI (fromSigned 64 off)
  (s.setReg TMS_REL_RATE (BitVec.ofInt 32 rate)).raise 30

/-- RATE = clamp(freq + slew). -/
def State.publishRate (s : State) : State :=
  s.publishRel (clampInt (-(2 ^ 31)) (2 ^ 31 - 1) (s.tms.freq + s.tms.slew)) 0

/-! ### Sources and state (R143, R144) -/

/-- Priority of a source, 0 not used. -/
def State.tmsPri (s : State) (src : Nat) : Nat :=
  match src with
  | 1 => s.get TMS_SRC_CFG.PRI_GNSS
  | 2 => s.get TMS_SRC_CFG.PRI_GPTP
  | 3 => s.get TMS_SRC_CFG.PRI_PAIR
  | _ => 0

def tmsValidFld (src : Nat) : Fld := ⟨TMS_STATUS, 11 + src, 1⟩
def State.tmsValid (s : State) (src : Nat) : Bool := s.getB (tmsValidFld src)

/-- The active source changes: source 28. -/
def State.setActive (src : Nat) (s : State) : State :=
  if s.get TMS_STATUS.SRC = src then s else (s.set TMS_STATUS.SRC src).raise 28

/-- The state changes: source 27. -/
def State.setTmsState (v : Nat) (s : State) : State :=
  if s.get TMS_STATUS.STATE = v then s else (s.set TMS_STATUS.STATE v).raise 27

/-- Slew ends: slew becomes 0 and RATE = freq is published. -/
def State.endSlew (s : State) : State :=
  ({ s with tms := { s.tms with slew := 0, slewLeft := 0 } }.setB TMS_STATUS.SLEW false).publishRate

/-- No source remains: HOLDOVER, or FREE where HOLD_LIMIT is 0, on the last frequency correction (R144). -/
def State.loseLock (s : State) : State :=
  let s := s.setActive 0
  let s := s.endSlew
  let s := { s with tms := { s.tms with holdFrom := s.now } }
  s.setTmsState (if s.get TMS_HOLD_LIMIT.LIMIT = 0 then 0 else 1)

/-- HOLD_S: seconds since LOCKED was left, or since reset, while the state is HOLDOVER or FREE. -/
def State.holdSeconds (s : State) : Nat :=
  if s.get TMS_STATUS.STATE = 2 then 0 else satTo 65535 (s.since s.tms.holdFrom / 1000000000)

/-- The valid source of highest priority, 0 if none. -/
def State.bestSource (s : State) : Nat :=
  [1, 2, 3].foldl (fun b n => if s.tmsValid n && s.tmsPri b < s.tmsPri n then n else b) 0

/-- A source becomes active, which locks. -/
def State.lockTo (src : Nat) (s : State) : State := (s.setActive src).setTmsState 2

/-! ### Observations (R138 to R141) -/

/-- The reason an observation is refused, 0 if it is accepted (R138). -/
def State.obsReason (s : State) (src l : Nat) : Nat :=
  if !s.getB TMS_CTRL.ENABLE || s.tmsPri src = 0 then 0x0321
  else if s.now < l || l + 1000000000 < s.now then 0x0320
  else if (tget s.tms.obs src).isSome then 0x030F
  else 0

/-- An accepted observation waits for the next whole millisecond of LTC (R139). -/
def State.acceptObs (src l m frac : Nat) (s : State) : State :=
  { s with tms := { s.tms with obs := tput s.tms.obs src { l := l, m := m, frac := frac, effectAt := (s.now / 1000000 + 1) * 1000000 } } }

/-- An observation that ETH (source 2) or PAIR (source 3) delivers: a refusal advances REJ and raises 31. -/
def State.deliverObs (src l m frac : Nat) (s : State) : State :=
  if s.obsReason src l = 0 then s.acceptObs src l m frac else (s.bump TMS_STATUS.REJ 1).raise 31

/-- A write of TMS_OBS_CTRL: with PUSH = 1 the GNSS observation in the observation registers is submitted. -/
def State.writeObsCtrl (value : Word) (s : State) : State :=
  if !bitAt value.toNat 31 then s
  else
    let l := s.get64 TMS_OBS_LTC_LO TMS_OBS_LTC_HI
    match s.obsReason 1 l with
    | 0 =>
      let s := s.acceptObs 1 l (s.get64 TMS_OBS_MT_LO TMS_OBS_MT_HI) (s.get TMS_OBS_FRAC.FRAC)
      (s.set TMS_OBS_CTRL.REASON 0x0300).setB TMS_OBS_CTRL.PEND true
    | c => (s.set TMS_OBS_CTRL.REASON c).raise 31

/-- One millisecond of error in units of 2^-16 ns. -/
def obsStepLimit : Int := 1000000 * 65536

/-- The slew limit in 2^-40 (R140): RATE_MAX µs/s. -/
def State.slewMax (s : State) : Int := ((s.get TMS_SLEW_MAX.RATE_MAX * 2 ^ 40 / 1000000 : Nat) : Int)

/-- The servo of R140 on the error `e`. -/
def State.servo (e : Int) (s : State) : State :=
  let s :=
    if obsStepLimit ≤ e || e ≤ -obsStepLimit then
      { s with tms := { s.tms with stepPend := some e, slew := 0, slewLeft := 0 } }.setB TMS_STATUS.STEP_PEND true
    else
      let freq := clampInt (-(2 ^ 31)) (2 ^ 31 - 1) (s.tms.freq + floorDivNat (e * ((s.reg TMS_SERVO_KF).toNat : Int)) (2 ^ 32))
      let slew := clampInt (-s.slewMax) s.slewMax (floorDivNat (e * ((s.reg TMS_SERVO_KP).toNat : Int)) (2 ^ 32))
      { s with tms := { s.tms with stepPend := none, freq := freq, slew := slew, slewLeft := e, slewFrom := s.now } }.setB TMS_STATUS.STEP_PEND false
  (s.setB TMS_STATUS.SLEW (decide (s.tms.slew ≠ 0))).publishRate

/-- One accepted observation takes effect (R139, R140, R143). Where no source is active its source becomes active, be it valid already or
not (log entry 112). -/
def State.obsEffect (src : Nat) (s : State) : State :=
  match tget s.tms.obs src with
  | none => s
  | some o =>
    if s.now < o.effectAt then s
    else
      let e := ((o.m : Int) * 65536 + o.frac) - s.mtFine o.l
      let fresh := !s.tmsValid src
      let s := { s with tms := { s.tms with
        obs := tdel s.tms.obs src
        lastEff := tput s.tms.lastEff src s.now
        validSince := if fresh then tput s.tms.validSince src s.now else s.tms.validSince } }
      let s := s.setB (tmsValidFld src) true
      let s := if src = 1 then s.setB TMS_OBS_CTRL.PEND false else s
      let act := s.get TMS_STATUS.SRC
      let s :=
        if act = 0 then s.lockTo src
        else if s.tmsPri act < s.tmsPri src && s.get TMS_SRC_CFG.SWITCH_HOLD = 0 then s.lockTo src
        else s
      if s.get TMS_STATUS.SRC = src then s.servo e else s

/-- The sources in order of falling priority. -/
def State.byPriority (s : State) : List Nat := [3, 2, 1, 0].flatMap fun p => [1, 2, 3].filter fun n => s.tmsPri n = p

/-- OBS_EFFECT (R139): the observations whose effect time has come, the highest priority first. -/
def execObsEffect (s : State) : Out := .next (s.byPriority.foldl (fun s src => s.obsEffect src) s)

/-- SLEW_END (R140): the slew term has applied the whole error. -/
def execSlewEnd (s : State) : Out :=
  let t := s.tms
  let done := floorDivNat ((s.since t.slewFrom : Int) * (t.slew.natAbs : Int)) (2 ^ 24)
  .next (if t.slew ≠ 0 && (t.slewLeft.natAbs : Int) ≤ done then s.endSlew else s)

/-- SOURCE_INVALID (R143, R144): a source whose latest accepted observation took effect more than 2 s ago is invalid. -/
def execSourceInvalid (s : State) : Out :=
  let s := [1, 2, 3].foldl (fun s n =>
    if s.tmsValid n && 2000000000 < s.since (tgetD s.tms.lastEff n 0) then s.setB (tmsValidFld n) false else s) s
  let act := s.get TMS_STATUS.SRC
  if act ≠ 0 && !s.tmsValid act then
    .next (if s.bestSource = 0 then s.loseLock else s.setActive s.bestSource)
  else .next s

/-- SOURCE_SWITCH (R143): a valid source of higher priority than the active one, valid for SWITCH_HOLD seconds, becomes
active. -/
def execSourceSwitch (s : State) : Out :=
  let act := s.get TMS_STATUS.SRC
  let best := [1, 2, 3].foldl (fun b n =>
    if s.tmsValid n && s.tmsPri b < s.tmsPri n && s.get TMS_SRC_CFG.SWITCH_HOLD * 1000000000 ≤ s.since (tgetD s.tms.validSince n 0)
    then n else b) act
  .next (if act ≠ 0 && best ≠ act then s.setActive best else s)

/-- HOLDOVER_EXPIRE (R144): HOLD_LIMIT seconds of HOLDOVER have passed. -/
def execHoldoverExpire (s : State) : Out :=
  .next (if s.get TMS_STATUS.STATE = 1 && s.get TMS_HOLD_LIMIT.LIMIT * 1000000000 ≤ s.since s.tms.holdFrom
    then s.setTmsState 0 else s)

/-- ENABLE 1 → 0 (R144, R145). -/
def State.tmsDisable (s : State) : State :=
  let s := s.setB TMS_CTRL.ENABLE false
  let s := { s with tms := { s.tms with obs := [], stepPend := none } }
  let s := (s.setB TMS_OBS_CTRL.PEND false).setB TMS_STATUS.STEP_PEND false
  if s.get TMS_STATUS.STATE = 2 then s.loseLock else s

/-- TMS_DISABLE (R144). -/
def execTmsDisable (s : State) : Out := .next (if s.getB TMS_CTRL.ENABLE then s.tmsDisable else s)

/-! ### Whole seconds and the pulse (R141, R142, R146, R316) -/

/-- A value in 2^-16 ns rounded to the nearest nanosecond, an exact half away from zero (R141). -/
def roundStep (e : Int) : Int :=
  if 0 ≤ e then (e + 32768).fdiv 65536 else -((-e + 32768).fdiv 65536)

/-- What TMS does as MT reaches a whole second (R141, R142, R146). A pending step takes effect there and its pulse is suppressed; else, at a
second that has not been taken, source 26, and TPULSE rises if enabled. -/
def State.mtSecond (s : State) : State :=
  let sec := floorDivNat s.mtNow 1000000000
  if sec ≤ s.tms.curSec then s
  else
    let on := s.getB TMS_CTRL.ENABLE && s.getB TMS_TP_CFG.TP_EN
    match s.tms.stepPend with
    | some e =>
      let taken := decide (sec ≤ s.tms.lastSec)
      let s := (s.publishRel s.relRate (roundStep e)).raise 29
      let after := floorDivNat s.mtNow 1000000000
      let s := { s with tms := { s.tms with
        stepPend := none, stepped := true, lastSec := max s.tms.lastSec (max sec after), curSec := after, steps := s.tms.steps + 1, lastFwd := decide (0 ≤ e) } }
      let s := s.setB TMS_STATUS.STEP_PEND false
      (if on && !taken then s.bump TMS_TP_STAT.SUPP 1 else s)
    | none =>
      let taken := decide (sec ≤ s.tms.lastSec)
      let s := { s with tms := { s.tms with lastSec := max s.tms.lastSec sec, curSec := sec } }
      if taken then s
      else
        let s := s.raise 26
        if !on then s
        else
          let s := (s.set TMS_TP_STAT.STATE (s.get TMS_STATUS.STATE)).set TMS_TP_STAT.SRC (s.get TMS_STATUS.SRC)
          let s := (s.setB TMS_TP_STAT.STEPPED s.tms.stepped).wrapInc TMS_TP_STAT.SEQ
          let s := s.set64 TMS_TP_LTC_LO TMS_TP_LTC_HI s.now
          { s with tms := { s.tms with stepped := false, pulse := some (s.now, s.get TMS_TP_CFG.WIDTH) } }

/-- TPULSE_FALL (R146): WIDTH µs, as it stood at the rise, after a rising edge. -/
def execTpulseFall (s : State) : Out :=
  match s.tms.pulse with
  | some (t, width) =>
    .next (if width * 1000 ≤ s.since t then { s with tms := { s.tms with pulse := none } } else s)
  | none => .next s

/-- TPULSE is driven: while pulses are enabled, and until a pulse that is high has completed (R145, R319). -/
def State.pulseDriven (s : State) : Bool := (s.getB TMS_CTRL.ENABLE && s.getB TMS_TP_CFG.TP_EN) || s.tms.pulse.isSome

/-- TPULSE_SHORT (R319): the pin has differed from its drive for over 1 µs while driven. -/
def execTpulseShort (s : State) : Out := .next (if s.pulseDriven then s.setB TMS_TP_STAT.SHORT true else s)

/-! ### Capture channels (R147, R148) -/

/-- COUNT and the head stamp of a capture channel follow its queue. -/
def State.showCap (ch : Nat) (s : State) : State :=
  let q := tgetD s.tms.caps ch []
  (s.set (TMS_CAP_STAT.COUNT ch) q.length).set64 (TMS_CAP_LTC_LO ch) (TMS_CAP_LTC_HI ch) (q.headD 0)

/-- An edge on capture channel `c`, with its 1 ns stamp (R147, R148). One too close to the edge before it advances OVR and raises nothing
(log entry 113). -/
def State.captureEdge (c : Nat) (rise : Bool) (stamp : Nat) (s : State) : State :=
  let old := tgetD s.tms.rises c []
  let s := if rise then { s with tms := { s.tms with rises := tput s.tms.rises c ((if old.length < 8 then old else old.tail) ++ [stamp]) } } else s
  if !bitAt (s.get (TMS_CAP_CFG.EDGE c)) (if rise then 0 else 1) then s
  else
    let close := match tget s.tms.capLast c with
      | some t => decide (stamp < t + 100)
      | none => false
    let q := tgetD s.tms.caps c []
    let s := { s with tms := { s.tms with capLast := tput s.tms.capLast c stamp } }
    if close then s.bump (TMS_CAP_STAT.OVR c) 1
    else if 16 ≤ q.length then (s.bump (TMS_CAP_STAT.OVR c) 1).raise 25
    else
      let s := { s with tms := { s.tms with caps := tput s.tms.caps c (q ++ [stamp]) } }.showCap c
      if q.isEmpty && s.getB (TMS_CAP_CFG.IRQ c) then s.raise 24 else s

/-- CAPTURE_EDGE (R147, R148). -/
def execCaptureEdge (ch : Fin 7) (rise : Bool) (stamp : Nat) (s : State) : Out := .next (s.captureEdge ch.val rise stamp)

/-- A write of TMS_CAP_STAT: POP removes the head stamp; ignored when empty. -/
def State.writeCapStat (ch : Nat) (value : Word) (s : State) : State :=
  if bitAt value.toNat 31 then
    { s with tms := { s.tms with caps := tput s.tms.caps ch (tgetD s.tms.caps ch []).tail } }.showCap ch
  else s

/-! ### Snapshot (R134) and the consistency check (R145) -/

/-- A companion register latched for a core. -/
def State.latchFor (core a : Nat) (w : Word) (s : State) : State :=
  { s with latch := tput s.latch (core * 2 ^ 32 + a) w }

/-- What a core last latched of a companion register; the register itself where it has latched nothing (log entry 9). -/
def State.latched (s : State) (core a : Nat) : Word := (tget s.latch (core * 2 ^ 32 + a)).getD (s.reg a)

/-- The access result of a read. -/
def State.answer (core : Nat) (w : Word) (s : State) : State := { s with access := .value core w }

/-- A read of TMS_LTC_LO latches the snapshot for the core. -/
def State.readLtc (core : Nat) (s : State) : State :=
  let mt := fromSigned 64 s.mtNow
  ((((s.latchFor core TMS_LTC_HI (BitVec.ofNat 32 (s.now / 2 ^ 32))).latchFor core TMS_MT_LO (BitVec.ofNat 32 mt)).latchFor
    core TMS_MT_HI (BitVec.ofNat 32 (mt / 2 ^ 32)))).answer core (BitVec.ofNat 32 s.now)

/-- A read of TMS_TP_STAT latches both words of the last pulse's LTC (chapter 14); SUPP then clears (R7). -/
def State.readTpStat (core : Nat) (s : State) : State :=
  (((s.latchFor core TMS_TP_LTC_LO (s.reg TMS_TP_LTC_LO)).latchFor core TMS_TP_LTC_HI (s.reg TMS_TP_LTC_HI)).answer core
    (s.reg TMS_TP_STAT)).set TMS_TP_STAT.SUPP 0

/-- The reported failure (R29): NOT_FITTED ahead of every other code, else the lowest code; of the failing tests with that
code the lowest offset. -/
def pickFailure (ts : List CheckTest) : Option (Nat × Nat) :=
  let key (t : CheckTest) : Nat := (if t.2.1 = 0x09 then 0 else t.2.1 + 1) * 2 ^ 32 + t.2.2
  (ts.filter (·.1)).foldl (fun b t =>
    match b with
    | none => some t.2
    | some c => if key t < key (true, c) then some t.2 else some c) none

/-- The tests of R104 on a region: REGION_BUSY while it is busy, NO_IMAGE where it is not loaded. -/
def State.regionTests (s : State) (r off : Nat) : List CheckTest :=
  [(s.busy r, 0x02, off), (!s.busy r && !s.loaded r, 0x01, off)]

/-- The tests of TMS's check (R145). -/
def State.tmsTests (s : State) : List CheckTest :=
  let g := s.tmsPri 1
  let p := s.tmsPri 2
  let q := s.tmsPri 3
  let w := s.get TMS_TP_CFG.WIDTH
  let sl := s.get TMS_SLEW_MAX.RATE_MAX
  [(decide (s.part = .s24) && g ≠ 0, 0x09, 0x60),
   (s.reg TMS_SERVO_KP = 0#32, 0x05, 0x64),
   (sl = 0 || 50 < sl, 0x05, 0x6C),
   (s.getB TMS_TP_CFG.TP_EN && (w < 100 || 500000 < w), 0x05, 0xA0),
   ((g ≠ 0 && (g = p || g = q)) || (p ≠ 0 && p = q), 0x08, 0x60)]
  ++ (if p ≠ 0 || q ≠ 0 then s.regionTests 7 0x60 else [])

/-- What a passed check starts: the pulse count restarts (TMS_TP_STAT.SEQ). -/
def State.tmsStart (s : State) : State := s.set TMS_TP_STAT.SEQ 0

end Sys2Proof.Machine
end

