-- ==== Sys2Proof/Machine/Arb.lean ====
section
/-! DEFINITION. ARB (R359 to R365): the two arbiters, their requesters and their ring. What a grant or a revocation does to
the block behind a requester is said in `ArbDecide.lean`. -/

namespace Sys2Proof.Machine

/-- Arbiter of a requester index. -/
def arbOf (i : Nat) : Nat := if i < 20 then 0 else 1

/-- The requester indices of an arbiter. -/
def arbIndices (a : Nat) : List Nat := if a = 0 then List.range 20 else (List.range 4).map (20 + ·)

def State.arbGranted (s : State) (a : Nat) : Bool := s.getB (ARB_STAT.GRANTED a)
def State.arbOwner (s : State) (a : Nat) : Nat := s.get (ARB_STAT.OWNER a)

/-- Does requester `i` hold its grant? -/
def State.arbHolds (s : State) (i : Nat) : Bool := s.arbGranted (arbOf i) && s.arbOwner (arbOf i) = i

/-- The update writer holds ARB1 (R76). -/
def State.arbHeldByUpdate (s : State) : Bool := s.arbHolds 22

/-- DRAINED follows FREEZE and the grant; it going to 1 raises 210 or 211 (R362). -/
def State.arbDrained (a : Nat) (s : State) : State :=
  let d := s.getB (ARB_CFG.FREEZE a) && !s.arbGranted a
  let was := s.getB (ARB_STAT.DRAINED a)
  let s := s.setB (ARB_STAT.DRAINED a) d
  if d && !was then s.raise (210 + a) else s

/-- The grant of an arbiter ends. -/
def State.arbFree (a : Nat) (s : State) : State :=
  let i := s.arbOwner a
  let s := ((s.setB (ARB_STAT.GRANTED a) false).set (ARB_STAT.OWNER a) 0).set (ARB_STAT.CLASS a) 0
  let s := { s with arb := { s.arb with grantAt := tdel s.arb.grantAt a } }
  let s := if i = 23 then s.setB ARB_HREQ.GRANT false else s
  s.arbDrained a

/-- Requester `i` raises a request; one outstanding is kept (R359). -/
def State.arbRequest (i : Nat) (s : State) : State :=
  if (tget s.arb.since i).isSome then s
  else { s with arb := { s.arb with since := tput s.arb.since i s.now } }.setB (ARB_REQ.PEND i) true

/-- Requester `i` releases its grant or withdraws its request. -/
def State.arbRelease (i : Nat) (s : State) : State :=
  let s := if s.arbHolds i then s.arbFree (arbOf i) else s
  { s with arb := { s.arb with since := tdel s.arb.since i } }.setB (ARB_REQ.PEND i) false

/-- Class of a requester; 0 where an ARB1 index holds no object (R361). -/
def State.arbClass (s : State) (i : Nat) : Nat := if s.getB (ARB_REQ.LIVE i) then s.get (ARB_REQ.CLASS i) else 0

/-- May a request be granted? An ARB0 requester must exist, and FEN be present (R365, R366). -/
def State.arbEligible (s : State) (i : Nat) : Bool :=
  (tget s.arb.since i).isSome && !s.arbHolds i && (20 ≤ i || (s.getB (ARB_REQ.LIVE i) && s.loaded 4 && !s.busy 4))

/-- The request that would be granted: highest class, then earliest first raise, then lowest index (R359). -/
def State.arbBest (s : State) (a : Nat) : Option Nat :=
  ((arbIndices a).filter s.arbEligible).foldl (fun b i =>
    match b with
    | none => some i
    | some j =>
      if s.arbClass j < s.arbClass i || (s.arbClass i = s.arbClass j && tgetD s.arb.since i 0 < tgetD s.arb.since j 0) then some i else some j) none

/-- Pending REQ_CLASS settings take force at a decision (R364). -/
def State.arbApply (a : Nat) (s : State) : State :=
  let s := (arbIndices a).foldl (fun s i =>
    match tget s.arb.newClass i with
    | some (c, l) => { s with arb := { s.arb with newClass := tdel s.arb.newClass i, limit := tput s.arb.limit i l } }.set (ARB_REQ.CLASS i) c
    | none => s) s
  if s.arbGranted a then s.set (ARB_STAT.CLASS a) (s.arbClass (s.arbOwner a)) else s

/-- Requester `i` is granted. -/
def State.arbGrant (i : Nat) (s : State) : State :=
  let a := arbOf i
  let s := ((s.setB (ARB_STAT.GRANTED a) true).set (ARB_STAT.OWNER a) i).set (ARB_STAT.CLASS a) (s.arbClass i)
  let s := { s with arb := { s.arb with grantAt := tput s.arb.grantAt a s.now } }.setB (ARB_REQ.PEND i) false
  if i = 23 then s.setB ARB_HREQ.GRANT true else s

/-- The grant of an arbiter is revoked: its request stays pending with its first-raise LTC (R360, R361). -/
def State.arbRevoke (a : Nat) (s : State) : State :=
  let i := s.arbOwner a
  let s := ((s.arbFree a).setB (ARB_REQ.PEND i) true).bump (ARB_CNT.REVOKE a) 1
  let s := if i = 23 then s.setB ARB_HREQ.REVOKED true else s
  if a = 1 then s.raise 212 else s

/-- Is a grant to be revoked for a request of a class strictly above it? -/
def State.arbOutranked (s : State) (a : Nat) : Bool :=
  s.arbGranted a && (s.arbBest a).any fun i => decide (s.arbClass (s.arbOwner a) < s.arbClass i)

/-- A write of ARB_CFG(a) (R362). -/
def State.writeArbCfg (a : Nat) (value : Word) (s : State) : State := (s.setB (ARB_CFG.FREEZE a) (bitAt value.toNat 0)).arbDrained a

/-- A write of ARB_HREQ (R361): REQ requests or releases ARB1 for host storage writes; REVOKED is W1C. -/
def State.writeHreq (value : Word) (s : State) : State :=
  let req := bitAt value.toNat 31
  let s := if bitAt value.toNat 29 then s.setB ARB_HREQ.REVOKED false else s
  let s := s.setB ARB_HREQ.REQ req
  if req then s.arbRequest 23 else s.arbRelease 23

/-- STARVE (R363): the wait of an outstanding request exceeds LIMIT. -/
def execArbStarve (i : Fin 24) (s : State) : Out :=
  let n := i.val
  let lim := if s.getB (ARB_REQ.LIVE n) then tgetD s.arb.limit n 0 else 0
  match tget s.arb.since n with
  | some t =>
    if lim ≠ 0 && lim * 1000 < s.since t && !s.getB (ARB_REQ.STARVE n) then
      .next ((s.setB (ARB_REQ.STARVE n) true).raise (208 + arbOf n))
    else .next s
  | none => .next s

/-- ARB_WAIT as it reads: from the first raise until now, or until the present grant; 0 with no request. -/
def State.arbWait (s : State) (i : Nat) : Nat :=
  match tget s.arb.since i with
  | some t => satTo 0xFFFFFFFF ((if s.arbHolds i then tgetD s.arb.grantAt (arbOf i) t - t else s.since t) / 1000)
  | none => 0

/-! ### Commands (R364) -/

def State.reqLive (s : State) (i : Nat) : Bool := s.getB (ARB_REQ.LIVE i)

/-- REQ_CREATE. -/
def opReqCreate (c : Cmd) (s : State) : State :=
  let a := c.arg 16 1
  let cls := c.arg 17 1
  let who := c.arg 18 1
  let bad := 1 < a || 3 < cls || 3 < who || (a = 0 && who ≠ 0)
  let i := if a = 0 then (List.range 20).find? fun i => !s.reqLive i else some (20 + who)
  match i with
  | none => c.failed 0x04 s
  | some i =>
    if bad then c.failed 0x05 s
    else if s.reqLive i then c.failed 0x20 s
    else
      let s := (((s.advGen 0x0D i).setB (ARB_REQ.LIVE i) true).set (ARB_REQ.CLASS i) cls).setB (ARB_REQ.STARVE i) false
      let s := { s with arb := { s.arb with limit := tput s.arb.limit i (c.arg 20 4), newClass := tdel s.arb.newClass i } }
      c.created (s.handle 0x0D i) s

/-- REQ_CREATE (R364). -/
def execReqCreate (ring : Fin 1) (e : Entry) (s : State) : Out := .next (s.runRow 0x0B ring.val 1 0 e opReqCreate)

/-- Is requester `i` bound to a FEN stream? -/
def State.reqBound (s : State) (i : Nat) : Bool := s.fen.streams.any fun x => x.2.req = i

/-- REQ_DESTROY. -/
def opReqDestroy (c : Cmd) (s : State) : State :=
  match s.checkHandle 0x0D s.reqLive c.handle with
  | some _ => c.finish 0x03 s
  | none =>
    let i := hIndex c.handle
    if s.reqBound i then c.finish 0x21 s
    else
      let s := { s with arb := { s.arb with limit := tdel s.arb.limit i, newClass := tdel s.arb.newClass i } }
      c.finish 0x00 ((((s.setB (ARB_REQ.LIVE i) false).setB (ARB_REQ.STARVE i) false).set (ARB_REQ.CLASS i) 0))

/-- REQ_DESTROY (R364). -/
def execReqDestroy (ring : Fin 1) (e : Entry) (s : State) : Out := .next (s.runRow 0x0B ring.val 2 0 e opReqDestroy)

/-- REQ_CLASS. -/
def opReqClass (c : Cmd) (s : State) : State :=
  match s.checkHandle 0x0D s.reqLive c.handle with
  | some _ => c.finish 0x03 s
  | none =>
    if 3 < c.arg 16 1 then c.finish 0x05 s
    else c.finish 0x00 { s with arb := { s.arb with newClass := tput s.arb.newClass (hIndex c.handle) (c.arg 16 1, c.arg 20 4) } }

/-- REQ_CLASS (R364). -/
def execReqClass (ring : Fin 1) (e : Entry) (s : State) : Out := .next (s.runRow 0x0B ring.val 3 0 e opReqClass)

/-- ARB's check runs the ring checks only (R364). -/
def State.arbTests (s : State) : List CheckTest := s.ringTests 0x0B

end Sys2Proof.Machine
end

