-- ==== Sys2Proof/Machine/Feed.lean ====
section
/-! DEFINITION. What blocks hand to Canvas and to YLD: bodies from FEN, ETH and PAIR (R379), grid-head planes from FEN (R418)
and moisture frames from BUS (R436). -/

namespace Sys2Proof.Machine

/-- The source that a direct feed names (Table 17-2). -/
def State.fedSource (s : State) (kind link : Nat) : Option (Nat × FusSrc) :=
  s.fus.srcs.find? fun x => x.2.feed = 1 && x.2.kind = kind && x.2.link = link

/-- A body is signalled to FUS; nothing where no source names the feed. -/
def State.fusFeed (kind link addr : Nat) (tov : Option Nat) (s : State) : State :=
  if (s.fedSource kind link).isSome then
    { s with fus := { s.fus with inbox := s.fus.inbox ++ [{ kind := kind, link := link, addr := addr, tov := tov }] } }
  else s

/-- FUS still reads the body at `addr` (R384). -/
def State.fusHolds (s : State) (addr : Nat) : Bool := s.fus.inbox.any (fun x => x.addr = addr) || s.fus.bodies.any fun b => b.addr = addr

/-- One lateness of R422. -/
def State.yldLate (s : State) : State := ((s.bump YLD_CNT.LATE 1).detViol SYS_DET_STATUS.YLD_LATE).raise 242

/-- The stamp p of the window that ends at `e` (R416). -/
def State.yldP (s : State) (e : Nat) : Nat := e - s.get YLD_CFG.TD_MS * 1000000 - 5000000

/-- The end of the last window whose compute is due by now (R416); none where none has been. -/
def State.yldDue (s : State) : Option Nat :=
  let cd := s.get YLD_CFG.CD_MS * 1000000
  let next := match s.yld.nextE with
    | some e => some e
    | none => (s.inp.flowQ.head?).map (·.endLtc)
  match next with
  | some e => if e + cd ≤ s.now then some (e + (s.now - (e + cd)) / 10000000 * 10000000) else s.yld.lastE
  | none => s.yld.lastE

/-- A loss window reaches YLD (R415): late where a compute has needed it (R422). -/
def State.yldLossIn (w : LacWin) (s : State) : State :=
  let s := { s with inp := { s.inp with lacQ := s.inp.lacQ ++ [w] } }
  let needed (e : Nat) : Bool := decide (w.endLtc ≤ s.yldP e + s.get YLD_LTD.LTD_MS * 1000000 + w.winMs * 1000000)
  if s.enabled 0x0D && s.getB (YLD_LOSS.EN w.input) && s.yldDue.any needed then s.yldLate else s

/-- The grid-head job of the instant at `l` has committed; its payload holds the EDGE plane (R392, R418). -/
def State.yldHead (l : Nat) (payload : List Byte) (s : State) : State :=
  if !s.enabled 0x0D then s
  else
    let area := s.imgFld FUS_GRID_CAP.GW * s.imgFld FUS_GRID_CAP.GH
    let s := { s with yld := { s.yld with heads := s.yld.heads ++ [(l, (payload.drop (3 * area)).take area, s.now)] } }
    if s.get YLD_HDR_CFG.WMODE = 1 && s.yldDue.any fun e => l ≤ s.yldP e then s.yldLate else s

/-- A moisture frame: two bytes at offset BYTE, with the start-of-frame LTC (Table 19-1, R436). -/
def State.yldMoist (sof : Nat) (data : List Byte) (s : State) : State :=
  if !s.enabled 0x0D || !s.getB YLD_MOIST_CFG.MODE then s
  else
    let v := natLE ((data.drop (s.get YLD_MOIST_CFG.BYTE)).take 2)
    let l := s.yld.moist
    let s := { s with yld := { s.yld with moist := (if l.length < 16 then l else l.tail) ++ [(sof, v, s.now)] } }
    if s.yldDue.any fun e => sof ≤ e then s.yldLate else s

end Sys2Proof.Machine
end

