-- ==== Sys2Proof/Machine/Fen.lean ====
section
/-! DEFINITION. FEN (R347 to R358, R366): packages, streams, jobs and the camera and Canvas inputs of streams. -/

namespace Sys2Proof.Machine

/-! ### Packages and SRAM (R349 to R352) -/

/-- Header field (Table 16-1). -/
def Pkg.f (p : Pkg) (o n : Nat) : Nat := natLE ((p.hdr.drop o).take n)
def Pkg.id (p : Pkg) : Nat := p.f 8 4
def Pkg.inKinds (p : Pkg) : Nat := p.f 13 1
def Pkg.inW (p : Pkg) : Nat := p.f 14 2
def Pkg.inH (p : Pkg) : Nat := p.f 16 2
def Pkg.inNch (p : Pkg) : Nat := p.f 18 1
def Pkg.inBytes (p : Pkg) : Nat := p.f 20 4
def Pkg.outBytes (p : Pkg) : Nat := p.f 24 4
def Pkg.sramW (p : Pkg) : Nat := p.f 28 4
def Pkg.sramS (p : Pkg) : Nat := p.f 32 4
def Pkg.cycles (p : Pkg) : Nat := p.f 36 4
def Pkg.dramLen (p : Pkg) : Nat := p.f 40 8

/-- Header fields within Table 16-1, the reserved bytes 0. -/
def Pkg.rangeOk (p : Pkg) : Bool :=
  p.f 19 1 = 0 && p.f 48 16 = 0 && p.f 112 96 = 0 &&
  p.f 12 1 ≤ 2 && p.inKinds ≤ 7 && 1 ≤ p.inW && p.inW ≤ 8192 && 1 ≤ p.inH && p.inH ≤ 8192 && 1 ≤ p.inNch && p.inNch ≤ 32
    && 1 ≤ p.outBytes && p.outBytes ≤ 16777216

def Pkg.formatOk (p : Pkg) : Bool := p.f 0 4 = 0x4B504E46 && p.f 4 2 = 1 && p.f 6 2 = 0x100

/-- The package in a slot, once usable. -/
def State.pkg (s : State) (slot : Nat) : Option Pkg :=
  match tget s.fen.pkgs slot with
  | some p => if p.load.isNone then some p else none
  | none => none

/-- Bytes of one input area (R353). -/
def Pkg.area (p : Pkg) (kind : Nat) : Nat := if kind = 1 then 2 * (p.inW * p.inH * p.inNch) else p.inBytes

/-- SRAM in use under R350; a load that runs counts. -/
def State.sramUsed (s : State) : Nat :=
  let w := s.fen.pkgs.foldl (fun a x => a + x.2.sramW) 0
  let m := s.fen.pkgs.foldl (fun a x => max a x.2.sramS) 0
  let areas := s.fen.streams.foldl (fun a x => a + ((tget s.fen.pkgs x.2.slot).map fun p => p.area x.2.kind).getD 0) 0
  w + m + areas

def sramSize : Nat := 33554432

/-- The running job is in its commit phase (R358): start, compute and DRAM stalls have passed. -/
def State.fenCommit (s : State) : Bool :=
  s.fen.run.any fun (r : FenRun) =>
    match tget s.fen.streams r.stream with
    | some t => (s.pkg t.slot).any fun p => decide ((r.start + p.cycles + r.stall) * 5 ≤ s.since r.at0 * 6)
    | none => false

/-- STATE of a stream (FEN_STR): idle, waiting, running or commit. -/
def State.fenState (s : State) (x : Nat) (t : FenStream) : Nat :=
  if s.fen.run.any (fun (r : FenRun) => r.stream = x) then (if s.fenCommit then 3 else 2) else if (tget s.arb.since t.req).isSome then 1 else 0

/-- FEN_STR as it reads now. -/
def State.fenStr (s : State) (x : Nat) : Nat :=
  match tget s.fen.streams x with
  | some t => putBits (s.reg (FEN_STR x)).toNat 28 2 (s.fenState x t)
  | none => (s.reg (FEN_STR x)).toNat

/-- FEN's count and status registers follow its packages and streams. -/
def State.fenShow (s : State) : State :=
  let s := (s.set FEN_STATUS.PKGS ((List.range 8).foldr (fun i m => 2 * m + b2n (s.pkg i).isSome) 0)).set FEN_STATUS.STREAMS s.fen.streams.length
  let s := s.set FEN_SRAM.FREE ((sramSize - s.sramUsed) / 1024)
  let s := match s.fen.run with
    | some r => (s.setB FEN_STATUS.RUN true).set FEN_STATUS.STREAM r.stream
    | none => (s.setB FEN_STATUS.RUN false).set FEN_STATUS.STREAM 0
  let s := (List.range 8).foldl (fun s i =>
    match s.pkg i with
    | some p =>
      (((s.setB (FEN_PKG.LOADED i) true).setB (FEN_PKG.FAULT i) p.fault).set (FEN_PKG.USERS i) (s.fen.streams.filter fun x => x.2.slot = i).length).set
        (FEN_PKG_ID.PKG_ID i) p.id
    | none => (s.setReg (FEN_PKG i) 0#32).setReg (FEN_PKG_ID i) 0#32) s
  (List.range 16).foldl (fun s x =>
    match tget s.fen.streams x with
    | some t =>
      ((((s.setB (FEN_STR.LIVE x) true).set (FEN_STR.STATE x) (s.fenState x t)).set (FEN_STR.RING x) t.ring).set (FEN_STR.SLOT x) t.slot).set (FEN_STR_JSEQ.JSEQ x) t.jseq
    | none => (s.setReg (FEN_STR x) 0#32).setReg (FEN_STR_JSEQ x) 0#32) s

/-- An opcode of the control ring on a job ring is unknown there (R355). -/
def controlOnly (op : Cmd → State → State) (c : Cmd) (s : State) : State := if c.ring = 0 then op c s else c.finish 0x05 s

/-- PKG_LOAD (R351): the header is read and checked; the body's copy and the digests follow. -/
def opPkgLoad (c : Cmd) (s : State) : State :=
  let slot := c.arg 16 1
  let a := c.arg 24 8
  let d := c.arg 32 8
  let p : Pkg := { hdr := memBytes s.dram a 256, hdrAddr := a, dramAddr := d, load := some c.id }
  let inW := s.inWins 0x0A a 256
  let range := 7 < slot || a % 4096 ≠ 0 || d % 64 ≠ 0 || !inW
    || (inW && (!s.inWins 0x0A (a + 256) p.sramW || (p.dramLen ≠ 0 && !s.inWins 0x0A d p.dramLen) || !p.rangeOk))
  let s' := { s with fen := { s.fen with pkgs := tput s.fen.pkgs slot p } }
  if s.busy 4 then c.finish 0x02 s
  else if range then c.finish 0x05 s
  else if (tget s.fen.pkgs slot).isSome then c.finish 0x08 s
  else if !p.formatOk then c.finish 0x0E s
  else if sramSize < s'.sramUsed then c.finish 0x20 s
  else s'.fenShow

/-- PKG_LOAD (R351). -/
def execPkgLoad (ring : Fin 17) (e : Entry) (s : State) : Out := .next (s.runRow 0x0A ring.val 1 0 e (controlOnly opPkgLoad))

/-- PKG_LOAD_DONE (R351): the copy and both digest checks end. -/
def execPkgLoadDone (slot : Fin 8) (s : State) : Out :=
  match tget s.fen.pkgs slot.val with
  | none => .next s
  | some p =>
    match p.load with
    | none => .next s
    | some id =>
      let body := memBytes s.dram (p.hdrAddr + 256) p.sramW
      if Config.sha384 body = p.f 64 48 && Config.sha384 (p.hdr.take 208) = p.f 208 48 then
        let last := if s.fen.lastPkg = some slot.val then none else s.fen.lastPkg
        let s := { s with fen := { s.fen with pkgs := tput s.fen.pkgs slot.val { p with load := none, body := body }, lastPkg := last } }
        .next ((s.completeSelf 0x0A 0 id 0x00).fenShow)
      else
        let s := { s with fen := { s.fen with pkgs := tdel s.fen.pkgs slot.val } }
        .next ((s.completeSelf 0x0A 0 id 0x24).fenShow)

/-- PKG_UNLOAD. -/
def opPkgUnload (c : Cmd) (s : State) : State :=
  let slot := c.arg 16 1
  if s.busy 4 then c.finish 0x02 s
  else if 7 < slot then c.finish 0x05 s
  else if s.fen.streams.any (fun x => x.2.slot = slot) then c.finish 0x21 s
  else if (s.pkg slot).isNone then c.finish 0x25 s
  else
    let last := if s.fen.lastPkg = some slot then none else s.fen.lastPkg
    c.finish 0x00 { s with fen := { s.fen with pkgs := tdel s.fen.pkgs slot, lastPkg := last } }.fenShow

/-- PKG_UNLOAD (R351). -/
def execPkgUnload (ring : Fin 17) (e : Entry) (s : State) : Out := .next (s.runRow 0x0A ring.val 2 0 e (controlOnly opPkgUnload))

/-! ### Streams (R351 to R354) -/

def State.strLive (s : State) (x : Nat) : Bool := (tget s.fen.streams x).isSome
def State.setStr (x : Nat) (t : FenStream) (s : State) : State := { s with fen := { s.fen with streams := tput s.fen.streams x t } }

/-- The stream bound to a job ring. -/
def State.strOnRing (s : State) (r : Nat) : Option (Nat × FenStream) := s.fen.streams.find? fun x => x.2.ring = r

/-- STREAM_CREATE (R351 to R353). -/
def opStreamCreate (c : Cmd) (s : State) : State :=
  let r := c.arg 16 1
  let slot := c.arg 17 1
  let kind := c.arg 18 1
  let req := c.arg 20 4
  let i := hIndex req
  match tfree s.fen.streams 16 with
  | none => if s.busy 4 then c.failed 0x02 s else if (s.checkHandle 0x0D s.reqLive req).isSome then c.failed 0x03 s else c.failed 0x04 s
  | some x =>
    let t : FenStream := { ring := r, slot := slot, kind := kind, req := i }
    let s' := s.setStr x t
    if s.busy 4 then c.failed 0x02 s
    else if (s.checkHandle 0x0D s.reqLive req).isSome then c.failed 0x03 s
    else if 7 < slot || r = 0 || 16 < r || 2 < kind then c.failed 0x05 s
    else if 20 ≤ i || s.reqBound i then c.failed 0x08 s
    else if (s.pkg slot).isSome && sramSize < s'.sramUsed then c.failed 0x20 s
    else if !s.ringUsed 0x0A r || (s.strOnRing r).isSome then c.failed 0x22 s
    else
      match s.pkg slot with
      | none => c.failed 0x25 s
      | some p =>
        if !bitAt p.inKinds kind then c.failed 0x23 s
        else if p.fault then c.failed 0x25 s
        else
          let s := s'.advGen 5 x
          c.created (s.handle 5 x) s.fenShow

/-- STREAM_CREATE (R351). -/
def execFenStreamCreate (ring : Fin 17) (e : Entry) (s : State) : Out :=
  .next (s.runRow 0x0A ring.val 3 0 e (controlOnly opStreamCreate))

/-- The four indices of a ring return to 0, and SEQ starts again (R122). -/
def State.ringZero (b r : Nat) (s : State) : State :=
  let s := ((s.set (RING_PI b r) 0).set (RING_CI b r) 0).set (CRING_PI b r) 0 |>.set (CRING_CI b r) 0
  s.setRing b r { s.ring b r with seq := 0 }

/-- A stream ends (R354): its running job halts without output, its jobs complete with STREAM_GONE in order, its ring's
entries and indices go, and ring and requester are free. -/
def State.strEnd (x : Nat) (s : State) : State :=
  match tget s.fen.streams x with
  | none => s
  | some t =>
    let s := if s.fen.run.any (fun (r : FenRun) => r.stream = x) then { s with fen := { s.fen with run := none } } else s
    let s := s.arbRelease t.req
    let s := t.jobs.foldl (fun s j => s.completeSelf 0x0A t.ring j.id 0x26) s
    let s := { s with fen := { s.fen with streams := tdel s.fen.streams x } }
    s.ringZero 0x0A t.ring

/-- STREAM_DESTROY (R354). -/
def opStreamDestroy (c : Cmd) (s : State) : State :=
  if s.busy 4 then c.finish 0x02 s
  else
    match s.checkHandle 5 s.strLive c.handle with
    | some _ => c.finish 0x03 s
    | none => c.finish 0x00 ((s.strEnd (hIndex c.handle)).fenShow)

/-- STREAM_DESTROY (R354). -/
def execFenStreamDestroy (ring : Fin 17) (e : Entry) (s : State) : Out :=
  .next (s.runRow 0x0A ring.val 4 0 e (controlOnly opStreamDestroy))

/-! ### Jobs (R355 to R358) -/

/-- The head job of a stream requests ARB0 once it is ready (R356). -/
def State.fenRequest (x : Nat) (s : State) : State :=
  match tget s.fen.streams x with
  | some t =>
    match t.jobs with
    | j :: _ => if j.ready then (s.arbRequest t.req).fenShow else s
    | [] => s
  | none => s

/-- JOB_REQUEST (R356). -/
def execJobRequest (x : Fin 16) (s : State) : Out := .next (s.fenRequest x.val)

/-- JOB (R355): a DRAM job is ready when it is taken. -/
def opFenJob (c : Cmd) (s : State) : State :=
  match s.strOnRing c.ring with
  | none => c.finish (if c.ring = 0 then 0x05 else 0x03) s
  | some (x, t) =>
    match s.pkg t.slot with
    | none => c.finish 0x25 s
    | some p =>
      let out := c.arg 24 8
      let range := out % 64 ≠ 0 || !s.inWins 0x0A out (64 + p.outBytes) || (t.kind = 0 && !s.inWins 0x0A (c.arg 16 8) p.inBytes)
      if (s.checkHandle 5 s.strLive c.handle).isSome || hIndex c.handle ≠ x then c.finish 0x03 s
      else if range then c.finish 0x05 s
      else if c.flag 8 && s.getB (ARB_CFG.FREEZE 0) then c.finish 0x0A s
      else
        let j : FenJob := {
          id := c.id, tag := c.e.tag.toNat, inAddr := c.arg 16 8, outAddr := out, stamp := if t.kind = 0 then c.arg 32 8 else 0,
          param := c.arg 40 24, ready := t.kind = 0, input := none }
        (s.setStr x { t with jobs := t.jobs ++ [j] }).fenRequest x

/-- JOB (R355). -/
def execFenJob (ring : Fin 17) (e : Entry) (s : State) : Out := .next (s.runRow 0x0A ring.val 0x10 0x0100 e opFenJob)

/-- The grant of ARB0 requester `i` reaches FEN: the head job of its stream starts; a DRAM job copies its input at its first
grant (R356, R358). How long DRAM stalls its compute is a free value. -/
def State.fenGranted (i : Nat) (s : State) : State :=
  match s.fen.streams.find? fun x => x.2.req = i with
  | none => s
  | some (x, t) =>
    match t.jobs, s.pkg t.slot with
    | j :: rest, some p =>
      let input := if t.kind = 0 && j.input.isNone then some (memBytes s.dram j.inAddr p.inBytes) else j.input
      let j := { j with grantLtc := some (j.grantLtc.getD s.now), input := input }
      let run : FenRun := { stream := x, at0 := s.now, start := if s.fen.lastPkg = some t.slot then 600 else 2400, stall := Config.freeValue s.free, section0 := memBytes s.dram p.dramAddr p.dramLen }
      let s := s.drawn.setStr x { t with jobs := j :: rest }
      { s with fen := { s.fen with run := some run, lastPkg := some t.slot } }.fenShow
    | _, _ => s

/-- A revocation of ARB0 reaches FEN: the job halts and restarts at its next grant (R360). -/
def State.fenRevoked (s : State) : State :=
  match s.fen.run with
  | none => s
  | some r =>
    let s := { s with fen := { s.fen with run := none } }
    let s := match tget s.fen.streams r.stream with
      | some t =>
        match t.jobs with
        | j :: rest => s.setStr r.stream { t with jobs := { j with revokes := satTo 0xFFFF (j.revokes + 1) } :: rest }
        | [] => s
      | none => s
    (((s.bump FEN_CNT.REVOKE 1).raise 194)).fenShow

/-- The running job of stream `x` ends with a code: its area and grant are free, and the next job may ask. -/
def State.jobEnd (x code : Nat) (s : State) : State :=
  match tget s.fen.streams x with
  | none => s
  | some t =>
    match t.jobs with
    | [] => s
    | j :: rest =>
      let areas := match j.frame with
        | some k => tdel t.areas k
        | none => t.areas
      let s := s.setStr x { t with jobs := rest, jseq := (t.jseq + 1) % 2 ^ 32, areas := areas }
      let s := ({ s with fen := { s.fen with run := none } }.arbRelease t.req)
      ((s.completeSelf 0x0A t.ring j.id code).fenRequest x).fenShow

/-- The output of a job (Table 16-5). -/
def State.jobOutput (s : State) (x : Nat) (t : FenStream) (j : FenJob) (p : Pkg) (payload : Nat) : List Byte :=
  bytesLE 4 (s.handle 5 x) ++ bytesLE 4 ((t.jseq + 1) % 2 ^ 32) ++ bytesLE 8 j.tag ++ bytesLE 8 j.stamp ++ bytesLE 8 (j.grantLtc.getD 0) ++ bytesLE 8 s.now
    ++ bytesLE 4 p.id ++ bytesLE 2 j.flags ++ bytesLE 2 j.revokes ++ bytesLE 4 j.cseq ++ bytesLE 4 p.outBytes ++ bytesLE 8 0
    ++ bytesLE p.outBytes payload

/-- JOB_COMPLETE (R358): start, compute and commit have passed. A package in FAULT gives 0x27 and no output. A DRAM section
changed since the start leaves the results undefined (R367): a free payload. The output of a
stream that a FUS source names goes there (R371), and that of the grid head to YLD (R418). -/
def execJobComplete (x : Fin 16) (s : State) : Out :=
  match s.fen.run, tget s.fen.streams x.val with
  | some r, some t =>
    match t.jobs, s.pkg t.slot with
    | j :: _, some p =>
      if r.stream ≠ x.val || !s.fenCommit then .next s
      else if p.fault then .next (s.jobEnd x.val 0x27)
      else
        let same := decide (memBytes s.dram p.dramAddr p.dramLen = r.section0)
        let (payload, s) := if same then (Config.fenResult p.body r.section0 (j.input.getD []) j.param, s) else (Config.freeValue s.free, s.drawn)
        let bytes := s.jobOutput x.val t j p payload
        let h := s.handle 5 x.val
        let s := ((s.dramPuts j.outAddr bytes).jobEnd x.val 0x00).fusFeed 1 h (j.outAddr + 64) (some j.stamp)
        .next (if t.kind = 2 && h = (s.reg FUS_HEAD).toNat then s.yldHead j.lk (bytes.drop 64) else s)
    | _, _ => .next s
  | _, _ => .next s

/-- FEN_SRAM_CORRECTED (R347). -/
def execFenSramCorrected (s : State) : Out := .next ((s.bump FEN_CNT.CORR 1).raise 195)

/-- SRAM_UE (R347): the running job ends with 0x27; an error in the body of a package marks it FAULT. -/
def execSramUe (slot : Option (Fin 8)) (s : State) : Out :=
  let s := match slot with
    | some k =>
      match s.pkg k.val with
      | some p => { s with fen := { s.fen with pkgs := tput s.fen.pkgs k.val { p with fault := true } } }
      | none => s
    | none => s
  let s := match s.fen.run with
    | some r => s.jobEnd r.stream 0x27
    | none => s
  .next ((s.raise 196).fenShow)

/-! ### Camera and Canvas inputs (R356, R357) -/

/-- FEN cannot accept a line of a frame. -/
def State.fenRefuse (s : State) : State := (s.bump FEN_CNT.IN_DROP 1).raise 197

/-- A line of camera frame `k` for stream `h`, `w` pixels of `nch` channels: is it accepted? The first line of a frame binds
the earliest unbound job and takes a free input area. -/
def State.fenLine (h k w nch : Nat) (row : List Byte) (s : State) : State × Bool :=
  if s.busy 4 || !s.loaded 4 || (s.checkHandle 5 s.strLive h).isSome then (s, false)
  else
    let x := hIndex h
    match tget s.fen.streams x with
    | none => (s, false)
    | some t =>
      match s.pkg t.slot with
      | none => (s, false)
      | some p =>
        match tget t.areas k with
        | some rows => (if p.inH ≤ rows.length then s else s.setStr x { t with areas := tput t.areas k (rows ++ [row]) }, true)
        | none =>
          if t.kind ≠ 1 || w ≠ p.inW || nch ≠ p.inNch || 2 ≤ t.areas.length || !(t.jobs.any fun j => j.frame.isNone) then (s.fenRefuse, false)
          else
            let bind := t.jobs.foldl (fun (acc : List FenJob × Bool) j =>
              if !acc.2 && j.frame.isNone then (acc.1 ++ [{ j with frame := some k }], true) else (acc.1 ++ [j], acc.2)) ([], false)
            (s.setStr x { t with jobs := bind.1, areas := tput t.areas k [row] }, true)

/-- The rows that FEN holds of camera frame `k` take free values. -/
def State.fenBlur (h k : Nat) (s : State) : State :=
  let x := hIndex h
  match tget s.fen.streams x with
  | none => s
  | some t =>
    match tget t.areas k with
    | none => s
    | some rows =>
      let n := (rows.map (·.length)).foldl max 0
      let blur := (List.range rows.length).zip rows |>.map fun e =>
        (List.range e.2.length).map fun i => BitVec.ofNat 8 (Config.freeValue (s.free + e.1 * n + i))
      { s.setStr x { t with areas := tput t.areas k blur } with free := s.free + rows.length * n }

/-- Camera frame `k` has closed: its job becomes ready; missing rows are 0 and carry IN_SHORT. -/
def State.fenFrameEnd (h k sof cseq : Nat) (anyFlag : Bool) (s : State) : State :=
  let x := hIndex h
  match tget s.fen.streams x with
  | none => s
  | some t =>
    match tget t.areas k, s.pkg t.slot with
    | some rows, some p =>
      let short := decide (rows.length < p.inH)
      let input := rows.flatten ++ List.replicate ((p.inH - rows.length) * p.inW * p.inNch) 0#8
      let f (j : FenJob) : FenJob :=
        if j.frame = some k then { j with ready := true, input := some input, stamp := sof, cseq := cseq, flags := b2n short + 2 * b2n anyFlag } else j
      (s.setStr x { t with jobs := t.jobs.map f }).fenRequest x
    | _, _ => s

/-- Canvas hands an instant to the grid head: the earliest unready job of FUS stream `h` becomes ready with `input`
(R356). Without one, nothing. -/
def State.fenFus (h tk lk : Nat) (input : List Byte) (s : State) : State × Bool :=
  let x := hIndex h
  match tget s.fen.streams x with
  | none => (s, false)
  | some t =>
    if t.kind ≠ 2 || s.busy 4 || !s.loaded 4 || !(t.jobs.any fun j => !j.ready) then (s, false)
    else
      let go := t.jobs.foldl (fun (acc : List FenJob × Bool) j =>
        if !acc.2 && !j.ready then (acc.1 ++ [{ j with ready := true, input := some input, stamp := tk, lk := lk }], true) else (acc.1 ++ [j], acc.2)) ([], false)
      ((s.setStr x { t with jobs := go.1 }).fenRequest x, true)

/-! ### Enable and disable (R366) -/

/-- The tests of R366. -/
def State.fenTests (s : State) : List CheckTest := s.regionTests 4 0 ++ s.ringTests 0x0A ++ s.winTests 0x0A

/-- ENABLE 1 → 0 (R366): jobs halt, streams end, packages are unloaded. A load in flight completes (R127); the spec gives no
reason for it: a free one. -/
def State.fenDisable (s : State) : State :=
  let s := s.setB FEN_CTRL.ENABLE false
  let s := (s.fen.streams.map (·.1)).foldl (fun s x => s.strEnd x) s
  let s := s.fen.pkgs.foldl (fun s p =>
    match p.2.load with
    | some id => (s.completeSelf 0x0A 0 id (s.freshCode [0x20, 0x21, 0x22, 0x23, 0x24, 0x25, 0x26, 0x27])).drawn
    | none => s) s
  { s with fen := {} }.fenShow

/-- FEN_DISABLE (R366). -/
def execFenDisable (s : State) : Out := .next (if s.getB FEN_CTRL.ENABLE then s.fenDisable else s)

end Sys2Proof.Machine
end

