-- ==== Sys2Proof/Machine/Rcd.lean ====
section
/-! DEFINITION. REC (chapter 24): streams and their windows, records and their slots in the MRAM recorder area, and the export. -/

namespace Sys2Proof.Machine

/-! ### Slots (R496, R497, R503, R504) -/

/-- First byte of slot `k` of the recorder area (log entry 8). -/
def recSlotAt (k : Nat) : Nat := 0x200000 + 256 * k

/-- Field of a slot. -/
def State.recN (s : State) (k o n : Nat) : Nat := memNat s.mram (recSlotAt k + o) n

/-- CRC of a record: bytes 4 to 7 and 52 to 55 taken as 0 (Table 24-1). -/
def recCrc (b : List Byte) : Nat := crc32 (b.take 4 ++ bytesLE 4 0 ++ (b.drop 8).take 44 ++ bytesLE 4 0 ++ b.drop 56)

/-- A valid slot; a torn slot (R496). -/
def State.recValid (s : State) (k : Nat) : Bool :=
  s.recN k 0 4 = 0x31434552 && s.recN k 4 4 % 2 = 0 && s.recN k 4 4 ≠ 0 && recCrc (memBytes s.mram (recSlotAt k) 256) = s.recN k 52 4
def State.recTorn (s : State) (k : Nat) : Bool := s.recN k 4 4 % 2 = 1

/-- REC_FREE and the next RNUM follow the slots. -/
def State.recShow (s : State) : State :=
  let top := s.rcd.slots.foldl (fun m e => max m e.2.1) 0
  (s.set REC_FREE.FREE (8192 - s.rcd.slots.length)).set64 REC_RNUM_LO REC_RNUM_HI (top + 1)

/-- REC_SCAN_END (R497). -/
def execRecScanEnd (s : State) : Out :=
  if !s.enabled 0x12 || s.getB REC_STATUS.READY then .next s
  else
    let valid := ((List.range 8192).filter s.recValid).map fun k => (k, (s.recN k 8 8, s.recN k 21 1))
    let torn := ((List.range 8192).filter s.recTorn).length
    let s := { s with rcd := { s.rcd with slots := valid } }.recShow
    let s := ((s.set REC_TORN.TORN torn).setB REC_STATUS.READY true).raise 343
    .next (if torn = 0 then s else s.raise 342)

/-- The slot for a record of severity `sev`, and whether it overwrites one (R503, R504). -/
def State.recPlace (s : State) (sev : Nat) : Option (Nat × Bool) :=
  match tfree s.rcd.slots 8192 with
  | some k => some (k, false)
  | none =>
    (s.rcd.slots.foldl (fun (b : Option (Nat × Nat)) e =>
      if sev < e.2.2 then b
      else match b with
        | none => some (e.1, e.2.1)
        | some c => if e.2.1 < c.2 then some (e.1, e.2.1) else b) none).map fun c => (c.1, true)

/-- The body of a record (Table 24-2). -/
def RecStream.body (r : RecStream) (w : RecWin) : List Byte :=
  let words (n : Nat) (f : Nat → List Byte) : List Byte := (List.range n).flatMap f
  let b := match r.kind with
    | 1 => bytesLE 4 (fromSigned 32 r.lo) ++ bytesLE 4 r.width ++ bytesLE 1 r.n ++ bytesLE 7 0 ++ bytesLE 4 w.under ++ bytesLE 4 w.ovr ++ bytesLE 8 0
        ++ words 32 (fun i => bytesLE 4 (tgetD w.bins i 0))
    | 2 => bytesLE 4 (fromSigned 32 w.mn) ++ bytesLE 4 (fromSigned 32 w.mx) ++ bytesLE 8 w.mnL ++ bytesLE 8 w.mxL
    | _ => bytesLE 1 r.n ++ bytesLE 7 0 ++ words 8 (fun j => bytesLE 8 (tgetD w.cnts j 0))
  b ++ List.replicate (192 - b.length) 0#8

/-- A record (Table 24-1) with its final SEQ. -/
def State.recBytes (s : State) (seq rnum : Nat) (r : RecStream) (w : RecWin) (part : Bool) : List Byte :=
  let head := bytesLE 4 0x31434552 ++ bytesLE 4 seq ++ bytesLE 8 rnum ++ bytesLE 4 r.sid ++ bytesLE 1 r.kind ++ bytesLE 1 r.sev
    ++ bytesLE 2 (b2n part + 2 * b2n w.sat) ++ bytesLE 8 w.opn ++ bytesLE 8 w.close ++ bytesLE 4 s.ka.opsec ++ bytesLE 4 s.ka.pwrcyc ++ bytesLE 4 w.nval
  let rest := bytesLE 8 0 ++ r.body w
  head ++ bytesLE 4 (recCrc (head ++ bytesLE 4 0 ++ rest)) ++ rest

/-- RECORD_WRITE (R503, R504): a closed record goes into a slot, or is dropped. SEQ passes an odd value and ends even. -/
def State.recWrite (r : RecStream) (w : RecWin) (part : Bool) (s : State) : State :=
  match s.recPlace r.sev with
  | none =>
    let f : Fld := ⟨REC_DROP, 8 * r.sev, 8⟩
    (if s.get f = 0 then s.raise 339 else s).bump f 1
  | some (k, ovr) =>
    let rnum := s.get64 REC_RNUM_LO REC_RNUM_HI
    let q := s.recN k 4 4
    let seq := (q / 2 * 2 + (if q % 2 = 0 then 2 else 4)) % 2 ^ 32
    let bytes := s.recBytes seq rnum r w part
    let s := { s with mram := memPuts s.mram (recSlotAt k) bytes, rcd := { s.rcd with slots := tput s.rcd.slots k (rnum, r.sev) } }
    let s := if ovr then (if s.get REC_CNT.OVW = 0 then s.raise 341 else s).bump REC_CNT.OVW 1 else s
    let s := s.recShow
    if r.irq then s.raise 337 else s

/-! ### Streams (R498 to R502) -/

def State.recLive (s : State) (x : Nat) : Bool := (tget s.rcd.streams x).isSome
def State.setStream (x : Nat) (r : RecStream) (s : State) : State := { s with rcd := { s.rcd with streams := tput s.rcd.streams x r } }

/-- The stream whose oldest open record is due to close first, lower indices first on a tie (R498, R502). -/
def State.recDue (s : State) : Option (Nat × RecStream × RecWin) :=
  s.rcd.streams.foldl (fun (b : Option (Nat × RecStream × RecWin)) e =>
    match (e.2.upTo s.now).wins with
    | [] => b
    | w :: _ =>
      let at0 := w.close + e.2.grace
      if s.now < at0 then b
      else match b with
        | some c => if at0 < c.2.2.close + c.2.1.grace then some (e.1, e.2.upTo s.now, w) else b
        | none => some (e.1, e.2.upTo s.now, w)) none

/-- Up to `n` due records are written. -/
def State.recCloseDue : Nat → State → State
  | 0, s => s
  | n + 1, s =>
    match s.recDue with
    | none => s
    | some (x, r, w) => State.recCloseDue n ((s.recWrite r w false).setStream x { r with wins := r.wins.tail })

/-- Every window whose grace has ended has closed, whatever comes next (R498). -/
def State.recSweep (s : State) : State := s.recCloseDue (s.rcd.streams.foldl (fun a e => a + (e.2.upTo s.now).wins.length) 0)

/-- A stream's open records are written with PARTIAL, each ending now at the latest (R502). -/
def State.recCloseAll (x : Nat) (s : State) : State :=
  match tget s.rcd.streams x with
  | none => s
  | some r =>
    let r := r.upTo s.now
    let s := r.wins.foldl (fun (s : State) w => s.recWrite r { w with close := min w.close s.now } true) s
    s.setStream x { r with wins := [] }

/-- The window now open of a stream closes, and a new record opens for the rest of it (R502). -/
def State.recSplit (x : Nat) (s : State) : State :=
  match tget s.rcd.streams x with
  | none => s
  | some r =>
    let r := r.upTo s.now
    match r.wins.getLast? with
    | none => s.setStream x r
    | some w =>
      let s := s.recWrite r { w with close := s.now } true
      s.setStream x { r with wins := r.wins.dropLast ++ [{ opn := s.now, close := w.close }] }

/-- REC_WINDOW_CLOSE (R498): every window whose grace has ended closes. -/
def execRecWindowClose (s : State) : Out := .next (if s.enabled 0x12 then s.recSweep else s)

/-- A value folded into an open record (R499). -/
def RecStream.fold (r : RecStream) (v j stamp : Nat) (w : RecWin) : RecWin :=
  let x := toSigned 32 v
  let inc (c : Nat) : Nat × Bool := satCount 0xFFFFFFFF c 1
  match r.kind with
  | 3 => w.count j v
  | 2 =>
    let first := w.nval = 0
    let lo := first || x < w.mn
    let hi := first || w.mx < x
    { w with
      mn := if lo then x else w.mn
      mnL := if lo then stamp else if x = w.mn then min w.mnL stamp else w.mnL
      mx := if hi then x else w.mx
      mxL := if hi then stamp else if x = w.mx then min w.mxL stamp else w.mxL
      nval := (inc w.nval).1 }
  | _ =>
    let w := { w with nval := (inc w.nval).1 }
    if x < r.lo then { w with under := (inc w.under).1, sat := w.sat || (inc w.under).2 }
    else
      let i := ((x - r.lo).toNat) / r.width
      if r.n ≤ i then { w with ovr := (inc w.ovr).1, sat := w.sat || (inc w.ovr).2 }
      else { w with bins := tput w.bins i (inc (tgetD w.bins i 0)).1, sat := w.sat || (inc (tgetD w.bins i 0)).2 }

/-- A late value (R500). -/
def State.recLate (x : Nat) (s : State) : State :=
  let s := s.bump (REC_S_STAT.LATE x) 1
  let s := if s.get REC_CNT.LATE = 0 then s.raise 340 else s
  (s.bump REC_CNT.LATE 1).detViol SYS_DET_STATUS.REC_LATE

/-- PUT. -/
def opRecPut (c : Cmd) (s : State) : State :=
  let x := hIndex c.handle
  let j := c.arg 20 1
  match s.checkHandle 0x0B s.recLive c.handle, tget s.rcd.streams x with
  | some _, _ => c.finish 0x03 s
  | none, none => c.finish 0x03 s
  | none, some r =>
    let stamp := if c.arg 24 8 = 0 then s.now else c.arg 24 8
    if (if r.kind = 3 then r.n ≤ j else j ≠ 0) || s.now < stamp then c.finish 0x05 s
    else if !s.getB REC_STATUS.READY then c.finish 0x20 s
    else
      let r := r.upTo s.now
      let s := s.setStream x r
      if r.wins.any fun w => w.opn ≤ stamp && stamp < w.close && s.now < w.close + r.grace then
        c.finish 0x00 (s.setStream x (r.inWindow stamp (r.fold (c.arg 16 4) j stamp)))
      else c.finish 0x00 (s.recLate x)

/-- PUT (Table 24-3). -/
def execRecPut (ring : Fin 1) (e : Entry) (s : State) : Out := .next (s.runRow 0x12 ring.val 3 0 e opRecPut)

/-- The number of streams in REC_STATUS. -/
def State.recCount (s : State) : State := s.set REC_STATUS.STREAMS s.rcd.streams.length

/-- STREAM_CREATE. -/
def opRecCreate (c : Cmd) (s : State) : State :=
  let kind := c.arg 16 1
  let n := c.arg 18 1
  let w := c.arg 28 4
  let per := c.arg 32 2
  let gr := c.arg 34 2
  let ev := c.arg 36 2
  let badN := match kind with
    | 1 => n = 0 || 32 < n
    | 2 => n ≠ 0
    | 3 => n = 0 || 8 < n
    | _ => true
  let badW := if kind = 1 then w = 0 || 0x7FFFFFFF < w else w ≠ 0 || c.arg 24 4 ≠ 0
  let badE := if kind = 3 then 383 < ev && ev ≠ 0xFFFF else ev ≠ 0xFFFF
  match tfree s.rcd.streams 256 with
  | none => c.failed 0x04 s
  | some x =>
    if badN || badW || badE || 3 < c.arg 17 1 || 1 < c.arg 19 1 || per = 0 || gr = 0 || 10000 < gr then c.failed 0x05 s
    else if !s.getB REC_STATUS.READY then c.failed 0x20 s
    else
      let p := per * 1000000000
      let e := (s.now / p + 1) * p
      let r : RecStream := {
        kind := kind, sev := c.arg 17 1, n := n, irq := c.arg 19 1 = 1, sid := c.arg 20 4, lo := toSigned 32 (c.arg 24 4), width := w, per := p,
        grace := gr * 1000000, evt := ev, next := e, wins := [{ opn := s.now, close := e }] }
      let s := ((((s.advGen 0x0B x).setStream x r).setB (REC_S_STAT.LIVE x) true).set (REC_S_STAT.KIND x) kind).set (REC_S_STAT.SEV x) r.sev
      c.created (s.handle 0x0B x) ((s.set (REC_S_SID.SID x) r.sid).recCount)

/-- REC_STREAM_CREATE (R498, Table 24-3). -/
def execRecStreamCreate (ring : Fin 1) (e : Entry) (s : State) : Out := .next (s.runRow 0x12 ring.val 1 0 e opRecCreate)

/-- A stream's open records are written and it is freed: its registers read 0. -/
def State.recFree (x : Nat) (s : State) : State :=
  let s := s.recCloseAll x
  ({ s with rcd := { s.rcd with streams := tdel s.rcd.streams x } }.wipeRegs (REC_S_STAT x) 16).recCount

/-- STREAM_DESTROY. -/
def opRecDestroy (c : Cmd) (s : State) : State :=
  match s.checkHandle 0x0B s.recLive c.handle with
  | some _ => c.finish 0x03 s
  | none => if !s.getB REC_STATUS.READY then c.finish 0x20 s else c.finish 0x00 (s.recSweep.recFree (hIndex c.handle))

/-- REC_STREAM_DESTROY (R502). -/
def execRecStreamDestroy (ring : Fin 1) (e : Entry) (s : State) : Out := .next (s.runRow 0x12 ring.val 2 0 e opRecDestroy)

/-- FLUSH. -/
def opRecFlush (c : Cmd) (s : State) : State :=
  match s.checkHandle 0x0B s.recLive c.handle with
  | some _ => c.finish 0x03 s
  | none => if !s.getB REC_STATUS.READY then c.finish 0x20 s else c.finish 0x00 (s.recSweep.recSplit (hIndex c.handle))

/-- REC_FLUSH (R502). -/
def execRecFlush (ring : Fin 1) (e : Entry) (s : State) : Out := .next (s.runRow 0x12 ring.val 4 0 e opRecFlush)

/-- REC_NVAL of a stream as it reads: the values in the newest open record. -/
def State.recNval (s : State) (x : Nat) : Nat :=
  match tget s.rcd.streams x with
  | some r => (((r.upTo s.now).wins.getLast?).map (·.nval)).getD 0
  | none => 0

/-! ### Export (R505) -/

/-- EXPORT; its HANDLE is 0. -/
def opRecExport (c : Cmd) (s : State) : State :=
  let lba := c.arg 16 8
  let n := c.arg 24 4
  if c.handle ≠ 0 || n = 0 || 512 < n || !inDataPart lba n then c.finish 0x05 s
  else if s.rcd.run.isSome then c.finish 0x0F s
  else if !s.getB REC_STATUS.READY then c.finish 0x20 s
  else
    let s := { s with rcd := { s.rcd with run := some { lba := lba, maxBlk := n, fromNum := c.arg 32 8 } } }
    c.finish 0x00 (((s.setB REC_STATUS.EXP true).set REC_EXP_RES.RESTARTS 0).arbRequest 20)

/-- EXPORT (R505). -/
def execRecExport (ring : Fin 1) (e : Entry) (s : State) : Out := .next (s.runRow 0x12 ring.val 5 0 e opRecExport)

/-- Valid slots with RNUM at or above `n`, by RNUM; `k` of them at most. -/
def recInOrder (slots : Tbl (Nat × Nat)) (n : Nat) : Nat → List Nat
  | 0 => []
  | k + 1 =>
    match slots.foldl (fun (b : Option (Nat × Nat)) e =>
        if e.2.1 < n then b
        else match b with
          | none => some (e.1, e.2.1)
          | some c => if e.2.1 < c.2 then some (e.1, e.2.1) else b) none with
    | none => []
    | some c => c.1 :: recInOrder slots (c.2 + 1) k

/-- The export lets ARB1 go. -/
def State.recExpOff (s : State) : State := ({ s with rcd := { s.rcd with run := none } }.setB REC_STATUS.EXP false).arbRelease 20

/-- EXP_DONE (R505): under ARB1 the records have gone to UFS. LAST of an export of no record is a free value. -/
def execExpDone (s : State) : Out :=
  match s.rcd.run with
  | none => .next s
  | some x =>
    if !s.arbHolds 20 then .next s
    else
      let s := s.recSweep
      let l := recInOrder s.rcd.slots x.fromNum (16 * x.maxBlk)
      let all := (s.rcd.slots.filter fun e => x.fromNum ≤ e.2.1).length
      let bytes := l.flatMap fun k => memBytes s.mram (recSlotAt k) 256
      let pad := ceilDiv bytes.length 4096 * 4096 - bytes.length
      let last := match l.getLast? with
        | some k => s.recN k 8 8
        | none => s.fresh 64
      let s := if l.isEmpty then s.drawn else s
      let s := { s with ufs := memPuts s.ufs (4096 * x.lba) (bytes ++ List.replicate pad 0#8) }
      let s := ((s.set REC_EXP_CNT.COUNT l.length).set64 REC_EXP_LAST_LO REC_EXP_LAST_HI last).set REC_EXP_RES.REASON (if all ≤ l.length then 0x1200 else 0x1221)
      .next (s.recExpOff.raise 338)

/-- A revocation restarts the export (R361, R505). -/
def State.recRevoked (s : State) : State := if s.rcd.run.isSome then s.bump REC_EXP_RES.RESTARTS 1 else s

/-! ### Enabling and power states (R502, R506) -/

/-- Acceptance of a PARK or STANDBY request: every open record is written with PARTIAL, and the windows go on. -/
def State.recPark (s : State) : State :=
  let s := s.recSweep
  s.rcd.streams.foldl (fun (s : State) e =>
    match tget s.rcd.streams e.1 with
    | none => s
    | some r =>
      let r := r.upTo s.now
      let s := r.wins.foldl (fun (s : State) w => s.recWrite r { w with close := min w.close s.now } true) s
      s.setStream e.1 { r with wins := [{ opn := s.now, close := r.next }] }) s

/-- The tests of R506. -/
def State.recTests (s : State) : List CheckTest := s.winTests 0x12 ++ s.ringTests 0x12

/-- What a passed check starts: the scan (R497). -/
def State.recStart (s : State) : State := { s with rcd := {} }.setB REC_STATUS.READY false

/-- ENABLE 1 → 0 (R506). -/
def State.recDisable (s : State) : State :=
  let s := s.recSweep.setB REC_CTRL.ENABLE false
  let s := s.rcd.streams.foldl (fun (s : State) e => s.recFree e.1) s
  let s := if s.rcd.run.isSome then s.recExpOff else s
  s.setB REC_STATUS.READY false

/-- REC_DISABLE (R506). -/
def execRecDisable (s : State) : Out := .next (if s.getB REC_CTRL.ENABLE then s.recDisable else s)

end Sys2Proof.Machine
end

