-- ==== Sys2Proof/Machine/Float32.lean ====
section
/-! DEFINITION. IEEE 754 binary32 arithmetic, exact: each operation forms its exact result as a dyadic number and rounds it
once to nearest, ties to even, with subnormals (R162, R179). A binary32 number is its 32-bit encoding as a natural. -/

namespace Sys2Proof.Machine

/-- A binary32 encoding below 2^32. -/
abbrev F32 := Nat

namespace F

def sign (a : F32) : Bool := bitAt a 31
def expo (a : F32) : Nat := bitsOf a 23 8
def frac (a : F32) : Nat := bitsOf a 0 23
def isNan (a : F32) : Bool := expo a = 255 && frac a ≠ 0
def isInf (a : F32) : Bool := expo a = 255 && frac a = 0
def finite (a : F32) : Bool := expo a ≠ 255
def isZero (a : F32) : Bool := a % 2 ^ 31 = 0
def nan : F32 := 0x7FC00000
def zero : F32 := 0
def one : F32 := 0x3F800000
def inf (neg : Bool) : F32 := (if neg then 2 ^ 31 else 0) + 0x7F800000
def signBit (neg : Bool) : F32 := if neg then 2 ^ 31 else 0
def neg (a : F32) : F32 := if sign a then a - 2 ^ 31 else a + 2 ^ 31
def abs (a : F32) : F32 := a % 2 ^ 31

/-- Signed significand and exponent of a finite number: its value is `m * 2^e`. -/
def parts (a : F32) : Int × Int :=
  let m : Int := if expo a = 0 then (frac a : Int) else ((frac a + 2 ^ 23 : Nat) : Int)
  let e : Int := if expo a = 0 then -149 else (expo a : Int) - 150
  (if sign a then -m else m, e)

/-- `n / 2^k` rounded to nearest, ties to even; `more` says that a nonzero remainder lies below `n`. -/
def rneShift (n k : Nat) (more : Bool) : Nat :=
  let q := n / 2 ^ k
  let r := n % 2 ^ k
  let half := if k = 0 then 0 else 2 ^ (k - 1)
  if k = 0 then q
  else if half < r || (r = half && (more || q % 2 = 1)) then q + 1 else q

/-- The number `m * 2^e` (a nonzero remainder below it if `more`) rounded once; a zero takes the sign `zneg`. -/
def round (m : Int) (e : Int) (more zneg : Bool) : F32 :=
  let n := m.natAbs
  if n = 0 then signBit zneg
  else
    let s := signBit (decide (m < 0))
    let top : Int := (Nat.log2 n : Int) + e
    let q : Int := max (top - 23) (-149)
    let d : Int := q - e
    let mant := if d ≤ 0 then n * 2 ^ (-d).toNat else rneShift n d.toNat more
    let (mant, q) := if 2 ^ 24 ≤ mant then (mant / 2, q + 1) else (mant, q)
    if mant < 2 ^ 23 then s + mant
    else if 104 < q then s + 0x7F800000
    else s + (q + 150).toNat * 2 ^ 23 + (mant - 2 ^ 23)

/-- Exact sum of two dyadic numbers. -/
def addParts (x y : Int × Int) : Int × Int :=
  let e := min x.2 y.2
  (x.1 * 2 ^ (x.2 - e).toNat + y.1 * 2 ^ (y.2 - e).toNat, e)

/-- Sum. An exact zero is +0 unless both operands are negative zeros. -/
def add (a b : F32) : F32 :=
  if isNan a || isNan b then nan
  else if isInf a then (if isInf b && sign a ≠ sign b then nan else a)
  else if isInf b then b
  else
    let r := addParts (parts a) (parts b)
    round r.1 r.2 false (sign a && sign b)

def sub (a b : F32) : F32 := if isNan b then nan else add a (neg b)

/-- Product. -/
def mul (a b : F32) : F32 :=
  let s := sign a != sign b
  if isNan a || isNan b then nan
  else if isInf a || isInf b then (if isZero a || isZero b then nan else inf s)
  else round ((parts a).1 * (parts b).1) ((parts a).2 + (parts b).2) false s

/-- Fused multiply-add `a * b + c`, rounded once. -/
def fma (a b c : F32) : F32 :=
  let s := sign a != sign b
  if isNan a || isNan b || isNan c then nan
  else if isInf a || isInf b then
    (if isZero a || isZero b then nan else if isInf c && sign c ≠ s then nan else inf s)
  else if isInf c then c
  else
    let p : Int × Int := ((parts a).1 * (parts b).1, (parts a).2 + (parts b).2)
    let r := addParts p (parts c)
    round r.1 r.2 false (s && sign c)

/-- Quotient, rounded once. -/
def div (a b : F32) : F32 :=
  let s := sign a != sign b
  if isNan a || isNan b then nan
  else if isInf a then (if isInf b then nan else inf s)
  else if isInf b then signBit s
  else if isZero b then (if isZero a then nan else inf s)
  else
    let x := parts a
    let y := parts b
    let n := x.1.natAbs * 2 ^ 60
    let q := n / y.1.natAbs
    let r := n % y.1.natAbs
    let m : Int := if s then -(q : Int) else (q : Int)
    round m (x.2 - y.2 - 60) (decide (r ≠ 0)) s

/-- Order of two numbers, neither a NaN; the zeros compare equal. -/
def key (a : F32) : Int := if sign a then -((a % 2 ^ 31 : Nat) : Int) else (a : Int)
def lt (a b : F32) : Bool := !isNan a && !isNan b && decide (key a < key b)
def le (a b : F32) : Bool := !isNan a && !isNan b && decide (key a ≤ key b)
def max (a b : F32) : F32 := if lt a b then b else a
def min (a b : F32) : F32 := if lt b a then b else a

/-- A number limited to `[lo, hi]`. -/
def clamp (x lo hi : F32) : F32 := if lt x lo then lo else if lt hi x then hi else x

/-- An integer, and a ratio of integers, rounded once. -/
def ofInt (i : Int) : F32 := round i 0 false false
def ofNat (n : Nat) : F32 := ofInt n
def ofRatio (n : Int) (d : Nat) : F32 :=
  let k := n.natAbs * 2 ^ 64
  let q : Int := if n < 0 then -((k / d : Nat) : Int) else ((k / d : Nat) : Int)
  round q (-64) (decide (k % d ≠ 0)) (decide (n < 0))

/-- The floor of a finite number, as an integer. -/
def floorInt (a : F32) : Int :=
  let p := parts a
  if 0 ≤ p.2 then p.1 * 2 ^ p.2.toNat else floorDivNat p.1 (2 ^ (-p.2).toNat)

/-- A finite number times `scale / den`, rounded to the nearest integer, halves away from zero. -/
def scaledRoundDiv (a : F32) (scale den : Nat) : Int :=
  let p := parts a
  let m := p.1 * (scale : Int) * 2 ^ p.2.toNat
  let d := den * 2 ^ (-p.2).toNat
  let q : Nat := (2 * m.natAbs + d) / (2 * d)
  if m < 0 then -(q : Int) else (q : Int)

/-- A finite number times `scale`, rounded to the nearest integer, halves away from zero. -/
def scaledRound (a : F32) (scale : Nat) : Int := scaledRoundDiv a scale 1

end F

end Sys2Proof.Machine
end

