-- ==== Sys2Proof/Machine/FusCalc.lean ====
section
/-! DEFINITION. The arithmetic of Canvas (R385 to R388, R397 to R402, R407 to R410): motion tracks and poses, points and cells,
votes, and calibration refinement. -/

namespace Sys2Proof.Machine

/-! ### COS and SIN (R385) -/

/-- π in units of 2^-96, rounded down. -/
def piQ96 : Nat := 248902613312231085230521944622

/-- Sum of the power series of cosine (`o` = 0) or sine (`o` = 1) at `t`, in units of 2^-96. -/
def trigSum (t : Nat) (o : Nat) : Int :=
  let first := if o = 0 then 2 ^ 96 else t
  ((List.range 18).foldl (fun (a : Int × Nat) n =>
    let k := 2 * n + o
    (if n % 2 = 0 then a.1 + a.2 else a.1 - a.2, a.2 * t / 2 ^ 96 * t / 2 ^ 96 / ((k + 1) * (k + 2)))) (0, first)).1

/-- A value in units of 2^-96 rounded to 2^-30. -/
def q30 (v : Int) : Int := (v + 2 ^ 65).fdiv (2 ^ 66)

/-- COS and SIN of an angle in 2^-32 rev: of a >> 18 in 16,384ths of a revolution. -/
def cosSin (a : Nat) : Int × Int :=
  let k := a % 2 ^ 32 / 2 ^ 18
  let t := piQ96 * (k % 4096) / 8192
  let c := q30 (trigSum t 0)
  let s := q30 (trigSum t 1)
  match k / 4096 with
  | 0 => (c, s)
  | 1 => (-s, c)
  | 2 => (-c, -s)
  | _ => (s, -c)

/-! ### Motion tracks and poses (R385) -/

/-- A track: stamps and values, in the order taken. -/
abbrev Track := List (Nat × Int)

/-- The latest sample at or before `s`; of several with one stamp, the one taken last. -/
def Track.at (t : Track) (s : Nat) : Option (Nat × Int) :=
  t.foldl (fun b e => if s < e.1 then b else match b with
    | none => some e
    | some c => if c.1 ≤ e.1 then some e else b) none

/-- A pose: x and y in µm, ψ in 2^-32 rev. -/
abbrev Pose := Int × Int × Nat

/-- What a pose was formed from: a sample was missing (NO_MOTION) or older than MOT_AGE (MOTION_STALE). -/
structure PoseAcc where
  x : Int := 0
  y : Int := 0
  psi : Nat := 0
  none : Bool := false
  stale : Bool := false
  deriving DecidableEq, Repr

/-- One step of R385 from `t` back to `s`. -/
def poseStep (tv tw : Track) (age : Nat) (t s : Nat) (a : PoseAcc) : PoseAcc :=
  let h := t - s
  let v := tv.at s
  let w := tw.at s
  let cs := cosSin a.psi
  let val (o : Option (Nat × Int)) : Int := (o.map (·.2)).getD 0
  let old (o : Option (Nat × Int)) : Bool := o.any fun e => decide (e.1 + age * 1000000 < s)
  { x := a.x - (val v * h * cs.1).fdiv (1000000 * 2 ^ 30)
    y := a.y - (val v * h * cs.2).fdiv (1000000 * 2 ^ 30)
    psi := fromSigned 32 ((a.psi : Int) - (val w * h).fdiv 1000000000)
    none := a.none || v.isNone || w.isNone
    stale := a.stale || old v || old w }

/-- The loop of R385, by fuel. -/
def poseLoop (tv tw : Track) (age tau : Nat) : Nat → Nat → PoseAcc → PoseAcc
  | 0, _, a => a
  | n + 1, t, a =>
    if t ≤ tau then a
    else
      let s := max ((t - 1) / 1000000 * 1000000) tau
      poseLoop tv tw age tau n s (poseStep tv tw age t s a)

/-- The pose at time `tau` in the frame of the vehicle at `l` (R385). -/
def poseAt (tv tw : Track) (age l tau : Nat) : PoseAcc := poseLoop tv tw age tau ((l - tau) / 1000000 + 2) l {}

def PoseAcc.pose (a : PoseAcc) : Pose := (a.x, a.y, a.psi)

/-! ### Points and cells (R375, R386, R387) -/

/-- The grid (R369): sizes in cells, cell size and origin in mm. -/
structure Grid where
  gw : Nat
  gh : Nat
  cell : Nat
  ox : Int
  oy : Int
  deriving DecidableEq, Repr

/-- The cell holding the position (µm), if inside the grid. -/
def Grid.cellOf (g : Grid) (px py : Int) : Option Nat :=
  let c := (px - g.ox * 1000).fdiv (g.cell * 1000)
  let r := (py - g.oy * 1000).fdiv (g.cell * 1000)
  if 0 ≤ c && c < g.gw && 0 ≤ r && r < g.gh then some (r.toNat * g.gw + c.toNat) else none

/-- The tile number of a cell. -/
def Grid.tileOf (g : Grid) (n : Nat) : Nat := n / g.gw / 32 * (g.gw / 32) + n % g.gw / 32
def Grid.tiles (g : Grid) : Nat := g.gw / 32 * (g.gh / 32)

/-- A point of a grid body (Table 17-4). -/
structure FusPt where
  x : Int
  y : Int
  z : Int
  conf : Nat
  f : List Int
  deriving DecidableEq, Repr

/-- The points of a body after its 64-byte header. -/
def ptsOf : Nat → List Byte → List FusPt
  | 0, _ => []
  | n + 1, b =>
    let w (o : Nat) : Int := toSigned 32 (natLE ((b.drop o).take 4))
    { x := w 0, y := w 4, z := w 8, conf := natLE ((b.drop 12).take 1), f := ((b.drop 16).take 32).map fun y => toSigned 8 y.toNat } :: ptsOf n (b.drop 48)

/-- A calibration: nine rotation words, row-major Q30, and the translation in µm (R378). -/
abbrev Cal := List Int

def Cal.at (c : Cal) (i : Nat) : Int := c.getD i 0

/-- A point in the vehicle frame at its TOV. -/
def toVehicle (c : Cal) (p : FusPt) : List Int :=
  (List.range 3).map fun i =>
    (c.at (3 * i) * (p.x * 1000) + c.at (3 * i + 1) * (p.y * 1000) + c.at (3 * i + 2) * (p.z * 1000) + 2 ^ 29).fdiv (2 ^ 30) + c.at (9 + i)

/-- What a source has summed in a cell: Wt, S[0..31], and the weighted position sums of R407. -/
structure CellAcc where
  wt : Nat := 0
  s : List Int := List.replicate 32 0
  px : Int := 0
  py : Int := 0
  pz : Int := 0
  deriving DecidableEq, Repr

/-- A point moved into the frame at L_k (R386): px, py and pv[2]. -/
def movePoint (c : Cal) (q : Pose) (p : FusPt) : Int × Int × Int :=
  let v := toVehicle c p
  let cs := cosSin q.2.2
  ((cs.1 * v.getD 0 0 - cs.2 * v.getD 1 0 + 2 ^ 29).fdiv (2 ^ 30) + q.1,
   (cs.2 * v.getD 0 0 + cs.1 * v.getD 1 0 + 2 ^ 29).fdiv (2 ^ 30) + q.2.1, v.getD 2 0)

/-- A source's cells with the point added, and the number of points that fell in the grid. A point of weight 0 contributes
nothing. -/
def addPoint (g : Grid) (c : Cal) (q : Pose) (weight : Nat) (a : Tbl CellAcc × Nat) (p : FusPt) : Tbl CellAcc × Nat :=
  let m := movePoint c q p
  match g.cellOf m.1 m.2.1 with
  | none => a
  | some n =>
    let w := p.conf * weight
    if w = 0 then (a.1, a.2 + 1)
    else
      (tmod a.1 n {} fun k => {
        wt := k.wt + w, s := List.zipWith (fun (s f : Int) => s + w * f) k.s p.f
        px := k.px + w * m.1, py := k.py + w * m.2.1, pz := k.pz + w * m.2.2 }, a.2 + 1)

/-- F of a cell (R387). -/
def CellAcc.feat (k : CellAcc) : List Int := k.s.map fun (s : Int) => clampInt (-128) 127 ((2 * s + (k.wt : Int)).fdiv (2 * (k.wt : Int)))

/-- CONF of a cell (R387). -/
def CellAcc.conf (k : CellAcc) : Nat := min 255 ((k.wt + 255) / 256)

/-- Two sums of one cell together. -/
def CellAcc.add (a b : CellAcc) : CellAcc :=
  { wt := a.wt + b.wt, s := List.zipWith (· + ·) a.s b.s, px := a.px + b.px, py := a.py + b.py, pz := a.pz + b.pz }

/-! ### Votes (R397 to R401) -/

/-- A grid source as one closure sees it. -/
structure Voter where
  idx : Nat
  iclass : Nat
  neverOut : Bool
  cells : Tbl CellAcc
  deriving DecidableEq, Repr

/-- The cells of one source in a tile. -/
def Voter.inTile (g : Grid) (t : Nat) (v : Voter) : Tbl CellAcc := v.cells.filter fun e => g.tileOf e.1 = t

/-- Shared cells and D of two sources over the cells of a tile (R398). -/
def tileDiff (a b : Tbl CellAcc) : Nat × Nat :=
  a.foldl (fun acc e =>
    match tget b e.1 with
    | some k => (acc.1 + 1, acc.2 + (List.zipWith (fun (x y : Int) => (x - y).natAbs) e.2.feat k.feat).foldl (· + ·) 0)
    | none => acc) (0, 0)

/-- A judgement (R399). -/
inductive Judged where
  | noOpinion
  | agrees
  | dissents
  deriving DecidableEq, Repr

/-- The judgement of voter `v` in a tile: `there` are the present voters with their cells in the tile and whether they are
IN. -/
def judge (minc thr : Nat) (v : Voter) (mine : Tbl CellAcc) (there : List (Voter × Tbl CellAcc × Bool)) : Judged :=
  let gt := there.foldl (fun (acc : Nat × Nat) o =>
    if o.1.idx = v.idx || !o.2.2 then acc
    else
      let d := tileDiff mine o.2.1
      if d.1 < minc then acc
      else (if d.2 ≤ thr * 32 * d.1 then acc.1 + o.1.iclass else acc.1, acc.2 + o.1.iclass)) (v.iclass, v.iclass)
  if gt.2 ≤ v.iclass then .noOpinion else if gt.2 < 2 * gt.1 then .agrees else .dissents

/-- The update of Table 18-2 for one voter: the new vote state. `voted` says the tile is VOTED. -/
def voteStep (n m : Nat) (neverOut voted : Bool) (j : Judged) (x : FusVote) : FusVote :=
  if !x.out then
    if !voted then x
    else
      match j with
      | .agrees => { x with strike := 0 }
      | .dissents =>
        let k := x.strike + 1
        if n ≠ 0 && n ≤ k && !neverOut then { out := true, strike := 0, agree := 0 } else { x with strike := k }
      | .noOpinion => x
  else
    match j with
    | .agrees => if m ≤ x.agree + 1 then { x with out := false, agree := 0 } else { x with agree := x.agree + 1 }
    | .dissents => { x with agree := 0 }
    | .noOpinion => x

/-- What a closure decides for a tile: STATE, its TILE entry without HELD, the admitted sources, the new vote states, the
dissenters. -/
structure TileVote where
  state : Nat
  bits : Nat
  admitted : List Nat
  votes : List (Nat × FusVote)
  dissent : List Nat
  deriving DecidableEq, Repr

/-- The vote of one tile (R399 to R401, Table 18-3). -/
def tileVote (g : Grid) (minc thr n m : Nat) (vs : List Voter) (vote : Nat → FusVote) (t : Nat) : TileVote :=
  let present := (vs.map fun v => (v, v.inTile g t)).filter fun p => !p.2.isEmpty
  let voters := (present.filter fun p => p.1.iclass ≠ 0).map fun p => (p.1, p.2, !(vote p.1.idx).out)
  let non := (present.filter fun p => p.1.iclass = 0).map (·.1.idx)
  let js := voters.map fun p => (p.1, p.2.2, judge minc thr p.1 p.2.1 voters)
  let judgedIn := js.filter fun j => j.2.1 && j.2.2 ≠ .noOpinion
  let state :=
    if !judgedIn.isEmpty && judgedIn.all (fun j => j.2.2 ≠ .agrees) then 3
    else if !judgedIn.isEmpty then 1
    else if !non.isEmpty || js.any (·.2.1) then 2
    else 0
  let new := js.map fun j => (j.1.idx, voteStep n m j.1.neverOut (state = 1) j.2.2 (vote j.1.idx))
  let inOf (i : Nat) : Bool := !(((new.find? fun e => e.1 = i).map (·.2.out)).getD true)
  let adm := if state = 1 || state = 2 then (js.filter fun j => j.2.1 && inOf j.1.idx).map (·.1.idx) else []
  let non := if state = 1 || state = 2 then non else []
  let dis := (js.filter fun j => j.2.2 = .dissents).map (·.1.idx)
  let bits := state * 2 ^ 14 + b2n (adm.any fun i => dis.contains i) * 2 ^ 13
    + b2n (js.any fun j => !j.2.1 || !inOf j.1.idx) * 2 ^ 12 + b2n (!non.isEmpty) * 2 ^ 11 + min 7 js.length * 2 ^ 8
  { state := state, bits := bits, admitted := adm ++ non, votes := new, dissent := dis }

/-! ### Refinement (R407 to R409) -/

/-- One refinement cell: weight, mean position of the source, and of the reference less that of the source. -/
structure RefCell where
  w : Nat
  m : Int × Int × Int
  e : Int × Int × Int
  deriving DecidableEq, Repr

def CellAcc.mean (k : CellAcc) : Int × Int × Int := (k.px.fdiv k.wt, k.py.fdiv k.wt, k.pz.fdiv k.wt)

/-- The refinement cells of a source against its reference. -/
def refCells (a b : Tbl CellAcc) (ok : Nat → Bool) : List RefCell :=
  a.filterMap fun e =>
    match tget b e.1 with
    | some k =>
      if ok e.1 then
        let m := e.2.mean
        let r := k.mean
        some { w := min e.2.wt k.wt, m := m, e := (r.1 - m.1, r.2.1 - m.2.1, r.2.2 - m.2.2) }
      else none
    | none => none

/-- An estimate: roll, pitch, yaw in µrad, and c and t in µm (R408). -/
structure Estimate where
  ang : List Int
  c : List Int
  t : List Int
  deriving DecidableEq, Repr

def sumI (l : List RefCell) (f : RefCell → Int) : Int := l.foldl (fun a c => a + c.w * f c) 0

/-- The estimate of R408. -/
def estimate (l : List RefCell) : Estimate :=
  let w : Int := l.foldl (fun a c => a + (c.w : Int)) 0
  let c := [(sumI l (·.m.1)).tdiv w, (sumI l (·.m.2.1)).tdiv w, (sumI l (·.m.2.2)).tdiv w]
  let t := [(sumI l (·.e.1)).tdiv w, (sumI l (·.e.2.1)).tdiv w, (sumI l (·.e.2.2)).tdiv w]
  let qx (k : RefCell) : Int := k.m.1 - c.getD 0 0
  let qy (k : RefCell) : Int := k.m.2.1 - c.getD 1 0
  let ex (k : RefCell) : Int := k.e.1 - t.getD 0 0
  let ey (k : RefCell) : Int := k.e.2.1 - t.getD 1 0
  let ez (k : RefCell) : Int := k.e.2.2 - t.getD 2 0
  let yaw := (1000000 * sumI l (fun k => qx k * ey k - qy k * ex k)).tdiv (sumI l fun k => qx k * qx k + qy k * qy k)
  let pitch := (-1000000 * sumI l (fun k => qx k * ez k)).tdiv (sumI l fun k => qx k * qx k)
  let roll := (1000000 * sumI l (fun k => qy k * ez k)).tdiv (sumI l fun k => qy k * qy k)
  { ang := [roll, pitch, yaw], c := c, t := t }

/-- Rounding to nearest, ties away from zero. -/
def roundAway (a : Int) (b : Nat) : Int := if 0 ≤ a then (2 * a + b).fdiv (2 * b) else -((-2 * a + b).fdiv (2 * b))

/-- A gain and a clamp: the value and whether it was clamped. -/
def gainClamp (v gain lim : Int) : Int × Bool :=
  let x := (v * gain).tdiv 256
  (clampInt (-lim) lim x, decide (x < -lim || lim < x))

/-- The step of R409 from an estimate: EST_T, the step and whether something was clamped. -/
def refStep (e : Estimate) (gain : Nat) (cal : Cal) : List Int × FusStep × Bool :=
  let a := e.ang.map fun v => gainClamp v gain 872
  let q (i : Nat) : Int := roundAway ((a.getD i (0, false)).1 * 2 ^ 30) 1000000
  let dr : List Int := [2 ^ 30, -q 2, q 1, q 2, 2 ^ 30, -q 0, -q 1, q 0, 2 ^ 30]
  let d := (List.range 3).map fun i => e.c.getD i 0 - cal.at (9 + i)
  let row (i : Nat) (f : Nat → Int) : Int := (dr.getD (3 * i) 0 * f 0 + dr.getD (3 * i + 1) 0 * f 1 + dr.getD (3 * i + 2) 0 * f 2 + 2 ^ 29).fdiv (2 ^ 30)
  let est := (List.range 3).map fun i => e.t.getD i 0 + d.getD i 0 - row i fun j => d.getD j 0
  let u := est.map fun v => gainClamp v gain 5000
  let rc := (List.range 9).map fun k => row (k / 3) fun j => cal.at (3 * j + k % 3)
  let tc := (List.range 3).map fun i => cal.at (9 + i) + (u.getD i (0, false)).1
  (est, { cal := rc ++ tc, a := (a.map fun p => p.1.natAbs).foldl (· + ·) 0, u := (u.map fun p => p.1.natAbs).foldl (· + ·) 0 },
   a.any (·.2) || u.any (·.2))

/-! ### The planes (R387, R388, Table 17-1) -/

/-- The previous cell under the centre of cell `n` (R388). -/
def Grid.prevCell (g : Grid) (q : Pose) (n : Nat) : Option Nat :=
  let dx := g.ox * 1000 + (n % g.gw : Nat) * (g.cell * 1000) + g.cell * 500 - q.1
  let dy := g.oy * 1000 + (n / g.gw : Nat) * (g.cell * 1000) + g.cell * 500 - q.2.1
  let cs := cosSin q.2.2
  g.cellOf ((cs.1 * dx + cs.2 * dy + 2 ^ 29).fdiv (2 ^ 30)) ((-cs.2 * dx + cs.1 * dy + 2 ^ 29).fdiv (2 ^ 30))

/-- One cell of the planes: features, CONF and AGE. -/
def planeCell (g : Grid) (first : Bool) (decay : Nat) (q : Pose) (cells : Tbl (List Int × Nat)) (prev : List Byte) (n : Nat) : List Nat × Nat × Nat :=
  match tget cells n with
  | some (f, c) => (f.map (fromSigned 8), c, 0)
  | none =>
    match if first then none else g.prevCell q n with
    | none => (List.replicate 32 0, 0, 0xFFFF)
    | some p =>
      let area := g.gw * g.gh
      let f := ((prev.drop (32 * p)).take 32).map (·.toNat)
      let c := natLE ((prev.drop (32 * area + p)).take 1)
      let a := natLE ((prev.drop (33 * area + 2 * p)).take 2)
      (f, if decay = 0 then c else c - c / 2 ^ decay, if a = 0xFFFF then a else min 0xFFFE (a + 1))

/-- The bytes of a Canvas buffer (Table 17-1). -/
def planes (g : Grid) (first : Bool) (decay : Nat) (q : Pose) (cells : Tbl (List Int × Nat)) (tiles : List Nat) (prev : List Byte) : List Byte :=
  let cs := (List.range (g.gw * g.gh)).map (planeCell g first decay q cells prev)
  (cs.flatMap fun c => c.1.map (BitVec.ofNat 8)) ++ (cs.map fun c => BitVec.ofNat 8 c.2.1) ++ (cs.flatMap fun c => bytesLE 2 c.2.2)
    ++ tiles.flatMap (bytesLE 2)

end Sys2Proof.Machine
end

