-- ==== Sys2Proof/Machine/Fus.lean ====
section
/-! DEFINITION. FUS (chapters 17 and 18): sources, contributions, instants, voting, refinement, publication. -/

namespace Sys2Proof.Machine

/-! ### Access -/

def State.fusGrid (s : State) : Grid :=
  { gw := s.imgFld FUS_GRID_CAP.GW, gh := s.imgFld FUS_GRID_CAP.GH, cell := s.imgFld FUS_GRID_CAP.CELL,
    ox := toSigned 32 (s.reg FUS_ORG_X).toNat, oy := toSigned 32 (s.reg FUS_ORG_Y).toNat }

def State.fusP (s : State) : Nat := s.get FUS_INST_CFG.P_MS * 1000000
def State.fusW (s : State) : Nat := s.get FUS_INST_CFG.W_MS * 1000000
def State.fusD (s : State) : Nat := s.get FUS_INST_CFG.D_MS * 1000000

def State.fusSrc (s : State) (x : Nat) : Option FusSrc := tget s.fus.srcs x
def State.fusLive (s : State) (x : Nat) : Bool := (s.fusSrc x).isSome
def State.setSrc (x : Nat) (v : FusSrc) (s : State) : State := { s with fus := { s.fus with srcs := tput s.fus.srcs x v } }
def State.modSrc (x : Nat) (f : FusSrc → FusSrc) (s : State) : State :=
  match s.fusSrc x with
  | some v => s.setSrc x (f v)
  | none => s

/-- FEAT, LIDAR and PAIR deliver grid points (Table 17-2). -/
def FusSrc.grid (v : FusSrc) : Bool := v.kind = 1 || v.kind = 2 || v.kind = 6

/-- Size of one buffer and address of buffer `b` (R370). -/
def State.fusStride (s : State) : Nat := s.imgFld FUS_CV_STRIDE.PAGES * 4096
def State.fusBuf (s : State) (b : Nat) : Nat := s.get64 FUS_CV_BASE_LO FUS_CV_BASE_HI + b * s.fusStride
def Grid.bufLen (g : Grid) : Nat := 35 * (g.gw * g.gh) + 2 * g.tiles

/-- ISEQ of the instant with ordinal `n` from 0, and its buffer (R370, Table 17-6). -/
def iseqOf (n : Nat) : Nat := n % (2 ^ 32 - 1) + 1
def State.fusBufOf (s : State) (n : Nat) : Nat := (iseqOf n - 1) % max 1 (s.get FUS_CV_CFG.NBUF)

/-- Calibration in force. -/
def State.calOf (s : State) (x : Nat) : Cal := (List.range 12).map fun i => toSigned 32 (s.reg (FUS_S_CAL x i)).toNat
def State.putCal (x : Nat) (c : Cal) (s : State) : State := (List.range 12).foldl (fun s i => s.setReg (FUS_S_CAL x i) (BitVec.ofInt 32 (c.at i))) s

/-- A flag bit goes to 1; from 0 it raises event `n`. -/
def State.flagEvent (f : Fld) (n : Nat) (s : State) : State := if s.getB f then s else (s.setB f true).raise n

def State.fusShow (s : State) : State :=
  (s.set FUS_STATUS.SOURCES s.fus.srcs.length).setB FUS_STATUS.PUB (s.fus.pubs.any (·.started))

/-- USED of R410 as the register shows it. -/
def State.showUsed (x : Nat) (s : State) : State :=
  match s.fusSrc x with
  | some v =>
    ((s.set (FUS_S_RF_USED.ANG_USED x) (satTo 0xFFFF (v.angUsed / 10))).set (FUS_S_RF_USED.T_USED x) (satTo 0xFFFF (v.tUsed / 10))).setB
      (FUS_S_CALV.STEP_PEND x) v.step.isSome
  | none => s

/-! ### Arrival (R379 to R383) -/

def inWin (w tov l : Nat) : Bool := l ≤ tov + w && tov ≤ l

/-- The instant at L_k = `l` has closed: whatever arrives from now on is late for it (R380, R394). -/
def State.fusShut (s : State) (l : Nat) : Bool := decide (l + s.fusD ≤ s.now)

/-- A contribution stamped `tov` is late for a closed instant; it belongs to an open one; no instant taken yet decides. -/
def State.fusLate (s : State) (tov : Nat) : Bool := s.fus.insts.any fun i => s.fusShut i.1 && inWin s.fusW tov i.1
def State.fusOpen (s : State) (tov : Nat) : Bool := s.fus.insts.any fun i => !s.fusShut i.1 && inWin s.fusW tov i.1

/-- A body counts for the instant at `l` (R380); it counts for one whose closure is not yet processed. -/
def State.fusCounts (s : State) (b : FusBody) (l : Nat) : Bool := inWin s.fusW b.tov l && decide (b.at0 < l + s.fusD)
def State.fusAwaited (s : State) (b : FusBody) : Bool := (s.fus.insts.drop s.fus.closed).any fun i => s.fusCounts b i.1
def State.fusAhead (s : State) (tov : Nat) : Bool := s.fus.insts.all fun i => i.1 < tov

/-- L_k of the newest instant taken, and of the newest closed. -/
def State.fusNewest (s : State) : Option Nat := (s.fus.insts.getLast?).map (·.1)
def State.fusNewestClosed (s : State) : Option Nat := ((s.fus.insts.filter fun i => s.fusShut i.1).getLast?).map (·.1)

/-- A contribution that belongs to no instant (R381). -/
def State.fusUnused (x : Nat) (s : State) : State := (s.bump (FUS_S_CNT.UNUSED x) 1).flagEvent (FUS_S_STAT.UNUSED_F x) 224

/-- A contribution stamped more than 1 s ahead of its arrival (R379). -/
def State.fusFuture (x : Nat) (s : State) : State := (s.bump (FUS_S_CNT2.FUTURE x) 1).flagEvent (FUS_S_STAT.FUT_F x) 225

def State.isFuture (s : State) (tov : Nat) : Bool := s.now + 1000000000 < tov

/-- What every contribution that is taken does: its TOV shows, it may exceed LB (R382) and it may be late (R381). -/
def State.fusTaken (x tov : Nat) (s : State) : State :=
  match s.fusSrc x with
  | none => s
  | some v =>
    let s := s.set64 (FUS_S_LAST_LO x) (FUS_S_LAST_HI x) tov
    let s := if tov + v.lb * 1000000 < s.now then (s.bump (FUS_S_CNT2.OVER_LB x) 1).flagEvent (FUS_S_STAT.OLB_F x) 220 else s
    if s.fusLate tov then
      (((s.bump (FUS_S_CNT.LATE x) 1).bump FUS_LATE_CNT.LATE 1).detViol SYS_DET_STATUS.FUS_LATE).flagEvent (FUS_S_STAT.LATE_F x) 219
    else s

/-- A grid body arrives (R375, R379): N points at `addr`. -/
def State.fusBody (x tov addr n : Nat) (s : State) : State :=
  let late := s.fusLate tov
  let near := match s.fusNewest with
    | some l => decide (l < tov + s.fusW)
    | none => true
  let s := s.fusTaken x tov
  if s.fusOpen tov || s.fusAhead tov || near then
    let b : FusBody := { src := x, addr := addr, n := n, tov := tov, at0 := s.now, bytes := memBytes s.dram (addr + 64) (48 * n), used := late || s.fusOpen tov }
    { s with fus := { s.fus with bodies := s.fus.bodies ++ [b] } }
  else if late then s
  else s.fusUnused x

/-- A motion sample arrives (R376, R383). -/
def State.fusMotion (x tov : Nat) (v w : Option Int) (s : State) : State :=
  let late := s.fusLate tov
  let keep := match s.fusNewestClosed with
    | some l => decide (l ≤ tov + 2000000000)
    | none => true
  let s := s.fusTaken x tov
  if keep then { s with fus := { s.fus with motion := s.fus.motion ++ [{ src := x, tov := tov, at0 := s.now, v := v, w := w }] } }
  else if late then s
  else s.fusUnused x

/-- CONTRIBUTION_ARRIVE (R379): the oldest direct body signalled to FUS is taken. A body with N above MAXPTS is discarded whole
and counts as unused (R375). -/
def execContributionArrive (s : State) : Out :=
  match s.fus.inbox with
  | [] => .next s
  | f :: rest =>
    let s := { s with fus := { s.fus with inbox := rest } }
    match s.fedSource f.kind f.link with
    | none => .next s
    | some (x, v) =>
      let n := s.dramN f.addr 4
      let tov := match f.tov with
        | some t => fromSigned 64 ((t : Int) + v.tovOfs)
        | none => s.dramN (f.addr + 8) 8
      .next (if v.maxPts < n then s.fusUnused x else if s.isFuture tov then s.fusFuture x else s.fusBody x tov f.addr n)

/-- IMU_SAMPLE (R377): the sample of the latest LTC multiple of 1,000,000 ns, once. A yaw rate outside the record's signed 32
bits is a value the spec does not state: free. -/
def execImuSample (gx gy gz ax ay az : BitVec 16) (s : State) : Out :=
  let t := s.now / 1000000 * 1000000
  if !s.loaded 5 || s.fus.imuAt.any (fun x => t ≤ x) then .next s
  else
    let s := { s with fus := { s.fus with imuAt := some t } }
    let s := (s.set FUS_IMU0.GX gx.toNat).set FUS_IMU0.GY gy.toNat
    let s := (s.set FUS_IMU1.GZ gz.toNat).set FUS_IMU1.AX ax.toNat
    let s := (s.set FUS_IMU2.AY ay.toNat).set FUS_IMU2.AZ az.toNat
    let s := s.set64 FUS_IMU_LTC_LO FUS_IMU_LTC_HI t
    match s.fus.srcs.find? fun e => e.2.kind = 4 with
    | none => .next s
    | some (x, _) =>
      let c := s.calOf x
      let g := c.at 6 * gx.toInt + c.at 7 * gy.toInt + c.at 8 * gz.toInt
      let w := (g * 1000).fdiv (32768 * 360)
      if -(2 ^ 31) ≤ w && w < 2 ^ 31 then .next (s.fusMotion x t none (some w))
      else .next (s.drawn.fusMotion x t none (some (toSigned 32 (s.fresh 32))))

/-! ### Commands (R372 to R374) -/

/-- The region and the handle that a LINK draws on. -/
def State.linkRegion (kind feed : Nat) : Option Nat :=
  if feed ≠ 1 then none else if kind = 1 then some 4 else if kind = 2 || kind = 6 then some 7 else none

/-- SRC_CREATE (R372, R373, R405). -/
def opSrcCreate (c : Cmd) (s : State) : State :=
  let kind := c.arg 16 1
  let feed := c.arg 17 1
  let order := c.arg 18 1
  let opt := c.arg 21 1
  let lb := c.arg 22 2
  let link := c.arg 24 4
  let maxp := c.arg 32 4
  let motion := kind = 3 || kind = 4 || kind = 5
  let region := State.linkRegion kind feed
  let free := tfree s.fus.srcs 24
  let badLink := match kind with
    | 1 => feed = 0 && link ≠ 0
    | 2 => 7 < link
    | 6 => 7 < link
    | _ => link ≠ 0
  let range := kind = 0 || 6 < kind || 1 < feed || 23 < order || 3 < c.arg 19 1 || (!motion && c.arg 20 1 = 0) || 3 < opt || (motion && opt ≠ 0)
    || lb = 0 || 1000 < lb || badLink || (!(kind = 1 && feed = 1) && c.arg 28 4 ≠ 0) || 262144 < maxp
  let feedBad := (motion && kind ≠ 4 && feed = 1) || ((kind = 4 || kind = 6) && feed = 0)
    || (kind = 1 && feed = 1 && ((tget s.fen.streams (hIndex link)).any fun t => t.kind = 2))
  match region with
  | some r =>
    if s.busy r then c.failed 0x02 s
    else if !s.loaded r then c.failed 0x01 s
    else if r = 4 && (s.checkHandle 5 s.strLive link).isSome then c.failed 0x03 s
    else go kind feed order opt lb link maxp free range feedBad
  | none => go kind feed order opt lb link maxp free range feedBad
where
  /-- The checks from EXHAUSTED on, and the creation. -/
  go (kind feed order opt lb link maxp : Nat) (free : Option Nat) (range feedBad : Bool) : State :=
    match free with
    | none => c.failed 0x04 s
    | some x =>
      if range then c.failed 0x05 s
      else if s.fus.srcs.any (fun e => e.2.order = order) then c.failed 0x20 s
      else if s.fus.srcs.any (fun e => e.2.kind = kind && (kind = 4 || (feed = 1 && e.2.feed = 1 && e.2.link = link))) then c.failed 0x21 s
      else if feedBad then c.failed 0x22 s
      else if s.fusW + s.fusD ≤ lb * 1000000 then c.failed 0x24 s
      else
        let v : FusSrc := {
          kind := kind, feed := feed, order := order, iclass := c.arg 19 1, weight := c.arg 20 1, opt := opt, lb := lb, link := link
          tovOfs := toSigned 32 (c.arg 28 4), maxPts := if maxp = 0 then 262144 else maxp }
        let s := ((s.wipeRegs (FUS_S_STAT x) 0x100).advGen 6 x).setSrc x v
        let s := (((s.setB (FUS_S_STAT.LIVE x) true).set (FUS_S_STAT.KIND x) kind).set (FUS_S_STAT.ORDER x) order).set (FUS_S_STAT.ICLASS x) v.iclass
        c.created (s.handle 6 x) ((s.set (FUS_S_STAT.FEED x) feed).fusShow)

/-- SRC_CREATE (R372). -/
def execSrcCreate (ring : Fin 1) (e : Entry) (s : State) : Out := .next (s.runRow 0x0C ring.val 1 0 e opSrcCreate)

/-- A source and all it has contributed go (R374, R412). -/
def State.srcEnd (x : Nat) (s : State) : State :=
  let s := { s with fus := { s.fus with
    srcs := tdel s.fus.srcs x, bodies := s.fus.bodies.filter (·.src ≠ x), motion := s.fus.motion.filter (·.src ≠ x) } }
  (s.wipeRegs (FUS_S_STAT x) 0x100).fusShow

/-- SRC_DESTROY (R374). -/
def opSrcDestroy (c : Cmd) (s : State) : State :=
  match s.checkHandle 6 s.fusLive c.handle with
  | some code => c.finish code s
  | none => c.finish 0x00 (s.srcEnd (hIndex c.handle))

/-- SRC_DESTROY (R374). -/
def execSrcDestroy (ring : Fin 1) (e : Entry) (s : State) : Out := .next (s.runRow 0x0C ring.val 2 0 e opSrcDestroy)

/-- SUBMIT (R374, R376, R379). -/
def opFusSubmit (c : Cmd) (s : State) : State :=
  match s.checkHandle 6 s.fusLive c.handle, s.fusSrc (hIndex c.handle) with
  | none, some v =>
    let x := hIndex c.handle
    let a := c.arg 16 8
    let n := s.dramN a 4
    let tov := s.dramN (a + 8) 8
    let inside := s.inWins 0x0C a 64 && (!v.grid || s.inWins 0x0C a (64 + 48 * n))
    let range := if v.feed = 1 then a % 64 ≠ 0 || !s.inWins 0x0C a 64
      else a % 64 ≠ 0 || !inside || (if v.grid then v.maxPts < n else s.dramN a 1 ≠ (if v.kind = 3 then 1 else 2))
    if range then c.finish 0x05 s
    else if v.feed = 1 then c.finish 0x22 s
    else if s.isFuture tov then c.finish 0x05 (s.fusFuture x)
    else if v.grid then c.finish 0x00 (s.fusBody x tov a n)
    else
      let valid := s.dramN (a + 1) 1
      let f (o : Nat) : Int := toSigned 32 (s.dramN (a + o) 4)
      c.finish 0x00 (s.fusMotion x tov (if bitAt valid 0 then some (f 16) else none) (if bitAt valid 1 then some (f 20) else none))
  | _, _ => c.finish 0x03 s

/-- SUBMIT (R374). -/
def execFusSubmit (ring : Fin 1) (e : Entry) (s : State) : Out := .next (s.runRow 0x0C ring.val 3 0 e opFusSubmit)

/-! ### Instants (R142, R380) -/

/-- Number of the MT-grid multiple at or below `m`. -/
def State.fusNumber (s : State) (m : Int) : Int := floorDivNat m s.fusP

def State.fusOn (s : State) : Bool := s.enabled 0x0C && s.getB FUS_STATUS.RUN && decide (s.fusP ≠ 0)

/-- Bodies that no open or coming instant can use are released (R384); those now known to belong to none are unused (R381). -/
def State.fusRelease (s : State) : State :=
  match s.fusNewest with
  | none => s
  | some l =>
    let w := s.fusW
    let gone (b : FusBody) : Bool := b.tov + w ≤ l && !s.fusAwaited b
    let lost := s.fus.bodies.filter fun b => gone b && !b.used && !s.fusLate b.tov
    let s := { s with fus := { s.fus with bodies := (s.fus.bodies.filter fun b => !gone b).map fun (b : FusBody) => { b with used := b.used || s.fusOpen b.tov } } }
    lost.foldl (fun s b => s.fusUnused b.src) s

/-- INSTANT_BOUNDARY (R380): the boundary MT has reached is taken. -/
def State.fusBoundary (s : State) : State :=
  let k := s.fus.lastNom + 1
  if s.fusOn && decide (s.fus.lastNom < s.fusNumber s.mtNow) then
    { s with fus := { s.fus with lastNom := k, insts := s.fus.insts ++ [(s.now, k * s.fusP)] } }.fusRelease
  else s

def execInstantBoundary (s : State) : Out := .next s.fusBoundary

/-- A step of MT (R142, R380): `before` is MT just before it. Boundaries passed over are skipped. -/
def State.fusStep (before : Int) (s : State) : State :=
  if !s.fusOn then s
  else if s.mtNow < before then { s with fus := { s.fus with back := true } }
  else
    let b := s.fusNumber s.mtNow
    let n := (b - max (s.fusNumber before) s.fus.lastNom).toNat
    let s := { s with fus := { s.fus with fwd := true, skipped := s.fus.skipped + n } }
    if s.fus.lastNom < b then { s with fus := { s.fus with lastNom := b } } else s

/-! ### Closure: calibrations, votes, refinement (R378, R397 to R411) -/

/-- No step takes effect or is computed for the source. -/
def State.frozen (s : State) (x : Nat) : Bool := s.getB FUS_CAL_CFG.FREEZE_ALL || s.getB (FUS_S_RF_CFG.FREEZE x)

/-- A calibration in force changes: CALV (R411). -/
def State.calChanged (x : Nat) (host : Bool) (s : State) : State := (s.wrapInc (FUS_S_CALV.CALV x)).setB (FUS_S_CALV.BY_HOST x) host

/-- COMMIT or step of source `x` takes effect (R378, R409, R410, R412); true for a COMMIT. -/
def State.calTake (x : Nat) (s : State) : State × Bool :=
  match s.fusSrc x with
  | none => (s, false)
  | some v =>
    if s.getB (FUS_S_CAL_CTRL.PEND x) then
      let s := (List.range 12).foldl (fun s i => s.setReg (FUS_S_CAL x i) (s.reg (FUS_S_CALN x i))) s
      let s := (s.setB (FUS_S_CAL_CTRL.PEND x) false).setB (FUS_S_CALV.BUD_OUT x) false
      (((s.setSrc x { v with step := none, angUsed := 0, tUsed := 0 }).showUsed x).calChanged x true, true)
    else
      match v.step with
      | some p =>
        if s.frozen x then (s, false)
        else
          let s := (s.putCal x p.cal).setSrc x { v with step := none, angUsed := v.angUsed + p.a, tUsed := v.tUsed + p.u }
          ((s.showUsed x).calChanged x false, false)
      | none => (s, false)

/-- `n` changes of vote state to OUT or to IN: counter and event (R401). -/
def State.voteChanges (out : Bool) (n : Nat) (s : State) : State :=
  (List.range n).foldl (fun s _ => (s.bump (if out then FUS_VOTE_CNT.OUTS else FUS_VOTE_CNT.INS) 1).raise (if out then 226 else 227)) s

def FusSrc.outTiles (v : FusSrc) : Nat := (v.votes.filter (·.2.out)).length

/-- A READMIT that has landed sets the source IN in every tile (R401); true where a vote state changed. -/
def State.readmitTake (x : Nat) (s : State) : State × Bool :=
  match s.fusSrc x with
  | none => (s, false)
  | some v =>
    if v.readmit then ((s.setSrc x { v with readmit := false, votes := [] }).voteChanges false v.outTiles, decide (v.outTiles ≠ 0))
    else (s, false)

/-- What a closure gathers from one source: cells as used, cells and points as they arrived. -/
structure Gathered where
  idx : Nat
  cells : Tbl CellAcc
  asArrived : Tbl CellAcc
  points : Nat
  deriving DecidableEq, Repr

/-- The points of a body: its bytes, or free ones where they changed since it arrived (R384, R395). -/
def State.bodyPts (s : State) (b : FusBody) : List FusPt × State :=
  if memBytes s.dram (b.addr + 64) (48 * b.n) = b.bytes then (ptsOf b.n b.bytes, s)
  else (ptsOf b.n (bytesLE (48 * b.n) (Config.freeValue s.free)), s.drawn)

/-- The bodies of one source summed (R386, R387). -/
def gatherSrc (g : Grid) (pose : Nat → Pose) (x : Nat) (v : FusSrc) (bodies : List FusBody) (s : State) : Gathered × State :=
  let c := s.calOf x
  bodies.foldl (fun (a : Gathered × State) b =>
    let (pts, s) := a.2.bodyPts b
    let q := pose b.tov
    let add (t : Tbl CellAcc) (l : List FusPt) : Tbl CellAcc × Nat := l.foldl (addPoint g c q v.weight) (t, 0)
    let seen := add a.1.asArrived (ptsOf b.n b.bytes)
    ({ a.1 with cells := (add a.1.cells pts).1, asArrived := seen.1, points := a.1.points + seen.2 }, s))
    ({ idx := x, cells := [], asArrived := [], points := 0 }, s)

/-- A signed value in a 32-bit register; one that does not fit is a value the spec does not state: free. -/
def State.putSigned (a : Nat) (v : Int) (s : State) : State :=
  if -(2 ^ 31) ≤ v && v < 2 ^ 31 then s.setReg a (BitVec.ofInt 32 v) else (s.setReg a (BitVec.ofNat 32 (s.fresh 32))).drawn

/-- The refinement of source `x` at a closure (R407 to R411); true where a step was computed. -/
def State.refine (g : Grid) (gs : List Gathered) (x : Nat) (s : State) : State × Bool :=
  match s.fusSrc x with
  | none => (s, false)
  | some v =>
    if !v.grid || !s.getB (FUS_S_RF_CFG.RF_EN x) then (s, false)
    else
      let r := s.get (FUS_S_RF_CFG.REF x)
      let refOk := r ≠ x && (s.fusSrc r).any (·.grid)
      let out (t : Nat) : Bool := (s.fusSrc r).any fun v => (tget v.votes t).any (·.out)
      let cellsOf (i : Nat) : Tbl CellAcc := ((gs.find? fun e => e.idx = i).map (·.cells)).getD []
      let cs := if refOk then refCells (cellsOf x) (cellsOf r) fun n => !out (g.tileOf n) else []
      if !refOk || cs.length < s.get (FUS_S_RF_CFG.MINC x) then
        let n := v.stall + 1
        let s := s.setSrc x { v with stall := n }
        let lim := s.get FUS_CAL_CFG.STALL_N
        (if lim ≠ 0 && lim = n then s.flagEvent (FUS_S_CALV.STALL_F x) 232 else s, false)
      else
        let e := estimate cs
        let (est, step, clamped) := refStep e (s.get (FUS_S_RF_CFG.GAIN x)) (s.calOf x)
        let s := s.setSrc x { v with stall := 0 }
        let s := ((s.putSigned (FUS_S_EST_ROLL x) (e.ang.getD 0 0)).putSigned (FUS_S_EST_PITCH x) (e.ang.getD 1 0)).putSigned (FUS_S_EST_YAW x) (e.ang.getD 2 0)
        let s := ((s.putSigned (FUS_S_EST_TX x) (est.getD 0 0)).putSigned (FUS_S_EST_TY x) (est.getD 1 0)).putSigned (FUS_S_EST_TZ x) (est.getD 2 0)
        if s.frozen x || s.getB (FUS_S_CALV.BUD_OUT x) then (s, false)
        else
          let s := if clamped then s.flagEvent (FUS_S_CALV.CLAMP_F x) 230 else s
          if step.a = 0 && step.u = 0 then (s, false)
          else if s.get FUS_CAL_BUD.BUD_ANG * 10 < v.angUsed + step.a || s.get FUS_CAL_BUD.BUD_T * 1000 < v.tUsed + step.u then
            (s.flagEvent (FUS_S_CALV.BUD_OUT x) 231, false)
          else ((s.setSrc x { v with stall := 0, step := some step }).showUsed x, true)

/-- A kept motion sample is used by the closure at L_k = `l` (R383): stamped at or before it, and taken before the closure. -/
def State.motionCounts (s : State) (m : FusMotion) (l : Nat) : Bool := decide (m.tov ≤ l) && decide (m.at0 < l + s.fusD)

/-- The track of a quantity (R383, R385): kept valid samples of the source. -/
def State.trackOf (s : State) (x l : Nat) (f : FusMotion → Option Int) : Track :=
  s.fus.motion.filterMap fun m => if m.src = x && s.motionCounts m l then (f m).map fun v => (m.tov, v) else none

/-- The votes of all tiles take effect: vote states, their counters, and the source registers (R401). True where a vote
state changed. -/
def State.votesTake (tvs : List (Nat × TileVote)) (s : State) : State × Bool :=
  tvs.foldl (fun (a : State × Bool) tv =>
    tv.2.votes.foldl (fun (a : State × Bool) e =>
      match a.1.fusSrc e.1 with
      | none => a
      | some v =>
        let old := tgetD v.votes tv.1 {}
        let s := a.1.setSrc e.1 { v with votes := tput v.votes tv.1 e.2 }
        if old.out = e.2.out then (s, a.2) else (s.voteChanges e.2.out 1, true)) a) (s, false)

/-- The processing of a closure at L_k = `l`, t_k = `t` (R378 to R411). -/
def State.closeInstant (l : Nat) (t : Int) (s : State) : State :=
  let g := s.fusGrid
  let n := s.fus.closed
  let idx := s.fus.srcs.map (·.1)
  let (s, host) := idx.foldl (fun (a : State × Bool) x => let (s, h) := a.1.calTake x; (s, a.2 || h)) (s, false)
  let (s, readm) := idx.foldl (fun (a : State × Bool) x => let (s, h) := a.1.readmitTake x; (s, a.2 || h)) (s, false)
  let vs := s.get FUS_MOT_CFG.V_SRC
  let ws := s.get FUS_MOT_CFG.W_SRC
  let tv := if (s.fusSrc vs).any fun (v : FusSrc) => v.kind = 3 || v.kind = 5 then s.trackOf vs l (·.v) else []
  let tw := if (s.fusSrc ws).any fun (v : FusSrc) => !v.grid then s.trackOf ws l (·.w) else []
  let age := s.get FUS_MOT_CFG.MOT_AGE
  let win := s.fus.bodies.filter fun b => s.fusCounts b l
  let prevL := ((s.fus.insts.take n).getLast?).map (·.1)
  let carry : PoseAcc := match prevL with
    | some p => poseAt tv tw age l p
    | none => {}
  let accs := carry :: win.map fun b => poseAt tv tw age l b.tov
  let (gs, s) := (s.fus.srcs.filter fun e => e.2.grid).foldl (fun (a : List Gathered × State) e =>
    let (r, s) := gatherSrc g (fun tau => (poseAt tv tw age l tau).pose) e.1 e.2 (win.filter fun b => b.src = e.1) a.2
    (a.1 ++ [r], s)) ([], s)
  let voters := gs.filterMap fun (r : Gathered) => (s.fusSrc r.idx).map fun (v : FusSrc) =>
    ({ idx := r.idx, iclass := v.iclass, neverOut := bitAt v.opt 0, cells := r.cells } : Voter)
  let vote (tile x : Nat) : FusVote := ((s.fusSrc x).map fun v => tgetD v.votes tile {}).getD {}
  let tvs := (List.range g.tiles).map fun i =>
    (i, tileVote g (s.get FUS_VOTE_MINC.MINC_T) (s.get FUS_VOTE_CFG.THR) (s.get FUS_VOTE_CFG.N) (s.get FUS_VOTE_CFG.M) voters (vote i) i)
  let (s, chg) := s.votesTake tvs
  let s := idx.foldl (fun s x =>
    match s.fusSrc x with
    | some v => (s.set (FUS_S_VOTE.OUT_TILES x) v.outTiles).set (FUS_S_VOTE.DISSENT_TILES x) (tvs.filter fun e => e.2.dissent.contains x).length
    | none => s) s
  let stateOf (i : Nat) : Nat := ((tget tvs i).map (·.state)).getD 0
  let admits (i x : Nat) : Bool := (tget tvs i).any fun e => e.admitted.contains x
  let sum (f : Gathered → Tbl CellAcc) : Tbl CellAcc := gs.foldl (fun (a : Tbl CellAcc) r =>
    (f r).foldl (fun (a : Tbl CellAcc) e => if admits (g.tileOf e.1) r.idx then tput a e.1 (match tget a e.1 with
      | some k => k.add e.2
      | none => e.2) else a) a) []
  let cells := (sum (·.cells)).map fun e => (e.1, (e.2.feat, e.2.conf))
  let held := tvs.foldl (fun (h : Tbl Nat) e => if e.2.state = 3 then tput h e.1 (satTo 255 (tgetD h e.1 0 + 1)) else tdel h e.1) s.fus.held
  let tiles := tvs.map fun e => e.2.bits + tgetD held e.1 0
  let (s, step) := idx.foldl (fun (a : State × Bool) x => let (s, h) := a.1.refine g gs x; (s, a.2 || h)) (s, false)
  let noMot := tv.isEmpty || tw.isEmpty || accs.any (·.none)
  let flags := [s.fus.fwd, s.fus.back, false, accs.any (·.stale), noMot, false, false, (List.range g.tiles).any (fun i => stateOf i = 3),
    (List.range g.tiles).any (fun i => stateOf i = 2), chg || readm, step, tvs.any (fun e => bitAt e.2.bits 13), host]
  let inMask (x : Nat) : Bool := win.any (fun b => b.src = x) || s.fus.motion.any fun m => m.src = x && s.motionCounts m l
  let p : FusPub := {
    n := n, t := t, l := l, flags := flags.foldr (fun b m => 2 * m + b2n b) 0
    oldest := win.foldl (fun (o : Option Nat) b => some (match o with | some k => min k b.tov | none => b.tov)) none
    mask := (List.range 24).foldr (fun x m => 2 * m + b2n (inMask x)) 0
    points := gs.foldl (fun a r => a + r.points) 0, cellsNew := (sum (·.asArrived)).length, pose := carry.pose
    skipped := satTo 0xFFFF s.fus.skipped, cells := cells, tiles := tiles, decay := s.get FUS_CARRY.DECAY }
  { s with fus := { s.fus with
    closed := n + 1, fwd := false, back := false, skipped := 0, held := held, pubs := s.fus.pubs ++ [p]
    motion := s.fus.motion.filter fun m => decide (l ≤ m.tov + 2000000000) } }.fusRelease

/-- INSTANT_CLOSE (R380): the earliest open instant closes once D has passed. -/
def execInstantClose (s : State) : Out :=
  match s.fus.insts[s.fus.closed]? with
  | some (l, t) => .next (if s.enabled 0x0C && l + s.fusD ≤ s.now then s.closeInstant l t else s)
  | none => .next s

/-! ### Publication (R389 to R392) -/

/-- PUBLICATION_START (R389): the previous planes are read from here on. -/
def execPublicationStart (s : State) : Out :=
  match s.fus.pubs with
  | [] => .next s
  | p :: rest =>
    if p.started then .next s
    else
      let prev := if p.n = 0 then [] else memBytes s.dram (s.fusBuf (s.fusBufOf (p.n - 1))) s.fusGrid.bufLen
      .next { s with fus := { s.fus with pubs := { p with started := true, prev := prev } :: rest } }.fusShow

/-- The previous planes as the publication read them: bytes that changed while it ran are free (log entry 16). -/
def mixFree : List Byte → List Byte → Nat → List Byte
  | a :: as, b :: bs, f => (if a = b then a else BitVec.ofNat 8 f) :: mixFree as bs (f / 256)
  | _, _, _ => []

/-- The previous planes at a publication's end, with free bytes where they changed while it ran (log entry 16). -/
def State.fusPrev (p : FusPub) (s : State) : List Byte × State :=
  let now := if p.n = 0 then [] else memBytes s.dram (s.fusBuf (s.fusBufOf (p.n - 1))) s.fusGrid.bufLen
  if now = p.prev then (now, s) else (mixFree p.prev now (Config.freeValue s.free), s.drawn)

/-- A record (Table 17-6). -/
def FusPub.bytes (p : FusPub) (buf flags : Nat) : List Byte :=
  bytesLE 4 (iseqOf p.n) ++ bytesLE 1 buf ++ bytesLE 1 0 ++ bytesLE 2 flags ++ bytesLE 8 (fromSigned 64 p.t) ++ bytesLE 8 p.l
    ++ bytesLE 8 (p.oldest.getD 0) ++ bytesLE 4 (match p.oldest with | some o => (p.l - o) / 1000 | none => 0xFFFFFFFF)
    ++ bytesLE 4 p.mask ++ bytesLE 4 p.points ++ bytesLE 4 p.cellsNew ++ bytesLE 4 (fromSigned 32 p.pose.1)
    ++ bytesLE 4 (fromSigned 32 p.pose.2.1) ++ bytesLE 4 p.pose.2.2 ++ bytesLE 2 p.skipped ++ bytesLE 2 0

def State.fusRecMod (s : State) : Nat := 2 * 2 ^ s.get FUS_REC_CFG.RLEN
def State.fusRecFill (s : State) : Nat := (s.get FUS_REC_PI.PI + s.fusRecMod - s.get FUS_REC_CI.CI) % s.fusRecMod

/-- A write of FUS_REC_CI (R390). -/
def State.writeFusCi (value : Word) (s : State) : State :=
  let v := value.toNat % 2 ^ 13
  if !s.enabled 0x0C || s.fusRecMod ≤ v || s.fusRecMod / 2 < (s.get FUS_REC_PI.PI + s.fusRecMod - v) % s.fusRecMod then s
  else s.set FUS_REC_CI.CI v

/-- The FEAT plane goes to the grid head's next job (R392). -/
def State.fusHead (t : Int) (l : Nat) (feat : List Byte) (s : State) : State × Bool :=
  let h := (s.reg FUS_HEAD).toNat
  if h = 0 then (s, true)
  else if (s.checkHandle 5 s.strLive h).isSome then (s, false)
  else s.fenFus h (fromSigned 64 t) l feat

/-- The record of a publication goes to the record ring; a full ring loses it (R390). -/
def State.fusRecPut (p : FusPub) (buf flags : Nat) (s : State) : State :=
  if s.fusRecMod / 2 ≤ s.fusRecFill then
    { (s.bump FUS_REC_DROP.DROP 1).raise 218 with fus := { s.fus with gap := true } }
  else
    let pi := s.get FUS_REC_PI.PI
    let s := s.dramPuts (s.get64 FUS_REC_BASE_LO FUS_REC_BASE_HI + 64 * (pi % (s.fusRecMod / 2))) (p.bytes buf flags)
    { (s.set FUS_REC_PI.PI ((pi + 1) % s.fusRecMod)).raise 217 with fus := { s.fus with gap := false } }

/-- What a publication leaves when it ends: its events, the last publication's registers, the tile counts, its record (R389, R390, R392). -/
def State.fusFinish (p : FusPub) (rest : List FusPub) (buf : Nat) (headOk : Bool) (s : State) : State :=
  let s := if headOk then s else (s.bump FUS_CNT.HEAD_SKIP 1).raise 223
  let ovr := (s.fus.insts[p.n + 1]?).any fun i => decide (i.1 + s.fusD < s.now)
  let s := if ovr then (s.bump FUS_CNT.OVERRUN 1).raise 222 else s
  let flags := p.flags + b2n s.fus.gap * 4 + b2n ovr * 32 + b2n (!headOk) * 64
  let mot := bitAt p.flags 3 || bitAt p.flags 4
  let s := if mot && !s.fus.motFlag then s.raise 221 else s
  let s := if bitAt p.flags 7 && !s.fus.conflict then s.raise 228 else s
  let s := if bitAt p.flags 8 && !s.fus.unchecked then s.raise 229 else s
  let s := (s.setReg FUS_LAST (BitVec.ofNat 32 (iseqOf p.n))).set64 FUS_LAST_LTC_LO FUS_LAST_LTC_HI p.l
  let count (st : Nat) : Nat := (p.tiles.filter fun t => t / 2 ^ 14 = st).length
  let s := (s.set FUS_TILE_SUM.CONFLICT (count 3)).set FUS_TILE_SUM.UNCHECKED (count 2)
  let s : State := { s with fus := { s.fus with pubs := rest, motFlag := mot, conflict := bitAt p.flags 7, unchecked := bitAt p.flags 8 } }
  (s.fusRecPut p buf flags).fusShow

/-- INSTANT (R389, R390, R392): a publication ends. -/
def execInstantEnd (s : State) : Out :=
  match s.fus.pubs with
  | [] => .next s
  | p :: rest =>
    if !p.started then .next s
    else
      let g := s.fusGrid
      let buf := s.fusBufOf p.n
      let (prev, s) := s.fusPrev p
      let pl := planes g (p.n = 0) p.decay p.pose p.cells p.tiles prev
      let (s, headOk) := (s.dramPuts (s.fusBuf buf) pl).fusHead p.t p.l (pl.take (32 * (g.gw * g.gh)))
      .next (s.fusFinish p rest buf headOk)

/-! ### Host writes (R378, R401, R405, R412) -/

/-- A write of FUS_S_CAL_CTRL(x). -/
def State.writeCalCtrl (x : Nat) (value : Word) (s : State) : State :=
  if bitAt value.toNat 31 && s.fusLive x then s.setB (FUS_S_CAL_CTRL.PEND x) true else s

/-- A write of FUS_S_VOTE(x). -/
def State.writeReadmit (x : Nat) (value : Word) (s : State) : State :=
  if bitAt value.toNat 31 then s.modSrc x fun v => if v.grid then { v with readmit := true } else v else s

/-- A write of FUS_S_RF_CFG(x): a motion source's fields ignore it; MINC and GAIN ignore values out of range; RF_EN of a
NO_REFINE source ignores it. -/
def State.writeRfCfg (x : Nat) (value : Word) (s : State) : State :=
  match s.fusSrc x with
  | none => s
  | some v =>
    if !v.grid then s
    else
      let w := value.toNat
      let s := if bitAt v.opt 1 then s else s.setB (FUS_S_RF_CFG.RF_EN x) (bitAt w 31)
      let s := s.setB (FUS_S_RF_CFG.FREEZE x) (bitAt w 30)
      let s := if 16 ≤ bitsOf w 16 13 && bitsOf w 16 13 ≤ 4096 then s.set (FUS_S_RF_CFG.MINC x) (bitsOf w 16 13) else s
      let s := if bitsOf w 8 8 = 0 then s else s.set (FUS_S_RF_CFG.GAIN x) (bitsOf w 8 8)
      s.set (FUS_S_RF_CFG.REF x) (w % 32)

/-- Writes to FUS registers with a rule of their own; none where the field's access code alone decides. -/
def State.fusWrite (a : Nat) (value : Word) (s : State) : Option State :=
  let w := value.toNat
  let o := a - 0xCC000000
  let x := (o - 0x100000) / 0x100
  let r := o % 0x100
  if 0x100000 ≤ o && o < 0x101800 then
    if r = 0x14 then some (s.writeCalCtrl x value)
    else if r = 0x18 then some (s.writeRfCfg x value)
    else if r = 0x3C then some (s.writeReadmit x value)
    else if s.fusLive x then none
    else some s
  else if a = FUS_MOT_CFG then
    let s := if bitsOf w 16 8 = 0 then s else s.set FUS_MOT_CFG.MOT_AGE (bitsOf w 16 8)
    some ((s.set FUS_MOT_CFG.W_SRC (bitsOf w 8 5)).set FUS_MOT_CFG.V_SRC (w % 32))
  else if a = FUS_VOTE_CFG then
    let s := if bitsOf w 16 8 = 0 then s else s.set FUS_VOTE_CFG.M (bitsOf w 16 8)
    some ((s.set FUS_VOTE_CFG.N (bitsOf w 24 8)).set FUS_VOTE_CFG.THR (bitsOf w 8 8))
  else if a = FUS_VOTE_MINC then some (if 1 ≤ w % 2048 && w % 2048 ≤ 1024 then s.set FUS_VOTE_MINC.MINC_T w else s)
  else if a = FUS_CAL_BUD then
    let s := if 1 ≤ w / 2 ^ 16 && w / 2 ^ 16 ≤ 8726 then s.set FUS_CAL_BUD.BUD_ANG (w / 2 ^ 16) else s
    some (if 1 ≤ w % 2 ^ 16 && w % 2 ^ 16 ≤ 200 then s.set FUS_CAL_BUD.BUD_T w else s)
  else if a = FUS_REC_CI then some (s.writeFusCi value)
  else none

/-! ### Enable and disable (R393) -/

/-- The tests of R393. -/
def State.fusTests (s : State) : List CheckTest :=
  let p := s.get FUS_INST_CFG.P_MS
  let w := s.get FUS_INST_CFG.W_MS
  let d := s.get FUS_INST_CFG.D_MS
  let nb := s.get FUS_CV_CFG.NBUF
  let rl := s.get FUS_REC_CFG.RLEN
  let h := (s.reg FUS_HEAD).toNat
  let bufs := (s.fusBuf 0, nb * s.fusStride)
  let recs := (s.get64 FUS_REC_BASE_LO FUS_REC_BASE_HI, 64 * 2 ^ rl)
  let rings := if s.ringUsed 0x0C 0 then s.ringAreas 0x0C 0 else []
  let g := s.fusGrid
  let area := g.gw * g.gh
  let shape := match tget s.fen.streams (hIndex h) with
    | some t =>
      match s.pkg t.slot with
      | some k => k.inW ≠ g.gw || k.inH ≠ g.gh || k.inNch ≠ 32 || k.inBytes ≠ 32 * area || k.outBytes ≠ 5 * area
      | none => true
    | none => true
  s.regionTests 5 0 ++ (if h ≠ 0 then s.regionTests 4 0x30 else []) ++ s.ringTests 0x0C
  ++ [(decide (h ≠ 0) && (s.checkHandle 5 s.strLive h).isSome, 0x03, 0x30),
      (!([25, 40, 50, 100, 125, 200].contains p) || w < p || 1000 < w || d = 0 || p ≤ d, 0x05, 0x14),
      (nb < 2 || 8 < nb, 0x05, 0x28), (rl < 6 || 12 < rl, 0x05, 0x148),
      (!s.inWins 0x0C bufs.1 bufs.2, 0x05, 0x20), (!s.inWins 0x0C recs.1 recs.2, 0x05, 0x140),
      (overlaps bufs recs || rings.any (overlaps bufs), 0x08, 0x20), (rings.any (overlaps recs), 0x08, 0x100),
      (decide (h ≠ 0) && shape, 0x23, 0x30)]

/-- What a passed check starts: the first boundary is the next one (R380). -/
def State.fusStart (s : State) : State :=
  let s := { s with fus := { imuAt := s.fus.imuAt, lastNom := if s.fusP = 0 then 0 else s.fusNumber s.mtNow } }
  (((s.set FUS_REC_PI.PI 0).set FUS_REC_CI.CI 0).setB FUS_STATUS.RUN true).fusShow

/-- ENABLE 1 → 0 (R393): instants and publication are abandoned and every source is destroyed. -/
def State.fusDisable (s : State) : State :=
  let s := (s.setB FUS_CTRL.ENABLE false).setB FUS_STATUS.RUN false
  let s := (s.fus.srcs.map (·.1)).foldl (fun s x => s.srcEnd x) s
  { s with fus := { imuAt := s.fus.imuAt } }.fusShow

/-- FUS_DISABLE (R393). -/
def execFusDisable (s : State) : Out := .next (if s.getB FUS_CTRL.ENABLE then s.fusDisable else s)

end Sys2Proof.Machine
end

