-- ==== Sys2Proof/Machine/Yld.lean ====
section
/-! DEFINITION. YLD (chapter 19): poses, the computation of crop-flow windows, tiles, the log and its writing. -/

namespace Sys2Proof.Machine

/-! ### Access -/

def State.yldLayer (s : State) (x : Nat) : Option YldLayer := tget s.yld.layers x
def State.setLayer (x : Nat) (v : YldLayer) (s : State) : State := { s with yld := { s.yld with layers := tput s.yld.layers x v } }

def YldLayer.dying (v : YldLayer) : Bool := v.waits.any (·.destroy)
def YldLayer.full (v : YldLayer) : Bool := v.slots ≤ v.wpos
def YldLayer.openTiles (v : YldLayer) : List YldTile := v.tiles.filter (·.closed.isNone)
def YldLayer.closedTiles (v : YldLayer) : List YldTile := v.tiles.filter (·.closed.isSome)

/-- A layer that commands may name. -/
def State.yldLive (s : State) (x : Nat) : Bool := (s.yldLayer x).any fun v => !v.dying

/-- A closed tile that may be written. -/
def State.yldWritable (s : State) : Bool := s.yld.layers.any fun e => !e.2.full && !e.2.closedTiles.isEmpty

/-- The registers of YLD follow its layers. -/
def State.yldShow (s : State) : State :=
  let s := (s.set YLD_STATUS.LAYERS s.yld.layers.length).set YLD_STATUS.CLOSED (s.yld.layers.foldl (fun a e => a + e.2.closedTiles.length) 0)
  let s := s.setB YLD_STATUS.WRITING (s.arbHolds 21 && s.yldWritable)
  (List.range 8).foldl (fun s x =>
    match s.yldLayer x with
    | some v =>
      let s := ((s.setB (YLD_L_STAT.LIVE x) true).setB (YLD_L_STAT.LOG_FULL x) v.full).set (YLD_L_STAT.OPEN x) v.openTiles.length
      ((s.set (YLD_L_STAT.CLOSED x) v.closedTiles.length).set (YLD_L_WPOS.WPOS x) v.wpos).set (YLD_L_TSEQ.TSEQ x) v.tseq
    | none => ((s.setReg (YLD_L_STAT x) 0#32).setReg (YLD_L_WPOS x) 0#32).setReg (YLD_L_TSEQ x) 0#32) s

/-- ARB1 is requested while a closed tile may be written (R424), and released when none may. -/
def State.yldArb (s : State) : State := (if s.yldWritable then s.arbRequest 21 else s.arbRelease 21).yldShow

/-- Wet mass not mapped, and wet mass dropped, in mg: whole kilograms show. -/
def State.addUnmap (mg : Nat) (s : State) : State :=
  let t := s.yld.unmapMg + mg
  ({ s with yld := { s.yld with unmapMg := t % 1000000 } }.bump YLD_UNMAP.KG (t / 1000000)).raise 245
def State.addDrop (mg : Nat) (s : State) : State :=
  let t := s.yld.dropMg + mg
  { s with yld := { s.yld with dropMg := t % 1000000 } }.bump YLD_CNT.DROP (t / 1000000)

/-! ### Tiles (R421, R423) -/

/-- A cell as it is published (Table 19-2). -/
def YldCell.bytes (c : YldCell) : List Byte :=
  let m := 2 ^ 32 - 1
  bytesLE 4 (satTo m c.wet) ++ bytesLE 4 (satTo m c.dry) ++ bytesLE 4 (satTo m c.loss) ++ bytesLE 4 (satTo m (c.area / 100))
    ++ bytesLE 2 (if c.wet = 0 then 0 else c.moist / c.wet) ++ bytesLE 2 (satTo 0xFFFF c.nwin) ++ bytesLE 2 c.flags ++ bytesLE 2 0

def yldStride : Nat := 102400

/-- The closing of tiles `p` of a layer, the oldest last part first, then the lower buffer. -/
def YldLayer.close (flags closes : Nat) (p : YldTile → Bool) (v : YldLayer) : YldLayer × Nat × List Nat :=
  let key (t : YldTile) : Nat := t.last * 128 + t.buf.getD 0
  let sel := v.openTiles.filter p
  let place (t : YldTile) : Nat := closes + (sel.filter fun u => key u < key t).length
  let tiles := v.tiles.map fun t => if t.closed.isNone && p t then { t with closed := some (place t), flags := t.flags ||| flags } else t
  ({ v with tiles := tiles }, closes + sel.length, sel.map place)

/-- The tiles `p` of layer `x` close; the numbers they close under. -/
def State.yldClose (x flags : Nat) (p : YldTile → Bool) (s : State) : State × List Nat :=
  match s.yldLayer x with
  | none => (s, [])
  | some v =>
    let r := v.close flags s.yld.closes p
    ({ s.setLayer x r.1 with yld := { (s.setLayer x r.1).yld with closes := r.2.1 } }, r.2.2)

/-- A free buffer of a layer. -/
def YldLayer.freeBuf (v : YldLayer) : Option Nat := (List.range v.nslot).find? fun b => !v.tiles.any fun t => t.buf = some b

/-- The open tile whose last part is oldest. -/
def YldLayer.oldest (v : YldLayer) : Option YldTile :=
  v.openTiles.foldl (fun (b : Option YldTile) t => match b with
    | none => some t
    | some u => if t.last * 128 + t.buf.getD 0 < u.last * 128 + u.buf.getD 0 then some t else some u) none

/-- A part: its place and quantities (R420, R421). -/
structure YldPart where
  e : Int
  n : Int
  wet : Nat
  dry : Nat
  loss : Nat
  area : Nat
  m : Nat
  flags : Nat
  deriving DecidableEq, Repr

/-- Layer `x` with the tile (te, tn) open, its buffer zeroed; none where every buffer holds a closed tile not yet
written. -/
def State.yldOpen (x : Nat) (te tn : Int) (endLtc : Nat) (s : State) : Option State :=
  match s.yldLayer x with
  | none => none
  | some v =>
    if v.openTiles.any fun t => t.te = te && t.tn = tn then some s
    else
      let new (b : Nat) (s : State) : State :=
        let s := { s with dram := memZero s.dram (v.cache + yldStride * b) yldStride }
        match s.yldLayer x with
        | some v => s.setLayer x { v with tiles := v.tiles ++ [{ te := te, tn := tn, buf := some b, first := endLtc, last := endLtc }] }
        | none => s
      match v.freeBuf, v.oldest with
      | some b, _ => some (new b s)
      | none, some o =>
        let b := o.buf.getD 0
        let kept := memBytes s.dram (v.cache + yldStride * b + 64) 98304
        let (s, _) := s.yldClose x 4 fun t => t = o
        match s.yldLayer x with
        | some w =>
          let s := s.setLayer x { w with tiles := w.tiles.map fun t => if t.buf = some b then { t with buf := none, kept := kept } else t }
          some (new b s)
        | none => some s
      | none, none => none

/-- A part is added to its cell of layer `x` (R421, R423). -/
def State.yldPart (x endLtc : Nat) (p : YldPart) (s : State) : State :=
  match s.yldLayer x with
  | none => s
  | some v0 =>
    let ce := floorDivNat p.e v0.cellMm
    let cn := floorDivNat p.n v0.cellMm
    let te := floorDivNat ce 64
    let tn := floorDivNat cn 64
    match s.yldOpen x te tn endLtc with
    | none => ((s.addDrop p.wet).raise 244).yldLate
    | some s =>
      match s.yldLayer x with
      | none => s
      | some v =>
        let k := ((cn - 64 * tn) * 64 + (ce - 64 * te)).toNat
        let up (t : YldTile) : YldTile :=
          if t.closed.isNone && t.te = te && t.tn = tn then
            { t with
              last := endLtc, nwin := satTo (2 ^ 32 - 1) (t.nwin + 1), wet := t.wet + p.wet
              cells := tmod t.cells k {} fun c => {
                wet := c.wet + p.wet, dry := c.dry + p.dry, loss := c.loss + p.loss, area := (c.area + p.area) % 2 ^ 64,
                moist := c.moist + p.wet * p.m, nwin := c.nwin + 1, flags := c.flags ||| p.flags } }
          else t
        let v := { v with tiles := v.tiles.map up }
        let s := s.setLayer x v
        match v.openTiles.find? fun t => t.te = te && t.tn = tn with
        | some t =>
          match t.buf with
          | some b => s.dramPuts (v.cache + yldStride * b + 64 + 24 * k) (tgetD t.cells k {}).bytes
          | none => s
        | none => s

/-! ### The computation (R416 to R420) -/

/-- Pose a and pose b of a stamp (R417). -/
def poseA (l : List YldPose) (p : Nat) : Option YldPose := (l.filter fun q => q.tov ≤ p).getLast?
def poseB (l : List YldPose) (p : Nat) : Option YldPose := l.find? fun q => p < q.tov

/-- Rows of an EDGE plane in crop (R418). -/
def edgeRows (g : Grid) (hx hy : Int) (look hw : Nat) (edge : List Byte) : Nat :=
  ((List.range g.gh).filter fun r =>
    let y2 : Int := 2 * g.oy + (2 * r + 1 : Nat) * (g.cell : Int)
    decide (2 * hy - hw ≤ y2 ∧ y2 < 2 * hy + hw) && (List.range g.gw).any fun c =>
      let x : Int := g.ox + c * (g.cell : Int)
      decide (hx ≤ x ∧ x < hx + look) && edge.getD (r * g.gw + c) 0#8 = 1#8).length

/-- The width in use at `p` and whether it carries W_HOLD (R418), from the grid heads arrived before LTC `due`. With no grid head at all the spec states no width: a free
one. -/
def State.yldWidth (s : State) (p due : Nat) : Nat × Bool × State :=
  let hw := s.get YLD_HDR_CFG.HDR_W
  match s.get YLD_HDR_CFG.WMODE with
  | 0 => (hw, false, s)
  | 2 => (s.get YLD_HDR_HOST.WIDTH, false, s)
  | _ =>
    let g := s.fusGrid
    match (s.yld.heads.filter fun h => h.1 ≤ p && decide (h.2.2 < due)).getLast? with
    | none => (s.fresh 16, true, s.drawn)
    | some h =>
      let later := s.fus.insts.any fun i => h.1 < i.1 && i.1 ≤ p
      let rows := edgeRows g (toSigned 16 (s.get YLD_HDR_POS.HDR_X)) (toSigned 16 (s.get YLD_HDR_POS.HDR_Y)) (s.get YLD_HDR_CFG.LOOK_MM) hw h.2.1
      (min hw (rows * g.cell), later, s)

/-- The moisture M at `e`, from the values arrived before LTC `due`, and whether it is old (Table 19-1, R419). With no value stamped at or before `e` the spec states
none: a free one. -/
def State.yldM (s : State) (e due : Nat) : Nat × Bool × State :=
  if !s.getB YLD_MOIST_CFG.MODE then (min 10000 (s.get YLD_MOIST_CFG.FIX), false, s)
  else
    let best := s.yld.moist.foldl (fun (b : Option (Nat × Nat × Nat)) m =>
      if e < m.1 || due ≤ m.2.2 then b else match b with
        | some c => if c.1 ≤ m.1 then some m else some c
        | none => some m) none
    match best with
    | some m => (min 10000 m.2.1, decide (m.1 + 10000000000 < e), s)
    | none => (s.fresh 16 % 10001, false, s.drawn)

/-- The loss at LTC `l` (R416, R419). Where no window of an enabled input holds `l` and none has come, the spec states no COUNT:
a free term. Where the last has passed, its value holds (Table 4-7). -/
def State.yldLoss (s : State) (l : Nat) : Nat × State :=
  (List.range 8).foldl (fun (a : Nat × State) n =>
    let s := a.2
    if !s.getB (YLD_LOSS.EN n) then a
    else
      let ws := s.yld.lacs.filter fun w => w.input = n && decide (w.endLtc ≤ l + w.winMs * 1000000)
      let term (w : LacWin) : Nat := w.count * s.get (YLD_LOSS.LG_MG n) * 10 / max 1 w.winMs
      match ws.getLast? with
      | some w => (a.1 + term w, s)
      | none => (a.1 + s.fresh 32, s.drawn)) (0, s)

/-- wet (R419): a product that is no number is a value the spec does not state: free. -/
def State.yldWet (s : State) (f : FlowWin) : Nat × State :=
  if !f.valid then (0, s)
  else
    let x := F.mul (F.mul f.flow (F.ofNat 10000)) (s.reg YLD_CAL).toNat
    if F.isNan x then (s.fresh 31, s.drawn)
    else if F.isInf x then (if F.sign x then 0 else 2147483647, s)
    else
      let p := F.parts x
      let n := if 0 ≤ p.2 then p.1.natAbs * 2 ^ p.2.toNat else F.rneShift p.1.natAbs (-p.2).toNat false
      (if p.1 < 0 then 0 else min 2147483647 n, s)

/-- Part `i` of `k` of a quantity (R420). -/
def splitPart (q k i : Nat) : Nat := q * (i + 1) / k - q * i / k

/-- The parts of one window on one layer (R420). -/
def yldParts (cellMm width : Nat) (e n : Int) (psi wet dry loss area m flags : Nat) : List YldPart :=
  let k := max 1 (ceilDiv width cellMm)
  let cs := cosSin psi
  (List.range k).map fun i =>
    let d := ((2 * i + 1 : Nat) * (width : Int) - (k * width : Nat)).fdiv ((2 * k : Nat) : Int)
    { e := e - (d * cs.2).fdiv (2 ^ 30), n := n + (d * cs.1).fdiv (2 ^ 30), wet := splitPart wet k i, dry := splitPart dry k i,
      loss := splitPart loss k i, area := splitPart area k i, m := m, flags := flags }

/-- Tiles close at a compute: all of a layer with FLUSH or LAYER_DESTROY waiting, and those at CLOSE_S or more after their last part
(R423). A FLUSH waits for the tiles it closes, a LAYER_DESTROY for every closed tile. -/
def State.yldCloses (e : Nat) (s : State) : State :=
  let lim := s.get YLD_CLOSE.CLOSE_S * 1000000000
  (s.yld.layers.map (·.1)).foldl (fun s x =>
    match s.yldLayer x with
    | none => s
    | some v =>
      if v.waits.any (·.tiles.isNone) then
        let (s, new) := s.yldClose x 2 fun _ => true
        match s.yldLayer x with
        | some v =>
          let all := v.closedTiles.filterMap (·.closed)
          s.setLayer x { v with waits := v.waits.map fun w => if w.tiles.isNone then { w with tiles := some (if w.destroy then all else new) } else w }
        | none => s
      else (s.yldClose x 0 fun t => t.last + lim ≤ e).1) s

/-- The waiting commands of layer `x` whose tiles are written end; a destroyed layer goes. Under LOG_FULL, LAYER_DESTROY discards
unwritten tiles: a FLUSH that waited for them ends for a reason the spec does not give, a free one (R127's form). -/
def State.yldEnds (x : Nat) (s : State) : State :=
  match s.yldLayer x with
  | none => s
  | some v =>
    let (v, s) := if v.full && v.waits.any (fun w => w.destroy && w.tiles.isSome) then
        ({ v with tiles := v.openTiles }, v.closedTiles.foldl (fun s t => s.addDrop t.wet) s)
      else (v, s)
    let left := v.closedTiles.filterMap (·.closed)
    let isDone (w : YldWait) : Bool := w.tiles.any fun l => l.all fun n => !left.contains n
    let done := v.waits.filter isDone
    let gone := done.any (·.destroy)
    let lost := v.full && gone
    let s := s.setLayer x { v with waits := v.waits.filter fun w => !isDone w }
    let s := if gone then { s with yld := { s.yld with layers := tdel s.yld.layers x } } else s
    done.foldl (fun s w =>
      if lost && !w.destroy then (s.completeSelf 0x0D 0 w.id (s.freshCode [0x20, 0x21])).drawn else s.completeSelf 0x0D 0 w.id 0x00) s

/-- The window with flow `f` ending at `e` is computed at e + CD, from what arrived before (R416 to R423). -/
def State.yldWindow (f : FlowWin) (e : Nat) (s : State) : State :=
  let p := s.yldP e
  let due := e + s.get YLD_CFG.CD_MS * 1000000
  let s := { s with yld := { s.yld with lastE := some e, flow := some f, nextE := some (e + 10000000) } }
  let s := s.yldCloses e
  let (wet, s) := s.yldWet f
  let (m, old, s) := s.yldM e due
  let dry := wet * (10000 - m) / 10000
  let (loss, s) := s.yldLoss (p + s.get YLD_LTD.LTD_MS * 1000000)
  let (width, hold, s) := s.yldWidth p due
  let known := s.yld.poses.filter fun q => decide (q.at0 < due)
  let a := poseA known p
  let b := poseB known p
  let s : State := match a, b with
    | none, _ => s.addUnmap wet
    | some a, b =>
      if b.any (fun (q : YldPose) => decide (a.tov + 2000000000 < q.tov)) then s.addUnmap wet
      else
        let lerp (x y : Int) (tb : Nat) : Int := x + ((y - x) * ((p - a.tov : Nat) : Int)).fdiv ((tb - a.tov : Nat) : Int)
        let pe := match b with | some q => lerp a.e q.e q.tov | none => a.e
        let pn := match b with | some q => lerp a.n q.n q.tov | none => a.n
        let flags := b2n (!f.valid) + 2 * b2n b.isNone + 4 * b2n hold + 8 * b2n old
        (s.yld.layers.map fun l => (l.1, l.2.cellMm)).foldl (fun (s : State) (l : Nat × Nat) =>
          if (s.yldLayer l.1).any (fun (v : YldLayer) => v.dying) then s
          else (yldParts l.2 width pe pn a.psi wet dry loss (width * a.v / 100) m flags).foldl (fun s q => s.yldPart l.1 e q) s) s
  let keepL := p - 2000000000
  let s : State := { s with yld := { s.yld with
    lacs := s.yld.lacs.filter fun w => decide (keepL ≤ w.endLtc) || !(s.yld.lacs.any fun u => u.input = w.input && decide (w.endLtc < u.endLtc))
    heads := s.yld.heads.filter fun h => decide (p ≤ h.1) || !(s.yld.heads.any fun k => decide (h.1 < k.1 ∧ k.1 ≤ p)) } }
  (s.yld.layers.map (·.1)).foldl (fun s x => s.yldEnds x) s |>.yldArb

/-- YLD_COMPUTE (R416, R422, Table 4-7): the earliest window due. A window that INP did not deliver holds the last value and
counts as late. -/
def execYldCompute (s : State) : Out :=
  if !s.enabled 0x0D then .next s
  else
    let s := { s with yld := { s.yld with lacs := s.yld.lacs ++ s.inp.lacQ }, inp := { s.inp with lacQ := [] } }
    let cd := s.get YLD_CFG.CD_MS * 1000000
    let next := match s.yld.nextE, s.inp.flowQ with
      | some e, _ => some e
      | none, f :: _ => some f.endLtc
      | none, [] => none
    match next with
    | none => .next s
    | some e =>
      if s.now < e + cd then .next s
      else
        let got := s.inp.flowQ.find? fun f => f.endLtc = e
        let s := { s with inp := { s.inp with flowQ := s.inp.flowQ.filter fun f => decide (e < f.endLtc) } }
        let absent := !s.loaded 0 || (s.getB YLD_MOIST_CFG.MODE && !s.loaded 6)
        let s := if got.isNone || absent then s.yldLate else s
        let held : FlowWin := { (s.yld.flow.getD { flow := 0, valid := false, endLtc := e }) with endLtc := e }
        .next (s.yldWindow (got.getD held) e)

/-! ### Writing tiles (R424, Table 19-2) -/

/-- The record of a tile, to the end of its 25 blocks. -/
def State.tileRecord (s : State) (x : Nat) (v : YldLayer) (t : YldTile) : List Byte :=
  let cells := match t.buf with
    | some b => memBytes s.dram (v.cache + yldStride * b + 64) 98304
    | none => t.kept
  let late := t.cells.any fun c => bitAt c.2.flags 1
  let head := bytesLE 4 0x31444C59 ++ bytesLE 2 1 ++ bytesLE 2 0x40 ++ bytesLE 4 (s.handle 0x0C x) ++ bytesLE 4 v.cropId
    ++ bytesLE 4 (fromSigned 32 t.te) ++ bytesLE 4 (fromSigned 32 t.tn) ++ bytesLE 2 v.cellMm ++ bytesLE 2 (t.flags + b2n late)
    ++ bytesLE 4 (v.tseq + 1) ++ bytesLE 8 t.first ++ bytesLE 8 t.last ++ bytesLE 4 t.nwin ++ bytesLE 4 0
  head ++ bytesLE 4 (crc32 (head ++ cells)) ++ bytesLE 4 0 ++ cells ++ List.replicate (yldStride - 64 - 98304) 0#8

/-- The closed tile to write next: the earliest closed of a layer with room. -/
def State.nextTile (s : State) : Option (Nat × YldLayer × YldTile × Nat) :=
  s.yld.layers.foldl (fun (b : Option (Nat × YldLayer × YldTile × Nat)) e =>
    if e.2.full then b
    else e.2.tiles.foldl (fun (b : Option (Nat × YldLayer × YldTile × Nat)) t =>
      match t.closed, b with
      | some n, none => some (e.1, e.2, t, n)
      | some n, some c => if n < c.2.2.2 then some (e.1, e.2, t, n) else b
      | none, _ => b) b) none

/-- TILE (R424): under the grant of ARB1, the next closed tile has been written. -/
def execYldTile (s : State) : Out :=
  if !s.enabled 0x0D || !s.arbHolds 21 then .next s
  else
    match s.nextTile with
    | none => .next s.yldArb
    | some (x, v, t, _) =>
      let s := { s with ufs := memPuts s.ufs ((v.lba + 25 * v.wpos) * 4096) (s.tileRecord x v t) }
      let v := { v with wpos := v.wpos + 1, tseq := (v.tseq + 1) % 2 ^ 32, tiles := v.tiles.filter fun u => u.closed ≠ t.closed }
      let s := (s.setLayer x v).raise 241
      let s := if v.full then s.raise 243 else s
      .next (((s.yldEnds x).arbRelease 21).yldArb)

/-! ### Commands (Table 19-3) -/

/-- LAYER_CREATE. -/
def opLayerCreate (c : Cmd) (s : State) : State :=
  let cell := c.arg 16 2
  let ns := c.arg 18 2
  let cache := c.arg 24 8
  let lba := c.arg 32 8
  let slots := c.arg 40 4
  match tfree s.yld.layers 8 with
  | none => c.failed 0x04 s
  | some x =>
    if cell < 250 || 10000 < cell || ns < 2 || 64 < ns || cache % 4096 ≠ 0 || !s.inWins 0x0D cache (ns * yldStride) || slots = 0 || 16777216 < slots
        || !inDataPart lba (25 * slots) then c.failed 0x05 s
    else if s.yld.layers.any (fun e => overlaps (lba, 25 * slots) (e.2.lba, 25 * e.2.slots)) then c.failed 0x20 s
    else
      let s := (s.advGen 0x0C x).setLayer x { cellMm := cell, nslot := ns, cropId := c.arg 20 4, cache := cache, lba := lba, slots := slots }
      c.created (s.handle 0x0C x) s.yldShow

/-- LAYER_CREATE (Table 19-3). -/
def execLayerCreate (ring : Fin 1) (e : Entry) (s : State) : Out := .next (s.runRow 0x0D ring.val 1 0 e opLayerCreate)

/-- LAYER_DESTROY: completes once its tiles are written. -/
def opLayerDestroy (c : Cmd) (s : State) : State :=
  match s.checkHandle 0x0C s.yldLive c.handle, s.yldLayer (hIndex c.handle) with
  | some code, _ => c.finish code s
  | none, some v => s.setLayer (hIndex c.handle) { v with waits := v.waits ++ [{ id := c.id, destroy := true, tiles := none }] }
  | none, none => c.finish 0x03 s

/-- LAYER_DESTROY (Table 19-3). -/
def execLayerDestroy (ring : Fin 1) (e : Entry) (s : State) : Out := .next (s.runRow 0x0D ring.val 2 0 e opLayerDestroy)

/-- POSE (R417). -/
def opYldPose (c : Cmd) (s : State) : State :=
  let p : YldPose := { tov := c.arg 16 8, e := toSigned 64 (c.arg 24 8), n := toSigned 64 (c.arg 32 8), psi := c.arg 40 4, v := c.arg 44 4, at0 := s.now }
  if s.now < p.tov then c.finish 0x05 s
  else if s.yld.poses.any (fun q => p.tov ≤ q.tov) then c.finish 0x21 s
  else
    let s := { s with yld := { s.yld with poses := (s.yld.poses.filter fun (q : YldPose) => decide (p.tov ≤ q.tov + 30000000000)) ++ [p] } }
    c.finish 0x00 (if s.yldDue.any fun e => p.tov ≤ s.yldP e then s.yldLate else s)

/-- POSE (Table 19-3). -/
def execYldPose (ring : Fin 1) (e : Entry) (s : State) : Out := .next (s.runRow 0x0D ring.val 3 0 e opYldPose)

/-- FLUSH: completes once the tiles it closes are written. -/
def opYldFlush (c : Cmd) (s : State) : State :=
  match s.checkHandle 0x0C s.yldLive c.handle, s.yldLayer (hIndex c.handle) with
  | some code, _ => c.finish code s
  | none, some v =>
    if v.waits.any (fun w => !w.destroy) then c.finish 0x0F s
    else s.setLayer (hIndex c.handle) { v with waits := v.waits ++ [{ id := c.id, destroy := false, tiles := none }] }
  | none, none => c.finish 0x03 s

/-- FLUSH (Table 19-3). -/
def execYldFlush (ring : Fin 1) (e : Entry) (s : State) : Out := .next (s.runRow 0x0D ring.val 4 0 e opYldFlush)

/-! ### ARB1 hooks and the check -/

/-- The grant of ARB1 reaches YLD, or leaves it: the tile's transfer starts, or will start again (R424). -/
def State.yldGranted (s : State) : State := s.yldShow
def State.yldRevoked (s : State) : State := s.yldShow

/-- Writes to YLD registers with a rule of their own. -/
def State.yldWrite (a : Nat) (value : Word) (s : State) : Option State :=
  if a = YLD_CAL then some (if F.finite value.toNat && !(F.sign value.toNat && !F.isZero value.toNat) then s.setReg YLD_CAL value else s) else none

/-- The tests of R425. -/
def State.yldTests (s : State) : List CheckTest :=
  let td := s.get YLD_CFG.TD_MS
  let cd := s.get YLD_CFG.CD_MS
  let look := s.get YLD_HDR_CFG.LOOK_MM
  let wm := s.get YLD_HDR_CFG.WMODE
  let lossBad := (List.range 8).map fun n =>
    (s.getB (YLD_LOSS.EN n) && decide (cd < s.get (INP_LAC_WIN.WIN n) + 20), 0x05, 0x08)
  s.regionTests 5 0 ++ s.regionTests 0 0 ++ (if s.getB YLD_MOIST_CFG.MODE then s.regionTests 6 0x14 else [])
  ++ [(td < 8000 || 15000 < td || cd < 100 || 5000 < cd, 0x05, 0x08), (decide (td < s.get YLD_LTD.LTD_MS), 0x05, 0x0C),
      (s.get YLD_CLOSE.CLOSE_S = 0, 0x05, 0x28), (s.get YLD_HDR_CFG.HDR_W = 0 || look < 100 || 5000 < look, 0x05, 0x1C),
      (decide (10000 < s.get YLD_MOIST_CFG.FIX) || decide (62 < s.get YLD_MOIST_CFG.BYTE), 0x05, 0x14)]
  ++ lossBad ++ s.ringTests 0x0D ++ s.winTests 0x0D
  ++ [(!s.getB INP_FLOW_CFG.EN, 0x08, 0), (wm = 1 && s.reg FUS_HEAD = 0#32, 0x08, 0x1C), (wm = 3, 0x08, 0x1C)]

/-- What a passed check starts. -/
def State.yldStart (s : State) : State :=
  { s with yld := {}, inp := { s.inp with flowQ := [], lacQ := [] } }.yldShow

/-- ENABLE 1 → 0 (R425): every buffer is discarded and every layer destroyed. Commands in flight end (R127); the spec gives no
reason for them: a free one. -/
def State.yldDisable (s : State) : State :=
  let s := s.setB YLD_CTRL.ENABLE false
  let ids := s.yld.layers.flatMap fun e => e.2.waits.map (·.id)
  let s := ids.foldl (fun s i => (s.completeSelf 0x0D 0 i (s.freshCode [0x20, 0x21])).drawn) s
  let s := s.arbRelease 21
  { s with yld := {}, inp := { s.inp with flowQ := [], lacQ := [] } }.yldShow

/-- YLD_DISABLE (R425). -/
def execYldDisable (s : State) : Out := .next (if s.getB YLD_CTRL.ENABLE then s.yldDisable else s)

end Sys2Proof.Machine
end

