-- ==== Sys2Proof/Machine/ArbDecide.lean ====
section
/-! DEFINITION. The arbiters' decisions (R359 to R362): the grant and the revocation, and what each does to the block behind
the requester. -/

namespace Sys2Proof.Machine

/-- The grant of an arbiter is revoked, and its owner stops at its boundary (R358, R361, R424, R505). The update writer goes on
with its request pending, as the host's writes do. -/
def State.revokeGrant (a : Nat) (s : State) : State :=
  let i := s.arbOwner a
  let s := s.arbRevoke a
  if a = 0 then s.fenRevoked
  else match i with
    | 20 => s.recRevoked
    | 21 => s.yldRevoked
    | _ => s

/-- Requester `i` is granted, and starts (R358, R361). -/
def State.giveGrant (i : Nat) (s : State) : State :=
  let s := s.arbGrant i
  if i < 20 then s.fenGranted i else if i = 21 then s.yldGranted else s

/-- An arbiter decides (R359 to R362). A FEN job in its commit phase is not revoked. -/
def State.arbDecide (a : Nat) (s : State) : State :=
  if s.getB (ARB_CFG.FREEZE a) then s
  else
    let s := s.arbApply a
    let s := if s.arbOutranked a && !(a = 0 && s.fenCommit) then s.revokeGrant a else s
    if s.arbGranted a then s
    else match s.arbBest a with
      | some i => s.giveGrant i
      | none => s

/-- ARB_DECIDE (R359). `commit`: FEN tells ARB0 that its job is in the commit phase (R358), as it has to be then. -/
def execArbDecide (a : Fin 2) (commit : Bool) (s : State) : Out :=
  .next (if a.val = 0 && commit ≠ s.fenCommit then s else s.arbDecide a.val)

end Sys2Proof.Machine
end

