-- ==== Sys2Proof/Machine/Bus.lean ====
section
/-! DEFINITION. BUS (R427 to R439, R445, R446): controllers, receiving, message objects, queues and transmission. The transport
engine is in `BusTp.lean`. -/

namespace Sys2Proof.Machine

/-! ### Access -/

def State.busObj (s : State) (x : Nat) : Option CanObj := tget s.bus.objs x
def State.setObj (x : Nat) (o : CanObj) (s : State) : State := { s with bus := { s.bus with objs := tput s.bus.objs x o } }
def State.busQueue (s : State) (q : Nat) : Option CanQueue := tget s.bus.queues q
def State.busSess (s : State) (i : Nat) : Option TpSess := tget s.bus.sess i
def State.setSess (i : Nat) (v : TpSess) (s : State) : State := { s with bus := { s.bus with sess := tput s.bus.sess i v } }
def State.busCtl (s : State) (n : Nat) : CanCtl := tgetD s.bus.ctls n {}
def State.setCtl (n : Nat) (v : CanCtl) (s : State) : State := { s with bus := { s.bus with ctls := tput s.bus.ctls n v } }

/-- An object that commands may name. -/
def State.objLive (s : State) (x : Nat) : Bool := (s.busObj x).any fun o => o.dying.isNone

/-- A controller in service and in use. -/
def State.canInsvc (s : State) (n : Nat) : Bool := n < 8 && s.imgFld (BUS_C_CAP.INSVC n) = 1
def State.canOn (s : State) (n : Nat) : Bool := s.enabled 0x0E && s.canInsvc n && s.getB (BUS_C_CFG.EN n)

/-- The transport engine runs on the controller (R440). -/
def State.tpOn (s : State) (n : Nat) : Bool := s.canOn n && s.imgFld (BUS_C_CAP.TP n) = 1

/-- The terminating bias circuit of CAN0 or CAN1 is in (R43, R431): TERM acts only while ENABLE is 1, the BUS region is loaded and the
power state is RUN or IDLE. -/
def State.termIn (s : State) (n : Nat) : Bool :=
  n < 2 && s.getB (BUS_C_CFG.TERM n) && s.enabled 0x0E && s.loaded 6 && (s.sys.mode = .run || s.sys.mode = .idle)

/-- The controller takes part in the bus: started and not bus-off. -/
def State.canLive (s : State) (n : Nat) : Bool := s.canOn n && decide (s.get (BUS_C_STAT.STATE n) < 2) && decide (s.get (BUS_C_STAT.TEC n) ≤ 255)

/-- A status value of a controller; a change raises STATE (R430). -/
def State.setCanState (n v : Nat) (s : State) : State :=
  if s.get (BUS_C_STAT.STATE n) = v then s else (s.set (BUS_C_STAT.STATE n) v).raise (251 + 6 * n)

/-- A bit of BUS_C_ALERT(n); going to 1 it raises ALERT. -/
def State.canAlert (n b : Nat) (s : State) : State :=
  let a := s.get (BUS_C_ALERT.ALERT n)
  if bitAt a b then s else (s.set (BUS_C_ALERT.ALERT n) (putBits a b 1 1)).raise (253 + 6 * n)

def State.busShow (s : State) : State :=
  ((s.set BUS_STATUS.OBJECTS s.bus.objs.length).set BUS_STATUS.SESSIONS s.bus.sess.length).set BUS_STATUS.QUEUES s.bus.queues.length

/-- Error-active or error-passive by the counters (ISO 11898-1). -/
def State.canErrState (n : Nat) (s : State) : State :=
  if 1 < s.get (BUS_C_STAT.STATE n) then s
  else s.setCanState n (if 127 < s.get (BUS_C_STAT.TEC n) || 127 < s.get (BUS_C_STAT.REC n) then 1 else 0)

/-! ### Frames (Table 20-1) -/

/-- A frame: identifier word (bits 28:0, IDE 29, RTR 30), format, length code and data. -/
structure CanFrame where
  id : Nat
  fdf : Bool
  brs : Bool
  esi : Bool
  dlc : Nat
  data : List Byte
  sof : Nat
  deriving DecidableEq, Repr

/-- Data bytes of a length code (ISO 11898-1). -/
def dlcLen (fdf : Bool) (dlc : Nat) : Nat :=
  if dlc ≤ 8 then dlc
  else if !fdf then 8
  else match dlc with
    | 9 => 12 | 10 => 16 | 11 => 20 | 12 => 24 | 13 => 32 | 14 => 48 | _ => 64

/-- A frame as a controller hands it on: a base identifier has 11 bits, and only FD frames carry BRS and ESI. -/
def CanFrame.tidy (f : CanFrame) : CanFrame :=
  { f with id := if bitAt f.id 29 then f.id % 2 ^ 31 else f.id % 2 ^ 11 + b2n (bitAt f.id 30) * 2 ^ 30, brs := f.fdf && f.brs, esi := f.fdf && f.esi }

/-- Remote frames exist in classic format only (R427). -/
def CanFrame.legal (f : CanFrame) : Bool := !(f.fdf && bitAt f.id 30)

def CanFrame.len (f : CanFrame) : Nat := if bitAt f.id 30 then 0 else dlcLen f.fdf f.dlc

/-- IDE and identifier. -/
def idKey (id : Nat) : Nat := if bitAt id 29 then id % 2 ^ 30 else id % 2 ^ 11

/-- The record of a frame, 96 bytes. -/
def CanFrame.record (f : CanFrame) (n fseq : Nat) : List Byte :=
  let d := (f.data.take f.len)
  bytesLE 4 f.id ++ bytesLE 2 (b2n f.fdf + 2 * b2n f.brs + 4 * b2n f.esi) ++ bytesLE 1 f.dlc ++ bytesLE 1 f.len ++ bytesLE 1 n ++ bytesLE 3 0
    ++ bytesLE 4 fseq ++ bytesLE 8 f.sof ++ d ++ List.replicate (64 - d.length) 0#8 ++ bytesLE 8 0

/-- The record words of object `x`. -/
def State.putRecord (x : Nat) (bytes : List Byte) (s : State) : State :=
  (List.range 22).foldl (fun s j => s.setReg (BUS_OBJ_REC x j) (BitVec.ofNat 32 (natLE ((bytes.drop (4 * j)).take 4)))) s

/-! ### Queues (R437) -/

def State.qFill (s : State) (q : Nat) : Nat := (s.get (BUS_Q_PI.PI q) + 512 - s.get (BUS_Q_CI.CI q)) % 512

/-- PI − CI goes from `a` to `b`: RXQ where that reaches THR, and for THR = 0 at every entry. -/
def State.qReached (v : CanQueue) (a b : Nat) (entry : Bool) (s : State) : State :=
  if v.irq && (if v.thr = 0 then entry else decide (a < v.thr) && decide (v.thr ≤ b)) then s.raise (249 + 6 * v.ctrl) else s

/-- An entry of 96 bytes goes into queue `q`, which has room. -/
def State.qPut (q : Nat) (entry : List Byte) (s : State) : State :=
  match s.busQueue q with
  | none => s
  | some v =>
    let before := s.qFill q
    let pi := s.get (BUS_Q_PI.PI q)
    ((s.dramPuts (v.base + 96 * (pi % 256)) entry).set (BUS_Q_PI.PI q) (pi + 1)).qReached v before (before + 1) true

/-- A frame goes into queue `q`, or is dropped where it is full. -/
def State.qFrame (q : Nat) (entry : List Byte) (s : State) : State :=
  match s.busQueue q with
  | none => s
  | some v => if 256 ≤ s.qFill q then (s.bump (BUS_Q_STAT.Q_DROP q) 1).canAlert v.ctrl 2 else s.qPut q entry

/-- A write of BUS_Q_CI(q): entries that CI passes hand their sessions back (R442). A write that takes CI back hands nothing back and
may reach THR. -/
def State.writeQCi (q : Nat) (value : Word) (s : State) : State :=
  match s.busQueue q with
  | none => s
  | some v =>
    let ci := s.get (BUS_Q_CI.CI q)
    let to_ := value.toNat % 512
    let before := s.qFill q
    let after := (s.get (BUS_Q_PI.PI q) + 512 - to_) % 512
    if 256 < after then s
    else
      let passed (t : TpSess) : Bool := decide (after < before) && t.entry.any fun e => e.1 = q && decide ((e.2 + 512 - ci) % 512 < before - after)
      let s := { s with bus := { s.bus with sess := s.bus.sess.filter fun e => !passed e.2 } }
      ((s.set (BUS_Q_CI.CI q) to_).busShow).qReached v before after false

/-! ### Receiving (R433 to R436) -/

/-- A receive object whose frame nobody took has lost it. -/
def State.objLost (x : Nat) (o : CanObj) (s : State) : State :=
  if s.getB (BUS_OBJ_STAT.NEW x) then
    (if s.getB (BUS_OBJ_STAT.LOST x) then s else s.canAlert o.ctrl 1).setB (BUS_OBJ_STAT.LOST x) true
  else s

/-- The object's queue, where it has one. -/
def State.objQueue (o : CanObj) (bytes : List Byte) (s : State) : State :=
  match o.queue with
  | some q => s.qFrame q bytes
  | none => s

/-- A frame is stored in receive object `x`. -/
def State.objStore (x : Nat) (o : CanObj) (f : CanFrame) (bytes : List Byte) (s : State) : State :=
  let s := (((s.objLost x o).putRecord x bytes).setB (BUS_OBJ_STAT.NEW x) true).objQueue o bytes
  if (s.reg YLD_MOIST_OBJ).toNat = s.handle 7 x then s.yldMoist f.sof (f.data.take f.len) else s

/-- A frame not taken by the transport engine is stored or discarded (R434). FSEQ counts the frames stored: one that finds its queue full
and has no object is not. -/
def State.canStore (n : Nat) (f : CanFrame) (s : State) : State :=
  let hit := s.bus.objs.find? fun e => e.2.ctrl = n && !e.2.tx && idKey e.2.id = idKey f.id
  let q := s.bus.queues.find? fun e => e.2.ctrl = n && (((f.id % 2 ^ 30) ^^^ (e.2.qid % 2 ^ 30)) &&& (e.2.mask % 2 ^ 30)) = 0
  let fs := ((s.busCtl n).fseq + 1) % 2 ^ 32
  let bytes := f.record n fs
  let counted (s : State) : State := s.setCtl n { s.busCtl n with fseq := fs }
  match hit, q with
  | some e, _ => (counted s).objStore e.1 e.2 f bytes
  | none, some e => if 256 ≤ s.qFill e.1 then s.qFrame e.1 bytes else (counted s).qFrame e.1 bytes
  | none, none => s.bump (BUS_C_CNT.NOMATCH n) 1

/-- A frame with the identifier of a transmit object of the controller (R434). -/
def State.ownRx (n : Nat) (f : CanFrame) (s : State) : State :=
  if s.bus.objs.any fun e => e.2.ctrl = n && e.2.tx && idKey e.2.id = idKey f.id then s.canAlert n 7 else s

/-! ### Transmitting (R438, R439) -/

/-- Arbitration order of an identifier word: lower wins (ISO 11898-1). -/
def arbKey (id : Nat) : Nat :=
  if bitAt id 29 then bitsOf id 18 11 * 2 ^ 21 + 3 * 2 ^ 19 + id % 2 ^ 18 * 2 + b2n (bitAt id 30)
  else id % 2 ^ 11 * 2 ^ 21 + b2n (bitAt id 30) * 2 ^ 20

/-- The identifier word of a transmit object as its record holds it. -/
def State.objId (s : State) (x : Nat) : Nat := (s.reg (BUS_OBJ_REC x 0)).toNat

/-- The frame of a transmit object; a remote frame goes out in classic format (R427). -/
def State.objFrame (s : State) (x sof : Nat) : CanFrame :=
  let w := (s.reg (BUS_OBJ_REC x 1)).toNat
  let fdf := bitAt w 0 && !bitAt (s.objId x) 30
  { id := s.objId x, fdf := fdf, brs := fdf && bitAt w 1, esi := false, dlc := bitsOf w 16 4,
    data := (List.range 16).flatMap fun j => bytesLE 4 (s.reg (BUS_OBJ_REC x (6 + j))).toNat, sof := sof }

/-- A result bit of a transmit object, with its event. -/
def State.objResult (x : Nat) (o : CanObj) (done : Bool) (s : State) : State :=
  let s := (s.setB (BUS_OBJ_STAT.PEND x) false).setB (if done then BUS_OBJ_STAT.DONE x else BUS_OBJ_STAT.FAILED x) true
  if o.irq then s.raise (250 + 6 * o.ctrl) else s

/-- An object is gone. -/
def State.objGone (x : Nat) (s : State) : State :=
  { s.wipeRegs (BUS_OBJ_STAT x) 0x80 with bus := { s.bus with objs := tdel s.bus.objs x } }.busShow

/-- The frame of an object that is being destroyed has left the wire. -/
def State.objDies (x : Nat) (o : CanObj) (s : State) : State :=
  match o.dying with
  | some (r, id) => (s.objGone x).completeSelf 0x0E r id 0x00
  | none => s

/-- The object is known to be on the wire: an ABORT or an OBJ_DESTROY found it there and lets it make no further attempt. -/
def CanObj.wired (o : CanObj) : Bool := o.noRetry || o.dying.isSome

/-- Another object of controller `n` than `x` is known to be on the wire. -/
def State.wireHeld (s : State) (n : Nat) (x : Option Nat) : Bool := s.bus.objs.any fun e => e.2.ctrl = n && e.2.wired && x ≠ some e.1

/-- Is pending object `x` being sent? Which object is on the wire is bus timing, a free bit; none is while its controller takes no part in
the bus or another object of it is there. -/
def State.onWire (s : State) (x : Nat) (o : CanObj) : Bool :=
  o.wired || (s.canLive o.ctrl && !s.wireHeld o.ctrl (some x) && s.fresh 1 = 1)

/-- May object `x` be the one that has been on the wire since `sof`? It was pending then, and no object of the controller that was
pending by then goes before it. -/
def State.objFirst (s : State) (x : Nat) (o : CanObj) (sof : Nat) : Bool :=
  decide (o.pendAt ≤ sof) && s.bus.objs.all fun e =>
    e.1 = x || e.2.ctrl ≠ o.ctrl || !e.2.tx || !s.getB (BUS_OBJ_STAT.PEND e.1) || decide (sof < e.2.pendAt)
      || decide (arbKey (s.objId x) < arbKey (s.objId e.1)) || (arbKey (s.objId x) = arbKey (s.objId e.1) && decide (x < e.1))

/-- A successful send lowers TEC (ISO 11898-1). -/
def State.tecDown (n : Nat) (s : State) : State := (s.set (BUS_C_STAT.TEC n) (s.get (BUS_C_STAT.TEC n) - 1)).canErrState n

/-- The frame of object `x` has been acknowledged. -/
def State.objSent (x : Nat) (o : CanObj) (sof : Nat) (s : State) : State :=
  let s := ((s.setReg (BUS_OBJ_REC x 4) (BitVec.ofNat 32 sof)).setReg (BUS_OBJ_REC x 5) (BitVec.ofNat 32 (sof / 2 ^ 32)))
  ((s.setObj x { o with noRetry := false }).objResult x o true).objDies x { o with noRetry := false }

/-- Object `x`, on the wire, makes no further attempt: it is destroyed, or has failed. -/
def State.objStopped (x : Nat) (o : CanObj) (s : State) : State :=
  if o.dying.isSome then s.objDies x o else (s.setObj x { o with noRetry := false }).objResult x { o with noRetry := false } false

/-- An error or lost arbitration of object `x`'s frame. -/
def State.objError (x : Nat) (o : CanObj) (clash : Bool) (s : State) : State :=
  let recent := if clash then (o.clash.filter fun t => decide (s.now < t + 1000000000)) ++ [s.now] else o.clash
  let three := clash && decide (3 ≤ recent.length)
  let o := { o with clash := recent }
  let s := s.setObj x o
  let s := if three then (s.set (BUS_C_CLASH.ID o.ctrl) (idKey (s.objId x))).canAlert o.ctrl 0 else s
  if o.single || o.wired then s.objStopped x o else s

/-- TEC after an error flag (ISO 11898-1): an acknowledge error of an error-passive transmitter adds nothing. -/
def State.tecUp (n kind : Nat) (s : State) : State :=
  if kind = 0 || (kind = 1 && s.get (BUS_C_STAT.STATE n) = 1) then s
  else (s.set (BUS_C_STAT.TEC n) (satTo 511 (s.get (BUS_C_STAT.TEC n) + 8))).canErrState n

/-- REC after a valid frame (ISO 11898-1): one less; above 127 a value from 119 to 127, which the standard leaves open. -/
def State.recDown (n : Nat) (s : State) : State :=
  let c := s.get (BUS_C_STAT.REC n)
  if 127 < c then ((s.set (BUS_C_STAT.REC n) (119 + Config.freeValue s.free % 9)).drawn).canErrState n
  else s.set (BUS_C_STAT.REC n) (c - 1)

/-- CAN_RX_ERROR (R427, R430): a received frame is broken off. `kind` 0 a protocol exception, which counts nothing; 1 an error the
receiver detects; 2 a dominant bit after its error flag. -/
def execCanRxError (n : Fin 8) (kind : Fin 3) (s : State) : Out :=
  let r := match kind.val with | 0 => 0 | 1 => 1 | _ => 8
  .next (if s.canLive n.val && decide (0 < r) then
    (s.set (BUS_C_STAT.REC n.val) (satTo 255 (s.get (BUS_C_STAT.REC n.val) + r))).canErrState n.val else s)

/-- Bus-off (R430): recovery starts with AUTO_REC. An object known to be on the wire leaves it without a further attempt. -/
def State.goBusOff (n : Nat) (s : State) : State :=
  let s := s.bus.objs.foldl (fun (s : State) e => if e.2.ctrl = n && e.2.wired then s.objStopped e.1 e.2 else s) s
  (s.setCtl n { s.busCtl n with recovering := s.getB (BUS_C_CFG.AUTO_REC n) }).setCanState n 2

/-- BUS_OFF (R430). -/
def execBusOff (n : Fin 8) (s : State) : Out :=
  .next (if s.canOn n.val && decide (255 < s.get (BUS_C_STAT.TEC n.val)) && decide (s.get (BUS_C_STAT.STATE n.val) < 2) then s.goBusOff n.val else s)

/-- BUS_OFF_RECOVERED (R430). -/
def execBusOffRecovered (n : Fin 8) (s : State) : Out :=
  if s.canOn n.val && s.get (BUS_C_STAT.STATE n.val) = 2 && (s.busCtl n.val).recovering then
    let s := s.setCtl n.val { s.busCtl n.val with recovering := false }
    .next (((s.set (BUS_C_STAT.TEC n.val) 0).set (BUS_C_STAT.REC n.val) 0).setCanState n.val 0)
  else .next s

/-- A write of BUS_C_STAT(n): RECOVER (R430). -/
def State.writeRecover (n : Nat) (value : Word) (s : State) : State :=
  if bitAt value.toNat 31 && s.canOn n && s.get (BUS_C_STAT.STATE n) = 2 then s.setCtl n { s.busCtl n with recovering := true } else s

/-- TXD_DOM (R431). -/
def execTxdDom (n : Fin 8) (s : State) : Out :=
  .next (if s.canOn n.val && decide (s.get (BUS_C_STAT.STATE n.val) ≠ 3) then (s.canAlert n.val 3).goBusOff n.val else s)

/-- BUS_DOM (R431). -/
def execBusDom (n : Fin 8) (s : State) : Out := .next (if s.canOn n.val then s.canAlert n.val 4 else s)

/-! ### Host accesses to objects (R435, R438) -/

/-- A write of BUS_OBJ_CTRL(x): SEND and ABORT. -/
def State.writeObjCtrl (x : Nat) (value : Word) (s : State) : State :=
  match s.busObj x with
  | none => s
  | some o =>
    if !o.tx then s
    else
      let s := if !bitAt value.toNat 0 then s
        else
          if s.getB (BUS_OBJ_STAT.PEND x) || ((s.reg (BUS_OBJ_REC x 1)).toNat % 4 ≠ 0 && !s.getB (BUS_C_CFG.FD_EN o.ctrl)) then s.bump (BUS_C_CNT.WIGN o.ctrl) 1
          else if s.get (BUS_C_CFG.MODE o.ctrl) = 1 then s.objResult x o false
          else (s.setObj x { o with pendAt := s.now, noRetry := false }).setB (BUS_OBJ_STAT.PEND x) true
      if bitAt value.toNat 1 && s.getB (BUS_OBJ_STAT.PEND x) then
        match s.busObj x with
        | some o => if s.onWire x o then (s.setObj x { o with noRetry := true }).drawn else (s.objResult x o false).drawn
        | none => s
      else s

/-- A write of record word `j` of object `x`: DLC, FLAGS bits FDF and BRS, RTR and DATA of a transmit object that is not
pending. -/
def State.writeObjRec (x j : Nat) (value : Word) (s : State) : State :=
  match s.busObj x with
  | none => s
  | some o =>
    if !o.tx then s
    else if s.getB (BUS_OBJ_STAT.PEND x) then s.bump (BUS_C_CNT.WIGN o.ctrl) 1
    else
      let a := BUS_OBJ_REC x j
      let old := (s.reg a).toNat
      if j = 0 then s.setReg a (BitVec.ofNat 32 (putBits old 30 1 (bitsOf value.toNat 30 1)))
      else if j = 1 then
        let w := putBits (putBits old 0 2 (value.toNat % 4)) 16 8 (bitsOf value.toNat 16 4)
        s.setReg a (BitVec.ofNat 32 (putBits w 24 8 (dlcLen (bitAt value.toNat 0) (bitsOf value.toNat 16 4))))
      else if 6 ≤ j then s.setReg a value
      else s

/-- A read of BUS_OBJ_STAT(x) latches the record and clears the RC bits (R435). -/
def State.readObj (core x : Nat) (s : State) : State :=
  match s.busObj x with
  | none => s.answer core 0#32
  | some _ =>
    let w := s.reg (BUS_OBJ_STAT x)
    let s := (List.range 22).foldl (fun s j => s.latchFor core (BUS_OBJ_REC x j) (s.reg (BUS_OBJ_REC x j))) s
    let s := ((s.setB (BUS_OBJ_STAT.NEW x) false).setB (BUS_OBJ_STAT.LOST x) false).setB (BUS_OBJ_STAT.DONE x) false
    (s.setB (BUS_OBJ_STAT.FAILED x) false).answer core w

/-! ### Commands (Table 20-4) -/

/-- OBJ_CREATE. -/
def opObjCreate (c : Cmd) (s : State) : State :=
  let n := c.arg 16 1
  let dir := c.arg 17 1
  let opt := c.arg 18 1
  let id := c.arg 20 4
  let q := c.arg 24 4
  let badQ := q ≠ 0 && (s.checkHandle 8 (fun i => (s.busQueue i).isSome) q).isSome
  match tfree s.bus.objs 2048 with
  | none => if badQ then c.failed 0x03 s else c.failed 0x04 s
  | some x =>
    if badQ then c.failed 0x03 s
    else if 7 < n || 1 < dir || 3 < opt || (dir = 0 && bitAt opt 1) || bitAt id 31 || (!bitAt id 29 && id % 2 ^ 29 ≥ 2 ^ 11) || (dir = 1 && q ≠ 0) then
      c.failed 0x05 s
    else if !s.canOn n || (q ≠ 0 && (s.busQueue (hIndex q)).any fun v => v.ctrl ≠ n) then c.failed 0x08 s
    else if s.bus.objs.any (fun e => e.2.ctrl = n && e.2.tx = (dir = 1) && idKey e.2.id = idKey id) then c.failed 0x20 s
    else
      let o : CanObj := { ctrl := n, tx := dir = 1, irq := bitAt opt 0, single := bitAt opt 1, id := id, queue := if q = 0 then none else some (hIndex q) }
      let s := ((s.wipeRegs (BUS_OBJ_STAT x) 0x80).advGen 7 x).setObj x o
      let s := ((s.setB (BUS_OBJ_STAT.LIVE x) true).set (BUS_OBJ_STAT.DIR x) dir).set (BUS_OBJ_STAT.CTRL x) n
      let s := if dir = 1 then (s.setReg (BUS_OBJ_REC x 0) (BitVec.ofNat 32 id)).setReg (BUS_OBJ_REC x 2) (BitVec.ofNat 32 n) else s
      c.created (s.handle 7 x) s.busShow

/-- OBJ_CREATE (Table 20-4). -/
def execObjCreate (ring : Fin 8) (e : Entry) (s : State) : Out := .next (s.runRow 0x0E ring.val 1 0 e opObjCreate)

/-- OBJ_DESTROY: a pending frame not being sent is dropped; one on the wire ends first. -/
def opObjDestroy (c : Cmd) (s : State) : State :=
  match s.checkHandle 7 s.objLive c.handle, s.busObj (hIndex c.handle) with
  | some _, _ => c.finish 0x03 s
  | none, some o =>
    let x := hIndex c.handle
    if s.getB (BUS_OBJ_STAT.PEND x) then
      if s.onWire x o then (s.setObj x { o with dying := some (c.ring, c.id) }).drawn else c.finish 0x00 (s.drawn.objGone x)
    else c.finish 0x00 (s.objGone x)
  | none, none => c.finish 0x03 s

/-- OBJ_DESTROY (Table 20-4). -/
def execObjDestroy (ring : Fin 8) (e : Entry) (s : State) : Out := .next (s.runRow 0x0E ring.val 2 0 e opObjDestroy)

/-- Q_CREATE. -/
def opQCreate (c : Cmd) (s : State) : State :=
  let n := c.arg 16 1
  let base := c.arg 32 8
  match tfree s.bus.queues 8 with
  | none => c.failed 0x04 s
  | some q =>
    if 7 < n || 1 < c.arg 17 1 || 256 < c.arg 18 2 || base % 4096 ≠ 0 || !s.inWins 0x0E base 24576 then c.failed 0x05 s
    else if !s.canOn n then c.failed 0x08 s
    else
      let v : CanQueue := { ctrl := n, irq := c.arg 17 1 = 1, thr := c.arg 18 2, qid := c.arg 20 4, mask := c.arg 24 4, base := base }
      let s := (s.wipeRegs (BUS_Q_STAT q) 0x20).advGen 8 q
      let s := { s with bus := { s.bus with queues := tput s.bus.queues q v } }
      c.created (s.handle 8 q) (((s.setB (BUS_Q_STAT.LIVE q) true).set (BUS_Q_STAT.CTRL q) n).busShow)

/-- Q_CREATE (Table 20-4). -/
def execQCreate (ring : Fin 8) (e : Entry) (s : State) : Out := .next (s.runRow 0x0E ring.val 3 0 e opQCreate)

/-- Q_DESTROY. -/
def opQDestroy (c : Cmd) (s : State) : State :=
  match s.checkHandle 8 (fun i => (s.busQueue i).isSome) c.handle with
  | some _ => c.finish 0x03 s
  | none =>
    let q := hIndex c.handle
    if s.bus.objs.any (fun e => e.2.queue = some q) || (List.range 8).any (fun n => s.tpOn n && s.get (BUS_C_CFG.TPQ n) = q) then c.finish 0x22 s
    else
      let s := { s.wipeRegs (BUS_Q_STAT q) 0x20 with bus := { s.bus with queues := tdel s.bus.queues q } }
      c.finish 0x00 s.busShow

/-- Q_DESTROY (Table 20-4). -/
def execQDestroy (ring : Fin 8) (e : Entry) (s : State) : Out := .next (s.runRow 0x0E ring.val 4 0 e opQDestroy)

/-! ### The check (R445) -/

/-- Bit length of the nominal and of the data phase, in FLD cycles. -/
def State.nomBit (s : State) (n : Nat) : Nat := (s.get (BUS_C_NBT.NBRP n) + 1) * (s.get (BUS_C_NBT.NTSEG1 n) + s.get (BUS_C_NBT.NTSEG2 n) + 3)
def State.datBit (s : State) (n : Nat) : Nat := (s.get (BUS_C_DBT.DBRP n) + 1) * (s.get (BUS_C_DBT.DTSEG1 n) + s.get (BUS_C_DBT.DTSEG2 n) + 3)

/-- The tests of R445. -/
def State.busTests (s : State) : List CheckTest :=
  let en (n : Nat) : Bool := s.getB (BUS_C_CFG.EN n)
  let engine (n : Nat) : Bool := en n && s.imgFld (BUS_C_CAP.TP n) = 1
  let anyTp := (List.range 8).any engine
  let rxmax := s.get BUS_TP_RXMAX.RXMAX
  let per : List CheckTest := (List.range 8).flatMap fun n =>
    let o := 0x1000 + 0x100 * n
    let fd := s.getB (BUS_C_CFG.FD_EN n)
    let nb := s.nomBit n
    let db := s.datBit n
    let gap := s.get (BUS_C_TPLIM.BAM_GAP n)
    let addr := (s.reg (BUS_C_TPADDR n)).toNat
    if !en n then []
    else
      [(s.get (BUS_C_CFG.MODE n) = 3, 0x05, o),
       (nb < 80 || 640 < nb || s.get (BUS_C_NBT.NTSEG1 n) = 0 || 255 < s.get (BUS_C_NBT.NTSEG1 n) || s.get (BUS_C_NBT.NTSEG2 n) < s.get (BUS_C_NBT.NSJW n), 0x05, o + 4),
       (s.get (BUS_C_DBT.DTSEG2 n) < s.get (BUS_C_DBT.DSJW n) || (fd && (db < 10 || nb < db)), 0x05, o + 8),
       (gap < 50 || 200 < gap || s.get (BUS_C_TPLIM.CTSMAX n) = 0, 0x05, o + 0x24),
       (!s.canInsvc n, 0x08, o), (!engine n && addr ≠ 0xFEFEFEFE, 0x08, o + 0x20),
       (fd && decide (db < 80) && !s.getB (BUS_C_TDC.TDC_EN n), 0x08, o + 0x0C)]
  let tp : List CheckTest := [(anyTp && (rxmax < 1785 || 16777216 < rxmax), 0x05, 0x68),
      (anyTp && !s.inWins 0x0E (s.get64 BUS_TP_RXBASE_LO BUS_TP_RXBASE_HI) (32 * rxmax), 0x05, 0x60)]
  s.regionTests 6 0 ++ s.ringTests 0x0E ++ per ++ tp

/-- What a passed check starts: controllers with EN go into bus integration (R445). -/
def State.busStart (s : State) : State :=
  (List.range 8).foldl (fun (s : State) n =>
    ((s.set (BUS_C_STAT.TEC n) 0).set (BUS_C_STAT.REC n) 0).set (BUS_C_STAT.STATE n) 3) { s with bus := {} } |>.busShow

/-- CAN_BUS_INTEGRATION (R445): the controller has seen its run of recessive bits and is error-active. -/
def execCanBusIntegration (n : Fin 8) (s : State) : Out :=
  .next (if s.canOn n.val && s.get (BUS_C_STAT.STATE n.val) = 3 then s.set (BUS_C_STAT.STATE n.val) 0 else s)

/-- ENABLE 1 → 0 (R445). An OBJ_DESTROY in flight ends as its object is destroyed (R127). -/
def State.busDisable (s : State) : State :=
  let s := s.setB BUS_CTRL.ENABLE false
  let s := s.bus.objs.foldl (fun s e => s.objDies e.1 e.2) s
  let s := (s.bus.objs.map (·.1)).foldl (fun s x => s.objGone x) s
  let s := (s.bus.queues.map (·.1)).foldl (fun s q => s.wipeRegs (BUS_Q_STAT q) 0x20) s
  let s := (List.range 8).foldl (fun s n => s.set (BUS_C_STAT.STATE n) 3) s
  { s with bus := {} }.busShow

/-- BUS_DISABLE (R445). -/
def execBusDisable (s : State) : Out := .next (if s.getB BUS_CTRL.ENABLE then s.busDisable else s)

end Sys2Proof.Machine
end

