-- ==== Sys2Proof/Machine/BusTp.lean ====
section
/-! DEFINITION. The transport engine of BUS (R440 to R443) and the controller events that reach it. The spec names the control
bytes; the layouts of CM and DT frames are those of SAE J1939-21 and ISO 11783-3 (log entry 18). -/

namespace Sys2Proof.Machine

/-! ### Frames of the engine -/

/-- An extended identifier word: priority, PF, PS and SA. -/
def tpId (prio pf ps sa : Nat) : Nat := prio % 8 * 2 ^ 26 + pf * 2 ^ 16 + ps * 2 ^ 8 + sa + 2 ^ 29

/-- PF of CM and DT frames of a session kind. -/
def cmPf (kind : Nat) : Nat := if kind = 2 then 0xC8 else 0xEC
def dtPf (kind : Nat) : Nat := if kind = 2 then 0xC7 else 0xEB

def TpSess.total (t : TpSess) : Nat := ceilDiv t.size 7

/-- A frame of the engine becomes pending. -/
def State.tpPush (n : Nat) (f : TpTx) (s : State) : State := s.setCtl n { s.busCtl n with txq := (s.busCtl n).txq ++ [f] }

/-- Bytes 1 to 4 and the PGN after a control byte. -/
def cmData (ctl : Nat) (mid : List Byte) (pgn : Nat) : List Byte := BitVec.ofNat 8 ctl :: mid ++ bytesLE 3 pgn

def ffs (n : Nat) : List Byte := List.replicate n 0xFF#8

/-- Size and packet count as RTS, BAM and EndOfMsgAck of TP carry them, or the size alone for ETP. -/
def TpSess.sizeMid (t : TpSess) (last : Nat) : List Byte :=
  if t.kind = 2 then bytesLE 4 t.size else bytesLE 2 t.size ++ bytesLE 1 t.total ++ bytesLE 1 last

/-- An Abort goes out (R440, R441). -/
def State.tpAbortTx (n kind own peer pgn reason : Nat) (s : State) : State :=
  (s.tpPush n { sess := none, id := tpId 7 (cmPf kind) peer own, data := cmData 255 (bytesLE 1 reason ++ ffs 3) pgn }).bump (BUS_C_TPCNT2.ABORT_TX n) 1

/-! ### The end of a session (R442, R443) -/

/-- Session `i` ends with a RESULT; its frames not yet sent are dropped. A receive session that ends without delivery raises
TP. -/
def State.tpEnd (i result : Nat) (s : State) : State :=
  match s.busSess i with
  | none => s
  | some t =>
    let c := s.busCtl t.ctrl
    let s := s.setCtl t.ctrl { c with txq := c.txq.filter fun f => f.sess ≠ some i }
    let s := s.setSess i { t with result := some result, timer := none, gap := none, sending := false }
    if t.rx && result ≠ 0 then s.raise (252 + 6 * t.ctrl) else s

/-- The session ends with an Abort sent. -/
def State.tpFail (i reason : Nat) (s : State) : State :=
  match s.busSess i with
  | none => s
  | some t => (s.tpEnd i reason).tpAbortTx t.ctrl t.kind t.own t.peer t.pgn reason

/-- Bytes delivered or sent. -/
def TpSess.done (t : TpSess) : Nat := min t.size (7 * (if t.rx then t.next - 1 else t.sent))

/-- The entry of a session (Table 20-2). -/
def State.tpEntry (s : State) (i : Nat) (t : TpSess) : List Byte :=
  bytesLE 4 t.lastId ++ bytesLE 2 (8 + b2n (!t.rx) * 16) ++ bytesLE 2 0 ++ bytesLE 1 t.ctrl ++ bytesLE 1 t.kind ++ bytesLE 1 (t.result.getD 0)
    ++ bytesLE 1 0 ++ bytesLE 4 (s.handle 9 i) ++ bytesLE 8 t.lastSof ++ bytesLE 4 t.pgn ++ bytesLE 1 (if t.rx then t.peer else t.own)
    ++ bytesLE 1 (if t.kind = 1 then 0xFF else if t.rx then t.own else t.peer) ++ bytesLE 2 0 ++ bytesLE 4 t.done ++ bytesLE 4 0 ++ bytesLE 8 t.buf ++ bytesLE 48 0

/-- TP_DELIVERY (R442, R443): an ended session writes its entry into queue TPQ once it has room. A delivered session stays until
its entry is acknowledged; any other is destroyed. -/
def execTpDelivery (i : Fin 32) (s : State) : Out :=
  match s.busSess i.val with
  | none => .next s
  | some t =>
    match t.result, t.entry with
    | some r, none =>
      let q := s.get (BUS_C_CFG.TPQ t.ctrl)
      if (s.busQueue q).isNone || 256 ≤ s.qFill q then .next s
      else
        let pi := s.get (BUS_Q_PI.PI q)
        let e := s.tpEntry i.val t
        let s := s.qPut q e
        let s := if t.rx && r ≠ 0 then s else s.raise (252 + 6 * t.ctrl)
        let s := if t.rx && r = 0 then s.setSess i.val { t with entry := some (q, pi) }
          else { s with bus := { s.bus with sess := tdel s.bus.sess i.val } }
        .next s.busShow
    | _, _ => .next s

/-! ### Time limits (Table 20-3) -/

/-- The time limit of session `i` passes: an Abort with reason 3 for a connection, nothing for a BAM; the session ends. -/
def State.tpTimeUp (i : Nat) (t : TpSess) (s : State) : State := if t.kind = 1 then s.tpEnd i 0x10 else s.tpFail i 3

/-- Sessions whose limit has passed have ended, whatever comes next. -/
def State.tpExpire (s : State) : State :=
  s.bus.sess.foldl (fun (s : State) e => if e.2.timer.any fun l => decide (l.1 + l.2 * 1000000 < s.now) then s.tpTimeUp e.1 e.2 else s) s

/-- A RESULT that Table 20-2 allows a session without completion, where no rule says which: 1 to 9, 0x10 or 0x11 (log entry 1). -/
def State.tpResult (s : State) : Nat := ([1, 2, 3, 4, 5, 6, 7, 8, 9, 0x10, 0x11] : List Nat).getD (s.fresh 8 % 11) 1

/-! ### Receive sessions (R441, R442) -/

/-- Is a session open? -/
def TpSess.open_ (t : TpSess) : Bool := t.result.isNone

/-- An open session of controller `n`. -/
def State.tpFind (s : State) (n : Nat) (p : TpSess → Bool) : Option (Nat × TpSess) :=
  s.bus.sess.find? fun e => e.2.ctrl = n && e.2.open_ && p e.2

/-- A CTS asks for the next block (R440, Table 20-3). -/
def State.tpCts (i : Nat) (s : State) : State :=
  match s.busSess i with
  | none => s
  | some t =>
    let k := min (min t.maxPk (s.get (BUS_C_TPLIM.CTSMAX t.ctrl))) (t.total + 1 - t.next)
    let mid := if t.kind = 2 then bytesLE 1 k ++ bytesLE 3 t.next else bytesLE 1 k ++ bytesLE 1 t.next ++ ffs 2
    let s := s.setSess i { t with blockEnd := t.next + k - 1, dpo := false, timer := none }
    s.tpPush t.ctrl { sess := some i, id := tpId 7 (cmPf t.kind) t.peer t.own, data := cmData (if t.kind = 2 then 21 else 17) mid t.pgn, after := 1 }

/-- The CM frame of a source is counted in its window of 1 s; the count (R441). -/
def State.tpCount (n sa sof : Nat) (s : State) : Nat × State :=
  let c := s.busCtl n
  let w := sof / 1000000000
  let k := match tget c.cm sa with
    | some (v, k) => if v = w then k + 1 else 1
    | none => 1
  (k, s.setCtl n { c with cm := tput c.cm sa (w, k) })

/-- An RTS or a BAM: the checks of R441 in order, and the session. `k` counts the source's CM frames. -/
def State.tpOpen (n kind peer own pgn size maxPk k id sof : Nat) (s : State) : State :=
  let answer (reason : Nat) (s : State) : State :=
    if kind = 1 then s.bump (BUS_C_TPCNT2.ABORT_TX n) 1 else s.tpAbortTx n kind own peer pgn reason
  let mine := (s.bus.sess.filter fun e => e.2.rx && e.2.ctrl = n && e.2.peer = peer).length
  if s.get (BUS_C_TPLIM.RATE n) < k then (s.bump (BUS_C_TPCNT.RATE_DROP n) 1).canAlert n 6
  else if kind ≠ 1 && (s.tpFind n fun t => t.rx && t.kind ≠ 1 && t.peer = peer && t.own = own).isSome then answer 1 s
  else
    match tfree s.bus.sess 32 with
    | none => answer 2 s
    | some i =>
      if s.get (BUS_C_TPLIM.SRCMAX n) ≤ mine then
        let s := (s.bump (BUS_C_TPCNT.SRC_LIM n) 1).canAlert n 5
        if kind = 1 then s else answer 1 s
      else if s.get BUS_TP_RXMAX.RXMAX < size then answer 2 s
      else
        let t : TpSess := {
          ctrl := n, rx := true, kind := kind, peer := peer, own := own, pgn := pgn, size := size,
          buf := s.get64 BUS_TP_RXBASE_LO BUS_TP_RXBASE_HI + i * s.get BUS_TP_RXMAX.RXMAX, maxPk := maxPk, lastId := id, lastSof := sof
          timer := if kind = 1 then some (sof, 750) else none }
        let s := ((s.advGen 9 i).setSess i t).busShow
        if kind = 1 then s else s.tpCts i

/-- A DT or a frame of no open session. -/
def State.tpStray (n : Nat) (s : State) : State := s.bump (BUS_C_TPCNT.STRAY n) 1

/-- A DT for receive session `i` (R441, R442). -/
def State.tpData (i : Nat) (t : TpSess) (data : List Byte) (id sof : Nat) (s : State) : State :=
  let n := t.base + natLE (data.take 1)
  let t := { t with lastId := id, lastSof := sof }
  if 1 < t.next && n + 1 = t.next then s
  else if n ≠ t.next || (t.kind = 2 && !t.dpo) || (t.kind ≠ 1 && t.blockEnd < n) then
    let s := s.setSess i t
    if t.kind = 1 then s.tpEnd i 7 else s.tpFail i 7
  else
    let left := t.size - 7 * (n - 1)
    let s := s.dramPuts (t.buf + 7 * (n - 1)) ((data.drop 1).take (min 7 left))
    let t := { t with next := n + 1, timer := some (sof, 750) }
    let s := s.setSess i t
    if t.total < t.next then
      let s := s.tpEnd i 0
      if t.kind = 1 then s
      else s.tpPush t.ctrl { sess := none, id := tpId 7 (cmPf t.kind) t.peer t.own, data := cmData (if t.kind = 2 then 23 else 19) (t.sizeMid 0xFF) t.pgn }
    else if t.kind ≠ 1 && t.blockEnd < t.next then s.tpCts i
    else s

/-! ### Send sessions (R443) -/

/-- The DTs of a block become pending, after a DPO for ETP. -/
def State.tpBlock (i : Nat) (t : TpSess) (first last : Nat) (s : State) : State :=
  let s := s.setSess i { t with next := first, blockEnd := last, base := if t.kind = 2 then first - 1 else 0, sending := true, timer := none }
  let s := if t.kind = 2 then
      s.tpPush t.ctrl { sess := some i, id := tpId t.prio (cmPf 2) t.peer t.own, data := cmData 22 (bytesLE 1 (last + 1 - first) ++ bytesLE 3 (first - 1)) t.pgn }
    else s
  (List.range (last + 1 - first)).foldl (fun s k =>
    s.tpPush t.ctrl { sess := some i, id := tpId t.prio (dtPf t.kind) t.peer t.own, data := [], dt := some (first + k), after := 3 }) s

/-- A CTS for send session `i`. -/
def State.tpCtsRx (i : Nat) (t : TpSess) (k next id sof : Nat) (s : State) : State :=
  let t := { t with lastId := id, lastSof := sof }
  if t.sending then (s.setSess i t).tpFail i 4
  else if k = 0 then s.setSess i { t with timer := some (sof, 1050) }
  else if next = 0 || t.total < next then s.tpStray t.ctrl
  else s.tpBlock i t next (min t.total (next + k - 1))

/-- Bytes of packet `p` of a send session, read from its buffer as it is sent. -/
def State.tpPacket (s : State) (t : TpSess) (p : Nat) : List Byte :=
  let d := memBytes s.dram (t.buf + 7 * (p - 1)) (min 7 (t.size - 7 * (p - 1)))
  BitVec.ofNat 8 (p - t.base) :: d ++ ffs (7 - d.length)

/-! ### Frames received (R434, R440, R441) -/

/-- Is the identifier word one of TP.CM, TP.DT, ETP.CM or ETP.DT? -/
def isTp (id : Nat) : Bool := bitAt id 29 && bitsOf id 24 2 = 0 && [0xEC, 0xEB, 0xC8, 0xC7].contains (bitsOf id 16 8)

/-- Is `a` an own address of the controller (R440)? -/
def State.ownAddr (s : State) (n a : Nat) : Bool :=
  a ≠ 0xFE && (List.range 4).any fun k => bitsOf (s.reg (BUS_C_TPADDR n)).toNat (8 * k) 8 = a

/-- A connection management frame of the transport engine (R440 to R444): `k` numbers the sender's requests. -/
def State.tpControl (n : Nat) (f : CanFrame) (kind : Nat) (d : List Byte) (k : Nat) (s : State) : State :=
  let da := bitsOf f.id 8 8
  let sa := f.id % 256
  let b (o m : Nat) : Nat := natLE ((d.drop o).take m)
  let pgn := b 5 3 % 2 ^ 18
  let ctl := b 0 1
  let pair (rx : Bool) (t : TpSess) : Bool := t.rx = rx && t.kind = kind && t.peer = sa && t.own = da && t.pgn = pgn
  if ctl = 16 && kind = 0 then
    if s.ownAddr n da && 9 ≤ b 1 2 && b 1 2 ≤ 1785 then s.tpOpen n 0 sa da pgn (b 1 2) (b 4 1) k f.id f.sof else s
  else if ctl = 20 && kind = 2 then
    if s.ownAddr n da && 1786 ≤ b 1 4 && b 1 4 ≤ 117440505 then s.tpOpen n 2 sa da pgn (b 1 4) 255 k f.id f.sof else s
  else if ctl = 32 && kind = 0 then
    if da ≠ 0xFF then s
    else
      let s := match s.tpFind n fun t => t.rx && t.kind = 1 && t.peer = sa with
        | some (i, _) => (s.drawn).tpEnd i s.tpResult
        | none => s
      if 9 ≤ b 1 2 && b 1 2 ≤ 1785 then s.tpOpen n 1 sa 0xFF pgn (b 1 2) 255 k f.id f.sof else s
  else if (ctl = 17 && kind = 0) || (ctl = 21 && kind = 2) then
    match s.tpFind n (pair false) with
    | some (i, t) => s.tpCtsRx i t (b 1 1) (if kind = 2 then b 2 3 else b 2 1) f.id f.sof
    | none => s.tpStray n
  else if ctl = 22 && kind = 2 then
    match s.tpFind n (pair true) with
    | some (i, t) =>
      let t := { t with lastId := f.id, lastSof := f.sof }
      if b 2 3 + 1 ≠ t.next then (s.setSess i t).tpFail i 7
      else s.setSess i { t with dpo := true, base := b 2 3, blockEnd := min t.blockEnd (b 2 3 + b 1 1) }
    | none => s
  else if (ctl = 19 && kind = 0) || (ctl = 23 && kind = 2) then
    match s.tpFind n (pair false) with
    | some (i, t) => if t.total ≤ t.sent && !t.sending then (s.setSess i { t with lastId := f.id, lastSof := f.sof }).tpEnd i 0 else s
    | none => s
  else if ctl = 255 then
    let l := s.bus.sess.filter fun e => e.2.ctrl = n && e.2.open_ && e.2.kind = kind && e.2.peer = sa && e.2.own = da && e.2.pgn = pgn
    if l.isEmpty then s.tpStray n
    else
      l.foldl (fun s e =>
        let s := s.setSess e.1 { e.2 with lastId := f.id, lastSof := f.sof }
        if 1 ≤ b 1 1 && b 1 1 ≤ 9 then s.tpEnd e.1 (b 1 1) else s.drawn.tpEnd e.1 s.tpResult) s
  else s

/-- A frame taken by the engine. Frames that are not classic data frames of 8 bytes, and openings of messages outside the sizes of
R440, open nothing. -/
def State.tpRx (n : Nat) (f : CanFrame) (s : State) : State :=
  let pf := bitsOf f.id 16 8
  let da := bitsOf f.id 8 8
  let sa := f.id % 256
  let kind := if pf = 0xC8 || pf = 0xC7 then 2 else 0
  let d := f.data.take 8
  if f.fdf || f.len ≠ 8 || d.length ≠ 8 then s
  else if pf = 0xEB || pf = 0xC7 then
    match s.tpFind n fun t => t.rx && t.peer = sa && (if da = 0xFF then t.kind = 1 else t.own = da && t.kind = kind) with
    | some (i, t) => s.tpData i t d f.id f.sof
    | none => s.tpStray n
  else
    let (k, s) := s.tpCount n sa f.sof
    s.tpControl n f kind d k

/-- A valid frame arrives (R433, R434). -/
def State.canRx (n : Nat) (f : CanFrame) (s : State) : State :=
  let f := f.tidy
  let s := s.ownRx n f
  if s.tpOn n && isTp f.id then s.tpExpire.tpRx n f else s.canStore n f

/-- CAN_FRAME_RX (R433, R434). -/
def execCanFrameRx (n : Fin 8) (id : BitVec 31) (fdf brs esi : Bool) (dlc : Fin 16) (data : List Byte) (sof : Nat) (s : State) : Out :=
  let m := s.get (BUS_C_CFG.MODE n.val)
  let f : CanFrame := { id := id.toNat, fdf := fdf, brs := brs, esi := esi, dlc := dlc.val, data := data, sof := sof }
  .next (if s.canLive n.val && m ≠ 2 && f.legal && (s.getB (BUS_C_CFG.FD_EN n.val) || !fdf) then (s.recDown n.val).canRx n.val f else s)

/-- TP_FRAME_RX (R441): a classic data frame of the engine's identifiers. -/
def execTpFrameRx (n : Fin 8) (id : BitVec 29) (data : List Byte) (sof : Nat) (s : State) : Out :=
  let w := id.toNat + 2 ^ 29
  .next (if s.canLive n.val && s.get (BUS_C_CFG.MODE n.val) ≠ 2 && s.tpOn n.val && isTp w then
    (s.recDown n.val).canRx n.val { id := w, fdf := false, brs := false, esi := false, dlc := min 8 data.length, data := data, sof := sof } else s)

/-! ### Sends that end (R438, R439) -/

/-- The engine's first waiting frame has been acknowledged: what follows (Table 20-3). -/
def State.tpSent (f : TpTx) (sof : Nat) (s : State) : State :=
  match f.sess with
  | none => s
  | some i =>
    match s.busSess i with
    | none => s
    | some t =>
      let t := { t with lastId := f.id, lastSof := sof }
      let s := s.setSess i t
      match f.after with
      | 1 => s.setSess i { t with timer := some (sof, 1250) }
      | 2 => s.setSess i { t with timer := some (sof, 1250) }
      | 3 =>
        let p := f.dt.getD 0
        let t := { t with sent := max t.sent p }
        if p = t.blockEnd then s.setSess i { t with sending := false, timer := some (sof, 1250) } else s.setSess i t
      | 4 =>
        let p := f.dt.getD 0
        let t := { t with sent := max t.sent p, next := p + 1 }
        let t := if p = 0 then { t with gapMs := s.get (BUS_C_TPLIM.BAM_GAP t.ctrl) } else t
        if t.total ≤ p then (s.setSess i t).tpEnd i 0 else s.setSess i { t with gap := some sof }
      | _ => s

/-- CAN_TX_DONE (R438): the frame of transmit object `x`, or the first waiting frame of the transport engine, is acknowledged. In
loopback the controller receives it (R429). -/
def execCanTxDone (n : Fin 8) (x : Option (Fin 2048)) (sof : Nat) (s : State) : Out :=
  let m := s.get (BUS_C_CFG.MODE n.val)
  if !s.canLive n.val || m = 1 then .next s
  else
    match x with
    | some x =>
      match s.busObj x.val with
      | some o =>
        if !o.tx || o.ctrl ≠ n.val || !s.getB (BUS_OBJ_STAT.PEND x.val) || s.wireHeld n.val (some x.val) || !s.objFirst x.val o sof then .next s
        else
          let f := s.objFrame x.val sof
          let s := (s.objSent x.val o sof).tecDown n.val
          .next (if m = 2 then s.canRx n.val f else s)
      | none => .next s
    | none =>
      match (s.busCtl n.val).txq with
      | [] => .next s
      | f :: rest =>
        if s.wireHeld n.val none then .next s
        else
          let data := match f.dt, f.sess.bind s.busSess with
            | some p, some t => if f.data.isEmpty then s.tpPacket t p else f.data
            | _, _ => f.data
          let s := (s.setCtl n.val { s.busCtl n.val with txq := rest }).tecDown n.val
          let s := s.tpSent f sof
          .next (if m = 2 then s.canRx n.val { id := f.id, fdf := false, brs := false, esi := false, dlc := 8, data := data, sof := sof } else s)

/-- CAN_TX_ERROR (R438, R439): a send of object `x`, or of the engine, fails. `kind` 0 lost arbitration, 1 acknowledge error, 2 an
error outside the control, data and CRC fields, 3 an error in them after arbitration was won. -/
def execCanTxError (n : Fin 8) (x : Option (Fin 2048)) (kind : Fin 4) (s : State) : Out :=
  if !s.canLive n.val || s.get (BUS_C_CFG.MODE n.val) = 1 then .next s
  else
    match x with
    | some x =>
      match s.busObj x.val with
      | some o =>
        if !o.tx || o.ctrl ≠ n.val || !s.getB (BUS_OBJ_STAT.PEND x.val) || s.wireHeld n.val (some x.val) then .next s
        else .next ((s.tecUp n.val kind.val).objError x.val o (kind.val = 3))
      | none => .next s
    | none => .next (if (s.busCtl n.val).txq.isEmpty || s.wireHeld n.val none then s else s.tecUp n.val kind.val)

/-- TP_TIMEOUT (R440): a time limit of Table 20-3 has passed. -/
def execTpTimeout (i : Fin 32) (s : State) : Out :=
  match s.busSess i.val with
  | none => .next s
  | some t =>
    match t.timer with
    | some (from_, ms) =>
      if !t.open_ || s.now < from_ + ms * 1000000 then .next s else .next (s.tpTimeUp i.val t)
    | none => .next s

/-- BAM_GAP (R440): the next packet of a BAM becomes pending. The gap is the limit that the session's CM frame found. -/
def execBamGap (i : Fin 32) (s : State) : Out :=
  match s.busSess i.val with
  | none => .next s
  | some t =>
    match t.gap with
    | some g =>
      if s.now < g + t.gapMs * 1000000 then .next s
      else
        let s := s.setSess i.val { t with gap := none }
        .next (s.tpPush t.ctrl { sess := some i.val, id := tpId t.prio (dtPf 1) 0xFF t.own, data := [], dt := some t.next, after := 4 })
    | none => .next s

/-! ### Commands (Table 20-4) -/

/-- TP_SEND (R443). -/
def opTpSend (c : Cmd) (s : State) : State :=
  let s := s.tpExpire
  let n := c.arg 16 1
  let bam := c.arg 17 1
  let sa := c.arg 18 1
  let da := c.arg 19 1
  let prio := c.arg 20 1
  let pgn := c.arg 24 4
  let len := c.arg 28 4
  let buf := c.arg 32 8
  match tfree s.bus.sess 32 with
  | none => c.failed 0x04 s
  | some i =>
    if 7 < n || 1 < bam || 7 < prio || 2 ^ 18 ≤ pgn || len < 9 || 117440505 < len || (bam = 1 && (1785 < len || da ≠ 0xFF)) || !s.inWins 0x0E buf len then
      c.failed 0x05 s
    else if !s.canOn n then c.failed 0x08 s
    else if !s.tpOn n || !s.ownAddr n sa then c.failed 0x21 s
    else if bam = 0 && (s.tpFind n fun t => !t.rx && t.kind ≠ 1 && t.own = sa && t.peer = da).isSome then c.failed 0x23 s
    else
      let kind := if bam = 1 then 1 else if 1785 < len then 2 else 0
      let t : TpSess := { ctrl := n, rx := false, kind := kind, peer := da, own := sa, pgn := pgn, size := len, buf := buf, prio := prio }
      let ctl := if kind = 1 then 32 else if kind = 2 then 20 else 16
      let s := ((s.advGen 9 i).setSess i t).tpPush n {
        sess := some i, id := tpId prio (cmPf kind) da sa, data := cmData ctl (t.sizeMid 0xFF) pgn, dt := if kind = 1 then some 0 else none, after := if kind = 1 then 4 else 2 }
      c.created (s.handle 9 i) s.busShow

/-- TP_SEND (Table 20-4). -/
def execTpSend (ring : Fin 8) (e : Entry) (s : State) : Out := .next (s.runRow 0x0E ring.val 5 0 e opTpSend)

/-- TP_ABORT. -/
def opTpAbort (c : Cmd) (s : State) : State :=
  let s := s.tpExpire
  match s.checkHandle 9 (fun i => (s.busSess i).isSome) c.handle, s.busSess (hIndex c.handle) with
  | some _, _ => c.finish 0x03 s
  | none, some t =>
    let i := hIndex c.handle
    if !t.open_ then c.finish 0x08 s
    else
      let s := s.tpEnd i 0x11
      c.finish 0x00 (if t.kind = 1 then s else s.tpAbortTx t.ctrl t.kind t.own t.peer t.pgn 2)
  | none, none => c.finish 0x03 s

/-- TP_ABORT (Table 20-4). -/
def execTpAbort (ring : Fin 8) (e : Entry) (s : State) : Out := .next (s.runRow 0x0E ring.val 6 0 e opTpAbort)

end Sys2Proof.Machine
end

