-- ==== Sys2Proof/Machine/CamPix.lean ====
section
/-! DEFINITION. Pixels (R336, R337): unpacking of the image data types, the six pipeline stages and the Palette header. -/

namespace Sys2Proof.Machine

/-- A row of pixels, each the list of its channel values. -/
abbrev PixRow := List (List Nat)

/-! ### Image data types (Table 15-1; packing of CSI-2 v2.1, log entry 15) -/

/-- Bits per pixel of a data type; 0 for any other code. -/
def dtBits (dt : Nat) : Nat :=
  match dt with
  | 0x2A => 8 | 0x2B => 10 | 0x2C => 12 | 0x2D => 14 | 0x24 => 24 | 0x1E => 16 | _ => 0

def dtRaw (dt : Nat) : Bool := 0x2A ≤ dt && dt ≤ 0x2D

/-- Bytes and pixels of a pixel group. -/
def dtGroup (dt : Nat) : Nat × Nat :=
  match dt with
  | 0x2A => (1, 1) | 0x2B => (5, 4) | 0x2C => (3, 2) | 0x2D => (7, 4) | 0x24 => (3, 1) | _ => (4, 2)

/-- The pixels of one whole group, each component normalised to 16 bits (R336). -/
def unpackGroup (dt : Nat) (g : List Byte) : PixRow :=
  let b (i : Nat) : Nat := (g.getD i 0#8).toNat
  match dt with
  | 0x2A => [[b 0 * 256]]
  | 0x2B => (List.range 4).map fun i => [(b i * 4 + bitsOf (b 4) (2 * i) 2) * 64]
  | 0x2C => (List.range 2).map fun i => [(b i * 16 + bitsOf (b 2) (4 * i) 4) * 16]
  | 0x2D =>
    let low := b 4 + 256 * b 5 + 65536 * b 6
    (List.range 4).map fun i => [(b i * 64 + bitsOf low (6 * i) 6) * 4]
  | 0x24 => [[b 2 * 256, b 1 * 256, b 0 * 256]]
  | _ => [[b 1 * 256, b 0 * 256, b 2 * 256], [b 3 * 256, b 0 * 256, b 2 * 256]]

/-- The whole groups of a payload, as far as `fuel` goes. -/
def unpackLine (dt : Nat) : Nat → List Byte → PixRow
  | 0, _ => []
  | f + 1, l => if l.length < (dtGroup dt).1 then [] else unpackGroup dt (l.take (dtGroup dt).1) ++ unpackLine dt f (l.drop (dtGroup dt).1)

/-- Pixels of a payload: a trailing partial group counts as missing (R330). -/
def linePixels (dt : Nat) (payload : List Byte) : Nat := payload.length / (dtGroup dt).1 * (dtGroup dt).2

/-- A stored line as a row of WIDTH pixels, padded with zero raw values. -/
def rawRow (dt width : Nat) (payload : List Byte) : PixRow :=
  let zero := if dtRaw dt then [0] else [0, 0, 0]
  let row := (unpackLine dt (payload.length + 1) payload).take width
  row ++ List.replicate (width - row.length) zero

/-! ### The Palette header (Table 15-4) -/

/-- A Palette: address and header copy; address 0 is the built-in identity. -/
structure Pal where
  addr : Nat
  hdr : List Byte
  deriving DecidableEq, Repr

def Pal.n (p : Pal) (o n : Nat) : Nat := natLE ((p.hdr.drop o).take n)
def Pal.stages (p : Pal) : Nat := if p.addr = 0 then 0x0008 else p.n 6 2
def Pal.id (p : Pal) : Nat := if p.addr = 0 then 0 else p.n 8 4
def Pal.defN (p : Pal) : Nat := p.n 36 2
def Pal.gx (p : Pal) : Nat := p.n 44 1
def Pal.gy (p : Pal) : Nat := p.n 45 1
def Pal.defAt (p : Pal) : Nat := p.addr + p.n 32 4
def Pal.shdAt (p : Pal) : Nat := p.addr + p.n 40 4
def Pal.toneAt (p : Pal) : Nat := p.addr + p.n 88 4
def Pal.m (p : Pal) (i j : Nat) : Int := toSigned 16 (p.n (48 + 8 * i + 2 * j) 2)
def Pal.mofs (p : Pal) (i : Nat) : Int := toSigned 16 (p.n (80 + 2 * i) 2)

/-- The Palette and its tables lie inside the windows and its sizes are in range (R340). -/
def State.palRangeOk (s : State) (p : Pal) : Bool :=
  p.addr = 0 || (p.addr % 64 = 0 && s.inWins 0x09 p.addr 256
    && p.n 32 4 % 64 = 0 && p.n 40 4 % 64 = 0 && p.n 88 4 % 64 = 0
    && p.defN ≤ 4096 && 2 ≤ p.gx && p.gx ≤ 33 && 2 ≤ p.gy && p.gy ≤ 33
    && (p.defN = 0 || s.inWins 0x09 p.defAt (4 * p.defN)) && s.inWins 0x09 p.shdAt (8 * p.gx * p.gy) && s.inWins 0x09 p.toneAt 2056)

def Pal.formatOk (p : Pal) : Bool := p.addr = 0 || (p.n 0 4 = 0x314C4150 && p.n 4 2 = 1)

/-- Does stage `k` run for a data type and CFA? -/
def Pal.runs (p : Pal) (k dt cfa : Nat) : Bool := bitAt p.stages k && (4 ≤ k || (dtRaw dt && (k ≠ 3 || cfa ≠ 0)))

/-- Output channels (R336): a mosaic without stage 3 leaves one. -/
def Pal.nch (p : Pal) (dt cfa : Nat) : Nat :=
  if !dtRaw dt then 3 else if cfa = 0 || !p.runs 3 dt cfa then 1 else if cfa ≤ 4 then 3 else 4

/-- The tables that the stages of a frame use, as DRAM holds them now: defect list, shading grid, tone tables. -/
def State.palTables (s : State) (p : Pal) (dt cfa : Nat) : List Byte :=
  let t (k a n : Nat) : List Byte := if p.runs k dt cfa then memBytes s.dram a n else List.replicate n 0#8
  if p.addr = 0 then [] else t 1 p.defAt (4 * p.defN) ++ t 2 p.shdAt (8 * p.gx * p.gy) ++ t 5 p.toneAt 2056

/-- Little-endian word of the tables: defect entry, shading gain, tone value. -/
def Pal.defEntry (p : Pal) (tabs : List Byte) (i : Nat) : Nat := if i < p.defN then natLE ((tabs.drop (4 * i)).take 4) else 0
def Pal.gain (p : Pal) (tabs : List Byte) (c i j : Nat) : Nat :=
  natLE ((tabs.drop (4 * p.defN + 2 * (c * p.gx * p.gy + j * p.gx + i))).take 2)
def Pal.tone (p : Pal) (tabs : List Byte) (c k : Nat) : Nat :=
  natLE ((tabs.drop (4 * p.defN + 8 * p.gx * p.gy + 514 * c + 2 * k)).take 2)

/-! ### Stages (R336) -/

/-- Position in the 2 x 2 cell. -/
def cellPos (x y : Nat) : Nat := x % 2 + 2 * (y % 2)

/-- Stage 0 on one value. -/
def blackLevel (p : Pal) (c x : Nat) : Nat := min 65535 (((x - p.n (16 + 2 * c) 2) * p.n (24 + 2 * c) 2 + 8192) / 2 ^ 14)

/-- Defect entries that count: above their predecessor and inside the frame; the others are skipped. -/
def Pal.defects (p : Pal) (tabs : List Byte) (w h : Nat) : List (Nat × Nat) × Nat :=
  (List.range p.defN).foldl (fun (acc : List (Nat × Nat) × Nat) i =>
    let e := p.defEntry tabs i
    let x := e % 65536
    let y := e / 65536
    let asc := i = 0 || decide (p.defEntry tabs (i - 1) < e)
    if asc && x < w && y < h then (acc.1 ++ [(x, y)], acc.2) else (acc.1, acc.2 + 1)) ([], 0)

/-- Stage 1 on the pixel at `x`: the mean of its neighbours `d` pixels away as they enter the stage; the one that exists at an
edge; `fv` where neither does. -/
def defectFix (row : List Nat) (d x fv : Nat) : Nat :=
  match (if x < d then none else row[x - d]?), row[x + d]? with
  | some a, some b => (a + b + 1) / 2
  | some a, none => a
  | none, some b => b
  | none, none => fv

/-- Stage 2 at a pixel. -/
def lensShade (p : Pal) (tabs : List Byte) (w h px py x : Nat) : Nat :=
  let ux := px * (p.gx - 1) * 65536 / max (w - 1) 1
  let uy := py * (p.gy - 1) * 65536 / max (h - 1) 1
  let i := ux / 65536
  let fx := ux % 65536
  let j := uy / 65536
  let fy := uy % 65536
  let i1 := min (i + 1) (p.gx - 1)
  let j1 := min (j + 1) (p.gy - 1)
  let g := p.gain tabs (cellPos px py)
  let v := (g i j * (65536 - fx) * (65536 - fy) + g i1 j * fx * (65536 - fy) + g i j1 * (65536 - fx) * fy + g i1 j1 * fx * fy + 2 ^ 31) / 2 ^ 32
  min 65535 ((x * v + 2048) / 4096)

/-- Stages 0 to 2 on row `y`. `fv` supplies free values. -/
def frontStages (p : Pal) (tabs : List Byte) (dt cfa w h y : Nat) (fv : Nat → Nat) (row : PixRow) : PixRow :=
  if !dtRaw dt then row
  else
    let r0 := row.map fun v => v.headD 0
    let r1 := if p.runs 0 dt cfa then (r0.zip (List.range w)).map fun e => blackLevel p (cellPos e.2 y) e.1 else r0
    let r2 := if p.runs 1 dt cfa then
        let bad := (p.defects tabs w h).1.filter fun e => e.2 = y
        (r1.zip (List.range w)).map fun e => if bad.contains (e.2, y) then defectFix r1 (if cfa = 0 then 1 else 2) e.2 (fv e.2 % 65536) else e.1
      else r1
    let r3 := if p.runs 2 dt cfa then (r2.zip (List.range w)).map fun e => lensShade p tabs w h e.2 y e.1 else r2
    r3.map fun v => [v]

/-- Channel at a cell position (0 R, 1 G, 2 B, 3 N). -/
def cfaChan (cfa c : Nat) : Nat :=
  match cfa with
  | 1 => [0, 1, 1, 2].getD c 0
  | 2 => [1, 0, 2, 1].getD c 0
  | 3 => [1, 2, 0, 1].getD c 0
  | 4 => [2, 1, 1, 0].getD c 0
  | 5 => [0, 1, 3, 2].getD c 0
  | _ => [1, 0, 2, 3].getD c 0

/-- A column index mirrored about the edge pixel. -/
def mirrorCol (w : Nat) (x : Int) : Option Nat :=
  let y := if x < 0 then -x else if (w : Int) ≤ x then 2 * ((w : Int) - 1) - x else x
  if 0 ≤ y && y < (w : Int) then some y.toNat else none

/-- Stage 3 at pixel `x` of row `y`; `rows` are the rows above, here and below (mirrored; none where there is none). A channel
without a pixel in the neighbourhood is a free value. -/
def demosaic (cfa w y x : Nat) (rows : List (Option PixRow)) (nch : Nat) (fv : Nat → Nat) : List Nat :=
  let val (r : PixRow) (i : Nat) : Nat := (r.getD i []).headD 0
  let own := cfaChan cfa (cellPos x y)
  let around (ch : Nat) : List Nat :=
    ([0, 1, 2].flatMap fun dy => [0, 1, 2].map fun dx => (dy, dx)).filterMap fun e =>
      match rows.getD e.1 none, mirrorCol w ((x : Int) + e.2 - 1) with
      | some r, some i => if cfaChan cfa (cellPos i (y + e.1 + 1)) = ch then some (val r i) else none
      | _, _ => none
  (List.range nch).map fun ch =>
    if ch = own then (match rows.getD 1 none with | some r => val r x | none => 0)
    else
      let l := around ch
      if l.isEmpty then fv (4 * x + ch) % 65536 else (l.foldl (· + ·) 0 + l.length / 2) / l.length

/-- Stage 4. -/
def colourMatrix (p : Pal) (nch : Nat) (x : List Nat) : List Nat :=
  (List.range nch).map fun i =>
    let sum := (List.range 4).foldl (fun (a : Int) j => a + p.m i j * ((x.getD j 0 : Nat) : Int)) 0
    (clampInt 0 65535 (floorDivNat (sum + 2048) 4096 + p.mofs i)).toNat

/-- Stage 5. -/
def toneCurve (p : Pal) (tabs : List Byte) (y : List Nat) : List Nat :=
  (y.zip (List.range y.length)).map fun e =>
    let k : Nat := e.1 / 256
    let f : Nat := e.1 % 256
    let a : Int := p.tone tabs e.2 k
    let b : Int := p.tone tabs e.2 (k + 1)
    (a + floorDivNat ((b - a) * (f : Int) + 128) 256).toNat % 65536

/-- Stages 3 to 5 on row `y`: the output values of its pixels. -/
def backStages (p : Pal) (tabs : List Byte) (dt cfa w y : Nat) (above here below : Option PixRow) (fv : Nat → Nat) : PixRow :=
  let nch := p.nch dt cfa
  match here with
  | none => []
  | some row =>
    (row.zip (List.range w)).map fun e =>
      let v := if p.runs 3 dt cfa then demosaic cfa w y e.2 [above, here, below] nch fv else e.1
      let v := if p.runs 4 dt cfa then colourMatrix p nch v else v
      if p.runs 5 dt cfa then toneCurve p tabs v else v

/-- An 8-bit output value. -/
def out8 (v : Nat) : Nat := min 255 ((v + 128) / 256)

/-- The bytes of an output row: one or two bytes per value. -/
def rowBytes (ofmt : Nat) (row : PixRow) : List Byte := row.flatten.flatMap fun v => if ofmt = 2 then bytesLE 2 v else bytesLE 1 (out8 v)

end Sys2Proof.Machine
end

