-- ==== Sys2Proof/Machine/Cam.lean ====
section
/-! DEFINITION. CAM (chapter 15): links, sensor control, frames, the line store, pipelines, contexts and frame records. -/

namespace Sys2Proof.Machine

/-! ### Frame flags (Table 15-7) -/

def frSHORT : Nat := 0
def frLONG : Nat := 1
def frLPAD : Nat := 2
def frLTRUNC : Nat := 3
def frDROPBUSY : Nat := 4
def frDROPNOBUF : Nat := 5
def frFENDROP : Nat := 6
def frOVF : Nat := 7
def frNOFE : Nat := 8
def frLINKLOST : Nat := 9
def frCRC : Nat := 10
def frHDRERR : Nat := 11
def frNOSTB : Nat := 12
def frNEWPAL : Nat := 13
def frGAP : Nat := 14
def frDESTROY : Nat := 15

def CamFrame.flag (i : Nat) (f : CamFrame) : CamFrame := { f with flags := putBits f.flags i 1 1 }

/-! ### Access -/

def State.camCtx (s : State) (x : Nat) : Option CamCtx := tget s.cam.ctxs x
def State.setCtxC (x : Nat) (c : CamCtx) (s : State) : State := { s with cam := { s.cam with ctxs := tput s.cam.ctxs x c } }
def State.setFrame (k : Nat) (f : CamFrame) (s : State) : State := { s with cam := { s.cam with frames := tput s.cam.frames k f } }
def State.modFrame (k : Nat) (g : CamFrame → CamFrame) (s : State) : State :=
  match tget s.cam.frames k with
  | some f => s.setFrame k (g f)
  | none => s
def State.camPipe (s : State) (p : Nat) : CamPipe := tgetD s.cam.pipes p {}
def State.setPipe (p : Nat) (v : CamPipe) (s : State) : State := { s with cam := { s.cam with pipes := tput s.cam.pipes p v } }

/-- A context that commands may name: one whose destruction has been taken no longer holds an object for later commands
(R124). -/
def State.camLive (s : State) (x : Nat) : Bool := (s.camCtx x).any fun c => c.dying.isNone

def CamCtx.pal (c : CamCtx) : Pal := { addr := c.palAddr, hdr := c.palHdr }
def CamFrame.pal (f : CamFrame) : Pal := { addr := f.palAddr, hdr := f.palHdr }

/-- Bytes of a line in the store (R331). -/
def CamCtx.lineUnits (c : CamCtx) : Nat := ceilDiv (ceilDiv (c.width * dtBits c.dt) 8) 64 * 64

/-- Row stride and buffer size (R338) under a Palette. -/
def CamCtx.stride (c : CamCtx) (p : Pal) : Nat := ceilDiv (c.width * p.nch c.dt c.cfa * c.ofmt) 64 * 64
def CamCtx.bufSize (c : CamCtx) (p : Pal) : Nat := c.stride p * c.height + (if c.ltab then 8 * c.height else 0)

/-- Bytes reserved in a link's store. -/
def State.storeUsed (s : State) (l : Nat) : Nat :=
  s.cam.frames.foldl (fun a e =>
    match s.camCtx e.2.ctx with
    | some c => if c.src / 4 = l then a + (e.2.store.filter (·.isSome)).length * c.lineUnits else a
    | none => a) 0

/-- The registers of links, pipelines and contexts follow. -/
def State.camShow (s : State) : State :=
  let s := (s.set CAM_STATUS.CONTEXTS s.cam.ctxs.length).set CAM_STATUS.LINKS_UP
    ((List.range 4).foldr (fun l m => 2 * m + b2n (s.getB (CAM_LNK_STAT.UP l))) 0)
  let s := (List.range 4).foldl (fun s l =>
    let u := s.storeUsed l / 64 / 1024
    let s := s.set (CAM_LNK_STORE.USED l) u
    if s.get (CAM_LNK_STORE.PEAK l) < u then s.set (CAM_LNK_STORE.PEAK l) u else s) s
  let s := (List.range 8).foldl (fun s p =>
    let w := (s.cam.frames.filter fun e => e.2.pl = p && e.2.st = .waiting).length
    let s := s.set (CAM_PL_STAT.WAITING p) w
    match (s.camPipe p).run with
    | some k => (s.setB (CAM_PL_STAT.BUSY p) true).set (CAM_PL_STAT.CTX p) ((tget s.cam.frames k).map (·.ctx) |>.getD 0)
    | none => (s.setB (CAM_PL_STAT.BUSY p) false).set (CAM_PL_STAT.CTX p) 0) s
  (List.range 32).foldl (fun s x =>
    match s.camCtx x with
    | some c => (((s.setB (CAM_CTX_STAT.LIVE x) true).set (CAM_CTX_STAT.SRC x) c.src).set (CAM_CTX_STAT.PL x) c.pl).set (CAM_CTX_STAT.BUFQ x) c.bufs.length
    | none => (s.setReg (CAM_CTX_STAT x) 0#32).setReg (CAM_CTX_CSEQ x) 0#32) s

/-! ### Links (R324 to R326) -/

/-- Link in service; in use. -/
def State.lnkInSvc (s : State) (l : Nat) : Bool := s.imgFld (CAM_LNK_CAP.INSVC l) = 1

/-- The open frame of a source closes with flags `fl` (R327). -/
def State.closeFrame (src : Nat) (fl : List Nat) (s : State) : State :=
  match tget s.cam.openSrc src with
  | none => s
  | some k =>
    let s := { s with cam := { s.cam with openSrc := tdel s.cam.openSrc src } }
    match k with
    | none => s
    | some k => s.modFrame k fun f => fl.foldl (fun f i => f.flag i) { f with closed := some s.now }

/-- UP of a link changes: source 167; a loss closes its open frames. -/
def State.setUp (l : Nat) (up : Bool) (s : State) : State :=
  if s.getB (CAM_LNK_STAT.UP l) = up then s
  else
    let s := s.setB (CAM_LNK_STAT.UP l) up
    let s := if up then s
      else (List.range 4).foldl (fun s v => s.closeFrame (4 * l + v) [frNOFE, frLINKLOST]) (s.set (CAM_LNK_STAT.GEAR l) 0)
    (s.raise 167).camShow

/-- LINK (R322, R324): the link carries packets in a gear from G1 to G5 up to GEAR_MAX, or loses lock. -/
def execCamLink (l : Fin 4) (up : Bool) (gear : Fin 8) (s : State) : Out :=
  let i := l.val
  let may := s.getB CAM_CTRL.ENABLE && s.getB (CAM_LNK_CFG.EN i) && s.getB (CAM_LNK_CFG.POC_EN i)
  if up then
    .next (if may && 1 ≤ gear.val && gear.val ≤ 5 && gear.val ≤ s.get (CAM_LNK_CFG.GEAR_MAX i) then (s.set (CAM_LNK_STAT.GEAR i) gear.val).setUp i true else s)
  else .next (s.setUp i false)

/-- POC_SHORT (R324): above 450 mA for 1 ms. -/
def execPocShort (l : Fin 4) (s : State) : Out :=
  let i := l.val
  if !s.getB (CAM_LNK_STAT.POC_ON i) then .next s
  else
    let new := !s.getB (CAM_LNK_STAT.POC_SHORT i)
    let s := (((s.setB (CAM_LNK_STAT.POC_ON i) false).setB (CAM_LNK_STAT.POC_OPEN i) false).set (CAM_LNK_STAT.POC_MA i) 0).setB (CAM_LNK_STAT.POC_SHORT i) true
    .next (if new then s.raise 169 else s)

/-- POC_OPEN (R324): below 10 mA for 100 ms with the power on. -/
def execPocOpen (l : Fin 4) (ma : BitVec 9) (s : State) : Out :=
  let i := l.val
  if !s.getB (CAM_LNK_STAT.POC_ON i) || 10 ≤ ma.toNat then .next s
  else
    let new := !s.getB (CAM_LNK_STAT.POC_OPEN i)
    let s := (s.set (CAM_LNK_STAT.POC_MA i) ma.toNat).setB (CAM_LNK_STAT.POC_OPEN i) true
    .next (if new then s.raise 169 else s)

/-- POC_OPEN_CLEAR (R324): POC_OPEN follows the current. -/
def execPocOpenClear (l : Fin 4) (ma : BitVec 9) (s : State) : Out :=
  .next (if s.getB (CAM_LNK_STAT.POC_ON l.val) && 10 ≤ ma.toNat then (s.set (CAM_LNK_STAT.POC_MA l.val) ma.toNat).setB (CAM_LNK_STAT.POC_OPEN l.val) false else s)

/-- Power over coax of a link is switched. -/
def State.setPoc (l : Nat) (on : Bool) (s : State) : State :=
  let s := s.setB (CAM_LNK_STAT.POC_ON l) on
  if on then s else (s.setB (CAM_LNK_STAT.POC_OPEN l) false).set (CAM_LNK_STAT.POC_MA l) 0

/-- A write of CAM_LNK_CFG (R324, R343): ignored while ENABLE = 1 where it would set EN or POC_EN on a link out of service. -/
def State.writeLnkCfg (l : Nat) (value : Word) (s : State) : State :=
  let v := value.toNat
  let on := s.getB CAM_CTRL.ENABLE
  if on && (bitAt v 31 || bitAt v 30) && !s.lnkInSvc l then s
  else
    let old := s.getB (CAM_LNK_CFG.POC_EN l)
    let new := bitAt v 30
    let s := ((s.setB (CAM_LNK_CFG.EN l) (bitAt v 31)).setB (CAM_LNK_CFG.POC_EN l) new).set (CAM_LNK_CFG.VC_EN l) (bitsOf v 0 4)
    let s := if on then s else s.set (CAM_LNK_CFG.GEAR_MAX l) (bitsOf v 8 3)
    let s := if on && old ≠ new then s.setPoc l new else s
    if on && !bitAt v 31 then s.setUp l false else s

/-- CSI_PACKET (R325): a header is right (0), corrected (1) or uncorrectable (2). -/
def execCsiPacket (src : Fin 16) (hdr : Fin 3) (s : State) : Out :=
  let l := src.val / 4
  if !s.getB (CAM_LNK_STAT.UP l) then .next s
  else
    match hdr.val with
    | 0 => .next s
    | 1 =>
      let first := s.get (CAM_LNK_ERR.ECC_FIX l) = 0
      let s := s.bump (CAM_LNK_ERR.ECC_FIX l) 1
      .next (if first then s.raise 168 else s)
    | _ =>
      let first := s.get (CAM_LNK_ERR.HDR_LOST l) = 0
      let s := s.bump (CAM_LNK_ERR.HDR_LOST l) 1
      let s := match tget s.cam.openSrc src.val with
        | some (some k) => s.modFrame k (·.flag frHDRERR)
        | _ => s
      .next (if first then s.raise 168 else s)

/-- A write of CAM_LNK_CCI_CMD (R326): the transaction takes the bytes of CAM_LNK_CCI_DATA as they stand at its start. -/
def State.writeCci (l : Nat) (value : Word) (s : State) : State :=
  let v := value.toNat
  if !bitAt v 31 then s
  else if s.getB (CAM_LNK_CCI_STAT.BUSY l) || !s.getB (CAM_LNK_STAT.UP l) then s.setB (CAM_LNK_CCI_STAT.IGN l) true
  else
    let n := bitsOf v 28 2 + 1
    let t : CciTx := { read := bitAt v 30, n := n, dev := bitsOf v 16 7, target := bitsOf v 0 16, data := bytesLE n (s.reg (CAM_LNK_CCI_DATA l)).toNat }
    let s := { s with cam := { s.cam with cci := tput s.cam.cci l t } }
    (((s.setB (CAM_LNK_CCI_STAT.DONE l) false).setB (CAM_LNK_CCI_STAT.NACK l) false).setB (CAM_LNK_CCI_STAT.TIMEOUT l) false).setB
      (CAM_LNK_CCI_STAT.BUSY l) true

/-- CCI (R326): the transaction ends: 0 DONE, 1 NACK, 2 TIMEOUT. A read leaves its bytes in CCI_DATA. -/
def execCciEnd (l : Fin 4) (result : Fin 3) (data : Word) (s : State) : Out :=
  match tget s.cam.cci l.val with
  | none => .next s
  | some t =>
    let i := l.val
    let s := { s with cam := { s.cam with cci := tdel s.cam.cci i } }.setB (CAM_LNK_CCI_STAT.BUSY i) false
    let f := match result.val with
      | 0 => CAM_LNK_CCI_STAT.DONE i
      | 1 => CAM_LNK_CCI_STAT.NACK i
      | _ => CAM_LNK_CCI_STAT.TIMEOUT i
    let s := s.setB f true
    let s := if t.read && result.val = 0 then s.set ⟨CAM_LNK_CCI_DATA i, 0, 8 * t.n⟩ data.toNat else s
    .next (s.raise 173)

/-! ### Pipelines (R332, R334) -/

/-- Nanoseconds of `n` CAM cycles, rounded up. -/
def camNs (n : Nat) : Nat := ceilDiv (5 * n) 3

/-- A pipeline takes frame `k` and switches to it. -/
def State.pipeTake (p k : Nat) (s : State) : State :=
  match tget s.cam.frames k with
  | none => s
  | some f =>
    let h := s.handle 4 f.ctx
    let same := (s.camPipe p).last = some h
    (s.setFrame k { f with st := .running }).setPipe p { run := some k, readyAt := s.now + camNs (if same then 1200 else 7200), last := some h }

/-- The waiting frame of a pipeline whose FS arrived first; a tie goes to the lower source. -/
def State.pipeNext (s : State) (p : Nat) : Option Nat :=
  let src (f : CamFrame) : Nat := ((s.camCtx f.ctx).map (·.src)).getD 0
  ((s.cam.frames.filter fun e => e.2.pl = p && e.2.st = .waiting).foldl (fun b e =>
    match b with
    | none => some e
    | some g => if e.2.fsAt < g.2.fsAt || (e.2.fsAt = g.2.fsAt && src e.2 < src g.2) then some e else some g) (none : Option (Nat × CamFrame))).map (·.1)

/-- FEN output of a frame ends (R338). -/
def State.fenDropFrame (k : Nat) (s : State) : State :=
  (s.modFrame k (fun f => { f.flag frFENDROP with fen := false })).bump CAM_FEN_DROP.FRAMES 1 |>.raise 170

/-- Output row `y` of frame `k` goes to its buffer, with its line stamp, and to FEN. -/
def State.putRow (k y : Nat) (above here below : Option PixRow) (s : State) : State :=
  match tget s.cam.frames k with
  | none => s
  | some f =>
    match s.camCtx f.ctx with
    | none => s
    | some c =>
      let p := f.pal
      let n := p.nch c.dt c.cfa
      let fv (i : Nat) : Nat := Config.freeValue (s.free + i)
      let clean := backStages p f.tabs c.dt c.cfa c.width y above here below fv
      let row := if f.undef then (List.range c.width).map fun x => (List.range n).map fun ch => fv (4 * x + ch) % 65536 else clean
      let s := { s with free := s.free + 4 * c.width }
      let s := match f.buf with
        | some b =>
          let s := s.blockPuts 0x09 (b + y * c.stride p) (rowBytes c.ofmt row)
          match c.ltab, tget f.stamps y with
          | true, some t => s.blockPuts 0x09 (b + c.stride p * c.height + 8 * y) (bytesLE 8 t)
          | _, _ => s
        | none => s
      if f.fen then
        let (s, ok) := s.fenLine c.fen k c.width n (rowBytes 1 row)
        if ok then s else s.fenDropFrame k
      else s

/-- PIPELINE_LINE (R334, R336): the next stored line of the running frame enters processing, freeing its place; the row above
it is complete and goes out. A Palette whose tables have changed since the frame's first line leaves its pixels undefined
(R345). -/
def State.pipelineLine (p : Nat) (s : State) : State :=
  match (s.camPipe p).run with
  | none => s
  | some k =>
    match tget s.cam.frames k with
    | none => s
    | some f =>
      match f.store, s.camCtx f.ctx with
      | line :: rest, some c =>
        if s.now < (s.camPipe p).readyAt then s
        else
          let pal := f.pal
          let now := s.palTables pal c.dt c.cfa
          let tabs := if f.entered = 0 then now else f.tabs
          let undef := f.undef || decide (tabs ≠ now)
          let fv (i : Nat) : Nat := Config.freeValue (s.free + i)
          let raw := match line with
            | some b => rawRow c.dt c.width b
            | none => rawRow c.dt c.width []
          let row := frontStages pal tabs c.dt c.cfa c.width c.height f.entered fv raw
          let s := { s with free := s.free + c.width }
          let s := if f.entered = 0 && pal.runs 1 c.dt c.cfa then s.bump (CAM_CTX_STAT.PAL_SKIP f.ctx) (pal.defects tabs c.width c.height).2 else s
          let y := f.entered
          let f' := { f with
            store := rest, entered := y + 1, tabs := tabs, undef := undef, firstIn := some (f.firstIn.getD s.now)
            win := (if f.win.length < 2 then f.win else f.win.drop 1) ++ [row] }
          let s := (s.setFrame k f').setPipe p { s.camPipe p with readyAt := s.now + camNs (ceilDiv c.width 2 + 32) }
          let s := match y, f.win with
            | 0, _ => s
            | 1, [a] => s.putRow k 0 (some row) (some a) (some row)
            | _, [a, b] => s.putRow k (y - 1) (some a) (some b) (some row)
            | _, _ => s
          s.camShow
      | _, _ => s

/-- PIPELINE_LINE (R334). -/
def execPipelineLine (p : Fin 8) (s : State) : Out := .next (s.pipelineLine p.val)

/-- The last row of frame `k` goes out, the row beyond it mirrored. -/
def State.flushLast (k : Nat) (s : State) : State :=
  match tget s.cam.frames k with
  | none => s
  | some f =>
    match f.entered, f.win with
    | 0, _ => s
    | n + 1, [a] => s.putRow k n none (some a) none
    | n + 1, [a, b] => s.putRow k n (some a) (some b) (some a)
    | _, _ => s

/-- Every row written of an undefined frame, and every row FEN holds of it, takes free values: its pixels are undefined as a whole
(R345). -/
def State.blurFrame (k : Nat) (s : State) : State :=
  match tget s.cam.frames k with
  | none => s
  | some f =>
    match s.camCtx f.ctx with
    | none => s
    | some c =>
      if !f.undef then s
      else
        let s := if f.fen then s.fenBlur c.fen k else s
        match f.buf with
        | none => s
        | some b =>
          let n := c.width * f.pal.nch c.dt c.cfa * c.ofmt
          (List.range f.entered).foldl (fun s y =>
            let s' := s.blockPuts 0x09 (b + y * c.stride f.pal) ((List.range n).map fun i => BitVec.ofNat 8 (Config.freeValue (s.free + i)))
            { s' with free := s.free + n }) s

/-- PIPELINE_SWITCH (R332): the running frame has closed, or HEIGHT lines have entered, and its last line has been processed:
the pipeline is released and takes the earliest waiting frame. -/
def execPipelineSwitch (p : Fin 8) (s : State) : Out :=
  let q := s.camPipe p.val
  match q.run with
  | none =>
    match s.pipeNext p.val with
    | some n => .next ((s.pipeTake p.val n).camShow)
    | none => .next s
  | some k =>
    match tget s.cam.frames k with
    | none => .next (s.setPipe p.val { q with run := none })
    | some f =>
      let h := ((s.camCtx f.ctx).map (·.height)).getD 0
      if !f.store.isEmpty || s.now < q.readyAt || (f.closed.isNone && f.entered < h) then .next s
      else
        let s := (s.flushLast k).blurFrame k
        let s := s.modFrame k fun f => { f with st := .released (s.now + camNs 400), win := [] }
        let s := (s.setPipe p.val { q with run := none }).wrapInc (CAM_PL_STAT.FRAMES p.val)
        let s := match s.pipeNext p.val with
          | some n => s.pipeTake p.val n
          | none => s
        .next s.camShow

/-! ### Frames (R327 to R333) -/

/-- SOF_LTC of a frame of `c` whose FS arrives now, and whether a strobe was missed (R328). -/
def State.sofOf (s : State) (c : CamCtx) : Nat × Bool :=
  if c.stb = 0xFF then (s.now - c.roOfs, false)
  else
    match ((tgetD s.tms.rises (c.stb + 1) []).filter fun t => s.now ≤ t + 1000 * c.stbWin && t ≤ s.now).getLast? with
    | some t => (t, false)
    | none => (s.now - c.roOfs, true)

/-- The frame that context `x` takes at a frame start (R327, R332, R338, R341), as the context's next in sequence. `fenUp`: FEN is loaded
and does not reconfigure. -/
def newFrame (no x : Nat) (c : CamCtx) (at_ sof : Nat) (missed fenUp : Bool) : CamFrame :=
  let buf := if c.ofmt = 0 then none else c.bufs.head?
  let fen := decide (c.fen ≠ 0) && fenUp
  let st : FrameState := if buf.isNone && !fen then .unprocessed else .waiting
  let f : CamFrame := {
    ctx := x, no := no, pl := c.pl, fsAt := at_, sof := sof, st := st, buf := buf, cseq := (c.cseq + 1) % 2 ^ 32, fen := fen
    palAddr := c.palAddr, palHdr := c.palHdr }
  let f := if c.fen ≠ 0 && !fenUp then f.flag frFENDROP else f
  let f := if c.newPal then f.flag frNEWPAL else f
  let f := if missed then f.flag frNOSTB else f
  if c.ofmt ≠ 0 && c.bufs.isEmpty then f.flag frDROPNOBUF else f

/-- A frame start on virtual channel `i` opens a frame of context `x`; a waiting one goes to an idle pipe at once. -/
def State.frameOpen (i no x : Nat) (c : CamCtx) (s : State) : State :=
  let k := s.cam.nextFrame
  let f := newFrame no x c s.now (s.sofOf c).1 (s.sofOf c).2 (s.loaded 4 && !s.busy 4)
  let s := { s with cam := { s.cam with nextFrame := k + 1, openSrc := tput s.cam.openSrc i (some k) } }
  let s := (s.setCtxC x { c with newPal := false, cseq := f.cseq, bufs := if c.ofmt = 0 then c.bufs else c.bufs.tail }).setFrame k f
  let s := if bitAt f.flags frFENDROP then (s.bump CAM_FEN_DROP.FRAMES 1).raise 170 else s
  let s := if c.ofmt ≠ 0 && c.bufs.isEmpty then s.raise 164 else s
  if f.st = .waiting && (s.camPipe c.pl).run.isNone && s.pipeNext c.pl = some k then s.pipeTake c.pl k else s

/-- FS (R327 to R329, R332, R338). -/
def execFrameStart (src : Fin 16) (no : BitVec 16) (s : State) : Out :=
  let i := src.val
  let l := i / 4
  if !s.getB CAM_CTRL.ENABLE || !s.getB (CAM_LNK_STAT.UP l) || !bitAt (s.get (CAM_LNK_CFG.VC_EN l)) (i % 4) then .next s
  else
    let s := s.closeFrame i [frNOFE]
    match s.cam.ctxs.find? fun e => e.2.src = i && e.2.dying.isNone && no.toNat % e.2.fselMod = e.2.fsel with
    | none =>
      let s := { s with cam := { s.cam with openSrc := tput s.cam.openSrc i none } }
      .next (((s.bump (CAM_LNK_CNT.NOCTX l) 1).raise 171).camShow)
    | some (x, c) => .next (s.frameOpen i no.toNat x c).camShow

/-- FE (R327). -/
def execFrameEnd (src : Fin 16) (s : State) : Out :=
  let i := src.val
  let l := i / 4
  if !s.getB CAM_CTRL.ENABLE || !s.getB (CAM_LNK_STAT.UP l) || !bitAt (s.get (CAM_LNK_CFG.VC_EN l)) (i % 4) then .next s
  else if (tget s.cam.openSrc i).isSome then .next ((s.closeFrame i []).camShow)
  else .next (s.bump (CAM_LNK_CNT.ORPHAN l) 1)

/-- FRAME_TIMEOUT (R327). -/
def execFrameTimeout (src : Fin 16) (s : State) : Out :=
  match tget s.cam.openSrc src.val with
  | some (some k) =>
    match tget s.cam.frames k with
    | some f =>
      let fto := ((s.camCtx f.ctx).map (·.fto)).getD 0
      .next (if fto ≠ 0 && fto * 1000000 ≤ s.since f.fsAt then (s.closeFrame src.val [frNOFE]).camShow else s)
    | none => .next s
  | _ => .next s

/-- Frame `k` is dropped whole while it waits. -/
def State.dropFrame (k flag : Nat) (s : State) : State := s.modFrame k fun f => { f.flag flag with st := .dropped, store := [], stamps := [] }

/-- The waiting frames of a link, latest FS first. -/
def State.waitingOf (s : State) (l : Nat) : List Nat :=
  ((s.cam.frames.filter fun e => e.2.st = .waiting && ((s.camCtx e.2.ctx).map (·.src / 4)) = some l).map (·.1)).reverse

/-- Waiting frames of a link are dropped, latest first, until `n` bytes fit (R333). -/
def dropUntil (l n : Nat) : List Nat → State → State
  | [], s => s
  | k :: ks, s => if s.storeUsed l + n ≤ 4194304 then s else dropUntil l n ks ((s.dropFrame k frDROPBUSY).raise 163)

/-- A line of `n` pixels is kept in a frame of context `c` (R328, R330): padded or truncated to WIDTH, and stamped. -/
def CamFrame.keep (c : CamCtx) (n at_ : Nat) (payload : List Byte) (f : CamFrame) : CamFrame :=
  let f := if n < c.width then { f.flag frLPAD with padded := satTo 0xFFFF (f.padded + 1) } else f
  let f := if c.width < n then { f.flag frLTRUNC with trunc := satTo 0xFFFF (f.trunc + 1) } else f
  { f with lines := f.lines + 1, store := f.store ++ [some payload], stamps := tput f.stamps f.lines (at_ - c.roOfs) }

/-- A line of frame `k` of context `c` is stored, or lost (R330, R331, R333). -/
def State.storeLine (k : Nat) (c : CamCtx) (payload : List Byte) (s : State) : State :=
  let l := c.src / 4
  match tget s.cam.frames k with
  | none => s
  | some f =>
    match f.st with
    | .unprocessed => s.modFrame k fun f => { f with lines := f.lines + 1 }
    | .dropped => s.modFrame k fun f => { f with lines := f.lines + 1 }
    | _ =>
      let s := dropUntil l c.lineUnits (s.waitingOf l) s
      match tget s.cam.frames k with
      | none => s
      | some f =>
        if f.st = .dropped then s.modFrame k fun f => { f with lines := f.lines + 1 }
        else if s.storeUsed l + c.lineUnits ≤ 4194304 then
          s.modFrame k (·.keep c (linePixels c.dt payload) s.now payload)
        else
          let s := s.modFrame k fun f => { f.flag frOVF with lines := f.lines + 1, store := f.store ++ [none], zlines := satTo 0xFFFF (f.zlines + 1) }
          s.raise 172

/-- A long packet whose CRC fails is counted; the first one raises a source (R325). -/
def State.lineCrc (l : Nat) (s : State) : State :=
  let t := s.bump (CAM_LNK_ERR.CRC l) 1
  if s.get (CAM_LNK_ERR.CRC l) = 0 then t.raise 168 else t

/-- A line of open frame `k`: stored, or counted as excess once the frame has all its lines (R330, R331, R333). -/
def State.lineOf (k : Nat) (payload : List Byte) (s : State) : State :=
  match tget s.cam.frames k with
  | none => s
  | some f =>
    match s.camCtx f.ctx with
    | none => s
    | some c =>
      if c.height ≤ f.lines then s.modFrame k fun f => { f.flag frLONG with excess := satTo 0xFFFF (f.excess + 1) }
      else (s.storeLine k c payload).camShow

/-- LINE_PACKET (R323, R325, R330, R331, R333): a long packet arrives with its payload. -/
def execLinePacket (src : Fin 16) (dt : BitVec 6) (payload : List Byte) (crcOk : Bool) (s : State) : Out :=
  let i := src.val
  let l := i / 4
  if !s.getB CAM_CTRL.ENABLE || !s.getB (CAM_LNK_STAT.UP l) then .next s
  else
    let s := if crcOk then s else s.lineCrc l
    if !bitAt (s.get (CAM_LNK_CFG.VC_EN l)) (i % 4) || dtBits dt.toNat = 0 then .next (s.bump (CAM_LNK_CNT.OTHER l) 1)
    else match tget s.cam.openSrc i with
    | none => .next (s.bump (CAM_LNK_CNT.ORPHAN l) 1)
    | some none => .next s
    | some (some k) => .next ((if crcOk then s else s.modFrame k (·.flag frCRC)).lineOf k payload)

/-! ### Records (R342) -/

def State.frMod (s : State) : Nat := 2 * 2 ^ s.get CAM_FR_CFG.FLEN
def State.frFill (s : State) : Nat := (s.get CAM_FR_PI.PI + s.frMod - s.get CAM_FR_CI.CI) % s.frMod

/-- A write of CAM_FR_CI (R288, R342). -/
def State.writeFrCi (value : Word) (s : State) : State :=
  let v := value.toNat % 2 ^ 15
  if !s.getB CAM_CTRL.ENABLE || s.frMod ≤ v || s.frMod / 2 < (s.get CAM_FR_PI.PI + s.frMod - v) % s.frMod then s
  else s.set CAM_FR_CI.CI v

/-- LTC at which a frame's record is due, once it has closed and its outputs are complete, or it was dropped and has closed. -/
def CamFrame.dueAt (f : CamFrame) : Option Nat :=
  match f.closed, f.st with
  | some c, .released d => some (max c d)
  | some c, .dropped => some c
  | some c, .unprocessed => some c
  | _, _ => none

/-- The bytes of a frame record (Table 15-7). -/
def frameRecord (h rseq : Nat) (c : CamCtx) (f : CamFrame) : List Byte :=
  let used := match f.st with | .released _ => f.pl | _ => 0xFF
  let wait := match f.firstIn with | some t => satTo 0xFFFFFFFF ((t - f.fsAt) / 1000) | none => 0
  bytesLE 4 h ++ bytesLE 1 c.src ++ bytesLE 1 used ++ bytesLE 2 f.flags ++ bytesLE 2 f.no ++ bytesLE 2 f.entered ++ bytesLE 2 f.excess
    ++ bytesLE 2 f.padded ++ bytesLE 2 f.trunc ++ bytesLE 2 f.zlines ++ bytesLE 4 f.cseq ++ bytesLE 8 f.sof ++ bytesLE 8 (f.closed.getD 0)
    ++ bytesLE 8 (f.buf.getD 0) ++ bytesLE 4 f.pal.id ++ bytesLE 4 wait ++ bytesLE 4 rseq ++ bytesLE 4 0

/-- A context whose destruction waits is freed once no frame of it is left. -/
def State.ctxMaybeFree (x : Nat) (s : State) : State :=
  match s.camCtx x with
  | some c =>
    match c.dying with
    | some id =>
      if s.cam.frames.any (fun e => e.2.ctx = x) then s
      else
        let s := { s with cam := { s.cam with ctxs := tdel s.cam.ctxs x } }
        s.completeSelf 0x09 0 id 0x00
    | none => s
  | none => s

/-- The frame with the flags its record adds: SHORT, and GAP where records were dropped and this one is written (R330, R342). -/
def State.closedFlags (s : State) (c : CamCtx) (f : CamFrame) : CamFrame :=
  let f := if f.lines < c.height then f.flag frSHORT else f
  if s.cam.recGap && s.frFill < s.frMod / 2 then f.flag frGAP else f

/-- The record of frame `f` of context `c`, or the drop where the ring is full (R342). -/
def State.frRecPut (c : CamCtx) (f : CamFrame) (s : State) : State :=
  if s.frMod / 2 ≤ s.frFill then { s with cam := { s.cam with recGap := true } }.bump CAM_FR_DROP.DROP 1 |>.raise 162
  else
    let seq := if s.cam.recSeq = 0xFFFFFFFF then 1 else s.cam.recSeq + 1
    let pi := s.get CAM_FR_PI.PI
    let s := s.dramPuts (s.get64 CAM_FR_BASE_LO CAM_FR_BASE_HI + 64 * (pi % (s.frMod / 2))) (frameRecord (s.handle 4 f.ctx) seq c f)
    let s := (s.set CAM_FR_PI.PI ((pi + 1) % s.frMod)).set (CAM_CTX_CSEQ.CSEQ f.ctx) f.cseq
    let s := { s with cam := { s.cam with recGap := false, recSeq := seq } }
    let s := if c.irq then s.raise 161 else s
    let s := if bitAt f.flags frSHORT || bitAt f.flags frLONG then s.raise 165 else s
    if bitAt f.flags frLPAD || bitAt f.flags frLTRUNC then s.raise 166 else s

/-- FRAME (R342): the earliest completed frame writes its record, passes its buffer back, and closes its FEN job's input. -/
def execCamFrame (s : State) : Out :=
  let due := s.cam.frames.foldl (fun (b : Option (Nat × Nat)) e =>
    match e.2.dueAt with
    | some t => if s.now < t then b else (match b with | none => some (e.1, t) | some g => if t < g.2 then some (e.1, t) else b)
    | none => b) none
  match due with
  | none => .next s
  | some (k, _) =>
    match tget s.cam.frames k with
    | none => .next s
    | some f =>
      match s.camCtx f.ctx with
      | none => .next { s with cam := { s.cam with frames := tdel s.cam.frames k } }
      | some c =>
        let f := s.closedFlags c f
        let s := if f.fen then s.fenFrameEnd c.fen k f.sof f.cseq (decide (f.flags ≠ 0)) else s
        let s := { s with cam := { s.cam with frames := tdel s.cam.frames k } }
        let s := s.frRecPut c f
        .next ((s.ctxMaybeFree f.ctx).camShow)

/-! ### Commands (R339 to R341) -/

/-- Do two frame selectors overlap? -/
def fselOverlap (m1 f1 m2 f2 : Nat) : Bool := (List.range 12).any fun n => n % m1 = f1 && n % m2 = f2

/-- Load of a pipeline in 0.1 pixel/s. -/
def State.pipeLoad (s : State) (p : Nat) : Nat :=
  s.cam.ctxs.foldl (fun a e => if e.2.pl = p then a + e.2.width * e.2.height * e.2.maxFps else a) 0

def State.defaultPl (s : State) (src : Nat) : Nat := s.imgFld (CAM_SRC_DEF.PL src)

/-- CTX_CREATE: the codes that apply (R340). -/
def State.ctxCodes (s : State) (c : Cmd) : List (Bool × Nat) :=
  let src := c.arg 16 1
  let dt := c.arg 17 1
  let cfa := c.arg 18 1
  let pl := c.arg 19 1
  let m := c.arg 20 1
  let f := c.arg 21 1
  let opt := c.arg 22 1
  let stb := c.arg 23 1
  let w := c.arg 24 2
  let h := c.arg 26 2
  let fps := c.arg 28 2
  let fen := c.arg 48 4
  let p : Pal := { addr := c.arg 40 8, hdr := memBytes s.dram (c.arg 40 8) 256 }
  let range := 15 < src || dtBits dt = 0 || 6 < cfa || (7 < pl && pl ≠ 0xFF) || m = 0 || 4 < m || m ≤ f || 15 < opt || bitsOf opt 2 2 = 3
    || (3 < stb && stb ≠ 0xFF) || w = 0 || 8192 < w || h = 0 || 8192 < h || fps = 0 || 10000 < fps || 1000 < c.arg 30 2
    || 10000000 < c.arg 32 4 || (stb ≠ 0xFF && c.arg 36 2 = 0)
  let pipe := if pl = 0xFF then s.defaultPl src else pl
  [(fen ≠ 0 && !s.busy 4 && !s.loaded 4, 0x01), (fen ≠ 0 && s.busy 4, 0x02), (fen ≠ 0 && (s.checkHandle 5 s.strLive fen).isSome, 0x03),
   ((tfree s.cam.ctxs 32).isNone, 0x04), (range || !s.palRangeOk p, 0x05), (decide (12000000000 < s.pipeLoad pipe + w * h * fps), 0x07),
   (src ≤ 15 && (!s.lnkInSvc (src / 4) || s.imgFld (CAM_SRC_DEF.INSVC src) = 0), 0x08), (!p.formatOk, 0x0E),
   (decide (m ≠ 0) && s.cam.ctxs.any (fun e => e.2.src = src && fselOverlap m f e.2.fselMod e.2.fsel), 0x20),
   (!dtRaw dt && cfa ≠ 0, 0x21)]

/-- CTX_CREATE (R339). -/
def opCtxCreate (c : Cmd) (s : State) : State :=
  match (lowestOfCodes (s.ctxCodes c)), tfree s.cam.ctxs 32 with
  | none, some x =>
    let opt := c.arg 22 1
    let src := c.arg 16 1
    let t : CamCtx := {
      src := src, dt := c.arg 17 1, cfa := c.arg 18 1, pl := if c.arg 19 1 = 0xFF then s.defaultPl src else c.arg 19 1, fselMod := c.arg 20 1
      fsel := c.arg 21 1, irq := bitAt opt 0, ltab := bitAt opt 1, ofmt := bitsOf opt 2 2, stb := c.arg 23 1, width := c.arg 24 2
      height := c.arg 26 2, maxFps := c.arg 28 2, fto := c.arg 30 2, roOfs := c.arg 32 4, stbWin := c.arg 36 2, palAddr := c.arg 40 8
      palHdr := memBytes s.dram (c.arg 40 8) 256, fen := c.arg 48 4 }
    let s := ((s.wipeRegs (CAM_CTX_STAT x) 32).advGen 4 x).setCtxC x t
    c.created (s.handle 4 x) s.camShow
  | some code, _ => c.failed code s
  | none, none => c.failed 0x04 s
where
  /-- The lowest code that applies. -/
  lowestOfCodes (l : List (Bool × Nat)) : Option Nat :=
    ((l.filter (·.1)).map (·.2)).foldl (fun m c => match m with | none => some c | some d => some (min c d)) none

/-- CTX_CREATE (R339). -/
def execCtxCreate (ring : Fin 1) (e : Entry) (s : State) : Out := .next (s.runRow 0x09 ring.val 1 0 e opCtxCreate)

/-- CTX_DESTROY (R341). -/
def opCtxDestroy (c : Cmd) (s : State) : State :=
  match s.checkHandle 4 s.camLive c.handle with
  | some code => c.finish code s
  | none =>
    let x := hIndex c.handle
    let w := (s.cam.frames.filter fun e => e.2.ctx = x && e.2.st = .waiting).map (·.1)
    let s := w.foldl (fun s k => s.dropFrame k frDESTROY) s
    let s := match s.camCtx x with
      | some t => s.setCtxC x { t with dying := some c.id, bufs := [] }
      | none => s
    (s.ctxMaybeFree x).camShow

/-- CTX_DESTROY (R341). -/
def execCtxDestroy (ring : Fin 1) (e : Entry) (s : State) : Out := .next (s.runRow 0x09 ring.val 2 0 e opCtxDestroy)

/-- A command on a live context. -/
def onCtx (c : Cmd) (f : Nat → CamCtx → State → State) (s : State) : State :=
  match s.checkHandle 4 s.camLive c.handle with
  | some code => c.finish code s
  | none =>
    match s.camCtx (hIndex c.handle) with
    | some t => f (hIndex c.handle) t s
    | none => c.finish 0x03 s

/-- CTX_PALETTE (R337, R341). -/
def opCtxPalette (c : Cmd) (s : State) : State :=
  onCtx c (fun x t s =>
    let p : Pal := { addr := c.arg 16 8, hdr := memBytes s.dram (c.arg 16 8) 256 }
    if !s.palRangeOk p then c.finish 0x05 s
    else if !p.formatOk then c.finish 0x0E s
    else c.finish 0x00 (s.setCtxC x { t with palAddr := p.addr, palHdr := p.hdr, newPal := true })) s

/-- CTX_PALETTE (R341). -/
def execCtxPalette (ring : Fin 1) (e : Entry) (s : State) : Out := .next (s.runRow 0x09 ring.val 3 0 e opCtxPalette)

/-- BUF_GIVE (R341). -/
def opBufGive (c : Cmd) (s : State) : State :=
  onCtx c (fun x t s =>
    let a := c.arg 16 8
    if a % 64 ≠ 0 || !s.inWins 0x09 a (t.bufSize t.pal) then c.finish 0x05 s
    else if 16 ≤ t.bufs.length then c.finish 0x22 s
    else c.finish 0x00 (s.setCtxC x { t with bufs := t.bufs ++ [a] }).camShow) s

/-- BUF_GIVE (R341). -/
def execBufGive (ring : Fin 1) (e : Entry) (s : State) : Out := .next (s.runRow 0x09 ring.val 4 0 e opBufGive)

/-- CTX_BIND (R341). -/
def opCtxBind (c : Cmd) (s : State) : State :=
  onCtx c (fun x t s =>
    let pl := c.arg 16 1
    let p := if pl = 0xFF then s.defaultPl t.src else pl
    let load := s.pipeLoad p + (if p = t.pl then 0 else t.width * t.height * t.maxFps)
    if 7 < pl && pl ≠ 0xFF then c.finish 0x05 s
    else if 12000000000 < load then c.finish 0x07 s
    else c.finish 0x00 (s.setCtxC x { t with pl := p }).camShow) s

/-- CTX_BIND (R341). -/
def execCtxBind (ring : Fin 1) (e : Entry) (s : State) : Out := .next (s.runRow 0x09 ring.val 5 0 e opCtxBind)

/-- A read of CAM_CTX_STAT latches CAM_CTX_CSEQ for the core; PAL_SKIP then clears. -/
def State.readCamCtx (core x : Nat) (s : State) : State :=
  ((s.latchFor core (CAM_CTX_CSEQ x) (s.reg (CAM_CTX_CSEQ x))).answer core (s.reg (CAM_CTX_STAT x))).set (CAM_CTX_STAT.PAL_SKIP x) 0

/-! ### Enable and disable (R343, R344) -/

/-- The tests of R343. -/
def State.camTests (s : State) : List CheckTest :=
  let fl := s.get CAM_FR_CFG.FLEN
  let area := (s.get64 CAM_FR_BASE_LO CAM_FR_BASE_HI, 64 * 2 ^ fl)
  let ok := 8 ≤ fl && fl ≤ 14
  let links : List CheckTest := (List.range 4).flatMap fun l =>
    let g := s.get (CAM_LNK_CFG.GEAR_MAX l)
    [(s.getB (CAM_LNK_CFG.EN l) && (g = 0 || 5 < g), 0x05, 0x200 + 64 * l),
     ((s.getB (CAM_LNK_CFG.EN l) || s.getB (CAM_LNK_CFG.POC_EN l)) && !s.lnkInSvc l, 0x08, 0x200 + 64 * l)]
  s.regionTests 3 0 ++ [(!ok, 0x05, 0x148), (ok && !s.inWins 0x09 area.1 area.2, 0x05, 0x140)] ++ links ++ s.ringTests 0x09
    ++ [(ok && s.ringUsed 0x09 0 && (s.ringAreas 0x09 0).any (overlaps area), 0x08, 0x100)]

/-- What a passed check starts: an empty record ring, and the power of links that request it. -/
def State.camStart (s : State) : State :=
  let s := { s with cam := { s.cam with recGap := false, recSeq := 0 } }
  let s := (s.set CAM_FR_PI.PI 0).set CAM_FR_CI.CI 0
  ((List.range 4).foldl (fun s l => if s.getB (CAM_LNK_CFG.POC_EN l) then s.setPoc l true else s) s).camShow

/-- ENABLE 1 → 0 (R344): a destruction in flight completes. -/
def State.camDisable (s : State) : State :=
  let s := s.setB CAM_CTRL.ENABLE false
  let s := (List.range 4).foldl (fun s l => ((s.setUp l false).setPoc l false).setB (CAM_LNK_CCI_STAT.BUSY l) false) s
  let s := s.cam.ctxs.foldl (fun s e => match e.2.dying with | some id => s.completeSelf 0x09 0 id 0x00 | none => s) s
  let s := (List.range 8).foldl (fun s p => s.set (CAM_PL_STAT.WAITING p) 0) s
  { s with cam := { nextFrame := s.cam.nextFrame } }.camShow

/-- CAM_DISABLE (R344). -/
def execCamDisable (s : State) : Out := .next (if s.getB CAM_CTRL.ENABLE then s.camDisable else s)

end Sys2Proof.Machine
end

