-- ==== Sys2Proof/Machine/Gnb.lean ====
section
/-! DEFINITION. GNB (chapters 13 and 14): chains, acquisition, tracking channels, the accumulation ring, steering and the
measurement strobe. -/

namespace Sys2Proof.Machine

/-! ### Signals (Table 13-3) -/

/-- Primary length in chips. -/
def sigL (sig : Nat) : Nat :=
  match sig with
  | 0 | 7 => 1023
  | 3 => 4092
  | _ => 10230

/-- Primary period in ms. -/
def sigP (sig : Nat) : Nat :=
  match sig with
  | 1 | 5 | 8 => 10
  | 3 => 4
  | _ => 1

/-- Pilot secondary length; 0 where the signal has none. -/
def sigPilot (sig : Nat) : Nat :=
  match sig with
  | 1 | 5 | 8 => 1800
  | 2 | 9 => 20
  | 3 => 25
  | 4 | 6 => 100
  | _ => 0

/-- Data secondary length (Table 13-3); 0 where the signal has none. -/
def sigData (sig : Nat) : Nat :=
  match sig with
  | 2 | 9 => 10
  | 4 => 20
  | 6 => 5
  | _ => 0

/-- A BOC(1,1) part is replicated (R278). -/
def sigBoc (sig : Nat) : Bool := sig = 1 || sig = 3 || sig = 5 || sig = 8

/-- The signal lies in the upper band (chains 0 and 2). -/
def sigUpper (sig : Nat) : Bool := sig = 0 || sig = 1 || sig = 3 || sig = 5 || sig = 7 || sig = 8

def prnOk (sig prn : Nat) : Bool :=
  if 7 ≤ sig then 193 ≤ prn && prn ≤ 202
  else if sig = 3 || sig = 4 then 1 ≤ prn && prn ≤ 50
  else 1 ≤ prn && prn ≤ 63

/-- INT_MS is a whole multiple of the primary period and at most 20 ms (R278). -/
def intOk (sig ms : Nat) : Bool := ms ≠ 0 && ms % sigP sig = 0 && ms ≤ 20

/-- One primary period in 2^-32 chips. -/
def sigMod (sig : Nat) : Nat := sigL sig * 2 ^ 32

/-! ### Sample count and time (R279) -/

/-- Nominal nanoseconds of LTC since sample 0; 0 where SC is stopped. -/
def State.gnsNs (s : State) : Nat :=
  match s.gnb.scStart with
  | some t => s.now - t
  | none => 0

/-- SC and the GNS cycle now: 81.84 samples and 163.68 cycles per microsecond (log entry 12). -/
def State.scNow (s : State) : Nat := s.gnsNs * 8184 / 100000
def State.gnsNow (s : State) : Nat := s.gnsNs * 16368 / 100000

/-- Stamp of mark `k`, sample 81,840 k: its error lies from -1 ns to 6 ns. -/
def State.markLtc (s : State) (k : Nat) : Nat := s.gnb.scStart.getD 0 + k * 1000000 + Config.markError k % 8 - 1

/-- The LTC reported for a sample: interpolated between the marks around it and rounded down. -/
def State.sampleLtc (s : State) (sc : Nat) : Nat :=
  let k := sc / 81840
  s.markLtc k + (s.markLtc (k + 1) - s.markLtc k) * (sc % 81840) / 81840

/-- The sample that START_SC names; 0 names the first multiple of 81,840 at least 16,368 samples ahead. -/
def State.startSample (s : State) (v : Nat) : Nat := if v = 0 then ceilDiv (s.scNow + 16368) 81840 * 81840 else v

/-- Codes of a START_SC. -/
def State.startCodes (s : State) (v : Nat) : List (Bool × Nat) :=
  [(decide (s.scNow + 4910400000 < v), 0x05), (decide (v ≠ 0 && v < s.scNow + 16368), 0x22)]

/-- The lowest code that applies (R284). -/
def lowestOf (l : List (Bool × Nat)) : Option Nat :=
  ((l.filter (·.1)).map (·.2)).foldl (fun m c => match m with | none => some c | some d => some (min c d)) none

/-- Reserved FLAGS bits 15:8 (R284). -/
def flagsHigh (c : Cmd) : Bool := c.e.flags.toNat / 256 ≠ 0

/-! ### Chains, notches and antennas (R274 to R276) -/

def State.chainRuns (s : State) (c : Nat) : Bool := s.getB GNB_CTRL.ENABLE && s.getB (GNB_CHAIN_CFG.EN c)

/-- What a strobe whose SL has not passed takes over when it changes. -/
def State.atSl (f : Strobe → Strobe) (s : State) : State :=
  { s with gnb := { s.gnb with strobes := s.gnb.strobes.map fun t => if s.now ≤ t.ltcL then f t else t } }

/-- The AGC's gain now reads `g`, unless it is frozen: it has moved by at most one step of 0.25 dB each 1,024 samples and lies from 0 to 240
(R274). A `g` out of its reach is taken as far as the gain can have moved. -/
def State.agc (c g : Nat) (s : State) : State :=
  let k := s.scNow / 1024
  let n := k - tgetD s.gnb.agcAt c 0
  let old := s.get (GNB_CHAIN_STAT.GAIN c)
  let s := { s with gnb := { s.gnb with agcAt := tput s.gnb.agcAt c k } }
  if s.getB (GNB_CHAIN_CFG.HOLD c) then s
  else
    let g := min 240 (max (old - n) (min (old + n) g))
    (s.set (GNB_CHAIN_STAT.GAIN c) g).atSl fun t => { t with gains := tput t.gains c g }

/-- SAT of a chain goes from 0 to 1, and from 1 to 0. -/
def State.satOn (c : Nat) (s : State) : State := { s with gnb := { s.gnb with sats := s.gnb.sats ++ [(c, s.scNow, none)] } }
def State.satOff (c : Nat) (s : State) : State :=
  { s with gnb := { s.gnb with sats := s.gnb.sats.map fun x => if x.1 = c && x.2.2.isNone then (c, x.2.1, some s.scNow) else x } }

/-- SAT of a chain was 1 at some sample from `lo` to `hi`. -/
def State.satIn (s : State) (c lo hi : Nat) : Bool :=
  s.gnb.sats.any fun x => x.1 = c && x.2.1 ≤ hi && x.2.2.all fun b => decide (lo ≤ b)

/-- A write of GNB_CHAIN_STAT: SAT and JAM are W1C. -/
def State.writeChainStat (c : Nat) (value : Word) (s : State) : State :=
  let was := s.getB (GNB_CHAIN_STAT.SAT c)
  let s := s.plainWrite (GNB_CHAIN_CFG c + 4) value
  if was && !s.getB (GNB_CHAIN_STAT.SAT c) then s.satOff c else s

/-- A chain's baseline takes the mean power of a second (R274). -/
def State.takeMean (c : Nat) (mean : Option Nat) (s : State) : State :=
  match mean with
  | none => s
  | some m => { s with gnb := { s.gnb with base := tput s.gnb.base c (min m (tgetD s.gnb.base c m)) } }

/-- PWR shows the in-band power above the baseline, in 0.25 dB; with no baseline yet the spec states none: a free value (log entry 125). -/
def State.showPwr (c power : Nat) (s : State) : State :=
  match tget s.gnb.base c with
  | some b => s.set (GNB_CHAIN_STAT.PWR c) (satTo 255 (power - b))
  | none => (s.set (GNB_CHAIN_STAT.PWR c) (s.fresh 8)).drawn

/-- RF_INTERF (R274): the 1 ms window just ended, of which `clips` samples reached ±7. `power` is its in-band power in 0.25 dB, and `mean` the
mean power of the second that ended with it, if one did. PWR has to stay more than 15 dB above the baseline for 100 ms. -/
def execRfInterf (c : Fin 4) (clips : BitVec 17) (power : BitVec 16) (mean : Option (BitVec 16)) (gain : BitVec 8) (s : State) : Out :=
  if !s.chainRuns c.val then .next s
  else
    let s := ((s.agc c.val gain.toNat).takeMean c.val (mean.map (·.toNat))).showPwr c.val power.toNat
    let since := tgetD s.gnb.jamFrom c.val s.now
    let high := decide (60 < s.get (GNB_CHAIN_STAT.PWR c.val))
    let s := { s with gnb := { s.gnb with jamFrom := if high then tput s.gnb.jamFrom c.val since else tdel s.gnb.jamFrom c.val } }
    let sat := decide (81840 < 20 * clips.toNat) && s.get (GNB_CHAIN_STAT.GAIN c.val) = 0 && !s.getB (GNB_CHAIN_STAT.SAT c.val)
    let jam := high && decide (100000000 ≤ s.since since) && !s.getB (GNB_CHAIN_STAT.JAM c.val)
    let s := if sat then (s.satOn c.val).setB (GNB_CHAIN_STAT.SAT c.val) true else s
    let s := if jam then s.setB (GNB_CHAIN_STAT.JAM c.val) true else s
    .next (if sat || jam then s.raise 134 else s)

/-- Into a list of interferers, frequency and level, the strongest first. -/
def putStrong (x : Nat × Nat) : List (Nat × Nat) → List (Nat × Nat)
  | [] => [x]
  | y :: l => if y.2 < x.2 then x :: y :: l else y :: putStrong x l

/-- LOCK of a notch goes to `lock` (R275). -/
def State.setLock (c j : Nat) (lock : Bool) (s : State) : State :=
  if s.getB (GNB_NOTCH.LOCK c j) = lock then s else (s.setB (GNB_NOTCH.LOCK c j) lock).raise 135

/-- The notches `js` of a chain, those of MODE 2 taking the interferers `l` in turn. -/
def State.follow (c : Nat) : List Nat → List (Nat × Nat) → State → State
  | [], _, s => s
  | j :: js, l, s =>
    if s.get (GNB_NOTCH.MODE c j) ≠ 2 then s.follow c js l
    else match l with
      | [] => (s.setLock c j false).follow c js []
      | x :: xs => ((s.setLock c j true).set (GNB_NOTCH.FREQ c j) x.1).follow c js xs

/-- The MODE 2 notches of a chain that runs follow the strongest of its interferers, the lower-numbered the stronger. -/
def State.refollow (c : Nat) (s : State) : State :=
  if s.chainRuns c then s.follow c (List.range 4) (tgetD s.gnb.interf c []) else s

/-- The interferer at the offset `freq` is now `level` dB above the noise floor and `width` × 10 kHz wide: one to follow where it is 10 dB or
more, and less than 1 MHz wide. -/
def interferer (freq level width : Nat) (l : List (Nat × Nat)) : List (Nat × Nat) :=
  let l := l.filter fun x => x.1 ≠ freq
  if 10 ≤ level && width < 100 then putStrong (freq, level) l else l

/-- NOTCH (R275): an interferer of the chain appears, changes or goes (`level` 0). Offset and width are in 10 kHz, the level in dB above the
noise floor. -/
def execNotchLock (c : Fin 4) (freq : BitVec 13) (level width : BitVec 8) (s : State) : Out :=
  if !s.chainRuns c.val then .next s
  else
    let l := interferer freq.toNat level.toNat width.toNat (tgetD s.gnb.interf c.val [])
    .next ({ s with gnb := { s.gnb with interf := tput s.gnb.interf c.val l } }.refollow c.val)

/-- A chain that no longer runs follows nothing. -/
def State.unlock (c : Nat) (s : State) : State :=
  (List.range 4).foldl (fun s j => s.setLock c j false) { s with gnb := { s.gnb with interf := tdel s.gnb.interf c } }

/-- A write of GNB_NOTCH (R275): MODE 3 is ignored; in MODE 2, FREQ writes are ignored. -/
def State.writeNotch (c j : Nat) (value : Word) (s : State) : State :=
  let v := value.toNat
  let old := s.get (GNB_NOTCH.MODE c j)
  let mode := if bitsOf v 30 2 = 3 then old else bitsOf v 30 2
  let s := (s.set (GNB_NOTCH.MODE c j) mode).set (GNB_NOTCH.WIDTH c j) (bitsOf v 24 4)
  let s := if mode = 2 then s else s.set (GNB_NOTCH.FREQ c j) (bitsOf v 0 13)
  (if mode ≠ 2 then s.setLock c j false else s).refollow c

/-- Is a chain used by a channel or a search? -/
def State.chainUsed (s : State) (c : Nat) : Bool := s.gnb.chans.any (fun x => x.2.chain = c) || s.gnb.searches.any fun x => x.2.chain = c

/-- A write of GNB_CHAIN_CFG: EN 1 → 0 is ignored while the chain is used (R295). -/
def State.writeChainCfg (c : Nat) (value : Word) (s : State) : State :=
  if s.getB (GNB_CHAIN_CFG.EN c) && !bitAt value.toNat 0 && s.chainUsed c then s
  else
    let s := { s with gnb := { s.gnb with agcAt := tput s.gnb.agcAt c (s.scNow / 1024) } }
    let s := (s.setB (GNB_CHAIN_CFG.EN c) (bitAt value.toNat 0)).setB (GNB_CHAIN_CFG.HOLD c) (bitAt value.toNat 1)
    if bitAt value.toNat 0 then s else s.unlock c

/-- The bias current of an antenna reads `ma` (R45, R276). Above 150 mA the bias is switched off; OPEN follows the current. -/
def State.biasCurrent (i ma : Nat) (s : State) : State :=
  if !s.getB (GNB_ANT.ON i) then s
  else if 150 < ma then
    let new := !s.getB (GNB_ANT.SHORT i)
    let s := ((s.set (GNB_ANT.MA i) 0).setB (GNB_ANT.ON i) false).setB (GNB_ANT.OPEN i) false
    let s := s.setB (GNB_ANT.SHORT i) true
    if new then s.raise 133 else s
  else if ma < 2 then
    let new := !s.getB (GNB_ANT.OPEN i)
    let s := (s.set (GNB_ANT.MA i) ma).setB (GNB_ANT.OPEN i) true
    if new then s.raise 133 else s
  else (s.set (GNB_ANT.MA i) ma).setB (GNB_ANT.OPEN i) false

/-- ANT_FAULT (R45, R276). -/
def execAntFault (a : Fin 2) (ma : BitVec 8) (s : State) : Out := .next (s.biasCurrent a.val ma.toNat)

/-- ANT_OPEN_CLEAR (R276): the current is 2 mA or more again. -/
def execAntOpenClear (a : Fin 2) (ma : BitVec 8) (s : State) : Out :=
  .next (if 2 ≤ ma.toNat then s.biasCurrent a.val ma.toNat else s)

/-- The bias of an antenna is switched. -/
def State.setBias (a : Nat) (on : Bool) (s : State) : State :=
  let s := s.setB (GNB_ANT.ON a) on
  if on then s else (s.setB (GNB_ANT.OPEN a) false).set (GNB_ANT.MA a) 0

/-- A write of GNB_ANT (R276): SHORT is W1C; BIAS_EN 0 → 1 switches on or retries, 1 → 0 switches off. -/
def State.writeAnt (a : Nat) (value : Word) (s : State) : State :=
  let old := s.getB (GNB_ANT.BIAS_EN a)
  let new := bitAt value.toNat 31
  let s := s.setB (GNB_ANT.BIAS_EN a) new
  let s := if bitAt value.toNat 28 then s.setB (GNB_ANT.SHORT a) false else s
  if !s.getB GNB_CTRL.ENABLE || old = new then s else s.setBias a new

/-! ### Acquisition (R280 to R282) -/

def State.gnbCounts (s : State) : State :=
  (s.set GNB_STATUS.CHANNELS s.gnb.chans.length).set GNB_STATUS.SEARCHES s.gnb.searches.length

/-- ACQ_START (R280). -/
def opAcqStart (c : Cmd) (s : State) : State :=
  let chain := c.arg 16 1
  let sig := c.arg 17 1
  let coh := c.arg 20 1
  let ncoh := c.arg 21 1
  let bins := c.arg 22 2
  let step := c.arg 28 4
  let addr := c.arg 32 8
  let range := flagsHigh c || 3 < chain || 9 < sig || !prnOk sig (c.arg 18 2) || coh = 0 || 10 < coh || coh % sigP sig ≠ 0
    || ncoh = 0 || 20 < ncoh || bins = 0 || 512 < bins || step = 0 || 5000 < step || addr % 64 ≠ 0 || !s.inWins 0x08 addr 64
  let off := chain ≤ 3 && sig ≤ 9 && (!s.getB (GNB_CHAIN_CFG.EN chain) || sigUpper sig ≠ decide (chain % 2 = 0))
  let codes := [(range, 0x05), (decide (20 < coh * ncoh), 0x07), (off, 0x20), (decide (c.ring ≠ 1), 0x23)] ++ s.startCodes (c.arg 40 8)
  match lowestOf codes, tfree s.gnb.searches 8 with
  | some code, _ => c.finish code s
  | none, none => c.finish 0x04 s
  | none, some k =>
    let x : Search := { id := c.id, chain := chain, sig := sig, prn := c.arg 18 2, addr := addr, start := s.startSample (c.arg 40 8), samples := coh * ncoh * 81840, dopMin := toSigned 32 (c.arg 24 4), dopStep := step, bins := bins }
    ({ s with gnb := { s.gnb with searches := tput s.gnb.searches k x } }).gnbCounts

/-- ACQ_START: ring 1 takes one only while an engine is free (`State.blockHolds`). -/
def execAcqStart (ring : Fin 2) (e : Entry) (s : State) : Out := .next (s.runRow 0x08 ring.val 0x10 0xFF00 e opAcqStart)

/-- What a search can find (R281, R282): a bin of its grid, a code phase of the primary code, a Doppler in mHz no further than a bin from
that bin's centre, and no power above the peak. -/
def Search.finds (x : Search) (bin code dop peak second noise : Nat) : Bool :=
  let d := toSigned 32 (dop + 2 ^ 32 - fromSigned 32 ((x.dopMin + (bin * x.dopStep : Nat)) * 1000))
  decide (bin < x.bins) && decide (code < sigL x.sig * 65536) && decide (d.natAbs ≤ 1000 * x.dopStep) && decide (second ≤ peak) && decide (noise ≤ peak)

/-- ACQ_DONE (R281, R282): a search has captured its samples and ends with what it found; its record is written. The peak
lies in bin `bin`. -/
def execAcqDone (k : Fin 8) (bin : Fin 512) (code dop peak second noise : Word) (cn0 : BitVec 16) (s : State) : Out :=
  match tget s.gnb.searches k.val with
  | none => .next s
  | some x =>
    if s.scNow < x.start + x.samples || !x.finds bin.val code.toNat dop.toNat peak.toNat second.toNat noise.toNat then .next s
    else
      let sat := s.satIn x.chain x.start (x.start + x.samples - 1)
      let edge := decide (bin.val = 0) || decide (bin.val + 1 = x.bins)
      let rec1 := bytesLE 1 x.sig ++ bytesLE 1 x.chain ++ bytesLE 2 x.prn ++ bytesLE 4 code.toNat ++ bytesLE 4 dop.toNat ++ bytesLE 4 peak.toNat
        ++ bytesLE 4 second.toNat ++ bytesLE 4 noise.toNat ++ bytesLE 2 cn0.toNat ++ bytesLE 2 (b2n sat + 2 * b2n edge)
        ++ bytesLE 8 x.start ++ bytesLE 8 (s.sampleLtc x.start) ++ bytesLE 20 0
      let s := { s with gnb := { s.gnb with searches := tdel s.gnb.searches k.val } }.dramPuts x.addr rec1
      .next ((s.completeSelf 0x08 1 x.id 0x00).gnbCounts)

/-! ### Channels (R283 to R287) -/

/-- The sample of the next boundary (R285). -/
def Chan.nextSc (c : Chan) : Nat :=
  if c.next = 0 then c.startSc else c.sc0 + ceilDiv (c.intMs / sigP c.sig * sigMod c.sig - c.phase) c.rate

/-- The state at the next boundary before any steer. -/
def Chan.advance (c : Chan) : Chan :=
  if c.next = 0 then { c with next := 1 }
  else
    let b := c.nextSc
    let d := b - c.sc0
    let m := c.intMs / sigP c.sig
    { c with
      next := c.next + 1, sc0 := b
      phase := (c.phase + d * c.rate) % sigMod c.sig
      theta := fromSigned 48 ((c.theta : Int) + d * c.freq)
      code := c.code + ((d * c.rate : Nat) : Int)
      acc := c.acc + (d : Int) * (c.freq + 2 ^ 45)
      epochs := c.epochs + m
      secPh := if c.secPh = 0xFFFF then 0xFFFF else (c.secPh + m) % sigPilot c.sig }

/-- A steer applied at the boundary just reached (R292). -/
def Chan.apply (c : Chan) (t : Steer) : Chan :=
  let c := if bitAt t.what 0 then { c with freq := t.freq } else c
  let c := if bitAt t.what 1 then { c with rate := t.rate } else c
  let c := if bitAt t.what 2 then
      { c with phase := (((c.phase : Int) + t.codeStep) % (sigMod c.sig : Int)).toNat, code := c.code + t.codeStep }
    else c
  let c := if bitAt t.what 3 then
      { c with theta := fromSigned 48 ((c.theta : Int) + t.carrStep * 65536), acc := c.acc + t.carrStep * 65536 }
    else c
  let c := if bitAt t.what 4 then { c with intMs := t.intMs, spacing := t.spacing, secPh := t.secPh } else c
  let c := if t.what / 4 ≠ 0 then { c with lockCnt := (c.lockCnt + 1) % 256 } else c
  { c with steer := none, lates := c.lates + b2n t.late }

/-- What passing a boundary did to the pending steer: applied, late, newly found late, SETUP applied. -/
structure Passed where
  chan : Chan
  applied : Bool := false
  late : Bool := false
  newLate : Bool := false
  setup : Bool := false
  deriving DecidableEq, Repr

/-- A channel passes its next boundary (R292, R293). -/
def Chan.pass (c : Chan) : Passed :=
  let n := c.next
  let b := c.nextSc
  let c := c.advance
  match c.steer with
  | none => { chan := c }
  | some t =>
    if toSigned 32 (n + 2 ^ 32 - t.target % 2 ^ 32) < 0 then { chan := c }
    else if t.taken + 16 ≤ 2 * b then { chan := c.apply t, applied := true, late := t.late, setup := bitAt t.what 4 }
    else { chan := { c with steer := some { t with late := true } }, newLate := !t.late }

/-! ### The correlators (R273, R286) -/

/-- A 3-bit sample value, one of ±1, ±3, ±5, ±7. -/
def sampleValue (v : Nat) : Int := 2 * ((v % 8 : Nat) : Int) - 7

/-- The code replica at phase `ph`, in 2^-32 chips: a chip of the component, its second half inverted where a BOC(1,1) part is replicated. -/
def replica (sig prn : Nat) (data : Bool) (ph : Nat) : Int :=
  let neg := Config.codeChip sig prn data (ph / 2 ^ 32) != (sigBoc sig && decide (2 ^ 31 ≤ ph % 2 ^ 32))
  if neg then -1 else 1

/-- The chip of a secondary code by which a primary period is multiplied: the pilot's at `sec`, the data component's at `sec` modulo its
length; 1 where there is none. -/
def secondary (sig prn : Nat) (data : Bool) (sec : Nat) : Int :=
  let len := if data then sigData sig else sigPilot sig
  if len = 0 then 1 else if Config.secondaryChip sig prn data (sec % len) then -1 else 1

/-- Phase offset of a tap in 2^-32 chips. -/
def Chan.tapPhase (c : Chan) (tap : Nat) : Int :=
  let d : Int := (c.spacing * 2 ^ 28 : Nat)
  match tap with
  | 0 => -2 * d
  | 1 => -d
  | 3 => d
  | 4 => 2 * d
  | 6 => (sigL c.sig * 2 ^ 31 : Nat)
  | _ => 0

/-- Sample `k` after the last boundary in tap `tap`: I and Q of the sample wiped by the carrier replica, times the code replica and the
secondary chip. `t0` is the LTC of sample 0. -/
def Chan.product (t0 : Nat) (c : Chan) (tap k : Nat) : Int × Int :=
  let v := Config.rfSample c.chain t0 (c.sc0 + k)
  let x := sampleValue v
  let y := sampleValue (v / 8)
  let w := Config.carrierReplica (fromSigned 48 ((c.theta : Int) + k * c.freq) / 2 ^ 42)
  let ph := c.phase + k * c.rate
  let data := decide (tap = 5) && decide (c.sig ≠ 0) && decide (c.sig ≠ 7)
  let code := replica c.sig c.prn data ((((ph % sigMod c.sig : Nat) : Int) + c.tapPhase tap) % (sigMod c.sig : Int)).toNat
  let m := if c.secPh = 0xFFFF then code else code * secondary c.sig c.prn data (c.secPh + ph / sigMod c.sig)
  ((x * w.1 - y * w.2) * m, (x * w.2 + y * w.1) * m)

/-- The sums of a tap over the samples from the last boundary up to, but not including, sample `b`. -/
def Chan.tapSum (t0 : Nat) (c : Chan) (b tap : Nat) : Int × Int :=
  (List.range (b - c.sc0)).foldl (fun a k => (a.1 + (c.product t0 tap k).1, a.2 + (c.product t0 tap k).2)) (0, 0)

/-- LTC of sample 0 of the present run. -/
def State.sc0Ltc (s : State) : Nat := s.gnb.scStart.getD 0

/-- The integration that ends at boundary sample `b`, as CN0 and PLI use it. -/
def State.integ (s : State) (c : Chan) (b : Nat) : Integ :=
  let p := c.tapSum s.sc0Ltc b 2
  let n := c.tapSum s.sc0Ltc b 6
  { ltc := s.sampleLtc b, intMs := c.intMs, i2 := p.1, q2 := p.2, i6 := n.1, q6 := n.2 }

/-- A channel passes its next boundary, and the integration that ended there is kept for 200 ms. -/
def State.passNext (s : State) (c : Chan) : Passed :=
  let p := c.pass
  if c.next = 0 then p
  else
    let h := s.integ c p.chan.sc0
    { p with chan := { p.chan with hist := (c.hist.filter fun y => decide (h.ltc < y.ltc + 200000000)) ++ [h] } }

/-- The channel with every boundary at or before sample `sl` passed: each lies at least one sample after the one before. -/
def State.passTo (s : State) (sl : Nat) : Nat → Chan → Chan
  | 0, c => c
  | f + 1, c => if c.nextSc ≤ sl then s.passTo sl f (s.passNext c).chan else c

def State.chanLive (s : State) (x : Nat) : Bool := (tget s.gnb.chans x).isSome
def State.setChan (x : Nat) (c : Chan) (s : State) : State := { s with gnb := { s.gnb with chans := tput s.gnb.chans x c } }

/-- The status registers of a channel. -/
def State.showChan (x : Nat) (s : State) : State :=
  match tget s.gnb.chans x with
  | none => s.wipeRegs (GNB_CH_STAT x) 16
  | some c =>
    let s := ((s.set (GNB_CH_STAT.STATE x) (if c.next = 0 then 1 else 2)).set (GNB_CH_STAT.CHAIN x) c.chain).set (GNB_CH_STAT.SIG x) c.sig
    let s := ((s.setB (GNB_CH_STAT.PEND x) c.steer.isSome).set (GNB_CH_STAT.INT_MS x) c.intMs).set (GNB_CH_STAT.SPACING x) c.spacing
    (s.set (GNB_CH_STAT.PRN x) c.prn).set (GNB_CH_BOUND.BOUND x) (c.next - 1)

/-- Is a 64-bit word a sign-extended 48-bit word? -/
def signExtended48 (v : Nat) : Bool := decide (toSigned 48 v = toSigned 64 v)

/-- SEC_PH is a pilot secondary chip, or none. -/
def secOk (sig v : Nat) : Bool := v = 0xFFFF || v < sigPilot sig

/-- INT_MS needs a secondary phase (0x0824). -/
def secNeeded (sig ms sec : Nat) : Bool := decide (sigP sig < ms) && sec = 0xFFFF && sigPilot sig ≠ 0

/-- CH_CREATE (R283, R284). -/
def opChCreate (c : Cmd) (s : State) : State :=
  let chain := c.arg 16 1
  let sig := c.arg 17 1
  let ms := c.arg 20 1
  let sp := c.arg 21 1
  let sec := c.arg 52 2
  let ph := c.arg 32 8
  let rate := c.arg 48 4
  let range := flagsHigh c || 3 < chain || 9 < sig || !prnOk sig (c.arg 18 2) || sp = 0 || 16 < sp || 1 < c.arg 22 1
    || sigMod sig ≤ ph || !signExtended48 (c.arg 40 8) || rate = 0 || 0x7FFFFFFF < rate || !secOk sig sec
  let off := chain ≤ 3 && sig ≤ 9 && (!s.getB (GNB_CHAIN_CFG.EN chain) || sigUpper sig ≠ decide (chain % 2 = 0))
  let codes := [((tfree s.gnb.chans 512).isNone, 0x04), (range, 0x05), (off, 0x20), (decide (sig ≤ 9) && !intOk sig ms, 0x21),
    (decide (c.ring ≠ 0), 0x23), (decide (sig ≤ 9) && secNeeded sig ms sec, 0x24)] ++ s.startCodes (c.arg 24 8)
  match lowestOf codes, tfree s.gnb.chans 512 with
  | none, some x =>
    let s := s.advGen 3 x
    let start := s.startSample (c.arg 24 8)
    let ch : Chan := { handle := s.handle 3 x, chain := chain, sig := sig, prn := c.arg 18 2, irq := bitAt (c.arg 22 1) 0, startSc := start, sc0 := start, phase := ph, code := (ph : Int), freq := toSigned 48 (c.arg 40 8), rate := rate, intMs := ms, spacing := sp, secPh := sec }
    c.created (s.handle 3 x) ((s.setChan x ch).showChan x).gnbCounts
  | some code, _ => c.failed code s
  | none, none => c.failed 0x04 s

/-- CH_CREATE (R283). -/
def execChCreate (ring : Fin 2) (e : Entry) (s : State) : Out := .next (s.runRow 0x08 ring.val 1 0xFF00 e opChCreate)

/-- A late steer is counted (R293). -/
def State.steerLate (s : State) : State := ((s.bump GNB_CNT.LATE 1).detViol SYS_DET_STATUS.GNB_STEER).raise 132

/-- The codes of a STEER of channel `ch` (R284). -/
def State.steerCodes (s : State) (c : Cmd) (ch : Chan) : List (Bool × Nat) :=
  let w := c.arg 20 1
  let sig := ch.sig
  let setup := bitAt w 4
  let ahead := toSigned 32 (c.arg 16 4 + 2 ^ 32 - (ch.next - 1) % 2 ^ 32)
  let range := flagsHigh c || w = 0 || 31 < w || decide (1000 < ahead) || (bitAt w 0 && !signExtended48 (c.arg 24 8))
    || (bitAt w 1 && (c.arg 32 4 = 0 || 0x7FFFFFFF < c.arg 32 4)) || (bitAt w 2 && sigMod sig ≤ (toSigned 64 (c.arg 40 8)).natAbs)
    || (setup && (c.arg 22 1 = 0 || 16 < c.arg 22 1 || !secOk sig (c.arg 36 2)))
  [(range, 0x05), (!s.getB (GNB_CHAIN_CFG.EN ch.chain), 0x20), (setup && !intOk sig (c.arg 21 1), 0x21), (decide (c.ring ≠ 0), 0x23),
   (setup && secNeeded sig (c.arg 21 1) (c.arg 36 2), 0x24)]

/-- STEER (R292 to R294): it becomes the pending steer. Late at once where its target is passed, or is the next boundary and
fewer than 16 GNS cycles away. A HANDLE that fails R114 in any way gives 0x0803 (R284). -/
def opSteer (c : Cmd) (s : State) : State :=
  match s.checkHandle 3 s.chanLive c.handle with
  | some _ => c.finish 0x03 s
  | none =>
    let x := hIndex c.handle
    match tget s.gnb.chans x with
    | none => c.finish 0x03 s
    | some ch =>
      match lowestOf (s.steerCodes c ch) with
      | some code => c.finish code s
      | none =>
        let d := toSigned 32 (c.arg 16 4 + 2 ^ 32 - ch.next % 2 ^ 32)
        let late := decide (d < 0) || (decide (d = 0) && decide (2 * ch.nextSc < s.gnsNow + 16))
        let t : Steer := { target := c.arg 16 4, what := c.arg 20 1, intMs := c.arg 21 1, spacing := c.arg 22 1, freq := toSigned 48 (c.arg 24 8), rate := c.arg 32 4, secPh := c.arg 36 2, codeStep := toSigned 64 (c.arg 40 8), carrStep := toSigned 32 (c.arg 48 4), taken := s.gnsNow, late := late }
        let old := ch.steer.isSome
        let s := (s.setChan x { ch with steer := some t, repl := ch.repl || old }).showChan x
        let s := if old then s.bump GNB_CNT.REPL 1 else s
        c.finish 0x00 (if late then s.steerLate else s)

/-- STEER (R292). -/
def execGnbSteer (ring : Fin 2) (e : Entry) (s : State) : Out := .next (s.runRow 0x08 ring.val 2 0xFF00 e opSteer)

/-- A channel destroyed at or before the GNS edge at which a strobe's SL is processed is not latched (R301). -/
def State.unlatch (h : Nat) (s : State) : State :=
  { s with gnb := { s.gnb with strobes := s.gnb.strobes.map fun t =>
    if s.gnsNow ≤ 2 * t.sl then { t with chans := t.chans.filter fun e => decide (e.2.handle ≠ h) } else t } }

/-- CH_DESTROY (R287). -/
def opChDestroy (c : Cmd) (s : State) : State :=
  match s.checkHandle 3 s.chanLive c.handle with
  | some code => c.finish code s
  | none =>
    if c.ring ≠ 0 then c.finish 0x23 s
    else
      let x := hIndex c.handle
      c.finish 0x00 (({ s with gnb := { s.gnb with chans := tdel s.gnb.chans x } }.unlatch c.handle).showChan x).gnbCounts

/-- CH_DESTROY (R287). -/
def execChDestroy (ring : Fin 2) (e : Entry) (s : State) : Out := .next (s.runRow 0x08 ring.val 3 0 e opChDestroy)

/-- CH_RESOLVE (R310). -/
def opChResolve (c : Cmd) (s : State) : State :=
  match s.checkHandle 3 s.chanLive c.handle with
  | some code => c.finish code s
  | none =>
    if 1 < c.arg 16 1 then c.finish 0x05 s
    else if c.ring ≠ 0 then c.finish 0x23 s
    else
      let x := hIndex c.handle
      let f (ch : Chan) : Chan := { ch with resolves := ch.resolves ++ [(s.gnsNow, decide (c.arg 16 1 = 1))] }
      c.finish 0x00 (match tget s.gnb.chans x with
        | some ch => s.setChan x (f ch)
        | none => s)

/-- CH_RESOLVE (R310). -/
def execChResolve (ring : Fin 2) (e : Entry) (s : State) : Out := .next (s.runRow 0x08 ring.val 4 0 e opChResolve)

/-! ### The accumulation ring (R288 to R291) -/

def State.accMod (s : State) : Nat := 2 * 2 ^ s.get GNB_ACC_CFG.LEN
def State.accBase (s : State) : Nat := s.get64 GNB_ACC_BASE_LO GNB_ACC_BASE_HI

/-- Entries that host software owns. -/
def State.accFill (s : State) : Nat := (s.get GNB_ACC_PI.PI + s.accMod - s.get GNB_ACC_CI.CI) % s.accMod

/-- One entry of 128 bytes, or a drop. `entry` makes the bytes from the flags GAP adds and SEQ. -/
def State.accPut (entry : Bool → Nat → List Byte) (s : State) : State × Bool :=
  if s.accMod / 2 ≤ s.accFill then
    let first := s.get GNB_ACC_DROP.DROP = 0
    let s := { s with gnb := { s.gnb with accGap := true } }.bump GNB_ACC_DROP.DROP 1
    (if first then s.raise 131 else s, false)
  else
    let pi := s.get GNB_ACC_PI.PI
    let seq := if s.gnb.accSeq = 0xFFFFFFFF then 1 else s.gnb.accSeq + 1
    let empty := s.accFill = 0
    let s := s.dramPuts (s.accBase + 128 * (pi % (s.accMod / 2))) (entry s.gnb.accGap seq)
    let s := s.set GNB_ACC_PI.PI ((pi + 1) % s.accMod)
    let s := { s with gnb := { s.gnb with accGap := false, accSeq := seq, accFrom := if empty then some s.now else s.gnb.accFrom } }
    let thr := s.get GNB_ACC_CFG.THR
    (if thr ≠ 0 && s.accFill = thr then { s with gnb := { s.gnb with accFrom := some s.now } }.raise 130 else s, true)

/-- A write of GNB_ACC_CI (R288). Written back below CI, it can bring PI − CI to THR or make an empty ring non-empty (R291). -/
def State.writeAccCi (value : Word) (s : State) : State :=
  let v := value.toNat % 2 ^ 17
  if !s.getB GNB_CTRL.ENABLE || s.accMod ≤ v || s.accMod / 2 < (s.get GNB_ACC_PI.PI + s.accMod - v) % s.accMod then s
  else
    let old := s.accFill
    let s := s.set GNB_ACC_CI.CI v
    let thr := s.get GNB_ACC_CFG.THR
    let s := { s with gnb := { s.gnb with accFrom := if s.accFill = 0 then none else if old = 0 then some s.now else s.gnb.accFrom } }
    if thr ≠ 0 && old < thr && thr ≤ s.accFill then { s with gnb := { s.gnb with accFrom := some s.now } }.raise 130 else s

/-- ACC_TIMEOUT (R291). -/
def execAccTimeout (s : State) : Out :=
  let tmo := s.get GNB_ACC_CFG.TMO
  match s.gnb.accFrom with
  | some t =>
    .next (if s.getB GNB_CTRL.ENABLE && tmo ≠ 0 && tmo * 10000 ≤ s.since t then { s with gnb := { s.gnb with accFrom := some s.now } }.raise 130 else s)
  | none => .next s

/-- The bytes of an accumulation entry (Table 13-8). `old` is the channel as integration n ran, `p` what the boundary did,
`iq` the sums of taps 0 to 6. -/
def accEntry (old : Chan) (p : Passed) (iq : List (Int × Int)) (ltc gain : Nat) (sat gap : Bool) (seq : Nat) : List Byte :=
  let new := p.chan
  let n := old.next
  let flags := b2n p.applied + 2 * b2n (p.applied && p.late) + 4 * b2n old.repl + 8 * b2n gap + 16 * b2n sat + 32 * b2n p.setup
    + 64 * b2n old.irq + 128 * b2n (decide (n = 1))
  bytesLE 4 old.handle ++ bytesLE 4 n ++ bytesLE 8 new.sc0 ++ bytesLE 2 flags ++ bytesLE 1 old.intMs ++ bytesLE 1 old.chain
    ++ bytesLE 4 new.epochs ++ (iq.flatMap fun x => bytesLE 4 (fromSigned 32 x.1) ++ bytesLE 4 (fromSigned 32 x.2))
    ++ bytesLE 8 ltc ++ bytesLE 8 new.phase ++ bytesLE 6 new.theta ++ bytesLE 2 0 ++ bytesLE 8 (fromSigned 64 old.freq)
    ++ bytesLE 4 old.rate ++ bytesLE 2 old.secPh ++ bytesLE 2 gain ++ bytesLE 4 seq ++ bytesLE 4 0

/-- A channel of a lower index has an entry to write for the same boundary sample (R288). -/
def State.boundaryBefore (s : State) (x : Nat) (old : Chan) : Bool :=
  s.gnb.chans.any fun y => decide (y.1 < x) && y.2.next ≠ 0 && y.2.nextSc = old.nextSc

/-- CHANNEL_BOUNDARY (R285 to R294): the channel reaches its next boundary, which has to be `n`, while the AGC of its chain reads `gain`.
Boundary 0 starts the channel and writes no entry. Entries of one boundary sample are written in order of channel index. -/
def execChannelBoundary (x : Fin 512) (n : Nat) (gain : BitVec 8) (s : State) : Out :=
  match tget s.gnb.chans x.val with
  | none => .next s
  | some old =>
    if n ≠ old.next || s.scNow < old.nextSc || s.boundaryBefore x.val old then .next s
    else
      let p := s.passNext old
      let s := s.agc old.chain gain.toNat
      let s := if p.newLate then s.steerLate else s
      if old.next = 0 then .next ((s.setChan x.val p.chan).showChan x.val)
      else
        let b := p.chan.sc0
        let iq := (List.range 7).map (old.tapSum s.sc0Ltc b)
        let (s, ok) := s.accPut (accEntry old p iq (s.sampleLtc b) (s.get (GNB_CHAIN_STAT.GAIN old.chain)) (s.satIn old.chain old.sc0 (b - 1)))
        .next ((s.setChan x.val { p.chan with repl := old.repl && !ok }).showChan x.val)

/-! ### Measurement (R299 to R311) -/

/-- Largest `n` up to `hi` with `10 ^ (2 n - 1) ≤ (p / q) ^ 2000`, by bisection between `lo` and `hi`: `p / q` in 0.01 dB. -/
def centiBel (p q : Nat) : Nat → Nat → Nat → Nat
  | 0, lo, _ => lo
  | f + 1, lo, hi =>
    if hi ≤ lo then lo
    else
      let mid := (lo + hi + 1) / 2
      if 10 ^ (2 * mid - 1) * q ^ 2000 ≤ p ^ 2000 then centiBel p q f mid hi else centiBel p q f lo (mid - 1)

/-- CN0 in 0.01 dB-Hz (R308) of the integrations of the window. -/
def cn0Of (h : List Integ) : Nat :=
  let pp := h.foldl (fun (a : Nat) (x : Integ) => a + (x.i2 * x.i2 + x.q2 * x.q2).toNat) 0
  let pn := h.foldl (fun (a : Nat) (x : Integ) => a + (x.i6 * x.i6 + x.q6 * x.q6).toNat) 0
  match h.getLast? with
  | none => 0
  | some x => if pp ≤ pn then 0 else if pn = 0 then 65535 else centiBel ((pp - pn) * 1000) (pn * x.intMs) 17 0 65535

/-- PLI in 2^-15 (R308). -/
def pliOf (h : List Integ) : Int :=
  let i := h.foldl (fun (a : Int) (x : Integ) => a + x.i2 * x.i2) 0
  let q := h.foldl (fun (a : Int) (x : Integ) => a + x.q2 * x.q2) 0
  if i + q = 0 then 0 else clampInt (-32768) 32767 (((i - q) * 32768).tdiv (i + q))

/-- Round to nearest, ties away from zero. -/
def gnbRound (n : Int) (d : Nat) : Int := if 0 ≤ n then (2 * n + d).fdiv (2 * d) else -((-2 * n + d).fdiv (2 * d))

/-- The strobe period in nanoseconds of MT. -/
def State.msPeriod (s : State) : Nat := s.get GNB_MS_CFG.PER_MS * 1000000

def State.msOn (s : State) : Bool := s.getB GNB_CTRL.ENABLE && s.getB GNB_MS_CFG.MS_EN

/-- The number of the boundary at or below an MT. -/
def State.msNumber (s : State) (mt : Int) : Int := floorDivNat mt s.msPeriod

/-- Each CH_RESOLVE taken at least 16 GNS cycles before the processing edge of `sl` takes effect, in turn (R309, R310). -/
def Chan.takeResolve (sl : Nat) (c : Chan) : Chan :=
  let due := c.resolves.filter fun x => decide (x.1 + 16 ≤ 2 * sl)
  match due.getLast? with
  | none => c
  | some x =>
    { c with resolves := c.resolves.filter (fun y => !decide (y.1 + 16 ≤ 2 * sl)), resolved := true, flip := x.2,
             lockCnt := (c.lockCnt + due.length) % 256 }

/-- The channel as the latch at `sl` sees it (R301, R305, R310): steers of boundaries up to `sl`, and every CH_RESOLVE due. -/
def State.chanAt (s : State) (sl : Nat) (c : Chan) : Chan := (s.passTo sl (sl + 2) c).takeResolve sl

/-- The latch sample of a strobe at `l` (R300): the first sample stamped at or after it. -/
def State.latchSample (s : State) (l : Nat) : Nat :=
  let base := (l - s.gnb.scStart.getD 0 - 7) * 8184 / 100000
  (((List.range 4).map fun i => base + i).find? fun k => decide (l ≤ s.sampleLtc k)).getD (base + 4)

/-- The strobe of boundary number `k` is taken now. -/
def State.takeStrobe (k : Int) (s : State) : State :=
  let sl := s.latchSample s.now
  let live := s.gnb.chans.filter fun c => decide (c.2.startSc ≤ sl)
  let st : Strobe := {
    nom := k * s.msPeriod, ltc := s.now, mt := s.mtNow, sl := sl, ltcL := s.sampleLtc sl, state := s.get TMS_STATUS.STATE,
    src := s.get TMS_STATUS.SRC, fwd := s.gnb.fwd, back := s.gnb.back, skipped := s.gnb.skipped,
    gains := (List.range 4).map (fun c => (c, s.get (GNB_CHAIN_STAT.GAIN c))), thr := (s.get GNB_MS_THR.CN0_MIN, s.get GNB_MS_THR.PLI_MIN),
    chans := live.map fun c => (c.1, s.chanAt sl c.2) }
  { s with gnb := { s.gnb with
    lastNom := k, strobes := s.gnb.strobes ++ [st], fwd := false, back := false, skipped := 0
    chans := tmap s.gnb.chans fun _ c => if c.startSc ≤ sl then c.takeResolve sl else c } }

/-- MEAS_STROBE (R142, R299): MT has reached a strobe boundary not yet taken. -/
def State.measStrobe (s : State) : State :=
  let k := s.msNumber s.mtNow
  if s.msOn && s.gnb.lastNom < k then s.takeStrobe (s.gnb.lastNom + 1) else s

def execMeasStrobe (s : State) : Out := .next s.measStrobe

/-- A step of MT (R311): `before` is MT just before it. A forward step skips the boundaries it passes over. -/
def State.gnbStep (before : Int) (s : State) : State :=
  if !s.msOn then s
  else
    let a := s.msNumber before
    let b := s.msNumber s.mtNow
    if s.mtNow < before then { s with gnb := { s.gnb with back := true } }
    else if s.gnb.lastNom < b then
      let n := (b - max a s.gnb.lastNom).toNat
      if n = 0 then s
      else
        let s := { s with gnb := { s.gnb with lastNom := b, fwd := true, skipped := s.gnb.skipped + n } }
        (s.bump GNB_MS_CNT.SKIP n).raise 146
    else s

def State.msMod (s : State) : Nat := 2 * 2 ^ s.get GNB_MS_CFG.MLEN
def State.msFill (s : State) : Nat := (s.get GNB_MS_PI.PI + s.msMod - s.get GNB_MS_CI.CI) % s.msMod

/-- A write of GNB_MS_CI (R303). -/
def State.writeMsCi (value : Word) (s : State) : State :=
  let v := value.toNat % 2 ^ 16
  if !s.getB GNB_CTRL.ENABLE || s.msMod ≤ v || s.msMod / 2 < (s.get GNB_MS_PI.PI + s.msMod - v) % s.msMod then s
  else s.set GNB_MS_CI.CI v

/-- The integrations of a channel in the 100 ms before `l`. -/
def Chan.window (c : Chan) (l : Nat) : List Integ := c.hist.filter fun y => y.ltc ≤ l && decide (l < y.ltc + 100000000)

/-- What decides the flags of a channel entry: CN0, PLI and the locks. -/
def Strobe.locks (st : Strobe) (c : Chan) : Nat × Int × Bool × Bool :=
  let w := c.window st.ltcL
  let cn0 := cn0Of w
  let pli := pliOf w
  (cn0, pli, decide (st.thr.1 ≤ cn0), decide ((st.thr.2 : Int) ≤ pli))

/-- A measurement channel entry (Table 14-2). The CN0 window holds the 8,184,000 samples up to SL. -/
def State.measEntry (s : State) (st : Strobe) (c : Chan) : List Byte :=
  let (cn0, pli, cl, pl) := st.locks c
  let sl := st.sl
  let d := sl - c.sc0
  let inside := (c.phase + d * c.rate) / sigMod c.sig
  let sec := if c.secPh = 0xFFFF then 0xFFFF else (c.secPh + inside) % sigPilot c.sig
  let half := !c.resolved && c.secPh = 0xFFFF
  let late := match c.prev with
    | some (_, _, n) => decide (n ≠ c.lates)
    | none => decide (c.lates ≠ 0)
  let flags := b2n half + 2 * b2n cl + 4 * b2n pl + 8 * b2n late + 16 * b2n (s.satIn c.chain (sl + 1 - 8184000) sl) + 32 * b2n c.prev.isNone
    + 64 * b2n c.resolved + 128 * b2n c.flip
  let acc := c.acc + (d : Int) * (c.freq + 2 ^ 45)
  bytesLE 4 c.handle ++ bytesLE 1 2 ++ bytesLE 1 c.sig ++ bytesLE 1 c.chain ++ bytesLE 1 c.lockCnt ++ bytesLE 2 c.prn ++ bytesLE 2 cn0
    ++ bytesLE 2 (fromSigned 16 pli) ++ bytesLE 2 flags ++ bytesLE 8 (fromSigned 64 (c.code + ((d * c.rate : Nat) : Int)))
    ++ bytesLE 8 (fromSigned 64 (floorDivNat acc 65536 + (if c.flip then 2 ^ 31 else 0)))
    ++ bytesLE 4 (fromSigned 32 (gnbRound ((c.freq + 2 ^ 45) * 81840000000) (2 ^ 48))) ++ bytesLE 4 c.rate ++ bytesLE 2 sec
    ++ bytesLE 2 (tgetD st.gains c.chain 0) ++ bytesLE 4 (c.next - 1) ++ bytesLE 1 c.intMs ++ bytesLE 15 0

/-- The channel, and its copy in each waiting strobe, has a previous entry with these locks. -/
def State.notePrev (h : Nat) (p : Bool × Bool × Nat) (s : State) : State :=
  let f (c : Chan) : Chan := if c.handle = h then { c with prev := some p } else c
  { s with gnb := { s.gnb with
    chans := tmap s.gnb.chans (fun _ c => f c)
    strobes := s.gnb.strobes.map fun t => { t with chans := tmap t.chans fun _ c => f c } } }

/-- One channel entry is written at ring position `i`; CODE_LOCK and PHASE_LOCK are compared with the previous entry. -/
def State.putMeas (st : Strobe) (i : Nat) (c : Chan) (s : State) : State :=
  let base := s.get64 GNB_MS_BASE_LO GNB_MS_BASE_HI
  let (_, _, cl, pl) := st.locks c
  let s := s.dramPuts (base + 64 * (i % (s.msMod / 2))) (s.measEntry st c)
  let chg := match c.prev with
    | some (a, b, _) => decide (a ≠ cl) || decide (b ≠ pl)
    | none => false
  let s := s.notePrev c.handle (cl, pl, c.lates)
  if chg then s.raise 147 else s

/-- The block of the earliest strobe is written once SL has passed, or dropped whole (R302, R304). -/
def State.measBlock (s : State) : State :=
  match s.gnb.strobes with
  | [] => s
  | st :: rest =>
    if s.now < st.ltcL then s
    else
    let s := { s with gnb := { s.gnb with strobes := rest } }
    let n := st.chans.length
    if s.msMod / 2 < s.msFill + n + 1 then
      let first := s.get GNB_MS_CNT.DROP = 0
      let s := { s with gnb := { s.gnb with msGap := true, fwd := s.gnb.fwd || st.fwd, back := s.gnb.back || st.back, skipped := s.gnb.skipped + st.skipped } }.bump GNB_MS_CNT.DROP 1
      if first then s.raise 145 else s
    else
      let pi := s.get GNB_MS_PI.PI
      let base := s.get64 GNB_MS_BASE_LO GNB_MS_BASE_HI
      let seq := if s.gnb.msSeq = 0xFFFFFFFF then 1 else s.gnb.msSeq + 1
      let flags := b2n st.fwd + 2 * b2n st.back + 4 * b2n s.gnb.msGap + 8 * st.state + 32 * st.src
      let head := bytesLE 4 seq ++ bytesLE 1 1 ++ bytesLE 1 flags ++ bytesLE 2 n ++ bytesLE 8 (fromSigned 64 st.nom) ++ bytesLE 8 st.ltc
        ++ bytesLE 8 (fromSigned 64 st.mt) ++ bytesLE 8 st.sl ++ bytesLE 8 st.ltcL ++ bytesLE 2 (satTo 0xFFFF st.skipped) ++ bytesLE 14 0
      let s := s.dramPuts (base + 64 * (pi % (s.msMod / 2))) head
      let s := ((List.range n).zip st.chans).foldl (fun s e => s.putMeas st (pi + 1 + e.1) e.2.2) s
      let s := { s with gnb := { s.gnb with msGap := false, msSeq := seq } }
      (s.set GNB_MS_PI.PI ((pi + n + 1) % s.msMod)).raise 144

/-- MEAS_BLOCK_WRITE (R302, R304). -/
def execMeasBlockWrite (s : State) : Out := .next s.measBlock

/-- A write of GNB_MS_THR: a PLI_MIN above 32,767 keeps its value. -/
def State.writeMsThr (value : Word) (s : State) : State :=
  let old := s.get GNB_MS_THR.PLI_MIN
  let s := s.plainWrite GNB_MS_THR value
  let s := if 32767 < bitsOf value.toNat 16 16 then s.set GNB_MS_THR.PLI_MIN old else s
  s.atSl fun t => { t with thr := (s.get GNB_MS_THR.CN0_MIN, s.get GNB_MS_THR.PLI_MIN) }

/-! ### Reads (R279) -/

/-- The sample-count registers as they read now. -/
def State.gnbScView (s : State) : State :=
  match s.gnb.scStart with
  | none => s
  | some _ =>
    let k := s.scNow / 81840
    let s := s.set64 GNB_SC_LO GNB_SC_HI s.scNow
    (s.set64 GNB_MARK_SC_LO GNB_MARK_SC_HI (k * 81840)).set64 GNB_MARK_LTC_LO GNB_MARK_LTC_HI (s.markLtc k)

/-- A read of GNB_SC_LO (0), GNB_MARK_SC_LO (1) or GNB_CH_STAT(x) (2 + x) latches its companions for the core. -/
def State.readGnb (core which : Nat) (s : State) : State :=
  let v := s.gnbScView
  match which with
  | 0 => (s.latchFor core GNB_SC_HI (v.reg GNB_SC_HI)).answer core (v.reg GNB_SC_LO)
  | 1 =>
    (((s.latchFor core GNB_MARK_SC_HI (v.reg GNB_MARK_SC_HI)).latchFor core GNB_MARK_LTC_LO (v.reg GNB_MARK_LTC_LO)).latchFor
      core GNB_MARK_LTC_HI (v.reg GNB_MARK_LTC_HI)).answer core (v.reg GNB_MARK_SC_LO)
  | n => (s.latchFor core (GNB_CH_BOUND (n - 2)) (s.reg (GNB_CH_BOUND (n - 2)))).answer core (s.reg (GNB_CH_STAT (n - 2)))

/-! ### Enable and disable (R296, R320) -/

def perMsOk (p : Nat) : Bool := [10, 20, 25, 40, 50, 100, 125, 200, 250, 500, 1000].contains p

/-- The tests of R296 and R320. -/
def State.gnbTests (s : State) : List CheckTest :=
  if s.part = .s24 then [(true, 0x09, 0)]
  else
    let len := s.get GNB_ACC_CFG.LEN
    let acc := (s.accBase, 128 * 2 ^ len)
    let rings := ((List.range 2).filter fun r => s.ringUsed 0x08 r).flatMap fun r => s.ringAreas 0x08 r
    let wins : List CheckTest := (List.range 2).map fun w => (decide ((s.dwin 0x08 w).2 ≠ 0 && dramSize < (s.dwin 0x08 w).1 + (s.dwin 0x08 w).2), 0x05, 0x40 + 16 * w)
    let notch : List CheckTest := (List.range 16).map fun i =>
      (decide (4092 < (toSigned 13 (s.get (GNB_NOTCH.FREQ (i / 4) (i % 4)))).natAbs), 0x05, 0x308 + 32 * (i / 4) + 4 * (i % 4))
    let ml := s.get GNB_MS_CFG.MLEN
    let ms := (s.get64 GNB_MS_BASE_LO GNB_MS_BASE_HI, 64 * 2 ^ ml)
    let on := s.getB GNB_MS_CFG.MS_EN
    [(!s.nv.gnsRuns, 0x06, 0), (len < 8 || 16 < len, 0x05, 0x148), (8 ≤ len && len ≤ 16 && !s.inWins 0x08 acc.1 acc.2, 0x05, 0x140), (rings.any (overlaps acc), 0x08, 0x100)]
      ++ s.ringTests 0x08 ++ wins ++ notch
      ++ [(on && (!perMsOk (s.get GNB_MS_CFG.PER_MS) || ml < 10 || 14 < ml), 0x05, 0x400), (on && 10 ≤ ml && ml ≤ 14 && !s.inWins 0x08 ms.1 ms.2, 0x05, 0x408),
        (on && rings.any (overlaps ms), 0x08, 0x100), (on && overlaps ms acc, 0x08, 0x140)]

/-- What a passed check starts: SC from 0, the bias, empty rings, the strobes from the next boundary (R276, R296, R299). -/
def State.gnbStart (s : State) : State :=
  let s := { s with gnb := {
    scStart := some s.now, lastNom := if s.msPeriod = 0 then 0 else s.msNumber s.mtNow
    sats := ((List.range 4).filter fun c => s.getB (GNB_CHAIN_STAT.SAT c)).map fun c => (c, 0, none) } }
  let s := ((s.set GNB_ACC_PI.PI 0).set GNB_ACC_CI.CI 0).set GNB_MS_PI.PI 0 |>.set GNB_MS_CI.CI 0
  ((List.range 2).foldl (fun s a => s.setBias a (s.getB (GNB_ANT.BIAS_EN a))) s).gnbCounts

/-- ENABLE 1 → 0 (R296, R320): channels are destroyed, searches abandoned without a record
(their commands complete, R127; the spec gives no reason for them: a free one), the bias goes off and SC stops. The blocks whose SL lies
before are written first, the others abandoned. -/
def State.gnbDisable (s : State) : State :=
  let s := s.gnb.strobes.foldl (fun s _ => s.measBlock) s
  let s := (s.gnbScView).setB GNB_CTRL.ENABLE false
  let s := s.gnb.searches.foldl (fun s x => (s.completeSelf 0x08 1 x.2.id (s.freshCode [0x20, 0x21, 0x22, 0x23, 0x24])).drawn) s
  let idx := s.gnb.chans.map (·.1)
  let s := { s with gnb := { s.gnb with scStart := none, chans := [], searches := [], accFrom := none, strobes := [], jamFrom := [], base := [] } }
  let s := (List.range 4).foldl (fun s c => s.unlock c) s
  let s := idx.foldl (fun s x => s.showChan x) s
  ((List.range 2).foldl (fun s a => s.setBias a false) s).gnbCounts

/-- GNB_DISABLE (R296). -/
def execGnbDisable (s : State) : Out := .next (if s.getB GNB_CTRL.ENABLE then s.gnbDisable else s)

end Sys2Proof.Machine
end

