-- ==== Sys2Proof/Machine/MtGrid.lean ====
section
/-! DEFINITION. A whole second of MT (R142, R146) and what a step of MT there does to the blocks whose boundaries lie on the MT
grid. -/

namespace Sys2Proof.Machine

/-- MT reaches a whole second. A strobe and a Canvas instant due with it are taken first: a step that takes effect there cannot pass
over the boundary it is taken at. After a step, the strobes and instants note it (R142, R311, R380). -/
def State.gridSecond (s : State) : State :=
  let s := s.measStrobe.fusBoundary
  let before := s.mtNow
  let n := s.tms.steps
  let s := s.mtSecond
  if s.tms.steps = n then s else (s.gnbStep before).fusStep before

/-- MT_SECOND (R142, R146). -/
def execMtSecond (s : State) : Out := .next s.gridSecond

end Sys2Proof.Machine
end

