-- ==== Sys2Proof/Machine/Inp.lean ====
section
/-! DEFINITION. INP (chapter 7): analog inputs, pulse inputs and quadrature, acoustic loss inputs, crop flow, sensor
supplies, analog outputs and digital inputs. -/

namespace Sys2Proof.Machine

/-! ### Facts of the IO region the registers do not show -/

/-- Pulse inputs in service, pairs declared quadrature, loss inputs in service (Table 4-1): one bit each. -/
def imgPinSvc : Nat := imgKey 0 1
def imgQuadPairs : Nat := imgKey 0 2
def imgLacSvc : Nat := imgKey 0 3

/-- The least DIV of analog input `n`, by which the image bounds its sample rate (Table 4-1); 0 where it sets no bound. -/
def imgAinDiv (n : Nat) : Nat := imgKey 0 (0x100 + n)

/-- INP runs: enabled with its region loaded. -/
def State.inpOn (s : State) : Bool := s.enabled 0x04 && s.loaded 0

def State.ain (s : State) (n : Nat) : Ain := tgetD s.inp.ains n {}
def State.setAin (n : Nat) (a : Ain) (s : State) : State := { s with inp := { s.inp with ains := tput s.inp.ains n a } }
def State.pin (s : State) (n : Nat) : Pin := tgetD s.inp.pins n {}
def State.setPin (n : Nat) (p : Pin) (s : State) : State := { s with inp := { s.inp with pins := tput s.inp.pins n p } }
def State.lac (s : State) (n : Nat) : Lac := tgetD s.inp.lacs n {}
def State.setLac (n : Nat) (l : Lac) (s : State) : State := { s with inp := { s.inp with lacs := tput s.inp.lacs n l } }

/-- A register's word as a binary32 number. -/
def State.f32 (s : State) (a : Nat) : F32 := (s.reg a).toNat

/-! ### Settings in force (R150) -/

/-- The word register `a` held at the LTC `t`: a write counts for what starts after it lands. -/
def State.inpAt (s : State) (a t : Nat) : Word :=
  match s.inp.past.find? fun x => x.2.1 = a && decide (t ≤ x.1) with
  | some x => x.2.2
  | none => s.reg a

/-- A field as it was at the LTC `t`. -/
def State.inpGet (s : State) (f : Fld) (t : Nat) : Nat := bitsOf (s.inpAt f.addr t).toNat f.lo f.width

/-- A write is about to change register `a`: while INP runs its word is kept for what is open. -/
def State.keepPast (a : Nat) (s : State) : State :=
  if s.inpOn then { s with inp := { s.inp with past := s.inp.past ++ [(s.now, a, s.reg a)] } } else s

/-! ### Supplies (R163) -/

/-- A supply is on: EN, not switched off by a fault, INP enabled, IO loaded. -/
def State.supplyOn (s : State) (i : Nat) : Bool :=
  s.inpOn && bitAt (s.get INP_SSUP.EN) i && !bitAt s.inp.supOff i

/-- A supply is off or in current limit. -/
def State.supplyBad (s : State) (i : Nat) : Bool := !s.supplyOn i || bitAt (s.get INP_SSUP.LIMIT) i

/-- What supply `i` has been up to now is kept (R155). -/
def State.noteSupply (i : Nat) (s : State) : State :=
  { s with inp := { s.inp with supPast := s.inp.supPast ++ [(i, s.now, s.supplyBad i)] } }

/-- In a supply's past, oldest first, and with its present condition: was it off or in limit within `[a, b)`? -/
def badIn (a b : Nat) (now : Bool) : Nat → List (Nat × Bool) → Bool
  | from0, [] => now && decide (from0 < b)
  | from0, (u, bad) :: rest => (bad && decide (from0 < b) && decide (a < u)) || badIn a b now u rest

/-- Was supply `i` off or in limit within `[a, b)`? -/
def State.supplyWasBad (s : State) (i a b : Nat) : Bool :=
  badIn a b (s.supplyBad i) 0 ((s.inp.supPast.filter fun x => x.1 = i).map fun x => x.2)

/-- A write of INP_SSUP: FAULT is W1C; an EN bit written from 0 to 1 switches its supply on again; a supply that is off is not in limit. -/
def State.writeSsup (value : Word) (s : State) : State :=
  let old := s.get INP_SSUP.EN
  let new := value.toNat % 64
  let rise := new &&& (63 - old)
  let s := (List.range 6).foldl (fun (s : State) i => s.noteSupply i) s
  let s := s.set INP_SSUP.FAULT (s.get INP_SSUP.FAULT &&& (63 - bitsOf value.toNat 8 6))
  let s := (s.set INP_SSUP.EN new).set INP_SSUP.LIMIT (s.get INP_SSUP.LIMIT &&& new)
  { s with inp := { s.inp with supOff := s.inp.supOff &&& (63 - rise) } }

/-- SSUP_LIMIT (R163): the load of a supply that is on goes over its limit, or back under it. -/
def execSsupLimit (i : Fin 6) (ovr : Bool) (s : State) : Out :=
  if s.supplyOn i.val && ovr ≠ bitAt (s.get INP_SSUP.LIMIT) i.val then
    let s := s.noteSupply i.val
    .next ({ s with inp := { s.inp with limitAt := tput s.inp.limitAt i.val s.now } }.setB ⟨INP_SSUP, 16 + i.val, 1⟩ ovr)
  else .next s

/-- SSUP_FAULT (R163): 10 ms in limit: the supply switches off; its EN bit stays 1. -/
def execSsupFault (i : Fin 6) (s : State) : Out :=
  if s.supplyOn i.val && bitAt (s.get INP_SSUP.LIMIT) i.val && decide (10000000 ≤ s.since (tgetD s.inp.limitAt i.val 0)) then
    let s := s.noteSupply i.val
    let s := { s with inp := { s.inp with supOff := putBits s.inp.supOff i.val 1 1 } }
    .next (((s.setB ⟨INP_SSUP, 16 + i.val, 1⟩ false).setB ⟨INP_SSUP, 8 + i.val, 1⟩ true).raise 360)
  else .next s

/-! ### Analog inputs (R151 to R155) -/

/-- One frame of the filter (R152): `x` and `y` in 16.4 fixed point; the shift rounds toward minus infinity. -/
def filterStep (k : Nat) (y x : Nat) : Nat := (((y : Int) + floorDivNat ((x : Int) - y) (2 ^ k)) : Int).toNat

/-- The frames of one published sample, oldest first: each the filter shift at its start and the sum of the input's 2^OVS conversions. -/
def ainFrames (ovs : Nat) : List (Nat × Nat) → Ain → Ain
  | [], a => a
  | (k, sum) :: rest, a =>
    let x := sum * 16 / 2 ^ ovs
    ainFrames ovs rest { a with y := if a.started then filterStep k a.y x else x, started := true }

/-- CODE: y rounded to nearest with ties up, saturated. -/
def ainCode (y : Nat) : Nat := satTo 65535 ((y + 8) / 16)

/-- Start of frame `f` (R151): 10 µs each, from ENABLE. -/
def State.frameStart (s : State) (f : Nat) : Nat := s.inp.start + 10000 * f

/-- Slots that input `n` takes in its converter's frame, and its first one (R151): the lowest free, in order of input number. -/
def State.ainWidth (s : State) (n : Nat) : Nat := if s.get (INP_AIN_CFG.DIV n) = 0 then 0 else 2 ^ s.get (INP_AIN_CFG.OVS n)
def State.ainSlot (s : State) (n : Nat) : Nat := ((List.range (n / 4)).map fun k => s.ainWidth (n % 4 + 4 * k)).sum

/-- Start and end of input `n`'s conversions in frame `f`; slots are 500 ns. -/
def State.ainConv (s : State) (n f : Nat) : Nat × Nat :=
  let a := s.frameStart f + 500 * s.ainSlot n
  (a, a + 500 * s.ainWidth n)

/-- The midpoint of the slots in frame `f`, which the stamp shows to R20's 8 ns, and the LTC at which the sample becomes available: 500 ns
after its slots (R152, R153). -/
def State.ainMid (s : State) (n f : Nat) : Nat := ((s.ainConv n f).1 + (s.ainConv n f).2) / 2
def State.ainReady (s : State) (n f : Nat) : Nat := (s.ainConv n f).2 + 500

/-- Frames since the sample before: one at frame 0, DIV after it. -/
def State.ainCount (s : State) (n : Nat) : Nat := if (s.ain n).next = 0 then 1 else s.get (INP_AIN_CFG.DIV n)

/-- The frame numbers of the next sample, oldest first. -/
def State.ainNumbers (s : State) (n : Nat) : List Nat := (List.range (s.ainCount n)).map fun i => (s.ain n).next + 1 - s.ainCount n + i

/-- The input after the frames of its next sample, whose conversion sums are `frames`; each frame filters with the K at its start (R150). -/
def State.ainNext (s : State) (n : Nat) (frames : List Nat) : Ain :=
  ainFrames (s.get (INP_AIN_CFG.OVS n)) (((s.ainNumbers n).map fun f => s.inpGet (INP_AIN_CFG.K n) (s.frameStart f)).zip frames) (s.ain n)

/-- The CODE of the next sample. -/
def State.ainNextCode (s : State) (n : Nat) (frames : List Nat) : Nat := if (s.ain n).shunt then 0 else ainCode (s.ainNext n frames).y

/-- The reference supply of a ratiometric input was off or in limit during a conversion of its next sample (R155). -/
def State.ratioLost (s : State) (n : Nat) : Bool :=
  s.imgFld (INP_AIN_CFG.MODE n) = 4 && (s.ainNumbers n).any fun f => s.supplyWasBad (s.imgFld (INP_AIN_CFG.REF n)) (s.ainConv n f).1 (s.ainConv n f).2

/-- The flags of the next sample, with this CODE: bit 3 SHUNT, 2 RATIO_LOST, 1 HI, 0 LO (R155), by the limits at its frame's start. -/
def State.ainFlags (s : State) (n code : Nat) : Nat :=
  let t := s.frameStart (s.ain n).next
  8 * b2n (s.ain n).shunt + 4 * b2n (s.ratioLost n) + 2 * b2n (decide (s.inpGet (INP_AIN_LIM.HI n) t < code)) +
    b2n (decide (code < s.inpGet (INP_AIN_LIM.LO n) t))

/-- VAL of the next sample, with this CODE, by the scaling at its frame's start (R152). -/
def State.ainVal (s : State) (n code : Nat) : F32 :=
  let t := s.frameStart (s.ain n).next
  F.fma (F.ofNat code) (s.inpAt (INP_AIN_GAIN n) t).toNat (s.inpAt (INP_AIN_OFS n) t).toNat

/-- Sticky bits set; each one going from 0 to 1 raises source 352. -/
def State.ainSticky (n flags : Nat) (s : State) : State :=
  let old := s.get (INP_AIN_FLT.STICKY n)
  let s := s.set (INP_AIN_FLT.STICKY n) (old ||| flags)
  (List.range 4).foldl (fun s i => if bitAt flags i && !bitAt old i then s.raise 352 else s) s

/-- A sample enters the flow window that holds its stamp (R162). -/
def State.flowSample (n code flags stamp : Nat) (s : State) : State :=
  if s.getB INP_FLOW_CFG.EN && s.get INP_FLOW_CFG.SRC = n then
    let w := stamp / 10000000
    let (sum, cnt, bad) := tgetD s.inp.flow w (0, 0, false)
    { s with inp := { s.inp with flow := tput s.inp.flow w (sum + code, cnt + 1, bad || decide (flags ≠ 0)) } }
  else s

/-- The next sample of input `n`, with one sum of conversions per frame and this stamp, is due: it has become available, and the stamp is the
midpoint of its slots within 8 ns (R20, R152, R153). -/
def State.ainDue (s : State) (n : Nat) (frames : List Nat) (stamp : Nat) : Bool :=
  let f := (s.ain n).next
  s.inpOn && decide (s.get (INP_AIN_CFG.DIV n) ≠ 0) && decide (s.imgFld (INP_AIN_CFG.MODE n) ≠ 0) && decide (frames.length = s.ainCount n)
    && decide (s.ainMid n f ≤ stamp + 8) && decide (stamp ≤ s.ainMid n f + 8) && decide (s.ainReady n f < s.now + 8)

/-- AIN_SAMPLE_PUBLISH (R152, R153): a sample of input `n` becomes available. `frames`: the conversion sums of the frames since
the sample before, oldest first; `stamp`: the LTC of the midpoint of the input's slots. -/
def execAinSamplePublish (n : Fin 48) (frames : List Nat) (stamp : Nat) (s : State) : Out :=
  let i := n.val
  if !s.ainDue i frames stamp then .next s
  else
    let a := s.ainNext i frames
    let code := s.ainNextCode i frames
    let flags := s.ainFlags i code
    let val := s.ainVal i code
    let s := { s with inp := { s.inp with pubs := s.inp.pubs + 1 } }
    let s := s.setAin i { a with stamp := stamp, next := a.next + s.get (INP_AIN_CFG.DIV i), tok := s.inp.pubs }
    let s := ((s.set (INP_AIN_RAW.CODE i) code).set (INP_AIN_RAW.FLAGS i) flags).wrapInc (INP_AIN_RAW.SEQ i)
    let s := s.setReg (INP_AIN_VAL i) (BitVec.ofNat 32 val)
    .next ((s.ainSticky i flags).flowSample i code flags stamp)

/-- AIN_SHUNT (R155): a current-mode input has been above 30 mA for 10 ms. From now on it reads CODE 0 with SHUNT set. -/
def execAinShunt (n : Fin 48) (s : State) : Out :=
  let a := s.ain n.val
  .next (if s.inpOn && s.imgFld (INP_AIN_CFG.MODE n.val) = 3 && !a.shunt then
    ((((s.setAin n.val { a with shunt := true }).set (INP_AIN_RAW.CODE n.val) 0).setB ⟨INP_AIN_RAW n.val, 31, 1⟩ true)).raise 353 else s)

/-- A write of INP_AIN_FLT: STICKY is W1C; REARM recloses an open shunt. -/
def State.writeAinFlt (n : Nat) (value : Word) (s : State) : State :=
  let s := s.set (INP_AIN_FLT.STICKY n) (s.get (INP_AIN_FLT.STICKY n) &&& (15 - value.toNat % 16))
  if bitAt value.toNat 31 then s.setAin n { s.ain n with shunt := false } else s

/-- A read of INP_AIN_RAW(n) latches INP_AIN_VAL(n) of the same sample. -/
def State.readAinRaw (core n : Nat) (s : State) : State :=
  (s.latchFor core (INP_AIN_VAL n) (s.reg (INP_AIN_VAL n))).answer core (s.reg (INP_AIN_RAW n))

/-! ### Pulse inputs (R156 to R159) -/

/-- A value is published: VAL, the stamp of the last edge used or of the gate end, SEQ. -/
def State.pinPublish (n v ltc : Nat) (s : State) : State :=
  let s := { s with inp := { s.inp with pubs := s.inp.pubs + 1 } }
  let s := s.setPin n { s.pin n with pub := true, tok := s.inp.pubs }
  let s := s.setReg (INP_PIN_VAL n) (BitVec.ofNat 32 v)
  (s.set64 (INP_PIN_LTC_LO n) (INP_PIN_LTC_HI n) ltc).wrapInc (INP_PIN_STAT.SEQ n)

/-- A kept rising edge of an input that is not part of a quadrature pair (Table 7-2, R158). -/
def State.pinRise (n stamp : Nat) (p : Pin) (s : State) : State :=
  let per := p.lastRise.map fun t => stamp - t
  let kind := s.get (INP_PIN_CFG.KIND n)
  let p' := { p with
    lastRise := some stamp, period := per.or p.period, count := (p.count + 1) % 2 ^ 32, rises := if kind = 1 then p.rises ++ [stamp] else [] }
  let s := (s.setPin n p').setB (INP_PIN_STAT.STALL n) false
  match kind with
  | 2 =>
    match per with
    | some d => s.pinPublish n (F.ofNat d) stamp
    | none => s
  | 3 =>
    match p.lastRise, p.lastFall with
    | some r, some f => if r ≤ f && r < stamp then s.pinPublish n (F.ofRatio ((f - r : Nat) : Int) (stamp - r)) stamp else s
    | _, _ => s
  | 4 => s.pinPublish n p'.count stamp
  | _ => s

/-- A counted quadrature transition (R159): up when the even input leads. `even`, `odd`: the levels before; `evenMoved`: the
even input is the one that changes. -/
def quadStep (even odd evenMoved : Bool) : Int :=
  if evenMoved then (if even = odd then 1 else -1) else (if even = odd then -1 else 1)

/-- Is input `n` part of a pair counted in quadrature: the image declares it so and the even input has KIND 5. -/
def State.inQuad (s : State) (n : Nat) : Bool :=
  bitAt (s.image imgQuadPairs) (n / 2) && s.get (INP_PIN_CFG.KIND (2 * (n / 2))) = 5

/-- An edge on a quadrature pair. Where both inputs change, the count stays; a rising edge of the even input counts as one for STALL (R158,
R159). -/
def State.quadEdge (n stamp : Nat) (rise both : Bool) (s : State) : State :=
  let e := 2 * (n / 2)
  let pe := s.pin e
  let po := s.pin (e + 1)
  if both then
    let up := !pe.level
    let s := (s.setPin e { pe with level := up, lastRise := if up then some stamp else pe.lastRise }).setPin (e + 1) { po with level := !po.level }
    let s := if up then s.setB (INP_PIN_STAT.STALL e) false else s
    (s.bump (INP_PIN_STAT.QERR e) 1).raise 355
  else
    let d := quadStep pe.level po.level (decide (n = e))
    let pe' := { pe with quad := pe.quad + d, level := if n = e then rise else pe.level, lastRise := if n = e && rise then some stamp else pe.lastRise }
    let s := s.setPin e pe'
    let s := if n = e then (if rise then s.setB (INP_PIN_STAT.STALL e) false else s) else s.setPin (e + 1) { po with level := rise }
    s.pinPublish e (fromSigned 32 pe'.quad) stamp

/-- PIN_EDGE (R156, R157): an edge of input `n` stamped `stamp`; `held`: how many CTL cycles the level it begins lasts; `both`:
the other input of its pair changes at the same CTL edge. A level shorter than MINW is ignored; one of fewer than 240
cycles is ignored and advances FAST; an edge back to the level last kept ends an ignored one. -/
def execPinEdge (n : Fin 24) (rise both : Bool) (stamp held : Nat) (s : State) : Out :=
  let i := n.val
  let p := s.pin i
  if !s.inpOn then .next (s.setPin i { p with level := rise })
  else if p.level = rise then .next s
  else if held < s.inpGet (INP_PIN_CFG.MINW i) stamp then .next s
  else if held < 240 then .next (s.bump (INP_PIN_STAT.FAST i) 1)
  else if s.inQuad i then .next (s.quadEdge i stamp rise both)
  else
    let p := { p with level := rise }
    .next (if rise then s.pinRise i stamp p else s.setPin i { p with lastFall := some stamp })

/-- The FREQ value of a gate from `a` to `b` over the rising edges `l`, oldest first (R157, R158): (edges − 1) / (last − first); with fewer
than two, 1 / PERIOD where the last rising edge lies within `timeout` ms of the gate end; else 0. -/
def gateFreq (a b timeout : Nat) (l : List Nat) : F32 :=
  let past := l.filter fun t => decide (t < b)
  match past.filter fun t => decide (a ≤ t), past.reverse with
  | x :: y :: more, _ =>
    let last := (y :: more).getLastD y
    F.ofRatio (((1 + more.length) * 1000000000 : Nat) : Int) (last - x)
  | _, z :: y :: _ => if b ≤ z + timeout * 1000000 && z ≠ y then F.ofRatio 1000000000 (z - y) else F.zero
  | _, _ => F.zero

/-- Gate time in ns of input `n` for a gate that starts at `t` (R150). -/
def State.gateNs (s : State) (n t : Nat) : Nat := s.inpGet (INP_PIN_TIM.GATE n) t * 1000000

/-- End of the open gate of input `n`: the next multiple of its GATE. -/
def State.gateEnd (s : State) (n : Nat) : Nat :=
  let g := s.gateNs n (s.pin n).gate
  ((s.pin n).gate / g + 1) * g

/-- PIN_GATE_END (R157, R158): the open FREQ gate has ended, and 240 CTL cycles, 500 ns, have passed. The next gate starts at the first
multiple of the GATE then in force. -/
def execPinGateEnd (n : Fin 24) (s : State) : Out :=
  let i := n.val
  let p := s.pin i
  let fin := s.gateEnd i
  if !s.inpOn || s.get (INP_PIN_CFG.KIND i) ≠ 1 || s.gateNs i p.gate = 0 || s.now + 8 ≤ fin + 500 then .next s
  else
    let v := gateFreq p.gate fin (s.inpGet (INP_PIN_TIM.TIMEOUT i) p.gate) p.rises
    let g := s.gateNs i fin
    let old := p.rises.filter fun t => decide (t < fin)
    let s := s.setPin i { p with rises := old.drop (old.length - 2) ++ p.rises.filter (fun t => decide (fin ≤ t)), gate := ceilDiv fin g * g }
    .next (s.pinPublish i v fin)

/-- PIN_STALL (R158): no rising edge for TIMEOUT ms. -/
def execPinStall (n : Fin 24) (s : State) : Out :=
  let i := n.val
  let from0 := ((s.pin i).lastRise).getD s.inp.start
  if s.inpOn && s.get (INP_PIN_CFG.KIND i) ≠ 0 && !s.getB (INP_PIN_STAT.STALL i)
      && s.inpGet (INP_PIN_TIM.TIMEOUT i) from0 * 1000000 ≤ s.since from0 then
    .next ((s.setB (INP_PIN_STAT.STALL i) true).raise 354)
  else .next s

/-- PIN_WEAK (R159): a variable-reluctance peak has stayed below 0.1 V for TIMEOUT ms. -/
def execPinWeak (n : Fin 24) (s : State) : Out :=
  .next (if s.inpOn && s.getB (INP_PIN_CFG.TYPE n.val) then s.raise 356 else s)

/-- A read of INP_PIN_VAL(n) latches STAT and both LTC words for the same value. -/
def State.readPinVal (core n : Nat) (s : State) : State :=
  let s := s.latchFor core (INP_PIN_STAT n) (s.reg (INP_PIN_STAT n))
  let s := (s.latchFor core (INP_PIN_LTC_LO n) (s.reg (INP_PIN_LTC_LO n))).latchFor core (INP_PIN_LTC_HI n) (s.reg (INP_PIN_LTC_HI n))
  s.answer core (s.reg (INP_PIN_VAL n))

/-! ### Acoustic loss (R160, R161) -/

/-- A fault bit of a loss input; going from 0 to 1 raises source 358. -/
def State.lacFault (n bit : Nat) (s : State) : State :=
  let f : Fld := ⟨INP_LAC_STAT n, bit, 1⟩
  if s.getB f then s else (s.setB f true).raise 358

/-- The envelope (R160): e ← max(|x|, e − (e >> DECAY)), 23-bit unsigned. -/
def envelope (decay e : Nat) (x : Int) : Nat := satTo 0x7FFFFF (max x.natAbs (e - e / 2 ^ decay))

/-- Length in ns of the windows of loss input `n`, and when window `w` started: no sooner than ENABLE. -/
def State.lacNs (s : State) (n : Nat) : Nat := s.get (INP_LAC_WIN.WIN n) * 1000000
def State.lacStart (s : State) (n w : Nat) : Nat := max (w * s.lacNs n) s.inp.start

/-- LAC_SAMPLE (R160): a sample passes the high-pass, the envelope and the impact detector, in the window that holds its stamp and with
that window's settings (R150). With HP = 0 the envelope takes the sample; else the filter's output, a free value (log entry 10). -/
def execLacSample (n : Fin 8) (sample : LacSample) (s : State) : Out :=
  let i := n.val
  let w := sample.stamp / s.lacNs i
  if !s.inpOn || s.lacNs i = 0 || w < (s.lac i).next || s.now + 8 < sample.stamp then .next s
  else
    let t := s.lacStart i w
    let hp := s.inpGet (INP_LAC_CFG.HP i) t
    let x : Int := if hp = 0 then sample.code.toInt else toSigned 24 (s.fresh 24)
    let s := if hp = 0 then s else s.drawn
    let l := s.lac i
    let thr := s.inpGet (INP_LAC_THR.THR i) t
    let e := envelope (s.inpGet (INP_LAC_CFG.DECAY i) t) l.e x
    let clear := match l.since with
      | none => true
      | some k => s.inpGet (INP_LAC_CFG.DEAD i) t ≤ k + 1
    let hit := l.e < thr && thr ≤ e && clear
    let a := (tget l.wins w).getD { from0 := sample.stamp }
    let a := { a with peak := max a.peak e, count := if hit then satTo 0xFFFFFF (a.count + 1) else a.count }
    let s := s.setLac i { l with e := e, wins := tput l.wins w a, since := if hit then some 0 else l.since.map (· + 1) }
    .next (if sample.code.toInt = 0x7FFFFF || sample.code.toInt = -0x800000 then s.lacFault i 0 else s)

/-- The result of the next window of loss input `n` has become available: 500 ns after the first sample of a later window (R161). -/
def State.lacDue (s : State) (n : Nat) : Bool :=
  s.inpOn && decide (s.lacNs n ≠ 0) && (s.lac n).wins.any fun x => decide ((s.lac n).next < x.1) && decide (x.2.from0 + 500 < s.now + 8)

/-- LAC_WIN (R161): a window's result becomes available. -/
def execLacWin (n : Fin 8) (s : State) : Out :=
  let i := n.val
  if !s.lacDue i then .next s
  else
    let l := s.lac i
    let w := l.next
    let fin := (w + 1) * s.lacNs i
    let irq := bitAt (s.inpAt (INP_LAC_WIN i) (s.lacStart i w)).toNat 31
    let a := tgetD l.wins w {}
    let s := s.setLac i { l with wins := tdel l.wins w, next := w + 1 }
    let s := (s.set (INP_LAC_CNT.COUNT i) a.count).wrapInc (INP_LAC_CNT.SEQ i)
    let s := (s.set (INP_LAC_PEAK.PEAK i) a.peak).setB (INP_LAC_PEAK.PARTIAL i) (decide (w = s.inp.start / s.lacNs i))
    let s := s.set64 (INP_LAC_LTC_LO i) (INP_LAC_LTC_HI i) fin
    let s := if s.enabled 0x0D then
        s.yldLossIn { input := i, count := a.count, endLtc := fin, winMs := s.get (INP_LAC_WIN.WIN i) }
      else s
    .next (if irq then s.raise 357 else s)

/-- LAC_OPEN (R161): the common mode has been outside 0 V to 5 V for 10 ms. -/
def execLacOpen (n : Fin 8) (s : State) : Out := .next (if s.inpOn then s.lacFault n.val 1 else s)

/-- A read of INP_LAC_CNT(n) latches PEAK and both LTC words. -/
def State.readLacCnt (core n : Nat) (s : State) : State :=
  let s := s.latchFor core (INP_LAC_PEAK n) (s.reg (INP_LAC_PEAK n))
  let s := (s.latchFor core (INP_LAC_LTC_LO n) (s.reg (INP_LAC_LTC_LO n))).latchFor core (INP_LAC_LTC_HI n) (s.reg (INP_LAC_LTC_HI n))
  s.answer core (s.reg (INP_LAC_CNT n))

/-! ### Crop flow (R162) -/

/-- The flow of a window (R162), rounded at each operation. -/
def flowValue (sum n gain ofs tare k : Nat) : F32 :=
  let m := F.div (F.ofNat sum) (F.ofNat n)
  let v := F.fma m gain ofs
  F.mul (F.max (F.sub v tare) F.zero) k

/-- The next 10 ms window has ended, and no sample of its input that belongs to it is still to come (R162). -/
def State.flowDue (s : State) : Bool :=
  let fin := (s.inp.flowNext + 1) * 10000000
  let src := s.get INP_FLOW_CFG.SRC
  s.inpOn && s.getB INP_FLOW_CFG.EN && decide (fin ≤ s.now) && decide (fin ≤ s.ainMid src (s.ain src).next + 8)

/-- FLOW_WINDOW_END (R162): the next 10 ms window is complete; it uses the settings with which it began (R150). -/
def execFlowWindowEnd (s : State) : Out :=
  let w := s.inp.flowNext
  let fin := (w + 1) * 10000000
  if !s.flowDue then .next s
  else
    let (sum, n, bad) := tgetD s.inp.flow w (0, 0, false)
    let src := s.get INP_FLOW_CFG.SRC
    let v := if n = 0 then F.zero
      else
        let at0 (a : Nat) : F32 := (s.inpAt a (max (w * 10000000) s.inp.start)).toNat
        flowValue sum n (at0 (INP_AIN_GAIN src)) (at0 (INP_AIN_OFS src)) (at0 INP_FLOW_TARE) (at0 INP_FLOW_K)
    let valid := decide (n ≠ 0) && !bad
    let was := s.getB INP_FLOW_STAT.VALID
    let s := { s with inp := { s.inp with flow := tdel s.inp.flow w, flowNext := w + 1 } }
    let s := (s.setReg INP_FLOW_VAL (BitVec.ofNat 32 v)).set INP_FLOW_STAT.CNT n
    let s := (s.setB INP_FLOW_STAT.VALID valid).wrapInc INP_FLOW_STAT.SEQ
    let s := s.set64 INP_FLOW_LTC_LO INP_FLOW_LTC_HI fin
    let s := if s.enabled 0x0D then
        { s with inp := { s.inp with flowQ := s.inp.flowQ ++ [{ flow := v, valid := valid, endLtc := fin }] } }
      else s
    .next (if was && !valid then s.raise 359 else s)

/-- A read of INP_FLOW_STAT latches VAL and both LTC words. -/
def State.readFlowStat (core : Nat) (s : State) : State :=
  let s := s.latchFor core INP_FLOW_VAL (s.reg INP_FLOW_VAL)
  let s := (s.latchFor core INP_FLOW_LTC_LO (s.reg INP_FLOW_LTC_LO)).latchFor core INP_FLOW_LTC_HI (s.reg INP_FLOW_LTC_HI)
  s.answer core (s.reg INP_FLOW_STAT)

/-! ### Analog outputs and digital inputs (R164, R165) -/

/-- AOUT_FAULT (R164): a load above 15 mA on a driven output. -/
def execAoutFault (n : Fin 8) (s : State) : Out :=
  .next (if s.inpOn && s.getB (INP_AOUT.EN n.val) && !s.getB (INP_AOUT.FAULT n.val) then
    (s.setB (INP_AOUT.FAULT n.val) true).raise 361 else s)

/-- CLE writes a binary32 voltage to an AOUT with SRC = 1 (R164): clamped to 0 V to 10 V, converted with rounding to
nearest. -/
def State.aoutFromCle (n : Nat) (u : F32) (s : State) : State :=
  if s.inpOn && s.getB (INP_AOUT.SRC n) then
    let v := F.clamp u F.zero 0x41200000
    s.set (INP_AOUT.CODE n) (F.scaledRoundDiv v 65535 10).toNat
  else s

/-- DIN_EDGE (R165): an edge of a digital input, whose new level has lasted some µs. It is a debounced edge once that is the 20 µs of the
filter and DEB ms, as DEB stood at the edge. -/
def execDinEdge (n : Fin 16) (edge : DinEdge) (s : State) : Out :=
  if !s.inpOn || s.getB ⟨INP_DIN, n.val, 1⟩ = edge.rise || edge.held < 20 + 1000 * s.inpGet INP_DIN_CFG.DEB (s.now - 1000 * edge.held) then .next s
  else
    let s := s.setB ⟨INP_DIN, n.val, 1⟩ edge.rise
    .next (if bitAt (s.get (if edge.rise then INP_DIN_IRQ.RISE else INP_DIN_IRQ.FALL)) n.val then s.raise 362 else s)

/-! ### Enable and disable (R163, R166) -/

/-- ENABLE 1 → 0: frames, gates and windows stop, every supply is off and every analog output is high impedance: all of it
follows from ENABLE = 0. -/
def State.inpDisable (s : State) : State := (s.setB INP_CTRL.ENABLE false).set INP_SSUP.LIMIT 0

/-- INP_DISABLE (R163). -/
def execInpDisable (s : State) : Out := .next (if s.getB INP_CTRL.ENABLE then s.inpDisable else s)

/-- What a passed check starts: the first frame, gates and windows. -/
def State.inpStart (s : State) : State :=
  { s with inp := { s.inp with
    ains := tmap s.inp.ains fun _ a => { a with started := false, next := 0 }
    pins := (List.range 24).foldl (fun t n => tput t n { tgetD s.inp.pins n {} with
      pub := false, rises := [], gate := s.now, lastRise := none, lastFall := none, period := none }) s.inp.pins
    lacs := (List.range 8).foldl (fun t n => tput t n { next := s.now / s.lacNs n }) []
    past := [], supPast := [], limitAt := [], flow := [], flowNext := s.now / 10000000, start := s.now } }

/-- The tests of Table 7-3. An input out of service has settings where one of its setting registers is not at reset (log entry 116); FLOW SRC
is looked at with FLOW EN = 1 (log entry 117). -/
def State.inpTests (s : State) : List CheckTest :=
  let fin (a : Nat) : Bool := !F.finite (s.f32 a)
  let ain : List CheckTest := (List.range 48).flatMap fun n =>
    let div := s.get (INP_AIN_CFG.DIV n)
    let o := 0x1000 + 32 * n
    let mode := s.imgFld (INP_AIN_CFG.MODE n)
    let moved := [INP_AIN_CFG n, INP_AIN_LIM n, INP_AIN_GAIN n, INP_AIN_OFS n].any fun a => decide (s.reg a ≠ resetOf a)
    [(decide (1000 < div) || s.get (INP_AIN_CFG.OVS n) = 3 || (decide (div ≠ 0) && decide (div < s.image (imgAinDiv n))), 0x05, o), (fin (INP_AIN_GAIN n), 0x05, o + 8), (fin (INP_AIN_OFS n), 0x05, o + 0x0C),
     (moved && mode = 0, 0x08, o),
     (decide (div ≠ 0) && mode = 4 && !bitAt (s.get INP_SSUP.EN) (s.imgFld (INP_AIN_CFG.REF n)), 0x20, o)]
  let pin : List CheckTest := (List.range 24).flatMap fun n =>
    let kind := s.get (INP_PIN_CFG.KIND n)
    let thr := s.get (INP_PIN_CFG.THR n)
    let g := s.get (INP_PIN_TIM.GATE n)
    let t := s.get (INP_PIN_TIM.TIMEOUT n)
    let moved := s.reg (INP_PIN_CFG n) ≠ resetOf (INP_PIN_CFG n) || s.reg (INP_PIN_TIM n) ≠ resetOf (INP_PIN_TIM n)
    let o := 0x2000 + 32 * n
    [(decide (5 < kind) || decide (thr < 10) || decide (120 < thr), 0x05, o), (g = 0 || decide (1000 < g) || t = 0 || decide (1000 < t), 0x05, o + 4),
     (moved && !bitAt (s.image imgPinSvc) n, 0x08, o),
     (kind = 5 && (n % 2 = 1 || !bitAt (s.image imgQuadPairs) (n / 2) || s.get (INP_PIN_CFG.KIND (n + 1)) ≠ 0), 0x08, o)]
  let lac : List CheckTest := (List.range 8).flatMap fun n =>
    let w := s.get (INP_LAC_WIN.WIN n)
    let o := 0x3000 + 32 * n
    let moved := s.reg (INP_LAC_CFG n) ≠ resetOf (INP_LAC_CFG n) || s.reg (INP_LAC_THR n) ≠ resetOf (INP_LAC_THR n) || s.reg (INP_LAC_WIN n) ≠ resetOf (INP_LAC_WIN n)
    [(s.get (INP_LAC_CFG.DECAY n) = 0, 0x05, o), (s.get (INP_LAC_THR.THR n) = 0, 0x05, o + 4), (w = 0 || decide (10000 < w), 0x05, o + 8),
     (moved && !bitAt (s.image imgLacSvc) n, 0x08, o)]
  let conv : List CheckTest := (List.range 4).map fun c =>
    let used := ((List.range 12).map fun k => let n := c + 4 * k; if s.get (INP_AIN_CFG.DIV n) = 0 then 0 else 2 ^ s.get (INP_AIN_CFG.OVS n)).sum
    (decide (20 < used), 0x07, 0x1000 + 32 * c)
  let src := s.get INP_FLOW_CFG.SRC
  let flow : List CheckTest := [(decide (47 < src), 0x05, 0x4000), (fin INP_FLOW_TARE, 0x05, 0x4004), (fin INP_FLOW_K, 0x05, 0x4008),
    (s.getB INP_FLOW_CFG.EN && decide (src ≤ 47) && s.get (INP_AIN_CFG.DIV src) = 0, 0x08, 0x4000)]
  s.regionTests 0 0 ++ ain ++ pin ++ lac ++ conv ++ flow

/-- The setting registers of inputs and windows, by their offset: what R150 holds back for what is open. -/
def inpSetting (o : Nat) : Bool :=
  (0x1000 ≤ o && o < 0x1600 && o % 32 ≤ 0x0C) || (0x2000 ≤ o && o < 0x2300 && o % 32 ≤ 4) || (0x3000 ≤ o && o < 0x3100 && o % 32 ≤ 8) ||
    o = 0x4004 || o = 0x4008 || o = 0x5204

/-- A write of INP_AOUT(n) with SRC = 1 (R164): FAULT is W1C, EN is written, CODE is not; SRC is RWL. -/
def State.writeAoutCle (n : Nat) (value : Word) (s : State) : State :=
  let s := if bitAt value.toNat 29 then s.setB (INP_AOUT.FAULT n) false else s
  let s := s.setB (INP_AOUT.EN n) (bitAt value.toNat 30)
  if s.locked 0x04 then s else s.setB (INP_AOUT.SRC n) (bitAt value.toNat 31)

/-- Writes to INP fields that are ignored or special (R150, R164, R167); `none` where the field's access code alone decides. A pulse input of
KIND 0 shows 0 (Table 7-2); where GATE was 0 a gate opens. -/
def State.inpWrite (a : Nat) (value : Word) (s : State) : Option State :=
  let o := a - 0xC4000000
  if a = INP_SSUP then some (s.writeSsup value)
  else if 0x1000 ≤ o && o < 0x1600 && o % 32 = 0x18 then some (s.writeAinFlt ((o - 0x1000) / 32) value)
  else if ((0x1000 ≤ o && o < 0x1600 && (o % 32 = 8 || o % 32 = 0x0C)) || a = INP_FLOW_TARE || a = INP_FLOW_K)
      && s.enabled 0x04 && !F.finite value.toNat then some s
  else if inpSetting o then
    let idle := s.gateNs ((o - 0x2000) / 32) (s.pin ((o - 0x2000) / 32)).gate = 0
    let s := (s.keepPast a).plainWrite a value
    let n := (o - 0x2000) / 32
    some (
      if 0x2000 ≤ o && o < 0x2300 && o % 32 = 0 && s.get (INP_PIN_CFG.KIND n) = 0 then s.setReg (INP_PIN_VAL n) 0#32
      else if 0x2000 ≤ o && o < 0x2300 && o % 32 = 4 && idle then s.setPin n { s.pin n with gate := s.now + 1 }
      else s)
  else if 0x5100 ≤ o && o < 0x5120 && s.getB (INP_AOUT.SRC ((o - 0x5100) / 4)) then some (s.writeAoutCle ((o - 0x5100) / 4) value)
  else none

end Sys2Proof.Machine
end

