-- ==== Sys2Proof/Machine/CleLaw.lean ====
section
/-! DEFINITION. The control law of CLE (R179 to R183) and its table look-ups (R195 to R198), in binary32. -/

namespace Sys2Proof.Machine

/-- What a look-up gives: its value; the entry index reported, none for a non-finite index; CLAMP; IDX_NF. -/
structure Look where
  val : F32
  i0 : Option Nat
  clamp : Bool
  nf : Bool

/-- R195: a look-up in table `t` of 256 entries at position `pos`. -/
def look (t : Nat → F32) (pos scale ofs : F32) (wrap : Bool) : Look :=
  let x := F.fma pos scale ofs
  if !F.finite x then { val := F.zero, i0 := none, clamp := false, nf := true }
  else
    let fl := F.floorInt x
    let f := F.sub x (F.ofInt fl)
    let mix (i0 i1 : Nat) : Look := { val := F.fma f (F.sub (t i1) (t i0)) (t i0), i0 := some i0, clamp := false, nf := false }
    if wrap then
      let i0 := (fl % 256).toNat
      mix i0 ((i0 + 1) % 256)
    else if F.lt x F.zero then { val := t 0, i0 := some 0, clamp := true, nf := false }
    else if F.lt (F.ofNat 255) x then { val := t 255, i0 := some 255, clamp := true, nf := false }
    else if fl = 255 then { val := t 255, i0 := some 255, clamp := false, nf := false }
    else mix fl.toNat (fl.toNat + 1)

/-- The slot registers an evaluation reads, by offset in the slot window. -/
abbrev CleRegs := Nat → F32

/-- The setpoint follower (R180): r1 and the reference. -/
def follower (c : CleRegs) (first : Bool) (rPrev sp : F32) : F32 :=
  let r1 := F.fma sp (c 0x040) (c 0x044)
  if first then r1
  else
    let r1 := if F.lt (F.abs (F.sub r1 rPrev)) (c 0x048) then rPrev else r1
    let d := F.sub r1 rPrev
    if !F.isZero (c 0x04C) && F.lt (c 0x04C) d then F.add rPrev (c 0x04C)
    else if !F.isZero (c 0x050) && F.lt d (F.neg (c 0x050)) then F.sub rPrev (c 0x050)
    else r1

/-- The result of one evaluation: the slot's state after it and what the registers report. -/
structure CleEval where
  slot : CleSlot
  r : F32
  y : F32
  dir : Nat
  num : Nat
  fric : Option Look
  cog : Option Look

/-- A finite binary32 number from a free word. -/
def finiteOf (w : Nat) : F32 := if F.finite w then w else F.zero

/-- The rate limit of R181. -/
def rateLimit (c : CleRegs) (uPrev v : F32) : F32 :=
  let u := if !F.isZero (c 0x094) && F.lt (F.add uPrev (c 0x094)) v then F.add uPrev (c 0x094) else v
  if !F.isZero (c 0x098) && F.lt u (F.sub uPrev (c 0x098)) then F.sub uPrev (c 0x098) else u

/-- What an evaluation computes from its reference `r` and measurement `y` (R181 to R183, R196, R197, R203): `c` reads the slot's registers
and tables, `dir` is DIR before it. -/
def cleFrom (c : CleRegs) (hold : Bool) (dir : Nat) (l : CleSlot) (r y : F32) : CleEval :=
  let first := l.first
  let ctrl := c 0x0A0
  let e := F.sub r y
  let p := F.mul (c 0x05C) (F.fma (c 0x060) r (F.neg y))
  let q := F.fma (c 0x074) r (F.neg y)
  let qPrev := if first then q else l.qPrev
  let d0 := F.fma (c 0x078) (if first then F.zero else l.d) (F.mul (c 0x07C) (F.sub q qPrev))
  let dBad := !F.finite d0
  let d := if dBad then F.zero else d0
  let rd := if first then F.zero else F.sub r l.rPrev
  let ra := F.sub rd (if first then F.zero else l.rdPrev)
  let dy := if first then F.zero else F.sub y l.yPrev
  let vel := if bitAt ctrl 1 then dy else rd
  let dir := if first then 0 else dir
  let dir := if F.lt (c 0x0AC) vel then 1 else if F.lt vel (F.neg (c 0x0AC)) then 2 else dir
  let fric := if bitAt ctrl 0 && dir ≠ 0 then
      some (look (fun i => c ((if dir = 1 then 0x400 else 0x800) + 4 * i)) (if bitAt ctrl 2 then r else y) (c 0x0A4) (c 0x0A8) (bitAt ctrl 3))
    else none
  let cog := if bitAt ctrl 4 then
      some (look (fun i => c (0xC00 + 4 * i)) (if bitAt ctrl 5 then r else y) (c 0x0B0) (c 0x0B4) (bitAt ctrl 6))
    else none
  let tf := (fric.map (·.val)).getD F.zero
  let tg := (cog.map (·.val)).getD F.zero
  let ff := F.add (F.add (F.fma (c 0x084) ra (F.mul (c 0x080) rd)) tf) tg
  let i0 := if first then F.clamp l.i (c 0x06C) (c 0x070) else l.i
  let v0 := F.add (F.add (F.add (F.add (c 0x088) p) i0) d) ff
  let vBad := F.isNan v0
  let v := if vBad then l.uPrev else v0
  let lim := rateLimit c l.uPrev v
  let u := if hold then l.uPrev else F.clamp lim (c 0x08C) (c 0x090)
  let clamped := !hold && (F.lt lim (c 0x08C) || F.lt (c 0x090) lim)
  let i1 := F.clamp (F.add i0 (F.fma (c 0x068) (F.sub u v) (F.mul (c 0x064) e))) (c 0x06C) (c 0x070)
  let iBad := !hold && F.isNan i1
  let i := if hold || iBad then i0 else i1
  { slot := { l with
      rPrev := r, rdPrev := rd, qPrev := q, yPrev := y, uPrev := u, d := d, i := i, first := false
      u := u, clamped := clamped, heldOne := hold, held := if hold then l.held + 1 else 0, phase := 2 }
    r := r, y := y, dir := dir, num := b2n dBad + b2n vBad + b2n iBad, fric := fric, cog := cog }

/-- One evaluation (R180, R181). -/
def cleEval (c : CleRegs) (hold : Bool) (dir : Nat) (l : CleSlot) : CleEval :=
  cleFrom c hold dir l (follower c l.first l.rPrev l.sp) (F.fma l.ms (c 0x054) (c 0x058))

/-- R181's bounds on the undefined case of R208: what the free words `w` leave of the output, of I and of D once the rate limit, the clamps and
the replacements of R182 have acted. -/
def cleBound (c : CleRegs) (l : CleSlot) (v : CleEval) (wu wi wd num : Nat) : CleEval :=
  let u := F.clamp (rateLimit c l.uPrev (finiteOf wu)) (c 0x08C) (c 0x090)
  let i0 := if l.first then F.clamp l.i (c 0x06C) (c 0x070) else l.i
  let i := if F.isNan wi then i0 else F.clamp wi (c 0x06C) (c 0x070)
  { v with slot := { v.slot with u := u, uPrev := u, i := i, d := finiteOf wd }, num := num }

end Sys2Proof.Machine
end

