-- ==== Sys2Proof/Machine/Cle.lean ====
section
/-! DEFINITION. CLE (chapters 8 and 9): the grid, slots and their commands, sources, evaluation, outputs and the instant at
which a write counts. -/

namespace Sys2Proof.Machine

/-! ### Slots -/

/-- Base of slot `x`'s window. -/
def cleSlotBase (x : Nat) : Nat := CLE_S_STAT x

def State.slot (s : State) (x : Nat) : CleSlot := tgetD s.cle.slots x {}
def State.setSlot (x : Nat) (l : CleSlot) (s : State) : State := { s with cle := { s.cle with slots := tput s.cle.slots x l } }
def State.slotLive (s : State) (x : Nat) : Bool := (tget s.cle.slots x).isSome

/-- Indexes of the live slots. -/
def State.slotList (s : State) : List Nat := s.cle.slots.map (·.1)

/-- A running slot: STATE 2 or 3. -/
def State.slotRuns (s : State) (x : Nat) : Bool := decide (2 ≤ s.get (CLE_S_STAT.STATE x))

/-- SLOTS and RUNNING of CLE_STATUS follow the slots. -/
def State.cleCounts (s : State) : State :=
  (s.set CLE_STATUS.SLOTS s.cle.slots.length).set CLE_STATUS.RUNNING ((s.slotList.filter s.slotRuns).length)

/-- A slot register's word, by offset. -/
def State.slotReg (s : State) (x o : Nat) : Nat := (s.reg (cleSlotBase x + o)).toNat

/-- A W1C bit of a slot goes from 0 to 1 and raises `src`. -/
def State.slotFlag (f : Fld) (src : Nat) (s : State) : State := if s.getB f then s else (s.setB f true).raise src

/-! ### The grid (R168 to R171) -/

def State.gridLtc (s : State) : Nat := s.get64 CLE_GRID_LTC_LO CLE_GRID_LTC_HI

/-- The present frame number; 0 before frame 0 and while no grid runs. -/
def State.frameNow (s : State) : Nat := if s.getB CLE_STATUS.GRID && s.gridLtc ≤ s.now then (s.now - s.gridLtc) / 5000 else 0

/-- Does slot `x`'s clock strobe in frame `n` (R170)? -/
def State.strobes (s : State) (x n : Nat) : Bool :=
  let k := s.get (CLE_S_STAT.SCLK x)
  let p := s.get (CLE_SCLK_CFG.N k)
  p ≠ 0 && n % p = s.get (CLE_SCLK_CFG.OFFSET k)

/-- LAT of a position (R171). -/
def cleLat (p : Nat) : Nat := 48 + 24 * p

/-- The lanes taken at a position. -/
def State.lanesAt (s : State) (p : Nat) : List Nat :=
  (s.slotList.filter fun x => s.get (CLE_S_STAT.POS x) = p).map fun x => s.get (CLE_S_STAT.LANE x)

/-- The lowest free lane at a position. -/
def State.freeLane (s : State) (p : Nat) : Option Nat := (List.range 4).find? fun n => !(s.lanesAt p).contains n

/-- The position and lane of R172. -/
def State.clePlace (s : State) (posReq : Nat) : Option (Nat × Nat) :=
  if posReq = 0xFF then ((List.range 24).find? fun p => (s.freeLane p).isSome).bind fun p => (s.freeLane p).map fun n => (p, n)
  else (s.freeLane posReq).map fun n => (posReq, n)

/-! ### Outputs (R184 to R186, R528) -/

/-- A value reaches VDR (R217): kept for output `k` with its stamp, clamped to the kind's range, where MODE and SRC match the destination
kind, else discarded. -/
def State.cleToVdr (kind k stamp : Nat) (u : F32) (s : State) : State :=
  if s.getB (VDR_OUT_CFG.SRC k) && s.get (VDR_OUT_CFG.MODE k) = kind then
    let o := tgetD s.vdr.outs k {}
    { s with vdr := { s.vdr with outs := tput s.vdr.outs k { o with cleQ := o.cleQ ++ [(stamp, F.clamp u F.zero (if kind = 2 then F.one else 0x41000000))] } } }
  else s

/-- Region of a destination kind (Table 8-4). -/
def destRegion (kind : Nat) : Nat := if kind = 3 then 0 else 2

/-- A slot's value goes to its destination (R184); one whose region is not loaded or is reconfiguring is discarded (R185). -/
def State.toDest (x stamp : Nat) (u : F32) (s : State) : State :=
  let kind := s.get (CLE_S_ROUTE.DEST_KIND x)
  let k := s.get (CLE_S_ROUTE.DEST_INDEX x)
  if kind = 0 then s
  else if s.busy (destRegion kind) || !s.loaded (destRegion kind) then s.slotFlag (CLE_S_STAT.DLOST x) 37
  else if kind = 3 then s.aoutFromCle k u
  else s.cleToVdr kind k stamp u

/-! ### Completion and removal -/

/-- A command on a slot completes. -/
def SlotCmd.finish (c : SlotCmd) (code : Nat) (s : State) : State := s.completeSelf 0x05 c.ring c.id code

/-- Slot `x`'s window returns to reset. -/
def State.wipeSlot (x : Nat) (s : State) : State := s.wipeRegs (cleSlotBase x) 0x1000

/-- A reader of a destroyed slot becomes SRC_LOST (R178). -/
def State.loseSource (gone x : Nat) (s : State) : State :=
  let m := s.get (CLE_S_ROUTE.MS_KIND x) = 4 && s.get (CLE_S_ROUTE.MS_INDEX x) = gone
  let p := s.get (CLE_S_ROUTE.SP_KIND x) = 4 && s.get (CLE_S_ROUTE.SP_INDEX x) = gone
  if m || p then
    let l := s.slot x
    (s.setSlot x { l with msLost := l.msLost || m, spLost := l.spLost || p }).slotFlag (CLE_S_STAT.SRC_LOST x) 39
  else s

/-- The slot is freed: its window reads 0 (R192), lane and position are free, readers lose their source. -/
def State.slotFree (x : Nat) (s : State) : State :=
  let s := { s with cle := { s.cle with slots := tdel s.cle.slots x } }.wipeSlot x
  (s.slotList.foldl (fun s y => s.loseSource x y) s).cleCounts

/-- The commands of slot `x` from the head, each as far as it acts at once (R189): a start waits for its first strobe, a stop
or a destruction of a running slot for its stopping strobe. -/
def State.slotRun (x : Nat) : List SlotCmd → State → State
  | [], s => s.setSlot x { s.slot x with cmds := [] }
  | c :: rest, s =>
    let l := s.slot x
    match c.op with
    | 2 =>
      if s.slotRuns x then (s.set (CLE_S_STAT.STATE x) 3).setSlot x { l with cmds := c :: rest }
      else
        let s := c.finish 0x00 (s.slotFree x)
        rest.foldl (fun s d => d.finish 0x03 s) s
    | 3 =>
      if !F.finite c.a || !F.finite c.b then (c.finish 0x05 s).slotRun x rest
      else if s.slotRuns x then (c.finish 0x23 s).slotRun x rest
      else
        let l := { l with first := true, uPrev := c.a, i := c.b, held := 0, msRun := 0, spRun := 0, phase := 0, begun := false, cmds := c :: rest }
        ((s.setSlot x l).set (CLE_S_XSTAT.DIR x) 0).setReg (CLE_S_SAMPLE x) 0#32
    | _ =>
      if 1 < c.a then (c.finish 0x05 s).slotRun x rest
      else if !s.slotRuns x then (c.finish 0x00 s).slotRun x rest
      else (s.set (CLE_S_STAT.STATE x) 3).setSlot x { l with cmds := c :: rest }

/-- The head command of a slot completes and the next one acts. -/
def State.slotDone (x code : Nat) (s : State) : State :=
  match (s.slot x).cmds with
  | [] => s
  | c :: rest => (c.finish code (s.setSlot x { s.slot x with cmds := rest })).slotRun x rest

/-! ### SLOT_CREATE (R187, R188) -/

/-- Largest index of a source kind (Table 8-3). -/
def srcMax (k : Nat) : Nat :=
  match k with
  | 1 => 47 | 2 => 23 | 3 => 63 | 6 => 63 | _ => 0

/-- Region a source kind draws on; none where it draws on CTL itself. -/
def srcRegion (k : Nat) : Option Nat :=
  match k with
  | 1 => some 0 | 2 => some 0 | 3 => some 2 | 6 => some 7 | _ => none

/-- Is VLO `k` in service? -/
def State.vloInService (s : State) (k : Nat) : Bool := bitAt (s.imgFld (VDR_BANK_CAP.INSVC (k / 4))) (k % 4)

/-- Is a source input in service? -/
def State.srcInService (s : State) (kind ix : Nat) : Bool :=
  match kind with
  | 1 => s.imgFld (INP_AIN_CFG.MODE ix) ≠ 0
  | 2 => bitAt (s.image imgPinSvc) ix
  | 3 => s.vloInService ix
  | _ => true

/-- Image facts (Table 4-1, log entry 7): analog outputs in service; outputs a sample clock may drive, as a valve current (kind 1) or a
duty (kind 2), and analog outputs. -/
def imgAoutSvc : Nat := imgKey 0 4
def imgClkVlo (k kind half : Nat) : Nat := imgKey 1 (16 + 4 * k + 2 * (kind - 1) + half)
def imgClkAout (k : Nat) : Nat := imgKey 1 (48 + k)

/-- May sample clock `k` drive a destination, and is it in service? -/
def State.destOk (s : State) (k kind ix : Nat) : Bool :=
  match kind with
  | 0 => true
  | 3 => bitAt (s.image imgAoutSvc) ix && bitAt (s.image (imgClkAout k)) ix
  | _ => s.vloInService ix && bitAt (s.image (imgClkVlo k kind (ix / 32))) (ix % 32)

/-- The phase point in CTL cycles (R173). -/
def phasePoint (phase n lat : Nat) : Nat := if phase = 0 then lat else phase * n * 2400 / 256

/-- One source of a creation: the codes that apply to it. `d`: its descriptor; `h`: its cascade handle. -/
def State.srcCodes (s : State) (d h : Nat) : List Nat :=
  let kind := bitsOf d 28 4
  let ix := bitsOf d 0 7
  let range := 6 < kind || srcMax kind < ix || (kind ≠ 4 && h ≠ 0)
  let region := match srcRegion kind with
    | none => []
    | some r => if s.busy r then [0x02] else if s.loaded r then [] else [0x01]
  (if range then [0x05] else [])
    ++ region
    ++ (if kind ≤ 6 && ix ≤ srcMax kind && !s.srcInService kind ix then [0x08] else [])
    ++ (if kind = 4 && (s.checkHandle 1 s.slotLive h).isSome then [0x03] else [])

/-- The lowest of a list of codes. -/
def lowest (l : List Nat) : Option Nat := l.foldl (fun b c => match b with | none => some c | some m => some (min m c)) none

/-- The codes of Table 8-6. -/
def State.createCodes (s : State) (c : Cmd) : List Nat :=
  let k := c.arg 16 1
  let posReq := c.arg 17 1
  let kind := c.arg 19 1
  let ix := c.arg 20 1
  let destBad := 3 < kind || (kind = 0 && ix ≠ 0) || ((kind = 1 || kind = 2) && 63 < ix) || (kind = 3 && 7 < ix)
  let posBad := 24 ≤ posReq && posReq ≠ 0xFF
  let pos := if posReq < 24 then some posReq else (s.clePlace posReq).map (·.1)
  let lat := (pos.map cleLat).getD 0
  let destRgn := if kind = 0 || 3 < kind then [] else if s.busy (destRegion kind) then [0x02] else if s.loaded (destRegion kind) then [] else [0x01]
  let taken := kind ≠ 0 && s.slotList.any fun x => s.get (CLE_S_ROUTE.DEST_KIND x) = kind && s.get (CLE_S_ROUTE.DEST_INDEX x) = ix
  let onClock := (s.slotList.filter fun x => s.get (CLE_S_STAT.SCLK x) = k).length
  s.srcCodes (c.arg 24 4) (c.arg 32 4) ++ s.srcCodes (c.arg 28 4) (c.arg 36 4) ++ destRgn
    ++ (if (tfree s.cle.slots 96).isNone then [0x04] else [])
    ++ (if k ≤ 7 && s.imgFld (CLE_SCLK_CAP.CAP k) ≤ onClock then [0x04] else [])
    ++ (if 7 < k || posBad || destBad || c.arg 23 1 / 2 ≠ 0 then [0x05] else [])
    ++ (if k ≤ 7 && !s.getB (CLE_SCLK_CFG.EN k) then [0x06] else [])
    ++ (if k ≤ 7 && !posBad && phasePoint (c.arg 18 1) (s.get (CLE_SCLK_CFG.N k)) lat < lat then [0x07] else [])
    ++ (if !destBad && k ≤ 7 && !s.destOk k kind ix then [0x08] else [])
    ++ (if posReq < 24 && (s.freeLane posReq).isNone then [0x20] else [])
    ++ (if taken then [0x21] else [])

/-- INDEX of CLE_S_ROUTE: for a cascade the source slot index. -/
def routeIndex (d h : Nat) : Nat := if bitsOf d 28 4 = 4 then hIndex h % 128 else bitsOf d 0 7

/-- The new slot's registers. -/
def State.slotInit (x p n : Nat) (c : Cmd) (s : State) : State :=
  let s := s.wipeSlot x
  let k := c.arg 16 1
  let lat := cleLat p
  let s := (((s.set (CLE_S_STAT.LAT x) lat).set (CLE_S_STAT.POS x) p).set (CLE_S_STAT.LANE x) n).set (CLE_S_STAT.SCLK x) k
  let s := s.set (CLE_S_STAT.STATE x) 1
  let s := (s.set (CLE_S_ROUTE.MS_KIND x) (bitsOf (c.arg 24 4) 28 4)).set (CLE_S_ROUTE.MS_INDEX x) (routeIndex (c.arg 24 4) (c.arg 32 4))
  let s := (s.set (CLE_S_ROUTE.SP_KIND x) (bitsOf (c.arg 28 4) 28 4)).set (CLE_S_ROUTE.SP_INDEX x) (routeIndex (c.arg 28 4) (c.arg 36 4))
  let s := (s.set (CLE_S_ROUTE.DEST_KIND x) (c.arg 19 1)).set (CLE_S_ROUTE.DEST_INDEX x) (c.arg 20 1)
  let s := (s.set (CLE_S_TIMING.PHASE x) (c.arg 18 1)).set (CLE_S_TIMING.PHASE_CYC x) (phasePoint (c.arg 18 1) (s.get (CLE_SCLK_CFG.N k)) lat)
  (s.set (CLE_S_AGE.MS_AGE x) (c.arg 21 1)).set (CLE_S_AGE.SP_AGE x) (c.arg 22 1)

/-- SLOT_CREATE (R187). -/
def opSlotCreate (c : Cmd) (s : State) : State :=
  match lowest (s.createCodes c), tfree s.cle.slots 96, s.clePlace (c.arg 17 1) with
  | none, some x, some (p, n) =>
    let s := ((s.advGen 1 x).setSlot x { satIrq := bitAt (c.arg 23 1) 0 }).slotInit x p n c
    c.created (s.handle 1 x) s.cleCounts
  | some code, _, _ => c.failed code s
  | none, _, _ => c.failed 0x04 s

/-- A command naming a slot joins that slot's commands (R124, R189). -/
def slotCommand (op a b : Nat) (c : Cmd) (s : State) : State :=
  match s.checkHandle 1 s.slotLive c.handle with
  | some code => c.finish code s
  | none =>
    let x := hIndex c.handle
    let l := s.slot x
    let d : SlotCmd := { ring := c.ring, id := c.id, op := op, taken := s.now, a := a, b := b }
    if l.cmds.isEmpty then (s.slotRun x [d]).cleCounts else s.setSlot x { l with cmds := l.cmds ++ [d] }

/-- SLOT_CREATE (R187): opcode 0x0001 of a CLE ring. -/
def execSlotCreate (ring : Fin 2) (e : Entry) (s : State) : Out := .next (s.runRow 0x05 ring.val 1 0 e opSlotCreate)

/-- SLOT_DESTROY (R189). -/
def opSlotDestroy (c : Cmd) (s : State) : State := slotCommand 2 0 0 c s
def execSlotDestroy (ring : Fin 2) (e : Entry) (s : State) : Out := .next (s.runRow 0x05 ring.val 2 0 e opSlotDestroy)

/-- SLOT_START (R189). -/
def opSlotStart (c : Cmd) (s : State) : State := slotCommand 3 (c.arg 16 4) (c.arg 20 4) c s
def execSlotStart (ring : Fin 2) (e : Entry) (s : State) : Out := .next (s.runRow 0x05 ring.val 3 0 e opSlotStart)

/-- SLOT_STOP (R189). -/
def opSlotStop (c : Cmd) (s : State) : State := slotCommand 4 (c.arg 16 1) 0 c s
def execSlotStop (ring : Fin 2) (e : Entry) (s : State) : Out := .next (s.runRow 0x05 ring.val 4 0 e opSlotStop)

/-! ### Sources (R174 to R178, R206, R207) -/

/-- What a source shows at a strobe: its value, its token, whether it can be new, and whether it is late for a cause of its
own; `held`: PAIR holds the signal. -/
structure SrcView where
  val : F32
  tok : Nat
  fresh : Bool
  late : Bool
  held : Bool := false

/-- The latest of a list of stamped values whose stamp is at or before `t` less `delay`. -/
def latestAt (l : List (Nat × Nat)) (delay t : Nat) : Option (Nat × Nat) :=
  l.foldl (fun b e => if e.1 + delay ≤ t && (match b with | none => true | some c => decide (c.1 ≤ e.1)) then some e else b) none

/-- A current sample in amperes. -/
def ampsOf (code : Nat) : F32 := F.ofRatio ((code * 25 : Nat) : Int) 10000

/-- What a source of slot `x` shows at the strobe stamped `st` (Table 8-3). -/
def State.srcView (s : State) (kind ix st : Nat) (lost written first meas : Bool) (x : Nat) : SrcView :=
  match kind with
  | 1 =>
    if !s.inpOn then { val := 0, tok := 0, fresh := false, late := true }
    else { val := (s.reg (INP_AIN_VAL ix)).toNat, tok := (s.ain ix).tok, fresh := (s.ain ix).started, late := false }
  | 2 =>
    if !s.inpOn then { val := 0, tok := 0, fresh := false, late := true }
    else
      let w := s.reg (INP_PIN_VAL ix)
      let k := s.get (INP_PIN_CFG.KIND ix)
      let v := if k = 4 then F.ofNat w.toNat else if k = 5 then F.ofInt w.toInt else w.toNat
      { val := v, tok := (s.pin ix).tok, fresh := (s.pin ix).pub, late := false }
  | 3 =>
    match latestAt (tgetD s.vdr.outs ix {}).samples 2000 st with
    | some (t, code) => if st < t + 3000 then { val := ampsOf code, tok := t, fresh := true, late := false } else { val := 0, tok := 0, fresh := false, late := true }
    | none => { val := 0, tok := 0, fresh := false, late := true }
  | 4 =>
    if lost then { val := 0, tok := 0, fresh := false, late := true }
    else { val := (s.reg (CLE_S_OUT ix)).toNat, tok := (s.slot ix).applied, fresh := true, late := false }
  | 5 => { val := (s.reg (if meas then CLE_S_MS_HOST x else CLE_S_SP_HOST x)).toNat, tok := b2n written, fresh := written || first, late := false }
  | 6 =>
    let held := s.getB PAIR_STAT.UNTRUST || !s.pair.trust || s.pair.lost
    match latestAt (tgetD s.pair.rx ix []) 2000 st with
    | some (t, v) =>
      let bad := st ≥ t + 102000 || s.get PAIR_STAT.STATE ≠ 2 || held || !F.finite v
      { val := v, tok := t, fresh := !bad, late := bad, held := held }
    | none => { val := 0, tok := 0, fresh := false, late := true, held := held }
  | _ => { val := F.zero, tok := 0, fresh := false, late := false }

/-- One capture (R174, R178): the value yielded, the token, strobes without a new value, and whether the source is late. -/
def capture (v : SrcView) (kind prev tok run age : Nat) (first : Bool) : Nat × Nat × Nat × Bool :=
  let isNew := v.fresh && !v.late && (first || kind = 3 || (kind = 5) || decide (v.tok ≠ tok))
  let run := if kind = 0 || isNew then 0 else run + 1
  let late := v.late || (kind ≠ 0 && age ≠ 0 && decide (age ≤ run))
  (if late then prev else v.val, if v.late then tok else v.tok, run, late)

/-- The effects of a strobe with a late source (R178). -/
def State.lateStrobe (x : Nat) (s : State) : State :=
  (((s.bump (CLE_S_CNT.LATE x) 1).slotFlag (CLE_S_STAT.LATE x) 34).bump CLE_VIOL_CNT.LATE 1).detViol SYS_DET_STATUS.CLE_LATE

/-- Both sources of slot `x` captured at the strobe of frame `n`. -/
def State.captureSlot (x n : Nat) (first : Bool) (s : State) : State :=
  let st := s.gridLtc + 5000 * n
  let l := s.slot x
  let mk := s.get (CLE_S_ROUTE.MS_KIND x)
  let sk := s.get (CLE_S_ROUTE.SP_KIND x)
  let mv := s.srcView mk (s.get (CLE_S_ROUTE.MS_INDEX x)) st l.msLost l.msWritten first true x
  let sv := s.srcView sk (s.get (CLE_S_ROUTE.SP_INDEX x)) st l.spLost l.spWritten first false x
  let (m, mt, mr, ml) := capture mv mk l.ms l.msTok l.msRun (s.get (CLE_S_AGE.MS_AGE x)) first
  let (p, pt, pr, pl) := capture sv sk l.sp l.spTok l.spRun (s.get (CLE_S_AGE.SP_AGE x)) first
  let s := s.setSlot x { l with
    ms := m, msTok := mt, msRun := mr, msWritten := false, sp := p, spTok := pt, spRun := pr, spWritten := false, phase := 1, frame := n }
  let s := if ml || pl then s.lateStrobe x else s
  if mv.held || sv.held then s.slotFlag (CLE_S_XSTAT.PHELD x) 43 else s

/-! ### Evaluation (R181, R199, R208) -/

/-- Offsets of the coefficients whose non-finite values are an undefined case (R208). -/
def undefCoefs : List Nat :=
  [0x040, 0x044, 0x048, 0x04C, 0x050, 0x054, 0x058, 0x05C, 0x060, 0x064, 0x068, 0x074, 0x078, 0x07C, 0x080, 0x084, 0x088]

/-- A coefficient or table entry of the slot is not finite (R208). -/
def State.cleUndefined (s : State) (x : Nat) : Bool :=
  undefCoefs.any (fun o => !F.finite (s.slotReg x o)) ||
    s.regs.any fun e => cleSlotBase x + 0x400 ≤ e.1 && e.1 < cleSlotBase x + 0x1000 && !F.finite e.2.toNat

/-- The undefined case of R208: r, y, I, D and the output are free values, the output, I and D within the bounds that R181 and R182 keep;
what the evaluation computes from r and y is computed from the free ones. How many replacements it makes is free (log entry 118). -/
def State.cleFree (x : Nat) (s : State) : CleEval × State :=
  let w0 := s.fresh 32
  let s := s.drawn
  let w1 := s.fresh 32
  let s := s.drawn
  let w2 := s.fresh 32
  let s := s.drawn
  let w3 := s.fresh 32
  let s := s.drawn
  let w4 := s.fresh 32
  let s := s.drawn
  let num := s.fresh 32 % 4
  let s := s.drawn
  let l := s.slot x
  (cleBound (s.slotReg x) l (cleFrom (s.slotReg x) (s.getB (CLE_S_CTRL.HOLD x)) (s.get (CLE_S_XSTAT.DIR x)) l w1 w2) w0 w3 w4 num, s)

/-- A look-up's reports (R198): FRIC_I0 or COG_I0, the CLAMP bit with source 40 and IDX_NF with source 41. -/
def State.lookReport (x : Nat) (i0 clamp : Fld) (k : Option Look) (s : State) : State :=
  match k with
  | none => s
  | some k =>
    let s := match k.i0 with | some i => s.set i0 i | none => s
    let s := if k.clamp then s.slotFlag clamp 40 else s
    if k.nf then s.slotFlag (CLE_S_XSTAT.IDX_NF x) 41 else s

/-- Instant of slot `x`'s read cycle after the strobe last captured (R199). -/
def State.readCycle (s : State) (x : Nat) : Nat := s.gridLtc + 5000 * (s.slot x).frame + 25 * (24 + 24 * s.get (CLE_S_STAT.POS x)) / 12

/-- Slot `x` evaluates (R181). -/
def State.evalSlot (x : Nat) (s : State) : State :=
  let (v, s) := if s.cleUndefined x then s.cleFree x
    else (cleEval (s.slotReg x) (s.getB (CLE_S_CTRL.HOLD x)) (s.get (CLE_S_XSTAT.DIR x)) (s.slot x), s)
  let s := (s.setSlot x v.slot).setB (CLE_S_XSTAT.WPEND x) false
  let s := (s.setReg (CLE_S_REF x) (BitVec.ofNat 32 v.r)).setReg (CLE_S_MEAS x) (BitVec.ofNat 32 v.y)
  let s := (s.setReg (CLE_S_INTEG x) (BitVec.ofNat 32 v.slot.i)).setReg (CLE_S_DERIV x) (BitVec.ofNat 32 v.slot.d)
  let s := s.set (CLE_S_XSTAT.DIR x) v.dir
  let s := s.lookReport x (CLE_S_XSTAT.FRIC_I0 x) (CLE_S_XSTAT.FRIC_CLAMP x) v.fric
  let s := s.lookReport x (CLE_S_XSTAT.COG_I0 x) (CLE_S_XSTAT.COG_CLAMP x) v.cog
  if v.num = 0 then s else ((s.bump (CLE_S_CNT.NUM x) v.num).bump CLE_NUM_CNT.NUM v.num).raise 35

/-- Slot `x`'s evaluation is due: captured, and its read cycle has come. -/
def State.evalDue (s : State) (x : Nat) : Bool := s.slotLive x && decide ((s.slot x).phase = 1) && s.reached (s.readCycle x)

/-- CLE_EVALUATE (R181, R199): slot `slot`'s read cycle. -/
def execCleEvaluate (slot : Fin 96) (s : State) : Out := .next (if s.evalDue slot.val then s.evalSlot slot.val else s)

/-! ### Phase point (R184 to R186, R204) -/

/-- The registers that the latch of CLE_S_SAMPLE covers (R186, R209). -/
def sampleCompanions (x : Nat) : List Nat :=
  [CLE_S_OUT x, CLE_S_OUT_LTC_LO x, CLE_S_OUT_LTC_HI x, CLE_S_REF x, CLE_S_MEAS x, CLE_S_INTEG x, CLE_S_DERIV x, CLE_S_XSTAT x]

/-- Stamp of slot `x`'s phase point after the strobe last captured (R186). -/
def State.phaseStamp (s : State) (x : Nat) : Nat := s.gridLtc + 5000 * (s.slot x).frame + s.get (CLE_S_TIMING.PHASE_CYC x) * 25 / 12

/-- Slot `x` applies its evaluated value (R184, R186). -/
def State.applySlot (x : Nat) (s : State) : State :=
  let l := s.slot x
  let stamp := s.phaseStamp x
  let s := (s.setReg (CLE_S_SAMPLE x) (s.reg (CLE_S_SAMPLE x) + 1#32)).setReg (CLE_S_OUT x) (BitVec.ofNat 32 l.u)
  let s := s.set64 (CLE_S_OUT_LTC_LO x) (CLE_S_OUT_LTC_HI x) stamp
  let snap := (sampleCompanions x).map fun a => (s.reg a).toNat
  let s := s.setSlot x { l with phase := 0, applied := l.applied + 1, snap := snap }
  let h := tgetD s.cle.hist x [] ++ [(stamp, l.u)]
  let s := { s with cle := { s.cle with hist := tput s.cle.hist x (h.drop (h.length - 4)) } }
  let s := if l.clamped && l.satIrq then s.slotFlag (CLE_S_STAT.SAT x) 38 else s
  let lim := s.get CLE_HOLD_MAX.LIMIT
  let s := if lim ≠ 0 && l.heldOne && decide (lim ≤ l.held) then s.slotFlag (CLE_S_XSTAT.HOLD_LONG x) 42 else s
  let s := s.toDest x stamp l.u
  match l.cmds with
  | c :: _ => if c.op = 3 && l.begun then (s.slotDone x 0x00).cleCounts else s
  | [] => s

/-- Slot `x`'s phase point is due: evaluated, and the phase point has come. -/
def State.phaseDue (s : State) (x : Nat) : Bool := s.slotLive x && decide ((s.slot x).phase = 2) && s.reached (s.phaseStamp x)

/-- CLE_PHASE_POINT (R184, R186): the evaluated value is applied. -/
def execClePhasePoint (slot : Fin 96) (s : State) : Out := .next (if s.phaseDue slot.val then s.applySlot slot.val else s)

/-! ### The strobe (R170, R174, R176, R189) -/

/-- A stopping slot at its stopping strobe (R189, R201, R528). -/
def State.stopSlot (x n : Nat) (release : Bool) (s : State) : State :=
  let s := s.set (CLE_S_STAT.STATE x) 1
  let s := if s.getB (CLE_S_XSTAT.WPEND x) then s.setReg (CLE_S_WSEQ x) 1#32 else s
  let s := s.setSlot x { s.slot x with phase := 0 }
  if release then s.toDest x (s.gridLtc + 5000 * n) F.zero else s

/-- What is due of slot `x` before the strobe of frame `n`, or at its edge: a write at the same edge counts (R176). -/
def State.settleSlot (n : Nat) (s : State) (x : Nat) : State :=
  let edge := s.gridLtc + 5000 * n
  let s := if s.evalDue x && decide (s.readCycle x ≤ edge) then s.evalSlot x else s
  if s.phaseDue x && decide (s.phaseStamp x ≤ edge) then s.applySlot x else s

/-- The strobe of frame `n` is the stopping strobe of slot `x`'s head command (R189). -/
def State.stopsAt (s : State) (n x : Nat) : Bool :=
  s.slotLive x && s.strobes x n && decide (s.get (CLE_S_STAT.STATE x) = 3) && match (s.slot x).cmds with
    | [] => false
    | c :: _ => decide (c.op ≠ 3) && decide (c.taken + 100 ≤ s.gridLtc + 5000 * n)

/-- Slot `x` stops at the strobe of frame `n`, and its command completes. -/
def State.strobeStop (n : Nat) (s : State) (x : Nat) : State :=
  match (s.slot x).cmds with
  | [] => s
  | c :: rest =>
    let s := s.stopSlot x n (c.op = 2 || c.a = 1)
    if c.op = 2 then
      let s := c.finish 0x00 (s.slotFree x)
      rest.foldl (fun s d => d.finish 0x03 s) s
    else s.slotDone x 0x00

/-- Slot `x` at the strobe of frame `n`, which does not stop it: a start in effect takes its first strobe, a running slot captures. -/
def State.strobeRun (n : Nat) (s : State) (x : Nat) : State :=
  if !s.slotLive x || !s.strobes x n then s
  else
    let starts := match (s.slot x).cmds with
      | [] => false
      | c :: _ => decide (c.op = 3) && !(s.slot x).begun && decide (c.taken + 100 ≤ s.gridLtc + 5000 * n)
    if starts then ((s.set (CLE_S_STAT.STATE x) 2).setSlot x { s.slot x with begun := true }).captureSlot x n true
    else if s.slotRuns x then s.captureSlot x n false
    else s

/-- The strobes of frame `n`: what is due is done, then the slots whose last evaluation is past stop, then the others capture. A slot that a
destruction frees at this edge is lost to its readers at this strobe (log entry 119). -/
def State.strobeAll (n : Nat) (s : State) : State :=
  let s := s.slotList.foldl (State.settleSlot n) s
  let stops := s.slotList.filter (s.stopsAt n)
  let runs := s.slotList.filter fun x => !s.stopsAt n x
  let s := stops.foldl (State.strobeStop n) s
  (runs.foldl (State.strobeRun n) s).cleCounts

/-- CLE_STROBE (R170, R174): the strobes of the present frame, once per frame. -/
def execCleStrobe (s : State) : Out :=
  let n := s.frameNow
  let seen := match s.cle.lastFrame with | none => false | some m => decide (n ≤ m)
  if !s.getB CLE_STATUS.GRID || s.now < s.gridLtc || seen then .next s
  else .next ({ s with cle := { s.cle with lastFrame := some n } }.strobeAll n)

/-! ### Writes (R177, R192, R201, R202) -/

/-- A coefficient, table control or table entry of a slot, by offset in its window. -/
def isCoef (o : Nat) : Bool := (0x040 ≤ o && o ≤ 0x098) || (0x0A0 ≤ o && o ≤ 0x0B4) || (0x400 ≤ o && o < 0x1000)

/-- A write that R182 or chapter 9 says is ignored: a non-finite limit or table control, a negative velocity deadband. -/
def coefIgnored (o v : Nat) : Bool :=
  ([0x06C, 0x070, 0x08C, 0x090, 0x094, 0x098, 0x0A4, 0x0A8, 0x0AC, 0x0B0, 0x0B4].contains o && !F.finite v)
    || (o = 0x0AC && F.lt v F.zero)

/-- A coefficient write lands (R201, R202). -/
def State.coefWrite (x o : Nat) (value : Word) (s : State) : State :=
  if coefIgnored o value.toNat then s
  else
    let l := s.slot x
    let s := s.setReg (cleSlotBase x + o) (if o = 0x0A0 then value &&& 0x7F#32 else value)
    let seq := if s.slotRuns x then s.reg (CLE_S_SAMPLE x) + (if l.phase = 2 then 2#32 else 1#32) else 1#32
    let s := (s.setB (CLE_S_XSTAT.WPEND x) true).setReg (CLE_S_WSEQ x) seq
    if s.slotRuns x && !s.getB (CLE_S_CTRL.HOLD x) then
      ((s.bump CLE_VIOL_CNT.COEF 1).detViol SYS_DET_STATUS.CLE_COEF).raise 36
    else s

/-- A write of a host source register (R177). -/
def State.hostSource (x : Nat) (meas : Bool) (value : Word) (s : State) : State :=
  if !F.finite value.toNat then s
  else
    let l := s.slot x
    let s := s.setReg (if meas then CLE_S_MS_HOST x else CLE_S_SP_HOST x) value
    s.setSlot x (if meas then { l with msWritten := true } else { l with spWritten := true })

/-- Bit `j` of CLE_LATE_MAP(i) is CLE_S_STAT.LATE of slot 32i + j. -/
def State.lateMap (s : State) (i : Nat) : Nat :=
  (List.range 32).foldl (fun acc j => acc + b2n (s.getB (CLE_S_STAT.LATE (32 * i + j))) * 2 ^ j) 0

/-- Writes to CLE that the access codes alone do not decide: `none` where they do. -/
def State.cleWrite (a : Nat) (value : Word) (s : State) : Option State :=
  let o := a - 0xC5000000
  if 0x20 ≤ o && o < 0x2C then
    some ((List.range 32).foldl (fun s j => if bitAt value.toNat j then s.setB (CLE_S_STAT.LATE (32 * ((o - 0x20) / 4) + j)) false else s) s)
  else if 0x100000 ≤ o && o < 0x160000 then
    let x := (o - 0x100000) / 0x1000
    let p := o % 0x1000
    if !s.slotLive x then some s
    else if p = 0x01C then some (s.hostSource x false value)
    else if p = 0x020 then some (s.hostSource x true value)
    else if isCoef p then some (s.coefWrite x p value)
    else none
  else none

/-! ### Reads -/

/-- XSTAT with the fields that the latch of CLE_S_SAMPLE covers taken from `w` (R209). -/
def xstatMix (live w : Word) : Word := (live &&& 0x3FFF0000#32) ||| (w &&& 0xC000FFFF#32)

/-- A read of CLE_S_SAMPLE latches its companions for the core. -/
def State.readSample (core x : Nat) (s : State) : State :=
  let l := s.slot x
  let ws := if l.snap.isEmpty then (sampleCompanions x).map fun a => (s.reg a).toNat else l.snap
  let s := (List.zip (sampleCompanions x) ws).foldl (fun s e => s.latchFor core e.1 (BitVec.ofNat 32 e.2)) s
  s.answer core (s.reg (CLE_S_SAMPLE x))

/-- A read of CLE_FRAME_LO latches CLE_FRAME_HI. -/
def State.readFrame (core : Nat) (s : State) : State :=
  (s.latchFor core CLE_FRAME_HI (BitVec.ofNat 32 (s.frameNow / 2 ^ 32))).answer core (BitVec.ofNat 32 s.frameNow)

/-! ### Enable and disable (R190, R191) -/

/-- The tests of R190. -/
def State.cleTests (s : State) : List CheckTest :=
  let clocks : List CheckTest := (List.range 8).flatMap fun k =>
    let n := s.get (CLE_SCLK_CFG.N k)
    let on := s.getB (CLE_SCLK_CFG.EN k)
    [(on && (n < 2 || 400 < n || n < s.imgFld (CLE_SCLK_CAP.NMIN k) || n ≤ s.get (CLE_SCLK_CFG.OFFSET k)), 0x05, 0x40 + 4 * k),
     (on && s.imgFld (CLE_SCLK_CAP.CAP k) = 0, 0x08, 0x40 + 4 * k)]
  s.regionTests 1 0 ++ clocks ++ s.ringTests 0x05 ++ [(s.getB CLE_CTRL.SYNC_INP && !s.enabled 0x04, 0x22, 0)]

/-- What a passed check starts: the grid (R169). -/
def State.cleStart (s : State) : State :=
  let t := if s.getB CLE_CTRL.SYNC_INP then s.inp.start + ceilDiv (s.now - s.inp.start) 10000 * 10000 else s.now
  let s := { s with cle := {} }
  (s.set64 CLE_GRID_LTC_LO CLE_GRID_LTC_HI t).setB CLE_STATUS.GRID true

/-- The commands of a slot complete at ENABLE 1 → 0 (R191). -/
def slotCmdsEnd (l : List SlotCmd) (s : State) : State :=
  l.foldl (fun s c => c.finish (if c.op = 3 then 0x03 else 0x00) s) s

/-- ENABLE 1 → 0 (R191). -/
def State.cleDisable (s : State) : State :=
  let s := s.setB CLE_CTRL.ENABLE false
  let s := s.slotList.foldl (fun s x => if s.slotRuns x then s.toDest x s.now F.zero else s) s
  let s := s.slotList.foldl (fun s x => slotCmdsEnd (s.slot x).cmds s) s
  let s := s.slotList.foldl (fun s x => s.wipeSlot x) s
  ({ s with cle := { s.cle with slots := [], lastFrame := none } }.setB CLE_STATUS.GRID false).cleCounts

/-- CLE_DISABLE (R191). -/
def execCleDisable (s : State) : Out := .next (if s.getB CLE_CTRL.ENABLE then s.cleDisable else s)

end Sys2Proof.Machine
end

