-- ==== Sys2Proof/Machine/Eth.lean ====
section
/-! DEFINITION. ETH (chapter 21): switch, policers, 802.1AS, lidar flows, the fleet message engine and its key store. Frame layouts
that the spec takes from IEEE 802.1Q, IEEE 802.1AS, IPv4 and UDP are those of the standards (log entry 19). -/

namespace Sys2Proof.Machine

/-! ### Reassembly (R454, R471) -/

/-- Is every byte from `pos` to `n - 1` inside one of the ranges? By fuel. -/
def coveredFrom (l : List (Nat × Nat)) (n : Nat) : Nat → Nat → Bool
  | 0, pos => n ≤ pos
  | k + 1, pos =>
    if n ≤ pos then true
    else match l.find? fun r => r.1 ≤ pos && pos < r.1 + r.2 with
      | some r => coveredFrom l n k (r.1 + r.2)
      | none => false

def Rasm.complete (r : Rasm) : Bool := r.total.any fun n => coveredFrom r.got n (r.got.length + 1) 0

/-! ### Ports (R448, R450, R458) -/

def State.portOn (s : State) (p : Nat) : Bool := s.enabled 0x0F && p < 4 && s.getB (ETH_PORT_CFG.EN p)
def State.portUp (s : State) (p : Nat) : Bool := s.portOn p && s.getB (ETH_PORT_STAT.LINK p)

/-- The tokens of a port's policer now, in thousandths of a bit. A bucket not yet used is full. -/
def State.tokens (s : State) (p : Nat) : Nat :=
  let cap := s.get (ETH_POL.BURST p) * 8192000
  match tget s.eth.pol p with
  | some (l, t) => min cap (l + s.get (ETH_POL.RATE p) * (s.now - t))
  | none => cap

def State.setTokens (p l : Nat) (s : State) : State := { s with eth := { s.eth with pol := tput s.eth.pol p (l, s.now) } }

/-- A write of ETH_POL(p): the tokens so far came at the old rate. -/
def State.writePol (p : Nat) (value : Word) (s : State) : State :=
  (if (tget s.eth.pol p).isSome then s.setTokens p (s.tokens p) else s).plainWrite (ETH_POL p) value

/-- The policer of a port takes a frame of `n` bytes: passed, and the tokens left. -/
def State.police (p n : Nat) (s : State) : Bool × State :=
  if s.get (ETH_POL.RATE p) = 0 then (true, s)
  else
    let level := s.tokens p
    if level < n * 8000 then
      let s := s.setTokens p level
      let s := if s.get (ETH_PORT_STAT.POL p) = 0 then s.raise 301 else s
      (false, s.bump (ETH_PORT_STAT.POL p) 1)
    else (true, s.setTokens p (level - n * 8000))

/-- The frame on the wire of a port, taken from its highest non-empty queue (R449). -/
def State.wireLoad (p : Nat) (s : State) : State :=
  if (tget s.eth.wire p).isSome then s
  else
    match [3, 2, 1, 0].find? fun q => !(tgetD s.eth.egress (4 * p + q) []).isEmpty with
    | none => s
    | some q =>
      match tgetD s.eth.egress (4 * p + q) [] with
      | f :: rest => { s with eth := { s.eth with wire := tput s.eth.wire p f, egress := tput s.eth.egress (4 * p + q) rest } }
      | [] => s

/-- A frame enters queue `q` of port `p`. -/
def State.egressPut (p q : Nat) (f : EgFrame) (s : State) : State :=
  { s with eth := { s.eth with egress := tput s.eth.egress (4 * p + q) (tgetD s.eth.egress (4 * p + q) [] ++ [f]) } }.wireLoad p

/-! ### VLANs (R449) -/

/-- A frame as the switch sees it: VID, PCP, EtherType and what follows it, addresses. -/
structure SwFrame where
  dst : Nat
  src : Nat
  vid : Nat
  pcp : Nat
  etype : Nat
  body : List Byte
  deriving DecidableEq, Repr

/-- A frame parsed at ingress under the port's PVID. -/
def parseFrame (pvid : Nat) (f : List Byte) : SwFrame :=
  let be (o n : Nat) : Nat := natBE ((f.drop o).take n)
  if be 12 2 = 0x8100 then
    let tci := be 14 2
    { dst := be 0 6, src := be 6 6, vid := if tci % 4096 = 0 then pvid else tci % 4096, pcp := tci / 8192, etype := be 16 2, body := f.drop 18 }
  else { dst := be 0 6, src := be 6 6, vid := pvid, pcp := 0, etype := be 12 2, body := f.drop 14 }

/-- A big-endian field. -/
def bytesBE (n v : Nat) : List Byte := (bytesLE n v).reverse

/-- A frame as it leaves, tagged or untagged. -/
def SwFrame.bytes (f : SwFrame) (untag : Bool) : List Byte :=
  bytesBE 6 f.dst ++ bytesBE 6 f.src ++ (if untag then [] else bytesBE 2 0x8100 ++ bytesBE 2 (f.pcp * 8192 + f.vid)) ++ bytesBE 2 f.etype ++ f.body

/-- The valid entry of a VID. -/
def State.vlanOf (s : State) (vid : Nat) : Option Nat :=
  (List.range 16).find? fun i => s.getB (ETH_VLAN.VALID i) && s.get (ETH_VLAN.VID i) = vid

def State.vlanMember (s : State) (i p : Nat) : Bool := bitAt (s.get (ETH_VLAN.MEMBER i)) p
def State.vlanUntag (s : State) (i p : Nat) : Bool := bitAt (s.get (ETH_VLAN.UNTAG i)) p

def macKey (vid mac : Nat) : Nat := vid * 2 ^ 48 + mac
def isGroup (mac : Nat) : Bool := bitAt mac 40

/-- A source address is learned, or refreshed. -/
def State.learn (vid mac p : Nat) (s : State) : State :=
  if isGroup mac then s
  else if (tget s.eth.macs (macKey vid mac)).isNone && 1024 ≤ s.eth.macs.length then s.bump ETH_SW_CNT.LFULL 1
  else { s with eth := { s.eth with macs := tput s.eth.macs (macKey vid mac) (p, s.now) } }

/-- Addresses whose age has passed are gone, whatever comes next (R449). -/
def State.macAged (s : State) : State :=
  let age := s.get ETH_SW_CFG.AGE_S
  if age = 0 then s else { s with eth := { s.eth with macs := s.eth.macs.filter fun e => decide (s.now ≤ e.2.2 + age * 1000000000) } }

/-- MAC_AGE_OUT (R449). -/
def execMacAgeOut (vid : BitVec 12) (mac : BitVec 48) (s : State) : Out :=
  let k := macKey vid.toNat mac.toNat
  let age := s.get ETH_SW_CFG.AGE_S
  match tget s.eth.macs k with
  | some e => .next (if age ≠ 0 && e.2 + age * 1000000000 ≤ s.now then { s with eth := { s.eth with macs := tdel s.eth.macs k } } else s)
  | none => .next s

/-! ### Rings (R288) -/

/-- A write of a CI register, with its ring's PI and log2 of entries. -/
def State.ciWrite (blk : Nat) (pi ci len : Fld) (value : Word) (s : State) : State :=
  let m := 2 * 2 ^ s.get len
  let v := value.toNat % 2 ^ ci.width
  if !s.enabled blk || m ≤ v || m / 2 < (s.get pi + m - v) % m then s else s.set ci v

/-- Is a ring full? -/
def State.ringFull (s : State) (pi ci len : Fld) : Bool :=
  let m := 2 * 2 ^ s.get len
  decide (m / 2 ≤ (s.get pi + m - s.get ci) % m)

/-- An entry goes into a ring. -/
def State.ringPut (base size : Nat) (pi len : Fld) (bytes : List Byte) (s : State) : State :=
  let m := 2 * 2 ^ s.get len
  let p := s.get pi
  (s.dramPuts (base + size * (p % (m / 2))) bytes).set pi ((p + 1) % m)

/-- A frame for the host receive ring (R451). -/
def State.hostRx (p : Nat) (frame : List Byte) (stamp : Nat) (s : State) : State :=
  if s.ringFull ETH_HRX_PI.PI ETH_HRX_CI.CI ETH_HRX_CFG.HLEN then (s.bump ETH_HRX_DROP.DROP 1).raise 305
  else
    let e := bytesLE 2 frame.length ++ bytesLE 1 p ++ bytesLE 5 0 ++ bytesLE 8 stamp ++ bytesLE 48 0 ++ frame
    (s.ringPut (s.get64 ETH_HRX_BASE_LO ETH_HRX_BASE_HI) 2048 ETH_HRX_PI.PI ETH_HRX_CFG.HLEN (e ++ List.replicate (2048 - e.length) 0#8)).raise 304

/-! ### IEEE 802.1AS (R452, R453) -/

/-- asCapable follows the exchanges; a change raises 302. -/
def State.asCap (s : State) : State :=
  let cap := s.eth.pd.any id && decide (s.get ETH_GPTP_STAT.PDELAY ≤ s.get ETH_GPTP_CFG.PD_MAX)
  if s.getB ETH_GPTP_STAT.AS_CAP = cap then s else (s.setB ETH_GPTP_STAT.AS_CAP cap).raise 302

/-- A write of ETH_GPTP_CFG: asCapable follows PD_MAX. -/
def State.writeGptp (value : Word) (s : State) : State :=
  let s := s.plainWrite ETH_GPTP_CFG value
  if s.enabled 0x0F && s.getB ETH_GPTP_CFG.GPTP_EN then s.asCap else s

def State.gptpOn (s : State) : Bool := s.enabled 0x0F && s.getB ETH_GPTP_CFG.GPTP_EN && s.portUp (s.get ETH_GPTP_CFG.GPTP_PORT)

/-- PDELAY_REQ (R452): the exchange of each second ended, with the mean link delay it gave. -/
def execPdelayReq (ok : Bool) (delay : BitVec 16) (s : State) : Out :=
  let ready := match s.eth.pdAt with
    | some t => decide (t + 1000000000 ≤ s.now)
    | none => true
  if !(s.enabled 0x0F && s.getB ETH_GPTP_CFG.GPTP_EN) || !ready then .next s
  else
    let good := ok && s.gptpOn
    let l := s.eth.pd ++ [good]
    let s := { s with eth := { s.eth with pd := l.drop (l.length - 3), pdAt := some s.now } }
    .next (if good then s.set ETH_GPTP_STAT.PDELAY delay.toNat else s).asCap

/-- A gap of more than 3 s since the last delivered observation is reported, once (R453). -/
def State.gptpGap (s : State) : State :=
  if !s.eth.gapSaid && s.eth.lastObs.any (fun t => t + 3000000000 < s.now) then { s with eth := { s.eth with gapSaid := true } }.raise 302 else s

/-- An observation for TMS (R135, R453): `origin` in ns of the PTP timescale, `corr` in 2^-16 ns. -/
def State.gptpObs (l origin : Nat) (corr : Int) (s : State) : State :=
  let s := s.gptpGap
  let m16 : Int := ((origin : Int) - 315964819000000000 + s.get ETH_GPTP_STAT.PDELAY) * 65536 + corr
  let s := { s with eth := { s.eth with lastObs := some s.now, gapSaid := false } }
  s.deliverObs 2 l (fromSigned 64 (m16.fdiv 65536)) (fromSigned 16 m16)

/-- A Sync received on GPTP_PORT (R453). -/
def State.gptpSyncRx (twoStep : Bool) (seq origin : Nat) (corr : Int) (stamp : Nat) (s : State) : State :=
  if !s.gptpOn || !s.getB ETH_GPTP_STAT.AS_CAP then s
  else if twoStep then { s with eth := { s.eth with syncs := s.eth.syncs ++ [{ seq := seq, l := stamp }] } }
  else s.gptpObs stamp origin corr

/-- GPTP_SYNC (R453). -/
def execGptpSync (twoStep : Bool) (seq : BitVec 16) (origin : Nat) (corr : BitVec 64) (stamp : Nat) (s : State) : Out :=
  .next (s.gptpSyncRx twoStep seq.toNat origin corr.toInt stamp)

/-- A Follow_Up received on GPTP_PORT: its Sync, not older than 100 ms, becomes an observation (R453). -/
def State.gptpFollowRx (seq origin : Nat) (corr : Int) (s : State) : State :=
  if !s.gptpOn then s
  else
    match s.eth.syncs.find? fun y => y.seq = seq && decide (s.now ≤ y.l + 100000000) with
    | none => s
    | some y => { s with eth := { s.eth with syncs := s.eth.syncs.filter fun z => z ≠ y } }.gptpObs y.l origin corr

/-- GPTP_FOLLOW_UP (R453). -/
def execGptpFollowUp (seq : BitVec 16) (origin : Nat) (corr : BitVec 64) (s : State) : Out :=
  .next (s.gptpFollowRx seq.toNat origin corr.toInt)

/-- FOLLOW_UP_TIMEOUT (R453). -/
def execFollowUpTimeout (s : State) : Out :=
  .next { s with eth := { s.eth with syncs := s.eth.syncs.filter fun y => decide (s.now ≤ y.l + 100000000) } }

/-- GPTP (R453): asCapable follows PD_MAX and the exchanges, and a gap of more than 3 s between delivered observations is
reported once. -/
def execGptpState (s : State) : Out :=
  let s := if s.enabled 0x0F && s.getB ETH_GPTP_CFG.GPTP_EN then s.asCap else s
  .next (if s.enabled 0x0F then s.gptpGap else s)

/-- An 802.1AS frame delivered to the engine: Sync (0) and Follow_Up (8). -/
def State.gptpFrame (body : List Byte) (stamp : Nat) (s : State) : State :=
  let be (o n : Nat) : Nat := natBE ((body.drop o).take n)
  let corr := toSigned 64 (be 8 8)
  let origin := be 34 6 * 1000000000 + be 40 4
  match be 0 1 % 16 with
  | 0 => s.gptpSyncRx (bitAt (be 6 1) 1) (be 30 2) origin corr stamp
  | 8 => s.gptpFollowRx (be 30 2) origin corr
  | _ => s

/-! ### Lidar flows (R454) -/

def State.flowAddr (s : State) (f b : Nat) : Nat := s.get64 (ETH_FLOW_BASE_LO f) (ETH_FLOW_BASE_HI f) + b * s.get (ETH_FLOW_BUF.BUF_KB f) * 1024

/-- A discarded body of a flow. -/
def State.flowIncomp (f b : Nat) (s : State) : State :=
  ({ s with eth := { s.eth with bodies := tdel s.eth.bodies (2 * f + b) } }.bump (ETH_FLOW_CNT.INCOMP f) 1).raise 303

/-- A fragment of flow `f` (R454). -/
def State.lidarRx (f : Nat) (payload : List Byte) (s : State) : State :=
  let w (o : Nat) : Nat := natLE ((payload.drop o).take 4)
  let sweep := w 0
  let off := w 4
  let total := w 8
  let data := payload.drop 16
  let size := s.get (ETH_FLOW_BUF.BUF_KB f) * 1024
  let bad (s : State) : State := s.bump (ETH_FLOW_CNT.BAD f) 1
  let place (b : Nat) (r : Rasm) (s : State) : State :=
    let r := { r with got := r.got ++ [(off, data.length)] }
    let a := s.flowAddr f b
    let s := s.dramPuts (a + off) data
    if r.complete then { s with eth := { s.eth with bodies := tdel s.eth.bodies (2 * f + b) } }.fusFeed 2 f a none
    else { s with eth := { s.eth with bodies := tput s.eth.bodies (2 * f + b) r } }
  let held (b : Nat) : Bool := s.fusHolds (s.flowAddr f b)
  let cur (b : Nat) : Option Rasm := tget s.eth.bodies (2 * f + b)
  let beyond := total < off + data.length || size < off + data.length
  match [0, 1].find? fun b => (cur b).any fun r => r.sweep = sweep with
  | some b =>
    match cur b with
    | some r => if r.total ≠ some total || beyond then bad s else place b r s
    | none => s
  | none =>
    if payload.length < 16 || beyond then bad s
    else if held 0 && held 1 then s.bump (ETH_FLOW_CNT.BUSY f) 1
    else
      let s := [0, 1].foldl (fun (s : State) b => if (cur b).isSome then s.flowIncomp f b else s) s
      place (if held 0 then 1 else if (cur 0).isSome && !held 1 && (cur 1).isNone then 1 else 0) { sweep := sweep, total := some total, got := [] } s

/-- LIDAR_FRAGMENT (R454). -/
def execLidarFragment (f : Fin 8) (payload : List Byte) (s : State) : Out :=
  .next (if s.enabled 0x0F && s.getB (ETH_FLOW_CFG.EN f.val) then s.lidarRx f.val payload else s)

/-! ### The fleet engine (R455 to R457) -/

def State.peerLive (s : State) (i : Nat) : Bool := (tget s.eth.peers i).isSome

/-- One of FMT, NOPEER, REPLAY and AUTH advances; from 0 it raises 299. -/
def State.fltDrop (f : Fld) (s : State) : State := (if s.get f = 0 then s.raise 299 else s).bump f 1

/-- The replay window (R457): a sequence is refused. H itself never comes again, nor 0 before the first. -/
def Peer.replay (p : Peer) (seq : Nat) : Bool := seq = p.high || decide (seq + 1024 ≤ p.high) || p.seen.contains seq

/-- The window after a sequence is accepted. -/
def Peer.accept (p : Peer) (seq : Nat) : Peer :=
  let h := max p.high seq
  { p with high := h, seen := (seq :: p.seen).filter fun q => decide (h < q + 1024) }

/-- A datagram (R457). A slot that holds no key authenticates nothing. -/
def State.fltRx (d : List Byte) (stamp : Nat) (s : State) : State :=
  let f (o n : Nat) : Nat := natLE ((d.drop o).take n)
  let len := f 6 2
  let seq := f 12 8
  if f 0 4 ≠ 0x314C4654 || f 4 2 ≠ 1 || 1400 < len || d.length ≠ 36 + len then s.fltDrop ETH_FLT_CNT.FMT
  else
    match s.eth.peers.find? fun e => e.2.id = f 8 4 with
    | none => s.fltDrop ETH_FLT_CNT.NOPEER
    | some (i, p) =>
      if p.replay seq then s.fltDrop ETH_FLT_CNT.REPLAY
      else
        let plain := match tget s.nv.keys p.rxKey with
          | some k => Config.aesGcmOpen k.1 (f 8 12) (d.take 20) ((d.drop 20).take len) (d.drop (20 + len))
          | none => none
        match plain with
        | none => s.fltDrop ETH_FLT_CNT.AUTH
        | some t =>
          if s.ringFull ETH_FLT_RX_PI.PI ETH_FLT_RX_CI.CI ETH_FLT_RX_CFG.RLEN then (s.bump ETH_FLT_CNT2.RXDROP 1).raise 298
          else
            let e := bytesLE 4 (s.handle 0x0A i) ++ bytesLE 2 len ++ bytesLE 2 0 ++ bytesLE 8 seq ++ bytesLE 8 stamp ++ bytesLE 40 0 ++ t.take len
            let s := s.ringPut (s.get64 ETH_FLT_RX_BASE_LO ETH_FLT_RX_BASE_HI) 1536 ETH_FLT_RX_PI.PI ETH_FLT_RX_CFG.RLEN
              (e ++ List.replicate (1536 - e.length) 0#8)
            { s with eth := { s.eth with peers := tput s.eth.peers i (p.accept seq) } }.raise 297

/-- FLT_RX (R457). -/
def execFltRx (payload : List Byte) (stamp : Nat) (s : State) : Out := .next (if s.enabled 0x0F then s.fltRx payload stamp else s)

/-! ### The internal port (R451) -/

/-- A UDP datagram to ETH_IP without IPv4 options or fragmentation: destination port and payload. -/
def State.udpOf (s : State) (f : SwFrame) : Option (Nat × List Byte) :=
  let be (o n : Nat) : Nat := natBE ((f.body.drop o).take n)
  if f.etype = 0x0800 && be 0 1 = 0x45 && be 6 2 % 2 ^ 14 = 0 && be 9 1 = 17 && be 16 4 = (s.reg ETH_IP).toNat && 8 ≤ be 24 2 then
    some (be 22 2, ((f.body.drop 28).take (be 24 2 - 8)))
  else none

/-- A frame delivered to the internal port: its first consumer takes it. -/
def State.internalRx (p : Nat) (f : SwFrame) (untag : Bool) (stamp : Nat) (s : State) : State :=
  let host (s : State) : State := s.hostRx p (f.bytes untag) stamp
  if f.etype = 0x88F7 && s.getB ETH_GPTP_CFG.GPTP_EN && s.get ETH_GPTP_CFG.GPTP_PORT = p then s.gptpFrame f.body stamp
  else
    match s.udpOf f with
    | some (port, d) =>
      match (List.range 8).find? fun k => s.getB (ETH_FLOW_CFG.EN k) && s.get (ETH_FLOW_CFG.VID k) = f.vid && s.get (ETH_FLOW_CFG.UDP k) = port with
      | some k => s.lidarRx k d
      | none => if port = s.get ETH_FLT_PORT.FLT_PORT then s.fltRx d stamp else host s
    | none => host s

/-- The internal port's address. -/
def State.ownMac (s : State) : Nat := (s.reg ETH_MAC_LO).toNat + (s.reg ETH_MAC_HI).toNat % 2 ^ 16 * 2 ^ 32

/-- Ports a frame from port `p` goes to: the learned port, the internal port for its own address and for reserved group addresses, or
all members but `p` (R449). -/
def State.forwardTo (s : State) (p : Nat) (f : SwFrame) : List Nat :=
  if f.dst = s.ownMac || (0x0180C2000000 ≤ f.dst && f.dst ≤ 0x0180C200000F) then [4]
  else
    match if isGroup f.dst then none else tget s.eth.macs (macKey f.vid f.dst) with
    | some e => if e.1 = p then [] else [e.1]
    | none => (List.range 5).filter fun q => q ≠ p

/-- A frame of the VLAN entry `i` goes to port `q`. `full` marks full egress queues, bit `4 * port + queue`; an empty one is not
full. -/
def State.forward (i p : Nat) (f : SwFrame) (full stamp q : Nat) (s : State) : State :=
  if !s.vlanMember i q then s
  else if q = 4 then s.internalRx p f (s.vlanUntag i 4) stamp
  else if !s.portUp q then s
  else if bitAt full (4 * q + f.pcp / 2) && !(tgetD s.eth.egress (4 * q + f.pcp / 2) []).isEmpty then s.bump (ETH_PORT_STAT.QDROP q) 1
  else s.egressPut q (f.pcp / 2) { data := f.bytes (s.vlanUntag i q), cmd := none }

/-- ETH_FRAME_RX (R448 to R451): `frame` is without its FCS. -/
def execEthFrameRx (p : Fin 4) (frame : List Byte) (fcsOk : Bool) (full : BitVec 16) (stamp : Nat) (s : State) : Out :=
  if !s.portUp p.val then .next s
  else if !fcsOk || frame.length < 60 || 1518 < frame.length then .next (s.bump (ETH_PORT_STAT.ERR p.val) 1)
  else
    let (pass, s) := s.police p.val (frame.length + 4)
    if !pass then .next s
    else
      let f := parseFrame (s.get (ETH_PORT_CFG.PVID p.val)) frame
      match s.vlanOf f.vid with
      | none => .next (s.bump ETH_SW_CNT.VDROP 1)
      | some i =>
        if !s.vlanMember i p.val then .next (s.bump ETH_SW_CNT.VDROP 1)
        else
          let s := s.macAged.learn f.vid f.src p.val
          .next ((s.forwardTo p.val f).foldl (fun s q => s.forward i p.val f full.toNat stamp q) s)

/-! ### Sending (R455, R456) -/

/-- The next sequence of the slot needs a new epoch: the first since ENABLE, or the count is used up (R455, R456). -/
def State.epochDue (s : State) (slot : Nat) : Bool :=
  match tget s.eth.counts slot with
  | some c => decide (0xFFFFFFFF < c)
  | none => true

/-- A slot is spent: KEY_STAT, and source 306 as it goes to 1. -/
def State.keySpent (slot : Nat) (s : State) : State :=
  if s.getB (ETH_KEY_STAT.SPENT slot) then s else (s.setB (ETH_KEY_STAT.SPENT slot) true).raise 306

/-- The next sequence of slot `slot`, which holds `key` at epoch `ep`; its epoch is advanced and stored where that is due. None where the slot
is spent, and where the epoch's write to MRAM fails, which a free bit decides (log entry 128): then source 306 is raised and the slot is as it
was. -/
def State.nextSeq (slot key ep : Nat) (s : State) : Option Nat × State :=
  if !s.epochDue slot then
    let c := tgetD s.eth.counts slot 0
    (some (ep * 2 ^ 32 + c), { s with eth := { s.eth with counts := tput s.eth.counts slot (c + 1) } })
  else if ep = 0xFFFFFFFF then (none, s.keySpent slot)
  else if s.fresh 1 = 1 then (none, s.drawn.raise 306)
  else
    let s := s.drawn
    (some ((ep + 1) * 2 ^ 32),
      { s with nv := { s.nv with keys := tput s.nv.keys slot (key, ep + 1) }, eth := { s.eth with counts := tput s.eth.counts slot 1 } })

/-- Ones-complement sum of a header, for its checksum. -/
def ipSum (b : List Byte) : Nat :=
  let t := (List.range (b.length / 2)).foldl (fun a i => a + natBE ((b.drop (2 * i)).take 2)) 0
  let t := t % 65536 + t / 65536
  0xFFFF - (t % 65536 + t / 65536)

/-- A datagram in UDP, IPv4 and Ethernet. -/
def State.fleetFrame (s : State) (p : Peer) (d : List Byte) : SwFrame :=
  let h (sum : Nat) : List Byte := bytesBE 2 0x4500 ++ bytesBE 2 (28 + d.length) ++ bytesBE 2 0 ++ bytesBE 2 0 ++ bytesBE 1 64 ++ bytesBE 1 17
    ++ bytesBE 2 sum ++ bytesBE 4 (s.reg ETH_IP).toNat ++ bytesBE 4 p.ip
  let udp := bytesBE 2 (s.get ETH_FLT_PORT.FLT_PORT) ++ bytesBE 2 p.udp ++ bytesBE 2 (8 + d.length) ++ bytesBE 2 0
  { dst := p.mac, src := s.ownMac, vid := p.vid, pcp := 0, etype := 0x0800, body := h (ipSum (h 0)) ++ udp ++ d }

/-- SEND (R455, R456). -/
def opFleetSend (c : Cmd) (s : State) : State :=
  let buf := c.arg 16 8
  let len := c.arg 24 2
  match s.checkHandle 0x0A s.peerLive c.handle, tget s.eth.peers (hIndex c.handle) with
  | some _, _ => c.finish 0x03 s
  | none, none => c.finish 0x03 s
  | none, some p =>
    if 1400 < len || !s.inWins 0x0F buf len then c.finish 0x05 s
    else if !s.portOn p.port then c.finish 0x08 s
    else
      match tget s.nv.keys p.txKey with
      | none => c.finish 0x20 s
      | some (key, ep) =>
        if !s.portUp p.port then c.finish 0x21 s
        else
          match s.nextSeq p.txKey key ep with
          | (none, s) => c.finish 0x22 s
          | (some seq, s) =>
            let head := bytesLE 4 0x314C4654 ++ bytesLE 2 1 ++ bytesLE 2 len ++ bytesLE 4 (s.reg ETH_FLT_CFG).toNat ++ bytesLE 8 seq
            let sealed := Config.aesGcmSeal key (natLE (head.drop 8)) head (memBytes s.dram buf len)
            let f := s.fleetFrame p (head ++ sealed.1 ++ sealed.2)
            let untag := (s.vlanOf p.vid).any fun i => s.vlanUntag i p.port
            s.egressPut p.port 0 { data := f.bytes untag, cmd := some c.id }

/-- SEND (Table 21-4). -/
def execFleetSend (ring : Fin 1) (e : Entry) (s : State) : Out := .next (s.runRow 0x0F ring.val 3 0 e opFleetSend)

/-- FRAME_TX: the frame as given, in the queue of its own tag's priority. -/
def opFrameTx (c : Cmd) (s : State) : State :=
  let p := c.arg 16 1
  let buf := c.arg 24 8
  let len := c.arg 32 2
  if 3 < p || len < 60 || 1518 < len || !s.inWins 0x0F buf len then c.finish 0x05 s
  else if !s.portOn p then c.finish 0x08 s
  else if !s.portUp p then c.finish 0x21 s
  else
    let d := memBytes s.dram buf len
    s.egressPut p ((parseFrame 0 d).pcp / 2) { data := d, cmd := some c.id }

/-- FRAME_TX (Table 21-4). -/
def execFrameTx (ring : Fin 1) (e : Entry) (s : State) : Out := .next (s.runRow 0x0F ring.val 6 0 e opFrameTx)

/-- ETH_TX_COMPLETE (R456): the frame on the wire of a port has left. -/
def execEthTxComplete (p : Fin 4) (s : State) : Out :=
  match tget s.eth.wire p.val with
  | none => .next s
  | some f =>
    if !s.portUp p.val then .next s
    else
      let s := { s with eth := { s.eth with wire := tdel s.eth.wire p.val } }
      let s := match f.cmd with
        | some id => s.completeSelf 0x0F 0 id 0x00
        | none => s
      .next (s.wireLoad p.val)

/-- ETH_LINK_CHANGE (R458). The loss of the 802.1AS port's link ends asCapable. -/
def execEthLinkChange (p : Fin 4) (up : Bool) (s : State) : Out :=
  if !s.portOn p.val || s.getB (ETH_PORT_STAT.LINK p.val) = up then .next s
  else
    let s := (s.setB (ETH_PORT_STAT.LINK p.val) up).raise 300
    .next (if !up && s.get ETH_GPTP_CFG.GPTP_PORT = p.val then { s with eth := { s.eth with pd := [], syncs := [] } }.asCap else s)

/-! ### Peers and keys (Table 21-4) -/

/-- PEER_CREATE. -/
def opPeerCreate (c : Cmd) (s : State) : State :=
  let p : Peer := {
    id := c.arg 16 4, txKey := c.arg 20 1, rxKey := c.arg 21 1, port := c.arg 22 1, mac := natBE (bytesLE 6 (c.arg 24 6)), vid := c.arg 30 2,
    ip := c.arg 32 4, udp := c.arg 36 2 }
  match tfree s.eth.peers 64 with
  | none => c.failed 0x04 s
  | some i =>
    if 63 < p.txKey || 63 < p.rxKey || 3 < p.port || 4095 < p.vid then c.failed 0x05 s
    else if !s.portOn p.port then c.failed 0x08 s
    else if (tget s.nv.keys p.txKey).isNone || (tget s.nv.keys p.rxKey).isNone then c.failed 0x20 s
    else if s.getB (ETH_KEY_STAT.SPENT p.txKey) then c.failed 0x22 s
    else if s.eth.peers.any (fun e => e.2.id = p.id) then c.failed 0x23 s
    else
      let s := s.advGen 0x0A i
      c.created (s.handle 0x0A i) { s with eth := { s.eth with peers := tput s.eth.peers i p } }

/-- PEER_CREATE (Table 21-4). -/
def execPeerCreate (ring : Fin 1) (e : Entry) (s : State) : Out := .next (s.runRow 0x0F ring.val 1 0 e opPeerCreate)

/-- PEER_DESTROY. -/
def opPeerDestroy (c : Cmd) (s : State) : State :=
  match s.checkHandle 0x0A s.peerLive c.handle with
  | some _ => c.finish 0x03 s
  | none => c.finish 0x00 { s with eth := { s.eth with peers := tdel s.eth.peers (hIndex c.handle) } }

/-- PEER_DESTROY (Table 21-4). -/
def execPeerDestroy (ring : Fin 1) (e : Entry) (s : State) : Out := .next (s.runRow 0x0F ring.val 2 0 e opPeerDestroy)

/-- The FULL bit of a slot follows the key store. -/
def State.keyShow (slot : Nat) (s : State) : State := s.setB (ETH_KEY_STAT.FULL slot) (tget s.nv.keys slot).isSome

/-- KEY_LOAD: MANUFACTURE only (R455). -/
def opKeyLoad (c : Cmd) (s : State) : State :=
  let k := c.arg 16 1
  if 63 < k then c.finish 0x05 s
  else if s.nv.lifeCycle ≠ 0 then c.finish 0x0B s
  else
    let s := { s with nv := { s.nv with keys := tput s.nv.keys k (c.arg 24 32, 0) }, eth := { s.eth with counts := tdel s.eth.counts k } }
    c.finish 0x00 ((s.keyShow k).setB (ETH_KEY_STAT.SPENT k) false)

/-- KEY_LOAD (R455). -/
def execKeyLoad (ring : Fin 1) (e : Entry) (s : State) : Out := .next (s.runRow 0x0F ring.val 4 0 e opKeyLoad)

/-- KEY_ERASE: MANUFACTURE and DEVELOPMENT only (R455). -/
def opKeyErase (c : Cmd) (s : State) : State :=
  let k := c.arg 16 1
  if 63 < k then c.finish 0x05 s
  else if !s.openLifeCycle then c.finish 0x0B s
  else
    let s := { s with nv := { s.nv with keys := tdel s.nv.keys k }, eth := { s.eth with counts := tdel s.eth.counts k } }
    c.finish 0x00 ((s.keyShow k).setB (ETH_KEY_STAT.SPENT k) false)

/-- KEY_ERASE (R455). -/
def execKeyErase (ring : Fin 1) (e : Entry) (s : State) : Out := .next (s.runRow 0x0F ring.val 5 0 e opKeyErase)

/-! ### The check (R459) -/

/-- The tests of R459. -/
def State.ethTests (s : State) : List CheckTest :=
  let rl := s.get ETH_FLT_RX_CFG.RLEN
  let hl := s.get ETH_HRX_CFG.HLEN
  let flt := (s.get64 ETH_FLT_RX_BASE_LO ETH_FLT_RX_BASE_HI, 1536 * 2 ^ rl)
  let hrx := (s.get64 ETH_HRX_BASE_LO ETH_HRX_BASE_HI, 2048 * 2 ^ hl)
  let fl := (List.range 8).filter fun f => s.getB (ETH_FLOW_CFG.EN f)
  let area (f : Nat) : Nat × Nat := (s.flowAddr f 0, 2 * 1024 * s.get (ETH_FLOW_BUF.BUF_KB f))
  let rings := if s.ringUsed 0x0F 0 then s.ringAreas 0x0F 0 else []
  let per : List CheckTest := fl.flatMap fun f =>
    let o := 0x200 + 32 * f
    let kb := s.get (ETH_FLOW_BUF.BUF_KB f)
    [(kb < 4 || 16384 < kb, 0x05, o + 0xC), (!s.inWins 0x0F (area f).1 (area f).2, 0x05, o + 4),
     (fl.any fun k => decide (k < f) && s.get (ETH_FLOW_CFG.VID k) = s.get (ETH_FLOW_CFG.VID f) && s.get (ETH_FLOW_CFG.UDP k) = s.get (ETH_FLOW_CFG.UDP f), 0x08,
       0x200),
     (rings.any (overlaps (area f)), 0x08, 0x100), (fl.any fun k => decide (k < f) && overlaps (area k) (area f), 0x08, 0x204),
     (overlaps (area f) flt || overlaps (area f) hrx, 0x08, o + 4)]
  let ports : List CheckTest := (List.range 4).map fun p => (s.getB (ETH_PORT_CFG.EN p) && s.imgFld (ETH_PORT_CFG.INSVC p) = 0, 0x08, 0x40 + 16 * p)
  s.regionTests 7 0 ++ s.ringTests 0x0F ++ per ++ ports
  ++ [(rl < 4 || 10 < rl, 0x05, 0x310), (hl < 4 || 10 < hl, 0x05, 0x348), (!s.inWins 0x0F flt.1 flt.2, 0x05, 0x308),
      (!s.inWins 0x0F hrx.1 hrx.2, 0x05, 0x340), (s.getB ETH_GPTP_CFG.GPTP_EN && !s.getB (ETH_PORT_CFG.EN (s.get ETH_GPTP_CFG.GPTP_PORT)), 0x08, 0xC0),
      (rings.any (overlaps flt) || rings.any (overlaps hrx), 0x08, 0x100), (overlaps flt hrx, 0x08, 0x308)]

/-- What a passed check starts: empty tables and rings; FULL follows the key store. -/
def State.ethStart (s : State) : State :=
  let s := { s with eth := {} }
  let s := (((s.set ETH_FLT_RX_PI.PI 0).set ETH_FLT_RX_CI.CI 0).set ETH_HRX_PI.PI 0).set ETH_HRX_CI.CI 0
  (List.range 64).foldl (fun s k => s.keyShow k) s

/-- ENABLE 1 → 0 (R459). SEND and FRAME_TX in flight end (R127); the spec gives no reason for them: a free one. -/
def State.ethDisable (s : State) : State :=
  let s := s.setB ETH_CTRL.ENABLE false
  let s := (List.range 4).foldl (fun s p => if s.getB (ETH_PORT_STAT.LINK p) then (s.setB (ETH_PORT_STAT.LINK p) false).raise 300 else s) s
  let s := if s.getB ETH_GPTP_STAT.AS_CAP then (s.setB ETH_GPTP_STAT.AS_CAP false).raise 302 else s
  let ids := ((s.eth.wire.map (·.2)) ++ s.eth.egress.flatMap (·.2)).filterMap (·.cmd)
  let s := ids.foldl (fun s i => (s.completeSelf 0x0F 0 i (s.freshCode [0x20, 0x21, 0x22, 0x23])).drawn) s
  { s with eth := {} }

/-- ETH_DISABLE (R459). -/
def execEthDisable (s : State) : Out := .next (if s.getB ETH_CTRL.ENABLE then s.ethDisable else s)

end Sys2Proof.Machine
end

