-- ==== Sys2Proof/Machine/Saf.lean ====
section
/-! DEFINITION. SAF (chapter 12): input pairs, the trip path, test pulses, safety outputs, contactor feedback, faults,
degraded mode, the partner and the mailbox. -/

namespace Sys2Proof.Machine

/-! ### Parameters and readings -/

/-- At least `ns` nanoseconds of LTC minus the 50.5 ppm of R524 have passed since `t`. -/
def State.safElapsed (s : State) (t ns : Nat) : Bool := decide (ns - ns * 505 / 10000000 ≤ s.since t)

def State.safReady (s : State) : Bool := s.getB SAF_STATUS.READY
def State.safMask (s : State) (p : Nat) : Nat := bitsOf (s.image SAF_MAP) (4 * p) 4
def State.safFbUse (s : State) (c : Nat) : Bool := s.imgFld (SAF_CCFG.FB_USE c) = 1
def State.safFbClosed (s : State) (c : Nat) : Bool := bitAt s.saf.pins.sfb c
def State.safTfb (s : State) (c : Nat) : Nat := s.imgFld (SAF_CCFG.T_FB c) * 1000000

def safOFF : Nat := 0
def safON : Nat := 1
def safTRIPPED : Nat := 2

def State.chState (s : State) (c : Nat) : Nat := s.get (SAF_CH.STATE c)
def State.setCh (c v : Nat) (s : State) : State := s.set (SAF_CH.STATE c) v

/-- A fault is listed; a fault is present. -/
def State.faultListed (s : State) (f : SafFault) : Bool := s.saf.faults.any fun x => x.1 = f
def State.faultPresent (s : State) (f : SafFault) : Bool := s.saf.faults.contains (f, true)

/-- Pair state as SAF_PAIR.STATE codes it (R252): 0 STOP, 1 RUN, 2 TRANSIT. -/
def State.pairState (s : State) (p : Nat) : Nat :=
  match bitAt s.saf.effA p, tgetD s.saf.effB p 0 with
  | true, 1 => 1
  | false, 2 => 0
  | _, _ => 2

/-- The pair counts as RUN: it reads RUN and is not treated as STOP for XS (R254). -/
def State.pairRun (s : State) (p : Nat) : Bool := s.pairState p = 1 && !s.faultPresent (.xs p)

/-- Channels a fault of Table 12-2 trips and blocks. -/
def State.faultMask (s : State) (f : SafFault) : Nat :=
  match f with
  | .lockstep | .safeUe | .therm | .degExpired | .weld _ => 15
  | .xs p | .disc p => s.safMask p
  | .stuck1 c | .stuck2 c | .oc c => 2 ^ c
  | .selftest | .partnerLost | .supply | .pullin _ | .drop _ => 0

/-- Degraded-permitted faults; faults that need a safety reset (Table 12-2). -/
def SafFault.degraded (f : SafFault) : Bool :=
  match f with
  | .selftest | .partnerLost | .supply | .pullin _ | .drop _ => true
  | _ => false

def SafFault.latched (f : SafFault) : Bool :=
  match f with
  | .lockstep | .safeUe | .therm | .stuck1 _ | .stuck2 _ => true
  | _ => false

/-- The event a fault raises when it is set (R272). -/
def SafFault.event (f : SafFault) : Option Nat :=
  match f with
  | .disc _ => some 114
  | .xs _ => some 115
  | .stuck1 _ | .stuck2 _ | .oc _ => some 116
  | .weld _ | .pullin _ | .drop _ => some 117
  | .selftest => some 124
  | _ => none

def State.anyLatched (s : State) : Bool := s.saf.faults.any fun x => x.1.latched

/-! ### The mirror (R268) -/

/-- Degraded time left in 10 ms, as SAF_STATUS.DEG_LEFT reads. -/
def State.degLeft (s : State) : Nat :=
  match s.saf.degFrom with
  | none => 0
  | some t => ceilDiv (s.imgFld SAF_DEG_CFG.T_DEG * 1000000000 - s.since t) 10000000

/-- Bits 6:0 of SAF_FAULT in order. -/
def safModuleFaults : List SafFault := [.lockstep, .safeUe, .therm, .selftest, .partnerLost, .supply, .degExpired]

/-- A mask with bit i set where `f` holds of the i-th element. -/
def maskOf {α : Type} (l : List α) (f : α → Bool) : Nat := l.foldr (fun x m => 2 * m + b2n (f x)) 0

/-- The mirror registers follow the safety domain. -/
def State.safMirror (s : State) : State :=
  let s := (s.setB SAF_STATUS.DEGRADED s.saf.degFrom.isSome).setB SAF_STATUS.LATCHED s.anyLatched
  let s := (s.setB SAF_STATUS.PARTNER s.saf.partnerAt.isSome).set SAF_STATUS.DEG_LEFT s.degLeft
  let pair (p : Nat) := s.pairState p + 4 * b2n (s.faultPresent (.disc p)) + 8 * b2n (s.faultPresent (.xs p))
  let s := if s.safReady then
      s.set SAF_PAIR.STATES ((List.range 8).foldr (fun p v => 16 * v + pair p) 0)
    else s
  let s := (List.range 4).foldl (fun s c =>
    let s := s.setB (SAF_CH.FB c) (s.safReady && s.safFbUse c && s.safFbClosed c)
    s.set ⟨SAF_CH c, 0, 6⟩ (maskOf [SafFault.weld c, .pullin c, .drop c, .oc c, .stuck1 c, .stuck2 c] s.faultListed)) s
  (s.set ⟨SAF_FAULT, 0, 7⟩ (maskOf safModuleFaults s.faultPresent)).set SAF_FAULT.CLEARED
    (maskOf safModuleFaults fun f => s.saf.faults.contains (f, false))

/-! ### Opening, tripping and arming -/

/-- A channel's switches open (R260, R263, R266): a test of it is abandoned, and its mirror must close within T_FB. -/
def State.openCh (c : Nat) (wasOn : Bool) (s : State) : State :=
  let f := s.saf
  let f := { f with
    onAt := tdel f.onAt c, closedAt := tdel f.closedAt c, pulled := putBits f.pulled c 1 0
    test := if f.test.any (fun (t : Nat × Bool) => t.1 = c) then none else f.test }
  let wait := wasOn && s.safFbUse c && !s.safFbClosed c
  { s with saf := { f with openAt := if wait then tput f.openAt c s.now else f.openAt } }

/-- PULLIN, DROP and WELD clear once the mirror reads as it should (Table 12-2). -/
def State.fbClear (c : Nat) (s : State) : State :=
  if !s.safFbUse c then s
  else
    let ok := s.safFbClosed c != decide (s.chState c = safON)
    let f (x : SafFault × Bool) : SafFault × Bool :=
      if (ok && (x.1 = .pullin c || x.1 = .drop c)) || (s.safFbClosed c && x.1 = .weld c) then (x.1, false) else x
    { s with saf := { s.saf with faults := s.saf.faults.map f } }

/-- The first of two pairs that fire at one instant is the lower one (SAF_CH.PAIR). -/
def State.samePairTrip (c p stamp : Nat) (s : State) : State :=
  if s.get (SAF_CH.CAUSE c) = 2 && tget s.saf.tripAt c = some stamp && p < s.get (SAF_CH.PAIR c) then s.set (SAF_CH.PAIR c) p else s

/-- A trip of the channels of `mask` (R257). Only channels ON or OFF are affected. -/
def State.safTrip (mask cause pair stamp : Nat) (s : State) : State :=
  let s := if cause = 2 then (List.range 4).foldl (fun s c => if bitAt mask c then s.samePairTrip c pair stamp else s) s else s
  let hit := (List.range 4).filter fun c => bitAt mask c && s.chState c ≠ safTRIPPED
  if hit.isEmpty then s
  else
    let s := hit.foldl (fun s c =>
      let on := decide (s.chState c = safON)
      let s := (s.setCh c safTRIPPED).set (SAF_CH.CAUSE c) cause
      let s := if cause = 2 then s.set (SAF_CH.PAIR c) pair else s
      let s := (s.setB (SAF_CH.ARMABLE c) false).bump SAF_CNT.TRIPS 1
      let s := { s with saf := { s.saf with tripAt := tput s.saf.tripAt c stamp } }
      (s.openCh c on).fbClear c) s
    (s.set64 SAF_TRIP_LTC_LO SAF_TRIP_LTC_HI stamp).raise 113

/-- An ON channel is released to OFF (R260, R266). -/
def State.releaseCh (c : Nat) (s : State) : State :=
  if s.chState c = safON then ((s.setCh c safOFF).openCh c true).fbClear c else s

/-- An ARMABLE channel goes to OFF (R258). -/
def State.armCh (c : Nat) (s : State) : State :=
  let s := { s with saf := { s.saf with armedOnce := putBits s.saf.armedOnce c 1 1 } }
  (((s.setB (SAF_CH.ARMABLE c) false).setCh c safOFF).fbClear c).raise 122

/-- The conditions of ARMABLE (R258). -/
def State.armable (s : State) (c : Nat) : Bool :=
  s.safReady && s.chState c = safTRIPPED
    && ((List.range 8).all fun p => !bitAt (s.safMask p) c || (s.pairRun p && bitAt s.saf.rearmed p))
    && (s.imgFld (SAF_CCFG.PTRIP c) = 0 || (s.saf.partnerRun.isSome && bitAt s.saf.rearmed 8))
    && (s.saf.faults.all fun x => !bitAt (s.faultMask x.1) c)
    && (!s.safFbUse c || s.safFbClosed c)

/-- The safety domain's bookkeeping after every happening: DEG_EXPIRED clears with the faults it covered; channels become
ARMABLE or cease to be; a channel with START_ACK = 0 arms itself once (R258, R259, R264). -/
def State.safEval (s : State) : State :=
  if !s.safReady then s.safMirror
  else
    let s := if s.faultPresent .degExpired && s.saf.covered.all (fun f => !s.faultPresent f) then
        { s with saf := { s.saf with faults := s.saf.faults.map fun (x : SafFault × Bool) => if x.1 = .degExpired then (x.1, false) else x } }
      else s
    ((List.range 4).foldl (fun s c =>
      if s.armable c then
        let s := if s.getB (SAF_CH.ARMABLE c) then s else (s.setB (SAF_CH.ARMABLE c) true).raise 121
        if s.imgFld (SAF_CCFG.START_ACK c) = 0 && !bitAt s.saf.armedOnce c then s.armCh c else s
      else s.setB (SAF_CH.ARMABLE c) false) s).safMirror

/-! ### Faults and degraded mode (R264, R265) -/

/-- The first degraded-permitted fault enters degraded mode. -/
def State.degEnter (s : State) : State :=
  if s.saf.degFrom.isSome then s
  else
    let s := { s with saf := { s.saf with degFrom := some s.now } }.raise 118
    (List.range 4).foldl (fun s c => if s.imgFld (SAF_CCFG.DEG c) = 0 then s.releaseCh c else s) s

/-- The present instant to 1 ns: LTC moves in steps of 8 ns, so its last three bits are a free value (R257, log entry 122). -/
def State.fineNow (s : State) : Nat := s.now + s.fresh 3

/-- The fault acts: SAFE is loaded and phase 4 has ended. A lockstep mismatch acts once the safety cores run, and TJ in every mode in which the
module measures it (R62, Table 12-2). -/
def State.safActs (s : State) (f : SafFault) : Bool :=
  s.safReady || match f with
    | .lockstep => s.sys.safe
    | .therm => s.sys.mode = .starting || s.sys.mode = .run || s.sys.mode = .idle
    | _ => false

/-- A fault arises (Table 12-2). -/
def State.safFault (f : SafFault) (s : State) : State :=
  if !s.safActs f || s.faultPresent f || (f.latched && s.faultListed f) then s
  else
    let was := s.anyLatched
    let stamp := s.fineNow
    let s := if f.degraded then s else s.drawn
    let s := { s with saf := { s.saf with faults := (s.saf.faults.filter fun (x : SafFault × Bool) => x.1 ≠ f) ++ [(f, true)] } }
    let s := match f.event with
      | some n => s.raise n
      | none => s
    let s := match f with
      | .xs p =>
        { s with saf := { s.saf with
          runSince := tdel s.saf.runSince p, rearmed := putBits s.saf.rearmed p 1 0
          xsPass := tdel (tdel s.saf.xsPass (2 * p)) (2 * p + 1) } }
      | .therm => { s with sys := { s.sys with safeReq := true } }
      | .lockstep | .safeUe => { s with saf := { s.saf with latchAt := some (s.saf.latchAt.getD s.now) } }
      | _ => s
    let s := if f.latched && !was then s.raise 125 else s
    let s := if f.degraded then s.degEnter else s.safTrip (s.faultMask f) 4 0 stamp
    let s := match f with
      | .oc _ => { s with saf := { s.saf with faults := s.saf.faults.map fun (x : SafFault × Bool) => if x.1 = f then (f, false) else x } }
      | _ => s
    s.safEval

/-- A fault's clearing condition holds: it awaits an acknowledge. -/
def State.safCleared (f : SafFault) (s : State) : State :=
  { s with saf := { s.saf with faults := s.saf.faults.map fun (x : SafFault × Bool) => if x.1 = f then (f, false) else x } }

/-- LOCKSTEP_MISMATCH (R264). -/
def execLockstepMismatch (s : State) : Out := .next (s.safFault .lockstep)

/-- SAFE_REGION_UPSET (R102, R264). -/
def execSafeRegionUpset (s : State) : Out := .next (s.safFault .safeUe)

/-- SAFETY_RESET_REQUEST (R264): 10 ms after a lockstep or SAFE fault, a module reset is requested. -/
def execSafetyResetRequest (s : State) : Out :=
  match s.saf.latchAt with
  | some t => .next (if s.safElapsed t 10000000 then { s with sys := { s.sys with safeReq := true } } else s)
  | none => .next s

/-- SELFTEST (R264): the self-test of the safety cores ends; a pass after a fault clears it. -/
def execSelftest (pass : Bool) (s : State) : Out :=
  .next (if pass then (s.safCleared .selftest).safEval else s.safFault .selftest)

/-- DEG_EXPIRE (R265): DEG_LEFT reaches 0. -/
def execDegExpire (s : State) : Out :=
  match s.saf.degFrom with
  | some t =>
    if s.safElapsed t (s.imgFld SAF_DEG_CFG.T_DEG * 1000000000) then
      let cov := (s.saf.faults.filter fun (x : SafFault × Bool) => x.1.degraded).map (·.1)
      let s := { s with saf := { s.saf with degFrom := none, covered := cov, faults := (s.saf.faults.filter fun (x : SafFault × Bool) => x.1 ≠ SafFault.degExpired) ++ [(SafFault.degExpired, true)] } }
      .next ((((s.drawn).safTrip 15 5 0 s.fineNow).raise 120).safEval)
    else .next s
  | none => .next s

/-- The supply warning of R50. -/
def State.safSupplyWarn (uv : Bool) (s : State) : State :=
  if uv then s.safFault .supply else if s.safReady then (s.safCleared .supply).safEval else s

/-- TJ at or above 130 °C (R62). -/
def State.safTherm (hot : Bool) (s : State) : State := if hot then s.safFault .therm else s

/-! ### Start of the safety domain (R259, R267) -/

/-- The range checks of R267. -/
def State.safParamsOk (s : State) : Bool :=
  let within (f : Fld) (lo hi : Nat) : Bool := lo ≤ s.imgFld f && s.imgFld f ≤ hi
  ((List.range 8).all fun p => within (SAF_PCFG.T_REARM p) 1 1000 && within (SAF_PCFG.T_DISC p) 1 500)
    && ((List.range 4).all fun c => !s.safFbUse c || within (SAF_CCFG.T_FB c) 5 200)
    && within SAF_DEG_CFG.P_REARM 1 1000 && within SAF_DEG_CFG.T_DEG 1 60

/-- Phase 4 has ended. `ok`: the region is loaded; a parameter out of range leaves it unloaded. Every channel is TRIPPED
with CAUSE START, as the reset values say. -/
def State.safStart (ok : Bool) (s : State) : State :=
  if !ok then s
  else if !s.safParamsOk then s.unloadRegion 9
  else
    let pins := s.saf.pins
    let s := { s with saf := { pins := pins, effA := pins.sinA, effB := pins.sinB } }.setB SAF_STATUS.READY true
    let run := (List.range 8).filter fun p => s.pairState p = 1
    let tr := (List.range 8).filter fun p => s.pairState p = 2
    let s := { s with saf := { s.saf with runSince := run.map fun p => (p, s.now), transSince := tr.map fun p => (p, s.now) } }
    let s := s.safEval
    if s.getB SYS_SUPPLY.UV then s.safFault .supply else s

/-- SAF's check (R269): 0x0702 until phase 4 ends, 0x0701 where SAFE failed to load. -/
def State.safTests (s : State) : List CheckTest := [(!s.sys.safe, 0x02, 0), (s.sys.safe && !s.loaded 9, 0x01, 0)]

/-! ### Inputs (R252 to R256) -/

/-- STP that feeds a member, and whether its mask is open (R255). -/
def State.masked (s : State) (memberB : Bool) : Bool := (tget s.saf.maskAt (b2n memberB)).isSome

/-- The pair states follow a change of the effective readings of pair `p`: the trip path, the rising edge that capture channel 5 takes for every
mapped pair that leaves RUN (R147, log entries 114 and 115), the re-arm and discrepancy times, and DISC (R252, R253, R256, R258). `was` is whether the pair counted as RUN before; `st0` its state before. -/
def State.pairMoved (p : Nat) (was : Bool) (st0 stamp : Nat) (s : State) : State :=
  let st := s.pairState p
  let run := s.pairRun p
  let s := if st = st0 then s
    else { s with saf := { s.saf with transSince := if st = 2 then tput s.saf.transSince p s.now else tdel s.saf.transSince p } }
  let s := if run && !was then { s with saf := { s.saf with runSince := tput s.saf.runSince p s.now } }
    else if !run then { s with saf := { s.saf with runSince := tdel s.saf.runSince p, rearmed := putBits s.saf.rearmed p 1 0 } }
    else s
  let s := if was && !run && s.safMask p ≠ 0 then (s.captureEdge 5 true stamp).safTrip (s.safMask p) 2 p stamp else s
  if st = 0 then s.safCleared (.disc p) else s

/-- The trip path takes the present reading of a member. -/
def State.takeMember (p : Nat) (memberB : Bool) (stamp : Nat) (s : State) : State :=
  let was := s.pairRun p
  let st0 := s.pairState p
  let s := if memberB then { s with saf := { s.saf with effB := tput s.saf.effB p (tgetD s.saf.pins.sinB p 0) } }
    else { s with saf := { s.saf with effA := putBits s.saf.effA p 1 (b2n (bitAt s.saf.pins.sinA p)) } }
  s.pairMoved p was st0 stamp

/-- SIN_PIN_CHANGE (R251, R252, R255, R256): a member's reading changes. `reading`: 0 OPEN or OTHER, 1 SUPV (on SINnA, between
the thresholds: the reading holds), 2 CLOSED. A masked member waits for the end of its mask. -/
def execSinPinChange (pair : Fin 8) (memberB : Bool) (reading : Fin 3) (stamp : Nat) (s : State) : Out :=
  let p := pair.val
  let r := reading.val
  let f := s.saf.pins
  let f := if memberB then { f with sinB := tput f.sinB p r }
    else if r = 1 then f else { f with sinA := putBits f.sinA p 1 (r / 2) }
  let s := { s with saf := { s.saf with pins := f } }
  .next (if s.safReady && !s.masked memberB then (s.takeMember p memberB stamp).safEval else s)

/-- DISC (R253): a mapped pair has been in TRANSIT for T_DISC. -/
def execPairDisc (pair : Fin 8) (s : State) : Out :=
  let p := pair.val
  match tget s.saf.transSince p with
  | some t =>
    .next (if s.safMask p ≠ 0 && s.safElapsed t (s.imgFld (SAF_PCFG.T_DISC p) * 1000000) then s.safFault (.disc p) else s)
  | none => .next s

/-- The member of pair `p` that an STP feeds is tested at a pulse (R254). -/
def State.pulseTests (s : State) (stp p : Nat) : Bool :=
  s.pairState p ≠ 2 && (if stp = 0 then bitAt s.saf.effA p else tgetD s.saf.effB p 0 ≠ 0)

/-- A pulse of this STP is due: 20 ms less 1 % after its last one, and as much of 10 ms after the other's (R254). -/
def State.pulseDue (s : State) (stp : Nat) : Bool :=
  (tget s.saf.stpAt stp).all (fun t => decide (19800000 ≤ s.since t)) && (tget s.saf.stpAt (1 - stp)).all fun t => decide (9900000 ≤ s.since t)

/-- STP_PULSE (R254, R255): a test pulse starts; its members are masked and those to test noted. -/
def execStpPulse (stp : Fin 2) (s : State) : Out :=
  if !s.safReady || !s.pulseDue stp.val then .next s
  else
    let t := maskOf (List.range 8) fun p => s.pulseTests stp.val p
    .next { s with saf := { s.saf with
      maskAt := tput s.saf.maskAt stp.val s.now, tested := tput s.saf.tested stp.val t, stpAt := tput s.saf.stpAt stp.val s.now } }

/-- A pulse passed by the tested member of the pair while XS is set; XS clears after four of each STP. -/
def State.xsPassed (stp p : Nat) (s : State) : State :=
  if s.faultPresent (.xs p) then
    let t := tmod s.saf.xsPass (2 * p + stp) 0 (· + 1)
    let s := { s with saf := { s.saf with xsPass := t } }
    if 4 ≤ tgetD t (2 * p) 0 && 4 ≤ tgetD t (2 * p + 1) 0 then
      let s := s.safCleared (.xs p)
      if s.pairRun p then { s with saf := { s.saf with runSince := tput s.saf.runSince p s.now } } else s
    else s
  else s

/-- STP_MASK_END (R254, R255): the mask ends 250 µs after the pulse began. `failed`: pairs whose member did not fall below
2.0 V in time; each counts in TEST_FAIL. A pair whose member was not tested neither passes nor fails. A change that persists acts now. -/
def execStpMaskEnd (stp : Fin 2) (failed : BitVec 8) (s : State) : Out :=
  match tget s.saf.maskAt stp.val with
  | none => .next s
  | some t0 =>
    if !s.safElapsed t0 250000 then .next s
    else
      let t := tgetD s.saf.tested stp.val 0
      let stamp := s.fineNow
      let s := { s with saf := { s.saf with maskAt := tdel s.saf.maskAt stp.val, tested := tdel s.saf.tested stp.val } }.drawn
      let s := (List.range 8).foldl (fun s p => s.takeMember p (decide (stp.val = 1)) stamp) s
      let s := (List.range 8).foldl (fun s p =>
        if !bitAt t p then s
        else if bitAt failed.toNat p then
          let s := { s with saf := { s.saf with xsPass := tdel (tdel s.saf.xsPass (2 * p)) (2 * p + 1) } }
          (s.bump SAF_CNT.TEST_FAIL 1).safFault (.xs p)
        else s.xsPassed stp.val p) s
      .next s.safEval

/-- REARM_COMPLETE (R258): pair `who` has read RUN for T_REARM, or (8) the partner for P_REARM. -/
def execRearmComplete (who : Fin 9) (s : State) : Out :=
  let w := who.val
  let since := if w = 8 then s.saf.partnerRun else tget s.saf.runSince w
  let time := s.imgFld (if w = 8 then SAF_DEG_CFG.P_REARM else SAF_PCFG.T_REARM w) * 10000000
  match since with
  | some t => .next (if s.safElapsed t time then { s with saf := { s.saf with rearmed := putBits s.saf.rearmed w 1 1 } }.safEval else s)
  | none => .next s

/-! ### Switch tests and overcurrent (R261, R262) -/

/-- SWITCH_TEST (R261): one switch of a channel is tested: 1,000 ms after the last test of it (of either switch, in turn,
while the channel is ON), no two channels at once, and an ON channel 250 ms after the test of any other ON channel. -/
def execSwitchTest (c : Fin 4) (upper : Bool) (s : State) : Out :=
  let k := 2 * c.val + b2n upper
  let other := 2 * c.val + b2n (!upper)
  let old (k : Nat) : Bool := match tget s.saf.testAt k with
    | some t => s.safElapsed t 1000000000
    | none => true
  let turn := match tget s.saf.testAt k, tget s.saf.testAt other with
    | some a, some b => decide (a ≤ b)
    | some _, none => false
    | none, _ => true
  let on := decide (s.chState c.val = safON)
  let apart := (List.range 4).all fun d => d = c.val || s.chState d ≠ safON || (tget s.saf.onTest d).all fun t => s.safElapsed t 250000000
  let ok := if on then old k && old other && turn && apart else old k
  .next (if s.safReady && s.saf.test.isNone && ok then
      { s with saf := { s.saf with
        test := some (c.val, upper), testAt := tput s.saf.testAt k s.now, onTest := if on then tput s.saf.onTest c.val s.now else s.saf.onTest } }
    else s)

/-- The test of a switch that began at `t0` can end so: while the channel is ON, closed again 50 µs after the output fell, or stuck at 250 µs. -/
def State.testOver (s : State) (c : Nat) (ok : Bool) (t0 : Nat) : Bool := s.chState c ≠ safON || s.safElapsed t0 (if ok then 50000 else 250000)

/-- SWITCH_TEST_END (R261): the test passes, or finds the switch stuck, which counts in TEST_FAIL. -/
def execSwitchTestEnd (c : Fin 4) (ok : Bool) (s : State) : Out :=
  match s.saf.test with
  | some (d, upper) =>
    if d = c.val && s.testOver d ok (tgetD s.saf.testAt (2 * d + b2n upper) 0) then
      let s := { s with saf := { s.saf with test := none } }
      .next (if ok then s else (s.bump SAF_CNT.TEST_FAIL 1).safFault (if upper then .stuck2 d else .stuck1 d))
    else .next s
  | none => .next s

/-- SOUT_OVERCURRENT (R262). -/
def execSoutOvercurrent (c : Fin 4) (s : State) : Out := .next (if s.chState c.val = safON then s.safFault (.oc c.val) else s)

/-! ### Contactor feedback (R263) -/

/-- SFB_CHANGE (R263). -/
def execSfbChange (c : Fin 4) (closed : Bool) (s : State) : Out :=
  let i := c.val
  let on := decide (s.chState i = safON)
  let s := { s with saf := { s.saf with pins := { s.saf.pins with sfb := putBits s.saf.pins.sfb i 1 (b2n closed) } } }
  if !s.safReady || !s.safFbUse i then .next s
  else
    let f := s.saf
    let f := if closed then
        { f with openAt := tdel f.openAt i, closedAt := if on && bitAt f.pulled i then tput f.closedAt i s.now else f.closedAt }
      else { f with closedAt := tdel f.closedAt i, pulled := if on then putBits f.pulled i 1 1 else f.pulled }
    .next (({ s with saf := f }.fbClear i).safEval)

/-- An opened channel's mirror has not closed within T_FB: WELD. -/
def State.judgeWeld (c : Nat) (s : State) : State :=
  match tget s.saf.openAt c with
  | some t => if s.safElapsed t (s.safTfb c) then { s with saf := { s.saf with openAt := tdel s.saf.openAt c } }.safFault (.weld c) else s
  | none => s

/-- FEEDBACK_TIMEOUT (R263): 0 pull-in, 1 the 5 ms of DROP, 2 the mirror after opening. -/
def execFeedbackTimeout (c : Fin 4) (which : Fin 3) (s : State) : Out :=
  let i := c.val
  if !s.safReady || !s.safFbUse i then .next s
  else
    match which.val with
    | 0 =>
      match tget s.saf.onAt i with
      | some t => .next (if s.chState i = safON && !bitAt s.saf.pulled i && s.safElapsed t (s.safTfb i) then s.safFault (.pullin i) else s)
      | none => .next s
    | 1 =>
      match tget s.saf.closedAt i with
      | some t => .next (if s.chState i = safON && s.safElapsed t 5000000 then s.safFault (.drop i) else s)
      | none => .next s
    | _ => .next (s.judgeWeld i)

/-- PARK or STANDBY entry releases every ON channel (R266). -/
def State.safReleaseAll (s : State) : State := ((List.range 4).foldl (fun s c => s.releaseCh c) s).safEval

/-- Entry waits for each mirror, up to T_FB (R266); a WELD found is judged before the domain switches off. -/
def State.safEntryWaits (s : State) : Bool := (List.range 4).any fun c => (tget s.saf.openAt c).any fun t => !s.safElapsed t (s.safTfb c)
def State.safEntryWelds (s : State) : State := (List.range 4).foldl (fun s c => s.judgeWeld c) s

/-! ### The pair partner (R266, R467) -/

/-- The module's own safety state as it goes to the partner (R467): STOP. -/
def State.safSendsStop (s : State) : Bool :=
  !s.safReady || ((List.range 8).any fun p => s.safMask p ≠ 0 && !s.pairRun p) || s.saf.faults.any fun x => x.2 && s.faultMask x.1 = 15 && (match x.1 with
    | .lockstep | .safeUe | .therm | .weld _ | .degExpired => true
    | _ => false)

/-- Image key of the SAFE region's 32-bit pair identity (R467). -/
def imgPairId : Nat := imgKey 9 0

/-- SCRC of Table 22-1: over bytes 44 to 47 of a HEAD and the pair identity. -/
def State.safScrc (s : State) (sstate sseq pad : Nat) : Nat :=
  crc32 (bytesLE 1 sstate ++ bytesLE 1 sseq ++ bytesLE 2 pad ++ bytesLE 4 (s.image imgPairId))

/-- An accepted partner safety field with this STOP bit (R467). -/
def State.partnerField (stop : Bool) (s : State) : State :=
  let s := { s with saf := { s.saf with partnerAt := some s.now } }.safCleared .partnerLost
  if stop then
    let s := { s with saf := { s.saf with partnerRun := none, rearmed := putBits s.saf.rearmed 8 1 0 } }
    let mask := maskOf (List.range 4) fun c => s.imgFld (SAF_CCFG.PTRIP c) = 1
    let hit := (List.range 4).any fun c => bitAt mask c && s.chState c ≠ safTRIPPED
    let stamp := s.fineNow
    let s := s.drawn.safTrip mask 3 0 stamp
    (if hit then s.raise 123 else s).safEval
  else { s with saf := { s.saf with partnerRun := some (s.saf.partnerRun.getD s.now) } }.safEval

/-- PARTNER_SAFETY_FIELD (R467): the field of a HEAD arrives over NET, which must be loaded (R99); accepted where SCRC is right under this module's
pair identity and SSEQ differs from the last one accepted. -/
def execPartnerSafetyField (sstate sseq : BitVec 8) (pad : BitVec 16) (scrc : Word) (s : State) : Out :=
  if !s.safReady || !s.loaded 7 || s.safScrc sstate.toNat sseq.toNat pad.toNat ≠ scrc.toNat || s.saf.partnerSeq = some sseq.toNat then .next s
  else .next ({ s with saf := { s.saf with partnerSeq := some sseq.toNat } }.partnerField (bitAt sstate.toNat 0))

/-- PARTNER_LOST (R467): no field accepted for 5 ms. -/
def execPartnerLost (s : State) : Out :=
  match s.saf.partnerAt with
  | some t =>
    if s.safElapsed t 5000000 then
      .next ({ s with saf := { s.saf with partnerAt := none, partnerRun := none, rearmed := putBits s.saf.rearmed 8 1 0 } }.safFault .partnerLost)
    else .next s
  | none => .next s

/-! ### The mailbox (R269, Table 12-3) -/

/-- A write of SAF_MBX_REQ lands. -/
def State.writeMbx (value : Word) (s : State) : State :=
  if !s.getB SAF_CTRL.ENABLE then s
  else if s.getB SAF_MBX_RSP.PEND then s.bump SAF_CNT.MBX_IGN 1
  else
    let v := value.toNat
    { s with saf := { s.saf with req := some (bitsOf v 24 8, bitsOf v 8 8, bitsOf v 0 8) } }.setB SAF_MBX_RSP.PEND true

/-- The response: SEQ and REASON, PEND 0 and source 112. -/
def State.mbxAnswer (seq code : Nat) (s : State) : State :=
  let s := (s.set SAF_MBX_RSP.SEQ seq).set SAF_MBX_RSP.REASON (0x0700 + code)
  { s with saf := { s.saf with req := none } }.setB SAF_MBX_RSP.PEND false |>.raise 112

/-- The lowest of the codes that apply, 0 if none. -/
def lowestCode (l : List (Bool × Nat)) : Nat :=
  ((l.filter (·.1)).map (·.2)).foldl (fun m c => if m = 0 || c < m then c else m) 0

/-- The request under way, where its OP passes `f`: answered by `act` on its ARG. -/
def State.mbxServe (f : Nat → Bool) (act : Nat → State → Nat × State) (s : State) : State :=
  match s.saf.req with
  | some (seq, arg, op) =>
    if f op then
      let (code, s) := act arg s
      (s.mbxAnswer seq code).safEval
    else s
  | none => s

/-- Why an ENERGISE of channel `c` is refused, 0 if it is not. -/
def State.energiseCode (s : State) (c : Nat) : Nat :=
  if 3 < c then 0x05
  else if s.chState c = safON then 0
  else lowestCode [(decide (s.chState c = safTRIPPED), 0x20), (s.safFbUse c && !s.safFbClosed c, 0x21),
    (s.saf.degFrom.isSome && s.imgFld (SAF_CCFG.DEG c) = 0, 0x23), (s.saf.faults.any (fun x => bitAt (s.faultMask x.1) c), 0x24)]

/-- Energising (R260). -/
def State.energise (c : Nat) (s : State) : Nat × State :=
  let code := s.energiseCode c
  if code ≠ 0 || s.chState c = safON then (code, s)
  else
    let s := s.setCh c safON
    let s := { s with saf := { s.saf with onAt := tput s.saf.onAt c s.now, openAt := tdel s.saf.openAt c, pulled := putBits s.saf.pulled c 1 0 } }
    (0, s.fbClear c)

/-- ENERGISE (R260). -/
def execMbxEnergise (s : State) : Out := .next (s.mbxServe (· = 1) State.energise)

/-- RELEASE (R260). -/
def State.mbxRelease (arg : Nat) (s : State) : Nat × State :=
  if arg / 16 ≠ 0 || arg = 0 then (0x05, s)
  else (0, (List.range 4).foldl (fun s c => if bitAt arg c then s.releaseCh c else s) s)

def execMbxRelease (s : State) : Out := .next (s.mbxServe (· = 2) State.mbxRelease)

/-- Every fault whose clearing condition holds is acknowledged; degraded mode ends once no degraded-permitted fault is left
(R265). -/
def State.ackFaults (s : State) : State :=
  let s := { s with saf := { s.saf with faults := s.saf.faults.filter (·.2) } }
  if s.saf.degFrom.isSome && !(s.saf.faults.any fun x => x.1.degraded) then
    { s with saf := { s.saf with degFrom := none } }.raise 119
  else s

/-- ACK (Table 12-3). -/
def State.mbxAck (arg : Nat) (s : State) : Nat × State :=
  if arg / 32 ≠ 0 then (0x05, s)
  else
    let faults := bitAt arg 4
    let named := (List.range 4).filter fun c => bitAt arg c && s.chState c = safTRIPPED
    let nothing := named.isEmpty && !(faults && !s.saf.faults.isEmpty)
    let stay := faults && s.saf.faults.any (·.2)
    let s := if faults then s.ackFaults.safEval else s
    let left := named.filter fun c => s.chState c = safTRIPPED
    let late := left.any fun c => !s.getB (SAF_CH.ARMABLE c)
    let s := left.foldl (fun s c => if s.getB (SAF_CH.ARMABLE c) then s.armCh c else s) s
    (lowestCode [(late, 0x22), (nothing, 0x25), (stay, 0x26)], s)

def execMbxAck (s : State) : Out := .next (s.mbxServe (· = 3) State.mbxAck)

/-- RESET (R71, R269). -/
def State.mbxReset (arg : Nat) (s : State) : Nat × State :=
  if arg = 0xA5 then (0, { s with sys := { s.sys with safeReq := true } }) else (0x05, s)

def execMbxReset (s : State) : Out := .next (s.mbxServe (· = 4) State.mbxReset)

/-- MBX_UNKNOWN_OP (Table 12-3). -/
def execMbxUnknownOp (s : State) : Out := .next (s.mbxServe (fun op => op = 0 || 4 < op) fun _ s => (0x05, s))

end Sys2Proof.Machine
end

