-- ==== Sys2Proof/Machine/Pair.lean ====
section
/-! DEFINITION. PAIR (chapter 22): lanes, cells, the join checks, the follower's time, loop signals, Canvas streams and the safety
field between two modules. -/

namespace Sys2Proof.Machine

/-! ### Cells (R462, Tables 22-1 to 22-3) -/

/-- 60 bytes with their CRC. -/
def sealCell (b : List Byte) : List Byte := b ++ bytesLE 4 (crc32 b)

/-- A valid copy: a cell of 64 bytes whose CRC is right. -/
def cellOk (c : List Byte) : Bool := c.length = 64 && natLE (c.drop 60) = crc32 (c.take 60)

/-- Bytes `[o, o + n)` of a cell. -/
def cellN (c : List Byte) (o n : Nat) : Nat := natLE ((c.drop o).take n)

/-! ### State (R464) -/

def State.pairJoined (s : State) : Bool := s.get PAIR_STAT.STATE = 2

/-- Signals and bodies are held (R466): own UNTRUST, or the partner's MT_TRUST reads 0. -/
def State.pairHeld (s : State) : Bool := s.getB PAIR_STAT.UNTRUST || !s.pair.trust

/-- A discarded body (R471). -/
def State.cvDrop (s : State) : State := (s.bump PAIR_CNT.CV_DROP 1).raise 317

/-- Leaving JOINED: bodies in reassembly are discarded, bodies being sent end with PAIR_MISMATCH (R464, R472). -/
def State.pairLeave (s : State) : State :=
  let s := s.pair.bodies.foldl (fun (s : State) _ => s.cvDrop) s
  let s := s.pair.sends.foldl (fun (s : State) x => s.completeSelf 0x10 0 x.id 0x0D) s
  { s with pair := { s.pair with bodies := [], sends := [], bulk := [], skipped := [] } }

/-- The state becomes `v`: source 313 at each change. -/
def State.setPairState (v : Nat) (s : State) : State :=
  let was := s.get PAIR_STAT.STATE
  if was = v then s
  else
    let s := (s.set PAIR_STAT.STATE v).raise 313
    if was = 2 then s.pairLeave else if v = 2 then { s with pair := { s.pair with lost := false } } else s

/-- A lane goes UP or down: source 314. -/
def State.setLane (l : Nat) (up : Bool) (s : State) : State :=
  let f : Fld := ⟨PAIR_STAT, 24 + l, 1⟩
  if s.getB f = up then s else (s.setB f up).raise 314

/-- No lane is UP: DOWN. -/
def State.pairDown (s : State) : State :=
  if s.get PAIR_STAT.LANE_UP ≠ 0 then s
  else
    let s := if s.pairJoined then { s with pair := { s.pair with lost := true } } else s
    { s with pair := { s.pair with good := 0, heads := [] } }.setPairState 0

/-- A lane in use of the running block. -/
def State.pairLane (s : State) (l : Nat) : Bool := s.enabled 0x10 && bitAt (s.get PAIR_CFG.LANE_EN) l

/-- A cell dropped for its CRC (R462). -/
def State.cellDrop (l : Nat) (s : State) : State :=
  (if s.get (PAIR_LANE.CRC l) = 0 then s.raise 318 else s).bump (PAIR_LANE.CRC l) 1

/-- PAIR_CELL_CRC_FAIL (R462). -/
def execPairCellCrcFail (lane : Fin 2) (s : State) : Out := .next (if s.pairLane lane.val then s.cellDrop lane.val else s)

/-- A lane that has delivered no valid HEAD within the last 1,000,000 ns is not UP (R462). -/
def State.laneQuiet (l : Nat) (s : State) : State :=
  if (tget s.pair.heard l).all fun t => decide (t + 1000000 < s.now) then (s.setLane l false).pairDown else s

/-- What the lanes show now, whatever comes next. -/
def State.laneSweep (s : State) : State := (s.laneQuiet 0).laneQuiet 1

/-- A valid copy of a cell reaches lane `l`: `f` takes the cell if its TYPE is `ty`. A copy whose CRC fails is dropped. -/
def State.cellIn (l ty : Nat) (cell : List Byte) (f : State → State) (s : State) : State :=
  if !s.pairLane l then s
  else if !cellOk cell then s.laneSweep.cellDrop l
  else if natLE (cell.take 1) = ty then f s.laneSweep
  else s.laneSweep

/-- LANE_TIMEOUT (R462). -/
def execLaneTimeout (lane : Fin 2) (s : State) : Out :=
  .next (if s.enabled 0x10 then s.laneQuiet lane.val else s)

/-! ### HEAD (R464 to R466) -/

/-- The LTC, a multiple of 8 ns, at which MT first reaches `m` under the record in force (R469, R471). -/
def State.ltcOfMt (s : State) (m : Nat) : Nat :=
  let num := (toSigned 64 m - s.relOff - (s.relRef : Int)) * 2 ^ 40
  let den : Int := 2 ^ 40 + s.relRate
  let l := (s.relRef : Int) - (-num).fdiv den
  fromSigned 64 (-((-l).fdiv 8) * 8)

/-- The first failing row of Table 22-4, 0 where every check passes. -/
def State.joinWhy (s : State) (c : List Byte) : Nat :=
  let a := s.nv.active
  let id := (List.range 4).foldr (fun i v => (s.reg (STR_IDENT i)).toNat + 2 ^ 32 * v) 0
  let man := s.manN a 8 8
  let comp := s.manN a 16 8
  if cellN c 1 1 % 2 = s.get PAIR_CFG.ROLE then 1
  else if cellN c 4 16 ≠ id then 2
  else if cellN c 20 8 = man || (comp ≠ 0 && cellN c 28 8 = comp) then 0
  else 3

/-- The round trip that a HEAD closes, and the link delay d (R465). -/
def State.pairTrip (c : List Byte) (stamp : Nat) (s : State) : Option State :=
  (tget s.pair.sent (cellN c 52 2)).map fun t =>
    let l := s.pair.trips ++ [(stamp : Int) - t - cellN c 54 4]
    let l := l.drop (l.length - 16)
    let d := (l.foldl (· + ·) 0).fdiv (2 * l.length)
    { s with pair := { s.pair with trips := l } }.set PAIR_DLY.DLY (fromSigned 32 d)

/-- OFS on the FOLLOW, and UNTRUST (R465, R466). An offset outside 32 bits reads a free value. -/
def State.pairOffset (c : List Byte) (stamp : Nat) (s : State) : State :=
  let o := toSigned 64 (fromSigned 64 (((cellN c 36 8 + s.get PAIR_DLY.DLY : Nat) : Int) - s.mtAt stamp))
  let s := if -(2 ^ 31) ≤ o && o < 2 ^ 31 then s.set PAIR_OFS.OFS (fromSigned 32 o) else (s.set PAIR_OFS.OFS (s.fresh 32)).drawn
  if 2000 < o.natAbs then
    let s := { s with pair := { s.pair with okTime := 0 } }
    if s.getB PAIR_STAT.UNTRUST then s else (s.setB PAIR_STAT.UNTRUST true).raise 315
  else
    let n := if o.natAbs ≤ 1000 then s.pair.okTime + 1 else 0
    let s := { s with pair := { s.pair with okTime := n } }
    if s.getB PAIR_STAT.UNTRUST && 16 ≤ n then (s.setB PAIR_STAT.UNTRUST false).raise 315 else s

/-- The time a HEAD brings (R465, R466): from the LEAD to the FOLLOW, or the round trip alone on the LEAD. -/
def State.pairTime (c : List Byte) (stamp : Nat) (s : State) : State :=
  let role := s.get PAIR_CFG.ROLE
  if cellN c 1 1 % 2 = role then s
  else
    let s := match s.pairTrip c stamp with
      | some t => if role = 1 then t.pairOffset c stamp else t
      | none => s
    if role = 1 && cellN c 2 2 % 10 = 0 && !s.pair.trips.isEmpty then
      s.deliverObs 3 stamp ((cellN c 36 8 + s.get PAIR_DLY.DLY) % 2 ^ 64) 0
    else s

/-- The join checks of a HEAD (R464). -/
def State.pairJoin (c : List Byte) (s : State) : State :=
  let why := s.joinWhy c
  let s := s.set PAIR_STAT.WHY why
  if why ≠ 0 then { s with pair := { s.pair with good := 0 } }.setPairState 1
  else
    let s := { s with pair := { s.pair with good := satTo 16 (s.pair.good + 1) } }
    s.setPairState (if 16 ≤ s.pair.good then 2 else 1)

/-- The first valid copy of a HEAD. -/
def State.headRx (c : List Byte) (stamp : Nat) (s : State) : State :=
  let cyc := cellN c 2 2
  let h : PairHead := { cyc := cyc, rel := s.ltcOfMt (cellN c 36 8) + s.get PAIR_CFG.RLS_DLY * 1000, seen := 0 }
  let l := s.pair.heads ++ [h]
  let s := { s with pair := { s.pair with heads := l.drop (l.length - 4), last := some (cyc, stamp), trust := bitAt (cellN c 1 1) 2 } }
  ((s.set PAIR_STAT.CYC cyc).pairTime c stamp).pairJoin c

/-- HEAD_RX (R462, R464 to R466). `stamp` is the arrival A. -/
def execHeadRx (lane : Fin 2) (cell : List Byte) (stamp : Nat) (s : State) : Out :=
  .next (s.cellIn lane.val 1 cell fun s =>
    let s := { s with pair := { s.pair with heard := tput s.pair.heard lane.val s.now } }.setLane lane.val true
    if s.pair.heads.any fun h => h.cyc = cellN cell 2 2 then s else s.headRx cell stamp)

/-! ### SIG (R469) -/

/-- A received value of signal `i`; 16 are kept. -/
def State.sigPut (i rel v : Nat) (s : State) : State :=
  let l := tgetD s.pair.rx i [] ++ [(rel, v)]
  { s with pair := { s.pair with rx := tput s.pair.rx i (l.drop (l.length - 16)) } }

/-- The first valid copy of a SIG cell whose HEAD is known. -/
def State.sigIn (cell : List Byte) (s : State) : State :=
  let j := cellN cell 1 1
  match s.pair.heads.find? fun h => h.cyc = cellN cell 2 2 with
  | none => s
  | some h =>
    if 5 < j || bitAt h.seen j then s
    else
      let s := { s with pair := { s.pair with heads := s.pair.heads.map fun g => if g.cyc = h.cyc then { g with seen := putBits g.seen j 1 1 } else g } }
      if !s.pairJoined || s.pairHeld then s
      else
        let vals := (List.range (if j = 5 then 4 else 12)).filter fun b => bitAt (cellN cell 4 2) b
        let s := vals.foldl (fun s b => s.sigPut (12 * j + b) h.rel (cellN cell (8 + 4 * b) 4)) s
        if h.rel < s.now then (s.bump PAIR_CNT.SIG_LATE 1).raise 316 else s

/-- SIG_RX (R462, R469). -/
def execSigRx (lane : Fin 2) (cell : List Byte) (s : State) : Out := .next (s.cellIn lane.val 2 cell fun s => s.sigIn cell)

/-! ### BULK (R471) -/

/-- Base of receive buffer `b` of a link. -/
def State.cviAddr (s : State) (link b : Nat) : Nat :=
  s.get64 PAIR_CVI_BASE_LO PAIR_CVI_BASE_HI + (2 * link + b) * 1024 * s.get PAIR_CVI_BUF.BUF_KB

/-- A complete body: held bodies are discarded (R466); else its TOV becomes an LTC and it goes to FUS. -/
def State.bodyIn (link b : Nat) (s : State) : State :=
  let s := { s with pair := { s.pair with bodies := tdel s.pair.bodies (2 * link + b) } }
  if s.pairHeld then s.cvDrop
  else
    let a := s.cviAddr link b
    (s.dramPutN (a + 8) 8 (s.ltcOfMt (s.dramN (a + 8) 8))).fusFeed 6 link a none

/-- A cell's 48 bytes go into buffer `b`, whose body is `r`; bytes past the body's end are not part of it. -/
def State.bulkPlace (link b off : Nat) (r : Rasm) (data : List Byte) (s : State) : State :=
  let n := match r.total with
    | some t => min 48 (t - off)
    | none => 48
  let r := { r with got := r.got ++ [(off, n)] }
  let s := s.dramPuts (s.cviAddr link b + off) (data.take n)
  if r.complete then s.bodyIn link b else { s with pair := { s.pair with bodies := tput s.pair.bodies (2 * link + b) r } }

/-- The first valid copy of a BULK cell. -/
def State.bulkIn (c : List Byte) (s : State) : State :=
  let link := cellN c 1 1
  let body := cellN c 4 4
  let off := cellN c 8 4
  let data := (c.drop 12).take 48
  let size := 1024 * s.get PAIR_CVI_BUF.BUF_KB
  let here : Option Nat := if off = 0 then some (64 + 48 * natLE (data.take 4)) else none
  let cur (b : Nat) : Option Rasm := tget s.pair.bodies (2 * link + b)
  let held (b : Nat) : Bool := s.fusHolds (s.cviAddr link b)
  match [0, 1].find? fun b => (cur b).any fun r => r.sweep = body with
  | some b =>
    match cur b with
    | none => s
    | some r =>
      let total := if r.total.isNone then here else r.total
      let n := min 48 (total.getD (off + 48) - off)
      if (here.isSome && here ≠ total) || n = 0 || size < off + n then s
      else s.bulkPlace link b off { r with total := total } data
  | none =>
    let n := min 48 (here.getD (off + 48) - off)
    if size < off + n then s
    else if held 0 && held 1 then
      if tget s.pair.skipped link = some body then s else { s with pair := { s.pair with skipped := tput s.pair.skipped link body } }.cvDrop
    else
      let free := if held 0 || ((cur 0).isSome && !held 1 && (cur 1).isNone) then 1 else 0
      let s := [0, 1].foldl (fun (s : State) b =>
        if (cur b).isSome then { s with pair := { s.pair with bodies := tdel s.pair.bodies (2 * link + b) } }.cvDrop else s) s
      s.bulkPlace link free off { sweep := body, total := here, got := [] } data

/-- A valid copy of a BULK cell: the first one counts, while JOINED (R464). -/
def State.bulkRx (cell : List Byte) (s : State) : State :=
  let cyc := cellN cell 2 2
  let key := (cyc, cellN cell 1 1, cellN cell 4 4, cellN cell 8 4)
  if !s.pairJoined || 7 < cellN cell 1 1 || s.pair.bulk.contains key then s
  else
    let keep := s.pair.bulk.filter fun k => k.1 = cyc || (k.1 + 1) % 65536 = cyc
    { s with pair := { s.pair with bulk := key :: keep } }.bulkIn cell

/-- BULK_RX (R462, R471). -/
def execBulkRx (lane : Fin 2) (cell : List Byte) (s : State) : Out := .next (s.cellIn lane.val 3 cell fun s => s.bulkRx cell)

/-! ### Sending (R463, R467, R468, R470) -/

/-- ECHO_CYC and ECHO_RES of a cycle that starts now; free values before any HEAD of the partner, where nothing is stated. -/
def State.pairEcho (s : State) : (Nat × Nat) × State :=
  match s.pair.last with
  | some (c, t) => ((c, s.since t), s)
  | none => ((s.fresh 16, s.drawn.fresh 32), s.drawn.drawn)

/-- The HEAD of a cycle (Table 22-1). -/
def State.headCell (s : State) (echo : Nat × Nat) : List Byte :=
  let p := s.pair
  let a := s.nv.active
  let flags := s.get PAIR_CFG.ROLE + 2 * b2n s.pairJoined + 4 * b2n (!s.getB PAIR_STAT.UNTRUST)
  let sstate := b2n s.safSendsStop + 2 * b2n s.saf.degFrom.isSome
  sealCell (bytesLE 1 1 ++ bytesLE 1 flags ++ bytesLE 2 p.cyc ++ ((List.range 4).flatMap fun i => bytesLE 4 (s.reg (STR_IDENT i)).toNat)
    ++ bytesLE 8 (s.manN a 8 8) ++ bytesLE 8 (s.manN a 16 8) ++ bytesLE 8 (fromSigned 64 s.mtNow) ++ bytesLE 1 sstate ++ bytesLE 1 p.sseq
    ++ bytesLE 2 0 ++ bytesLE 4 (s.safScrc sstate p.sseq 0) ++ bytesLE 2 echo.1 ++ bytesLE 4 echo.2 ++ bytesLE 2 0)

/-- The value of outgoing signal `i` in a cycle that starts now (R468). -/
def State.sigOut (s : State) (i : Nat) : Option Nat :=
  let x := s.get (PAIR_SIGO.SLOT i)
  if !s.pairJoined || !s.getB (PAIR_SIGO.EN i) || ((tget s.cle.slots x).any fun c => c.applied = 0) then none else (latestAt (tgetD s.cle.hist x []) 2000 s.now).map (·.2)

/-- SIG cell `j` (Table 22-2). -/
def State.sigCell (s : State) (j : Nat) : List Byte :=
  let v : List (Option Nat) := (List.range 12).map fun b => if 12 * j + b < 64 then s.sigOut (12 * j + b) else none
  sealCell (bytesLE 1 2 ++ bytesLE 1 j ++ bytesLE 2 s.pair.cyc ++ bytesLE 2 (v.foldr (fun o m => 2 * m + b2n o.isSome) 0) ++ bytesLE 2 0
    ++ (v.flatMap fun o => bytesLE 4 (o.getD 0)) ++ bytesLE 4 0)

/-- The next 48 bytes of a body, its TOV replaced (Table 22-3, R470). -/
def State.bulkCell (s : State) (x : PairSend) : List Byte :=
  let raw := memBytes s.dram (x.addr + x.pos) (min 48 (x.len - x.pos))
  let raw := if x.pos = 0 then raw.take 8 ++ bytesLE 8 x.mt ++ raw.drop 16 else raw
  sealCell (bytesLE 1 3 ++ bytesLE 1 x.link ++ bytesLE 2 s.pair.cyc ++ bytesLE 4 x.body ++ bytesLE 4 x.pos ++ raw ++ List.replicate (48 - raw.length) 0#8)

/-- Up to `n` BULK cells of the bodies waiting, in order. -/
def State.bulkCells (s : State) : Nat → List PairSend → List (List Byte) × List PairSend
  | 0, l => ([], l)
  | n + 1, l =>
    match l.find? fun x => x.pos < x.len with
    | none => ([], l)
    | some x =>
      let (cs, l) := s.bulkCells n (l.map fun y => if y.id = x.id then { y with pos := y.pos + 48 } else y)
      (s.bulkCell x :: cs, l)

/-- PAIR_CYCLE (R463): at an own LTC multiple of 100,000 ns. -/
def execPairCycle (s : State) : Out :=
  if !s.enabled 0x10 || s.now % 100000 ≠ 0 || s.pair.cycAt = some s.now then .next s
  else
    let s := s.laneSweep
    let (echo, s) := s.pairEcho
    let (bulk, sends) := s.bulkCells 169 s.pair.sends
    let cells := s.headCell echo :: ((List.range 6).map s.sigCell ++ bulk)
    let p := s.pair
    .next { s with pair := { p with
      out := cells, sends := sends, sent := tput p.sent p.cyc s.now, cyc := (p.cyc + 1) % 65536, sseq := (p.sseq + 1) % 256, cycAt := some s.now } }

/-- BODY_SEND. -/
def opBodySend (c : Cmd) (s : State) : State :=
  let s := s.laneSweep
  let link := c.arg 16 1
  let a := c.arg 24 8
  let len := 64 + 48 * s.dramN a 4
  if 7 < link || a % 64 ≠ 0 || !s.inWins 0x10 a 64 || !s.inWins 0x10 a len then c.finish 0x05 s
  else if !s.pairJoined then c.finish 0x0D s
  else
    let body := tgetD s.pair.bodyNo link 0 + 1
    let x : PairSend := { id := c.id, link := link, addr := a, body := body, len := len, mt := fromSigned 64 (s.mtAt (s.dramN (a + 8) 8)), pos := 0 }
    { s with pair := { s.pair with sends := s.pair.sends ++ [x], bodyNo := tput s.pair.bodyNo link (body % 2 ^ 32) } }

/-- BODY_SEND (R470). -/
def execBodySend (ring : Fin 1) (e : Entry) (s : State) : Out := .next (s.runRow 0x10 ring.val 1 0 e opBodySend)

/-- BODY_SEND_DONE (R470): the last cell of the oldest body has left. -/
def execBodySendDone (s : State) : Out :=
  match s.pair.sends with
  | x :: rest => .next (if x.len ≤ x.pos then { s with pair := { s.pair with sends := rest } }.completeSelf 0x10 0 x.id 0x00 else s)
  | [] => .next s

/-! ### The check (R473) -/

/-- Image key of the pair lanes in service. -/
def imgPairSvc : Nat := imgKey 7 0

/-- The tests of R473, and those of CTL where a signal in use draws on a slot of CLE (R104). -/
def State.pairTests (s : State) : List CheckTest :=
  let dly := s.get PAIR_CFG.RLS_DLY
  let kb := s.get PAIR_CVI_BUF.BUF_KB
  let lanes := s.get PAIR_CFG.LANE_EN
  let cvi := (s.cviAddr 0 0, 16 * 1024 * kb)
  let rings := if s.ringUsed 0x10 0 then s.ringAreas 0x10 0 else []
  let drawn : List CheckTest := (List.range 64).flatMap fun i => if s.getB (PAIR_SIGO.EN i) then s.regionTests 1 (0x400 + 4 * i) else []
  s.regionTests 7 0 ++ drawn ++ s.winTests 0x10 ++ s.ringTests 0x10
  ++ [(dly < 100 || 1000 < dly, 0x05, 0x04), (kb < 4 || 16384 < kb, 0x05, 0x48), (!s.inWins 0x10 cvi.1 cvi.2, 0x05, 0x40),
      (lanes = 0 || (List.range 2).any fun l => bitAt lanes l && !bitAt (s.image imgPairSvc) l, 0x08, 0x04),
      (rings.any (overlaps cvi), 0x08, 0x40)]

/-- What a passed check starts. CYC and SSEQ of the first cycle are not stated: free. -/
def State.pairStart (s : State) : State :=
  let c := s.fresh 16
  let s := s.drawn
  { s with pair := { cyc := c, sseq := s.fresh 8 } }.drawn

/-- ENABLE 1 → 0 (R473). -/
def State.pairDisable (s : State) : State :=
  ((((s.setB PAIR_CTRL.ENABLE false).setLane 0 false).setLane 1 false).pairDown).pairLeave

/-- PAIR_DISABLE (R473). -/
def execPairDisable (s : State) : Out := .next (if s.getB PAIR_CTRL.ENABLE then s.pairDisable else s)

end Sys2Proof.Machine
end

