-- ==== Sys2Proof/Machine/Pnl.lean ====
section
/-! DEFINITION. PNL (chapter 23): rails, frontlight, waveform tables, the pixel ledger and the panel commands. -/

namespace Sys2Proof.Machine

/-! ### State, rails and frontlight -/

def State.pnlState (s : State) : Nat := s.get PNL_STAT.STATE
def State.setPnl (f : PnlState → PnlState) (s : State) : State := { s with pnl := f s.pnl }

/-- KA_FLAGS.ORDERLY as PNL writes it (R486, R488). -/
def State.setOrderly (b : Bool) (s : State) : State :=
  { s with ka := { s.ka with flags := putBits s.ka.flags KA_FLAGS.ORDERLY.lo 1 (b2n b) } }.setB KA_FLAGS.ORDERLY b

/-- PNL_STAT as the pins and SYS show it: PDET, and FL_CAP while UV reads 1 (R478). -/
def State.pnlStat (s : State) : Word :=
  let w := (s.reg PNL_STAT).toNat
  BitVec.ofNat 32 (putBits (putBits w 28 1 (b2n s.pnl.pdet)) 26 1 (b2n (s.getB SYS_SUPPLY.UV)))

/-- The frontlight's current in mA (R478). -/
def State.flMa (s : State) : Nat :=
  if s.getB PNL_FL.FL_EN && s.pnlState = 4 && !s.pnl.flOff then
    if s.getB SYS_SUPPLY.UV then min 100 (s.get PNL_FL.MA) else s.get PNL_FL.MA
  else 0

/-- A write of PNL_FL: a current above 350 mA is ignored; FL_EN from 0 to 1 ends a shutdown after a short; FL_EN at 0 clears FL_OPEN. -/
def State.writeFl (value : Word) (s : State) : State :=
  let ma := value.toNat % 512
  let en := bitAt value.toNat 31
  let s := if ma ≤ 350 then s.set PNL_FL.MA ma else s
  let s := if en && !s.getB PNL_FL.FL_EN then s.setPnl fun p => { p with flOff := false } else s
  let s := if en then s else s.setB PNL_STAT.FL_OPEN false
  s.setB PNL_FL.FL_EN en

/-- FL_FAULT (R478): compliance or a short has lasted 10 ms. -/
def execFlFault (short : Bool) (s : State) : Out :=
  if !s.enabled 0x11 || s.flMa = 0 || (short && s.flMa ≤ 10) then .next s
  else
    let f := if short then PNL_STAT.FL_SHORT else PNL_STAT.FL_OPEN
    let s := if s.getB f then s else (s.setB f true).raise 324
    .next (if short then s.setPnl fun p => { p with flOff := true } else s)

/-- Every rail and VDDP go off at once (R490). -/
def State.pnlDrop (s : State) : State :=
  (s.setPnl fun p => { p with op := none, rails := 0, vddp := false, railAt := none, frameAt := none, parkAt := none }).set PNL_STAT.STATE 0

/-- The running operation ends with a code. -/
def State.pnlFinish (o : PnlOp) (code : Nat) (s : State) : State :=
  let s := s.setPnl fun p => { p with op := none }
  if o.kind = 0 then s else s.completeSelf 0x11 0 o.id code

/-- A fault ends the command in progress and drops the rails (R490). -/
def State.pnlFault (code : Nat) (s : State) : State :=
  let s := match s.pnl.op with
    | some o => s.pnlFinish o code
    | none => s
  s.pnlDrop.setPnl fun p => { p with faulted := true }

/-- RAIL_FAULT (R477, R490). -/
def execRailFault (rail : Fin 5) (s : State) : Out :=
  let on := s.pnlState ≠ 0 && (rail.val < s.pnl.rails || (s.pnlState = 1 && rail.val = s.pnl.rails))
  .next (if s.enabled 0x11 && on then ((s.set ⟨PNL_STAT, 16 + rail.val, 1⟩ 1).pnlFault 0x23).raise 321 else s)

/-- The panel has been absent for 10 ms with VDDP on (R490). -/
def State.pnlRemoved (s : State) : State := (s.pnlFault 0x20).raise 322

/-- A removal whose 10 ms have passed has acted, whatever comes next. -/
def State.pnlSweep (s : State) : State :=
  if s.enabled 0x11 && s.pnl.vddp && !s.pnl.pdet && s.pnl.pdetAt + 10000000 < s.now then s.pnlRemoved else s

/-- PDET_CHANGE (R495). -/
def execPdetChange (present : Bool) (s : State) : Out :=
  if s.pnl.pdet = present then .next s
  else
    let s := s.pnlSweep
    .next (((s.setPnl fun p => { p with pdet := present, pdetAt := s.now }).setB PNL_STAT.PDET present).raise 322)

/-- PANEL_REMOVED (R490): PDET has read absent for 10 ms with VDDP on. -/
def execPanelRemoved (s : State) : Out :=
  .next (if s.enabled 0x11 && s.pnl.vddp && !s.pnl.pdet && s.pnl.pdetAt + 10000000 ≤ s.now then s.pnlRemoved else s)

/-- PTEMP_MEASURE (R479): a reading, or none where the thermistor is open or shorted. -/
def execPtempMeasure (t : Option (BitVec 12)) (s : State) : Out :=
  if !s.enabled 0x11 then .next s
  else
    match t with
    | some v => .next ((s.set PNL_TEMP.T v.toNat).setB PNL_STAT.TEMP_FAULT false)
    | none => .next (if s.getB PNL_STAT.TEMP_FAULT then s else (s.setB PNL_STAT.TEMP_FAULT true).raise 323)

/-! ### Waveform tables (R480 to R482) -/

/-- The temperature of an operation, none where it is unknown (R479). -/
def State.pnlTemp (s : State) : Option Int :=
  if !s.getB PNL_STAT.TEMP_FAULT then some (toSigned 12 (s.get PNL_TEMP.T))
  else if s.getB PNL_TEMP.FIX_EN then some (toSigned 12 (s.get PNL_TEMP.FIX))
  else none

def State.wfAddr (s : State) (b : Nat) : Nat := s.get64 (PNL_WF_LO b) (PNL_WF_HI b)

/-- The band of R481. -/
def State.pnlBand (s : State) (t : Int) : Option Nat :=
  (List.range 8).find? fun b =>
    let a := s.wfAddr b
    a ≠ 0 && toSigned 16 (s.dramN (a + 10) 2) ≤ t && t < toSigned 16 (s.dramN (a + 12) 2)

/-- Field of a latched header. -/
def PnlOp.h (o : PnlOp) (k n : Nat) : Nat := natLE ((o.hdr.drop k).take n)
def PnlOp.len (o : PnlOp) (t v : Nat) : Nat := o.h (16 + 2 * t + v) 1
def PnlOp.vsh (o : PnlOp) : Nat := o.h 7 1
def PnlOp.vsl (o : PnlOp) : Nat := o.h 8 1

/-- The drive code of frame `f` of a variant, as DRAM holds it. -/
def State.wfCode (s : State) (wf t v f : Nat) : Nat := bitsOf (memByte s.dram (wf + 64 + 64 * (2 * t + v) + f / 4)).toNat (2 * (f % 4)) 2

/-- Ledger change of a code (Table 23-1). -/
def PnlOp.delta (o : PnlOp) (code : Nat) : Int := if code = 1 then (o.vsh : Int) else if code = 2 then -(o.vsl : Int) else 0

/-- NET(t, v). -/
def State.wfNet (s : State) (o : PnlOp) (t v : Nat) : Int :=
  (List.range (o.len t v)).foldl (fun a f => a + o.delta (s.wfCode o.wf t v f)) 0

/-- The failure that R482 finds in a table, 0 for none. -/
def State.wfBad (s : State) (o : PnlOp) : Nat :=
  let vs (v : Nat) : Bool := v < 10 || 15 < v
  if o.h 0 4 ≠ 0x46574E50 || o.h 4 2 ≠ 1 then 0x0E
  else if o.h 6 1 ≠ s.get PNL_GEOM.CMODE || vs o.vsh || vs o.vsl || toSigned 16 (o.h 12 2) ≤ toSigned 16 (o.h 10 2) || o.h 9 1 ≠ 0 || o.h 14 2 ≠ 0
      || o.h 50 14 ≠ 0 || (List.range 17).any (fun t => (List.range 2).any fun v => (List.range (o.len t v)).any fun f => s.wfCode o.wf t v f = 3) then 0x24
  else 0

/-- The band latched for an operation, or the code that ends it. -/
def State.pnlLatch (o : PnlOp) (s : State) : Nat × PnlOp × State :=
  match s.pnlTemp with
  | none => (0x21, o, s)
  | some t =>
    match s.pnlBand t with
    | none => (0x21, o, s.raise 323)
    | some b =>
      let o := { o with wf := s.wfAddr b, hdr := memBytes s.dram (s.wfAddr b) 64 }
      let s := s.set PNL_STAT.BAND b
      (s.wfBad o, o, s.setPnl fun p => { p with vcom := s.get PNL_VCOM.MV })

/-! ### Pixels (R483 to R485) -/

def State.pix (s : State) (k : Nat) : Pix := tgetD s.pnl.pix k {}
def State.setPix (k : Nat) (x : Pix) (s : State) : State :=
  s.setPnl fun p => { p with pix := if x = {} then tdel p.pix k else tput p.pix k x }

/-- The pixels of an operation's rectangle. -/
def State.pnlCells (s : State) (o : PnlOp) : List Nat :=
  (List.range o.rh).flatMap fun dy => (List.range o.rw).map fun dx => (o.y0 + dy) * s.get PNL_GEOM.W + o.x0 + dx

/-- The whole panel as the rectangle. -/
def State.pnlWhole (s : State) (o : PnlOp) : PnlOp := { o with x0 := 0, y0 := 0, rw := s.get PNL_GEOM.W, rh := s.get PNL_GEOM.H }

/-- The variant of R484. -/
def State.pickVariant (s : State) (o : PnlOp) (t : Nat) (ledger : Int) : Nat :=
  if (ledger + s.wfNet o t 1).natAbs < (ledger + s.wfNet o t 0).natAbs then 1 else 0

/-- A code sent to pixel `k`: its ledger follows and saturates (R485). -/
def State.sendCode (o : PnlOp) (k code : Nat) (s : State) : State :=
  let x := s.pix k
  let l := x.ledger + o.delta code
  let c := clampInt (-2048) 2047 l
  let s := s.setPix k { x with ledger := c }
  if c = l then s else (if s.get PNL_CNT.LSAT = 0 then s.raise 325 else s).bump PNL_CNT.LSAT 1

/-- The code of frame `f` of transition `t` for pixel `k`; a code 3 that a changed table shows is sent as a free code (R476, R494). -/
def State.frameCode (o : PnlOp) (t k f : Nat) (s : State) : State :=
  let v := (s.pix k).v
  if o.len t v ≤ f then s
  else
    let c := s.wfCode o.wf t v f
    if c = 3 then (s.sendCode o k (s.fresh 32 % 3)).drawn else s.sendCode o k c

/-! ### Operations -/

/-- A command is done and the panel is READY. -/
def State.pnlReady (o : PnlOp) (s : State) : State := (s.set PNL_STAT.STATE 4).pnlFinish o 0x00

/-- The clearing refresh has ended (R486). -/
def State.clearEnd (o : PnlOp) (s : State) : State :=
  let s := s.setPnl fun p => { p with pix := (p.pix.map fun e => (e.1, ({ e.2 with state := 0, target := 0, v := 0 } : Pix))).filter (fun e => e.2 ≠ {}), known := true }
  (s.pnlReady o).raise 321

/-- The clearing refresh starts: every pixel takes its variant of index 16. -/
def State.clearStart (o : PnlOp) (s : State) : State :=
  let o := s.pnlWhole { o with frame := 0, frames := max (o.len 16 0) (o.len 16 1) }
  let s := (s.pnlCells o).foldl (fun (s : State) k => s.setPix k { s.pix k with v := s.pickVariant o 16 (s.pix k).ledger }) s
  if o.frames = 0 then s.clearEnd o else (s.setPnl fun p => { p with op := some o }).set PNL_STAT.STATE 3

/-- The discharge sequence starts (R489). -/
def State.dischargeStart (o : PnlOp) (s : State) : State :=
  (s.setPnl fun p => { p with op := some { o with frame := 0, frames := s.get PNL_SEQ.DIS_FR } }).set PNL_STAT.STATE 2

/-- The discharge sequence has ended. -/
def State.dischargeEnd (o : PnlOp) (s : State) : State :=
  let s := s.setPnl fun p => { p with pix := (p.pix.map fun e => (e.1, ({ e.2 with ledger := 0 } : Pix))).filter (fun e => e.2 ≠ {}), known := false }
  (s.raise 326).clearStart o

/-- The rails go down in order (R488). -/
def State.fallStart (o : PnlOp) (s : State) : State := (s.setPnl fun p => { p with op := some o, railAt := none }).set PNL_STAT.STATE 7

/-- The balancing settle starts with a band of its own (R488); without one the command ends and the panel stays READY. -/
def State.settleStart (o : PnlOp) (s : State) : State :=
  let (code, o, s) := s.pnlLatch o
  if code ≠ 0 then
    if o.kind = 0 then s.pnlDrop else (s.set PNL_STAT.STATE 4).pnlFinish o code
  else
    let o := s.pnlWhole { o with frame := 0, frames := s.get PNL_SEQ.SETTLE_FR }
    (s.setPnl fun p => { p with op := some o }).set PNL_STAT.STATE 6

/-- A refresh has ended: states take their targets; POWER_OFF goes on to its settle. -/
def State.refreshEnd (o : PnlOp) (s : State) : State :=
  let s := (s.pnlCells o).foldl (fun (s : State) k => s.setPix k { s.pix k with state := (s.pix k).target, target := 0, v := 0 }) s
  let s := s.bump PNL_CNT.REFR 1
  if o.kind = 3 then s.pnlReady o else s.settleStart o

/-- Bytes of an image line. -/
def State.pnlStride (s : State) : Nat := ceilDiv (ceilDiv (s.get PNL_GEOM.W) 4) 64 * 64

/-- A refresh of the rectangle from the image at `addr` starts, its band latched (R487). -/
def State.refreshStart (addr : Nat) (o : PnlOp) (s : State) : State :=
  let w := s.get PNL_GEOM.W
  let cells := s.pnlCells o
  let s := cells.foldl (fun (s : State) k =>
    let b := (memByte s.dram (addr + k / w * s.pnlStride + k % w / 4)).toNat
    let x := s.pix k
    let tg := bitsOf b (2 * (k % w % 4)) 2
    s.setPix k { x with target := tg, v := s.pickVariant o (4 * x.state + tg) x.ledger }) s
  let n := cells.foldl (fun m k => max m (o.len (4 * (s.pix k).state + (s.pix k).target) (s.pix k).v)) 0
  let o := { o with frame := 0, frames := n }
  if n = 0 then s.refreshEnd o else (s.setPnl fun p => { p with op := some o }).set PNL_STAT.STATE 5

/-- The image at `addr` leaves PNL's DRAM windows. -/
def State.imageOut (s : State) (addr : Nat) : Bool := !s.inWins 0x11 addr (s.get PNL_GEOM.H * s.pnlStride)

/-- One frame of the settle: the code of each pixel by its ledger (R488). -/
def PnlOp.settleCode (o : PnlOp) (l : Int) : Nat := if (o.vsl : Int) ≤ 2 * l then 2 else if (o.vsh : Int) ≤ -2 * l then 1 else 0

/-- The number, on the grid of FRATE that the first frame since the rails came up set, of a frame that is sent now; none where the frame
is not due (R475). -/
def State.frameDue (s : State) : Option (Nat × Nat) :=
  match s.pnl.frameAt with
  | none => some (s.now, 0)
  | some (b, n) =>
    let i := (s.now + 7 - b) * s.get PNL_TIM.FRATE / 1000000000
    if n ≤ i then some (b, i) else none

/-- PNL_FRAME (R475, R476, R485): a frame has been sent. -/
def execPnlFrame (s : State) : Out :=
  let s := s.pnlSweep
  match s.pnl.op, s.frameDue with
  | none, _ => .next s
  | some _, none => .next s
  | some o, some (b, i) =>
    if !s.enabled 0x11 then .next s
    else
      let s := s.setPnl fun p => { p with frameAt := some (b, i + 1) }
      let o' := { o with frame := o.frame + 1 }
      let last := decide (o.frames ≤ o.frame + 1)
      let go (s : State) : State := s.setPnl fun p => { p with op := some o' }
      match s.pnlState with
      | 2 => .next (if last then s.dischargeEnd o' else go s)
      | 3 =>
        let s := (s.pnlCells o).foldl (fun (s : State) k => s.frameCode o 16 k o.frame) s
        .next (if last then s.clearEnd o' else go s)
      | 5 =>
        let s := (s.pnlCells o).foldl (fun (s : State) k => s.frameCode o (4 * (s.pix k).state + (s.pix k).target) k o.frame) s
        .next (if last then s.refreshEnd o' else go s)
      | 6 =>
        let quiet := (s.pnlCells o).all fun k => o.settleCode (s.pix k).ledger = 0
        let s := (s.pnlCells o).foldl (fun (s : State) k => s.sendCode o k (o.settleCode (s.pix k).ledger)) s
        .next (if quiet || last then s.fallStart o' else go s)
      | _ => .next s

/-- The next rail's step is due: 0.5 ms after the one before it (R486, R488). -/
def State.railDue (s : State) : Bool := s.pnl.railAt.all fun t => s.reached (t + 500000)

/-- PNL_RAIL_READY (R477, R486): the next rail is ready; after VCOM, ORDERLY is read and written 0. -/
def execPnlRailReady (rail : Fin 5) (s : State) : Out :=
  let s := s.pnlSweep
  match s.pnl.op with
  | none => .next s
  | some o =>
    if !s.enabled 0x11 || s.pnlState ≠ 1 || rail.val ≠ s.pnl.rails || !s.railDue then .next s
    else
      let s := s.setPnl fun p => { p with rails := p.rails + 1, railAt := some s.now }
      if s.pnl.rails < 5 then .next s
      else
        let orderly := s.getB KA_FLAGS.ORDERLY
        let s := s.setOrderly false
        .next (if orderly then s.clearStart o else s.dischargeStart o)

/-- PNL_RAIL_DOWN (R488): a rail has fallen in the orderly power-off; after VGL, VDDP goes off. -/
def execPnlRailDown (rail : Fin 5) (s : State) : Out :=
  let s := s.pnlSweep
  match s.pnl.op with
  | none => .next s
  | some o =>
    if !s.enabled 0x11 || s.pnlState ≠ 7 || rail.val + 1 ≠ s.pnl.rails || !s.railDue then .next s
    else
      let s := s.setPnl fun p => { p with rails := p.rails - 1, railAt := some s.now }
      .next (if 0 < s.pnl.rails then s else ((s.pnlFinish o 0x00).pnlDrop.setOrderly true).raise 327)

/-! ### Commands (Table 23-4) -/

/-- A command of PNL runs only while no other does. -/
def State.runPnl (r opcode : Nat) (e : Entry) (op : Cmd → State → State) (s : State) : State :=
  let s := s.pnlSweep
  if s.pnl.op.isSome then s else s.runRow 0x11 r opcode 0 e op

/-- POWER_ON. -/
def opPnlPowerOn (c : Cmd) (s : State) : State :=
  if s.pnlState = 4 then c.finish 0x00 s
  else if s.pnlTemp.isNone then c.finish 0x21 s
  else if !s.pnl.pdet then c.finish 0x20 s
  else
    let (code, o, s) := s.pnlLatch { kind := 1, id := c.id }
    if code ≠ 0 then c.finish code s
    else (s.setPnl fun p => { p with op := some o, vddp := true, rails := 0, railAt := none, frameAt := none, faulted := false }).set PNL_STAT.STATE 1

/-- POWER_ON (R486). -/
def execPnlPowerOn (ring : Fin 1) (e : Entry) (s : State) : Out := .next (s.runPnl ring.val 1 e opPnlPowerOn)

/-- POWER_OFF. -/
def opPnlPowerOff (c : Cmd) (s : State) : State :=
  let park := c.arg 16 8
  if s.pnlState ≠ 4 then c.finish (if s.pnl.faulted then 0x22 else 0x00) s
  else if park ≠ 0 && s.imageOut park then c.finish 0x05 s
  else
    let o : PnlOp := { kind := 2, id := c.id, park := park }
    if park = 0 then s.settleStart o
    else
      let (code, o, s) := s.pnlLatch (s.pnlWhole o)
      if code ≠ 0 then c.finish code s else s.refreshStart park o

/-- POWER_OFF (R488). -/
def execPnlPowerOff (ring : Fin 1) (e : Entry) (s : State) : Out := .next (s.runPnl ring.val 2 e opPnlPowerOff)

/-- REFRESH. -/
def opPnlRefresh (c : Cmd) (s : State) : State :=
  let w := s.get PNL_GEOM.W
  let h := s.get PNL_GEOM.H
  let x0 := c.arg 24 2
  let y0 := c.arg 26 2
  let rw := if c.arg 28 2 = 0 then w - x0 else c.arg 28 2
  let rh := if c.arg 30 2 = 0 then h - y0 else c.arg 30 2
  if x0 % 8 ≠ 0 || rw % 8 ≠ 0 || w < x0 + rw || h < y0 + rh || s.imageOut (c.arg 16 8) then c.finish 0x05 s
  else if s.pnlState ≠ 4 then c.finish 0x22 s
  else
    let (code, o, s) := s.pnlLatch { kind := 3, id := c.id, x0 := x0, y0 := y0, rw := rw, rh := rh }
    if code ≠ 0 then c.finish code s else s.refreshStart (c.arg 16 8) o

/-- REFRESH (R487). -/
def execPnlRefresh (ring : Fin 1) (e : Entry) (s : State) : Out := .next (s.runPnl ring.val 3 e opPnlRefresh)

/-- DISCHARGE. -/
def opPnlDischarge (c : Cmd) (s : State) : State :=
  if s.pnlState ≠ 4 then c.finish 0x22 s
  else
    let (code, o, s) := s.pnlLatch { kind := 4, id := c.id }
    if code ≠ 0 then c.finish code s else s.dischargeStart o

/-- DISCHARGE (R489). -/
def execPnlDischarge (ring : Fin 1) (e : Entry) (s : State) : Out := .next (s.runPnl ring.val 4 e opPnlDischarge)

/-! ### PARK and STANDBY (R491) -/

/-- A running command is abandoned without a completion. -/
def State.pnlAbandon (s : State) : State :=
  match s.pnl.op with
  | none => s
  | some o =>
    let g := s.ring 0x11 0
    (s.setRing 0x11 0 { g with taken := g.taken.filter fun t => t.id ≠ o.id }).setPnl fun p => { p with op := none }

/-- Acceptance of a PARK or STANDBY request: the limited orderly power-off from READY, also from a refresh in progress; else the rails
drop. -/
def State.pnlPark (s : State) : State :=
  if s.pnlState = 4 || (s.pnlState = 5 && s.pnl.op.any fun o => o.kind = 3) then
    (s.pnlAbandon.setPnl fun p => { p with parkAt := some s.now }).settleStart { kind := 0 }
  else s.pnlAbandon.pnlDrop

/-- Entry waits for the shutdown, at most 150 ms. -/
def State.pnlEntryWaits (s : State) : Bool := s.pnlState ≠ 0 && s.pnl.parkAt.any fun t => decide (s.now < t + 150000000)

/-! ### The check (R493) -/

/-- The tests of R493. -/
def State.pnlTests (s : State) : List CheckTest :=
  let w := s.get PNL_GEOM.W
  let h := s.get PNL_GEOM.H
  let cd := s.get PNL_TIM.CDIV
  let fr := s.get PNL_TIM.FRATE
  let out (v lo hi : Nat) : Bool := v < lo || hi < v
  let mv := s.get PNL_VCOM.MV
  let rl (f : Fld) : Bool := out (s.get f) 150 220
  let wf : List CheckTest := (List.range 8).map fun b => (decide (s.wfAddr b ≠ 0) && !s.inWins 0x11 (s.wfAddr b) 2240, 0x05, 0x40 + 8 * b)
  s.regionTests 8 0 ++ s.winTests 0x11 ++ s.ringTests 0x11 ++ wf
  ++ [(w % 8 ≠ 0 || out w 8 1600 || out h 1 1200, 0x05, 0x08), (out cd 3 16 || out fr 25 85, 0x05, 0x0C),
      (rl PNL_RAIL.VGH || rl PNL_RAIL.VGL, 0x05, 0x10), (out mv 200 3000, 0x05, 0x14),
      (s.get PNL_SEQ.DIS_FR = 0 || s.get PNL_SEQ.SETTLE_FR = 0, 0x05, 0x20),
      (2000000000 < (h + s.get PNL_TIM.VBLANK) * (w / 8 + s.get PNL_TIM.HBLANK) * cd * 25 * fr, 0x07, 0x08)]

/-- What a passed check starts: the pixel SRAM is kept (R80). -/
def State.pnlStart (s : State) : State := s.setPnl fun p => { p with op := none, rails := 0, vddp := false, railAt := none, frameAt := none, faulted := false, flOff := false, parkAt := none }

/-- ENABLE 1 → 0 (R490). The spec gives no reason for the command in progress: a free one. -/
def State.pnlDisable (s : State) : State :=
  let s := s.setB PNL_CTRL.ENABLE false
  let s := match s.pnl.op with
    | some o => (s.pnlFinish o (s.freshCode [0x20, 0x21, 0x22, 0x23, 0x24])).drawn
    | none => s
  s.pnlDrop

/-- PNL_DISABLE (R490). -/
def execPnlDisable (s : State) : Out := .next (if s.getB PNL_CTRL.ENABLE then s.pnlDisable else s)

end Sys2Proof.Machine
end

