-- ==== Sys2Proof/Machine/Upd.lean ====
section
/-! DEFINITION. UPD (chapter 25): packages and staging, Varnish, confirmation, life-cycle changes, key programming and the service
USB port. -/

namespace Sys2Proof.Machine

/-! ### Registers that show MRAM (chapter 25) -/

/-- UPD_STAT with the slot pointer's fields. -/
def State.updStat (s : State) : Word :=
  let n := s.nv
  let w := (s.reg UPD_STAT).toNat
  let w := putBits (putBits w 28 1 n.active) 26 2 (match n.inact with | .invalid => 0 | .staged => 1 | .previous => 2)
  BitVec.ofNat 32 (putBits (putBits (putBits w 25 1 (b2n n.trial)) 20 4 n.boots) 16 4 n.confirmN)

/-- UPD_LC. -/
def State.updLc (s : State) : Word :=
  BitVec.ofNat 32 (s.nv.lifeCycle % 8 + 16 * (s.nv.lcTarget.getD 0 % 8) + 128 * b2n s.nv.lcTarget.isSome)

/-- UPD_NONCE takes a new random value (R520): four free words. -/
def State.newNonce (s : State) : State :=
  (List.range 4).foldl (fun s i => (s.setReg (UPD_NONCE i) (BitVec.ofNat 32 (s.fresh 32))).drawn) s

/-! ### Packages (R509, Tables 25-1 to 25-5) -/

/-- Where a package is read from: offset and length to bytes. -/
abbrev PkgRead := Nat → Nat → List Byte

/-- A little-endian field of a list of bytes. -/
def fieldN (b : List Byte) (o n : Nat) : Nat := natLE ((b.drop o).take n)
def fieldBE (b : List Byte) (o n : Nat) : Nat := natBE ((b.drop o).take n)

/-- Is a component of this TYPE and INDEX known (Table 25-4)? -/
def knownComponent (ty ix : Nat) : Bool :=
  match ty with
  | 1 | 2 | 3 | 5 | 6 | 9 => ix = 0
  | 4 => ix ≤ 9
  | 7 => ix ≤ 31
  | 8 => ix ≤ 7
  | _ => false

/-- Entry `i` of a manifest. -/
def manEntry (man : List Byte) (i : Nat) : UpdEntry :=
  let o := 64 + 64 * i
  { ty := fieldN man o 1, ix := fieldN man (o + 1) 1, version := fieldN man (o + 4) 4, off := fieldN man (o + 8) 4, len := fieldN man (o + 12) 4,
    digest := fieldN man (o + 16) 48 }

def manEntries (man : List Byte) : List UpdEntry := (List.range (satTo 48 (fieldN man 6 2))).map (manEntry man)

/-- REGION_MASK of a structure image header (Table 4-3). -/
def headerMask (hdr : List Byte) : Nat := fieldN hdr 12 2 % 1024

/-- Components that make a slot complete under an image header (R507). -/
def completeSet (hdr : List Byte) : List (Nat × Nat) :=
  [(1, 0), (2, 0), (3, 0)] ++ ((List.range 10).filter fun r => bitAt (headerMask hdr) r).map fun r => (4, r)

def hasEntry (es : List UpdEntry) (k : Nat × Nat) : Bool := es.any fun e => e.ty = k.1 && e.ix = k.2

/-- The MANIFEST row of Table 25-5 fails. -/
def manifestBad (h man : List Byte) (pkgLen : Nat) (rd : PkgRead) : Bool :=
  let n := fieldN man 6 2
  let es := manEntries man
  let zero (b : List Byte) (o k : Nat) : Bool := fieldN b o k = 0
  let pages (e : UpdEntry) : Nat × Nat := (4096 * e.off, e.len)
  let hdr := match es.find? fun e => e.ty = 3 with
    | some e => rd (4096 * e.off) e.len
    | none => []
  Config.sha384 (rd 256 (fieldN h 16 2)) ≠ fieldN h 32 48 || n = 0 || 48 < n || fieldN h 16 2 ≠ 64 + 64 * n
  || !zero h 80 80 || 4 ≤ fieldN h 8 2 || 16 ≤ fieldN h 19 1 || !zero man 30 34 || 2 ≤ fieldN man 29 1 || fieldN man 28 1 = 0 || 8 < fieldN man 28 1
  || (List.range n).any (fun i => !zero man (64 + 64 * i + 2) 2)
  || es.any (fun e => !knownComponent e.ty e.ix || e.off = 0 || e.len = 0 || pkgLen < 4096 * e.off + e.len)
  || (List.range n).any (fun i => (List.range i).any fun j =>
      let a := manEntry man i
      let b := manEntry man j
      overlaps (pages a) (pages b) || (a.ty = b.ty && a.ix = b.ix))
  || (fieldN man 29 1 % 2 = 1 && !(completeSet hdr).all (hasEntry es))

/-- The first failing row of Table 25-5, 0 for none. `inWin`: the package lies where it may. -/
def State.stageReason (s : State) (rd : PkgRead) (len : Nat) (inWin : Bool) : Nat :=
  let h := rd 0 256
  let man := (rd 0 4096).drop 256
  let lc := s.nv.lifeCycle
  let board := s.get UPD_DEVINFO.BOARD
  let part := match s.part with
    | .h24 => 0
    | .s24 => 1
  if s.upd.staging.isSome || (manEntries man).any (fun e => e.ty = 4 && s.getB ⟨UPD_PEND, e.ix, 1⟩ && e.ix ≤ 9) then 0x0F
  else if s.nv.trial then 0x25
  else if len < 4096 || !inWin || fieldN h 24 8 ≠ len then 0x05
  else if fieldN h 0 4 ≠ 0x314B5055 || fieldN h 4 2 ≠ 1 || fieldN h 6 2 ≠ 0x100 || fieldN man 0 4 ≠ 0x314E414D || fieldN man 4 2 ≠ 1 then 0x0E
  else if !bitAt (fieldN h 19 1) lc || lc = 4 || (lc = 3 && fieldN h 18 1 ≠ 0) then 0x0B
  else if !bitAt (fieldN h 8 2) part || fieldN h 10 1 ≠ 0x0C || fieldN h 11 1 ≠ 0 || 32 ≤ board || !bitAt (fieldN h 12 4) board then 0x20
  else
    match tget s.nv.otp (fieldN h 18 1) with
    | none => 0x21
    | some key =>
      if !Config.ecdsaVerify key (h.take 160) (fieldBE h 160 48) (fieldBE h 208 48) then 0x22
      else if manifestBad h man len rd then 0x23
      else if fieldN h 20 4 < s.nv.minSvn && lc ≠ 0 then 0x24
      else 0

/-! ### Staging (R511 to R513) -/

/-- Bytes of a component of the active slot: from the safety bank or from UFS (R507). -/
def State.slotBytes (s : State) (a : Nat) (e : UpdEntry) : List Byte :=
  if e.ty = 2 then tgetD s.nv.bank (2 * a) []
  else if e.ty = 4 && e.ix = 9 then tgetD s.nv.bank (2 * a + 1) []
  else memBytes s.ufs (s.slotBase a + 4096 * e.off) e.len

/-- A component goes into slot `a`. -/
def State.placeComponent (a : Nat) (e : UpdEntry) (b : List Byte) (s : State) : State :=
  let s := s.set UPD_PROG.KIB (satTo (2 ^ 26 - 1) (s.get UPD_PROG.KIB + ceilDiv b.length 1024))
  let bank (k : Nat) (s : State) : State := { s with nv := { s.nv with bank := tput s.nv.bank k b } }
  if e.ty = 2 then bank (2 * a) s
  else if e.ty = 4 && e.ix = 9 then bank (2 * a + 1) s
  else { s with ufs := memPuts s.ufs (s.slotBase a + 4096 * e.off) b }

/-- The named components in manifest order (R511): the code that ended it, what is placed, and the components done. `stop`: a write
error, or the component boundary of an ABORT, after that many. -/
def State.stageNamed (a : Nat) (rd : PkgRead) (stop : Option Nat) : List UpdEntry → List UpdEntry → State → Option Nat × List UpdEntry × State
  | [], done, s => (none, done, s)
  | e :: es, done, s =>
    let s := s.set UPD_PROG.ENTRY done.length
    if stop = some done.length then (some 0x29, done, s)
    else
      let b := rd (4096 * e.off) e.len
      if Config.sha384 b ≠ e.digest then (some 0x26, done, s) else State.stageNamed a rd stop es (done ++ [e]) (s.placeComponent a e b)

/-- First page after what is placed: where the next carried component goes (log entry 20). -/
def nextPage (done : List UpdEntry) : Nat := done.foldl (fun m e => max m (e.off + ceilDiv e.len 4096)) 1

/-- The components to carry (R512). -/
def State.stageCarry (a : Nat) (hdr : List Byte) (stop : Option Nat) : List (Nat × Nat) → List UpdEntry → State → Option Nat × List UpdEntry × State
  | [], done, s => (none, done, s)
  | k :: ks, done, s =>
    if hasEntry done k then State.stageCarry a hdr stop ks done s
    else
      let s := s.set UPD_PROG.ENTRY 0x3F
      if stop = some done.length then (some 0x29, done, s)
      else
        let man := memBytes s.ufs (s.slotBase (1 - a)) 4096
        match (manEntries man).find? fun e => e.ty = k.1 && e.ix = k.2 with
        | none => (some (if k.1 = 4 then 0x27 else 0x28), done, s)
        | some e =>
          let b := s.slotBytes (1 - a) e
          if Config.sha384 b ≠ e.digest then (some 0x28, done, s)
          else if k.1 = 4 && e.digest ≠ fieldN hdr (64 + 64 * k.2 + 16) 48 then (some 0x27, done, s)
          else
            let e := { e with off := nextPage done }
            State.stageCarry a hdr stop ks (done ++ [e]) (s.placeComponent a e b)

/-- The manifest copy of a slot (R507, R512). -/
def manifestCopy (man : List Byte) (es : List UpdEntry) : List Byte :=
  man.take 6 ++ bytesLE 2 es.length ++ (man.drop 8).take 56
  ++ es.flatMap fun e => bytesLE 1 e.ty ++ bytesLE 1 e.ix ++ bytesLE 2 0 ++ bytesLE 4 e.version ++ bytesLE 4 e.off ++ bytesLE 4 e.len ++ bytesLE 48 e.digest

/-- R511 and R512 on slot `a`: the code it ends with (0 on success), and the slot's contents. A staged section must match the staged
header too. -/
def State.stageRun (a : Nat) (man : List Byte) (rd : PkgRead) (stop : Option Nat) (s : State) : Nat × State :=
  let es := manEntries man
  match State.stageNamed a rd stop es [] s with
  | (some c, _, s) => (c, s)
  | (none, done, s) =>
    let hdrOf (es : List UpdEntry) (s : State) : List Byte := match es.find? fun e => e.ty = 3 with
      | some e => s.slotBytes a e
      | none => []
    let act := 1 - a
    let hdr := if hasEntry done (3, 0) then hdrOf done s else
      match (manEntries (memBytes s.ufs (s.slotBase act) 4096)).find? fun e => e.ty = 3 with
      | some e => s.slotBytes act e
      | none => []
    let full := fieldN man 29 1 % 2 = 1
    match if full then (none, done, s) else State.stageCarry a hdr stop (completeSet hdr) done s with
    | (some c, _, s) => (c, s)
    | (none, all, s) =>
      if all.any fun e => e.ty = 4 && bitAt (headerMask hdr) e.ix && e.digest ≠ fieldN hdr (64 + 64 * e.ix + 16) 48 then (0x27, s)
      else (0, { s with ufs := memPuts s.ufs (s.slotBase a) (manifestCopy man all) })

/-- A staging is over: ARB1 is released, and an ABORT that waited completes. -/
def State.stagingOff (s : State) : State :=
  let cmd := match s.upd.staging with
    | some g => g.abort
    | none => none
  let s := ({ s with upd := { s.upd with staging := none } }.setB UPD_STAT.STAGING false).arbRelease 22
  match cmd with
  | some id => s.completeSelf 0x13 0 id 0x00
  | none => s

/-- A staging is abandoned: the slot stays INVALID (R513). -/
def State.updAbandon (s : State) : State := if s.upd.staging.isSome then s.stagingOff else s

/-- STAGE. -/
def opStage (c : Cmd) (s : State) : State :=
  let addr := c.arg 16 8
  let len := c.arg 24 8
  let rd : PkgRead := fun o n => memBytes s.dram (addr + o) n
  match s.stageReason rd len (addr % 4096 = 0 && s.inWins 0x13 addr len) with
  | 0 =>
    let h := rd 0 256
    let s := { s with
      nv := { s.nv with inact := .invalid }
      upd := { s.upd with staging := some { addr := addr, manLen := fieldN h 16 2, svn := fieldN h 20 4, man := rd 256 (fieldN h 16 2) } } }
    c.finish 0x00 ((((s.setB UPD_STAT.STAGING true).set UPD_PROG.KIB 0).set UPD_PROG.ENTRY 0).arbRequest 22)
  | code => c.finish code s

/-- STAGE (R510). -/
def execUpdStage (ring : Fin 1) (e : Entry) (s : State) : Out := .next (s.runRow 0x13 ring.val 1 0 e opStage)

/-- STAGING_END (R511 to R513): under ARB1 the staging has gone through its components, or has stopped after `stop` of them with a
storage error or at an ABORT. -/
def execStagingEnd (stop : Option (Fin 64)) (s : State) : Out :=
  match s.upd.staging with
  | none => .next s
  | some g =>
    if !s.arbHolds 22 then .next s
    else
      let a := 1 - s.nv.active
      let (code, s) := s.stageRun a g.man (fun o n => memBytes s.dram (g.addr + o) n) (stop.map (·.val))
      if g.abort.isSome then .next s.stagingOff
      else
        let s := (s.stagingOff).set UPD_STAT.REASON (0x1300 + code)
        .next (if code = 0 then
            { s with nv := { s.nv with inact := .staged, slotSvn := tput s.nv.slotSvn a g.svn } }.raise 345
          else s.raise 346)

/-- ABORT. -/
def opUpdAbort (c : Cmd) (s : State) : State :=
  match s.upd.staging with
  | none => c.finish 0x00 s
  | some g =>
    if g.abort.isSome then c.finish 0x00 s
    else { s with upd := { s.upd with staging := some { g with abort := some c.id } } }

/-- UPD_ABORT (R513). -/
def execUpdAbort (ring : Fin 1) (e : Entry) (s : State) : Out := .next (s.runRow 0x13 ring.val 2 0 e opUpdAbort)

/-! ### Varnish and confirmation (R514 to R516) -/

/-- UPD_PEND bits of the regions whose section in the new slot is not the one loaded are set (R515). -/
def State.pendVarnish (s : State) : State :=
  (List.range 10).foldl (fun s r =>
    let src := ImgSrc.slot s.nv.active
    let new := if bitAt (s.hdrMask src) r then s.hdrDigest src r else 0
    let now := if s.loaded r then tgetD s.str.digests r 0 else 0
    if new = now then s else s.setB ⟨UPD_PEND, r, 1⟩ true) s

/-- VARNISH. -/
def opVarnish (c : Cmd) (s : State) : State :=
  if s.upd.staging.isSome || s.getB STR_RLD_STAT.BUSY then c.finish 0x0F s
  else if s.nv.inact ≠ .staged then c.finish 0x2A s
  else
    let a := 1 - s.nv.active
    let s := { s with nv := { s.nv with active := a, inact := .previous, trial := true, boots := 0, confirmN := s.manN a 28 1 } }
    c.finish 0x00 (s.pendVarnish.raise 347)

/-- VARNISH (R514, R515). -/
def execUpdVarnish (ring : Fin 1) (e : Entry) (s : State) : Out := .next (s.runRow 0x13 ring.val 3 0 e opVarnish)

/-- CONFIRM. -/
def opConfirm (c : Cmd) (s : State) : State :=
  if !s.nv.trial then c.finish 0x2B s
  else c.finish 0x00 { s with nv := { s.nv with trial := false, minSvn := max s.nv.minSvn (tgetD s.nv.slotSvn s.nv.active 0) } }

/-- CONFIRM (R516). -/
def execUpdConfirm (ring : Fin 1) (e : Entry) (s : State) : Out := .next (s.runRow 0x13 ring.val 4 0 e opConfirm)

/-! ### Life cycle and keys (R520, R521) -/

/-- Table 25-7: is a transition permitted, and does it need a token? -/
def lcPath (f t : Nat) : Option Bool :=
  match f, t with
  | 0, 1 => some false
  | 1, 2 => some false
  | 2, 3 => some true
  | 3, 2 => some true
  | f, 4 => if f ≤ 3 then some false else none
  | _, _ => none

/-- A token (Table 25-8) is right. -/
def State.tokenOk (s : State) (b : List Byte) (target : Nat) : Bool :=
  let nonce := (List.range 4).foldr (fun i v => (s.reg (UPD_NONCE i)).toNat + 2 ^ 32 * v) 0
  match tget s.nv.otp 0 with
  | none => false
  | some key =>
    fieldN b 0 4 = 0x3154434C && fieldN b 4 1 = s.nv.lifeCycle && fieldN b 5 1 = target && fieldN b 6 1 = 0
      && fieldN b 8 8 = s.get64 UPD_DEVID_LO UPD_DEVID_HI && fieldN b 16 16 = nonce
      && Config.ecdsaVerify key (b.take 160) (fieldBE b 160 48) (fieldBE b 208 48)

/-- LC_CHANGE; a new nonce follows each, whatever its reason (R520). -/
def opLcChange (c : Cmd) (s : State) : State :=
  let t := c.arg 16 1
  State.newNonce <|
  if s.upd.staging.isSome then c.finish 0x0F s
  else
    match lcPath s.nv.lifeCycle t with
    | none => c.finish 0x2C s
    | some tok =>
      if tok && !s.tokenOk (memBytes s.dram (c.arg 24 8) 256) t then c.finish 0x2D s
      else c.finish 0x00 { s with nv := { s.nv with lcTarget := some t }, sys := { s.sys with safeReq := true } }

/-- LC_CHANGE (R520). -/
def execLcChange (ring : Fin 1) (e : Entry) (s : State) : Out := .next (s.runRow 0x13 ring.val 5 0 e opLcChange)

/-- KEY_PROG. -/
def opKeyProg (c : Cmd) (s : State) : State :=
  let k := c.arg 16 1
  let p := natBE (memBytes s.dram (c.arg 24 8) 96)
  if s.nv.lifeCycle ≠ 0 then c.finish 0x0B s
  else if k = 0 || 3 < k || !Config.onCurve p then c.finish 0x05 s
  else if (tget s.nv.otp k).isSome then c.finish 0x08 s
  else c.finish 0x00 { s with nv := { s.nv with otp := tput s.nv.otp k p } }

/-- KEY_PROG (R521). -/
def execKeyProg (ring : Fin 1) (e : Entry) (s : State) : Out := .next (s.runRow 0x13 ring.val 6 0 e opKeyProg)

/-! ### Service USB port (R522) -/

/-- CONN follows SVC_VBUS, EN and the recovery wait. -/
def State.usbShow (s : State) : State :=
  s.setB UPD_USB.CONN (s.upd.vbus && s.nv.lifeCycle ≠ 4 && (s.getB UPD_USB.EN || s.sys.mode = .recovery))

/-- A write of UPD_USB: EN from 0 to 1 clears RCV and DONE. -/
def State.writeUsb (value : Word) (s : State) : State :=
  let en := bitAt value.toNat 31
  let s := if en && !s.getB UPD_USB.EN then (s.set UPD_USB_RCV.RCV 0).setB UPD_USB.DONE false else s
  (s.setB UPD_USB.EN en).usbShow

/-- USB_DATA (R522): a bulk OUT packet. Bytes outside UPD's DRAM window are counted and not written (R32, log entry 130). -/
def execUsbData (data : List Byte) (s : State) : Out :=
  if !s.getB UPD_USB.EN || !s.getB UPD_USB.CONN || s.getB UPD_USB.DONE then .next s
  else
    let cap := s.get UPD_USB_LEN.LEN * 2 ^ 20
    let rcv := s.get UPD_USB_RCV.RCV
    let d := data.take (cap - rcv)
    let s := (s.blockPuts 0x13 (s.get64 UPD_USB_BASE_LO UPD_USB_BASE_HI + rcv) d).set UPD_USB_RCV.RCV (rcv + d.length)
    .next (if data.isEmpty || cap ≤ rcv + d.length then (s.setB UPD_USB.DONE true).raise 350 else s)

/-- USB_VBUS_CHANGE (R522). -/
def execUsbVbusChange (present : Bool) (s : State) : Out := .next { s with upd := { s.upd with vbus := present } }.usbShow

/-! ### The check -/

/-- UPD's tests: rings and windows inside usable DRAM, and a buffer length. -/
def State.updTests (s : State) : List CheckTest := s.winTests 0x13 ++ s.ringTests 0x13 ++ [(decide (s.get UPD_USB_LEN.LEN = 0), 0x05, 0xCC)]

/-- A passed check reports FELLBACK and SET_RESET (R518). -/
def State.updStart (s : State) : State :=
  let s := if s.getB UPD_STAT.FELLBACK then s.raise 348 else s
  if s.getB UPD_STAT.SET_RESET then s.raise 349 else s

/-- ENABLE 1 → 0 abandons a running staging (R513). -/
def State.updDisable (s : State) : State := (s.setB UPD_CTRL.ENABLE false).updAbandon

/-- UPD_DISABLE (R513). -/
def execUpdDisable (s : State) : Out := .next (if s.getB UPD_CTRL.ENABLE then s.updDisable else s)

end Sys2Proof.Machine
end

