-- ==== Sys2Proof/Machine/Frac.lean ====
section
/-! DEFINITION. Exact fractions, for the comparisons of currents and for positions that the spec states without a rounding
(R216, R217). -/

namespace Sys2Proof.Machine

/-- A fraction with a positive denominator, not reduced. -/
structure Frac where
  n : Int
  d : Nat
  deriving DecidableEq, Repr

namespace Frac

def ofInt (i : Int) : Frac := ⟨i, 1⟩
def ofNat (n : Nat) : Frac := ⟨n, 1⟩
def mk' (n : Int) (d : Nat) : Frac := ⟨n, d⟩
def zero : Frac := ⟨0, 1⟩
def add (a b : Frac) : Frac := ⟨a.n * b.d + b.n * a.d, a.d * b.d⟩
def neg (a : Frac) : Frac := ⟨-a.n, a.d⟩
def sub (a b : Frac) : Frac := a.add b.neg
def mul (a b : Frac) : Frac := ⟨a.n * b.n, a.d * b.d⟩
def lt (a b : Frac) : Bool := decide (a.n * b.d < b.n * a.d)
def le (a b : Frac) : Bool := decide (a.n * b.d ≤ b.n * a.d)
def floor (a : Frac) : Int := floorDivNat a.n a.d
def clamp (x lo hi : Frac) : Frac := if lt x lo then lo else if lt hi x then hi else x

/-- The value of a finite binary32 number. -/
def ofF32 (a : F32) : Frac :=
  let p := F.parts a
  if 0 ≤ p.2 then ⟨p.1 * 2 ^ p.2.toNat, 1⟩ else ⟨p.1, 2 ^ (-p.2).toNat⟩

end Frac

/-- The symmetric triangle of R217: peak 1, period `per` ns, 0 at LTC multiples of the period and rising first. -/
def triangle (per t : Nat) : Frac :=
  if per = 0 then Frac.zero
  else
    let x := t % per
    if 4 * x < per then ⟨(4 * x : Nat), per⟩
    else if 4 * x < 3 * per then ⟨(2 * per : Int) - 4 * x, per⟩
    else ⟨(4 * x : Int) - 4 * per, per⟩

end Sys2Proof.Machine
end

