-- ==== Sys2Proof/Machine/VdrBase.lean ====
section
/-! DEFINITION. The operations VDR's outputs, banks and Stroke contexts share: flags, becoming active, end decay, opening,
windows and bank switches (R213 to R222). -/

namespace Sys2Proof.Machine

def State.vlo (s : State) (k : Nat) : Vlo := tgetD s.vdr.outs k {}
def State.setVlo (k : Nat) (o : Vlo) (s : State) : State := { s with vdr := { s.vdr with outs := tput s.vdr.outs k o } }
def State.bank (s : State) (b : Nat) : Bank := tgetD s.vdr.banks b {}
def State.setBank (b : Nat) (k : Bank) (s : State) : State := { s with vdr := { s.vdr with banks := tput s.vdr.banks b k } }

/-- ACTIVE, CALL and DECAY of VDR_OUT_SENSE follow the output. -/
def State.showOut (k : Nat) (s : State) : State :=
  let o := s.vlo k
  ((s.setB (VDR_OUT_SENSE.ACTIVE k) (o.active && !o.shed)).setB (VDR_OUT_SENSE.CALL k) o.call).setB (VDR_OUT_SENSE.DECAY k) o.decay.isSome

/-- The output changed by `f`. -/
def State.modVlo (k : Nat) (f : Vlo → Vlo) (s : State) : State := (s.setVlo k (f (s.vlo k))).showOut k

/-- Bits of VDR_OUT_FLT. -/
def fltOC : Nat := 0
def fltSHORT : Nat := 1
def fltSTB : Nat := 2
def fltOPEN : Nat := 3
def fltOVL : Nat := 4
def fltSUPLOSS : Nat := 5
def fltBST_SUB : Nat := 6
def fltSHED : Nat := 7
def fltFAST_REL : Nat := 8
def fltLATE_REL : Nat := 9

/-- A flag is set; from 0 to 1 it raises 64, SHED, FAST_REL and LATE_REL excepted (R220, R227). -/
def State.outFlag (k bit : Nat) (s : State) : State :=
  let f : Fld := ⟨VDR_OUT_FLT k, bit, 1⟩
  if s.getB f then s
  else
    let s := s.setB f true
    let s := if bit < 7 then s.raise 64 else s
    if bit = fltSHED then s.raise 72 else if bit = fltBST_SUB then s.raise 73 else s

/-- A fault flag that stops the output is set (R220): OC, SHORT, STB or OVL. -/
def State.outStopped (s : State) (k : Nat) : Bool := s.get (VDR_OUT_FLT.FLT k) &&& 0x17 ≠ 0

/-- BANK_SC or BANK_OVL is set (R221). -/
def State.bankStopped (s : State) (b : Nat) : Bool := s.getB (VDR_BANK_STAT.BANK_SC b) || s.getB (VDR_BANK_STAT.BANK_OVL b)

/-- The supply is present and the 10 ms recovery is over (R222). -/
def State.vlvReady (s : State) : Bool := s.getB SYS_SUPPLY.VLV_OK && s.vdr.recovery.isNone

/-- A bank's high side is set to `hs` at `t`. -/
def State.setHs (b hs t : Nat) (s : State) : State :=
  let old := s.get (VDR_BANK_STAT.HS b)
  if old = hs then s
  else
    let k := s.bank b
    (s.setBank b { k with changed := some t, closedAt := if old = 0 then t else k.closedAt, pwmOff := if hs = 0 then none else k.pwmOff }).set
      (VDR_BANK_STAT.HS b) hs

/-- A high side closed for a PWM period has opened by now (R216): it is shown open. -/
def State.settleBank (b : Nat) (s : State) : State :=
  match (s.bank b).pwmOff with
  | some e => if e ≤ s.now then s.setHs b 0 e else s
  | none => s

/-- The high side of bank `b` now. -/
def State.hsNow (s : State) (b : Nat) : Nat :=
  match (s.bank b).pwmOff with
  | some e => if e ≤ s.now then 0 else s.get (VDR_BANK_STAT.HS b)
  | none => s.get (VDR_BANK_STAT.HS b)

/-- The high side follows the call of a PWM output (R214): it opens as that output stops. -/
def State.pwmStops (k : Nat) (s : State) : State := if (s.vlo k).active && (s.vlo k).run = 2 then s.setHs (k / 4) 0 s.now else s

/-- An output becomes active. A PWM output takes the bank's period into use (R216). -/
def State.activateOut (k t : Nat) (s : State) : State :=
  let s := if s.get (VDR_OUT_CFG.MODE k) = 2 then s.setBank (k / 4) { s.bank (k / 4) with per := s.get (VDR_BANK_PWM.PER (k / 4)) } else s
  s.modVlo k fun o => { o with
    active := true, run := s.get (VDR_OUT_CFG.MODE k), call := false, decay := none, fast := none, shed := false, closedCyc := 0
    seen := false, pwmOn := 0, closedAt := if o.active && !o.shed then o.closedAt else t }

/-- An active output enters end decay at `t` (R218): low side on, no call. -/
def State.beginEndDecay (k t : Nat) (s : State) : State :=
  let o := s.vlo k
  if o.active && o.decay.isNone then
    ((s.pwmStops k).modVlo k fun o => { o with decay := some t, ext := 0, call := false, shed := false }).set (VDR_OUT_RELT.EXT_US k) 0
  else s

/-- The low side opens at once and the output is inactive. -/
def State.openLow (k : Nat) (s : State) : State :=
  (s.pwmStops k).modVlo k fun o => { o with active := false, call := false, decay := none, fast := none, shed := false }

/-- The code sampled at stamp `t`, if that sample exists. -/
def State.sampleAt (s : State) (k t : Nat) : Option Nat := ((s.vlo k).samples.find? fun e => e.1 = t).map (·.2)

/-- The current a decision at tick `t` uses, in codes of 2.5 mA: the sample stamped `t - 1000` (R212). -/
def State.senseAt (s : State) (k t : Nat) : Nat := if t < 1000 then 0 else (s.sampleAt k (t - 1000)).getD 0

/-- A code as a fraction of an ampere, and milliamperes likewise. -/
def codeFrac (c : Nat) : Frac := ⟨(c : Int), 400⟩
def maFrac (m : Int) : Frac := ⟨m, 1000⟩

/-- Half of the window's band. -/
def State.halfBand (s : State) (k : Nat) : Frac := (Frac.ofF32 (s.reg (VDR_OUT_BAND k)).toNat).mul ⟨1, 2⟩

/-- The tick that the present LTC belongs to. -/
def State.tickNow (s : State) : Nat := s.now / 1000 * 1000

/-- Outputs of a bank. -/
def bankOuts (b : Nat) : List Nat := (List.range 4).map fun j => 4 * b + j

/-- Some output of bank `b` is in end decay. -/
def State.bankDecaying (s : State) (b : Nat) : Bool := (bankOuts b).any fun k => (s.vlo k).decay.isSome

end Sys2Proof.Machine
end

