-- ==== Sys2Proof/Machine/Stroke.lean ====
section
/-! DEFINITION. Stroke contexts, the start queue and triggers (chapter 11). -/

namespace Sys2Proof.Machine

def State.ctx (s : State) (k : Nat) : Ctx := tgetD s.stk.ctx k {}
def State.setCtx (k : Nat) (c : Ctx) (s : State) : State := { s with stk := { s.stk with ctx := tput s.stk.ctx k c } }
def State.ctxState (s : State) (k : Nat) : Nat := s.get (VDR_CTX_STAT.STATE k)
def State.ctxRuns (s : State) (k : Nat) : Bool := s.ctxState k = 1
def State.ctxTgt (s : State) (k : Nat) : Nat := s.get (VDR_CTX_RUN.TGT_MA k)
def State.setTgt (k ma : Nat) (s : State) : State := s.set (VDR_CTX_RUN.TGT_MA k) ma

/-- WAITK of a wait. -/
def waitKind : StkWait → Nat
  | .none => 0
  | .wait _ => 1
  | .wcur .. => 2
  | .wtrg .. => 3
  | .ramp .. => 4
  | .chk .. => 5
  | .sup .. => 6

/-- The context waits. -/
def State.setWait (k : Nat) (w : StkWait) (s : State) : State :=
  (s.setCtx k { s.ctx k with wait := w }).set (VDR_CTX_STAT.WAITK k) (waitKind w)

/-! ### Ending a stroke (R239) -/

/-- End causes (Table 11-2). -/
def causeEND : Nat := 0
def causeBOOST_NRDY : Nat := 1
def causeCUR_TO : Nat := 2
def causeTRG_TO : Nat := 3
def causeILLEGAL : Nat := 4
def causeSUP_DENIED : Nat := 5
def causeFAULT : Nat := 6
def causeSUPLOSS : Nat := 7
def causePREEMPT : Nat := 8
def causeSTOPPED : Nat := 9

/-- The context goes to IDLE; STK_DONE with IRQ = 1. -/
def State.ctxIdle (k t : Nat) (s : State) : State :=
  let s := s.set (VDR_CTX_STAT.STATE k) 0
  if s.getB (VDR_CTX_CFG.IRQ k) then s.raiseAt 76 t else s

/-- The stroke of context `k` ends at `t` with a cause other than PREEMPT. -/
def State.strokeEnd (k cause t : Nat) (s : State) : State :=
  let s := (s.set (VDR_CTX_STAT.CAUSE k) cause).setWait k .none
  let s := if cause = causeEND then s else s.raiseAt 77 t
  let s := if cause = causeBOOST_NRDY then s.raiseAt 78 t else s
  if cause = causeFAULT || !(s.vlo k).active then s.ctxIdle k t
  else (s.set (VDR_CTX_STAT.STATE k) 2).beginEndDecay k t

/-- A fault stops the output of context `k` (R239). -/
def State.ctxFault (k t : Nat) (s : State) : State :=
  match s.ctxState k with
  | 1 => s.strokeEnd k causeFAULT t
  | 2 => s.ctxIdle k t
  | _ => s

/-- The output of context `k` releases (R239). -/
def State.ctxRelease (k t : Nat) (s : State) : State := if s.ctxState k = 2 then s.ctxIdle k t else s

/-! ### Instructions (R231 to R240) -/

/-- PC advances; past 16,383 the stroke is ILLEGAL (R232). -/
def State.pcNext (k t : Nat) (s : State) : State :=
  let pc := s.get (VDR_CTX_STAT.PC k)
  if pc = 16383 then s.strokeEnd k causeILLEGAL t else s.set (VDR_CTX_STAT.PC k) (pc + 1)

/-- The dither of a context in mA at `t` (R234). -/
def ctxDither (c : Ctx) (t : Nat) : Frac := (triangle (c.dithPer * 1000000) t).mul (Frac.ofNat c.dithAmp)

/-- T + d of a context in amperes. -/
def State.ctxCentre (s : State) (k t : Nat) : Frac := ((Frac.ofNat (s.ctxTgt k)).add (ctxDither (s.ctx k) t)).mul ⟨1, 1000⟩

/-- TCLE (R233): the latest applied output of the slot with stamp + 100 ns at or before `t`, in mA. -/
def State.followTgt (s : State) (x t : Nat) : Nat :=
  match latestAt (tgetD s.cle.hist x []) 100 t with
  | none => 0
  | some (_, u) => (clampInt 0 8000 (F.scaledRound u 1000)).toNat

/-- The target of a RAMP run at `t0` (R233). -/
def rampAt (t0 from0 ma d t : Nat) : Nat :=
  let j := (t - t0) / 1000
  if d * 10 ≤ j then ma else ((from0 : Int) + (((ma : Int) - from0) * j).tdiv ((d * 10 : Nat) : Int)).toNat

/-- The current sought by WCUR is reached at `t` (R235). -/
def State.wcurReached (s : State) (k : Nat) (falling : Bool) (t : Nat) : Bool :=
  match (if t < 1000 then none else s.sampleAt k (t - 1000)) with
  | none => false
  | some c =>
    if falling then Frac.le (codeFrac c) ((s.ctxCentre k t).add (s.halfBand k))
    else Frac.le ((s.ctxCentre k t).sub (s.halfBand k)) (codeFrac c)

/-- The wait ends and the next instruction follows. -/
def State.waitOver (k t : Nat) (s : State) : State := (s.setWait k .none).pcNext k t

/-- A time limit of `lim` µs from `t0` has come (0: none). -/
def limitDue (t0 lim t : Nat) : Bool := lim ≠ 0 && t0 + lim * 1000 ≤ t

/-- WCUR or WTRG has run out (R235, R236). -/
def State.waitTimeout (k t : Nat) (cont : Bool) (cause : Nat) (s : State) : State :=
  if cont then (s.setB (VDR_CTX_STAT.TO k) true).waitOver k t else s.strokeEnd k cause t

/-- The wait of context `k` at tick `t`: does it end, and the state after it. -/
def State.waitStep (k t : Nat) (s : State) : Bool × State :=
  match (s.ctx k).wait with
  | .none => (true, s)
  | .wait u => if u ≤ t then (true, s.waitOver k t) else (false, s)
  | .ramp t0 _ to0 d => if t0 + d * 10000 ≤ t then (true, (s.setTgt k to0).waitOver k t) else (false, s)
  | .wcur t0 lim falling cont =>
    if t0 + 1000 ≤ t && s.wcurReached k falling t then (true, s.waitOver k t)
    else if limitDue t0 lim t then (true, s.waitTimeout k t cont causeCUR_TO)
    else (false, s)
  | .wtrg t0 _ lim cont wake =>
    if wake.any (· ≤ t) then (true, s.waitOver k t)
    else if limitDue t0 lim t then (true, s.waitTimeout k t cont causeTRG_TO)
    else (false, s)
  | .chk t0 lim =>
    if s.getB VDR_STATUS.BST_RDY then (true, s.waitOver k t)
    else if t0 + lim * 1000 ≤ t then (true, s.strokeEnd k causeBOOST_NRDY t)
    else (false, s)
  | .sup t0 lim =>
    if s.getB VDR_STATUS.BST_RDY then (true, (s.setCtx k { s.ctx k with sup := 2 }).waitOver k t)
    else if t0 + lim * 1000 ≤ t then (true, s.strokeEnd k causeBOOST_NRDY t)
    else (false, s)

/-- Operand bits each opcode names (Table 11-1). -/
def strokeMask (op : Nat) : Nat :=
  match op with
  | 0x01 => 0xFFFF | 0x02 => 0x7F | 0x03 => 3 | 0x04 => 0x7FFFFFF | 0x05 => 0x3FFFF | 0x06 => 0x7FFFFFF | 0x07 => 0x7FFFFFF
  | 0x08 => 0x3FFFFF | 0x09 => 0x3FFFFF | 0x0A => 0x7FFFFFF | 0x0B => 0x3FFF | 0x0C => 0xFFFF | 0x0D => 7 | _ => 0

/-- An illegal instruction word (R232). -/
def strokeIllegal (op a : Nat) : Bool :=
  0x0D < op || a &&& strokeMask op ≠ a || (op = 0x01 && 8000 < a) || (op = 0x02 && 95 < a) || (op = 0x03 && a = 3)
    || (op = 0x07 && 8000 < a % 65536) || (op = 0x08 && (a / 65536 = 1 || 40 < a / 65536))

/-- CHK, or SUP with S = 2 (R240). -/
def State.boostStep (k t lim : Nat) (sup : Bool) (s : State) : State :=
  if s.getB VDR_STATUS.BST_RDY then (if sup then s.setCtx k { s.ctx k with sup := 2 } else s).pcNext k t
  else if lim = 0 then s.strokeEnd k causeBOOST_NRDY t
  else s.setWait k (if sup then .sup t lim else .chk t lim)

/-- The first kept edge of a trigger at or after `t0` ends a WTRG at this tick (R236). -/
def State.trigWake (s : State) (n t0 : Nat) : Option Nat :=
  ((tgetD s.stk.trig n []).find? fun e => t0 ≤ e).map fun e => e / 1000 * 1000 + 2000

/-- One legal instruction at tick `t` (Table 11-1). -/
def State.strokeExec (k t op a : Nat) (s : State) : State :=
  let c := s.ctx k
  match op with
  | 0x00 => s.strokeEnd k causeEND t
  | 0x01 => ((s.setTgt k a).setCtx k { c with follow := none }).pcNext k t
  | 0x02 => ((s.setTgt k (s.followTgt a t)).setCtx k { c with follow := some a }).pcNext k t
  | 0x03 =>
    if a = 0 then (s.setCtx k { c with sup := 0 }).pcNext k t
    else if a = 1 then
      if s.imgFld (VDR_BANK_CAP.BAT_OK (k / 4)) = 1 then (s.setCtx k { c with sup := 1 }).pcNext k t else s.strokeEnd k causeSUP_DENIED t
    else if s.imgFld (VDR_BANK_CAP.BST_OK (k / 4)) = 1 then s.boostStep k t (s.get (VDR_CTX_CFG.BST_WAIT k)) true
    else s.strokeEnd k causeSUP_DENIED t
  | 0x04 => if a = 0 then s.pcNext k t else s.setWait k (.wait (t + a * 1000))
  | 0x05 => s.setWait k (.wcur t (a % 65536) (bitAt a 16) (bitAt a 17))
  | 0x06 => s.setWait k (.wtrg t (a % 32) (a / 64) (bitAt a 5) (s.trigWake (a % 32) t))
  | 0x07 =>
    let s := s.setCtx k { c with follow := none }
    if a / 65536 = 0 then (s.setTgt k a).pcNext k t else s.setWait k (.ramp t (s.ctxTgt k) (a % 65536) (a / 65536))
  | 0x08 => (s.setCtx k { c with dithAmp := a % 65536, dithPer := a / 65536 }).pcNext k t
  | 0x09 => if bitAt (a / 2 ^ 14) (s.get (VDR_CTX_STAT.BAND k)) then s.set (VDR_CTX_STAT.PC k) a else s.pcNext k t
  | 0x0A =>
    let lc0 := s.get (VDR_CTX_RUN.LC k)
    let lc := (if lc0 = 0 then (if a / 2 ^ 14 = 0 then 8192 else a / 2 ^ 14) else lc0) - 1
    let s := s.set (VDR_CTX_RUN.LC k) lc
    if lc ≠ 0 then s.set (VDR_CTX_STAT.PC k) a else s.pcNext k t
  | 0x0B => s.set (VDR_CTX_STAT.PC k) a
  | 0x0C => s.boostStep k t a false
  | _ => (s.raiseAt (84 + a) t).pcNext k t

/-- The word context `k` executes next: a free word once it runs a word written while it ran (R248). -/
def State.strokeFetch (k : Nat) (s : State) : Nat × State :=
  let pc := s.get (VDR_CTX_STAT.PC k)
  let c := s.ctx k
  if c.undef || c.dirty.contains pc then (s.fresh 32, s.drawn.setCtx k { c with undef := true })
  else ((s.reg (VDR_STK_PROG pc)).toNat, s)

/-- One instruction at tick `t` (R229, R232). -/
def State.strokeInstr (k t : Nat) (s : State) : State :=
  let (w, s) := s.strokeFetch k
  let op := w / 2 ^ 27
  let a := w % 2 ^ 27
  if strokeIllegal op a then s.strokeEnd k causeILLEGAL t else s.strokeExec k t op a

/-- Context `k` at tick `t`: waits that end and up to 8 instructions (R229); `n` instructions have run. -/
def State.ctxLoop (k t : Nat) : Nat → Nat → State → State
  | 0, _, s => s
  | f + 1, n, s =>
    if !s.ctxRuns k then s
    else if (s.ctx k).wait = .none then (if n = 8 then s else (s.strokeInstr k t).ctxLoop k t f (n + 1))
    else
      match s.waitStep k t with
      | (true, s) => s.ctxLoop k t f n
      | (false, s) => s

/-- The target of a ramp or of a TCLE at tick `t` (R233). -/
def State.ctxFollow (k t : Nat) (s : State) : State :=
  match (s.ctx k).wait, (s.ctx k).follow with
  | .ramp t0 from0 to0 d, _ => s.setTgt k (rampAt t0 from0 to0 d t)
  | _, some x => s.setTgt k (s.followTgt x t)
  | _, none => s

/-- A context in RUN at tick `t`. -/
def State.ctxTick (k t : Nat) (s : State) : State := if s.ctxRuns k then (s.ctxFollow k t).ctxLoop k t 20 0 else s

/-! ### The start queue (R238, R241 to R246) -/

/-- QUEUED and DEFERRED of VDR_STK_STATUS follow the queue. -/
def State.stkCounts (s : State) : State :=
  (s.set VDR_STK_STATUS.QUEUED s.stk.reqs.length).set VDR_STK_STATUS.DEFERRED ((s.stk.reqs.filter fun r => r.2.deferred).length)

def State.setReqs (r : Tbl StartReq) (s : State) : State := { s with stk := { s.stk with reqs := r } }

/-- A request leaves the queue. -/
def State.dropReq (x : Nat) (s : State) : State := (s.setReqs (tdel s.stk.reqs x)).stkCounts

/-- WHY of VDR_STK_DROP. -/
def whyCTX_BUSY : Nat := 1
def whyDEFER_EXP : Nat := 2
def whyLATE : Nat := 3
def whyFAULTED : Nat := 4
def whySUPLOSS : Nat := 5
def whyNOT_STROKE : Nat := 6

/-- A request is dropped (R244). -/
def State.startDrop (x out why t : Nat) (s : State) : State :=
  let s := ((s.bump VDR_STK_CNT.DROP 1).set VDR_STK_DROP.OUT out).set VDR_STK_DROP.WHY why
  (s.raiseAt 81 t).dropReq x

/-- The latched band register BANDj. -/
def State.tband (s : State) (j : Nat) : Nat := bitsOf (s.reg VDR_STK_TBAND).toNat (4 * j) 3

/-- Request `x` starts its stroke at tick `t` (R238, R241, R244). -/
def State.startStroke (x : Nat) (r : StartReq) (t : Nat) (s : State) : State :=
  let k := r.out
  let h := s.handle 2 x
  let s := match s.ctxState k with
    | 1 =>
      let s := s.set (VDR_CTX_STAT.CAUSE k) causePREEMPT
      if s.getB (VDR_CTX_CFG.IRQ k) then s.raiseAt 76 t else s
    | 2 => s.ctxIdle k t
    | _ => s
  let s := match (s.vlo k).decay with
    | some t0 => (s.set (VDR_OUT_RELT.REL_US k) (satTo 65535 ((t - t0) / 1000))).set (VDR_OUT_RELT.EXT_US k) (s.vlo k).ext
    | none => s
  let s := (s.dropReq x).setCtx k {}
  let s := (((s.set (VDR_CTX_STAT.PC k) r.prog).set (VDR_CTX_STAT.WAITK k) 0).setB (VDR_CTX_STAT.TO k) false).set (VDR_CTX_STAT.BAND k) (s.tband (s.get (VDR_CTX_CFG.BSEL k)))
  let s := (s.set (VDR_CTX_STAT.STATE k) 1).setReg (VDR_CTX_RUN k) 0#32
  let s := (s.set64 (VDR_CTX_LTC_LO k) (VDR_CTX_LTC_HI k) t).setReg (VDR_CTX_REQ k) (BitVec.ofNat 32 h)
  s.activateOut k t

/-- Request `x` at tick `t`, at or after its due tick (R241, R243, R244). -/
def State.startAt (x t : Nat) (s : State) : State :=
  match tget s.stk.reqs x with
  | none => s
  | some r =>
    let k := r.out
    let b := k / 4
    let lim := s.get (VDR_STK_BANK.DEF_LIM b)
    if t < r.due || s.sys.entry.isSome then s
    else if r.lateDrop then s.startDrop x k whyLATE t
    else if !s.vlvReady then s.startDrop x k whySUPLOSS t
    else if s.get (VDR_OUT_CFG.MODE k) ≠ 3 then s.startDrop x k whyNOT_STROKE t
    else if s.outStopped k || s.bankStopped b then s.startDrop x k whyFAULTED t
    else if s.ctxRuns k && !r.preempt then s.startDrop x k whyCTX_BUSY t
    else if lim ≠ 0 && s.bankDecaying b then
      if t < r.due + lim * 10000 then
        if r.deferred then s else ((s.setReqs (tput s.stk.reqs x { r with deferred := true })).stkCounts).raiseAt 80 t
      else if s.getB (VDR_STK_BANK.DEF_ACT b) then s.startDrop x k whyDEFER_EXP t
      else s.startStroke x r t
    else s.startStroke x r t

/-- `l` comes before `m`, word by word. -/
def lexBefore : List Nat → List Nat → Bool
  | [], _ => false
  | _ :: _, [] => false
  | x :: l, y :: m => decide (x < y) || (decide (x = y) && lexBefore l m)

/-- A request's place in the order of R244: ring 0 before ring 1 where both were taken in one REF cycle (log entry 14). -/
def reqBefore (a b : Nat × StartReq) : Bool := lexBefore [a.2.due, a.2.at0, a.2.ring, a.2.seq] [b.2.due, b.2.at0, b.2.ring, b.2.seq]

/-- Insertion into an ordered list, and a list ordered by it. -/
def insertBy {α : Type} (before : α → α → Bool) (a : α) : List α → List α
  | [] => [a]
  | b :: l => if before a b then a :: b :: l else b :: insertBy before a l
def orderBy {α : Type} (before : α → α → Bool) (l : List α) : List α := l.foldl (fun acc a => insertBy before a acc) []

/-- Every request due or deferred at tick `t`, in the order of R244. -/
def State.startsTick (t : Nat) (s : State) : State :=
  ((orderBy reqBefore s.stk.reqs).filter fun r => r.2.due ≤ t).foldl (fun s r => s.startAt r.1 t) s

/-- START (R242, R243). The VLV edge of a tick follows its stamp by up to 20 ns (R211): a command stamped up to then is taken before it. -/
def opStart (c : Cmd) (s : State) : State :=
  let out := c.arg 16 1
  let prog := c.arg 18 2
  let T := c.arg 24 8
  let flags := c.e.flags.toNat
  let range := 63 < out || 16383 < prog || bitsOf flags 10 6 ≠ 0 || s.now + 60000000000 < T
  match tfree s.stk.reqs 256 with
  | none => c.failed 0x04 s
  | some x =>
    if range then c.failed 0x05 s
    else if s.get (VDR_OUT_CFG.MODE out) ≠ 3 then c.failed 0x21 s
    else
      let first := max (s.vdr.lastTick + 1000) (ceilDiv (s.now - 20) 1000 * 1000)
      let due0 := ceilDiv T 1000 * 1000
      let late := T ≠ 0 && (due0 ≤ s.vdr.lastTick || due0 + 20 < s.now)
      let due := if T = 0 then ceilDiv (s.now + 1980) 1000 * 1000 else if late then first else due0
      let s := s.advGen 2 x
      let r : StartReq := { out := out, prog := prog, due := due, lateDrop := late && c.flag 8, preempt := c.flag 9, at0 := s.now, ring := c.ring, seq := s.stk.nextSeq, deferred := false }
      let s := (s.setReqs (tput s.stk.reqs x r)).stkCounts
      let s := { s with stk := { s.stk with nextSeq := s.stk.nextSeq + 1 } }
      let s := if late then ((s.bump VDR_STK_CNT.LATE 1).detViol SYS_DET_STATUS.STK_LATE).raise 79 else s
      c.created (s.handle 2 x) s
def execStrokeStart (ring : Fin 2) (e : Entry) (s : State) : Out := .next (s.runRow 0x06 ring.val 1 0xFF00 e opStart)

/-- CANCEL (R245). -/
def opCancel (c : Cmd) (s : State) : State :=
  match s.checkHandle 2 (fun x => (tget s.stk.reqs x).isSome) c.handle with
  | some code => c.finish code s
  | none => c.finish 0x00 (s.dropReq (hIndex c.handle))
def execStrokeCancel (ring : Fin 2) (e : Entry) (s : State) : Out := .next (s.runRow 0x06 ring.val 2 0 e opCancel)

/-! ### Triggers (R236) -/

/-- An edge on trigger `n` stamped `st`. -/
def State.trigEdge (n st : Nat) (s : State) : State :=
  let l := tgetD s.stk.trig n []
  let close := match l.getLast? with
    | none => false
    | some e => decide (st < e + 2000)
  if close then (s.bump VDR_STK_TRIG.TRG_OVR 1).raise 82
  else
    let l := l ++ [st]
    let s := { s with stk := { s.stk with trig := tput s.stk.trig n (l.drop (l.length - 8)) } }
    (List.range 64).foldl (fun s k =>
      match (s.ctx k).wait with
      | .wtrg t0 m lim cont none => if m = n && t0 ≤ st then s.setWait k (.wtrg t0 m lim cont (some (st / 1000 * 1000 + 2000))) else s
      | _ => s) s

/-- A write of VDR_STK_TRIG: each bit of SOFT is an edge. -/
def State.writeStkTrig (value : Word) (s : State) : State :=
  (List.range 8).foldl (fun s n => if bitAt value.toNat n then s.trigEdge n s.now else s) s

/-- STROKE_TRIGGER_EDGE (R236): an edge on trigger 8 to 31. -/
def execStrokeTriggerEdge (n : Fin 32) (stamp : Nat) (s : State) : Out :=
  .next (if 8 ≤ n.val && s.loaded 2 then s.trigEdge n.val stamp else s)

/-- A program store word is written (R248): the strokes in RUN may meet it. -/
def State.writeProg (a : Nat) (value : Word) (s : State) : State :=
  let s := s.setReg (VDR_STK_PROG a) value
  (List.range 64).foldl (fun s k => if s.ctxRuns k then s.setCtx k { s.ctx k with dirty := a :: (s.ctx k).dirty } else s) s

/-- Every stroke in RUN ends and the queue empties without counts (R246). -/
def State.strokesStop (t : Nat) (s : State) : State :=
  let s := (List.range 64).foldl (fun s k => if s.ctxRuns k then s.strokeEnd k causeSTOPPED t else s) s
  (s.setReqs []).stkCounts

/-- Supply loss: strokes in RUN end (R222). -/
def State.strokesSupplyLoss (t : Nat) (s : State) : State :=
  (List.range 64).foldl (fun s k => if s.ctxRuns k then s.strokeEnd k causeSUPLOSS t else s) s

end Sys2Proof.Machine
end

