-- ==== Sys2Proof/Machine/Vdr.lean ====
section
/-! DEFINITION. VDR (chapter 10): the microsecond tick, regulation, banks, end decay and release, diagnostics, the boost
converter, writes and the consistency check. -/

namespace Sys2Proof.Machine

/-- An output still conducts or has not released. -/
def State.vdrConducting (s : State) : Bool := (List.range 64).any fun k => (s.vlo k).active || (s.vlo k).decay.isSome

/-- VDR's tick runs: VLV loaded, or outputs still releasing after it stopped (R98, R102). -/
def State.vdrTicks (s : State) : Bool := s.loaded 2 || s.busy 2 || s.vdrConducting

/-! ### Samples (R212) -/

/-- VLV cycles of the microsecond before tick `t` in which bank `b`'s high side, now open, was closed for a PWM period. -/
def State.pwmPart (s : State) (b t : Nat) : Nat :=
  match (s.bank b).pwmOff with
  | some e => if e ≤ t && t < e + 1000 then (e + 1000 - t) * 6 / 25 else 0
  | none => 0

/-- One output over the microsecond before tick `t`: the re-energised and closed counts (R219, R220) and the sample stamped
`t`. -/
def State.sampleOut (t k code : Nat) (s : State) : State :=
  let o := s.vlo k
  let part := s.pwmPart (k / 4) t
  let closed := s.hsNow (k / 4) ≠ 0 && o.active && !o.shed
  let ext := if closed && o.decay.isSome then satTo 65535 (o.ext + 1) else o.ext
  let l := o.samples ++ [(t, code)]
  let s := s.setVlo k { o with
    ext := ext, closedCyc := if closed then o.closedCyc + 240 else if o.active then o.closedCyc + part else o.closedCyc, seen := o.seen || decide (20 < code)
    samples := l.drop (l.length - 8), sq := o.sq + code * code }
  let s := if o.decay.isSome && closed then s.set (VDR_OUT_RELT.EXT_US k) ext else s
  (s.set (VDR_OUT_SENSE.CODE k) code).wrapInc (VDR_OUT_SENSE.SEQ k)

/-- The code of output `k` among the tick's samples; 0 where none is listed. -/
def codeOf (samples : List (Fin 64 × BitVec 12)) (k : Nat) : Nat :=
  ((samples.find? fun e => e.1.val = k).map fun e => e.2.toNat).getD 0

/-- All outputs, and the sums of the open RMS window. -/
def State.sampleAll (t : Nat) (samples : List (Fin 64 × BitVec 12)) (s : State) : State :=
  let s := (List.range 64).foldl (fun s k => s.sampleOut t k (codeOf samples k)) s
  let s := (List.range 16).foldl (fun s b =>
    let sum := ((bankOuts b).map (codeOf samples)).sum
    s.setBank b { s.bank b with sq := (s.bank b).sq + sum * sum }) s
  let tot := ((List.range 64).map (codeOf samples)).sum
  { s with vdr := { s.vdr with winN := s.vdr.winN + 1, modSq := s.vdr.modSq + tot * tot } }

/-! ### Release (R218, R219) -/

/-- The output releases at `t`. While STR stops the region, VDR's registers stay at reset. -/
def State.releaseOut (k t : Nat) (s : State) : State :=
  let o := s.vlo k
  if s.vdr.stop.isSome then s.openLow k
  else
  let us := satTo 65535 ((t - o.decay.getD t) / 1000)
  let s := (s.openLow k).set (VDR_OUT_RELT.REL_US k) us
  let s := s.set (VDR_OUT_RELT.EXT_US k) o.ext
  let s := if o.ext ≠ 0 then (s.outFlag k fltLATE_REL).raise 70 else s
  s.ctxRelease k t

/-- Fast release: the low side opens at `t` (R219), or STR opens it (R98). -/
def State.fastRelease (k t : Nat) (s : State) : State :=
  let s := s.modVlo k fun o => { o with active := false, shed := false, fast := some t }
  if s.vdr.stop.isSome then s else ((s.outFlag k fltFAST_REL).raise 71).ctxRelease k t

/-- The fast release of R219 is due: DEC_LIM after the decay began. STR's stop opens what conducts 50 ms after it began instead (R98). -/
def State.fastDue (s : State) (k t : Nat) : Bool :=
  match (s.vlo k).decay with
  | some t0 => (s.vlo k).fast.isNone && decide ((match s.vdr.stop with
    | some t1 => t1 + 50000000
    | none => t0 + s.get (VDR_BANK_CFG.DEC_LIM (k / 4)) * 10000) ≤ t)
  | none => false

/-- The releases of tick `t`. -/
def State.releases (t : Nat) (s : State) : State :=
  (List.range 64).foldl (fun s k =>
    let o := s.vlo k
    match o.decay, o.fast with
    | none, _ => s
    | some _, some f => if f + 100000 ≤ t then s.releaseOut k t else s
    | some _, none =>
      match (if t < 1000 then none else s.sampleAt k (t - 1000)) with
      | some c => if Frac.lt (codeFrac c) (maFrac (s.get (VDR_OUT_CFG.REL_MA k))) then s.releaseOut k t else if s.fastDue k t then s.fastRelease k t else s
      | none => if s.fastDue k t then s.fastRelease k t else s) s

/-! ### Regulation (R215 to R217) -/

/-- The target or duty in use (R217): clamped to 0 to 8 A, or 0 to 1. -/
def State.tgtInUse (s : State) (k : Nat) : F32 :=
  F.clamp (s.reg (VDR_OUT_TGT k)).toNat F.zero (if s.get (VDR_OUT_CFG.MODE k) = 2 then F.one else 0x41000000)

/-- The dither of an output at `t` (R217). -/
def State.outDither (s : State) (k t : Nat) : Frac :=
  (triangle (s.get (VDR_OUT_DITH.DITH_PER k) * 1000000) t).mul (Frac.ofF32 (s.reg (VDR_OUT_DITH_AMP k)).toNat)

/-- CLE values whose stamp + 100 ns has come are taken, the last one staying in use (R217). -/
def State.takeCle (k t : Nat) (s : State) : State :=
  let o := s.vlo k
  match latestAt o.cleQ 100 t with
  | none => s
  | some (_, u) =>
    let s := s.setVlo k { o with cleQ := o.cleQ.filter fun e => t < e.1 + 100 }
    if s.getB (VDR_OUT_CFG.SRC k) then s.setReg (VDR_OUT_TGT k) (BitVec.ofNat 32 u) else s

/-- The centre of an output's window at `t`: T + d. -/
def State.centre (s : State) (k t : Nat) : Frac :=
  if (s.vlo k).run = 3 then s.ctxCentre k t else (Frac.ofF32 (s.tgtInUse k)).add (s.outDither k t)

/-- The window's call (R216, R230). -/
def State.windowCall (s : State) (k t : Nat) (was : Bool) : Bool :=
  let x := codeFrac (s.senseAt k t)
  if Frac.lt x ((s.centre k t).sub (s.halfBand k)) then true
  else if Frac.le ((s.centre k t).add (s.halfBand k)) x then false
  else was

/-- The supply a CURRENT or PWM output requests (R213, R220): VBST only while BST_RDY is 1. -/
def State.wantSupply (k : Nat) (s : State) : Nat × State :=
  if s.get (VDR_OUT_CFG.SUP k) = 0 then (1, s)
  else if s.getB VDR_STATUS.BST_RDY then (2, s)
  else (1, s.outFlag k fltBST_SUB)

/-- VLV cycles of call in a PWM period of `per` µs (R216). -/
def pwmCycles (d : Frac) (per : Nat) : Nat :=
  let c := ((Frac.clamp d Frac.zero (Frac.ofNat 1)).mul (Frac.ofNat (per * 240))).floor.toNat
  if c < 240 then 0 else if per * 240 - 240 < c then per * 240 else c

/-- A PWM output at `t`: at a period start it takes PER and its duty. -/
def State.regPwm (k t : Nat) (s : State) : State :=
  let b := k / 4
  let s := if t % ((s.bank b).per * 1000) = 0 then
      let per := s.get (VDR_BANK_PWM.PER b)
      let s := s.setBank b { s.bank b with per := per }
      s.modVlo k fun o => { o with pwmStart := t, pwmOn := pwmCycles ((Frac.ofF32 (s.tgtInUse k)).add (s.outDither k t)) per }
    else s
  let (w, s) := s.wantSupply k
  s.modVlo k fun o => { o with call := decide ((t - o.pwmStart) * 240 < o.pwmOn * 1000), want := w }

/-- A shed begins (R215). -/
def State.shedTest (k t : Nat) (s : State) : State :=
  let b := k / 4
  let o := s.vlo k
  let lim := ((s.centre k t).add (s.halfBand k)).add (maFrac (s.get (VDR_BANK_CFG.SHED_MA b)))
  if o.active && o.decay.isNone && o.run ≠ 2 && !o.shed && s.get (VDR_BANK_STAT.HS b) ≠ 0 && Frac.lt lim (codeFrac (s.senseAt k t)) then
    ((s.modVlo k fun o => { o with shed := true }).bump (VDR_BANK_STAT.SHED_CNT b) 1).outFlag k fltSHED
  else s

/-- Output `k` at tick `t`: the CLE target first, so that it is in place before the mode changes (R223); then mode changes, activation, call. -/
def State.regulate (t : Nat) (s : State) (k : Nat) : State :=
  let s := s.takeCle k t
  let o := s.vlo k
  let mode := s.get (VDR_OUT_CFG.MODE k)
  let b := k / 4
  if mode = 0 && !o.active then s
  else if o.active && o.decay.isNone && o.run ≠ 3 && o.run ≠ mode && (mode = 0 || mode = 3) then s.beginEndDecay k t
  else
    let s := if o.active && o.decay.isNone && o.run ≠ 3 && o.run ≠ mode then s.modVlo k fun o => { o with run := mode, pwmOn := 0, call := false } else s
    let ready := s.enabled 0x06 && s.vlvReady && s.sys.entry.isNone && !s.outStopped k && !s.getB (VDR_BANK_STAT.BANK_OVL b)
    let idle := !o.active && o.decay.isNone
    let on := !F.isZero (s.tgtInUse k)
    if mode = 1 && o.active && o.decay.isNone && !on then s.beginEndDecay k t
    else
      let s := if idle && ready && ((mode = 1 && on) || mode = 2) then s.activateOut k t else s
      let o := s.vlo k
      if !o.active || o.decay.isSome then s
      else
        let s :=
          match o.run with
          | 1 =>
            let (w, s) := s.wantSupply k
            s.modVlo k fun o => { o with call := s.windowCall k t o.call, want := w }
          | 2 => s.regPwm k t
          | _ =>
            let c := s.ctx k
            let mute := c.sup = 0 || s.ctxTgt k = 0 || (match c.wait with | .sup .. => true | _ => false)
            s.modVlo k fun o => { o with call := !mute && s.windowCall k t o.call, want := if c.sup = 0 then o.want else c.sup }
        s.shedTest k t

/-- When the high side that a PWM output of the bank calls for opens again: c VLV cycles after the period start, none where it stays closed for
the whole period (R216). -/
def pwmOpening (per : Nat) (outs : List Vlo) : Option Nat :=
  match outs.find? fun o => o.active && decide (o.run = 2) && o.decay.isNone with
  | some o => if o.pwmOn < per * 240 then some (o.pwmStart + o.pwmOn * 25 / 6) else none
  | none => none

/-- The opening of bank `b`'s high side within its PWM period. -/
def State.setPwmOff (b : Nat) (e : Option Nat) (s : State) : State :=
  if (s.bank b).pwmOff = e then s else s.setBank b { s.bank b with pwmOff := e }

/-- The high side of bank `b` at tick `t` (R213, R214, R221), and the sheds that end (R215). -/
def State.bankTick (t : Nat) (s : State) (b : Nat) : State :=
  let s := if s.bankStopped b then (bankOuts b).foldl (fun s k => if (s.vlo k).call then s.modVlo k (fun o => { o with call := false }) else s) s else s
  let outs := (bankOuts b).map s.vlo
  let forced := !s.vlvReady || s.bankStopped b
  let calls := (outs.filter fun o => o.active && o.call && o.decay.isNone && !o.shed).map (·.want)
  let want := if forced then 0 else if calls.contains 2 then 2 else if calls.isEmpty then 0 else 1
  let pwm := (bankOuts b).any fun k => s.get (VDR_OUT_CFG.MODE k) = 2 || ((s.vlo k).active && (s.vlo k).run = 2)
  let free := pwm || forced || (match (s.bank b).changed with | none => true | some c => decide (c + 25000 ≤ t))
  let s := if want ≠ s.get (VDR_BANK_STAT.HS b) && free then s.setHs b want t else s
  let s := s.setPwmOff b (if want = 0 then none else pwmOpening (s.bank b).per outs)
  (bankOuts b).foldl (fun s k =>
    if (s.vlo k).shed && (s.get (VDR_BANK_STAT.HS b) = 0 || Frac.le (codeFrac (s.senseAt k t)) ((s.centre k t).add (s.halfBand k))) then
      s.modVlo k fun o => { o with shed := false, closedAt := t }
    else s) s

/-! ### Boost converter (R224, R60) -/

/-- BST_RDY at a tick: VBST within 5 % of TARGET; `v` in 10 mV. -/
def State.boostRdy (v : Nat) (s : State) : State :=
  let T := s.get VDR_BST_CFG.TARGET * 10
  let rdy := decide (19 * T ≤ 20 * v) && decide (20 * v ≤ 21 * T)
  let s := s.set VDR_BST_STAT.VBST v
  if rdy = s.getB VDR_STATUS.BST_RDY then s else (s.setB VDR_STATUS.BST_RDY rdy).raise 66

/-- The converter stops. -/
def State.vdrBoostOff (s : State) : State := s.setB VDR_STATUS.BST_ON false

/-- The converter stops and the energy capacitor discharges; a discharge under way goes on (R60). -/
def State.boostDischarge (s : State) : State := { s.vdrBoostOff with vdr := { s.vdr with discharge := s.vdr.discharge.started } }

/-- BOOST_CHARGE_START (R224): VBST, `vbst` in 10 mV, has fallen below TARGET − 1 %. -/
def execBoostChargeStart (vbst : BitVec 16) (s : State) : Out :=
  let go := s.loaded 2 && s.getB VDR_BST_CFG.EN && s.enabled 0x06 && s.getB SYS_SUPPLY.VLV_OK && s.sys.entry.isNone && !s.getB VDR_STATUS.BST_OVP
    && !s.getB VDR_STATUS.BST_ON && decide (vbst.toNat * 10 < s.get VDR_BST_CFG.TARGET * 99)
  .next (if go then { s.setB VDR_STATUS.BST_ON true with vdr := { s.vdr with discharge := .none } } else s)

/-- BOOST_CHARGE_STOP (R224): VBST has reached TARGET. -/
def execBoostChargeStop (vbst : BitVec 16) (s : State) : Out :=
  .next (if s.getB VDR_STATUS.BST_ON && decide (s.get VDR_BST_CFG.TARGET * 10 ≤ vbst.toNat) then s.vdrBoostOff else s)

/-- BST_OVP (R224): VBST is above TARGET + 10 % or 68.0 V. -/
def execBstOvp (vbst : BitVec 16) (s : State) : Out :=
  if s.loaded 2 && (decide (s.get VDR_BST_CFG.TARGET * 11 < vbst.toNat) || decide (6800 < vbst.toNat)) then
    let s := s.vdrBoostOff
    .next (if s.getB VDR_STATUS.BST_OVP then s else (s.setB VDR_STATUS.BST_OVP true).raise 67)
  else .next s

/-- BOOST_DISCHARGE_CHANGEOVER (R60): VBST_C falls below 30 V. -/
def execBoostDischargeChangeover (s : State) : Out :=
  .next (if s.vdr.discharge = .constant then { s with vdr := { s.vdr with discharge := .resistor } } else s)

/-! ### RMS windows (R220, R221) -/

/-- An output's overload: end decay, output stopped (R220). -/
def State.outOverload (t : Nat) (s : State) (k : Nat) : State :=
  let o := s.vlo k
  let s := if decide (2560000 * s.vdr.winN < o.sq) then
      let s := s.outFlag k fltOVL
      (if o.run = 3 && (o.active || o.decay.isSome) then s.ctxFault k t else s).beginEndDecay k t
    else s
  s.setVlo k { s.vlo k with sq := 0 }

/-- A bank's overload: its outputs enter end decay with the high side held open (R221). -/
def State.bankOverload (t : Nat) (s : State) (b : Nat) : State :=
  let k := s.bank b
  let s := if decide (16000000 * s.vdr.winN < k.sq) then
      let s := if s.getB (VDR_BANK_STAT.BANK_OVL b) then s else (s.setB (VDR_BANK_STAT.BANK_OVL b) true).raise 65
      let s := (bankOuts b).foldl (fun s k =>
        let o := s.vlo k
        (if o.run = 3 && (o.active || o.decay.isSome) then s.ctxFault k t else s).beginEndDecay k t) s
      s.setHs b 0 t
    else s
  s.setBank b { s.bank b with sq := 0 }

/-- The integer square root, by bits. -/
def isqrtGo (n : Nat) : Nat → Nat → Nat
  | 0, r => r
  | b + 1, r => if (r + 2 ^ b) * (r + 2 ^ b) ≤ n then isqrtGo n b (r + 2 ^ b) else isqrtGo n b r
def isqrt (n : Nat) : Nat := isqrtGo n 64 0

/-- The open window is judged at `t`, and the next one opens at `from0`. Currents in codes of 2.5 mA: 4.0 A is 1,600, 10.0 A 4,000, 60.0 A
24,000; IRMS counts 10 mA. -/
def State.rmsClose (t from0 : Nat) (s : State) : State :=
  let n := s.vdr.winN
  let s := (List.range 64).foldl (State.outOverload t) s
  let s := (List.range 16).foldl (State.bankOverload t) s
  let sq := s.vdr.modSq
  let s := s.set VDR_MOD_STAT.IRMS (satTo 65535 (isqrt (sq / n / 16)))
  let s := if decide (576000000 * n < sq) && !s.getB VDR_STATUS.MOD_OVL then (s.setB VDR_STATUS.MOD_OVL true).raise 69 else s
  { s with vdr := { s.vdr with winAt := from0, winN := 0, modSq := 0 } }

/-- The window that the sample stamped `t` lies past is judged before that sample counts. -/
def State.rmsTick (t : Nat) (s : State) : State :=
  if t ≤ s.vdr.winAt + 1000000000 then s
  else if s.vdr.winN = 0 then { s with vdr := { s.vdr with winAt := (t - 1000) / 1000000000 * 1000000000 } }
  else s.rmsClose t ((t - 1000) / 1000000000 * 1000000000)

/-- RMS_WINDOW_END (R220, R221): a 1 s window has ended, at an LTC multiple of 1 s, and its last sample has been taken. -/
def execRmsWindowEnd (s : State) : Out :=
  .next (if s.vdr.winN ≠ 0 && decide (s.vdr.winAt + 1000000000 ≤ s.vdr.lastTick) then
    s.rmsClose s.now (s.vdr.lastTick / 1000000000 * 1000000000) else s)

/-! ### The tick (R211) -/

/-- STR's stop is over once every output has released (R98). -/
def State.stopOver (s : State) : State :=
  if s.vdr.stop.isSome && !s.vdrConducting then { s with vdr := { s.vdr with stop := none } } else s

/-- What VDR does at tick `t`, with the samples stamped by it and VBST in 10 mV. -/
def State.tickAt (t : Nat) (samples : List (Fin 64 × BitVec 12)) (vbst : Nat) (s : State) : State :=
  let s := { s.rmsTick t with vdr := { (s.rmsTick t).vdr with lastTick := t } }
  let s := s.sampleAll t samples
  let s := (List.range 16).foldl (fun s b => s.settleBank b) s
  let s := (s.releases t).boostRdy vbst
  let s := s.startsTick t
  let s := (List.range 64).foldl (fun s k => s.ctxTick k t) s
  let s := (List.range 64).foldl (State.regulate t) s
  ((List.range 16).foldl (State.bankTick t) s).stopOver

/-- The tick of the present microsecond, once. -/
def State.vdrTick (samples : List (Fin 64 × BitVec 12)) (vbst : BitVec 16) (s : State) : State :=
  if !s.vdrTicks || s.tickNow ≤ s.vdr.lastTick then s else s.tickAt s.tickNow samples vbst.toNat

/-- VDR_TICK (R211). -/
def execVdrTick (samples : List (Fin 64 × BitVec 12)) (vbst : BitVec 16) (s : State) : Out := .next (s.vdrTick samples vbst)

/-! ### The rows that name what happens at a tick

Each is the tick of the present microsecond, where what it names is due at it: one tick does everything that is due, in the order of
chapters 10 and 11. -/

/-- FAST_REL (R219): output `k`'s end decay has reached DEC_LIM. -/
def execFastRel (k : AtTick 64) (s : State) : Out :=
  .next (if s.fastDue k.i.val s.tickNow then s.vdrTick k.samples k.vbst else s)

/-- The wait of context `k`, which runs, satisfies `due`. -/
def State.waits (s : State) (k : Nat) (due : StkWait → Bool) : Bool := s.ctxRuns k && due (s.ctx k).wait

/-- STROKE_WAIT_END (R231): a WAIT expires. -/
def execStrokeWaitEnd (k : AtTick 64) (s : State) : Out :=
  .next (if s.waits k.i.val (fun w => match w with | .wait u => decide (u ≤ s.tickNow) | _ => false) then s.vdrTick k.samples k.vbst else s)

/-- STROKE_RAMP_END (R233): a RAMP expires. -/
def execStrokeRampEnd (k : AtTick 64) (s : State) : Out :=
  .next (if s.waits k.i.val (fun w => match w with | .ramp t0 _ _ d => decide (t0 + d * 10000 ≤ s.tickNow) | _ => false) then s.vdrTick k.samples k.vbst else s)

/-- WCUR_TIMEOUT (R235). -/
def execWcurTimeout (k : AtTick 64) (s : State) : Out :=
  .next (if s.waits k.i.val (fun w => match w with | .wcur t0 lim .. => limitDue t0 lim s.tickNow | _ => false) then s.vdrTick k.samples k.vbst else s)

/-- WTRG_TIMEOUT (R236). -/
def execWtrgTimeout (k : AtTick 64) (s : State) : Out :=
  .next (if s.waits k.i.val (fun w => match w with | .wtrg t0 _ lim .. => limitDue t0 lim s.tickNow | _ => false) then s.vdrTick k.samples k.vbst else s)

/-- BOOST_NRDY (R240): a CHK or SUP VBST limit expires; BST_RDY is the one of this tick. -/
def execBoostNrdy (k : AtTick 64) (s : State) : Out :=
  .next (if s.waits k.i.val (fun w => match w with
    | .chk t0 lim => decide (t0 + lim * 1000 ≤ s.tickNow)
    | .sup t0 lim => decide (t0 + lim * 1000 ≤ s.tickNow)
    | _ => false) then s.vdrTick k.samples k.vbst else s)

/-- STROKE_START_DUE (R244): request `x` is due. -/
def execStrokeStartDue (x : AtTick 256) (s : State) : Out :=
  .next (match tget s.stk.reqs x.i.val with
    | some r => if r.due ≤ s.tickNow then s.vdrTick x.samples x.vbst else s
    | none => s)

/-- DEFER_EXPIRE (R241): a deferred request is at its limit. -/
def execDeferExpire (x : AtTick 256) (s : State) : Out :=
  .next (match tget s.stk.reqs x.i.val with
    | some r => if r.deferred && decide (r.due + s.get (VDR_STK_BANK.DEF_LIM (r.out / 4)) * 10000 ≤ s.tickNow) then s.vdrTick x.samples x.vbst else s
    | none => s)

/-! ### Diagnostics (R220, R221) -/

/-- A fault that opens the output's low side. Faults strike between ticks: a stroke that one ends is stamped with the LTC of the fault (log
entry 45). -/
def State.outFault (k bit : Nat) (s : State) : State :=
  let s := s.outFlag k bit
  let s := if (s.vlo k).active || (s.vlo k).decay.isSome then s.ctxFault k s.now else s
  s.openLow k

/-- OUTPUT_OVERCURRENT (R220): 9.0 A on an active output. SHORT within 5 µs of the low side or the high side closing. -/
def execOutputOvercurrent (k : Fin 64) (s : State) : Out :=
  let o := s.vlo k.val
  if o.active && !o.shed then
    let at0 := max o.closedAt (s.bank (k.val / 4)).closedAt
    .next (s.outFault k.val (if s.now ≤ at0 + 5000 then fltSHORT else fltOC))
  else .next s

/-- OUTPUT_STB (R220): VLO above 6.0 V for 100 µs on an inactive output, the bank's high side open. -/
def execOutputStb (k : Fin 64) (s : State) : Out :=
  if s.vdrTicks && !(s.vlo k.val).active && s.hsNow (k.val / 4) = 0 then .next (s.outFault k.val fltSTB) else .next s

/-- OUTPUT_OPEN (R220): 2 ms of closed high side without a sample above 50 mA. Reported only. -/
def execOutputOpen (k : Fin 64) (s : State) : Out :=
  let o := s.vlo k.val
  .next (if o.active && !o.seen && decide (480000 ≤ o.closedCyc) then (s.setVlo k.val { o with closedCyc := 0 }).outFlag k.val fltOPEN else s)

/-- A bank fault that opens the high side ends the stroke of output `k` with FAULT; the output of one in RUN is then not active (R228, R239;
log entry 120), one in end decay goes on decaying. -/
def State.bankFault (s : State) (k : Nat) : State :=
  match s.ctxState k with
  | 1 => (s.ctxFault k s.now).openLow k
  | 2 => s.ctxFault k s.now
  | _ => s

/-- BANK_OVERCURRENT (R221): 25 A in a high side: it opens, the bank makes no call, its strokes end. -/
def execBankOvercurrent (b : Fin 16) (s : State) : Out :=
  if s.hsNow b.val = 0 then .next s
  else
    let s := s.setHs b.val 0 s.now
    let s := if s.getB (VDR_BANK_STAT.BANK_SC b.val) then s else (s.setB (VDR_BANK_STAT.BANK_SC b.val) true).raise 65
    .next ((bankOuts b.val).foldl State.bankFault s)

/-! ### Supply loss (R54, R222) -/

/-- Some bank switch is closed. -/
def State.anyBankClosed (s : State) : Bool := (List.range 16).any fun b => s.get (VDR_BANK_STAT.HS b) ≠ 0

/-- VBAT_VLV has fallen below 8.0 V: every high side opens, every active output flags SUPLOSS (Table 10-2), those in CURRENT and PWM mode enter end
decay, strokes end. -/
def State.vdrSupplyLoss (s : State) : State :=
  let t := s.now
  let s := { s.boostDischarge with vdr := { s.vdr with recovery := none, discharge := s.vdr.discharge.started } }
  if !s.vdrTicks then s
  else
    let s := (List.range 16).foldl (fun s b => s.setHs b 0 t) s
    let s := (List.range 64).foldl (fun s k =>
      let o := s.vlo k
      let s := if o.active then s.outFlag k fltSUPLOSS else s
      if o.run = 1 || o.run = 2 then s.beginEndDecay k t else s) s
    let s := s.strokesSupplyLoss t
    if s.getB VDR_STATUS.SUPLOSS then s else (s.setB VDR_STATUS.SUPLOSS true).raise 68

/-- VBAT_VLV is back: the 10 ms count starts. -/
def State.vdrSupplyReturn (s : State) : State := { s with vdr := { s.vdr with recovery := some s.now } }

/-- VLV_SUPPLY_RECOVER (R222): VLV_OK has read 1 for 10 ms; outputs resume at the next tick. -/
def execVlvSupplyRecover (s : State) : Out :=
  match s.vdr.recovery with
  | some t => .next (if s.getB SYS_SUPPLY.VLV_OK && 10000000 ≤ s.since t then { s with vdr := { s.vdr with recovery := none } } else s)
  | none => .next s

/-! ### Writes (R217, R226) -/

/-- Output `k` of bank `b` breaks a condition of Table 10-3 under a configuration word. -/
def State.outConflict (s : State) (k : Nat) (w : Nat) : Bool :=
  let mode := bitsOf w 0 3
  let b := k / 4
  (mode ≠ 0 && !bitAt (s.imgFld (VDR_BANK_CAP.INSVC b)) (k % 4))
    || ((mode = 1 || mode = 2) && s.imgFld (if bitAt w 16 then VDR_BANK_CAP.BST_OK b else VDR_BANK_CAP.BAT_OK b) = 0)

/-- Modes of a bank, output `k`'s taken from `w`. -/
def State.bankModes (s : State) (k w : Nat) : List Nat :=
  (bankOuts (k / 4)).map fun j => if j = k then bitsOf w 0 3 else s.get (VDR_OUT_CFG.MODE j)

/-- A bank with a PWM output and another output not OFF. -/
def pwmShared (modes : List Nat) : Bool := modes.contains 2 && decide (1 < (modes.filter (· ≠ 0)).length)

/-- A write ignored under R226. -/
def State.wign (s : State) : State := s.bump VDR_STATUS.WIGN 1

/-- A write of VDR_OUT_CFG(k): fields out of range keep their values; a write that would break Table 10-3, or change the
mode under a running stroke, is ignored as a whole. -/
def State.writeOutCfg (k : Nat) (value : Word) (s : State) : State :=
  let v := value.toNat
  let old := (s.reg (VDR_OUT_CFG k)).toNat
  let relBad := bitsOf v 22 10 = 0 || 1000 < bitsOf v 22 10
  let modeBad := 3 < bitsOf v 0 3
  let w := putBits old 22 10 (if relBad then bitsOf old 22 10 else bitsOf v 22 10)
  let w := putBits (putBits w 16 1 (bitsOf v 16 1)) 8 1 (bitsOf v 8 1)
  let w := if modeBad then w else putBits w 0 3 (bitsOf v 0 3)
  let breaks := s.enabled 0x06 && (s.outConflict k w || pwmShared (s.bankModes k w) || (s.ctxRuns k && bitsOf w 0 3 ≠ bitsOf old 0 3))
  if breaks then s.wign
  else
    let s := s.setReg (VDR_OUT_CFG k) (BitVec.ofNat 32 w)
    if relBad || modeBad then s.wign else s

/-- A write of VDR_BST_CFG: a lowered TARGET, or EN = 0, stops the converter. -/
def State.writeBstCfg (value : Word) (s : State) : State :=
  let t := value.toNat % 1024
  let bad := t < 240 || 650 < t
  let old := s.get VDR_BST_CFG.TARGET
  let s := s.setB VDR_BST_CFG.EN (bitAt value.toNat 31)
  let s := if bad then s.wign else s.set VDR_BST_CFG.TARGET t
  if (!bad && t < old) || !bitAt value.toNat 31 then s.vdrBoostOff else s

/-- A write of VDR_BANK_CFG(b): DEC_LIM 0 and SHED_MA above 2,000 keep their values. -/
def State.writeBankCfg (b : Nat) (value : Word) (s : State) : State :=
  let d := bitsOf value.toNat 16 16
  let m := bitsOf value.toNat 0 16
  let s := if d = 0 then s else s.set (VDR_BANK_CFG.DEC_LIM b) d
  let s := if 2000 < m then s else s.set (VDR_BANK_CFG.SHED_MA b) m
  if d = 0 || 2000 < m then s.wign else s

/-- A binary32 write kept only where `ok`. -/
def State.writeF32 (a : Nat) (value : Word) (ok : Bool) (s : State) : State := if ok then s.setReg a value else s.wign

/-- A binary32 number that is finite and not negative. -/
def f32NonNeg (v : F32) : Bool := F.finite v && F.le F.zero v

/-- Writes to VDR that the access codes alone do not decide. -/
def State.vdrWrite (a : Nat) (value : Word) (s : State) : Option State :=
  let o := a - 0xC6000000
  let v := value.toNat
  if a = VDR_BST_CFG then some (s.writeBstCfg value)
  else if a = VDR_STK_TRIG then some (s.writeStkTrig value)
  else if 0x200 ≤ o && o < 0x300 && o % 16 = 0 then some (s.writeBankCfg ((o - 0x200) / 16) value)
  else if 0x200 ≤ o && o < 0x300 && o % 16 = 4 then
    some (if 50 ≤ v % 1024 && v % 1024 ≤ 1000 then s.set (VDR_BANK_PWM.PER ((o - 0x200) / 16)) v else s.wign)
  else if 0x1000 ≤ o && o < 0x1800 then
    let k := (o - 0x1000) / 32
    match o % 32 with
    | 0x00 => some (s.writeOutCfg k value)
    | 0x04 => some (if s.getB (VDR_OUT_CFG.SRC k) then (if f32NonNeg v then s else s.wign) else s.writeF32 a value (f32NonNeg v))
    | 0x08 => some (s.writeF32 a value (f32NonNeg v && F.le v 0x40000000))
    | 0x0C => some (if v % 64 = 1 || 40 < v % 64 then s.wign else s.set (VDR_OUT_DITH.DITH_PER k) v)
    | 0x10 => some (s.writeF32 a value (f32NonNeg v))
    | _ => none
  else if 0x100000 ≤ o && o < 0x110000 then some (s.writeProg ((o - 0x100000) / 4) value)
  else none

/-- A read of VDR_OUT_SENSE(k) latches VDR_OUT_RELT(k). -/
def State.readSense (core k : Nat) (s : State) : State :=
  (s.latchFor core (VDR_OUT_RELT k) (s.reg (VDR_OUT_RELT k))).answer core (s.reg (VDR_OUT_SENSE k))

/-- A read of VDR_CTX_STAT(k) latches RUN, LTC and REQ. -/
def State.readCtx (core k : Nat) (s : State) : State :=
  let s := (s.latchFor core (VDR_CTX_RUN k) (s.reg (VDR_CTX_RUN k))).latchFor core (VDR_CTX_LTC_LO k) (s.reg (VDR_CTX_LTC_LO k))
  let s := (s.latchFor core (VDR_CTX_LTC_HI k) (s.reg (VDR_CTX_LTC_HI k))).latchFor core (VDR_CTX_REQ k) (s.reg (VDR_CTX_REQ k))
  s.answer core (s.reg (VDR_CTX_STAT k))

/-! ### Enable and disable (R218, R225, R246) -/

/-- The tests of R225 and of the rings. -/
def State.vdrTests (s : State) : List CheckTest :=
  let outs : List CheckTest := (List.range 64).flatMap fun k =>
    let w := (s.reg (VDR_OUT_CFG k)).toNat
    [(s.outConflict k w, 0x08, 0x1000 + 32 * k)]
  let pwm : List CheckTest := (List.range 16).map fun b =>
    (pwmShared (s.bankModes (4 * b) (s.reg (VDR_OUT_CFG (4 * b))).toNat), 0x20, 0x1000 + 128 * b)
  let bst := s.getB VDR_BST_CFG.EN && (List.range 16).all fun b => s.imgFld (VDR_BANK_CAP.BST_OK b) = 0
  s.regionTests 2 0 ++ s.ringTests 0x06 ++ outs ++ pwm ++ [(bst, 0x08, 0x10)]

/-- Every active output enters end decay. -/
def State.vdrEndDecayAll (s : State) : State :=
  (List.range 64).foldl (fun s k => s.beginEndDecay k s.now) s

/-- ENABLE 1 → 0 (R218, R224, R246). -/
def State.vdrDisable (s : State) : State :=
  (((s.setB VDR_CTRL.ENABLE false).strokesStop s.now).vdrEndDecayAll).vdrBoostOff

/-- VDR_DISABLE (R246). -/
def execVdrDisable (s : State) : Out := .next (if s.getB VDR_CTRL.ENABLE then s.vdrDisable else s)

end Sys2Proof.Machine
end

