-- ==== Sys2Proof/Machine/Resets.lean ====
section
/-! DEFINITION. What each kind of reset leaves (R70 to R74, R82, R98, Table 3-4): of one block, of a region's blocks, of the whole
module outside the keep-alive domain, and what PARK switches off. -/

namespace Sys2Proof.Machine

/-! ### One block -/

/-- The PDET bit of PNL_STAT shows the pin. -/
def State.pdetShow (s : State) : State := s.setB PNL_STAT.PDET s.pnl.pdet

/-- VDR's outputs, contexts and queue at reset. The tick, the discharge of the capacitor, the count of R222 and VBST go on; the RMS windows
keep their grid. -/
def State.vdrWiped (vbst : Nat) (s : State) : State :=
  { s with vdr := { lastTick := s.vdr.lastTick, winAt := s.vdr.winAt, discharge := s.vdr.discharge, recovery := s.vdr.recovery }, stk := {} }.set VDR_BST_STAT.VBST vbst

/-- ARB at reset: every requester is destroyed and every grant ends as a revocation. The requests of the blocks behind stay raised;
the host's, which ARB_HREQ held, does not. -/
def State.arbWiped (job : Bool) (owner : Option Nat) (s : State) : State :=
  let since := tdel s.arb.since 23
  let s := { s with arb := { since := since } }
  let s := since.foldl (fun (s : State) e => s.setB (ARB_REQ.PEND e.1) true) s
  let s := if job then s.fenRevoked else s
  match owner with
  | some 20 => s.recRevoked
  | some 21 => s.yldRevoked
  | _ => s

/-- INP's state at reset: the levels at its pulse pins stay as they are, and YLD keeps the windows it has been given (R99). -/
def State.inpWiped (s : State) : InpState :=
  { pins := tmap s.inp.pins fun _ p => { level := p.level }, flowQ := s.inp.flowQ, lacQ := s.inp.lacQ, pubs := s.inp.pubs }

/-- The block's registers, sources, rings, memory and objects at reset (R74). GEN counters, the result registers of its check and a check
that waits are kept (R107). UPD's nonce (Reset column: Random) keeps its value (log entry 108). -/
def State.blockWiped (b : Nat) (s : State) : State :=
  let vbst := s.get VDR_BST_STAT.VBST
  let job := s.arbGranted 0
  let owner := if s.arbGranted 1 then some (s.arbOwner 1) else none
  let joined := s.pairJoined
  let mac := (s.reg ETH_MAC_LO, s.reg ETH_MAC_HI)
  let s := match b with
    | 0x0A => (s.fen.streams.map fun (x : Nat × FenStream) => x.2.req).foldl (fun (s : State) i => s.arbRelease i) s
    | 0x0D => s.arbRelease 21
    | 0x12 => s.arbRelease 20
    | 0x13 => s.arbRelease 22
    | _ => s
  let keep := [UPD_DEVID_LO, UPD_DEVID_HI, UPD_DEVINFO, UPD_SLOT_LBA_LO 0, UPD_SLOT_LBA_HI 0, UPD_SLOT_LBA_LO 1, UPD_SLOT_LBA_HI 1, UPD_SLOT_BLKS,
    UPD_NONCE 0, UPD_NONCE 1, UPD_NONCE 2, UPD_NONCE 3].map fun a => (a, s.reg a)
  let s := s.wipeBlock b
  match b with
  | 0x04 => { s with inp := s.inpWiped }
  | 0x05 => { s with cle := { hist := s.cle.hist } }
  | 0x06 => s.vdrWiped vbst
  | 0x07 => { s with saf := { pins := s.saf.pins } }
  | 0x08 => { s with gnb := {} }
  | 0x09 => { s with cam := { nextFrame := s.cam.nextFrame } }
  | 0x0A => { s with fen := {} }
  | 0x0B => s.arbWiped job owner
  | 0x0C => { s with fus := { imuAt := s.fus.imuAt } }
  | 0x0D => { s with yld := {} }
  | 0x0E => { s with bus := {} }
  | 0x0F => ({ s with eth := {} }.setReg ETH_MAC_LO mac.1).setReg ETH_MAC_HI mac.2
  | 0x10 => { s with pair := { lost := joined || s.pair.lost } }
  | 0x11 => { s with pnl := { pdet := s.pnl.pdet, pdetAt := s.pnl.pdetAt } }.pdetShow
  | 0x12 => { s with rcd := {} }
  | 0x13 => keep.foldl (fun (s : State) e => s.setReg e.1 e.2) { s with upd := { vbus := s.upd.vbus } }
  | _ => s

/-- A block reset (R74): outputs of VDR open at once. -/
def State.blockReset (b : Nat) (s : State) : State := s.blockWiped b

/-- A region reset (R98): the region's blocks. Active valve outputs first end in slow decay, which goes on, stopped by STR, while the
registers are at reset. -/
def State.regionReset (r : Nat) (s : State) : State :=
  if r = 2 then
    let outs := (s.vdrEndDecayAll).vdr.outs
    let s := (blocksOf 2).foldl (fun (s : State) b => s.blockWiped b) s
    { s with vdr := { s.vdr with outs := outs, stop := some s.now } }
  else (blocksOf r).foldl (fun (s : State) b => s.blockWiped b) s

/-- The registers of a region's blocks at reset, as its load leaves them (R101). -/
def State.regionRegs (r : Nat) (s : State) : State :=
  let vbst := s.get VDR_BST_STAT.VBST
  let mac := (s.reg ETH_MAC_LO, s.reg ETH_MAC_HI)
  let s := { s with regs := (blocksOf r).foldl (fun t b => dropWindow b t) s.regs }
  match r with
  | 2 => s.set VDR_BST_STAT.VBST vbst
  | 7 => (s.setReg ETH_MAC_LO mac.1).setReg ETH_MAC_HI mac.2
  | 8 => s.pdetShow
  | _ => s

/-! ### The whole module -/

/-- Register bits that a power-on reset or module reset leaves: what pins and sensors show, what the keep-alive domain holds, and what
the factory set. -/
def keptRegs : List (Nat × Nat) :=
  [(SYS_SUPPLY, 0x1F00FFFF), (SYS_TEMP, 0x0FFF0FFF), (SYS_RST_CAUSE, 0xFFFFFFFF), (KA_OPSEC, 0xFFFFFFFF), (KA_PWRCYC, 0xFFFFFFFF),
   (KA_FLAGS, 0xFFFFFFFF), (VDR_BST_STAT, 0xFFFF), (ETH_MAC_LO, 0xFFFFFFFF), (ETH_MAC_HI, 0xFFFFFFFF), (PNL_STAT, 0x10000000),
   (UPD_DEVID_LO, 0xFFFFFFFF), (UPD_DEVID_HI, 0xFFFFFFFF), (UPD_DEVINFO, 0xFFFFFFFF), (UPD_SLOT_LBA_LO 0, 0xFFFFFFFF),
   (UPD_SLOT_LBA_HI 0, 0xFFFFFFFF), (UPD_SLOT_LBA_LO 1, 0xFFFFFFFF), (UPD_SLOT_LBA_HI 1, 0xFFFFFFFF), (UPD_SLOT_BLKS, 0xFFFFFFFF)]

/-- A register at reset but for the bits of `m`. -/
def State.keptReg (s : State) (a m : Nat) : Word :=
  let k := BitVec.ofNat 32 m
  (s.reg a &&& k) ||| (resetOf a &&& ~~~k)

/-- Assertion of a power-on reset or module reset (Table 3-4): everything but the keep-alive domain, the storage, what pins show and the
factory's settings returns to reset, and the energy capacitor discharges (R60). -/
def State.wipeModule (s : State) : State :=
  { State.reset with
    part := s.part
    regs := keptRegs.foldl (fun t e => regsPut t e.1 (s.keptReg e.1 e.2)) []
    mram := s.mram
    ufs := s.ufs
    free := s.free
    ka := s.ka
    nv := s.nv
    vdr := { discharge := s.vdr.discharge.started, recovery := s.vdr.recovery }
    inp := { pins := s.inpWiped.pins }
    saf := { pins := s.saf.pins }
    pnl := { pdet := s.pnl.pdet, pdetAt := 0 }
    upd := { vbus := s.upd.vbus }
    pending := s.pending }

/-- SYS's copy of the keep-alive registers follows the domain (R526). -/
def State.reloadKaCopy (s : State) : State :=
  ((({ s with ka := { s.ka with writePend := false } }.setReg KA_OPSEC (BitVec.ofNat 32 s.ka.opsec)).setReg KA_PWRCYC (BitVec.ofNat 32 s.ka.pwrcyc))).setReg
    KA_FLAGS (BitVec.ofNat 32 s.ka.flags)

/-! ### PARK -/

/-- What entry to PARK switches off (Table 3-4, last column): every block but SYS, EVT, STR and TMS, and every region. DRAM, LTC, MT
and the GEN counters stay. -/
def State.parkOff (s : State) : State :=
  let blocks := (List.range 0x10).map (4 + ·)
  let s := blocks.foldl (fun (s : State) b => s.blockWiped b) s
  let s := { s with arb := {}, cle := {}, fus := {}, pair := {}, inp := { pins := s.inp.pins, pubs := s.inp.pubs } }.wipeBlock 0x0B
  let s := (s.str.checks ++ s.str.held).foldl (fun (s : State) b => s.setB (STR_CHK_RES.RUN b) false) s
  let s := (List.range 10).foldl (fun (s : State) r => s.unloadRegion r) s
  let s := { s with str := { s.str with boot := [], booting := false, reload := none, checks := [], held := [] } }
  let s := (s.setB STR_RLD_STAT.BUSY false).set STR_RLD_STAT.PHASE 0
  s.boostDischarge

/-- The boost stops and its capacitor discharges (R60, R76). -/
def State.vdrBoostStop (s : State) : State := s.boostDischarge

end Sys2Proof.Machine
end

