-- ==== Sys2Proof/Machine/Str.lean ====
section
/-! DEFINITION. STR (chapter 4): loading at start, reloading one region, configuration scrubbing and the order of
consistency checks. -/

namespace Sys2Proof.Machine

/-! ### Loading at start (R93, R94) -/

/-- A failure at start: the reason, and source 20 (R94, Table 4-11). -/
def State.bootFail (region : Option Nat) (reason : Nat) (s : State) : State :=
  let s := match region with
    | some r => s.set STR_RLD_STAT.REGION r
    | none => s
  (s.set STR_RLD_STAT.REASON reason).raise 20

/-- The last load at start has ended: BOOT_DONE and source 21 (R93). -/
def State.bootDone (s : State) : State :=
  let s := { s with str := { s.str with booting := false, boot := [] } }
  (s.setB STR_STATUS.BOOT_DONE true).raise 21

/-- The first failing header check of R94: the checks in the order that rule lists them. -/
def State.bootHeaderFail (s : State) (src : ImgSrc) (readErr : Bool) : Option Nat :=
  if readErr then some 0x0228
  else if !s.hdrFormatOk src then some 0x020E
  else if !s.hdrDigestOk src then some 0x0224
  else if !s.hdrPartOk src then some 0x0223
  else none

/-- The start of phase 8 over the regions of `want` (R93): the header is checked; every region absent from REGION_MASK, or
every region if the header fails, loses BUSY; the others are to load in order. -/
def State.bootStart (want : Nat) (readErr : Bool) (s : State) : State :=
  let src := ImgSrc.slot s.nv.active
  match s.bootHeaderFail src readErr with
  | some c => ((s.set STR_STATUS.BUSY 0).bootFail none c).bootDone
  | none =>
    let todo := (List.range 9).filter fun r => bitAt want r && bitAt (s.hdrMask src) r
    let s := s.set STR_STATUS.BUSY (todo.foldl (fun m r => m + 2 ^ r) 0)
    let s := { s with str := { s.str with booting := true, boot := todo } }
    if todo.isEmpty then s.bootDone else s

/-- START_REGION_LOAD_END (R93, R94): the load of the next region in order ends. `readErr`: its section could not be read
from UFS; `caps`: what the section configures. A region that loads has its registers at reset (R68). No load under way: no effect. -/
def execStartRegionLoadEnd (readErr : Bool) (caps : List (Nat × Word)) (s : State) : Out :=
  match s.str.boot with
  | [] => .next s
  | r :: rest =>
    let src := ImgSrc.slot s.nv.active
    let d := Config.sha384 (s.sectionBytes src r)
    let s :=
      if readErr then (s.setBusy r false).bootFail (some r) 0x0228
      else if d = s.hdrDigest src r then ((s.regionRegs r).connectRegion src r d caps).clearUpdPend r
      else (s.setBusy r false).bootFail (some r) 0x0224
    let s := { s with str := { s.str with boot := rest } }
    .next (if rest.isEmpty then s.bootDone else s)

/-! ### Reloading one region (R95 to R98) -/

/-- The lowest reason of Table 4-5 that applies to a request, 0 if none. Where the header cannot be read, the checks on its
content do not apply; the table entry of a region that REGION_MASK leaves out is not read (R89). -/
def State.reloadReason (s : State) (q : Reload) (running readErr : Bool) : Nat :=
  let src := if q.src then ImgSrc.dram (s.get64 STR_RLD_ADDR_LO STR_RLD_ADDR_HI) else ImgSrc.slot s.nv.active
  let addr := s.get64 STR_RLD_ADDR_LO STR_RLD_ADDR_HI
  let len := 4096 * s.get STR_RLD_LEN.LEN
  let hdr := !(readErr && !q.src)
  let blks := blocksOf q.region
  if 9 < q.region || (q.src && s.get STR_RLD_LEN.LEN = 0) then 0x0205
  else if q.src && !s.openLifeCycle then 0x020B
  else if hdr && !s.hdrFormatOk src then 0x020E
  else if !s.getB STR_STATUS.BOOT_DONE || running || (s.sys.blkRst.any fun b => blks.contains b) then 0x020F
  else if !q.force && blks.any s.enabled then 0x0220
  else if q.region = 9 then 0x0221
  else if hdr && s.otherLoaded q.region && s.hdrIface src ≠ s.get64 STR_IFACE_LO STR_IFACE_HI then 0x0222
  else if hdr && !s.hdrPartOk src then 0x0223
  else if hdr && !s.hdrDigestOk src then 0x0224
  else if q.src && (dramSize < addr + len || (bitAt (s.hdrMask src) q.region && len < s.hdrRegion src q.region 4 4 + sectionLen q.region)) then 0x0225
  else if q.region = 7 && !q.force && s.get PAIR_STAT.STATE = 2 then 0x0226
  else if hdr && !bitAt (s.hdrMask src) q.region then 0x0227
  else if !hdr then 0x0228
  else 0

/-- A request refused, or a reload failed: REASON and source 20. -/
def State.reloadFail (reason : Nat) (s : State) : State := (s.set STR_RLD_STAT.REASON reason).raise 20

/-- The reload ends: BUSY and PHASE of STR_RLD_STAT return to 0. -/
def State.reloadOver (s : State) : State :=
  ({ s with str := { s.str with reload := none } }.setB STR_RLD_STAT.BUSY false).set STR_RLD_STAT.PHASE 0

/-- A write of STR_RLD_CTRL (R95): the RW fields, and with START = 1 a request. While a reload runs the request is refused
at once; otherwise its check starts. A request that is refused writes REASON alone (R95). -/
def State.writeRldCtrl (value : Word) (s : State) : State :=
  let v := value.toNat
  let s := ((s.set STR_RLD_CTRL.FORCE (bitsOf v 8 1)).set STR_RLD_CTRL.SRC (bitsOf v 4 1)).set STR_RLD_CTRL.REGION (bitsOf v 0 4)
  if !bitAt v 31 then s
  else
    let q : Reload := { region := bitsOf v 0 4, src := bitAt v 4, force := bitAt v 8, digest := 0, stopAt := s.now }
    if s.str.reload.isSome then s.reloadFail (s.reloadReason q true false)
    else
      let s := { s with str := { s.str with reload := some q } }
      (s.setB STR_RLD_STAT.BUSY true).set STR_RLD_STAT.PHASE 1

/-- The blocks whose enabled state makes a reload of a region a violation (Table 4-8). -/
def reconfBlocks (r : Nat) : List Nat :=
  match r with
  | 0 => [0x05, 0x0D]
  | 1 => [0x05, 0x06]
  | 2 => [0x05, 0x06]
  | 3 => [0x0C]
  | 4 => [0x0C]
  | 5 => [0x0C, 0x0D]
  | 6 => [0x0D]
  | 7 => [0x05, 0x0C]
  | _ => []

/-- The RECONF rule (R100). -/
def State.reconf (r : Nat) (s : State) : State :=
  if (reconfBlocks r).any s.enabled then (s.bump STR_RECONF_CNT.COUNT 1).detViol SYS_DET_STATUS.RECONF else s

/-- RELOAD_CHECK_END (R96): refused with the lowest reason of Table 4-5, or accepted: BUSY set, LOADED cleared, source 18,
the RECONF rule, and the effects of a region reset (R98). -/
def execReloadCheckEnd (readErr : Bool) (s : State) : Out :=
  match s.str.reload with
  | none => .next s
  | some q =>
    if s.get STR_RLD_STAT.PHASE ≠ 1 then .next s
    else
      match s.reloadReason q false readErr with
      | 0 =>
        let s := (((s.set STR_RLD_STAT.REGION q.region).setBusy q.region true).setLoaded q.region false).raise 18
        let s := (s.reconf q.region).set STR_RLD_STAT.PHASE 2
        let s := { s with str := { s.str with reload := some { q with stopAt := s.now } } }
        .next (s.regionReset q.region)
      | c => .next (s.reloadOver.reloadFail c)

/-- RELOAD_STOP_END (R98): the stop phase ends: 20 µs after its start, and for VLV once every output has released; VDR's ticks open what still
conducts 50 ms after the start. -/
def execReloadStopEnd (s : State) : Out :=
  match s.str.reload with
  | none => .next s
  | some q =>
    if s.get STR_RLD_STAT.PHASE ≠ 2 || s.since q.stopAt < 20000 || (q.region = 2 && s.vdrConducting) then .next s
    else .next (s.set STR_RLD_STAT.PHASE 3)

/-- RELOAD_LOAD_END (R97): the section is written and its digest computed, or a UFS read fails and the region ends
unloaded. STR_RLD_ADDR, the header and the section are read as they stand now (log entry 109). -/
def execReloadLoadEnd (readErr : Bool) (s : State) : Out :=
  match s.str.reload with
  | none => .next s
  | some q =>
    if s.get STR_RLD_STAT.PHASE ≠ 3 then .next s
    else if readErr && !q.src then .next (((s.unloadRegion q.region).reloadOver).reloadFail 0x0228)
    else
      let src := if q.src then ImgSrc.dram (s.get64 STR_RLD_ADDR_LO STR_RLD_ADDR_HI) else ImgSrc.slot s.nv.active
      let s := { s with str := { s.str with reload := some { q with digest := Config.sha384 (s.sectionBytes src q.region) } } }
      .next (s.set STR_RLD_STAT.PHASE 4)

/-- RELOAD_BIND (R96, R97): the digest is compared; the region is connected, or ends unloaded with HASH.
The header is read as it stands now (log entry 109). -/
def execReloadBind (caps : List (Nat × Word)) (s : State) : Out :=
  match s.str.reload with
  | none => .next s
  | some q =>
    if s.get STR_RLD_STAT.PHASE ≠ 4 then .next s
    else
      let src := if q.src then ImgSrc.dram (s.get64 STR_RLD_ADDR_LO STR_RLD_ADDR_HI) else ImgSrc.slot s.nv.active
      if q.digest = s.hdrDigest src q.region then
        let s := ((s.regionRegs q.region).connectRegion src q.region q.digest caps).reloadOver
        let s := if q.src then s else s.clearUpdPend q.region
        .next ((s.set STR_RLD_STAT.REASON 0x0200).raise 19)
      else .next (((s.unloadRegion q.region).reloadOver).reloadFail 0x0224)

/-! ### Configuration scrubbing (R102) -/

/-- CFG_CORR (R102): a corrected upset. -/
def execCfgCorr (s : State) : Out := .next ((s.bump STR_SCRUB_CNT.CORR 1).raise 22)

/-- CFG_UNCORR (R102): an uncorrectable upset in a loaded region 0 to 8. Every block of the region is reset, enabled or not (log entry
111). -/
def execCfgUncorr (region : Fin 9) (s : State) : Out :=
  let r := region.val
  if s.loaded r then
    let s := s.reconf r
    let s := (s.regionReset r).unloadRegion r
    .next ((s.setB ⟨STR_SCRUB_UE, r, 1⟩ true).raise 23)
  else .next s

end Sys2Proof.Machine
end

