-- ==== Sys2Proof/Machine/Sys.lean ====
section
/-! DEFINITION. SYS and the keep-alive domain (chapters 2 and 3): supplies, thermal limits, start-up phases, resets, the
watchdog, power states and retention. -/

namespace Sys2Proof.Machine

/-! ### Supplies (R50 to R57) -/

/-- A W1C bit of SYS_SUPPLY goes from 0 to 1 and source 6 is raised; a bit already set raises nothing (R57). -/
def State.supplyFlag (f : Fld) (s : State) : State := if s.getB f then s else (s.setB f true).raise 6

/-- VSUP_UNDERVOLTAGE (R50): VSUP, now `mv`, has fallen below 9.0 V. -/
def execVsupUndervoltage (mv : Nat) (s : State) : Out :=
  .next ((((s.set SYS_SUPPLY.VSUP_MV mv).setB SYS_SUPPLY.UV true).supplyFlag SYS_SUPPLY.UV_WARN).safSupplyWarn true)

/-- VSUP_UV_CLEAR (R50): VSUP has risen above 9.3 V. -/
def execVsupUvClear (mv : Nat) (s : State) : Out :=
  .next (((s.set SYS_SUPPLY.VSUP_MV mv).setB SYS_SUPPLY.UV false).safSupplyWarn false)

/-- VSUP_OVERVOLTAGE (R50): VSUP has risen above 36.0 V. -/
def execVsupOvervoltage (mv : Nat) (s : State) : Out :=
  .next (((s.set SYS_SUPPLY.VSUP_MV mv).setB SYS_SUPPLY.OV true).supplyFlag SYS_SUPPLY.OV_WARN)

/-- VSUP_OV_CLEAR (R50): VSUP has fallen below 35.5 V. -/
def execVsupOvClear (mv : Nat) (s : State) : Out :=
  .next ((s.set SYS_SUPPLY.VSUP_MV mv).setB SYS_SUPPLY.OV false)

/-- VLV_SUPPLY_LOSS (R54): VBAT_VLV has fallen below 8.0 V. -/
def execVlvSupplyLoss (s : State) : Out :=
  let closed := s.anyBankClosed
  let s := s.setB SYS_SUPPLY.VLV_OK false
  let s := if closed then s.supplyFlag SYS_SUPPLY.VLV_LOSS else s
  .next s.vdrSupplyLoss

/-- VLV_SUPPLY_RETURN (R54): VBAT_VLV has risen to 8.0 V or above. -/
def execVlvSupplyReturn (s : State) : Out :=
  .next ((s.setB SYS_SUPPLY.VLV_OK true).vdrSupplyReturn)

/-! ### Temperatures (R62, R63) -/

/-- THERMAL_UPDATE (R62, R63): TJ and TBP in units of 0.125 °C; 110 °C is 880, 115 °C 920, 120 °C 960, 130 °C 1,040. -/
def execThermalUpdate (tj tbp : BitVec 12) (s : State) : Out :=
  let t := tj.toInt
  let s := (s.set SYS_TEMP.TJ tj.toNat).set SYS_TEMP.TBP tbp.toNat
  let s := if 880 ≤ t && !s.getB SYS_TEMP.WARN then (s.setB SYS_TEMP.WARN true).raise 8 else s
  let s :=
    if 960 ≤ t && !s.getB SYS_TEMP.THROTTLE then (s.setB SYS_TEMP.THROTTLE true).raise 8
    else if t < 920 && s.getB SYS_TEMP.THROTTLE then (s.setB SYS_TEMP.THROTTLE false).raise 8
    else s
  .next (s.safTherm (decide (1040 ≤ t)))

/-! ### Resets (R66 to R72) -/

/-- POWER_ON_RESET (R50, R82): VSUP below 5.8 V for 20 µs, or first applied. Everything but the keep-alive domain, the
storage and what the pins show returns to reset, and the energy capacitor discharges (R60). A keep-alive loss whose cold start has not
recorded its causes yet keeps its record; a STANDBY exit so cut short is recorded as this reset alone (log entry 107). -/
def execPowerOnReset (s : State) : Out :=
  let due := s.sys.mode = .por || s.sys.mode = .osc || (s.sys.mode = .resetHeld && s.sys.owePhase2)
  let cold := if due && s.sys.cold = .kaLoss then .kaLoss else .por
  let s := s.wipeModule.reloadKaCopy
  .next { s with sys := { mode := .por, cold := cold } }

/-- RESET_HOLD_END (R66): phase 1 ends and the power-on reset is released. -/
def execResetHoldEnd (s : State) : Out :=
  .next (if s.sys.mode = .por then { s with sys := { s.sys with mode := .osc } } else s)

/-- Cause bits and LAST of SYS_RST_CAUSE for a cold start (R72). -/
def State.recordCold (s : State) : State :=
  match s.sys.cold with
  | .kaLoss => ((s.setReg SYS_RST_CAUSE 0#32).setB SYS_RST_CAUSE.KA_LOSS true).setB SYS_RST_CAUSE.POR true |>.set SYS_RST_CAUSE.LAST 2
  | .por => (s.setB SYS_RST_CAUSE.POR true).set SYS_RST_CAUSE.LAST 2
  | .standby => (s.setB SYS_RST_CAUSE.STBY_EXIT true).set SYS_RST_CAUSE.LAST 3

/-- Cause bits and LAST for a module reset, or a PARK exit that performs one (R72). -/
def State.recordModule (s : State) : State :=
  let c := s.sys.causes
  let s := s.setReg SYS_RST_CAUSE (s.reg SYS_RST_CAUSE ||| BitVec.ofNat 32 c)
  s.set SYS_RST_CAUSE.LAST (if bitAt c 6 then 7 else if bitAt c 5 then 6 else if bitAt c 4 then 5 else 4)

/-- Fallback of the slot pointer (R516, step 2): ACTIVE = PREVIOUS, TRIAL = 0, the failed slot INVALID, FELLBACK. -/
def State.fallBack (s : State) : State :=
  { s with nv := { s.nv with active := 1 - s.nv.active, trial := false, inact := .invalid } }.setB UPD_STAT.FELLBACK true

/-- The boot ROM resolves the slot pointer (R516, steps 1 and 2). -/
def State.resolveSlot (s : State) : State :=
  if s.nv.trial then
    if s.nv.boots < s.nv.confirmN then { s with nv := { s.nv with boots := s.nv.boots + 1 } } else s.fallBack
  else s

/-- The host area of the MRAM settings half: bytes 0 to 2,031,615 of the model's MRAM (R508, log entry 8). -/
def hostAreaSize : Nat := 2031616

/-- The settings format check (R517). -/
def State.settingsCheck (s : State) : State :=
  let fmt := s.manN s.nv.active 24 4
  if fmt = 0 || (memNat s.mram 0 4 = 0x31544553 && memNat s.mram 4 2 = fmt) then s
  else
    let m := memZero s.mram 0 hostAreaSize
    let m := match s.component s.nv.active 0x09 0 with
      | some (p, n) => memPuts m 0 (memBytes s.ufs p (satTo hostAreaSize n))
      | none => memPuts m 0 (bytesLE 4 0x31544553 ++ bytesLE 2 fmt)
    { s with mram := m }.setB UPD_STAT.SET_RESET true

/-- The steps that end phase 2 (R66, R69): LTC from 0, SYS_RST_CAUSE, the slot pointer and the settings. VKA_LOW shows the domain's record
once, at the first cold start (log entry 106). -/
def State.phase2End (cold module : Bool) (s : State) : State :=
  let s := { s with ltc := 0 }
  let s := if cold then
      let s := s.recordCold
      let s := { s with ka := { s.ka with pwrcyc := satTo 0xFFFFFFFF (s.ka.pwrcyc + 1) } }
      let s := s.setReg KA_PWRCYC (BitVec.ofNat 32 s.ka.pwrcyc)
      let s := if s.ka.vkaLow then s.supplyFlag SYS_SUPPLY.VKA_LOW else s
      { s with ka := { s.ka with vkaLow := false } }
    else s
  let s := if module then s.recordModule else s
  let s := s.resolveSlot.settingsCheck.newNonce
  { s with sys := { mode := .starting } }

/-- OSCILLATORS_READY (R66): phase 2 of a cold start ends. -/
def execOscillatorsReady (s : State) : Out :=
  .next (if s.sys.mode = .osc then s.phase2End true false else s)

/-- PLL_LOCK (R66): phase 3 ends. -/
def execPllLock (s : State) : Out :=
  .next (if s.sys.mode = .starting then { s with sys := { s.sys with pll := true } } else s)

/-- SAFETY_DOMAIN_READY (R66, R67): phase 4 ends. `ok`: the SAFE parameters passed safety firmware's checks and the region
is loaded with the parameters `safe`; else SAFE stays unloaded (R267). Its digest is that of entry 9 of the active slot's image header
(log entry 110). -/
def execSafetyDomainReady (ok : Bool) (safe : List (Nat × Word)) (s : State) : Out :=
  if s.sys.safe || !(s.sys.mode = .starting || s.sys.mode = .run || s.sys.mode = .idle) then .next s
  else
    let s := { s with sys := { s.sys with safe := true } }
    let s := if ok then
        let d := match s.component s.nv.active 0x04 9 with
          | some (_, _) => s.hdrDigest (.slot s.nv.active) 9
          | none => 0
        let s := { s with str := { s.str with digests := tput s.str.digests 9 d }, img := imgReplace 9 safe s.img }
        ((s.setLoaded 9 true).publishIdentity).clearUpdPend 9
      else s
    .next (s.safStart ok)

/-- DRAM_READY (R66): phase 5 ends. -/
def execDramReady (s : State) : Out :=
  .next (if s.sys.mode = .starting && s.sys.pll then { s with sys := { s.sys with dram := true } } else s)

/-- The Gesso pass of a pending life-cycle change (R83, R520). -/
def State.lifeCycleGesso (s : State) : State :=
  match s.nv.lcTarget with
  | none => s
  | some t =>
    let keep := (s.nv.lifeCycle = 0 && t = 1) || (s.nv.lifeCycle = 1 && t = 2)
    { s with
      mram := []
      ufs := s.ufs.filter fun c => !inDataPart (c.1 / 4096) 1
      nv := { s.nv with lifeCycle := t, lcTarget := none, keys := if keep then s.nv.keys else [] } }

/-- GESSO_DONE (R66, R80): phase 6 ends with DRAM wiped, a pending life-cycle pass done, and phase 8 begins with the image
header (R93). `readErr`: the header could not be read from UFS. -/
def execGessoDone (readErr : Bool) (s : State) : Out :=
  if s.sys.mode = .starting && s.sys.dram && !s.sys.gesso then
    let s := { s with dram := [], sys := { s.sys with gesso := true } }
    .next (s.lifeCycleGesso.bootStart 0x1FF readErr)
  else .next s

/-- A module reset asserts with cause bit `bit` (R69), or joins one under way (R72). None asserts in STANDBY or while a
power-on reset holds. -/
def State.assertModuleReset (bit : Nat) (s : State) : State :=
  match s.sys.mode with
  | .por => s
  | .standby => s
  | .resetHeld => { s with sys := { s.sys with causes := putBits s.sys.causes bit 1 1 } }
  | m =>
    let s' := s.wipeModule
    { s' with sys := { mode := .resetHeld, causes := 2 ^ bit, owePhase2 := decide (m = .osc), cold := s.sys.cold } }

/-- The ROM has fallen back in phase 7 and starts again from phase 3 with the other slot, for the safety domain too (R516, R517). -/
def State.restartPhase3 (s : State) : State :=
  let s := s.fallBack.settingsCheck
  let s := (List.range 10).foldl (fun (s : State) r => s.unloadRegion r) (s.blockWiped 0x07)
  let s := ((s.set STR_STATUS.BUSY 0x1FF).setB STR_STATUS.BOOT_DONE false)
  { s with sys := { s.sys with pll := false, safe := false, dram := false, gesso := false }, str := { s.str with boot := [], booting := false } }

/-- HOST_FIRMWARE_LOADED (R66, R516): phase 7 ends. `ok`: the host firmware of the active slot passed its check. A failed
check falls back to a PREVIOUS slot and restarts from phase 3; with none, and in DECOMMISSIONED, no firmware starts. -/
def execHostFirmwareLoaded (ok : Bool) (s : State) : Out :=
  if s.sys.mode = .starting && s.sys.gesso && !s.sys.fw then
    if s.nv.lifeCycle = 4 then .next { s with sys := { s.sys with mode := .recovery } }.usbShow
    else if ok then .next { s with sys := { s.sys with fw := true } }
    else if s.nv.inact = .previous then .next s.restartPhase3
    else .next { s with sys := { s.sys with mode := .recovery } }.usbShow
  else .next s

/-- USB_RECOVERY (R516, R522): in the recovery wait a package with FULL = 1 is checked and staged into slot A, and the module resets into
it. `stop`: the components staged before a storage error. -/
def execUsbRecovery (pkg : List Byte) (stop : Option (Fin 64)) (s : State) : Out :=
  let rd : PkgRead := fun o n => (pkg.drop o).take n
  let h := rd 0 256
  let man := rd 256 (fieldN h 16 2)
  if s.sys.mode ≠ .recovery || s.nv.lifeCycle = 4 || fieldN man 29 1 % 2 ≠ 1 then .next s
  else
    match s.stageReason rd pkg.length true with
    | 0 =>
      let (code, s) := { s with nv := { s.nv with inact := .invalid } }.stageRun 0 man rd (stop.map fun (n : Fin 64) => n.val)
      if code ≠ 0 then .next (s.set UPD_STAT.REASON (0x1300 + code))
      else
        let s := { s with nv := { s.nv with
          active := 0, trial := true, boots := 0, confirmN := fieldN man 28 1, slotSvn := tput s.nv.slotSvn 0 (fieldN h 20 4) } }
        .next (s.assertModuleReset 5)
    | code => .next (s.set UPD_STAT.REASON (0x1300 + code))

/-- RUN_ENTRY (R525, R73): host firmware starts on core 0, the watchdog starts and the module is in RUN. -/
def execRunEntry (s : State) : Out :=
  if s.sys.mode = .starting && s.sys.fw then
    .next { s with sys := { s.sys with mode := .run, wdtOn := true, wdtStart := s.now, wdtEarly := false } }
  else .next s

/-- NRST_ASSERT (R52): nRST has been below 1.0 V for 10 µs. -/
def execNrstAssert (s : State) : Out := .next (s.assertModuleReset 3)

/-- MODULE_RESET_ASSERT (R69, R72): a module-reset source asserts. A safety request must have been made. -/
def execModuleResetAssert (src : ResetSource) (s : State) : Out :=
  match src with
  | .nrst => .next (s.assertModuleReset 3)
  | .watchdog => .next (s.assertModuleReset 4)
  | .safety => .next (if s.sys.safeReq then s.assertModuleReset 5 else s)

/-- MODULE_RESET_RELEASE (R69): the reset is released; the steps that end phase 2 are made at once, without the advance of
the power-cycle count unless they are owed for a broken-off cold start. -/
def execModuleResetRelease (s : State) : Out :=
  .next (if s.sys.mode = .resetHeld then s.phase2End s.sys.owePhase2 true else s)

/-- KEEP_ALIVE_LOSS (R53, R72, R84): VKA below 2.2 V, and so below 2.5 V, while it feeds the keep-alive domain. -/
def execKeepAliveLoss (s : State) : Out :=
  if s.sys.mode = .por || s.sys.mode = .standby then
    let s := { s with ka := { opsec := s.nv.mirrorOpsec, pwrcyc := s.nv.mirrorPwrcyc, flags := 2, vkaLow := true, mirrorAt := s.nv.mirrorOpsec } }
    .next { s.reloadKaCopy with sys := { s.sys with mode := .por, cold := .kaLoss } }
  else .next s

/-- VKA_LOW (R53): VKA below 2.5 V while it feeds the keep-alive domain. -/
def execVkaLow (s : State) : Out :=
  .next (if s.sys.mode = .por || s.sys.mode = .standby then { s with ka := { s.ka with vkaLow := true } } else s)

/-! ### Ignition and wake (R51, R77) -/

/-- A wake source is seen: its KA_FLAGS bit, and the latch (R77). -/
def State.wakeSeen (bit : Nat) (s : State) : State :=
  { s with ka := { s.ka with flags := putBits s.ka.flags bit 1 1 }, sys := { s.sys with wake := true } }.setB ⟨KA_FLAGS, bit, 1⟩ true

/-- The exit from STANDBY is a cold start (R51, R71). -/
def State.leaveStandby (s : State) : State :=
  let s := s.wipeModule.reloadKaCopy
  { s with sys := { mode := .por, cold := .standby } }

/-- IGN_EDGE (R51): a debounced edge of IGN, or of WAKE where `wakePin`. -/
def execIgnEdge (wakePin rise : Bool) (s : State) : Out :=
  let s := s.setB (if wakePin then SYS_SUPPLY.WAKE else SYS_SUPPLY.IGN) rise
  let s := if s.sys.mode = .run || s.sys.mode = .idle then s.raise 7 else s
  if rise && (s.sys.entry.isSome || s.sys.mode = .park || s.sys.mode = .standby) then
    let s := s.wakeSeen (if wakePin then 9 else 8)
    .next (if s.sys.mode = .standby then s.leaveStandby else s)
  else .next s

/-- CAN_WAKE (R432): a wake monitor recognises the wake-up pattern in PARK, or on the way there (R77). -/
def execCanWake (bus : Fin 2) (s : State) : Out :=
  .next (if s.sys.mode = .park || s.sys.entry = some false then s.wakeSeen (10 + bus.val) else s)

/-! ### Watchdog (R73) -/

def State.wdtRestart (s : State) : State := { s with sys := { s.sys with wdtStart := s.now, wdtEarly := false } }

/-- A write of SYS_WDT_CFG: a PERIOD of 0 outside MANUFACTURE and DEVELOPMENT is ignored as a whole. -/
def State.writeWdtCfg (value : Word) (s : State) : State :=
  let p := value.toNat % 65536
  if p = 0 && !s.openLifeCycle then s else (s.set SYS_WDT_CFG.PERIOD p).wdtRestart

/-- The watchdog counts: RUN or IDLE, PERIOD not 0. -/
def State.wdtCounts (s : State) : Bool :=
  (s.sys.mode = .run || s.sys.mode = .idle) && s.sys.wdtOn && s.get SYS_WDT_CFG.PERIOD ≠ 0

/-- WDT_EARLY (R73): half the period has passed without a kick. -/
def execWdtEarly (s : State) : Out :=
  if s.wdtCounts && !s.sys.wdtEarly && s.get SYS_WDT_CFG.PERIOD * 500000 ≤ s.since s.sys.wdtStart then
    .next ({ s with sys := { s.sys with wdtEarly := true } }.raise 9)
  else .next s

/-- WDT_EXPIRE (R73): the full period has passed without a kick. -/
def execWdtExpire (s : State) : Out :=
  .next (if s.wdtCounts && s.get SYS_WDT_CFG.PERIOD * 1000000 ≤ s.since s.sys.wdtStart then s.assertModuleReset 4 else s)

/-! ### Block reset (R74) -/

/-- Blocks that SYS_BLK_RST resets alone. -/
def resettable (b : Nat) : Bool := (4 ≤ b && b ≤ 6) || (8 ≤ b && b ≤ 0x13)

/-- A write of SYS_BLK_RST (R74, R101). -/
def State.writeBlkRst (value : Word) (s : State) : State :=
  let b := value.toNat % 256
  let regionBusy := match regionOf b with | some r => s.busy r | none => false
  if !resettable b || s.getB SYS_BLK_RST.BUSY || regionBusy then s
  else
    let s := (s.blockReset b).setB SYS_BLK_RST.BUSY true
    { s with sys := { s.sys with blkRst := some b } }

/-- BLK_RST_DONE (R74): the reset ends. -/
def execBlkRstDone (s : State) : Out :=
  if s.sys.blkRst.isSome then
    .next (({ s with sys := { s.sys with blkRst := none } }.setB SYS_BLK_RST.BUSY false).raise 10)
  else .next s

/-! ### Power states (R75 to R78) -/

/-- A PARK or STANDBY request (R76): refused with BUSY, or accepted: the WAKE bits clear (R85), SOUT channels are released,
strokes end and valve outputs end in slow decay, the boost stops and its capacitor discharges, the panel shuts down (R491), open
records are written (R502), and a staging is abandoned (R513). -/
def State.powerEntry (standby : Bool) (s : State) : State :=
  if s.sys.entry.isSome || s.arbHeldByUpdate then (s.set SYS_PWR_STAT.REASON 0x010F).raise 11
  else
    let s := { s with ka := { s.ka with flags := putBits s.ka.flags 8 4 0 }, sys := { s.sys with entry := some standby, wake := false } }
    let s := (s.set ⟨KA_FLAGS, 8, 4⟩ 0).setB SYS_PWR_STAT.BUSY true
    let s := ((s.safReleaseAll.strokesStop s.tickNow).vdrEndDecayAll).vdrBoostStop
    s.pnlPark.recPark.updAbandon

/-- A write of SYS_PWR_REQ: without the KEY, or with STATE 0, ignored. IDLE is entered only from RUN (R525); each core halts at its next
wait-for-interrupt, and until then may write here (R75). -/
def State.writePwrReq (value : Word) (s : State) : State :=
  if bitsOf value.toNat 16 16 ≠ 0xA5C3 then s
  else
    match value.toNat % 4 with
    | 1 => if s.sys.mode = .run then { s with sys := { s.sys with mode := .idle, halting := 0xFF } } else s
    | 2 => if s.sys.mode = .run || s.sys.mode = .idle then s.powerEntry false else s
    | 3 => if s.sys.mode = .run || s.sys.mode = .idle then s.powerEntry true else s
    | _ => s

/-- IDLE_EXIT (R75): a raised source that is enabled and targets a core resumes every core. -/
def execIdleExit (s : State) : Out :=
  let hit := (List.range 384).any fun n => s.getB (EVT_SRC_CFG.EN n) && s.getB (EVT_SRC_STAT.PEND n) && s.get (EVT_SRC_CFG.TGT n) ≠ 0
  .next (if s.sys.mode = .idle && hit then { s with sys := { s.sys with mode := .run, halting := 0 } } else s)

/-- Both keep-alive counters go to the MRAM mirror (R84). -/
def State.writeMirror (s : State) : State :=
  { s with nv := { s.nv with mirrorOpsec := s.ka.opsec, mirrorPwrcyc := s.ka.pwrcyc }, ka := { s.ka with mirrorAt := s.ka.opsec } }

/-- POWER_STATE_ENTRY_DONE (R76): entry completes; it waits for KA writes already landed (R526), for the mirrors
of released channels (R266) and for the panel's shutdown (R491). A STANDBY entry with a wake
source latched leaves at once as a cold start (R77). -/
def execPowerStateEntryDone (s : State) : Out :=
  match s.sys.entry with
  | none => .next s
  | some standby =>
    if s.ka.writePend || s.safEntryWaits || s.pnlEntryWaits then .next s
    else
      let wake := s.sys.wake
      let at0 := s.get STR_STATUS.LOADED
      let s := s.safEntryWelds.writeMirror
      if standby then
        let s := s.wipeModule
        .next (if wake then s.leaveStandby else { s with sys := { mode := .standby } })
      else
        let s := (s.parkOff).setB SYS_PWR_STAT.BUSY false
        .next { s with sys := { s.sys with mode := .park, entry := none, wake := wake, atEntry := at0, safe := false, wdtOn := false, halting := 0 } }

/-- PARK_EXIT (R78): a wake latched in PARK. With both SYS_RESUME registers 0 a module reset is performed instead. -/
def execParkExit (readErr : Bool) (s : State) : Out :=
  if s.sys.mode = .park && s.sys.wake then
    if s.get64 SYS_RESUME_LO SYS_RESUME_HI = 0 then
      let s := s.wipeModule
      .next { s with sys := { mode := .resetHeld, causes := 2 ^ 6 } }
    else
      let s := (s.setB SYS_RST_CAUSE.PARK_EXIT true).set SYS_RST_CAUSE.LAST 7
      let at0 := s.sys.atEntry
      let s := { s with sys := { mode := .run, wdtOn := true, wdtStart := s.now, blkRst := s.sys.blkRst } }
      .next ((s.setB STR_STATUS.BOOT_DONE false).bootStart (at0 % 512) readErr)
  else .next s

/-! ### Keep-alive counters (R84, R526) -/

/-- OPSEC_TICK (R84): 32,768 KA cycles in RUN or IDLE. -/
def execOpsecTick (s : State) : Out :=
  if s.sys.mode = .run || s.sys.mode = .idle then
    let s := { s with ka := { s.ka with opsec := satTo 0xFFFFFFFF (s.ka.opsec + 1) } }
    .next (s.setReg KA_OPSEC (BitVec.ofNat 32 s.ka.opsec))
  else .next s

/-- KA_MIRROR_WRITE (R84): 60 operating seconds after the previous mirror write. -/
def execKaMirrorWrite (s : State) : Out := .next (if s.ka.mirrorAt + 60 ≤ s.ka.opsec then s.writeMirror else s)

/-- KA_WRITE_PROPAGATE (R526): a write landed in the copy reaches the keep-alive domain. -/
def execKaWritePropagate (s : State) : Out :=
  .next (if s.ka.writePend then { s with ka := { s.ka with flags := (s.reg KA_FLAGS).toNat, writePend := false } } else s)

end Sys2Proof.Machine
end

