-- ==== Sys2Proof/Machine/Checks.lean ====
section
/-! DEFINITION. The consistency check (R29, R103 to R106) and ENABLE: a write of 1 asks for the check, a pass starts the block, a
write of 0 stops it (R127). -/

namespace Sys2Proof.Machine

/-- The tests of a block's check. -/
def State.blkTests (s : State) (b : Nat) : List CheckTest :=
  match b with
  | 0x03 => s.tmsTests
  | 0x04 => s.inpTests
  | 0x05 => s.cleTests
  | 0x06 => s.vdrTests
  | 0x07 => s.safTests
  | 0x08 => s.gnbTests
  | 0x09 => s.camTests
  | 0x0A => s.fenTests
  | 0x0B => s.arbTests
  | 0x0C => s.fusTests
  | 0x0D => s.yldTests
  | 0x0E => s.busTests
  | 0x0F => s.ethTests
  | 0x10 => s.pairTests
  | 0x11 => s.pnlTests
  | 0x12 => s.recTests
  | 0x13 => s.updTests
  | _ => []

/-- What a passed check starts in a block. -/
def State.blkStart (b : Nat) (s : State) : State :=
  match b with
  | 0x03 => s.tmsStart
  | 0x04 => s.inpStart
  | 0x05 => s.cleStart
  | 0x08 => s.gnbStart
  | 0x09 => s.camStart
  | 0x0C => s.fusStart
  | 0x0D => s.yldStart
  | 0x0E => s.busStart
  | 0x0F => s.ethStart
  | 0x10 => s.pairStart
  | 0x11 => s.pnlStart
  | 0x12 => s.recStart
  | 0x13 => s.updStart
  | _ => s

/-- What ENABLE 1 → 0 does in a block. -/
def State.blkDisable (b : Nat) (s : State) : State :=
  let s := match b with
    | 0x03 => s.tmsDisable
    | 0x04 => s.inpDisable
    | 0x05 => s.cleDisable
    | 0x06 => s.vdrDisable
    | 0x08 => s.gnbDisable
    | 0x09 => s.camDisable
    | 0x0A => s.fenDisable
    | 0x0C => s.fusDisable
    | 0x0D => s.yldDisable
    | 0x0E => s.busDisable
    | 0x0F => s.ethDisable
    | 0x10 => s.pairDisable
    | 0x11 => s.pnlDisable
    | 0x12 => s.recDisable
    | 0x13 => s.updDisable
    | _ => s
  s.setB (enableFld b) false

/-- Some command of the block is taken and not completed. -/
def State.inFlight (s : State) (b : Nat) : Bool := (List.range (ringCount b)).any fun r => !(s.ring b r).taken.isEmpty

/-- The queue of checks with block `b`, whose ENABLE write lands now: after those that landed before; among those of the same REF cycle
the lowest block number first (R103). -/
def State.queueCheck (b : Nat) (s : State) : State :=
  let n := if s.str.landAt = s.ltc then s.str.landed else 0
  let old := s.str.checks.take (s.str.checks.length - n)
  let new := s.str.checks.drop (s.str.checks.length - n)
  { s with str := { s.str with
    checks := old ++ (new.filter fun x => decide (x < b)) ++ b :: (new.filter fun x => !decide (x < b)), landAt := s.ltc, landed := n + 1 } }

/-- A write of a block's ENABLE (R29, R103, R127). -/
def State.writeEnable (b : Nat) (v : Bool) (s : State) : State :=
  if !hasEnable b || s.getB (STR_CHK_RES.RUN b) || s.enabled b = v then s
  else if v then
    let s := s.setB (STR_CHK_RES.RUN b) true
    if s.inFlight b then { s with str := { s.str with held := s.str.held ++ [b] } } else s.queueCheck b
  else s.blkDisable b

/-- CHECK_ENQUEUE (R127): a held ENABLE enters the queue once the last completion of its block has been written. -/
def execCheckEnqueue (blk : Fin 21) (s : State) : Out :=
  let b := blk.val
  .next (if s.str.held.contains b && !s.inFlight b then
    { s with str := { s.str with held := s.str.held.filter (· ≠ b), checks := s.str.checks ++ [b], landed := 0 } } else s)

/-- The rings of a block at a pass: entries not taken are discarded, all four indices are 0 and SEQ restarts (R118, R122, R127). -/
def State.ringsZero (b : Nat) (s : State) : State :=
  (List.range (ringCount b)).foldl (fun (s : State) r =>
    ((((s.set (RING_PI b r) 0).set (RING_CI b r) 0).set (CRING_PI b r) 0).set (CRING_CI b r) 0).setRing b r {}) s

/-- The result registers of a check, and source 16. -/
def State.checkResult (b : Nat) (pass : Bool) (code off : Nat) (s : State) : State :=
  let s := ((s.setB (STR_CHK_RES.RUN b) false).setB (STR_CHK_RES.PASS b) pass).wrapInc (STR_CHK_RES.COUNT b)
  ((s.set (STR_CHK_RES.REASON b) (b * 256 + code)).set (STR_CHK_DET.OFFSET b) off).raise 16

/-- CHECK_END (R29, R103): the check at the head of the queue ends. -/
def execCheckEnd (s : State) : Out :=
  match s.str.checks with
  | [] => .next s
  | b :: rest =>
    let s := { s with str := { s.str with checks := rest } }
    match pickFailure (s.blkTests b) with
    | some (code, off) => .next ((s.checkResult b false code off).raise 17)
    | none => .next (((((s.checkResult b true 0 0).setB (enableFld b) true).ringsZero b).blkStart b))

end Sys2Proof.Machine
end

