-- ==== Sys2Proof/Machine/Take.lean ====
section
/-! DEFINITION. How a block takes the entries of its command rings (R116 to R127, R527), NOP and unknown opcodes. -/

namespace Sys2Proof.Machine

/-- The operation of an opcode on a ring of a block, and its FLAGS bits from bit 8 upward; none for an unknown opcode. -/
def opOf (b opcode : Nat) : Option (Nat × (Cmd → State → State)) :=
  match b, opcode with
  | 0x05, 1 => some (0, opSlotCreate)
  | 0x05, 2 => some (0, opSlotDestroy)
  | 0x05, 3 => some (0, opSlotStart)
  | 0x05, 4 => some (0, opSlotStop)
  | 0x06, 1 => some (0xFF00, opStart)
  | 0x06, 2 => some (0, opCancel)
  | 0x08, 1 => some (0xFF00, opChCreate)
  | 0x08, 2 => some (0xFF00, opSteer)
  | 0x08, 3 => some (0, opChDestroy)
  | 0x08, 4 => some (0, opChResolve)
  | 0x08, 0x10 => some (0xFF00, opAcqStart)
  | 0x09, 1 => some (0, opCtxCreate)
  | 0x09, 2 => some (0, opCtxDestroy)
  | 0x09, 3 => some (0, opCtxPalette)
  | 0x09, 4 => some (0, opBufGive)
  | 0x09, 5 => some (0, opCtxBind)
  | 0x0A, 1 => some (0, controlOnly opPkgLoad)
  | 0x0A, 2 => some (0, controlOnly opPkgUnload)
  | 0x0A, 3 => some (0, controlOnly opStreamCreate)
  | 0x0A, 4 => some (0, controlOnly opStreamDestroy)
  | 0x0A, 0x10 => some (0x0100, opFenJob)
  | 0x0B, 1 => some (0, opReqCreate)
  | 0x0B, 2 => some (0, opReqDestroy)
  | 0x0B, 3 => some (0, opReqClass)
  | 0x0C, 1 => some (0, opSrcCreate)
  | 0x0C, 2 => some (0, opSrcDestroy)
  | 0x0C, 3 => some (0, opFusSubmit)
  | 0x0D, 1 => some (0, opLayerCreate)
  | 0x0D, 2 => some (0, opLayerDestroy)
  | 0x0D, 3 => some (0, opYldPose)
  | 0x0D, 4 => some (0, opYldFlush)
  | 0x0E, 1 => some (0, opObjCreate)
  | 0x0E, 2 => some (0, opObjDestroy)
  | 0x0E, 3 => some (0, opQCreate)
  | 0x0E, 4 => some (0, opQDestroy)
  | 0x0E, 5 => some (0, opTpSend)
  | 0x0E, 6 => some (0, opTpAbort)
  | 0x0F, 1 => some (0, opPeerCreate)
  | 0x0F, 2 => some (0, opPeerDestroy)
  | 0x0F, 3 => some (0, opFleetSend)
  | 0x0F, 4 => some (0, opKeyLoad)
  | 0x0F, 5 => some (0, opKeyErase)
  | 0x0F, 6 => some (0, opFrameTx)
  | 0x10, 1 => some (0, opBodySend)
  | 0x11, 1 => some (0, opPnlPowerOn)
  | 0x11, 2 => some (0, opPnlPowerOff)
  | 0x11, 3 => some (0, opPnlRefresh)
  | 0x11, 4 => some (0, opPnlDischarge)
  | 0x12, 1 => some (0, opRecCreate)
  | 0x12, 2 => some (0, opRecDestroy)
  | 0x12, 3 => some (0, opRecPut)
  | 0x12, 4 => some (0, opRecFlush)
  | 0x12, 5 => some (0, opRecExport)
  | 0x13, 1 => some (0, opStage)
  | 0x13, 2 => some (0, opUpdAbort)
  | 0x13, 3 => some (0, opVarnish)
  | 0x13, 4 => some (0, opConfirm)
  | 0x13, 5 => some (0, opLcChange)
  | 0x13, 6 => some (0, opKeyProg)
  | _, _ => none

/-- A NOP ends with OK, an unknown opcode with 0x05 (R120). -/
def opNop (c : Cmd) (s : State) : State := c.finish 0x00 s
def opUnknown (c : Cmd) (s : State) : State := c.finish 0x05 s

/-- What a block runs for an opcode: 0 is NOP in every block. -/
def entryOp (b opcode : Nat) : Nat × (Cmd → State → State) :=
  if opcode = 0 then (0, opNop) else (opOf b opcode).getD (0, opUnknown)

/-! ### Taking an entry (R116, R123, R127, R527) -/

/-- Bytes per entry of a command ring, and the entry at an address (Table 5-4). -/
def State.entryAt (s : State) (a : Nat) : Nat × Entry :=
  (s.dramN a 2, { flags := BitVec.ofNat 16 (s.dramN (a + 2) 2), handle := BitVec.ofNat 32 (s.dramN (a + 4) 4),
                  tag := BitVec.ofNat 64 (s.dramN (a + 8) 8), args := BitVec.ofNat 384 (s.dramN (a + 16) 48) })

/-- The next entry of a ring, of this opcode, may be taken now: one waits, and nothing holds it (R527). -/
def State.mayTake (s : State) (b r opcode : Nat) (fence : Bool) : Bool :=
  decide (s.get (RING_PI b r) ≠ s.get (RING_CI b r)) && s.mayRun b r opcode fence

/-- The block takes and runs the entry at CI. Once PI has been misused, which entry is taken is undefined: a free one (R132). -/
def State.takeEntry (b r : Nat) (s : State) : State :=
  let ci := s.get (RING_CI b r)
  let odd := (s.ring b r).odd
  let slot := if odd then s.fresh 8 else ci % 256
  let s := if odd then s.drawn else s
  let (opcode, e) := s.entryAt (s.get64 (RING_BASE_LO b r) (RING_BASE_HI b r) + 64 * slot)
  if !s.mayTake b r opcode (bitAt e.flags.toNat 1) then s
  else
    let (mask, op) := entryOp b opcode
    ((s.set (RING_CI b r) (ci + 1)).restSpacing b r opcode).runEntry b r opcode mask e op

/-- COMMAND_TAKE (R527). -/
def execCommandTake (blk : Fin 21) (ring : Fin 17) (s : State) : Out := .next (s.takeEntry blk.val ring.val)

/-- NOP (R120). -/
def execNop (blk : Fin 21) (ring : Fin 17) (e : Entry) (s : State) : Out :=
  .next (s.runRow blk.val ring.val 0 0 e opNop)

/-- UNKNOWN_OPCODE (R120): an opcode that the block's chapter does not give. -/
def execUnknownOpcode (blk : Fin 21) (ring : Fin 17) (opcode : BitVec 16) (e : Entry) (s : State) : Out :=
  let o := opcode.toNat
  .next (if o = 0 || (opOf blk.val o).isSome then s
    else s.runRow blk.val ring.val o 0 e opUnknown)

end Sys2Proof.Machine
end

