-- ==== Sys2Proof/Machine/Host.lean ====
section
/-! DEFINITION. Accesses of a core to the peripheral space (R7 to R12, R101, R109): writes and reads of every register by its access
codes, the writes and reads that a chapter gives a rule of their own, and the rows that name such an access. -/

namespace Sys2Proof.Machine

/-- An aligned 32-bit access to a window of Table 5-1 (R10, R109). -/
def goodAddr (a : Nat) : Bool := 0xC0000000 ≤ a && a < 0xD5000000 && a % 4 = 0

/-- The region of the block at `a` is reconfiguring (R101): the reload under way has been accepted for it. Loading at start and PARK exit
is no reconfiguration (R100). -/
def State.reconfiguring (s : State) (a : Nat) : Bool :=
  match regionOf (blkOf a) with
  | some r => s.busy r && s.str.reload.any fun q => q.region = r
  | none => false

/-- Accesses at `a` do nothing and reads answer 0: the region reconfigures (R101), or the KA window is not accessible, in STANDBY and under
a power-on reset (R526; the answer is log entry 26's choice). -/
def State.closed (s : State) (a : Nat) : Bool :=
  s.reconfiguring a || (a / 0x1000000 = 0xD4 && (s.sys.mode = .por || s.sys.mode = .standby))

/-- An access that completes with a bus error (R10). -/
def State.busError (core : Nat) (s : State) : State := { s with access := .error core }

/-! ### Writes -/

/-- The ring of block `b` that has a register at `a`. -/
def ringAt (b : Nat) (f : Nat → Nat → Fld) (a : Nat) : Option Nat := (List.range (ringCount b)).find? fun r => (f b r).addr = a

/-- A write of a ring's PI (R117): ignored while ENABLE is 0. One that goes backwards, or leaves more than 256 entries waiting, is the
misuse of Table 5-6. -/
def State.writePi (b r : Nat) (value : Word) (s : State) : State :=
  if !s.enabled b then s
  else
    let ci := s.get (RING_CI b r)
    let old := (s.get (RING_PI b r) + 512 - ci) % 512
    let new := (value.toNat % 512 + 512 - ci) % 512
    let s := s.set (RING_PI b r) value.toNat
    if new < old || 256 < new then s.setRing b r { s.ring b r with odd := true } else s

/-- A write of CRING_CI (R117): ignored while ENABLE is 0. One that leaves more than 256 completions unread has gone past CRING_PI, the
misuse of Table 5-6. -/
def State.writeCringCi (b r : Nat) (value : Word) (s : State) : State :=
  if !s.enabled b then s
  else
    let s := s.set (CRING_CI b r) value.toNat
    if 256 < (s.get (CRING_PI b r) + 512 - s.get (CRING_CI b r)) % 512 then s.setRing b r { s.ring b r with oddCi := true } else s

/-- A write of 1 to the PEND bit of source `n`: it clears, unless the source was raised in this REF cycle, whose LTC the latch then takes
with MULTI cleared (R8, R130). -/
def State.clearPend (n : Nat) (s : State) : State :=
  match tget s.cycle.raised n with
  | some (l, _) => (s.setB (EVT_SRC_STAT.MULTI n) false).set64 (EVT_SRC_LTC_LO n) (EVT_SRC_LTC_HI n) l
  | none => s.setB (EVT_SRC_STAT.PEND n) false

/-- A write of 1 to the MULTI bit of source `n`: it clears, unless a raise of this REF cycle found PEND 1 (R8). -/
def State.clearMulti (n : Nat) (s : State) : State :=
  match tget s.cycle.raised n with
  | some (_, true) => s
  | _ => s.setB (EVT_SRC_STAT.MULTI n) false

/-- A write of EVT_PEND(w): the PEND bits written 1 clear. -/
def State.writePend (w : Nat) (value : Word) (s : State) : State :=
  (List.range 32).foldl (fun (s : State) i => if bitAt value.toNat i then s.clearPend (32 * w + i) else s) s

/-- A write of EVT_SRC_STAT(n) (R129, R130): 1s clear MULTI and PEND; SET raises while EN is 1, and together with a clear of PEND leaves
MULTI 0. -/
def State.writeSrcStat (n : Nat) (value : Word) (s : State) : State :=
  let v := value.toNat
  let s := if bitAt v 1 then s.clearMulti n else s
  let s := if bitAt v 0 then s.clearPend n else s
  if bitAt v 2 && s.getB (EVT_SRC_CFG.EN n) then (s.raise n).when (bitAt v 0) (State.setB (EVT_SRC_STAT.MULTI n) false) else s

/-- A write of SYS_DET_STATUS (R8, R24, R27): bits written 1 clear, but for those of violations of this REF cycle. Where only such remain,
the register went through zero: the latch takes this LTC and DET_VIOL is raised, unless the first of them has done so. -/
def State.writeDet (value : Word) (s : State) : State :=
  let c := s.cycle
  let old := (BitVec.ofNat 32 c.detOld &&& ~~~value).toNat
  let s := { s.setReg SYS_DET_STATUS (BitVec.ofNat 32 old ||| BitVec.ofNat 32 c.detNew) with cyc := { c with detOld := old } }
  s.when (decide (old = 0 ∧ c.detNew ≠ 0 ∧ c.detOld ≠ 0)) State.detLatch

/-- A write of KA_FLAGS lands in the copy (R526). -/
def State.writeKaFlags (value : Word) (s : State) : State :=
  let s := s.plainWrite KA_FLAGS value
  { s with ka := { s.ka with writePend := true } }

/-- A write of BUS_C_TPLIM(n): RATE 0 and SRCMAX 0 or above 32 keep their values. -/
def State.writeTpLim (n : Nat) (value : Word) (s : State) : State :=
  let v := value.toNat
  let s := if bitsOf v 24 8 = 0 then s else s.set (BUS_C_TPLIM.RATE n) (bitsOf v 24 8)
  let s := (s.set (BUS_C_TPLIM.CTSMAX n) (bitsOf v 16 8)).set (BUS_C_TPLIM.BAM_GAP n) (bitsOf v 8 8)
  if bitsOf v 0 6 = 0 || 32 < bitsOf v 0 6 then s else s.set (BUS_C_TPLIM.SRCMAX n) (bitsOf v 0 6)

/-- A write of PAIR_SIGO(i): a SLOT above 95 is ignored. -/
def State.writeSigo (i : Nat) (value : Word) (s : State) : State :=
  let s := s.setB (PAIR_SIGO.EN i) (bitAt value.toNat 31)
  if 95 < value.toNat % 128 then s else s.set (PAIR_SIGO.SLOT i) (value.toNat % 128)

/-- A write of PNL_VCOM: 200 to 3,000 mV in steps of 10. -/
def State.writeVcom (value : Word) (s : State) : State :=
  let v := value.toNat % 4096
  if v < 200 || 3000 < v || v % 10 ≠ 0 then s else s.set PNL_VCOM.MV v

/-- Word `w` of the host area of the MRAM settings half is written. -/
def State.writeSettings (w : Nat) (value : Word) (s : State) : State := { s with mram := memPuts s.mram (4 * w) (bytesLE 4 value.toNat) }

/-- Writes of SYS, KA, STR, EVT and TMS with a rule of their own. -/
def State.fixedWrite (a : Nat) (value : Word) (s : State) : Option State :=
  if a = SYS_DET_STATUS then some (s.writeDet value)
  else if a = SYS_WDT_CFG then some (s.writeWdtCfg value)
  else if a = SYS_WDT_KICK then some (if value = 0x5A5A#32 then s.wdtRestart else s)
  else if a = SYS_BLK_RST then some (s.writeBlkRst value)
  else if a = SYS_PWR_REQ then some (s.writePwrReq value)
  else if a = KA_FLAGS then some (s.writeKaFlags value)
  else if a = STR_RLD_CTRL then some (s.writeRldCtrl value)
  else if EVT_PEND 0 ≤ a && a < EVT_PEND 0 + 0x4 * 12 then some (s.writePend ((a - EVT_PEND 0) / 4) value)
  else if EVT_SRC_STAT 0 ≤ a && a < EVT_SRC_STAT 0 + 0x10 * 384 && a % 16 = 4 then some (s.writeSrcStat ((a - EVT_SRC_STAT 0) / 16) value)
  else if a = TMS_OBS_CTRL then some (s.writeObsCtrl value)
  else if TMS_CAP_STAT 0 ≤ a && a < TMS_CAP_STAT 0 + 0x10 * 7 && a % 16 = 4 then some (s.writeCapStat ((a - TMS_CAP_STAT 0) / 16) value)
  else none

/-- Writes of SAF, GNB, CAM and ARB with a rule of their own. -/
def State.gnbCamWrite (a : Nat) (value : Word) (s : State) : Option State :=
  if a = SAF_MBX_REQ then some (s.writeMbx value)
  else if a = GNB_ACC_CI then some (s.writeAccCi value)
  else if a = GNB_MS_CI then some (s.writeMsCi value)
  else if a = GNB_MS_THR then some (s.writeMsThr value)
  else if a = GNB_ANT 0 || a = GNB_ANT 1 then some (s.writeAnt ((a - GNB_ANT 0) / 4) value)
  else if GNB_CHAIN_CFG 0 ≤ a && a < GNB_CHAIN_CFG 0 + 0x20 * 4 then
    let c := (a - GNB_CHAIN_CFG 0) / 32
    match (a - GNB_CHAIN_CFG 0) % 32 with
    | 0x00 => some (s.writeChainCfg c value)
    | 0x04 => some (s.writeChainStat c value)
    | 0x08 => some (s.writeNotch c 0 value)
    | 0x0C => some (s.writeNotch c 1 value)
    | 0x10 => some (s.writeNotch c 2 value)
    | 0x14 => some (s.writeNotch c 3 value)
    | _ => none
  else if a = CAM_FR_CI then some (s.writeFrCi value)
  else if CAM_LNK_CFG 0 ≤ a && a < CAM_LNK_CFG 0 + 0x40 * 4 then
    match (a - CAM_LNK_CFG 0) % 64 with
    | 0x00 => some (s.writeLnkCfg ((a - CAM_LNK_CFG 0) / 64) value)
    | 0x20 => some (s.writeCci ((a - CAM_LNK_CFG 0) / 64) value)
    | _ => none
  else if a = ARB_CFG 0 || a = ARB_CFG 1 then some (s.writeArbCfg ((a - ARB_CFG 0) / 16) value)
  else if a = ARB_HREQ then some (s.writeHreq value)
  else none

/-- A write of BUS_C_CFG(n): TERM is a reserved bit where the controller carries no termination, from n = 2 on. -/
def State.writeCanCfg (n : Nat) (value : Word) (s : State) : State :=
  s.plainWrite (BUS_C_CFG n) (if n < 2 then value else value &&& ~~~0x20000000#32)

/-- Writes of BUS with a rule of their own. -/
def State.busWrite (a : Nat) (value : Word) (s : State) : Option State :=
  if BUS_Q_CI 0 ≤ a && a < BUS_Q_CI 0 + 0x20 * 8 && (a - BUS_Q_CI 0) % 32 = 0 then some (s.writeQCi ((a - BUS_Q_CI 0) / 32) value)
  else if BUS_C_STAT 0 ≤ a && a < BUS_C_STAT 0 + 0x100 * 8 && (a - BUS_C_STAT 0) % 256 = 0 then some (s.writeRecover ((a - BUS_C_STAT 0) / 256) value)
  else if BUS_C_CFG 0 ≤ a && a < BUS_C_CFG 0 + 0x100 * 8 && (a - BUS_C_CFG 0) % 256 = 0 then some (s.writeCanCfg ((a - BUS_C_CFG 0) / 256) value)
  else if BUS_C_TPLIM 0 ≤ a && a < BUS_C_TPLIM 0 + 0x100 * 8 && (a - BUS_C_TPLIM 0) % 256 = 0 then some (s.writeTpLim ((a - BUS_C_TPLIM 0) / 256) value)
  else if BUS_OBJ_STAT 0 ≤ a && a < BUS_OBJ_STAT 0 + 0x80 * 2048 then
    let x := (a - BUS_OBJ_STAT 0) / 128
    let o := (a - BUS_OBJ_STAT 0) % 128
    some (if o = 4 then s.writeObjCtrl x value else if 0x20 ≤ o && o < 0x78 then s.writeObjRec x ((o - 0x20) / 4) value else s)
  else none

/-- Writes of ETH, PAIR, PNL and UPD with a rule of their own. -/
def State.ethUpdWrite (a : Nat) (value : Word) (s : State) : Option State :=
  if a = ETH_FLT_RX_CI then some (s.ciWrite 0x0F ETH_FLT_RX_PI.PI ETH_FLT_RX_CI.CI ETH_FLT_RX_CFG.RLEN value)
  else if a = ETH_HRX_CI then some (s.ciWrite 0x0F ETH_HRX_PI.PI ETH_HRX_CI.CI ETH_HRX_CFG.HLEN value)
  else if ETH_POL 0 ≤ a && a < ETH_POL 0 + 0x10 * 4 && a % 16 = 4 then some (s.writePol ((a - ETH_POL 0) / 16) value)
  else if a = ETH_GPTP_CFG then some (s.writeGptp value)
  else if PAIR_SIGO 0 ≤ a && a < PAIR_SIGO 0 + 0x4 * 64 then some (s.writeSigo ((a - PAIR_SIGO 0) / 4) value)
  else if a = PNL_VCOM then some (s.writeVcom value)
  else if a = PNL_FL then some (s.writeFl value)
  else if a = UPD_USB then some (s.writeUsb value)
  else if UPD_SET 0 ≤ a && a < UPD_SET 0 + 0x4 * 507904 then some (s.writeSettings ((a - UPD_SET 0) / 4) value)
  else none

/-- The write of a register that has a rule of its own; none where the access codes alone decide. -/
def State.specialWrite (a : Nat) (value : Word) (s : State) : Option State :=
  let b := blkOf a
  match ringAt b RING_PI a, ringAt b CRING_CI a with
  | some r, _ => some (s.writePi b r value)
  | _, some r => some (s.writeCringCi b r value)
  | none, none =>
    match b with
    | 0x04 => s.inpWrite a value
    | 0x05 => s.cleWrite a value
    | 0x06 => s.vdrWrite a value
    | 0x07 => s.gnbCamWrite a value
    | 0x08 => s.gnbCamWrite a value
    | 0x09 => s.gnbCamWrite a value
    | 0x0A => none
    | 0x0B => s.gnbCamWrite a value
    | 0x0C => s.fusWrite a value
    | 0x0D => s.yldWrite a value
    | 0x0E => s.busWrite a value
    | 0x0F => s.ethUpdWrite a value
    | 0x10 => s.ethUpdWrite a value
    | 0x11 => s.ethUpdWrite a value
    | 0x12 => none
    | 0x13 => s.ethUpdWrite a value
    | _ => s.fixedWrite a value

/-- A write that reaches its register. -/
def State.regWrite (a : Nat) (value : Word) (s : State) : State :=
  match s.specialWrite a value with
  | some s => s
  | none =>
    let b := blkOf a
    let s := s.plainWrite a value
    if hasEnable b && a = blkBase b then s.writeEnable b (bitAt value.toNat 0) else s

/-- A core's write of a 32-bit word (R7, R9, R10, R101, R109). -/
def State.hostWrite (core a : Nat) (value : Word) (s : State) : State :=
  if !goodAddr a then s.busError core
  else
    let s := { s with access := .none }
    if s.closed a then s else s.regWrite a value

/-! ### Reads -/

/-- The value of a register that shows something held elsewhere; none for one that is held at its address. -/
def State.shown (s : State) (a : Nat) : Option Word :=
  let w (n : Nat) : Option Word := some (BitVec.ofNat 32 n)
  if a = SYS_ID then w (match s.part with | .h24 => 0x101C0 | .s24 => 0x002C0)
  else if EVT_PEND 0 ≤ a && a < EVT_PEND 0 + 0x4 * 12 then w (s.pendWord ((a - EVT_PEND 0) / 4))
  else if EVT_CLAIM 0 ≤ a && a < EVT_CLAIM 0 + 0x4 * 8 then w (s.claim ((a - EVT_CLAIM 0) / 4))
  else if a = TMS_LTC_LO then w s.now
  else if a = TMS_STATUS then w (putBits (s.reg a).toNat 16 16 s.holdSeconds)
  else if a = CLE_FRAME_LO then w s.frameNow
  else if a = CLE_FRAME_HI then w (s.frameNow / 2 ^ 32)
  else if CLE_LATE_MAP 0 ≤ a && a < CLE_LATE_MAP 0 + 0x4 * 3 then w (s.lateMap ((a - CLE_LATE_MAP 0) / 4))
  else if a = VDR_STATUS then w (putBits (s.reg a).toNat 31 1 (b2n (s.getB SYS_SUPPLY.VLV_OK)))
  else if VDR_BANK_STAT 0 ≤ a && a < VDR_BANK_STAT 0 + 0x10 * 16 && a % 16 = 12 then w (putBits (s.reg a).toNat 30 2 (s.hsNow ((a - VDR_BANK_STAT 0) / 16)))
  else if a = SAF_STATUS then w (putBits (s.reg a).toNat 0 16 s.degLeft)
  else if GNB_SC_LO ≤ a && a < GNB_SC_LO + 0x18 then some (s.gnbScView.reg a)
  else if FEN_STR 0 ≤ a && a < FEN_STR 0 + 0x8 * 16 && a % 8 = 0 then w (s.fenStr ((a - FEN_STR 0) / 8))
  else if ARB_WAIT 0 ≤ a && a < ARB_WAIT 0 + 0x8 * 24 && a % 8 = 4 then w (s.arbWait ((a - ARB_WAIT 0) / 8))
  else if BUS_C_CAP 0 = a || BUS_C_CAP 1 = a then w ((s.reg a).toNat + s.image a % 4 + 4)
  else if ETH_KEY_STAT 0 ≤ a && a < ETH_KEY_STAT 0 + 0x4 * 64 then
    w (putBits (s.reg a).toNat 31 1 (b2n (tget s.nv.keys ((a - ETH_KEY_STAT 0) / 4)).isSome))
  else if a = PNL_STAT then some s.pnlStat
  else if REC_S_NVAL 0 ≤ a && a < REC_S_NVAL 0 + 0x10 * 256 && a % 16 = 8 then w (s.recNval ((a - REC_S_NVAL 0) / 16))
  else if REC_SLOT 0 0 ≤ a && a < REC_SLOT 0 0 + 0x100 * 8192 then w (memNat s.mram (0x200000 + (a - REC_SLOT 0 0)) 4)
  else if a = UPD_STAT then some s.updStat
  else if a = UPD_LC then some s.updLc
  else if a = UPD_SVN then w s.nv.minSvn
  else if UPD_KEY 0 ≤ a && a < UPD_KEY 0 + 0x4 * 4 then w (b2n (tget s.nv.otp ((a - UPD_KEY 0) / 4)).isSome)
  else if UPD_SET 0 ≤ a && a < UPD_SET 0 + 0x4 * 507904 then w (memNat s.mram (a - UPD_SET 0) 4)
  else none

/-- The window of an object index that holds no object (R192 and the register tables of FUS, BUS, GNB, CAM and REC). -/
def State.freeWindow (s : State) (a : Nat) : Bool :=
  if 0xC5100000 ≤ a && a < 0xC5160000 then !s.slotLive ((a - 0xC5100000) / 0x1000)
  else if 0xCC100000 ≤ a && a < 0xCC101800 then !s.fusLive ((a - 0xCC100000) / 0x100)
  else if 0xCE100000 ≤ a && a < 0xCE140000 then (s.busObj ((a - 0xCE100000) / 128)).isNone
  else if 0xCE000800 ≤ a && a < 0xCE000900 then (tget s.bus.queues ((a - 0xCE000800) / 32)).isNone
  else false

/-- What a register reads as now: what it shows, or its bits with those of the image in place (R7, R9). -/
def State.liveReg (s : State) (a : Nat) : Word :=
  if s.freeWindow a then 0#32
  else
    match s.shown a with
    | some w => w
    | none =>
      match findDesc a with
      | none => 0#32
      | some d =>
        let m := BitVec.ofNat 32 d.img
        (s.reg a &&& ~~~m) ||| (BitVec.ofNat 32 (s.image a) &&& m)

/-- The reads that latch companions for the reading core, or clear fields by a rule of their own. -/
def State.latchRead (core a : Nat) (s : State) : Option State :=
  let four (bs : List Nat) : State := (bs.foldl (fun (t : State) b => t.latchFor core b (s.liveReg b)) s).answer core (s.liveReg a)
  if a = TMS_LTC_LO then some (s.readLtc core)
  else if a = TMS_TP_STAT then some (s.readTpStat core)
  else if INP_AIN_RAW 0 ≤ a && a < INP_AIN_RAW 0 + 0x20 * 48 && (a - INP_AIN_RAW 0) % 32 = 0 then some (s.readAinRaw core ((a - INP_AIN_RAW 0) / 32))
  else if INP_PIN_VAL 0 ≤ a && a < INP_PIN_VAL 0 + 0x20 * 24 && (a - INP_PIN_VAL 0) % 32 = 0 then some (s.readPinVal core ((a - INP_PIN_VAL 0) / 32))
  else if INP_LAC_CNT 0 ≤ a && a < INP_LAC_CNT 0 + 0x20 * 8 && (a - INP_LAC_CNT 0) % 32 = 0 then some (s.readLacCnt core ((a - INP_LAC_CNT 0) / 32))
  else if a = INP_FLOW_STAT then some (s.readFlowStat core)
  else if a = CLE_FRAME_LO then some (s.readFrame core)
  else if CLE_S_SAMPLE 0 ≤ a && a < CLE_S_SAMPLE 0 + 0x1000 * 96 && (a - CLE_S_SAMPLE 0) % 0x1000 = 0 then some (s.readSample core ((a - CLE_S_SAMPLE 0) / 0x1000))
  else if VDR_OUT_SENSE 0 ≤ a && a < VDR_OUT_SENSE 0 + 0x20 * 64 && (a - VDR_OUT_SENSE 0) % 32 = 0 then some (s.readSense core ((a - VDR_OUT_SENSE 0) / 32))
  else if VDR_CTX_STAT 0 ≤ a && a < VDR_CTX_STAT 0 + 0x20 * 64 && (a - VDR_CTX_STAT 0) % 32 = 0 then some (s.readCtx core ((a - VDR_CTX_STAT 0) / 32))
  else if a = GNB_SC_LO then some (s.readGnb core 0)
  else if a = GNB_MARK_SC_LO then some (s.readGnb core 1)
  else if GNB_CH_STAT 0 ≤ a && a < GNB_CH_STAT 0 + 0x10 * 512 && (a - GNB_CH_STAT 0) % 16 = 0 then some (s.readGnb core (2 + (a - GNB_CH_STAT 0) / 16))
  else if CAM_CTX_STAT 0 ≤ a && a < CAM_CTX_STAT 0 + 0x20 * 32 && (a - CAM_CTX_STAT 0) % 32 = 0 then some (s.readCamCtx core ((a - CAM_CTX_STAT 0) / 32))
  else if a = FUS_LAST then some (four [FUS_LAST_LTC_LO, FUS_LAST_LTC_HI])
  else if a = FUS_IMU0 then some (four [FUS_IMU1, FUS_IMU2, FUS_IMU_LTC_LO, FUS_IMU_LTC_HI])
  else if FUS_S_CALV 0 ≤ a && a < FUS_S_CALV 0 + 0x100 * 24 && (a - FUS_S_CALV 0) % 256 = 0 then
    let x := (a - FUS_S_CALV 0) / 256
    some (four [FUS_S_EST_ROLL x, FUS_S_EST_PITCH x, FUS_S_EST_YAW x, FUS_S_EST_TX x, FUS_S_EST_TY x, FUS_S_EST_TZ x, FUS_S_RF_USED x])
  else if BUS_OBJ_STAT 0 ≤ a && a < BUS_OBJ_STAT 0 + 0x80 * 2048 && (a - BUS_OBJ_STAT 0) % 128 = 0 then some (s.readObj core ((a - BUS_OBJ_STAT 0) / 128))
  else none

/-- What a core reads at `a`: what it has latched there, but for RC fields, which count on; else the register. The latch of CLE_S_SAMPLE covers only part of CLE_S_XSTAT
(R209). -/
def State.coreView (s : State) (core a : Nat) : Word :=
  match tget s.latch (core * 2 ^ 32 + a) with
  | none => s.liveReg a
  | some w =>
    if 0xC5100000 ≤ a && a < 0xC5160000 && a % 0x1000 = 0xB8 then xstatMix (s.liveReg a) w
    else
      let rc := BitVec.ofNat 32 (match findDesc a with
        | some d => d.rc
        | none => 0)
      (w &&& ~~~rc) ||| (s.liveReg a &&& rc)

/-- The RC bits of a register clear once read (R7). -/
def State.clearRc (a : Nat) (s : State) : State :=
  match findDesc a with
  | some d => if d.rc = 0 then s else s.setReg a (s.reg a &&& ~~~(BitVec.ofNat 32 d.rc))
  | none => s

/-- A core's read of a 32-bit word (R7, R9, R10, R101, R109). -/
def State.hostRead (core a : Nat) (s : State) : State :=
  if !goodAddr a then s.busError core
  else if s.closed a || s.freeWindow a then s.answer core 0#32
  else
    match s.latchRead core a with
    | some s => s
    | none => (s.clearRc a).answer core (s.coreView core a)

/-! ### The rows of a host access -/

/-- REG_WRITE (R7). -/
def execRegWrite (core : Fin 8) (addr : Nat) (value : Word) (s : State) : Out := .next (s.hostWrite core.val addr value)

/-- RC_READ (R7, R8): a read of a register; its RC fields clear. -/
def execRcRead (core : Fin 8) (addr : Nat) (s : State) : Out := .next (s.hostRead core.val addr)

/-- BAD_ACCESS (R10, R109): an access to the peripheral space that is no aligned 32-bit access to a window. -/
def execBadAccess (core : Fin 8) (addr size : Nat) (_isWrite : Bool) (s : State) : Out :=
  .next (if 0xC0000000 ≤ addr && addr < 0xE0000000 && !(size = 4 && goodAddr addr) then s.busError core.val else s)

/-- DRAM_READ_UE (R14): a read of a core, or of a block where `reader` is none, meets an uncorrectable error: a bus error to the
initiator, and nothing written into its destination. -/
def execDramReadUe (reader : Option (Fin 8)) (addr : Nat) (s : State) : Out :=
  let s' := match reader with
    | some core => s.busError core.val
    | none => s
  .next (if addr < dramSize then s'.raise 5 else s)

/-- EVT_SET (R129): a write of EVT_SRC_STAT(n). -/
def execEvtSet (core : Fin 8) (src : Fin 384) (value : Word) (s : State) : Out := .next (s.hostWrite core.val (EVT_SRC_STAT src.val) value)

/-- ENABLE_SET (R29, R103): a write of a block's control register. -/
def execEnableSet (core : Fin 8) (blk : Fin 21) (value : Word) (s : State) : Out :=
  .next (if hasEnable blk.val then s.hostWrite core.val (blkBase blk.val) value else s)

/-- WDT_KICK (R73): a write of SYS_WDT_KICK. -/
def execWdtKick (core : Fin 8) (value : Word) (s : State) : Out := .next (s.hostWrite core.val SYS_WDT_KICK value)

/-- WDT_PERIOD_WRITE (R73): a write of SYS_WDT_CFG. -/
def execWdtPeriodWrite (core : Fin 8) (value : Word) (s : State) : Out := .next (s.hostWrite core.val SYS_WDT_CFG value)

/-- BLOCK_RESET (R74): a write of SYS_BLK_RST. -/
def execBlockReset (core : Fin 8) (value : Word) (s : State) : Out := .next (s.hostWrite core.val SYS_BLK_RST value)

/-- IDLE_REQUEST (R75): a write of SYS_PWR_REQ with STATE 1. -/
def execIdleRequest (core : Fin 8) (value : Word) (s : State) : Out :=
  .next (if value.toNat % 4 = 1 then s.hostWrite core.val SYS_PWR_REQ value else s)

/-- PARK_REQUEST (R76): a write of SYS_PWR_REQ with STATE 2. -/
def execParkRequest (core : Fin 8) (value : Word) (s : State) : Out :=
  .next (if value.toNat % 4 = 2 then s.hostWrite core.val SYS_PWR_REQ value else s)

/-- STANDBY_REQUEST (R76): a write of SYS_PWR_REQ with STATE 3. -/
def execStandbyRequest (core : Fin 8) (value : Word) (s : State) : Out :=
  .next (if value.toNat % 4 = 3 then s.hostWrite core.val SYS_PWR_REQ value else s)

/-- RELOAD_REQUEST (R95): a write of STR_RLD_CTRL. -/
def execReloadRequest (core : Fin 8) (value : Word) (s : State) : Out := .next (s.hostWrite core.val STR_RLD_CTRL value)

/-- TMS_SNAPSHOT_READ (R134): a read of TMS_LTC_LO. -/
def execTmsSnapshotRead (core : Fin 8) (s : State) : Out := .next (s.hostRead core.val TMS_LTC_LO)

/-- OBS_PUSH (R138): a write of TMS_OBS_CTRL. -/
def execObsPush (core : Fin 8) (value : Word) (s : State) : Out := .next (s.hostWrite core.val TMS_OBS_CTRL value)

/-- CAP_POP (R148): a write of TMS_CAP_STAT(n) with POP = 1. -/
def execCapPop (core : Fin 8) (ch : Fin 7) (s : State) : Out := .next (s.hostWrite core.val (TMS_CAP_STAT ch.val) 0x80000000#32)

/-- AIN_REARM (R155): a write of INP_AIN_FLT(n). -/
def execAinRearm (core : Fin 8) (n : Fin 48) (value : Word) (s : State) : Out := .next (s.hostWrite core.val (INP_AIN_FLT n.val) value)

/-- AIN_RAW_READ (R152): a read of INP_AIN_RAW(n). -/
def execAinRawRead (core : Fin 8) (n : Fin 48) (s : State) : Out := .next (s.hostRead core.val (INP_AIN_RAW n.val))

/-- PIN_VAL_READ (R157): a read of INP_PIN_VAL(n). -/
def execPinValRead (core : Fin 8) (n : Fin 24) (s : State) : Out := .next (s.hostRead core.val (INP_PIN_VAL n.val))

/-- LAC_CNT_READ (R161): a read of INP_LAC_CNT(n). -/
def execLacCntRead (core : Fin 8) (n : Fin 8) (s : State) : Out := .next (s.hostRead core.val (INP_LAC_CNT n.val))

/-- FLOW_STAT_READ (R162): a read of INP_FLOW_STAT. -/
def execFlowStatRead (core : Fin 8) (s : State) : Out := .next (s.hostRead core.val INP_FLOW_STAT)

/-- SSUP_ENABLE (R163): a write of INP_SSUP. -/
def execSsupEnable (core : Fin 8) (value : Word) (s : State) : Out := .next (s.hostWrite core.val INP_SSUP value)

/-- COEF_LIVE (R201, R202): a write of a coefficient or table word of a slot. -/
def execCoefLive (core : Fin 8) (slot : Fin 96) (word : Fin 1024) (value : Word) (s : State) : Out :=
  .next (if isCoef (4 * word.val) then s.hostWrite core.val (cleSlotBase slot.val + 4 * word.val) value else s)

/-- CLE_HOST_SOURCE_WRITE (R177): a write of a host source register. -/
def execCleHostSourceWrite (core : Fin 8) (slot : Fin 96) (meas : Bool) (value : Word) (s : State) : Out :=
  .next (s.hostWrite core.val (if meas then CLE_S_MS_HOST slot.val else CLE_S_SP_HOST slot.val) value)

/-- CLE_SAMPLE_READ (R186, R209): a read of CLE_S_SAMPLE. -/
def execCleSampleRead (core : Fin 8) (slot : Fin 96) (s : State) : Out := .next (s.hostRead core.val (CLE_S_SAMPLE slot.val))

/-- CLE_FRAME_READ (R168): a read of CLE_FRAME_LO. -/
def execCleFrameRead (core : Fin 8) (s : State) : Out := .next (s.hostRead core.val CLE_FRAME_LO)

/-- VDR_FAULT_CLEAR (R220, R221): a write of VDR_OUT_FLT(k), `reg` 0 to 63, or of VDR_BANK_STAT(b), from 64. -/
def execVdrFaultClear (core : Fin 8) (reg : Fin 80) (value : Word) (s : State) : Out :=
  .next (s.hostWrite core.val (if reg.val < 64 then VDR_OUT_FLT reg.val else VDR_BANK_STAT (reg.val - 64)) value)

/-- VDR_OUT_CFG_WRITE (R226). -/
def execVdrOutCfgWrite (core : Fin 8) (k : Fin 64) (value : Word) (s : State) : Out := .next (s.hostWrite core.val (VDR_OUT_CFG k.val) value)

/-- VDR_SENSE_READ (R212). -/
def execVdrSenseRead (core : Fin 8) (k : Fin 64) (s : State) : Out := .next (s.hostRead core.val (VDR_OUT_SENSE k.val))

/-- SOFT_TRIGGER (R236): a write of VDR_STK_TRIG. -/
def execSoftTrigger (core : Fin 8) (value : Word) (s : State) : Out := .next (s.hostWrite core.val VDR_STK_TRIG value)

/-- VDR_CTX_READ (R228): a read of VDR_CTX_STAT(k). -/
def execVdrCtxRead (core : Fin 8) (k : Fin 64) (s : State) : Out := .next (s.hostRead core.val (VDR_CTX_STAT k.val))

/-- ANT_BIAS_ENABLE (R276): a write of GNB_ANT(a). -/
def execAntBiasEnable (core : Fin 8) (a : Fin 2) (value : Word) (s : State) : Out := .next (s.hostWrite core.val (GNB_ANT a.val) value)

/-- GNB_SC_READ (R279): a read of GNB_SC_LO (0), GNB_MARK_SC_LO (1) or GNB_CH_STAT(x) (2 + x). -/
def execGnbScRead (core : Fin 8) (which : Fin 514) (s : State) : Out :=
  .next (s.hostRead core.val (match which.val with | 0 => GNB_SC_LO | 1 => GNB_MARK_SC_LO | n => GNB_CH_STAT (n - 2)))

/-- LINK_CFG_WRITE (R324): a write of CAM_LNK_CFG(l). -/
def execLinkCfgWrite (core : Fin 8) (l : Fin 4) (value : Word) (s : State) : Out := .next (s.hostWrite core.val (CAM_LNK_CFG l.val) value)

/-- CCI_START (R326): a write of CAM_LNK_CCI_CMD(l). -/
def execCciStart (core : Fin 8) (l : Fin 4) (value : Word) (s : State) : Out := .next (s.hostWrite core.val (CAM_LNK_CCI_CMD l.val) value)

/-- CAM_CTX_READ (R342): a read of CAM_CTX_STAT(x). -/
def execCamCtxRead (core : Fin 8) (x : Fin 32) (s : State) : Out := .next (s.hostRead core.val (CAM_CTX_STAT x.val))

/-- ARB_FREEZE (R362): a write of ARB_CFG(a). -/
def execArbFreeze (core : Fin 8) (a : Fin 2) (value : Word) (s : State) : Out := .next (s.hostWrite core.val (ARB_CFG a.val) value)

/-- HOST_ARB_REQUEST (R361): a write of ARB_HREQ. -/
def execHostArbRequest (core : Fin 8) (value : Word) (s : State) : Out := .next (s.hostWrite core.val ARB_HREQ value)

/-- FUS_IMU_READ (R377): a read of FUS_IMU0. -/
def execFusImuRead (core : Fin 8) (s : State) : Out := .next (s.hostRead core.val FUS_IMU0)

/-- CAL_COMMIT (R378): a write of FUS_S_CAL_CTRL(x). -/
def execCalCommit (core : Fin 8) (x : Fin 24) (value : Word) (s : State) : Out := .next (s.hostWrite core.val (FUS_S_CAL_CTRL x.val) value)

/-- VOTE_READMIT (R401): a write of FUS_S_VOTE(x). -/
def execVoteReadmit (core : Fin 8) (x : Fin 24) (value : Word) (s : State) : Out := .next (s.hostWrite core.val (FUS_S_VOTE x.val) value)

/-- FUS_CALV_READ (R407): a read of FUS_S_CALV(x). -/
def execFusCalvRead (core : Fin 8) (x : Fin 24) (s : State) : Out := .next (s.hostRead core.val (FUS_S_CALV x.val))

/-- RECOVER (R430): a write of BUS_C_STAT(n). -/
def execBusRecover (core : Fin 8) (n : Fin 8) (value : Word) (s : State) : Out := .next (s.hostWrite core.val (BUS_C_STAT n.val) value)

/-- OBJ_SEND (R438): a write of BUS_OBJ_CTRL(x) with SEND = 1. -/
def execObjSend (core : Fin 8) (x : Fin 2048) (value : Word) (s : State) : Out :=
  .next (if bitAt value.toNat 0 then s.hostWrite core.val (BUS_OBJ_CTRL x.val) value else s)

/-- OBJ_ABORT (R438): a write of BUS_OBJ_CTRL(x) with ABORT = 1. -/
def execObjAbort (core : Fin 8) (x : Fin 2048) (value : Word) (s : State) : Out :=
  .next (if bitAt value.toNat 1 then s.hostWrite core.val (BUS_OBJ_CTRL x.val) value else s)

/-- BUS_OBJ_READ (R435): a read of BUS_OBJ_STAT(x). -/
def execBusObjRead (core : Fin 8) (x : Fin 2048) (s : State) : Out := .next (s.hostRead core.val (BUS_OBJ_STAT x.val))

/-- FL_ENABLE_WRITE (R478): a write of PNL_FL. -/
def execFlEnableWrite (core : Fin 8) (value : Word) (s : State) : Out := .next (s.hostWrite core.val PNL_FL value)

/-- USB_ENABLE (R522): a write of UPD_USB. -/
def execUsbEnable (core : Fin 8) (value : Word) (s : State) : Out := .next (s.hostWrite core.val UPD_USB value)

end Sys2Proof.Machine
end

