-- ==== Sys2Proof/Machine/Dispatch.lean ====
section
/-! DEFINITION. The meaning of a command: one arm per constructor of `Instr`, each one direct call of that command's
meaning. -/

namespace Sys2Proof.Machine

def exec (i : Instr) (s : State) : Host.Outcome State Fault Refusal :=
  match i with
  | .regWrite core addr value => Sys2Proof.Machine.execRegWrite core addr value s
  | .badAccess core addr size isWrite => Sys2Proof.Machine.execBadAccess core addr size isWrite s
  | .rcRead core addr => Sys2Proof.Machine.execRcRead core addr s
  | .dramReadUe reader addr => Sys2Proof.Machine.execDramReadUe reader addr s
  | .vsupUndervoltage mv => Sys2Proof.Machine.execVsupUndervoltage mv s
  | .vsupUvClear mv => Sys2Proof.Machine.execVsupUvClear mv s
  | .vsupOvervoltage mv => Sys2Proof.Machine.execVsupOvervoltage mv s
  | .vsupOvClear mv => Sys2Proof.Machine.execVsupOvClear mv s
  | .powerOnReset => Sys2Proof.Machine.execPowerOnReset s
  | .resetHoldEnd => Sys2Proof.Machine.execResetHoldEnd s
  | .oscillatorsReady => Sys2Proof.Machine.execOscillatorsReady s
  | .pllLock => Sys2Proof.Machine.execPllLock s
  | .safetyDomainReady ok safe => Sys2Proof.Machine.execSafetyDomainReady ok safe s
  | .dramReady => Sys2Proof.Machine.execDramReady s
  | .gessoDone readErr => Sys2Proof.Machine.execGessoDone readErr s
  | .hostFirmwareLoaded ok => Sys2Proof.Machine.execHostFirmwareLoaded ok s
  | .runEntry => Sys2Proof.Machine.execRunEntry s
  | .startRegionLoadEnd readErr caps => Sys2Proof.Machine.execStartRegionLoadEnd readErr caps s
  | .nrstAssert => Sys2Proof.Machine.execNrstAssert s
  | .moduleResetAssert src => Sys2Proof.Machine.execModuleResetAssert src s
  | .moduleResetRelease => Sys2Proof.Machine.execModuleResetRelease s
  | .keepAliveLoss => Sys2Proof.Machine.execKeepAliveLoss s
  | .vkaLow => Sys2Proof.Machine.execVkaLow s
  | .ignEdge wakePin rise => Sys2Proof.Machine.execIgnEdge wakePin rise s
  | .vlvSupplyLoss => Sys2Proof.Machine.execVlvSupplyLoss s
  | .vlvSupplyRecover => Sys2Proof.Machine.execVlvSupplyRecover s
  | .boostDischargeChangeover => Sys2Proof.Machine.execBoostDischargeChangeover s
  | .thermalUpdate tj tbp => Sys2Proof.Machine.execThermalUpdate tj tbp s
  | .wdtKick core value => Sys2Proof.Machine.execWdtKick core value s
  | .wdtPeriodWrite core value => Sys2Proof.Machine.execWdtPeriodWrite core value s
  | .wdtEarly => Sys2Proof.Machine.execWdtEarly s
  | .wdtExpire => Sys2Proof.Machine.execWdtExpire s
  | .blockReset core value => Sys2Proof.Machine.execBlockReset core value s
  | .blkRstDone => Sys2Proof.Machine.execBlkRstDone s
  | .idleRequest core value => Sys2Proof.Machine.execIdleRequest core value s
  | .idleExit => Sys2Proof.Machine.execIdleExit s
  | .parkRequest core value => Sys2Proof.Machine.execParkRequest core value s
  | .standbyRequest core value => Sys2Proof.Machine.execStandbyRequest core value s
  | .powerStateEntryDone => Sys2Proof.Machine.execPowerStateEntryDone s
  | .parkExit readErr => Sys2Proof.Machine.execParkExit readErr s
  | .canWake bus => Sys2Proof.Machine.execCanWake bus s
  | .opsecTick => Sys2Proof.Machine.execOpsecTick s
  | .kaMirrorWrite => Sys2Proof.Machine.execKaMirrorWrite s
  | .kaWritePropagate => Sys2Proof.Machine.execKaWritePropagate s
  | .enableSet core blk value => Sys2Proof.Machine.execEnableSet core blk value s
  | .checkEnqueue blk => Sys2Proof.Machine.execCheckEnqueue blk s
  | .checkEnd => Sys2Proof.Machine.execCheckEnd s
  | .reloadRequest core value => Sys2Proof.Machine.execReloadRequest core value s
  | .reloadCheckEnd readErr => Sys2Proof.Machine.execReloadCheckEnd readErr s
  | .reloadStopEnd => Sys2Proof.Machine.execReloadStopEnd s
  | .reloadLoadEnd readErr => Sys2Proof.Machine.execReloadLoadEnd readErr s
  | .reloadBind caps => Sys2Proof.Machine.execReloadBind caps s
  | .cfgCorr => Sys2Proof.Machine.execCfgCorr s
  | .cfgUncorr region => Sys2Proof.Machine.execCfgUncorr region s
  | .safeRegionUpset => Sys2Proof.Machine.execSafeRegionUpset s
  | .commandTake blk ring => Sys2Proof.Machine.execCommandTake blk ring s
  | .nop blk ring e => Sys2Proof.Machine.execNop blk ring e s
  | .unknownOpcode blk ring opcode e => Sys2Proof.Machine.execUnknownOpcode blk ring opcode e s
  | .evtSet core src value => Sys2Proof.Machine.execEvtSet core src value s
  | .tmsSnapshotRead core => Sys2Proof.Machine.execTmsSnapshotRead core s
  | .obsPush core value => Sys2Proof.Machine.execObsPush core value s
  | .obsEffect => Sys2Proof.Machine.execObsEffect s
  | .slewEnd => Sys2Proof.Machine.execSlewEnd s
  | .mtSecond => Sys2Proof.Machine.execMtSecond s
  | .tpulseFall => Sys2Proof.Machine.execTpulseFall s
  | .tpulseShort => Sys2Proof.Machine.execTpulseShort s
  | .sourceInvalid => Sys2Proof.Machine.execSourceInvalid s
  | .sourceSwitch => Sys2Proof.Machine.execSourceSwitch s
  | .holdoverExpire => Sys2Proof.Machine.execHoldoverExpire s
  | .tmsDisable => Sys2Proof.Machine.execTmsDisable s
  | .captureEdge ch rise stamp => Sys2Proof.Machine.execCaptureEdge ch rise stamp s
  | .capPop core ch => Sys2Proof.Machine.execCapPop core ch s
  | .ainSamplePublish n frames stamp => Sys2Proof.Machine.execAinSamplePublish n frames stamp s
  | .ainShunt n => Sys2Proof.Machine.execAinShunt n s
  | .ainRearm core n value => Sys2Proof.Machine.execAinRearm core n value s
  | .ainRawRead core n => Sys2Proof.Machine.execAinRawRead core n s
  | .pinEdge n rise both stamp held => Sys2Proof.Machine.execPinEdge n rise both stamp held s
  | .pinGateEnd n => Sys2Proof.Machine.execPinGateEnd n s
  | .pinStall n => Sys2Proof.Machine.execPinStall n s
  | .pinWeak n => Sys2Proof.Machine.execPinWeak n s
  | .pinValRead core n => Sys2Proof.Machine.execPinValRead core n s
  | .lacSample n sample => Sys2Proof.Machine.execLacSample n sample s
  | .lacWin n => Sys2Proof.Machine.execLacWin n s
  | .lacOpen n => Sys2Proof.Machine.execLacOpen n s
  | .lacCntRead core n => Sys2Proof.Machine.execLacCntRead core n s
  | .flowWindowEnd => Sys2Proof.Machine.execFlowWindowEnd s
  | .flowStatRead core => Sys2Proof.Machine.execFlowStatRead core s
  | .ssupFault k => Sys2Proof.Machine.execSsupFault k s
  | .ssupEnable core value => Sys2Proof.Machine.execSsupEnable core value s
  | .aoutFault n => Sys2Proof.Machine.execAoutFault n s
  | .dinEdge n edge => Sys2Proof.Machine.execDinEdge n edge s
  | .inpDisable => Sys2Proof.Machine.execInpDisable s
  | .cleStrobe => Sys2Proof.Machine.execCleStrobe s
  | .cleEvaluate slot => Sys2Proof.Machine.execCleEvaluate slot s
  | .clePhasePoint slot => Sys2Proof.Machine.execClePhasePoint slot s
  | .slotCreate ring e => Sys2Proof.Machine.execSlotCreate ring e s
  | .slotDestroy ring e => Sys2Proof.Machine.execSlotDestroy ring e s
  | .slotStart ring e => Sys2Proof.Machine.execSlotStart ring e s
  | .slotStop ring e => Sys2Proof.Machine.execSlotStop ring e s
  | .coefLive core slot word value => Sys2Proof.Machine.execCoefLive core slot word value s
  | .cleHostSourceWrite core slot meas value => Sys2Proof.Machine.execCleHostSourceWrite core slot meas value s
  | .cleSampleRead core slot => Sys2Proof.Machine.execCleSampleRead core slot s
  | .cleFrameRead core => Sys2Proof.Machine.execCleFrameRead core s
  | .cleDisable => Sys2Proof.Machine.execCleDisable s
  | .vdrTick samples vbst => Sys2Proof.Machine.execVdrTick samples vbst s
  | .fastRel k => Sys2Proof.Machine.execFastRel k s
  | .outputOvercurrent k => Sys2Proof.Machine.execOutputOvercurrent k s
  | .outputStb k => Sys2Proof.Machine.execOutputStb k s
  | .outputOpen k => Sys2Proof.Machine.execOutputOpen k s
  | .rmsWindowEnd => Sys2Proof.Machine.execRmsWindowEnd s
  | .bankOvercurrent b => Sys2Proof.Machine.execBankOvercurrent b s
  | .vdrFaultClear core reg value => Sys2Proof.Machine.execVdrFaultClear core reg value s
  | .vdrOutCfgWrite core k value => Sys2Proof.Machine.execVdrOutCfgWrite core k value s
  | .vdrSenseRead core k => Sys2Proof.Machine.execVdrSenseRead core k s
  | .boostChargeStart vbst => Sys2Proof.Machine.execBoostChargeStart vbst s
  | .boostChargeStop vbst => Sys2Proof.Machine.execBoostChargeStop vbst s
  | .bstOvp vbst => Sys2Proof.Machine.execBstOvp vbst s
  | .vdrDisable => Sys2Proof.Machine.execVdrDisable s
  | .strokeWaitEnd k => Sys2Proof.Machine.execStrokeWaitEnd k s
  | .strokeRampEnd k => Sys2Proof.Machine.execStrokeRampEnd k s
  | .wcurTimeout k => Sys2Proof.Machine.execWcurTimeout k s
  | .wtrgTimeout k => Sys2Proof.Machine.execWtrgTimeout k s
  | .boostNrdy k => Sys2Proof.Machine.execBoostNrdy k s
  | .strokeTriggerEdge n stamp => Sys2Proof.Machine.execStrokeTriggerEdge n stamp s
  | .softTrigger core value => Sys2Proof.Machine.execSoftTrigger core value s
  | .strokeStart ring e => Sys2Proof.Machine.execStrokeStart ring e s
  | .strokeCancel ring e => Sys2Proof.Machine.execStrokeCancel ring e s
  | .strokeStartDue x => Sys2Proof.Machine.execStrokeStartDue x s
  | .deferExpire x => Sys2Proof.Machine.execDeferExpire x s
  | .vdrCtxRead core k => Sys2Proof.Machine.execVdrCtxRead core k s
  | .sinPinChange pair memberB reading stamp => Sys2Proof.Machine.execSinPinChange pair memberB reading stamp s
  | .pairDisc pair => Sys2Proof.Machine.execPairDisc pair s
  | .stpPulse stp => Sys2Proof.Machine.execStpPulse stp s
  | .stpMaskEnd stp failed => Sys2Proof.Machine.execStpMaskEnd stp failed s
  | .rearmComplete who => Sys2Proof.Machine.execRearmComplete who s
  | .switchTest c upper => Sys2Proof.Machine.execSwitchTest c upper s
  | .switchTestEnd c ok => Sys2Proof.Machine.execSwitchTestEnd c ok s
  | .soutOvercurrent c => Sys2Proof.Machine.execSoutOvercurrent c s
  | .sfbChange c closed => Sys2Proof.Machine.execSfbChange c closed s
  | .feedbackTimeout c which => Sys2Proof.Machine.execFeedbackTimeout c which s
  | .lockstepMismatch => Sys2Proof.Machine.execLockstepMismatch s
  | .selftest pass => Sys2Proof.Machine.execSelftest pass s
  | .safetyResetRequest => Sys2Proof.Machine.execSafetyResetRequest s
  | .degExpire => Sys2Proof.Machine.execDegExpire s
  | .partnerSafetyField sstate sseq pad scrc => Sys2Proof.Machine.execPartnerSafetyField sstate sseq pad scrc s
  | .partnerLost => Sys2Proof.Machine.execPartnerLost s
  | .mbxEnergise => Sys2Proof.Machine.execMbxEnergise s
  | .mbxRelease => Sys2Proof.Machine.execMbxRelease s
  | .mbxAck => Sys2Proof.Machine.execMbxAck s
  | .mbxReset => Sys2Proof.Machine.execMbxReset s
  | .mbxUnknownOp => Sys2Proof.Machine.execMbxUnknownOp s
  | .rfInterf c clips power mean gain => Sys2Proof.Machine.execRfInterf c clips power mean gain s
  | .notchLock c freq level width => Sys2Proof.Machine.execNotchLock c freq level width s
  | .antFault a ma => Sys2Proof.Machine.execAntFault a ma s
  | .antBiasEnable core a value => Sys2Proof.Machine.execAntBiasEnable core a value s
  | .acqStart ring e => Sys2Proof.Machine.execAcqStart ring e s
  | .acqDone k bin code dop peak second noise cn0 => Sys2Proof.Machine.execAcqDone k bin code dop peak second noise cn0 s
  | .chCreate ring e => Sys2Proof.Machine.execChCreate ring e s
  | .gnbSteer ring e => Sys2Proof.Machine.execGnbSteer ring e s
  | .chDestroy ring e => Sys2Proof.Machine.execChDestroy ring e s
  | .chResolve ring e => Sys2Proof.Machine.execChResolve ring e s
  | .channelBoundary x n gain => Sys2Proof.Machine.execChannelBoundary x n gain s
  | .accTimeout => Sys2Proof.Machine.execAccTimeout s
  | .gnbDisable => Sys2Proof.Machine.execGnbDisable s
  | .gnbScRead core which => Sys2Proof.Machine.execGnbScRead core which s
  | .measStrobe => Sys2Proof.Machine.execMeasStrobe s
  | .measBlockWrite => Sys2Proof.Machine.execMeasBlockWrite s
  | .camLink l up gear => Sys2Proof.Machine.execCamLink l up gear s
  | .pocShort l => Sys2Proof.Machine.execPocShort l s
  | .pocOpen l ma => Sys2Proof.Machine.execPocOpen l ma s
  | .linkCfgWrite core l value => Sys2Proof.Machine.execLinkCfgWrite core l value s
  | .csiPacket src hdr => Sys2Proof.Machine.execCsiPacket src hdr s
  | .frameStart src no => Sys2Proof.Machine.execFrameStart src no s
  | .frameEnd src => Sys2Proof.Machine.execFrameEnd src s
  | .linePacket src dt payload crcOk => Sys2Proof.Machine.execLinePacket src dt payload crcOk s
  | .frameTimeout src => Sys2Proof.Machine.execFrameTimeout src s
  | .pipelineLine p => Sys2Proof.Machine.execPipelineLine p s
  | .pipelineSwitch p => Sys2Proof.Machine.execPipelineSwitch p s
  | .camFrame => Sys2Proof.Machine.execCamFrame s
  | .cciStart core l value => Sys2Proof.Machine.execCciStart core l value s
  | .cciEnd l result data => Sys2Proof.Machine.execCciEnd l result data s
  | .ctxCreate ring e => Sys2Proof.Machine.execCtxCreate ring e s
  | .ctxDestroy ring e => Sys2Proof.Machine.execCtxDestroy ring e s
  | .ctxPalette ring e => Sys2Proof.Machine.execCtxPalette ring e s
  | .bufGive ring e => Sys2Proof.Machine.execBufGive ring e s
  | .ctxBind ring e => Sys2Proof.Machine.execCtxBind ring e s
  | .camCtxRead core x => Sys2Proof.Machine.execCamCtxRead core x s
  | .camDisable => Sys2Proof.Machine.execCamDisable s
  | .pkgLoad ring e => Sys2Proof.Machine.execPkgLoad ring e s
  | .pkgLoadDone slot => Sys2Proof.Machine.execPkgLoadDone slot s
  | .pkgUnload ring e => Sys2Proof.Machine.execPkgUnload ring e s
  | .fenStreamCreate ring e => Sys2Proof.Machine.execFenStreamCreate ring e s
  | .fenStreamDestroy ring e => Sys2Proof.Machine.execFenStreamDestroy ring e s
  | .fenJob ring e => Sys2Proof.Machine.execFenJob ring e s
  | .jobRequest x => Sys2Proof.Machine.execJobRequest x s
  | .jobComplete x => Sys2Proof.Machine.execJobComplete x s
  | .fenSramCorrected => Sys2Proof.Machine.execFenSramCorrected s
  | .sramUe slot => Sys2Proof.Machine.execSramUe slot s
  | .fenDisable => Sys2Proof.Machine.execFenDisable s
  | .arbDecide a commit => Sys2Proof.Machine.execArbDecide a commit s
  | .arbFreeze core a value => Sys2Proof.Machine.execArbFreeze core a value s
  | .arbStarve k => Sys2Proof.Machine.execArbStarve k s
  | .hostArbRequest core value => Sys2Proof.Machine.execHostArbRequest core value s
  | .reqCreate ring e => Sys2Proof.Machine.execReqCreate ring e s
  | .reqDestroy ring e => Sys2Proof.Machine.execReqDestroy ring e s
  | .reqClass ring e => Sys2Proof.Machine.execReqClass ring e s
  | .srcCreate ring e => Sys2Proof.Machine.execSrcCreate ring e s
  | .srcDestroy ring e => Sys2Proof.Machine.execSrcDestroy ring e s
  | .fusSubmit ring e => Sys2Proof.Machine.execFusSubmit ring e s
  | .contributionArrive => Sys2Proof.Machine.execContributionArrive s
  | .imuSample gx gy gz ax ay az => Sys2Proof.Machine.execImuSample gx gy gz ax ay az s
  | .fusImuRead core => Sys2Proof.Machine.execFusImuRead core s
  | .instantBoundary => Sys2Proof.Machine.execInstantBoundary s
  | .instantClose => Sys2Proof.Machine.execInstantClose s
  | .publicationStart => Sys2Proof.Machine.execPublicationStart s
  | .instantEnd => Sys2Proof.Machine.execInstantEnd s
  | .calCommit core x value => Sys2Proof.Machine.execCalCommit core x value s
  | .voteReadmit core x value => Sys2Proof.Machine.execVoteReadmit core x value s
  | .fusCalvRead core x => Sys2Proof.Machine.execFusCalvRead core x s
  | .fusDisable => Sys2Proof.Machine.execFusDisable s
  | .yldCompute => Sys2Proof.Machine.execYldCompute s
  | .yldTile => Sys2Proof.Machine.execYldTile s
  | .layerCreate ring e => Sys2Proof.Machine.execLayerCreate ring e s
  | .layerDestroy ring e => Sys2Proof.Machine.execLayerDestroy ring e s
  | .yldPose ring e => Sys2Proof.Machine.execYldPose ring e s
  | .yldFlush ring e => Sys2Proof.Machine.execYldFlush ring e s
  | .yldDisable => Sys2Proof.Machine.execYldDisable s
  | .canFrameRx n id fdf brs esi dlc data sof => Sys2Proof.Machine.execCanFrameRx n id fdf brs esi dlc data sof s
  | .canTxDone n x sof => Sys2Proof.Machine.execCanTxDone n x sof s
  | .canTxError n x kind => Sys2Proof.Machine.execCanTxError n x kind s
  | .busOff n => Sys2Proof.Machine.execBusOff n s
  | .busOffRecovered n => Sys2Proof.Machine.execBusOffRecovered n s
  | .busRecover core n value => Sys2Proof.Machine.execBusRecover core n value s
  | .txdDom n => Sys2Proof.Machine.execTxdDom n s
  | .busDom n => Sys2Proof.Machine.execBusDom n s
  | .objSend core x value => Sys2Proof.Machine.execObjSend core x value s
  | .objAbort core x value => Sys2Proof.Machine.execObjAbort core x value s
  | .busObjRead core x => Sys2Proof.Machine.execBusObjRead core x s
  | .tpFrameRx n id data sof => Sys2Proof.Machine.execTpFrameRx n id data sof s
  | .tpTimeout k => Sys2Proof.Machine.execTpTimeout k s
  | .bamGap k => Sys2Proof.Machine.execBamGap k s
  | .tpDelivery k => Sys2Proof.Machine.execTpDelivery k s
  | .objCreate ring e => Sys2Proof.Machine.execObjCreate ring e s
  | .objDestroy ring e => Sys2Proof.Machine.execObjDestroy ring e s
  | .qCreate ring e => Sys2Proof.Machine.execQCreate ring e s
  | .qDestroy ring e => Sys2Proof.Machine.execQDestroy ring e s
  | .tpSend ring e => Sys2Proof.Machine.execTpSend ring e s
  | .tpAbort ring e => Sys2Proof.Machine.execTpAbort ring e s
  | .busDisable => Sys2Proof.Machine.execBusDisable s
  | .ethFrameRx p frame fcsOk full stamp => Sys2Proof.Machine.execEthFrameRx p frame fcsOk full stamp s
  | .macAgeOut vid mac => Sys2Proof.Machine.execMacAgeOut vid mac s
  | .gptpSync twoStep seq origin corr stamp => Sys2Proof.Machine.execGptpSync twoStep seq origin corr stamp s
  | .gptpFollowUp seq origin corr => Sys2Proof.Machine.execGptpFollowUp seq origin corr s
  | .followUpTimeout => Sys2Proof.Machine.execFollowUpTimeout s
  | .pdelayReq ok delay => Sys2Proof.Machine.execPdelayReq ok delay s
  | .gptpState => Sys2Proof.Machine.execGptpState s
  | .lidarFragment f payload => Sys2Proof.Machine.execLidarFragment f payload s
  | .fltRx payload stamp => Sys2Proof.Machine.execFltRx payload stamp s
  | .peerCreate ring e => Sys2Proof.Machine.execPeerCreate ring e s
  | .peerDestroy ring e => Sys2Proof.Machine.execPeerDestroy ring e s
  | .fleetSend ring e => Sys2Proof.Machine.execFleetSend ring e s
  | .keyLoad ring e => Sys2Proof.Machine.execKeyLoad ring e s
  | .keyErase ring e => Sys2Proof.Machine.execKeyErase ring e s
  | .frameTx ring e => Sys2Proof.Machine.execFrameTx ring e s
  | .ethTxComplete p => Sys2Proof.Machine.execEthTxComplete p s
  | .ethLinkChange p up => Sys2Proof.Machine.execEthLinkChange p up s
  | .ethDisable => Sys2Proof.Machine.execEthDisable s
  | .pairCycle => Sys2Proof.Machine.execPairCycle s
  | .headRx lane cell stamp => Sys2Proof.Machine.execHeadRx lane cell stamp s
  | .sigRx lane cell => Sys2Proof.Machine.execSigRx lane cell s
  | .bulkRx lane cell => Sys2Proof.Machine.execBulkRx lane cell s
  | .laneTimeout lane => Sys2Proof.Machine.execLaneTimeout lane s
  | .bodySend ring e => Sys2Proof.Machine.execBodySend ring e s
  | .bodySendDone => Sys2Proof.Machine.execBodySendDone s
  | .pairDisable => Sys2Proof.Machine.execPairDisable s
  | .pnlPowerOn ring e => Sys2Proof.Machine.execPnlPowerOn ring e s
  | .pnlPowerOff ring e => Sys2Proof.Machine.execPnlPowerOff ring e s
  | .pnlRefresh ring e => Sys2Proof.Machine.execPnlRefresh ring e s
  | .pnlDischarge ring e => Sys2Proof.Machine.execPnlDischarge ring e s
  | .pnlRailReady rail => Sys2Proof.Machine.execPnlRailReady rail s
  | .pnlFrame => Sys2Proof.Machine.execPnlFrame s
  | .railFault rail => Sys2Proof.Machine.execRailFault rail s
  | .panelRemoved => Sys2Proof.Machine.execPanelRemoved s
  | .ptempMeasure t => Sys2Proof.Machine.execPtempMeasure t s
  | .flFault short => Sys2Proof.Machine.execFlFault short s
  | .flEnableWrite core value => Sys2Proof.Machine.execFlEnableWrite core value s
  | .pnlDisable => Sys2Proof.Machine.execPnlDisable s
  | .recScanEnd => Sys2Proof.Machine.execRecScanEnd s
  | .recStreamCreate ring e => Sys2Proof.Machine.execRecStreamCreate ring e s
  | .recStreamDestroy ring e => Sys2Proof.Machine.execRecStreamDestroy ring e s
  | .recPut ring e => Sys2Proof.Machine.execRecPut ring e s
  | .recFlush ring e => Sys2Proof.Machine.execRecFlush ring e s
  | .recExport ring e => Sys2Proof.Machine.execRecExport ring e s
  | .expDone => Sys2Proof.Machine.execExpDone s
  | .recWindowClose => Sys2Proof.Machine.execRecWindowClose s
  | .recDisable => Sys2Proof.Machine.execRecDisable s
  | .updStage ring e => Sys2Proof.Machine.execUpdStage ring e s
  | .stagingEnd stop => Sys2Proof.Machine.execStagingEnd stop s
  | .updAbort ring e => Sys2Proof.Machine.execUpdAbort ring e s
  | .updVarnish ring e => Sys2Proof.Machine.execUpdVarnish ring e s
  | .updConfirm ring e => Sys2Proof.Machine.execUpdConfirm ring e s
  | .lcChange ring e => Sys2Proof.Machine.execLcChange ring e s
  | .keyProg ring e => Sys2Proof.Machine.execKeyProg ring e s
  | .usbEnable core value => Sys2Proof.Machine.execUsbEnable core value s
  | .usbData data => Sys2Proof.Machine.execUsbData data s
  | .usbRecovery pkg stop => Sys2Proof.Machine.execUsbRecovery pkg stop s
  | .updDisable => Sys2Proof.Machine.execUpdDisable s
  | .vlvSupplyReturn => Sys2Proof.Machine.execVlvSupplyReturn s
  | .ssupLimit k ovr => Sys2Proof.Machine.execSsupLimit k ovr s
  | .canRxError n kind => Sys2Proof.Machine.execCanRxError n kind s
  | .canBusIntegration n => Sys2Proof.Machine.execCanBusIntegration n s
  | .antOpenClear a ma => Sys2Proof.Machine.execAntOpenClear a ma s
  | .pocOpenClear l ma => Sys2Proof.Machine.execPocOpenClear l ma s
  | .pairCellCrcFail lane => Sys2Proof.Machine.execPairCellCrcFail lane s
  | .pdetChange present => Sys2Proof.Machine.execPdetChange present s
  | .pnlRailDown rail => Sys2Proof.Machine.execPnlRailDown rail s
  | .usbVbusChange present => Sys2Proof.Machine.execUsbVbusChange present s

end Sys2Proof.Machine
end

