-- ==== Sys2Proof/WellFormed.lean ====
section
/-! DEFINITION. When the operands of a command can occur on the hardware: a read or write that is no bad access goes to an aligned
word of the peripheral space, a stamp is a 64-bit LTC, a cell, a frame or a payload has a length its link can carry, a ring is one
its block has. The meanings are total; statements that need one of these facts take it from here. -/

namespace Sys2Proof

/-- An aligned word of the peripheral windows (R10, Table 1-1). -/
def wfAddr (addr : Nat) : Bool := 0xC0000000 ≤ addr && addr < 0xD5000000 && addr % 4 = 0

/-- An access that is not an aligned 32-bit access of a window (R10). -/
def wfBad (addr size : Nat) : Bool :=
  0xC0000000 ≤ addr && addr < 0xE0000000 && [1, 2, 4, 8, 16].contains size && !(size = 4 && wfAddr addr)

/-- A byte address of usable DRAM (Table 1-4). -/
def wfDram (addr : Nat) : Bool := addr < Machine.dramSize

/-- A supply voltage in mV that SYS_SUPPLY.VSUP_MV can show. -/
def wfMv (mv : Nat) : Bool := mv < 65536

/-- Image values listed under rising keys. -/
def wfKeys (l : List (Nat × Word)) : Bool := Machine.tsorted l

/-- A ring of the block (R118). -/
def wfRing (blk ring : Nat) : Bool := ring < Machine.ringCount blk

/-- A 64-bit stamp (R133). -/
def wfStamp (stamp : Nat) : Bool := stamp < 2 ^ 64

/-- At least one conversion frame, each the sum of up to four 16-bit conversions (R151, R152). -/
def wfFrames (l : List Nat) : Bool := !l.isEmpty && l.all (· ≤ 4 * 65535)

/-- At most one sample of an output in a tick. -/
def wfSamples (l : List (Fin 64 × BitVec 12)) : Bool := Machine.tsorted (l.map fun x => (x.1.val, x.2))

/-- A payload of `lo` to `hi` bytes. -/
def wfLen (lo hi : Nat) (l : List Byte) : Bool := lo ≤ l.length && l.length ≤ hi

/-- The number of bytes a DLC stands for. -/
def wfCanLen (fdf : Bool) (dlc : Nat) : Nat :=
  if dlc ≤ 8 then dlc else if fdf then [12, 16, 20, 24, 32, 48, 64].getD (dlc - 9) 64 else 8

/-- A CAN frame carries the bytes its DLC stands for; a remote frame carries none. -/
def wfCanData (fdf : Bool) (dlc : Nat) (data : List Byte) : Bool := data.length = wfCanLen fdf dlc || data.isEmpty

/-- An 80-bit originTimestamp in nanoseconds: 48 bits of seconds. -/
def wfOrigin (origin : Nat) : Bool := origin < 2 ^ 48 * 1000000000

/-- The operands of a command can occur. -/
def Instr.wf : Instr → Bool
  | .regWrite _ addr _ => wfAddr addr
  | .badAccess _ addr size _ => wfBad addr size
  | .rcRead _ addr => wfAddr addr
  | .dramReadUe _ addr => wfDram addr
  | .vsupUndervoltage mv => wfMv mv
  | .vsupUvClear mv => wfMv mv
  | .vsupOvervoltage mv => wfMv mv
  | .vsupOvClear mv => wfMv mv
  | .powerOnReset => true
  | .resetHoldEnd => true
  | .oscillatorsReady => true
  | .pllLock => true
  | .safetyDomainReady _ safe => wfKeys safe
  | .dramReady => true
  | .gessoDone _ => true
  | .hostFirmwareLoaded _ => true
  | .runEntry => true
  | .startRegionLoadEnd _ caps => wfKeys caps
  | .nrstAssert => true
  | .moduleResetAssert _ => true
  | .moduleResetRelease => true
  | .keepAliveLoss => true
  | .vkaLow => true
  | .ignEdge _ _ => true
  | .vlvSupplyLoss => true
  | .vlvSupplyRecover => true
  | .boostDischargeChangeover => true
  | .thermalUpdate _ _ => true
  | .wdtKick _ _ => true
  | .wdtPeriodWrite _ _ => true
  | .wdtEarly => true
  | .wdtExpire => true
  | .blockReset _ _ => true
  | .blkRstDone => true
  | .idleRequest _ _ => true
  | .idleExit => true
  | .parkRequest _ _ => true
  | .standbyRequest _ _ => true
  | .powerStateEntryDone => true
  | .parkExit _ => true
  | .canWake _ => true
  | .opsecTick => true
  | .kaMirrorWrite => true
  | .kaWritePropagate => true
  | .enableSet _ _ _ => true
  | .checkEnqueue _ => true
  | .checkEnd => true
  | .reloadRequest _ _ => true
  | .reloadCheckEnd _ => true
  | .reloadStopEnd => true
  | .reloadLoadEnd _ => true
  | .reloadBind caps => wfKeys caps
  | .cfgCorr => true
  | .cfgUncorr _ => true
  | .safeRegionUpset => true
  | .commandTake blk ring => wfRing blk.val ring.val
  | .nop blk ring _ => wfRing blk.val ring.val
  | .unknownOpcode blk ring _ _ => wfRing blk.val ring.val
  | .evtSet _ _ _ => true
  | .tmsSnapshotRead _ => true
  | .obsPush _ _ => true
  | .obsEffect => true
  | .slewEnd => true
  | .mtSecond => true
  | .tpulseFall => true
  | .tpulseShort => true
  | .sourceInvalid => true
  | .sourceSwitch => true
  | .holdoverExpire => true
  | .tmsDisable => true
  | .captureEdge _ _ stamp => wfStamp stamp
  | .capPop _ _ => true
  | .ainSamplePublish _ frames stamp => wfStamp stamp && wfFrames frames
  | .ainShunt _ => true
  | .ainRearm _ _ _ => true
  | .ainRawRead _ _ => true
  | .pinEdge _ _ _ stamp _ => wfStamp stamp
  | .pinGateEnd _ => true
  | .pinStall _ => true
  | .pinWeak _ => true
  | .pinValRead _ _ => true
  | .lacSample _ sample => wfStamp sample.stamp
  | .lacWin _ => true
  | .lacOpen _ => true
  | .lacCntRead _ _ => true
  | .flowWindowEnd => true
  | .flowStatRead _ => true
  | .ssupFault _ => true
  | .ssupEnable _ _ => true
  | .aoutFault _ => true
  | .dinEdge _ _ => true
  | .inpDisable => true
  | .cleStrobe => true
  | .cleEvaluate _ => true
  | .clePhasePoint _ => true
  | .slotCreate _ _ => true
  | .slotDestroy _ _ => true
  | .slotStart _ _ => true
  | .slotStop _ _ => true
  | .coefLive _ _ _ _ => true
  | .cleHostSourceWrite _ _ _ _ => true
  | .cleSampleRead _ _ => true
  | .cleFrameRead _ => true
  | .cleDisable => true
  | .vdrTick samples _ => wfSamples samples
  | .fastRel k => wfSamples k.samples
  | .outputOvercurrent _ => true
  | .outputStb _ => true
  | .outputOpen _ => true
  | .rmsWindowEnd => true
  | .bankOvercurrent _ => true
  | .vdrFaultClear _ _ _ => true
  | .vdrOutCfgWrite _ _ _ => true
  | .vdrSenseRead _ _ => true
  | .boostChargeStart _ => true
  | .boostChargeStop _ => true
  | .bstOvp _ => true
  | .vdrDisable => true
  | .strokeWaitEnd k => wfSamples k.samples
  | .strokeRampEnd k => wfSamples k.samples
  | .wcurTimeout k => wfSamples k.samples
  | .wtrgTimeout k => wfSamples k.samples
  | .boostNrdy k => wfSamples k.samples
  | .strokeTriggerEdge _ stamp => wfStamp stamp
  | .softTrigger _ _ => true
  | .strokeStart _ _ => true
  | .strokeCancel _ _ => true
  | .strokeStartDue x => wfSamples x.samples
  | .deferExpire x => wfSamples x.samples
  | .vdrCtxRead _ _ => true
  | .sinPinChange _ _ _ stamp => wfStamp stamp
  | .pairDisc _ => true
  | .stpPulse _ => true
  | .stpMaskEnd _ _ => true
  | .rearmComplete _ => true
  | .switchTest _ _ => true
  | .switchTestEnd _ _ => true
  | .soutOvercurrent _ => true
  | .sfbChange _ _ => true
  | .feedbackTimeout _ _ => true
  | .lockstepMismatch => true
  | .selftest _ => true
  | .safetyResetRequest => true
  | .degExpire => true
  | .partnerSafetyField _ _ _ _ => true
  | .partnerLost => true
  | .mbxEnergise => true
  | .mbxRelease => true
  | .mbxAck => true
  | .mbxReset => true
  | .mbxUnknownOp => true
  | .rfInterf _ clips _ _ _ => decide (clips.toNat ≤ 81840)
  | .notchLock _ _ _ _ => true
  | .antFault _ _ => true
  | .antBiasEnable _ _ _ => true
  | .acqStart _ _ => true
  | .acqDone _ _ _ _ _ _ _ _ => true
  | .chCreate _ _ => true
  | .gnbSteer _ _ => true
  | .chDestroy _ _ => true
  | .chResolve _ _ => true
  | .channelBoundary _ _ _ => true
  | .accTimeout => true
  | .gnbDisable => true
  | .gnbScRead _ _ => true
  | .measStrobe => true
  | .measBlockWrite => true
  | .camLink _ _ _ => true
  | .pocShort _ => true
  | .pocOpen _ _ => true
  | .linkCfgWrite _ _ _ => true
  | .csiPacket _ _ => true
  | .frameStart _ _ => true
  | .frameEnd _ => true
  | .linePacket _ _ payload _ => wfLen 0 65535 payload
  | .frameTimeout _ => true
  | .pipelineLine _ => true
  | .pipelineSwitch _ => true
  | .camFrame => true
  | .cciStart _ _ _ => true
  | .cciEnd _ _ _ => true
  | .ctxCreate _ _ => true
  | .ctxDestroy _ _ => true
  | .ctxPalette _ _ => true
  | .bufGive _ _ => true
  | .ctxBind _ _ => true
  | .camCtxRead _ _ => true
  | .camDisable => true
  | .pkgLoad _ _ => true
  | .pkgLoadDone _ => true
  | .pkgUnload _ _ => true
  | .fenStreamCreate _ _ => true
  | .fenStreamDestroy _ _ => true
  | .fenJob _ _ => true
  | .jobRequest _ => true
  | .jobComplete _ => true
  | .fenSramCorrected => true
  | .sramUe _ => true
  | .fenDisable => true
  | .arbDecide _ _ => true
  | .arbFreeze _ _ _ => true
  | .arbStarve _ => true
  | .hostArbRequest _ _ => true
  | .reqCreate _ _ => true
  | .reqDestroy _ _ => true
  | .reqClass _ _ => true
  | .srcCreate _ _ => true
  | .srcDestroy _ _ => true
  | .fusSubmit _ _ => true
  | .contributionArrive => true
  | .imuSample _ _ _ _ _ _ => true
  | .fusImuRead _ => true
  | .instantBoundary => true
  | .instantClose => true
  | .publicationStart => true
  | .instantEnd => true
  | .calCommit _ _ _ => true
  | .voteReadmit _ _ _ => true
  | .fusCalvRead _ _ => true
  | .fusDisable => true
  | .yldCompute => true
  | .yldTile => true
  | .layerCreate _ _ => true
  | .layerDestroy _ _ => true
  | .yldPose _ _ => true
  | .yldFlush _ _ => true
  | .yldDisable => true
  | .canFrameRx _ _ fdf _ _ dlc data sof => wfStamp sof && wfCanData fdf dlc.val data
  | .canTxDone _ _ sof => wfStamp sof
  | .canTxError _ _ _ => true
  | .busOff _ => true
  | .busOffRecovered _ => true
  | .busRecover _ _ _ => true
  | .txdDom _ => true
  | .busDom _ => true
  | .objSend _ _ _ => true
  | .objAbort _ _ _ => true
  | .busObjRead _ _ => true
  | .tpFrameRx _ _ data sof => wfStamp sof && wfLen 0 8 data
  | .tpTimeout _ => true
  | .bamGap _ => true
  | .tpDelivery _ => true
  | .objCreate _ _ => true
  | .objDestroy _ _ => true
  | .qCreate _ _ => true
  | .qDestroy _ _ => true
  | .tpSend _ _ => true
  | .tpAbort _ _ => true
  | .busDisable => true
  | .ethFrameRx _ _ _ _ stamp => wfStamp stamp
  | .macAgeOut _ _ => true
  | .gptpSync _ _ origin _ stamp => wfStamp stamp && wfOrigin origin
  | .gptpFollowUp _ origin _ => wfOrigin origin
  | .followUpTimeout => true
  | .pdelayReq _ _ => true
  | .gptpState => true
  | .lidarFragment _ payload => wfLen 0 1476 payload
  | .fltRx payload stamp => wfStamp stamp && wfLen 0 1476 payload
  | .peerCreate _ _ => true
  | .peerDestroy _ _ => true
  | .fleetSend _ _ => true
  | .keyLoad _ _ => true
  | .keyErase _ _ => true
  | .frameTx _ _ => true
  | .ethTxComplete _ => true
  | .ethLinkChange _ _ => true
  | .ethDisable => true
  | .pairCycle => true
  | .headRx _ cell stamp => wfStamp stamp && wfLen 64 64 cell
  | .sigRx _ cell => wfLen 64 64 cell
  | .bulkRx _ cell => wfLen 64 64 cell
  | .laneTimeout _ => true
  | .bodySend _ _ => true
  | .bodySendDone => true
  | .pairDisable => true
  | .pnlPowerOn _ _ => true
  | .pnlPowerOff _ _ => true
  | .pnlRefresh _ _ => true
  | .pnlDischarge _ _ => true
  | .pnlRailReady _ => true
  | .pnlFrame => true
  | .railFault _ => true
  | .panelRemoved => true
  | .ptempMeasure _ => true
  | .flFault _ => true
  | .flEnableWrite _ _ => true
  | .pnlDisable => true
  | .recScanEnd => true
  | .recStreamCreate _ _ => true
  | .recStreamDestroy _ _ => true
  | .recPut _ _ => true
  | .recFlush _ _ => true
  | .recExport _ _ => true
  | .expDone => true
  | .recWindowClose => true
  | .recDisable => true
  | .updStage _ _ => true
  | .stagingEnd _ => true
  | .updAbort _ _ => true
  | .updVarnish _ _ => true
  | .updConfirm _ _ => true
  | .lcChange _ _ => true
  | .keyProg _ _ => true
  | .usbEnable _ _ => true
  | .usbData _ => true
  | .usbRecovery _ _ => true
  | .updDisable => true
  | .vlvSupplyReturn => true
  | .ssupLimit _ _ => true
  | .canRxError _ _ => true
  | .canBusIntegration _ => true
  | .antOpenClear _ _ => true
  | .pocOpenClear _ _ => true
  | .pairCellCrcFail _ => true
  | .pdetChange _ => true
  | .pnlRailDown _ => true
  | .usbVbusChange _ => true

end Sys2Proof
end

