-- ==== Sys2Proof/Safety.lean ====
section
/-! DEFINITION. What statements take for granted or promise about a state: the canonical form of its register file and its memories,
and agreement of two states outside the parts a command may touch. -/

namespace Sys2Proof.Machine

/-- The register file is in canonical form: addresses strictly rising, no register listed at its reset value. -/
def regsWf (r : Tbl Word) : Bool := tsorted r && r.all fun e => decide (e.2 ≠ resetOf e.1)

/-- The state is in canonical form: register file, DRAM, MRAM and UFS. -/
def State.wf (s : State) : Bool := regsWf s.regs && memWf s.dram && memWf s.mram && memWf s.ufs

/-- The parts of the state that stand beside the registers. -/
inductive Comp where
  | ltc | latch | img | access | dram | mram | ufs | sys | ka | cyc | str | rings | gens | nv | tms | inp | cle | vdr | stk | saf | gnb | cam | fen | arb
  | fus | yld | bus | eth | pair | pnl | rcd | upd | free
  deriving DecidableEq, Repr

/-- Two states hold the same in a part. -/
def State.same (s t : State) : Comp → Prop
  | .ltc => t.ltc = s.ltc
  | .latch => t.latch = s.latch
  | .img => t.img = s.img
  | .access => t.access = s.access
  | .dram => t.dram = s.dram
  | .mram => t.mram = s.mram
  | .ufs => t.ufs = s.ufs
  | .sys => t.sys = s.sys
  | .ka => t.ka = s.ka
  | .cyc => t.cyc = s.cyc
  | .str => t.str = s.str
  | .rings => t.rings = s.rings
  | .gens => t.gens = s.gens
  | .nv => t.nv = s.nv
  | .tms => t.tms = s.tms
  | .inp => t.inp = s.inp
  | .cle => t.cle = s.cle
  | .vdr => t.vdr = s.vdr
  | .stk => t.stk = s.stk
  | .saf => t.saf = s.saf
  | .gnb => t.gnb = s.gnb
  | .cam => t.cam = s.cam
  | .fen => t.fen = s.fen
  | .arb => t.arb = s.arb
  | .fus => t.fus = s.fus
  | .yld => t.yld = s.yld
  | .bus => t.bus = s.bus
  | .eth => t.eth = s.eth
  | .pair => t.pair = s.pair
  | .pnl => t.pnl = s.pnl
  | .rcd => t.rcd = s.rcd
  | .upd => t.upd = s.upd
  | .free => t.free = s.free

/-- Nothing differs but the parts `ps` and the registers `rs`; the part number and the queue stay. -/
def State.keeps (ps : List Comp) (rs : List Nat) (s t : State) : Prop :=
  (∀ p, p ∉ ps → s.same t p) ∧ (∀ a, a ∉ rs → t.reg a = s.reg a) ∧ t.part = s.part ∧ t.pending = s.pending

/-- The peripheral window of an address: bits 31:24 (Table 1-1). -/
def windowOf (a : Nat) : Nat := a / 0x1000000

/-- Nothing differs but the parts `ps` and registers of the windows `ws` (none: any register); the part number and the queue stay. -/
def State.within (ps : List Comp) (ws : Option (List Nat)) (s t : State) : Prop :=
  (∀ p, p ∉ ps → s.same t p) ∧ (∀ a l, ws = some l → windowOf a ∉ l → t.reg a = s.reg a) ∧ t.part = s.part ∧ t.pending = s.pending

/-- Between `s` and `t` the module's reset took place (Table 3-4): `t` is at reset but for the storage, what pins and sensors show,
the energy capacitor's discharge and the factory's registers, which are as in `s`; of SYS, the keep-alive domain, the system area and the
model's own counter of free values it says nothing. -/
def State.wiped (s t : State) : Prop :=
  (∀ p ∈ [Comp.ltc, .latch, .img, .access, .dram, .cyc, .str, .rings, .gens, .tms, .cle, .stk, .gnb, .cam, .fen, .arb, .fus, .yld, .bus, .eth, .pair, .rcd],
    State.reset.same t p) ∧
  (∀ p ∈ [Comp.mram, .ufs], s.same t p) ∧ t.part = s.part ∧ t.pending = s.pending ∧
  t.vdr = { discharge := s.vdr.discharge.started, recovery := s.vdr.recovery } ∧ t.inp = { pins := s.inpWiped.pins } ∧
  t.saf = { pins := s.saf.pins } ∧ t.pnl = { pdet := s.pnl.pdet, pdetAt := 0 } ∧ t.upd = { vbus := s.upd.vbus } ∧
  (∀ e ∈ keptRegs, e.1 ≠ KA_OPSEC → e.1 ≠ KA_PWRCYC → e.1 ≠ KA_FLAGS → t.reg e.1 = s.keptReg e.1 e.2) ∧
  ∀ a, a ∉ keptRegs.map (·.1) → t.reg a = resetOf a

/-- Registers of a block's window that a block reset need not put at reset: what pins and the capacitor show, the factory's, UPD's nonce
(log entry 108) and ARB's requests, which the blocks behind keep raised. -/
def blkKept : List Nat :=
  [VDR_BST_STAT, ETH_MAC_LO, ETH_MAC_HI, PNL_STAT, UPD_DEVID_LO, UPD_DEVID_HI, UPD_DEVINFO, UPD_SLOT_LBA_LO 0, UPD_SLOT_LBA_HI 0, UPD_SLOT_LBA_LO 1,
    UPD_SLOT_LBA_HI 1, UPD_SLOT_BLKS, UPD_NONCE 0, UPD_NONCE 1, UPD_NONCE 2, UPD_NONCE 3] ++ (List.range 24).map ARB_REQ

/-- The parts of the state that are a block's own. -/
def blkParts (b : Nat) : List Comp :=
  match b with
  | 0x04 => [.inp] | 0x05 => [.cle] | 0x06 => [.vdr, .stk] | 0x08 => [.gnb] | 0x09 => [.cam] | 0x0A => [.fen] | 0x0B => [.arb] | 0x0C => [.fus]
  | 0x0D => [.yld] | 0x0E => [.bus] | 0x0F => [.eth] | 0x10 => [.pair] | 0x11 => [.pnl] | 0x12 => [.rcd] | 0x13 => [.upd] | _ => []

/-- What stands behind the registers of block `b` after its reset (R74): nothing, but for what pins show, what others have been given and
what has to outlast it. -/
def State.blkAtReset (s : State) (b : Nat) (t : State) : Prop :=
  match b with
  | 0x04 => t.inp = s.inpWiped
  | 0x05 => t.cle = { hist := s.cle.hist }
  | 0x06 => t.stk = {} ∧ t.vdr = { lastTick := s.vdr.lastTick, winAt := s.vdr.winAt, discharge := s.vdr.discharge, recovery := s.vdr.recovery }
  | 0x08 => t.gnb = {}
  | 0x09 => t.cam = { nextFrame := s.cam.nextFrame }
  | 0x0A => t.fen = {}
  | 0x0B => (∀ i, t.getB (ARB_REQ.LIVE i) = false) ∧ t.arb = { since := tdel s.arb.since 23 }
  | 0x0C => t.fus = { imuAt := s.fus.imuAt }
  | 0x0D => t.yld = {}
  | 0x0E => t.bus = {}
  | 0x0F => t.eth = {}
  | 0x10 => t.pair = { lost := s.pairJoined || s.pair.lost }
  | 0x11 => t.pnl = { pdet := s.pnl.pdet, pdetAt := s.pnl.pdetAt }
  | 0x12 => t.rcd = {}
  | 0x13 => t.upd = { vbus := s.upd.vbus }
  | _ => True

/-- Two fields share no bit. -/
def Fld.apart (g f : Fld) : Prop := g.addr ≠ f.addr ∨ g.lo + g.width ≤ f.lo ∨ f.lo + f.width ≤ g.lo

/-- A whole register as a field. -/
def wordAt (a : Nat) : Fld := ⟨a, 0, 32⟩

/-- Nothing differs but the parts `ps` and bits of the fields `fs`: every field that shares no bit with one of them, in their registers
and in all others, reads as before; the part number and the queue stay. -/
def State.only (ps : List Comp) (fs : List Fld) (s t : State) : Prop :=
  (∀ p, p ∉ ps → s.same t p) ∧ (∀ g : Fld, (∀ f ∈ fs, g.apart f) → t.get g = s.get g) ∧ t.part = s.part ∧ t.pending = s.pending

/-- As `State.only`, but for the registers of the `n` bytes from `a`. -/
def State.onlyBut (ps : List Comp) (fs : List Fld) (a n : Nat) (s t : State) : Prop :=
  (∀ p, p ∉ ps → s.same t p) ∧ (∀ g : Fld, (g.addr < a ∨ a + n ≤ g.addr) → (∀ f ∈ fs, g.apart f) → t.get g = s.get g) ∧
    t.part = s.part ∧ t.pending = s.pending

/-- The fields a raise of source `n` can write. -/
def raiseFlds (n : Nat) : List Fld := [EVT_SRC_STAT.PEND n, EVT_SRC_STAT.MULTI n, wordAt (EVT_SRC_LTC_LO n), wordAt (EVT_SRC_LTC_HI n)]

/-- The three registers a raise of source `n` can write. -/
def raiseRegs (n : Nat) : List Nat := [EVT_SRC_STAT n, EVT_SRC_LTC_LO n, EVT_SRC_LTC_HI n]

/-- Between `s` and `t` source `n` was raised at the LTC `ltc` (R129): if it is enabled (and can be raised on this part), PEND is 1 in `t`;
if PEND was 0, the stamp is that LTC; if PEND was 1, MULTI is 1. -/
def State.raisedAt (n ltc : Nat) (s t : State) : Prop :=
  s.neverRaised n = false → s.getB (EVT_SRC_CFG.EN n) = true →
    t.getB (EVT_SRC_STAT.PEND n) = true ∧
    (s.getB (EVT_SRC_STAT.PEND n) = false → t.get64 (EVT_SRC_LTC_LO n) (EVT_SRC_LTC_HI n) = ltc) ∧
    (s.getB (EVT_SRC_STAT.PEND n) = true → t.getB (EVT_SRC_STAT.MULTI n) = true)

/-- Between `s` and `t` source `n` was raised at the LTC of `s`. -/
def State.raised (n : Nat) (s t : State) : Prop := State.raisedAt n s.now s t

/-- Ring `r` of block `b` can take an entry now, as far as the ring goes: the block is enabled, the ring exists and is in use (R118), it
has no command in flight, its completion ring has room (R123) and the spacing after the entry before is over (R116). -/
def State.ringFree (s : State) (b r : Nat) : Prop :=
  s.enabled b = true ∧ r < ringCount b ∧ s.ringUsed b r = true ∧ (s.ring b r).taken = [] ∧
    (s.get (CRING_PI b r) + 512 - s.get (CRING_CI b r)) % 512 < 256 ∧ (s.ring b r).readyAt < (s.ltc + 8) * 61380

/-- Ring `r` of block `b` runs the entry `e` at once, unless the block's chapter holds its opcode: the ring can take an entry, the block is
fitted, and every FLAGS bit outside bits 0, 1 and `mask` is 0. -/
def State.ready (s : State) (b r mask : Nat) (e : Entry) : Prop :=
  s.ringFree b r ∧ s.notFitted b = false ∧ e.flags.toNat % 4 + (e.flags.toNat &&& (mask &&& 0xFF00)) = e.flags.toNat

/-- Address of the next completion entry of a ring (R118, R132, Table 5-5). -/
def State.complAddr (s : State) (b r : Nat) : Nat := s.get64 (CRING_BASE_LO b r) (CRING_BASE_HI b r) + 16 * s.complSlot b r

/-- Between `s` and `t` ring `r` of block `b` got one completion entry, with the tag `tag`, reason code `code` and the handle `h`
(Table 5-5): its sixteen bytes stand at the slot of CRING_PI (R132 apart), and CRING_PI went up by one. -/
def State.complTag (b r tag code h : Nat) (s t : State) : Prop :=
  memBytes t.dram (s.complAddr b r) 8 = bytesLE 8 tag ∧
  memNat t.dram (s.complAddr b r + 8) 4 = h % 2 ^ 32 ∧
  memNat t.dram (s.complAddr b r + 12) 2 = b * 256 + code ∧
  memNat t.dram (s.complAddr b r + 14) 2 = (if (s.ring b r).seq = 0xFFFF then 1 else (s.ring b r).seq + 1) % 2 ^ 16 ∧
  t.get (CRING_PI b r) = (s.get (CRING_PI b r) + 1) % 512

/-- Between `s` and `t` ring `r` of block `b` got the one completion entry of `e`. -/
def State.completed (b r : Nat) (e : Entry) (code h : Nat) (s t : State) : Prop := State.complTag b r e.tag.toNat code h s t

/-- The command of the entry `e` of a ring whose next place in flight is free. -/
def State.cmdOf (s : State) (b r : Nat) (e : Entry) : Cmd := { blk := b, ring := r, id := (s.ring b r).nextId, e := e }

/-- The entry `e` as a command in flight. -/
def State.takenOf (s : State) (b r opcode : Nat) (e : Entry) : Taken :=
  { id := (s.ring b r).nextId, opcode := opcode, handle := e.handle.toNat, tag := e.tag.toNat, irq := bitAt e.flags.toNat 0, done := none }

/-- When a ring's next entry may be taken after one with this opcode is taken now (R116), in units of 1/61,380 ns. -/
def State.nextReady (s : State) (b r opcode : Nat) : Nat :=
  max (s.ring b r).readyAt (s.ltc * 61380) + s.spacing b opcode * s.cycleUnits b

/-- Between `s` and `t` the entry `e` entered flight on a ring that had none in flight, and waits for its effect (R116, R123). -/
def State.started (b r opcode : Nat) (e : Entry) (s t : State) : Prop :=
  t.ring b r = { s.ring b r with readyAt := s.nextReady b r opcode, taken := [s.takenOf b r opcode e], nextId := (s.ring b r).nextId + 1 }

/-- Between `s` and `t` the one command in flight on a ring ended: none is left, and its completion entry was written. -/
def State.ended (b r : Nat) (x : Taken) (code h : Nat) (s t : State) : Prop :=
  (t.ring b r).taken = [] ∧ State.complTag b r x.tag code h s t

/-- The source of a ring's completion event (R125, Table 5-1). -/
def complSource (b r : Nat) : Nat :=
  match b with
  | 0x05 => 32 + r
  | 0x06 => 74 + r
  | 0x08 => 128 + r
  | 0x09 => 160
  | 0x0A => if r = 0 then 192 else 193
  | 0x0B => 213
  | 0x0C => 216
  | 0x0D => 240
  | 0x0E => 248 + 6 * r
  | 0x0F => 296
  | 0x10 => 312
  | 0x11 => 320
  | 0x12 => 336
  | _ => 344

/-- The registers a completion can write: CRING_PI, FEN_JOB_PEND for FEN's job rings, and those of the completion event's source. -/
def complRegs (b r : Nat) : List Nat := (CRING_PI b r).addr :: FEN_JOB_PEND :: raiseRegs (complSource b r)

/-- The fields a completion can write. -/
def complFlds (b r : Nat) : List Fld := CRING_PI b r :: ⟨FEN_JOB_PEND, r - 1, 1⟩ :: raiseFlds (complSource b r)

/-- The registers of the published relation and of the one before it (R136, R137). -/
def relFlds : List Fld :=
  [TMS_REL_SEQ, TMS_REL_LTC_LO, TMS_REL_LTC_HI, TMS_REL_OFF_LO, TMS_REL_OFF_HI, TMS_REL_RATE, TMS_PREL_SEQ, TMS_PREL_LTC_LO, TMS_PREL_LTC_HI,
    TMS_PREL_OFF_LO, TMS_PREL_OFF_HI, TMS_PREL_RATE].map wordAt

/-- The fields of VDR_OUT_SENSE(k) that show an output's state. -/
def senseFlds (k : Nat) : List Fld := [VDR_OUT_SENSE.ACTIVE k, VDR_OUT_SENSE.CALL k, VDR_OUT_SENSE.DECAY k]

/-- The fields CAM keeps to the number and state of its contexts, links, frames and pipelines. -/
def camShowFlds : List Fld :=
  [CAM_STATUS.CONTEXTS, CAM_STATUS.LINKS_UP] ++ (List.range 4).flatMap (fun l => [CAM_LNK_STORE.USED l, CAM_LNK_STORE.PEAK l]) ++
    (List.range 8).flatMap (fun p => [CAM_PL_STAT.WAITING p, CAM_PL_STAT.BUSY p, CAM_PL_STAT.CTX p]) ++
    (List.range 32).flatMap fun x => [wordAt (CAM_CTX_STAT x), wordAt (CAM_CTX_CSEQ x)]

/-- The fields FEN keeps to the state of its packages and streams. -/
def fenShowFlds : List Fld :=
  [FEN_STATUS.PKGS, FEN_STATUS.STREAMS, FEN_STATUS.RUN, FEN_STATUS.STREAM, FEN_SRAM.FREE] ++
    (List.range 8).flatMap (fun i => [wordAt (FEN_PKG i), wordAt (FEN_PKG_ID i)]) ++ (List.range 16).flatMap fun x => [wordAt (FEN_STR x), wordAt (FEN_STR_JSEQ x)]

/-- The fields YLD keeps to the state of its layers. -/
def yldShowFlds : List Fld :=
  [YLD_STATUS.LAYERS, YLD_STATUS.CLOSED, YLD_STATUS.WRITING] ++
    (List.range 8).flatMap fun x => [wordAt (YLD_L_STAT x), wordAt (YLD_L_WPOS x), wordAt (YLD_L_TSEQ x)]

/-- What the lanes show is up to date: every lane shown UP has delivered a HEAD within the last 1,000,000 ns (R462), and with no lane UP the
state is DOWN (R464). -/
def State.lanesTrue (s : State) : Bool :=
  ((List.range 2).all fun l => !s.getB ⟨PAIR_STAT, 24 + l, 1⟩ || (tget s.pair.heard l).any fun x => decide (s.now ≤ x + 1000000)) &&
    (decide (s.get PAIR_STAT.LANE_UP ≠ 0) || decide (s.get PAIR_STAT.STATE = 0 ∧ s.pair.good = 0 ∧ s.pair.heads = []))

/-- No removed panel is overdue: VDDP is not on with PDET absent for more than 10 ms (R490). -/
def State.panelTrue (s : State) : Bool := !(s.enabled 0x11 && s.pnl.vddp && !s.pnl.pdet && decide (s.pnl.pdetAt + 10000000 < s.now))

/-- What slot `x`'s evaluation computes from its registers, tables and captured sources (R180, R181, R196). -/
def State.evaluated (s : State) (x : Nat) : CleEval :=
  cleEval (s.slotReg x) (s.getB (CLE_S_CTRL.HOLD x)) (s.get (CLE_S_XSTAT.DIR x)) (s.slot x)

/-- Every byte of DRAM but the `n` from `a` is as before. -/
def State.dramKept (a n : Nat) (s t : State) : Prop := ∀ x, x < a ∨ a + n ≤ x → memByte t.dram x = memByte s.dram x

/-- Every byte of MRAM but the `n` from `a` is as before. -/
def State.mramKept (a n : Nat) (s t : State) : Prop := ∀ x, x < a ∨ a + n ≤ x → memByte t.mram x = memByte s.mram x

/-- Between `s` and `t` the window `w` of the stream `r` was written as a record into slot `k` (Table 24-1, R503): SEQ went to the next
even value past an odd one, RNUM is the one due in `s`, and the CRC is right. -/
def State.recorded (k : Nat) (r : RecStream) (w : RecWin) (part : Bool) (s t : State) : Prop :=
  memNat t.mram (recSlotAt k) 4 = 0x31434552 ∧
  memNat t.mram (recSlotAt k + 4) 4 = (s.recN k 4 4 / 2 * 2 + (if s.recN k 4 4 % 2 = 0 then 2 else 4)) % 2 ^ 32 ∧
  memNat t.mram (recSlotAt k + 8) 8 = s.get64 REC_RNUM_LO REC_RNUM_HI ∧
  memNat t.mram (recSlotAt k + 16) 4 = r.sid % 2 ^ 32 ∧ memNat t.mram (recSlotAt k + 20) 1 = r.kind % 256 ∧
  memNat t.mram (recSlotAt k + 21) 1 = r.sev % 256 ∧
  memNat t.mram (recSlotAt k + 22) 2 = (if part then 1 else 0) + (if w.sat then 2 else 0) ∧
  memNat t.mram (recSlotAt k + 24) 8 = w.opn % 2 ^ 64 ∧ memNat t.mram (recSlotAt k + 32) 8 = w.close % 2 ^ 64 ∧
  memNat t.mram (recSlotAt k + 40) 4 = s.ka.opsec % 2 ^ 32 ∧ memNat t.mram (recSlotAt k + 44) 4 = s.ka.pwrcyc % 2 ^ 32 ∧
  memNat t.mram (recSlotAt k + 48) 4 = w.nval % 2 ^ 32 ∧
  memNat t.mram (recSlotAt k + 52) 4 = recCrc (memBytes t.mram (recSlotAt k) 256) ∧
  memBytes t.mram (recSlotAt k + 56) 8 = List.replicate 8 0 ∧ memBytes t.mram (recSlotAt k + 64) 192 = r.body w ∧
  tget t.rcd.slots k = some (s.get64 REC_RNUM_LO REC_RNUM_HI, r.sev)

/-- The fields that follow the record slots. -/
def recSlotFlds : List Fld := [REC_FREE.FREE, wordAt REC_RNUM_LO, wordAt REC_RNUM_HI]

/-- What a command may touch, whatever the state it finds: parts of the state and register windows (none: any register). -/
def touches : Instr → List Comp × Option (List Nat)
  | .regWrite .. | .wdtKick .. | .wdtPeriodWrite .. | .blockReset .. | .idleRequest .. | .parkRequest .. | .standbyRequest .. | .enableSet .. |
    .reloadRequest .. | .evtSet .. | .obsPush .. | .capPop .. | .ainRearm .. | .ssupEnable .. | .coefLive .. | .cleHostSourceWrite .. | .vdrFaultClear ..
    | .vdrOutCfgWrite .. | .softTrigger .. | .antBiasEnable .. | .linkCfgWrite .. | .cciStart .. | .arbFreeze .. | .hostArbRequest .. | .calCommit .. |
    .voteReadmit .. | .busRecover .. | .objSend .. | .objAbort .. | .flEnableWrite .. | .usbEnable .. =>
    ([.latch, .access, .dram, .mram, .free, .sys, .ka, .cyc, .str, .rings, .tms, .inp, .cle, .vdr, .stk, .saf, .gnb, .cam, .fen, .arb, .fus, .yld, .bus, .eth, .pair, .pnl, .rcd, .upd], none)
  | .badAccess .. =>
    ([.access], some [])
  | .rcRead .. | .tmsSnapshotRead .. | .ainRawRead .. | .pinValRead .. | .lacCntRead .. | .flowStatRead .. | .cleSampleRead .. | .cleFrameRead .. |
    .vdrSenseRead .. | .vdrCtxRead .. | .gnbScRead .. | .camCtxRead .. | .fusImuRead .. | .fusCalvRead .. | .busObjRead .. =>
    ([.latch, .access], none)
  | .dramReadUe .. =>
    ([.access, .cyc, .rcd], some [0xC1])
  | .vsupUndervoltage .. | .vsupUvClear .. | .thermalUpdate .. =>
    ([.free, .sys, .cyc, .saf, .rcd], some [0xC0, 0xC1, 0xC7])
  | .vsupOvervoltage .. =>
    ([.cyc, .rcd], some [0xC0, 0xC1])
  | .vsupOvClear .. =>
    ([], some [0xC0])
  | .powerOnReset | .ignEdge .. =>
    ([.ltc, .latch, .img, .access, .dram, .sys, .ka, .cyc, .str, .rings, .gens, .tms, .inp, .cle, .vdr, .stk, .saf, .gnb, .cam, .fen, .arb, .fus, .yld, .bus, .eth, .pair, .pnl, .rcd, .upd], none)
  | .resetHoldEnd | .pllLock | .dramReady | .runEntry | .idleExit | .safetyResetRequest =>
    ([.sys], some [])
  | .oscillatorsReady | .moduleResetRelease =>
    ([.ltc, .mram, .free, .sys, .ka, .cyc, .nv, .rcd], some [0xC0, 0xC1, 0xD3, 0xD4])
  | .safetyDomainReady .. =>
    ([.img, .free, .sys, .cyc, .str, .saf, .rcd], some [0xC1, 0xC2, 0xC7, 0xD3])
  | .gessoDone .. =>
    ([.dram, .mram, .ufs, .sys, .cyc, .str, .nv, .rcd], some [0xC1, 0xC2])
  | .hostFirmwareLoaded .. =>
    ([.latch, .img, .mram, .sys, .cyc, .str, .rings, .nv, .inp, .cle, .vdr, .stk, .saf, .gnb, .cam, .fen, .arb, .fus, .yld, .bus, .eth, .pair, .pnl, .rcd, .upd], none)
  | .startRegionLoadEnd .. | .reloadBind .. =>
    ([.img, .cyc, .str, .rcd], none)
  | .nrstAssert | .moduleResetAssert .. | .wdtExpire | .parkExit .. =>
    ([.ltc, .latch, .img, .access, .dram, .sys, .cyc, .str, .rings, .gens, .tms, .inp, .cle, .vdr, .stk, .saf, .gnb, .cam, .fen, .arb, .fus, .yld, .bus, .eth, .pair, .pnl, .rcd, .upd], none)
  | .keepAliveLoss | .canWake .. =>
    ([.sys, .ka], some [0xD4])
  | .vkaLow | .kaWritePropagate =>
    ([.ka], some [])
  | .vlvSupplyLoss =>
    ([.cyc, .vdr, .stk, .rcd], some [0xC0, 0xC1, 0xC6])
  | .vlvSupplyRecover | .boostDischargeChangeover =>
    ([.vdr], some [])
  | .wdtEarly =>
    ([.sys, .cyc, .rcd], some [0xC1])
  | .blkRstDone =>
    ([.sys, .cyc, .rcd], some [0xC0, 0xC1])
  | .powerStateEntryDone =>
    ([.ltc, .latch, .img, .access, .dram, .free, .sys, .ka, .cyc, .str, .rings, .gens, .nv, .tms, .inp, .cle, .vdr, .stk, .saf, .gnb, .cam, .fen, .arb, .fus, .yld, .bus, .eth, .pair, .pnl, .rcd, .upd], none)
  | .opsecTick =>
    ([.ka], some [0xD4])
  | .kaMirrorWrite =>
    ([.ka, .nv], some [])
  | .checkEnqueue .. =>
    ([.str], some [])
  | .checkEnd =>
    ([.free, .cyc, .str, .rings, .inp, .cle, .gnb, .cam, .fus, .yld, .bus, .eth, .pair, .pnl, .rcd], none)
  | .reloadCheckEnd .. =>
    ([.latch, .cyc, .str, .rings, .inp, .cle, .vdr, .stk, .saf, .gnb, .cam, .fen, .arb, .fus, .yld, .bus, .eth, .pair, .pnl, .rcd, .upd], none)
  | .reloadStopEnd =>
    ([], some [0xC2])
  | .reloadLoadEnd .. =>
    ([.img, .cyc, .str, .rcd], some [0xC1, 0xC2])
  | .cfgCorr =>
    ([.cyc, .rcd], some [0xC1, 0xC2])
  | .cfgUncorr .. =>
    ([.latch, .img, .cyc, .str, .rings, .inp, .cle, .vdr, .stk, .saf, .gnb, .cam, .fen, .arb, .fus, .yld, .bus, .eth, .pair, .pnl, .rcd, .upd], none)
  | .safeRegionUpset | .pairDisc .. | .switchTestEnd .. | .soutOvercurrent .. | .feedbackTimeout .. | .lockstepMismatch | .selftest .. | .partnerLost =>
    ([.free, .sys, .cyc, .saf, .rcd], some [0xC1, 0xC7])
  | .commandTake .. =>
    ([.latch, .dram, .mram, .free, .sys, .cyc, .rings, .gens, .nv, .cle, .stk, .gnb, .cam, .fen, .arb, .fus, .yld, .bus, .eth, .pair, .pnl, .rcd, .upd], none)
  | .nop .. | .unknownOpcode .. =>
    ([.dram, .cyc, .rings, .rcd], none)
  | .obsEffect | .slewEnd | .sourceInvalid | .tmsDisable | .captureEdge .. =>
    ([.cyc, .tms, .rcd], some [0xC1, 0xC3])
  | .mtSecond =>
    ([.cyc, .tms, .gnb, .fus, .rcd], some [0xC1, 0xC3, 0xC8, 0xCC])
  | .tpulseFall =>
    ([.tms], some [])
  | .tpulseShort =>
    ([], some [0xC3])
  | .sourceSwitch | .holdoverExpire =>
    ([.cyc, .rcd], some [0xC1, 0xC3])
  | .ainSamplePublish .. | .ainShunt .. | .pinEdge .. | .flowWindowEnd | .ssupFault .. =>
    ([.cyc, .inp, .rcd], some [0xC1, 0xC4])
  | .pinGateEnd .. | .ssupLimit .. =>
    ([.inp], some [0xC4])
  | .pinStall .. | .lacOpen .. | .aoutFault .. | .dinEdge .. =>
    ([.cyc, .rcd], some [0xC1, 0xC4])
  | .pinWeak .. =>
    ([.cyc, .rcd], some [0xC1])
  | .lacSample .. =>
    ([.free, .cyc, .inp, .rcd], some [0xC1, 0xC4])
  | .lacWin .. =>
    ([.cyc, .inp, .rcd], some [0xC0, 0xC1, 0xC4, 0xCD])
  | .inpDisable =>
    ([], some [0xC4])
  | .cleStrobe =>
    ([.latch, .dram, .free, .cyc, .rings, .cle, .vdr, .rcd], some [0xC0, 0xC1, 0xC4, 0xC5])
  | .cleEvaluate .. =>
    ([.free, .cyc, .cle, .rcd], some [0xC1, 0xC5])
  | .clePhasePoint .. | .cleDisable =>
    ([.latch, .dram, .cyc, .rings, .cle, .vdr, .rcd], some [0xC1, 0xC4, 0xC5])
  | .slotCreate .. =>
    ([.latch, .dram, .cyc, .rings, .gens, .cle, .rcd], some [0xC1, 0xC5])
  | .slotDestroy .. | .slotStart .. | .slotStop .. =>
    ([.latch, .dram, .cyc, .rings, .cle, .rcd], some [0xC1, 0xC5])
  | .vdrTick .. | .fastRel .. | .strokeWaitEnd .. | .strokeRampEnd .. | .wcurTimeout .. | .wtrgTimeout .. | .boostNrdy .. | .strokeStartDue .. |
    .deferExpire .. =>
    ([.free, .cyc, .vdr, .stk, .rcd], some [0xC1, 0xC6])
  | .outputOvercurrent .. | .outputStb .. | .rmsWindowEnd | .bankOvercurrent .. | .vdrDisable =>
    ([.cyc, .vdr, .stk, .rcd], some [0xC1, 0xC6])
  | .outputOpen .. =>
    ([.cyc, .vdr, .rcd], some [0xC1, 0xC6])
  | .boostChargeStart .. =>
    ([.vdr], some [0xC6])
  | .boostChargeStop .. =>
    ([], some [0xC6])
  | .bstOvp .. =>
    ([.cyc, .rcd], some [0xC1, 0xC6])
  | .strokeTriggerEdge .. =>
    ([.cyc, .stk, .rcd], some [0xC1, 0xC6])
  | .strokeStart .. =>
    ([.dram, .cyc, .rings, .gens, .stk, .rcd], some [0xC0, 0xC1, 0xC6])
  | .strokeCancel .. =>
    ([.dram, .cyc, .rings, .stk, .rcd], some [0xC1, 0xC6])
  | .sinPinChange .. =>
    ([.cyc, .tms, .saf, .rcd], some [0xC1, 0xC3, 0xC7])
  | .stpPulse .. | .switchTest .. =>
    ([.saf], some [])
  | .stpMaskEnd .. =>
    ([.free, .sys, .cyc, .tms, .saf, .rcd], some [0xC1, 0xC3, 0xC7])
  | .rearmComplete .. | .sfbChange .. | .mbxEnergise | .mbxRelease | .mbxAck | .mbxUnknownOp =>
    ([.cyc, .saf, .rcd], some [0xC1, 0xC7])
  | .degExpire | .partnerSafetyField .. =>
    ([.free, .cyc, .saf, .rcd], some [0xC1, 0xC7])
  | .mbxReset =>
    ([.sys, .cyc, .saf, .rcd], some [0xC1, 0xC7])
  | .rfInterf .. =>
    ([.free, .cyc, .gnb, .rcd], some [0xC1, 0xC8])
  | .notchLock .. =>
    ([.cyc, .gnb, .rcd], some [0xC1, 0xC8])
  | .antFault .. | .antOpenClear .. =>
    ([.cyc, .rcd], some [0xC1, 0xC8])
  | .acqStart .. | .acqDone .. | .chResolve .. =>
    ([.dram, .cyc, .rings, .gnb, .rcd], some [0xC1, 0xC8])
  | .chCreate .. =>
    ([.latch, .dram, .cyc, .rings, .gens, .gnb, .rcd], some [0xC1, 0xC8])
  | .gnbSteer .. =>
    ([.latch, .dram, .cyc, .rings, .gnb, .rcd], some [0xC0, 0xC1, 0xC8])
  | .chDestroy .. =>
    ([.latch, .dram, .cyc, .rings, .gnb, .rcd], some [0xC1, 0xC8])
  | .channelBoundary .. =>
    ([.latch, .dram, .cyc, .gnb, .rcd], some [0xC0, 0xC1, 0xC8])
  | .accTimeout =>
    ([.cyc, .gnb, .rcd], some [0xC1])
  | .gnbDisable =>
    ([.latch, .dram, .free, .cyc, .rings, .gnb, .rcd], some [0xC1, 0xC8])
  | .measStrobe =>
    ([.gnb], some [])
  | .measBlockWrite =>
    ([.dram, .cyc, .gnb, .rcd], some [0xC1, 0xC8])
  | .camLink .. | .csiPacket .. | .frameStart .. | .linePacket .. | .cciEnd .. =>
    ([.cyc, .cam, .rcd], some [0xC1, 0xC9])
  | .pocShort .. | .pocOpen .. =>
    ([.cyc, .rcd], some [0xC1, 0xC9])
  | .frameEnd .. | .frameTimeout .. =>
    ([.cam], some [0xC9])
  | .pipelineLine .. | .pipelineSwitch .. =>
    ([.dram, .free, .cyc, .cam, .fen, .rcd], some [0xC1, 0xC9, 0xCA])
  | .camFrame =>
    ([.dram, .cyc, .rings, .cam, .fen, .arb, .rcd], some [0xC1, 0xC9, 0xCA, 0xCB])
  | .ctxCreate .. =>
    ([.latch, .dram, .cyc, .rings, .gens, .cam, .rcd], some [0xC1, 0xC9])
  | .ctxDestroy .. | .ctxPalette .. | .bufGive .. | .ctxBind .. | .camDisable =>
    ([.dram, .cyc, .rings, .cam, .rcd], some [0xC1, 0xC9])
  | .pkgLoad .. | .pkgLoadDone .. | .pkgUnload .. =>
    ([.dram, .cyc, .rings, .fen, .rcd], some [0xC1, 0xCA])
  | .fenStreamCreate .. =>
    ([.dram, .cyc, .rings, .gens, .fen, .rcd], some [0xC1, 0xCA])
  | .fenStreamDestroy .. | .fenJob .. | .sramUe .. =>
    ([.dram, .cyc, .rings, .fen, .arb, .rcd], some [0xC1, 0xCA, 0xCB])
  | .jobRequest .. =>
    ([.arb], some [0xCA, 0xCB])
  | .jobComplete .. =>
    ([.dram, .free, .cyc, .rings, .fen, .arb, .fus, .yld, .rcd], some [0xC0, 0xC1, 0xCA, 0xCB, 0xCD])
  | .fenSramCorrected =>
    ([.cyc, .rcd], some [0xC1, 0xCA])
  | .fenDisable =>
    ([.dram, .free, .cyc, .rings, .fen, .arb, .rcd], some [0xC1, 0xCA, 0xCB])
  | .arbDecide .. =>
    ([.free, .cyc, .fen, .arb, .rcd], some [0xC1, 0xCA, 0xCB, 0xCD, 0xD2])
  | .arbStarve .. =>
    ([.cyc, .rcd], some [0xC1, 0xCB])
  | .reqCreate .. =>
    ([.dram, .cyc, .rings, .gens, .arb, .rcd], some [0xC1, 0xCB])
  | .reqDestroy .. | .reqClass .. =>
    ([.dram, .cyc, .rings, .arb, .rcd], some [0xC1, 0xCB])
  | .srcCreate .. =>
    ([.latch, .dram, .cyc, .rings, .gens, .fus, .rcd], some [0xC1, 0xCC])
  | .srcDestroy .. =>
    ([.latch, .dram, .cyc, .rings, .fus, .rcd], some [0xC1, 0xCC])
  | .fusSubmit .. =>
    ([.dram, .cyc, .rings, .fus, .rcd], some [0xC0, 0xC1, 0xCC])
  | .contributionArrive =>
    ([.cyc, .fus, .rcd], some [0xC0, 0xC1, 0xCC])
  | .imuSample .. =>
    ([.free, .cyc, .fus, .rcd], some [0xC0, 0xC1, 0xCC])
  | .instantBoundary =>
    ([.cyc, .fus, .rcd], some [0xC1, 0xCC])
  | .instantClose =>
    ([.free, .cyc, .fus, .rcd], some [0xC1, 0xCC])
  | .publicationStart =>
    ([.fus], some [0xCC])
  | .instantEnd =>
    ([.dram, .free, .cyc, .fen, .arb, .fus, .rcd], some [0xC1, 0xCA, 0xCB, 0xCC])
  | .fusDisable =>
    ([.latch, .fus], some [0xCC])
  | .yldCompute =>
    ([.dram, .free, .cyc, .rings, .inp, .arb, .yld, .rcd], some [0xC0, 0xC1, 0xCB, 0xCD])
  | .yldTile =>
    ([.dram, .ufs, .free, .cyc, .rings, .arb, .yld, .rcd], some [0xC1, 0xCB, 0xCD])
  | .layerCreate .. =>
    ([.dram, .cyc, .rings, .gens, .yld, .rcd], some [0xC1, 0xCD])
  | .layerDestroy .. | .yldFlush .. =>
    ([.dram, .cyc, .rings, .yld, .rcd], some [0xC1, 0xCD])
  | .yldPose .. =>
    ([.dram, .cyc, .rings, .yld, .rcd], some [0xC0, 0xC1, 0xCD])
  | .yldDisable =>
    ([.dram, .free, .cyc, .rings, .inp, .arb, .yld, .rcd], some [0xC1, 0xCB, 0xCD])
  | .canFrameRx .. | .tpFrameRx .. =>
    ([.dram, .free, .cyc, .gens, .yld, .bus, .rcd], some [0xC0, 0xC1, 0xCD, 0xCE])
  | .canTxDone .. =>
    ([.latch, .dram, .free, .cyc, .rings, .gens, .yld, .bus, .rcd], some [0xC0, 0xC1, 0xCD, 0xCE])
  | .canTxError .. | .busOff .. | .txdDom .. | .qDestroy .. | .busDisable =>
    ([.latch, .dram, .cyc, .rings, .bus, .rcd], some [0xC1, 0xCE])
  | .busOffRecovered .. | .tpTimeout .. =>
    ([.cyc, .bus, .rcd], some [0xC1, 0xCE])
  | .busDom .. | .canRxError .. =>
    ([.cyc, .rcd], some [0xC1, 0xCE])
  | .bamGap .. =>
    ([.bus], some [])
  | .tpDelivery .. =>
    ([.dram, .cyc, .bus, .rcd], some [0xC1, 0xCE])
  | .objCreate .. | .qCreate .. =>
    ([.latch, .dram, .cyc, .rings, .gens, .bus, .rcd], some [0xC1, 0xCE])
  | .objDestroy .. =>
    ([.latch, .dram, .free, .cyc, .rings, .bus, .rcd], some [0xC1, 0xCE])
  | .tpSend .. =>
    ([.dram, .cyc, .rings, .gens, .bus, .rcd], some [0xC1, 0xCE])
  | .tpAbort .. =>
    ([.dram, .cyc, .rings, .bus, .rcd], some [0xC1, 0xCE])
  | .ethFrameRx .. =>
    ([.dram, .cyc, .tms, .fus, .eth, .rcd], some [0xC1, 0xC3, 0xCF])
  | .macAgeOut .. | .followUpTimeout =>
    ([.eth], some [])
  | .gptpSync .. | .gptpFollowUp .. =>
    ([.cyc, .tms, .eth, .rcd], some [0xC1, 0xC3])
  | .pdelayReq .. | .gptpState | .ethLinkChange .. =>
    ([.cyc, .eth, .rcd], some [0xC1, 0xCF])
  | .lidarFragment .. =>
    ([.dram, .cyc, .fus, .eth, .rcd], some [0xC1, 0xCF])
  | .fltRx .. =>
    ([.dram, .cyc, .eth, .rcd], some [0xC1, 0xCF])
  | .peerCreate .. =>
    ([.dram, .cyc, .rings, .gens, .eth, .rcd], some [0xC1, 0xCF])
  | .peerDestroy .. | .frameTx .. | .ethTxComplete .. =>
    ([.dram, .cyc, .rings, .eth, .rcd], some [0xC1, 0xCF])
  | .fleetSend .. =>
    ([.dram, .free, .cyc, .rings, .nv, .eth, .rcd], some [0xC1, 0xCF])
  | .keyLoad .. | .keyErase .. =>
    ([.dram, .cyc, .rings, .nv, .eth, .rcd], some [0xC1, 0xCF])
  | .ethDisable =>
    ([.dram, .free, .cyc, .rings, .eth, .rcd], some [0xC1, 0xCF])
  | .pairCycle =>
    ([.dram, .free, .cyc, .rings, .pair, .rcd], some [0xC1, 0xD0])
  | .headRx .. =>
    ([.dram, .free, .cyc, .rings, .tms, .pair, .rcd], some [0xC1, 0xC3, 0xD0])
  | .sigRx .. | .laneTimeout .. | .bodySend .. | .bodySendDone | .pairDisable =>
    ([.dram, .cyc, .rings, .pair, .rcd], some [0xC1, 0xD0])
  | .bulkRx .. =>
    ([.dram, .cyc, .rings, .fus, .pair, .rcd], some [0xC1, 0xD0])
  | .pnlPowerOn .. | .pnlPowerOff .. | .pnlRefresh .. | .pnlDischarge .. | .railFault .. | .panelRemoved | .pdetChange .. =>
    ([.dram, .cyc, .rings, .pnl, .rcd], some [0xC1, 0xD1])
  | .pnlRailReady .. | .pnlRailDown .. =>
    ([.dram, .ka, .cyc, .rings, .pnl, .rcd], some [0xC1, 0xD1, 0xD4])
  | .pnlFrame | .pnlDisable =>
    ([.dram, .free, .cyc, .rings, .pnl, .rcd], some [0xC1, 0xD1])
  | .ptempMeasure .. =>
    ([.cyc, .rcd], some [0xC1, 0xD1])
  | .flFault .. =>
    ([.cyc, .pnl, .rcd], some [0xC1, 0xD1])
  | .recScanEnd =>
    ([.cyc, .rcd], some [0xC1, 0xD2])
  | .recStreamCreate .. =>
    ([.dram, .cyc, .rings, .gens, .rcd], some [0xC1, 0xD2])
  | .recStreamDestroy .. =>
    ([.latch, .dram, .mram, .cyc, .rings, .rcd], some [0xC1, 0xD2])
  | .recPut .. =>
    ([.dram, .cyc, .rings, .rcd], some [0xC0, 0xC1, 0xD2])
  | .recFlush .. =>
    ([.dram, .mram, .cyc, .rings, .rcd], some [0xC1, 0xD2])
  | .recExport .. =>
    ([.dram, .cyc, .rings, .arb, .rcd], some [0xC1, 0xCB, 0xD2])
  | .expDone =>
    ([.mram, .ufs, .free, .cyc, .arb, .rcd], some [0xC1, 0xCB, 0xD2])
  | .recWindowClose =>
    ([.mram, .cyc, .rcd], some [0xC1, 0xD2])
  | .recDisable =>
    ([.latch, .mram, .cyc, .arb, .rcd], some [0xC1, 0xCB, 0xD2])
  | .updStage .. =>
    ([.dram, .cyc, .rings, .nv, .arb, .rcd, .upd], some [0xC1, 0xCB, 0xD3])
  | .stagingEnd .. =>
    ([.dram, .ufs, .cyc, .rings, .nv, .arb, .rcd, .upd], some [0xC1, 0xCB, 0xD3])
  | .updAbort .. =>
    ([.dram, .cyc, .rings, .rcd, .upd], some [0xC1, 0xD3])
  | .updVarnish .. | .updConfirm .. | .keyProg .. =>
    ([.dram, .cyc, .rings, .nv, .rcd], some [0xC1, 0xD3])
  | .lcChange .. =>
    ([.dram, .free, .sys, .cyc, .rings, .nv, .rcd], some [0xC1, 0xD3])
  | .usbData .. =>
    ([.dram, .cyc, .rcd], some [0xC1, 0xD3])
  | .usbRecovery .. =>
    ([.ltc, .latch, .img, .access, .dram, .ufs, .sys, .cyc, .str, .rings, .gens, .nv, .tms, .inp, .cle, .vdr, .stk, .saf, .gnb, .cam, .fen, .arb, .fus, .yld, .bus, .eth, .pair, .pnl, .rcd, .upd], none)
  | .updDisable =>
    ([.dram, .cyc, .rings, .arb, .rcd, .upd], some [0xC1, 0xCB, 0xD3])
  | .vlvSupplyReturn =>
    ([.vdr], some [0xC0])
  | .canBusIntegration .. =>
    ([], some [0xCE])
  | .pocOpenClear .. =>
    ([], some [0xC9])
  | .pairCellCrcFail .. =>
    ([.cyc, .rcd], some [0xC1, 0xD0])
  | .usbVbusChange .. =>
    ([.upd], some [0xD3])

end Sys2Proof.Machine
end

