-- ==== Sys2Proof/Certificates/Slice0/Obligations.lean ====
section
/-! DEFINITION. The statements about the model: what its commands do, what they leave alone, and what every step keeps. -/

open Sys2Proof Sys2Proof.Machine

/-- For every command c, every list of commands behind it and every state s, one step of s with c at the front of its queue is exec of c on s with the
queue's rest, whatever exec answers. -/
def Obligations.StepRunsTheFirstCommand : Prop :=
  ∀ (c : Instr) (rest : List Instr) (s : State), step { s with pending := c :: rest } = exec c { s with pending := rest }

/-- On an empty queue a step stands for one REF edge (the model's choice, log entry 22): LTC is 8 larger unless the module is in a power-on reset, in
phase 2 of a cold start, in an asserted module reset or in STANDBY, where it stays; every register, every other part and the queue stay as they are. -/
def Obligations.IdleStepCountsEightNanoseconds : Prop :=
  ∀ s : State, s.pending = [] →
    ∃ t, step s = .next t ∧ s.keeps [.ltc] [] t ∧
      t.ltc = (if s.sys.mode = .por ∨ s.sys.mode = .osc ∨ s.sys.mode = .resetHeld ∨ s.sys.mode = .standby then s.ltc else s.ltc + 8)

/-- In State.reset LTC is 0, a power-on reset holds, no command waits, no ring has a command in flight, no GEN counter has counted, no region is loaded,
no block is enabled, and DRAM, MRAM and UFS list nothing; every register but UPD_SLOT_LBA_LO(1) and UPD_SLOT_BLKS (factory values: the model's choice,
log entry 3) holds the value of its Reset column, and the fields named (one of each family that has a reset value other than 0) hold the values their
tables give. -/
def Obligations.ResetReadsTheResetColumn : Prop :=
  State.reset.ltc = 0 ∧ State.reset.sys.mode = .por ∧ State.reset.pending = [] ∧ State.reset.rings = [] ∧ State.reset.gens = [] ∧
  State.reset.dram = [] ∧ State.reset.mram = [] ∧ State.reset.ufs = [] ∧
  (∀ r, State.reset.loaded r = false) ∧ (∀ b, State.reset.enabled b = false) ∧
  (∀ a, a ≠ UPD_SLOT_LBA_LO 1 → a ≠ UPD_SLOT_BLKS → State.reset.reg a = resetOf a) ∧
  State.reset.get STR_STATUS.BUSY = 0x1FF ∧ State.reset.get SYS_WDT_CFG.PERIOD = 2000 ∧ State.reset.get PNL_VCOM.MV = 1500 ∧
  (State.reset.reg TMS_HOLD_LIMIT).toNat = 600 ∧ (State.reset.reg (CLE_S_B 95)).toNat = 0x3F800000 ∧
  State.reset.get VDR_BST_CFG.TARGET = 480 ∧ State.reset.get CAM_FR_CFG.FLEN = 8 ∧ State.reset.get FUS_REC_CFG.RLEN = 6 ∧
  (State.reset.reg YLD_CLOSE).toNat = 30 ∧ (State.reset.reg (BUS_C_TPADDR 7)).toNat = 0xFEFEFEFE ∧ (State.reset.reg ETH_SW_CFG).toNat = 300 ∧
  (State.reset.reg PAIR_CFG).toNat = 0xC80000 ∧ (State.reset.reg (INP_AIN_GAIN 47)).toNat = 0x3F800000

/-- The register file of State.reset lists its registers in rising order and none at its reset value, and DRAM, MRAM and UFS list no zero byte and rise
strictly (the canonical form of the model's plain data, log entry 4). -/
def Obligations.ResetIsCanonical : Prop :=
  State.reset.wf = true

/-- For every state whose register file and memories are in canonical form (addresses strictly rising, no register listed at its reset value, no byte
listed as 0), whatever commands wait, a step answers a state whose register file, DRAM, MRAM and UFS are in canonical form too, so that equal machines
stay equal data. -/
def Obligations.EveryStepKeepsTheCanonicalForm : Prop :=
  ∀ s t : State, s.wf = true → step s = .next t → t.wf = true

/-- For every command with every operand at every value and for every state, exec answers a next state (no fault, no refusal), in which the part number
and the queue are as before. That this next state holds the command's own effect is what the statements about each family say. -/
def Obligations.EveryCommandIsAnswered : Prop :=
  ∀ (i : Instr) (s : State), ∃ t, exec i s = .next t ∧ t.part = s.part ∧ t.pending = s.pending

/-- For every command, every operand and every state, the next state differs from the state before it at most in the parts of the state that `touches`
lists for that command and in registers of the peripheral windows it lists (where it lists none, in any register: host accesses, ring takes and
resets); every other part, every register of every other window, the part number and the queue are unchanged. -/
def Obligations.EveryCommandStaysInItsFrame : Prop :=
  ∀ (i : Instr) (s t : State), exec i s = .next t → s.within (touches i).1 (touches i).2 t

/-- For every command, every operand and every state, LTC after the command is LTC before it or 0: LTC is never written, steered or stepped, and restarts
from 0 at the instants of Table 3-4 alone. -/
def Obligations.LtcIsNeverSteered : Prop :=
  ∀ (i : Instr) (s t : State), exec i s = .next t → t.ltc = s.ltc ∨ t.ltc = 0

/-- For every command, every operand and every state: MIN_SVN after it is at least MIN_SVN before it; a one-time key slot that holds a key still holds
that key (slots are one-time programmable); and the life-cycle state is as before, or it is the target that was pending before, which is then pending
no more. -/
def Obligations.RollbackLimitAndFuseKeysNeverGoBack : Prop :=
  ∀ (i : Instr) (s t : State), exec i s = .next t →
    s.nv.minSvn ≤ t.nv.minSvn ∧
    (∀ k p, tget s.nv.otp k = some p → tget t.nv.otp k = some p) ∧
    (t.nv.lifeCycle = s.nv.lifeCycle ∨ (s.nv.lcTarget = some t.nv.lifeCycle ∧ t.nv.lcTarget = none))

/-- A core's aligned write to a register that has no rule of its own and is no block's control register, in a window that takes accesses, answers a next
state in which each bit i of that register is: 0 where the register's bit is W1C and the written bit is 1; else the written bit where the bit is RW,
or RWL while its block's ENABLE is 0 and no check of the block runs; else what it was. No other register, no part but the record of the access, and no
memory changes. At an offset that holds no register the write changes no register; no write does while the region of the block reconfigures, nor one
into the KA window in STANDBY or under a power-on reset (the model's choice, log entry 26). -/
def Obligations.RegisterWritesFollowTheAccessCodes : Prop :=
  (∀ (core : Fin 8) (a : Nat) (v : Word) (d : RegDesc) (s : State), goodAddr a = true → s.closed a = false → findDesc a = some d →
    (∀ u : State, u.specialWrite a v = none) → (hasEnable (blkOf a) && decide (a = blkBase (blkOf a))) = false →
    ∃ t, exec (.regWrite core a v) s = .next t ∧ s.keeps [.access] [a] t ∧ t.access = .none ∧
      ∀ i, i < 32 → (t.reg a).getLsbD i =
        (if d.w1c.testBit i ∧ v.getLsbD i then false
         else if d.rw.testBit i ∨ (d.rwl.testBit i ∧ (hasEnable (blkOf a) && (s.enabled (blkOf a) || s.getB (STR_CHK_RES.RUN (blkOf a)))) = false) then v.getLsbD i
         else (s.reg a).getLsbD i)) ∧
  (∀ (core : Fin 8) (a : Nat) (v : Word) (s : State), goodAddr a = true → s.closed a = false → findDesc a = none →
    (∀ u : State, u.specialWrite a v = none) → (hasEnable (blkOf a) && decide (a = blkBase (blkOf a))) = false →
    ∃ t, exec (.regWrite core a v) s = .next t ∧ s.keeps [.access] [] t) ∧
  (∀ (core : Fin 8) (a : Nat) (v : Word) (s : State), goodAddr a = true → s.closed a = true →
    ∃ t, exec (.regWrite core a v) s = .next t ∧ s.keeps [.access] [] t)

/-- VSUP falling below 9.0 V shows UV and sets UV_WARN, rising above 9.3 V clears UV; VSUP above 36.0 V shows OV and sets OV_WARN, below 35.5 V clears OV;
the loss of VBAT_VLV clears VLV_OK and sets VLV_LOSS where a bank switch is closed, its return sets VLV_OK and starts the 10 ms count. A W1C bit that
goes from 0 to 1 raises source 6, one already set raises nothing. A temperature sets WARN from 110 °C, THROTTLE from 120 °C until below 115 °C, each
change raising source 8. VKA below 2.5 V is remembered while it feeds the keep-alive domain. Each command answers a next state in which every other
bit of every register, every other part and memory are as before. (What SAF and VDR do on these events is said in their own statements: here the
safety domain is not READY where VSUP falls or rises, TJ is below 130 °C, and VDR does not tick.) -/
def Obligations.SuppliesAndTemperaturesShowFlagAndRaise : Prop :=
  (∀ (mv : Nat) (s : State), s.safReady = false → ∃ t, exec (.vsupUndervoltage mv) s = .next t ∧
    t.get SYS_SUPPLY.VSUP_MV = mv % 65536 ∧ t.getB SYS_SUPPLY.UV = true ∧ t.getB SYS_SUPPLY.UV_WARN = true ∧
    (s.getB SYS_SUPPLY.UV_WARN = false → s.raised 6 t) ∧ (s.getB SYS_SUPPLY.UV_WARN = true → s.only [] [SYS_SUPPLY.VSUP_MV, SYS_SUPPLY.UV] t) ∧
    s.only [.rcd, .cyc] ([SYS_SUPPLY.VSUP_MV, SYS_SUPPLY.UV, SYS_SUPPLY.UV_WARN] ++ raiseFlds 6) t) ∧
  (∀ (mv : Nat) (s : State), s.safReady = false → ∃ t, exec (.vsupUvClear mv) s = .next t ∧
    t.get SYS_SUPPLY.VSUP_MV = mv % 65536 ∧ t.getB SYS_SUPPLY.UV = false ∧ s.only [] [SYS_SUPPLY.VSUP_MV, SYS_SUPPLY.UV] t) ∧
  (∀ (mv : Nat) (s : State), ∃ t, exec (.vsupOvervoltage mv) s = .next t ∧
    t.get SYS_SUPPLY.VSUP_MV = mv % 65536 ∧ t.getB SYS_SUPPLY.OV = true ∧ t.getB SYS_SUPPLY.OV_WARN = true ∧
    (s.getB SYS_SUPPLY.OV_WARN = false → s.raised 6 t) ∧ (s.getB SYS_SUPPLY.OV_WARN = true → s.only [] [SYS_SUPPLY.VSUP_MV, SYS_SUPPLY.OV] t) ∧
    s.only [.rcd, .cyc] ([SYS_SUPPLY.VSUP_MV, SYS_SUPPLY.OV, SYS_SUPPLY.OV_WARN] ++ raiseFlds 6) t) ∧
  (∀ (mv : Nat) (s : State), ∃ t, exec (.vsupOvClear mv) s = .next t ∧
    t.get SYS_SUPPLY.VSUP_MV = mv % 65536 ∧ t.getB SYS_SUPPLY.OV = false ∧ s.only [] [SYS_SUPPLY.VSUP_MV, SYS_SUPPLY.OV] t) ∧
  (∀ s : State, s.vdrTicks = false → ∃ t, exec .vlvSupplyLoss s = .next t ∧
    t.getB SYS_SUPPLY.VLV_OK = false ∧ t.getB SYS_SUPPLY.VLV_LOSS = (s.getB SYS_SUPPLY.VLV_LOSS || s.anyBankClosed) ∧
    (s.getB SYS_SUPPLY.VLV_LOSS = false → s.anyBankClosed = true → s.raised 6 t) ∧
    t.getB VDR_STATUS.BST_ON = false ∧ t.vdr = { s.vdr with recovery := none, discharge := s.vdr.discharge.started } ∧
    s.only [.vdr, .rcd, .cyc] ([SYS_SUPPLY.VLV_OK, SYS_SUPPLY.VLV_LOSS, VDR_STATUS.BST_ON] ++ raiseFlds 6) t) ∧
  (∀ s : State, ∃ t, exec .vlvSupplyReturn s = .next t ∧
    t.getB SYS_SUPPLY.VLV_OK = true ∧ t.vdr = { s.vdr with recovery := some s.now } ∧ s.only [.vdr] [SYS_SUPPLY.VLV_OK] t) ∧
  (∀ (tj tbp : BitVec 12) (s : State), tj.toInt < 1040 → ∃ t, exec (.thermalUpdate tj tbp) s = .next t ∧
    t.get SYS_TEMP.TJ = tj.toNat ∧ t.get SYS_TEMP.TBP = tbp.toNat ∧
    t.getB SYS_TEMP.WARN = (s.getB SYS_TEMP.WARN || decide (880 ≤ tj.toInt)) ∧
    t.getB SYS_TEMP.THROTTLE = (if 960 ≤ tj.toInt then true else if tj.toInt < 920 then false else s.getB SYS_TEMP.THROTTLE) ∧
    ((t.getB SYS_TEMP.WARN ≠ s.getB SYS_TEMP.WARN ∨ t.getB SYS_TEMP.THROTTLE ≠ s.getB SYS_TEMP.THROTTLE) → s.raised 8 t) ∧
    s.only [.rcd, .cyc] ([SYS_TEMP.TJ, SYS_TEMP.TBP, SYS_TEMP.WARN, SYS_TEMP.THROTTLE] ++ raiseFlds 8) t) ∧
  (∀ s : State, s.sys.mode = .por ∨ s.sys.mode = .standby → ∃ t, exec .vkaLow s = .next t ∧ t.ka = { s.ka with vkaLow := true } ∧ s.only [.ka] [] t)

/-- From the reset hold of phase 1 the oscillators' phase begins; its end sets LTC to 0, counts the power cycle (saturating) in the keep-alive domain and
KA_PWRCYC, sets POR or STBY_EXIT with LAST (after a keep-alive loss KA_LOSS and POR alone, and VKA_LOW where it was recorded: that it shows once is
the model's choice, log entry 106), takes new nonces and begins phase 3; PLL lock, DRAM ready, and the safety domain ready are remembered; the end of
phase 6 leaves DRAM with nothing in it and begins phase 8, whose loads end at once with source 21, source 20 and reason 0x0228 where the image header
cannot be read; a section that cannot be read ends its load with BUSY cleared, reason 0x0228 and source 20; firmware that passed its check enters RUN
with the watchdog started at LTC; firmware that failed with no PREVIOUS slot, or in DECOMMISSIONED, leaves the module in recovery. Each command
answers a next state; what it does not name is as before. (The slot pointer is taken as not on trial and its settings format as 0: R516 and R517 have
their own statements.) -/
def Obligations.StartUpRunsThroughItsPhases : Prop :=
  (∀ s : State, s.sys.mode = .por → ∃ t, exec .resetHoldEnd s = .next t ∧ t.sys = { s.sys with mode := .osc } ∧ s.only [.sys] [] t) ∧
  (∀ s : State, s.sys.mode = .osc → s.sys.cold ≠ .kaLoss → s.nv.trial = false → s.manN s.nv.active 24 4 = 0 → s.ka.vkaLow = false →
    ∃ t, exec .oscillatorsReady s = .next t ∧
    t.ltc = 0 ∧ t.sys = { mode := .starting } ∧ t.ka = { s.ka with pwrcyc := satTo 0xFFFFFFFF (s.ka.pwrcyc + 1) } ∧
    (t.reg KA_PWRCYC).toNat = satTo 0xFFFFFFFF (s.ka.pwrcyc + 1) ∧ t.free = s.free + 4 ∧
    t.getB SYS_RST_CAUSE.POR = (s.getB SYS_RST_CAUSE.POR || decide (s.sys.cold = .por)) ∧
    t.getB SYS_RST_CAUSE.STBY_EXIT = (s.getB SYS_RST_CAUSE.STBY_EXIT || decide (s.sys.cold = .standby)) ∧
    t.get SYS_RST_CAUSE.LAST = (if s.sys.cold = .por then 2 else 3) ∧
    s.only [.ltc, .sys, .ka, .free] [SYS_RST_CAUSE.POR, SYS_RST_CAUSE.STBY_EXIT, SYS_RST_CAUSE.LAST, wordAt KA_PWRCYC, wordAt (UPD_NONCE 0),
      wordAt (UPD_NONCE 1), wordAt (UPD_NONCE 2), wordAt (UPD_NONCE 3)] t) ∧
  (∀ s : State, s.sys.mode = .osc → s.sys.cold = .kaLoss → s.nv.trial = false → s.manN s.nv.active 24 4 = 0 →
    ∃ t, exec .oscillatorsReady s = .next t ∧
    t.ltc = 0 ∧ t.sys = { mode := .starting } ∧ t.ka = { s.ka with pwrcyc := satTo 0xFFFFFFFF (s.ka.pwrcyc + 1), vkaLow := false } ∧
    (t.reg KA_PWRCYC).toNat = satTo 0xFFFFFFFF (s.ka.pwrcyc + 1) ∧ t.free = s.free + 4 ∧
    t.reg SYS_RST_CAUSE = 0x203#32 ∧ t.getB SYS_SUPPLY.VKA_LOW = (s.getB SYS_SUPPLY.VKA_LOW || s.ka.vkaLow) ∧
    ({ s with ltc := 0 }.only [.sys, .ka, .free, .rcd, .cyc] ([wordAt SYS_RST_CAUSE, SYS_SUPPLY.VKA_LOW, wordAt KA_PWRCYC, wordAt (UPD_NONCE 0),
      wordAt (UPD_NONCE 1), wordAt (UPD_NONCE 2), wordAt (UPD_NONCE 3)] ++ raiseFlds 6) t)) ∧
  (∀ s : State, s.sys.mode = .starting → ∃ t, exec .pllLock s = .next t ∧ t.sys = { s.sys with pll := true } ∧ s.only [.sys] [] t) ∧
  (∀ s : State, s.sys.mode = .starting → s.sys.pll = true → ∃ t, exec .dramReady s = .next t ∧ t.sys = { s.sys with dram := true } ∧ s.only [.sys] [] t) ∧
  (∀ (safe : List (Nat × Word)) (s : State), s.sys.safe = false → s.sys.mode = .starting → ∃ t, exec (.safetyDomainReady false safe) s = .next t ∧
    t.sys = { s.sys with safe := true } ∧ s.only [.sys] [] t) ∧
  (∀ s : State, s.sys.mode = .starting → s.sys.dram = true → s.sys.gesso = false → s.nv.lcTarget = none → ∃ t, exec (.gessoDone true) s = .next t ∧
    t.dram = [] ∧ t.sys = { s.sys with gesso := true } ∧ t.get STR_STATUS.BUSY = 0 ∧ t.getB STR_STATUS.BOOT_DONE = true ∧
    t.get STR_RLD_STAT.REASON = 0x0228 ∧ s.raised 20 t ∧ s.raised 21 t ∧ t.str = { s.str with booting := false, boot := [] } ∧
    s.only [.dram, .sys, .str, .rcd, .cyc] ([STR_STATUS.BUSY, STR_STATUS.BOOT_DONE, STR_RLD_STAT.REASON] ++ raiseFlds 20 ++ raiseFlds 21) t) ∧
  (∀ (caps : List (Nat × Word)) (r q : Nat) (rest : List Nat) (s : State), s.str.boot = r :: q :: rest → r < 9 → ∃ t, exec (.startRegionLoadEnd true caps) s = .next t ∧
    t.str = { s.str with boot := q :: rest } ∧ t.busy r = false ∧ (∀ x, x < 9 → x ≠ r → t.busy x = s.busy x) ∧
    t.get STR_RLD_STAT.REGION = r ∧ t.get STR_RLD_STAT.REASON = 0x0228 ∧ s.raised 20 t ∧
    s.only [.str, .rcd, .cyc] ([STR_STATUS.BUSY, STR_RLD_STAT.REGION, STR_RLD_STAT.REASON] ++ raiseFlds 20) t) ∧
  (∀ (caps : List (Nat × Word)) (r : Nat) (s : State), s.str.boot = [r] → r < 9 → ∃ t, exec (.startRegionLoadEnd true caps) s = .next t ∧
    t.str = { s.str with boot := [], booting := false } ∧ t.busy r = false ∧ (∀ x, x < 9 → x ≠ r → t.busy x = s.busy x) ∧ t.getB STR_STATUS.BOOT_DONE = true ∧
    t.get STR_RLD_STAT.REGION = r ∧ t.get STR_RLD_STAT.REASON = 0x0228 ∧ s.raised 20 t ∧ s.raised 21 t ∧
    s.only [.str, .rcd, .cyc] ([STR_STATUS.BUSY, STR_STATUS.BOOT_DONE, STR_RLD_STAT.REGION, STR_RLD_STAT.REASON] ++ raiseFlds 20 ++ raiseFlds 21) t) ∧
  (∀ s : State, s.sys.mode = .starting → s.sys.gesso = true → s.sys.fw = false → s.nv.lifeCycle ≠ 4 → ∃ t, exec (.hostFirmwareLoaded true) s = .next t ∧
    t.sys = { s.sys with fw := true } ∧ s.only [.sys] [] t) ∧
  (∀ (ok : Bool) (s : State), s.sys.mode = .starting → s.sys.gesso = true → s.sys.fw = false → (s.nv.lifeCycle = 4 ∨ (ok = false ∧ s.nv.inact ≠ .previous)) →
    ∃ t, exec (.hostFirmwareLoaded ok) s = .next t ∧ t.sys = { s.sys with mode := .recovery } ∧
    t.getB UPD_USB.CONN = (s.upd.vbus && decide (s.nv.lifeCycle ≠ 4)) ∧ s.only [.sys] [UPD_USB.CONN] t) ∧
  (∀ s : State, s.sys.mode = .starting → s.sys.fw = true → ∃ t, exec .runEntry s = .next t ∧
    t.sys = { s.sys with mode := .run, wdtOn := true, wdtStart := s.now, wdtEarly := false } ∧ s.only [.sys] [] t)

/-- A power-on reset puts the module into phase 1; its start is one after a keep-alive loss where such a loss has not been recorded yet (that it then
stands for the whole start is the model's choice, log entry 107). nRST, the watchdog's expiry after a full period without a kick, a safety request, or
a module reset source holds the module in reset with the cause of Table 3-2 (bit 3, 4 or 5), and a further one adds its cause. Each of them wipes the
module (`wiped`): LTC, DRAM, every ring, GEN counter, loaded image, check, event, latched companion, every block's state and every register but those
that show pins, sensors, keep-alive copies and factory values are at reset, and MRAM, UFS, the system area and what the pins show stay; the keep-alive
domain stays. The release of a module reset sets LTC to 0, sets the cause bits, gives LAST 4 to 7 and begins phase 3, and changes nothing else. A
keep-alive loss sets both counters to their MRAM mirrors, KA_FLAGS to 2 and VKA_LOW's record, makes the start under way one after a keep-alive loss,
and changes nothing else. -/
def Obligations.ResetsLeaveTheirColumnOfTable34 : Prop :=
  (∀ s : State, ∃ t, exec .powerOnReset s = .next t ∧ s.wiped t ∧
    t.sys = { mode := .por, cold := if (s.sys.mode = .por ∨ s.sys.mode = .osc ∨ (s.sys.mode = .resetHeld ∧ s.sys.owePhase2 = true)) ∧ s.sys.cold = .kaLoss then .kaLoss else .por } ∧
    t.nv = s.nv ∧ t.free = s.free ∧ t.ka = { s.ka with writePend := false } ∧ (t.reg KA_OPSEC).toNat = s.ka.opsec % 2 ^ 32 ∧ (t.reg KA_PWRCYC).toNat = s.ka.pwrcyc % 2 ^ 32 ∧ (t.reg KA_FLAGS).toNat = s.ka.flags % 2 ^ 32) ∧
  (∀ s : State, s.sys.mode ≠ .por → s.sys.mode ≠ .standby → s.sys.mode ≠ .resetHeld → ∃ t, exec .nrstAssert s = .next t ∧ s.wiped t ∧
    t.sys = { mode := .resetHeld, causes := 8, owePhase2 := decide (s.sys.mode = .osc), cold := s.sys.cold } ∧ t.nv = s.nv ∧ t.free = s.free ∧ t.ka = s.ka ∧
    t.reg KA_OPSEC = s.reg KA_OPSEC ∧ t.reg KA_PWRCYC = s.reg KA_PWRCYC ∧ t.reg KA_FLAGS = s.reg KA_FLAGS) ∧
  (∀ s : State, s.sys.mode = .resetHeld → ∃ t, exec .nrstAssert s = .next t ∧ t.sys = { s.sys with causes := putBits s.sys.causes 3 1 1 } ∧ s.only [.sys] [] t) ∧
  (∀ (src : ResetSource) (s : State), s.sys.mode ≠ .por → s.sys.mode ≠ .standby → s.sys.mode ≠ .resetHeld → (src = .safety → s.sys.safeReq = true) →
    ∃ t, exec (.moduleResetAssert src) s = .next t ∧ s.wiped t ∧
    t.sys = { mode := .resetHeld, causes := (match src with | .nrst => 8 | .watchdog => 16 | .safety => 32), owePhase2 := decide (s.sys.mode = .osc), cold := s.sys.cold } ∧
    t.nv = s.nv ∧ t.free = s.free ∧ t.ka = s.ka ∧ t.reg KA_OPSEC = s.reg KA_OPSEC ∧ t.reg KA_PWRCYC = s.reg KA_PWRCYC ∧ t.reg KA_FLAGS = s.reg KA_FLAGS) ∧
  (∀ s : State, s.wdtCounts = true → s.get SYS_WDT_CFG.PERIOD * 1000000 ≤ s.since s.sys.wdtStart → ∃ t, exec .wdtExpire s = .next t ∧ s.wiped t ∧
    t.sys = { mode := .resetHeld, causes := 16, cold := s.sys.cold } ∧ t.nv = s.nv ∧ t.free = s.free ∧ t.ka = s.ka ∧
    t.reg KA_OPSEC = s.reg KA_OPSEC ∧ t.reg KA_PWRCYC = s.reg KA_PWRCYC ∧ t.reg KA_FLAGS = s.reg KA_FLAGS) ∧
  (∀ s : State, s.sys.mode = .resetHeld → s.sys.owePhase2 = false → s.nv.trial = false → s.manN s.nv.active 24 4 = 0 → s.sys.causes < 128 → ∃ t, exec .moduleResetRelease s = .next t ∧
    t.ltc = 0 ∧ t.sys = { mode := .starting } ∧ (∀ i, i < 7 → bitAt (t.reg SYS_RST_CAUSE).toNat i = (bitAt (s.reg SYS_RST_CAUSE).toNat i || bitAt s.sys.causes i)) ∧
    t.get SYS_RST_CAUSE.LAST = (if bitAt s.sys.causes 6 then 7 else if bitAt s.sys.causes 5 then 6 else if bitAt s.sys.causes 4 then 5 else 4) ∧ t.free = s.free + 4 ∧
    s.only [.ltc, .sys, .free] [SYS_RST_CAUSE.LAST, ⟨SYS_RST_CAUSE, 0, 7⟩, wordAt (UPD_NONCE 0), wordAt (UPD_NONCE 1), wordAt (UPD_NONCE 2), wordAt (UPD_NONCE 3)] t) ∧
  (∀ s : State, s.sys.mode = .por ∨ s.sys.mode = .standby → ∃ t, exec .keepAliveLoss s = .next t ∧
    t.ka = { opsec := s.nv.mirrorOpsec, pwrcyc := s.nv.mirrorPwrcyc, flags := 2, vkaLow := true, mirrorAt := s.nv.mirrorOpsec } ∧
    t.sys = { s.sys with mode := .por, cold := .kaLoss } ∧ t.reg KA_FLAGS = 2#32 ∧ t.reg KA_OPSEC = BitVec.ofNat 32 s.nv.mirrorOpsec ∧
    t.reg KA_PWRCYC = BitVec.ofNat 32 s.nv.mirrorPwrcyc ∧ s.only [.sys, .ka] [wordAt KA_OPSEC, wordAt KA_PWRCYC, wordAt KA_FLAGS] t)

/-- A write of 0x5A5A to SYS_WDT_KICK restarts the watchdog at LTC and another value has no effect; a write of SYS_WDT_CFG takes PERIOD and restarts it,
but a PERIOD of 0 is ignored outside MANUFACTURE and DEVELOPMENT; half the period without a kick raises source 9 once. A write of SYS_BLK_RST with a
block that can be reset alone, while BUSY is 0 and its region is not BUSY, sets BUSY and puts every register of the block's window (but what pins, the
capacitor and the factory show, the requests that blocks keep raised at ARB, and UPD's nonce: the model's choice, log entry 108), every ring, every
object and the raised sources of the block at reset. Every other ring, register and part stays as it is, but where the block is ARB or has a grant of
ARB to give back (FEN, YLD, REC, UPD): there also ARB's grants, the windows of ARB, FEN, YLD and REC, and event sources may change. Other block
numbers, and writes while BUSY is 1 or the region is BUSY, are ignored; the end of the reset clears BUSY and raises source 10. What a command does not
name is as before. -/
def Obligations.WatchdogAndBlockResetDoAsR73AndR74Say : Prop :=
  (∀ (core : Fin 8) (s : State), ∃ t, exec (.wdtKick core 0x5A5A#32) s = .next t ∧
    t.sys = { s.sys with wdtStart := s.now, wdtEarly := false } ∧ t.access = .none ∧ s.only [.access, .sys] [] t) ∧
  (∀ (core : Fin 8) (value : Word) (s : State), value ≠ 0x5A5A#32 → ∃ t, exec (.wdtKick core value) s = .next t ∧ s.only [.access] [] t) ∧
  (∀ (core : Fin 8) (value : Word) (s : State), value.toNat % 65536 ≠ 0 ∨ s.nv.lifeCycle ≤ 1 → ∃ t, exec (.wdtPeriodWrite core value) s = .next t ∧
    t.get SYS_WDT_CFG.PERIOD = value.toNat % 65536 ∧ t.sys = { s.sys with wdtStart := s.now, wdtEarly := false } ∧ s.only [.access, .sys] [SYS_WDT_CFG.PERIOD] t) ∧
  (∀ (core : Fin 8) (value : Word) (s : State), value.toNat % 65536 = 0 → 2 ≤ s.nv.lifeCycle → ∃ t, exec (.wdtPeriodWrite core value) s = .next t ∧ s.only [.access] [] t) ∧
  (∀ s : State, s.wdtCounts = true → s.sys.wdtEarly = false → s.get SYS_WDT_CFG.PERIOD * 500000 ≤ s.since s.sys.wdtStart → ∃ t, exec .wdtEarly s = .next t ∧
    t.sys = { s.sys with wdtEarly := true } ∧ s.raised 9 t ∧ s.only [.sys, .rcd, .cyc] (raiseFlds 9) t) ∧
  (∀ (core : Fin 8) (value : Word) (b : Nat) (s : State), value.toNat % 256 = b → resettable b = true → s.getB SYS_BLK_RST.BUSY = false →
    (regionOf b).any (fun r => s.busy r) = false → ∃ t, exec (.blockReset core value) s = .next t ∧
    t.getB SYS_BLK_RST.BUSY = true ∧ t.sys = { s.sys with blkRst := some b } ∧ s.blkAtReset b t ∧
    (∀ a, windowOf a = 0xC0 + b → a ∉ blkKept → t.reg a = resetOf a) ∧ (∀ r, r < 32 → t.ring b r = {}) ∧
    (∀ c r, c ≠ b → r < 32 → t.ring c r = s.ring c r) ∧
    (∀ n, (sourcesOf b).1 ≤ n → n < (sourcesOf b).1 + (sourcesOf b).2 → t.getB (EVT_SRC_STAT.PEND n) = false ∧ t.reg (EVT_SRC_CFG n) = s.reg (EVT_SRC_CFG n)) ∧
    (∀ a, windowOf a ≠ 0xC0 + b → (b ∈ [0x0A, 0x0B, 0x0D, 0x12, 0x13] → windowOf a ∉ [0xC1, 0xCA, 0xCB, 0xCD, 0xD2]) →
      (a < 0xC1001000 + 16 * (sourcesOf b).1 ∨ 0xC1001000 + 16 * ((sourcesOf b).1 + (sourcesOf b).2) ≤ a) → a ≠ SYS_BLK_RST → t.reg a = s.reg a) ∧
    (∀ p, p ∉ [Comp.access, .latch, .sys, .rings] ++ blkParts b → (b ∈ [0x0A, 0x0B, 0x0D, 0x12, 0x13] → p ∉ [Comp.arb, .fen, .rcd, .cyc]) → s.same t p) ∧
    t.part = s.part ∧ t.pending = s.pending) ∧
  (∀ (core : Fin 8) (value : Word) (s : State), resettable (value.toNat % 256) = false ∨ s.getB SYS_BLK_RST.BUSY = true ∨ (regionOf (value.toNat % 256)).any (fun r => s.busy r) = true → ∃ t, exec (.blockReset core value) s = .next t ∧ s.only [.access] [] t) ∧
  (∀ (b : Nat) (s : State), s.sys.blkRst = some b → ∃ t, exec .blkRstDone s = .next t ∧ t.sys = { s.sys with blkRst := none } ∧ t.getB SYS_BLK_RST.BUSY = false ∧
    s.raised 10 t ∧ s.only [.sys, .rcd, .cyc] (SYS_BLK_RST.BUSY :: raiseFlds 10) t)

/-- With the KEY a request for IDLE in RUN lets every core halt (at its next wait-for-interrupt), and an enabled, raised source with a target resumes
them; a PARK or STANDBY request in RUN or IDLE while entry runs or an update holds storage is refused with reason 0x010F and source 11; else it is
accepted: BUSY is set, the WAKE flags clear and entry begins, in the parts and windows named. Completed entry to PARK writes the keep-alive mirrors,
puts the windows of every block of Table 1-1 from INP to UPD at reset (but what pins, the capacitor and the factory show, and UPD's nonce: log entry
108), empties every ring, unloads every region, remembers which were loaded, and keeps DRAM, MRAM, UFS, LTC, TMS, the GEN counters and the registers
of SYS, TMS and KA (SYS_PWR_STAT apart): the module is in PARK. Entry to STANDBY wipes the module and leaves it in STANDBY, or with a wake latched in
the cold start of a STANDBY exit. In PARK, a wake with both SYS_RESUME registers 0 is a module reset with cause PARK_EXIT; else, where the image
header cannot be read, the module runs again with PARK_EXIT set, LAST 7, the watchdog restarted and no region loaded. IGN and WAKE edges show in
SYS_SUPPLY and raise source 7 in RUN and IDLE; a rising one leaves STANDBY as a cold start and sets its KA_FLAGS bit; CAN wake-ups set theirs in PARK.
The operating seconds count, the mirror is written after 60 of them, and a KA write reaches the domain. -/
def Obligations.PowerStatesAreEnteredAndLeftAsR75ToR78Say : Prop :=
  (∀ (core : Fin 8) (s : State), s.sys.mode = .run → ∃ t, exec (.idleRequest core 0xA5C30001#32) s = .next t ∧ t.sys = { s.sys with mode := .idle, halting := 0xFF } ∧ s.only [.access, .sys] [] t) ∧
  (∀ (n : Nat) (s : State), s.sys.mode = .idle → n < 384 → s.getB (EVT_SRC_CFG.EN n) = true → s.getB (EVT_SRC_STAT.PEND n) = true → s.get (EVT_SRC_CFG.TGT n) ≠ 0 →
    ∃ t, exec .idleExit s = .next t ∧ t.sys = { s.sys with mode := .run, halting := 0 } ∧ s.only [.sys] [] t) ∧
  (∀ (core : Fin 8) (s : State), s.sys.mode = .run ∨ s.sys.mode = .idle → s.sys.entry ≠ none ∨ s.arbHeldByUpdate = true → ∃ t, exec (.parkRequest core 0xA5C30002#32) s = .next t ∧
    t.get SYS_PWR_STAT.REASON = 0x010F ∧ s.raised 11 t ∧ s.only [.access, .rcd, .cyc] (SYS_PWR_STAT.REASON :: raiseFlds 11) t) ∧
  (∀ (core : Fin 8) (s : State), s.sys.mode = .run ∨ s.sys.mode = .idle → s.sys.entry = none → s.arbHeldByUpdate = false → ∃ t, exec (.parkRequest core 0xA5C30002#32) s = .next t ∧
    t.sys = { s.sys with entry := some false, wake := false } ∧ t.ka = { s.ka with flags := putBits s.ka.flags 8 4 0 } ∧ t.getB SYS_PWR_STAT.BUSY = true ∧
    t.get ⟨KA_FLAGS, 8, 4⟩ = 0 ∧ t.ltc = s.ltc ∧ t.gens = s.gens ∧ t.nv = s.nv ∧ t.ufs = s.ufs ∧
    s.within [.access, .dram, .mram, .sys, .ka, .rings, .vdr, .stk, .saf, .arb, .pnl, .rcd, .cyc, .upd] (some [0xC0, 0xC1, 0xC6, 0xC7, 0xCB, 0xD1, 0xD2, 0xD3, 0xD4]) t) ∧
  (∀ (core : Fin 8) (s : State), s.sys.mode = .run ∨ s.sys.mode = .idle → s.sys.entry = none → s.arbHeldByUpdate = false → ∃ t, exec (.standbyRequest core 0xA5C30003#32) s = .next t ∧
    t.sys = { s.sys with entry := some true, wake := false } ∧ t.ka = { s.ka with flags := putBits s.ka.flags 8 4 0 } ∧ t.getB SYS_PWR_STAT.BUSY = true ∧
    s.within [.access, .dram, .mram, .sys, .ka, .rings, .vdr, .stk, .saf, .arb, .pnl, .rcd, .cyc, .upd] (some [0xC0, 0xC1, 0xC6, 0xC7, 0xCB, 0xD1, 0xD2, 0xD3, 0xD4]) t) ∧
  (∀ s : State, s.sys.entry = some false → s.ka.writePend = false → s.safEntryWaits = false → s.pnlEntryWaits = false → ∃ t, exec .powerStateEntryDone s = .next t ∧
    t.sys = { s.sys with mode := .park, entry := none, atEntry := s.get STR_STATUS.LOADED, safe := false, wdtOn := false, halting := 0 } ∧
    t.getB SYS_PWR_STAT.BUSY = false ∧ t.nv = { s.nv with mirrorOpsec := s.ka.opsec, mirrorPwrcyc := s.ka.pwrcyc } ∧ t.ka = { s.ka with mirrorAt := s.ka.opsec } ∧
    (∀ r, r < 10 → t.loaded r = false) ∧ (∀ a, 0xC4 ≤ windowOf a → windowOf a ≤ 0xD3 → a ∉ blkKept ∨ windowOf a = 0xCB → t.reg a = resetOf a) ∧ (∀ b r, 4 ≤ b → b ≤ 0x13 → r < 32 → t.ring b r = {}) ∧
    (∀ a, windowOf a ∈ [0xC0, 0xC3, 0xD4] → a ≠ SYS_PWR_STAT → t.reg a = s.reg a) ∧
    (∀ p ∈ [Comp.ltc, .access, .dram, .mram, .ufs, .gens, .tms], s.same t p) ∧ t.part = s.part ∧ t.pending = s.pending) ∧
  (∀ s : State, s.sys.entry = some true → s.sys.wake = false → s.ka.writePend = false → s.safEntryWaits = false → s.pnlEntryWaits = false → ∃ t, exec .powerStateEntryDone s = .next t ∧
    s.wiped t ∧ t.sys = { mode := .standby } ∧ t.nv = { s.nv with mirrorOpsec := s.ka.opsec, mirrorPwrcyc := s.ka.pwrcyc } ∧ t.ka = { s.ka with mirrorAt := s.ka.opsec } ∧
    t.reg KA_OPSEC = s.reg KA_OPSEC ∧ t.reg KA_PWRCYC = s.reg KA_PWRCYC ∧ t.reg KA_FLAGS = s.reg KA_FLAGS) ∧
  (∀ s : State, s.sys.entry = some true → s.sys.wake = true → s.ka.writePend = false → s.safEntryWaits = false → s.pnlEntryWaits = false → ∃ t, exec .powerStateEntryDone s = .next t ∧
    s.wiped t ∧ t.sys = { mode := .por, cold := .standby } ∧ t.nv = { s.nv with mirrorOpsec := s.ka.opsec, mirrorPwrcyc := s.ka.pwrcyc } ∧ t.ka = { s.ka with mirrorAt := s.ka.opsec }) ∧
  (∀ (readErr : Bool) (s : State), s.sys.mode = .park → s.sys.wake = true → s.get64 SYS_RESUME_LO SYS_RESUME_HI = 0 → ∃ t, exec (.parkExit readErr) s = .next t ∧
    s.wiped t ∧ t.sys = { mode := .resetHeld, causes := 64 } ∧ t.nv = s.nv ∧ t.free = s.free ∧ t.ka = s.ka ∧
    t.reg KA_OPSEC = s.reg KA_OPSEC ∧ t.reg KA_PWRCYC = s.reg KA_PWRCYC ∧ t.reg KA_FLAGS = s.reg KA_FLAGS) ∧
  (∀ s : State, s.sys.mode = .park → s.sys.wake = true → s.get64 SYS_RESUME_LO SYS_RESUME_HI ≠ 0 → ∃ t, exec (.parkExit true) s = .next t ∧
    t.sys = { mode := .run, wdtOn := true, wdtStart := s.now, blkRst := s.sys.blkRst } ∧ t.getB SYS_RST_CAUSE.PARK_EXIT = true ∧ t.get SYS_RST_CAUSE.LAST = 7 ∧
    t.getB STR_STATUS.BOOT_DONE = true ∧ t.get STR_STATUS.BUSY = 0 ∧ t.get STR_RLD_STAT.REASON = 0x0228 ∧
    s.only [.sys, .str, .rcd, .cyc] ([SYS_RST_CAUSE.PARK_EXIT, SYS_RST_CAUSE.LAST, STR_STATUS.BUSY, STR_STATUS.BOOT_DONE, STR_RLD_STAT.REASON] ++ raiseFlds 20 ++ raiseFlds 21) t) ∧
  (∀ (wakePin rise : Bool) (s : State), s.sys.mode = .run ∨ s.sys.mode = .idle → s.sys.entry = none → ∃ t, exec (.ignEdge wakePin rise) s = .next t ∧
    t.getB (if wakePin then SYS_SUPPLY.WAKE else SYS_SUPPLY.IGN) = rise ∧ s.raised 7 t ∧
    s.only [.rcd, .cyc] ((if wakePin then SYS_SUPPLY.WAKE else SYS_SUPPLY.IGN) :: raiseFlds 7) t) ∧
  (∀ (wakePin : Bool) (s : State), s.sys.mode = .standby → ∃ t, exec (.ignEdge wakePin true) s = .next t ∧
    (s.setB (if wakePin then SYS_SUPPLY.WAKE else SYS_SUPPLY.IGN) true).wiped t ∧ t.sys = { mode := .por, cold := .standby } ∧
    t.ka = { s.ka with flags := putBits s.ka.flags (if wakePin then 9 else 8) 1 1, writePend := false } ∧ t.nv = s.nv ∧ t.free = s.free ∧
    (t.reg KA_OPSEC).toNat = t.ka.opsec % 2 ^ 32 ∧ (t.reg KA_PWRCYC).toNat = t.ka.pwrcyc % 2 ^ 32 ∧ (t.reg KA_FLAGS).toNat = t.ka.flags % 2 ^ 32) ∧
  (∀ (bus : Fin 2) (s : State), s.sys.mode = .park ∨ s.sys.entry = some false → ∃ t, exec (.canWake bus) s = .next t ∧
    t.sys = { s.sys with wake := true } ∧ t.ka = { s.ka with flags := putBits s.ka.flags (10 + bus.val) 1 1 } ∧ t.getB ⟨KA_FLAGS, 10 + bus.val, 1⟩ = true ∧
    s.only [.sys, .ka] [⟨KA_FLAGS, 10 + bus.val, 1⟩] t) ∧
  (∀ s : State, s.sys.mode = .run ∨ s.sys.mode = .idle → ∃ t, exec .opsecTick s = .next t ∧ t.ka = { s.ka with opsec := satTo 0xFFFFFFFF (s.ka.opsec + 1) } ∧
    (t.reg KA_OPSEC).toNat = satTo 0xFFFFFFFF (s.ka.opsec + 1) ∧ s.only [.ka] [wordAt KA_OPSEC] t) ∧
  (∀ s : State, s.ka.mirrorAt + 60 ≤ s.ka.opsec → ∃ t, exec .kaMirrorWrite s = .next t ∧
    t.nv = { s.nv with mirrorOpsec := s.ka.opsec, mirrorPwrcyc := s.ka.pwrcyc } ∧ t.ka = { s.ka with mirrorAt := s.ka.opsec } ∧ s.only [.ka, .nv] [] t) ∧
  (∀ s : State, s.ka.writePend = true → ∃ t, exec .kaWritePropagate s = .next t ∧ t.ka = { s.ka with flags := (s.reg KA_FLAGS).toNat, writePend := false } ∧ s.only [.ka] [] t)

/-- Writing 1 to a disabled block's ENABLE, in an open window, sets its RUN and leaves ENABLE 0: its check is queued behind those that landed in earlier
REF cycles, and among those of the same cycle in ascending order of block number; while commands of the block are in flight it is held until their
last completion. Writing the value ENABLE has changes nothing but the access's outcome. The end of the check at the head of the queue clears RUN,
counts it, and gives PASS, REASON and OFFSET: the failing test that R103 picks with source 17 (the block stays disabled; nothing else changes), or
PASS with ENABLE set and every ring of the block emptied with its four indices at 0. At a pass the window of the block, its own state, its check's
registers, the registers of source 16 (UPD: of EVT's sources), and for YLD INP's windows waiting for it and for PAIR the model's counter of free
values may change besides; every other ring, register and part stays. Source 16 is raised either way. -/
def Obligations.ChecksAndEnableDoAsR29R103AndR127Say : Prop :=
  (∀ (core : Fin 8) (blk : Fin 21) (value : Word) (s : State), hasEnable blk.val = true → s.closed (blkBase blk.val) = false → s.enabled blk.val = false →
    s.getB (STR_CHK_RES.RUN blk.val) = false → bitAt value.toNat 0 = true → s.inFlight blk.val = true → ∃ t, exec (.enableSet core blk value) s = .next t ∧
    t.getB (STR_CHK_RES.RUN blk.val) = true ∧ t.enabled blk.val = false ∧
    t.str = { s.str with held := s.str.held ++ [blk.val] } ∧
    s.only [.access, .str] [STR_CHK_RES.RUN blk.val, wordAt (blkBase blk.val)] t) ∧
  (∀ (core : Fin 8) (blk : Fin 21) (value : Word) (s : State), hasEnable blk.val = true → s.closed (blkBase blk.val) = false → s.enabled blk.val = false →
    s.getB (STR_CHK_RES.RUN blk.val) = false → bitAt value.toNat 0 = true → s.inFlight blk.val = false → s.str.landAt ≠ s.ltc → ∃ t, exec (.enableSet core blk value) s = .next t ∧
    t.getB (STR_CHK_RES.RUN blk.val) = true ∧ t.enabled blk.val = false ∧
    t.str = { s.str with checks := s.str.checks ++ [blk.val], landAt := s.ltc, landed := 1 } ∧
    s.only [.access, .str] [STR_CHK_RES.RUN blk.val, wordAt (blkBase blk.val)] t) ∧
  (∀ (core : Fin 8) (blk : Fin 21) (value : Word) (old new : List Nat) (s : State), hasEnable blk.val = true → s.closed (blkBase blk.val) = false → s.enabled blk.val = false →
    s.getB (STR_CHK_RES.RUN blk.val) = false → bitAt value.toNat 0 = true → s.inFlight blk.val = false → s.str.landAt = s.ltc → s.str.checks = old ++ new → s.str.landed = new.length →
    ∃ t, exec (.enableSet core blk value) s = .next t ∧
    t.getB (STR_CHK_RES.RUN blk.val) = true ∧ t.enabled blk.val = false ∧
    t.str = { s.str with checks := old ++ (new.filter fun x => decide (x < blk.val)) ++ blk.val :: (new.filter fun x => !decide (x < blk.val)), landed := new.length + 1 } ∧
    s.only [.access, .str] [STR_CHK_RES.RUN blk.val, wordAt (blkBase blk.val)] t) ∧
  (∀ (core : Fin 8) (blk : Fin 21) (value : Word) (s : State), hasEnable blk.val = true → s.closed (blkBase blk.val) = false → s.enabled blk.val = bitAt value.toNat 0 →
    ∃ t, exec (.enableSet core blk value) s = .next t ∧ t.enabled blk.val = s.enabled blk.val ∧ s.only [.access] [wordAt (blkBase blk.val)] t) ∧
  (∀ (blk : Fin 21) (s : State), blk.val ∈ s.str.held → s.inFlight blk.val = false → ∃ t, exec (.checkEnqueue blk) s = .next t ∧
    t.str = { s.str with held := s.str.held.filter (· ≠ blk.val), checks := s.str.checks ++ [blk.val], landed := 0 } ∧ s.only [.str] [] t) ∧
  (∀ (b code off : Nat) (rest : List Nat) (s : State), s.str.checks = b :: rest → b < 21 → pickFailure ({ s with str := { s.str with checks := rest } }.blkTests b) = some (code, off) →
    ∃ t, exec .checkEnd s = .next t ∧ t.str = { s.str with checks := rest } ∧ t.getB (STR_CHK_RES.RUN b) = false ∧ t.getB (STR_CHK_RES.PASS b) = false ∧
    t.get (STR_CHK_RES.COUNT b) = (s.get (STR_CHK_RES.COUNT b) + 1) % 256 ∧ t.get (STR_CHK_RES.REASON b) = (b * 256 + code) % 65536 ∧
    t.get (STR_CHK_DET.OFFSET b) = off % 2 ^ (STR_CHK_DET.OFFSET b).width ∧ s.raised 16 t ∧ s.raised 17 t ∧ t.enabled b = s.enabled b ∧
    s.only [.str, .rcd, .cyc] ([wordAt (STR_CHK_RES b), wordAt (STR_CHK_DET b)] ++ raiseFlds 16 ++ raiseFlds 17) t) ∧
  (∀ (b : Nat) (rest : List Nat) (s : State), s.str.checks = b :: rest → hasEnable b = true → pickFailure ({ s with str := { s.str with checks := rest } }.blkTests b) = none →
    ∃ t, exec .checkEnd s = .next t ∧ t.str = { s.str with checks := rest } ∧ t.enabled b = true ∧ t.getB (STR_CHK_RES.RUN b) = false ∧ t.getB (STR_CHK_RES.PASS b) = true ∧
    t.get (STR_CHK_RES.COUNT b) = (s.get (STR_CHK_RES.COUNT b) + 1) % 256 ∧ t.get (STR_CHK_RES.REASON b) = b * 256 ∧ t.get (STR_CHK_DET.OFFSET b) = 0 ∧ s.raised 16 t ∧
    (∀ r, r < ringCount b → t.ring b r = {} ∧ t.get (RING_PI b r) = 0 ∧ t.get (RING_CI b r) = 0 ∧ t.get (CRING_PI b r) = 0 ∧ t.get (CRING_CI b r) = 0) ∧
    (∀ c r, c ≠ b → r < 32 → t.ring c r = s.ring c r) ∧
    (∀ a, windowOf a ≠ 0xC0 + b → windowOf a ∉ [0xC1, 0xC2] → t.reg a = s.reg a) ∧
    (∀ a, windowOf a = 0xC2 → a ≠ STR_CHK_RES b → a ≠ STR_CHK_DET b → t.reg a = s.reg a) ∧
    (∀ a, windowOf a = 0xC1 → a ∉ raiseRegs 16 → b ≠ 0x13 → t.reg a = s.reg a) ∧
    (∀ p, p ∉ [Comp.str, .rings, .rcd, .cyc] ++ blkParts b → (b = 0x0D → p ≠ .inp) → (b = 0x10 → p ≠ .free) → s.same t p) ∧ t.part = s.part ∧ t.pending = s.pending)

/-- A START while no reload runs sets BUSY and PHASE 1 and takes the request's fields; while one runs it is refused with the lowest reason that applies
and source 20, and the running one goes on. The check phase ends refused with the lowest applying reason of Table 4-5 and source 20, or accepted:
REGION shows the region, it is BUSY and not LOADED, its blocks are reset and disabled, PHASE is 2, source 18 is raised. The stop phase ends no sooner
than 20 µs from its start, for VLV (region 2) once no output conducts; the load phase computes the digest (of the section as it stands: log entry
109), or ends unloaded with 0x0228 on a read error; the digest the header holds binds the region (LOADED, reason 0x0200, source 19, with SRC = 0 its
UPD_PEND bit cleared), another ends unloaded with 0x0224 and source 20. A corrected upset counts and raises 22, an uncorrectable one sets its UE bit,
raises 23, unloads the region and resets its blocks, enabled or not (log entry 111). Where a region's blocks are reset, their windows, own state,
rings and sources change, and what a DMA or grant of ARB leaves, in the windows named; where it is connected or unloaded, STR's window, the image
values, and for a connection the registers of its blocks. -/
def Obligations.ReloadsAndScrubbingDoAsR95ToR102Say : Prop :=
  (∀ (core : Fin 8) (value : Word) (s : State), bitAt value.toNat 31 = true → s.str.reload = none → ∃ t, exec (.reloadRequest core value) s = .next t ∧
    t.str = { s.str with reload := some { region := bitsOf value.toNat 0 4, src := bitAt value.toNat 4, force := bitAt value.toNat 8, digest := 0, stopAt := s.now } } ∧
    t.getB STR_RLD_STAT.BUSY = true ∧ t.get STR_RLD_STAT.PHASE = 1 ∧
    t.get STR_RLD_CTRL.REGION = bitsOf value.toNat 0 4 ∧ t.get STR_RLD_CTRL.SRC = bitsOf value.toNat 4 1 ∧ t.get STR_RLD_CTRL.FORCE = bitsOf value.toNat 8 1 ∧
    s.only [.access, .str] [STR_RLD_CTRL.REGION, STR_RLD_CTRL.SRC, STR_RLD_CTRL.FORCE, STR_RLD_STAT.BUSY, STR_RLD_STAT.PHASE] t) ∧
  (∀ (core : Fin 8) (value : Word) (s : State), bitAt value.toNat 31 = true → s.str.reload.isSome = true → ∃ t, exec (.reloadRequest core value) s = .next t ∧
    t.get STR_RLD_STAT.REASON =
      s.reloadReason { region := bitsOf value.toNat 0 4, src := bitAt value.toNat 4, force := bitAt value.toNat 8, digest := 0, stopAt := s.now } true false ∧ s.raised 20 t ∧ s.only [.access, .rcd, .cyc] ([STR_RLD_CTRL.REGION, STR_RLD_CTRL.SRC, STR_RLD_CTRL.FORCE, STR_RLD_STAT.REASON] ++ raiseFlds 20) t) ∧
  (∀ (readErr : Bool) (q : Reload) (s : State), s.str.reload = some q → s.get STR_RLD_STAT.PHASE = 1 → s.reloadReason q false readErr ≠ 0 → ∃ t, exec (.reloadCheckEnd readErr) s = .next t ∧
    t.str = { s.str with reload := none } ∧ t.getB STR_RLD_STAT.BUSY = false ∧ t.get STR_RLD_STAT.PHASE = 0 ∧ t.get STR_RLD_STAT.REASON = s.reloadReason q false readErr ∧ s.raised 20 t ∧
    s.only [.str, .rcd, .cyc] ([STR_RLD_STAT.BUSY, STR_RLD_STAT.PHASE, STR_RLD_STAT.REASON] ++ raiseFlds 20) t) ∧
  (∀ (readErr : Bool) (q : Reload) (s : State), s.str.reload = some q → s.get STR_RLD_STAT.PHASE = 1 → s.reloadReason q false readErr = 0 → ∃ t, exec (.reloadCheckEnd readErr) s = .next t ∧
    t.busy q.region = true ∧ t.loaded q.region = false ∧ t.get STR_RLD_STAT.REGION = q.region ∧ t.get STR_RLD_STAT.PHASE = 2 ∧
    t.str = { s.str with reload := some { q with stopAt := s.now } } ∧ s.raised 18 t ∧ (∀ b ∈ blocksOf q.region, t.enabled b = false) ∧
    (∀ a, windowOf a ∉ [0xC0, 0xC1, 0xC2, 0xCA, 0xCB, 0xCD, 0xD2] ++ (blocksOf q.region).map (0xC0 + ·) → t.reg a = s.reg a) ∧
    (∀ p, p ∉ [Comp.latch, .cyc, .str, .rings, .inp, .cle, .vdr, .stk, .saf, .gnb, .cam, .fen, .arb, .fus, .yld, .bus, .eth, .pair, .pnl, .rcd, .upd] → s.same t p) ∧ t.part = s.part ∧ t.pending = s.pending) ∧
  (∀ (q : Reload) (s : State), s.str.reload = some q → s.get STR_RLD_STAT.PHASE = 2 → 20000 ≤ s.since q.stopAt → (q.region = 2 → s.vdrConducting = false) →
    ∃ t, exec .reloadStopEnd s = .next t ∧ t.get STR_RLD_STAT.PHASE = 3 ∧ s.only [] [STR_RLD_STAT.PHASE] t) ∧
  (∀ (q : Reload) (s : State), s.str.reload = some q → s.get STR_RLD_STAT.PHASE = 2 → s.since q.stopAt < 20000 ∨ (q.region = 2 ∧ s.vdrConducting = true) →
    ∃ t, exec .reloadStopEnd s = .next t ∧ t = s) ∧
  (∀ (readErr : Bool) (q : Reload) (s : State), s.str.reload = some q → s.get STR_RLD_STAT.PHASE = 3 → (readErr && !q.src) = false → ∃ t, exec (.reloadLoadEnd readErr) s = .next t ∧
    t.get STR_RLD_STAT.PHASE = 4 ∧
    t.str = { s.str with reload := some { q with digest := Config.sha384 (s.sectionBytes (if q.src then ImgSrc.dram (s.get64 STR_RLD_ADDR_LO STR_RLD_ADDR_HI) else .slot s.nv.active) q.region) } } ∧ s.only [.str] [STR_RLD_STAT.PHASE] t) ∧
  (∀ (q : Reload) (s : State), s.str.reload = some q → s.get STR_RLD_STAT.PHASE = 3 → q.src = false → q.region < 9 → ∃ t, exec (.reloadLoadEnd true) s = .next t ∧
    t.loaded q.region = false ∧ t.busy q.region = false ∧ t.str = { s.str with reload := none, digests := tdel s.str.digests q.region } ∧
    t.getB STR_RLD_STAT.BUSY = false ∧ t.get STR_RLD_STAT.PHASE = 0 ∧ t.get STR_RLD_STAT.REASON = 0x0228 ∧ s.raised 20 t ∧
    t.img = imgReplace q.region [] s.img ∧ s.within [.img, .str, .rcd, .cyc] (some [0xC1, 0xC2]) t) ∧
  (∀ (caps : List (Nat × Word)) (q : Reload) (s : State), s.str.reload = some q → s.get STR_RLD_STAT.PHASE = 4 → q.region < 9 →
    q.digest = s.hdrDigest (if q.src then ImgSrc.dram (s.get64 STR_RLD_ADDR_LO STR_RLD_ADDR_HI) else .slot s.nv.active) q.region → ∃ t, exec (.reloadBind caps) s = .next t ∧
    t.loaded q.region = true ∧ t.busy q.region = false ∧ t.str = { s.str with reload := none, digests := tput s.str.digests q.region q.digest } ∧
    t.getB STR_RLD_STAT.BUSY = false ∧ t.get STR_RLD_STAT.PHASE = 0 ∧ t.get STR_RLD_STAT.REASON = 0x0200 ∧
    s.raised 19 t ∧ t.img = imgReplace q.region caps s.img ∧ t.getB ⟨UPD_PEND, q.region, 1⟩ = (q.src && s.getB ⟨UPD_PEND, q.region, 1⟩) ∧
    (∀ a, windowOf a ∈ (blocksOf q.region).map (0xC0 + ·) → a ∉ blkKept → t.reg a = resetOf a) ∧
    (∀ a, windowOf a ∉ [0xC1, 0xC2] ++ (blocksOf q.region).map (0xC0 + ·) → a ≠ UPD_PEND → t.reg a = s.reg a) ∧
    (∀ p, p ∉ [Comp.img, .str, .rcd, .cyc] → s.same t p) ∧ t.part = s.part ∧ t.pending = s.pending) ∧
  (∀ (caps : List (Nat × Word)) (q : Reload) (s : State), s.str.reload = some q → s.get STR_RLD_STAT.PHASE = 4 → q.region < 9 →
    q.digest ≠ s.hdrDigest (if q.src then ImgSrc.dram (s.get64 STR_RLD_ADDR_LO STR_RLD_ADDR_HI) else .slot s.nv.active) q.region → ∃ t, exec (.reloadBind caps) s = .next t ∧
    t.loaded q.region = false ∧ t.busy q.region = false ∧ t.str = { s.str with reload := none, digests := tdel s.str.digests q.region } ∧
    t.getB STR_RLD_STAT.BUSY = false ∧ t.get STR_RLD_STAT.PHASE = 0 ∧ t.get STR_RLD_STAT.REASON = 0x0224 ∧ s.raised 20 t ∧
    t.img = imgReplace q.region [] s.img ∧ s.within [.img, .str, .rcd, .cyc] (some [0xC1, 0xC2]) t) ∧
  (∀ s : State, ∃ t, exec .cfgCorr s = .next t ∧ t.get STR_SCRUB_CNT.CORR = satTo 65535 (s.get STR_SCRUB_CNT.CORR + 1) ∧ s.raised 22 t ∧ s.only [.rcd, .cyc] (STR_SCRUB_CNT.CORR :: raiseFlds 22) t) ∧
  (∀ (region : Fin 9) (s : State), s.loaded region.val = true → ∃ t, exec (.cfgUncorr region) s = .next t ∧
    t.loaded region.val = false ∧ t.getB ⟨STR_SCRUB_UE, region.val, 1⟩ = true ∧ s.raised 23 t ∧ (∀ b ∈ blocksOf region.val, t.enabled b = false) ∧
    t.str = { s.str with digests := tdel s.str.digests region.val } ∧ t.img = imgReplace region.val [] s.img ∧
    (∀ a, windowOf a ∉ [0xC0, 0xC1, 0xC2, 0xCA, 0xCB, 0xCD, 0xD2] ++ (blocksOf region.val).map (0xC0 + ·) → t.reg a = s.reg a) ∧
    (∀ p, p ∉ [Comp.latch, .cyc, .str, .rings, .inp, .cle, .vdr, .stk, .saf, .gnb, .cam, .fen, .arb, .fus, .yld, .bus, .eth, .pair, .pnl, .rcd, .upd] ++ [.img] → s.same t p) ∧ t.part = s.part ∧ t.pending = s.pending)

/-- An access to the peripheral space that is not an aligned 32-bit access of a window answers a next state in which the core's access ended in a bus
error and nothing else differs, no register and no other part; so do a 32-bit write and a 32-bit read at an address that is unaligned or in no window.
An aligned 32-bit access of a window ends in no bus error: a read gives its core a value and changes no register outside that window and no part but
what cores have latched; a write gives none, and leaves LTC, the image, GEN counters, the factory's values and UFS. -/
def Obligations.OtherAccessesEndInABusErrorOnly : Prop :=
  (∀ (core : Fin 8) (addr size : Nat) (isWrite : Bool) (s : State), 0xC0000000 ≤ addr → addr < 0xE0000000 → (size = 4 → goodAddr addr = false) →
    ∃ t, exec (.badAccess core addr size isWrite) s = .next t ∧ t.access = .error core.val ∧ s.only [.access] [] t) ∧
  (∀ (core : Fin 8) (addr : Nat) (value : Word) (s : State), goodAddr addr = false → ∃ t, exec (.regWrite core addr value) s = .next t ∧ t.access = .error core.val ∧ s.only [.access] [] t) ∧
  (∀ (core : Fin 8) (addr : Nat) (s : State), goodAddr addr = false → ∃ t, exec (.rcRead core addr) s = .next t ∧ t.access = .error core.val ∧ s.only [.access] [] t) ∧
  (∀ (core : Fin 8) (addr : Nat) (value : Word) (s : State), goodAddr addr = true → ∃ t, exec (.regWrite core addr value) s = .next t ∧ (∀ c, t.access ≠ .error c) ∧
    s.within (touches (.regWrite core addr value)).1 none t) ∧
  (∀ (core : Fin 8) (addr : Nat) (s : State), goodAddr addr = true → ∃ t, exec (.rcRead core addr) s = .next t ∧ (∃ w, t.access = .value core.val w) ∧
    s.within [.latch, .access] (some [windowOf addr]) t)

/-- A core's aligned read of a register without a latch rule of its own answers what the core sees there (log entry 9: what it has latched, else the
register) and clears the bits its access code RC names, and nothing else; in a window whose region reconfigures, in the KA window in STANDBY and under
a power-on reset (the model's choice, log entry 26), and in the window of an object index that holds none, it answers 0 and clears nothing. A core's
read of usable DRAM that meets an uncorrectable error ends in a bus error to its core and raises source 5; a block's raises it and nothing is written
into its destination. -/
def Obligations.ReadsAnswerClearRcFieldsAndMeetErrors : Prop :=
  (∀ (core : Fin 8) (addr : Nat) (s : State), goodAddr addr = true → s.closed addr = false → s.freeWindow addr = false → s.latchRead core.val addr = none →
    ∃ t, exec (.rcRead core addr) s = .next t ∧ t.access = .value core.val (s.coreView core.val addr) ∧
    t.reg addr = (match findDesc addr with | some d => s.reg addr &&& ~~~(BitVec.ofNat 32 d.rc) | none => s.reg addr) ∧ s.only [.access] [wordAt addr] t) ∧
  (∀ (core : Fin 8) (addr : Nat) (s : State), goodAddr addr = true → s.closed addr = true ∨ s.freeWindow addr = true → ∃ t, exec (.rcRead core addr) s = .next t ∧
    t.access = .value core.val 0#32 ∧ s.only [.access] [] t) ∧
  (∀ (core : Fin 8) (addr : Nat) (s : State), addr < dramSize → ∃ t, exec (.dramReadUe (some core) addr) s = .next t ∧ t.access = .error core.val ∧ s.raised 5 t ∧
    s.only [.access, .rcd, .cyc] (raiseFlds 5) t) ∧
  (∀ (addr : Nat) (s : State), addr < dramSize → ∃ t, exec (.dramReadUe none addr) s = .next t ∧ s.raised 5 t ∧ s.only [.rcd, .cyc] (raiseFlds 5) t)

/-- A write of SET to EVT_SRC_STAT raises the source: with EN 1 and PEND 0 it sets PEND and latches the LTC, with PEND 1 it sets MULTI and leaves the
latch, with EN 0 (or for a source that is never raised: one no chapter lists, or GNB's on the AHM7-S24) it changes nothing. Writing 1 to PEND and
MULTI clears them and leaves the latch words; where the source was raised in the same REF cycle PEND keeps its value, MULTI clears and the latch holds
that raise's LTC. A write of 1 to PEND and SET with EN 1 leaves PEND 1, MULTI 0 and the latch at LTC. EVT_CLAIM names a deliverable source (EN, PEND
and the core's TGT bit 1) and none of higher PRIO, nor of the same PRIO and a lower number, is deliverable; it is 0 where none is. -/
def Obligations.RaisesLatchMarkAndAreLostAsR129Says : Prop :=
  (∀ (core : Fin 8) (src : Fin 384) (s : State), s.neverRaised src.val = false → s.getB (EVT_SRC_CFG.EN src.val) = true → s.getB (EVT_SRC_STAT.PEND src.val) = false →
    ∃ t, exec (.evtSet core src 4) s = .next t ∧ t.getB (EVT_SRC_STAT.PEND src.val) = true ∧ t.get64 (EVT_SRC_LTC_LO src.val) (EVT_SRC_LTC_HI src.val) = s.now ∧
    s.only [.access, .rcd, .cyc] [EVT_SRC_STAT.PEND src.val, wordAt (EVT_SRC_LTC_LO src.val), wordAt (EVT_SRC_LTC_HI src.val)] t) ∧
  (∀ (core : Fin 8) (src : Fin 384) (s : State), s.neverRaised src.val = false → s.getB (EVT_SRC_CFG.EN src.val) = true → s.getB (EVT_SRC_STAT.PEND src.val) = true →
    ∃ t, exec (.evtSet core src 4) s = .next t ∧ t.getB (EVT_SRC_STAT.MULTI src.val) = true ∧ s.only [.access, .rcd, .cyc] [EVT_SRC_STAT.MULTI src.val] t) ∧
  (∀ (core : Fin 8) (src : Fin 384) (s : State), s.neverRaised src.val = true ∨ s.getB (EVT_SRC_CFG.EN src.val) = false →
    ∃ t, exec (.evtSet core src 4) s = .next t ∧ s.only [.access] [] t) ∧
  (∀ (core : Fin 8) (src : Fin 384) (s : State), tget s.cycle.raised src.val = none → ∃ t, exec (.evtSet core src 3) s = .next t ∧
    t.getB (EVT_SRC_STAT.PEND src.val) = false ∧ t.getB (EVT_SRC_STAT.MULTI src.val) = false ∧
    s.only [.access] [EVT_SRC_STAT.PEND src.val, EVT_SRC_STAT.MULTI src.val] t) ∧
  (∀ (core : Fin 8) (src : Fin 384) (l : Nat) (again : Bool) (s : State), tget s.cycle.raised src.val = some (l, again) → ∃ t, exec (.evtSet core src 3) s = .next t ∧
    t.getB (EVT_SRC_STAT.MULTI src.val) = false ∧ t.get64 (EVT_SRC_LTC_LO src.val) (EVT_SRC_LTC_HI src.val) = l % 2 ^ 64 ∧
    s.only [.access] [EVT_SRC_STAT.MULTI src.val, wordAt (EVT_SRC_LTC_LO src.val), wordAt (EVT_SRC_LTC_HI src.val)] t) ∧
  (∀ (core : Fin 8) (src : Fin 384) (s : State), s.neverRaised src.val = false → s.getB (EVT_SRC_CFG.EN src.val) = true → tget s.cycle.raised src.val = none →
    ∃ t, exec (.evtSet core src 5) s = .next t ∧ t.getB (EVT_SRC_STAT.PEND src.val) = true ∧ t.getB (EVT_SRC_STAT.MULTI src.val) = false ∧
    t.get64 (EVT_SRC_LTC_LO src.val) (EVT_SRC_LTC_HI src.val) = s.now ∧ s.only [.access, .rcd, .cyc] (raiseFlds src.val) t) ∧
  (∀ (c : Nat) (s : State), (s.claim c = 0 → ∀ n, n < 384 → s.deliverable c n = false) ∧
    (∀ n, s.claim c = n + 1 → n < 384 ∧ s.deliverable c n = true ∧
      ∀ m, m < 384 → s.deliverable c m = true → s.get (EVT_SRC_CFG.PRIO m) < s.get (EVT_SRC_CFG.PRIO n) ∨ (s.get (EVT_SRC_CFG.PRIO m) = s.get (EVT_SRC_CFG.PRIO n) ∧ n ≤ m)))

/-- Writing a completion of a ring stores, at bytes 14 and 15 of its entry, the SEQ after the last one used, 1 after 0xFFFF, and the ring remembers it;
the SEQ stored is never 0 while the ring's stands at most at 0xFFFF, and stays so; a ring whose indices a passed check has put to 0 stores 1. -/
def Obligations.CompletionsCarrySeqWithoutZero : Prop :=
  (∀ (s : State) (b r : Nat) (x : Taken) (reason handle : Nat), r < ringCount b → (s.ring b r).seq ≤ 0xFFFF →
    let t := s.writeCompletion b r x reason handle
    let n := if (s.ring b r).seq = 0xFFFF then 1 else (s.ring b r).seq + 1
    memNat t.dram (s.complAddr b r + 14) 2 = n ∧ n ≠ 0 ∧ (t.ring b r).seq = n ∧ (t.ring b r).seq ≤ 0xFFFF) ∧
  (∀ (b r : Nat) (s : State), r < ringCount b → ((s.ringsZero b).ring b r).seq = 0 ∧ (s.ringsZero b).get (RING_PI b r) = 0 ∧ (s.ringsZero b).get (RING_CI b r) = 0 ∧
    (s.ringsZero b).get (CRING_PI b r) = 0 ∧ (s.ringsZero b).get (CRING_CI b r) = 0)

/-- A completion written with IRQ 1 or a reason other than OK raises the ring's completion event (for a job ring of FEN it sets the ring's FEN_JOB_PEND
bit, and raises 193 where that bit was 0); one written with IRQ 0 and OK writes no register but CRING_PI. Either way CRING_PI goes up by one and DRAM
changes in the sixteen bytes of the entry alone. -/
def Obligations.CompletionEventsAreRaisedForIrqOrReason : Prop :=
  ∀ (s : State) (b r : Nat) (x : Taken) (reason handle : Nat), r < ringCount b →
    let t := s.writeCompletion b r x reason handle
    ((x.irq = true ∨ reason % 256 ≠ 0) → b ≠ 0x0A ∨ r = 0 ∨ s.getB ⟨FEN_JOB_PEND, r - 1, 1⟩ = false → s.raised (complSource b r) t) ∧
    ((x.irq = true ∨ reason % 256 ≠ 0) → b = 0x0A → r ≠ 0 → t.getB ⟨FEN_JOB_PEND, r - 1, 1⟩ = true) ∧
    ((x.irq = false ∧ reason % 256 = 0) → s.only [.dram, .rings] [CRING_PI b r] t) ∧
    t.get (CRING_PI b r) = (s.get (CRING_PI b r) + 1) % 512 ∧ s.dramKept (s.complAddr b r) 16 t ∧
    s.only [.dram, .rings, .rcd, .cyc] (complFlds b r) t

/-- Where the oldest command of a ring still runs, the end of a later one writes no completion: DRAM and every register stay, and it is remembered with
its reason and handle. Where two commands are in flight and the later has ended, the end of the earlier one writes the earlier one's completion at
CRING_PI and the later one's at the next place, CRING_PI goes up by two, and none is left in flight; DRAM changes in those two entries alone, and
registers in CRING_PI and the completion event (unless CRING_CI was written past CRING_PI: log entry 94). -/
def Obligations.CompletionsGoOutInTheOrderTaken : Prop :=
  (∀ (s : State) (b r : Nat) (x : Taken) (xs : List Taken) (id reason handle : Nat), (s.ring b r).taken = x :: xs → x.done = none → x.id ≠ id →
    let t := s.completeId b r id reason handle
    s.only [.rings] [] t ∧ (t.ring b r).taken = x :: xs.map fun y => if y.id = id then { y with done := some (reason, handle) } else y) ∧
  (∀ (s : State) (b r : Nat) (x y : Taken) (rx hx ry hy : Nat), r < ringCount b → (s.ring b r).taken = [x, y] → x.id ≠ y.id → y.done = some (ry, hy) → (s.ring b r).oddCi = false →
    let t := s.completeId b r x.id rx hx
    let q := s.get64 (CRING_BASE_LO b r) (CRING_BASE_HI b r) + 16 * ((s.get (CRING_PI b r) + 1) % 256)
    (t.ring b r).taken = [] ∧ t.get (CRING_PI b r) = (s.get (CRING_PI b r) + 2) % 512 ∧
    memBytes t.dram (s.complAddr b r) 8 = bytesLE 8 x.tag ∧ memNat t.dram (s.complAddr b r + 12) 2 = rx % 65536 ∧
    memBytes t.dram q 8 = bytesLE 8 y.tag ∧ memNat t.dram (q + 12) 2 = ry % 65536 ∧
    (∀ a, a < s.complAddr b r ∨ s.complAddr b r + 16 ≤ a → a < q ∨ q + 16 ≤ a → memByte t.dram a = memByte s.dram a) ∧
    s.only [.dram, .rings, .rcd, .cyc] (complFlds b r) t)

/-- On a ring that runs its entry at once, NOP completes with OK and its own handle, an opcode the block does not have with PARAM (0x05); each stores the
sixteen bytes of its completion entry and changes nothing else but CRING_PI, the ring's own bookkeeping and the completion event. A ring runs its
entry at once where the block is enabled, the ring is in use and has no command in flight, its completion ring has room, the spacing of R116 is over
and the block's chapter does not hold the opcode. Taking an entry from DRAM advances CI by one and runs it: with a NOP at CI, all of the above
follows. Where the entry at CI may not be taken nothing changes. -/
def Obligations.EntriesAreTakenAndNopsAndUnknownOpcodesComplete : Prop :=
  (∀ (blk : Fin 21) (ring : Fin 17) (e : Entry) (s : State), s.ready blk.val ring.val 0 e → s.blockHolds blk.val ring.val 0 = false → ∃ t, exec (.nop blk ring e) s = .next t ∧
    s.completed blk.val ring.val e 0x00 e.handle.toNat t ∧ s.dramKept (s.complAddr blk.val ring.val) 16 t ∧ s.only [.dram, .rings, .rcd, .cyc] (complFlds blk.val ring.val) t) ∧
  (∀ (blk : Fin 21) (ring : Fin 17) (opcode : BitVec 16) (e : Entry) (s : State), s.ready blk.val ring.val 0 e → s.blockHolds blk.val ring.val opcode.toNat = false → opcode.toNat ≠ 0 → opOf blk.val opcode.toNat = none →
    ∃ t, exec (.unknownOpcode blk ring opcode e) s = .next t ∧
    s.completed blk.val ring.val e 0x05 e.handle.toNat t ∧ s.dramKept (s.complAddr blk.val ring.val) 16 t ∧ s.only [.dram, .rings, .rcd, .cyc] (complFlds blk.val ring.val) t) ∧
  (∀ (blk : Fin 21) (ring : Fin 17) (e : Entry) (s : State), s.ready blk.val ring.val 0 e → s.blockHolds blk.val ring.val 0 = false → (s.ring blk.val ring.val).odd = false →
    s.get (RING_PI blk.val ring.val) ≠ s.get (RING_CI blk.val ring.val) →
    s.entryAt (s.get64 (RING_BASE_LO blk.val ring.val) (RING_BASE_HI blk.val ring.val) + 64 * (s.get (RING_CI blk.val ring.val) % 256)) = (0, e) → ∃ t, exec (.commandTake blk ring) s = .next t ∧
    t.get (RING_CI blk.val ring.val) = (s.get (RING_CI blk.val ring.val) + 1) % 512 ∧ s.completed blk.val ring.val e 0x00 e.handle.toNat t ∧
    s.dramKept (s.complAddr blk.val ring.val) 16 t ∧ s.only [.dram, .rings, .rcd, .cyc] (RING_CI blk.val ring.val :: complFlds blk.val ring.val) t) ∧
  (∀ (blk : Fin 21) (ring : Fin 17) (opcode : Nat) (e : Entry) (s : State), (s.ring blk.val ring.val).odd = false →
    s.entryAt (s.get64 (RING_BASE_LO blk.val ring.val) (RING_BASE_HI blk.val ring.val) + 64 * (s.get (RING_CI blk.val ring.val) % 256)) = (opcode, e) →
    s.mayTake blk.val ring.val opcode (bitAt e.flags.toNat 1) = false → ∃ t, exec (.commandTake blk ring) s = .next t ∧ t = s)

/-- A read of TMS_LTC_LO latches LTC and MT for its core, which reads them back; another core's latches stay. An observation from the host is refused with
its reason (NOT_SOURCE, TIME, BUSY) and source 31, or waits for the next whole millisecond. When the one observation waiting is GNSS's and takes
effect with no active source, its source becomes valid and active (log entry 112: one valid already too), the state LOCKED, and the servo of R140 sets
freq and slew from the error, or a step is pending where the error is a millisecond or more; a new relation is published. Publishing a relation leaves
MT continuous but for the step. A slew ends when it has applied its whole error; an active source silent for over 2 s with no other valid leaves
HOLDOVER (FREE where HOLD_LIMIT is 0); a valid source of higher priority held for SWITCH_HOLD becomes active (28); HOLDOVER ends in FREE (27); ENABLE
1 to 0 discards what waits, and LOCKED leaves for HOLDOVER or FREE. Everything else is as before. -/
def Obligations.MtIsDisciplinedAsR134ToR144Say : Prop :=
  (∀ (core : Fin 8) (s : State), ∃ t, exec (.tmsSnapshotRead core) s = .next t ∧ t.access = .value core.val (BitVec.ofNat 32 s.now) ∧
    t.coreView core.val TMS_LTC_HI = BitVec.ofNat 32 (s.now / 2 ^ 32) ∧ t.coreView core.val TMS_MT_LO = BitVec.ofNat 32 (fromSigned 64 s.mtNow) ∧
    t.coreView core.val TMS_MT_HI = BitVec.ofNat 32 (fromSigned 64 s.mtNow / 2 ^ 32) ∧
    (∀ c : Fin 8, ∀ a, c ≠ core → a < 2 ^ 32 → tget t.latch (c.val * 2 ^ 32 + a) = tget s.latch (c.val * 2 ^ 32 + a)) ∧ s.only [.latch, .access] [] t) ∧
  (∀ (core : Fin 8) (value : Word) (s : State), bitAt value.toNat 31 = true → s.obsReason 1 (s.get64 TMS_OBS_LTC_LO TMS_OBS_LTC_HI) = 0 → ∃ t, exec (.obsPush core value) s = .next t ∧
    tget t.tms.obs 1 = some { l := s.get64 TMS_OBS_LTC_LO TMS_OBS_LTC_HI, m := s.get64 TMS_OBS_MT_LO TMS_OBS_MT_HI, frac := s.get TMS_OBS_FRAC.FRAC, effectAt := (s.now / 1000000 + 1) * 1000000 } ∧
    t.get TMS_OBS_CTRL.REASON = 0x0300 ∧ t.getB TMS_OBS_CTRL.PEND = true ∧ s.only [.access, .tms] [TMS_OBS_CTRL.REASON, TMS_OBS_CTRL.PEND] t) ∧
  (∀ (core : Fin 8) (value : Word) (s : State), bitAt value.toNat 31 = true → s.obsReason 1 (s.get64 TMS_OBS_LTC_LO TMS_OBS_LTC_HI) ≠ 0 → ∃ t, exec (.obsPush core value) s = .next t ∧
    t.get TMS_OBS_CTRL.REASON = s.obsReason 1 (s.get64 TMS_OBS_LTC_LO TMS_OBS_LTC_HI) ∧ s.raised 31 t ∧ s.only [.access, .rcd, .cyc] (TMS_OBS_CTRL.REASON :: raiseFlds 31) t) ∧
  (∀ (o : Obs) (e : Int) (s : State), s.tms.obs = [(1, o)] → o.effectAt ≤ s.now → s.get TMS_STATUS.SRC = 0 → s.tmsPri 1 ≠ 0 → e = ((o.m : Int) * 65536 + o.frac) - s.mtFine o.l → -obsStepLimit < e → e < obsStepLimit →
    ∃ t, exec .obsEffect s = .next t ∧
    t.tmsValid 1 = true ∧ t.getB TMS_OBS_CTRL.PEND = false ∧ t.get TMS_STATUS.SRC = 1 ∧ t.get TMS_STATUS.STATE = 2 ∧ t.getB TMS_STATUS.STEP_PEND = false ∧
    t.tms = { s.tms with obs := [], lastEff := tput s.tms.lastEff 1 s.now, validSince := (if s.tmsValid 1 then s.tms.validSince else tput s.tms.validSince 1 s.now), stepPend := none, slewLeft := e, slewFrom := s.now, freq := clampInt (-(2 ^ 31)) (2 ^ 31 - 1) (s.tms.freq + floorDivNat (e * ((s.reg TMS_SERVO_KF).toNat : Int)) (2 ^ 32)), slew := clampInt (-s.slewMax) s.slewMax (floorDivNat (e * ((s.reg TMS_SERVO_KP).toNat : Int)) (2 ^ 32)) } ∧
    t.getB TMS_STATUS.SLEW = decide (t.tms.slew ≠ 0) ∧ t.relRef = s.now ∧ t.relRate = clampInt (-(2 ^ 31)) (2 ^ 31 - 1) (t.tms.freq + t.tms.slew) ∧ s.raised 30 t ∧
    s.only [.tms, .rcd, .cyc] ([TMS_STATUS.SRC, TMS_STATUS.STATE, tmsValidFld 1, TMS_STATUS.SLEW, TMS_STATUS.STEP_PEND, TMS_OBS_CTRL.PEND] ++ relFlds ++ raiseFlds 27 ++ raiseFlds 28 ++ raiseFlds 30) t) ∧
  (∀ (o : Obs) (e : Int) (s : State), s.tms.obs = [(1, o)] → o.effectAt ≤ s.now → s.get TMS_STATUS.SRC = 0 → s.tmsPri 1 ≠ 0 → e = ((o.m : Int) * 65536 + o.frac) - s.mtFine o.l → (e ≤ -obsStepLimit ∨ obsStepLimit ≤ e) →
    ∃ t, exec .obsEffect s = .next t ∧ t.tms = { s.tms with obs := [], lastEff := tput s.tms.lastEff 1 s.now, validSince := (if s.tmsValid 1 then s.tms.validSince else tput s.tms.validSince 1 s.now), stepPend := some e, slew := 0, slewLeft := 0 } ∧
    t.getB TMS_STATUS.STEP_PEND = true ∧ t.getB TMS_STATUS.SLEW = false ∧ t.tmsValid 1 = true ∧ t.getB TMS_OBS_CTRL.PEND = false ∧
    t.get TMS_STATUS.SRC = 1 ∧ t.get TMS_STATUS.STATE = 2 ∧ t.relRef = s.now ∧ t.relRate = clampInt (-(2 ^ 31)) (2 ^ 31 - 1) s.tms.freq ∧ s.raised 30 t ∧
    s.only [.tms, .rcd, .cyc] ([TMS_STATUS.SRC, TMS_STATUS.STATE, tmsValidFld 1, TMS_STATUS.SLEW, TMS_STATUS.STEP_PEND, TMS_OBS_CTRL.PEND] ++ relFlds ++ raiseFlds 27 ++ raiseFlds 28 ++ raiseFlds 30) t) ∧
  (∀ (rate step : Int) (s : State), -(2 ^ 63) ≤ s.mtNow - s.now + step → s.mtNow - s.now + step < 2 ^ 63 → (s.publishRel rate step).mtNow = s.mtNow + step ∧ s.raised 30 (s.publishRel rate step) ∧
    s.only [.rcd, .cyc] (relFlds ++ raiseFlds 30) (s.publishRel rate step)) ∧
  (∀ s : State, s.tms.slew ≠ 0 → (s.tms.slewLeft.natAbs : Int) ≤ floorDivNat ((s.since s.tms.slewFrom : Int) * (s.tms.slew.natAbs : Int)) (2 ^ 24) → ∃ t, exec .slewEnd s = .next t ∧
    t.tms = { s.tms with slew := 0, slewLeft := 0 } ∧ t.getB TMS_STATUS.SLEW = false ∧ t.relRef = s.now ∧ t.relRate = clampInt (-(2 ^ 31)) (2 ^ 31 - 1) s.tms.freq ∧ s.raised 30 t ∧
    s.only [.tms, .rcd, .cyc] (TMS_STATUS.SLEW :: relFlds ++ raiseFlds 30) t) ∧
  (∀ s : State, s.get TMS_STATUS.SRC = 1 → s.tmsValid 1 = true → 2000000000 < s.since (tgetD s.tms.lastEff 1 0) → s.tmsValid 2 = false → s.tmsValid 3 = false → ∃ t, exec .sourceInvalid s = .next t ∧
    t.tmsValid 1 = false ∧ t.get TMS_STATUS.SRC = 0 ∧ t.get TMS_STATUS.STATE = (if s.get TMS_HOLD_LIMIT.LIMIT = 0 then 0 else 1) ∧ t.tms = { s.tms with slew := 0, slewLeft := 0, holdFrom := s.now } ∧ s.raised 28 t ∧
    s.only [.tms, .rcd, .cyc] ([TMS_STATUS.SRC, TMS_STATUS.STATE, tmsValidFld 1, TMS_STATUS.SLEW] ++ relFlds ++ raiseFlds 27 ++ raiseFlds 28 ++ raiseFlds 30) t) ∧
  (∀ (src : Nat) (s : State), s.get TMS_STATUS.SRC = 1 → (src = 2 ∨ src = 3) → s.tmsValid src = true → s.tmsPri 1 < s.tmsPri src → s.tmsValid (5 - src) = false →
    s.get TMS_SRC_CFG.SWITCH_HOLD * 1000000000 ≤ s.since (tgetD s.tms.validSince src 0) → ∃ t, exec .sourceSwitch s = .next t ∧
    t.get TMS_STATUS.SRC = src ∧ s.raised 28 t ∧ s.only [.rcd, .cyc] (TMS_STATUS.SRC :: raiseFlds 28) t) ∧
  (∀ s : State, s.get TMS_STATUS.STATE = 1 → s.get TMS_HOLD_LIMIT.LIMIT * 1000000000 ≤ s.since s.tms.holdFrom → ∃ t, exec .holdoverExpire s = .next t ∧
    t.get TMS_STATUS.STATE = 0 ∧ s.raised 27 t ∧ s.only [.rcd, .cyc] (TMS_STATUS.STATE :: raiseFlds 27) t) ∧
  (∀ s : State, s.getB TMS_CTRL.ENABLE = true → s.get TMS_STATUS.STATE ≠ 2 → ∃ t, exec .tmsDisable s = .next t ∧ t.getB TMS_CTRL.ENABLE = false ∧ t.tms = { s.tms with obs := [], stepPend := none } ∧
    t.getB TMS_OBS_CTRL.PEND = false ∧ t.getB TMS_STATUS.STEP_PEND = false ∧ s.only [.tms] [TMS_CTRL.ENABLE, TMS_OBS_CTRL.PEND, TMS_STATUS.STEP_PEND] t) ∧
  (∀ s : State, s.getB TMS_CTRL.ENABLE = true → s.get TMS_STATUS.STATE = 2 → ∃ t, exec .tmsDisable s = .next t ∧ t.getB TMS_CTRL.ENABLE = false ∧
    t.tms = { s.tms with obs := [], stepPend := none, slew := 0, slewLeft := 0, holdFrom := s.now } ∧ t.get TMS_STATUS.SRC = 0 ∧
    t.get TMS_STATUS.STATE = (if s.get TMS_HOLD_LIMIT.LIMIT = 0 then 0 else 1) ∧ s.raised 27 t ∧
    t.getB TMS_OBS_CTRL.PEND = false ∧ t.getB TMS_STATUS.STEP_PEND = false ∧ t.getB TMS_STATUS.SLEW = false ∧
    s.only [.tms, .rcd, .cyc] ([TMS_CTRL.ENABLE, TMS_OBS_CTRL.PEND, TMS_STATUS.STEP_PEND, TMS_STATUS.SRC, TMS_STATUS.STATE, TMS_STATUS.SLEW] ++ relFlds ++ raiseFlds 27 ++ raiseFlds 28 ++ raiseFlds 30) t)

/-- Where MT has reached a whole second past the one it stood in (and GNB's strobes and FUS's instants are off): with no step pending, at a second reached
for the first time source 26 is raised, and with ENABLE and TP_EN TPULSE rises with its state, source, SEQ and LTC shown; at a second taken before
nothing is raised. With a step pending the step takes effect, rounded to the nanosecond, MT moves by it, source 29 is raised, and the pulse of a
second reached for the first time is suppressed and counted. TPULSE falls as many microseconds after its rise as WIDTH then gave; a short of its pin
while it is driven is shown. A selected edge, rising or falling, is queued with its stamp (24 if the queue was empty and IRQ is 1), dropped with OVR
counted where it is within 100 ns of the one before (no event: log entry 113) or the queue holds 16 (then with source 25); an edge not selected is not
queued; the last eight rising edges are remembered; POP removes the head. Everything else is as before. -/
def Obligations.SecondsPulsesAndCapturesDoAsR141ToR148Say : Prop :=
  (∀ (c : Int) (s : State), s.msOn = false → s.fusOn = false → s.tms.stepPend = none → c = floorDivNat s.mtNow 1000000000 → s.tms.curSec < c → s.tms.lastSec < c →
    s.getB TMS_CTRL.ENABLE = true → s.getB TMS_TP_CFG.TP_EN = true → ∃ t, exec .mtSecond s = .next t ∧ s.raised 26 t ∧
    t.tms = { s.tms with lastSec := c, curSec := c, stepped := false, pulse := some (s.now, s.get TMS_TP_CFG.WIDTH) } ∧
    t.get TMS_TP_STAT.STATE = s.get TMS_STATUS.STATE ∧ t.get TMS_TP_STAT.SRC = s.get TMS_STATUS.SRC ∧ t.getB TMS_TP_STAT.STEPPED = s.tms.stepped ∧
    t.get TMS_TP_STAT.SEQ = (s.get TMS_TP_STAT.SEQ + 1) % 65536 ∧ t.get64 TMS_TP_LTC_LO TMS_TP_LTC_HI = s.now ∧
    s.only [.tms, .rcd, .cyc] ([TMS_TP_STAT.STATE, TMS_TP_STAT.SRC, TMS_TP_STAT.STEPPED, TMS_TP_STAT.SEQ, wordAt TMS_TP_LTC_LO, wordAt TMS_TP_LTC_HI] ++ raiseFlds 26) t) ∧
  (∀ (c : Int) (s : State), s.msOn = false → s.fusOn = false → s.tms.stepPend = none → c = floorDivNat s.mtNow 1000000000 → s.tms.curSec < c → c ≤ s.tms.lastSec →
    ∃ t, exec .mtSecond s = .next t ∧ t.tms = { s.tms with curSec := c } ∧ s.only [.tms] [] t) ∧
  (∀ (e c d : Int) (s : State), s.msOn = false → s.fusOn = false → s.tms.stepPend = some e → c = floorDivNat s.mtNow 1000000000 → d = floorDivNat (s.mtNow + roundStep e) 1000000000 →
    s.tms.curSec < c → s.getB TMS_CTRL.ENABLE = true → s.getB TMS_TP_CFG.TP_EN = true →
    -(2 ^ 63) ≤ s.mtNow - s.now + roundStep e → s.mtNow - s.now + roundStep e < 2 ^ 63 → ∃ t, exec .mtSecond s = .next t ∧
    t.mtNow = s.mtNow + roundStep e ∧ s.raised 29 t ∧ s.raised 30 t ∧
    t.tms = { s.tms with stepPend := none, stepped := true, lastSec := max s.tms.lastSec (max c d), curSec := d, steps := s.tms.steps + 1, lastFwd := decide (0 ≤ e) } ∧
    t.getB TMS_STATUS.STEP_PEND = false ∧ t.get TMS_TP_STAT.SUPP = (if s.tms.lastSec < c then satTo 255 (s.get TMS_TP_STAT.SUPP + 1) else s.get TMS_TP_STAT.SUPP) ∧
    s.only [.tms, .rcd, .cyc] ([TMS_STATUS.STEP_PEND, TMS_TP_STAT.SUPP] ++ relFlds ++ raiseFlds 29 ++ raiseFlds 30) t) ∧
  (∀ (p width : Nat) (s : State), s.tms.pulse = some (p, width) → width * 1000 ≤ s.since p → ∃ t, exec .tpulseFall s = .next t ∧ t.tms = { s.tms with pulse := none } ∧ s.only [.tms] [] t) ∧
  (∀ s : State, (s.getB TMS_CTRL.ENABLE = true ∧ s.getB TMS_TP_CFG.TP_EN = true) ∨ s.tms.pulse.isSome = true → ∃ t, exec .tpulseShort s = .next t ∧
    t.getB TMS_TP_STAT.SHORT = true ∧ s.only [] [TMS_TP_STAT.SHORT] t) ∧
  (∀ (ch : Fin 7) (rise : Bool) (stamp : Nat) (q : List Nat) (rises : Tbl (List Nat)) (s : State), bitAt (s.get (TMS_CAP_CFG.EDGE ch.val)) (if rise then 0 else 1) = true →
    (∀ l ∈ tget s.tms.capLast ch.val, l + 100 ≤ stamp) → q = tgetD s.tms.caps ch.val [] → q.length < 16 → stamp < 2 ^ 64 → rises = 
      (if rise then tput s.tms.rises ch.val ((if (tgetD s.tms.rises ch.val []).length < 8 then tgetD s.tms.rises ch.val [] else (tgetD s.tms.rises ch.val []).tail) ++ [stamp]) else s.tms.rises) →
    ∃ t, exec (.captureEdge ch rise stamp) s = .next t ∧
    t.tms = { s.tms with rises := rises, capLast := tput s.tms.capLast ch.val stamp, caps := tput s.tms.caps ch.val (q ++ [stamp]) } ∧ t.get (TMS_CAP_STAT.COUNT ch.val) = q.length + 1 ∧
    t.get64 (TMS_CAP_LTC_LO ch.val) (TMS_CAP_LTC_HI ch.val) = (q ++ [stamp]).headD 0 % 2 ^ 64 ∧
    ((q = [] ∧ s.getB (TMS_CAP_CFG.IRQ ch.val) = true) → s.raised 24 t) ∧
    s.only [.tms, .rcd, .cyc] ([TMS_CAP_STAT.COUNT ch.val, wordAt (TMS_CAP_LTC_LO ch.val), wordAt (TMS_CAP_LTC_HI ch.val)] ++ raiseFlds 24) t) ∧
  (∀ (ch : Fin 7) (rise : Bool) (stamp : Nat) (rises : Tbl (List Nat)) (s : State), bitAt (s.get (TMS_CAP_CFG.EDGE ch.val)) (if rise then 0 else 1) = true →
    (∀ l ∈ tget s.tms.capLast ch.val, l + 100 ≤ stamp) → 16 ≤ (tgetD s.tms.caps ch.val []).length → rises = 
      (if rise then tput s.tms.rises ch.val ((if (tgetD s.tms.rises ch.val []).length < 8 then tgetD s.tms.rises ch.val [] else (tgetD s.tms.rises ch.val []).tail) ++ [stamp]) else s.tms.rises) → ∃ t, exec (.captureEdge ch rise stamp) s = .next t ∧
    t.tms = { s.tms with rises := rises, capLast := tput s.tms.capLast ch.val stamp } ∧ t.get (TMS_CAP_STAT.OVR ch.val) = satTo 255 (s.get (TMS_CAP_STAT.OVR ch.val) + 1) ∧ s.raised 25 t ∧
    s.only [.tms, .rcd, .cyc] (TMS_CAP_STAT.OVR ch.val :: raiseFlds 25) t) ∧
  (∀ (ch : Fin 7) (rise : Bool) (l stamp : Nat) (rises : Tbl (List Nat)) (s : State), bitAt (s.get (TMS_CAP_CFG.EDGE ch.val)) (if rise then 0 else 1) = true →
    tget s.tms.capLast ch.val = some l → stamp < l + 100 → rises = 
      (if rise then tput s.tms.rises ch.val ((if (tgetD s.tms.rises ch.val []).length < 8 then tgetD s.tms.rises ch.val [] else (tgetD s.tms.rises ch.val []).tail) ++ [stamp]) else s.tms.rises) → ∃ t, exec (.captureEdge ch rise stamp) s = .next t ∧
    t.tms = { s.tms with rises := rises, capLast := tput s.tms.capLast ch.val stamp } ∧ t.get (TMS_CAP_STAT.OVR ch.val) = satTo 255 (s.get (TMS_CAP_STAT.OVR ch.val) + 1) ∧
    s.only [.tms] [TMS_CAP_STAT.OVR ch.val] t) ∧
  (∀ (ch : Fin 7) (rise : Bool) (stamp : Nat) (rises : Tbl (List Nat)) (s : State), bitAt (s.get (TMS_CAP_CFG.EDGE ch.val)) (if rise then 0 else 1) = false → rises = 
      (if rise then tput s.tms.rises ch.val ((if (tgetD s.tms.rises ch.val []).length < 8 then tgetD s.tms.rises ch.val [] else (tgetD s.tms.rises ch.val []).tail) ++ [stamp]) else s.tms.rises) →
    ∃ t, exec (.captureEdge ch rise stamp) s = .next t ∧ t.tms = { s.tms with rises := rises } ∧ s.only [.tms] [] t) ∧
  (∀ (core : Fin 8) (ch : Fin 7) (s : State), ∃ t, exec (.capPop core ch) s = .next t ∧
    tgetD t.tms.caps ch.val [] = (tgetD s.tms.caps ch.val []).tail ∧ t.get (TMS_CAP_STAT.COUNT ch.val) = (tgetD s.tms.caps ch.val []).tail.length % 32 ∧
    t.get64 (TMS_CAP_LTC_LO ch.val) (TMS_CAP_LTC_HI ch.val) = (tgetD s.tms.caps ch.val []).tail.headD 0 % 2 ^ 64 ∧
    s.only [.access, .tms] [TMS_CAP_STAT.COUNT ch.val, wordAt (TMS_CAP_LTC_LO ch.val), wordAt (TMS_CAP_LTC_HI ch.val)] t)

/-- In a window that takes accesses, a core's read of INP_AIN_RAW, INP_PIN_VAL, INP_LAC_CNT, INP_FLOW_STAT, CLE_FRAME_LO, CLE_S_SAMPLE, VDR_OUT_SENSE,
VDR_CTX_STAT, GNB_SC_LO, GNB_MARK_SC_LO, GNB_CH_STAT, CAM_CTX_STAT, FUS_IMU0, FUS_S_CALV or BUS_OBJ_STAT answers the register, and the companions the
spec's register tables name then read for that core as they stood at the read; what other cores have latched stays, and no register changes but the
fields the read clears (PAL_SKIP; NEW, LOST, DONE and FAILED). -/
def Obligations.LatchedReadsAnswerOneSampleToTheReadingCore : Prop :=
  (∀ (core : Fin 8) (n : Fin 48) (s : State), s.closed (INP_AIN_RAW n.val) = false → ∃ t, exec (.ainRawRead core n) s = .next t ∧ t.access = .value core.val (s.reg (INP_AIN_RAW n.val)) ∧
    t.coreView core.val (INP_AIN_VAL n.val) = s.reg (INP_AIN_VAL n.val) ∧
    (∀ c : Fin 8, ∀ a, c ≠ core → a < 2 ^ 32 → tget t.latch (c.val * 2 ^ 32 + a) = tget s.latch (c.val * 2 ^ 32 + a)) ∧ s.only [.latch, .access] [] t) ∧
  (∀ (core : Fin 8) (n : Fin 24) (s : State), s.closed (INP_PIN_VAL n.val) = false → ∃ t, exec (.pinValRead core n) s = .next t ∧ t.access = .value core.val (s.reg (INP_PIN_VAL n.val)) ∧
    (∀ x ∈ [INP_PIN_STAT n.val, INP_PIN_LTC_LO n.val, INP_PIN_LTC_HI n.val], t.coreView core.val x = s.reg x) ∧
    (∀ c : Fin 8, ∀ a, c ≠ core → a < 2 ^ 32 → tget t.latch (c.val * 2 ^ 32 + a) = tget s.latch (c.val * 2 ^ 32 + a)) ∧ s.only [.latch, .access] [] t) ∧
  (∀ (core : Fin 8) (n : Fin 8) (s : State), s.closed (INP_LAC_CNT n.val) = false → ∃ t, exec (.lacCntRead core n) s = .next t ∧ t.access = .value core.val (s.reg (INP_LAC_CNT n.val)) ∧
    (∀ x ∈ [INP_LAC_PEAK n.val, INP_LAC_LTC_LO n.val, INP_LAC_LTC_HI n.val], t.coreView core.val x = s.reg x) ∧
    (∀ c : Fin 8, ∀ a, c ≠ core → a < 2 ^ 32 → tget t.latch (c.val * 2 ^ 32 + a) = tget s.latch (c.val * 2 ^ 32 + a)) ∧ s.only [.latch, .access] [] t) ∧
  (∀ (core : Fin 8) (s : State), s.closed INP_FLOW_STAT = false → ∃ t, exec (.flowStatRead core) s = .next t ∧ t.access = .value core.val (s.reg INP_FLOW_STAT) ∧
    (∀ x ∈ [INP_FLOW_VAL, INP_FLOW_LTC_LO, INP_FLOW_LTC_HI], t.coreView core.val x = s.reg x) ∧
    (∀ c : Fin 8, ∀ a, c ≠ core → a < 2 ^ 32 → tget t.latch (c.val * 2 ^ 32 + a) = tget s.latch (c.val * 2 ^ 32 + a)) ∧ s.only [.latch, .access] [] t) ∧
  (∀ (core : Fin 8) (s : State), s.closed CLE_FRAME_LO = false → ∃ t, exec (.cleFrameRead core) s = .next t ∧ t.access = .value core.val (BitVec.ofNat 32 s.frameNow) ∧
    t.coreView core.val CLE_FRAME_HI = BitVec.ofNat 32 (s.frameNow / 2 ^ 32) ∧
    (∀ c : Fin 8, ∀ a, c ≠ core → a < 2 ^ 32 → tget t.latch (c.val * 2 ^ 32 + a) = tget s.latch (c.val * 2 ^ 32 + a)) ∧ s.only [.latch, .access] [] t) ∧
  (∀ (core : Fin 8) (slot : Fin 96) (s : State), s.closed (CLE_S_SAMPLE slot.val) = false → s.slotLive slot.val = true → (s.slot slot.val).snap = [] → ∃ t, exec (.cleSampleRead core slot) s = .next t ∧
    t.access = .value core.val (s.reg (CLE_S_SAMPLE slot.val)) ∧ (∀ x ∈ sampleCompanions slot.val, t.coreView core.val x = s.reg x) ∧
    (∀ c : Fin 8, ∀ a, c ≠ core → a < 2 ^ 32 → tget t.latch (c.val * 2 ^ 32 + a) = tget s.latch (c.val * 2 ^ 32 + a)) ∧ s.only [.latch, .access] [] t) ∧
  (∀ (core : Fin 8) (k : Fin 64) (s : State), s.closed (VDR_OUT_SENSE k.val) = false → ∃ t, exec (.vdrSenseRead core k) s = .next t ∧ t.access = .value core.val (s.reg (VDR_OUT_SENSE k.val)) ∧
    t.coreView core.val (VDR_OUT_RELT k.val) = s.reg (VDR_OUT_RELT k.val) ∧
    (∀ c : Fin 8, ∀ a, c ≠ core → a < 2 ^ 32 → tget t.latch (c.val * 2 ^ 32 + a) = tget s.latch (c.val * 2 ^ 32 + a)) ∧ s.only [.latch, .access] [] t) ∧
  (∀ (core : Fin 8) (k : Fin 64) (s : State), s.closed (VDR_CTX_STAT k.val) = false → ∃ t, exec (.vdrCtxRead core k) s = .next t ∧ t.access = .value core.val (s.reg (VDR_CTX_STAT k.val)) ∧
    (∀ x ∈ [VDR_CTX_RUN k.val, VDR_CTX_LTC_LO k.val, VDR_CTX_LTC_HI k.val, VDR_CTX_REQ k.val], t.coreView core.val x = s.reg x) ∧
    (∀ c : Fin 8, ∀ a, c ≠ core → a < 2 ^ 32 → tget t.latch (c.val * 2 ^ 32 + a) = tget s.latch (c.val * 2 ^ 32 + a)) ∧ s.only [.latch, .access] [] t) ∧
  (∀ (core : Fin 8) (s : State), ∃ t, exec (.gnbScRead core 0) s = .next t ∧ t.access = .value core.val (s.gnbScView.reg GNB_SC_LO) ∧
    t.coreView core.val GNB_SC_HI = s.gnbScView.reg GNB_SC_HI ∧
    (∀ c : Fin 8, ∀ a, c ≠ core → a < 2 ^ 32 → tget t.latch (c.val * 2 ^ 32 + a) = tget s.latch (c.val * 2 ^ 32 + a)) ∧ s.only [.latch, .access] [] t) ∧
  (∀ (core : Fin 8) (s : State), ∃ t, exec (.gnbScRead core 1) s = .next t ∧ t.access = .value core.val (s.gnbScView.reg GNB_MARK_SC_LO) ∧
    (∀ x ∈ [GNB_MARK_SC_HI, GNB_MARK_LTC_LO, GNB_MARK_LTC_HI], t.coreView core.val x = s.gnbScView.reg x) ∧
    (∀ c : Fin 8, ∀ a, c ≠ core → a < 2 ^ 32 → tget t.latch (c.val * 2 ^ 32 + a) = tget s.latch (c.val * 2 ^ 32 + a)) ∧ s.only [.latch, .access] [] t) ∧
  (∀ (core : Fin 8) (which : Fin 514) (s : State), 2 ≤ which.val → ∃ t, exec (.gnbScRead core which) s = .next t ∧
    t.access = .value core.val (s.reg (GNB_CH_STAT (which.val - 2))) ∧ t.coreView core.val (GNB_CH_BOUND (which.val - 2)) = s.reg (GNB_CH_BOUND (which.val - 2)) ∧
    (∀ c : Fin 8, ∀ a, c ≠ core → a < 2 ^ 32 → tget t.latch (c.val * 2 ^ 32 + a) = tget s.latch (c.val * 2 ^ 32 + a)) ∧ s.only [.latch, .access] [] t) ∧
  (∀ (core : Fin 8) (x : Fin 32) (s : State), s.closed (CAM_CTX_STAT x.val) = false → ∃ t, exec (.camCtxRead core x) s = .next t ∧ t.access = .value core.val (s.reg (CAM_CTX_STAT x.val)) ∧
    t.coreView core.val (CAM_CTX_CSEQ x.val) = s.reg (CAM_CTX_CSEQ x.val) ∧ t.get (CAM_CTX_STAT.PAL_SKIP x.val) = 0 ∧
    (∀ c : Fin 8, ∀ a, c ≠ core → a < 2 ^ 32 → tget t.latch (c.val * 2 ^ 32 + a) = tget s.latch (c.val * 2 ^ 32 + a)) ∧ s.only [.latch, .access] [CAM_CTX_STAT.PAL_SKIP x.val] t) ∧
  (∀ (core : Fin 8) (s : State), s.closed FUS_IMU0 = false → ∃ t, exec (.fusImuRead core) s = .next t ∧ t.access = .value core.val (s.reg FUS_IMU0) ∧
    (∀ x ∈ [FUS_IMU1, FUS_IMU2, FUS_IMU_LTC_LO, FUS_IMU_LTC_HI], t.coreView core.val x = s.reg x) ∧
    (∀ c : Fin 8, ∀ a, c ≠ core → a < 2 ^ 32 → tget t.latch (c.val * 2 ^ 32 + a) = tget s.latch (c.val * 2 ^ 32 + a)) ∧ s.only [.latch, .access] [] t) ∧
  (∀ (core : Fin 8) (x : Fin 24) (s : State), s.closed (FUS_S_CALV x.val) = false → s.fusLive x.val = true → ∃ t, exec (.fusCalvRead core x) s = .next t ∧
    t.access = .value core.val (s.reg (FUS_S_CALV x.val)) ∧
    (∀ y ∈ [FUS_S_EST_ROLL x.val, FUS_S_EST_PITCH x.val, FUS_S_EST_YAW x.val, FUS_S_EST_TX x.val, FUS_S_EST_TY x.val, FUS_S_EST_TZ x.val, FUS_S_RF_USED x.val],
      t.coreView core.val y = s.reg y) ∧
    (∀ c : Fin 8, ∀ a, c ≠ core → a < 2 ^ 32 → tget t.latch (c.val * 2 ^ 32 + a) = tget s.latch (c.val * 2 ^ 32 + a)) ∧ s.only [.latch, .access] [] t) ∧
  (∀ (core : Fin 8) (x : Fin 2048) (o : CanObj) (s : State), s.closed (BUS_OBJ_STAT x.val) = false → s.busObj x.val = some o → ∃ t, exec (.busObjRead core x) s = .next t ∧
    t.access = .value core.val (s.reg (BUS_OBJ_STAT x.val)) ∧ (∀ j ∈ List.range 22, t.coreView core.val (BUS_OBJ_REC x.val j) = s.reg (BUS_OBJ_REC x.val j)) ∧
    t.getB (BUS_OBJ_STAT.NEW x.val) = false ∧ t.getB (BUS_OBJ_STAT.LOST x.val) = false ∧ t.getB (BUS_OBJ_STAT.DONE x.val) = false ∧ t.getB (BUS_OBJ_STAT.FAILED x.val) = false ∧
    (∀ c : Fin 8, ∀ a, c ≠ core → a < 2 ^ 32 → tget t.latch (c.val * 2 ^ 32 + a) = tget s.latch (c.val * 2 ^ 32 + a)) ∧ s.only [.latch, .access] [BUS_OBJ_STAT.NEW x.val, BUS_OBJ_STAT.LOST x.val, BUS_OBJ_STAT.DONE x.val, BUS_OBJ_STAT.FAILED x.val] t)

/-- The next sample of an input in service, once its slots and 500 ns have passed, with a conversion sum for each frame since the sample before and the
stamp of its slots' midpoint (within 8 ns), filters its frames, each with the K at its start, and publishes the rounded CODE (0 with an open shunt),
VAL as one fused multiply-add with GAIN and OFS as at its frame's start, the flags, and SEQ plus 1; a new sticky bit raises 352; a sample of the flow
input enters the window its stamp lies in; with no flag and the flow chain not on this input nothing else changes. The filter (16.4 fixed point, shift
K, rounding toward minus infinity) takes x at the first frame after ENABLE. A shunt opens with source 353, CODE 0 and its flag; REARM closes it. A
flow window that is complete publishes the flow of R162 with the settings of its start (0 with no sample), VALID, CNT and its end LTC, hands YLD the
window where YLD is enabled, and raises 359 where VALID goes from 1 to 0. Everything else stays. -/
def Obligations.AnalogSamplesAndFlowWindowsPublishTheirValues : Prop :=
  (∀ (n : Fin 48) (frames : List Nat) (stamp : Nat) (c f : Nat) (g o : F32) (a : Ain) (s : State), s.ainDue n.val frames stamp = true → a = s.ainNext n.val frames →
    c = (if (s.ain n.val).shunt then 0 else ainCode a.y) → f = s.ainFlags n.val c →
    g = (s.inpAt (INP_AIN_GAIN n.val) (s.frameStart (s.ain n.val).next)).toNat → o = (s.inpAt (INP_AIN_OFS n.val) (s.frameStart (s.ain n.val).next)).toNat →
    ∃ t, exec (.ainSamplePublish n frames stamp) s = .next t ∧
    t.ain n.val = { a with stamp := stamp, next := (s.ain n.val).next + s.get (INP_AIN_CFG.DIV n.val), tok := s.inp.pubs + 1 } ∧
    t.inp = { s.inp with pubs := s.inp.pubs + 1, ains := tput s.inp.ains n.val (t.ain n.val), flow := t.inp.flow } ∧
    t.get (INP_AIN_RAW.CODE n.val) = c ∧ t.get (INP_AIN_RAW.FLAGS n.val) = f ∧ t.get (INP_AIN_RAW.SEQ n.val) = (s.get (INP_AIN_RAW.SEQ n.val) + 1) % 256 ∧
    t.reg (INP_AIN_VAL n.val) = BitVec.ofNat 32 (F.fma (F.ofNat c) g o) ∧
    t.get (INP_AIN_FLT.STICKY n.val) = s.get (INP_AIN_FLT.STICKY n.val) ||| f ∧ (s.get (INP_AIN_FLT.STICKY n.val) ||| f ≠ s.get (INP_AIN_FLT.STICKY n.val) → s.raised 352 t) ∧
    t.inp.flow = (if s.getB INP_FLOW_CFG.EN = true ∧ s.get INP_FLOW_CFG.SRC = n.val then
      tput s.inp.flow (stamp / 10000000) ((tgetD s.inp.flow (stamp / 10000000) (0, 0, false)).1 + c, (tgetD s.inp.flow (stamp / 10000000) (0, 0, false)).2.1 + 1,
        (tgetD s.inp.flow (stamp / 10000000) (0, 0, false)).2.2 || decide (f ≠ 0)) else s.inp.flow) ∧
    (f = 0 → s.only [.inp] [INP_AIN_RAW.CODE n.val, INP_AIN_RAW.FLAGS n.val, INP_AIN_RAW.SEQ n.val, wordAt (INP_AIN_VAL n.val)] t) ∧
    s.only [.inp, .rcd, .cyc] ([INP_AIN_RAW.CODE n.val, INP_AIN_RAW.FLAGS n.val, INP_AIN_RAW.SEQ n.val, wordAt (INP_AIN_VAL n.val), INP_AIN_FLT.STICKY n.val] ++ raiseFlds 352) t) ∧
  (∀ (ovs k sum : Nat) (rest : List (Nat × Nat)) (a : Ain), ainFrames ovs ((k, sum) :: rest) a =
    ainFrames ovs rest { a with y := if a.started then (((a.y : Int) + floorDivNat ((sum * 16 / 2 ^ ovs : Nat) - (a.y : Int)) (2 ^ k)) : Int).toNat else sum * 16 / 2 ^ ovs, started := true }) ∧
  (∀ (n : Fin 48) (s : State), s.inpOn = true → s.imgFld (INP_AIN_CFG.MODE n.val) = 3 → (s.ain n.val).shunt = false → ∃ t, exec (.ainShunt n) s = .next t ∧
    t.inp = { s.inp with ains := tput s.inp.ains n.val { s.ain n.val with shunt := true } } ∧ t.get (INP_AIN_RAW.CODE n.val) = 0 ∧
    t.getB ⟨INP_AIN_RAW n.val, 31, 1⟩ = true ∧ s.raised 353 t ∧ s.only [.inp, .rcd, .cyc] ([INP_AIN_RAW.CODE n.val, ⟨INP_AIN_RAW n.val, 31, 1⟩] ++ raiseFlds 353) t) ∧
  (∀ (core : Fin 8) (n : Fin 48) (value : Word) (s : State), s.closed (INP_AIN_FLT n.val) = false → bitAt value.toNat 31 = true → ∃ t, exec (.ainRearm core n value) s = .next t ∧
    t.inp = { s.inp with ains := tput s.inp.ains n.val { s.ain n.val with shunt := false } } ∧
    t.get (INP_AIN_FLT.STICKY n.val) = s.get (INP_AIN_FLT.STICKY n.val) &&& (15 - value.toNat % 16) ∧ s.only [.access, .inp] [INP_AIN_FLT.STICKY n.val] t) ∧
  (∀ (sum n b src : Nat) (bad ok : Bool) (v : F32) (s : State), s.flowDue = true → tgetD s.inp.flow s.inp.flowNext (0, 0, false) = (sum, n, bad) → n < 65536 →
    b = max (s.inp.flowNext * 10000000) s.inp.start → src = s.get INP_FLOW_CFG.SRC → ok = (decide (n ≠ 0) && !bad) →
    v = (if n = 0 then F.zero else flowValue sum n (s.inpAt (INP_AIN_GAIN src) b).toNat (s.inpAt (INP_AIN_OFS src) b).toNat (s.inpAt INP_FLOW_TARE b).toNat (s.inpAt INP_FLOW_K b).toNat) →
    ∃ t, exec .flowWindowEnd s = .next t ∧
    t.reg INP_FLOW_VAL = BitVec.ofNat 32 v ∧ t.get INP_FLOW_STAT.CNT = n ∧ t.getB INP_FLOW_STAT.VALID = ok ∧ t.get INP_FLOW_STAT.SEQ = (s.get INP_FLOW_STAT.SEQ + 1) % 256 ∧
    t.get64 INP_FLOW_LTC_LO INP_FLOW_LTC_HI = (s.inp.flowNext + 1) * 10000000 % 2 ^ 64 ∧
    t.inp = { s.inp with flow := tdel s.inp.flow s.inp.flowNext, flowNext := s.inp.flowNext + 1, flowQ := (if s.enabled 0x0D then s.inp.flowQ ++ [{ flow := v, valid := ok, endLtc := (s.inp.flowNext + 1) * 10000000 }] else s.inp.flowQ) } ∧
    (s.getB INP_FLOW_STAT.VALID = true → ok = false → s.raised 359 t) ∧
    s.only [.inp, .rcd, .cyc] ([wordAt INP_FLOW_VAL, INP_FLOW_STAT.CNT, INP_FLOW_STAT.VALID, INP_FLOW_STAT.SEQ, wordAt INP_FLOW_LTC_LO, wordAt INP_FLOW_LTC_HI] ++ raiseFlds 359) t)

/-- A level shorter than MINW (as it stands at the edge) is ignored, one under 240 cycles advances FAST; a kept rising edge of KIND 4 publishes the count
plus 1 with the edge's stamp and clears STALL, one of KIND 2 the time since the last; an edge of one input of a QUAD pair moves its count by one, up
where the even input leads; both moving at once advance QERR and raise 355 with the count unchanged. A FREQ gate that has ended 500 ns ago publishes
(edges - 1) / time where two rising edges lie in it, and the next gate opens. No edge for TIMEOUT sets STALL and raises 354; a weak VR peak raises
356. A loss sample updates, in the window of its stamp and with that window's settings, envelope, peak and impact count (with HP not 0 on a free
sample: log entry 10); a full-scale one sets CLIP, raising 358 once; a window whose result is due publishes COUNT, PEAK, PARTIAL and the end LTC,
raises 357 with IRQ, and reaches YLD where YLD is enabled; an open input sets OPEN and raises 358 once. Everything else stays. -/
def Obligations.PulseAndLossInputsCountMeasureAndPublish : Prop :=
  (∀ (n : Fin 24) (rise both : Bool) (stamp held : Nat) (s : State), s.inpOn = true → (s.pin n.val).level ≠ rise → held < s.inpGet (INP_PIN_CFG.MINW n.val) stamp →
    ∃ t, exec (.pinEdge n rise both stamp held) s = .next t ∧ t = s) ∧
  (∀ (n : Fin 24) (rise both : Bool) (stamp held : Nat) (s : State), s.inpOn = true → (s.pin n.val).level ≠ rise → s.inpGet (INP_PIN_CFG.MINW n.val) stamp ≤ held → held < 240 →
    ∃ t, exec (.pinEdge n rise both stamp held) s = .next t ∧ t.get (INP_PIN_STAT.FAST n.val) = min 255 (s.get (INP_PIN_STAT.FAST n.val) + 1) ∧ s.only [] [INP_PIN_STAT.FAST n.val] t) ∧
  (∀ (n : Fin 24) (both : Bool) (stamp held : Nat) (s : State), s.inpOn = true → (s.pin n.val).level = false → s.inpGet (INP_PIN_CFG.MINW n.val) stamp ≤ held → 240 ≤ held → s.inQuad n.val = false →
    s.get (INP_PIN_CFG.KIND n.val) = 4 → ∃ t, exec (.pinEdge n true both stamp held) s = .next t ∧
    t.pin n.val = { s.pin n.val with level := true, lastRise := some stamp, period := t.pin n.val |>.period, count := ((s.pin n.val).count + 1) % 2 ^ 32, rises := [], pub := true, tok := s.inp.pubs + 1 } ∧
    t.inp = { s.inp with pubs := s.inp.pubs + 1, pins := tput s.inp.pins n.val (t.pin n.val) } ∧ t.reg (INP_PIN_VAL n.val) = BitVec.ofNat 32 ((s.pin n.val).count + 1) ∧
    t.get64 (INP_PIN_LTC_LO n.val) (INP_PIN_LTC_HI n.val) = stamp % 2 ^ 64 ∧ t.get (INP_PIN_STAT.SEQ n.val) = (s.get (INP_PIN_STAT.SEQ n.val) + 1) % 256 ∧
    t.getB (INP_PIN_STAT.STALL n.val) = false ∧ s.only [.inp] [wordAt (INP_PIN_VAL n.val), wordAt (INP_PIN_LTC_LO n.val), wordAt (INP_PIN_LTC_HI n.val), INP_PIN_STAT.SEQ n.val, INP_PIN_STAT.STALL n.val] t) ∧
  (∀ (n : Fin 24) (both : Bool) (stamp held last : Nat) (s : State), s.inpOn = true → (s.pin n.val).level = false → s.inpGet (INP_PIN_CFG.MINW n.val) stamp ≤ held → 240 ≤ held → s.inQuad n.val = false →
    s.get (INP_PIN_CFG.KIND n.val) = 2 → (s.pin n.val).lastRise = some last → ∃ t, exec (.pinEdge n true both stamp held) s = .next t ∧
    t.pin n.val = { s.pin n.val with level := true, lastRise := some stamp, period := some (stamp - last), count := ((s.pin n.val).count + 1) % 2 ^ 32, rises := [], pub := true, tok := s.inp.pubs + 1 } ∧
    t.inp = { s.inp with pubs := s.inp.pubs + 1, pins := tput s.inp.pins n.val (t.pin n.val) } ∧
    t.reg (INP_PIN_VAL n.val) = BitVec.ofNat 32 (F.ofNat (stamp - last)) ∧ t.get64 (INP_PIN_LTC_LO n.val) (INP_PIN_LTC_HI n.val) = stamp % 2 ^ 64 ∧
    t.get (INP_PIN_STAT.SEQ n.val) = (s.get (INP_PIN_STAT.SEQ n.val) + 1) % 256 ∧ t.getB (INP_PIN_STAT.STALL n.val) = false ∧ s.only [.inp] [wordAt (INP_PIN_VAL n.val), wordAt (INP_PIN_LTC_LO n.val), wordAt (INP_PIN_LTC_HI n.val), INP_PIN_STAT.SEQ n.val, INP_PIN_STAT.STALL n.val] t) ∧
  (∀ (n : Fin 24) (e : Nat) (rise : Bool) (stamp held : Nat) (s : State), s.inpOn = true → (s.pin n.val).level ≠ rise → s.inpGet (INP_PIN_CFG.MINW n.val) stamp ≤ held → 240 ≤ held → s.inQuad n.val = true →
    e = 2 * (n.val / 2) → ∃ t, exec (.pinEdge n rise false stamp held) s = .next t ∧
    (t.pin e).quad = (s.pin e).quad + (if (s.pin e).level = (s.pin (e + 1)).level then (if n.val = e then 1 else -1) else (if n.val = e then -1 else 1)) ∧ (t.pin n.val).level = rise ∧
    t.reg (INP_PIN_VAL e) = BitVec.ofNat 32 (fromSigned 32 (t.pin e).quad) ∧ t.get64 (INP_PIN_LTC_LO e) (INP_PIN_LTC_HI e) = stamp % 2 ^ 64 ∧
    t.get (INP_PIN_STAT.SEQ e) = (s.get (INP_PIN_STAT.SEQ e) + 1) % 256 ∧ (∀ k, k ≠ e → k ≠ n.val → t.pin k = s.pin k) ∧
    s.only [.inp] [wordAt (INP_PIN_VAL e), wordAt (INP_PIN_LTC_LO e), wordAt (INP_PIN_LTC_HI e), INP_PIN_STAT.SEQ e, INP_PIN_STAT.STALL e] t) ∧
  (∀ (n : Fin 24) (e : Nat) (rise : Bool) (stamp held : Nat) (s : State), s.inpOn = true → (s.pin n.val).level ≠ rise → s.inpGet (INP_PIN_CFG.MINW n.val) stamp ≤ held → 240 ≤ held → s.inQuad n.val = true →
    e = 2 * (n.val / 2) → ∃ t, exec (.pinEdge n rise true stamp held) s = .next t ∧ t.get (INP_PIN_STAT.QERR e) = min 255 (s.get (INP_PIN_STAT.QERR e) + 1) ∧
    t.pin e = { s.pin e with level := !(s.pin e).level, lastRise := if (s.pin e).level then (s.pin e).lastRise else some stamp } ∧
    t.pin (e + 1) = { s.pin (e + 1) with level := !(s.pin (e + 1)).level } ∧ (∀ k, k ≠ e → k ≠ e + 1 → t.pin k = s.pin k) ∧
    t.getB (INP_PIN_STAT.STALL e) = ((s.pin e).level && s.getB (INP_PIN_STAT.STALL e)) ∧ s.raised 355 t ∧
    s.only [.inp, .rcd, .cyc] ([INP_PIN_STAT.QERR e, INP_PIN_STAT.STALL e] ++ raiseFlds 355) t) ∧
  (∀ (n : Fin 24) (a fin : Nat) (s : State), s.inpOn = true → s.get (INP_PIN_CFG.KIND n.val) = 1 → a = (s.pin n.val).gate → s.inpGet (INP_PIN_TIM.GATE n.val) a ≠ 0 →
    fin = (a / (s.inpGet (INP_PIN_TIM.GATE n.val) a * 1000000) + 1) * (s.inpGet (INP_PIN_TIM.GATE n.val) a * 1000000) → fin + 500 < s.now + 8 → ∃ t, exec (.pinGateEnd n) s = .next t ∧
    t.reg (INP_PIN_VAL n.val) = BitVec.ofNat 32 (gateFreq a fin (s.inpGet (INP_PIN_TIM.TIMEOUT n.val) a) (s.pin n.val).rises) ∧
    t.get64 (INP_PIN_LTC_LO n.val) (INP_PIN_LTC_HI n.val) = fin % 2 ^ 64 ∧ t.get (INP_PIN_STAT.SEQ n.val) = (s.get (INP_PIN_STAT.SEQ n.val) + 1) % 256 ∧
    t.pin n.val = { s.pin n.val with rises := t.pin n.val |>.rises, gate := ceilDiv fin (s.gateNs n.val fin) * s.gateNs n.val fin, pub := true, tok := s.inp.pubs + 1 } ∧
    t.inp = { s.inp with pubs := s.inp.pubs + 1, pins := tput s.inp.pins n.val (t.pin n.val) } ∧
    s.only [.inp] [wordAt (INP_PIN_VAL n.val), wordAt (INP_PIN_LTC_LO n.val), wordAt (INP_PIN_LTC_HI n.val), INP_PIN_STAT.SEQ n.val] t) ∧
  (∀ (a b timeout x y : Nat) (more : List Nat), (∀ u ∈ x :: y :: more, a ≤ u ∧ u < b) →
    gateFreq a b timeout (x :: y :: more) = F.ofRatio (((1 + more.length) * 1000000000 : Nat) : Int) ((y :: more).getLastD y - x)) ∧
  (∀ (n : Fin 24) (r : Nat) (s : State), s.inpOn = true → s.get (INP_PIN_CFG.KIND n.val) ≠ 0 → s.getB (INP_PIN_STAT.STALL n.val) = false →
    r = ((s.pin n.val).lastRise).getD s.inp.start → s.inpGet (INP_PIN_TIM.TIMEOUT n.val) r * 1000000 ≤ s.since r → ∃ t, exec (.pinStall n) s = .next t ∧
    t.getB (INP_PIN_STAT.STALL n.val) = true ∧ s.raised 354 t ∧ s.only [.rcd, .cyc] (INP_PIN_STAT.STALL n.val :: raiseFlds 354) t) ∧
  (∀ (n : Fin 24) (s : State), s.inpOn = true → s.getB (INP_PIN_CFG.TYPE n.val) = true → ∃ t, exec (.pinWeak n) s = .next t ∧ s.raised 356 t ∧ s.only [.rcd, .cyc] (raiseFlds 356) t) ∧
  (∀ (n : Fin 8) (code : BitVec 24) (stamp w u thr dead : Nat) (x : Int) (a b : LacAcc) (hit : Bool) (s : State), s.inpOn = true → s.lacNs n.val ≠ 0 → w = stamp / s.lacNs n.val → (s.lac n.val).next ≤ w →
    stamp ≤ s.now + 8 → u = s.lacStart n.val w → x = (if s.inpGet (INP_LAC_CFG.HP n.val) u = 0 then code.toInt else toSigned 24 (s.fresh 24)) → thr = s.inpGet (INP_LAC_THR.THR n.val) u →
    dead = s.inpGet (INP_LAC_CFG.DEAD n.val) u → a = (tget (s.lac n.val).wins w).getD { from0 := stamp } →
    hit = (decide ((s.lac n.val).e < thr) && decide (thr ≤ envelope (s.inpGet (INP_LAC_CFG.DECAY n.val) u) (s.lac n.val).e x) && (s.lac n.val).since.all fun k => decide (dead ≤ k + 1)) →
    b = { a with peak := max a.peak (envelope (s.inpGet (INP_LAC_CFG.DECAY n.val) u) (s.lac n.val).e x), count := if hit then min 0xFFFFFF (a.count + 1) else a.count } →
    ∃ t, exec (.lacSample n ⟨code, stamp⟩) s = .next t ∧
    t.lac n.val = { s.lac n.val with e := envelope (s.inpGet (INP_LAC_CFG.DECAY n.val) u) (s.lac n.val).e x, wins := tput (s.lac n.val).wins w b, since := if hit then some 0 else (s.lac n.val).since.map (· + 1) } ∧
    t.inp = { s.inp with lacs := tput s.inp.lacs n.val (t.lac n.val) } ∧
    (code.toInt = 0x7FFFFF ∨ code.toInt = -0x800000 → t.getB ⟨INP_LAC_STAT n.val, 0, 1⟩ = true ∧ (s.getB ⟨INP_LAC_STAT n.val, 0, 1⟩ = false → s.raised 358 t)) ∧
    (code.toInt ≠ 0x7FFFFF → code.toInt ≠ -0x800000 → s.only [.inp, .free] [] t) ∧ (s.inpGet (INP_LAC_CFG.HP n.val) u = 0 → t.free = s.free) ∧
    s.only [.inp, .free, .rcd, .cyc] (⟨INP_LAC_STAT n.val, 0, 1⟩ :: raiseFlds 358) t) ∧
  (∀ (n : Fin 8) (w : Nat) (a : LacAcc) (s : State), s.lacDue n.val = true → s.enabled 0x0D = false → w = (s.lac n.val).next → a = tgetD (s.lac n.val).wins w {} → ∃ t, exec (.lacWin n) s = .next t ∧
    t.inp = { s.inp with lacs := tput s.inp.lacs n.val { s.lac n.val with wins := tdel (s.lac n.val).wins w, next := w + 1 } } ∧
    t.get (INP_LAC_CNT.COUNT n.val) = a.count % 2 ^ 24 ∧ t.get (INP_LAC_CNT.SEQ n.val) = (s.get (INP_LAC_CNT.SEQ n.val) + 1) % 256 ∧
    t.get (INP_LAC_PEAK.PEAK n.val) = a.peak % 2 ^ 23 ∧ t.getB (INP_LAC_PEAK.PARTIAL n.val) = decide (w = s.inp.start / s.lacNs n.val) ∧
    t.get64 (INP_LAC_LTC_LO n.val) (INP_LAC_LTC_HI n.val) = (w + 1) * s.lacNs n.val % 2 ^ 64 ∧
    (bitAt (s.inpAt (INP_LAC_WIN n.val) (s.lacStart n.val w)).toNat 31 = true → s.raised 357 t) ∧
    s.only [.inp, .rcd, .cyc] ([INP_LAC_CNT.COUNT n.val, INP_LAC_CNT.SEQ n.val, INP_LAC_PEAK.PEAK n.val, INP_LAC_PEAK.PARTIAL n.val, wordAt (INP_LAC_LTC_LO n.val), wordAt (INP_LAC_LTC_HI n.val)] ++ raiseFlds 357) t) ∧
  (∀ (n : Fin 8) (w : Nat) (a : LacAcc) (s : State), s.lacDue n.val = true → s.enabled 0x0D = true → w = (s.lac n.val).next → a = tgetD (s.lac n.val).wins w {} → ∃ t, exec (.lacWin n) s = .next t ∧
    t.inp = { s.inp with lacs := tput s.inp.lacs n.val { s.lac n.val with wins := tdel (s.lac n.val).wins w, next := w + 1 }, lacQ := s.inp.lacQ ++ [{ input := n.val, count := a.count, endLtc := (w + 1) * s.lacNs n.val, winMs := s.get (INP_LAC_WIN.WIN n.val) }] } ∧
    t.get (INP_LAC_CNT.COUNT n.val) = a.count % 2 ^ 24 ∧ t.get (INP_LAC_CNT.SEQ n.val) = (s.get (INP_LAC_CNT.SEQ n.val) + 1) % 256 ∧
    t.get (INP_LAC_PEAK.PEAK n.val) = a.peak % 2 ^ 23 ∧ t.getB (INP_LAC_PEAK.PARTIAL n.val) = decide (w = s.inp.start / s.lacNs n.val) ∧
    t.get64 (INP_LAC_LTC_LO n.val) (INP_LAC_LTC_HI n.val) = (w + 1) * s.lacNs n.val % 2 ^ 64 ∧
    (bitAt (s.inpAt (INP_LAC_WIN n.val) (s.lacStart n.val w)).toNat 31 = true → s.raised 357 t) ∧
    s.within [.inp, .rcd, .cyc] (some [0xC0, 0xC1, 0xC4, 0xCD]) t) ∧
  (∀ (n : Fin 8) (s : State), s.inpOn = true → s.getB ⟨INP_LAC_STAT n.val, 1, 1⟩ = false → ∃ t, exec (.lacOpen n) s = .next t ∧ t.getB ⟨INP_LAC_STAT n.val, 1, 1⟩ = true ∧ s.raised 358 t ∧
    s.only [.rcd, .cyc] (⟨INP_LAC_STAT n.val, 1, 1⟩ :: raiseFlds 358) t)

/-- A supply that is on shows its limit in LIMIT; 10 ms in limit switch it off, clear LIMIT, set FAULT and raise 360, with EN kept; a write of EN from 0
to 1 switches it on again, EN to 0 clears LIMIT, and FAULT is W1C; what the supplies have been is kept for the samples of ratiometric inputs. An
overload of a driven output sets FAULT once and raises 361, CODE and EN kept. A digital level that has lasted 20 µs and DEB ms and is not the one
shown sets LEVEL and raises 362 where its RISE or FALL bit is set; one shorter changes nothing. Disabling INP clears ENABLE and LIMIT alone. -/
def Obligations.SensorSuppliesOutputsAndDigitalInputsFollowR163ToR165 : Prop :=
  (∀ (i : Fin 6) (ovr : Bool) (s : State), s.supplyOn i.val = true → ovr ≠ bitAt (s.get INP_SSUP.LIMIT) i.val → ∃ t, exec (.ssupLimit i ovr) s = .next t ∧ t.getB ⟨INP_SSUP, 16 + i.val, 1⟩ = ovr ∧
    t.inp = { s.inp with limitAt := tput s.inp.limitAt i.val s.now, supPast := s.inp.supPast ++ [(i.val, s.now, s.supplyBad i.val)] } ∧ s.only [.inp] [⟨INP_SSUP, 16 + i.val, 1⟩] t) ∧
  (∀ (i : Fin 6) (s : State), s.supplyOn i.val = true → bitAt (s.get INP_SSUP.LIMIT) i.val = true → 10000000 ≤ s.since (tgetD s.inp.limitAt i.val 0) → ∃ t, exec (.ssupFault i) s = .next t ∧
    t.supplyOn i.val = false ∧ t.inp = { s.inp with supOff := putBits s.inp.supOff i.val 1 1, supPast := s.inp.supPast ++ [(i.val, s.now, true)] } ∧
    t.getB ⟨INP_SSUP, 16 + i.val, 1⟩ = false ∧ t.getB ⟨INP_SSUP, 8 + i.val, 1⟩ = true ∧
    t.get INP_SSUP.EN = s.get INP_SSUP.EN ∧ s.raised 360 t ∧ s.only [.inp, .rcd, .cyc] ([⟨INP_SSUP, 16 + i.val, 1⟩, ⟨INP_SSUP, 8 + i.val, 1⟩] ++ raiseFlds 360) t) ∧
  (∀ (core : Fin 8) (value : Word) (i : Fin 6) (s : State), s.closed INP_SSUP = false → s.inpOn = true → bitAt (s.get INP_SSUP.EN) i.val = false → bitAt value.toNat i.val = true →
    ∃ t, exec (.ssupEnable core value) s = .next t ∧ t.supplyOn i.val = true ∧ t.get INP_SSUP.EN = value.toNat % 64 ∧
    t.get INP_SSUP.FAULT = s.get INP_SSUP.FAULT &&& (63 - bitsOf value.toNat 8 6) ∧ t.get INP_SSUP.LIMIT = s.get INP_SSUP.LIMIT &&& (value.toNat % 64) ∧
    t.inp = { s.inp with supOff := s.inp.supOff &&& (63 - (value.toNat % 64 &&& (63 - s.get INP_SSUP.EN))), supPast := s.inp.supPast ++ (List.range 6).map fun k => (k, s.now, s.supplyBad k) } ∧
    s.only [.access, .inp] [INP_SSUP.EN, INP_SSUP.FAULT, INP_SSUP.LIMIT] t) ∧
  (∀ (n : Fin 8) (s : State), s.inpOn = true → s.getB (INP_AOUT.EN n.val) = true → s.getB (INP_AOUT.FAULT n.val) = false → ∃ t, exec (.aoutFault n) s = .next t ∧
    t.getB (INP_AOUT.FAULT n.val) = true ∧ s.raised 361 t ∧ s.only [.rcd, .cyc] (INP_AOUT.FAULT n.val :: raiseFlds 361) t) ∧
  (∀ (n : Fin 16) (rise : Bool) (held : Nat) (s : State), s.inpOn = true → s.getB ⟨INP_DIN, n.val, 1⟩ ≠ rise → 20 + 1000 * s.inpGet INP_DIN_CFG.DEB (s.now - 1000 * held) ≤ held →
    ∃ t, exec (.dinEdge n ⟨rise, held⟩) s = .next t ∧ t.getB ⟨INP_DIN, n.val, 1⟩ = rise ∧
    (bitAt (s.get (if rise then INP_DIN_IRQ.RISE else INP_DIN_IRQ.FALL)) n.val = true → s.raised 362 t) ∧
    (bitAt (s.get (if rise then INP_DIN_IRQ.RISE else INP_DIN_IRQ.FALL)) n.val = false → s.only [] [⟨INP_DIN, n.val, 1⟩] t) ∧
    s.only [.rcd, .cyc] (⟨INP_DIN, n.val, 1⟩ :: raiseFlds 362) t) ∧
  (∀ (n : Fin 16) (rise : Bool) (held : Nat) (s : State), s.getB ⟨INP_DIN, n.val, 1⟩ = rise ∨ held < 20 + 1000 * s.inpGet INP_DIN_CFG.DEB (s.now - 1000 * held) →
    ∃ t, exec (.dinEdge n ⟨rise, held⟩) s = .next t ∧ t = s) ∧
  (∀ s : State, s.getB INP_CTRL.ENABLE = true → ∃ t, exec .inpDisable s = .next t ∧ t.getB INP_CTRL.ENABLE = false ∧ t.get INP_SSUP.LIMIT = 0 ∧ s.only [] [INP_CTRL.ENABLE, INP_SSUP.LIMIT] t)

/-- A creation with no code of Table 8-6 makes the lowest free slot, stopped, at the position and lane of R172, its route, phase point and ages set, all
else in its window at reset, and completes with the handle of the new GEN; one with a code completes with the lowest and handle 0 and makes nothing.
SLOT_START of a stopped slot stays in flight with SAMPLE 0; SLOT_STOP of a running one puts it in STATE 3 and waits, of a stopped one completes;
SLOT_DESTROY of a stopped slot frees it. A coefficient write sets WPEND and WSEQ, and on a running slot without HOLD counts a violation and raises 36;
host source writes count from the next strobe, a non-finite one is ignored. What no sentence names is as before. Disabling CLE leaves no slot and no
grid; the rings' completions, what readers latched, the destinations' queues and the windows of EVT, INP and CLE may change with it, nothing else
does. -/
def Obligations.SlotCommandsCreateStartStopAndDestroySlots : Prop :=
  (∀ (ring : Fin 2) (e : Entry) (x p n : Nat) (s : State), s.ready 0x05 ring.val 0 e → lowest (s.createCodes (s.cmdOf 0x05 ring.val e)) = none → tfree s.cle.slots 96 = some x →
    s.clePlace ((s.cmdOf 0x05 ring.val e).arg 17 1) = some (p, n) → ∃ t, exec (.slotCreate ring e) s = .next t ∧
    tget t.cle.slots x = some { satIrq := bitAt ((s.cmdOf 0x05 ring.val e).arg 23 1) 0 } ∧ t.gen 1 x = (s.gen 1 x + 1) % 1024 ∧
    s.completed 0x05 ring.val e 0x00 (t.handle 1 x) t ∧ s.dramKept (s.complAddr 0x05 ring.val) 16 t ∧
    t.get (CLE_S_STAT.STATE x) = 1 ∧ t.get (CLE_S_STAT.POS x) = p % 32 ∧ t.get (CLE_S_STAT.LANE x) = n % 4 ∧ t.get (CLE_S_STAT.LAT x) = cleLat p % 1024 ∧
    t.get (CLE_S_STAT.SCLK x) = (s.cmdOf 0x05 ring.val e).arg 16 1 % 8 ∧
    t.get (CLE_S_ROUTE.DEST_KIND x) = (s.cmdOf 0x05 ring.val e).arg 19 1 % 4 ∧ t.get (CLE_S_ROUTE.DEST_INDEX x) = (s.cmdOf 0x05 ring.val e).arg 20 1 % 64 ∧
    t.get (CLE_S_TIMING.PHASE_CYC x) = phasePoint ((s.cmdOf 0x05 ring.val e).arg 18 1) (s.get (CLE_SCLK_CFG.N ((s.cmdOf 0x05 ring.val e).arg 16 1))) (cleLat p) % 2 ^ 24 ∧
    (∀ a, CLE_S_STAT x + 0x18 ≤ a → a < CLE_S_STAT x + 0x1000 → t.reg a = resetOf a) ∧
    s.onlyBut [.latch, .dram, .rings, .gens, .cle, .rcd, .cyc] (complFlds 0x05 ring.val ++ [CLE_STATUS.SLOTS, CLE_STATUS.RUNNING]) (CLE_S_STAT x) 0x1000 t) ∧
  (∀ (ring : Fin 2) (e : Entry) (code : Nat) (s : State), s.ready 0x05 ring.val 0 e → lowest (s.createCodes (s.cmdOf 0x05 ring.val e)) = some code → ∃ t, exec (.slotCreate ring e) s = .next t ∧
    s.completed 0x05 ring.val e code 0 t ∧ s.only [.dram, .rings, .rcd, .cyc] (complFlds 0x05 ring.val) t) ∧
  (∀ (ring : Fin 2) (e : Entry) (s : State), s.ready 0x05 ring.val 0 e → s.checkHandle 1 s.slotLive e.handle.toNat = none → (s.slot (hIndex e.handle.toNat)).cmds = [] →
    s.slotRuns (hIndex e.handle.toNat) = false → F.finite ((s.cmdOf 0x05 ring.val e).arg 16 4) = true → F.finite ((s.cmdOf 0x05 ring.val e).arg 20 4) = true →
    ∃ t, exec (.slotStart ring e) s = .next t ∧ s.started 0x05 ring.val 3 e t ∧ (t.slot (hIndex e.handle.toNat)).first = true ∧
    (t.slot (hIndex e.handle.toNat)).uPrev = (s.cmdOf 0x05 ring.val e).arg 16 4 ∧ (t.slot (hIndex e.handle.toNat)).i = (s.cmdOf 0x05 ring.val e).arg 20 4 ∧
    (t.slot (hIndex e.handle.toNat)).cmds.map (·.taken) = [s.now] ∧ t.reg (CLE_S_SAMPLE (hIndex e.handle.toNat)) = 0#32 ∧ t.get (CLE_S_XSTAT.DIR (hIndex e.handle.toNat)) = 0 ∧
    s.only [.rings, .cle] [wordAt (CLE_S_SAMPLE (hIndex e.handle.toNat)), CLE_S_XSTAT.DIR (hIndex e.handle.toNat), CLE_STATUS.SLOTS, CLE_STATUS.RUNNING] t) ∧
  (∀ (ring : Fin 2) (e : Entry) (s : State), s.ready 0x05 ring.val 0 e → s.checkHandle 1 s.slotLive e.handle.toNat = none → (s.slot (hIndex e.handle.toNat)).cmds = [] →
    (s.cmdOf 0x05 ring.val e).arg 16 1 ≤ 1 → s.slotRuns (hIndex e.handle.toNat) = true →
    ∃ t, exec (.slotStop ring e) s = .next t ∧ s.started 0x05 ring.val 4 e t ∧ t.get (CLE_S_STAT.STATE (hIndex e.handle.toNat)) = 3 ∧
    (t.slot (hIndex e.handle.toNat)).cmds.map (·.a) = [(s.cmdOf 0x05 ring.val e).arg 16 1] ∧
    s.only [.rings, .cle] [CLE_S_STAT.STATE (hIndex e.handle.toNat), CLE_STATUS.SLOTS, CLE_STATUS.RUNNING] t) ∧
  (∀ (ring : Fin 2) (e : Entry) (s : State), s.ready 0x05 ring.val 0 e → s.checkHandle 1 s.slotLive e.handle.toNat = none → (s.slot (hIndex e.handle.toNat)).cmds = [] →
    (s.cmdOf 0x05 ring.val e).arg 16 1 ≤ 1 → s.slotRuns (hIndex e.handle.toNat) = false →
    ∃ t, exec (.slotStop ring e) s = .next t ∧ s.completed 0x05 ring.val e 0x00 e.handle.toNat t ∧ s.dramKept (s.complAddr 0x05 ring.val) 16 t ∧
    s.only [.dram, .rings, .cle, .rcd, .cyc] (complFlds 0x05 ring.val ++ [CLE_STATUS.SLOTS, CLE_STATUS.RUNNING]) t) ∧
  (∀ (ring : Fin 2) (e : Entry) (s : State), s.ready 0x05 ring.val 0 e → s.checkHandle 1 s.slotLive e.handle.toNat = none → (s.slot (hIndex e.handle.toNat)).cmds = [] →
    s.slotRuns (hIndex e.handle.toNat) = false → s.cle.slots = [(hIndex e.handle.toNat, s.slot (hIndex e.handle.toNat))] →
    ∃ t, exec (.slotDestroy ring e) s = .next t ∧ t.cle = { s.cle with slots := [] } ∧ t.get CLE_STATUS.SLOTS = 0 ∧
    s.completed 0x05 ring.val e 0x00 e.handle.toNat t ∧ s.dramKept (s.complAddr 0x05 ring.val) 16 t ∧
    (∀ a, CLE_S_STAT (hIndex e.handle.toNat) ≤ a → a < CLE_S_STAT (hIndex e.handle.toNat) + 0x1000 → t.reg a = resetOf a) ∧
    s.onlyBut [.latch, .dram, .rings, .cle, .rcd, .cyc] (complFlds 0x05 ring.val ++ [CLE_STATUS.SLOTS, CLE_STATUS.RUNNING]) (CLE_S_STAT (hIndex e.handle.toNat)) 0x1000 t) ∧
  (∀ (core : Fin 8) (slot : Fin 96) (word : Fin 1024) (value : Word) (s : State), s.closed (CLE_S_STAT slot.val + 4 * word.val) = false → s.slotLive slot.val = true → isCoef (4 * word.val) = true → coefIgnored (4 * word.val) value.toNat = false →
    4 * word.val ≠ 0x0A0 → s.slotRuns slot.val = true → s.getB (CLE_S_CTRL.HOLD slot.val) = false → s.reg SYS_DET_STATUS = 0#32 → ∃ t, exec (.coefLive core slot word value) s = .next t ∧
    t.reg (CLE_S_STAT slot.val + 4 * word.val) = value ∧ t.getB (CLE_S_XSTAT.WPEND slot.val) = true ∧
    t.reg (CLE_S_WSEQ slot.val) = s.reg (CLE_S_SAMPLE slot.val) + (if (s.slot slot.val).phase = 2 then 2#32 else 1#32) ∧
    t.get CLE_VIOL_CNT.COEF = min 65535 (s.get CLE_VIOL_CNT.COEF + 1) ∧ t.getB SYS_DET_STATUS.CLE_COEF = true ∧ t.get64 SYS_DET_FIRST_LO SYS_DET_FIRST_HI = s.now ∧
    s.raised 4 t ∧ s.raised 36 t ∧
    s.only [.access, .rcd, .cyc] ([wordAt (CLE_S_STAT slot.val + 4 * word.val), CLE_S_XSTAT.WPEND slot.val, wordAt (CLE_S_WSEQ slot.val), CLE_VIOL_CNT.COEF, SYS_DET_STATUS.CLE_COEF,
      wordAt SYS_DET_FIRST_LO, wordAt SYS_DET_FIRST_HI] ++ raiseFlds 4 ++ raiseFlds 36) t) ∧
  (∀ (core : Fin 8) (slot : Fin 96) (word : Fin 1024) (value : Word) (s : State), s.closed (CLE_S_STAT slot.val + 4 * word.val) = false → s.slotLive slot.val = true → isCoef (4 * word.val) = true → coefIgnored (4 * word.val) value.toNat = false →
    4 * word.val ≠ 0x0A0 → s.slotRuns slot.val = false → ∃ t, exec (.coefLive core slot word value) s = .next t ∧
    t.reg (CLE_S_STAT slot.val + 4 * word.val) = value ∧ t.getB (CLE_S_XSTAT.WPEND slot.val) = true ∧ t.reg (CLE_S_WSEQ slot.val) = 1#32 ∧
    s.only [.access] [wordAt (CLE_S_STAT slot.val + 4 * word.val), CLE_S_XSTAT.WPEND slot.val, wordAt (CLE_S_WSEQ slot.val)] t) ∧
  (∀ (core : Fin 8) (slot : Fin 96) (meas : Bool) (value : Word) (s : State), s.closed (if meas then CLE_S_MS_HOST slot.val else CLE_S_SP_HOST slot.val) = false → s.slotLive slot.val = true → F.finite value.toNat = true →
    ∃ t, exec (.cleHostSourceWrite core slot meas value) s = .next t ∧ t.reg (if meas then CLE_S_MS_HOST slot.val else CLE_S_SP_HOST slot.val) = value ∧
    t.cle = { s.cle with slots := tput s.cle.slots slot.val (if meas then { s.slot slot.val with msWritten := true } else { s.slot slot.val with spWritten := true }) } ∧
    s.only [.access, .cle] [wordAt (if meas then CLE_S_MS_HOST slot.val else CLE_S_SP_HOST slot.val)] t) ∧
  (∀ (core : Fin 8) (slot : Fin 96) (meas : Bool) (value : Word) (s : State), s.closed (if meas then CLE_S_MS_HOST slot.val else CLE_S_SP_HOST slot.val) = false → s.slotLive slot.val = true → F.finite value.toNat = false →
    ∃ t, exec (.cleHostSourceWrite core slot meas value) s = .next t ∧ s.only [.access] [] t) ∧
  (∀ s : State, s.getB CLE_CTRL.ENABLE = true → ∃ t, exec .cleDisable s = .next t ∧ t.getB CLE_CTRL.ENABLE = false ∧ t.cle = { s.cle with slots := [], lastFrame := none } ∧
    t.getB CLE_STATUS.GRID = false ∧ t.get CLE_STATUS.SLOTS = 0 ∧ t.get CLE_STATUS.RUNNING = 0 ∧
    s.within [.latch, .dram, .rings, .cle, .vdr, .rcd, .cyc] (some [0xC1, 0xC4, 0xC5]) t)

/-- At the first strobe command of a frame the one slot there is, running and with no evaluation or phase point outstanding, takes what its sources show
by R174 and R178 and enters the frame; a late source leaves the value it had, counts, sets LATE, raises 34 and is a violation. The read cycle, when it
is due, puts the law's r, y, I, D and output in the slot and its registers, counts replaced results and raises 35; with HOLD the output is the one
before; with a non-finite coefficient r, y, I, D, the output and the count are free values, the output held to the rate and its limits (log entries 1
and 118). At the phase point, when it is due, SAMPLE goes up by one, OUT takes u and OUT_LTC the stamp of R186; a VDR destination gets the value, one
whose region is not loaded loses it and sets DLOST with source 37; SLOT_START completes with the first. What no clause names is as before. -/
def Obligations.StrobesCaptureEvaluationsComputeAndPhasePointsApply : Prop :=
  (∀ (x mt mr pt pr m p : Nat) (s : State), x < 96 → s.getB CLE_STATUS.GRID = true → s.gridLtc ≤ s.now → s.cle.lastFrame.all (fun k => decide (k < s.frameNow)) = true → s.slotList = [x] →
    s.strobes x s.frameNow = true → (s.slot x).cmds = [] → (s.slot x).phase = 0 → s.slotRuns x = true →
    capture (s.srcView (s.get (CLE_S_ROUTE.MS_KIND x)) (s.get (CLE_S_ROUTE.MS_INDEX x)) (s.gridLtc + 5000 * s.frameNow) (s.slot x).msLost (s.slot x).msWritten false true x)
      (s.get (CLE_S_ROUTE.MS_KIND x)) (s.slot x).ms (s.slot x).msTok (s.slot x).msRun (s.get (CLE_S_AGE.MS_AGE x)) false = (m, mt, mr, false) →
    capture (s.srcView (s.get (CLE_S_ROUTE.SP_KIND x)) (s.get (CLE_S_ROUTE.SP_INDEX x)) (s.gridLtc + 5000 * s.frameNow) (s.slot x).spLost (s.slot x).spWritten false false x)
      (s.get (CLE_S_ROUTE.SP_KIND x)) (s.slot x).sp (s.slot x).spTok (s.slot x).spRun (s.get (CLE_S_AGE.SP_AGE x)) false = (p, pt, pr, false) →
    s.get (CLE_S_ROUTE.MS_KIND x) ≠ 6 → s.get (CLE_S_ROUTE.SP_KIND x) ≠ 6 → ∃ t, exec .cleStrobe s = .next t ∧ t.cle.lastFrame = some s.frameNow ∧
    t.slot x = { s.slot x with ms := m, msTok := mt, msRun := mr, msWritten := false, sp := p, spTok := pt, spRun := pr, spWritten := false, phase := 1, frame := s.frameNow } ∧
    t.get CLE_STATUS.RUNNING = 1 ∧ s.only [.cle] [CLE_STATUS.SLOTS, CLE_STATUS.RUNNING] t) ∧
  (∀ (x : Nat) (s : State), x < 96 → s.getB CLE_STATUS.GRID = true → s.gridLtc ≤ s.now → s.cle.lastFrame.all (fun k => decide (k < s.frameNow)) = true → s.slotList = [x] →
    s.strobes x s.frameNow = true → (s.slot x).cmds = [] → (s.slot x).phase = 0 → s.slotRuns x = true → s.get (CLE_S_ROUTE.MS_KIND x) = 4 → (s.slot x).msLost = true → s.get (CLE_S_ROUTE.SP_KIND x) = 0 →
    s.getB (CLE_S_STAT.LATE x) = false → s.reg SYS_DET_STATUS = 0#32 → ∃ t, exec .cleStrobe s = .next t ∧ (t.slot x).ms = (s.slot x).ms ∧ (t.slot x).sp = F.zero ∧ (t.slot x).phase = 1 ∧
    t.getB (CLE_S_STAT.LATE x) = true ∧ t.get (CLE_S_CNT.LATE x) = min 65535 (s.get (CLE_S_CNT.LATE x) + 1) ∧ t.get CLE_VIOL_CNT.LATE = min 65535 (s.get CLE_VIOL_CNT.LATE + 1) ∧
    t.getB SYS_DET_STATUS.CLE_LATE = true ∧ s.raised 34 t ∧ s.raised 4 t ∧
    s.only [.cle, .rcd, .cyc] ([CLE_STATUS.SLOTS, CLE_STATUS.RUNNING, CLE_S_STAT.LATE x, CLE_S_CNT.LATE x, CLE_VIOL_CNT.LATE, SYS_DET_STATUS.CLE_LATE, wordAt SYS_DET_FIRST_LO, wordAt SYS_DET_FIRST_HI]
      ++ raiseFlds 34 ++ raiseFlds 4) t) ∧
  (∀ (slot : Fin 96) (s : State), s.evalDue slot.val = true → s.cleUndefined slot.val = false →
    (s.evaluated slot.val).fric.isNone = true → (s.evaluated slot.val).cog.isNone = true → (s.evaluated slot.val).num = 0 →
    ∃ t, exec (.cleEvaluate slot) s = .next t ∧ t.slot slot.val = (s.evaluated slot.val).slot ∧ (∀ k, k ≠ slot.val → tget t.cle.slots k = tget s.cle.slots k) ∧ (t.slot slot.val).phase = 2 ∧
    (s.getB (CLE_S_CTRL.HOLD slot.val) = true → (t.slot slot.val).u = (s.slot slot.val).uPrev) ∧
    t.reg (CLE_S_REF slot.val) = BitVec.ofNat 32 (s.evaluated slot.val).r ∧ t.reg (CLE_S_MEAS slot.val) = BitVec.ofNat 32 (s.evaluated slot.val).y ∧ t.reg (CLE_S_INTEG slot.val) = BitVec.ofNat 32 (s.evaluated slot.val).slot.i ∧
    t.reg (CLE_S_DERIV slot.val) = BitVec.ofNat 32 (s.evaluated slot.val).slot.d ∧ t.getB (CLE_S_XSTAT.WPEND slot.val) = false ∧ t.get (CLE_S_XSTAT.DIR slot.val) = (s.evaluated slot.val).dir % 4 ∧
    s.only [.cle] [wordAt (CLE_S_REF slot.val), wordAt (CLE_S_MEAS slot.val), wordAt (CLE_S_INTEG slot.val), wordAt (CLE_S_DERIV slot.val), CLE_S_XSTAT.WPEND slot.val, CLE_S_XSTAT.DIR slot.val] t) ∧
  (∀ (slot : Fin 96) (s : State), s.evalDue slot.val = true → s.cleUndefined slot.val = false →
    (s.evaluated slot.val).num ≠ 0 →
    ∃ t, exec (.cleEvaluate slot) s = .next t ∧ t.get (CLE_S_CNT.NUM slot.val) = min 65535 (s.get (CLE_S_CNT.NUM slot.val) + (s.evaluated slot.val).num) ∧
    t.get CLE_NUM_CNT.NUM = min 65535 (s.get CLE_NUM_CNT.NUM + (s.evaluated slot.val).num) ∧ s.raised 35 t ∧
    t.cle = { s.cle with slots := tput s.cle.slots slot.val (s.evaluated slot.val).slot } ∧ t.reg (CLE_S_REF slot.val) = BitVec.ofNat 32 (s.evaluated slot.val).r ∧
    t.reg (CLE_S_MEAS slot.val) = BitVec.ofNat 32 (s.evaluated slot.val).y ∧ t.reg (CLE_S_INTEG slot.val) = BitVec.ofNat 32 (s.evaluated slot.val).slot.i ∧
    t.reg (CLE_S_DERIV slot.val) = BitVec.ofNat 32 (s.evaluated slot.val).slot.d ∧
    s.only [.cle, .rcd, .cyc] ([wordAt (CLE_S_REF slot.val), wordAt (CLE_S_MEAS slot.val), wordAt (CLE_S_INTEG slot.val), wordAt (CLE_S_DERIV slot.val), CLE_S_XSTAT.WPEND slot.val, CLE_S_XSTAT.DIR slot.val,
      CLE_S_XSTAT.FRIC_I0 slot.val, CLE_S_XSTAT.FRIC_CLAMP slot.val, CLE_S_XSTAT.COG_I0 slot.val, CLE_S_XSTAT.COG_CLAMP slot.val, CLE_S_XSTAT.IDX_NF slot.val, CLE_S_CNT.NUM slot.val, CLE_NUM_CNT.NUM]
      ++ raiseFlds 35 ++ raiseFlds 40 ++ raiseFlds 41) t) ∧
  (∀ (slot : Fin 96) (s : State), s.evalDue slot.val = true → s.cleUndefined slot.val = true → ∃ t, exec (.cleEvaluate slot) s = .next t ∧ t.free = s.free + 6 ∧
    (t.slot slot.val).phase = 2 ∧ (t.slot slot.val).u = (t.slot slot.val).uPrev ∧
    (t.slot slot.val).u = F.clamp (rateLimit (s.slotReg slot.val) (s.slot slot.val).uPrev (finiteOf (Config.freeValue s.free % 2 ^ 32))) (s.slotReg slot.val 0x08C) (s.slotReg slot.val 0x090) ∧
    (∀ k, k ≠ slot.val → tget t.cle.slots k = tget s.cle.slots k) ∧
    s.only [.cle, .free, .rcd, .cyc] ([wordAt (CLE_S_REF slot.val), wordAt (CLE_S_MEAS slot.val), wordAt (CLE_S_INTEG slot.val), wordAt (CLE_S_DERIV slot.val), CLE_S_XSTAT.WPEND slot.val, CLE_S_XSTAT.DIR slot.val,
      CLE_S_XSTAT.FRIC_I0 slot.val, CLE_S_XSTAT.FRIC_CLAMP slot.val, CLE_S_XSTAT.COG_I0 slot.val, CLE_S_XSTAT.COG_CLAMP slot.val, CLE_S_XSTAT.IDX_NF slot.val, CLE_S_CNT.NUM slot.val, CLE_NUM_CNT.NUM]
      ++ raiseFlds 35 ++ raiseFlds 40 ++ raiseFlds 41) t) ∧
  (∀ (slot : Fin 96) (s : State), s.phaseDue slot.val = true → (s.slot slot.val).cmds = [] → s.get (CLE_S_ROUTE.DEST_KIND slot.val) = 0 →
    ((s.slot slot.val).clamped = false ∨ (s.slot slot.val).satIrq = false) → (s.slot slot.val).heldOne = false →
    ∃ t, exec (.clePhasePoint slot) s = .next t ∧ t.reg (CLE_S_SAMPLE slot.val) = s.reg (CLE_S_SAMPLE slot.val) + 1#32 ∧ t.reg (CLE_S_OUT slot.val) = BitVec.ofNat 32 (s.slot slot.val).u ∧
    t.get64 (CLE_S_OUT_LTC_LO slot.val) (CLE_S_OUT_LTC_HI slot.val) = (s.gridLtc + 5000 * (s.slot slot.val).frame + s.get (CLE_S_TIMING.PHASE_CYC slot.val) * 25 / 12) % 2 ^ 64 ∧
    (t.slot slot.val).phase = 0 ∧ (t.slot slot.val).applied = (s.slot slot.val).applied + 1 ∧
    s.only [.cle] [wordAt (CLE_S_SAMPLE slot.val), wordAt (CLE_S_OUT slot.val), wordAt (CLE_S_OUT_LTC_LO slot.val), wordAt (CLE_S_OUT_LTC_HI slot.val)] t) ∧
  (∀ (slot : Fin 96) (k : Fin 64) (s : State), s.phaseDue slot.val = true → (s.slot slot.val).cmds = [] → (s.slot slot.val).heldOne = false →
    ((s.slot slot.val).clamped = false ∨ (s.slot slot.val).satIrq = false) → s.get (CLE_S_ROUTE.DEST_KIND slot.val) = 1 → s.get (CLE_S_ROUTE.DEST_INDEX slot.val) = k.val → s.busy 2 = false → s.loaded 2 = true →
    s.getB (VDR_OUT_CFG.SRC k.val) = true → s.get (VDR_OUT_CFG.MODE k.val) = 1 → ∃ t, exec (.clePhasePoint slot) s = .next t ∧
    tget t.vdr.outs k.val = some { tgetD s.vdr.outs k.val {} with cleQ := (tgetD s.vdr.outs k.val {}).cleQ ++
      [(s.gridLtc + 5000 * (s.slot slot.val).frame + s.get (CLE_S_TIMING.PHASE_CYC slot.val) * 25 / 12, (s.slot slot.val).u)] } ∧
    s.only [.cle, .vdr] [wordAt (CLE_S_SAMPLE slot.val), wordAt (CLE_S_OUT slot.val), wordAt (CLE_S_OUT_LTC_LO slot.val), wordAt (CLE_S_OUT_LTC_HI slot.val)] t) ∧
  (∀ (slot : Fin 96) (c : SlotCmd) (x : Taken) (s : State), s.phaseDue slot.val = true → (s.slot slot.val).cmds = [c] → c.op = 3 → (s.slot slot.val).begun = true → c.ring < 2 →
    (s.ring 0x05 c.ring).taken = [x] → x.id = c.id → (s.slot slot.val).heldOne = false → ((s.slot slot.val).clamped = false ∨ (s.slot slot.val).satIrq = false) →
    (s.get (CLE_S_ROUTE.DEST_KIND slot.val) = 1 ∨ s.get (CLE_S_ROUTE.DEST_KIND slot.val) = 2) → s.loaded 2 = false → s.getB (CLE_S_STAT.DLOST slot.val) = false →
    ∃ t, exec (.clePhasePoint slot) s = .next t ∧ (t.slot slot.val).cmds = [] ∧ t.getB (CLE_S_STAT.DLOST slot.val) = true ∧ s.raised 37 t ∧ s.ended 0x05 c.ring x 0x00 x.handle t ∧
    s.dramKept (s.complAddr 0x05 c.ring) 16 t ∧ t.reg (CLE_S_SAMPLE slot.val) = s.reg (CLE_S_SAMPLE slot.val) + 1#32 ∧
    s.only [.cle, .dram, .rings, .rcd, .cyc] ([wordAt (CLE_S_SAMPLE slot.val), wordAt (CLE_S_OUT slot.val), wordAt (CLE_S_OUT_LTC_LO slot.val), wordAt (CLE_S_OUT_LTC_HI slot.val), CLE_S_STAT.DLOST slot.val,
      CLE_STATUS.SLOTS, CLE_STATUS.RUNNING] ++ complFlds 0x05 c.ring ++ raiseFlds 37) t)

/-- The tick of a VDR whose outputs and banks are all off, its start queue empty and no RMS window due, shows each output's sample and SEQ plus 1, VBST
and BST_RDY (66 on a change), counts the tick in the window and does nothing else; a CURRENT output's call follows its window. A fast release that is
due, alone in its tick, is part of that tick: low side open, FAST_REL and 71. 9.0 A on an active output sets SHORT within 5 us of closing, else OC,
opens it and ends its stroke with FAULT; STB and OPEN set their flags. A 1 s window that has ended judges OVL, BANK_OVL and MOD_OVL, publishes IRMS
and opens the next. 25 A opens a closed high side, sets BANK_SC, and ends a running stroke of the bank (its low side opening is log entry 120's
choice). Host writes clear flags and set VDR_OUT_CFG, or only advance WIGN where R226 ignores them. The converter starts, stops and trips. Disabling
VDR stops strokes, empties the queue and puts every active output in end decay. The supply's return ends the recovery after 10 ms; the discharge
changes over. Each clause names what may differ: fields, or, for a row that is or ends a tick's work, VDR's state and the windows of EVT and VDR; all
else is as before. -/
def Obligations.OutputsBanksAndBoostConverterFollowChapter10 : Prop :=
  (∀ (samples : List (Fin 64 × BitVec 12)) (vbst : BitVec 16) (s : State), s.loaded 2 = true → s.vdr.lastTick < s.tickNow → s.tickNow ≤ s.vdr.winAt + 1000000000 →
    s.vdr.stop = none → (∀ b ∈ List.range 16, (s.bank b).pwmOff = none) → s.vdr.outs = [] → s.stk.reqs = [] → (∀ k ∈ List.range 64, s.ctxState k = 0) →
    (∀ k ∈ List.range 64, s.get (VDR_OUT_CFG.MODE k) = 0) → (∀ b ∈ List.range 16, s.get (VDR_BANK_STAT.HS b) = 0) → ∃ t, exec (.vdrTick samples vbst) s = .next t ∧ t.vdr.lastTick = s.tickNow ∧
    (∀ k, k < 64 → t.get (VDR_OUT_SENSE.CODE k) = codeOf samples k ∧ t.get (VDR_OUT_SENSE.SEQ k) = (s.get (VDR_OUT_SENSE.SEQ k) + 1) % 256 ∧ (t.vlo k).samples = [(s.tickNow, codeOf samples k)] ∧
      (t.vlo k).active = false) ∧
    t.vdr.winN = s.vdr.winN + 1 ∧ t.get VDR_BST_STAT.VBST = vbst.toNat ∧
    t.getB VDR_STATUS.BST_RDY = (decide (19 * (s.get VDR_BST_CFG.TARGET * 10) ≤ 20 * vbst.toNat) && decide (20 * vbst.toNat ≤ 21 * (s.get VDR_BST_CFG.TARGET * 10))) ∧
    (t.getB VDR_STATUS.BST_RDY ≠ s.getB VDR_STATUS.BST_RDY → s.raised 66 t) ∧
    s.only [.vdr, .rcd, .cyc] ((List.range 64).flatMap (fun k => [VDR_OUT_SENSE.CODE k, VDR_OUT_SENSE.SEQ k]) ++ [VDR_BST_STAT.VBST, VDR_STATUS.BST_RDY] ++ raiseFlds 66) t) ∧
  (∀ (k t : Nat) (s : State), k < 64 → s.get (VDR_OUT_CFG.MODE k) = 1 → (s.vlo k).active = true → (s.vlo k).run = 1 → (s.vlo k).decay = none → (s.vlo k).cleQ = [] → F.isZero (s.tgtInUse k) = false →
    s.get (VDR_OUT_CFG.SUP k) = 0 → s.get (VDR_BANK_STAT.HS (k / 4)) = 0 → ((s.regulate t k).vlo k).call = s.windowCall k t (s.vlo k).call ∧ ((s.regulate t k).vlo k).want = 1) ∧
  (∀ (k : Fin 64) (samples : List (Fin 64 × BitVec 12)) (vbst : BitVec 16) (s : State), s.vdr.lastTick < s.tickNow → s.tickNow ≤ s.vdr.winAt + 1000000000 → s.fastDue k.val s.tickNow = true →
    s.vdr.stop = none → (∀ c, (s.sampleAll s.tickNow samples).sampleAt k.val (s.tickNow - 1000) = some c → Frac.lt (codeFrac c) (maFrac (s.get (VDR_OUT_CFG.REL_MA k.val))) = false) →
    (∀ j ∈ List.range 64, j ≠ k.val → s.fastDue j s.tickNow = false) → s.getB ⟨VDR_OUT_FLT k.val, 8, 1⟩ = false → ∃ t, exec (.fastRel ⟨k, samples, vbst⟩) s = .next t ∧ t.vdr.lastTick = s.tickNow ∧
    (t.vlo k.val).active = false ∧ (t.vlo k.val).fast = some s.tickNow ∧ (t.vlo k.val).decay = (s.vlo k.val).decay ∧ t.getB ⟨VDR_OUT_FLT k.val, 8, 1⟩ = true ∧
    t.getB (VDR_OUT_SENSE.ACTIVE k.val) = false ∧ s.raised 71 t ∧ s.within [.free, .cyc, .vdr, .stk, .rcd] (some [0xC1, 0xC6]) t) ∧
  (∀ (k : Fin 64) (s : State), (s.vlo k.val).active = true → (s.vlo k.val).shed = false → s.ctxState k.val = 0 → ∃ t, exec (.outputOvercurrent k) s = .next t ∧
    t.getB ⟨VDR_OUT_FLT k.val, if s.now ≤ max (s.vlo k.val).closedAt (s.bank (k.val / 4)).closedAt + 5000 then 1 else 0, 1⟩ = true ∧ t.outStopped k.val = true ∧
    t.vlo k.val = { s.vlo k.val with active := false, call := false, decay := none, fast := none, shed := false } ∧ (s.get (VDR_OUT_FLT.FLT k.val) = 0 → s.raised 64 t) ∧
    s.only [.vdr, .rcd, .cyc] (senseFlds k.val ++ [VDR_BANK_STAT.HS (k.val / 4), ⟨VDR_OUT_FLT k.val, if s.now ≤ max (s.vlo k.val).closedAt (s.bank (k.val / 4)).closedAt + 5000 then 1 else 0, 1⟩] ++ raiseFlds 64) t) ∧
  (∀ (k : Fin 64) (s : State), (s.vlo k.val).active = true → (s.vlo k.val).shed = false → s.ctxState k.val = 1 → ∃ t, exec (.outputOvercurrent k) s = .next t ∧ t.outStopped k.val = true ∧
    t.vlo k.val = { s.vlo k.val with active := false, call := false, decay := none, fast := none, shed := false } ∧ t.ctxState k.val = 0 ∧ t.get (VDR_CTX_STAT.CAUSE k.val) = causeFAULT ∧
    (t.ctx k.val).wait = .none ∧ s.raised 77 t ∧ s.within [.cyc, .vdr, .stk, .rcd] (some [0xC1, 0xC6]) t) ∧
  (∀ (k : Fin 64) (s : State), s.vdrTicks = true → (s.vlo k.val).active = false → (s.vlo k.val).decay = none → s.hsNow (k.val / 4) = 0 → ∃ t, exec (.outputStb k) s = .next t ∧
    t.getB ⟨VDR_OUT_FLT k.val, 2, 1⟩ = true ∧ t.outStopped k.val = true ∧ (s.getB ⟨VDR_OUT_FLT k.val, 2, 1⟩ = false → s.raised 64 t) ∧
    s.only [.vdr, .rcd, .cyc] (senseFlds k.val ++ [⟨VDR_OUT_FLT k.val, 2, 1⟩] ++ raiseFlds 64) t) ∧
  (∀ (k : Fin 64) (s : State), (s.vlo k.val).active = true → (s.vlo k.val).seen = false → 480000 ≤ (s.vlo k.val).closedCyc → ∃ t, exec (.outputOpen k) s = .next t ∧
    t.getB ⟨VDR_OUT_FLT k.val, 3, 1⟩ = true ∧ (t.vlo k.val).active = true ∧ (t.vlo k.val).closedCyc = 0 ∧ (s.getB ⟨VDR_OUT_FLT k.val, 3, 1⟩ = false → s.raised 64 t) ∧
    s.only [.vdr, .rcd, .cyc] ([⟨VDR_OUT_FLT k.val, 3, 1⟩] ++ raiseFlds 64) t) ∧
  (∀ s : State, s.vdr.winN ≠ 0 → s.vdr.winAt + 1000000000 ≤ s.vdr.lastTick → ∃ t, exec .rmsWindowEnd s = .next t ∧ t.get VDR_MOD_STAT.IRMS = min 65535 (isqrt (s.vdr.modSq / s.vdr.winN / 16)) ∧ t.vdr.winN = 0 ∧ t.vdr.modSq = 0 ∧
    t.vdr.winAt = s.vdr.lastTick / 1000000000 * 1000000000 ∧
    (576000000 * s.vdr.winN < s.vdr.modSq → t.getB VDR_STATUS.MOD_OVL = true) ∧
    (∀ k, k < 64 → 2560000 * s.vdr.winN < (s.vlo k).sq → t.getB ⟨VDR_OUT_FLT k, 4, 1⟩ = true) ∧
    (∀ b, b < 16 → 16000000 * s.vdr.winN < (s.bank b).sq → t.getB (VDR_BANK_STAT.BANK_OVL b) = true ∧ t.get (VDR_BANK_STAT.HS b) = 0) ∧
    s.within [.cyc, .vdr, .stk, .rcd] (some [0xC1, 0xC6]) t) ∧
  (∀ (b : Fin 16) (s : State), s.hsNow b.val ≠ 0 → (∀ k ∈ bankOuts b.val, s.ctxState k ≠ 1 ∧ s.ctxState k ≠ 2) → ∃ t, exec (.bankOvercurrent b) s = .next t ∧ t.get (VDR_BANK_STAT.HS b.val) = 0 ∧
    t.getB (VDR_BANK_STAT.BANK_SC b.val) = true ∧ t.vdr = { s.vdr with banks := tput s.vdr.banks b.val { s.bank b.val with changed := some s.now, pwmOff := none } } ∧
    (s.getB (VDR_BANK_STAT.BANK_SC b.val) = false → s.raised 65 t) ∧
    s.only [.vdr, .rcd, .cyc] ([VDR_BANK_STAT.HS b.val, VDR_BANK_STAT.BANK_SC b.val] ++ raiseFlds 65) t) ∧
  (∀ (b : Fin 16) (k : Nat) (s : State), s.hsNow b.val ≠ 0 → k ∈ bankOuts b.val → s.ctxState k = 1 → ∃ t, exec (.bankOvercurrent b) s = .next t ∧ t.get (VDR_BANK_STAT.HS b.val) = 0 ∧
    t.getB (VDR_BANK_STAT.BANK_SC b.val) = true ∧ t.ctxState k = 0 ∧ t.get (VDR_CTX_STAT.CAUSE k) = causeFAULT ∧ (t.vlo k).active = false ∧ s.raised 77 t ∧
    s.within [.cyc, .vdr, .stk, .rcd] (some [0xC1, 0xC6]) t) ∧
  (∀ (core : Fin 8) (reg : Fin 80) (value : Word) (s : State), s.closed (VDR_OUT_FLT reg.val) = false → reg.val < 64 → ∃ t, exec (.vdrFaultClear core reg value) s = .next t ∧
    t.get (VDR_OUT_FLT.FLT reg.val) = s.get (VDR_OUT_FLT.FLT reg.val) &&& (1023 - value.toNat % 1024) ∧ s.only [.access] [VDR_OUT_FLT.FLT reg.val] t) ∧
  (∀ (core : Fin 8) (reg : Fin 80) (value : Word) (s : State), s.closed (VDR_BANK_STAT (reg.val - 64)) = false → 64 ≤ reg.val → ∃ t, exec (.vdrFaultClear core reg value) s = .next t ∧
    t.getB (VDR_BANK_STAT.BANK_SC (reg.val - 64)) = (s.getB (VDR_BANK_STAT.BANK_SC (reg.val - 64)) && !bitAt value.toNat 29) ∧
    t.getB (VDR_BANK_STAT.BANK_OVL (reg.val - 64)) = (s.getB (VDR_BANK_STAT.BANK_OVL (reg.val - 64)) && !bitAt value.toNat 28) ∧
    s.only [.access] [VDR_BANK_STAT.BANK_SC (reg.val - 64), VDR_BANK_STAT.BANK_OVL (reg.val - 64)] t) ∧
  (∀ (core : Fin 8) (k : Fin 64) (value : Word) (s : State), s.closed (VDR_OUT_CFG k.val) = false → s.enabled 0x06 = false → bitsOf value.toNat 22 10 ≠ 0 → bitsOf value.toNat 22 10 ≤ 1000 → bitsOf value.toNat 0 3 ≤ 3 →
    ∃ t, exec (.vdrOutCfgWrite core k value) s = .next t ∧ t.get (VDR_OUT_CFG.REL_MA k.val) = bitsOf value.toNat 22 10 ∧ t.get (VDR_OUT_CFG.SUP k.val) = bitsOf value.toNat 16 1 ∧
    t.get (VDR_OUT_CFG.SRC k.val) = bitsOf value.toNat 8 1 ∧ t.get (VDR_OUT_CFG.MODE k.val) = bitsOf value.toNat 0 3 ∧
    s.only [.access] [VDR_OUT_CFG.REL_MA k.val, VDR_OUT_CFG.SUP k.val, VDR_OUT_CFG.SRC k.val, VDR_OUT_CFG.MODE k.val] t) ∧
  (∀ (core : Fin 8) (k : Fin 64) (value : Word) (s : State), s.closed (VDR_OUT_CFG k.val) = false → s.enabled 0x06 = true → s.ctxRuns k.val = true → bitsOf value.toNat 0 3 ≤ 3 → bitsOf value.toNat 0 3 ≠ s.get (VDR_OUT_CFG.MODE k.val) →
    ∃ t, exec (.vdrOutCfgWrite core k value) s = .next t ∧ t.get VDR_STATUS.WIGN = min 65535 (s.get VDR_STATUS.WIGN + 1) ∧ s.only [.access] [VDR_STATUS.WIGN] t) ∧
  (∀ (vbst : BitVec 16) (s : State), s.loaded 2 = true → s.getB VDR_BST_CFG.EN = true → s.enabled 0x06 = true → s.getB SYS_SUPPLY.VLV_OK = true → s.sys.entry.isNone = true → s.getB VDR_STATUS.BST_OVP = false →
    s.getB VDR_STATUS.BST_ON = false → vbst.toNat * 10 < s.get VDR_BST_CFG.TARGET * 99 → ∃ t, exec (.boostChargeStart vbst) s = .next t ∧ t.getB VDR_STATUS.BST_ON = true ∧
    t.vdr = { s.vdr with discharge := .none } ∧ s.only [.vdr] [VDR_STATUS.BST_ON] t) ∧
  (∀ (vbst : BitVec 16) (s : State), s.getB VDR_STATUS.BST_ON = true → s.get VDR_BST_CFG.TARGET * 10 ≤ vbst.toNat → ∃ t, exec (.boostChargeStop vbst) s = .next t ∧ t.getB VDR_STATUS.BST_ON = false ∧
    s.only [] [VDR_STATUS.BST_ON] t) ∧
  (∀ (vbst : BitVec 16) (s : State), s.loaded 2 = true → (s.get VDR_BST_CFG.TARGET * 11 < vbst.toNat ∨ 6800 < vbst.toNat) → s.getB VDR_STATUS.BST_OVP = false → ∃ t, exec (.bstOvp vbst) s = .next t ∧
    t.getB VDR_STATUS.BST_ON = false ∧ t.getB VDR_STATUS.BST_OVP = true ∧ s.raised 67 t ∧ s.only [.rcd, .cyc] ([VDR_STATUS.BST_ON, VDR_STATUS.BST_OVP] ++ raiseFlds 67) t) ∧
  (∀ s : State, s.getB VDR_CTRL.ENABLE = true → ∃ t, exec .vdrDisable s = .next t ∧ t.getB VDR_CTRL.ENABLE = false ∧ t.getB VDR_STATUS.BST_ON = false ∧ t.stk.reqs = [] ∧
    t.get VDR_STK_STATUS.QUEUED = 0 ∧ t.get VDR_STK_STATUS.DEFERRED = 0 ∧
    (∀ k, k < 64 → s.ctxRuns k = true → t.ctxRuns k = false ∧ t.get (VDR_CTX_STAT.CAUSE k) = causeSTOPPED) ∧
    (∀ k, k < 64 → (s.vlo k).active = true → (t.vlo k).active = true ∧ (t.vlo k).call = false ∨ (s.vlo k).decay.isSome) ∧ (∀ k, k < 64 → (s.vlo k).active = true → (t.vlo k).decay.isSome) ∧
    s.within [.cyc, .vdr, .stk, .rcd] (some [0xC1, 0xC6]) t) ∧
  (∀ (t0 : Nat) (s : State), s.vdr.recovery = some t0 → s.getB SYS_SUPPLY.VLV_OK = true → 10000000 ≤ s.since t0 → ∃ t, exec .vlvSupplyRecover s = .next t ∧ t.vdr = { s.vdr with recovery := none } ∧ t.vlvReady = true ∧ s.only [.vdr] [] t) ∧
  (∀ s : State, s.vdr.discharge = .constant → ∃ t, exec .boostDischargeChangeover s = .next t ∧ t.vdr = { s.vdr with discharge := .resistor } ∧ s.only [.vdr] [] t)

/-- The rows that end waits and serve due requests are the tick of the present microsecond. Where the word after an expired WAIT or RAMP (its target then
exactly MA), or after a WCUR or WTRG that times out with CONT (TO set), is again a WAIT, the context stands at it and waits. Without CONT the stroke
of the one running context ends with CUR_TO, a CHK limit with VBST outside 5 % of TARGET at this tick with BOOST_NRDY: source 77 (and 78), state 2 and
end decay of the active output. An edge 2,000 ns or more after the last kept one is kept, else TRG_OVR and 82; a software edge wakes the WTRG that
waits for it. START queues a request under a new handle, CANCEL removes it. A due request whose program begins with WAIT starts it, with PC, BAND, REQ
and LTC set and the output active without call; one met by a lost supply is dropped with WHY SUPLOSS and 81; one whose bank still decays is deferred
with 80; one deferred to its limit with DEF_ACT 1 is dropped with DEFER_EXP and 81. A context that does not run, or a queue with nothing due, leaves
all as it was. Rows that are ticks may change VDR's and the contexts' state, the recorder's and the windows of EVT and VDR; every other clause names
its fields; all else is as before. -/
def Obligations.StrokesWaitStartQueueAndTriggerAsChapter11Says : Prop :=
  (∀ (k : Fin 64) (samples : List (Fin 64 × BitVec 12)) (vbst : BitVec 16) (u a : Nat) (s : State), s.vdrTicks = true → s.vdr.lastTick < s.tickNow → s.tickNow ≤ s.vdr.winAt + 1000000000 → (∀ e ∈ s.stk.reqs, e.2.out ≠ k.val) →
    s.ctxRuns k.val = true → (s.ctx k.val).wait = .wait u → u ≤ s.tickNow → (s.ctx k.val).follow = none → (s.ctx k.val).undef = false → (s.ctx k.val).dirty = [] →
    s.get (VDR_CTX_STAT.PC k.val) < 16383 → a ≠ 0 → a < 2 ^ 27 → (s.reg (VDR_STK_PROG (s.get (VDR_CTX_STAT.PC k.val) + 1))).toNat = 4 * 2 ^ 27 + a → ∃ t, exec (.strokeWaitEnd ⟨k, samples, vbst⟩) s = .next t ∧
    t.get (VDR_CTX_STAT.PC k.val) = s.get (VDR_CTX_STAT.PC k.val) + 1 ∧ t.ctx k.val = { s.ctx k.val with wait := .wait (s.tickNow + a * 1000) } ∧ t.ctxRuns k.val = true ∧
    t.get (VDR_CTX_STAT.WAITK k.val) = 1 ∧ s.within [.free, .cyc, .vdr, .stk, .rcd] (some [0xC1, 0xC6]) t) ∧
  (∀ (k : Fin 64) (samples : List (Fin 64 × BitVec 12)) (vbst : BitVec 16) (t0 fr ma d a : Nat) (s : State), s.vdrTicks = true → s.vdr.lastTick < s.tickNow → s.tickNow ≤ s.vdr.winAt + 1000000000 → (∀ e ∈ s.stk.reqs, e.2.out ≠ k.val) →
    s.ctxRuns k.val = true → (s.ctx k.val).wait = .ramp t0 fr ma d → t0 + d * 10000 ≤ s.tickNow → ma ≤ 8000 → (s.ctx k.val).follow = none → (s.ctx k.val).undef = false →
    (s.ctx k.val).dirty = [] → s.get (VDR_CTX_STAT.PC k.val) < 16383 → a ≠ 0 → a < 2 ^ 27 → (s.reg (VDR_STK_PROG (s.get (VDR_CTX_STAT.PC k.val) + 1))).toNat = 4 * 2 ^ 27 + a →
    ∃ t, exec (.strokeRampEnd ⟨k, samples, vbst⟩) s = .next t ∧ t.ctxTgt k.val = ma ∧
    t.get (VDR_CTX_STAT.PC k.val) = s.get (VDR_CTX_STAT.PC k.val) + 1 ∧ t.ctx k.val = { s.ctx k.val with wait := .wait (s.tickNow + a * 1000) } ∧
    s.within [.free, .cyc, .vdr, .stk, .rcd] (some [0xC1, 0xC6]) t) ∧
  (∀ (k : Fin 64) (samples : List (Fin 64 × BitVec 12)) (vbst : BitVec 16) (t0 lim a : Nat) (falling : Bool) (s : State), s.vdrTicks = true → s.vdr.lastTick < s.tickNow → s.tickNow ≤ s.vdr.winAt + 1000000000 → (∀ e ∈ s.stk.reqs, e.2.out ≠ k.val) →
    s.ctxRuns k.val = true → (s.ctx k.val).wait = .wcur t0 lim falling true → limitDue t0 lim s.tickNow = true → (s.sampleAll s.tickNow samples).wcurReached k.val falling s.tickNow = false →
    (s.ctx k.val).follow = none → (s.ctx k.val).undef = false → (s.ctx k.val).dirty = [] → s.get (VDR_CTX_STAT.PC k.val) < 16383 → a ≠ 0 → a < 2 ^ 27 →
    (s.reg (VDR_STK_PROG (s.get (VDR_CTX_STAT.PC k.val) + 1))).toNat = 4 * 2 ^ 27 + a → ∃ t, exec (.wcurTimeout ⟨k, samples, vbst⟩) s = .next t ∧ t.getB (VDR_CTX_STAT.TO k.val) = true ∧
    t.get (VDR_CTX_STAT.PC k.val) = s.get (VDR_CTX_STAT.PC k.val) + 1 ∧ t.ctx k.val = { s.ctx k.val with wait := .wait (s.tickNow + a * 1000) } ∧
    s.within [.free, .cyc, .vdr, .stk, .rcd] (some [0xC1, 0xC6]) t) ∧
  (∀ (k : Fin 64) (samples : List (Fin 64 × BitVec 12)) (vbst : BitVec 16) (t0 lim : Nat) (falling : Bool) (s : State), s.vdrTicks = true → s.vdr.lastTick < s.tickNow → s.tickNow ≤ s.vdr.winAt + 1000000000 → s.stk.reqs = [] → (∀ j ∈ List.range 64, j ≠ k.val → s.ctxRuns j = false) →
    s.ctxRuns k.val = true → (s.ctx k.val).wait = .wcur t0 lim falling false → limitDue t0 lim s.tickNow = true → (s.sampleAll s.tickNow samples).wcurReached k.val falling s.tickNow = false →
    (s.ctx k.val).follow = none → (s.vlo k.val).active = true → (s.vlo k.val).decay = none → ∃ t, exec (.wcurTimeout ⟨k, samples, vbst⟩) s = .next t ∧ t.get (VDR_CTX_STAT.CAUSE k.val) = causeCUR_TO ∧ t.ctxState k.val = 2 ∧
    (t.vlo k.val).decay = some s.tickNow ∧ (t.ctx k.val).wait = .none ∧ s.raisedAt 77 s.tickNow t ∧
    s.within [.free, .cyc, .vdr, .stk, .rcd] (some [0xC1, 0xC6]) t) ∧
  (∀ (k : Fin 64) (samples : List (Fin 64 × BitVec 12)) (vbst : BitVec 16) (t0 n lim a : Nat) (s : State), s.vdrTicks = true → s.vdr.lastTick < s.tickNow → s.tickNow ≤ s.vdr.winAt + 1000000000 → (∀ e ∈ s.stk.reqs, e.2.out ≠ k.val) →
    s.ctxRuns k.val = true → (s.ctx k.val).wait = .wtrg t0 n lim true none → limitDue t0 lim s.tickNow = true →
    (s.ctx k.val).follow = none → (s.ctx k.val).undef = false → (s.ctx k.val).dirty = [] → s.get (VDR_CTX_STAT.PC k.val) < 16383 → a ≠ 0 → a < 2 ^ 27 →
    (s.reg (VDR_STK_PROG (s.get (VDR_CTX_STAT.PC k.val) + 1))).toNat = 4 * 2 ^ 27 + a → ∃ t, exec (.wtrgTimeout ⟨k, samples, vbst⟩) s = .next t ∧ t.getB (VDR_CTX_STAT.TO k.val) = true ∧
    t.get (VDR_CTX_STAT.PC k.val) = s.get (VDR_CTX_STAT.PC k.val) + 1 ∧ t.ctx k.val = { s.ctx k.val with wait := .wait (s.tickNow + a * 1000) } ∧
    s.within [.free, .cyc, .vdr, .stk, .rcd] (some [0xC1, 0xC6]) t) ∧
  (∀ (k : Fin 64) (samples : List (Fin 64 × BitVec 12)) (vbst : BitVec 16) (t0 lim : Nat) (s : State), s.vdrTicks = true → s.vdr.lastTick < s.tickNow → s.tickNow ≤ s.vdr.winAt + 1000000000 → s.stk.reqs = [] → (∀ j ∈ List.range 64, j ≠ k.val → s.ctxRuns j = false) →
    s.ctxRuns k.val = true → (s.ctx k.val).wait = .chk t0 lim →
    (20 * vbst.toNat < 19 * (s.get VDR_BST_CFG.TARGET * 10) ∨ 21 * (s.get VDR_BST_CFG.TARGET * 10) < 20 * vbst.toNat) → t0 + lim * 1000 ≤ s.tickNow → (s.ctx k.val).follow = none →
    (s.vlo k.val).active = true → (s.vlo k.val).decay = none → ∃ t, exec (.boostNrdy ⟨k, samples, vbst⟩) s = .next t ∧ t.get (VDR_CTX_STAT.CAUSE k.val) = causeBOOST_NRDY ∧ t.ctxState k.val = 2 ∧
    (t.vlo k.val).decay = some s.tickNow ∧ s.raisedAt 77 s.tickNow t ∧ s.raisedAt 78 s.tickNow t ∧
    s.within [.free, .cyc, .vdr, .stk, .rcd] (some [0xC1, 0xC6]) t) ∧
  (∀ (n : Fin 32) (stamp : Nat) (s : State), 8 ≤ n.val → s.loaded 2 = true → (tgetD s.stk.trig n.val []).length < 8 → ((tgetD s.stk.trig n.val []).getLast?).all (fun x => decide (x + 2000 ≤ stamp)) = true → s.stk.ctx = [] →
    ∃ t, exec (.strokeTriggerEdge n stamp) s = .next t ∧ t.stk = { s.stk with trig := tput s.stk.trig n.val (tgetD s.stk.trig n.val [] ++ [stamp]) } ∧ s.only [.stk] [] t) ∧
  (∀ (n : Fin 32) (last stamp : Nat) (s : State), 8 ≤ n.val → s.loaded 2 = true → (tgetD s.stk.trig n.val []).getLast? = some last → stamp < last + 2000 → ∃ t, exec (.strokeTriggerEdge n stamp) s = .next t ∧
    t.get VDR_STK_TRIG.TRG_OVR = min 255 (s.get VDR_STK_TRIG.TRG_OVR + 1) ∧ s.raised 82 t ∧ s.only [.rcd, .cyc] (VDR_STK_TRIG.TRG_OVR :: raiseFlds 82) t) ∧
  (∀ (core : Fin 8) (n : Nat) (value : Word) (k : Fin 64) (t0 lim : Nat) (s : State), s.closed VDR_STK_TRIG = false → n < 8 → value.toNat = 2 ^ n → tgetD s.stk.trig n [] = [] → s.stk.ctx = [(k.val, { wait := .wtrg t0 n lim true none })] → t0 ≤ s.now →
    ∃ t, exec (.softTrigger core value) s = .next t ∧ tgetD t.stk.trig n [] = [s.now] ∧ (t.ctx k.val).wait = .wtrg t0 n lim true (some (s.now / 1000 * 1000 + 2000)) ∧
    s.only [.access, .stk] [VDR_CTX_STAT.WAITK k.val] t) ∧
  (∀ (ring : Fin 2) (e : Entry) (x : Nat) (s : State), s.ready 0x06 ring.val 0xFF00 e → tfree s.stk.reqs 256 = some x → (s.cmdOf 0x06 ring.val e).arg 16 1 < 64 → (s.cmdOf 0x06 ring.val e).arg 18 2 < 16384 →
    bitsOf e.flags.toNat 10 6 = 0 → (s.cmdOf 0x06 ring.val e).arg 24 8 = 0 → s.get (VDR_OUT_CFG.MODE ((s.cmdOf 0x06 ring.val e).arg 16 1)) = 3 → ∃ t, exec (.strokeStart ring e) s = .next t ∧
    tget t.stk.reqs x = some { out := (s.cmdOf 0x06 ring.val e).arg 16 1, prog := (s.cmdOf 0x06 ring.val e).arg 18 2, due := ceilDiv (s.now + 1980) 1000 * 1000, lateDrop := false, preempt := bitAt e.flags.toNat 9, at0 := s.now, ring := ring.val, seq := s.stk.nextSeq, deferred := false } ∧ t.stk.nextSeq = s.stk.nextSeq + 1 ∧ t.gen 2 x = (s.gen 2 x + 1) % 1024 ∧
    s.completed 0x06 ring.val e 0x00 (t.handle 2 x) t ∧ s.dramKept (s.complAddr 0x06 ring.val) 16 t ∧
    s.only [.dram, .rings, .gens, .stk, .rcd, .cyc] (complFlds 0x06 ring.val ++ [VDR_STK_STATUS.QUEUED, VDR_STK_STATUS.DEFERRED]) t) ∧
  (∀ (ring : Fin 2) (e : Entry) (s : State), s.ready 0x06 ring.val 0 e → s.checkHandle 2 (fun x => (tget s.stk.reqs x).isSome) e.handle.toNat = none → ∃ t, exec (.strokeCancel ring e) s = .next t ∧
    t.stk = { s.stk with reqs := tdel s.stk.reqs (hIndex e.handle.toNat) } ∧ s.completed 0x06 ring.val e 0x00 e.handle.toNat t ∧ s.dramKept (s.complAddr 0x06 ring.val) 16 t ∧
    s.only [.dram, .rings, .stk, .rcd, .cyc] (complFlds 0x06 ring.val ++ [VDR_STK_STATUS.QUEUED, VDR_STK_STATUS.DEFERRED]) t) ∧
  (∀ (x : Fin 256) (samples : List (Fin 64 × BitVec 12)) (vbst : BitVec 16) (r : StartReq) (a : Nat) (s : State), s.vdrTicks = true → s.vdr.lastTick < s.tickNow → s.tickNow ≤ s.vdr.winAt + 1000000000 → tget s.stk.reqs x.val = some r →
    (∀ e ∈ s.stk.reqs, e.1 ≠ x.val → e.2.out ≠ r.out) → r.out < 64 → r.prog < 16384 → r.due ≤ s.tickNow → r.lateDrop = false → s.sys.entry.isNone = true → s.vlvReady = true →
    s.get (VDR_OUT_CFG.MODE r.out) = 3 → s.outStopped r.out = false → s.bankStopped (r.out / 4) = false → s.ctxState r.out = 0 → s.bankDecaying (r.out / 4) = false →
    a ≠ 0 → a < 2 ^ 27 → (s.reg (VDR_STK_PROG r.prog)).toNat = 4 * 2 ^ 27 + a → ∃ t, exec (.strokeStartDue ⟨x, samples, vbst⟩) s = .next t ∧
    tget t.stk.reqs x.val = none ∧ t.ctx r.out = { wait := .wait (s.tickNow + a * 1000) } ∧ t.ctxState r.out = 1 ∧ t.get (VDR_CTX_STAT.PC r.out) = r.prog ∧ t.get (VDR_CTX_STAT.WAITK r.out) = 1 ∧
    t.getB (VDR_CTX_STAT.TO r.out) = false ∧ t.get (VDR_CTX_STAT.BAND r.out) = s.tband (s.get (VDR_CTX_CFG.BSEL r.out)) ∧
    t.get64 (VDR_CTX_LTC_LO r.out) (VDR_CTX_LTC_HI r.out) = s.tickNow ∧ t.reg (VDR_CTX_REQ r.out) = BitVec.ofNat 32 (s.handle 2 x.val) ∧ t.reg (VDR_CTX_RUN r.out) = 0#32 ∧
    (t.vlo r.out).active = true ∧ (t.vlo r.out).run = 3 ∧ (t.vlo r.out).call = false ∧ s.within [.free, .cyc, .vdr, .stk, .rcd] (some [0xC1, 0xC6]) t) ∧
  (∀ (x : Fin 256) (samples : List (Fin 64 × BitVec 12)) (vbst : BitVec 16) (r : StartReq) (s : State), s.vdrTicks = true → s.vdr.lastTick < s.tickNow → s.tickNow ≤ s.vdr.winAt + 1000000000 → s.stk.reqs = [(x.val, r)] → r.out < 64 → r.due ≤ s.tickNow → r.lateDrop = false → s.sys.entry.isNone = true → s.vlvReady = false →
    ∃ t, exec (.strokeStartDue ⟨x, samples, vbst⟩) s = .next t ∧ t.stk.reqs = [] ∧ t.get VDR_STK_STATUS.QUEUED = 0 ∧
    t.get VDR_STK_CNT.DROP = min 65535 (s.get VDR_STK_CNT.DROP + 1) ∧ t.get VDR_STK_DROP.OUT = r.out ∧ t.get VDR_STK_DROP.WHY = whySUPLOSS ∧ s.raisedAt 81 s.tickNow t ∧ s.within [.free, .cyc, .vdr, .stk, .rcd] (some [0xC1, 0xC6]) t) ∧
  (∀ (x : Fin 256) (samples : List (Fin 64 × BitVec 12)) (vbst : BitVec 16) (r : StartReq) (j t0 f0 : Nat) (s : State), s.vdrTicks = true → s.vdr.lastTick < s.tickNow → s.tickNow ≤ s.vdr.winAt + 1000000000 → s.stk.reqs = [(x.val, r)] → r.out < 64 → r.due ≤ s.tickNow → r.lateDrop = false → r.deferred = false → s.sys.entry.isNone = true → s.vlvReady = true →
    s.get (VDR_OUT_CFG.MODE r.out) = 3 → s.outStopped r.out = false → s.bankStopped (r.out / 4) = false → s.ctxState r.out = 0 → s.tickNow < r.due + s.get (VDR_STK_BANK.DEF_LIM (r.out / 4)) * 10000 →
    j ∈ bankOuts (r.out / 4) → (s.vlo j).decay = some t0 → (s.vlo j).fast = some f0 → s.tickNow < f0 + 100000 → ∃ t, exec (.strokeStartDue ⟨x, samples, vbst⟩) s = .next t ∧
    t.stk.reqs = [(x.val, { r with deferred := true })] ∧ t.get VDR_STK_STATUS.QUEUED = 1 ∧ t.get VDR_STK_STATUS.DEFERRED = 1 ∧ s.raisedAt 80 s.tickNow t ∧ s.within [.free, .cyc, .vdr, .stk, .rcd] (some [0xC1, 0xC6]) t) ∧
  (∀ (x : Fin 256) (samples : List (Fin 64 × BitVec 12)) (vbst : BitVec 16) (r : StartReq) (j t0 f0 : Nat) (s : State), s.vdrTicks = true → s.vdr.lastTick < s.tickNow → s.tickNow ≤ s.vdr.winAt + 1000000000 → s.stk.reqs = [(x.val, r)] → r.out < 64 → r.deferred = true → r.lateDrop = false → r.due + s.get (VDR_STK_BANK.DEF_LIM (r.out / 4)) * 10000 ≤ s.tickNow →
    s.sys.entry.isNone = true → s.vlvReady = true → s.get (VDR_OUT_CFG.MODE r.out) = 3 → s.outStopped r.out = false → s.bankStopped (r.out / 4) = false → s.ctxState r.out = 0 →
    s.get (VDR_STK_BANK.DEF_LIM (r.out / 4)) ≠ 0 → j ∈ bankOuts (r.out / 4) → (s.vlo j).decay = some t0 → (s.vlo j).fast = some f0 → s.tickNow < f0 + 100000 →
    s.getB (VDR_STK_BANK.DEF_ACT (r.out / 4)) = true → ∃ t, exec (.deferExpire ⟨x, samples, vbst⟩) s = .next t ∧ t.stk.reqs = [] ∧ t.get VDR_STK_STATUS.QUEUED = 0 ∧ t.get VDR_STK_STATUS.DEFERRED = 0 ∧
    t.get VDR_STK_CNT.DROP = min 65535 (s.get VDR_STK_CNT.DROP + 1) ∧ t.get VDR_STK_DROP.OUT = r.out ∧ t.get VDR_STK_DROP.WHY = whyDEFER_EXP ∧ s.raisedAt 81 s.tickNow t ∧ s.within [.free, .cyc, .vdr, .stk, .rcd] (some [0xC1, 0xC6]) t) ∧
  (∀ (k : Fin 64) (samples : List (Fin 64 × BitVec 12)) (vbst : BitVec 16) (s : State), s.ctxRuns k.val = false → ∃ t, exec (.strokeWaitEnd ⟨k, samples, vbst⟩) s = .next t ∧ t = s) ∧
  (∀ (x : Fin 256) (samples : List (Fin 64 × BitVec 12)) (vbst : BitVec 16) (s : State), (∀ e ∈ s.stk.reqs, s.tickNow < e.2.due) → ∃ t, exec (.strokeStartDue ⟨x, samples, vbst⟩) s = .next t ∧ t = s)

/-- With the safety domain ready, a lockstep mismatch and a SAFE upset trip every channel, latch, and 10 ms later ask for a module reset; a mismatch
before SAFE is ready only latches; TJ of 130 C does the same as a mismatch and asks at once. A failed self-test raises 124 and enters degraded mode,
releasing the ON channels with DEG 0, and a pass clears it; the end of DEG_LEFT trips every channel with DEG_EXP and 120. An overcurrent, a stuck
switch, a lasting discrepancy and a weld trip their channels and raise 116, 114 and 117; late pull-in and a drop are listed and raise 117;
undervoltage enters degraded mode. A switch test that is due starts, and passes once it is over, without a register changing; each failed one counts
in TEST_FAIL. The last three bits of a trip's stamp and the use of a free value for them are the model's (log entry 122). Outside SAF's state and
registers only the fields named, the events, the recorder and the model's free-value counter may change. -/
def Obligations.SafetyFaultsTripBlockDegradeAndLatch : Prop :=
  (∀ s : State, s.safReady = true → s.faultListed .lockstep = false → ∃ t, exec .lockstepMismatch s = .next t ∧ t.faultPresent .lockstep = true ∧
    (∀ c, c < 4 → t.chState c = safTRIPPED ∧ t.getB (SAF_CH.ARMABLE c) = false) ∧
    (∀ c, c < 4 → s.chState c ≠ safTRIPPED → t.get (SAF_CH.CAUSE c) = 4 ∧ t.get64 SAF_TRIP_LTC_LO SAF_TRIP_LTC_HI = s.fineNow % 2 ^ 64 ∧ s.raised 113 t) ∧
    t.saf.latchAt = some (s.saf.latchAt.getD s.now) ∧ t.getB SAF_STATUS.LATCHED = true ∧ (s.anyLatched = false → s.raised 125 t) ∧
    s.onlyBut [.free, .saf, .rcd, .cyc] (raiseFlds 113 ++ raiseFlds 125) 0xC7000000 0x1000000 t) ∧
  (∀ s : State, s.safReady = false → s.sys.safe = true → s.faultListed .lockstep = false → ∃ t, exec .lockstepMismatch s = .next t ∧ t.faultPresent .lockstep = true ∧
    t.saf.latchAt = some (s.saf.latchAt.getD s.now) ∧ t.getB SAF_STATUS.LATCHED = true ∧ (s.anyLatched = false → s.raised 125 t) ∧
    s.onlyBut [.free, .saf, .rcd, .cyc] (raiseFlds 113 ++ raiseFlds 125) 0xC7000000 0x1000000 t) ∧
  (∀ (tj tbp : BitVec 12) (s : State), 1040 ≤ tj.toInt → (s.safReady = true ∨ s.sys.mode = .run) → s.faultListed .therm = false → ∃ t, exec (.thermalUpdate tj tbp) s = .next t ∧
    t.faultPresent .therm = true ∧ t.sys = { s.sys with safeReq := true } ∧ t.getB SAF_STATUS.LATCHED = true ∧ t.get SYS_TEMP.TJ = tj.toNat ∧
    (∀ c, c < 4 → t.chState c = safTRIPPED) ∧ (∀ c, c < 4 → s.chState c ≠ safTRIPPED → t.get (SAF_CH.CAUSE c) = 4 ∧ s.raised 113 t) ∧ (s.anyLatched = false → s.raised 125 t) ∧
    s.onlyBut [.free, .sys, .saf, .rcd, .cyc] ([SYS_TEMP.TJ, SYS_TEMP.TBP, SYS_TEMP.WARN, SYS_TEMP.THROTTLE] ++ raiseFlds 8 ++ raiseFlds 113 ++ raiseFlds 125) 0xC7000000 0x1000000 t) ∧
  (∀ s : State, s.safReady = true → s.faultListed .safeUe = false → ∃ t, exec .safeRegionUpset s = .next t ∧ t.faultPresent .safeUe = true ∧
    (∀ c, c < 4 → t.chState c = safTRIPPED ∧ t.getB (SAF_CH.ARMABLE c) = false) ∧
    (∀ c, c < 4 → s.chState c ≠ safTRIPPED → t.get (SAF_CH.CAUSE c) = 4 ∧ s.raised 113 t) ∧
    t.saf.latchAt = some (s.saf.latchAt.getD s.now) ∧ t.getB SAF_STATUS.LATCHED = true ∧ (s.anyLatched = false → s.raised 125 t) ∧
    s.onlyBut [.free, .saf, .rcd, .cyc] (raiseFlds 113 ++ raiseFlds 125) 0xC7000000 0x1000000 t) ∧
  (∀ (t0 : Nat) (s : State), s.saf.latchAt = some t0 → s.safElapsed t0 10000000 = true → ∃ t, exec .safetyResetRequest s = .next t ∧ t.sys = { s.sys with safeReq := true } ∧ s.only [.sys] [] t) ∧
  (∀ s : State, s.safReady = true → s.faultPresent .selftest = false → ∃ t, exec (.selftest false) s = .next t ∧ t.faultPresent .selftest = true ∧ s.raised 124 t ∧
    t.saf.degFrom = some (s.saf.degFrom.getD s.now) ∧ t.getB SAF_STATUS.DEGRADED = true ∧ (s.saf.degFrom.isNone = true → s.raised 118 t) ∧
    (∀ c, c < 4 → s.saf.degFrom.isNone = true → s.imgFld (SAF_CCFG.DEG c) = 0 → s.chState c = safON → t.chState c = safOFF) ∧
    s.onlyBut [.saf, .rcd, .cyc] (raiseFlds 124 ++ raiseFlds 118 ++ raiseFlds 121 ++ raiseFlds 122) 0xC7000000 0x1000000 t) ∧
  (∀ s : State, ∃ t, exec (.selftest true) s = .next t ∧ t.faultPresent .selftest = false ∧ s.onlyBut [.saf, .rcd, .cyc] (raiseFlds 121 ++ raiseFlds 122) 0xC7000000 0x1000000 t) ∧
  (∀ (t0 : Nat) (s : State), s.saf.degFrom = some t0 → s.safElapsed t0 (s.imgFld SAF_DEG_CFG.T_DEG * 1000000000) = true → s.safReady = true → ∃ t, exec .degExpire s = .next t ∧ t.faultListed .degExpired = true ∧
    t.saf.degFrom = none ∧ (∀ c, c < 4 → t.chState c = safTRIPPED) ∧ (∀ c, c < 4 → s.chState c ≠ safTRIPPED → t.get (SAF_CH.CAUSE c) = 5 ∧ t.get64 SAF_TRIP_LTC_LO SAF_TRIP_LTC_HI = s.fineNow % 2 ^ 64 ∧ s.raised 113 t) ∧ s.raised 120 t ∧
    s.onlyBut [.free, .saf, .rcd, .cyc] (raiseFlds 113 ++ raiseFlds 120) 0xC7000000 0x1000000 t) ∧
  (∀ (c : Fin 4) (s : State), s.safReady = true → s.chState c.val = safON → s.faultListed (.oc c.val) = false → ∃ t, exec (.soutOvercurrent c) s = .next t ∧ t.chState c.val = safTRIPPED ∧
    t.get (SAF_CH.CAUSE c.val) = 4 ∧ t.getB (SAF_CH.OC c.val) = true ∧ s.raised 116 t ∧ s.raised 113 t ∧
    s.onlyBut [.free, .saf, .rcd, .cyc] (raiseFlds 113 ++ raiseFlds 116 ++ raiseFlds 121 ++ raiseFlds 122) 0xC7000000 0x1000000 t) ∧
  (∀ (c : Fin 4) (upper : Bool) (s : State), s.safReady = true → s.saf.test = none → s.chState c.val ≠ safON → tget s.saf.testAt (2 * c.val + b2n upper) = none → ∃ t, exec (.switchTest c upper) s = .next t ∧
    t.saf = { s.saf with test := some (c.val, upper), testAt := tput s.saf.testAt (2 * c.val + b2n upper) s.now } ∧ s.only [.saf] [] t) ∧
  (∀ (c : Fin 4) (upper : Bool) (s : State), s.safReady = true → s.saf.test = none → s.chState c.val = safON →
    tget s.saf.testAt (2 * c.val + b2n upper) = none → (tget s.saf.testAt (2 * c.val + b2n (!upper))).all (fun t => s.safElapsed t 1000000000) = true →
    (∀ d ∈ List.range 4, d ≠ c.val → s.chState d = safON → (tget s.saf.onTest d).all (fun t => s.safElapsed t 250000000) = true) → ∃ t, exec (.switchTest c upper) s = .next t ∧
    t.saf = { s.saf with test := some (c.val, upper), testAt := tput s.saf.testAt (2 * c.val + b2n upper) s.now, onTest := tput s.saf.onTest c.val s.now } ∧ s.only [.saf] [] t) ∧
  (∀ (c : Fin 4) (upper : Bool) (s : State), s.saf.test = some (c.val, upper) → s.testOver c.val true (tgetD s.saf.testAt (2 * c.val + b2n upper) 0) = true → ∃ t, exec (.switchTestEnd c true) s = .next t ∧ t.saf = { s.saf with test := none } ∧ s.only [.saf] [] t) ∧
  (∀ (c : Fin 4) (upper : Bool) (s : State), s.safReady = true → s.saf.test = some (c.val, upper) → s.testOver c.val false (tgetD s.saf.testAt (2 * c.val + b2n upper) 0) = true →
    s.faultListed (if upper then .stuck2 c.val else .stuck1 c.val) = false → ∃ t, exec (.switchTestEnd c false) s = .next t ∧
    t.saf.test = none ∧ t.faultPresent (if upper then .stuck2 c.val else .stuck1 c.val) = true ∧ t.chState c.val = safTRIPPED ∧ t.getB (if upper then SAF_CH.STUCK2 c.val else SAF_CH.STUCK1 c.val) = true ∧
    t.get SAF_CNT.TEST_FAIL = min 255 (s.get SAF_CNT.TEST_FAIL + 1) ∧ s.raised 116 t ∧ (s.anyLatched = false → s.raised 125 t) ∧
    s.onlyBut [.free, .saf, .rcd, .cyc] (raiseFlds 113 ++ raiseFlds 116 ++ raiseFlds 121 ++ raiseFlds 122 ++ raiseFlds 125) 0xC7000000 0x1000000 t) ∧
  (∀ (c : Fin 4) (upper : Bool) (s : State), s.saf.test = some (c.val, upper) → s.testOver c.val false (tgetD s.saf.testAt (2 * c.val + b2n upper) 0) = true →
    s.faultListed (if upper then .stuck2 c.val else .stuck1 c.val) = true → ∃ t, exec (.switchTestEnd c false) s = .next t ∧ t.get SAF_CNT.TEST_FAIL = min 255 (s.get SAF_CNT.TEST_FAIL + 1) ∧
    t.saf = { s.saf with test := none } ∧ s.only [.saf] [SAF_CNT.TEST_FAIL] t) ∧
  (∀ (c : Fin 4) (t0 : Nat) (s : State), s.safReady = true → s.safFbUse c.val = true → tget s.saf.onAt c.val = some t0 → s.chState c.val = safON → bitAt s.saf.pulled c.val = false → s.safElapsed t0 (s.safTfb c.val) = true →
    s.faultPresent (.pullin c.val) = false → ∃ t, exec (.feedbackTimeout c 0) s = .next t ∧ t.faultListed (.pullin c.val) = true ∧ t.getB (SAF_CH.PULLIN c.val) = true ∧ t.saf.degFrom = some (s.saf.degFrom.getD s.now) ∧
    s.raised 117 t ∧ s.onlyBut [.saf, .rcd, .cyc] (raiseFlds 117 ++ raiseFlds 118 ++ raiseFlds 121 ++ raiseFlds 122) 0xC7000000 0x1000000 t) ∧
  (∀ (c : Fin 4) (t0 : Nat) (s : State), s.safReady = true → s.safFbUse c.val = true → tget s.saf.closedAt c.val = some t0 → s.chState c.val = safON → s.safElapsed t0 5000000 = true →
    s.faultPresent (.drop c.val) = false → ∃ t, exec (.feedbackTimeout c 1) s = .next t ∧ t.faultListed (.drop c.val) = true ∧ t.getB (SAF_CH.DROP c.val) = true ∧ t.saf.degFrom = some (s.saf.degFrom.getD s.now) ∧
    s.raised 117 t ∧ s.onlyBut [.saf, .rcd, .cyc] (raiseFlds 117 ++ raiseFlds 118 ++ raiseFlds 121 ++ raiseFlds 122) 0xC7000000 0x1000000 t) ∧
  (∀ (c : Fin 4) (t0 : Nat) (s : State), s.safReady = true → s.safFbUse c.val = true → tget s.saf.openAt c.val = some t0 → s.safElapsed t0 (s.safTfb c.val) = true → s.safFbClosed c.val = false →
    s.faultListed (.weld c.val) = false → ∃ t, exec (.feedbackTimeout c 2) s = .next t ∧ t.faultListed (.weld c.val) = true ∧ t.getB (SAF_CH.WELD c.val) = true ∧ tget t.saf.openAt c.val = none ∧
    (∀ d, d < 4 → s.chState d = safTRIPPED → t.chState d = safTRIPPED) ∧ s.raised 117 t ∧ s.onlyBut [.free, .saf, .rcd, .cyc] (raiseFlds 113 ++ raiseFlds 117) 0xC7000000 0x1000000 t) ∧
  (∀ (pair : Fin 8) (t0 : Nat) (s : State), s.safReady = true → tget s.saf.transSince pair.val = some t0 → s.safMask pair.val ≠ 0 → s.safElapsed t0 (s.imgFld (SAF_PCFG.T_DISC pair.val) * 1000000) = true →
    s.faultListed (.disc pair.val) = false → ∃ t, exec (.pairDisc pair) s = .next t ∧ t.faultPresent (.disc pair.val) = true ∧ s.raised 114 t ∧
    (∀ c, c < 4 → bitAt (s.safMask pair.val) c = true → t.chState c = safTRIPPED) ∧
    s.onlyBut [.free, .saf, .rcd, .cyc] (raiseFlds 113 ++ raiseFlds 114 ++ raiseFlds 121 ++ raiseFlds 122) 0xC7000000 0x1000000 t) ∧
  (∀ (mv : Nat) (s : State), s.safReady = true → s.faultPresent .supply = false → ∃ t, exec (.vsupUndervoltage mv) s = .next t ∧ t.faultPresent .supply = true ∧ t.getB SAF_FAULT.SUPPLY = true ∧
    t.saf.degFrom = some (s.saf.degFrom.getD s.now) ∧ t.getB SYS_SUPPLY.UV = true ∧
    s.onlyBut [.saf, .rcd, .cyc] ([SYS_SUPPLY.VSUP_MV, SYS_SUPPLY.UV, SYS_SUPPLY.UV_WARN] ++ raiseFlds 6 ++ raiseFlds 118 ++ raiseFlds 121 ++ raiseFlds 122) 0xC7000000 0x1000000 t)

/-- With the safety domain ready and no mask open, an OPEN reading of SINnA on a pair in RUN puts the pair out of RUN and trips the channels it maps, with
CAUSE PAIR, the pair's number, the edge's stamp and 113; a pin under a mask, or before READY, is only remembered. A pulse that is due masks its
members; once 250 us less 50.5 ppm have passed, a tested member that did not fall counts in TEST_FAIL, sets XS with 115 and trips. A completed re-arm
time makes a channel whose conditions hold ARMABLE with 121, or, with START_ACK 0 and never armed, arms it with 122. A mirror change shows in FB. An
accepted partner STOP over a loaded NET trips the PTRIP channels with CAUSE PARTNER and 123, RUN starts its re-arm time; 5 ms without a field is
PARTNER_LOST. Outside SAF's state and registers only the events, the captures, the recorder and the model's free-value counter (log entry 122) may
change. -/
def Obligations.PairsMirrorsAndPartnerTripAndRearmChannels : Prop :=
  (∀ (pair : Fin 8) (stamp : Nat) (s : State), s.safReady = true → s.masked false = false → s.pairRun pair.val = true → bitAt (s.get (TMS_CAP_CFG.EDGE 5)) 0 = false → ∃ t, exec (.sinPinChange pair false 0 stamp) s = .next t ∧
    t.pairState pair.val = 2 ∧ t.pairRun pair.val = false ∧ bitAt t.saf.rearmed pair.val = false ∧ tget t.saf.transSince pair.val = some s.now ∧
    (∀ c, c < 4 → bitAt (s.safMask pair.val) c = true → t.chState c = safTRIPPED) ∧
    (∀ c, c < 4 → bitAt (s.safMask pair.val) c = true → s.chState c ≠ safTRIPPED → t.get (SAF_CH.CAUSE c) = 2 ∧ t.get (SAF_CH.PAIR c) = pair.val ∧
      t.get64 SAF_TRIP_LTC_LO SAF_TRIP_LTC_HI = stamp % 2 ^ 64 ∧ s.raised 113 t) ∧
    s.onlyBut [.tms, .saf, .rcd, .cyc] (raiseFlds 113 ++ raiseFlds 121 ++ raiseFlds 122) 0xC7000000 0x1000000 t) ∧
  (∀ (pair : Fin 8) (memberB : Bool) (reading : Fin 3) (stamp : Nat) (s : State), (s.safReady = false ∨ s.masked memberB = true) → ∃ t, exec (.sinPinChange pair memberB reading stamp) s = .next t ∧
    t.saf = { s.saf with pins := t.saf.pins } ∧ t.saf.pins.sfb = s.saf.pins.sfb ∧ (memberB = true → tgetD t.saf.pins.sinB pair.val 0 = reading.val) ∧
    (memberB = false → reading.val ≠ 1 → bitAt t.saf.pins.sinA pair.val = decide (reading.val = 2)) ∧ s.only [.saf] [] t) ∧
  (∀ (stp : Fin 2) (s : State), s.safReady = true → s.pulseDue stp.val = true → ∃ t, exec (.stpPulse stp) s = .next t ∧ t.masked (decide (stp.val = 1)) = true ∧ tget t.saf.maskAt stp.val = some s.now ∧
    (∀ p, p < 8 → bitAt (tgetD t.saf.tested stp.val 0) p = s.pulseTests stp.val p) ∧ tget t.saf.stpAt stp.val = some s.now ∧ s.only [.saf] [] t) ∧
  (∀ (stp : Fin 2) (failed : BitVec 8) (t0 p : Nat) (s : State), s.safReady = true → tget s.saf.maskAt stp.val = some t0 → s.safElapsed t0 250000 = true → p < 8 → bitAt (tgetD s.saf.tested stp.val 0) p = true → bitAt failed.toNat p = true →
    s.faultListed (.xs p) = false → bitAt (s.get (TMS_CAP_CFG.EDGE 5)) 0 = false → ∃ t, exec (.stpMaskEnd stp failed) s = .next t ∧ t.faultPresent (.xs p) = true ∧ t.pairRun p = false ∧ s.raised 115 t ∧
    ((∀ q ∈ List.range 8, q ≠ p → bitAt (tgetD s.saf.tested stp.val 0) q = false) → t.get SAF_CNT.TEST_FAIL = min 255 (s.get SAF_CNT.TEST_FAIL + 1)) ∧
    (∀ c, c < 4 → bitAt (s.safMask p) c = true → t.chState c = safTRIPPED) ∧ tget t.saf.maskAt stp.val = none ∧
    s.onlyBut [.free, .tms, .saf, .rcd, .cyc] (raiseFlds 113 ++ raiseFlds 115 ++ raiseFlds 121 ++ raiseFlds 122) 0xC7000000 0x1000000 t) ∧
  (∀ (who : Fin 9) (t0 : Nat) (s : State), s.safReady = true → (if who.val = 8 then s.saf.partnerRun else tget s.saf.runSince who.val) = some t0 →
    s.safElapsed t0 (s.imgFld (if who.val = 8 then SAF_DEG_CFG.P_REARM else SAF_PCFG.T_REARM who.val) * 10000000) = true → ∃ t, exec (.rearmComplete who) s = .next t ∧
    t.saf.rearmed = putBits s.saf.rearmed who.val 1 1 ∧
    (∀ c, c < 4 → { s with saf := { s.saf with rearmed := putBits s.saf.rearmed who.val 1 1 } }.armable c = true → s.imgFld (SAF_CCFG.START_ACK c) = 1 →
      t.getB (SAF_CH.ARMABLE c) = true ∧ t.chState c = safTRIPPED ∧ (s.getB (SAF_CH.ARMABLE c) = false → s.raised 121 t)) ∧
    (∀ c, c < 4 → { s with saf := { s.saf with rearmed := putBits s.saf.rearmed who.val 1 1 } }.armable c = true → s.imgFld (SAF_CCFG.START_ACK c) = 0 → bitAt s.saf.armedOnce c = false →
      t.chState c = safOFF ∧ s.raised 122 t) ∧
    s.onlyBut [.saf, .rcd, .cyc] (raiseFlds 121 ++ raiseFlds 122) 0xC7000000 0x1000000 t) ∧
  (∀ (c : Fin 4) (closed : Bool) (s : State), s.safReady = true → s.safFbUse c.val = true → ∃ t, exec (.sfbChange c closed) s = .next t ∧ t.getB (SAF_CH.FB c.val) = closed ∧ t.safFbClosed c.val = closed ∧
    (closed = true → tget t.saf.openAt c.val = none) ∧ (closed = false → s.chState c.val = safON → bitAt t.saf.pulled c.val = true) ∧
    s.onlyBut [.saf, .rcd, .cyc] (raiseFlds 121 ++ raiseFlds 122) 0xC7000000 0x1000000 t) ∧
  (∀ (sstate sseq : BitVec 8) (pad : BitVec 16) (scrc : Word) (s : State), s.safReady = true → s.loaded 7 = true → s.safScrc sstate.toNat sseq.toNat pad.toNat = scrc.toNat → s.saf.partnerSeq ≠ some sseq.toNat → bitAt sstate.toNat 0 = true →
    ∃ t, exec (.partnerSafetyField sstate sseq pad scrc) s = .next t ∧ t.saf.partnerSeq = some sseq.toNat ∧ t.saf.partnerAt = some s.now ∧ t.saf.partnerRun = none ∧ t.getB SAF_STATUS.PARTNER = true ∧
    (∀ c, c < 4 → s.imgFld (SAF_CCFG.PTRIP c) = 1 → t.chState c = safTRIPPED) ∧
    (∀ c, c < 4 → s.imgFld (SAF_CCFG.PTRIP c) = 1 → s.chState c ≠ safTRIPPED → t.get (SAF_CH.CAUSE c) = 3 ∧ s.raised 113 t ∧ s.raised 123 t) ∧
    s.onlyBut [.free, .saf, .rcd, .cyc] (raiseFlds 113 ++ raiseFlds 121 ++ raiseFlds 122 ++ raiseFlds 123) 0xC7000000 0x1000000 t) ∧
  (∀ (sstate sseq : BitVec 8) (pad : BitVec 16) (scrc : Word) (s : State), s.safReady = true → s.loaded 7 = true → s.safScrc sstate.toNat sseq.toNat pad.toNat = scrc.toNat → s.saf.partnerSeq ≠ some sseq.toNat → bitAt sstate.toNat 0 = false →
    ∃ t, exec (.partnerSafetyField sstate sseq pad scrc) s = .next t ∧ t.saf.partnerSeq = some sseq.toNat ∧ t.saf.partnerAt = some s.now ∧ t.saf.partnerRun = some (s.saf.partnerRun.getD s.now) ∧
    t.faultPresent .partnerLost = false ∧ s.onlyBut [.saf, .rcd, .cyc] (raiseFlds 121 ++ raiseFlds 122) 0xC7000000 0x1000000 t) ∧
  (∀ (t0 : Nat) (s : State), s.safReady = true → s.saf.partnerAt = some t0 → s.safElapsed t0 5000000 = true → s.faultPresent .partnerLost = false → ∃ t, exec .partnerLost s = .next t ∧ t.faultPresent .partnerLost = true ∧
    t.saf.partnerAt = none ∧ t.saf.partnerRun = none ∧ bitAt t.saf.rearmed 8 = false ∧ t.getB SAF_FAULT.PARTNER_LOST = true ∧ t.saf.degFrom = some (s.saf.degFrom.getD s.now) ∧
    s.onlyBut [.saf, .rcd, .cyc] (raiseFlds 118 ++ raiseFlds 121 ++ raiseFlds 122) 0xC7000000 0x1000000 t)

/-- A request under way is answered with its SEQ, PEND 0, a reason and source 112. ENERGISE of an OFF channel with no code of R260 turns it ON, one with a
code answers that code; RELEASE turns the ON channels it names OFF; ACK of an ARMABLE tripped channel arms it (122), ACK of faults that all have
cleared removes them and ends degraded mode (119); RESET with ARG 0xA5 asks for a module reset, with another ARG it answers 0x0705 and asks for
nothing, as does an unknown OP. Outside SAF's state and registers (and SYS's request of a RESET) only the events and the recorder may change. -/
def Obligations.MailboxRequestsAreServedAndAnswered : Prop :=
  (∀ (seq c : Nat) (s : State), s.saf.req = some (seq, c, 1) → c < 4 → s.chState c = safOFF → s.energiseCode c = 0 → ∃ t, exec .mbxEnergise s = .next t ∧ t.chState c = safON ∧ tget t.saf.onAt c = some s.now ∧
    t.saf.req = none ∧ t.get SAF_MBX_RSP.SEQ = seq % 256 ∧ t.get SAF_MBX_RSP.REASON = 0x0700 ∧ t.getB SAF_MBX_RSP.PEND = false ∧ s.raised 112 t ∧
    s.onlyBut [.saf, .rcd, .cyc] (raiseFlds 112 ++ raiseFlds 121 ++ raiseFlds 122) 0xC7000000 0x1000000 t) ∧
  (∀ (seq c : Nat) (s : State), s.saf.req = some (seq, c, 1) → s.energiseCode c ≠ 0 → ∃ t, exec .mbxEnergise s = .next t ∧ t.saf.req = none ∧ t.get SAF_MBX_RSP.SEQ = seq % 256 ∧
    t.get SAF_MBX_RSP.REASON = 0x0700 + s.energiseCode c ∧ t.getB SAF_MBX_RSP.PEND = false ∧ s.raised 112 t ∧ t.saf.onAt = s.saf.onAt ∧
    s.onlyBut [.saf, .rcd, .cyc] (raiseFlds 112 ++ raiseFlds 121 ++ raiseFlds 122) 0xC7000000 0x1000000 t) ∧
  (∀ (seq arg : Nat) (s : State), s.saf.req = some (seq, arg, 2) → 0 < arg → arg < 16 → ∃ t, exec .mbxRelease s = .next t ∧ (∀ c, c < 4 → bitAt arg c = true → s.chState c = safON → t.chState c = safOFF) ∧
    (∀ c, c < 4 → bitAt arg c = false → s.chState c = safON → t.chState c = safON) ∧ t.saf.req = none ∧ t.get SAF_MBX_RSP.SEQ = seq % 256 ∧ t.get SAF_MBX_RSP.REASON = 0x0700 ∧
    t.getB SAF_MBX_RSP.PEND = false ∧ s.raised 112 t ∧ s.onlyBut [.saf, .rcd, .cyc] (raiseFlds 112 ++ raiseFlds 121 ++ raiseFlds 122) 0xC7000000 0x1000000 t) ∧
  (∀ (seq c : Nat) (s : State), s.saf.req = some (seq, 2 ^ c, 3) → c < 4 → s.chState c = safTRIPPED → s.getB (SAF_CH.ARMABLE c) = true → ∃ t, exec .mbxAck s = .next t ∧ t.chState c = safOFF ∧ t.getB (SAF_CH.ARMABLE c) = false ∧
    s.raised 122 t ∧ t.saf.req = none ∧ t.get SAF_MBX_RSP.SEQ = seq % 256 ∧ t.get SAF_MBX_RSP.REASON = 0x0700 ∧ t.getB SAF_MBX_RSP.PEND = false ∧ s.raised 112 t ∧
    s.onlyBut [.saf, .rcd, .cyc] (raiseFlds 112 ++ raiseFlds 121 ++ raiseFlds 122) 0xC7000000 0x1000000 t) ∧
  (∀ (seq : Nat) (s : State), s.saf.req = some (seq, 16, 3) → s.saf.faults ≠ [] → s.saf.faults.all (fun x => !x.2) = true → ∃ t, exec .mbxAck s = .next t ∧ t.saf.faults = [] ∧ t.saf.degFrom = none ∧
    (s.saf.degFrom.isSome = true → s.raised 119 t) ∧ t.getB SAF_STATUS.DEGRADED = false ∧ t.get SAF_MBX_RSP.REASON = 0x0700 ∧ t.getB SAF_MBX_RSP.PEND = false ∧ s.raised 112 t ∧
    s.onlyBut [.saf, .rcd, .cyc] (raiseFlds 112 ++ raiseFlds 119 ++ raiseFlds 121 ++ raiseFlds 122) 0xC7000000 0x1000000 t) ∧
  (∀ (seq arg : Nat) (s : State), s.saf.req = some (seq, arg, 4) → ∃ t, exec .mbxReset s = .next t ∧ t.get SAF_MBX_RSP.REASON = (if arg = 0xA5 then 0x0700 else 0x0705) ∧
    t.sys = (if arg = 0xA5 then { s.sys with safeReq := true } else s.sys) ∧ t.saf.req = none ∧ t.get SAF_MBX_RSP.SEQ = seq % 256 ∧ t.getB SAF_MBX_RSP.PEND = false ∧ s.raised 112 t ∧
    s.onlyBut [.sys, .saf, .rcd, .cyc] (raiseFlds 112 ++ raiseFlds 121 ++ raiseFlds 122) 0xC7000000 0x1000000 t) ∧
  (∀ (seq arg op : Nat) (s : State), s.saf.req = some (seq, arg, op) → (op = 0 ∨ 4 < op) → ∃ t, exec .mbxUnknownOp s = .next t ∧ t.get SAF_MBX_RSP.REASON = 0x0705 ∧ t.saf.req = none ∧
    t.get SAF_MBX_RSP.SEQ = seq % 256 ∧ t.getB SAF_MBX_RSP.PEND = false ∧ s.raised 112 t ∧ s.onlyBut [.saf, .rcd, .cyc] (raiseFlds 112 ++ raiseFlds 121 ++ raiseFlds 122) 0xC7000000 0x1000000 t)

/-- At each 1 ms window of a running chain GAIN moves no further than the AGC can (unless held), PWR shows the power above the lowest mean of a second
since ENABLE (before the first, a free value: log entry 125), 100 ms above 15 dB set JAM, clipping over 5 % at gain 0 SAT, with source 134. MODE 2
notches follow the interferers under 1 MHz wide and 10 dB above the floor, the lower notch the stronger, LOCK and 135 as they gain or lose one. Over
150 mA an antenna's bias goes off with SHORT, under 2 mA it sets OPEN (133), cleared from 2 to 150 mA; BIAS_EN 0 to 1 switches it on. An ACQ_START on
ring 1 with no code of R280 holds the lowest free engine and stays in flight; after its samples, with a result its grid admits, the record of Table
13-5 stands at RESULT, the command ends with OK and the engine is free. Disabling GNB leaves no channel, no search, no strobe, no LOCK, both biases
off and SC stopped; GNB's state and registers, the rings with their completions and the blocks written, and events may change with it. How far GAIN
can have moved and what a search can find are the model's reading (log entries 125 and 126). Every other clause names the fields that may differ. -/
def Obligations.ReceiverChainsAntennasAndSearchesFollowChapter13 : Prop :=
  (∀ (c : Fin 4) (clips : BitVec 17) (power : BitVec 16) (mean : Option (BitVec 16)) (gain : BitVec 8) (pwr b : Nat) (n t0 : Nat) (s : State), s.chainRuns c.val = true → some b = (match mean with | none => tget s.gnb.base c.val | some m => some (min m.toNat (tgetD s.gnb.base c.val m.toNat))) → pwr = min 255 (power.toNat - b) → s.getB (GNB_CHAIN_CFG.HOLD c.val) = false → n = s.scNow / 1024 - tgetD s.gnb.agcAt c.val 0 →
    (20 * clips.toNat ≤ 81840 ∨ min 240 (max (s.get (GNB_CHAIN_STAT.GAIN c.val) - n) (min (s.get (GNB_CHAIN_STAT.GAIN c.val) + n) gain.toNat)) ≠ 0) → 60 < pwr → tget s.gnb.jamFrom c.val = some t0 → 100000000 ≤ s.since t0 → s.getB (GNB_CHAIN_STAT.JAM c.val) = false →
    ∃ t, exec (.rfInterf c clips power mean gain) s = .next t ∧ t.getB (GNB_CHAIN_STAT.JAM c.val) = true ∧ t.get (GNB_CHAIN_STAT.PWR c.val) = pwr ∧ t.get (GNB_CHAIN_STAT.GAIN c.val) = min 240 (max (s.get (GNB_CHAIN_STAT.GAIN c.val) - n) (min (s.get (GNB_CHAIN_STAT.GAIN c.val) + n) gain.toNat)) ∧
    s.raised 134 t ∧ t.gnb = { s.gnb with agcAt := tput s.gnb.agcAt c.val (s.scNow / 1024), base := if mean.isSome then tput s.gnb.base c.val b else s.gnb.base, jamFrom := t.gnb.jamFrom, sats := t.gnb.sats, strobes := t.gnb.strobes } ∧ t.gnb.sats = s.gnb.sats ∧ t.gnb.strobes = s.gnb.strobes.map (fun x => if s.now ≤ x.ltcL then { x with gains := tput x.gains c.val (t.get (GNB_CHAIN_STAT.GAIN c.val)) } else x) ∧
    s.only [.rcd, .cyc, .gnb] ([GNB_CHAIN_STAT.JAM c.val, GNB_CHAIN_STAT.PWR c.val, GNB_CHAIN_STAT.GAIN c.val] ++ raiseFlds 134) t) ∧
  (∀ (c : Fin 4) (clips : BitVec 17) (power : BitVec 16) (mean : Option (BitVec 16)) (gain : BitVec 8) (pwr b : Nat) (n : Nat) (s : State), s.chainRuns c.val = true → some b = (match mean with | none => tget s.gnb.base c.val | some m => some (min m.toNat (tgetD s.gnb.base c.val m.toNat))) → pwr = min 255 (power.toNat - b) → s.getB (GNB_CHAIN_CFG.HOLD c.val) = false → n = s.scNow / 1024 - tgetD s.gnb.agcAt c.val 0 →
    81840 < 20 * clips.toNat → min 240 (max (s.get (GNB_CHAIN_STAT.GAIN c.val) - n) (min (s.get (GNB_CHAIN_STAT.GAIN c.val) + n) gain.toNat)) = 0 → pwr ≤ 60 → s.getB (GNB_CHAIN_STAT.SAT c.val) = false →
    ∃ t, exec (.rfInterf c clips power mean gain) s = .next t ∧ t.getB (GNB_CHAIN_STAT.SAT c.val) = true ∧ t.get (GNB_CHAIN_STAT.PWR c.val) = pwr ∧ t.get (GNB_CHAIN_STAT.GAIN c.val) = 0 ∧
    s.raised 134 t ∧ t.gnb = { s.gnb with agcAt := tput s.gnb.agcAt c.val (s.scNow / 1024), base := if mean.isSome then tput s.gnb.base c.val b else s.gnb.base, jamFrom := t.gnb.jamFrom, sats := t.gnb.sats, strobes := t.gnb.strobes } ∧ t.gnb.sats = s.gnb.sats ++ [(c.val, s.scNow, none)] ∧ tget t.gnb.jamFrom c.val = none ∧ t.gnb.strobes = s.gnb.strobes.map (fun x => if s.now ≤ x.ltcL then { x with gains := tput x.gains c.val (t.get (GNB_CHAIN_STAT.GAIN c.val)) } else x) ∧
    s.only [.rcd, .cyc, .gnb] ([GNB_CHAIN_STAT.SAT c.val, GNB_CHAIN_STAT.PWR c.val, GNB_CHAIN_STAT.GAIN c.val] ++ raiseFlds 134) t) ∧
  (∀ (c : Fin 4) (clips : BitVec 17) (power : BitVec 16) (mean : Option (BitVec 16)) (gain : BitVec 8) (pwr b : Nat) (s : State), s.chainRuns c.val = true → some b = (match mean with | none => tget s.gnb.base c.val | some m => some (min m.toNat (tgetD s.gnb.base c.val m.toNat))) → pwr = min 255 (power.toNat - b) → s.getB (GNB_CHAIN_CFG.HOLD c.val) = true → (20 * clips.toNat ≤ 81840 ∨ s.get (GNB_CHAIN_STAT.GAIN c.val) ≠ 0) →
    60 < pwr → tget s.gnb.jamFrom c.val = none → ∃ t, exec (.rfInterf c clips power mean gain) s = .next t ∧ t.get (GNB_CHAIN_STAT.PWR c.val) = pwr ∧
    t.gnb = { s.gnb with agcAt := tput s.gnb.agcAt c.val (s.scNow / 1024), base := if mean.isSome then tput s.gnb.base c.val b else s.gnb.base, jamFrom := tput s.gnb.jamFrom c.val s.now } ∧ s.only [.gnb] [GNB_CHAIN_STAT.PWR c.val] t) ∧
  (∀ (c : Fin 4) (clips : BitVec 17) (power : BitVec 16) (gain : BitVec 8) (s : State), s.chainRuns c.val = true → tget s.gnb.base c.val = none → s.getB (GNB_CHAIN_CFG.HOLD c.val) = true → (20 * clips.toNat ≤ 81840 ∨ s.get (GNB_CHAIN_STAT.GAIN c.val) ≠ 0) → s.getB (GNB_CHAIN_STAT.JAM c.val) = true →
    ∃ t, exec (.rfInterf c clips power none gain) s = .next t ∧ t.get (GNB_CHAIN_STAT.PWR c.val) = s.fresh 8 ∧ t.free = s.free + 1 ∧ t.gnb = { s.gnb with agcAt := tput s.gnb.agcAt c.val (s.scNow / 1024), jamFrom := t.gnb.jamFrom } ∧ s.only [.gnb, .free] [GNB_CHAIN_STAT.PWR c.val] t) ∧
  (∀ (c j : Fin 4) (freq : BitVec 13) (level width : BitVec 8) (s : State), s.chainRuns c.val = true → s.get (GNB_NOTCH.MODE c.val j.val) = 2 → (∀ i ∈ List.range 4, i ≠ j.val → s.get (GNB_NOTCH.MODE c.val i) ≠ 2) → tget s.gnb.interf c.val = none →
    10 ≤ level.toNat → width.toNat < 100 → s.getB (GNB_NOTCH.LOCK c.val j.val) = false → ∃ t, exec (.notchLock c freq level width) s = .next t ∧ t.getB (GNB_NOTCH.LOCK c.val j.val) = true ∧
    t.get (GNB_NOTCH.FREQ c.val j.val) = freq.toNat ∧ s.raised 135 t ∧ t.gnb = { s.gnb with interf := tput s.gnb.interf c.val [(freq.toNat, level.toNat)] } ∧ s.only [.rcd, .cyc, .gnb] ([GNB_NOTCH.LOCK c.val j.val, GNB_NOTCH.FREQ c.val j.val] ++ raiseFlds 135) t) ∧
  (∀ (c j k : Fin 4) (f p : Nat) (g : BitVec 13) (q width : BitVec 8) (s : State), s.chainRuns c.val = true → j.val < k.val → s.get (GNB_NOTCH.MODE c.val j.val) = 2 → s.get (GNB_NOTCH.MODE c.val k.val) = 2 →
    (∀ i ∈ List.range 4, i ≠ j.val → i ≠ k.val → s.get (GNB_NOTCH.MODE c.val i) ≠ 2) → tget s.gnb.interf c.val = some [(f, p)] → f ≠ g.toNat → f < 8192 → 10 ≤ p → p < q.toNat → width.toNat < 100 → ∃ t, exec (.notchLock c g q width) s = .next t ∧
    t.getB (GNB_NOTCH.LOCK c.val j.val) = true ∧ t.get (GNB_NOTCH.FREQ c.val j.val) = g.toNat ∧ t.getB (GNB_NOTCH.LOCK c.val k.val) = true ∧ t.get (GNB_NOTCH.FREQ c.val k.val) = f ∧ t.gnb = { s.gnb with interf := tput s.gnb.interf c.val [(g.toNat, q.toNat), (f, p)] } ∧
    s.only [.rcd, .cyc, .gnb] ([GNB_NOTCH.LOCK c.val j.val, GNB_NOTCH.FREQ c.val j.val, GNB_NOTCH.LOCK c.val k.val, GNB_NOTCH.FREQ c.val k.val] ++ raiseFlds 135) t) ∧
  (∀ (c j : Fin 4) (f : BitVec 13) (p : Nat) (level width : BitVec 8) (s : State), s.chainRuns c.val = true → s.get (GNB_NOTCH.MODE c.val j.val) = 2 → (∀ i ∈ List.range 4, i ≠ j.val → s.get (GNB_NOTCH.MODE c.val i) ≠ 2) → tget s.gnb.interf c.val = some [(f.toNat, p)] →
    (level.toNat < 10 ∨ 100 ≤ width.toNat) → s.getB (GNB_NOTCH.LOCK c.val j.val) = true → ∃ t, exec (.notchLock c f level width) s = .next t ∧ t.getB (GNB_NOTCH.LOCK c.val j.val) = false ∧ s.raised 135 t ∧
    t.gnb = { s.gnb with interf := tput s.gnb.interf c.val [] } ∧ s.only [.rcd, .cyc, .gnb] ([GNB_NOTCH.LOCK c.val j.val] ++ raiseFlds 135) t) ∧
  (∀ (a : Fin 2) (ma : BitVec 8) (s : State), s.getB (GNB_ANT.ON a.val) = true → 150 < ma.toNat → s.getB (GNB_ANT.SHORT a.val) = false → ∃ t, exec (.antFault a ma) s = .next t ∧
    t.getB (GNB_ANT.ON a.val) = false ∧ t.getB (GNB_ANT.SHORT a.val) = true ∧ t.getB (GNB_ANT.OPEN a.val) = false ∧ t.get (GNB_ANT.MA a.val) = 0 ∧ s.raised 133 t ∧
    s.only [.rcd, .cyc] ([GNB_ANT.ON a.val, GNB_ANT.SHORT a.val, GNB_ANT.OPEN a.val, GNB_ANT.MA a.val] ++ raiseFlds 133) t) ∧
  (∀ (a : Fin 2) (ma : BitVec 8) (s : State), s.getB (GNB_ANT.ON a.val) = true → ma.toNat < 2 → s.getB (GNB_ANT.OPEN a.val) = false → ∃ t, exec (.antFault a ma) s = .next t ∧
    t.getB (GNB_ANT.OPEN a.val) = true ∧ t.get (GNB_ANT.MA a.val) = ma.toNat ∧ s.raised 133 t ∧ s.only [.rcd, .cyc] ([GNB_ANT.OPEN a.val, GNB_ANT.MA a.val] ++ raiseFlds 133) t) ∧
  (∀ (a : Fin 2) (ma : BitVec 8) (s : State), s.getB (GNB_ANT.ON a.val) = true → 2 ≤ ma.toNat → ma.toNat ≤ 150 → ∃ t, exec (.antOpenClear a ma) s = .next t ∧ t.getB (GNB_ANT.OPEN a.val) = false ∧
    t.get (GNB_ANT.MA a.val) = ma.toNat ∧ s.only [] [GNB_ANT.OPEN a.val, GNB_ANT.MA a.val] t) ∧
  (∀ (core : Fin 8) (a : Fin 2) (value : Word) (s : State), bitAt value.toNat 31 = true → s.getB (GNB_ANT.BIAS_EN a.val) = false → s.getB GNB_CTRL.ENABLE = true →
    ∃ t, exec (.antBiasEnable core a value) s = .next t ∧ t.getB (GNB_ANT.BIAS_EN a.val) = true ∧ t.getB (GNB_ANT.ON a.val) = true ∧
    t.getB (GNB_ANT.SHORT a.val) = (s.getB (GNB_ANT.SHORT a.val) && !bitAt value.toNat 28) ∧ s.only [.access] [GNB_ANT.BIAS_EN a.val, GNB_ANT.ON a.val, GNB_ANT.SHORT a.val] t) ∧
  (∀ (ring : Fin 2) (e : Entry) (chain sig prn coh ncoh bins step addr k : Nat) (s : State), s.ready 0x08 ring.val 0 e → ring.val = 1 → s.gnb.searches.length < 8 →
    tfree s.gnb.searches 8 = some k → (s.cmdOf 0x08 ring.val e).arg 16 1 = chain → (s.cmdOf 0x08 ring.val e).arg 17 1 = sig → (s.cmdOf 0x08 ring.val e).arg 18 2 = prn → (s.cmdOf 0x08 ring.val e).arg 20 1 = coh → (s.cmdOf 0x08 ring.val e).arg 21 1 = ncoh → (s.cmdOf 0x08 ring.val e).arg 22 2 = bins → (s.cmdOf 0x08 ring.val e).arg 28 4 = step → (s.cmdOf 0x08 ring.val e).arg 32 8 = addr → (s.cmdOf 0x08 ring.val e).arg 40 8 = 0 →
    chain ≤ 3 → sig ≤ 9 → prnOk sig prn = true → 1 ≤ coh → coh ≤ 10 → coh % sigP sig = 0 → 1 ≤ ncoh → coh * ncoh ≤ 20 → 1 ≤ bins → bins ≤ 512 → 1 ≤ step → step ≤ 5000 → addr % 64 = 0 →
    s.inWins 0x08 addr 64 = true → s.getB (GNB_CHAIN_CFG.EN chain) = true → sigUpper sig = decide (chain % 2 = 0) → ∃ t, exec (.acqStart ring e) s = .next t ∧ s.started 0x08 ring.val 0x10 e t ∧
    tget t.gnb.searches k = some { id := (s.ring 0x08 ring.val).nextId, chain := chain, sig := sig, prn := prn, addr := addr, start := (s.scNow + 16368 + 81839) / 81840 * 81840, samples := coh * ncoh * 81840, dopMin := toSigned 32 ((s.cmdOf 0x08 ring.val e).arg 24 4), dopStep := step, bins := bins } ∧
    (∀ a, a ≠ k → tget t.gnb.searches a = tget s.gnb.searches a) ∧ t.get GNB_STATUS.SEARCHES = t.gnb.searches.length % 16 ∧
    s.only [.rings, .gnb] [GNB_STATUS.CHANNELS, GNB_STATUS.SEARCHES] t) ∧
  (∀ (k : Fin 8) (bin : Fin 512) (code dop peak second noise : Word) (cn0 : BitVec 16) (x : Search) (y : Taken) (s : State), tget s.gnb.searches k.val = some x → x.start + x.samples ≤ s.scNow →
    x.finds bin.val code.toNat dop.toNat peak.toNat second.toNat noise.toNat = true →
    (s.ring 0x08 1).taken = [y] → y.id = x.id → (x.addr + 64 ≤ s.complAddr 0x08 1 ∨ s.complAddr 0x08 1 + 16 ≤ x.addr) → ∃ t, exec (.acqDone k bin code dop peak second noise cn0) s = .next t ∧
    memBytes t.dram x.addr 32 = bytesLE 1 x.sig ++ bytesLE 1 x.chain ++ bytesLE 2 x.prn ++ bytesLE 4 code.toNat ++ bytesLE 4 dop.toNat ++ bytesLE 4 peak.toNat ++ bytesLE 4 second.toNat ++
      bytesLE 4 noise.toNat ++ bytesLE 2 cn0.toNat ++ bytesLE 2 (b2n (s.satIn x.chain x.start (x.start + x.samples - 1)) + 2 * b2n (decide (bin.val = 0) || decide (bin.val + 1 = x.bins))) ++ bytesLE 4 x.start ∧
    memBytes t.dram (x.addr + 32) 32 = bytesLE 4 (x.start / 2 ^ 32) ++ bytesLE 8 (s.sampleLtc x.start) ++ bytesLE 20 0 ∧
    s.ended 0x08 1 y 0x00 y.handle t ∧ tget t.gnb.searches k.val = none ∧ t.gnb = { s.gnb with searches := tdel s.gnb.searches k.val } ∧ t.get GNB_STATUS.SEARCHES = t.gnb.searches.length % 16 ∧
    (∀ a, (a < x.addr ∨ x.addr + 64 ≤ a) → (a < s.complAddr 0x08 1 ∨ s.complAddr 0x08 1 + 16 ≤ a) → memByte t.dram a = memByte s.dram a) ∧
    s.only [.dram, .rings, .rcd, .cyc, .gnb] (complFlds 0x08 1 ++ [GNB_STATUS.CHANNELS, GNB_STATUS.SEARCHES]) t) ∧
  (∀ s : State, s.getB GNB_CTRL.ENABLE = true → ∃ t, exec .gnbDisable s = .next t ∧ t.getB GNB_CTRL.ENABLE = false ∧ t.gnb.scStart = none ∧ t.gnb.chans = [] ∧ t.gnb.searches = [] ∧
    t.gnb.strobes = [] ∧ (∀ i, i < 16 → t.getB (GNB_NOTCH.LOCK (i / 4) (i % 4)) = false) ∧
    t.get GNB_STATUS.CHANNELS = 0 ∧ t.get GNB_STATUS.SEARCHES = 0 ∧ (∀ a, a < 2 → t.getB (GNB_ANT.ON a) = false ∧ t.get (GNB_ANT.MA a) = 0) ∧
    (∀ x, x < 512 → (tget s.gnb.chans x).isSome = true → t.reg (GNB_CH_STAT x) = 0#32 ∧ t.reg (GNB_CH_BOUND x) = resetOf (GNB_CH_BOUND x)) ∧
    s.within (touches .gnbDisable).1 (touches .gnbDisable).2 t)

/-- A CH_CREATE on ring 0 with no code of R284 makes the lowest free channel with its arguments, waiting for START_SC, and completes with the new handle.
A STEER of FREQ becomes the pending steer, late at once past its target (LATE, violation, source 132). CH_DESTROY frees the channel and takes it out
of the strobes whose SL is still ahead, CH_RESOLVE waits for SL with those before it. Boundary 0 starts a channel; a later one without a steer, in its
turn, advances it (R285) and writes the entry of Table 13-8 at PI with the sums of the seven taps over the integration (log entry 124), or drops it
when the ring is full; GAIN moves with it (log entry 125). TMO raises 130. A strobe waits in the order taken with the channels as its SL finds them;
its block, once SL has passed, is written whole (header of Table 14-1, for a strobe without channels) with 144, or dropped whole. Every clause names
the parts, fields and bytes that may differ; all else is as before. -/
def Obligations.TrackingChannelsSteersAndMeasurementsFollowChapters13And14 : Prop :=
  (∀ (ring : Fin 2) (e : Entry) (chain sig prn ms sp rate sec ph x : Nat) (s : State), s.ready 0x08 ring.val 0 e → ring.val = 0 → tfree s.gnb.chans 512 = some x →
    (s.cmdOf 0x08 ring.val e).arg 16 1 = chain → (s.cmdOf 0x08 ring.val e).arg 17 1 = sig → (s.cmdOf 0x08 ring.val e).arg 18 2 = prn → (s.cmdOf 0x08 ring.val e).arg 20 1 = ms → (s.cmdOf 0x08 ring.val e).arg 21 1 = sp → (s.cmdOf 0x08 ring.val e).arg 22 1 ≤ 1 → (s.cmdOf 0x08 ring.val e).arg 24 8 = 0 → (s.cmdOf 0x08 ring.val e).arg 32 8 = ph → signExtended48 ((s.cmdOf 0x08 ring.val e).arg 40 8) = true → (s.cmdOf 0x08 ring.val e).arg 48 4 = rate → (s.cmdOf 0x08 ring.val e).arg 52 2 = sec →
    chain ≤ 3 → sig ≤ 9 → prnOk sig prn = true → intOk sig ms = true → 1 ≤ sp → sp ≤ 16 → ph < sigMod sig → 1 ≤ rate → rate ≤ 0x7FFFFFFF → secOk sig sec = true → secNeeded sig ms sec = false →
    s.getB (GNB_CHAIN_CFG.EN chain) = true → sigUpper sig = decide (chain % 2 = 0) → ∃ t, exec (.chCreate ring e) s = .next t ∧ s.completed 0x08 ring.val e 0x00 (t.handle 3 x) t ∧
    s.dramKept (s.complAddr 0x08 ring.val) 16 t ∧ t.gen 3 x = (s.gen 3 x + 1) % 1024 ∧
    tget t.gnb.chans x = some { handle := t.handle 3 x, chain := chain, sig := sig, prn := prn, irq := bitAt ((s.cmdOf 0x08 ring.val e).arg 22 1) 0, startSc := (s.scNow + 16368 + 81839) / 81840 * 81840, sc0 := (s.scNow + 16368 + 81839) / 81840 * 81840, phase := ph, code := ph, freq := toSigned 48 ((s.cmdOf 0x08 ring.val e).arg 40 8), rate := rate, intMs := ms, spacing := sp, secPh := sec } ∧
    t.get (GNB_CH_STAT.STATE x) = 1 ∧ t.get (GNB_CH_STAT.CHAIN x) = chain ∧ t.get (GNB_CH_STAT.SIG x) = sig ∧ t.getB (GNB_CH_STAT.PEND x) = false ∧ t.get (GNB_CH_STAT.INT_MS x) = ms ∧
    t.get (GNB_CH_STAT.SPACING x) = sp ∧ t.get (GNB_CH_STAT.PRN x) = prn % 256 ∧
    s.only [.dram, .rings, .gens, .gnb, .rcd, .cyc] (complFlds 0x08 ring.val ++ [wordAt (GNB_CH_STAT x), wordAt (GNB_CH_BOUND x), GNB_STATUS.CHANNELS, GNB_STATUS.SEARCHES]) t) ∧
  (∀ (ring : Fin 2) (e : Entry) (x d : Nat) (ch : Chan) (s : State), s.ready 0x08 ring.val 0 e → ring.val = 0 → s.checkHandle 3 s.chanLive e.handle.toNat = none → hIndex e.handle.toNat = x →
    tget s.gnb.chans x = some ch → ch.next < 2 ^ 31 → (s.cmdOf 0x08 ring.val e).arg 16 4 = ch.next + d → d < 1000 → (s.cmdOf 0x08 ring.val e).arg 20 1 = 1 → signExtended48 ((s.cmdOf 0x08 ring.val e).arg 24 8) = true → s.getB (GNB_CHAIN_CFG.EN ch.chain) = true → ch.steer = none →
    (d = 0 → s.gnsNow + 16 ≤ 2 * ch.nextSc) → ∃ t, exec (.gnbSteer ring e) s = .next t ∧ s.completed 0x08 ring.val e 0x00 e.handle.toNat t ∧ s.dramKept (s.complAddr 0x08 ring.val) 16 t ∧
    (∃ p, tget t.gnb.chans x = some { ch with steer := some p } ∧ p.target = ch.next + d ∧ p.what = 1 ∧ p.freq = toSigned 48 ((s.cmdOf 0x08 ring.val e).arg 24 8) ∧ p.taken = s.gnsNow ∧ p.late = false) ∧
    t.getB (GNB_CH_STAT.PEND x) = true ∧
    s.only [.dram, .rings, .gnb, .rcd, .cyc] (complFlds 0x08 ring.val ++ [wordAt (GNB_CH_STAT x), wordAt (GNB_CH_BOUND x)]) t) ∧
  (∀ (ring : Fin 2) (e : Entry) (x d : Nat) (ch : Chan) (s : State), s.ready 0x08 ring.val 0 e → ring.val = 0 → s.checkHandle 3 s.chanLive e.handle.toNat = none → hIndex e.handle.toNat = x →
    tget s.gnb.chans x = some ch → ch.next < 2 ^ 31 → 1 ≤ d → (s.cmdOf 0x08 ring.val e).arg 16 4 + d = ch.next → (s.cmdOf 0x08 ring.val e).arg 20 1 = 1 → signExtended48 ((s.cmdOf 0x08 ring.val e).arg 24 8) = true → s.getB (GNB_CHAIN_CFG.EN ch.chain) = true → ch.steer = none →
    s.reg SYS_DET_STATUS = 0#32 → ∃ t, exec (.gnbSteer ring e) s = .next t ∧ s.completed 0x08 ring.val e 0x00 e.handle.toNat t ∧ s.dramKept (s.complAddr 0x08 ring.val) 16 t ∧
    (∃ p, tget t.gnb.chans x = some { ch with steer := some p } ∧ p.late = true ∧ p.what = 1 ∧ p.freq = toSigned 48 ((s.cmdOf 0x08 ring.val e).arg 24 8)) ∧
    t.get GNB_CNT.LATE = min 65535 (s.get GNB_CNT.LATE + 1) ∧ t.getB SYS_DET_STATUS.GNB_STEER = true ∧ t.get64 SYS_DET_FIRST_LO SYS_DET_FIRST_HI = s.now ∧ s.raised 132 t ∧ s.raised 4 t ∧
    s.only [.dram, .rings, .gnb, .rcd, .cyc] (complFlds 0x08 ring.val ++ [wordAt (GNB_CH_STAT x), wordAt (GNB_CH_BOUND x), GNB_CNT.LATE, SYS_DET_STATUS.GNB_STEER, wordAt SYS_DET_FIRST_LO, wordAt SYS_DET_FIRST_HI] ++
      raiseFlds 132 ++ raiseFlds 4) t) ∧
  (∀ (ring : Fin 2) (e : Entry) (x : Nat) (s : State), s.ready 0x08 ring.val 0 e → ring.val = 0 → s.checkHandle 3 s.chanLive e.handle.toNat = none → hIndex e.handle.toNat = x →
    ∃ t, exec (.chDestroy ring e) s = .next t ∧ s.completed 0x08 ring.val e 0x00 e.handle.toNat t ∧ s.dramKept (s.complAddr 0x08 ring.val) 16 t ∧ t.gnb = { s.gnb with chans := tdel s.gnb.chans x, strobes := t.gnb.strobes } ∧
    t.gnb.strobes = s.gnb.strobes.map (fun u => if s.gnsNow ≤ 2 * u.sl then { u with chans := u.chans.filter fun y => decide (y.2.handle ≠ e.handle.toNat) } else u) ∧
    t.get (GNB_CH_STAT.STATE x) = 0 ∧ t.get GNB_STATUS.CHANNELS = (tdel s.gnb.chans x).length % 1024 ∧
    s.onlyBut [.latch, .dram, .rings, .gnb, .rcd, .cyc] (complFlds 0x08 ring.val ++ [GNB_STATUS.CHANNELS, GNB_STATUS.SEARCHES]) (GNB_CH_STAT x) 16 t) ∧
  (∀ (ring : Fin 2) (e : Entry) (x : Nat) (ch : Chan) (s : State), s.ready 0x08 ring.val 0 e → ring.val = 0 → s.checkHandle 3 s.chanLive e.handle.toNat = none → hIndex e.handle.toNat = x → tget s.gnb.chans x = some ch →
    (s.cmdOf 0x08 ring.val e).arg 16 1 ≤ 1 → ∃ t, exec (.chResolve ring e) s = .next t ∧ s.completed 0x08 ring.val e 0x00 e.handle.toNat t ∧ s.dramKept (s.complAddr 0x08 ring.val) 16 t ∧
    t.gnb = { s.gnb with chans := tput s.gnb.chans x { ch with resolves := ch.resolves ++ [(s.gnsNow, decide ((s.cmdOf 0x08 ring.val e).arg 16 1 = 1))] } } ∧
    s.only [.dram, .rings, .gnb, .rcd, .cyc] (complFlds 0x08 ring.val) t) ∧
  (∀ (x : Fin 512) (gain : BitVec 8) (n : Nat) (ch : Chan) (s : State), tget s.gnb.chans x.val = some ch → ch.next = 0 → ch.startSc ≤ s.scNow → ch.steer = none →
    ch.chain ≤ 3 → s.boundaryBefore x.val ch = false → s.getB (GNB_CHAIN_CFG.HOLD ch.chain) = false → n = s.scNow / 1024 - tgetD s.gnb.agcAt ch.chain 0 → ∃ t, exec (.channelBoundary x ch.next gain) s = .next t ∧ t.gnb.chans = tput s.gnb.chans x.val { ch with next := 1 } ∧ t.get (GNB_CH_STAT.STATE x.val) = 2 ∧
    t.reg (GNB_CH_BOUND x.val) = 0#32 ∧ t.get (GNB_CHAIN_STAT.GAIN ch.chain) = min 240 (max (s.get (GNB_CHAIN_STAT.GAIN ch.chain) - n) (min (s.get (GNB_CHAIN_STAT.GAIN ch.chain) + n) gain.toNat)) ∧
    s.only [.gnb] [wordAt (GNB_CH_STAT x.val), wordAt (GNB_CH_BOUND x.val), GNB_CHAIN_STAT.GAIN ch.chain] t) ∧
  (∀ (x : Fin 512) (gain : BitVec 8) (n : Nat) (ch : Chan) (s : State), tget s.gnb.chans x.val = some ch → ch.next ≠ 0 → ch.nextSc ≤ s.scNow → ch.steer = none → s.accFill < s.accMod / 2 →
    ch.chain ≤ 3 → s.boundaryBefore x.val ch = false → s.getB (GNB_CHAIN_CFG.HOLD ch.chain) = false → n = s.scNow / 1024 - tgetD s.gnb.agcAt ch.chain 0 → ∃ t, exec (.channelBoundary x ch.next gain) s = .next t ∧ t.get (GNB_CHAIN_STAT.GAIN ch.chain) = min 240 (max (s.get (GNB_CHAIN_STAT.GAIN ch.chain) - n) (min (s.get (GNB_CHAIN_STAT.GAIN ch.chain) + n) gain.toNat)) ∧
    memBytes t.dram (s.accBase + 128 * (s.get GNB_ACC_PI.PI % (s.accMod / 2))) 128 =
      accEntry ch { chan := ch.advance } ((List.range 7).map (ch.tapSum s.sc0Ltc ch.nextSc)) (s.sampleLtc ch.nextSc) (t.get (GNB_CHAIN_STAT.GAIN ch.chain)) (s.satIn ch.chain ch.sc0 (ch.nextSc - 1)) s.gnb.accGap
        (if s.gnb.accSeq = 0xFFFFFFFF then 1 else s.gnb.accSeq + 1) ∧
    s.dramKept (s.accBase + 128 * (s.get GNB_ACC_PI.PI % (s.accMod / 2))) 128 t ∧
    t.get GNB_ACC_PI.PI = (s.get GNB_ACC_PI.PI + 1) % s.accMod % 2 ^ 17 ∧ (tget t.gnb.chans x.val).map (·.next) = some (ch.next + 1) ∧ (tget t.gnb.chans x.val).map (·.sc0) = some ch.nextSc ∧
    (tget t.gnb.chans x.val).map (·.phase) = some ((ch.phase + (ch.nextSc - ch.sc0) * ch.rate) % sigMod ch.sig) ∧ (∀ k, k ≠ x.val → tget t.gnb.chans k = tget s.gnb.chans k) ∧
    t.get (GNB_CH_BOUND.BOUND x.val) = ch.next % 2 ^ 32 ∧
    s.only [.dram, .gnb, .rcd, .cyc] ([wordAt (GNB_CH_STAT x.val), wordAt (GNB_CH_BOUND x.val), GNB_CHAIN_STAT.GAIN ch.chain, GNB_ACC_PI.PI] ++ raiseFlds 130) t) ∧
  (∀ (x : Fin 512) (gain : BitVec 8) (ch : Chan) (s : State), tget s.gnb.chans x.val = some ch → ch.next ≠ 0 → ch.nextSc ≤ s.scNow → ch.steer = none → ch.chain ≤ 3 → s.boundaryBefore x.val ch = false →
    s.accMod / 2 ≤ s.accFill →
    ∃ t, exec (.channelBoundary x ch.next gain) s = .next t ∧ t.get GNB_ACC_DROP.DROP = min 65535 (s.get GNB_ACC_DROP.DROP + 1) ∧ t.gnb.accGap = true ∧ (s.get GNB_ACC_DROP.DROP = 0 → s.raised 131 t) ∧
    (tget t.gnb.chans x.val).map (·.next) = some (ch.next + 1) ∧ (∀ k, k ≠ x.val → tget t.gnb.chans k = tget s.gnb.chans k) ∧
    s.only [.gnb, .rcd, .cyc] ([wordAt (GNB_CH_STAT x.val), wordAt (GNB_CH_BOUND x.val), GNB_CHAIN_STAT.GAIN ch.chain, GNB_ACC_DROP.DROP] ++ raiseFlds 131) t) ∧
  (∀ (x : Fin 512) (n : Nat) (gain : BitVec 8) (ch : Chan) (s : State), tget s.gnb.chans x.val = some ch → (n ≠ ch.next ∨ s.scNow < ch.nextSc) → ∃ t, exec (.channelBoundary x n gain) s = .next t ∧ t = s) ∧
  (∀ (t0 : Nat) (s : State), s.gnb.accFrom = some t0 → s.getB GNB_CTRL.ENABLE = true → s.get GNB_ACC_CFG.TMO ≠ 0 → s.get GNB_ACC_CFG.TMO * 10000 ≤ s.since t0 → ∃ t, exec .accTimeout s = .next t ∧
    s.raised 130 t ∧ t.gnb = { s.gnb with accFrom := some s.now } ∧ s.only [.gnb, .rcd, .cyc] (raiseFlds 130) t) ∧
  (∀ s : State, s.msOn = true → s.gnb.lastNom < s.msNumber s.mtNow → ∃ t, exec .measStrobe s = .next t ∧ t.gnb.lastNom = s.gnb.lastNom + 1 ∧ t.gnb.skipped = 0 ∧ t.gnb.fwd = false ∧ t.gnb.back = false ∧
    t.gnb.strobes.length = s.gnb.strobes.length + 1 ∧ t.gnb.strobes.getLast?.map (·.ltc) = some s.now ∧ t.gnb.strobes.getLast?.map (·.nom) = some ((s.gnb.lastNom + 1) * s.msPeriod) ∧
    t.gnb.strobes.getLast?.map (·.mt) = some s.mtNow ∧ t.gnb.strobes.getLast?.map (·.sl) = some (s.latchSample s.now) ∧ t.gnb.strobes.getLast?.map (·.skipped) = some s.gnb.skipped ∧
    t.gnb.strobes.getLast?.map (·.chans) = some ((s.gnb.chans.filter fun c => decide (c.2.startSc ≤ s.latchSample s.now)).map fun c => (c.1, s.chanAt (s.latchSample s.now) c.2)) ∧ s.only [.gnb] [] t) ∧
  (∀ (st : Strobe) (rest : List Strobe) (s : State), s.gnb.strobes = st :: rest → st.ltcL ≤ s.now → s.msMod / 2 < s.msFill + st.chans.length + 1 → ∃ t, exec .measBlockWrite s = .next t ∧ t.gnb.strobes = rest ∧ t.gnb.msGap = true ∧
    t.gnb.skipped = s.gnb.skipped + st.skipped ∧ t.get GNB_MS_CNT.DROP = min 65535 (s.get GNB_MS_CNT.DROP + 1) ∧ (s.get GNB_MS_CNT.DROP = 0 → s.raised 145 t) ∧
    s.only [.gnb, .rcd, .cyc] (GNB_MS_CNT.DROP :: raiseFlds 145) t) ∧
  (∀ (st : Strobe) (rest : List Strobe) (s : State), s.gnb.strobes = st :: rest → st.ltcL ≤ s.now → st.chans = [] → s.msFill + 1 ≤ s.msMod / 2 → ∃ t, exec .measBlockWrite s = .next t ∧ t.gnb.strobes = rest ∧ t.gnb.msGap = false ∧
    memBytes t.dram (s.get64 GNB_MS_BASE_LO GNB_MS_BASE_HI + 64 * (s.get GNB_MS_PI.PI % (s.msMod / 2))) 64 =
      bytesLE 4 (if s.gnb.msSeq = 0xFFFFFFFF then 1 else s.gnb.msSeq + 1) ++ bytesLE 1 1 ++ bytesLE 1 (b2n st.fwd + 2 * b2n st.back + 4 * b2n s.gnb.msGap + 8 * st.state + 32 * st.src) ++ bytesLE 2 0 ++
      bytesLE 8 (fromSigned 64 st.nom) ++ bytesLE 8 st.ltc ++ bytesLE 8 (fromSigned 64 st.mt) ++ bytesLE 8 st.sl ++ bytesLE 8 st.ltcL ++ bytesLE 2 (min 0xFFFF st.skipped) ++ bytesLE 14 0 ∧
    s.dramKept (s.get64 GNB_MS_BASE_LO GNB_MS_BASE_HI + 64 * (s.get GNB_MS_PI.PI % (s.msMod / 2))) 64 t ∧ t.get GNB_MS_PI.PI = (s.get GNB_MS_PI.PI + 1) % s.msMod % 2 ^ 16 ∧ s.raised 144 t ∧
    s.only [.dram, .gnb, .rcd, .cyc] (GNB_MS_PI.PI :: raiseFlds 144) t)

/-- A link that is enabled and powered comes up in a gear from 1 to 5 and up to GEAR_MAX, or goes down, with source 167, GEAR 0 and no open frame; a power
short switches POC off (169); under 10 mA sets POC_OPEN, 10 mA clears it. CAM_LNK_CFG takes effect at once while CAM is enabled, GEAR_MAX apart; a
link out of service takes no enable. Corrected and lost headers count and raise 168 the first time, a lost one marks the open frame. A sensor
transaction starts on a link that is up, with its device, register and bytes, else sets IGN; its end clears BUSY, sets DONE, NACK or TIMEOUT and
raises 173, and a read leaves its data. Disabling CAM leaves links down, power off and no context, frame or pipeline at work; the rings, DRAM by their
completions, the recorder and the windows of EVT and CAM may change with it. Every other clause names the parts and fields that may differ. -/
def Obligations.CameraLinksAndSensorControlFollowChapter15 : Prop :=
  (∀ (l : Fin 4) (gear : Fin 8) (s : State), s.getB CAM_CTRL.ENABLE = true → s.getB (CAM_LNK_CFG.EN l.val) = true → s.getB (CAM_LNK_CFG.POC_EN l.val) = true → 1 ≤ gear.val →
    gear.val ≤ 5 → gear.val ≤ s.get (CAM_LNK_CFG.GEAR_MAX l.val) → s.getB (CAM_LNK_STAT.UP l.val) = false → ∃ t, exec (.camLink l true gear) s = .next t ∧ t.getB (CAM_LNK_STAT.UP l.val) = true ∧
    t.get (CAM_LNK_STAT.GEAR l.val) = gear.val ∧ s.raised 167 t ∧ s.only [.rcd, .cyc] ([CAM_LNK_STAT.UP l.val, CAM_LNK_STAT.GEAR l.val] ++ camShowFlds ++ raiseFlds 167) t) ∧
  (∀ (l : Fin 4) (gear : Fin 8) (s : State), s.getB (CAM_LNK_STAT.UP l.val) = true → ∃ t, exec (.camLink l false gear) s = .next t ∧ t.getB (CAM_LNK_STAT.UP l.val) = false ∧
    t.get (CAM_LNK_STAT.GEAR l.val) = 0 ∧ s.raised 167 t ∧ (∀ a, a < 4 → tget t.cam.openSrc (4 * l.val + a) = none) ∧ t.cam.ctxs = s.cam.ctxs ∧
    s.only [.rcd, .cyc, .cam] ([CAM_LNK_STAT.UP l.val, CAM_LNK_STAT.GEAR l.val] ++ camShowFlds ++ raiseFlds 167) t) ∧
  (∀ (l : Fin 4) (s : State), s.getB (CAM_LNK_STAT.POC_ON l.val) = true → s.getB (CAM_LNK_STAT.POC_SHORT l.val) = false → ∃ t, exec (.pocShort l) s = .next t ∧ t.getB (CAM_LNK_STAT.POC_ON l.val) = false ∧
    t.getB (CAM_LNK_STAT.POC_SHORT l.val) = true ∧ t.getB (CAM_LNK_STAT.POC_OPEN l.val) = false ∧ t.get (CAM_LNK_STAT.POC_MA l.val) = 0 ∧ s.raised 169 t ∧
    s.only [.rcd, .cyc] ([CAM_LNK_STAT.POC_ON l.val, CAM_LNK_STAT.POC_SHORT l.val, CAM_LNK_STAT.POC_OPEN l.val, CAM_LNK_STAT.POC_MA l.val] ++ raiseFlds 169) t) ∧
  (∀ (l : Fin 4) (ma : BitVec 9) (s : State), s.getB (CAM_LNK_STAT.POC_ON l.val) = true → s.getB (CAM_LNK_STAT.POC_OPEN l.val) = false → ma.toNat < 10 → ∃ t, exec (.pocOpen l ma) s = .next t ∧
    t.getB (CAM_LNK_STAT.POC_OPEN l.val) = true ∧ t.get (CAM_LNK_STAT.POC_MA l.val) = ma.toNat ∧ s.raised 169 t ∧
    s.only [.rcd, .cyc] ([CAM_LNK_STAT.POC_OPEN l.val, CAM_LNK_STAT.POC_MA l.val] ++ raiseFlds 169) t) ∧
  (∀ (l : Fin 4) (ma : BitVec 9) (s : State), s.getB (CAM_LNK_STAT.POC_ON l.val) = true → 10 ≤ ma.toNat → ∃ t, exec (.pocOpenClear l ma) s = .next t ∧
    t.getB (CAM_LNK_STAT.POC_OPEN l.val) = false ∧ t.get (CAM_LNK_STAT.POC_MA l.val) = ma.toNat ∧ s.only [] [CAM_LNK_STAT.POC_OPEN l.val, CAM_LNK_STAT.POC_MA l.val] t) ∧
  (∀ (core : Fin 8) (l : Fin 4) (value : Word) (s : State), s.closed (CAM_LNK_CFG l.val) = false → s.getB CAM_CTRL.ENABLE = true → s.lnkInSvc l.val = true → bitAt value.toNat 31 = true → ∃ t, exec (.linkCfgWrite core l value) s = .next t ∧
    t.getB (CAM_LNK_CFG.EN l.val) = true ∧ t.getB (CAM_LNK_CFG.POC_EN l.val) = bitAt value.toNat 30 ∧ t.get (CAM_LNK_CFG.VC_EN l.val) = bitsOf value.toNat 0 4 ∧
    t.getB (CAM_LNK_STAT.POC_ON l.val) = (if s.getB (CAM_LNK_CFG.POC_EN l.val) = bitAt value.toNat 30 then s.getB (CAM_LNK_STAT.POC_ON l.val) else bitAt value.toNat 30) ∧
    s.only [.access] [CAM_LNK_CFG.EN l.val, CAM_LNK_CFG.POC_EN l.val, CAM_LNK_CFG.VC_EN l.val, CAM_LNK_STAT.POC_ON l.val, CAM_LNK_STAT.POC_OPEN l.val, CAM_LNK_STAT.POC_MA l.val] t) ∧
  (∀ (core : Fin 8) (l : Fin 4) (value : Word) (s : State), s.closed (CAM_LNK_CFG l.val) = false → s.getB CAM_CTRL.ENABLE = false → ∃ t, exec (.linkCfgWrite core l value) s = .next t ∧
    t.getB (CAM_LNK_CFG.EN l.val) = bitAt value.toNat 31 ∧ t.getB (CAM_LNK_CFG.POC_EN l.val) = bitAt value.toNat 30 ∧ t.get (CAM_LNK_CFG.GEAR_MAX l.val) = bitsOf value.toNat 8 3 ∧
    t.get (CAM_LNK_CFG.VC_EN l.val) = bitsOf value.toNat 0 4 ∧
    s.only [.access] [CAM_LNK_CFG.EN l.val, CAM_LNK_CFG.POC_EN l.val, CAM_LNK_CFG.GEAR_MAX l.val, CAM_LNK_CFG.VC_EN l.val] t) ∧
  (∀ (core : Fin 8) (l : Fin 4) (value : Word) (s : State), s.closed (CAM_LNK_CFG l.val) = false → s.getB CAM_CTRL.ENABLE = true → s.lnkInSvc l.val = false → (bitAt value.toNat 31 = true ∨ bitAt value.toNat 30 = true) →
    ∃ t, exec (.linkCfgWrite core l value) s = .next t ∧ s.only [.access] [] t) ∧
  (∀ (src : Fin 16) (s : State), s.getB (CAM_LNK_STAT.UP (src.val / 4)) = true → ∃ t, exec (.csiPacket src 1) s = .next t ∧
    t.get (CAM_LNK_ERR.ECC_FIX (src.val / 4)) = min 255 (s.get (CAM_LNK_ERR.ECC_FIX (src.val / 4)) + 1) ∧ (s.get (CAM_LNK_ERR.ECC_FIX (src.val / 4)) = 0 → s.raised 168 t) ∧
    s.only [.rcd, .cyc] (CAM_LNK_ERR.ECC_FIX (src.val / 4) :: raiseFlds 168) t) ∧
  (∀ (src : Fin 16) (k : Nat) (f : CamFrame) (s : State), s.getB (CAM_LNK_STAT.UP (src.val / 4)) = true → tget s.cam.openSrc src.val = some (some k) → tget s.cam.frames k = some f → ∃ t, exec (.csiPacket src 2) s = .next t ∧
    t.get (CAM_LNK_ERR.HDR_LOST (src.val / 4)) = min 255 (s.get (CAM_LNK_ERR.HDR_LOST (src.val / 4)) + 1) ∧ (s.get (CAM_LNK_ERR.HDR_LOST (src.val / 4)) = 0 → s.raised 168 t) ∧
    tget t.cam.frames k = some (f.flag 11) ∧ s.only [.cam, .rcd, .cyc] (CAM_LNK_ERR.HDR_LOST (src.val / 4) :: raiseFlds 168) t) ∧
  (∀ (src : Fin 16) (s : State), s.getB (CAM_LNK_STAT.UP (src.val / 4)) = true → tget s.cam.openSrc src.val = none → ∃ t, exec (.csiPacket src 2) s = .next t ∧
    t.get (CAM_LNK_ERR.HDR_LOST (src.val / 4)) = min 255 (s.get (CAM_LNK_ERR.HDR_LOST (src.val / 4)) + 1) ∧ (s.get (CAM_LNK_ERR.HDR_LOST (src.val / 4)) = 0 → s.raised 168 t) ∧
    s.only [.rcd, .cyc] (CAM_LNK_ERR.HDR_LOST (src.val / 4) :: raiseFlds 168) t) ∧
  (∀ (core : Fin 8) (l : Fin 4) (value : Word) (s : State), s.closed (CAM_LNK_CCI_CMD l.val) = false → bitAt value.toNat 31 = true → s.getB (CAM_LNK_CCI_STAT.BUSY l.val) = false → s.getB (CAM_LNK_STAT.UP l.val) = true →
    ∃ t, exec (.cciStart core l value) s = .next t ∧ t.getB (CAM_LNK_CCI_STAT.BUSY l.val) = true ∧ t.getB (CAM_LNK_CCI_STAT.DONE l.val) = false ∧ t.getB (CAM_LNK_CCI_STAT.NACK l.val) = false ∧
    t.getB (CAM_LNK_CCI_STAT.TIMEOUT l.val) = false ∧ tget t.cam.cci l.val = some { read := bitAt value.toNat 30, n := bitsOf value.toNat 28 2 + 1, dev := bitsOf value.toNat 16 7, target := bitsOf value.toNat 0 16, data := bytesLE (bitsOf value.toNat 28 2 + 1) (s.reg (CAM_LNK_CCI_DATA l.val)).toNat } ∧
    s.only [.access, .cam] [CAM_LNK_CCI_STAT.BUSY l.val, CAM_LNK_CCI_STAT.DONE l.val, CAM_LNK_CCI_STAT.NACK l.val, CAM_LNK_CCI_STAT.TIMEOUT l.val] t) ∧
  (∀ (core : Fin 8) (l : Fin 4) (value : Word) (s : State), s.closed (CAM_LNK_CCI_CMD l.val) = false → bitAt value.toNat 31 = true → (s.getB (CAM_LNK_CCI_STAT.BUSY l.val) = true ∨ s.getB (CAM_LNK_STAT.UP l.val) = false) →
    ∃ t, exec (.cciStart core l value) s = .next t ∧ t.getB (CAM_LNK_CCI_STAT.IGN l.val) = true ∧ s.only [.access] [CAM_LNK_CCI_STAT.IGN l.val] t) ∧
  (∀ (l : Fin 4) (result : Fin 3) (data : Word) (x : CciTx) (s : State), tget s.cam.cci l.val = some x → x.n ≤ 4 → ∃ t, exec (.cciEnd l result data) s = .next t ∧
    t.getB (CAM_LNK_CCI_STAT.BUSY l.val) = false ∧ (result = 0 → t.getB (CAM_LNK_CCI_STAT.DONE l.val) = true) ∧ (result = 1 → t.getB (CAM_LNK_CCI_STAT.NACK l.val) = true) ∧
    (result = 2 → t.getB (CAM_LNK_CCI_STAT.TIMEOUT l.val) = true) ∧ s.raised 173 t ∧ tget t.cam.cci l.val = none ∧
    (x.read = true → result = 0 → bitsOf (t.reg (CAM_LNK_CCI_DATA l.val)).toNat 0 (8 * x.n) = data.toNat % 2 ^ (8 * x.n)) ∧
    s.only [.cam, .rcd, .cyc] ([CAM_LNK_CCI_STAT.BUSY l.val, ⟨CAM_LNK_CCI_STAT l.val, result.val + 1, 1⟩] ++ (if x.read = true ∧ result = 0 then [⟨CAM_LNK_CCI_DATA l.val, 0, 8 * x.n⟩] else []) ++ raiseFlds 173) t) ∧
  (∀ s : State, s.getB CAM_CTRL.ENABLE = true → ∃ t, exec .camDisable s = .next t ∧ t.getB CAM_CTRL.ENABLE = false ∧ t.cam = { nextFrame := s.cam.nextFrame } ∧ t.get CAM_STATUS.CONTEXTS = 0 ∧ t.get CAM_STATUS.LINKS_UP = 0 ∧
    (∀ l, l < 4 → t.getB (CAM_LNK_STAT.UP l) = false ∧ t.getB (CAM_LNK_STAT.POC_ON l) = false ∧ t.getB (CAM_LNK_CCI_STAT.BUSY l) = false) ∧
    (∀ x, x < 32 → t.getB (CAM_CTX_STAT.LIVE x) = false) ∧ (∀ p, p < 8 → t.getB (CAM_PL_STAT.BUSY p) = false ∧ t.get (CAM_PL_STAT.WAITING p) = 0) ∧
    s.within [.dram, .cyc, .rings, .cam, .rcd] (some [0xC1, 0xC9]) t)

/-- A frame start of a context without strobe opens its next frame, next in the context's CSEQ, with SOF_LTC and the oldest buffer, waiting for its
pipeline; without a loaded FEN its FEN output is dropped (170); with no context it counts NOCTX (171). A line of WIDTH pixels is stored with its
stamp; one past HEIGHT counts in EXCESS_LINES; a bad CRC counts (168), also of a packet of another type or channel, which counts in OTHER. FE or FTO
closes the frame, an FE without a frame counts as orphan. A running frame's next line leaves the store, stages 0 to 2 act on it, and the row above
goes to the buffer after stages 3 to 5 (R336; free values where R336 leaves pixels open); a row's stamp goes to LTAB. An idle pipeline takes the
earliest waiting frame; one whose frame is done releases it (its last rows, FEN's streams, DRAM, events and the windows of EVT, CAM and FEN may change
with it). A completed frame's record (Table 15-7) stands at PI with CSEQ, or is dropped when the ring is full (162). Every other clause names the
parts, fields and bytes that may differ. -/
def Obligations.FramesOpenFillPassTheirPipelineAndLeaveARecord : Prop :=
  (∀ (src : Fin 16) (no : BitVec 16) (x b j : Nat) (bs : List Nat) (c : CamCtx) (s : State), s.getB CAM_CTRL.ENABLE = true → s.getB (CAM_LNK_STAT.UP (src.val / 4)) = true →
    bitAt (s.get (CAM_LNK_CFG.VC_EN (src.val / 4))) (src.val % 4) = true → tget s.cam.openSrc src.val = none →
    (s.cam.ctxs.find? fun e => e.2.src = src.val && e.2.dying.isNone && no.toNat % e.2.fselMod = e.2.fsel) = some (x, c) → c.stb = 0xFF → c.ofmt ≠ 0 → c.bufs = b :: bs → (c.fen = 0 ∨ s.loaded 4 = true ∧ s.busy 4 = false) →
    (s.camPipe c.pl).run = some j → ∃ t, exec (.frameStart src no) s = .next t ∧ tget t.cam.openSrc src.val = some (some s.cam.nextFrame) ∧
    tget t.cam.frames s.cam.nextFrame = some { ctx := x, no := no.toNat, pl := c.pl, fsAt := s.now, sof := s.now - c.roOfs, st := .waiting, flags := (if c.newPal = true then 2 ^ 13 else 0), buf := some b, cseq := (c.cseq + 1) % 2 ^ 32, fen := decide (c.fen ≠ 0), palAddr := c.palAddr, palHdr := c.palHdr } ∧
    tget t.cam.ctxs x = some { c with newPal := false, cseq := (c.cseq + 1) % 2 ^ 32, bufs := bs } ∧ t.cam.nextFrame = s.cam.nextFrame + 1 ∧ s.only [.cam] camShowFlds t) ∧
  (∀ (src : Fin 16) (no : BitVec 16) (x b j : Nat) (bs : List Nat) (c : CamCtx) (s : State), s.getB CAM_CTRL.ENABLE = true → s.getB (CAM_LNK_STAT.UP (src.val / 4)) = true →
    bitAt (s.get (CAM_LNK_CFG.VC_EN (src.val / 4))) (src.val % 4) = true → tget s.cam.openSrc src.val = none →
    (s.cam.ctxs.find? fun e => e.2.src = src.val && e.2.dying.isNone && no.toNat % e.2.fselMod = e.2.fsel) = some (x, c) → c.stb = 0xFF → c.ofmt ≠ 0 → c.bufs = b :: bs → c.newPal = false →
    c.fen ≠ 0 → s.loaded 4 = false → (s.camPipe c.pl).run = some j → ∃ t, exec (.frameStart src no) s = .next t ∧
    tget t.cam.frames s.cam.nextFrame = some { ctx := x, no := no.toNat, pl := c.pl, fsAt := s.now, sof := s.now - c.roOfs, st := .waiting, flags := 2 ^ frFENDROP, buf := some b, cseq := (c.cseq + 1) % 2 ^ 32, fen := false, palAddr := c.palAddr, palHdr := c.palHdr } ∧
    t.get CAM_FEN_DROP.FRAMES = min 65535 (s.get CAM_FEN_DROP.FRAMES + 1) ∧ s.raised 170 t ∧ s.only [.cam, .rcd, .cyc] (CAM_FEN_DROP.FRAMES :: camShowFlds ++ raiseFlds 170) t) ∧
  (∀ (src : Fin 16) (no : BitVec 16) (s : State), s.getB CAM_CTRL.ENABLE = true → s.getB (CAM_LNK_STAT.UP (src.val / 4)) = true →
    bitAt (s.get (CAM_LNK_CFG.VC_EN (src.val / 4))) (src.val % 4) = true → tget s.cam.openSrc src.val = none →
    (s.cam.ctxs.find? fun e => e.2.src = src.val && e.2.dying.isNone && no.toNat % e.2.fselMod = e.2.fsel) = none → ∃ t, exec (.frameStart src no) s = .next t ∧
    tget t.cam.openSrc src.val = some none ∧ t.get (CAM_LNK_CNT.NOCTX (src.val / 4)) = min 255 (s.get (CAM_LNK_CNT.NOCTX (src.val / 4)) + 1) ∧ s.raised 171 t ∧ t.cam.frames = s.cam.frames ∧
    s.only [.cam, .rcd, .cyc] (CAM_LNK_CNT.NOCTX (src.val / 4) :: camShowFlds ++ raiseFlds 171) t) ∧
  (∀ (src : Fin 16) (k : Nat) (f : CamFrame) (s : State), s.getB CAM_CTRL.ENABLE = true → s.getB (CAM_LNK_STAT.UP (src.val / 4)) = true →
    bitAt (s.get (CAM_LNK_CFG.VC_EN (src.val / 4))) (src.val % 4) = true → tget s.cam.openSrc src.val = some (some k) → tget s.cam.frames k = some f → ∃ t, exec (.frameEnd src) s = .next t ∧
    tget t.cam.openSrc src.val = none ∧ tget t.cam.frames k = some { f with closed := some s.now } ∧ t.cam.ctxs = s.cam.ctxs ∧ s.only [.cam] camShowFlds t) ∧
  (∀ (src : Fin 16) (s : State), s.getB CAM_CTRL.ENABLE = true → s.getB (CAM_LNK_STAT.UP (src.val / 4)) = true →
    bitAt (s.get (CAM_LNK_CFG.VC_EN (src.val / 4))) (src.val % 4) = true → tget s.cam.openSrc src.val = none → ∃ t, exec (.frameEnd src) s = .next t ∧
    t.get (CAM_LNK_CNT.ORPHAN (src.val / 4)) = min 255 (s.get (CAM_LNK_CNT.ORPHAN (src.val / 4)) + 1) ∧ s.only [] [CAM_LNK_CNT.ORPHAN (src.val / 4)] t) ∧
  (∀ (src : Fin 16) (dt : BitVec 6) (payload : List Byte) (k : Nat) (f : CamFrame) (c : CamCtx) (s : State), s.getB CAM_CTRL.ENABLE = true → s.getB (CAM_LNK_STAT.UP (src.val / 4)) = true →
    bitAt (s.get (CAM_LNK_CFG.VC_EN (src.val / 4))) (src.val % 4) = true → dtBits dt.toNat ≠ 0 → tget s.cam.openSrc src.val = some (some k) → tget s.cam.frames k = some f → s.camCtx f.ctx = some c →
    f.lines < c.height → linePixels c.dt payload = c.width → (f.st = .waiting ∨ f.st = .running) → s.storeUsed (c.src / 4) + c.lineUnits ≤ 4194304 →
    ∃ t, exec (.linePacket src dt payload true) s = .next t ∧ tget t.cam.frames k = some { f with lines := f.lines + 1, store := f.store ++ [some payload], stamps := tput f.stamps f.lines (s.now - c.roOfs) } ∧
    t.cam.ctxs = s.cam.ctxs ∧ s.only [.cam] camShowFlds t) ∧
  (∀ (src : Fin 16) (dt : BitVec 6) (payload : List Byte) (k : Nat) (f : CamFrame) (c : CamCtx) (s : State), s.getB CAM_CTRL.ENABLE = true → s.getB (CAM_LNK_STAT.UP (src.val / 4)) = true →
    bitAt (s.get (CAM_LNK_CFG.VC_EN (src.val / 4))) (src.val % 4) = true → dtBits dt.toNat ≠ 0 → tget s.cam.openSrc src.val = some (some k) → tget s.cam.frames k = some f → s.camCtx f.ctx = some c →
    c.height ≤ f.lines → ∃ t, exec (.linePacket src dt payload true) s = .next t ∧ tget t.cam.frames k = some { f.flag 1 with excess := min 0xFFFF (f.excess + 1) } ∧ s.only [.cam] [] t) ∧
  (∀ (src : Fin 16) (dt : BitVec 6) (payload : List Byte) (s : State), s.getB CAM_CTRL.ENABLE = true → s.getB (CAM_LNK_STAT.UP (src.val / 4)) = true →
    bitAt (s.get (CAM_LNK_CFG.VC_EN (src.val / 4))) (src.val % 4) = true → dtBits dt.toNat ≠ 0 → tget s.cam.openSrc src.val = some none → ∃ t, exec (.linePacket src dt payload false) s = .next t ∧
    t.get (CAM_LNK_ERR.CRC (src.val / 4)) = min 65535 (s.get (CAM_LNK_ERR.CRC (src.val / 4)) + 1) ∧ (s.get (CAM_LNK_ERR.CRC (src.val / 4)) = 0 → s.raised 168 t) ∧
    s.only [.rcd, .cyc] (CAM_LNK_ERR.CRC (src.val / 4) :: raiseFlds 168) t) ∧
  (∀ (src : Fin 16) (dt : BitVec 6) (payload : List Byte) (crcOk : Bool) (s : State), s.getB CAM_CTRL.ENABLE = true → s.getB (CAM_LNK_STAT.UP (src.val / 4)) = true →
    (bitAt (s.get (CAM_LNK_CFG.VC_EN (src.val / 4))) (src.val % 4) = false ∨ dtBits dt.toNat = 0) → ∃ t, exec (.linePacket src dt payload crcOk) s = .next t ∧
    t.get (CAM_LNK_CNT.OTHER (src.val / 4)) = min 255 (s.get (CAM_LNK_CNT.OTHER (src.val / 4)) + 1) ∧
    (crcOk = false → t.get (CAM_LNK_ERR.CRC (src.val / 4)) = min 65535 (s.get (CAM_LNK_ERR.CRC (src.val / 4)) + 1) ∧ (s.get (CAM_LNK_ERR.CRC (src.val / 4)) = 0 → s.raised 168 t)) ∧
    (if crcOk = true then s.only [] [CAM_LNK_CNT.OTHER (src.val / 4)] t else s.only [.rcd, .cyc] (CAM_LNK_CNT.OTHER (src.val / 4) :: CAM_LNK_ERR.CRC (src.val / 4) :: raiseFlds 168) t)) ∧
  (∀ (src : Fin 16) (k : Nat) (f : CamFrame) (c : CamCtx) (s : State), tget s.cam.openSrc src.val = some (some k) → tget s.cam.frames k = some f → s.camCtx f.ctx = some c → c.fto ≠ 0 → c.fto * 1000000 ≤ s.since f.fsAt →
    ∃ t, exec (.frameTimeout src) s = .next t ∧ tget t.cam.openSrc src.val = none ∧ tget t.cam.frames k = some ({ f with closed := some s.now }.flag 8) ∧ t.cam.ctxs = s.cam.ctxs ∧ s.only [.cam] camShowFlds t) ∧
  (∀ (p : Fin 8) (k : Nat) (f : CamFrame) (c : CamCtx) (line : List Byte) (rest : List (Option (List Byte))) (s : State), (s.camPipe p.val).run = some k → tget s.cam.frames k = some f → s.camCtx f.ctx = some c →
    f.store = some line :: rest → (s.camPipe p.val).readyAt ≤ s.now → f.entered = 0 → f.pal.runs 1 c.dt c.cfa = false → ∃ t, exec (.pipelineLine p) s = .next t ∧
    tget t.cam.frames k = some { f with store := rest, entered := 1, tabs := s.palTables f.pal c.dt c.cfa, firstIn := some (f.firstIn.getD s.now), win := (if f.win.length < 2 then f.win else f.win.drop 1) ++ [frontStages f.pal (s.palTables f.pal c.dt c.cfa) c.dt c.cfa c.width c.height 0 (fun i => Config.freeValue (s.free + i)) (rawRow c.dt c.width line)] } ∧
    t.camPipe p.val = { s.camPipe p.val with readyAt := s.now + camNs (ceilDiv c.width 2 + 32) } ∧ t.free = s.free + c.width ∧ s.only [.cam, .free] camShowFlds t) ∧
  (∀ (p : Fin 8) (k b : Nat) (f : CamFrame) (c : CamCtx) (line : List Byte) (a : PixRow) (bytes : List Byte) (rest : List (Option (List Byte))) (s : State), (s.camPipe p.val).run = some k →
    tget s.cam.frames k = some f → s.camCtx f.ctx = some c → f.store = some line :: rest → (s.camPipe p.val).readyAt ≤ s.now → f.entered = 1 → f.win = [a] → f.undef = false →
    f.tabs = s.palTables f.pal c.dt c.cfa → f.fen = false → f.buf = some b → c.ltab = false →
    bytes = rowBytes c.ofmt (backStages f.pal f.tabs c.dt c.cfa c.width 0 (some (frontStages f.pal f.tabs c.dt c.cfa c.width c.height 1 (fun i => Config.freeValue (s.free + i)) (rawRow c.dt c.width line))) (some a) (some (frontStages f.pal f.tabs c.dt c.cfa c.width c.height 1 (fun i => Config.freeValue (s.free + i)) (rawRow c.dt c.width line))) (fun i => Config.freeValue (s.free + c.width + i))) →
    s.inWins 0x09 b bytes.length = true → ∃ t, exec (.pipelineLine p) s = .next t ∧ memBytes t.dram b bytes.length = bytes ∧ s.dramKept b bytes.length t ∧
    (tget t.cam.frames k).map (·.entered) = some 2 ∧ (tget t.cam.frames k).map (·.store) = some rest ∧ s.only [.cam, .free, .dram] camShowFlds t) ∧
  (∀ (k y b at0 : Nat) (above here below : Option PixRow) (f : CamFrame) (c : CamCtx) (s : State), tget s.cam.frames k = some f → s.camCtx f.ctx = some c → f.buf = some b → c.ltab = true → tget f.stamps y = some at0 →
    s.inWins 0x09 (b + c.stride f.pal * c.height + 8 * y) 8 = true → memBytes (s.putRow k y above here below).dram (b + c.stride f.pal * c.height + 8 * y) 8 = bytesLE 8 at0) ∧
  (∀ (p : Fin 8) (k : Nat) (f : CamFrame) (s : State), (s.camPipe p.val).run = none → s.pipeNext p.val = some k → tget s.cam.frames k = some f → ∃ t, exec (.pipelineSwitch p) s = .next t ∧
    tget t.cam.frames k = some { f with st := .running } ∧ t.camPipe p.val = { run := some k, readyAt := s.now + (if (s.camPipe p.val).last = some (s.handle 4 f.ctx) then 2000 else 12000), last := some (s.handle 4 f.ctx) } ∧
    t.getB (CAM_PL_STAT.BUSY p.val) = true ∧ t.get (CAM_PL_STAT.CTX p.val) = f.ctx % 32 ∧ s.only [.cam] camShowFlds t) ∧
  (∀ (p : Fin 8) (k : Nat) (f : CamFrame) (c : CamCtx) (s : State), (s.camPipe p.val).run = some k → tget s.cam.frames k = some f → s.camCtx f.ctx = some c → f.store = [] → (s.camPipe p.val).readyAt ≤ s.now →
    (f.closed.isSome = true ∨ c.height ≤ f.entered) → ∃ t, exec (.pipelineSwitch p) s = .next t ∧ (tget t.cam.frames k).map (·.st) = some (.released (s.now + 667)) ∧
    t.get (CAM_PL_STAT.FRAMES p.val) = (s.get (CAM_PL_STAT.FRAMES p.val) + 1) % 65536 ∧ (t.camPipe p.val).run ≠ some k ∧
    s.within [.dram, .free, .cyc, .cam, .fen, .rcd] (some [0xC1, 0xC9, 0xCA]) t) ∧
  (∀ (k d : Nat) (f : CamFrame) (c : CamCtx) (s : State), s.cam.frames = [(k, f)] → f.dueAt = some d → d ≤ s.now → s.camCtx f.ctx = some c → f.fen = false → s.frFill < s.frMod / 2 → c.dying = none → f.lines = c.height →
    f.flags = 0 → s.cam.recGap = false → f.ctx < 32 → ∃ t, exec .camFrame s = .next t ∧ t.cam.frames = [] ∧
    memBytes t.dram (s.get64 CAM_FR_BASE_LO CAM_FR_BASE_HI + 64 * (s.get CAM_FR_PI.PI % (s.frMod / 2))) 64 =
      frameRecord (s.handle 4 f.ctx) (if s.cam.recSeq = 0xFFFFFFFF then 1 else s.cam.recSeq + 1) c f ∧
    s.dramKept (s.get64 CAM_FR_BASE_LO CAM_FR_BASE_HI + 64 * (s.get CAM_FR_PI.PI % (s.frMod / 2))) 64 t ∧ t.get CAM_FR_PI.PI = (s.get CAM_FR_PI.PI + 1) % s.frMod % 2 ^ 15 ∧
    t.get (CAM_CTX_CSEQ.CSEQ f.ctx) = f.cseq % 2 ^ 32 ∧ (c.irq = true → s.raised 161 t) ∧ s.only [.dram, .cam, .rcd, .cyc] (CAM_FR_PI.PI :: camShowFlds ++ raiseFlds 161) t) ∧
  (∀ (k d : Nat) (f : CamFrame) (c : CamCtx) (s : State), s.cam.frames = [(k, f)] → f.dueAt = some d → d ≤ s.now → s.camCtx f.ctx = some c → f.fen = false → s.frMod / 2 ≤ s.frFill → c.dying = none →
    ∃ t, exec .camFrame s = .next t ∧ t.cam.frames = [] ∧ t.get CAM_FR_DROP.DROP = min 65535 (s.get CAM_FR_DROP.DROP + 1) ∧ t.cam.recGap = true ∧ s.raised 162 t ∧
    s.only [.cam, .rcd, .cyc] (CAM_FR_DROP.DROP :: camShowFlds ++ raiseFlds 162) t)

/-- A CTX_CREATE with no code of R340 makes the lowest free context with its arguments and a copy of its Palette header and completes with the new handle;
with a code it completes with the lowest and handle 0. CTX_DESTROY of a context without frames frees it and completes; with a waiting frame it drops
that and waits in flight. CTX_PALETTE puts a Palette in force from the next frame, or completes with 0x05 or 0x0E. BUF_GIVE adds a buffer that is
64-byte aligned and in a window, or completes with 0x22 at 16. CTX_BIND moves the context to the pipeline named, 0xFF for the source's default, within
the load limit. Every clause names the parts, fields and bytes that may differ. -/
def Obligations.CameraContextCommandsFollowChapter15 : Prop :=
  (∀ (ring : Fin 1) (e : Entry) (x : Nat) (s : State), s.ready 0x09 ring.val 0 e → opCtxCreate.lowestOfCodes (s.ctxCodes (s.cmdOf 0x09 ring.val e)) = none → tfree s.cam.ctxs 32 = some x → ∃ t, exec (.ctxCreate ring e) s = .next t ∧
    s.completed 0x09 ring.val e 0x00 (t.handle 4 x) t ∧ s.dramKept (s.complAddr 0x09 ring.val) 16 t ∧ t.gen 4 x = (s.gen 4 x + 1) % 1024 ∧
    tget t.cam.ctxs x = some { src := (s.cmdOf 0x09 ring.val e).arg 16 1, dt := (s.cmdOf 0x09 ring.val e).arg 17 1, cfa := (s.cmdOf 0x09 ring.val e).arg 18 1, pl := (if (s.cmdOf 0x09 ring.val e).arg 19 1 = 0xFF then s.defaultPl ((s.cmdOf 0x09 ring.val e).arg 16 1) else (s.cmdOf 0x09 ring.val e).arg 19 1), fselMod := (s.cmdOf 0x09 ring.val e).arg 20 1, fsel := (s.cmdOf 0x09 ring.val e).arg 21 1, irq := bitAt ((s.cmdOf 0x09 ring.val e).arg 22 1) 0, ltab := bitAt ((s.cmdOf 0x09 ring.val e).arg 22 1) 1, ofmt := bitsOf ((s.cmdOf 0x09 ring.val e).arg 22 1) 2 2, stb := (s.cmdOf 0x09 ring.val e).arg 23 1, width := (s.cmdOf 0x09 ring.val e).arg 24 2, height := (s.cmdOf 0x09 ring.val e).arg 26 2, maxFps := (s.cmdOf 0x09 ring.val e).arg 28 2, fto := (s.cmdOf 0x09 ring.val e).arg 30 2, roOfs := (s.cmdOf 0x09 ring.val e).arg 32 4, stbWin := (s.cmdOf 0x09 ring.val e).arg 36 2, palAddr := (s.cmdOf 0x09 ring.val e).arg 40 8, palHdr := memBytes s.dram ((s.cmdOf 0x09 ring.val e).arg 40 8) 256, fen := (s.cmdOf 0x09 ring.val e).arg 48 4 } ∧
    t.getB (CAM_CTX_STAT.LIVE x) = true ∧ t.get (CAM_CTX_STAT.SRC x) = (s.cmdOf 0x09 ring.val e).arg 16 1 ∧ t.get (CAM_CTX_STAT.BUFQ x) = 0 ∧ t.reg (CAM_CTX_CSEQ x) = 0#32 ∧
    t.get (CAM_CTX_STAT.PAL_SKIP x) = 0 ∧ s.only [.latch, .dram, .rings, .gens, .cam, .rcd, .cyc] (complFlds 0x09 ring.val ++ camShowFlds) t) ∧
  (∀ (ring : Fin 1) (e : Entry) (code : Nat) (s : State), s.ready 0x09 ring.val 0 e → opCtxCreate.lowestOfCodes (s.ctxCodes (s.cmdOf 0x09 ring.val e)) = some code → ∃ t, exec (.ctxCreate ring e) s = .next t ∧
    s.completed 0x09 ring.val e code 0 t ∧ s.dramKept (s.complAddr 0x09 ring.val) 16 t ∧ s.only [.dram, .rings, .rcd, .cyc] (complFlds 0x09 ring.val) t) ∧
  (∀ (ring : Fin 1) (e : Entry) (x : Nat) (c : CamCtx) (s : State), s.ready 0x09 ring.val 0 e → s.checkHandle 4 s.camLive e.handle.toNat = none → hIndex e.handle.toNat = x → s.camCtx x = some c →
    (s.cam.frames.any fun f => decide (f.2.ctx = x)) = false → ∃ t, exec (.ctxDestroy ring e) s = .next t ∧ s.completed 0x09 ring.val e 0x00 e.handle.toNat t ∧ s.dramKept (s.complAddr 0x09 ring.val) 16 t ∧
    t.cam = { s.cam with ctxs := tdel s.cam.ctxs x } ∧ t.reg (CAM_CTX_STAT x) = 0#32 ∧ t.reg (CAM_CTX_CSEQ x) = 0#32 ∧ s.only [.dram, .rings, .cam, .rcd, .cyc] (complFlds 0x09 ring.val ++ camShowFlds) t) ∧
  (∀ (ring : Fin 1) (e : Entry) (x k : Nat) (c : CamCtx) (f : CamFrame) (s : State), s.ready 0x09 ring.val 0 e → s.checkHandle 4 s.camLive e.handle.toNat = none → hIndex e.handle.toNat = x → s.camCtx x = some c →
    s.cam.frames = [(k, f)] → f.ctx = x → f.st = .waiting → ∃ t, exec (.ctxDestroy ring e) s = .next t ∧ s.started 0x09 ring.val 2 e t ∧
    tget t.cam.ctxs x = some { c with dying := some (s.ring 0x09 ring.val).nextId, bufs := [] } ∧ t.cam.frames = [(k, { f.flag 15 with st := .dropped, store := [] })] ∧
    t.get (CAM_CTX_STAT.BUFQ x) = 0 ∧ s.only [.rings, .cam] camShowFlds t) ∧
  (∀ (ring : Fin 1) (e : Entry) (x a : Nat) (c : CamCtx) (s : State), s.ready 0x09 ring.val 0 e → s.checkHandle 4 s.camLive e.handle.toNat = none → hIndex e.handle.toNat = x → s.camCtx x = some c →
    (s.cmdOf 0x09 ring.val e).arg 16 8 = a → s.palRangeOk { addr := a, hdr := memBytes s.dram a 256 } = true → Pal.formatOk { addr := a, hdr := memBytes s.dram a 256 } = true →
    ∃ t, exec (.ctxPalette ring e) s = .next t ∧ s.completed 0x09 ring.val e 0x00 e.handle.toNat t ∧ s.dramKept (s.complAddr 0x09 ring.val) 16 t ∧
    t.cam = { s.cam with ctxs := tput s.cam.ctxs x { c with palAddr := a, palHdr := memBytes s.dram a 256, newPal := true } } ∧ s.only [.dram, .rings, .cam, .rcd, .cyc] (complFlds 0x09 ring.val) t) ∧
  (∀ (ring : Fin 1) (e : Entry) (x a : Nat) (c : CamCtx) (s : State), s.ready 0x09 ring.val 0 e → s.checkHandle 4 s.camLive e.handle.toNat = none → hIndex e.handle.toNat = x → s.camCtx x = some c →
    (s.cmdOf 0x09 ring.val e).arg 16 8 = a → (s.palRangeOk { addr := a, hdr := memBytes s.dram a 256 } = false ∨ Pal.formatOk { addr := a, hdr := memBytes s.dram a 256 } = false) →
    ∃ t, exec (.ctxPalette ring e) s = .next t ∧ s.completed 0x09 ring.val e (if s.palRangeOk { addr := a, hdr := memBytes s.dram a 256 } = true then 0x0E else 0x05) e.handle.toNat t ∧
    s.dramKept (s.complAddr 0x09 ring.val) 16 t ∧ s.only [.dram, .rings, .rcd, .cyc] (complFlds 0x09 ring.val) t) ∧
  (∀ (ring : Fin 1) (e : Entry) (x a : Nat) (c : CamCtx) (s : State), s.ready 0x09 ring.val 0 e → s.checkHandle 4 s.camLive e.handle.toNat = none → hIndex e.handle.toNat = x → s.camCtx x = some c →
    (s.cmdOf 0x09 ring.val e).arg 16 8 = a → a % 64 = 0 → s.inWins 0x09 a (c.bufSize c.pal) = true → c.bufs.length < 16 → x < 32 →
    ∃ t, exec (.bufGive ring e) s = .next t ∧ s.completed 0x09 ring.val e 0x00 e.handle.toNat t ∧ s.dramKept (s.complAddr 0x09 ring.val) 16 t ∧
    t.cam = { s.cam with ctxs := tput s.cam.ctxs x { c with bufs := c.bufs ++ [a] } } ∧ t.get (CAM_CTX_STAT.BUFQ x) = c.bufs.length + 1 ∧ s.only [.dram, .rings, .cam, .rcd, .cyc] (complFlds 0x09 ring.val ++ camShowFlds) t) ∧
  (∀ (ring : Fin 1) (e : Entry) (x a : Nat) (c : CamCtx) (s : State), s.ready 0x09 ring.val 0 e → s.checkHandle 4 s.camLive e.handle.toNat = none → hIndex e.handle.toNat = x → s.camCtx x = some c →
    (s.cmdOf 0x09 ring.val e).arg 16 8 = a → a % 64 = 0 → s.inWins 0x09 a (c.bufSize c.pal) = true → 16 ≤ c.bufs.length →
    ∃ t, exec (.bufGive ring e) s = .next t ∧ s.completed 0x09 ring.val e 0x22 e.handle.toNat t ∧ s.dramKept (s.complAddr 0x09 ring.val) 16 t ∧ s.only [.dram, .rings, .rcd, .cyc] (complFlds 0x09 ring.val) t) ∧
  (∀ (ring : Fin 1) (e : Entry) (x p : Nat) (c : CamCtx) (s : State), s.ready 0x09 ring.val 0 e → s.checkHandle 4 s.camLive e.handle.toNat = none → hIndex e.handle.toNat = x → s.camCtx x = some c →
    ((s.cmdOf 0x09 ring.val e).arg 16 1 ≤ 7 ∧ p = (s.cmdOf 0x09 ring.val e).arg 16 1 ∨ (s.cmdOf 0x09 ring.val e).arg 16 1 = 0xFF ∧ p = s.defaultPl c.src) →
    s.pipeLoad p + (if p = c.pl then 0 else c.width * c.height * c.maxFps) ≤ 12000000000 →
    ∃ t, exec (.ctxBind ring e) s = .next t ∧ s.completed 0x09 ring.val e 0x00 e.handle.toNat t ∧ s.dramKept (s.complAddr 0x09 ring.val) 16 t ∧
    t.cam = { s.cam with ctxs := tput s.cam.ctxs x { c with pl := p } } ∧ s.only [.dram, .rings, .cam, .rcd, .cyc] (complFlds 0x09 ring.val ++ camShowFlds) t)

/-- A PKG_LOAD with no code of R351 takes its slot and stays in flight; when the digests of body and header match, the package is usable and the command
ends with OK, else the slot is free and it ends with 0x24. PKG_UNLOAD frees an unused slot. STREAM_CREATE binds ring, package and requester under a
new handle; STREAM_DESTROY ends its jobs with STREAM_GONE, returns the ring's indices to 0 and frees the requester. An opcode of the control ring is
unknown on a job ring. A corrected SRAM error counts (195), an uncorrectable one marks the package FAULT, ends the running job with 0x27 (196).
Disabling FEN leaves no package and no stream. Every clause names the parts, fields, windows and DRAM bytes that may differ. -/
def Obligations.FencePackagesAndStreamsFollowChapter16 : Prop :=
  (∀ (ring : Fin 17) (e : Entry) (slot a d : Nat) (s : State), s.ready 0x0A ring.val 0 e → ring.val = 0 → s.busy 4 = false → (s.cmdOf 0x0A ring.val e).arg 16 1 = slot → (s.cmdOf 0x0A ring.val e).arg 24 8 = a →
    (s.cmdOf 0x0A ring.val e).arg 32 8 = d → slot ≤ 7 → a % 4096 = 0 → d % 64 = 0 → s.inWins 0x0A a 256 = true → s.inWins 0x0A (a + 256) (natLE (memBytes s.dram (a + 28) 4)) = true →
    (natLE (memBytes s.dram (a + 40) 8) = 0 ∨ s.inWins 0x0A d (natLE (memBytes s.dram (a + 40) 8)) = true) →
    Pkg.rangeOk { hdr := memBytes s.dram a 256, hdrAddr := a, dramAddr := d, load := none } = true → Pkg.formatOk { hdr := memBytes s.dram a 256, hdrAddr := a, dramAddr := d, load := none } = true →
    tget s.fen.pkgs slot = none →
    State.sramUsed { s with fen := { s.fen with pkgs := tput s.fen.pkgs slot { hdr := memBytes s.dram a 256, hdrAddr := a, dramAddr := d, load := some (s.ring 0x0A ring.val).nextId } } } ≤ 33554432 →
    ∃ t, exec (.pkgLoad ring e) s = .next t ∧ s.started 0x0A ring.val 1 e t ∧
    t.fen = { s.fen with pkgs := tput s.fen.pkgs slot { hdr := memBytes s.dram a 256, hdrAddr := a, dramAddr := d, load := some (s.ring 0x0A ring.val).nextId } } ∧
    t.getB (FEN_PKG.LOADED slot) = false ∧ s.only [.rings, .fen] fenShowFlds t) ∧
  (∀ (slot : Fin 8) (p : Pkg) (x : Taken) (s : State), tget s.fen.pkgs slot.val = some p → p.load = some x.id → (s.ring 0x0A 0).taken = [x] → ∃ t, exec (.pkgLoadDone slot) s = .next t ∧
    (Config.sha384 (memBytes s.dram (p.hdrAddr + 256) p.sramW) = p.f 64 48 ∧ Config.sha384 (p.hdr.take 208) = p.f 208 48 →
      t.pkg slot.val = some { p with load := none, body := memBytes s.dram (p.hdrAddr + 256) p.sramW } ∧ s.ended 0x0A 0 x 0x00 x.handle t ∧ t.getB (FEN_PKG.LOADED slot.val) = true ∧ t.get (FEN_PKG_ID.PKG_ID slot.val) = p.id ∧ t.fen.lastPkg = (if s.fen.lastPkg = some slot.val then none else s.fen.lastPkg)) ∧
    (¬(Config.sha384 (memBytes s.dram (p.hdrAddr + 256) p.sramW) = p.f 64 48 ∧ Config.sha384 (p.hdr.take 208) = p.f 208 48) →
      tget t.fen.pkgs slot.val = none ∧ s.ended 0x0A 0 x 0x24 x.handle t ∧ t.reg (FEN_PKG slot.val) = 0#32) ∧
    s.dramKept (s.complAddr 0x0A 0) 16 t ∧ s.only [.dram, .rings, .fen, .rcd, .cyc] (complFlds 0x0A 0 ++ fenShowFlds) t) ∧
  (∀ (ring : Fin 17) (e : Entry) (slot : Nat) (s : State), s.ready 0x0A ring.val 0 e → ring.val = 0 → s.busy 4 = false → (s.cmdOf 0x0A ring.val e).arg 16 1 = slot → slot ≤ 7 → (s.pkg slot).isSome = true →
    (s.fen.streams.any fun x => decide (x.2.slot = slot)) = false → ∃ t, exec (.pkgUnload ring e) s = .next t ∧ s.completed 0x0A ring.val e 0x00 e.handle.toNat t ∧ s.dramKept (s.complAddr 0x0A ring.val) 16 t ∧
    t.fen = { s.fen with pkgs := tdel s.fen.pkgs slot, lastPkg := if s.fen.lastPkg = some slot then none else s.fen.lastPkg } ∧ t.reg (FEN_PKG slot) = 0#32 ∧ t.reg (FEN_PKG_ID slot) = 0#32 ∧ s.only [.dram, .rings, .fen, .rcd, .cyc] (complFlds 0x0A ring.val ++ fenShowFlds) t) ∧
  (∀ (ring : Fin 17) (e : Entry) (s : State), s.ready 0x0A ring.val 0 e → ring.val ≠ 0 → ∃ t, exec (.pkgLoad ring e) s = .next t ∧ s.completed 0x0A ring.val e 0x05 e.handle.toNat t ∧
    s.dramKept (s.complAddr 0x0A ring.val) 16 t ∧ s.only [.dram, .rings, .rcd, .cyc] (complFlds 0x0A ring.val) t) ∧
  (∀ (ring : Fin 17) (e : Entry) (x r slot kind i : Nat) (p : Pkg) (s : State), s.ready 0x0A ring.val 0 e → ring.val = 0 → s.busy 4 = false → tfree s.fen.streams 16 = some x → (s.cmdOf 0x0A ring.val e).arg 16 1 = r →
    (s.cmdOf 0x0A ring.val e).arg 17 1 = slot → (s.cmdOf 0x0A ring.val e).arg 18 1 = kind → s.checkHandle 0x0D s.reqLive ((s.cmdOf 0x0A ring.val e).arg 20 4) = none → hIndex ((s.cmdOf 0x0A ring.val e).arg 20 4) = i →
    slot ≤ 7 → r ≠ 0 → r ≤ 16 → kind ≤ 2 → i < 20 → s.reqBound i = false → s.pkg slot = some p → (s.setStr x { ring := r, slot := slot, kind := kind, req := i }).sramUsed ≤ 33554432 →
    s.ringUsed 0x0A r = true → s.strOnRing r = none → bitAt p.inKinds kind = true → p.fault = false → ∃ t, exec (.fenStreamCreate ring e) s = .next t ∧
    s.completed 0x0A ring.val e 0x00 (t.handle 5 x) t ∧ s.dramKept (s.complAddr 0x0A ring.val) 16 t ∧ t.gen 5 x = (s.gen 5 x + 1) % 1024 ∧
    t.fen = { s.fen with streams := tput s.fen.streams x { ring := r, slot := slot, kind := kind, req := i } } ∧ t.getB (FEN_STR.LIVE x) = true ∧ t.get (FEN_STR.RING x) = r ∧ t.get (FEN_STR.SLOT x) = slot ∧
    s.only [.dram, .rings, .gens, .fen, .rcd, .cyc] (complFlds 0x0A ring.val ++ fenShowFlds) t) ∧
  (∀ (ring : Fin 17) (e : Entry) (x : Nat) (q : FenStream) (s : State), s.ready 0x0A ring.val 0 e → ring.val = 0 → s.busy 4 = false → s.checkHandle 5 s.strLive e.handle.toNat = none → hIndex e.handle.toNat = x →
    tget s.fen.streams x = some q → q.jobs = [] → 1 ≤ q.ring → q.ring ≤ 16 → s.arbHolds q.req = false → ∃ t, exec (.fenStreamDestroy ring e) s = .next t ∧
    s.completed 0x0A ring.val e 0x00 e.handle.toNat t ∧ s.dramKept (s.complAddr 0x0A ring.val) 16 t ∧ tget t.fen.streams x = none ∧ t.fen.pkgs = s.fen.pkgs ∧
    t.get (RING_PI 0x0A q.ring) = 0 ∧ t.get (RING_CI 0x0A q.ring) = 0 ∧ t.get (CRING_PI 0x0A q.ring) = 0 ∧ t.get (CRING_CI 0x0A q.ring) = 0 ∧ (t.ring 0x0A q.ring).seq = 0 ∧
    t.arb = { s.arb with since := tdel s.arb.since q.req } ∧ t.getB (ARB_REQ.PEND q.req) = false ∧
    s.only [.dram, .rings, .fen, .arb, .rcd, .cyc] (complFlds 0x0A ring.val ++ fenShowFlds ++ [ARB_REQ.PEND q.req, RING_PI 0x0A q.ring, RING_CI 0x0A q.ring, CRING_PI 0x0A q.ring, CRING_CI 0x0A q.ring]) t) ∧
  (∀ (ring : Fin 17) (e : Entry) (x : Nat) (q : FenStream) (j : FenJob) (y : Taken) (s : State), s.ready 0x0A ring.val 0 e → ring.val = 0 → s.busy 4 = false → s.checkHandle 5 s.strLive e.handle.toNat = none →
    hIndex e.handle.toNat = x → tget s.fen.streams x = some q → q.jobs = [j] → 1 ≤ q.ring → q.ring ≤ 16 → s.arbHolds q.req = false → (s.ring 0x0A q.ring).taken = [y] → y.id = j.id →
    (s.complAddr 0x0A ring.val + 16 ≤ s.complAddr 0x0A q.ring ∨ s.complAddr 0x0A q.ring + 16 ≤ s.complAddr 0x0A ring.val) → ∃ t, exec (.fenStreamDestroy ring e) s = .next t ∧
    s.completed 0x0A ring.val e 0x00 e.handle.toNat t ∧ memBytes t.dram (s.complAddr 0x0A q.ring) 8 = bytesLE 8 y.tag ∧ memNat t.dram (s.complAddr 0x0A q.ring + 12) 2 = 0x0A26 ∧ (t.ring 0x0A q.ring).taken = [] ∧
    tget t.fen.streams x = none ∧ t.get (CRING_PI 0x0A q.ring) = 0 ∧ t.arbHolds q.req = false ∧
    (∀ a, (a < s.complAddr 0x0A ring.val ∨ s.complAddr 0x0A ring.val + 16 ≤ a) → (a < s.complAddr 0x0A q.ring ∨ s.complAddr 0x0A q.ring + 16 ≤ a) → memByte t.dram a = memByte s.dram a) ∧
    s.within [.dram, .cyc, .rings, .fen, .arb, .rcd] (some [0xC1, 0xCA, 0xCB]) t) ∧
  (∀ s : State, ∃ t, exec .fenSramCorrected s = .next t ∧ t.get FEN_CNT.CORR = min 255 (s.get FEN_CNT.CORR + 1) ∧ s.raised 195 t ∧ s.only [.rcd, .cyc] (FEN_CNT.CORR :: raiseFlds 195) t) ∧
  (∀ (k : Fin 8) (p : Pkg) (s : State), s.pkg k.val = some p → s.fen.run = none → ∃ t, exec (.sramUe (some k)) s = .next t ∧ s.raised 196 t ∧ t.fen = { s.fen with pkgs := tput s.fen.pkgs k.val { p with fault := true } } ∧
    t.getB (FEN_PKG.FAULT k.val) = true ∧ s.only [.fen, .rcd, .cyc] (fenShowFlds ++ raiseFlds 196) t) ∧
  (∀ (r : FenRun) (q : FenStream) (j : FenJob) (y : Taken) (s : State), s.fen.run = some r → tget s.fen.streams r.stream = some q → q.jobs = [j] → (s.ring 0x0A q.ring).taken = [y] → y.id = j.id → q.ring ≤ 16 →
    ∃ t, exec (.sramUe none) s = .next t ∧ s.raised 196 t ∧ s.ended 0x0A q.ring y 0x27 y.handle t ∧ t.fen.run = none ∧ (tget t.fen.streams r.stream).map (·.jobs) = some [] ∧
    (tget t.fen.streams r.stream).map (·.jseq) = some ((q.jseq + 1) % 2 ^ 32) ∧ t.arbHolds q.req = false ∧
    s.dramKept (s.complAddr 0x0A q.ring) 16 t ∧ s.within [.dram, .cyc, .rings, .fen, .arb, .rcd] (some [0xC1, 0xCA, 0xCB]) t) ∧
  (∀ s : State, s.getB FEN_CTRL.ENABLE = true → ∃ t, exec .fenDisable s = .next t ∧ t.getB FEN_CTRL.ENABLE = false ∧ t.fen = {} ∧ (∀ x, x < 16 → t.reg (FEN_STR x) = 0#32) ∧ (∀ i, i < 8 → t.reg (FEN_PKG i) = 0#32) ∧
    t.get FEN_STATUS.STREAMS = 0 ∧ t.get FEN_STATUS.PKGS = 0 ∧ t.getB FEN_STATUS.RUN = false ∧
    s.within [.dram, .free, .cyc, .rings, .fen, .arb, .rcd] (some [0xC1, 0xCA, 0xCB]) t)

/-- A DRAM JOB with no code of R355 joins its stream's jobs and, first in line, raises the stream's request; one with FLAGS bit 8 while ARB0 is frozen
ends with 0x0A. A grant of its requester starts the head job with its input copied: 600 cycles of start after a job of the same package, else 2,400;
how long DRAM stalls it is a free value. In its commit phase the output of Table 16-5 is written at OUT_ADDR (the payload is free where the package's
DRAM section changed since the start, R367), the job ends with OK, JSEQ advances and the grant is free; a package in FAULT gives 0x27 and no output.
Every clause names the parts, fields, windows and DRAM bytes that may differ. -/
def Obligations.FenceJobsAskRunAndWriteTheirOutput : Prop :=
  (∀ (ring : Fin 17) (e : Entry) (x : Nat) (q : FenStream) (p : Pkg) (s : State), s.ready 0x0A ring.val 0 e → s.strOnRing ring.val = some (x, q) → s.pkg q.slot = some p → q.kind = 0 → q.jobs = [] →
    (s.cmdOf 0x0A ring.val e).arg 24 8 % 64 = 0 → s.inWins 0x0A ((s.cmdOf 0x0A ring.val e).arg 24 8) (64 + p.outBytes) = true → s.inWins 0x0A ((s.cmdOf 0x0A ring.val e).arg 16 8) p.inBytes = true →
    s.checkHandle 5 s.strLive e.handle.toNat = none → hIndex e.handle.toNat = x → tget s.arb.since q.req = none → q.req < 20 → ∃ t, exec (.fenJob ring e) s = .next t ∧ s.started 0x0A ring.val 0x10 e t ∧
    tget t.fen.streams x = some { q with jobs := [{ id := (s.ring 0x0A ring.val).nextId, tag := e.tag.toNat, inAddr := (s.cmdOf 0x0A ring.val e).arg 16 8, outAddr := (s.cmdOf 0x0A ring.val e).arg 24 8, stamp := (s.cmdOf 0x0A ring.val e).arg 32 8, param := (s.cmdOf 0x0A ring.val e).arg 40 24, ready := true, input := none }] } ∧
    t.arb = { s.arb with since := tput s.arb.since q.req s.now } ∧ t.getB (ARB_REQ.PEND q.req) = true ∧ s.only [.rings, .fen, .arb] (ARB_REQ.PEND q.req :: fenShowFlds) t) ∧
  (∀ (ring : Fin 17) (e : Entry) (x : Nat) (q : FenStream) (p : Pkg) (s : State), s.ready 0x0A ring.val 0x0100 e → s.strOnRing ring.val = some (x, q) → s.pkg q.slot = some p → q.kind = 0 → bitAt e.flags.toNat 8 = true →
    (s.cmdOf 0x0A ring.val e).arg 24 8 % 64 = 0 → s.inWins 0x0A ((s.cmdOf 0x0A ring.val e).arg 24 8) (64 + p.outBytes) = true → s.inWins 0x0A ((s.cmdOf 0x0A ring.val e).arg 16 8) p.inBytes = true →
    s.checkHandle 5 s.strLive e.handle.toNat = none → hIndex e.handle.toNat = x → s.getB (ARB_CFG.FREEZE 0) = true → ∃ t, exec (.fenJob ring e) s = .next t ∧
    s.completed 0x0A ring.val e 0x0A e.handle.toNat t ∧ s.dramKept (s.complAddr 0x0A ring.val) 16 t ∧ s.only [.dram, .rings, .rcd, .cyc] (complFlds 0x0A ring.val) t) ∧
  (∀ (x : Fin 16) (q : FenStream) (j : FenJob) (rest : List FenJob) (s : State), tget s.fen.streams x.val = some q → q.jobs = j :: rest → j.ready = true → tget s.arb.since q.req = none → ∃ t, exec (.jobRequest x) s = .next t ∧
    t.arb = { s.arb with since := tput s.arb.since q.req s.now } ∧ t.getB (ARB_REQ.PEND q.req) = true ∧ s.only [.arb] (ARB_REQ.PEND q.req :: fenShowFlds) t) ∧
  (∀ (i x : Nat) (q : FenStream) (p : Pkg) (j : FenJob) (rest : List FenJob) (s : State), s.getB (ARB_CFG.FREEZE 0) = false → s.arb.newClass = [] → s.arbGranted 0 = false → s.arbBest 0 = some i →
    (s.fen.streams.find? fun y => y.2.req = i) = some (x, q) → s.pkg q.slot = some p → q.jobs = j :: rest → q.kind = 0 → i < 20 → ∃ t, exec (.arbDecide 0 s.fenCommit) s = .next t ∧
    t.arbHolds i = true ∧ t.fen.run = some { stream := x, at0 := s.now, start := (if s.fen.lastPkg = some q.slot then 600 else 2400), stall := Config.freeValue s.free, section0 := memBytes s.dram p.dramAddr p.dramLen } ∧
    tget t.fen.streams x = some { q with jobs := { j with grantLtc := some (j.grantLtc.getD s.now), input := some (j.input.getD (memBytes s.dram j.inAddr p.inBytes)) } :: rest } ∧
    t.getB FEN_STATUS.RUN = true ∧ t.get FEN_STATUS.STREAM = x % 16 ∧ t.free = s.free + 1 ∧ t.fen.lastPkg = some q.slot ∧
    s.only [.arb, .fen, .free] ([ARB_STAT.GRANTED 0, ARB_STAT.OWNER 0, ARB_STAT.CLASS 0, ARB_REQ.PEND i] ++ fenShowFlds) t) ∧
  (∀ (x : Fin 16) (r : FenRun) (q : FenStream) (p : Pkg) (j : FenJob) (y : Taken) (s : State), s.fen.run = some r → r.stream = x.val → tget s.fen.streams x.val = some q → q.jobs = [j] → s.pkg q.slot = some p →
    s.fenCommit = true → p.fault = false → q.kind = 0 → j.frame = none → s.fus.srcs = [] → (s.ring 0x0A q.ring).taken = [y] → y.id = j.id →
    q.ring ≤ 16 → (j.outAddr + 64 + p.outBytes ≤ s.complAddr 0x0A q.ring ∨ s.complAddr 0x0A q.ring + 16 ≤ j.outAddr) → ∃ t, exec (.jobComplete x) s = .next t ∧
    memBytes t.dram j.outAddr 32 = bytesLE 4 (s.handle 5 x.val) ++ bytesLE 4 ((q.jseq + 1) % 2 ^ 32) ++ bytesLE 8 j.tag ++ bytesLE 8 j.stamp ++ bytesLE 8 (j.grantLtc.getD 0) ∧
    memBytes t.dram (j.outAddr + 32) 32 = bytesLE 8 s.now ++ bytesLE 4 p.id ++ bytesLE 2 j.flags ++ bytesLE 2 j.revokes ++ bytesLE 4 j.cseq ++ bytesLE 4 p.outBytes ++ bytesLE 8 0 ∧
    memBytes t.dram (j.outAddr + 64) p.outBytes = bytesLE p.outBytes (if memBytes s.dram p.dramAddr p.dramLen = r.section0 then Config.fenResult p.body r.section0 (j.input.getD []) j.param else Config.freeValue s.free) ∧ s.ended 0x0A q.ring y 0x00 y.handle t ∧
    t.fen.run = none ∧ tget t.fen.streams x.val = some { q with jobs := [], jseq := (q.jseq + 1) % 2 ^ 32 } ∧ t.get (FEN_STR_JSEQ.JSEQ x.val) = (q.jseq + 1) % 2 ^ 32 ∧ t.arbHolds q.req = false ∧ tget t.arb.since q.req = none ∧
    (∀ a, (a < j.outAddr ∨ j.outAddr + 64 + p.outBytes ≤ a) → (a < s.complAddr 0x0A q.ring ∨ s.complAddr 0x0A q.ring + 16 ≤ a) → memByte t.dram a = memByte s.dram a) ∧
    t.free = s.free + (if memBytes s.dram p.dramAddr p.dramLen = r.section0 then 0 else 1) ∧ s.within [.dram, .free, .cyc, .rings, .fen, .arb, .rcd] (some [0xC1, 0xCA, 0xCB]) t) ∧
  (∀ (x : Fin 16) (r : FenRun) (q : FenStream) (p : Pkg) (j : FenJob) (y : Taken) (s : State), s.fen.run = some r → r.stream = x.val → tget s.fen.streams x.val = some q → q.jobs = [j] → s.pkg q.slot = some p →
    s.fenCommit = true → p.fault = true → (s.ring 0x0A q.ring).taken = [y] → y.id = j.id → q.ring ≤ 16 → ∃ t, exec (.jobComplete x) s = .next t ∧
    s.ended 0x0A q.ring y 0x27 y.handle t ∧ s.dramKept (s.complAddr 0x0A q.ring) 16 t ∧ t.fen.run = none ∧ (tget t.fen.streams x.val).map (·.jobs) = some [] ∧ t.arbHolds q.req = false ∧
    s.within [.dram, .cyc, .rings, .fen, .arb, .rcd] (some [0xC1, 0xCA, 0xCB]) t)

/-- With nothing granted a decision grants the best eligible request: OWNER, CLASS, PEND 0, and GRANT of the host's. A host or update grant of a class
below the best request is revoked: REVOKE counts, its request stays pending, 212, REVOKED for the host, and the better request is granted; on ARB0 the
running job halts, counts a revocation (194) and the better request's job starts, but a job in its commit phase is not revoked. A frozen arbiter
decides nothing; DRAINED going to 1 raises 210 or 211. A wait over LIMIT sets STARVE (208 or 209). HREQ.REQ raises or releases the host's request.
REQ_CREATE makes the requester with class and limit, REQ_CLASS applies from the next decision, REQ_DESTROY frees an unbound one. Every clause names
the parts and fields that may differ. -/
def Obligations.ArbitersGrantRevokeFreezeAndStarveByClass : Prop :=
  (∀ (a : Fin 2) (i : Nat) (s : State), s.getB (ARB_CFG.FREEZE a.val) = false → s.arb.newClass = [] → s.arbGranted a.val = false → s.arbBest a.val = some i → i ≠ 21 → i < 24 →
    (s.fen.streams.find? fun y => y.2.req = i) = none → ∃ t, exec (.arbDecide a s.fenCommit) s = .next t ∧ t.arbGranted (arbOf i) = true ∧ t.arbOwner (arbOf i) = i ∧ t.get (ARB_STAT.CLASS (arbOf i)) = s.arbClass i ∧
    t.getB (ARB_REQ.PEND i) = false ∧ (i = 23 → t.getB ARB_HREQ.GRANT = true) ∧ t.arb = { s.arb with grantAt := tput s.arb.grantAt (arbOf i) s.now } ∧
    s.only [.arb] ([ARB_STAT.GRANTED (arbOf i), ARB_STAT.OWNER (arbOf i), ARB_STAT.CLASS (arbOf i), ARB_REQ.PEND i] ++ (if i = 23 then [ARB_HREQ.GRANT] else [])) t) ∧
  (∀ (i j : Nat) (s : State), s.getB (ARB_CFG.FREEZE 1) = false → s.arb.newClass = [] → s.arbGranted 1 = true → s.arbOwner 1 = j → (j = 22 ∨ j = 23) → s.arbBest 1 = some i → s.arbClass j < s.arbClass i → i = 20 →
    ∃ t, exec (.arbDecide 1 s.fenCommit) s = .next t ∧ t.arbOwner 1 = i ∧ t.arbGranted 1 = true ∧ t.get (ARB_STAT.CLASS 1) = s.arbClass i ∧ t.get (ARB_CNT.REVOKE 1) = min 65535 (s.get (ARB_CNT.REVOKE 1) + 1) ∧
    t.getB (ARB_REQ.PEND j) = true ∧ t.getB (ARB_REQ.PEND i) = false ∧ t.arb.since = s.arb.since ∧ s.raised 212 t ∧ (j = 23 → t.getB ARB_HREQ.REVOKED = true ∧ t.getB ARB_HREQ.GRANT = false) ∧
    s.only [.arb, .rcd, .cyc] ([ARB_STAT.GRANTED 1, ARB_STAT.OWNER 1, ARB_STAT.CLASS 1, ARB_STAT.DRAINED 1, ARB_CNT.REVOKE 1, ARB_REQ.PEND i, ARB_REQ.PEND j, ARB_HREQ.REVOKED, ARB_HREQ.GRANT] ++ raiseFlds 212) t) ∧
  (∀ (i j x y : Nat) (q q2 : FenStream) (p : Pkg) (h h2 : FenJob) (rest rest2 : List FenJob) (r : FenRun) (s : State), s.getB (ARB_CFG.FREEZE 0) = false → s.arb.newClass = [] → s.arbGranted 0 = true → s.arbOwner 0 = j → s.arbBest 0 = some i →
    s.arbClass j < s.arbClass i → i < 20 → j < 20 → i ≠ j → s.fen.run = some r → s.fenCommit = false → r.stream = y → x ≠ y → tget s.fen.streams y = some q2 → q2.req = j → q2.jobs = h2 :: rest2 → tsorted s.fen.streams = true →
    (∀ e ∈ s.fen.streams, e.2.req = i → e.1 = x) → tget s.fen.streams x = some q → q.req = i → s.pkg q.slot = some p → q.jobs = h :: rest → q.kind = 0 → ∃ t, exec (.arbDecide 0 s.fenCommit) s = .next t ∧
    t.arbOwner 0 = i ∧ t.arbGranted 0 = true ∧ t.get (ARB_CNT.REVOKE 0) = min 65535 (s.get (ARB_CNT.REVOKE 0) + 1) ∧ t.get FEN_CNT.REVOKE = min 65535 (s.get FEN_CNT.REVOKE + 1) ∧ s.raised 194 t ∧ t.arb.since = s.arb.since ∧
    t.getB (ARB_REQ.PEND j) = true ∧ t.getB (ARB_REQ.PEND i) = false ∧ tget t.fen.streams y = some { q2 with jobs := { h2 with revokes := satTo 0xFFFF (h2.revokes + 1) } :: rest2 } ∧
    t.fen.run = some { stream := x, at0 := s.now, start := (if s.fen.lastPkg = some q.slot then 600 else 2400), stall := Config.freeValue s.free, section0 := memBytes s.dram p.dramAddr p.dramLen } ∧ t.free = s.free + 1 ∧
    s.only [.arb, .fen, .free, .rcd, .cyc] ([ARB_STAT.GRANTED 0, ARB_STAT.OWNER 0, ARB_STAT.CLASS 0, ARB_CNT.REVOKE 0, ARB_REQ.PEND i, ARB_REQ.PEND j, ARB_STAT.DRAINED 0, FEN_CNT.REVOKE] ++ fenShowFlds ++ raiseFlds 194) t) ∧
  (∀ s : State, s.arb.newClass = [] → s.arbGranted 0 = true → s.get (ARB_STAT.CLASS 0) = s.arbClass (s.arbOwner 0) → s.fenCommit = true → ∃ t, exec (.arbDecide 0 true) s = .next t ∧ s.only [] [] t) ∧
  (∀ (a : Fin 2) (s : State), s.getB (ARB_CFG.FREEZE a.val) = true → ∃ t, exec (.arbDecide a s.fenCommit) s = .next t ∧ s.only [] [] t) ∧
  (∀ (cm : Bool) (s : State), cm ≠ s.fenCommit → ∃ t, exec (.arbDecide 0 cm) s = .next t ∧ t = s) ∧
  (∀ (core : Fin 8) (a : Fin 2) (value : Word) (s : State), ∃ t, exec (.arbFreeze core a value) s = .next t ∧ t.getB (ARB_CFG.FREEZE a.val) = bitAt value.toNat 0 ∧
    t.getB (ARB_STAT.DRAINED a.val) = (bitAt value.toNat 0 && !s.arbGranted a.val) ∧
    (bitAt value.toNat 0 = true → s.arbGranted a.val = false → s.getB (ARB_STAT.DRAINED a.val) = false → s.raised (210 + a.val) t) ∧
    s.only [.access, .rcd, .cyc] ([ARB_CFG.FREEZE a.val, ARB_STAT.DRAINED a.val] ++ raiseFlds (210 + a.val)) t) ∧
  (∀ (i : Fin 24) (t0 : Nat) (s : State), tget s.arb.since i.val = some t0 → s.getB (ARB_REQ.LIVE i.val) = true → tgetD s.arb.limit i.val 0 ≠ 0 → tgetD s.arb.limit i.val 0 * 1000 < s.since t0 → s.getB (ARB_REQ.STARVE i.val) = false →
    ∃ t, exec (.arbStarve i) s = .next t ∧ t.getB (ARB_REQ.STARVE i.val) = true ∧ s.raised (208 + arbOf i.val) t ∧ s.only [.rcd, .cyc] (ARB_REQ.STARVE i.val :: raiseFlds (208 + arbOf i.val)) t) ∧
  (∀ (core : Fin 8) (value : Word) (s : State), bitAt value.toNat 31 = true → tget s.arb.since 23 = none → ∃ t, exec (.hostArbRequest core value) s = .next t ∧ t.getB ARB_HREQ.REQ = true ∧ t.getB (ARB_REQ.PEND 23) = true ∧
    t.getB ARB_HREQ.REVOKED = (s.getB ARB_HREQ.REVOKED && !bitAt value.toNat 29) ∧ t.arb = { s.arb with since := tput s.arb.since 23 s.now } ∧
    s.only [.access, .arb] [ARB_HREQ.REQ, ARB_HREQ.REVOKED, ARB_REQ.PEND 23] t) ∧
  (∀ (core : Fin 8) (value : Word) (s : State), bitAt value.toNat 31 = false → s.arbHolds 23 = true → s.getB (ARB_CFG.FREEZE 1) = false → ∃ t, exec (.hostArbRequest core value) s = .next t ∧ t.getB ARB_HREQ.REQ = false ∧ t.getB ARB_HREQ.GRANT = false ∧
    t.arbGranted 1 = false ∧ t.getB (ARB_REQ.PEND 23) = false ∧ t.arb = { s.arb with grantAt := tdel s.arb.grantAt 1, since := tdel s.arb.since 23 } ∧
    s.only [.access, .arb] [ARB_HREQ.REQ, ARB_HREQ.REVOKED, ARB_HREQ.GRANT, ARB_REQ.PEND 23, ARB_STAT.GRANTED 1, ARB_STAT.OWNER 1, ARB_STAT.CLASS 1, ARB_STAT.DRAINED 1] t) ∧
  (∀ (ring : Fin 1) (e : Entry) (i : Nat) (s : State), s.ready 0x0B ring.val 0 e → (s.cmdOf 0x0B ring.val e).arg 16 1 ≤ 1 → (s.cmdOf 0x0B ring.val e).arg 17 1 ≤ 3 → (s.cmdOf 0x0B ring.val e).arg 18 1 ≤ 3 →
    ((s.cmdOf 0x0B ring.val e).arg 16 1 = 0 ∧ (s.cmdOf 0x0B ring.val e).arg 18 1 = 0 ∧ ((List.range 20).find? fun j => !s.reqLive j) = some i ∨
      (s.cmdOf 0x0B ring.val e).arg 16 1 = 1 ∧ i = 20 + (s.cmdOf 0x0B ring.val e).arg 18 1 ∧ s.reqLive i = false) → ∃ t, exec (.reqCreate ring e) s = .next t ∧
    s.completed 0x0B ring.val e 0x00 (t.handle 0x0D i) t ∧ s.dramKept (s.complAddr 0x0B ring.val) 16 t ∧ t.gen 0x0D i = (s.gen 0x0D i + 1) % 1024 ∧ t.getB (ARB_REQ.LIVE i) = true ∧
    t.get (ARB_REQ.CLASS i) = (s.cmdOf 0x0B ring.val e).arg 17 1 ∧ t.getB (ARB_REQ.STARVE i) = false ∧ t.arb = { s.arb with limit := tput s.arb.limit i ((s.cmdOf 0x0B ring.val e).arg 20 4), newClass := tdel s.arb.newClass i } ∧
    s.only [.dram, .rings, .gens, .arb, .rcd, .cyc] (complFlds 0x0B ring.val ++ [ARB_REQ.LIVE i, ARB_REQ.CLASS i, ARB_REQ.STARVE i]) t) ∧
  (∀ (ring : Fin 1) (e : Entry) (i : Nat) (s : State), s.ready 0x0B ring.val 0 e → s.checkHandle 0x0D s.reqLive e.handle.toNat = none → hIndex e.handle.toNat = i → s.reqBound i = false → ∃ t, exec (.reqDestroy ring e) s = .next t ∧
    s.completed 0x0B ring.val e 0x00 e.handle.toNat t ∧ s.dramKept (s.complAddr 0x0B ring.val) 16 t ∧ t.getB (ARB_REQ.LIVE i) = false ∧ t.get (ARB_REQ.CLASS i) = 0 ∧ t.getB (ARB_REQ.STARVE i) = false ∧
    t.arb = { s.arb with limit := tdel s.arb.limit i, newClass := tdel s.arb.newClass i } ∧ s.only [.dram, .rings, .arb, .rcd, .cyc] (complFlds 0x0B ring.val ++ [ARB_REQ.LIVE i, ARB_REQ.CLASS i, ARB_REQ.STARVE i]) t) ∧
  (∀ (ring : Fin 1) (e : Entry) (i : Nat) (s : State), s.ready 0x0B ring.val 0 e → s.checkHandle 0x0D s.reqLive e.handle.toNat = none → hIndex e.handle.toNat = i → (s.cmdOf 0x0B ring.val e).arg 16 1 ≤ 3 → ∃ t, exec (.reqClass ring e) s = .next t ∧
    s.completed 0x0B ring.val e 0x00 e.handle.toNat t ∧ s.dramKept (s.complAddr 0x0B ring.val) 16 t ∧
    t.arb = { s.arb with newClass := tput s.arb.newClass i ((s.cmdOf 0x0B ring.val e).arg 16 1, (s.cmdOf 0x0B ring.val e).arg 20 4) } ∧ s.only [.dram, .rings, .arb, .rcd, .cyc] (complFlds 0x0B ring.val) t) ∧
  (∀ (i c l : Nat) (a : Fin 2) (s : State), s.getB (ARB_CFG.FREEZE a.val) = false → s.arb.newClass = [(i, (c, l))] → i ∈ arbIndices a.val → c ≤ 3 → s.arb.since = [] → s.arbGranted a.val = false → ∃ t, exec (.arbDecide a s.fenCommit) s = .next t ∧
    t.get (ARB_REQ.CLASS i) = c ∧ t.arb = { s.arb with newClass := [], limit := tput s.arb.limit i l } ∧ s.only [.arb] [ARB_REQ.CLASS i] t)

/-- A SRC_CREATE with no code of R373 and R405 makes the lowest free source, its window at reset but for LIVE, KIND, ORDER, ICLASS and FEED, and completes
with the new handle; one whose ORDER is used completes with 0x20. SRC_DESTROY frees it with all it contributed. A contribution of an open or coming
instant is kept and LAST_TOV shows its stamp; one of a closed instant only counts LATE, records a violation and raises 219 and 4; one over 1 s ahead
counts FUTURE (225; a SUBMIT gets 0x05); a direct body over MAXPTS counts UNUSED (224). An IMU sample shows in the registers and is the IMU source's
yaw rate. COMMIT and READMIT wait for the next closure. Disabling FUS destroys every source. Every clause names the parts, registers and fields that
may differ. -/
def Obligations.CanvasSourcesTakeContributionsByTheirStamp : Prop :=
  (∀ (ring : Fin 1) (e : Entry) (x kind feed order iclass weight opt lb link maxp : Nat) (s : State), s.ready 0x0C ring.val 0 e → tfree s.fus.srcs 24 = some x → (s.cmdOf 0x0C ring.val e).arg 16 1 = kind →
    (s.cmdOf 0x0C ring.val e).arg 17 1 = feed → (s.cmdOf 0x0C ring.val e).arg 18 1 = order → (s.cmdOf 0x0C ring.val e).arg 19 1 = iclass → (s.cmdOf 0x0C ring.val e).arg 20 1 = weight → (s.cmdOf 0x0C ring.val e).arg 21 1 = opt →
    (s.cmdOf 0x0C ring.val e).arg 22 2 = lb → (s.cmdOf 0x0C ring.val e).arg 24 4 = link → (s.cmdOf 0x0C ring.val e).arg 28 4 = 0 → (s.cmdOf 0x0C ring.val e).arg 32 4 = maxp →
    (kind = 4 ∧ feed = 1 ∧ link = 0 ∨ feed = 0 ∧ (kind = 1 ∨ kind = 3 ∨ kind = 5) ∧ link = 0 ∨ feed = 0 ∧ kind = 2 ∧ link ≤ 7 ∨ feed = 1 ∧ (kind = 2 ∨ kind = 6) ∧ link ≤ 7 ∧ s.busy 7 = false ∧ s.loaded 7 = true) →
    order ≤ 23 → iclass ≤ 3 → (kind = 3 ∨ kind = 4 ∨ kind = 5 ∨ weight ≠ 0) → opt ≤ 3 → (kind = 1 ∨ kind = 2 ∨ kind = 6 ∨ opt = 0) → 1 ≤ lb → lb ≤ 1000 → maxp ≤ 262144 →
    (s.fus.srcs.any fun f => decide (f.2.order = order)) = false → (s.fus.srcs.any fun f => decide (feed = 1) && f.2.feed = 1 && f.2.kind = kind && (f.2.link = link || kind = 4)) = false →
    lb * 1000000 < s.fusW + s.fusD → ∃ t, exec (.srcCreate ring e) s = .next t ∧ s.completed 0x0C ring.val e 0x00 (t.handle 6 x) t ∧ s.dramKept (s.complAddr 0x0C ring.val) 16 t ∧ t.gen 6 x = (s.gen 6 x + 1) % 1024 ∧
    t.fus = { s.fus with srcs := tput s.fus.srcs x { kind := kind, feed := feed, order := order, iclass := iclass, weight := weight, opt := opt, lb := lb, link := link, tovOfs := 0, maxPts := (if maxp = 0 then 262144 else maxp) } } ∧
    t.getB (FUS_S_STAT.LIVE x) = true ∧ t.get (FUS_S_STAT.KIND x) = kind ∧ t.get (FUS_S_STAT.ORDER x) = order ∧ t.get (FUS_S_STAT.ICLASS x) = iclass ∧ t.get (FUS_S_STAT.FEED x) = feed ∧
    t.get FUS_STATUS.SOURCES = t.fus.srcs.length % 32 ∧ (∀ a, FUS_S_STAT x + 4 ≤ a → a < FUS_S_STAT x + 0x100 → t.reg a = resetOf a) ∧
    s.onlyBut [.latch, .dram, .rings, .gens, .fus, .rcd, .cyc] (complFlds 0x0C ring.val ++ [FUS_STATUS.SOURCES, FUS_STATUS.PUB]) (FUS_S_STAT x) 0x100 t) ∧
  (∀ (ring : Fin 1) (e : Entry) (x p : Nat) (v : FusSrc) (s : State), s.ready 0x0C ring.val 0 e → tfree s.fus.srcs 24 = some x → (s.cmdOf 0x0C ring.val e).arg 16 1 = 3 → (s.cmdOf 0x0C ring.val e).arg 17 1 = 0 →
    (s.cmdOf 0x0C ring.val e).arg 18 1 ≤ 23 → (s.cmdOf 0x0C ring.val e).arg 19 1 ≤ 3 → (s.cmdOf 0x0C ring.val e).arg 21 1 = 0 → 1 ≤ (s.cmdOf 0x0C ring.val e).arg 22 2 → (s.cmdOf 0x0C ring.val e).arg 22 2 ≤ 1000 →
    (s.cmdOf 0x0C ring.val e).arg 24 4 = 0 → (s.cmdOf 0x0C ring.val e).arg 28 4 = 0 → (s.cmdOf 0x0C ring.val e).arg 32 4 ≤ 262144 → s.fus.srcs = [(p, v)] → v.order = (s.cmdOf 0x0C ring.val e).arg 18 1 →
    ∃ t, exec (.srcCreate ring e) s = .next t ∧ s.completed 0x0C ring.val e 0x20 0 t ∧ s.dramKept (s.complAddr 0x0C ring.val) 16 t ∧ s.only [.dram, .rings, .rcd, .cyc] (complFlds 0x0C ring.val) t) ∧
  (∀ (ring : Fin 1) (e : Entry) (x : Nat) (s : State), s.ready 0x0C ring.val 0 e → s.checkHandle 6 s.fusLive e.handle.toNat = none → hIndex e.handle.toNat = x → ∃ t, exec (.srcDestroy ring e) s = .next t ∧
    s.completed 0x0C ring.val e 0x00 e.handle.toNat t ∧ s.dramKept (s.complAddr 0x0C ring.val) 16 t ∧
    t.fus = { s.fus with srcs := tdel s.fus.srcs x, bodies := s.fus.bodies.filter (fun b => b.src ≠ x), motion := s.fus.motion.filter (fun m => m.src ≠ x) } ∧
    (∀ a, FUS_S_STAT x ≤ a → a < FUS_S_STAT x + 0x100 → t.reg a = resetOf a) ∧
    s.onlyBut [.latch, .dram, .rings, .fus, .rcd, .cyc] (complFlds 0x0C ring.val ++ [FUS_STATUS.SOURCES, FUS_STATUS.PUB]) (FUS_S_STAT x) 0x100 t) ∧
  (∀ (ring : Fin 1) (e : Entry) (x a n tov : Nat) (v : FusSrc) (s : State), s.ready 0x0C ring.val 0 e → s.checkHandle 6 s.fusLive e.handle.toNat = none → hIndex e.handle.toNat = x → s.fusSrc x = some v → v.grid = true → v.feed = 0 →
    (s.cmdOf 0x0C ring.val e).arg 16 8 = a → a % 64 = 0 → s.inWins 0x0C a 64 = true → s.dramN a 4 = n → s.inWins 0x0C a (64 + 48 * n) = true → n ≤ v.maxPts → s.dramN (a + 8) 8 = tov → s.isFuture tov = false →
    (s.fusOpen tov = true ∨ s.fusAhead tov = true) → s.fusLate tov = false → s.now ≤ tov + v.lb * 1000000 → ∃ t, exec (.fusSubmit ring e) s = .next t ∧ s.completed 0x0C ring.val e 0x00 e.handle.toNat t ∧
    s.dramKept (s.complAddr 0x0C ring.val) 16 t ∧ t.fus = { s.fus with bodies := s.fus.bodies ++ [{ src := x, addr := a, n := n, tov := tov, at0 := s.now, bytes := memBytes s.dram (a + 64) (48 * n), used := s.fusOpen tov }] } ∧
    t.get64 (FUS_S_LAST_LO x) (FUS_S_LAST_HI x) = tov ∧ s.only [.dram, .rings, .fus, .rcd, .cyc] (complFlds 0x0C ring.val ++ [wordAt (FUS_S_LAST_LO x), wordAt (FUS_S_LAST_HI x)]) t) ∧
  (∀ (ring : Fin 1) (e : Entry) (x a n tov l : Nat) (v : FusSrc) (s : State), s.ready 0x0C ring.val 0 e → s.checkHandle 6 s.fusLive e.handle.toNat = none → hIndex e.handle.toNat = x → s.fusSrc x = some v → v.grid = true → v.feed = 0 →
    (s.cmdOf 0x0C ring.val e).arg 16 8 = a → a % 64 = 0 → s.inWins 0x0C a 64 = true → s.dramN a 4 = n → s.inWins 0x0C a (64 + 48 * n) = true → n ≤ v.maxPts → s.dramN (a + 8) 8 = tov → s.isFuture tov = false →
    s.fusOpen tov = false → s.fusAhead tov = false → s.fusNewest = some l → tov + s.fusW ≤ l → s.fusLate tov = true → s.now ≤ tov + v.lb * 1000000 → s.getB (FUS_S_STAT.LATE_F x) = false → s.reg SYS_DET_STATUS = 0#32 →
    ∃ t, exec (.fusSubmit ring e) s = .next t ∧ s.completed 0x0C ring.val e 0x00 e.handle.toNat t ∧ s.dramKept (s.complAddr 0x0C ring.val) 16 t ∧ t.get (FUS_S_CNT.LATE x) = min 65535 (s.get (FUS_S_CNT.LATE x) + 1) ∧
    t.get FUS_LATE_CNT.LATE = min 65535 (s.get FUS_LATE_CNT.LATE + 1) ∧ t.getB SYS_DET_STATUS.FUS_LATE = true ∧ t.get64 SYS_DET_FIRST_LO SYS_DET_FIRST_HI = s.now ∧ t.getB (FUS_S_STAT.LATE_F x) = true ∧
    s.raised 219 t ∧ s.raised 4 t ∧ t.get64 (FUS_S_LAST_LO x) (FUS_S_LAST_HI x) = tov ∧
    s.only [.dram, .rings, .rcd, .cyc] (complFlds 0x0C ring.val ++ [wordAt (FUS_S_LAST_LO x), wordAt (FUS_S_LAST_HI x), FUS_S_CNT.LATE x, FUS_LATE_CNT.LATE, SYS_DET_STATUS.FUS_LATE, wordAt SYS_DET_FIRST_LO, wordAt SYS_DET_FIRST_HI,
      FUS_S_STAT.LATE_F x] ++ raiseFlds 219 ++ raiseFlds 4) t) ∧
  (∀ (ring : Fin 1) (e : Entry) (x a tov : Nat) (v : FusSrc) (s : State), s.ready 0x0C ring.val 0 e → s.checkHandle 6 s.fusLive e.handle.toNat = none → hIndex e.handle.toNat = x → s.fusSrc x = some v → v.kind = 3 → v.feed = 0 →
    (s.cmdOf 0x0C ring.val e).arg 16 8 = a → a % 64 = 0 → s.inWins 0x0C a 64 = true → s.dramN a 1 = 1 → s.dramN (a + 1) 1 % 4 = 3 → s.dramN (a + 8) 8 = tov → s.isFuture tov = false → s.fus.insts = [] → s.now ≤ tov + v.lb * 1000000 →
    ∃ t, exec (.fusSubmit ring e) s = .next t ∧ s.completed 0x0C ring.val e 0x00 e.handle.toNat t ∧ s.dramKept (s.complAddr 0x0C ring.val) 16 t ∧
    t.fus = { s.fus with motion := s.fus.motion ++ [{ src := x, tov := tov, at0 := s.now, v := some (toSigned 32 (s.dramN (a + 16) 4)), w := some (toSigned 32 (s.dramN (a + 20) 4)) }] } ∧
    t.get64 (FUS_S_LAST_LO x) (FUS_S_LAST_HI x) = tov ∧ s.only [.dram, .rings, .fus, .rcd, .cyc] (complFlds 0x0C ring.val ++ [wordAt (FUS_S_LAST_LO x), wordAt (FUS_S_LAST_HI x)]) t) ∧
  (∀ (ring : Fin 1) (e : Entry) (x a tov : Nat) (v : FusSrc) (s : State), s.ready 0x0C ring.val 0 e → s.checkHandle 6 s.fusLive e.handle.toNat = none → hIndex e.handle.toNat = x → s.fusSrc x = some v → v.kind = 3 → v.feed = 0 →
    (s.cmdOf 0x0C ring.val e).arg 16 8 = a → a % 64 = 0 → s.inWins 0x0C a 64 = true → s.dramN a 1 = 1 → s.dramN (a + 8) 8 = tov → s.now + 1000000000 < tov → s.getB (FUS_S_STAT.FUT_F x) = false →
    ∃ t, exec (.fusSubmit ring e) s = .next t ∧ s.completed 0x0C ring.val e 0x05 e.handle.toNat t ∧ s.dramKept (s.complAddr 0x0C ring.val) 16 t ∧ t.get (FUS_S_CNT2.FUTURE x) = min 65535 (s.get (FUS_S_CNT2.FUTURE x) + 1) ∧
    t.getB (FUS_S_STAT.FUT_F x) = true ∧ s.raised 225 t ∧ s.only [.dram, .rings, .rcd, .cyc] (complFlds 0x0C ring.val ++ [FUS_S_CNT2.FUTURE x, FUS_S_STAT.FUT_F x] ++ raiseFlds 225) t) ∧
  (∀ (f : FusFeed) (rest : List FusFeed) (x : Nat) (v : FusSrc) (tov : Nat) (s : State), s.fus.inbox = f :: rest → s.fedSource f.kind f.link = some (x, v) → s.fusSrc x = some v → s.dramN f.addr 4 ≤ v.maxPts →
    (match f.tov with | some u => fromSigned 64 ((u : Int) + v.tovOfs) | none => s.dramN (f.addr + 8) 8) = tov → s.isFuture tov = false → s.fus.insts = [] → s.now ≤ tov + v.lb * 1000000 → ∃ t, exec .contributionArrive s = .next t ∧
    t.fus = { s.fus with inbox := rest, bodies := s.fus.bodies ++ [{ src := x, addr := f.addr, n := s.dramN f.addr 4, tov := tov, at0 := s.now, bytes := memBytes s.dram (f.addr + 64) (48 * s.dramN f.addr 4), used := false }] } ∧
    t.get64 (FUS_S_LAST_LO x) (FUS_S_LAST_HI x) = tov ∧ s.only [.fus] [wordAt (FUS_S_LAST_LO x), wordAt (FUS_S_LAST_HI x)] t) ∧
  (∀ (f : FusFeed) (rest : List FusFeed) (x : Nat) (v : FusSrc) (s : State), s.fus.inbox = f :: rest → s.fedSource f.kind f.link = some (x, v) → v.maxPts < s.dramN f.addr 4 → s.getB (FUS_S_STAT.UNUSED_F x) = false →
    ∃ t, exec .contributionArrive s = .next t ∧ t.fus = { s.fus with inbox := rest } ∧ t.get (FUS_S_CNT.UNUSED x) = min 65535 (s.get (FUS_S_CNT.UNUSED x) + 1) ∧ t.getB (FUS_S_STAT.UNUSED_F x) = true ∧ s.raised 224 t ∧
    s.only [.fus, .rcd, .cyc] ([FUS_S_CNT.UNUSED x, FUS_S_STAT.UNUSED_F x] ++ raiseFlds 224) t) ∧
  (∀ (gx gy gz ax ay az : BitVec 16) (s : State), s.loaded 5 = true → (s.fus.imuAt.any fun x => decide (s.now / 1000000 * 1000000 ≤ x)) = false → (s.fus.srcs.find? fun e => decide (e.2.kind = 4)) = none → ∃ t, exec (.imuSample gx gy gz ax ay az) s = .next t ∧
    t.get FUS_IMU0.GX = gx.toNat ∧ t.get FUS_IMU0.GY = gy.toNat ∧ t.get FUS_IMU1.GZ = gz.toNat ∧ t.get FUS_IMU1.AX = ax.toNat ∧ t.get FUS_IMU2.AY = ay.toNat ∧ t.get FUS_IMU2.AZ = az.toNat ∧
    t.get64 FUS_IMU_LTC_LO FUS_IMU_LTC_HI = s.now / 1000000 * 1000000 % 2 ^ 64 ∧ t.fus = { s.fus with imuAt := some (s.now / 1000000 * 1000000) } ∧
    s.only [.fus] [wordAt FUS_IMU0, wordAt FUS_IMU1, wordAt FUS_IMU2, wordAt FUS_IMU_LTC_LO, wordAt FUS_IMU_LTC_HI] t) ∧
  (∀ (gx gy gz ax ay az : BitVec 16) (x : Nat) (v : FusSrc) (w : Int) (s : State), s.loaded 5 = true → s.fus.imuAt = none → (s.fus.srcs.find? fun e => decide (e.2.kind = 4)) = some (x, v) → s.fusSrc x = some v → s.fus.insts = [] →
    w = (((s.calOf x).at 6 * gx.toInt + (s.calOf x).at 7 * gy.toInt + (s.calOf x).at 8 * gz.toInt) * 1000).fdiv (32768 * 360) → -2147483648 ≤ w → w < 2147483648 → s.now ≤ s.now / 1000000 * 1000000 + v.lb * 1000000 → s.now < 2 ^ 64 →
    ∃ t, exec (.imuSample gx gy gz ax ay az) s = .next t ∧
    t.fus = { s.fus with imuAt := some (s.now / 1000000 * 1000000), motion := s.fus.motion ++ [{ src := x, tov := s.now / 1000000 * 1000000, at0 := s.now, v := none, w := some w }] } ∧
    t.get64 (FUS_S_LAST_LO x) (FUS_S_LAST_HI x) = s.now / 1000000 * 1000000 ∧
    s.only [.fus] [wordAt FUS_IMU0, wordAt FUS_IMU1, wordAt FUS_IMU2, wordAt FUS_IMU_LTC_LO, wordAt FUS_IMU_LTC_HI, wordAt (FUS_S_LAST_LO x), wordAt (FUS_S_LAST_HI x)] t) ∧
  (∀ (core : Fin 8) (x : Fin 24) (value : Word) (s : State), s.closed (FUS_S_CAL_CTRL x.val) = false → s.fusLive x.val = true → bitAt value.toNat 31 = true → ∃ t, exec (.calCommit core x value) s = .next t ∧ t.getB (FUS_S_CAL_CTRL.PEND x.val) = true ∧
    s.only [.access] [FUS_S_CAL_CTRL.PEND x.val] t) ∧
  (∀ (core : Fin 8) (x : Fin 24) (v : FusSrc) (value : Word) (s : State), s.closed (FUS_S_VOTE x.val) = false → s.fusSrc x.val = some v → v.grid = true → bitAt value.toNat 31 = true → ∃ t, exec (.voteReadmit core x value) s = .next t ∧
    t.fus = { s.fus with srcs := tput s.fus.srcs x.val { v with readmit := true } } ∧ s.only [.access, .fus] [] t) ∧
  (∀ s : State, s.getB FUS_CTRL.ENABLE = true → ∃ t, exec .fusDisable s = .next t ∧ t.getB FUS_CTRL.ENABLE = false ∧ t.getB FUS_STATUS.RUN = false ∧ t.fus = { imuAt := s.fus.imuAt } ∧ t.get FUS_STATUS.SOURCES = 0 ∧
    t.getB FUS_STATUS.PUB = false ∧ (∀ x, x < 24 → s.fusLive x = true → t.getB (FUS_S_STAT.LIVE x) = false) ∧ s.within [.latch, .fus] (some [0xCC]) t)

/-- The boundary MT has reached is taken with the LTC and its MT. At L_k + D the earliest open instant closes: a waiting COMMIT takes effect, CALV
advances with BY_HOST, and a publication with the skipped count stands ready. Publication starts by reading the previous planes; at its end the planes
of R387 and R388 stand in the buffer of ISEQ, FUS_LAST and its LTC show it, its record stands at PI with source 217, or is lost with 218 when the ring
is full (stated without a grid head). A vote goes OUT at N dissents in a row unless NEVER_OUT, and back IN at M agreements (Table 18-2). Every clause
over a command names the parts, windows, fields and DRAM bytes that may differ. -/
def Obligations.CanvasInstantsAreTakenClosedAndPublished : Prop :=
  (∀ s : State, s.fusOn = true → s.fus.lastNom < s.fusNumber s.mtNow → s.fus.bodies = [] → ∃ t, exec .instantBoundary s = .next t ∧
    t.fus = { s.fus with lastNom := s.fus.lastNom + 1, insts := s.fus.insts ++ [(s.now, (s.fus.lastNom + 1) * s.fusP)] } ∧ s.only [.fus] [] t) ∧
  (∀ s : State, s.fusOn = true → s.fusNumber s.mtNow ≤ s.fus.lastNom → ∃ t, exec .instantBoundary s = .next t ∧ s.only [] [] t) ∧
  (∀ (l : Nat) (m : Int) (s : State), s.fus.insts[s.fus.closed]? = some (l, m) → s.enabled 0x0C = true → l + s.fusD ≤ s.now → s.fus.srcs = [] → s.fus.bodies = [] → s.fus.motion = [] → ∃ t, exec .instantClose s = .next t ∧
    t.fus.closed = s.fus.closed + 1 ∧ t.fus.fwd = false ∧ t.fus.back = false ∧ t.fus.skipped = 0 ∧ t.fus.insts = s.fus.insts ∧ t.fus.pubs.length = s.fus.pubs.length + 1 ∧
    t.fus.pubs.getLast?.map (·.n) = some s.fus.closed ∧ t.fus.pubs.getLast?.map (·.l) = some l ∧ t.fus.pubs.getLast?.map (·.t) = some m ∧ t.fus.pubs.getLast?.map (·.cells) = some [] ∧ t.fus.pubs.getLast?.map (·.oldest) = some none ∧
    t.fus.pubs.getLast?.map (·.mask) = some 0 ∧ t.fus.pubs.getLast?.map (·.skipped) = some (min 0xFFFF s.fus.skipped) ∧ t.fus.pubs.getLast?.map (·.decay) = some (s.get FUS_CARRY.DECAY) ∧
    t.fus.pubs.getLast?.map (·.flags) = some (b2n s.fus.fwd + 2 * b2n s.fus.back + 16) ∧ s.only [.fus] [] t) ∧
  (∀ (l x : Nat) (m : Int) (v : FusSrc) (s : State), s.fus.insts[s.fus.closed]? = some (l, m) → s.enabled 0x0C = true → l + s.fusD ≤ s.now → s.fus.srcs = [(x, v)] → v.grid = false → s.fus.bodies = [] → s.getB (FUS_S_CAL_CTRL.PEND x) = true →
    ∃ t, exec .instantClose s = .next t ∧ t.fus.closed = s.fus.closed + 1 ∧ (∀ i, i < 12 → t.reg (FUS_S_CAL x i) = s.reg (FUS_S_CALN x i)) ∧ t.getB (FUS_S_CAL_CTRL.PEND x) = false ∧
    t.get (FUS_S_CALV.CALV x) = (s.get (FUS_S_CALV.CALV x) + 1) % 65536 ∧ t.getB (FUS_S_CALV.BY_HOST x) = true ∧ t.getB (FUS_S_CALV.BUD_OUT x) = false ∧ t.fus.pubs.length = s.fus.pubs.length + 1 ∧
    s.within [.free, .cyc, .fus, .rcd] (some [0xC1, 0xCC]) t) ∧
  (∀ (p : FusPub) (rest : List FusPub) (s : State), s.fus.pubs = p :: rest → p.started = false → ∃ t, exec .publicationStart s = .next t ∧
    t.fus = { s.fus with pubs := { p with started := true, prev := (if p.n = 0 then [] else memBytes s.dram (s.fusBuf (s.fusBufOf (p.n - 1))) s.fusGrid.bufLen) } :: rest } ∧ t.getB FUS_STATUS.PUB = true ∧
    s.only [.fus] [FUS_STATUS.PUB, FUS_STATUS.SOURCES] t) ∧
  (∀ (p : FusPub) (rest : List FusPub) (pl : List Byte) (s : State), s.fus.pubs = p :: rest → p.started = true → s.reg FUS_HEAD = 0#32 → (if p.n = 0 then [] else memBytes s.dram (s.fusBuf (s.fusBufOf (p.n - 1))) s.fusGrid.bufLen) = p.prev →
    planes s.fusGrid (p.n = 0) p.decay p.pose p.cells p.tiles p.prev = pl → ((s.fus.insts[p.n + 1]?).any fun i => decide (i.1 + s.fusD < s.now)) = false → s.fusRecFill < s.fusRecMod / 2 →
    (s.get64 FUS_REC_BASE_LO FUS_REC_BASE_HI + 64 * (s.get FUS_REC_PI.PI % (s.fusRecMod / 2)) + 64 ≤ s.fusBuf (s.fusBufOf p.n) ∨
      s.fusBuf (s.fusBufOf p.n) + pl.length ≤ s.get64 FUS_REC_BASE_LO FUS_REC_BASE_HI + 64 * (s.get FUS_REC_PI.PI % (s.fusRecMod / 2))) →
    p.l < 2 ^ 64 → ∃ t, exec .instantEnd s = .next t ∧ memBytes t.dram (s.fusBuf (s.fusBufOf p.n)) pl.length = pl ∧
    memBytes t.dram (s.get64 FUS_REC_BASE_LO FUS_REC_BASE_HI + 64 * (s.get FUS_REC_PI.PI % (s.fusRecMod / 2))) 64 = p.bytes (s.fusBufOf p.n) (p.flags + b2n s.fus.gap * 4) ∧
    (∀ a, (a < s.fusBuf (s.fusBufOf p.n) ∨ s.fusBuf (s.fusBufOf p.n) + pl.length ≤ a) → (a < s.get64 FUS_REC_BASE_LO FUS_REC_BASE_HI + 64 * (s.get FUS_REC_PI.PI % (s.fusRecMod / 2)) ∨
      s.get64 FUS_REC_BASE_LO FUS_REC_BASE_HI + 64 * (s.get FUS_REC_PI.PI % (s.fusRecMod / 2)) + 64 ≤ a) → memByte t.dram a = memByte s.dram a) ∧
    (t.reg FUS_LAST).toNat = iseqOf p.n ∧ t.get64 FUS_LAST_LTC_LO FUS_LAST_LTC_HI = p.l ∧ t.get FUS_REC_PI.PI = (s.get FUS_REC_PI.PI + 1) % s.fusRecMod % 8192 ∧ t.fus.pubs = rest ∧ t.fus.gap = false ∧
    s.raised 217 t ∧ (bitAt p.flags 7 = true → s.fus.conflict = false → s.raised 228 t) ∧ (bitAt p.flags 8 = true → s.fus.unchecked = false → s.raised 229 t) ∧
    s.only [.dram, .fus, .rcd, .cyc] ([wordAt FUS_LAST, wordAt FUS_LAST_LTC_LO, wordAt FUS_LAST_LTC_HI, FUS_REC_PI.PI, FUS_TILE_SUM.CONFLICT, FUS_TILE_SUM.UNCHECKED, FUS_STATUS.SOURCES, FUS_STATUS.PUB] ++
      raiseFlds 217 ++ raiseFlds 221 ++ raiseFlds 228 ++ raiseFlds 229) t) ∧
  (∀ (p : FusPub) (rest : List FusPub) (pl : List Byte) (s : State), s.fus.pubs = p :: rest → p.started = true → s.reg FUS_HEAD = 0#32 → (if p.n = 0 then [] else memBytes s.dram (s.fusBuf (s.fusBufOf (p.n - 1))) s.fusGrid.bufLen) = p.prev →
    planes s.fusGrid (p.n = 0) p.decay p.pose p.cells p.tiles p.prev = pl → s.fusRecMod / 2 ≤ s.fusRecFill → ∃ t, exec .instantEnd s = .next t ∧ memBytes t.dram (s.fusBuf (s.fusBufOf p.n)) pl.length = pl ∧
    s.dramKept (s.fusBuf (s.fusBufOf p.n)) pl.length t ∧ t.get FUS_REC_DROP.DROP = min 65535 (s.get FUS_REC_DROP.DROP + 1) ∧ t.fus.gap = true ∧ s.raised 218 t ∧ t.fus.pubs = rest ∧
    s.only [.dram, .fus, .rcd, .cyc] ([wordAt FUS_LAST, wordAt FUS_LAST_LTC_LO, wordAt FUS_LAST_LTC_HI, FUS_REC_DROP.DROP, FUS_CNT.OVERRUN, FUS_TILE_SUM.CONFLICT, FUS_TILE_SUM.UNCHECKED, FUS_STATUS.SOURCES, FUS_STATUS.PUB] ++
      raiseFlds 218 ++ raiseFlds 221 ++ raiseFlds 222 ++ raiseFlds 228 ++ raiseFlds 229) t) ∧
  (∀ (n m : Nat) (neverOut : Bool) (x : FusVote), x.out = false → voteStep n m neverOut true .dissents x = (if n ≠ 0 ∧ n ≤ x.strike + 1 ∧ neverOut = false then { out := true, strike := 0, agree := 0 } else { x with strike := x.strike + 1 })) ∧
  (∀ (n m : Nat) (neverOut voted : Bool) (x : FusVote), x.out = true → voteStep n m neverOut voted .agrees x = (if m ≤ x.agree + 1 then { x with out := false, agree := 0 } else { x with agree := x.agree + 1 }))

/-- A window due with no pose adds its wet mass to YLD_UNMAP (245); one INP did not deliver counts LATE with a violation and 242. With one pose, one layer
and a width within a cell it opens the tile of the pose's cell, whose cell holds wet, dry, area, moisture and POSE_HOLD, also in the buffer. Under the
grant of ARB1 the next closed tile's record stands at its slot of the log, WPOS and TSEQ advance, 241 is raised and the grant is free. A layer is
made, destroyed and flushed, a pose taken in order of its stamp, counted late with a violation where a computed window would have used it, or refused
with 0x05 or 0x21. A layer whose slots lie outside the data partition (free, log entry 17) gets 0x05. Disabling YLD leaves no layer. Every clause
names the parts, windows, fields and bytes that may differ. -/
def Obligations.YieldWindowsTilesAndLayersFollowChapter19 : Prop :=
  (∀ (e w : Nat) (f : FlowWin) (x : Nat) (s : State), s.enabled 0x0D = true → s.yld.nextE = some e → e + s.get YLD_CFG.CD_MS * 1000000 ≤ s.now → (s.inp.flowQ.find? fun g => decide (g.endLtc = e)) = some f → s.loaded 0 = true →
    s.getB YLD_MOIST_CFG.MODE = false → s.yld.poses = [] → s.yld.layers = [] → (∀ n ∈ List.range 8, s.getB (YLD_LOSS.EN n) = false) → s.get YLD_HDR_CFG.WMODE = 0 → s.arbHolds 21 = false →
    f.valid = true → F.mul (F.mul f.flow (F.ofNat 10000)) (s.reg YLD_CAL).toNat = x → F.isNan x = false → F.isInf x = false →
    (if (F.parts x).1 < 0 then 0 else min 2147483647 (if 0 ≤ (F.parts x).2 then (F.parts x).1.natAbs * 2 ^ (F.parts x).2.toNat else F.rneShift (F.parts x).1.natAbs (-(F.parts x).2).toNat false)) = w →
    ∃ t, exec .yldCompute s = .next t ∧ t.yld.lastE = some e ∧ t.yld.nextE = some (e + 10000000) ∧ t.yld.flow = some f ∧ t.yld.unmapMg = (s.yld.unmapMg + w) % 1000000 ∧
    t.get YLD_UNMAP.KG = min 4294967295 (s.get YLD_UNMAP.KG + (s.yld.unmapMg + w) / 1000000) ∧ s.raised 245 t ∧ (∀ g ∈ t.inp.flowQ, e < g.endLtc) ∧
    s.only [.yld, .inp, .arb, .rcd, .cyc] ([YLD_UNMAP.KG, ARB_REQ.PEND 21] ++ yldShowFlds ++ raiseFlds 245) t) ∧
  (∀ (e : Nat) (s : State), s.enabled 0x0D = true → s.yld.nextE = some e → e + s.get YLD_CFG.CD_MS * 1000000 ≤ s.now → (s.inp.flowQ.find? fun g => decide (g.endLtc = e)) = none → s.yld.flow = none →
    s.getB YLD_MOIST_CFG.MODE = false → s.yld.poses = [] → s.yld.layers = [] → (∀ n ∈ List.range 8, s.getB (YLD_LOSS.EN n) = false) → s.get YLD_HDR_CFG.WMODE = 0 → s.arbHolds 21 = false → s.reg SYS_DET_STATUS = 0#32 →
    ∃ t, exec .yldCompute s = .next t ∧ t.yld.lastE = some e ∧ t.yld.nextE = some (e + 10000000) ∧ t.get YLD_CNT.LATE = min 65535 (s.get YLD_CNT.LATE + 1) ∧ t.getB SYS_DET_STATUS.YLD_LATE = true ∧
    t.get64 SYS_DET_FIRST_LO SYS_DET_FIRST_HI = s.now ∧ s.raised 242 t ∧ s.raised 4 t ∧
    s.only [.yld, .inp, .arb, .rcd, .cyc] ([YLD_CNT.LATE, SYS_DET_STATUS.YLD_LATE, wordAt SYS_DET_FIRST_LO, wordAt SYS_DET_FIRST_HI, YLD_UNMAP.KG, ARB_REQ.PEND 21] ++ yldShowFlds ++ raiseFlds 242 ++ raiseFlds 4 ++ raiseFlds 245) t) ∧
  (∀ (e w m : Nat) (f : FlowWin) (a : YldPose) (l : Nat) (v : YldLayer) (x k : Nat) (s : State), s.enabled 0x0D = true → s.yld.nextE = some e → e + s.get YLD_CFG.CD_MS * 1000000 ≤ s.now →
    (s.inp.flowQ.find? fun g => decide (g.endLtc = e)) = some f → s.loaded 0 = true → s.getB YLD_MOIST_CFG.MODE = false → s.yld.poses = [a] → a.tov ≤ s.yldP e → a.at0 < e + s.get YLD_CFG.CD_MS * 1000000 → s.yld.layers = [(l, v)] → v.tiles = [] → v.waits = [] → 2 ≤ v.nslot →
    (∀ n ∈ List.range 8, s.getB (YLD_LOSS.EN n) = false) → s.get YLD_HDR_CFG.WMODE = 0 → 1 ≤ s.get YLD_HDR_CFG.HDR_W → s.get YLD_HDR_CFG.HDR_W ≤ v.cellMm → s.arbHolds 21 = false →
    f.valid = true → F.mul (F.mul f.flow (F.ofNat 10000)) (s.reg YLD_CAL).toNat = x → F.isNan x = false → F.isInf x = false →
    (if (F.parts x).1 < 0 then 0 else min 2147483647 (if 0 ≤ (F.parts x).2 then (F.parts x).1.natAbs * 2 ^ (F.parts x).2.toNat else F.rneShift (F.parts x).1.natAbs (-(F.parts x).2).toNat false)) = w →
    min 10000 (s.get YLD_MOIST_CFG.FIX) = m → (floorDivNat a.n v.cellMm % 64).toNat * 64 + (floorDivNat a.e v.cellMm % 64).toNat = k → ∃ t, exec .yldCompute s = .next t ∧ t.yld.lastE = some e ∧ t.yld.nextE = some (e + 10000000) ∧
    (tget t.yld.layers l).map (·.tiles) = some [{ te := floorDivNat (floorDivNat a.e v.cellMm) 64, tn := floorDivNat (floorDivNat a.n v.cellMm) 64, buf := some 0, first := e, last := e, nwin := 1, wet := w, cells := [(k, { wet := w, dry := w * (10000 - m) / 10000, loss := 0, area := s.get YLD_HDR_CFG.HDR_W * a.v / 100 % 2 ^ 64, moist := w * m, nwin := 1, flags := 2 })] }] ∧
    memBytes t.dram (v.cache + 64 + 24 * k) 24 = YldCell.bytes { wet := w, dry := w * (10000 - m) / 10000, loss := 0, area := s.get YLD_HDR_CFG.HDR_W * a.v / 100 % 2 ^ 64, moist := w * m, nwin := 1, flags := 2 } ∧
    s.dramKept v.cache 102400 t ∧ s.only [.dram, .yld, .inp, .arb] (ARB_REQ.PEND 21 :: yldShowFlds) t) ∧
  (∀ (l n : Nat) (v : YldLayer) (q : YldTile) (s : State), s.enabled 0x0D = true → s.arbHolds 21 = true → s.yld.layers = [(l, v)] → v.tiles = [q] → q.closed = some n → v.waits = [] → v.wpos + 1 < v.slots → s.getB (ARB_CFG.FREEZE 1) = false →
    l < 8 → ∃ t, exec .yldTile s = .next t ∧ memBytes t.ufs ((v.lba + 25 * v.wpos) * 4096) (s.tileRecord l v q).length = s.tileRecord l v q ∧
    t.yld.layers = [(l, { v with wpos := v.wpos + 1, tseq := (v.tseq + 1) % 2 ^ 32, tiles := [] })] ∧ t.get (YLD_L_TSEQ.TSEQ l) = (v.tseq + 1) % 2 ^ 32 ∧ t.get (YLD_L_WPOS.WPOS l) = (v.wpos + 1) % 2 ^ 25 ∧ s.raised 241 t ∧
    t.arbHolds 21 = false ∧ s.only [.ufs, .yld, .arb, .rcd, .cyc] ([ARB_REQ.PEND 21, ARB_STAT.GRANTED 1, ARB_STAT.OWNER 1, ARB_STAT.CLASS 1, ARB_STAT.DRAINED 1] ++ yldShowFlds ++ raiseFlds 241) t) ∧
  (∀ (ring : Fin 1) (e : Entry) (x cell ns cache lba slots : Nat) (s : State), s.ready 0x0D ring.val 0 e → tfree s.yld.layers 8 = some x → (s.cmdOf 0x0D ring.val e).arg 16 2 = cell → (s.cmdOf 0x0D ring.val e).arg 18 2 = ns →
    (s.cmdOf 0x0D ring.val e).arg 24 8 = cache → (s.cmdOf 0x0D ring.val e).arg 32 8 = lba → (s.cmdOf 0x0D ring.val e).arg 40 4 = slots → 250 ≤ cell → cell ≤ 10000 → 2 ≤ ns → ns ≤ 64 → cache % 4096 = 0 →
    s.inWins 0x0D cache (ns * 102400) = true → 1 ≤ slots → slots ≤ 16777216 → (s.yld.layers.any fun d => overlaps (lba, 25 * slots) (d.2.lba, 25 * d.2.slots)) = false →
    ∃ t, exec (.layerCreate ring e) s = .next t ∧ s.dramKept (s.complAddr 0x0D ring.val) 16 t ∧
    (inDataPart lba (25 * slots) = true → s.completed 0x0D ring.val e 0x00 (t.handle 0x0C x) t ∧ t.gen 0x0C x = (s.gen 0x0C x + 1) % 1024 ∧
    t.yld = { s.yld with layers := tput s.yld.layers x { cellMm := cell, nslot := ns, cropId := (s.cmdOf 0x0D ring.val e).arg 20 4, cache := cache, lba := lba, slots := slots } } ∧ t.getB (YLD_L_STAT.LIVE x) = true ∧
    t.getB (YLD_L_STAT.LOG_FULL x) = false ∧ t.get (YLD_L_WPOS.WPOS x) = 0) ∧
    (inDataPart lba (25 * slots) = false → s.completed 0x0D ring.val e 0x05 0 t ∧ t.yld = s.yld) ∧
    s.only [.dram, .rings, .gens, .yld, .rcd, .cyc] (complFlds 0x0D ring.val ++ yldShowFlds) t) ∧
  (∀ (ring : Fin 1) (e : Entry) (x : Nat) (v : YldLayer) (s : State), s.ready 0x0D ring.val 0 e → s.checkHandle 0x0C s.yldLive e.handle.toNat = none → hIndex e.handle.toNat = x → s.yldLayer x = some v →
    ∃ t, exec (.layerDestroy ring e) s = .next t ∧ s.started 0x0D ring.val 2 e t ∧
    t.yld = { s.yld with layers := tput s.yld.layers x { v with waits := v.waits ++ [{ id := (s.ring 0x0D ring.val).nextId, destroy := true, tiles := none }] } } ∧ s.only [.rings, .yld] [] t) ∧
  (∀ (ring : Fin 1) (e : Entry) (x : Nat) (v : YldLayer) (s : State), s.ready 0x0D ring.val 0 e → s.checkHandle 0x0C s.yldLive e.handle.toNat = none → hIndex e.handle.toNat = x → s.yldLayer x = some v → v.waits = [] →
    ∃ t, exec (.yldFlush ring e) s = .next t ∧ s.started 0x0D ring.val 4 e t ∧
    t.yld = { s.yld with layers := tput s.yld.layers x { v with waits := [{ id := (s.ring 0x0D ring.val).nextId, destroy := false, tiles := none }] } } ∧ s.only [.rings, .yld] [] t) ∧
  (∀ (ring : Fin 1) (e : Entry) (p : YldPose) (s : State), s.ready 0x0D ring.val 0 e → (s.cmdOf 0x0D ring.val e).arg 16 8 = p.tov → toSigned 64 ((s.cmdOf 0x0D ring.val e).arg 24 8) = p.e → toSigned 64 ((s.cmdOf 0x0D ring.val e).arg 32 8) = p.n →
    (s.cmdOf 0x0D ring.val e).arg 40 4 = p.psi → (s.cmdOf 0x0D ring.val e).arg 44 4 = p.v → p.at0 = s.now → p.tov ≤ s.now → (s.yld.poses.any fun q => decide (p.tov ≤ q.tov)) = false →
    (s.yldDue.any fun c => decide (p.tov ≤ s.yldP c)) = false → ∃ t, exec (.yldPose ring e) s = .next t ∧ s.completed 0x0D ring.val e 0x00 e.handle.toNat t ∧ s.dramKept (s.complAddr 0x0D ring.val) 16 t ∧
    t.yld = { s.yld with poses := (s.yld.poses.filter fun q => decide (p.tov ≤ q.tov + 30000000000)) ++ [p] } ∧ s.only [.dram, .rings, .yld, .rcd, .cyc] (complFlds 0x0D ring.val) t) ∧
  (∀ (ring : Fin 1) (e : Entry) (p : YldPose) (c : Nat) (s : State), s.ready 0x0D ring.val 0 e → (s.cmdOf 0x0D ring.val e).arg 16 8 = p.tov → toSigned 64 ((s.cmdOf 0x0D ring.val e).arg 24 8) = p.e → toSigned 64 ((s.cmdOf 0x0D ring.val e).arg 32 8) = p.n →
    (s.cmdOf 0x0D ring.val e).arg 40 4 = p.psi → (s.cmdOf 0x0D ring.val e).arg 44 4 = p.v → p.at0 = s.now → p.tov ≤ s.now → (s.yld.poses.any fun q => decide (p.tov ≤ q.tov)) = false →
    s.yldDue = some c → p.tov ≤ s.yldP c → s.reg SYS_DET_STATUS = 0#32 → ∃ t, exec (.yldPose ring e) s = .next t ∧ s.completed 0x0D ring.val e 0x00 e.handle.toNat t ∧ s.dramKept (s.complAddr 0x0D ring.val) 16 t ∧
    t.yld = { s.yld with poses := (s.yld.poses.filter fun q => decide (p.tov ≤ q.tov + 30000000000)) ++ [p] } ∧ t.get YLD_CNT.LATE = min 65535 (s.get YLD_CNT.LATE + 1) ∧ t.getB SYS_DET_STATUS.YLD_LATE = true ∧
    s.raised 242 t ∧ s.raised 4 t ∧ s.only [.dram, .rings, .yld, .rcd, .cyc] (complFlds 0x0D ring.val ++ [YLD_CNT.LATE, SYS_DET_STATUS.YLD_LATE, wordAt SYS_DET_FIRST_LO, wordAt SYS_DET_FIRST_HI] ++ raiseFlds 242 ++ raiseFlds 4) t) ∧
  (∀ (ring : Fin 1) (e : Entry) (s : State), s.ready 0x0D ring.val 0 e → (s.now < (s.cmdOf 0x0D ring.val e).arg 16 8 ∨ (s.yld.poses.any fun q => decide ((s.cmdOf 0x0D ring.val e).arg 16 8 ≤ q.tov)) = true) →
    ∃ t, exec (.yldPose ring e) s = .next t ∧ s.completed 0x0D ring.val e (if s.now < (s.cmdOf 0x0D ring.val e).arg 16 8 then 0x05 else 0x21) e.handle.toNat t ∧ s.dramKept (s.complAddr 0x0D ring.val) 16 t ∧
    s.only [.dram, .rings, .rcd, .cyc] (complFlds 0x0D ring.val) t) ∧
  (∀ s : State, s.getB YLD_CTRL.ENABLE = true → ∃ t, exec .yldDisable s = .next t ∧ t.getB YLD_CTRL.ENABLE = false ∧ t.yld = {} ∧ t.inp = { s.inp with flowQ := [], lacQ := [] } ∧ t.get YLD_STATUS.LAYERS = 0 ∧
    (∀ x, x < 8 → t.reg (YLD_L_STAT x) = 0#32 ∧ t.reg (YLD_L_WPOS x) = 0#32 ∧ t.reg (YLD_L_TSEQ x) = 0#32) ∧ t.arbHolds 21 = false ∧
    s.within [.dram, .free, .cyc, .rings, .inp, .yld, .arb, .rcd] (some [0xC1, 0xCB, 0xCD]) t)

/-- An error the receiver detects adds 1 or 8 to REC, a transmit error 8 to TEC; over 127 STATE is 1, over 255 bus-off, each change raising STATE;
recovery starts by AUTO_REC or RECOVER and ends error-active with both counters 0. TXD_DOM and BUS_DOM set their alerts, TXD_DOM goes bus-off;
integration ends error-active. SEND makes a transmit object pending, or counts WIGN; with FAILED while MODE listens only; ABORT clears PEND with
FAILED, or bars retries where the frame is on the wire (a free bit where bus timing decides). An acknowledged send clears PEND, sets DONE with its
stamp, lowers TEC; a failed single shot sets FAILED; three clashes in 1 s alert. Disabling BUS leaves no object. Every clause names the parts, windows
and fields that may differ. -/
def Obligations.CanControllersCountErrorsSendAndRecover : Prop :=
  (∀ (n : Fin 8) (kind : Fin 3) (r : Nat) (s : State), s.canLive n.val = true → kind ≠ 0 → r = (if kind = 1 then 1 else 8) → ∃ t, exec (.canRxError n kind) s = .next t ∧
    t.get (BUS_C_STAT.REC n.val) = min 255 (s.get (BUS_C_STAT.REC n.val) + r) ∧ t.get (BUS_C_STAT.STATE n.val) = (if 127 < s.get (BUS_C_STAT.TEC n.val) ∨ 127 < s.get (BUS_C_STAT.REC n.val) + r then 1 else 0) ∧
    (t.get (BUS_C_STAT.STATE n.val) ≠ s.get (BUS_C_STAT.STATE n.val) → s.raised (251 + 6 * n.val) t) ∧ s.only [.rcd, .cyc] ([BUS_C_STAT.REC n.val, BUS_C_STAT.STATE n.val] ++ raiseFlds (251 + 6 * n.val)) t) ∧
  (∀ (n : Fin 8) (s : State), s.canOn n.val = true → s.get (BUS_C_STAT.STATE n.val) = 3 → ∃ t, exec (.canBusIntegration n) s = .next t ∧ t.get (BUS_C_STAT.STATE n.val) = 0 ∧ s.only [] [BUS_C_STAT.STATE n.val] t) ∧
  (∀ (n : Fin 8) (s : State), s.canOn n.val = true → 255 < s.get (BUS_C_STAT.TEC n.val) → s.get (BUS_C_STAT.STATE n.val) < 2 → s.wireHeld n.val none = false → ∃ t, exec (.busOff n) s = .next t ∧ t.get (BUS_C_STAT.STATE n.val) = 2 ∧
    (t.busCtl n.val).recovering = s.getB (BUS_C_CFG.AUTO_REC n.val) ∧ s.raised (251 + 6 * n.val) t ∧ s.only [.bus, .rcd, .cyc] (BUS_C_STAT.STATE n.val :: raiseFlds (251 + 6 * n.val)) t) ∧
  (∀ (n : Fin 8) (x : Nat) (o : CanObj) (s : State), s.canOn n.val = true → 255 < s.get (BUS_C_STAT.TEC n.val) → s.get (BUS_C_STAT.STATE n.val) < 2 → s.bus.objs = [(x, o)] → o.ctrl = n.val → o.noRetry = true → o.dying = none → x < 2048 →
    ∃ t, exec (.busOff n) s = .next t ∧ t.get (BUS_C_STAT.STATE n.val) = 2 ∧ t.getB (BUS_OBJ_STAT.PEND x) = false ∧ t.getB (BUS_OBJ_STAT.FAILED x) = true ∧ (o.irq = true → s.raised (250 + 6 * n.val) t) ∧ s.raised (251 + 6 * n.val) t ∧
    t.busObj x = some { o with noRetry := false } ∧ s.only [.bus, .rcd, .cyc] ([BUS_C_STAT.STATE n.val, BUS_OBJ_STAT.PEND x, BUS_OBJ_STAT.FAILED x] ++ raiseFlds (250 + 6 * n.val) ++ raiseFlds (251 + 6 * n.val)) t) ∧
  (∀ (n : Fin 8) (s : State), s.canOn n.val = true → s.get (BUS_C_STAT.STATE n.val) = 2 → (s.busCtl n.val).recovering = true → ∃ t, exec (.busOffRecovered n) s = .next t ∧ t.get (BUS_C_STAT.STATE n.val) = 0 ∧
    t.get (BUS_C_STAT.TEC n.val) = 0 ∧ t.get (BUS_C_STAT.REC n.val) = 0 ∧ (t.busCtl n.val).recovering = false ∧ s.raised (251 + 6 * n.val) t ∧
    s.only [.bus, .rcd, .cyc] ([BUS_C_STAT.STATE n.val, BUS_C_STAT.TEC n.val, BUS_C_STAT.REC n.val] ++ raiseFlds (251 + 6 * n.val)) t) ∧
  (∀ (core n : Fin 8) (value : Word) (s : State), s.closed (BUS_C_STAT n.val) = false → bitAt value.toNat 31 = true → s.canOn n.val = true → s.get (BUS_C_STAT.STATE n.val) = 2 → ∃ t, exec (.busRecover core n value) s = .next t ∧
    t.bus = { s.bus with ctls := tput s.bus.ctls n.val { s.busCtl n.val with recovering := true } } ∧ s.only [.access, .bus] [] t) ∧
  (∀ (n : Fin 8) (s : State), s.canOn n.val = true → s.get (BUS_C_STAT.STATE n.val) < 2 → s.wireHeld n.val none = false → ∃ t, exec (.txdDom n) s = .next t ∧ bitAt (t.get (BUS_C_ALERT.ALERT n.val)) 3 = true ∧ t.get (BUS_C_STAT.STATE n.val) = 2 ∧
    (t.busCtl n.val).recovering = s.getB (BUS_C_CFG.AUTO_REC n.val) ∧ s.raised (251 + 6 * n.val) t ∧ (bitAt (s.get (BUS_C_ALERT.ALERT n.val)) 3 = false → s.raised (253 + 6 * n.val) t) ∧
    s.only [.bus, .rcd, .cyc] ([⟨BUS_C_ALERT n.val, 3, 1⟩, BUS_C_STAT.STATE n.val] ++ raiseFlds (251 + 6 * n.val) ++ raiseFlds (253 + 6 * n.val)) t) ∧
  (∀ (n : Fin 8) (s : State), s.canOn n.val = true → ∃ t, exec (.busDom n) s = .next t ∧ bitAt (t.get (BUS_C_ALERT.ALERT n.val)) 4 = true ∧ (bitAt (s.get (BUS_C_ALERT.ALERT n.val)) 4 = false → s.raised (253 + 6 * n.val) t) ∧
    s.only [.rcd, .cyc] (⟨BUS_C_ALERT n.val, 4, 1⟩ :: raiseFlds (253 + 6 * n.val)) t) ∧
  (∀ (core : Fin 8) (x : Fin 2048) (o : CanObj) (value : Word) (s : State), s.closed (BUS_OBJ_CTRL x.val) = false → s.busObj x.val = some o → o.tx = true → bitAt value.toNat 0 = true → bitAt value.toNat 1 = false →
    s.getB (BUS_OBJ_STAT.PEND x.val) = false → ((s.reg (BUS_OBJ_REC x.val 1)).toNat % 4 = 0 ∨ s.getB (BUS_C_CFG.FD_EN o.ctrl) = true) → s.get (BUS_C_CFG.MODE o.ctrl) ≠ 1 → ∃ t, exec (.objSend core x value) s = .next t ∧
    t.getB (BUS_OBJ_STAT.PEND x.val) = true ∧ t.busObj x.val = some { o with pendAt := s.now, noRetry := false } ∧ s.only [.access, .bus] [BUS_OBJ_STAT.PEND x.val] t) ∧
  (∀ (core : Fin 8) (x : Fin 2048) (o : CanObj) (value : Word) (s : State), s.closed (BUS_OBJ_CTRL x.val) = false → s.busObj x.val = some o → o.tx = true → bitAt value.toNat 0 = true → bitAt value.toNat 1 = false →
    s.getB (BUS_OBJ_STAT.PEND x.val) = false → ((s.reg (BUS_OBJ_REC x.val 1)).toNat % 4 = 0 ∨ s.getB (BUS_C_CFG.FD_EN o.ctrl) = true) → s.get (BUS_C_CFG.MODE o.ctrl) = 1 → ∃ t, exec (.objSend core x value) s = .next t ∧
    t.getB (BUS_OBJ_STAT.FAILED x.val) = true ∧ (o.irq = true → s.raised (250 + 6 * o.ctrl) t) ∧ s.only [.access, .rcd, .cyc] ([BUS_OBJ_STAT.PEND x.val, BUS_OBJ_STAT.FAILED x.val] ++ raiseFlds (250 + 6 * o.ctrl)) t) ∧
  (∀ (core : Fin 8) (x : Fin 2048) (o : CanObj) (value : Word) (s : State), s.closed (BUS_OBJ_CTRL x.val) = false → s.busObj x.val = some o → o.tx = true → bitAt value.toNat 0 = true → bitAt value.toNat 1 = false →
    (s.getB (BUS_OBJ_STAT.PEND x.val) = true ∨ (s.reg (BUS_OBJ_REC x.val 1)).toNat % 4 ≠ 0 ∧ s.getB (BUS_C_CFG.FD_EN o.ctrl) = false) → ∃ t, exec (.objSend core x value) s = .next t ∧
    t.get (BUS_C_CNT.WIGN o.ctrl) = min 65535 (s.get (BUS_C_CNT.WIGN o.ctrl) + 1) ∧ s.only [.access] [BUS_C_CNT.WIGN o.ctrl] t) ∧
  (∀ (core : Fin 8) (x : Fin 2048) (o : CanObj) (value : Word) (s : State), s.closed (BUS_OBJ_CTRL x.val) = false → s.busObj x.val = some o → o.tx = true → o.ctrl < 8 → bitAt value.toNat 0 = false → bitAt value.toNat 1 = true →
    s.getB (BUS_OBJ_STAT.PEND x.val) = true → ∃ t, exec (.objAbort core x value) s = .next t ∧ t.free = s.free + 1 ∧
    (s.onWire x.val o = false → t.getB (BUS_OBJ_STAT.PEND x.val) = false ∧ t.getB (BUS_OBJ_STAT.FAILED x.val) = true ∧ (o.irq = true → s.raised (250 + 6 * o.ctrl) t)) ∧
    (s.onWire x.val o = true → t.busObj x.val = some { o with noRetry := true } ∧ t.getB (BUS_OBJ_STAT.PEND x.val) = true) ∧
    s.only [.access, .bus, .free, .rcd, .cyc] ([BUS_OBJ_STAT.PEND x.val, BUS_OBJ_STAT.FAILED x.val] ++ raiseFlds (250 + 6 * o.ctrl)) t) ∧
  (∀ (n : Fin 8) (x : Fin 2048) (sof : Nat) (o : CanObj) (s : State), s.canLive n.val = true → s.get (BUS_C_CFG.MODE n.val) = 0 → s.busObj x.val = some o → o.tx = true → o.ctrl = n.val → s.getB (BUS_OBJ_STAT.PEND x.val) = true →
    s.objFirst x.val o sof = true → s.wireHeld n.val (some x.val) = false → o.dying = none → s.get (BUS_C_STAT.STATE n.val) = 0 → s.get (BUS_C_STAT.TEC n.val) ≤ 127 → s.get (BUS_C_STAT.REC n.val) ≤ 127 → ∃ t, exec (.canTxDone n (some x) sof) s = .next t ∧
    t.getB (BUS_OBJ_STAT.PEND x.val) = false ∧ t.getB (BUS_OBJ_STAT.DONE x.val) = true ∧ (t.reg (BUS_OBJ_REC x.val 4)).toNat = sof % 2 ^ 32 ∧ (t.reg (BUS_OBJ_REC x.val 5)).toNat = sof / 2 ^ 32 % 2 ^ 32 ∧
    t.get (BUS_C_STAT.TEC n.val) = s.get (BUS_C_STAT.TEC n.val) - 1 ∧ (o.irq = true → s.raised (250 + 6 * n.val) t) ∧ t.busObj x.val = some { o with noRetry := false } ∧
    s.only [.bus, .rcd, .cyc] ([BUS_OBJ_STAT.PEND x.val, BUS_OBJ_STAT.DONE x.val, wordAt (BUS_OBJ_REC x.val 4), wordAt (BUS_OBJ_REC x.val 5), BUS_C_STAT.TEC n.val] ++ raiseFlds (250 + 6 * n.val)) t) ∧
  (∀ (n : Fin 8) (sof : Nat) (f : TpTx) (rest : List TpTx) (s : State), s.canLive n.val = true → s.get (BUS_C_CFG.MODE n.val) = 0 → (s.busCtl n.val).txq = f :: rest → f.sess = none → s.wireHeld n.val none = false → 
    s.get (BUS_C_STAT.STATE n.val) = 0 → s.get (BUS_C_STAT.TEC n.val) ≤ 127 → s.get (BUS_C_STAT.REC n.val) ≤ 127 → ∃ t, exec (.canTxDone n none sof) s = .next t ∧ (t.busCtl n.val).txq = rest ∧
    t.get (BUS_C_STAT.TEC n.val) = s.get (BUS_C_STAT.TEC n.val) - 1 ∧ s.only [.bus] [BUS_C_STAT.TEC n.val] t) ∧
  (∀ (n : Fin 8) (x : Fin 2048) (o : CanObj) (s : State), s.canLive n.val = true → s.get (BUS_C_CFG.MODE n.val) ≠ 1 → s.busObj x.val = some o → o.tx = true → o.ctrl = n.val → s.getB (BUS_OBJ_STAT.PEND x.val) = true →
    s.wireHeld n.val (some x.val) = false → o.dying = none → o.single = true → ∃ t, exec (.canTxError n (some x) 2) s = .next t ∧ t.get (BUS_C_STAT.TEC n.val) = min 511 (s.get (BUS_C_STAT.TEC n.val) + 8) ∧
    t.get (BUS_C_STAT.STATE n.val) = (if 127 < s.get (BUS_C_STAT.TEC n.val) + 8 ∨ 127 < s.get (BUS_C_STAT.REC n.val) then 1 else 0) ∧
    (t.get (BUS_C_STAT.STATE n.val) ≠ s.get (BUS_C_STAT.STATE n.val) → s.raised (251 + 6 * n.val) t) ∧
    t.getB (BUS_OBJ_STAT.PEND x.val) = false ∧ t.getB (BUS_OBJ_STAT.FAILED x.val) = true ∧ (o.irq = true → s.raised (250 + 6 * n.val) t) ∧
    s.only [.bus, .rcd, .cyc] ([BUS_OBJ_STAT.PEND x.val, BUS_OBJ_STAT.FAILED x.val, BUS_C_STAT.TEC n.val, BUS_C_STAT.STATE n.val] ++ raiseFlds (250 + 6 * n.val) ++ raiseFlds (251 + 6 * n.val)) t) ∧
  (∀ (n : Fin 8) (x : Fin 2048) (o : CanObj) (s : State), s.canLive n.val = true → s.get (BUS_C_CFG.MODE n.val) ≠ 1 → s.busObj x.val = some o → o.tx = true → o.ctrl = n.val → s.getB (BUS_OBJ_STAT.PEND x.val) = true →
    s.wireHeld n.val (some x.val) = false → o.dying = none → o.single = false → o.noRetry = false → 2 ≤ (o.clash.filter fun c => decide (s.now < c + 1000000000)).length → ∃ t, exec (.canTxError n (some x) 3) s = .next t ∧
    t.get (BUS_C_CLASH.ID n.val) = idKey (s.objId x.val) ∧ bitAt (t.get (BUS_C_ALERT.ALERT n.val)) 0 = true ∧ (bitAt (s.get (BUS_C_ALERT.ALERT n.val)) 0 = false → s.raised (253 + 6 * n.val) t) ∧
    t.getB (BUS_OBJ_STAT.PEND x.val) = true ∧ t.busObj x.val = some { o with clash := (o.clash.filter fun c => decide (s.now < c + 1000000000)) ++ [s.now] } ∧
    t.get (BUS_C_STAT.TEC n.val) = min 511 (s.get (BUS_C_STAT.TEC n.val) + 8) ∧ s.only [.bus, .rcd, .cyc] ([BUS_C_STAT.TEC n.val, BUS_C_STAT.STATE n.val, BUS_C_CLASH.ID n.val, ⟨BUS_C_ALERT n.val, 0, 1⟩] ++ raiseFlds (251 + 6 * n.val) ++ raiseFlds (253 + 6 * n.val)) t) ∧
  (∀ s : State, s.getB BUS_CTRL.ENABLE = true → ∃ t, exec .busDisable s = .next t ∧ t.getB BUS_CTRL.ENABLE = false ∧ t.bus = {} ∧ t.get BUS_STATUS.OBJECTS = 0 ∧ t.get BUS_STATUS.SESSIONS = 0 ∧ t.get BUS_STATUS.QUEUES = 0 ∧
    (∀ n, n < 8 → t.get (BUS_C_STAT.STATE n) = 3) ∧ (∀ x, x < 2048 → (s.busObj x).isSome = true → t.getB (BUS_OBJ_STAT.LIVE x) = false) ∧ (∀ q, q < 8 → (s.busQueue q).isSome = true → t.getB (BUS_Q_STAT.LIVE q) = false) ∧
    s.within [.latch, .dram, .cyc, .rings, .bus, .rcd] (some [0xC1, 0xCE]) t)

/-- A valid frame outside the transport engine whose identifier is a receive object's puts its record (Table 20-1) with the next frame number into the
object, NEW 1, LOST and an alert where NEW stood; else it goes to the lowest queue whose filter matches, at PI, or counts Q_DROP with an alert when
full; else it counts NOMATCH. REC goes down by one, or from above 127 to a free value from 119 to 127. OBJ_CREATE and Q_CREATE make the lowest free
one under a new handle; Q_DESTROY and OBJ_DESTROY free them; a pending frame is dropped, or ends first where it is on the wire (a free bit where bus
timing decides). Every clause names the parts, windows, fields and bytes that may differ. -/
def Obligations.CanFramesReachTheirObjectOrQueueAndCommandsMakeThem : Prop :=
  (∀ (n : Fin 8) (ident : BitVec 31) (fdf brs esi : Bool) (dlc : Fin 16) (data : List Byte) (sof x : Nat) (f : CanFrame) (o : CanObj) (s : State), s.canLive n.val = true → s.get (BUS_C_CFG.MODE n.val) ≠ 2 → f = CanFrame.tidy { id := ident.toNat, fdf := fdf, brs := brs, esi := esi, dlc := dlc.val, data := data, sof := sof } → f.legal = true → (s.getB (BUS_C_CFG.FD_EN n.val) = true ∨ fdf = false) → (s.tpOn n.val && isTp f.id) = false →
    (s.bus.objs.any fun e => decide (e.2.ctrl = n.val) && e.2.tx && idKey e.2.id = idKey f.id) = false → (s.bus.objs.find? fun e => decide (e.2.ctrl = n.val) && !e.2.tx && idKey e.2.id = idKey f.id) = some (x, o) →
    o.queue = none → x < 2048 → (s.reg YLD_MOIST_OBJ).toNat ≠ s.handle 7 x → s.get (BUS_C_STAT.REC n.val) ≤ 127 → s.getB (BUS_OBJ_STAT.NEW x) = false → ∃ t, exec (.canFrameRx n ident fdf brs esi dlc data sof) s = .next t ∧
    (∀ j, j < 22 → t.reg (BUS_OBJ_REC x j) = BitVec.ofNat 32 (natLE (((CanFrame.record f n.val (((s.busCtl n.val).fseq + 1) % 2 ^ 32)).drop (4 * j)).take 4))) ∧
    t.getB (BUS_OBJ_STAT.NEW x) = true ∧ t.bus = { s.bus with ctls := tput s.bus.ctls n.val { s.busCtl n.val with fseq := ((s.busCtl n.val).fseq + 1) % 2 ^ 32 } } ∧ t.get (BUS_C_STAT.REC n.val) = s.get (BUS_C_STAT.REC n.val) - 1 ∧
    s.only [.bus] ([BUS_OBJ_STAT.NEW x, BUS_C_STAT.REC n.val] ++ (List.range 22).map fun j => wordAt (BUS_OBJ_REC x j)) t) ∧
  (∀ (n : Fin 8) (ident : BitVec 31) (fdf brs esi : Bool) (dlc : Fin 16) (data : List Byte) (sof x : Nat) (f : CanFrame) (o : CanObj) (s : State), s.canLive n.val = true → s.get (BUS_C_CFG.MODE n.val) ≠ 2 → f = CanFrame.tidy { id := ident.toNat, fdf := fdf, brs := brs, esi := esi, dlc := dlc.val, data := data, sof := sof } → f.legal = true → (s.getB (BUS_C_CFG.FD_EN n.val) = true ∨ fdf = false) → (s.tpOn n.val && isTp f.id) = false →
    (s.bus.objs.find? fun e => decide (e.2.ctrl = n.val) && !e.2.tx && idKey e.2.id = idKey f.id) = some (x, o) → o.ctrl < 8 →
    x < 2048 → s.getB (BUS_OBJ_STAT.NEW x) = true → s.getB (BUS_OBJ_STAT.LOST x) = false → bitAt (s.get (BUS_C_ALERT.ALERT o.ctrl)) 1 = false → ∃ t, exec (.canFrameRx n ident fdf brs esi dlc data sof) s = .next t ∧
    t.getB (BUS_OBJ_STAT.NEW x) = true ∧ t.getB (BUS_OBJ_STAT.LOST x) = true ∧ bitAt (t.get (BUS_C_ALERT.ALERT o.ctrl)) 1 = true ∧ s.raised (253 + 6 * o.ctrl) t ∧
    (o.queue = none → t.dram = s.dram) ∧ s.within [.dram, .free, .cyc, .yld, .bus, .rcd] (some [0xC0, 0xC1, 0xCD, 0xCE]) t) ∧
  (∀ (n : Fin 8) (ident : BitVec 31) (fdf brs esi : Bool) (dlc : Fin 16) (data : List Byte) (sof x q : Nat) (f : CanFrame) (o : CanObj) (v : CanQueue) (s : State), s.canLive n.val = true → s.get (BUS_C_CFG.MODE n.val) ≠ 2 →
    f = CanFrame.tidy { id := ident.toNat, fdf := fdf, brs := brs, esi := esi, dlc := dlc.val, data := data, sof := sof } → f.legal = true → (s.getB (BUS_C_CFG.FD_EN n.val) = true ∨ fdf = false) → (s.tpOn n.val && isTp f.id) = false →
    (s.bus.objs.any fun e => decide (e.2.ctrl = n.val) && e.2.tx && idKey e.2.id = idKey f.id) = false → (s.bus.objs.find? fun e => decide (e.2.ctrl = n.val) && !e.2.tx && idKey e.2.id = idKey f.id) = some (x, o) →
    o.queue = some q → s.busQueue q = some v → v.ctrl = n.val → s.qFill q < 256 → q < 8 → x < 2048 → (s.reg YLD_MOIST_OBJ).toNat ≠ s.handle 7 x → s.get (BUS_C_STAT.REC n.val) ≤ 127 → s.getB (BUS_OBJ_STAT.NEW x) = false →
    ∃ t, exec (.canFrameRx n ident fdf brs esi dlc data sof) s = .next t ∧ t.getB (BUS_OBJ_STAT.NEW x) = true ∧
    memBytes t.dram (v.base + 96 * (s.get (BUS_Q_PI.PI q) % 256)) 96 = CanFrame.record f n.val (((s.busCtl n.val).fseq + 1) % 2 ^ 32) ∧ s.dramKept (v.base + 96 * (s.get (BUS_Q_PI.PI q) % 256)) 96 t ∧
    t.get (BUS_Q_PI.PI q) = (s.get (BUS_Q_PI.PI q) + 1) % 512 ∧ (v.irq = true → (v.thr = 0 ∨ s.qFill q + 1 = v.thr) → s.raised (249 + 6 * n.val) t) ∧
    s.only [.dram, .bus, .rcd, .cyc] ([BUS_OBJ_STAT.NEW x, BUS_C_STAT.REC n.val, BUS_Q_PI.PI q] ++ ((List.range 22).map fun j => wordAt (BUS_OBJ_REC x j)) ++ raiseFlds (249 + 6 * n.val)) t) ∧
  (∀ (n : Fin 8) (ident : BitVec 31) (fdf brs esi : Bool) (dlc : Fin 16) (data : List Byte) (sof : Nat) (s : State), s.canLive n.val = true → s.get (BUS_C_CFG.MODE n.val) ≠ 2 → (s.getB (BUS_C_CFG.FD_EN n.val) = true ∨ fdf = false) → (fdf && bitAt ident.toNat 30) = false →
    (s.tpOn n.val && isTp ident.toNat) = false → s.bus.objs = [] → s.bus.queues = [] → s.get (BUS_C_STAT.TEC n.val) ≤ 127 → ∃ t, exec (.canFrameRx n ident fdf brs esi dlc data sof) s = .next t ∧
    t.get (BUS_C_CNT.NOMATCH n.val) = min 65535 (s.get (BUS_C_CNT.NOMATCH n.val) + 1) ∧
    (s.get (BUS_C_STAT.REC n.val) ≤ 127 → t.get (BUS_C_STAT.REC n.val) = s.get (BUS_C_STAT.REC n.val) - 1 ∧ t.free = s.free) ∧
    (127 < s.get (BUS_C_STAT.REC n.val) → 119 ≤ t.get (BUS_C_STAT.REC n.val) ∧ t.get (BUS_C_STAT.REC n.val) ≤ 127 ∧ t.get (BUS_C_STAT.STATE n.val) = 0 ∧ (s.get (BUS_C_STAT.STATE n.val) = 1 → s.raised (251 + 6 * n.val) t)) ∧
    s.only [.free, .rcd, .cyc] ([BUS_C_CNT.NOMATCH n.val, BUS_C_STAT.REC n.val, BUS_C_STAT.STATE n.val] ++ raiseFlds (251 + 6 * n.val)) t) ∧
  (∀ (n : Fin 8) (ident : BitVec 31) (fdf brs esi : Bool) (dlc : Fin 16) (data : List Byte) (sof q : Nat) (f : CanFrame) (v : CanQueue) (s : State), s.canLive n.val = true → s.get (BUS_C_CFG.MODE n.val) ≠ 2 → f = CanFrame.tidy { id := ident.toNat, fdf := fdf, brs := brs, esi := esi, dlc := dlc.val, data := data, sof := sof } → f.legal = true → (s.getB (BUS_C_CFG.FD_EN n.val) = true ∨ fdf = false) → (s.tpOn n.val && isTp f.id) = false →
    s.bus.objs = [] → (s.bus.queues.find? fun e => decide (e.2.ctrl = n.val) && (((f.id % 2 ^ 30) ^^^ (e.2.qid % 2 ^ 30)) &&& (e.2.mask % 2 ^ 30)) = 0) = some (q, v) → s.busQueue q = some v → v.ctrl = n.val →
    s.get (BUS_C_STAT.REC n.val) ≤ 127 → s.qFill q < 256 → ∃ t, exec (.canFrameRx n ident fdf brs esi dlc data sof) s = .next t ∧
    memBytes t.dram (v.base + 96 * (s.get (BUS_Q_PI.PI q) % 256)) 96 = CanFrame.record f n.val (((s.busCtl n.val).fseq + 1) % 2 ^ 32) ∧
    s.dramKept (v.base + 96 * (s.get (BUS_Q_PI.PI q) % 256)) 96 t ∧ t.get (BUS_Q_PI.PI q) = (s.get (BUS_Q_PI.PI q) + 1) % 512 ∧ (v.irq = true → (v.thr = 0 ∨ s.qFill q + 1 = v.thr) → s.raised (249 + 6 * n.val) t) ∧
    s.only [.dram, .bus, .rcd, .cyc] ([BUS_Q_PI.PI q, BUS_C_STAT.REC n.val] ++ raiseFlds (249 + 6 * n.val)) t) ∧
  (∀ (n : Fin 8) (ident : BitVec 31) (fdf brs esi : Bool) (dlc : Fin 16) (data : List Byte) (sof q : Nat) (f : CanFrame) (v : CanQueue) (s : State), s.canLive n.val = true → s.get (BUS_C_CFG.MODE n.val) ≠ 2 → f = CanFrame.tidy { id := ident.toNat, fdf := fdf, brs := brs, esi := esi, dlc := dlc.val, data := data, sof := sof } → f.legal = true → (s.getB (BUS_C_CFG.FD_EN n.val) = true ∨ fdf = false) → (s.tpOn n.val && isTp f.id) = false →
    s.bus.objs = [] → (s.bus.queues.find? fun e => decide (e.2.ctrl = n.val) && (((f.id % 2 ^ 30) ^^^ (e.2.qid % 2 ^ 30)) &&& (e.2.mask % 2 ^ 30)) = 0) = some (q, v) → s.busQueue q = some v → v.ctrl = n.val →
    s.get (BUS_C_STAT.REC n.val) ≤ 127 → 256 ≤ s.qFill q → ∃ t, exec (.canFrameRx n ident fdf brs esi dlc data sof) s = .next t ∧ t.get (BUS_Q_STAT.Q_DROP q) = min 65535 (s.get (BUS_Q_STAT.Q_DROP q) + 1) ∧
    bitAt (t.get (BUS_C_ALERT.ALERT n.val)) 2 = true ∧ (bitAt (s.get (BUS_C_ALERT.ALERT n.val)) 2 = false → s.raised (253 + 6 * n.val) t) ∧
    s.only [.rcd, .cyc] ([BUS_Q_STAT.Q_DROP q, BUS_C_STAT.REC n.val, ⟨BUS_C_ALERT n.val, 2, 1⟩] ++ raiseFlds (253 + 6 * n.val)) t) ∧
  (∀ (ring : Fin 8) (e : Entry) (x n dir opt ident qh : Nat) (s : State), s.ready 0x0E ring.val 0 e → tfree s.bus.objs 2048 = some x → (s.cmdOf 0x0E ring.val e).arg 16 1 = n → (s.cmdOf 0x0E ring.val e).arg 17 1 = dir →
    (s.cmdOf 0x0E ring.val e).arg 18 1 = opt → (s.cmdOf 0x0E ring.val e).arg 20 4 = ident → (s.cmdOf 0x0E ring.val e).arg 24 4 = qh → (qh = 0 ∨ dir = 0 ∧ s.checkHandle 8 (fun i => (s.busQueue i).isSome) qh = none ∧ ((s.busQueue (hIndex qh)).any fun v => decide (v.ctrl = n)) = true) → n ≤ 7 → dir ≤ 1 → opt ≤ 3 → (dir = 1 ∨ opt ≤ 1) → bitAt ident 31 = false →
    (bitAt ident 29 = true ∨ ident % 2 ^ 29 < 2 ^ 11) → s.canOn n = true → (s.bus.objs.any fun f => decide (f.2.ctrl = n) && f.2.tx = decide (dir = 1) && idKey f.2.id = idKey ident) = false → ∃ t, exec (.objCreate ring e) s = .next t ∧
    s.completed 0x0E ring.val e 0x00 (t.handle 7 x) t ∧ s.dramKept (s.complAddr 0x0E ring.val) 16 t ∧ t.gen 7 x = (s.gen 7 x + 1) % 1024 ∧
    t.bus = { s.bus with objs := tput s.bus.objs x { ctrl := n, tx := decide (dir = 1), irq := bitAt opt 0, single := bitAt opt 1, id := ident, queue := (if qh = 0 then none else some (hIndex qh)) } } ∧
    t.getB (BUS_OBJ_STAT.LIVE x) = true ∧ t.get (BUS_OBJ_STAT.DIR x) = dir ∧ t.get (BUS_OBJ_STAT.CTRL x) = n ∧ t.getB (BUS_OBJ_STAT.PEND x) = false ∧ t.getB (BUS_OBJ_STAT.NEW x) = false ∧
    (dir = 1 → (t.reg (BUS_OBJ_REC x 0)).toNat = ident) ∧ s.onlyBut [.latch, .dram, .rings, .gens, .bus, .rcd, .cyc] (complFlds 0x0E ring.val ++ [BUS_STATUS.OBJECTS, BUS_STATUS.SESSIONS, BUS_STATUS.QUEUES]) (BUS_OBJ_STAT x) 0x80 t) ∧
  (∀ (ring : Fin 8) (e : Entry) (x : Nat) (o : CanObj) (s : State), s.ready 0x0E ring.val 0 e → s.checkHandle 7 s.objLive e.handle.toNat = none → hIndex e.handle.toNat = x → s.busObj x = some o → s.getB (BUS_OBJ_STAT.PEND x) = false →
    ∃ t, exec (.objDestroy ring e) s = .next t ∧ s.completed 0x0E ring.val e 0x00 e.handle.toNat t ∧ s.dramKept (s.complAddr 0x0E ring.val) 16 t ∧ t.bus = { s.bus with objs := tdel s.bus.objs x } ∧
    (∀ a, BUS_OBJ_STAT x ≤ a → a < BUS_OBJ_STAT x + 0x80 → t.reg a = resetOf a) ∧
    s.onlyBut [.latch, .dram, .rings, .bus, .rcd, .cyc] (complFlds 0x0E ring.val ++ [BUS_STATUS.OBJECTS, BUS_STATUS.SESSIONS, BUS_STATUS.QUEUES]) (BUS_OBJ_STAT x) 0x80 t) ∧
  (∀ (ring : Fin 8) (e : Entry) (x : Nat) (o : CanObj) (s : State), s.ready 0x0E ring.val 0 e → s.checkHandle 7 s.objLive e.handle.toNat = none → hIndex e.handle.toNat = x → s.busObj x = some o → s.getB (BUS_OBJ_STAT.PEND x) = true →
    ∃ t, exec (.objDestroy ring e) s = .next t ∧ t.free = s.free + 1 ∧ (s.onWire x o = true → s.started 0x0E ring.val 2 e t ∧ t.busObj x = some { o with dying := some (ring.val, (s.ring 0x0E ring.val).nextId) }) ∧
    (s.onWire x o = false → s.completed 0x0E ring.val e 0x00 e.handle.toNat t ∧ t.busObj x = none ∧ t.getB (BUS_OBJ_STAT.LIVE x) = false) ∧ s.dramKept (s.complAddr 0x0E ring.val) 16 t ∧
    s.within [.latch, .dram, .free, .cyc, .rings, .bus, .rcd] (some [0xC1, 0xCE]) t) ∧
  (∀ (ring : Fin 8) (e : Entry) (q n irq thr base : Nat) (s : State), s.ready 0x0E ring.val 0 e → tfree s.bus.queues 8 = some q → (s.cmdOf 0x0E ring.val e).arg 16 1 = n → (s.cmdOf 0x0E ring.val e).arg 17 1 = irq →
    (s.cmdOf 0x0E ring.val e).arg 18 2 = thr → (s.cmdOf 0x0E ring.val e).arg 32 8 = base → n ≤ 7 → irq ≤ 1 → thr ≤ 256 → base % 4096 = 0 → s.inWins 0x0E base 24576 = true → s.canOn n = true → ∃ t, exec (.qCreate ring e) s = .next t ∧
    s.completed 0x0E ring.val e 0x00 (t.handle 8 q) t ∧ s.dramKept (s.complAddr 0x0E ring.val) 16 t ∧ t.gen 8 q = (s.gen 8 q + 1) % 1024 ∧
    t.bus = { s.bus with queues := tput s.bus.queues q { ctrl := n, irq := decide (irq = 1), thr := thr, qid := (s.cmdOf 0x0E ring.val e).arg 20 4, mask := (s.cmdOf 0x0E ring.val e).arg 24 4, base := base } } ∧
    t.getB (BUS_Q_STAT.LIVE q) = true ∧ t.get (BUS_Q_STAT.CTRL q) = n ∧ t.get (BUS_Q_PI.PI q) = 0 ∧ t.get (BUS_Q_CI.CI q) = 0 ∧ t.get (BUS_Q_STAT.Q_DROP q) = 0 ∧
    s.onlyBut [.latch, .dram, .rings, .gens, .bus, .rcd, .cyc] (complFlds 0x0E ring.val ++ [BUS_STATUS.OBJECTS, BUS_STATUS.SESSIONS, BUS_STATUS.QUEUES]) (BUS_Q_STAT q) 0x20 t) ∧
  (∀ (ring : Fin 8) (e : Entry) (q : Nat) (v : CanQueue) (s : State), s.ready 0x0E ring.val 0 e → s.checkHandle 8 (fun i => (s.busQueue i).isSome) e.handle.toNat = none → hIndex e.handle.toNat = q → s.busQueue q = some v →
    (s.bus.objs.any fun f => decide (f.2.queue = some q)) = false → ((List.range 8).any fun n => s.tpOn n && decide (s.get (BUS_C_CFG.TPQ n) = q)) = false → ∃ t, exec (.qDestroy ring e) s = .next t ∧
    s.completed 0x0E ring.val e 0x00 e.handle.toNat t ∧ s.dramKept (s.complAddr 0x0E ring.val) 16 t ∧ t.bus = { s.bus with queues := tdel s.bus.queues q } ∧ (∀ a, BUS_Q_STAT q ≤ a → a < BUS_Q_STAT q + 0x20 → t.reg a = resetOf a) ∧
    s.onlyBut [.latch, .dram, .rings, .bus, .rcd, .cyc] (complFlds 0x0E ring.val ++ [BUS_STATUS.OBJECTS, BUS_STATUS.SESSIONS, BUS_STATUS.QUEUES]) (BUS_Q_STAT q) 0x20 t)

/-- An RTS that passes the checks of R441 opens a receive session in the lowest free place and a CTS becomes pending; the expected packet's bytes stand in
its buffer and T1 runs again; after the last one the session has RESULT 0 and an EndOfMsgAck is pending; a packet of no session counts STRAY. A timer
that runs out ends a session with RESULT 3 and Abort, a BAM with 0x10. A BAM gap makes the next packet pending. An ended session writes the entry of
Table 20-2 into queue TPQ and raises TP. TP_SEND opens a TP, ETP or BAM session with its RTS or BAM pending; TP_ABORT ends one with 0x11, or gets 0x08
where its timer had run out. Every clause names the parts, fields and bytes that may differ. -/
def Obligations.TransportSessionsOpenCarryTimeOutAndAreDelivered : Prop :=
  (∀ (n : Fin 8) (ident : BitVec 29) (data : List Byte) (sof w da sa sz mp pgn k : Nat) (s : State), s.canLive n.val = true → s.get (BUS_C_CFG.MODE n.val) ≠ 2 → s.tpOn n.val = true → w = ident.toNat + 2 ^ 29 → isTp w = true →
    bitsOf w 16 8 = 0xEC → bitsOf w 8 8 = da → w % 256 = sa → data.length = 8 → natLE (data.take 1) = 16 → natLE ((data.drop 1).take 2) = sz → natLE ((data.drop 4).take 1) = mp → natLE ((data.drop 5).take 3) % 2 ^ 18 = pgn →
    9 ≤ sz → sz ≤ 1785 → s.ownAddr n.val da = true → s.bus.objs = [] → s.bus.sess = [] → (s.busCtl n.val).cm = [] → 1 ≤ s.get (BUS_C_TPLIM.RATE n.val) → 1 ≤ s.get (BUS_C_TPLIM.SRCMAX n.val) → sz ≤ s.get BUS_TP_RXMAX.RXMAX →
    s.get (BUS_C_STAT.REC n.val) ≤ 127 → min (min mp (s.get (BUS_C_TPLIM.CTSMAX n.val))) ((sz + 6) / 7) = k → ∃ t, exec (.tpFrameRx n ident data sof) s = .next t ∧
    t.bus.sess = [(0, { ctrl := n.val, rx := true, kind := 0, peer := sa, own := da, pgn := pgn, size := sz, buf := s.get64 BUS_TP_RXBASE_LO BUS_TP_RXBASE_HI, maxPk := mp, blockEnd := k, lastId := w, lastSof := sof })] ∧
    (t.busCtl n.val).txq = (s.busCtl n.val).txq ++ [{ sess := some 0, id := 2 ^ 29 + 7 * 2 ^ 26 + 0xEC * 2 ^ 16 + sa * 2 ^ 8 + da, data := [17, BitVec.ofNat 8 k, 1, 0xFF, 0xFF] ++ bytesLE 3 pgn, after := 1 }] ∧
    (t.busCtl n.val).cm = [(sa, (sof / 1000000000, 1))] ∧ t.gen 9 0 = (s.gen 9 0 + 1) % 1024 ∧ t.get BUS_STATUS.SESSIONS = 1 ∧
    s.only [.bus, .gens] [BUS_C_STAT.REC n.val, BUS_STATUS.OBJECTS, BUS_STATUS.SESSIONS, BUS_STATUS.QUEUES] t) ∧
  (∀ (n : Fin 8) (ident : BitVec 29) (data : List Byte) (sof w da sa i : Nat) (q : TpSess) (s : State), s.canLive n.val = true → s.get (BUS_C_CFG.MODE n.val) ≠ 2 → s.tpOn n.val = true → w = ident.toNat + 2 ^ 29 → isTp w = true →
    bitsOf w 16 8 = 0xEB → bitsOf w 8 8 = da → da ≠ 0xFF → w % 256 = sa → data.length = 8 → s.bus.objs = [] → s.bus.sess = [(i, q)] → q.ctrl = n.val → q.rx = true → (q.timer.any fun l => decide (l.1 + l.2 * 1000000 < s.now)) = false → q.kind = 0 → q.result = none → q.peer = sa → q.own = da →
    q.base + natLE (data.take 1) = q.next → 1 ≤ q.next → q.next < q.blockEnd → q.next < q.total → s.get (BUS_C_STAT.REC n.val) ≤ 127 → ∃ t, exec (.tpFrameRx n ident data sof) s = .next t ∧
    memBytes t.dram (q.buf + 7 * (q.next - 1)) 7 = data.drop 1 ∧ s.dramKept (q.buf + 7 * (q.next - 1)) 7 t ∧
    t.bus = { s.bus with sess := [(i, { q with lastId := w, lastSof := sof, next := q.next + 1, timer := some (sof, 750) })] } ∧ s.only [.dram, .bus] [BUS_C_STAT.REC n.val] t) ∧
  (∀ (n : Fin 8) (ident : BitVec 29) (data : List Byte) (sof w da sa i : Nat) (q : TpSess) (s : State), s.canLive n.val = true → s.get (BUS_C_CFG.MODE n.val) ≠ 2 → s.tpOn n.val = true → w = ident.toNat + 2 ^ 29 → isTp w = true →
    bitsOf w 16 8 = 0xEB → bitsOf w 8 8 = da → da ≠ 0xFF → w % 256 = sa → data.length = 8 → s.bus.objs = [] → s.bus.sess = [(i, q)] → q.ctrl = n.val → q.rx = true → (q.timer.any fun l => decide (l.1 + l.2 * 1000000 < s.now)) = false → q.kind = 0 → q.result = none → q.peer = sa → q.own = da →
    q.base + natLE (data.take 1) = q.next → 1 ≤ q.next → q.next ≤ q.blockEnd → q.next = q.total → s.get (BUS_C_STAT.REC n.val) ≤ 127 → (s.busCtl n.val).txq = [] → ∃ t, exec (.tpFrameRx n ident data sof) s = .next t ∧
    (tget t.bus.sess i).map (·.result) = some (some 0) ∧ (tget t.bus.sess i).map (·.timer) = some none ∧
    (t.busCtl n.val).txq = [{ sess := none, id := 2 ^ 29 + 7 * 2 ^ 26 + 0xEC * 2 ^ 16 + sa % 256 * 2 ^ 8 + da % 256, data := [19] ++ bytesLE 2 q.size ++ bytesLE 1 q.total ++ [0xFF] ++ bytesLE 3 q.pgn }] ∧ s.only [.dram, .bus] [BUS_C_STAT.REC n.val] t) ∧
  (∀ (n : Fin 8) (ident : BitVec 29) (data : List Byte) (sof w : Nat) (s : State), s.canLive n.val = true → s.get (BUS_C_CFG.MODE n.val) ≠ 2 → s.tpOn n.val = true → w = ident.toNat + 2 ^ 29 → isTp w = true →
    bitsOf w 16 8 = 0xEB → data.length = 8 → s.bus.objs = [] → s.bus.sess = [] → s.get (BUS_C_STAT.REC n.val) ≤ 127 → ∃ t, exec (.tpFrameRx n ident data sof) s = .next t ∧
    t.get (BUS_C_TPCNT.STRAY n.val) = min 255 (s.get (BUS_C_TPCNT.STRAY n.val) + 1) ∧ s.only [] [BUS_C_TPCNT.STRAY n.val, BUS_C_STAT.REC n.val] t) ∧
  (∀ (i : Fin 32) (q : TpSess) (t0 ms : Nat) (s : State), s.busSess i.val = some q → q.timer = some (t0, ms) → q.result = none → t0 + ms * 1000000 ≤ s.now → q.kind = 0 → q.ctrl < 8 → (s.busCtl q.ctrl).txq = [] →
    ∃ t, exec (.tpTimeout i) s = .next t ∧ t.busSess i.val = some { q with result := some 3, timer := none, gap := none, sending := false } ∧
    (t.busCtl q.ctrl).txq = [{ sess := none, id := 2 ^ 29 + 7 * 2 ^ 26 + 0xEC * 2 ^ 16 + q.peer * 2 ^ 8 + q.own, data := [255, 3, 0xFF, 0xFF, 0xFF] ++ bytesLE 3 q.pgn }] ∧
    t.get (BUS_C_TPCNT2.ABORT_TX q.ctrl) = min 65535 (s.get (BUS_C_TPCNT2.ABORT_TX q.ctrl) + 1) ∧ (q.rx = true → s.raised (252 + 6 * q.ctrl) t) ∧
    s.only [.bus, .rcd, .cyc] (BUS_C_TPCNT2.ABORT_TX q.ctrl :: raiseFlds (252 + 6 * q.ctrl)) t) ∧
  (∀ (i : Fin 32) (q : TpSess) (t0 ms : Nat) (s : State), s.busSess i.val = some q → q.timer = some (t0, ms) → q.result = none → t0 + ms * 1000000 ≤ s.now → q.kind = 1 → q.rx = true → q.ctrl < 8 → ∃ t, exec (.tpTimeout i) s = .next t ∧
    t.busSess i.val = some { q with result := some 0x10, timer := none, gap := none, sending := false } ∧ s.raised (252 + 6 * q.ctrl) t ∧ s.only [.bus, .rcd, .cyc] (raiseFlds (252 + 6 * q.ctrl)) t) ∧
  (∀ (i : Fin 32) (q : TpSess) (g : Nat) (s : State), s.busSess i.val = some q → q.gap = some g → g + q.gapMs * 1000000 ≤ s.now → ∃ t, exec (.bamGap i) s = .next t ∧
    t.busSess i.val = some { q with gap := none } ∧ (t.busCtl q.ctrl).txq = (s.busCtl q.ctrl).txq ++ [{ sess := some i.val, id := 2 ^ 29 + q.prio % 8 * 2 ^ 26 + 0xEB * 2 ^ 16 + 0xFF00 + q.own, data := [], dt := some q.next, after := 4 }] ∧
    s.only [.bus] [] t) ∧
  (∀ (i : Fin 32) (q : TpSess) (r : Nat) (v : CanQueue) (s : State), s.busSess i.val = some q → q.result = some r → q.entry = none → s.busQueue (s.get (BUS_C_CFG.TPQ q.ctrl)) = some v → s.qFill (s.get (BUS_C_CFG.TPQ q.ctrl)) < 256 → q.ctrl < 8 →
    ∃ t, exec (.tpDelivery i) s = .next t ∧ memBytes t.dram (v.base + 96 * (s.get (BUS_Q_PI.PI (s.get (BUS_C_CFG.TPQ q.ctrl))) % 256)) 96 = s.tpEntry i.val q ∧
    t.get (BUS_Q_PI.PI (s.get (BUS_C_CFG.TPQ q.ctrl))) = (s.get (BUS_Q_PI.PI (s.get (BUS_C_CFG.TPQ q.ctrl))) + 1) % 512 ∧
    t.busSess i.val = (if q.rx = true ∧ r = 0 then some { q with entry := some (s.get (BUS_C_CFG.TPQ q.ctrl), s.get (BUS_Q_PI.PI (s.get (BUS_C_CFG.TPQ q.ctrl)))) } else none) ∧
    ((q.rx = false ∨ r = 0) → s.raised (252 + 6 * q.ctrl) t) ∧ (v.irq = true → (v.thr = 0 ∨ s.qFill (s.get (BUS_C_CFG.TPQ q.ctrl)) + 1 = v.thr) → s.raised (249 + 6 * v.ctrl) t) ∧ s.dramKept (v.base + 96 * (s.get (BUS_Q_PI.PI (s.get (BUS_C_CFG.TPQ q.ctrl))) % 256)) 96 t ∧
    s.only [.dram, .bus, .rcd, .cyc] ([BUS_Q_PI.PI (s.get (BUS_C_CFG.TPQ q.ctrl)), BUS_STATUS.OBJECTS, BUS_STATUS.SESSIONS, BUS_STATUS.QUEUES] ++ raiseFlds (252 + 6 * q.ctrl) ++ raiseFlds (249 + 6 * v.ctrl)) t) ∧
  (∀ (ring : Fin 8) (e : Entry) (i n bam sa da prio pgn len buf kind : Nat) (s : State), s.ready 0x0E ring.val 0 e → (s.bus.sess.any fun e => e.2.timer.any fun l => decide (l.1 + l.2 * 1000000 < s.now)) = false → tfree s.bus.sess 32 = some i → (s.cmdOf 0x0E ring.val e).arg 16 1 = n → (s.cmdOf 0x0E ring.val e).arg 17 1 = bam →
    (s.cmdOf 0x0E ring.val e).arg 18 1 = sa → (s.cmdOf 0x0E ring.val e).arg 19 1 = da → (s.cmdOf 0x0E ring.val e).arg 20 1 = prio → (s.cmdOf 0x0E ring.val e).arg 24 4 = pgn → (s.cmdOf 0x0E ring.val e).arg 28 4 = len →
    (s.cmdOf 0x0E ring.val e).arg 32 8 = buf → n ≤ 7 → prio ≤ 7 → pgn < 2 ^ 18 → 9 ≤ len → len ≤ 117440505 → (bam = 0 ∨ bam = 1 ∧ len ≤ 1785 ∧ da = 0xFF) → s.inWins 0x0E buf len = true → s.tpOn n = true → s.ownAddr n sa = true →
    (bam = 1 ∨ (s.tpFind n fun q => !q.rx && q.kind ≠ 1 && q.own = sa && q.peer = da) = none) → kind = (if bam = 1 then 1 else if 1785 < len then 2 else 0) → ∃ t, exec (.tpSend ring e) s = .next t ∧
    s.completed 0x0E ring.val e 0x00 (t.handle 9 i) t ∧ s.dramKept (s.complAddr 0x0E ring.val) 16 t ∧ t.gen 9 i = (s.gen 9 i + 1) % 1024 ∧
    t.busSess i = some { ctrl := n, rx := false, kind := kind, peer := da, own := sa, pgn := pgn, size := len, buf := buf, prio := prio } ∧
    (t.busCtl n).txq = (s.busCtl n).txq ++ [{ sess := some i, id := 2 ^ 29 + prio * 2 ^ 26 + (if kind = 2 then 0xC8 else 0xEC) * 2 ^ 16 + da * 2 ^ 8 + sa, data := (if kind = 2 then [20] ++ bytesLE 4 len else [(if kind = 1 then 32 else 16)] ++ bytesLE 2 len ++ bytesLE 1 ((len + 6) / 7) ++ [0xFF]) ++ bytesLE 3 pgn, dt := (if kind = 1 then some 0 else none), after := (if kind = 1 then 4 else 2) }] ∧
    s.only [.dram, .rings, .gens, .bus, .rcd, .cyc] (complFlds 0x0E ring.val ++ [BUS_STATUS.OBJECTS, BUS_STATUS.SESSIONS, BUS_STATUS.QUEUES]) t) ∧
  (∀ (ring : Fin 8) (e : Entry) (i : Nat) (q : TpSess) (s : State), s.ready 0x0E ring.val 0 e → s.checkHandle 9 (fun j => (s.busSess j).isSome) e.handle.toNat = none → hIndex e.handle.toNat = i → s.busSess i = some q → q.result = none → (s.bus.sess.any fun e => e.2.timer.any fun l => decide (l.1 + l.2 * 1000000 < s.now)) = false → q.kind ≠ 1 →
    q.ctrl < 8 → (s.busCtl q.ctrl).txq = [] → ∃ t, exec (.tpAbort ring e) s = .next t ∧ s.completed 0x0E ring.val e 0x00 e.handle.toNat t ∧ s.dramKept (s.complAddr 0x0E ring.val) 16 t ∧
    t.busSess i = some { q with result := some 0x11, timer := none, gap := none, sending := false } ∧
    (t.busCtl q.ctrl).txq = [{ sess := none, id := 2 ^ 29 + 7 * 2 ^ 26 + (if q.kind = 2 then 0xC8 else 0xEC) * 2 ^ 16 + q.peer * 2 ^ 8 + q.own, data := [255, 2, 0xFF, 0xFF, 0xFF] ++ bytesLE 3 q.pgn }] ∧
    t.get (BUS_C_TPCNT2.ABORT_TX q.ctrl) = min 65535 (s.get (BUS_C_TPCNT2.ABORT_TX q.ctrl) + 1) ∧ (q.rx = true → s.raised (252 + 6 * q.ctrl) t) ∧
    s.only [.dram, .rings, .bus, .rcd, .cyc] (complFlds 0x0E ring.val ++ [BUS_C_TPCNT2.ABORT_TX q.ctrl] ++ raiseFlds (252 + 6 * q.ctrl)) t) ∧
  (∀ (ring : Fin 8) (e : Entry) (i : Nat) (q : TpSess) (s : State), s.ready 0x0E ring.val 0 e → s.checkHandle 9 (fun j => (s.busSess j).isSome) e.handle.toNat = none → hIndex e.handle.toNat = i → s.busSess i = some q → q.result = none →
    (s.bus.sess.any fun e => e.2.timer.any fun l => decide (l.1 + l.2 * 1000000 < s.now)) = false → q.kind = 1 → q.ctrl < 8 → ∃ t, exec (.tpAbort ring e) s = .next t ∧ s.completed 0x0E ring.val e 0x00 e.handle.toNat t ∧
    t.busSess i = some { q with result := some 0x11, timer := none, gap := none, sending := false } ∧ (t.busCtl q.ctrl).txq = (s.busCtl q.ctrl).txq.filter (fun f => decide (f.sess ≠ some i)) ∧ (q.rx = true → s.raised (252 + 6 * q.ctrl) t) ∧
    s.dramKept (s.complAddr 0x0E ring.val) 16 t ∧ s.only [.dram, .rings, .bus, .rcd, .cyc] (complFlds 0x0E ring.val ++ raiseFlds (252 + 6 * q.ctrl)) t) ∧
  (∀ (ring : Fin 8) (e : Entry) (i t0 ms : Nat) (q : TpSess) (s : State), s.ready 0x0E ring.val 0 e → s.checkHandle 9 (fun j => (s.busSess j).isSome) e.handle.toNat = none → hIndex e.handle.toNat = i → s.bus.sess = [(i, q)] → q.result = none →
    q.timer = some (t0, ms) → t0 + ms * 1000000 < s.now → q.kind ≠ 1 → q.ctrl < 8 → ∃ t, exec (.tpAbort ring e) s = .next t ∧ s.completed 0x0E ring.val e 0x08 e.handle.toNat t ∧
    t.busSess i = some { q with result := some 3, timer := none, gap := none, sending := false } ∧ t.get (BUS_C_TPCNT2.ABORT_TX q.ctrl) = min 65535 (s.get (BUS_C_TPCNT2.ABORT_TX q.ctrl) + 1) ∧ (q.rx = true → s.raised (252 + 6 * q.ctrl) t) ∧
    s.dramKept (s.complAddr 0x0E ring.val) 16 t ∧ s.only [.dram, .rings, .bus, .rcd, .cyc] (complFlds 0x0E ring.val ++ [BUS_C_TPCNT2.ABORT_TX q.ctrl] ++ raiseFlds (252 + 6 * q.ctrl)) t)

/-- A bad FCS or length counts ERR; too few tokens count POL, 301 from 0; a VID without entry or a foreign port counts VDROP. Else the source is learned
(LFULL if full) and the frame goes to the queue PCP div 2 of the learned port, or of every up member but the ingress; a full queue counts QDROP. The
internal port's other frames reach the host ring (304), or DROP and 305. A Pdelay exchange sets PDELAY and asCapable (302 at a change). A one-step
Sync, or a Follow_Up of a waiting Sync, gives TMS the observation of R453; 100 ms void a Sync; a 3 s gap raises 302. Learned addresses age out. A link
change raises 300; disabling ETH empties its tables and ends a SEND or FRAME_TX in flight with a free reason. Every clause names the parts, windows,
fields and bytes that may differ. -/
def Obligations.SwitchForwardsPolicesAndLearnsAndGptpIsObserved : Prop :=
  (∀ (p : Fin 4) (frame : List Byte) (ok : Bool) (full : BitVec 16) (stamp : Nat) (s : State), s.portUp p.val = true → (ok = false ∨ frame.length < 60 ∨ 1518 < frame.length) → ∃ t, exec (.ethFrameRx p frame ok full stamp) s = .next t ∧
    t.get (ETH_PORT_STAT.ERR p.val) = min 255 (s.get (ETH_PORT_STAT.ERR p.val) + 1) ∧ s.only [] [ETH_PORT_STAT.ERR p.val] t) ∧
  (∀ (p : Fin 4) (frame : List Byte) (full : BitVec 16) (stamp level rate cap : Nat) (s : State), s.portUp p.val = true → 60 ≤ frame.length → frame.length ≤ 1518 → s.get (ETH_POL.RATE p.val) = rate → rate ≠ 0 →
    cap = s.get (ETH_POL.BURST p.val) * 1024 * 8 * 1000 → level = (match tget s.eth.pol p.val with | some (l, u) => min cap (l + rate * (s.now - u)) | none => cap) → level < (frame.length + 4) * 8 * 1000 → ∃ t, exec (.ethFrameRx p frame true full stamp) s = .next t ∧
    t.get (ETH_PORT_STAT.POL p.val) = min 255 (s.get (ETH_PORT_STAT.POL p.val) + 1) ∧ (s.get (ETH_PORT_STAT.POL p.val) = 0 → s.raised 301 t) ∧
    t.eth = { s.eth with pol := tput s.eth.pol p.val (level, s.now) } ∧ s.only [.eth, .rcd, .cyc] (ETH_PORT_STAT.POL p.val :: raiseFlds 301) t) ∧
  (∀ (p : Fin 4) (frame : List Byte) (full : BitVec 16) (stamp level rate cap : Nat) (s : State), s.portUp p.val = true → 60 ≤ frame.length → frame.length ≤ 1518 → s.get (ETH_POL.RATE p.val) = rate → rate ≠ 0 →
    cap = s.get (ETH_POL.BURST p.val) * 1024 * 8 * 1000 → level = (match tget s.eth.pol p.val with | some (l, u) => min cap (l + rate * (s.now - u)) | none => cap) → (frame.length + 4) * 8 * 1000 ≤ level →
    s.vlanOf (parseFrame (s.get (ETH_PORT_CFG.PVID p.val)) frame).vid = none → ∃ t, exec (.ethFrameRx p frame true full stamp) s = .next t ∧
    t.eth = { s.eth with pol := tput s.eth.pol p.val (level - (frame.length + 4) * 8 * 1000, s.now) } ∧ t.get ETH_SW_CNT.VDROP = min 65535 (s.get ETH_SW_CNT.VDROP + 1) ∧ s.only [.eth] [ETH_SW_CNT.VDROP] t) ∧
  (∀ (p : Fin 4) (frame : List Byte) (full : BitVec 16) (stamp : Nat) (s : State), s.portUp p.val = true → 60 ≤ frame.length → frame.length ≤ 1518 → s.get (ETH_POL.RATE p.val) = 0 →
    ((s.vlanOf (parseFrame (s.get (ETH_PORT_CFG.PVID p.val)) frame).vid).all fun i => !s.vlanMember i p.val) = true → ∃ t, exec (.ethFrameRx p frame true full stamp) s = .next t ∧
    t.get ETH_SW_CNT.VDROP = min 65535 (s.get ETH_SW_CNT.VDROP + 1) ∧ s.only [] [ETH_SW_CNT.VDROP] t) ∧
  (∀ (p : Fin 4) (frame : List Byte) (full : BitVec 16) (stamp i q at' : Nat) (f : SwFrame) (s : State), s.portUp p.val = true → 60 ≤ frame.length → frame.length ≤ 1518 → s.get (ETH_POL.RATE p.val) = 0 →
    f = parseFrame (s.get (ETH_PORT_CFG.PVID p.val)) frame → s.vlanOf f.vid = some i → s.vlanMember i p.val = true → isGroup f.src = false → s.eth.macs.length < 1024 → f.dst ≠ s.ownMac → isGroup f.dst = false → f.src ≠ f.dst →
    tget s.eth.macs (macKey f.vid f.dst) = some (q, at') → q < 4 → q ≠ p.val → s.vlanMember i q = true → s.portUp q = true → (s.get ETH_SW_CFG.AGE_S = 0 ∨ s.now ≤ at' + s.get ETH_SW_CFG.AGE_S * 1000000000) → (bitAt full.toNat (4 * q + f.pcp / 2) = false ∨ tgetD s.eth.egress (4 * q + f.pcp / 2) [] = []) →
    ((tget s.eth.wire q).isSome = true ∨ tgetD s.eth.egress (4 * q) [] = [] ∧ tgetD s.eth.egress (4 * q + 1) [] = [] ∧ tgetD s.eth.egress (4 * q + 2) [] = [] ∧ tgetD s.eth.egress (4 * q + 3) [] = []) →
    ∃ t, exec (.ethFrameRx p frame true full stamp) s = .next t ∧
    tget t.eth.macs (macKey f.vid f.src) = some (p.val, s.now) ∧ tget t.eth.macs (macKey f.vid f.dst) = some (q, at') ∧
    ((tget s.eth.wire q).isSome = true → t.eth.wire = s.eth.wire ∧ t.eth.egress = tput s.eth.egress (4 * q + f.pcp / 2) (tgetD s.eth.egress (4 * q + f.pcp / 2) [] ++ [{ data := f.bytes (s.vlanUntag i q), cmd := none }])) ∧
    ((tget s.eth.wire q).isSome = false → tget t.eth.wire q = some { data := f.bytes (s.vlanUntag i q), cmd := none } ∧ tgetD t.eth.egress (4 * q + f.pcp / 2) [] = []) ∧ s.only [.eth] [] t) ∧
  (∀ (p : Fin 4) (frame : List Byte) (full : BitVec 16) (stamp i q at' : Nat) (f : SwFrame) (s : State), s.portUp p.val = true → 60 ≤ frame.length → frame.length ≤ 1518 → s.get (ETH_POL.RATE p.val) = 0 →
    f = parseFrame (s.get (ETH_PORT_CFG.PVID p.val)) frame → s.vlanOf f.vid = some i → s.vlanMember i p.val = true → isGroup f.src = false → 1024 ≤ s.eth.macs.length → tget s.eth.macs (macKey f.vid f.src) = none → f.dst ≠ s.ownMac →
    isGroup f.dst = false → tget s.eth.macs (macKey f.vid f.dst) = some (q, at') → q < 4 → q ≠ p.val → s.vlanMember i q = true → s.portUp q = true → bitAt full.toNat (4 * q + f.pcp / 2) = true → tgetD s.eth.egress (4 * q + f.pcp / 2) [] ≠ [] →
    (s.get ETH_SW_CFG.AGE_S = 0 ∨ (s.eth.macs.all fun e => decide (s.now ≤ e.2.2 + s.get ETH_SW_CFG.AGE_S * 1000000000)) = true) →
    ∃ t, exec (.ethFrameRx p frame true full stamp) s = .next t ∧ t.get ETH_SW_CNT.LFULL = min 65535 (s.get ETH_SW_CNT.LFULL + 1) ∧
    t.get (ETH_PORT_STAT.QDROP q) = min 255 (s.get (ETH_PORT_STAT.QDROP q) + 1) ∧ s.only [] [ETH_SW_CNT.LFULL, ETH_PORT_STAT.QDROP q] t) ∧
  (∀ (p : Fin 4) (frame : List Byte) (full : BitVec 16) (stamp i : Nat) (f : SwFrame) (s : State), s.portUp p.val = true → 60 ≤ frame.length → frame.length ≤ 1518 → s.get (ETH_POL.RATE p.val) = 0 →
    f = parseFrame (s.get (ETH_PORT_CFG.PVID p.val)) frame → s.vlanOf f.vid = some i → s.vlanMember i p.val = true → s.eth.macs.length < 1024 → f.dst = 0xFFFFFFFFFFFF → s.ownMac ≠ f.dst → full = 0 →
    s.vlanMember i 4 = false → ∃ t, exec (.ethFrameRx p frame true full stamp) s = .next t ∧ s.only [.eth] [] t ∧
    (∀ q, q < 4 → q ≠ p.val → s.vlanMember i q = true → s.portUp q = true → (tget s.eth.wire q).isSome = true → tgetD t.eth.egress (4 * q + f.pcp / 2) [] = tgetD s.eth.egress (4 * q + f.pcp / 2) [] ++ [{ data := f.bytes (s.vlanUntag i q), cmd := none }]) ∧
    (∀ k, k < 16 → (k / 4 = p.val ∨ s.vlanMember i (k / 4) = false ∨ s.portUp (k / 4) = false) → tgetD t.eth.egress k [] = tgetD s.eth.egress k [] ∧ tget t.eth.wire (k / 4) = tget s.eth.wire (k / 4))) ∧
  (∀ (p : Fin 4) (frame : List Byte) (full : BitVec 16) (stamp i : Nat) (f : SwFrame) (e : List Byte) (s : State), s.portUp p.val = true → 60 ≤ frame.length → frame.length ≤ 1518 → s.get (ETH_POL.RATE p.val) = 0 →
    f = parseFrame (s.get (ETH_PORT_CFG.PVID p.val)) frame → s.vlanOf f.vid = some i → s.vlanMember i p.val = true → s.vlanMember i 4 = true → isGroup f.src = true → f.dst = s.ownMac → f.etype ≠ 0x88F7 → s.udpOf f = none →
    s.ringFull ETH_HRX_PI.PI ETH_HRX_CI.CI ETH_HRX_CFG.HLEN = false → e = bytesLE 2 (f.bytes (s.vlanUntag i 4)).length ++ bytesLE 1 p.val ++ bytesLE 5 0 ++ bytesLE 8 stamp ++ bytesLE 48 0 ++ f.bytes (s.vlanUntag i 4) →
    ∃ t, exec (.ethFrameRx p frame true full stamp) s = .next t ∧
    memBytes t.dram (s.get64 ETH_HRX_BASE_LO ETH_HRX_BASE_HI + 2048 * (s.get ETH_HRX_PI.PI % 2 ^ s.get ETH_HRX_CFG.HLEN)) e.length = e ∧
    s.dramKept (s.get64 ETH_HRX_BASE_LO ETH_HRX_BASE_HI + 2048 * (s.get ETH_HRX_PI.PI % 2 ^ s.get ETH_HRX_CFG.HLEN)) 2048 t ∧
    (s.get ETH_HRX_CFG.HLEN ≤ 10 → t.get ETH_HRX_PI.PI = (s.get ETH_HRX_PI.PI + 1) % (2 * 2 ^ s.get ETH_HRX_CFG.HLEN)) ∧ s.raised 304 t ∧ t.eth = s.macAged.eth ∧ s.only [.dram, .eth, .rcd, .cyc] (ETH_HRX_PI.PI :: raiseFlds 304) t) ∧
  (∀ (p : Fin 4) (frame : List Byte) (full : BitVec 16) (stamp i : Nat) (f : SwFrame) (s : State), s.portUp p.val = true → 60 ≤ frame.length → frame.length ≤ 1518 → s.get (ETH_POL.RATE p.val) = 0 →
    f = parseFrame (s.get (ETH_PORT_CFG.PVID p.val)) frame → s.vlanOf f.vid = some i → s.vlanMember i p.val = true → s.vlanMember i 4 = true → isGroup f.src = true → f.dst = s.ownMac → f.etype ≠ 0x88F7 → s.udpOf f = none →
    s.ringFull ETH_HRX_PI.PI ETH_HRX_CI.CI ETH_HRX_CFG.HLEN = true → ∃ t, exec (.ethFrameRx p frame true full stamp) s = .next t ∧
    t.get ETH_HRX_DROP.DROP = min 65535 (s.get ETH_HRX_DROP.DROP + 1) ∧ s.raised 305 t ∧ t.eth = s.macAged.eth ∧ s.only [.eth, .rcd, .cyc] (ETH_HRX_DROP.DROP :: raiseFlds 305) t) ∧
  (∀ (vid : BitVec 12) (mac : BitVec 48) (port at' : Nat) (s : State), tget s.eth.macs (macKey vid.toNat mac.toNat) = some (port, at') → s.get ETH_SW_CFG.AGE_S ≠ 0 → at' + s.get ETH_SW_CFG.AGE_S * 1000000000 ≤ s.now →
    ∃ t, exec (.macAgeOut vid mac) s = .next t ∧ t.eth = { s.eth with macs := tdel s.eth.macs (macKey vid.toNat mac.toNat) } ∧ s.only [.eth] [] t) ∧
  (∀ (vid : BitVec 12) (mac : BitVec 48) (port at' : Nat) (s : State), tget s.eth.macs (macKey vid.toNat mac.toNat) = some (port, at') → (s.get ETH_SW_CFG.AGE_S = 0 ∨ s.now < at' + s.get ETH_SW_CFG.AGE_S * 1000000000) →
    ∃ t, exec (.macAgeOut vid mac) s = .next t ∧ t = s) ∧
  (∀ (seq : BitVec 16) (origin stamp : Nat) (corr : BitVec 64) (m16 : Int) (s : State), s.gptpOn = true → s.getB ETH_GPTP_STAT.AS_CAP = true → s.obsReason 2 stamp = 0 →
    m16 = ((origin : Int) - 315964819000000000 + s.get ETH_GPTP_STAT.PDELAY) * 65536 + corr.toInt → ∃ t, exec (.gptpSync false seq origin corr stamp) s = .next t ∧
    tget t.tms.obs 2 = some { l := stamp, m := fromSigned 64 (m16 / 65536), frac := fromSigned 16 m16, effectAt := (s.now / 1000000 + 1) * 1000000 } ∧ t.eth = { s.eth with lastObs := some s.now, gapSaid := false } ∧ (s.eth.gapSaid = false → (s.eth.lastObs.any fun u => decide (u + 3000000000 < s.now)) = true → s.raised 302 t) ∧ s.only [.eth, .tms, .rcd, .cyc] (raiseFlds 302) t) ∧
  (∀ (seq : BitVec 16) (origin stamp : Nat) (corr : BitVec 64) (s : State), s.gptpOn = true → s.getB ETH_GPTP_STAT.AS_CAP = true → s.obsReason 2 stamp ≠ 0 → ∃ t, exec (.gptpSync false seq origin corr stamp) s = .next t ∧
    t.get TMS_STATUS.REJ = min 65535 (s.get TMS_STATUS.REJ + 1) ∧ s.raised 31 t ∧ t.eth = { s.eth with lastObs := some s.now, gapSaid := false } ∧
    (s.eth.gapSaid = false → (s.eth.lastObs.any fun u => decide (u + 3000000000 < s.now)) = true → s.raised 302 t) ∧ s.only [.eth, .rcd, .cyc] (TMS_STATUS.REJ :: raiseFlds 31 ++ raiseFlds 302) t) ∧
  (∀ (seq : BitVec 16) (origin stamp : Nat) (corr : BitVec 64) (s : State), s.gptpOn = true → s.getB ETH_GPTP_STAT.AS_CAP = true → ∃ t, exec (.gptpSync true seq origin corr stamp) s = .next t ∧
    t.eth = { s.eth with syncs := s.eth.syncs ++ [{ seq := seq.toNat, l := stamp }] } ∧ s.only [.eth] [] t) ∧
  (∀ (seq : BitVec 16) (origin l : Nat) (corr : BitVec 64) (m16 : Int) (rest : List GptpSync) (s : State), s.gptpOn = true → s.eth.syncs = { seq := seq.toNat, l := l } :: rest → s.now ≤ l + 100000000 → s.obsReason 2 l = 0 →
    m16 = ((origin : Int) - 315964819000000000 + s.get ETH_GPTP_STAT.PDELAY) * 65536 + corr.toInt → ∃ t, exec (.gptpFollowUp seq origin corr) s = .next t ∧
    tget t.tms.obs 2 = some { l := l, m := fromSigned 64 (m16 / 65536), frac := fromSigned 16 m16, effectAt := (s.now / 1000000 + 1) * 1000000 } ∧
    t.eth = { s.eth with lastObs := some s.now, gapSaid := false, syncs := rest.filter fun z => decide (z ≠ { seq := seq.toNat, l := l }) } ∧
    (s.eth.gapSaid = false → (s.eth.lastObs.any fun u => decide (u + 3000000000 < s.now)) = true → s.raised 302 t) ∧ s.only [.eth, .tms, .rcd, .cyc] (raiseFlds 302) t) ∧
  (∀ s : State, s.eth.syncs ≠ [] → ∃ t, exec .followUpTimeout s = .next t ∧ t.eth = { s.eth with syncs := s.eth.syncs.filter fun y => decide (s.now ≤ y.l + 100000000) } ∧ s.only [.eth] [] t) ∧
  (∀ (delay : BitVec 16) (s : State), s.gptpOn = true → (s.eth.pdAt.all fun t => decide (t + 1000000000 ≤ s.now)) = true → ∃ t, exec (.pdelayReq true delay) s = .next t ∧ t.get ETH_GPTP_STAT.PDELAY = delay.toNat ∧
    t.getB ETH_GPTP_STAT.AS_CAP = decide (delay.toNat ≤ s.get ETH_GPTP_CFG.PD_MAX) ∧ (t.getB ETH_GPTP_STAT.AS_CAP ≠ s.getB ETH_GPTP_STAT.AS_CAP → s.raised 302 t) ∧
    t.eth.pdAt = some s.now ∧ t.eth.pd = (s.eth.pd ++ [true]).drop (s.eth.pd.length - 2) ∧ s.only [.eth, .rcd, .cyc] ([ETH_GPTP_STAT.PDELAY, ETH_GPTP_STAT.AS_CAP] ++ raiseFlds 302) t) ∧
  (∀ (delay : BitVec 16) (a : Bool) (s : State), s.enabled 0x0F = true → s.getB ETH_GPTP_CFG.GPTP_EN = true → s.eth.pd = [a, false, false] → (s.eth.pdAt.all fun t => decide (t + 1000000000 ≤ s.now)) = true → s.getB ETH_GPTP_STAT.AS_CAP = true →
    ∃ t, exec (.pdelayReq false delay) s = .next t ∧ t.getB ETH_GPTP_STAT.AS_CAP = false ∧ s.raised 302 t ∧ t.eth.pd = [false, false, false] ∧ t.eth.pdAt = some s.now ∧ s.only [.eth, .rcd, .cyc] (ETH_GPTP_STAT.AS_CAP :: raiseFlds 302) t) ∧
  (∀ (a : Nat) (s : State), s.enabled 0x0F = true → s.getB ETH_GPTP_CFG.GPTP_EN = false → s.eth.gapSaid = false → s.eth.lastObs = some a → a + 3000000000 < s.now → ∃ t, exec .gptpState s = .next t ∧
    s.raised 302 t ∧ t.eth = { s.eth with gapSaid := true } ∧ s.only [.eth, .rcd, .cyc] (raiseFlds 302) t) ∧
  (∀ s : State, s.enabled 0x0F = true → s.getB ETH_GPTP_CFG.GPTP_EN = true → s.eth.lastObs = none → ∃ t, exec .gptpState s = .next t ∧
    t.getB ETH_GPTP_STAT.AS_CAP = (s.eth.pd.any (fun x => x) && decide (s.get ETH_GPTP_STAT.PDELAY ≤ s.get ETH_GPTP_CFG.PD_MAX)) ∧ (t.getB ETH_GPTP_STAT.AS_CAP ≠ s.getB ETH_GPTP_STAT.AS_CAP → s.raised 302 t) ∧
    s.only [.rcd, .cyc] (ETH_GPTP_STAT.AS_CAP :: raiseFlds 302) t) ∧
  (∀ (p : Fin 4) (up : Bool) (s : State), s.portOn p.val = true → s.getB (ETH_PORT_STAT.LINK p.val) = !up → (up = true ∨ s.get ETH_GPTP_CFG.GPTP_PORT ≠ p.val) → ∃ t, exec (.ethLinkChange p up) s = .next t ∧
    t.getB (ETH_PORT_STAT.LINK p.val) = up ∧ s.raised 300 t ∧ s.only [.rcd, .cyc] (ETH_PORT_STAT.LINK p.val :: raiseFlds 300) t) ∧
  (∀ (p : Fin 4) (s : State), s.portOn p.val = true → s.getB (ETH_PORT_STAT.LINK p.val) = true → s.get ETH_GPTP_CFG.GPTP_PORT = p.val → ∃ t, exec (.ethLinkChange p false) s = .next t ∧
    t.getB (ETH_PORT_STAT.LINK p.val) = false ∧ t.getB ETH_GPTP_STAT.AS_CAP = false ∧ s.raised 300 t ∧ (s.getB ETH_GPTP_STAT.AS_CAP = true → s.raised 302 t) ∧ t.eth = { s.eth with pd := [], syncs := [] } ∧
    s.only [.eth, .rcd, .cyc] ([ETH_PORT_STAT.LINK p.val, ETH_GPTP_STAT.AS_CAP] ++ raiseFlds 300 ++ raiseFlds 302) t) ∧
  (∀ s : State, s.getB ETH_CTRL.ENABLE = true → s.eth.wire = [] → s.eth.egress = [] → ∃ t, exec .ethDisable s = .next t ∧ t.getB ETH_CTRL.ENABLE = false ∧ t.eth = {} ∧ t.getB ETH_GPTP_STAT.AS_CAP = false ∧
    (∀ p, p < 4 → t.getB (ETH_PORT_STAT.LINK p) = false ∧ (s.getB (ETH_PORT_STAT.LINK p) = true → s.raised 300 t)) ∧ (s.getB ETH_GPTP_STAT.AS_CAP = true → s.raised 302 t) ∧
    s.only [.eth, .rcd, .cyc] ([ETH_CTRL.ENABLE, ETH_GPTP_STAT.AS_CAP, ETH_PORT_STAT.LINK 0, ETH_PORT_STAT.LINK 1, ETH_PORT_STAT.LINK 2, ETH_PORT_STAT.LINK 3] ++ raiseFlds 300 ++ raiseFlds 302) t) ∧
  (∀ (p : Nat) (f : EgFrame) (x : Taken) (s : State), s.getB ETH_CTRL.ENABLE = true → s.eth.wire = [(p, f)] → s.eth.egress = [] → f.cmd = some x.id → (s.ring 0x0F 0).taken = [x] → x.done = none → ∃ t, exec .ethDisable s = .next t ∧
    t.getB ETH_CTRL.ENABLE = false ∧ t.eth = {} ∧ s.ended 0x0F 0 x (s.freshCode [0x20, 0x21, 0x22, 0x23]) x.handle t ∧ t.free = s.free + 1 ∧ s.dramKept (s.complAddr 0x0F 0) 16 t ∧ s.within [.dram, .free, .cyc, .rings, .eth, .rcd] (some [0xC1, 0xCF]) t)

/-- A fragment opens a free buffer (an incomplete body is discarded, INCOMP, 303), is stored at its offset, and the body goes to FUS once complete; BUSY
and BAD count the rest. A datagram counts FMT, NOPEER, REPLAY or AUTH, 299 from 0; with a full ring RXDROP, 298; else its entry is written, the window
moves and 297 is raised. SEND takes the next SEQ of its slot, the epoch advancing at first use (its write to MRAM may fail, a free bit, log 128:
0x0F22 and 306), and queues the sealed datagram (AES-GCM uninterpreted, log 2); a spent slot answers 0x0F22, sets SPENT and raises 306. SEND and
FRAME_TX complete when the frame has left. PEER_CREATE, PEER_DESTROY, KEY_LOAD, KEY_ERASE act as Table 21-4 says. Every clause names the parts, fields
and bytes that may differ. -/
def Obligations.FleetDatagramsKeysAndLidarBodiesAreCarried : Prop :=
  (∀ (f : Fin 8) (sweep off total : Nat) (data payload : List Byte) (a : Nat) (s : State), s.enabled 0x0F = true → s.getB (ETH_FLOW_CFG.EN f.val) = true → 16 ≤ payload.length → natLE (payload.take 4) = sweep → natLE ((payload.drop 4).take 4) = off →
    natLE ((payload.drop 8).take 4) = total → payload.drop 16 = data → off + data.length ≤ total → off + data.length ≤ s.get (ETH_FLOW_BUF.BUF_KB f.val) * 1024 → data.length < total → tget s.eth.bodies (2 * f.val) = none → tget s.eth.bodies (2 * f.val + 1) = none →
    a = s.get64 (ETH_FLOW_BASE_LO f.val) (ETH_FLOW_BASE_HI f.val) → s.fusHolds a = false → ∃ t, exec (.lidarFragment f payload) s = .next t ∧
    t.eth = { s.eth with bodies := tput s.eth.bodies (2 * f.val) { sweep := sweep, total := some total, got := [(off, data.length)] } } ∧
    memBytes t.dram (a + off) data.length = data ∧ s.dramKept (a + off) data.length t ∧ s.only [.dram, .eth] [] t) ∧
  (∀ (f : Fin 8) (sweep off total : Nat) (data payload : List Byte) (a : Nat) (r : Rasm) (s : State), s.enabled 0x0F = true → s.getB (ETH_FLOW_CFG.EN f.val) = true → natLE (payload.take 4) = sweep → natLE ((payload.drop 4).take 4) = off →
    natLE ((payload.drop 8).take 4) = total → payload.drop 16 = data → off + data.length ≤ total → off + data.length ≤ s.get (ETH_FLOW_BUF.BUF_KB f.val) * 1024 → tget s.eth.bodies (2 * f.val) = none → tget s.eth.bodies (2 * f.val + 1) = some r →
    r.sweep = sweep → r.total = some total → { r with got := r.got ++ [(off, data.length)] : Rasm }.complete = true → a = s.get64 (ETH_FLOW_BASE_LO f.val) (ETH_FLOW_BASE_HI f.val) + s.get (ETH_FLOW_BUF.BUF_KB f.val) * 1024 →
    ∃ t, exec (.lidarFragment f payload) s = .next t ∧ t.eth = { s.eth with bodies := tdel s.eth.bodies (2 * f.val + 1) } ∧ memBytes t.dram (a + off) data.length = data ∧ s.dramKept (a + off) data.length t ∧
    t.fus = (if (s.fedSource 2 f.val).isSome = true then { s.fus with inbox := s.fus.inbox ++ [{ kind := 2, link := f.val, addr := a, tov := none }] } else s.fus) ∧ s.only [.dram, .eth, .fus] [] t) ∧
  (∀ (f : Fin 8) (sweep off total : Nat) (data payload : List Byte) (a b : Nat) (r : Rasm) (s : State), s.enabled 0x0F = true → s.getB (ETH_FLOW_CFG.EN f.val) = true → 16 ≤ payload.length → natLE (payload.take 4) = sweep → natLE ((payload.drop 4).take 4) = off →
    natLE ((payload.drop 8).take 4) = total → payload.drop 16 = data → off + data.length ≤ total → off + data.length ≤ s.get (ETH_FLOW_BUF.BUF_KB f.val) * 1024 → data.length < total → tget s.eth.bodies (2 * f.val) = some r → r.sweep ≠ sweep →
    tget s.eth.bodies (2 * f.val + 1) = none → a = s.get64 (ETH_FLOW_BASE_LO f.val) (ETH_FLOW_BASE_HI f.val) → b = a + s.get (ETH_FLOW_BUF.BUF_KB f.val) * 1024 → s.fusHolds a = false → s.fusHolds b = false →
    ∃ t, exec (.lidarFragment f payload) s = .next t ∧
    t.eth = { s.eth with bodies := tput (tdel s.eth.bodies (2 * f.val)) (2 * f.val + 1) { sweep := sweep, total := some total, got := [(off, data.length)] } } ∧
    t.get (ETH_FLOW_CNT.INCOMP f.val) = min 65535 (s.get (ETH_FLOW_CNT.INCOMP f.val) + 1) ∧ s.raised 303 t ∧
    memBytes t.dram (b + off) data.length = data ∧ s.dramKept (b + off) data.length t ∧ s.only [.dram, .eth, .rcd, .cyc] (ETH_FLOW_CNT.INCOMP f.val :: raiseFlds 303) t) ∧
  (∀ (f : Fin 8) (payload : List Byte) (r : Rasm) (s : State), s.enabled 0x0F = true → s.getB (ETH_FLOW_CFG.EN f.val) = true → tget s.eth.bodies (2 * f.val) = some r → natLE (payload.take 4) = r.sweep → r.total ≠ some (natLE ((payload.drop 8).take 4)) →
    ∃ t, exec (.lidarFragment f payload) s = .next t ∧ t.get (ETH_FLOW_CNT.BAD f.val) = min 255 (s.get (ETH_FLOW_CNT.BAD f.val) + 1) ∧ s.only [] [ETH_FLOW_CNT.BAD f.val] t) ∧
  (∀ (f : Fin 8) (payload : List Byte) (a : Nat) (s : State), s.enabled 0x0F = true → s.getB (ETH_FLOW_CFG.EN f.val) = true → tget s.eth.bodies (2 * f.val) = none → tget s.eth.bodies (2 * f.val + 1) = none → 16 ≤ payload.length →
    natLE ((payload.drop 4).take 4) + (payload.length - 16) ≤ natLE ((payload.drop 8).take 4) → natLE ((payload.drop 4).take 4) + (payload.length - 16) ≤ s.get (ETH_FLOW_BUF.BUF_KB f.val) * 1024 →
    a = s.get64 (ETH_FLOW_BASE_LO f.val) (ETH_FLOW_BASE_HI f.val) → s.fusHolds a = true → s.fusHolds (a + s.get (ETH_FLOW_BUF.BUF_KB f.val) * 1024) = true → ∃ t, exec (.lidarFragment f payload) s = .next t ∧
    t.get (ETH_FLOW_CNT.BUSY f.val) = min 255 (s.get (ETH_FLOW_CNT.BUSY f.val) + 1) ∧ s.only [] [ETH_FLOW_CNT.BUSY f.val] t) ∧
  (∀ (d : List Byte) (stamp : Nat) (s : State), s.enabled 0x0F = true → (natLE (d.take 4) ≠ 0x314C4654 ∨ natLE ((d.drop 4).take 2) ≠ 1 ∨ 1400 < natLE ((d.drop 6).take 2) ∨ d.length ≠ 36 + natLE ((d.drop 6).take 2)) →
    ∃ t, exec (.fltRx d stamp) s = .next t ∧ t.get ETH_FLT_CNT.FMT = min 255 (s.get ETH_FLT_CNT.FMT + 1) ∧ (s.get ETH_FLT_CNT.FMT = 0 → s.raised 299 t) ∧ s.only [.rcd, .cyc] (ETH_FLT_CNT.FMT :: raiseFlds 299) t) ∧
  (∀ (d : List Byte) (stamp len : Nat) (s : State), s.enabled 0x0F = true → natLE (d.take 4) = 0x314C4654 → natLE ((d.drop 4).take 2) = 1 → natLE ((d.drop 6).take 2) = len → len ≤ 1400 → d.length = 36 + len →
    (s.eth.peers.find? fun e => e.2.id = natLE ((d.drop 8).take 4)) = none → ∃ t, exec (.fltRx d stamp) s = .next t ∧ t.get ETH_FLT_CNT.NOPEER = min 255 (s.get ETH_FLT_CNT.NOPEER + 1) ∧
    (s.get ETH_FLT_CNT.NOPEER = 0 → s.raised 299 t) ∧ s.only [.rcd, .cyc] (ETH_FLT_CNT.NOPEER :: raiseFlds 299) t) ∧
  (∀ (d : List Byte) (stamp len seq i : Nat) (p : Peer) (s : State), s.enabled 0x0F = true → natLE (d.take 4) = 0x314C4654 → natLE ((d.drop 4).take 2) = 1 → natLE ((d.drop 6).take 2) = len → len ≤ 1400 → d.length = 36 + len →
    (s.eth.peers.find? fun e => e.2.id = natLE ((d.drop 8).take 4)) = some (i, p) → natLE ((d.drop 12).take 8) = seq → (seq = p.high ∨ seq + 1024 ≤ p.high ∨ p.seen.contains seq = true) → ∃ t, exec (.fltRx d stamp) s = .next t ∧
    t.get ETH_FLT_CNT.REPLAY = min 255 (s.get ETH_FLT_CNT.REPLAY + 1) ∧ (s.get ETH_FLT_CNT.REPLAY = 0 → s.raised 299 t) ∧ s.only [.rcd, .cyc] (ETH_FLT_CNT.REPLAY :: raiseFlds 299) t) ∧
  (∀ (d e : List Byte) (stamp len seq i : Nat) (p : Peer) (k : Nat × Nat) (s : State), s.enabled 0x0F = true → natLE (d.take 4) = 0x314C4654 → natLE ((d.drop 4).take 2) = 1 → natLE ((d.drop 6).take 2) = len → len ≤ 1400 → d.length = 36 + len →
    (s.eth.peers.find? fun e => e.2.id = natLE ((d.drop 8).take 4)) = some (i, p) → natLE ((d.drop 12).take 8) = seq → seq ≠ p.high → p.high < seq + 1024 → p.seen.contains seq = false → tget s.nv.keys p.rxKey = some k →
    s.ringFull ETH_FLT_RX_PI.PI ETH_FLT_RX_CI.CI ETH_FLT_RX_CFG.RLEN = false → e = bytesLE 4 (s.handle 0x0A i) ++ bytesLE 2 len ++ bytesLE 2 0 ++ bytesLE 8 seq ++ bytesLE 8 stamp ++ bytesLE 40 0 → ∃ t, exec (.fltRx d stamp) s = .next t ∧
    (Config.gcmOpens k.1 (natLE ((d.drop 8).take 12)) (d.take 20) ((d.drop 20).take len) (d.drop (20 + len)) = false →
      t.get ETH_FLT_CNT.AUTH = min 255 (s.get ETH_FLT_CNT.AUTH + 1) ∧ (s.get ETH_FLT_CNT.AUTH = 0 → s.raised 299 t) ∧ s.only [.rcd, .cyc] (ETH_FLT_CNT.AUTH :: raiseFlds 299) t) ∧
    (Config.gcmOpens k.1 (natLE ((d.drop 8).take 12)) (d.take 20) ((d.drop 20).take len) (d.drop (20 + len)) = true →
      memBytes t.dram (s.get64 ETH_FLT_RX_BASE_LO ETH_FLT_RX_BASE_HI + 1536 * (s.get ETH_FLT_RX_PI.PI % 2 ^ s.get ETH_FLT_RX_CFG.RLEN)) (64 + len) =
        e ++ (List.range len).map (Config.gcmPlain k.1 (natLE ((d.drop 8).take 12)) (d.take 20) ((d.drop 20).take len)) ∧
      s.dramKept (s.get64 ETH_FLT_RX_BASE_LO ETH_FLT_RX_BASE_HI + 1536 * (s.get ETH_FLT_RX_PI.PI % 2 ^ s.get ETH_FLT_RX_CFG.RLEN)) 1536 t ∧
      t.eth = { s.eth with peers := tput s.eth.peers i { p with high := max p.high seq, seen := (seq :: p.seen).filter fun q => decide (max p.high seq < q + 1024) } } ∧
      (s.get ETH_FLT_RX_CFG.RLEN ≤ 10 → t.get ETH_FLT_RX_PI.PI = (s.get ETH_FLT_RX_PI.PI + 1) % (2 * 2 ^ s.get ETH_FLT_RX_CFG.RLEN)) ∧ s.raised 297 t ∧ s.only [.dram, .eth, .rcd, .cyc] (ETH_FLT_RX_PI.PI :: raiseFlds 297) t)) ∧
  (∀ (d : List Byte) (stamp len seq i : Nat) (p : Peer) (s : State), s.enabled 0x0F = true → natLE (d.take 4) = 0x314C4654 → natLE ((d.drop 4).take 2) = 1 → natLE ((d.drop 6).take 2) = len → len ≤ 1400 → d.length = 36 + len →
    (s.eth.peers.find? fun e => e.2.id = natLE ((d.drop 8).take 4)) = some (i, p) → natLE ((d.drop 12).take 8) = seq → seq ≠ p.high → p.high < seq + 1024 → p.seen.contains seq = false → tget s.nv.keys p.rxKey = none →
    ∃ t, exec (.fltRx d stamp) s = .next t ∧ t.get ETH_FLT_CNT.AUTH = min 255 (s.get ETH_FLT_CNT.AUTH + 1) ∧ (s.get ETH_FLT_CNT.AUTH = 0 → s.raised 299 t) ∧ s.only [.rcd, .cyc] (ETH_FLT_CNT.AUTH :: raiseFlds 299) t) ∧
  (∀ (d : List Byte) (stamp len seq i : Nat) (p : Peer) (k : Nat × Nat) (s : State), s.enabled 0x0F = true → natLE (d.take 4) = 0x314C4654 → natLE ((d.drop 4).take 2) = 1 → natLE ((d.drop 6).take 2) = len → len ≤ 1400 → d.length = 36 + len →
    (s.eth.peers.find? fun e => e.2.id = natLE ((d.drop 8).take 4)) = some (i, p) → natLE ((d.drop 12).take 8) = seq → seq ≠ p.high → p.high < seq + 1024 → p.seen.contains seq = false → tget s.nv.keys p.rxKey = some k →
    s.ringFull ETH_FLT_RX_PI.PI ETH_FLT_RX_CI.CI ETH_FLT_RX_CFG.RLEN = true → ∃ t, exec (.fltRx d stamp) s = .next t ∧
    (Config.gcmOpens k.1 (natLE ((d.drop 8).take 12)) (d.take 20) ((d.drop 20).take len) (d.drop (20 + len)) = true →
      t.get ETH_FLT_CNT2.RXDROP = min 65535 (s.get ETH_FLT_CNT2.RXDROP + 1) ∧ s.raised 298 t ∧ s.only [.rcd, .cyc] (ETH_FLT_CNT2.RXDROP :: raiseFlds 298) t)) ∧
  (∀ (ring : Fin 1) (e : Entry) (x pid tx rx port vid : Nat) (s : State), s.ready 0x0F ring.val 0 e → tfree s.eth.peers 64 = some x → (s.cmdOf 0x0F ring.val e).arg 16 4 = pid → (s.cmdOf 0x0F ring.val e).arg 20 1 = tx →
    (s.cmdOf 0x0F ring.val e).arg 21 1 = rx → (s.cmdOf 0x0F ring.val e).arg 22 1 = port → (s.cmdOf 0x0F ring.val e).arg 30 2 = vid → tx ≤ 63 → rx ≤ 63 → port ≤ 3 → vid ≤ 4095 → s.portOn port = true → (tget s.nv.keys tx).isSome = true →
    (tget s.nv.keys rx).isSome = true → s.getB (ETH_KEY_STAT.SPENT tx) = false → (s.eth.peers.any fun e => e.2.id = pid) = false → ∃ t, exec (.peerCreate ring e) s = .next t ∧
    s.completed 0x0F ring.val e 0x00 (t.handle 0x0A x) t ∧ s.dramKept (s.complAddr 0x0F ring.val) 16 t ∧ t.gen 0x0A x = (s.gen 0x0A x + 1) % 1024 ∧
    t.eth = { s.eth with peers := tput s.eth.peers x { id := pid, txKey := tx, rxKey := rx, port := port, mac := natBE (bytesLE 6 ((s.cmdOf 0x0F ring.val e).arg 24 6)), vid := vid, ip := (s.cmdOf 0x0F ring.val e).arg 32 4, udp := (s.cmdOf 0x0F ring.val e).arg 36 2, high := 0, seen := [] } } ∧
    s.only [.dram, .rings, .gens, .eth, .rcd, .cyc] (complFlds 0x0F ring.val) t) ∧
  (∀ (ring : Fin 1) (e : Entry) (x : Nat) (s : State), s.ready 0x0F ring.val 0 e → s.checkHandle 0x0A s.peerLive e.handle.toNat = none → hIndex e.handle.toNat = x → ∃ t, exec (.peerDestroy ring e) s = .next t ∧
    s.completed 0x0F ring.val e 0x00 e.handle.toNat t ∧ s.dramKept (s.complAddr 0x0F ring.val) 16 t ∧ t.eth = { s.eth with peers := tdel s.eth.peers x } ∧ s.only [.dram, .rings, .eth, .rcd, .cyc] (complFlds 0x0F ring.val) t) ∧
  (∀ (ring : Fin 1) (e : Entry) (x buf len seq k ep c : Nat) (h : List Byte) (p : Peer) (s : State), s.ready 0x0F ring.val 0 e → s.checkHandle 0x0A s.peerLive e.handle.toNat = none → hIndex e.handle.toNat = x → tget s.eth.peers x = some p →
    (s.cmdOf 0x0F ring.val e).arg 16 8 = buf → (s.cmdOf 0x0F ring.val e).arg 24 2 = len → len ≤ 1400 → s.inWins 0x0F buf len = true → s.portOn p.port = true → s.portUp p.port = true → tget s.nv.keys p.txKey = some (k, ep) →
    tget s.eth.counts p.txKey = some c → c ≤ 0xFFFFFFFF → seq = ep * 2 ^ 32 + c →
    h = bytesLE 4 0x314C4654 ++ bytesLE 2 1 ++ bytesLE 2 len ++ bytesLE 4 (s.reg ETH_FLT_CFG).toNat ++ bytesLE 8 seq → (tget s.eth.wire p.port).isSome = true → ∃ t, exec (.fleetSend ring e) s = .next t ∧
    s.started 0x0F ring.val 3 e t ∧
    t.eth = { s.eth with counts := tput s.eth.counts p.txKey (c + 1), egress := tput s.eth.egress (4 * p.port) (tgetD s.eth.egress (4 * p.port) [] ++ [{ data := (s.fleetFrame p (h ++ (Config.aesGcmSeal k (natLE (h.drop 8)) h (memBytes s.dram buf len)).1 ++ (Config.aesGcmSeal k (natLE (h.drop 8)) h (memBytes s.dram buf len)).2)).bytes ((s.vlanOf p.vid).any fun i => s.vlanUntag i p.port), cmd := some (s.ring 0x0F ring.val).nextId }]) } ∧
    s.only [.rings, .eth] [] t) ∧
  (∀ (ring : Fin 1) (e : Entry) (x buf len seq k ep : Nat) (h : List Byte) (p : Peer) (s : State), s.ready 0x0F ring.val 0 e → s.checkHandle 0x0A s.peerLive e.handle.toNat = none → hIndex e.handle.toNat = x → tget s.eth.peers x = some p →
    (s.cmdOf 0x0F ring.val e).arg 16 8 = buf → (s.cmdOf 0x0F ring.val e).arg 24 2 = len → len ≤ 1400 → s.inWins 0x0F buf len = true → s.portOn p.port = true → s.portUp p.port = true → tget s.nv.keys p.txKey = some (k, ep) →
    ((tget s.eth.counts p.txKey).all fun n => decide (0xFFFFFFFF < n)) = true → ep ≠ 0xFFFFFFFF → seq = (ep + 1) * 2 ^ 32 →
    h = bytesLE 4 0x314C4654 ++ bytesLE 2 1 ++ bytesLE 2 len ++ bytesLE 4 (s.reg ETH_FLT_CFG).toNat ++ bytesLE 8 seq → (tget s.eth.wire p.port).isSome = true → ∃ t, exec (.fleetSend ring e) s = .next t ∧
    t.free = s.free + 1 ∧
    (s.fresh 1 ≠ 1 → s.started 0x0F ring.val 3 e t ∧ t.nv = { s.nv with keys := tput s.nv.keys p.txKey (k, ep + 1) } ∧ t.dram = s.dram ∧
    t.eth = { s.eth with counts := tput s.eth.counts p.txKey 1, egress := tput s.eth.egress (4 * p.port) (tgetD s.eth.egress (4 * p.port) [] ++ [{ data := (s.fleetFrame p (h ++ (Config.aesGcmSeal k (natLE (h.drop 8)) h (memBytes s.dram buf len)).1 ++ (Config.aesGcmSeal k (natLE (h.drop 8)) h (memBytes s.dram buf len)).2)).bytes ((s.vlanOf p.vid).any fun i => s.vlanUntag i p.port), cmd := some (s.ring 0x0F ring.val).nextId }]) }) ∧
    (s.fresh 1 = 1 → s.completed 0x0F ring.val e 0x22 e.handle.toNat t ∧ s.raised 306 t ∧ t.nv = s.nv ∧ t.eth = s.eth) ∧ s.dramKept (s.complAddr 0x0F ring.val) 16 t ∧
    s.only [.dram, .rings, .nv, .eth, .free, .rcd, .cyc] (complFlds 0x0F ring.val ++ raiseFlds 306) t) ∧
  (∀ (ring : Fin 1) (e : Entry) (x buf len k : Nat) (p : Peer) (s : State), s.ready 0x0F ring.val 0 e → s.checkHandle 0x0A s.peerLive e.handle.toNat = none → hIndex e.handle.toNat = x → tget s.eth.peers x = some p → p.txKey ≤ 63 →
    (s.cmdOf 0x0F ring.val e).arg 16 8 = buf → (s.cmdOf 0x0F ring.val e).arg 24 2 = len → len ≤ 1400 → s.inWins 0x0F buf len = true → s.portOn p.port = true → s.portUp p.port = true → tget s.nv.keys p.txKey = some (k, 0xFFFFFFFF) →
    ((tget s.eth.counts p.txKey).all fun n => decide (0xFFFFFFFF < n)) = true → s.getB (ETH_KEY_STAT.SPENT p.txKey) = false → ∃ t, exec (.fleetSend ring e) s = .next t ∧
    s.completed 0x0F ring.val e 0x22 e.handle.toNat t ∧ s.dramKept (s.complAddr 0x0F ring.val) 16 t ∧ t.getB (ETH_KEY_STAT.SPENT p.txKey) = true ∧ s.raised 306 t ∧
    s.only [.dram, .rings, .rcd, .cyc] (ETH_KEY_STAT.SPENT p.txKey :: complFlds 0x0F ring.val ++ raiseFlds 306) t) ∧
  (∀ (ring : Fin 1) (e : Entry) (k : Nat) (s : State), s.ready 0x0F ring.val 0 e → (s.cmdOf 0x0F ring.val e).arg 16 1 = k → k ≤ 63 → s.nv.lifeCycle = 0 → ∃ t, exec (.keyLoad ring e) s = .next t ∧
    s.completed 0x0F ring.val e 0x00 e.handle.toNat t ∧ s.dramKept (s.complAddr 0x0F ring.val) 16 t ∧ t.nv = { s.nv with keys := tput s.nv.keys k ((s.cmdOf 0x0F ring.val e).arg 24 32, 0) } ∧ t.eth = { s.eth with counts := tdel s.eth.counts k } ∧
    t.getB (ETH_KEY_STAT.FULL k) = true ∧ t.getB (ETH_KEY_STAT.SPENT k) = false ∧ s.only [.dram, .rings, .nv, .eth, .rcd, .cyc] ([ETH_KEY_STAT.FULL k, ETH_KEY_STAT.SPENT k] ++ complFlds 0x0F ring.val) t) ∧
  (∀ (ring : Fin 1) (e : Entry) (k : Nat) (s : State), s.ready 0x0F ring.val 0 e → (s.cmdOf 0x0F ring.val e).arg 16 1 = k → k ≤ 63 → s.openLifeCycle = true → ∃ t, exec (.keyErase ring e) s = .next t ∧
    s.completed 0x0F ring.val e 0x00 e.handle.toNat t ∧ s.dramKept (s.complAddr 0x0F ring.val) 16 t ∧ t.nv = { s.nv with keys := tdel s.nv.keys k } ∧ t.eth = { s.eth with counts := tdel s.eth.counts k } ∧
    t.getB (ETH_KEY_STAT.FULL k) = false ∧ t.getB (ETH_KEY_STAT.SPENT k) = false ∧ s.only [.dram, .rings, .nv, .eth, .rcd, .cyc] ([ETH_KEY_STAT.FULL k, ETH_KEY_STAT.SPENT k] ++ complFlds 0x0F ring.val) t) ∧
  (∀ (ring : Fin 1) (e : Entry) (k : Nat) (s : State), s.ready 0x0F ring.val 0 e → (s.cmdOf 0x0F ring.val e).arg 16 1 = k → k ≤ 63 → s.openLifeCycle = false → ∃ t, exec (.keyErase ring e) s = .next t ∧
    s.completed 0x0F ring.val e 0x0B e.handle.toNat t ∧ s.dramKept (s.complAddr 0x0F ring.val) 16 t ∧ s.only [.dram, .rings, .rcd, .cyc] (complFlds 0x0F ring.val) t) ∧
  (∀ (ring : Fin 1) (e : Entry) (p q buf len : Nat) (s : State), s.ready 0x0F ring.val 0 e → (s.cmdOf 0x0F ring.val e).arg 16 1 = p → (s.cmdOf 0x0F ring.val e).arg 24 8 = buf → (s.cmdOf 0x0F ring.val e).arg 32 2 = len → p ≤ 3 → 60 ≤ len → len ≤ 1518 →
    s.inWins 0x0F buf len = true → s.portUp p = true → (parseFrame 0 (memBytes s.dram buf len)).pcp / 2 = q →
    ((tget s.eth.wire p).isSome = true ∨ tgetD s.eth.egress (4 * p) [] = [] ∧ tgetD s.eth.egress (4 * p + 1) [] = [] ∧ tgetD s.eth.egress (4 * p + 2) [] = [] ∧ tgetD s.eth.egress (4 * p + 3) [] = []) → ∃ t, exec (.frameTx ring e) s = .next t ∧
    s.started 0x0F ring.val 6 e t ∧ ((tget s.eth.wire p).isSome = true → t.eth = { s.eth with egress := tput s.eth.egress (4 * p + q) (tgetD s.eth.egress (4 * p + q) [] ++ [{ data := memBytes s.dram buf len, cmd := some (s.ring 0x0F ring.val).nextId }]) }) ∧
    ((tget s.eth.wire p).isSome = false → tget t.eth.wire p = some { data := memBytes s.dram buf len, cmd := some (s.ring 0x0F ring.val).nextId } ∧ tgetD t.eth.egress (4 * p + q) [] = []) ∧ s.only [.rings, .eth] [] t) ∧
  (∀ (p : Fin 4) (f : EgFrame) (x : Taken) (s : State), s.portUp p.val = true → tget s.eth.wire p.val = some f → f.cmd = some x.id → (s.ring 0x0F 0).taken = [x] → x.done = none →
    tgetD s.eth.egress (4 * p.val) [] = [] → tgetD s.eth.egress (4 * p.val + 1) [] = [] → tgetD s.eth.egress (4 * p.val + 2) [] = [] → tgetD s.eth.egress (4 * p.val + 3) [] = [] → ∃ t, exec (.ethTxComplete p) s = .next t ∧
    s.ended 0x0F 0 x 0x00 x.handle t ∧ s.dramKept (s.complAddr 0x0F 0) 16 t ∧ t.eth = { s.eth with wire := tdel s.eth.wire p.val } ∧ s.only [.dram, .rings, .eth, .rcd, .cyc] (complFlds 0x0F 0) t) ∧
  (∀ (p : Fin 4) (f g : EgFrame) (rest : List EgFrame) (s : State), s.portUp p.val = true → tget s.eth.wire p.val = some f → f.cmd = none → tgetD s.eth.egress (4 * p.val + 3) [] = g :: rest → ∃ t, exec (.ethTxComplete p) s = .next t ∧
    tget t.eth.wire p.val = some g ∧ t.eth.egress = tput s.eth.egress (4 * p.val + 3) rest ∧ s.only [.eth] [] t)

/-- A cycle makes a HEAD, six SIG and BULK cells with right CRCs; VALID is 0 unless JOINED. A wrong CRC counts, 318 from 0. A HEAD brings its lane UP
(314); the 16th that passes joins, a failing row goes to WHY and UNJOINED (313). On the FOLLOW it gives d, OFS, UNTRUST (315 at a change) and, at CYC
mod 10 = 0, an observation. A SIG cell gives its values the HEAD's release LTC (SIG_LATE, 316 when late), dropped while held. BULK cells build bodies
that go to FUS with TOV made local; discards count CV_DROP, 317. A silent lane goes down, the last one DOWN. BODY_SEND queues a body, needs JOINED,
and ends with its last cell. Disabling PAIR ends all. Before any of these, lanes silent for 1,000,000 ns go down: the other clauses say so by a
premise (State.lanesTrue). Every clause names the parts, fields and bytes that may differ. -/
def Obligations.PairModulesCycleJoinKeepTimeAndCarryCells : Prop :=
  (∀ s : State, s.enabled 0x10 = true → s.now % 100000 = 0 → s.pair.cycAt ≠ some s.now → s.lanesTrue = true →  s.pair.sends = [] → s.pair.cyc < 65536 → ∃ t, exec .pairCycle s = .next t ∧ t.pair.cyc = (s.pair.cyc + 1) % 65536 ∧ t.pair.sseq = (s.pair.sseq + 1) % 256 ∧
    tget t.pair.sent s.pair.cyc = some s.now ∧ t.pair.cycAt = some s.now ∧ t.pair.out.length = 7 ∧ t.pair.out.map (fun c => cellN c 0 1) = [1, 2, 2, 2, 2, 2, 2] ∧
    (t.pair.out.all fun c => decide (c.length = 64 ∧ natLE (c.drop 60) = crc32 (c.take 60) ∧ cellN c 2 2 = s.pair.cyc)) = true ∧ ((t.pair.out.drop 1).map fun c => cellN c 1 1) = [0, 1, 2, 3, 4, 5] ∧
    (s.pair.last.isSome = true → (t.pair.out.take 1).map (fun c => (cellN c 52 2, cellN c 54 4)) = [((s.pair.last.getD (0, 0)).1 % 2 ^ 16, s.since (s.pair.last.getD (0, 0)).2 % 2 ^ 32)]) ∧ (t.pair.out.take 1).map (fun c => (cellN c 1 1, cellN c 36 8, cellN c 45 1)) = [(s.get PAIR_CFG.ROLE + (if s.pairJoined then 2 else 0) + (if s.getB PAIR_STAT.UNTRUST then 0 else 4), fromSigned 64 s.mtNow, s.pair.sseq % 256)] ∧
    (s.pairJoined = false → ((t.pair.out.drop 1).all fun c => decide (cellN c 4 2 = 0)) = true) ∧ t.free = s.free + (if s.pair.last.isNone = true then 2 else 0) ∧ s.only [.pair, .free] [] t) ∧
  (∀ (i : Fin 64) (l v : Nat) (s : State), s.enabled 0x10 = true → s.now % 100000 = 0 → s.pair.cycAt ≠ some s.now → s.lanesTrue = true →  s.pairJoined = true → s.getB (PAIR_SIGO.EN i.val) = true → ((tget s.cle.slots (s.get (PAIR_SIGO.SLOT i.val))).all fun c => decide (c.applied ≠ 0)) = true →
    latestAt (tgetD s.cle.hist (s.get (PAIR_SIGO.SLOT i.val)) []) 2000 s.now = some (l, v) → ∃ t, exec .pairCycle s = .next t ∧ bitAt (cellN (t.pair.out.getD (1 + i.val / 12) []) 4 2) (i.val % 12) = true ∧
    cellN (t.pair.out.getD (1 + i.val / 12) []) (8 + 4 * (i.val % 12)) 4 = v % 2 ^ 32 ∧ s.only [.pair, .free] [] t) ∧
  (∀ (x : PairSend) (n : Nat) (s : State), s.enabled 0x10 = true → s.now % 100000 = 0 → s.pair.cycAt ≠ some s.now → s.lanesTrue = true →  s.pair.sends = [x] → 0 < x.pos → x.pos < x.len → x.len - x.pos = n → n ≤ 48 → ∃ t, exec .pairCycle s = .next t ∧
    t.pair.sends = [{ x with pos := x.pos + 48 }] ∧ t.pair.out.length = 8 ∧ cellN (t.pair.out.getD 7 []) 0 1 = 3 ∧ cellN (t.pair.out.getD 7 []) 1 1 = x.link % 256 ∧ cellN (t.pair.out.getD 7 []) 4 4 = x.body % 2 ^ 32 ∧
    cellN (t.pair.out.getD 7 []) 8 4 = x.pos % 2 ^ 32 ∧ ((t.pair.out.getD 7 []).drop 12).take 48 = memBytes s.dram (x.addr + x.pos) n ++ List.replicate (48 - n) 0 ∧ s.only [.pair, .free] [] t) ∧
  (∀ s : State, s.enabled 0x10 = true → s.now % 100000 = 0 → s.pair.cycAt ≠ some s.now → s.get PAIR_STAT.LANE_UP ≠ 0 → (∀ l ∈ List.range 2, ((tget s.pair.heard l).all fun x => decide (x + 1000000 < s.now)) = true) → s.pair.sends = [] → s.pair.bodies = [] →
    ∃ t, exec .pairCycle s = .next t ∧ t.get PAIR_STAT.LANE_UP = 0 ∧ s.raised 314 t ∧ t.get PAIR_STAT.STATE = 0 ∧ (s.get PAIR_STAT.STATE ≠ 0 → s.raised 313 t) ∧ (s.get PAIR_STAT.STATE = 2 → t.pair.lost = true) ∧ t.pair.cycAt = some s.now ∧
    (t.pair.out.take 1).map (fun c => cellN c 1 1 / 2 % 2) = [0] ∧ s.only [.pair, .free, .rcd, .cyc] ([PAIR_STAT.LANE_UP, PAIR_STAT.STATE] ++ raiseFlds 313 ++ raiseFlds 314) t) ∧
  (∀ (lane : Fin 2) (cell : List Byte) (stamp : Nat) (s : State), s.pairLane lane.val = true → s.lanesTrue = true → cellOk cell = false → ∃ t, exec (.headRx lane cell stamp) s = .next t ∧ t.get (PAIR_LANE.CRC lane.val) = min 65535 (s.get (PAIR_LANE.CRC lane.val) + 1) ∧
    (s.get (PAIR_LANE.CRC lane.val) = 0 → s.raised 318 t) ∧ s.only [.rcd, .cyc] (PAIR_LANE.CRC lane.val :: raiseFlds 318) t) ∧
  (∀ (lane : Fin 2) (cell : List Byte) (stamp : Nat) (s : State), s.pairLane lane.val = true → s.lanesTrue = true → cellOk cell = true → natLE (cell.take 1) ≠ 1 → ∃ t, exec (.headRx lane cell stamp) s = .next t ∧ t = s) ∧
  (∀ (lane : Fin 2) (s : State), s.pairLane lane.val = true → ∃ t, exec (.pairCellCrcFail lane) s = .next t ∧ t.get (PAIR_LANE.CRC lane.val) = min 65535 (s.get (PAIR_LANE.CRC lane.val) + 1) ∧
    (s.get (PAIR_LANE.CRC lane.val) = 0 → s.raised 318 t) ∧ s.only [.rcd, .cyc] (PAIR_LANE.CRC lane.val :: raiseFlds 318) t) ∧
  (∀ (lane : Fin 2) (cell : List Byte) (stamp cyc ident why : Nat) (s : State), s.pairLane lane.val = true → s.lanesTrue = true → cellOk cell = true → natLE (cell.take 1) = 1 → cellN cell 2 2 = cyc → (s.pair.heads.any fun h => decide (h.cyc = cyc)) = false → s.get PAIR_CFG.ROLE = 0 →
    tget s.pair.sent (cellN cell 52 2) = none → s.get PAIR_STAT.STATE ≠ 2 → ident = (s.reg (STR_IDENT 0)).toNat + 2 ^ 32 * (s.reg (STR_IDENT 1)).toNat + 2 ^ 64 * (s.reg (STR_IDENT 2)).toNat + 2 ^ 96 * (s.reg (STR_IDENT 3)).toNat →
    why = (if cellN cell 1 1 % 2 = 0 then 1 else if cellN cell 4 16 ≠ ident then 2 else if cellN cell 20 8 = s.manN s.nv.active 8 8 ∨ s.manN s.nv.active 16 8 ≠ 0 ∧ cellN cell 28 8 = s.manN s.nv.active 16 8 then 0 else 3) →
    ∃ t, exec (.headRx lane cell stamp) s = .next t ∧ t.get PAIR_STAT.WHY = why ∧ t.pair.good = (if why = 0 then min 16 (s.pair.good + 1) else 0) ∧ t.get PAIR_STAT.STATE = (if why = 0 ∧ 15 ≤ s.pair.good then 2 else 1) ∧
    (t.get PAIR_STAT.STATE ≠ s.get PAIR_STAT.STATE → s.raised 313 t) ∧ t.getB ⟨PAIR_STAT, 24 + lane.val, 1⟩ = true ∧ (s.getB ⟨PAIR_STAT, 24 + lane.val, 1⟩ = false → s.raised 314 t) ∧ t.get PAIR_STAT.CYC = cyc ∧
    t.pair.last = some (cyc, stamp) ∧ t.pair.trust = bitAt (cellN cell 1 1) 2 ∧ tget t.pair.heard lane.val = some s.now ∧
    t.pair.heads.getLast? = some { cyc := cyc, rel := s.ltcOfMt (cellN cell 36 8) + s.get PAIR_CFG.RLS_DLY * 1000, seen := 0 } ∧
    s.only [.pair, .rcd, .cyc] ([⟨PAIR_STAT, 24 + lane.val, 1⟩, PAIR_STAT.CYC, PAIR_STAT.WHY, PAIR_STAT.STATE] ++ raiseFlds 313 ++ raiseFlds 314) t) ∧
  (∀ (lane : Fin 2) (cell : List Byte) (stamp : Nat) (x : Taken) (y : PairSend) (s : State), s.pairLane lane.val = true → s.lanesTrue = true → cellOk cell = true → natLE (cell.take 1) = 1 → (s.pair.heads.any fun h => decide (h.cyc = cellN cell 2 2)) = false → s.get PAIR_CFG.ROLE = cellN cell 1 1 % 2 →
    s.get PAIR_STAT.STATE = 2 → s.pair.bodies = [] → s.pair.sends = [y] → y.id = x.id → (s.ring 0x10 0).taken = [x] → x.done = none → ∃ t, exec (.headRx lane cell stamp) s = .next t ∧
    t.get PAIR_STAT.WHY = 1 ∧ t.get PAIR_STAT.STATE = 1 ∧ s.raised 313 t ∧ s.ended 0x10 0 x 0x0D x.handle t ∧ s.dramKept (s.complAddr 0x10 0) 16 t ∧ t.pair.sends = [] ∧ t.pair.good = 0 ∧
    s.only [.dram, .rings, .pair, .rcd, .cyc] (complFlds 0x10 0 ++ [⟨PAIR_STAT, 24 + lane.val, 1⟩, PAIR_STAT.CYC, PAIR_STAT.WHY, PAIR_STAT.STATE] ++ raiseFlds 313 ++ raiseFlds 314) t) ∧
  (∀ (lane : Fin 2) (cell : List Byte) (stamp tx : Nat) (l : List Int) (d o : Int) (s : State), s.pairLane lane.val = true → s.lanesTrue = true → cellOk cell = true → natLE (cell.take 1) = 1 → (s.pair.heads.any fun h => decide (h.cyc = cellN cell 2 2)) = false → s.get PAIR_CFG.ROLE = 1 →
    cellN cell 1 1 % 2 = 0 → s.joinWhy cell = 0 → s.get PAIR_STAT.STATE = 2 → 16 ≤ s.pair.good → tget s.pair.sent (cellN cell 52 2) = some tx → l = (s.pair.trips ++ [(stamp : Int) - tx - cellN cell 54 4]).drop (s.pair.trips.length - 15) →
    d = l.foldl (· + ·) 0 / (2 * l.length) → 0 ≤ d → d < 2 ^ 32 → o = (cellN cell 36 8 : Int) + d - s.mtAt stamp → -(2 ^ 31) ≤ o → o < 2 ^ 31 → s.obsReason 3 stamp = 0 → ∃ t, exec (.headRx lane cell stamp) s = .next t ∧
    (t.get PAIR_DLY.DLY : Int) = d ∧ t.get PAIR_OFS.OFS = fromSigned 32 o ∧ t.pair.trips = l ∧
    t.getB PAIR_STAT.UNTRUST = (if 2000 < o.natAbs then true else if o.natAbs ≤ 1000 ∧ 15 ≤ s.pair.okTime then false else s.getB PAIR_STAT.UNTRUST) ∧ (t.getB PAIR_STAT.UNTRUST ≠ s.getB PAIR_STAT.UNTRUST → s.raised 315 t) ∧
    t.pair.okTime = (if o.natAbs ≤ 1000 then s.pair.okTime + 1 else 0) ∧
    tget t.tms.obs 3 = (if cellN cell 2 2 % 10 = 0 then some { l := stamp, m := (cellN cell 36 8 + d.toNat) % 2 ^ 64, frac := 0, effectAt := (s.now / 1000000 + 1) * 1000000 } else tget s.tms.obs 3) ∧
    s.only [.pair, .rcd, .cyc, .tms] ([⟨PAIR_STAT, 24 + lane.val, 1⟩, PAIR_STAT.CYC, PAIR_STAT.WHY, PAIR_STAT.UNTRUST, PAIR_DLY.DLY, PAIR_OFS.OFS] ++ raiseFlds 314 ++ raiseFlds 315) t) ∧
  (∀ (lane : Fin 2) (cell : List Byte) (h : PairHead) (rest : List PairHead) (j : Nat) (s : State), s.pairLane lane.val = true → s.lanesTrue = true → cellOk cell = true → natLE (cell.take 1) = 2 → cellN cell 1 1 = j → j ≤ 5 → s.pair.heads = h :: rest → h.cyc = cellN cell 2 2 → (rest.all fun g => decide (g.cyc ≠ h.cyc)) = true →
    bitAt h.seen j = false → s.pairJoined = true → s.pairHeld = false → ∃ t, exec (.sigRx lane cell) s = .next t ∧ t.pair.heads = { h with seen := putBits h.seen j 1 1 } :: rest ∧
    (∀ b, b < 12 → 12 * j + b < 64 → bitAt (cellN cell 4 2) b = true → (tgetD t.pair.rx (12 * j + b) []).getLast? = some (h.rel, cellN cell (8 + 4 * b) 4)) ∧
    (∀ i, i < 64 → (i / 12 ≠ j ∨ bitAt (cellN cell 4 2) (i % 12) = false) → tget t.pair.rx i = tget s.pair.rx i) ∧
    t.get PAIR_CNT.SIG_LATE = (if h.rel < s.now then min 65535 (s.get PAIR_CNT.SIG_LATE + 1) else s.get PAIR_CNT.SIG_LATE) ∧ (h.rel < s.now → s.raised 316 t) ∧
    s.only [.pair, .rcd, .cyc] (PAIR_CNT.SIG_LATE :: raiseFlds 316) t) ∧
  (∀ (lane : Fin 2) (cell : List Byte) (s : State), s.pairLane lane.val = true → s.lanesTrue = true → cellOk cell = true → natLE (cell.take 1) = 2 → (s.pair.heads.all fun h => decide (h.cyc ≠ cellN cell 2 2)) = true → ∃ t, exec (.sigRx lane cell) s = .next t ∧ t = s) ∧
  (∀ (lane : Fin 2) (cell : List Byte) (h : PairHead) (rest : List PairHead) (j : Nat) (s : State), s.pairLane lane.val = true → s.lanesTrue = true → cellOk cell = true → natLE (cell.take 1) = 2 → cellN cell 1 1 = j → j ≤ 5 → s.pair.heads = h :: rest → h.cyc = cellN cell 2 2 → (s.pairJoined = false ∨ s.pairHeld = true) →
    ∃ t, exec (.sigRx lane cell) s = .next t ∧ t.pair.rx = s.pair.rx ∧ s.only [.pair] [] t) ∧
  (∀ (lane : Fin 2) (cell : List Byte) (k a : Nat) (s : State), s.pairLane lane.val = true → s.lanesTrue = true → cellOk cell = true → natLE (cell.take 1) = 3 → s.pairJoined = true → cellN cell 1 1 = k → k ≤ 7 → s.pair.bulk.contains (cellN cell 2 2, k, cellN cell 4 4, cellN cell 8 4) = false → cellN cell 8 4 = 0 →
    tget s.pair.bodies (2 * k) = none → tget s.pair.bodies (2 * k + 1) = none → a = s.get64 PAIR_CVI_BASE_LO PAIR_CVI_BASE_HI + 2 * 1024 * s.get PAIR_CVI_BUF.BUF_KB * k → s.fusHolds a = false → 1 ≤ s.get PAIR_CVI_BUF.BUF_KB → ∃ t, exec (.bulkRx lane cell) s = .next t ∧
    t.pair.bodies = tput s.pair.bodies (2 * k) { sweep := cellN cell 4 4, total := some (64 + 48 * cellN cell 12 4), got := [(0, 48)] } ∧ memBytes t.dram a 48 = (cell.drop 12).take 48 ∧ s.dramKept a 48 t ∧ s.only [.dram, .pair] [] t) ∧
  (∀ (lane : Fin 2) (cell : List Byte) (k off n tot a : Nat) (r : Rasm) (s : State), s.pairLane lane.val = true → s.lanesTrue = true → cellOk cell = true → natLE (cell.take 1) = 3 → s.pairJoined = true → cellN cell 1 1 = k → k ≤ 7 → s.pair.bulk.contains (cellN cell 2 2, k, cellN cell 4 4, cellN cell 8 4) = false → cellN cell 8 4 = off →
    16 ≤ off → tget s.pair.bodies (2 * k) = some r → r.sweep = cellN cell 4 4 → r.total = some tot → off < tot → n = min 48 (tot - off) → off + n ≤ s.get PAIR_CVI_BUF.BUF_KB * 1024 → { r with got := r.got ++ [(off, n)] : Rasm }.complete = true →
    a = s.get64 PAIR_CVI_BASE_LO PAIR_CVI_BASE_HI + 2 * 1024 * s.get PAIR_CVI_BUF.BUF_KB * k → ∃ t, exec (.bulkRx lane cell) s = .next t ∧ t.pair.bodies = tdel s.pair.bodies (2 * k) ∧ memBytes t.dram (a + off) n = ((cell.drop 12).take 48).take n ∧
    (s.pairHeld = false → memNat t.dram (a + 8) 8 = s.ltcOfMt (memNat s.dram (a + 8) 8) ∧ t.fus = (if (s.fedSource 6 k).isSome = true then { s.fus with inbox := s.fus.inbox ++ [{ kind := 6, link := k, addr := a, tov := none }] } else s.fus) ∧
      s.only [.dram, .pair, .fus] [] t) ∧
    (∀ c, (c < a + 8 ∨ a + 16 ≤ c) → (c < a + off ∨ a + off + n ≤ c) → memByte t.dram c = memByte s.dram c) ∧
    (s.pairHeld = true → t.get PAIR_CNT.CV_DROP = min 65535 (s.get PAIR_CNT.CV_DROP + 1) ∧ s.raised 317 t ∧ s.dramKept (a + off) n t ∧ s.only [.dram, .pair, .rcd, .cyc] (PAIR_CNT.CV_DROP :: raiseFlds 317) t)) ∧
  (∀ (lane : Fin 2) (s : State), s.enabled 0x10 = true → ((tget s.pair.heard lane.val).all fun t => decide (t + 1000000 < s.now)) = true → s.getB ⟨PAIR_STAT, 24 + lane.val, 1⟩ = true → s.getB ⟨PAIR_STAT, 24 + (1 - lane.val), 1⟩ = true → ∃ t, exec (.laneTimeout lane) s = .next t ∧
    t.getB ⟨PAIR_STAT, 24 + lane.val, 1⟩ = false ∧ s.raised 314 t ∧ s.only [.rcd, .cyc] (⟨PAIR_STAT, 24 + lane.val, 1⟩ :: raiseFlds 314) t) ∧
  (∀ (lane : Fin 2) (s : State), s.enabled 0x10 = true → ((tget s.pair.heard lane.val).all fun t => decide (t + 1000000 < s.now)) = true → s.getB ⟨PAIR_STAT, 24 + lane.val, 1⟩ = true → s.getB ⟨PAIR_STAT, 24 + (1 - lane.val), 1⟩ = false → s.pair.bodies = [] → s.pair.sends = [] →
    ∃ t, exec (.laneTimeout lane) s = .next t ∧ t.getB ⟨PAIR_STAT, 24 + lane.val, 1⟩ = false ∧ s.raised 314 t ∧ t.get PAIR_STAT.STATE = 0 ∧ (s.get PAIR_STAT.STATE ≠ 0 → s.raised 313 t) ∧ t.pair.good = 0 ∧ (s.get PAIR_STAT.STATE = 2 → t.pair.lost = true) ∧
    s.only [.pair, .rcd, .cyc] ([⟨PAIR_STAT, 24 + lane.val, 1⟩, PAIR_STAT.STATE] ++ raiseFlds 313 ++ raiseFlds 314) t) ∧
  (∀ (ring : Fin 1) (e : Entry) (k a len : Nat) (s : State), s.ready 0x10 ring.val 0 e → s.lanesTrue = true → (s.cmdOf 0x10 ring.val e).arg 16 1 = k → (s.cmdOf 0x10 ring.val e).arg 24 8 = a → k ≤ 7 → a % 64 = 0 → len = 64 + 48 * memNat s.dram a 4 → s.inWins 0x10 a len = true → s.inWins 0x10 a 64 = true →
    s.pairJoined = true → ∃ t, exec (.bodySend ring e) s = .next t ∧ s.started 0x10 ring.val 1 e t ∧
    t.pair = { s.pair with sends := s.pair.sends ++ [{ id := (s.ring 0x10 ring.val).nextId, link := k, addr := a, body := tgetD s.pair.bodyNo k 0 + 1, len := len, mt := fromSigned 64 (s.mtAt (memNat s.dram (a + 8) 8)), pos := 0 }], bodyNo := tput s.pair.bodyNo k ((tgetD s.pair.bodyNo k 0 + 1) % 2 ^ 32) } ∧
    s.only [.rings, .pair] [] t) ∧
  (∀ (ring : Fin 1) (e : Entry) (k a len : Nat) (s : State), s.ready 0x10 ring.val 0 e → s.lanesTrue = true → (s.cmdOf 0x10 ring.val e).arg 16 1 = k → (s.cmdOf 0x10 ring.val e).arg 24 8 = a → k ≤ 7 → a % 64 = 0 → len = 64 + 48 * memNat s.dram a 4 → s.inWins 0x10 a len = true → s.inWins 0x10 a 64 = true →
    s.pairJoined = false → ∃ t, exec (.bodySend ring e) s = .next t ∧ s.completed 0x10 ring.val e 0x0D e.handle.toNat t ∧ s.dramKept (s.complAddr 0x10 ring.val) 16 t ∧ s.only [.dram, .rings, .rcd, .cyc] (complFlds 0x10 ring.val) t) ∧
  (∀ (y : PairSend) (rest : List PairSend) (x : Taken) (s : State), s.pair.sends = y :: rest → y.len ≤ y.pos → y.id = x.id → (s.ring 0x10 0).taken = [x] → x.done = none → ∃ t, exec .bodySendDone s = .next t ∧
    s.ended 0x10 0 x 0x00 x.handle t ∧ s.dramKept (s.complAddr 0x10 0) 16 t ∧ t.pair = { s.pair with sends := rest } ∧ s.only [.dram, .rings, .pair, .rcd, .cyc] (complFlds 0x10 0) t) ∧
  (∀ s : State, s.getB PAIR_CTRL.ENABLE = true → s.pair.sends = [] → s.pair.bodies = [] → ∃ t, exec .pairDisable s = .next t ∧ t.getB PAIR_CTRL.ENABLE = false ∧ t.get PAIR_STAT.LANE_UP = 0 ∧ t.get PAIR_STAT.STATE = 0 ∧
    (s.get PAIR_STAT.STATE ≠ 0 → s.raised 313 t) ∧ (s.get PAIR_STAT.LANE_UP ≠ 0 → s.raised 314 t) ∧ s.only [.pair, .rcd, .cyc] ([PAIR_CTRL.ENABLE, PAIR_STAT.LANE_UP, PAIR_STAT.STATE] ++ raiseFlds 313 ++ raiseFlds 314) t) ∧
  (∀ (k : Nat) (r : Rasm) (s : State), s.getB PAIR_CTRL.ENABLE = true → s.pair.sends = [] → s.pair.bodies = [(k, r)] → ∃ t, exec .pairDisable s = .next t ∧ t.getB PAIR_CTRL.ENABLE = false ∧ t.get PAIR_STAT.STATE = 0 ∧ t.pair.bodies = [] ∧
    t.get PAIR_CNT.CV_DROP = min 65535 (s.get PAIR_CNT.CV_DROP + 1) ∧ s.raised 317 t ∧
    s.only [.pair, .rcd, .cyc] ([PAIR_CTRL.ENABLE, PAIR_STAT.LANE_UP, PAIR_STAT.STATE, PAIR_CNT.CV_DROP] ++ raiseFlds 313 ++ raiseFlds 314 ++ raiseFlds 317) t) ∧
  (∀ (x : Taken) (y : PairSend) (s : State), s.getB PAIR_CTRL.ENABLE = true → s.pair.sends = [y] → s.pair.bodies = [] → y.id = x.id → (s.ring 0x10 0).taken = [x] → x.done = none → ∃ t, exec .pairDisable s = .next t ∧
    t.getB PAIR_CTRL.ENABLE = false ∧ t.get PAIR_STAT.STATE = 0 ∧ t.pair.sends = [] ∧ s.ended 0x10 0 x 0x0D x.handle t ∧ s.dramKept (s.complAddr 0x10 0) 16 t ∧
    s.only [.dram, .rings, .pair, .rcd, .cyc] (complFlds 0x10 0 ++ [PAIR_CTRL.ENABLE, PAIR_STAT.LANE_UP, PAIR_STAT.STATE] ++ raiseFlds 313 ++ raiseFlds 314) t)

/-- POWER_ON latches the lowest band that qualifies (else 0x1121, source 323), checks its table and starts the rails; after VCOM ORDERLY is read and
written 0 and the discharge or the clearing starts. A discharge end zeroes the ledgers (326); the clearing leaves every state 0 and READY (321).
REFRESH takes targets from the image and variants by R484 and drives max LEN frames; each code changes its pixel's ledger, saturating with LSAT (325);
then states take their targets. POWER_OFF settles each ledger by R488, the rails fall, ORDERLY becomes 1 (327). Other states, rectangles and panels
are refused. The premises say that no command runs (op = none) and that no removed panel is overdue (State.panelTrue: one that is overdue acts first,
with 0x1120 and 322); a frame is sent only when it is due on the FRATE grid and a rail's step only 500,000 ns after the one before. Every clause names
the parts, fields and bytes that may differ. -/
def Obligations.PanelPowersUpRefreshesAndPowersDownInOrder : Prop :=
  (∀ (ring : Fin 1) (e : Entry) (s : State), s.ready 0x11 ring.val 0 e → s.pnl.op = none → s.panelTrue = true → s.get PNL_STAT.STATE = 4 → ∃ t, exec (.pnlPowerOn ring e) s = .next t ∧ s.completed 0x11 ring.val e 0x00 e.handle.toNat t ∧
    s.dramKept (s.complAddr 0x11 ring.val) 16 t ∧ s.only [.dram, .rings, .rcd, .cyc] (complFlds 0x11 ring.val) t) ∧
  (∀ (ring : Fin 1) (e : Entry) (tv : Int) (b : Nat) (o : PnlOp) (s : State), s.ready 0x11 ring.val 0 e → s.pnl.op = none → s.panelTrue = true → s.get PNL_STAT.STATE ≠ 4 → s.pnlTemp = some tv → s.pnl.pdet = true → b < 8 → s.wfAddr b ≠ 0 →
    toSigned 16 (memNat s.dram (s.wfAddr b + 10) 2) ≤ tv → tv < toSigned 16 (memNat s.dram (s.wfAddr b + 12) 2) →
    ((List.range b).all fun c => decide (s.wfAddr c = 0 ∨ tv < toSigned 16 (memNat s.dram (s.wfAddr c + 10) 2) ∨ toSigned 16 (memNat s.dram (s.wfAddr c + 12) 2) ≤ tv)) = true →
    o = { kind := 1, id := (s.ring 0x11 ring.val).nextId, wf := s.wfAddr b, hdr := memBytes s.dram (s.wfAddr b) 64 } → s.wfBad o = 0 → ∃ t, exec (.pnlPowerOn ring e) s = .next t ∧ s.started 0x11 ring.val 1 e t ∧
    t.pnl = { s.pnl with op := some o, rails := 0, vddp := true, faulted := false, vcom := s.get PNL_VCOM.MV, railAt := none, frameAt := none } ∧ t.get PNL_STAT.STATE = 1 ∧ t.get PNL_STAT.BAND = b ∧ s.only [.rings, .pnl] [PNL_STAT.STATE, PNL_STAT.BAND] t) ∧
  (∀ (ring : Fin 1) (e : Entry) (tv : Int) (s : State), s.ready 0x11 ring.val 0 e → s.pnl.op = none → s.panelTrue = true → s.get PNL_STAT.STATE ≠ 4 → s.pnlTemp = some tv → s.pnl.pdet = true →
    ((List.range 8).all fun c => decide (s.wfAddr c = 0 ∨ tv < toSigned 16 (memNat s.dram (s.wfAddr c + 10) 2) ∨ toSigned 16 (memNat s.dram (s.wfAddr c + 12) 2) ≤ tv)) = true → ∃ t, exec (.pnlPowerOn ring e) s = .next t ∧
    s.completed 0x11 ring.val e 0x21 e.handle.toNat t ∧ s.raised 323 t ∧ s.dramKept (s.complAddr 0x11 ring.val) 16 t ∧ s.only [.dram, .rings, .rcd, .cyc] (complFlds 0x11 ring.val ++ raiseFlds 323) t) ∧
  (∀ (ring : Fin 1) (e : Entry) (tv : Int) (s : State), s.ready 0x11 ring.val 0 e → s.pnl.op = none → s.panelTrue = true → s.get PNL_STAT.STATE ≠ 4 → s.pnlTemp = some tv → s.pnl.pdet = false → ∃ t, exec (.pnlPowerOn ring e) s = .next t ∧
    s.completed 0x11 ring.val e 0x20 e.handle.toNat t ∧ s.dramKept (s.complAddr 0x11 ring.val) 16 t ∧ s.only [.dram, .rings, .rcd, .cyc] (complFlds 0x11 ring.val) t) ∧
  (∀ (o : PnlOp) (rail : Fin 5) (s : State), s.enabled 0x11 = true → s.pnl.op = some o → s.panelTrue = true → s.railDue = true → s.get PNL_STAT.STATE = 1 → rail.val = s.pnl.rails → rail.val < 4 → ∃ t, exec (.pnlRailReady rail) s = .next t ∧
    t.pnl = { s.pnl with rails := s.pnl.rails + 1, railAt := some s.now } ∧ s.only [.pnl] [] t) ∧
  (∀ (o : PnlOp) (s : State), s.enabled 0x11 = true → s.pnl.op = some o → s.panelTrue = true → s.railDue = true → s.get PNL_STAT.STATE = 1 → s.pnl.rails = 4 → s.getB KA_FLAGS.ORDERLY = false → ∃ t, exec (.pnlRailReady 4) s = .next t ∧
    t.pnl = { s.pnl with rails := 5, railAt := some s.now, op := some { o with frame := 0, frames := s.get PNL_SEQ.DIS_FR } } ∧ t.get PNL_STAT.STATE = 2 ∧ t.getB KA_FLAGS.ORDERLY = false ∧
    t.ka = { s.ka with flags := putBits s.ka.flags KA_FLAGS.ORDERLY.lo 1 0 } ∧ s.only [.pnl, .ka] [PNL_STAT.STATE, KA_FLAGS.ORDERLY] t) ∧
  (∀ (o : PnlOp) (n : Nat) (s : State), s.enabled 0x11 = true → s.pnl.op = some o → s.panelTrue = true → s.railDue = true → s.get PNL_STAT.STATE = 1 → s.pnl.rails = 4 → s.getB KA_FLAGS.ORDERLY = true → n = max (o.len 16 0) (o.len 16 1) → n ≠ 0 → ∃ t, exec (.pnlRailReady 4) s = .next t ∧
    t.pnl = { s.pnl with pix := t.pnl.pix, rails := 5, railAt := some s.now, op := some { o with frame := 0, frames := n, x0 := 0, y0 := 0, rw := s.get PNL_GEOM.W, rh := s.get PNL_GEOM.H } } ∧ t.get PNL_STAT.STATE = 3 ∧ t.getB KA_FLAGS.ORDERLY = false ∧
    t.ka = { s.ka with flags := putBits s.ka.flags KA_FLAGS.ORDERLY.lo 1 0 } ∧
    (∀ k, k < s.get PNL_GEOM.W * s.get PNL_GEOM.H → t.pix k = { s.pix k with v := if ((s.pix k).ledger + s.wfNet o 16 1).natAbs < ((s.pix k).ledger + s.wfNet o 16 0).natAbs then 1 else 0 }) ∧
    s.only [.pnl, .ka] [PNL_STAT.STATE, KA_FLAGS.ORDERLY] t) ∧
  (∀ (o : PnlOp) (fb fi : Nat) (s : State), s.enabled 0x11 = true → s.pnl.op = some o → s.panelTrue = true → s.frameDue = some (fb, fi) → s.get PNL_STAT.STATE = 2 → o.frame + 1 < o.frames → ∃ t, exec .pnlFrame s = .next t ∧ t.pnl = { s.pnl with op := some { o with frame := o.frame + 1 }, frameAt := some (fb, fi + 1) } ∧ s.only [.pnl] [] t) ∧
  (∀ (o : PnlOp) (n : Nat) (fb fi : Nat) (s : State), s.enabled 0x11 = true → s.pnl.op = some o → s.panelTrue = true → s.frameDue = some (fb, fi) → s.get PNL_STAT.STATE = 2 → o.frames ≤ o.frame + 1 → n = max (o.len 16 0) (o.len 16 1) → n ≠ 0 → ∃ t, exec .pnlFrame s = .next t ∧
    t.pnl = { s.pnl with pix := t.pnl.pix, known := false, frameAt := some (fb, fi + 1), op := some { o with frame := 0, frames := n, x0 := 0, y0 := 0, rw := s.get PNL_GEOM.W, rh := s.get PNL_GEOM.H } } ∧ t.get PNL_STAT.STATE = 3 ∧ s.raised 326 t ∧
    (∀ k, k < s.get PNL_GEOM.W * s.get PNL_GEOM.H → t.pix k = { s.pix k with ledger := 0, v := if (s.wfNet o 16 1).natAbs < (s.wfNet o 16 0).natAbs then 1 else 0 }) ∧ s.only [.pnl, .rcd, .cyc] (PNL_STAT.STATE :: raiseFlds 326) t) ∧
  (∀ (o : PnlOp) (tr : Nat → Nat) (fb fi : Nat) (s : State), s.enabled 0x11 = true → s.pnl.op = some o → s.panelTrue = true → s.frameDue = some (fb, fi) → (s.get PNL_STAT.STATE = 3 ∨ s.get PNL_STAT.STATE = 5) → o.frame + 1 < o.frames → o.x0 + o.rw ≤ s.get PNL_GEOM.W →
    ((List.range (s.get PNL_GEOM.W * s.get PNL_GEOM.H)).all fun k => decide (tr k = if s.get PNL_STAT.STATE = 3 then 16 else 4 * (s.pix k).state + (s.pix k).target)) = true → o.y0 + o.rh ≤ s.get PNL_GEOM.H →
    ((s.pnlCells o).all fun k => decide (s.wfCode o.wf (tr k) (s.pix k).v o.frame < 3 ∧ -2000 < (s.pix k).ledger ∧ (s.pix k).ledger < 2000)) = true → o.vsh ≤ 40 → o.vsl ≤ 40 → ∃ t, exec .pnlFrame s = .next t ∧
    t.pnl = { s.pnl with pix := t.pnl.pix, op := some { o with frame := o.frame + 1 }, frameAt := some (fb, fi + 1) } ∧
    (∀ k, k < s.get PNL_GEOM.W * s.get PNL_GEOM.H → k ∈ s.pnlCells o → t.pix k = { s.pix k with ledger := (s.pix k).ledger + (if o.len (tr k) (s.pix k).v ≤ o.frame then 0 else o.delta (s.wfCode o.wf (tr k) (s.pix k).v o.frame)) }) ∧
    (∀ k, k < s.get PNL_GEOM.W * s.get PNL_GEOM.H → k ∉ s.pnlCells o → t.pix k = s.pix k) ∧ s.only [.pnl] [] t) ∧
  (∀ (o : PnlOp) (k c : Nat) (fb fi : Nat) (s : State), s.enabled 0x11 = true → s.pnl.op = some o → s.panelTrue = true → s.frameDue = some (fb, fi) → s.get PNL_STAT.STATE = 5 → o.frame + 1 < o.frames → o.rw = 1 → o.rh = 1 → k = o.y0 * s.get PNL_GEOM.W + o.x0 →
    c = s.wfCode o.wf (4 * (s.pix k).state + (s.pix k).target) (s.pix k).v o.frame → o.frame < o.len (4 * (s.pix k).state + (s.pix k).target) (s.pix k).v → c < 3 → 2047 < (s.pix k).ledger + o.delta c → ∃ t, exec .pnlFrame s = .next t ∧
    t.pix k = { s.pix k with ledger := 2047 } ∧ (∀ x, x ≠ k → t.pix x = s.pix x) ∧ t.pnl = { s.pnl with pix := t.pnl.pix, op := some { o with frame := o.frame + 1 }, frameAt := some (fb, fi + 1) } ∧ t.get PNL_CNT.LSAT = min 65535 (s.get PNL_CNT.LSAT + 1) ∧ (s.get PNL_CNT.LSAT = 0 → s.raised 325 t) ∧ s.only [.pnl, .rcd, .cyc] (PNL_CNT.LSAT :: raiseFlds 325) t) ∧
  (∀ (o : PnlOp) (x : Taken) (fb fi : Nat) (s : State), s.enabled 0x11 = true → s.pnl.op = some o → s.panelTrue = true → s.frameDue = some (fb, fi) → s.get PNL_STAT.STATE = 3 → o.frames ≤ o.frame + 1 → o.rh = 0 → o.kind ≠ 0 → (s.ring 0x11 0).taken = [x] → x.id = o.id → x.done = none → ∃ t, exec .pnlFrame s = .next t ∧
    (∀ k, k < s.get PNL_GEOM.W * s.get PNL_GEOM.H → t.pix k = { s.pix k with state := 0, target := 0, v := 0 }) ∧ t.pnl = { s.pnl with pix := t.pnl.pix, known := true, op := none, frameAt := some (fb, fi + 1) } ∧ t.get PNL_STAT.STATE = 4 ∧ s.raised 321 t ∧ s.ended 0x11 0 x 0x00 x.handle t ∧
    s.dramKept (s.complAddr 0x11 0) 16 t ∧ s.only [.dram, .rings, .pnl, .rcd, .cyc] (PNL_STAT.STATE :: complFlds 0x11 0 ++ raiseFlds 321) t) ∧
  (∀ (ring : Fin 1) (e : Entry) (tv : Int) (b a x0 y0 rw rh w h : Nat) (o : PnlOp) (s : State), s.ready 0x11 ring.val 0 e → s.pnl.op = none → s.panelTrue = true → s.get PNL_STAT.STATE = 4 → s.pnlTemp = some tv → s.pnlBand tv = some b → w = s.get PNL_GEOM.W → h = s.get PNL_GEOM.H →
    a = (s.cmdOf 0x11 ring.val e).arg 16 8 → x0 = (s.cmdOf 0x11 ring.val e).arg 24 2 → y0 = (s.cmdOf 0x11 ring.val e).arg 26 2 → rw = (if (s.cmdOf 0x11 ring.val e).arg 28 2 = 0 then w - x0 else (s.cmdOf 0x11 ring.val e).arg 28 2) →
    rh = (if (s.cmdOf 0x11 ring.val e).arg 30 2 = 0 then h - y0 else (s.cmdOf 0x11 ring.val e).arg 30 2) → x0 % 8 = 0 → rw % 8 = 0 → x0 + rw ≤ w → y0 + rh ≤ h → s.inWins 0x11 a (h * s.pnlStride) = true →
    o = { kind := 3, id := (s.ring 0x11 ring.val).nextId, x0 := x0, y0 := y0, rw := rw, rh := rh, wf := s.wfAddr b, hdr := memBytes s.dram (s.wfAddr b) 64 } → s.wfBad o = 0 →
    ((s.pnlCells o).any fun k => decide (0 < o.len (4 * (s.pix k).state + bitsOf (memByte s.dram (a + k / w * s.pnlStride + k % w / 4)).toNat (2 * (k % w % 4)) 2) 0 ∧ 0 < o.len (4 * (s.pix k).state + bitsOf (memByte s.dram (a + k / w * s.pnlStride + k % w / 4)).toNat (2 * (k % w % 4)) 2) 1)) = true →
    ∃ t, exec (.pnlRefresh ring e) s = .next t ∧ s.started 0x11 ring.val 3 e t ∧ t.get PNL_STAT.STATE = 5 ∧ t.get PNL_STAT.BAND = b ∧
    (∀ k, k < w * h → k ∈ s.pnlCells o → (t.pix k).target = bitsOf (memByte s.dram (a + k / w * s.pnlStride + k % w / 4)).toNat (2 * (k % w % 4)) 2 ∧ (t.pix k).state = (s.pix k).state ∧ (t.pix k).ledger = (s.pix k).ledger ∧
      (t.pix k).v = (if ((s.pix k).ledger + s.wfNet o (4 * (s.pix k).state + (t.pix k).target) 1).natAbs < ((s.pix k).ledger + s.wfNet o (4 * (s.pix k).state + (t.pix k).target) 0).natAbs then 1 else 0)) ∧
    (∀ k, k < w * h → k ∉ s.pnlCells o → t.pix k = s.pix k) ∧ t.pnl = { s.pnl with pix := t.pnl.pix, vcom := s.get PNL_VCOM.MV, op := t.pnl.op } ∧
    t.pnl.op = some { o with frames := (s.pnlCells o).foldl (fun m k => max m (o.len (4 * (t.pix k).state + (t.pix k).target) (t.pix k).v)) 0 } ∧ s.only [.rings, .pnl] [PNL_STAT.STATE, PNL_STAT.BAND] t) ∧
  (∀ (ring : Fin 1) (e : Entry) (s : State), s.ready 0x11 ring.val 0 e → s.pnl.op = none → s.panelTrue = true → s.get PNL_STAT.STATE ≠ 4 → (s.cmdOf 0x11 ring.val e).arg 24 8 = 0 → s.get PNL_GEOM.W % 8 = 0 → s.inWins 0x11 ((s.cmdOf 0x11 ring.val e).arg 16 8) (s.get PNL_GEOM.H * s.pnlStride) = true →
    ∃ t, exec (.pnlRefresh ring e) s = .next t ∧ s.completed 0x11 ring.val e 0x22 e.handle.toNat t ∧ s.dramKept (s.complAddr 0x11 ring.val) 16 t ∧ s.only [.dram, .rings, .rcd, .cyc] (complFlds 0x11 ring.val) t) ∧
  (∀ (ring : Fin 1) (e : Entry) (s : State), s.ready 0x11 ring.val 0 e → s.pnl.op = none → s.panelTrue = true → (s.cmdOf 0x11 ring.val e).arg 24 2 % 8 ≠ 0 → ∃ t, exec (.pnlRefresh ring e) s = .next t ∧
    s.completed 0x11 ring.val e 0x05 e.handle.toNat t ∧ s.dramKept (s.complAddr 0x11 ring.val) 16 t ∧ s.only [.dram, .rings, .rcd, .cyc] (complFlds 0x11 ring.val) t) ∧
  (∀ (o : PnlOp) (x : Taken) (fb fi : Nat) (s : State), s.enabled 0x11 = true → s.pnl.op = some o → s.panelTrue = true → s.frameDue = some (fb, fi) → o.kind = 3 → s.get PNL_STAT.STATE = 5 → o.frames ≤ o.frame + 1 → o.x0 + o.rw ≤ s.get PNL_GEOM.W → o.y0 + o.rh ≤ s.get PNL_GEOM.H →
    ((s.pnlCells o).all fun k => decide (o.len (4 * (s.pix k).state + (s.pix k).target) (s.pix k).v ≤ o.frame)) = true → (s.ring 0x11 0).taken = [x] → x.id = o.id → x.done = none → ∃ t, exec .pnlFrame s = .next t ∧
    (∀ k, k < s.get PNL_GEOM.W * s.get PNL_GEOM.H → k ∈ s.pnlCells o → t.pix k = { s.pix k with state := (s.pix k).target, target := 0, v := 0 }) ∧ (∀ k, k < s.get PNL_GEOM.W * s.get PNL_GEOM.H → k ∉ s.pnlCells o → t.pix k = s.pix k) ∧
    t.pnl = { s.pnl with pix := t.pnl.pix, op := none, frameAt := some (fb, fi + 1) } ∧ t.get PNL_STAT.STATE = 4 ∧ t.get PNL_CNT.REFR = min 65535 (s.get PNL_CNT.REFR + 1) ∧ s.ended 0x11 0 x 0x00 x.handle t ∧ s.dramKept (s.complAddr 0x11 0) 16 t ∧ s.only [.dram, .rings, .pnl, .rcd, .cyc] ([PNL_STAT.STATE, PNL_CNT.REFR] ++ complFlds 0x11 0) t) ∧
  (∀ (ring : Fin 1) (e : Entry) (s : State), s.ready 0x11 ring.val 0 e → s.pnl.op = none → s.panelTrue = true → s.get PNL_STAT.STATE ≠ 4 → ∃ t, exec (.pnlPowerOff ring e) s = .next t ∧ s.completed 0x11 ring.val e (if s.pnl.faulted then 0x22 else 0x00) e.handle.toNat t ∧
    s.dramKept (s.complAddr 0x11 ring.val) 16 t ∧ s.only [.dram, .rings, .rcd, .cyc] (complFlds 0x11 ring.val) t) ∧
  (∀ (ring : Fin 1) (e : Entry) (tv : Int) (b : Nat) (o : PnlOp) (s : State), s.ready 0x11 ring.val 0 e → s.pnl.op = none → s.panelTrue = true → s.get PNL_STAT.STATE = 4 → (s.cmdOf 0x11 ring.val e).arg 16 8 = 0 → s.pnlTemp = some tv → s.pnlBand tv = some b →
    o = { kind := 2, id := (s.ring 0x11 ring.val).nextId, wf := s.wfAddr b, hdr := memBytes s.dram (s.wfAddr b) 64 } → s.wfBad o = 0 → ∃ t, exec (.pnlPowerOff ring e) s = .next t ∧ s.started 0x11 ring.val 2 e t ∧
    t.pnl = { s.pnl with vcom := s.get PNL_VCOM.MV, op := some { o with frames := s.get PNL_SEQ.SETTLE_FR, rw := s.get PNL_GEOM.W, rh := s.get PNL_GEOM.H } } ∧ t.get PNL_STAT.STATE = 6 ∧ t.get PNL_STAT.BAND = b ∧ s.only [.rings, .pnl] [PNL_STAT.STATE, PNL_STAT.BAND] t) ∧
  (∀ (o : PnlOp) (fb fi : Nat) (s : State), s.enabled 0x11 = true → s.pnl.op = some o → s.panelTrue = true → s.frameDue = some (fb, fi) → s.get PNL_STAT.STATE = 6 → o.x0 + o.rw ≤ s.get PNL_GEOM.W → o.y0 + o.rh ≤ s.get PNL_GEOM.H → 0 < o.vsh → o.vsh ≤ 1000 → 0 < o.vsl → o.vsl ≤ 1000 →
    ((s.pnlCells o).all fun k => decide (-2048 ≤ (s.pix k).ledger ∧ (s.pix k).ledger ≤ 2047)) = true → ∃ t, exec .pnlFrame s = .next t ∧
    (∀ k, k < s.get PNL_GEOM.W * s.get PNL_GEOM.H → k ∈ s.pnlCells o → t.pix k = { s.pix k with ledger := if (o.vsl : Int) ≤ 2 * (s.pix k).ledger then (s.pix k).ledger - o.vsl else if (o.vsh : Int) ≤ -2 * (s.pix k).ledger then (s.pix k).ledger + o.vsh else (s.pix k).ledger }) ∧
    (∀ k, k < s.get PNL_GEOM.W * s.get PNL_GEOM.H → k ∉ s.pnlCells o → t.pix k = s.pix k) ∧
    t.pnl = { s.pnl with pix := t.pnl.pix, op := some { o with frame := o.frame + 1 }, frameAt := some (fb, fi + 1), railAt := if t.get PNL_STAT.STATE = 7 then none else s.pnl.railAt } ∧ t.get PNL_STAT.STATE = (if o.frames ≤ o.frame + 1 ∨ ((s.pnlCells o).all fun k => decide (2 * (s.pix k).ledger < o.vsl ∧ -2 * (s.pix k).ledger < o.vsh)) = true then 7 else 6) ∧ s.only [.pnl] [PNL_STAT.STATE] t) ∧
  (∀ (o : PnlOp) (rail : Fin 5) (s : State), s.enabled 0x11 = true → s.pnl.op = some o → s.panelTrue = true → s.railDue = true → s.get PNL_STAT.STATE = 7 → rail.val + 1 = s.pnl.rails → 1 ≤ rail.val → ∃ t, exec (.pnlRailDown rail) s = .next t ∧
    t.pnl = { s.pnl with rails := s.pnl.rails - 1, railAt := some s.now } ∧ s.only [.pnl] [] t) ∧
  (∀ (o : PnlOp) (x : Taken) (s : State), s.enabled 0x11 = true → s.pnl.op = some o → s.panelTrue = true → s.railDue = true → s.get PNL_STAT.STATE = 7 → s.pnl.rails = 1 → o.kind ≠ 0 → (s.ring 0x11 0).taken = [x] → x.id = o.id → x.done = none → ∃ t, exec (.pnlRailDown 0) s = .next t ∧
    t.pnl = { s.pnl with op := none, rails := 0, vddp := false, railAt := none, frameAt := none, parkAt := none } ∧ t.get PNL_STAT.STATE = 0 ∧ t.getB KA_FLAGS.ORDERLY = true ∧ t.ka = { s.ka with flags := putBits s.ka.flags KA_FLAGS.ORDERLY.lo 1 1 } ∧ s.raised 327 t ∧
    s.ended 0x11 0 x 0x00 x.handle t ∧ s.dramKept (s.complAddr 0x11 0) 16 t ∧ s.only [.dram, .rings, .pnl, .ka, .rcd, .cyc] ([PNL_STAT.STATE, KA_FLAGS.ORDERLY] ++ complFlds 0x11 0 ++ raiseFlds 327) t) ∧
  (∀ (ring : Fin 1) (e : Entry) (tv : Int) (b : Nat) (o : PnlOp) (s : State), s.ready 0x11 ring.val 0 e → s.pnl.op = none → s.panelTrue = true → s.get PNL_STAT.STATE = 4 → s.pnlTemp = some tv → s.pnlBand tv = some b →
    o = { kind := 4, id := (s.ring 0x11 ring.val).nextId, wf := s.wfAddr b, hdr := memBytes s.dram (s.wfAddr b) 64 } → s.wfBad o = 0 → ∃ t, exec (.pnlDischarge ring e) s = .next t ∧ s.started 0x11 ring.val 4 e t ∧
    t.pnl = { s.pnl with vcom := s.get PNL_VCOM.MV, op := some { o with frames := s.get PNL_SEQ.DIS_FR } } ∧ t.get PNL_STAT.STATE = 2 ∧ t.get PNL_STAT.BAND = b ∧ s.only [.rings, .pnl] [PNL_STAT.STATE, PNL_STAT.BAND] t) ∧
  (∀ (ring : Fin 1) (e : Entry) (tv : Int) (b a w h : Nat) (o : PnlOp) (s : State), s.ready 0x11 ring.val 0 e → s.pnl.op = none → s.panelTrue = true → s.get PNL_STAT.STATE = 4 → s.pnlTemp = some tv → s.pnlBand tv = some b → w = s.get PNL_GEOM.W → h = s.get PNL_GEOM.H →
    a = (s.cmdOf 0x11 ring.val e).arg 16 8 → a ≠ 0 → s.inWins 0x11 a (h * s.pnlStride) = true →
    o = { kind := 2, id := (s.ring 0x11 ring.val).nextId, park := a, x0 := 0, y0 := 0, rw := w, rh := h, wf := s.wfAddr b, hdr := memBytes s.dram (s.wfAddr b) 64 } → s.wfBad o = 0 →
    ((s.pnlCells o).any fun k => decide (0 < o.len (4 * (s.pix k).state + bitsOf (memByte s.dram (a + k / w * s.pnlStride + k % w / 4)).toNat (2 * (k % w % 4)) 2) 0 ∧ 0 < o.len (4 * (s.pix k).state + bitsOf (memByte s.dram (a + k / w * s.pnlStride + k % w / 4)).toNat (2 * (k % w % 4)) 2) 1)) = true →
    ∃ t, exec (.pnlPowerOff ring e) s = .next t ∧ s.started 0x11 ring.val 2 e t ∧ t.get PNL_STAT.STATE = 5 ∧ t.get PNL_STAT.BAND = b ∧
    (∀ k, k < w * h → (t.pix k).target = bitsOf (memByte s.dram (a + k / w * s.pnlStride + k % w / 4)).toNat (2 * (k % w % 4)) 2 ∧ (t.pix k).state = (s.pix k).state ∧ (t.pix k).ledger = (s.pix k).ledger) ∧
    t.pnl = { s.pnl with pix := t.pnl.pix, vcom := s.get PNL_VCOM.MV, op := t.pnl.op } ∧ t.pnl.op = some { o with frames := (s.pnlCells o).foldl (fun m k => max m (o.len (4 * (t.pix k).state + (t.pix k).target) (t.pix k).v)) 0 } ∧ s.only [.rings, .pnl] [PNL_STAT.STATE, PNL_STAT.BAND] t) ∧
  (∀ (o q : PnlOp) (tv : Int) (b : Nat) (fb fi : Nat) (s : State), s.enabled 0x11 = true → s.pnl.op = some o → s.panelTrue = true → s.frameDue = some (fb, fi) → o.kind = 2 → s.get PNL_STAT.STATE = 5 → o.frames ≤ o.frame + 1 → o.rh = 0 → s.pnlTemp = some tv → s.pnlBand tv = some b →
    q = { o with wf := s.wfAddr b, hdr := memBytes s.dram (s.wfAddr b) 64, x0 := 0, y0 := 0, frame := 0, frames := s.get PNL_SEQ.SETTLE_FR, rw := s.get PNL_GEOM.W, rh := s.get PNL_GEOM.H } → s.wfBad q = 0 → ∃ t, exec .pnlFrame s = .next t ∧
    t.pnl = { s.pnl with op := some q, vcom := s.get PNL_VCOM.MV, frameAt := some (fb, fi + 1) } ∧ t.get PNL_STAT.STATE = 6 ∧ t.get PNL_STAT.BAND = b ∧ t.get PNL_CNT.REFR = min 65535 (s.get PNL_CNT.REFR + 1) ∧ s.only [.pnl] [PNL_STAT.STATE, PNL_STAT.BAND, PNL_CNT.REFR] t) ∧
  (∀ (ring : Fin 1) (e : Entry) (s : State), s.ready 0x11 ring.val 0 e → s.pnl.op = none → s.panelTrue = true → s.get PNL_STAT.STATE ≠ 4 → ∃ t, exec (.pnlDischarge ring e) s = .next t ∧ s.completed 0x11 ring.val e 0x22 e.handle.toNat t ∧
    s.dramKept (s.complAddr 0x11 ring.val) 16 t ∧ s.only [.dram, .rings, .rcd, .cyc] (complFlds 0x11 ring.val) t) ∧
  (∀ (o : PnlOp) (x : Taken) (s : State), s.panelTrue = false → s.pnl.op = some o → o.kind ≠ 0 → (s.ring 0x11 0).taken = [x] → x.id = o.id → x.done = none → ∃ t, exec .pnlFrame s = .next t ∧
    s.ended 0x11 0 x 0x20 x.handle t ∧ s.dramKept (s.complAddr 0x11 0) 16 t ∧ t.pnl = { s.pnl with op := none, rails := 0, vddp := false, railAt := none, frameAt := none, parkAt := none, faulted := true } ∧ t.get PNL_STAT.STATE = 0 ∧ s.raised 322 t ∧
    s.only [.dram, .rings, .pnl, .rcd, .cyc] (PNL_STAT.STATE :: complFlds 0x11 0 ++ raiseFlds 322) t) ∧
  (∀ (o : PnlOp) (fb n : Nat) (s : State), s.enabled 0x11 = true → s.pnl.op = some o → s.panelTrue = true → s.pnl.frameAt = some (fb, n) → (s.now + 7 - fb) * s.get PNL_TIM.FRATE < n * 1000000000 → ∃ t, exec .pnlFrame s = .next t ∧ t = s) ∧
  (∀ (o : PnlOp) (x : Nat) (rail : Fin 5) (s : State), s.pnl.op = some o → s.panelTrue = true → s.pnl.railAt = some x → s.now + 7 < x + 500000 → ∃ t, exec (.pnlRailReady rail) s = .next t ∧ t = s)

/-- A rail fault sets its RAIL_F bit, ends the command with 0x1123, drops every rail, leaves ORDERLY and raises 321; PDET absent for 10 ms with VDDP on
ends it with 0x1120, drops the rails and raises 322. A change of PDET raises 322. A reading sets T and clears TEMP_FAULT; an open or shorted
thermistor sets it, 323. A lit frontlight at compliance sets FL_OPEN, shorted above 10 mA FL_SHORT and goes dark until FL_EN is written from 0 to 1;
each raises 324 as it is set. A write of PNL_FL keeps FL_EN, and MA up to 350. Disabling PNL ends a command with a free reason (the spec states none:
log entry 70) and drops the rails. Every clause names the parts, fields and bytes that may differ. -/
def Obligations.PanelFaultsTemperatureAndFrontlightActAsStated : Prop :=
  (∀ (o : PnlOp) (rail : Fin 5) (x : Taken) (s : State), s.enabled 0x11 = true → s.get PNL_STAT.STATE ≠ 0 → (rail.val < s.pnl.rails ∨ s.get PNL_STAT.STATE = 1 ∧ rail.val = s.pnl.rails) → s.pnl.op = some o → o.kind ≠ 0 → (s.ring 0x11 0).taken = [x] → x.id = o.id → x.done = none → ∃ t, exec (.railFault rail) s = .next t ∧
    bitAt (t.get PNL_STAT.RAIL_F) rail.val = true ∧ s.ended 0x11 0 x 0x23 x.handle t ∧ s.dramKept (s.complAddr 0x11 0) 16 t ∧ t.pnl = { s.pnl with op := none, rails := 0, vddp := false, railAt := none, frameAt := none, parkAt := none, faulted := true } ∧
    t.get PNL_STAT.STATE = 0 ∧ s.raised 321 t ∧ s.only [.dram, .rings, .pnl, .rcd, .cyc] ([⟨PNL_STAT, 16 + rail.val, 1⟩, PNL_STAT.STATE] ++ complFlds 0x11 0 ++ raiseFlds 321) t) ∧
  (∀ (rail : Fin 5) (s : State), s.enabled 0x11 = true → s.get PNL_STAT.STATE = 4 → rail.val < s.pnl.rails → s.pnl.op = none → ∃ t, exec (.railFault rail) s = .next t ∧
    bitAt (t.get PNL_STAT.RAIL_F) rail.val = true ∧ t.pnl = { s.pnl with op := none, rails := 0, vddp := false, railAt := none, frameAt := none, parkAt := none, faulted := true } ∧ t.get PNL_STAT.STATE = 0 ∧ s.raised 321 t ∧
    s.only [.pnl, .rcd, .cyc] ([⟨PNL_STAT, 16 + rail.val, 1⟩, PNL_STAT.STATE] ++ raiseFlds 321) t) ∧
  (∀ s : State, s.enabled 0x11 = true → s.pnl.vddp = true → s.pnl.pdet = false → s.pnl.pdetAt + 10000000 ≤ s.now → s.pnl.op = none → ∃ t, exec .panelRemoved s = .next t ∧
    t.pnl = { s.pnl with op := none, rails := 0, vddp := false, railAt := none, frameAt := none, parkAt := none, faulted := true } ∧ t.get PNL_STAT.STATE = 0 ∧ s.raised 322 t ∧ s.only [.pnl, .rcd, .cyc] (PNL_STAT.STATE :: raiseFlds 322) t) ∧
  (∀ (o : PnlOp) (x : Taken) (s : State), s.enabled 0x11 = true → s.pnl.vddp = true → s.pnl.pdet = false → s.pnl.pdetAt + 10000000 ≤ s.now → s.pnl.op = some o → o.kind ≠ 0 → (s.ring 0x11 0).taken = [x] → x.id = o.id → x.done = none → ∃ t, exec .panelRemoved s = .next t ∧
    s.ended 0x11 0 x 0x20 x.handle t ∧ s.dramKept (s.complAddr 0x11 0) 16 t ∧ t.pnl = { s.pnl with op := none, rails := 0, vddp := false, railAt := none, frameAt := none, parkAt := none, faulted := true } ∧ t.get PNL_STAT.STATE = 0 ∧ s.raised 322 t ∧
    s.only [.dram, .rings, .pnl, .rcd, .cyc] (PNL_STAT.STATE :: complFlds 0x11 0 ++ raiseFlds 322) t) ∧
  (∀ (present : Bool) (s : State), s.pnl.pdet = !present → s.panelTrue = true → ∃ t, exec (.pdetChange present) s = .next t ∧ t.pnl = { s.pnl with pdet := present, pdetAt := s.now } ∧ t.getB PNL_STAT.PDET = present ∧ s.raised 322 t ∧ s.only [.pnl, .rcd, .cyc] (PNL_STAT.PDET :: raiseFlds 322) t) ∧
  (∀ (v : BitVec 12) (s : State), s.enabled 0x11 = true → ∃ t, exec (.ptempMeasure (some v)) s = .next t ∧ t.get PNL_TEMP.T = v.toNat ∧ t.getB PNL_STAT.TEMP_FAULT = false ∧ s.only [] [PNL_TEMP.T, PNL_STAT.TEMP_FAULT] t) ∧
  (∀ s : State, s.enabled 0x11 = true → s.getB PNL_STAT.TEMP_FAULT = false → ∃ t, exec (.ptempMeasure none) s = .next t ∧ t.getB PNL_STAT.TEMP_FAULT = true ∧ s.raised 323 t ∧ s.only [.rcd, .cyc] (PNL_STAT.TEMP_FAULT :: raiseFlds 323) t) ∧
  (∀ s : State, s.enabled 0x11 = true → s.getB PNL_FL.FL_EN = true → s.get PNL_STAT.STATE = 4 → s.pnl.flOff = false → 0 < s.get PNL_FL.MA → ∃ t, exec (.flFault false) s = .next t ∧
    t.getB PNL_STAT.FL_OPEN = true ∧ (s.getB PNL_STAT.FL_OPEN = false → s.raised 324 t) ∧ s.only [.rcd, .cyc] (PNL_STAT.FL_OPEN :: raiseFlds 324) t) ∧
  (∀ s : State, s.enabled 0x11 = true → s.getB PNL_FL.FL_EN = true → s.get PNL_STAT.STATE = 4 → s.pnl.flOff = false → 10 < s.get PNL_FL.MA → ∃ t, exec (.flFault true) s = .next t ∧
    t.getB PNL_STAT.FL_SHORT = true ∧ (s.getB PNL_STAT.FL_SHORT = false → s.raised 324 t) ∧ t.pnl = { s.pnl with flOff := true } ∧ t.flMa = 0 ∧ s.only [.pnl, .rcd, .cyc] (PNL_STAT.FL_SHORT :: raiseFlds 324) t) ∧
  (∀ (core : Fin 8) (value : Word) (s : State), s.closed PNL_FL = false → ∃ t, exec (.flEnableWrite core value) s = .next t ∧ t.getB PNL_FL.FL_EN = bitAt value.toNat 31 ∧
    t.get PNL_FL.MA = (if value.toNat % 512 ≤ 350 then value.toNat % 512 else s.get PNL_FL.MA) ∧ t.pnl = (if bitAt value.toNat 31 = true ∧ s.getB PNL_FL.FL_EN = false then { s.pnl with flOff := false } else s.pnl) ∧
    t.getB PNL_STAT.FL_OPEN = (bitAt value.toNat 31 && s.getB PNL_STAT.FL_OPEN) ∧ s.only [.access, .pnl] [PNL_FL.FL_EN, PNL_FL.MA, PNL_STAT.FL_OPEN] t) ∧
  (∀ s : State, s.getB PNL_CTRL.ENABLE = true → s.pnl.op = none → ∃ t, exec .pnlDisable s = .next t ∧ t.getB PNL_CTRL.ENABLE = false ∧ t.pnl = { s.pnl with op := none, rails := 0, vddp := false, railAt := none, frameAt := none, parkAt := none } ∧ t.get PNL_STAT.STATE = 0 ∧
    s.only [.pnl] [PNL_CTRL.ENABLE, PNL_STAT.STATE] t) ∧
  (∀ (o : PnlOp) (x : Taken) (s : State), s.getB PNL_CTRL.ENABLE = true → s.pnl.op = some o → o.kind ≠ 0 → (s.ring 0x11 0).taken = [x] → x.id = o.id → x.done = none → ∃ t, exec .pnlDisable s = .next t ∧ t.getB PNL_CTRL.ENABLE = false ∧ s.ended 0x11 0 x (s.freshCode [0x20, 0x21, 0x22, 0x23, 0x24]) x.handle t ∧
    s.dramKept (s.complAddr 0x11 0) 16 t ∧ t.pnl = { s.pnl with op := none, rails := 0, vddp := false, railAt := none, frameAt := none, parkAt := none } ∧ t.get PNL_STAT.STATE = 0 ∧ t.free = s.free + 1 ∧ s.only [.dram, .rings, .pnl, .rcd, .cyc, .free] ([PNL_CTRL.ENABLE, PNL_STAT.STATE] ++ complFlds 0x11 0) t)

/-- The scan keeps the valid slots, sets READY, TORN, FREE and RNUM, raises 343, and 342 for torn ones. STREAM_CREATE makes the lowest free stream, its
first window from now. PUT folds a value by kind (R499, saturating with SAT); a late one counts LATE, sets REC_LATE, 340 from 0; a later stamp is
0x1205. A window whose grace ended becomes a record in the lowest free slot, SEQ even, RNUM next. FLUSH and DESTROY write it PARTIAL. EXPORT asks for
ARB1 where the extent lies in the data partition (its place is free, log 7); its end writes the records in order, zeros to the block's end, COUNT,
LAST (free where no record went: log entry 89), REASON, 338. Disabling writes open records and frees the streams. A record that is due closes before
any of these; their premise is that none is (recDue = none). Every clause names the parts, fields and bytes that may differ. -/
def Obligations.RecorderStreamsFoldCloseAndExportRecords : Prop :=
  (∀ s : State, s.enabled 0x12 = true → s.getB REC_STATUS.READY = false → (s.rcd.streams.all fun e => decide (383 < e.2.evt)) = true → ∃ t, exec .recScanEnd s = .next t ∧ t.getB REC_STATUS.READY = true ∧ s.raised 343 t ∧
    t.get REC_TORN.TORN = ((List.range 8192).filter s.recTorn).length ∧ (((List.range 8192).any s.recTorn) = true → s.raised 342 t) ∧ t.get REC_FREE.FREE = 8192 - ((List.range 8192).filter s.recValid).length ∧
    (∀ k, k < 8192 → tget t.rcd.slots k = (if s.recValid k then some (s.recN k 8 8, s.recN k 21 1) else none)) ∧ t.rcd = { s.rcd with slots := t.rcd.slots } ∧ ((List.range 8192).all (fun k => !s.recValid k) = true → t.get64 REC_RNUM_LO REC_RNUM_HI = 1) ∧
    s.only [.rcd, .cyc] ([REC_STATUS.READY, REC_TORN.TORN] ++ recSlotFlds ++ raiseFlds 342 ++ raiseFlds 343) t) ∧
  (∀ (ring : Fin 1) (e : Entry) (x kind sev n opt w per gr ev p : Nat) (s : State), s.ready 0x12 ring.val 0 e → s.getB REC_STATUS.READY = true → tfree s.rcd.streams 256 = some x → (s.cmdOf 0x12 ring.val e).arg 16 1 = kind → (s.cmdOf 0x12 ring.val e).arg 17 1 = sev →
    (s.cmdOf 0x12 ring.val e).arg 18 1 = n → (s.cmdOf 0x12 ring.val e).arg 19 1 = opt → (s.cmdOf 0x12 ring.val e).arg 28 4 = w → (s.cmdOf 0x12 ring.val e).arg 32 2 = per → (s.cmdOf 0x12 ring.val e).arg 34 2 = gr → (s.cmdOf 0x12 ring.val e).arg 36 2 = ev →
    (kind = 1 ∧ 1 ≤ n ∧ n ≤ 32 ∧ 1 ≤ w ∧ w ≤ 0x7FFFFFFF ∧ ev = 0xFFFF ∨ kind = 2 ∧ n = 0 ∧ w = 0 ∧ (s.cmdOf 0x12 ring.val e).arg 24 4 = 0 ∧ ev = 0xFFFF ∨ kind = 3 ∧ 1 ≤ n ∧ n ≤ 8 ∧ w = 0 ∧ (s.cmdOf 0x12 ring.val e).arg 24 4 = 0 ∧ (ev ≤ 383 ∧ ev ≠ 336 ∨ ev = 0xFFFF)) →
    sev ≤ 3 → opt ≤ 1 → 1 ≤ per → 1 ≤ gr → gr ≤ 10000 → p = per * 1000000000 → (s.rcd.streams.all fun e => decide (e.2.evt ≠ 336)) = true → ∃ t, exec (.recStreamCreate ring e) s = .next t ∧
    s.completed 0x12 ring.val e 0x00 (t.handle 0x0B x) t ∧ s.dramKept (s.complAddr 0x12 ring.val) 16 t ∧ t.gen 0x0B x = (s.gen 0x0B x + 1) % 1024 ∧
    t.rcd = { s.rcd with streams := tput s.rcd.streams x { kind := kind, sev := sev, n := n, irq := decide (opt = 1), sid := (s.cmdOf 0x12 ring.val e).arg 20 4, lo := toSigned 32 ((s.cmdOf 0x12 ring.val e).arg 24 4), width := w, per := p, grace := gr * 1000000, evt := ev, next := (s.now / p + 1) * p, wins := [{ opn := s.now, close := (s.now / p + 1) * p }] } } ∧
    t.getB (REC_S_STAT.LIVE x) = true ∧ t.get (REC_S_STAT.KIND x) = kind ∧ t.get (REC_S_STAT.SEV x) = sev ∧ t.get (REC_S_SID.SID x) = (s.cmdOf 0x12 ring.val e).arg 20 4 ∧
    s.only [.dram, .rings, .gens, .rcd, .cyc] ([REC_S_STAT.LIVE x, REC_S_STAT.KIND x, REC_S_STAT.SEV x, REC_S_SID.SID x, REC_STATUS.STREAMS] ++ complFlds 0x12 ring.val) t) ∧
  (∀ (ring : Fin 1) (e : Entry) (x v stamp i : Nat) (r : RecStream) (a b : List RecWin) (w : RecWin) (s : State), s.ready 0x12 ring.val 0 e → s.getB REC_STATUS.READY = true → s.checkHandle 0x0B s.recLive e.handle.toNat = none → hIndex e.handle.toNat = x →
    tget s.rcd.streams x = some r → r.kind = 1 → (s.cmdOf 0x12 ring.val e).arg 16 4 = v → (s.cmdOf 0x12 ring.val e).arg 20 1 = 0 → stamp = (if (s.cmdOf 0x12 ring.val e).arg 24 8 = 0 then s.now else (s.cmdOf 0x12 ring.val e).arg 24 8) → stamp ≤ s.now → s.now < r.next →
    r.wins = a ++ w :: b → ((a ++ b).all fun u => decide (stamp < u.opn ∨ u.close ≤ stamp)) = true → w.opn ≤ stamp → stamp < w.close → s.now < w.close + r.grace → i = (toSigned 32 v - r.lo).toNat / r.width → (s.rcd.streams.all fun e => decide (e.2.evt ≠ 336)) = true →
    ∃ t, exec (.recPut ring e) s = .next t ∧ s.completed 0x12 ring.val e 0x00 e.handle.toNat t ∧ s.dramKept (s.complAddr 0x12 ring.val) 16 t ∧
    t.rcd = { s.rcd with streams := tput s.rcd.streams x { r with wins := a ++ (if toSigned 32 v < r.lo then { w with nval := min 0xFFFFFFFF (w.nval + 1), under := min 0xFFFFFFFF (w.under + 1), sat := w.sat || decide (0xFFFFFFFF ≤ w.under) } else if r.n ≤ i then { w with nval := min 0xFFFFFFFF (w.nval + 1), ovr := min 0xFFFFFFFF (w.ovr + 1), sat := w.sat || decide (0xFFFFFFFF ≤ w.ovr) } else { w with nval := min 0xFFFFFFFF (w.nval + 1), bins := tput w.bins i (min 0xFFFFFFFF (tgetD w.bins i 0 + 1)), sat := w.sat || decide (0xFFFFFFFF ≤ tgetD w.bins i 0) }) :: b } } ∧
    s.only [.dram, .rings, .rcd, .cyc] (complFlds 0x12 ring.val) t) ∧
  (∀ (ring : Fin 1) (e : Entry) (x v stamp j : Nat) (r : RecStream) (a b : List RecWin) (w : RecWin) (s : State), s.ready 0x12 ring.val 0 e → s.getB REC_STATUS.READY = true → s.checkHandle 0x0B s.recLive e.handle.toNat = none → hIndex e.handle.toNat = x →
    tget s.rcd.streams x = some r → (r.kind = 2 ∧ j = 0 ∨ r.kind = 3 ∧ j < r.n) → (s.cmdOf 0x12 ring.val e).arg 16 4 = v → (s.cmdOf 0x12 ring.val e).arg 20 1 = j → stamp = (if (s.cmdOf 0x12 ring.val e).arg 24 8 = 0 then s.now else (s.cmdOf 0x12 ring.val e).arg 24 8) → stamp ≤ s.now → s.now < r.next →
    r.wins = a ++ w :: b → ((a ++ b).all fun u => decide (stamp < u.opn ∨ u.close ≤ stamp)) = true → w.opn ≤ stamp → stamp < w.close → s.now < w.close + r.grace → (s.rcd.streams.all fun e => decide (e.2.evt ≠ 336)) = true →
    ∃ t, exec (.recPut ring e) s = .next t ∧ s.completed 0x12 ring.val e 0x00 e.handle.toNat t ∧ s.dramKept (s.complAddr 0x12 ring.val) 16 t ∧
    t.rcd = { s.rcd with streams := tput s.rcd.streams x { r with wins := a ++ (if r.kind = 3 then { w with nval := min 0xFFFFFFFF (w.nval + 1), cnts := tput w.cnts j (min (2 ^ 64 - 1) (tgetD w.cnts j 0 + v)), sat := w.sat || decide (2 ^ 64 - 1 < tgetD w.cnts j 0 + v) } else { w with nval := min 0xFFFFFFFF (w.nval + 1), mn := if w.nval = 0 then toSigned 32 v else min w.mn (toSigned 32 v), mx := if w.nval = 0 then toSigned 32 v else max w.mx (toSigned 32 v), mnL := if w.nval = 0 ∨ toSigned 32 v < w.mn then stamp else if toSigned 32 v = w.mn then min w.mnL stamp else w.mnL, mxL := if w.nval = 0 ∨ w.mx < toSigned 32 v then stamp else if toSigned 32 v = w.mx then min w.mxL stamp else w.mxL }) :: b } } ∧
    s.only [.dram, .rings, .rcd, .cyc] (complFlds 0x12 ring.val) t) ∧
  (∀ (ring : Fin 1) (e : Entry) (x stamp : Nat) (r : RecStream) (s : State), s.ready 0x12 ring.val 0 e → s.getB REC_STATUS.READY = true → s.checkHandle 0x0B s.recLive e.handle.toNat = none → hIndex e.handle.toNat = x → tget s.rcd.streams x = some r →
    (if r.kind = 3 then (s.cmdOf 0x12 ring.val e).arg 20 1 < r.n else (s.cmdOf 0x12 ring.val e).arg 20 1 = 0) → stamp = (s.cmdOf 0x12 ring.val e).arg 24 8 → stamp ≠ 0 → stamp ≤ s.now → s.now < r.next →
    (r.wins.all fun w => decide (stamp < w.opn ∨ w.close ≤ stamp ∨ w.close + r.grace ≤ s.now)) = true → s.reg SYS_DET_STATUS ≠ 0#32 → ∃ t, exec (.recPut ring e) s = .next t ∧
    s.completed 0x12 ring.val e 0x00 e.handle.toNat t ∧ s.dramKept (s.complAddr 0x12 ring.val) 16 t ∧ t.get (REC_S_STAT.LATE x) = min 65535 (s.get (REC_S_STAT.LATE x) + 1) ∧ t.get REC_CNT.LATE = min 65535 (s.get REC_CNT.LATE + 1) ∧ (s.get REC_CNT.LATE = 0 → s.raised 340 t) ∧
    t.getB SYS_DET_STATUS.REC_LATE = true ∧ s.only [.dram, .rings, .rcd, .cyc] ([REC_S_STAT.LATE x, REC_CNT.LATE, SYS_DET_STATUS.REC_LATE] ++ raiseFlds 340 ++ complFlds 0x12 ring.val) t) ∧
  (∀ (ring : Fin 1) (e : Entry) (s : State), s.ready 0x12 ring.val 0 e → s.checkHandle 0x0B s.recLive e.handle.toNat = none → s.now < (s.cmdOf 0x12 ring.val e).arg 24 8 → ∃ t, exec (.recPut ring e) s = .next t ∧
    s.completed 0x12 ring.val e 0x05 e.handle.toNat t ∧ s.dramKept (s.complAddr 0x12 ring.val) 16 t ∧ s.only [.dram, .rings, .rcd, .cyc] (complFlds 0x12 ring.val) t) ∧
  (∀ (x k : Nat) (r u : RecStream) (w : RecWin) (rest : List RecWin) (s : State), s.enabled 0x12 = true → s.rcd.streams = [(x, r)] → u = r.upTo s.now → u.wins = w :: rest → w.close + u.grace ≤ s.now → (rest.all fun v => decide (s.now < v.close + u.grace)) = true →
    tfree s.rcd.slots 8192 = some k → 383 < r.evt → ∃ t, exec .recWindowClose s = .next t ∧ s.recorded k u w false t ∧ s.mramKept (recSlotAt k) 256 t ∧ t.rcd = { s.rcd with streams := [(x, { u with wins := rest })], slots := tput s.rcd.slots k (s.get64 REC_RNUM_LO REC_RNUM_HI, u.sev) } ∧ (u.irq = true → s.raised 337 t) ∧
    ((s.rcd.slots.all fun e => decide (e.2.1 < s.get64 REC_RNUM_LO REC_RNUM_HI)) = true → s.get64 REC_RNUM_LO REC_RNUM_HI + 1 < 2 ^ 64 → t.get64 REC_RNUM_LO REC_RNUM_HI = s.get64 REC_RNUM_LO REC_RNUM_HI + 1) ∧
    s.only [.mram, .rcd, .cyc] (recSlotFlds ++ raiseFlds 337) t) ∧
  (∀ (ring : Fin 1) (e : Entry) (x k : Nat) (r : RecStream) (a : List RecWin) (w : RecWin) (s : State), s.ready 0x12 ring.val 0 e → s.getB REC_STATUS.READY = true → s.checkHandle 0x0B s.recLive e.handle.toNat = none → hIndex e.handle.toNat = x → tget s.rcd.streams x = some r →
    s.now < r.next → s.recDue = none → r.wins = a ++ [w] → tfree s.rcd.slots 8192 = some k → (s.rcd.streams.all fun e => decide (383 < e.2.evt)) = true → ∃ t, exec (.recFlush ring e) s = .next t ∧ s.completed 0x12 ring.val e 0x00 e.handle.toNat t ∧ s.dramKept (s.complAddr 0x12 ring.val) 16 t ∧
    s.recorded k r { w with close := s.now } true t ∧ s.mramKept (recSlotAt k) 256 t ∧ t.rcd = { s.rcd with streams := tput s.rcd.streams x { r with wins := a ++ [{ opn := s.now, close := w.close }] }, slots := tput s.rcd.slots k (s.get64 REC_RNUM_LO REC_RNUM_HI, r.sev) } ∧ (r.irq = true → s.raised 337 t) ∧
    s.only [.dram, .mram, .rings, .rcd, .cyc] (complFlds 0x12 ring.val ++ recSlotFlds ++ raiseFlds 337) t) ∧
  (∀ (ring : Fin 1) (e : Entry) (x k : Nat) (r : RecStream) (w : RecWin) (s : State), s.ready 0x12 ring.val 0 e → s.getB REC_STATUS.READY = true → s.checkHandle 0x0B s.recLive e.handle.toNat = none → hIndex e.handle.toNat = x → tget s.rcd.streams x = some r →
    s.now < r.next → s.recDue = none → r.wins = [w] → tfree s.rcd.slots 8192 = some k → (s.rcd.streams.all fun e => decide (383 < e.2.evt)) = true → ∃ t, exec (.recStreamDestroy ring e) s = .next t ∧ s.completed 0x12 ring.val e 0x00 e.handle.toNat t ∧ s.dramKept (s.complAddr 0x12 ring.val) 16 t ∧
    s.recorded k r { w with close := min w.close s.now } true t ∧ s.mramKept (recSlotAt k) 256 t ∧ t.rcd = { s.rcd with streams := tdel s.rcd.streams x, slots := tput s.rcd.slots k (s.get64 REC_RNUM_LO REC_RNUM_HI, r.sev) } ∧ t.getB (REC_S_STAT.LIVE x) = false ∧ (r.irq = true → s.raised 337 t) ∧
    s.onlyBut [.latch, .dram, .mram, .rings, .rcd, .cyc] (complFlds 0x12 ring.val ++ recSlotFlds ++ [REC_STATUS.STREAMS] ++ raiseFlds 337) (REC_S_STAT x) 16 t) ∧
  (∀ (ring : Fin 1) (e : Entry) (lba n : Nat) (s : State), s.ready 0x12 ring.val 0 e → s.getB REC_STATUS.READY = true → s.rcd.run = none → (s.cmdOf 0x12 ring.val e).arg 16 8 = lba → (s.cmdOf 0x12 ring.val e).arg 24 4 = n → 1 ≤ n → n ≤ 512 → tget s.arb.since 20 = none →
    (s.rcd.streams.all fun e => decide (383 < e.2.evt)) = true → ∃ t, exec (.recExport ring e) s = .next t ∧
    (inDataPart lba n = true → e.handle = 0 → s.completed 0x12 ring.val e 0x00 e.handle.toNat t ∧ t.rcd = { s.rcd with run := some { lba := lba, maxBlk := n, fromNum := (s.cmdOf 0x12 ring.val e).arg 32 8 } } ∧ t.getB REC_STATUS.EXP = true ∧
      t.get REC_EXP_RES.RESTARTS = 0 ∧ t.arb = { s.arb with since := tput s.arb.since 20 s.now } ∧ t.getB (ARB_REQ.PEND 20) = true) ∧
    (inDataPart lba n = false ∨ e.handle ≠ 0 → s.completed 0x12 ring.val e 0x05 e.handle.toNat t ∧ t.rcd = s.rcd) ∧ s.dramKept (s.complAddr 0x12 ring.val) 16 t ∧
    s.only [.dram, .rings, .arb, .rcd, .cyc] (complFlds 0x12 ring.val ++ [REC_STATUS.EXP, REC_EXP_RES.RESTARTS, ARB_REQ.PEND 20]) t) ∧
  (∀ (x : RecExport) (l : List Nat) (s : State), s.rcd.run = some x → s.arbHolds 20 = true → s.getB (ARB_CFG.FREEZE 1) = false → l = recInOrder s.rcd.slots x.fromNum (16 * x.maxBlk) → (s.rcd.streams.all fun e => decide (383 < e.2.evt)) = true → l.length < 2 ^ 32 → s.recDue = none →
    ∃ t, exec .expDone s = .next t ∧ t.rcd = { s.rcd with run := none } ∧ t.getB REC_STATUS.EXP = false ∧ t.get REC_EXP_CNT.COUNT = l.length ∧
    t.get REC_EXP_RES.REASON = (if (s.rcd.slots.filter fun e => decide (x.fromNum ≤ e.2.1)).length ≤ l.length then 0x1200 else 0x1221) ∧
    t.get64 REC_EXP_LAST_LO REC_EXP_LAST_HI = (match l.getLast? with | some k => s.recN k 8 8 | none => s.fresh 64) ∧ (∀ i, i < l.length → memBytes t.ufs (4096 * x.lba + 256 * i) 256 = memBytes s.mram (recSlotAt (l.getD i 0)) 256) ∧
    (∀ k, 256 * l.length ≤ k → k < ceilDiv (256 * l.length) 4096 * 4096 → memByte t.ufs (4096 * x.lba + k) = 0) ∧ (∀ a, 4096 * x.lba + ceilDiv (256 * l.length) 4096 * 4096 ≤ a ∨ a < 4096 * x.lba → memByte t.ufs a = memByte s.ufs a) ∧
    t.free = s.free + (if l = [] then 1 else 0) ∧ s.raised 338 t ∧ t.arbHolds 20 = false ∧
    tget t.arb.since 20 = none ∧ s.only [.ufs, .arb, .rcd, .free, .cyc] ([REC_STATUS.EXP, REC_EXP_CNT.COUNT, wordAt REC_EXP_LAST_LO, wordAt REC_EXP_LAST_HI, REC_EXP_RES.REASON, ARB_REQ.PEND 20, ARB_STAT.GRANTED 1, ARB_STAT.OWNER 1, ARB_STAT.CLASS 1, ARB_STAT.DRAINED 1] ++ raiseFlds 338) t) ∧
  (∀ s : State, s.getB REC_CTRL.ENABLE = true → s.rcd.streams = [] → s.rcd.run = none → s.recDue = none → ∃ t, exec .recDisable s = .next t ∧ t.getB REC_CTRL.ENABLE = false ∧ t.getB REC_STATUS.READY = false ∧ s.only [] [REC_CTRL.ENABLE, REC_STATUS.READY] t) ∧
  (∀ (x k : Nat) (r : RecStream) (w : RecWin) (s : State), s.getB REC_CTRL.ENABLE = true → s.rcd.streams = [(x, r)] → s.now < r.next → r.wins = [w] → s.rcd.run = none → tfree s.rcd.slots 8192 = some k → 383 < r.evt → x < 256 → s.recDue = none → ∃ t, exec .recDisable s = .next t ∧
    t.getB REC_CTRL.ENABLE = false ∧ t.getB REC_STATUS.READY = false ∧ s.recorded k r { w with close := min w.close s.now } true t ∧ s.mramKept (recSlotAt k) 256 t ∧ t.rcd = { s.rcd with streams := [], slots := tput s.rcd.slots k (s.get64 REC_RNUM_LO REC_RNUM_HI, r.sev) } ∧ t.get REC_STATUS.STREAMS = 0 ∧ t.getB (REC_S_STAT.LIVE x) = false ∧ (r.irq = true → s.raised 337 t) ∧
    s.onlyBut [.latch, .mram, .rcd, .cyc] ([REC_CTRL.ENABLE, REC_STATUS.READY, REC_STATUS.STREAMS] ++ recSlotFlds ++ raiseFlds 337) (REC_S_STAT x) 16 t)

/-- STAGE answers 0x130F, 0x1325 or 0x1305 before any read of the manifest matters; past the table's plain rows its code is that of the signature, the
manifest and the SVN (signature and SHA-384 uninterpreted, log 2), or it is accepted: slot INVALID, ARB1 asked. A staging of one component with FULL =
1 ends STAGED (345) with its bytes and manifest copy in the slot where its digest is right, else 0x1326 (346); a write error gives 0x1329. ABORT
completes at that end, no slot STAGED. VARNISH moves the pointer, sets UPD_PEND, raises 347; CONFIRM ends the trial and raises MIN_SVN. A FULL package
in recovery goes to slot A and resets the module. Every clause names the parts, fields and bytes that may differ, or says that a module reset took
place (State.wiped). -/
def Obligations.PackagesAreCheckedStagedVarnishedAndConfirmed : Prop :=
  (∀ (ring : Fin 1) (e : Entry) (s : State), s.ready 0x13 ring.val 0 e → s.upd.staging.isSome = true → ∃ t, exec (.updStage ring e) s = .next t ∧ s.completed 0x13 ring.val e 0x0F e.handle.toNat t ∧ s.dramKept (s.complAddr 0x13 ring.val) 16 t ∧
    s.only [.dram, .rings, .rcd, .cyc] (complFlds 0x13 ring.val) t) ∧
  (∀ (ring : Fin 1) (e : Entry) (a len : Nat) (s : State), s.ready 0x13 ring.val 0 e → (s.cmdOf 0x13 ring.val e).arg 16 8 = a → (s.cmdOf 0x13 ring.val e).arg 24 8 = len → s.upd.staging = none → s.get UPD_PEND.PEND = 0 →
    (s.nv.trial = true ∨ s.nv.trial = false ∧ (len < 4096 ∨ a % 4096 ≠ 0 ∨ s.inWins 0x13 a len = false ∨ memNat s.dram (a + 24) 8 ≠ len)) → ∃ t, exec (.updStage ring e) s = .next t ∧
    s.completed 0x13 ring.val e (if s.nv.trial then 0x25 else 0x05) e.handle.toNat t ∧ s.dramKept (s.complAddr 0x13 ring.val) 16 t ∧ s.only [.dram, .rings, .rcd, .cyc] (complFlds 0x13 ring.val) t) ∧
  (∀ (ring : Fin 1) (e : Entry) (a len key lc : Nat) (s : State), s.ready 0x13 ring.val 0 e → (s.cmdOf 0x13 ring.val e).arg 16 8 = a → (s.cmdOf 0x13 ring.val e).arg 24 8 = len → s.upd.staging = none → s.get UPD_PEND.PEND = 0 → s.nv.trial = false → 4096 ≤ len → a % 4096 = 0 →
    s.inWins 0x13 a len = true → memNat s.dram (a + 24) 8 = len → memNat s.dram a 4 = 0x314B5055 → memNat s.dram (a + 4) 2 = 1 → memNat s.dram (a + 6) 2 = 0x100 → memNat s.dram (a + 256) 4 = 0x314E414D → memNat s.dram (a + 260) 2 = 1 → s.nv.lifeCycle = lc →
    bitAt (memNat s.dram (a + 19) 1) lc = true → lc ≠ 4 → (lc = 3 → memNat s.dram (a + 18) 1 = 0) → bitAt (memNat s.dram (a + 8) 2) (if s.part = .h24 then 0 else 1) = true → memNat s.dram (a + 10) 1 = 0x0C → memNat s.dram (a + 11) 1 = 0 → s.get UPD_DEVINFO.BOARD < 32 →
    bitAt (memNat s.dram (a + 12) 4) (s.get UPD_DEVINFO.BOARD) = true → tget s.nv.otp (memNat s.dram (a + 18) 1) = some key → tget s.arb.since 22 = none → ∃ t, exec (.updStage ring e) s = .next t ∧ s.dramKept (s.complAddr 0x13 ring.val) 16 t ∧
    (Config.ecdsaVerify key (memBytes s.dram a 160) (natBE (memBytes s.dram (a + 160) 48)) (natBE (memBytes s.dram (a + 208) 48)) = false → s.completed 0x13 ring.val e 0x22 e.handle.toNat t ∧ t.nv = s.nv ∧ t.upd = s.upd) ∧
    (Config.ecdsaVerify key (memBytes s.dram a 160) (natBE (memBytes s.dram (a + 160) 48)) (natBE (memBytes s.dram (a + 208) 48)) = true → manifestBad (memBytes s.dram a 256) ((memBytes s.dram a 4096).drop 256) len (fun o n => memBytes s.dram (a + o) n) = true →
      s.completed 0x13 ring.val e 0x23 e.handle.toNat t ∧ t.nv = s.nv ∧ t.upd = s.upd) ∧
    (Config.ecdsaVerify key (memBytes s.dram a 160) (natBE (memBytes s.dram (a + 160) 48)) (natBE (memBytes s.dram (a + 208) 48)) = true → manifestBad (memBytes s.dram a 256) ((memBytes s.dram a 4096).drop 256) len (fun o n => memBytes s.dram (a + o) n) = false →
      memNat s.dram (a + 20) 4 < s.nv.minSvn → lc ≠ 0 → s.completed 0x13 ring.val e 0x24 e.handle.toNat t ∧ t.nv = s.nv ∧ t.upd = s.upd) ∧
    (Config.ecdsaVerify key (memBytes s.dram a 160) (natBE (memBytes s.dram (a + 160) 48)) (natBE (memBytes s.dram (a + 208) 48)) = true → manifestBad (memBytes s.dram a 256) ((memBytes s.dram a 4096).drop 256) len (fun o n => memBytes s.dram (a + o) n) = false →
      (s.nv.minSvn ≤ memNat s.dram (a + 20) 4 ∨ lc = 0) → s.completed 0x13 ring.val e 0x00 e.handle.toNat t ∧ t.nv = { s.nv with inact := .invalid } ∧ t.getB UPD_STAT.STAGING = true ∧ t.get UPD_PROG.KIB = 0 ∧ t.get UPD_PROG.ENTRY = 0 ∧
      t.upd = { s.upd with staging := some { addr := a, manLen := memNat s.dram (a + 16) 2, svn := memNat s.dram (a + 20) 4, man := memBytes s.dram (a + 256) (memNat s.dram (a + 16) 2), abort := none } } ∧
      t.arb = { s.arb with since := tput s.arb.since 22 s.now } ∧ t.getB (ARB_REQ.PEND 22) = true) ∧
    s.only [.dram, .rings, .nv, .arb, .upd, .rcd, .cyc] (complFlds 0x13 ring.val ++ [UPD_STAT.STAGING, UPD_PROG.KIB, UPD_PROG.ENTRY, ARB_REQ.PEND 22]) t) ∧
  (∀ (g : Staging) (u : UpdEntry) (a : Nat) (b : List Byte) (s : State), s.upd.staging = some g → g.abort = none → s.arbHolds 22 = true → s.getB (ARB_CFG.FREEZE 1) = false → a = 1 - s.nv.active → manEntries g.man = [u] → g.man.length = 128 → 5 ≤ u.ty → 1 ≤ u.off →
    fieldN g.man 29 1 % 2 = 1 → b = memBytes s.dram (g.addr + 4096 * u.off) u.len → ∃ t, exec (.stagingEnd none) s = .next t ∧ t.upd.staging = none ∧ t.getB UPD_STAT.STAGING = false ∧ t.arbHolds 22 = false ∧ tget t.arb.since 22 = none ∧
    (Config.sha384 b = u.digest → t.nv = { s.nv with inact := .staged, slotSvn := tput s.nv.slotSvn a g.svn } ∧ t.get UPD_STAT.REASON = 0x1300 ∧ s.raised 345 t ∧ memBytes t.ufs (s.slotBase a + 4096 * u.off) u.len = b ∧ memBytes t.ufs (s.slotBase a) 128 = manifestCopy g.man [u]) ∧
    (Config.sha384 b ≠ u.digest → t.nv = s.nv ∧ t.get UPD_STAT.REASON = 0x1326 ∧ s.raised 346 t ∧ t.ufs = s.ufs) ∧
    s.only [.ufs, .nv, .arb, .upd, .rcd, .cyc] ([UPD_STAT.STAGING, UPD_STAT.REASON, UPD_PROG.KIB, UPD_PROG.ENTRY, ARB_REQ.PEND 22, ARB_STAT.GRANTED 1, ARB_STAT.OWNER 1, ARB_STAT.CLASS 1, ARB_STAT.DRAINED 1] ++ raiseFlds 345 ++ raiseFlds 346) t) ∧
  (∀ (g : Staging) (u : UpdEntry) (s : State), s.upd.staging = some g → g.abort = none → s.arbHolds 22 = true → s.getB (ARB_CFG.FREEZE 1) = false → manEntries g.man = [u] → ∃ t, exec (.stagingEnd (some 0)) s = .next t ∧ t.upd.staging = none ∧ t.getB UPD_STAT.STAGING = false ∧
    t.nv = s.nv ∧ t.get UPD_STAT.REASON = 0x1329 ∧ s.raised 346 t ∧ t.arbHolds 22 = false ∧ s.only [.arb, .upd, .rcd, .cyc] ([UPD_STAT.STAGING, UPD_STAT.REASON, UPD_PROG.ENTRY, ARB_REQ.PEND 22, ARB_STAT.GRANTED 1, ARB_STAT.OWNER 1, ARB_STAT.CLASS 1, ARB_STAT.DRAINED 1] ++ raiseFlds 346) t) ∧
  (∀ (g : Staging) (u : UpdEntry) (x : Taken) (s : State), s.upd.staging = some g → g.abort = some x.id → (s.ring 0x13 0).taken = [x] → x.done = none → s.arbHolds 22 = true → s.getB (ARB_CFG.FREEZE 1) = false → manEntries g.man = [u] → ∃ t, exec (.stagingEnd (some 0)) s = .next t ∧
    s.ended 0x13 0 x 0x00 x.handle t ∧ s.dramKept (s.complAddr 0x13 0) 16 t ∧ t.upd.staging = none ∧ t.getB UPD_STAT.STAGING = false ∧ t.nv = s.nv ∧ t.arbHolds 22 = false ∧
    s.only [.dram, .rings, .arb, .upd, .rcd, .cyc] ([UPD_STAT.STAGING, UPD_PROG.ENTRY, ARB_REQ.PEND 22, ARB_STAT.GRANTED 1, ARB_STAT.OWNER 1, ARB_STAT.CLASS 1, ARB_STAT.DRAINED 1] ++ complFlds 0x13 0) t) ∧
  (∀ (ring : Fin 1) (e : Entry) (g : Staging) (s : State), s.ready 0x13 ring.val 0 e → s.upd.staging = some g → g.abort = none → ∃ t, exec (.updAbort ring e) s = .next t ∧ s.started 0x13 ring.val 2 e t ∧
    t.upd = { s.upd with staging := some { g with abort := some (s.ring 0x13 ring.val).nextId } } ∧ s.only [.rings, .upd] [] t) ∧
  (∀ (ring : Fin 1) (e : Entry) (s : State), s.ready 0x13 ring.val 0 e → s.upd.staging = none → ∃ t, exec (.updAbort ring e) s = .next t ∧ s.completed 0x13 ring.val e 0x00 e.handle.toNat t ∧ s.dramKept (s.complAddr 0x13 ring.val) 16 t ∧
    s.only [.dram, .rings, .rcd, .cyc] (complFlds 0x13 ring.val) t) ∧
  (∀ (ring : Fin 1) (e : Entry) (a : Nat) (s : State), s.ready 0x13 ring.val 0 e → s.upd.staging = none → s.getB STR_RLD_STAT.BUSY = false → s.nv.inact = .staged → a = 1 - s.nv.active → ∃ t, exec (.updVarnish ring e) s = .next t ∧
    s.completed 0x13 ring.val e 0x00 e.handle.toNat t ∧ s.dramKept (s.complAddr 0x13 ring.val) 16 t ∧ t.nv = { s.nv with active := a, inact := .previous, trial := true, boots := 0, confirmN := s.manN a 28 1 } ∧ s.raised 347 t ∧
    (∀ r, r < 10 → bitAt (t.get UPD_PEND.PEND) r = (bitAt (s.get UPD_PEND.PEND) r || decide ((if bitAt (s.hdrMask (.slot a)) r then s.hdrDigest (.slot a) r else 0) ≠ (if s.loaded r then tgetD s.str.digests r 0 else 0)))) ∧
    s.only [.dram, .rings, .nv, .rcd, .cyc] (UPD_PEND.PEND :: complFlds 0x13 ring.val ++ raiseFlds 347) t) ∧
  (∀ (ring : Fin 1) (e : Entry) (s : State), s.ready 0x13 ring.val 0 e → ((s.upd.staging.isSome || s.getB STR_RLD_STAT.BUSY) = true ∨ s.nv.inact ≠ .staged) → ∃ t, exec (.updVarnish ring e) s = .next t ∧
    s.completed 0x13 ring.val e (if s.upd.staging.isSome || s.getB STR_RLD_STAT.BUSY then 0x0F else 0x2A) e.handle.toNat t ∧ s.dramKept (s.complAddr 0x13 ring.val) 16 t ∧ s.only [.dram, .rings, .rcd, .cyc] (complFlds 0x13 ring.val) t) ∧
  (∀ (ring : Fin 1) (e : Entry) (s : State), s.ready 0x13 ring.val 0 e → s.nv.trial = true → ∃ t, exec (.updConfirm ring e) s = .next t ∧ s.completed 0x13 ring.val e 0x00 e.handle.toNat t ∧ s.dramKept (s.complAddr 0x13 ring.val) 16 t ∧
    t.nv = { s.nv with trial := false, minSvn := max s.nv.minSvn (tgetD s.nv.slotSvn s.nv.active 0) } ∧ s.only [.dram, .rings, .nv, .rcd, .cyc] (complFlds 0x13 ring.val) t) ∧
  (∀ (ring : Fin 1) (e : Entry) (s : State), s.ready 0x13 ring.val 0 e → s.nv.trial = false → ∃ t, exec (.updConfirm ring e) s = .next t ∧ s.completed 0x13 ring.val e 0x2B e.handle.toNat t ∧ s.dramKept (s.complAddr 0x13 ring.val) 16 t ∧ s.only [.dram, .rings, .rcd, .cyc] (complFlds 0x13 ring.val) t) ∧
  (∀ (pkg : List Byte) (key : Nat) (u : UpdEntry) (s : State), s.sys.mode = .recovery → s.nv.lifeCycle ≤ 2 → s.upd.staging = none → s.get UPD_PEND.PEND = 0 → s.nv.trial = false → 4096 ≤ pkg.length → fieldN pkg 24 8 = pkg.length → fieldN pkg 0 4 = 0x314B5055 → fieldN pkg 4 2 = 1 →
    fieldN pkg 6 2 = 0x100 → fieldN pkg 16 2 = 128 → fieldN pkg 256 4 = 0x314E414D → fieldN pkg 260 2 = 1 → fieldN pkg 285 1 % 2 = 1 → bitAt (fieldN pkg 19 1) s.nv.lifeCycle = true → bitAt (fieldN pkg 8 2) (if s.part = .h24 then 0 else 1) = true → fieldN pkg 10 1 = 0x0C → fieldN pkg 11 1 = 0 →
    s.get UPD_DEVINFO.BOARD < 32 → bitAt (fieldN pkg 12 4) (s.get UPD_DEVINFO.BOARD) = true → tget s.nv.otp (fieldN pkg 18 1) = some key → fieldN pkg 262 2 = 1 → u = manEntry ((pkg.drop 256).take 128) 0 → 5 ≤ u.ty → ∃ t, exec (.usbRecovery pkg none) s = .next t ∧
    (Config.ecdsaVerify key (pkg.take 160) (natBE ((pkg.drop 160).take 48)) (natBE ((pkg.drop 208).take 48)) = false → t.get UPD_STAT.REASON = 0x1322 ∧ s.only [] [UPD_STAT.REASON] t) ∧
    (Config.ecdsaVerify key (pkg.take 160) (natBE ((pkg.drop 160).take 48)) (natBE ((pkg.drop 208).take 48)) = true → manifestBad (pkg.take 256) ((pkg.take 4096).drop 256) pkg.length (fun o n => (pkg.drop o).take n) = false → (s.nv.minSvn ≤ fieldN pkg 20 4 ∨ s.nv.lifeCycle = 0) →
      Config.sha384 ((pkg.drop (4096 * u.off)).take u.len) = u.digest → t.nv.active = 0 ∧ t.nv.trial = true ∧ t.nv.boots = 0 ∧ t.nv.confirmN = fieldN pkg 284 1 ∧ t.nv.inact = .invalid ∧ tget t.nv.slotSvn 0 = some (fieldN pkg 20 4) ∧ t.sys.mode = .resetHeld ∧
      memBytes t.ufs (s.slotBase 0) 128 = manifestCopy ((pkg.drop 256).take 128) [u] ∧ (1 ≤ u.off → memBytes t.ufs (s.slotBase 0 + 4096 * u.off) u.len = (pkg.drop (4096 * u.off)).take u.len) ∧ { s with ufs := t.ufs }.wiped t))

/-- LC_CHANGE outside Table 25-7 answers 0x132C; a permitted transition without a token becomes pending and asks for a module reset; each LC_CHANGE draws
a new nonce, four free values; one with a token does so where the token is right (its signature uninterpreted, log 2), else 0x132D. KEY_PROG answers
0x130B outside MANUFACTURE, 0x1305 for slots 0 and above 3, and writes an empty slot where the point is on the curve. A write of EN from 0 to 1 clears
RCV and DONE; CONN follows SVC_VBUS and EN. Bulk data goes to the buffer and counts RCV; bytes outside UPD's DRAM window are counted and not written
(R32, log 130); a zero-length packet or a full buffer sets DONE and raises 350. Disabling UPD abandons a staging. Every clause names the parts, fields
and bytes that may differ. -/
def Obligations.LifeCycleKeysAndTheServicePortActAsStated : Prop :=
  (∀ (ring : Fin 1) (e : Entry) (g : Nat) (s : State), s.ready 0x13 ring.val 0 e → s.upd.staging = none → (s.cmdOf 0x13 ring.val e).arg 16 1 = g → (s.nv.lifeCycle = 0 ∧ g = 1 ∨ s.nv.lifeCycle = 1 ∧ g = 2 ∨ s.nv.lifeCycle ≤ 3 ∧ g = 4) → ∃ t, exec (.lcChange ring e) s = .next t ∧
    s.completed 0x13 ring.val e 0x00 e.handle.toNat t ∧ s.dramKept (s.complAddr 0x13 ring.val) 16 t ∧ t.nv = { s.nv with lcTarget := some g } ∧ t.sys = { s.sys with safeReq := true } ∧ t.free = s.free + 4 ∧ t.reg (UPD_NONCE 0) = BitVec.ofNat 32 (s.fresh 32) ∧
    s.only [.dram, .rings, .nv, .sys, .free, .rcd, .cyc] (complFlds 0x13 ring.val ++ [wordAt (UPD_NONCE 0), wordAt (UPD_NONCE 1), wordAt (UPD_NONCE 2), wordAt (UPD_NONCE 3)]) t) ∧
  (∀ (ring : Fin 1) (e : Entry) (g : Nat) (s : State), s.ready 0x13 ring.val 0 e → s.upd.staging = none → (s.cmdOf 0x13 ring.val e).arg 16 1 = g → lcPath s.nv.lifeCycle g = none → ∃ t, exec (.lcChange ring e) s = .next t ∧
    s.completed 0x13 ring.val e 0x2C e.handle.toNat t ∧ s.dramKept (s.complAddr 0x13 ring.val) 16 t ∧ t.free = s.free + 4 ∧ t.reg (UPD_NONCE 0) = BitVec.ofNat 32 (s.fresh 32) ∧
    s.only [.dram, .rings, .free, .rcd, .cyc] (complFlds 0x13 ring.val ++ [wordAt (UPD_NONCE 0), wordAt (UPD_NONCE 1), wordAt (UPD_NONCE 2), wordAt (UPD_NONCE 3)]) t) ∧
  (∀ (ring : Fin 1) (e : Entry) (g a key : Nat) (s : State), s.ready 0x13 ring.val 0 e → s.upd.staging = none → (s.cmdOf 0x13 ring.val e).arg 16 1 = g → (s.cmdOf 0x13 ring.val e).arg 24 8 = a → (s.nv.lifeCycle = 2 ∧ g = 3 ∨ s.nv.lifeCycle = 3 ∧ g = 2) → tget s.nv.otp 0 = some key →
    memNat s.dram a 4 = 0x3154434C → memNat s.dram (a + 4) 1 = s.nv.lifeCycle → memNat s.dram (a + 5) 1 = g → memNat s.dram (a + 6) 1 = 0 → memNat s.dram (a + 8) 8 = s.get64 UPD_DEVID_LO UPD_DEVID_HI →
    (∀ i ∈ List.range 4, memNat s.dram (a + 16 + 4 * i) 4 = (s.reg (UPD_NONCE i)).toNat) → ∃ t, exec (.lcChange ring e) s = .next t ∧ s.dramKept (s.complAddr 0x13 ring.val) 16 t ∧
    (Config.ecdsaVerify key (memBytes s.dram a 160) (natBE (memBytes s.dram (a + 160) 48)) (natBE (memBytes s.dram (a + 208) 48)) = true → s.completed 0x13 ring.val e 0x00 e.handle.toNat t ∧ t.nv = { s.nv with lcTarget := some g } ∧ t.sys = { s.sys with safeReq := true }) ∧
    (Config.ecdsaVerify key (memBytes s.dram a 160) (natBE (memBytes s.dram (a + 160) 48)) (natBE (memBytes s.dram (a + 208) 48)) = false → s.completed 0x13 ring.val e 0x2D e.handle.toNat t ∧ t.nv = s.nv ∧ t.sys = s.sys) ∧
    t.free = s.free + 4 ∧ t.reg (UPD_NONCE 0) = BitVec.ofNat 32 (s.fresh 32) ∧
    s.only [.dram, .rings, .nv, .sys, .free, .rcd, .cyc] (complFlds 0x13 ring.val ++ [wordAt (UPD_NONCE 0), wordAt (UPD_NONCE 1), wordAt (UPD_NONCE 2), wordAt (UPD_NONCE 3)]) t) ∧
  (∀ (ring : Fin 1) (e : Entry) (k a : Nat) (s : State), s.ready 0x13 ring.val 0 e → (s.cmdOf 0x13 ring.val e).arg 16 1 = k → (s.cmdOf 0x13 ring.val e).arg 24 8 = a → s.nv.lifeCycle = 0 → 1 ≤ k → k ≤ 3 → tget s.nv.otp k = none → ∃ t, exec (.keyProg ring e) s = .next t ∧
    s.dramKept (s.complAddr 0x13 ring.val) 16 t ∧ (Config.onCurve (natBE (memBytes s.dram a 96)) = true → s.completed 0x13 ring.val e 0x00 e.handle.toNat t ∧ t.nv = { s.nv with otp := tput s.nv.otp k (natBE (memBytes s.dram a 96)) }) ∧
    (Config.onCurve (natBE (memBytes s.dram a 96)) = false → s.completed 0x13 ring.val e 0x05 e.handle.toNat t ∧ t.nv = s.nv) ∧ s.only [.dram, .rings, .nv, .rcd, .cyc] (complFlds 0x13 ring.val) t) ∧
  (∀ (ring : Fin 1) (e : Entry) (s : State), s.ready 0x13 ring.val 0 e → (s.nv.lifeCycle ≠ 0 ∨ (s.cmdOf 0x13 ring.val e).arg 16 1 = 0 ∨ 3 < (s.cmdOf 0x13 ring.val e).arg 16 1) → ∃ t, exec (.keyProg ring e) s = .next t ∧
    s.completed 0x13 ring.val e (if s.nv.lifeCycle ≠ 0 then 0x0B else 0x05) e.handle.toNat t ∧ s.dramKept (s.complAddr 0x13 ring.val) 16 t ∧ s.only [.dram, .rings, .rcd, .cyc] (complFlds 0x13 ring.val) t) ∧
  (∀ (core : Fin 8) (value : Word) (s : State), ∃ t, exec (.usbEnable core value) s = .next t ∧ t.getB UPD_USB.EN = bitAt value.toNat 31 ∧
    t.getB UPD_USB.CONN = (s.upd.vbus && decide (s.nv.lifeCycle ≠ 4) && (bitAt value.toNat 31 || decide (s.sys.mode = .recovery))) ∧
    t.get UPD_USB_RCV.RCV = (if bitAt value.toNat 31 = true ∧ s.getB UPD_USB.EN = false then 0 else s.get UPD_USB_RCV.RCV) ∧
    t.getB UPD_USB.DONE = (if bitAt value.toNat 31 = true ∧ s.getB UPD_USB.EN = false then false else s.getB UPD_USB.DONE) ∧ s.only [.access] [UPD_USB.EN, UPD_USB.CONN, UPD_USB.DONE, UPD_USB_RCV.RCV] t) ∧
  (∀ (data d : List Byte) (cap rcv a : Nat) (s : State), s.getB UPD_USB.EN = true → s.getB UPD_USB.CONN = true → s.getB UPD_USB.DONE = false → cap = s.get UPD_USB_LEN.LEN * 1048576 → rcv = s.get UPD_USB_RCV.RCV → d = data.take (cap - rcv) → a = s.get64 UPD_USB_BASE_LO UPD_USB_BASE_HI + rcv →
    rcv + d.length < 2 ^ 32 → s.inWins 0x13 a d.length = true → ∃ t, exec (.usbData data) s = .next t ∧ memBytes t.dram a d.length = d ∧ s.dramKept a d.length t ∧ t.get UPD_USB_RCV.RCV = rcv + d.length ∧ t.getB UPD_USB.DONE = decide (data = [] ∨ cap ≤ rcv + d.length) ∧
    (t.getB UPD_USB.DONE = true → s.raised 350 t) ∧ s.only [.dram, .rcd, .cyc] ([UPD_USB_RCV.RCV, UPD_USB.DONE] ++ raiseFlds 350) t) ∧
  (∀ (data d : List Byte) (cap rcv a : Nat) (s : State), s.getB UPD_USB.EN = true → s.getB UPD_USB.CONN = true → s.getB UPD_USB.DONE = false → cap = s.get UPD_USB_LEN.LEN * 1048576 → rcv = s.get UPD_USB_RCV.RCV → d = data.take (cap - rcv) → a = s.get64 UPD_USB_BASE_LO UPD_USB_BASE_HI + rcv →
    rcv + d.length < 2 ^ 32 → s.inWins 0x13 a d.length = false → ∃ t, exec (.usbData data) s = .next t ∧ t.get UPD_USB_RCV.RCV = rcv + d.length ∧ t.getB UPD_USB.DONE = decide (data = [] ∨ cap ≤ rcv + d.length) ∧
    (t.getB UPD_USB.DONE = true → s.raised 350 t) ∧ s.only [.rcd, .cyc] ([UPD_USB_RCV.RCV, UPD_USB.DONE] ++ raiseFlds 350) t) ∧
  (∀ (present : Bool) (s : State), s.upd.vbus = !present → ∃ t, exec (.usbVbusChange present) s = .next t ∧ t.upd = { s.upd with vbus := present } ∧
    t.getB UPD_USB.CONN = (present && decide (s.nv.lifeCycle ≠ 4) && (s.getB UPD_USB.EN || decide (s.sys.mode = .recovery))) ∧ s.only [.upd] [UPD_USB.CONN] t) ∧
  (∀ s : State, s.getB UPD_CTRL.ENABLE = true → s.upd.staging = none → ∃ t, exec .updDisable s = .next t ∧ t.getB UPD_CTRL.ENABLE = false ∧ s.only [] [UPD_CTRL.ENABLE] t) ∧
  (∀ (g : Staging) (s : State), s.getB UPD_CTRL.ENABLE = true → s.upd.staging = some g → g.abort = none → s.arbHolds 22 = false → ∃ t, exec .updDisable s = .next t ∧ t.getB UPD_CTRL.ENABLE = false ∧ t.upd.staging = none ∧ t.getB UPD_STAT.STAGING = false ∧
    t.arb = { s.arb with since := tdel s.arb.since 22 } ∧ t.getB (ARB_REQ.PEND 22) = false ∧ t.nv = s.nv ∧ s.only [.upd, .arb] [UPD_CTRL.ENABLE, UPD_STAT.STAGING, ARB_REQ.PEND 22] t)
end

