-- ==== Sys2Proof/Laws/Table.lean ====
section
/-! SUPPORT. Sparse tables: what is read after an entry is put or deleted, and that both keep keys rising. The reads hold of any
list, in canonical form or not. -/

set_option Elab.async false

namespace Sys2Proof.Machine

@[simp] theorem tget_nil {α : Type} (i : Nat) : tget ([] : Tbl α) i = none := rfl

theorem tget_cons {α : Type} (k : Nat) (v : α) (t : Tbl α) (i : Nat) :
    tget ((k, v) :: t) i = if i = k then some v else tget t i := rfl

/-- Reading after putting. -/
theorem tget_tput {α : Type} (t : Tbl α) (i : Nat) (v : α) (j : Nat) :
    tget (tput t i v) j = if j = i then some v else tget t j := by
  induction t with
  | nil => rfl
  | cons e t ih =>
    obtain ⟨k, w⟩ := e
    simp only [tput]
    split
    · simp only [tget_cons]
    · split
      · subst_vars; simp only [tget_cons]; split <;> rfl
      · simp only [tget_cons, ih]; split <;> split <;> simp_all

@[simp] theorem tget_tput_self {α : Type} (t : Tbl α) (i : Nat) (v : α) : tget (tput t i v) i = some v := by simp [tget_tput]

/-- Reading after deleting. -/
theorem tget_tdel {α : Type} (t : Tbl α) (i j : Nat) : tget (tdel t i) j = if j = i then none else tget t j := by
  induction t with
  | nil => simp [tdel]
  | cons e t ih =>
    obtain ⟨k, w⟩ := e
    simp only [tdel]
    split
    · subst_vars; simp only [ih, tget_cons]; split <;> simp_all
    · simp only [tget_cons, ih]; split <;> split <;> simp_all

@[simp] theorem tget_tdel_self {α : Type} (t : Tbl α) (i : Nat) : tget (tdel t i) i = none := by simp [tget_tdel]

/-- Reading after dropping entries by key. -/
theorem tget_filter {α : Type} (p : Nat → Bool) (t : Tbl α) (j : Nat) :
    tget (t.filter fun e => p e.1) j = if p j then tget t j else none := by
  induction t with
  | nil => simp
  | cons e t ih =>
    obtain ⟨k, w⟩ := e
    by_cases h : p k = true
    · simp only [List.filter_cons, h, ↓reduceIte, tget_cons, ih]; split <;> split <;> simp_all
    · simp only [Bool.not_eq_true] at h
      simp only [List.filter_cons, h, Bool.false_eq_true, ↓reduceIte, tget_cons, ih]
      by_cases hj : j = k <;> simp_all

/-- Reading after changing every entry. -/
theorem tget_tmap {α : Type} (t : Tbl α) (f : Nat → α → α) (j : Nat) : tget (tmap t f) j = (tget t j).map (f j) := by
  induction t with
  | nil => rfl
  | cons e t ih =>
    obtain ⟨k, w⟩ := e
    simp only [tmap, List.map_cons, tget_cons] at *
    split
    · subst_vars; rfl
    · exact ih

/-- A lower bound of every key of a table in canonical form. -/
def keysAbove {α : Type} (k : Nat) (t : Tbl α) : Prop := ∀ e ∈ t, k < e.1

theorem tsorted_cons {α : Type} (k : Nat) (v : α) (t : Tbl α) : tsorted ((k, v) :: t) = true ↔ keysAbove k t ∧ tsorted t = true := by
  induction t generalizing k v with
  | nil => simp [tsorted, keysAbove]
  | cons e t ih =>
    obtain ⟨l, w⟩ := e
    simp only [tsorted, Bool.and_eq_true, decide_eq_true_eq, keysAbove, List.mem_cons, forall_eq_or_imp]
    constructor
    · rintro ⟨h, hs⟩
      exact ⟨⟨h, fun e he => Nat.lt_trans h (((ih l w).1 hs).1 e he)⟩, hs⟩
    · rintro ⟨⟨h, -⟩, hs⟩
      exact ⟨h, hs⟩

/-- Keys above a bound stay above it under a put above it. -/
theorem keysAbove_tput {α : Type} {k : Nat} {t : Tbl α} (h : keysAbove k t) {i : Nat} (hi : k < i) (v : α) : keysAbove k (tput t i v) := by
  induction t with
  | nil => intro e he; simp [tput] at he; subst he; exact hi
  | cons e t ih =>
    obtain ⟨l, w⟩ := e
    have hl : k < l := h (l, w) (by simp)
    have ht : keysAbove k t := fun e he => h e (by simp [he])
    simp only [tput]
    split
    · intro e he
      rcases List.mem_cons.1 he with rfl | he
      · exact hi
      · exact h e he
    · split
      · intro e he
        rcases List.mem_cons.1 he with rfl | he
        · exact hi
        · exact ht e he
      · intro e he
        rcases List.mem_cons.1 he with rfl | he
        · exact hl
        · exact ih ht e he

/-- A put keeps the keys rising. -/
theorem tsorted_tput {α : Type} {t : Tbl α} (h : tsorted t = true) (i : Nat) (v : α) : tsorted (tput t i v) = true := by
  induction t with
  | nil => rfl
  | cons e t ih =>
    obtain ⟨k, w⟩ := e
    have h' := (tsorted_cons k w t).1 h
    simp only [tput]
    split
    · rename_i hik
      refine (tsorted_cons i v _).2 ⟨fun e he => ?_, h⟩
      rcases List.mem_cons.1 he with rfl | he
      · exact hik
      · exact Nat.lt_trans hik (h'.1 e he)
    · split
      · rename_i hik
        subst hik
        exact (tsorted_cons _ v t).2 h'
      · exact (tsorted_cons k w _).2 ⟨keysAbove_tput h'.1 (by omega) v, ih h'.2⟩

theorem tdel_mem {α : Type} {t : Tbl α} {i : Nat} {e : Nat × α} (h : e ∈ tdel t i) : e ∈ t := by
  induction t with
  | nil => simp [tdel] at h
  | cons x t ih =>
    obtain ⟨k, w⟩ := x
    simp only [tdel] at h
    split at h
    · exact List.mem_cons_of_mem _ (ih h)
    · rcases List.mem_cons.1 h with rfl | h
      · simp
      · exact List.mem_cons_of_mem _ (ih h)

/-- A deletion keeps the keys rising. -/
theorem tsorted_tdel {α : Type} {t : Tbl α} (h : tsorted t = true) (i : Nat) : tsorted (tdel t i) = true := by
  induction t with
  | nil => rfl
  | cons e t ih =>
    obtain ⟨k, w⟩ := e
    have h' := (tsorted_cons k w t).1 h
    simp only [tdel]
    split
    · exact ih h'.2
    · exact (tsorted_cons k w _).2 ⟨fun e he => h'.1 e (tdel_mem he), ih h'.2⟩

/-- Dropping entries keeps the keys rising. -/
theorem tsorted_filter {α : Type} {t : Tbl α} (h : tsorted t = true) (p : Nat × α → Bool) : tsorted (t.filter p) = true := by
  induction t with
  | nil => rfl
  | cons e t ih =>
    obtain ⟨k, w⟩ := e
    have h' := (tsorted_cons k w t).1 h
    simp only [List.filter_cons]
    split
    · exact (tsorted_cons k w _).2 ⟨fun e he => h'.1 e (List.mem_filter.1 he).1, ih h'.2⟩
    · exact ih h'.2

/-- What a put lists is the new entry or an old one. -/
theorem tput_mem {α : Type} {t : Tbl α} {i : Nat} {v : α} {e : Nat × α} (h : e ∈ tput t i v) : e = (i, v) ∨ e ∈ t := by
  induction t with
  | nil => simp [tput] at h; exact .inl h
  | cons x t ih =>
    obtain ⟨k, w⟩ := x
    simp only [tput] at h
    split at h
    · rcases List.mem_cons.1 h with rfl | h
      · exact .inl rfl
      · exact .inr h
    · split at h
      · rcases List.mem_cons.1 h with rfl | h
        · exact .inl rfl
        · exact .inr (List.mem_cons_of_mem _ h)
      · rcases List.mem_cons.1 h with rfl | h
        · exact .inr (by simp)
        · rcases ih h with rfl | h
          · exact .inl rfl
          · exact .inr (List.mem_cons_of_mem _ h)

/-- Two tables in canonical form that read alike are equal. -/
theorem tbl_ext {α : Type} : ∀ {t u : Tbl α}, tsorted t = true → tsorted u = true → (∀ i, tget t i = tget u i) → t = u
  | [], [], _, _, _ => rfl
  | [], (k, v) :: u, _, _, h => by have := h k; simp [tget_cons] at this
  | (k, v) :: t, [], _, _, h => by have := h k; simp [tget_cons] at this
  | (k, v) :: t, (l, w) :: u, ht, hu, h => by
    have ht' := (tsorted_cons k v t).1 ht
    have hu' := (tsorted_cons l w u).1 hu
    have none_of {x : Tbl α} {m i : Nat} (hx : keysAbove m x) (hi : i ≤ m) : tget x i = none := by
      induction x with
      | nil => rfl
      | cons e x ih =>
        obtain ⟨a, b⟩ := e
        have := hx (a, b) (by simp)
        simp only [tget_cons]
        rw [if_neg (by simp at this; omega)]
        exact ih (fun e he => hx e (by simp [he]))
    have hk : k = l := by
      rcases Nat.lt_trichotomy k l with hlt | heq | hgt
      · have := h k
        simp only [tget_cons, ↓reduceIte] at this
        rw [if_neg (by omega), none_of hu'.1 (by omega)] at this
        cases this
      · exact heq
      · have := h l
        simp only [tget_cons, ↓reduceIte] at this
        rw [if_neg (by omega), none_of ht'.1 (by omega)] at this
        cases this
    subst hk
    have hv : v = w := by have := h k; simpa [tget_cons] using this
    subst hv
    congr 1
    refine tbl_ext ht'.2 hu'.2 fun i => ?_
    have := h i
    simp only [tget_cons] at this
    by_cases hi : i = k
    · subst hi; rw [none_of ht'.1 (Nat.le_refl _), none_of hu'.1 (Nat.le_refl _)]
    · simpa [hi] using this

end Sys2Proof.Machine
end

