-- ==== Sys2Proof/Laws/Regs.lean ====
section
/-! SUPPORT. Bit fields, the register file and its fields: a register or field reads as it was last written, and a write of one leaves
every other as it was. All of it holds of any state, in canonical form or not. -/

set_option Elab.async false

namespace Sys2Proof.Machine

/-! ### Bit fields -/

theorem bitsOf_lt (v lo n : Nat) : bitsOf v lo n < 2 ^ n := Nat.mod_lt _ (Nat.two_pow_pos n)

theorem bitsOf_zero_lo (v n : Nat) : bitsOf v 0 n = v % 2 ^ n := by simp [bitsOf]

theorem testBit_bitsOf (v lo n i : Nat) : (bitsOf v lo n).testBit i = (decide (i < n) && v.testBit (lo + i)) := by
  simp [bitsOf, Nat.testBit_mod_two_pow, Nat.testBit_div_two_pow, Nat.add_comm]
  
theorem testBit_putBits (v lo n x i : Nat) :
    (putBits v lo n x).testBit i = if i < lo then v.testBit i else if i < lo + n then x.testBit (i - lo) else v.testBit i := by
  have h1 : v % 2 ^ lo < 2 ^ lo := Nat.mod_lt _ (Nat.two_pow_pos lo)
  have h2 : x % 2 ^ n < 2 ^ n := Nat.mod_lt _ (Nat.two_pow_pos n)
  have e : putBits v lo n x = 2 ^ lo * (2 ^ n * (v / 2 ^ (lo + n)) + x % 2 ^ n) + v % 2 ^ lo := by
    simp only [putBits, Nat.mul_add, Nat.pow_add]
    rw [Nat.mul_comm (v / (2 ^ lo * 2 ^ n)), Nat.mul_comm (x % 2 ^ n), Nat.mul_assoc]
  rw [e, Nat.testBit_two_pow_mul_add _ h1, Nat.testBit_two_pow_mul_add _ h2]
  split
  · rename_i h; simp [Nat.testBit_mod_two_pow, h]
  · split
    · rename_i h h'; rw [if_pos (by omega)]; simp [Nat.testBit_mod_two_pow]; omega
    · rename_i h h'; rw [if_neg (by omega), Nat.testBit_div_two_pow]; congr 1; omega

/-- A field reads as it was put. -/
theorem bitsOf_putBits_self (v lo n x : Nat) : bitsOf (putBits v lo n x) lo n = x % 2 ^ n := by
  apply Nat.eq_of_testBit_eq; intro i
  rw [testBit_bitsOf, testBit_putBits, Nat.testBit_mod_two_pow]
  by_cases h : i < n
  · have : ¬ lo + i < lo := by omega
    simp [h, this]
  · simp [h]

/-- A field is not changed by a put of other bits. -/
theorem bitsOf_putBits_ne (v lo n x lo' n' : Nat) (h : lo' + n' ≤ lo ∨ lo + n ≤ lo') : bitsOf (putBits v lo n x) lo' n' = bitsOf v lo' n' := by
  apply Nat.eq_of_testBit_eq; intro i
  rw [testBit_bitsOf, testBit_bitsOf, testBit_putBits]
  by_cases hi : i < n'
  · simp only [hi, decide_true, Bool.true_and]
    split
    · rfl
    · rw [if_neg (by omega)]
  · simp [hi]

theorem putBits_lt (v lo n x m : Nat) (h : lo + n ≤ m) (hv : v < 2 ^ m) : putBits v lo n x < 2 ^ m := by
  apply Nat.lt_pow_two_of_testBit
  intro i hi
  rw [testBit_putBits, if_neg (by omega), if_neg (by omega)]
  exact Nat.testBit_lt_two_pow (Nat.lt_of_lt_of_le hv (Nat.pow_le_pow_right (by omega) hi))

theorem bitAt_eq_testBit (v i : Nat) : bitAt v i = v.testBit i := by
  simp [bitAt, Nat.testBit_eq_decide_div_mod_eq]

/-! ### Registers -/

theorem reg_setReg (s : State) (a : Nat) (w : Word) (b : Nat) : (s.setReg a w).reg b = if b = a then w else s.reg b := by
  simp only [State.setReg, State.reg, regsPut]
  split
  · rw [tget_tdel]; split <;> simp_all
  · rw [tget_tput]; split <;> simp_all

@[simp] theorem reg_setReg_self (s : State) (a : Nat) (w : Word) : (s.setReg a w).reg a = w := by simp [reg_setReg]

theorem reg_setReg_ne (s : State) {a b : Nat} (w : Word) (h : b ≠ a) : (s.setReg a w).reg b = s.reg b := by simp [reg_setReg, h]

theorem reg_set_ne (s : State) {f : Fld} {b : Nat} (v : Nat) (h : b ≠ f.addr) : (s.set f v).reg b = s.reg b := reg_setReg_ne _ _ h

theorem reg_setB_ne (s : State) {f : Fld} {b : Nat} (v : Bool) (h : b ≠ f.addr) : (s.setB f v).reg b = s.reg b := reg_setReg_ne _ _ h

/-- A field reads as it was set, modulo its width. -/
theorem get_set_self (s : State) (f : Fld) (v : Nat) (h : f.lo + f.width ≤ 32) : (s.set f v).get f = v % 2 ^ f.width := by
  have hlt := putBits_lt (s.reg f.addr).toNat f.lo f.width v 32 h (s.reg f.addr).isLt
  simp only [State.set, State.get, reg_setReg_self, BitVec.toNat_ofNat, Nat.mod_eq_of_lt hlt, bitsOf_putBits_self]

/-- A set leaves the fields of other registers and the other fields of its register. -/
theorem get_set_ne (s : State) (f g : Fld) (v : Nat) (h : g.addr ≠ f.addr ∨ (f.lo + f.width ≤ 32 ∧ (g.lo + g.width ≤ f.lo ∨ f.lo + f.width ≤ g.lo))) :
    (s.set f v).get g = s.get g := by
  by_cases ha : g.addr = f.addr
  · obtain ⟨h1, h2⟩ := h.resolve_left (by simp [ha])
    have hlt := putBits_lt (s.reg f.addr).toNat f.lo f.width v 32 h1 (s.reg f.addr).isLt
    simp only [State.set, State.get, ha, reg_setReg_self, BitVec.toNat_ofNat, Nat.mod_eq_of_lt hlt, bitsOf_putBits_ne _ _ _ _ _ _ h2]
  · simp only [State.get, reg_set_ne s v ha]

theorem get_setReg_ne (s : State) (a : Nat) (g : Fld) (w : Word) (h : g.addr ≠ a) : (s.setReg a w).get g = s.get g := by
  simp only [State.get, reg_setReg_ne s w h]

theorem get_setReg_self (s : State) (g : Fld) (w : Word) : (s.setReg g.addr w).get g = bitsOf w.toNat g.lo g.width := by
  simp only [State.get, reg_setReg_self]

theorem getB_set_ne (s : State) (f g : Fld) (v : Nat) (h : g.addr ≠ f.addr ∨ (f.lo + f.width ≤ 32 ∧ (g.lo + g.width ≤ f.lo ∨ f.lo + f.width ≤ g.lo))) :
    (s.set f v).getB g = s.getB g := by simp only [State.getB, get_set_ne s f g v h]

theorem getB_setReg_ne (s : State) (a : Nat) (g : Fld) (w : Word) (h : g.addr ≠ a) : (s.setReg a w).getB g = s.getB g := by
  simp only [State.getB, get_setReg_ne s a g w h]

/-- A one-bit field reads as it was set. -/
theorem getB_setB_self (s : State) (f : Fld) (b : Bool) (h : f.lo + f.width ≤ 32) (hw : f.width = 1) : (s.setB f b).getB f = b := by
  simp only [State.getB, State.setB, get_set_self s f _ h, hw]
  cases b <;> rfl

theorem get_setB_self (s : State) (f : Fld) (b : Bool) (h : f.lo + f.width ≤ 32) (hw : f.width = 1) : (s.setB f b).get f = b2n b := by
  simp only [State.setB, get_set_self s f _ h, hw]
  cases b <;> rfl

theorem get_setB_ne (s : State) (f g : Fld) (b : Bool) (h : g.addr ≠ f.addr ∨ (f.lo + f.width ≤ 32 ∧ (g.lo + g.width ≤ f.lo ∨ f.lo + f.width ≤ g.lo))) :
    (s.setB f b).get g = s.get g := get_set_ne s f g _ h

theorem getB_setB_ne (s : State) (f g : Fld) (b : Bool) (h : g.addr ≠ f.addr ∨ (f.lo + f.width ≤ 32 ∧ (g.lo + g.width ≤ f.lo ∨ f.lo + f.width ≤ g.lo))) :
    (s.setB f b).getB g = s.getB g := getB_set_ne s f g _ h

/-- A 64-bit value reads as it was set, modulo 2^64. -/
theorem get64_set64_self (s : State) (lo hi v : Nat) (h : lo ≠ hi) : (s.set64 lo hi v).get64 lo hi = v % 2 ^ 64 := by
  simp only [State.set64, State.get64, reg_setReg_self, reg_setReg_ne _ _ h, BitVec.toNat_ofNat]
  omega

theorem get64_congr {s t : State} (lo hi : Nat) (h1 : t.reg lo = s.reg lo) (h2 : t.reg hi = s.reg hi) : t.get64 lo hi = s.get64 lo hi := by
  simp only [State.get64, h1, h2]

theorem reg_set64_ne (s : State) {lo hi b : Nat} (v : Nat) (h1 : b ≠ lo) (h2 : b ≠ hi) : (s.set64 lo hi v).reg b = s.reg b := by
  simp only [State.set64, reg_setReg_ne _ _ h1, reg_setReg_ne _ _ h2]

theorem get_congr {s t : State} (f : Fld) (h : t.reg f.addr = s.reg f.addr) : t.get f = s.get f := by simp only [State.get, h]

theorem getB_congr {s t : State} (f : Fld) (h : t.reg f.addr = s.reg f.addr) : t.getB f = s.getB f := by simp only [State.getB, get_congr f h]

end Sys2Proof.Machine
end

