-- ==== Sys2Proof/Laws/State.lean ====
section
/-! SUPPORT. One lemma per field of the state and shared operation: the field is as before. What an operation does change is said by the
lemmas of Laws/Regs.lean, Laws/Memory.lean and Laws/Rings.lean. -/

namespace Sys2Proof.Machine

set_option Elab.async false

/-! ### `setReg` -/

@[simp] theorem setReg_part (s : State) (a : Nat) (w : Word) : (s.setReg a w).part = s.part := by simp only [State.setReg]
@[simp] theorem setReg_ltc (s : State) (a : Nat) (w : Word) : (s.setReg a w).ltc = s.ltc := by simp only [State.setReg]
@[simp] theorem setReg_latch (s : State) (a : Nat) (w : Word) : (s.setReg a w).latch = s.latch := by simp only [State.setReg]
@[simp] theorem setReg_img (s : State) (a : Nat) (w : Word) : (s.setReg a w).img = s.img := by simp only [State.setReg]
@[simp] theorem setReg_access (s : State) (a : Nat) (w : Word) : (s.setReg a w).access = s.access := by simp only [State.setReg]
@[simp] theorem setReg_dram (s : State) (a : Nat) (w : Word) : (s.setReg a w).dram = s.dram := by simp only [State.setReg]
@[simp] theorem setReg_mram (s : State) (a : Nat) (w : Word) : (s.setReg a w).mram = s.mram := by simp only [State.setReg]
@[simp] theorem setReg_ufs (s : State) (a : Nat) (w : Word) : (s.setReg a w).ufs = s.ufs := by simp only [State.setReg]
@[simp] theorem setReg_free (s : State) (a : Nat) (w : Word) : (s.setReg a w).free = s.free := by simp only [State.setReg]
@[simp] theorem setReg_sys (s : State) (a : Nat) (w : Word) : (s.setReg a w).sys = s.sys := by simp only [State.setReg]
@[simp] theorem setReg_ka (s : State) (a : Nat) (w : Word) : (s.setReg a w).ka = s.ka := by simp only [State.setReg]
@[simp] theorem setReg_cyc (s : State) (a : Nat) (w : Word) : (s.setReg a w).cyc = s.cyc := by simp only [State.setReg]
@[simp] theorem setReg_str (s : State) (a : Nat) (w : Word) : (s.setReg a w).str = s.str := by simp only [State.setReg]
@[simp] theorem setReg_rings (s : State) (a : Nat) (w : Word) : (s.setReg a w).rings = s.rings := by simp only [State.setReg]
@[simp] theorem setReg_gens (s : State) (a : Nat) (w : Word) : (s.setReg a w).gens = s.gens := by simp only [State.setReg]
@[simp] theorem setReg_nv (s : State) (a : Nat) (w : Word) : (s.setReg a w).nv = s.nv := by simp only [State.setReg]
@[simp] theorem setReg_tms (s : State) (a : Nat) (w : Word) : (s.setReg a w).tms = s.tms := by simp only [State.setReg]
@[simp] theorem setReg_inp (s : State) (a : Nat) (w : Word) : (s.setReg a w).inp = s.inp := by simp only [State.setReg]
@[simp] theorem setReg_cle (s : State) (a : Nat) (w : Word) : (s.setReg a w).cle = s.cle := by simp only [State.setReg]
@[simp] theorem setReg_vdr (s : State) (a : Nat) (w : Word) : (s.setReg a w).vdr = s.vdr := by simp only [State.setReg]
@[simp] theorem setReg_stk (s : State) (a : Nat) (w : Word) : (s.setReg a w).stk = s.stk := by simp only [State.setReg]
@[simp] theorem setReg_saf (s : State) (a : Nat) (w : Word) : (s.setReg a w).saf = s.saf := by simp only [State.setReg]
@[simp] theorem setReg_gnb (s : State) (a : Nat) (w : Word) : (s.setReg a w).gnb = s.gnb := by simp only [State.setReg]
@[simp] theorem setReg_cam (s : State) (a : Nat) (w : Word) : (s.setReg a w).cam = s.cam := by simp only [State.setReg]
@[simp] theorem setReg_fen (s : State) (a : Nat) (w : Word) : (s.setReg a w).fen = s.fen := by simp only [State.setReg]
@[simp] theorem setReg_arb (s : State) (a : Nat) (w : Word) : (s.setReg a w).arb = s.arb := by simp only [State.setReg]
@[simp] theorem setReg_fus (s : State) (a : Nat) (w : Word) : (s.setReg a w).fus = s.fus := by simp only [State.setReg]
@[simp] theorem setReg_yld (s : State) (a : Nat) (w : Word) : (s.setReg a w).yld = s.yld := by simp only [State.setReg]
@[simp] theorem setReg_bus (s : State) (a : Nat) (w : Word) : (s.setReg a w).bus = s.bus := by simp only [State.setReg]
@[simp] theorem setReg_eth (s : State) (a : Nat) (w : Word) : (s.setReg a w).eth = s.eth := by simp only [State.setReg]
@[simp] theorem setReg_pair (s : State) (a : Nat) (w : Word) : (s.setReg a w).pair = s.pair := by simp only [State.setReg]
@[simp] theorem setReg_pnl (s : State) (a : Nat) (w : Word) : (s.setReg a w).pnl = s.pnl := by simp only [State.setReg]
@[simp] theorem setReg_rcd (s : State) (a : Nat) (w : Word) : (s.setReg a w).rcd = s.rcd := by simp only [State.setReg]
@[simp] theorem setReg_upd (s : State) (a : Nat) (w : Word) : (s.setReg a w).upd = s.upd := by simp only [State.setReg]
@[simp] theorem setReg_pending (s : State) (a : Nat) (w : Word) : (s.setReg a w).pending = s.pending := by simp only [State.setReg]

/-! ### `set` -/

@[simp] theorem set_part (s : State) (f : Fld) (v : Nat) : (s.set f v).part = s.part := by simp only [State.set, setReg_part]
@[simp] theorem set_ltc (s : State) (f : Fld) (v : Nat) : (s.set f v).ltc = s.ltc := by simp only [State.set, setReg_ltc]
@[simp] theorem set_latch (s : State) (f : Fld) (v : Nat) : (s.set f v).latch = s.latch := by simp only [State.set, setReg_latch]
@[simp] theorem set_img (s : State) (f : Fld) (v : Nat) : (s.set f v).img = s.img := by simp only [State.set, setReg_img]
@[simp] theorem set_access (s : State) (f : Fld) (v : Nat) : (s.set f v).access = s.access := by simp only [State.set, setReg_access]
@[simp] theorem set_dram (s : State) (f : Fld) (v : Nat) : (s.set f v).dram = s.dram := by simp only [State.set, setReg_dram]
@[simp] theorem set_mram (s : State) (f : Fld) (v : Nat) : (s.set f v).mram = s.mram := by simp only [State.set, setReg_mram]
@[simp] theorem set_ufs (s : State) (f : Fld) (v : Nat) : (s.set f v).ufs = s.ufs := by simp only [State.set, setReg_ufs]
@[simp] theorem set_free (s : State) (f : Fld) (v : Nat) : (s.set f v).free = s.free := by simp only [State.set, setReg_free]
@[simp] theorem set_sys (s : State) (f : Fld) (v : Nat) : (s.set f v).sys = s.sys := by simp only [State.set, setReg_sys]
@[simp] theorem set_ka (s : State) (f : Fld) (v : Nat) : (s.set f v).ka = s.ka := by simp only [State.set, setReg_ka]
@[simp] theorem set_cyc (s : State) (f : Fld) (v : Nat) : (s.set f v).cyc = s.cyc := by simp only [State.set, setReg_cyc]
@[simp] theorem set_str (s : State) (f : Fld) (v : Nat) : (s.set f v).str = s.str := by simp only [State.set, setReg_str]
@[simp] theorem set_rings (s : State) (f : Fld) (v : Nat) : (s.set f v).rings = s.rings := by simp only [State.set, setReg_rings]
@[simp] theorem set_gens (s : State) (f : Fld) (v : Nat) : (s.set f v).gens = s.gens := by simp only [State.set, setReg_gens]
@[simp] theorem set_nv (s : State) (f : Fld) (v : Nat) : (s.set f v).nv = s.nv := by simp only [State.set, setReg_nv]
@[simp] theorem set_tms (s : State) (f : Fld) (v : Nat) : (s.set f v).tms = s.tms := by simp only [State.set, setReg_tms]
@[simp] theorem set_inp (s : State) (f : Fld) (v : Nat) : (s.set f v).inp = s.inp := by simp only [State.set, setReg_inp]
@[simp] theorem set_cle (s : State) (f : Fld) (v : Nat) : (s.set f v).cle = s.cle := by simp only [State.set, setReg_cle]
@[simp] theorem set_vdr (s : State) (f : Fld) (v : Nat) : (s.set f v).vdr = s.vdr := by simp only [State.set, setReg_vdr]
@[simp] theorem set_stk (s : State) (f : Fld) (v : Nat) : (s.set f v).stk = s.stk := by simp only [State.set, setReg_stk]
@[simp] theorem set_saf (s : State) (f : Fld) (v : Nat) : (s.set f v).saf = s.saf := by simp only [State.set, setReg_saf]
@[simp] theorem set_gnb (s : State) (f : Fld) (v : Nat) : (s.set f v).gnb = s.gnb := by simp only [State.set, setReg_gnb]
@[simp] theorem set_cam (s : State) (f : Fld) (v : Nat) : (s.set f v).cam = s.cam := by simp only [State.set, setReg_cam]
@[simp] theorem set_fen (s : State) (f : Fld) (v : Nat) : (s.set f v).fen = s.fen := by simp only [State.set, setReg_fen]
@[simp] theorem set_arb (s : State) (f : Fld) (v : Nat) : (s.set f v).arb = s.arb := by simp only [State.set, setReg_arb]
@[simp] theorem set_fus (s : State) (f : Fld) (v : Nat) : (s.set f v).fus = s.fus := by simp only [State.set, setReg_fus]
@[simp] theorem set_yld (s : State) (f : Fld) (v : Nat) : (s.set f v).yld = s.yld := by simp only [State.set, setReg_yld]
@[simp] theorem set_bus (s : State) (f : Fld) (v : Nat) : (s.set f v).bus = s.bus := by simp only [State.set, setReg_bus]
@[simp] theorem set_eth (s : State) (f : Fld) (v : Nat) : (s.set f v).eth = s.eth := by simp only [State.set, setReg_eth]
@[simp] theorem set_pair (s : State) (f : Fld) (v : Nat) : (s.set f v).pair = s.pair := by simp only [State.set, setReg_pair]
@[simp] theorem set_pnl (s : State) (f : Fld) (v : Nat) : (s.set f v).pnl = s.pnl := by simp only [State.set, setReg_pnl]
@[simp] theorem set_rcd (s : State) (f : Fld) (v : Nat) : (s.set f v).rcd = s.rcd := by simp only [State.set, setReg_rcd]
@[simp] theorem set_upd (s : State) (f : Fld) (v : Nat) : (s.set f v).upd = s.upd := by simp only [State.set, setReg_upd]
@[simp] theorem set_pending (s : State) (f : Fld) (v : Nat) : (s.set f v).pending = s.pending := by simp only [State.set, setReg_pending]

/-! ### `setB` -/

@[simp] theorem setB_part (s : State) (f : Fld) (b : Bool) : (s.setB f b).part = s.part := by simp only [State.setB, set_part]
@[simp] theorem setB_ltc (s : State) (f : Fld) (b : Bool) : (s.setB f b).ltc = s.ltc := by simp only [State.setB, set_ltc]
@[simp] theorem setB_latch (s : State) (f : Fld) (b : Bool) : (s.setB f b).latch = s.latch := by simp only [State.setB, set_latch]
@[simp] theorem setB_img (s : State) (f : Fld) (b : Bool) : (s.setB f b).img = s.img := by simp only [State.setB, set_img]
@[simp] theorem setB_access (s : State) (f : Fld) (b : Bool) : (s.setB f b).access = s.access := by simp only [State.setB, set_access]
@[simp] theorem setB_dram (s : State) (f : Fld) (b : Bool) : (s.setB f b).dram = s.dram := by simp only [State.setB, set_dram]
@[simp] theorem setB_mram (s : State) (f : Fld) (b : Bool) : (s.setB f b).mram = s.mram := by simp only [State.setB, set_mram]
@[simp] theorem setB_ufs (s : State) (f : Fld) (b : Bool) : (s.setB f b).ufs = s.ufs := by simp only [State.setB, set_ufs]
@[simp] theorem setB_free (s : State) (f : Fld) (b : Bool) : (s.setB f b).free = s.free := by simp only [State.setB, set_free]
@[simp] theorem setB_sys (s : State) (f : Fld) (b : Bool) : (s.setB f b).sys = s.sys := by simp only [State.setB, set_sys]
@[simp] theorem setB_ka (s : State) (f : Fld) (b : Bool) : (s.setB f b).ka = s.ka := by simp only [State.setB, set_ka]
@[simp] theorem setB_cyc (s : State) (f : Fld) (b : Bool) : (s.setB f b).cyc = s.cyc := by simp only [State.setB, set_cyc]
@[simp] theorem setB_str (s : State) (f : Fld) (b : Bool) : (s.setB f b).str = s.str := by simp only [State.setB, set_str]
@[simp] theorem setB_rings (s : State) (f : Fld) (b : Bool) : (s.setB f b).rings = s.rings := by simp only [State.setB, set_rings]
@[simp] theorem setB_gens (s : State) (f : Fld) (b : Bool) : (s.setB f b).gens = s.gens := by simp only [State.setB, set_gens]
@[simp] theorem setB_nv (s : State) (f : Fld) (b : Bool) : (s.setB f b).nv = s.nv := by simp only [State.setB, set_nv]
@[simp] theorem setB_tms (s : State) (f : Fld) (b : Bool) : (s.setB f b).tms = s.tms := by simp only [State.setB, set_tms]
@[simp] theorem setB_inp (s : State) (f : Fld) (b : Bool) : (s.setB f b).inp = s.inp := by simp only [State.setB, set_inp]
@[simp] theorem setB_cle (s : State) (f : Fld) (b : Bool) : (s.setB f b).cle = s.cle := by simp only [State.setB, set_cle]
@[simp] theorem setB_vdr (s : State) (f : Fld) (b : Bool) : (s.setB f b).vdr = s.vdr := by simp only [State.setB, set_vdr]
@[simp] theorem setB_stk (s : State) (f : Fld) (b : Bool) : (s.setB f b).stk = s.stk := by simp only [State.setB, set_stk]
@[simp] theorem setB_saf (s : State) (f : Fld) (b : Bool) : (s.setB f b).saf = s.saf := by simp only [State.setB, set_saf]
@[simp] theorem setB_gnb (s : State) (f : Fld) (b : Bool) : (s.setB f b).gnb = s.gnb := by simp only [State.setB, set_gnb]
@[simp] theorem setB_cam (s : State) (f : Fld) (b : Bool) : (s.setB f b).cam = s.cam := by simp only [State.setB, set_cam]
@[simp] theorem setB_fen (s : State) (f : Fld) (b : Bool) : (s.setB f b).fen = s.fen := by simp only [State.setB, set_fen]
@[simp] theorem setB_arb (s : State) (f : Fld) (b : Bool) : (s.setB f b).arb = s.arb := by simp only [State.setB, set_arb]
@[simp] theorem setB_fus (s : State) (f : Fld) (b : Bool) : (s.setB f b).fus = s.fus := by simp only [State.setB, set_fus]
@[simp] theorem setB_yld (s : State) (f : Fld) (b : Bool) : (s.setB f b).yld = s.yld := by simp only [State.setB, set_yld]
@[simp] theorem setB_bus (s : State) (f : Fld) (b : Bool) : (s.setB f b).bus = s.bus := by simp only [State.setB, set_bus]
@[simp] theorem setB_eth (s : State) (f : Fld) (b : Bool) : (s.setB f b).eth = s.eth := by simp only [State.setB, set_eth]
@[simp] theorem setB_pair (s : State) (f : Fld) (b : Bool) : (s.setB f b).pair = s.pair := by simp only [State.setB, set_pair]
@[simp] theorem setB_pnl (s : State) (f : Fld) (b : Bool) : (s.setB f b).pnl = s.pnl := by simp only [State.setB, set_pnl]
@[simp] theorem setB_rcd (s : State) (f : Fld) (b : Bool) : (s.setB f b).rcd = s.rcd := by simp only [State.setB, set_rcd]
@[simp] theorem setB_upd (s : State) (f : Fld) (b : Bool) : (s.setB f b).upd = s.upd := by simp only [State.setB, set_upd]
@[simp] theorem setB_pending (s : State) (f : Fld) (b : Bool) : (s.setB f b).pending = s.pending := by simp only [State.setB, set_pending]

/-! ### `bump` -/

@[simp] theorem bump_part (s : State) (f : Fld) (n : Nat) : (s.bump f n).part = s.part := by simp only [State.bump, set_part]
@[simp] theorem bump_ltc (s : State) (f : Fld) (n : Nat) : (s.bump f n).ltc = s.ltc := by simp only [State.bump, set_ltc]
@[simp] theorem bump_latch (s : State) (f : Fld) (n : Nat) : (s.bump f n).latch = s.latch := by simp only [State.bump, set_latch]
@[simp] theorem bump_img (s : State) (f : Fld) (n : Nat) : (s.bump f n).img = s.img := by simp only [State.bump, set_img]
@[simp] theorem bump_access (s : State) (f : Fld) (n : Nat) : (s.bump f n).access = s.access := by simp only [State.bump, set_access]
@[simp] theorem bump_dram (s : State) (f : Fld) (n : Nat) : (s.bump f n).dram = s.dram := by simp only [State.bump, set_dram]
@[simp] theorem bump_mram (s : State) (f : Fld) (n : Nat) : (s.bump f n).mram = s.mram := by simp only [State.bump, set_mram]
@[simp] theorem bump_ufs (s : State) (f : Fld) (n : Nat) : (s.bump f n).ufs = s.ufs := by simp only [State.bump, set_ufs]
@[simp] theorem bump_free (s : State) (f : Fld) (n : Nat) : (s.bump f n).free = s.free := by simp only [State.bump, set_free]
@[simp] theorem bump_sys (s : State) (f : Fld) (n : Nat) : (s.bump f n).sys = s.sys := by simp only [State.bump, set_sys]
@[simp] theorem bump_ka (s : State) (f : Fld) (n : Nat) : (s.bump f n).ka = s.ka := by simp only [State.bump, set_ka]
@[simp] theorem bump_cyc (s : State) (f : Fld) (n : Nat) : (s.bump f n).cyc = s.cyc := by simp only [State.bump, set_cyc]
@[simp] theorem bump_str (s : State) (f : Fld) (n : Nat) : (s.bump f n).str = s.str := by simp only [State.bump, set_str]
@[simp] theorem bump_rings (s : State) (f : Fld) (n : Nat) : (s.bump f n).rings = s.rings := by simp only [State.bump, set_rings]
@[simp] theorem bump_gens (s : State) (f : Fld) (n : Nat) : (s.bump f n).gens = s.gens := by simp only [State.bump, set_gens]
@[simp] theorem bump_nv (s : State) (f : Fld) (n : Nat) : (s.bump f n).nv = s.nv := by simp only [State.bump, set_nv]
@[simp] theorem bump_tms (s : State) (f : Fld) (n : Nat) : (s.bump f n).tms = s.tms := by simp only [State.bump, set_tms]
@[simp] theorem bump_inp (s : State) (f : Fld) (n : Nat) : (s.bump f n).inp = s.inp := by simp only [State.bump, set_inp]
@[simp] theorem bump_cle (s : State) (f : Fld) (n : Nat) : (s.bump f n).cle = s.cle := by simp only [State.bump, set_cle]
@[simp] theorem bump_vdr (s : State) (f : Fld) (n : Nat) : (s.bump f n).vdr = s.vdr := by simp only [State.bump, set_vdr]
@[simp] theorem bump_stk (s : State) (f : Fld) (n : Nat) : (s.bump f n).stk = s.stk := by simp only [State.bump, set_stk]
@[simp] theorem bump_saf (s : State) (f : Fld) (n : Nat) : (s.bump f n).saf = s.saf := by simp only [State.bump, set_saf]
@[simp] theorem bump_gnb (s : State) (f : Fld) (n : Nat) : (s.bump f n).gnb = s.gnb := by simp only [State.bump, set_gnb]
@[simp] theorem bump_cam (s : State) (f : Fld) (n : Nat) : (s.bump f n).cam = s.cam := by simp only [State.bump, set_cam]
@[simp] theorem bump_fen (s : State) (f : Fld) (n : Nat) : (s.bump f n).fen = s.fen := by simp only [State.bump, set_fen]
@[simp] theorem bump_arb (s : State) (f : Fld) (n : Nat) : (s.bump f n).arb = s.arb := by simp only [State.bump, set_arb]
@[simp] theorem bump_fus (s : State) (f : Fld) (n : Nat) : (s.bump f n).fus = s.fus := by simp only [State.bump, set_fus]
@[simp] theorem bump_yld (s : State) (f : Fld) (n : Nat) : (s.bump f n).yld = s.yld := by simp only [State.bump, set_yld]
@[simp] theorem bump_bus (s : State) (f : Fld) (n : Nat) : (s.bump f n).bus = s.bus := by simp only [State.bump, set_bus]
@[simp] theorem bump_eth (s : State) (f : Fld) (n : Nat) : (s.bump f n).eth = s.eth := by simp only [State.bump, set_eth]
@[simp] theorem bump_pair (s : State) (f : Fld) (n : Nat) : (s.bump f n).pair = s.pair := by simp only [State.bump, set_pair]
@[simp] theorem bump_pnl (s : State) (f : Fld) (n : Nat) : (s.bump f n).pnl = s.pnl := by simp only [State.bump, set_pnl]
@[simp] theorem bump_rcd (s : State) (f : Fld) (n : Nat) : (s.bump f n).rcd = s.rcd := by simp only [State.bump, set_rcd]
@[simp] theorem bump_upd (s : State) (f : Fld) (n : Nat) : (s.bump f n).upd = s.upd := by simp only [State.bump, set_upd]
@[simp] theorem bump_pending (s : State) (f : Fld) (n : Nat) : (s.bump f n).pending = s.pending := by simp only [State.bump, set_pending]

/-! ### `wrapInc` -/

@[simp] theorem wrapInc_part (s : State) (f : Fld) : (s.wrapInc f).part = s.part := by simp only [State.wrapInc, set_part]
@[simp] theorem wrapInc_ltc (s : State) (f : Fld) : (s.wrapInc f).ltc = s.ltc := by simp only [State.wrapInc, set_ltc]
@[simp] theorem wrapInc_latch (s : State) (f : Fld) : (s.wrapInc f).latch = s.latch := by simp only [State.wrapInc, set_latch]
@[simp] theorem wrapInc_img (s : State) (f : Fld) : (s.wrapInc f).img = s.img := by simp only [State.wrapInc, set_img]
@[simp] theorem wrapInc_access (s : State) (f : Fld) : (s.wrapInc f).access = s.access := by simp only [State.wrapInc, set_access]
@[simp] theorem wrapInc_dram (s : State) (f : Fld) : (s.wrapInc f).dram = s.dram := by simp only [State.wrapInc, set_dram]
@[simp] theorem wrapInc_mram (s : State) (f : Fld) : (s.wrapInc f).mram = s.mram := by simp only [State.wrapInc, set_mram]
@[simp] theorem wrapInc_ufs (s : State) (f : Fld) : (s.wrapInc f).ufs = s.ufs := by simp only [State.wrapInc, set_ufs]
@[simp] theorem wrapInc_free (s : State) (f : Fld) : (s.wrapInc f).free = s.free := by simp only [State.wrapInc, set_free]
@[simp] theorem wrapInc_sys (s : State) (f : Fld) : (s.wrapInc f).sys = s.sys := by simp only [State.wrapInc, set_sys]
@[simp] theorem wrapInc_ka (s : State) (f : Fld) : (s.wrapInc f).ka = s.ka := by simp only [State.wrapInc, set_ka]
@[simp] theorem wrapInc_cyc (s : State) (f : Fld) : (s.wrapInc f).cyc = s.cyc := by simp only [State.wrapInc, set_cyc]
@[simp] theorem wrapInc_str (s : State) (f : Fld) : (s.wrapInc f).str = s.str := by simp only [State.wrapInc, set_str]
@[simp] theorem wrapInc_rings (s : State) (f : Fld) : (s.wrapInc f).rings = s.rings := by simp only [State.wrapInc, set_rings]
@[simp] theorem wrapInc_gens (s : State) (f : Fld) : (s.wrapInc f).gens = s.gens := by simp only [State.wrapInc, set_gens]
@[simp] theorem wrapInc_nv (s : State) (f : Fld) : (s.wrapInc f).nv = s.nv := by simp only [State.wrapInc, set_nv]
@[simp] theorem wrapInc_tms (s : State) (f : Fld) : (s.wrapInc f).tms = s.tms := by simp only [State.wrapInc, set_tms]
@[simp] theorem wrapInc_inp (s : State) (f : Fld) : (s.wrapInc f).inp = s.inp := by simp only [State.wrapInc, set_inp]
@[simp] theorem wrapInc_cle (s : State) (f : Fld) : (s.wrapInc f).cle = s.cle := by simp only [State.wrapInc, set_cle]
@[simp] theorem wrapInc_vdr (s : State) (f : Fld) : (s.wrapInc f).vdr = s.vdr := by simp only [State.wrapInc, set_vdr]
@[simp] theorem wrapInc_stk (s : State) (f : Fld) : (s.wrapInc f).stk = s.stk := by simp only [State.wrapInc, set_stk]
@[simp] theorem wrapInc_saf (s : State) (f : Fld) : (s.wrapInc f).saf = s.saf := by simp only [State.wrapInc, set_saf]
@[simp] theorem wrapInc_gnb (s : State) (f : Fld) : (s.wrapInc f).gnb = s.gnb := by simp only [State.wrapInc, set_gnb]
@[simp] theorem wrapInc_cam (s : State) (f : Fld) : (s.wrapInc f).cam = s.cam := by simp only [State.wrapInc, set_cam]
@[simp] theorem wrapInc_fen (s : State) (f : Fld) : (s.wrapInc f).fen = s.fen := by simp only [State.wrapInc, set_fen]
@[simp] theorem wrapInc_arb (s : State) (f : Fld) : (s.wrapInc f).arb = s.arb := by simp only [State.wrapInc, set_arb]
@[simp] theorem wrapInc_fus (s : State) (f : Fld) : (s.wrapInc f).fus = s.fus := by simp only [State.wrapInc, set_fus]
@[simp] theorem wrapInc_yld (s : State) (f : Fld) : (s.wrapInc f).yld = s.yld := by simp only [State.wrapInc, set_yld]
@[simp] theorem wrapInc_bus (s : State) (f : Fld) : (s.wrapInc f).bus = s.bus := by simp only [State.wrapInc, set_bus]
@[simp] theorem wrapInc_eth (s : State) (f : Fld) : (s.wrapInc f).eth = s.eth := by simp only [State.wrapInc, set_eth]
@[simp] theorem wrapInc_pair (s : State) (f : Fld) : (s.wrapInc f).pair = s.pair := by simp only [State.wrapInc, set_pair]
@[simp] theorem wrapInc_pnl (s : State) (f : Fld) : (s.wrapInc f).pnl = s.pnl := by simp only [State.wrapInc, set_pnl]
@[simp] theorem wrapInc_rcd (s : State) (f : Fld) : (s.wrapInc f).rcd = s.rcd := by simp only [State.wrapInc, set_rcd]
@[simp] theorem wrapInc_upd (s : State) (f : Fld) : (s.wrapInc f).upd = s.upd := by simp only [State.wrapInc, set_upd]
@[simp] theorem wrapInc_pending (s : State) (f : Fld) : (s.wrapInc f).pending = s.pending := by simp only [State.wrapInc, set_pending]

/-! ### `set64` -/

@[simp] theorem set64_part (s : State) (lo hi v : Nat) : (s.set64 lo hi v).part = s.part := by simp only [State.set64, setReg_part]
@[simp] theorem set64_ltc (s : State) (lo hi v : Nat) : (s.set64 lo hi v).ltc = s.ltc := by simp only [State.set64, setReg_ltc]
@[simp] theorem set64_latch (s : State) (lo hi v : Nat) : (s.set64 lo hi v).latch = s.latch := by simp only [State.set64, setReg_latch]
@[simp] theorem set64_img (s : State) (lo hi v : Nat) : (s.set64 lo hi v).img = s.img := by simp only [State.set64, setReg_img]
@[simp] theorem set64_access (s : State) (lo hi v : Nat) : (s.set64 lo hi v).access = s.access := by simp only [State.set64, setReg_access]
@[simp] theorem set64_dram (s : State) (lo hi v : Nat) : (s.set64 lo hi v).dram = s.dram := by simp only [State.set64, setReg_dram]
@[simp] theorem set64_mram (s : State) (lo hi v : Nat) : (s.set64 lo hi v).mram = s.mram := by simp only [State.set64, setReg_mram]
@[simp] theorem set64_ufs (s : State) (lo hi v : Nat) : (s.set64 lo hi v).ufs = s.ufs := by simp only [State.set64, setReg_ufs]
@[simp] theorem set64_free (s : State) (lo hi v : Nat) : (s.set64 lo hi v).free = s.free := by simp only [State.set64, setReg_free]
@[simp] theorem set64_sys (s : State) (lo hi v : Nat) : (s.set64 lo hi v).sys = s.sys := by simp only [State.set64, setReg_sys]
@[simp] theorem set64_ka (s : State) (lo hi v : Nat) : (s.set64 lo hi v).ka = s.ka := by simp only [State.set64, setReg_ka]
@[simp] theorem set64_cyc (s : State) (lo hi v : Nat) : (s.set64 lo hi v).cyc = s.cyc := by simp only [State.set64, setReg_cyc]
@[simp] theorem set64_str (s : State) (lo hi v : Nat) : (s.set64 lo hi v).str = s.str := by simp only [State.set64, setReg_str]
@[simp] theorem set64_rings (s : State) (lo hi v : Nat) : (s.set64 lo hi v).rings = s.rings := by simp only [State.set64, setReg_rings]
@[simp] theorem set64_gens (s : State) (lo hi v : Nat) : (s.set64 lo hi v).gens = s.gens := by simp only [State.set64, setReg_gens]
@[simp] theorem set64_nv (s : State) (lo hi v : Nat) : (s.set64 lo hi v).nv = s.nv := by simp only [State.set64, setReg_nv]
@[simp] theorem set64_tms (s : State) (lo hi v : Nat) : (s.set64 lo hi v).tms = s.tms := by simp only [State.set64, setReg_tms]
@[simp] theorem set64_inp (s : State) (lo hi v : Nat) : (s.set64 lo hi v).inp = s.inp := by simp only [State.set64, setReg_inp]
@[simp] theorem set64_cle (s : State) (lo hi v : Nat) : (s.set64 lo hi v).cle = s.cle := by simp only [State.set64, setReg_cle]
@[simp] theorem set64_vdr (s : State) (lo hi v : Nat) : (s.set64 lo hi v).vdr = s.vdr := by simp only [State.set64, setReg_vdr]
@[simp] theorem set64_stk (s : State) (lo hi v : Nat) : (s.set64 lo hi v).stk = s.stk := by simp only [State.set64, setReg_stk]
@[simp] theorem set64_saf (s : State) (lo hi v : Nat) : (s.set64 lo hi v).saf = s.saf := by simp only [State.set64, setReg_saf]
@[simp] theorem set64_gnb (s : State) (lo hi v : Nat) : (s.set64 lo hi v).gnb = s.gnb := by simp only [State.set64, setReg_gnb]
@[simp] theorem set64_cam (s : State) (lo hi v : Nat) : (s.set64 lo hi v).cam = s.cam := by simp only [State.set64, setReg_cam]
@[simp] theorem set64_fen (s : State) (lo hi v : Nat) : (s.set64 lo hi v).fen = s.fen := by simp only [State.set64, setReg_fen]
@[simp] theorem set64_arb (s : State) (lo hi v : Nat) : (s.set64 lo hi v).arb = s.arb := by simp only [State.set64, setReg_arb]
@[simp] theorem set64_fus (s : State) (lo hi v : Nat) : (s.set64 lo hi v).fus = s.fus := by simp only [State.set64, setReg_fus]
@[simp] theorem set64_yld (s : State) (lo hi v : Nat) : (s.set64 lo hi v).yld = s.yld := by simp only [State.set64, setReg_yld]
@[simp] theorem set64_bus (s : State) (lo hi v : Nat) : (s.set64 lo hi v).bus = s.bus := by simp only [State.set64, setReg_bus]
@[simp] theorem set64_eth (s : State) (lo hi v : Nat) : (s.set64 lo hi v).eth = s.eth := by simp only [State.set64, setReg_eth]
@[simp] theorem set64_pair (s : State) (lo hi v : Nat) : (s.set64 lo hi v).pair = s.pair := by simp only [State.set64, setReg_pair]
@[simp] theorem set64_pnl (s : State) (lo hi v : Nat) : (s.set64 lo hi v).pnl = s.pnl := by simp only [State.set64, setReg_pnl]
@[simp] theorem set64_rcd (s : State) (lo hi v : Nat) : (s.set64 lo hi v).rcd = s.rcd := by simp only [State.set64, setReg_rcd]
@[simp] theorem set64_upd (s : State) (lo hi v : Nat) : (s.set64 lo hi v).upd = s.upd := by simp only [State.set64, setReg_upd]
@[simp] theorem set64_pending (s : State) (lo hi v : Nat) : (s.set64 lo hi v).pending = s.pending := by simp only [State.set64, setReg_pending]

/-! ### `setLoaded` -/

@[simp] theorem setLoaded_part (s : State) (r : Nat) (b : Bool) : (s.setLoaded r b).part = s.part := by simp only [State.setLoaded, set_part]
@[simp] theorem setLoaded_ltc (s : State) (r : Nat) (b : Bool) : (s.setLoaded r b).ltc = s.ltc := by simp only [State.setLoaded, set_ltc]
@[simp] theorem setLoaded_latch (s : State) (r : Nat) (b : Bool) : (s.setLoaded r b).latch = s.latch := by simp only [State.setLoaded, set_latch]
@[simp] theorem setLoaded_img (s : State) (r : Nat) (b : Bool) : (s.setLoaded r b).img = s.img := by simp only [State.setLoaded, set_img]
@[simp] theorem setLoaded_access (s : State) (r : Nat) (b : Bool) : (s.setLoaded r b).access = s.access := by simp only [State.setLoaded, set_access]
@[simp] theorem setLoaded_dram (s : State) (r : Nat) (b : Bool) : (s.setLoaded r b).dram = s.dram := by simp only [State.setLoaded, set_dram]
@[simp] theorem setLoaded_mram (s : State) (r : Nat) (b : Bool) : (s.setLoaded r b).mram = s.mram := by simp only [State.setLoaded, set_mram]
@[simp] theorem setLoaded_ufs (s : State) (r : Nat) (b : Bool) : (s.setLoaded r b).ufs = s.ufs := by simp only [State.setLoaded, set_ufs]
@[simp] theorem setLoaded_free (s : State) (r : Nat) (b : Bool) : (s.setLoaded r b).free = s.free := by simp only [State.setLoaded, set_free]
@[simp] theorem setLoaded_sys (s : State) (r : Nat) (b : Bool) : (s.setLoaded r b).sys = s.sys := by simp only [State.setLoaded, set_sys]
@[simp] theorem setLoaded_ka (s : State) (r : Nat) (b : Bool) : (s.setLoaded r b).ka = s.ka := by simp only [State.setLoaded, set_ka]
@[simp] theorem setLoaded_cyc (s : State) (r : Nat) (b : Bool) : (s.setLoaded r b).cyc = s.cyc := by simp only [State.setLoaded, set_cyc]
@[simp] theorem setLoaded_str (s : State) (r : Nat) (b : Bool) : (s.setLoaded r b).str = s.str := by simp only [State.setLoaded, set_str]
@[simp] theorem setLoaded_rings (s : State) (r : Nat) (b : Bool) : (s.setLoaded r b).rings = s.rings := by simp only [State.setLoaded, set_rings]
@[simp] theorem setLoaded_gens (s : State) (r : Nat) (b : Bool) : (s.setLoaded r b).gens = s.gens := by simp only [State.setLoaded, set_gens]
@[simp] theorem setLoaded_nv (s : State) (r : Nat) (b : Bool) : (s.setLoaded r b).nv = s.nv := by simp only [State.setLoaded, set_nv]
@[simp] theorem setLoaded_tms (s : State) (r : Nat) (b : Bool) : (s.setLoaded r b).tms = s.tms := by simp only [State.setLoaded, set_tms]
@[simp] theorem setLoaded_inp (s : State) (r : Nat) (b : Bool) : (s.setLoaded r b).inp = s.inp := by simp only [State.setLoaded, set_inp]
@[simp] theorem setLoaded_cle (s : State) (r : Nat) (b : Bool) : (s.setLoaded r b).cle = s.cle := by simp only [State.setLoaded, set_cle]
@[simp] theorem setLoaded_vdr (s : State) (r : Nat) (b : Bool) : (s.setLoaded r b).vdr = s.vdr := by simp only [State.setLoaded, set_vdr]
@[simp] theorem setLoaded_stk (s : State) (r : Nat) (b : Bool) : (s.setLoaded r b).stk = s.stk := by simp only [State.setLoaded, set_stk]
@[simp] theorem setLoaded_saf (s : State) (r : Nat) (b : Bool) : (s.setLoaded r b).saf = s.saf := by simp only [State.setLoaded, set_saf]
@[simp] theorem setLoaded_gnb (s : State) (r : Nat) (b : Bool) : (s.setLoaded r b).gnb = s.gnb := by simp only [State.setLoaded, set_gnb]
@[simp] theorem setLoaded_cam (s : State) (r : Nat) (b : Bool) : (s.setLoaded r b).cam = s.cam := by simp only [State.setLoaded, set_cam]
@[simp] theorem setLoaded_fen (s : State) (r : Nat) (b : Bool) : (s.setLoaded r b).fen = s.fen := by simp only [State.setLoaded, set_fen]
@[simp] theorem setLoaded_arb (s : State) (r : Nat) (b : Bool) : (s.setLoaded r b).arb = s.arb := by simp only [State.setLoaded, set_arb]
@[simp] theorem setLoaded_fus (s : State) (r : Nat) (b : Bool) : (s.setLoaded r b).fus = s.fus := by simp only [State.setLoaded, set_fus]
@[simp] theorem setLoaded_yld (s : State) (r : Nat) (b : Bool) : (s.setLoaded r b).yld = s.yld := by simp only [State.setLoaded, set_yld]
@[simp] theorem setLoaded_bus (s : State) (r : Nat) (b : Bool) : (s.setLoaded r b).bus = s.bus := by simp only [State.setLoaded, set_bus]
@[simp] theorem setLoaded_eth (s : State) (r : Nat) (b : Bool) : (s.setLoaded r b).eth = s.eth := by simp only [State.setLoaded, set_eth]
@[simp] theorem setLoaded_pair (s : State) (r : Nat) (b : Bool) : (s.setLoaded r b).pair = s.pair := by simp only [State.setLoaded, set_pair]
@[simp] theorem setLoaded_pnl (s : State) (r : Nat) (b : Bool) : (s.setLoaded r b).pnl = s.pnl := by simp only [State.setLoaded, set_pnl]
@[simp] theorem setLoaded_rcd (s : State) (r : Nat) (b : Bool) : (s.setLoaded r b).rcd = s.rcd := by simp only [State.setLoaded, set_rcd]
@[simp] theorem setLoaded_upd (s : State) (r : Nat) (b : Bool) : (s.setLoaded r b).upd = s.upd := by simp only [State.setLoaded, set_upd]
@[simp] theorem setLoaded_pending (s : State) (r : Nat) (b : Bool) : (s.setLoaded r b).pending = s.pending := by simp only [State.setLoaded, set_pending]

/-! ### `setBusy` -/

@[simp] theorem setBusy_part (s : State) (r : Nat) (b : Bool) : (s.setBusy r b).part = s.part := by simp only [State.setBusy, set_part]
@[simp] theorem setBusy_ltc (s : State) (r : Nat) (b : Bool) : (s.setBusy r b).ltc = s.ltc := by simp only [State.setBusy, set_ltc]
@[simp] theorem setBusy_latch (s : State) (r : Nat) (b : Bool) : (s.setBusy r b).latch = s.latch := by simp only [State.setBusy, set_latch]
@[simp] theorem setBusy_img (s : State) (r : Nat) (b : Bool) : (s.setBusy r b).img = s.img := by simp only [State.setBusy, set_img]
@[simp] theorem setBusy_access (s : State) (r : Nat) (b : Bool) : (s.setBusy r b).access = s.access := by simp only [State.setBusy, set_access]
@[simp] theorem setBusy_dram (s : State) (r : Nat) (b : Bool) : (s.setBusy r b).dram = s.dram := by simp only [State.setBusy, set_dram]
@[simp] theorem setBusy_mram (s : State) (r : Nat) (b : Bool) : (s.setBusy r b).mram = s.mram := by simp only [State.setBusy, set_mram]
@[simp] theorem setBusy_ufs (s : State) (r : Nat) (b : Bool) : (s.setBusy r b).ufs = s.ufs := by simp only [State.setBusy, set_ufs]
@[simp] theorem setBusy_free (s : State) (r : Nat) (b : Bool) : (s.setBusy r b).free = s.free := by simp only [State.setBusy, set_free]
@[simp] theorem setBusy_sys (s : State) (r : Nat) (b : Bool) : (s.setBusy r b).sys = s.sys := by simp only [State.setBusy, set_sys]
@[simp] theorem setBusy_ka (s : State) (r : Nat) (b : Bool) : (s.setBusy r b).ka = s.ka := by simp only [State.setBusy, set_ka]
@[simp] theorem setBusy_cyc (s : State) (r : Nat) (b : Bool) : (s.setBusy r b).cyc = s.cyc := by simp only [State.setBusy, set_cyc]
@[simp] theorem setBusy_str (s : State) (r : Nat) (b : Bool) : (s.setBusy r b).str = s.str := by simp only [State.setBusy, set_str]
@[simp] theorem setBusy_rings (s : State) (r : Nat) (b : Bool) : (s.setBusy r b).rings = s.rings := by simp only [State.setBusy, set_rings]
@[simp] theorem setBusy_gens (s : State) (r : Nat) (b : Bool) : (s.setBusy r b).gens = s.gens := by simp only [State.setBusy, set_gens]
@[simp] theorem setBusy_nv (s : State) (r : Nat) (b : Bool) : (s.setBusy r b).nv = s.nv := by simp only [State.setBusy, set_nv]
@[simp] theorem setBusy_tms (s : State) (r : Nat) (b : Bool) : (s.setBusy r b).tms = s.tms := by simp only [State.setBusy, set_tms]
@[simp] theorem setBusy_inp (s : State) (r : Nat) (b : Bool) : (s.setBusy r b).inp = s.inp := by simp only [State.setBusy, set_inp]
@[simp] theorem setBusy_cle (s : State) (r : Nat) (b : Bool) : (s.setBusy r b).cle = s.cle := by simp only [State.setBusy, set_cle]
@[simp] theorem setBusy_vdr (s : State) (r : Nat) (b : Bool) : (s.setBusy r b).vdr = s.vdr := by simp only [State.setBusy, set_vdr]
@[simp] theorem setBusy_stk (s : State) (r : Nat) (b : Bool) : (s.setBusy r b).stk = s.stk := by simp only [State.setBusy, set_stk]
@[simp] theorem setBusy_saf (s : State) (r : Nat) (b : Bool) : (s.setBusy r b).saf = s.saf := by simp only [State.setBusy, set_saf]
@[simp] theorem setBusy_gnb (s : State) (r : Nat) (b : Bool) : (s.setBusy r b).gnb = s.gnb := by simp only [State.setBusy, set_gnb]
@[simp] theorem setBusy_cam (s : State) (r : Nat) (b : Bool) : (s.setBusy r b).cam = s.cam := by simp only [State.setBusy, set_cam]
@[simp] theorem setBusy_fen (s : State) (r : Nat) (b : Bool) : (s.setBusy r b).fen = s.fen := by simp only [State.setBusy, set_fen]
@[simp] theorem setBusy_arb (s : State) (r : Nat) (b : Bool) : (s.setBusy r b).arb = s.arb := by simp only [State.setBusy, set_arb]
@[simp] theorem setBusy_fus (s : State) (r : Nat) (b : Bool) : (s.setBusy r b).fus = s.fus := by simp only [State.setBusy, set_fus]
@[simp] theorem setBusy_yld (s : State) (r : Nat) (b : Bool) : (s.setBusy r b).yld = s.yld := by simp only [State.setBusy, set_yld]
@[simp] theorem setBusy_bus (s : State) (r : Nat) (b : Bool) : (s.setBusy r b).bus = s.bus := by simp only [State.setBusy, set_bus]
@[simp] theorem setBusy_eth (s : State) (r : Nat) (b : Bool) : (s.setBusy r b).eth = s.eth := by simp only [State.setBusy, set_eth]
@[simp] theorem setBusy_pair (s : State) (r : Nat) (b : Bool) : (s.setBusy r b).pair = s.pair := by simp only [State.setBusy, set_pair]
@[simp] theorem setBusy_pnl (s : State) (r : Nat) (b : Bool) : (s.setBusy r b).pnl = s.pnl := by simp only [State.setBusy, set_pnl]
@[simp] theorem setBusy_rcd (s : State) (r : Nat) (b : Bool) : (s.setBusy r b).rcd = s.rcd := by simp only [State.setBusy, set_rcd]
@[simp] theorem setBusy_upd (s : State) (r : Nat) (b : Bool) : (s.setBusy r b).upd = s.upd := by simp only [State.setBusy, set_upd]
@[simp] theorem setBusy_pending (s : State) (r : Nat) (b : Bool) : (s.setBusy r b).pending = s.pending := by simp only [State.setBusy, set_pending]

/-! ### `drawn` -/

@[simp] theorem drawn_part (s : State) : (s.drawn).part = s.part := by simp only [State.drawn]
@[simp] theorem drawn_ltc (s : State) : (s.drawn).ltc = s.ltc := by simp only [State.drawn]
@[simp] theorem drawn_regs (s : State) : (s.drawn).regs = s.regs := by simp only [State.drawn]
@[simp] theorem drawn_latch (s : State) : (s.drawn).latch = s.latch := by simp only [State.drawn]
@[simp] theorem drawn_img (s : State) : (s.drawn).img = s.img := by simp only [State.drawn]
@[simp] theorem drawn_access (s : State) : (s.drawn).access = s.access := by simp only [State.drawn]
@[simp] theorem drawn_dram (s : State) : (s.drawn).dram = s.dram := by simp only [State.drawn]
@[simp] theorem drawn_mram (s : State) : (s.drawn).mram = s.mram := by simp only [State.drawn]
@[simp] theorem drawn_ufs (s : State) : (s.drawn).ufs = s.ufs := by simp only [State.drawn]
@[simp] theorem drawn_sys (s : State) : (s.drawn).sys = s.sys := by simp only [State.drawn]
@[simp] theorem drawn_ka (s : State) : (s.drawn).ka = s.ka := by simp only [State.drawn]
@[simp] theorem drawn_cyc (s : State) : (s.drawn).cyc = s.cyc := by simp only [State.drawn]
@[simp] theorem drawn_str (s : State) : (s.drawn).str = s.str := by simp only [State.drawn]
@[simp] theorem drawn_rings (s : State) : (s.drawn).rings = s.rings := by simp only [State.drawn]
@[simp] theorem drawn_gens (s : State) : (s.drawn).gens = s.gens := by simp only [State.drawn]
@[simp] theorem drawn_nv (s : State) : (s.drawn).nv = s.nv := by simp only [State.drawn]
@[simp] theorem drawn_tms (s : State) : (s.drawn).tms = s.tms := by simp only [State.drawn]
@[simp] theorem drawn_inp (s : State) : (s.drawn).inp = s.inp := by simp only [State.drawn]
@[simp] theorem drawn_cle (s : State) : (s.drawn).cle = s.cle := by simp only [State.drawn]
@[simp] theorem drawn_vdr (s : State) : (s.drawn).vdr = s.vdr := by simp only [State.drawn]
@[simp] theorem drawn_stk (s : State) : (s.drawn).stk = s.stk := by simp only [State.drawn]
@[simp] theorem drawn_saf (s : State) : (s.drawn).saf = s.saf := by simp only [State.drawn]
@[simp] theorem drawn_gnb (s : State) : (s.drawn).gnb = s.gnb := by simp only [State.drawn]
@[simp] theorem drawn_cam (s : State) : (s.drawn).cam = s.cam := by simp only [State.drawn]
@[simp] theorem drawn_fen (s : State) : (s.drawn).fen = s.fen := by simp only [State.drawn]
@[simp] theorem drawn_arb (s : State) : (s.drawn).arb = s.arb := by simp only [State.drawn]
@[simp] theorem drawn_fus (s : State) : (s.drawn).fus = s.fus := by simp only [State.drawn]
@[simp] theorem drawn_yld (s : State) : (s.drawn).yld = s.yld := by simp only [State.drawn]
@[simp] theorem drawn_bus (s : State) : (s.drawn).bus = s.bus := by simp only [State.drawn]
@[simp] theorem drawn_eth (s : State) : (s.drawn).eth = s.eth := by simp only [State.drawn]
@[simp] theorem drawn_pair (s : State) : (s.drawn).pair = s.pair := by simp only [State.drawn]
@[simp] theorem drawn_pnl (s : State) : (s.drawn).pnl = s.pnl := by simp only [State.drawn]
@[simp] theorem drawn_rcd (s : State) : (s.drawn).rcd = s.rcd := by simp only [State.drawn]
@[simp] theorem drawn_upd (s : State) : (s.drawn).upd = s.upd := by simp only [State.drawn]
@[simp] theorem drawn_pending (s : State) : (s.drawn).pending = s.pending := by simp only [State.drawn]

/-! ### `dramPuts` -/

@[simp] theorem dramPuts_part (s : State) (a : Nat) (bs : List Byte) : (s.dramPuts a bs).part = s.part := by simp only [State.dramPuts]
@[simp] theorem dramPuts_ltc (s : State) (a : Nat) (bs : List Byte) : (s.dramPuts a bs).ltc = s.ltc := by simp only [State.dramPuts]
@[simp] theorem dramPuts_regs (s : State) (a : Nat) (bs : List Byte) : (s.dramPuts a bs).regs = s.regs := by simp only [State.dramPuts]
@[simp] theorem dramPuts_latch (s : State) (a : Nat) (bs : List Byte) : (s.dramPuts a bs).latch = s.latch := by simp only [State.dramPuts]
@[simp] theorem dramPuts_img (s : State) (a : Nat) (bs : List Byte) : (s.dramPuts a bs).img = s.img := by simp only [State.dramPuts]
@[simp] theorem dramPuts_access (s : State) (a : Nat) (bs : List Byte) : (s.dramPuts a bs).access = s.access := by simp only [State.dramPuts]
@[simp] theorem dramPuts_mram (s : State) (a : Nat) (bs : List Byte) : (s.dramPuts a bs).mram = s.mram := by simp only [State.dramPuts]
@[simp] theorem dramPuts_ufs (s : State) (a : Nat) (bs : List Byte) : (s.dramPuts a bs).ufs = s.ufs := by simp only [State.dramPuts]
@[simp] theorem dramPuts_free (s : State) (a : Nat) (bs : List Byte) : (s.dramPuts a bs).free = s.free := by simp only [State.dramPuts]
@[simp] theorem dramPuts_sys (s : State) (a : Nat) (bs : List Byte) : (s.dramPuts a bs).sys = s.sys := by simp only [State.dramPuts]
@[simp] theorem dramPuts_ka (s : State) (a : Nat) (bs : List Byte) : (s.dramPuts a bs).ka = s.ka := by simp only [State.dramPuts]
@[simp] theorem dramPuts_cyc (s : State) (a : Nat) (bs : List Byte) : (s.dramPuts a bs).cyc = s.cyc := by simp only [State.dramPuts]
@[simp] theorem dramPuts_str (s : State) (a : Nat) (bs : List Byte) : (s.dramPuts a bs).str = s.str := by simp only [State.dramPuts]
@[simp] theorem dramPuts_rings (s : State) (a : Nat) (bs : List Byte) : (s.dramPuts a bs).rings = s.rings := by simp only [State.dramPuts]
@[simp] theorem dramPuts_gens (s : State) (a : Nat) (bs : List Byte) : (s.dramPuts a bs).gens = s.gens := by simp only [State.dramPuts]
@[simp] theorem dramPuts_nv (s : State) (a : Nat) (bs : List Byte) : (s.dramPuts a bs).nv = s.nv := by simp only [State.dramPuts]
@[simp] theorem dramPuts_tms (s : State) (a : Nat) (bs : List Byte) : (s.dramPuts a bs).tms = s.tms := by simp only [State.dramPuts]
@[simp] theorem dramPuts_inp (s : State) (a : Nat) (bs : List Byte) : (s.dramPuts a bs).inp = s.inp := by simp only [State.dramPuts]
@[simp] theorem dramPuts_cle (s : State) (a : Nat) (bs : List Byte) : (s.dramPuts a bs).cle = s.cle := by simp only [State.dramPuts]
@[simp] theorem dramPuts_vdr (s : State) (a : Nat) (bs : List Byte) : (s.dramPuts a bs).vdr = s.vdr := by simp only [State.dramPuts]
@[simp] theorem dramPuts_stk (s : State) (a : Nat) (bs : List Byte) : (s.dramPuts a bs).stk = s.stk := by simp only [State.dramPuts]
@[simp] theorem dramPuts_saf (s : State) (a : Nat) (bs : List Byte) : (s.dramPuts a bs).saf = s.saf := by simp only [State.dramPuts]
@[simp] theorem dramPuts_gnb (s : State) (a : Nat) (bs : List Byte) : (s.dramPuts a bs).gnb = s.gnb := by simp only [State.dramPuts]
@[simp] theorem dramPuts_cam (s : State) (a : Nat) (bs : List Byte) : (s.dramPuts a bs).cam = s.cam := by simp only [State.dramPuts]
@[simp] theorem dramPuts_fen (s : State) (a : Nat) (bs : List Byte) : (s.dramPuts a bs).fen = s.fen := by simp only [State.dramPuts]
@[simp] theorem dramPuts_arb (s : State) (a : Nat) (bs : List Byte) : (s.dramPuts a bs).arb = s.arb := by simp only [State.dramPuts]
@[simp] theorem dramPuts_fus (s : State) (a : Nat) (bs : List Byte) : (s.dramPuts a bs).fus = s.fus := by simp only [State.dramPuts]
@[simp] theorem dramPuts_yld (s : State) (a : Nat) (bs : List Byte) : (s.dramPuts a bs).yld = s.yld := by simp only [State.dramPuts]
@[simp] theorem dramPuts_bus (s : State) (a : Nat) (bs : List Byte) : (s.dramPuts a bs).bus = s.bus := by simp only [State.dramPuts]
@[simp] theorem dramPuts_eth (s : State) (a : Nat) (bs : List Byte) : (s.dramPuts a bs).eth = s.eth := by simp only [State.dramPuts]
@[simp] theorem dramPuts_pair (s : State) (a : Nat) (bs : List Byte) : (s.dramPuts a bs).pair = s.pair := by simp only [State.dramPuts]
@[simp] theorem dramPuts_pnl (s : State) (a : Nat) (bs : List Byte) : (s.dramPuts a bs).pnl = s.pnl := by simp only [State.dramPuts]
@[simp] theorem dramPuts_rcd (s : State) (a : Nat) (bs : List Byte) : (s.dramPuts a bs).rcd = s.rcd := by simp only [State.dramPuts]
@[simp] theorem dramPuts_upd (s : State) (a : Nat) (bs : List Byte) : (s.dramPuts a bs).upd = s.upd := by simp only [State.dramPuts]
@[simp] theorem dramPuts_pending (s : State) (a : Nat) (bs : List Byte) : (s.dramPuts a bs).pending = s.pending := by simp only [State.dramPuts]

/-! ### `dramPutN` -/

@[simp] theorem dramPutN_part (s : State) (a n v : Nat) : (s.dramPutN a n v).part = s.part := by simp only [State.dramPutN, dramPuts_part]
@[simp] theorem dramPutN_ltc (s : State) (a n v : Nat) : (s.dramPutN a n v).ltc = s.ltc := by simp only [State.dramPutN, dramPuts_ltc]
@[simp] theorem dramPutN_regs (s : State) (a n v : Nat) : (s.dramPutN a n v).regs = s.regs := by simp only [State.dramPutN, dramPuts_regs]
@[simp] theorem dramPutN_latch (s : State) (a n v : Nat) : (s.dramPutN a n v).latch = s.latch := by simp only [State.dramPutN, dramPuts_latch]
@[simp] theorem dramPutN_img (s : State) (a n v : Nat) : (s.dramPutN a n v).img = s.img := by simp only [State.dramPutN, dramPuts_img]
@[simp] theorem dramPutN_access (s : State) (a n v : Nat) : (s.dramPutN a n v).access = s.access := by simp only [State.dramPutN, dramPuts_access]
@[simp] theorem dramPutN_mram (s : State) (a n v : Nat) : (s.dramPutN a n v).mram = s.mram := by simp only [State.dramPutN, dramPuts_mram]
@[simp] theorem dramPutN_ufs (s : State) (a n v : Nat) : (s.dramPutN a n v).ufs = s.ufs := by simp only [State.dramPutN, dramPuts_ufs]
@[simp] theorem dramPutN_free (s : State) (a n v : Nat) : (s.dramPutN a n v).free = s.free := by simp only [State.dramPutN, dramPuts_free]
@[simp] theorem dramPutN_sys (s : State) (a n v : Nat) : (s.dramPutN a n v).sys = s.sys := by simp only [State.dramPutN, dramPuts_sys]
@[simp] theorem dramPutN_ka (s : State) (a n v : Nat) : (s.dramPutN a n v).ka = s.ka := by simp only [State.dramPutN, dramPuts_ka]
@[simp] theorem dramPutN_cyc (s : State) (a n v : Nat) : (s.dramPutN a n v).cyc = s.cyc := by simp only [State.dramPutN, dramPuts_cyc]
@[simp] theorem dramPutN_str (s : State) (a n v : Nat) : (s.dramPutN a n v).str = s.str := by simp only [State.dramPutN, dramPuts_str]
@[simp] theorem dramPutN_rings (s : State) (a n v : Nat) : (s.dramPutN a n v).rings = s.rings := by simp only [State.dramPutN, dramPuts_rings]
@[simp] theorem dramPutN_gens (s : State) (a n v : Nat) : (s.dramPutN a n v).gens = s.gens := by simp only [State.dramPutN, dramPuts_gens]
@[simp] theorem dramPutN_nv (s : State) (a n v : Nat) : (s.dramPutN a n v).nv = s.nv := by simp only [State.dramPutN, dramPuts_nv]
@[simp] theorem dramPutN_tms (s : State) (a n v : Nat) : (s.dramPutN a n v).tms = s.tms := by simp only [State.dramPutN, dramPuts_tms]
@[simp] theorem dramPutN_inp (s : State) (a n v : Nat) : (s.dramPutN a n v).inp = s.inp := by simp only [State.dramPutN, dramPuts_inp]
@[simp] theorem dramPutN_cle (s : State) (a n v : Nat) : (s.dramPutN a n v).cle = s.cle := by simp only [State.dramPutN, dramPuts_cle]
@[simp] theorem dramPutN_vdr (s : State) (a n v : Nat) : (s.dramPutN a n v).vdr = s.vdr := by simp only [State.dramPutN, dramPuts_vdr]
@[simp] theorem dramPutN_stk (s : State) (a n v : Nat) : (s.dramPutN a n v).stk = s.stk := by simp only [State.dramPutN, dramPuts_stk]
@[simp] theorem dramPutN_saf (s : State) (a n v : Nat) : (s.dramPutN a n v).saf = s.saf := by simp only [State.dramPutN, dramPuts_saf]
@[simp] theorem dramPutN_gnb (s : State) (a n v : Nat) : (s.dramPutN a n v).gnb = s.gnb := by simp only [State.dramPutN, dramPuts_gnb]
@[simp] theorem dramPutN_cam (s : State) (a n v : Nat) : (s.dramPutN a n v).cam = s.cam := by simp only [State.dramPutN, dramPuts_cam]
@[simp] theorem dramPutN_fen (s : State) (a n v : Nat) : (s.dramPutN a n v).fen = s.fen := by simp only [State.dramPutN, dramPuts_fen]
@[simp] theorem dramPutN_arb (s : State) (a n v : Nat) : (s.dramPutN a n v).arb = s.arb := by simp only [State.dramPutN, dramPuts_arb]
@[simp] theorem dramPutN_fus (s : State) (a n v : Nat) : (s.dramPutN a n v).fus = s.fus := by simp only [State.dramPutN, dramPuts_fus]
@[simp] theorem dramPutN_yld (s : State) (a n v : Nat) : (s.dramPutN a n v).yld = s.yld := by simp only [State.dramPutN, dramPuts_yld]
@[simp] theorem dramPutN_bus (s : State) (a n v : Nat) : (s.dramPutN a n v).bus = s.bus := by simp only [State.dramPutN, dramPuts_bus]
@[simp] theorem dramPutN_eth (s : State) (a n v : Nat) : (s.dramPutN a n v).eth = s.eth := by simp only [State.dramPutN, dramPuts_eth]
@[simp] theorem dramPutN_pair (s : State) (a n v : Nat) : (s.dramPutN a n v).pair = s.pair := by simp only [State.dramPutN, dramPuts_pair]
@[simp] theorem dramPutN_pnl (s : State) (a n v : Nat) : (s.dramPutN a n v).pnl = s.pnl := by simp only [State.dramPutN, dramPuts_pnl]
@[simp] theorem dramPutN_rcd (s : State) (a n v : Nat) : (s.dramPutN a n v).rcd = s.rcd := by simp only [State.dramPutN, dramPuts_rcd]
@[simp] theorem dramPutN_upd (s : State) (a n v : Nat) : (s.dramPutN a n v).upd = s.upd := by simp only [State.dramPutN, dramPuts_upd]
@[simp] theorem dramPutN_pending (s : State) (a n v : Nat) : (s.dramPutN a n v).pending = s.pending := by simp only [State.dramPutN, dramPuts_pending]

/-! ### `setRing` -/

@[simp] theorem setRing_part (s : State) (b r : Nat) (g : Ring) : (s.setRing b r g).part = s.part := by simp only [State.setRing]
@[simp] theorem setRing_ltc (s : State) (b r : Nat) (g : Ring) : (s.setRing b r g).ltc = s.ltc := by simp only [State.setRing]
@[simp] theorem setRing_regs (s : State) (b r : Nat) (g : Ring) : (s.setRing b r g).regs = s.regs := by simp only [State.setRing]
@[simp] theorem setRing_latch (s : State) (b r : Nat) (g : Ring) : (s.setRing b r g).latch = s.latch := by simp only [State.setRing]
@[simp] theorem setRing_img (s : State) (b r : Nat) (g : Ring) : (s.setRing b r g).img = s.img := by simp only [State.setRing]
@[simp] theorem setRing_access (s : State) (b r : Nat) (g : Ring) : (s.setRing b r g).access = s.access := by simp only [State.setRing]
@[simp] theorem setRing_dram (s : State) (b r : Nat) (g : Ring) : (s.setRing b r g).dram = s.dram := by simp only [State.setRing]
@[simp] theorem setRing_mram (s : State) (b r : Nat) (g : Ring) : (s.setRing b r g).mram = s.mram := by simp only [State.setRing]
@[simp] theorem setRing_ufs (s : State) (b r : Nat) (g : Ring) : (s.setRing b r g).ufs = s.ufs := by simp only [State.setRing]
@[simp] theorem setRing_free (s : State) (b r : Nat) (g : Ring) : (s.setRing b r g).free = s.free := by simp only [State.setRing]
@[simp] theorem setRing_sys (s : State) (b r : Nat) (g : Ring) : (s.setRing b r g).sys = s.sys := by simp only [State.setRing]
@[simp] theorem setRing_ka (s : State) (b r : Nat) (g : Ring) : (s.setRing b r g).ka = s.ka := by simp only [State.setRing]
@[simp] theorem setRing_cyc (s : State) (b r : Nat) (g : Ring) : (s.setRing b r g).cyc = s.cyc := by simp only [State.setRing]
@[simp] theorem setRing_str (s : State) (b r : Nat) (g : Ring) : (s.setRing b r g).str = s.str := by simp only [State.setRing]
@[simp] theorem setRing_gens (s : State) (b r : Nat) (g : Ring) : (s.setRing b r g).gens = s.gens := by simp only [State.setRing]
@[simp] theorem setRing_nv (s : State) (b r : Nat) (g : Ring) : (s.setRing b r g).nv = s.nv := by simp only [State.setRing]
@[simp] theorem setRing_tms (s : State) (b r : Nat) (g : Ring) : (s.setRing b r g).tms = s.tms := by simp only [State.setRing]
@[simp] theorem setRing_inp (s : State) (b r : Nat) (g : Ring) : (s.setRing b r g).inp = s.inp := by simp only [State.setRing]
@[simp] theorem setRing_cle (s : State) (b r : Nat) (g : Ring) : (s.setRing b r g).cle = s.cle := by simp only [State.setRing]
@[simp] theorem setRing_vdr (s : State) (b r : Nat) (g : Ring) : (s.setRing b r g).vdr = s.vdr := by simp only [State.setRing]
@[simp] theorem setRing_stk (s : State) (b r : Nat) (g : Ring) : (s.setRing b r g).stk = s.stk := by simp only [State.setRing]
@[simp] theorem setRing_saf (s : State) (b r : Nat) (g : Ring) : (s.setRing b r g).saf = s.saf := by simp only [State.setRing]
@[simp] theorem setRing_gnb (s : State) (b r : Nat) (g : Ring) : (s.setRing b r g).gnb = s.gnb := by simp only [State.setRing]
@[simp] theorem setRing_cam (s : State) (b r : Nat) (g : Ring) : (s.setRing b r g).cam = s.cam := by simp only [State.setRing]
@[simp] theorem setRing_fen (s : State) (b r : Nat) (g : Ring) : (s.setRing b r g).fen = s.fen := by simp only [State.setRing]
@[simp] theorem setRing_arb (s : State) (b r : Nat) (g : Ring) : (s.setRing b r g).arb = s.arb := by simp only [State.setRing]
@[simp] theorem setRing_fus (s : State) (b r : Nat) (g : Ring) : (s.setRing b r g).fus = s.fus := by simp only [State.setRing]
@[simp] theorem setRing_yld (s : State) (b r : Nat) (g : Ring) : (s.setRing b r g).yld = s.yld := by simp only [State.setRing]
@[simp] theorem setRing_bus (s : State) (b r : Nat) (g : Ring) : (s.setRing b r g).bus = s.bus := by simp only [State.setRing]
@[simp] theorem setRing_eth (s : State) (b r : Nat) (g : Ring) : (s.setRing b r g).eth = s.eth := by simp only [State.setRing]
@[simp] theorem setRing_pair (s : State) (b r : Nat) (g : Ring) : (s.setRing b r g).pair = s.pair := by simp only [State.setRing]
@[simp] theorem setRing_pnl (s : State) (b r : Nat) (g : Ring) : (s.setRing b r g).pnl = s.pnl := by simp only [State.setRing]
@[simp] theorem setRing_rcd (s : State) (b r : Nat) (g : Ring) : (s.setRing b r g).rcd = s.rcd := by simp only [State.setRing]
@[simp] theorem setRing_upd (s : State) (b r : Nat) (g : Ring) : (s.setRing b r g).upd = s.upd := by simp only [State.setRing]
@[simp] theorem setRing_pending (s : State) (b r : Nat) (g : Ring) : (s.setRing b r g).pending = s.pending := by simp only [State.setRing]

/-! ### `advGen` -/

@[simp] theorem advGen_part (s : State) (c i : Nat) : (s.advGen c i).part = s.part := by simp only [State.advGen]
@[simp] theorem advGen_ltc (s : State) (c i : Nat) : (s.advGen c i).ltc = s.ltc := by simp only [State.advGen]
@[simp] theorem advGen_regs (s : State) (c i : Nat) : (s.advGen c i).regs = s.regs := by simp only [State.advGen]
@[simp] theorem advGen_latch (s : State) (c i : Nat) : (s.advGen c i).latch = s.latch := by simp only [State.advGen]
@[simp] theorem advGen_img (s : State) (c i : Nat) : (s.advGen c i).img = s.img := by simp only [State.advGen]
@[simp] theorem advGen_access (s : State) (c i : Nat) : (s.advGen c i).access = s.access := by simp only [State.advGen]
@[simp] theorem advGen_dram (s : State) (c i : Nat) : (s.advGen c i).dram = s.dram := by simp only [State.advGen]
@[simp] theorem advGen_mram (s : State) (c i : Nat) : (s.advGen c i).mram = s.mram := by simp only [State.advGen]
@[simp] theorem advGen_ufs (s : State) (c i : Nat) : (s.advGen c i).ufs = s.ufs := by simp only [State.advGen]
@[simp] theorem advGen_free (s : State) (c i : Nat) : (s.advGen c i).free = s.free := by simp only [State.advGen]
@[simp] theorem advGen_sys (s : State) (c i : Nat) : (s.advGen c i).sys = s.sys := by simp only [State.advGen]
@[simp] theorem advGen_ka (s : State) (c i : Nat) : (s.advGen c i).ka = s.ka := by simp only [State.advGen]
@[simp] theorem advGen_cyc (s : State) (c i : Nat) : (s.advGen c i).cyc = s.cyc := by simp only [State.advGen]
@[simp] theorem advGen_str (s : State) (c i : Nat) : (s.advGen c i).str = s.str := by simp only [State.advGen]
@[simp] theorem advGen_rings (s : State) (c i : Nat) : (s.advGen c i).rings = s.rings := by simp only [State.advGen]
@[simp] theorem advGen_nv (s : State) (c i : Nat) : (s.advGen c i).nv = s.nv := by simp only [State.advGen]
@[simp] theorem advGen_tms (s : State) (c i : Nat) : (s.advGen c i).tms = s.tms := by simp only [State.advGen]
@[simp] theorem advGen_inp (s : State) (c i : Nat) : (s.advGen c i).inp = s.inp := by simp only [State.advGen]
@[simp] theorem advGen_cle (s : State) (c i : Nat) : (s.advGen c i).cle = s.cle := by simp only [State.advGen]
@[simp] theorem advGen_vdr (s : State) (c i : Nat) : (s.advGen c i).vdr = s.vdr := by simp only [State.advGen]
@[simp] theorem advGen_stk (s : State) (c i : Nat) : (s.advGen c i).stk = s.stk := by simp only [State.advGen]
@[simp] theorem advGen_saf (s : State) (c i : Nat) : (s.advGen c i).saf = s.saf := by simp only [State.advGen]
@[simp] theorem advGen_gnb (s : State) (c i : Nat) : (s.advGen c i).gnb = s.gnb := by simp only [State.advGen]
@[simp] theorem advGen_cam (s : State) (c i : Nat) : (s.advGen c i).cam = s.cam := by simp only [State.advGen]
@[simp] theorem advGen_fen (s : State) (c i : Nat) : (s.advGen c i).fen = s.fen := by simp only [State.advGen]
@[simp] theorem advGen_arb (s : State) (c i : Nat) : (s.advGen c i).arb = s.arb := by simp only [State.advGen]
@[simp] theorem advGen_fus (s : State) (c i : Nat) : (s.advGen c i).fus = s.fus := by simp only [State.advGen]
@[simp] theorem advGen_yld (s : State) (c i : Nat) : (s.advGen c i).yld = s.yld := by simp only [State.advGen]
@[simp] theorem advGen_bus (s : State) (c i : Nat) : (s.advGen c i).bus = s.bus := by simp only [State.advGen]
@[simp] theorem advGen_eth (s : State) (c i : Nat) : (s.advGen c i).eth = s.eth := by simp only [State.advGen]
@[simp] theorem advGen_pair (s : State) (c i : Nat) : (s.advGen c i).pair = s.pair := by simp only [State.advGen]
@[simp] theorem advGen_pnl (s : State) (c i : Nat) : (s.advGen c i).pnl = s.pnl := by simp only [State.advGen]
@[simp] theorem advGen_rcd (s : State) (c i : Nat) : (s.advGen c i).rcd = s.rcd := by simp only [State.advGen]
@[simp] theorem advGen_upd (s : State) (c i : Nat) : (s.advGen c i).upd = s.upd := by simp only [State.advGen]
@[simp] theorem advGen_pending (s : State) (c i : Nat) : (s.advGen c i).pending = s.pending := by simp only [State.advGen]

/-! ### `wipeRegs` -/

@[simp] theorem wipeRegs_part (s : State) (a n : Nat) : (s.wipeRegs a n).part = s.part := by simp only [State.wipeRegs]
@[simp] theorem wipeRegs_ltc (s : State) (a n : Nat) : (s.wipeRegs a n).ltc = s.ltc := by simp only [State.wipeRegs]
@[simp] theorem wipeRegs_img (s : State) (a n : Nat) : (s.wipeRegs a n).img = s.img := by simp only [State.wipeRegs]
@[simp] theorem wipeRegs_access (s : State) (a n : Nat) : (s.wipeRegs a n).access = s.access := by simp only [State.wipeRegs]
@[simp] theorem wipeRegs_dram (s : State) (a n : Nat) : (s.wipeRegs a n).dram = s.dram := by simp only [State.wipeRegs]
@[simp] theorem wipeRegs_mram (s : State) (a n : Nat) : (s.wipeRegs a n).mram = s.mram := by simp only [State.wipeRegs]
@[simp] theorem wipeRegs_ufs (s : State) (a n : Nat) : (s.wipeRegs a n).ufs = s.ufs := by simp only [State.wipeRegs]
@[simp] theorem wipeRegs_free (s : State) (a n : Nat) : (s.wipeRegs a n).free = s.free := by simp only [State.wipeRegs]
@[simp] theorem wipeRegs_sys (s : State) (a n : Nat) : (s.wipeRegs a n).sys = s.sys := by simp only [State.wipeRegs]
@[simp] theorem wipeRegs_ka (s : State) (a n : Nat) : (s.wipeRegs a n).ka = s.ka := by simp only [State.wipeRegs]
@[simp] theorem wipeRegs_cyc (s : State) (a n : Nat) : (s.wipeRegs a n).cyc = s.cyc := by simp only [State.wipeRegs]
@[simp] theorem wipeRegs_str (s : State) (a n : Nat) : (s.wipeRegs a n).str = s.str := by simp only [State.wipeRegs]
@[simp] theorem wipeRegs_rings (s : State) (a n : Nat) : (s.wipeRegs a n).rings = s.rings := by simp only [State.wipeRegs]
@[simp] theorem wipeRegs_gens (s : State) (a n : Nat) : (s.wipeRegs a n).gens = s.gens := by simp only [State.wipeRegs]
@[simp] theorem wipeRegs_nv (s : State) (a n : Nat) : (s.wipeRegs a n).nv = s.nv := by simp only [State.wipeRegs]
@[simp] theorem wipeRegs_tms (s : State) (a n : Nat) : (s.wipeRegs a n).tms = s.tms := by simp only [State.wipeRegs]
@[simp] theorem wipeRegs_inp (s : State) (a n : Nat) : (s.wipeRegs a n).inp = s.inp := by simp only [State.wipeRegs]
@[simp] theorem wipeRegs_cle (s : State) (a n : Nat) : (s.wipeRegs a n).cle = s.cle := by simp only [State.wipeRegs]
@[simp] theorem wipeRegs_vdr (s : State) (a n : Nat) : (s.wipeRegs a n).vdr = s.vdr := by simp only [State.wipeRegs]
@[simp] theorem wipeRegs_stk (s : State) (a n : Nat) : (s.wipeRegs a n).stk = s.stk := by simp only [State.wipeRegs]
@[simp] theorem wipeRegs_saf (s : State) (a n : Nat) : (s.wipeRegs a n).saf = s.saf := by simp only [State.wipeRegs]
@[simp] theorem wipeRegs_gnb (s : State) (a n : Nat) : (s.wipeRegs a n).gnb = s.gnb := by simp only [State.wipeRegs]
@[simp] theorem wipeRegs_cam (s : State) (a n : Nat) : (s.wipeRegs a n).cam = s.cam := by simp only [State.wipeRegs]
@[simp] theorem wipeRegs_fen (s : State) (a n : Nat) : (s.wipeRegs a n).fen = s.fen := by simp only [State.wipeRegs]
@[simp] theorem wipeRegs_arb (s : State) (a n : Nat) : (s.wipeRegs a n).arb = s.arb := by simp only [State.wipeRegs]
@[simp] theorem wipeRegs_fus (s : State) (a n : Nat) : (s.wipeRegs a n).fus = s.fus := by simp only [State.wipeRegs]
@[simp] theorem wipeRegs_yld (s : State) (a n : Nat) : (s.wipeRegs a n).yld = s.yld := by simp only [State.wipeRegs]
@[simp] theorem wipeRegs_bus (s : State) (a n : Nat) : (s.wipeRegs a n).bus = s.bus := by simp only [State.wipeRegs]
@[simp] theorem wipeRegs_eth (s : State) (a n : Nat) : (s.wipeRegs a n).eth = s.eth := by simp only [State.wipeRegs]
@[simp] theorem wipeRegs_pair (s : State) (a n : Nat) : (s.wipeRegs a n).pair = s.pair := by simp only [State.wipeRegs]
@[simp] theorem wipeRegs_pnl (s : State) (a n : Nat) : (s.wipeRegs a n).pnl = s.pnl := by simp only [State.wipeRegs]
@[simp] theorem wipeRegs_rcd (s : State) (a n : Nat) : (s.wipeRegs a n).rcd = s.rcd := by simp only [State.wipeRegs]
@[simp] theorem wipeRegs_upd (s : State) (a n : Nat) : (s.wipeRegs a n).upd = s.upd := by simp only [State.wipeRegs]
@[simp] theorem wipeRegs_pending (s : State) (a n : Nat) : (s.wipeRegs a n).pending = s.pending := by simp only [State.wipeRegs]

/-! ### `wipeBlock` -/

@[simp] theorem wipeBlock_part (s : State) (b : Nat) : (s.wipeBlock b).part = s.part := by simp only [State.wipeBlock]
@[simp] theorem wipeBlock_ltc (s : State) (b : Nat) : (s.wipeBlock b).ltc = s.ltc := by simp only [State.wipeBlock]
@[simp] theorem wipeBlock_img (s : State) (b : Nat) : (s.wipeBlock b).img = s.img := by simp only [State.wipeBlock]
@[simp] theorem wipeBlock_access (s : State) (b : Nat) : (s.wipeBlock b).access = s.access := by simp only [State.wipeBlock]
@[simp] theorem wipeBlock_dram (s : State) (b : Nat) : (s.wipeBlock b).dram = s.dram := by simp only [State.wipeBlock]
@[simp] theorem wipeBlock_mram (s : State) (b : Nat) : (s.wipeBlock b).mram = s.mram := by simp only [State.wipeBlock]
@[simp] theorem wipeBlock_ufs (s : State) (b : Nat) : (s.wipeBlock b).ufs = s.ufs := by simp only [State.wipeBlock]
@[simp] theorem wipeBlock_free (s : State) (b : Nat) : (s.wipeBlock b).free = s.free := by simp only [State.wipeBlock]
@[simp] theorem wipeBlock_sys (s : State) (b : Nat) : (s.wipeBlock b).sys = s.sys := by simp only [State.wipeBlock]
@[simp] theorem wipeBlock_ka (s : State) (b : Nat) : (s.wipeBlock b).ka = s.ka := by simp only [State.wipeBlock]
@[simp] theorem wipeBlock_cyc (s : State) (b : Nat) : (s.wipeBlock b).cyc = s.cyc := by simp only [State.wipeBlock]
@[simp] theorem wipeBlock_str (s : State) (b : Nat) : (s.wipeBlock b).str = s.str := by simp only [State.wipeBlock]
@[simp] theorem wipeBlock_gens (s : State) (b : Nat) : (s.wipeBlock b).gens = s.gens := by simp only [State.wipeBlock]
@[simp] theorem wipeBlock_nv (s : State) (b : Nat) : (s.wipeBlock b).nv = s.nv := by simp only [State.wipeBlock]
@[simp] theorem wipeBlock_tms (s : State) (b : Nat) : (s.wipeBlock b).tms = s.tms := by simp only [State.wipeBlock]
@[simp] theorem wipeBlock_inp (s : State) (b : Nat) : (s.wipeBlock b).inp = s.inp := by simp only [State.wipeBlock]
@[simp] theorem wipeBlock_cle (s : State) (b : Nat) : (s.wipeBlock b).cle = s.cle := by simp only [State.wipeBlock]
@[simp] theorem wipeBlock_vdr (s : State) (b : Nat) : (s.wipeBlock b).vdr = s.vdr := by simp only [State.wipeBlock]
@[simp] theorem wipeBlock_stk (s : State) (b : Nat) : (s.wipeBlock b).stk = s.stk := by simp only [State.wipeBlock]
@[simp] theorem wipeBlock_saf (s : State) (b : Nat) : (s.wipeBlock b).saf = s.saf := by simp only [State.wipeBlock]
@[simp] theorem wipeBlock_gnb (s : State) (b : Nat) : (s.wipeBlock b).gnb = s.gnb := by simp only [State.wipeBlock]
@[simp] theorem wipeBlock_cam (s : State) (b : Nat) : (s.wipeBlock b).cam = s.cam := by simp only [State.wipeBlock]
@[simp] theorem wipeBlock_fen (s : State) (b : Nat) : (s.wipeBlock b).fen = s.fen := by simp only [State.wipeBlock]
@[simp] theorem wipeBlock_arb (s : State) (b : Nat) : (s.wipeBlock b).arb = s.arb := by simp only [State.wipeBlock]
@[simp] theorem wipeBlock_fus (s : State) (b : Nat) : (s.wipeBlock b).fus = s.fus := by simp only [State.wipeBlock]
@[simp] theorem wipeBlock_yld (s : State) (b : Nat) : (s.wipeBlock b).yld = s.yld := by simp only [State.wipeBlock]
@[simp] theorem wipeBlock_bus (s : State) (b : Nat) : (s.wipeBlock b).bus = s.bus := by simp only [State.wipeBlock]
@[simp] theorem wipeBlock_eth (s : State) (b : Nat) : (s.wipeBlock b).eth = s.eth := by simp only [State.wipeBlock]
@[simp] theorem wipeBlock_pair (s : State) (b : Nat) : (s.wipeBlock b).pair = s.pair := by simp only [State.wipeBlock]
@[simp] theorem wipeBlock_pnl (s : State) (b : Nat) : (s.wipeBlock b).pnl = s.pnl := by simp only [State.wipeBlock]
@[simp] theorem wipeBlock_rcd (s : State) (b : Nat) : (s.wipeBlock b).rcd = s.rcd := by simp only [State.wipeBlock]
@[simp] theorem wipeBlock_upd (s : State) (b : Nat) : (s.wipeBlock b).upd = s.upd := by simp only [State.wipeBlock]
@[simp] theorem wipeBlock_pending (s : State) (b : Nat) : (s.wipeBlock b).pending = s.pending := by simp only [State.wipeBlock]

/-! ### `enlist` -/

@[simp] theorem enlist_part (s : State) (b r opcode : Nat) (e : Entry) : (s.enlist b r opcode e).2.part = s.part := by simp only [State.enlist, setRing_part]
@[simp] theorem enlist_ltc (s : State) (b r opcode : Nat) (e : Entry) : (s.enlist b r opcode e).2.ltc = s.ltc := by simp only [State.enlist, setRing_ltc]
@[simp] theorem enlist_regs (s : State) (b r opcode : Nat) (e : Entry) : (s.enlist b r opcode e).2.regs = s.regs := by simp only [State.enlist, setRing_regs]
@[simp] theorem enlist_latch (s : State) (b r opcode : Nat) (e : Entry) : (s.enlist b r opcode e).2.latch = s.latch := by simp only [State.enlist, setRing_latch]
@[simp] theorem enlist_img (s : State) (b r opcode : Nat) (e : Entry) : (s.enlist b r opcode e).2.img = s.img := by simp only [State.enlist, setRing_img]
@[simp] theorem enlist_access (s : State) (b r opcode : Nat) (e : Entry) : (s.enlist b r opcode e).2.access = s.access := by simp only [State.enlist, setRing_access]
@[simp] theorem enlist_dram (s : State) (b r opcode : Nat) (e : Entry) : (s.enlist b r opcode e).2.dram = s.dram := by simp only [State.enlist, setRing_dram]
@[simp] theorem enlist_mram (s : State) (b r opcode : Nat) (e : Entry) : (s.enlist b r opcode e).2.mram = s.mram := by simp only [State.enlist, setRing_mram]
@[simp] theorem enlist_ufs (s : State) (b r opcode : Nat) (e : Entry) : (s.enlist b r opcode e).2.ufs = s.ufs := by simp only [State.enlist, setRing_ufs]
@[simp] theorem enlist_free (s : State) (b r opcode : Nat) (e : Entry) : (s.enlist b r opcode e).2.free = s.free := by simp only [State.enlist, setRing_free]
@[simp] theorem enlist_sys (s : State) (b r opcode : Nat) (e : Entry) : (s.enlist b r opcode e).2.sys = s.sys := by simp only [State.enlist, setRing_sys]
@[simp] theorem enlist_ka (s : State) (b r opcode : Nat) (e : Entry) : (s.enlist b r opcode e).2.ka = s.ka := by simp only [State.enlist, setRing_ka]
@[simp] theorem enlist_cyc (s : State) (b r opcode : Nat) (e : Entry) : (s.enlist b r opcode e).2.cyc = s.cyc := by simp only [State.enlist, setRing_cyc]
@[simp] theorem enlist_str (s : State) (b r opcode : Nat) (e : Entry) : (s.enlist b r opcode e).2.str = s.str := by simp only [State.enlist, setRing_str]
@[simp] theorem enlist_gens (s : State) (b r opcode : Nat) (e : Entry) : (s.enlist b r opcode e).2.gens = s.gens := by simp only [State.enlist, setRing_gens]
@[simp] theorem enlist_nv (s : State) (b r opcode : Nat) (e : Entry) : (s.enlist b r opcode e).2.nv = s.nv := by simp only [State.enlist, setRing_nv]
@[simp] theorem enlist_tms (s : State) (b r opcode : Nat) (e : Entry) : (s.enlist b r opcode e).2.tms = s.tms := by simp only [State.enlist, setRing_tms]
@[simp] theorem enlist_inp (s : State) (b r opcode : Nat) (e : Entry) : (s.enlist b r opcode e).2.inp = s.inp := by simp only [State.enlist, setRing_inp]
@[simp] theorem enlist_cle (s : State) (b r opcode : Nat) (e : Entry) : (s.enlist b r opcode e).2.cle = s.cle := by simp only [State.enlist, setRing_cle]
@[simp] theorem enlist_vdr (s : State) (b r opcode : Nat) (e : Entry) : (s.enlist b r opcode e).2.vdr = s.vdr := by simp only [State.enlist, setRing_vdr]
@[simp] theorem enlist_stk (s : State) (b r opcode : Nat) (e : Entry) : (s.enlist b r opcode e).2.stk = s.stk := by simp only [State.enlist, setRing_stk]
@[simp] theorem enlist_saf (s : State) (b r opcode : Nat) (e : Entry) : (s.enlist b r opcode e).2.saf = s.saf := by simp only [State.enlist, setRing_saf]
@[simp] theorem enlist_gnb (s : State) (b r opcode : Nat) (e : Entry) : (s.enlist b r opcode e).2.gnb = s.gnb := by simp only [State.enlist, setRing_gnb]
@[simp] theorem enlist_cam (s : State) (b r opcode : Nat) (e : Entry) : (s.enlist b r opcode e).2.cam = s.cam := by simp only [State.enlist, setRing_cam]
@[simp] theorem enlist_fen (s : State) (b r opcode : Nat) (e : Entry) : (s.enlist b r opcode e).2.fen = s.fen := by simp only [State.enlist, setRing_fen]
@[simp] theorem enlist_arb (s : State) (b r opcode : Nat) (e : Entry) : (s.enlist b r opcode e).2.arb = s.arb := by simp only [State.enlist, setRing_arb]
@[simp] theorem enlist_fus (s : State) (b r opcode : Nat) (e : Entry) : (s.enlist b r opcode e).2.fus = s.fus := by simp only [State.enlist, setRing_fus]
@[simp] theorem enlist_yld (s : State) (b r opcode : Nat) (e : Entry) : (s.enlist b r opcode e).2.yld = s.yld := by simp only [State.enlist, setRing_yld]
@[simp] theorem enlist_bus (s : State) (b r opcode : Nat) (e : Entry) : (s.enlist b r opcode e).2.bus = s.bus := by simp only [State.enlist, setRing_bus]
@[simp] theorem enlist_eth (s : State) (b r opcode : Nat) (e : Entry) : (s.enlist b r opcode e).2.eth = s.eth := by simp only [State.enlist, setRing_eth]
@[simp] theorem enlist_pair (s : State) (b r opcode : Nat) (e : Entry) : (s.enlist b r opcode e).2.pair = s.pair := by simp only [State.enlist, setRing_pair]
@[simp] theorem enlist_pnl (s : State) (b r opcode : Nat) (e : Entry) : (s.enlist b r opcode e).2.pnl = s.pnl := by simp only [State.enlist, setRing_pnl]
@[simp] theorem enlist_rcd (s : State) (b r opcode : Nat) (e : Entry) : (s.enlist b r opcode e).2.rcd = s.rcd := by simp only [State.enlist, setRing_rcd]
@[simp] theorem enlist_upd (s : State) (b r opcode : Nat) (e : Entry) : (s.enlist b r opcode e).2.upd = s.upd := by simp only [State.enlist, setRing_upd]
@[simp] theorem enlist_pending (s : State) (b r opcode : Nat) (e : Entry) : (s.enlist b r opcode e).2.pending = s.pending := by simp only [State.enlist, setRing_pending]

/-! ### `refEdge` -/

@[simp] theorem refEdge_part (s : State) : (s.refEdge).part = s.part := by unfold State.refEdge; split <;> rfl
@[simp] theorem refEdge_regs (s : State) : (s.refEdge).regs = s.regs := by unfold State.refEdge; split <;> rfl
@[simp] theorem refEdge_latch (s : State) : (s.refEdge).latch = s.latch := by unfold State.refEdge; split <;> rfl
@[simp] theorem refEdge_img (s : State) : (s.refEdge).img = s.img := by unfold State.refEdge; split <;> rfl
@[simp] theorem refEdge_access (s : State) : (s.refEdge).access = s.access := by unfold State.refEdge; split <;> rfl
@[simp] theorem refEdge_dram (s : State) : (s.refEdge).dram = s.dram := by unfold State.refEdge; split <;> rfl
@[simp] theorem refEdge_mram (s : State) : (s.refEdge).mram = s.mram := by unfold State.refEdge; split <;> rfl
@[simp] theorem refEdge_ufs (s : State) : (s.refEdge).ufs = s.ufs := by unfold State.refEdge; split <;> rfl
@[simp] theorem refEdge_free (s : State) : (s.refEdge).free = s.free := by unfold State.refEdge; split <;> rfl
@[simp] theorem refEdge_sys (s : State) : (s.refEdge).sys = s.sys := by unfold State.refEdge; split <;> rfl
@[simp] theorem refEdge_ka (s : State) : (s.refEdge).ka = s.ka := by unfold State.refEdge; split <;> rfl
@[simp] theorem refEdge_cyc (s : State) : (s.refEdge).cyc = s.cyc := by unfold State.refEdge; split <;> rfl
@[simp] theorem refEdge_str (s : State) : (s.refEdge).str = s.str := by unfold State.refEdge; split <;> rfl
@[simp] theorem refEdge_rings (s : State) : (s.refEdge).rings = s.rings := by unfold State.refEdge; split <;> rfl
@[simp] theorem refEdge_gens (s : State) : (s.refEdge).gens = s.gens := by unfold State.refEdge; split <;> rfl
@[simp] theorem refEdge_nv (s : State) : (s.refEdge).nv = s.nv := by unfold State.refEdge; split <;> rfl
@[simp] theorem refEdge_tms (s : State) : (s.refEdge).tms = s.tms := by unfold State.refEdge; split <;> rfl
@[simp] theorem refEdge_inp (s : State) : (s.refEdge).inp = s.inp := by unfold State.refEdge; split <;> rfl
@[simp] theorem refEdge_cle (s : State) : (s.refEdge).cle = s.cle := by unfold State.refEdge; split <;> rfl
@[simp] theorem refEdge_vdr (s : State) : (s.refEdge).vdr = s.vdr := by unfold State.refEdge; split <;> rfl
@[simp] theorem refEdge_stk (s : State) : (s.refEdge).stk = s.stk := by unfold State.refEdge; split <;> rfl
@[simp] theorem refEdge_saf (s : State) : (s.refEdge).saf = s.saf := by unfold State.refEdge; split <;> rfl
@[simp] theorem refEdge_gnb (s : State) : (s.refEdge).gnb = s.gnb := by unfold State.refEdge; split <;> rfl
@[simp] theorem refEdge_cam (s : State) : (s.refEdge).cam = s.cam := by unfold State.refEdge; split <;> rfl
@[simp] theorem refEdge_fen (s : State) : (s.refEdge).fen = s.fen := by unfold State.refEdge; split <;> rfl
@[simp] theorem refEdge_arb (s : State) : (s.refEdge).arb = s.arb := by unfold State.refEdge; split <;> rfl
@[simp] theorem refEdge_fus (s : State) : (s.refEdge).fus = s.fus := by unfold State.refEdge; split <;> rfl
@[simp] theorem refEdge_yld (s : State) : (s.refEdge).yld = s.yld := by unfold State.refEdge; split <;> rfl
@[simp] theorem refEdge_bus (s : State) : (s.refEdge).bus = s.bus := by unfold State.refEdge; split <;> rfl
@[simp] theorem refEdge_eth (s : State) : (s.refEdge).eth = s.eth := by unfold State.refEdge; split <;> rfl
@[simp] theorem refEdge_pair (s : State) : (s.refEdge).pair = s.pair := by unfold State.refEdge; split <;> rfl
@[simp] theorem refEdge_pnl (s : State) : (s.refEdge).pnl = s.pnl := by unfold State.refEdge; split <;> rfl
@[simp] theorem refEdge_rcd (s : State) : (s.refEdge).rcd = s.rcd := by unfold State.refEdge; split <;> rfl
@[simp] theorem refEdge_upd (s : State) : (s.refEdge).upd = s.upd := by unfold State.refEdge; split <;> rfl
@[simp] theorem refEdge_pending (s : State) : (s.refEdge).pending = s.pending := by unfold State.refEdge; split <;> rfl

/-! ### `noteRaise` -/

@[simp] theorem noteRaise_part (s : State) (n l : Nat) (b : Bool) : (s.noteRaise n l b).part = s.part := by simp only [State.noteRaise]
@[simp] theorem noteRaise_ltc (s : State) (n l : Nat) (b : Bool) : (s.noteRaise n l b).ltc = s.ltc := by simp only [State.noteRaise]
@[simp] theorem noteRaise_regs (s : State) (n l : Nat) (b : Bool) : (s.noteRaise n l b).regs = s.regs := by simp only [State.noteRaise]
@[simp] theorem noteRaise_latch (s : State) (n l : Nat) (b : Bool) : (s.noteRaise n l b).latch = s.latch := by simp only [State.noteRaise]
@[simp] theorem noteRaise_img (s : State) (n l : Nat) (b : Bool) : (s.noteRaise n l b).img = s.img := by simp only [State.noteRaise]
@[simp] theorem noteRaise_access (s : State) (n l : Nat) (b : Bool) : (s.noteRaise n l b).access = s.access := by simp only [State.noteRaise]
@[simp] theorem noteRaise_dram (s : State) (n l : Nat) (b : Bool) : (s.noteRaise n l b).dram = s.dram := by simp only [State.noteRaise]
@[simp] theorem noteRaise_mram (s : State) (n l : Nat) (b : Bool) : (s.noteRaise n l b).mram = s.mram := by simp only [State.noteRaise]
@[simp] theorem noteRaise_ufs (s : State) (n l : Nat) (b : Bool) : (s.noteRaise n l b).ufs = s.ufs := by simp only [State.noteRaise]
@[simp] theorem noteRaise_free (s : State) (n l : Nat) (b : Bool) : (s.noteRaise n l b).free = s.free := by simp only [State.noteRaise]
@[simp] theorem noteRaise_sys (s : State) (n l : Nat) (b : Bool) : (s.noteRaise n l b).sys = s.sys := by simp only [State.noteRaise]
@[simp] theorem noteRaise_ka (s : State) (n l : Nat) (b : Bool) : (s.noteRaise n l b).ka = s.ka := by simp only [State.noteRaise]
@[simp] theorem noteRaise_str (s : State) (n l : Nat) (b : Bool) : (s.noteRaise n l b).str = s.str := by simp only [State.noteRaise]
@[simp] theorem noteRaise_rings (s : State) (n l : Nat) (b : Bool) : (s.noteRaise n l b).rings = s.rings := by simp only [State.noteRaise]
@[simp] theorem noteRaise_gens (s : State) (n l : Nat) (b : Bool) : (s.noteRaise n l b).gens = s.gens := by simp only [State.noteRaise]
@[simp] theorem noteRaise_nv (s : State) (n l : Nat) (b : Bool) : (s.noteRaise n l b).nv = s.nv := by simp only [State.noteRaise]
@[simp] theorem noteRaise_tms (s : State) (n l : Nat) (b : Bool) : (s.noteRaise n l b).tms = s.tms := by simp only [State.noteRaise]
@[simp] theorem noteRaise_inp (s : State) (n l : Nat) (b : Bool) : (s.noteRaise n l b).inp = s.inp := by simp only [State.noteRaise]
@[simp] theorem noteRaise_cle (s : State) (n l : Nat) (b : Bool) : (s.noteRaise n l b).cle = s.cle := by simp only [State.noteRaise]
@[simp] theorem noteRaise_vdr (s : State) (n l : Nat) (b : Bool) : (s.noteRaise n l b).vdr = s.vdr := by simp only [State.noteRaise]
@[simp] theorem noteRaise_stk (s : State) (n l : Nat) (b : Bool) : (s.noteRaise n l b).stk = s.stk := by simp only [State.noteRaise]
@[simp] theorem noteRaise_saf (s : State) (n l : Nat) (b : Bool) : (s.noteRaise n l b).saf = s.saf := by simp only [State.noteRaise]
@[simp] theorem noteRaise_gnb (s : State) (n l : Nat) (b : Bool) : (s.noteRaise n l b).gnb = s.gnb := by simp only [State.noteRaise]
@[simp] theorem noteRaise_cam (s : State) (n l : Nat) (b : Bool) : (s.noteRaise n l b).cam = s.cam := by simp only [State.noteRaise]
@[simp] theorem noteRaise_fen (s : State) (n l : Nat) (b : Bool) : (s.noteRaise n l b).fen = s.fen := by simp only [State.noteRaise]
@[simp] theorem noteRaise_arb (s : State) (n l : Nat) (b : Bool) : (s.noteRaise n l b).arb = s.arb := by simp only [State.noteRaise]
@[simp] theorem noteRaise_fus (s : State) (n l : Nat) (b : Bool) : (s.noteRaise n l b).fus = s.fus := by simp only [State.noteRaise]
@[simp] theorem noteRaise_yld (s : State) (n l : Nat) (b : Bool) : (s.noteRaise n l b).yld = s.yld := by simp only [State.noteRaise]
@[simp] theorem noteRaise_bus (s : State) (n l : Nat) (b : Bool) : (s.noteRaise n l b).bus = s.bus := by simp only [State.noteRaise]
@[simp] theorem noteRaise_eth (s : State) (n l : Nat) (b : Bool) : (s.noteRaise n l b).eth = s.eth := by simp only [State.noteRaise]
@[simp] theorem noteRaise_pair (s : State) (n l : Nat) (b : Bool) : (s.noteRaise n l b).pair = s.pair := by simp only [State.noteRaise]
@[simp] theorem noteRaise_pnl (s : State) (n l : Nat) (b : Bool) : (s.noteRaise n l b).pnl = s.pnl := by simp only [State.noteRaise]
@[simp] theorem noteRaise_rcd (s : State) (n l : Nat) (b : Bool) : (s.noteRaise n l b).rcd = s.rcd := by simp only [State.noteRaise]
@[simp] theorem noteRaise_upd (s : State) (n l : Nat) (b : Bool) : (s.noteRaise n l b).upd = s.upd := by simp only [State.noteRaise]
@[simp] theorem noteRaise_pending (s : State) (n l : Nat) (b : Bool) : (s.noteRaise n l b).pending = s.pending := by simp only [State.noteRaise]

/-! ### `blockPuts` -/

@[simp] theorem blockPuts_part (s : State) (b a : Nat) (bs : List Byte) : (s.blockPuts b a bs).part = s.part := by unfold State.blockPuts; split <;> simp only [dramPuts_part]
@[simp] theorem blockPuts_ltc (s : State) (b a : Nat) (bs : List Byte) : (s.blockPuts b a bs).ltc = s.ltc := by unfold State.blockPuts; split <;> simp only [dramPuts_ltc]
@[simp] theorem blockPuts_regs (s : State) (b a : Nat) (bs : List Byte) : (s.blockPuts b a bs).regs = s.regs := by unfold State.blockPuts; split <;> simp only [dramPuts_regs]
@[simp] theorem blockPuts_latch (s : State) (b a : Nat) (bs : List Byte) : (s.blockPuts b a bs).latch = s.latch := by unfold State.blockPuts; split <;> simp only [dramPuts_latch]
@[simp] theorem blockPuts_img (s : State) (b a : Nat) (bs : List Byte) : (s.blockPuts b a bs).img = s.img := by unfold State.blockPuts; split <;> simp only [dramPuts_img]
@[simp] theorem blockPuts_access (s : State) (b a : Nat) (bs : List Byte) : (s.blockPuts b a bs).access = s.access := by unfold State.blockPuts; split <;> simp only [dramPuts_access]
@[simp] theorem blockPuts_mram (s : State) (b a : Nat) (bs : List Byte) : (s.blockPuts b a bs).mram = s.mram := by unfold State.blockPuts; split <;> simp only [dramPuts_mram]
@[simp] theorem blockPuts_ufs (s : State) (b a : Nat) (bs : List Byte) : (s.blockPuts b a bs).ufs = s.ufs := by unfold State.blockPuts; split <;> simp only [dramPuts_ufs]
@[simp] theorem blockPuts_free (s : State) (b a : Nat) (bs : List Byte) : (s.blockPuts b a bs).free = s.free := by unfold State.blockPuts; split <;> simp only [dramPuts_free]
@[simp] theorem blockPuts_sys (s : State) (b a : Nat) (bs : List Byte) : (s.blockPuts b a bs).sys = s.sys := by unfold State.blockPuts; split <;> simp only [dramPuts_sys]
@[simp] theorem blockPuts_ka (s : State) (b a : Nat) (bs : List Byte) : (s.blockPuts b a bs).ka = s.ka := by unfold State.blockPuts; split <;> simp only [dramPuts_ka]
@[simp] theorem blockPuts_cyc (s : State) (b a : Nat) (bs : List Byte) : (s.blockPuts b a bs).cyc = s.cyc := by unfold State.blockPuts; split <;> simp only [dramPuts_cyc]
@[simp] theorem blockPuts_str (s : State) (b a : Nat) (bs : List Byte) : (s.blockPuts b a bs).str = s.str := by unfold State.blockPuts; split <;> simp only [dramPuts_str]
@[simp] theorem blockPuts_rings (s : State) (b a : Nat) (bs : List Byte) : (s.blockPuts b a bs).rings = s.rings := by unfold State.blockPuts; split <;> simp only [dramPuts_rings]
@[simp] theorem blockPuts_gens (s : State) (b a : Nat) (bs : List Byte) : (s.blockPuts b a bs).gens = s.gens := by unfold State.blockPuts; split <;> simp only [dramPuts_gens]
@[simp] theorem blockPuts_nv (s : State) (b a : Nat) (bs : List Byte) : (s.blockPuts b a bs).nv = s.nv := by unfold State.blockPuts; split <;> simp only [dramPuts_nv]
@[simp] theorem blockPuts_tms (s : State) (b a : Nat) (bs : List Byte) : (s.blockPuts b a bs).tms = s.tms := by unfold State.blockPuts; split <;> simp only [dramPuts_tms]
@[simp] theorem blockPuts_inp (s : State) (b a : Nat) (bs : List Byte) : (s.blockPuts b a bs).inp = s.inp := by unfold State.blockPuts; split <;> simp only [dramPuts_inp]
@[simp] theorem blockPuts_cle (s : State) (b a : Nat) (bs : List Byte) : (s.blockPuts b a bs).cle = s.cle := by unfold State.blockPuts; split <;> simp only [dramPuts_cle]
@[simp] theorem blockPuts_vdr (s : State) (b a : Nat) (bs : List Byte) : (s.blockPuts b a bs).vdr = s.vdr := by unfold State.blockPuts; split <;> simp only [dramPuts_vdr]
@[simp] theorem blockPuts_stk (s : State) (b a : Nat) (bs : List Byte) : (s.blockPuts b a bs).stk = s.stk := by unfold State.blockPuts; split <;> simp only [dramPuts_stk]
@[simp] theorem blockPuts_saf (s : State) (b a : Nat) (bs : List Byte) : (s.blockPuts b a bs).saf = s.saf := by unfold State.blockPuts; split <;> simp only [dramPuts_saf]
@[simp] theorem blockPuts_gnb (s : State) (b a : Nat) (bs : List Byte) : (s.blockPuts b a bs).gnb = s.gnb := by unfold State.blockPuts; split <;> simp only [dramPuts_gnb]
@[simp] theorem blockPuts_cam (s : State) (b a : Nat) (bs : List Byte) : (s.blockPuts b a bs).cam = s.cam := by unfold State.blockPuts; split <;> simp only [dramPuts_cam]
@[simp] theorem blockPuts_fen (s : State) (b a : Nat) (bs : List Byte) : (s.blockPuts b a bs).fen = s.fen := by unfold State.blockPuts; split <;> simp only [dramPuts_fen]
@[simp] theorem blockPuts_arb (s : State) (b a : Nat) (bs : List Byte) : (s.blockPuts b a bs).arb = s.arb := by unfold State.blockPuts; split <;> simp only [dramPuts_arb]
@[simp] theorem blockPuts_fus (s : State) (b a : Nat) (bs : List Byte) : (s.blockPuts b a bs).fus = s.fus := by unfold State.blockPuts; split <;> simp only [dramPuts_fus]
@[simp] theorem blockPuts_yld (s : State) (b a : Nat) (bs : List Byte) : (s.blockPuts b a bs).yld = s.yld := by unfold State.blockPuts; split <;> simp only [dramPuts_yld]
@[simp] theorem blockPuts_bus (s : State) (b a : Nat) (bs : List Byte) : (s.blockPuts b a bs).bus = s.bus := by unfold State.blockPuts; split <;> simp only [dramPuts_bus]
@[simp] theorem blockPuts_eth (s : State) (b a : Nat) (bs : List Byte) : (s.blockPuts b a bs).eth = s.eth := by unfold State.blockPuts; split <;> simp only [dramPuts_eth]
@[simp] theorem blockPuts_pair (s : State) (b a : Nat) (bs : List Byte) : (s.blockPuts b a bs).pair = s.pair := by unfold State.blockPuts; split <;> simp only [dramPuts_pair]
@[simp] theorem blockPuts_pnl (s : State) (b a : Nat) (bs : List Byte) : (s.blockPuts b a bs).pnl = s.pnl := by unfold State.blockPuts; split <;> simp only [dramPuts_pnl]
@[simp] theorem blockPuts_rcd (s : State) (b a : Nat) (bs : List Byte) : (s.blockPuts b a bs).rcd = s.rcd := by unfold State.blockPuts; split <;> simp only [dramPuts_rcd]
@[simp] theorem blockPuts_upd (s : State) (b a : Nat) (bs : List Byte) : (s.blockPuts b a bs).upd = s.upd := by unfold State.blockPuts; split <;> simp only [dramPuts_upd]
@[simp] theorem blockPuts_pending (s : State) (b a : Nat) (bs : List Byte) : (s.blockPuts b a bs).pending = s.pending := by unfold State.blockPuts; split <;> simp only [dramPuts_pending]

/-! ### `restSpacing` -/

@[simp] theorem restSpacing_part (s : State) (b r opcode : Nat) : (s.restSpacing b r opcode).part = s.part := by simp only [State.restSpacing, setRing_part]
@[simp] theorem restSpacing_ltc (s : State) (b r opcode : Nat) : (s.restSpacing b r opcode).ltc = s.ltc := by simp only [State.restSpacing, setRing_ltc]
@[simp] theorem restSpacing_regs (s : State) (b r opcode : Nat) : (s.restSpacing b r opcode).regs = s.regs := by simp only [State.restSpacing, setRing_regs]
@[simp] theorem restSpacing_latch (s : State) (b r opcode : Nat) : (s.restSpacing b r opcode).latch = s.latch := by simp only [State.restSpacing, setRing_latch]
@[simp] theorem restSpacing_img (s : State) (b r opcode : Nat) : (s.restSpacing b r opcode).img = s.img := by simp only [State.restSpacing, setRing_img]
@[simp] theorem restSpacing_access (s : State) (b r opcode : Nat) : (s.restSpacing b r opcode).access = s.access := by simp only [State.restSpacing, setRing_access]
@[simp] theorem restSpacing_dram (s : State) (b r opcode : Nat) : (s.restSpacing b r opcode).dram = s.dram := by simp only [State.restSpacing, setRing_dram]
@[simp] theorem restSpacing_mram (s : State) (b r opcode : Nat) : (s.restSpacing b r opcode).mram = s.mram := by simp only [State.restSpacing, setRing_mram]
@[simp] theorem restSpacing_ufs (s : State) (b r opcode : Nat) : (s.restSpacing b r opcode).ufs = s.ufs := by simp only [State.restSpacing, setRing_ufs]
@[simp] theorem restSpacing_free (s : State) (b r opcode : Nat) : (s.restSpacing b r opcode).free = s.free := by simp only [State.restSpacing, setRing_free]
@[simp] theorem restSpacing_sys (s : State) (b r opcode : Nat) : (s.restSpacing b r opcode).sys = s.sys := by simp only [State.restSpacing, setRing_sys]
@[simp] theorem restSpacing_ka (s : State) (b r opcode : Nat) : (s.restSpacing b r opcode).ka = s.ka := by simp only [State.restSpacing, setRing_ka]
@[simp] theorem restSpacing_cyc (s : State) (b r opcode : Nat) : (s.restSpacing b r opcode).cyc = s.cyc := by simp only [State.restSpacing, setRing_cyc]
@[simp] theorem restSpacing_str (s : State) (b r opcode : Nat) : (s.restSpacing b r opcode).str = s.str := by simp only [State.restSpacing, setRing_str]
@[simp] theorem restSpacing_gens (s : State) (b r opcode : Nat) : (s.restSpacing b r opcode).gens = s.gens := by simp only [State.restSpacing, setRing_gens]
@[simp] theorem restSpacing_nv (s : State) (b r opcode : Nat) : (s.restSpacing b r opcode).nv = s.nv := by simp only [State.restSpacing, setRing_nv]
@[simp] theorem restSpacing_tms (s : State) (b r opcode : Nat) : (s.restSpacing b r opcode).tms = s.tms := by simp only [State.restSpacing, setRing_tms]
@[simp] theorem restSpacing_inp (s : State) (b r opcode : Nat) : (s.restSpacing b r opcode).inp = s.inp := by simp only [State.restSpacing, setRing_inp]
@[simp] theorem restSpacing_cle (s : State) (b r opcode : Nat) : (s.restSpacing b r opcode).cle = s.cle := by simp only [State.restSpacing, setRing_cle]
@[simp] theorem restSpacing_vdr (s : State) (b r opcode : Nat) : (s.restSpacing b r opcode).vdr = s.vdr := by simp only [State.restSpacing, setRing_vdr]
@[simp] theorem restSpacing_stk (s : State) (b r opcode : Nat) : (s.restSpacing b r opcode).stk = s.stk := by simp only [State.restSpacing, setRing_stk]
@[simp] theorem restSpacing_saf (s : State) (b r opcode : Nat) : (s.restSpacing b r opcode).saf = s.saf := by simp only [State.restSpacing, setRing_saf]
@[simp] theorem restSpacing_gnb (s : State) (b r opcode : Nat) : (s.restSpacing b r opcode).gnb = s.gnb := by simp only [State.restSpacing, setRing_gnb]
@[simp] theorem restSpacing_cam (s : State) (b r opcode : Nat) : (s.restSpacing b r opcode).cam = s.cam := by simp only [State.restSpacing, setRing_cam]
@[simp] theorem restSpacing_fen (s : State) (b r opcode : Nat) : (s.restSpacing b r opcode).fen = s.fen := by simp only [State.restSpacing, setRing_fen]
@[simp] theorem restSpacing_arb (s : State) (b r opcode : Nat) : (s.restSpacing b r opcode).arb = s.arb := by simp only [State.restSpacing, setRing_arb]
@[simp] theorem restSpacing_fus (s : State) (b r opcode : Nat) : (s.restSpacing b r opcode).fus = s.fus := by simp only [State.restSpacing, setRing_fus]
@[simp] theorem restSpacing_yld (s : State) (b r opcode : Nat) : (s.restSpacing b r opcode).yld = s.yld := by simp only [State.restSpacing, setRing_yld]
@[simp] theorem restSpacing_bus (s : State) (b r opcode : Nat) : (s.restSpacing b r opcode).bus = s.bus := by simp only [State.restSpacing, setRing_bus]
@[simp] theorem restSpacing_eth (s : State) (b r opcode : Nat) : (s.restSpacing b r opcode).eth = s.eth := by simp only [State.restSpacing, setRing_eth]
@[simp] theorem restSpacing_pair (s : State) (b r opcode : Nat) : (s.restSpacing b r opcode).pair = s.pair := by simp only [State.restSpacing, setRing_pair]
@[simp] theorem restSpacing_pnl (s : State) (b r opcode : Nat) : (s.restSpacing b r opcode).pnl = s.pnl := by simp only [State.restSpacing, setRing_pnl]
@[simp] theorem restSpacing_rcd (s : State) (b r opcode : Nat) : (s.restSpacing b r opcode).rcd = s.rcd := by simp only [State.restSpacing, setRing_rcd]
@[simp] theorem restSpacing_upd (s : State) (b r opcode : Nat) : (s.restSpacing b r opcode).upd = s.upd := by simp only [State.restSpacing, setRing_upd]
@[simp] theorem restSpacing_pending (s : State) (b r opcode : Nat) : (s.restSpacing b r opcode).pending = s.pending := by simp only [State.restSpacing, setRing_pending]

/-! ### `rcdRaise` -/

@[simp] theorem rcdRaise_part (s : State) (n l : Nat) : (s.rcdRaise n l).part = s.part := by unfold State.rcdRaise; split <;> rfl
@[simp] theorem rcdRaise_ltc (s : State) (n l : Nat) : (s.rcdRaise n l).ltc = s.ltc := by unfold State.rcdRaise; split <;> rfl
@[simp] theorem rcdRaise_regs (s : State) (n l : Nat) : (s.rcdRaise n l).regs = s.regs := by unfold State.rcdRaise; split <;> rfl
@[simp] theorem rcdRaise_latch (s : State) (n l : Nat) : (s.rcdRaise n l).latch = s.latch := by unfold State.rcdRaise; split <;> rfl
@[simp] theorem rcdRaise_img (s : State) (n l : Nat) : (s.rcdRaise n l).img = s.img := by unfold State.rcdRaise; split <;> rfl
@[simp] theorem rcdRaise_access (s : State) (n l : Nat) : (s.rcdRaise n l).access = s.access := by unfold State.rcdRaise; split <;> rfl
@[simp] theorem rcdRaise_dram (s : State) (n l : Nat) : (s.rcdRaise n l).dram = s.dram := by unfold State.rcdRaise; split <;> rfl
@[simp] theorem rcdRaise_mram (s : State) (n l : Nat) : (s.rcdRaise n l).mram = s.mram := by unfold State.rcdRaise; split <;> rfl
@[simp] theorem rcdRaise_ufs (s : State) (n l : Nat) : (s.rcdRaise n l).ufs = s.ufs := by unfold State.rcdRaise; split <;> rfl
@[simp] theorem rcdRaise_free (s : State) (n l : Nat) : (s.rcdRaise n l).free = s.free := by unfold State.rcdRaise; split <;> rfl
@[simp] theorem rcdRaise_sys (s : State) (n l : Nat) : (s.rcdRaise n l).sys = s.sys := by unfold State.rcdRaise; split <;> rfl
@[simp] theorem rcdRaise_ka (s : State) (n l : Nat) : (s.rcdRaise n l).ka = s.ka := by unfold State.rcdRaise; split <;> rfl
@[simp] theorem rcdRaise_cyc (s : State) (n l : Nat) : (s.rcdRaise n l).cyc = s.cyc := by unfold State.rcdRaise; split <;> rfl
@[simp] theorem rcdRaise_str (s : State) (n l : Nat) : (s.rcdRaise n l).str = s.str := by unfold State.rcdRaise; split <;> rfl
@[simp] theorem rcdRaise_rings (s : State) (n l : Nat) : (s.rcdRaise n l).rings = s.rings := by unfold State.rcdRaise; split <;> rfl
@[simp] theorem rcdRaise_gens (s : State) (n l : Nat) : (s.rcdRaise n l).gens = s.gens := by unfold State.rcdRaise; split <;> rfl
@[simp] theorem rcdRaise_nv (s : State) (n l : Nat) : (s.rcdRaise n l).nv = s.nv := by unfold State.rcdRaise; split <;> rfl
@[simp] theorem rcdRaise_tms (s : State) (n l : Nat) : (s.rcdRaise n l).tms = s.tms := by unfold State.rcdRaise; split <;> rfl
@[simp] theorem rcdRaise_inp (s : State) (n l : Nat) : (s.rcdRaise n l).inp = s.inp := by unfold State.rcdRaise; split <;> rfl
@[simp] theorem rcdRaise_cle (s : State) (n l : Nat) : (s.rcdRaise n l).cle = s.cle := by unfold State.rcdRaise; split <;> rfl
@[simp] theorem rcdRaise_vdr (s : State) (n l : Nat) : (s.rcdRaise n l).vdr = s.vdr := by unfold State.rcdRaise; split <;> rfl
@[simp] theorem rcdRaise_stk (s : State) (n l : Nat) : (s.rcdRaise n l).stk = s.stk := by unfold State.rcdRaise; split <;> rfl
@[simp] theorem rcdRaise_saf (s : State) (n l : Nat) : (s.rcdRaise n l).saf = s.saf := by unfold State.rcdRaise; split <;> rfl
@[simp] theorem rcdRaise_gnb (s : State) (n l : Nat) : (s.rcdRaise n l).gnb = s.gnb := by unfold State.rcdRaise; split <;> rfl
@[simp] theorem rcdRaise_cam (s : State) (n l : Nat) : (s.rcdRaise n l).cam = s.cam := by unfold State.rcdRaise; split <;> rfl
@[simp] theorem rcdRaise_fen (s : State) (n l : Nat) : (s.rcdRaise n l).fen = s.fen := by unfold State.rcdRaise; split <;> rfl
@[simp] theorem rcdRaise_arb (s : State) (n l : Nat) : (s.rcdRaise n l).arb = s.arb := by unfold State.rcdRaise; split <;> rfl
@[simp] theorem rcdRaise_fus (s : State) (n l : Nat) : (s.rcdRaise n l).fus = s.fus := by unfold State.rcdRaise; split <;> rfl
@[simp] theorem rcdRaise_yld (s : State) (n l : Nat) : (s.rcdRaise n l).yld = s.yld := by unfold State.rcdRaise; split <;> rfl
@[simp] theorem rcdRaise_bus (s : State) (n l : Nat) : (s.rcdRaise n l).bus = s.bus := by unfold State.rcdRaise; split <;> rfl
@[simp] theorem rcdRaise_eth (s : State) (n l : Nat) : (s.rcdRaise n l).eth = s.eth := by unfold State.rcdRaise; split <;> rfl
@[simp] theorem rcdRaise_pair (s : State) (n l : Nat) : (s.rcdRaise n l).pair = s.pair := by unfold State.rcdRaise; split <;> rfl
@[simp] theorem rcdRaise_pnl (s : State) (n l : Nat) : (s.rcdRaise n l).pnl = s.pnl := by unfold State.rcdRaise; split <;> rfl
@[simp] theorem rcdRaise_upd (s : State) (n l : Nat) : (s.rcdRaise n l).upd = s.upd := by unfold State.rcdRaise; split <;> rfl
@[simp] theorem rcdRaise_pending (s : State) (n l : Nat) : (s.rcdRaise n l).pending = s.pending := by unfold State.rcdRaise; split <;> rfl

/-! ### `raiseAt` -/

@[simp] theorem raiseAt_part (s : State) (n l : Nat) : (s.raiseAt n l).part = s.part := by
  unfold State.raiseAt; dsimp only; split <;> (try split) <;> (try split) <;> simp only [set64_part, setB_part, noteRaise_part, rcdRaise_part]
@[simp] theorem raiseAt_ltc (s : State) (n l : Nat) : (s.raiseAt n l).ltc = s.ltc := by
  unfold State.raiseAt; dsimp only; split <;> (try split) <;> (try split) <;> simp only [set64_ltc, setB_ltc, noteRaise_ltc, rcdRaise_ltc]
@[simp] theorem raiseAt_latch (s : State) (n l : Nat) : (s.raiseAt n l).latch = s.latch := by
  unfold State.raiseAt; dsimp only; split <;> (try split) <;> (try split) <;> simp only [set64_latch, setB_latch, noteRaise_latch, rcdRaise_latch]
@[simp] theorem raiseAt_img (s : State) (n l : Nat) : (s.raiseAt n l).img = s.img := by
  unfold State.raiseAt; dsimp only; split <;> (try split) <;> (try split) <;> simp only [set64_img, setB_img, noteRaise_img, rcdRaise_img]
@[simp] theorem raiseAt_access (s : State) (n l : Nat) : (s.raiseAt n l).access = s.access := by
  unfold State.raiseAt; dsimp only; split <;> (try split) <;> (try split) <;> simp only [set64_access, setB_access, noteRaise_access, rcdRaise_access]
@[simp] theorem raiseAt_dram (s : State) (n l : Nat) : (s.raiseAt n l).dram = s.dram := by
  unfold State.raiseAt; dsimp only; split <;> (try split) <;> (try split) <;> simp only [set64_dram, setB_dram, noteRaise_dram, rcdRaise_dram]
@[simp] theorem raiseAt_mram (s : State) (n l : Nat) : (s.raiseAt n l).mram = s.mram := by
  unfold State.raiseAt; dsimp only; split <;> (try split) <;> (try split) <;> simp only [set64_mram, setB_mram, noteRaise_mram, rcdRaise_mram]
@[simp] theorem raiseAt_ufs (s : State) (n l : Nat) : (s.raiseAt n l).ufs = s.ufs := by
  unfold State.raiseAt; dsimp only; split <;> (try split) <;> (try split) <;> simp only [set64_ufs, setB_ufs, noteRaise_ufs, rcdRaise_ufs]
@[simp] theorem raiseAt_free (s : State) (n l : Nat) : (s.raiseAt n l).free = s.free := by
  unfold State.raiseAt; dsimp only; split <;> (try split) <;> (try split) <;> simp only [set64_free, setB_free, noteRaise_free, rcdRaise_free]
@[simp] theorem raiseAt_sys (s : State) (n l : Nat) : (s.raiseAt n l).sys = s.sys := by
  unfold State.raiseAt; dsimp only; split <;> (try split) <;> (try split) <;> simp only [set64_sys, setB_sys, noteRaise_sys, rcdRaise_sys]
@[simp] theorem raiseAt_ka (s : State) (n l : Nat) : (s.raiseAt n l).ka = s.ka := by
  unfold State.raiseAt; dsimp only; split <;> (try split) <;> (try split) <;> simp only [set64_ka, setB_ka, noteRaise_ka, rcdRaise_ka]
@[simp] theorem raiseAt_str (s : State) (n l : Nat) : (s.raiseAt n l).str = s.str := by
  unfold State.raiseAt; dsimp only; split <;> (try split) <;> (try split) <;> simp only [set64_str, setB_str, noteRaise_str, rcdRaise_str]
@[simp] theorem raiseAt_rings (s : State) (n l : Nat) : (s.raiseAt n l).rings = s.rings := by
  unfold State.raiseAt; dsimp only; split <;> (try split) <;> (try split) <;> simp only [set64_rings, setB_rings, noteRaise_rings, rcdRaise_rings]
@[simp] theorem raiseAt_gens (s : State) (n l : Nat) : (s.raiseAt n l).gens = s.gens := by
  unfold State.raiseAt; dsimp only; split <;> (try split) <;> (try split) <;> simp only [set64_gens, setB_gens, noteRaise_gens, rcdRaise_gens]
@[simp] theorem raiseAt_nv (s : State) (n l : Nat) : (s.raiseAt n l).nv = s.nv := by
  unfold State.raiseAt; dsimp only; split <;> (try split) <;> (try split) <;> simp only [set64_nv, setB_nv, noteRaise_nv, rcdRaise_nv]
@[simp] theorem raiseAt_tms (s : State) (n l : Nat) : (s.raiseAt n l).tms = s.tms := by
  unfold State.raiseAt; dsimp only; split <;> (try split) <;> (try split) <;> simp only [set64_tms, setB_tms, noteRaise_tms, rcdRaise_tms]
@[simp] theorem raiseAt_inp (s : State) (n l : Nat) : (s.raiseAt n l).inp = s.inp := by
  unfold State.raiseAt; dsimp only; split <;> (try split) <;> (try split) <;> simp only [set64_inp, setB_inp, noteRaise_inp, rcdRaise_inp]
@[simp] theorem raiseAt_cle (s : State) (n l : Nat) : (s.raiseAt n l).cle = s.cle := by
  unfold State.raiseAt; dsimp only; split <;> (try split) <;> (try split) <;> simp only [set64_cle, setB_cle, noteRaise_cle, rcdRaise_cle]
@[simp] theorem raiseAt_vdr (s : State) (n l : Nat) : (s.raiseAt n l).vdr = s.vdr := by
  unfold State.raiseAt; dsimp only; split <;> (try split) <;> (try split) <;> simp only [set64_vdr, setB_vdr, noteRaise_vdr, rcdRaise_vdr]
@[simp] theorem raiseAt_stk (s : State) (n l : Nat) : (s.raiseAt n l).stk = s.stk := by
  unfold State.raiseAt; dsimp only; split <;> (try split) <;> (try split) <;> simp only [set64_stk, setB_stk, noteRaise_stk, rcdRaise_stk]
@[simp] theorem raiseAt_saf (s : State) (n l : Nat) : (s.raiseAt n l).saf = s.saf := by
  unfold State.raiseAt; dsimp only; split <;> (try split) <;> (try split) <;> simp only [set64_saf, setB_saf, noteRaise_saf, rcdRaise_saf]
@[simp] theorem raiseAt_gnb (s : State) (n l : Nat) : (s.raiseAt n l).gnb = s.gnb := by
  unfold State.raiseAt; dsimp only; split <;> (try split) <;> (try split) <;> simp only [set64_gnb, setB_gnb, noteRaise_gnb, rcdRaise_gnb]
@[simp] theorem raiseAt_cam (s : State) (n l : Nat) : (s.raiseAt n l).cam = s.cam := by
  unfold State.raiseAt; dsimp only; split <;> (try split) <;> (try split) <;> simp only [set64_cam, setB_cam, noteRaise_cam, rcdRaise_cam]
@[simp] theorem raiseAt_fen (s : State) (n l : Nat) : (s.raiseAt n l).fen = s.fen := by
  unfold State.raiseAt; dsimp only; split <;> (try split) <;> (try split) <;> simp only [set64_fen, setB_fen, noteRaise_fen, rcdRaise_fen]
@[simp] theorem raiseAt_arb (s : State) (n l : Nat) : (s.raiseAt n l).arb = s.arb := by
  unfold State.raiseAt; dsimp only; split <;> (try split) <;> (try split) <;> simp only [set64_arb, setB_arb, noteRaise_arb, rcdRaise_arb]
@[simp] theorem raiseAt_fus (s : State) (n l : Nat) : (s.raiseAt n l).fus = s.fus := by
  unfold State.raiseAt; dsimp only; split <;> (try split) <;> (try split) <;> simp only [set64_fus, setB_fus, noteRaise_fus, rcdRaise_fus]
@[simp] theorem raiseAt_yld (s : State) (n l : Nat) : (s.raiseAt n l).yld = s.yld := by
  unfold State.raiseAt; dsimp only; split <;> (try split) <;> (try split) <;> simp only [set64_yld, setB_yld, noteRaise_yld, rcdRaise_yld]
@[simp] theorem raiseAt_bus (s : State) (n l : Nat) : (s.raiseAt n l).bus = s.bus := by
  unfold State.raiseAt; dsimp only; split <;> (try split) <;> (try split) <;> simp only [set64_bus, setB_bus, noteRaise_bus, rcdRaise_bus]
@[simp] theorem raiseAt_eth (s : State) (n l : Nat) : (s.raiseAt n l).eth = s.eth := by
  unfold State.raiseAt; dsimp only; split <;> (try split) <;> (try split) <;> simp only [set64_eth, setB_eth, noteRaise_eth, rcdRaise_eth]
@[simp] theorem raiseAt_pair (s : State) (n l : Nat) : (s.raiseAt n l).pair = s.pair := by
  unfold State.raiseAt; dsimp only; split <;> (try split) <;> (try split) <;> simp only [set64_pair, setB_pair, noteRaise_pair, rcdRaise_pair]
@[simp] theorem raiseAt_pnl (s : State) (n l : Nat) : (s.raiseAt n l).pnl = s.pnl := by
  unfold State.raiseAt; dsimp only; split <;> (try split) <;> (try split) <;> simp only [set64_pnl, setB_pnl, noteRaise_pnl, rcdRaise_pnl]
@[simp] theorem raiseAt_upd (s : State) (n l : Nat) : (s.raiseAt n l).upd = s.upd := by
  unfold State.raiseAt; dsimp only; split <;> (try split) <;> (try split) <;> simp only [set64_upd, setB_upd, noteRaise_upd, rcdRaise_upd]
@[simp] theorem raiseAt_pending (s : State) (n l : Nat) : (s.raiseAt n l).pending = s.pending := by
  unfold State.raiseAt; dsimp only; split <;> (try split) <;> (try split) <;> simp only [set64_pending, setB_pending, noteRaise_pending, rcdRaise_pending]

/-! ### `raise` -/

@[simp] theorem raise_part (s : State) (n : Nat) : (s.raise n).part = s.part := by simp only [State.raise, raiseAt_part]
@[simp] theorem raise_ltc (s : State) (n : Nat) : (s.raise n).ltc = s.ltc := by simp only [State.raise, raiseAt_ltc]
@[simp] theorem raise_latch (s : State) (n : Nat) : (s.raise n).latch = s.latch := by simp only [State.raise, raiseAt_latch]
@[simp] theorem raise_img (s : State) (n : Nat) : (s.raise n).img = s.img := by simp only [State.raise, raiseAt_img]
@[simp] theorem raise_access (s : State) (n : Nat) : (s.raise n).access = s.access := by simp only [State.raise, raiseAt_access]
@[simp] theorem raise_dram (s : State) (n : Nat) : (s.raise n).dram = s.dram := by simp only [State.raise, raiseAt_dram]
@[simp] theorem raise_mram (s : State) (n : Nat) : (s.raise n).mram = s.mram := by simp only [State.raise, raiseAt_mram]
@[simp] theorem raise_ufs (s : State) (n : Nat) : (s.raise n).ufs = s.ufs := by simp only [State.raise, raiseAt_ufs]
@[simp] theorem raise_free (s : State) (n : Nat) : (s.raise n).free = s.free := by simp only [State.raise, raiseAt_free]
@[simp] theorem raise_sys (s : State) (n : Nat) : (s.raise n).sys = s.sys := by simp only [State.raise, raiseAt_sys]
@[simp] theorem raise_ka (s : State) (n : Nat) : (s.raise n).ka = s.ka := by simp only [State.raise, raiseAt_ka]
@[simp] theorem raise_str (s : State) (n : Nat) : (s.raise n).str = s.str := by simp only [State.raise, raiseAt_str]
@[simp] theorem raise_rings (s : State) (n : Nat) : (s.raise n).rings = s.rings := by simp only [State.raise, raiseAt_rings]
@[simp] theorem raise_gens (s : State) (n : Nat) : (s.raise n).gens = s.gens := by simp only [State.raise, raiseAt_gens]
@[simp] theorem raise_nv (s : State) (n : Nat) : (s.raise n).nv = s.nv := by simp only [State.raise, raiseAt_nv]
@[simp] theorem raise_tms (s : State) (n : Nat) : (s.raise n).tms = s.tms := by simp only [State.raise, raiseAt_tms]
@[simp] theorem raise_inp (s : State) (n : Nat) : (s.raise n).inp = s.inp := by simp only [State.raise, raiseAt_inp]
@[simp] theorem raise_cle (s : State) (n : Nat) : (s.raise n).cle = s.cle := by simp only [State.raise, raiseAt_cle]
@[simp] theorem raise_vdr (s : State) (n : Nat) : (s.raise n).vdr = s.vdr := by simp only [State.raise, raiseAt_vdr]
@[simp] theorem raise_stk (s : State) (n : Nat) : (s.raise n).stk = s.stk := by simp only [State.raise, raiseAt_stk]
@[simp] theorem raise_saf (s : State) (n : Nat) : (s.raise n).saf = s.saf := by simp only [State.raise, raiseAt_saf]
@[simp] theorem raise_gnb (s : State) (n : Nat) : (s.raise n).gnb = s.gnb := by simp only [State.raise, raiseAt_gnb]
@[simp] theorem raise_cam (s : State) (n : Nat) : (s.raise n).cam = s.cam := by simp only [State.raise, raiseAt_cam]
@[simp] theorem raise_fen (s : State) (n : Nat) : (s.raise n).fen = s.fen := by simp only [State.raise, raiseAt_fen]
@[simp] theorem raise_arb (s : State) (n : Nat) : (s.raise n).arb = s.arb := by simp only [State.raise, raiseAt_arb]
@[simp] theorem raise_fus (s : State) (n : Nat) : (s.raise n).fus = s.fus := by simp only [State.raise, raiseAt_fus]
@[simp] theorem raise_yld (s : State) (n : Nat) : (s.raise n).yld = s.yld := by simp only [State.raise, raiseAt_yld]
@[simp] theorem raise_bus (s : State) (n : Nat) : (s.raise n).bus = s.bus := by simp only [State.raise, raiseAt_bus]
@[simp] theorem raise_eth (s : State) (n : Nat) : (s.raise n).eth = s.eth := by simp only [State.raise, raiseAt_eth]
@[simp] theorem raise_pair (s : State) (n : Nat) : (s.raise n).pair = s.pair := by simp only [State.raise, raiseAt_pair]
@[simp] theorem raise_pnl (s : State) (n : Nat) : (s.raise n).pnl = s.pnl := by simp only [State.raise, raiseAt_pnl]
@[simp] theorem raise_upd (s : State) (n : Nat) : (s.raise n).upd = s.upd := by simp only [State.raise, raiseAt_upd]
@[simp] theorem raise_pending (s : State) (n : Nat) : (s.raise n).pending = s.pending := by simp only [State.raise, raiseAt_pending]

/-! ### `detViol` -/

@[simp] theorem detViol_part (s : State) (f : Fld) : (s.detViol f).part = s.part := by
  unfold State.detViol State.when State.detLatch; dsimp only; split <;> simp only [raise_part, set64_part, setB_part]
@[simp] theorem detViol_ltc (s : State) (f : Fld) : (s.detViol f).ltc = s.ltc := by
  unfold State.detViol State.when State.detLatch; dsimp only; split <;> simp only [raise_ltc, set64_ltc, setB_ltc]
@[simp] theorem detViol_latch (s : State) (f : Fld) : (s.detViol f).latch = s.latch := by
  unfold State.detViol State.when State.detLatch; dsimp only; split <;> simp only [raise_latch, set64_latch, setB_latch]
@[simp] theorem detViol_img (s : State) (f : Fld) : (s.detViol f).img = s.img := by
  unfold State.detViol State.when State.detLatch; dsimp only; split <;> simp only [raise_img, set64_img, setB_img]
@[simp] theorem detViol_access (s : State) (f : Fld) : (s.detViol f).access = s.access := by
  unfold State.detViol State.when State.detLatch; dsimp only; split <;> simp only [raise_access, set64_access, setB_access]
@[simp] theorem detViol_dram (s : State) (f : Fld) : (s.detViol f).dram = s.dram := by
  unfold State.detViol State.when State.detLatch; dsimp only; split <;> simp only [raise_dram, set64_dram, setB_dram]
@[simp] theorem detViol_mram (s : State) (f : Fld) : (s.detViol f).mram = s.mram := by
  unfold State.detViol State.when State.detLatch; dsimp only; split <;> simp only [raise_mram, set64_mram, setB_mram]
@[simp] theorem detViol_ufs (s : State) (f : Fld) : (s.detViol f).ufs = s.ufs := by
  unfold State.detViol State.when State.detLatch; dsimp only; split <;> simp only [raise_ufs, set64_ufs, setB_ufs]
@[simp] theorem detViol_free (s : State) (f : Fld) : (s.detViol f).free = s.free := by
  unfold State.detViol State.when State.detLatch; dsimp only; split <;> simp only [raise_free, set64_free, setB_free]
@[simp] theorem detViol_sys (s : State) (f : Fld) : (s.detViol f).sys = s.sys := by
  unfold State.detViol State.when State.detLatch; dsimp only; split <;> simp only [raise_sys, set64_sys, setB_sys]
@[simp] theorem detViol_ka (s : State) (f : Fld) : (s.detViol f).ka = s.ka := by
  unfold State.detViol State.when State.detLatch; dsimp only; split <;> simp only [raise_ka, set64_ka, setB_ka]
@[simp] theorem detViol_str (s : State) (f : Fld) : (s.detViol f).str = s.str := by
  unfold State.detViol State.when State.detLatch; dsimp only; split <;> simp only [raise_str, set64_str, setB_str]
@[simp] theorem detViol_rings (s : State) (f : Fld) : (s.detViol f).rings = s.rings := by
  unfold State.detViol State.when State.detLatch; dsimp only; split <;> simp only [raise_rings, set64_rings, setB_rings]
@[simp] theorem detViol_gens (s : State) (f : Fld) : (s.detViol f).gens = s.gens := by
  unfold State.detViol State.when State.detLatch; dsimp only; split <;> simp only [raise_gens, set64_gens, setB_gens]
@[simp] theorem detViol_nv (s : State) (f : Fld) : (s.detViol f).nv = s.nv := by
  unfold State.detViol State.when State.detLatch; dsimp only; split <;> simp only [raise_nv, set64_nv, setB_nv]
@[simp] theorem detViol_tms (s : State) (f : Fld) : (s.detViol f).tms = s.tms := by
  unfold State.detViol State.when State.detLatch; dsimp only; split <;> simp only [raise_tms, set64_tms, setB_tms]
@[simp] theorem detViol_inp (s : State) (f : Fld) : (s.detViol f).inp = s.inp := by
  unfold State.detViol State.when State.detLatch; dsimp only; split <;> simp only [raise_inp, set64_inp, setB_inp]
@[simp] theorem detViol_cle (s : State) (f : Fld) : (s.detViol f).cle = s.cle := by
  unfold State.detViol State.when State.detLatch; dsimp only; split <;> simp only [raise_cle, set64_cle, setB_cle]
@[simp] theorem detViol_vdr (s : State) (f : Fld) : (s.detViol f).vdr = s.vdr := by
  unfold State.detViol State.when State.detLatch; dsimp only; split <;> simp only [raise_vdr, set64_vdr, setB_vdr]
@[simp] theorem detViol_stk (s : State) (f : Fld) : (s.detViol f).stk = s.stk := by
  unfold State.detViol State.when State.detLatch; dsimp only; split <;> simp only [raise_stk, set64_stk, setB_stk]
@[simp] theorem detViol_saf (s : State) (f : Fld) : (s.detViol f).saf = s.saf := by
  unfold State.detViol State.when State.detLatch; dsimp only; split <;> simp only [raise_saf, set64_saf, setB_saf]
@[simp] theorem detViol_gnb (s : State) (f : Fld) : (s.detViol f).gnb = s.gnb := by
  unfold State.detViol State.when State.detLatch; dsimp only; split <;> simp only [raise_gnb, set64_gnb, setB_gnb]
@[simp] theorem detViol_cam (s : State) (f : Fld) : (s.detViol f).cam = s.cam := by
  unfold State.detViol State.when State.detLatch; dsimp only; split <;> simp only [raise_cam, set64_cam, setB_cam]
@[simp] theorem detViol_fen (s : State) (f : Fld) : (s.detViol f).fen = s.fen := by
  unfold State.detViol State.when State.detLatch; dsimp only; split <;> simp only [raise_fen, set64_fen, setB_fen]
@[simp] theorem detViol_arb (s : State) (f : Fld) : (s.detViol f).arb = s.arb := by
  unfold State.detViol State.when State.detLatch; dsimp only; split <;> simp only [raise_arb, set64_arb, setB_arb]
@[simp] theorem detViol_fus (s : State) (f : Fld) : (s.detViol f).fus = s.fus := by
  unfold State.detViol State.when State.detLatch; dsimp only; split <;> simp only [raise_fus, set64_fus, setB_fus]
@[simp] theorem detViol_yld (s : State) (f : Fld) : (s.detViol f).yld = s.yld := by
  unfold State.detViol State.when State.detLatch; dsimp only; split <;> simp only [raise_yld, set64_yld, setB_yld]
@[simp] theorem detViol_bus (s : State) (f : Fld) : (s.detViol f).bus = s.bus := by
  unfold State.detViol State.when State.detLatch; dsimp only; split <;> simp only [raise_bus, set64_bus, setB_bus]
@[simp] theorem detViol_eth (s : State) (f : Fld) : (s.detViol f).eth = s.eth := by
  unfold State.detViol State.when State.detLatch; dsimp only; split <;> simp only [raise_eth, set64_eth, setB_eth]
@[simp] theorem detViol_pair (s : State) (f : Fld) : (s.detViol f).pair = s.pair := by
  unfold State.detViol State.when State.detLatch; dsimp only; split <;> simp only [raise_pair, set64_pair, setB_pair]
@[simp] theorem detViol_pnl (s : State) (f : Fld) : (s.detViol f).pnl = s.pnl := by
  unfold State.detViol State.when State.detLatch; dsimp only; split <;> simp only [raise_pnl, set64_pnl, setB_pnl]
@[simp] theorem detViol_upd (s : State) (f : Fld) : (s.detViol f).upd = s.upd := by
  unfold State.detViol State.when State.detLatch; dsimp only; split <;> simp only [raise_upd, set64_upd, setB_upd]
@[simp] theorem detViol_pending (s : State) (f : Fld) : (s.detViol f).pending = s.pending := by
  unfold State.detViol State.when State.detLatch; dsimp only; split <;> simp only [raise_pending, set64_pending, setB_pending]

/-! ### `completionEvent` -/

@[simp] theorem completionEvent_part (s : State) (b r : Nat) : (s.completionEvent b r).part = s.part := by
  unfold State.completionEvent; split <;> (try dsimp only) <;> (try split) <;> (try split) <;> simp only [raise_part, setB_part]
@[simp] theorem completionEvent_ltc (s : State) (b r : Nat) : (s.completionEvent b r).ltc = s.ltc := by
  unfold State.completionEvent; split <;> (try dsimp only) <;> (try split) <;> (try split) <;> simp only [raise_ltc, setB_ltc]
@[simp] theorem completionEvent_latch (s : State) (b r : Nat) : (s.completionEvent b r).latch = s.latch := by
  unfold State.completionEvent; split <;> (try dsimp only) <;> (try split) <;> (try split) <;> simp only [raise_latch, setB_latch]
@[simp] theorem completionEvent_img (s : State) (b r : Nat) : (s.completionEvent b r).img = s.img := by
  unfold State.completionEvent; split <;> (try dsimp only) <;> (try split) <;> (try split) <;> simp only [raise_img, setB_img]
@[simp] theorem completionEvent_access (s : State) (b r : Nat) : (s.completionEvent b r).access = s.access := by
  unfold State.completionEvent; split <;> (try dsimp only) <;> (try split) <;> (try split) <;> simp only [raise_access, setB_access]
@[simp] theorem completionEvent_dram (s : State) (b r : Nat) : (s.completionEvent b r).dram = s.dram := by
  unfold State.completionEvent; split <;> (try dsimp only) <;> (try split) <;> (try split) <;> simp only [raise_dram, setB_dram]
@[simp] theorem completionEvent_mram (s : State) (b r : Nat) : (s.completionEvent b r).mram = s.mram := by
  unfold State.completionEvent; split <;> (try dsimp only) <;> (try split) <;> (try split) <;> simp only [raise_mram, setB_mram]
@[simp] theorem completionEvent_ufs (s : State) (b r : Nat) : (s.completionEvent b r).ufs = s.ufs := by
  unfold State.completionEvent; split <;> (try dsimp only) <;> (try split) <;> (try split) <;> simp only [raise_ufs, setB_ufs]
@[simp] theorem completionEvent_free (s : State) (b r : Nat) : (s.completionEvent b r).free = s.free := by
  unfold State.completionEvent; split <;> (try dsimp only) <;> (try split) <;> (try split) <;> simp only [raise_free, setB_free]
@[simp] theorem completionEvent_sys (s : State) (b r : Nat) : (s.completionEvent b r).sys = s.sys := by
  unfold State.completionEvent; split <;> (try dsimp only) <;> (try split) <;> (try split) <;> simp only [raise_sys, setB_sys]
@[simp] theorem completionEvent_ka (s : State) (b r : Nat) : (s.completionEvent b r).ka = s.ka := by
  unfold State.completionEvent; split <;> (try dsimp only) <;> (try split) <;> (try split) <;> simp only [raise_ka, setB_ka]
@[simp] theorem completionEvent_str (s : State) (b r : Nat) : (s.completionEvent b r).str = s.str := by
  unfold State.completionEvent; split <;> (try dsimp only) <;> (try split) <;> (try split) <;> simp only [raise_str, setB_str]
@[simp] theorem completionEvent_rings (s : State) (b r : Nat) : (s.completionEvent b r).rings = s.rings := by
  unfold State.completionEvent; split <;> (try dsimp only) <;> (try split) <;> (try split) <;> simp only [raise_rings, setB_rings]
@[simp] theorem completionEvent_gens (s : State) (b r : Nat) : (s.completionEvent b r).gens = s.gens := by
  unfold State.completionEvent; split <;> (try dsimp only) <;> (try split) <;> (try split) <;> simp only [raise_gens, setB_gens]
@[simp] theorem completionEvent_nv (s : State) (b r : Nat) : (s.completionEvent b r).nv = s.nv := by
  unfold State.completionEvent; split <;> (try dsimp only) <;> (try split) <;> (try split) <;> simp only [raise_nv, setB_nv]
@[simp] theorem completionEvent_tms (s : State) (b r : Nat) : (s.completionEvent b r).tms = s.tms := by
  unfold State.completionEvent; split <;> (try dsimp only) <;> (try split) <;> (try split) <;> simp only [raise_tms, setB_tms]
@[simp] theorem completionEvent_inp (s : State) (b r : Nat) : (s.completionEvent b r).inp = s.inp := by
  unfold State.completionEvent; split <;> (try dsimp only) <;> (try split) <;> (try split) <;> simp only [raise_inp, setB_inp]
@[simp] theorem completionEvent_cle (s : State) (b r : Nat) : (s.completionEvent b r).cle = s.cle := by
  unfold State.completionEvent; split <;> (try dsimp only) <;> (try split) <;> (try split) <;> simp only [raise_cle, setB_cle]
@[simp] theorem completionEvent_vdr (s : State) (b r : Nat) : (s.completionEvent b r).vdr = s.vdr := by
  unfold State.completionEvent; split <;> (try dsimp only) <;> (try split) <;> (try split) <;> simp only [raise_vdr, setB_vdr]
@[simp] theorem completionEvent_stk (s : State) (b r : Nat) : (s.completionEvent b r).stk = s.stk := by
  unfold State.completionEvent; split <;> (try dsimp only) <;> (try split) <;> (try split) <;> simp only [raise_stk, setB_stk]
@[simp] theorem completionEvent_saf (s : State) (b r : Nat) : (s.completionEvent b r).saf = s.saf := by
  unfold State.completionEvent; split <;> (try dsimp only) <;> (try split) <;> (try split) <;> simp only [raise_saf, setB_saf]
@[simp] theorem completionEvent_gnb (s : State) (b r : Nat) : (s.completionEvent b r).gnb = s.gnb := by
  unfold State.completionEvent; split <;> (try dsimp only) <;> (try split) <;> (try split) <;> simp only [raise_gnb, setB_gnb]
@[simp] theorem completionEvent_cam (s : State) (b r : Nat) : (s.completionEvent b r).cam = s.cam := by
  unfold State.completionEvent; split <;> (try dsimp only) <;> (try split) <;> (try split) <;> simp only [raise_cam, setB_cam]
@[simp] theorem completionEvent_fen (s : State) (b r : Nat) : (s.completionEvent b r).fen = s.fen := by
  unfold State.completionEvent; split <;> (try dsimp only) <;> (try split) <;> (try split) <;> simp only [raise_fen, setB_fen]
@[simp] theorem completionEvent_arb (s : State) (b r : Nat) : (s.completionEvent b r).arb = s.arb := by
  unfold State.completionEvent; split <;> (try dsimp only) <;> (try split) <;> (try split) <;> simp only [raise_arb, setB_arb]
@[simp] theorem completionEvent_fus (s : State) (b r : Nat) : (s.completionEvent b r).fus = s.fus := by
  unfold State.completionEvent; split <;> (try dsimp only) <;> (try split) <;> (try split) <;> simp only [raise_fus, setB_fus]
@[simp] theorem completionEvent_yld (s : State) (b r : Nat) : (s.completionEvent b r).yld = s.yld := by
  unfold State.completionEvent; split <;> (try dsimp only) <;> (try split) <;> (try split) <;> simp only [raise_yld, setB_yld]
@[simp] theorem completionEvent_bus (s : State) (b r : Nat) : (s.completionEvent b r).bus = s.bus := by
  unfold State.completionEvent; split <;> (try dsimp only) <;> (try split) <;> (try split) <;> simp only [raise_bus, setB_bus]
@[simp] theorem completionEvent_eth (s : State) (b r : Nat) : (s.completionEvent b r).eth = s.eth := by
  unfold State.completionEvent; split <;> (try dsimp only) <;> (try split) <;> (try split) <;> simp only [raise_eth, setB_eth]
@[simp] theorem completionEvent_pair (s : State) (b r : Nat) : (s.completionEvent b r).pair = s.pair := by
  unfold State.completionEvent; split <;> (try dsimp only) <;> (try split) <;> (try split) <;> simp only [raise_pair, setB_pair]
@[simp] theorem completionEvent_pnl (s : State) (b r : Nat) : (s.completionEvent b r).pnl = s.pnl := by
  unfold State.completionEvent; split <;> (try dsimp only) <;> (try split) <;> (try split) <;> simp only [raise_pnl, setB_pnl]
@[simp] theorem completionEvent_upd (s : State) (b r : Nat) : (s.completionEvent b r).upd = s.upd := by
  unfold State.completionEvent; split <;> (try dsimp only) <;> (try split) <;> (try split) <;> simp only [raise_upd, setB_upd]
@[simp] theorem completionEvent_pending (s : State) (b r : Nat) : (s.completionEvent b r).pending = s.pending := by
  unfold State.completionEvent; split <;> (try dsimp only) <;> (try split) <;> (try split) <;> simp only [raise_pending, setB_pending]

/-! ### `writeCompletion` -/

@[simp] theorem writeCompletion_part (s : State) (b r : Nat) (t : Taken) (reason handle : Nat) : (s.writeCompletion b r t reason handle).part = s.part := by
  unfold State.writeCompletion; dsimp only; split <;> simp only [completionEvent_part, set_part, dramPuts_part, setRing_part]
@[simp] theorem writeCompletion_ltc (s : State) (b r : Nat) (t : Taken) (reason handle : Nat) : (s.writeCompletion b r t reason handle).ltc = s.ltc := by
  unfold State.writeCompletion; dsimp only; split <;> simp only [completionEvent_ltc, set_ltc, dramPuts_ltc, setRing_ltc]
@[simp] theorem writeCompletion_latch (s : State) (b r : Nat) (t : Taken) (reason handle : Nat) : (s.writeCompletion b r t reason handle).latch = s.latch := by
  unfold State.writeCompletion; dsimp only; split <;> simp only [completionEvent_latch, set_latch, dramPuts_latch, setRing_latch]
@[simp] theorem writeCompletion_img (s : State) (b r : Nat) (t : Taken) (reason handle : Nat) : (s.writeCompletion b r t reason handle).img = s.img := by
  unfold State.writeCompletion; dsimp only; split <;> simp only [completionEvent_img, set_img, dramPuts_img, setRing_img]
@[simp] theorem writeCompletion_access (s : State) (b r : Nat) (t : Taken) (reason handle : Nat) : (s.writeCompletion b r t reason handle).access = s.access := by
  unfold State.writeCompletion; dsimp only; split <;> simp only [completionEvent_access, set_access, dramPuts_access, setRing_access]
@[simp] theorem writeCompletion_mram (s : State) (b r : Nat) (t : Taken) (reason handle : Nat) : (s.writeCompletion b r t reason handle).mram = s.mram := by
  unfold State.writeCompletion; dsimp only; split <;> simp only [completionEvent_mram, set_mram, dramPuts_mram, setRing_mram]
@[simp] theorem writeCompletion_ufs (s : State) (b r : Nat) (t : Taken) (reason handle : Nat) : (s.writeCompletion b r t reason handle).ufs = s.ufs := by
  unfold State.writeCompletion; dsimp only; split <;> simp only [completionEvent_ufs, set_ufs, dramPuts_ufs, setRing_ufs]
@[simp] theorem writeCompletion_free (s : State) (b r : Nat) (t : Taken) (reason handle : Nat) : (s.writeCompletion b r t reason handle).free = s.free := by
  unfold State.writeCompletion; dsimp only; split <;> simp only [completionEvent_free, set_free, dramPuts_free, setRing_free]
@[simp] theorem writeCompletion_sys (s : State) (b r : Nat) (t : Taken) (reason handle : Nat) : (s.writeCompletion b r t reason handle).sys = s.sys := by
  unfold State.writeCompletion; dsimp only; split <;> simp only [completionEvent_sys, set_sys, dramPuts_sys, setRing_sys]
@[simp] theorem writeCompletion_ka (s : State) (b r : Nat) (t : Taken) (reason handle : Nat) : (s.writeCompletion b r t reason handle).ka = s.ka := by
  unfold State.writeCompletion; dsimp only; split <;> simp only [completionEvent_ka, set_ka, dramPuts_ka, setRing_ka]
@[simp] theorem writeCompletion_str (s : State) (b r : Nat) (t : Taken) (reason handle : Nat) : (s.writeCompletion b r t reason handle).str = s.str := by
  unfold State.writeCompletion; dsimp only; split <;> simp only [completionEvent_str, set_str, dramPuts_str, setRing_str]
@[simp] theorem writeCompletion_gens (s : State) (b r : Nat) (t : Taken) (reason handle : Nat) : (s.writeCompletion b r t reason handle).gens = s.gens := by
  unfold State.writeCompletion; dsimp only; split <;> simp only [completionEvent_gens, set_gens, dramPuts_gens, setRing_gens]
@[simp] theorem writeCompletion_nv (s : State) (b r : Nat) (t : Taken) (reason handle : Nat) : (s.writeCompletion b r t reason handle).nv = s.nv := by
  unfold State.writeCompletion; dsimp only; split <;> simp only [completionEvent_nv, set_nv, dramPuts_nv, setRing_nv]
@[simp] theorem writeCompletion_tms (s : State) (b r : Nat) (t : Taken) (reason handle : Nat) : (s.writeCompletion b r t reason handle).tms = s.tms := by
  unfold State.writeCompletion; dsimp only; split <;> simp only [completionEvent_tms, set_tms, dramPuts_tms, setRing_tms]
@[simp] theorem writeCompletion_inp (s : State) (b r : Nat) (t : Taken) (reason handle : Nat) : (s.writeCompletion b r t reason handle).inp = s.inp := by
  unfold State.writeCompletion; dsimp only; split <;> simp only [completionEvent_inp, set_inp, dramPuts_inp, setRing_inp]
@[simp] theorem writeCompletion_cle (s : State) (b r : Nat) (t : Taken) (reason handle : Nat) : (s.writeCompletion b r t reason handle).cle = s.cle := by
  unfold State.writeCompletion; dsimp only; split <;> simp only [completionEvent_cle, set_cle, dramPuts_cle, setRing_cle]
@[simp] theorem writeCompletion_vdr (s : State) (b r : Nat) (t : Taken) (reason handle : Nat) : (s.writeCompletion b r t reason handle).vdr = s.vdr := by
  unfold State.writeCompletion; dsimp only; split <;> simp only [completionEvent_vdr, set_vdr, dramPuts_vdr, setRing_vdr]
@[simp] theorem writeCompletion_stk (s : State) (b r : Nat) (t : Taken) (reason handle : Nat) : (s.writeCompletion b r t reason handle).stk = s.stk := by
  unfold State.writeCompletion; dsimp only; split <;> simp only [completionEvent_stk, set_stk, dramPuts_stk, setRing_stk]
@[simp] theorem writeCompletion_saf (s : State) (b r : Nat) (t : Taken) (reason handle : Nat) : (s.writeCompletion b r t reason handle).saf = s.saf := by
  unfold State.writeCompletion; dsimp only; split <;> simp only [completionEvent_saf, set_saf, dramPuts_saf, setRing_saf]
@[simp] theorem writeCompletion_gnb (s : State) (b r : Nat) (t : Taken) (reason handle : Nat) : (s.writeCompletion b r t reason handle).gnb = s.gnb := by
  unfold State.writeCompletion; dsimp only; split <;> simp only [completionEvent_gnb, set_gnb, dramPuts_gnb, setRing_gnb]
@[simp] theorem writeCompletion_cam (s : State) (b r : Nat) (t : Taken) (reason handle : Nat) : (s.writeCompletion b r t reason handle).cam = s.cam := by
  unfold State.writeCompletion; dsimp only; split <;> simp only [completionEvent_cam, set_cam, dramPuts_cam, setRing_cam]
@[simp] theorem writeCompletion_fen (s : State) (b r : Nat) (t : Taken) (reason handle : Nat) : (s.writeCompletion b r t reason handle).fen = s.fen := by
  unfold State.writeCompletion; dsimp only; split <;> simp only [completionEvent_fen, set_fen, dramPuts_fen, setRing_fen]
@[simp] theorem writeCompletion_arb (s : State) (b r : Nat) (t : Taken) (reason handle : Nat) : (s.writeCompletion b r t reason handle).arb = s.arb := by
  unfold State.writeCompletion; dsimp only; split <;> simp only [completionEvent_arb, set_arb, dramPuts_arb, setRing_arb]
@[simp] theorem writeCompletion_fus (s : State) (b r : Nat) (t : Taken) (reason handle : Nat) : (s.writeCompletion b r t reason handle).fus = s.fus := by
  unfold State.writeCompletion; dsimp only; split <;> simp only [completionEvent_fus, set_fus, dramPuts_fus, setRing_fus]
@[simp] theorem writeCompletion_yld (s : State) (b r : Nat) (t : Taken) (reason handle : Nat) : (s.writeCompletion b r t reason handle).yld = s.yld := by
  unfold State.writeCompletion; dsimp only; split <;> simp only [completionEvent_yld, set_yld, dramPuts_yld, setRing_yld]
@[simp] theorem writeCompletion_bus (s : State) (b r : Nat) (t : Taken) (reason handle : Nat) : (s.writeCompletion b r t reason handle).bus = s.bus := by
  unfold State.writeCompletion; dsimp only; split <;> simp only [completionEvent_bus, set_bus, dramPuts_bus, setRing_bus]
@[simp] theorem writeCompletion_eth (s : State) (b r : Nat) (t : Taken) (reason handle : Nat) : (s.writeCompletion b r t reason handle).eth = s.eth := by
  unfold State.writeCompletion; dsimp only; split <;> simp only [completionEvent_eth, set_eth, dramPuts_eth, setRing_eth]
@[simp] theorem writeCompletion_pair (s : State) (b r : Nat) (t : Taken) (reason handle : Nat) : (s.writeCompletion b r t reason handle).pair = s.pair := by
  unfold State.writeCompletion; dsimp only; split <;> simp only [completionEvent_pair, set_pair, dramPuts_pair, setRing_pair]
@[simp] theorem writeCompletion_pnl (s : State) (b r : Nat) (t : Taken) (reason handle : Nat) : (s.writeCompletion b r t reason handle).pnl = s.pnl := by
  unfold State.writeCompletion; dsimp only; split <;> simp only [completionEvent_pnl, set_pnl, dramPuts_pnl, setRing_pnl]
@[simp] theorem writeCompletion_upd (s : State) (b r : Nat) (t : Taken) (reason handle : Nat) : (s.writeCompletion b r t reason handle).upd = s.upd := by
  unfold State.writeCompletion; dsimp only; split <;> simp only [completionEvent_upd, set_upd, dramPuts_upd, setRing_upd]
@[simp] theorem writeCompletion_pending (s : State) (b r : Nat) (t : Taken) (reason handle : Nat) : (s.writeCompletion b r t reason handle).pending = s.pending := by
  unfold State.writeCompletion; dsimp only; split <;> simp only [completionEvent_pending, set_pending, dramPuts_pending, setRing_pending]

/-! ### `flushTaken` -/

@[simp] theorem flushTaken_part (s : State) (b r : Nat) (l : List Taken) : (flushTaken b r l s).2.part = s.part := by
  induction l generalizing s with
  | nil => rfl
  | cons t ts ih => unfold flushTaken; split <;> simp only [ih, writeCompletion_part]
@[simp] theorem flushTaken_ltc (s : State) (b r : Nat) (l : List Taken) : (flushTaken b r l s).2.ltc = s.ltc := by
  induction l generalizing s with
  | nil => rfl
  | cons t ts ih => unfold flushTaken; split <;> simp only [ih, writeCompletion_ltc]
@[simp] theorem flushTaken_latch (s : State) (b r : Nat) (l : List Taken) : (flushTaken b r l s).2.latch = s.latch := by
  induction l generalizing s with
  | nil => rfl
  | cons t ts ih => unfold flushTaken; split <;> simp only [ih, writeCompletion_latch]
@[simp] theorem flushTaken_img (s : State) (b r : Nat) (l : List Taken) : (flushTaken b r l s).2.img = s.img := by
  induction l generalizing s with
  | nil => rfl
  | cons t ts ih => unfold flushTaken; split <;> simp only [ih, writeCompletion_img]
@[simp] theorem flushTaken_access (s : State) (b r : Nat) (l : List Taken) : (flushTaken b r l s).2.access = s.access := by
  induction l generalizing s with
  | nil => rfl
  | cons t ts ih => unfold flushTaken; split <;> simp only [ih, writeCompletion_access]
@[simp] theorem flushTaken_mram (s : State) (b r : Nat) (l : List Taken) : (flushTaken b r l s).2.mram = s.mram := by
  induction l generalizing s with
  | nil => rfl
  | cons t ts ih => unfold flushTaken; split <;> simp only [ih, writeCompletion_mram]
@[simp] theorem flushTaken_ufs (s : State) (b r : Nat) (l : List Taken) : (flushTaken b r l s).2.ufs = s.ufs := by
  induction l generalizing s with
  | nil => rfl
  | cons t ts ih => unfold flushTaken; split <;> simp only [ih, writeCompletion_ufs]
@[simp] theorem flushTaken_free (s : State) (b r : Nat) (l : List Taken) : (flushTaken b r l s).2.free = s.free := by
  induction l generalizing s with
  | nil => rfl
  | cons t ts ih => unfold flushTaken; split <;> simp only [ih, writeCompletion_free]
@[simp] theorem flushTaken_sys (s : State) (b r : Nat) (l : List Taken) : (flushTaken b r l s).2.sys = s.sys := by
  induction l generalizing s with
  | nil => rfl
  | cons t ts ih => unfold flushTaken; split <;> simp only [ih, writeCompletion_sys]
@[simp] theorem flushTaken_ka (s : State) (b r : Nat) (l : List Taken) : (flushTaken b r l s).2.ka = s.ka := by
  induction l generalizing s with
  | nil => rfl
  | cons t ts ih => unfold flushTaken; split <;> simp only [ih, writeCompletion_ka]
@[simp] theorem flushTaken_str (s : State) (b r : Nat) (l : List Taken) : (flushTaken b r l s).2.str = s.str := by
  induction l generalizing s with
  | nil => rfl
  | cons t ts ih => unfold flushTaken; split <;> simp only [ih, writeCompletion_str]
@[simp] theorem flushTaken_gens (s : State) (b r : Nat) (l : List Taken) : (flushTaken b r l s).2.gens = s.gens := by
  induction l generalizing s with
  | nil => rfl
  | cons t ts ih => unfold flushTaken; split <;> simp only [ih, writeCompletion_gens]
@[simp] theorem flushTaken_nv (s : State) (b r : Nat) (l : List Taken) : (flushTaken b r l s).2.nv = s.nv := by
  induction l generalizing s with
  | nil => rfl
  | cons t ts ih => unfold flushTaken; split <;> simp only [ih, writeCompletion_nv]
@[simp] theorem flushTaken_tms (s : State) (b r : Nat) (l : List Taken) : (flushTaken b r l s).2.tms = s.tms := by
  induction l generalizing s with
  | nil => rfl
  | cons t ts ih => unfold flushTaken; split <;> simp only [ih, writeCompletion_tms]
@[simp] theorem flushTaken_inp (s : State) (b r : Nat) (l : List Taken) : (flushTaken b r l s).2.inp = s.inp := by
  induction l generalizing s with
  | nil => rfl
  | cons t ts ih => unfold flushTaken; split <;> simp only [ih, writeCompletion_inp]
@[simp] theorem flushTaken_cle (s : State) (b r : Nat) (l : List Taken) : (flushTaken b r l s).2.cle = s.cle := by
  induction l generalizing s with
  | nil => rfl
  | cons t ts ih => unfold flushTaken; split <;> simp only [ih, writeCompletion_cle]
@[simp] theorem flushTaken_vdr (s : State) (b r : Nat) (l : List Taken) : (flushTaken b r l s).2.vdr = s.vdr := by
  induction l generalizing s with
  | nil => rfl
  | cons t ts ih => unfold flushTaken; split <;> simp only [ih, writeCompletion_vdr]
@[simp] theorem flushTaken_stk (s : State) (b r : Nat) (l : List Taken) : (flushTaken b r l s).2.stk = s.stk := by
  induction l generalizing s with
  | nil => rfl
  | cons t ts ih => unfold flushTaken; split <;> simp only [ih, writeCompletion_stk]
@[simp] theorem flushTaken_saf (s : State) (b r : Nat) (l : List Taken) : (flushTaken b r l s).2.saf = s.saf := by
  induction l generalizing s with
  | nil => rfl
  | cons t ts ih => unfold flushTaken; split <;> simp only [ih, writeCompletion_saf]
@[simp] theorem flushTaken_gnb (s : State) (b r : Nat) (l : List Taken) : (flushTaken b r l s).2.gnb = s.gnb := by
  induction l generalizing s with
  | nil => rfl
  | cons t ts ih => unfold flushTaken; split <;> simp only [ih, writeCompletion_gnb]
@[simp] theorem flushTaken_cam (s : State) (b r : Nat) (l : List Taken) : (flushTaken b r l s).2.cam = s.cam := by
  induction l generalizing s with
  | nil => rfl
  | cons t ts ih => unfold flushTaken; split <;> simp only [ih, writeCompletion_cam]
@[simp] theorem flushTaken_fen (s : State) (b r : Nat) (l : List Taken) : (flushTaken b r l s).2.fen = s.fen := by
  induction l generalizing s with
  | nil => rfl
  | cons t ts ih => unfold flushTaken; split <;> simp only [ih, writeCompletion_fen]
@[simp] theorem flushTaken_arb (s : State) (b r : Nat) (l : List Taken) : (flushTaken b r l s).2.arb = s.arb := by
  induction l generalizing s with
  | nil => rfl
  | cons t ts ih => unfold flushTaken; split <;> simp only [ih, writeCompletion_arb]
@[simp] theorem flushTaken_fus (s : State) (b r : Nat) (l : List Taken) : (flushTaken b r l s).2.fus = s.fus := by
  induction l generalizing s with
  | nil => rfl
  | cons t ts ih => unfold flushTaken; split <;> simp only [ih, writeCompletion_fus]
@[simp] theorem flushTaken_yld (s : State) (b r : Nat) (l : List Taken) : (flushTaken b r l s).2.yld = s.yld := by
  induction l generalizing s with
  | nil => rfl
  | cons t ts ih => unfold flushTaken; split <;> simp only [ih, writeCompletion_yld]
@[simp] theorem flushTaken_bus (s : State) (b r : Nat) (l : List Taken) : (flushTaken b r l s).2.bus = s.bus := by
  induction l generalizing s with
  | nil => rfl
  | cons t ts ih => unfold flushTaken; split <;> simp only [ih, writeCompletion_bus]
@[simp] theorem flushTaken_eth (s : State) (b r : Nat) (l : List Taken) : (flushTaken b r l s).2.eth = s.eth := by
  induction l generalizing s with
  | nil => rfl
  | cons t ts ih => unfold flushTaken; split <;> simp only [ih, writeCompletion_eth]
@[simp] theorem flushTaken_pair (s : State) (b r : Nat) (l : List Taken) : (flushTaken b r l s).2.pair = s.pair := by
  induction l generalizing s with
  | nil => rfl
  | cons t ts ih => unfold flushTaken; split <;> simp only [ih, writeCompletion_pair]
@[simp] theorem flushTaken_pnl (s : State) (b r : Nat) (l : List Taken) : (flushTaken b r l s).2.pnl = s.pnl := by
  induction l generalizing s with
  | nil => rfl
  | cons t ts ih => unfold flushTaken; split <;> simp only [ih, writeCompletion_pnl]
@[simp] theorem flushTaken_upd (s : State) (b r : Nat) (l : List Taken) : (flushTaken b r l s).2.upd = s.upd := by
  induction l generalizing s with
  | nil => rfl
  | cons t ts ih => unfold flushTaken; split <;> simp only [ih, writeCompletion_upd]
@[simp] theorem flushTaken_pending (s : State) (b r : Nat) (l : List Taken) : (flushTaken b r l s).2.pending = s.pending := by
  induction l generalizing s with
  | nil => rfl
  | cons t ts ih => unfold flushTaken; split <;> simp only [ih, writeCompletion_pending]

/-! ### `completeId` -/

@[simp] theorem completeId_part (s : State) (b r id reason handle : Nat) : (s.completeId b r id reason handle).part = s.part := by simp only [State.completeId, setRing_part, flushTaken_part]
@[simp] theorem completeId_ltc (s : State) (b r id reason handle : Nat) : (s.completeId b r id reason handle).ltc = s.ltc := by simp only [State.completeId, setRing_ltc, flushTaken_ltc]
@[simp] theorem completeId_latch (s : State) (b r id reason handle : Nat) : (s.completeId b r id reason handle).latch = s.latch := by simp only [State.completeId, setRing_latch, flushTaken_latch]
@[simp] theorem completeId_img (s : State) (b r id reason handle : Nat) : (s.completeId b r id reason handle).img = s.img := by simp only [State.completeId, setRing_img, flushTaken_img]
@[simp] theorem completeId_access (s : State) (b r id reason handle : Nat) : (s.completeId b r id reason handle).access = s.access := by simp only [State.completeId, setRing_access, flushTaken_access]
@[simp] theorem completeId_mram (s : State) (b r id reason handle : Nat) : (s.completeId b r id reason handle).mram = s.mram := by simp only [State.completeId, setRing_mram, flushTaken_mram]
@[simp] theorem completeId_ufs (s : State) (b r id reason handle : Nat) : (s.completeId b r id reason handle).ufs = s.ufs := by simp only [State.completeId, setRing_ufs, flushTaken_ufs]
@[simp] theorem completeId_free (s : State) (b r id reason handle : Nat) : (s.completeId b r id reason handle).free = s.free := by simp only [State.completeId, setRing_free, flushTaken_free]
@[simp] theorem completeId_sys (s : State) (b r id reason handle : Nat) : (s.completeId b r id reason handle).sys = s.sys := by simp only [State.completeId, setRing_sys, flushTaken_sys]
@[simp] theorem completeId_ka (s : State) (b r id reason handle : Nat) : (s.completeId b r id reason handle).ka = s.ka := by simp only [State.completeId, setRing_ka, flushTaken_ka]
@[simp] theorem completeId_str (s : State) (b r id reason handle : Nat) : (s.completeId b r id reason handle).str = s.str := by simp only [State.completeId, setRing_str, flushTaken_str]
@[simp] theorem completeId_gens (s : State) (b r id reason handle : Nat) : (s.completeId b r id reason handle).gens = s.gens := by simp only [State.completeId, setRing_gens, flushTaken_gens]
@[simp] theorem completeId_nv (s : State) (b r id reason handle : Nat) : (s.completeId b r id reason handle).nv = s.nv := by simp only [State.completeId, setRing_nv, flushTaken_nv]
@[simp] theorem completeId_tms (s : State) (b r id reason handle : Nat) : (s.completeId b r id reason handle).tms = s.tms := by simp only [State.completeId, setRing_tms, flushTaken_tms]
@[simp] theorem completeId_inp (s : State) (b r id reason handle : Nat) : (s.completeId b r id reason handle).inp = s.inp := by simp only [State.completeId, setRing_inp, flushTaken_inp]
@[simp] theorem completeId_cle (s : State) (b r id reason handle : Nat) : (s.completeId b r id reason handle).cle = s.cle := by simp only [State.completeId, setRing_cle, flushTaken_cle]
@[simp] theorem completeId_vdr (s : State) (b r id reason handle : Nat) : (s.completeId b r id reason handle).vdr = s.vdr := by simp only [State.completeId, setRing_vdr, flushTaken_vdr]
@[simp] theorem completeId_stk (s : State) (b r id reason handle : Nat) : (s.completeId b r id reason handle).stk = s.stk := by simp only [State.completeId, setRing_stk, flushTaken_stk]
@[simp] theorem completeId_saf (s : State) (b r id reason handle : Nat) : (s.completeId b r id reason handle).saf = s.saf := by simp only [State.completeId, setRing_saf, flushTaken_saf]
@[simp] theorem completeId_gnb (s : State) (b r id reason handle : Nat) : (s.completeId b r id reason handle).gnb = s.gnb := by simp only [State.completeId, setRing_gnb, flushTaken_gnb]
@[simp] theorem completeId_cam (s : State) (b r id reason handle : Nat) : (s.completeId b r id reason handle).cam = s.cam := by simp only [State.completeId, setRing_cam, flushTaken_cam]
@[simp] theorem completeId_fen (s : State) (b r id reason handle : Nat) : (s.completeId b r id reason handle).fen = s.fen := by simp only [State.completeId, setRing_fen, flushTaken_fen]
@[simp] theorem completeId_arb (s : State) (b r id reason handle : Nat) : (s.completeId b r id reason handle).arb = s.arb := by simp only [State.completeId, setRing_arb, flushTaken_arb]
@[simp] theorem completeId_fus (s : State) (b r id reason handle : Nat) : (s.completeId b r id reason handle).fus = s.fus := by simp only [State.completeId, setRing_fus, flushTaken_fus]
@[simp] theorem completeId_yld (s : State) (b r id reason handle : Nat) : (s.completeId b r id reason handle).yld = s.yld := by simp only [State.completeId, setRing_yld, flushTaken_yld]
@[simp] theorem completeId_bus (s : State) (b r id reason handle : Nat) : (s.completeId b r id reason handle).bus = s.bus := by simp only [State.completeId, setRing_bus, flushTaken_bus]
@[simp] theorem completeId_eth (s : State) (b r id reason handle : Nat) : (s.completeId b r id reason handle).eth = s.eth := by simp only [State.completeId, setRing_eth, flushTaken_eth]
@[simp] theorem completeId_pair (s : State) (b r id reason handle : Nat) : (s.completeId b r id reason handle).pair = s.pair := by simp only [State.completeId, setRing_pair, flushTaken_pair]
@[simp] theorem completeId_pnl (s : State) (b r id reason handle : Nat) : (s.completeId b r id reason handle).pnl = s.pnl := by simp only [State.completeId, setRing_pnl, flushTaken_pnl]
@[simp] theorem completeId_upd (s : State) (b r id reason handle : Nat) : (s.completeId b r id reason handle).upd = s.upd := by simp only [State.completeId, setRing_upd, flushTaken_upd]
@[simp] theorem completeId_pending (s : State) (b r id reason handle : Nat) : (s.completeId b r id reason handle).pending = s.pending := by simp only [State.completeId, setRing_pending, flushTaken_pending]

/-! ### `completeSelf` -/

@[simp] theorem completeSelf_part (s : State) (b r id code : Nat) : (s.completeSelf b r id code).part = s.part := by simp only [State.completeSelf, completeId_part]
@[simp] theorem completeSelf_ltc (s : State) (b r id code : Nat) : (s.completeSelf b r id code).ltc = s.ltc := by simp only [State.completeSelf, completeId_ltc]
@[simp] theorem completeSelf_latch (s : State) (b r id code : Nat) : (s.completeSelf b r id code).latch = s.latch := by simp only [State.completeSelf, completeId_latch]
@[simp] theorem completeSelf_img (s : State) (b r id code : Nat) : (s.completeSelf b r id code).img = s.img := by simp only [State.completeSelf, completeId_img]
@[simp] theorem completeSelf_access (s : State) (b r id code : Nat) : (s.completeSelf b r id code).access = s.access := by simp only [State.completeSelf, completeId_access]
@[simp] theorem completeSelf_mram (s : State) (b r id code : Nat) : (s.completeSelf b r id code).mram = s.mram := by simp only [State.completeSelf, completeId_mram]
@[simp] theorem completeSelf_ufs (s : State) (b r id code : Nat) : (s.completeSelf b r id code).ufs = s.ufs := by simp only [State.completeSelf, completeId_ufs]
@[simp] theorem completeSelf_free (s : State) (b r id code : Nat) : (s.completeSelf b r id code).free = s.free := by simp only [State.completeSelf, completeId_free]
@[simp] theorem completeSelf_sys (s : State) (b r id code : Nat) : (s.completeSelf b r id code).sys = s.sys := by simp only [State.completeSelf, completeId_sys]
@[simp] theorem completeSelf_ka (s : State) (b r id code : Nat) : (s.completeSelf b r id code).ka = s.ka := by simp only [State.completeSelf, completeId_ka]
@[simp] theorem completeSelf_str (s : State) (b r id code : Nat) : (s.completeSelf b r id code).str = s.str := by simp only [State.completeSelf, completeId_str]
@[simp] theorem completeSelf_gens (s : State) (b r id code : Nat) : (s.completeSelf b r id code).gens = s.gens := by simp only [State.completeSelf, completeId_gens]
@[simp] theorem completeSelf_nv (s : State) (b r id code : Nat) : (s.completeSelf b r id code).nv = s.nv := by simp only [State.completeSelf, completeId_nv]
@[simp] theorem completeSelf_tms (s : State) (b r id code : Nat) : (s.completeSelf b r id code).tms = s.tms := by simp only [State.completeSelf, completeId_tms]
@[simp] theorem completeSelf_inp (s : State) (b r id code : Nat) : (s.completeSelf b r id code).inp = s.inp := by simp only [State.completeSelf, completeId_inp]
@[simp] theorem completeSelf_cle (s : State) (b r id code : Nat) : (s.completeSelf b r id code).cle = s.cle := by simp only [State.completeSelf, completeId_cle]
@[simp] theorem completeSelf_vdr (s : State) (b r id code : Nat) : (s.completeSelf b r id code).vdr = s.vdr := by simp only [State.completeSelf, completeId_vdr]
@[simp] theorem completeSelf_stk (s : State) (b r id code : Nat) : (s.completeSelf b r id code).stk = s.stk := by simp only [State.completeSelf, completeId_stk]
@[simp] theorem completeSelf_saf (s : State) (b r id code : Nat) : (s.completeSelf b r id code).saf = s.saf := by simp only [State.completeSelf, completeId_saf]
@[simp] theorem completeSelf_gnb (s : State) (b r id code : Nat) : (s.completeSelf b r id code).gnb = s.gnb := by simp only [State.completeSelf, completeId_gnb]
@[simp] theorem completeSelf_cam (s : State) (b r id code : Nat) : (s.completeSelf b r id code).cam = s.cam := by simp only [State.completeSelf, completeId_cam]
@[simp] theorem completeSelf_fen (s : State) (b r id code : Nat) : (s.completeSelf b r id code).fen = s.fen := by simp only [State.completeSelf, completeId_fen]
@[simp] theorem completeSelf_arb (s : State) (b r id code : Nat) : (s.completeSelf b r id code).arb = s.arb := by simp only [State.completeSelf, completeId_arb]
@[simp] theorem completeSelf_fus (s : State) (b r id code : Nat) : (s.completeSelf b r id code).fus = s.fus := by simp only [State.completeSelf, completeId_fus]
@[simp] theorem completeSelf_yld (s : State) (b r id code : Nat) : (s.completeSelf b r id code).yld = s.yld := by simp only [State.completeSelf, completeId_yld]
@[simp] theorem completeSelf_bus (s : State) (b r id code : Nat) : (s.completeSelf b r id code).bus = s.bus := by simp only [State.completeSelf, completeId_bus]
@[simp] theorem completeSelf_eth (s : State) (b r id code : Nat) : (s.completeSelf b r id code).eth = s.eth := by simp only [State.completeSelf, completeId_eth]
@[simp] theorem completeSelf_pair (s : State) (b r id code : Nat) : (s.completeSelf b r id code).pair = s.pair := by simp only [State.completeSelf, completeId_pair]
@[simp] theorem completeSelf_pnl (s : State) (b r id code : Nat) : (s.completeSelf b r id code).pnl = s.pnl := by simp only [State.completeSelf, completeId_pnl]
@[simp] theorem completeSelf_upd (s : State) (b r id code : Nat) : (s.completeSelf b r id code).upd = s.upd := by simp only [State.completeSelf, completeId_upd]
@[simp] theorem completeSelf_pending (s : State) (b r id code : Nat) : (s.completeSelf b r id code).pending = s.pending := by simp only [State.completeSelf, completeId_pending]

/-! ### `finish` -/

@[simp] theorem finish_part (s : State) (c : Cmd) (code : Nat) : (c.finish code s).part = s.part := by simp only [Cmd.finish, completeId_part]
@[simp] theorem finish_ltc (s : State) (c : Cmd) (code : Nat) : (c.finish code s).ltc = s.ltc := by simp only [Cmd.finish, completeId_ltc]
@[simp] theorem finish_latch (s : State) (c : Cmd) (code : Nat) : (c.finish code s).latch = s.latch := by simp only [Cmd.finish, completeId_latch]
@[simp] theorem finish_img (s : State) (c : Cmd) (code : Nat) : (c.finish code s).img = s.img := by simp only [Cmd.finish, completeId_img]
@[simp] theorem finish_access (s : State) (c : Cmd) (code : Nat) : (c.finish code s).access = s.access := by simp only [Cmd.finish, completeId_access]
@[simp] theorem finish_mram (s : State) (c : Cmd) (code : Nat) : (c.finish code s).mram = s.mram := by simp only [Cmd.finish, completeId_mram]
@[simp] theorem finish_ufs (s : State) (c : Cmd) (code : Nat) : (c.finish code s).ufs = s.ufs := by simp only [Cmd.finish, completeId_ufs]
@[simp] theorem finish_free (s : State) (c : Cmd) (code : Nat) : (c.finish code s).free = s.free := by simp only [Cmd.finish, completeId_free]
@[simp] theorem finish_sys (s : State) (c : Cmd) (code : Nat) : (c.finish code s).sys = s.sys := by simp only [Cmd.finish, completeId_sys]
@[simp] theorem finish_ka (s : State) (c : Cmd) (code : Nat) : (c.finish code s).ka = s.ka := by simp only [Cmd.finish, completeId_ka]
@[simp] theorem finish_str (s : State) (c : Cmd) (code : Nat) : (c.finish code s).str = s.str := by simp only [Cmd.finish, completeId_str]
@[simp] theorem finish_gens (s : State) (c : Cmd) (code : Nat) : (c.finish code s).gens = s.gens := by simp only [Cmd.finish, completeId_gens]
@[simp] theorem finish_nv (s : State) (c : Cmd) (code : Nat) : (c.finish code s).nv = s.nv := by simp only [Cmd.finish, completeId_nv]
@[simp] theorem finish_tms (s : State) (c : Cmd) (code : Nat) : (c.finish code s).tms = s.tms := by simp only [Cmd.finish, completeId_tms]
@[simp] theorem finish_inp (s : State) (c : Cmd) (code : Nat) : (c.finish code s).inp = s.inp := by simp only [Cmd.finish, completeId_inp]
@[simp] theorem finish_cle (s : State) (c : Cmd) (code : Nat) : (c.finish code s).cle = s.cle := by simp only [Cmd.finish, completeId_cle]
@[simp] theorem finish_vdr (s : State) (c : Cmd) (code : Nat) : (c.finish code s).vdr = s.vdr := by simp only [Cmd.finish, completeId_vdr]
@[simp] theorem finish_stk (s : State) (c : Cmd) (code : Nat) : (c.finish code s).stk = s.stk := by simp only [Cmd.finish, completeId_stk]
@[simp] theorem finish_saf (s : State) (c : Cmd) (code : Nat) : (c.finish code s).saf = s.saf := by simp only [Cmd.finish, completeId_saf]
@[simp] theorem finish_gnb (s : State) (c : Cmd) (code : Nat) : (c.finish code s).gnb = s.gnb := by simp only [Cmd.finish, completeId_gnb]
@[simp] theorem finish_cam (s : State) (c : Cmd) (code : Nat) : (c.finish code s).cam = s.cam := by simp only [Cmd.finish, completeId_cam]
@[simp] theorem finish_fen (s : State) (c : Cmd) (code : Nat) : (c.finish code s).fen = s.fen := by simp only [Cmd.finish, completeId_fen]
@[simp] theorem finish_arb (s : State) (c : Cmd) (code : Nat) : (c.finish code s).arb = s.arb := by simp only [Cmd.finish, completeId_arb]
@[simp] theorem finish_fus (s : State) (c : Cmd) (code : Nat) : (c.finish code s).fus = s.fus := by simp only [Cmd.finish, completeId_fus]
@[simp] theorem finish_yld (s : State) (c : Cmd) (code : Nat) : (c.finish code s).yld = s.yld := by simp only [Cmd.finish, completeId_yld]
@[simp] theorem finish_bus (s : State) (c : Cmd) (code : Nat) : (c.finish code s).bus = s.bus := by simp only [Cmd.finish, completeId_bus]
@[simp] theorem finish_eth (s : State) (c : Cmd) (code : Nat) : (c.finish code s).eth = s.eth := by simp only [Cmd.finish, completeId_eth]
@[simp] theorem finish_pair (s : State) (c : Cmd) (code : Nat) : (c.finish code s).pair = s.pair := by simp only [Cmd.finish, completeId_pair]
@[simp] theorem finish_pnl (s : State) (c : Cmd) (code : Nat) : (c.finish code s).pnl = s.pnl := by simp only [Cmd.finish, completeId_pnl]
@[simp] theorem finish_upd (s : State) (c : Cmd) (code : Nat) : (c.finish code s).upd = s.upd := by simp only [Cmd.finish, completeId_upd]
@[simp] theorem finish_pending (s : State) (c : Cmd) (code : Nat) : (c.finish code s).pending = s.pending := by simp only [Cmd.finish, completeId_pending]

/-! ### `created` -/

@[simp] theorem created_part (s : State) (c : Cmd) (h : Nat) : (c.created h s).part = s.part := by simp only [Cmd.created, completeId_part]
@[simp] theorem created_ltc (s : State) (c : Cmd) (h : Nat) : (c.created h s).ltc = s.ltc := by simp only [Cmd.created, completeId_ltc]
@[simp] theorem created_latch (s : State) (c : Cmd) (h : Nat) : (c.created h s).latch = s.latch := by simp only [Cmd.created, completeId_latch]
@[simp] theorem created_img (s : State) (c : Cmd) (h : Nat) : (c.created h s).img = s.img := by simp only [Cmd.created, completeId_img]
@[simp] theorem created_access (s : State) (c : Cmd) (h : Nat) : (c.created h s).access = s.access := by simp only [Cmd.created, completeId_access]
@[simp] theorem created_mram (s : State) (c : Cmd) (h : Nat) : (c.created h s).mram = s.mram := by simp only [Cmd.created, completeId_mram]
@[simp] theorem created_ufs (s : State) (c : Cmd) (h : Nat) : (c.created h s).ufs = s.ufs := by simp only [Cmd.created, completeId_ufs]
@[simp] theorem created_free (s : State) (c : Cmd) (h : Nat) : (c.created h s).free = s.free := by simp only [Cmd.created, completeId_free]
@[simp] theorem created_sys (s : State) (c : Cmd) (h : Nat) : (c.created h s).sys = s.sys := by simp only [Cmd.created, completeId_sys]
@[simp] theorem created_ka (s : State) (c : Cmd) (h : Nat) : (c.created h s).ka = s.ka := by simp only [Cmd.created, completeId_ka]
@[simp] theorem created_str (s : State) (c : Cmd) (h : Nat) : (c.created h s).str = s.str := by simp only [Cmd.created, completeId_str]
@[simp] theorem created_gens (s : State) (c : Cmd) (h : Nat) : (c.created h s).gens = s.gens := by simp only [Cmd.created, completeId_gens]
@[simp] theorem created_nv (s : State) (c : Cmd) (h : Nat) : (c.created h s).nv = s.nv := by simp only [Cmd.created, completeId_nv]
@[simp] theorem created_tms (s : State) (c : Cmd) (h : Nat) : (c.created h s).tms = s.tms := by simp only [Cmd.created, completeId_tms]
@[simp] theorem created_inp (s : State) (c : Cmd) (h : Nat) : (c.created h s).inp = s.inp := by simp only [Cmd.created, completeId_inp]
@[simp] theorem created_cle (s : State) (c : Cmd) (h : Nat) : (c.created h s).cle = s.cle := by simp only [Cmd.created, completeId_cle]
@[simp] theorem created_vdr (s : State) (c : Cmd) (h : Nat) : (c.created h s).vdr = s.vdr := by simp only [Cmd.created, completeId_vdr]
@[simp] theorem created_stk (s : State) (c : Cmd) (h : Nat) : (c.created h s).stk = s.stk := by simp only [Cmd.created, completeId_stk]
@[simp] theorem created_saf (s : State) (c : Cmd) (h : Nat) : (c.created h s).saf = s.saf := by simp only [Cmd.created, completeId_saf]
@[simp] theorem created_gnb (s : State) (c : Cmd) (h : Nat) : (c.created h s).gnb = s.gnb := by simp only [Cmd.created, completeId_gnb]
@[simp] theorem created_cam (s : State) (c : Cmd) (h : Nat) : (c.created h s).cam = s.cam := by simp only [Cmd.created, completeId_cam]
@[simp] theorem created_fen (s : State) (c : Cmd) (h : Nat) : (c.created h s).fen = s.fen := by simp only [Cmd.created, completeId_fen]
@[simp] theorem created_arb (s : State) (c : Cmd) (h : Nat) : (c.created h s).arb = s.arb := by simp only [Cmd.created, completeId_arb]
@[simp] theorem created_fus (s : State) (c : Cmd) (h : Nat) : (c.created h s).fus = s.fus := by simp only [Cmd.created, completeId_fus]
@[simp] theorem created_yld (s : State) (c : Cmd) (h : Nat) : (c.created h s).yld = s.yld := by simp only [Cmd.created, completeId_yld]
@[simp] theorem created_bus (s : State) (c : Cmd) (h : Nat) : (c.created h s).bus = s.bus := by simp only [Cmd.created, completeId_bus]
@[simp] theorem created_eth (s : State) (c : Cmd) (h : Nat) : (c.created h s).eth = s.eth := by simp only [Cmd.created, completeId_eth]
@[simp] theorem created_pair (s : State) (c : Cmd) (h : Nat) : (c.created h s).pair = s.pair := by simp only [Cmd.created, completeId_pair]
@[simp] theorem created_pnl (s : State) (c : Cmd) (h : Nat) : (c.created h s).pnl = s.pnl := by simp only [Cmd.created, completeId_pnl]
@[simp] theorem created_upd (s : State) (c : Cmd) (h : Nat) : (c.created h s).upd = s.upd := by simp only [Cmd.created, completeId_upd]
@[simp] theorem created_pending (s : State) (c : Cmd) (h : Nat) : (c.created h s).pending = s.pending := by simp only [Cmd.created, completeId_pending]

/-! ### `failed` -/

@[simp] theorem failed_part (s : State) (c : Cmd) (code : Nat) : (c.failed code s).part = s.part := by simp only [Cmd.failed, completeId_part]
@[simp] theorem failed_ltc (s : State) (c : Cmd) (code : Nat) : (c.failed code s).ltc = s.ltc := by simp only [Cmd.failed, completeId_ltc]
@[simp] theorem failed_latch (s : State) (c : Cmd) (code : Nat) : (c.failed code s).latch = s.latch := by simp only [Cmd.failed, completeId_latch]
@[simp] theorem failed_img (s : State) (c : Cmd) (code : Nat) : (c.failed code s).img = s.img := by simp only [Cmd.failed, completeId_img]
@[simp] theorem failed_access (s : State) (c : Cmd) (code : Nat) : (c.failed code s).access = s.access := by simp only [Cmd.failed, completeId_access]
@[simp] theorem failed_mram (s : State) (c : Cmd) (code : Nat) : (c.failed code s).mram = s.mram := by simp only [Cmd.failed, completeId_mram]
@[simp] theorem failed_ufs (s : State) (c : Cmd) (code : Nat) : (c.failed code s).ufs = s.ufs := by simp only [Cmd.failed, completeId_ufs]
@[simp] theorem failed_free (s : State) (c : Cmd) (code : Nat) : (c.failed code s).free = s.free := by simp only [Cmd.failed, completeId_free]
@[simp] theorem failed_sys (s : State) (c : Cmd) (code : Nat) : (c.failed code s).sys = s.sys := by simp only [Cmd.failed, completeId_sys]
@[simp] theorem failed_ka (s : State) (c : Cmd) (code : Nat) : (c.failed code s).ka = s.ka := by simp only [Cmd.failed, completeId_ka]
@[simp] theorem failed_str (s : State) (c : Cmd) (code : Nat) : (c.failed code s).str = s.str := by simp only [Cmd.failed, completeId_str]
@[simp] theorem failed_gens (s : State) (c : Cmd) (code : Nat) : (c.failed code s).gens = s.gens := by simp only [Cmd.failed, completeId_gens]
@[simp] theorem failed_nv (s : State) (c : Cmd) (code : Nat) : (c.failed code s).nv = s.nv := by simp only [Cmd.failed, completeId_nv]
@[simp] theorem failed_tms (s : State) (c : Cmd) (code : Nat) : (c.failed code s).tms = s.tms := by simp only [Cmd.failed, completeId_tms]
@[simp] theorem failed_inp (s : State) (c : Cmd) (code : Nat) : (c.failed code s).inp = s.inp := by simp only [Cmd.failed, completeId_inp]
@[simp] theorem failed_cle (s : State) (c : Cmd) (code : Nat) : (c.failed code s).cle = s.cle := by simp only [Cmd.failed, completeId_cle]
@[simp] theorem failed_vdr (s : State) (c : Cmd) (code : Nat) : (c.failed code s).vdr = s.vdr := by simp only [Cmd.failed, completeId_vdr]
@[simp] theorem failed_stk (s : State) (c : Cmd) (code : Nat) : (c.failed code s).stk = s.stk := by simp only [Cmd.failed, completeId_stk]
@[simp] theorem failed_saf (s : State) (c : Cmd) (code : Nat) : (c.failed code s).saf = s.saf := by simp only [Cmd.failed, completeId_saf]
@[simp] theorem failed_gnb (s : State) (c : Cmd) (code : Nat) : (c.failed code s).gnb = s.gnb := by simp only [Cmd.failed, completeId_gnb]
@[simp] theorem failed_cam (s : State) (c : Cmd) (code : Nat) : (c.failed code s).cam = s.cam := by simp only [Cmd.failed, completeId_cam]
@[simp] theorem failed_fen (s : State) (c : Cmd) (code : Nat) : (c.failed code s).fen = s.fen := by simp only [Cmd.failed, completeId_fen]
@[simp] theorem failed_arb (s : State) (c : Cmd) (code : Nat) : (c.failed code s).arb = s.arb := by simp only [Cmd.failed, completeId_arb]
@[simp] theorem failed_fus (s : State) (c : Cmd) (code : Nat) : (c.failed code s).fus = s.fus := by simp only [Cmd.failed, completeId_fus]
@[simp] theorem failed_yld (s : State) (c : Cmd) (code : Nat) : (c.failed code s).yld = s.yld := by simp only [Cmd.failed, completeId_yld]
@[simp] theorem failed_bus (s : State) (c : Cmd) (code : Nat) : (c.failed code s).bus = s.bus := by simp only [Cmd.failed, completeId_bus]
@[simp] theorem failed_eth (s : State) (c : Cmd) (code : Nat) : (c.failed code s).eth = s.eth := by simp only [Cmd.failed, completeId_eth]
@[simp] theorem failed_pair (s : State) (c : Cmd) (code : Nat) : (c.failed code s).pair = s.pair := by simp only [Cmd.failed, completeId_pair]
@[simp] theorem failed_pnl (s : State) (c : Cmd) (code : Nat) : (c.failed code s).pnl = s.pnl := by simp only [Cmd.failed, completeId_pnl]
@[simp] theorem failed_upd (s : State) (c : Cmd) (code : Nat) : (c.failed code s).upd = s.upd := by simp only [Cmd.failed, completeId_upd]
@[simp] theorem failed_pending (s : State) (c : Cmd) (code : Nat) : (c.failed code s).pending = s.pending := by simp only [Cmd.failed, completeId_pending]

end Sys2Proof.Machine
end

