-- ==== Sys2Proof/Laws/Memory.lean ====
section
/-! SUPPORT. The byte memories: a byte reads as it was last written, every other as before, and every operation keeps the canonical form
of a memory and of the register file. -/

set_option Elab.async false

namespace Sys2Proof.Machine

/-! ### Reading after writing -/

theorem memByte_memPut (m : List Host.Cell) (a : Nat) (b : Byte) (x : Nat) : memByte (memPut m a b) x = if x = a then b else memByte m x := by
  simp only [memByte, memPut]
  split
  · rw [tget_tdel]; split <;> simp_all
  · rw [tget_tput]; split <;> simp_all

/-- Bytes outside the written range are as before. -/
theorem memByte_memPuts_ne (bs : List Byte) (m : List Host.Cell) (a x : Nat) (h : x < a ∨ a + bs.length ≤ x) :
    memByte (memPuts m a bs) x = memByte m x := by
  induction bs generalizing m a with
  | nil => rfl
  | cons b bs ih =>
    simp only [List.length_cons] at h
    rw [memPuts, ih _ _ (by omega), memByte_memPut, if_neg (by omega)]

/-- A written byte reads as it was written. -/
theorem memByte_memPuts (bs : List Byte) (m : List Host.Cell) (a i : Nat) (h : i < bs.length) : memByte (memPuts m a bs) (a + i) = bs[i] := by
  induction bs generalizing m a i with
  | nil => simp at h
  | cons b bs ih =>
    rw [memPuts]
    cases i with
    | zero => rw [memByte_memPuts_ne _ _ _ _ (by omega), memByte_memPut]; simp
    | succ i =>
      have := ih (memPut m a b) (a + 1) i (by simpa using h)
      rw [show a + (i + 1) = a + 1 + i by omega, this]; simp

theorem memBytes_congr (n : Nat) (m m' : List Host.Cell) (a : Nat) (h : ∀ x, a ≤ x → x < a + n → memByte m' x = memByte m x) :
    memBytes m' a n = memBytes m a n := by
  induction n generalizing a with
  | zero => rfl
  | succ n ih => rw [memBytes, memBytes, h a (Nat.le_refl _) (by omega), ih (a + 1) fun x h1 h2 => h x (by omega) (by omega)]

/-- The written range reads as it was written. -/
theorem memBytes_memPuts (bs : List Byte) (m : List Host.Cell) (a : Nat) : memBytes (memPuts m a bs) a bs.length = bs := by
  induction bs generalizing m a with
  | nil => rfl
  | cons b bs ih =>
    rw [List.length_cons, memBytes, memPuts, ih, memByte_memPuts_ne _ _ _ _ (by omega), memByte_memPut, if_pos rfl]

theorem memPuts_append (bs cs : List Byte) (m : List Host.Cell) (a : Nat) :
    memPuts m a (bs ++ cs) = memPuts (memPuts m a bs) (a + bs.length) cs := by
  induction bs generalizing m a with
  | nil => rfl
  | cons b bs ih => rw [List.cons_append, memPuts, memPuts, ih, List.length_cons, Nat.add_assoc, Nat.add_comm 1]

theorem length_bytesLE (n v : Nat) : (bytesLE n v).length = n := by
  induction n generalizing v with
  | zero => rfl
  | succ n ih => simp [bytesLE, ih]

/-- A little-endian value reads back, modulo its width (R6). -/
theorem natLE_bytesLE (n v : Nat) : natLE (bytesLE n v) = v % 256 ^ n := by
  induction n generalizing v with
  | zero => simp [bytesLE, natLE, Nat.mod_one]
  | succ n ih =>
    simp only [bytesLE, natLE, ih, BitVec.toNat_ofNat]
    rw [show 256 ^ (n + 1) = 256 * 256 ^ n from by rw [Nat.pow_succ, Nat.mul_comm], Nat.mod_mul]

theorem memByte_memZero (m : List Host.Cell) (a n x : Nat) : memByte (memZero m a n) x = if a ≤ x ∧ x < a + n then 0#8 else memByte m x := by
  have := tget_filter (fun k => !(decide (a ≤ k) && decide (k < a + n))) m x
  simp only [memByte, memZero]
  rw [show (List.filter (fun (c : Host.Cell) => !(decide (a ≤ c.1) && decide (c.1 < a + n))) m) = m.filter fun e => (fun k => !(decide (a ≤ k) && decide (k < a + n))) e.1 from rfl, this]
  by_cases h : a ≤ x ∧ x < a + n
  · simp [h]
  · rw [if_neg h, if_pos]; simp; omega

/-! ### Canonical forms -/

theorem memWf_iff (m : List Host.Cell) : memWf m = true ↔ tsorted m = true ∧ ∀ c ∈ m, c.2 ≠ 0#8 := by
  simp [memWf, List.all_eq_true]

theorem regsWf_iff (r : Tbl Word) : regsWf r = true ↔ tsorted r = true ∧ ∀ e ∈ r, e.2 ≠ resetOf e.1 := by
  simp only [regsWf, Bool.and_eq_true, List.all_eq_true, decide_eq_true_eq]

theorem memWf_memPut {m : List Host.Cell} (h : memWf m = true) (a : Nat) (b : Byte) : memWf (memPut m a b) = true := by
  rw [memWf_iff] at *
  unfold memPut
  split
  · exact ⟨tsorted_tdel h.1 a, fun c hc => h.2 c (tdel_mem hc)⟩
  · rename_i hb
    refine ⟨tsorted_tput h.1 a b, fun c hc => ?_⟩
    rcases tput_mem hc with rfl | hc
    · exact hb
    · exact h.2 c hc

theorem memWf_memPuts {m : List Host.Cell} (h : memWf m = true) (a : Nat) (bs : List Byte) : memWf (memPuts m a bs) = true := by
  induction bs generalizing m a with
  | nil => exact h
  | cons b bs ih => exact ih (memWf_memPut h a b) (a + 1)

theorem memWf_filter {m : List Host.Cell} (h : memWf m = true) (p : Host.Cell → Bool) : memWf (m.filter p) = true := by
  rw [memWf_iff] at *
  exact ⟨tsorted_filter h.1 p, fun c hc => h.2 c (List.mem_filter.1 hc).1⟩

theorem memWf_memZero {m : List Host.Cell} (h : memWf m = true) (a n : Nat) : memWf (memZero m a n) = true := memWf_filter h _

theorem regsWf_regsPut {r : Tbl Word} (h : regsWf r = true) (a : Nat) (w : Word) : regsWf (regsPut r a w) = true := by
  rw [regsWf_iff] at *
  unfold regsPut
  split
  · exact ⟨tsorted_tdel h.1 a, fun c hc => h.2 c (tdel_mem hc)⟩
  · rename_i hb
    refine ⟨tsorted_tput h.1 a w, fun c hc => ?_⟩
    rcases tput_mem hc with rfl | hc
    · exact hb
    · exact h.2 c hc

theorem regsWf_filter {r : Tbl Word} (h : regsWf r = true) (p : Nat × Word → Bool) : regsWf (r.filter p) = true := by
  rw [regsWf_iff] at *
  exact ⟨tsorted_filter h.1 p, fun c hc => h.2 c (List.mem_filter.1 hc).1⟩

/-- Two memories in canonical form that read alike are the same list. -/
theorem mem_ext {m m' : List Host.Cell} (h : memWf m = true) (h' : memWf m' = true) (hr : ∀ a, memByte m a = memByte m' a) : m = m' := by
  rw [memWf_iff] at *
  have mem_of {l : List Host.Cell} {a : Nat} {b : Byte} (hl : tget l a = some b) : (a, b) ∈ l := by
    induction l with
    | nil => cases hl
    | cons e l ih =>
      obtain ⟨k, w⟩ := e
      rw [tget_cons] at hl
      split at hl
      · cases hl; subst_vars; simp
      · exact List.mem_cons_of_mem _ (ih hl)
  refine tbl_ext h.1 h'.1 fun a => ?_
  have ha := hr a
  simp only [memByte] at ha
  cases hx : tget m a with
  | none =>
    cases hy : tget m' a with
    | none => rfl
    | some b => rw [hx, hy] at ha; exact absurd ha.symm (h'.2 _ (mem_of hy))
  | some b =>
    cases hy : tget m' a with
    | none => rw [hx, hy] at ha; exact absurd ha (h.2 _ (mem_of hx))
    | some c => rw [hx, hy] at ha; exact congrArg some ha

end Sys2Proof.Machine
end

