-- ==== Sys2Proof/Laws/Frames.lean ====
section
/-! SUPPORT. `State.keeps`: what two states share. It is reflexive and composes, and each shared operation keeps what it does not
name. -/

set_option Elab.async false

namespace Sys2Proof.Machine

theorem same_refl (s : State) (p : Comp) : s.same s p := by cases p <;> rfl

theorem same_trans {s t u : State} {p : Comp} (h : s.same t p) (h' : t.same u p) : s.same u p := by
  cases p <;> exact Eq.trans h' h

theorem keeps_refl (s : State) (ps : List Comp) (rs : List Nat) : s.keeps ps rs s := ⟨fun p _ => same_refl s p, fun _ _ => rfl, rfl, rfl⟩

theorem keeps_mono {s t : State} {ps qs : List Comp} {rs us : List Nat} (h : s.keeps ps rs t) (hp : ∀ p ∈ ps, p ∈ qs) (hr : ∀ a ∈ rs, a ∈ us) :
    s.keeps qs us t := ⟨fun p hq => h.1 p fun hm => hq (hp p hm), fun a ha => h.2.1 a fun hm => ha (hr a hm), h.2.2⟩

theorem keeps_trans {s t u : State} {ps : List Comp} {rs : List Nat} (h : s.keeps ps rs t) (h' : t.keeps ps rs u) : s.keeps ps rs u :=
  ⟨fun p hp => same_trans (h.1 p hp) (h'.1 p hp), fun a ha => (h'.2.1 a ha).trans (h.2.1 a ha), h'.2.2.1.trans h.2.2.1,
    h'.2.2.2.trans h.2.2.2⟩

/-- Two states with one register file and one of every part but `ps`. -/
theorem keeps_of_same {s t : State} {ps : List Comp} {rs : List Nat} (h : ∀ p, p ∉ ps → s.same t p) (hr : t.regs = s.regs) (hp : t.part = s.part)
    (hq : t.pending = s.pending) : s.keeps ps rs t := ⟨h, fun a _ => by simp only [State.reg, hr], hp, hq⟩

theorem keeps_setReg (s : State) (a : Nat) (w : Word) : s.keeps [] [a] (s.setReg a w) :=
  ⟨fun p _ => by cases p <;> simp [State.same], fun b hb => reg_setReg_ne s w (by simpa using hb), by simp, by simp⟩

theorem keeps_set (s : State) (f : Fld) (v : Nat) : s.keeps [] [f.addr] (s.set f v) := keeps_setReg s _ _

theorem keeps_setB (s : State) (f : Fld) (b : Bool) : s.keeps [] [f.addr] (s.setB f b) := keeps_set s _ _

theorem keeps_bump (s : State) (f : Fld) (n : Nat) : s.keeps [] [f.addr] (s.bump f n) := keeps_set s _ _

theorem keeps_wrapInc (s : State) (f : Fld) : s.keeps [] [f.addr] (s.wrapInc f) := keeps_set s _ _

theorem keeps_set64 (s : State) (lo hi v : Nat) : s.keeps [] [lo, hi] (s.set64 lo hi v) :=
  keeps_trans (keeps_mono (keeps_setReg s lo _) (by simp) (by simp)) (keeps_mono (keeps_setReg _ hi _) (by simp) (by simp))

theorem keeps_dramPuts (s : State) (a : Nat) (bs : List Byte) : s.keeps [.dram] [] (s.dramPuts a bs) :=
  keeps_of_same (fun p hp => by cases p <;> simp [State.same] at hp ⊢) (by simp) (by simp) (by simp)

theorem keeps_setRing (s : State) (b r : Nat) (g : Ring) : s.keeps [.rings] [] (s.setRing b r g) :=
  keeps_of_same (fun p hp => by cases p <;> simp [State.same] at hp ⊢) (by simp) (by simp) (by simp)

theorem keeps_advGen (s : State) (c i : Nat) : s.keeps [.gens] [] (s.advGen c i) :=
  keeps_of_same (fun p hp => by cases p <;> simp [State.same] at hp ⊢) (by simp) (by simp) (by simp)

theorem keeps_drawn (s : State) : s.keeps [.free] [] s.drawn :=
  keeps_of_same (fun p hp => by cases p <;> simp [State.same] at hp ⊢) (by simp) (by simp) (by simp)

theorem keeps_rcdRaise (s : State) (n l : Nat) : s.keeps [.rcd] [] (s.rcdRaise n l) :=
  keeps_of_same (fun p hp => by cases p <;> simp [State.same] at hp ⊢) (by simp) (by simp) (by simp)

theorem keeps_noteRaise (s : State) (n l : Nat) (b : Bool) : s.keeps [.cyc] [] (s.noteRaise n l b) :=
  keeps_of_same (fun p hp => by cases p <;> simp [State.same] at hp ⊢) (by simp) (by simp) (by simp)

theorem keeps_cyc (s : State) (c : CycleState) : s.keeps [.cyc] [] { s with cyc := c } :=
  keeps_of_same (fun p hp => by cases p <;> simp [State.same] at hp ⊢) rfl rfl rfl

/-- A raise writes the source's status and stamp counts in REC's streams and is noted for its REF cycle, and nothing else (R129, R130, R501). -/
theorem keeps_raiseAt (s : State) (n l : Nat) : s.keeps [.rcd, .cyc] (raiseRegs n) (s.raiseAt n l) := by
  have h0 := keeps_mono (qs := [.rcd, .cyc]) (us := raiseRegs n) (keeps_rcdRaise s n l) (by simp) (by simp)
  have h1 (b : Bool) := keeps_trans h0 (keeps_mono (qs := [.rcd, .cyc]) (us := raiseRegs n) (keeps_noteRaise (s.rcdRaise n l) n l b) (by simp) (by simp))
  unfold State.raiseAt
  dsimp only
  split
  · exact keeps_refl s _ _
  · split
    · split
      · exact keeps_trans (h1 _) (keeps_mono (keeps_setB _ _ _) (by simp) (by simp [raiseRegs, EVT_SRC_STAT.MULTI]))
      · exact keeps_trans (h1 _) (keeps_trans (keeps_mono (keeps_setB _ _ _) (by simp) (by simp [raiseRegs, EVT_SRC_STAT.PEND]))
          (keeps_mono (keeps_set64 _ _ _ _) (by simp) (by simp [raiseRegs])))
    · exact h0

theorem keeps_raise (s : State) (n : Nat) : s.keeps [.rcd, .cyc] (raiseRegs n) (s.raise n) := keeps_raiseAt s n s.now

/-- A determinism violation writes its flag, the stamp of the first violation and source 4 (R24, R25). -/
theorem keeps_detViol (s : State) (f : Fld) :
    s.keeps [.rcd, .cyc] (f.addr :: SYS_DET_FIRST_LO :: SYS_DET_FIRST_HI :: raiseRegs 4) (s.detViol f) := by
  have h0 (c : CycleState) : s.keeps [.rcd, .cyc] (f.addr :: SYS_DET_FIRST_LO :: SYS_DET_FIRST_HI :: raiseRegs 4) (State.setB f true { s with cyc := c }) :=
    keeps_trans (keeps_mono (keeps_cyc s c) (by simp) (by simp)) (keeps_mono (keeps_setB _ f true) (by simp) (by simp))
  unfold State.detViol State.when State.detLatch
  dsimp only
  split
  · exact keeps_trans (h0 _)
      (keeps_trans (keeps_mono (keeps_set64 _ _ _ _) (by simp) (by simp)) (keeps_mono (keeps_raise _ 4) (by simp) (by simp +contextual)))
  · exact h0 _

theorem now_of_ltc {s t : State} (h : t.ltc = s.ltc) : t.now = s.now := by simp only [State.now, h]

/-! ### Raises -/

/-- A raise after operations that left the source and LTC as they were. -/
theorem raised_of {s u : State} {n : Nat} (hp : u.part = s.part) (hl : u.ltc = s.ltc) (hc : u.reg (EVT_SRC_CFG n) = s.reg (EVT_SRC_CFG n))
    (hs : u.reg (EVT_SRC_STAT n) = s.reg (EVT_SRC_STAT n)) : s.raised n (u.raise n) := by
  intro hn hen
  have hn' : u.neverRaised n = false := by simpa [State.neverRaised, State.noGnss, hp] using hn
  have henu : u.getB (EVT_SRC_CFG.EN n) = true := by rw [getB_congr (EVT_SRC_CFG.EN n) hc]; exact hen
  have hpu : u.getB (EVT_SRC_STAT.PEND n) = s.getB (EVT_SRC_STAT.PEND n) := getB_congr _ hs
  let x := u.rcdRaise n u.now
  let v := x.noteRaise n u.now (x.getB (EVT_SRC_STAT.PEND n))
  have hx : ∀ a, x.reg a = u.reg a := fun a => (keeps_rcdRaise u n u.now).2.1 a (by simp)
  have hv : ∀ a, v.reg a = u.reg a := fun a => ((keeps_noteRaise x n u.now _).2.1 a (by simp)).trans (hx a)
  have e1 : x.getB (EVT_SRC_CFG.EN n) = true := by rw [getB_congr _ (hx _)]; exact henu
  have e2 : v.getB (EVT_SRC_STAT.PEND n) = s.getB (EVT_SRC_STAT.PEND n) := by rw [getB_congr _ (hv _)]; exact hpu
  have hnow : u.now = s.now := now_of_ltc hl
  by_cases hpd : s.getB (EVT_SRC_STAT.PEND n) = true
  · have e : u.raise n = v.setB (EVT_SRC_STAT.MULTI n) true := by
      simp only [State.raise, State.raiseAt, hn', Bool.false_eq_true, if_false]
      change (if x.getB _ = true then if v.getB _ = true then _ else _ else _) = _
      rw [e1, e2, hpd]; rfl
    rw [e]
    refine ⟨?_, fun h => by simp [hpd] at h, fun _ => getB_setB_self _ _ _ (by simp [EVT_SRC_STAT.MULTI]) rfl⟩
    rw [getB_setB_ne _ _ _ _ (.inr ⟨by simp [EVT_SRC_STAT.MULTI], by simp [EVT_SRC_STAT.MULTI, EVT_SRC_STAT.PEND]⟩), e2, hpd]
  · simp only [Bool.not_eq_true] at hpd
    have e : u.raise n = (v.setB (EVT_SRC_STAT.PEND n) true).set64 (EVT_SRC_LTC_LO n) (EVT_SRC_LTC_HI n) u.now := by
      simp only [State.raise, State.raiseAt, hn', Bool.false_eq_true, if_false]
      change (if x.getB _ = true then if v.getB _ = true then _ else _ else _) = _
      rw [e1, e2, hpd]; rfl
    rw [e]
    refine ⟨?_, fun _ => ?_, fun h => by simp [hpd] at h⟩
    · rw [getB_congr _ (reg_set64_ne _ _ _ _)]
      · exact getB_setB_self _ _ _ (by simp [EVT_SRC_STAT.PEND]) rfl
      · simp only [EVT_SRC_STAT.PEND, EVT_SRC_STAT, EVT_SRC_LTC_LO]; omega
      · simp only [EVT_SRC_STAT.PEND, EVT_SRC_STAT, EVT_SRC_LTC_HI]; omega
    · rw [get64_set64_self _ _ _ _ (by simp only [EVT_SRC_LTC_LO, EVT_SRC_LTC_HI]; omega), hnow]
      simp [State.now]

theorem raised_raise (s : State) (n : Nat) : s.raised n (s.raise n) := raised_of rfl rfl rfl rfl

/-- Operations that keep the source's registers keep that it was raised. -/
theorem raised_mono {s u t : State} {n : Nat} (h : s.raised n u) (hr : ∀ a ∈ raiseRegs n, t.reg a = u.reg a) : s.raised n t := by
  intro hn he
  obtain ⟨h1, h2, h3⟩ := h hn he
  have a1 := hr (EVT_SRC_STAT n) (by simp [raiseRegs])
  refine ⟨by rw [getB_congr _ a1]; exact h1, fun hp => ?_, fun hp => by rw [getB_congr _ a1]; exact h3 hp⟩
  rw [get64_congr _ _ (hr (EVT_SRC_LTC_LO n) (by simp [raiseRegs])) (hr (EVT_SRC_LTC_HI n) (by simp [raiseRegs]))]
  exact h2 hp

end Sys2Proof.Machine
end

