-- ==== Sys2Proof/Laws/Rings.lean ====
section
/-! SUPPORT. Command rings: what an entry taken by a ring with nothing in flight leaves once it ends: one completion entry, the index past
it, and the completion event (R122 to R125). -/

set_option Elab.async false

namespace Sys2Proof.Machine

theorem ring_setRing_self (s : State) (b r : Nat) (g : Ring) : (s.setRing b r g).ring b r = g := by
  simp [State.ring, State.setRing, tgetD]

theorem ring_of_rings {s t : State} (h : t.rings = s.rings) (b r : Nat) : t.ring b r = s.ring b r := by simp only [State.ring, h]

theorem bitsLE_pi (n : Nat) : n % 2 ^ 9 = n % 512 := rfl

/-- The ring group of a block that has rings does not meet the event unit's registers. -/
theorem ringG_ge (b r : Nat) (h : r < ringCount b) : 0xC5000100 ≤ ringG b r ∧ ringG b r < 0xD4000000 := by
  unfold ringCount at h
  split at h <;> simp [ringG, blkBase] <;> (try split) <;> omega

/-- A completion event raises the ring's source and may set the ring's bit of FEN_JOB_PEND (R125). -/
theorem keeps_completionEvent (s : State) (b r : Nat) (h : r < ringCount b) :
    s.keeps [.rcd, .cyc] (FEN_JOB_PEND :: raiseRegs (complSource b r)) (s.completionEvent b r) := by
  have hr (n : Nat) (hn : n = complSource b r) : s.keeps [.rcd, .cyc] (FEN_JOB_PEND :: raiseRegs (complSource b r)) (s.raise n) := by
    subst hn; exact keeps_mono (keeps_raise s _) (by simp) (by simp +contextual)
  unfold State.completionEvent
  split
  case h_5 =>
    dsimp only
    split
    · rename_i h0; exact hr 192 (by simp [complSource, h0])
    · rename_i h0
      split
      · exact keeps_refl s _ _
      · exact keeps_trans (keeps_mono (keeps_setB s _ _) (by simp) (by simp))
          (keeps_mono (keeps_raise _ 193) (by simp) (by simp +contextual [complSource, h0]))
  all_goals first
    | exact hr _ rfl
    | (exfalso; simp_all [ringCount])
    | exact keeps_refl s _ _

/-- What writing a completion changes (Table 5-5). -/
theorem keeps_writeCompletion (s : State) (b r : Nat) (t : Taken) (reason handle : Nat) (h : r < ringCount b) :
    s.keeps [.rings, .dram, .rcd, .cyc] (complRegs b r) (s.writeCompletion b r t reason handle) := by
  have h1 (u : State) (g : Ring) := keeps_mono (qs := [.rings, .dram, .rcd, .cyc]) (us := complRegs b r) (keeps_setRing u b r g) (by simp) (by simp)
  have h2 (u : State) (a : Nat) (bs : List Byte) := keeps_mono (qs := [.rings, .dram, .rcd, .cyc]) (us := complRegs b r) (keeps_dramPuts u a bs) (by simp) (by simp)
  have h3 (u : State) (v : Nat) := keeps_mono (qs := [.rings, .dram, .rcd, .cyc]) (us := complRegs b r) (keeps_set u (CRING_PI b r) v) (by simp) (by simp [complRegs])
  have h4 (u : State) := keeps_mono (qs := [.rings, .dram, .rcd, .cyc]) (us := complRegs b r) (keeps_completionEvent u b r h) (by simp)
    (by simp +contextual [complRegs])
  unfold State.writeCompletion
  dsimp only
  split
  · exact keeps_trans (keeps_trans (keeps_trans (h1 _ _) (h2 _ _ _)) (h3 _ _)) (h4 _)
  · exact keeps_trans (keeps_trans (h1 _ _) (h2 _ _ _)) (h3 _ _)

/-- The ring commands in flight complete in the order taken; all that changes is the completion ring and its event (R124). -/
theorem keeps_flushTaken (s : State) (b r : Nat) (l : List Taken) (h : r < ringCount b) :
    s.keeps [.rings, .dram, .rcd, .cyc] (complRegs b r) (flushTaken b r l s).2 := by
  induction l generalizing s with
  | nil => exact keeps_refl s _ _
  | cons t ts ih =>
    unfold flushTaken
    split
    · exact keeps_refl s _ _
    · exact keeps_trans (keeps_writeCompletion s b r t _ _ h) (ih _)

theorem keeps_completeId (s : State) (b r id reason handle : Nat) (h : r < ringCount b) :
    s.keeps [.rings, .dram, .rcd, .cyc] (complRegs b r) (s.completeId b r id reason handle) := by
  unfold State.completeId
  exact keeps_trans (keeps_flushTaken s b r _ h) (keeps_mono (keeps_setRing _ b r _) (by simp) (by simp))

theorem keeps_restSpacing (s : State) (b r opcode : Nat) : s.keeps [.rings] [] (s.restSpacing b r opcode) := keeps_setRing s b r _

theorem keeps_admit (s : State) (b r opcode : Nat) (e : Entry) : s.keeps [.rings] [] (s.enlist b r opcode e).2 := keeps_setRing s b r _

/-- A ring's completion slot depends on its own registers, its sequence and LTC alone. -/
theorem complSlot_congr {s u : State} (b r : Nat) (hl : u.ltc = s.ltc) (h1 : (u.ring b r).seq = (s.ring b r).seq) (h2 : (u.ring b r).oddCi = (s.ring b r).oddCi)
    (h3 : u.get (CRING_PI b r) = s.get (CRING_PI b r)) : u.complSlot b r = s.complSlot b r := by
  simp only [State.complSlot, hl, h1, h2, h3]

/-! ### One command, nothing in flight before it -/

/-- A taken and ended command in front of a ring's flight list. -/
theorem completeId_only (u : State) (b r id reason handle : Nat) (t : Taken) (ht : (u.ring b r).taken = [t]) (hid : t.id = id) :
    u.completeId b r id reason handle =
      (u.writeCompletion b r { t with done := some (reason, handle) } reason handle).setRing b r
        { (u.writeCompletion b r { t with done := some (reason, handle) } reason handle).ring b r with taken := [] } := by
  simp [State.completeId, ht, hid, flushTaken]

theorem reg_completionEvent_pi (s : State) (b r : Nat) (h : r < ringCount b) : (s.completionEvent b r).get (CRING_PI b r) = s.get (CRING_PI b r) := by
  refine get_congr _ ((keeps_completionEvent s b r h).2.1 _ ?_)
  have h1 := ringG_ge b r h
  simp only [CRING_PI, raiseRegs, EVT_SRC_STAT, EVT_SRC_LTC_LO, EVT_SRC_LTC_HI, FEN_JOB_PEND, List.mem_cons, List.not_mem_nil, or_false, not_or]
  have hc : complSource b r < 384 := by
    unfold ringCount at h
    unfold complSource
    split at h <;> simp <;> (try omega) <;> (split <;> omega)
  refine ⟨?_, by omega, by omega, by omega⟩
  unfold ringCount at h
  split at h <;> simp [ringG, blkBase] <;> (try split) <;> omega

/-- The bytes of a completion entry. -/
theorem writeCompletion_dram (s : State) (b r : Nat) (t : Taken) (reason handle : Nat) :
    (s.writeCompletion b r t reason handle).dram =
      memPuts s.dram (s.complAddr b r) (bytesLE 8 t.tag ++ bytesLE 4 handle ++ bytesLE 2 reason ++
        bytesLE 2 (if (s.ring b r).seq = 0xFFFF then 1 else (s.ring b r).seq + 1)) := by
  have key : ∀ u : State, (if (t.irq || decide (reason % 256 ≠ 0)) = true then u.completionEvent b r else u).dram = u.dram := by
    intro u; split <;> simp
  unfold State.writeCompletion
  dsimp only
  rw [key]
  simp only [set_dram, State.dramPuts, setRing_dram, State.complAddr]

theorem writeCompletion_pi (s : State) (b r : Nat) (t : Taken) (reason handle : Nat) (h : r < ringCount b) :
    (s.writeCompletion b r t reason handle).get (CRING_PI b r) = (s.get (CRING_PI b r) + 1) % 512 := by
  have key : ∀ u : State, (if (t.irq || decide (reason % 256 ≠ 0)) = true then u.completionEvent b r else u).get (CRING_PI b r) = u.get (CRING_PI b r) := by
    intro u; split
    · exact reg_completionEvent_pi u b r h
    · rfl
  unfold State.writeCompletion
  dsimp only
  rw [key, get_set_self _ _ _ (by simp [CRING_PI])]
  rfl

/-- Reading the four parts of a completion entry. -/
theorem completion_reads (m : List Host.Cell) (a tag handle reason seq : Nat) :
    let m' := memPuts m a (bytesLE 8 tag ++ bytesLE 4 handle ++ bytesLE 2 reason ++ bytesLE 2 seq)
    memBytes m' a 8 = bytesLE 8 tag ∧ memNat m' (a + 8) 4 = handle % 2 ^ 32 ∧ memNat m' (a + 12) 2 = reason % 2 ^ 16 ∧
      memNat m' (a + 14) 2 = seq % 2 ^ 16 := by
  have e8 (v : Nat) : (bytesLE 8 v).length = 8 := length_bytesLE 8 v
  have e4 (v : Nat) : (bytesLE 4 v).length = 4 := length_bytesLE 4 v
  have e2 (v : Nat) : (bytesLE 2 v).length = 2 := length_bytesLE 2 v
  have keep (m : List Host.Cell) (x n y v k : Nat) (hxy : y + n ≤ x) : memBytes (memPuts m x (bytesLE k v)) y n = memBytes m y n :=
    memBytes_congr n _ _ y fun z _ h2 => memByte_memPuts_ne _ _ _ _ (by omega)
  have self (m : List Host.Cell) (x n v : Nat) : memBytes (memPuts m x (bytesLE n v)) x n = bytesLE n v := by
    have := memBytes_memPuts (bytesLE n v) m x; rwa [length_bytesLE] at this
  dsimp only
  simp only [memPuts_append, List.length_append, e8, e4, e2]
  refine ⟨?_, ?_, ?_, ?_⟩
  · rw [keep _ _ _ _ _ _ (by omega), keep _ _ _ _ _ _ (by omega), keep _ _ _ _ _ _ (by omega), self]
  · rw [memNat, keep _ _ _ _ _ _ (by omega), keep _ _ _ _ _ _ (by omega), self, natLE_bytesLE]; rfl
  · rw [memNat, keep _ _ _ _ _ _ (by omega), show a + 12 = a + (8 + 4) from rfl, self, natLE_bytesLE]; rfl
  · rw [memNat, show a + 14 = a + (8 + 4 + 2) from rfl, self, natLE_bytesLE]; rfl

/-- A command admitted to a ring with nothing in flight and ended, after operations that left the ring alone: its completion entry. -/
theorem completed_completeId {s u : State} {b r opcode : Nat} {e : Entry} (code h : Nat) (hr : r < ringCount b) (hl : u.ltc = s.ltc) (hb : b * 256 + code < 2 ^ 16)
    (hf : (s.ring b r).taken = []) (hu : u.rings = (s.enlist b r opcode e).2.rings) (hk : ∀ a, a = (CRING_PI b r).addr ∨ a = CRING_BASE_LO b r ∨ a = CRING_BASE_HI b r → u.reg a = s.reg a) :
    s.completed b r e code h (u.completeId b r (s.enlist b r opcode e).1.id (b * 256 + code) h) := by
  have hring : u.ring b r = (s.enlist b r opcode e).2.ring b r := ring_of_rings hu b r
  have hadm : (s.enlist b r opcode e).2.ring b r =
      { s.ring b r with
        taken := [{ id := (s.ring b r).nextId, opcode := opcode, handle := e.handle.toNat, tag := e.tag.toNat, irq := bitAt e.flags.toNat 0, done := none }]
        nextId := (s.ring b r).nextId + 1 } := by
    simp only [State.enlist, ring_setRing_self, hf, List.nil_append]
  have ht : (u.ring b r).taken = [{ id := (s.ring b r).nextId, opcode := opcode, handle := e.handle.toNat, tag := e.tag.toNat, irq := bitAt e.flags.toNat 0, done := none }] := by
    rw [hring, hadm]
  have hseq : (u.ring b r).seq = (s.ring b r).seq := by rw [hring, hadm]
  have hodd : (u.ring b r).oddCi = (s.ring b r).oddCi := by rw [hring, hadm]
  have hpi : u.get (CRING_PI b r) = s.get (CRING_PI b r) := get_congr _ (hk _ (.inl rfl))
  have haddr : u.complAddr b r = s.complAddr b r := by
    simp only [State.complAddr, complSlot_congr b r hl hseq hodd hpi, get64_congr _ _ (hk _ (.inr (.inl rfl))) (hk _ (.inr (.inr rfl)))]
  rw [completeId_only u b r (s.enlist b r opcode e).1.id _ _ _ ht rfl]
  have hreads := completion_reads u.dram (s.complAddr b r) e.tag.toNat h (b * 256 + code) (if (s.ring b r).seq = 0xFFFF then 1 else (s.ring b r).seq + 1)
  dsimp only at hreads
  refine ⟨?_, ?_, ?_, ?_, ?_⟩
  all_goals simp only [setRing_dram, writeCompletion_dram, haddr, hseq]
  · exact hreads.1
  · exact hreads.2.1
  · rw [hreads.2.2.1, Nat.mod_eq_of_lt hb]
  · exact hreads.2.2.2
  · rw [show (∀ (v : State) (g : Ring), (v.setRing b r g).get (CRING_PI b r) = v.get (CRING_PI b r)) from fun v g => get_congr _ ((keeps_setRing v b r g).2.1 _ (by simp)),
      writeCompletion_pi _ _ _ _ _ _ hr, hpi]

/-- A completion stores its sixteen bytes and no other (Table 5-5). -/
theorem dramKept_completeId {s u : State} {b r opcode : Nat} {e : Entry} (reason h : Nat) (hf : (s.ring b r).taken = [])
    (hu : u.rings = (s.enlist b r opcode e).2.rings) :
    u.dramKept (u.complAddr b r) 16 (u.completeId b r (s.enlist b r opcode e).1.id reason h) := by
  have hring : u.ring b r = (s.enlist b r opcode e).2.ring b r := ring_of_rings hu b r
  have ht : (u.ring b r).taken = [{ id := (s.ring b r).nextId, opcode := opcode, handle := e.handle.toNat, tag := e.tag.toNat, irq := bitAt e.flags.toNat 0, done := none }] := by
    rw [hring]; simp only [State.enlist, ring_setRing_self, hf, List.nil_append]
  intro x hx
  rw [completeId_only u b r (s.enlist b r opcode e).1.id _ _ _ ht rfl]
  simp only [setRing_dram, writeCompletion_dram]
  exact memByte_memPuts_ne _ _ _ _ (by simpa [length_bytesLE] using hx)

/-- A ring's completions do not depend on when its next entry may be taken. -/
theorem complTag_restSpacing {s t : State} {b r opcode tag code h : Nat} (hc : State.complTag b r tag code h (s.restSpacing b r opcode) t) :
    State.complTag b r tag code h s t := by
  have hs : (s.restSpacing b r opcode).ring b r = { s.ring b r with readyAt := s.nextReady b r opcode } := by
    simp only [State.restSpacing, State.nextReady, ring_setRing_self]
  have hg (f : Fld) : (s.restSpacing b r opcode).get f = s.get f := rfl
  have ha : (s.restSpacing b r opcode).complAddr b r = s.complAddr b r := by
    simp only [State.complAddr, complSlot_congr b r (restSpacing_ltc ..) (by rw [hs]) (by rw [hs]) (hg _)]; rfl
  simpa only [State.complTag, ha, hs, hg] using hc

/-- The command of a row that its ring runs at once. -/
theorem runRow_ready {s : State} {b r mask : Nat} {e : Entry} (h : s.ready b r mask e) (opcode : Nat) (hh : s.blockHolds b r opcode = false)
    (op : Cmd → State → State) :
    s.runRow b r opcode mask e op = op ((s.restSpacing b r opcode).enlist b r opcode e).1 ((s.restSpacing b r opcode).enlist b r opcode e).2 := by
  obtain ⟨⟨h1, h2, h3, h4, h5, h6⟩, h7, h8⟩ := h
  have h7' : (((s.restSpacing b r opcode).enlist b r opcode e).2).notFitted b = false := by simpa [State.notFitted, State.noGnss] using h7
  have hm : s.mayRun b r opcode (bitAt e.flags.toNat 1) = true := by
    simp [State.mayRun, h1, h2, h3, h4, h5, h6, hh]
  rw [State.runRow, if_pos hm]
  unfold State.runEntry
  simp only [h7', h8, Bool.false_eq_true, if_false, if_true]

end Sys2Proof.Machine
end

