-- ==== Sys2Proof/Laws/Within.lean ====
section
/-! SUPPORT. `Upd P W s t`: between `s` and `t` only the parts `P` and registers of the windows `W` changed (any register where `W` is
none), and a canonical state stayed canonical. It composes; one lemma per operation of the model says its `P` and `W`. -/

namespace Sys2Proof.Machine

set_option Elab.async false

/-- Some windows are among others; `none` stands for all. -/
def winSub : Option (List Nat) → Option (List Nat) → Bool
  | _, none => true
  | none, some _ => false
  | some l, some m => l.all fun w => m.contains w

/-- The register at `a` may change. -/
def winHas (W : Option (List Nat)) (a : Nat) : Prop := ∀ l, W = some l → windowOf a ∈ l

/-- What an operation may change, and that it keeps canonical forms. -/
structure Upd (P : List Comp) (W : Option (List Nat)) (s t : State) : Prop where
  same : ∀ p, p ∉ P → s.same t p
  reg : ∀ a, ¬ winHas W a → t.reg a = s.reg a
  wf : s.wf = true → t.wf = true
  part : t.part = s.part
  pending : t.pending = s.pending

/-- The same of an outcome, of an optional state and of a pair. -/
def OutUpd (P : List Comp) (W : Option (List Nat)) (s : State) (o : Out) : Prop := ∀ t, o = .next t → Upd P W s t
def OptUpd (P : List Comp) (W : Option (List Nat)) (s : State) (o : Option State) : Prop := ∀ t, o = some t → Upd P W s t
def SndUpd {α : Type} (P : List Comp) (W : Option (List Nat)) (s : State) (p : α × State) : Prop := Upd P W s p.2
def FstUpd {α : Type} (P : List Comp) (W : Option (List Nat)) (s : State) (p : State × α) : Prop := Upd P W s p.1
def TrdUpd {α β : Type} (P : List Comp) (W : Option (List Nat)) (s : State) (p : α × β × State) : Prop := Upd P W s p.2.2
def OptSndUpd {α : Type} (P : List Comp) (W : Option (List Nat)) (s : State) (o : Option (α × State)) : Prop := ∀ p, o = some p → Upd P W s p.2

theorem winHas_mono {W V : Option (List Nat)} {a : Nat} (h : winSub W V = true) (ha : winHas W a) : winHas V a := by
  intro l hl
  cases W with
  | none => subst hl; simp [winSub] at h
  | some w =>
    subst hl
    have := ha w rfl
    simp only [winSub, List.all_eq_true, List.contains_iff_mem] at h
    exact h _ this

theorem Upd.refl {P : List Comp} {W : Option (List Nat)} (s : State) : Upd P W s s := ⟨fun p _ => same_refl s p, fun _ _ => rfl, id, rfl, rfl⟩

theorem Upd.trans {P : List Comp} {W : Option (List Nat)} {s t u : State} (h : Upd P W s t) (h' : Upd P W t u) : Upd P W s u :=
  ⟨fun p hp => same_trans (h.same p hp) (h'.same p hp), fun a ha => (h'.reg a ha).trans (h.reg a ha), fun hs => h'.wf (h.wf hs),
    h'.part.trans h.part, h'.pending.trans h.pending⟩

theorem Upd.mono {P Q : List Comp} {W V : Option (List Nat)} {s t : State} (h : Upd P W s t) (hp : P.all (Q.contains ·) = true)
    (hw : winSub W V = true) : Upd Q V s t :=
  ⟨fun p hq => h.same p fun hm => hq (by simpa using List.all_eq_true.1 hp p hm), fun a ha => h.reg a fun hm => ha (winHas_mono hw hm),
    h.wf, h.part, h.pending⟩

/-- An operation after others. -/
theorem Upd.comp {P Q : List Comp} {W V : Option (List Nat)} {s x t : State} (h : Upd Q V x t) (hp : Q.all (P.contains ·) = true)
    (hw : winSub V W = true) (h0 : Upd P W s x) : Upd P W s t := h0.trans (h.mono hp hw)

theorem OptUpd.comp {P Q : List Comp} {W V : Option (List Nat)} {s x : State} {o : Option State} (h : OptUpd Q V x o) (hp : Q.all (P.contains ·) = true)
    (hw : winSub V W = true) (h0 : Upd P W s x) : OptUpd P W s o := fun t ht => h0.trans ((h t ht).mono hp hw)

theorem OutUpd.comp {P Q : List Comp} {W V : Option (List Nat)} {s x : State} {o : Out} (h : OutUpd Q V x o) (hp : Q.all (P.contains ·) = true)
    (hw : winSub V W = true) (h0 : Upd P W s x) : OutUpd P W s o := fun t ht => h0.trans ((h t ht).mono hp hw)

theorem SndUpd.comp {α : Type} {P Q : List Comp} {W V : Option (List Nat)} {s x : State} {o : α × State} (h : SndUpd Q V x o)
    (hp : Q.all (P.contains ·) = true) (hw : winSub V W = true) (h0 : Upd P W s x) : SndUpd P W s o := Upd.comp h hp hw h0

theorem FstUpd.comp {α : Type} {P Q : List Comp} {W V : Option (List Nat)} {s x : State} {o : State × α} (h : FstUpd Q V x o)
    (hp : Q.all (P.contains ·) = true) (hw : winSub V W = true) (h0 : Upd P W s x) : FstUpd P W s o := Upd.comp h hp hw h0

theorem TrdUpd.comp {α β : Type} {P Q : List Comp} {W V : Option (List Nat)} {s x : State} {o : α × β × State} (h : TrdUpd Q V x o)
    (hp : Q.all (P.contains ·) = true) (hw : winSub V W = true) (h0 : Upd P W s x) : TrdUpd P W s o := Upd.comp h hp hw h0

theorem OptSndUpd.comp {α : Type} {P Q : List Comp} {W V : Option (List Nat)} {s x : State} {o : Option (α × State)} (h : OptSndUpd Q V x o)
    (hp : Q.all (P.contains ·) = true) (hw : winSub V W = true) (h0 : Upd P W s x) : OptSndUpd P W s o := fun p hp' => h0.trans ((h p hp').mono hp hw)

theorem Upd.cut {P : List Comp} {W : Option (List Nat)} {s x : State} {G : Prop} (h : Upd P W s x) (k : Upd P W s x → G) : G := k h

theorem OutUpd.next {P : List Comp} {W : Option (List Nat)} {s t : State} (h : Upd P W s t) : OutUpd P W s (.next t) := by
  intro u hu; cases hu; exact h

theorem OptUpd.ofNone {P : List Comp} {W : Option (List Nat)} {s : State} : OptUpd P W s none := by intro u hu; cases hu

theorem OptUpd.ofSome {P : List Comp} {W : Option (List Nat)} {s t : State} (h : Upd P W s t) : OptUpd P W s (some t) := by
  intro u hu; cases hu; exact h

theorem OptUpd.ite {P : List Comp} {W : Option (List Nat)} {s : State} {c : Prop} [Decidable c] {a b : Option State} (ha : OptUpd P W s a) (hb : OptUpd P W s b) :
    OptUpd P W s (if c then a else b) := by
  split
  · exact ha
  · exact hb

theorem OptUpd.map {α : Type} {P : List Comp} {W : Option (List Nat)} {s : State} {o : Option α} {f : α → State} (h : ∀ a, o = some a → Upd P W s (f a)) :
    OptUpd P W s (o.map f) := by
  intro t ht
  cases o with
  | none => cases ht
  | some a => cases ht; exact h a rfl

theorem OptSndUpd.ofNone {α : Type} {P : List Comp} {W : Option (List Nat)} {s : State} : OptSndUpd (α := α) P W s none := by intro u hu; cases hu

theorem OptSndUpd.ofSome {α : Type} {P : List Comp} {W : Option (List Nat)} {s : State} {p : α × State} (h : SndUpd P W s p) : OptSndUpd P W s (some p) := by
  intro u hu; cases hu; exact h

/-- Pairs with a state, under names of their own. -/
def State.pairSnd {α : Type} (a : α) (t : State) : α × State := (a, t)
def State.pairFst {α : Type} (t : State) (a : α) : State × α := (t, a)
def State.pairTrd {α β : Type} (a : α) (b : β) (t : State) : α × β × State := (a, b, t)
theorem State.snd_pair {α : Type} (a : α) (t : State) : (a, t) = State.pairSnd a t := by simp only [State.pairSnd]
theorem State.fst_pair {α : Type} (t : State) (a : α) : (t, a) = State.pairFst t a := by simp only [State.pairFst]
theorem State.trd_pair {α β : Type} (a : α) (b : β) (t : State) : (a, b, t) = State.pairTrd a b t := by simp only [State.pairTrd]
theorem SndUpd.mk {α : Type} {P : List Comp} {W : Option (List Nat)} {s t : State} {a : α} (h : Upd P W s t) : SndUpd P W s (State.pairSnd a t) := h
theorem FstUpd.mk {α : Type} {P : List Comp} {W : Option (List Nat)} {s t : State} {a : α} (h : Upd P W s t) : FstUpd P W s (State.pairFst t a) := h
theorem TrdUpd.mk {α β : Type} {P : List Comp} {W : Option (List Nat)} {s t : State} {a : α} {b : β} (h : Upd P W s t) : TrdUpd P W s (State.pairTrd a b t) := h

/-- The state in a pair, under a name of its own. -/
def State.fstBox {α : Type} (p : State × α) : State := p.1
def State.sndBox {α : Type} (p : α × State) : State := p.2
theorem State.fst_box {α : Type} (p : State × α) : p.1 = State.fstBox p := by simp only [State.fstBox]
theorem State.snd_box {α : Type} (p : α × State) : p.2 = State.sndBox p := by simp only [State.sndBox]
theorem FstUpd.out {α : Type} {P : List Comp} {W : Option (List Nat)} {s : State} {p : State × α} (h : FstUpd P W s p) : Upd P W s (State.fstBox p) := h
theorem SndUpd.out {α : Type} {P : List Comp} {W : Option (List Nat)} {s : State} {p : α × State} (h : SndUpd P W s p) : Upd P W s (State.sndBox p) := h
def State.trdBox {α β : Type} (p : α × β × State) : State := p.2.2
theorem State.trd_box {α β : Type} (p : α × β × State) : p.2.2 = State.trdBox p := by simp only [State.trdBox]
theorem TrdUpd.out {α β : Type} {P : List Comp} {W : Option (List Nat)} {s : State} {p : α × β × State} (h : TrdUpd P W s p) : Upd P W s (State.trdBox p) := h

theorem SndUpd.of_eq {α : Type} {P : List Comp} {W : Option (List Nat)} {s t : State} {a : α} {p : α × State} (h : SndUpd P W s p) (e : p = (a, t)) :
    Upd P W s t := by subst e; exact h
theorem FstUpd.of_eq {α : Type} {P : List Comp} {W : Option (List Nat)} {s t : State} {a : α} {p : State × α} (h : FstUpd P W s p) (e : p = (t, a)) :
    Upd P W s t := by subst e; exact h
theorem TrdUpd.of_eq {α β : Type} {P : List Comp} {W : Option (List Nat)} {s t : State} {a : α} {b : β} {p : α × β × State} (h : TrdUpd P W s p)
    (e : p = (a, b, t)) : Upd P W s t := by subst e; exact h
theorem OptUpd.of_eq {P : List Comp} {W : Option (List Nat)} {s t : State} {o : Option State} (h : OptUpd P W s o) (e : o = some t) : Upd P W s t := h t e
theorem OptSndUpd.of_eq {α : Type} {P : List Comp} {W : Option (List Nat)} {s : State} {p : α × State} {o : Option (α × State)} (h : OptSndUpd P W s o)
    (e : o = some p) : SndUpd P W s p := h p e
theorem OptSndUpd.of_eq' {α : Type} {P : List Comp} {W : Option (List Nat)} {s t : State} {a : α} {o : Option (α × State)} (h : OptSndUpd P W s o)
    (e : o = some (a, t)) : Upd P W s t := h (a, t) e

theorem Upd.when {P : List Comp} {W : Option (List Nat)} {s x : State} {c : Bool} {f : State → State} (h0 : Upd P W s x)
    (h : ∀ y, Upd P W s y → Upd P W s (f y)) : Upd P W s (x.when c f) := by
  unfold State.when
  split
  · exact h x h0
  · exact h0

/-- A loop keeps what each round keeps. -/
theorem Upd.foldl {α : Type} {P : List Comp} {W : Option (List Nat)} {s : State} {f : State → α → State} (l : List α) {x : State}
    (h : ∀ y a, a ∈ l → Upd P W s y → Upd P W s (f y a)) (h0 : Upd P W s x) : Upd P W s (l.foldl f x) := by
  induction l generalizing x with
  | nil => exact h0
  | cons a l ih => exact ih (fun y b hb hy => h y b (by simp [hb]) hy) (h x a (by simp) h0)

theorem FstUpd.foldl {α β : Type} {P : List Comp} {W : Option (List Nat)} {s : State} {f : State × β → α → State × β} (l : List α) {x : State × β}
    (h : ∀ y a, a ∈ l → FstUpd P W s y → FstUpd P W s (f y a)) (h0 : FstUpd P W s x) : FstUpd P W s (l.foldl f x) := by
  induction l generalizing x with
  | nil => exact h0
  | cons a l ih => exact ih (fun y b hb hy => h y b (by simp [hb]) hy) (h x a (by simp) h0)

theorem SndUpd.foldl {α β : Type} {P : List Comp} {W : Option (List Nat)} {s : State} {f : β × State → α → β × State} (l : List α) {x : β × State}
    (h : ∀ y a, a ∈ l → SndUpd P W s y → SndUpd P W s (f y a)) (h0 : SndUpd P W s x) : SndUpd P W s (l.foldl f x) := by
  induction l generalizing x with
  | nil => exact h0
  | cons a l ih => exact ih (fun y b hb hy => h y b (by simp [hb]) hy) (h x a (by simp) h0)

theorem Upd.ite {P : List Comp} {W : Option (List Nat)} {s x y : State} {c : Prop} [Decidable c] (hx : Upd P W s x) (hy : Upd P W s y) :
    Upd P W s (if c then x else y) := by split <;> assumption

/-- A record update of parts. -/
theorem Upd.struct {P : List Comp} {W : Option (List Nat)} {s x : State} (h : Upd P W s x)
    {v_ltc : Nat} {v_latch : Tbl Word} {v_img : Tbl Nat} {v_access : BusResult} {v_dram : List Host.Cell} {v_mram : List Host.Cell} {v_ufs : List Host.Cell} {v_free : Nat} {v_sys : SysState} {v_ka : KaState} {v_cyc : CycleState} {v_str : StrState} {v_rings : Tbl Ring} {v_gens : Tbl Nat} {v_nv : NvState} {v_tms : TmsState} {v_inp : InpState} {v_cle : CleState} {v_vdr : VdrState} {v_stk : StkState} {v_saf : SafState} {v_gnb : GnbState} {v_cam : CamState} {v_fen : FenState} {v_arb : ArbState} {v_fus : FusState} {v_yld : YldState} {v_bus : BusState} {v_eth : EthState} {v_pair : PairState} {v_pnl : PnlState} {v_rcd : RcdState} {v_upd : UpdState}
    (h_ltc : v_ltc = x.ltc ∨ Comp.ltc ∈ P)
    (h_latch : v_latch = x.latch ∨ Comp.latch ∈ P)
    (h_img : v_img = x.img ∨ Comp.img ∈ P)
    (h_access : v_access = x.access ∨ Comp.access ∈ P)
    (h_dram : v_dram = x.dram ∨ (Comp.dram ∈ P ∧ (memWf x.dram = true → memWf v_dram = true)))
    (h_mram : v_mram = x.mram ∨ (Comp.mram ∈ P ∧ (memWf x.mram = true → memWf v_mram = true)))
    (h_ufs : v_ufs = x.ufs ∨ (Comp.ufs ∈ P ∧ (memWf x.ufs = true → memWf v_ufs = true)))
    (h_free : v_free = x.free ∨ Comp.free ∈ P)
    (h_sys : v_sys = x.sys ∨ Comp.sys ∈ P)
    (h_ka : v_ka = x.ka ∨ Comp.ka ∈ P)
    (h_cyc : v_cyc = x.cyc ∨ Comp.cyc ∈ P)
    (h_str : v_str = x.str ∨ Comp.str ∈ P)
    (h_rings : v_rings = x.rings ∨ Comp.rings ∈ P)
    (h_gens : v_gens = x.gens ∨ Comp.gens ∈ P)
    (h_nv : v_nv = x.nv ∨ Comp.nv ∈ P)
    (h_tms : v_tms = x.tms ∨ Comp.tms ∈ P)
    (h_inp : v_inp = x.inp ∨ Comp.inp ∈ P)
    (h_cle : v_cle = x.cle ∨ Comp.cle ∈ P)
    (h_vdr : v_vdr = x.vdr ∨ Comp.vdr ∈ P)
    (h_stk : v_stk = x.stk ∨ Comp.stk ∈ P)
    (h_saf : v_saf = x.saf ∨ Comp.saf ∈ P)
    (h_gnb : v_gnb = x.gnb ∨ Comp.gnb ∈ P)
    (h_cam : v_cam = x.cam ∨ Comp.cam ∈ P)
    (h_fen : v_fen = x.fen ∨ Comp.fen ∈ P)
    (h_arb : v_arb = x.arb ∨ Comp.arb ∈ P)
    (h_fus : v_fus = x.fus ∨ Comp.fus ∈ P)
    (h_yld : v_yld = x.yld ∨ Comp.yld ∈ P)
    (h_bus : v_bus = x.bus ∨ Comp.bus ∈ P)
    (h_eth : v_eth = x.eth ∨ Comp.eth ∈ P)
    (h_pair : v_pair = x.pair ∨ Comp.pair ∈ P)
    (h_pnl : v_pnl = x.pnl ∨ Comp.pnl ∈ P)
    (h_rcd : v_rcd = x.rcd ∨ Comp.rcd ∈ P)
    (h_upd : v_upd = x.upd ∨ Comp.upd ∈ P) :
    Upd P W s (State.mk x.part v_ltc x.regs v_latch v_img v_access v_dram v_mram v_ufs v_free v_sys v_ka v_cyc v_str v_rings v_gens v_nv v_tms v_inp v_cle v_vdr v_stk v_saf v_gnb v_cam v_fen v_arb v_fus v_yld v_bus v_eth v_pair v_pnl v_rcd v_upd x.pending) := by
  refine h.trans ⟨fun p hp => ?_, fun a _ => rfl, fun hs => ?_, rfl, rfl⟩
  · cases p
    case ltc => exact h_ltc.resolve_right hp
    case latch => exact h_latch.resolve_right hp
    case img => exact h_img.resolve_right hp
    case access => exact h_access.resolve_right hp
    case dram => exact h_dram.resolve_right fun e => hp e.1
    case mram => exact h_mram.resolve_right fun e => hp e.1
    case ufs => exact h_ufs.resolve_right fun e => hp e.1
    case free => exact h_free.resolve_right hp
    case sys => exact h_sys.resolve_right hp
    case ka => exact h_ka.resolve_right hp
    case cyc => exact h_cyc.resolve_right hp
    case str => exact h_str.resolve_right hp
    case rings => exact h_rings.resolve_right hp
    case gens => exact h_gens.resolve_right hp
    case nv => exact h_nv.resolve_right hp
    case tms => exact h_tms.resolve_right hp
    case inp => exact h_inp.resolve_right hp
    case cle => exact h_cle.resolve_right hp
    case vdr => exact h_vdr.resolve_right hp
    case stk => exact h_stk.resolve_right hp
    case saf => exact h_saf.resolve_right hp
    case gnb => exact h_gnb.resolve_right hp
    case cam => exact h_cam.resolve_right hp
    case fen => exact h_fen.resolve_right hp
    case arb => exact h_arb.resolve_right hp
    case fus => exact h_fus.resolve_right hp
    case yld => exact h_yld.resolve_right hp
    case bus => exact h_bus.resolve_right hp
    case eth => exact h_eth.resolve_right hp
    case pair => exact h_pair.resolve_right hp
    case pnl => exact h_pnl.resolve_right hp
    case rcd => exact h_rcd.resolve_right hp
    case upd => exact h_upd.resolve_right hp
  · simp only [State.wf, Bool.and_eq_true] at hs ⊢
    obtain ⟨⟨⟨a, b⟩, c⟩, d⟩ := hs
    exact ⟨⟨⟨a, h_dram.elim (fun e => e ▸ b) fun e => e.2 b⟩, h_mram.elim (fun e => e ▸ c) fun e => e.2 c⟩, h_ufs.elim (fun e => e ▸ d) fun e => e.2 d⟩

/-- A state given by its fields, under a name of its own. -/
def State.box (v_part : Part) (v_ltc : Nat) (v_regs : Tbl Word) (v_latch : Tbl Word) (v_img : Tbl Nat) (v_access : BusResult) (v_dram : List Host.Cell) (v_mram : List Host.Cell) (v_ufs : List Host.Cell) (v_free : Nat) (v_sys : SysState) (v_ka : KaState) (v_cyc : CycleState) (v_str : StrState) (v_rings : Tbl Ring) (v_gens : Tbl Nat) (v_nv : NvState) (v_tms : TmsState) (v_inp : InpState) (v_cle : CleState) (v_vdr : VdrState) (v_stk : StkState) (v_saf : SafState) (v_gnb : GnbState) (v_cam : CamState) (v_fen : FenState) (v_arb : ArbState) (v_fus : FusState) (v_yld : YldState) (v_bus : BusState) (v_eth : EthState) (v_pair : PairState) (v_pnl : PnlState) (v_rcd : RcdState) (v_upd : UpdState) (v_pending : List Instr) : State := State.mk v_part v_ltc v_regs v_latch v_img v_access v_dram v_mram v_ufs v_free v_sys v_ka v_cyc v_str v_rings v_gens v_nv v_tms v_inp v_cle v_vdr v_stk v_saf v_gnb v_cam v_fen v_arb v_fus v_yld v_bus v_eth v_pair v_pnl v_rcd v_upd v_pending

theorem State.mk_box {v_part : Part} {v_ltc : Nat} {v_regs : Tbl Word} {v_latch : Tbl Word} {v_img : Tbl Nat} {v_access : BusResult} {v_dram : List Host.Cell} {v_mram : List Host.Cell} {v_ufs : List Host.Cell} {v_free : Nat} {v_sys : SysState} {v_ka : KaState} {v_cyc : CycleState} {v_str : StrState} {v_rings : Tbl Ring} {v_gens : Tbl Nat} {v_nv : NvState} {v_tms : TmsState} {v_inp : InpState} {v_cle : CleState} {v_vdr : VdrState} {v_stk : StkState} {v_saf : SafState} {v_gnb : GnbState} {v_cam : CamState} {v_fen : FenState} {v_arb : ArbState} {v_fus : FusState} {v_yld : YldState} {v_bus : BusState} {v_eth : EthState} {v_pair : PairState} {v_pnl : PnlState} {v_rcd : RcdState} {v_upd : UpdState} {v_pending : List Instr} : State.mk v_part v_ltc v_regs v_latch v_img v_access v_dram v_mram v_ufs v_free v_sys v_ka v_cyc v_str v_rings v_gens v_nv v_tms v_inp v_cle v_vdr v_stk v_saf v_gnb v_cam v_fen v_arb v_fus v_yld v_bus v_eth v_pair v_pnl v_rcd v_upd v_pending = State.box v_part v_ltc v_regs v_latch v_img v_access v_dram v_mram v_ufs v_free v_sys v_ka v_cyc v_str v_rings v_gens v_nv v_tms v_inp v_cle v_vdr v_stk v_saf v_gnb v_cam v_fen v_arb v_fus v_yld v_bus v_eth v_pair v_pnl v_rcd v_upd v_pending := by simp only [State.box]

theorem Upd.box {P : List Comp} {W : Option (List Nat)} {s x : State} (h : Upd P W s x)
    {v_ltc : Nat} {v_latch : Tbl Word} {v_img : Tbl Nat} {v_access : BusResult} {v_dram : List Host.Cell} {v_mram : List Host.Cell} {v_ufs : List Host.Cell} {v_free : Nat} {v_sys : SysState} {v_ka : KaState} {v_cyc : CycleState} {v_str : StrState} {v_rings : Tbl Ring} {v_gens : Tbl Nat} {v_nv : NvState} {v_tms : TmsState} {v_inp : InpState} {v_cle : CleState} {v_vdr : VdrState} {v_stk : StkState} {v_saf : SafState} {v_gnb : GnbState} {v_cam : CamState} {v_fen : FenState} {v_arb : ArbState} {v_fus : FusState} {v_yld : YldState} {v_bus : BusState} {v_eth : EthState} {v_pair : PairState} {v_pnl : PnlState} {v_rcd : RcdState} {v_upd : UpdState}
    (h_ltc : v_ltc = x.ltc ∨ Comp.ltc ∈ P)
    (h_latch : v_latch = x.latch ∨ Comp.latch ∈ P)
    (h_img : v_img = x.img ∨ Comp.img ∈ P)
    (h_access : v_access = x.access ∨ Comp.access ∈ P)
    (h_dram : v_dram = x.dram ∨ (Comp.dram ∈ P ∧ (memWf x.dram = true → memWf v_dram = true)))
    (h_mram : v_mram = x.mram ∨ (Comp.mram ∈ P ∧ (memWf x.mram = true → memWf v_mram = true)))
    (h_ufs : v_ufs = x.ufs ∨ (Comp.ufs ∈ P ∧ (memWf x.ufs = true → memWf v_ufs = true)))
    (h_free : v_free = x.free ∨ Comp.free ∈ P)
    (h_sys : v_sys = x.sys ∨ Comp.sys ∈ P)
    (h_ka : v_ka = x.ka ∨ Comp.ka ∈ P)
    (h_cyc : v_cyc = x.cyc ∨ Comp.cyc ∈ P)
    (h_str : v_str = x.str ∨ Comp.str ∈ P)
    (h_rings : v_rings = x.rings ∨ Comp.rings ∈ P)
    (h_gens : v_gens = x.gens ∨ Comp.gens ∈ P)
    (h_nv : v_nv = x.nv ∨ Comp.nv ∈ P)
    (h_tms : v_tms = x.tms ∨ Comp.tms ∈ P)
    (h_inp : v_inp = x.inp ∨ Comp.inp ∈ P)
    (h_cle : v_cle = x.cle ∨ Comp.cle ∈ P)
    (h_vdr : v_vdr = x.vdr ∨ Comp.vdr ∈ P)
    (h_stk : v_stk = x.stk ∨ Comp.stk ∈ P)
    (h_saf : v_saf = x.saf ∨ Comp.saf ∈ P)
    (h_gnb : v_gnb = x.gnb ∨ Comp.gnb ∈ P)
    (h_cam : v_cam = x.cam ∨ Comp.cam ∈ P)
    (h_fen : v_fen = x.fen ∨ Comp.fen ∈ P)
    (h_arb : v_arb = x.arb ∨ Comp.arb ∈ P)
    (h_fus : v_fus = x.fus ∨ Comp.fus ∈ P)
    (h_yld : v_yld = x.yld ∨ Comp.yld ∈ P)
    (h_bus : v_bus = x.bus ∨ Comp.bus ∈ P)
    (h_eth : v_eth = x.eth ∨ Comp.eth ∈ P)
    (h_pair : v_pair = x.pair ∨ Comp.pair ∈ P)
    (h_pnl : v_pnl = x.pnl ∨ Comp.pnl ∈ P)
    (h_rcd : v_rcd = x.rcd ∨ Comp.rcd ∈ P)
    (h_upd : v_upd = x.upd ∨ Comp.upd ∈ P) :
    Upd P W s (State.box x.part v_ltc x.regs v_latch v_img v_access v_dram v_mram v_ufs v_free v_sys v_ka v_cyc v_str v_rings v_gens v_nv v_tms v_inp v_cle v_vdr v_stk v_saf v_gnb v_cam v_fen v_arb v_fus v_yld v_bus v_eth v_pair v_pnl v_rcd v_upd x.pending) := by
  rw [← State.mk_box]
  exact Upd.struct h h_ltc h_latch h_img h_access h_dram h_mram h_ufs h_free h_sys h_ka h_cyc h_str h_rings h_gens h_nv h_tms h_inp h_cle h_vdr h_stk h_saf h_gnb h_cam h_fen h_arb h_fus h_yld h_bus h_eth h_pair h_pnl h_rcd h_upd

/-! ### The shared operations -/

theorem wf_of {s t : State} (hr : regsWf s.regs = true → regsWf t.regs = true) (hd : t.dram = s.dram) (hm : t.mram = s.mram) (hu : t.ufs = s.ufs) :
    s.wf = true → t.wf = true := by
  simp only [State.wf, Bool.and_eq_true, hd, hm, hu]
  rintro ⟨⟨⟨a, b⟩, c⟩, d⟩
  exact ⟨⟨⟨hr a, b⟩, c⟩, d⟩

theorem State_setReg_mut {w : Nat} (a : Nat) (v : Word) (s : State) (h : windowOf a = w) : Upd [] (some [w]) s (s.setReg a v) :=
  ⟨fun p _ => by cases p <;> simp [State.same], fun b hb => reg_setReg_ne s v (by rintro rfl; exact hb fun l hl => by cases hl; simp [h]),
    wf_of (fun hs => regsWf_regsPut hs _ _) (by simp) (by simp) (by simp), by simp, by simp⟩

theorem State_set_mut {w : Nat} (f : Fld) (v : Nat) (s : State) (h : windowOf f.addr = w) : Upd [] (some [w]) s (s.set f v) := State_setReg_mut _ _ s h
theorem State_setB_mut {w : Nat} (f : Fld) (v : Bool) (s : State) (h : windowOf f.addr = w) : Upd [] (some [w]) s (s.setB f v) := State_setReg_mut _ _ s h
theorem State_bump_mut {w : Nat} (f : Fld) (n : Nat) (s : State) (h : windowOf f.addr = w) : Upd [] (some [w]) s (s.bump f n) := State_setReg_mut _ _ s h
theorem State_wrapInc_mut {w : Nat} (f : Fld) (s : State) (h : windowOf f.addr = w) : Upd [] (some [w]) s (s.wrapInc f) := State_setReg_mut _ _ s h

theorem State_set64_mut {w : Nat} (lo hi v : Nat) (s : State) (h : windowOf lo = w) (h' : windowOf hi = w) : Upd [] (some [w]) s (s.set64 lo hi v) :=
  (State_setReg_mut _ _ s h).trans (State_setReg_mut _ _ _ h')

theorem State_setReg_step {P : List Comp} {W : Option (List Nat)} {s x : State} {w a : Nat} {v : Word} (h0 : Upd P W s x) (hw : winSub (some [w]) W = true)
    (h : windowOf a = w) : Upd P W s (x.setReg a v) := (State_setReg_mut a v x h).comp rfl hw h0
theorem State_set_step {P : List Comp} {W : Option (List Nat)} {s x : State} {w : Nat} {f : Fld} {v : Nat} (h0 : Upd P W s x) (hw : winSub (some [w]) W = true)
    (h : windowOf f.addr = w) : Upd P W s (x.set f v) := State_setReg_step h0 hw h
theorem State_setB_step {P : List Comp} {W : Option (List Nat)} {s x : State} {w : Nat} {f : Fld} {v : Bool} (h0 : Upd P W s x) (hw : winSub (some [w]) W = true)
    (h : windowOf f.addr = w) : Upd P W s (x.setB f v) := State_setReg_step h0 hw h
theorem State_bump_step {P : List Comp} {W : Option (List Nat)} {s x : State} {w : Nat} {f : Fld} {v : Nat} (h0 : Upd P W s x) (hw : winSub (some [w]) W = true)
    (h : windowOf f.addr = w) : Upd P W s (x.bump f v) := State_setReg_step h0 hw h
theorem State_wrapInc_step {P : List Comp} {W : Option (List Nat)} {s x : State} {w : Nat} {f : Fld} (h0 : Upd P W s x) (hw : winSub (some [w]) W = true)
    (h : windowOf f.addr = w) : Upd P W s (x.wrapInc f) := State_setReg_step h0 hw h
theorem State_set64_step {P : List Comp} {W : Option (List Nat)} {s x : State} {w lo hi v : Nat} (h0 : Upd P W s x) (hw : winSub (some [w]) W = true)
    (h : windowOf lo = w) (h' : windowOf hi = w) : Upd P W s (x.set64 lo hi v) := State_setReg_step (State_setReg_step h0 hw h) hw h'

/-- A write of any register. -/
theorem setReg_any (a : Nat) (v : Word) (s : State) : Upd [] none s (s.setReg a v) := (State_setReg_mut a v s rfl).mono rfl rfl

theorem setB_any (f : Fld) (v : Bool) (s : State) : Upd [] none s (s.setB f v) := setReg_any _ _ s

theorem set_any (f : Fld) (v : Nat) (s : State) : Upd [] none s (s.set f v) := setReg_any _ _ s

theorem State_plainWrite_mut (a : Nat) (value : Word) (s : State) : Upd [] none s (s.plainWrite a value) := by
  unfold State.plainWrite
  split
  · exact Upd.refl s
  · exact setReg_any _ _ s

theorem State_wipeRegs_mut {w : Nat} (a n : Nat) (s : State) (h : ∀ b, a ≤ b → b < a + n → windowOf b = w) : Upd [.latch] (some [w]) s (s.wipeRegs a n) := by
  refine ⟨fun p hp => by cases p <;> simp [State.same] at hp ⊢, fun b hb => ?_, wf_of (fun hs => regsWf_filter hs _) (by simp) (by simp) (by simp), by simp, by simp⟩
  have := tget_filter (fun k => !(decide (a ≤ k) && decide (k < a + n))) s.regs b
  simp only [State.reg, State.wipeRegs]
  rw [show (List.filter (fun (e : Nat × Word) => !(decide (a ≤ e.1) && decide (e.1 < a + n))) s.regs) =
    s.regs.filter fun e => (fun k => !(decide (a ≤ k) && decide (k < a + n))) e.1 from rfl, this, if_pos]
  by_cases hc : a ≤ b ∧ b < a + n
  · exact absurd (fun l hl => by cases hl; simp [h b hc.1 hc.2]) hb
  · simp; omega


theorem State_drawn_mut (s : State) : Upd [.free] (some []) s s.drawn :=
  ⟨fun p hp => by cases p <;> simp [State.same] at hp ⊢, fun a _ => by simp [State.reg], wf_of (by simp) (by simp) (by simp) (by simp), by simp, by simp⟩

theorem State_refEdge_mut (s : State) : Upd [.ltc] (some []) s s.refEdge :=
  ⟨fun p hp => by cases p <;> simp [State.same] at hp ⊢, fun a _ => by simp [State.reg], wf_of (by simp) (by simp) (by simp) (by simp), by simp, by simp⟩

theorem State_dramPuts_mut (a : Nat) (bs : List Byte) (s : State) : Upd [.dram] (some []) s (s.dramPuts a bs) := by
  refine ⟨fun p hp => by cases p <;> simp [State.same] at hp ⊢, fun a _ => by simp [State.reg], fun hs => ?_, by simp, by simp⟩
  simp only [State.wf, Bool.and_eq_true, dramPuts_regs, dramPuts_mram, dramPuts_ufs] at hs ⊢
  exact ⟨⟨⟨hs.1.1.1, memWf_memPuts hs.1.1.2 a bs⟩, hs.1.2⟩, hs.2⟩

theorem State_blockPuts_mut (b a : Nat) (bs : List Byte) (s : State) : Upd [.dram] (some []) s (s.blockPuts b a bs) := by
  unfold State.blockPuts
  exact Upd.ite (State_dramPuts_mut a bs s) (Upd.refl s)

theorem State_dramPutN_mut (a n v : Nat) (s : State) : Upd [.dram] (some []) s (s.dramPutN a n v) := State_dramPuts_mut _ _ s

theorem State_setRing_mut (b r : Nat) (g : Ring) (s : State) : Upd [.rings] (some []) s (s.setRing b r g) :=
  ⟨fun p hp => by cases p <;> simp [State.same] at hp ⊢, fun a _ => by simp [State.reg], wf_of (by simp) (by simp) (by simp) (by simp), by simp, by simp⟩

theorem State_restSpacing_mut (b r opcode : Nat) (s : State) : Upd [.rings] (some []) s (s.restSpacing b r opcode) := State_setRing_mut _ _ _ s

theorem State_advGen_mut (c i : Nat) (s : State) : Upd [.gens] (some []) s (s.advGen c i) :=
  ⟨fun p hp => by cases p <;> simp [State.same] at hp ⊢, fun a _ => by simp [State.reg], wf_of (by simp) (by simp) (by simp) (by simp), by simp, by simp⟩

theorem State_rcdRaise_mut (n l : Nat) (s : State) : Upd [.rcd] (some []) s (s.rcdRaise n l) :=
  ⟨fun p hp => by cases p <;> simp [State.same] at hp ⊢, fun a _ => by simp [State.reg], wf_of (by simp) (by simp) (by simp) (by simp), by simp, by simp⟩

theorem State_setLoaded_mut (r : Nat) (b : Bool) (s : State) : Upd [] (some [0xC2]) s (s.setLoaded r b) := State_set_mut _ _ s rfl
theorem State_setBusy_mut (r : Nat) (b : Bool) (s : State) : Upd [] (some [0xC2]) s (s.setBusy r b) := State_set_mut _ _ s rfl

theorem win_evt (n : Nat) : windowOf (EVT_SRC_STAT n) = 0xC1 ∧ windowOf (EVT_SRC_LTC_LO n) = 0xC1 ∧ windowOf (EVT_SRC_LTC_HI n) = 0xC1 := by
  simp only [windowOf, EVT_SRC_STAT, EVT_SRC_LTC_LO, EVT_SRC_LTC_HI]; omega

theorem State_noteRaise_mut (n l : Nat) (b : Bool) (s : State) : Upd [.cyc] (some []) s (s.noteRaise n l b) :=
  ⟨fun p hp => by cases p <;> simp [State.same] at hp ⊢, fun a _ => by simp [State.reg], wf_of (by simp) (by simp) (by simp) (by simp), by simp, by simp⟩

theorem State_raiseAt_mut (n l : Nat) (s : State) : Upd [.rcd, .cyc] (some [0xC1]) s (s.raiseAt n l) := by
  have h0 : Upd [.rcd, .cyc] (some [0xC1]) s (s.rcdRaise n l) := (State_rcdRaise_mut n l s).mono rfl rfl
  have h1 (b : Bool) : Upd [.rcd, .cyc] (some [0xC1]) s ((s.rcdRaise n l).noteRaise n l b) := h0.trans ((State_noteRaise_mut n l b _).mono rfl rfl)
  unfold State.raiseAt
  dsimp only
  split
  · exact Upd.refl s
  · split
    · split
      · exact (h1 _).trans ((State_setB_mut _ _ _ (win_evt n).1).mono rfl rfl)
      · exact (h1 _).trans (((State_setB_mut _ _ _ (win_evt n).1).mono rfl rfl).trans ((State_set64_mut _ _ _ _ (win_evt n).2.1 (win_evt n).2.2).mono rfl rfl))
    · exact h0

theorem State_raise_mut (n : Nat) (s : State) : Upd [.rcd, .cyc] (some [0xC1]) s (s.raise n) := State_raiseAt_mut n _ s

theorem State_detLatch_mut (s : State) : Upd [.rcd, .cyc] (some [0xC0, 0xC1]) s s.detLatch :=
  ((State_set64_mut (w := 0xC0) SYS_DET_FIRST_LO SYS_DET_FIRST_HI _ _ (by decide) (by decide)).mono rfl rfl).trans ((State_raise_mut 4 _).mono rfl rfl)

/-- What the REF cycle is noted to hold. -/
theorem cyc_mut (c : CycleState) (s : State) : Upd [.cyc] (some []) s { s with cyc := c } :=
  ⟨fun p hp => by cases p <;> simp [State.same] at hp ⊢, fun _ _ => rfl, id, rfl, rfl⟩

theorem State_detViol_mut (f : Fld) (s : State) (h : windowOf f.addr = 0xC0) : Upd [.rcd, .cyc] (some [0xC0, 0xC1]) s (s.detViol f) := by
  have h0 (c : CycleState) : Upd [.rcd, .cyc] (some [0xC0, 0xC1]) s (State.setB f true { s with cyc := c }) :=
    ((cyc_mut c s).mono rfl rfl).trans ((State_setB_mut f true _ h).mono rfl rfl)
  unfold State.detViol State.when
  dsimp only
  split
  · exact (h0 _).trans (State_detLatch_mut _)
  · exact h0 _

theorem State_detViol_step {P : List Comp} {W : Option (List Nat)} {s x : State} {f : Fld} (h0 : Upd P W s x) (hp : [Comp.rcd, .cyc].all (P.contains ·) = true)
    (hw : winSub (some [0xC0, 0xC1]) W = true) (h : windowOf f.addr = 0xC0) : Upd P W s (x.detViol f) := (State_detViol_mut f x h).comp hp hw h0

theorem State_wipeRegs_step {P : List Comp} {W : Option (List Nat)} {s x : State} {w a n : Nat} (h0 : Upd P W s x) (hp : [Comp.latch].all (P.contains ·) = true)
    (hw : winSub (some [w]) W = true) (h : ∀ b, a ≤ b → b < a + n → windowOf b = w) : Upd P W s (x.wipeRegs a n) := (State_wipeRegs_mut a n x h).comp hp hw h0

/-- The window of a block that has rings, and of its ring groups. -/
theorem win_ring {b : Nat} (r : Nat) (hb : b ≠ 0x14 ∧ 2 ≤ b) :
    windowOf (ringG b r) = 0xC0 + b ∧ windowOf (ringG b r + 0x18) = 0xC0 + b := by
  simp only [windowOf, ringG, blkBase]
  rw [if_neg (by omega), if_neg (by omega)]
  split <;> omega

theorem win_ring_at {b a : Nat} (r : Nat) (hb : b ≠ 0x14 ∧ 2 ≤ b)
    (h : a = ringG b r + 0x10 ∨ a = ringG b r + 0x14 ∨ a = ringG b r + 0x18 ∨ a = ringG b r + 0x1C) : windowOf a = 0xC0 + b := by
  simp only [windowOf, ringG, blkBase] at h ⊢
  rw [if_neg (by omega), if_neg (by omega)] at h
  split at h <;> omega

theorem State_completionEvent_mut (b r : Nat) (s : State) : Upd [.rcd, .cyc] (some [0xC1, 0xC0 + b]) s (s.completionEvent b r) := by
  have h (n : Nat) : Upd [.rcd, .cyc] (some [0xC1, 0xC0 + b]) s (s.raise n) := (State_raise_mut n s).mono rfl (by simp [winSub])
  unfold State.completionEvent
  split
  case h_5 =>
    dsimp only
    split
    · exact h _
    · split
      · exact Upd.refl s
      · exact ((State_setB_mut (w := 0xCA) _ _ _ (by simp [windowOf, FEN_JOB_PEND])).mono rfl (by decide)).trans ((State_raise_mut 193 _).mono rfl (by decide))
  all_goals first | exact h _ | exact Upd.refl s

theorem State_writeCompletion_mut {b : Nat} (r : Nat) (t : Taken) (reason handle : Nat) (s : State) (hb : b ≠ 0x14 ∧ 2 ≤ b) :
    Upd [.rings, .dram, .rcd, .cyc] (some [0xC1, 0xC0 + b]) s (s.writeCompletion b r t reason handle) := by
  have h1 (u : State) (g : Ring) : Upd [.rings, .dram, .rcd, .cyc] (some [0xC1, 0xC0 + b]) u (u.setRing b r g) := (State_setRing_mut b r g u).mono rfl rfl
  have h2 (u : State) (a : Nat) (bs : List Byte) : Upd [.rings, .dram, .rcd, .cyc] (some [0xC1, 0xC0 + b]) u (u.dramPuts a bs) := (State_dramPuts_mut a bs u).mono rfl rfl
  have h3 (u : State) (v : Nat) : Upd [.rings, .dram, .rcd, .cyc] (some [0xC1, 0xC0 + b]) u (u.set (CRING_PI b r) v) :=
    (State_set_mut (CRING_PI b r) v u (win_ring r hb).2).mono rfl (by simp [winSub])
  have h4 (u : State) : Upd [.rings, .dram, .rcd, .cyc] (some [0xC1, 0xC0 + b]) u (u.completionEvent b r) := (State_completionEvent_mut b r u).mono rfl (by simp [winSub])
  unfold State.writeCompletion
  dsimp only
  split
  · exact (((h1 _ _).trans (h2 _ _ _)).trans (h3 _ _)).trans (h4 _)
  · exact ((h1 _ _).trans (h2 _ _ _)).trans (h3 _ _)

theorem flushTaken_mut {b : Nat} (r : Nat) (l : List Taken) (s : State) (hb : b ≠ 0x14 ∧ 2 ≤ b) :
    SndUpd [.rings, .dram, .rcd, .cyc] (some [0xC1, 0xC0 + b]) s (flushTaken b r l s) := by
  induction l generalizing s with
  | nil => exact Upd.refl s
  | cons t ts ih =>
    unfold flushTaken
    split
    · exact Upd.refl s
    · exact (State_writeCompletion_mut r t _ _ s hb).trans (ih _)

theorem State_completeId_mut {b : Nat} (r id reason handle : Nat) (s : State) (hb : b ≠ 0x14 ∧ 2 ≤ b) :
    Upd [.rings, .dram, .rcd, .cyc] (some [0xC1, 0xC0 + b]) s (s.completeId b r id reason handle) := by
  unfold State.completeId
  exact Upd.trans (flushTaken_mut r _ s hb) ((State_setRing_mut b r _ _).mono rfl rfl)

theorem State_completeSelf_mut {b : Nat} (r id code : Nat) (s : State) (hb : b ≠ 0x14 ∧ 2 ≤ b) :
    Upd [.rings, .dram, .rcd, .cyc] (some [0xC1, 0xC0 + b]) s (s.completeSelf b r id code) := State_completeId_mut r id _ _ s hb

theorem Cmd_finish_mut {b : Nat} (c : Cmd) (code : Nat) (s : State) (hc : c.blk = b) (hb : b ≠ 0x14 ∧ 2 ≤ b) :
    Upd [.rings, .dram, .rcd, .cyc] (some [0xC1, 0xC0 + b]) s (c.finish code s) := by subst hc; exact State_completeId_mut _ _ _ _ s hb
theorem Cmd_created_mut {b : Nat} (c : Cmd) (h : Nat) (s : State) (hc : c.blk = b) (hb : b ≠ 0x14 ∧ 2 ≤ b) :
    Upd [.rings, .dram, .rcd, .cyc] (some [0xC1, 0xC0 + b]) s (c.created h s) := by subst hc; exact State_completeId_mut _ _ _ _ s hb
theorem Cmd_failed_mut {b : Nat} (c : Cmd) (code : Nat) (s : State) (hc : c.blk = b) (hb : b ≠ 0x14 ∧ 2 ≤ b) :
    Upd [.rings, .dram, .rcd, .cyc] (some [0xC1, 0xC0 + b]) s (c.failed code s) := by subst hc; exact State_completeId_mut _ _ _ _ s hb

theorem Cmd_refuse_mut {b : Nat} (c : Cmd) (opcode code : Nat) (s : State) (hc : c.blk = b) (hb : b ≠ 0x14 ∧ 2 ≤ b) :
    Upd [.rings, .dram, .rcd, .cyc] (some [0xC1, 0xC0 + b]) s (c.refuse opcode code s) := by
  unfold Cmd.refuse
  exact Upd.ite (Cmd_failed_mut c code s hc hb) (Cmd_finish_mut c code s hc hb)

/-- A row's command changes what taking and completing it changes and what its operation changes. -/
theorem State_runEntry_mut {P : List Comp} {W : List Nat} {b : Nat} (r opcode mask : Nat) (e : Entry) (op : Cmd → State → State) (s : State) (hb : b ≠ 0x14 ∧ 2 ≤ b)
    (hP : [Comp.rings, .dram, .rcd, .cyc].all (P.contains ·) = true) (hW : [0xC1, 0xC0 + b].all (W.contains ·) = true)
    (h : ∀ c u, c.blk = b → Upd P (some W) u (op c u)) : Upd P (some W) s (s.runEntry b r opcode mask e op) := by
  unfold State.runEntry
  simp only [State.enlist]
  have h0 (g : Ring) : Upd P (some W) s (s.setRing b r g) :=
    (State_setRing_mut b r g s).mono (by simp only [List.all_cons, List.all_nil, Bool.and_true, Bool.and_eq_true] at hP ⊢; exact hP.1) (by simp [winSub])
  have hf (c : Cmd) (code : Nat) (u : State) (hc : c.blk = b) : Upd P (some W) u (c.refuse opcode code u) :=
    (Cmd_refuse_mut c opcode code u hc hb).mono hP (by simpa [winSub] using hW)
  exact Upd.ite ((h0 _).trans (hf _ _ _ rfl)) (Upd.ite ((h0 _).trans (h _ _ rfl)) ((h0 _).trans (hf _ _ _ rfl)))

theorem State_runRow_mut {P : List Comp} {W : List Nat} {b : Nat} (r opcode mask : Nat) (e : Entry) (op : Cmd → State → State) (s : State) (hb : b ≠ 0x14 ∧ 2 ≤ b)
    (hP : [Comp.rings, .dram, .rcd, .cyc].all (P.contains ·) = true) (hW : [0xC1, 0xC0 + b].all (W.contains ·) = true)
    (h : ∀ c u, c.blk = b → Upd P (some W) u (op c u)) : Upd P (some W) s (s.runRow b r opcode mask e op) := by
  unfold State.runRow
  split
  · exact ((State_restSpacing_mut b r opcode s).mono (by simp only [List.all_cons, List.all_nil, Bool.and_true, Bool.and_eq_true] at hP ⊢; exact hP.1) (by simp [winSub])).trans
      (State_runEntry_mut r opcode mask e op _ hb hP hW h)
  · exact Upd.refl s

/-- The registers that a block's wipe drops. -/
theorem State_wipeBlock_mut (b : Nat) (s : State) : Upd [.latch, .rings] none s (s.wipeBlock b) :=
  ⟨fun p hp => by cases p <;> simp [State.same] at hp ⊢, fun a ha => absurd (fun l hl => by cases hl) ha,
    wf_of (fun hs => regsWf_filter (regsWf_filter hs _) _) (by simp) (by simp) (by simp), by simp, by simp⟩

end Sys2Proof.Machine
end

