-- ==== Sys2Proof/Laws/MutImage.lean ====
section
/-! SUPPORT. What each operation of Machine/Image.lean may change (`Upd`): its parts of the state and its register windows. -/

namespace Sys2Proof.Machine

set_option Elab.async false
set_option linter.unusedSimpArgs false
set_option linter.unusedTactic false
set_option linter.unreachableTactic false
set_option linter.unnecessarySeqFocus false
set_option maxRecDepth 20000

theorem State_publishIdentity_mut (s : State) : Upd [] (some [0xC2]) s (State.publishIdentity s) := by
  unfold State.publishIdentity
  repeat' first
    | (extract_lets +onlyGivenNames x; subst x)
    | with_reducible assumption
    | with_reducible apply Upd.refl
    | (with_reducible apply State_setReg_step (w := 0xC2); rotate_left; decide; simp only [windowOf, STR_IDENT] <;> omega)
    | (with_reducible apply Upd.foldl <;> first | (intro y a ha hy; skip) | skip)

theorem State_connectRegion_mut (src : ImgSrc) (r : Nat) (d : Nat) (caps : List (Nat × Sys2Proof.Word)) (s : State) : Upd [.img, .str] (some [0xC2]) s (State.connectRegion src r d caps s) := by
  unfold State.connectRegion
  repeat' first
    | (extract_lets +onlyGivenNames x; refine Upd.cut (P := [.img, .str]) (W := (some [0xC2])) (s := s) (x := x) ?_ (fun hx => ?_); rotate_left; clear_value x; rotate_left; subst x)
    | (extract_lets +onlyGivenNames x; subst x)
    | with_reducible assumption
    | with_reducible apply Upd.refl
    | (with_reducible apply Upd.comp (State_setLoaded_mut ..) <;> first | decide | skip)
    | (with_reducible apply State_set64_step (w := 0xC2); rotate_left; decide; simp only [windowOf, STR_IFACE_HI, STR_IFACE_LO] <;> omega; simp only [windowOf, STR_IFACE_HI, STR_IFACE_LO] <;> omega)
    | (with_reducible apply Upd.comp (State_publishIdentity_mut ..) <;> first | decide | skip)
    | (with_reducible apply Upd.comp (State_setBusy_mut ..) <;> first | decide | skip)
    | (with_reducible show Upd _ _ _ _; with_reducible rw [State.mk_box]; with_reducible apply Upd.box <;> first | (left; with_reducible rfl) | (right; decide) | skip)
    | split

theorem State_unloadRegion_mut (r : Nat) (s : State) : Upd [.img, .str] (some [0xC2]) s (State.unloadRegion r s) := by
  unfold State.unloadRegion
  repeat' first
    | (extract_lets +onlyGivenNames x; refine Upd.cut (P := [.img, .str]) (W := (some [0xC2])) (s := s) (x := x) ?_ (fun hx => ?_); rotate_left; clear_value x; rotate_left; subst x)
    | (extract_lets +onlyGivenNames x; subst x)
    | with_reducible assumption
    | with_reducible apply Upd.refl
    | (with_reducible apply Upd.comp (State_setLoaded_mut ..) <;> first | decide | skip)
    | (with_reducible apply Upd.comp (State_publishIdentity_mut ..) <;> first | decide | skip)
    | (with_reducible apply Upd.comp (State_setBusy_mut ..) <;> first | decide | skip)
    | (with_reducible show Upd _ _ _ _; with_reducible rw [State.mk_box]; with_reducible apply Upd.box <;> first | (left; with_reducible rfl) | (right; decide) | skip)

theorem State_clearUpdPend_mut (r : Nat) (s : State) : Upd [.cyc, .rcd] (some [0xC1, 0xD3]) s (State.clearUpdPend r s) := by
  unfold State.clearUpdPend
  repeat' first
    | (extract_lets +onlyGivenNames x; subst x)
    | with_reducible apply Upd.refl
    | (with_reducible apply State_setB_step (w := 0xD3); rotate_left; decide; simp only [windowOf, UPD_PEND] <;> omega)
    | (with_reducible apply Upd.comp (State_raise_mut ..) <;> first | decide | skip)
    | split

end Sys2Proof.Machine
end

