-- ==== Sys2Proof/Laws/MutTms.lean ====
section
/-! SUPPORT. What each operation of Machine/Tms.lean may change (`Upd`): its parts of the state and its register windows. -/

namespace Sys2Proof.Machine

set_option Elab.async false
set_option linter.unusedSimpArgs false
set_option linter.unusedTactic false
set_option linter.unreachableTactic false
set_option linter.unnecessarySeqFocus false
set_option maxRecDepth 20000

theorem execTpulseFall_mut (s : State) : OutUpd [.tms] (some []) s (execTpulseFall s) := by
  unfold execTpulseFall
  repeat' first
    | (extract_lets +onlyGivenNames x; subst x)
    | with_reducible apply Upd.refl
    | with_reducible apply OutUpd.next
    | (with_reducible show Upd _ _ _ _; with_reducible rw [State.mk_box]; with_reducible apply Upd.box <;> first | (left; with_reducible rfl) | (right; decide) | skip)
    | split

theorem State_setActive_mut (src : Nat) (s : State) : Upd [.cyc, .rcd] (some [0xC1, 0xC3]) s (State.setActive src s) := by
  unfold State.setActive
  repeat' first
    | with_reducible apply Upd.refl
    | (with_reducible apply State_set_step (w := 0xC3); rotate_left; decide; simp only [windowOf, TMS_STATUS, TMS_STATUS.SRC] <;> omega)
    | (with_reducible apply Upd.comp (State_raise_mut ..) <;> first | decide | skip)
    | split

theorem State_setTmsState_mut (v : Nat) (s : State) : Upd [.cyc, .rcd] (some [0xC1, 0xC3]) s (State.setTmsState v s) := by
  unfold State.setTmsState
  repeat' first
    | with_reducible apply Upd.refl
    | (with_reducible apply State_set_step (w := 0xC3); rotate_left; decide; simp only [windowOf, TMS_STATUS, TMS_STATUS.STATE] <;> omega)
    | (with_reducible apply Upd.comp (State_raise_mut ..) <;> first | decide | skip)
    | split

theorem State_lockTo_mut (src : Nat) (s : State) : Upd [.cyc, .rcd] (some [0xC1, 0xC3]) s (State.lockTo src s) := by
  unfold State.lockTo
  repeat' first
    | with_reducible apply Upd.refl
    | (with_reducible apply Upd.comp (State_setTmsState_mut ..) <;> first | decide | skip)
    | (with_reducible apply Upd.comp (State_setActive_mut ..) <;> first | decide | skip)

theorem State_showCap_mut (ch : Nat) (s : State) : Upd [] (some [0xC3]) s (State.showCap ch s) := by
  unfold State.showCap
  repeat' first
    | (extract_lets +onlyGivenNames x; subst x)
    | with_reducible apply Upd.refl
    | (with_reducible apply State_set_step (w := 0xC3); rotate_left; decide; simp only [windowOf, TMS_CAP_LTC_HI, TMS_CAP_LTC_LO, TMS_CAP_STAT, TMS_CAP_STAT.COUNT] <;> omega)
    | (with_reducible apply State_set64_step (w := 0xC3); rotate_left; decide; simp only [windowOf, TMS_CAP_LTC_HI, TMS_CAP_LTC_LO, TMS_CAP_STAT, TMS_CAP_STAT.COUNT] <;> omega; simp only [windowOf, TMS_CAP_LTC_HI, TMS_CAP_LTC_LO, TMS_CAP_STAT, TMS_CAP_STAT.COUNT] <;> omega)

theorem State_captureEdge_mut (c : Nat) (rise : Bool) (stamp : Nat) (s : State) : Upd [.cyc, .tms, .rcd] (some [0xC1, 0xC3]) s (State.captureEdge c rise stamp s) := by
  unfold State.captureEdge
  repeat' first
    | (extract_lets +onlyGivenNames x; refine Upd.cut (P := [.cyc, .tms, .rcd]) (W := (some [0xC1, 0xC3])) (s := s) (x := x) ?_ (fun hx => ?_); rotate_left; clear_value x; rotate_left; subst x)
    | (extract_lets +onlyGivenNames x; subst x)
    | with_reducible assumption
    | with_reducible apply Upd.refl
    | (with_reducible apply State_bump_step (w := 0xC3); rotate_left; decide; simp only [windowOf, TMS_CAP_STAT, TMS_CAP_STAT.OVR] <;> omega)
    | (with_reducible apply Upd.comp (State_showCap_mut ..) <;> first | decide | skip)
    | (with_reducible apply Upd.comp (State_raise_mut ..) <;> first | decide | skip)
    | (with_reducible show Upd _ _ _ _; with_reducible rw [State.mk_box]; with_reducible apply Upd.box <;> first | (left; with_reducible rfl) | (right; decide) | skip)
    | split

theorem execCaptureEdge_mut (ch : Fin 7) (rise : Bool) (stamp : Nat) (s : State) : OutUpd [.cyc, .tms, .rcd] (some [0xC1, 0xC3]) s (execCaptureEdge ch rise stamp s) := by
  unfold execCaptureEdge
  repeat' first
    | with_reducible apply Upd.refl
    | with_reducible apply OutUpd.next
    | (with_reducible apply Upd.comp (State_captureEdge_mut ..) <;> first | decide | skip)

theorem State_answer_mut (core : Nat) (w : Sys2Proof.Word) (s : State) : Upd [.access] (some []) s (State.answer core w s) := by
  unfold State.answer
  repeat' first
    | with_reducible apply Upd.refl
    | (with_reducible show Upd _ _ _ _; with_reducible rw [State.mk_box]; with_reducible apply Upd.box <;> first | (left; with_reducible rfl) | (right; decide) | skip)

theorem execSourceSwitch_mut (s : State) : OutUpd [.cyc, .rcd] (some [0xC1, 0xC3]) s (execSourceSwitch s) := by
  unfold execSourceSwitch
  repeat' first
    | (extract_lets +onlyGivenNames x; subst x)
    | with_reducible apply Upd.refl
    | with_reducible apply OutUpd.next
    | (with_reducible apply Upd.comp (State_setActive_mut ..) <;> first | decide | skip)
    | split

theorem State_latchFor_mut (core : Nat) (a : Nat) (w : Sys2Proof.Word) (s : State) : Upd [.latch] (some []) s (State.latchFor core a w s) := by
  unfold State.latchFor
  repeat' first
    | with_reducible apply Upd.refl
    | (with_reducible show Upd _ _ _ _; with_reducible rw [State.mk_box]; with_reducible apply Upd.box <;> first | (left; with_reducible rfl) | (right; decide) | skip)

theorem State_publishRel_mut (rate : Int) (step : Int) (s : State) : Upd [.cyc, .rcd] (some [0xC1, 0xC3]) s (State.publishRel rate step s) := by
  unfold State.publishRel
  repeat' first
    | (extract_lets +onlyGivenNames x; refine Upd.cut (P := [.cyc, .rcd]) (W := (some [0xC1, 0xC3])) (s := s) (x := x) ?_ (fun hx => ?_); rotate_left; clear_value x; rotate_left; subst x)
    | (extract_lets +onlyGivenNames x; subst x)
    | with_reducible assumption
    | with_reducible apply Upd.refl
    | (with_reducible apply State_setReg_step (w := 0xC3); rotate_left; decide; simp only [windowOf, TMS_PREL_LTC_HI, TMS_PREL_LTC_LO, TMS_PREL_OFF_HI, TMS_PREL_OFF_LO, TMS_PREL_RATE, TMS_PREL_SEQ, TMS_REL_LTC_HI, TMS_REL_LTC_LO, TMS_REL_OFF_HI, TMS_REL_OFF_LO, TMS_REL_RATE, TMS_REL_SEQ] <;> omega)
    | (with_reducible apply State_set64_step (w := 0xC3); rotate_left; decide; simp only [windowOf, TMS_PREL_LTC_HI, TMS_PREL_LTC_LO, TMS_PREL_OFF_HI, TMS_PREL_OFF_LO, TMS_PREL_RATE, TMS_PREL_SEQ, TMS_REL_LTC_HI, TMS_REL_LTC_LO, TMS_REL_OFF_HI, TMS_REL_OFF_LO, TMS_REL_RATE, TMS_REL_SEQ] <;> omega; simp only [windowOf, TMS_PREL_LTC_HI, TMS_PREL_LTC_LO, TMS_PREL_OFF_HI, TMS_PREL_OFF_LO, TMS_PREL_RATE, TMS_PREL_SEQ, TMS_REL_LTC_HI, TMS_REL_LTC_LO, TMS_REL_OFF_HI, TMS_REL_OFF_LO, TMS_REL_RATE, TMS_REL_SEQ] <;> omega)
    | (with_reducible apply Upd.comp (State_raise_mut ..) <;> first | decide | skip)

theorem State_mtSecond_mut (s : State) : Upd [.cyc, .tms, .rcd] (some [0xC1, 0xC3]) s (State.mtSecond s) := by
  unfold State.mtSecond
  repeat' first
    | (extract_lets +onlyGivenNames x; refine Upd.cut (P := [.cyc, .tms, .rcd]) (W := (some [0xC1, 0xC3])) (s := s) (x := x) ?_ (fun hx => ?_); rotate_left; clear_value x; rotate_left; subst x)
    | (extract_lets +onlyGivenNames x; subst x)
    | with_reducible assumption
    | with_reducible apply Upd.refl
    | (with_reducible apply State_setB_step (w := 0xC3); rotate_left; decide; simp only [windowOf, TMS_STATUS, TMS_STATUS.STEP_PEND, TMS_TP_LTC_HI, TMS_TP_LTC_LO, TMS_TP_STAT, TMS_TP_STAT.SEQ, TMS_TP_STAT.SRC, TMS_TP_STAT.STATE, TMS_TP_STAT.STEPPED, TMS_TP_STAT.SUPP] <;> omega)
    | (with_reducible apply State_bump_step (w := 0xC3); rotate_left; decide; simp only [windowOf, TMS_STATUS, TMS_STATUS.STEP_PEND, TMS_TP_LTC_HI, TMS_TP_LTC_LO, TMS_TP_STAT, TMS_TP_STAT.SEQ, TMS_TP_STAT.SRC, TMS_TP_STAT.STATE, TMS_TP_STAT.STEPPED, TMS_TP_STAT.SUPP] <;> omega)
    | (with_reducible apply Upd.comp (State_publishRel_mut ..) <;> first | decide | skip)
    | (with_reducible apply State_set_step (w := 0xC3); rotate_left; decide; simp only [windowOf, TMS_STATUS, TMS_STATUS.STEP_PEND, TMS_TP_LTC_HI, TMS_TP_LTC_LO, TMS_TP_STAT, TMS_TP_STAT.SEQ, TMS_TP_STAT.SRC, TMS_TP_STAT.STATE, TMS_TP_STAT.STEPPED, TMS_TP_STAT.SUPP] <;> omega)
    | (with_reducible apply State_set64_step (w := 0xC3); rotate_left; decide; simp only [windowOf, TMS_STATUS, TMS_STATUS.STEP_PEND, TMS_TP_LTC_HI, TMS_TP_LTC_LO, TMS_TP_STAT, TMS_TP_STAT.SEQ, TMS_TP_STAT.SRC, TMS_TP_STAT.STATE, TMS_TP_STAT.STEPPED, TMS_TP_STAT.SUPP] <;> omega; simp only [windowOf, TMS_STATUS, TMS_STATUS.STEP_PEND, TMS_TP_LTC_HI, TMS_TP_LTC_LO, TMS_TP_STAT, TMS_TP_STAT.SEQ, TMS_TP_STAT.SRC, TMS_TP_STAT.STATE, TMS_TP_STAT.STEPPED, TMS_TP_STAT.SUPP] <;> omega)
    | (with_reducible apply Upd.comp (State_raise_mut ..) <;> first | decide | skip)
    | (with_reducible apply State_wrapInc_step (w := 0xC3); rotate_left; decide; simp only [windowOf, TMS_STATUS, TMS_STATUS.STEP_PEND, TMS_TP_LTC_HI, TMS_TP_LTC_LO, TMS_TP_STAT, TMS_TP_STAT.SEQ, TMS_TP_STAT.SRC, TMS_TP_STAT.STATE, TMS_TP_STAT.STEPPED, TMS_TP_STAT.SUPP] <;> omega)
    | (with_reducible show Upd _ _ _ _; with_reducible rw [State.mk_box]; with_reducible apply Upd.box <;> first | (left; with_reducible rfl) | (right; decide) | skip)
    | split

theorem State_readTpStat_mut (core : Nat) (s : State) : Upd [.latch, .access] (some [0xC3]) s (State.readTpStat core s) := by
  unfold State.readTpStat
  repeat' first
    | with_reducible apply Upd.refl
    | (with_reducible apply Upd.comp (State_answer_mut ..) <;> first | decide | skip)
    | (with_reducible apply Upd.comp (State_latchFor_mut ..) <;> first | decide | skip)
    | (with_reducible apply State_set_step (w := 0xC3); rotate_left; decide; simp only [windowOf, TMS_TP_STAT, TMS_TP_STAT.SUPP] <;> omega)

theorem State_publishRate_mut (s : State) : Upd [.cyc, .rcd] (some [0xC1, 0xC3]) s (State.publishRate s) := by
  unfold State.publishRate
  repeat' first
    | with_reducible apply Upd.refl
    | (with_reducible apply Upd.comp (State_publishRel_mut ..) <;> first | decide | skip)

theorem State_endSlew_mut (s : State) : Upd [.cyc, .tms, .rcd] (some [0xC1, 0xC3]) s (State.endSlew s) := by
  unfold State.endSlew
  repeat' first
    | (extract_lets +onlyGivenNames x; subst x)
    | with_reducible apply Upd.refl
    | (with_reducible apply State_setB_step (w := 0xC3); rotate_left; decide; simp only [windowOf, TMS_STATUS, TMS_STATUS.SLEW] <;> omega)
    | (with_reducible apply Upd.comp (State_publishRate_mut ..) <;> first | decide | skip)
    | (with_reducible show Upd _ _ _ _; with_reducible rw [State.mk_box]; with_reducible apply Upd.box <;> first | (left; with_reducible rfl) | (right; decide) | skip)

theorem State_loseLock_mut (s : State) : Upd [.cyc, .tms, .rcd] (some [0xC1, 0xC3]) s (State.loseLock s) := by
  unfold State.loseLock
  repeat' first
    | (extract_lets +onlyGivenNames x; refine Upd.cut (P := [.cyc, .tms, .rcd]) (W := (some [0xC1, 0xC3])) (s := s) (x := x) ?_ (fun hx => ?_); rotate_left; clear_value x; rotate_left; subst x)
    | (extract_lets +onlyGivenNames x; subst x)
    | with_reducible assumption
    | with_reducible apply Upd.refl
    | (with_reducible apply Upd.comp (State_setTmsState_mut ..) <;> first | decide | skip)
    | (with_reducible apply Upd.comp (State_endSlew_mut ..) <;> first | decide | skip)
    | (with_reducible apply Upd.comp (State_setActive_mut ..) <;> first | decide | skip)
    | (with_reducible show Upd _ _ _ _; with_reducible rw [State.mk_box]; with_reducible apply Upd.box <;> first | (left; with_reducible rfl) | (right; decide) | skip)

theorem execSourceInvalid_mut (s : State) : OutUpd [.cyc, .tms, .rcd] (some [0xC1, 0xC3]) s (execSourceInvalid s) := by
  unfold execSourceInvalid
  repeat' first
    | (extract_lets +onlyGivenNames x; refine Upd.cut (P := [.cyc, .tms, .rcd]) (W := (some [0xC1, 0xC3])) (s := s) (x := x) ?_ (fun hx => ?_); rotate_left; clear_value x; rotate_left; subst x)
    | (extract_lets +onlyGivenNames x; subst x)
    | with_reducible assumption
    | with_reducible apply Upd.refl
    | with_reducible apply OutUpd.next
    | (with_reducible apply State_setB_step (w := 0xC3); rotate_left; decide; simp only [windowOf, TMS_STATUS, tmsValidFld] <;> omega)
    | (with_reducible apply Upd.comp (State_setActive_mut ..) <;> first | decide | skip)
    | (with_reducible apply Upd.comp (State_loseLock_mut ..) <;> first | decide | skip)
    | (with_reducible apply Upd.foldl <;> first | (intro y a ha hy; skip) | skip)
    | split

theorem State_acceptObs_mut (src : Nat) (l : Nat) (m : Nat) (frac : Nat) (s : State) : Upd [.tms] (some []) s (State.acceptObs src l m frac s) := by
  unfold State.acceptObs
  repeat' first
    | (extract_lets +onlyGivenNames x; subst x)
    | with_reducible apply Upd.refl
    | (with_reducible show Upd _ _ _ _; with_reducible rw [State.mk_box]; with_reducible apply Upd.box <;> first | (left; with_reducible rfl) | (right; decide) | skip)

theorem State_tmsDisable_mut (s : State) : Upd [.cyc, .tms, .rcd] (some [0xC1, 0xC3]) s (State.tmsDisable s) := by
  unfold State.tmsDisable
  dsimp only
  repeat' first
    | with_reducible apply Upd.refl
    | (with_reducible apply State_setB_step (w := 0xC3); rotate_left; decide; simp only [windowOf, TMS_CTRL, TMS_CTRL.ENABLE, TMS_OBS_CTRL, TMS_OBS_CTRL.PEND, TMS_STATUS, TMS_STATUS.STEP_PEND] <;> omega)
    | (with_reducible apply Upd.comp (State_loseLock_mut ..) <;> first | decide | skip)
    | (with_reducible show Upd _ _ _ _; with_reducible rw [State.mk_box]; with_reducible apply Upd.box <;> first | (left; with_reducible rfl) | (right; decide) | skip)
    | split

theorem State_tmsStart_mut (s : State) : Upd [] (some [0xC3]) s (State.tmsStart s) := by
  unfold State.tmsStart
  repeat' first
    | with_reducible apply Upd.refl
    | (with_reducible apply State_set_step (w := 0xC3); rotate_left; decide; simp only [windowOf, TMS_TP_STAT, TMS_TP_STAT.SEQ] <;> omega)

theorem State_deliverObs_mut (src : Nat) (l : Nat) (m : Nat) (frac : Nat) (s : State) : Upd [.cyc, .tms, .rcd] (some [0xC1, 0xC3]) s (State.deliverObs src l m frac s) := by
  unfold State.deliverObs
  repeat' first
    | with_reducible apply Upd.refl
    | (with_reducible apply State_bump_step (w := 0xC3); rotate_left; decide; simp only [windowOf, TMS_STATUS, TMS_STATUS.REJ] <;> omega)
    | (with_reducible apply Upd.comp (State_acceptObs_mut ..) <;> first | decide | skip)
    | (with_reducible apply Upd.comp (State_raise_mut ..) <;> first | decide | skip)
    | split

theorem State_servo_mut (e : Int) (s : State) : Upd [.cyc, .tms, .rcd] (some [0xC1, 0xC3]) s (State.servo e s) := by
  unfold State.servo
  repeat' first
    | (extract_lets +onlyGivenNames x; refine Upd.cut (P := [.cyc, .tms, .rcd]) (W := (some [0xC1, 0xC3])) (s := s) (x := x) ?_ (fun hx => ?_); rotate_left; clear_value x; rotate_left; subst x)
    | (extract_lets +onlyGivenNames x; subst x)
    | with_reducible assumption
    | with_reducible apply Upd.refl
    | (with_reducible apply State_setB_step (w := 0xC3); rotate_left; decide; simp only [windowOf, TMS_STATUS, TMS_STATUS.SLEW, TMS_STATUS.STEP_PEND] <;> omega)
    | (with_reducible apply Upd.comp (State_publishRate_mut ..) <;> first | decide | skip)
    | (with_reducible show Upd _ _ _ _; with_reducible rw [State.mk_box]; with_reducible apply Upd.box <;> first | (left; with_reducible rfl) | (right; decide) | skip)
    | split

theorem State_obsEffect_mut (src : Nat) (s : State) : Upd [.cyc, .tms, .rcd] (some [0xC1, 0xC3]) s (State.obsEffect src s) := by
  unfold State.obsEffect
  dsimp only
  repeat' first
    | with_reducible apply Upd.refl
    | (with_reducible apply State_setB_step (w := 0xC3); rotate_left; decide; simp only [windowOf, TMS_OBS_CTRL, TMS_OBS_CTRL.PEND, TMS_STATUS, tmsValidFld] <;> omega)
    | (with_reducible apply Upd.comp (State_lockTo_mut ..) <;> first | decide | skip)
    | (with_reducible apply Upd.comp (State_servo_mut ..) <;> first | decide | skip)
    | (with_reducible show Upd _ _ _ _; with_reducible rw [State.mk_box]; with_reducible apply Upd.box <;> first | (left; with_reducible rfl) | (right; decide) | skip)
    | split

theorem execObsEffect_mut (s : State) : OutUpd [.cyc, .tms, .rcd] (some [0xC1, 0xC3]) s (execObsEffect s) := by
  unfold execObsEffect
  repeat' first
    | with_reducible assumption
    | with_reducible apply Upd.refl
    | with_reducible apply OutUpd.next
    | (with_reducible apply Upd.comp (State_obsEffect_mut ..) <;> first | decide | skip)
    | (with_reducible apply Upd.foldl <;> first | (intro y a ha hy; skip) | skip)

theorem State_writeCapStat_mut (ch : Nat) (value : Sys2Proof.Word) (s : State) : Upd [.tms] (some [0xC3]) s (State.writeCapStat ch value s) := by
  unfold State.writeCapStat
  repeat' first
    | (extract_lets +onlyGivenNames x; subst x)
    | with_reducible apply Upd.refl
    | (with_reducible apply Upd.comp (State_showCap_mut ..) <;> first | decide | skip)
    | (with_reducible show Upd _ _ _ _; with_reducible rw [State.mk_box]; with_reducible apply Upd.box <;> first | (left; with_reducible rfl) | (right; decide) | skip)
    | split

theorem execTpulseShort_mut (s : State) : OutUpd [] (some [0xC3]) s (execTpulseShort s) := by
  unfold execTpulseShort
  repeat' first
    | with_reducible apply Upd.refl
    | with_reducible apply OutUpd.next
    | (with_reducible apply State_setB_step (w := 0xC3); rotate_left; decide; simp only [windowOf, TMS_TP_STAT, TMS_TP_STAT.SHORT] <;> omega)
    | split

theorem execHoldoverExpire_mut (s : State) : OutUpd [.cyc, .rcd] (some [0xC1, 0xC3]) s (execHoldoverExpire s) := by
  unfold execHoldoverExpire
  repeat' first
    | with_reducible apply Upd.refl
    | with_reducible apply OutUpd.next
    | (with_reducible apply Upd.comp (State_setTmsState_mut ..) <;> first | decide | skip)
    | split

theorem State_readLtc_mut (core : Nat) (s : State) : Upd [.latch, .access] (some []) s (State.readLtc core s) := by
  unfold State.readLtc
  repeat' first
    | (extract_lets +onlyGivenNames x; subst x)
    | with_reducible apply Upd.refl
    | (with_reducible apply Upd.comp (State_answer_mut ..) <;> first | decide | skip)
    | (with_reducible apply Upd.comp (State_latchFor_mut ..) <;> first | decide | skip)

theorem execTmsDisable_mut (s : State) : OutUpd [.cyc, .tms, .rcd] (some [0xC1, 0xC3]) s (execTmsDisable s) := by
  unfold execTmsDisable
  repeat' first
    | with_reducible apply Upd.refl
    | with_reducible apply OutUpd.next
    | (with_reducible apply Upd.comp (State_tmsDisable_mut ..) <;> first | decide | skip)
    | split

theorem State_writeObsCtrl_mut (value : Sys2Proof.Word) (s : State) : Upd [.cyc, .tms, .rcd] (some [0xC1, 0xC3]) s (State.writeObsCtrl value s) := by
  unfold State.writeObsCtrl
  repeat' first
    | (extract_lets +onlyGivenNames x; refine Upd.cut (P := [.cyc, .tms, .rcd]) (W := (some [0xC1, 0xC3])) (s := s) (x := x) ?_ (fun hx => ?_); rotate_left; clear_value x; rotate_left; subst x)
    | (extract_lets +onlyGivenNames x; subst x)
    | with_reducible assumption
    | with_reducible apply Upd.refl
    | (with_reducible apply State_setB_step (w := 0xC3); rotate_left; decide; simp only [windowOf, TMS_OBS_CTRL, TMS_OBS_CTRL.PEND, TMS_OBS_CTRL.REASON] <;> omega)
    | (with_reducible apply Upd.comp (State_acceptObs_mut ..) <;> first | decide | skip)
    | (with_reducible apply State_set_step (w := 0xC3); rotate_left; decide; simp only [windowOf, TMS_OBS_CTRL, TMS_OBS_CTRL.PEND, TMS_OBS_CTRL.REASON] <;> omega)
    | (with_reducible apply Upd.comp (State_raise_mut ..) <;> first | decide | skip)
    | split

theorem execSlewEnd_mut (s : State) : OutUpd [.cyc, .tms, .rcd] (some [0xC1, 0xC3]) s (execSlewEnd s) := by
  unfold execSlewEnd
  repeat' first
    | (extract_lets +onlyGivenNames x; subst x)
    | with_reducible apply Upd.refl
    | with_reducible apply OutUpd.next
    | (with_reducible apply Upd.comp (State_endSlew_mut ..) <;> first | decide | skip)
    | split

end Sys2Proof.Machine
end

