-- ==== Sys2Proof/Laws/MutArb.lean ====
section
/-! SUPPORT. What each operation of Machine/Arb.lean may change (`Upd`): its parts of the state and its register windows. -/

namespace Sys2Proof.Machine

set_option Elab.async false
set_option linter.unusedSimpArgs false
set_option linter.unusedTactic false
set_option linter.unreachableTactic false
set_option linter.unnecessarySeqFocus false
set_option maxRecDepth 20000

theorem opReqClass_mut (c : Cmd) (s : State) (hc : c.blk = 0x0B) : Upd [.dram, .cyc, .rings, .arb, .rcd] (some [0xC1, 0xCB]) s (opReqClass c s) := by
  unfold opReqClass
  repeat' first
    | (extract_lets +onlyGivenNames x; subst x)
    | with_reducible assumption
    | with_reducible apply Upd.refl
    | (with_reducible apply Upd.comp (Cmd_finish_mut (b := 0x0B) ..) <;> first | decide | skip)
    | (with_reducible show Upd _ _ _ _; with_reducible rw [State.mk_box]; with_reducible apply Upd.box <;> first | (left; with_reducible rfl) | (right; decide) | skip)
    | split

theorem execReqClass_mut (ring : Fin 1) (e : Sys2Proof.Entry) (s : State) : OutUpd [.dram, .cyc, .rings, .arb, .rcd] (some [0xC1, 0xCB]) s (execReqClass ring e s) := by
  unfold execReqClass
  repeat' first
    | with_reducible assumption
    | with_reducible apply Upd.refl
    | with_reducible apply OutUpd.next
    | (with_reducible apply Upd.comp (State_runRow_mut (P := [.dram, .cyc, .rings, .arb, .rcd]) (W := [0xC1, 0xCB]) ..) <;> first | decide | skip)
    | (with_reducible apply Upd.comp (opReqClass_mut ..) <;> first | decide | skip)
    | (intro c u hc)

theorem State_arbDrained_mut (a : Nat) (s : State) : Upd [.cyc, .rcd] (some [0xC1, 0xCB]) s (State.arbDrained a s) := by
  unfold State.arbDrained
  repeat' first
    | (extract_lets +onlyGivenNames x; refine Upd.cut (P := [.cyc, .rcd]) (W := (some [0xC1, 0xCB])) (s := s) (x := x) ?_ (fun hx => ?_); rotate_left; clear_value x; rotate_left; subst x)
    | (extract_lets +onlyGivenNames x; subst x)
    | with_reducible assumption
    | with_reducible apply Upd.refl
    | (with_reducible apply State_setB_step (w := 0xCB); rotate_left; decide; simp only [windowOf, ARB_STAT, ARB_STAT.DRAINED] <;> omega)
    | (with_reducible apply Upd.comp (State_raise_mut ..) <;> first | decide | skip)
    | split

theorem State_arbFree_mut (a : Nat) (s : State) : Upd [.cyc, .arb, .rcd] (some [0xC1, 0xCB]) s (State.arbFree a s) := by
  unfold State.arbFree
  repeat' first
    | (extract_lets +onlyGivenNames x; refine Upd.cut (P := [.cyc, .arb, .rcd]) (W := (some [0xC1, 0xCB])) (s := s) (x := x) ?_ (fun hx => ?_); rotate_left; clear_value x; rotate_left; subst x)
    | (extract_lets +onlyGivenNames x; subst x)
    | with_reducible assumption
    | with_reducible apply Upd.refl
    | (with_reducible apply State_setB_step (w := 0xCB); rotate_left; decide; simp only [windowOf, ARB_HREQ, ARB_HREQ.GRANT, ARB_STAT, ARB_STAT.CLASS, ARB_STAT.GRANTED, ARB_STAT.OWNER] <;> omega)
    | (with_reducible apply State_set_step (w := 0xCB); rotate_left; decide; simp only [windowOf, ARB_HREQ, ARB_HREQ.GRANT, ARB_STAT, ARB_STAT.CLASS, ARB_STAT.GRANTED, ARB_STAT.OWNER] <;> omega)
    | (with_reducible apply Upd.comp (State_arbDrained_mut ..) <;> first | decide | skip)
    | (with_reducible show Upd _ _ _ _; with_reducible rw [State.mk_box]; with_reducible apply Upd.box <;> first | (left; with_reducible rfl) | (right; decide) | skip)
    | split

theorem State_arbRequest_mut (i : Nat) (s : State) : Upd [.arb] (some [0xCB]) s (State.arbRequest i s) := by
  unfold State.arbRequest
  repeat' first
    | (extract_lets +onlyGivenNames x; subst x)
    | with_reducible apply Upd.refl
    | (with_reducible apply State_setB_step (w := 0xCB); rotate_left; decide; simp only [windowOf, ARB_REQ, ARB_REQ.PEND] <;> omega)
    | (with_reducible show Upd _ _ _ _; with_reducible rw [State.mk_box]; with_reducible apply Upd.box <;> first | (left; with_reducible rfl) | (right; decide) | skip)
    | split

theorem opReqCreate_mut (c : Cmd) (s : State) (hc : c.blk = 0x0B) : Upd [.dram, .cyc, .rings, .gens, .arb, .rcd] (some [0xC1, 0xCB]) s (opReqCreate c s) := by
  unfold opReqCreate
  repeat' first
    | (extract_lets +onlyGivenNames x; refine Upd.cut (P := [.dram, .cyc, .rings, .gens, .arb, .rcd]) (W := (some [0xC1, 0xCB])) (s := s) (x := x) ?_ (fun hx => ?_); rotate_left; clear_value x; rotate_left; subst x)
    | (extract_lets +onlyGivenNames x; subst x)
    | with_reducible assumption
    | with_reducible apply Upd.refl
    | (with_reducible apply State_setB_step (w := 0xCB); rotate_left; decide; simp only [windowOf, ARB_REQ, ARB_REQ.CLASS, ARB_REQ.LIVE, ARB_REQ.STARVE] <;> omega)
    | (with_reducible apply Upd.comp (Cmd_created_mut (b := 0x0B) ..) <;> first | decide | skip)
    | (with_reducible apply Upd.comp (State_advGen_mut ..) <;> first | decide | skip)
    | (with_reducible apply State_set_step (w := 0xCB); rotate_left; decide; simp only [windowOf, ARB_REQ, ARB_REQ.CLASS, ARB_REQ.LIVE, ARB_REQ.STARVE] <;> omega)
    | (with_reducible apply Upd.comp (Cmd_failed_mut (b := 0x0B) ..) <;> first | decide | skip)
    | (with_reducible show Upd _ _ _ _; with_reducible rw [State.mk_box]; with_reducible apply Upd.box <;> first | (left; with_reducible rfl) | (right; decide) | skip)
    | split

theorem execReqCreate_mut (ring : Fin 1) (e : Sys2Proof.Entry) (s : State) : OutUpd [.dram, .cyc, .rings, .gens, .arb, .rcd] (some [0xC1, 0xCB]) s (execReqCreate ring e s) := by
  unfold execReqCreate
  repeat' first
    | with_reducible assumption
    | with_reducible apply Upd.refl
    | with_reducible apply OutUpd.next
    | (with_reducible apply Upd.comp (State_runRow_mut (P := [.dram, .cyc, .rings, .gens, .arb, .rcd]) (W := [0xC1, 0xCB]) ..) <;> first | decide | skip)
    | (with_reducible apply Upd.comp (opReqCreate_mut ..) <;> first | decide | skip)
    | (intro c u hc)

theorem opReqDestroy_mut (c : Cmd) (s : State) (hc : c.blk = 0x0B) : Upd [.dram, .cyc, .rings, .arb, .rcd] (some [0xC1, 0xCB]) s (opReqDestroy c s) := by
  unfold opReqDestroy
  repeat' first
    | (extract_lets +onlyGivenNames x; refine Upd.cut (P := [.dram, .cyc, .rings, .arb, .rcd]) (W := (some [0xC1, 0xCB])) (s := s) (x := x) ?_ (fun hx => ?_); rotate_left; clear_value x; rotate_left; subst x)
    | (extract_lets +onlyGivenNames x; subst x)
    | with_reducible assumption
    | with_reducible apply Upd.refl
    | (with_reducible apply State_setB_step (w := 0xCB); rotate_left; decide; simp only [windowOf, ARB_REQ, ARB_REQ.CLASS, ARB_REQ.LIVE, ARB_REQ.STARVE, Cmd.e, Cmd.handle, bitsOf, hIndex] <;> omega)
    | (with_reducible apply State_set_step (w := 0xCB); rotate_left; decide; simp only [windowOf, ARB_REQ, ARB_REQ.CLASS, ARB_REQ.LIVE, ARB_REQ.STARVE, Cmd.e, Cmd.handle, bitsOf, hIndex] <;> omega)
    | (with_reducible apply Upd.comp (Cmd_finish_mut (b := 0x0B) ..) <;> first | decide | skip)
    | (with_reducible show Upd _ _ _ _; with_reducible rw [State.mk_box]; with_reducible apply Upd.box <;> first | (left; with_reducible rfl) | (right; decide) | skip)
    | split

theorem execReqDestroy_mut (ring : Fin 1) (e : Sys2Proof.Entry) (s : State) : OutUpd [.dram, .cyc, .rings, .arb, .rcd] (some [0xC1, 0xCB]) s (execReqDestroy ring e s) := by
  unfold execReqDestroy
  repeat' first
    | with_reducible assumption
    | with_reducible apply Upd.refl
    | with_reducible apply OutUpd.next
    | (with_reducible apply Upd.comp (State_runRow_mut (P := [.dram, .cyc, .rings, .arb, .rcd]) (W := [0xC1, 0xCB]) ..) <;> first | decide | skip)
    | (with_reducible apply Upd.comp (opReqDestroy_mut ..) <;> first | decide | skip)
    | (intro c u hc)

theorem State_writeArbCfg_mut (a : Nat) (value : Sys2Proof.Word) (s : State) : Upd [.cyc, .rcd] (some [0xC1, 0xCB]) s (State.writeArbCfg a value s) := by
  unfold State.writeArbCfg
  repeat' first
    | with_reducible apply Upd.refl
    | (with_reducible apply State_setB_step (w := 0xCB); rotate_left; decide; simp only [windowOf, ARB_CFG, ARB_CFG.FREEZE] <;> omega)
    | (with_reducible apply Upd.comp (State_arbDrained_mut ..) <;> first | decide | skip)

theorem State_arbRelease_mut (i : Nat) (s : State) : Upd [.cyc, .arb, .rcd] (some [0xC1, 0xCB]) s (State.arbRelease i s) := by
  unfold State.arbRelease
  repeat' first
    | (extract_lets +onlyGivenNames x; refine Upd.cut (P := [.cyc, .arb, .rcd]) (W := (some [0xC1, 0xCB])) (s := s) (x := x) ?_ (fun hx => ?_); rotate_left; clear_value x; rotate_left; subst x)
    | (extract_lets +onlyGivenNames x; subst x)
    | with_reducible assumption
    | with_reducible apply Upd.refl
    | (with_reducible apply State_setB_step (w := 0xCB); rotate_left; decide; simp only [windowOf, ARB_REQ, ARB_REQ.PEND] <;> omega)
    | (with_reducible apply Upd.comp (State_arbFree_mut ..) <;> first | decide | skip)
    | (with_reducible show Upd _ _ _ _; with_reducible rw [State.mk_box]; with_reducible apply Upd.box <;> first | (left; with_reducible rfl) | (right; decide) | skip)
    | split

theorem State_writeHreq_mut (value : Sys2Proof.Word) (s : State) : Upd [.cyc, .arb, .rcd] (some [0xC1, 0xCB]) s (State.writeHreq value s) := by
  unfold State.writeHreq
  repeat' first
    | (extract_lets +onlyGivenNames x; refine Upd.cut (P := [.cyc, .arb, .rcd]) (W := (some [0xC1, 0xCB])) (s := s) (x := x) ?_ (fun hx => ?_); rotate_left; clear_value x; rotate_left; subst x)
    | (extract_lets +onlyGivenNames x; subst x)
    | with_reducible assumption
    | with_reducible apply Upd.refl
    | (with_reducible apply State_setB_step (w := 0xCB); rotate_left; decide; simp only [windowOf, ARB_HREQ, ARB_HREQ.REQ, ARB_HREQ.REVOKED] <;> omega)
    | (with_reducible apply Upd.comp (State_arbRequest_mut ..) <;> first | decide | skip)
    | (with_reducible apply Upd.comp (State_arbRelease_mut ..) <;> first | decide | skip)
    | split

theorem State_arbGrant_mut (i : Nat) (s : State) : Upd [.arb] (some [0xCB]) s (State.arbGrant i s) := by
  unfold State.arbGrant
  repeat' first
    | (extract_lets +onlyGivenNames x; refine Upd.cut (P := [.arb]) (W := (some [0xCB])) (s := s) (x := x) ?_ (fun hx => ?_); rotate_left; clear_value x; rotate_left; subst x)
    | (extract_lets +onlyGivenNames x; subst x)
    | with_reducible assumption
    | with_reducible apply Upd.refl
    | (with_reducible apply State_setB_step (w := 0xCB); rotate_left; decide; simp only [windowOf, ARB_HREQ, ARB_HREQ.GRANT, ARB_REQ, ARB_REQ.PEND, ARB_STAT, ARB_STAT.CLASS, ARB_STAT.GRANTED, ARB_STAT.OWNER, arbOf] <;> omega)
    | (with_reducible apply State_set_step (w := 0xCB); rotate_left; decide; simp only [windowOf, ARB_HREQ, ARB_HREQ.GRANT, ARB_REQ, ARB_REQ.PEND, ARB_STAT, ARB_STAT.CLASS, ARB_STAT.GRANTED, ARB_STAT.OWNER, arbOf] <;> omega)
    | (with_reducible show Upd _ _ _ _; with_reducible rw [State.mk_box]; with_reducible apply Upd.box <;> first | (left; with_reducible rfl) | (right; decide) | skip)
    | split

theorem State_arbApply_mut (a : Nat) (s : State) : Upd [.arb] (some [0xCB]) s (State.arbApply a s) := by
  unfold State.arbApply
  repeat' first
    | (extract_lets +onlyGivenNames x; refine Upd.cut (P := [.arb]) (W := (some [0xCB])) (s := s) (x := x) ?_ (fun hx => ?_); rotate_left; clear_value x; rotate_left; subst x)
    | (extract_lets +onlyGivenNames x; subst x)
    | with_reducible assumption
    | with_reducible apply Upd.refl
    | (with_reducible apply State_set_step (w := 0xCB); rotate_left; decide; simp only [windowOf, ARB_REQ, ARB_REQ.CLASS, ARB_STAT, ARB_STAT.CLASS] <;> omega)
    | (with_reducible apply Upd.foldl <;> first | (intro y a ha hy; skip) | skip)
    | (with_reducible show Upd _ _ _ _; with_reducible rw [State.mk_box]; with_reducible apply Upd.box <;> first | (left; with_reducible rfl) | (right; decide) | skip)
    | split

theorem State_arbRevoke_mut (a : Nat) (s : State) : Upd [.cyc, .arb, .rcd] (some [0xC1, 0xCB]) s (State.arbRevoke a s) := by
  unfold State.arbRevoke
  repeat' first
    | (extract_lets +onlyGivenNames x; refine Upd.cut (P := [.cyc, .arb, .rcd]) (W := (some [0xC1, 0xCB])) (s := s) (x := x) ?_ (fun hx => ?_); rotate_left; clear_value x; rotate_left; subst x)
    | (extract_lets +onlyGivenNames x; subst x)
    | with_reducible assumption
    | with_reducible apply Upd.refl
    | (with_reducible apply State_setB_step (w := 0xCB); rotate_left; decide; simp only [windowOf, ARB_CNT, ARB_CNT.REVOKE, ARB_HREQ, ARB_HREQ.REVOKED, ARB_REQ, ARB_REQ.PEND] <;> omega)
    | (with_reducible apply State_bump_step (w := 0xCB); rotate_left; decide; simp only [windowOf, ARB_CNT, ARB_CNT.REVOKE, ARB_HREQ, ARB_HREQ.REVOKED, ARB_REQ, ARB_REQ.PEND] <;> omega)
    | (with_reducible apply Upd.comp (State_arbFree_mut ..) <;> first | decide | skip)
    | (with_reducible apply Upd.comp (State_raise_mut ..) <;> first | decide | skip)
    | split

theorem execArbStarve_mut (i : Fin 24) (s : State) : OutUpd [.cyc, .rcd] (some [0xC1, 0xCB]) s (execArbStarve i s) := by
  unfold execArbStarve
  repeat' first
    | (extract_lets +onlyGivenNames x; subst x)
    | with_reducible apply Upd.refl
    | with_reducible apply OutUpd.next
    | (with_reducible apply State_setB_step (w := 0xCB); rotate_left; decide; simp only [windowOf, ARB_REQ, ARB_REQ.STARVE] <;> omega)
    | (with_reducible apply Upd.comp (State_raise_mut ..) <;> first | decide | skip)
    | split

end Sys2Proof.Machine
end

