-- ==== Sys2Proof/Laws/MutFeed.lean ====
section
/-! SUPPORT. What each operation of Machine/Feed.lean may change (`Upd`): its parts of the state and its register windows. -/

namespace Sys2Proof.Machine

set_option Elab.async false
set_option linter.unusedSimpArgs false
set_option linter.unusedTactic false
set_option linter.unreachableTactic false
set_option linter.unnecessarySeqFocus false
set_option maxRecDepth 20000

theorem State_fusFeed_mut (kind : Nat) (link : Nat) (addr : Nat) (tov : Option Nat) (s : State) : Upd [.fus] (some []) s (State.fusFeed kind link addr tov s) := by
  unfold State.fusFeed
  repeat' first
    | (extract_lets +onlyGivenNames x; subst x)
    | with_reducible apply Upd.refl
    | (with_reducible show Upd _ _ _ _; with_reducible rw [State.mk_box]; with_reducible apply Upd.box <;> first | (left; with_reducible rfl) | (right; decide) | skip)
    | split

theorem State_yldLate_mut (s : State) : Upd [.cyc, .rcd] (some [0xC0, 0xC1, 0xCD]) s (State.yldLate s) := by
  unfold State.yldLate
  repeat' first
    | with_reducible apply Upd.refl
    | (with_reducible apply State_bump_step (w := 0xCD); rotate_left; decide; simp only [windowOf, SYS_DET_STATUS, SYS_DET_STATUS.YLD_LATE, YLD_CNT, YLD_CNT.LATE] <;> omega)
    | (with_reducible apply Upd.comp (State_raise_mut ..) <;> first | decide | skip)
    | (with_reducible apply State_detViol_step; rotate_left; decide; decide; simp only [windowOf, Fld.addr, SYS_DET_STATUS, SYS_DET_STATUS.RECONF, SYS_DET_STATUS.REC_LATE, SYS_DET_STATUS.YLD_LATE, SYS_DET_STATUS.GNB_STEER, SYS_DET_STATUS.FUS_LATE, SYS_DET_STATUS.STK_LATE, SYS_DET_STATUS.CLE_COEF, SYS_DET_STATUS.CLE_LATE])

theorem State_yldMoist_mut (sof : Nat) (data : List Sys2Proof.Byte) (s : State) : Upd [.cyc, .yld, .rcd] (some [0xC0, 0xC1, 0xCD]) s (State.yldMoist sof data s) := by
  unfold State.yldMoist
  repeat' first
    | (extract_lets +onlyGivenNames x; refine Upd.cut (P := [.cyc, .yld, .rcd]) (W := (some [0xC0, 0xC1, 0xCD])) (s := s) (x := x) ?_ (fun hx => ?_); rotate_left; clear_value x; rotate_left; subst x)
    | (extract_lets +onlyGivenNames x; subst x)
    | with_reducible assumption
    | with_reducible apply Upd.refl
    | (with_reducible apply Upd.comp (State_yldLate_mut ..) <;> first | decide | skip)
    | (with_reducible show Upd _ _ _ _; with_reducible rw [State.mk_box]; with_reducible apply Upd.box <;> first | (left; with_reducible rfl) | (right; decide) | skip)
    | split

theorem State_yldLossIn_mut (w : LacWin) (s : State) : Upd [.cyc, .inp, .rcd] (some [0xC0, 0xC1, 0xCD]) s (State.yldLossIn w s) := by
  unfold State.yldLossIn
  repeat' first
    | (extract_lets +onlyGivenNames x; refine Upd.cut (P := [.cyc, .inp, .rcd]) (W := (some [0xC0, 0xC1, 0xCD])) (s := s) (x := x) ?_ (fun hx => ?_); rotate_left; clear_value x; rotate_left; subst x)
    | (extract_lets +onlyGivenNames x; subst x)
    | with_reducible assumption
    | with_reducible apply Upd.refl
    | (with_reducible apply Upd.comp (State_yldLate_mut ..) <;> first | decide | skip)
    | (with_reducible show Upd _ _ _ _; with_reducible rw [State.mk_box]; with_reducible apply Upd.box <;> first | (left; with_reducible rfl) | (right; decide) | skip)
    | split

theorem State_yldHead_mut (l : Nat) (payload : List Sys2Proof.Byte) (s : State) : Upd [.cyc, .yld, .rcd] (some [0xC0, 0xC1, 0xCD]) s (State.yldHead l payload s) := by
  unfold State.yldHead
  repeat' first
    | (extract_lets +onlyGivenNames x; refine Upd.cut (P := [.cyc, .yld, .rcd]) (W := (some [0xC0, 0xC1, 0xCD])) (s := s) (x := x) ?_ (fun hx => ?_); rotate_left; clear_value x; rotate_left; subst x)
    | (extract_lets +onlyGivenNames x; subst x)
    | with_reducible assumption
    | with_reducible apply Upd.refl
    | (with_reducible apply Upd.comp (State_yldLate_mut ..) <;> first | decide | skip)
    | (with_reducible show Upd _ _ _ _; with_reducible rw [State.mk_box]; with_reducible apply Upd.box <;> first | (left; with_reducible rfl) | (right; decide) | skip)
    | split

end Sys2Proof.Machine
end

