-- ==== Sys2Proof/Laws/MutFen.lean ====
section
/-! SUPPORT. What each operation of Machine/Fen.lean may change (`Upd`): its parts of the state and its register windows. -/

namespace Sys2Proof.Machine

set_option Elab.async false
set_option linter.unusedSimpArgs false
set_option linter.unusedTactic false
set_option linter.unreachableTactic false
set_option linter.unnecessarySeqFocus false
set_option maxRecDepth 20000

theorem State_fenShow_mut (s : State) : Upd [] (some [0xCA]) s (State.fenShow s) := by
  unfold State.fenShow
  repeat' first
    | (extract_lets +onlyGivenNames x; refine Upd.cut (P := []) (W := (some [0xCA])) (s := s) (x := x) ?_ (fun hx => ?_); rotate_left; clear_value x; rotate_left; subst x)
    | with_reducible assumption
    | with_reducible apply Upd.refl
    | (with_reducible apply State_setB_step (w := 0xCA); rotate_left; decide; simp only [windowOf, FEN_PKG, FEN_PKG.FAULT, FEN_PKG.LOADED, FEN_PKG.USERS, FEN_PKG_ID, FEN_PKG_ID.PKG_ID, FEN_SRAM, FEN_SRAM.FREE, FEN_STATUS, FEN_STATUS.PKGS, FEN_STATUS.RUN, FEN_STATUS.STREAM, FEN_STATUS.STREAMS, FEN_STR, FEN_STR.LIVE, FEN_STR.RING, FEN_STR.SLOT, FEN_STR.STATE, FEN_STR_JSEQ, FEN_STR_JSEQ.JSEQ] <;> omega)
    | (with_reducible apply State_setReg_step (w := 0xCA); rotate_left; decide; simp only [windowOf, FEN_PKG, FEN_PKG.FAULT, FEN_PKG.LOADED, FEN_PKG.USERS, FEN_PKG_ID, FEN_PKG_ID.PKG_ID, FEN_SRAM, FEN_SRAM.FREE, FEN_STATUS, FEN_STATUS.PKGS, FEN_STATUS.RUN, FEN_STATUS.STREAM, FEN_STATUS.STREAMS, FEN_STR, FEN_STR.LIVE, FEN_STR.RING, FEN_STR.SLOT, FEN_STR.STATE, FEN_STR_JSEQ, FEN_STR_JSEQ.JSEQ] <;> omega)
    | (with_reducible apply State_set_step (w := 0xCA); rotate_left; decide; simp only [windowOf, FEN_PKG, FEN_PKG.FAULT, FEN_PKG.LOADED, FEN_PKG.USERS, FEN_PKG_ID, FEN_PKG_ID.PKG_ID, FEN_SRAM, FEN_SRAM.FREE, FEN_STATUS, FEN_STATUS.PKGS, FEN_STATUS.RUN, FEN_STATUS.STREAM, FEN_STATUS.STREAMS, FEN_STR, FEN_STR.LIVE, FEN_STR.RING, FEN_STR.SLOT, FEN_STR.STATE, FEN_STR_JSEQ, FEN_STR_JSEQ.JSEQ] <;> omega)
    | (with_reducible apply Upd.foldl <;> first | (intro y a ha hy; skip) | skip)
    | split

theorem opPkgUnload_mut (c : Cmd) (s : State) (hc : c.blk = 0x0A) : Upd [.dram, .cyc, .rings, .fen, .rcd] (some [0xC1, 0xCA]) s (opPkgUnload c s) := by
  unfold opPkgUnload
  repeat' first
    | (extract_lets +onlyGivenNames x; subst x)
    | with_reducible assumption
    | with_reducible apply Upd.refl
    | (with_reducible apply Upd.comp (State_fenShow_mut ..) <;> first | decide | skip)
    | (with_reducible apply Upd.comp (Cmd_finish_mut (b := 0x0A) ..) <;> first | decide | skip)
    | (with_reducible show Upd _ _ _ _; with_reducible rw [State.mk_box]; with_reducible apply Upd.box <;> first | (left; with_reducible rfl) | (right; decide) | skip)
    | split

theorem State_fenRequest_mut (x : Nat) (s : State) : Upd [.arb] (some [0xCA, 0xCB]) s (State.fenRequest x s) := by
  unfold State.fenRequest
  repeat' first
    | with_reducible apply Upd.refl
    | (with_reducible apply Upd.comp (State_fenShow_mut ..) <;> first | decide | skip)
    | (with_reducible apply Upd.comp (State_arbRequest_mut ..) <;> first | decide | skip)
    | split

theorem State_setStr_mut (x : Nat) (t : FenStream) (s : State) : Upd [.fen] (some []) s (State.setStr x t s) := by
  unfold State.setStr
  repeat' first
    | (extract_lets +onlyGivenNames x; subst x)
    | with_reducible apply Upd.refl
    | (with_reducible show Upd _ _ _ _; with_reducible rw [State.mk_box]; with_reducible apply Upd.box <;> first | (left; with_reducible rfl) | (right; decide) | skip)

theorem State_fenFrameEnd_mut (h : Nat) (k : Nat) (sof : Nat) (cseq : Nat) (anyFlag : Bool) (s : State) : Upd [.fen, .arb] (some [0xCA, 0xCB]) s (State.fenFrameEnd h k sof cseq anyFlag s) := by
  unfold State.fenFrameEnd
  repeat' first
    | (extract_lets +onlyGivenNames x; subst x)
    | with_reducible apply Upd.refl
    | (with_reducible apply Upd.comp (State_setStr_mut ..) <;> first | decide | skip)
    | (with_reducible apply Upd.comp (State_fenRequest_mut ..) <;> first | decide | skip)
    | split

theorem opPkgLoad_mut (c : Cmd) (s : State) (hc : c.blk = 0x0A) : Upd [.dram, .cyc, .rings, .fen, .rcd] (some [0xC1, 0xCA]) s (opPkgLoad c s) := by
  unfold opPkgLoad
  repeat' first
    | (extract_lets +onlyGivenNames x; refine Upd.cut (P := [.dram, .cyc, .rings, .fen, .rcd]) (W := (some [0xC1, 0xCA])) (s := s) (x := x) ?_ (fun hx => ?_); rotate_left; clear_value x; rotate_left; subst x)
    | (extract_lets +onlyGivenNames x; subst x)
    | with_reducible assumption
    | with_reducible apply Upd.refl
    | (with_reducible apply Upd.comp (State_fenShow_mut ..) <;> first | decide | skip)
    | (with_reducible apply Upd.comp (Cmd_finish_mut (b := 0x0A) ..) <;> first | decide | skip)
    | (with_reducible show Upd _ _ _ _; with_reducible rw [State.mk_box]; with_reducible apply Upd.box <;> first | (left; with_reducible rfl) | (right; decide) | skip)
    | split

theorem opFenJob_mut (c : Cmd) (s : State) (hc : c.blk = 0x0A) : Upd [.dram, .cyc, .rings, .fen, .arb, .rcd] (some [0xC1, 0xCA, 0xCB]) s (opFenJob c s) := by
  unfold opFenJob
  repeat' first
    | (extract_lets +onlyGivenNames x; subst x)
    | with_reducible assumption
    | with_reducible apply Upd.refl
    | (with_reducible apply Upd.comp (State_setStr_mut ..) <;> first | decide | skip)
    | (with_reducible apply Upd.comp (Cmd_finish_mut (b := 0x0A) ..) <;> first | decide | skip)
    | (with_reducible apply Upd.comp (State_fenRequest_mut ..) <;> first | decide | skip)
    | split

theorem execFenJob_mut (ring : Fin 17) (e : Sys2Proof.Entry) (s : State) : OutUpd [.dram, .cyc, .rings, .fen, .arb, .rcd] (some [0xC1, 0xCA, 0xCB]) s (execFenJob ring e s) := by
  unfold execFenJob
  repeat' first
    | with_reducible assumption
    | with_reducible apply Upd.refl
    | with_reducible apply OutUpd.next
    | (with_reducible apply Upd.comp (State_runRow_mut (P := [.dram, .cyc, .rings, .fen, .arb, .rcd]) (W := [0xC1, 0xCA, 0xCB]) ..) <;> first | decide | skip)
    | (with_reducible apply Upd.comp (opFenJob_mut ..) <;> first | decide | skip)
    | (intro c u hc)

theorem execPkgLoadDone_mut (slot : Fin 8) (s : State) : OutUpd [.dram, .cyc, .rings, .fen, .rcd] (some [0xC1, 0xCA]) s (execPkgLoadDone slot s) := by
  unfold execPkgLoadDone
  repeat' first
    | (extract_lets +onlyGivenNames x; refine Upd.cut (P := [.dram, .cyc, .rings, .fen, .rcd]) (W := (some [0xC1, 0xCA])) (s := s) (x := x) ?_ (fun hx => ?_); rotate_left; clear_value x; rotate_left; subst x)
    | (extract_lets +onlyGivenNames x; subst x)
    | with_reducible assumption
    | with_reducible apply Upd.refl
    | with_reducible apply OutUpd.next
    | (with_reducible apply Upd.comp (State_fenShow_mut ..) <;> first | decide | skip)
    | (with_reducible apply Upd.comp (State_completeSelf_mut ..) <;> first | decide | skip)
    | (with_reducible show Upd _ _ _ _; with_reducible rw [State.mk_box]; with_reducible apply Upd.box <;> first | (left; with_reducible rfl) | (right; decide) | skip)
    | split

/-- An operation that only the control ring takes. -/
theorem controlOnly_mut {P : List Comp} {W : List Nat} (op : Cmd → State → State) (c : Cmd) (s : State) (hc : c.blk = 0x0A)
    (hP : [Comp.rings, .dram, .rcd, .cyc].all (P.contains ·) = true) (hW : [0xC1, 0xCA].all (W.contains ·) = true)
    (h : ∀ c u, c.blk = 0x0A → Upd P (some W) u (op c u)) : Upd P (some W) s (controlOnly op c s) := by
  unfold controlOnly
  exact Upd.ite (h c s hc) ((Cmd_finish_mut c 5 s hc (by decide)).mono hP (by simpa [winSub] using hW))

theorem execPkgLoad_mut (ring : Fin 17) (e : Sys2Proof.Entry) (s : State) : OutUpd [.dram, .cyc, .rings, .fen, .rcd] (some [0xC1, 0xCA]) s (execPkgLoad ring e s) := by
  unfold execPkgLoad
  repeat' first
    | with_reducible assumption
    | with_reducible apply Upd.refl
    | with_reducible apply OutUpd.next
    | (with_reducible apply Upd.comp (State_runRow_mut (P := [.dram, .cyc, .rings, .fen, .rcd]) (W := [0xC1, 0xCA]) ..) <;> first | decide | skip)
    | (with_reducible apply Upd.comp (opPkgLoad_mut ..) <;> first | decide | skip)
    | (with_reducible apply Upd.comp (controlOnly_mut (P := [.dram, .cyc, .rings, .fen, .rcd]) (W := [0xC1, 0xCA]) ..) <;> first | decide | skip)
    | (intro c u hc)

theorem execFenSramCorrected_mut (s : State) : OutUpd [.cyc, .rcd] (some [0xC1, 0xCA]) s (execFenSramCorrected s) := by
  unfold execFenSramCorrected
  repeat' first
    | with_reducible apply Upd.refl
    | with_reducible apply OutUpd.next
    | (with_reducible apply State_bump_step (w := 0xCA); rotate_left; decide; simp only [windowOf, FEN_CNT, FEN_CNT.CORR] <;> omega)
    | (with_reducible apply Upd.comp (State_raise_mut ..) <;> first | decide | skip)

theorem State_fenRefuse_mut (s : State) : Upd [.cyc, .rcd] (some [0xC1, 0xCA]) s (State.fenRefuse s) := by
  unfold State.fenRefuse
  repeat' first
    | with_reducible apply Upd.refl
    | (with_reducible apply State_bump_step (w := 0xCA); rotate_left; decide; simp only [windowOf, FEN_CNT, FEN_CNT.IN_DROP] <;> omega)
    | (with_reducible apply Upd.comp (State_raise_mut ..) <;> first | decide | skip)

theorem State_fenBlur_mut (h : Nat) (k : Nat) (s : State) : Upd [.free, .fen] (some []) s (State.fenBlur h k s) := by
  unfold State.fenBlur
  repeat' first
    | (extract_lets +onlyGivenNames x; refine Upd.cut (P := [.free, .fen]) (W := (some [])) (s := s) (x := x) ?_ (fun hx => ?_); rotate_left; clear_value x; rotate_left; subst x)
    | (extract_lets +onlyGivenNames x; subst x)
    | with_reducible assumption
    | with_reducible apply Upd.refl
    | (with_reducible apply Upd.comp (State_setStr_mut ..) <;> first | decide | skip)
    | (with_reducible show Upd _ _ _ _; with_reducible rw [State.mk_box]; with_reducible apply Upd.box <;> first | (left; with_reducible rfl) | (right; decide) | skip)
    | split

theorem State_jobEnd_mut (x : Nat) (code : Nat) (s : State) : Upd [.dram, .cyc, .rings, .fen, .arb, .rcd] (some [0xC1, 0xCA, 0xCB]) s (State.jobEnd x code s) := by
  unfold State.jobEnd
  repeat' first
    | (extract_lets +onlyGivenNames x; refine Upd.cut (P := [.dram, .cyc, .rings, .fen, .arb, .rcd]) (W := (some [0xC1, 0xCA, 0xCB])) (s := s) (x := x) ?_ (fun hx => ?_); rotate_left; clear_value x; rotate_left; subst x)
    | (extract_lets +onlyGivenNames x; subst x)
    | with_reducible assumption
    | with_reducible apply Upd.refl
    | (with_reducible apply Upd.comp (State_fenShow_mut ..) <;> first | decide | skip)
    | (with_reducible apply Upd.comp (State_setStr_mut ..) <;> first | decide | skip)
    | (with_reducible apply Upd.comp (State_arbRelease_mut ..) <;> first | decide | skip)
    | (with_reducible apply Upd.comp (State_completeSelf_mut ..) <;> first | decide | skip)
    | (with_reducible apply Upd.comp (State_fenRequest_mut ..) <;> first | decide | skip)
    | (with_reducible show Upd _ _ _ _; with_reducible rw [State.mk_box]; with_reducible apply Upd.box <;> first | (left; with_reducible rfl) | (right; decide) | skip)
    | split

theorem State_ringZero_mut {b : Nat} (r : Nat) (s : State) (hb : b ≠ 0x14 ∧ 2 ≤ b) : Upd [.rings] (some [0xC0 + b]) s (State.ringZero b r s) := by
  have h (f : Fld) (u : State) (hf : f.addr = ringG b r + 0x10 ∨ f.addr = ringG b r + 0x14 ∨ f.addr = ringG b r + 0x18 ∨ f.addr = ringG b r + 0x1C) :
      Upd [.rings] (some [0xC0 + b]) u (u.set f 0) :=
    (State_set_mut f 0 u (win_ring_at r hb hf)).mono rfl (by simp [winSub])
  unfold State.ringZero
  exact ((((h (RING_PI b r) _ (by simp [RING_PI])).trans (h (RING_CI b r) _ (by simp [RING_CI]))).trans (h (CRING_PI b r) _ (by simp [CRING_PI]))).trans
    (h (CRING_CI b r) _ (by simp [CRING_CI]))).trans ((State_setRing_mut b r _ _).mono rfl rfl)

theorem State_strEnd_mut (x : Nat) (s : State) : Upd [.dram, .cyc, .rings, .fen, .arb, .rcd] (some [0xC1, 0xCA, 0xCB]) s (State.strEnd x s) := by
  unfold State.strEnd
  repeat' first
    | (extract_lets +onlyGivenNames x; refine Upd.cut (P := [.dram, .cyc, .rings, .fen, .arb, .rcd]) (W := (some [0xC1, 0xCA, 0xCB])) (s := s) (x := x) ?_ (fun hx => ?_); rotate_left; clear_value x; rotate_left; subst x)
    | (extract_lets +onlyGivenNames x; subst x)
    | with_reducible assumption
    | with_reducible apply Upd.refl
    | (with_reducible apply Upd.comp (State_ringZero_mut ..) <;> first | decide | skip)
    | (with_reducible apply Upd.comp (State_arbRelease_mut ..) <;> first | decide | skip)
    | (with_reducible apply Upd.comp (State_completeSelf_mut ..) <;> first | decide | skip)
    | (with_reducible apply Upd.foldl <;> first | (intro y a ha hy; skip) | skip)
    | (with_reducible show Upd _ _ _ _; with_reducible rw [State.mk_box]; with_reducible apply Upd.box <;> first | (left; with_reducible rfl) | (right; decide) | skip)
    | split

theorem State_fenDisable_mut (s : State) : Upd [.dram, .free, .cyc, .rings, .fen, .arb, .rcd] (some [0xC1, 0xCA, 0xCB]) s (State.fenDisable s) := by
  unfold State.fenDisable
  repeat' first
    | (extract_lets +onlyGivenNames x; refine Upd.cut (P := [.dram, .free, .cyc, .rings, .fen, .arb, .rcd]) (W := (some [0xC1, 0xCA, 0xCB])) (s := s) (x := x) ?_ (fun hx => ?_); rotate_left; clear_value x; rotate_left; subst x)
    | with_reducible assumption
    | with_reducible apply Upd.refl
    | (with_reducible apply State_setB_step (w := 0xCA); rotate_left; decide; simp only [windowOf, FEN_CTRL, FEN_CTRL.ENABLE] <;> omega)
    | (with_reducible apply Upd.comp (State_strEnd_mut ..) <;> first | decide | skip)
    | (with_reducible apply Upd.comp (State_fenShow_mut ..) <;> first | decide | skip)
    | (with_reducible apply Upd.comp (State_completeSelf_mut ..) <;> first | decide | skip)
    | (with_reducible apply Upd.comp (State_drawn_mut ..) <;> first | decide | skip)
    | (with_reducible apply Upd.foldl <;> first | (intro y a ha hy; skip) | skip)
    | (with_reducible show Upd _ _ _ _; with_reducible rw [State.mk_box]; with_reducible apply Upd.box <;> first | (left; with_reducible rfl) | (right; decide) | skip)
    | split

theorem State_fenLine_mut (h : Nat) (k : Nat) (w : Nat) (nch : Nat) (row : List Sys2Proof.Byte) (s : State) : FstUpd [.cyc, .fen, .rcd] (some [0xC1, 0xCA]) s (State.fenLine h k w nch row s) := by
  unfold State.fenLine
  repeat' first
    | (extract_lets +onlyGivenNames x; subst x)
    | with_reducible apply Upd.refl
    | (with_reducible show FstUpd _ _ _ _; with_reducible rw [State.fst_pair]; with_reducible apply FstUpd.mk)
    | (with_reducible apply Upd.comp (State_fenRefuse_mut ..) <;> first | decide | skip)
    | (with_reducible apply Upd.comp (State_setStr_mut ..) <;> first | decide | skip)
    | split

theorem State_fenFus_mut (h : Nat) (tk : Nat) (lk : Nat) (input : List Sys2Proof.Byte) (s : State) : FstUpd [.fen, .arb] (some [0xCA, 0xCB]) s (State.fenFus h tk lk input s) := by
  unfold State.fenFus
  repeat' first
    | (extract_lets +onlyGivenNames x; subst x)
    | with_reducible apply Upd.refl
    | (with_reducible show FstUpd _ _ _ _; with_reducible rw [State.fst_pair]; with_reducible apply FstUpd.mk)
    | (with_reducible apply Upd.comp (State_setStr_mut ..) <;> first | decide | skip)
    | (with_reducible apply Upd.comp (State_fenRequest_mut ..) <;> first | decide | skip)
    | split

theorem opStreamCreate_mut (c : Cmd) (s : State) (hc : c.blk = 0x0A) : Upd [.dram, .cyc, .rings, .gens, .fen, .rcd] (some [0xC1, 0xCA]) s (opStreamCreate c s) := by
  unfold opStreamCreate
  repeat' first
    | (extract_lets +onlyGivenNames x; refine Upd.cut (P := [.dram, .cyc, .rings, .gens, .fen, .rcd]) (W := (some [0xC1, 0xCA])) (s := s) (x := x) ?_ (fun hx => ?_); rotate_left; clear_value x; rotate_left; subst x)
    | (extract_lets +onlyGivenNames x; subst x)
    | with_reducible assumption
    | with_reducible apply Upd.refl
    | (with_reducible apply Upd.comp (Cmd_created_mut (b := 0x0A) ..) <;> first | decide | skip)
    | (with_reducible apply Upd.comp (State_advGen_mut ..) <;> first | decide | skip)
    | (with_reducible apply Upd.comp (State_fenShow_mut ..) <;> first | decide | skip)
    | (with_reducible apply Upd.comp (Cmd_failed_mut (b := 0x0A) ..) <;> first | decide | skip)
    | (with_reducible apply Upd.comp (State_setStr_mut ..) <;> first | decide | skip)
    | split

theorem execFenDisable_mut (s : State) : OutUpd [.dram, .free, .cyc, .rings, .fen, .arb, .rcd] (some [0xC1, 0xCA, 0xCB]) s (execFenDisable s) := by
  unfold execFenDisable
  repeat' first
    | with_reducible apply Upd.refl
    | with_reducible apply OutUpd.next
    | (with_reducible apply Upd.comp (State_fenDisable_mut ..) <;> first | decide | skip)
    | split

theorem execJobRequest_mut (x : Fin 16) (s : State) : OutUpd [.arb] (some [0xCA, 0xCB]) s (execJobRequest x s) := by
  unfold execJobRequest
  repeat' first
    | with_reducible apply Upd.refl
    | with_reducible apply OutUpd.next
    | (with_reducible apply Upd.comp (State_fenRequest_mut ..) <;> first | decide | skip)

theorem execPkgUnload_mut (ring : Fin 17) (e : Sys2Proof.Entry) (s : State) : OutUpd [.dram, .cyc, .rings, .fen, .rcd] (some [0xC1, 0xCA]) s (execPkgUnload ring e s) := by
  unfold execPkgUnload
  repeat' first
    | with_reducible assumption
    | with_reducible apply Upd.refl
    | with_reducible apply OutUpd.next
    | (with_reducible apply Upd.comp (State_runRow_mut (P := [.dram, .cyc, .rings, .fen, .rcd]) (W := [0xC1, 0xCA]) ..) <;> first | decide | skip)
    | (with_reducible apply Upd.comp (controlOnly_mut (P := [.dram, .cyc, .rings, .fen, .rcd]) (W := [0xC1, 0xCA]) ..) <;> first | decide | skip)
    | (with_reducible apply Upd.comp (opPkgUnload_mut ..) <;> first | decide | skip)
    | (intro c u hc)

theorem opStreamDestroy_mut (c : Cmd) (s : State) (hc : c.blk = 0x0A) : Upd [.dram, .cyc, .rings, .fen, .arb, .rcd] (some [0xC1, 0xCA, 0xCB]) s (opStreamDestroy c s) := by
  unfold opStreamDestroy
  repeat' first
    | with_reducible assumption
    | with_reducible apply Upd.refl
    | (with_reducible apply Upd.comp (State_strEnd_mut ..) <;> first | decide | skip)
    | (with_reducible apply Upd.comp (State_fenShow_mut ..) <;> first | decide | skip)
    | (with_reducible apply Upd.comp (Cmd_finish_mut (b := 0x0A) ..) <;> first | decide | skip)
    | split

theorem execJobComplete_mut (x : Fin 16) (s : State) : OutUpd [.dram, .free, .cyc, .rings, .fen, .arb, .fus, .yld, .rcd] (some [0xC0, 0xC1, 0xCA, 0xCB, 0xCD]) s (execJobComplete x s) := by
  unfold execJobComplete
  repeat' first
    | (extract_lets +onlyGivenNames x; subst x)
    | with_reducible apply Upd.refl
    | with_reducible apply OutUpd.next
    | (with_reducible apply Upd.comp (State_yldHead_mut ..) <;> first | decide | skip)
    | (with_reducible apply Upd.comp (State_jobEnd_mut ..) <;> first | decide | skip)
    | (with_reducible apply Upd.comp (State_fusFeed_mut ..) <;> first | decide | skip)
    | (with_reducible apply Upd.comp (State_dramPuts_mut ..) <;> first | decide | skip)
    | (with_reducible apply Upd.comp (State_drawn_mut ..) <;> first | decide | skip)
    | split

theorem State_fenRevoked_mut (s : State) : Upd [.cyc, .fen, .rcd] (some [0xC1, 0xCA]) s (State.fenRevoked s) := by
  unfold State.fenRevoked
  repeat' first
    | (extract_lets +onlyGivenNames x; refine Upd.cut (P := [.cyc, .fen, .rcd]) (W := (some [0xC1, 0xCA])) (s := s) (x := x) ?_ (fun hx => ?_); rotate_left; clear_value x; rotate_left; subst x)
    | (extract_lets +onlyGivenNames x; subst x)
    | with_reducible assumption
    | with_reducible apply Upd.refl
    | (with_reducible apply State_bump_step (w := 0xCA); rotate_left; decide; simp only [windowOf, FEN_CNT, FEN_CNT.REVOKE] <;> omega)
    | (with_reducible apply Upd.comp (State_fenShow_mut ..) <;> first | decide | skip)
    | (with_reducible apply Upd.comp (State_raise_mut ..) <;> first | decide | skip)
    | (with_reducible apply Upd.comp (State_setStr_mut ..) <;> first | decide | skip)
    | (with_reducible show Upd _ _ _ _; with_reducible rw [State.mk_box]; with_reducible apply Upd.box <;> first | (left; with_reducible rfl) | (right; decide) | skip)
    | split

theorem execFenStreamDestroy_mut (ring : Fin 17) (e : Sys2Proof.Entry) (s : State) : OutUpd [.dram, .cyc, .rings, .fen, .arb, .rcd] (some [0xC1, 0xCA, 0xCB]) s (execFenStreamDestroy ring e s) := by
  unfold execFenStreamDestroy
  repeat' first
    | with_reducible assumption
    | with_reducible apply Upd.refl
    | with_reducible apply OutUpd.next
    | (with_reducible apply Upd.comp (State_runRow_mut (P := [.dram, .cyc, .rings, .fen, .arb, .rcd]) (W := [0xC1, 0xCA, 0xCB]) ..) <;> first | decide | skip)
    | (with_reducible apply Upd.comp (opStreamDestroy_mut ..) <;> first | decide | skip)
    | (with_reducible apply Upd.comp (controlOnly_mut (P := [.dram, .cyc, .rings, .fen, .arb, .rcd]) (W := [0xC1, 0xCA, 0xCB]) ..) <;> first | decide | skip)
    | (intro c u hc)

theorem execSramUe_mut (slot : Option (Fin 8)) (s : State) : OutUpd [.dram, .cyc, .rings, .fen, .arb, .rcd] (some [0xC1, 0xCA, 0xCB]) s (execSramUe slot s) := by
  unfold execSramUe
  repeat' first
    | (extract_lets +onlyGivenNames x; refine Upd.cut (P := [.dram, .cyc, .rings, .fen, .arb, .rcd]) (W := (some [0xC1, 0xCA, 0xCB])) (s := s) (x := x) ?_ (fun hx => ?_); rotate_left; clear_value x; rotate_left; subst x)
    | (extract_lets +onlyGivenNames x; subst x)
    | with_reducible assumption
    | with_reducible apply Upd.refl
    | with_reducible apply OutUpd.next
    | (with_reducible apply Upd.comp (State_jobEnd_mut ..) <;> first | decide | skip)
    | (with_reducible apply Upd.comp (State_fenShow_mut ..) <;> first | decide | skip)
    | (with_reducible apply Upd.comp (State_raise_mut ..) <;> first | decide | skip)
    | (with_reducible show Upd _ _ _ _; with_reducible rw [State.mk_box]; with_reducible apply Upd.box <;> first | (left; with_reducible rfl) | (right; decide) | skip)
    | split

theorem execFenStreamCreate_mut (ring : Fin 17) (e : Sys2Proof.Entry) (s : State) : OutUpd [.dram, .cyc, .rings, .gens, .fen, .rcd] (some [0xC1, 0xCA]) s (execFenStreamCreate ring e s) := by
  unfold execFenStreamCreate
  repeat' first
    | with_reducible assumption
    | with_reducible apply Upd.refl
    | with_reducible apply OutUpd.next
    | (with_reducible apply Upd.comp (State_runRow_mut (P := [.dram, .cyc, .rings, .gens, .fen, .rcd]) (W := [0xC1, 0xCA]) ..) <;> first | decide | skip)
    | (with_reducible apply Upd.comp (opStreamCreate_mut ..) <;> first | decide | skip)
    | (with_reducible apply Upd.comp (controlOnly_mut (P := [.dram, .cyc, .rings, .gens, .fen, .rcd]) (W := [0xC1, 0xCA]) ..) <;> first | decide | skip)
    | (intro c u hc)

theorem State_fenGranted_mut (i : Nat) (s : State) : Upd [.free, .fen] (some [0xCA]) s (State.fenGranted i s) := by
  unfold State.fenGranted
  repeat' first
    | (extract_lets +onlyGivenNames x; refine Upd.cut (P := [.free, .fen]) (W := (some [0xCA])) (s := s) (x := x) ?_ (fun hx => ?_); rotate_left; clear_value x; rotate_left; subst x)
    | (extract_lets +onlyGivenNames x; subst x)
    | with_reducible assumption
    | with_reducible apply Upd.refl
    | (with_reducible apply Upd.comp (State_fenShow_mut ..) <;> first | decide | skip)
    | (with_reducible apply Upd.comp (State_setStr_mut ..) <;> first | decide | skip)
    | (with_reducible apply Upd.comp (State_drawn_mut ..) <;> first | decide | skip)
    | (with_reducible show Upd _ _ _ _; with_reducible rw [State.mk_box]; with_reducible apply Upd.box <;> first | (left; with_reducible rfl) | (right; decide) | skip)
    | split

end Sys2Proof.Machine
end

