-- ==== Sys2Proof/Laws/MutRcd.lean ====
section
/-! SUPPORT. What each operation of Machine/Rcd.lean may change (`Upd`): its parts of the state and its register windows. -/

namespace Sys2Proof.Machine

set_option Elab.async false
set_option linter.unusedSimpArgs false
set_option linter.unusedTactic false
set_option linter.unreachableTactic false
set_option linter.unnecessarySeqFocus false
set_option maxRecDepth 20000

theorem State_recShow_mut (s : State) : Upd [] (some [0xD2]) s (State.recShow s) := by
  unfold State.recShow
  repeat' first
    | (extract_lets +onlyGivenNames x; subst x)
    | with_reducible apply Upd.refl
    | (with_reducible apply State_set_step (w := 0xD2); rotate_left; decide; simp only [windowOf, REC_FREE, REC_FREE.FREE, REC_RNUM_HI, REC_RNUM_LO] <;> omega)
    | (with_reducible apply State_set64_step (w := 0xD2); rotate_left; decide; simp only [windowOf, REC_FREE, REC_FREE.FREE, REC_RNUM_HI, REC_RNUM_LO] <;> omega; simp only [windowOf, REC_FREE, REC_FREE.FREE, REC_RNUM_HI, REC_RNUM_LO] <;> omega)

theorem State_recWrite_mut (r : RecStream) (w : RecWin) (part : Bool) (s : State) : Upd [.mram, .cyc, .rcd] (some [0xC1, 0xD2]) s (State.recWrite r w part s) := by
  unfold State.recWrite
  repeat' first
    | (extract_lets +onlyGivenNames x; refine Upd.cut (P := [.mram, .cyc, .rcd]) (W := (some [0xC1, 0xD2])) (s := s) (x := x) ?_ (fun hx => ?_); rotate_left; clear_value x; rotate_left; subst x)
    | (extract_lets +onlyGivenNames x; subst x)
    | with_reducible assumption
    | with_reducible apply Upd.refl
    | (with_reducible apply State_bump_step (w := 0xD2); rotate_left; decide; simp only [windowOf, REC_CNT, REC_CNT.OVW, REC_DROP, RecStream.sev] <;> omega)
    | (with_reducible apply Upd.comp (State_raise_mut ..) <;> first | decide | skip)
    | (with_reducible apply Upd.comp (State_recShow_mut ..) <;> first | decide | skip)
    | (with_reducible show Upd _ _ _ _; with_reducible rw [State.mk_box]; with_reducible apply Upd.box <;> first | (left; with_reducible rfl) | (right; decide) | exact .inr ⟨by decide, fun hm => memWf_memPuts hm _ _⟩ | skip)
    | split

theorem State_setStream_mut (x : Nat) (r : RecStream) (s : State) : Upd [.rcd] (some []) s (State.setStream x r s) := by
  unfold State.setStream
  repeat' first
    | (extract_lets +onlyGivenNames x; subst x)
    | with_reducible apply Upd.refl
    | (with_reducible show Upd _ _ _ _; with_reducible rw [State.mk_box]; with_reducible apply Upd.box <;> first | (left; with_reducible rfl) | (right; decide) | skip)

theorem State_recCloseDue_mut (a0 : Nat) (a1 : State) : Upd [.mram, .cyc, .rcd] (some [0xC1, 0xD2]) a1 (State.recCloseDue a0 a1) := by
  induction a0 generalizing a1 with
  | zero =>
    unfold State.recCloseDue
    repeat' first
      | with_reducible apply Upd.refl
      | (with_reducible apply Upd.comp (ih ..) <;> first | decide | skip)
      | (with_reducible apply Upd.comp (State_recWrite_mut ..) <;> first | decide | skip)
      | (with_reducible apply Upd.comp (State_setStream_mut ..) <;> first | decide | skip)
      | split
  | succ n ih =>
    unfold State.recCloseDue
    repeat' first
      | with_reducible apply Upd.refl
      | (with_reducible apply Upd.comp (ih ..) <;> first | decide | skip)
      | (with_reducible apply Upd.comp (State_recWrite_mut ..) <;> first | decide | skip)
      | (with_reducible apply Upd.comp (State_setStream_mut ..) <;> first | decide | skip)
      | split

theorem State_recRevoked_mut (s : State) : Upd [] (some [0xD2]) s (State.recRevoked s) := by
  unfold State.recRevoked
  repeat' first
    | with_reducible apply Upd.refl
    | (with_reducible apply State_bump_step (w := 0xD2); rotate_left; decide; simp only [windowOf, REC_EXP_RES, REC_EXP_RES.RESTARTS] <;> omega)
    | split

theorem State_recLate_mut (x : Nat) (s : State) : Upd [.cyc, .rcd] (some [0xC0, 0xC1, 0xD2]) s (State.recLate x s) := by
  unfold State.recLate
  repeat' first
    | (extract_lets +onlyGivenNames x; refine Upd.cut (P := [.cyc, .rcd]) (W := (some [0xC0, 0xC1, 0xD2])) (s := s) (x := x) ?_ (fun hx => ?_); rotate_left; clear_value x; rotate_left; subst x)
    | with_reducible assumption
    | with_reducible apply Upd.refl
    | (with_reducible apply State_bump_step (w := 0xD2); rotate_left; decide; simp only [windowOf, REC_CNT, REC_CNT.LATE, REC_S_STAT, REC_S_STAT.LATE, SYS_DET_STATUS, SYS_DET_STATUS.REC_LATE] <;> omega)
    | (with_reducible apply Upd.comp (State_raise_mut ..) <;> first | decide | skip)
    | (with_reducible apply State_detViol_step; rotate_left; decide; decide; simp only [windowOf, Fld.addr, SYS_DET_STATUS, SYS_DET_STATUS.RECONF, SYS_DET_STATUS.REC_LATE, SYS_DET_STATUS.YLD_LATE, SYS_DET_STATUS.GNB_STEER, SYS_DET_STATUS.FUS_LATE, SYS_DET_STATUS.STK_LATE, SYS_DET_STATUS.CLE_COEF, SYS_DET_STATUS.CLE_LATE])
    | split

theorem State_recExpOff_mut (s : State) : Upd [.cyc, .arb, .rcd] (some [0xC1, 0xCB, 0xD2]) s (State.recExpOff s) := by
  unfold State.recExpOff
  repeat' first
    | (extract_lets +onlyGivenNames x; subst x)
    | with_reducible apply Upd.refl
    | (with_reducible apply State_setB_step (w := 0xD2); rotate_left; decide; simp only [windowOf, REC_STATUS, REC_STATUS.EXP] <;> omega)
    | (with_reducible apply Upd.comp (State_arbRelease_mut ..) <;> first | decide | skip)
    | (with_reducible show Upd _ _ _ _; with_reducible rw [State.mk_box]; with_reducible apply Upd.box <;> first | (left; with_reducible rfl) | (right; decide) | skip)

theorem State_recCloseAll_mut (x : Nat) (s : State) : Upd [.mram, .cyc, .rcd] (some [0xC1, 0xD2]) s (State.recCloseAll x s) := by
  unfold State.recCloseAll
  repeat' first
    | (extract_lets +onlyGivenNames x; refine Upd.cut (P := [.mram, .cyc, .rcd]) (W := (some [0xC1, 0xD2])) (s := s) (x := x) ?_ (fun hx => ?_); rotate_left; clear_value x; rotate_left; subst x)
    | (extract_lets +onlyGivenNames x; subst x)
    | with_reducible assumption
    | with_reducible apply Upd.refl
    | (with_reducible apply Upd.comp (State_recWrite_mut ..) <;> first | decide | skip)
    | (with_reducible apply Upd.comp (State_setStream_mut ..) <;> first | decide | skip)
    | (with_reducible apply Upd.foldl <;> first | (intro y a ha hy; skip) | skip)
    | split

theorem State_recCount_mut (s : State) : Upd [] (some [0xD2]) s (State.recCount s) := by
  unfold State.recCount
  repeat' first
    | with_reducible apply Upd.refl
    | (with_reducible apply State_set_step (w := 0xD2); rotate_left; decide; simp only [windowOf, REC_STATUS, REC_STATUS.STREAMS] <;> omega)

theorem State_recFree_mut (x : Nat) (s : State) : Upd [.latch, .mram, .cyc, .rcd] (some [0xC1, 0xD2]) s (State.recFree x s) := by
  unfold State.recFree
  repeat' first
    | (extract_lets +onlyGivenNames x; refine Upd.cut (P := [.latch, .mram, .cyc, .rcd]) (W := (some [0xC1, 0xD2])) (s := s) (x := x) ?_ (fun hx => ?_); rotate_left; clear_value x; rotate_left; subst x)
    | (extract_lets +onlyGivenNames x; subst x)
    | with_reducible assumption
    | with_reducible apply Upd.refl
    | (with_reducible apply State_wipeRegs_step (w := 0xD2); rotate_left; decide; decide; intro b h1 h2; simp only [windowOf, REC_S_STAT] at *; omega)
    | (with_reducible apply Upd.comp (State_recCloseAll_mut ..) <;> first | decide | skip)
    | (with_reducible apply Upd.comp (State_recCount_mut ..) <;> first | decide | skip)
    | (with_reducible show Upd _ _ _ _; with_reducible rw [State.mk_box]; with_reducible apply Upd.box <;> first | (left; with_reducible rfl) | (right; decide) | skip)

theorem State_recSweep_mut (s : State) : Upd [.mram, .cyc, .rcd] (some [0xC1, 0xD2]) s (State.recSweep s) := by
  unfold State.recSweep
  repeat' first
    | with_reducible apply Upd.refl
    | (with_reducible apply Upd.comp (State_recCloseDue_mut ..) <;> first | decide | skip)

theorem State_recDisable_mut (s : State) : Upd [.latch, .mram, .cyc, .arb, .rcd] (some [0xC1, 0xCB, 0xD2]) s (State.recDisable s) := by
  unfold State.recDisable
  repeat' first
    | (extract_lets +onlyGivenNames x; refine Upd.cut (P := [.latch, .mram, .cyc, .arb, .rcd]) (W := (some [0xC1, 0xCB, 0xD2])) (s := s) (x := x) ?_ (fun hx => ?_); rotate_left; clear_value x; rotate_left; subst x)
    | with_reducible assumption
    | with_reducible apply Upd.refl
    | (with_reducible apply State_setB_step (w := 0xD2); rotate_left; decide; simp only [windowOf, REC_CTRL, REC_CTRL.ENABLE, REC_STATUS, REC_STATUS.READY] <;> omega)
    | (with_reducible apply Upd.comp (State_recSweep_mut ..) <;> first | decide | skip)
    | (with_reducible apply Upd.comp (State_recFree_mut ..) <;> first | decide | skip)
    | (with_reducible apply Upd.comp (State_recExpOff_mut ..) <;> first | decide | skip)
    | (with_reducible apply Upd.foldl <;> first | (intro y a ha hy; skip) | skip)
    | split

theorem execRecDisable_mut (s : State) : OutUpd [.latch, .mram, .cyc, .arb, .rcd] (some [0xC1, 0xCB, 0xD2]) s (execRecDisable s) := by
  unfold execRecDisable
  repeat' first
    | with_reducible apply Upd.refl
    | with_reducible apply OutUpd.next
    | (with_reducible apply Upd.comp (State_recDisable_mut ..) <;> first | decide | skip)
    | split

theorem opRecPut_mut (c : Cmd) (s : State) (hc : c.blk = 0x12) : Upd [.dram, .cyc, .rings, .rcd] (some [0xC0, 0xC1, 0xD2]) s (opRecPut c s) := by
  unfold opRecPut
  repeat' first
    | (extract_lets +onlyGivenNames x; refine Upd.cut (P := [.dram, .cyc, .rings, .rcd]) (W := (some [0xC0, 0xC1, 0xD2])) (s := s) (x := x) ?_ (fun hx => ?_); rotate_left; clear_value x; rotate_left; subst x)
    | (extract_lets +onlyGivenNames x; subst x)
    | with_reducible assumption
    | with_reducible apply Upd.refl
    | (with_reducible apply Upd.comp (State_setStream_mut ..) <;> first | decide | skip)
    | (with_reducible apply Upd.comp (Cmd_finish_mut (b := 0x12) ..) <;> first | decide | skip)
    | (with_reducible apply Upd.comp (State_recLate_mut ..) <;> first | decide | skip)
    | split

theorem execRecPut_mut (ring : Fin 1) (e : Sys2Proof.Entry) (s : State) : OutUpd [.dram, .cyc, .rings, .rcd] (some [0xC0, 0xC1, 0xD2]) s (execRecPut ring e s) := by
  unfold execRecPut
  repeat' first
    | with_reducible assumption
    | with_reducible apply Upd.refl
    | with_reducible apply OutUpd.next
    | (with_reducible apply Upd.comp (State_runRow_mut (P := [.dram, .cyc, .rings, .rcd]) (W := [0xC0, 0xC1, 0xD2]) ..) <;> first | decide | skip)
    | (with_reducible apply Upd.comp (opRecPut_mut ..) <;> first | decide | skip)
    | (intro c u hc)

theorem opRecExport_mut (c : Cmd) (s : State) (hc : c.blk = 0x12) : Upd [.dram, .cyc, .rings, .arb, .rcd] (some [0xC1, 0xCB, 0xD2]) s (opRecExport c s) := by
  unfold opRecExport
  repeat' first
    | (extract_lets +onlyGivenNames x; refine Upd.cut (P := [.dram, .cyc, .rings, .arb, .rcd]) (W := (some [0xC1, 0xCB, 0xD2])) (s := s) (x := x) ?_ (fun hx => ?_); rotate_left; clear_value x; rotate_left; subst x)
    | (extract_lets +onlyGivenNames x; subst x)
    | with_reducible assumption
    | with_reducible apply Upd.refl
    | (with_reducible apply State_setB_step (w := 0xD2); rotate_left; decide; simp only [windowOf, REC_EXP_RES, REC_EXP_RES.RESTARTS, REC_STATUS, REC_STATUS.EXP] <;> omega)
    | (with_reducible apply Upd.comp (State_arbRequest_mut ..) <;> first | decide | skip)
    | (with_reducible apply State_set_step (w := 0xD2); rotate_left; decide; simp only [windowOf, REC_EXP_RES, REC_EXP_RES.RESTARTS, REC_STATUS, REC_STATUS.EXP] <;> omega)
    | (with_reducible apply Upd.comp (Cmd_finish_mut (b := 0x12) ..) <;> first | decide | skip)
    | (with_reducible show Upd _ _ _ _; with_reducible rw [State.mk_box]; with_reducible apply Upd.box <;> first | (left; with_reducible rfl) | (right; decide) | skip)
    | split

theorem State_recSplit_mut (x : Nat) (s : State) : Upd [.mram, .cyc, .rcd] (some [0xC1, 0xD2]) s (State.recSplit x s) := by
  unfold State.recSplit
  repeat' first
    | (extract_lets +onlyGivenNames x; refine Upd.cut (P := [.mram, .cyc, .rcd]) (W := (some [0xC1, 0xD2])) (s := s) (x := x) ?_ (fun hx => ?_); rotate_left; clear_value x; rotate_left; subst x)
    | (extract_lets +onlyGivenNames x; subst x)
    | with_reducible assumption
    | with_reducible apply Upd.refl
    | (with_reducible apply Upd.comp (State_recWrite_mut ..) <;> first | decide | skip)
    | (with_reducible apply Upd.comp (State_setStream_mut ..) <;> first | decide | skip)
    | split

theorem opRecFlush_mut (c : Cmd) (s : State) (hc : c.blk = 0x12) : Upd [.dram, .mram, .cyc, .rings, .rcd] (some [0xC1, 0xD2]) s (opRecFlush c s) := by
  unfold opRecFlush
  repeat' first
    | with_reducible assumption
    | with_reducible apply Upd.refl
    | (with_reducible apply Upd.comp (State_recSplit_mut ..) <;> first | decide | skip)
    | (with_reducible apply Upd.comp (State_recSweep_mut ..) <;> first | decide | skip)
    | (with_reducible apply Upd.comp (Cmd_finish_mut (b := 0x12) ..) <;> first | decide | skip)
    | split

theorem execRecFlush_mut (ring : Fin 1) (e : Sys2Proof.Entry) (s : State) : OutUpd [.dram, .mram, .cyc, .rings, .rcd] (some [0xC1, 0xD2]) s (execRecFlush ring e s) := by
  unfold execRecFlush
  repeat' first
    | with_reducible assumption
    | with_reducible apply Upd.refl
    | with_reducible apply OutUpd.next
    | (with_reducible apply Upd.comp (State_runRow_mut (P := [.dram, .mram, .cyc, .rings, .rcd]) (W := [0xC1, 0xD2]) ..) <;> first | decide | skip)
    | (with_reducible apply Upd.comp (opRecFlush_mut ..) <;> first | decide | skip)
    | (intro c u hc)

theorem execRecScanEnd_mut (s : State) : OutUpd [.cyc, .rcd] (some [0xC1, 0xD2]) s (execRecScanEnd s) := by
  unfold execRecScanEnd
  repeat' first
    | (extract_lets +onlyGivenNames x; refine Upd.cut (P := [.cyc, .rcd]) (W := (some [0xC1, 0xD2])) (s := s) (x := x) ?_ (fun hx => ?_); rotate_left; clear_value x; rotate_left; subst x)
    | (extract_lets +onlyGivenNames x; subst x)
    | with_reducible assumption
    | with_reducible apply Upd.refl
    | with_reducible apply OutUpd.next
    | (with_reducible apply State_setB_step (w := 0xD2); rotate_left; decide; simp only [windowOf, REC_STATUS, REC_STATUS.READY, REC_TORN, REC_TORN.TORN] <;> omega)
    | (with_reducible apply State_set_step (w := 0xD2); rotate_left; decide; simp only [windowOf, REC_STATUS, REC_STATUS.READY, REC_TORN, REC_TORN.TORN] <;> omega)
    | (with_reducible apply Upd.comp (State_raise_mut ..) <;> first | decide | skip)
    | (with_reducible apply Upd.comp (State_recShow_mut ..) <;> first | decide | skip)
    | (with_reducible show Upd _ _ _ _; with_reducible rw [State.mk_box]; with_reducible apply Upd.box <;> first | (left; with_reducible rfl) | (right; decide) | skip)
    | split

theorem opRecCreate_mut (c : Cmd) (s : State) (hc : c.blk = 0x12) : Upd [.dram, .cyc, .rings, .gens, .rcd] (some [0xC1, 0xD2]) s (opRecCreate c s) := by
  unfold opRecCreate
  repeat' first
    | (extract_lets +onlyGivenNames x; refine Upd.cut (P := [.dram, .cyc, .rings, .gens, .rcd]) (W := (some [0xC1, 0xD2])) (s := s) (x := x) ?_ (fun hx => ?_); rotate_left; clear_value x; rotate_left; subst x)
    | (extract_lets +onlyGivenNames x; subst x)
    | with_reducible assumption
    | with_reducible apply Upd.refl
    | (with_reducible apply State_setB_step (w := 0xD2); rotate_left; decide; simp only [windowOf, REC_S_SID, REC_S_SID.SID, REC_S_STAT, REC_S_STAT.KIND, REC_S_STAT.LIVE, REC_S_STAT.SEV] <;> omega)
    | (with_reducible apply Upd.comp (Cmd_created_mut (b := 0x12) ..) <;> first | decide | skip)
    | (with_reducible apply Upd.comp (State_setStream_mut ..) <;> first | decide | skip)
    | (with_reducible apply Upd.comp (State_advGen_mut ..) <;> first | decide | skip)
    | (with_reducible apply State_set_step (w := 0xD2); rotate_left; decide; simp only [windowOf, REC_S_SID, REC_S_SID.SID, REC_S_STAT, REC_S_STAT.KIND, REC_S_STAT.LIVE, REC_S_STAT.SEV] <;> omega)
    | (with_reducible apply Upd.comp (Cmd_failed_mut (b := 0x12) ..) <;> first | decide | skip)
    | (with_reducible apply Upd.comp (State_recCount_mut ..) <;> first | decide | skip)
    | split

theorem execRecStreamCreate_mut (ring : Fin 1) (e : Sys2Proof.Entry) (s : State) : OutUpd [.dram, .cyc, .rings, .gens, .rcd] (some [0xC1, 0xD2]) s (execRecStreamCreate ring e s) := by
  unfold execRecStreamCreate
  repeat' first
    | with_reducible assumption
    | with_reducible apply Upd.refl
    | with_reducible apply OutUpd.next
    | (with_reducible apply Upd.comp (State_runRow_mut (P := [.dram, .cyc, .rings, .gens, .rcd]) (W := [0xC1, 0xD2]) ..) <;> first | decide | skip)
    | (with_reducible apply Upd.comp (opRecCreate_mut ..) <;> first | decide | skip)
    | (intro c u hc)

theorem opRecDestroy_mut (c : Cmd) (s : State) (hc : c.blk = 0x12) : Upd [.latch, .dram, .mram, .cyc, .rings, .rcd] (some [0xC1, 0xD2]) s (opRecDestroy c s) := by
  unfold opRecDestroy
  repeat' first
    | with_reducible assumption
    | with_reducible apply Upd.refl
    | (with_reducible apply Upd.comp (State_recSweep_mut ..) <;> first | decide | skip)
    | (with_reducible apply Upd.comp (State_recFree_mut ..) <;> first | decide | skip)
    | (with_reducible apply Upd.comp (Cmd_finish_mut (b := 0x12) ..) <;> first | decide | skip)
    | split

theorem execRecStreamDestroy_mut (ring : Fin 1) (e : Sys2Proof.Entry) (s : State) : OutUpd [.latch, .dram, .mram, .cyc, .rings, .rcd] (some [0xC1, 0xD2]) s (execRecStreamDestroy ring e s) := by
  unfold execRecStreamDestroy
  repeat' first
    | with_reducible assumption
    | with_reducible apply Upd.refl
    | with_reducible apply OutUpd.next
    | (with_reducible apply Upd.comp (State_runRow_mut (P := [.latch, .dram, .mram, .cyc, .rings, .rcd]) (W := [0xC1, 0xD2]) ..) <;> first | decide | skip)
    | (with_reducible apply Upd.comp (opRecDestroy_mut ..) <;> first | decide | skip)
    | (intro c u hc)

theorem State_recPark_mut (s : State) : Upd [.mram, .cyc, .rcd] (some [0xC1, 0xD2]) s (State.recPark s) := by
  unfold State.recPark
  repeat' first
    | (extract_lets +onlyGivenNames x; refine Upd.cut (P := [.mram, .cyc, .rcd]) (W := (some [0xC1, 0xD2])) (s := s) (x := x) ?_ (fun hx => ?_); rotate_left; clear_value x; rotate_left; subst x)
    | (extract_lets +onlyGivenNames x; subst x)
    | with_reducible assumption
    | with_reducible apply Upd.refl
    | (with_reducible apply Upd.comp (State_recWrite_mut ..) <;> first | decide | skip)
    | (with_reducible apply Upd.comp (State_setStream_mut ..) <;> first | decide | skip)
    | (with_reducible apply Upd.comp (State_recSweep_mut ..) <;> first | decide | skip)
    | (with_reducible apply Upd.foldl <;> first | (intro y a ha hy; skip) | skip)
    | split

theorem execRecExport_mut (ring : Fin 1) (e : Sys2Proof.Entry) (s : State) : OutUpd [.dram, .cyc, .rings, .arb, .rcd] (some [0xC1, 0xCB, 0xD2]) s (execRecExport ring e s) := by
  unfold execRecExport
  repeat' first
    | with_reducible assumption
    | with_reducible apply Upd.refl
    | with_reducible apply OutUpd.next
    | (with_reducible apply Upd.comp (State_runRow_mut (P := [.dram, .cyc, .rings, .arb, .rcd]) (W := [0xC1, 0xCB, 0xD2]) ..) <;> first | decide | skip)
    | (with_reducible apply Upd.comp (opRecExport_mut ..) <;> first | decide | skip)
    | (intro c u hc)

theorem execRecWindowClose_mut (s : State) : OutUpd [.mram, .cyc, .rcd] (some [0xC1, 0xD2]) s (execRecWindowClose s) := by
  unfold execRecWindowClose
  repeat' first
    | with_reducible apply Upd.refl
    | with_reducible apply OutUpd.next
    | (with_reducible apply Upd.comp (State_recSweep_mut ..) <;> first | decide | skip)
    | split

theorem execExpDone_mut (s : State) : OutUpd [.mram, .ufs, .free, .cyc, .arb, .rcd] (some [0xC1, 0xCB, 0xD2]) s (execExpDone s) := by
  unfold execExpDone
  repeat' first
    | (extract_lets +onlyGivenNames x; refine Upd.cut (P := [.mram, .ufs, .free, .cyc, .arb, .rcd]) (W := (some [0xC1, 0xCB, 0xD2])) (s := s) (x := x) ?_ (fun hx => ?_); rotate_left; clear_value x; rotate_left; subst x)
    | (extract_lets +onlyGivenNames x; subst x)
    | with_reducible assumption
    | with_reducible apply Upd.refl
    | with_reducible apply OutUpd.next
    | (with_reducible apply Upd.comp (State_recSweep_mut ..) <;> first | decide | skip)
    | (with_reducible apply State_set_step (w := 0xD2); rotate_left; decide; simp only [windowOf, REC_EXP_CNT, REC_EXP_CNT.COUNT, REC_EXP_LAST_HI, REC_EXP_LAST_LO, REC_EXP_RES, REC_EXP_RES.REASON] <;> omega)
    | (with_reducible apply State_set64_step (w := 0xD2); rotate_left; decide; simp only [windowOf, REC_EXP_CNT, REC_EXP_CNT.COUNT, REC_EXP_LAST_HI, REC_EXP_LAST_LO, REC_EXP_RES, REC_EXP_RES.REASON] <;> omega; simp only [windowOf, REC_EXP_CNT, REC_EXP_CNT.COUNT, REC_EXP_LAST_HI, REC_EXP_LAST_LO, REC_EXP_RES, REC_EXP_RES.REASON] <;> omega)
    | (with_reducible apply Upd.comp (State_raise_mut ..) <;> first | decide | skip)
    | (with_reducible apply Upd.comp (State_recExpOff_mut ..) <;> first | decide | skip)
    | (with_reducible apply Upd.comp (State_drawn_mut ..) <;> first | decide | skip)
    | (with_reducible show Upd _ _ _ _; with_reducible rw [State.mk_box]; with_reducible apply Upd.box <;> first | (left; with_reducible rfl) | (right; decide) | exact .inr ⟨by decide, fun hm => memWf_memPuts hm _ _⟩ | skip)
    | split

theorem State_recStart_mut (s : State) : Upd [.rcd] (some [0xD2]) s (State.recStart s) := by
  unfold State.recStart
  repeat' first
    | with_reducible apply Upd.refl
    | (with_reducible apply State_setB_step (w := 0xD2); rotate_left; decide; simp only [windowOf, REC_STATUS, REC_STATUS.READY] <;> omega)
    | (with_reducible show Upd _ _ _ _; with_reducible rw [State.mk_box]; with_reducible apply Upd.box <;> first | (left; with_reducible rfl) | (right; decide) | skip)

end Sys2Proof.Machine
end

