-- ==== Sys2Proof/Laws/MutFus.lean ====
section
/-! SUPPORT. What each operation of Machine/Fus.lean may change (`Upd`): its parts of the state and its register windows. -/

namespace Sys2Proof.Machine

set_option Elab.async false
set_option linter.unusedSimpArgs false
set_option linter.unusedTactic false
set_option linter.unreachableTactic false
set_option linter.unnecessarySeqFocus false
set_option maxRecDepth 20000

theorem State_fusRecPut_mut (p : FusPub) (buf : Nat) (flags : Nat) (s : State) : Upd [.dram, .cyc, .fus, .rcd] (some [0xC1, 0xCC]) s (State.fusRecPut p buf flags s) := by
  unfold State.fusRecPut
  repeat' first
    | (extract_lets +onlyGivenNames x; refine Upd.cut (P := [.dram, .cyc, .fus, .rcd]) (W := (some [0xC1, 0xCC])) (s := s) (x := x) ?_ (fun hx => ?_); rotate_left; clear_value x; rotate_left; subst x)
    | (extract_lets +onlyGivenNames x; subst x)
    | with_reducible assumption
    | with_reducible apply Upd.refl
    | (with_reducible apply State_bump_step (w := 0xCC); rotate_left; decide; simp only [windowOf, FUS_REC_DROP, FUS_REC_DROP.DROP, FUS_REC_PI, FUS_REC_PI.PI] <;> omega)
    | (with_reducible apply Upd.comp (State_dramPuts_mut ..) <;> first | decide | skip)
    | (with_reducible apply State_set_step (w := 0xCC); rotate_left; decide; simp only [windowOf, FUS_REC_DROP, FUS_REC_DROP.DROP, FUS_REC_PI, FUS_REC_PI.PI] <;> omega)
    | (with_reducible apply Upd.comp (State_raise_mut ..) <;> first | decide | skip)
    | (with_reducible show Upd _ _ _ _; with_reducible rw [State.mk_box]; with_reducible apply Upd.box <;> first | (left; with_reducible rfl) | (right; decide) | skip)
    | split

theorem State_fusShow_mut (s : State) : Upd [] (some [0xCC]) s (State.fusShow s) := by
  unfold State.fusShow
  repeat' first
    | with_reducible apply Upd.refl
    | (with_reducible apply State_setB_step (w := 0xCC); rotate_left; decide; simp only [windowOf, FUS_STATUS, FUS_STATUS.PUB, FUS_STATUS.SOURCES] <;> omega)
    | (with_reducible apply State_set_step (w := 0xCC); rotate_left; decide; simp only [windowOf, FUS_STATUS, FUS_STATUS.PUB, FUS_STATUS.SOURCES] <;> omega)

theorem State_fusFinish_mut (p : FusPub) (rest : List FusPub) (buf : Nat) (headOk : Bool) (s : State) : Upd [.dram, .cyc, .fus, .rcd] (some [0xC1, 0xCC]) s (State.fusFinish p rest buf headOk s) := by
  unfold State.fusFinish
  repeat' first
    | (extract_lets +onlyGivenNames x; refine Upd.cut (P := [.dram, .cyc, .fus, .rcd]) (W := (some [0xC1, 0xCC])) (s := s) (x := x) ?_ (fun hx => ?_); rotate_left; clear_value x; rotate_left; subst x)
    | (extract_lets +onlyGivenNames x; subst x)
    | with_reducible assumption
    | with_reducible apply Upd.refl
    | (with_reducible apply State_setReg_step (w := 0xCC); rotate_left; decide; simp only [windowOf, FUS_CNT, FUS_CNT.HEAD_SKIP, FUS_CNT.OVERRUN, FUS_LAST, FUS_LAST_LTC_HI, FUS_LAST_LTC_LO, FUS_TILE_SUM, FUS_TILE_SUM.CONFLICT, FUS_TILE_SUM.UNCHECKED] <;> omega)
    | (with_reducible apply State_bump_step (w := 0xCC); rotate_left; decide; simp only [windowOf, FUS_CNT, FUS_CNT.HEAD_SKIP, FUS_CNT.OVERRUN, FUS_LAST, FUS_LAST_LTC_HI, FUS_LAST_LTC_LO, FUS_TILE_SUM, FUS_TILE_SUM.CONFLICT, FUS_TILE_SUM.UNCHECKED] <;> omega)
    | (with_reducible apply State_set_step (w := 0xCC); rotate_left; decide; simp only [windowOf, FUS_CNT, FUS_CNT.HEAD_SKIP, FUS_CNT.OVERRUN, FUS_LAST, FUS_LAST_LTC_HI, FUS_LAST_LTC_LO, FUS_TILE_SUM, FUS_TILE_SUM.CONFLICT, FUS_TILE_SUM.UNCHECKED] <;> omega)
    | (with_reducible apply State_set64_step (w := 0xCC); rotate_left; decide; simp only [windowOf, FUS_CNT, FUS_CNT.HEAD_SKIP, FUS_CNT.OVERRUN, FUS_LAST, FUS_LAST_LTC_HI, FUS_LAST_LTC_LO, FUS_TILE_SUM, FUS_TILE_SUM.CONFLICT, FUS_TILE_SUM.UNCHECKED] <;> omega; simp only [windowOf, FUS_CNT, FUS_CNT.HEAD_SKIP, FUS_CNT.OVERRUN, FUS_LAST, FUS_LAST_LTC_HI, FUS_LAST_LTC_LO, FUS_TILE_SUM, FUS_TILE_SUM.CONFLICT, FUS_TILE_SUM.UNCHECKED] <;> omega)
    | (with_reducible apply Upd.comp (State_raise_mut ..) <;> first | decide | skip)
    | (with_reducible apply Upd.comp (State_fusRecPut_mut ..) <;> first | decide | skip)
    | (with_reducible apply Upd.comp (State_fusShow_mut ..) <;> first | decide | skip)
    | (with_reducible show Upd _ _ _ _; with_reducible rw [State.mk_box]; with_reducible apply Upd.box <;> first | (left; with_reducible rfl) | (right; decide) | skip)
    | split

theorem State_fusHead_mut (t : Int) (l : Nat) (feat : List Sys2Proof.Byte) (s : State) : FstUpd [.fen, .arb] (some [0xCA, 0xCB]) s (State.fusHead t l feat s) := by
  unfold State.fusHead
  repeat' first
    | (extract_lets +onlyGivenNames x; subst x)
    | with_reducible apply Upd.refl
    | (with_reducible show FstUpd _ _ _ _; with_reducible rw [State.fst_pair]; with_reducible apply FstUpd.mk)
    | (with_reducible apply FstUpd.comp (State_fenFus_mut ..) <;> first | decide | skip)
    | split

theorem State_fusPrev_mut (p : FusPub) (s : State) : SndUpd [.free] (some []) s (State.fusPrev p s) := by
  unfold State.fusPrev
  repeat' first
    | (extract_lets +onlyGivenNames x; subst x)
    | with_reducible apply Upd.refl
    | (with_reducible show SndUpd _ _ _ _; with_reducible rw [State.snd_pair]; with_reducible apply SndUpd.mk)
    | (with_reducible apply Upd.comp (State_drawn_mut ..) <;> first | decide | skip)
    | split

theorem execInstantEnd_mut (s : State) : OutUpd [.dram, .free, .cyc, .fen, .arb, .fus, .rcd] (some [0xC1, 0xCA, 0xCB, 0xCC]) s (execInstantEnd s) := by
  unfold execInstantEnd
  repeat' first
    | (extract_lets +onlyGivenNames x; subst x)
    | with_reducible apply Upd.refl
    | with_reducible apply OutUpd.next
    | (with_reducible apply FstUpd.comp (State_fusHead_mut ..) <;> first | decide | skip)
    | (with_reducible apply Upd.comp (State_dramPuts_mut ..) <;> first | decide | skip)
    | (with_reducible apply Upd.comp (State_fusFinish_mut ..) <;> first | decide | skip)
    | (with_reducible apply SndUpd.comp (State_fusPrev_mut ..) <;> first | decide | skip)
    | (with_reducible show Upd _ _ _ _; with_reducible rw [State.fst_box]; with_reducible apply FstUpd.out)
    | (with_reducible show Upd _ _ _ _; with_reducible rw [State.snd_box]; with_reducible apply SndUpd.out)
    | split

theorem State_flagEvent_mut {w : Nat} (f : Fld) (n : Nat) (s : State) (h : windowOf f.addr = w) : Upd [.rcd, .cyc] (some [w, 0xC1]) s (State.flagEvent f n s) := by
  unfold State.flagEvent
  exact Upd.ite (Upd.refl s) (((State_setB_mut _ _ s h).mono rfl (by simp [winSub])).trans ((State_raise_mut _ _).mono rfl (by simp [winSub])))
theorem State_flagEvent_step {P : List Comp} {W : Option (List Nat)} {s x : State} {w : Nat} {f : Fld} {n : Nat} (h0 : Upd P W s x)
    (hp : ([.rcd, .cyc] : List Comp).all (P.contains ·) = true) (hw : winSub (some [w, 0xC1]) W = true) (h : windowOf f.addr = w) : Upd P W s (State.flagEvent f n x) :=
  (State_flagEvent_mut f n x h).comp hp hw h0

theorem State_fusTaken_mut (x : Nat) (tov : Nat) (s : State) : Upd [.cyc, .rcd] (some [0xC0, 0xC1, 0xCC]) s (State.fusTaken x tov s) := by
  unfold State.fusTaken
  repeat' first
    | (extract_lets +onlyGivenNames x; refine Upd.cut (P := [.cyc, .rcd]) (W := (some [0xC0, 0xC1, 0xCC])) (s := s) (x := x) ?_ (fun hx => ?_); rotate_left; clear_value x; rotate_left; subst x)
    | with_reducible assumption
    | with_reducible apply Upd.refl
    | (with_reducible apply State_bump_step (w := 0xCC); rotate_left; decide; simp only [windowOf, FUS_LATE_CNT, FUS_LATE_CNT.LATE, FUS_S_CNT, FUS_S_CNT.LATE, FUS_S_CNT2, FUS_S_CNT2.OVER_LB, FUS_S_LAST_HI, FUS_S_LAST_LO, FUS_S_STAT, FUS_S_STAT.LATE_F, FUS_S_STAT.OLB_F, SYS_DET_STATUS, SYS_DET_STATUS.FUS_LATE] <;> omega)
    | (with_reducible apply State_set64_step (w := 0xCC); rotate_left; decide; simp only [windowOf, FUS_LATE_CNT, FUS_LATE_CNT.LATE, FUS_S_CNT, FUS_S_CNT.LATE, FUS_S_CNT2, FUS_S_CNT2.OVER_LB, FUS_S_LAST_HI, FUS_S_LAST_LO, FUS_S_STAT, FUS_S_STAT.LATE_F, FUS_S_STAT.OLB_F, SYS_DET_STATUS, SYS_DET_STATUS.FUS_LATE] <;> omega; simp only [windowOf, FUS_LATE_CNT, FUS_LATE_CNT.LATE, FUS_S_CNT, FUS_S_CNT.LATE, FUS_S_CNT2, FUS_S_CNT2.OVER_LB, FUS_S_LAST_HI, FUS_S_LAST_LO, FUS_S_STAT, FUS_S_STAT.LATE_F, FUS_S_STAT.OLB_F, SYS_DET_STATUS, SYS_DET_STATUS.FUS_LATE] <;> omega)
    | (with_reducible apply State_detViol_step; rotate_left; decide; decide; simp only [windowOf, Fld.addr, SYS_DET_STATUS, SYS_DET_STATUS.RECONF, SYS_DET_STATUS.REC_LATE, SYS_DET_STATUS.YLD_LATE, SYS_DET_STATUS.GNB_STEER, SYS_DET_STATUS.FUS_LATE, SYS_DET_STATUS.STK_LATE, SYS_DET_STATUS.CLE_COEF, SYS_DET_STATUS.CLE_LATE])
    | (with_reducible apply State_flagEvent_step (w := 0xCC); rotate_left; decide; decide; simp only [windowOf, FUS_LATE_CNT, FUS_LATE_CNT.LATE, FUS_S_CNT, FUS_S_CNT.LATE, FUS_S_CNT2, FUS_S_CNT2.OVER_LB, FUS_S_LAST_HI, FUS_S_LAST_LO, FUS_S_STAT, FUS_S_STAT.LATE_F, FUS_S_STAT.OLB_F, SYS_DET_STATUS, SYS_DET_STATUS.FUS_LATE] <;> omega)
    | split

theorem State_fusUnused_mut (x : Nat) (s : State) : Upd [.cyc, .rcd] (some [0xC1, 0xCC]) s (State.fusUnused x s) := by
  unfold State.fusUnused
  repeat' first
    | with_reducible apply Upd.refl
    | (with_reducible apply State_bump_step (w := 0xCC); rotate_left; decide; simp only [windowOf, FUS_S_CNT, FUS_S_CNT.UNUSED, FUS_S_STAT, FUS_S_STAT.UNUSED_F] <;> omega)
    | (with_reducible apply State_flagEvent_step (w := 0xCC); rotate_left; decide; decide; simp only [windowOf, FUS_S_CNT, FUS_S_CNT.UNUSED, FUS_S_STAT, FUS_S_STAT.UNUSED_F] <;> omega)

theorem State_fusBody_mut (x : Nat) (tov : Nat) (addr : Nat) (n : Nat) (s : State) : Upd [.cyc, .fus, .rcd] (some [0xC0, 0xC1, 0xCC]) s (State.fusBody x tov addr n s) := by
  unfold State.fusBody
  repeat' first
    | (extract_lets +onlyGivenNames x; refine Upd.cut (P := [.cyc, .fus, .rcd]) (W := (some [0xC0, 0xC1, 0xCC])) (s := s) (x := x) ?_ (fun hx => ?_); rotate_left; clear_value x; rotate_left; subst x)
    | (extract_lets +onlyGivenNames x; subst x)
    | with_reducible assumption
    | with_reducible apply Upd.refl
    | (with_reducible apply Upd.comp (State_fusUnused_mut ..) <;> first | decide | skip)
    | (with_reducible apply Upd.comp (State_fusTaken_mut ..) <;> first | decide | skip)
    | (with_reducible show Upd _ _ _ _; with_reducible rw [State.mk_box]; with_reducible apply Upd.box <;> first | (left; with_reducible rfl) | (right; decide) | skip)
    | split

theorem State_setSrc_mut (x : Nat) (v : FusSrc) (s : State) : Upd [.fus] (some []) s (State.setSrc x v s) := by
  unfold State.setSrc
  repeat' first
    | (extract_lets +onlyGivenNames x; subst x)
    | with_reducible apply Upd.refl
    | (with_reducible show Upd _ _ _ _; with_reducible rw [State.mk_box]; with_reducible apply Upd.box <;> first | (left; with_reducible rfl) | (right; decide) | skip)

theorem State_voteChanges_mut (out : Bool) (n : Nat) (s : State) : Upd [.cyc, .rcd] (some [0xC1, 0xCC]) s (State.voteChanges out n s) := by
  unfold State.voteChanges
  repeat' first
    | with_reducible assumption
    | with_reducible apply Upd.refl
    | (with_reducible apply State_bump_step (w := 0xCC); rotate_left; decide; simp only [windowOf, FUS_VOTE_CNT, FUS_VOTE_CNT.INS, FUS_VOTE_CNT.OUTS] <;> omega)
    | (with_reducible apply Upd.comp (State_raise_mut ..) <;> first | decide | skip)
    | (with_reducible apply Upd.foldl <;> first | (intro y a ha hy; skip) | skip)
    | split

theorem State_readmitTake_mut (x : Nat) (s : State) : FstUpd [.cyc, .fus, .rcd] (some [0xC1, 0xCC]) s (State.readmitTake x s) := by
  unfold State.readmitTake
  repeat' first
    | with_reducible apply Upd.refl
    | (with_reducible show FstUpd _ _ _ _; with_reducible rw [State.fst_pair]; with_reducible apply FstUpd.mk)
    | (with_reducible apply Upd.comp (State_setSrc_mut ..) <;> first | decide | skip)
    | (with_reducible apply Upd.comp (State_voteChanges_mut ..) <;> first | decide | skip)
    | split

theorem State_fusRelease_mut (s : State) : Upd [.cyc, .fus, .rcd] (some [0xC1, 0xCC]) s (State.fusRelease s) := by
  unfold State.fusRelease
  repeat' first
    | (extract_lets +onlyGivenNames x; refine Upd.cut (P := [.cyc, .fus, .rcd]) (W := (some [0xC1, 0xCC])) (s := s) (x := x) ?_ (fun hx => ?_); rotate_left; clear_value x; rotate_left; subst x)
    | (extract_lets +onlyGivenNames x; subst x)
    | with_reducible assumption
    | with_reducible apply Upd.refl
    | (with_reducible apply Upd.comp (State_fusUnused_mut ..) <;> first | decide | skip)
    | (with_reducible apply Upd.foldl <;> first | (intro y a ha hy; skip) | skip)
    | (with_reducible show Upd _ _ _ _; with_reducible rw [State.mk_box]; with_reducible apply Upd.box <;> first | (left; with_reducible rfl) | (right; decide) | skip)
    | split

theorem State_fusFuture_mut (x : Nat) (s : State) : Upd [.cyc, .rcd] (some [0xC1, 0xCC]) s (State.fusFuture x s) := by
  unfold State.fusFuture
  repeat' first
    | with_reducible apply Upd.refl
    | (with_reducible apply State_bump_step (w := 0xCC); rotate_left; decide; simp only [windowOf, FUS_S_CNT2, FUS_S_CNT2.FUTURE, FUS_S_STAT, FUS_S_STAT.FUT_F] <;> omega)
    | (with_reducible apply State_flagEvent_step (w := 0xCC); rotate_left; decide; decide; simp only [windowOf, FUS_S_CNT2, FUS_S_CNT2.FUTURE, FUS_S_STAT, FUS_S_STAT.FUT_F] <;> omega)

theorem State_bodyPts_mut (s : State) (b : FusBody) : SndUpd [.free] (some []) s (State.bodyPts s b) := by
  unfold State.bodyPts
  repeat' first
    | with_reducible apply Upd.refl
    | (with_reducible show SndUpd _ _ _ _; with_reducible rw [State.snd_pair]; with_reducible apply SndUpd.mk)
    | (with_reducible apply Upd.comp (State_drawn_mut ..) <;> first | decide | skip)
    | split

theorem State_modSrc_mut (x : Nat) (f : FusSrc → FusSrc) (s : State) : Upd [.fus] (some []) s (State.modSrc x f s) := by
  unfold State.modSrc
  repeat' first
    | with_reducible apply Upd.refl
    | (with_reducible apply Upd.comp (State_setSrc_mut ..) <;> first | decide | skip)
    | split

theorem State_writeReadmit_mut (x : Nat) (value : Sys2Proof.Word) (s : State) : Upd [.fus] (some []) s (State.writeReadmit x value s) := by
  unfold State.writeReadmit
  repeat' first
    | with_reducible apply Upd.refl
    | (with_reducible apply Upd.comp (State_modSrc_mut ..) <;> first | decide | skip)
    | split

theorem State_srcEnd_mut (x : Nat) (s : State) : Upd [.latch, .fus] (some [0xCC]) s (State.srcEnd x s) := by
  unfold State.srcEnd
  repeat' first
    | (extract_lets +onlyGivenNames x; refine Upd.cut (P := [.latch, .fus]) (W := (some [0xCC])) (s := s) (x := x) ?_ (fun hx => ?_); rotate_left; clear_value x; rotate_left; subst x)
    | (extract_lets +onlyGivenNames x; subst x)
    | with_reducible assumption
    | with_reducible apply Upd.refl
    | (with_reducible apply State_wipeRegs_step (w := 0xCC); rotate_left; decide; decide; intro b h1 h2; simp only [windowOf, FUS_S_STAT] at *; omega)
    | (with_reducible apply Upd.comp (State_fusShow_mut ..) <;> first | decide | skip)
    | (with_reducible show Upd _ _ _ _; with_reducible rw [State.mk_box]; with_reducible apply Upd.box <;> first | (left; with_reducible rfl) | (right; decide) | skip)

theorem State_fusDisable_mut (s : State) : Upd [.latch, .fus] (some [0xCC]) s (State.fusDisable s) := by
  unfold State.fusDisable
  repeat' first
    | (extract_lets +onlyGivenNames x; refine Upd.cut (P := [.latch, .fus]) (W := (some [0xCC])) (s := s) (x := x) ?_ (fun hx => ?_); rotate_left; clear_value x; rotate_left; subst x)
    | with_reducible assumption
    | with_reducible apply Upd.refl
    | (with_reducible apply State_setB_step (w := 0xCC); rotate_left; decide; simp only [windowOf, FUS_CTRL, FUS_CTRL.ENABLE, FUS_STATUS, FUS_STATUS.RUN] <;> omega)
    | (with_reducible apply Upd.comp (State_fusShow_mut ..) <;> first | decide | skip)
    | (with_reducible apply Upd.comp (State_srcEnd_mut ..) <;> first | decide | skip)
    | (with_reducible apply Upd.foldl <;> first | (intro y a ha hy; skip) | skip)
    | (with_reducible show Upd _ _ _ _; with_reducible rw [State.mk_box]; with_reducible apply Upd.box <;> first | (left; with_reducible rfl) | (right; decide) | skip)

theorem State_fusStart_mut (s : State) : Upd [.fus] (some [0xCC]) s (State.fusStart s) := by
  unfold State.fusStart
  repeat' first
    | (extract_lets +onlyGivenNames x; refine Upd.cut (P := [.fus]) (W := (some [0xCC])) (s := s) (x := x) ?_ (fun hx => ?_); rotate_left; clear_value x; rotate_left; subst x)
    | with_reducible assumption
    | with_reducible apply Upd.refl
    | (with_reducible apply State_setB_step (w := 0xCC); rotate_left; decide; simp only [windowOf, FUS_REC_CI, FUS_REC_CI.CI, FUS_REC_PI, FUS_REC_PI.PI, FUS_STATUS, FUS_STATUS.RUN] <;> omega)
    | (with_reducible apply State_set_step (w := 0xCC); rotate_left; decide; simp only [windowOf, FUS_REC_CI, FUS_REC_CI.CI, FUS_REC_PI, FUS_REC_PI.PI, FUS_STATUS, FUS_STATUS.RUN] <;> omega)
    | (with_reducible apply Upd.comp (State_fusShow_mut ..) <;> first | decide | skip)
    | (with_reducible show Upd _ _ _ _; with_reducible rw [State.mk_box]; with_reducible apply Upd.box <;> first | (left; with_reducible rfl) | (right; decide) | skip)

theorem State_fusMotion_mut (x : Nat) (tov : Nat) (v : Option Int) (w : Option Int) (s : State) : Upd [.cyc, .fus, .rcd] (some [0xC0, 0xC1, 0xCC]) s (State.fusMotion x tov v w s) := by
  unfold State.fusMotion
  repeat' first
    | (extract_lets +onlyGivenNames x; refine Upd.cut (P := [.cyc, .fus, .rcd]) (W := (some [0xC0, 0xC1, 0xCC])) (s := s) (x := x) ?_ (fun hx => ?_); rotate_left; clear_value x; rotate_left; subst x)
    | (extract_lets +onlyGivenNames x; subst x)
    | with_reducible assumption
    | with_reducible apply Upd.refl
    | (with_reducible apply Upd.comp (State_fusUnused_mut ..) <;> first | decide | skip)
    | (with_reducible apply Upd.comp (State_fusTaken_mut ..) <;> first | decide | skip)
    | (with_reducible show Upd _ _ _ _; with_reducible rw [State.mk_box]; with_reducible apply Upd.box <;> first | (left; with_reducible rfl) | (right; decide) | skip)
    | split

theorem opFusSubmit_mut (c : Cmd) (s : State) (hc : c.blk = 0x0C) : Upd [.dram, .cyc, .rings, .fus, .rcd] (some [0xC0, 0xC1, 0xCC]) s (opFusSubmit c s) := by
  unfold opFusSubmit
  repeat' first
    | (extract_lets +onlyGivenNames x; subst x)
    | with_reducible assumption
    | with_reducible apply Upd.refl
    | (with_reducible apply Upd.comp (State_fusBody_mut ..) <;> first | decide | skip)
    | (with_reducible apply Upd.comp (State_fusFuture_mut ..) <;> first | decide | skip)
    | (with_reducible apply Upd.comp (State_fusMotion_mut ..) <;> first | decide | skip)
    | (with_reducible apply Upd.comp (Cmd_finish_mut (b := 0x0C) ..) <;> first | decide | skip)
    | split

theorem execFusSubmit_mut (ring : Fin 1) (e : Sys2Proof.Entry) (s : State) : OutUpd [.dram, .cyc, .rings, .fus, .rcd] (some [0xC0, 0xC1, 0xCC]) s (execFusSubmit ring e s) := by
  unfold execFusSubmit
  repeat' first
    | with_reducible assumption
    | with_reducible apply Upd.refl
    | with_reducible apply OutUpd.next
    | (with_reducible apply Upd.comp (State_runRow_mut (P := [.dram, .cyc, .rings, .fus, .rcd]) (W := [0xC0, 0xC1, 0xCC]) ..) <;> first | decide | skip)
    | (with_reducible apply Upd.comp (opFusSubmit_mut ..) <;> first | decide | skip)
    | (intro c u hc)

theorem State_putSigned_mut {w : Nat} (a : Nat) (v : Int) (s : State) (h : windowOf a = w) : Upd [.free] (some [w]) s (State.putSigned a v s) := by
  unfold State.putSigned
  exact Upd.ite ((State_setReg_mut _ _ s h).mono rfl (by simp [winSub]))
    (((State_setReg_mut _ _ s h).mono rfl (by simp [winSub])).trans ((State_drawn_mut _).mono rfl (by simp [winSub])))
theorem State_putSigned_step {P : List Comp} {W : Option (List Nat)} {s x : State} {w : Nat} {a : Nat} {v : Int} (h0 : Upd P W s x)
    (hp : ([.free] : List Comp).all (P.contains ·) = true) (hw : winSub (some [w]) W = true) (h : windowOf a = w) : Upd P W s (State.putSigned a v x) :=
  (State_putSigned_mut a v x h).comp hp hw h0

theorem State_calChanged_mut (x : Nat) (host : Bool) (s : State) : Upd [] (some [0xCC]) s (State.calChanged x host s) := by
  unfold State.calChanged
  repeat' first
    | with_reducible apply Upd.refl
    | (with_reducible apply State_setB_step (w := 0xCC); rotate_left; decide; simp only [windowOf, FUS_S_CALV, FUS_S_CALV.BY_HOST, FUS_S_CALV.CALV] <;> omega)
    | (with_reducible apply State_wrapInc_step (w := 0xCC); rotate_left; decide; simp only [windowOf, FUS_S_CALV, FUS_S_CALV.BY_HOST, FUS_S_CALV.CALV] <;> omega)

theorem State_putCal_mut (x : Nat) (c : Cal) (s : State) : Upd [] (some [0xCC]) s (State.putCal x c s) := by
  unfold State.putCal
  repeat' first
    | with_reducible assumption
    | with_reducible apply Upd.refl
    | (with_reducible apply State_setReg_step (w := 0xCC); rotate_left; decide; simp only [windowOf, FUS_S_CAL] <;> omega)
    | (with_reducible apply Upd.foldl <;> first | (intro y a ha hy; skip) | skip)

theorem State_showUsed_mut (x : Nat) (s : State) : Upd [] (some [0xCC]) s (State.showUsed x s) := by
  unfold State.showUsed
  repeat' first
    | with_reducible apply Upd.refl
    | (with_reducible apply State_setB_step (w := 0xCC); rotate_left; decide; simp only [windowOf, FUS_S_CALV, FUS_S_CALV.STEP_PEND, FUS_S_RF_USED, FUS_S_RF_USED.ANG_USED, FUS_S_RF_USED.T_USED] <;> omega)
    | (with_reducible apply State_set_step (w := 0xCC); rotate_left; decide; simp only [windowOf, FUS_S_CALV, FUS_S_CALV.STEP_PEND, FUS_S_RF_USED, FUS_S_RF_USED.ANG_USED, FUS_S_RF_USED.T_USED] <;> omega)
    | split

theorem State_calTake_mut (x : Nat) (s : State) : FstUpd [.fus] (some [0xCC]) s (State.calTake x s) := by
  unfold State.calTake
  repeat' first
    | (extract_lets +onlyGivenNames x; refine Upd.cut (P := [.fus]) (W := (some [0xCC])) (s := s) (x := x) ?_ (fun hx => ?_); rotate_left; clear_value x; rotate_left; subst x)
    | with_reducible assumption
    | with_reducible apply Upd.refl
    | (with_reducible show FstUpd _ _ _ _; with_reducible rw [State.fst_pair]; with_reducible apply FstUpd.mk)
    | (with_reducible apply State_setB_step (w := 0xCC); rotate_left; decide; simp only [windowOf, FUS_S_CAL, FUS_S_CALV, FUS_S_CALV.BUD_OUT, FUS_S_CAL_CTRL, FUS_S_CAL_CTRL.PEND] <;> omega)
    | (with_reducible apply State_setReg_step (w := 0xCC); rotate_left; decide; simp only [windowOf, FUS_S_CAL, FUS_S_CALV, FUS_S_CALV.BUD_OUT, FUS_S_CAL_CTRL, FUS_S_CAL_CTRL.PEND] <;> omega)
    | (with_reducible apply Upd.comp (State_setSrc_mut ..) <;> first | decide | skip)
    | (with_reducible apply Upd.comp (State_calChanged_mut ..) <;> first | decide | skip)
    | (with_reducible apply Upd.comp (State_showUsed_mut ..) <;> first | decide | skip)
    | (with_reducible apply Upd.comp (State_putCal_mut ..) <;> first | decide | skip)
    | (with_reducible apply Upd.foldl <;> first | (intro y a ha hy; skip) | skip)
    | split

theorem State_refine_mut (g : Grid) (gs : List Gathered) (x : Nat) (s : State) : FstUpd [.free, .cyc, .fus, .rcd] (some [0xC1, 0xCC]) s (State.refine g gs x s) := by
  unfold State.refine
  repeat' first
    | (extract_lets +onlyGivenNames x; refine Upd.cut (P := [.free, .cyc, .fus, .rcd]) (W := (some [0xC1, 0xCC])) (s := s) (x := x) ?_ (fun hx => ?_); rotate_left; clear_value x; rotate_left; subst x)
    | (extract_lets +onlyGivenNames x; subst x)
    | with_reducible assumption
    | with_reducible apply Upd.refl
    | (with_reducible show FstUpd _ _ _ _; with_reducible rw [State.fst_pair]; with_reducible apply FstUpd.mk)
    | (with_reducible apply State_putSigned_step (w := 0xCC); rotate_left; decide; decide; simp only [windowOf, FUS_S_CALV, FUS_S_CALV.BUD_OUT, FUS_S_CALV.CLAMP_F, FUS_S_CALV.STALL_F, FUS_S_EST_PITCH, FUS_S_EST_ROLL, FUS_S_EST_TX, FUS_S_EST_TY, FUS_S_EST_TZ, FUS_S_EST_YAW] <;> omega)
    | (with_reducible apply Upd.comp (State_setSrc_mut ..) <;> first | decide | skip)
    | (with_reducible apply State_flagEvent_step (w := 0xCC); rotate_left; decide; decide; simp only [windowOf, FUS_S_CALV, FUS_S_CALV.BUD_OUT, FUS_S_CALV.CLAMP_F, FUS_S_CALV.STALL_F, FUS_S_EST_PITCH, FUS_S_EST_ROLL, FUS_S_EST_TX, FUS_S_EST_TY, FUS_S_EST_TZ, FUS_S_EST_YAW] <;> omega)
    | (with_reducible apply Upd.comp (State_showUsed_mut ..) <;> first | decide | skip)
    | split

theorem State_votesTake_mut (tvs : List (Nat × TileVote)) (s : State) : FstUpd [.cyc, .fus, .rcd] (some [0xC1, 0xCC]) s (State.votesTake tvs s) := by
  unfold State.votesTake
  repeat' first
    | (extract_lets +onlyGivenNames x; refine Upd.cut (P := [.cyc, .fus, .rcd]) (W := (some [0xC1, 0xCC])) (s := s) (x := x) ?_ (fun hx => ?_); rotate_left; clear_value x; rotate_left; subst x)
    | (extract_lets +onlyGivenNames x; subst x)
    | with_reducible assumption
    | with_reducible apply Upd.refl
    | (with_reducible show FstUpd _ _ _ _; with_reducible rw [State.fst_pair]; with_reducible apply FstUpd.mk)
    | (with_reducible apply Upd.comp (State_setSrc_mut ..) <;> first | decide | skip)
    | (with_reducible apply Upd.comp (State_voteChanges_mut ..) <;> first | decide | skip)
    | (with_reducible apply FstUpd.foldl <;> first | (intro y a ha hy; skip) | skip)
    | (with_reducible show Upd _ _ _ _; with_reducible rw [State.fst_box]; with_reducible apply FstUpd.out)
    | split

theorem gatherSrc_mut (g : Grid) (pose : Nat → Pose) (x : Nat) (v : FusSrc) (bodies : List FusBody) (s : State) : SndUpd [.free] (some []) s (gatherSrc g pose x v bodies s) := by
  unfold gatherSrc
  repeat' first
    | (extract_lets +onlyGivenNames x; subst x)
    | with_reducible assumption
    | with_reducible apply Upd.refl
    | (with_reducible show SndUpd _ _ _ _; with_reducible rw [State.snd_pair]; with_reducible apply SndUpd.mk)
    | (with_reducible apply SndUpd.comp (State_bodyPts_mut ..) <;> first | decide | skip)
    | (with_reducible apply SndUpd.foldl <;> first | (intro y a ha hy; skip) | skip)
    | (with_reducible show Upd _ _ _ _; with_reducible rw [State.snd_box]; with_reducible apply SndUpd.out)
    | (with_reducible refine SndUpd.of_eq ?_ (by assumption))
    | split

theorem State_closeInstant_mut (l : Nat) (t : Int) (s : State) : Upd [.free, .cyc, .fus, .rcd] (some [0xC1, 0xCC]) s (State.closeInstant l t s) := by
  unfold State.closeInstant
  repeat' first
    | (extract_lets +onlyGivenNames x; subst x)
    | with_reducible assumption
    | with_reducible apply Upd.refl
    | (with_reducible show SndUpd _ _ _ _; with_reducible rw [State.snd_pair]; with_reducible apply SndUpd.mk)
    | (with_reducible show FstUpd _ _ _ _; with_reducible rw [State.fst_pair]; with_reducible apply FstUpd.mk)
    | (with_reducible apply FstUpd.comp (State_calTake_mut ..) <;> first | decide | skip)
    | (with_reducible apply FstUpd.comp (State_refine_mut ..) <;> first | decide | skip)
    | (with_reducible apply FstUpd.comp (State_readmitTake_mut ..) <;> first | decide | skip)
    | (with_reducible apply State_set_step (w := 0xCC); rotate_left; decide; simp only [windowOf, FUS_S_VOTE, FUS_S_VOTE.DISSENT_TILES, FUS_S_VOTE.OUT_TILES] <;> omega)
    | (with_reducible apply FstUpd.comp (State_votesTake_mut ..) <;> first | decide | skip)
    | (with_reducible apply SndUpd.comp (gatherSrc_mut ..) <;> first | decide | skip)
    | (with_reducible apply Upd.comp (State_fusRelease_mut ..) <;> first | decide | skip)
    | (with_reducible apply Upd.foldl <;> first | (intro y a ha hy; skip) | skip)
    | (with_reducible apply FstUpd.foldl <;> first | (intro y a ha hy; skip) | skip)
    | (with_reducible apply SndUpd.foldl <;> first | (intro y a ha hy; skip) | skip)
    | (with_reducible show Upd _ _ _ _; with_reducible rw [State.fst_box]; with_reducible apply FstUpd.out)
    | (with_reducible show Upd _ _ _ _; with_reducible rw [State.snd_box]; with_reducible apply SndUpd.out)
    | (with_reducible refine SndUpd.of_eq ?_ (by assumption))
    | (with_reducible refine FstUpd.of_eq ?_ (by assumption))
    | (with_reducible show Upd _ _ _ _; with_reducible rw [State.mk_box]; with_reducible apply Upd.box <;> first | (left; with_reducible rfl) | (right; decide) | skip)
    | split

theorem opSrcCreate_go_mut (c : Cmd) (s : State) (kind : Nat) (feed : Nat) (order : Nat) (opt : Nat) (lb : Nat) (link : Nat) (maxp : Nat) (free : Option Nat) (range : Bool) (feedBad : Bool) (hc : c.blk = 0x0C) : Upd [.latch, .dram, .cyc, .rings, .gens, .fus, .rcd] (some [0xC1, 0xCC]) s (opSrcCreate.go c s kind feed order opt lb link maxp free range feedBad) := by
  unfold opSrcCreate.go
  repeat' first
    | (extract_lets +onlyGivenNames x; refine Upd.cut (P := [.latch, .dram, .cyc, .rings, .gens, .fus, .rcd]) (W := (some [0xC1, 0xCC])) (s := s) (x := x) ?_ (fun hx => ?_); rotate_left; clear_value x; rotate_left; subst x)
    | (extract_lets +onlyGivenNames x; subst x)
    | with_reducible assumption
    | with_reducible apply Upd.refl
    | (with_reducible apply State_setB_step (w := 0xCC); rotate_left; decide; simp only [windowOf, FUS_S_STAT, FUS_S_STAT.FEED, FUS_S_STAT.ICLASS, FUS_S_STAT.KIND, FUS_S_STAT.LIVE, FUS_S_STAT.ORDER] <;> omega)
    | (with_reducible apply State_wipeRegs_step (w := 0xCC); rotate_left; decide; decide; intro b h1 h2; simp only [windowOf, FUS_S_STAT, FUS_S_STAT.FEED, FUS_S_STAT.ICLASS, FUS_S_STAT.KIND, FUS_S_STAT.LIVE, FUS_S_STAT.ORDER] at *; omega)
    | (with_reducible apply Upd.comp (Cmd_created_mut (b := 0x0C) ..) <;> first | decide | skip)
    | (with_reducible apply Upd.comp (State_setSrc_mut ..) <;> first | decide | skip)
    | (with_reducible apply Upd.comp (State_advGen_mut ..) <;> first | decide | skip)
    | (with_reducible apply State_set_step (w := 0xCC); rotate_left; decide; simp only [windowOf, FUS_S_STAT, FUS_S_STAT.FEED, FUS_S_STAT.ICLASS, FUS_S_STAT.KIND, FUS_S_STAT.LIVE, FUS_S_STAT.ORDER] <;> omega)
    | (with_reducible apply Upd.comp (Cmd_failed_mut (b := 0x0C) ..) <;> first | decide | skip)
    | (with_reducible apply Upd.comp (State_fusShow_mut ..) <;> first | decide | skip)
    | split

theorem opSrcCreate_mut (c : Cmd) (s : State) (hc : c.blk = 0x0C) : Upd [.latch, .dram, .cyc, .rings, .gens, .fus, .rcd] (some [0xC1, 0xCC]) s (opSrcCreate c s) := by
  unfold opSrcCreate
  repeat' first
    | (extract_lets +onlyGivenNames x; subst x)
    | with_reducible assumption
    | with_reducible apply Upd.refl
    | (with_reducible apply Upd.comp (opSrcCreate_go_mut ..) <;> first | decide | skip)
    | (with_reducible apply Upd.comp (Cmd_failed_mut (b := 0x0C) ..) <;> first | decide | skip)
    | split

theorem execSrcCreate_mut (ring : Fin 1) (e : Sys2Proof.Entry) (s : State) : OutUpd [.latch, .dram, .cyc, .rings, .gens, .fus, .rcd] (some [0xC1, 0xCC]) s (execSrcCreate ring e s) := by
  unfold execSrcCreate
  repeat' first
    | with_reducible assumption
    | with_reducible apply Upd.refl
    | with_reducible apply OutUpd.next
    | (with_reducible apply Upd.comp (State_runRow_mut (P := [.latch, .dram, .cyc, .rings, .gens, .fus, .rcd]) (W := [0xC1, 0xCC]) ..) <;> first | decide | skip)
    | (with_reducible apply Upd.comp (opSrcCreate_mut ..) <;> first | decide | skip)
    | (intro c u hc)

theorem State_fusStep_mut (before : Int) (s : State) : Upd [.fus] (some []) s (State.fusStep before s) := by
  unfold State.fusStep
  repeat' first
    | (extract_lets +onlyGivenNames x; refine Upd.cut (P := [.fus]) (W := (some [])) (s := s) (x := x) ?_ (fun hx => ?_); rotate_left; clear_value x; rotate_left; subst x)
    | (extract_lets +onlyGivenNames x; subst x)
    | with_reducible assumption
    | with_reducible apply Upd.refl
    | (with_reducible show Upd _ _ _ _; with_reducible rw [State.mk_box]; with_reducible apply Upd.box <;> first | (left; with_reducible rfl) | (right; decide) | skip)
    | split

theorem opSrcDestroy_mut (c : Cmd) (s : State) (hc : c.blk = 0x0C) : Upd [.latch, .dram, .cyc, .rings, .fus, .rcd] (some [0xC1, 0xCC]) s (opSrcDestroy c s) := by
  unfold opSrcDestroy
  repeat' first
    | with_reducible assumption
    | with_reducible apply Upd.refl
    | (with_reducible apply Upd.comp (Cmd_finish_mut (b := 0x0C) ..) <;> first | decide | skip)
    | (with_reducible apply Upd.comp (State_srcEnd_mut ..) <;> first | decide | skip)
    | split

theorem State_writeFusCi_mut (value : Sys2Proof.Word) (s : State) : Upd [] (some [0xCC]) s (State.writeFusCi value s) := by
  unfold State.writeFusCi
  repeat' first
    | (extract_lets +onlyGivenNames x; subst x)
    | with_reducible apply Upd.refl
    | (with_reducible apply State_set_step (w := 0xCC); rotate_left; decide; simp only [windowOf, FUS_REC_CI, FUS_REC_CI.CI] <;> omega)
    | split

theorem State_fusBoundary_mut (s : State) : Upd [.cyc, .fus, .rcd] (some [0xC1, 0xCC]) s (State.fusBoundary s) := by
  unfold State.fusBoundary
  repeat' first
    | (extract_lets +onlyGivenNames x; subst x)
    | with_reducible apply Upd.refl
    | (with_reducible apply Upd.comp (State_fusRelease_mut ..) <;> first | decide | skip)
    | (with_reducible show Upd _ _ _ _; with_reducible rw [State.mk_box]; with_reducible apply Upd.box <;> first | (left; with_reducible rfl) | (right; decide) | skip)
    | split

theorem State_writeCalCtrl_mut (x : Nat) (value : Sys2Proof.Word) (s : State) : Upd [] (some [0xCC]) s (State.writeCalCtrl x value s) := by
  unfold State.writeCalCtrl
  repeat' first
    | with_reducible apply Upd.refl
    | (with_reducible apply State_setB_step (w := 0xCC); rotate_left; decide; simp only [windowOf, FUS_S_CAL_CTRL, FUS_S_CAL_CTRL.PEND] <;> omega)
    | split

theorem State_writeRfCfg_mut (x : Nat) (value : Sys2Proof.Word) (s : State) : Upd [] (some [0xCC]) s (State.writeRfCfg x value s) := by
  unfold State.writeRfCfg
  repeat' first
    | (extract_lets +onlyGivenNames x; refine Upd.cut (P := []) (W := (some [0xCC])) (s := s) (x := x) ?_ (fun hx => ?_); rotate_left; clear_value x; rotate_left; subst x)
    | (extract_lets +onlyGivenNames x; subst x)
    | with_reducible assumption
    | with_reducible apply Upd.refl
    | (with_reducible apply State_setB_step (w := 0xCC); rotate_left; decide; simp only [windowOf, FUS_S_RF_CFG, FUS_S_RF_CFG.FREEZE, FUS_S_RF_CFG.GAIN, FUS_S_RF_CFG.MINC, FUS_S_RF_CFG.REF, FUS_S_RF_CFG.RF_EN] <;> omega)
    | (with_reducible apply State_set_step (w := 0xCC); rotate_left; decide; simp only [windowOf, FUS_S_RF_CFG, FUS_S_RF_CFG.FREEZE, FUS_S_RF_CFG.GAIN, FUS_S_RF_CFG.MINC, FUS_S_RF_CFG.REF, FUS_S_RF_CFG.RF_EN] <;> omega)
    | split

theorem State_fusWrite_mut (a : Nat) (value : Sys2Proof.Word) (s : State) : OptUpd [.fus] (some [0xCC]) s (State.fusWrite a value s) := by
  unfold State.fusWrite
  repeat' first
    | (extract_lets +onlyGivenNames x; refine Upd.cut (P := [.fus]) (W := (some [0xCC])) (s := s) (x := x) ?_ (fun hx => ?_); rotate_left; clear_value x; rotate_left; subst x)
    | (extract_lets +onlyGivenNames x; subst x)
    | with_reducible assumption
    | with_reducible apply Upd.refl
    | with_reducible apply OptUpd.ofNone
    | with_reducible apply OptUpd.ofSome
    | (with_reducible apply Upd.comp (State_writeRfCfg_mut ..) <;> first | decide | skip)
    | (with_reducible apply Upd.comp (State_writeCalCtrl_mut ..) <;> first | decide | skip)
    | (with_reducible apply Upd.comp (State_writeFusCi_mut ..) <;> first | decide | skip)
    | (with_reducible apply State_set_step (w := 0xCC); rotate_left; decide; simp only [windowOf, FUS_CAL_BUD, FUS_CAL_BUD.BUD_ANG, FUS_CAL_BUD.BUD_T, FUS_MOT_CFG, FUS_MOT_CFG.MOT_AGE, FUS_MOT_CFG.V_SRC, FUS_MOT_CFG.W_SRC, FUS_VOTE_CFG, FUS_VOTE_CFG.M, FUS_VOTE_CFG.N, FUS_VOTE_CFG.THR, FUS_VOTE_MINC, FUS_VOTE_MINC.MINC_T] <;> omega)
    | (with_reducible apply Upd.comp (State_writeReadmit_mut ..) <;> first | decide | skip)
    | split

theorem execInstantClose_mut (s : State) : OutUpd [.free, .cyc, .fus, .rcd] (some [0xC1, 0xCC]) s (execInstantClose s) := by
  unfold execInstantClose
  repeat' first
    | with_reducible apply Upd.refl
    | with_reducible apply OutUpd.next
    | (with_reducible apply Upd.comp (State_closeInstant_mut ..) <;> first | decide | skip)
    | split

theorem execContributionArrive_mut (s : State) : OutUpd [.cyc, .fus, .rcd] (some [0xC0, 0xC1, 0xCC]) s (execContributionArrive s) := by
  unfold execContributionArrive
  repeat' first
    | (extract_lets +onlyGivenNames x; refine Upd.cut (P := [.cyc, .fus, .rcd]) (W := (some [0xC0, 0xC1, 0xCC])) (s := s) (x := x) ?_ (fun hx => ?_); rotate_left; clear_value x; rotate_left; subst x)
    | (extract_lets +onlyGivenNames x; subst x)
    | with_reducible assumption
    | with_reducible apply Upd.refl
    | with_reducible apply OutUpd.next
    | (with_reducible apply Upd.comp (State_fusUnused_mut ..) <;> first | decide | skip)
    | (with_reducible apply Upd.comp (State_fusBody_mut ..) <;> first | decide | skip)
    | (with_reducible apply Upd.comp (State_fusFuture_mut ..) <;> first | decide | skip)
    | (with_reducible show Upd _ _ _ _; with_reducible rw [State.mk_box]; with_reducible apply Upd.box <;> first | (left; with_reducible rfl) | (right; decide) | skip)
    | split

theorem execPublicationStart_mut (s : State) : OutUpd [.fus] (some [0xCC]) s (execPublicationStart s) := by
  unfold execPublicationStart
  repeat' first
    | (extract_lets +onlyGivenNames x; subst x)
    | with_reducible apply Upd.refl
    | with_reducible apply OutUpd.next
    | (with_reducible apply Upd.comp (State_fusShow_mut ..) <;> first | decide | skip)
    | (with_reducible show Upd _ _ _ _; with_reducible rw [State.mk_box]; with_reducible apply Upd.box <;> first | (left; with_reducible rfl) | (right; decide) | skip)
    | split

theorem execInstantBoundary_mut (s : State) : OutUpd [.cyc, .fus, .rcd] (some [0xC1, 0xCC]) s (execInstantBoundary s) := by
  unfold execInstantBoundary
  repeat' first
    | with_reducible apply Upd.refl
    | with_reducible apply OutUpd.next
    | (with_reducible apply Upd.comp (State_fusBoundary_mut ..) <;> first | decide | skip)

theorem execFusDisable_mut (s : State) : OutUpd [.latch, .fus] (some [0xCC]) s (execFusDisable s) := by
  unfold execFusDisable
  repeat' first
    | with_reducible apply Upd.refl
    | with_reducible apply OutUpd.next
    | (with_reducible apply Upd.comp (State_fusDisable_mut ..) <;> first | decide | skip)
    | split

theorem execImuSample_mut (gx : BitVec 16) (gy : BitVec 16) (gz : BitVec 16) (ax : BitVec 16) (ay : BitVec 16) (az : BitVec 16) (s : State) : OutUpd [.free, .cyc, .fus, .rcd] (some [0xC0, 0xC1, 0xCC]) s (execImuSample gx gy gz ax ay az s) := by
  unfold execImuSample
  repeat' first
    | (extract_lets +onlyGivenNames x; refine Upd.cut (P := [.free, .cyc, .fus, .rcd]) (W := (some [0xC0, 0xC1, 0xCC])) (s := s) (x := x) ?_ (fun hx => ?_); rotate_left; clear_value x; rotate_left; subst x)
    | (extract_lets +onlyGivenNames x; subst x)
    | with_reducible assumption
    | with_reducible apply Upd.refl
    | with_reducible apply OutUpd.next
    | (with_reducible apply State_set_step (w := 0xCC); rotate_left; decide; simp only [windowOf, FUS_IMU0, FUS_IMU0.GX, FUS_IMU0.GY, FUS_IMU1, FUS_IMU1.AX, FUS_IMU1.GZ, FUS_IMU2, FUS_IMU2.AY, FUS_IMU2.AZ, FUS_IMU_LTC_HI, FUS_IMU_LTC_LO] <;> omega)
    | (with_reducible apply State_set64_step (w := 0xCC); rotate_left; decide; simp only [windowOf, FUS_IMU0, FUS_IMU0.GX, FUS_IMU0.GY, FUS_IMU1, FUS_IMU1.AX, FUS_IMU1.GZ, FUS_IMU2, FUS_IMU2.AY, FUS_IMU2.AZ, FUS_IMU_LTC_HI, FUS_IMU_LTC_LO] <;> omega; simp only [windowOf, FUS_IMU0, FUS_IMU0.GX, FUS_IMU0.GY, FUS_IMU1, FUS_IMU1.AX, FUS_IMU1.GZ, FUS_IMU2, FUS_IMU2.AY, FUS_IMU2.AZ, FUS_IMU_LTC_HI, FUS_IMU_LTC_LO] <;> omega)
    | (with_reducible apply Upd.comp (State_fusMotion_mut ..) <;> first | decide | skip)
    | (with_reducible apply Upd.comp (State_drawn_mut ..) <;> first | decide | skip)
    | (with_reducible show Upd _ _ _ _; with_reducible rw [State.mk_box]; with_reducible apply Upd.box <;> first | (left; with_reducible rfl) | (right; decide) | skip)
    | split

theorem execSrcDestroy_mut (ring : Fin 1) (e : Sys2Proof.Entry) (s : State) : OutUpd [.latch, .dram, .cyc, .rings, .fus, .rcd] (some [0xC1, 0xCC]) s (execSrcDestroy ring e s) := by
  unfold execSrcDestroy
  repeat' first
    | with_reducible assumption
    | with_reducible apply Upd.refl
    | with_reducible apply OutUpd.next
    | (with_reducible apply Upd.comp (State_runRow_mut (P := [.latch, .dram, .cyc, .rings, .fus, .rcd]) (W := [0xC1, 0xCC]) ..) <;> first | decide | skip)
    | (with_reducible apply Upd.comp (opSrcDestroy_mut ..) <;> first | decide | skip)
    | (intro c u hc)

end Sys2Proof.Machine
end

