-- ==== Sys2Proof/Laws/MutYld.lean ====
section
/-! SUPPORT. What each operation of Machine/Yld.lean may change (`Upd`): its parts of the state and its register windows. -/

namespace Sys2Proof.Machine

set_option Elab.async false
set_option linter.unusedSimpArgs false
set_option linter.unusedTactic false
set_option linter.unreachableTactic false
set_option linter.unnecessarySeqFocus false
set_option maxRecDepth 20000

theorem State_setLayer_mut (x : Nat) (v : YldLayer) (s : State) : Upd [.yld] (some []) s (State.setLayer x v s) := by
  unfold State.setLayer
  repeat' first
    | (extract_lets +onlyGivenNames x; subst x)
    | with_reducible apply Upd.refl
    | (with_reducible show Upd _ _ _ _; with_reducible rw [State.mk_box]; with_reducible apply Upd.box <;> first | (left; with_reducible rfl) | (right; decide) | skip)

theorem State_yldShow_mut (s : State) : Upd [] (some [0xCD]) s (State.yldShow s) := by
  unfold State.yldShow
  repeat' first
    | (extract_lets +onlyGivenNames x; refine Upd.cut (P := []) (W := (some [0xCD])) (s := s) (x := x) ?_ (fun hx => ?_); rotate_left; clear_value x; rotate_left; subst x)
    | with_reducible assumption
    | with_reducible apply Upd.refl
    | (with_reducible apply State_setB_step (w := 0xCD); rotate_left; decide; simp only [windowOf, YLD_L_STAT, YLD_L_STAT.CLOSED, YLD_L_STAT.LIVE, YLD_L_STAT.LOG_FULL, YLD_L_STAT.OPEN, YLD_L_TSEQ, YLD_L_TSEQ.TSEQ, YLD_L_WPOS, YLD_L_WPOS.WPOS, YLD_STATUS, YLD_STATUS.CLOSED, YLD_STATUS.LAYERS, YLD_STATUS.WRITING] <;> omega)
    | (with_reducible apply State_setReg_step (w := 0xCD); rotate_left; decide; simp only [windowOf, YLD_L_STAT, YLD_L_STAT.CLOSED, YLD_L_STAT.LIVE, YLD_L_STAT.LOG_FULL, YLD_L_STAT.OPEN, YLD_L_TSEQ, YLD_L_TSEQ.TSEQ, YLD_L_WPOS, YLD_L_WPOS.WPOS, YLD_STATUS, YLD_STATUS.CLOSED, YLD_STATUS.LAYERS, YLD_STATUS.WRITING] <;> omega)
    | (with_reducible apply State_set_step (w := 0xCD); rotate_left; decide; simp only [windowOf, YLD_L_STAT, YLD_L_STAT.CLOSED, YLD_L_STAT.LIVE, YLD_L_STAT.LOG_FULL, YLD_L_STAT.OPEN, YLD_L_TSEQ, YLD_L_TSEQ.TSEQ, YLD_L_WPOS, YLD_L_WPOS.WPOS, YLD_STATUS, YLD_STATUS.CLOSED, YLD_STATUS.LAYERS, YLD_STATUS.WRITING] <;> omega)
    | (with_reducible apply Upd.foldl <;> first | (intro y a ha hy; skip) | skip)
    | split

theorem opLayerCreate_mut (c : Cmd) (s : State) (hc : c.blk = 0x0D) : Upd [.dram, .cyc, .rings, .gens, .yld, .rcd] (some [0xC1, 0xCD]) s (opLayerCreate c s) := by
  unfold opLayerCreate
  repeat' first
    | (extract_lets +onlyGivenNames x; refine Upd.cut (P := [.dram, .cyc, .rings, .gens, .yld, .rcd]) (W := (some [0xC1, 0xCD])) (s := s) (x := x) ?_ (fun hx => ?_); rotate_left; clear_value x; rotate_left; subst x)
    | (extract_lets +onlyGivenNames x; subst x)
    | with_reducible assumption
    | with_reducible apply Upd.refl
    | (with_reducible apply Upd.comp (Cmd_created_mut (b := 0x0D) ..) <;> first | decide | skip)
    | (with_reducible apply Upd.comp (State_advGen_mut ..) <;> first | decide | skip)
    | (with_reducible apply Upd.comp (State_yldShow_mut ..) <;> first | decide | skip)
    | (with_reducible apply Upd.comp (Cmd_failed_mut (b := 0x0D) ..) <;> first | decide | skip)
    | (with_reducible apply Upd.comp (State_setLayer_mut ..) <;> first | decide | skip)
    | split

theorem State_yldWet_mut (s : State) (f : FlowWin) : SndUpd [.free] (some []) s (State.yldWet s f) := by
  unfold State.yldWet
  repeat' first
    | (extract_lets +onlyGivenNames x; subst x)
    | with_reducible apply Upd.refl
    | (with_reducible show SndUpd _ _ _ _; with_reducible rw [State.snd_pair]; with_reducible apply SndUpd.mk)
    | (with_reducible apply Upd.comp (State_drawn_mut ..) <;> first | decide | skip)
    | split

theorem execLayerCreate_mut (ring : Fin 1) (e : Sys2Proof.Entry) (s : State) : OutUpd [.dram, .cyc, .rings, .gens, .yld, .rcd] (some [0xC1, 0xCD]) s (execLayerCreate ring e s) := by
  unfold execLayerCreate
  repeat' first
    | with_reducible assumption
    | with_reducible apply Upd.refl
    | with_reducible apply OutUpd.next
    | (with_reducible apply Upd.comp (State_runRow_mut (P := [.dram, .cyc, .rings, .gens, .yld, .rcd]) (W := [0xC1, 0xCD]) ..) <;> first | decide | skip)
    | (with_reducible apply Upd.comp (opLayerCreate_mut ..) <;> first | decide | skip)
    | (intro c u hc)

theorem State_yldDisable_mut (s : State) : Upd [.dram, .free, .cyc, .rings, .inp, .arb, .yld, .rcd] (some [0xC1, 0xCB, 0xCD]) s (State.yldDisable s) := by
  unfold State.yldDisable
  repeat' first
    | (extract_lets +onlyGivenNames x; refine Upd.cut (P := [.dram, .free, .cyc, .rings, .inp, .arb, .yld, .rcd]) (W := (some [0xC1, 0xCB, 0xCD])) (s := s) (x := x) ?_ (fun hx => ?_); rotate_left; clear_value x; rotate_left; subst x)
    | (extract_lets +onlyGivenNames x; subst x)
    | with_reducible assumption
    | with_reducible apply Upd.refl
    | (with_reducible apply State_setB_step (w := 0xCD); rotate_left; decide; simp only [windowOf, YLD_CTRL, YLD_CTRL.ENABLE] <;> omega)
    | (with_reducible apply Upd.comp (State_yldShow_mut ..) <;> first | decide | skip)
    | (with_reducible apply Upd.comp (State_arbRelease_mut ..) <;> first | decide | skip)
    | (with_reducible apply Upd.comp (State_completeSelf_mut ..) <;> first | decide | skip)
    | (with_reducible apply Upd.comp (State_drawn_mut ..) <;> first | decide | skip)
    | (with_reducible apply Upd.foldl <;> first | (intro y a ha hy; skip) | skip)
    | (with_reducible show Upd _ _ _ _; with_reducible rw [State.mk_box]; with_reducible apply Upd.box <;> first | (left; with_reducible rfl) | (right; decide) | skip)

theorem execYldDisable_mut (s : State) : OutUpd [.dram, .free, .cyc, .rings, .inp, .arb, .yld, .rcd] (some [0xC1, 0xCB, 0xCD]) s (execYldDisable s) := by
  unfold execYldDisable
  repeat' first
    | with_reducible apply Upd.refl
    | with_reducible apply OutUpd.next
    | (with_reducible apply Upd.comp (State_yldDisable_mut ..) <;> first | decide | skip)
    | split

theorem State_yldGranted_mut (s : State) : Upd [] (some [0xCD]) s (State.yldGranted s) := by
  unfold State.yldGranted
  repeat' first
    | with_reducible apply Upd.refl
    | (with_reducible apply Upd.comp (State_yldShow_mut ..) <;> first | decide | skip)

theorem State_addUnmap_mut (mg : Nat) (s : State) : Upd [.cyc, .yld, .rcd] (some [0xC1, 0xCD]) s (State.addUnmap mg s) := by
  unfold State.addUnmap
  repeat' first
    | (extract_lets +onlyGivenNames x; subst x)
    | with_reducible apply Upd.refl
    | (with_reducible apply State_bump_step (w := 0xCD); rotate_left; decide; simp only [windowOf, YLD_UNMAP, YLD_UNMAP.KG] <;> omega)
    | (with_reducible apply Upd.comp (State_raise_mut ..) <;> first | decide | skip)
    | (with_reducible show Upd _ _ _ _; with_reducible rw [State.mk_box]; with_reducible apply Upd.box <;> first | (left; with_reducible rfl) | (right; decide) | skip)

theorem State_yldArb_mut (s : State) : Upd [.cyc, .arb, .rcd] (some [0xC1, 0xCB, 0xCD]) s (State.yldArb s) := by
  unfold State.yldArb
  repeat' first
    | with_reducible apply Upd.refl
    | (with_reducible apply Upd.comp (State_arbRequest_mut ..) <;> first | decide | skip)
    | (with_reducible apply Upd.comp (State_yldShow_mut ..) <;> first | decide | skip)
    | (with_reducible apply Upd.comp (State_arbRelease_mut ..) <;> first | decide | skip)
    | split

theorem State_yldClose_mut (x : Nat) (flags : Nat) (p : YldTile → Bool) (s : State) : FstUpd [.yld] (some []) s (State.yldClose x flags p s) := by
  unfold State.yldClose
  repeat' first
    | (extract_lets +onlyGivenNames x; refine Upd.cut (P := [.yld]) (W := (some [])) (s := s) (x := x) ?_ (fun hx => ?_); rotate_left; clear_value x; rotate_left; subst x)
    | (extract_lets +onlyGivenNames x; subst x)
    | with_reducible assumption
    | with_reducible apply Upd.refl
    | (with_reducible show FstUpd _ _ _ _; with_reducible rw [State.fst_pair]; with_reducible apply FstUpd.mk)
    | (with_reducible apply Upd.comp (State_setLayer_mut ..) <;> first | decide | skip)
    | (with_reducible show Upd _ _ _ _; with_reducible rw [State.mk_box]; with_reducible apply Upd.box <;> first | (left; with_reducible rfl) | (right; decide) | skip)
    | split

theorem State_yldCloses_mut (e : Nat) (s : State) : Upd [.yld] (some []) s (State.yldCloses e s) := by
  unfold State.yldCloses
  repeat' first
    | (extract_lets +onlyGivenNames x; subst x)
    | with_reducible assumption
    | with_reducible apply Upd.refl
    | (with_reducible apply FstUpd.comp (State_yldClose_mut ..) <;> first | decide | skip)
    | (with_reducible apply Upd.comp (State_setLayer_mut ..) <;> first | decide | skip)
    | (with_reducible apply Upd.foldl <;> first | (intro y a ha hy; skip) | skip)
    | (with_reducible show Upd _ _ _ _; with_reducible rw [State.fst_box]; with_reducible apply FstUpd.out)
    | (with_reducible refine FstUpd.of_eq ?_ (by assumption))
    | split

theorem State_addDrop_mut (mg : Nat) (s : State) : Upd [.yld] (some [0xCD]) s (State.addDrop mg s) := by
  unfold State.addDrop
  repeat' first
    | (extract_lets +onlyGivenNames x; subst x)
    | with_reducible apply Upd.refl
    | (with_reducible apply State_bump_step (w := 0xCD); rotate_left; decide; simp only [windowOf, YLD_CNT, YLD_CNT.DROP] <;> omega)
    | (with_reducible show Upd _ _ _ _; with_reducible rw [State.mk_box]; with_reducible apply Upd.box <;> first | (left; with_reducible rfl) | (right; decide) | skip)

theorem State_yldEnds_mut (x : Nat) (s : State) : Upd [.dram, .free, .cyc, .rings, .yld, .rcd] (some [0xC1, 0xCD]) s (State.yldEnds x s) := by
  unfold State.yldEnds
  repeat' first
    | (extract_lets +onlyGivenNames x; subst x)
    | with_reducible assumption
    | with_reducible apply Upd.refl
    | (with_reducible apply Upd.comp (State_addDrop_mut ..) <;> first | decide | skip)
    | (with_reducible apply Upd.comp (State_setLayer_mut ..) <;> first | decide | skip)
    | (with_reducible apply Upd.comp (State_completeSelf_mut ..) <;> first | decide | skip)
    | (with_reducible apply Upd.comp (State_drawn_mut ..) <;> first | decide | skip)
    | (with_reducible apply Upd.foldl <;> first | (intro y a ha hy; skip) | skip)
    | (with_reducible show Upd _ _ _ _; with_reducible rw [State.mk_box]; with_reducible apply Upd.box <;> first | (left; with_reducible rfl) | (right; decide) | skip)
    | split

theorem State_yldLoss_mut (s : State) (l : Nat) : SndUpd [.free] (some []) s (State.yldLoss s l) := by
  unfold State.yldLoss
  repeat' first
    | (extract_lets +onlyGivenNames x; refine Upd.cut (P := [.free]) (W := (some [])) (s := s) (x := x) ?_ (fun hx => ?_); rotate_left; clear_value x; rotate_left; subst x)
    | (extract_lets +onlyGivenNames x; subst x)
    | with_reducible assumption
    | with_reducible apply Upd.refl
    | (with_reducible show SndUpd _ _ _ _; with_reducible rw [State.snd_pair]; with_reducible apply SndUpd.mk)
    | (with_reducible apply Upd.comp (State_drawn_mut ..) <;> first | decide | skip)
    | (with_reducible apply SndUpd.foldl <;> first | (intro y a ha hy; skip) | skip)
    | (with_reducible show Upd _ _ _ _; with_reducible rw [State.snd_box]; with_reducible apply SndUpd.out)
    | split

theorem State_yldM_mut (s : State) (e : Nat) (due : Nat) : TrdUpd [.free] (some []) s (State.yldM s e due) := by
  unfold State.yldM
  repeat' first
    | (extract_lets +onlyGivenNames x; subst x)
    | with_reducible apply Upd.refl
    | (with_reducible show TrdUpd _ _ _ _; with_reducible rw [State.trd_pair]; with_reducible apply TrdUpd.mk)
    | (with_reducible apply Upd.comp (State_drawn_mut ..) <;> first | decide | skip)
    | split

theorem State_yldOpen_mut (x : Nat) (te : Int) (tn : Int) (endLtc : Nat) (s : State) : OptUpd [.dram, .yld] (some []) s (State.yldOpen x te tn endLtc s) := by
  unfold State.yldOpen
  repeat' first
    | (extract_lets +onlyGivenNames x; refine Upd.cut (P := [.dram, .yld]) (W := (some [])) (s := s) (x := x) ?_ (fun hx => ?_); rotate_left; clear_value x; rotate_left; subst x)
    | (extract_lets +onlyGivenNames x; subst x)
    | with_reducible assumption
    | with_reducible apply Upd.refl
    | with_reducible apply OptUpd.ofNone
    | with_reducible apply OptUpd.ofSome
    | (with_reducible apply FstUpd.comp (State_yldClose_mut ..) <;> first | decide | skip)
    | (with_reducible apply Upd.comp (State_setLayer_mut ..) <;> first | decide | skip)
    | (with_reducible refine FstUpd.of_eq ?_ (by assumption))
    | (with_reducible show Upd _ _ _ _; with_reducible rw [State.mk_box]; with_reducible apply Upd.box <;> first | (left; with_reducible rfl) | (right; decide) | exact .inr ⟨by decide, fun hm => memWf_memZero hm _ _⟩ | skip)
    | split
    | (dsimp only)

theorem State_yldPart_mut (x : Nat) (endLtc : Nat) (p : YldPart) (s : State) : Upd [.dram, .cyc, .yld, .rcd] (some [0xC0, 0xC1, 0xCD]) s (State.yldPart x endLtc p s) := by
  unfold State.yldPart
  repeat' first
    | (extract_lets +onlyGivenNames x; refine Upd.cut (P := [.dram, .cyc, .yld, .rcd]) (W := (some [0xC0, 0xC1, 0xCD])) (s := s) (x := x) ?_ (fun hx => ?_); rotate_left; clear_value x; rotate_left; subst x)
    | (extract_lets +onlyGivenNames x; subst x)
    | with_reducible assumption
    | with_reducible apply Upd.refl
    | (with_reducible apply Upd.comp (State_dramPuts_mut ..) <;> first | decide | skip)
    | (with_reducible apply Upd.comp (State_yldLate_mut ..) <;> first | decide | skip)
    | (with_reducible apply OptUpd.comp (State_yldOpen_mut ..) <;> first | decide | skip)
    | (with_reducible apply Upd.comp (State_raise_mut ..) <;> first | decide | skip)
    | (with_reducible apply Upd.comp (State_addDrop_mut ..) <;> first | decide | skip)
    | (with_reducible apply Upd.comp (State_setLayer_mut ..) <;> first | decide | skip)
    | (with_reducible refine OptUpd.of_eq ?_ (by assumption))
    | split

theorem State_yldWidth_mut (s : State) (p : Nat) (due : Nat) : TrdUpd [.free] (some []) s (State.yldWidth s p due) := by
  unfold State.yldWidth
  repeat' first
    | (extract_lets +onlyGivenNames x; subst x)
    | with_reducible apply Upd.refl
    | (with_reducible show TrdUpd _ _ _ _; with_reducible rw [State.trd_pair]; with_reducible apply TrdUpd.mk)
    | (with_reducible apply Upd.comp (State_drawn_mut ..) <;> first | decide | skip)
    | split

theorem State_yldWindow_mut (f : FlowWin) (e : Nat) (s : State) : Upd [.dram, .free, .cyc, .rings, .arb, .yld, .rcd] (some [0xC0, 0xC1, 0xCB, 0xCD]) s (State.yldWindow f e s) := by
  unfold State.yldWindow
  repeat' first
    | (extract_lets +onlyGivenNames x; refine Upd.cut (P := [.dram, .free, .cyc, .rings, .arb, .yld, .rcd]) (W := (some [0xC0, 0xC1, 0xCB, 0xCD])) (s := s) (x := x) ?_ (fun hx => ?_); rotate_left; clear_value x; rotate_left; subst x)
    | (extract_lets +onlyGivenNames x; subst x)
    | with_reducible assumption
    | with_reducible apply Upd.refl
    | (with_reducible apply SndUpd.comp (State_yldLoss_mut ..) <;> first | decide | skip)
    | (with_reducible apply Upd.comp (State_yldArb_mut ..) <;> first | decide | skip)
    | (with_reducible apply Upd.comp (State_yldPart_mut ..) <;> first | decide | skip)
    | (with_reducible apply Upd.comp (State_yldCloses_mut ..) <;> first | decide | skip)
    | (with_reducible apply SndUpd.comp (State_yldWet_mut ..) <;> first | decide | skip)
    | (with_reducible apply Upd.comp (State_addUnmap_mut ..) <;> first | decide | skip)
    | (with_reducible apply TrdUpd.comp (State_yldWidth_mut ..) <;> first | decide | skip)
    | (with_reducible apply TrdUpd.comp (State_yldM_mut ..) <;> first | decide | skip)
    | (with_reducible apply Upd.comp (State_yldEnds_mut ..) <;> first | decide | skip)
    | (with_reducible apply Upd.foldl <;> first | (intro y a ha hy; skip) | skip)
    | (with_reducible show Upd _ _ _ _; with_reducible rw [State.trd_box]; with_reducible apply TrdUpd.out)
    | (with_reducible show Upd _ _ _ _; with_reducible rw [State.snd_box]; with_reducible apply SndUpd.out)
    | (with_reducible show Upd _ _ _ _; with_reducible rw [State.mk_box]; with_reducible apply Upd.box <;> first | (left; with_reducible rfl) | (right; decide) | skip)
    | split

theorem execYldCompute_mut (s : State) : OutUpd [.dram, .free, .cyc, .rings, .inp, .arb, .yld, .rcd] (some [0xC0, 0xC1, 0xCB, 0xCD]) s (execYldCompute s) := by
  unfold execYldCompute
  repeat' first
    | (extract_lets +onlyGivenNames x; refine Upd.cut (P := [.dram, .free, .cyc, .rings, .inp, .arb, .yld, .rcd]) (W := (some [0xC0, 0xC1, 0xCB, 0xCD])) (s := s) (x := x) ?_ (fun hx => ?_); rotate_left; clear_value x; rotate_left; subst x)
    | (extract_lets +onlyGivenNames x; subst x)
    | with_reducible assumption
    | with_reducible apply Upd.refl
    | with_reducible apply OutUpd.next
    | (with_reducible apply Upd.comp (State_yldWindow_mut ..) <;> first | decide | skip)
    | (with_reducible apply Upd.comp (State_yldLate_mut ..) <;> first | decide | skip)
    | (with_reducible show Upd _ _ _ _; with_reducible rw [State.mk_box]; with_reducible apply Upd.box <;> first | (left; with_reducible rfl) | (right; decide) | skip)
    | split

theorem opYldFlush_mut (c : Cmd) (s : State) (hc : c.blk = 0x0D) : Upd [.dram, .cyc, .rings, .yld, .rcd] (some [0xC1, 0xCD]) s (opYldFlush c s) := by
  unfold opYldFlush
  repeat' first
    | with_reducible assumption
    | with_reducible apply Upd.refl
    | (with_reducible apply Upd.comp (State_setLayer_mut ..) <;> first | decide | skip)
    | (with_reducible apply Upd.comp (Cmd_finish_mut (b := 0x0D) ..) <;> first | decide | skip)
    | split

theorem execYldFlush_mut (ring : Fin 1) (e : Sys2Proof.Entry) (s : State) : OutUpd [.dram, .cyc, .rings, .yld, .rcd] (some [0xC1, 0xCD]) s (execYldFlush ring e s) := by
  unfold execYldFlush
  repeat' first
    | with_reducible assumption
    | with_reducible apply Upd.refl
    | with_reducible apply OutUpd.next
    | (with_reducible apply Upd.comp (State_runRow_mut (P := [.dram, .cyc, .rings, .yld, .rcd]) (W := [0xC1, 0xCD]) ..) <;> first | decide | skip)
    | (with_reducible apply Upd.comp (opYldFlush_mut ..) <;> first | decide | skip)
    | (intro c u hc)

theorem opYldPose_mut (c : Cmd) (s : State) (hc : c.blk = 0x0D) : Upd [.dram, .cyc, .rings, .yld, .rcd] (some [0xC0, 0xC1, 0xCD]) s (opYldPose c s) := by
  unfold opYldPose
  repeat' first
    | (extract_lets +onlyGivenNames x; refine Upd.cut (P := [.dram, .cyc, .rings, .yld, .rcd]) (W := (some [0xC0, 0xC1, 0xCD])) (s := s) (x := x) ?_ (fun hx => ?_); rotate_left; clear_value x; rotate_left; subst x)
    | (extract_lets +onlyGivenNames x; subst x)
    | with_reducible assumption
    | with_reducible apply Upd.refl
    | (with_reducible apply Upd.comp (State_yldLate_mut ..) <;> first | decide | skip)
    | (with_reducible apply Upd.comp (Cmd_finish_mut (b := 0x0D) ..) <;> first | decide | skip)
    | (with_reducible show Upd _ _ _ _; with_reducible rw [State.mk_box]; with_reducible apply Upd.box <;> first | (left; with_reducible rfl) | (right; decide) | skip)
    | split

theorem execYldPose_mut (ring : Fin 1) (e : Sys2Proof.Entry) (s : State) : OutUpd [.dram, .cyc, .rings, .yld, .rcd] (some [0xC0, 0xC1, 0xCD]) s (execYldPose ring e s) := by
  unfold execYldPose
  repeat' first
    | with_reducible assumption
    | with_reducible apply Upd.refl
    | with_reducible apply OutUpd.next
    | (with_reducible apply Upd.comp (State_runRow_mut (P := [.dram, .cyc, .rings, .yld, .rcd]) (W := [0xC0, 0xC1, 0xCD]) ..) <;> first | decide | skip)
    | (with_reducible apply Upd.comp (opYldPose_mut ..) <;> first | decide | skip)
    | (intro c u hc)

theorem State_yldStart_mut (s : State) : Upd [.inp, .yld] (some [0xCD]) s (State.yldStart s) := by
  unfold State.yldStart
  repeat' first
    | (extract_lets +onlyGivenNames x; subst x)
    | with_reducible apply Upd.refl
    | (with_reducible apply Upd.comp (State_yldShow_mut ..) <;> first | decide | skip)
    | (with_reducible show Upd _ _ _ _; with_reducible rw [State.mk_box]; with_reducible apply Upd.box <;> first | (left; with_reducible rfl) | (right; decide) | skip)

theorem opLayerDestroy_mut (c : Cmd) (s : State) (hc : c.blk = 0x0D) : Upd [.dram, .cyc, .rings, .yld, .rcd] (some [0xC1, 0xCD]) s (opLayerDestroy c s) := by
  unfold opLayerDestroy
  repeat' first
    | with_reducible assumption
    | with_reducible apply Upd.refl
    | (with_reducible apply Upd.comp (State_setLayer_mut ..) <;> first | decide | skip)
    | (with_reducible apply Upd.comp (Cmd_finish_mut (b := 0x0D) ..) <;> first | decide | skip)
    | split

theorem State_yldRevoked_mut (s : State) : Upd [] (some [0xCD]) s (State.yldRevoked s) := by
  unfold State.yldRevoked
  repeat' first
    | with_reducible apply Upd.refl
    | (with_reducible apply Upd.comp (State_yldShow_mut ..) <;> first | decide | skip)

theorem execYldTile_mut (s : State) : OutUpd [.dram, .ufs, .free, .cyc, .rings, .arb, .yld, .rcd] (some [0xC1, 0xCB, 0xCD]) s (execYldTile s) := by
  unfold execYldTile
  repeat' first
    | (extract_lets +onlyGivenNames x; refine Upd.cut (P := [.dram, .ufs, .free, .cyc, .rings, .arb, .yld, .rcd]) (W := (some [0xC1, 0xCB, 0xCD])) (s := s) (x := x) ?_ (fun hx => ?_); rotate_left; clear_value x; rotate_left; subst x)
    | (extract_lets +onlyGivenNames x; subst x)
    | with_reducible assumption
    | with_reducible apply Upd.refl
    | with_reducible apply OutUpd.next
    | (with_reducible apply Upd.comp (State_yldArb_mut ..) <;> first | decide | skip)
    | (with_reducible apply Upd.comp (State_raise_mut ..) <;> first | decide | skip)
    | (with_reducible apply Upd.comp (State_yldEnds_mut ..) <;> first | decide | skip)
    | (with_reducible apply Upd.comp (State_setLayer_mut ..) <;> first | decide | skip)
    | (with_reducible apply Upd.comp (State_arbRelease_mut ..) <;> first | decide | skip)
    | (with_reducible show Upd _ _ _ _; with_reducible rw [State.mk_box]; with_reducible apply Upd.box <;> first | (left; with_reducible rfl) | (right; decide) | exact .inr ⟨by decide, fun hm => memWf_memPuts hm _ _⟩ | skip)
    | split

theorem State_yldWrite_mut (a : Nat) (value : Sys2Proof.Word) (s : State) : OptUpd [] (some [0xCD]) s (State.yldWrite a value s) := by
  unfold State.yldWrite
  repeat' first
    | with_reducible apply Upd.refl
    | with_reducible apply OptUpd.ofNone
    | with_reducible apply OptUpd.ofSome
    | (with_reducible apply State_setReg_step (w := 0xCD); rotate_left; decide; simp only [windowOf, YLD_CAL] <;> omega)
    | split

theorem execLayerDestroy_mut (ring : Fin 1) (e : Sys2Proof.Entry) (s : State) : OutUpd [.dram, .cyc, .rings, .yld, .rcd] (some [0xC1, 0xCD]) s (execLayerDestroy ring e s) := by
  unfold execLayerDestroy
  repeat' first
    | with_reducible assumption
    | with_reducible apply Upd.refl
    | with_reducible apply OutUpd.next
    | (with_reducible apply Upd.comp (State_runRow_mut (P := [.dram, .cyc, .rings, .yld, .rcd]) (W := [0xC1, 0xCD]) ..) <;> first | decide | skip)
    | (with_reducible apply Upd.comp (opLayerDestroy_mut ..) <;> first | decide | skip)
    | (intro c u hc)

end Sys2Proof.Machine
end

