-- ==== Sys2Proof/Laws/MutArbDecide.lean ====
section
/-! SUPPORT. What each operation of Machine/ArbDecide.lean may change (`Upd`): its parts of the state and its register windows. -/

namespace Sys2Proof.Machine

set_option Elab.async false
set_option linter.unusedSimpArgs false
set_option linter.unusedTactic false
set_option linter.unreachableTactic false
set_option linter.unnecessarySeqFocus false
set_option maxRecDepth 20000

theorem State_revokeGrant_mut (a : Nat) (s : State) : Upd [.cyc, .fen, .arb, .rcd] (some [0xC1, 0xCA, 0xCB, 0xCD, 0xD2]) s (State.revokeGrant a s) := by
  unfold State.revokeGrant
  repeat' first
    | (extract_lets +onlyGivenNames x; refine Upd.cut (P := [.cyc, .fen, .arb, .rcd]) (W := (some [0xC1, 0xCA, 0xCB, 0xCD, 0xD2])) (s := s) (x := x) ?_ (fun hx => ?_); rotate_left; clear_value x; rotate_left; subst x)
    | (extract_lets +onlyGivenNames x; subst x)
    | with_reducible assumption
    | with_reducible apply Upd.refl
    | (with_reducible apply Upd.comp (State_arbRevoke_mut ..) <;> first | decide | skip)
    | (with_reducible apply Upd.comp (State_recRevoked_mut ..) <;> first | decide | skip)
    | (with_reducible apply Upd.comp (State_fenRevoked_mut ..) <;> first | decide | skip)
    | (with_reducible apply Upd.comp (State_yldRevoked_mut ..) <;> first | decide | skip)
    | split

theorem State_giveGrant_mut (i : Nat) (s : State) : Upd [.free, .fen, .arb] (some [0xCA, 0xCB, 0xCD]) s (State.giveGrant i s) := by
  unfold State.giveGrant
  repeat' first
    | (extract_lets +onlyGivenNames x; refine Upd.cut (P := [.free, .fen, .arb]) (W := (some [0xCA, 0xCB, 0xCD])) (s := s) (x := x) ?_ (fun hx => ?_); rotate_left; clear_value x; rotate_left; subst x)
    | with_reducible assumption
    | with_reducible apply Upd.refl
    | (with_reducible apply Upd.comp (State_yldGranted_mut ..) <;> first | decide | skip)
    | (with_reducible apply Upd.comp (State_arbGrant_mut ..) <;> first | decide | skip)
    | (with_reducible apply Upd.comp (State_fenGranted_mut ..) <;> first | decide | skip)
    | split

theorem State_arbDecide_mut (a : Nat) (s : State) : Upd [.free, .cyc, .fen, .arb, .rcd] (some [0xC1, 0xCA, 0xCB, 0xCD, 0xD2]) s (State.arbDecide a s) := by
  unfold State.arbDecide
  repeat' first
    | (extract_lets +onlyGivenNames x; refine Upd.cut (P := [.free, .cyc, .fen, .arb, .rcd]) (W := (some [0xC1, 0xCA, 0xCB, 0xCD, 0xD2])) (s := s) (x := x) ?_ (fun hx => ?_); rotate_left; clear_value x; rotate_left; subst x)
    | with_reducible assumption
    | with_reducible apply Upd.refl
    | (with_reducible apply Upd.comp (State_revokeGrant_mut ..) <;> first | decide | skip)
    | (with_reducible apply Upd.comp (State_arbApply_mut ..) <;> first | decide | skip)
    | (with_reducible apply Upd.comp (State_giveGrant_mut ..) <;> first | decide | skip)
    | split

theorem execArbDecide_mut (a : Fin 2) (commit : Bool) (s : State) : OutUpd [.free, .cyc, .fen, .arb, .rcd] (some [0xC1, 0xCA, 0xCB, 0xCD, 0xD2]) s (execArbDecide a commit s) := by
  unfold execArbDecide
  repeat' first
    | with_reducible apply Upd.refl
    | with_reducible apply OutUpd.next
    | (with_reducible apply Upd.comp (State_arbDecide_mut ..) <;> first | decide | skip)
    | split

end Sys2Proof.Machine
end

