-- ==== Sys2Proof/Laws/MutBus.lean ====
section
/-! SUPPORT. What each operation of Machine/Bus.lean may change (`Upd`): its parts of the state and its register windows. -/

namespace Sys2Proof.Machine

set_option Elab.async false
set_option linter.unusedSimpArgs false
set_option linter.unusedTactic false
set_option linter.unreachableTactic false
set_option linter.unnecessarySeqFocus false
set_option maxRecDepth 20000

theorem State_objResult_mut (x : Nat) (o : CanObj) (done : Bool) (s : State) : Upd [.cyc, .rcd] (some [0xC1, 0xCE]) s (State.objResult x o done s) := by
  unfold State.objResult
  repeat' first
    | (extract_lets +onlyGivenNames x; refine Upd.cut (P := [.cyc, .rcd]) (W := (some [0xC1, 0xCE])) (s := s) (x := x) ?_ (fun hx => ?_); rotate_left; clear_value x; rotate_left; subst x)
    | with_reducible assumption
    | with_reducible apply Upd.refl
    | (with_reducible apply State_setB_step (w := 0xCE); rotate_left; decide; simp only [windowOf, BUS_OBJ_STAT, BUS_OBJ_STAT.DONE, BUS_OBJ_STAT.FAILED, BUS_OBJ_STAT.PEND] <;> omega)
    | (with_reducible apply Upd.comp (State_raise_mut ..) <;> first | decide | skip)
    | split

theorem State_canAlert_mut (n : Nat) (b : Nat) (s : State) : Upd [.cyc, .rcd] (some [0xC1, 0xCE]) s (State.canAlert n b s) := by
  unfold State.canAlert
  repeat' first
    | (extract_lets +onlyGivenNames x; subst x)
    | with_reducible apply Upd.refl
    | (with_reducible apply State_set_step (w := 0xCE); rotate_left; decide; simp only [windowOf, BUS_C_ALERT, BUS_C_ALERT.ALERT] <;> omega)
    | (with_reducible apply Upd.comp (State_raise_mut ..) <;> first | decide | skip)
    | split

theorem State_ownRx_mut (n : Nat) (f : CanFrame) (s : State) : Upd [.cyc, .rcd] (some [0xC1, 0xCE]) s (State.ownRx n f s) := by
  unfold State.ownRx
  repeat' first
    | with_reducible apply Upd.refl
    | (with_reducible apply Upd.comp (State_canAlert_mut ..) <;> first | decide | skip)
    | split

theorem State_putRecord_mut (x : Nat) (bytes : List Sys2Proof.Byte) (s : State) : Upd [] (some [0xCE]) s (State.putRecord x bytes s) := by
  unfold State.putRecord
  repeat' first
    | with_reducible assumption
    | with_reducible apply Upd.refl
    | (with_reducible apply State_setReg_step (w := 0xCE); rotate_left; decide; simp only [windowOf, BUS_OBJ_REC] <;> omega)
    | (with_reducible apply Upd.foldl <;> first | (intro y a ha hy; skip) | skip)

theorem State_busShow_mut (s : State) : Upd [] (some [0xCE]) s (State.busShow s) := by
  unfold State.busShow
  repeat' first
    | with_reducible apply Upd.refl
    | (with_reducible apply State_set_step (w := 0xCE); rotate_left; decide; simp only [windowOf, BUS_STATUS, BUS_STATUS.OBJECTS, BUS_STATUS.QUEUES, BUS_STATUS.SESSIONS] <;> omega)

theorem State_objGone_mut (x : Nat) (s : State) : Upd [.latch, .bus] (some [0xCE]) s (State.objGone x s) := by
  unfold State.objGone
  repeat' first
    | (extract_lets +onlyGivenNames x; refine Upd.cut (P := [.latch, .bus]) (W := (some [0xCE])) (s := s) (x := x) ?_ (fun hx => ?_); rotate_left; clear_value x; rotate_left; subst x)
    | (extract_lets +onlyGivenNames x; subst x)
    | with_reducible assumption
    | with_reducible apply Upd.refl
    | (with_reducible apply State_wipeRegs_step (w := 0xCE); rotate_left; decide; decide; intro b h1 h2; simp only [windowOf, BUS_OBJ_STAT] at *; omega)
    | (with_reducible apply Upd.comp (State_busShow_mut ..) <;> first | decide | skip)
    | (with_reducible show Upd _ _ _ _; with_reducible rw [State.mk_box]; with_reducible apply Upd.box <;> first | (left; with_reducible rfl) | (right; decide) | skip)

theorem State_objDies_mut (x : Nat) (o : CanObj) (s : State) : Upd [.latch, .dram, .cyc, .rings, .bus, .rcd] (some [0xC1, 0xCE]) s (State.objDies x o s) := by
  unfold State.objDies
  repeat' first
    | with_reducible apply Upd.refl
    | (with_reducible apply Upd.comp (State_objGone_mut ..) <;> first | decide | skip)
    | (with_reducible apply Upd.comp (State_completeSelf_mut ..) <;> first | decide | skip)
    | split

theorem State_setObj_mut (x : Nat) (o : CanObj) (s : State) : Upd [.bus] (some []) s (State.setObj x o s) := by
  unfold State.setObj
  repeat' first
    | (extract_lets +onlyGivenNames x; subst x)
    | with_reducible apply Upd.refl
    | (with_reducible show Upd _ _ _ _; with_reducible rw [State.mk_box]; with_reducible apply Upd.box <;> first | (left; with_reducible rfl) | (right; decide) | skip)

theorem State_objStopped_mut (x : Nat) (o : CanObj) (s : State) : Upd [.latch, .dram, .cyc, .rings, .bus, .rcd] (some [0xC1, 0xCE]) s (State.objStopped x o s) := by
  unfold State.objStopped
  repeat' first
    | with_reducible apply Upd.refl
    | (with_reducible apply Upd.comp (State_setObj_mut ..) <;> first | decide | skip)
    | (with_reducible apply Upd.comp (State_objDies_mut ..) <;> first | decide | skip)
    | (with_reducible apply Upd.comp (State_objResult_mut ..) <;> first | decide | skip)
    | split

theorem State_setCanState_mut (n : Nat) (v : Nat) (s : State) : Upd [.cyc, .rcd] (some [0xC1, 0xCE]) s (State.setCanState n v s) := by
  unfold State.setCanState
  repeat' first
    | with_reducible apply Upd.refl
    | (with_reducible apply State_set_step (w := 0xCE); rotate_left; decide; simp only [windowOf, BUS_C_STAT, BUS_C_STAT.STATE] <;> omega)
    | (with_reducible apply Upd.comp (State_raise_mut ..) <;> first | decide | skip)
    | split

theorem State_setCtl_mut (n : Nat) (v : CanCtl) (s : State) : Upd [.bus] (some []) s (State.setCtl n v s) := by
  unfold State.setCtl
  repeat' first
    | (extract_lets +onlyGivenNames x; subst x)
    | with_reducible apply Upd.refl
    | (with_reducible show Upd _ _ _ _; with_reducible rw [State.mk_box]; with_reducible apply Upd.box <;> first | (left; with_reducible rfl) | (right; decide) | skip)

theorem State_goBusOff_mut (n : Nat) (s : State) : Upd [.latch, .dram, .cyc, .rings, .bus, .rcd] (some [0xC1, 0xCE]) s (State.goBusOff n s) := by
  unfold State.goBusOff
  repeat' first
    | (extract_lets +onlyGivenNames x; refine Upd.cut (P := [.latch, .dram, .cyc, .rings, .bus, .rcd]) (W := (some [0xC1, 0xCE])) (s := s) (x := x) ?_ (fun hx => ?_); rotate_left; clear_value x; rotate_left; subst x)
    | (extract_lets +onlyGivenNames x; subst x)
    | with_reducible assumption
    | with_reducible apply Upd.refl
    | (with_reducible apply Upd.comp (State_objStopped_mut ..) <;> first | decide | skip)
    | (with_reducible apply Upd.comp (State_setCtl_mut ..) <;> first | decide | skip)
    | (with_reducible apply Upd.comp (State_setCanState_mut ..) <;> first | decide | skip)
    | (with_reducible apply Upd.foldl <;> first | (intro y a ha hy; skip) | skip)
    | split

theorem execTxdDom_mut (n : Fin 8) (s : State) : OutUpd [.latch, .dram, .cyc, .rings, .bus, .rcd] (some [0xC1, 0xCE]) s (execTxdDom n s) := by
  unfold execTxdDom
  repeat' first
    | with_reducible apply Upd.refl
    | with_reducible apply OutUpd.next
    | (with_reducible apply Upd.comp (State_canAlert_mut ..) <;> first | decide | skip)
    | (with_reducible apply Upd.comp (State_goBusOff_mut ..) <;> first | decide | skip)
    | split

theorem opObjDestroy_mut (c : Cmd) (s : State) (hc : c.blk = 0x0E) : Upd [.latch, .dram, .free, .cyc, .rings, .bus, .rcd] (some [0xC1, 0xCE]) s (opObjDestroy c s) := by
  unfold opObjDestroy
  repeat' first
    | (extract_lets +onlyGivenNames x; subst x)
    | with_reducible assumption
    | with_reducible apply Upd.refl
    | (with_reducible apply Upd.comp (State_objGone_mut ..) <;> first | decide | skip)
    | (with_reducible apply Upd.comp (State_setObj_mut ..) <;> first | decide | skip)
    | (with_reducible apply Upd.comp (Cmd_finish_mut (b := 0x0E) ..) <;> first | decide | skip)
    | (with_reducible apply Upd.comp (State_drawn_mut ..) <;> first | decide | skip)
    | split

theorem opQCreate_mut (c : Cmd) (s : State) (hc : c.blk = 0x0E) : Upd [.latch, .dram, .cyc, .rings, .gens, .bus, .rcd] (some [0xC1, 0xCE]) s (opQCreate c s) := by
  unfold opQCreate
  repeat' first
    | (extract_lets +onlyGivenNames x; refine Upd.cut (P := [.latch, .dram, .cyc, .rings, .gens, .bus, .rcd]) (W := (some [0xC1, 0xCE])) (s := s) (x := x) ?_ (fun hx => ?_); rotate_left; clear_value x; rotate_left; subst x)
    | (extract_lets +onlyGivenNames x; subst x)
    | with_reducible assumption
    | with_reducible apply Upd.refl
    | (with_reducible apply State_setB_step (w := 0xCE); rotate_left; decide; simp only [windowOf, BUS_Q_STAT, BUS_Q_STAT.CTRL, BUS_Q_STAT.LIVE] <;> omega)
    | (with_reducible apply State_wipeRegs_step (w := 0xCE); rotate_left; decide; decide; intro b h1 h2; simp only [windowOf, BUS_Q_STAT, BUS_Q_STAT.CTRL, BUS_Q_STAT.LIVE] at *; omega)
    | (with_reducible apply Upd.comp (Cmd_created_mut (b := 0x0E) ..) <;> first | decide | skip)
    | (with_reducible apply Upd.comp (State_busShow_mut ..) <;> first | decide | skip)
    | (with_reducible apply Upd.comp (State_advGen_mut ..) <;> first | decide | skip)
    | (with_reducible apply State_set_step (w := 0xCE); rotate_left; decide; simp only [windowOf, BUS_Q_STAT, BUS_Q_STAT.CTRL, BUS_Q_STAT.LIVE] <;> omega)
    | (with_reducible apply Upd.comp (Cmd_failed_mut (b := 0x0E) ..) <;> first | decide | skip)
    | (with_reducible show Upd _ _ _ _; with_reducible rw [State.mk_box]; with_reducible apply Upd.box <;> first | (left; with_reducible rfl) | (right; decide) | skip)
    | split

theorem execQCreate_mut (ring : Fin 8) (e : Sys2Proof.Entry) (s : State) : OutUpd [.latch, .dram, .cyc, .rings, .gens, .bus, .rcd] (some [0xC1, 0xCE]) s (execQCreate ring e s) := by
  unfold execQCreate
  repeat' first
    | with_reducible assumption
    | with_reducible apply Upd.refl
    | with_reducible apply OutUpd.next
    | (with_reducible apply Upd.comp (State_runRow_mut (P := [.latch, .dram, .cyc, .rings, .gens, .bus, .rcd]) (W := [0xC1, 0xCE]) ..) <;> first | decide | skip)
    | (with_reducible apply Upd.comp (opQCreate_mut ..) <;> first | decide | skip)
    | (intro c u hc)

theorem State_writeObjRec_mut (x : Nat) (j : Nat) (value : Sys2Proof.Word) (s : State) : Upd [] (some [0xCE]) s (State.writeObjRec x j value s) := by
  unfold State.writeObjRec
  repeat' first
    | (extract_lets +onlyGivenNames x; subst x)
    | with_reducible apply Upd.refl
    | (with_reducible apply State_setReg_step (w := 0xCE); rotate_left; decide; simp only [windowOf, BUS_C_CNT, BUS_C_CNT.WIGN, BUS_OBJ_REC, CanObj.ctrl] <;> omega)
    | (with_reducible apply State_bump_step (w := 0xCE); rotate_left; decide; simp only [windowOf, BUS_C_CNT, BUS_C_CNT.WIGN, BUS_OBJ_REC, CanObj.ctrl] <;> omega)
    | split

theorem execBusDom_mut (n : Fin 8) (s : State) : OutUpd [.cyc, .rcd] (some [0xC1, 0xCE]) s (execBusDom n s) := by
  unfold execBusDom
  repeat' first
    | with_reducible apply Upd.refl
    | with_reducible apply OutUpd.next
    | (with_reducible apply Upd.comp (State_canAlert_mut ..) <;> first | decide | skip)
    | split

theorem State_qReached_mut (v : CanQueue) (a : Nat) (b : Nat) (entry : Bool) (s : State) : Upd [.cyc, .rcd] (some [0xC1]) s (State.qReached v a b entry s) := by
  unfold State.qReached
  repeat' first
    | with_reducible apply Upd.refl
    | (with_reducible apply Upd.comp (State_raise_mut ..) <;> first | decide | skip)
    | split

theorem State_qPut_mut (q : Nat) (entry : List Sys2Proof.Byte) (s : State) : Upd [.dram, .cyc, .rcd] (some [0xC1, 0xCE]) s (State.qPut q entry s) := by
  unfold State.qPut
  repeat' first
    | (extract_lets +onlyGivenNames x; subst x)
    | with_reducible apply Upd.refl
    | (with_reducible apply Upd.comp (State_qReached_mut ..) <;> first | decide | skip)
    | (with_reducible apply Upd.comp (State_dramPuts_mut ..) <;> first | decide | skip)
    | (with_reducible apply State_set_step (w := 0xCE); rotate_left; decide; simp only [windowOf, BUS_Q_PI, BUS_Q_PI.PI] <;> omega)
    | split

theorem State_qFrame_mut (q : Nat) (entry : List Sys2Proof.Byte) (s : State) : Upd [.dram, .cyc, .rcd] (some [0xC1, 0xCE]) s (State.qFrame q entry s) := by
  unfold State.qFrame
  repeat' first
    | with_reducible apply Upd.refl
    | (with_reducible apply State_bump_step (w := 0xCE); rotate_left; decide; simp only [windowOf, BUS_Q_STAT, BUS_Q_STAT.Q_DROP] <;> omega)
    | (with_reducible apply Upd.comp (State_canAlert_mut ..) <;> first | decide | skip)
    | (with_reducible apply Upd.comp (State_qPut_mut ..) <;> first | decide | skip)
    | split

theorem State_objLost_mut (x : Nat) (o : CanObj) (s : State) : Upd [.cyc, .rcd] (some [0xC1, 0xCE]) s (State.objLost x o s) := by
  unfold State.objLost
  repeat' first
    | with_reducible apply Upd.refl
    | (with_reducible apply State_setB_step (w := 0xCE); rotate_left; decide; simp only [windowOf, BUS_OBJ_STAT, BUS_OBJ_STAT.LOST] <;> omega)
    | (with_reducible apply Upd.comp (State_canAlert_mut ..) <;> first | decide | skip)
    | split

theorem State_objQueue_mut (o : CanObj) (bytes : List Sys2Proof.Byte) (s : State) : Upd [.dram, .cyc, .rcd] (some [0xC1, 0xCE]) s (State.objQueue o bytes s) := by
  unfold State.objQueue
  repeat' first
    | with_reducible apply Upd.refl
    | (with_reducible apply Upd.comp (State_qFrame_mut ..) <;> first | decide | skip)
    | split

theorem State_objStore_mut (x : Nat) (o : CanObj) (f : CanFrame) (bytes : List Sys2Proof.Byte) (s : State) : Upd [.dram, .cyc, .yld, .rcd] (some [0xC0, 0xC1, 0xCD, 0xCE]) s (State.objStore x o f bytes s) := by
  unfold State.objStore
  repeat' first
    | (extract_lets +onlyGivenNames x; refine Upd.cut (P := [.dram, .cyc, .yld, .rcd]) (W := (some [0xC0, 0xC1, 0xCD, 0xCE])) (s := s) (x := x) ?_ (fun hx => ?_); rotate_left; clear_value x; rotate_left; subst x)
    | with_reducible assumption
    | with_reducible apply Upd.refl
    | (with_reducible apply State_setB_step (w := 0xCE); rotate_left; decide; simp only [windowOf, BUS_OBJ_STAT, BUS_OBJ_STAT.NEW] <;> omega)
    | (with_reducible apply Upd.comp (State_objLost_mut ..) <;> first | decide | skip)
    | (with_reducible apply Upd.comp (State_objQueue_mut ..) <;> first | decide | skip)
    | (with_reducible apply Upd.comp (State_putRecord_mut ..) <;> first | decide | skip)
    | (with_reducible apply Upd.comp (State_yldMoist_mut ..) <;> first | decide | skip)
    | split

theorem State_canStore_mut (n : Nat) (f : CanFrame) (s : State) : Upd [.dram, .cyc, .yld, .bus, .rcd] (some [0xC0, 0xC1, 0xCD, 0xCE]) s (State.canStore n f s) := by
  unfold State.canStore
  repeat' first
    | (extract_lets +onlyGivenNames x; subst x)
    | with_reducible apply Upd.refl
    | (with_reducible apply State_bump_step (w := 0xCE); rotate_left; decide; simp only [windowOf, BUS_C_CNT, BUS_C_CNT.NOMATCH] <;> omega)
    | (with_reducible apply Upd.comp (State_qFrame_mut ..) <;> first | decide | skip)
    | (with_reducible apply Upd.comp (State_setCtl_mut ..) <;> first | decide | skip)
    | (with_reducible apply Upd.comp (State_objStore_mut ..) <;> first | decide | skip)
    | split

theorem State_canErrState_mut (n : Nat) (s : State) : Upd [.cyc, .rcd] (some [0xC1, 0xCE]) s (State.canErrState n s) := by
  unfold State.canErrState
  repeat' first
    | with_reducible apply Upd.refl
    | (with_reducible apply Upd.comp (State_setCanState_mut ..) <;> first | decide | skip)
    | split

theorem execBusOffRecovered_mut (n : Fin 8) (s : State) : OutUpd [.cyc, .bus, .rcd] (some [0xC1, 0xCE]) s (execBusOffRecovered n s) := by
  unfold execBusOffRecovered
  repeat' first
    | (extract_lets +onlyGivenNames x; refine Upd.cut (P := [.cyc, .bus, .rcd]) (W := (some [0xC1, 0xCE])) (s := s) (x := x) ?_ (fun hx => ?_); rotate_left; clear_value x; rotate_left; subst x)
    | (extract_lets +onlyGivenNames x; subst x)
    | with_reducible assumption
    | with_reducible apply Upd.refl
    | with_reducible apply OutUpd.next
    | (with_reducible apply State_set_step (w := 0xCE); rotate_left; decide; simp only [windowOf, BUS_C_STAT, BUS_C_STAT.REC, BUS_C_STAT.TEC] <;> omega)
    | (with_reducible apply Upd.comp (State_setCtl_mut ..) <;> first | decide | skip)
    | (with_reducible apply Upd.comp (State_setCanState_mut ..) <;> first | decide | skip)
    | split

theorem State_tecDown_mut (n : Nat) (s : State) : Upd [.cyc, .rcd] (some [0xC1, 0xCE]) s (State.tecDown n s) := by
  unfold State.tecDown
  repeat' first
    | with_reducible apply Upd.refl
    | (with_reducible apply Upd.comp (State_canErrState_mut ..) <;> first | decide | skip)
    | (with_reducible apply State_set_step (w := 0xCE); rotate_left; decide; simp only [windowOf, BUS_C_STAT, BUS_C_STAT.TEC] <;> omega)

theorem State_writeObjCtrl_mut (x : Nat) (value : Sys2Proof.Word) (s : State) : Upd [.free, .cyc, .bus, .rcd] (some [0xC1, 0xCE]) s (State.writeObjCtrl x value s) := by
  unfold State.writeObjCtrl
  repeat' first
    | (extract_lets +onlyGivenNames x; refine Upd.cut (P := [.free, .cyc, .bus, .rcd]) (W := (some [0xC1, 0xCE])) (s := s) (x := x) ?_ (fun hx => ?_); rotate_left; clear_value x; rotate_left; subst x)
    | with_reducible assumption
    | with_reducible apply Upd.refl
    | (with_reducible apply State_setB_step (w := 0xCE); rotate_left; decide; simp only [windowOf, BUS_C_CNT, BUS_C_CNT.WIGN, BUS_OBJ_STAT, BUS_OBJ_STAT.PEND, CanObj.ctrl] <;> omega)
    | (with_reducible apply State_bump_step (w := 0xCE); rotate_left; decide; simp only [windowOf, BUS_C_CNT, BUS_C_CNT.WIGN, BUS_OBJ_STAT, BUS_OBJ_STAT.PEND, CanObj.ctrl] <;> omega)
    | (with_reducible apply Upd.comp (State_setObj_mut ..) <;> first | decide | skip)
    | (with_reducible apply Upd.comp (State_objResult_mut ..) <;> first | decide | skip)
    | (with_reducible apply Upd.comp (State_drawn_mut ..) <;> first | decide | skip)
    | split

theorem State_busDisable_mut (s : State) : Upd [.latch, .dram, .cyc, .rings, .bus, .rcd] (some [0xC1, 0xCE]) s (State.busDisable s) := by
  unfold State.busDisable
  repeat' first
    | (extract_lets +onlyGivenNames x; refine Upd.cut (P := [.latch, .dram, .cyc, .rings, .bus, .rcd]) (W := (some [0xC1, 0xCE])) (s := s) (x := x) ?_ (fun hx => ?_); rotate_left; clear_value x; rotate_left; subst x)
    | with_reducible assumption
    | with_reducible apply Upd.refl
    | (with_reducible apply State_setB_step (w := 0xCE); rotate_left; decide; simp only [windowOf, BUS_CTRL, BUS_CTRL.ENABLE, BUS_C_STAT, BUS_C_STAT.STATE, BUS_Q_STAT] <;> omega)
    | (with_reducible apply State_wipeRegs_step (w := 0xCE); rotate_left; decide; decide; intro b h1 h2; simp only [windowOf, BUS_CTRL, BUS_CTRL.ENABLE, BUS_C_STAT, BUS_C_STAT.STATE, BUS_Q_STAT] at *; omega)
    | (with_reducible apply Upd.comp (State_objGone_mut ..) <;> first | decide | skip)
    | (with_reducible apply Upd.comp (State_busShow_mut ..) <;> first | decide | skip)
    | (with_reducible apply State_set_step (w := 0xCE); rotate_left; decide; simp only [windowOf, BUS_CTRL, BUS_CTRL.ENABLE, BUS_C_STAT, BUS_C_STAT.STATE, BUS_Q_STAT] <;> omega)
    | (with_reducible apply Upd.comp (State_objDies_mut ..) <;> first | decide | skip)
    | (with_reducible apply Upd.foldl <;> first | (intro y a ha hy; skip) | skip)
    | (with_reducible show Upd _ _ _ _; with_reducible rw [State.mk_box]; with_reducible apply Upd.box <;> first | (left; with_reducible rfl) | (right; decide) | skip)

theorem State_objError_mut (x : Nat) (o : CanObj) (clash : Bool) (s : State) : Upd [.latch, .dram, .cyc, .rings, .bus, .rcd] (some [0xC1, 0xCE]) s (State.objError x o clash s) := by
  unfold State.objError
  repeat' first
    | (extract_lets +onlyGivenNames x; refine Upd.cut (P := [.latch, .dram, .cyc, .rings, .bus, .rcd]) (W := (some [0xC1, 0xCE])) (s := s) (x := x) ?_ (fun hx => ?_); rotate_left; clear_value x; rotate_left; subst x)
    | (extract_lets +onlyGivenNames x; subst x)
    | with_reducible assumption
    | with_reducible apply Upd.refl
    | (with_reducible apply Upd.comp (State_setObj_mut ..) <;> first | decide | skip)
    | (with_reducible apply Upd.comp (State_objStopped_mut ..) <;> first | decide | skip)
    | (with_reducible apply Upd.comp (State_canAlert_mut ..) <;> first | decide | skip)
    | (with_reducible apply State_set_step (w := 0xCE); rotate_left; decide; simp only [windowOf, BUS_C_CLASH, BUS_C_CLASH.ID, CanObj.ctrl] <;> omega)
    | split

theorem opObjCreate_mut (c : Cmd) (s : State) (hc : c.blk = 0x0E) : Upd [.latch, .dram, .cyc, .rings, .gens, .bus, .rcd] (some [0xC1, 0xCE]) s (opObjCreate c s) := by
  unfold opObjCreate
  repeat' first
    | (extract_lets +onlyGivenNames x; refine Upd.cut (P := [.latch, .dram, .cyc, .rings, .gens, .bus, .rcd]) (W := (some [0xC1, 0xCE])) (s := s) (x := x) ?_ (fun hx => ?_); rotate_left; clear_value x; rotate_left; subst x)
    | (extract_lets +onlyGivenNames x; subst x)
    | with_reducible assumption
    | with_reducible apply Upd.refl
    | (with_reducible apply State_setB_step (w := 0xCE); rotate_left; decide; simp only [windowOf, BUS_OBJ_REC, BUS_OBJ_STAT, BUS_OBJ_STAT.CTRL, BUS_OBJ_STAT.DIR, BUS_OBJ_STAT.LIVE] <;> omega)
    | (with_reducible apply State_wipeRegs_step (w := 0xCE); rotate_left; decide; decide; intro b h1 h2; simp only [windowOf, BUS_OBJ_REC, BUS_OBJ_STAT, BUS_OBJ_STAT.CTRL, BUS_OBJ_STAT.DIR, BUS_OBJ_STAT.LIVE] at *; omega)
    | (with_reducible apply Upd.comp (Cmd_created_mut (b := 0x0E) ..) <;> first | decide | skip)
    | (with_reducible apply State_setReg_step (w := 0xCE); rotate_left; decide; simp only [windowOf, BUS_OBJ_REC, BUS_OBJ_STAT, BUS_OBJ_STAT.CTRL, BUS_OBJ_STAT.DIR, BUS_OBJ_STAT.LIVE] <;> omega)
    | (with_reducible apply Upd.comp (State_busShow_mut ..) <;> first | decide | skip)
    | (with_reducible apply Upd.comp (State_advGen_mut ..) <;> first | decide | skip)
    | (with_reducible apply Upd.comp (State_setObj_mut ..) <;> first | decide | skip)
    | (with_reducible apply State_set_step (w := 0xCE); rotate_left; decide; simp only [windowOf, BUS_OBJ_REC, BUS_OBJ_STAT, BUS_OBJ_STAT.CTRL, BUS_OBJ_STAT.DIR, BUS_OBJ_STAT.LIVE] <;> omega)
    | (with_reducible apply Upd.comp (Cmd_failed_mut (b := 0x0E) ..) <;> first | decide | skip)
    | split

theorem execObjCreate_mut (ring : Fin 8) (e : Sys2Proof.Entry) (s : State) : OutUpd [.latch, .dram, .cyc, .rings, .gens, .bus, .rcd] (some [0xC1, 0xCE]) s (execObjCreate ring e s) := by
  unfold execObjCreate
  repeat' first
    | with_reducible assumption
    | with_reducible apply Upd.refl
    | with_reducible apply OutUpd.next
    | (with_reducible apply Upd.comp (State_runRow_mut (P := [.latch, .dram, .cyc, .rings, .gens, .bus, .rcd]) (W := [0xC1, 0xCE]) ..) <;> first | decide | skip)
    | (with_reducible apply Upd.comp (opObjCreate_mut ..) <;> first | decide | skip)
    | (intro c u hc)

theorem State_busStart_mut (s : State) : Upd [.bus] (some [0xCE]) s (State.busStart s) := by
  unfold State.busStart
  repeat' first
    | with_reducible assumption
    | with_reducible apply Upd.refl
    | (with_reducible apply Upd.comp (State_busShow_mut ..) <;> first | decide | skip)
    | (with_reducible apply State_set_step (w := 0xCE); rotate_left; decide; simp only [windowOf, BUS_C_STAT, BUS_C_STAT.REC, BUS_C_STAT.STATE, BUS_C_STAT.TEC] <;> omega)
    | (with_reducible apply Upd.foldl <;> first | (intro y a ha hy; skip) | skip)
    | (with_reducible show Upd _ _ _ _; with_reducible rw [State.mk_box]; with_reducible apply Upd.box <;> first | (left; with_reducible rfl) | (right; decide) | skip)

theorem execBusOff_mut (n : Fin 8) (s : State) : OutUpd [.latch, .dram, .cyc, .rings, .bus, .rcd] (some [0xC1, 0xCE]) s (execBusOff n s) := by
  unfold execBusOff
  repeat' first
    | with_reducible apply Upd.refl
    | with_reducible apply OutUpd.next
    | (with_reducible apply Upd.comp (State_goBusOff_mut ..) <;> first | decide | skip)
    | split

theorem State_recDown_mut (n : Nat) (s : State) : Upd [.free, .cyc, .rcd] (some [0xC1, 0xCE]) s (State.recDown n s) := by
  unfold State.recDown
  repeat' first
    | (extract_lets +onlyGivenNames x; subst x)
    | with_reducible apply Upd.refl
    | (with_reducible apply Upd.comp (State_canErrState_mut ..) <;> first | decide | skip)
    | (with_reducible apply State_set_step (w := 0xCE); rotate_left; decide; simp only [windowOf, BUS_C_STAT, BUS_C_STAT.REC] <;> omega)
    | (with_reducible apply Upd.comp (State_drawn_mut ..) <;> first | decide | skip)
    | split

theorem State_setSess_mut (i : Nat) (v : TpSess) (s : State) : Upd [.bus] (some []) s (State.setSess i v s) := by
  unfold State.setSess
  repeat' first
    | (extract_lets +onlyGivenNames x; subst x)
    | with_reducible apply Upd.refl
    | (with_reducible show Upd _ _ _ _; with_reducible rw [State.mk_box]; with_reducible apply Upd.box <;> first | (left; with_reducible rfl) | (right; decide) | skip)

theorem opQDestroy_mut (c : Cmd) (s : State) (hc : c.blk = 0x0E) : Upd [.latch, .dram, .cyc, .rings, .bus, .rcd] (some [0xC1, 0xCE]) s (opQDestroy c s) := by
  unfold opQDestroy
  repeat' first
    | (extract_lets +onlyGivenNames x; refine Upd.cut (P := [.latch, .dram, .cyc, .rings, .bus, .rcd]) (W := (some [0xC1, 0xCE])) (s := s) (x := x) ?_ (fun hx => ?_); rotate_left; clear_value x; rotate_left; subst x)
    | (extract_lets +onlyGivenNames x; subst x)
    | with_reducible assumption
    | with_reducible apply Upd.refl
    | (with_reducible apply State_wipeRegs_step (w := 0xCE); rotate_left; decide; decide; intro b h1 h2; simp only [windowOf, BUS_Q_STAT, Cmd.e, Cmd.handle, bitsOf, hIndex] at *; omega)
    | (with_reducible apply Upd.comp (State_busShow_mut ..) <;> first | decide | skip)
    | (with_reducible apply Upd.comp (Cmd_finish_mut (b := 0x0E) ..) <;> first | decide | skip)
    | (with_reducible show Upd _ _ _ _; with_reducible rw [State.mk_box]; with_reducible apply Upd.box <;> first | (left; with_reducible rfl) | (right; decide) | skip)
    | split

theorem execQDestroy_mut (ring : Fin 8) (e : Sys2Proof.Entry) (s : State) : OutUpd [.latch, .dram, .cyc, .rings, .bus, .rcd] (some [0xC1, 0xCE]) s (execQDestroy ring e s) := by
  unfold execQDestroy
  repeat' first
    | with_reducible assumption
    | with_reducible apply Upd.refl
    | with_reducible apply OutUpd.next
    | (with_reducible apply Upd.comp (State_runRow_mut (P := [.latch, .dram, .cyc, .rings, .bus, .rcd]) (W := [0xC1, 0xCE]) ..) <;> first | decide | skip)
    | (with_reducible apply Upd.comp (opQDestroy_mut ..) <;> first | decide | skip)
    | (intro c u hc)

theorem execCanRxError_mut (n : Fin 8) (kind : Fin 3) (s : State) : OutUpd [.cyc, .rcd] (some [0xC1, 0xCE]) s (execCanRxError n kind s) := by
  unfold execCanRxError
  repeat' first
    | (extract_lets +onlyGivenNames x; subst x)
    | with_reducible apply Upd.refl
    | with_reducible apply OutUpd.next
    | (with_reducible apply Upd.comp (State_canErrState_mut ..) <;> first | decide | skip)
    | (with_reducible apply State_set_step (w := 0xCE); rotate_left; decide; simp only [windowOf, BUS_C_STAT, BUS_C_STAT.REC] <;> omega)
    | split

theorem State_tecUp_mut (n : Nat) (kind : Nat) (s : State) : Upd [.cyc, .rcd] (some [0xC1, 0xCE]) s (State.tecUp n kind s) := by
  unfold State.tecUp
  repeat' first
    | with_reducible apply Upd.refl
    | (with_reducible apply Upd.comp (State_canErrState_mut ..) <;> first | decide | skip)
    | (with_reducible apply State_set_step (w := 0xCE); rotate_left; decide; simp only [windowOf, BUS_C_STAT, BUS_C_STAT.TEC] <;> omega)
    | split

theorem execBusDisable_mut (s : State) : OutUpd [.latch, .dram, .cyc, .rings, .bus, .rcd] (some [0xC1, 0xCE]) s (execBusDisable s) := by
  unfold execBusDisable
  repeat' first
    | with_reducible apply Upd.refl
    | with_reducible apply OutUpd.next
    | (with_reducible apply Upd.comp (State_busDisable_mut ..) <;> first | decide | skip)
    | split

theorem State_objSent_mut (x : Nat) (o : CanObj) (sof : Nat) (s : State) : Upd [.latch, .dram, .cyc, .rings, .bus, .rcd] (some [0xC1, 0xCE]) s (State.objSent x o sof s) := by
  unfold State.objSent
  repeat' first
    | (extract_lets +onlyGivenNames x; refine Upd.cut (P := [.latch, .dram, .cyc, .rings, .bus, .rcd]) (W := (some [0xC1, 0xCE])) (s := s) (x := x) ?_ (fun hx => ?_); rotate_left; clear_value x; rotate_left; subst x)
    | with_reducible assumption
    | with_reducible apply Upd.refl
    | (with_reducible apply State_setReg_step (w := 0xCE); rotate_left; decide; simp only [windowOf, BUS_OBJ_REC] <;> omega)
    | (with_reducible apply Upd.comp (State_setObj_mut ..) <;> first | decide | skip)
    | (with_reducible apply Upd.comp (State_objDies_mut ..) <;> first | decide | skip)
    | (with_reducible apply Upd.comp (State_objResult_mut ..) <;> first | decide | skip)

theorem execCanBusIntegration_mut (n : Fin 8) (s : State) : OutUpd [] (some [0xCE]) s (execCanBusIntegration n s) := by
  unfold execCanBusIntegration
  repeat' first
    | with_reducible apply Upd.refl
    | with_reducible apply OutUpd.next
    | (with_reducible apply State_set_step (w := 0xCE); rotate_left; decide; simp only [windowOf, BUS_C_STAT, BUS_C_STAT.STATE] <;> omega)
    | split

theorem State_writeQCi_mut (q : Nat) (value : Sys2Proof.Word) (s : State) : Upd [.cyc, .bus, .rcd] (some [0xC1, 0xCE]) s (State.writeQCi q value s) := by
  unfold State.writeQCi
  repeat' first
    | (extract_lets +onlyGivenNames x; refine Upd.cut (P := [.cyc, .bus, .rcd]) (W := (some [0xC1, 0xCE])) (s := s) (x := x) ?_ (fun hx => ?_); rotate_left; clear_value x; rotate_left; subst x)
    | (extract_lets +onlyGivenNames x; subst x)
    | with_reducible assumption
    | with_reducible apply Upd.refl
    | (with_reducible apply Upd.comp (State_qReached_mut ..) <;> first | decide | skip)
    | (with_reducible apply Upd.comp (State_busShow_mut ..) <;> first | decide | skip)
    | (with_reducible apply State_set_step (w := 0xCE); rotate_left; decide; simp only [windowOf, BUS_Q_CI, BUS_Q_CI.CI] <;> omega)
    | (with_reducible show Upd _ _ _ _; with_reducible rw [State.mk_box]; with_reducible apply Upd.box <;> first | (left; with_reducible rfl) | (right; decide) | skip)
    | split

theorem execObjDestroy_mut (ring : Fin 8) (e : Sys2Proof.Entry) (s : State) : OutUpd [.latch, .dram, .free, .cyc, .rings, .bus, .rcd] (some [0xC1, 0xCE]) s (execObjDestroy ring e s) := by
  unfold execObjDestroy
  repeat' first
    | with_reducible assumption
    | with_reducible apply Upd.refl
    | with_reducible apply OutUpd.next
    | (with_reducible apply Upd.comp (State_runRow_mut (P := [.latch, .dram, .free, .cyc, .rings, .bus, .rcd]) (W := [0xC1, 0xCE]) ..) <;> first | decide | skip)
    | (with_reducible apply Upd.comp (opObjDestroy_mut ..) <;> first | decide | skip)
    | (intro c u hc)

theorem State_readObj_mut (core : Nat) (x : Nat) (s : State) : Upd [.latch, .access] (some [0xCE]) s (State.readObj core x s) := by
  unfold State.readObj
  repeat' first
    | (extract_lets +onlyGivenNames x; refine Upd.cut (P := [.latch, .access]) (W := (some [0xCE])) (s := s) (x := x) ?_ (fun hx => ?_); rotate_left; clear_value x; rotate_left; subst x)
    | (extract_lets +onlyGivenNames x; subst x)
    | with_reducible assumption
    | with_reducible apply Upd.refl
    | (with_reducible apply State_setB_step (w := 0xCE); rotate_left; decide; simp only [windowOf, BUS_OBJ_STAT, BUS_OBJ_STAT.DONE, BUS_OBJ_STAT.FAILED, BUS_OBJ_STAT.LOST, BUS_OBJ_STAT.NEW] <;> omega)
    | (with_reducible apply Upd.comp (State_answer_mut ..) <;> first | decide | skip)
    | (with_reducible apply Upd.comp (State_latchFor_mut ..) <;> first | decide | skip)
    | (with_reducible apply Upd.foldl <;> first | (intro y a ha hy; skip) | skip)
    | split

theorem State_writeRecover_mut (n : Nat) (value : Sys2Proof.Word) (s : State) : Upd [.bus] (some []) s (State.writeRecover n value s) := by
  unfold State.writeRecover
  repeat' first
    | (extract_lets +onlyGivenNames x; subst x)
    | with_reducible apply Upd.refl
    | (with_reducible apply Upd.comp (State_setCtl_mut ..) <;> first | decide | skip)
    | split

end Sys2Proof.Machine
end

