-- ==== Sys2Proof/Laws/MutBusTp.lean ====
section
/-! SUPPORT. What each operation of Machine/BusTp.lean may change (`Upd`): its parts of the state and its register windows. -/

namespace Sys2Proof.Machine

set_option Elab.async false
set_option linter.unusedSimpArgs false
set_option linter.unusedTactic false
set_option linter.unreachableTactic false
set_option linter.unnecessarySeqFocus false
set_option maxRecDepth 20000

theorem State_tpPush_mut (n : Nat) (f : TpTx) (s : State) : Upd [.bus] (some []) s (State.tpPush n f s) := by
  unfold State.tpPush
  repeat' first
    | (extract_lets +onlyGivenNames x; subst x)
    | with_reducible apply Upd.refl
    | (with_reducible apply Upd.comp (State_setCtl_mut ..) <;> first | decide | skip)

theorem State_tpAbortTx_mut (n : Nat) (kind : Nat) (own : Nat) (peer : Nat) (pgn : Nat) (reason : Nat) (s : State) : Upd [.bus] (some [0xCE]) s (State.tpAbortTx n kind own peer pgn reason s) := by
  unfold State.tpAbortTx
  repeat' first
    | with_reducible apply Upd.refl
    | (with_reducible apply State_bump_step (w := 0xCE); rotate_left; decide; simp only [windowOf, BUS_C_TPCNT2, BUS_C_TPCNT2.ABORT_TX] <;> omega)
    | (with_reducible apply Upd.comp (State_tpPush_mut ..) <;> first | decide | skip)

theorem State_tpEnd_mut (i : Nat) (result : Nat) (s : State) : Upd [.cyc, .bus, .rcd] (some [0xC1]) s (State.tpEnd i result s) := by
  unfold State.tpEnd
  repeat' first
    | (extract_lets +onlyGivenNames x; refine Upd.cut (P := [.cyc, .bus, .rcd]) (W := (some [0xC1])) (s := s) (x := x) ?_ (fun hx => ?_); rotate_left; clear_value x; rotate_left; subst x)
    | (extract_lets +onlyGivenNames x; subst x)
    | with_reducible assumption
    | with_reducible apply Upd.refl
    | (with_reducible apply Upd.comp (State_setCtl_mut ..) <;> first | decide | skip)
    | (with_reducible apply Upd.comp (State_raise_mut ..) <;> first | decide | skip)
    | (with_reducible apply Upd.comp (State_setSess_mut ..) <;> first | decide | skip)
    | split

theorem State_tpFail_mut (i : Nat) (reason : Nat) (s : State) : Upd [.cyc, .bus, .rcd] (some [0xC1, 0xCE]) s (State.tpFail i reason s) := by
  unfold State.tpFail
  repeat' first
    | with_reducible apply Upd.refl
    | (with_reducible apply Upd.comp (State_tpAbortTx_mut ..) <;> first | decide | skip)
    | (with_reducible apply Upd.comp (State_tpEnd_mut ..) <;> first | decide | skip)
    | split

theorem State_tpTimeUp_mut (i : Nat) (t : TpSess) (s : State) : Upd [.cyc, .bus, .rcd] (some [0xC1, 0xCE]) s (State.tpTimeUp i t s) := by
  unfold State.tpTimeUp
  repeat' first
    | with_reducible apply Upd.refl
    | (with_reducible apply Upd.comp (State_tpFail_mut ..) <;> first | decide | skip)
    | (with_reducible apply Upd.comp (State_tpEnd_mut ..) <;> first | decide | skip)
    | split

theorem State_tpExpire_mut (s : State) : Upd [.cyc, .bus, .rcd] (some [0xC1, 0xCE]) s (State.tpExpire s) := by
  unfold State.tpExpire
  repeat' first
    | with_reducible assumption
    | with_reducible apply Upd.refl
    | (with_reducible apply Upd.comp (State_tpTimeUp_mut ..) <;> first | decide | skip)
    | (with_reducible apply Upd.foldl <;> first | (intro y a ha hy; skip) | skip)
    | split

theorem State_tpBlock_mut (i : Nat) (t : TpSess) (first : Nat) (last : Nat) (s : State) : Upd [.bus] (some []) s (State.tpBlock i t first last s) := by
  unfold State.tpBlock
  repeat' first
    | (extract_lets +onlyGivenNames x; refine Upd.cut (P := [.bus]) (W := (some [])) (s := s) (x := x) ?_ (fun hx => ?_); rotate_left; clear_value x; rotate_left; subst x)
    | with_reducible assumption
    | with_reducible apply Upd.refl
    | (with_reducible apply Upd.comp (State_tpPush_mut ..) <;> first | decide | skip)
    | (with_reducible apply Upd.comp (State_setSess_mut ..) <;> first | decide | skip)
    | (with_reducible apply Upd.foldl <;> first | (intro y a ha hy; skip) | skip)
    | split

theorem State_tpStray_mut (n : Nat) (s : State) : Upd [] (some [0xCE]) s (State.tpStray n s) := by
  unfold State.tpStray
  repeat' first
    | with_reducible apply Upd.refl
    | (with_reducible apply State_bump_step (w := 0xCE); rotate_left; decide; simp only [windowOf, BUS_C_TPCNT, BUS_C_TPCNT.STRAY] <;> omega)

theorem State_tpCtsRx_mut (i : Nat) (t : TpSess) (k : Nat) (next : Nat) (id : Nat) (sof : Nat) (s : State) : Upd [.cyc, .bus, .rcd] (some [0xC1, 0xCE]) s (State.tpCtsRx i t k next id sof s) := by
  unfold State.tpCtsRx
  repeat' first
    | (extract_lets +onlyGivenNames x; subst x)
    | with_reducible apply Upd.refl
    | (with_reducible apply Upd.comp (State_tpFail_mut ..) <;> first | decide | skip)
    | (with_reducible apply Upd.comp (State_tpStray_mut ..) <;> first | decide | skip)
    | (with_reducible apply Upd.comp (State_setSess_mut ..) <;> first | decide | skip)
    | (with_reducible apply Upd.comp (State_tpBlock_mut ..) <;> first | decide | skip)
    | split

theorem State_tpCts_mut (i : Nat) (s : State) : Upd [.bus] (some []) s (State.tpCts i s) := by
  unfold State.tpCts
  repeat' first
    | (extract_lets +onlyGivenNames x; refine Upd.cut (P := [.bus]) (W := (some [])) (s := s) (x := x) ?_ (fun hx => ?_); rotate_left; clear_value x; rotate_left; subst x)
    | (extract_lets +onlyGivenNames x; subst x)
    | with_reducible assumption
    | with_reducible apply Upd.refl
    | (with_reducible apply Upd.comp (State_tpPush_mut ..) <;> first | decide | skip)
    | (with_reducible apply Upd.comp (State_setSess_mut ..) <;> first | decide | skip)
    | split

theorem State_tpOpen_mut (n : Nat) (kind : Nat) (peer : Nat) (own : Nat) (pgn : Nat) (size : Nat) (maxPk : Nat) (k : Nat) (id : Nat) (sof : Nat) (s : State) : Upd [.cyc, .gens, .bus, .rcd] (some [0xC1, 0xCE]) s (State.tpOpen n kind peer own pgn size maxPk k id sof s) := by
  unfold State.tpOpen
  repeat' first
    | (extract_lets +onlyGivenNames x; refine Upd.cut (P := [.cyc, .gens, .bus, .rcd]) (W := (some [0xC1, 0xCE])) (s := s) (x := x) ?_ (fun hx => ?_); rotate_left; clear_value x; rotate_left; subst x)
    | (extract_lets +onlyGivenNames x; subst x)
    | with_reducible assumption
    | with_reducible apply Upd.refl
    | (with_reducible apply Upd.comp (State_tpAbortTx_mut ..) <;> first | decide | skip)
    | (with_reducible apply Upd.comp (State_tpCts_mut ..) <;> first | decide | skip)
    | (with_reducible apply State_bump_step (w := 0xCE); rotate_left; decide; simp only [windowOf, BUS_C_TPCNT, BUS_C_TPCNT.RATE_DROP, BUS_C_TPCNT.SRC_LIM, BUS_C_TPCNT2, BUS_C_TPCNT2.ABORT_TX] <;> omega)
    | (with_reducible apply Upd.comp (State_busShow_mut ..) <;> first | decide | skip)
    | (with_reducible apply Upd.comp (State_advGen_mut ..) <;> first | decide | skip)
    | (with_reducible apply Upd.comp (State_canAlert_mut ..) <;> first | decide | skip)
    | (with_reducible apply Upd.comp (State_setSess_mut ..) <;> first | decide | skip)
    | split

theorem State_tpControl_mut (n : Nat) (f : CanFrame) (kind : Nat) (d : List Sys2Proof.Byte) (k : Nat) (s : State) : Upd [.free, .cyc, .gens, .bus, .rcd] (some [0xC1, 0xCE]) s (State.tpControl n f kind d k s) := by
  unfold State.tpControl
  repeat' first
    | (extract_lets +onlyGivenNames x; refine Upd.cut (P := [.free, .cyc, .gens, .bus, .rcd]) (W := (some [0xC1, 0xCE])) (s := s) (x := x) ?_ (fun hx => ?_); rotate_left; clear_value x; rotate_left; subst x)
    | (extract_lets +onlyGivenNames x; subst x)
    | with_reducible assumption
    | with_reducible apply Upd.refl
    | (with_reducible apply Upd.comp (State_tpFail_mut ..) <;> first | decide | skip)
    | (with_reducible apply Upd.comp (State_tpStray_mut ..) <;> first | decide | skip)
    | (with_reducible apply Upd.comp (State_tpEnd_mut ..) <;> first | decide | skip)
    | (with_reducible apply Upd.comp (State_setSess_mut ..) <;> first | decide | skip)
    | (with_reducible apply Upd.comp (State_tpOpen_mut ..) <;> first | decide | skip)
    | (with_reducible apply Upd.comp (State_drawn_mut ..) <;> first | decide | skip)
    | (with_reducible apply Upd.comp (State_tpCtsRx_mut ..) <;> first | decide | skip)
    | (with_reducible apply Upd.foldl <;> first | (intro y a ha hy; skip) | skip)
    | split

theorem State_tpCount_mut (n : Nat) (sa : Nat) (sof : Nat) (s : State) : SndUpd [.bus] (some []) s (State.tpCount n sa sof s) := by
  unfold State.tpCount
  repeat' first
    | (extract_lets +onlyGivenNames x; subst x)
    | with_reducible apply Upd.refl
    | (with_reducible show SndUpd _ _ _ _; with_reducible rw [State.snd_pair]; with_reducible apply SndUpd.mk)
    | (with_reducible apply Upd.comp (State_setCtl_mut ..) <;> first | decide | skip)

theorem State_tpData_mut (i : Nat) (t : TpSess) (data : List Sys2Proof.Byte) (id : Nat) (sof : Nat) (s : State) : Upd [.dram, .cyc, .bus, .rcd] (some [0xC1, 0xCE]) s (State.tpData i t data id sof s) := by
  unfold State.tpData
  repeat' first
    | (extract_lets +onlyGivenNames x; refine Upd.cut (P := [.dram, .cyc, .bus, .rcd]) (W := (some [0xC1, 0xCE])) (s := s) (x := x) ?_ (fun hx => ?_); rotate_left; clear_value x; rotate_left; subst x)
    | (extract_lets +onlyGivenNames x; subst x)
    | with_reducible assumption
    | with_reducible apply Upd.refl
    | (with_reducible apply Upd.comp (State_tpCts_mut ..) <;> first | decide | skip)
    | (with_reducible apply Upd.comp (State_dramPuts_mut ..) <;> first | decide | skip)
    | (with_reducible apply Upd.comp (State_tpFail_mut ..) <;> first | decide | skip)
    | (with_reducible apply Upd.comp (State_tpPush_mut ..) <;> first | decide | skip)
    | (with_reducible apply Upd.comp (State_tpEnd_mut ..) <;> first | decide | skip)
    | (with_reducible apply Upd.comp (State_setSess_mut ..) <;> first | decide | skip)
    | split

theorem State_tpRx_mut (n : Nat) (f : CanFrame) (s : State) : Upd [.dram, .free, .cyc, .gens, .bus, .rcd] (some [0xC1, 0xCE]) s (State.tpRx n f s) := by
  unfold State.tpRx
  repeat' first
    | (extract_lets +onlyGivenNames x; subst x)
    | with_reducible apply Upd.refl
    | (with_reducible apply Upd.comp (State_tpStray_mut ..) <;> first | decide | skip)
    | (with_reducible apply Upd.comp (State_tpControl_mut ..) <;> first | decide | skip)
    | (with_reducible apply Upd.comp (State_tpData_mut ..) <;> first | decide | skip)
    | (with_reducible apply SndUpd.comp (State_tpCount_mut ..) <;> first | decide | skip)
    | (with_reducible show Upd _ _ _ _; with_reducible rw [State.snd_box]; with_reducible apply SndUpd.out)
    | split

theorem State_canRx_mut (n : Nat) (f : CanFrame) (s : State) : Upd [.dram, .free, .cyc, .gens, .yld, .bus, .rcd] (some [0xC0, 0xC1, 0xCD, 0xCE]) s (State.canRx n f s) := by
  unfold State.canRx
  repeat' first
    | (extract_lets +onlyGivenNames x; refine Upd.cut (P := [.dram, .free, .cyc, .gens, .yld, .bus, .rcd]) (W := (some [0xC0, 0xC1, 0xCD, 0xCE])) (s := s) (x := x) ?_ (fun hx => ?_); rotate_left; clear_value x; rotate_left; subst x)
    | (extract_lets +onlyGivenNames x; subst x)
    | with_reducible assumption
    | with_reducible apply Upd.refl
    | (with_reducible apply Upd.comp (State_tpExpire_mut ..) <;> first | decide | skip)
    | (with_reducible apply Upd.comp (State_tpRx_mut ..) <;> first | decide | skip)
    | (with_reducible apply Upd.comp (State_ownRx_mut ..) <;> first | decide | skip)
    | (with_reducible apply Upd.comp (State_canStore_mut ..) <;> first | decide | skip)
    | split

theorem execTpFrameRx_mut (n : Fin 8) (id : BitVec 29) (data : List Sys2Proof.Byte) (sof : Nat) (s : State) : OutUpd [.dram, .free, .cyc, .gens, .yld, .bus, .rcd] (some [0xC0, 0xC1, 0xCD, 0xCE]) s (execTpFrameRx n id data sof s) := by
  unfold execTpFrameRx
  repeat' first
    | (extract_lets +onlyGivenNames x; subst x)
    | with_reducible apply Upd.refl
    | with_reducible apply OutUpd.next
    | (with_reducible apply Upd.comp (State_recDown_mut ..) <;> first | decide | skip)
    | (with_reducible apply Upd.comp (State_canRx_mut ..) <;> first | decide | skip)
    | split

theorem opTpAbort_mut (c : Cmd) (s : State) (hc : c.blk = 0x0E) : Upd [.dram, .cyc, .rings, .bus, .rcd] (some [0xC1, 0xCE]) s (opTpAbort c s) := by
  unfold opTpAbort
  repeat' first
    | (extract_lets +onlyGivenNames x; refine Upd.cut (P := [.dram, .cyc, .rings, .bus, .rcd]) (W := (some [0xC1, 0xCE])) (s := s) (x := x) ?_ (fun hx => ?_); rotate_left; clear_value x; rotate_left; subst x)
    | (extract_lets +onlyGivenNames x; subst x)
    | with_reducible assumption
    | with_reducible apply Upd.refl
    | (with_reducible apply Upd.comp (State_tpAbortTx_mut ..) <;> first | decide | skip)
    | (with_reducible apply Upd.comp (State_tpExpire_mut ..) <;> first | decide | skip)
    | (with_reducible apply Upd.comp (State_tpEnd_mut ..) <;> first | decide | skip)
    | (with_reducible apply Upd.comp (Cmd_finish_mut (b := 0x0E) ..) <;> first | decide | skip)
    | split

theorem State_tpSent_mut (f : TpTx) (sof : Nat) (s : State) : Upd [.cyc, .bus, .rcd] (some [0xC1]) s (State.tpSent f sof s) := by
  unfold State.tpSent
  repeat' first
    | (extract_lets +onlyGivenNames x; refine Upd.cut (P := [.cyc, .bus, .rcd]) (W := (some [0xC1])) (s := s) (x := x) ?_ (fun hx => ?_); rotate_left; clear_value x; rotate_left; subst x)
    | (extract_lets +onlyGivenNames x; subst x)
    | with_reducible assumption
    | with_reducible apply Upd.refl
    | (with_reducible apply Upd.comp (State_tpEnd_mut ..) <;> first | decide | skip)
    | (with_reducible apply Upd.comp (State_setSess_mut ..) <;> first | decide | skip)
    | split

theorem execCanTxDone_mut (n : Fin 8) (x : Option (Fin 2048)) (sof : Nat) (s : State) : OutUpd [.latch, .dram, .free, .cyc, .rings, .gens, .yld, .bus, .rcd] (some [0xC0, 0xC1, 0xCD, 0xCE]) s (execCanTxDone n x sof s) := by
  unfold execCanTxDone
  repeat' first
    | (extract_lets +onlyGivenNames x; refine Upd.cut (P := [.latch, .dram, .free, .cyc, .rings, .gens, .yld, .bus, .rcd]) (W := (some [0xC0, 0xC1, 0xCD, 0xCE])) (s := s) (x := x) ?_ (fun hx => ?_); rotate_left; clear_value x; rotate_left; subst x)
    | (extract_lets +onlyGivenNames x; subst x)
    | with_reducible assumption
    | with_reducible apply Upd.refl
    | with_reducible apply OutUpd.next
    | (with_reducible apply Upd.comp (State_tpSent_mut ..) <;> first | decide | skip)
    | (with_reducible apply Upd.comp (State_tecDown_mut ..) <;> first | decide | skip)
    | (with_reducible apply Upd.comp (State_objSent_mut ..) <;> first | decide | skip)
    | (with_reducible apply Upd.comp (State_setCtl_mut ..) <;> first | decide | skip)
    | (with_reducible apply Upd.comp (State_canRx_mut ..) <;> first | decide | skip)
    | split

theorem execCanTxError_mut (n : Fin 8) (x : Option (Fin 2048)) (kind : Fin 4) (s : State) : OutUpd [.latch, .dram, .cyc, .rings, .bus, .rcd] (some [0xC1, 0xCE]) s (execCanTxError n x kind s) := by
  unfold execCanTxError
  repeat' first
    | with_reducible apply Upd.refl
    | with_reducible apply OutUpd.next
    | (with_reducible apply Upd.comp (State_objError_mut ..) <;> first | decide | skip)
    | (with_reducible apply Upd.comp (State_tecUp_mut ..) <;> first | decide | skip)
    | split

theorem execCanFrameRx_mut (n : Fin 8) (id : BitVec 31) (fdf : Bool) (brs : Bool) (esi : Bool) (dlc : Fin 16) (data : List Sys2Proof.Byte) (sof : Nat) (s : State) : OutUpd [.dram, .free, .cyc, .gens, .yld, .bus, .rcd] (some [0xC0, 0xC1, 0xCD, 0xCE]) s (execCanFrameRx n id fdf brs esi dlc data sof s) := by
  unfold execCanFrameRx
  repeat' first
    | (extract_lets +onlyGivenNames x; subst x)
    | with_reducible apply Upd.refl
    | with_reducible apply OutUpd.next
    | (with_reducible apply Upd.comp (State_recDown_mut ..) <;> first | decide | skip)
    | (with_reducible apply Upd.comp (State_canRx_mut ..) <;> first | decide | skip)
    | split

theorem execTpAbort_mut (ring : Fin 8) (e : Sys2Proof.Entry) (s : State) : OutUpd [.dram, .cyc, .rings, .bus, .rcd] (some [0xC1, 0xCE]) s (execTpAbort ring e s) := by
  unfold execTpAbort
  repeat' first
    | with_reducible assumption
    | with_reducible apply Upd.refl
    | with_reducible apply OutUpd.next
    | (with_reducible apply Upd.comp (State_runRow_mut (P := [.dram, .cyc, .rings, .bus, .rcd]) (W := [0xC1, 0xCE]) ..) <;> first | decide | skip)
    | (with_reducible apply Upd.comp (opTpAbort_mut ..) <;> first | decide | skip)
    | (intro c u hc)

theorem opTpSend_mut (c : Cmd) (s : State) (hc : c.blk = 0x0E) : Upd [.dram, .cyc, .rings, .gens, .bus, .rcd] (some [0xC1, 0xCE]) s (opTpSend c s) := by
  unfold opTpSend
  repeat' first
    | (extract_lets +onlyGivenNames x; refine Upd.cut (P := [.dram, .cyc, .rings, .gens, .bus, .rcd]) (W := (some [0xC1, 0xCE])) (s := s) (x := x) ?_ (fun hx => ?_); rotate_left; clear_value x; rotate_left; subst x)
    | (extract_lets +onlyGivenNames x; subst x)
    | with_reducible assumption
    | with_reducible apply Upd.refl
    | (with_reducible apply Upd.comp (Cmd_created_mut (b := 0x0E) ..) <;> first | decide | skip)
    | (with_reducible apply Upd.comp (State_busShow_mut ..) <;> first | decide | skip)
    | (with_reducible apply Upd.comp (State_tpExpire_mut ..) <;> first | decide | skip)
    | (with_reducible apply Upd.comp (State_advGen_mut ..) <;> first | decide | skip)
    | (with_reducible apply Upd.comp (State_tpPush_mut ..) <;> first | decide | skip)
    | (with_reducible apply Upd.comp (Cmd_failed_mut (b := 0x0E) ..) <;> first | decide | skip)
    | (with_reducible apply Upd.comp (State_setSess_mut ..) <;> first | decide | skip)
    | split

theorem execTpTimeout_mut (i : Fin 32) (s : State) : OutUpd [.cyc, .bus, .rcd] (some [0xC1, 0xCE]) s (execTpTimeout i s) := by
  unfold execTpTimeout
  repeat' first
    | with_reducible apply Upd.refl
    | with_reducible apply OutUpd.next
    | (with_reducible apply Upd.comp (State_tpTimeUp_mut ..) <;> first | decide | skip)
    | split

theorem execBamGap_mut (i : Fin 32) (s : State) : OutUpd [.bus] (some []) s (execBamGap i s) := by
  unfold execBamGap
  repeat' first
    | (extract_lets +onlyGivenNames x; refine Upd.cut (P := [.bus]) (W := (some [])) (s := s) (x := x) ?_ (fun hx => ?_); rotate_left; clear_value x; rotate_left; subst x)
    | with_reducible assumption
    | with_reducible apply Upd.refl
    | with_reducible apply OutUpd.next
    | (with_reducible apply Upd.comp (State_tpPush_mut ..) <;> first | decide | skip)
    | (with_reducible apply Upd.comp (State_setSess_mut ..) <;> first | decide | skip)
    | split

theorem execTpSend_mut (ring : Fin 8) (e : Sys2Proof.Entry) (s : State) : OutUpd [.dram, .cyc, .rings, .gens, .bus, .rcd] (some [0xC1, 0xCE]) s (execTpSend ring e s) := by
  unfold execTpSend
  repeat' first
    | with_reducible assumption
    | with_reducible apply Upd.refl
    | with_reducible apply OutUpd.next
    | (with_reducible apply Upd.comp (State_runRow_mut (P := [.dram, .cyc, .rings, .gens, .bus, .rcd]) (W := [0xC1, 0xCE]) ..) <;> first | decide | skip)
    | (with_reducible apply Upd.comp (opTpSend_mut ..) <;> first | decide | skip)
    | (intro c u hc)

theorem execTpDelivery_mut (i : Fin 32) (s : State) : OutUpd [.dram, .cyc, .bus, .rcd] (some [0xC1, 0xCE]) s (execTpDelivery i s) := by
  unfold execTpDelivery
  repeat' first
    | (extract_lets +onlyGivenNames x; refine Upd.cut (P := [.dram, .cyc, .bus, .rcd]) (W := (some [0xC1, 0xCE])) (s := s) (x := x) ?_ (fun hx => ?_); rotate_left; clear_value x; rotate_left; subst x)
    | (extract_lets +onlyGivenNames x; subst x)
    | with_reducible assumption
    | with_reducible apply Upd.refl
    | with_reducible apply OutUpd.next
    | (with_reducible apply Upd.comp (State_busShow_mut ..) <;> first | decide | skip)
    | (with_reducible apply Upd.comp (State_raise_mut ..) <;> first | decide | skip)
    | (with_reducible apply Upd.comp (State_setSess_mut ..) <;> first | decide | skip)
    | (with_reducible apply Upd.comp (State_qPut_mut ..) <;> first | decide | skip)
    | (with_reducible show Upd _ _ _ _; with_reducible rw [State.mk_box]; with_reducible apply Upd.box <;> first | (left; with_reducible rfl) | (right; decide) | skip)
    | split

end Sys2Proof.Machine
end

