-- ==== Sys2Proof/Laws/MutCam.lean ====
section
/-! SUPPORT. What each operation of Machine/Cam.lean may change (`Upd`): its parts of the state and its register windows. -/

namespace Sys2Proof.Machine

set_option Elab.async false
set_option linter.unusedSimpArgs false
set_option linter.unusedTactic false
set_option linter.unreachableTactic false
set_option linter.unnecessarySeqFocus false
set_option maxRecDepth 20000

theorem State_camShow_mut (s : State) : Upd [] (some [0xC9]) s (State.camShow s) := by
  unfold State.camShow
  repeat' first
    | (extract_lets +onlyGivenNames x; refine Upd.cut (P := []) (W := (some [0xC9])) (s := s) (x := x) ?_ (fun hx => ?_); rotate_left; clear_value x; rotate_left; subst x)
    | (extract_lets +onlyGivenNames x; subst x)
    | with_reducible assumption
    | with_reducible apply Upd.refl
    | (with_reducible apply State_setB_step (w := 0xC9); rotate_left; decide; simp only [windowOf, CAM_CTX_CSEQ, CAM_CTX_STAT, CAM_CTX_STAT.BUFQ, CAM_CTX_STAT.LIVE, CAM_CTX_STAT.PL, CAM_CTX_STAT.SRC, CAM_LNK_STORE, CAM_LNK_STORE.PEAK, CAM_LNK_STORE.USED, CAM_PL_STAT, CAM_PL_STAT.BUSY, CAM_PL_STAT.CTX, CAM_PL_STAT.WAITING, CAM_STATUS, CAM_STATUS.CONTEXTS, CAM_STATUS.LINKS_UP] <;> omega)
    | (with_reducible apply State_setReg_step (w := 0xC9); rotate_left; decide; simp only [windowOf, CAM_CTX_CSEQ, CAM_CTX_STAT, CAM_CTX_STAT.BUFQ, CAM_CTX_STAT.LIVE, CAM_CTX_STAT.PL, CAM_CTX_STAT.SRC, CAM_LNK_STORE, CAM_LNK_STORE.PEAK, CAM_LNK_STORE.USED, CAM_PL_STAT, CAM_PL_STAT.BUSY, CAM_PL_STAT.CTX, CAM_PL_STAT.WAITING, CAM_STATUS, CAM_STATUS.CONTEXTS, CAM_STATUS.LINKS_UP] <;> omega)
    | (with_reducible apply State_set_step (w := 0xC9); rotate_left; decide; simp only [windowOf, CAM_CTX_CSEQ, CAM_CTX_STAT, CAM_CTX_STAT.BUFQ, CAM_CTX_STAT.LIVE, CAM_CTX_STAT.PL, CAM_CTX_STAT.SRC, CAM_LNK_STORE, CAM_LNK_STORE.PEAK, CAM_LNK_STORE.USED, CAM_PL_STAT, CAM_PL_STAT.BUSY, CAM_PL_STAT.CTX, CAM_PL_STAT.WAITING, CAM_STATUS, CAM_STATUS.CONTEXTS, CAM_STATUS.LINKS_UP] <;> omega)
    | (with_reducible apply Upd.foldl <;> first | (intro y a ha hy; skip) | skip)
    | split

theorem State_setFrame_mut (k : Nat) (f : CamFrame) (s : State) : Upd [.cam] (some []) s (State.setFrame k f s) := by
  unfold State.setFrame
  repeat' first
    | (extract_lets +onlyGivenNames x; subst x)
    | with_reducible apply Upd.refl
    | (with_reducible show Upd _ _ _ _; with_reducible rw [State.mk_box]; with_reducible apply Upd.box <;> first | (left; with_reducible rfl) | (right; decide) | skip)

theorem State_modFrame_mut (k : Nat) (g : CamFrame → CamFrame) (s : State) : Upd [.cam] (some []) s (State.modFrame k g s) := by
  unfold State.modFrame
  repeat' first
    | with_reducible apply Upd.refl
    | (with_reducible apply Upd.comp (State_setFrame_mut ..) <;> first | decide | skip)
    | split

theorem State_fenDropFrame_mut (k : Nat) (s : State) : Upd [.cyc, .cam, .rcd] (some [0xC1, 0xC9]) s (State.fenDropFrame k s) := by
  unfold State.fenDropFrame
  repeat' first
    | with_reducible apply Upd.refl
    | (with_reducible apply State_bump_step (w := 0xC9); rotate_left; decide; simp only [windowOf, CAM_FEN_DROP, CAM_FEN_DROP.FRAMES] <;> omega)
    | (with_reducible apply Upd.comp (State_modFrame_mut ..) <;> first | decide | skip)
    | (with_reducible apply Upd.comp (State_raise_mut ..) <;> first | decide | skip)

theorem State_putRow_mut (k : Nat) (y : Nat) (above : Option PixRow) (here : Option PixRow) (below : Option PixRow) (s : State) : Upd [.dram, .free, .cyc, .cam, .fen, .rcd] (some [0xC1, 0xC9, 0xCA]) s (State.putRow k y above here below s) := by
  unfold State.putRow
  repeat' first
    | (extract_lets +onlyGivenNames x; refine Upd.cut (P := [.dram, .free, .cyc, .cam, .fen, .rcd]) (W := (some [0xC1, 0xC9, 0xCA])) (s := s) (x := x) ?_ (fun hx => ?_); rotate_left; clear_value x; rotate_left; subst x)
    | (extract_lets +onlyGivenNames x; subst x)
    | with_reducible assumption
    | with_reducible apply Upd.refl
    | (with_reducible apply FstUpd.comp (State_fenLine_mut ..) <;> first | decide | skip)
    | (with_reducible apply Upd.comp (State_fenDropFrame_mut ..) <;> first | decide | skip)
    | (with_reducible apply Upd.comp (State_blockPuts_mut ..) <;> first | decide | skip)
    | (with_reducible refine FstUpd.of_eq ?_ (by assumption))
    | (with_reducible show Upd _ _ _ _; with_reducible rw [State.mk_box]; with_reducible apply Upd.box <;> first | (left; with_reducible rfl) | (right; decide) | skip)
    | split

theorem State_setPipe_mut (p : Nat) (v : CamPipe) (s : State) : Upd [.cam] (some []) s (State.setPipe p v s) := by
  unfold State.setPipe
  repeat' first
    | (extract_lets +onlyGivenNames x; subst x)
    | with_reducible apply Upd.refl
    | (with_reducible show Upd _ _ _ _; with_reducible rw [State.mk_box]; with_reducible apply Upd.box <;> first | (left; with_reducible rfl) | (right; decide) | skip)

theorem State_pipelineLine_mut (p : Nat) (s : State) : Upd [.dram, .free, .cyc, .cam, .fen, .rcd] (some [0xC1, 0xC9, 0xCA]) s (State.pipelineLine p s) := by
  unfold State.pipelineLine
  repeat' first
    | (extract_lets +onlyGivenNames x; refine Upd.cut (P := [.dram, .free, .cyc, .cam, .fen, .rcd]) (W := (some [0xC1, 0xC9, 0xCA])) (s := s) (x := x) ?_ (fun hx => ?_); rotate_left; clear_value x; rotate_left; subst x)
    | (extract_lets +onlyGivenNames x; subst x)
    | with_reducible assumption
    | with_reducible apply Upd.refl
    | (with_reducible apply State_bump_step (w := 0xC9); rotate_left; decide; simp only [windowOf, CAM_CTX_STAT, CAM_CTX_STAT.PAL_SKIP, CamFrame.ctx] <;> omega)
    | (with_reducible apply Upd.comp (State_setFrame_mut ..) <;> first | decide | skip)
    | (with_reducible apply Upd.comp (State_camShow_mut ..) <;> first | decide | skip)
    | (with_reducible apply Upd.comp (State_putRow_mut ..) <;> first | decide | skip)
    | (with_reducible apply Upd.comp (State_setPipe_mut ..) <;> first | decide | skip)
    | (with_reducible show Upd _ _ _ _; with_reducible rw [State.mk_box]; with_reducible apply Upd.box <;> first | (left; with_reducible rfl) | (right; decide) | skip)
    | split

theorem execPipelineLine_mut (p : Fin 8) (s : State) : OutUpd [.dram, .free, .cyc, .cam, .fen, .rcd] (some [0xC1, 0xC9, 0xCA]) s (execPipelineLine p s) := by
  unfold execPipelineLine
  repeat' first
    | with_reducible apply Upd.refl
    | with_reducible apply OutUpd.next
    | (with_reducible apply Upd.comp (State_pipelineLine_mut ..) <;> first | decide | skip)

theorem State_ctxMaybeFree_mut (x : Nat) (s : State) : Upd [.dram, .cyc, .rings, .cam, .rcd] (some [0xC1, 0xC9]) s (State.ctxMaybeFree x s) := by
  unfold State.ctxMaybeFree
  repeat' first
    | (extract_lets +onlyGivenNames x; refine Upd.cut (P := [.dram, .cyc, .rings, .cam, .rcd]) (W := (some [0xC1, 0xC9])) (s := s) (x := x) ?_ (fun hx => ?_); rotate_left; clear_value x; rotate_left; subst x)
    | (extract_lets +onlyGivenNames x; subst x)
    | with_reducible assumption
    | with_reducible apply Upd.refl
    | (with_reducible apply Upd.comp (State_completeSelf_mut ..) <;> first | decide | skip)
    | (with_reducible show Upd _ _ _ _; with_reducible rw [State.mk_box]; with_reducible apply Upd.box <;> first | (left; with_reducible rfl) | (right; decide) | skip)
    | split

theorem execPocShort_mut (l : Fin 4) (s : State) : OutUpd [.cyc, .rcd] (some [0xC1, 0xC9]) s (execPocShort l s) := by
  unfold execPocShort
  repeat' first
    | (extract_lets +onlyGivenNames x; refine Upd.cut (P := [.cyc, .rcd]) (W := (some [0xC1, 0xC9])) (s := s) (x := x) ?_ (fun hx => ?_); rotate_left; clear_value x; rotate_left; subst x)
    | (extract_lets +onlyGivenNames x; subst x)
    | with_reducible assumption
    | with_reducible apply Upd.refl
    | with_reducible apply OutUpd.next
    | (with_reducible apply State_setB_step (w := 0xC9); rotate_left; decide; simp only [windowOf, CAM_LNK_STAT, CAM_LNK_STAT.POC_MA, CAM_LNK_STAT.POC_ON, CAM_LNK_STAT.POC_OPEN, CAM_LNK_STAT.POC_SHORT] <;> omega)
    | (with_reducible apply State_set_step (w := 0xC9); rotate_left; decide; simp only [windowOf, CAM_LNK_STAT, CAM_LNK_STAT.POC_MA, CAM_LNK_STAT.POC_ON, CAM_LNK_STAT.POC_OPEN, CAM_LNK_STAT.POC_SHORT] <;> omega)
    | (with_reducible apply Upd.comp (State_raise_mut ..) <;> first | decide | skip)
    | split

theorem State_flushLast_mut (k : Nat) (s : State) : Upd [.dram, .free, .cyc, .cam, .fen, .rcd] (some [0xC1, 0xC9, 0xCA]) s (State.flushLast k s) := by
  unfold State.flushLast
  repeat' first
    | with_reducible apply Upd.refl
    | (with_reducible apply Upd.comp (State_putRow_mut ..) <;> first | decide | skip)
    | split

theorem State_dropFrame_mut (k : Nat) (flag : Nat) (s : State) : Upd [.cam] (some []) s (State.dropFrame k flag s) := by
  unfold State.dropFrame
  repeat' first
    | with_reducible apply Upd.refl
    | (with_reducible apply Upd.comp (State_modFrame_mut ..) <;> first | decide | skip)

theorem State_setCtxC_mut (x : Nat) (c : CamCtx) (s : State) : Upd [.cam] (some []) s (State.setCtxC x c s) := by
  unfold State.setCtxC
  repeat' first
    | (extract_lets +onlyGivenNames x; subst x)
    | with_reducible apply Upd.refl
    | (with_reducible show Upd _ _ _ _; with_reducible rw [State.mk_box]; with_reducible apply Upd.box <;> first | (left; with_reducible rfl) | (right; decide) | skip)

theorem opCtxDestroy_mut (c : Cmd) (s : State) (hc : c.blk = 0x09) : Upd [.dram, .cyc, .rings, .cam, .rcd] (some [0xC1, 0xC9]) s (opCtxDestroy c s) := by
  unfold opCtxDestroy
  repeat' first
    | (extract_lets +onlyGivenNames x; refine Upd.cut (P := [.dram, .cyc, .rings, .cam, .rcd]) (W := (some [0xC1, 0xC9])) (s := s) (x := x) ?_ (fun hx => ?_); rotate_left; clear_value x; rotate_left; subst x)
    | (extract_lets +onlyGivenNames x; subst x)
    | with_reducible assumption
    | with_reducible apply Upd.refl
    | (with_reducible apply Upd.comp (State_setCtxC_mut ..) <;> first | decide | skip)
    | (with_reducible apply Upd.comp (State_dropFrame_mut ..) <;> first | decide | skip)
    | (with_reducible apply Upd.comp (State_camShow_mut ..) <;> first | decide | skip)
    | (with_reducible apply Upd.comp (State_ctxMaybeFree_mut ..) <;> first | decide | skip)
    | (with_reducible apply Upd.comp (Cmd_finish_mut (b := 0x09) ..) <;> first | decide | skip)
    | (with_reducible apply Upd.foldl <;> first | (intro y a ha hy; skip) | skip)
    | split

theorem State_setPoc_mut (l : Nat) (on : Bool) (s : State) : Upd [] (some [0xC9]) s (State.setPoc l on s) := by
  unfold State.setPoc
  repeat' first
    | (extract_lets +onlyGivenNames x; refine Upd.cut (P := []) (W := (some [0xC9])) (s := s) (x := x) ?_ (fun hx => ?_); rotate_left; clear_value x; rotate_left; subst x)
    | with_reducible assumption
    | with_reducible apply Upd.refl
    | (with_reducible apply State_setB_step (w := 0xC9); rotate_left; decide; simp only [windowOf, CAM_LNK_STAT, CAM_LNK_STAT.POC_MA, CAM_LNK_STAT.POC_ON, CAM_LNK_STAT.POC_OPEN] <;> omega)
    | (with_reducible apply State_set_step (w := 0xC9); rotate_left; decide; simp only [windowOf, CAM_LNK_STAT, CAM_LNK_STAT.POC_MA, CAM_LNK_STAT.POC_ON, CAM_LNK_STAT.POC_OPEN] <;> omega)
    | split

theorem State_closeFrame_mut (src : Nat) (fl : List Nat) (s : State) : Upd [.cam] (some []) s (State.closeFrame src fl s) := by
  unfold State.closeFrame
  repeat' first
    | (extract_lets +onlyGivenNames x; refine Upd.cut (P := [.cam]) (W := (some [])) (s := s) (x := x) ?_ (fun hx => ?_); rotate_left; clear_value x; rotate_left; subst x)
    | (extract_lets +onlyGivenNames x; subst x)
    | with_reducible assumption
    | with_reducible apply Upd.refl
    | (with_reducible apply Upd.comp (State_modFrame_mut ..) <;> first | decide | skip)
    | (with_reducible show Upd _ _ _ _; with_reducible rw [State.mk_box]; with_reducible apply Upd.box <;> first | (left; with_reducible rfl) | (right; decide) | skip)
    | split

theorem State_setUp_mut (l : Nat) (up : Bool) (s : State) : Upd [.cyc, .cam, .rcd] (some [0xC1, 0xC9]) s (State.setUp l up s) := by
  unfold State.setUp
  repeat' first
    | (extract_lets +onlyGivenNames x; refine Upd.cut (P := [.cyc, .cam, .rcd]) (W := (some [0xC1, 0xC9])) (s := s) (x := x) ?_ (fun hx => ?_); rotate_left; clear_value x; rotate_left; subst x)
    | with_reducible assumption
    | with_reducible apply Upd.refl
    | (with_reducible apply State_setB_step (w := 0xC9); rotate_left; decide; simp only [windowOf, CAM_LNK_STAT, CAM_LNK_STAT.GEAR, CAM_LNK_STAT.UP] <;> omega)
    | (with_reducible apply Upd.comp (State_camShow_mut ..) <;> first | decide | skip)
    | (with_reducible apply Upd.comp (State_closeFrame_mut ..) <;> first | decide | skip)
    | (with_reducible apply State_set_step (w := 0xC9); rotate_left; decide; simp only [windowOf, CAM_LNK_STAT, CAM_LNK_STAT.GEAR, CAM_LNK_STAT.UP] <;> omega)
    | (with_reducible apply Upd.comp (State_raise_mut ..) <;> first | decide | skip)
    | (with_reducible apply Upd.foldl <;> first | (intro y a ha hy; skip) | skip)
    | split

theorem State_camDisable_mut (s : State) : Upd [.dram, .cyc, .rings, .cam, .rcd] (some [0xC1, 0xC9]) s (State.camDisable s) := by
  unfold State.camDisable
  repeat' first
    | (extract_lets +onlyGivenNames x; refine Upd.cut (P := [.dram, .cyc, .rings, .cam, .rcd]) (W := (some [0xC1, 0xC9])) (s := s) (x := x) ?_ (fun hx => ?_); rotate_left; clear_value x; rotate_left; subst x)
    | with_reducible assumption
    | with_reducible apply Upd.refl
    | (with_reducible apply State_setB_step (w := 0xC9); rotate_left; decide; simp only [windowOf, CAM_CTRL, CAM_CTRL.ENABLE, CAM_LNK_CCI_STAT, CAM_LNK_CCI_STAT.BUSY, CAM_PL_STAT, CAM_PL_STAT.WAITING] <;> omega)
    | (with_reducible apply Upd.comp (State_camShow_mut ..) <;> first | decide | skip)
    | (with_reducible apply State_set_step (w := 0xC9); rotate_left; decide; simp only [windowOf, CAM_CTRL, CAM_CTRL.ENABLE, CAM_LNK_CCI_STAT, CAM_LNK_CCI_STAT.BUSY, CAM_PL_STAT, CAM_PL_STAT.WAITING] <;> omega)
    | (with_reducible apply Upd.comp (State_setUp_mut ..) <;> first | decide | skip)
    | (with_reducible apply Upd.comp (State_setPoc_mut ..) <;> first | decide | skip)
    | (with_reducible apply Upd.comp (State_completeSelf_mut ..) <;> first | decide | skip)
    | (with_reducible apply Upd.foldl <;> first | (intro y a ha hy; skip) | skip)
    | (with_reducible show Upd _ _ _ _; with_reducible rw [State.mk_box]; with_reducible apply Upd.box <;> first | (left; with_reducible rfl) | (right; decide) | skip)
    | split

theorem execCamDisable_mut (s : State) : OutUpd [.dram, .cyc, .rings, .cam, .rcd] (some [0xC1, 0xC9]) s (execCamDisable s) := by
  unfold execCamDisable
  repeat' first
    | with_reducible apply Upd.refl
    | with_reducible apply OutUpd.next
    | (with_reducible apply Upd.comp (State_camDisable_mut ..) <;> first | decide | skip)
    | split

/-- A command on a context: what its operation may change. -/
theorem onCtx_mut {P : List Comp} {W : List Nat} (c : Cmd) (f : Nat → CamCtx → State → State) (s : State) (hc : c.blk = 0x09)
    (hP : [Comp.rings, .dram, .rcd, .cyc].all (P.contains ·) = true) (hW : [0xC1, 0xC9].all (W.contains ·) = true)
    (h : ∀ x t u, Upd P (some W) u (f x t u)) : Upd P (some W) s (onCtx c f s) := by
  have hf (code : Nat) : Upd P (some W) s (c.finish code s) := (Cmd_finish_mut c code s hc (by decide)).mono hP (by simpa [winSub] using hW)
  unfold onCtx
  split
  · exact hf _
  · split
    · exact h _ _ _
    · exact hf _

theorem opCtxPalette_mut (c : Cmd) (s : State) (hc : c.blk = 0x09) : Upd [.dram, .cyc, .rings, .cam, .rcd] (some [0xC1, 0xC9]) s (opCtxPalette c s) := by
  unfold opCtxPalette
  repeat' first
    | (extract_lets +onlyGivenNames x; subst x)
    | with_reducible assumption
    | with_reducible apply Upd.refl
    | (with_reducible apply Upd.comp (State_setCtxC_mut ..) <;> first | decide | skip)
    | (with_reducible apply Upd.comp (onCtx_mut (P := [.dram, .cyc, .rings, .cam, .rcd]) (W := [0xC1, 0xC9]) ..) <;> first | decide | assumption | skip)
    | (intro x t u)
    | (with_reducible apply Upd.comp (Cmd_finish_mut (b := 0x09) ..) <;> first | decide | skip)
    | split

theorem execCtxPalette_mut (ring : Fin 1) (e : Sys2Proof.Entry) (s : State) : OutUpd [.dram, .cyc, .rings, .cam, .rcd] (some [0xC1, 0xC9]) s (execCtxPalette ring e s) := by
  unfold execCtxPalette
  repeat' first
    | with_reducible assumption
    | with_reducible apply Upd.refl
    | with_reducible apply OutUpd.next
    | (with_reducible apply Upd.comp (State_runRow_mut (P := [.dram, .cyc, .rings, .cam, .rcd]) (W := [0xC1, 0xC9]) ..) <;> first | decide | skip)
    | (with_reducible apply Upd.comp (opCtxPalette_mut ..) <;> first | decide | skip)
    | (intro c u hc)

theorem opCtxBind_mut (c : Cmd) (s : State) (hc : c.blk = 0x09) : Upd [.dram, .cyc, .rings, .cam, .rcd] (some [0xC1, 0xC9]) s (opCtxBind c s) := by
  unfold opCtxBind
  repeat' first
    | (extract_lets +onlyGivenNames x; subst x)
    | with_reducible assumption
    | with_reducible apply Upd.refl
    | (with_reducible apply Upd.comp (State_setCtxC_mut ..) <;> first | decide | skip)
    | (with_reducible apply Upd.comp (State_camShow_mut ..) <;> first | decide | skip)
    | (with_reducible apply Upd.comp (onCtx_mut (P := [.dram, .cyc, .rings, .cam, .rcd]) (W := [0xC1, 0xC9]) ..) <;> first | decide | assumption | skip)
    | (intro x t u)
    | (with_reducible apply Upd.comp (Cmd_finish_mut (b := 0x09) ..) <;> first | decide | skip)
    | split

theorem execCtxBind_mut (ring : Fin 1) (e : Sys2Proof.Entry) (s : State) : OutUpd [.dram, .cyc, .rings, .cam, .rcd] (some [0xC1, 0xC9]) s (execCtxBind ring e s) := by
  unfold execCtxBind
  repeat' first
    | with_reducible assumption
    | with_reducible apply Upd.refl
    | with_reducible apply OutUpd.next
    | (with_reducible apply Upd.comp (State_runRow_mut (P := [.dram, .cyc, .rings, .cam, .rcd]) (W := [0xC1, 0xC9]) ..) <;> first | decide | skip)
    | (with_reducible apply Upd.comp (opCtxBind_mut ..) <;> first | decide | skip)
    | (intro c u hc)

theorem State_writeFrCi_mut (value : Sys2Proof.Word) (s : State) : Upd [] (some [0xC9]) s (State.writeFrCi value s) := by
  unfold State.writeFrCi
  repeat' first
    | (extract_lets +onlyGivenNames x; subst x)
    | with_reducible apply Upd.refl
    | (with_reducible apply State_set_step (w := 0xC9); rotate_left; decide; simp only [windowOf, CAM_FR_CI, CAM_FR_CI.CI] <;> omega)
    | split

theorem State_blurFrame_mut (k : Nat) (s : State) : Upd [.dram, .free, .fen] (some []) s (State.blurFrame k s) := by
  unfold State.blurFrame
  repeat' first
    | (extract_lets +onlyGivenNames x; refine Upd.cut (P := [.dram, .free, .fen]) (W := (some [])) (s := s) (x := x) ?_ (fun hx => ?_); rotate_left; clear_value x; rotate_left; subst x)
    | (extract_lets +onlyGivenNames x; subst x)
    | with_reducible assumption
    | with_reducible apply Upd.refl
    | (with_reducible apply Upd.comp (State_fenBlur_mut ..) <;> first | decide | skip)
    | (with_reducible apply Upd.comp (State_blockPuts_mut ..) <;> first | decide | skip)
    | (with_reducible apply Upd.foldl <;> first | (intro y a ha hy; skip) | skip)
    | (with_reducible show Upd _ _ _ _; with_reducible rw [State.mk_box]; with_reducible apply Upd.box <;> first | (left; with_reducible rfl) | (right; decide) | skip)
    | split

theorem State_lineCrc_mut (l : Nat) (s : State) : Upd [.cyc, .rcd] (some [0xC1, 0xC9]) s (State.lineCrc l s) := by
  unfold State.lineCrc
  repeat' first
    | (extract_lets +onlyGivenNames x; refine Upd.cut (P := [.cyc, .rcd]) (W := (some [0xC1, 0xC9])) (s := s) (x := x) ?_ (fun hx => ?_); rotate_left; clear_value x; rotate_left; subst x)
    | with_reducible assumption
    | with_reducible apply Upd.refl
    | (with_reducible apply State_bump_step (w := 0xC9); rotate_left; decide; simp only [windowOf, CAM_LNK_ERR, CAM_LNK_ERR.CRC] <;> omega)
    | (with_reducible apply Upd.comp (State_raise_mut ..) <;> first | decide | skip)
    | split

theorem dropUntil_mut (l : Nat) (n : Nat) (a2 : List Nat) (a3 : State) : Upd [.cyc, .cam, .rcd] (some [0xC1]) a3 (dropUntil l n a2 a3) := by
  induction a2 generalizing a3 with
  | nil =>
    unfold dropUntil
    repeat' first
      | with_reducible apply Upd.refl
      | (with_reducible apply Upd.comp (ih ..) <;> first | decide | skip)
      | (with_reducible apply Upd.comp (State_dropFrame_mut ..) <;> first | decide | skip)
      | (with_reducible apply Upd.comp (State_raise_mut ..) <;> first | decide | skip)
      | split
  | cons a l ih =>
    unfold dropUntil
    repeat' first
      | with_reducible apply Upd.refl
      | (with_reducible apply Upd.comp (ih ..) <;> first | decide | skip)
      | (with_reducible apply Upd.comp (State_dropFrame_mut ..) <;> first | decide | skip)
      | (with_reducible apply Upd.comp (State_raise_mut ..) <;> first | decide | skip)
      | split

theorem State_storeLine_mut (k : Nat) (c : CamCtx) (payload : List Sys2Proof.Byte) (s : State) : Upd [.cyc, .cam, .rcd] (some [0xC1]) s (State.storeLine k c payload s) := by
  unfold State.storeLine
  repeat' first
    | (extract_lets +onlyGivenNames x; refine Upd.cut (P := [.cyc, .cam, .rcd]) (W := (some [0xC1])) (s := s) (x := x) ?_ (fun hx => ?_); rotate_left; clear_value x; rotate_left; subst x)
    | (extract_lets +onlyGivenNames x; subst x)
    | with_reducible assumption
    | with_reducible apply Upd.refl
    | (with_reducible apply Upd.comp (State_modFrame_mut ..) <;> first | decide | skip)
    | (with_reducible apply Upd.comp (dropUntil_mut ..) <;> first | decide | skip)
    | (with_reducible apply Upd.comp (State_raise_mut ..) <;> first | decide | skip)
    | split

theorem State_lineOf_mut (k : Nat) (payload : List Sys2Proof.Byte) (s : State) : Upd [.cyc, .cam, .rcd] (some [0xC1, 0xC9]) s (State.lineOf k payload s) := by
  unfold State.lineOf
  repeat' first
    | with_reducible apply Upd.refl
    | (with_reducible apply Upd.comp (State_camShow_mut ..) <;> first | decide | skip)
    | (with_reducible apply Upd.comp (State_modFrame_mut ..) <;> first | decide | skip)
    | (with_reducible apply Upd.comp (State_storeLine_mut ..) <;> first | decide | skip)
    | split

theorem execLinePacket_mut (src : Fin 16) (dt : BitVec 6) (payload : List Sys2Proof.Byte) (crcOk : Bool) (s : State) : OutUpd [.cyc, .cam, .rcd] (some [0xC1, 0xC9]) s (execLinePacket src dt payload crcOk s) := by
  unfold execLinePacket
  repeat' first
    | (extract_lets +onlyGivenNames x; refine Upd.cut (P := [.cyc, .cam, .rcd]) (W := (some [0xC1, 0xC9])) (s := s) (x := x) ?_ (fun hx => ?_); rotate_left; clear_value x; rotate_left; subst x)
    | (extract_lets +onlyGivenNames x; subst x)
    | with_reducible assumption
    | with_reducible apply Upd.refl
    | with_reducible apply OutUpd.next
    | (with_reducible apply State_bump_step (w := 0xC9); rotate_left; decide; simp only [windowOf, CAM_LNK_CNT, CAM_LNK_CNT.ORPHAN, CAM_LNK_CNT.OTHER] <;> omega)
    | (with_reducible apply Upd.comp (State_modFrame_mut ..) <;> first | decide | skip)
    | (with_reducible apply Upd.comp (State_lineCrc_mut ..) <;> first | decide | skip)
    | (with_reducible apply Upd.comp (State_lineOf_mut ..) <;> first | decide | skip)
    | split

theorem State_camStart_mut (s : State) : Upd [.cam] (some [0xC9]) s (State.camStart s) := by
  unfold State.camStart
  repeat' first
    | (extract_lets +onlyGivenNames x; refine Upd.cut (P := [.cam]) (W := (some [0xC9])) (s := s) (x := x) ?_ (fun hx => ?_); rotate_left; clear_value x; rotate_left; subst x)
    | (extract_lets +onlyGivenNames x; subst x)
    | with_reducible assumption
    | with_reducible apply Upd.refl
    | (with_reducible apply Upd.comp (State_camShow_mut ..) <;> first | decide | skip)
    | (with_reducible apply State_set_step (w := 0xC9); rotate_left; decide; simp only [windowOf, CAM_FR_CI, CAM_FR_CI.CI, CAM_FR_PI, CAM_FR_PI.PI] <;> omega)
    | (with_reducible apply Upd.comp (State_setPoc_mut ..) <;> first | decide | skip)
    | (with_reducible apply Upd.foldl <;> first | (intro y a ha hy; skip) | skip)
    | (with_reducible show Upd _ _ _ _; with_reducible rw [State.mk_box]; with_reducible apply Upd.box <;> first | (left; with_reducible rfl) | (right; decide) | skip)
    | split

theorem State_writeLnkCfg_mut (l : Nat) (value : Sys2Proof.Word) (s : State) : Upd [.cyc, .cam, .rcd] (some [0xC1, 0xC9]) s (State.writeLnkCfg l value s) := by
  unfold State.writeLnkCfg
  repeat' first
    | (extract_lets +onlyGivenNames x; refine Upd.cut (P := [.cyc, .cam, .rcd]) (W := (some [0xC1, 0xC9])) (s := s) (x := x) ?_ (fun hx => ?_); rotate_left; clear_value x; rotate_left; subst x)
    | (extract_lets +onlyGivenNames x; subst x)
    | with_reducible assumption
    | with_reducible apply Upd.refl
    | (with_reducible apply State_setB_step (w := 0xC9); rotate_left; decide; simp only [windowOf, CAM_LNK_CFG, CAM_LNK_CFG.EN, CAM_LNK_CFG.GEAR_MAX, CAM_LNK_CFG.POC_EN, CAM_LNK_CFG.VC_EN] <;> omega)
    | (with_reducible apply State_set_step (w := 0xC9); rotate_left; decide; simp only [windowOf, CAM_LNK_CFG, CAM_LNK_CFG.EN, CAM_LNK_CFG.GEAR_MAX, CAM_LNK_CFG.POC_EN, CAM_LNK_CFG.VC_EN] <;> omega)
    | (with_reducible apply Upd.comp (State_setUp_mut ..) <;> first | decide | skip)
    | (with_reducible apply Upd.comp (State_setPoc_mut ..) <;> first | decide | skip)
    | split

theorem State_pipeTake_mut (p : Nat) (k : Nat) (s : State) : Upd [.cam] (some []) s (State.pipeTake p k s) := by
  unfold State.pipeTake
  repeat' first
    | (extract_lets +onlyGivenNames x; subst x)
    | with_reducible apply Upd.refl
    | (with_reducible apply Upd.comp (State_setFrame_mut ..) <;> first | decide | skip)
    | (with_reducible apply Upd.comp (State_setPipe_mut ..) <;> first | decide | skip)
    | split

theorem State_frameOpen_mut (i : Nat) (no : Nat) (x : Nat) (c : CamCtx) (s : State) : Upd [.cyc, .cam, .rcd] (some [0xC1, 0xC9]) s (State.frameOpen i no x c s) := by
  unfold State.frameOpen
  repeat' first
    | (extract_lets +onlyGivenNames x; refine Upd.cut (P := [.cyc, .cam, .rcd]) (W := (some [0xC1, 0xC9])) (s := s) (x := x) ?_ (fun hx => ?_); rotate_left; clear_value x; rotate_left; subst x)
    | (extract_lets +onlyGivenNames x; subst x)
    | with_reducible assumption
    | with_reducible apply Upd.refl
    | (with_reducible apply Upd.comp (State_setCtxC_mut ..) <;> first | decide | skip)
    | (with_reducible apply State_bump_step (w := 0xC9); rotate_left; decide; simp only [windowOf, CAM_FEN_DROP, CAM_FEN_DROP.FRAMES] <;> omega)
    | (with_reducible apply Upd.comp (State_setFrame_mut ..) <;> first | decide | skip)
    | (with_reducible apply Upd.comp (State_pipeTake_mut ..) <;> first | decide | skip)
    | (with_reducible apply Upd.comp (State_raise_mut ..) <;> first | decide | skip)
    | (with_reducible show Upd _ _ _ _; with_reducible rw [State.mk_box]; with_reducible apply Upd.box <;> first | (left; with_reducible rfl) | (right; decide) | skip)
    | split

theorem opCtxCreate_mut (c : Cmd) (s : State) (hc : c.blk = 0x09) : Upd [.latch, .dram, .cyc, .rings, .gens, .cam, .rcd] (some [0xC1, 0xC9]) s (opCtxCreate c s) := by
  unfold opCtxCreate
  repeat' first
    | (extract_lets +onlyGivenNames x; refine Upd.cut (P := [.latch, .dram, .cyc, .rings, .gens, .cam, .rcd]) (W := (some [0xC1, 0xC9])) (s := s) (x := x) ?_ (fun hx => ?_); rotate_left; clear_value x; rotate_left; subst x)
    | (extract_lets +onlyGivenNames x; subst x)
    | with_reducible assumption
    | with_reducible apply Upd.refl
    | (with_reducible apply State_wipeRegs_step (w := 0xC9); rotate_left; decide; decide; intro b h1 h2; simp only [windowOf, CAM_CTX_STAT] at *; omega)
    | (with_reducible apply Upd.comp (Cmd_created_mut (b := 0x09) ..) <;> first | decide | skip)
    | (with_reducible apply Upd.comp (State_setCtxC_mut ..) <;> first | decide | skip)
    | (with_reducible apply Upd.comp (State_advGen_mut ..) <;> first | decide | skip)
    | (with_reducible apply Upd.comp (State_camShow_mut ..) <;> first | decide | skip)
    | (with_reducible apply Upd.comp (Cmd_failed_mut (b := 0x09) ..) <;> first | decide | skip)
    | split

theorem State_readCamCtx_mut (core : Nat) (x : Nat) (s : State) : Upd [.latch, .access] (some [0xC9]) s (State.readCamCtx core x s) := by
  unfold State.readCamCtx
  repeat' first
    | with_reducible apply Upd.refl
    | (with_reducible apply Upd.comp (State_answer_mut ..) <;> first | decide | skip)
    | (with_reducible apply Upd.comp (State_latchFor_mut ..) <;> first | decide | skip)
    | (with_reducible apply State_set_step (w := 0xC9); rotate_left; decide; simp only [windowOf, CAM_CTX_STAT, CAM_CTX_STAT.PAL_SKIP] <;> omega)

theorem execPocOpenClear_mut (l : Fin 4) (ma : BitVec 9) (s : State) : OutUpd [] (some [0xC9]) s (execPocOpenClear l ma s) := by
  unfold execPocOpenClear
  repeat' first
    | with_reducible apply Upd.refl
    | with_reducible apply OutUpd.next
    | (with_reducible apply State_setB_step (w := 0xC9); rotate_left; decide; simp only [windowOf, CAM_LNK_STAT, CAM_LNK_STAT.POC_MA, CAM_LNK_STAT.POC_OPEN] <;> omega)
    | (with_reducible apply State_set_step (w := 0xC9); rotate_left; decide; simp only [windowOf, CAM_LNK_STAT, CAM_LNK_STAT.POC_MA, CAM_LNK_STAT.POC_OPEN] <;> omega)
    | split

theorem execPipelineSwitch_mut (p : Fin 8) (s : State) : OutUpd [.dram, .free, .cyc, .cam, .fen, .rcd] (some [0xC1, 0xC9, 0xCA]) s (execPipelineSwitch p s) := by
  unfold execPipelineSwitch
  repeat' first
    | (extract_lets +onlyGivenNames x; refine Upd.cut (P := [.dram, .free, .cyc, .cam, .fen, .rcd]) (W := (some [0xC1, 0xC9, 0xCA])) (s := s) (x := x) ?_ (fun hx => ?_); rotate_left; clear_value x; rotate_left; subst x)
    | (extract_lets +onlyGivenNames x; subst x)
    | with_reducible assumption
    | with_reducible apply Upd.refl
    | with_reducible apply OutUpd.next
    | (with_reducible apply Upd.comp (State_pipeTake_mut ..) <;> first | decide | skip)
    | (with_reducible apply Upd.comp (State_camShow_mut ..) <;> first | decide | skip)
    | (with_reducible apply Upd.comp (State_modFrame_mut ..) <;> first | decide | skip)
    | (with_reducible apply Upd.comp (State_flushLast_mut ..) <;> first | decide | skip)
    | (with_reducible apply Upd.comp (State_setPipe_mut ..) <;> first | decide | skip)
    | (with_reducible apply State_wrapInc_step (w := 0xC9); rotate_left; decide; simp only [windowOf, CAM_PL_STAT, CAM_PL_STAT.FRAMES] <;> omega)
    | (with_reducible apply Upd.comp (State_blurFrame_mut ..) <;> first | decide | skip)
    | split

theorem State_frRecPut_mut (c : CamCtx) (f : CamFrame) (s : State) : Upd [.dram, .cyc, .cam, .rcd] (some [0xC1, 0xC9]) s (State.frRecPut c f s) := by
  unfold State.frRecPut
  repeat' first
    | (extract_lets +onlyGivenNames x; refine Upd.cut (P := [.dram, .cyc, .cam, .rcd]) (W := (some [0xC1, 0xC9])) (s := s) (x := x) ?_ (fun hx => ?_); rotate_left; clear_value x; rotate_left; subst x)
    | (extract_lets +onlyGivenNames x; subst x)
    | with_reducible assumption
    | with_reducible apply Upd.refl
    | (with_reducible apply State_bump_step (w := 0xC9); rotate_left; decide; simp only [windowOf, CAM_CTX_CSEQ, CAM_CTX_CSEQ.CSEQ, CAM_FR_DROP, CAM_FR_DROP.DROP, CAM_FR_PI, CAM_FR_PI.PI, CamFrame.ctx] <;> omega)
    | (with_reducible apply Upd.comp (State_dramPuts_mut ..) <;> first | decide | skip)
    | (with_reducible apply State_set_step (w := 0xC9); rotate_left; decide; simp only [windowOf, CAM_CTX_CSEQ, CAM_CTX_CSEQ.CSEQ, CAM_FR_DROP, CAM_FR_DROP.DROP, CAM_FR_PI, CAM_FR_PI.PI, CamFrame.ctx] <;> omega)
    | (with_reducible apply Upd.comp (State_raise_mut ..) <;> first | decide | skip)
    | (with_reducible show Upd _ _ _ _; with_reducible rw [State.mk_box]; with_reducible apply Upd.box <;> first | (left; with_reducible rfl) | (right; decide) | skip)
    | split

theorem execCamFrame_mut (s : State) : OutUpd [.dram, .cyc, .rings, .cam, .fen, .arb, .rcd] (some [0xC1, 0xC9, 0xCA, 0xCB]) s (execCamFrame s) := by
  unfold execCamFrame
  repeat' first
    | (extract_lets +onlyGivenNames x; refine Upd.cut (P := [.dram, .cyc, .rings, .cam, .fen, .arb, .rcd]) (W := (some [0xC1, 0xC9, 0xCA, 0xCB])) (s := s) (x := x) ?_ (fun hx => ?_); rotate_left; clear_value x; rotate_left; subst x)
    | (extract_lets +onlyGivenNames x; subst x)
    | with_reducible assumption
    | with_reducible apply Upd.refl
    | with_reducible apply OutUpd.next
    | (with_reducible apply Upd.comp (State_frRecPut_mut ..) <;> first | decide | skip)
    | (with_reducible apply Upd.comp (State_fenFrameEnd_mut ..) <;> first | decide | skip)
    | (with_reducible apply Upd.comp (State_camShow_mut ..) <;> first | decide | skip)
    | (with_reducible apply Upd.comp (State_ctxMaybeFree_mut ..) <;> first | decide | skip)
    | (with_reducible show Upd _ _ _ _; with_reducible rw [State.mk_box]; with_reducible apply Upd.box <;> first | (left; with_reducible rfl) | (right; decide) | skip)
    | split

theorem execCtxDestroy_mut (ring : Fin 1) (e : Sys2Proof.Entry) (s : State) : OutUpd [.dram, .cyc, .rings, .cam, .rcd] (some [0xC1, 0xC9]) s (execCtxDestroy ring e s) := by
  unfold execCtxDestroy
  repeat' first
    | with_reducible assumption
    | with_reducible apply Upd.refl
    | with_reducible apply OutUpd.next
    | (with_reducible apply Upd.comp (State_runRow_mut (P := [.dram, .cyc, .rings, .cam, .rcd]) (W := [0xC1, 0xC9]) ..) <;> first | decide | skip)
    | (with_reducible apply Upd.comp (opCtxDestroy_mut ..) <;> first | decide | skip)
    | (intro c u hc)

theorem execCtxCreate_mut (ring : Fin 1) (e : Sys2Proof.Entry) (s : State) : OutUpd [.latch, .dram, .cyc, .rings, .gens, .cam, .rcd] (some [0xC1, 0xC9]) s (execCtxCreate ring e s) := by
  unfold execCtxCreate
  repeat' first
    | with_reducible assumption
    | with_reducible apply Upd.refl
    | with_reducible apply OutUpd.next
    | (with_reducible apply Upd.comp (State_runRow_mut (P := [.latch, .dram, .cyc, .rings, .gens, .cam, .rcd]) (W := [0xC1, 0xC9]) ..) <;> first | decide | skip)
    | (with_reducible apply Upd.comp (opCtxCreate_mut ..) <;> first | decide | skip)
    | (intro c u hc)

theorem execFrameTimeout_mut (src : Fin 16) (s : State) : OutUpd [.cam] (some [0xC9]) s (execFrameTimeout src s) := by
  unfold execFrameTimeout
  repeat' first
    | (extract_lets +onlyGivenNames x; subst x)
    | with_reducible apply Upd.refl
    | with_reducible apply OutUpd.next
    | (with_reducible apply Upd.comp (State_camShow_mut ..) <;> first | decide | skip)
    | (with_reducible apply Upd.comp (State_closeFrame_mut ..) <;> first | decide | skip)
    | split

theorem execCciEnd_mut (l : Fin 4) (result : Fin 3) (data : Sys2Proof.Word) (s : State) : OutUpd [.cyc, .cam, .rcd] (some [0xC1, 0xC9]) s (execCciEnd l result data s) := by
  unfold execCciEnd
  repeat' first
    | (extract_lets +onlyGivenNames x; refine Upd.cut (P := [.cyc, .cam, .rcd]) (W := (some [0xC1, 0xC9])) (s := s) (x := x) ?_ (fun hx => ?_); rotate_left; clear_value x; rotate_left; subst x)
    | (extract_lets +onlyGivenNames x; subst x)
    | with_reducible assumption
    | with_reducible apply Upd.refl
    | with_reducible apply OutUpd.next
    | (with_reducible apply State_setB_step (w := 0xC9); rotate_left; decide; ((repeat' split) <;> simp only [windowOf, CAM_LNK_CCI_DATA, CAM_LNK_CCI_STAT, CAM_LNK_CCI_STAT.BUSY, CAM_LNK_CCI_STAT.DONE, CAM_LNK_CCI_STAT.NACK, CAM_LNK_CCI_STAT.TIMEOUT, CciTx.n] <;> omega))
    | (with_reducible apply State_set_step (w := 0xC9); rotate_left; decide; ((repeat' split) <;> simp only [windowOf, CAM_LNK_CCI_DATA, CAM_LNK_CCI_STAT, CAM_LNK_CCI_STAT.BUSY, CAM_LNK_CCI_STAT.DONE, CAM_LNK_CCI_STAT.NACK, CAM_LNK_CCI_STAT.TIMEOUT, CciTx.n] <;> omega))
    | (with_reducible apply Upd.comp (State_raise_mut ..) <;> first | decide | skip)
    | (with_reducible show Upd _ _ _ _; with_reducible rw [State.mk_box]; with_reducible apply Upd.box <;> first | (left; with_reducible rfl) | (right; decide) | skip)
    | split

theorem State_writeCci_mut (l : Nat) (value : Sys2Proof.Word) (s : State) : Upd [.cam] (some [0xC9]) s (State.writeCci l value s) := by
  unfold State.writeCci
  repeat' first
    | (extract_lets +onlyGivenNames x; refine Upd.cut (P := [.cam]) (W := (some [0xC9])) (s := s) (x := x) ?_ (fun hx => ?_); rotate_left; clear_value x; rotate_left; subst x)
    | (extract_lets +onlyGivenNames x; subst x)
    | with_reducible assumption
    | with_reducible apply Upd.refl
    | (with_reducible apply State_setB_step (w := 0xC9); rotate_left; decide; simp only [windowOf, CAM_LNK_CCI_STAT, CAM_LNK_CCI_STAT.BUSY, CAM_LNK_CCI_STAT.DONE, CAM_LNK_CCI_STAT.IGN, CAM_LNK_CCI_STAT.NACK, CAM_LNK_CCI_STAT.TIMEOUT] <;> omega)
    | (with_reducible show Upd _ _ _ _; with_reducible rw [State.mk_box]; with_reducible apply Upd.box <;> first | (left; with_reducible rfl) | (right; decide) | skip)
    | split

theorem opBufGive_mut (c : Cmd) (s : State) (hc : c.blk = 0x09) : Upd [.dram, .cyc, .rings, .cam, .rcd] (some [0xC1, 0xC9]) s (opBufGive c s) := by
  unfold opBufGive
  repeat' first
    | (extract_lets +onlyGivenNames x; subst x)
    | with_reducible assumption
    | with_reducible apply Upd.refl
    | (with_reducible apply Upd.comp (State_setCtxC_mut ..) <;> first | decide | skip)
    | (with_reducible apply Upd.comp (State_camShow_mut ..) <;> first | decide | skip)
    | (with_reducible apply Upd.comp (onCtx_mut (P := [.dram, .cyc, .rings, .cam, .rcd]) (W := [0xC1, 0xC9]) ..) <;> first | decide | assumption | skip)
    | (intro x t u)
    | (with_reducible apply Upd.comp (Cmd_finish_mut (b := 0x09) ..) <;> first | decide | skip)
    | split

theorem execFrameEnd_mut (src : Fin 16) (s : State) : OutUpd [.cam] (some [0xC9]) s (execFrameEnd src s) := by
  unfold execFrameEnd
  repeat' first
    | (extract_lets +onlyGivenNames x; subst x)
    | with_reducible apply Upd.refl
    | with_reducible apply OutUpd.next
    | (with_reducible apply State_bump_step (w := 0xC9); rotate_left; decide; simp only [windowOf, CAM_LNK_CNT, CAM_LNK_CNT.ORPHAN] <;> omega)
    | (with_reducible apply Upd.comp (State_camShow_mut ..) <;> first | decide | skip)
    | (with_reducible apply Upd.comp (State_closeFrame_mut ..) <;> first | decide | skip)
    | split

theorem execCsiPacket_mut (src : Fin 16) (hdr : Fin 3) (s : State) : OutUpd [.cyc, .cam, .rcd] (some [0xC1, 0xC9]) s (execCsiPacket src hdr s) := by
  unfold execCsiPacket
  repeat' first
    | (extract_lets +onlyGivenNames x; refine Upd.cut (P := [.cyc, .cam, .rcd]) (W := (some [0xC1, 0xC9])) (s := s) (x := x) ?_ (fun hx => ?_); rotate_left; clear_value x; rotate_left; subst x)
    | (extract_lets +onlyGivenNames x; subst x)
    | with_reducible assumption
    | with_reducible apply Upd.refl
    | with_reducible apply OutUpd.next
    | (with_reducible apply State_bump_step (w := 0xC9); rotate_left; decide; simp only [windowOf, CAM_LNK_ERR, CAM_LNK_ERR.ECC_FIX, CAM_LNK_ERR.HDR_LOST] <;> omega)
    | (with_reducible apply Upd.comp (State_modFrame_mut ..) <;> first | decide | skip)
    | (with_reducible apply Upd.comp (State_raise_mut ..) <;> first | decide | skip)
    | split

theorem execFrameStart_mut (src : Fin 16) (no : BitVec 16) (s : State) : OutUpd [.cyc, .cam, .rcd] (some [0xC1, 0xC9]) s (execFrameStart src no s) := by
  unfold execFrameStart
  repeat' first
    | (extract_lets +onlyGivenNames x; refine Upd.cut (P := [.cyc, .cam, .rcd]) (W := (some [0xC1, 0xC9])) (s := s) (x := x) ?_ (fun hx => ?_); rotate_left; clear_value x; rotate_left; subst x)
    | (extract_lets +onlyGivenNames x; subst x)
    | with_reducible assumption
    | with_reducible apply Upd.refl
    | with_reducible apply OutUpd.next
    | (with_reducible apply State_bump_step (w := 0xC9); rotate_left; decide; simp only [windowOf, CAM_LNK_CNT, CAM_LNK_CNT.NOCTX] <;> omega)
    | (with_reducible apply Upd.comp (State_camShow_mut ..) <;> first | decide | skip)
    | (with_reducible apply Upd.comp (State_closeFrame_mut ..) <;> first | decide | skip)
    | (with_reducible apply Upd.comp (State_raise_mut ..) <;> first | decide | skip)
    | (with_reducible apply Upd.comp (State_frameOpen_mut ..) <;> first | decide | skip)
    | (with_reducible show Upd _ _ _ _; with_reducible rw [State.mk_box]; with_reducible apply Upd.box <;> first | (left; with_reducible rfl) | (right; decide) | skip)
    | split

theorem execCamLink_mut (l : Fin 4) (up : Bool) (gear : Fin 8) (s : State) : OutUpd [.cyc, .cam, .rcd] (some [0xC1, 0xC9]) s (execCamLink l up gear s) := by
  unfold execCamLink
  repeat' first
    | (extract_lets +onlyGivenNames x; subst x)
    | with_reducible apply Upd.refl
    | with_reducible apply OutUpd.next
    | (with_reducible apply State_set_step (w := 0xC9); rotate_left; decide; simp only [windowOf, CAM_LNK_STAT, CAM_LNK_STAT.GEAR] <;> omega)
    | (with_reducible apply Upd.comp (State_setUp_mut ..) <;> first | decide | skip)
    | split

theorem execBufGive_mut (ring : Fin 1) (e : Sys2Proof.Entry) (s : State) : OutUpd [.dram, .cyc, .rings, .cam, .rcd] (some [0xC1, 0xC9]) s (execBufGive ring e s) := by
  unfold execBufGive
  repeat' first
    | with_reducible assumption
    | with_reducible apply Upd.refl
    | with_reducible apply OutUpd.next
    | (with_reducible apply Upd.comp (State_runRow_mut (P := [.dram, .cyc, .rings, .cam, .rcd]) (W := [0xC1, 0xC9]) ..) <;> first | decide | skip)
    | (with_reducible apply Upd.comp (opBufGive_mut ..) <;> first | decide | skip)
    | (intro c u hc)

theorem execPocOpen_mut (l : Fin 4) (ma : BitVec 9) (s : State) : OutUpd [.cyc, .rcd] (some [0xC1, 0xC9]) s (execPocOpen l ma s) := by
  unfold execPocOpen
  repeat' first
    | (extract_lets +onlyGivenNames x; refine Upd.cut (P := [.cyc, .rcd]) (W := (some [0xC1, 0xC9])) (s := s) (x := x) ?_ (fun hx => ?_); rotate_left; clear_value x; rotate_left; subst x)
    | (extract_lets +onlyGivenNames x; subst x)
    | with_reducible assumption
    | with_reducible apply Upd.refl
    | with_reducible apply OutUpd.next
    | (with_reducible apply State_setB_step (w := 0xC9); rotate_left; decide; simp only [windowOf, CAM_LNK_STAT, CAM_LNK_STAT.POC_MA, CAM_LNK_STAT.POC_OPEN] <;> omega)
    | (with_reducible apply State_set_step (w := 0xC9); rotate_left; decide; simp only [windowOf, CAM_LNK_STAT, CAM_LNK_STAT.POC_MA, CAM_LNK_STAT.POC_OPEN] <;> omega)
    | (with_reducible apply Upd.comp (State_raise_mut ..) <;> first | decide | skip)
    | split

end Sys2Proof.Machine
end

