-- ==== Sys2Proof/Laws/MutGnb.lean ====
section
/-! SUPPORT. What each operation of Machine/Gnb.lean may change (`Upd`): its parts of the state and its register windows. -/

namespace Sys2Proof.Machine

set_option Elab.async false
set_option linter.unusedSimpArgs false
set_option linter.unusedTactic false
set_option linter.unreachableTactic false
set_option linter.unnecessarySeqFocus false
set_option maxRecDepth 20000

theorem State_satOn_mut (c : Nat) (s : State) : Upd [.gnb] (some []) s (State.satOn c s) := by
  unfold State.satOn
  repeat' first
    | (extract_lets +onlyGivenNames x; subst x)
    | with_reducible apply Upd.refl
    | (with_reducible show Upd _ _ _ _; with_reducible rw [State.mk_box]; with_reducible apply Upd.box <;> first | (left; with_reducible rfl) | (right; decide) | skip)

theorem State_takeStrobe_mut (k : Int) (s : State) : Upd [.gnb] (some []) s (State.takeStrobe k s) := by
  unfold State.takeStrobe
  repeat' first
    | (extract_lets +onlyGivenNames x; subst x)
    | with_reducible apply Upd.refl
    | (with_reducible show Upd _ _ _ _; with_reducible rw [State.mk_box]; with_reducible apply Upd.box <;> first | (left; with_reducible rfl) | (right; decide) | skip)

theorem State_measStrobe_mut (s : State) : Upd [.gnb] (some []) s (State.measStrobe s) := by
  unfold State.measStrobe
  repeat' first
    | (extract_lets +onlyGivenNames x; subst x)
    | with_reducible apply Upd.refl
    | (with_reducible apply Upd.comp (State_takeStrobe_mut ..) <;> first | decide | skip)
    | split

theorem execMeasStrobe_mut (s : State) : OutUpd [.gnb] (some []) s (execMeasStrobe s) := by
  unfold execMeasStrobe
  repeat' first
    | with_reducible apply Upd.refl
    | with_reducible apply OutUpd.next
    | (with_reducible apply Upd.comp (State_measStrobe_mut ..) <;> first | decide | skip)

theorem State_satOff_mut (c : Nat) (s : State) : Upd [.gnb] (some []) s (State.satOff c s) := by
  unfold State.satOff
  repeat' first
    | (extract_lets +onlyGivenNames x; subst x)
    | with_reducible apply Upd.refl
    | (with_reducible show Upd _ _ _ _; with_reducible rw [State.mk_box]; with_reducible apply Upd.box <;> first | (left; with_reducible rfl) | (right; decide) | skip)

theorem State_setChan_mut (x : Nat) (c : Chan) (s : State) : Upd [.gnb] (some []) s (State.setChan x c s) := by
  unfold State.setChan
  repeat' first
    | (extract_lets +onlyGivenNames x; subst x)
    | with_reducible apply Upd.refl
    | (with_reducible show Upd _ _ _ _; with_reducible rw [State.mk_box]; with_reducible apply Upd.box <;> first | (left; with_reducible rfl) | (right; decide) | skip)

theorem State_showChan_mut (x : Nat) (s : State) : Upd [.latch] (some [0xC8]) s (State.showChan x s) := by
  unfold State.showChan
  repeat' first
    | (extract_lets +onlyGivenNames x; refine Upd.cut (P := [.latch]) (W := (some [0xC8])) (s := s) (x := x) ?_ (fun hx => ?_); rotate_left; clear_value x; rotate_left; subst x)
    | with_reducible assumption
    | with_reducible apply Upd.refl
    | (with_reducible apply State_setB_step (w := 0xC8); rotate_left; decide; simp only [windowOf, GNB_CH_BOUND, GNB_CH_BOUND.BOUND, GNB_CH_STAT, GNB_CH_STAT.CHAIN, GNB_CH_STAT.INT_MS, GNB_CH_STAT.PEND, GNB_CH_STAT.PRN, GNB_CH_STAT.SIG, GNB_CH_STAT.SPACING, GNB_CH_STAT.STATE] <;> omega)
    | (with_reducible apply State_wipeRegs_step (w := 0xC8); rotate_left; decide; decide; intro b h1 h2; simp only [windowOf, GNB_CH_BOUND, GNB_CH_BOUND.BOUND, GNB_CH_STAT, GNB_CH_STAT.CHAIN, GNB_CH_STAT.INT_MS, GNB_CH_STAT.PEND, GNB_CH_STAT.PRN, GNB_CH_STAT.SIG, GNB_CH_STAT.SPACING, GNB_CH_STAT.STATE] at *; omega)
    | (with_reducible apply State_set_step (w := 0xC8); rotate_left; decide; simp only [windowOf, GNB_CH_BOUND, GNB_CH_BOUND.BOUND, GNB_CH_STAT, GNB_CH_STAT.CHAIN, GNB_CH_STAT.INT_MS, GNB_CH_STAT.PEND, GNB_CH_STAT.PRN, GNB_CH_STAT.SIG, GNB_CH_STAT.SPACING, GNB_CH_STAT.STATE] <;> omega)
    | split

theorem State_steerLate_mut (s : State) : Upd [.cyc, .rcd] (some [0xC0, 0xC1, 0xC8]) s (State.steerLate s) := by
  unfold State.steerLate
  repeat' first
    | with_reducible apply Upd.refl
    | (with_reducible apply State_bump_step (w := 0xC8); rotate_left; decide; simp only [windowOf, GNB_CNT, GNB_CNT.LATE, SYS_DET_STATUS, SYS_DET_STATUS.GNB_STEER] <;> omega)
    | (with_reducible apply Upd.comp (State_raise_mut ..) <;> first | decide | skip)
    | (with_reducible apply State_detViol_step; rotate_left; decide; decide; simp only [windowOf, Fld.addr, SYS_DET_STATUS, SYS_DET_STATUS.RECONF, SYS_DET_STATUS.REC_LATE, SYS_DET_STATUS.YLD_LATE, SYS_DET_STATUS.GNB_STEER, SYS_DET_STATUS.FUS_LATE, SYS_DET_STATUS.STK_LATE, SYS_DET_STATUS.CLE_COEF, SYS_DET_STATUS.CLE_LATE])

theorem opSteer_mut (c : Cmd) (s : State) (hc : c.blk = 0x08) : Upd [.latch, .dram, .cyc, .rings, .gnb, .rcd] (some [0xC0, 0xC1, 0xC8]) s (opSteer c s) := by
  unfold opSteer
  repeat' first
    | (extract_lets +onlyGivenNames x; refine Upd.cut (P := [.latch, .dram, .cyc, .rings, .gnb, .rcd]) (W := (some [0xC0, 0xC1, 0xC8])) (s := s) (x := x) ?_ (fun hx => ?_); rotate_left; clear_value x; rotate_left; subst x)
    | (extract_lets +onlyGivenNames x; subst x)
    | with_reducible assumption
    | with_reducible apply Upd.refl
    | (with_reducible apply State_bump_step (w := 0xC8); rotate_left; decide; simp only [windowOf, GNB_CNT, GNB_CNT.REPL] <;> omega)
    | (with_reducible apply Upd.comp (State_setChan_mut ..) <;> first | decide | skip)
    | (with_reducible apply Upd.comp (State_showChan_mut ..) <;> first | decide | skip)
    | (with_reducible apply Upd.comp (State_steerLate_mut ..) <;> first | decide | skip)
    | (with_reducible apply Upd.comp (Cmd_finish_mut (b := 0x08) ..) <;> first | decide | skip)
    | split

theorem State_setLock_mut (c : Nat) (j : Nat) (lock : Bool) (s : State) : Upd [.cyc, .rcd] (some [0xC1, 0xC8]) s (State.setLock c j lock s) := by
  unfold State.setLock
  repeat' first
    | with_reducible apply Upd.refl
    | (with_reducible apply State_setB_step (w := 0xC8); rotate_left; decide; simp only [windowOf, GNB_NOTCH, GNB_NOTCH.LOCK] <;> omega)
    | (with_reducible apply Upd.comp (State_raise_mut ..) <;> first | decide | skip)
    | split

theorem State_unlock_mut (c : Nat) (s : State) : Upd [.cyc, .gnb, .rcd] (some [0xC1, 0xC8]) s (State.unlock c s) := by
  unfold State.unlock
  repeat' first
    | (extract_lets +onlyGivenNames x; subst x)
    | with_reducible assumption
    | with_reducible apply Upd.refl
    | (with_reducible apply Upd.comp (State_setLock_mut ..) <;> first | decide | skip)
    | (with_reducible apply Upd.foldl <;> first | (intro y a ha hy; skip) | skip)
    | (with_reducible show Upd _ _ _ _; with_reducible rw [State.mk_box]; with_reducible apply Upd.box <;> first | (left; with_reducible rfl) | (right; decide) | skip)

theorem State_writeChainCfg_mut (c : Nat) (value : Sys2Proof.Word) (s : State) : Upd [.cyc, .gnb, .rcd] (some [0xC1, 0xC8]) s (State.writeChainCfg c value s) := by
  unfold State.writeChainCfg
  repeat' first
    | (extract_lets +onlyGivenNames x; refine Upd.cut (P := [.cyc, .gnb, .rcd]) (W := (some [0xC1, 0xC8])) (s := s) (x := x) ?_ (fun hx => ?_); rotate_left; clear_value x; rotate_left; subst x)
    | (extract_lets +onlyGivenNames x; subst x)
    | with_reducible assumption
    | with_reducible apply Upd.refl
    | (with_reducible apply State_setB_step (w := 0xC8); rotate_left; decide; simp only [windowOf, GNB_CHAIN_CFG, GNB_CHAIN_CFG.EN, GNB_CHAIN_CFG.HOLD] <;> omega)
    | (with_reducible apply Upd.comp (State_unlock_mut ..) <;> first | decide | skip)
    | (with_reducible show Upd _ _ _ _; with_reducible rw [State.mk_box]; with_reducible apply Upd.box <;> first | (left; with_reducible rfl) | (right; decide) | skip)
    | split

theorem State_biasCurrent_mut (i : Nat) (ma : Nat) (s : State) : Upd [.cyc, .rcd] (some [0xC1, 0xC8]) s (State.biasCurrent i ma s) := by
  unfold State.biasCurrent
  repeat' first
    | (extract_lets +onlyGivenNames x; refine Upd.cut (P := [.cyc, .rcd]) (W := (some [0xC1, 0xC8])) (s := s) (x := x) ?_ (fun hx => ?_); rotate_left; clear_value x; rotate_left; subst x)
    | (extract_lets +onlyGivenNames x; subst x)
    | with_reducible assumption
    | with_reducible apply Upd.refl
    | (with_reducible apply State_setB_step (w := 0xC8); rotate_left; decide; simp only [windowOf, GNB_ANT, GNB_ANT.MA, GNB_ANT.ON, GNB_ANT.OPEN, GNB_ANT.SHORT] <;> omega)
    | (with_reducible apply State_set_step (w := 0xC8); rotate_left; decide; simp only [windowOf, GNB_ANT, GNB_ANT.MA, GNB_ANT.ON, GNB_ANT.OPEN, GNB_ANT.SHORT] <;> omega)
    | (with_reducible apply Upd.comp (State_raise_mut ..) <;> first | decide | skip)
    | split

theorem execAntOpenClear_mut (a : Fin 2) (ma : BitVec 8) (s : State) : OutUpd [.cyc, .rcd] (some [0xC1, 0xC8]) s (execAntOpenClear a ma s) := by
  unfold execAntOpenClear
  repeat' first
    | with_reducible apply Upd.refl
    | with_reducible apply OutUpd.next
    | (with_reducible apply Upd.comp (State_biasCurrent_mut ..) <;> first | decide | skip)
    | split

theorem State_notePrev_mut (h : Nat) (p : Bool × Bool × Nat) (s : State) : Upd [.gnb] (some []) s (State.notePrev h p s) := by
  unfold State.notePrev
  repeat' first
    | (extract_lets +onlyGivenNames x; subst x)
    | with_reducible apply Upd.refl
    | (with_reducible show Upd _ _ _ _; with_reducible rw [State.mk_box]; with_reducible apply Upd.box <;> first | (left; with_reducible rfl) | (right; decide) | skip)

theorem State_putMeas_mut (st : Strobe) (i : Nat) (c : Chan) (s : State) : Upd [.dram, .cyc, .gnb, .rcd] (some [0xC1]) s (State.putMeas st i c s) := by
  unfold State.putMeas
  repeat' first
    | (extract_lets +onlyGivenNames x; refine Upd.cut (P := [.dram, .cyc, .gnb, .rcd]) (W := (some [0xC1])) (s := s) (x := x) ?_ (fun hx => ?_); rotate_left; clear_value x; rotate_left; subst x)
    | (extract_lets +onlyGivenNames x; subst x)
    | with_reducible assumption
    | with_reducible apply Upd.refl
    | (with_reducible apply Upd.comp (State_dramPuts_mut ..) <;> first | decide | skip)
    | (with_reducible apply Upd.comp (State_raise_mut ..) <;> first | decide | skip)
    | (with_reducible apply Upd.comp (State_notePrev_mut ..) <;> first | decide | skip)
    | split

theorem State_measBlock_mut (s : State) : Upd [.dram, .cyc, .gnb, .rcd] (some [0xC1, 0xC8]) s (State.measBlock s) := by
  unfold State.measBlock
  repeat' first
    | (extract_lets +onlyGivenNames x; refine Upd.cut (P := [.dram, .cyc, .gnb, .rcd]) (W := (some [0xC1, 0xC8])) (s := s) (x := x) ?_ (fun hx => ?_); rotate_left; clear_value x; rotate_left; subst x)
    | (extract_lets +onlyGivenNames x; subst x)
    | with_reducible assumption
    | with_reducible apply Upd.refl
    | (with_reducible apply State_bump_step (w := 0xC8); rotate_left; decide; simp only [windowOf, GNB_MS_CNT, GNB_MS_CNT.DROP, GNB_MS_PI, GNB_MS_PI.PI] <;> omega)
    | (with_reducible apply Upd.comp (State_putMeas_mut ..) <;> first | decide | skip)
    | (with_reducible apply Upd.comp (State_dramPuts_mut ..) <;> first | decide | skip)
    | (with_reducible apply State_set_step (w := 0xC8); rotate_left; decide; simp only [windowOf, GNB_MS_CNT, GNB_MS_CNT.DROP, GNB_MS_PI, GNB_MS_PI.PI] <;> omega)
    | (with_reducible apply Upd.comp (State_raise_mut ..) <;> first | decide | skip)
    | (with_reducible apply Upd.foldl <;> first | (intro y a ha hy; skip) | skip)
    | (with_reducible show Upd _ _ _ _; with_reducible rw [State.mk_box]; with_reducible apply Upd.box <;> first | (left; with_reducible rfl) | (right; decide) | skip)
    | split

theorem State_gnbCounts_mut (s : State) : Upd [] (some [0xC8]) s (State.gnbCounts s) := by
  unfold State.gnbCounts
  repeat' first
    | with_reducible apply Upd.refl
    | (with_reducible apply State_set_step (w := 0xC8); rotate_left; decide; simp only [windowOf, GNB_STATUS, GNB_STATUS.CHANNELS, GNB_STATUS.SEARCHES] <;> omega)

theorem State_gnbScView_mut (s : State) : Upd [] (some [0xC8]) s (State.gnbScView s) := by
  unfold State.gnbScView
  repeat' first
    | (extract_lets +onlyGivenNames x; refine Upd.cut (P := []) (W := (some [0xC8])) (s := s) (x := x) ?_ (fun hx => ?_); rotate_left; clear_value x; rotate_left; subst x)
    | (extract_lets +onlyGivenNames x; subst x)
    | with_reducible assumption
    | with_reducible apply Upd.refl
    | (with_reducible apply State_set64_step (w := 0xC8); rotate_left; decide; simp only [windowOf, GNB_MARK_LTC_HI, GNB_MARK_LTC_LO, GNB_MARK_SC_HI, GNB_MARK_SC_LO, GNB_SC_HI, GNB_SC_LO] <;> omega; simp only [windowOf, GNB_MARK_LTC_HI, GNB_MARK_LTC_LO, GNB_MARK_SC_HI, GNB_MARK_SC_LO, GNB_SC_HI, GNB_SC_LO] <;> omega)
    | split

theorem State_setBias_mut (a : Nat) (on : Bool) (s : State) : Upd [] (some [0xC8]) s (State.setBias a on s) := by
  unfold State.setBias
  repeat' first
    | (extract_lets +onlyGivenNames x; refine Upd.cut (P := []) (W := (some [0xC8])) (s := s) (x := x) ?_ (fun hx => ?_); rotate_left; clear_value x; rotate_left; subst x)
    | with_reducible assumption
    | with_reducible apply Upd.refl
    | (with_reducible apply State_setB_step (w := 0xC8); rotate_left; decide; simp only [windowOf, GNB_ANT, GNB_ANT.MA, GNB_ANT.ON, GNB_ANT.OPEN] <;> omega)
    | (with_reducible apply State_set_step (w := 0xC8); rotate_left; decide; simp only [windowOf, GNB_ANT, GNB_ANT.MA, GNB_ANT.ON, GNB_ANT.OPEN] <;> omega)
    | split

theorem State_gnbDisable_mut (s : State) : Upd [.latch, .dram, .free, .cyc, .rings, .gnb, .rcd] (some [0xC1, 0xC8]) s (State.gnbDisable s) := by
  unfold State.gnbDisable
  repeat' first
    | (extract_lets +onlyGivenNames x; refine Upd.cut (P := [.latch, .dram, .free, .cyc, .rings, .gnb, .rcd]) (W := (some [0xC1, 0xC8])) (s := s) (x := x) ?_ (fun hx => ?_); rotate_left; clear_value x; rotate_left; subst x)
    | (extract_lets +onlyGivenNames x; subst x)
    | with_reducible assumption
    | with_reducible apply Upd.refl
    | (with_reducible apply State_setB_step (w := 0xC8); rotate_left; decide; simp only [windowOf, GNB_CTRL, GNB_CTRL.ENABLE] <;> omega)
    | (with_reducible apply Upd.comp (State_gnbCounts_mut ..) <;> first | decide | skip)
    | (with_reducible apply Upd.comp (State_gnbScView_mut ..) <;> first | decide | skip)
    | (with_reducible apply Upd.comp (State_measBlock_mut ..) <;> first | decide | skip)
    | (with_reducible apply Upd.comp (State_setBias_mut ..) <;> first | decide | skip)
    | (with_reducible apply Upd.comp (State_showChan_mut ..) <;> first | decide | skip)
    | (with_reducible apply Upd.comp (State_unlock_mut ..) <;> first | decide | skip)
    | (with_reducible apply Upd.comp (State_completeSelf_mut ..) <;> first | decide | skip)
    | (with_reducible apply Upd.comp (State_drawn_mut ..) <;> first | decide | skip)
    | (with_reducible apply Upd.foldl <;> first | (intro y a ha hy; skip) | skip)
    | (with_reducible show Upd _ _ _ _; with_reducible rw [State.mk_box]; with_reducible apply Upd.box <;> first | (left; with_reducible rfl) | (right; decide) | skip)

theorem execGnbDisable_mut (s : State) : OutUpd [.latch, .dram, .free, .cyc, .rings, .gnb, .rcd] (some [0xC1, 0xC8]) s (execGnbDisable s) := by
  unfold execGnbDisable
  repeat' first
    | with_reducible apply Upd.refl
    | with_reducible apply OutUpd.next
    | (with_reducible apply Upd.comp (State_gnbDisable_mut ..) <;> first | decide | skip)
    | split

theorem State_showPwr_mut (c : Nat) (power : Nat) (s : State) : Upd [.free] (some [0xC8]) s (State.showPwr c power s) := by
  unfold State.showPwr
  repeat' first
    | with_reducible apply Upd.refl
    | (with_reducible apply State_set_step (w := 0xC8); rotate_left; decide; simp only [windowOf, GNB_CHAIN_STAT, GNB_CHAIN_STAT.PWR] <;> omega)
    | (with_reducible apply Upd.comp (State_drawn_mut ..) <;> first | decide | skip)
    | split

theorem State_unlatch_mut (h : Nat) (s : State) : Upd [.gnb] (some []) s (State.unlatch h s) := by
  unfold State.unlatch
  repeat' first
    | (extract_lets +onlyGivenNames x; subst x)
    | with_reducible apply Upd.refl
    | (with_reducible show Upd _ _ _ _; with_reducible rw [State.mk_box]; with_reducible apply Upd.box <;> first | (left; with_reducible rfl) | (right; decide) | skip)

theorem opChDestroy_mut (c : Cmd) (s : State) (hc : c.blk = 0x08) : Upd [.latch, .dram, .cyc, .rings, .gnb, .rcd] (some [0xC1, 0xC8]) s (opChDestroy c s) := by
  unfold opChDestroy
  repeat' first
    | (extract_lets +onlyGivenNames x; subst x)
    | with_reducible assumption
    | with_reducible apply Upd.refl
    | (with_reducible apply Upd.comp (State_gnbCounts_mut ..) <;> first | decide | skip)
    | (with_reducible apply Upd.comp (State_unlatch_mut ..) <;> first | decide | skip)
    | (with_reducible apply Upd.comp (State_showChan_mut ..) <;> first | decide | skip)
    | (with_reducible apply Upd.comp (Cmd_finish_mut (b := 0x08) ..) <;> first | decide | skip)
    | (with_reducible show Upd _ _ _ _; with_reducible rw [State.mk_box]; with_reducible apply Upd.box <;> first | (left; with_reducible rfl) | (right; decide) | skip)
    | split

theorem execChDestroy_mut (ring : Fin 2) (e : Sys2Proof.Entry) (s : State) : OutUpd [.latch, .dram, .cyc, .rings, .gnb, .rcd] (some [0xC1, 0xC8]) s (execChDestroy ring e s) := by
  unfold execChDestroy
  repeat' first
    | with_reducible assumption
    | with_reducible apply Upd.refl
    | with_reducible apply OutUpd.next
    | (with_reducible apply Upd.comp (State_runRow_mut (P := [.latch, .dram, .cyc, .rings, .gnb, .rcd]) (W := [0xC1, 0xC8]) ..) <;> first | decide | skip)
    | (with_reducible apply Upd.comp (opChDestroy_mut ..) <;> first | decide | skip)
    | (intro c u hc)

theorem State_writeAccCi_mut (value : Sys2Proof.Word) (s : State) : Upd [.cyc, .gnb, .rcd] (some [0xC1, 0xC8]) s (State.writeAccCi value s) := by
  unfold State.writeAccCi
  repeat' first
    | (extract_lets +onlyGivenNames x; refine Upd.cut (P := [.cyc, .gnb, .rcd]) (W := (some [0xC1, 0xC8])) (s := s) (x := x) ?_ (fun hx => ?_); rotate_left; clear_value x; rotate_left; subst x)
    | (extract_lets +onlyGivenNames x; subst x)
    | with_reducible assumption
    | with_reducible apply Upd.refl
    | (with_reducible apply State_set_step (w := 0xC8); rotate_left; decide; simp only [windowOf, GNB_ACC_CI, GNB_ACC_CI.CI] <;> omega)
    | (with_reducible apply Upd.comp (State_raise_mut ..) <;> first | decide | skip)
    | (with_reducible show Upd _ _ _ _; with_reducible rw [State.mk_box]; with_reducible apply Upd.box <;> first | (left; with_reducible rfl) | (right; decide) | skip)
    | split

theorem State_accPut_mut (entry : Bool → Nat → List Sys2Proof.Byte) (s : State) : FstUpd [.dram, .cyc, .gnb, .rcd] (some [0xC1, 0xC8]) s (State.accPut entry s) := by
  unfold State.accPut
  repeat' first
    | (extract_lets +onlyGivenNames x; refine Upd.cut (P := [.dram, .cyc, .gnb, .rcd]) (W := (some [0xC1, 0xC8])) (s := s) (x := x) ?_ (fun hx => ?_); rotate_left; clear_value x; rotate_left; subst x)
    | (extract_lets +onlyGivenNames x; subst x)
    | with_reducible assumption
    | with_reducible apply Upd.refl
    | (with_reducible show FstUpd _ _ _ _; with_reducible rw [State.fst_pair]; with_reducible apply FstUpd.mk)
    | (with_reducible apply State_bump_step (w := 0xC8); rotate_left; decide; simp only [windowOf, GNB_ACC_DROP, GNB_ACC_DROP.DROP, GNB_ACC_PI, GNB_ACC_PI.PI] <;> omega)
    | (with_reducible apply Upd.comp (State_dramPuts_mut ..) <;> first | decide | skip)
    | (with_reducible apply State_set_step (w := 0xC8); rotate_left; decide; simp only [windowOf, GNB_ACC_DROP, GNB_ACC_DROP.DROP, GNB_ACC_PI, GNB_ACC_PI.PI] <;> omega)
    | (with_reducible apply Upd.comp (State_raise_mut ..) <;> first | decide | skip)
    | (with_reducible show Upd _ _ _ _; with_reducible rw [State.mk_box]; with_reducible apply Upd.box <;> first | (left; with_reducible rfl) | (right; decide) | skip)
    | split

theorem State_atSl_mut (f : Strobe → Strobe) (s : State) : Upd [.gnb] (some []) s (State.atSl f s) := by
  unfold State.atSl
  repeat' first
    | (extract_lets +onlyGivenNames x; subst x)
    | with_reducible apply Upd.refl
    | (with_reducible show Upd _ _ _ _; with_reducible rw [State.mk_box]; with_reducible apply Upd.box <;> first | (left; with_reducible rfl) | (right; decide) | skip)

theorem State_agc_mut (c : Nat) (g : Nat) (s : State) : Upd [.gnb] (some [0xC8]) s (State.agc c g s) := by
  unfold State.agc
  repeat' first
    | (extract_lets +onlyGivenNames x; refine Upd.cut (P := [.gnb]) (W := (some [0xC8])) (s := s) (x := x) ?_ (fun hx => ?_); rotate_left; clear_value x; rotate_left; subst x)
    | (extract_lets +onlyGivenNames x; subst x)
    | with_reducible assumption
    | with_reducible apply Upd.refl
    | (with_reducible apply Upd.comp (State_atSl_mut ..) <;> first | decide | skip)
    | (with_reducible apply State_set_step (w := 0xC8); rotate_left; decide; simp only [windowOf, GNB_CHAIN_STAT, GNB_CHAIN_STAT.GAIN] <;> omega)
    | (with_reducible show Upd _ _ _ _; with_reducible rw [State.mk_box]; with_reducible apply Upd.box <;> first | (left; with_reducible rfl) | (right; decide) | skip)
    | split

theorem execChannelBoundary_mut (x : Fin 512) (n : Nat) (gain : BitVec 8) (s : State) : OutUpd [.latch, .dram, .cyc, .gnb, .rcd] (some [0xC0, 0xC1, 0xC8]) s (execChannelBoundary x n gain s) := by
  unfold execChannelBoundary
  repeat' first
    | (extract_lets +onlyGivenNames x; refine Upd.cut (P := [.latch, .dram, .cyc, .gnb, .rcd]) (W := (some [0xC0, 0xC1, 0xC8])) (s := s) (x := x) ?_ (fun hx => ?_); rotate_left; clear_value x; rotate_left; subst x)
    | (extract_lets +onlyGivenNames x; subst x)
    | with_reducible assumption
    | with_reducible apply Upd.refl
    | with_reducible apply OutUpd.next
    | (with_reducible apply FstUpd.comp (State_accPut_mut ..) <;> first | decide | skip)
    | (with_reducible apply Upd.comp (State_setChan_mut ..) <;> first | decide | skip)
    | (with_reducible apply Upd.comp (State_showChan_mut ..) <;> first | decide | skip)
    | (with_reducible apply Upd.comp (State_steerLate_mut ..) <;> first | decide | skip)
    | (with_reducible apply Upd.comp (State_agc_mut ..) <;> first | decide | skip)
    | (with_reducible show Upd _ _ _ _; with_reducible rw [State.fst_box]; with_reducible apply FstUpd.out)
    | split

theorem State_follow_mut (c : Nat) (a1 : List Nat) (a2 : List (Nat × Nat)) (a3 : State) : Upd [.cyc, .rcd] (some [0xC1, 0xC8]) a3 (State.follow c a1 a2 a3) := by
  induction a1 generalizing a2 a3 with
  | nil =>
    unfold State.follow
    repeat' first
      | with_reducible apply Upd.refl
      | (with_reducible apply Upd.comp (ih ..) <;> first | decide | skip)
      | (with_reducible apply State_set_step (w := 0xC8); rotate_left; decide; simp only [windowOf, GNB_NOTCH, GNB_NOTCH.FREQ] <;> omega)
      | (with_reducible apply Upd.comp (State_setLock_mut ..) <;> first | decide | skip)
      | split
  | cons a l ih =>
    unfold State.follow
    repeat' first
      | with_reducible apply Upd.refl
      | (with_reducible apply Upd.comp (ih ..) <;> first | decide | skip)
      | (with_reducible apply State_set_step (w := 0xC8); rotate_left; decide; simp only [windowOf, GNB_NOTCH, GNB_NOTCH.FREQ] <;> omega)
      | (with_reducible apply Upd.comp (State_setLock_mut ..) <;> first | decide | skip)
      | split

theorem State_refollow_mut (c : Nat) (s : State) : Upd [.cyc, .rcd] (some [0xC1, 0xC8]) s (State.refollow c s) := by
  unfold State.refollow
  repeat' first
    | with_reducible apply Upd.refl
    | (with_reducible apply Upd.comp (State_follow_mut ..) <;> first | decide | skip)
    | split

theorem execNotchLock_mut (c : Fin 4) (freq : BitVec 13) (level : BitVec 8) (width : BitVec 8) (s : State) : OutUpd [.cyc, .gnb, .rcd] (some [0xC1, 0xC8]) s (execNotchLock c freq level width s) := by
  unfold execNotchLock
  repeat' first
    | (extract_lets +onlyGivenNames x; subst x)
    | with_reducible apply Upd.refl
    | with_reducible apply OutUpd.next
    | (with_reducible apply Upd.comp (State_refollow_mut ..) <;> first | decide | skip)
    | (with_reducible show Upd _ _ _ _; with_reducible rw [State.mk_box]; with_reducible apply Upd.box <;> first | (left; with_reducible rfl) | (right; decide) | skip)
    | split

theorem State_takeMean_mut (c : Nat) (mean : Option Nat) (s : State) : Upd [.gnb] (some []) s (State.takeMean c mean s) := by
  unfold State.takeMean
  repeat' first
    | (extract_lets +onlyGivenNames x; subst x)
    | with_reducible apply Upd.refl
    | (with_reducible show Upd _ _ _ _; with_reducible rw [State.mk_box]; with_reducible apply Upd.box <;> first | (left; with_reducible rfl) | (right; decide) | skip)
    | split

theorem execRfInterf_mut (c : Fin 4) (clips : BitVec 17) (power : BitVec 16) (mean : Option (BitVec 16)) (gain : BitVec 8) (s : State) : OutUpd [.free, .cyc, .gnb, .rcd] (some [0xC1, 0xC8]) s (execRfInterf c clips power mean gain s) := by
  unfold execRfInterf
  repeat' first
    | (extract_lets +onlyGivenNames x; refine Upd.cut (P := [.free, .cyc, .gnb, .rcd]) (W := (some [0xC1, 0xC8])) (s := s) (x := x) ?_ (fun hx => ?_); rotate_left; clear_value x; rotate_left; subst x)
    | (extract_lets +onlyGivenNames x; subst x)
    | with_reducible assumption
    | with_reducible apply Upd.refl
    | with_reducible apply OutUpd.next
    | (with_reducible apply State_setB_step (w := 0xC8); rotate_left; decide; simp only [windowOf, GNB_CHAIN_STAT, GNB_CHAIN_STAT.JAM, GNB_CHAIN_STAT.SAT] <;> omega)
    | (with_reducible apply Upd.comp (State_takeMean_mut ..) <;> first | decide | skip)
    | (with_reducible apply Upd.comp (State_raise_mut ..) <;> first | decide | skip)
    | (with_reducible apply Upd.comp (State_showPwr_mut ..) <;> first | decide | skip)
    | (with_reducible apply Upd.comp (State_agc_mut ..) <;> first | decide | skip)
    | (with_reducible apply Upd.comp (State_satOn_mut ..) <;> first | decide | skip)
    | (with_reducible show Upd _ _ _ _; with_reducible rw [State.mk_box]; with_reducible apply Upd.box <;> first | (left; with_reducible rfl) | (right; decide) | skip)
    | split

theorem execAntFault_mut (a : Fin 2) (ma : BitVec 8) (s : State) : OutUpd [.cyc, .rcd] (some [0xC1, 0xC8]) s (execAntFault a ma s) := by
  unfold execAntFault
  repeat' first
    | with_reducible apply Upd.refl
    | with_reducible apply OutUpd.next
    | (with_reducible apply Upd.comp (State_biasCurrent_mut ..) <;> first | decide | skip)

theorem execAcqDone_mut (k : Fin 8) (bin : Fin 512) (code : Sys2Proof.Word) (dop : Sys2Proof.Word) (peak : Sys2Proof.Word) (second : Sys2Proof.Word) (noise : Sys2Proof.Word) (cn0 : BitVec 16) (s : State) : OutUpd [.dram, .cyc, .rings, .gnb, .rcd] (some [0xC1, 0xC8]) s (execAcqDone k bin code dop peak second noise cn0 s) := by
  unfold execAcqDone
  repeat' first
    | (extract_lets +onlyGivenNames x; refine Upd.cut (P := [.dram, .cyc, .rings, .gnb, .rcd]) (W := (some [0xC1, 0xC8])) (s := s) (x := x) ?_ (fun hx => ?_); rotate_left; clear_value x; rotate_left; subst x)
    | (extract_lets +onlyGivenNames x; subst x)
    | with_reducible assumption
    | with_reducible apply Upd.refl
    | with_reducible apply OutUpd.next
    | (with_reducible apply Upd.comp (State_gnbCounts_mut ..) <;> first | decide | skip)
    | (with_reducible apply Upd.comp (State_dramPuts_mut ..) <;> first | decide | skip)
    | (with_reducible apply Upd.comp (State_completeSelf_mut ..) <;> first | decide | skip)
    | (with_reducible show Upd _ _ _ _; with_reducible rw [State.mk_box]; with_reducible apply Upd.box <;> first | (left; with_reducible rfl) | (right; decide) | skip)
    | split

theorem State_writeMsCi_mut (value : Sys2Proof.Word) (s : State) : Upd [] (some [0xC8]) s (State.writeMsCi value s) := by
  unfold State.writeMsCi
  repeat' first
    | (extract_lets +onlyGivenNames x; subst x)
    | with_reducible apply Upd.refl
    | (with_reducible apply State_set_step (w := 0xC8); rotate_left; decide; simp only [windowOf, GNB_MS_CI, GNB_MS_CI.CI] <;> omega)
    | split

theorem opAcqStart_mut (c : Cmd) (s : State) (hc : c.blk = 0x08) : Upd [.dram, .cyc, .rings, .gnb, .rcd] (some [0xC1, 0xC8]) s (opAcqStart c s) := by
  unfold opAcqStart
  repeat' first
    | (extract_lets +onlyGivenNames x; subst x)
    | with_reducible assumption
    | with_reducible apply Upd.refl
    | (with_reducible apply Upd.comp (State_gnbCounts_mut ..) <;> first | decide | skip)
    | (with_reducible apply Upd.comp (Cmd_finish_mut (b := 0x08) ..) <;> first | decide | skip)
    | (with_reducible show Upd _ _ _ _; with_reducible rw [State.mk_box]; with_reducible apply Upd.box <;> first | (left; with_reducible rfl) | (right; decide) | skip)
    | split

theorem opChCreate_mut (c : Cmd) (s : State) (hc : c.blk = 0x08) : Upd [.latch, .dram, .cyc, .rings, .gens, .gnb, .rcd] (some [0xC1, 0xC8]) s (opChCreate c s) := by
  unfold opChCreate
  repeat' first
    | (extract_lets +onlyGivenNames x; refine Upd.cut (P := [.latch, .dram, .cyc, .rings, .gens, .gnb, .rcd]) (W := (some [0xC1, 0xC8])) (s := s) (x := x) ?_ (fun hx => ?_); rotate_left; clear_value x; rotate_left; subst x)
    | (extract_lets +onlyGivenNames x; subst x)
    | with_reducible assumption
    | with_reducible apply Upd.refl
    | (with_reducible apply Upd.comp (State_gnbCounts_mut ..) <;> first | decide | skip)
    | (with_reducible apply Upd.comp (Cmd_created_mut (b := 0x08) ..) <;> first | decide | skip)
    | (with_reducible apply Upd.comp (State_setChan_mut ..) <;> first | decide | skip)
    | (with_reducible apply Upd.comp (State_advGen_mut ..) <;> first | decide | skip)
    | (with_reducible apply Upd.comp (Cmd_failed_mut (b := 0x08) ..) <;> first | decide | skip)
    | (with_reducible apply Upd.comp (State_showChan_mut ..) <;> first | decide | skip)
    | split

theorem execChCreate_mut (ring : Fin 2) (e : Sys2Proof.Entry) (s : State) : OutUpd [.latch, .dram, .cyc, .rings, .gens, .gnb, .rcd] (some [0xC1, 0xC8]) s (execChCreate ring e s) := by
  unfold execChCreate
  repeat' first
    | with_reducible assumption
    | with_reducible apply Upd.refl
    | with_reducible apply OutUpd.next
    | (with_reducible apply Upd.comp (State_runRow_mut (P := [.latch, .dram, .cyc, .rings, .gens, .gnb, .rcd]) (W := [0xC1, 0xC8]) ..) <;> first | decide | skip)
    | (with_reducible apply Upd.comp (opChCreate_mut ..) <;> first | decide | skip)
    | (intro c u hc)

theorem execGnbSteer_mut (ring : Fin 2) (e : Sys2Proof.Entry) (s : State) : OutUpd [.latch, .dram, .cyc, .rings, .gnb, .rcd] (some [0xC0, 0xC1, 0xC8]) s (execGnbSteer ring e s) := by
  unfold execGnbSteer
  repeat' first
    | with_reducible assumption
    | with_reducible apply Upd.refl
    | with_reducible apply OutUpd.next
    | (with_reducible apply Upd.comp (State_runRow_mut (P := [.latch, .dram, .cyc, .rings, .gnb, .rcd]) (W := [0xC0, 0xC1, 0xC8]) ..) <;> first | decide | skip)
    | (with_reducible apply Upd.comp (opSteer_mut ..) <;> first | decide | skip)
    | (intro c u hc)

theorem State_writeMsThr_mut (value : Sys2Proof.Word) (s : State) : Upd [.gnb] none s (State.writeMsThr value s) := by
  unfold State.writeMsThr
  repeat' first
    | (extract_lets +onlyGivenNames x; refine Upd.cut (P := [.gnb]) (W := none) (s := s) (x := x) ?_ (fun hx => ?_); rotate_left; clear_value x; rotate_left; subst x)
    | (extract_lets +onlyGivenNames x; subst x)
    | with_reducible assumption
    | with_reducible apply Upd.refl
    | (with_reducible apply Upd.comp (State_atSl_mut ..) <;> first | decide | skip)
    | (with_reducible apply Upd.comp (set_any ..) <;> first | decide | skip)
    | (with_reducible apply Upd.comp (State_plainWrite_mut ..) <;> first | decide | skip)
    | split

theorem State_gnbStart_mut (s : State) : Upd [.gnb] (some [0xC8]) s (State.gnbStart s) := by
  unfold State.gnbStart
  repeat' first
    | (extract_lets +onlyGivenNames x; refine Upd.cut (P := [.gnb]) (W := (some [0xC8])) (s := s) (x := x) ?_ (fun hx => ?_); rotate_left; clear_value x; rotate_left; subst x)
    | with_reducible assumption
    | with_reducible apply Upd.refl
    | (with_reducible apply Upd.comp (State_gnbCounts_mut ..) <;> first | decide | skip)
    | (with_reducible apply Upd.comp (State_setBias_mut ..) <;> first | decide | skip)
    | (with_reducible apply State_set_step (w := 0xC8); rotate_left; decide; simp only [windowOf, GNB_ACC_CI, GNB_ACC_CI.CI, GNB_ACC_PI, GNB_ACC_PI.PI, GNB_MS_CI, GNB_MS_CI.CI, GNB_MS_PI, GNB_MS_PI.PI] <;> omega)
    | (with_reducible apply Upd.foldl <;> first | (intro y a ha hy; skip) | skip)
    | (with_reducible show Upd _ _ _ _; with_reducible rw [State.mk_box]; with_reducible apply Upd.box <;> first | (left; with_reducible rfl) | (right; decide) | skip)

theorem opChResolve_mut (c : Cmd) (s : State) (hc : c.blk = 0x08) : Upd [.dram, .cyc, .rings, .gnb, .rcd] (some [0xC1, 0xC8]) s (opChResolve c s) := by
  unfold opChResolve
  repeat' first
    | (extract_lets +onlyGivenNames x; subst x)
    | with_reducible assumption
    | with_reducible apply Upd.refl
    | (with_reducible apply Upd.comp (State_setChan_mut ..) <;> first | decide | skip)
    | (with_reducible apply Upd.comp (Cmd_finish_mut (b := 0x08) ..) <;> first | decide | skip)
    | split

theorem execChResolve_mut (ring : Fin 2) (e : Sys2Proof.Entry) (s : State) : OutUpd [.dram, .cyc, .rings, .gnb, .rcd] (some [0xC1, 0xC8]) s (execChResolve ring e s) := by
  unfold execChResolve
  repeat' first
    | with_reducible assumption
    | with_reducible apply Upd.refl
    | with_reducible apply OutUpd.next
    | (with_reducible apply Upd.comp (State_runRow_mut (P := [.dram, .cyc, .rings, .gnb, .rcd]) (W := [0xC1, 0xC8]) ..) <;> first | decide | skip)
    | (with_reducible apply Upd.comp (opChResolve_mut ..) <;> first | decide | skip)
    | (intro c u hc)

theorem execAccTimeout_mut (s : State) : OutUpd [.cyc, .gnb, .rcd] (some [0xC1]) s (execAccTimeout s) := by
  unfold execAccTimeout
  repeat' first
    | (extract_lets +onlyGivenNames x; subst x)
    | with_reducible apply Upd.refl
    | with_reducible apply OutUpd.next
    | (with_reducible apply Upd.comp (State_raise_mut ..) <;> first | decide | skip)
    | (with_reducible show Upd _ _ _ _; with_reducible rw [State.mk_box]; with_reducible apply Upd.box <;> first | (left; with_reducible rfl) | (right; decide) | skip)
    | split

theorem State_writeAnt_mut (a : Nat) (value : Sys2Proof.Word) (s : State) : Upd [] (some [0xC8]) s (State.writeAnt a value s) := by
  unfold State.writeAnt
  repeat' first
    | (extract_lets +onlyGivenNames x; refine Upd.cut (P := []) (W := (some [0xC8])) (s := s) (x := x) ?_ (fun hx => ?_); rotate_left; clear_value x; rotate_left; subst x)
    | (extract_lets +onlyGivenNames x; subst x)
    | with_reducible assumption
    | with_reducible apply Upd.refl
    | (with_reducible apply State_setB_step (w := 0xC8); rotate_left; decide; simp only [windowOf, GNB_ANT, GNB_ANT.BIAS_EN, GNB_ANT.SHORT] <;> omega)
    | (with_reducible apply Upd.comp (State_setBias_mut ..) <;> first | decide | skip)
    | split

theorem execMeasBlockWrite_mut (s : State) : OutUpd [.dram, .cyc, .gnb, .rcd] (some [0xC1, 0xC8]) s (execMeasBlockWrite s) := by
  unfold execMeasBlockWrite
  repeat' first
    | with_reducible apply Upd.refl
    | with_reducible apply OutUpd.next
    | (with_reducible apply Upd.comp (State_measBlock_mut ..) <;> first | decide | skip)

theorem State_readGnb_mut (core : Nat) (which : Nat) (s : State) : Upd [.latch, .access] (some [0xC8]) s (State.readGnb core which s) := by
  unfold State.readGnb
  repeat' first
    | (extract_lets +onlyGivenNames x; refine Upd.cut (P := [.latch, .access]) (W := (some [0xC8])) (s := s) (x := x) ?_ (fun hx => ?_); rotate_left; clear_value x; rotate_left; subst x)
    | with_reducible apply Upd.refl
    | (with_reducible apply Upd.comp (State_answer_mut ..) <;> first | decide | skip)
    | (with_reducible apply Upd.comp (State_gnbScView_mut ..) <;> first | decide | skip)
    | (with_reducible apply Upd.comp (State_latchFor_mut ..) <;> first | decide | skip)
    | split

theorem State_writeChainStat_mut (c : Nat) (value : Sys2Proof.Word) (s : State) : Upd [.gnb] none s (State.writeChainStat c value s) := by
  unfold State.writeChainStat
  repeat' first
    | (extract_lets +onlyGivenNames x; refine Upd.cut (P := [.gnb]) (W := none) (s := s) (x := x) ?_ (fun hx => ?_); rotate_left; clear_value x; rotate_left; subst x)
    | (extract_lets +onlyGivenNames x; subst x)
    | with_reducible assumption
    | with_reducible apply Upd.refl
    | (with_reducible apply Upd.comp (State_satOff_mut ..) <;> first | decide | skip)
    | (with_reducible apply Upd.comp (State_plainWrite_mut ..) <;> first | decide | skip)
    | split

theorem execAcqStart_mut (ring : Fin 2) (e : Sys2Proof.Entry) (s : State) : OutUpd [.dram, .cyc, .rings, .gnb, .rcd] (some [0xC1, 0xC8]) s (execAcqStart ring e s) := by
  unfold execAcqStart
  repeat' first
    | with_reducible assumption
    | with_reducible apply Upd.refl
    | with_reducible apply OutUpd.next
    | (with_reducible apply Upd.comp (State_runRow_mut (P := [.dram, .cyc, .rings, .gnb, .rcd]) (W := [0xC1, 0xC8]) ..) <;> first | decide | skip)
    | (with_reducible apply Upd.comp (opAcqStart_mut ..) <;> first | decide | skip)
    | (intro c u hc)

theorem State_writeNotch_mut (c : Nat) (j : Nat) (value : Sys2Proof.Word) (s : State) : Upd [.cyc, .rcd] (some [0xC1, 0xC8]) s (State.writeNotch c j value s) := by
  unfold State.writeNotch
  repeat' first
    | (extract_lets +onlyGivenNames x; refine Upd.cut (P := [.cyc, .rcd]) (W := (some [0xC1, 0xC8])) (s := s) (x := x) ?_ (fun hx => ?_); rotate_left; clear_value x; rotate_left; subst x)
    | (extract_lets +onlyGivenNames x; subst x)
    | with_reducible assumption
    | with_reducible apply Upd.refl
    | (with_reducible apply Upd.comp (State_refollow_mut ..) <;> first | decide | skip)
    | (with_reducible apply State_set_step (w := 0xC8); rotate_left; decide; simp only [windowOf, GNB_NOTCH, GNB_NOTCH.FREQ, GNB_NOTCH.MODE, GNB_NOTCH.WIDTH] <;> omega)
    | (with_reducible apply Upd.comp (State_setLock_mut ..) <;> first | decide | skip)
    | split

theorem State_gnbStep_mut (before : Int) (s : State) : Upd [.cyc, .gnb, .rcd] (some [0xC1, 0xC8]) s (State.gnbStep before s) := by
  unfold State.gnbStep
  repeat' first
    | (extract_lets +onlyGivenNames x; refine Upd.cut (P := [.cyc, .gnb, .rcd]) (W := (some [0xC1, 0xC8])) (s := s) (x := x) ?_ (fun hx => ?_); rotate_left; clear_value x; rotate_left; subst x)
    | (extract_lets +onlyGivenNames x; subst x)
    | with_reducible assumption
    | with_reducible apply Upd.refl
    | (with_reducible apply State_bump_step (w := 0xC8); rotate_left; decide; simp only [windowOf, GNB_MS_CNT, GNB_MS_CNT.SKIP] <;> omega)
    | (with_reducible apply Upd.comp (State_raise_mut ..) <;> first | decide | skip)
    | (with_reducible show Upd _ _ _ _; with_reducible rw [State.mk_box]; with_reducible apply Upd.box <;> first | (left; with_reducible rfl) | (right; decide) | skip)
    | split

end Sys2Proof.Machine
end

