-- ==== Sys2Proof/Laws/MutMtGrid.lean ====
section
/-! SUPPORT. What each operation of Machine/MtGrid.lean may change (`Upd`): its parts of the state and its register windows. -/

namespace Sys2Proof.Machine

set_option Elab.async false
set_option linter.unusedSimpArgs false
set_option linter.unusedTactic false
set_option linter.unreachableTactic false
set_option linter.unnecessarySeqFocus false
set_option maxRecDepth 20000

theorem State_gridSecond_mut (s : State) : Upd [.cyc, .tms, .gnb, .fus, .rcd] (some [0xC1, 0xC3, 0xC8, 0xCC]) s (State.gridSecond s) := by
  unfold State.gridSecond
  repeat' first
    | (extract_lets +onlyGivenNames x; refine Upd.cut (P := [.cyc, .tms, .gnb, .fus, .rcd]) (W := (some [0xC1, 0xC3, 0xC8, 0xCC])) (s := s) (x := x) ?_ (fun hx => ?_); rotate_left; clear_value x; rotate_left; subst x)
    | (extract_lets +onlyGivenNames x; subst x)
    | with_reducible assumption
    | with_reducible apply Upd.refl
    | (with_reducible apply Upd.comp (State_measStrobe_mut ..) <;> first | decide | skip)
    | (with_reducible apply Upd.comp (State_mtSecond_mut ..) <;> first | decide | skip)
    | (with_reducible apply Upd.comp (State_gnbStep_mut ..) <;> first | decide | skip)
    | (with_reducible apply Upd.comp (State_fusBoundary_mut ..) <;> first | decide | skip)
    | (with_reducible apply Upd.comp (State_fusStep_mut ..) <;> first | decide | skip)
    | split

theorem execMtSecond_mut (s : State) : OutUpd [.cyc, .tms, .gnb, .fus, .rcd] (some [0xC1, 0xC3, 0xC8, 0xCC]) s (execMtSecond s) := by
  unfold execMtSecond
  repeat' first
    | with_reducible apply Upd.refl
    | with_reducible apply OutUpd.next
    | (with_reducible apply Upd.comp (State_gridSecond_mut ..) <;> first | decide | skip)

end Sys2Proof.Machine
end

