-- ==== Sys2Proof/Laws/MutInp.lean ====
section
/-! SUPPORT. What each operation of Machine/Inp.lean may change (`Upd`): its parts of the state and its register windows. -/

namespace Sys2Proof.Machine

set_option Elab.async false
set_option linter.unusedSimpArgs false
set_option linter.unusedTactic false
set_option linter.unreachableTactic false
set_option linter.unnecessarySeqFocus false
set_option maxRecDepth 20000

theorem State_noteSupply_mut (i : Nat) (s : State) : Upd [.inp] (some []) s (State.noteSupply i s) := by
  unfold State.noteSupply
  repeat' first
    | (extract_lets +onlyGivenNames x; subst x)
    | with_reducible apply Upd.refl
    | (with_reducible show Upd _ _ _ _; with_reducible rw [State.mk_box]; with_reducible apply Upd.box <;> first | (left; with_reducible rfl) | (right; decide) | skip)

theorem execSsupLimit_mut (i : Fin 6) (ovr : Bool) (s : State) : OutUpd [.inp] (some [0xC4]) s (execSsupLimit i ovr s) := by
  unfold execSsupLimit
  repeat' first
    | (extract_lets +onlyGivenNames x; refine Upd.cut (P := [.inp]) (W := (some [0xC4])) (s := s) (x := x) ?_ (fun hx => ?_); rotate_left; clear_value x; rotate_left; subst x)
    | (extract_lets +onlyGivenNames x; subst x)
    | with_reducible assumption
    | with_reducible apply Upd.refl
    | with_reducible apply OutUpd.next
    | (with_reducible apply State_setB_step (w := 0xC4); rotate_left; decide; simp only [windowOf, INP_SSUP] <;> omega)
    | (with_reducible apply Upd.comp (State_noteSupply_mut ..) <;> first | decide | skip)
    | (with_reducible show Upd _ _ _ _; with_reducible rw [State.mk_box]; with_reducible apply Upd.box <;> first | (left; with_reducible rfl) | (right; decide) | skip)
    | split

theorem State_setAin_mut (n : Nat) (a : Ain) (s : State) : Upd [.inp] (some []) s (State.setAin n a s) := by
  unfold State.setAin
  repeat' first
    | (extract_lets +onlyGivenNames x; subst x)
    | with_reducible apply Upd.refl
    | (with_reducible show Upd _ _ _ _; with_reducible rw [State.mk_box]; with_reducible apply Upd.box <;> first | (left; with_reducible rfl) | (right; decide) | skip)

theorem execAinShunt_mut (n : Fin 48) (s : State) : OutUpd [.cyc, .inp, .rcd] (some [0xC1, 0xC4]) s (execAinShunt n s) := by
  unfold execAinShunt
  repeat' first
    | (extract_lets +onlyGivenNames x; subst x)
    | with_reducible apply Upd.refl
    | with_reducible apply OutUpd.next
    | (with_reducible apply State_setB_step (w := 0xC4); rotate_left; decide; simp only [windowOf, INP_AIN_RAW, INP_AIN_RAW.CODE] <;> omega)
    | (with_reducible apply State_set_step (w := 0xC4); rotate_left; decide; simp only [windowOf, INP_AIN_RAW, INP_AIN_RAW.CODE] <;> omega)
    | (with_reducible apply Upd.comp (State_raise_mut ..) <;> first | decide | skip)
    | (with_reducible apply Upd.comp (State_setAin_mut ..) <;> first | decide | skip)
    | split

theorem State_readPinVal_mut (core : Nat) (n : Nat) (s : State) : Upd [.latch, .access] (some []) s (State.readPinVal core n s) := by
  unfold State.readPinVal
  repeat' first
    | (extract_lets +onlyGivenNames x; refine Upd.cut (P := [.latch, .access]) (W := (some [])) (s := s) (x := x) ?_ (fun hx => ?_); rotate_left; clear_value x; rotate_left; subst x)
    | with_reducible assumption
    | with_reducible apply Upd.refl
    | (with_reducible apply Upd.comp (State_answer_mut ..) <;> first | decide | skip)
    | (with_reducible apply Upd.comp (State_latchFor_mut ..) <;> first | decide | skip)

theorem State_readAinRaw_mut (core : Nat) (n : Nat) (s : State) : Upd [.latch, .access] (some []) s (State.readAinRaw core n s) := by
  unfold State.readAinRaw
  repeat' first
    | with_reducible apply Upd.refl
    | (with_reducible apply Upd.comp (State_answer_mut ..) <;> first | decide | skip)
    | (with_reducible apply Upd.comp (State_latchFor_mut ..) <;> first | decide | skip)

theorem execSsupFault_mut (i : Fin 6) (s : State) : OutUpd [.cyc, .inp, .rcd] (some [0xC1, 0xC4]) s (execSsupFault i s) := by
  unfold execSsupFault
  repeat' first
    | (extract_lets +onlyGivenNames x; refine Upd.cut (P := [.cyc, .inp, .rcd]) (W := (some [0xC1, 0xC4])) (s := s) (x := x) ?_ (fun hx => ?_); rotate_left; clear_value x; rotate_left; subst x)
    | (extract_lets +onlyGivenNames x; subst x)
    | with_reducible assumption
    | with_reducible apply Upd.refl
    | with_reducible apply OutUpd.next
    | (with_reducible apply State_setB_step (w := 0xC4); rotate_left; decide; simp only [windowOf, INP_SSUP] <;> omega)
    | (with_reducible apply Upd.comp (State_raise_mut ..) <;> first | decide | skip)
    | (with_reducible apply Upd.comp (State_noteSupply_mut ..) <;> first | decide | skip)
    | (with_reducible show Upd _ _ _ _; with_reducible rw [State.mk_box]; with_reducible apply Upd.box <;> first | (left; with_reducible rfl) | (right; decide) | skip)
    | split

theorem State_setPin_mut (n : Nat) (p : Pin) (s : State) : Upd [.inp] (some []) s (State.setPin n p s) := by
  unfold State.setPin
  repeat' first
    | (extract_lets +onlyGivenNames x; subst x)
    | with_reducible apply Upd.refl
    | (with_reducible show Upd _ _ _ _; with_reducible rw [State.mk_box]; with_reducible apply Upd.box <;> first | (left; with_reducible rfl) | (right; decide) | skip)

theorem State_pinPublish_mut (n : Nat) (v : Nat) (ltc : Nat) (s : State) : Upd [.inp] (some [0xC4]) s (State.pinPublish n v ltc s) := by
  unfold State.pinPublish
  repeat' first
    | (extract_lets +onlyGivenNames x; refine Upd.cut (P := [.inp]) (W := (some [0xC4])) (s := s) (x := x) ?_ (fun hx => ?_); rotate_left; clear_value x; rotate_left; subst x)
    | (extract_lets +onlyGivenNames x; subst x)
    | with_reducible assumption
    | with_reducible apply Upd.refl
    | (with_reducible apply State_setReg_step (w := 0xC4); rotate_left; decide; simp only [windowOf, INP_PIN_LTC_HI, INP_PIN_LTC_LO, INP_PIN_STAT, INP_PIN_STAT.SEQ, INP_PIN_VAL] <;> omega)
    | (with_reducible apply State_set64_step (w := 0xC4); rotate_left; decide; simp only [windowOf, INP_PIN_LTC_HI, INP_PIN_LTC_LO, INP_PIN_STAT, INP_PIN_STAT.SEQ, INP_PIN_VAL] <;> omega; simp only [windowOf, INP_PIN_LTC_HI, INP_PIN_LTC_LO, INP_PIN_STAT, INP_PIN_STAT.SEQ, INP_PIN_VAL] <;> omega)
    | (with_reducible apply Upd.comp (State_setPin_mut ..) <;> first | decide | skip)
    | (with_reducible apply State_wrapInc_step (w := 0xC4); rotate_left; decide; simp only [windowOf, INP_PIN_LTC_HI, INP_PIN_LTC_LO, INP_PIN_STAT, INP_PIN_STAT.SEQ, INP_PIN_VAL] <;> omega)
    | (with_reducible show Upd _ _ _ _; with_reducible rw [State.mk_box]; with_reducible apply Upd.box <;> first | (left; with_reducible rfl) | (right; decide) | skip)

theorem execPinGateEnd_mut (n : Fin 24) (s : State) : OutUpd [.inp] (some [0xC4]) s (execPinGateEnd n s) := by
  unfold execPinGateEnd
  repeat' first
    | (extract_lets +onlyGivenNames x; refine Upd.cut (P := [.inp]) (W := (some [0xC4])) (s := s) (x := x) ?_ (fun hx => ?_); rotate_left; clear_value x; rotate_left; subst x)
    | (extract_lets +onlyGivenNames x; subst x)
    | with_reducible assumption
    | with_reducible apply Upd.refl
    | with_reducible apply OutUpd.next
    | (with_reducible apply Upd.comp (State_setPin_mut ..) <;> first | decide | skip)
    | (with_reducible apply Upd.comp (State_pinPublish_mut ..) <;> first | decide | skip)
    | split

theorem State_inpDisable_mut (s : State) : Upd [] (some [0xC4]) s (State.inpDisable s) := by
  unfold State.inpDisable
  repeat' first
    | with_reducible apply Upd.refl
    | (with_reducible apply State_setB_step (w := 0xC4); rotate_left; decide; simp only [windowOf, INP_CTRL, INP_CTRL.ENABLE, INP_SSUP, INP_SSUP.LIMIT] <;> omega)
    | (with_reducible apply State_set_step (w := 0xC4); rotate_left; decide; simp only [windowOf, INP_CTRL, INP_CTRL.ENABLE, INP_SSUP, INP_SSUP.LIMIT] <;> omega)

theorem execInpDisable_mut (s : State) : OutUpd [] (some [0xC4]) s (execInpDisable s) := by
  unfold execInpDisable
  repeat' first
    | with_reducible apply Upd.refl
    | with_reducible apply OutUpd.next
    | (with_reducible apply Upd.comp (State_inpDisable_mut ..) <;> first | decide | skip)
    | split

theorem State_lacFault_mut (n : Nat) (bit : Nat) (s : State) : Upd [.cyc, .rcd] (some [0xC1, 0xC4]) s (State.lacFault n bit s) := by
  unfold State.lacFault
  repeat' first
    | (extract_lets +onlyGivenNames x; subst x)
    | with_reducible apply Upd.refl
    | (with_reducible apply State_setB_step (w := 0xC4); rotate_left; decide; simp only [windowOf, INP_LAC_STAT] <;> omega)
    | (with_reducible apply Upd.comp (State_raise_mut ..) <;> first | decide | skip)
    | split

theorem State_setLac_mut (n : Nat) (l : Lac) (s : State) : Upd [.inp] (some []) s (State.setLac n l s) := by
  unfold State.setLac
  repeat' first
    | (extract_lets +onlyGivenNames x; subst x)
    | with_reducible apply Upd.refl
    | (with_reducible show Upd _ _ _ _; with_reducible rw [State.mk_box]; with_reducible apply Upd.box <;> first | (left; with_reducible rfl) | (right; decide) | skip)

theorem execLacSample_mut (n : Fin 8) (sample : Sys2Proof.LacSample) (s : State) : OutUpd [.free, .cyc, .inp, .rcd] (some [0xC1, 0xC4]) s (execLacSample n sample s) := by
  unfold execLacSample
  repeat' first
    | (extract_lets +onlyGivenNames x; refine Upd.cut (P := [.free, .cyc, .inp, .rcd]) (W := (some [0xC1, 0xC4])) (s := s) (x := x) ?_ (fun hx => ?_); rotate_left; clear_value x; rotate_left; subst x)
    | (extract_lets +onlyGivenNames x; subst x)
    | with_reducible assumption
    | with_reducible apply Upd.refl
    | with_reducible apply OutUpd.next
    | (with_reducible apply Upd.comp (State_lacFault_mut ..) <;> first | decide | skip)
    | (with_reducible apply Upd.comp (State_drawn_mut ..) <;> first | decide | skip)
    | (with_reducible apply Upd.comp (State_setLac_mut ..) <;> first | decide | skip)
    | split

theorem State_ainSticky_mut (n : Nat) (flags : Nat) (s : State) : Upd [.cyc, .rcd] (some [0xC1, 0xC4]) s (State.ainSticky n flags s) := by
  unfold State.ainSticky
  repeat' first
    | (extract_lets +onlyGivenNames x; refine Upd.cut (P := [.cyc, .rcd]) (W := (some [0xC1, 0xC4])) (s := s) (x := x) ?_ (fun hx => ?_); rotate_left; clear_value x; rotate_left; subst x)
    | (extract_lets +onlyGivenNames x; subst x)
    | with_reducible assumption
    | with_reducible apply Upd.refl
    | (with_reducible apply State_set_step (w := 0xC4); rotate_left; decide; simp only [windowOf, INP_AIN_FLT, INP_AIN_FLT.STICKY] <;> omega)
    | (with_reducible apply Upd.comp (State_raise_mut ..) <;> first | decide | skip)
    | (with_reducible apply Upd.foldl <;> first | (intro y a ha hy; skip) | skip)
    | split

theorem State_pinRise_mut (n : Nat) (stamp : Nat) (p : Pin) (s : State) : Upd [.inp] (some [0xC4]) s (State.pinRise n stamp p s) := by
  unfold State.pinRise
  repeat' first
    | (extract_lets +onlyGivenNames x; refine Upd.cut (P := [.inp]) (W := (some [0xC4])) (s := s) (x := x) ?_ (fun hx => ?_); rotate_left; clear_value x; rotate_left; subst x)
    | (extract_lets +onlyGivenNames x; subst x)
    | with_reducible assumption
    | with_reducible apply Upd.refl
    | (with_reducible apply State_setB_step (w := 0xC4); rotate_left; decide; simp only [windowOf, INP_PIN_STAT, INP_PIN_STAT.STALL] <;> omega)
    | (with_reducible apply Upd.comp (State_setPin_mut ..) <;> first | decide | skip)
    | (with_reducible apply Upd.comp (State_pinPublish_mut ..) <;> first | decide | skip)
    | split

theorem State_quadEdge_mut (n : Nat) (stamp : Nat) (rise : Bool) (both : Bool) (s : State) : Upd [.cyc, .inp, .rcd] (some [0xC1, 0xC4]) s (State.quadEdge n stamp rise both s) := by
  unfold State.quadEdge
  repeat' first
    | (extract_lets +onlyGivenNames x; refine Upd.cut (P := [.cyc, .inp, .rcd]) (W := (some [0xC1, 0xC4])) (s := s) (x := x) ?_ (fun hx => ?_); rotate_left; clear_value x; rotate_left; subst x)
    | (extract_lets +onlyGivenNames x; subst x)
    | with_reducible assumption
    | with_reducible apply Upd.refl
    | (with_reducible apply State_setB_step (w := 0xC4); rotate_left; decide; simp only [windowOf, INP_PIN_STAT, INP_PIN_STAT.QERR, INP_PIN_STAT.STALL] <;> omega)
    | (with_reducible apply State_bump_step (w := 0xC4); rotate_left; decide; simp only [windowOf, INP_PIN_STAT, INP_PIN_STAT.QERR, INP_PIN_STAT.STALL] <;> omega)
    | (with_reducible apply Upd.comp (State_raise_mut ..) <;> first | decide | skip)
    | (with_reducible apply Upd.comp (State_setPin_mut ..) <;> first | decide | skip)
    | (with_reducible apply Upd.comp (State_pinPublish_mut ..) <;> first | decide | skip)
    | split

theorem execPinEdge_mut (n : Fin 24) (rise : Bool) (both : Bool) (stamp : Nat) (held : Nat) (s : State) : OutUpd [.cyc, .inp, .rcd] (some [0xC1, 0xC4]) s (execPinEdge n rise both stamp held s) := by
  unfold execPinEdge
  repeat' first
    | (extract_lets +onlyGivenNames x; subst x)
    | with_reducible apply Upd.refl
    | with_reducible apply OutUpd.next
    | (with_reducible apply State_bump_step (w := 0xC4); rotate_left; decide; simp only [windowOf, INP_PIN_STAT, INP_PIN_STAT.FAST] <;> omega)
    | (with_reducible apply Upd.comp (State_pinRise_mut ..) <;> first | decide | skip)
    | (with_reducible apply Upd.comp (State_setPin_mut ..) <;> first | decide | skip)
    | (with_reducible apply Upd.comp (State_quadEdge_mut ..) <;> first | decide | skip)
    | split

theorem execAoutFault_mut (n : Fin 8) (s : State) : OutUpd [.cyc, .rcd] (some [0xC1, 0xC4]) s (execAoutFault n s) := by
  unfold execAoutFault
  repeat' first
    | with_reducible apply Upd.refl
    | with_reducible apply OutUpd.next
    | (with_reducible apply State_setB_step (w := 0xC4); rotate_left; decide; simp only [windowOf, INP_AOUT, INP_AOUT.FAULT] <;> omega)
    | (with_reducible apply Upd.comp (State_raise_mut ..) <;> first | decide | skip)
    | split

theorem execLacOpen_mut (n : Fin 8) (s : State) : OutUpd [.cyc, .rcd] (some [0xC1, 0xC4]) s (execLacOpen n s) := by
  unfold execLacOpen
  repeat' first
    | with_reducible apply Upd.refl
    | with_reducible apply OutUpd.next
    | (with_reducible apply Upd.comp (State_lacFault_mut ..) <;> first | decide | skip)
    | split

theorem State_writeSsup_mut (value : Sys2Proof.Word) (s : State) : Upd [.inp] (some [0xC4]) s (State.writeSsup value s) := by
  unfold State.writeSsup
  repeat' first
    | (extract_lets +onlyGivenNames x; refine Upd.cut (P := [.inp]) (W := (some [0xC4])) (s := s) (x := x) ?_ (fun hx => ?_); rotate_left; clear_value x; rotate_left; subst x)
    | (extract_lets +onlyGivenNames x; subst x)
    | with_reducible assumption
    | with_reducible apply Upd.refl
    | (with_reducible apply State_set_step (w := 0xC4); rotate_left; decide; simp only [windowOf, INP_SSUP, INP_SSUP.EN, INP_SSUP.FAULT, INP_SSUP.LIMIT] <;> omega)
    | (with_reducible apply Upd.comp (State_noteSupply_mut ..) <;> first | decide | skip)
    | (with_reducible apply Upd.foldl <;> first | (intro y a ha hy; skip) | skip)
    | (with_reducible show Upd _ _ _ _; with_reducible rw [State.mk_box]; with_reducible apply Upd.box <;> first | (left; with_reducible rfl) | (right; decide) | skip)

theorem execDinEdge_mut (n : Fin 16) (edge : Sys2Proof.DinEdge) (s : State) : OutUpd [.cyc, .rcd] (some [0xC1, 0xC4]) s (execDinEdge n edge s) := by
  unfold execDinEdge
  repeat' first
    | (extract_lets +onlyGivenNames x; refine Upd.cut (P := [.cyc, .rcd]) (W := (some [0xC1, 0xC4])) (s := s) (x := x) ?_ (fun hx => ?_); rotate_left; clear_value x; rotate_left; subst x)
    | with_reducible assumption
    | with_reducible apply Upd.refl
    | with_reducible apply OutUpd.next
    | (with_reducible apply State_setB_step (w := 0xC4); rotate_left; decide; simp only [windowOf, INP_DIN] <;> omega)
    | (with_reducible apply Upd.comp (State_raise_mut ..) <;> first | decide | skip)
    | split

theorem State_flowSample_mut (n : Nat) (code : Nat) (flags : Nat) (stamp : Nat) (s : State) : Upd [.inp] (some []) s (State.flowSample n code flags stamp s) := by
  unfold State.flowSample
  repeat' first
    | (extract_lets +onlyGivenNames x; subst x)
    | with_reducible apply Upd.refl
    | (with_reducible show Upd _ _ _ _; with_reducible rw [State.mk_box]; with_reducible apply Upd.box <;> first | (left; with_reducible rfl) | (right; decide) | skip)
    | split

theorem State_inpStart_mut (s : State) : Upd [.inp] (some []) s (State.inpStart s) := by
  unfold State.inpStart
  repeat' first
    | (extract_lets +onlyGivenNames x; subst x)
    | with_reducible apply Upd.refl
    | (with_reducible show Upd _ _ _ _; with_reducible rw [State.mk_box]; with_reducible apply Upd.box <;> first | (left; with_reducible rfl) | (right; decide) | skip)

theorem State_readFlowStat_mut (core : Nat) (s : State) : Upd [.latch, .access] (some []) s (State.readFlowStat core s) := by
  unfold State.readFlowStat
  repeat' first
    | (extract_lets +onlyGivenNames x; refine Upd.cut (P := [.latch, .access]) (W := (some [])) (s := s) (x := x) ?_ (fun hx => ?_); rotate_left; clear_value x; rotate_left; subst x)
    | with_reducible assumption
    | with_reducible apply Upd.refl
    | (with_reducible apply Upd.comp (State_answer_mut ..) <;> first | decide | skip)
    | (with_reducible apply Upd.comp (State_latchFor_mut ..) <;> first | decide | skip)

theorem State_aoutFromCle_mut (n : Nat) (u : F32) (s : State) : Upd [] (some [0xC4]) s (State.aoutFromCle n u s) := by
  unfold State.aoutFromCle
  repeat' first
    | (extract_lets +onlyGivenNames x; subst x)
    | with_reducible apply Upd.refl
    | (with_reducible apply State_set_step (w := 0xC4); rotate_left; decide; simp only [windowOf, INP_AOUT, INP_AOUT.CODE] <;> omega)
    | split

theorem execFlowWindowEnd_mut (s : State) : OutUpd [.cyc, .inp, .rcd] (some [0xC1, 0xC4]) s (execFlowWindowEnd s) := by
  unfold execFlowWindowEnd
  repeat' first
    | (extract_lets +onlyGivenNames x; refine Upd.cut (P := [.cyc, .inp, .rcd]) (W := (some [0xC1, 0xC4])) (s := s) (x := x) ?_ (fun hx => ?_); rotate_left; clear_value x; rotate_left; subst x)
    | (extract_lets +onlyGivenNames x; subst x)
    | with_reducible assumption
    | with_reducible apply Upd.refl
    | with_reducible apply OutUpd.next
    | (with_reducible apply State_setB_step (w := 0xC4); rotate_left; decide; simp only [windowOf, INP_FLOW_LTC_HI, INP_FLOW_LTC_LO, INP_FLOW_STAT, INP_FLOW_STAT.CNT, INP_FLOW_STAT.SEQ, INP_FLOW_STAT.VALID, INP_FLOW_VAL] <;> omega)
    | (with_reducible apply State_setReg_step (w := 0xC4); rotate_left; decide; simp only [windowOf, INP_FLOW_LTC_HI, INP_FLOW_LTC_LO, INP_FLOW_STAT, INP_FLOW_STAT.CNT, INP_FLOW_STAT.SEQ, INP_FLOW_STAT.VALID, INP_FLOW_VAL] <;> omega)
    | (with_reducible apply State_set_step (w := 0xC4); rotate_left; decide; simp only [windowOf, INP_FLOW_LTC_HI, INP_FLOW_LTC_LO, INP_FLOW_STAT, INP_FLOW_STAT.CNT, INP_FLOW_STAT.SEQ, INP_FLOW_STAT.VALID, INP_FLOW_VAL] <;> omega)
    | (with_reducible apply State_set64_step (w := 0xC4); rotate_left; decide; simp only [windowOf, INP_FLOW_LTC_HI, INP_FLOW_LTC_LO, INP_FLOW_STAT, INP_FLOW_STAT.CNT, INP_FLOW_STAT.SEQ, INP_FLOW_STAT.VALID, INP_FLOW_VAL] <;> omega; simp only [windowOf, INP_FLOW_LTC_HI, INP_FLOW_LTC_LO, INP_FLOW_STAT, INP_FLOW_STAT.CNT, INP_FLOW_STAT.SEQ, INP_FLOW_STAT.VALID, INP_FLOW_VAL] <;> omega)
    | (with_reducible apply Upd.comp (State_raise_mut ..) <;> first | decide | skip)
    | (with_reducible apply State_wrapInc_step (w := 0xC4); rotate_left; decide; simp only [windowOf, INP_FLOW_LTC_HI, INP_FLOW_LTC_LO, INP_FLOW_STAT, INP_FLOW_STAT.CNT, INP_FLOW_STAT.SEQ, INP_FLOW_STAT.VALID, INP_FLOW_VAL] <;> omega)
    | (with_reducible show Upd _ _ _ _; with_reducible rw [State.mk_box]; with_reducible apply Upd.box <;> first | (left; with_reducible rfl) | (right; decide) | skip)
    | split

theorem State_writeAinFlt_mut (n : Nat) (value : Sys2Proof.Word) (s : State) : Upd [.inp] (some [0xC4]) s (State.writeAinFlt n value s) := by
  unfold State.writeAinFlt
  repeat' first
    | (extract_lets +onlyGivenNames x; refine Upd.cut (P := [.inp]) (W := (some [0xC4])) (s := s) (x := x) ?_ (fun hx => ?_); rotate_left; clear_value x; rotate_left; subst x)
    | (extract_lets +onlyGivenNames x; subst x)
    | with_reducible assumption
    | with_reducible apply Upd.refl
    | (with_reducible apply State_set_step (w := 0xC4); rotate_left; decide; simp only [windowOf, INP_AIN_FLT, INP_AIN_FLT.STICKY] <;> omega)
    | (with_reducible apply Upd.comp (State_setAin_mut ..) <;> first | decide | skip)
    | split

theorem execPinStall_mut (n : Fin 24) (s : State) : OutUpd [.cyc, .rcd] (some [0xC1, 0xC4]) s (execPinStall n s) := by
  unfold execPinStall
  repeat' first
    | (extract_lets +onlyGivenNames x; subst x)
    | with_reducible apply Upd.refl
    | with_reducible apply OutUpd.next
    | (with_reducible apply State_setB_step (w := 0xC4); rotate_left; decide; simp only [windowOf, INP_PIN_STAT, INP_PIN_STAT.STALL] <;> omega)
    | (with_reducible apply Upd.comp (State_raise_mut ..) <;> first | decide | skip)
    | split

theorem State_writeAoutCle_mut (n : Nat) (value : Sys2Proof.Word) (s : State) : Upd [] (some [0xC4]) s (State.writeAoutCle n value s) := by
  unfold State.writeAoutCle
  repeat' first
    | (extract_lets +onlyGivenNames x; refine Upd.cut (P := []) (W := (some [0xC4])) (s := s) (x := x) ?_ (fun hx => ?_); rotate_left; clear_value x; rotate_left; subst x)
    | with_reducible assumption
    | with_reducible apply Upd.refl
    | (with_reducible apply State_setB_step (w := 0xC4); rotate_left; decide; simp only [windowOf, INP_AOUT, INP_AOUT.EN, INP_AOUT.FAULT, INP_AOUT.SRC] <;> omega)
    | split

theorem execAinSamplePublish_mut (n : Fin 48) (frames : List Nat) (stamp : Nat) (s : State) : OutUpd [.cyc, .inp, .rcd] (some [0xC1, 0xC4]) s (execAinSamplePublish n frames stamp s) := by
  unfold execAinSamplePublish
  repeat' first
    | (extract_lets +onlyGivenNames x; refine Upd.cut (P := [.cyc, .inp, .rcd]) (W := (some [0xC1, 0xC4])) (s := s) (x := x) ?_ (fun hx => ?_); rotate_left; clear_value x; rotate_left; subst x)
    | (extract_lets +onlyGivenNames x; subst x)
    | with_reducible assumption
    | with_reducible apply Upd.refl
    | with_reducible apply OutUpd.next
    | (with_reducible apply Upd.comp (State_ainSticky_mut ..) <;> first | decide | skip)
    | (with_reducible apply State_setReg_step (w := 0xC4); rotate_left; decide; simp only [windowOf, INP_AIN_RAW, INP_AIN_RAW.CODE, INP_AIN_RAW.FLAGS, INP_AIN_RAW.SEQ, INP_AIN_VAL] <;> omega)
    | (with_reducible apply State_set_step (w := 0xC4); rotate_left; decide; simp only [windowOf, INP_AIN_RAW, INP_AIN_RAW.CODE, INP_AIN_RAW.FLAGS, INP_AIN_RAW.SEQ, INP_AIN_VAL] <;> omega)
    | (with_reducible apply Upd.comp (State_flowSample_mut ..) <;> first | decide | skip)
    | (with_reducible apply Upd.comp (State_setAin_mut ..) <;> first | decide | skip)
    | (with_reducible apply State_wrapInc_step (w := 0xC4); rotate_left; decide; simp only [windowOf, INP_AIN_RAW, INP_AIN_RAW.CODE, INP_AIN_RAW.FLAGS, INP_AIN_RAW.SEQ, INP_AIN_VAL] <;> omega)
    | (with_reducible show Upd _ _ _ _; with_reducible rw [State.mk_box]; with_reducible apply Upd.box <;> first | (left; with_reducible rfl) | (right; decide) | skip)
    | split

theorem State_keepPast_mut (a : Nat) (s : State) : Upd [.inp] (some []) s (State.keepPast a s) := by
  unfold State.keepPast
  repeat' first
    | (extract_lets +onlyGivenNames x; subst x)
    | with_reducible apply Upd.refl
    | (with_reducible show Upd _ _ _ _; with_reducible rw [State.mk_box]; with_reducible apply Upd.box <;> first | (left; with_reducible rfl) | (right; decide) | skip)
    | split

theorem State_inpWrite_mut (a : Nat) (value : Sys2Proof.Word) (s : State) : OptUpd [.inp] none s (State.inpWrite a value s) := by
  unfold State.inpWrite
  repeat' first
    | (extract_lets +onlyGivenNames x; refine Upd.cut (P := [.inp]) (W := none) (s := s) (x := x) ?_ (fun hx => ?_); rotate_left; clear_value x; rotate_left; subst x)
    | (extract_lets +onlyGivenNames x; subst x)
    | with_reducible assumption
    | with_reducible apply Upd.refl
    | with_reducible apply OptUpd.ofNone
    | with_reducible apply OptUpd.ofSome
    | (with_reducible apply Upd.comp (setReg_any ..) <;> first | decide | skip)
    | (with_reducible apply Upd.comp (State_writeSsup_mut ..) <;> first | decide | skip)
    | (with_reducible apply Upd.comp (State_writeAinFlt_mut ..) <;> first | decide | skip)
    | (with_reducible apply Upd.comp (State_plainWrite_mut ..) <;> first | decide | skip)
    | (with_reducible apply Upd.comp (State_keepPast_mut ..) <;> first | decide | skip)
    | (with_reducible apply Upd.comp (State_setPin_mut ..) <;> first | decide | skip)
    | (with_reducible apply Upd.comp (State_writeAoutCle_mut ..) <;> first | decide | skip)
    | split

theorem execPinWeak_mut (n : Fin 24) (s : State) : OutUpd [.cyc, .rcd] (some [0xC1]) s (execPinWeak n s) := by
  unfold execPinWeak
  repeat' first
    | with_reducible apply Upd.refl
    | with_reducible apply OutUpd.next
    | (with_reducible apply Upd.comp (State_raise_mut ..) <;> first | decide | skip)
    | split

theorem State_readLacCnt_mut (core : Nat) (n : Nat) (s : State) : Upd [.latch, .access] (some []) s (State.readLacCnt core n s) := by
  unfold State.readLacCnt
  repeat' first
    | (extract_lets +onlyGivenNames x; refine Upd.cut (P := [.latch, .access]) (W := (some [])) (s := s) (x := x) ?_ (fun hx => ?_); rotate_left; clear_value x; rotate_left; subst x)
    | with_reducible assumption
    | with_reducible apply Upd.refl
    | (with_reducible apply Upd.comp (State_answer_mut ..) <;> first | decide | skip)
    | (with_reducible apply Upd.comp (State_latchFor_mut ..) <;> first | decide | skip)

theorem execLacWin_mut (n : Fin 8) (s : State) : OutUpd [.cyc, .inp, .rcd] (some [0xC0, 0xC1, 0xC4, 0xCD]) s (execLacWin n s) := by
  unfold execLacWin
  repeat' first
    | (extract_lets +onlyGivenNames x; refine Upd.cut (P := [.cyc, .inp, .rcd]) (W := (some [0xC0, 0xC1, 0xC4, 0xCD])) (s := s) (x := x) ?_ (fun hx => ?_); rotate_left; clear_value x; rotate_left; subst x)
    | (extract_lets +onlyGivenNames x; subst x)
    | with_reducible assumption
    | with_reducible apply Upd.refl
    | with_reducible apply OutUpd.next
    | (with_reducible apply State_setB_step (w := 0xC4); rotate_left; decide; simp only [windowOf, INP_LAC_CNT, INP_LAC_CNT.COUNT, INP_LAC_CNT.SEQ, INP_LAC_LTC_HI, INP_LAC_LTC_LO, INP_LAC_PEAK, INP_LAC_PEAK.PARTIAL, INP_LAC_PEAK.PEAK] <;> omega)
    | (with_reducible apply State_set_step (w := 0xC4); rotate_left; decide; simp only [windowOf, INP_LAC_CNT, INP_LAC_CNT.COUNT, INP_LAC_CNT.SEQ, INP_LAC_LTC_HI, INP_LAC_LTC_LO, INP_LAC_PEAK, INP_LAC_PEAK.PARTIAL, INP_LAC_PEAK.PEAK] <;> omega)
    | (with_reducible apply Upd.comp (State_yldLossIn_mut ..) <;> first | decide | skip)
    | (with_reducible apply State_set64_step (w := 0xC4); rotate_left; decide; simp only [windowOf, INP_LAC_CNT, INP_LAC_CNT.COUNT, INP_LAC_CNT.SEQ, INP_LAC_LTC_HI, INP_LAC_LTC_LO, INP_LAC_PEAK, INP_LAC_PEAK.PARTIAL, INP_LAC_PEAK.PEAK] <;> omega; simp only [windowOf, INP_LAC_CNT, INP_LAC_CNT.COUNT, INP_LAC_CNT.SEQ, INP_LAC_LTC_HI, INP_LAC_LTC_LO, INP_LAC_PEAK, INP_LAC_PEAK.PARTIAL, INP_LAC_PEAK.PEAK] <;> omega)
    | (with_reducible apply Upd.comp (State_raise_mut ..) <;> first | decide | skip)
    | (with_reducible apply State_wrapInc_step (w := 0xC4); rotate_left; decide; simp only [windowOf, INP_LAC_CNT, INP_LAC_CNT.COUNT, INP_LAC_CNT.SEQ, INP_LAC_LTC_HI, INP_LAC_LTC_LO, INP_LAC_PEAK, INP_LAC_PEAK.PARTIAL, INP_LAC_PEAK.PEAK] <;> omega)
    | (with_reducible apply Upd.comp (State_setLac_mut ..) <;> first | decide | skip)
    | split

end Sys2Proof.Machine
end

