-- ==== Sys2Proof/Laws/MutCleLaw.lean ====
section
/-! SUPPORT. What each operation of Machine/CleLaw.lean may change (`Upd`): its parts of the state and its register windows. -/

namespace Sys2Proof.Machine

set_option Elab.async false
set_option linter.unusedSimpArgs false
set_option linter.unusedTactic false
set_option linter.unreachableTactic false
set_option linter.unnecessarySeqFocus false
set_option maxRecDepth 20000

end Sys2Proof.Machine
end

