-- ==== Sys2Proof/Laws/MutCle.lean ====
section
/-! SUPPORT. What each operation of Machine/Cle.lean may change (`Upd`): its parts of the state and its register windows. -/

namespace Sys2Proof.Machine

set_option Elab.async false
set_option linter.unusedSimpArgs false
set_option linter.unusedTactic false
set_option linter.unreachableTactic false
set_option linter.unnecessarySeqFocus false
set_option maxRecDepth 20000

theorem State_slotFlag_mut {w : Nat} (f : Fld) (src : Nat) (s : State) (h : windowOf f.addr = w) : Upd [.rcd, .cyc] (some [w, 0xC1]) s (State.slotFlag f src s) := by
  unfold State.slotFlag
  exact Upd.ite (Upd.refl s) (((State_setB_mut _ _ s h).mono rfl (by simp [winSub])).trans ((State_raise_mut _ _).mono rfl (by simp [winSub])))
theorem State_slotFlag_step {P : List Comp} {W : Option (List Nat)} {s x : State} {w : Nat} {f : Fld} {src : Nat} (h0 : Upd P W s x)
    (hp : ([.rcd, .cyc] : List Comp).all (P.contains ·) = true) (hw : winSub (some [w, 0xC1]) W = true) (h : windowOf f.addr = w) : Upd P W s (State.slotFlag f src x) :=
  (State_slotFlag_mut f src x h).comp hp hw h0

theorem State_lateStrobe_mut (x : Nat) (s : State) : Upd [.cyc, .rcd] (some [0xC0, 0xC1, 0xC5]) s (State.lateStrobe x s) := by
  unfold State.lateStrobe
  repeat' first
    | with_reducible apply Upd.refl
    | (with_reducible apply State_bump_step (w := 0xC5); rotate_left; decide; simp only [windowOf, CLE_S_CNT, CLE_S_CNT.LATE, CLE_S_STAT, CLE_S_STAT.LATE, CLE_VIOL_CNT, CLE_VIOL_CNT.LATE, SYS_DET_STATUS, SYS_DET_STATUS.CLE_LATE] <;> omega)
    | (with_reducible apply State_detViol_step; rotate_left; decide; decide; simp only [windowOf, Fld.addr, SYS_DET_STATUS, SYS_DET_STATUS.RECONF, SYS_DET_STATUS.REC_LATE, SYS_DET_STATUS.YLD_LATE, SYS_DET_STATUS.GNB_STEER, SYS_DET_STATUS.FUS_LATE, SYS_DET_STATUS.STK_LATE, SYS_DET_STATUS.CLE_COEF, SYS_DET_STATUS.CLE_LATE])
    | (with_reducible apply State_slotFlag_step (w := 0xC5); rotate_left; decide; decide; simp only [windowOf, CLE_S_CNT, CLE_S_CNT.LATE, CLE_S_STAT, CLE_S_STAT.LATE, CLE_VIOL_CNT, CLE_VIOL_CNT.LATE, SYS_DET_STATUS, SYS_DET_STATUS.CLE_LATE] <;> omega)

theorem State_setSlot_mut (x : Nat) (l : CleSlot) (s : State) : Upd [.cle] (some []) s (State.setSlot x l s) := by
  unfold State.setSlot
  repeat' first
    | (extract_lets +onlyGivenNames x; subst x)
    | with_reducible apply Upd.refl
    | (with_reducible show Upd _ _ _ _; with_reducible rw [State.mk_box]; with_reducible apply Upd.box <;> first | (left; with_reducible rfl) | (right; decide) | skip)

theorem State_captureSlot_mut (x : Nat) (n : Nat) (first : Bool) (s : State) : Upd [.cyc, .cle, .rcd] (some [0xC0, 0xC1, 0xC5]) s (State.captureSlot x n first s) := by
  unfold State.captureSlot
  repeat' first
    | (extract_lets +onlyGivenNames x; refine Upd.cut (P := [.cyc, .cle, .rcd]) (W := (some [0xC0, 0xC1, 0xC5])) (s := s) (x := x) ?_ (fun hx => ?_); rotate_left; clear_value x; rotate_left; subst x)
    | (extract_lets +onlyGivenNames x; subst x)
    | with_reducible assumption
    | with_reducible apply Upd.refl
    | (with_reducible apply Upd.comp (State_setSlot_mut ..) <;> first | decide | skip)
    | (with_reducible apply State_slotFlag_step (w := 0xC5); rotate_left; decide; decide; simp only [windowOf, CLE_S_XSTAT, CLE_S_XSTAT.PHELD] <;> omega)
    | (with_reducible apply Upd.comp (State_lateStrobe_mut ..) <;> first | decide | skip)
    | split

theorem State_strobeRun_mut (n : Nat) (s : State) (x : Nat) : Upd [.cyc, .cle, .rcd] (some [0xC0, 0xC1, 0xC5]) s (State.strobeRun n s x) := by
  unfold State.strobeRun
  repeat' first
    | (extract_lets +onlyGivenNames x; subst x)
    | with_reducible apply Upd.refl
    | (with_reducible apply Upd.comp (State_captureSlot_mut ..) <;> first | decide | skip)
    | (with_reducible apply State_set_step (w := 0xC5); rotate_left; decide; simp only [windowOf, CLE_S_STAT, CLE_S_STAT.STATE] <;> omega)
    | (with_reducible apply Upd.comp (State_setSlot_mut ..) <;> first | decide | skip)
    | split

theorem State_cleFree_mut (x : Nat) (s : State) : SndUpd [.free] (some []) s (State.cleFree x s) := by
  unfold State.cleFree
  repeat' first
    | (extract_lets +onlyGivenNames x; refine Upd.cut (P := [.free]) (W := (some [])) (s := s) (x := x) ?_ (fun hx => ?_); rotate_left; clear_value x; rotate_left; subst x)
    | (extract_lets +onlyGivenNames x; subst x)
    | with_reducible assumption
    | with_reducible apply Upd.refl
    | (with_reducible show SndUpd _ _ _ _; with_reducible rw [State.snd_pair]; with_reducible apply SndUpd.mk)
    | (with_reducible apply Upd.comp (State_drawn_mut ..) <;> first | decide | skip)

theorem State_lookReport_mut (x : Nat) (i0 clamp : Fld) (k : Option Look) (s : State) (h0 : windowOf i0.addr = 0xC5) (h1 : windowOf clamp.addr = 0xC5) :
    Upd [.rcd, .cyc] (some [0xC1, 0xC5]) s (s.lookReport x i0 clamp k) := by
  have hx : windowOf (CLE_S_XSTAT.IDX_NF x).addr = 0xC5 := by simp only [windowOf, CLE_S_XSTAT, CLE_S_XSTAT.IDX_NF]; omega
  have hs (f : Fld) (n : Nat) (u : State) (h : windowOf f.addr = 0xC5) : Upd [.rcd, .cyc] (some [0xC1, 0xC5]) u (u.slotFlag f n) :=
    (State_slotFlag_mut f n u h).mono (by decide) (by decide)
  have hi (n : Nat) (u : State) : Upd [.rcd, .cyc] (some [0xC1, 0xC5]) u (u.set i0 n) := (State_set_mut i0 n u h0).mono (by decide) (by decide)
  unfold State.lookReport
  split
  · exact Upd.refl s
  · rename_i k
    have a : Upd [.rcd, .cyc] (some [0xC1, 0xC5]) s (match k.i0 with | some i => s.set i0 i | none => s) := by
      split
      · exact hi _ s
      · exact Upd.refl s
    have b : Upd [.rcd, .cyc] (some [0xC1, 0xC5]) s (if k.clamp then (match k.i0 with | some i => s.set i0 i | none => s).slotFlag clamp 40 else (match k.i0 with | some i => s.set i0 i | none => s)) :=
      Upd.ite (a.trans (hs _ _ _ h1)) a
    exact Upd.ite (b.trans (hs _ _ _ hx)) b

theorem State_evalSlot_mut (x : Nat) (s : State) : Upd [.free, .cyc, .cle, .rcd] (some [0xC1, 0xC5]) s (State.evalSlot x s) := by
  unfold State.evalSlot
  repeat' first
    | (extract_lets +onlyGivenNames x; refine Upd.cut (P := [.free, .cyc, .cle, .rcd]) (W := (some [0xC1, 0xC5])) (s := s) (x := x) ?_ (fun hx => ?_); rotate_left; clear_value x; rotate_left; subst x)
    | with_reducible assumption
    | with_reducible apply Upd.refl
    | (with_reducible show SndUpd _ _ _ _; with_reducible rw [State.snd_pair]; with_reducible apply SndUpd.mk)
    | (with_reducible apply State_setB_step (w := 0xC5); rotate_left; decide; simp only [windowOf, CLE_NUM_CNT, CLE_NUM_CNT.NUM, CLE_S_CNT, CLE_S_CNT.NUM, CLE_S_DERIV, CLE_S_INTEG, CLE_S_MEAS, CLE_S_REF, CLE_S_XSTAT, CLE_S_XSTAT.COG_CLAMP, CLE_S_XSTAT.COG_I0, CLE_S_XSTAT.DIR, CLE_S_XSTAT.FRIC_CLAMP, CLE_S_XSTAT.FRIC_I0, CLE_S_XSTAT.WPEND] <;> omega)
    | (with_reducible apply State_setReg_step (w := 0xC5); rotate_left; decide; simp only [windowOf, CLE_NUM_CNT, CLE_NUM_CNT.NUM, CLE_S_CNT, CLE_S_CNT.NUM, CLE_S_DERIV, CLE_S_INTEG, CLE_S_MEAS, CLE_S_REF, CLE_S_XSTAT, CLE_S_XSTAT.COG_CLAMP, CLE_S_XSTAT.COG_I0, CLE_S_XSTAT.DIR, CLE_S_XSTAT.FRIC_CLAMP, CLE_S_XSTAT.FRIC_I0, CLE_S_XSTAT.WPEND] <;> omega)
    | (with_reducible apply State_bump_step (w := 0xC5); rotate_left; decide; simp only [windowOf, CLE_NUM_CNT, CLE_NUM_CNT.NUM, CLE_S_CNT, CLE_S_CNT.NUM, CLE_S_DERIV, CLE_S_INTEG, CLE_S_MEAS, CLE_S_REF, CLE_S_XSTAT, CLE_S_XSTAT.COG_CLAMP, CLE_S_XSTAT.COG_I0, CLE_S_XSTAT.DIR, CLE_S_XSTAT.FRIC_CLAMP, CLE_S_XSTAT.FRIC_I0, CLE_S_XSTAT.WPEND] <;> omega)
    | (with_reducible apply State_set_step (w := 0xC5); rotate_left; decide; simp only [windowOf, CLE_NUM_CNT, CLE_NUM_CNT.NUM, CLE_S_CNT, CLE_S_CNT.NUM, CLE_S_DERIV, CLE_S_INTEG, CLE_S_MEAS, CLE_S_REF, CLE_S_XSTAT, CLE_S_XSTAT.COG_CLAMP, CLE_S_XSTAT.COG_I0, CLE_S_XSTAT.DIR, CLE_S_XSTAT.FRIC_CLAMP, CLE_S_XSTAT.FRIC_I0, CLE_S_XSTAT.WPEND] <;> omega)
    | (with_reducible apply Upd.comp (State_setSlot_mut ..) <;> first | decide | skip)
    | (with_reducible apply Upd.comp (State_raise_mut ..) <;> first | decide | skip)
    | (with_reducible apply SndUpd.comp (State_cleFree_mut ..) <;> first | decide | skip)
    | (with_reducible apply Upd.comp (State_lookReport_mut (h0 := by simp only [windowOf, CLE_S_XSTAT, CLE_S_XSTAT.FRIC_I0, CLE_S_XSTAT.COG_I0]; omega) (h1 := by simp only [windowOf, CLE_S_XSTAT, CLE_S_XSTAT.FRIC_CLAMP, CLE_S_XSTAT.COG_CLAMP]; omega) ..) <;> first | decide | skip)
    | (with_reducible refine SndUpd.of_eq ?_ (by assumption))
    | split

theorem State_cleCounts_mut (s : State) : Upd [] (some [0xC5]) s (State.cleCounts s) := by
  unfold State.cleCounts
  repeat' first
    | with_reducible apply Upd.refl
    | (with_reducible apply State_set_step (w := 0xC5); rotate_left; decide; simp only [windowOf, CLE_STATUS, CLE_STATUS.RUNNING, CLE_STATUS.SLOTS] <;> omega)

theorem SlotCmd_finish_mut (c : SlotCmd) (code : Nat) (s : State) : Upd [.dram, .cyc, .rings, .rcd] (some [0xC1, 0xC5]) s (SlotCmd.finish c code s) := by
  unfold SlotCmd.finish
  repeat' first
    | with_reducible apply Upd.refl
    | (with_reducible apply Upd.comp (State_completeSelf_mut ..) <;> first | decide | skip)

theorem State_loseSource_mut (gone : Nat) (x : Nat) (s : State) : Upd [.cyc, .cle, .rcd] (some [0xC1, 0xC5]) s (State.loseSource gone x s) := by
  unfold State.loseSource
  repeat' first
    | (extract_lets +onlyGivenNames x; subst x)
    | with_reducible apply Upd.refl
    | (with_reducible apply Upd.comp (State_setSlot_mut ..) <;> first | decide | skip)
    | (with_reducible apply State_slotFlag_step (w := 0xC5); rotate_left; decide; decide; simp only [windowOf, CLE_S_STAT, CLE_S_STAT.SRC_LOST] <;> omega)
    | split

theorem State_wipeSlot_mut (x : Nat) (s : State) : Upd [.latch] (some [0xC5]) s (State.wipeSlot x s) := by
  unfold State.wipeSlot
  repeat' first
    | with_reducible apply Upd.refl
    | (with_reducible apply State_wipeRegs_step (w := 0xC5); rotate_left; decide; decide; intro b h1 h2; simp only [windowOf, CLE_S_STAT, cleSlotBase] at *; omega)

theorem State_slotFree_mut (x : Nat) (s : State) : Upd [.latch, .cyc, .cle, .rcd] (some [0xC1, 0xC5]) s (State.slotFree x s) := by
  unfold State.slotFree
  repeat' first
    | (extract_lets +onlyGivenNames x; refine Upd.cut (P := [.latch, .cyc, .cle, .rcd]) (W := (some [0xC1, 0xC5])) (s := s) (x := x) ?_ (fun hx => ?_); rotate_left; clear_value x; rotate_left; subst x)
    | (extract_lets +onlyGivenNames x; subst x)
    | with_reducible assumption
    | with_reducible apply Upd.refl
    | (with_reducible apply Upd.comp (State_loseSource_mut ..) <;> first | decide | skip)
    | (with_reducible apply Upd.comp (State_cleCounts_mut ..) <;> first | decide | skip)
    | (with_reducible apply Upd.comp (State_wipeSlot_mut ..) <;> first | decide | skip)
    | (with_reducible apply Upd.foldl <;> first | (intro y a ha hy; skip) | skip)
    | (with_reducible show Upd _ _ _ _; with_reducible rw [State.mk_box]; with_reducible apply Upd.box <;> first | (left; with_reducible rfl) | (right; decide) | skip)

theorem State_slotRun_mut (x : Nat) (a1 : List SlotCmd) (a2 : State) : Upd [.latch, .dram, .cyc, .rings, .cle, .rcd] (some [0xC1, 0xC5]) a2 (State.slotRun x a1 a2) := by
  induction a1 generalizing a2 with
  | nil =>
    unfold State.slotRun
    repeat' first
      | (extract_lets +onlyGivenNames x; refine Upd.cut (P := [.latch, .dram, .cyc, .rings, .cle, .rcd]) (W := (some [0xC1, 0xC5])) (s := a2) (x := x) ?_ (fun hx => ?_); rotate_left; clear_value x; rotate_left; subst x)
      | (extract_lets +onlyGivenNames x; subst x)
      | with_reducible assumption
      | with_reducible apply Upd.refl
      | (with_reducible apply Upd.comp (ih ..) <;> first | decide | skip)
      | (with_reducible apply State_setReg_step (w := 0xC5); rotate_left; decide; simp only [windowOf, CLE_S_SAMPLE, CLE_S_STAT, CLE_S_STAT.STATE, CLE_S_XSTAT, CLE_S_XSTAT.DIR] <;> omega)
      | (with_reducible apply State_set_step (w := 0xC5); rotate_left; decide; simp only [windowOf, CLE_S_SAMPLE, CLE_S_STAT, CLE_S_STAT.STATE, CLE_S_XSTAT, CLE_S_XSTAT.DIR] <;> omega)
      | (with_reducible apply Upd.comp (State_setSlot_mut ..) <;> first | decide | skip)
      | (with_reducible apply Upd.comp (SlotCmd_finish_mut ..) <;> first | decide | skip)
      | (with_reducible apply Upd.comp (State_slotFree_mut ..) <;> first | decide | skip)
      | (with_reducible apply Upd.foldl <;> first | (intro y a ha hy; skip) | skip)
      | split
  | cons a l ih =>
    unfold State.slotRun
    repeat' first
      | (extract_lets +onlyGivenNames x; refine Upd.cut (P := [.latch, .dram, .cyc, .rings, .cle, .rcd]) (W := (some [0xC1, 0xC5])) (s := a2) (x := x) ?_ (fun hx => ?_); rotate_left; clear_value x; rotate_left; subst x)
      | (extract_lets +onlyGivenNames x; subst x)
      | with_reducible assumption
      | with_reducible apply Upd.refl
      | (with_reducible apply Upd.comp (ih ..) <;> first | decide | skip)
      | (with_reducible apply State_setReg_step (w := 0xC5); rotate_left; decide; simp only [windowOf, CLE_S_SAMPLE, CLE_S_STAT, CLE_S_STAT.STATE, CLE_S_XSTAT, CLE_S_XSTAT.DIR] <;> omega)
      | (with_reducible apply State_set_step (w := 0xC5); rotate_left; decide; simp only [windowOf, CLE_S_SAMPLE, CLE_S_STAT, CLE_S_STAT.STATE, CLE_S_XSTAT, CLE_S_XSTAT.DIR] <;> omega)
      | (with_reducible apply Upd.comp (State_setSlot_mut ..) <;> first | decide | skip)
      | (with_reducible apply Upd.comp (SlotCmd_finish_mut ..) <;> first | decide | skip)
      | (with_reducible apply Upd.comp (State_slotFree_mut ..) <;> first | decide | skip)
      | (with_reducible apply Upd.foldl <;> first | (intro y a ha hy; skip) | skip)
      | split

theorem slotCommand_mut (op : Nat) (a : Nat) (b : Nat) (c : Cmd) (s : State) (hc : c.blk = 0x05) : Upd [.latch, .dram, .cyc, .rings, .cle, .rcd] (some [0xC1, 0xC5]) s (slotCommand op a b c s) := by
  unfold slotCommand
  repeat' first
    | (extract_lets +onlyGivenNames x; subst x)
    | with_reducible assumption
    | with_reducible apply Upd.refl
    | (with_reducible apply Upd.comp (State_cleCounts_mut ..) <;> first | decide | skip)
    | (with_reducible apply Upd.comp (State_setSlot_mut ..) <;> first | decide | skip)
    | (with_reducible apply Upd.comp (State_slotRun_mut ..) <;> first | decide | skip)
    | (with_reducible apply Upd.comp (Cmd_finish_mut (b := 0x05) ..) <;> first | decide | skip)
    | split

theorem opSlotStop_mut (c : Cmd) (s : State) (hc : c.blk = 0x05) : Upd [.latch, .dram, .cyc, .rings, .cle, .rcd] (some [0xC1, 0xC5]) s (opSlotStop c s) := by
  unfold opSlotStop
  repeat' first
    | with_reducible assumption
    | with_reducible apply Upd.refl
    | (with_reducible apply Upd.comp (slotCommand_mut ..) <;> first | decide | skip)

theorem execCleEvaluate_mut (slot : Fin 96) (s : State) : OutUpd [.free, .cyc, .cle, .rcd] (some [0xC1, 0xC5]) s (execCleEvaluate slot s) := by
  unfold execCleEvaluate
  repeat' first
    | with_reducible apply Upd.refl
    | with_reducible apply OutUpd.next
    | (with_reducible apply Upd.comp (State_evalSlot_mut ..) <;> first | decide | skip)
    | split

theorem State_slotDone_mut (x : Nat) (code : Nat) (s : State) : Upd [.latch, .dram, .cyc, .rings, .cle, .rcd] (some [0xC1, 0xC5]) s (State.slotDone x code s) := by
  unfold State.slotDone
  repeat' first
    | (extract_lets +onlyGivenNames x; subst x)
    | with_reducible apply Upd.refl
    | (with_reducible apply Upd.comp (State_setSlot_mut ..) <;> first | decide | skip)
    | (with_reducible apply Upd.comp (State_slotRun_mut ..) <;> first | decide | skip)
    | (with_reducible apply Upd.comp (SlotCmd_finish_mut ..) <;> first | decide | skip)
    | split

theorem State_cleToVdr_mut (kind : Nat) (k : Nat) (stamp : Nat) (u : F32) (s : State) : Upd [.vdr] (some []) s (State.cleToVdr kind k stamp u s) := by
  unfold State.cleToVdr
  repeat' first
    | (extract_lets +onlyGivenNames x; subst x)
    | with_reducible apply Upd.refl
    | (with_reducible show Upd _ _ _ _; with_reducible rw [State.mk_box]; with_reducible apply Upd.box <;> first | (left; with_reducible rfl) | (right; decide) | skip)
    | split

theorem State_toDest_mut (x : Nat) (stamp : Nat) (u : F32) (s : State) : Upd [.cyc, .vdr, .rcd] (some [0xC1, 0xC4, 0xC5]) s (State.toDest x stamp u s) := by
  unfold State.toDest
  repeat' first
    | (extract_lets +onlyGivenNames x; subst x)
    | with_reducible apply Upd.refl
    | (with_reducible apply Upd.comp (State_cleToVdr_mut ..) <;> first | decide | skip)
    | (with_reducible apply Upd.comp (State_aoutFromCle_mut ..) <;> first | decide | skip)
    | (with_reducible apply State_slotFlag_step (w := 0xC5); rotate_left; decide; decide; simp only [windowOf, CLE_S_STAT, CLE_S_STAT.DLOST] <;> omega)
    | split

theorem State_applySlot_mut (x : Nat) (s : State) : Upd [.latch, .dram, .cyc, .rings, .cle, .vdr, .rcd] (some [0xC1, 0xC4, 0xC5]) s (State.applySlot x s) := by
  unfold State.applySlot
  repeat' first
    | (extract_lets +onlyGivenNames x; refine Upd.cut (P := [.latch, .dram, .cyc, .rings, .cle, .vdr, .rcd]) (W := (some [0xC1, 0xC4, 0xC5])) (s := s) (x := x) ?_ (fun hx => ?_); rotate_left; clear_value x; rotate_left; subst x)
    | (extract_lets +onlyGivenNames x; subst x)
    | with_reducible assumption
    | with_reducible apply Upd.refl
    | (with_reducible apply State_setReg_step (w := 0xC5); rotate_left; decide; simp only [windowOf, CLE_S_OUT, CLE_S_OUT_LTC_HI, CLE_S_OUT_LTC_LO, CLE_S_SAMPLE, CLE_S_STAT, CLE_S_STAT.SAT, CLE_S_XSTAT, CLE_S_XSTAT.HOLD_LONG] <;> omega)
    | (with_reducible apply Upd.comp (State_toDest_mut ..) <;> first | decide | skip)
    | (with_reducible apply Upd.comp (State_slotDone_mut ..) <;> first | decide | skip)
    | (with_reducible apply Upd.comp (State_cleCounts_mut ..) <;> first | decide | skip)
    | (with_reducible apply Upd.comp (State_setSlot_mut ..) <;> first | decide | skip)
    | (with_reducible apply State_set64_step (w := 0xC5); rotate_left; decide; simp only [windowOf, CLE_S_OUT, CLE_S_OUT_LTC_HI, CLE_S_OUT_LTC_LO, CLE_S_SAMPLE, CLE_S_STAT, CLE_S_STAT.SAT, CLE_S_XSTAT, CLE_S_XSTAT.HOLD_LONG] <;> omega; simp only [windowOf, CLE_S_OUT, CLE_S_OUT_LTC_HI, CLE_S_OUT_LTC_LO, CLE_S_SAMPLE, CLE_S_STAT, CLE_S_STAT.SAT, CLE_S_XSTAT, CLE_S_XSTAT.HOLD_LONG] <;> omega)
    | (with_reducible apply State_slotFlag_step (w := 0xC5); rotate_left; decide; decide; simp only [windowOf, CLE_S_OUT, CLE_S_OUT_LTC_HI, CLE_S_OUT_LTC_LO, CLE_S_SAMPLE, CLE_S_STAT, CLE_S_STAT.SAT, CLE_S_XSTAT, CLE_S_XSTAT.HOLD_LONG] <;> omega)
    | (with_reducible show Upd _ _ _ _; with_reducible rw [State.mk_box]; with_reducible apply Upd.box <;> first | (left; with_reducible rfl) | (right; decide) | skip)
    | split

theorem State_settleSlot_mut (n : Nat) (s : State) (x : Nat) : Upd [.latch, .dram, .free, .cyc, .rings, .cle, .vdr, .rcd] (some [0xC1, 0xC4, 0xC5]) s (State.settleSlot n s x) := by
  unfold State.settleSlot
  repeat' first
    | (extract_lets +onlyGivenNames x; refine Upd.cut (P := [.latch, .dram, .free, .cyc, .rings, .cle, .vdr, .rcd]) (W := (some [0xC1, 0xC4, 0xC5])) (s := s) (x := x) ?_ (fun hx => ?_); rotate_left; clear_value x; rotate_left; subst x)
    | (extract_lets +onlyGivenNames x; subst x)
    | with_reducible assumption
    | with_reducible apply Upd.refl
    | (with_reducible apply Upd.comp (State_evalSlot_mut ..) <;> first | decide | skip)
    | (with_reducible apply Upd.comp (State_applySlot_mut ..) <;> first | decide | skip)
    | split

theorem State_stopSlot_mut (x : Nat) (n : Nat) (release : Bool) (s : State) : Upd [.cyc, .cle, .vdr, .rcd] (some [0xC1, 0xC4, 0xC5]) s (State.stopSlot x n release s) := by
  unfold State.stopSlot
  repeat' first
    | (extract_lets +onlyGivenNames x; refine Upd.cut (P := [.cyc, .cle, .vdr, .rcd]) (W := (some [0xC1, 0xC4, 0xC5])) (s := s) (x := x) ?_ (fun hx => ?_); rotate_left; clear_value x; rotate_left; subst x)
    | (extract_lets +onlyGivenNames x; subst x)
    | with_reducible assumption
    | with_reducible apply Upd.refl
    | (with_reducible apply State_setReg_step (w := 0xC5); rotate_left; decide; simp only [windowOf, CLE_S_STAT, CLE_S_STAT.STATE, CLE_S_WSEQ] <;> omega)
    | (with_reducible apply Upd.comp (State_toDest_mut ..) <;> first | decide | skip)
    | (with_reducible apply State_set_step (w := 0xC5); rotate_left; decide; simp only [windowOf, CLE_S_STAT, CLE_S_STAT.STATE, CLE_S_WSEQ] <;> omega)
    | (with_reducible apply Upd.comp (State_setSlot_mut ..) <;> first | decide | skip)
    | split

theorem State_strobeStop_mut (n : Nat) (s : State) (x : Nat) : Upd [.latch, .dram, .cyc, .rings, .cle, .vdr, .rcd] (some [0xC1, 0xC4, 0xC5]) s (State.strobeStop n s x) := by
  unfold State.strobeStop
  repeat' first
    | (extract_lets +onlyGivenNames x; refine Upd.cut (P := [.latch, .dram, .cyc, .rings, .cle, .vdr, .rcd]) (W := (some [0xC1, 0xC4, 0xC5])) (s := s) (x := x) ?_ (fun hx => ?_); rotate_left; clear_value x; rotate_left; subst x)
    | with_reducible assumption
    | with_reducible apply Upd.refl
    | (with_reducible apply Upd.comp (State_slotDone_mut ..) <;> first | decide | skip)
    | (with_reducible apply Upd.comp (State_stopSlot_mut ..) <;> first | decide | skip)
    | (with_reducible apply Upd.comp (SlotCmd_finish_mut ..) <;> first | decide | skip)
    | (with_reducible apply Upd.comp (State_slotFree_mut ..) <;> first | decide | skip)
    | (with_reducible apply Upd.foldl <;> first | (intro y a ha hy; skip) | skip)
    | split

theorem State_strobeAll_mut (n : Nat) (s : State) : Upd [.latch, .dram, .free, .cyc, .rings, .cle, .vdr, .rcd] (some [0xC0, 0xC1, 0xC4, 0xC5]) s (State.strobeAll n s) := by
  unfold State.strobeAll
  repeat' first
    | (extract_lets +onlyGivenNames x; refine Upd.cut (P := [.latch, .dram, .free, .cyc, .rings, .cle, .vdr, .rcd]) (W := (some [0xC0, 0xC1, 0xC4, 0xC5])) (s := s) (x := x) ?_ (fun hx => ?_); rotate_left; clear_value x; rotate_left; subst x)
    | (extract_lets +onlyGivenNames x; subst x)
    | with_reducible assumption
    | with_reducible apply Upd.refl
    | (with_reducible apply Upd.comp (State_settleSlot_mut ..) <;> first | decide | skip)
    | (with_reducible apply Upd.comp (State_strobeStop_mut ..) <;> first | decide | skip)
    | (with_reducible apply Upd.comp (State_cleCounts_mut ..) <;> first | decide | skip)
    | (with_reducible apply Upd.comp (State_strobeRun_mut ..) <;> first | decide | skip)
    | (with_reducible apply Upd.foldl <;> first | (intro y a ha hy; skip) | skip)

theorem execCleStrobe_mut (s : State) : OutUpd [.latch, .dram, .free, .cyc, .rings, .cle, .vdr, .rcd] (some [0xC0, 0xC1, 0xC4, 0xC5]) s (execCleStrobe s) := by
  unfold execCleStrobe
  repeat' first
    | (extract_lets +onlyGivenNames x; subst x)
    | with_reducible apply Upd.refl
    | with_reducible apply OutUpd.next
    | (with_reducible apply Upd.comp (State_strobeAll_mut ..) <;> first | decide | skip)
    | (with_reducible show Upd _ _ _ _; with_reducible rw [State.mk_box]; with_reducible apply Upd.box <;> first | (left; with_reducible rfl) | (right; decide) | skip)
    | split

theorem opSlotDestroy_mut (c : Cmd) (s : State) (hc : c.blk = 0x05) : Upd [.latch, .dram, .cyc, .rings, .cle, .rcd] (some [0xC1, 0xC5]) s (opSlotDestroy c s) := by
  unfold opSlotDestroy
  repeat' first
    | with_reducible assumption
    | with_reducible apply Upd.refl
    | (with_reducible apply Upd.comp (slotCommand_mut ..) <;> first | decide | skip)

theorem execSlotDestroy_mut (ring : Fin 2) (e : Sys2Proof.Entry) (s : State) : OutUpd [.latch, .dram, .cyc, .rings, .cle, .rcd] (some [0xC1, 0xC5]) s (execSlotDestroy ring e s) := by
  unfold execSlotDestroy
  repeat' first
    | with_reducible assumption
    | with_reducible apply Upd.refl
    | with_reducible apply OutUpd.next
    | (with_reducible apply Upd.comp (State_runRow_mut (P := [.latch, .dram, .cyc, .rings, .cle, .rcd]) (W := [0xC1, 0xC5]) ..) <;> first | decide | skip)
    | (with_reducible apply Upd.comp (opSlotDestroy_mut ..) <;> first | decide | skip)
    | (intro c u hc)

theorem slotCmdsEnd_mut (l : List SlotCmd) (s : State) : Upd [.dram, .cyc, .rings, .rcd] (some [0xC1, 0xC5]) s (slotCmdsEnd l s) := by
  unfold slotCmdsEnd
  repeat' first
    | with_reducible assumption
    | with_reducible apply Upd.refl
    | (with_reducible apply Upd.comp (SlotCmd_finish_mut ..) <;> first | decide | skip)
    | (with_reducible apply Upd.foldl <;> first | (intro y a ha hy; skip) | skip)

theorem State_cleDisable_mut (s : State) : Upd [.latch, .dram, .cyc, .rings, .cle, .vdr, .rcd] (some [0xC1, 0xC4, 0xC5]) s (State.cleDisable s) := by
  unfold State.cleDisable
  repeat' first
    | (extract_lets +onlyGivenNames x; refine Upd.cut (P := [.latch, .dram, .cyc, .rings, .cle, .vdr, .rcd]) (W := (some [0xC1, 0xC4, 0xC5])) (s := s) (x := x) ?_ (fun hx => ?_); rotate_left; clear_value x; rotate_left; subst x)
    | (extract_lets +onlyGivenNames x; subst x)
    | with_reducible assumption
    | with_reducible apply Upd.refl
    | (with_reducible apply State_setB_step (w := 0xC5); rotate_left; decide; simp only [windowOf, CLE_CTRL, CLE_CTRL.ENABLE, CLE_STATUS, CLE_STATUS.GRID] <;> omega)
    | (with_reducible apply Upd.comp (State_toDest_mut ..) <;> first | decide | skip)
    | (with_reducible apply Upd.comp (State_cleCounts_mut ..) <;> first | decide | skip)
    | (with_reducible apply Upd.comp (slotCmdsEnd_mut ..) <;> first | decide | skip)
    | (with_reducible apply Upd.comp (State_wipeSlot_mut ..) <;> first | decide | skip)
    | (with_reducible apply Upd.foldl <;> first | (intro y a ha hy; skip) | skip)
    | (with_reducible show Upd _ _ _ _; with_reducible rw [State.mk_box]; with_reducible apply Upd.box <;> first | (left; with_reducible rfl) | (right; decide) | skip)
    | split

theorem State_slotInit_mut (x : Nat) (p : Nat) (n : Nat) (c : Cmd) (s : State) (hc : c.blk = 0x05) : Upd [.latch] (some [0xC5]) s (State.slotInit x p n c s) := by
  unfold State.slotInit
  repeat' first
    | (extract_lets +onlyGivenNames x; refine Upd.cut (P := [.latch]) (W := (some [0xC5])) (s := s) (x := x) ?_ (fun hx => ?_); rotate_left; clear_value x; rotate_left; subst x)
    | (extract_lets +onlyGivenNames x; subst x)
    | with_reducible assumption
    | with_reducible apply Upd.refl
    | (with_reducible apply State_set_step (w := 0xC5); rotate_left; decide; simp only [windowOf, CLE_S_AGE, CLE_S_AGE.MS_AGE, CLE_S_AGE.SP_AGE, CLE_S_ROUTE, CLE_S_ROUTE.DEST_INDEX, CLE_S_ROUTE.DEST_KIND, CLE_S_ROUTE.MS_INDEX, CLE_S_ROUTE.MS_KIND, CLE_S_ROUTE.SP_INDEX, CLE_S_ROUTE.SP_KIND, CLE_S_STAT, CLE_S_STAT.LANE, CLE_S_STAT.LAT, CLE_S_STAT.POS, CLE_S_STAT.SCLK, CLE_S_STAT.STATE, CLE_S_TIMING, CLE_S_TIMING.PHASE, CLE_S_TIMING.PHASE_CYC] <;> omega)
    | (with_reducible apply Upd.comp (State_wipeSlot_mut ..) <;> first | decide | skip)

theorem opSlotCreate_mut (c : Cmd) (s : State) (hc : c.blk = 0x05) : Upd [.latch, .dram, .cyc, .rings, .gens, .cle, .rcd] (some [0xC1, 0xC5]) s (opSlotCreate c s) := by
  unfold opSlotCreate
  repeat' first
    | (extract_lets +onlyGivenNames x; refine Upd.cut (P := [.latch, .dram, .cyc, .rings, .gens, .cle, .rcd]) (W := (some [0xC1, 0xC5])) (s := s) (x := x) ?_ (fun hx => ?_); rotate_left; clear_value x; rotate_left; subst x)
    | with_reducible assumption
    | with_reducible apply Upd.refl
    | (with_reducible apply Upd.comp (Cmd_created_mut (b := 0x05) ..) <;> first | decide | skip)
    | (with_reducible apply Upd.comp (State_slotInit_mut ..) <;> first | decide | skip)
    | (with_reducible apply Upd.comp (State_advGen_mut ..) <;> first | decide | skip)
    | (with_reducible apply Upd.comp (State_cleCounts_mut ..) <;> first | decide | skip)
    | (with_reducible apply Upd.comp (State_setSlot_mut ..) <;> first | decide | skip)
    | (with_reducible apply Upd.comp (Cmd_failed_mut (b := 0x05) ..) <;> first | decide | skip)
    | split

theorem execClePhasePoint_mut (slot : Fin 96) (s : State) : OutUpd [.latch, .dram, .cyc, .rings, .cle, .vdr, .rcd] (some [0xC1, 0xC4, 0xC5]) s (execClePhasePoint slot s) := by
  unfold execClePhasePoint
  repeat' first
    | with_reducible apply Upd.refl
    | with_reducible apply OutUpd.next
    | (with_reducible apply Upd.comp (State_applySlot_mut ..) <;> first | decide | skip)
    | split

theorem execCleDisable_mut (s : State) : OutUpd [.latch, .dram, .cyc, .rings, .cle, .vdr, .rcd] (some [0xC1, 0xC4, 0xC5]) s (execCleDisable s) := by
  unfold execCleDisable
  repeat' first
    | with_reducible apply Upd.refl
    | with_reducible apply OutUpd.next
    | (with_reducible apply Upd.comp (State_cleDisable_mut ..) <;> first | decide | skip)
    | split

theorem opSlotStart_mut (c : Cmd) (s : State) (hc : c.blk = 0x05) : Upd [.latch, .dram, .cyc, .rings, .cle, .rcd] (some [0xC1, 0xC5]) s (opSlotStart c s) := by
  unfold opSlotStart
  repeat' first
    | with_reducible assumption
    | with_reducible apply Upd.refl
    | (with_reducible apply Upd.comp (slotCommand_mut ..) <;> first | decide | skip)

theorem State_coefWrite_mut (x : Nat) (o : Nat) (value : Sys2Proof.Word) (s : State) : Upd [.cyc, .rcd] none s (State.coefWrite x o value s) := by
  unfold State.coefWrite
  repeat' first
    | (extract_lets +onlyGivenNames x; refine Upd.cut (P := [.cyc, .rcd]) (W := none) (s := s) (x := x) ?_ (fun hx => ?_); rotate_left; clear_value x; rotate_left; subst x)
    | (extract_lets +onlyGivenNames x; subst x)
    | with_reducible assumption
    | with_reducible apply Upd.refl
    | (with_reducible apply Upd.comp (setB_any ..) <;> first | decide | skip)
    | (with_reducible apply Upd.comp (setReg_any ..) <;> first | decide | skip)
    | (with_reducible apply State_bump_step (w := 0xC5); rotate_left; decide; simp only [windowOf, CLE_S_STAT, CLE_S_WSEQ, CLE_S_XSTAT, CLE_S_XSTAT.WPEND, CLE_VIOL_CNT, CLE_VIOL_CNT.COEF, SYS_DET_STATUS, SYS_DET_STATUS.CLE_COEF, cleSlotBase] <;> omega)
    | (with_reducible apply Upd.comp (State_raise_mut ..) <;> first | decide | skip)
    | (with_reducible apply State_detViol_step; rotate_left; decide; decide; simp only [windowOf, Fld.addr, SYS_DET_STATUS, SYS_DET_STATUS.RECONF, SYS_DET_STATUS.REC_LATE, SYS_DET_STATUS.YLD_LATE, SYS_DET_STATUS.GNB_STEER, SYS_DET_STATUS.FUS_LATE, SYS_DET_STATUS.STK_LATE, SYS_DET_STATUS.CLE_COEF, SYS_DET_STATUS.CLE_LATE])
    | split

theorem execSlotStop_mut (ring : Fin 2) (e : Sys2Proof.Entry) (s : State) : OutUpd [.latch, .dram, .cyc, .rings, .cle, .rcd] (some [0xC1, 0xC5]) s (execSlotStop ring e s) := by
  unfold execSlotStop
  repeat' first
    | with_reducible assumption
    | with_reducible apply Upd.refl
    | with_reducible apply OutUpd.next
    | (with_reducible apply Upd.comp (State_runRow_mut (P := [.latch, .dram, .cyc, .rings, .cle, .rcd]) (W := [0xC1, 0xC5]) ..) <;> first | decide | skip)
    | (with_reducible apply Upd.comp (opSlotStop_mut ..) <;> first | decide | skip)
    | (intro c u hc)

theorem execSlotStart_mut (ring : Fin 2) (e : Sys2Proof.Entry) (s : State) : OutUpd [.latch, .dram, .cyc, .rings, .cle, .rcd] (some [0xC1, 0xC5]) s (execSlotStart ring e s) := by
  unfold execSlotStart
  repeat' first
    | with_reducible assumption
    | with_reducible apply Upd.refl
    | with_reducible apply OutUpd.next
    | (with_reducible apply Upd.comp (State_runRow_mut (P := [.latch, .dram, .cyc, .rings, .cle, .rcd]) (W := [0xC1, 0xC5]) ..) <;> first | decide | skip)
    | (with_reducible apply Upd.comp (opSlotStart_mut ..) <;> first | decide | skip)
    | (intro c u hc)

theorem State_hostSource_mut (x : Nat) (meas : Bool) (value : Sys2Proof.Word) (s : State) : Upd [.cle] (some [0xC5]) s (State.hostSource x meas value s) := by
  unfold State.hostSource
  repeat' first
    | (extract_lets +onlyGivenNames x; refine Upd.cut (P := [.cle]) (W := (some [0xC5])) (s := s) (x := x) ?_ (fun hx => ?_); rotate_left; clear_value x; rotate_left; subst x)
    | (extract_lets +onlyGivenNames x; subst x)
    | with_reducible assumption
    | with_reducible apply Upd.refl
    | (with_reducible apply State_setReg_step (w := 0xC5); rotate_left; decide; simp only [windowOf, CLE_S_MS_HOST, CLE_S_SP_HOST] <;> split <;> omega)
    | (with_reducible apply Upd.comp (State_setSlot_mut ..) <;> first | decide | skip)
    | split

theorem State_cleWrite_mut (a : Nat) (value : Sys2Proof.Word) (s : State) : OptUpd [.cyc, .cle, .rcd] none s (State.cleWrite a value s) := by
  unfold State.cleWrite
  repeat' first
    | (extract_lets +onlyGivenNames x; subst x)
    | with_reducible assumption
    | with_reducible apply Upd.refl
    | with_reducible apply OptUpd.ofNone
    | with_reducible apply OptUpd.ofSome
    | (with_reducible apply Upd.comp (setB_any ..) <;> first | decide | skip)
    | (with_reducible apply Upd.comp (State_coefWrite_mut ..) <;> first | decide | skip)
    | (with_reducible apply Upd.comp (State_hostSource_mut ..) <;> first | decide | skip)
    | (with_reducible apply Upd.foldl <;> first | (intro y a ha hy; skip) | skip)
    | split

theorem State_readSample_mut (core : Nat) (x : Nat) (s : State) : Upd [.latch, .access] (some []) s (State.readSample core x s) := by
  unfold State.readSample
  repeat' first
    | (extract_lets +onlyGivenNames x; refine Upd.cut (P := [.latch, .access]) (W := (some [])) (s := s) (x := x) ?_ (fun hx => ?_); rotate_left; clear_value x; rotate_left; subst x)
    | (extract_lets +onlyGivenNames x; subst x)
    | with_reducible assumption
    | with_reducible apply Upd.refl
    | (with_reducible apply Upd.comp (State_answer_mut ..) <;> first | decide | skip)
    | (with_reducible apply Upd.comp (State_latchFor_mut ..) <;> first | decide | skip)
    | (with_reducible apply Upd.foldl <;> first | (intro y a ha hy; skip) | skip)

theorem execSlotCreate_mut (ring : Fin 2) (e : Sys2Proof.Entry) (s : State) : OutUpd [.latch, .dram, .cyc, .rings, .gens, .cle, .rcd] (some [0xC1, 0xC5]) s (execSlotCreate ring e s) := by
  unfold execSlotCreate
  repeat' first
    | with_reducible assumption
    | with_reducible apply Upd.refl
    | with_reducible apply OutUpd.next
    | (with_reducible apply Upd.comp (State_runRow_mut (P := [.latch, .dram, .cyc, .rings, .gens, .cle, .rcd]) (W := [0xC1, 0xC5]) ..) <;> first | decide | skip)
    | (with_reducible apply Upd.comp (opSlotCreate_mut ..) <;> first | decide | skip)
    | (intro c u hc)

theorem State_readFrame_mut (core : Nat) (s : State) : Upd [.latch, .access] (some []) s (State.readFrame core s) := by
  unfold State.readFrame
  repeat' first
    | with_reducible apply Upd.refl
    | (with_reducible apply Upd.comp (State_answer_mut ..) <;> first | decide | skip)
    | (with_reducible apply Upd.comp (State_latchFor_mut ..) <;> first | decide | skip)

theorem State_cleStart_mut (s : State) : Upd [.cle] (some [0xC5]) s (State.cleStart s) := by
  unfold State.cleStart
  repeat' first
    | (extract_lets +onlyGivenNames x; refine Upd.cut (P := [.cle]) (W := (some [0xC5])) (s := s) (x := x) ?_ (fun hx => ?_); rotate_left; clear_value x; rotate_left; subst x)
    | (extract_lets +onlyGivenNames x; subst x)
    | with_reducible assumption
    | with_reducible apply Upd.refl
    | (with_reducible apply State_setB_step (w := 0xC5); rotate_left; decide; simp only [windowOf, CLE_GRID_LTC_HI, CLE_GRID_LTC_LO, CLE_STATUS, CLE_STATUS.GRID] <;> omega)
    | (with_reducible apply State_set64_step (w := 0xC5); rotate_left; decide; simp only [windowOf, CLE_GRID_LTC_HI, CLE_GRID_LTC_LO, CLE_STATUS, CLE_STATUS.GRID] <;> omega; simp only [windowOf, CLE_GRID_LTC_HI, CLE_GRID_LTC_LO, CLE_STATUS, CLE_STATUS.GRID] <;> omega)
    | (with_reducible show Upd _ _ _ _; with_reducible rw [State.mk_box]; with_reducible apply Upd.box <;> first | (left; with_reducible rfl) | (right; decide) | skip)

end Sys2Proof.Machine
end

