-- ==== Sys2Proof/Laws/MutEth.lean ====
section
/-! SUPPORT. What each operation of Machine/Eth.lean may change (`Upd`): its parts of the state and its register windows. -/

namespace Sys2Proof.Machine

set_option Elab.async false
set_option linter.unusedSimpArgs false
set_option linter.unusedTactic false
set_option linter.unreachableTactic false
set_option linter.unnecessarySeqFocus false
set_option maxRecDepth 20000

theorem State_flowIncomp_mut (f : Nat) (b : Nat) (s : State) : Upd [.cyc, .eth, .rcd] (some [0xC1, 0xCF]) s (State.flowIncomp f b s) := by
  unfold State.flowIncomp
  repeat' first
    | (extract_lets +onlyGivenNames x; subst x)
    | with_reducible apply Upd.refl
    | (with_reducible apply State_bump_step (w := 0xCF); rotate_left; decide; simp only [windowOf, ETH_FLOW_CNT, ETH_FLOW_CNT.INCOMP] <;> omega)
    | (with_reducible apply Upd.comp (State_raise_mut ..) <;> first | decide | skip)
    | (with_reducible show Upd _ _ _ _; with_reducible rw [State.mk_box]; with_reducible apply Upd.box <;> first | (left; with_reducible rfl) | (right; decide) | skip)

theorem State_lidarRx_mut (f : Nat) (payload : List Sys2Proof.Byte) (s : State) : Upd [.dram, .cyc, .fus, .eth, .rcd] (some [0xC1, 0xCF]) s (State.lidarRx f payload s) := by
  unfold State.lidarRx
  repeat' first
    | (extract_lets +onlyGivenNames x; refine Upd.cut (P := [.dram, .cyc, .fus, .eth, .rcd]) (W := (some [0xC1, 0xCF])) (s := s) (x := x) ?_ (fun hx => ?_); rotate_left; clear_value x; rotate_left; subst x)
    | (extract_lets +onlyGivenNames x; subst x)
    | with_reducible assumption
    | with_reducible apply Upd.refl
    | (with_reducible apply Upd.comp (State_flowIncomp_mut ..) <;> first | decide | skip)
    | (with_reducible apply State_bump_step (w := 0xCF); rotate_left; decide; simp only [windowOf, ETH_FLOW_CNT, ETH_FLOW_CNT.BAD, ETH_FLOW_CNT.BUSY] <;> omega)
    | (with_reducible apply Upd.comp (State_fusFeed_mut ..) <;> first | decide | skip)
    | (with_reducible apply Upd.comp (State_dramPuts_mut ..) <;> first | decide | skip)
    | (with_reducible apply Upd.foldl <;> first | (intro y a ha hy; skip) | skip)
    | (with_reducible show Upd _ _ _ _; with_reducible rw [State.mk_box]; with_reducible apply Upd.box <;> first | (left; with_reducible rfl) | (right; decide) | skip)
    | split
    | (dsimp only)

theorem execLidarFragment_mut (f : Fin 8) (payload : List Sys2Proof.Byte) (s : State) : OutUpd [.dram, .cyc, .fus, .eth, .rcd] (some [0xC1, 0xCF]) s (execLidarFragment f payload s) := by
  unfold execLidarFragment
  repeat' first
    | with_reducible apply Upd.refl
    | with_reducible apply OutUpd.next
    | (with_reducible apply Upd.comp (State_lidarRx_mut ..) <;> first | decide | skip)
    | split

theorem State_keySpent_mut (slot : Nat) (s : State) : Upd [.cyc, .rcd] (some [0xC1, 0xCF]) s (State.keySpent slot s) := by
  unfold State.keySpent
  repeat' first
    | with_reducible apply Upd.refl
    | (with_reducible apply State_setB_step (w := 0xCF); rotate_left; decide; simp only [windowOf, ETH_KEY_STAT, ETH_KEY_STAT.SPENT] <;> omega)
    | (with_reducible apply Upd.comp (State_raise_mut ..) <;> first | decide | skip)
    | split

theorem State_nextSeq_mut (slot : Nat) (key : Nat) (ep : Nat) (s : State) : SndUpd [.free, .cyc, .nv, .eth, .rcd] (some [0xC1, 0xCF]) s (State.nextSeq slot key ep s) := by
  unfold State.nextSeq
  repeat' first
    | (extract_lets +onlyGivenNames x; refine Upd.cut (P := [.free, .cyc, .nv, .eth, .rcd]) (W := (some [0xC1, 0xCF])) (s := s) (x := x) ?_ (fun hx => ?_); rotate_left; clear_value x; rotate_left; subst x)
    | (extract_lets +onlyGivenNames x; subst x)
    | with_reducible assumption
    | with_reducible apply Upd.refl
    | (with_reducible show SndUpd _ _ _ _; with_reducible rw [State.snd_pair]; with_reducible apply SndUpd.mk)
    | (with_reducible apply Upd.comp (State_raise_mut ..) <;> first | decide | skip)
    | (with_reducible apply Upd.comp (State_keySpent_mut ..) <;> first | decide | skip)
    | (with_reducible apply Upd.comp (State_drawn_mut ..) <;> first | decide | skip)
    | (with_reducible show Upd _ _ _ _; with_reducible rw [State.mk_box]; with_reducible apply Upd.box <;> first | (left; with_reducible rfl) | (right; decide) | skip)
    | split

theorem State_keyShow_mut (slot : Nat) (s : State) : Upd [] (some [0xCF]) s (State.keyShow slot s) := by
  unfold State.keyShow
  repeat' first
    | with_reducible apply Upd.refl
    | (with_reducible apply State_setB_step (w := 0xCF); rotate_left; decide; simp only [windowOf, ETH_KEY_STAT, ETH_KEY_STAT.FULL] <;> omega)

theorem State_ethStart_mut (s : State) : Upd [.eth] (some [0xCF]) s (State.ethStart s) := by
  unfold State.ethStart
  repeat' first
    | (extract_lets +onlyGivenNames x; refine Upd.cut (P := [.eth]) (W := (some [0xCF])) (s := s) (x := x) ?_ (fun hx => ?_); rotate_left; clear_value x; rotate_left; subst x)
    | with_reducible assumption
    | with_reducible apply Upd.refl
    | (with_reducible apply Upd.comp (State_keyShow_mut ..) <;> first | decide | skip)
    | (with_reducible apply State_set_step (w := 0xCF); rotate_left; decide; simp only [windowOf, ETH_FLT_RX_CI, ETH_FLT_RX_CI.CI, ETH_FLT_RX_PI, ETH_FLT_RX_PI.PI, ETH_HRX_CI, ETH_HRX_CI.CI, ETH_HRX_PI, ETH_HRX_PI.PI] <;> omega)
    | (with_reducible apply Upd.foldl <;> first | (intro y a ha hy; skip) | skip)
    | (with_reducible show Upd _ _ _ _; with_reducible rw [State.mk_box]; with_reducible apply Upd.box <;> first | (left; with_reducible rfl) | (right; decide) | skip)

theorem State_asCap_mut (s : State) : Upd [.cyc, .rcd] (some [0xC1, 0xCF]) s (State.asCap s) := by
  unfold State.asCap
  repeat' first
    | (extract_lets +onlyGivenNames x; subst x)
    | with_reducible apply Upd.refl
    | (with_reducible apply State_setB_step (w := 0xCF); rotate_left; decide; simp only [windowOf, ETH_GPTP_STAT, ETH_GPTP_STAT.AS_CAP] <;> omega)
    | (with_reducible apply Upd.comp (State_raise_mut ..) <;> first | decide | skip)
    | split

theorem State_gptpGap_mut (s : State) : Upd [.cyc, .eth, .rcd] (some [0xC1]) s (State.gptpGap s) := by
  unfold State.gptpGap
  repeat' first
    | (extract_lets +onlyGivenNames x; subst x)
    | with_reducible apply Upd.refl
    | (with_reducible apply Upd.comp (State_raise_mut ..) <;> first | decide | skip)
    | (with_reducible show Upd _ _ _ _; with_reducible rw [State.mk_box]; with_reducible apply Upd.box <;> first | (left; with_reducible rfl) | (right; decide) | skip)
    | split

theorem State_gptpObs_mut (l : Nat) (origin : Nat) (corr : Int) (s : State) : Upd [.cyc, .tms, .eth, .rcd] (some [0xC1, 0xC3]) s (State.gptpObs l origin corr s) := by
  unfold State.gptpObs
  repeat' first
    | (extract_lets +onlyGivenNames x; refine Upd.cut (P := [.cyc, .tms, .eth, .rcd]) (W := (some [0xC1, 0xC3])) (s := s) (x := x) ?_ (fun hx => ?_); rotate_left; clear_value x; rotate_left; subst x)
    | (extract_lets +onlyGivenNames x; subst x)
    | with_reducible assumption
    | with_reducible apply Upd.refl
    | (with_reducible apply Upd.comp (State_gptpGap_mut ..) <;> first | decide | skip)
    | (with_reducible apply Upd.comp (State_deliverObs_mut ..) <;> first | decide | skip)
    | (with_reducible show Upd _ _ _ _; with_reducible rw [State.mk_box]; with_reducible apply Upd.box <;> first | (left; with_reducible rfl) | (right; decide) | skip)

theorem opKeyErase_mut (c : Cmd) (s : State) (hc : c.blk = 0x0F) : Upd [.dram, .cyc, .rings, .nv, .eth, .rcd] (some [0xC1, 0xCF]) s (opKeyErase c s) := by
  unfold opKeyErase
  repeat' first
    | (extract_lets +onlyGivenNames x; refine Upd.cut (P := [.dram, .cyc, .rings, .nv, .eth, .rcd]) (W := (some [0xC1, 0xCF])) (s := s) (x := x) ?_ (fun hx => ?_); rotate_left; clear_value x; rotate_left; subst x)
    | (extract_lets +onlyGivenNames x; subst x)
    | with_reducible assumption
    | with_reducible apply Upd.refl
    | (with_reducible apply State_setB_step (w := 0xCF); rotate_left; decide; simp only [windowOf, Cmd.arg, Cmd.e, ETH_KEY_STAT, ETH_KEY_STAT.SPENT, bitsOf] <;> omega)
    | (with_reducible apply Upd.comp (State_keyShow_mut ..) <;> first | decide | skip)
    | (with_reducible apply Upd.comp (Cmd_finish_mut (b := 0x0F) ..) <;> first | decide | skip)
    | (with_reducible show Upd _ _ _ _; with_reducible rw [State.mk_box]; with_reducible apply Upd.box <;> first | (left; with_reducible rfl) | (right; decide) | skip)
    | split

theorem execKeyErase_mut (ring : Fin 1) (e : Sys2Proof.Entry) (s : State) : OutUpd [.dram, .cyc, .rings, .nv, .eth, .rcd] (some [0xC1, 0xCF]) s (execKeyErase ring e s) := by
  unfold execKeyErase
  repeat' first
    | with_reducible assumption
    | with_reducible apply Upd.refl
    | with_reducible apply OutUpd.next
    | (with_reducible apply Upd.comp (State_runRow_mut (P := [.dram, .cyc, .rings, .nv, .eth, .rcd]) (W := [0xC1, 0xCF]) ..) <;> first | decide | skip)
    | (with_reducible apply Upd.comp (opKeyErase_mut ..) <;> first | decide | skip)
    | (intro c u hc)

theorem State_ethDisable_mut (s : State) : Upd [.dram, .free, .cyc, .rings, .eth, .rcd] (some [0xC1, 0xCF]) s (State.ethDisable s) := by
  unfold State.ethDisable
  repeat' first
    | (extract_lets +onlyGivenNames x; refine Upd.cut (P := [.dram, .free, .cyc, .rings, .eth, .rcd]) (W := (some [0xC1, 0xCF])) (s := s) (x := x) ?_ (fun hx => ?_); rotate_left; clear_value x; rotate_left; subst x)
    | (extract_lets +onlyGivenNames x; subst x)
    | with_reducible assumption
    | with_reducible apply Upd.refl
    | (with_reducible apply State_setB_step (w := 0xCF); rotate_left; decide; simp only [windowOf, ETH_CTRL, ETH_CTRL.ENABLE, ETH_GPTP_STAT, ETH_GPTP_STAT.AS_CAP, ETH_PORT_STAT, ETH_PORT_STAT.LINK] <;> omega)
    | (with_reducible apply Upd.comp (State_raise_mut ..) <;> first | decide | skip)
    | (with_reducible apply Upd.comp (State_completeSelf_mut ..) <;> first | decide | skip)
    | (with_reducible apply Upd.comp (State_drawn_mut ..) <;> first | decide | skip)
    | (with_reducible apply Upd.foldl <;> first | (intro y a ha hy; skip) | skip)
    | (with_reducible show Upd _ _ _ _; with_reducible rw [State.mk_box]; with_reducible apply Upd.box <;> first | (left; with_reducible rfl) | (right; decide) | skip)
    | split

theorem execEthDisable_mut (s : State) : OutUpd [.dram, .free, .cyc, .rings, .eth, .rcd] (some [0xC1, 0xCF]) s (execEthDisable s) := by
  unfold execEthDisable
  repeat' first
    | with_reducible apply Upd.refl
    | with_reducible apply OutUpd.next
    | (with_reducible apply Upd.comp (State_ethDisable_mut ..) <;> first | decide | skip)
    | split

theorem State_wireLoad_mut (p : Nat) (s : State) : Upd [.eth] (some []) s (State.wireLoad p s) := by
  unfold State.wireLoad
  repeat' first
    | (extract_lets +onlyGivenNames x; subst x)
    | with_reducible apply Upd.refl
    | (with_reducible show Upd _ _ _ _; with_reducible rw [State.mk_box]; with_reducible apply Upd.box <;> first | (left; with_reducible rfl) | (right; decide) | skip)
    | split

theorem State_egressPut_mut (p : Nat) (q : Nat) (f : EgFrame) (s : State) : Upd [.eth] (some []) s (State.egressPut p q f s) := by
  unfold State.egressPut
  repeat' first
    | (extract_lets +onlyGivenNames x; subst x)
    | with_reducible apply Upd.refl
    | (with_reducible apply Upd.comp (State_wireLoad_mut ..) <;> first | decide | skip)
    | (with_reducible show Upd _ _ _ _; with_reducible rw [State.mk_box]; with_reducible apply Upd.box <;> first | (left; with_reducible rfl) | (right; decide) | skip)

theorem State_fltDrop_mut {w : Nat} (f : Fld) (s : State) (h : windowOf f.addr = w) : Upd [.rcd, .cyc] (some [w, 0xC1]) s (State.fltDrop f s) := by
  unfold State.fltDrop
  exact Upd.trans (Upd.ite ((State_raise_mut _ _).mono rfl (by simp [winSub])) (Upd.refl s)) ((State_bump_mut _ _ _ h).mono rfl (by simp [winSub]))
theorem State_fltDrop_step {P : List Comp} {W : Option (List Nat)} {s x : State} {w : Nat} {f : Fld} (h0 : Upd P W s x)
    (hp : ([.rcd, .cyc] : List Comp).all (P.contains ·) = true) (hw : winSub (some [w, 0xC1]) W = true) (h : windowOf f.addr = w) : Upd P W s (State.fltDrop f x) :=
  (State_fltDrop_mut f x h).comp hp hw h0

theorem State_ringPut_mut {w : Nat} (base size : Nat) (pi len : Fld) (bytes : List Byte) (s : State) (h : windowOf pi.addr = w) : Upd [.dram] (some [w]) s (State.ringPut base size pi len bytes s) := by
  unfold State.ringPut
  exact ((State_dramPuts_mut _ _ s).mono rfl (by simp [winSub])).trans ((State_set_mut _ _ _ h).mono rfl (by simp [winSub]))
theorem State_ringPut_step {P : List Comp} {W : Option (List Nat)} {s x : State} {w : Nat} {base size : Nat} {pi len : Fld} {bytes : List Byte} (h0 : Upd P W s x)
    (hp : ([.dram] : List Comp).all (P.contains ·) = true) (hw : winSub (some [w]) W = true) (h : windowOf pi.addr = w) : Upd P W s (State.ringPut base size pi len bytes x) :=
  (State_ringPut_mut base size pi len bytes x h).comp hp hw h0

theorem State_fltRx_mut (d : List Sys2Proof.Byte) (stamp : Nat) (s : State) : Upd [.dram, .cyc, .eth, .rcd] (some [0xC1, 0xCF]) s (State.fltRx d stamp s) := by
  unfold State.fltRx
  repeat' first
    | (extract_lets +onlyGivenNames x; refine Upd.cut (P := [.dram, .cyc, .eth, .rcd]) (W := (some [0xC1, 0xCF])) (s := s) (x := x) ?_ (fun hx => ?_); rotate_left; clear_value x; rotate_left; subst x)
    | (extract_lets +onlyGivenNames x; subst x)
    | with_reducible assumption
    | with_reducible apply Upd.refl
    | (with_reducible apply State_bump_step (w := 0xCF); rotate_left; decide; simp only [windowOf, ETH_FLT_CNT, ETH_FLT_CNT.AUTH, ETH_FLT_CNT.FMT, ETH_FLT_CNT.NOPEER, ETH_FLT_CNT.REPLAY, ETH_FLT_CNT2, ETH_FLT_CNT2.RXDROP, ETH_FLT_RX_PI, ETH_FLT_RX_PI.PI] <;> omega)
    | (with_reducible apply Upd.comp (State_raise_mut ..) <;> first | decide | skip)
    | (with_reducible apply State_fltDrop_step (w := 0xCF); rotate_left; decide; decide; simp only [windowOf, ETH_FLT_CNT, ETH_FLT_CNT.AUTH, ETH_FLT_CNT.FMT, ETH_FLT_CNT.NOPEER, ETH_FLT_CNT.REPLAY, ETH_FLT_CNT2, ETH_FLT_CNT2.RXDROP, ETH_FLT_RX_PI, ETH_FLT_RX_PI.PI] <;> omega)
    | (with_reducible apply State_ringPut_step (w := 0xCF); rotate_left; decide; decide; simp only [windowOf, ETH_FLT_CNT, ETH_FLT_CNT.AUTH, ETH_FLT_CNT.FMT, ETH_FLT_CNT.NOPEER, ETH_FLT_CNT.REPLAY, ETH_FLT_CNT2, ETH_FLT_CNT2.RXDROP, ETH_FLT_RX_PI, ETH_FLT_RX_PI.PI] <;> omega)
    | (with_reducible show Upd _ _ _ _; with_reducible rw [State.mk_box]; with_reducible apply Upd.box <;> first | (left; with_reducible rfl) | (right; decide) | skip)
    | split

theorem State_gptpFollowRx_mut (seq : Nat) (origin : Nat) (corr : Int) (s : State) : Upd [.cyc, .tms, .eth, .rcd] (some [0xC1, 0xC3]) s (State.gptpFollowRx seq origin corr s) := by
  unfold State.gptpFollowRx
  repeat' first
    | (extract_lets +onlyGivenNames x; subst x)
    | with_reducible apply Upd.refl
    | (with_reducible apply Upd.comp (State_gptpObs_mut ..) <;> first | decide | skip)
    | (with_reducible show Upd _ _ _ _; with_reducible rw [State.mk_box]; with_reducible apply Upd.box <;> first | (left; with_reducible rfl) | (right; decide) | skip)
    | split

theorem State_gptpSyncRx_mut (twoStep : Bool) (seq : Nat) (origin : Nat) (corr : Int) (stamp : Nat) (s : State) : Upd [.cyc, .tms, .eth, .rcd] (some [0xC1, 0xC3]) s (State.gptpSyncRx twoStep seq origin corr stamp s) := by
  unfold State.gptpSyncRx
  repeat' first
    | (extract_lets +onlyGivenNames x; subst x)
    | with_reducible apply Upd.refl
    | (with_reducible apply Upd.comp (State_gptpObs_mut ..) <;> first | decide | skip)
    | (with_reducible show Upd _ _ _ _; with_reducible rw [State.mk_box]; with_reducible apply Upd.box <;> first | (left; with_reducible rfl) | (right; decide) | skip)
    | split

theorem State_gptpFrame_mut (body : List Sys2Proof.Byte) (stamp : Nat) (s : State) : Upd [.cyc, .tms, .eth, .rcd] (some [0xC1, 0xC3]) s (State.gptpFrame body stamp s) := by
  unfold State.gptpFrame
  repeat' first
    | (extract_lets +onlyGivenNames x; subst x)
    | with_reducible apply Upd.refl
    | (with_reducible apply Upd.comp (State_gptpFollowRx_mut ..) <;> first | decide | skip)
    | (with_reducible apply Upd.comp (State_gptpSyncRx_mut ..) <;> first | decide | skip)
    | split

theorem State_hostRx_mut (p : Nat) (frame : List Sys2Proof.Byte) (stamp : Nat) (s : State) : Upd [.dram, .cyc, .rcd] (some [0xC1, 0xCF]) s (State.hostRx p frame stamp s) := by
  unfold State.hostRx
  repeat' first
    | (extract_lets +onlyGivenNames x; subst x)
    | with_reducible apply Upd.refl
    | (with_reducible apply State_bump_step (w := 0xCF); rotate_left; decide; simp only [windowOf, ETH_HRX_DROP, ETH_HRX_DROP.DROP, ETH_HRX_PI, ETH_HRX_PI.PI] <;> omega)
    | (with_reducible apply Upd.comp (State_raise_mut ..) <;> first | decide | skip)
    | (with_reducible apply State_ringPut_step (w := 0xCF); rotate_left; decide; decide; simp only [windowOf, ETH_HRX_DROP, ETH_HRX_DROP.DROP, ETH_HRX_PI, ETH_HRX_PI.PI] <;> omega)
    | split

theorem State_internalRx_mut (p : Nat) (f : SwFrame) (untag : Bool) (stamp : Nat) (s : State) : Upd [.dram, .cyc, .tms, .fus, .eth, .rcd] (some [0xC1, 0xC3, 0xCF]) s (State.internalRx p f untag stamp s) := by
  unfold State.internalRx
  repeat' first
    | (extract_lets +onlyGivenNames x; subst x)
    | with_reducible apply Upd.refl
    | (with_reducible apply Upd.comp (State_hostRx_mut ..) <;> first | decide | skip)
    | (with_reducible apply Upd.comp (State_gptpFrame_mut ..) <;> first | decide | skip)
    | (with_reducible apply Upd.comp (State_fltRx_mut ..) <;> first | decide | skip)
    | (with_reducible apply Upd.comp (State_lidarRx_mut ..) <;> first | decide | skip)
    | split

theorem State_forward_mut (i : Nat) (p : Nat) (f : SwFrame) (full : Nat) (stamp : Nat) (q : Nat) (s : State) : Upd [.dram, .cyc, .tms, .fus, .eth, .rcd] (some [0xC1, 0xC3, 0xCF]) s (State.forward i p f full stamp q s) := by
  unfold State.forward
  repeat' first
    | with_reducible apply Upd.refl
    | (with_reducible apply State_bump_step (w := 0xCF); rotate_left; decide; simp only [windowOf, ETH_PORT_STAT, ETH_PORT_STAT.QDROP] <;> omega)
    | (with_reducible apply Upd.comp (State_egressPut_mut ..) <;> first | decide | skip)
    | (with_reducible apply Upd.comp (State_internalRx_mut ..) <;> first | decide | skip)
    | split

theorem State_learn_mut (vid : Nat) (mac : Nat) (p : Nat) (s : State) : Upd [.eth] (some [0xCF]) s (State.learn vid mac p s) := by
  unfold State.learn
  repeat' first
    | (extract_lets +onlyGivenNames x; subst x)
    | with_reducible apply Upd.refl
    | (with_reducible apply State_bump_step (w := 0xCF); rotate_left; decide; simp only [windowOf, ETH_SW_CNT, ETH_SW_CNT.LFULL] <;> omega)
    | (with_reducible show Upd _ _ _ _; with_reducible rw [State.mk_box]; with_reducible apply Upd.box <;> first | (left; with_reducible rfl) | (right; decide) | skip)
    | split

theorem State_macAged_mut (s : State) : Upd [.eth] (some []) s (State.macAged s) := by
  unfold State.macAged
  repeat' first
    | (extract_lets +onlyGivenNames x; subst x)
    | with_reducible apply Upd.refl
    | (with_reducible show Upd _ _ _ _; with_reducible rw [State.mk_box]; with_reducible apply Upd.box <;> first | (left; with_reducible rfl) | (right; decide) | skip)
    | split

theorem State_setTokens_mut (p : Nat) (l : Nat) (s : State) : Upd [.eth] (some []) s (State.setTokens p l s) := by
  unfold State.setTokens
  repeat' first
    | (extract_lets +onlyGivenNames x; subst x)
    | with_reducible apply Upd.refl
    | (with_reducible show Upd _ _ _ _; with_reducible rw [State.mk_box]; with_reducible apply Upd.box <;> first | (left; with_reducible rfl) | (right; decide) | skip)

theorem State_police_mut (p : Nat) (n : Nat) (s : State) : SndUpd [.cyc, .eth, .rcd] (some [0xC1, 0xCF]) s (State.police p n s) := by
  unfold State.police
  repeat' first
    | (extract_lets +onlyGivenNames x; refine Upd.cut (P := [.cyc, .eth, .rcd]) (W := (some [0xC1, 0xCF])) (s := s) (x := x) ?_ (fun hx => ?_); rotate_left; clear_value x; rotate_left; subst x)
    | (extract_lets +onlyGivenNames x; subst x)
    | with_reducible assumption
    | with_reducible apply Upd.refl
    | (with_reducible show SndUpd _ _ _ _; with_reducible rw [State.snd_pair]; with_reducible apply SndUpd.mk)
    | (with_reducible apply State_bump_step (w := 0xCF); rotate_left; decide; simp only [windowOf, ETH_PORT_STAT, ETH_PORT_STAT.POL] <;> omega)
    | (with_reducible apply Upd.comp (State_setTokens_mut ..) <;> first | decide | skip)
    | (with_reducible apply Upd.comp (State_raise_mut ..) <;> first | decide | skip)
    | split

theorem execEthFrameRx_mut (p : Fin 4) (frame : List Sys2Proof.Byte) (fcsOk : Bool) (full : BitVec 16) (stamp : Nat) (s : State) : OutUpd [.dram, .cyc, .tms, .fus, .eth, .rcd] (some [0xC1, 0xC3, 0xCF]) s (execEthFrameRx p frame fcsOk full stamp s) := by
  unfold execEthFrameRx
  repeat' first
    | (extract_lets +onlyGivenNames x; refine Upd.cut (P := [.dram, .cyc, .tms, .fus, .eth, .rcd]) (W := (some [0xC1, 0xC3, 0xCF])) (s := s) (x := x) ?_ (fun hx => ?_); rotate_left; clear_value x; rotate_left; subst x)
    | (extract_lets +onlyGivenNames x; subst x)
    | with_reducible assumption
    | with_reducible apply Upd.refl
    | with_reducible apply OutUpd.next
    | (with_reducible apply State_bump_step (w := 0xCF); rotate_left; decide; simp only [windowOf, ETH_PORT_STAT, ETH_PORT_STAT.ERR, ETH_SW_CNT, ETH_SW_CNT.VDROP] <;> omega)
    | (with_reducible apply Upd.comp (State_macAged_mut ..) <;> first | decide | skip)
    | (with_reducible apply Upd.comp (State_forward_mut ..) <;> first | decide | skip)
    | (with_reducible apply SndUpd.comp (State_police_mut ..) <;> first | decide | skip)
    | (with_reducible apply Upd.comp (State_learn_mut ..) <;> first | decide | skip)
    | (with_reducible apply Upd.foldl <;> first | (intro y a ha hy; skip) | skip)
    | (with_reducible refine SndUpd.of_eq ?_ (by assumption))
    | split

theorem opKeyLoad_mut (c : Cmd) (s : State) (hc : c.blk = 0x0F) : Upd [.dram, .cyc, .rings, .nv, .eth, .rcd] (some [0xC1, 0xCF]) s (opKeyLoad c s) := by
  unfold opKeyLoad
  repeat' first
    | (extract_lets +onlyGivenNames x; refine Upd.cut (P := [.dram, .cyc, .rings, .nv, .eth, .rcd]) (W := (some [0xC1, 0xCF])) (s := s) (x := x) ?_ (fun hx => ?_); rotate_left; clear_value x; rotate_left; subst x)
    | (extract_lets +onlyGivenNames x; subst x)
    | with_reducible assumption
    | with_reducible apply Upd.refl
    | (with_reducible apply State_setB_step (w := 0xCF); rotate_left; decide; simp only [windowOf, Cmd.arg, Cmd.e, ETH_KEY_STAT, ETH_KEY_STAT.SPENT, bitsOf] <;> omega)
    | (with_reducible apply Upd.comp (State_keyShow_mut ..) <;> first | decide | skip)
    | (with_reducible apply Upd.comp (Cmd_finish_mut (b := 0x0F) ..) <;> first | decide | skip)
    | (with_reducible show Upd _ _ _ _; with_reducible rw [State.mk_box]; with_reducible apply Upd.box <;> first | (left; with_reducible rfl) | (right; decide) | skip)
    | split

theorem execGptpFollowUp_mut (seq : BitVec 16) (origin : Nat) (corr : BitVec 64) (s : State) : OutUpd [.cyc, .tms, .eth, .rcd] (some [0xC1, 0xC3]) s (execGptpFollowUp seq origin corr s) := by
  unfold execGptpFollowUp
  repeat' first
    | with_reducible apply Upd.refl
    | with_reducible apply OutUpd.next
    | (with_reducible apply Upd.comp (State_gptpFollowRx_mut ..) <;> first | decide | skip)

theorem opFrameTx_mut (c : Cmd) (s : State) (hc : c.blk = 0x0F) : Upd [.dram, .cyc, .rings, .eth, .rcd] (some [0xC1, 0xCF]) s (opFrameTx c s) := by
  unfold opFrameTx
  repeat' first
    | (extract_lets +onlyGivenNames x; subst x)
    | with_reducible assumption
    | with_reducible apply Upd.refl
    | (with_reducible apply Upd.comp (State_egressPut_mut ..) <;> first | decide | skip)
    | (with_reducible apply Upd.comp (Cmd_finish_mut (b := 0x0F) ..) <;> first | decide | skip)
    | split

theorem execEthTxComplete_mut (p : Fin 4) (s : State) : OutUpd [.dram, .cyc, .rings, .eth, .rcd] (some [0xC1, 0xCF]) s (execEthTxComplete p s) := by
  unfold execEthTxComplete
  repeat' first
    | (extract_lets +onlyGivenNames x; refine Upd.cut (P := [.dram, .cyc, .rings, .eth, .rcd]) (W := (some [0xC1, 0xCF])) (s := s) (x := x) ?_ (fun hx => ?_); rotate_left; clear_value x; rotate_left; subst x)
    | (extract_lets +onlyGivenNames x; subst x)
    | with_reducible assumption
    | with_reducible apply Upd.refl
    | with_reducible apply OutUpd.next
    | (with_reducible apply Upd.comp (State_wireLoad_mut ..) <;> first | decide | skip)
    | (with_reducible apply Upd.comp (State_completeSelf_mut ..) <;> first | decide | skip)
    | (with_reducible show Upd _ _ _ _; with_reducible rw [State.mk_box]; with_reducible apply Upd.box <;> first | (left; with_reducible rfl) | (right; decide) | skip)
    | split

theorem execFltRx_mut (payload : List Sys2Proof.Byte) (stamp : Nat) (s : State) : OutUpd [.dram, .cyc, .eth, .rcd] (some [0xC1, 0xCF]) s (execFltRx payload stamp s) := by
  unfold execFltRx
  repeat' first
    | with_reducible apply Upd.refl
    | with_reducible apply OutUpd.next
    | (with_reducible apply Upd.comp (State_fltRx_mut ..) <;> first | decide | skip)
    | split

theorem opPeerCreate_mut (c : Cmd) (s : State) (hc : c.blk = 0x0F) : Upd [.dram, .cyc, .rings, .gens, .eth, .rcd] (some [0xC1, 0xCF]) s (opPeerCreate c s) := by
  unfold opPeerCreate
  repeat' first
    | (extract_lets +onlyGivenNames x; refine Upd.cut (P := [.dram, .cyc, .rings, .gens, .eth, .rcd]) (W := (some [0xC1, 0xCF])) (s := s) (x := x) ?_ (fun hx => ?_); rotate_left; clear_value x; rotate_left; subst x)
    | (extract_lets +onlyGivenNames x; subst x)
    | with_reducible assumption
    | with_reducible apply Upd.refl
    | (with_reducible apply Upd.comp (Cmd_created_mut (b := 0x0F) ..) <;> first | decide | skip)
    | (with_reducible apply Upd.comp (State_advGen_mut ..) <;> first | decide | skip)
    | (with_reducible apply Upd.comp (Cmd_failed_mut (b := 0x0F) ..) <;> first | decide | skip)
    | (with_reducible show Upd _ _ _ _; with_reducible rw [State.mk_box]; with_reducible apply Upd.box <;> first | (left; with_reducible rfl) | (right; decide) | skip)
    | split

theorem opPeerDestroy_mut (c : Cmd) (s : State) (hc : c.blk = 0x0F) : Upd [.dram, .cyc, .rings, .eth, .rcd] (some [0xC1, 0xCF]) s (opPeerDestroy c s) := by
  unfold opPeerDestroy
  repeat' first
    | (extract_lets +onlyGivenNames x; subst x)
    | with_reducible assumption
    | with_reducible apply Upd.refl
    | (with_reducible apply Upd.comp (Cmd_finish_mut (b := 0x0F) ..) <;> first | decide | skip)
    | (with_reducible show Upd _ _ _ _; with_reducible rw [State.mk_box]; with_reducible apply Upd.box <;> first | (left; with_reducible rfl) | (right; decide) | skip)
    | split

theorem execPeerDestroy_mut (ring : Fin 1) (e : Sys2Proof.Entry) (s : State) : OutUpd [.dram, .cyc, .rings, .eth, .rcd] (some [0xC1, 0xCF]) s (execPeerDestroy ring e s) := by
  unfold execPeerDestroy
  repeat' first
    | with_reducible assumption
    | with_reducible apply Upd.refl
    | with_reducible apply OutUpd.next
    | (with_reducible apply Upd.comp (State_runRow_mut (P := [.dram, .cyc, .rings, .eth, .rcd]) (W := [0xC1, 0xCF]) ..) <;> first | decide | skip)
    | (with_reducible apply Upd.comp (opPeerDestroy_mut ..) <;> first | decide | skip)
    | (intro c u hc)

theorem State_ciWrite_mut {w : Nat} (blk : Nat) (pi ci len : Fld) (value : Word) (s : State) (h : windowOf ci.addr = w) : Upd [] (some [w]) s (State.ciWrite blk pi ci len value s) := by
  unfold State.ciWrite
  exact Upd.ite (Upd.refl s) ((State_set_mut _ _ s h).mono rfl (by simp [winSub]))
theorem State_ciWrite_step {P : List Comp} {W : Option (List Nat)} {s x : State} {w : Nat} {blk : Nat} {pi ci len : Fld} {value : Word} (h0 : Upd P W s x)
    (hp : ([] : List Comp).all (P.contains ·) = true) (hw : winSub (some [w]) W = true) (h : windowOf ci.addr = w) : Upd P W s (State.ciWrite blk pi ci len value x) :=
  (State_ciWrite_mut blk pi ci len value x h).comp hp hw h0

theorem execFollowUpTimeout_mut (s : State) : OutUpd [.eth] (some []) s (execFollowUpTimeout s) := by
  unfold execFollowUpTimeout
  repeat' first
    | (extract_lets +onlyGivenNames x; subst x)
    | with_reducible apply Upd.refl
    | with_reducible apply OutUpd.next
    | (with_reducible show Upd _ _ _ _; with_reducible rw [State.mk_box]; with_reducible apply Upd.box <;> first | (left; with_reducible rfl) | (right; decide) | skip)

theorem execGptpSync_mut (twoStep : Bool) (seq : BitVec 16) (origin : Nat) (corr : BitVec 64) (stamp : Nat) (s : State) : OutUpd [.cyc, .tms, .eth, .rcd] (some [0xC1, 0xC3]) s (execGptpSync twoStep seq origin corr stamp s) := by
  unfold execGptpSync
  repeat' first
    | with_reducible apply Upd.refl
    | with_reducible apply OutUpd.next
    | (with_reducible apply Upd.comp (State_gptpSyncRx_mut ..) <;> first | decide | skip)

theorem execFrameTx_mut (ring : Fin 1) (e : Sys2Proof.Entry) (s : State) : OutUpd [.dram, .cyc, .rings, .eth, .rcd] (some [0xC1, 0xCF]) s (execFrameTx ring e s) := by
  unfold execFrameTx
  repeat' first
    | with_reducible assumption
    | with_reducible apply Upd.refl
    | with_reducible apply OutUpd.next
    | (with_reducible apply Upd.comp (State_runRow_mut (P := [.dram, .cyc, .rings, .eth, .rcd]) (W := [0xC1, 0xCF]) ..) <;> first | decide | skip)
    | (with_reducible apply Upd.comp (opFrameTx_mut ..) <;> first | decide | skip)
    | (intro c u hc)

theorem State_writePol_mut (p : Nat) (value : Sys2Proof.Word) (s : State) : Upd [.eth] none s (State.writePol p value s) := by
  unfold State.writePol
  repeat' first
    | with_reducible apply Upd.refl
    | (with_reducible apply Upd.comp (State_setTokens_mut ..) <;> first | decide | skip)
    | (with_reducible apply Upd.comp (State_plainWrite_mut ..) <;> first | decide | skip)
    | split

theorem opFleetSend_mut (c : Cmd) (s : State) (hc : c.blk = 0x0F) : Upd [.dram, .free, .cyc, .rings, .nv, .eth, .rcd] (some [0xC1, 0xCF]) s (opFleetSend c s) := by
  unfold opFleetSend
  repeat' first
    | (extract_lets +onlyGivenNames x; subst x)
    | with_reducible assumption
    | with_reducible apply Upd.refl
    | (with_reducible apply Upd.comp (State_egressPut_mut ..) <;> first | decide | skip)
    | (with_reducible apply SndUpd.comp (State_nextSeq_mut ..) <;> first | decide | skip)
    | (with_reducible apply Upd.comp (Cmd_finish_mut (b := 0x0F) ..) <;> first | decide | skip)
    | (with_reducible refine SndUpd.of_eq ?_ (by assumption))
    | split

theorem execFleetSend_mut (ring : Fin 1) (e : Sys2Proof.Entry) (s : State) : OutUpd [.dram, .free, .cyc, .rings, .nv, .eth, .rcd] (some [0xC1, 0xCF]) s (execFleetSend ring e s) := by
  unfold execFleetSend
  repeat' first
    | with_reducible assumption
    | with_reducible apply Upd.refl
    | with_reducible apply OutUpd.next
    | (with_reducible apply Upd.comp (State_runRow_mut (P := [.dram, .free, .cyc, .rings, .nv, .eth, .rcd]) (W := [0xC1, 0xCF]) ..) <;> first | decide | skip)
    | (with_reducible apply Upd.comp (opFleetSend_mut ..) <;> first | decide | skip)
    | (intro c u hc)

theorem execPdelayReq_mut (ok : Bool) (delay : BitVec 16) (s : State) : OutUpd [.cyc, .eth, .rcd] (some [0xC1, 0xCF]) s (execPdelayReq ok delay s) := by
  unfold execPdelayReq
  repeat' first
    | (extract_lets +onlyGivenNames x; refine Upd.cut (P := [.cyc, .eth, .rcd]) (W := (some [0xC1, 0xCF])) (s := s) (x := x) ?_ (fun hx => ?_); rotate_left; clear_value x; rotate_left; subst x)
    | (extract_lets +onlyGivenNames x; subst x)
    | with_reducible assumption
    | with_reducible apply Upd.refl
    | with_reducible apply OutUpd.next
    | (with_reducible apply Upd.comp (State_asCap_mut ..) <;> first | decide | skip)
    | (with_reducible apply State_set_step (w := 0xCF); rotate_left; decide; simp only [windowOf, ETH_GPTP_STAT, ETH_GPTP_STAT.PDELAY] <;> omega)
    | (with_reducible show Upd _ _ _ _; with_reducible rw [State.mk_box]; with_reducible apply Upd.box <;> first | (left; with_reducible rfl) | (right; decide) | skip)
    | split

theorem execKeyLoad_mut (ring : Fin 1) (e : Sys2Proof.Entry) (s : State) : OutUpd [.dram, .cyc, .rings, .nv, .eth, .rcd] (some [0xC1, 0xCF]) s (execKeyLoad ring e s) := by
  unfold execKeyLoad
  repeat' first
    | with_reducible assumption
    | with_reducible apply Upd.refl
    | with_reducible apply OutUpd.next
    | (with_reducible apply Upd.comp (State_runRow_mut (P := [.dram, .cyc, .rings, .nv, .eth, .rcd]) (W := [0xC1, 0xCF]) ..) <;> first | decide | skip)
    | (with_reducible apply Upd.comp (opKeyLoad_mut ..) <;> first | decide | skip)
    | (intro c u hc)

theorem execPeerCreate_mut (ring : Fin 1) (e : Sys2Proof.Entry) (s : State) : OutUpd [.dram, .cyc, .rings, .gens, .eth, .rcd] (some [0xC1, 0xCF]) s (execPeerCreate ring e s) := by
  unfold execPeerCreate
  repeat' first
    | with_reducible assumption
    | with_reducible apply Upd.refl
    | with_reducible apply OutUpd.next
    | (with_reducible apply Upd.comp (State_runRow_mut (P := [.dram, .cyc, .rings, .gens, .eth, .rcd]) (W := [0xC1, 0xCF]) ..) <;> first | decide | skip)
    | (with_reducible apply Upd.comp (opPeerCreate_mut ..) <;> first | decide | skip)
    | (intro c u hc)

theorem execGptpState_mut (s : State) : OutUpd [.cyc, .eth, .rcd] (some [0xC1, 0xCF]) s (execGptpState s) := by
  unfold execGptpState
  repeat' first
    | (extract_lets +onlyGivenNames x; refine Upd.cut (P := [.cyc, .eth, .rcd]) (W := (some [0xC1, 0xCF])) (s := s) (x := x) ?_ (fun hx => ?_); rotate_left; clear_value x; rotate_left; subst x)
    | with_reducible assumption
    | with_reducible apply Upd.refl
    | with_reducible apply OutUpd.next
    | (with_reducible apply Upd.comp (State_gptpGap_mut ..) <;> first | decide | skip)
    | (with_reducible apply Upd.comp (State_asCap_mut ..) <;> first | decide | skip)
    | split

theorem execEthLinkChange_mut (p : Fin 4) (up : Bool) (s : State) : OutUpd [.cyc, .eth, .rcd] (some [0xC1, 0xCF]) s (execEthLinkChange p up s) := by
  unfold execEthLinkChange
  repeat' first
    | (extract_lets +onlyGivenNames x; refine Upd.cut (P := [.cyc, .eth, .rcd]) (W := (some [0xC1, 0xCF])) (s := s) (x := x) ?_ (fun hx => ?_); rotate_left; clear_value x; rotate_left; subst x)
    | (extract_lets +onlyGivenNames x; subst x)
    | with_reducible assumption
    | with_reducible apply Upd.refl
    | with_reducible apply OutUpd.next
    | (with_reducible apply State_setB_step (w := 0xCF); rotate_left; decide; simp only [windowOf, ETH_PORT_STAT, ETH_PORT_STAT.LINK] <;> omega)
    | (with_reducible apply Upd.comp (State_asCap_mut ..) <;> first | decide | skip)
    | (with_reducible apply Upd.comp (State_raise_mut ..) <;> first | decide | skip)
    | (with_reducible show Upd _ _ _ _; with_reducible rw [State.mk_box]; with_reducible apply Upd.box <;> first | (left; with_reducible rfl) | (right; decide) | skip)
    | split

theorem execMacAgeOut_mut (vid : BitVec 12) (mac : BitVec 48) (s : State) : OutUpd [.eth] (some []) s (execMacAgeOut vid mac s) := by
  unfold execMacAgeOut
  repeat' first
    | (extract_lets +onlyGivenNames x; subst x)
    | with_reducible apply Upd.refl
    | with_reducible apply OutUpd.next
    | (with_reducible show Upd _ _ _ _; with_reducible rw [State.mk_box]; with_reducible apply Upd.box <;> first | (left; with_reducible rfl) | (right; decide) | skip)
    | split

theorem State_writeGptp_mut (value : Sys2Proof.Word) (s : State) : Upd [.cyc, .rcd] none s (State.writeGptp value s) := by
  unfold State.writeGptp
  repeat' first
    | (extract_lets +onlyGivenNames x; refine Upd.cut (P := [.cyc, .rcd]) (W := none) (s := s) (x := x) ?_ (fun hx => ?_); rotate_left; clear_value x; rotate_left; subst x)
    | with_reducible assumption
    | with_reducible apply Upd.refl
    | (with_reducible apply Upd.comp (State_asCap_mut ..) <;> first | decide | skip)
    | (with_reducible apply Upd.comp (State_plainWrite_mut ..) <;> first | decide | skip)
    | split

end Sys2Proof.Machine
end

