-- ==== Sys2Proof/Laws/MutSaf.lean ====
section
/-! SUPPORT. What each operation of Machine/Saf.lean may change (`Upd`): its parts of the state and its register windows. -/

namespace Sys2Proof.Machine

set_option Elab.async false
set_option linter.unusedSimpArgs false
set_option linter.unusedTactic false
set_option linter.unreachableTactic false
set_option linter.unnecessarySeqFocus false
set_option maxRecDepth 20000

theorem execSafetyResetRequest_mut (s : State) : OutUpd [.sys] (some []) s (execSafetyResetRequest s) := by
  unfold execSafetyResetRequest
  repeat' first
    | (extract_lets +onlyGivenNames x; subst x)
    | with_reducible apply Upd.refl
    | with_reducible apply OutUpd.next
    | (with_reducible show Upd _ _ _ _; with_reducible rw [State.mk_box]; with_reducible apply Upd.box <;> first | (left; with_reducible rfl) | (right; decide) | skip)
    | split

theorem State_fbClear_mut (c : Nat) (s : State) : Upd [.saf] (some []) s (State.fbClear c s) := by
  unfold State.fbClear
  repeat' first
    | (extract_lets +onlyGivenNames x; subst x)
    | with_reducible apply Upd.refl
    | (with_reducible show Upd _ _ _ _; with_reducible rw [State.mk_box]; with_reducible apply Upd.box <;> first | (left; with_reducible rfl) | (right; decide) | skip)
    | split

theorem State_openCh_mut (c : Nat) (wasOn : Bool) (s : State) : Upd [.saf] (some []) s (State.openCh c wasOn s) := by
  unfold State.openCh
  repeat' first
    | (extract_lets +onlyGivenNames x; subst x)
    | with_reducible apply Upd.refl
    | (with_reducible show Upd _ _ _ _; with_reducible rw [State.mk_box]; with_reducible apply Upd.box <;> first | (left; with_reducible rfl) | (right; decide) | skip)

theorem State_setCh_mut (c : Nat) (v : Nat) (s : State) : Upd [] (some [0xC7]) s (State.setCh c v s) := by
  unfold State.setCh
  repeat' first
    | with_reducible apply Upd.refl
    | (with_reducible apply State_set_step (w := 0xC7); rotate_left; decide; simp only [windowOf, SAF_CH, SAF_CH.STATE] <;> omega)

theorem State_releaseCh_mut (c : Nat) (s : State) : Upd [.saf] (some [0xC7]) s (State.releaseCh c s) := by
  unfold State.releaseCh
  repeat' first
    | with_reducible apply Upd.refl
    | (with_reducible apply Upd.comp (State_openCh_mut ..) <;> first | decide | skip)
    | (with_reducible apply Upd.comp (State_fbClear_mut ..) <;> first | decide | skip)
    | (with_reducible apply Upd.comp (State_setCh_mut ..) <;> first | decide | skip)
    | split

theorem State_armCh_mut (c : Nat) (s : State) : Upd [.cyc, .saf, .rcd] (some [0xC1, 0xC7]) s (State.armCh c s) := by
  unfold State.armCh
  repeat' first
    | (extract_lets +onlyGivenNames x; refine Upd.cut (P := [.cyc, .saf, .rcd]) (W := (some [0xC1, 0xC7])) (s := s) (x := x) ?_ (fun hx => ?_); rotate_left; clear_value x; rotate_left; subst x)
    | (extract_lets +onlyGivenNames x; subst x)
    | with_reducible assumption
    | with_reducible apply Upd.refl
    | (with_reducible apply State_setB_step (w := 0xC7); rotate_left; decide; simp only [windowOf, SAF_CH, SAF_CH.ARMABLE] <;> omega)
    | (with_reducible apply Upd.comp (State_raise_mut ..) <;> first | decide | skip)
    | (with_reducible apply Upd.comp (State_fbClear_mut ..) <;> first | decide | skip)
    | (with_reducible apply Upd.comp (State_setCh_mut ..) <;> first | decide | skip)
    | (with_reducible show Upd _ _ _ _; with_reducible rw [State.mk_box]; with_reducible apply Upd.box <;> first | (left; with_reducible rfl) | (right; decide) | skip)

theorem State_safMirror_mut (s : State) : Upd [] (some [0xC7]) s (State.safMirror s) := by
  unfold State.safMirror
  repeat' first
    | (extract_lets +onlyGivenNames x; refine Upd.cut (P := []) (W := (some [0xC7])) (s := s) (x := x) ?_ (fun hx => ?_); rotate_left; clear_value x; rotate_left; subst x)
    | (extract_lets +onlyGivenNames x; subst x)
    | with_reducible assumption
    | with_reducible apply Upd.refl
    | (with_reducible apply State_setB_step (w := 0xC7); rotate_left; decide; simp only [windowOf, SAF_CH, SAF_CH.FB, SAF_FAULT, SAF_FAULT.CLEARED, SAF_PAIR, SAF_PAIR.STATES, SAF_STATUS, SAF_STATUS.DEGRADED, SAF_STATUS.DEG_LEFT, SAF_STATUS.LATCHED, SAF_STATUS.PARTNER] <;> omega)
    | (with_reducible apply State_set_step (w := 0xC7); rotate_left; decide; simp only [windowOf, SAF_CH, SAF_CH.FB, SAF_FAULT, SAF_FAULT.CLEARED, SAF_PAIR, SAF_PAIR.STATES, SAF_STATUS, SAF_STATUS.DEGRADED, SAF_STATUS.DEG_LEFT, SAF_STATUS.LATCHED, SAF_STATUS.PARTNER] <;> omega)
    | (with_reducible apply Upd.foldl <;> first | (intro y a ha hy; skip) | skip)
    | split

theorem State_safEval_mut (s : State) : Upd [.cyc, .saf, .rcd] (some [0xC1, 0xC7]) s (State.safEval s) := by
  unfold State.safEval
  repeat' first
    | (extract_lets +onlyGivenNames x; refine Upd.cut (P := [.cyc, .saf, .rcd]) (W := (some [0xC1, 0xC7])) (s := s) (x := x) ?_ (fun hx => ?_); rotate_left; clear_value x; rotate_left; subst x)
    | (extract_lets +onlyGivenNames x; subst x)
    | with_reducible assumption
    | with_reducible apply Upd.refl
    | (with_reducible apply State_setB_step (w := 0xC7); rotate_left; decide; simp only [windowOf, SAF_CH, SAF_CH.ARMABLE] <;> omega)
    | (with_reducible apply Upd.comp (State_raise_mut ..) <;> first | decide | skip)
    | (with_reducible apply Upd.comp (State_safMirror_mut ..) <;> first | decide | skip)
    | (with_reducible apply Upd.comp (State_armCh_mut ..) <;> first | decide | skip)
    | (with_reducible apply Upd.foldl <;> first | (intro y a ha hy; skip) | skip)
    | (with_reducible show Upd _ _ _ _; with_reducible rw [State.mk_box]; with_reducible apply Upd.box <;> first | (left; with_reducible rfl) | (right; decide) | skip)
    | split

theorem State_safReleaseAll_mut (s : State) : Upd [.cyc, .saf, .rcd] (some [0xC1, 0xC7]) s (State.safReleaseAll s) := by
  unfold State.safReleaseAll
  repeat' first
    | with_reducible assumption
    | with_reducible apply Upd.refl
    | (with_reducible apply Upd.comp (State_safEval_mut ..) <;> first | decide | skip)
    | (with_reducible apply Upd.comp (State_releaseCh_mut ..) <;> first | decide | skip)
    | (with_reducible apply Upd.foldl <;> first | (intro y a ha hy; skip) | skip)

theorem State_degEnter_mut (s : State) : Upd [.cyc, .saf, .rcd] (some [0xC1, 0xC7]) s (State.degEnter s) := by
  unfold State.degEnter
  repeat' first
    | (extract_lets +onlyGivenNames x; refine Upd.cut (P := [.cyc, .saf, .rcd]) (W := (some [0xC1, 0xC7])) (s := s) (x := x) ?_ (fun hx => ?_); rotate_left; clear_value x; rotate_left; subst x)
    | (extract_lets +onlyGivenNames x; subst x)
    | with_reducible assumption
    | with_reducible apply Upd.refl
    | (with_reducible apply Upd.comp (State_releaseCh_mut ..) <;> first | decide | skip)
    | (with_reducible apply Upd.comp (State_raise_mut ..) <;> first | decide | skip)
    | (with_reducible apply Upd.foldl <;> first | (intro y a ha hy; skip) | skip)
    | (with_reducible show Upd _ _ _ _; with_reducible rw [State.mk_box]; with_reducible apply Upd.box <;> first | (left; with_reducible rfl) | (right; decide) | skip)
    | split

theorem State_samePairTrip_mut (c : Nat) (p : Nat) (stamp : Nat) (s : State) : Upd [] (some [0xC7]) s (State.samePairTrip c p stamp s) := by
  unfold State.samePairTrip
  repeat' first
    | with_reducible apply Upd.refl
    | (with_reducible apply State_set_step (w := 0xC7); rotate_left; decide; simp only [windowOf, SAF_CH, SAF_CH.PAIR] <;> omega)
    | split

theorem State_safTrip_mut (mask : Nat) (cause : Nat) (pair : Nat) (stamp : Nat) (s : State) : Upd [.cyc, .saf, .rcd] (some [0xC1, 0xC7]) s (State.safTrip mask cause pair stamp s) := by
  unfold State.safTrip
  repeat' first
    | (extract_lets +onlyGivenNames x; refine Upd.cut (P := [.cyc, .saf, .rcd]) (W := (some [0xC1, 0xC7])) (s := s) (x := x) ?_ (fun hx => ?_); rotate_left; clear_value x; rotate_left; subst x)
    | (extract_lets +onlyGivenNames x; subst x)
    | with_reducible assumption
    | with_reducible apply Upd.refl
    | (with_reducible apply State_setB_step (w := 0xC7); rotate_left; decide; simp only [windowOf, SAF_CH, SAF_CH.ARMABLE, SAF_CH.CAUSE, SAF_CH.PAIR, SAF_CNT, SAF_CNT.TRIPS, SAF_TRIP_LTC_HI, SAF_TRIP_LTC_LO] <;> omega)
    | (with_reducible apply State_bump_step (w := 0xC7); rotate_left; decide; simp only [windowOf, SAF_CH, SAF_CH.ARMABLE, SAF_CH.CAUSE, SAF_CH.PAIR, SAF_CNT, SAF_CNT.TRIPS, SAF_TRIP_LTC_HI, SAF_TRIP_LTC_LO] <;> omega)
    | (with_reducible apply Upd.comp (State_samePairTrip_mut ..) <;> first | decide | skip)
    | (with_reducible apply Upd.comp (State_openCh_mut ..) <;> first | decide | skip)
    | (with_reducible apply State_set_step (w := 0xC7); rotate_left; decide; simp only [windowOf, SAF_CH, SAF_CH.ARMABLE, SAF_CH.CAUSE, SAF_CH.PAIR, SAF_CNT, SAF_CNT.TRIPS, SAF_TRIP_LTC_HI, SAF_TRIP_LTC_LO] <;> omega)
    | (with_reducible apply State_set64_step (w := 0xC7); rotate_left; decide; simp only [windowOf, SAF_CH, SAF_CH.ARMABLE, SAF_CH.CAUSE, SAF_CH.PAIR, SAF_CNT, SAF_CNT.TRIPS, SAF_TRIP_LTC_HI, SAF_TRIP_LTC_LO] <;> omega; simp only [windowOf, SAF_CH, SAF_CH.ARMABLE, SAF_CH.CAUSE, SAF_CH.PAIR, SAF_CNT, SAF_CNT.TRIPS, SAF_TRIP_LTC_HI, SAF_TRIP_LTC_LO] <;> omega)
    | (with_reducible apply Upd.comp (State_raise_mut ..) <;> first | decide | skip)
    | (with_reducible apply Upd.comp (State_fbClear_mut ..) <;> first | decide | skip)
    | (with_reducible apply Upd.comp (State_setCh_mut ..) <;> first | decide | skip)
    | (with_reducible apply Upd.foldl <;> first | (intro y a ha hy; skip) | skip)
    | (with_reducible show Upd _ _ _ _; with_reducible rw [State.mk_box]; with_reducible apply Upd.box <;> first | (left; with_reducible rfl) | (right; decide) | skip)
    | split

theorem State_safFault_mut (f : SafFault) (s : State) : Upd [.free, .sys, .cyc, .saf, .rcd] (some [0xC1, 0xC7]) s (State.safFault f s) := by
  unfold State.safFault
  repeat' first
    | (extract_lets +onlyGivenNames x; refine Upd.cut (P := [.free, .sys, .cyc, .saf, .rcd]) (W := (some [0xC1, 0xC7])) (s := s) (x := x) ?_ (fun hx => ?_); rotate_left; clear_value x; rotate_left; subst x)
    | (extract_lets +onlyGivenNames x; subst x)
    | with_reducible assumption
    | with_reducible apply Upd.refl
    | (with_reducible apply Upd.comp (State_safEval_mut ..) <;> first | decide | skip)
    | (with_reducible apply Upd.comp (State_degEnter_mut ..) <;> first | decide | skip)
    | (with_reducible apply Upd.comp (State_raise_mut ..) <;> first | decide | skip)
    | (with_reducible apply Upd.comp (State_safTrip_mut ..) <;> first | decide | skip)
    | (with_reducible apply Upd.comp (State_drawn_mut ..) <;> first | decide | skip)
    | (with_reducible show Upd _ _ _ _; with_reducible rw [State.mk_box]; with_reducible apply Upd.box <;> first | (left; with_reducible rfl) | (right; decide) | skip)
    | split

theorem execSoutOvercurrent_mut (c : Fin 4) (s : State) : OutUpd [.free, .sys, .cyc, .saf, .rcd] (some [0xC1, 0xC7]) s (execSoutOvercurrent c s) := by
  unfold execSoutOvercurrent
  repeat' first
    | with_reducible apply Upd.refl
    | with_reducible apply OutUpd.next
    | (with_reducible apply Upd.comp (State_safFault_mut ..) <;> first | decide | skip)
    | split

theorem State_mbxRelease_mut (arg : Nat) (s : State) : SndUpd [.saf] (some [0xC7]) s (State.mbxRelease arg s) := by
  unfold State.mbxRelease
  repeat' first
    | with_reducible assumption
    | with_reducible apply Upd.refl
    | (with_reducible show SndUpd _ _ _ _; with_reducible rw [State.snd_pair]; with_reducible apply SndUpd.mk)
    | (with_reducible apply Upd.comp (State_releaseCh_mut ..) <;> first | decide | skip)
    | (with_reducible apply Upd.foldl <;> first | (intro y a ha hy; skip) | skip)
    | split

theorem State_safCleared_mut (f : SafFault) (s : State) : Upd [.saf] (some []) s (State.safCleared f s) := by
  unfold State.safCleared
  repeat' first
    | (extract_lets +onlyGivenNames x; subst x)
    | with_reducible apply Upd.refl
    | (with_reducible show Upd _ _ _ _; with_reducible rw [State.mk_box]; with_reducible apply Upd.box <;> first | (left; with_reducible rfl) | (right; decide) | skip)

theorem State_partnerField_mut (stop : Bool) (s : State) : Upd [.free, .cyc, .saf, .rcd] (some [0xC1, 0xC7]) s (State.partnerField stop s) := by
  unfold State.partnerField
  repeat' first
    | (extract_lets +onlyGivenNames x; refine Upd.cut (P := [.free, .cyc, .saf, .rcd]) (W := (some [0xC1, 0xC7])) (s := s) (x := x) ?_ (fun hx => ?_); rotate_left; clear_value x; rotate_left; subst x)
    | (extract_lets +onlyGivenNames x; subst x)
    | with_reducible assumption
    | with_reducible apply Upd.refl
    | (with_reducible apply Upd.comp (State_safEval_mut ..) <;> first | decide | skip)
    | (with_reducible apply Upd.comp (State_safCleared_mut ..) <;> first | decide | skip)
    | (with_reducible apply Upd.comp (State_raise_mut ..) <;> first | decide | skip)
    | (with_reducible apply Upd.comp (State_safTrip_mut ..) <;> first | decide | skip)
    | (with_reducible apply Upd.comp (State_drawn_mut ..) <;> first | decide | skip)
    | (with_reducible show Upd _ _ _ _; with_reducible rw [State.mk_box]; with_reducible apply Upd.box <;> first | (left; with_reducible rfl) | (right; decide) | skip)
    | split

theorem State_safTherm_mut (hot : Bool) (s : State) : Upd [.free, .sys, .cyc, .saf, .rcd] (some [0xC1, 0xC7]) s (State.safTherm hot s) := by
  unfold State.safTherm
  repeat' first
    | with_reducible apply Upd.refl
    | (with_reducible apply Upd.comp (State_safFault_mut ..) <;> first | decide | skip)
    | split

theorem State_energise_mut (c : Nat) (s : State) : SndUpd [.saf] (some [0xC7]) s (State.energise c s) := by
  unfold State.energise
  repeat' first
    | (extract_lets +onlyGivenNames x; refine Upd.cut (P := [.saf]) (W := (some [0xC7])) (s := s) (x := x) ?_ (fun hx => ?_); rotate_left; clear_value x; rotate_left; subst x)
    | (extract_lets +onlyGivenNames x; subst x)
    | with_reducible assumption
    | with_reducible apply Upd.refl
    | (with_reducible show SndUpd _ _ _ _; with_reducible rw [State.snd_pair]; with_reducible apply SndUpd.mk)
    | (with_reducible apply Upd.comp (State_fbClear_mut ..) <;> first | decide | skip)
    | (with_reducible apply Upd.comp (State_setCh_mut ..) <;> first | decide | skip)
    | (with_reducible show Upd _ _ _ _; with_reducible rw [State.mk_box]; with_reducible apply Upd.box <;> first | (left; with_reducible rfl) | (right; decide) | skip)
    | split

theorem State_mbxAnswer_mut (seq : Nat) (code : Nat) (s : State) : Upd [.cyc, .saf, .rcd] (some [0xC1, 0xC7]) s (State.mbxAnswer seq code s) := by
  unfold State.mbxAnswer
  repeat' first
    | (extract_lets +onlyGivenNames x; refine Upd.cut (P := [.cyc, .saf, .rcd]) (W := (some [0xC1, 0xC7])) (s := s) (x := x) ?_ (fun hx => ?_); rotate_left; clear_value x; rotate_left; subst x)
    | (extract_lets +onlyGivenNames x; subst x)
    | with_reducible assumption
    | with_reducible apply Upd.refl
    | (with_reducible apply State_setB_step (w := 0xC7); rotate_left; decide; simp only [windowOf, SAF_MBX_RSP, SAF_MBX_RSP.PEND, SAF_MBX_RSP.REASON, SAF_MBX_RSP.SEQ] <;> omega)
    | (with_reducible apply State_set_step (w := 0xC7); rotate_left; decide; simp only [windowOf, SAF_MBX_RSP, SAF_MBX_RSP.PEND, SAF_MBX_RSP.REASON, SAF_MBX_RSP.SEQ] <;> omega)
    | (with_reducible apply Upd.comp (State_raise_mut ..) <;> first | decide | skip)
    | (with_reducible show Upd _ _ _ _; with_reducible rw [State.mk_box]; with_reducible apply Upd.box <;> first | (left; with_reducible rfl) | (right; decide) | skip)

/-- A mailbox request: what its answer may change. -/
theorem State_mbxServe_mut {P : List Comp} {W : List Nat} (f : Nat → Bool) (act : Nat → State → Nat × State) (s : State)
    (hP : [Comp.saf, .rcd, .cyc].all (P.contains ·) = true) (hW : [0xC1, 0xC7].all (W.contains ·) = true)
    (h : ∀ arg u, SndUpd P (some W) u (act arg u)) : Upd P (some W) s (s.mbxServe f act) := by
  unfold State.mbxServe
  split
  · split
    · rename_i seq arg op _ _
      have h1 := h arg s
      have h2 : Upd P (some W) s (act arg s).2 := h1
      exact (h2.trans ((State_mbxAnswer_mut seq (act arg s).1 _).mono (by simp at hP ⊢; simp [hP]) (by simp [winSub] at hW ⊢; simp [hW]))).trans
        ((State_safEval_mut _).mono (by simp at hP ⊢; simp [hP]) (by simp [winSub] at hW ⊢; simp [hW]))
    · exact Upd.refl s
  · exact Upd.refl s

theorem execMbxEnergise_mut (s : State) : OutUpd [.cyc, .saf, .rcd] (some [0xC1, 0xC7]) s (execMbxEnergise s) := by
  unfold execMbxEnergise
  repeat' first
    | with_reducible apply Upd.refl
    | with_reducible apply OutUpd.next
    | (with_reducible apply SndUpd.comp (State_energise_mut ..) <;> first | decide | skip)
    | (with_reducible apply Upd.comp (State_mbxServe_mut (P := [.cyc, .saf, .rcd]) (W := [0xC1, 0xC7]) ..) <;> first | decide | skip)
    | (intro arg u)

theorem State_mbxReset_mut (arg : Nat) (s : State) : SndUpd [.sys] (some []) s (State.mbxReset arg s) := by
  unfold State.mbxReset
  repeat' first
    | (extract_lets +onlyGivenNames x; subst x)
    | with_reducible apply Upd.refl
    | (with_reducible show SndUpd _ _ _ _; with_reducible rw [State.snd_pair]; with_reducible apply SndUpd.mk)
    | (with_reducible show Upd _ _ _ _; with_reducible rw [State.mk_box]; with_reducible apply Upd.box <;> first | (left; with_reducible rfl) | (right; decide) | skip)
    | split

theorem State_ackFaults_mut (s : State) : Upd [.cyc, .saf, .rcd] (some [0xC1]) s (State.ackFaults s) := by
  unfold State.ackFaults
  repeat' first
    | (extract_lets +onlyGivenNames x; refine Upd.cut (P := [.cyc, .saf, .rcd]) (W := (some [0xC1])) (s := s) (x := x) ?_ (fun hx => ?_); rotate_left; clear_value x; rotate_left; subst x)
    | (extract_lets +onlyGivenNames x; subst x)
    | with_reducible assumption
    | with_reducible apply Upd.refl
    | (with_reducible apply Upd.comp (State_raise_mut ..) <;> first | decide | skip)
    | (with_reducible show Upd _ _ _ _; with_reducible rw [State.mk_box]; with_reducible apply Upd.box <;> first | (left; with_reducible rfl) | (right; decide) | skip)
    | split

theorem State_mbxAck_mut (arg : Nat) (s : State) : SndUpd [.cyc, .saf, .rcd] (some [0xC1, 0xC7]) s (State.mbxAck arg s) := by
  unfold State.mbxAck
  repeat' first
    | (extract_lets +onlyGivenNames x; refine Upd.cut (P := [.cyc, .saf, .rcd]) (W := (some [0xC1, 0xC7])) (s := s) (x := x) ?_ (fun hx => ?_); rotate_left; clear_value x; rotate_left; subst x)
    | (extract_lets +onlyGivenNames x; subst x)
    | with_reducible assumption
    | with_reducible apply Upd.refl
    | (with_reducible show SndUpd _ _ _ _; with_reducible rw [State.snd_pair]; with_reducible apply SndUpd.mk)
    | (with_reducible apply Upd.comp (State_ackFaults_mut ..) <;> first | decide | skip)
    | (with_reducible apply Upd.comp (State_safEval_mut ..) <;> first | decide | skip)
    | (with_reducible apply Upd.comp (State_armCh_mut ..) <;> first | decide | skip)
    | (with_reducible apply Upd.foldl <;> first | (intro y a ha hy; skip) | skip)
    | split

theorem execMbxAck_mut (s : State) : OutUpd [.cyc, .saf, .rcd] (some [0xC1, 0xC7]) s (execMbxAck s) := by
  unfold execMbxAck
  repeat' first
    | with_reducible apply Upd.refl
    | with_reducible apply OutUpd.next
    | (with_reducible apply Upd.comp (State_mbxServe_mut (P := [.cyc, .saf, .rcd]) (W := [0xC1, 0xC7]) ..) <;> first | decide | skip)
    | (intro arg u)
    | (with_reducible apply SndUpd.comp (State_mbxAck_mut ..) <;> first | decide | skip)

theorem execDegExpire_mut (s : State) : OutUpd [.free, .cyc, .saf, .rcd] (some [0xC1, 0xC7]) s (execDegExpire s) := by
  unfold execDegExpire
  repeat' first
    | (extract_lets +onlyGivenNames x; refine Upd.cut (P := [.free, .cyc, .saf, .rcd]) (W := (some [0xC1, 0xC7])) (s := s) (x := x) ?_ (fun hx => ?_); rotate_left; clear_value x; rotate_left; subst x)
    | (extract_lets +onlyGivenNames x; subst x)
    | with_reducible assumption
    | with_reducible apply Upd.refl
    | with_reducible apply OutUpd.next
    | (with_reducible apply Upd.comp (State_safEval_mut ..) <;> first | decide | skip)
    | (with_reducible apply Upd.comp (State_raise_mut ..) <;> first | decide | skip)
    | (with_reducible apply Upd.comp (State_safTrip_mut ..) <;> first | decide | skip)
    | (with_reducible apply Upd.comp (State_drawn_mut ..) <;> first | decide | skip)
    | (with_reducible show Upd _ _ _ _; with_reducible rw [State.mk_box]; with_reducible apply Upd.box <;> first | (left; with_reducible rfl) | (right; decide) | skip)
    | split

theorem execSfbChange_mut (c : Fin 4) (closed : Bool) (s : State) : OutUpd [.cyc, .saf, .rcd] (some [0xC1, 0xC7]) s (execSfbChange c closed s) := by
  unfold execSfbChange
  repeat' first
    | (extract_lets +onlyGivenNames x; refine Upd.cut (P := [.cyc, .saf, .rcd]) (W := (some [0xC1, 0xC7])) (s := s) (x := x) ?_ (fun hx => ?_); rotate_left; clear_value x; rotate_left; subst x)
    | (extract_lets +onlyGivenNames x; subst x)
    | with_reducible assumption
    | with_reducible apply Upd.refl
    | with_reducible apply OutUpd.next
    | (with_reducible apply Upd.comp (State_safEval_mut ..) <;> first | decide | skip)
    | (with_reducible apply Upd.comp (State_fbClear_mut ..) <;> first | decide | skip)
    | (with_reducible show Upd _ _ _ _; with_reducible rw [State.mk_box]; with_reducible apply Upd.box <;> first | (left; with_reducible rfl) | (right; decide) | skip)
    | split

theorem State_pairMoved_mut (p : Nat) (was : Bool) (st0 : Nat) (stamp : Nat) (s : State) : Upd [.cyc, .tms, .saf, .rcd] (some [0xC1, 0xC3, 0xC7]) s (State.pairMoved p was st0 stamp s) := by
  unfold State.pairMoved
  repeat' first
    | (extract_lets +onlyGivenNames x; refine Upd.cut (P := [.cyc, .tms, .saf, .rcd]) (W := (some [0xC1, 0xC3, 0xC7])) (s := s) (x := x) ?_ (fun hx => ?_); rotate_left; clear_value x; rotate_left; subst x)
    | (extract_lets +onlyGivenNames x; subst x)
    | with_reducible assumption
    | with_reducible apply Upd.refl
    | (with_reducible apply Upd.comp (State_captureEdge_mut ..) <;> first | decide | skip)
    | (with_reducible apply Upd.comp (State_safCleared_mut ..) <;> first | decide | skip)
    | (with_reducible apply Upd.comp (State_safTrip_mut ..) <;> first | decide | skip)
    | (with_reducible show Upd _ _ _ _; with_reducible rw [State.mk_box]; with_reducible apply Upd.box <;> first | (left; with_reducible rfl) | (right; decide) | skip)
    | split

theorem State_takeMember_mut (p : Nat) (memberB : Bool) (stamp : Nat) (s : State) : Upd [.cyc, .tms, .saf, .rcd] (some [0xC1, 0xC3, 0xC7]) s (State.takeMember p memberB stamp s) := by
  unfold State.takeMember
  repeat' first
    | (extract_lets +onlyGivenNames x; refine Upd.cut (P := [.cyc, .tms, .saf, .rcd]) (W := (some [0xC1, 0xC3, 0xC7])) (s := s) (x := x) ?_ (fun hx => ?_); rotate_left; clear_value x; rotate_left; subst x)
    | (extract_lets +onlyGivenNames x; subst x)
    | with_reducible assumption
    | with_reducible apply Upd.refl
    | (with_reducible apply Upd.comp (State_pairMoved_mut ..) <;> first | decide | skip)
    | (with_reducible show Upd _ _ _ _; with_reducible rw [State.mk_box]; with_reducible apply Upd.box <;> first | (left; with_reducible rfl) | (right; decide) | skip)
    | split

theorem State_xsPassed_mut (stp : Nat) (p : Nat) (s : State) : Upd [.saf] (some []) s (State.xsPassed stp p s) := by
  unfold State.xsPassed
  repeat' first
    | (extract_lets +onlyGivenNames x; refine Upd.cut (P := [.saf]) (W := (some [])) (s := s) (x := x) ?_ (fun hx => ?_); rotate_left; clear_value x; rotate_left; subst x)
    | (extract_lets +onlyGivenNames x; subst x)
    | with_reducible assumption
    | with_reducible apply Upd.refl
    | (with_reducible apply Upd.comp (State_safCleared_mut ..) <;> first | decide | skip)
    | (with_reducible show Upd _ _ _ _; with_reducible rw [State.mk_box]; with_reducible apply Upd.box <;> first | (left; with_reducible rfl) | (right; decide) | skip)
    | split

theorem execStpMaskEnd_mut (stp : Fin 2) (failed : BitVec 8) (s : State) : OutUpd [.free, .sys, .cyc, .tms, .saf, .rcd] (some [0xC1, 0xC3, 0xC7]) s (execStpMaskEnd stp failed s) := by
  unfold execStpMaskEnd
  repeat' first
    | (extract_lets +onlyGivenNames x; refine Upd.cut (P := [.free, .sys, .cyc, .tms, .saf, .rcd]) (W := (some [0xC1, 0xC3, 0xC7])) (s := s) (x := x) ?_ (fun hx => ?_); rotate_left; clear_value x; rotate_left; subst x)
    | (extract_lets +onlyGivenNames x; subst x)
    | with_reducible assumption
    | with_reducible apply Upd.refl
    | with_reducible apply OutUpd.next
    | (with_reducible apply Upd.comp (State_safEval_mut ..) <;> first | decide | skip)
    | (with_reducible apply State_bump_step (w := 0xC7); rotate_left; decide; simp only [windowOf, SAF_CNT, SAF_CNT.TEST_FAIL] <;> omega)
    | (with_reducible apply Upd.comp (State_xsPassed_mut ..) <;> first | decide | skip)
    | (with_reducible apply Upd.comp (State_takeMember_mut ..) <;> first | decide | skip)
    | (with_reducible apply Upd.comp (State_safFault_mut ..) <;> first | decide | skip)
    | (with_reducible apply Upd.comp (State_drawn_mut ..) <;> first | decide | skip)
    | (with_reducible apply Upd.foldl <;> first | (intro y a ha hy; skip) | skip)
    | (with_reducible show Upd _ _ _ _; with_reducible rw [State.mk_box]; with_reducible apply Upd.box <;> first | (left; with_reducible rfl) | (right; decide) | skip)
    | split

theorem execMbxUnknownOp_mut (s : State) : OutUpd [.cyc, .saf, .rcd] (some [0xC1, 0xC7]) s (execMbxUnknownOp s) := by
  unfold execMbxUnknownOp
  repeat' first
    | with_reducible apply Upd.refl
    | with_reducible apply OutUpd.next
    | (with_reducible show SndUpd _ _ _ _; with_reducible rw [State.snd_pair]; with_reducible apply SndUpd.mk)
    | (with_reducible apply Upd.comp (State_mbxServe_mut (P := [.cyc, .saf, .rcd]) (W := [0xC1, 0xC7]) ..) <;> first | decide | skip)
    | (intro arg u)

theorem execRearmComplete_mut (who : Fin 9) (s : State) : OutUpd [.cyc, .saf, .rcd] (some [0xC1, 0xC7]) s (execRearmComplete who s) := by
  unfold execRearmComplete
  repeat' first
    | (extract_lets +onlyGivenNames x; subst x)
    | with_reducible apply Upd.refl
    | with_reducible apply OutUpd.next
    | (with_reducible apply Upd.comp (State_safEval_mut ..) <;> first | decide | skip)
    | (with_reducible show Upd _ _ _ _; with_reducible rw [State.mk_box]; with_reducible apply Upd.box <;> first | (left; with_reducible rfl) | (right; decide) | skip)
    | split

theorem execSafeRegionUpset_mut (s : State) : OutUpd [.free, .sys, .cyc, .saf, .rcd] (some [0xC1, 0xC7]) s (execSafeRegionUpset s) := by
  unfold execSafeRegionUpset
  repeat' first
    | with_reducible apply Upd.refl
    | with_reducible apply OutUpd.next
    | (with_reducible apply Upd.comp (State_safFault_mut ..) <;> first | decide | skip)

theorem State_judgeWeld_mut (c : Nat) (s : State) : Upd [.free, .sys, .cyc, .saf, .rcd] (some [0xC1, 0xC7]) s (State.judgeWeld c s) := by
  unfold State.judgeWeld
  repeat' first
    | (extract_lets +onlyGivenNames x; subst x)
    | with_reducible apply Upd.refl
    | (with_reducible apply Upd.comp (State_safFault_mut ..) <;> first | decide | skip)
    | (with_reducible show Upd _ _ _ _; with_reducible rw [State.mk_box]; with_reducible apply Upd.box <;> first | (left; with_reducible rfl) | (right; decide) | skip)
    | split

theorem State_safStart_mut (ok : Bool) (s : State) : Upd [.img, .free, .sys, .cyc, .str, .saf, .rcd] (some [0xC1, 0xC2, 0xC7]) s (State.safStart ok s) := by
  unfold State.safStart
  repeat' first
    | (extract_lets +onlyGivenNames x; refine Upd.cut (P := [.img, .free, .sys, .cyc, .str, .saf, .rcd]) (W := (some [0xC1, 0xC2, 0xC7])) (s := s) (x := x) ?_ (fun hx => ?_); rotate_left; clear_value x; rotate_left; subst x)
    | (extract_lets +onlyGivenNames x; subst x)
    | with_reducible assumption
    | with_reducible apply Upd.refl
    | (with_reducible apply State_setB_step (w := 0xC7); rotate_left; decide; simp only [windowOf, SAF_STATUS, SAF_STATUS.READY] <;> omega)
    | (with_reducible apply Upd.comp (State_safEval_mut ..) <;> first | decide | skip)
    | (with_reducible apply Upd.comp (State_safFault_mut ..) <;> first | decide | skip)
    | (with_reducible apply Upd.comp (State_unloadRegion_mut ..) <;> first | decide | skip)
    | (with_reducible show Upd _ _ _ _; with_reducible rw [State.mk_box]; with_reducible apply Upd.box <;> first | (left; with_reducible rfl) | (right; decide) | skip)
    | split

theorem State_writeMbx_mut (value : Sys2Proof.Word) (s : State) : Upd [.saf] (some [0xC7]) s (State.writeMbx value s) := by
  unfold State.writeMbx
  repeat' first
    | (extract_lets +onlyGivenNames x; subst x)
    | with_reducible apply Upd.refl
    | (with_reducible apply State_setB_step (w := 0xC7); rotate_left; decide; simp only [windowOf, SAF_CNT, SAF_CNT.MBX_IGN, SAF_MBX_RSP, SAF_MBX_RSP.PEND] <;> omega)
    | (with_reducible apply State_bump_step (w := 0xC7); rotate_left; decide; simp only [windowOf, SAF_CNT, SAF_CNT.MBX_IGN, SAF_MBX_RSP, SAF_MBX_RSP.PEND] <;> omega)
    | (with_reducible show Upd _ _ _ _; with_reducible rw [State.mk_box]; with_reducible apply Upd.box <;> first | (left; with_reducible rfl) | (right; decide) | skip)
    | split

theorem execLockstepMismatch_mut (s : State) : OutUpd [.free, .sys, .cyc, .saf, .rcd] (some [0xC1, 0xC7]) s (execLockstepMismatch s) := by
  unfold execLockstepMismatch
  repeat' first
    | with_reducible apply Upd.refl
    | with_reducible apply OutUpd.next
    | (with_reducible apply Upd.comp (State_safFault_mut ..) <;> first | decide | skip)

theorem execSwitchTest_mut (c : Fin 4) (upper : Bool) (s : State) : OutUpd [.saf] (some []) s (execSwitchTest c upper s) := by
  unfold execSwitchTest
  repeat' first
    | (extract_lets +onlyGivenNames x; subst x)
    | with_reducible apply Upd.refl
    | with_reducible apply OutUpd.next
    | (with_reducible show Upd _ _ _ _; with_reducible rw [State.mk_box]; with_reducible apply Upd.box <;> first | (left; with_reducible rfl) | (right; decide) | skip)
    | split

theorem State_safEntryWelds_mut (s : State) : Upd [.free, .sys, .cyc, .saf, .rcd] (some [0xC1, 0xC7]) s (State.safEntryWelds s) := by
  unfold State.safEntryWelds
  repeat' first
    | with_reducible assumption
    | with_reducible apply Upd.refl
    | (with_reducible apply Upd.comp (State_judgeWeld_mut ..) <;> first | decide | skip)
    | (with_reducible apply Upd.foldl <;> first | (intro y a ha hy; skip) | skip)

theorem execFeedbackTimeout_mut (c : Fin 4) (which : Fin 3) (s : State) : OutUpd [.free, .sys, .cyc, .saf, .rcd] (some [0xC1, 0xC7]) s (execFeedbackTimeout c which s) := by
  unfold execFeedbackTimeout
  repeat' first
    | (extract_lets +onlyGivenNames x; subst x)
    | with_reducible apply Upd.refl
    | with_reducible apply OutUpd.next
    | (with_reducible apply Upd.comp (State_safFault_mut ..) <;> first | decide | skip)
    | (with_reducible apply Upd.comp (State_judgeWeld_mut ..) <;> first | decide | skip)
    | split

theorem execMbxReset_mut (s : State) : OutUpd [.sys, .cyc, .saf, .rcd] (some [0xC1, 0xC7]) s (execMbxReset s) := by
  unfold execMbxReset
  repeat' first
    | with_reducible apply Upd.refl
    | with_reducible apply OutUpd.next
    | (with_reducible apply SndUpd.comp (State_mbxReset_mut ..) <;> first | decide | skip)
    | (with_reducible apply Upd.comp (State_mbxServe_mut (P := [.sys, .cyc, .saf, .rcd]) (W := [0xC1, 0xC7]) ..) <;> first | decide | skip)
    | (intro arg u)

theorem execSelftest_mut (pass : Bool) (s : State) : OutUpd [.free, .sys, .cyc, .saf, .rcd] (some [0xC1, 0xC7]) s (execSelftest pass s) := by
  unfold execSelftest
  repeat' first
    | with_reducible apply Upd.refl
    | with_reducible apply OutUpd.next
    | (with_reducible apply Upd.comp (State_safEval_mut ..) <;> first | decide | skip)
    | (with_reducible apply Upd.comp (State_safCleared_mut ..) <;> first | decide | skip)
    | (with_reducible apply Upd.comp (State_safFault_mut ..) <;> first | decide | skip)
    | split

theorem execPartnerLost_mut (s : State) : OutUpd [.free, .sys, .cyc, .saf, .rcd] (some [0xC1, 0xC7]) s (execPartnerLost s) := by
  unfold execPartnerLost
  repeat' first
    | (extract_lets +onlyGivenNames x; subst x)
    | with_reducible apply Upd.refl
    | with_reducible apply OutUpd.next
    | (with_reducible apply Upd.comp (State_safFault_mut ..) <;> first | decide | skip)
    | (with_reducible show Upd _ _ _ _; with_reducible rw [State.mk_box]; with_reducible apply Upd.box <;> first | (left; with_reducible rfl) | (right; decide) | skip)
    | split

theorem execSwitchTestEnd_mut (c : Fin 4) (ok : Bool) (s : State) : OutUpd [.free, .sys, .cyc, .saf, .rcd] (some [0xC1, 0xC7]) s (execSwitchTestEnd c ok s) := by
  unfold execSwitchTestEnd
  repeat' first
    | (extract_lets +onlyGivenNames x; refine Upd.cut (P := [.free, .sys, .cyc, .saf, .rcd]) (W := (some [0xC1, 0xC7])) (s := s) (x := x) ?_ (fun hx => ?_); rotate_left; clear_value x; rotate_left; subst x)
    | (extract_lets +onlyGivenNames x; subst x)
    | with_reducible assumption
    | with_reducible apply Upd.refl
    | with_reducible apply OutUpd.next
    | (with_reducible apply State_bump_step (w := 0xC7); rotate_left; decide; simp only [windowOf, SAF_CNT, SAF_CNT.TEST_FAIL] <;> omega)
    | (with_reducible apply Upd.comp (State_safFault_mut ..) <;> first | decide | skip)
    | (with_reducible show Upd _ _ _ _; with_reducible rw [State.mk_box]; with_reducible apply Upd.box <;> first | (left; with_reducible rfl) | (right; decide) | skip)
    | split

theorem execPartnerSafetyField_mut (sstate : BitVec 8) (sseq : BitVec 8) (pad : BitVec 16) (scrc : Sys2Proof.Word) (s : State) : OutUpd [.free, .cyc, .saf, .rcd] (some [0xC1, 0xC7]) s (execPartnerSafetyField sstate sseq pad scrc s) := by
  unfold execPartnerSafetyField
  repeat' first
    | (extract_lets +onlyGivenNames x; subst x)
    | with_reducible apply Upd.refl
    | with_reducible apply OutUpd.next
    | (with_reducible apply Upd.comp (State_partnerField_mut ..) <;> first | decide | skip)
    | (with_reducible show Upd _ _ _ _; with_reducible rw [State.mk_box]; with_reducible apply Upd.box <;> first | (left; with_reducible rfl) | (right; decide) | skip)
    | split

theorem execSinPinChange_mut (pair : Fin 8) (memberB : Bool) (reading : Fin 3) (stamp : Nat) (s : State) : OutUpd [.cyc, .tms, .saf, .rcd] (some [0xC1, 0xC3, 0xC7]) s (execSinPinChange pair memberB reading stamp s) := by
  unfold execSinPinChange
  repeat' first
    | (extract_lets +onlyGivenNames x; refine Upd.cut (P := [.cyc, .tms, .saf, .rcd]) (W := (some [0xC1, 0xC3, 0xC7])) (s := s) (x := x) ?_ (fun hx => ?_); rotate_left; clear_value x; rotate_left; subst x)
    | (extract_lets +onlyGivenNames x; subst x)
    | with_reducible assumption
    | with_reducible apply Upd.refl
    | with_reducible apply OutUpd.next
    | (with_reducible apply Upd.comp (State_safEval_mut ..) <;> first | decide | skip)
    | (with_reducible apply Upd.comp (State_takeMember_mut ..) <;> first | decide | skip)
    | (with_reducible show Upd _ _ _ _; with_reducible rw [State.mk_box]; with_reducible apply Upd.box <;> first | (left; with_reducible rfl) | (right; decide) | skip)
    | split

theorem execMbxRelease_mut (s : State) : OutUpd [.cyc, .saf, .rcd] (some [0xC1, 0xC7]) s (execMbxRelease s) := by
  unfold execMbxRelease
  repeat' first
    | with_reducible apply Upd.refl
    | with_reducible apply OutUpd.next
    | (with_reducible apply SndUpd.comp (State_mbxRelease_mut ..) <;> first | decide | skip)
    | (with_reducible apply Upd.comp (State_mbxServe_mut (P := [.cyc, .saf, .rcd]) (W := [0xC1, 0xC7]) ..) <;> first | decide | skip)
    | (intro arg u)

theorem execStpPulse_mut (stp : Fin 2) (s : State) : OutUpd [.saf] (some []) s (execStpPulse stp s) := by
  unfold execStpPulse
  repeat' first
    | (extract_lets +onlyGivenNames x; subst x)
    | with_reducible apply Upd.refl
    | with_reducible apply OutUpd.next
    | (with_reducible show Upd _ _ _ _; with_reducible rw [State.mk_box]; with_reducible apply Upd.box <;> first | (left; with_reducible rfl) | (right; decide) | skip)
    | split

theorem State_safSupplyWarn_mut (uv : Bool) (s : State) : Upd [.free, .sys, .cyc, .saf, .rcd] (some [0xC1, 0xC7]) s (State.safSupplyWarn uv s) := by
  unfold State.safSupplyWarn
  repeat' first
    | with_reducible apply Upd.refl
    | (with_reducible apply Upd.comp (State_safEval_mut ..) <;> first | decide | skip)
    | (with_reducible apply Upd.comp (State_safCleared_mut ..) <;> first | decide | skip)
    | (with_reducible apply Upd.comp (State_safFault_mut ..) <;> first | decide | skip)
    | split

theorem execPairDisc_mut (pair : Fin 8) (s : State) : OutUpd [.free, .sys, .cyc, .saf, .rcd] (some [0xC1, 0xC7]) s (execPairDisc pair s) := by
  unfold execPairDisc
  repeat' first
    | (extract_lets +onlyGivenNames x; subst x)
    | with_reducible apply Upd.refl
    | with_reducible apply OutUpd.next
    | (with_reducible apply Upd.comp (State_safFault_mut ..) <;> first | decide | skip)
    | split

end Sys2Proof.Machine
end

