-- ==== Sys2Proof/Laws/MutPair.lean ====
section
/-! SUPPORT. What each operation of Machine/Pair.lean may change (`Upd`): its parts of the state and its register windows. -/

namespace Sys2Proof.Machine

set_option Elab.async false
set_option linter.unusedSimpArgs false
set_option linter.unusedTactic false
set_option linter.unreachableTactic false
set_option linter.unnecessarySeqFocus false
set_option maxRecDepth 20000

theorem State_setLane_mut (l : Nat) (up : Bool) (s : State) : Upd [.cyc, .rcd] (some [0xC1, 0xD0]) s (State.setLane l up s) := by
  unfold State.setLane
  repeat' first
    | (extract_lets +onlyGivenNames x; subst x)
    | with_reducible apply Upd.refl
    | (with_reducible apply State_setB_step (w := 0xD0); rotate_left; decide; simp only [windowOf, PAIR_STAT] <;> omega)
    | (with_reducible apply Upd.comp (State_raise_mut ..) <;> first | decide | skip)
    | split

theorem State_cvDrop_mut (s : State) : Upd [.cyc, .rcd] (some [0xC1, 0xD0]) s (State.cvDrop s) := by
  unfold State.cvDrop
  repeat' first
    | with_reducible apply Upd.refl
    | (with_reducible apply State_bump_step (w := 0xD0); rotate_left; decide; simp only [windowOf, PAIR_CNT, PAIR_CNT.CV_DROP] <;> omega)
    | (with_reducible apply Upd.comp (State_raise_mut ..) <;> first | decide | skip)

theorem State_pairLeave_mut (s : State) : Upd [.dram, .cyc, .rings, .pair, .rcd] (some [0xC1, 0xD0]) s (State.pairLeave s) := by
  unfold State.pairLeave
  repeat' first
    | (extract_lets +onlyGivenNames x; refine Upd.cut (P := [.dram, .cyc, .rings, .pair, .rcd]) (W := (some [0xC1, 0xD0])) (s := s) (x := x) ?_ (fun hx => ?_); rotate_left; clear_value x; rotate_left; subst x)
    | (extract_lets +onlyGivenNames x; subst x)
    | with_reducible assumption
    | with_reducible apply Upd.refl
    | (with_reducible apply Upd.comp (State_cvDrop_mut ..) <;> first | decide | skip)
    | (with_reducible apply Upd.comp (State_completeSelf_mut ..) <;> first | decide | skip)
    | (with_reducible apply Upd.foldl <;> first | (intro y a ha hy; skip) | skip)
    | (with_reducible show Upd _ _ _ _; with_reducible rw [State.mk_box]; with_reducible apply Upd.box <;> first | (left; with_reducible rfl) | (right; decide) | skip)

theorem State_setPairState_mut (v : Nat) (s : State) : Upd [.dram, .cyc, .rings, .pair, .rcd] (some [0xC1, 0xD0]) s (State.setPairState v s) := by
  unfold State.setPairState
  repeat' first
    | (extract_lets +onlyGivenNames x; refine Upd.cut (P := [.dram, .cyc, .rings, .pair, .rcd]) (W := (some [0xC1, 0xD0])) (s := s) (x := x) ?_ (fun hx => ?_); rotate_left; clear_value x; rotate_left; subst x)
    | (extract_lets +onlyGivenNames x; subst x)
    | with_reducible assumption
    | with_reducible apply Upd.refl
    | (with_reducible apply Upd.comp (State_pairLeave_mut ..) <;> first | decide | skip)
    | (with_reducible apply State_set_step (w := 0xD0); rotate_left; decide; simp only [windowOf, PAIR_STAT, PAIR_STAT.STATE] <;> omega)
    | (with_reducible apply Upd.comp (State_raise_mut ..) <;> first | decide | skip)
    | (with_reducible show Upd _ _ _ _; with_reducible rw [State.mk_box]; with_reducible apply Upd.box <;> first | (left; with_reducible rfl) | (right; decide) | skip)
    | split

theorem State_pairDown_mut (s : State) : Upd [.dram, .cyc, .rings, .pair, .rcd] (some [0xC1, 0xD0]) s (State.pairDown s) := by
  unfold State.pairDown
  repeat' first
    | (extract_lets +onlyGivenNames x; refine Upd.cut (P := [.dram, .cyc, .rings, .pair, .rcd]) (W := (some [0xC1, 0xD0])) (s := s) (x := x) ?_ (fun hx => ?_); rotate_left; clear_value x; rotate_left; subst x)
    | (extract_lets +onlyGivenNames x; subst x)
    | with_reducible assumption
    | with_reducible apply Upd.refl
    | (with_reducible apply Upd.comp (State_setPairState_mut ..) <;> first | decide | skip)
    | (with_reducible show Upd _ _ _ _; with_reducible rw [State.mk_box]; with_reducible apply Upd.box <;> first | (left; with_reducible rfl) | (right; decide) | skip)
    | split

theorem State_laneQuiet_mut (l : Nat) (s : State) : Upd [.dram, .cyc, .rings, .pair, .rcd] (some [0xC1, 0xD0]) s (State.laneQuiet l s) := by
  unfold State.laneQuiet
  repeat' first
    | with_reducible apply Upd.refl
    | (with_reducible apply Upd.comp (State_setLane_mut ..) <;> first | decide | skip)
    | (with_reducible apply Upd.comp (State_pairDown_mut ..) <;> first | decide | skip)
    | split

theorem State_laneSweep_mut (s : State) : Upd [.dram, .cyc, .rings, .pair, .rcd] (some [0xC1, 0xD0]) s (State.laneSweep s) := by
  unfold State.laneSweep
  repeat' first
    | with_reducible apply Upd.refl
    | (with_reducible apply Upd.comp (State_laneQuiet_mut ..) <;> first | decide | skip)

theorem opBodySend_mut (c : Cmd) (s : State) (hc : c.blk = 0x10) : Upd [.dram, .cyc, .rings, .pair, .rcd] (some [0xC1, 0xD0]) s (opBodySend c s) := by
  unfold opBodySend
  repeat' first
    | (extract_lets +onlyGivenNames x; refine Upd.cut (P := [.dram, .cyc, .rings, .pair, .rcd]) (W := (some [0xC1, 0xD0])) (s := s) (x := x) ?_ (fun hx => ?_); rotate_left; clear_value x; rotate_left; subst x)
    | (extract_lets +onlyGivenNames x; subst x)
    | with_reducible assumption
    | with_reducible apply Upd.refl
    | (with_reducible apply Upd.comp (State_laneSweep_mut ..) <;> first | decide | skip)
    | (with_reducible apply Upd.comp (Cmd_finish_mut (b := 0x10) ..) <;> first | decide | skip)
    | (with_reducible show Upd _ _ _ _; with_reducible rw [State.mk_box]; with_reducible apply Upd.box <;> first | (left; with_reducible rfl) | (right; decide) | skip)
    | split

theorem State_pairJoin_mut (c : List Sys2Proof.Byte) (s : State) : Upd [.dram, .cyc, .rings, .pair, .rcd] (some [0xC1, 0xD0]) s (State.pairJoin c s) := by
  unfold State.pairJoin
  repeat' first
    | (extract_lets +onlyGivenNames x; refine Upd.cut (P := [.dram, .cyc, .rings, .pair, .rcd]) (W := (some [0xC1, 0xD0])) (s := s) (x := x) ?_ (fun hx => ?_); rotate_left; clear_value x; rotate_left; subst x)
    | (extract_lets +onlyGivenNames x; subst x)
    | with_reducible assumption
    | with_reducible apply Upd.refl
    | (with_reducible apply State_set_step (w := 0xD0); rotate_left; decide; simp only [windowOf, PAIR_STAT, PAIR_STAT.WHY] <;> omega)
    | (with_reducible apply Upd.comp (State_setPairState_mut ..) <;> first | decide | skip)
    | (with_reducible show Upd _ _ _ _; with_reducible rw [State.mk_box]; with_reducible apply Upd.box <;> first | (left; with_reducible rfl) | (right; decide) | skip)
    | split

theorem State_cellDrop_mut (l : Nat) (s : State) : Upd [.cyc, .rcd] (some [0xC1, 0xD0]) s (State.cellDrop l s) := by
  unfold State.cellDrop
  repeat' first
    | with_reducible apply Upd.refl
    | (with_reducible apply State_bump_step (w := 0xD0); rotate_left; decide; simp only [windowOf, PAIR_LANE, PAIR_LANE.CRC] <;> omega)
    | (with_reducible apply Upd.comp (State_raise_mut ..) <;> first | decide | skip)
    | split

theorem execBodySend_mut (ring : Fin 1) (e : Sys2Proof.Entry) (s : State) : OutUpd [.dram, .cyc, .rings, .pair, .rcd] (some [0xC1, 0xD0]) s (execBodySend ring e s) := by
  unfold execBodySend
  repeat' first
    | with_reducible assumption
    | with_reducible apply Upd.refl
    | with_reducible apply OutUpd.next
    | (with_reducible apply Upd.comp (opBodySend_mut ..) <;> first | decide | skip)
    | (with_reducible apply Upd.comp (State_runRow_mut (P := [.dram, .cyc, .rings, .pair, .rcd]) (W := [0xC1, 0xD0]) ..) <;> first | decide | skip)
    | (intro c u hc)

theorem State_sigPut_mut (i : Nat) (rel : Nat) (v : Nat) (s : State) : Upd [.pair] (some []) s (State.sigPut i rel v s) := by
  unfold State.sigPut
  repeat' first
    | (extract_lets +onlyGivenNames x; subst x)
    | with_reducible apply Upd.refl
    | (with_reducible show Upd _ _ _ _; with_reducible rw [State.mk_box]; with_reducible apply Upd.box <;> first | (left; with_reducible rfl) | (right; decide) | skip)

theorem State_pairDisable_mut (s : State) : Upd [.dram, .cyc, .rings, .pair, .rcd] (some [0xC1, 0xD0]) s (State.pairDisable s) := by
  unfold State.pairDisable
  repeat' first
    | with_reducible apply Upd.refl
    | (with_reducible apply Upd.comp (State_pairLeave_mut ..) <;> first | decide | skip)
    | (with_reducible apply State_setB_step (w := 0xD0); rotate_left; decide; simp only [windowOf, PAIR_CTRL, PAIR_CTRL.ENABLE] <;> omega)
    | (with_reducible apply Upd.comp (State_setLane_mut ..) <;> first | decide | skip)
    | (with_reducible apply Upd.comp (State_pairDown_mut ..) <;> first | decide | skip)

theorem execPairDisable_mut (s : State) : OutUpd [.dram, .cyc, .rings, .pair, .rcd] (some [0xC1, 0xD0]) s (execPairDisable s) := by
  unfold execPairDisable
  repeat' first
    | with_reducible apply Upd.refl
    | with_reducible apply OutUpd.next
    | (with_reducible apply Upd.comp (State_pairDisable_mut ..) <;> first | decide | skip)
    | split

theorem State_bodyIn_mut (link : Nat) (b : Nat) (s : State) : Upd [.dram, .cyc, .fus, .pair, .rcd] (some [0xC1, 0xD0]) s (State.bodyIn link b s) := by
  unfold State.bodyIn
  repeat' first
    | (extract_lets +onlyGivenNames x; refine Upd.cut (P := [.dram, .cyc, .fus, .pair, .rcd]) (W := (some [0xC1, 0xD0])) (s := s) (x := x) ?_ (fun hx => ?_); rotate_left; clear_value x; rotate_left; subst x)
    | (extract_lets +onlyGivenNames x; subst x)
    | with_reducible assumption
    | with_reducible apply Upd.refl
    | (with_reducible apply Upd.comp (State_fusFeed_mut ..) <;> first | decide | skip)
    | (with_reducible apply Upd.comp (State_dramPutN_mut ..) <;> first | decide | skip)
    | (with_reducible apply Upd.comp (State_cvDrop_mut ..) <;> first | decide | skip)
    | (with_reducible show Upd _ _ _ _; with_reducible rw [State.mk_box]; with_reducible apply Upd.box <;> first | (left; with_reducible rfl) | (right; decide) | skip)
    | split

theorem State_bulkPlace_mut (link : Nat) (b : Nat) (off : Nat) (r : Rasm) (data : List Sys2Proof.Byte) (s : State) : Upd [.dram, .cyc, .fus, .pair, .rcd] (some [0xC1, 0xD0]) s (State.bulkPlace link b off r data s) := by
  unfold State.bulkPlace
  repeat' first
    | (extract_lets +onlyGivenNames x; refine Upd.cut (P := [.dram, .cyc, .fus, .pair, .rcd]) (W := (some [0xC1, 0xD0])) (s := s) (x := x) ?_ (fun hx => ?_); rotate_left; clear_value x; rotate_left; subst x)
    | (extract_lets +onlyGivenNames x; subst x)
    | with_reducible assumption
    | with_reducible apply Upd.refl
    | (with_reducible apply Upd.comp (State_dramPuts_mut ..) <;> first | decide | skip)
    | (with_reducible apply Upd.comp (State_bodyIn_mut ..) <;> first | decide | skip)
    | (with_reducible show Upd _ _ _ _; with_reducible rw [State.mk_box]; with_reducible apply Upd.box <;> first | (left; with_reducible rfl) | (right; decide) | skip)
    | split

theorem State_bulkIn_mut (c : List Sys2Proof.Byte) (s : State) : Upd [.dram, .cyc, .fus, .pair, .rcd] (some [0xC1, 0xD0]) s (State.bulkIn c s) := by
  unfold State.bulkIn
  repeat' first
    | (extract_lets +onlyGivenNames x; refine Upd.cut (P := [.dram, .cyc, .fus, .pair, .rcd]) (W := (some [0xC1, 0xD0])) (s := s) (x := x) ?_ (fun hx => ?_); rotate_left; clear_value x; rotate_left; subst x)
    | (extract_lets +onlyGivenNames x; subst x)
    | with_reducible assumption
    | with_reducible apply Upd.refl
    | (with_reducible apply Upd.comp (State_cvDrop_mut ..) <;> first | decide | skip)
    | (with_reducible apply Upd.comp (State_bulkPlace_mut ..) <;> first | decide | skip)
    | (with_reducible apply Upd.foldl <;> first | (intro y a ha hy; skip) | skip)
    | (with_reducible show Upd _ _ _ _; with_reducible rw [State.mk_box]; with_reducible apply Upd.box <;> first | (left; with_reducible rfl) | (right; decide) | skip)
    | split

/-- A cell on a lane: what its meaning may change. -/
theorem State_cellIn_mut {P : List Comp} {W : List Nat} (l ty : Nat) (cell : List Byte) (f : State → State) (s : State)
    (hP : ([.dram, .cyc, .rings, .pair, .rcd] : List Comp).all (P.contains ·) = true) (hW : [0xC1, 0xD0].all (W.contains ·) = true)
    (h : ∀ u, Upd P (some W) s u → Upd P (some W) s (f u)) : Upd P (some W) s (s.cellIn l ty cell f) := by
  have h0 : Upd P (some W) s s.laneSweep := (State_laneSweep_mut s).mono (by simp at hP ⊢; simp [hP]) (by simp [winSub] at hW ⊢; simp [hW])
  have h1 (u : State) : Upd P (some W) u (u.cellDrop l) := (State_cellDrop_mut l u).mono (by simp at hP ⊢; simp [hP]) (by simp [winSub] at hW ⊢; simp [hW])
  unfold State.cellIn
  exact Upd.ite (Upd.refl s) (Upd.ite (h0.trans (h1 _)) (Upd.ite (h _ h0) h0))

theorem State_pairOffset_mut (c : List Sys2Proof.Byte) (stamp : Nat) (s : State) : Upd [.free, .cyc, .pair, .rcd] (some [0xC1, 0xD0]) s (State.pairOffset c stamp s) := by
  unfold State.pairOffset
  repeat' first
    | (extract_lets +onlyGivenNames x; refine Upd.cut (P := [.free, .cyc, .pair, .rcd]) (W := (some [0xC1, 0xD0])) (s := s) (x := x) ?_ (fun hx => ?_); rotate_left; clear_value x; rotate_left; subst x)
    | (extract_lets +onlyGivenNames x; subst x)
    | with_reducible assumption
    | with_reducible apply Upd.refl
    | (with_reducible apply State_setB_step (w := 0xD0); rotate_left; decide; simp only [windowOf, PAIR_OFS, PAIR_OFS.OFS, PAIR_STAT, PAIR_STAT.UNTRUST] <;> omega)
    | (with_reducible apply State_set_step (w := 0xD0); rotate_left; decide; simp only [windowOf, PAIR_OFS, PAIR_OFS.OFS, PAIR_STAT, PAIR_STAT.UNTRUST] <;> omega)
    | (with_reducible apply Upd.comp (State_raise_mut ..) <;> first | decide | skip)
    | (with_reducible apply Upd.comp (State_drawn_mut ..) <;> first | decide | skip)
    | (with_reducible show Upd _ _ _ _; with_reducible rw [State.mk_box]; with_reducible apply Upd.box <;> first | (left; with_reducible rfl) | (right; decide) | skip)
    | split

theorem State_pairTrip_mut (c : List Sys2Proof.Byte) (stamp : Nat) (s : State) : OptUpd [.pair] (some [0xD0]) s (State.pairTrip c stamp s) := by
  unfold State.pairTrip
  repeat' first
    | (extract_lets +onlyGivenNames x; subst x)
    | with_reducible apply Upd.refl
    | (with_reducible apply OptUpd.map; intro y hy)
    | (with_reducible apply State_set_step (w := 0xD0); rotate_left; decide; simp only [windowOf, PAIR_DLY, PAIR_DLY.DLY] <;> omega)
    | (with_reducible show Upd _ _ _ _; with_reducible rw [State.mk_box]; with_reducible apply Upd.box <;> first | (left; with_reducible rfl) | (right; decide) | skip)

theorem State_pairTime_mut (c : List Sys2Proof.Byte) (stamp : Nat) (s : State) : Upd [.free, .cyc, .tms, .pair, .rcd] (some [0xC1, 0xC3, 0xD0]) s (State.pairTime c stamp s) := by
  unfold State.pairTime
  repeat' first
    | (extract_lets +onlyGivenNames x; refine Upd.cut (P := [.free, .cyc, .tms, .pair, .rcd]) (W := (some [0xC1, 0xC3, 0xD0])) (s := s) (x := x) ?_ (fun hx => ?_); rotate_left; clear_value x; rotate_left; subst x)
    | (extract_lets +onlyGivenNames x; subst x)
    | with_reducible assumption
    | with_reducible apply Upd.refl
    | (with_reducible apply Upd.comp (State_pairOffset_mut ..) <;> first | decide | skip)
    | (with_reducible apply Upd.comp (State_deliverObs_mut ..) <;> first | decide | skip)
    | (with_reducible apply OptUpd.comp (State_pairTrip_mut ..) <;> first | decide | skip)
    | (with_reducible refine OptUpd.of_eq ?_ (by assumption))
    | split

theorem State_headRx_mut (c : List Sys2Proof.Byte) (stamp : Nat) (s : State) : Upd [.dram, .free, .cyc, .rings, .tms, .pair, .rcd] (some [0xC1, 0xC3, 0xD0]) s (State.headRx c stamp s) := by
  unfold State.headRx
  repeat' first
    | (extract_lets +onlyGivenNames x; refine Upd.cut (P := [.dram, .free, .cyc, .rings, .tms, .pair, .rcd]) (W := (some [0xC1, 0xC3, 0xD0])) (s := s) (x := x) ?_ (fun hx => ?_); rotate_left; clear_value x; rotate_left; subst x)
    | (extract_lets +onlyGivenNames x; subst x)
    | with_reducible assumption
    | with_reducible apply Upd.refl
    | (with_reducible apply Upd.comp (State_pairTime_mut ..) <;> first | decide | skip)
    | (with_reducible apply State_set_step (w := 0xD0); rotate_left; decide; simp only [windowOf, PAIR_STAT, PAIR_STAT.CYC] <;> omega)
    | (with_reducible apply Upd.comp (State_pairJoin_mut ..) <;> first | decide | skip)
    | (with_reducible show Upd _ _ _ _; with_reducible rw [State.mk_box]; with_reducible apply Upd.box <;> first | (left; with_reducible rfl) | (right; decide) | skip)

theorem execHeadRx_mut (lane : Fin 2) (cell : List Sys2Proof.Byte) (stamp : Nat) (s : State) : OutUpd [.dram, .free, .cyc, .rings, .tms, .pair, .rcd] (some [0xC1, 0xC3, 0xD0]) s (execHeadRx lane cell stamp s) := by
  unfold execHeadRx
  repeat' first
    | (extract_lets +onlyGivenNames x; refine Upd.cut (P := [.dram, .free, .cyc, .rings, .tms, .pair, .rcd]) (W := (some [0xC1, 0xC3, 0xD0])) (s := s) (x := x) ?_ (fun hx => ?_); rotate_left; clear_value x; rotate_left; subst x)
    | (extract_lets +onlyGivenNames x; subst x)
    | with_reducible assumption
    | with_reducible apply Upd.refl
    | with_reducible apply OutUpd.next
    | (with_reducible apply Upd.comp (State_cellIn_mut (P := [.dram, .free, .cyc, .rings, .tms, .pair, .rcd]) (W := [0xC1, 0xC3, 0xD0]) ..) <;> first | decide | skip)
    | (intro u hu)
    | (with_reducible apply Upd.comp (State_setLane_mut ..) <;> first | decide | skip)
    | (with_reducible apply Upd.comp (State_headRx_mut ..) <;> first | decide | skip)
    | (with_reducible show Upd _ _ _ _; with_reducible rw [State.mk_box]; with_reducible apply Upd.box <;> first | (left; with_reducible rfl) | (right; decide) | skip)
    | split

theorem State_bulkRx_mut (cell : List Sys2Proof.Byte) (s : State) : Upd [.dram, .cyc, .fus, .pair, .rcd] (some [0xC1, 0xD0]) s (State.bulkRx cell s) := by
  unfold State.bulkRx
  repeat' first
    | (extract_lets +onlyGivenNames x; subst x)
    | with_reducible apply Upd.refl
    | (with_reducible apply Upd.comp (State_bulkIn_mut ..) <;> first | decide | skip)
    | (with_reducible show Upd _ _ _ _; with_reducible rw [State.mk_box]; with_reducible apply Upd.box <;> first | (left; with_reducible rfl) | (right; decide) | skip)
    | split

theorem execBulkRx_mut (lane : Fin 2) (cell : List Sys2Proof.Byte) (s : State) : OutUpd [.dram, .cyc, .rings, .fus, .pair, .rcd] (some [0xC1, 0xD0]) s (execBulkRx lane cell s) := by
  unfold execBulkRx
  repeat' first
    | with_reducible assumption
    | with_reducible apply Upd.refl
    | with_reducible apply OutUpd.next
    | (with_reducible apply Upd.comp (State_bulkRx_mut ..) <;> first | decide | skip)
    | (with_reducible apply Upd.comp (State_cellIn_mut (P := [.dram, .cyc, .rings, .fus, .pair, .rcd]) (W := [0xC1, 0xD0]) ..) <;> first | decide | skip)
    | (intro u hu)

theorem State_sigIn_mut (cell : List Sys2Proof.Byte) (s : State) : Upd [.cyc, .pair, .rcd] (some [0xC1, 0xD0]) s (State.sigIn cell s) := by
  unfold State.sigIn
  repeat' first
    | (extract_lets +onlyGivenNames x; refine Upd.cut (P := [.cyc, .pair, .rcd]) (W := (some [0xC1, 0xD0])) (s := s) (x := x) ?_ (fun hx => ?_); rotate_left; clear_value x; rotate_left; subst x)
    | (extract_lets +onlyGivenNames x; subst x)
    | with_reducible assumption
    | with_reducible apply Upd.refl
    | (with_reducible apply State_bump_step (w := 0xD0); rotate_left; decide; simp only [windowOf, PAIR_CNT, PAIR_CNT.SIG_LATE] <;> omega)
    | (with_reducible apply Upd.comp (State_sigPut_mut ..) <;> first | decide | skip)
    | (with_reducible apply Upd.comp (State_raise_mut ..) <;> first | decide | skip)
    | (with_reducible apply Upd.foldl <;> first | (intro y a ha hy; skip) | skip)
    | (with_reducible show Upd _ _ _ _; with_reducible rw [State.mk_box]; with_reducible apply Upd.box <;> first | (left; with_reducible rfl) | (right; decide) | skip)
    | split

theorem execSigRx_mut (lane : Fin 2) (cell : List Sys2Proof.Byte) (s : State) : OutUpd [.dram, .cyc, .rings, .pair, .rcd] (some [0xC1, 0xD0]) s (execSigRx lane cell s) := by
  unfold execSigRx
  repeat' first
    | with_reducible assumption
    | with_reducible apply Upd.refl
    | with_reducible apply OutUpd.next
    | (with_reducible apply Upd.comp (State_cellIn_mut (P := [.dram, .cyc, .rings, .pair, .rcd]) (W := [0xC1, 0xD0]) ..) <;> first | decide | skip)
    | (intro u hu)
    | (with_reducible apply Upd.comp (State_sigIn_mut ..) <;> first | decide | skip)

theorem execLaneTimeout_mut (lane : Fin 2) (s : State) : OutUpd [.dram, .cyc, .rings, .pair, .rcd] (some [0xC1, 0xD0]) s (execLaneTimeout lane s) := by
  unfold execLaneTimeout
  repeat' first
    | with_reducible apply Upd.refl
    | with_reducible apply OutUpd.next
    | (with_reducible apply Upd.comp (State_laneQuiet_mut ..) <;> first | decide | skip)
    | split

theorem State_pairEcho_mut (s : State) : SndUpd [.free] (some []) s (State.pairEcho s) := by
  unfold State.pairEcho
  repeat' first
    | with_reducible apply Upd.refl
    | (with_reducible show SndUpd _ _ _ _; with_reducible rw [State.snd_pair]; with_reducible apply SndUpd.mk)
    | (with_reducible apply Upd.comp (State_drawn_mut ..) <;> first | decide | skip)
    | split

theorem execPairCycle_mut (s : State) : OutUpd [.dram, .free, .cyc, .rings, .pair, .rcd] (some [0xC1, 0xD0]) s (execPairCycle s) := by
  unfold execPairCycle
  repeat' first
    | (extract_lets +onlyGivenNames x; refine Upd.cut (P := [.dram, .free, .cyc, .rings, .pair, .rcd]) (W := (some [0xC1, 0xD0])) (s := s) (x := x) ?_ (fun hx => ?_); rotate_left; clear_value x; rotate_left; subst x)
    | with_reducible assumption
    | with_reducible apply Upd.refl
    | with_reducible apply OutUpd.next
    | (with_reducible apply SndUpd.comp (State_pairEcho_mut ..) <;> first | decide | skip)
    | (with_reducible apply Upd.comp (State_laneSweep_mut ..) <;> first | decide | skip)
    | (with_reducible show Upd _ _ _ _; with_reducible rw [State.snd_box]; with_reducible apply SndUpd.out)
    | (with_reducible show Upd _ _ _ _; with_reducible rw [State.mk_box]; with_reducible apply Upd.box <;> first | (left; with_reducible rfl) | (right; decide) | skip)
    | split

theorem execPairCellCrcFail_mut (lane : Fin 2) (s : State) : OutUpd [.cyc, .rcd] (some [0xC1, 0xD0]) s (execPairCellCrcFail lane s) := by
  unfold execPairCellCrcFail
  repeat' first
    | with_reducible apply Upd.refl
    | with_reducible apply OutUpd.next
    | (with_reducible apply Upd.comp (State_cellDrop_mut ..) <;> first | decide | skip)
    | split

theorem State_pairStart_mut (s : State) : Upd [.free, .pair] (some []) s (State.pairStart s) := by
  unfold State.pairStart
  repeat' first
    | (extract_lets +onlyGivenNames x; refine Upd.cut (P := [.free, .pair]) (W := (some [])) (s := s) (x := x) ?_ (fun hx => ?_); rotate_left; clear_value x; rotate_left; subst x)
    | (extract_lets +onlyGivenNames x; subst x)
    | with_reducible assumption
    | with_reducible apply Upd.refl
    | (with_reducible apply Upd.comp (State_drawn_mut ..) <;> first | decide | skip)
    | (with_reducible show Upd _ _ _ _; with_reducible rw [State.mk_box]; with_reducible apply Upd.box <;> first | (left; with_reducible rfl) | (right; decide) | skip)

theorem execBodySendDone_mut (s : State) : OutUpd [.dram, .cyc, .rings, .pair, .rcd] (some [0xC1, 0xD0]) s (execBodySendDone s) := by
  unfold execBodySendDone
  repeat' first
    | (extract_lets +onlyGivenNames x; subst x)
    | with_reducible apply Upd.refl
    | with_reducible apply OutUpd.next
    | (with_reducible apply Upd.comp (State_completeSelf_mut ..) <;> first | decide | skip)
    | (with_reducible show Upd _ _ _ _; with_reducible rw [State.mk_box]; with_reducible apply Upd.box <;> first | (left; with_reducible rfl) | (right; decide) | skip)
    | split

end Sys2Proof.Machine
end

