-- ==== Sys2Proof/Laws/MutPnl.lean ====
section
/-! SUPPORT. What each operation of Machine/Pnl.lean may change (`Upd`): its parts of the state and its register windows. -/

namespace Sys2Proof.Machine

set_option Elab.async false
set_option linter.unusedSimpArgs false
set_option linter.unusedTactic false
set_option linter.unreachableTactic false
set_option linter.unnecessarySeqFocus false
set_option maxRecDepth 20000

theorem State_setPnl_mut (f : PnlState → PnlState) (s : State) : Upd [.pnl] (some []) s (State.setPnl f s) := by
  unfold State.setPnl
  repeat' first
    | with_reducible apply Upd.refl
    | (with_reducible show Upd _ _ _ _; with_reducible rw [State.mk_box]; with_reducible apply Upd.box <;> first | (left; with_reducible rfl) | (right; decide) | skip)

theorem State_writeFl_mut (value : Sys2Proof.Word) (s : State) : Upd [.pnl] (some [0xD1]) s (State.writeFl value s) := by
  unfold State.writeFl
  repeat' first
    | (extract_lets +onlyGivenNames x; refine Upd.cut (P := [.pnl]) (W := (some [0xD1])) (s := s) (x := x) ?_ (fun hx => ?_); rotate_left; clear_value x; rotate_left; subst x)
    | (extract_lets +onlyGivenNames x; subst x)
    | with_reducible assumption
    | with_reducible apply Upd.refl
    | (with_reducible apply Upd.comp (State_setPnl_mut ..) <;> first | decide | skip)
    | (with_reducible apply State_setB_step (w := 0xD1); rotate_left; decide; simp only [windowOf, PNL_FL, PNL_FL.FL_EN, PNL_FL.MA, PNL_STAT, PNL_STAT.FL_OPEN] <;> omega)
    | (with_reducible apply State_set_step (w := 0xD1); rotate_left; decide; simp only [windowOf, PNL_FL, PNL_FL.FL_EN, PNL_FL.MA, PNL_STAT, PNL_STAT.FL_OPEN] <;> omega)
    | split

theorem State_pnlDrop_mut (s : State) : Upd [.pnl] (some [0xD1]) s (State.pnlDrop s) := by
  unfold State.pnlDrop
  repeat' first
    | with_reducible apply Upd.refl
    | (with_reducible apply Upd.comp (State_setPnl_mut ..) <;> first | decide | skip)
    | (with_reducible apply State_set_step (w := 0xD1); rotate_left; decide; simp only [windowOf, PNL_STAT, PNL_STAT.STATE] <;> omega)

theorem State_pnlFinish_mut (o : PnlOp) (code : Nat) (s : State) : Upd [.dram, .cyc, .rings, .pnl, .rcd] (some [0xC1, 0xD1]) s (State.pnlFinish o code s) := by
  unfold State.pnlFinish
  repeat' first
    | (extract_lets +onlyGivenNames x; refine Upd.cut (P := [.dram, .cyc, .rings, .pnl, .rcd]) (W := (some [0xC1, 0xD1])) (s := s) (x := x) ?_ (fun hx => ?_); rotate_left; clear_value x; rotate_left; subst x)
    | with_reducible assumption
    | with_reducible apply Upd.refl
    | (with_reducible apply Upd.comp (State_setPnl_mut ..) <;> first | decide | skip)
    | (with_reducible apply Upd.comp (State_completeSelf_mut ..) <;> first | decide | skip)
    | split

theorem State_pnlFault_mut (code : Nat) (s : State) : Upd [.dram, .cyc, .rings, .pnl, .rcd] (some [0xC1, 0xD1]) s (State.pnlFault code s) := by
  unfold State.pnlFault
  repeat' first
    | (extract_lets +onlyGivenNames x; refine Upd.cut (P := [.dram, .cyc, .rings, .pnl, .rcd]) (W := (some [0xC1, 0xD1])) (s := s) (x := x) ?_ (fun hx => ?_); rotate_left; clear_value x; rotate_left; subst x)
    | with_reducible assumption
    | with_reducible apply Upd.refl
    | (with_reducible apply Upd.comp (State_setPnl_mut ..) <;> first | decide | skip)
    | (with_reducible apply Upd.comp (State_pnlDrop_mut ..) <;> first | decide | skip)
    | (with_reducible apply Upd.comp (State_pnlFinish_mut ..) <;> first | decide | skip)
    | split

theorem State_pnlRemoved_mut (s : State) : Upd [.dram, .cyc, .rings, .pnl, .rcd] (some [0xC1, 0xD1]) s (State.pnlRemoved s) := by
  unfold State.pnlRemoved
  repeat' first
    | with_reducible apply Upd.refl
    | (with_reducible apply Upd.comp (State_raise_mut ..) <;> first | decide | skip)
    | (with_reducible apply Upd.comp (State_pnlFault_mut ..) <;> first | decide | skip)

theorem State_pnlSweep_mut (s : State) : Upd [.dram, .cyc, .rings, .pnl, .rcd] (some [0xC1, 0xD1]) s (State.pnlSweep s) := by
  unfold State.pnlSweep
  repeat' first
    | with_reducible apply Upd.refl
    | (with_reducible apply Upd.comp (State_pnlRemoved_mut ..) <;> first | decide | skip)
    | split

theorem execPdetChange_mut (present : Bool) (s : State) : OutUpd [.dram, .cyc, .rings, .pnl, .rcd] (some [0xC1, 0xD1]) s (execPdetChange present s) := by
  unfold execPdetChange
  repeat' first
    | (extract_lets +onlyGivenNames x; refine Upd.cut (P := [.dram, .cyc, .rings, .pnl, .rcd]) (W := (some [0xC1, 0xD1])) (s := s) (x := x) ?_ (fun hx => ?_); rotate_left; clear_value x; rotate_left; subst x)
    | with_reducible assumption
    | with_reducible apply Upd.refl
    | with_reducible apply OutUpd.next
    | (with_reducible apply Upd.comp (State_pnlSweep_mut ..) <;> first | decide | skip)
    | (with_reducible apply Upd.comp (State_setPnl_mut ..) <;> first | decide | skip)
    | (with_reducible apply State_setB_step (w := 0xD1); rotate_left; decide; simp only [windowOf, PNL_STAT, PNL_STAT.PDET] <;> omega)
    | (with_reducible apply Upd.comp (State_raise_mut ..) <;> first | decide | skip)
    | split

theorem State_setOrderly_mut (b : Bool) (s : State) : Upd [.ka] (some [0xD4]) s (State.setOrderly b s) := by
  unfold State.setOrderly
  repeat' first
    | (extract_lets +onlyGivenNames x; subst x)
    | with_reducible apply Upd.refl
    | (with_reducible apply State_setB_step (w := 0xD4); rotate_left; decide; simp only [windowOf, KA_FLAGS, KA_FLAGS.ORDERLY] <;> omega)
    | (with_reducible show Upd _ _ _ _; with_reducible rw [State.mk_box]; with_reducible apply Upd.box <;> first | (left; with_reducible rfl) | (right; decide) | skip)

theorem State_pnlStart_mut (s : State) : Upd [.pnl] (some []) s (State.pnlStart s) := by
  unfold State.pnlStart
  repeat' first
    | with_reducible apply Upd.refl
    | (with_reducible apply Upd.comp (State_setPnl_mut ..) <;> first | decide | skip)

theorem State_pnlReady_mut (o : PnlOp) (s : State) : Upd [.dram, .cyc, .rings, .pnl, .rcd] (some [0xC1, 0xD1]) s (State.pnlReady o s) := by
  unfold State.pnlReady
  repeat' first
    | with_reducible apply Upd.refl
    | (with_reducible apply State_set_step (w := 0xD1); rotate_left; decide; simp only [windowOf, PNL_STAT, PNL_STAT.STATE] <;> omega)
    | (with_reducible apply Upd.comp (State_pnlFinish_mut ..) <;> first | decide | skip)

theorem State_clearEnd_mut (o : PnlOp) (s : State) : Upd [.dram, .cyc, .rings, .pnl, .rcd] (some [0xC1, 0xD1]) s (State.clearEnd o s) := by
  unfold State.clearEnd
  repeat' first
    | (extract_lets +onlyGivenNames x; refine Upd.cut (P := [.dram, .cyc, .rings, .pnl, .rcd]) (W := (some [0xC1, 0xD1])) (s := s) (x := x) ?_ (fun hx => ?_); rotate_left; clear_value x; rotate_left; subst x)
    | with_reducible assumption
    | with_reducible apply Upd.refl
    | (with_reducible apply Upd.comp (State_setPnl_mut ..) <;> first | decide | skip)
    | (with_reducible apply Upd.comp (State_raise_mut ..) <;> first | decide | skip)
    | (with_reducible apply Upd.comp (State_pnlReady_mut ..) <;> first | decide | skip)

theorem State_pnlLatch_mut (o : PnlOp) (s : State) : TrdUpd [.cyc, .pnl, .rcd] (some [0xC1, 0xD1]) s (State.pnlLatch o s) := by
  unfold State.pnlLatch
  repeat' first
    | (extract_lets +onlyGivenNames x; refine Upd.cut (P := [.cyc, .pnl, .rcd]) (W := (some [0xC1, 0xD1])) (s := s) (x := x) ?_ (fun hx => ?_); rotate_left; clear_value x; rotate_left; subst x)
    | (extract_lets +onlyGivenNames x; subst x)
    | with_reducible assumption
    | with_reducible apply Upd.refl
    | (with_reducible show TrdUpd _ _ _ _; with_reducible rw [State.trd_pair]; with_reducible apply TrdUpd.mk)
    | (with_reducible apply Upd.comp (State_setPnl_mut ..) <;> first | decide | skip)
    | (with_reducible apply State_set_step (w := 0xD1); rotate_left; decide; simp only [windowOf, PNL_STAT, PNL_STAT.BAND] <;> omega)
    | (with_reducible apply Upd.comp (State_raise_mut ..) <;> first | decide | skip)
    | split

theorem State_setPix_mut (k : Nat) (x : Pix) (s : State) : Upd [.pnl] (some []) s (State.setPix k x s) := by
  unfold State.setPix
  repeat' first
    | with_reducible apply Upd.refl
    | (with_reducible apply Upd.comp (State_setPnl_mut ..) <;> first | decide | skip)

theorem State_settleStart_mut (o : PnlOp) (s : State) : Upd [.dram, .cyc, .rings, .pnl, .rcd] (some [0xC1, 0xD1]) s (State.settleStart o s) := by
  unfold State.settleStart
  repeat' first
    | (extract_lets +onlyGivenNames x; subst x)
    | with_reducible apply Upd.refl
    | (with_reducible apply Upd.comp (State_setPnl_mut ..) <;> first | decide | skip)
    | (with_reducible apply Upd.comp (State_pnlDrop_mut ..) <;> first | decide | skip)
    | (with_reducible apply State_set_step (w := 0xD1); rotate_left; decide; simp only [windowOf, PNL_STAT, PNL_STAT.STATE] <;> omega)
    | (with_reducible apply Upd.comp (State_pnlFinish_mut ..) <;> first | decide | skip)
    | (with_reducible apply TrdUpd.comp (State_pnlLatch_mut ..) <;> first | decide | skip)
    | (with_reducible refine TrdUpd.of_eq ?_ (by assumption))
    | split

theorem State_refreshEnd_mut (o : PnlOp) (s : State) : Upd [.dram, .cyc, .rings, .pnl, .rcd] (some [0xC1, 0xD1]) s (State.refreshEnd o s) := by
  unfold State.refreshEnd
  repeat' first
    | (extract_lets +onlyGivenNames x; refine Upd.cut (P := [.dram, .cyc, .rings, .pnl, .rcd]) (W := (some [0xC1, 0xD1])) (s := s) (x := x) ?_ (fun hx => ?_); rotate_left; clear_value x; rotate_left; subst x)
    | (extract_lets +onlyGivenNames x; subst x)
    | with_reducible assumption
    | with_reducible apply Upd.refl
    | (with_reducible apply State_bump_step (w := 0xD1); rotate_left; decide; simp only [windowOf, PNL_CNT, PNL_CNT.REFR] <;> omega)
    | (with_reducible apply Upd.comp (State_settleStart_mut ..) <;> first | decide | skip)
    | (with_reducible apply Upd.comp (State_setPix_mut ..) <;> first | decide | skip)
    | (with_reducible apply Upd.comp (State_pnlReady_mut ..) <;> first | decide | skip)
    | (with_reducible apply Upd.foldl <;> first | (intro y a ha hy; skip) | skip)
    | split

theorem State_refreshStart_mut (addr : Nat) (o : PnlOp) (s : State) : Upd [.dram, .cyc, .rings, .pnl, .rcd] (some [0xC1, 0xD1]) s (State.refreshStart addr o s) := by
  unfold State.refreshStart
  repeat' first
    | (extract_lets +onlyGivenNames x; refine Upd.cut (P := [.dram, .cyc, .rings, .pnl, .rcd]) (W := (some [0xC1, 0xD1])) (s := s) (x := x) ?_ (fun hx => ?_); rotate_left; clear_value x; rotate_left; subst x)
    | (extract_lets +onlyGivenNames x; subst x)
    | with_reducible assumption
    | with_reducible apply Upd.refl
    | (with_reducible apply Upd.comp (State_setPnl_mut ..) <;> first | decide | skip)
    | (with_reducible apply State_set_step (w := 0xD1); rotate_left; decide; simp only [windowOf, PNL_STAT, PNL_STAT.STATE] <;> omega)
    | (with_reducible apply Upd.comp (State_refreshEnd_mut ..) <;> first | decide | skip)
    | (with_reducible apply Upd.comp (State_setPix_mut ..) <;> first | decide | skip)
    | (with_reducible apply Upd.foldl <;> first | (intro y a ha hy; skip) | skip)
    | split

theorem opPnlRefresh_mut (c : Cmd) (s : State) (hc : c.blk = 0x11) : Upd [.dram, .cyc, .rings, .pnl, .rcd] (some [0xC1, 0xD1]) s (opPnlRefresh c s) := by
  unfold opPnlRefresh
  repeat' first
    | (extract_lets +onlyGivenNames x; subst x)
    | with_reducible assumption
    | with_reducible apply Upd.refl
    | (with_reducible apply Upd.comp (State_refreshStart_mut ..) <;> first | decide | skip)
    | (with_reducible apply TrdUpd.comp (State_pnlLatch_mut ..) <;> first | decide | skip)
    | (with_reducible apply Upd.comp (Cmd_finish_mut (b := 0x11) ..) <;> first | decide | skip)
    | (with_reducible refine TrdUpd.of_eq ?_ (by assumption))
    | split

theorem execFlFault_mut (short : Bool) (s : State) : OutUpd [.cyc, .pnl, .rcd] (some [0xC1, 0xD1]) s (execFlFault short s) := by
  unfold execFlFault
  repeat' first
    | (extract_lets +onlyGivenNames x; refine Upd.cut (P := [.cyc, .pnl, .rcd]) (W := (some [0xC1, 0xD1])) (s := s) (x := x) ?_ (fun hx => ?_); rotate_left; clear_value x; rotate_left; subst x)
    | (extract_lets +onlyGivenNames x; subst x)
    | with_reducible assumption
    | with_reducible apply Upd.refl
    | with_reducible apply OutUpd.next
    | (with_reducible apply Upd.comp (State_setPnl_mut ..) <;> first | decide | skip)
    | (with_reducible apply State_setB_step (w := 0xD1); rotate_left; decide; simp only [windowOf, PNL_STAT, PNL_STAT.FL_OPEN, PNL_STAT.FL_SHORT] <;> omega)
    | (with_reducible apply Upd.comp (State_raise_mut ..) <;> first | decide | skip)
    | split

theorem State_clearStart_mut (o : PnlOp) (s : State) : Upd [.dram, .cyc, .rings, .pnl, .rcd] (some [0xC1, 0xD1]) s (State.clearStart o s) := by
  unfold State.clearStart
  repeat' first
    | (extract_lets +onlyGivenNames x; refine Upd.cut (P := [.dram, .cyc, .rings, .pnl, .rcd]) (W := (some [0xC1, 0xD1])) (s := s) (x := x) ?_ (fun hx => ?_); rotate_left; clear_value x; rotate_left; subst x)
    | (extract_lets +onlyGivenNames x; subst x)
    | with_reducible assumption
    | with_reducible apply Upd.refl
    | (with_reducible apply Upd.comp (State_setPnl_mut ..) <;> first | decide | skip)
    | (with_reducible apply Upd.comp (State_clearEnd_mut ..) <;> first | decide | skip)
    | (with_reducible apply State_set_step (w := 0xD1); rotate_left; decide; simp only [windowOf, PNL_STAT, PNL_STAT.STATE] <;> omega)
    | (with_reducible apply Upd.comp (State_setPix_mut ..) <;> first | decide | skip)
    | (with_reducible apply Upd.foldl <;> first | (intro y a ha hy; skip) | skip)
    | split

theorem State_dischargeEnd_mut (o : PnlOp) (s : State) : Upd [.dram, .cyc, .rings, .pnl, .rcd] (some [0xC1, 0xD1]) s (State.dischargeEnd o s) := by
  unfold State.dischargeEnd
  repeat' first
    | (extract_lets +onlyGivenNames x; refine Upd.cut (P := [.dram, .cyc, .rings, .pnl, .rcd]) (W := (some [0xC1, 0xD1])) (s := s) (x := x) ?_ (fun hx => ?_); rotate_left; clear_value x; rotate_left; subst x)
    | with_reducible assumption
    | with_reducible apply Upd.refl
    | (with_reducible apply Upd.comp (State_setPnl_mut ..) <;> first | decide | skip)
    | (with_reducible apply Upd.comp (State_raise_mut ..) <;> first | decide | skip)
    | (with_reducible apply Upd.comp (State_clearStart_mut ..) <;> first | decide | skip)

theorem State_fallStart_mut (o : PnlOp) (s : State) : Upd [.pnl] (some [0xD1]) s (State.fallStart o s) := by
  unfold State.fallStart
  repeat' first
    | with_reducible apply Upd.refl
    | (with_reducible apply Upd.comp (State_setPnl_mut ..) <;> first | decide | skip)
    | (with_reducible apply State_set_step (w := 0xD1); rotate_left; decide; simp only [windowOf, PNL_STAT, PNL_STAT.STATE] <;> omega)

theorem State_sendCode_mut (o : PnlOp) (k : Nat) (code : Nat) (s : State) : Upd [.cyc, .pnl, .rcd] (some [0xC1, 0xD1]) s (State.sendCode o k code s) := by
  unfold State.sendCode
  repeat' first
    | (extract_lets +onlyGivenNames x; refine Upd.cut (P := [.cyc, .pnl, .rcd]) (W := (some [0xC1, 0xD1])) (s := s) (x := x) ?_ (fun hx => ?_); rotate_left; clear_value x; rotate_left; subst x)
    | (extract_lets +onlyGivenNames x; subst x)
    | with_reducible assumption
    | with_reducible apply Upd.refl
    | (with_reducible apply State_bump_step (w := 0xD1); rotate_left; decide; simp only [windowOf, PNL_CNT, PNL_CNT.LSAT] <;> omega)
    | (with_reducible apply Upd.comp (State_raise_mut ..) <;> first | decide | skip)
    | (with_reducible apply Upd.comp (State_setPix_mut ..) <;> first | decide | skip)
    | split

theorem State_frameCode_mut (o : PnlOp) (t : Nat) (k : Nat) (f : Nat) (s : State) : Upd [.free, .cyc, .pnl, .rcd] (some [0xC1, 0xD1]) s (State.frameCode o t k f s) := by
  unfold State.frameCode
  repeat' first
    | (extract_lets +onlyGivenNames x; subst x)
    | with_reducible apply Upd.refl
    | (with_reducible apply Upd.comp (State_sendCode_mut ..) <;> first | decide | skip)
    | (with_reducible apply Upd.comp (State_drawn_mut ..) <;> first | decide | skip)
    | split

theorem execPnlFrame_mut (s : State) : OutUpd [.dram, .free, .cyc, .rings, .pnl, .rcd] (some [0xC1, 0xD1]) s (execPnlFrame s) := by
  unfold execPnlFrame
  repeat' first
    | (extract_lets +onlyGivenNames x; refine Upd.cut (P := [.dram, .free, .cyc, .rings, .pnl, .rcd]) (W := (some [0xC1, 0xD1])) (s := s) (x := x) ?_ (fun hx => ?_); rotate_left; clear_value x; rotate_left; subst x)
    | (extract_lets +onlyGivenNames x; subst x)
    | with_reducible assumption
    | with_reducible apply Upd.refl
    | with_reducible apply OutUpd.next
    | (with_reducible apply Upd.comp (State_pnlSweep_mut ..) <;> first | decide | skip)
    | (with_reducible apply Upd.comp (State_frameCode_mut ..) <;> first | decide | skip)
    | (with_reducible apply Upd.comp (State_setPnl_mut ..) <;> first | decide | skip)
    | (with_reducible apply Upd.comp (State_fallStart_mut ..) <;> first | decide | skip)
    | (with_reducible apply Upd.comp (State_clearEnd_mut ..) <;> first | decide | skip)
    | (with_reducible apply Upd.comp (State_refreshEnd_mut ..) <;> first | decide | skip)
    | (with_reducible apply Upd.comp (State_sendCode_mut ..) <;> first | decide | skip)
    | (with_reducible apply Upd.comp (State_dischargeEnd_mut ..) <;> first | decide | skip)
    | (with_reducible apply Upd.foldl <;> first | (intro y a ha hy; skip) | skip)
    | split

theorem execRailFault_mut (rail : Fin 5) (s : State) : OutUpd [.dram, .cyc, .rings, .pnl, .rcd] (some [0xC1, 0xD1]) s (execRailFault rail s) := by
  unfold execRailFault
  repeat' first
    | (extract_lets +onlyGivenNames x; subst x)
    | with_reducible apply Upd.refl
    | with_reducible apply OutUpd.next
    | (with_reducible apply State_set_step (w := 0xD1); rotate_left; decide; simp only [windowOf, PNL_STAT] <;> omega)
    | (with_reducible apply Upd.comp (State_raise_mut ..) <;> first | decide | skip)
    | (with_reducible apply Upd.comp (State_pnlFault_mut ..) <;> first | decide | skip)
    | split

theorem State_pnlDisable_mut (s : State) : Upd [.dram, .free, .cyc, .rings, .pnl, .rcd] (some [0xC1, 0xD1]) s (State.pnlDisable s) := by
  unfold State.pnlDisable
  repeat' first
    | (extract_lets +onlyGivenNames x; refine Upd.cut (P := [.dram, .free, .cyc, .rings, .pnl, .rcd]) (W := (some [0xC1, 0xD1])) (s := s) (x := x) ?_ (fun hx => ?_); rotate_left; clear_value x; rotate_left; subst x)
    | with_reducible assumption
    | with_reducible apply Upd.refl
    | (with_reducible apply State_setB_step (w := 0xD1); rotate_left; decide; simp only [windowOf, PNL_CTRL, PNL_CTRL.ENABLE] <;> omega)
    | (with_reducible apply Upd.comp (State_pnlDrop_mut ..) <;> first | decide | skip)
    | (with_reducible apply Upd.comp (State_pnlFinish_mut ..) <;> first | decide | skip)
    | (with_reducible apply Upd.comp (State_drawn_mut ..) <;> first | decide | skip)
    | split

theorem execPnlDisable_mut (s : State) : OutUpd [.dram, .free, .cyc, .rings, .pnl, .rcd] (some [0xC1, 0xD1]) s (execPnlDisable s) := by
  unfold execPnlDisable
  repeat' first
    | with_reducible apply Upd.refl
    | with_reducible apply OutUpd.next
    | (with_reducible apply Upd.comp (State_pnlDisable_mut ..) <;> first | decide | skip)
    | split

theorem State_dischargeStart_mut (o : PnlOp) (s : State) : Upd [.pnl] (some [0xD1]) s (State.dischargeStart o s) := by
  unfold State.dischargeStart
  repeat' first
    | with_reducible apply Upd.refl
    | (with_reducible apply Upd.comp (State_setPnl_mut ..) <;> first | decide | skip)
    | (with_reducible apply State_set_step (w := 0xD1); rotate_left; decide; simp only [windowOf, PNL_STAT, PNL_STAT.STATE] <;> omega)

theorem execPnlRailReady_mut (rail : Fin 5) (s : State) : OutUpd [.dram, .ka, .cyc, .rings, .pnl, .rcd] (some [0xC1, 0xD1, 0xD4]) s (execPnlRailReady rail s) := by
  unfold execPnlRailReady
  repeat' first
    | (extract_lets +onlyGivenNames x; refine Upd.cut (P := [.dram, .ka, .cyc, .rings, .pnl, .rcd]) (W := (some [0xC1, 0xD1, 0xD4])) (s := s) (x := x) ?_ (fun hx => ?_); rotate_left; clear_value x; rotate_left; subst x)
    | (extract_lets +onlyGivenNames x; subst x)
    | with_reducible assumption
    | with_reducible apply Upd.refl
    | with_reducible apply OutUpd.next
    | (with_reducible apply Upd.comp (State_pnlSweep_mut ..) <;> first | decide | skip)
    | (with_reducible apply Upd.comp (State_setPnl_mut ..) <;> first | decide | skip)
    | (with_reducible apply Upd.comp (State_dischargeStart_mut ..) <;> first | decide | skip)
    | (with_reducible apply Upd.comp (State_setOrderly_mut ..) <;> first | decide | skip)
    | (with_reducible apply Upd.comp (State_clearStart_mut ..) <;> first | decide | skip)
    | split

/-- A command of PNL: what its operation may change. -/
theorem State_runPnl_mut {P : List Comp} {W : List Nat} (r opcode : Nat) (e : Entry) (op : Cmd → State → State) (s : State)
    (hP : ([.dram, .cyc, .rings, .pnl, .rcd] : List Comp).all (P.contains ·) = true) (hW : [0xC1, 0xD1].all (W.contains ·) = true)
    (h : ∀ c u, c.blk = 0x11 → Upd P (some W) u (op c u)) : Upd P (some W) s (s.runPnl r opcode e op) := by
  have h0 : Upd P (some W) s s.pnlSweep := (State_pnlSweep_mut s).mono (by simp at hP ⊢; simp [hP]) (by simp [winSub] at hW ⊢; simp [hW])
  unfold State.runPnl
  exact Upd.ite h0 (h0.trans (State_runRow_mut r opcode 0 e op _ (by decide) (by simp at hP ⊢; simp [hP]) (by simp at hW ⊢; simp [hW]) h))

theorem execPnlRefresh_mut (ring : Fin 1) (e : Sys2Proof.Entry) (s : State) : OutUpd [.dram, .cyc, .rings, .pnl, .rcd] (some [0xC1, 0xD1]) s (execPnlRefresh ring e s) := by
  unfold execPnlRefresh
  repeat' first
    | with_reducible assumption
    | with_reducible apply Upd.refl
    | with_reducible apply OutUpd.next
    | (with_reducible apply Upd.comp (State_runPnl_mut (P := [.dram, .cyc, .rings, .pnl, .rcd]) (W := [0xC1, 0xD1]) ..) <;> first | decide | skip)
    | (with_reducible apply Upd.comp (opPnlRefresh_mut ..) <;> first | decide | skip)
    | (intro c u hc)

theorem execPnlRailDown_mut (rail : Fin 5) (s : State) : OutUpd [.dram, .ka, .cyc, .rings, .pnl, .rcd] (some [0xC1, 0xD1, 0xD4]) s (execPnlRailDown rail s) := by
  unfold execPnlRailDown
  repeat' first
    | (extract_lets +onlyGivenNames x; refine Upd.cut (P := [.dram, .ka, .cyc, .rings, .pnl, .rcd]) (W := (some [0xC1, 0xD1, 0xD4])) (s := s) (x := x) ?_ (fun hx => ?_); rotate_left; clear_value x; rotate_left; subst x)
    | with_reducible assumption
    | with_reducible apply Upd.refl
    | with_reducible apply OutUpd.next
    | (with_reducible apply Upd.comp (State_pnlSweep_mut ..) <;> first | decide | skip)
    | (with_reducible apply Upd.comp (State_setPnl_mut ..) <;> first | decide | skip)
    | (with_reducible apply Upd.comp (State_pnlDrop_mut ..) <;> first | decide | skip)
    | (with_reducible apply Upd.comp (State_setOrderly_mut ..) <;> first | decide | skip)
    | (with_reducible apply Upd.comp (State_raise_mut ..) <;> first | decide | skip)
    | (with_reducible apply Upd.comp (State_pnlFinish_mut ..) <;> first | decide | skip)
    | split

theorem opPnlPowerOn_mut (c : Cmd) (s : State) (hc : c.blk = 0x11) : Upd [.dram, .cyc, .rings, .pnl, .rcd] (some [0xC1, 0xD1]) s (opPnlPowerOn c s) := by
  unfold opPnlPowerOn
  repeat' first
    | with_reducible assumption
    | with_reducible apply Upd.refl
    | (with_reducible apply Upd.comp (State_setPnl_mut ..) <;> first | decide | skip)
    | (with_reducible apply State_set_step (w := 0xD1); rotate_left; decide; simp only [windowOf, PNL_STAT, PNL_STAT.STATE] <;> omega)
    | (with_reducible apply TrdUpd.comp (State_pnlLatch_mut ..) <;> first | decide | skip)
    | (with_reducible apply Upd.comp (Cmd_finish_mut (b := 0x11) ..) <;> first | decide | skip)
    | (with_reducible refine TrdUpd.of_eq ?_ (by assumption))
    | split

theorem execPnlPowerOn_mut (ring : Fin 1) (e : Sys2Proof.Entry) (s : State) : OutUpd [.dram, .cyc, .rings, .pnl, .rcd] (some [0xC1, 0xD1]) s (execPnlPowerOn ring e s) := by
  unfold execPnlPowerOn
  repeat' first
    | with_reducible assumption
    | with_reducible apply Upd.refl
    | with_reducible apply OutUpd.next
    | (with_reducible apply Upd.comp (opPnlPowerOn_mut ..) <;> first | decide | skip)
    | (with_reducible apply Upd.comp (State_runPnl_mut (P := [.dram, .cyc, .rings, .pnl, .rcd]) (W := [0xC1, 0xD1]) ..) <;> first | decide | skip)
    | (intro c u hc)

theorem execPtempMeasure_mut (t : Option (BitVec 12)) (s : State) : OutUpd [.cyc, .rcd] (some [0xC1, 0xD1]) s (execPtempMeasure t s) := by
  unfold execPtempMeasure
  repeat' first
    | with_reducible apply Upd.refl
    | with_reducible apply OutUpd.next
    | (with_reducible apply State_setB_step (w := 0xD1); rotate_left; decide; simp only [windowOf, PNL_STAT, PNL_STAT.TEMP_FAULT, PNL_TEMP, PNL_TEMP.T] <;> omega)
    | (with_reducible apply State_set_step (w := 0xD1); rotate_left; decide; simp only [windowOf, PNL_STAT, PNL_STAT.TEMP_FAULT, PNL_TEMP, PNL_TEMP.T] <;> omega)
    | (with_reducible apply Upd.comp (State_raise_mut ..) <;> first | decide | skip)
    | split

theorem opPnlDischarge_mut (c : Cmd) (s : State) (hc : c.blk = 0x11) : Upd [.dram, .cyc, .rings, .pnl, .rcd] (some [0xC1, 0xD1]) s (opPnlDischarge c s) := by
  unfold opPnlDischarge
  repeat' first
    | with_reducible assumption
    | with_reducible apply Upd.refl
    | (with_reducible apply Upd.comp (State_dischargeStart_mut ..) <;> first | decide | skip)
    | (with_reducible apply TrdUpd.comp (State_pnlLatch_mut ..) <;> first | decide | skip)
    | (with_reducible apply Upd.comp (Cmd_finish_mut (b := 0x11) ..) <;> first | decide | skip)
    | (with_reducible refine TrdUpd.of_eq ?_ (by assumption))
    | split

theorem execPnlDischarge_mut (ring : Fin 1) (e : Sys2Proof.Entry) (s : State) : OutUpd [.dram, .cyc, .rings, .pnl, .rcd] (some [0xC1, 0xD1]) s (execPnlDischarge ring e s) := by
  unfold execPnlDischarge
  repeat' first
    | with_reducible assumption
    | with_reducible apply Upd.refl
    | with_reducible apply OutUpd.next
    | (with_reducible apply Upd.comp (opPnlDischarge_mut ..) <;> first | decide | skip)
    | (with_reducible apply Upd.comp (State_runPnl_mut (P := [.dram, .cyc, .rings, .pnl, .rcd]) (W := [0xC1, 0xD1]) ..) <;> first | decide | skip)
    | (intro c u hc)

theorem execPanelRemoved_mut (s : State) : OutUpd [.dram, .cyc, .rings, .pnl, .rcd] (some [0xC1, 0xD1]) s (execPanelRemoved s) := by
  unfold execPanelRemoved
  repeat' first
    | with_reducible apply Upd.refl
    | with_reducible apply OutUpd.next
    | (with_reducible apply Upd.comp (State_pnlRemoved_mut ..) <;> first | decide | skip)
    | split

theorem State_pnlAbandon_mut (s : State) : Upd [.rings, .pnl] (some []) s (State.pnlAbandon s) := by
  unfold State.pnlAbandon
  repeat' first
    | (extract_lets +onlyGivenNames x; subst x)
    | with_reducible apply Upd.refl
    | (with_reducible apply Upd.comp (State_setPnl_mut ..) <;> first | decide | skip)
    | (with_reducible apply Upd.comp (State_setRing_mut ..) <;> first | decide | skip)
    | split

theorem opPnlPowerOff_mut (c : Cmd) (s : State) (hc : c.blk = 0x11) : Upd [.dram, .cyc, .rings, .pnl, .rcd] (some [0xC1, 0xD1]) s (opPnlPowerOff c s) := by
  unfold opPnlPowerOff
  repeat' first
    | (extract_lets +onlyGivenNames x; subst x)
    | with_reducible assumption
    | with_reducible apply Upd.refl
    | (with_reducible apply Upd.comp (State_refreshStart_mut ..) <;> first | decide | skip)
    | (with_reducible apply Upd.comp (State_settleStart_mut ..) <;> first | decide | skip)
    | (with_reducible apply TrdUpd.comp (State_pnlLatch_mut ..) <;> first | decide | skip)
    | (with_reducible apply Upd.comp (Cmd_finish_mut (b := 0x11) ..) <;> first | decide | skip)
    | (with_reducible refine TrdUpd.of_eq ?_ (by assumption))
    | split

theorem execPnlPowerOff_mut (ring : Fin 1) (e : Sys2Proof.Entry) (s : State) : OutUpd [.dram, .cyc, .rings, .pnl, .rcd] (some [0xC1, 0xD1]) s (execPnlPowerOff ring e s) := by
  unfold execPnlPowerOff
  repeat' first
    | with_reducible assumption
    | with_reducible apply Upd.refl
    | with_reducible apply OutUpd.next
    | (with_reducible apply Upd.comp (opPnlPowerOff_mut ..) <;> first | decide | skip)
    | (with_reducible apply Upd.comp (State_runPnl_mut (P := [.dram, .cyc, .rings, .pnl, .rcd]) (W := [0xC1, 0xD1]) ..) <;> first | decide | skip)
    | (intro c u hc)

theorem State_pnlPark_mut (s : State) : Upd [.dram, .cyc, .rings, .pnl, .rcd] (some [0xC1, 0xD1]) s (State.pnlPark s) := by
  unfold State.pnlPark
  repeat' first
    | with_reducible apply Upd.refl
    | (with_reducible apply Upd.comp (State_setPnl_mut ..) <;> first | decide | skip)
    | (with_reducible apply Upd.comp (State_pnlDrop_mut ..) <;> first | decide | skip)
    | (with_reducible apply Upd.comp (State_settleStart_mut ..) <;> first | decide | skip)
    | (with_reducible apply Upd.comp (State_pnlAbandon_mut ..) <;> first | decide | skip)
    | split

end Sys2Proof.Machine
end

