-- ==== Sys2Proof/Laws/MutUpd.lean ====
section
/-! SUPPORT. What each operation of Machine/Upd.lean may change (`Upd`): its parts of the state and its register windows. -/

namespace Sys2Proof.Machine

set_option Elab.async false
set_option linter.unusedSimpArgs false
set_option linter.unusedTactic false
set_option linter.unreachableTactic false
set_option linter.unnecessarySeqFocus false
set_option maxRecDepth 20000

theorem State_usbShow_mut (s : State) : Upd [] (some [0xD3]) s (State.usbShow s) := by
  unfold State.usbShow
  repeat' first
    | with_reducible apply Upd.refl
    | (with_reducible apply State_setB_step (w := 0xD3); rotate_left; decide; simp only [windowOf, UPD_USB, UPD_USB.CONN] <;> omega)

theorem execUsbVbusChange_mut (present : Bool) (s : State) : OutUpd [.upd] (some [0xD3]) s (execUsbVbusChange present s) := by
  unfold execUsbVbusChange
  repeat' first
    | (extract_lets +onlyGivenNames x; subst x)
    | with_reducible apply Upd.refl
    | with_reducible apply OutUpd.next
    | (with_reducible apply Upd.comp (State_usbShow_mut ..) <;> first | decide | skip)
    | (with_reducible show Upd _ _ _ _; with_reducible rw [State.mk_box]; with_reducible apply Upd.box <;> first | (left; with_reducible rfl) | (right; decide) | skip)

theorem State_updStart_mut (s : State) : Upd [.cyc, .rcd] (some [0xC1]) s (State.updStart s) := by
  unfold State.updStart
  repeat' first
    | (extract_lets +onlyGivenNames x; refine Upd.cut (P := [.cyc, .rcd]) (W := (some [0xC1])) (s := s) (x := x) ?_ (fun hx => ?_); rotate_left; clear_value x; rotate_left; subst x)
    | with_reducible assumption
    | with_reducible apply Upd.refl
    | (with_reducible apply Upd.comp (State_raise_mut ..) <;> first | decide | skip)
    | split

theorem State_newNonce_mut (s : State) : Upd [.free] (some [0xD3]) s (State.newNonce s) := by
  unfold State.newNonce
  repeat' first
    | with_reducible assumption
    | with_reducible apply Upd.refl
    | (with_reducible apply State_setReg_step (w := 0xD3); rotate_left; decide; simp only [windowOf, UPD_NONCE] <;> omega)
    | (with_reducible apply Upd.comp (State_drawn_mut ..) <;> first | decide | skip)
    | (with_reducible apply Upd.foldl <;> first | (intro y a ha hy; skip) | skip)

theorem opLcChange_mut (c : Cmd) (s : State) (hc : c.blk = 0x13) : Upd [.dram, .free, .sys, .cyc, .rings, .nv, .rcd] (some [0xC1, 0xD3]) s (opLcChange c s) := by
  unfold opLcChange
  repeat' first
    | (extract_lets +onlyGivenNames x; subst x)
    | with_reducible assumption
    | with_reducible apply Upd.refl
    | (with_reducible apply Upd.comp (Cmd_finish_mut (b := 0x13) ..) <;> first | decide | skip)
    | (with_reducible apply Upd.comp (State_newNonce_mut ..) <;> first | decide | skip)
    | (with_reducible show Upd _ _ _ _; with_reducible rw [State.mk_box]; with_reducible apply Upd.box <;> first | (left; with_reducible rfl) | (right; decide) | skip)
    | split

theorem execLcChange_mut (ring : Fin 1) (e : Sys2Proof.Entry) (s : State) : OutUpd [.dram, .free, .sys, .cyc, .rings, .nv, .rcd] (some [0xC1, 0xD3]) s (execLcChange ring e s) := by
  unfold execLcChange
  repeat' first
    | with_reducible assumption
    | with_reducible apply Upd.refl
    | with_reducible apply OutUpd.next
    | (with_reducible apply Upd.comp (State_runRow_mut (P := [.dram, .free, .sys, .cyc, .rings, .nv, .rcd]) (W := [0xC1, 0xD3]) ..) <;> first | decide | skip)
    | (with_reducible apply Upd.comp (opLcChange_mut ..) <;> first | decide | skip)
    | (intro c u hc)

theorem State_pendVarnish_mut (s : State) : Upd [] (some [0xD3]) s (State.pendVarnish s) := by
  unfold State.pendVarnish
  repeat' first
    | (extract_lets +onlyGivenNames x; subst x)
    | with_reducible assumption
    | with_reducible apply Upd.refl
    | (with_reducible apply State_setB_step (w := 0xD3); rotate_left; decide; simp only [windowOf, UPD_PEND] <;> omega)
    | (with_reducible apply Upd.foldl <;> first | (intro y a ha hy; skip) | skip)
    | split

theorem execUsbData_mut (data : List Sys2Proof.Byte) (s : State) : OutUpd [.dram, .cyc, .rcd] (some [0xC1, 0xD3]) s (execUsbData data s) := by
  unfold execUsbData
  repeat' first
    | (extract_lets +onlyGivenNames x; refine Upd.cut (P := [.dram, .cyc, .rcd]) (W := (some [0xC1, 0xD3])) (s := s) (x := x) ?_ (fun hx => ?_); rotate_left; clear_value x; rotate_left; subst x)
    | (extract_lets +onlyGivenNames x; subst x)
    | with_reducible assumption
    | with_reducible apply Upd.refl
    | with_reducible apply OutUpd.next
    | (with_reducible apply State_setB_step (w := 0xD3); rotate_left; decide; simp only [windowOf, UPD_USB, UPD_USB.DONE, UPD_USB_RCV, UPD_USB_RCV.RCV] <;> omega)
    | (with_reducible apply State_set_step (w := 0xD3); rotate_left; decide; simp only [windowOf, UPD_USB, UPD_USB.DONE, UPD_USB_RCV, UPD_USB_RCV.RCV] <;> omega)
    | (with_reducible apply Upd.comp (State_blockPuts_mut ..) <;> first | decide | skip)
    | (with_reducible apply Upd.comp (State_raise_mut ..) <;> first | decide | skip)
    | split

theorem State_stagingOff_mut (s : State) : Upd [.dram, .cyc, .rings, .arb, .rcd, .upd] (some [0xC1, 0xCB, 0xD3]) s (State.stagingOff s) := by
  unfold State.stagingOff
  repeat' first
    | (extract_lets +onlyGivenNames x; refine Upd.cut (P := [.dram, .cyc, .rings, .arb, .rcd, .upd]) (W := (some [0xC1, 0xCB, 0xD3])) (s := s) (x := x) ?_ (fun hx => ?_); rotate_left; clear_value x; rotate_left; subst x)
    | (extract_lets +onlyGivenNames x; subst x)
    | with_reducible assumption
    | with_reducible apply Upd.refl
    | (with_reducible apply State_setB_step (w := 0xD3); rotate_left; decide; simp only [windowOf, UPD_STAT, UPD_STAT.STAGING] <;> omega)
    | (with_reducible apply Upd.comp (State_arbRelease_mut ..) <;> first | decide | skip)
    | (with_reducible apply Upd.comp (State_completeSelf_mut ..) <;> first | decide | skip)
    | (with_reducible show Upd _ _ _ _; with_reducible rw [State.mk_box]; with_reducible apply Upd.box <;> first | (left; with_reducible rfl) | (right; decide) | skip)
    | split

theorem State_updAbandon_mut (s : State) : Upd [.dram, .cyc, .rings, .arb, .rcd, .upd] (some [0xC1, 0xCB, 0xD3]) s (State.updAbandon s) := by
  unfold State.updAbandon
  repeat' first
    | with_reducible apply Upd.refl
    | (with_reducible apply Upd.comp (State_stagingOff_mut ..) <;> first | decide | skip)
    | split

theorem State_updDisable_mut (s : State) : Upd [.dram, .cyc, .rings, .arb, .rcd, .upd] (some [0xC1, 0xCB, 0xD3]) s (State.updDisable s) := by
  unfold State.updDisable
  repeat' first
    | with_reducible apply Upd.refl
    | (with_reducible apply State_setB_step (w := 0xD3); rotate_left; decide; simp only [windowOf, UPD_CTRL, UPD_CTRL.ENABLE] <;> omega)
    | (with_reducible apply Upd.comp (State_updAbandon_mut ..) <;> first | decide | skip)

theorem State_placeComponent_mut (a : Nat) (e : UpdEntry) (b : List Sys2Proof.Byte) (s : State) : Upd [.ufs, .nv] (some [0xD3]) s (State.placeComponent a e b s) := by
  unfold State.placeComponent
  repeat' first
    | (extract_lets +onlyGivenNames x; refine Upd.cut (P := [.ufs, .nv]) (W := (some [0xD3])) (s := s) (x := x) ?_ (fun hx => ?_); rotate_left; clear_value x; rotate_left; subst x)
    | (extract_lets +onlyGivenNames x; subst x)
    | with_reducible assumption
    | with_reducible apply Upd.refl
    | (with_reducible apply State_set_step (w := 0xD3); rotate_left; decide; simp only [windowOf, UPD_PROG, UPD_PROG.KIB] <;> omega)
    | (with_reducible show Upd _ _ _ _; with_reducible rw [State.mk_box]; with_reducible apply Upd.box <;> first | (left; with_reducible rfl) | (right; decide) | exact .inr ⟨by decide, fun hm => memWf_memPuts hm _ _⟩ | skip)
    | split
    | (dsimp only)

theorem State_stageCarry_mut (a : Nat) (hdr : List Sys2Proof.Byte) (stop : Option Nat) (a3 : List (Nat × Nat)) (a4 : List UpdEntry) (a5 : State) : TrdUpd [.ufs, .nv] (some [0xD3]) a5 (State.stageCarry a hdr stop a3 a4 a5) := by
  induction a3 generalizing a4 a5 with
  | nil =>
    unfold State.stageCarry
    repeat' first
      | (extract_lets +onlyGivenNames x; refine Upd.cut (P := [.ufs, .nv]) (W := (some [0xD3])) (s := a5) (x := x) ?_ (fun hx => ?_); rotate_left; clear_value x; rotate_left; subst x)
      | (extract_lets +onlyGivenNames x; subst x)
      | with_reducible assumption
      | with_reducible apply Upd.refl
      | (with_reducible show TrdUpd _ _ _ _; with_reducible rw [State.trd_pair]; with_reducible apply TrdUpd.mk)
      | (with_reducible apply TrdUpd.comp (ih ..) <;> first | decide | skip)
      | (with_reducible apply State_set_step (w := 0xD3); rotate_left; decide; simp only [windowOf, UPD_PROG, UPD_PROG.ENTRY] <;> omega)
      | (with_reducible apply Upd.comp (State_placeComponent_mut ..) <;> first | decide | skip)
      | split
  | cons a l ih =>
    unfold State.stageCarry
    repeat' first
      | (extract_lets +onlyGivenNames x; refine Upd.cut (P := [.ufs, .nv]) (W := (some [0xD3])) (s := a5) (x := x) ?_ (fun hx => ?_); rotate_left; clear_value x; rotate_left; subst x)
      | (extract_lets +onlyGivenNames x; subst x)
      | with_reducible assumption
      | with_reducible apply Upd.refl
      | (with_reducible show TrdUpd _ _ _ _; with_reducible rw [State.trd_pair]; with_reducible apply TrdUpd.mk)
      | (with_reducible apply TrdUpd.comp (ih ..) <;> first | decide | skip)
      | (with_reducible apply State_set_step (w := 0xD3); rotate_left; decide; simp only [windowOf, UPD_PROG, UPD_PROG.ENTRY] <;> omega)
      | (with_reducible apply Upd.comp (State_placeComponent_mut ..) <;> first | decide | skip)
      | split

theorem opConfirm_mut (c : Cmd) (s : State) (hc : c.blk = 0x13) : Upd [.dram, .cyc, .rings, .nv, .rcd] (some [0xC1, 0xD3]) s (opConfirm c s) := by
  unfold opConfirm
  repeat' first
    | (extract_lets +onlyGivenNames x; subst x)
    | with_reducible assumption
    | with_reducible apply Upd.refl
    | (with_reducible apply Upd.comp (Cmd_finish_mut (b := 0x13) ..) <;> first | decide | skip)
    | (with_reducible show Upd _ _ _ _; with_reducible rw [State.mk_box]; with_reducible apply Upd.box <;> first | (left; with_reducible rfl) | (right; decide) | skip)
    | split

theorem execUpdConfirm_mut (ring : Fin 1) (e : Sys2Proof.Entry) (s : State) : OutUpd [.dram, .cyc, .rings, .nv, .rcd] (some [0xC1, 0xD3]) s (execUpdConfirm ring e s) := by
  unfold execUpdConfirm
  repeat' first
    | with_reducible assumption
    | with_reducible apply Upd.refl
    | with_reducible apply OutUpd.next
    | (with_reducible apply Upd.comp (opConfirm_mut ..) <;> first | decide | skip)
    | (with_reducible apply Upd.comp (State_runRow_mut (P := [.dram, .cyc, .rings, .nv, .rcd]) (W := [0xC1, 0xD3]) ..) <;> first | decide | skip)
    | (intro c u hc)

theorem opKeyProg_mut (c : Cmd) (s : State) (hc : c.blk = 0x13) : Upd [.dram, .cyc, .rings, .nv, .rcd] (some [0xC1, 0xD3]) s (opKeyProg c s) := by
  unfold opKeyProg
  repeat' first
    | (extract_lets +onlyGivenNames x; subst x)
    | with_reducible assumption
    | with_reducible apply Upd.refl
    | (with_reducible apply Upd.comp (Cmd_finish_mut (b := 0x13) ..) <;> first | decide | skip)
    | (with_reducible show Upd _ _ _ _; with_reducible rw [State.mk_box]; with_reducible apply Upd.box <;> first | (left; with_reducible rfl) | (right; decide) | skip)
    | split

theorem execKeyProg_mut (ring : Fin 1) (e : Sys2Proof.Entry) (s : State) : OutUpd [.dram, .cyc, .rings, .nv, .rcd] (some [0xC1, 0xD3]) s (execKeyProg ring e s) := by
  unfold execKeyProg
  repeat' first
    | with_reducible assumption
    | with_reducible apply Upd.refl
    | with_reducible apply OutUpd.next
    | (with_reducible apply Upd.comp (State_runRow_mut (P := [.dram, .cyc, .rings, .nv, .rcd]) (W := [0xC1, 0xD3]) ..) <;> first | decide | skip)
    | (with_reducible apply Upd.comp (opKeyProg_mut ..) <;> first | decide | skip)
    | (intro c u hc)

theorem opStage_mut (c : Cmd) (s : State) (hc : c.blk = 0x13) : Upd [.dram, .cyc, .rings, .nv, .arb, .rcd, .upd] (some [0xC1, 0xCB, 0xD3]) s (opStage c s) := by
  unfold opStage
  repeat' first
    | (extract_lets +onlyGivenNames x; refine Upd.cut (P := [.dram, .cyc, .rings, .nv, .arb, .rcd, .upd]) (W := (some [0xC1, 0xCB, 0xD3])) (s := s) (x := x) ?_ (fun hx => ?_); rotate_left; clear_value x; rotate_left; subst x)
    | (extract_lets +onlyGivenNames x; subst x)
    | with_reducible assumption
    | with_reducible apply Upd.refl
    | (with_reducible apply State_setB_step (w := 0xD3); rotate_left; decide; simp only [windowOf, UPD_PROG, UPD_PROG.ENTRY, UPD_PROG.KIB, UPD_STAT, UPD_STAT.STAGING] <;> omega)
    | (with_reducible apply Upd.comp (State_arbRequest_mut ..) <;> first | decide | skip)
    | (with_reducible apply State_set_step (w := 0xD3); rotate_left; decide; simp only [windowOf, UPD_PROG, UPD_PROG.ENTRY, UPD_PROG.KIB, UPD_STAT, UPD_STAT.STAGING] <;> omega)
    | (with_reducible apply Upd.comp (Cmd_finish_mut (b := 0x13) ..) <;> first | decide | skip)
    | (with_reducible show Upd _ _ _ _; with_reducible rw [State.mk_box]; with_reducible apply Upd.box <;> first | (left; with_reducible rfl) | (right; decide) | skip)
    | split

theorem State_stageNamed_mut (a : Nat) (rd : PkgRead) (stop : Option Nat) (a3 : List UpdEntry) (a4 : List UpdEntry) (a5 : State) : TrdUpd [.ufs, .nv] (some [0xD3]) a5 (State.stageNamed a rd stop a3 a4 a5) := by
  induction a3 generalizing a4 a5 with
  | nil =>
    unfold State.stageNamed
    repeat' first
      | (extract_lets +onlyGivenNames x; refine Upd.cut (P := [.ufs, .nv]) (W := (some [0xD3])) (s := a5) (x := x) ?_ (fun hx => ?_); rotate_left; clear_value x; rotate_left; subst x)
      | (extract_lets +onlyGivenNames x; subst x)
      | with_reducible assumption
      | with_reducible apply Upd.refl
      | (with_reducible show TrdUpd _ _ _ _; with_reducible rw [State.trd_pair]; with_reducible apply TrdUpd.mk)
      | (with_reducible apply TrdUpd.comp (ih ..) <;> first | decide | skip)
      | (with_reducible apply State_set_step (w := 0xD3); rotate_left; decide; simp only [windowOf, UPD_PROG, UPD_PROG.ENTRY] <;> omega)
      | (with_reducible apply Upd.comp (State_placeComponent_mut ..) <;> first | decide | skip)
      | split
  | cons a l ih =>
    unfold State.stageNamed
    repeat' first
      | (extract_lets +onlyGivenNames x; refine Upd.cut (P := [.ufs, .nv]) (W := (some [0xD3])) (s := a5) (x := x) ?_ (fun hx => ?_); rotate_left; clear_value x; rotate_left; subst x)
      | (extract_lets +onlyGivenNames x; subst x)
      | with_reducible assumption
      | with_reducible apply Upd.refl
      | (with_reducible show TrdUpd _ _ _ _; with_reducible rw [State.trd_pair]; with_reducible apply TrdUpd.mk)
      | (with_reducible apply TrdUpd.comp (ih ..) <;> first | decide | skip)
      | (with_reducible apply State_set_step (w := 0xD3); rotate_left; decide; simp only [windowOf, UPD_PROG, UPD_PROG.ENTRY] <;> omega)
      | (with_reducible apply Upd.comp (State_placeComponent_mut ..) <;> first | decide | skip)
      | split

theorem State_stageRun_mut (a : Nat) (man : List Sys2Proof.Byte) (rd : PkgRead) (stop : Option Nat) (s : State) : SndUpd [.ufs, .nv] (some [0xD3]) s (State.stageRun a man rd stop s) := by
  unfold State.stageRun
  repeat' first
    | (extract_lets +onlyGivenNames x; subst x)
    | with_reducible apply Upd.refl
    | (with_reducible show SndUpd _ _ _ _; with_reducible rw [State.snd_pair]; with_reducible apply SndUpd.mk)
    | (with_reducible show TrdUpd _ _ _ _; with_reducible rw [State.trd_pair]; with_reducible apply TrdUpd.mk)
    | (with_reducible apply TrdUpd.comp (State_stageNamed_mut ..) <;> first | decide | skip)
    | (with_reducible apply TrdUpd.comp (State_stageCarry_mut ..) <;> first | decide | skip)
    | (with_reducible refine TrdUpd.of_eq ?_ (by assumption))
    | (with_reducible show Upd _ _ _ _; with_reducible rw [State.mk_box]; with_reducible apply Upd.box <;> first | (left; with_reducible rfl) | (right; decide) | exact .inr ⟨by decide, fun hm => memWf_memPuts hm _ _⟩ | skip)
    | split

theorem execStagingEnd_mut (stop : Option (Fin 64)) (s : State) : OutUpd [.dram, .ufs, .cyc, .rings, .nv, .arb, .rcd, .upd] (some [0xC1, 0xCB, 0xD3]) s (execStagingEnd stop s) := by
  unfold execStagingEnd
  repeat' first
    | (extract_lets +onlyGivenNames x; refine Upd.cut (P := [.dram, .ufs, .cyc, .rings, .nv, .arb, .rcd, .upd]) (W := (some [0xC1, 0xCB, 0xD3])) (s := s) (x := x) ?_ (fun hx => ?_); rotate_left; clear_value x; rotate_left; subst x)
    | (extract_lets +onlyGivenNames x; subst x)
    | with_reducible assumption
    | with_reducible apply Upd.refl
    | with_reducible apply OutUpd.next
    | (with_reducible apply Upd.comp (State_stagingOff_mut ..) <;> first | decide | skip)
    | (with_reducible apply State_set_step (w := 0xD3); rotate_left; decide; simp only [windowOf, UPD_STAT, UPD_STAT.REASON] <;> omega)
    | (with_reducible apply Upd.comp (State_raise_mut ..) <;> first | decide | skip)
    | (with_reducible apply SndUpd.comp (State_stageRun_mut ..) <;> first | decide | skip)
    | (with_reducible refine SndUpd.of_eq ?_ (by assumption))
    | (with_reducible show Upd _ _ _ _; with_reducible rw [State.mk_box]; with_reducible apply Upd.box <;> first | (left; with_reducible rfl) | (right; decide) | skip)
    | split

theorem opUpdAbort_mut (c : Cmd) (s : State) (hc : c.blk = 0x13) : Upd [.dram, .cyc, .rings, .rcd, .upd] (some [0xC1, 0xD3]) s (opUpdAbort c s) := by
  unfold opUpdAbort
  repeat' first
    | (extract_lets +onlyGivenNames x; subst x)
    | with_reducible assumption
    | with_reducible apply Upd.refl
    | (with_reducible apply Upd.comp (Cmd_finish_mut (b := 0x13) ..) <;> first | decide | skip)
    | (with_reducible show Upd _ _ _ _; with_reducible rw [State.mk_box]; with_reducible apply Upd.box <;> first | (left; with_reducible rfl) | (right; decide) | skip)
    | split

theorem execUpdAbort_mut (ring : Fin 1) (e : Sys2Proof.Entry) (s : State) : OutUpd [.dram, .cyc, .rings, .rcd, .upd] (some [0xC1, 0xD3]) s (execUpdAbort ring e s) := by
  unfold execUpdAbort
  repeat' first
    | with_reducible assumption
    | with_reducible apply Upd.refl
    | with_reducible apply OutUpd.next
    | (with_reducible apply Upd.comp (opUpdAbort_mut ..) <;> first | decide | skip)
    | (with_reducible apply Upd.comp (State_runRow_mut (P := [.dram, .cyc, .rings, .rcd, .upd]) (W := [0xC1, 0xD3]) ..) <;> first | decide | skip)
    | (intro c u hc)

theorem execUpdDisable_mut (s : State) : OutUpd [.dram, .cyc, .rings, .arb, .rcd, .upd] (some [0xC1, 0xCB, 0xD3]) s (execUpdDisable s) := by
  unfold execUpdDisable
  repeat' first
    | with_reducible apply Upd.refl
    | with_reducible apply OutUpd.next
    | (with_reducible apply Upd.comp (State_updDisable_mut ..) <;> first | decide | skip)
    | split

theorem opVarnish_mut (c : Cmd) (s : State) (hc : c.blk = 0x13) : Upd [.dram, .cyc, .rings, .nv, .rcd] (some [0xC1, 0xD3]) s (opVarnish c s) := by
  unfold opVarnish
  repeat' first
    | (extract_lets +onlyGivenNames x; refine Upd.cut (P := [.dram, .cyc, .rings, .nv, .rcd]) (W := (some [0xC1, 0xD3])) (s := s) (x := x) ?_ (fun hx => ?_); rotate_left; clear_value x; rotate_left; subst x)
    | (extract_lets +onlyGivenNames x; subst x)
    | with_reducible assumption
    | with_reducible apply Upd.refl
    | (with_reducible apply Upd.comp (State_raise_mut ..) <;> first | decide | skip)
    | (with_reducible apply Upd.comp (State_pendVarnish_mut ..) <;> first | decide | skip)
    | (with_reducible apply Upd.comp (Cmd_finish_mut (b := 0x13) ..) <;> first | decide | skip)
    | (with_reducible show Upd _ _ _ _; with_reducible rw [State.mk_box]; with_reducible apply Upd.box <;> first | (left; with_reducible rfl) | (right; decide) | skip)
    | split

theorem execUpdVarnish_mut (ring : Fin 1) (e : Sys2Proof.Entry) (s : State) : OutUpd [.dram, .cyc, .rings, .nv, .rcd] (some [0xC1, 0xD3]) s (execUpdVarnish ring e s) := by
  unfold execUpdVarnish
  repeat' first
    | with_reducible assumption
    | with_reducible apply Upd.refl
    | with_reducible apply OutUpd.next
    | (with_reducible apply Upd.comp (State_runRow_mut (P := [.dram, .cyc, .rings, .nv, .rcd]) (W := [0xC1, 0xD3]) ..) <;> first | decide | skip)
    | (with_reducible apply Upd.comp (opVarnish_mut ..) <;> first | decide | skip)
    | (intro c u hc)

theorem State_writeUsb_mut (value : Sys2Proof.Word) (s : State) : Upd [] (some [0xD3]) s (State.writeUsb value s) := by
  unfold State.writeUsb
  repeat' first
    | (extract_lets +onlyGivenNames x; refine Upd.cut (P := []) (W := (some [0xD3])) (s := s) (x := x) ?_ (fun hx => ?_); rotate_left; clear_value x; rotate_left; subst x)
    | (extract_lets +onlyGivenNames x; subst x)
    | with_reducible assumption
    | with_reducible apply Upd.refl
    | (with_reducible apply State_setB_step (w := 0xD3); rotate_left; decide; simp only [windowOf, UPD_USB, UPD_USB.DONE, UPD_USB.EN, UPD_USB_RCV, UPD_USB_RCV.RCV] <;> omega)
    | (with_reducible apply State_set_step (w := 0xD3); rotate_left; decide; simp only [windowOf, UPD_USB, UPD_USB.DONE, UPD_USB.EN, UPD_USB_RCV, UPD_USB_RCV.RCV] <;> omega)
    | (with_reducible apply Upd.comp (State_usbShow_mut ..) <;> first | decide | skip)
    | split

theorem execUpdStage_mut (ring : Fin 1) (e : Sys2Proof.Entry) (s : State) : OutUpd [.dram, .cyc, .rings, .nv, .arb, .rcd, .upd] (some [0xC1, 0xCB, 0xD3]) s (execUpdStage ring e s) := by
  unfold execUpdStage
  repeat' first
    | with_reducible assumption
    | with_reducible apply Upd.refl
    | with_reducible apply OutUpd.next
    | (with_reducible apply Upd.comp (State_runRow_mut (P := [.dram, .cyc, .rings, .nv, .arb, .rcd, .upd]) (W := [0xC1, 0xCB, 0xD3]) ..) <;> first | decide | skip)
    | (with_reducible apply Upd.comp (opStage_mut ..) <;> first | decide | skip)
    | (intro c u hc)

end Sys2Proof.Machine
end

