-- ==== Sys2Proof/Laws/MutVdrBase.lean ====
section
/-! SUPPORT. What each operation of Machine/VdrBase.lean may change (`Upd`): its parts of the state and its register windows. -/

namespace Sys2Proof.Machine

set_option Elab.async false
set_option linter.unusedSimpArgs false
set_option linter.unusedTactic false
set_option linter.unreachableTactic false
set_option linter.unnecessarySeqFocus false
set_option maxRecDepth 20000

theorem State_showOut_mut (k : Nat) (s : State) : Upd [] (some [0xC6]) s (State.showOut k s) := by
  unfold State.showOut
  repeat' first
    | (extract_lets +onlyGivenNames x; subst x)
    | with_reducible apply Upd.refl
    | (with_reducible apply State_setB_step (w := 0xC6); rotate_left; decide; simp only [windowOf, VDR_OUT_SENSE, VDR_OUT_SENSE.ACTIVE, VDR_OUT_SENSE.CALL, VDR_OUT_SENSE.DECAY] <;> omega)

theorem State_setBank_mut (b : Nat) (k : Bank) (s : State) : Upd [.vdr] (some []) s (State.setBank b k s) := by
  unfold State.setBank
  repeat' first
    | (extract_lets +onlyGivenNames x; subst x)
    | with_reducible apply Upd.refl
    | (with_reducible show Upd _ _ _ _; with_reducible rw [State.mk_box]; with_reducible apply Upd.box <;> first | (left; with_reducible rfl) | (right; decide) | skip)

theorem State_setHs_mut (b : Nat) (hs : Nat) (t : Nat) (s : State) : Upd [.vdr] (some [0xC6]) s (State.setHs b hs t s) := by
  unfold State.setHs
  repeat' first
    | (extract_lets +onlyGivenNames x; subst x)
    | with_reducible apply Upd.refl
    | (with_reducible apply Upd.comp (State_setBank_mut ..) <;> first | decide | skip)
    | (with_reducible apply State_set_step (w := 0xC6); rotate_left; decide; simp only [windowOf, VDR_BANK_STAT, VDR_BANK_STAT.HS] <;> omega)
    | split

theorem State_settleBank_mut (b : Nat) (s : State) : Upd [.vdr] (some [0xC6]) s (State.settleBank b s) := by
  unfold State.settleBank
  repeat' first
    | with_reducible apply Upd.refl
    | (with_reducible apply Upd.comp (State_setHs_mut ..) <;> first | decide | skip)
    | split

theorem State_setVlo_mut (k : Nat) (o : Vlo) (s : State) : Upd [.vdr] (some []) s (State.setVlo k o s) := by
  unfold State.setVlo
  repeat' first
    | (extract_lets +onlyGivenNames x; subst x)
    | with_reducible apply Upd.refl
    | (with_reducible show Upd _ _ _ _; with_reducible rw [State.mk_box]; with_reducible apply Upd.box <;> first | (left; with_reducible rfl) | (right; decide) | skip)

theorem State_modVlo_mut (k : Nat) (f : Vlo → Vlo) (s : State) : Upd [.vdr] (some [0xC6]) s (State.modVlo k f s) := by
  unfold State.modVlo
  repeat' first
    | with_reducible apply Upd.refl
    | (with_reducible apply Upd.comp (State_showOut_mut ..) <;> first | decide | skip)
    | (with_reducible apply Upd.comp (State_setVlo_mut ..) <;> first | decide | skip)

theorem State_pwmStops_mut (k : Nat) (s : State) : Upd [.vdr] (some [0xC6]) s (State.pwmStops k s) := by
  unfold State.pwmStops
  repeat' first
    | with_reducible apply Upd.refl
    | (with_reducible apply Upd.comp (State_setHs_mut ..) <;> first | decide | skip)
    | split

theorem State_openLow_mut (k : Nat) (s : State) : Upd [.vdr] (some [0xC6]) s (State.openLow k s) := by
  unfold State.openLow
  repeat' first
    | with_reducible apply Upd.refl
    | (with_reducible apply Upd.comp (State_modVlo_mut ..) <;> first | decide | skip)
    | (with_reducible apply Upd.comp (State_pwmStops_mut ..) <;> first | decide | skip)

theorem State_activateOut_mut (k : Nat) (t : Nat) (s : State) : Upd [.vdr] (some [0xC6]) s (State.activateOut k t s) := by
  unfold State.activateOut
  repeat' first
    | (extract_lets +onlyGivenNames x; refine Upd.cut (P := [.vdr]) (W := (some [0xC6])) (s := s) (x := x) ?_ (fun hx => ?_); rotate_left; clear_value x; rotate_left; subst x)
    | (extract_lets +onlyGivenNames x; subst x)
    | with_reducible assumption
    | with_reducible apply Upd.refl
    | (with_reducible apply Upd.comp (State_modVlo_mut ..) <;> first | decide | skip)
    | (with_reducible apply Upd.comp (State_setBank_mut ..) <;> first | decide | skip)
    | split

theorem State_beginEndDecay_mut (k : Nat) (t : Nat) (s : State) : Upd [.vdr] (some [0xC6]) s (State.beginEndDecay k t s) := by
  unfold State.beginEndDecay
  repeat' first
    | (extract_lets +onlyGivenNames x; subst x)
    | with_reducible apply Upd.refl
    | (with_reducible apply Upd.comp (State_modVlo_mut ..) <;> first | decide | skip)
    | (with_reducible apply Upd.comp (State_pwmStops_mut ..) <;> first | decide | skip)
    | (with_reducible apply State_set_step (w := 0xC6); rotate_left; decide; simp only [windowOf, VDR_OUT_RELT, VDR_OUT_RELT.EXT_US] <;> omega)
    | split

theorem State_outFlag_mut (k : Nat) (bit : Nat) (s : State) : Upd [.cyc, .rcd] (some [0xC1, 0xC6]) s (State.outFlag k bit s) := by
  unfold State.outFlag
  repeat' first
    | (extract_lets +onlyGivenNames x; refine Upd.cut (P := [.cyc, .rcd]) (W := (some [0xC1, 0xC6])) (s := s) (x := x) ?_ (fun hx => ?_); rotate_left; clear_value x; rotate_left; subst x)
    | (extract_lets +onlyGivenNames x; subst x)
    | with_reducible assumption
    | with_reducible apply Upd.refl
    | (with_reducible apply State_setB_step (w := 0xC6); rotate_left; decide; simp only [windowOf, VDR_OUT_FLT] <;> omega)
    | (with_reducible apply Upd.comp (State_raise_mut ..) <;> first | decide | skip)
    | split

end Sys2Proof.Machine
end

