-- ==== Sys2Proof/Laws/MutStroke.lean ====
section
/-! SUPPORT. What each operation of Machine/Stroke.lean may change (`Upd`): its parts of the state and its register windows. -/

namespace Sys2Proof.Machine

set_option Elab.async false
set_option linter.unusedSimpArgs false
set_option linter.unusedTactic false
set_option linter.unreachableTactic false
set_option linter.unnecessarySeqFocus false
set_option maxRecDepth 20000

theorem State_setCtx_mut (k : Nat) (c : Ctx) (s : State) : Upd [.stk] (some []) s (State.setCtx k c s) := by
  unfold State.setCtx
  repeat' first
    | (extract_lets +onlyGivenNames x; subst x)
    | with_reducible apply Upd.refl
    | (with_reducible show Upd _ _ _ _; with_reducible rw [State.mk_box]; with_reducible apply Upd.box <;> first | (left; with_reducible rfl) | (right; decide) | skip)

theorem State_setTgt_mut (k : Nat) (ma : Nat) (s : State) : Upd [] (some [0xC6]) s (State.setTgt k ma s) := by
  unfold State.setTgt
  repeat' first
    | with_reducible apply Upd.refl
    | (with_reducible apply State_set_step (w := 0xC6); rotate_left; decide; simp only [windowOf, VDR_CTX_RUN, VDR_CTX_RUN.TGT_MA] <;> omega)

theorem State_ctxIdle_mut (k : Nat) (t : Nat) (s : State) : Upd [.cyc, .rcd] (some [0xC1, 0xC6]) s (State.ctxIdle k t s) := by
  unfold State.ctxIdle
  repeat' first
    | (extract_lets +onlyGivenNames x; refine Upd.cut (P := [.cyc, .rcd]) (W := (some [0xC1, 0xC6])) (s := s) (x := x) ?_ (fun hx => ?_); rotate_left; clear_value x; rotate_left; subst x)
    | with_reducible assumption
    | with_reducible apply Upd.refl
    | (with_reducible apply Upd.comp (State_raiseAt_mut ..) <;> first | decide | skip)
    | (with_reducible apply State_set_step (w := 0xC6); rotate_left; decide; simp only [windowOf, VDR_CTX_STAT, VDR_CTX_STAT.STATE] <;> omega)
    | split

theorem State_setWait_mut (k : Nat) (w : StkWait) (s : State) : Upd [.stk] (some [0xC6]) s (State.setWait k w s) := by
  unfold State.setWait
  repeat' first
    | (extract_lets +onlyGivenNames x; subst x)
    | with_reducible apply Upd.refl
    | (with_reducible apply State_set_step (w := 0xC6); rotate_left; decide; simp only [windowOf, VDR_CTX_STAT, VDR_CTX_STAT.WAITK] <;> omega)
    | (with_reducible apply Upd.comp (State_setCtx_mut ..) <;> first | decide | skip)

theorem State_strokeEnd_mut (k : Nat) (cause : Nat) (t : Nat) (s : State) : Upd [.cyc, .vdr, .stk, .rcd] (some [0xC1, 0xC6]) s (State.strokeEnd k cause t s) := by
  unfold State.strokeEnd
  repeat' first
    | (extract_lets +onlyGivenNames x; refine Upd.cut (P := [.cyc, .vdr, .stk, .rcd]) (W := (some [0xC1, 0xC6])) (s := s) (x := x) ?_ (fun hx => ?_); rotate_left; clear_value x; rotate_left; subst x)
    | with_reducible assumption
    | with_reducible apply Upd.refl
    | (with_reducible apply Upd.comp (State_raiseAt_mut ..) <;> first | decide | skip)
    | (with_reducible apply Upd.comp (State_ctxIdle_mut ..) <;> first | decide | skip)
    | (with_reducible apply Upd.comp (State_beginEndDecay_mut ..) <;> first | decide | skip)
    | (with_reducible apply State_set_step (w := 0xC6); rotate_left; decide; simp only [windowOf, VDR_CTX_STAT, VDR_CTX_STAT.CAUSE, VDR_CTX_STAT.STATE] <;> omega)
    | (with_reducible apply Upd.comp (State_setWait_mut ..) <;> first | decide | skip)
    | split

theorem State_pcNext_mut (k : Nat) (t : Nat) (s : State) : Upd [.cyc, .vdr, .stk, .rcd] (some [0xC1, 0xC6]) s (State.pcNext k t s) := by
  unfold State.pcNext
  repeat' first
    | (extract_lets +onlyGivenNames x; subst x)
    | with_reducible apply Upd.refl
    | (with_reducible apply State_set_step (w := 0xC6); rotate_left; decide; simp only [windowOf, VDR_CTX_STAT, VDR_CTX_STAT.PC] <;> omega)
    | (with_reducible apply Upd.comp (State_strokeEnd_mut ..) <;> first | decide | skip)
    | split

theorem State_waitOver_mut (k : Nat) (t : Nat) (s : State) : Upd [.cyc, .vdr, .stk, .rcd] (some [0xC1, 0xC6]) s (State.waitOver k t s) := by
  unfold State.waitOver
  repeat' first
    | with_reducible apply Upd.refl
    | (with_reducible apply Upd.comp (State_pcNext_mut ..) <;> first | decide | skip)
    | (with_reducible apply Upd.comp (State_setWait_mut ..) <;> first | decide | skip)

theorem State_waitTimeout_mut (k : Nat) (t : Nat) (cont : Bool) (cause : Nat) (s : State) : Upd [.cyc, .vdr, .stk, .rcd] (some [0xC1, 0xC6]) s (State.waitTimeout k t cont cause s) := by
  unfold State.waitTimeout
  repeat' first
    | with_reducible apply Upd.refl
    | (with_reducible apply State_setB_step (w := 0xC6); rotate_left; decide; simp only [windowOf, VDR_CTX_STAT, VDR_CTX_STAT.TO] <;> omega)
    | (with_reducible apply Upd.comp (State_strokeEnd_mut ..) <;> first | decide | skip)
    | (with_reducible apply Upd.comp (State_waitOver_mut ..) <;> first | decide | skip)
    | split

theorem State_waitStep_mut (k : Nat) (t : Nat) (s : State) : SndUpd [.cyc, .vdr, .stk, .rcd] (some [0xC1, 0xC6]) s (State.waitStep k t s) := by
  unfold State.waitStep
  repeat' first
    | (extract_lets +onlyGivenNames x; subst x)
    | with_reducible apply Upd.refl
    | (with_reducible show SndUpd _ _ _ _; with_reducible rw [State.snd_pair]; with_reducible apply SndUpd.mk)
    | (with_reducible apply Upd.comp (State_setTgt_mut ..) <;> first | decide | skip)
    | (with_reducible apply Upd.comp (State_waitTimeout_mut ..) <;> first | decide | skip)
    | (with_reducible apply Upd.comp (State_strokeEnd_mut ..) <;> first | decide | skip)
    | (with_reducible apply Upd.comp (State_waitOver_mut ..) <;> first | decide | skip)
    | (with_reducible apply Upd.comp (State_setCtx_mut ..) <;> first | decide | skip)
    | split

theorem State_boostStep_mut (k : Nat) (t : Nat) (lim : Nat) (sup : Bool) (s : State) : Upd [.cyc, .vdr, .stk, .rcd] (some [0xC1, 0xC6]) s (State.boostStep k t lim sup s) := by
  unfold State.boostStep
  repeat' first
    | (extract_lets +onlyGivenNames x; subst x)
    | with_reducible apply Upd.refl
    | (with_reducible apply Upd.comp (State_pcNext_mut ..) <;> first | decide | skip)
    | (with_reducible apply Upd.comp (State_strokeEnd_mut ..) <;> first | decide | skip)
    | (with_reducible apply Upd.comp (State_setCtx_mut ..) <;> first | decide | skip)
    | (with_reducible apply Upd.comp (State_setWait_mut ..) <;> first | decide | skip)
    | split

theorem State_strokeExec_mut (k : Nat) (t : Nat) (op : Nat) (a : Nat) (s : State) : Upd [.cyc, .vdr, .stk, .rcd] (some [0xC1, 0xC6]) s (State.strokeExec k t op a s) := by
  unfold State.strokeExec
  repeat' first
    | (extract_lets +onlyGivenNames x; refine Upd.cut (P := [.cyc, .vdr, .stk, .rcd]) (W := (some [0xC1, 0xC6])) (s := s) (x := x) ?_ (fun hx => ?_); rotate_left; clear_value x; rotate_left; subst x)
    | (extract_lets +onlyGivenNames x; subst x)
    | with_reducible assumption
    | with_reducible apply Upd.refl
    | (with_reducible apply Upd.comp (State_boostStep_mut ..) <;> first | decide | skip)
    | (with_reducible apply Upd.comp (State_setTgt_mut ..) <;> first | decide | skip)
    | (with_reducible apply Upd.comp (State_raiseAt_mut ..) <;> first | decide | skip)
    | (with_reducible apply Upd.comp (State_pcNext_mut ..) <;> first | decide | skip)
    | (with_reducible apply State_set_step (w := 0xC6); rotate_left; decide; simp only [windowOf, VDR_CTX_RUN, VDR_CTX_RUN.LC, VDR_CTX_STAT, VDR_CTX_STAT.PC] <;> omega)
    | (with_reducible apply Upd.comp (State_strokeEnd_mut ..) <;> first | decide | skip)
    | (with_reducible apply Upd.comp (State_setCtx_mut ..) <;> first | decide | skip)
    | (with_reducible apply Upd.comp (State_setWait_mut ..) <;> first | decide | skip)
    | split

theorem State_strokeFetch_mut (k : Nat) (s : State) : SndUpd [.free, .stk] (some []) s (State.strokeFetch k s) := by
  unfold State.strokeFetch
  repeat' first
    | (extract_lets +onlyGivenNames x; subst x)
    | with_reducible apply Upd.refl
    | (with_reducible show SndUpd _ _ _ _; with_reducible rw [State.snd_pair]; with_reducible apply SndUpd.mk)
    | (with_reducible apply Upd.comp (State_setCtx_mut ..) <;> first | decide | skip)
    | (with_reducible apply Upd.comp (State_drawn_mut ..) <;> first | decide | skip)
    | split

theorem State_strokeInstr_mut (k : Nat) (t : Nat) (s : State) : Upd [.free, .cyc, .vdr, .stk, .rcd] (some [0xC1, 0xC6]) s (State.strokeInstr k t s) := by
  unfold State.strokeInstr
  repeat' first
    | (extract_lets +onlyGivenNames x; subst x)
    | with_reducible apply Upd.refl
    | (with_reducible apply Upd.comp (State_strokeExec_mut ..) <;> first | decide | skip)
    | (with_reducible apply SndUpd.comp (State_strokeFetch_mut ..) <;> first | decide | skip)
    | (with_reducible apply Upd.comp (State_strokeEnd_mut ..) <;> first | decide | skip)
    | (with_reducible refine SndUpd.of_eq ?_ (by assumption))
    | split

theorem State_ctxLoop_mut (k : Nat) (t : Nat) (a2 : Nat) (a3 : Nat) (a4 : State) : Upd [.free, .cyc, .vdr, .stk, .rcd] (some [0xC1, 0xC6]) a4 (State.ctxLoop k t a2 a3 a4) := by
  induction a2 generalizing a3 a4 with
  | zero =>
    unfold State.ctxLoop
    repeat' first
      | with_reducible apply Upd.refl
      | (with_reducible apply Upd.comp (ih ..) <;> first | decide | skip)
      | (with_reducible apply SndUpd.comp (State_waitStep_mut ..) <;> first | decide | skip)
      | (with_reducible apply Upd.comp (State_strokeInstr_mut ..) <;> first | decide | skip)
      | (with_reducible refine SndUpd.of_eq ?_ (by assumption))
      | split
  | succ n ih =>
    unfold State.ctxLoop
    repeat' first
      | with_reducible apply Upd.refl
      | (with_reducible apply Upd.comp (ih ..) <;> first | decide | skip)
      | (with_reducible apply SndUpd.comp (State_waitStep_mut ..) <;> first | decide | skip)
      | (with_reducible apply Upd.comp (State_strokeInstr_mut ..) <;> first | decide | skip)
      | (with_reducible refine SndUpd.of_eq ?_ (by assumption))
      | split

theorem State_setReqs_mut (r : Tbl StartReq) (s : State) : Upd [.stk] (some []) s (State.setReqs r s) := by
  unfold State.setReqs
  repeat' first
    | (extract_lets +onlyGivenNames x; subst x)
    | with_reducible apply Upd.refl
    | (with_reducible show Upd _ _ _ _; with_reducible rw [State.mk_box]; with_reducible apply Upd.box <;> first | (left; with_reducible rfl) | (right; decide) | skip)

theorem State_ctxFollow_mut (k : Nat) (t : Nat) (s : State) : Upd [] (some [0xC6]) s (State.ctxFollow k t s) := by
  unfold State.ctxFollow
  repeat' first
    | with_reducible apply Upd.refl
    | (with_reducible apply Upd.comp (State_setTgt_mut ..) <;> first | decide | skip)
    | split

theorem State_trigEdge_mut (n : Nat) (st : Nat) (s : State) : Upd [.cyc, .stk, .rcd] (some [0xC1, 0xC6]) s (State.trigEdge n st s) := by
  unfold State.trigEdge
  repeat' first
    | (extract_lets +onlyGivenNames x; refine Upd.cut (P := [.cyc, .stk, .rcd]) (W := (some [0xC1, 0xC6])) (s := s) (x := x) ?_ (fun hx => ?_); rotate_left; clear_value x; rotate_left; subst x)
    | (extract_lets +onlyGivenNames x; subst x)
    | with_reducible assumption
    | with_reducible apply Upd.refl
    | (with_reducible apply State_bump_step (w := 0xC6); rotate_left; decide; simp only [windowOf, VDR_STK_TRIG, VDR_STK_TRIG.TRG_OVR] <;> omega)
    | (with_reducible apply Upd.comp (State_raise_mut ..) <;> first | decide | skip)
    | (with_reducible apply Upd.comp (State_setWait_mut ..) <;> first | decide | skip)
    | (with_reducible apply Upd.foldl <;> first | (intro y a ha hy; skip) | skip)
    | (with_reducible show Upd _ _ _ _; with_reducible rw [State.mk_box]; with_reducible apply Upd.box <;> first | (left; with_reducible rfl) | (right; decide) | skip)
    | split

theorem State_stkCounts_mut (s : State) : Upd [] (some [0xC6]) s (State.stkCounts s) := by
  unfold State.stkCounts
  repeat' first
    | with_reducible apply Upd.refl
    | (with_reducible apply State_set_step (w := 0xC6); rotate_left; decide; simp only [windowOf, VDR_STK_STATUS, VDR_STK_STATUS.DEFERRED, VDR_STK_STATUS.QUEUED] <;> omega)

theorem State_strokesStop_mut (t : Nat) (s : State) : Upd [.cyc, .vdr, .stk, .rcd] (some [0xC1, 0xC6]) s (State.strokesStop t s) := by
  unfold State.strokesStop
  repeat' first
    | (extract_lets +onlyGivenNames x; refine Upd.cut (P := [.cyc, .vdr, .stk, .rcd]) (W := (some [0xC1, 0xC6])) (s := s) (x := x) ?_ (fun hx => ?_); rotate_left; clear_value x; rotate_left; subst x)
    | with_reducible assumption
    | with_reducible apply Upd.refl
    | (with_reducible apply Upd.comp (State_stkCounts_mut ..) <;> first | decide | skip)
    | (with_reducible apply Upd.comp (State_setReqs_mut ..) <;> first | decide | skip)
    | (with_reducible apply Upd.comp (State_strokeEnd_mut ..) <;> first | decide | skip)
    | (with_reducible apply Upd.foldl <;> first | (intro y a ha hy; skip) | skip)
    | split

theorem State_ctxFault_mut (k : Nat) (t : Nat) (s : State) : Upd [.cyc, .vdr, .stk, .rcd] (some [0xC1, 0xC6]) s (State.ctxFault k t s) := by
  unfold State.ctxFault
  repeat' first
    | with_reducible apply Upd.refl
    | (with_reducible apply Upd.comp (State_ctxIdle_mut ..) <;> first | decide | skip)
    | (with_reducible apply Upd.comp (State_strokeEnd_mut ..) <;> first | decide | skip)
    | split

theorem State_writeProg_mut (a : Nat) (value : Sys2Proof.Word) (s : State) : Upd [.stk] (some [0xC6]) s (State.writeProg a value s) := by
  unfold State.writeProg
  repeat' first
    | (extract_lets +onlyGivenNames x; refine Upd.cut (P := [.stk]) (W := (some [0xC6])) (s := s) (x := x) ?_ (fun hx => ?_); rotate_left; clear_value x; rotate_left; subst x)
    | (extract_lets +onlyGivenNames x; subst x)
    | with_reducible assumption
    | with_reducible apply Upd.refl
    | (with_reducible apply State_setReg_step (w := 0xC6); rotate_left; decide; simp only [windowOf, VDR_STK_PROG] <;> omega)
    | (with_reducible apply Upd.comp (State_setCtx_mut ..) <;> first | decide | skip)
    | (with_reducible apply Upd.foldl <;> first | (intro y a ha hy; skip) | skip)
    | split

theorem State_dropReq_mut (x : Nat) (s : State) : Upd [.stk] (some [0xC6]) s (State.dropReq x s) := by
  unfold State.dropReq
  repeat' first
    | with_reducible apply Upd.refl
    | (with_reducible apply Upd.comp (State_stkCounts_mut ..) <;> first | decide | skip)
    | (with_reducible apply Upd.comp (State_setReqs_mut ..) <;> first | decide | skip)

theorem State_startDrop_mut (x : Nat) (out : Nat) (why : Nat) (t : Nat) (s : State) : Upd [.cyc, .stk, .rcd] (some [0xC1, 0xC6]) s (State.startDrop x out why t s) := by
  unfold State.startDrop
  repeat' first
    | (extract_lets +onlyGivenNames x; refine Upd.cut (P := [.cyc, .stk, .rcd]) (W := (some [0xC1, 0xC6])) (s := s) (x := x) ?_ (fun hx => ?_); rotate_left; clear_value x; rotate_left; subst x)
    | with_reducible assumption
    | with_reducible apply Upd.refl
    | (with_reducible apply State_bump_step (w := 0xC6); rotate_left; decide; simp only [windowOf, VDR_STK_CNT, VDR_STK_CNT.DROP, VDR_STK_DROP, VDR_STK_DROP.OUT, VDR_STK_DROP.WHY] <;> omega)
    | (with_reducible apply Upd.comp (State_dropReq_mut ..) <;> first | decide | skip)
    | (with_reducible apply Upd.comp (State_raiseAt_mut ..) <;> first | decide | skip)
    | (with_reducible apply State_set_step (w := 0xC6); rotate_left; decide; simp only [windowOf, VDR_STK_CNT, VDR_STK_CNT.DROP, VDR_STK_DROP, VDR_STK_DROP.OUT, VDR_STK_DROP.WHY] <;> omega)

theorem opStart_mut (c : Cmd) (s : State) (hc : c.blk = 0x06) : Upd [.dram, .cyc, .rings, .gens, .stk, .rcd] (some [0xC0, 0xC1, 0xC6]) s (opStart c s) := by
  unfold opStart
  repeat' first
    | (extract_lets +onlyGivenNames x; refine Upd.cut (P := [.dram, .cyc, .rings, .gens, .stk, .rcd]) (W := (some [0xC0, 0xC1, 0xC6])) (s := s) (x := x) ?_ (fun hx => ?_); rotate_left; clear_value x; rotate_left; subst x)
    | (extract_lets +onlyGivenNames x; subst x)
    | with_reducible assumption
    | with_reducible apply Upd.refl
    | (with_reducible apply Upd.comp (State_stkCounts_mut ..) <;> first | decide | skip)
    | (with_reducible apply Upd.comp (Cmd_created_mut (b := 0x06) ..) <;> first | decide | skip)
    | (with_reducible apply State_bump_step (w := 0xC6); rotate_left; decide; simp only [windowOf, SYS_DET_STATUS, SYS_DET_STATUS.STK_LATE, VDR_STK_CNT, VDR_STK_CNT.LATE] <;> omega)
    | (with_reducible apply Upd.comp (State_advGen_mut ..) <;> first | decide | skip)
    | (with_reducible apply Upd.comp (Cmd_failed_mut (b := 0x06) ..) <;> first | decide | skip)
    | (with_reducible apply Upd.comp (State_raise_mut ..) <;> first | decide | skip)
    | (with_reducible apply Upd.comp (State_setReqs_mut ..) <;> first | decide | skip)
    | (with_reducible apply State_detViol_step; rotate_left; decide; decide; simp only [windowOf, Fld.addr, SYS_DET_STATUS, SYS_DET_STATUS.RECONF, SYS_DET_STATUS.REC_LATE, SYS_DET_STATUS.YLD_LATE, SYS_DET_STATUS.GNB_STEER, SYS_DET_STATUS.FUS_LATE, SYS_DET_STATUS.STK_LATE, SYS_DET_STATUS.CLE_COEF, SYS_DET_STATUS.CLE_LATE])
    | (with_reducible show Upd _ _ _ _; with_reducible rw [State.mk_box]; with_reducible apply Upd.box <;> first | (left; with_reducible rfl) | (right; decide) | skip)
    | split

theorem State_startStroke_mut (x : Nat) (r : StartReq) (t : Nat) (s : State) : Upd [.cyc, .vdr, .stk, .rcd] (some [0xC1, 0xC6]) s (State.startStroke x r t s) := by
  unfold State.startStroke
  repeat' first
    | (extract_lets +onlyGivenNames x; refine Upd.cut (P := [.cyc, .vdr, .stk, .rcd]) (W := (some [0xC1, 0xC6])) (s := s) (x := x) ?_ (fun hx => ?_); rotate_left; clear_value x; rotate_left; subst x)
    | (extract_lets +onlyGivenNames x; subst x)
    | with_reducible assumption
    | with_reducible apply Upd.refl
    | (with_reducible apply State_setB_step (w := 0xC6); rotate_left; decide; simp only [windowOf, StartReq.out, VDR_CTX_LTC_HI, VDR_CTX_LTC_LO, VDR_CTX_REQ, VDR_CTX_RUN, VDR_CTX_STAT, VDR_CTX_STAT.BAND, VDR_CTX_STAT.CAUSE, VDR_CTX_STAT.PC, VDR_CTX_STAT.STATE, VDR_CTX_STAT.TO, VDR_CTX_STAT.WAITK, VDR_OUT_RELT, VDR_OUT_RELT.EXT_US, VDR_OUT_RELT.REL_US] <;> omega)
    | (with_reducible apply State_setReg_step (w := 0xC6); rotate_left; decide; simp only [windowOf, StartReq.out, VDR_CTX_LTC_HI, VDR_CTX_LTC_LO, VDR_CTX_REQ, VDR_CTX_RUN, VDR_CTX_STAT, VDR_CTX_STAT.BAND, VDR_CTX_STAT.CAUSE, VDR_CTX_STAT.PC, VDR_CTX_STAT.STATE, VDR_CTX_STAT.TO, VDR_CTX_STAT.WAITK, VDR_OUT_RELT, VDR_OUT_RELT.EXT_US, VDR_OUT_RELT.REL_US] <;> omega)
    | (with_reducible apply Upd.comp (State_dropReq_mut ..) <;> first | decide | skip)
    | (with_reducible apply Upd.comp (State_activateOut_mut ..) <;> first | decide | skip)
    | (with_reducible apply Upd.comp (State_raiseAt_mut ..) <;> first | decide | skip)
    | (with_reducible apply Upd.comp (State_ctxIdle_mut ..) <;> first | decide | skip)
    | (with_reducible apply State_set_step (w := 0xC6); rotate_left; decide; simp only [windowOf, StartReq.out, VDR_CTX_LTC_HI, VDR_CTX_LTC_LO, VDR_CTX_REQ, VDR_CTX_RUN, VDR_CTX_STAT, VDR_CTX_STAT.BAND, VDR_CTX_STAT.CAUSE, VDR_CTX_STAT.PC, VDR_CTX_STAT.STATE, VDR_CTX_STAT.TO, VDR_CTX_STAT.WAITK, VDR_OUT_RELT, VDR_OUT_RELT.EXT_US, VDR_OUT_RELT.REL_US] <;> omega)
    | (with_reducible apply State_set64_step (w := 0xC6); rotate_left; decide; simp only [windowOf, StartReq.out, VDR_CTX_LTC_HI, VDR_CTX_LTC_LO, VDR_CTX_REQ, VDR_CTX_RUN, VDR_CTX_STAT, VDR_CTX_STAT.BAND, VDR_CTX_STAT.CAUSE, VDR_CTX_STAT.PC, VDR_CTX_STAT.STATE, VDR_CTX_STAT.TO, VDR_CTX_STAT.WAITK, VDR_OUT_RELT, VDR_OUT_RELT.EXT_US, VDR_OUT_RELT.REL_US] <;> omega; simp only [windowOf, StartReq.out, VDR_CTX_LTC_HI, VDR_CTX_LTC_LO, VDR_CTX_REQ, VDR_CTX_RUN, VDR_CTX_STAT, VDR_CTX_STAT.BAND, VDR_CTX_STAT.CAUSE, VDR_CTX_STAT.PC, VDR_CTX_STAT.STATE, VDR_CTX_STAT.TO, VDR_CTX_STAT.WAITK, VDR_OUT_RELT, VDR_OUT_RELT.EXT_US, VDR_OUT_RELT.REL_US] <;> omega)
    | (with_reducible apply Upd.comp (State_setCtx_mut ..) <;> first | decide | skip)
    | split

theorem State_startAt_mut (x : Nat) (t : Nat) (s : State) : Upd [.cyc, .vdr, .stk, .rcd] (some [0xC1, 0xC6]) s (State.startAt x t s) := by
  unfold State.startAt
  repeat' first
    | (extract_lets +onlyGivenNames x; subst x)
    | with_reducible apply Upd.refl
    | (with_reducible apply Upd.comp (State_stkCounts_mut ..) <;> first | decide | skip)
    | (with_reducible apply Upd.comp (State_raiseAt_mut ..) <;> first | decide | skip)
    | (with_reducible apply Upd.comp (State_startDrop_mut ..) <;> first | decide | skip)
    | (with_reducible apply Upd.comp (State_setReqs_mut ..) <;> first | decide | skip)
    | (with_reducible apply Upd.comp (State_startStroke_mut ..) <;> first | decide | skip)
    | split

theorem State_strokesSupplyLoss_mut (t : Nat) (s : State) : Upd [.cyc, .vdr, .stk, .rcd] (some [0xC1, 0xC6]) s (State.strokesSupplyLoss t s) := by
  unfold State.strokesSupplyLoss
  repeat' first
    | with_reducible assumption
    | with_reducible apply Upd.refl
    | (with_reducible apply Upd.comp (State_strokeEnd_mut ..) <;> first | decide | skip)
    | (with_reducible apply Upd.foldl <;> first | (intro y a ha hy; skip) | skip)
    | split

theorem opCancel_mut (c : Cmd) (s : State) (hc : c.blk = 0x06) : Upd [.dram, .cyc, .rings, .stk, .rcd] (some [0xC1, 0xC6]) s (opCancel c s) := by
  unfold opCancel
  repeat' first
    | with_reducible assumption
    | with_reducible apply Upd.refl
    | (with_reducible apply Upd.comp (State_dropReq_mut ..) <;> first | decide | skip)
    | (with_reducible apply Upd.comp (Cmd_finish_mut (b := 0x06) ..) <;> first | decide | skip)
    | split

theorem State_writeStkTrig_mut (value : Sys2Proof.Word) (s : State) : Upd [.cyc, .stk, .rcd] (some [0xC1, 0xC6]) s (State.writeStkTrig value s) := by
  unfold State.writeStkTrig
  repeat' first
    | with_reducible assumption
    | with_reducible apply Upd.refl
    | (with_reducible apply Upd.comp (State_trigEdge_mut ..) <;> first | decide | skip)
    | (with_reducible apply Upd.foldl <;> first | (intro y a ha hy; skip) | skip)
    | split

theorem execStrokeCancel_mut (ring : Fin 2) (e : Sys2Proof.Entry) (s : State) : OutUpd [.dram, .cyc, .rings, .stk, .rcd] (some [0xC1, 0xC6]) s (execStrokeCancel ring e s) := by
  unfold execStrokeCancel
  repeat' first
    | with_reducible assumption
    | with_reducible apply Upd.refl
    | with_reducible apply OutUpd.next
    | (with_reducible apply Upd.comp (State_runRow_mut (P := [.dram, .cyc, .rings, .stk, .rcd]) (W := [0xC1, 0xC6]) ..) <;> first | decide | skip)
    | (with_reducible apply Upd.comp (opCancel_mut ..) <;> first | decide | skip)
    | (intro c u hc)

theorem State_startsTick_mut (t : Nat) (s : State) : Upd [.cyc, .vdr, .stk, .rcd] (some [0xC1, 0xC6]) s (State.startsTick t s) := by
  unfold State.startsTick
  repeat' first
    | with_reducible assumption
    | with_reducible apply Upd.refl
    | (with_reducible apply Upd.comp (State_startAt_mut ..) <;> first | decide | skip)
    | (with_reducible apply Upd.foldl <;> first | (intro y a ha hy; skip) | skip)

theorem execStrokeStart_mut (ring : Fin 2) (e : Sys2Proof.Entry) (s : State) : OutUpd [.dram, .cyc, .rings, .gens, .stk, .rcd] (some [0xC0, 0xC1, 0xC6]) s (execStrokeStart ring e s) := by
  unfold execStrokeStart
  repeat' first
    | with_reducible assumption
    | with_reducible apply Upd.refl
    | with_reducible apply OutUpd.next
    | (with_reducible apply Upd.comp (opStart_mut ..) <;> first | decide | skip)
    | (with_reducible apply Upd.comp (State_runRow_mut (P := [.dram, .cyc, .rings, .gens, .stk, .rcd]) (W := [0xC0, 0xC1, 0xC6]) ..) <;> first | decide | skip)
    | (intro c u hc)

theorem State_ctxTick_mut (k : Nat) (t : Nat) (s : State) : Upd [.free, .cyc, .vdr, .stk, .rcd] (some [0xC1, 0xC6]) s (State.ctxTick k t s) := by
  unfold State.ctxTick
  repeat' first
    | with_reducible apply Upd.refl
    | (with_reducible apply Upd.comp (State_ctxFollow_mut ..) <;> first | decide | skip)
    | (with_reducible apply Upd.comp (State_ctxLoop_mut ..) <;> first | decide | skip)
    | split

theorem State_ctxRelease_mut (k : Nat) (t : Nat) (s : State) : Upd [.cyc, .rcd] (some [0xC1, 0xC6]) s (State.ctxRelease k t s) := by
  unfold State.ctxRelease
  repeat' first
    | with_reducible apply Upd.refl
    | (with_reducible apply Upd.comp (State_ctxIdle_mut ..) <;> first | decide | skip)
    | split

theorem execStrokeTriggerEdge_mut (n : Fin 32) (stamp : Nat) (s : State) : OutUpd [.cyc, .stk, .rcd] (some [0xC1, 0xC6]) s (execStrokeTriggerEdge n stamp s) := by
  unfold execStrokeTriggerEdge
  repeat' first
    | with_reducible apply Upd.refl
    | with_reducible apply OutUpd.next
    | (with_reducible apply Upd.comp (State_trigEdge_mut ..) <;> first | decide | skip)
    | split

end Sys2Proof.Machine
end

