-- ==== Sys2Proof/Laws/MutVdr.lean ====
section
/-! SUPPORT. What each operation of Machine/Vdr.lean may change (`Upd`): its parts of the state and its register windows. -/

namespace Sys2Proof.Machine

set_option Elab.async false
set_option linter.unusedSimpArgs false
set_option linter.unusedTactic false
set_option linter.unreachableTactic false
set_option linter.unnecessarySeqFocus false
set_option maxRecDepth 20000

theorem State_wign_mut (s : State) : Upd [] (some [0xC6]) s (State.wign s) := by
  unfold State.wign
  repeat' first
    | with_reducible apply Upd.refl
    | (with_reducible apply State_bump_step (w := 0xC6); rotate_left; decide; simp only [windowOf, VDR_STATUS, VDR_STATUS.WIGN] <;> omega)

theorem State_writeOutCfg_mut (k : Nat) (value : Sys2Proof.Word) (s : State) : Upd [] (some [0xC6]) s (State.writeOutCfg k value s) := by
  unfold State.writeOutCfg
  repeat' first
    | (extract_lets +onlyGivenNames x; refine Upd.cut (P := []) (W := (some [0xC6])) (s := s) (x := x) ?_ (fun hx => ?_); rotate_left; clear_value x; rotate_left; subst x)
    | (extract_lets +onlyGivenNames x; subst x)
    | with_reducible assumption
    | with_reducible apply Upd.refl
    | (with_reducible apply State_setReg_step (w := 0xC6); rotate_left; decide; simp only [windowOf, VDR_OUT_CFG] <;> omega)
    | (with_reducible apply Upd.comp (State_wign_mut ..) <;> first | decide | skip)
    | split

theorem State_bankOverload_mut (t : Nat) (s : State) (b : Nat) : Upd [.cyc, .vdr, .stk, .rcd] (some [0xC1, 0xC6]) s (State.bankOverload t s b) := by
  unfold State.bankOverload
  repeat' first
    | (extract_lets +onlyGivenNames x; refine Upd.cut (P := [.cyc, .vdr, .stk, .rcd]) (W := (some [0xC1, 0xC6])) (s := s) (x := x) ?_ (fun hx => ?_); rotate_left; clear_value x; rotate_left; subst x)
    | (extract_lets +onlyGivenNames x; subst x)
    | with_reducible assumption
    | with_reducible apply Upd.refl
    | (with_reducible apply State_setB_step (w := 0xC6); rotate_left; decide; simp only [windowOf, VDR_BANK_STAT, VDR_BANK_STAT.BANK_OVL] <;> omega)
    | (with_reducible apply Upd.comp (State_ctxFault_mut ..) <;> first | decide | skip)
    | (with_reducible apply Upd.comp (State_beginEndDecay_mut ..) <;> first | decide | skip)
    | (with_reducible apply Upd.comp (State_setBank_mut ..) <;> first | decide | skip)
    | (with_reducible apply Upd.comp (State_raise_mut ..) <;> first | decide | skip)
    | (with_reducible apply Upd.comp (State_setHs_mut ..) <;> first | decide | skip)
    | (with_reducible apply Upd.foldl <;> first | (intro y a ha hy; skip) | skip)
    | split

theorem State_outOverload_mut (t : Nat) (s : State) (k : Nat) : Upd [.cyc, .vdr, .stk, .rcd] (some [0xC1, 0xC6]) s (State.outOverload t s k) := by
  unfold State.outOverload
  repeat' first
    | (extract_lets +onlyGivenNames x; refine Upd.cut (P := [.cyc, .vdr, .stk, .rcd]) (W := (some [0xC1, 0xC6])) (s := s) (x := x) ?_ (fun hx => ?_); rotate_left; clear_value x; rotate_left; subst x)
    | (extract_lets +onlyGivenNames x; subst x)
    | with_reducible assumption
    | with_reducible apply Upd.refl
    | (with_reducible apply Upd.comp (State_ctxFault_mut ..) <;> first | decide | skip)
    | (with_reducible apply Upd.comp (State_beginEndDecay_mut ..) <;> first | decide | skip)
    | (with_reducible apply Upd.comp (State_outFlag_mut ..) <;> first | decide | skip)
    | (with_reducible apply Upd.comp (State_setVlo_mut ..) <;> first | decide | skip)
    | split

theorem State_rmsClose_mut (t : Nat) (from0 : Nat) (s : State) : Upd [.cyc, .vdr, .stk, .rcd] (some [0xC1, 0xC6]) s (State.rmsClose t from0 s) := by
  unfold State.rmsClose
  repeat' first
    | (extract_lets +onlyGivenNames x; refine Upd.cut (P := [.cyc, .vdr, .stk, .rcd]) (W := (some [0xC1, 0xC6])) (s := s) (x := x) ?_ (fun hx => ?_); rotate_left; clear_value x; rotate_left; subst x)
    | (extract_lets +onlyGivenNames x; subst x)
    | with_reducible assumption
    | with_reducible apply Upd.refl
    | (with_reducible apply State_setB_step (w := 0xC6); rotate_left; decide; simp only [windowOf, VDR_MOD_STAT, VDR_MOD_STAT.IRMS, VDR_STATUS, VDR_STATUS.MOD_OVL] <;> omega)
    | (with_reducible apply State_set_step (w := 0xC6); rotate_left; decide; simp only [windowOf, VDR_MOD_STAT, VDR_MOD_STAT.IRMS, VDR_STATUS, VDR_STATUS.MOD_OVL] <;> omega)
    | (with_reducible apply Upd.comp (State_raise_mut ..) <;> first | decide | skip)
    | (with_reducible apply Upd.comp (State_outOverload_mut ..) <;> first | decide | skip)
    | (with_reducible apply Upd.comp (State_bankOverload_mut ..) <;> first | decide | skip)
    | (with_reducible apply Upd.foldl <;> first | (intro y a ha hy; skip) | skip)
    | (with_reducible show Upd _ _ _ _; with_reducible rw [State.mk_box]; with_reducible apply Upd.box <;> first | (left; with_reducible rfl) | (right; decide) | skip)
    | split

theorem State_writeBankCfg_mut (b : Nat) (value : Sys2Proof.Word) (s : State) : Upd [] (some [0xC6]) s (State.writeBankCfg b value s) := by
  unfold State.writeBankCfg
  repeat' first
    | (extract_lets +onlyGivenNames x; refine Upd.cut (P := []) (W := (some [0xC6])) (s := s) (x := x) ?_ (fun hx => ?_); rotate_left; clear_value x; rotate_left; subst x)
    | (extract_lets +onlyGivenNames x; subst x)
    | with_reducible assumption
    | with_reducible apply Upd.refl
    | (with_reducible apply State_set_step (w := 0xC6); rotate_left; decide; simp only [windowOf, VDR_BANK_CFG, VDR_BANK_CFG.DEC_LIM, VDR_BANK_CFG.SHED_MA] <;> omega)
    | (with_reducible apply Upd.comp (State_wign_mut ..) <;> first | decide | skip)
    | split

theorem State_vdrBoostOff_mut (s : State) : Upd [] (some [0xC6]) s (State.vdrBoostOff s) := by
  unfold State.vdrBoostOff
  repeat' first
    | with_reducible apply Upd.refl
    | (with_reducible apply State_setB_step (w := 0xC6); rotate_left; decide; simp only [windowOf, VDR_STATUS, VDR_STATUS.BST_ON] <;> omega)

theorem State_writeBstCfg_mut (value : Sys2Proof.Word) (s : State) : Upd [] (some [0xC6]) s (State.writeBstCfg value s) := by
  unfold State.writeBstCfg
  repeat' first
    | (extract_lets +onlyGivenNames x; refine Upd.cut (P := []) (W := (some [0xC6])) (s := s) (x := x) ?_ (fun hx => ?_); rotate_left; clear_value x; rotate_left; subst x)
    | (extract_lets +onlyGivenNames x; subst x)
    | with_reducible assumption
    | with_reducible apply Upd.refl
    | (with_reducible apply State_setB_step (w := 0xC6); rotate_left; decide; simp only [windowOf, VDR_BST_CFG, VDR_BST_CFG.EN, VDR_BST_CFG.TARGET] <;> omega)
    | (with_reducible apply Upd.comp (State_vdrBoostOff_mut ..) <;> first | decide | skip)
    | (with_reducible apply State_set_step (w := 0xC6); rotate_left; decide; simp only [windowOf, VDR_BST_CFG, VDR_BST_CFG.EN, VDR_BST_CFG.TARGET] <;> omega)
    | (with_reducible apply Upd.comp (State_wign_mut ..) <;> first | decide | skip)
    | split

theorem State_writeF32_mut {w : Nat} (a : Nat) (value : Word) (ok : Bool) (s : State) (h : windowOf a = w) : Upd [] (some [w, 0xC6]) s (State.writeF32 a value ok s) := by
  unfold State.writeF32
  exact Upd.ite ((State_setReg_mut _ _ s h).mono rfl (by simp [winSub])) ((State_wign_mut s).mono rfl (by simp [winSub]))
theorem State_writeF32_step {P : List Comp} {W : Option (List Nat)} {s x : State} {w : Nat} {a : Nat} {value : Word} {ok : Bool} (h0 : Upd P W s x)
    (hp : ([] : List Comp).all (P.contains ·) = true) (hw : winSub (some [w, 0xC6]) W = true) (h : windowOf a = w) : Upd P W s (State.writeF32 a value ok x) :=
  (State_writeF32_mut a value ok x h).comp hp hw h0

theorem State_vdrWrite_mut (a : Nat) (value : Sys2Proof.Word) (s : State) : OptUpd [.cyc, .stk, .rcd] (some [0xC1, 0xC6]) s (State.vdrWrite a value s) := by
  unfold State.vdrWrite
  repeat' first
    | (extract_lets +onlyGivenNames x; subst x)
    | with_reducible apply Upd.refl
    | with_reducible apply OptUpd.ofNone
    | with_reducible apply OptUpd.ofSome
    | (with_reducible apply Upd.comp (State_writeBstCfg_mut ..) <;> first | decide | skip)
    | (with_reducible apply Upd.comp (State_writeProg_mut ..) <;> first | decide | skip)
    | (with_reducible apply Upd.comp (State_writeStkTrig_mut ..) <;> first | decide | skip)
    | (with_reducible apply Upd.comp (State_writeOutCfg_mut ..) <;> first | decide | skip)
    | (with_reducible apply State_set_step (w := 0xC6); rotate_left; decide; simp only [windowOf, VDR_BANK_PWM, VDR_BANK_PWM.PER, VDR_OUT_DITH, VDR_OUT_DITH.DITH_PER] <;> omega)
    | (with_reducible apply State_writeF32_step (w := 0xC6); rotate_left; decide; decide; simp only [windowOf, Bool.and_eq_true, decide_eq_true_eq] at *; omega)
    | (with_reducible apply Upd.comp (State_wign_mut ..) <;> first | decide | skip)
    | (with_reducible apply Upd.comp (State_writeBankCfg_mut ..) <;> first | decide | skip)
    | split

theorem State_setPwmOff_mut (b : Nat) (e : Option Nat) (s : State) : Upd [.vdr] (some []) s (State.setPwmOff b e s) := by
  unfold State.setPwmOff
  repeat' first
    | (extract_lets +onlyGivenNames x; subst x)
    | with_reducible apply Upd.refl
    | (with_reducible apply Upd.comp (State_setBank_mut ..) <;> first | decide | skip)
    | split

theorem State_bankTick_mut (t : Nat) (s : State) (b : Nat) : Upd [.vdr] (some [0xC6]) s (State.bankTick t s b) := by
  unfold State.bankTick
  repeat' first
    | (extract_lets +onlyGivenNames x; refine Upd.cut (P := [.vdr]) (W := (some [0xC6])) (s := s) (x := x) ?_ (fun hx => ?_); rotate_left; clear_value x; rotate_left; subst x)
    | (extract_lets +onlyGivenNames x; subst x)
    | with_reducible assumption
    | with_reducible apply Upd.refl
    | (with_reducible apply Upd.comp (State_modVlo_mut ..) <;> first | decide | skip)
    | (with_reducible apply Upd.comp (State_setPwmOff_mut ..) <;> first | decide | skip)
    | (with_reducible apply Upd.comp (State_setHs_mut ..) <;> first | decide | skip)
    | (with_reducible apply Upd.foldl <;> first | (intro y a ha hy; skip) | skip)
    | split

theorem State_boostRdy_mut (v : Nat) (s : State) : Upd [.cyc, .rcd] (some [0xC1, 0xC6]) s (State.boostRdy v s) := by
  unfold State.boostRdy
  repeat' first
    | (extract_lets +onlyGivenNames x; refine Upd.cut (P := [.cyc, .rcd]) (W := (some [0xC1, 0xC6])) (s := s) (x := x) ?_ (fun hx => ?_); rotate_left; clear_value x; rotate_left; subst x)
    | (extract_lets +onlyGivenNames x; subst x)
    | with_reducible assumption
    | with_reducible apply Upd.refl
    | (with_reducible apply State_setB_step (w := 0xC6); rotate_left; decide; simp only [windowOf, VDR_BST_STAT, VDR_BST_STAT.VBST, VDR_STATUS, VDR_STATUS.BST_RDY] <;> omega)
    | (with_reducible apply State_set_step (w := 0xC6); rotate_left; decide; simp only [windowOf, VDR_BST_STAT, VDR_BST_STAT.VBST, VDR_STATUS, VDR_STATUS.BST_RDY] <;> omega)
    | (with_reducible apply Upd.comp (State_raise_mut ..) <;> first | decide | skip)
    | split

theorem State_wantSupply_mut (k : Nat) (s : State) : SndUpd [.cyc, .rcd] (some [0xC1, 0xC6]) s (State.wantSupply k s) := by
  unfold State.wantSupply
  repeat' first
    | with_reducible apply Upd.refl
    | (with_reducible show SndUpd _ _ _ _; with_reducible rw [State.snd_pair]; with_reducible apply SndUpd.mk)
    | (with_reducible apply Upd.comp (State_outFlag_mut ..) <;> first | decide | skip)
    | split

theorem State_regPwm_mut (k : Nat) (t : Nat) (s : State) : Upd [.cyc, .vdr, .rcd] (some [0xC1, 0xC6]) s (State.regPwm k t s) := by
  unfold State.regPwm
  repeat' first
    | (extract_lets +onlyGivenNames x; refine Upd.cut (P := [.cyc, .vdr, .rcd]) (W := (some [0xC1, 0xC6])) (s := s) (x := x) ?_ (fun hx => ?_); rotate_left; clear_value x; rotate_left; subst x)
    | (extract_lets +onlyGivenNames x; subst x)
    | with_reducible assumption
    | with_reducible apply Upd.refl
    | (with_reducible apply Upd.comp (State_modVlo_mut ..) <;> first | decide | skip)
    | (with_reducible apply SndUpd.comp (State_wantSupply_mut ..) <;> first | decide | skip)
    | (with_reducible apply Upd.comp (State_setBank_mut ..) <;> first | decide | skip)
    | (with_reducible show Upd _ _ _ _; with_reducible rw [State.snd_box]; with_reducible apply SndUpd.out)
    | split

theorem State_shedTest_mut (k : Nat) (t : Nat) (s : State) : Upd [.cyc, .vdr, .rcd] (some [0xC1, 0xC6]) s (State.shedTest k t s) := by
  unfold State.shedTest
  repeat' first
    | (extract_lets +onlyGivenNames x; subst x)
    | with_reducible apply Upd.refl
    | (with_reducible apply Upd.comp (State_modVlo_mut ..) <;> first | decide | skip)
    | (with_reducible apply State_bump_step (w := 0xC6); rotate_left; decide; simp only [windowOf, VDR_BANK_STAT, VDR_BANK_STAT.SHED_CNT] <;> omega)
    | (with_reducible apply Upd.comp (State_outFlag_mut ..) <;> first | decide | skip)
    | split

theorem State_takeCle_mut (k : Nat) (t : Nat) (s : State) : Upd [.vdr] (some [0xC6]) s (State.takeCle k t s) := by
  unfold State.takeCle
  repeat' first
    | (extract_lets +onlyGivenNames x; refine Upd.cut (P := [.vdr]) (W := (some [0xC6])) (s := s) (x := x) ?_ (fun hx => ?_); rotate_left; clear_value x; rotate_left; subst x)
    | (extract_lets +onlyGivenNames x; subst x)
    | with_reducible assumption
    | with_reducible apply Upd.refl
    | (with_reducible apply State_setReg_step (w := 0xC6); rotate_left; decide; simp only [windowOf, VDR_OUT_TGT] <;> omega)
    | (with_reducible apply Upd.comp (State_setVlo_mut ..) <;> first | decide | skip)
    | split

theorem State_regulate_mut (t : Nat) (s : State) (k : Nat) : Upd [.cyc, .vdr, .rcd] (some [0xC1, 0xC6]) s (State.regulate t s k) := by
  unfold State.regulate
  repeat' first
    | (extract_lets +onlyGivenNames x; refine Upd.cut (P := [.cyc, .vdr, .rcd]) (W := (some [0xC1, 0xC6])) (s := s) (x := x) ?_ (fun hx => ?_); rotate_left; clear_value x; rotate_left; subst x)
    | (extract_lets +onlyGivenNames x; subst x)
    | with_reducible assumption
    | with_reducible apply Upd.refl
    | (with_reducible apply Upd.comp (State_modVlo_mut ..) <;> first | decide | skip)
    | (with_reducible apply Upd.comp (State_activateOut_mut ..) <;> first | decide | skip)
    | (with_reducible apply Upd.comp (State_beginEndDecay_mut ..) <;> first | decide | skip)
    | (with_reducible apply Upd.comp (State_regPwm_mut ..) <;> first | decide | skip)
    | (with_reducible apply SndUpd.comp (State_wantSupply_mut ..) <;> first | decide | skip)
    | (with_reducible apply Upd.comp (State_takeCle_mut ..) <;> first | decide | skip)
    | (with_reducible apply Upd.comp (State_shedTest_mut ..) <;> first | decide | skip)
    | (with_reducible show Upd _ _ _ _; with_reducible rw [State.snd_box]; with_reducible apply SndUpd.out)
    | split

theorem State_fastRelease_mut (k : Nat) (t : Nat) (s : State) : Upd [.cyc, .vdr, .rcd] (some [0xC1, 0xC6]) s (State.fastRelease k t s) := by
  unfold State.fastRelease
  repeat' first
    | (extract_lets +onlyGivenNames x; refine Upd.cut (P := [.cyc, .vdr, .rcd]) (W := (some [0xC1, 0xC6])) (s := s) (x := x) ?_ (fun hx => ?_); rotate_left; clear_value x; rotate_left; subst x)
    | with_reducible assumption
    | with_reducible apply Upd.refl
    | (with_reducible apply Upd.comp (State_modVlo_mut ..) <;> first | decide | skip)
    | (with_reducible apply Upd.comp (State_ctxRelease_mut ..) <;> first | decide | skip)
    | (with_reducible apply Upd.comp (State_raise_mut ..) <;> first | decide | skip)
    | (with_reducible apply Upd.comp (State_outFlag_mut ..) <;> first | decide | skip)
    | split

theorem State_releaseOut_mut (k : Nat) (t : Nat) (s : State) : Upd [.cyc, .vdr, .rcd] (some [0xC1, 0xC6]) s (State.releaseOut k t s) := by
  unfold State.releaseOut
  repeat' first
    | (extract_lets +onlyGivenNames x; refine Upd.cut (P := [.cyc, .vdr, .rcd]) (W := (some [0xC1, 0xC6])) (s := s) (x := x) ?_ (fun hx => ?_); rotate_left; clear_value x; rotate_left; subst x)
    | (extract_lets +onlyGivenNames x; subst x)
    | with_reducible assumption
    | with_reducible apply Upd.refl
    | (with_reducible apply Upd.comp (State_openLow_mut ..) <;> first | decide | skip)
    | (with_reducible apply Upd.comp (State_ctxRelease_mut ..) <;> first | decide | skip)
    | (with_reducible apply State_set_step (w := 0xC6); rotate_left; decide; simp only [windowOf, VDR_OUT_RELT, VDR_OUT_RELT.EXT_US, VDR_OUT_RELT.REL_US] <;> omega)
    | (with_reducible apply Upd.comp (State_raise_mut ..) <;> first | decide | skip)
    | (with_reducible apply Upd.comp (State_outFlag_mut ..) <;> first | decide | skip)
    | split

theorem State_releases_mut (t : Nat) (s : State) : Upd [.cyc, .vdr, .rcd] (some [0xC1, 0xC6]) s (State.releases t s) := by
  unfold State.releases
  repeat' first
    | (extract_lets +onlyGivenNames x; subst x)
    | with_reducible assumption
    | with_reducible apply Upd.refl
    | (with_reducible apply Upd.comp (State_releaseOut_mut ..) <;> first | decide | skip)
    | (with_reducible apply Upd.comp (State_fastRelease_mut ..) <;> first | decide | skip)
    | (with_reducible apply Upd.foldl <;> first | (intro y a ha hy; skip) | skip)
    | split

theorem State_rmsTick_mut (t : Nat) (s : State) : Upd [.cyc, .vdr, .stk, .rcd] (some [0xC1, 0xC6]) s (State.rmsTick t s) := by
  unfold State.rmsTick
  repeat' first
    | (extract_lets +onlyGivenNames x; subst x)
    | with_reducible apply Upd.refl
    | (with_reducible apply Upd.comp (State_rmsClose_mut ..) <;> first | decide | skip)
    | (with_reducible show Upd _ _ _ _; with_reducible rw [State.mk_box]; with_reducible apply Upd.box <;> first | (left; with_reducible rfl) | (right; decide) | skip)
    | split

theorem State_sampleOut_mut (t : Nat) (k : Nat) (code : Nat) (s : State) : Upd [.vdr] (some [0xC6]) s (State.sampleOut t k code s) := by
  unfold State.sampleOut
  repeat' first
    | (extract_lets +onlyGivenNames x; refine Upd.cut (P := [.vdr]) (W := (some [0xC6])) (s := s) (x := x) ?_ (fun hx => ?_); rotate_left; clear_value x; rotate_left; subst x)
    | (extract_lets +onlyGivenNames x; subst x)
    | with_reducible assumption
    | with_reducible apply Upd.refl
    | (with_reducible apply State_set_step (w := 0xC6); rotate_left; decide; simp only [windowOf, VDR_OUT_RELT, VDR_OUT_RELT.EXT_US, VDR_OUT_SENSE, VDR_OUT_SENSE.CODE, VDR_OUT_SENSE.SEQ] <;> omega)
    | (with_reducible apply Upd.comp (State_setVlo_mut ..) <;> first | decide | skip)
    | (with_reducible apply State_wrapInc_step (w := 0xC6); rotate_left; decide; simp only [windowOf, VDR_OUT_RELT, VDR_OUT_RELT.EXT_US, VDR_OUT_SENSE, VDR_OUT_SENSE.CODE, VDR_OUT_SENSE.SEQ] <;> omega)
    | split

theorem State_sampleAll_mut (t : Nat) (samples : List (Fin 64 × BitVec 12)) (s : State) : Upd [.vdr] (some [0xC6]) s (State.sampleAll t samples s) := by
  unfold State.sampleAll
  repeat' first
    | (extract_lets +onlyGivenNames x; refine Upd.cut (P := [.vdr]) (W := (some [0xC6])) (s := s) (x := x) ?_ (fun hx => ?_); rotate_left; clear_value x; rotate_left; subst x)
    | (extract_lets +onlyGivenNames x; subst x)
    | with_reducible assumption
    | with_reducible apply Upd.refl
    | (with_reducible apply Upd.comp (State_sampleOut_mut ..) <;> first | decide | skip)
    | (with_reducible apply Upd.comp (State_setBank_mut ..) <;> first | decide | skip)
    | (with_reducible apply Upd.foldl <;> first | (intro y a ha hy; skip) | skip)
    | (with_reducible show Upd _ _ _ _; with_reducible rw [State.mk_box]; with_reducible apply Upd.box <;> first | (left; with_reducible rfl) | (right; decide) | skip)

theorem State_stopOver_mut (s : State) : Upd [.vdr] (some []) s (State.stopOver s) := by
  unfold State.stopOver
  repeat' first
    | (extract_lets +onlyGivenNames x; subst x)
    | with_reducible apply Upd.refl
    | (with_reducible show Upd _ _ _ _; with_reducible rw [State.mk_box]; with_reducible apply Upd.box <;> first | (left; with_reducible rfl) | (right; decide) | skip)
    | split

theorem State_tickAt_mut (t : Nat) (samples : List (Fin 64 × BitVec 12)) (vbst : Nat) (s : State) : Upd [.free, .cyc, .vdr, .stk, .rcd] (some [0xC1, 0xC6]) s (State.tickAt t samples vbst s) := by
  unfold State.tickAt
  repeat' first
    | (extract_lets +onlyGivenNames x; refine Upd.cut (P := [.free, .cyc, .vdr, .stk, .rcd]) (W := (some [0xC1, 0xC6])) (s := s) (x := x) ?_ (fun hx => ?_); rotate_left; clear_value x; rotate_left; subst x)
    | (extract_lets +onlyGivenNames x; subst x)
    | with_reducible assumption
    | with_reducible apply Upd.refl
    | (with_reducible apply Upd.comp (State_regulate_mut ..) <;> first | decide | skip)
    | (with_reducible apply Upd.comp (State_settleBank_mut ..) <;> first | decide | skip)
    | (with_reducible apply Upd.comp (State_ctxTick_mut ..) <;> first | decide | skip)
    | (with_reducible apply Upd.comp (State_boostRdy_mut ..) <;> first | decide | skip)
    | (with_reducible apply Upd.comp (State_stopOver_mut ..) <;> first | decide | skip)
    | (with_reducible apply Upd.comp (State_releases_mut ..) <;> first | decide | skip)
    | (with_reducible apply Upd.comp (State_bankTick_mut ..) <;> first | decide | skip)
    | (with_reducible apply Upd.comp (State_rmsTick_mut ..) <;> first | decide | skip)
    | (with_reducible apply Upd.comp (State_sampleAll_mut ..) <;> first | decide | skip)
    | (with_reducible apply Upd.comp (State_startsTick_mut ..) <;> first | decide | skip)
    | (with_reducible apply Upd.foldl <;> first | (intro y a ha hy; skip) | skip)
    | (with_reducible show Upd _ _ _ _; with_reducible rw [State.mk_box]; with_reducible apply Upd.box <;> first | (left; with_reducible rfl) | (right; decide) | skip)

theorem State_vdrTick_mut (samples : List (Fin 64 × BitVec 12)) (vbst : BitVec 16) (s : State) : Upd [.free, .cyc, .vdr, .stk, .rcd] (some [0xC1, 0xC6]) s (State.vdrTick samples vbst s) := by
  unfold State.vdrTick
  repeat' first
    | with_reducible apply Upd.refl
    | (with_reducible apply Upd.comp (State_tickAt_mut ..) <;> first | decide | skip)
    | split

theorem execWtrgTimeout_mut (k : Sys2Proof.AtTick 64) (s : State) : OutUpd [.free, .cyc, .vdr, .stk, .rcd] (some [0xC1, 0xC6]) s (execWtrgTimeout k s) := by
  unfold execWtrgTimeout
  repeat' first
    | with_reducible apply Upd.refl
    | with_reducible apply OutUpd.next
    | (with_reducible apply Upd.comp (State_vdrTick_mut ..) <;> first | decide | skip)
    | split

theorem execDeferExpire_mut (x : Sys2Proof.AtTick 256) (s : State) : OutUpd [.free, .cyc, .vdr, .stk, .rcd] (some [0xC1, 0xC6]) s (execDeferExpire x s) := by
  unfold execDeferExpire
  repeat' first
    | with_reducible apply Upd.refl
    | with_reducible apply OutUpd.next
    | (with_reducible apply Upd.comp (State_vdrTick_mut ..) <;> first | decide | skip)
    | split

theorem State_vdrEndDecayAll_mut (s : State) : Upd [.vdr] (some [0xC6]) s (State.vdrEndDecayAll s) := by
  unfold State.vdrEndDecayAll
  repeat' first
    | with_reducible assumption
    | with_reducible apply Upd.refl
    | (with_reducible apply Upd.comp (State_beginEndDecay_mut ..) <;> first | decide | skip)
    | (with_reducible apply Upd.foldl <;> first | (intro y a ha hy; skip) | skip)

theorem execBoostNrdy_mut (k : Sys2Proof.AtTick 64) (s : State) : OutUpd [.free, .cyc, .vdr, .stk, .rcd] (some [0xC1, 0xC6]) s (execBoostNrdy k s) := by
  unfold execBoostNrdy
  repeat' first
    | with_reducible apply Upd.refl
    | with_reducible apply OutUpd.next
    | (with_reducible apply Upd.comp (State_vdrTick_mut ..) <;> first | decide | skip)
    | split

theorem execWcurTimeout_mut (k : Sys2Proof.AtTick 64) (s : State) : OutUpd [.free, .cyc, .vdr, .stk, .rcd] (some [0xC1, 0xC6]) s (execWcurTimeout k s) := by
  unfold execWcurTimeout
  repeat' first
    | with_reducible apply Upd.refl
    | with_reducible apply OutUpd.next
    | (with_reducible apply Upd.comp (State_vdrTick_mut ..) <;> first | decide | skip)
    | split

theorem State_boostDischarge_mut (s : State) : Upd [.vdr] (some [0xC6]) s (State.boostDischarge s) := by
  unfold State.boostDischarge
  repeat' first
    | (extract_lets +onlyGivenNames x; refine Upd.cut (P := [.vdr]) (W := (some [0xC6])) (s := s) (x := x) ?_ (fun hx => ?_); rotate_left; clear_value x; rotate_left; subst x)
    | (extract_lets +onlyGivenNames x; subst x)
    | with_reducible assumption
    | with_reducible apply Upd.refl
    | (with_reducible apply Upd.comp (State_vdrBoostOff_mut ..) <;> first | decide | skip)
    | (with_reducible show Upd _ _ _ _; with_reducible rw [State.mk_box]; with_reducible apply Upd.box <;> first | (left; with_reducible rfl) | (right; decide) | skip)

theorem State_vdrSupplyLoss_mut (s : State) : Upd [.cyc, .vdr, .stk, .rcd] (some [0xC1, 0xC6]) s (State.vdrSupplyLoss s) := by
  unfold State.vdrSupplyLoss
  repeat' first
    | (extract_lets +onlyGivenNames x; refine Upd.cut (P := [.cyc, .vdr, .stk, .rcd]) (W := (some [0xC1, 0xC6])) (s := s) (x := x) ?_ (fun hx => ?_); rotate_left; clear_value x; rotate_left; subst x)
    | (extract_lets +onlyGivenNames x; subst x)
    | with_reducible assumption
    | with_reducible apply Upd.refl
    | (with_reducible apply State_setB_step (w := 0xC6); rotate_left; decide; simp only [windowOf, VDR_STATUS, VDR_STATUS.SUPLOSS] <;> omega)
    | (with_reducible apply Upd.comp (State_beginEndDecay_mut ..) <;> first | decide | skip)
    | (with_reducible apply Upd.comp (State_strokesSupplyLoss_mut ..) <;> first | decide | skip)
    | (with_reducible apply Upd.comp (State_raise_mut ..) <;> first | decide | skip)
    | (with_reducible apply Upd.comp (State_outFlag_mut ..) <;> first | decide | skip)
    | (with_reducible apply Upd.comp (State_setHs_mut ..) <;> first | decide | skip)
    | (with_reducible apply Upd.comp (State_boostDischarge_mut ..) <;> first | decide | skip)
    | (with_reducible apply Upd.foldl <;> first | (intro y a ha hy; skip) | skip)
    | (with_reducible show Upd _ _ _ _; with_reducible rw [State.mk_box]; with_reducible apply Upd.box <;> first | (left; with_reducible rfl) | (right; decide) | skip)
    | split

theorem State_bankFault_mut (s : State) (k : Nat) : Upd [.cyc, .vdr, .stk, .rcd] (some [0xC1, 0xC6]) s (State.bankFault s k) := by
  unfold State.bankFault
  repeat' first
    | with_reducible apply Upd.refl
    | (with_reducible apply Upd.comp (State_ctxFault_mut ..) <;> first | decide | skip)
    | (with_reducible apply Upd.comp (State_openLow_mut ..) <;> first | decide | skip)
    | split

theorem State_readSense_mut (core : Nat) (k : Nat) (s : State) : Upd [.latch, .access] (some []) s (State.readSense core k s) := by
  unfold State.readSense
  repeat' first
    | with_reducible apply Upd.refl
    | (with_reducible apply Upd.comp (State_answer_mut ..) <;> first | decide | skip)
    | (with_reducible apply Upd.comp (State_latchFor_mut ..) <;> first | decide | skip)

theorem State_outFault_mut (k : Nat) (bit : Nat) (s : State) : Upd [.cyc, .vdr, .stk, .rcd] (some [0xC1, 0xC6]) s (State.outFault k bit s) := by
  unfold State.outFault
  repeat' first
    | (extract_lets +onlyGivenNames x; refine Upd.cut (P := [.cyc, .vdr, .stk, .rcd]) (W := (some [0xC1, 0xC6])) (s := s) (x := x) ?_ (fun hx => ?_); rotate_left; clear_value x; rotate_left; subst x)
    | with_reducible assumption
    | with_reducible apply Upd.refl
    | (with_reducible apply Upd.comp (State_ctxFault_mut ..) <;> first | decide | skip)
    | (with_reducible apply Upd.comp (State_openLow_mut ..) <;> first | decide | skip)
    | (with_reducible apply Upd.comp (State_outFlag_mut ..) <;> first | decide | skip)
    | split

theorem execOutputOvercurrent_mut (k : Fin 64) (s : State) : OutUpd [.cyc, .vdr, .stk, .rcd] (some [0xC1, 0xC6]) s (execOutputOvercurrent k s) := by
  unfold execOutputOvercurrent
  repeat' first
    | (extract_lets +onlyGivenNames x; subst x)
    | with_reducible apply Upd.refl
    | with_reducible apply OutUpd.next
    | (with_reducible apply Upd.comp (State_outFault_mut ..) <;> first | decide | skip)
    | split

theorem execRmsWindowEnd_mut (s : State) : OutUpd [.cyc, .vdr, .stk, .rcd] (some [0xC1, 0xC6]) s (execRmsWindowEnd s) := by
  unfold execRmsWindowEnd
  repeat' first
    | with_reducible apply Upd.refl
    | with_reducible apply OutUpd.next
    | (with_reducible apply Upd.comp (State_rmsClose_mut ..) <;> first | decide | skip)
    | split

theorem State_vdrDisable_mut (s : State) : Upd [.cyc, .vdr, .stk, .rcd] (some [0xC1, 0xC6]) s (State.vdrDisable s) := by
  unfold State.vdrDisable
  repeat' first
    | with_reducible apply Upd.refl
    | (with_reducible apply Upd.comp (State_strokesStop_mut ..) <;> first | decide | skip)
    | (with_reducible apply State_setB_step (w := 0xC6); rotate_left; decide; simp only [windowOf, VDR_CTRL, VDR_CTRL.ENABLE] <;> omega)
    | (with_reducible apply Upd.comp (State_vdrBoostOff_mut ..) <;> first | decide | skip)
    | (with_reducible apply Upd.comp (State_vdrEndDecayAll_mut ..) <;> first | decide | skip)

theorem execVdrDisable_mut (s : State) : OutUpd [.cyc, .vdr, .stk, .rcd] (some [0xC1, 0xC6]) s (execVdrDisable s) := by
  unfold execVdrDisable
  repeat' first
    | with_reducible apply Upd.refl
    | with_reducible apply OutUpd.next
    | (with_reducible apply Upd.comp (State_vdrDisable_mut ..) <;> first | decide | skip)
    | split

theorem execBankOvercurrent_mut (b : Fin 16) (s : State) : OutUpd [.cyc, .vdr, .stk, .rcd] (some [0xC1, 0xC6]) s (execBankOvercurrent b s) := by
  unfold execBankOvercurrent
  repeat' first
    | (extract_lets +onlyGivenNames x; refine Upd.cut (P := [.cyc, .vdr, .stk, .rcd]) (W := (some [0xC1, 0xC6])) (s := s) (x := x) ?_ (fun hx => ?_); rotate_left; clear_value x; rotate_left; subst x)
    | with_reducible assumption
    | with_reducible apply Upd.refl
    | with_reducible apply OutUpd.next
    | (with_reducible apply State_setB_step (w := 0xC6); rotate_left; decide; simp only [windowOf, VDR_BANK_STAT, VDR_BANK_STAT.BANK_SC] <;> omega)
    | (with_reducible apply Upd.comp (State_raise_mut ..) <;> first | decide | skip)
    | (with_reducible apply Upd.comp (State_setHs_mut ..) <;> first | decide | skip)
    | (with_reducible apply Upd.comp (State_bankFault_mut ..) <;> first | decide | skip)
    | (with_reducible apply Upd.foldl <;> first | (intro y a ha hy; skip) | skip)
    | split

theorem execStrokeStartDue_mut (x : Sys2Proof.AtTick 256) (s : State) : OutUpd [.free, .cyc, .vdr, .stk, .rcd] (some [0xC1, 0xC6]) s (execStrokeStartDue x s) := by
  unfold execStrokeStartDue
  repeat' first
    | with_reducible apply Upd.refl
    | with_reducible apply OutUpd.next
    | (with_reducible apply Upd.comp (State_vdrTick_mut ..) <;> first | decide | skip)
    | split

theorem State_readCtx_mut (core : Nat) (k : Nat) (s : State) : Upd [.latch, .access] (some []) s (State.readCtx core k s) := by
  unfold State.readCtx
  repeat' first
    | (extract_lets +onlyGivenNames x; refine Upd.cut (P := [.latch, .access]) (W := (some [])) (s := s) (x := x) ?_ (fun hx => ?_); rotate_left; clear_value x; rotate_left; subst x)
    | with_reducible assumption
    | with_reducible apply Upd.refl
    | (with_reducible apply Upd.comp (State_answer_mut ..) <;> first | decide | skip)
    | (with_reducible apply Upd.comp (State_latchFor_mut ..) <;> first | decide | skip)

theorem State_vdrSupplyReturn_mut (s : State) : Upd [.vdr] (some []) s (State.vdrSupplyReturn s) := by
  unfold State.vdrSupplyReturn
  repeat' first
    | (extract_lets +onlyGivenNames x; subst x)
    | with_reducible apply Upd.refl
    | (with_reducible show Upd _ _ _ _; with_reducible rw [State.mk_box]; with_reducible apply Upd.box <;> first | (left; with_reducible rfl) | (right; decide) | skip)

theorem execOutputOpen_mut (k : Fin 64) (s : State) : OutUpd [.cyc, .vdr, .rcd] (some [0xC1, 0xC6]) s (execOutputOpen k s) := by
  unfold execOutputOpen
  repeat' first
    | (extract_lets +onlyGivenNames x; subst x)
    | with_reducible apply Upd.refl
    | with_reducible apply OutUpd.next
    | (with_reducible apply Upd.comp (State_outFlag_mut ..) <;> first | decide | skip)
    | (with_reducible apply Upd.comp (State_setVlo_mut ..) <;> first | decide | skip)
    | split

theorem execVdrTick_mut (samples : List (Fin 64 × BitVec 12)) (vbst : BitVec 16) (s : State) : OutUpd [.free, .cyc, .vdr, .stk, .rcd] (some [0xC1, 0xC6]) s (execVdrTick samples vbst s) := by
  unfold execVdrTick
  repeat' first
    | with_reducible apply Upd.refl
    | with_reducible apply OutUpd.next
    | (with_reducible apply Upd.comp (State_vdrTick_mut ..) <;> first | decide | skip)

theorem execOutputStb_mut (k : Fin 64) (s : State) : OutUpd [.cyc, .vdr, .stk, .rcd] (some [0xC1, 0xC6]) s (execOutputStb k s) := by
  unfold execOutputStb
  repeat' first
    | with_reducible apply Upd.refl
    | with_reducible apply OutUpd.next
    | (with_reducible apply Upd.comp (State_outFault_mut ..) <;> first | decide | skip)
    | split

theorem execStrokeWaitEnd_mut (k : Sys2Proof.AtTick 64) (s : State) : OutUpd [.free, .cyc, .vdr, .stk, .rcd] (some [0xC1, 0xC6]) s (execStrokeWaitEnd k s) := by
  unfold execStrokeWaitEnd
  repeat' first
    | with_reducible apply Upd.refl
    | with_reducible apply OutUpd.next
    | (with_reducible apply Upd.comp (State_vdrTick_mut ..) <;> first | decide | skip)
    | split

theorem execBstOvp_mut (vbst : BitVec 16) (s : State) : OutUpd [.cyc, .rcd] (some [0xC1, 0xC6]) s (execBstOvp vbst s) := by
  unfold execBstOvp
  repeat' first
    | (extract_lets +onlyGivenNames x; refine Upd.cut (P := [.cyc, .rcd]) (W := (some [0xC1, 0xC6])) (s := s) (x := x) ?_ (fun hx => ?_); rotate_left; clear_value x; rotate_left; subst x)
    | with_reducible assumption
    | with_reducible apply Upd.refl
    | with_reducible apply OutUpd.next
    | (with_reducible apply State_setB_step (w := 0xC6); rotate_left; decide; simp only [windowOf, VDR_STATUS, VDR_STATUS.BST_OVP] <;> omega)
    | (with_reducible apply Upd.comp (State_vdrBoostOff_mut ..) <;> first | decide | skip)
    | (with_reducible apply Upd.comp (State_raise_mut ..) <;> first | decide | skip)
    | split

theorem execBoostChargeStart_mut (vbst : BitVec 16) (s : State) : OutUpd [.vdr] (some [0xC6]) s (execBoostChargeStart vbst s) := by
  unfold execBoostChargeStart
  repeat' first
    | (extract_lets +onlyGivenNames x; refine Upd.cut (P := [.vdr]) (W := (some [0xC6])) (s := s) (x := x) ?_ (fun hx => ?_); rotate_left; clear_value x; rotate_left; subst x)
    | (extract_lets +onlyGivenNames x; subst x)
    | with_reducible assumption
    | with_reducible apply Upd.refl
    | with_reducible apply OutUpd.next
    | (with_reducible apply State_setB_step (w := 0xC6); rotate_left; decide; simp only [windowOf, VDR_STATUS, VDR_STATUS.BST_ON] <;> omega)
    | (with_reducible show Upd _ _ _ _; with_reducible rw [State.mk_box]; with_reducible apply Upd.box <;> first | (left; with_reducible rfl) | (right; decide) | skip)
    | split

theorem execBoostChargeStop_mut (vbst : BitVec 16) (s : State) : OutUpd [] (some [0xC6]) s (execBoostChargeStop vbst s) := by
  unfold execBoostChargeStop
  repeat' first
    | with_reducible apply Upd.refl
    | with_reducible apply OutUpd.next
    | (with_reducible apply Upd.comp (State_vdrBoostOff_mut ..) <;> first | decide | skip)
    | split

theorem execStrokeRampEnd_mut (k : Sys2Proof.AtTick 64) (s : State) : OutUpd [.free, .cyc, .vdr, .stk, .rcd] (some [0xC1, 0xC6]) s (execStrokeRampEnd k s) := by
  unfold execStrokeRampEnd
  repeat' first
    | with_reducible apply Upd.refl
    | with_reducible apply OutUpd.next
    | (with_reducible apply Upd.comp (State_vdrTick_mut ..) <;> first | decide | skip)
    | split

theorem execVlvSupplyRecover_mut (s : State) : OutUpd [.vdr] (some []) s (execVlvSupplyRecover s) := by
  unfold execVlvSupplyRecover
  repeat' first
    | (extract_lets +onlyGivenNames x; subst x)
    | with_reducible apply Upd.refl
    | with_reducible apply OutUpd.next
    | (with_reducible show Upd _ _ _ _; with_reducible rw [State.mk_box]; with_reducible apply Upd.box <;> first | (left; with_reducible rfl) | (right; decide) | skip)
    | split

theorem execBoostDischargeChangeover_mut (s : State) : OutUpd [.vdr] (some []) s (execBoostDischargeChangeover s) := by
  unfold execBoostDischargeChangeover
  repeat' first
    | (extract_lets +onlyGivenNames x; subst x)
    | with_reducible apply Upd.refl
    | with_reducible apply OutUpd.next
    | (with_reducible show Upd _ _ _ _; with_reducible rw [State.mk_box]; with_reducible apply Upd.box <;> first | (left; with_reducible rfl) | (right; decide) | skip)
    | split

theorem execFastRel_mut (k : Sys2Proof.AtTick 64) (s : State) : OutUpd [.free, .cyc, .vdr, .stk, .rcd] (some [0xC1, 0xC6]) s (execFastRel k s) := by
  unfold execFastRel
  repeat' first
    | with_reducible apply Upd.refl
    | with_reducible apply OutUpd.next
    | (with_reducible apply Upd.comp (State_vdrTick_mut ..) <;> first | decide | skip)
    | split

end Sys2Proof.Machine
end

