-- ==== Sys2Proof/Laws/MutResets.lean ====
section
/-! SUPPORT. What each operation of Machine/Resets.lean may change (`Upd`): its parts of the state and its register windows. -/

namespace Sys2Proof.Machine

set_option Elab.async false
set_option linter.unusedSimpArgs false
set_option linter.unusedTactic false
set_option linter.unreachableTactic false
set_option linter.unnecessarySeqFocus false
set_option maxRecDepth 20000

theorem State_vdrBoostStop_mut (s : State) : Upd [.vdr] (some [0xC6]) s (State.vdrBoostStop s) := by
  unfold State.vdrBoostStop
  repeat' first
    | with_reducible apply Upd.refl
    | (with_reducible apply Upd.comp (State_boostDischarge_mut ..) <;> first | decide | skip)

theorem State_reloadKaCopy_mut (s : State) : Upd [.ka] (some [0xD4]) s (State.reloadKaCopy s) := by
  unfold State.reloadKaCopy
  repeat' first
    | (extract_lets +onlyGivenNames x; subst x)
    | with_reducible apply Upd.refl
    | (with_reducible apply State_setReg_step (w := 0xD4); rotate_left; decide; simp only [windowOf, KA_FLAGS, KA_OPSEC, KA_PWRCYC] <;> omega)
    | (with_reducible show Upd _ _ _ _; with_reducible rw [State.mk_box]; with_reducible apply Upd.box <;> first | (left; with_reducible rfl) | (right; decide) | skip)

theorem State_pdetShow_mut (s : State) : Upd [] (some [0xD1]) s (State.pdetShow s) := by
  unfold State.pdetShow
  repeat' first
    | with_reducible apply Upd.refl
    | (with_reducible apply State_setB_step (w := 0xD1); rotate_left; decide; simp only [windowOf, PNL_STAT, PNL_STAT.PDET] <;> omega)

theorem State_arbWiped_mut (job : Bool) (owner : Option Nat) (s : State) : Upd [.cyc, .fen, .arb, .rcd] (some [0xC1, 0xCA, 0xCB, 0xCD, 0xD2]) s (State.arbWiped job owner s) := by
  unfold State.arbWiped
  repeat' first
    | (extract_lets +onlyGivenNames x; refine Upd.cut (P := [.cyc, .fen, .arb, .rcd]) (W := (some [0xC1, 0xCA, 0xCB, 0xCD, 0xD2])) (s := s) (x := x) ?_ (fun hx => ?_); rotate_left; clear_value x; rotate_left; subst x)
    | (extract_lets +onlyGivenNames x; subst x)
    | with_reducible assumption
    | with_reducible apply Upd.refl
    | (with_reducible apply State_setB_step (w := 0xCB); rotate_left; decide; simp only [windowOf, ARB_REQ, ARB_REQ.PEND] <;> omega)
    | (with_reducible apply Upd.comp (State_recRevoked_mut ..) <;> first | decide | skip)
    | (with_reducible apply Upd.comp (State_fenRevoked_mut ..) <;> first | decide | skip)
    | (with_reducible apply Upd.comp (State_yldRevoked_mut ..) <;> first | decide | skip)
    | (with_reducible apply Upd.foldl <;> first | (intro y a ha hy; skip) | skip)
    | (with_reducible show Upd _ _ _ _; with_reducible rw [State.mk_box]; with_reducible apply Upd.box <;> first | (left; with_reducible rfl) | (right; decide) | skip)
    | split

theorem State_vdrWiped_mut (vbst : Nat) (s : State) : Upd [.vdr, .stk] (some [0xC6]) s (State.vdrWiped vbst s) := by
  unfold State.vdrWiped
  repeat' first
    | with_reducible apply Upd.refl
    | (with_reducible apply State_set_step (w := 0xC6); rotate_left; decide; simp only [windowOf, VDR_BST_STAT, VDR_BST_STAT.VBST] <;> omega)
    | (with_reducible show Upd _ _ _ _; with_reducible rw [State.mk_box]; with_reducible apply Upd.box <;> first | (left; with_reducible rfl) | (right; decide) | skip)

theorem State_blockWiped_mut (b : Nat) (s : State) : Upd [.latch, .cyc, .rings, .inp, .cle, .vdr, .stk, .saf, .gnb, .cam, .fen, .arb, .fus, .yld, .bus, .eth, .pair, .pnl, .rcd, .upd] none s (State.blockWiped b s) := by
  unfold State.blockWiped
  repeat' first
    | (extract_lets +onlyGivenNames x; refine Upd.cut (P := [.latch, .cyc, .rings, .inp, .cle, .vdr, .stk, .saf, .gnb, .cam, .fen, .arb, .fus, .yld, .bus, .eth, .pair, .pnl, .rcd, .upd]) (W := none) (s := s) (x := x) ?_ (fun hx => ?_); rotate_left; clear_value x; rotate_left; subst x)
    | (extract_lets +onlyGivenNames x; subst x)
    | with_reducible assumption
    | with_reducible apply Upd.refl
    | (with_reducible apply Upd.comp (setReg_any ..) <;> first | decide | skip)
    | (with_reducible apply Upd.comp (State_pdetShow_mut ..) <;> first | decide | skip)
    | (with_reducible apply Upd.comp (State_wipeBlock_mut ..) <;> first | decide | skip)
    | (with_reducible apply Upd.comp (State_vdrWiped_mut ..) <;> first | decide | skip)
    | (with_reducible apply Upd.comp (State_arbRelease_mut ..) <;> first | decide | skip)
    | (with_reducible apply Upd.comp (State_arbWiped_mut ..) <;> first | decide | skip)
    | (with_reducible apply Upd.foldl <;> first | (intro y a ha hy; skip) | skip)
    | (with_reducible show Upd _ _ _ _; with_reducible rw [State.mk_box]; with_reducible apply Upd.box <;> first | (left; with_reducible rfl) | (right; decide) | skip)
    | split

theorem State_regionReset_mut (r : Nat) (s : State) : Upd [.latch, .cyc, .rings, .inp, .cle, .vdr, .stk, .saf, .gnb, .cam, .fen, .arb, .fus, .yld, .bus, .eth, .pair, .pnl, .rcd, .upd] none s (State.regionReset r s) := by
  unfold State.regionReset
  repeat' first
    | (extract_lets +onlyGivenNames x; refine Upd.cut (P := [.latch, .cyc, .rings, .inp, .cle, .vdr, .stk, .saf, .gnb, .cam, .fen, .arb, .fus, .yld, .bus, .eth, .pair, .pnl, .rcd, .upd]) (W := none) (s := s) (x := x) ?_ (fun hx => ?_); rotate_left; clear_value x; rotate_left; subst x)
    | (extract_lets +onlyGivenNames x; subst x)
    | with_reducible assumption
    | with_reducible apply Upd.refl
    | (with_reducible apply Upd.comp (State_blockWiped_mut ..) <;> first | decide | skip)
    | (with_reducible apply Upd.foldl <;> first | (intro y a ha hy; skip) | skip)
    | (with_reducible show Upd _ _ _ _; with_reducible rw [State.mk_box]; with_reducible apply Upd.box <;> first | (left; with_reducible rfl) | (right; decide) | skip)
    | split

/-- A fold of drops keeps the register file's canonical form. -/
theorem regsWf_drops (l : List Nat) {r : Tbl Word} (h : regsWf r = true) : regsWf (l.foldl (fun t b => dropWindow b t) r) = true := by
  induction l generalizing r with
  | nil => exact h
  | cons a l ih => exact ih (regsWf_filter h _)

theorem regsWf_puts {α : Type} (f : α → Nat) (g : α → Word) (l : List α) {r : Tbl Word} (h : regsWf r = true) :
    regsWf (l.foldl (fun t e => regsPut t (f e) (g e)) r) = true := by
  induction l generalizing r with
  | nil => exact h
  | cons a l ih => exact ih (regsWf_regsPut h _ _)

theorem regsDrops_mut (l : List Nat) (s : State) : Upd [] none s { s with regs := l.foldl (fun t b => dropWindow b t) s.regs } :=
  ⟨fun p _ => by cases p <;> rfl, fun a ha => absurd (fun l hl => by cases hl) ha, wf_of (regsWf_drops l) rfl rfl rfl, rfl, rfl⟩

theorem State_regionRegs_mut (r : Nat) (s : State) : Upd [] none s (State.regionRegs r s) := by
  unfold State.regionRegs
  have h := regsDrops_mut (blocksOf r) s
  dsimp only
  split
  · exact Upd.comp (set_any ..) (by decide) (by decide) h
  · exact Upd.comp (setReg_any ..) (by decide) (by decide) (Upd.comp (setReg_any ..) (by decide) (by decide) h)
  · exact Upd.comp (State_pdetShow_mut ..) (by decide) (by decide) h
  · exact h

theorem State_parkOff_mut (s : State) : Upd [.latch, .img, .cyc, .str, .rings, .inp, .cle, .vdr, .stk, .saf, .gnb, .cam, .fen, .arb, .fus, .yld, .bus, .eth, .pair, .pnl, .rcd, .upd] none s (State.parkOff s) := by
  unfold State.parkOff
  repeat' first
    | (extract_lets +onlyGivenNames x; refine Upd.cut (P := [.latch, .img, .cyc, .str, .rings, .inp, .cle, .vdr, .stk, .saf, .gnb, .cam, .fen, .arb, .fus, .yld, .bus, .eth, .pair, .pnl, .rcd, .upd]) (W := none) (s := s) (x := x) ?_ (fun hx => ?_); rotate_left; clear_value x; rotate_left; subst x)
    | (extract_lets +onlyGivenNames x; subst x)
    | with_reducible assumption
    | with_reducible apply Upd.refl
    | (with_reducible apply Upd.comp (setB_any ..) <;> first | decide | skip)
    | (with_reducible apply Upd.comp (State_blockWiped_mut ..) <;> first | decide | skip)
    | (with_reducible apply Upd.comp (set_any ..) <;> first | decide | skip)
    | (with_reducible apply Upd.comp (State_wipeBlock_mut ..) <;> first | decide | skip)
    | (with_reducible apply Upd.comp (State_unloadRegion_mut ..) <;> first | decide | skip)
    | (with_reducible apply Upd.comp (State_boostDischarge_mut ..) <;> first | decide | skip)
    | (with_reducible apply Upd.foldl <;> first | (intro y a ha hy; skip) | skip)
    | (with_reducible show Upd _ _ _ _; with_reducible rw [State.mk_box]; with_reducible apply Upd.box <;> first | (left; with_reducible rfl) | (right; decide) | skip)

theorem State_blockReset_mut (b : Nat) (s : State) : Upd [.latch, .cyc, .rings, .inp, .cle, .vdr, .stk, .saf, .gnb, .cam, .fen, .arb, .fus, .yld, .bus, .eth, .pair, .pnl, .rcd, .upd] none s (State.blockReset b s) := by
  unfold State.blockReset
  repeat' first
    | with_reducible apply Upd.refl
    | (with_reducible apply Upd.comp (State_blockWiped_mut ..) <;> first | decide | skip)

/-- The module's reset touches every part and keeps the canonical form. -/
theorem State_wipeModule_mut (s : State) : Upd [.ltc, .latch, .img, .access, .dram, .sys, .cyc, .str, .rings, .gens, .tms, .inp, .cle, .vdr, .stk, .saf, .gnb, .cam, .fen, .arb, .fus, .yld, .bus, .eth, .pair, .pnl, .rcd, .upd] none s (State.wipeModule s) := by
  have hd : State.reset.dram = [] := rfl
  refine ⟨fun p hp => by cases p <;> first | exact absurd (by decide) hp | (unfold State.same State.wipeModule; dsimp only), fun a ha => absurd (fun l hl => by cases hl) ha, ?_, ?_, ?_⟩
  · simp only [State.wf, Bool.and_eq_true]
    rintro ⟨⟨⟨_, _⟩, hm⟩, hu⟩
    exact ⟨⟨⟨by unfold State.wipeModule; exact regsWf_puts _ _ _ rfl, by unfold State.wipeModule; dsimp only; rw [hd]; rfl⟩, by unfold State.wipeModule; exact hm⟩,
      by unfold State.wipeModule; exact hu⟩
  · unfold State.wipeModule; with_reducible rfl
  · unfold State.wipeModule; with_reducible rfl

end Sys2Proof.Machine
end

