-- ==== Sys2Proof/Laws/MutStr.lean ====
section
/-! SUPPORT. What each operation of Machine/Str.lean may change (`Upd`): its parts of the state and its register windows. -/

namespace Sys2Proof.Machine

set_option Elab.async false
set_option linter.unusedSimpArgs false
set_option linter.unusedTactic false
set_option linter.unreachableTactic false
set_option linter.unnecessarySeqFocus false
set_option maxRecDepth 20000

theorem State_bootDone_mut (s : State) : Upd [.cyc, .str, .rcd] (some [0xC1, 0xC2]) s (State.bootDone s) := by
  unfold State.bootDone
  repeat' first
    | (extract_lets +onlyGivenNames x; refine Upd.cut (P := [.cyc, .str, .rcd]) (W := (some [0xC1, 0xC2])) (s := s) (x := x) ?_ (fun hx => ?_); rotate_left; clear_value x; rotate_left; subst x)
    | (extract_lets +onlyGivenNames x; subst x)
    | with_reducible assumption
    | with_reducible apply Upd.refl
    | (with_reducible apply State_setB_step (w := 0xC2); rotate_left; decide; simp only [windowOf, STR_STATUS, STR_STATUS.BOOT_DONE] <;> omega)
    | (with_reducible apply Upd.comp (State_raise_mut ..) <;> first | decide | skip)
    | (with_reducible show Upd _ _ _ _; with_reducible rw [State.mk_box]; with_reducible apply Upd.box <;> first | (left; with_reducible rfl) | (right; decide) | skip)

theorem State_reloadFail_mut (reason : Nat) (s : State) : Upd [.cyc, .rcd] (some [0xC1, 0xC2]) s (State.reloadFail reason s) := by
  unfold State.reloadFail
  repeat' first
    | with_reducible apply Upd.refl
    | (with_reducible apply State_set_step (w := 0xC2); rotate_left; decide; simp only [windowOf, STR_RLD_STAT, STR_RLD_STAT.REASON] <;> omega)
    | (with_reducible apply Upd.comp (State_raise_mut ..) <;> first | decide | skip)

theorem State_writeRldCtrl_mut (value : Sys2Proof.Word) (s : State) : Upd [.cyc, .str, .rcd] (some [0xC1, 0xC2]) s (State.writeRldCtrl value s) := by
  unfold State.writeRldCtrl
  repeat' first
    | (extract_lets +onlyGivenNames x; refine Upd.cut (P := [.cyc, .str, .rcd]) (W := (some [0xC1, 0xC2])) (s := s) (x := x) ?_ (fun hx => ?_); rotate_left; clear_value x; rotate_left; subst x)
    | (extract_lets +onlyGivenNames x; subst x)
    | with_reducible assumption
    | with_reducible apply Upd.refl
    | (with_reducible apply State_setB_step (w := 0xC2); rotate_left; decide; simp only [windowOf, STR_RLD_CTRL, STR_RLD_CTRL.FORCE, STR_RLD_CTRL.REGION, STR_RLD_CTRL.SRC, STR_RLD_STAT, STR_RLD_STAT.BUSY, STR_RLD_STAT.PHASE] <;> omega)
    | (with_reducible apply Upd.comp (State_reloadFail_mut ..) <;> first | decide | skip)
    | (with_reducible apply State_set_step (w := 0xC2); rotate_left; decide; simp only [windowOf, STR_RLD_CTRL, STR_RLD_CTRL.FORCE, STR_RLD_CTRL.REGION, STR_RLD_CTRL.SRC, STR_RLD_STAT, STR_RLD_STAT.BUSY, STR_RLD_STAT.PHASE] <;> omega)
    | (with_reducible show Upd _ _ _ _; with_reducible rw [State.mk_box]; with_reducible apply Upd.box <;> first | (left; with_reducible rfl) | (right; decide) | skip)
    | split

theorem State_reloadOver_mut (s : State) : Upd [.str] (some [0xC2]) s (State.reloadOver s) := by
  unfold State.reloadOver
  repeat' first
    | (extract_lets +onlyGivenNames x; subst x)
    | with_reducible apply Upd.refl
    | (with_reducible apply State_setB_step (w := 0xC2); rotate_left; decide; simp only [windowOf, STR_RLD_STAT, STR_RLD_STAT.BUSY, STR_RLD_STAT.PHASE] <;> omega)
    | (with_reducible apply State_set_step (w := 0xC2); rotate_left; decide; simp only [windowOf, STR_RLD_STAT, STR_RLD_STAT.BUSY, STR_RLD_STAT.PHASE] <;> omega)
    | (with_reducible show Upd _ _ _ _; with_reducible rw [State.mk_box]; with_reducible apply Upd.box <;> first | (left; with_reducible rfl) | (right; decide) | skip)

theorem execReloadLoadEnd_mut (readErr : Bool) (s : State) : OutUpd [.img, .cyc, .str, .rcd] (some [0xC1, 0xC2]) s (execReloadLoadEnd readErr s) := by
  unfold execReloadLoadEnd
  repeat' first
    | (extract_lets +onlyGivenNames x; refine Upd.cut (P := [.img, .cyc, .str, .rcd]) (W := (some [0xC1, 0xC2])) (s := s) (x := x) ?_ (fun hx => ?_); rotate_left; clear_value x; rotate_left; subst x)
    | (extract_lets +onlyGivenNames x; subst x)
    | with_reducible assumption
    | with_reducible apply Upd.refl
    | with_reducible apply OutUpd.next
    | (with_reducible apply Upd.comp (State_reloadFail_mut ..) <;> first | decide | skip)
    | (with_reducible apply State_set_step (w := 0xC2); rotate_left; decide; simp only [windowOf, STR_RLD_STAT, STR_RLD_STAT.PHASE] <;> omega)
    | (with_reducible apply Upd.comp (State_reloadOver_mut ..) <;> first | decide | skip)
    | (with_reducible apply Upd.comp (State_unloadRegion_mut ..) <;> first | decide | skip)
    | (with_reducible show Upd _ _ _ _; with_reducible rw [State.mk_box]; with_reducible apply Upd.box <;> first | (left; with_reducible rfl) | (right; decide) | skip)
    | split

theorem execCfgCorr_mut (s : State) : OutUpd [.cyc, .rcd] (some [0xC1, 0xC2]) s (execCfgCorr s) := by
  unfold execCfgCorr
  repeat' first
    | with_reducible apply Upd.refl
    | with_reducible apply OutUpd.next
    | (with_reducible apply State_bump_step (w := 0xC2); rotate_left; decide; simp only [windowOf, STR_SCRUB_CNT, STR_SCRUB_CNT.CORR] <;> omega)
    | (with_reducible apply Upd.comp (State_raise_mut ..) <;> first | decide | skip)

theorem State_reconf_mut (r : Nat) (s : State) : Upd [.cyc, .rcd] (some [0xC0, 0xC1, 0xC2]) s (State.reconf r s) := by
  unfold State.reconf
  repeat' first
    | with_reducible apply Upd.refl
    | (with_reducible apply State_bump_step (w := 0xC2); rotate_left; decide; simp only [windowOf, STR_RECONF_CNT, STR_RECONF_CNT.COUNT, SYS_DET_STATUS, SYS_DET_STATUS.RECONF] <;> omega)
    | (with_reducible apply State_detViol_step; rotate_left; decide; decide; simp only [windowOf, Fld.addr, SYS_DET_STATUS, SYS_DET_STATUS.RECONF, SYS_DET_STATUS.REC_LATE, SYS_DET_STATUS.YLD_LATE, SYS_DET_STATUS.GNB_STEER, SYS_DET_STATUS.FUS_LATE, SYS_DET_STATUS.STK_LATE, SYS_DET_STATUS.CLE_COEF, SYS_DET_STATUS.CLE_LATE])
    | split

theorem State_bootFail_mut (region : Option Nat) (reason : Nat) (s : State) : Upd [.cyc, .rcd] (some [0xC1, 0xC2]) s (State.bootFail region reason s) := by
  unfold State.bootFail
  repeat' first
    | (extract_lets +onlyGivenNames x; refine Upd.cut (P := [.cyc, .rcd]) (W := (some [0xC1, 0xC2])) (s := s) (x := x) ?_ (fun hx => ?_); rotate_left; clear_value x; rotate_left; subst x)
    | with_reducible assumption
    | with_reducible apply Upd.refl
    | (with_reducible apply State_set_step (w := 0xC2); rotate_left; decide; simp only [windowOf, STR_RLD_STAT, STR_RLD_STAT.REASON, STR_RLD_STAT.REGION] <;> omega)
    | (with_reducible apply Upd.comp (State_raise_mut ..) <;> first | decide | skip)
    | split

theorem State_bootStart_mut (want : Nat) (readErr : Bool) (s : State) : Upd [.cyc, .str, .rcd] (some [0xC1, 0xC2]) s (State.bootStart want readErr s) := by
  unfold State.bootStart
  repeat' first
    | (extract_lets +onlyGivenNames x; refine Upd.cut (P := [.cyc, .str, .rcd]) (W := (some [0xC1, 0xC2])) (s := s) (x := x) ?_ (fun hx => ?_); rotate_left; clear_value x; rotate_left; subst x)
    | (extract_lets +onlyGivenNames x; subst x)
    | with_reducible assumption
    | with_reducible apply Upd.refl
    | (with_reducible apply State_set_step (w := 0xC2); rotate_left; decide; simp only [windowOf, STR_STATUS, STR_STATUS.BUSY] <;> omega)
    | (with_reducible apply Upd.comp (State_bootFail_mut ..) <;> first | decide | skip)
    | (with_reducible apply Upd.comp (State_bootDone_mut ..) <;> first | decide | skip)
    | (with_reducible show Upd _ _ _ _; with_reducible rw [State.mk_box]; with_reducible apply Upd.box <;> first | (left; with_reducible rfl) | (right; decide) | skip)
    | split

theorem execCfgUncorr_mut (region : Fin 9) (s : State) : OutUpd [.latch, .img, .cyc, .str, .rings, .inp, .cle, .vdr, .stk, .saf, .gnb, .cam, .fen, .arb, .fus, .yld, .bus, .eth, .pair, .pnl, .rcd, .upd] none s (execCfgUncorr region s) := by
  unfold execCfgUncorr
  repeat' first
    | (extract_lets +onlyGivenNames x; refine Upd.cut (P := [.latch, .img, .cyc, .str, .rings, .inp, .cle, .vdr, .stk, .saf, .gnb, .cam, .fen, .arb, .fus, .yld, .bus, .eth, .pair, .pnl, .rcd, .upd]) (W := none) (s := s) (x := x) ?_ (fun hx => ?_); rotate_left; clear_value x; rotate_left; subst x)
    | (extract_lets +onlyGivenNames x; subst x)
    | with_reducible assumption
    | with_reducible apply Upd.refl
    | with_reducible apply OutUpd.next
    | (with_reducible apply Upd.comp (setB_any ..) <;> first | decide | skip)
    | (with_reducible apply Upd.comp (State_regionReset_mut ..) <;> first | decide | skip)
    | (with_reducible apply Upd.comp (State_reconf_mut ..) <;> first | decide | skip)
    | (with_reducible apply Upd.comp (State_raise_mut ..) <;> first | decide | skip)
    | (with_reducible apply Upd.comp (State_unloadRegion_mut ..) <;> first | decide | skip)
    | split

theorem execReloadBind_mut (caps : List (Nat × Sys2Proof.Word)) (s : State) : OutUpd [.img, .cyc, .str, .rcd] none s (execReloadBind caps s) := by
  unfold execReloadBind
  repeat' first
    | (extract_lets +onlyGivenNames x; refine Upd.cut (P := [.img, .cyc, .str, .rcd]) (W := none) (s := s) (x := x) ?_ (fun hx => ?_); rotate_left; clear_value x; rotate_left; subst x)
    | (extract_lets +onlyGivenNames x; subst x)
    | with_reducible assumption
    | with_reducible apply Upd.refl
    | with_reducible apply OutUpd.next
    | (with_reducible apply Upd.comp (State_clearUpdPend_mut ..) <;> first | decide | skip)
    | (with_reducible apply Upd.comp (State_reloadFail_mut ..) <;> first | decide | skip)
    | (with_reducible apply Upd.comp (set_any ..) <;> first | decide | skip)
    | (with_reducible apply Upd.comp (State_connectRegion_mut ..) <;> first | decide | skip)
    | (with_reducible apply Upd.comp (State_reloadOver_mut ..) <;> first | decide | skip)
    | (with_reducible apply Upd.comp (State_raise_mut ..) <;> first | decide | skip)
    | (with_reducible apply Upd.comp (State_unloadRegion_mut ..) <;> first | decide | skip)
    | (with_reducible apply Upd.comp (State_regionRegs_mut ..) <;> first | decide | skip)
    | split

theorem execReloadStopEnd_mut (s : State) : OutUpd [] (some [0xC2]) s (execReloadStopEnd s) := by
  unfold execReloadStopEnd
  repeat' first
    | with_reducible apply Upd.refl
    | with_reducible apply OutUpd.next
    | (with_reducible apply State_set_step (w := 0xC2); rotate_left; decide; simp only [windowOf, STR_RLD_STAT, STR_RLD_STAT.PHASE] <;> omega)
    | split

theorem execStartRegionLoadEnd_mut (readErr : Bool) (caps : List (Nat × Sys2Proof.Word)) (s : State) : OutUpd [.img, .cyc, .str, .rcd] none s (execStartRegionLoadEnd readErr caps s) := by
  unfold execStartRegionLoadEnd
  repeat' first
    | (extract_lets +onlyGivenNames x; refine Upd.cut (P := [.img, .cyc, .str, .rcd]) (W := none) (s := s) (x := x) ?_ (fun hx => ?_); rotate_left; clear_value x; rotate_left; subst x)
    | (extract_lets +onlyGivenNames x; subst x)
    | with_reducible assumption
    | with_reducible apply Upd.refl
    | with_reducible apply OutUpd.next
    | (with_reducible apply Upd.comp (State_clearUpdPend_mut ..) <;> first | decide | skip)
    | (with_reducible apply Upd.comp (State_connectRegion_mut ..) <;> first | decide | skip)
    | (with_reducible apply Upd.comp (State_regionRegs_mut ..) <;> first | decide | skip)
    | (with_reducible apply Upd.comp (State_bootFail_mut ..) <;> first | decide | skip)
    | (with_reducible apply Upd.comp (State_bootDone_mut ..) <;> first | decide | skip)
    | (with_reducible apply Upd.comp (State_setBusy_mut ..) <;> first | decide | skip)
    | (with_reducible show Upd _ _ _ _; with_reducible rw [State.mk_box]; with_reducible apply Upd.box <;> first | (left; with_reducible rfl) | (right; decide) | skip)
    | split

theorem execReloadCheckEnd_mut (readErr : Bool) (s : State) : OutUpd [.latch, .cyc, .str, .rings, .inp, .cle, .vdr, .stk, .saf, .gnb, .cam, .fen, .arb, .fus, .yld, .bus, .eth, .pair, .pnl, .rcd, .upd] none s (execReloadCheckEnd readErr s) := by
  unfold execReloadCheckEnd
  repeat' first
    | (extract_lets +onlyGivenNames x; refine Upd.cut (P := [.latch, .cyc, .str, .rings, .inp, .cle, .vdr, .stk, .saf, .gnb, .cam, .fen, .arb, .fus, .yld, .bus, .eth, .pair, .pnl, .rcd, .upd]) (W := none) (s := s) (x := x) ?_ (fun hx => ?_); rotate_left; clear_value x; rotate_left; subst x)
    | (extract_lets +onlyGivenNames x; subst x)
    | with_reducible assumption
    | with_reducible apply Upd.refl
    | with_reducible apply OutUpd.next
    | (with_reducible apply Upd.comp (State_regionReset_mut ..) <;> first | decide | skip)
    | (with_reducible apply Upd.comp (State_setLoaded_mut ..) <;> first | decide | skip)
    | (with_reducible apply Upd.comp (State_reconf_mut ..) <;> first | decide | skip)
    | (with_reducible apply Upd.comp (State_reloadFail_mut ..) <;> first | decide | skip)
    | (with_reducible apply Upd.comp (set_any ..) <;> first | decide | skip)
    | (with_reducible apply Upd.comp (State_reloadOver_mut ..) <;> first | decide | skip)
    | (with_reducible apply Upd.comp (State_raise_mut ..) <;> first | decide | skip)
    | (with_reducible apply Upd.comp (State_setBusy_mut ..) <;> first | decide | skip)
    | (with_reducible show Upd _ _ _ _; with_reducible rw [State.mk_box]; with_reducible apply Upd.box <;> first | (left; with_reducible rfl) | (right; decide) | skip)
    | split

end Sys2Proof.Machine
end

