-- ==== Sys2Proof/Laws/MutSys.lean ====
section
/-! SUPPORT. What each operation of Machine/Sys.lean may change (`Upd`): its parts of the state and its register windows. -/

namespace Sys2Proof.Machine

set_option Elab.async false
set_option linter.unusedSimpArgs false
set_option linter.unusedTactic false
set_option linter.unreachableTactic false
set_option linter.unnecessarySeqFocus false
set_option maxRecDepth 20000

theorem State_fallBack_mut (s : State) : Upd [.nv] (some [0xD3]) s (State.fallBack s) := by
  unfold State.fallBack
  repeat' first
    | (extract_lets +onlyGivenNames x; subst x)
    | with_reducible apply Upd.refl
    | (with_reducible apply State_setB_step (w := 0xD3); rotate_left; decide; simp only [windowOf, UPD_STAT, UPD_STAT.FELLBACK] <;> omega)
    | (with_reducible show Upd _ _ _ _; with_reducible rw [State.mk_box]; with_reducible apply Upd.box <;> first | (left; with_reducible rfl) | (right; decide) | skip)

theorem State_resolveSlot_mut (s : State) : Upd [.nv] (some [0xD3]) s (State.resolveSlot s) := by
  unfold State.resolveSlot
  repeat' first
    | (extract_lets +onlyGivenNames x; subst x)
    | with_reducible apply Upd.refl
    | (with_reducible apply Upd.comp (State_fallBack_mut ..) <;> first | decide | skip)
    | (with_reducible show Upd _ _ _ _; with_reducible rw [State.mk_box]; with_reducible apply Upd.box <;> first | (left; with_reducible rfl) | (right; decide) | skip)
    | split

theorem State_powerEntry_mut (standby : Bool) (s : State) : Upd [.dram, .mram, .sys, .ka, .cyc, .rings, .vdr, .stk, .saf, .arb, .pnl, .rcd, .upd] (some [0xC0, 0xC1, 0xC6, 0xC7, 0xCB, 0xD1, 0xD2, 0xD3, 0xD4]) s (State.powerEntry standby s) := by
  unfold State.powerEntry
  repeat' first
    | (extract_lets +onlyGivenNames x; refine Upd.cut (P := [.dram, .mram, .sys, .ka, .cyc, .rings, .vdr, .stk, .saf, .arb, .pnl, .rcd, .upd]) (W := (some [0xC0, 0xC1, 0xC6, 0xC7, 0xCB, 0xD1, 0xD2, 0xD3, 0xD4])) (s := s) (x := x) ?_ (fun hx => ?_); rotate_left; clear_value x; rotate_left; subst x)
    | (extract_lets +onlyGivenNames x; subst x)
    | with_reducible assumption
    | with_reducible apply Upd.refl
    | (with_reducible apply Upd.comp (State_safReleaseAll_mut ..) <;> first | decide | skip)
    | (with_reducible apply Upd.comp (State_strokesStop_mut ..) <;> first | decide | skip)
    | (with_reducible apply State_setB_step (w := 0xC0); rotate_left; decide; simp only [windowOf, KA_FLAGS, SYS_PWR_STAT, SYS_PWR_STAT.BUSY, SYS_PWR_STAT.REASON] <;> omega)
    | (with_reducible apply Upd.comp (State_vdrBoostStop_mut ..) <;> first | decide | skip)
    | (with_reducible apply Upd.comp (State_vdrEndDecayAll_mut ..) <;> first | decide | skip)
    | (with_reducible apply State_set_step (w := 0xC0); rotate_left; decide; simp only [windowOf, KA_FLAGS, SYS_PWR_STAT, SYS_PWR_STAT.BUSY, SYS_PWR_STAT.REASON] <;> omega)
    | (with_reducible apply State_set_step (w := 0xD4); rotate_left; decide; simp only [windowOf, KA_FLAGS, SYS_PWR_STAT, SYS_PWR_STAT.BUSY, SYS_PWR_STAT.REASON] <;> omega)
    | (with_reducible apply Upd.comp (State_pnlPark_mut ..) <;> first | decide | skip)
    | (with_reducible apply Upd.comp (State_raise_mut ..) <;> first | decide | skip)
    | (with_reducible apply Upd.comp (State_updAbandon_mut ..) <;> first | decide | skip)
    | (with_reducible apply Upd.comp (State_recPark_mut ..) <;> first | decide | skip)
    | (with_reducible show Upd _ _ _ _; with_reducible rw [State.mk_box]; with_reducible apply Upd.box <;> first | (left; with_reducible rfl) | (right; decide) | skip)
    | split

theorem State_lifeCycleGesso_mut (s : State) : Upd [.mram, .ufs, .nv] (some []) s (State.lifeCycleGesso s) := by
  unfold State.lifeCycleGesso
  repeat' first
    | (extract_lets +onlyGivenNames x; subst x)
    | with_reducible apply Upd.refl
    | (with_reducible show Upd _ _ _ _; with_reducible rw [State.mk_box]; with_reducible apply Upd.box <;> first | (left; with_reducible rfl) | (right; decide) | exact .inr ⟨by decide, fun hm => memWf_filter hm _⟩ | exact .inr ⟨by decide, fun _ => rfl⟩ | skip)
    | split

theorem execRunEntry_mut (s : State) : OutUpd [.sys] (some []) s (execRunEntry s) := by
  unfold execRunEntry
  repeat' first
    | (extract_lets +onlyGivenNames x; subst x)
    | with_reducible apply Upd.refl
    | with_reducible apply OutUpd.next
    | (with_reducible show Upd _ _ _ _; with_reducible rw [State.mk_box]; with_reducible apply Upd.box <;> first | (left; with_reducible rfl) | (right; decide) | skip)
    | split

theorem State_recordCold_mut (s : State) : Upd [] (some [0xC0]) s (State.recordCold s) := by
  unfold State.recordCold
  repeat' first
    | with_reducible apply Upd.refl
    | (with_reducible apply State_setB_step (w := 0xC0); rotate_left; decide; simp only [windowOf, SYS_RST_CAUSE, SYS_RST_CAUSE.KA_LOSS, SYS_RST_CAUSE.LAST, SYS_RST_CAUSE.POR, SYS_RST_CAUSE.STBY_EXIT] <;> omega)
    | (with_reducible apply State_setReg_step (w := 0xC0); rotate_left; decide; simp only [windowOf, SYS_RST_CAUSE, SYS_RST_CAUSE.KA_LOSS, SYS_RST_CAUSE.LAST, SYS_RST_CAUSE.POR, SYS_RST_CAUSE.STBY_EXIT] <;> omega)
    | (with_reducible apply State_set_step (w := 0xC0); rotate_left; decide; simp only [windowOf, SYS_RST_CAUSE, SYS_RST_CAUSE.KA_LOSS, SYS_RST_CAUSE.LAST, SYS_RST_CAUSE.POR, SYS_RST_CAUSE.STBY_EXIT] <;> omega)
    | split

theorem State_recordModule_mut (s : State) : Upd [] (some [0xC0]) s (State.recordModule s) := by
  unfold State.recordModule
  repeat' first
    | (extract_lets +onlyGivenNames x; refine Upd.cut (P := []) (W := (some [0xC0])) (s := s) (x := x) ?_ (fun hx => ?_); rotate_left; clear_value x; rotate_left; subst x)
    | (extract_lets +onlyGivenNames x; subst x)
    | with_reducible assumption
    | with_reducible apply Upd.refl
    | (with_reducible apply State_setReg_step (w := 0xC0); rotate_left; decide; simp only [windowOf, SYS_RST_CAUSE, SYS_RST_CAUSE.LAST] <;> omega)
    | (with_reducible apply State_set_step (w := 0xC0); rotate_left; decide; simp only [windowOf, SYS_RST_CAUSE, SYS_RST_CAUSE.LAST] <;> omega)

theorem State_settingsCheck_mut (s : State) : Upd [.mram] (some [0xD3]) s (State.settingsCheck s) := by
  unfold State.settingsCheck
  repeat' first
    | (extract_lets +onlyGivenNames x; subst x)
    | with_reducible apply Upd.refl
    | (with_reducible apply State_setB_step (w := 0xD3); rotate_left; decide; simp only [windowOf, UPD_STAT, UPD_STAT.SET_RESET] <;> omega)
    | (with_reducible show Upd _ _ _ _; with_reducible rw [State.mk_box]; with_reducible apply Upd.box <;> first | (left; with_reducible rfl) | (right; decide) | skip)
    | split
    | exact .inr ⟨by decide, fun hm => memWf_memPuts (memWf_memZero hm _ _) _ _⟩

theorem State_supplyFlag_mut {w : Nat} (f : Fld) (s : State) (h : windowOf f.addr = w) : Upd [.rcd, .cyc] (some [w, 0xC1]) s (State.supplyFlag f s) := by
  unfold State.supplyFlag
  exact Upd.ite (Upd.refl s) (((State_setB_mut _ _ s h).mono rfl (by simp [winSub])).trans ((State_raise_mut _ _).mono rfl (by simp [winSub])))
theorem State_supplyFlag_step {P : List Comp} {W : Option (List Nat)} {s x : State} {w : Nat} {f : Fld} (h0 : Upd P W s x)
    (hp : ([.rcd, .cyc] : List Comp).all (P.contains ·) = true) (hw : winSub (some [w, 0xC1]) W = true) (h : windowOf f.addr = w) : Upd P W s (State.supplyFlag f x) :=
  (State_supplyFlag_mut f x h).comp hp hw h0

theorem State_phase2End_mut (cold : Bool) (module : Bool) (s : State) : Upd [.ltc, .mram, .free, .sys, .ka, .cyc, .nv, .rcd] (some [0xC0, 0xC1, 0xD3, 0xD4]) s (State.phase2End cold module s) := by
  unfold State.phase2End
  repeat' first
    | (extract_lets +onlyGivenNames x; refine Upd.cut (P := [.ltc, .mram, .free, .sys, .ka, .cyc, .nv, .rcd]) (W := (some [0xC0, 0xC1, 0xD3, 0xD4])) (s := s) (x := x) ?_ (fun hx => ?_); rotate_left; clear_value x; rotate_left; subst x)
    | (extract_lets +onlyGivenNames x; subst x)
    | with_reducible assumption
    | with_reducible apply Upd.refl
    | (with_reducible apply Upd.comp (State_resolveSlot_mut ..) <;> first | decide | skip)
    | (with_reducible apply State_setReg_step (w := 0xD4); rotate_left; decide; simp only [windowOf, KA_PWRCYC, SYS_SUPPLY, SYS_SUPPLY.VKA_LOW] <;> omega)
    | (with_reducible apply State_supplyFlag_step (w := 0xC0); rotate_left; decide; decide; simp only [windowOf, KA_PWRCYC, SYS_SUPPLY, SYS_SUPPLY.VKA_LOW] <;> omega)
    | (with_reducible apply Upd.comp (State_recordCold_mut ..) <;> first | decide | skip)
    | (with_reducible apply Upd.comp (State_newNonce_mut ..) <;> first | decide | skip)
    | (with_reducible apply Upd.comp (State_recordModule_mut ..) <;> first | decide | skip)
    | (with_reducible apply Upd.comp (State_settingsCheck_mut ..) <;> first | decide | skip)
    | (with_reducible show Upd _ _ _ _; with_reducible rw [State.mk_box]; with_reducible apply Upd.box <;> first | (left; with_reducible rfl) | (right; decide) | skip)
    | split

theorem execVlvSupplyReturn_mut (s : State) : OutUpd [.vdr] (some [0xC0]) s (execVlvSupplyReturn s) := by
  unfold execVlvSupplyReturn
  repeat' first
    | with_reducible apply Upd.refl
    | with_reducible apply OutUpd.next
    | (with_reducible apply State_setB_step (w := 0xC0); rotate_left; decide; simp only [windowOf, SYS_SUPPLY, SYS_SUPPLY.VLV_OK] <;> omega)
    | (with_reducible apply Upd.comp (State_vdrSupplyReturn_mut ..) <;> first | decide | skip)

theorem execDramReady_mut (s : State) : OutUpd [.sys] (some []) s (execDramReady s) := by
  unfold execDramReady
  repeat' first
    | (extract_lets +onlyGivenNames x; subst x)
    | with_reducible apply Upd.refl
    | with_reducible apply OutUpd.next
    | (with_reducible show Upd _ _ _ _; with_reducible rw [State.mk_box]; with_reducible apply Upd.box <;> first | (left; with_reducible rfl) | (right; decide) | skip)
    | split

theorem State_restartPhase3_mut (s : State) : Upd [.latch, .img, .mram, .sys, .cyc, .str, .rings, .nv, .inp, .cle, .vdr, .stk, .saf, .gnb, .cam, .fen, .arb, .fus, .yld, .bus, .eth, .pair, .pnl, .rcd, .upd] none s (State.restartPhase3 s) := by
  unfold State.restartPhase3
  repeat' first
    | (extract_lets +onlyGivenNames x; refine Upd.cut (P := [.latch, .img, .mram, .sys, .cyc, .str, .rings, .nv, .inp, .cle, .vdr, .stk, .saf, .gnb, .cam, .fen, .arb, .fus, .yld, .bus, .eth, .pair, .pnl, .rcd, .upd]) (W := none) (s := s) (x := x) ?_ (fun hx => ?_); rotate_left; clear_value x; rotate_left; subst x)
    | (extract_lets +onlyGivenNames x; subst x)
    | with_reducible assumption
    | with_reducible apply Upd.refl
    | (with_reducible apply Upd.comp (setB_any ..) <;> first | decide | skip)
    | (with_reducible apply Upd.comp (State_blockWiped_mut ..) <;> first | decide | skip)
    | (with_reducible apply Upd.comp (set_any ..) <;> first | decide | skip)
    | (with_reducible apply Upd.comp (State_fallBack_mut ..) <;> first | decide | skip)
    | (with_reducible apply Upd.comp (State_unloadRegion_mut ..) <;> first | decide | skip)
    | (with_reducible apply Upd.comp (State_settingsCheck_mut ..) <;> first | decide | skip)
    | (with_reducible apply Upd.foldl <;> first | (intro y a ha hy; skip) | skip)
    | (with_reducible show Upd _ _ _ _; with_reducible rw [State.mk_box]; with_reducible apply Upd.box <;> first | (left; with_reducible rfl) | (right; decide) | skip)

theorem execResetHoldEnd_mut (s : State) : OutUpd [.sys] (some []) s (execResetHoldEnd s) := by
  unfold execResetHoldEnd
  repeat' first
    | (extract_lets +onlyGivenNames x; subst x)
    | with_reducible apply Upd.refl
    | with_reducible apply OutUpd.next
    | (with_reducible show Upd _ _ _ _; with_reducible rw [State.mk_box]; with_reducible apply Upd.box <;> first | (left; with_reducible rfl) | (right; decide) | skip)
    | split

theorem execVsupUndervoltage_mut (mv : Nat) (s : State) : OutUpd [.free, .sys, .cyc, .saf, .rcd] (some [0xC0, 0xC1, 0xC7]) s (execVsupUndervoltage mv s) := by
  unfold execVsupUndervoltage
  repeat' first
    | with_reducible apply Upd.refl
    | with_reducible apply OutUpd.next
    | (with_reducible apply State_setB_step (w := 0xC0); rotate_left; decide; simp only [windowOf, SYS_SUPPLY, SYS_SUPPLY.UV, SYS_SUPPLY.UV_WARN, SYS_SUPPLY.VSUP_MV] <;> omega)
    | (with_reducible apply State_set_step (w := 0xC0); rotate_left; decide; simp only [windowOf, SYS_SUPPLY, SYS_SUPPLY.UV, SYS_SUPPLY.UV_WARN, SYS_SUPPLY.VSUP_MV] <;> omega)
    | (with_reducible apply Upd.comp (State_safSupplyWarn_mut ..) <;> first | decide | skip)
    | (with_reducible apply State_supplyFlag_step (w := 0xC0); rotate_left; decide; decide; simp only [windowOf, SYS_SUPPLY, SYS_SUPPLY.UV, SYS_SUPPLY.UV_WARN, SYS_SUPPLY.VSUP_MV] <;> omega)

theorem execVkaLow_mut (s : State) : OutUpd [.ka] (some []) s (execVkaLow s) := by
  unfold execVkaLow
  repeat' first
    | (extract_lets +onlyGivenNames x; subst x)
    | with_reducible apply Upd.refl
    | with_reducible apply OutUpd.next
    | (with_reducible show Upd _ _ _ _; with_reducible rw [State.mk_box]; with_reducible apply Upd.box <;> first | (left; with_reducible rfl) | (right; decide) | skip)
    | split

theorem execGessoDone_mut (readErr : Bool) (s : State) : OutUpd [.dram, .mram, .ufs, .sys, .cyc, .str, .nv, .rcd] (some [0xC1, 0xC2]) s (execGessoDone readErr s) := by
  unfold execGessoDone
  repeat' first
    | (extract_lets +onlyGivenNames x; refine Upd.cut (P := [.dram, .mram, .ufs, .sys, .cyc, .str, .nv, .rcd]) (W := (some [0xC1, 0xC2])) (s := s) (x := x) ?_ (fun hx => ?_); rotate_left; clear_value x; rotate_left; subst x)
    | (extract_lets +onlyGivenNames x; subst x)
    | with_reducible assumption
    | with_reducible apply Upd.refl
    | with_reducible apply OutUpd.next
    | (with_reducible apply Upd.comp (State_bootStart_mut ..) <;> first | decide | skip)
    | (with_reducible apply Upd.comp (State_lifeCycleGesso_mut ..) <;> first | decide | skip)
    | (with_reducible show Upd _ _ _ _; with_reducible rw [State.mk_box]; with_reducible apply Upd.box <;> first | (left; with_reducible rfl) | (right; decide) | exact .inr ⟨by decide, fun _ => rfl⟩ | skip)
    | split

theorem State_leaveStandby_mut (s : State) : Upd [.ltc, .latch, .img, .access, .dram, .sys, .ka, .cyc, .str, .rings, .gens, .tms, .inp, .cle, .vdr, .stk, .saf, .gnb, .cam, .fen, .arb, .fus, .yld, .bus, .eth, .pair, .pnl, .rcd, .upd] none s (State.leaveStandby s) := by
  unfold State.leaveStandby
  repeat' first
    | (extract_lets +onlyGivenNames x; refine Upd.cut (P := [.ltc, .latch, .img, .access, .dram, .sys, .ka, .cyc, .str, .rings, .gens, .tms, .inp, .cle, .vdr, .stk, .saf, .gnb, .cam, .fen, .arb, .fus, .yld, .bus, .eth, .pair, .pnl, .rcd, .upd]) (W := none) (s := s) (x := x) ?_ (fun hx => ?_); rotate_left; clear_value x; rotate_left; subst x)
    | with_reducible assumption
    | with_reducible apply Upd.refl
    | (with_reducible apply Upd.comp (State_reloadKaCopy_mut ..) <;> first | decide | skip)
    | (with_reducible apply Upd.comp (State_wipeModule_mut ..) <;> first | decide | skip)
    | (with_reducible show Upd _ _ _ _; with_reducible rw [State.mk_box]; with_reducible apply Upd.box <;> first | (left; with_reducible rfl) | (right; decide) | skip)

theorem State_wakeSeen_mut (bit : Nat) (s : State) : Upd [.sys, .ka] (some [0xD4]) s (State.wakeSeen bit s) := by
  unfold State.wakeSeen
  repeat' first
    | (extract_lets +onlyGivenNames x; subst x)
    | with_reducible apply Upd.refl
    | (with_reducible apply State_setB_step (w := 0xD4); rotate_left; decide; simp only [windowOf, KA_FLAGS] <;> omega)
    | (with_reducible show Upd _ _ _ _; with_reducible rw [State.mk_box]; with_reducible apply Upd.box <;> first | (left; with_reducible rfl) | (right; decide) | skip)

theorem execIgnEdge_mut (wakePin : Bool) (rise : Bool) (s : State) : OutUpd [.ltc, .latch, .img, .access, .dram, .sys, .ka, .cyc, .str, .rings, .gens, .tms, .inp, .cle, .vdr, .stk, .saf, .gnb, .cam, .fen, .arb, .fus, .yld, .bus, .eth, .pair, .pnl, .rcd, .upd] none s (execIgnEdge wakePin rise s) := by
  unfold execIgnEdge
  repeat' first
    | (extract_lets +onlyGivenNames x; refine Upd.cut (P := [.ltc, .latch, .img, .access, .dram, .sys, .ka, .cyc, .str, .rings, .gens, .tms, .inp, .cle, .vdr, .stk, .saf, .gnb, .cam, .fen, .arb, .fus, .yld, .bus, .eth, .pair, .pnl, .rcd, .upd]) (W := none) (s := s) (x := x) ?_ (fun hx => ?_); rotate_left; clear_value x; rotate_left; subst x)
    | with_reducible assumption
    | with_reducible apply Upd.refl
    | with_reducible apply OutUpd.next
    | (with_reducible apply Upd.comp (setB_any ..) <;> first | decide | skip)
    | (with_reducible apply Upd.comp (State_leaveStandby_mut ..) <;> first | decide | skip)
    | (with_reducible apply Upd.comp (State_raise_mut ..) <;> first | decide | skip)
    | (with_reducible apply Upd.comp (State_wakeSeen_mut ..) <;> first | decide | skip)
    | split

theorem execVlvSupplyLoss_mut (s : State) : OutUpd [.cyc, .vdr, .stk, .rcd] (some [0xC0, 0xC1, 0xC6]) s (execVlvSupplyLoss s) := by
  unfold execVlvSupplyLoss
  repeat' first
    | (extract_lets +onlyGivenNames x; refine Upd.cut (P := [.cyc, .vdr, .stk, .rcd]) (W := (some [0xC0, 0xC1, 0xC6])) (s := s) (x := x) ?_ (fun hx => ?_); rotate_left; clear_value x; rotate_left; subst x)
    | (extract_lets +onlyGivenNames x; subst x)
    | with_reducible assumption
    | with_reducible apply Upd.refl
    | with_reducible apply OutUpd.next
    | (with_reducible apply State_setB_step (w := 0xC0); rotate_left; decide; simp only [windowOf, SYS_SUPPLY, SYS_SUPPLY.VLV_LOSS, SYS_SUPPLY.VLV_OK] <;> omega)
    | (with_reducible apply Upd.comp (State_vdrSupplyLoss_mut ..) <;> first | decide | skip)
    | (with_reducible apply State_supplyFlag_step (w := 0xC0); rotate_left; decide; decide; simp only [windowOf, SYS_SUPPLY, SYS_SUPPLY.VLV_LOSS, SYS_SUPPLY.VLV_OK] <;> omega)
    | split

theorem State_wdtRestart_mut (s : State) : Upd [.sys] (some []) s (State.wdtRestart s) := by
  unfold State.wdtRestart
  repeat' first
    | (extract_lets +onlyGivenNames x; subst x)
    | with_reducible apply Upd.refl
    | (with_reducible show Upd _ _ _ _; with_reducible rw [State.mk_box]; with_reducible apply Upd.box <;> first | (left; with_reducible rfl) | (right; decide) | skip)

theorem execOscillatorsReady_mut (s : State) : OutUpd [.ltc, .mram, .free, .sys, .ka, .cyc, .nv, .rcd] (some [0xC0, 0xC1, 0xD3, 0xD4]) s (execOscillatorsReady s) := by
  unfold execOscillatorsReady
  repeat' first
    | with_reducible apply Upd.refl
    | with_reducible apply OutUpd.next
    | (with_reducible apply Upd.comp (State_phase2End_mut ..) <;> first | decide | skip)
    | split

theorem execParkExit_mut (readErr : Bool) (s : State) : OutUpd [.ltc, .latch, .img, .access, .dram, .sys, .cyc, .str, .rings, .gens, .tms, .inp, .cle, .vdr, .stk, .saf, .gnb, .cam, .fen, .arb, .fus, .yld, .bus, .eth, .pair, .pnl, .rcd, .upd] none s (execParkExit readErr s) := by
  unfold execParkExit
  repeat' first
    | (extract_lets +onlyGivenNames x; refine Upd.cut (P := [.ltc, .latch, .img, .access, .dram, .sys, .cyc, .str, .rings, .gens, .tms, .inp, .cle, .vdr, .stk, .saf, .gnb, .cam, .fen, .arb, .fus, .yld, .bus, .eth, .pair, .pnl, .rcd, .upd]) (W := none) (s := s) (x := x) ?_ (fun hx => ?_); rotate_left; clear_value x; rotate_left; subst x)
    | (extract_lets +onlyGivenNames x; subst x)
    | with_reducible assumption
    | with_reducible apply Upd.refl
    | with_reducible apply OutUpd.next
    | (with_reducible apply Upd.comp (setB_any ..) <;> first | decide | skip)
    | (with_reducible apply Upd.comp (set_any ..) <;> first | decide | skip)
    | (with_reducible apply Upd.comp (State_wipeModule_mut ..) <;> first | decide | skip)
    | (with_reducible apply Upd.comp (State_bootStart_mut ..) <;> first | decide | skip)
    | (with_reducible show Upd _ _ _ _; with_reducible rw [State.mk_box]; with_reducible apply Upd.box <;> first | (left; with_reducible rfl) | (right; decide) | skip)
    | split

theorem execWdtEarly_mut (s : State) : OutUpd [.sys, .cyc, .rcd] (some [0xC1]) s (execWdtEarly s) := by
  unfold execWdtEarly
  repeat' first
    | (extract_lets +onlyGivenNames x; subst x)
    | with_reducible apply Upd.refl
    | with_reducible apply OutUpd.next
    | (with_reducible apply Upd.comp (State_raise_mut ..) <;> first | decide | skip)
    | (with_reducible show Upd _ _ _ _; with_reducible rw [State.mk_box]; with_reducible apply Upd.box <;> first | (left; with_reducible rfl) | (right; decide) | skip)
    | split

theorem execIdleExit_mut (s : State) : OutUpd [.sys] (some []) s (execIdleExit s) := by
  unfold execIdleExit
  repeat' first
    | (extract_lets +onlyGivenNames x; subst x)
    | with_reducible apply Upd.refl
    | with_reducible apply OutUpd.next
    | (with_reducible show Upd _ _ _ _; with_reducible rw [State.mk_box]; with_reducible apply Upd.box <;> first | (left; with_reducible rfl) | (right; decide) | skip)
    | split

theorem execThermalUpdate_mut (tj : BitVec 12) (tbp : BitVec 12) (s : State) : OutUpd [.free, .sys, .cyc, .saf, .rcd] (some [0xC0, 0xC1, 0xC7]) s (execThermalUpdate tj tbp s) := by
  unfold execThermalUpdate
  repeat' first
    | (extract_lets +onlyGivenNames x; refine Upd.cut (P := [.free, .sys, .cyc, .saf, .rcd]) (W := (some [0xC0, 0xC1, 0xC7])) (s := s) (x := x) ?_ (fun hx => ?_); rotate_left; clear_value x; rotate_left; subst x)
    | (extract_lets +onlyGivenNames x; subst x)
    | with_reducible assumption
    | with_reducible apply Upd.refl
    | with_reducible apply OutUpd.next
    | (with_reducible apply State_setB_step (w := 0xC0); rotate_left; decide; simp only [windowOf, SYS_TEMP, SYS_TEMP.TBP, SYS_TEMP.THROTTLE, SYS_TEMP.TJ, SYS_TEMP.WARN] <;> omega)
    | (with_reducible apply Upd.comp (State_safTherm_mut ..) <;> first | decide | skip)
    | (with_reducible apply State_set_step (w := 0xC0); rotate_left; decide; simp only [windowOf, SYS_TEMP, SYS_TEMP.TBP, SYS_TEMP.THROTTLE, SYS_TEMP.TJ, SYS_TEMP.WARN] <;> omega)
    | (with_reducible apply Upd.comp (State_raise_mut ..) <;> first | decide | skip)
    | split

theorem execOpsecTick_mut (s : State) : OutUpd [.ka] (some [0xD4]) s (execOpsecTick s) := by
  unfold execOpsecTick
  repeat' first
    | (extract_lets +onlyGivenNames x; refine Upd.cut (P := [.ka]) (W := (some [0xD4])) (s := s) (x := x) ?_ (fun hx => ?_); rotate_left; clear_value x; rotate_left; subst x)
    | (extract_lets +onlyGivenNames x; subst x)
    | with_reducible assumption
    | with_reducible apply Upd.refl
    | with_reducible apply OutUpd.next
    | (with_reducible apply State_setReg_step (w := 0xD4); rotate_left; decide; simp only [windowOf, KA_OPSEC] <;> omega)
    | (with_reducible show Upd _ _ _ _; with_reducible rw [State.mk_box]; with_reducible apply Upd.box <;> first | (left; with_reducible rfl) | (right; decide) | skip)
    | split

theorem execSafetyDomainReady_mut (ok : Bool) (safe : List (Nat × Sys2Proof.Word)) (s : State) : OutUpd [.img, .free, .sys, .cyc, .str, .saf, .rcd] (some [0xC1, 0xC2, 0xC7, 0xD3]) s (execSafetyDomainReady ok safe s) := by
  unfold execSafetyDomainReady
  repeat' first
    | (extract_lets +onlyGivenNames x; refine Upd.cut (P := [.img, .free, .sys, .cyc, .str, .saf, .rcd]) (W := (some [0xC1, 0xC2, 0xC7, 0xD3])) (s := s) (x := x) ?_ (fun hx => ?_); rotate_left; clear_value x; rotate_left; subst x)
    | (extract_lets +onlyGivenNames x; subst x)
    | with_reducible assumption
    | with_reducible apply Upd.refl
    | with_reducible apply OutUpd.next
    | (with_reducible apply Upd.comp (State_setLoaded_mut ..) <;> first | decide | skip)
    | (with_reducible apply Upd.comp (State_clearUpdPend_mut ..) <;> first | decide | skip)
    | (with_reducible apply Upd.comp (State_publishIdentity_mut ..) <;> first | decide | skip)
    | (with_reducible apply Upd.comp (State_safStart_mut ..) <;> first | decide | skip)
    | (with_reducible show Upd _ _ _ _; with_reducible rw [State.mk_box]; with_reducible apply Upd.box <;> first | (left; with_reducible rfl) | (right; decide) | skip)
    | split

theorem execPllLock_mut (s : State) : OutUpd [.sys] (some []) s (execPllLock s) := by
  unfold execPllLock
  repeat' first
    | (extract_lets +onlyGivenNames x; subst x)
    | with_reducible apply Upd.refl
    | with_reducible apply OutUpd.next
    | (with_reducible show Upd _ _ _ _; with_reducible rw [State.mk_box]; with_reducible apply Upd.box <;> first | (left; with_reducible rfl) | (right; decide) | skip)
    | split

theorem State_writeBlkRst_mut (value : Sys2Proof.Word) (s : State) : Upd [.latch, .sys, .cyc, .rings, .inp, .cle, .vdr, .stk, .saf, .gnb, .cam, .fen, .arb, .fus, .yld, .bus, .eth, .pair, .pnl, .rcd, .upd] none s (State.writeBlkRst value s) := by
  unfold State.writeBlkRst
  repeat' first
    | (extract_lets +onlyGivenNames x; refine Upd.cut (P := [.latch, .sys, .cyc, .rings, .inp, .cle, .vdr, .stk, .saf, .gnb, .cam, .fen, .arb, .fus, .yld, .bus, .eth, .pair, .pnl, .rcd, .upd]) (W := none) (s := s) (x := x) ?_ (fun hx => ?_); rotate_left; clear_value x; rotate_left; subst x)
    | (extract_lets +onlyGivenNames x; subst x)
    | with_reducible assumption
    | with_reducible apply Upd.refl
    | (with_reducible apply Upd.comp (setB_any ..) <;> first | decide | skip)
    | (with_reducible apply Upd.comp (State_blockReset_mut ..) <;> first | decide | skip)
    | (with_reducible show Upd _ _ _ _; with_reducible rw [State.mk_box]; with_reducible apply Upd.box <;> first | (left; with_reducible rfl) | (right; decide) | skip)
    | split

theorem execKaWritePropagate_mut (s : State) : OutUpd [.ka] (some []) s (execKaWritePropagate s) := by
  unfold execKaWritePropagate
  repeat' first
    | (extract_lets +onlyGivenNames x; subst x)
    | with_reducible apply Upd.refl
    | with_reducible apply OutUpd.next
    | (with_reducible show Upd _ _ _ _; with_reducible rw [State.mk_box]; with_reducible apply Upd.box <;> first | (left; with_reducible rfl) | (right; decide) | skip)
    | split

theorem State_writeMirror_mut (s : State) : Upd [.ka, .nv] (some []) s (State.writeMirror s) := by
  unfold State.writeMirror
  repeat' first
    | (extract_lets +onlyGivenNames x; subst x)
    | with_reducible apply Upd.refl
    | (with_reducible show Upd _ _ _ _; with_reducible rw [State.mk_box]; with_reducible apply Upd.box <;> first | (left; with_reducible rfl) | (right; decide) | skip)

theorem State_assertModuleReset_mut (bit : Nat) (s : State) : Upd [.ltc, .latch, .img, .access, .dram, .sys, .cyc, .str, .rings, .gens, .tms, .inp, .cle, .vdr, .stk, .saf, .gnb, .cam, .fen, .arb, .fus, .yld, .bus, .eth, .pair, .pnl, .rcd, .upd] none s (State.assertModuleReset bit s) := by
  unfold State.assertModuleReset
  repeat' first
    | (extract_lets +onlyGivenNames x; refine Upd.cut (P := [.ltc, .latch, .img, .access, .dram, .sys, .cyc, .str, .rings, .gens, .tms, .inp, .cle, .vdr, .stk, .saf, .gnb, .cam, .fen, .arb, .fus, .yld, .bus, .eth, .pair, .pnl, .rcd, .upd]) (W := none) (s := s) (x := x) ?_ (fun hx => ?_); rotate_left; clear_value x; rotate_left; subst x)
    | (extract_lets +onlyGivenNames x; subst x)
    | with_reducible assumption
    | with_reducible apply Upd.refl
    | (with_reducible apply Upd.comp (State_wipeModule_mut ..) <;> first | decide | skip)
    | (with_reducible show Upd _ _ _ _; with_reducible rw [State.mk_box]; with_reducible apply Upd.box <;> first | (left; with_reducible rfl) | (right; decide) | skip)
    | split

theorem execNrstAssert_mut (s : State) : OutUpd [.ltc, .latch, .img, .access, .dram, .sys, .cyc, .str, .rings, .gens, .tms, .inp, .cle, .vdr, .stk, .saf, .gnb, .cam, .fen, .arb, .fus, .yld, .bus, .eth, .pair, .pnl, .rcd, .upd] none s (execNrstAssert s) := by
  unfold execNrstAssert
  repeat' first
    | with_reducible apply Upd.refl
    | with_reducible apply OutUpd.next
    | (with_reducible apply Upd.comp (State_assertModuleReset_mut ..) <;> first | decide | skip)

theorem execKaMirrorWrite_mut (s : State) : OutUpd [.ka, .nv] (some []) s (execKaMirrorWrite s) := by
  unfold execKaMirrorWrite
  repeat' first
    | with_reducible apply Upd.refl
    | with_reducible apply OutUpd.next
    | (with_reducible apply Upd.comp (State_writeMirror_mut ..) <;> first | decide | skip)
    | split

theorem execCanWake_mut (bus : Fin 2) (s : State) : OutUpd [.sys, .ka] (some [0xD4]) s (execCanWake bus s) := by
  unfold execCanWake
  repeat' first
    | with_reducible apply Upd.refl
    | with_reducible apply OutUpd.next
    | (with_reducible apply Upd.comp (State_wakeSeen_mut ..) <;> first | decide | skip)
    | split

theorem State_writePwrReq_mut (value : Sys2Proof.Word) (s : State) : Upd [.dram, .mram, .sys, .ka, .cyc, .rings, .vdr, .stk, .saf, .arb, .pnl, .rcd, .upd] (some [0xC0, 0xC1, 0xC6, 0xC7, 0xCB, 0xD1, 0xD2, 0xD3, 0xD4]) s (State.writePwrReq value s) := by
  unfold State.writePwrReq
  repeat' first
    | (extract_lets +onlyGivenNames x; subst x)
    | with_reducible apply Upd.refl
    | (with_reducible apply Upd.comp (State_powerEntry_mut ..) <;> first | decide | skip)
    | (with_reducible show Upd _ _ _ _; with_reducible rw [State.mk_box]; with_reducible apply Upd.box <;> first | (left; with_reducible rfl) | (right; decide) | skip)
    | split

theorem execKeepAliveLoss_mut (s : State) : OutUpd [.sys, .ka] (some [0xD4]) s (execKeepAliveLoss s) := by
  unfold execKeepAliveLoss
  repeat' first
    | (extract_lets +onlyGivenNames x; refine Upd.cut (P := [.sys, .ka]) (W := (some [0xD4])) (s := s) (x := x) ?_ (fun hx => ?_); rotate_left; clear_value x; rotate_left; subst x)
    | (extract_lets +onlyGivenNames x; subst x)
    | with_reducible assumption
    | with_reducible apply Upd.refl
    | with_reducible apply OutUpd.next
    | (with_reducible apply Upd.comp (State_reloadKaCopy_mut ..) <;> first | decide | skip)
    | (with_reducible show Upd _ _ _ _; with_reducible rw [State.mk_box]; with_reducible apply Upd.box <;> first | (left; with_reducible rfl) | (right; decide) | skip)
    | split

theorem execModuleResetRelease_mut (s : State) : OutUpd [.ltc, .mram, .free, .sys, .ka, .cyc, .nv, .rcd] (some [0xC0, 0xC1, 0xD3, 0xD4]) s (execModuleResetRelease s) := by
  unfold execModuleResetRelease
  repeat' first
    | with_reducible apply Upd.refl
    | with_reducible apply OutUpd.next
    | (with_reducible apply Upd.comp (State_phase2End_mut ..) <;> first | decide | skip)
    | split

theorem execVsupOvervoltage_mut (mv : Nat) (s : State) : OutUpd [.cyc, .rcd] (some [0xC0, 0xC1]) s (execVsupOvervoltage mv s) := by
  unfold execVsupOvervoltage
  repeat' first
    | with_reducible apply Upd.refl
    | with_reducible apply OutUpd.next
    | (with_reducible apply State_setB_step (w := 0xC0); rotate_left; decide; simp only [windowOf, SYS_SUPPLY, SYS_SUPPLY.OV, SYS_SUPPLY.OV_WARN, SYS_SUPPLY.VSUP_MV] <;> omega)
    | (with_reducible apply State_set_step (w := 0xC0); rotate_left; decide; simp only [windowOf, SYS_SUPPLY, SYS_SUPPLY.OV, SYS_SUPPLY.OV_WARN, SYS_SUPPLY.VSUP_MV] <;> omega)
    | (with_reducible apply State_supplyFlag_step (w := 0xC0); rotate_left; decide; decide; simp only [windowOf, SYS_SUPPLY, SYS_SUPPLY.OV, SYS_SUPPLY.OV_WARN, SYS_SUPPLY.VSUP_MV] <;> omega)

theorem execBlkRstDone_mut (s : State) : OutUpd [.sys, .cyc, .rcd] (some [0xC0, 0xC1]) s (execBlkRstDone s) := by
  unfold execBlkRstDone
  repeat' first
    | (extract_lets +onlyGivenNames x; subst x)
    | with_reducible apply Upd.refl
    | with_reducible apply OutUpd.next
    | (with_reducible apply State_setB_step (w := 0xC0); rotate_left; decide; simp only [windowOf, SYS_BLK_RST, SYS_BLK_RST.BUSY] <;> omega)
    | (with_reducible apply Upd.comp (State_raise_mut ..) <;> first | decide | skip)
    | (with_reducible show Upd _ _ _ _; with_reducible rw [State.mk_box]; with_reducible apply Upd.box <;> first | (left; with_reducible rfl) | (right; decide) | skip)
    | split

theorem State_writeWdtCfg_mut (value : Sys2Proof.Word) (s : State) : Upd [.sys] (some [0xC0]) s (State.writeWdtCfg value s) := by
  unfold State.writeWdtCfg
  repeat' first
    | (extract_lets +onlyGivenNames x; subst x)
    | with_reducible apply Upd.refl
    | (with_reducible apply State_set_step (w := 0xC0); rotate_left; decide; simp only [windowOf, SYS_WDT_CFG, SYS_WDT_CFG.PERIOD] <;> omega)
    | (with_reducible apply Upd.comp (State_wdtRestart_mut ..) <;> first | decide | skip)
    | split

theorem execPowerOnReset_mut (s : State) : OutUpd [.ltc, .latch, .img, .access, .dram, .sys, .ka, .cyc, .str, .rings, .gens, .tms, .inp, .cle, .vdr, .stk, .saf, .gnb, .cam, .fen, .arb, .fus, .yld, .bus, .eth, .pair, .pnl, .rcd, .upd] none s (execPowerOnReset s) := by
  unfold execPowerOnReset
  repeat' first
    | (extract_lets +onlyGivenNames x; refine Upd.cut (P := [.ltc, .latch, .img, .access, .dram, .sys, .ka, .cyc, .str, .rings, .gens, .tms, .inp, .cle, .vdr, .stk, .saf, .gnb, .cam, .fen, .arb, .fus, .yld, .bus, .eth, .pair, .pnl, .rcd, .upd]) (W := none) (s := s) (x := x) ?_ (fun hx => ?_); rotate_left; clear_value x; rotate_left; subst x)
    | (extract_lets +onlyGivenNames x; subst x)
    | with_reducible assumption
    | with_reducible apply Upd.refl
    | with_reducible apply OutUpd.next
    | (with_reducible apply Upd.comp (State_reloadKaCopy_mut ..) <;> first | decide | skip)
    | (with_reducible apply Upd.comp (State_wipeModule_mut ..) <;> first | decide | skip)
    | (with_reducible show Upd _ _ _ _; with_reducible rw [State.mk_box]; with_reducible apply Upd.box <;> first | (left; with_reducible rfl) | (right; decide) | skip)

theorem execVsupUvClear_mut (mv : Nat) (s : State) : OutUpd [.free, .sys, .cyc, .saf, .rcd] (some [0xC0, 0xC1, 0xC7]) s (execVsupUvClear mv s) := by
  unfold execVsupUvClear
  repeat' first
    | with_reducible apply Upd.refl
    | with_reducible apply OutUpd.next
    | (with_reducible apply State_setB_step (w := 0xC0); rotate_left; decide; simp only [windowOf, SYS_SUPPLY, SYS_SUPPLY.UV, SYS_SUPPLY.VSUP_MV] <;> omega)
    | (with_reducible apply State_set_step (w := 0xC0); rotate_left; decide; simp only [windowOf, SYS_SUPPLY, SYS_SUPPLY.UV, SYS_SUPPLY.VSUP_MV] <;> omega)
    | (with_reducible apply Upd.comp (State_safSupplyWarn_mut ..) <;> first | decide | skip)

theorem execWdtExpire_mut (s : State) : OutUpd [.ltc, .latch, .img, .access, .dram, .sys, .cyc, .str, .rings, .gens, .tms, .inp, .cle, .vdr, .stk, .saf, .gnb, .cam, .fen, .arb, .fus, .yld, .bus, .eth, .pair, .pnl, .rcd, .upd] none s (execWdtExpire s) := by
  unfold execWdtExpire
  repeat' first
    | with_reducible apply Upd.refl
    | with_reducible apply OutUpd.next
    | (with_reducible apply Upd.comp (State_assertModuleReset_mut ..) <;> first | decide | skip)
    | split

theorem execVsupOvClear_mut (mv : Nat) (s : State) : OutUpd [] (some [0xC0]) s (execVsupOvClear mv s) := by
  unfold execVsupOvClear
  repeat' first
    | with_reducible apply Upd.refl
    | with_reducible apply OutUpd.next
    | (with_reducible apply State_setB_step (w := 0xC0); rotate_left; decide; simp only [windowOf, SYS_SUPPLY, SYS_SUPPLY.OV, SYS_SUPPLY.VSUP_MV] <;> omega)
    | (with_reducible apply State_set_step (w := 0xC0); rotate_left; decide; simp only [windowOf, SYS_SUPPLY, SYS_SUPPLY.OV, SYS_SUPPLY.VSUP_MV] <;> omega)

theorem execPowerStateEntryDone_mut (s : State) : OutUpd [.ltc, .latch, .img, .access, .dram, .free, .sys, .ka, .cyc, .str, .rings, .gens, .nv, .tms, .inp, .cle, .vdr, .stk, .saf, .gnb, .cam, .fen, .arb, .fus, .yld, .bus, .eth, .pair, .pnl, .rcd, .upd] none s (execPowerStateEntryDone s) := by
  unfold execPowerStateEntryDone
  repeat' first
    | (extract_lets +onlyGivenNames x; refine Upd.cut (P := [.ltc, .latch, .img, .access, .dram, .free, .sys, .ka, .cyc, .str, .rings, .gens, .nv, .tms, .inp, .cle, .vdr, .stk, .saf, .gnb, .cam, .fen, .arb, .fus, .yld, .bus, .eth, .pair, .pnl, .rcd, .upd]) (W := none) (s := s) (x := x) ?_ (fun hx => ?_); rotate_left; clear_value x; rotate_left; subst x)
    | (extract_lets +onlyGivenNames x; subst x)
    | with_reducible assumption
    | with_reducible apply Upd.refl
    | with_reducible apply OutUpd.next
    | (with_reducible apply Upd.comp (State_parkOff_mut ..) <;> first | decide | skip)
    | (with_reducible apply Upd.comp (setB_any ..) <;> first | decide | skip)
    | (with_reducible apply Upd.comp (State_leaveStandby_mut ..) <;> first | decide | skip)
    | (with_reducible apply Upd.comp (State_wipeModule_mut ..) <;> first | decide | skip)
    | (with_reducible apply Upd.comp (State_safEntryWelds_mut ..) <;> first | decide | skip)
    | (with_reducible apply Upd.comp (State_writeMirror_mut ..) <;> first | decide | skip)
    | (with_reducible show Upd _ _ _ _; with_reducible rw [State.mk_box]; with_reducible apply Upd.box <;> first | (left; with_reducible rfl) | (right; decide) | skip)
    | split

theorem execModuleResetAssert_mut (src : Sys2Proof.ResetSource) (s : State) : OutUpd [.ltc, .latch, .img, .access, .dram, .sys, .cyc, .str, .rings, .gens, .tms, .inp, .cle, .vdr, .stk, .saf, .gnb, .cam, .fen, .arb, .fus, .yld, .bus, .eth, .pair, .pnl, .rcd, .upd] none s (execModuleResetAssert src s) := by
  unfold execModuleResetAssert
  repeat' first
    | with_reducible apply Upd.refl
    | with_reducible apply OutUpd.next
    | (with_reducible apply Upd.comp (State_assertModuleReset_mut ..) <;> first | decide | skip)
    | split

theorem execUsbRecovery_mut (pkg : List Sys2Proof.Byte) (stop : Option (Fin 64)) (s : State) : OutUpd [.ltc, .latch, .img, .access, .dram, .ufs, .sys, .cyc, .str, .rings, .gens, .nv, .tms, .inp, .cle, .vdr, .stk, .saf, .gnb, .cam, .fen, .arb, .fus, .yld, .bus, .eth, .pair, .pnl, .rcd, .upd] none s (execUsbRecovery pkg stop s) := by
  unfold execUsbRecovery
  repeat' first
    | (extract_lets +onlyGivenNames x; refine Upd.cut (P := [.ltc, .latch, .img, .access, .dram, .ufs, .sys, .cyc, .str, .rings, .gens, .nv, .tms, .inp, .cle, .vdr, .stk, .saf, .gnb, .cam, .fen, .arb, .fus, .yld, .bus, .eth, .pair, .pnl, .rcd, .upd]) (W := none) (s := s) (x := x) ?_ (fun hx => ?_); rotate_left; clear_value x; rotate_left; subst x)
    | (extract_lets +onlyGivenNames x; subst x)
    | with_reducible assumption
    | with_reducible apply Upd.refl
    | with_reducible apply OutUpd.next
    | (with_reducible apply Upd.comp (State_assertModuleReset_mut ..) <;> first | decide | skip)
    | (with_reducible apply Upd.comp (set_any ..) <;> first | decide | skip)
    | (with_reducible apply SndUpd.comp (State_stageRun_mut ..) <;> first | decide | skip)
    | (with_reducible refine SndUpd.of_eq ?_ (by assumption))
    | (with_reducible show Upd _ _ _ _; with_reducible rw [State.mk_box]; with_reducible apply Upd.box <;> first | (left; with_reducible rfl) | (right; decide) | skip)
    | split

theorem execHostFirmwareLoaded_mut (ok : Bool) (s : State) : OutUpd [.latch, .img, .mram, .sys, .cyc, .str, .rings, .nv, .inp, .cle, .vdr, .stk, .saf, .gnb, .cam, .fen, .arb, .fus, .yld, .bus, .eth, .pair, .pnl, .rcd, .upd] none s (execHostFirmwareLoaded ok s) := by
  unfold execHostFirmwareLoaded
  repeat' first
    | (extract_lets +onlyGivenNames x; subst x)
    | with_reducible apply Upd.refl
    | with_reducible apply OutUpd.next
    | (with_reducible apply Upd.comp (State_usbShow_mut ..) <;> first | decide | skip)
    | (with_reducible apply Upd.comp (State_restartPhase3_mut ..) <;> first | decide | skip)
    | (with_reducible show Upd _ _ _ _; with_reducible rw [State.mk_box]; with_reducible apply Upd.box <;> first | (left; with_reducible rfl) | (right; decide) | skip)
    | split

end Sys2Proof.Machine
end

