-- ==== Sys2Proof/Laws/MutChecks.lean ====
section
/-! SUPPORT. What each operation of Machine/Checks.lean may change (`Upd`): its parts of the state and its register windows. -/

namespace Sys2Proof.Machine

set_option Elab.async false
set_option linter.unusedSimpArgs false
set_option linter.unusedTactic false
set_option linter.unreachableTactic false
set_option linter.unnecessarySeqFocus false
set_option maxRecDepth 20000

theorem State_queueCheck_mut (b : Nat) (s : State) : Upd [.str] (some []) s (State.queueCheck b s) := by
  unfold State.queueCheck
  repeat' first
    | (extract_lets +onlyGivenNames x; subst x)
    | with_reducible apply Upd.refl
    | (with_reducible show Upd _ _ _ _; with_reducible rw [State.mk_box]; with_reducible apply Upd.box <;> first | (left; with_reducible rfl) | (right; decide) | skip)

theorem execCheckEnqueue_mut (blk : Fin 21) (s : State) : OutUpd [.str] (some []) s (execCheckEnqueue blk s) := by
  unfold execCheckEnqueue
  repeat' first
    | (extract_lets +onlyGivenNames x; subst x)
    | with_reducible apply Upd.refl
    | with_reducible apply OutUpd.next
    | (with_reducible show Upd _ _ _ _; with_reducible rw [State.mk_box]; with_reducible apply Upd.box <;> first | (left; with_reducible rfl) | (right; decide) | skip)
    | split

theorem State_blkStart_mut (b : Nat) (s : State) : Upd [.free, .cyc, .inp, .cle, .gnb, .cam, .fus, .yld, .bus, .eth, .pair, .pnl, .rcd] (some [0xC1, 0xC3, 0xC5, 0xC8, 0xC9, 0xCC, 0xCD, 0xCE, 0xCF, 0xD2]) s (State.blkStart b s) := by
  unfold State.blkStart
  repeat' first
    | with_reducible apply Upd.refl
    | (with_reducible apply Upd.comp (State_pairStart_mut ..) <;> first | decide | skip)
    | (with_reducible apply Upd.comp (State_gnbStart_mut ..) <;> first | decide | skip)
    | (with_reducible apply Upd.comp (State_recStart_mut ..) <;> first | decide | skip)
    | (with_reducible apply Upd.comp (State_yldStart_mut ..) <;> first | decide | skip)
    | (with_reducible apply Upd.comp (State_fusStart_mut ..) <;> first | decide | skip)
    | (with_reducible apply Upd.comp (State_camStart_mut ..) <;> first | decide | skip)
    | (with_reducible apply Upd.comp (State_ethStart_mut ..) <;> first | decide | skip)
    | (with_reducible apply Upd.comp (State_busStart_mut ..) <;> first | decide | skip)
    | (with_reducible apply Upd.comp (State_inpStart_mut ..) <;> first | decide | skip)
    | (with_reducible apply Upd.comp (State_cleStart_mut ..) <;> first | decide | skip)
    | (with_reducible apply Upd.comp (State_updStart_mut ..) <;> first | decide | skip)
    | (with_reducible apply Upd.comp (State_pnlStart_mut ..) <;> first | decide | skip)
    | (with_reducible apply Upd.comp (State_tmsStart_mut ..) <;> first | decide | skip)
    | split

theorem State_blkDisable_mut (b : Nat) (s : State) : Upd [.latch, .dram, .mram, .free, .cyc, .rings, .tms, .inp, .cle, .vdr, .stk, .gnb, .cam, .fen, .arb, .fus, .yld, .bus, .eth, .pair, .pnl, .rcd, .upd] none s (State.blkDisable b s) := by
  unfold State.blkDisable
  repeat' first
    | (extract_lets +onlyGivenNames x; refine Upd.cut (P := [.latch, .dram, .mram, .free, .cyc, .rings, .tms, .inp, .cle, .vdr, .stk, .gnb, .cam, .fen, .arb, .fus, .yld, .bus, .eth, .pair, .pnl, .rcd, .upd]) (W := none) (s := s) (x := x) ?_ (fun hx => ?_); rotate_left; clear_value x; rotate_left; subst x)
    | with_reducible assumption
    | with_reducible apply Upd.refl
    | (with_reducible apply Upd.comp (setB_any ..) <;> first | decide | skip)
    | (with_reducible apply Upd.comp (State_ethDisable_mut ..) <;> first | decide | skip)
    | (with_reducible apply Upd.comp (State_pnlDisable_mut ..) <;> first | decide | skip)
    | (with_reducible apply Upd.comp (State_vdrDisable_mut ..) <;> first | decide | skip)
    | (with_reducible apply Upd.comp (State_updDisable_mut ..) <;> first | decide | skip)
    | (with_reducible apply Upd.comp (State_yldDisable_mut ..) <;> first | decide | skip)
    | (with_reducible apply Upd.comp (State_busDisable_mut ..) <;> first | decide | skip)
    | (with_reducible apply Upd.comp (State_recDisable_mut ..) <;> first | decide | skip)
    | (with_reducible apply Upd.comp (State_camDisable_mut ..) <;> first | decide | skip)
    | (with_reducible apply Upd.comp (State_pairDisable_mut ..) <;> first | decide | skip)
    | (with_reducible apply Upd.comp (State_fenDisable_mut ..) <;> first | decide | skip)
    | (with_reducible apply Upd.comp (State_fusDisable_mut ..) <;> first | decide | skip)
    | (with_reducible apply Upd.comp (State_inpDisable_mut ..) <;> first | decide | skip)
    | (with_reducible apply Upd.comp (State_gnbDisable_mut ..) <;> first | decide | skip)
    | (with_reducible apply Upd.comp (State_cleDisable_mut ..) <;> first | decide | skip)
    | (with_reducible apply Upd.comp (State_tmsDisable_mut ..) <;> first | decide | skip)
    | split

theorem State_writeEnable_mut (b : Nat) (v : Bool) (s : State) : Upd [.latch, .dram, .mram, .free, .cyc, .str, .rings, .tms, .inp, .cle, .vdr, .stk, .gnb, .cam, .fen, .arb, .fus, .yld, .bus, .eth, .pair, .pnl, .rcd, .upd] none s (State.writeEnable b v s) := by
  unfold State.writeEnable
  repeat' first
    | (extract_lets +onlyGivenNames x; refine Upd.cut (P := [.latch, .dram, .mram, .free, .cyc, .str, .rings, .tms, .inp, .cle, .vdr, .stk, .gnb, .cam, .fen, .arb, .fus, .yld, .bus, .eth, .pair, .pnl, .rcd, .upd]) (W := none) (s := s) (x := x) ?_ (fun hx => ?_); rotate_left; clear_value x; rotate_left; subst x)
    | (extract_lets +onlyGivenNames x; subst x)
    | with_reducible assumption
    | with_reducible apply Upd.refl
    | (with_reducible apply Upd.comp (setB_any ..) <;> first | decide | skip)
    | (with_reducible apply Upd.comp (State_queueCheck_mut ..) <;> first | decide | skip)
    | (with_reducible apply Upd.comp (State_blkDisable_mut ..) <;> first | decide | skip)
    | (with_reducible show Upd _ _ _ _; with_reducible rw [State.mk_box]; with_reducible apply Upd.box <;> first | (left; with_reducible rfl) | (right; decide) | skip)
    | split

theorem State_checkResult_mut (b : Nat) (pass : Bool) (code : Nat) (off : Nat) (s : State) : Upd [.cyc, .rcd] (some [0xC1, 0xC2]) s (State.checkResult b pass code off s) := by
  unfold State.checkResult
  repeat' first
    | (extract_lets +onlyGivenNames x; refine Upd.cut (P := [.cyc, .rcd]) (W := (some [0xC1, 0xC2])) (s := s) (x := x) ?_ (fun hx => ?_); rotate_left; clear_value x; rotate_left; subst x)
    | with_reducible assumption
    | with_reducible apply Upd.refl
    | (with_reducible apply State_setB_step (w := 0xC2); rotate_left; decide; simp only [windowOf, STR_CHK_DET, STR_CHK_DET.OFFSET, STR_CHK_RES, STR_CHK_RES.COUNT, STR_CHK_RES.PASS, STR_CHK_RES.REASON, STR_CHK_RES.RUN] <;> omega)
    | (with_reducible apply State_set_step (w := 0xC2); rotate_left; decide; simp only [windowOf, STR_CHK_DET, STR_CHK_DET.OFFSET, STR_CHK_RES, STR_CHK_RES.COUNT, STR_CHK_RES.PASS, STR_CHK_RES.REASON, STR_CHK_RES.RUN] <;> omega)
    | (with_reducible apply Upd.comp (State_raise_mut ..) <;> first | decide | skip)
    | (with_reducible apply State_wrapInc_step (w := 0xC2); rotate_left; decide; simp only [windowOf, STR_CHK_DET, STR_CHK_DET.OFFSET, STR_CHK_RES, STR_CHK_RES.COUNT, STR_CHK_RES.PASS, STR_CHK_RES.REASON, STR_CHK_RES.RUN] <;> omega)

theorem State_ringsZero_mut (b : Nat) (s : State) : Upd [.rings] none s (State.ringsZero b s) := by
  unfold State.ringsZero
  repeat' first
    | with_reducible assumption
    | with_reducible apply Upd.refl
    | (with_reducible apply Upd.comp (set_any ..) <;> first | decide | skip)
    | (with_reducible apply Upd.comp (State_setRing_mut ..) <;> first | decide | skip)
    | (with_reducible apply Upd.foldl <;> first | (intro y a ha hy; skip) | skip)

theorem execCheckEnd_mut (s : State) : OutUpd [.free, .cyc, .str, .rings, .inp, .cle, .gnb, .cam, .fus, .yld, .bus, .eth, .pair, .pnl, .rcd] none s (execCheckEnd s) := by
  unfold execCheckEnd
  repeat' first
    | (extract_lets +onlyGivenNames x; refine Upd.cut (P := [.free, .cyc, .str, .rings, .inp, .cle, .gnb, .cam, .fus, .yld, .bus, .eth, .pair, .pnl, .rcd]) (W := none) (s := s) (x := x) ?_ (fun hx => ?_); rotate_left; clear_value x; rotate_left; subst x)
    | (extract_lets +onlyGivenNames x; subst x)
    | with_reducible assumption
    | with_reducible apply Upd.refl
    | with_reducible apply OutUpd.next
    | (with_reducible apply Upd.comp (setB_any ..) <;> first | decide | skip)
    | (with_reducible apply Upd.comp (State_blkStart_mut ..) <;> first | decide | skip)
    | (with_reducible apply Upd.comp (State_checkResult_mut ..) <;> first | decide | skip)
    | (with_reducible apply Upd.comp (State_raise_mut ..) <;> first | decide | skip)
    | (with_reducible apply Upd.comp (State_ringsZero_mut ..) <;> first | decide | skip)
    | (with_reducible show Upd _ _ _ _; with_reducible rw [State.mk_box]; with_reducible apply Upd.box <;> first | (left; with_reducible rfl) | (right; decide) | skip)
    | split

end Sys2Proof.Machine
end

