-- ==== Sys2Proof/Laws/MutTake.lean ====
section
/-! SUPPORT. What each operation of Machine/Take.lean may change (`Upd`): its parts of the state and its register windows. -/

namespace Sys2Proof.Machine

set_option Elab.async false
set_option linter.unusedSimpArgs false
set_option linter.unusedTactic false
set_option linter.unreachableTactic false
set_option linter.unnecessarySeqFocus false
set_option maxRecDepth 20000

/-- Taking and completing an entry, of any block. -/
theorem writeCompletion_any (b r : Nat) (t : Taken) (reason handle : Nat) (s : State) : Upd [.rings, .dram, .rcd, .cyc] none s (s.writeCompletion b r t reason handle) := by
  have h1 (u : State) (g : Ring) : Upd [.rings, .dram, .rcd, .cyc] none u (u.setRing b r g) := (State_setRing_mut b r g u).mono rfl rfl
  have h2 (u : State) (a : Nat) (bs : List Byte) : Upd [.rings, .dram, .rcd, .cyc] none u (u.dramPuts a bs) := (State_dramPuts_mut a bs u).mono rfl rfl
  have h3 (u : State) (v : Nat) : Upd [.rings, .dram, .rcd, .cyc] none u (u.set (CRING_PI b r) v) := (set_any _ _ _).mono rfl rfl
  have h4 (u : State) : Upd [.rings, .dram, .rcd, .cyc] none u (u.completionEvent b r) := (State_completionEvent_mut b r u).mono rfl rfl
  unfold State.writeCompletion
  dsimp only
  split
  · exact (((h1 _ _).trans (h2 _ _ _)).trans (h3 _ _)).trans (h4 _)
  · exact ((h1 _ _).trans (h2 _ _ _)).trans (h3 _ _)

theorem flushTaken_any (b r : Nat) (l : List Taken) (s : State) : SndUpd [.rings, .dram, .rcd, .cyc] none s (flushTaken b r l s) := by
  induction l generalizing s with
  | nil => exact Upd.refl s
  | cons t ts ih =>
    unfold flushTaken
    split
    · exact Upd.refl s
    · exact (writeCompletion_any b r t _ _ s).trans (ih _)

theorem completeId_any (b r id reason handle : Nat) (s : State) : Upd [.rings, .dram, .rcd, .cyc] none s (s.completeId b r id reason handle) := by
  unfold State.completeId
  exact Upd.trans (flushTaken_any b r _ s) ((State_setRing_mut b r _ _).mono rfl rfl)

theorem finish_any (c : Cmd) (code : Nat) (s : State) : Upd [.rings, .dram, .rcd, .cyc] none s (c.finish code s) := completeId_any _ _ _ _ _ s

theorem refuse_any (c : Cmd) (opcode code : Nat) (s : State) : Upd [.rings, .dram, .rcd, .cyc] none s (c.refuse opcode code s) := by
  unfold Cmd.refuse
  exact Upd.ite (completeId_any _ _ _ _ _ s) (completeId_any _ _ _ _ _ s)

theorem runEntry_any {P : List Comp} (b r opcode mask : Nat) (e : Entry) (op : Cmd → State → State) (s : State)
    (hP : [Comp.rings, .dram, .rcd, .cyc].all (P.contains ·) = true) (h : ∀ c u, c.blk = b → Upd P none u (op c u)) :
    Upd P none s (s.runEntry b r opcode mask e op) := by
  unfold State.runEntry
  simp only [State.enlist]
  have h0 (g : Ring) : Upd P none s (s.setRing b r g) :=
    (State_setRing_mut b r g s).mono (by simp only [List.all_cons, List.all_nil, Bool.and_true, Bool.and_eq_true] at hP ⊢; exact hP.1) rfl
  have hf (c : Cmd) (code : Nat) (u : State) : Upd P none u (c.refuse opcode code u) := (refuse_any c opcode code u).mono hP rfl
  exact Upd.ite ((h0 _).trans (hf _ _ _)) (Upd.ite ((h0 _).trans (h _ _ rfl)) ((h0 _).trans (hf _ _ _)))

theorem opNop_mut (c : Cmd) (s : State) : Upd [.rings, .dram, .rcd, .cyc] none s (opNop c s) := finish_any c 0 s
theorem opUnknown_mut (c : Cmd) (s : State) : Upd [.rings, .dram, .rcd, .cyc] none s (opUnknown c s) := finish_any c 5 s

/-- Every operation of the command table, on a command of its block. -/
theorem opOf_mut (b opcode mask : Nat) (op : Cmd → State → State) (c : Cmd) (u : State) (h : opOf b opcode = some (mask, op)) (hc : c.blk = b) :
    Upd [.latch, .dram, .mram, .free, .sys, .cyc, .rings, .gens, .nv, .cle, .stk, .gnb, .cam, .fen, .arb, .fus, .yld, .bus, .eth, .pair, .pnl, .rcd, .upd] none u (op c u) := by
  unfold opOf at h
  split at h
  · cases h; exact (opSlotCreate_mut c u (hc := hc)).mono (by decide) rfl
  · cases h; exact (opSlotDestroy_mut c u (hc := hc)).mono (by decide) rfl
  · cases h; exact (opSlotStart_mut c u (hc := hc)).mono (by decide) rfl
  · cases h; exact (opSlotStop_mut c u (hc := hc)).mono (by decide) rfl
  · cases h; exact (opStart_mut c u (hc := hc)).mono (by decide) rfl
  · cases h; exact (opCancel_mut c u (hc := hc)).mono (by decide) rfl
  · cases h; exact (opChCreate_mut c u (hc := hc)).mono (by decide) rfl
  · cases h; exact (opSteer_mut c u (hc := hc)).mono (by decide) rfl
  · cases h; exact (opChDestroy_mut c u (hc := hc)).mono (by decide) rfl
  · cases h; exact (opChResolve_mut c u (hc := hc)).mono (by decide) rfl
  · cases h; exact (opAcqStart_mut c u (hc := hc)).mono (by decide) rfl
  · cases h; exact (opCtxCreate_mut c u (hc := hc)).mono (by decide) rfl
  · cases h; exact (opCtxDestroy_mut c u (hc := hc)).mono (by decide) rfl
  · cases h; exact (opCtxPalette_mut c u (hc := hc)).mono (by decide) rfl
  · cases h; exact (opBufGive_mut c u (hc := hc)).mono (by decide) rfl
  · cases h; exact (opCtxBind_mut c u (hc := hc)).mono (by decide) rfl
  · cases h; exact (controlOnly_mut opPkgLoad c u hc (by decide) (by decide) (fun c u hc => (opPkgLoad_mut c u (hc := hc)).mono (by decide) (by decide)) : Upd [.latch, .dram, .mram, .free, .sys, .cyc, .rings, .gens, .nv, .cle, .stk, .gnb, .cam, .fen, .arb, .fus, .yld, .bus, .eth, .pair, .pnl, .rcd, .upd] (some [0xC0, 0xC1, 0xCA, 0xCB, 0xCC, 0xC9]) u _).mono (by decide) rfl
  · cases h; exact (controlOnly_mut opPkgUnload c u hc (by decide) (by decide) (fun c u hc => (opPkgUnload_mut c u (hc := hc)).mono (by decide) (by decide)) : Upd [.latch, .dram, .mram, .free, .sys, .cyc, .rings, .gens, .nv, .cle, .stk, .gnb, .cam, .fen, .arb, .fus, .yld, .bus, .eth, .pair, .pnl, .rcd, .upd] (some [0xC0, 0xC1, 0xCA, 0xCB, 0xCC, 0xC9]) u _).mono (by decide) rfl
  · cases h; exact (controlOnly_mut opStreamCreate c u hc (by decide) (by decide) (fun c u hc => (opStreamCreate_mut c u (hc := hc)).mono (by decide) (by decide)) : Upd [.latch, .dram, .mram, .free, .sys, .cyc, .rings, .gens, .nv, .cle, .stk, .gnb, .cam, .fen, .arb, .fus, .yld, .bus, .eth, .pair, .pnl, .rcd, .upd] (some [0xC0, 0xC1, 0xCA, 0xCB, 0xCC, 0xC9]) u _).mono (by decide) rfl
  · cases h; exact (controlOnly_mut opStreamDestroy c u hc (by decide) (by decide) (fun c u hc => (opStreamDestroy_mut c u (hc := hc)).mono (by decide) (by decide)) : Upd [.latch, .dram, .mram, .free, .sys, .cyc, .rings, .gens, .nv, .cle, .stk, .gnb, .cam, .fen, .arb, .fus, .yld, .bus, .eth, .pair, .pnl, .rcd, .upd] (some [0xC0, 0xC1, 0xCA, 0xCB, 0xCC, 0xC9]) u _).mono (by decide) rfl
  · cases h; exact (opFenJob_mut c u (hc := hc)).mono (by decide) rfl
  · cases h; exact (opReqCreate_mut c u (hc := hc)).mono (by decide) rfl
  · cases h; exact (opReqDestroy_mut c u (hc := hc)).mono (by decide) rfl
  · cases h; exact (opReqClass_mut c u (hc := hc)).mono (by decide) rfl
  · cases h; exact (opSrcCreate_mut c u (hc := hc)).mono (by decide) rfl
  · cases h; exact (opSrcDestroy_mut c u (hc := hc)).mono (by decide) rfl
  · cases h; exact (opFusSubmit_mut c u (hc := hc)).mono (by decide) rfl
  · cases h; exact (opLayerCreate_mut c u (hc := hc)).mono (by decide) rfl
  · cases h; exact (opLayerDestroy_mut c u (hc := hc)).mono (by decide) rfl
  · cases h; exact (opYldPose_mut c u (hc := hc)).mono (by decide) rfl
  · cases h; exact (opYldFlush_mut c u (hc := hc)).mono (by decide) rfl
  · cases h; exact (opObjCreate_mut c u (hc := hc)).mono (by decide) rfl
  · cases h; exact (opObjDestroy_mut c u (hc := hc)).mono (by decide) rfl
  · cases h; exact (opQCreate_mut c u (hc := hc)).mono (by decide) rfl
  · cases h; exact (opQDestroy_mut c u (hc := hc)).mono (by decide) rfl
  · cases h; exact (opTpSend_mut c u (hc := hc)).mono (by decide) rfl
  · cases h; exact (opTpAbort_mut c u (hc := hc)).mono (by decide) rfl
  · cases h; exact (opPeerCreate_mut c u (hc := hc)).mono (by decide) rfl
  · cases h; exact (opPeerDestroy_mut c u (hc := hc)).mono (by decide) rfl
  · cases h; exact (opFleetSend_mut c u (hc := hc)).mono (by decide) rfl
  · cases h; exact (opKeyLoad_mut c u (hc := hc)).mono (by decide) rfl
  · cases h; exact (opKeyErase_mut c u (hc := hc)).mono (by decide) rfl
  · cases h; exact (opFrameTx_mut c u (hc := hc)).mono (by decide) rfl
  · cases h; exact (opBodySend_mut c u (hc := hc)).mono (by decide) rfl
  · cases h; exact (opPnlPowerOn_mut c u (hc := hc)).mono (by decide) rfl
  · cases h; exact (opPnlPowerOff_mut c u (hc := hc)).mono (by decide) rfl
  · cases h; exact (opPnlRefresh_mut c u (hc := hc)).mono (by decide) rfl
  · cases h; exact (opPnlDischarge_mut c u (hc := hc)).mono (by decide) rfl
  · cases h; exact (opRecCreate_mut c u (hc := hc)).mono (by decide) rfl
  · cases h; exact (opRecDestroy_mut c u (hc := hc)).mono (by decide) rfl
  · cases h; exact (opRecPut_mut c u (hc := hc)).mono (by decide) rfl
  · cases h; exact (opRecFlush_mut c u (hc := hc)).mono (by decide) rfl
  · cases h; exact (opRecExport_mut c u (hc := hc)).mono (by decide) rfl
  · cases h; exact (opStage_mut c u (hc := hc)).mono (by decide) rfl
  · cases h; exact (opUpdAbort_mut c u (hc := hc)).mono (by decide) rfl
  · cases h; exact (opVarnish_mut c u (hc := hc)).mono (by decide) rfl
  · cases h; exact (opConfirm_mut c u (hc := hc)).mono (by decide) rfl
  · cases h; exact (opLcChange_mut c u (hc := hc)).mono (by decide) rfl
  · cases h; exact (opKeyProg_mut c u (hc := hc)).mono (by decide) rfl
  · cases h

/-- Whatever a block runs for an opcode. -/
theorem entryOp_mut (b opcode : Nat) (c : Cmd) (u : State) (hc : c.blk = b) : Upd [.latch, .dram, .mram, .free, .sys, .cyc, .rings, .gens, .nv, .cle, .stk, .gnb, .cam, .fen, .arb, .fus, .yld, .bus, .eth, .pair, .pnl, .rcd, .upd] none u ((entryOp b opcode).2 c u) := by
  unfold entryOp
  split
  · exact (opNop_mut c u).mono (by decide) rfl
  · cases h : opOf b opcode with
    | none => exact (opUnknown_mut c u).mono (by decide) rfl
    | some x => exact opOf_mut b opcode x.1 x.2 c u (by rw [h]) hc

theorem State_takeEntry_mut (b r : Nat) (s : State) : Upd [.latch, .dram, .mram, .free, .sys, .cyc, .rings, .gens, .nv, .cle, .stk, .gnb, .cam, .fen, .arb, .fus, .yld, .bus, .eth, .pair, .pnl, .rcd, .upd] none s (s.takeEntry b r) := by
  have h0 : Upd [.latch, .dram, .mram, .free, .sys, .cyc, .rings, .gens, .nv, .cle, .stk, .gnb, .cam, .fen, .arb, .fus, .yld, .bus, .eth, .pair, .pnl, .rcd, .upd] none s (if (s.ring b r).odd then s.drawn else s) := Upd.ite ((State_drawn_mut s).mono (by decide) rfl) (Upd.refl s)
  unfold State.takeEntry
  dsimp only
  refine Upd.ite h0 ?_
  refine Upd.comp (runEntry_any (P := [.latch, .dram, .mram, .free, .sys, .cyc, .rings, .gens, .nv, .cle, .stk, .gnb, .cam, .fen, .arb, .fus, .yld, .bus, .eth, .pair, .pnl, .rcd, .upd]) _ _ _ _ _ _ _ (by decide) (fun c u hc => entryOp_mut _ _ c u hc)) (by decide) rfl ?_
  refine Upd.comp (State_restSpacing_mut ..) (by decide) rfl ?_
  exact Upd.comp (set_any ..) (by decide) rfl h0

theorem runRow_any {P : List Comp} (b r opcode mask : Nat) (e : Entry) (op : Cmd → State → State) (s : State)
    (hP : [Comp.rings, .dram, .rcd, .cyc].all (P.contains ·) = true) (h : ∀ c u, c.blk = b → Upd P none u (op c u)) :
    Upd P none s (s.runRow b r opcode mask e op) := by
  unfold State.runRow
  split
  · exact ((State_restSpacing_mut b r opcode s).mono (by simp only [List.all_cons, List.all_nil, Bool.and_true, Bool.and_eq_true] at hP ⊢; exact hP.1) rfl).trans
      (runEntry_any b r opcode mask e op _ hP h)
  · exact Upd.refl s

theorem execCommandTake_mut (blk : Fin 21) (ring : Fin 17) (s : State) : OutUpd [.latch, .dram, .mram, .free, .sys, .cyc, .rings, .gens, .nv, .cle, .stk, .gnb, .cam, .fen, .arb, .fus, .yld, .bus, .eth, .pair, .pnl, .rcd, .upd] none s (execCommandTake blk ring s) := OutUpd.next (State_takeEntry_mut _ _ s)

theorem execNop_mut (blk : Fin 21) (ring : Fin 17) (e : Entry) (s : State) : OutUpd [.rings, .dram, .rcd, .cyc] none s (execNop blk ring e s) := by
  unfold execNop
  exact OutUpd.next (runRow_any _ _ _ _ _ _ _ (by decide) fun c u _ => opNop_mut c u)

theorem execUnknownOpcode_mut (blk : Fin 21) (ring : Fin 17) (opcode : BitVec 16) (e : Entry) (s : State) :
    OutUpd [.rings, .dram, .rcd, .cyc] none s (execUnknownOpcode blk ring opcode e s) := by
  unfold execUnknownOpcode
  exact OutUpd.next (Upd.ite (Upd.refl s) (runRow_any _ _ _ _ _ _ _ (by decide) fun c u _ => opUnknown_mut c u))

end Sys2Proof.Machine
end

