-- ==== Sys2Proof/Laws/MutHost.lean ====
section
/-! SUPPORT. What each operation of Machine/Host.lean may change (`Upd`): its parts of the state and its register windows. -/

namespace Sys2Proof.Machine

set_option Elab.async false
set_option linter.unusedSimpArgs false
set_option linter.unusedTactic false
set_option linter.unreachableTactic false
set_option linter.unnecessarySeqFocus false
set_option maxRecDepth 20000

theorem State_busError_mut (core : Nat) (s : State) : Upd [.access] (some []) s (State.busError core s) := by
  unfold State.busError
  repeat' first
    | with_reducible apply Upd.refl
    | (with_reducible show Upd _ _ _ _; with_reducible rw [State.mk_box]; with_reducible apply Upd.box <;> first | (left; with_reducible rfl) | (right; decide) | skip)

theorem State_writeCanCfg_mut (n : Nat) (value : Sys2Proof.Word) (s : State) : Upd [] none s (State.writeCanCfg n value s) := by
  unfold State.writeCanCfg
  repeat' first
    | with_reducible apply Upd.refl
    | (with_reducible apply Upd.comp (State_plainWrite_mut ..) <;> first | decide | skip)

theorem State_writeTpLim_mut (n : Nat) (value : Sys2Proof.Word) (s : State) : Upd [] (some [0xCE]) s (State.writeTpLim n value s) := by
  unfold State.writeTpLim
  repeat' first
    | (extract_lets +onlyGivenNames x; refine Upd.cut (P := []) (W := (some [0xCE])) (s := s) (x := x) ?_ (fun hx => ?_); rotate_left; clear_value x; rotate_left; subst x)
    | (extract_lets +onlyGivenNames x; subst x)
    | with_reducible assumption
    | with_reducible apply Upd.refl
    | (with_reducible apply State_set_step (w := 0xCE); rotate_left; decide; simp only [windowOf, BUS_C_TPLIM, BUS_C_TPLIM.BAM_GAP, BUS_C_TPLIM.CTSMAX, BUS_C_TPLIM.RATE, BUS_C_TPLIM.SRCMAX] <;> omega)
    | split

theorem State_busWrite_mut (a : Nat) (value : Sys2Proof.Word) (s : State) : OptUpd [.free, .cyc, .bus, .rcd] none s (State.busWrite a value s) := by
  unfold State.busWrite
  repeat' first
    | (extract_lets +onlyGivenNames x; subst x)
    | with_reducible apply Upd.refl
    | with_reducible apply OptUpd.ofNone
    | with_reducible apply OptUpd.ofSome
    | (with_reducible apply Upd.comp (State_writeQCi_mut ..) <;> first | decide | skip)
    | (with_reducible apply Upd.comp (State_writeRecover_mut ..) <;> first | decide | skip)
    | (with_reducible apply Upd.comp (State_writeObjCtrl_mut ..) <;> first | decide | skip)
    | (with_reducible apply Upd.comp (State_writeTpLim_mut ..) <;> first | decide | skip)
    | (with_reducible apply Upd.comp (State_writeCanCfg_mut ..) <;> first | decide | skip)
    | (with_reducible apply Upd.comp (State_writeObjRec_mut ..) <;> first | decide | skip)
    | split

theorem State_writeSettings_mut (w : Nat) (value : Sys2Proof.Word) (s : State) : Upd [.mram] (some []) s (State.writeSettings w value s) := by
  unfold State.writeSettings
  repeat' first
    | with_reducible apply Upd.refl
    | (with_reducible show Upd _ _ _ _; with_reducible rw [State.mk_box]; with_reducible apply Upd.box <;> first | (left; with_reducible rfl) | (right; decide) | exact .inr ⟨by decide, fun hm => memWf_memPuts hm _ _⟩ | skip)

theorem State_writeSigo_mut (i : Nat) (value : Sys2Proof.Word) (s : State) : Upd [] (some [0xD0]) s (State.writeSigo i value s) := by
  unfold State.writeSigo
  repeat' first
    | (extract_lets +onlyGivenNames x; refine Upd.cut (P := []) (W := (some [0xD0])) (s := s) (x := x) ?_ (fun hx => ?_); rotate_left; clear_value x; rotate_left; subst x)
    | with_reducible assumption
    | with_reducible apply Upd.refl
    | (with_reducible apply State_setB_step (w := 0xD0); rotate_left; decide; simp only [windowOf, PAIR_SIGO, PAIR_SIGO.EN, PAIR_SIGO.SLOT] <;> omega)
    | (with_reducible apply State_set_step (w := 0xD0); rotate_left; decide; simp only [windowOf, PAIR_SIGO, PAIR_SIGO.EN, PAIR_SIGO.SLOT] <;> omega)
    | split

theorem State_writeVcom_mut (value : Sys2Proof.Word) (s : State) : Upd [] (some [0xD1]) s (State.writeVcom value s) := by
  unfold State.writeVcom
  repeat' first
    | (extract_lets +onlyGivenNames x; subst x)
    | with_reducible apply Upd.refl
    | (with_reducible apply State_set_step (w := 0xD1); rotate_left; decide; simp only [windowOf, PNL_VCOM, PNL_VCOM.MV] <;> omega)
    | split

theorem State_ethUpdWrite_mut (a : Nat) (value : Sys2Proof.Word) (s : State) : OptUpd [.mram, .cyc, .eth, .pnl, .rcd] none s (State.ethUpdWrite a value s) := by
  unfold State.ethUpdWrite
  repeat' first
    | with_reducible apply Upd.refl
    | with_reducible apply OptUpd.ofNone
    | with_reducible apply OptUpd.ofSome
    | (with_reducible apply Upd.comp (State_writePol_mut ..) <;> first | decide | skip)
    | (with_reducible apply Upd.comp (State_writeFl_mut ..) <;> first | decide | skip)
    | (with_reducible apply Upd.comp (State_writeGptp_mut ..) <;> first | decide | skip)
    | (with_reducible apply Upd.comp (State_writeUsb_mut ..) <;> first | decide | skip)
    | (with_reducible apply State_ciWrite_step (w := 0xCF); rotate_left; decide; decide; simp only [windowOf, ETH_FLT_RX_CI, ETH_FLT_RX_CI.CI, ETH_HRX_CI, ETH_HRX_CI.CI] <;> omega)
    | (with_reducible apply Upd.comp (State_writeSettings_mut ..) <;> first | decide | skip)
    | (with_reducible apply Upd.comp (State_writeSigo_mut ..) <;> first | decide | skip)
    | (with_reducible apply Upd.comp (State_writeVcom_mut ..) <;> first | decide | skip)
    | split

theorem State_writeDet_mut (value : Sys2Proof.Word) (s : State) : Upd [.cyc, .rcd] (some [0xC0, 0xC1]) s (State.writeDet value s) := by
  unfold State.writeDet
  repeat' first
    | (extract_lets +onlyGivenNames x; refine Upd.cut (P := [.cyc, .rcd]) (W := (some [0xC0, 0xC1])) (s := s) (x := x) ?_ (fun hx => ?_); rotate_left; clear_value x; rotate_left; subst x)
    | (extract_lets +onlyGivenNames x; subst x)
    | with_reducible assumption
    | with_reducible apply Upd.refl
    | (with_reducible apply State_setReg_step (w := 0xC0); rotate_left; decide; simp only [windowOf, SYS_DET_STATUS] <;> omega)
    | (with_reducible refine Upd.when ?_ (fun y hy => ?_))
    | (with_reducible apply Upd.comp (State_detLatch_mut ..) <;> first | decide | skip)
    | (with_reducible show Upd _ _ _ _; with_reducible rw [State.mk_box]; with_reducible apply Upd.box <;> first | (left; with_reducible rfl) | (right; decide) | skip)

theorem State_writeKaFlags_mut (value : Sys2Proof.Word) (s : State) : Upd [.ka] none s (State.writeKaFlags value s) := by
  unfold State.writeKaFlags
  repeat' first
    | (extract_lets +onlyGivenNames x; refine Upd.cut (P := [.ka]) (W := none) (s := s) (x := x) ?_ (fun hx => ?_); rotate_left; clear_value x; rotate_left; subst x)
    | (extract_lets +onlyGivenNames x; subst x)
    | with_reducible assumption
    | with_reducible apply Upd.refl
    | (with_reducible apply Upd.comp (State_plainWrite_mut ..) <;> first | decide | skip)
    | (with_reducible show Upd _ _ _ _; with_reducible rw [State.mk_box]; with_reducible apply Upd.box <;> first | (left; with_reducible rfl) | (right; decide) | skip)

theorem State_clearPend_mut (n : Nat) (s : State) : Upd [] (some [0xC1]) s (State.clearPend n s) := by
  unfold State.clearPend
  repeat' first
    | with_reducible apply Upd.refl
    | (with_reducible apply State_setB_step (w := 0xC1); rotate_left; decide; simp only [windowOf, EVT_SRC_LTC_HI, EVT_SRC_LTC_LO, EVT_SRC_STAT, EVT_SRC_STAT.MULTI, EVT_SRC_STAT.PEND] <;> omega)
    | (with_reducible apply State_set64_step (w := 0xC1); rotate_left; decide; simp only [windowOf, EVT_SRC_LTC_HI, EVT_SRC_LTC_LO, EVT_SRC_STAT, EVT_SRC_STAT.MULTI, EVT_SRC_STAT.PEND] <;> omega; simp only [windowOf, EVT_SRC_LTC_HI, EVT_SRC_LTC_LO, EVT_SRC_STAT, EVT_SRC_STAT.MULTI, EVT_SRC_STAT.PEND] <;> omega)
    | split

theorem State_writePend_mut (w : Nat) (value : Sys2Proof.Word) (s : State) : Upd [] (some [0xC1]) s (State.writePend w value s) := by
  unfold State.writePend
  repeat' first
    | with_reducible assumption
    | with_reducible apply Upd.refl
    | (with_reducible apply Upd.comp (State_clearPend_mut ..) <;> first | decide | skip)
    | (with_reducible apply Upd.foldl <;> first | (intro y a ha hy; skip) | skip)
    | split

theorem State_clearMulti_mut (n : Nat) (s : State) : Upd [] (some [0xC1]) s (State.clearMulti n s) := by
  unfold State.clearMulti
  repeat' first
    | with_reducible apply Upd.refl
    | (with_reducible apply State_setB_step (w := 0xC1); rotate_left; decide; simp only [windowOf, EVT_SRC_STAT, EVT_SRC_STAT.MULTI] <;> omega)
    | split

theorem State_writeSrcStat_mut (n : Nat) (value : Sys2Proof.Word) (s : State) : Upd [.cyc, .rcd] (some [0xC1]) s (State.writeSrcStat n value s) := by
  unfold State.writeSrcStat
  repeat' first
    | (extract_lets +onlyGivenNames x; refine Upd.cut (P := [.cyc, .rcd]) (W := (some [0xC1])) (s := s) (x := x) ?_ (fun hx => ?_); rotate_left; clear_value x; rotate_left; subst x)
    | (extract_lets +onlyGivenNames x; subst x)
    | with_reducible assumption
    | with_reducible apply Upd.refl
    | (with_reducible apply State_setB_step (w := 0xC1); rotate_left; decide; simp only [windowOf, EVT_SRC_STAT, EVT_SRC_STAT.MULTI] <;> omega)
    | (with_reducible apply Upd.comp (State_clearMulti_mut ..) <;> first | decide | skip)
    | (with_reducible apply Upd.comp (State_raise_mut ..) <;> first | decide | skip)
    | (with_reducible refine Upd.when ?_ (fun y hy => ?_))
    | (with_reducible apply Upd.comp (State_clearPend_mut ..) <;> first | decide | skip)
    | split

theorem State_fixedWrite_mut (a : Nat) (value : Sys2Proof.Word) (s : State) : OptUpd [.latch, .dram, .mram, .sys, .ka, .cyc, .str, .rings, .tms, .inp, .cle, .vdr, .stk, .saf, .gnb, .cam, .fen, .arb, .fus, .yld, .bus, .eth, .pair, .pnl, .rcd, .upd] none s (State.fixedWrite a value s) := by
  unfold State.fixedWrite
  repeat' first
    | with_reducible apply Upd.refl
    | with_reducible apply OptUpd.ofNone
    | with_reducible apply OptUpd.ofSome
    | (with_reducible apply Upd.comp (State_writeDet_mut ..) <;> first | decide | skip)
    | (with_reducible apply Upd.comp (State_writeRldCtrl_mut ..) <;> first | decide | skip)
    | (with_reducible apply Upd.comp (State_writeCapStat_mut ..) <;> first | decide | skip)
    | (with_reducible apply Upd.comp (State_writeBlkRst_mut ..) <;> first | decide | skip)
    | (with_reducible apply Upd.comp (State_writeSrcStat_mut ..) <;> first | decide | skip)
    | (with_reducible apply Upd.comp (State_wdtRestart_mut ..) <;> first | decide | skip)
    | (with_reducible apply Upd.comp (State_writeObsCtrl_mut ..) <;> first | decide | skip)
    | (with_reducible apply Upd.comp (State_writePend_mut ..) <;> first | decide | skip)
    | (with_reducible apply Upd.comp (State_writePwrReq_mut ..) <;> first | decide | skip)
    | (with_reducible apply Upd.comp (State_writeWdtCfg_mut ..) <;> first | decide | skip)
    | (with_reducible apply Upd.comp (State_writeKaFlags_mut ..) <;> first | decide | skip)
    | split
    | with_reducible apply OptUpd.ite

theorem State_gnbCamWrite_mut (a : Nat) (value : Sys2Proof.Word) (s : State) : OptUpd [.cyc, .saf, .gnb, .cam, .arb, .rcd] none s (State.gnbCamWrite a value s) := by
  unfold State.gnbCamWrite
  repeat' first
    | (extract_lets +onlyGivenNames x; subst x)
    | with_reducible apply Upd.refl
    | with_reducible apply OptUpd.ofNone
    | with_reducible apply OptUpd.ofSome
    | (with_reducible apply Upd.comp (State_writeAccCi_mut ..) <;> first | decide | skip)
    | (with_reducible apply Upd.comp (State_writeArbCfg_mut ..) <;> first | decide | skip)
    | (with_reducible apply Upd.comp (State_writeMsThr_mut ..) <;> first | decide | skip)
    | (with_reducible apply Upd.comp (State_writeNotch_mut ..) <;> first | decide | skip)
    | (with_reducible apply Upd.comp (State_writeFrCi_mut ..) <;> first | decide | skip)
    | (with_reducible apply Upd.comp (State_writeLnkCfg_mut ..) <;> first | decide | skip)
    | (with_reducible apply Upd.comp (State_writeMsCi_mut ..) <;> first | decide | skip)
    | (with_reducible apply Upd.comp (State_writeCci_mut ..) <;> first | decide | skip)
    | (with_reducible apply Upd.comp (State_writeChainCfg_mut ..) <;> first | decide | skip)
    | (with_reducible apply Upd.comp (State_writeMbx_mut ..) <;> first | decide | skip)
    | (with_reducible apply Upd.comp (State_writeChainStat_mut ..) <;> first | decide | skip)
    | (with_reducible apply Upd.comp (State_writeAnt_mut ..) <;> first | decide | skip)
    | (with_reducible apply Upd.comp (State_writeHreq_mut ..) <;> first | decide | skip)
    | split

theorem State_writeCringCi_mut (b : Nat) (r : Nat) (value : Sys2Proof.Word) (s : State) : Upd [.rings] none s (State.writeCringCi b r value s) := by
  unfold State.writeCringCi
  repeat' first
    | (extract_lets +onlyGivenNames x; refine Upd.cut (P := [.rings]) (W := none) (s := s) (x := x) ?_ (fun hx => ?_); rotate_left; clear_value x; rotate_left; subst x)
    | (extract_lets +onlyGivenNames x; subst x)
    | with_reducible assumption
    | with_reducible apply Upd.refl
    | (with_reducible apply Upd.comp (set_any ..) <;> first | decide | skip)
    | (with_reducible apply Upd.comp (State_setRing_mut ..) <;> first | decide | skip)
    | split

theorem State_writePi_mut (b : Nat) (r : Nat) (value : Sys2Proof.Word) (s : State) : Upd [.rings] none s (State.writePi b r value s) := by
  unfold State.writePi
  repeat' first
    | (extract_lets +onlyGivenNames x; refine Upd.cut (P := [.rings]) (W := none) (s := s) (x := x) ?_ (fun hx => ?_); rotate_left; clear_value x; rotate_left; subst x)
    | (extract_lets +onlyGivenNames x; subst x)
    | with_reducible assumption
    | with_reducible apply Upd.refl
    | (with_reducible apply Upd.comp (set_any ..) <;> first | decide | skip)
    | (with_reducible apply Upd.comp (State_setRing_mut ..) <;> first | decide | skip)
    | split

theorem State_specialWrite_mut (a : Nat) (value : Sys2Proof.Word) (s : State) : OptUpd [.latch, .dram, .mram, .free, .sys, .ka, .cyc, .str, .rings, .tms, .inp, .cle, .vdr, .stk, .saf, .gnb, .cam, .fen, .arb, .fus, .yld, .bus, .eth, .pair, .pnl, .rcd, .upd] none s (State.specialWrite a value s) := by
  unfold State.specialWrite
  repeat' first
    | (extract_lets +onlyGivenNames x; subst x)
    | with_reducible apply Upd.refl
    | with_reducible apply OptUpd.ofNone
    | with_reducible apply OptUpd.ofSome
    | (with_reducible apply OptUpd.comp (State_inpWrite_mut ..) <;> first | decide | skip)
    | (with_reducible apply OptUpd.comp (State_cleWrite_mut ..) <;> first | decide | skip)
    | (with_reducible apply OptUpd.comp (State_gnbCamWrite_mut ..) <;> first | decide | skip)
    | (with_reducible apply OptUpd.comp (State_fusWrite_mut ..) <;> first | decide | skip)
    | (with_reducible apply OptUpd.comp (State_ethUpdWrite_mut ..) <;> first | decide | skip)
    | (with_reducible apply Upd.comp (State_writeCringCi_mut ..) <;> first | decide | skip)
    | (with_reducible apply OptUpd.comp (State_busWrite_mut ..) <;> first | decide | skip)
    | (with_reducible apply OptUpd.comp (State_vdrWrite_mut ..) <;> first | decide | skip)
    | (with_reducible apply Upd.comp (State_writePi_mut ..) <;> first | decide | skip)
    | (with_reducible apply OptUpd.comp (State_yldWrite_mut ..) <;> first | decide | skip)
    | (with_reducible apply OptUpd.comp (State_fixedWrite_mut ..) <;> first | decide | skip)
    | split

theorem State_regWrite_mut (a : Nat) (value : Sys2Proof.Word) (s : State) : Upd [.latch, .dram, .mram, .free, .sys, .ka, .cyc, .str, .rings, .tms, .inp, .cle, .vdr, .stk, .saf, .gnb, .cam, .fen, .arb, .fus, .yld, .bus, .eth, .pair, .pnl, .rcd, .upd] none s (State.regWrite a value s) := by
  unfold State.regWrite
  repeat' first
    | (extract_lets +onlyGivenNames x; refine Upd.cut (P := [.latch, .dram, .mram, .free, .sys, .ka, .cyc, .str, .rings, .tms, .inp, .cle, .vdr, .stk, .saf, .gnb, .cam, .fen, .arb, .fus, .yld, .bus, .eth, .pair, .pnl, .rcd, .upd]) (W := none) (s := s) (x := x) ?_ (fun hx => ?_); rotate_left; clear_value x; rotate_left; subst x)
    | (extract_lets +onlyGivenNames x; subst x)
    | with_reducible assumption
    | with_reducible apply Upd.refl
    | (with_reducible apply OptUpd.comp (State_specialWrite_mut ..) <;> first | decide | skip)
    | (with_reducible apply Upd.comp (State_writeEnable_mut ..) <;> first | decide | skip)
    | (with_reducible apply Upd.comp (State_plainWrite_mut ..) <;> first | decide | skip)
    | (with_reducible refine OptUpd.of_eq ?_ (by assumption))
    | split

theorem State_hostWrite_mut (core : Nat) (a : Nat) (value : Sys2Proof.Word) (s : State) : Upd [.latch, .access, .dram, .mram, .free, .sys, .ka, .cyc, .str, .rings, .tms, .inp, .cle, .vdr, .stk, .saf, .gnb, .cam, .fen, .arb, .fus, .yld, .bus, .eth, .pair, .pnl, .rcd, .upd] none s (State.hostWrite core a value s) := by
  unfold State.hostWrite
  repeat' first
    | (extract_lets +onlyGivenNames x; refine Upd.cut (P := [.latch, .access, .dram, .mram, .free, .sys, .ka, .cyc, .str, .rings, .tms, .inp, .cle, .vdr, .stk, .saf, .gnb, .cam, .fen, .arb, .fus, .yld, .bus, .eth, .pair, .pnl, .rcd, .upd]) (W := none) (s := s) (x := x) ?_ (fun hx => ?_); rotate_left; clear_value x; rotate_left; subst x)
    | with_reducible assumption
    | with_reducible apply Upd.refl
    | (with_reducible apply Upd.comp (State_busError_mut ..) <;> first | decide | skip)
    | (with_reducible apply Upd.comp (State_regWrite_mut ..) <;> first | decide | skip)
    | (with_reducible show Upd _ _ _ _; with_reducible rw [State.mk_box]; with_reducible apply Upd.box <;> first | (left; with_reducible rfl) | (right; decide) | skip)
    | split

theorem execLinkCfgWrite_mut (core : Fin 8) (l : Fin 4) (value : Sys2Proof.Word) (s : State) : OutUpd [.latch, .access, .dram, .mram, .free, .sys, .ka, .cyc, .str, .rings, .tms, .inp, .cle, .vdr, .stk, .saf, .gnb, .cam, .fen, .arb, .fus, .yld, .bus, .eth, .pair, .pnl, .rcd, .upd] none s (execLinkCfgWrite core l value s) := by
  unfold execLinkCfgWrite
  repeat' first
    | with_reducible apply Upd.refl
    | with_reducible apply OutUpd.next
    | (with_reducible apply Upd.comp (State_hostWrite_mut ..) <;> first | decide | skip)

theorem execVoteReadmit_mut (core : Fin 8) (x : Fin 24) (value : Sys2Proof.Word) (s : State) : OutUpd [.latch, .access, .dram, .mram, .free, .sys, .ka, .cyc, .str, .rings, .tms, .inp, .cle, .vdr, .stk, .saf, .gnb, .cam, .fen, .arb, .fus, .yld, .bus, .eth, .pair, .pnl, .rcd, .upd] none s (execVoteReadmit core x value s) := by
  unfold execVoteReadmit
  repeat' first
    | with_reducible apply Upd.refl
    | with_reducible apply OutUpd.next
    | (with_reducible apply Upd.comp (State_hostWrite_mut ..) <;> first | decide | skip)

theorem State_clearRc_mut (a : Nat) (s : State) : Upd [] none s (State.clearRc a s) := by
  unfold State.clearRc
  repeat' first
    | with_reducible apply Upd.refl
    | (with_reducible apply Upd.comp (setReg_any ..) <;> first | decide | skip)
    | split

theorem State_latchRead_mut (core : Nat) (a : Nat) (s : State) : OptUpd [.latch, .access] none s (State.latchRead core a s) := by
  have four (bs : List Nat) : Upd [.latch, .access] none s ((bs.foldl (fun (t : State) b => t.latchFor core b (s.liveReg b)) s).answer core (s.liveReg a)) := by
    refine Upd.comp (State_answer_mut ..) (by decide) rfl ?_
    exact Upd.foldl _ (fun y b _ hy => Upd.comp (State_latchFor_mut ..) (by decide) rfl hy) (Upd.refl s)
  unfold State.latchRead
  dsimp only
  repeat' first
    | with_reducible apply OptUpd.ofNone
    | with_reducible apply OptUpd.ofSome
    | with_reducible apply OptUpd.ite
    | with_reducible exact four _
    | with_reducible apply Upd.refl
    | (with_reducible apply Upd.comp (State_readLtc_mut ..) <;> first | decide | skip)
    | (with_reducible apply Upd.comp (State_readTpStat_mut ..) <;> first | decide | skip)
    | (with_reducible apply Upd.comp (State_readAinRaw_mut ..) <;> first | decide | skip)
    | (with_reducible apply Upd.comp (State_readPinVal_mut ..) <;> first | decide | skip)
    | (with_reducible apply Upd.comp (State_readLacCnt_mut ..) <;> first | decide | skip)
    | (with_reducible apply Upd.comp (State_readFlowStat_mut ..) <;> first | decide | skip)
    | (with_reducible apply Upd.comp (State_readFrame_mut ..) <;> first | decide | skip)
    | (with_reducible apply Upd.comp (State_readSample_mut ..) <;> first | decide | skip)
    | (with_reducible apply Upd.comp (State_readSense_mut ..) <;> first | decide | skip)
    | (with_reducible apply Upd.comp (State_readCtx_mut ..) <;> first | decide | skip)
    | (with_reducible apply Upd.comp (State_readGnb_mut ..) <;> first | decide | skip)
    | (with_reducible apply Upd.comp (State_readCamCtx_mut ..) <;> first | decide | skip)
    | (with_reducible apply Upd.comp (State_readObj_mut ..) <;> first | decide | skip)

theorem State_hostRead_mut (core : Nat) (a : Nat) (s : State) : Upd [.latch, .access] none s (State.hostRead core a s) := by
  unfold State.hostRead
  repeat' first
    | with_reducible apply Upd.refl
    | (with_reducible apply Upd.comp (State_answer_mut ..) <;> first | decide | skip)
    | (with_reducible apply Upd.comp (State_busError_mut ..) <;> first | decide | skip)
    | (with_reducible apply OptUpd.comp (State_latchRead_mut ..) <;> first | decide | skip)
    | (with_reducible apply Upd.comp (State_clearRc_mut ..) <;> first | decide | skip)
    | (with_reducible refine OptUpd.of_eq ?_ (by assumption))
    | split

theorem execVdrSenseRead_mut (core : Fin 8) (k : Fin 64) (s : State) : OutUpd [.latch, .access] none s (execVdrSenseRead core k s) := by
  unfold execVdrSenseRead
  repeat' first
    | with_reducible apply Upd.refl
    | with_reducible apply OutUpd.next
    | (with_reducible apply Upd.comp (State_hostRead_mut ..) <;> first | decide | skip)

theorem execFusCalvRead_mut (core : Fin 8) (x : Fin 24) (s : State) : OutUpd [.latch, .access] none s (execFusCalvRead core x s) := by
  unfold execFusCalvRead
  repeat' first
    | with_reducible apply Upd.refl
    | with_reducible apply OutUpd.next
    | (with_reducible apply Upd.comp (State_hostRead_mut ..) <;> first | decide | skip)

theorem execObjSend_mut (core : Fin 8) (x : Fin 2048) (value : Sys2Proof.Word) (s : State) : OutUpd [.latch, .access, .dram, .mram, .free, .sys, .ka, .cyc, .str, .rings, .tms, .inp, .cle, .vdr, .stk, .saf, .gnb, .cam, .fen, .arb, .fus, .yld, .bus, .eth, .pair, .pnl, .rcd, .upd] none s (execObjSend core x value s) := by
  unfold execObjSend
  repeat' first
    | with_reducible apply Upd.refl
    | with_reducible apply OutUpd.next
    | (with_reducible apply Upd.comp (State_hostWrite_mut ..) <;> first | decide | skip)
    | split

theorem execCamCtxRead_mut (core : Fin 8) (x : Fin 32) (s : State) : OutUpd [.latch, .access] none s (execCamCtxRead core x s) := by
  unfold execCamCtxRead
  repeat' first
    | with_reducible apply Upd.refl
    | with_reducible apply OutUpd.next
    | (with_reducible apply Upd.comp (State_hostRead_mut ..) <;> first | decide | skip)

theorem execCapPop_mut (core : Fin 8) (ch : Fin 7) (s : State) : OutUpd [.latch, .access, .dram, .mram, .free, .sys, .ka, .cyc, .str, .rings, .tms, .inp, .cle, .vdr, .stk, .saf, .gnb, .cam, .fen, .arb, .fus, .yld, .bus, .eth, .pair, .pnl, .rcd, .upd] none s (execCapPop core ch s) := by
  unfold execCapPop
  repeat' first
    | with_reducible apply Upd.refl
    | with_reducible apply OutUpd.next
    | (with_reducible apply Upd.comp (State_hostWrite_mut ..) <;> first | decide | skip)

theorem execWdtKick_mut (core : Fin 8) (value : Sys2Proof.Word) (s : State) : OutUpd [.latch, .access, .dram, .mram, .free, .sys, .ka, .cyc, .str, .rings, .tms, .inp, .cle, .vdr, .stk, .saf, .gnb, .cam, .fen, .arb, .fus, .yld, .bus, .eth, .pair, .pnl, .rcd, .upd] none s (execWdtKick core value s) := by
  unfold execWdtKick
  repeat' first
    | with_reducible apply Upd.refl
    | with_reducible apply OutUpd.next
    | (with_reducible apply Upd.comp (State_hostWrite_mut ..) <;> first | decide | skip)

theorem execVdrOutCfgWrite_mut (core : Fin 8) (k : Fin 64) (value : Sys2Proof.Word) (s : State) : OutUpd [.latch, .access, .dram, .mram, .free, .sys, .ka, .cyc, .str, .rings, .tms, .inp, .cle, .vdr, .stk, .saf, .gnb, .cam, .fen, .arb, .fus, .yld, .bus, .eth, .pair, .pnl, .rcd, .upd] none s (execVdrOutCfgWrite core k value s) := by
  unfold execVdrOutCfgWrite
  repeat' first
    | with_reducible apply Upd.refl
    | with_reducible apply OutUpd.next
    | (with_reducible apply Upd.comp (State_hostWrite_mut ..) <;> first | decide | skip)

theorem execObsPush_mut (core : Fin 8) (value : Sys2Proof.Word) (s : State) : OutUpd [.latch, .access, .dram, .mram, .free, .sys, .ka, .cyc, .str, .rings, .tms, .inp, .cle, .vdr, .stk, .saf, .gnb, .cam, .fen, .arb, .fus, .yld, .bus, .eth, .pair, .pnl, .rcd, .upd] none s (execObsPush core value s) := by
  unfold execObsPush
  repeat' first
    | with_reducible apply Upd.refl
    | with_reducible apply OutUpd.next
    | (with_reducible apply Upd.comp (State_hostWrite_mut ..) <;> first | decide | skip)

theorem execUsbEnable_mut (core : Fin 8) (value : Sys2Proof.Word) (s : State) : OutUpd [.latch, .access, .dram, .mram, .free, .sys, .ka, .cyc, .str, .rings, .tms, .inp, .cle, .vdr, .stk, .saf, .gnb, .cam, .fen, .arb, .fus, .yld, .bus, .eth, .pair, .pnl, .rcd, .upd] none s (execUsbEnable core value s) := by
  unfold execUsbEnable
  repeat' first
    | with_reducible apply Upd.refl
    | with_reducible apply OutUpd.next
    | (with_reducible apply Upd.comp (State_hostWrite_mut ..) <;> first | decide | skip)

theorem execArbFreeze_mut (core : Fin 8) (a : Fin 2) (value : Sys2Proof.Word) (s : State) : OutUpd [.latch, .access, .dram, .mram, .free, .sys, .ka, .cyc, .str, .rings, .tms, .inp, .cle, .vdr, .stk, .saf, .gnb, .cam, .fen, .arb, .fus, .yld, .bus, .eth, .pair, .pnl, .rcd, .upd] none s (execArbFreeze core a value s) := by
  unfold execArbFreeze
  repeat' first
    | with_reducible apply Upd.refl
    | with_reducible apply OutUpd.next
    | (with_reducible apply Upd.comp (State_hostWrite_mut ..) <;> first | decide | skip)

theorem execEvtSet_mut (core : Fin 8) (src : Fin 384) (value : Sys2Proof.Word) (s : State) : OutUpd [.latch, .access, .dram, .mram, .free, .sys, .ka, .cyc, .str, .rings, .tms, .inp, .cle, .vdr, .stk, .saf, .gnb, .cam, .fen, .arb, .fus, .yld, .bus, .eth, .pair, .pnl, .rcd, .upd] none s (execEvtSet core src value s) := by
  unfold execEvtSet
  repeat' first
    | with_reducible apply Upd.refl
    | with_reducible apply OutUpd.next
    | (with_reducible apply Upd.comp (State_hostWrite_mut ..) <;> first | decide | skip)

theorem execAinRawRead_mut (core : Fin 8) (n : Fin 48) (s : State) : OutUpd [.latch, .access] none s (execAinRawRead core n s) := by
  unfold execAinRawRead
  repeat' first
    | with_reducible apply Upd.refl
    | with_reducible apply OutUpd.next
    | (with_reducible apply Upd.comp (State_hostRead_mut ..) <;> first | decide | skip)

theorem execTmsSnapshotRead_mut (core : Fin 8) (s : State) : OutUpd [.latch, .access] none s (execTmsSnapshotRead core s) := by
  unfold execTmsSnapshotRead
  repeat' first
    | with_reducible apply Upd.refl
    | with_reducible apply OutUpd.next
    | (with_reducible apply Upd.comp (State_hostRead_mut ..) <;> first | decide | skip)

theorem execGnbScRead_mut (core : Fin 8) (which : Fin 514) (s : State) : OutUpd [.latch, .access] none s (execGnbScRead core which s) := by
  unfold execGnbScRead
  repeat' first
    | with_reducible apply Upd.refl
    | with_reducible apply OutUpd.next
    | (with_reducible apply Upd.comp (State_hostRead_mut ..) <;> first | decide | skip)

theorem execLacCntRead_mut (core : Fin 8) (n : Fin 8) (s : State) : OutUpd [.latch, .access] none s (execLacCntRead core n s) := by
  unfold execLacCntRead
  repeat' first
    | with_reducible apply Upd.refl
    | with_reducible apply OutUpd.next
    | (with_reducible apply Upd.comp (State_hostRead_mut ..) <;> first | decide | skip)

theorem execBusRecover_mut (core : Fin 8) (n : Fin 8) (value : Sys2Proof.Word) (s : State) : OutUpd [.latch, .access, .dram, .mram, .free, .sys, .ka, .cyc, .str, .rings, .tms, .inp, .cle, .vdr, .stk, .saf, .gnb, .cam, .fen, .arb, .fus, .yld, .bus, .eth, .pair, .pnl, .rcd, .upd] none s (execBusRecover core n value s) := by
  unfold execBusRecover
  repeat' first
    | with_reducible apply Upd.refl
    | with_reducible apply OutUpd.next
    | (with_reducible apply Upd.comp (State_hostWrite_mut ..) <;> first | decide | skip)

theorem execFlEnableWrite_mut (core : Fin 8) (value : Sys2Proof.Word) (s : State) : OutUpd [.latch, .access, .dram, .mram, .free, .sys, .ka, .cyc, .str, .rings, .tms, .inp, .cle, .vdr, .stk, .saf, .gnb, .cam, .fen, .arb, .fus, .yld, .bus, .eth, .pair, .pnl, .rcd, .upd] none s (execFlEnableWrite core value s) := by
  unfold execFlEnableWrite
  repeat' first
    | with_reducible apply Upd.refl
    | with_reducible apply OutUpd.next
    | (with_reducible apply Upd.comp (State_hostWrite_mut ..) <;> first | decide | skip)

theorem execReloadRequest_mut (core : Fin 8) (value : Sys2Proof.Word) (s : State) : OutUpd [.latch, .access, .dram, .mram, .free, .sys, .ka, .cyc, .str, .rings, .tms, .inp, .cle, .vdr, .stk, .saf, .gnb, .cam, .fen, .arb, .fus, .yld, .bus, .eth, .pair, .pnl, .rcd, .upd] none s (execReloadRequest core value s) := by
  unfold execReloadRequest
  repeat' first
    | with_reducible apply Upd.refl
    | with_reducible apply OutUpd.next
    | (with_reducible apply Upd.comp (State_hostWrite_mut ..) <;> first | decide | skip)

theorem execAinRearm_mut (core : Fin 8) (n : Fin 48) (value : Sys2Proof.Word) (s : State) : OutUpd [.latch, .access, .dram, .mram, .free, .sys, .ka, .cyc, .str, .rings, .tms, .inp, .cle, .vdr, .stk, .saf, .gnb, .cam, .fen, .arb, .fus, .yld, .bus, .eth, .pair, .pnl, .rcd, .upd] none s (execAinRearm core n value s) := by
  unfold execAinRearm
  repeat' first
    | with_reducible apply Upd.refl
    | with_reducible apply OutUpd.next
    | (with_reducible apply Upd.comp (State_hostWrite_mut ..) <;> first | decide | skip)

theorem execBlockReset_mut (core : Fin 8) (value : Sys2Proof.Word) (s : State) : OutUpd [.latch, .access, .dram, .mram, .free, .sys, .ka, .cyc, .str, .rings, .tms, .inp, .cle, .vdr, .stk, .saf, .gnb, .cam, .fen, .arb, .fus, .yld, .bus, .eth, .pair, .pnl, .rcd, .upd] none s (execBlockReset core value s) := by
  unfold execBlockReset
  repeat' first
    | with_reducible apply Upd.refl
    | with_reducible apply OutUpd.next
    | (with_reducible apply Upd.comp (State_hostWrite_mut ..) <;> first | decide | skip)

theorem execParkRequest_mut (core : Fin 8) (value : Sys2Proof.Word) (s : State) : OutUpd [.latch, .access, .dram, .mram, .free, .sys, .ka, .cyc, .str, .rings, .tms, .inp, .cle, .vdr, .stk, .saf, .gnb, .cam, .fen, .arb, .fus, .yld, .bus, .eth, .pair, .pnl, .rcd, .upd] none s (execParkRequest core value s) := by
  unfold execParkRequest
  repeat' first
    | with_reducible apply Upd.refl
    | with_reducible apply OutUpd.next
    | (with_reducible apply Upd.comp (State_hostWrite_mut ..) <;> first | decide | skip)
    | split

theorem execAntBiasEnable_mut (core : Fin 8) (a : Fin 2) (value : Sys2Proof.Word) (s : State) : OutUpd [.latch, .access, .dram, .mram, .free, .sys, .ka, .cyc, .str, .rings, .tms, .inp, .cle, .vdr, .stk, .saf, .gnb, .cam, .fen, .arb, .fus, .yld, .bus, .eth, .pair, .pnl, .rcd, .upd] none s (execAntBiasEnable core a value s) := by
  unfold execAntBiasEnable
  repeat' first
    | with_reducible apply Upd.refl
    | with_reducible apply OutUpd.next
    | (with_reducible apply Upd.comp (State_hostWrite_mut ..) <;> first | decide | skip)

theorem execHostArbRequest_mut (core : Fin 8) (value : Sys2Proof.Word) (s : State) : OutUpd [.latch, .access, .dram, .mram, .free, .sys, .ka, .cyc, .str, .rings, .tms, .inp, .cle, .vdr, .stk, .saf, .gnb, .cam, .fen, .arb, .fus, .yld, .bus, .eth, .pair, .pnl, .rcd, .upd] none s (execHostArbRequest core value s) := by
  unfold execHostArbRequest
  repeat' first
    | with_reducible apply Upd.refl
    | with_reducible apply OutUpd.next
    | (with_reducible apply Upd.comp (State_hostWrite_mut ..) <;> first | decide | skip)

theorem execStandbyRequest_mut (core : Fin 8) (value : Sys2Proof.Word) (s : State) : OutUpd [.latch, .access, .dram, .mram, .free, .sys, .ka, .cyc, .str, .rings, .tms, .inp, .cle, .vdr, .stk, .saf, .gnb, .cam, .fen, .arb, .fus, .yld, .bus, .eth, .pair, .pnl, .rcd, .upd] none s (execStandbyRequest core value s) := by
  unfold execStandbyRequest
  repeat' first
    | with_reducible apply Upd.refl
    | with_reducible apply OutUpd.next
    | (with_reducible apply Upd.comp (State_hostWrite_mut ..) <;> first | decide | skip)
    | split

theorem execEnableSet_mut (core : Fin 8) (blk : Fin 21) (value : Sys2Proof.Word) (s : State) : OutUpd [.latch, .access, .dram, .mram, .free, .sys, .ka, .cyc, .str, .rings, .tms, .inp, .cle, .vdr, .stk, .saf, .gnb, .cam, .fen, .arb, .fus, .yld, .bus, .eth, .pair, .pnl, .rcd, .upd] none s (execEnableSet core blk value s) := by
  unfold execEnableSet
  repeat' first
    | with_reducible apply Upd.refl
    | with_reducible apply OutUpd.next
    | (with_reducible apply Upd.comp (State_hostWrite_mut ..) <;> first | decide | skip)
    | split

theorem execCciStart_mut (core : Fin 8) (l : Fin 4) (value : Sys2Proof.Word) (s : State) : OutUpd [.latch, .access, .dram, .mram, .free, .sys, .ka, .cyc, .str, .rings, .tms, .inp, .cle, .vdr, .stk, .saf, .gnb, .cam, .fen, .arb, .fus, .yld, .bus, .eth, .pair, .pnl, .rcd, .upd] none s (execCciStart core l value s) := by
  unfold execCciStart
  repeat' first
    | with_reducible apply Upd.refl
    | with_reducible apply OutUpd.next
    | (with_reducible apply Upd.comp (State_hostWrite_mut ..) <;> first | decide | skip)

theorem execVdrFaultClear_mut (core : Fin 8) (reg : Fin 80) (value : Sys2Proof.Word) (s : State) : OutUpd [.latch, .access, .dram, .mram, .free, .sys, .ka, .cyc, .str, .rings, .tms, .inp, .cle, .vdr, .stk, .saf, .gnb, .cam, .fen, .arb, .fus, .yld, .bus, .eth, .pair, .pnl, .rcd, .upd] none s (execVdrFaultClear core reg value s) := by
  unfold execVdrFaultClear
  repeat' first
    | with_reducible apply Upd.refl
    | with_reducible apply OutUpd.next
    | (with_reducible apply Upd.comp (State_hostWrite_mut ..) <;> first | decide | skip)

theorem execWdtPeriodWrite_mut (core : Fin 8) (value : Sys2Proof.Word) (s : State) : OutUpd [.latch, .access, .dram, .mram, .free, .sys, .ka, .cyc, .str, .rings, .tms, .inp, .cle, .vdr, .stk, .saf, .gnb, .cam, .fen, .arb, .fus, .yld, .bus, .eth, .pair, .pnl, .rcd, .upd] none s (execWdtPeriodWrite core value s) := by
  unfold execWdtPeriodWrite
  repeat' first
    | with_reducible apply Upd.refl
    | with_reducible apply OutUpd.next
    | (with_reducible apply Upd.comp (State_hostWrite_mut ..) <;> first | decide | skip)

theorem execPinValRead_mut (core : Fin 8) (n : Fin 24) (s : State) : OutUpd [.latch, .access] none s (execPinValRead core n s) := by
  unfold execPinValRead
  repeat' first
    | with_reducible apply Upd.refl
    | with_reducible apply OutUpd.next
    | (with_reducible apply Upd.comp (State_hostRead_mut ..) <;> first | decide | skip)

theorem execSsupEnable_mut (core : Fin 8) (value : Sys2Proof.Word) (s : State) : OutUpd [.latch, .access, .dram, .mram, .free, .sys, .ka, .cyc, .str, .rings, .tms, .inp, .cle, .vdr, .stk, .saf, .gnb, .cam, .fen, .arb, .fus, .yld, .bus, .eth, .pair, .pnl, .rcd, .upd] none s (execSsupEnable core value s) := by
  unfold execSsupEnable
  repeat' first
    | with_reducible apply Upd.refl
    | with_reducible apply OutUpd.next
    | (with_reducible apply Upd.comp (State_hostWrite_mut ..) <;> first | decide | skip)

theorem execIdleRequest_mut (core : Fin 8) (value : Sys2Proof.Word) (s : State) : OutUpd [.latch, .access, .dram, .mram, .free, .sys, .ka, .cyc, .str, .rings, .tms, .inp, .cle, .vdr, .stk, .saf, .gnb, .cam, .fen, .arb, .fus, .yld, .bus, .eth, .pair, .pnl, .rcd, .upd] none s (execIdleRequest core value s) := by
  unfold execIdleRequest
  repeat' first
    | with_reducible apply Upd.refl
    | with_reducible apply OutUpd.next
    | (with_reducible apply Upd.comp (State_hostWrite_mut ..) <;> first | decide | skip)
    | split

theorem execFusImuRead_mut (core : Fin 8) (s : State) : OutUpd [.latch, .access] none s (execFusImuRead core s) := by
  unfold execFusImuRead
  repeat' first
    | with_reducible apply Upd.refl
    | with_reducible apply OutUpd.next
    | (with_reducible apply Upd.comp (State_hostRead_mut ..) <;> first | decide | skip)

theorem execCleFrameRead_mut (core : Fin 8) (s : State) : OutUpd [.latch, .access] none s (execCleFrameRead core s) := by
  unfold execCleFrameRead
  repeat' first
    | with_reducible apply Upd.refl
    | with_reducible apply OutUpd.next
    | (with_reducible apply Upd.comp (State_hostRead_mut ..) <;> first | decide | skip)

theorem execBusObjRead_mut (core : Fin 8) (x : Fin 2048) (s : State) : OutUpd [.latch, .access] none s (execBusObjRead core x s) := by
  unfold execBusObjRead
  repeat' first
    | with_reducible apply Upd.refl
    | with_reducible apply OutUpd.next
    | (with_reducible apply Upd.comp (State_hostRead_mut ..) <;> first | decide | skip)

theorem execBadAccess_mut (core : Fin 8) (addr : Nat) (size : Nat) (_isWrite : Bool) (s : State) : OutUpd [.access] (some []) s (execBadAccess core addr size _isWrite s) := by
  unfold execBadAccess
  repeat' first
    | with_reducible apply Upd.refl
    | with_reducible apply OutUpd.next
    | (with_reducible apply Upd.comp (State_busError_mut ..) <;> first | decide | skip)
    | split

theorem execRegWrite_mut (core : Fin 8) (addr : Nat) (value : Sys2Proof.Word) (s : State) : OutUpd [.latch, .access, .dram, .mram, .free, .sys, .ka, .cyc, .str, .rings, .tms, .inp, .cle, .vdr, .stk, .saf, .gnb, .cam, .fen, .arb, .fus, .yld, .bus, .eth, .pair, .pnl, .rcd, .upd] none s (execRegWrite core addr value s) := by
  unfold execRegWrite
  repeat' first
    | with_reducible apply Upd.refl
    | with_reducible apply OutUpd.next
    | (with_reducible apply Upd.comp (State_hostWrite_mut ..) <;> first | decide | skip)

theorem execVdrCtxRead_mut (core : Fin 8) (k : Fin 64) (s : State) : OutUpd [.latch, .access] none s (execVdrCtxRead core k s) := by
  unfold execVdrCtxRead
  repeat' first
    | with_reducible apply Upd.refl
    | with_reducible apply OutUpd.next
    | (with_reducible apply Upd.comp (State_hostRead_mut ..) <;> first | decide | skip)

theorem execCleHostSourceWrite_mut (core : Fin 8) (slot : Fin 96) (meas : Bool) (value : Sys2Proof.Word) (s : State) : OutUpd [.latch, .access, .dram, .mram, .free, .sys, .ka, .cyc, .str, .rings, .tms, .inp, .cle, .vdr, .stk, .saf, .gnb, .cam, .fen, .arb, .fus, .yld, .bus, .eth, .pair, .pnl, .rcd, .upd] none s (execCleHostSourceWrite core slot meas value s) := by
  unfold execCleHostSourceWrite
  repeat' first
    | with_reducible apply Upd.refl
    | with_reducible apply OutUpd.next
    | (with_reducible apply Upd.comp (State_hostWrite_mut ..) <;> first | decide | skip)

theorem execDramReadUe_mut (reader : Option (Fin 8)) (addr : Nat) (s : State) : OutUpd [.access, .cyc, .rcd] (some [0xC1]) s (execDramReadUe reader addr s) := by
  unfold execDramReadUe
  repeat' first
    | (extract_lets +onlyGivenNames x; refine Upd.cut (P := [.access, .cyc, .rcd]) (W := (some [0xC1])) (s := s) (x := x) ?_ (fun hx => ?_); rotate_left; clear_value x; rotate_left; subst x)
    | with_reducible assumption
    | with_reducible apply Upd.refl
    | with_reducible apply OutUpd.next
    | (with_reducible apply Upd.comp (State_busError_mut ..) <;> first | decide | skip)
    | (with_reducible apply Upd.comp (State_raise_mut ..) <;> first | decide | skip)
    | split

theorem execCleSampleRead_mut (core : Fin 8) (slot : Fin 96) (s : State) : OutUpd [.latch, .access] none s (execCleSampleRead core slot s) := by
  unfold execCleSampleRead
  repeat' first
    | with_reducible apply Upd.refl
    | with_reducible apply OutUpd.next
    | (with_reducible apply Upd.comp (State_hostRead_mut ..) <;> first | decide | skip)

theorem execSoftTrigger_mut (core : Fin 8) (value : Sys2Proof.Word) (s : State) : OutUpd [.latch, .access, .dram, .mram, .free, .sys, .ka, .cyc, .str, .rings, .tms, .inp, .cle, .vdr, .stk, .saf, .gnb, .cam, .fen, .arb, .fus, .yld, .bus, .eth, .pair, .pnl, .rcd, .upd] none s (execSoftTrigger core value s) := by
  unfold execSoftTrigger
  repeat' first
    | with_reducible apply Upd.refl
    | with_reducible apply OutUpd.next
    | (with_reducible apply Upd.comp (State_hostWrite_mut ..) <;> first | decide | skip)

theorem execObjAbort_mut (core : Fin 8) (x : Fin 2048) (value : Sys2Proof.Word) (s : State) : OutUpd [.latch, .access, .dram, .mram, .free, .sys, .ka, .cyc, .str, .rings, .tms, .inp, .cle, .vdr, .stk, .saf, .gnb, .cam, .fen, .arb, .fus, .yld, .bus, .eth, .pair, .pnl, .rcd, .upd] none s (execObjAbort core x value s) := by
  unfold execObjAbort
  repeat' first
    | with_reducible apply Upd.refl
    | with_reducible apply OutUpd.next
    | (with_reducible apply Upd.comp (State_hostWrite_mut ..) <;> first | decide | skip)
    | split

theorem execFlowStatRead_mut (core : Fin 8) (s : State) : OutUpd [.latch, .access] none s (execFlowStatRead core s) := by
  unfold execFlowStatRead
  repeat' first
    | with_reducible apply Upd.refl
    | with_reducible apply OutUpd.next
    | (with_reducible apply Upd.comp (State_hostRead_mut ..) <;> first | decide | skip)

theorem execCoefLive_mut (core : Fin 8) (slot : Fin 96) (word : Fin 1024) (value : Sys2Proof.Word) (s : State) : OutUpd [.latch, .access, .dram, .mram, .free, .sys, .ka, .cyc, .str, .rings, .tms, .inp, .cle, .vdr, .stk, .saf, .gnb, .cam, .fen, .arb, .fus, .yld, .bus, .eth, .pair, .pnl, .rcd, .upd] none s (execCoefLive core slot word value s) := by
  unfold execCoefLive
  repeat' first
    | with_reducible apply Upd.refl
    | with_reducible apply OutUpd.next
    | (with_reducible apply Upd.comp (State_hostWrite_mut ..) <;> first | decide | skip)
    | split

theorem execCalCommit_mut (core : Fin 8) (x : Fin 24) (value : Sys2Proof.Word) (s : State) : OutUpd [.latch, .access, .dram, .mram, .free, .sys, .ka, .cyc, .str, .rings, .tms, .inp, .cle, .vdr, .stk, .saf, .gnb, .cam, .fen, .arb, .fus, .yld, .bus, .eth, .pair, .pnl, .rcd, .upd] none s (execCalCommit core x value s) := by
  unfold execCalCommit
  repeat' first
    | with_reducible apply Upd.refl
    | with_reducible apply OutUpd.next
    | (with_reducible apply Upd.comp (State_hostWrite_mut ..) <;> first | decide | skip)

theorem execRcRead_mut (core : Fin 8) (addr : Nat) (s : State) : OutUpd [.latch, .access] none s (execRcRead core addr s) := by
  unfold execRcRead
  repeat' first
    | with_reducible apply Upd.refl
    | with_reducible apply OutUpd.next
    | (with_reducible apply Upd.comp (State_hostRead_mut ..) <;> first | decide | skip)

end Sys2Proof.Machine
end

