-- ==== Sys2Proof/Laws/Only.lean ====
section
/-! SUPPORT. Fields through one operation: what it leaves, said of any field that shares no bit with the ones it writes
(`State.only`), and the same for raises and completions. -/

set_option Elab.async false

namespace Sys2Proof.Machine

/-! ### One operation -/

theorem get_set_apart (s : State) (f g : Fld) (v : Nat) (h : g.apart f) (hw : f.lo + f.width ≤ 32) : (s.set f v).get g = s.get g :=
  get_set_ne s f g v (h.imp id fun h => ⟨hw, h⟩)

theorem get_setB_apart (s : State) (f g : Fld) (v : Bool) (h : g.apart f) (hw : f.lo + f.width ≤ 32) : (s.setB f v).get g = s.get g :=
  get_set_apart s f g _ h hw

theorem get_bump_apart (s : State) (f g : Fld) (n : Nat) (h : g.apart f) (hw : f.lo + f.width ≤ 32) : (s.bump f n).get g = s.get g :=
  get_set_apart s f g _ h hw

theorem get_wrapInc_apart (s : State) (f g : Fld) (h : g.apart f) (hw : f.lo + f.width ≤ 32) : (s.wrapInc f).get g = s.get g :=
  get_set_apart s f g _ h hw

/-- A field above bit 31 reads 0, and one of no bits too. -/
theorem bitsOf_high (w : Word) (lo n : Nat) (h : 32 ≤ lo ∨ lo + n ≤ 0) : bitsOf w.toNat lo n = 0 := by
  rcases h with h | h
  · have : w.toNat < 2 ^ lo := Nat.lt_of_lt_of_le w.isLt (Nat.pow_le_pow_right (by omega) h)
    simp [bitsOf, Nat.div_eq_of_lt this]
  · have : n = 0 := by omega
    subst this; simp [bitsOf, Nat.mod_one]

theorem get_setReg_apart (s : State) (a : Nat) (g : Fld) (w : Word) (h : g.apart (wordAt a)) : (s.setReg a w).get g = s.get g := by
  by_cases ha : g.addr = a
  · have h' : 32 ≤ g.lo ∨ g.lo + g.width ≤ 0 := by
      rcases h with h | h | h
      · exact absurd ha h
      · exact .inr h
      · exact .inl h
    simp only [State.get, bitsOf_high _ _ _ h']
  · exact get_setReg_ne s a g w ha

theorem get_set64_apart (s : State) (lo hi v : Nat) (g : Fld) (h1 : g.apart (wordAt lo)) (h2 : g.apart (wordAt hi)) : (s.set64 lo hi v).get g = s.get g := by
  rw [State.set64, get_setReg_apart _ _ _ _ h2, get_setReg_apart _ _ _ _ h1]

theorem get_bump_self (s : State) (f : Fld) (n : Nat) (h : f.lo + f.width ≤ 32) : (s.bump f n).get f = satTo (2 ^ f.width - 1) (s.get f + n) := by
  have : 0 < 2 ^ f.width := Nat.two_pow_pos _
  rw [State.bump, get_set_self s f _ h, Nat.mod_eq_of_lt]
  simp only [satTo]; split <;> omega

theorem get_wrapInc_self (s : State) (f : Fld) (h : f.lo + f.width ≤ 32) : (s.wrapInc f).get f = (s.get f + 1) % 2 ^ f.width := by
  rw [State.wrapInc, get_set_self s f _ h]

theorem get_of_regs {s t : State} (h : t.regs = s.regs) (g : Fld) : t.get g = s.get g := by simp only [State.get, State.reg, h]

theorem getB_of_get {s t : State} {g : Fld} (h : t.get g = s.get g) : t.getB g = s.getB g := by simp only [State.getB, h]

theorem get_wordAt (s : State) (a : Nat) : s.get (wordAt a) = (s.reg a).toNat := by
  have := (s.reg a).isLt
  simp only [State.get, wordAt, bitsOf, Nat.pow_zero, Nat.div_one]; omega

theorem reg_of_get {s t : State} {a : Nat} (h : t.get (wordAt a) = s.get (wordAt a)) : t.reg a = s.reg a := by
  rw [get_wordAt, get_wordAt] at h; exact BitVec.eq_of_toNat_eq h

/-! ### Raises -/

theorem get_raiseAt_apart (s : State) (n l : Nat) (g : Fld) (h : ∀ f ∈ raiseFlds n, g.apart f) : (s.raiseAt n l).get g = s.get g := by
  have h1 : g.apart (EVT_SRC_STAT.PEND n) := h _ (by simp [raiseFlds])
  have h2 : g.apart (EVT_SRC_STAT.MULTI n) := h _ (by simp [raiseFlds])
  have h3 : g.apart (wordAt (EVT_SRC_LTC_LO n)) := h _ (by simp [raiseFlds])
  have h4 : g.apart (wordAt (EVT_SRC_LTC_HI n)) := h _ (by simp [raiseFlds])
  have h0 : (s.rcdRaise n l).get g = s.get g := get_congr _ ((keeps_rcdRaise s n l).2.1 _ (by simp))
  have h5 (b : Bool) : ((s.rcdRaise n l).noteRaise n l b).get g = s.get g := (get_congr _ ((keeps_noteRaise _ n l b).2.1 _ (by simp))).trans h0
  unfold State.raiseAt
  dsimp only
  split
  · rfl
  · split
    · split
      · rw [get_setB_apart _ _ _ _ h2 (Nat.le_of_ble_eq_true rfl), h5]
      · rw [get_set64_apart _ _ _ _ _ h3 h4, get_setB_apart _ _ _ _ h1 (Nat.le_of_ble_eq_true rfl), h5]
    · exact h0

theorem get_raise_apart (s : State) (n : Nat) (g : Fld) (h : ∀ f ∈ raiseFlds n, g.apart f) : (s.raise n).get g = s.get g := get_raiseAt_apart s n s.now g h

/-! ### Frames by field -/

theorem only_refl (s : State) (ps : List Comp) (fs : List Fld) : s.only ps fs s := ⟨fun p _ => same_refl s p, fun _ _ => rfl, rfl, rfl⟩

theorem only_trans {s t u : State} {ps : List Comp} {fs : List Fld} (h : s.only ps fs t) (h' : t.only ps fs u) : s.only ps fs u :=
  ⟨fun p hp => same_trans (h.1 p hp) (h'.1 p hp), fun g hg => (h'.2.1 g hg).trans (h.2.1 g hg), h'.2.2.1.trans h.2.2.1, h'.2.2.2.trans h.2.2.2⟩

theorem only_mono {s t : State} {ps qs : List Comp} {fs us : List Fld} (h : s.only ps fs t) (hp : ∀ p ∈ ps, p ∈ qs) (hf : ∀ f ∈ fs, f ∈ us) : s.only qs us t :=
  ⟨fun p hq => h.1 p fun hm => hq (hp p hm), fun g hg => h.2.1 g fun f hm => hg f (hf f hm), h.2.2⟩

/-- The parts by the operation's `Upd` law, the fields by a law of their own. -/
theorem only_of {P Q : List Comp} {W : Option (List Nat)} {s t : State} {fs : List Fld} (hu : Upd P W s t) (hpq : P.all (Q.contains ·) = true)
    (hf : ∀ g : Fld, (∀ f ∈ fs, g.apart f) → t.get g = s.get g) : s.only Q fs t :=
  ⟨fun p hp => (hu.mono (V := none) hpq (by cases W <;> rfl)).same p hp, hf, hu.part, hu.pending⟩

/-- An exact register frame from a frame by field. -/
theorem keeps_of_only {s t : State} {ps : List Comp} {fs : List Fld} (h : s.only ps fs t) : s.keeps ps (fs.map (·.addr)) t :=
  ⟨h.1, fun a ha => reg_of_get (h.2.1 _ fun f hf => .inl fun he => ha (List.mem_map.2 ⟨f, hf, he.symm⟩)), h.2.2⟩

/-! ### Completions -/

theorem get_completionEvent_apart (s : State) (b r : Nat) (hr : r < ringCount b) (g : Fld) (h : ∀ f ∈ complFlds b r, g.apart f) :
    (s.completionEvent b r).get g = s.get g := by
  have hj : g.apart ⟨FEN_JOB_PEND, r - 1, 1⟩ := h _ (by simp [complFlds])
  have he : ∀ f ∈ raiseFlds (complSource b r), g.apart f := fun f hf => h f (by simp [complFlds, hf])
  unfold State.completionEvent
  split
  case h_5 =>
    dsimp only
    split
    · rename_i h0; subst h0; exact get_raise_apart _ _ _ he
    · rename_i h0
      have hs : complSource 0x0A r = 193 := by simp [complSource, h0]
      rw [hs] at he
      split
      · rfl
      · rw [get_raise_apart _ _ _ he]
        have : r < 17 := hr
        exact get_setB_apart _ _ _ _ hj (by show r - 1 + 1 ≤ 32; omega)
  all_goals first
    | exact get_raise_apart _ _ _ he
    | rfl

theorem get_writeCompletion_apart (s : State) (b r : Nat) (t : Taken) (reason handle : Nat) (hr : r < ringCount b) (g : Fld)
    (h : ∀ f ∈ complFlds b r, g.apart f) : (s.writeCompletion b r t reason handle).get g = s.get g := by
  have hp : g.apart (CRING_PI b r) := h _ (by simp [complFlds])
  unfold State.writeCompletion
  dsimp only
  split
  · rw [get_completionEvent_apart _ b r hr g h, get_set_apart _ _ _ _ hp (Nat.le_of_ble_eq_true rfl)]; rfl
  · rw [get_set_apart _ _ _ _ hp (Nat.le_of_ble_eq_true rfl)]; rfl

theorem get_flushTaken_apart (b r : Nat) (hr : r < ringCount b) (g : Fld) (h : ∀ f ∈ complFlds b r, g.apart f) :
    ∀ (l : List Taken) (s : State), (flushTaken b r l s).2.get g = s.get g
  | [], _ => rfl
  | t :: ts, s => by
    unfold flushTaken
    split
    · rfl
    · rw [get_flushTaken_apart b r hr g h ts, get_writeCompletion_apart _ _ _ _ _ _ hr g h]

/-- A command's end writes only CRING_PI and the completion event's fields. -/
theorem get_completeId_apart (s : State) (b r id reason handle : Nat) (hr : r < ringCount b) (g : Fld) (h : ∀ f ∈ complFlds b r, g.apart f) :
    (s.completeId b r id reason handle).get g = s.get g := by
  unfold State.completeId
  exact get_flushTaken_apart b r hr g h _ s

end Sys2Proof.Machine
end

