-- ==== Sys2Proof/Laws/Reads.lean ====
section
/-! SUPPORT. How a register or field reads after a raise, after a choice and in a state written out field by field, and how a frame
is put together from its parts. -/

set_option Elab.async false

open Sys2Proof Sys2Proof.Machine

namespace Sys2Proof.Machine

theorem within_of {P : List Comp} {W : Option (List Nat)} {s t : State} (h : Upd P W s t) : s.within P W t :=
  ⟨h.same, fun a l hl ha => h.reg a fun hm => ha (hm l hl), h.part, h.pending⟩
theorem next_of {i : Instr} {s u : State} {P : List Comp} {W : Option (List Nat)} {Q : State → Prop} (hm : OutUpd P W s (exec i s)) (he : exec i s = .next u)
    (hq : Upd P W s u → Q u) : ∃ t, exec i s = .next t ∧ Q t := ⟨u, he, hq (hm u he)⟩
theorem reg_raiseAt_ne (s : State) {n l b : Nat} (h : b ∉ raiseRegs n) : (s.raiseAt n l).reg b = s.reg b := (keeps_raiseAt s n l).2.1 b h
theorem reg_raise_ne (s : State) {n b : Nat} (h : b ∉ raiseRegs n) : (s.raise n).reg b = s.reg b := (keeps_raise s n).2.1 b h
theorem reg_bump_ne (s : State) {f : Fld} {b n : Nat} (h : b ≠ f.addr) : (s.bump f n).reg b = s.reg b := reg_setReg_ne _ _ h
theorem get_raiseAt_ne (s : State) {n l : Nat} (f : Fld) (h : f.addr ∉ raiseRegs n) : (s.raiseAt n l).get f = s.get f := get_congr _ (reg_raiseAt_ne s h)
theorem get_raise_ne (s : State) {n} (f : Fld) (h : f.addr ∉ raiseRegs n) : (s.raise n).get f = s.get f := get_congr _ (reg_raise_ne s h)
theorem getB_raise_ne (s : State) {n} (f : Fld) (h : f.addr ∉ raiseRegs n) : (s.raise n).getB f = s.getB f := getB_congr _ (reg_raise_ne s h)
theorem getB_raiseAt_ne (s : State) {n l} (f : Fld) (h : f.addr ∉ raiseRegs n) : (s.raiseAt n l).getB f = s.getB f := getB_congr _ (reg_raiseAt_ne s h)
theorem get_ite (c : Prop) [Decidable c] (s t : State) (f : Fld) : (if c then s else t).get f = if c then s.get f else t.get f := by split <;> rfl
theorem reg_ite (c : Prop) [Decidable c] (s t : State) (f : Nat) : (if c then s else t).reg f = if c then s.reg f else t.reg f := by split <;> rfl
theorem getB_ite (c : Prop) [Decidable c] (s t : State) (f : Fld) : (if c then s else t).getB f = if c then s.getB f else t.getB f := by split <;> rfl
theorem getB_apart {s t : State} {g : Fld} (h : t.get g = s.get g) : t.getB g = s.getB g := by simp only [State.getB, h]
/-- A field of a register file. -/
def getR (r : Tbl Word) (f : Fld) : Nat := bitsOf ((tget r f.addr).getD (resetOf f.addr)).toNat f.lo f.width
/-- A register of a register file. -/
def regR (r : Tbl Word) (a : Nat) : Word := (tget r a).getD (resetOf a)
theorem getR_regs (u : State) (f : Fld) : getR u.regs f = u.get f := by unfold State.get State.reg getR; exact rfl
theorem regR_regs (u : State) (f : Nat) : regR u.regs f = u.reg f := by unfold State.reg regR; exact rfl
theorem get_mk {v_part : Part} {v_ltc : Nat} {v_regs : Tbl Word} {v_latch : Tbl Word} {v_img : Tbl Nat} {v_access : BusResult} {v_dram : List Host.Cell} {v_mram : List Host.Cell} {v_ufs : List Host.Cell} {v_free : Nat} {v_sys : SysState} {v_ka : KaState} {v_cyc : CycleState} {v_str : StrState} {v_rings : Tbl Ring} {v_gens : Tbl Nat} {v_nv : NvState} {v_tms : TmsState} {v_inp : InpState} {v_cle : CleState} {v_vdr : VdrState} {v_stk : StkState} {v_saf : SafState} {v_gnb : GnbState} {v_cam : CamState} {v_fen : FenState} {v_arb : ArbState} {v_fus : FusState} {v_yld : YldState} {v_bus : BusState} {v_eth : EthState} {v_pair : PairState} {v_pnl : PnlState} {v_rcd : RcdState} {v_upd : UpdState} {v_pending : List Instr} (f : Fld) : (State.mk v_part v_ltc v_regs v_latch v_img v_access v_dram v_mram v_ufs v_free v_sys v_ka v_cyc v_str v_rings v_gens v_nv v_tms v_inp v_cle v_vdr v_stk v_saf v_gnb v_cam v_fen v_arb v_fus v_yld v_bus v_eth v_pair v_pnl v_rcd v_upd v_pending).get f = getR v_regs f := by unfold State.get State.reg getR; exact rfl
theorem reg_mk {v_part : Part} {v_ltc : Nat} {v_regs : Tbl Word} {v_latch : Tbl Word} {v_img : Tbl Nat} {v_access : BusResult} {v_dram : List Host.Cell} {v_mram : List Host.Cell} {v_ufs : List Host.Cell} {v_free : Nat} {v_sys : SysState} {v_ka : KaState} {v_cyc : CycleState} {v_str : StrState} {v_rings : Tbl Ring} {v_gens : Tbl Nat} {v_nv : NvState} {v_tms : TmsState} {v_inp : InpState} {v_cle : CleState} {v_vdr : VdrState} {v_stk : StkState} {v_saf : SafState} {v_gnb : GnbState} {v_cam : CamState} {v_fen : FenState} {v_arb : ArbState} {v_fus : FusState} {v_yld : YldState} {v_bus : BusState} {v_eth : EthState} {v_pair : PairState} {v_pnl : PnlState} {v_rcd : RcdState} {v_upd : UpdState} {v_pending : List Instr} (f : Nat) : (State.mk v_part v_ltc v_regs v_latch v_img v_access v_dram v_mram v_ufs v_free v_sys v_ka v_cyc v_str v_rings v_gens v_nv v_tms v_inp v_cle v_vdr v_stk v_saf v_gnb v_cam v_fen v_arb v_fus v_yld v_bus v_eth v_pair v_pnl v_rcd v_upd v_pending).reg f = regR v_regs f := by unfold State.reg regR; exact rfl
theorem getB_mk {v_part : Part} {v_ltc : Nat} {v_regs : Tbl Word} {v_latch : Tbl Word} {v_img : Tbl Nat} {v_access : BusResult} {v_dram : List Host.Cell} {v_mram : List Host.Cell} {v_ufs : List Host.Cell} {v_free : Nat} {v_sys : SysState} {v_ka : KaState} {v_cyc : CycleState} {v_str : StrState} {v_rings : Tbl Ring} {v_gens : Tbl Nat} {v_nv : NvState} {v_tms : TmsState} {v_inp : InpState} {v_cle : CleState} {v_vdr : VdrState} {v_stk : StkState} {v_saf : SafState} {v_gnb : GnbState} {v_cam : CamState} {v_fen : FenState} {v_arb : ArbState} {v_fus : FusState} {v_yld : YldState} {v_bus : BusState} {v_eth : EthState} {v_pair : PairState} {v_pnl : PnlState} {v_rcd : RcdState} {v_upd : UpdState} {v_pending : List Instr} (f : Fld) : (State.mk v_part v_ltc v_regs v_latch v_img v_access v_dram v_mram v_ufs v_free v_sys v_ka v_cyc v_str v_rings v_gens v_nv v_tms v_inp v_cle v_vdr v_stk v_saf v_gnb v_cam v_fen v_arb v_fus v_yld v_bus v_eth v_pair v_pnl v_rcd v_upd v_pending).getB f = decide (getR v_regs f = 1) := by unfold State.getB State.get State.reg getR; exact rfl
theorem getB_back (u : State) (f : Fld) : decide (u.get f = 1) = u.getB f := by unfold State.getB; exact rfl
theorem get64_mk {v_part : Part} {v_ltc : Nat} {v_regs : Tbl Word} {v_latch : Tbl Word} {v_img : Tbl Nat} {v_access : BusResult} {v_dram : List Host.Cell} {v_mram : List Host.Cell} {v_ufs : List Host.Cell} {v_free : Nat} {v_sys : SysState} {v_ka : KaState} {v_cyc : CycleState} {v_str : StrState} {v_rings : Tbl Ring} {v_gens : Tbl Nat} {v_nv : NvState} {v_tms : TmsState} {v_inp : InpState} {v_cle : CleState} {v_vdr : VdrState} {v_stk : StkState} {v_saf : SafState} {v_gnb : GnbState} {v_cam : CamState} {v_fen : FenState} {v_arb : ArbState} {v_fus : FusState} {v_yld : YldState} {v_bus : BusState} {v_eth : EthState} {v_pair : PairState} {v_pnl : PnlState} {v_rcd : RcdState} {v_upd : UpdState} {v_pending : List Instr} (lo hi : Nat) : (State.mk v_part v_ltc v_regs v_latch v_img v_access v_dram v_mram v_ufs v_free v_sys v_ka v_cyc v_str v_rings v_gens v_nv v_tms v_inp v_cle v_vdr v_stk v_saf v_gnb v_cam v_fen v_arb v_fus v_yld v_bus v_eth v_pair v_pnl v_rcd v_upd v_pending).get64 lo hi = (regR v_regs lo).toNat + 2 ^ 32 * (regR v_regs hi).toNat := by unfold State.get64 State.reg regR; exact rfl
theorem get64_back (u : State) (lo hi : Nat) : (u.reg lo).toNat + 2 ^ 32 * (u.reg hi).toNat = u.get64 lo hi := rfl
theorem only_lit {s t : State} {ps : List Comp} {fs : List Fld} (hp : ∀ p, p ∉ ps → s.same t p) (hf : ∀ g : Fld, (∀ f ∈ fs, g.apart f) → t.get g = s.get g)
    (h1 : t.part = s.part) (h2 : t.pending = s.pending) : s.only ps fs t := ⟨hp, hf, h1, h2⟩

end Sys2Proof.Machine
end

