-- ==== Sys2Proof/Tests/Slice0.lean ====
section
/-! SUPPORT. Tests: an ill-formed term per check of WellFormed, and for every statement with hypotheses a state and operands that
meet them. -/

set_option Elab.async false

set_option maxRecDepth 20000
set_option linter.unusedVariables false
set_option exponentiation.threshold 1024

open Sys2Proof Sys2Proof.Machine

namespace Sys2Proof.Tests

/-- A running module with no start-up load pending. -/
def quiet : State := ({ State.reset with sys := { mode := .run, safe := true, fw := true, wdtOn := true } }).set STR_STATUS.BUSY 0


/-- Block `b` enabled, with its ring `r` in use. -/
def ringOn (b r : Nat) : State :=
  ((quiet.setB (enableFld b) true).setReg (RING_BASE_LO b r) 0x4000#32).setReg (CRING_BASE_LO b r) 4096#32

/-- A Canvas source of kind 0 on feed 0. -/
def src0 : FusSrc := { kind := 0, feed := 0, order := 0, iclass := 0, weight := 1, opt := 0, lb := 1, link := 0, tovOfs := 0, maxPts := 64 }

/-- A receive object of controller 0. -/
def obj0 : CanObj := { ctrl := 0, tx := false, irq := false, single := false, id := 0 }

/-- A running channel of chain 2 before its boundary 5. -/
def chan0 : Chan := { handle := 0x0C0001FF, chain := 2, sig := 7, prn := 193, irq := false, startSc := 0, next := 5, sc0 := 100, phase := 9, code := 9, freq := -5, rate := 53687091, intMs := 1, spacing := 8, secPh := 0xFFFF }

/-- A strobe that latched no channel. -/
def strobe0 : Strobe := { nom := -10000000, ltc := 4000, mt := -9999999, sl := 77, ltcL := 4003, state := 3, src := 5, fwd := true, back := false, skipped := 70000, gains := [(2, 9)], thr := (0, 0), chans := [] }

/-- A camera context of source 14 with two lines of four RAW8 pixels, and a frame of it. -/
def ctx0 : CamCtx := { src := 14, dt := 0x2A, cfa := 0, pl := 5, fselMod := 1, fsel := 0, irq := true, ltab := false, ofmt := 1, stb := 0xFF, width := 4, height := 2, maxFps := 300, fto := 10, roOfs := 100, stbWin := 0, palAddr := 0, palHdr := [], fen := 0 }
def frame0 : CamFrame := { ctx := 31, no := 7, pl := 5, fsAt := 1000, sof := 900, st := .waiting, palAddr := 0, palHdr := [] }

/-- A usable package: 4 by 2 by 1 input, 8 bytes of DRAM input, 4 bytes of output, 1,200 cycles. -/
def pkg0 : Pkg := { hdr := [70, 78, 80, 75, 1, 0, 0, 1, 52, 18, 0, 0, 1, 7, 4, 0, 2, 0, 1, 0, 8, 0, 0, 0, 4, 0, 0, 0, 64, 0, 0, 0, 32, 0, 0, 0, 176, 4, 0, 0, 0, 0, 0, 0, 0, 0, 0, 0], hdrAddr := 0x1000, dramAddr := 0, load := none }
def str0 : FenStream := { ring := 16, slot := 7, kind := 0, req := 19 }
def job0 : FenJob := { id := 4, tag := 77, inAddr := 0x8000, outAddr := 0x9000, stamp := 5, param := 6, ready := true, input := some [1], grantLtc := some 800 }

/-- A publication of the instant with ISEQ 2 on an empty grid. -/
def pub0 : FusPub := { n := 1, t := -50, l := 1000, flags := 128, oldest := some 400, mask := 5, points := 6, cellsNew := 0, pose := (-1, 2, 3), skipped := 4, cells := [], tiles := [], decay := 1 }

/-- A yield layer with a closed tile to write, and a flow window of 2 kg/s. -/
def layer0 : YldLayer := { cellMm := 5000, nslot := 2, cropId := 7, cache := 0x100000, lba := 1000, slots := 10 }
def tile0 : YldTile := { te := -1, tn := 2, buf := some 1, first := 10, last := 20, closed := some 0, wet := 5 }
def flow0 : FlowWin := { flow := 0x40000000, valid := true, endLtc := 20000000000 }

/-- A receive queue of controller 7, and a receive session of three packets. -/
def canq0 : CanQueue := { ctrl := 7, irq := true, thr := 0, qid := 0x27654321, mask := 0x3FFFFFFF, base := 0x8000 }
def sess0 : TpSess := { ctrl := 7, rx := true, kind := 0, peer := 0x33, own := 0x21, pgn := 0xEF00, size := 20, buf := 0xA000 }

/-- A fleet peer on port 3. -/
def peer0 : Peer := { id := 8, txKey := 63, rxKey := 63, port := 3, mac := 0x020000000005, vid := 7, ip := 0xC0A80001, udp := 5000 }

/-- Cells of a pair partner: HEAD, SIG with twelve values, BULK. -/
def pairHead0 (role cyc mt echo res : Nat) : List Byte :=
  sealCell (bytesLE 1 1 ++ bytesLE 1 (role + 4) ++ bytesLE 2 cyc ++ List.replicate 32 0 ++ bytesLE 8 mt ++ List.replicate 8 0 ++ bytesLE 2 echo ++ bytesLE 4 res ++ bytesLE 2 0)
def pairSig0 (j cyc valid : Nat) : List Byte :=
  sealCell (bytesLE 1 2 ++ bytesLE 1 j ++ bytesLE 2 cyc ++ bytesLE 2 valid ++ bytesLE 2 0 ++ List.replicate 48 0x3F ++ bytesLE 4 0)
def pairBulk0 (link body off : Nat) : List Byte :=
  sealCell (bytesLE 1 3 ++ bytesLE 1 link ++ bytesLE 2 17 ++ bytesLE 4 body ++ bytesLE 4 off ++ List.replicate 48 1)

/-- A waveform table at 0x2000, its header, and a panel operation that latched it. -/
def wft0 : List Host.Cell := [(0x2000, 0x50), (0x2001, 0x4e), (0x2002, 0x57), (0x2003, 0x46), (0x2004, 0x1), (0x2007, 0xf), (0x2008, 0xf), (0x200c, 0x64), (0x2010, 0x1), (0x2011, 0x1), (0x2016, 0x2), (0x2017, 0x1), (0x2018, 0x1), (0x201e, 0x2), (0x201f, 0x1), (0x2030, 0x2), (0x2031, 0x2), (0x2040, 0x1), (0x21c0, 0x5), (0x2200, 0x2), (0x23c0, 0x5), (0x2400, 0x2), (0x2840, 0x5), (0x2880, 0xa)]
def wftHdr0 : List Byte := [80, 78, 87, 70, 1, 0, 0, 15, 15, 0, 0, 0, 100, 0, 0, 0, 1, 1, 0, 0, 0, 0, 2, 1, 1, 0, 0, 0, 0, 0, 2, 1, 0, 0, 0, 0, 0, 0, 0, 0, 0, 0, 0, 0, 0, 0, 0, 0, 2, 2, 0, 0, 0, 0, 0, 0, 0, 0, 0, 0, 0, 0, 0, 0]
def pop0 : PnlOp := { kind := 1, id := 5, wf := 0x2000, hdr := wftHdr0 }

/-- A histogram stream of 100 ns windows. -/
def rs0 : RecStream := { kind := 1, sev := 1, n := 32, irq := false, sid := 77, lo := -400, width := 50, per := 100, grace := 10, evt := 0xFFFF, next := 300, wins := [] }

/-- A package of 8,192 bytes for every part and board: header and manifest with one Stroke library; as bytes, in DRAM at 0x200000, and its
staging. -/
def upkgBytes0 : List Byte := [85, 80, 75, 49, 1, 0, 0, 1, 3, 0, 12, 0, 255, 255, 255, 255, 128, 0, 1, 15, 12, 0, 0, 0, 0, 32, 0, 0, 0, 0, 0, 0, 0, 0, 0, 0, 0, 0, 0, 0, 0, 0, 0, 0, 0, 0, 0, 0, 0, 0, 0, 0, 0, 0, 0, 0, 0, 0, 0, 0, 0, 0, 0, 0] ++ List.replicate 64 0 ++ List.replicate 64 0 ++ List.replicate 64 0 ++ [77, 65, 78, 49, 1, 0, 1, 0, 0, 0, 0, 0, 0, 0, 0, 0, 0, 0, 0, 0, 0, 0, 0, 0, 0, 0, 0, 0, 3, 1, 0, 0, 0, 0, 0, 0, 0, 0, 0, 0, 0, 0, 0, 0, 0, 0, 0, 0, 0, 0, 0, 0, 0, 0, 0, 0, 0, 0, 0, 0, 0, 0, 0, 0] ++ [6, 0, 0, 0, 0, 0, 0, 0, 1, 0, 0, 0, 2, 0, 0, 0, 77, 0, 0, 0, 0, 0, 0, 0, 0, 0, 0, 0, 0, 0, 0, 0, 0, 0, 0, 0, 0, 0, 0, 0, 0, 0, 0, 0, 0, 0, 0, 0, 0, 0, 0, 0, 0, 0, 0, 0, 0, 0, 0, 0, 0, 0, 0, 0]
def upkg0 : List Host.Cell := [(0x200000, 0x55), (0x200001, 0x50), (0x200002, 0x4b), (0x200003, 0x31), (0x200004, 0x1), (0x200007, 0x1), (0x200008, 0x3), (0x20000a, 0xc), (0x20000c, 0xff), (0x20000d, 0xff), (0x20000e, 0xff), (0x20000f, 0xff), (0x200010, 0x80), (0x200012, 0x1), (0x200013, 0xf), (0x200014, 0xc), (0x200019, 0x20), (0x200100, 0x4d), (0x200101, 0x41), (0x200102, 0x4e), (0x200103, 0x31), (0x200104, 0x1), (0x200106, 0x1), (0x20011c, 0x3), (0x20011d, 0x1), (0x200140, 0x6), (0x200148, 0x1), (0x20014c, 0x2), (0x200150, 0x4d)]
def stg0 : Staging := { addr := 0x200000, manLen := 128, svn := 12, man := [77, 65, 78, 49, 1, 0, 1, 0, 0, 0, 0, 0, 0, 0, 0, 0, 0, 0, 0, 0, 0, 0, 0, 0, 0, 0, 0, 0, 3, 1, 0, 0, 0, 0, 0, 0, 0, 0, 0, 0, 0, 0, 0, 0, 0, 0, 0, 0, 0, 0, 0, 0, 0, 0, 0, 0, 0, 0, 0, 0, 0, 0, 0, 0] ++ [6, 0, 0, 0, 0, 0, 0, 0, 1, 0, 0, 0, 2, 0, 0, 0, 77, 0, 0, 0, 0, 0, 0, 0, 0, 0, 0, 0, 0, 0, 0, 0, 0, 0, 0, 0, 0, 0, 0, 0, 0, 0, 0, 0, 0, 0, 0, 0, 0, 0, 0, 0, 0, 0, 0, 0, 0, 0, 0, 0, 0, 0, 0, 0], abort := none }

/-- The structure image header at DRAM 0 of an image for every region of the H24, its digest to come; with the digest; and the state that
reloads region 3 from it. -/
def imgHdr0 : List Host.Cell := [(0, 0x41), (1, 0x37), (2, 0x53), (3, 0x49), (4, 1), (7, 4), (8, 1), (10, 0x0C), (12, 0xFF), (13, 3)]
def imgDram0 : List Host.Cell := memPuts imgHdr0 976 (bytesLE 48 (Config.sha384 (memBytes imgHdr0 0 976)))
def rldReq0 (r : Nat) : Reload := { region := r, src := true, force := true, digest := 0, stopAt := 0 }
def rldAt0 (r : Nat) : State :=
  { ((quiet.set STR_RLD_STAT.PHASE 1).setB STR_STATUS.BOOT_DONE true).set STR_RLD_LEN.LEN 8192 with str := { reload := some (rldReq0 r) }, dram := imgDram0 }

theorem test_ill_addr_of_dram : Instr.wf (.regWrite 0 0x1000 1) = false := by decide
theorem test_ill_addr_misaligned : Instr.wf (.regWrite 0 0xC0000002 1) = false := by decide
theorem test_ill_addr_of_image_window : Instr.wf (.rcRead 3 0xD5000000) = false := by decide
theorem test_ill_word_access_is_no_bad_access : Instr.wf (.badAccess 0 0xC0000000 4 true) = false := by decide
theorem test_ill_access_of_3_bytes : Instr.wf (.badAccess 0 0xC0000000 3 true) = false := by decide
theorem test_ill_dram_end : Instr.wf (.dramReadUe (some 0) 0x3C0000000) = false := by decide
theorem test_ill_supply_of_17_bits : Instr.wf (.vsupUndervoltage 65536) = false := by decide
theorem test_ill_keys_not_rising : Instr.wf (.safetyDomainReady true [(4, 1), (4, 2)]) = false := by decide
theorem test_ill_ring_of_no_block : Instr.wf (.nop 0x05 2 { flags := 1, handle := 0, tag := 0, args := 0 }) = false := by decide
theorem test_ill_stamp_of_65_bits : Instr.wf (.captureEdge 0 true (2 ^ 64)) = false := by decide
theorem test_ill_no_conversion_frame : Instr.wf (.ainSamplePublish 0 [] 5) = false := by decide
theorem test_ill_frame_too_large : Instr.wf (.ainSamplePublish 0 [262141] 5) = false := by decide
theorem test_ill_output_twice_in_a_tick : Instr.wf (.vdrTick [(3, 1), (3, 2)] 0) = false := by decide
theorem test_ill_clips_past_the_window : Instr.wf (.rfInterf 0 81841 0 none 0) = false := by decide
theorem test_ill_classic_frame_of_9_bytes : Instr.wf (.canFrameRx 0 0 false false false 9 (List.replicate 9 0) 0) = false := by decide
theorem test_ill_transport_frame_of_9_bytes : Instr.wf (.tpFrameRx 0 0 (List.replicate 9 0) 0) = false := by decide
theorem test_ill_origin_of_49_bits : Instr.wf (.gptpSync false 0 (2 ^ 48 * 1000000000) 0 0) = false := by decide
theorem test_ill_cell_of_63_bytes : Instr.wf (.sigRx 0 (List.replicate 63 0)) = false := by decide
theorem test_well_formed :
    Instr.wf (.regWrite 0 0xC0000004 1) = true ∧ Instr.wf (.badAccess 0 0xC0000002 4 true) = true ∧ Instr.wf (.captureEdge 0 true (2 ^ 64 - 1)) = true ∧ Instr.wf (.rfInterf 0 81840 0 none 0) = true ∧ Instr.wf (.canFrameRx 0 0 true false false 9 (List.replicate 12 0) 0) = true ∧ Instr.wf (.sigRx 0 (List.replicate 64 0)) = true := by decide

/-- Witnesses for the statements that assume that exec or step answers a next state: a fuse key and a pending life-cycle
transition are held, and a waiting command is stepped. -/
theorem wit_NextState :
    (∃ t, exec (.vsupUvClear 9000) quiet = .next t) ∧ (State.reset.wf = true ∧ ∃ t, step State.reset = .next t) ∧
    (∃ s t : State, s.wf = true ∧ s.pending ≠ [] ∧ step s = .next t) ∧
    (∃ (s t : State), exec .resetHoldEnd s = .next t ∧ tget s.nv.otp 1 = some 5 ∧ s.nv.lcTarget = some 2) :=
  ⟨⟨_, rfl⟩, ⟨by decide, _, rfl⟩, ⟨{ quiet with pending := [.powerOnReset] }, _, by decide, by decide, rfl⟩,
    { quiet with nv := { otp := [(1, 5)], lcTarget := some 2 } }, _, rfl, by decide, by decide⟩

/-- Witness: an empty queue, in a mode where LTC runs and in one where it is held. -/
theorem wit_IdleStep : (State.reset.pending = [] ∧ State.reset.sys.mode = .por) ∧
    (∃ s : State, s.pending = [] ∧ s.sys.mode = .run) :=
  ⟨⟨rfl, rfl⟩, { State.reset with sys := { mode := .run } }, rfl, rfl⟩

/-- Witnesses: a plain register of PNL, an offset that holds none, and a register of a region that reconfigures. -/
theorem wit_RegisterWrites :
    (goodAddr PNL_SEQ = true ∧ quiet.closed PNL_SEQ = false ∧ (findDesc PNL_SEQ).isSome = true ∧
      (∀ v u, State.specialWrite PNL_SEQ v u = none) ∧ (hasEnable (blkOf PNL_SEQ) && decide (PNL_SEQ = blkBase (blkOf PNL_SEQ))) = false) ∧
    (goodAddr 0xD1000FFC = true ∧ quiet.closed 0xD1000FFC = false ∧ findDesc 0xD1000FFC = none ∧
      (∀ v u, State.specialWrite 0xD1000FFC v u = none) ∧ (hasEnable (blkOf 0xD1000FFC) && decide (0xD1000FFC = blkBase (blkOf 0xD1000FFC))) = false) ∧
    (goodAddr PNL_SEQ = true ∧ (State.setBusy 8 true { quiet with str := { quiet.str with reload := some { region := 8, src := false, force := false, digest := 0, stopAt := 0 } } }).closed PNL_SEQ = true) :=
  ⟨⟨by decide, by decide, by decide, fun _ _ => rfl, by decide⟩, ⟨by decide, by decide, by decide, fun _ _ => rfl, by decide⟩, by decide, by decide⟩

/-- States and operands that meet the hypotheses of SuppliesAndTemperaturesShowFlagAndRaise, clause by clause. -/
theorem wit_SuppliesAndTemperaturesShowFlagAndRaise :
    (∃ (mv : Nat) (s : State), s.safReady = false) ∧
    (∃ (mv : Nat) (s : State), s.safReady = false) ∧
    (∃ (s : State), s.vdrTicks = false) ∧
    (∃ (tj : BitVec 12) (tbp : BitVec 12) (s : State), tj.toInt < 1040) ∧
    (∃ (s : State), (s.sys.mode = .por ∨ s.sys.mode = .standby)) :=
  ⟨⟨500, quiet, by decide⟩,
    ⟨9400, quiet.setB SYS_SUPPLY.UV true, by decide⟩,
    ⟨(quiet.setB (EVT_SRC_CFG.EN 6) true).set (VDR_BANK_STAT.HS 3) 1, by decide⟩,
    ⟨960, 5, quiet.setB (EVT_SRC_CFG.EN 8) true, by decide⟩,
    ⟨State.reset, by decide⟩⟩

/-- States and operands that meet the hypotheses of StartUpRunsThroughItsPhases, clause by clause. -/
theorem wit_StartUpRunsThroughItsPhases :
    (∃ (s : State), s.sys.mode = .por) ∧
    (∃ (s : State), s.sys.mode = .osc ∧ s.sys.cold ≠ .kaLoss ∧ s.nv.trial = false ∧ s.manN s.nv.active 24 4 = 0 ∧ s.ka.vkaLow = false) ∧
    (∃ (s : State), s.sys.mode = .osc ∧ s.sys.cold = .kaLoss ∧ s.nv.trial = false ∧ s.manN s.nv.active 24 4 = 0) ∧
    (∃ (s : State), s.sys.mode = .starting) ∧
    (∃ (s : State), s.sys.mode = .starting ∧ s.sys.pll = true) ∧
    (∃ (safe : List (Nat × Word)) (s : State), s.sys.safe = false ∧ s.sys.mode = .starting) ∧
    (∃ (s : State), s.sys.mode = .starting ∧ s.sys.dram = true ∧ s.sys.gesso = false ∧ s.nv.lcTarget = none) ∧
    (∃ (caps : List (Nat × Word)) (r : Nat) (q : Nat) (rest : List Nat) (s : State), s.str.boot = r :: q :: rest ∧ r < 9) ∧
    (∃ (caps : List (Nat × Word)) (r : Nat) (s : State), s.str.boot = [r] ∧ r < 9) ∧
    (∃ (s : State), s.sys.mode = .starting ∧ s.sys.gesso = true ∧ s.sys.fw = false ∧ s.nv.lifeCycle ≠ 4) ∧
    (∃ (ok : Bool) (s : State), s.sys.mode = .starting ∧ s.sys.gesso = true ∧ s.sys.fw = false ∧ ((s.nv.lifeCycle = 4 ∨ (ok = false ∧ s.nv.inact ≠ .previous)))) ∧
    (∃ (s : State), s.sys.mode = .starting ∧ s.sys.fw = true) :=
  ⟨⟨State.reset, by decide⟩,
    ⟨{ State.reset with sys := { mode := .osc } }, by decide⟩,
    ⟨{ State.reset with sys := { mode := .osc, cold := .kaLoss }, ka := { vkaLow := true } }, by decide⟩,
    ⟨{ State.reset with sys := { mode := .starting } }, by decide⟩,
    ⟨{ State.reset with sys := { mode := .starting, pll := true } }, by decide⟩,
    ⟨[], { State.reset with sys := { mode := .starting } }, by decide⟩,
    ⟨({ State.reset with sys := { mode := .starting, dram := true }, dram := [(5, 1#8)] }.setB (EVT_SRC_CFG.EN 20) true).setB (EVT_SRC_CFG.EN 21) true, by decide⟩,
    ⟨[], 3, 4, [], { State.reset with str := { boot := [3, 4] } }.setB (EVT_SRC_CFG.EN 20) true, by decide⟩,
    ⟨[], 8, ({ State.reset with str := { boot := [8], booting := true } }.setB (EVT_SRC_CFG.EN 20) true).setB (EVT_SRC_CFG.EN 21) true, by decide⟩,
    ⟨{ State.reset with sys := { mode := .starting, gesso := true } }, by decide⟩,
    ⟨true, { State.reset with sys := { mode := .starting, gesso := true }, nv := { lifeCycle := 4 } }, by decide⟩,
    ⟨{ State.reset with ltc := 800, sys := { mode := .starting, fw := true } }, by decide⟩⟩

/-- States and operands that meet the hypotheses of ResetsLeaveTheirColumnOfTable34, clause by clause. -/
theorem wit_ResetsLeaveTheirColumnOfTable34 :
    (∃ (s : State), s.sys.mode ≠ .por ∧ s.sys.mode ≠ .standby ∧ s.sys.mode ≠ .resetHeld) ∧
    (∃ (s : State), s.sys.mode = .resetHeld) ∧
    (∃ (src : ResetSource) (s : State), s.sys.mode ≠ .por ∧ s.sys.mode ≠ .standby ∧ s.sys.mode ≠ .resetHeld ∧ ((src = .safety → s.sys.safeReq = true))) ∧
    (∃ (s : State), s.wdtCounts = true ∧ s.get SYS_WDT_CFG.PERIOD * 1000000 ≤ s.since s.sys.wdtStart) ∧
    (∃ (s : State), s.sys.mode = .resetHeld ∧ s.sys.owePhase2 = false ∧ s.nv.trial = false ∧ s.manN s.nv.active 24 4 = 0 ∧ s.sys.causes < 128) ∧
    (∃ (s : State), (s.sys.mode = .por ∨ s.sys.mode = .standby)) :=
  ⟨⟨quiet, by decide⟩,
    ⟨{ State.reset with sys := { mode := .resetHeld, causes := 16 } }, by decide⟩,
    ⟨.nrst, quiet, by decide⟩,
    ⟨{ quiet with ltc := 2000000000 }, by decide⟩,
    ⟨{ State.reset with sys := { mode := .resetHeld, causes := 24 } }, by decide⟩,
    ⟨{ State.reset with sys := { mode := .standby }, nv := { mirrorOpsec := 7, mirrorPwrcyc := 9 } }, by decide⟩⟩

/-- States and operands that meet the hypotheses of WatchdogAndBlockResetDoAsR73AndR74Say, clause by clause. -/
theorem wit_WatchdogAndBlockResetDoAsR73AndR74Say :
    (∃ (core : Fin 8) (value : Word) (s : State), value ≠ 0x5A5A#32) ∧
    (∃ (core : Fin 8) (value : Word) (s : State), (value.toNat % 65536 ≠ 0 ∨ s.nv.lifeCycle ≤ 1)) ∧
    (∃ (core : Fin 8) (value : Word) (s : State), value.toNat % 65536 = 0 ∧ 2 ≤ s.nv.lifeCycle) ∧
    (∃ (s : State), s.wdtCounts = true ∧ s.sys.wdtEarly = false ∧ s.get SYS_WDT_CFG.PERIOD * 500000 ≤ s.since s.sys.wdtStart) ∧
    (∃ (core : Fin 8) (value : Word) (b : Nat) (s : State), value.toNat % 256 = b ∧ resettable b = true ∧ s.getB SYS_BLK_RST.BUSY = false ∧ (regionOf b).any (fun r => s.busy r) = false) ∧
    (∃ (core : Fin 8) (value : Word) (s : State), (resettable (value.toNat % 256) = false ∨ s.getB SYS_BLK_RST.BUSY = true ∨ (regionOf (value.toNat % 256)).any (fun r => s.busy r) = true)) ∧
    (∃ (b : Nat) (s : State), s.sys.blkRst = some b) :=
  ⟨⟨2, 1, quiet, by decide⟩,
    ⟨2, 77, { quiet with ltc := 96 }, by decide⟩,
    ⟨2, 0, { quiet with nv := { lifeCycle := 2 } }, by decide⟩,
    ⟨{ quiet.setB (EVT_SRC_CFG.EN 9) true with ltc := 1000000000 }, by decide⟩,
    ⟨0, 0x0E, 0x0E, { (quiet.setB (enableFld 0x0E) true).setReg (BUS_C_TPADDR 3) 5 with rings := [(0x0E * 32 + 1, { seq := 4 })] }, by decide⟩,
    ⟨0, 0x07, quiet, by decide⟩,
    ⟨5, (({ quiet with sys := { quiet.sys with blkRst := some 5 } }).setB SYS_BLK_RST.BUSY true).setB (EVT_SRC_CFG.EN 10) true, by decide⟩⟩

/-- States and operands that meet the hypotheses of PowerStatesAreEnteredAndLeftAsR75ToR78Say, clause by clause. -/
theorem wit_PowerStatesAreEnteredAndLeftAsR75ToR78Say :
    (∃ (core : Fin 8) (s : State), s.sys.mode = .run) ∧
    (∃ (n : Nat) (s : State), s.sys.mode = .idle ∧ n < 384 ∧ s.getB (EVT_SRC_CFG.EN n) = true ∧ s.getB (EVT_SRC_STAT.PEND n) = true ∧ s.get (EVT_SRC_CFG.TGT n) ≠ 0) ∧
    (∃ (core : Fin 8) (s : State), (s.sys.mode = .run ∨ s.sys.mode = .idle) ∧ (s.sys.entry ≠ none ∨ s.arbHeldByUpdate = true)) ∧
    (∃ (core : Fin 8) (s : State), (s.sys.mode = .run ∨ s.sys.mode = .idle) ∧ s.sys.entry = none ∧ s.arbHeldByUpdate = false) ∧
    (∃ (core : Fin 8) (s : State), (s.sys.mode = .run ∨ s.sys.mode = .idle) ∧ s.sys.entry = none ∧ s.arbHeldByUpdate = false) ∧
    (∃ (s : State), s.sys.entry = some false ∧ s.ka.writePend = false ∧ s.safEntryWaits = false ∧ s.pnlEntryWaits = false) ∧
    (∃ (s : State), s.sys.entry = some true ∧ s.sys.wake = false ∧ s.ka.writePend = false ∧ s.safEntryWaits = false ∧ s.pnlEntryWaits = false) ∧
    (∃ (s : State), s.sys.entry = some true ∧ s.sys.wake = true ∧ s.ka.writePend = false ∧ s.safEntryWaits = false ∧ s.pnlEntryWaits = false) ∧
    (∃ (readErr : Bool) (s : State), s.sys.mode = .park ∧ s.sys.wake = true ∧ s.get64 SYS_RESUME_LO SYS_RESUME_HI = 0) ∧
    (∃ (s : State), s.sys.mode = .park ∧ s.sys.wake = true ∧ s.get64 SYS_RESUME_LO SYS_RESUME_HI ≠ 0) ∧
    (∃ (wakePin : Bool) (rise : Bool) (s : State), (s.sys.mode = .run ∨ s.sys.mode = .idle) ∧ s.sys.entry = none) ∧
    (∃ (wakePin : Bool) (s : State), s.sys.mode = .standby) ∧
    (∃ (bus : Fin 2) (s : State), (s.sys.mode = .park ∨ s.sys.entry = some false)) ∧
    (∃ (s : State), (s.sys.mode = .run ∨ s.sys.mode = .idle)) ∧
    (∃ (s : State), s.ka.mirrorAt + 60 ≤ s.ka.opsec) ∧
    (∃ (s : State), s.ka.writePend = true) :=
  ⟨⟨0, quiet, by decide⟩,
    ⟨7, (({ quiet with sys := { quiet.sys with mode := .idle } }.setB (EVT_SRC_CFG.EN 7) true).setB (EVT_SRC_STAT.PEND 7) true).set (EVT_SRC_CFG.TGT 7) 1, by decide⟩,
    ⟨0, { quiet with sys := { quiet.sys with entry := some true } }, by decide⟩,
    ⟨0, { quiet.set ⟨KA_FLAGS, 8, 4⟩ 3 with ka := { flags := 0x300 } }, by decide⟩,
    ⟨0, quiet, by decide⟩,
    ⟨{ quiet with sys := { quiet.sys with entry := some false }, dram := [(3, 1#8)], ltc := 64 }, by decide⟩,
    ⟨{ quiet with sys := { quiet.sys with entry := some true }, dram := [(3, 1#8)], ltc := 64 }, by decide⟩,
    ⟨{ quiet with sys := { quiet.sys with entry := some true, wake := true }, dram := [(3, 1#8)], ltc := 64 }, by decide⟩,
    ⟨false, { quiet with sys := { mode := .park, wake := true } }, by decide⟩,
    ⟨{ quiet.setReg SYS_RESUME_LO 4096 with sys := { mode := .park, wake := true } }, by decide⟩,
    ⟨true, true, quiet.setB (EVT_SRC_CFG.EN 7) true, by decide⟩,
    ⟨false, { quiet with sys := { mode := .standby } }, by decide⟩,
    ⟨1, { quiet with sys := { mode := .park } }, by decide⟩,
    ⟨{ quiet with ka := { opsec := 0xFFFFFFFF } }, by decide⟩,
    ⟨{ quiet with ka := { opsec := 61, pwrcyc := 3 } }, by decide⟩,
    ⟨{ quiet.setReg KA_FLAGS 5 with ka := { writePend := true } }, by decide⟩⟩

/-- States and operands that meet the hypotheses of ChecksAndEnableDoAsR29R103AndR127Say, clause by clause. -/
theorem wit_ChecksAndEnableDoAsR29R103AndR127Say :
    (∃ (core : Fin 8) (blk : Fin 21) (value : Word) (s : State), hasEnable blk.val = true ∧ s.closed (blkBase blk.val) = false ∧ s.enabled blk.val = false ∧ s.getB (STR_CHK_RES.RUN blk.val) = false ∧ bitAt value.toNat 0 = true ∧ s.inFlight blk.val = true) ∧
    (∃ (core : Fin 8) (blk : Fin 21) (value : Word) (s : State), hasEnable blk.val = true ∧ s.closed (blkBase blk.val) = false ∧ s.enabled blk.val = false ∧ s.getB (STR_CHK_RES.RUN blk.val) = false ∧ bitAt value.toNat 0 = true ∧ s.inFlight blk.val = false ∧ s.str.landAt ≠ s.ltc) ∧
    (∃ (core : Fin 8) (blk : Fin 21) (value : Word) (old : List Nat) (new : List Nat) (s : State), hasEnable blk.val = true ∧ s.closed (blkBase blk.val) = false ∧ s.enabled blk.val = false ∧ s.getB (STR_CHK_RES.RUN blk.val) = false ∧ bitAt value.toNat 0 = true ∧ s.inFlight blk.val = false ∧ s.str.landAt = s.ltc ∧ s.str.checks = old ++ new ∧ s.str.landed = new.length) ∧
    (∃ (core : Fin 8) (blk : Fin 21) (value : Word) (s : State), hasEnable blk.val = true ∧ s.closed (blkBase blk.val) = false ∧ s.enabled blk.val = bitAt value.toNat 0) ∧
    (∃ (blk : Fin 21) (s : State), blk.val ∈ s.str.held ∧ s.inFlight blk.val = false) ∧
    (∃ (b : Nat) (code : Nat) (off : Nat) (rest : List Nat) (s : State), s.str.checks = b :: rest ∧ b < 21 ∧ pickFailure ({ s with str := { s.str with checks := rest } }.blkTests b) = some (code, off)) ∧
    (∃ (b : Nat) (rest : List Nat) (s : State), s.str.checks = b :: rest ∧ hasEnable b = true ∧ pickFailure ({ s with str := { s.str with checks := rest } }.blkTests b) = none) :=
  ⟨⟨1, 0x0E, 1, { quiet with rings := [(0x0E * 32 + 2, { taken := [{ id := 0, opcode := 1, handle := 0, tag := 0, irq := false, done := none }] })] }, by decide⟩,
    ⟨1, 0x11, 1, { quiet with ltc := 16, str := { checks := [3], landAt := 8, landed := 1 } }, by decide⟩,
    ⟨1, 0x0C, 1, [0x11], [4, 0x0D], { quiet with ltc := 16, str := { checks := [0x11, 4, 0x0D], landAt := 16, landed := 2 } }, by decide⟩,
    ⟨1, 0x11, 1, quiet.setB (enableFld 0x11) true, by decide⟩,
    ⟨0x0E, { quiet with str := { held := [0x0E], checks := [4] } }, by decide⟩,
    ⟨7, 1, 0, [5], ({ quiet with str := { checks := [7, 5] } }.setB (EVT_SRC_CFG.EN 16) true).setB (EVT_SRC_CFG.EN 17) true, by decide⟩,
    ⟨0x0A, [], ({ quiet with str := { checks := [0x0A] }, rings := [(0x0A * 32 + 3, { seq := 9 })] }.setLoaded 4 true).setB (EVT_SRC_CFG.EN 16) true, by decide⟩⟩

/-- A field of the header reads as it was written. -/
theorem imgHdr0_read (r o n : Nat) (h : o + n ≤ 976) : (rldAt0 r).hdrN (.dram 0) o n = natLE (memBytes imgHdr0 o n) := by
  show natLE (memBytes imgDram0 (0 + o) n) = _
  rw [Nat.zero_add, imgDram0, memBytes_congr _ _ _ _ fun x h1 h2 => memByte_memPuts_ne _ _ _ _ (by omega)]
/-- The header holds its own digest. -/
theorem imgHdr0_digest (r : Nat) : (rldAt0 r).hdrDigestOk (.dram 0) = true := by
  have h1 : (rldAt0 r).hdrBytes (.dram 0) 0 976 = memBytes imgHdr0 0 976 := by
    show memBytes imgDram0 (0 + 0) 976 = _
    rw [imgDram0, memBytes_congr _ _ _ _ fun x h1 h2 => memByte_memPuts_ne _ _ _ _ (by omega)]
  have h2 : (rldAt0 r).hdrN (.dram 0) 976 48 = Config.sha384 (memBytes imgHdr0 0 976) := by
    show natLE (memBytes imgDram0 (0 + 976) 48) = _
    have := memBytes_memPuts (bytesLE 48 (Config.sha384 (memBytes imgHdr0 0 976))) imgHdr0 976
    rw [length_bytesLE] at this
    rw [Nat.zero_add, imgDram0, this, natLE_bytesLE]
    exact Nat.mod_eq_of_lt (by exact (Config.sha384Digest _).isLt)
  unfold State.hdrDigestOk
  rw [h1, h2]; simp
/-- The request meets every check of Table 4-5. -/
theorem imgHdr0_reason (r : Nat) (hr : r = 2 ∨ r = 3 ∨ r = 4) : (rldAt0 r).reloadReason (rldReq0 r) false false = 0 := by
  have hf : (rldAt0 r).hdrFormatOk (.dram 0) = true := by
    simp only [State.hdrFormatOk, imgHdr0_read _ _ _ (show 0 + 4 ≤ 976 by decide), imgHdr0_read _ _ _ (show 4 + 2 ≤ 976 by decide), imgHdr0_read _ _ _ (show 6 + 2 ≤ 976 by decide)]; decide
  have hp : (rldAt0 r).hdrPartOk (.dram 0) = true := by
    simp only [State.hdrPartOk, imgHdr0_read _ _ _ (show 8 + 2 ≤ 976 by decide), imgHdr0_read _ _ _ (show 10 + 1 ≤ 976 by decide), imgHdr0_read _ _ _ (show 11 + 1 ≤ 976 by decide)]; rcases hr with rfl | rfl | rfl <;> decide
  have hm : (rldAt0 r).hdrMask (.dram 0) = 1023 := by
    simp only [State.hdrMask, imgHdr0_read _ _ _ (show 12 + 2 ≤ 976 by decide)]; decide
  have ho : (rldAt0 r).hdrRegion (.dram 0) r 4 4 = 0 := by
    rcases hr with rfl | rfl | rfl <;> simp only [State.hdrRegion, imgHdr0_read _ _ _ (show 64 + 64 * 2 + 4 + 4 ≤ 976 by decide), imgHdr0_read _ _ _ (show 64 + 64 * 3 + 4 + 4 ≤ 976 by decide), imgHdr0_read _ _ _ (show 64 + 64 * 4 + 4 + 4 ≤ 976 by decide)] <;> decide
  have ha : (rldAt0 r).get64 STR_RLD_ADDR_LO STR_RLD_ADDR_HI = 0 := rfl
  have hl : (rldAt0 r).otherLoaded r = false := by rcases hr with rfl | rfl | rfl <;> decide
  simp only [State.reloadReason]
  simp only [show (rldReq0 r).src = true from rfl, show (rldReq0 r).region = r from rfl, show (rldReq0 r).force = true from rfl, if_true, ha, hf, hp, hm, ho, imgHdr0_digest]
  rcases hr with rfl | rfl | rfl <;> decide

/-- States and operands that meet the hypotheses of ReloadsAndScrubbingDoAsR95ToR102Say, clause by clause. -/
theorem wit_ReloadsAndScrubbingDoAsR95ToR102Say :
    (∃ (core : Fin 8) (value : Word) (s : State), bitAt value.toNat 31 = true ∧ s.str.reload = none) ∧
    (∃ (core : Fin 8) (value : Word) (s : State), bitAt value.toNat 31 = true ∧ s.str.reload.isSome = true) ∧
    (∃ (readErr : Bool) (q : Reload) (s : State), s.str.reload = some q ∧ s.get STR_RLD_STAT.PHASE = 1 ∧ s.reloadReason q false readErr ≠ 0) ∧
    (∃ (readErr : Bool) (q : Reload) (s : State), s.str.reload = some q ∧ s.get STR_RLD_STAT.PHASE = 1 ∧ s.reloadReason q false readErr = 0) ∧
    (∃ (q : Reload) (s : State), s.str.reload = some q ∧ s.get STR_RLD_STAT.PHASE = 2 ∧ 20000 ≤ s.since q.stopAt ∧ ((q.region = 2 → s.vdrConducting = false))) ∧
    (∃ (q : Reload) (s : State), s.str.reload = some q ∧ s.get STR_RLD_STAT.PHASE = 2 ∧ (s.since q.stopAt < 20000 ∨ (q.region = 2 ∧ s.vdrConducting = true))) ∧
    (∃ (readErr : Bool) (q : Reload) (s : State), s.str.reload = some q ∧ s.get STR_RLD_STAT.PHASE = 3 ∧ (readErr && !q.src) = false) ∧
    (∃ (q : Reload) (s : State), s.str.reload = some q ∧ s.get STR_RLD_STAT.PHASE = 3 ∧ q.src = false ∧ q.region < 9) ∧
    (∃ (caps : List (Nat × Word)) (q : Reload) (s : State), s.str.reload = some q ∧ s.get STR_RLD_STAT.PHASE = 4 ∧ q.region < 9 ∧ q.digest = s.hdrDigest (if q.src then ImgSrc.dram (s.get64 STR_RLD_ADDR_LO STR_RLD_ADDR_HI) else .slot s.nv.active) q.region) ∧
    (∃ (caps : List (Nat × Word)) (q : Reload) (s : State), s.str.reload = some q ∧ s.get STR_RLD_STAT.PHASE = 4 ∧ q.region < 9 ∧ q.digest ≠ s.hdrDigest (if q.src then ImgSrc.dram (s.get64 STR_RLD_ADDR_LO STR_RLD_ADDR_HI) else .slot s.nv.active) q.region) ∧
    (∃ (region : Fin 9) (s : State), s.loaded region.val = true) :=
  ⟨⟨0, 0x80000104, { quiet with ltc := 40 }, by decide⟩,
    ⟨0, 0x80000001, { quiet with str := { reload := some { region := 1, src := false, force := false, digest := 0, stopAt := 0 } } }, by decide⟩,
    ⟨false, { region := 12, src := false, force := false, digest := 0, stopAt := 0 }, ({ quiet with str := { reload := some { region := 12, src := false, force := false, digest := 0, stopAt := 0 } } }.set STR_RLD_STAT.PHASE 1).setB STR_RLD_STAT.BUSY true, by decide⟩,
    ⟨false, rldReq0 3, rldAt0 3, rfl, by decide, imgHdr0_reason 3 (by decide)⟩,
    ⟨{ region := 3, src := false, force := false, digest := 0, stopAt := 8 }, ({ quiet with ltc := 20008, str := { reload := some { region := 3, src := false, force := false, digest := 0, stopAt := 8 } } }.set STR_RLD_STAT.PHASE 2), by decide⟩,
    ⟨{ region := 3, src := false, force := false, digest := 0, stopAt := 8 }, ({ quiet with ltc := 20000, str := { reload := some { region := 3, src := false, force := false, digest := 0, stopAt := 8 } } }.set STR_RLD_STAT.PHASE 2), by decide⟩,
    ⟨false, { region := 3, src := true, force := false, digest := 0, stopAt := 8 }, ({ quiet with str := { reload := some { region := 3, src := true, force := false, digest := 0, stopAt := 8 } } }.set STR_RLD_STAT.PHASE 3), by decide⟩,
    ⟨{ region := 3, src := false, force := false, digest := 0, stopAt := 8 }, ({ quiet with str := { reload := some { region := 3, src := false, force := false, digest := 0, stopAt := 8 } } }.set STR_RLD_STAT.PHASE 3).setBusy 3 true, by decide⟩,
    ⟨[(0xC9000004, 3#32)], { region := 3, src := false, force := false, digest := 0, stopAt := 8 }, ({ quiet with str := { reload := some { region := 3, src := false, force := false, digest := 0, stopAt := 8 } } }.set STR_RLD_STAT.PHASE 4).setBusy 3 true, by decide⟩,
    ⟨[], { region := 3, src := false, force := false, digest := 5, stopAt := 8 }, ({ quiet with str := { reload := some { region := 3, src := false, force := false, digest := 5, stopAt := 8 } } }.set STR_RLD_STAT.PHASE 4).setBusy 3 true, by decide⟩,
    ⟨8, ((quiet.setLoaded 8 true).setB (enableFld 0x11) true).setB (EVT_SRC_CFG.EN 23) true, by decide⟩⟩

/-- States and operands that meet the hypotheses of OtherAccessesEndInABusErrorOnly, clause by clause. -/
theorem wit_OtherAccessesEndInABusErrorOnly :
    (∃ (core : Fin 8) (addr : Nat) (size : Nat) (isWrite : Bool) (s : State), 0xC0000000 ≤ addr ∧ addr < 0xE0000000 ∧ ((size = 4 → goodAddr addr = false))) ∧
    (∃ (core : Fin 8) (addr : Nat) (value : Word) (s : State), goodAddr addr = false) ∧
    (∃ (core : Fin 8) (addr : Nat) (s : State), goodAddr addr = false) ∧
    (∃ (core : Fin 8) (addr : Nat) (value : Word) (s : State), goodAddr addr = true) ∧
    (∃ (core : Fin 8) (addr : Nat) (s : State), goodAddr addr = true) :=
  ⟨⟨3, 0xC0000002, 2, true, quiet, by decide⟩,
    ⟨3, 0xC0000002, 7, quiet, by decide⟩,
    ⟨3, 0xD5000000, quiet, by decide⟩,
    ⟨3, 0xC0000004, 7, quiet, by decide⟩,
    ⟨3, 0xC0000004, quiet, by decide⟩⟩

/-- States and operands that meet the hypotheses of ReadsAnswerClearRcFieldsAndMeetErrors, clause by clause. -/
theorem wit_ReadsAnswerClearRcFieldsAndMeetErrors :
    (∃ (core : Fin 8) (addr : Nat) (s : State), goodAddr addr = true ∧ s.closed addr = false ∧ s.freeWindow addr = false ∧ s.latchRead core.val addr = none) ∧
    (∃ (core : Fin 8) (addr : Nat) (s : State), goodAddr addr = true ∧ (s.closed addr = true ∨ s.freeWindow addr = true)) ∧
    (∃ (core : Fin 8) (addr : Nat) (s : State), addr < dramSize) ∧
    (∃ (addr : Nat) (s : State), addr < dramSize) :=
  ⟨⟨1, SYS_TEMP, quiet.set SYS_TEMP.TJ 44, by decide⟩,
    ⟨1, INP_AIN_FLT 3, ({ quiet with str := { reload := some { region := 0, src := false, force := false, digest := 0, stopAt := 0 } } }.setReg (INP_AIN_FLT 3) 9).setBusy 0 true, by decide⟩,
    ⟨6, 64, quiet.setB (EVT_SRC_CFG.EN 5) true, by decide⟩,
    ⟨64, quiet.setB (EVT_SRC_CFG.EN 5) true, by decide⟩⟩

/-- States and operands that meet the hypotheses of RaisesLatchMarkAndAreLostAsR129Says, clause by clause. -/
theorem wit_RaisesLatchMarkAndAreLostAsR129Says :
    (∃ (core : Fin 8) (src : Fin 384) (s : State), s.neverRaised src.val = false ∧ s.getB (EVT_SRC_CFG.EN src.val) = true ∧ s.getB (EVT_SRC_STAT.PEND src.val) = false) ∧
    (∃ (core : Fin 8) (src : Fin 384) (s : State), s.neverRaised src.val = false ∧ s.getB (EVT_SRC_CFG.EN src.val) = true ∧ s.getB (EVT_SRC_STAT.PEND src.val) = true) ∧
    (∃ (core : Fin 8) (src : Fin 384) (s : State), (s.neverRaised src.val = true ∨ s.getB (EVT_SRC_CFG.EN src.val) = false)) ∧
    (∃ (core : Fin 8) (src : Fin 384) (s : State), tget s.cycle.raised src.val = none) ∧
    (∃ (core : Fin 8) (src : Fin 384) (l : Nat) (again : Bool) (s : State), tget s.cycle.raised src.val = some (l, again)) ∧
    (∃ (core : Fin 8) (src : Fin 384) (s : State), s.neverRaised src.val = false ∧ s.getB (EVT_SRC_CFG.EN src.val) = true ∧ tget s.cycle.raised src.val = none) :=
  ⟨⟨0, 383, { quiet.setB (EVT_SRC_CFG.EN 383) true with ltc := 2 ^ 32 + 8 }, by decide⟩,
    ⟨0, 5, { (quiet.setB (EVT_SRC_CFG.EN 5) true).setB (EVT_SRC_STAT.PEND 5) true with ltc := 8 }, by decide⟩,
    ⟨0, 130, { quiet.setB (EVT_SRC_CFG.EN 130) true with part := .s24 }, by decide⟩,
    ⟨0, 9, { (quiet.setB (EVT_SRC_CFG.EN 9) true).setB (EVT_SRC_STAT.PEND 9) true with ltc := 8 }, by decide⟩,
    ⟨0, 9, 8, true, { (quiet.setB (EVT_SRC_STAT.PEND 9) true).setB (EVT_SRC_STAT.MULTI 9) true with ltc := 8, cyc := { at0 := 8, raised := [(9, (8, true))] } }, by decide⟩,
    ⟨0, 9, { ((quiet.setB (EVT_SRC_CFG.EN 9) true).setB (EVT_SRC_STAT.PEND 9) true).setB (EVT_SRC_STAT.MULTI 9) true with ltc := 8 }, by decide⟩⟩

/-- A ring at its last SEQ before the wrap meets the hypotheses of CompletionsCarrySeqWithoutZero. -/
theorem wit_CompletionsCarrySeqWithoutZero :
    ∃ (s : State) (b r : Nat), r < ringCount b ∧ (s.ring b r).seq ≤ 0xFFFF :=
  ⟨{ quiet with rings := [(0x11 * 32, { seq := 0xFFFF })] }, 0x11, 0, by decide⟩

/-- One state and completion per clause of CompletionEventsAreRaisedForIrqOrReason. -/
theorem wit_CompletionEvents :
    (∃ (s : State) (b r : Nat) (x : Taken) (reason : Nat), r < ringCount b ∧ (x.irq = true ∨ reason % 256 ≠ 0) ∧
      (b ≠ 0x0A ∨ r = 0 ∨ s.getB ⟨FEN_JOB_PEND, r - 1, 1⟩ = false) ∧ b = 0x0A ∧ r ≠ 0) ∧
    (∃ (b r : Nat) (x : Taken) (reason : Nat), r < ringCount b ∧ x.irq = false ∧ reason % 256 = 0) :=
  ⟨⟨quiet, 0x0A, 16, { id := 0, opcode := 16, handle := 0, tag := 0, irq := true, done := none }, 0x0A00, by decide⟩,
    0x12, 0, { id := 0, opcode := 0, handle := 0, tag := 0, irq := false, done := none }, 0x1200, by decide⟩

/-- Two commands in flight on ring 0 of EVT's neighbour REC, the later one ended or not. -/
theorem wit_CompletionsGoOut :
    (∃ (s : State) (b r : Nat) (x : Taken) (xs : List Taken) (id : Nat), (s.ring b r).taken = x :: xs ∧ x.done = none ∧ x.id ≠ id) ∧
    (∃ (s : State) (b r : Nat) (x y : Taken) (ry hy : Nat), r < ringCount b ∧ (s.ring b r).taken = [x, y] ∧ x.id ≠ y.id ∧ y.done = some (ry, hy) ∧ (s.ring b r).oddCi = false) :=
  ⟨⟨{ quiet with rings := [(0x12 * 32, { taken := [{ id := 4, opcode := 3, handle := 0, tag := 7, irq := false, done := none }, { id := 5, opcode := 3, handle := 0, tag := 8, irq := false, done := none }] })] },
      0x12, 0, { id := 4, opcode := 3, handle := 0, tag := 7, irq := false, done := none }, [{ id := 5, opcode := 3, handle := 0, tag := 8, irq := false, done := none }], 5, by decide⟩,
    { quiet with rings := [(0x12 * 32, { taken := [{ id := 4, opcode := 3, handle := 0, tag := 7, irq := false, done := none }, { id := 5, opcode := 3, handle := 0, tag := 8, irq := false, done := some (0x1200, 0) }] })] },
      0x12, 0, { id := 4, opcode := 3, handle := 0, tag := 7, irq := false, done := none }, { id := 5, opcode := 3, handle := 0, tag := 8, irq := false, done := some (0x1200, 0) }, 0x1200, 0, by decide⟩

/-- States and operands that meet the hypotheses of EntriesAreTakenAndNopsAndUnknownOpcodesComplete, clause by clause. -/
theorem wit_EntriesAreTakenAndNopsAndUnknownOpcodesComplete :
    (∃ (blk : Fin 21) (ring : Fin 17) (e : Entry) (s : State), s.ready blk.val ring.val 0 e ∧ s.blockHolds blk.val ring.val 0 = false) ∧
    (∃ (blk : Fin 21) (ring : Fin 17) (opcode : BitVec 16) (e : Entry) (s : State), s.ready blk.val ring.val 0 e ∧ s.blockHolds blk.val ring.val opcode.toNat = false ∧ opcode.toNat ≠ 0 ∧ opOf blk.val opcode.toNat = none) ∧
    (∃ (blk : Fin 21) (ring : Fin 17) (e : Entry) (s : State), s.ready blk.val ring.val 0 e ∧ s.blockHolds blk.val ring.val 0 = false ∧ (s.ring blk.val ring.val).odd = false ∧ s.get (RING_PI blk.val ring.val) ≠ s.get (RING_CI blk.val ring.val) ∧ s.entryAt (s.get64 (RING_BASE_LO blk.val ring.val) (RING_BASE_HI blk.val ring.val) + 64 * (s.get (RING_CI blk.val ring.val) % 256)) = (0, e)) ∧
    (∃ (blk : Fin 21) (ring : Fin 17) (opcode : Nat) (e : Entry) (s : State), (s.ring blk.val ring.val).odd = false ∧ s.entryAt (s.get64 (RING_BASE_LO blk.val ring.val) (RING_BASE_HI blk.val ring.val) + 64 * (s.get (RING_CI blk.val ring.val) % 256)) = (opcode, e) ∧ s.mayTake blk.val ring.val opcode (bitAt e.flags.toNat 1) = false) :=
  ⟨⟨0x0A, 16, { flags := 1, handle := 77, tag := 0x1122334455667788, args := 0 }, ringOn 0x0A 16, by unfold State.ready State.ringFree; decide⟩,
    ⟨0x11, 0, 99, { flags := 0, handle := 77, tag := 5, args := 0 }, (ringOn 0x11 0).setB (EVT_SRC_CFG.EN 320) true, by unfold State.ready State.ringFree; decide⟩,
    ⟨0x12, 0, { flags := 1, handle := 0, tag := 0, args := 0 }, { ((ringOn 0x12 0).setReg (RING_BASE_LO 0x12 0) 8192).set (RING_PI 0x12 0) 1 with dram := [(8194, 1#8)] }, by unfold State.ready State.ringFree; decide⟩,
    ⟨0x12, 0, 0, { flags := 0, handle := 0, tag := 0, args := 0 }, quiet, by decide⟩⟩

/-- States and operands that meet the hypotheses of MtIsDisciplinedAsR134ToR144Say, clause by clause. -/
theorem wit_MtIsDisciplinedAsR134ToR144Say :
    (∃ (core : Fin 8) (value : Word) (s : State), bitAt value.toNat 31 = true ∧ s.obsReason 1 (s.get64 TMS_OBS_LTC_LO TMS_OBS_LTC_HI) = 0) ∧
    (∃ (core : Fin 8) (value : Word) (s : State), bitAt value.toNat 31 = true ∧ s.obsReason 1 (s.get64 TMS_OBS_LTC_LO TMS_OBS_LTC_HI) ≠ 0) ∧
    (∃ (o : Obs) (e : Int) (s : State), s.tms.obs = [(1, o)] ∧ o.effectAt ≤ s.now ∧ s.get TMS_STATUS.SRC = 0 ∧ s.tmsPri 1 ≠ 0 ∧ e = ((o.m : Int) * 65536 + o.frac) - s.mtFine o.l ∧ -obsStepLimit < e ∧ e < obsStepLimit) ∧
    (∃ (o : Obs) (e : Int) (s : State), s.tms.obs = [(1, o)] ∧ o.effectAt ≤ s.now ∧ s.get TMS_STATUS.SRC = 0 ∧ s.tmsPri 1 ≠ 0 ∧ e = ((o.m : Int) * 65536 + o.frac) - s.mtFine o.l ∧ ((e ≤ -obsStepLimit ∨ obsStepLimit ≤ e))) ∧
    (∃ (s : State), s.tms.slew ≠ 0 ∧ (s.tms.slewLeft.natAbs : Int) ≤ floorDivNat ((s.since s.tms.slewFrom : Int) * (s.tms.slew.natAbs : Int)) (2 ^ 24)) ∧
    (∃ (s : State), s.get TMS_STATUS.SRC = 1 ∧ s.tmsValid 1 = true ∧ 2000000000 < s.since (tgetD s.tms.lastEff 1 0) ∧ s.tmsValid 2 = false ∧ s.tmsValid 3 = false) ∧
    (∃ (src : Nat) (s : State), s.get TMS_STATUS.SRC = 1 ∧ ((src = 2 ∨ src = 3)) ∧ s.tmsValid src = true ∧ s.tmsPri 1 < s.tmsPri src ∧ s.tmsValid (5 - src) = false ∧ s.get TMS_SRC_CFG.SWITCH_HOLD * 1000000000 ≤ s.since (tgetD s.tms.validSince src 0)) ∧
    (∃ (s : State), s.get TMS_STATUS.STATE = 1 ∧ s.get TMS_HOLD_LIMIT.LIMIT * 1000000000 ≤ s.since s.tms.holdFrom) ∧
    (∃ (s : State), s.getB TMS_CTRL.ENABLE = true ∧ s.get TMS_STATUS.STATE ≠ 2) ∧
    (∃ (s : State), s.getB TMS_CTRL.ENABLE = true ∧ s.get TMS_STATUS.STATE = 2) :=
  ⟨⟨0, 0x80000000, (quiet.setB TMS_CTRL.ENABLE true).set TMS_SRC_CFG.PRI_GNSS 2, by decide⟩,
    ⟨0, 0x80000000, quiet.setB (EVT_SRC_CFG.EN 31) true, by decide⟩,
    ⟨{ l := 3000, m := 3500, frac := 0, effectAt := 1000000 }, 500 * 65536, (((({ quiet with ltc := 1000000, tms := { obs := [(1, { l := 3000, m := 3500, frac := 0, effectAt := 1000000 })] } }.set TMS_SRC_CFG.PRI_GNSS 2).setReg TMS_SERVO_KP 65536).setReg TMS_SERVO_KF 65536).set TMS_SLEW_MAX.RATE_MAX 10).setB (EVT_SRC_CFG.EN 30) true, by decide⟩,
    ⟨{ l := 3000, m := 2003000, frac := 0, effectAt := 1000000 }, 2000000 * 65536, { quiet with ltc := 1000000, tms := { obs := [(1, { l := 3000, m := 2003000, frac := 0, effectAt := 1000000 })] } }.set TMS_SRC_CFG.PRI_GNSS 2, by decide⟩,
    ⟨{ quiet with ltc := 1000000, tms := { slew := -16777216, slewLeft := -5, freq := 77 } }, by decide⟩,
    ⟨({ quiet with ltc := 3000000000 }.set TMS_STATUS.SRC 1).setB (tmsValidFld 1) true |>.set TMS_STATUS.STATE 2, by decide⟩,
    ⟨3, ({ quiet with ltc := 3000000000 }.set TMS_STATUS.SRC 1).setB (tmsValidFld 3) true |>.set TMS_SRC_CFG.PRI_PAIR 2 |>.set TMS_SRC_CFG.SWITCH_HOLD 0, by decide⟩,
    ⟨({ quiet with ltc := 3000000000 }.set TMS_STATUS.STATE 1).set TMS_HOLD_LIMIT.LIMIT 3, by decide⟩,
    ⟨{ (quiet.setB TMS_CTRL.ENABLE true).setB TMS_STATUS.STEP_PEND true with tms := { stepPend := some 5 } }, by decide⟩,
    ⟨{ (quiet.setB TMS_CTRL.ENABLE true).set TMS_STATUS.STATE 2 with tms := { stepPend := some 5 } }, by decide⟩⟩

/-- States and operands that meet the hypotheses of SecondsPulsesAndCapturesDoAsR141ToR148Say, clause by clause. -/
theorem wit_SecondsPulsesAndCapturesDoAsR141ToR148Say :
    (∃ (c : Int) (s : State), s.msOn = false ∧ s.fusOn = false ∧ s.tms.stepPend = none ∧ c = floorDivNat s.mtNow 1000000000 ∧ s.tms.curSec < c ∧ s.tms.lastSec < c ∧ s.getB TMS_CTRL.ENABLE = true ∧ s.getB TMS_TP_CFG.TP_EN = true) ∧
    (∃ (c : Int) (s : State), s.msOn = false ∧ s.fusOn = false ∧ s.tms.stepPend = none ∧ c = floorDivNat s.mtNow 1000000000 ∧ s.tms.curSec < c ∧ c ≤ s.tms.lastSec) ∧
    (∃ (e : Int) (c : Int) (d : Int) (s : State), s.msOn = false ∧ s.fusOn = false ∧ s.tms.stepPend = some e ∧ c = floorDivNat s.mtNow 1000000000 ∧ d = floorDivNat (s.mtNow + roundStep e) 1000000000 ∧ s.tms.curSec < c ∧ s.getB TMS_CTRL.ENABLE = true ∧ s.getB TMS_TP_CFG.TP_EN = true ∧ -(2 ^ 63) ≤ s.mtNow - s.now + roundStep e ∧ s.mtNow - s.now + roundStep e < 2 ^ 63) ∧
    (∃ (p : Nat) (width : Nat) (s : State), s.tms.pulse = some (p, width) ∧ width * 1000 ≤ s.since p) ∧
    (∃ (s : State), ((s.getB TMS_CTRL.ENABLE = true ∧ s.getB TMS_TP_CFG.TP_EN = true) ∨ s.tms.pulse.isSome = true)) ∧
    (∃ (ch : Fin 7) (rise : Bool) (stamp : Nat) (q : List Nat) (rises : Tbl (List Nat)) (s : State), bitAt (s.get (TMS_CAP_CFG.EDGE ch.val)) (if rise then 0 else 1) = true ∧ (∀ l ∈ tget s.tms.capLast ch.val, l + 100 ≤ stamp) ∧ q = tgetD s.tms.caps ch.val [] ∧ q.length < 16 ∧ stamp < 2 ^ 64 ∧ rises = (if rise then tput s.tms.rises ch.val ((if (tgetD s.tms.rises ch.val []).length < 8 then tgetD s.tms.rises ch.val [] else (tgetD s.tms.rises ch.val []).tail) ++ [stamp]) else s.tms.rises)) ∧
    (∃ (ch : Fin 7) (rise : Bool) (stamp : Nat) (rises : Tbl (List Nat)) (s : State), bitAt (s.get (TMS_CAP_CFG.EDGE ch.val)) (if rise then 0 else 1) = true ∧ (∀ l ∈ tget s.tms.capLast ch.val, l + 100 ≤ stamp) ∧ 16 ≤ (tgetD s.tms.caps ch.val []).length ∧ rises = (if rise then tput s.tms.rises ch.val ((if (tgetD s.tms.rises ch.val []).length < 8 then tgetD s.tms.rises ch.val [] else (tgetD s.tms.rises ch.val []).tail) ++ [stamp]) else s.tms.rises)) ∧
    (∃ (ch : Fin 7) (rise : Bool) (l : Nat) (stamp : Nat) (rises : Tbl (List Nat)) (s : State), bitAt (s.get (TMS_CAP_CFG.EDGE ch.val)) (if rise then 0 else 1) = true ∧ tget s.tms.capLast ch.val = some l ∧ stamp < l + 100 ∧ rises = (if rise then tput s.tms.rises ch.val ((if (tgetD s.tms.rises ch.val []).length < 8 then tgetD s.tms.rises ch.val [] else (tgetD s.tms.rises ch.val []).tail) ++ [stamp]) else s.tms.rises)) ∧
    (∃ (ch : Fin 7) (rise : Bool) (stamp : Nat) (rises : Tbl (List Nat)) (s : State), bitAt (s.get (TMS_CAP_CFG.EDGE ch.val)) (if rise then 0 else 1) = false ∧ rises = (if rise then tput s.tms.rises ch.val ((if (tgetD s.tms.rises ch.val []).length < 8 then tgetD s.tms.rises ch.val [] else (tgetD s.tms.rises ch.val []).tail) ++ [stamp]) else s.tms.rises)) :=
  ⟨⟨7, (({ quiet with ltc := 7000000000, tms := { stepped := true } }.setB TMS_CTRL.ENABLE true).setB TMS_TP_CFG.TP_EN true).setB (EVT_SRC_CFG.EN 26) true, by decide⟩,
    ⟨7, (({ quiet with ltc := 7000000000, tms := { lastSec := 9, curSec := 6 } }.setB TMS_CTRL.ENABLE true).setB TMS_TP_CFG.TP_EN true).setB (EVT_SRC_CFG.EN 26) true, by decide⟩,
    ⟨-3000000 * 65536 - 32768, 7, 6, ({ quiet with ltc := 7000000000, tms := { stepPend := some (-3000000 * 65536 - 32768) } }.setB TMS_CTRL.ENABLE true).setB TMS_TP_CFG.TP_EN true, by decide⟩,
    ⟨100, 100000, { quiet with ltc := 200000000, tms := { pulse := some (100, 100000) } }, by decide⟩,
    ⟨(quiet.setB TMS_CTRL.ENABLE true).setB TMS_TP_CFG.TP_EN true, by decide⟩,
    ⟨6, false, 12345, [], [], ((quiet.set (TMS_CAP_CFG.EDGE 6) 2).setB (TMS_CAP_CFG.IRQ 6) true).setB (EVT_SRC_CFG.EN 24) true, by decide⟩,
    ⟨0, false, 12345, [], { quiet.set (TMS_CAP_CFG.EDGE 0) 3 with tms := { caps := [(0, List.replicate 16 4)], capLast := [(0, 4)] } }, by decide⟩,
    ⟨0, false, 4, 103, [], { quiet.set (TMS_CAP_CFG.EDGE 0) 3 with tms := { capLast := [(0, 4)] } }, by decide⟩,
    ⟨0, false, 103, [], quiet, by decide⟩⟩

/-- States and operands that meet the hypotheses of LatchedReadsAnswerOneSampleToTheReadingCore, clause by clause. -/
theorem wit_LatchedReadsAnswerOneSampleToTheReadingCore :
    (∃ (core : Fin 8) (n : Fin 48) (s : State), s.closed (INP_AIN_RAW n.val) = false) ∧
    (∃ (core : Fin 8) (n : Fin 24) (s : State), s.closed (INP_PIN_VAL n.val) = false) ∧
    (∃ (core : Fin 8) (n : Fin 8) (s : State), s.closed (INP_LAC_CNT n.val) = false) ∧
    (∃ (core : Fin 8) (s : State), s.closed INP_FLOW_STAT = false) ∧
    (∃ (core : Fin 8) (s : State), s.closed CLE_FRAME_LO = false) ∧
    (∃ (core : Fin 8) (slot : Fin 96) (s : State), s.closed (CLE_S_SAMPLE slot.val) = false ∧ s.slotLive slot.val = true ∧ (s.slot slot.val).snap = []) ∧
    (∃ (core : Fin 8) (k : Fin 64) (s : State), s.closed (VDR_OUT_SENSE k.val) = false) ∧
    (∃ (core : Fin 8) (k : Fin 64) (s : State), s.closed (VDR_CTX_STAT k.val) = false) ∧
    (∃ (core : Fin 8) (which : Fin 514) (s : State), 2 ≤ which.val) ∧
    (∃ (core : Fin 8) (x : Fin 32) (s : State), s.closed (CAM_CTX_STAT x.val) = false) ∧
    (∃ (core : Fin 8) (s : State), s.closed FUS_IMU0 = false) ∧
    (∃ (core : Fin 8) (x : Fin 24) (s : State), s.closed (FUS_S_CALV x.val) = false ∧ s.fusLive x.val = true) ∧
    (∃ (core : Fin 8) (x : Fin 2048) (o : CanObj) (s : State), s.closed (BUS_OBJ_STAT x.val) = false ∧ s.busObj x.val = some o) :=
  ⟨⟨5, 47, (quiet.setReg (INP_AIN_VAL 47) 9).setReg (INP_AIN_RAW 47) 8, by decide⟩,
    ⟨5, 23, ((quiet.setReg (INP_PIN_VAL 23) 9).setReg (INP_PIN_STAT 23) 0x80030201).setReg (INP_PIN_LTC_HI 23) 4, by decide⟩,
    ⟨7, 7, ((quiet.setReg (INP_LAC_PEAK 7) 9).setReg (INP_LAC_CNT 7) 0x00030201).setReg (INP_LAC_LTC_HI 7) 4, by decide⟩,
    ⟨0, (quiet.setReg INP_FLOW_STAT 9).setReg INP_FLOW_VAL 77, by decide⟩,
    ⟨0, { quiet with ltc := 80000 }, by decide⟩,
    ⟨0, 95, { ((quiet.setReg (CLE_S_SAMPLE 95) 9).setReg (CLE_S_XSTAT 95) 0xFFFFFFFF).setReg (CLE_S_OUT 95) 7 with cle := { slots := [(95, {})] } }, by decide⟩,
    ⟨2, 63, (quiet.setReg (VDR_OUT_SENSE 63) 9).setReg (VDR_OUT_RELT 63) 8, by decide⟩,
    ⟨2, 63, (quiet.setReg (VDR_CTX_STAT 63) 9).setReg (VDR_CTX_REQ 63) 8, by decide⟩,
    ⟨2, 513, (quiet.setReg (GNB_CH_STAT 511) 9).setReg (GNB_CH_BOUND 511) 8, by decide⟩,
    ⟨2, 31, (quiet.setReg (CAM_CTX_STAT 31) 0xFFFFFFFF).setReg (CAM_CTX_CSEQ 31) 8, by decide⟩,
    ⟨2, (quiet.setReg FUS_IMU0 9).setReg FUS_IMU_LTC_HI 8, by decide⟩,
    ⟨2, 23, { (quiet.setReg (FUS_S_CALV 23) 9).setReg (FUS_S_RF_USED 23) 8 with fus := { srcs := [(23, src0)] } }, by decide⟩,
    ⟨2, 2047, obj0, { (quiet.setReg (BUS_OBJ_STAT 2047) 0xFFFFFFFF).setReg (BUS_OBJ_REC 2047 21) 8 with bus := { objs := [(2047, obj0)] } }, by decide⟩⟩

/-- States and operands that meet the hypotheses of AnalogSamplesAndFlowWindowsPublishTheirValues, clause by clause. -/
theorem wit_AnalogSamplesAndFlowWindowsPublishTheirValues :
    (∃ (n : Fin 48) (frames : List Nat) (stamp : Nat) (c : Nat) (f : Nat) (g : F32) (o : F32) (a : Ain) (s : State), s.ainDue n.val frames stamp = true ∧ a = s.ainNext n.val frames ∧ c = (if (s.ain n.val).shunt then 0 else ainCode a.y) ∧ f = s.ainFlags n.val c ∧ g = (s.inpAt (INP_AIN_GAIN n.val) (s.frameStart (s.ain n.val).next)).toNat ∧ o = (s.inpAt (INP_AIN_OFS n.val) (s.frameStart (s.ain n.val).next)).toNat) ∧
    (∃ (n : Fin 48) (s : State), s.inpOn = true ∧ s.imgFld (INP_AIN_CFG.MODE n.val) = 3 ∧ (s.ain n.val).shunt = false) ∧
    (∃ (core : Fin 8) (n : Fin 48) (value : Word) (s : State), s.closed (INP_AIN_FLT n.val) = false ∧ bitAt value.toNat 31 = true) ∧
    (∃ (sum : Nat) (n : Nat) (b : Nat) (src : Nat) (bad : Bool) (ok : Bool) (v : F32) (s : State), s.flowDue = true ∧ tgetD s.inp.flow s.inp.flowNext (0, 0, false) = (sum, n, bad) ∧ n < 65536 ∧ b = max (s.inp.flowNext * 10000000) s.inp.start ∧ src = s.get INP_FLOW_CFG.SRC ∧ ok = (decide (n ≠ 0) && !bad) ∧ v = (if n = 0 then F.zero else flowValue sum n (s.inpAt (INP_AIN_GAIN src) b).toNat (s.inpAt (INP_AIN_OFS src) b).toNat (s.inpAt INP_FLOW_TARE b).toNat (s.inpAt INP_FLOW_K b).toNat)) :=
  ⟨⟨6, [1000, 3000], 30256, 2000, 0, 0x3F800000, 0, { y := 32000, started := true, next := 3, stamp := 5 }, { (quiet.setLoaded 0 true).setB INP_CTRL.ENABLE true |>.set (INP_AIN_CFG.DIV 6) 2 |>.set (INP_AIN_CFG.K 6) 1 |>.set (INP_AIN_CFG.OVS 6) 0 |>.setReg (INP_AIN_LIM 6) 0xFFFF0000 with ltc := 32000, img := [(INP_AIN_CFG 6, 0x10000)], inp := { ains := [(6, { next := 3, y := 0, started := false, stamp := 5 })] } }, by decide⟩,
    ⟨6, { (quiet.setLoaded 0 true).setB INP_CTRL.ENABLE true |>.setB (EVT_SRC_CFG.EN 353) true with img := [(INP_AIN_CFG 6, 0x30000)] }, by decide⟩,
    ⟨1, 6, 0x80000008, { quiet.set (INP_AIN_FLT.STICKY 6) 9 with inp := { ains := [(6, { shunt := true, y := 5 })] } }, by decide⟩,
    ⟨400, 4, 10000000, 6, false, true, 0x42C80000, { (quiet.setLoaded 0 true).setB INP_CTRL.ENABLE true |>.setB INP_FLOW_CFG.EN true |>.set INP_FLOW_CFG.SRC 6 |>.setReg (INP_AIN_GAIN 6) 0x3F800000 |>.setReg INP_FLOW_K 0x3F800000 with ltc := 20000000, inp := { flow := [(1, (400, 4, false))], flowNext := 1, ains := [(6, { next := 2010 })] } }, by decide⟩⟩

/-- States and operands that meet the hypotheses of PulseAndLossInputsCountMeasureAndPublish, clause by clause. -/
theorem wit_PulseAndLossInputsCountMeasureAndPublish :
    (∃ (n : Fin 24) (rise : Bool) (both : Bool) (stamp : Nat) (held : Nat) (s : State), s.inpOn = true ∧ (s.pin n.val).level ≠ rise ∧ held < s.inpGet (INP_PIN_CFG.MINW n.val) stamp) ∧
    (∃ (n : Fin 24) (rise : Bool) (both : Bool) (stamp : Nat) (held : Nat) (s : State), s.inpOn = true ∧ (s.pin n.val).level ≠ rise ∧ s.inpGet (INP_PIN_CFG.MINW n.val) stamp ≤ held ∧ held < 240) ∧
    (∃ (n : Fin 24) (both : Bool) (stamp : Nat) (held : Nat) (s : State), s.inpOn = true ∧ (s.pin n.val).level = false ∧ s.inpGet (INP_PIN_CFG.MINW n.val) stamp ≤ held ∧ 240 ≤ held ∧ s.inQuad n.val = false ∧ s.get (INP_PIN_CFG.KIND n.val) = 4) ∧
    (∃ (n : Fin 24) (both : Bool) (stamp : Nat) (held : Nat) (last : Nat) (s : State), s.inpOn = true ∧ (s.pin n.val).level = false ∧ s.inpGet (INP_PIN_CFG.MINW n.val) stamp ≤ held ∧ 240 ≤ held ∧ s.inQuad n.val = false ∧ s.get (INP_PIN_CFG.KIND n.val) = 2 ∧ (s.pin n.val).lastRise = some last) ∧
    (∃ (n : Fin 24) (e : Nat) (rise : Bool) (stamp : Nat) (held : Nat) (s : State), s.inpOn = true ∧ (s.pin n.val).level ≠ rise ∧ s.inpGet (INP_PIN_CFG.MINW n.val) stamp ≤ held ∧ 240 ≤ held ∧ s.inQuad n.val = true ∧ e = 2 * (n.val / 2)) ∧
    (∃ (n : Fin 24) (e : Nat) (rise : Bool) (stamp : Nat) (held : Nat) (s : State), s.inpOn = true ∧ (s.pin n.val).level ≠ rise ∧ s.inpGet (INP_PIN_CFG.MINW n.val) stamp ≤ held ∧ 240 ≤ held ∧ s.inQuad n.val = true ∧ e = 2 * (n.val / 2)) ∧
    (∃ (n : Fin 24) (a : Nat) (fin : Nat) (s : State), s.inpOn = true ∧ s.get (INP_PIN_CFG.KIND n.val) = 1 ∧ a = (s.pin n.val).gate ∧ s.inpGet (INP_PIN_TIM.GATE n.val) a ≠ 0 ∧ fin = (a / (s.inpGet (INP_PIN_TIM.GATE n.val) a * 1000000) + 1) * (s.inpGet (INP_PIN_TIM.GATE n.val) a * 1000000) ∧ fin + 500 < s.now + 8) ∧
    (∃ (n : Fin 24) (r : Nat) (s : State), s.inpOn = true ∧ s.get (INP_PIN_CFG.KIND n.val) ≠ 0 ∧ s.getB (INP_PIN_STAT.STALL n.val) = false ∧ r = ((s.pin n.val).lastRise).getD s.inp.start ∧ s.inpGet (INP_PIN_TIM.TIMEOUT n.val) r * 1000000 ≤ s.since r) ∧
    (∃ (n : Fin 24) (s : State), s.inpOn = true ∧ s.getB (INP_PIN_CFG.TYPE n.val) = true) ∧
    (∃ (n : Fin 8) (code : BitVec 24) (stamp : Nat) (w : Nat) (u : Nat) (thr : Nat) (dead : Nat) (x : Int) (a : LacAcc) (b : LacAcc) (hit : Bool) (s : State), s.inpOn = true ∧ s.lacNs n.val ≠ 0 ∧ w = stamp / s.lacNs n.val ∧ (s.lac n.val).next ≤ w ∧ stamp ≤ s.now + 8 ∧ u = s.lacStart n.val w ∧ x = (if s.inpGet (INP_LAC_CFG.HP n.val) u = 0 then code.toInt else toSigned 24 (s.fresh 24)) ∧ thr = s.inpGet (INP_LAC_THR.THR n.val) u ∧ dead = s.inpGet (INP_LAC_CFG.DEAD n.val) u ∧ a = (tget (s.lac n.val).wins w).getD { from0 := stamp } ∧ hit = (decide ((s.lac n.val).e < thr) && decide (thr ≤ envelope (s.inpGet (INP_LAC_CFG.DECAY n.val) u) (s.lac n.val).e x) && (s.lac n.val).since.all fun k => decide (dead ≤ k + 1)) ∧ b = { a with peak := max a.peak (envelope (s.inpGet (INP_LAC_CFG.DECAY n.val) u) (s.lac n.val).e x), count := if hit then min 0xFFFFFF (a.count + 1) else a.count }) ∧
    (∃ (n : Fin 8) (w : Nat) (a : LacAcc) (s : State), s.lacDue n.val = true ∧ s.enabled 0x0D = false ∧ w = (s.lac n.val).next ∧ a = tgetD (s.lac n.val).wins w {}) ∧
    (∃ (n : Fin 8) (w : Nat) (a : LacAcc) (s : State), s.lacDue n.val = true ∧ s.enabled 0x0D = true ∧ w = (s.lac n.val).next ∧ a = tgetD (s.lac n.val).wins w {}) ∧
    (∃ (n : Fin 8) (s : State), s.inpOn = true ∧ s.getB ⟨INP_LAC_STAT n.val, 1, 1⟩ = false) :=
  ⟨⟨3, true, false, 1000, 100, (quiet.setLoaded 0 true).setB INP_CTRL.ENABLE true |>.set (INP_PIN_CFG.MINW 3) 101, by decide⟩,
    ⟨3, true, false, 1000, 239, (quiet.setLoaded 0 true).setB INP_CTRL.ENABLE true |>.set (INP_PIN_STAT.FAST 3) 255, by decide⟩,
    ⟨23, false, 1000, 240, { (quiet.setLoaded 0 true).setB INP_CTRL.ENABLE true |>.set (INP_PIN_CFG.KIND 23) 4 |>.setB (INP_PIN_STAT.STALL 23) true with inp := { pins := [(23, { count := 0xFFFFFFFF })] } }, by decide⟩,
    ⟨3, false, 10000, 240, 4000, { (quiet.setLoaded 0 true).setB INP_CTRL.ENABLE true |>.set (INP_PIN_CFG.KIND 3) 2 with inp := { pins := [(3, { lastRise := some 4000 })] } }, by decide⟩,
    ⟨3, 2, true, 10000, 240, { (quiet.setLoaded 0 true).setB INP_CTRL.ENABLE true |>.set (INP_PIN_CFG.KIND 2) 5 with img := [(imgQuadPairs, 2)] }, by decide⟩,
    ⟨3, 2, true, 10000, 240, { (quiet.setLoaded 0 true).setB INP_CTRL.ENABLE true |>.set (INP_PIN_CFG.KIND 2) 5 |>.setB (EVT_SRC_CFG.EN 355) true |>.setB (INP_PIN_STAT.STALL 2) true with img := [(imgQuadPairs, 2)] }, by decide⟩,
    ⟨3, 100000000, 200000000, { (quiet.setLoaded 0 true).setB INP_CTRL.ENABLE true |>.set (INP_PIN_CFG.KIND 3) 1 |>.set (INP_PIN_TIM.GATE 3) 100 with ltc := 200000600, inp := { pins := [(3, { gate := 100000000, rises := [90000000, 100000100, 140000000, 180000100, 200000100] })] } }, by decide⟩,
    ⟨3, 8, { (quiet.setLoaded 0 true).setB INP_CTRL.ENABLE true |>.set (INP_PIN_CFG.KIND 3) 4 with ltc := 200000008, inp := { pins := [(3, { lastRise := some 8 })] } }, by decide⟩,
    ⟨3, (quiet.setLoaded 0 true).setB INP_CTRL.ENABLE true |>.setB (INP_PIN_CFG.TYPE 3) true |>.setB (EVT_SRC_CFG.EN 356) true, by decide⟩,
    ⟨7, 0x700000, 8, 0, 0, 0x700000, 0, 0x700000, { from0 := 8 }, { from0 := 8, peak := 0x700000, count := 1 }, true, (quiet.setLoaded 0 true).setB INP_CTRL.ENABLE true |>.set (INP_LAC_CFG.HP 7) 0 |>.set (INP_LAC_THR.THR 7) 0x700000 |>.set (INP_LAC_WIN.WIN 7) 10 |>.set (INP_LAC_CFG.DEAD 7) 0, by decide⟩,
    ⟨2, 5, { count := 412, peak := 70000, from0 := 50000000 }, { (quiet.setLoaded 0 true).setB INP_CTRL.ENABLE true |>.setB (INP_LAC_WIN.IRQ 2) true |>.set (INP_LAC_WIN.WIN 2) 10 |>.setB (EVT_SRC_CFG.EN 357) true with ltc := 60001000, inp := { lacs := [(2, { next := 5, wins := [(5, { count := 412, peak := 70000, from0 := 50000000 }), (6, { from0 := 60000000 })] })] } }, by decide⟩,
    ⟨2, 5, { count := 412, peak := 70000, from0 := 50000000 }, { (quiet.setLoaded 0 true).setB INP_CTRL.ENABLE true |>.setB (INP_LAC_WIN.IRQ 2) true |>.set (INP_LAC_WIN.WIN 2) 10 |>.setB (EVT_SRC_CFG.EN 357) true |>.setB (enableFld 0x0D) true with ltc := 60001000, inp := { lacs := [(2, { next := 5, wins := [(5, { count := 412, peak := 70000, from0 := 50000000 }), (6, { from0 := 60000000 })] })] } }, by decide⟩,
    ⟨2, (quiet.setLoaded 0 true).setB INP_CTRL.ENABLE true |>.setB (EVT_SRC_CFG.EN 358) true, by decide⟩⟩

/-- States and operands that meet the hypotheses of SensorSuppliesOutputsAndDigitalInputsFollowR163ToR165, clause by clause. -/
theorem wit_SensorSuppliesOutputsAndDigitalInputsFollowR163ToR165 :
    (∃ (i : Fin 6) (ovr : Bool) (s : State), s.supplyOn i.val = true ∧ ovr ≠ bitAt (s.get INP_SSUP.LIMIT) i.val) ∧
    (∃ (i : Fin 6) (s : State), s.supplyOn i.val = true ∧ bitAt (s.get INP_SSUP.LIMIT) i.val = true ∧ 10000000 ≤ s.since (tgetD s.inp.limitAt i.val 0)) ∧
    (∃ (core : Fin 8) (value : Word) (i : Fin 6) (s : State), s.closed INP_SSUP = false ∧ s.inpOn = true ∧ bitAt (s.get INP_SSUP.EN) i.val = false ∧ bitAt value.toNat i.val = true) ∧
    (∃ (n : Fin 8) (s : State), s.inpOn = true ∧ s.getB (INP_AOUT.EN n.val) = true ∧ s.getB (INP_AOUT.FAULT n.val) = false) ∧
    (∃ (n : Fin 16) (rise : Bool) (held : Nat) (s : State), s.inpOn = true ∧ s.getB ⟨INP_DIN, n.val, 1⟩ ≠ rise ∧ 20 + 1000 * s.inpGet INP_DIN_CFG.DEB (s.now - 1000 * held) ≤ held) ∧
    (∃ (n : Fin 16) (rise : Bool) (held : Nat) (s : State), (s.getB ⟨INP_DIN, n.val, 1⟩ = rise ∨ held < 20 + 1000 * s.inpGet INP_DIN_CFG.DEB (s.now - 1000 * held))) ∧
    (∃ (s : State), s.getB INP_CTRL.ENABLE = true) :=
  ⟨⟨5, true, (quiet.setLoaded 0 true).setB INP_CTRL.ENABLE true |>.set INP_SSUP.EN 63, by decide⟩,
    ⟨5, { (quiet.setLoaded 0 true).setB INP_CTRL.ENABLE true |>.set INP_SSUP.EN 63 |>.set INP_SSUP.LIMIT 32 |>.setB (EVT_SRC_CFG.EN 360) true with ltc := 10000008, inp := { limitAt := [(5, 8)] } }, by decide⟩,
    ⟨0, 32, 5, { (quiet.setLoaded 0 true).setB INP_CTRL.ENABLE true |>.set INP_SSUP.FAULT 33 |>.set INP_SSUP.EN 2 |>.set INP_SSUP.LIMIT 2 with inp := { supOff := 33 } }, by decide⟩,
    ⟨7, (quiet.setLoaded 0 true).setB INP_CTRL.ENABLE true |>.setB (INP_AOUT.EN 7) true |>.setB (EVT_SRC_CFG.EN 361) true, by decide⟩,
    ⟨15, true, 5020, (quiet.setLoaded 0 true).setB INP_CTRL.ENABLE true |>.set INP_DIN_IRQ.RISE 0x8000 |>.set INP_DIN_CFG.DEB 5 |>.setB (EVT_SRC_CFG.EN 362) true, by decide⟩,
    ⟨15, true, 19, (quiet.setLoaded 0 true).setB INP_CTRL.ENABLE true |>.setReg INP_DIN_CFG 0, by decide⟩,
    ⟨quiet.setB INP_CTRL.ENABLE true |>.set INP_SSUP.LIMIT 63, by decide⟩⟩

/-- States and operands that meet the hypotheses of SlotCommandsCreateStartStopAndDestroySlots, clause by clause. -/
theorem wit_SlotCommandsCreateStartStopAndDestroySlots :
    (∃ (ring : Fin 2) (e : Entry) (x : Nat) (p : Nat) (n : Nat) (s : State), s.ready 0x05 ring.val 0 e ∧ lowest (s.createCodes (s.cmdOf 0x05 ring.val e)) = none ∧ tfree s.cle.slots 96 = some x ∧ s.clePlace ((s.cmdOf 0x05 ring.val e).arg 17 1) = some (p, n)) ∧
    (∃ (ring : Fin 2) (e : Entry) (code : Nat) (s : State), s.ready 0x05 ring.val 0 e ∧ lowest (s.createCodes (s.cmdOf 0x05 ring.val e)) = some code) ∧
    (∃ (ring : Fin 2) (e : Entry) (s : State), s.ready 0x05 ring.val 0 e ∧ s.checkHandle 1 s.slotLive e.handle.toNat = none ∧ (s.slot (hIndex e.handle.toNat)).cmds = [] ∧ s.slotRuns (hIndex e.handle.toNat) = false ∧ F.finite ((s.cmdOf 0x05 ring.val e).arg 16 4) = true ∧ F.finite ((s.cmdOf 0x05 ring.val e).arg 20 4) = true) ∧
    (∃ (ring : Fin 2) (e : Entry) (s : State), s.ready 0x05 ring.val 0 e ∧ s.checkHandle 1 s.slotLive e.handle.toNat = none ∧ (s.slot (hIndex e.handle.toNat)).cmds = [] ∧ (s.cmdOf 0x05 ring.val e).arg 16 1 ≤ 1 ∧ s.slotRuns (hIndex e.handle.toNat) = true) ∧
    (∃ (ring : Fin 2) (e : Entry) (s : State), s.ready 0x05 ring.val 0 e ∧ s.checkHandle 1 s.slotLive e.handle.toNat = none ∧ (s.slot (hIndex e.handle.toNat)).cmds = [] ∧ (s.cmdOf 0x05 ring.val e).arg 16 1 ≤ 1 ∧ s.slotRuns (hIndex e.handle.toNat) = false) ∧
    (∃ (ring : Fin 2) (e : Entry) (s : State), s.ready 0x05 ring.val 0 e ∧ s.checkHandle 1 s.slotLive e.handle.toNat = none ∧ (s.slot (hIndex e.handle.toNat)).cmds = [] ∧ s.slotRuns (hIndex e.handle.toNat) = false ∧ s.cle.slots = [(hIndex e.handle.toNat, s.slot (hIndex e.handle.toNat))]) ∧
    (∃ (core : Fin 8) (slot : Fin 96) (word : Fin 1024) (value : Word) (s : State), s.closed (CLE_S_STAT slot.val + 4 * word.val) = false ∧ s.slotLive slot.val = true ∧ isCoef (4 * word.val) = true ∧ coefIgnored (4 * word.val) value.toNat = false ∧ 4 * word.val ≠ 0x0A0 ∧ s.slotRuns slot.val = true ∧ s.getB (CLE_S_CTRL.HOLD slot.val) = false ∧ s.reg SYS_DET_STATUS = 0#32) ∧
    (∃ (core : Fin 8) (slot : Fin 96) (word : Fin 1024) (value : Word) (s : State), s.closed (CLE_S_STAT slot.val + 4 * word.val) = false ∧ s.slotLive slot.val = true ∧ isCoef (4 * word.val) = true ∧ coefIgnored (4 * word.val) value.toNat = false ∧ 4 * word.val ≠ 0x0A0 ∧ s.slotRuns slot.val = false) ∧
    (∃ (core : Fin 8) (slot : Fin 96) (meas : Bool) (value : Word) (s : State), s.closed (if meas then CLE_S_MS_HOST slot.val else CLE_S_SP_HOST slot.val) = false ∧ s.slotLive slot.val = true ∧ F.finite value.toNat = true) ∧
    (∃ (core : Fin 8) (slot : Fin 96) (meas : Bool) (value : Word) (s : State), s.closed (if meas then CLE_S_MS_HOST slot.val else CLE_S_SP_HOST slot.val) = false ∧ s.slotLive slot.val = true ∧ F.finite value.toNat = false) ∧
    (∃ (s : State), s.getB CLE_CTRL.ENABLE = true) :=
  ⟨⟨1, { flags := 1, handle := 0, tag := 9, args := 0x010000000000FF00 }, 0, 0, 0, { (ringOn 0x05 1).setB (CLE_SCLK_CFG.EN 0) true |>.set (CLE_SCLK_CFG.N 0) 20 |>.setReg (CLE_S_SAMPLE 0) 7 with img := [(CLE_SCLK_CAP 0, 0xFFFFFFFF)] }, by unfold State.ready State.ringFree; decide⟩,
    ⟨1, { flags := 1, handle := 0, tag := 9, args := 0x0100000000000008 }, 5, (ringOn 0x05 1), by unfold State.ready State.ringFree; decide⟩,
    ⟨0, { flags := 0, handle := 0x0400005F, tag := 9, args := 0x3F800000 }, { (ringOn 0x05 0).set (CLE_S_STAT.STATE 95) 1 |>.setReg (CLE_S_SAMPLE 95) 7 with cle := { slots := [(95, {})] }, ltc := 80 }, by unfold State.ready State.ringFree; decide⟩,
    ⟨0, { flags := 0, handle := 0x0400005F, tag := 9, args := 1 }, { (ringOn 0x05 0).set (CLE_S_STAT.STATE 95) 2 with cle := { slots := [(95, {})] }, ltc := 80 }, by unfold State.ready State.ringFree; decide⟩,
    ⟨0, { flags := 0, handle := 0x0400005F, tag := 9, args := 1 }, { (ringOn 0x05 0).set (CLE_S_STAT.STATE 95) 1 with cle := { slots := [(95, {})] }, ltc := 80 }, by unfold State.ready State.ringFree; decide⟩,
    ⟨0, { flags := 0, handle := 0x0400005F, tag := 9, args := 0 }, { (ringOn 0x05 0).set (CLE_S_STAT.STATE 95) 1 |>.setReg (CLE_S_SAMPLE 95) 7 with cle := { slots := [(95, {})] }, ltc := 80 }, by unfold State.ready State.ringFree; decide⟩,
    ⟨0, 95, 1023, 0x3F800000, { (quiet.set (CLE_S_STAT.STATE 95) 2).set (CLE_S_CTRL.HOLD 95) 0 |>.setReg (CLE_S_SAMPLE 95) 7 |>.setB (EVT_SRC_CFG.EN 36) true |>.setB (EVT_SRC_CFG.EN 4) true with cle := { slots := [(95, { phase := 2 })] }, ltc := 80 }, by decide⟩,
    ⟨0, 95, 16, 0x3F800000, { (quiet.set (CLE_S_STAT.STATE 95) 1) with cle := { slots := [(95, { phase := 2 })] }, ltc := 80 }, by decide⟩,
    ⟨0, 3, true, 0x3F800000, { quiet with cle := { slots := [(3, {})] } }, by decide⟩,
    ⟨0, 3, true, 0x7F800000, { quiet with cle := { slots := [(3, {})] } }, by decide⟩,
    ⟨{ quiet.setB CLE_CTRL.ENABLE true |>.set (CLE_S_STAT.STATE 95) 2 |>.setB CLE_STATUS.GRID true with cle := { slots := [(95, { cmds := [{ ring := 0, id := 0, op := 4, taken := 0, a := 0, b := 0 }] })], lastFrame := some 5 }, rings := [(0x05 * 32, { taken := [{ id := 0, opcode := 4, handle := 0, tag := 7, irq := false, done := none }] })] }, by decide⟩⟩

/-- States and operands that meet the hypotheses of StrobesCaptureEvaluationsComputeAndPhasePointsApply, clause by clause. -/
theorem wit_StrobesCaptureEvaluationsComputeAndPhasePointsApply :
    (∃ (x : Nat) (mt : Nat) (mr : Nat) (pt : Nat) (pr : Nat) (m : Nat) (p : Nat) (s : State), x < 96 ∧ s.getB CLE_STATUS.GRID = true ∧ s.gridLtc ≤ s.now ∧ s.cle.lastFrame.all (fun k => decide (k < s.frameNow)) = true ∧ s.slotList = [x] ∧ s.strobes x s.frameNow = true ∧ (s.slot x).cmds = [] ∧ (s.slot x).phase = 0 ∧ s.slotRuns x = true ∧ capture (s.srcView (s.get (CLE_S_ROUTE.MS_KIND x)) (s.get (CLE_S_ROUTE.MS_INDEX x)) (s.gridLtc + 5000 * s.frameNow) (s.slot x).msLost (s.slot x).msWritten false true x) (s.get (CLE_S_ROUTE.MS_KIND x)) (s.slot x).ms (s.slot x).msTok (s.slot x).msRun (s.get (CLE_S_AGE.MS_AGE x)) false = (m, mt, mr, false) ∧ capture (s.srcView (s.get (CLE_S_ROUTE.SP_KIND x)) (s.get (CLE_S_ROUTE.SP_INDEX x)) (s.gridLtc + 5000 * s.frameNow) (s.slot x).spLost (s.slot x).spWritten false false x) (s.get (CLE_S_ROUTE.SP_KIND x)) (s.slot x).sp (s.slot x).spTok (s.slot x).spRun (s.get (CLE_S_AGE.SP_AGE x)) false = (p, pt, pr, false) ∧ s.get (CLE_S_ROUTE.MS_KIND x) ≠ 6 ∧ s.get (CLE_S_ROUTE.SP_KIND x) ≠ 6) ∧
    (∃ (x : Nat) (s : State), x < 96 ∧ s.getB CLE_STATUS.GRID = true ∧ s.gridLtc ≤ s.now ∧ s.cle.lastFrame.all (fun k => decide (k < s.frameNow)) = true ∧ s.slotList = [x] ∧ s.strobes x s.frameNow = true ∧ (s.slot x).cmds = [] ∧ (s.slot x).phase = 0 ∧ s.slotRuns x = true ∧ s.get (CLE_S_ROUTE.MS_KIND x) = 4 ∧ (s.slot x).msLost = true ∧ s.get (CLE_S_ROUTE.SP_KIND x) = 0 ∧ s.getB (CLE_S_STAT.LATE x) = false ∧ s.reg SYS_DET_STATUS = 0#32) ∧
    (∃ (slot : Fin 96) (s : State), s.evalDue slot.val = true ∧ s.cleUndefined slot.val = false ∧ (s.evaluated slot.val).fric.isNone = true ∧ (s.evaluated slot.val).cog.isNone = true ∧ (s.evaluated slot.val).num = 0) ∧
    (∃ (slot : Fin 96) (s : State), s.evalDue slot.val = true ∧ s.cleUndefined slot.val = false ∧ (s.evaluated slot.val).num ≠ 0) ∧
    (∃ (slot : Fin 96) (s : State), s.evalDue slot.val = true ∧ s.cleUndefined slot.val = true) ∧
    (∃ (slot : Fin 96) (s : State), s.phaseDue slot.val = true ∧ (s.slot slot.val).cmds = [] ∧ s.get (CLE_S_ROUTE.DEST_KIND slot.val) = 0 ∧ (((s.slot slot.val).clamped = false ∨ (s.slot slot.val).satIrq = false)) ∧ (s.slot slot.val).heldOne = false) ∧
    (∃ (slot : Fin 96) (k : Fin 64) (s : State), s.phaseDue slot.val = true ∧ (s.slot slot.val).cmds = [] ∧ (s.slot slot.val).heldOne = false ∧ (((s.slot slot.val).clamped = false ∨ (s.slot slot.val).satIrq = false)) ∧ s.get (CLE_S_ROUTE.DEST_KIND slot.val) = 1 ∧ s.get (CLE_S_ROUTE.DEST_INDEX slot.val) = k.val ∧ s.busy 2 = false ∧ s.loaded 2 = true ∧ s.getB (VDR_OUT_CFG.SRC k.val) = true ∧ s.get (VDR_OUT_CFG.MODE k.val) = 1) ∧
    (∃ (slot : Fin 96) (c : SlotCmd) (x : Taken) (s : State), s.phaseDue slot.val = true ∧ (s.slot slot.val).cmds = [c] ∧ c.op = 3 ∧ (s.slot slot.val).begun = true ∧ c.ring < 2 ∧ (s.ring 0x05 c.ring).taken = [x] ∧ x.id = c.id ∧ (s.slot slot.val).heldOne = false ∧ (((s.slot slot.val).clamped = false ∨ (s.slot slot.val).satIrq = false)) ∧ ((s.get (CLE_S_ROUTE.DEST_KIND slot.val) = 1 ∨ s.get (CLE_S_ROUTE.DEST_KIND slot.val) = 2)) ∧ s.loaded 2 = false ∧ s.getB (CLE_S_STAT.DLOST slot.val) = false) :=
  ⟨⟨95, 1, 0, 0, 0, 0x3F800000, 0, { quiet.set (CLE_S_STAT.STATE 95) 2 |>.setB CLE_STATUS.GRID true |>.set (CLE_SCLK_CFG.N 0) 2 |>.set (CLE_S_ROUTE.MS_KIND 95) 5 |>.setReg (CLE_S_MS_HOST 95) 0x3F800000 with cle := { slots := [(95, { msWritten := true })], lastFrame := some 1 }, ltc := 10000 }, by decide⟩,
    ⟨95, { quiet.set (CLE_S_STAT.STATE 95) 2 |>.setB CLE_STATUS.GRID true |>.set (CLE_SCLK_CFG.N 0) 2 |>.set (CLE_S_ROUTE.MS_KIND 95) 4 |>.setB (EVT_SRC_CFG.EN 34) true |>.setB (EVT_SRC_CFG.EN 4) true with cle := { slots := [(95, { msLost := true, ms := 77, sp := 4 })], lastFrame := none }, ltc := 10000 }, by decide⟩,
    ⟨95, { quiet with ltc := 100000, cle := { slots := [(95, { ms := 0x3F800000, sp := 0x40000000, first := true, phase := 1, uPrev := 0x3F000000 })] } }, by decide⟩,
    ⟨95, { (quiet.setReg (CLE_S_STAT 95 + 0x7C) 0x7F000000).setReg (CLE_S_STAT 95 + 0x74) 0x7F000000 |>.setB (EVT_SRC_CFG.EN 35) true |>.set (CLE_S_CTRL.HOLD 95) 0 with ltc := 100000, cle := { slots := [(95, { sp := 0x7F000000, qPrev := 0xFF000000, phase := 1 })] } }, by decide⟩,
    ⟨3, { quiet.setReg (CLE_S_STAT 3 + 0x5C) 0x7F800000 with ltc := 100000, cle := { slots := [(3, { phase := 1 })] } }, by decide⟩,
    ⟨95, { quiet.setReg (CLE_S_SAMPLE 95) 0xFFFFFFFF |>.set (CLE_S_TIMING.PHASE_CYC 95) 49 with ltc := 100000, cle := { slots := [(95, { u := 0x3F800000, phase := 2, frame := 4 })] } }, by decide⟩,
    ⟨95, 63, { (quiet.setLoaded 2 true).set (CLE_S_ROUTE.DEST_KIND 95) 1 |>.set (CLE_S_ROUTE.DEST_INDEX 95) 63 |>.setB (VDR_OUT_CFG.SRC 63) true |>.set (VDR_OUT_CFG.MODE 63) 1 with ltc := 100000, cle := { slots := [(95, { u := 0x3F800000, phase := 2, frame := 4 })] } }, by decide⟩,
    ⟨95, { ring := 1, id := 4, op := 3, taken := 0, a := 0, b := 0 }, { id := 4, opcode := 3, handle := 0x0400005F, tag := 7, irq := true, done := none }, { (quiet.setLoaded 2 false).set (CLE_S_ROUTE.DEST_KIND 95) 2 |>.setB (EVT_SRC_CFG.EN 37) true |>.setB (EVT_SRC_CFG.EN 33) true with ltc := 100000, cle := { slots := [(95, { u := 0x3F800000, phase := 2, frame := 4, begun := true, cmds := [{ ring := 1, id := 4, op := 3, taken := 0, a := 0, b := 0 }] })] }, rings := [(0x05 * 32 + 1, { taken := [{ id := 4, opcode := 3, handle := 0x0400005F, tag := 7, irq := true, done := none }] })] }, by decide⟩⟩

/-- States and operands that meet the hypotheses of OutputsBanksAndBoostConverterFollowChapter10, clause by clause. -/
theorem wit_OutputsBanksAndBoostConverterFollowChapter10 :
    (∃ (samples : List (Fin 64 × BitVec 12)) (vbst : BitVec 16) (s : State), s.loaded 2 = true ∧ s.vdr.lastTick < s.tickNow ∧ s.tickNow ≤ s.vdr.winAt + 1000000000 ∧ s.vdr.stop = none ∧ (∀ b ∈ List.range 16, (s.bank b).pwmOff = none) ∧ s.vdr.outs = [] ∧ s.stk.reqs = [] ∧ (∀ k ∈ List.range 64, s.ctxState k = 0) ∧ (∀ k ∈ List.range 64, s.get (VDR_OUT_CFG.MODE k) = 0) ∧ (∀ b ∈ List.range 16, s.get (VDR_BANK_STAT.HS b) = 0)) ∧
    (∃ (k : Fin 64) (samples : List (Fin 64 × BitVec 12)) (vbst : BitVec 16) (s : State), s.vdr.lastTick < s.tickNow ∧ s.tickNow ≤ s.vdr.winAt + 1000000000 ∧ s.fastDue k.val s.tickNow = true ∧ s.vdr.stop = none ∧ ((∀ c, (s.sampleAll s.tickNow samples).sampleAt k.val (s.tickNow - 1000) = some c → Frac.lt (codeFrac c) (maFrac (s.get (VDR_OUT_CFG.REL_MA k.val))) = false)) ∧ ((∀ j ∈ List.range 64, j ≠ k.val → s.fastDue j s.tickNow = false)) ∧ s.getB ⟨VDR_OUT_FLT k.val, 8, 1⟩ = false) ∧
    (∃ (k : Fin 64) (s : State), (s.vlo k.val).active = true ∧ (s.vlo k.val).shed = false ∧ s.ctxState k.val = 0) ∧
    (∃ (k : Fin 64) (s : State), (s.vlo k.val).active = true ∧ (s.vlo k.val).shed = false ∧ s.ctxState k.val = 1) ∧
    (∃ (k : Fin 64) (s : State), s.vdrTicks = true ∧ (s.vlo k.val).active = false ∧ (s.vlo k.val).decay = none ∧ s.hsNow (k.val / 4) = 0) ∧
    (∃ (k : Fin 64) (s : State), (s.vlo k.val).active = true ∧ (s.vlo k.val).seen = false ∧ 480000 ≤ (s.vlo k.val).closedCyc) ∧
    (∃ (s : State), s.vdr.winN ≠ 0 ∧ s.vdr.winAt + 1000000000 ≤ s.vdr.lastTick) ∧
    (∃ (b : Fin 16) (s : State), s.hsNow b.val ≠ 0 ∧ (∀ k ∈ bankOuts b.val, s.ctxState k ≠ 1 ∧ s.ctxState k ≠ 2)) ∧
    (∃ (b : Fin 16) (k : Nat) (s : State), s.hsNow b.val ≠ 0 ∧ k ∈ bankOuts b.val ∧ s.ctxState k = 1) ∧
    (∃ (core : Fin 8) (reg : Fin 80) (value : Word) (s : State), s.closed (VDR_OUT_FLT reg.val) = false ∧ reg.val < 64) ∧
    (∃ (core : Fin 8) (reg : Fin 80) (value : Word) (s : State), s.closed (VDR_BANK_STAT (reg.val - 64)) = false ∧ 64 ≤ reg.val) ∧
    (∃ (core : Fin 8) (k : Fin 64) (value : Word) (s : State), s.closed (VDR_OUT_CFG k.val) = false ∧ s.enabled 0x06 = false ∧ bitsOf value.toNat 22 10 ≠ 0 ∧ bitsOf value.toNat 22 10 ≤ 1000 ∧ bitsOf value.toNat 0 3 ≤ 3) ∧
    (∃ (core : Fin 8) (k : Fin 64) (value : Word) (s : State), s.closed (VDR_OUT_CFG k.val) = false ∧ s.enabled 0x06 = true ∧ s.ctxRuns k.val = true ∧ bitsOf value.toNat 0 3 ≤ 3 ∧ bitsOf value.toNat 0 3 ≠ s.get (VDR_OUT_CFG.MODE k.val)) ∧
    (∃ (vbst : BitVec 16) (s : State), s.loaded 2 = true ∧ s.getB VDR_BST_CFG.EN = true ∧ s.enabled 0x06 = true ∧ s.getB SYS_SUPPLY.VLV_OK = true ∧ s.sys.entry.isNone = true ∧ s.getB VDR_STATUS.BST_OVP = false ∧ s.getB VDR_STATUS.BST_ON = false ∧ vbst.toNat * 10 < s.get VDR_BST_CFG.TARGET * 99) ∧
    (∃ (vbst : BitVec 16) (s : State), s.getB VDR_STATUS.BST_ON = true ∧ s.get VDR_BST_CFG.TARGET * 10 ≤ vbst.toNat) ∧
    (∃ (vbst : BitVec 16) (s : State), s.loaded 2 = true ∧ ((s.get VDR_BST_CFG.TARGET * 11 < vbst.toNat ∨ 6800 < vbst.toNat)) ∧ s.getB VDR_STATUS.BST_OVP = false) ∧
    (∃ (s : State), s.getB VDR_CTRL.ENABLE = true) ∧
    (∃ (t0 : Nat) (s : State), s.vdr.recovery = some t0 ∧ s.getB SYS_SUPPLY.VLV_OK = true ∧ 10000000 ≤ s.since t0) ∧
    (∃ (s : State), s.vdr.discharge = .constant) :=
  ⟨⟨[(3, 400), (63, 4095)], 6500, { (quiet.setLoaded 2 true).setB (EVT_SRC_CFG.EN 66) true |>.set VDR_BST_CFG.TARGET 650 with ltc := 5008 }, by decide⟩,
    ⟨63, [(63, 400)], 6500, { quiet.set (VDR_BANK_CFG.DEC_LIM 15) 1 |>.setB (EVT_SRC_CFG.EN 71) true with ltc := 20000, vdr := { outs := [(63, { active := true, decay := some 9000, samples := [(19000, 400)] })] } }, by decide⟩,
    ⟨5, { quiet.setB (EVT_SRC_CFG.EN 64) true with ltc := 20000, vdr := { outs := [(5, { active := true, run := 1, closedAt := 15000 })] } }, by decide⟩,
    ⟨5, { quiet.setB (EVT_SRC_CFG.EN 77) true |>.set (VDR_CTX_STAT.STATE 5) 1 with ltc := 20008, stk := { ctx := [(5, { wait := .wait 90000 })] }, vdr := { outs := [(5, { active := true, run := 3, closedAt := 15000 })] } }, by decide⟩,
    ⟨5, (quiet.setLoaded 2 true).setB (EVT_SRC_CFG.EN 64) true, by decide⟩,
    ⟨5, { quiet.setB (EVT_SRC_CFG.EN 64) true with vdr := { outs := [(5, { active := true, closedCyc := 480000 })] } }, by decide⟩,
    ⟨{ (quiet.set (VDR_BANK_STAT.HS 7) 2).set (VDR_BANK_STAT.HS 6) 2 with ltc := 1000002000, vdr := { lastTick := 1000001000, winN := 4, modSq := 2304000001, outs := [(63, { active := true, sq := 10240001 })], banks := [(6, { sq := 64000000 }), (7, { sq := 64000001 })] } }, by decide⟩,
    ⟨15, (quiet.set (VDR_BANK_STAT.HS 15) 2).setB (EVT_SRC_CFG.EN 65) true, by decide⟩,
    ⟨15, 62, { (quiet.set (VDR_BANK_STAT.HS 15) 2).setB (EVT_SRC_CFG.EN 77) true |>.set (VDR_CTX_STAT.STATE 62) 1 with vdr := { outs := [(62, { active := true, run := 3, call := true })] } }, by decide⟩,
    ⟨0, 63, 0x17, quiet.set (VDR_OUT_FLT.FLT 63) 0x3FF, by decide⟩,
    ⟨0, 79, 0x20000000, quiet.setReg (VDR_BANK_STAT 15) 0xB0000007, by decide⟩,
    ⟨0, 63, 0xFA010103, quiet, by decide⟩,
    ⟨0, 63, 0x00400000, quiet.setB (enableFld 0x06) true |>.set (VDR_OUT_CFG.MODE 63) 3 |>.set (VDR_CTX_STAT.STATE 63) 1, by decide⟩,
    ⟨5940, (quiet.setLoaded 2 true).setB VDR_BST_CFG.EN true |>.set VDR_BST_CFG.TARGET 601 |>.setB (enableFld 0x06) true |>.setB SYS_SUPPLY.VLV_OK true, by decide⟩,
    ⟨6000, quiet.setB VDR_STATUS.BST_ON true |>.set VDR_BST_CFG.TARGET 600, by decide⟩,
    ⟨6801, (quiet.setLoaded 2 true).setB VDR_STATUS.BST_ON true |>.set VDR_BST_CFG.TARGET 650 |>.setB (EVT_SRC_CFG.EN 67) true, by decide⟩,
    ⟨{ quiet.setB VDR_CTRL.ENABLE true |>.setB VDR_STATUS.BST_ON true |>.set (VDR_CTX_STAT.STATE 63) 1 |>.set (VDR_CTX_STAT.STATE 0) 1 with ltc := 8000, vdr := { outs := [(3, { active := true, run := 1, call := true }), (63, { active := true, run := 3, call := true })] }, stk := { reqs := [(0, { out := 1, prog := 0, due := 9000, lateDrop := false, preempt := false, at0 := 0, ring := 0, seq := 0, deferred := true })] } }, by decide⟩,
    ⟨8, { quiet.setB SYS_SUPPLY.VLV_OK true with ltc := 10000008, vdr := { recovery := some 8 } }, by decide⟩,
    ⟨{ quiet with vdr := { discharge := .constant } }, by decide⟩⟩

/-- States and operands that meet the hypotheses of StrokesWaitStartQueueAndTriggerAsChapter11Says, clause by clause. -/
theorem wit_StrokesWaitStartQueueAndTriggerAsChapter11Says :
    (∃ (k : Fin 64) (samples : List (Fin 64 × BitVec 12)) (vbst : BitVec 16) (u : Nat) (a : Nat) (s : State), s.vdrTicks = true ∧ s.vdr.lastTick < s.tickNow ∧ s.tickNow ≤ s.vdr.winAt + 1000000000 ∧ (∀ e ∈ s.stk.reqs, e.2.out ≠ k.val) ∧ s.ctxRuns k.val = true ∧ (s.ctx k.val).wait = .wait u ∧ u ≤ s.tickNow ∧ (s.ctx k.val).follow = none ∧ (s.ctx k.val).undef = false ∧ (s.ctx k.val).dirty = [] ∧ s.get (VDR_CTX_STAT.PC k.val) < 16383 ∧ a ≠ 0 ∧ a < 2 ^ 27 ∧ (s.reg (VDR_STK_PROG (s.get (VDR_CTX_STAT.PC k.val) + 1))).toNat = 4 * 2 ^ 27 + a) ∧
    (∃ (k : Fin 64) (samples : List (Fin 64 × BitVec 12)) (vbst : BitVec 16) (t0 : Nat) (fr : Nat) (ma : Nat) (d : Nat) (a : Nat) (s : State), s.vdrTicks = true ∧ s.vdr.lastTick < s.tickNow ∧ s.tickNow ≤ s.vdr.winAt + 1000000000 ∧ (∀ e ∈ s.stk.reqs, e.2.out ≠ k.val) ∧ s.ctxRuns k.val = true ∧ (s.ctx k.val).wait = .ramp t0 fr ma d ∧ t0 + d * 10000 ≤ s.tickNow ∧ ma ≤ 8000 ∧ (s.ctx k.val).follow = none ∧ (s.ctx k.val).undef = false ∧ (s.ctx k.val).dirty = [] ∧ s.get (VDR_CTX_STAT.PC k.val) < 16383 ∧ a ≠ 0 ∧ a < 2 ^ 27 ∧ (s.reg (VDR_STK_PROG (s.get (VDR_CTX_STAT.PC k.val) + 1))).toNat = 4 * 2 ^ 27 + a) ∧
    (∃ (k : Fin 64) (samples : List (Fin 64 × BitVec 12)) (vbst : BitVec 16) (t0 : Nat) (lim : Nat) (a : Nat) (falling : Bool) (s : State), s.vdrTicks = true ∧ s.vdr.lastTick < s.tickNow ∧ s.tickNow ≤ s.vdr.winAt + 1000000000 ∧ (∀ e ∈ s.stk.reqs, e.2.out ≠ k.val) ∧ s.ctxRuns k.val = true ∧ (s.ctx k.val).wait = .wcur t0 lim falling true ∧ limitDue t0 lim s.tickNow = true ∧ (s.sampleAll s.tickNow samples).wcurReached k.val falling s.tickNow = false ∧ (s.ctx k.val).follow = none ∧ (s.ctx k.val).undef = false ∧ (s.ctx k.val).dirty = [] ∧ s.get (VDR_CTX_STAT.PC k.val) < 16383 ∧ a ≠ 0 ∧ a < 2 ^ 27 ∧ (s.reg (VDR_STK_PROG (s.get (VDR_CTX_STAT.PC k.val) + 1))).toNat = 4 * 2 ^ 27 + a) ∧
    (∃ (k : Fin 64) (samples : List (Fin 64 × BitVec 12)) (vbst : BitVec 16) (t0 : Nat) (lim : Nat) (falling : Bool) (s : State), s.vdrTicks = true ∧ s.vdr.lastTick < s.tickNow ∧ s.tickNow ≤ s.vdr.winAt + 1000000000 ∧ s.stk.reqs = [] ∧ ((∀ j ∈ List.range 64, j ≠ k.val → s.ctxRuns j = false)) ∧ s.ctxRuns k.val = true ∧ (s.ctx k.val).wait = .wcur t0 lim falling false ∧ limitDue t0 lim s.tickNow = true ∧ (s.sampleAll s.tickNow samples).wcurReached k.val falling s.tickNow = false ∧ (s.ctx k.val).follow = none ∧ (s.vlo k.val).active = true ∧ (s.vlo k.val).decay = none) ∧
    (∃ (k : Fin 64) (samples : List (Fin 64 × BitVec 12)) (vbst : BitVec 16) (t0 : Nat) (n : Nat) (lim : Nat) (a : Nat) (s : State), s.vdrTicks = true ∧ s.vdr.lastTick < s.tickNow ∧ s.tickNow ≤ s.vdr.winAt + 1000000000 ∧ (∀ e ∈ s.stk.reqs, e.2.out ≠ k.val) ∧ s.ctxRuns k.val = true ∧ (s.ctx k.val).wait = .wtrg t0 n lim true none ∧ limitDue t0 lim s.tickNow = true ∧ (s.ctx k.val).follow = none ∧ (s.ctx k.val).undef = false ∧ (s.ctx k.val).dirty = [] ∧ s.get (VDR_CTX_STAT.PC k.val) < 16383 ∧ a ≠ 0 ∧ a < 2 ^ 27 ∧ (s.reg (VDR_STK_PROG (s.get (VDR_CTX_STAT.PC k.val) + 1))).toNat = 4 * 2 ^ 27 + a) ∧
    (∃ (k : Fin 64) (samples : List (Fin 64 × BitVec 12)) (vbst : BitVec 16) (t0 : Nat) (lim : Nat) (s : State), s.vdrTicks = true ∧ s.vdr.lastTick < s.tickNow ∧ s.tickNow ≤ s.vdr.winAt + 1000000000 ∧ s.stk.reqs = [] ∧ ((∀ j ∈ List.range 64, j ≠ k.val → s.ctxRuns j = false)) ∧ s.ctxRuns k.val = true ∧ (s.ctx k.val).wait = .chk t0 lim ∧ ((20 * vbst.toNat < 19 * (s.get VDR_BST_CFG.TARGET * 10) ∨ 21 * (s.get VDR_BST_CFG.TARGET * 10) < 20 * vbst.toNat)) ∧ t0 + lim * 1000 ≤ s.tickNow ∧ (s.ctx k.val).follow = none ∧ (s.vlo k.val).active = true ∧ (s.vlo k.val).decay = none) ∧
    (∃ (n : Fin 32) (stamp : Nat) (s : State), 8 ≤ n.val ∧ s.loaded 2 = true ∧ (tgetD s.stk.trig n.val []).length < 8 ∧ ((tgetD s.stk.trig n.val []).getLast?).all (fun x => decide (x + 2000 ≤ stamp)) = true ∧ s.stk.ctx = []) ∧
    (∃ (n : Fin 32) (last : Nat) (stamp : Nat) (s : State), 8 ≤ n.val ∧ s.loaded 2 = true ∧ (tgetD s.stk.trig n.val []).getLast? = some last ∧ stamp < last + 2000) ∧
    (∃ (core : Fin 8) (n : Nat) (value : Word) (k : Fin 64) (t0 : Nat) (lim : Nat) (s : State), s.closed VDR_STK_TRIG = false ∧ n < 8 ∧ value.toNat = 2 ^ n ∧ tgetD s.stk.trig n [] = [] ∧ s.stk.ctx = [(k.val, { wait := .wtrg t0 n lim true none })] ∧ t0 ≤ s.now) ∧
    (∃ (ring : Fin 2) (e : Entry) (x : Nat) (s : State), s.ready 0x06 ring.val 0xFF00 e ∧ tfree s.stk.reqs 256 = some x ∧ (s.cmdOf 0x06 ring.val e).arg 16 1 < 64 ∧ (s.cmdOf 0x06 ring.val e).arg 18 2 < 16384 ∧ bitsOf e.flags.toNat 10 6 = 0 ∧ (s.cmdOf 0x06 ring.val e).arg 24 8 = 0 ∧ s.get (VDR_OUT_CFG.MODE ((s.cmdOf 0x06 ring.val e).arg 16 1)) = 3) ∧
    (∃ (ring : Fin 2) (e : Entry) (s : State), s.ready 0x06 ring.val 0 e ∧ s.checkHandle 2 (fun x => (tget s.stk.reqs x).isSome) e.handle.toNat = none) ∧
    (∃ (x : Fin 256) (samples : List (Fin 64 × BitVec 12)) (vbst : BitVec 16) (r : StartReq) (a : Nat) (s : State), s.vdrTicks = true ∧ s.vdr.lastTick < s.tickNow ∧ s.tickNow ≤ s.vdr.winAt + 1000000000 ∧ tget s.stk.reqs x.val = some r ∧ ((∀ e ∈ s.stk.reqs, e.1 ≠ x.val → e.2.out ≠ r.out)) ∧ r.out < 64 ∧ r.prog < 16384 ∧ r.due ≤ s.tickNow ∧ r.lateDrop = false ∧ s.sys.entry.isNone = true ∧ s.vlvReady = true ∧ s.get (VDR_OUT_CFG.MODE r.out) = 3 ∧ s.outStopped r.out = false ∧ s.bankStopped (r.out / 4) = false ∧ s.ctxState r.out = 0 ∧ s.bankDecaying (r.out / 4) = false ∧ a ≠ 0 ∧ a < 2 ^ 27 ∧ (s.reg (VDR_STK_PROG r.prog)).toNat = 4 * 2 ^ 27 + a) ∧
    (∃ (x : Fin 256) (samples : List (Fin 64 × BitVec 12)) (vbst : BitVec 16) (r : StartReq) (s : State), s.vdrTicks = true ∧ s.vdr.lastTick < s.tickNow ∧ s.tickNow ≤ s.vdr.winAt + 1000000000 ∧ s.stk.reqs = [(x.val, r)] ∧ r.out < 64 ∧ r.due ≤ s.tickNow ∧ r.lateDrop = false ∧ s.sys.entry.isNone = true ∧ s.vlvReady = false) ∧
    (∃ (x : Fin 256) (samples : List (Fin 64 × BitVec 12)) (vbst : BitVec 16) (r : StartReq) (j : Nat) (t0 : Nat) (f0 : Nat) (s : State), s.vdrTicks = true ∧ s.vdr.lastTick < s.tickNow ∧ s.tickNow ≤ s.vdr.winAt + 1000000000 ∧ s.stk.reqs = [(x.val, r)] ∧ r.out < 64 ∧ r.due ≤ s.tickNow ∧ r.lateDrop = false ∧ r.deferred = false ∧ s.sys.entry.isNone = true ∧ s.vlvReady = true ∧ s.get (VDR_OUT_CFG.MODE r.out) = 3 ∧ s.outStopped r.out = false ∧ s.bankStopped (r.out / 4) = false ∧ s.ctxState r.out = 0 ∧ s.tickNow < r.due + s.get (VDR_STK_BANK.DEF_LIM (r.out / 4)) * 10000 ∧ j ∈ bankOuts (r.out / 4) ∧ (s.vlo j).decay = some t0 ∧ (s.vlo j).fast = some f0 ∧ s.tickNow < f0 + 100000) ∧
    (∃ (x : Fin 256) (samples : List (Fin 64 × BitVec 12)) (vbst : BitVec 16) (r : StartReq) (j : Nat) (t0 : Nat) (f0 : Nat) (s : State), s.vdrTicks = true ∧ s.vdr.lastTick < s.tickNow ∧ s.tickNow ≤ s.vdr.winAt + 1000000000 ∧ s.stk.reqs = [(x.val, r)] ∧ r.out < 64 ∧ r.deferred = true ∧ r.lateDrop = false ∧ r.due + s.get (VDR_STK_BANK.DEF_LIM (r.out / 4)) * 10000 ≤ s.tickNow ∧ s.sys.entry.isNone = true ∧ s.vlvReady = true ∧ s.get (VDR_OUT_CFG.MODE r.out) = 3 ∧ s.outStopped r.out = false ∧ s.bankStopped (r.out / 4) = false ∧ s.ctxState r.out = 0 ∧ s.get (VDR_STK_BANK.DEF_LIM (r.out / 4)) ≠ 0 ∧ j ∈ bankOuts (r.out / 4) ∧ (s.vlo j).decay = some t0 ∧ (s.vlo j).fast = some f0 ∧ s.tickNow < f0 + 100000 ∧ s.getB (VDR_STK_BANK.DEF_ACT (r.out / 4)) = true) ∧
    (∃ (k : Fin 64) (samples : List (Fin 64 × BitVec 12)) (vbst : BitVec 16) (s : State), s.ctxRuns k.val = false) ∧
    (∃ (x : Fin 256) (samples : List (Fin 64 × BitVec 12)) (vbst : BitVec 16) (s : State), (∀ e ∈ s.stk.reqs, s.tickNow < e.2.due)) :=
  ⟨⟨63, [(63, 4)], 100, 9000, 5, { (quiet.setLoaded 2 true).set (VDR_CTX_STAT.STATE 63) 1 |>.set VDR_BST_CFG.TARGET 650 |>.set (VDR_CTX_STAT.PC 63) 7 |>.setReg (VDR_STK_PROG 8) 0x20000005 with ltc := 9008, stk := { ctx := [(63, { wait := .wait 9000 })] } }, by decide⟩,
    ⟨63, [(63, 4)], 100, 1000, 500, 8000, 3, 5, { (quiet.setLoaded 2 true).set (VDR_CTX_STAT.STATE 63) 1 |>.set VDR_BST_CFG.TARGET 650 |>.set (VDR_CTX_STAT.PC 63) 7 |>.setReg (VDR_STK_PROG 8) 0x20000005 with ltc := 31008, stk := { ctx := [(63, { wait := .ramp 1000 500 8000 3 })] } }, by decide⟩,
    ⟨63, [(63, 4)], 100, 1000, 30, 5, false, { (quiet.setLoaded 2 true).set (VDR_CTX_STAT.STATE 63) 1 |>.set VDR_BST_CFG.TARGET 650 |>.set (VDR_CTX_STAT.PC 63) 7 |>.setReg (VDR_STK_PROG 8) 0x20000005 with ltc := 31008, stk := { ctx := [(63, { wait := .wcur 1000 30 false true })] } }, by decide⟩,
    ⟨63, [(63, 4)], 100, 1000, 30, true, { (quiet.setLoaded 2 true).set (VDR_CTX_STAT.STATE 63) 1 |>.set VDR_BST_CFG.TARGET 650 |>.setB (EVT_SRC_CFG.EN 77) true with ltc := 31008, stk := { ctx := [(63, { wait := .wcur 1000 30 true false })] }, vdr := { outs := [(63, { active := true, run := 3, call := true })] } }, by decide⟩,
    ⟨63, [(63, 4)], 100, 1000, 31, 30, 5, { (quiet.setLoaded 2 true).set (VDR_CTX_STAT.STATE 63) 1 |>.set VDR_BST_CFG.TARGET 650 |>.set (VDR_CTX_STAT.PC 63) 7 |>.setReg (VDR_STK_PROG 8) 0x20000005 with ltc := 31008, stk := { ctx := [(63, { wait := .wtrg 1000 31 30 true none })] } }, by decide⟩,
    ⟨63, [(63, 4)], 100, 1000, 30, { (quiet.setLoaded 2 true).set (VDR_CTX_STAT.STATE 63) 1 |>.set VDR_BST_CFG.TARGET 650 |>.setB (EVT_SRC_CFG.EN 77) true |>.setB (EVT_SRC_CFG.EN 78) true with ltc := 31008, stk := { ctx := [(63, { wait := .chk 1000 30 })] }, vdr := { outs := [(63, { active := true, run := 3, call := true })] } }, by decide⟩,
    ⟨8, 3000, { quiet.setLoaded 2 true with stk := { trig := [(8, [1000])] } }, by decide⟩,
    ⟨31, 1000, 2999, { (quiet.setLoaded 2 true).setB (EVT_SRC_CFG.EN 82) true with stk := { trig := [(31, [1000])] } }, by decide⟩,
    ⟨0, 7, 128, 63, 500, 0, { quiet with ltc := 5096, stk := { ctx := [(63, { wait := .wtrg 500 7 0 true none })] } }, by decide⟩,
    ⟨1, { flags := 0x201, handle := 0, tag := 9, args := 0x3FFF003F }, 1, { ringOn 0x06 1 |>.set (VDR_OUT_CFG.MODE 63) 3 with ltc := 80008, stk := { reqs := [(0, { out := 1, prog := 0, due := 9000, lateDrop := false, preempt := false, at0 := 0, ring := 0, seq := 0, deferred := true })], nextSeq := 1 } }, by unfold State.ready State.ringFree; decide⟩,
    ⟨1, { flags := 1, handle := 0x08000000, tag := 9, args := 0 }, { ringOn 0x06 1 |>.set VDR_STK_STATUS.QUEUED 1 with ltc := 80008, stk := { reqs := [(0, { out := 1, prog := 0, due := 9000, lateDrop := false, preempt := false, at0 := 0, ring := 0, seq := 0, deferred := true })], nextSeq := 1 } }, by unfold State.ready State.ringFree; decide⟩,
    ⟨255, [], 100, { out := 63, prog := 16383, due := 9000, lateDrop := false, preempt := false, at0 := 0, ring := 0, seq := 0, deferred := false }, 5, { (quiet.setLoaded 2 true).set (VDR_OUT_CFG.MODE 63) 3 |>.setB SYS_SUPPLY.VLV_OK true |>.set VDR_STK_TBAND.BAND3 5 |>.set (VDR_CTX_CFG.BSEL 63) 3 |>.setReg (VDR_STK_PROG 16383) 0x20000005 with ltc := 9000, stk := { reqs := [(255, { out := 63, prog := 16383, due := 9000, lateDrop := false, preempt := false, at0 := 0, ring := 0, seq := 0, deferred := false })] } }, by decide⟩,
    ⟨255, [], 100, { out := 63, prog := 16383, due := 9000, lateDrop := false, preempt := false, at0 := 0, ring := 0, seq := 0, deferred := false }, { (quiet.setLoaded 2 true).setB SYS_SUPPLY.VLV_OK false |>.setB (EVT_SRC_CFG.EN 81) true with ltc := 9000, stk := { reqs := [(255, { out := 63, prog := 16383, due := 9000, lateDrop := false, preempt := false, at0 := 0, ring := 0, seq := 0, deferred := false })] } }, by decide⟩,
    ⟨255, [], 100, { out := 63, prog := 16383, due := 9000, lateDrop := false, preempt := false, at0 := 0, ring := 0, seq := 0, deferred := false }, 60, 5000, 8000, { (quiet.setLoaded 2 true).set (VDR_OUT_CFG.MODE 63) 3 |>.setB SYS_SUPPLY.VLV_OK true |>.set (VDR_STK_BANK.DEF_LIM 15) 2 |>.setB (EVT_SRC_CFG.EN 80) true with ltc := 9000, vdr := { outs := [(60, { decay := some 5000, fast := some 8000 })] }, stk := { reqs := [(255, { out := 63, prog := 16383, due := 9000, lateDrop := false, preempt := false, at0 := 0, ring := 0, seq := 0, deferred := false })] } }, by decide⟩,
    ⟨255, [], 100, { out := 63, prog := 16383, due := 9000, lateDrop := false, preempt := false, at0 := 0, ring := 0, seq := 0, deferred := true }, 60, 5000, 8000, { (quiet.setLoaded 2 true).set (VDR_OUT_CFG.MODE 63) 3 |>.setB SYS_SUPPLY.VLV_OK true |>.set (VDR_STK_BANK.DEF_LIM 15) 2 |>.setB (VDR_STK_BANK.DEF_ACT 15) true |>.setB (EVT_SRC_CFG.EN 81) true with ltc := 29000, vdr := { outs := [(60, { decay := some 5000, fast := some 8000 })] }, stk := { reqs := [(255, { out := 63, prog := 16383, due := 9000, lateDrop := false, preempt := false, at0 := 0, ring := 0, seq := 0, deferred := true })] } }, by decide⟩,
    ⟨63, [], 100, quiet, by decide⟩,
    ⟨255, [], 100, quiet, by decide⟩⟩

/-- States and operands that meet the hypotheses of SafetyFaultsTripBlockDegradeAndLatch, clause by clause. -/
theorem wit_SafetyFaultsTripBlockDegradeAndLatch :
    (∃ (s : State), s.safReady = true ∧ s.faultListed .lockstep = false) ∧
    (∃ (s : State), s.safReady = false ∧ s.sys.safe = true ∧ s.faultListed .lockstep = false) ∧
    (∃ (tj : BitVec 12) (tbp : BitVec 12) (s : State), 1040 ≤ tj.toInt ∧ ((s.safReady = true ∨ s.sys.mode = .run)) ∧ s.faultListed .therm = false) ∧
    (∃ (s : State), s.safReady = true ∧ s.faultListed .safeUe = false) ∧
    (∃ (t0 : Nat) (s : State), s.saf.latchAt = some t0 ∧ s.safElapsed t0 10000000 = true) ∧
    (∃ (s : State), s.safReady = true ∧ s.faultPresent .selftest = false) ∧
    (∃ (t0 : Nat) (s : State), s.saf.degFrom = some t0 ∧ s.safElapsed t0 (s.imgFld SAF_DEG_CFG.T_DEG * 1000000000) = true ∧ s.safReady = true) ∧
    (∃ (c : Fin 4) (s : State), s.safReady = true ∧ s.chState c.val = safON ∧ s.faultListed (.oc c.val) = false) ∧
    (∃ (c : Fin 4) (upper : Bool) (s : State), s.safReady = true ∧ s.saf.test = none ∧ s.chState c.val ≠ safON ∧ tget s.saf.testAt (2 * c.val + b2n upper) = none) ∧
    (∃ (c : Fin 4) (upper : Bool) (s : State), s.safReady = true ∧ s.saf.test = none ∧ s.chState c.val = safON ∧ tget s.saf.testAt (2 * c.val + b2n upper) = none ∧ (tget s.saf.testAt (2 * c.val + b2n (!upper))).all (fun t => s.safElapsed t 1000000000) = true ∧ ((∀ d ∈ List.range 4, d ≠ c.val → s.chState d = safON → (tget s.saf.onTest d).all (fun t => s.safElapsed t 250000000) = true))) ∧
    (∃ (c : Fin 4) (upper : Bool) (s : State), s.saf.test = some (c.val, upper) ∧ s.testOver c.val true (tgetD s.saf.testAt (2 * c.val + b2n upper) 0) = true) ∧
    (∃ (c : Fin 4) (upper : Bool) (s : State), s.safReady = true ∧ s.saf.test = some (c.val, upper) ∧ s.testOver c.val false (tgetD s.saf.testAt (2 * c.val + b2n upper) 0) = true ∧ s.faultListed (if upper then .stuck2 c.val else .stuck1 c.val) = false) ∧
    (∃ (c : Fin 4) (upper : Bool) (s : State), s.saf.test = some (c.val, upper) ∧ s.testOver c.val false (tgetD s.saf.testAt (2 * c.val + b2n upper) 0) = true ∧ s.faultListed (if upper then .stuck2 c.val else .stuck1 c.val) = true) ∧
    (∃ (c : Fin 4) (t0 : Nat) (s : State), s.safReady = true ∧ s.safFbUse c.val = true ∧ tget s.saf.onAt c.val = some t0 ∧ s.chState c.val = safON ∧ bitAt s.saf.pulled c.val = false ∧ s.safElapsed t0 (s.safTfb c.val) = true ∧ s.faultPresent (.pullin c.val) = false) ∧
    (∃ (c : Fin 4) (t0 : Nat) (s : State), s.safReady = true ∧ s.safFbUse c.val = true ∧ tget s.saf.closedAt c.val = some t0 ∧ s.chState c.val = safON ∧ s.safElapsed t0 5000000 = true ∧ s.faultPresent (.drop c.val) = false) ∧
    (∃ (c : Fin 4) (t0 : Nat) (s : State), s.safReady = true ∧ s.safFbUse c.val = true ∧ tget s.saf.openAt c.val = some t0 ∧ s.safElapsed t0 (s.safTfb c.val) = true ∧ s.safFbClosed c.val = false ∧ s.faultListed (.weld c.val) = false) ∧
    (∃ (pair : Fin 8) (t0 : Nat) (s : State), s.safReady = true ∧ tget s.saf.transSince pair.val = some t0 ∧ s.safMask pair.val ≠ 0 ∧ s.safElapsed t0 (s.imgFld (SAF_PCFG.T_DISC pair.val) * 1000000) = true ∧ s.faultListed (.disc pair.val) = false) ∧
    (∃ (mv : Nat) (s : State), s.safReady = true ∧ s.faultPresent .supply = false) :=
  ⟨⟨{ quiet.setB SAF_STATUS.READY true |>.set (SAF_CH.STATE 0) 1 |>.set (SAF_CH.STATE 3) 0 |>.setB (EVT_SRC_CFG.EN 113) true |>.setB (EVT_SRC_CFG.EN 125) true with ltc := 800 }, by decide⟩,
    ⟨{ quiet.setB (EVT_SRC_CFG.EN 125) true with ltc := 800, sys := { safe := true } }, by decide⟩,
    ⟨1040, 0, { quiet.setB SAF_STATUS.READY true |>.set (SAF_CH.STATE 0) 1 |>.setB (EVT_SRC_CFG.EN 113) true |>.setB (EVT_SRC_CFG.EN 125) true with ltc := 800 }, by decide⟩,
    ⟨{ quiet.setB SAF_STATUS.READY true |>.set (SAF_CH.STATE 0) 1 |>.set (SAF_CH.STATE 3) 0 |>.setB (EVT_SRC_CFG.EN 113) true |>.setB (EVT_SRC_CFG.EN 125) true with ltc := 800 }, by decide⟩,
    ⟨80, { quiet with ltc := 10000000, saf := { latchAt := some 80 } }, by decide⟩,
    ⟨{ quiet.setB SAF_STATUS.READY true |>.set (SAF_CH.STATE 0) 1 |>.set (SAF_CH.STATE 3) 1 |>.setB (EVT_SRC_CFG.EN 124) true |>.setB (EVT_SRC_CFG.EN 118) true with ltc := 800, img := [(SAF_CCFG 0, 0x20000000)] }, by decide⟩,
    ⟨80, { quiet.setB SAF_STATUS.READY true |>.set (SAF_CH.STATE 0) 1 |>.setB (EVT_SRC_CFG.EN 113) true |>.setB (EVT_SRC_CFG.EN 120) true with ltc := 1000000080, img := [(SAF_DEG_CFG, 1)], saf := { faults := [(.selftest, true)], degFrom := some 80 } }, by decide⟩,
    ⟨3, quiet.setB SAF_STATUS.READY true |>.set (SAF_CH.STATE 3) 1 |>.setB (EVT_SRC_CFG.EN 116) true |>.setB (EVT_SRC_CFG.EN 113) true, by decide⟩,
    ⟨3, true, quiet.setB SAF_STATUS.READY true, by decide⟩,
    ⟨3, true, { quiet.setB SAF_STATUS.READY true |>.set (SAF_CH.STATE 3) 1 |>.set (SAF_CH.STATE 0) 1 with ltc := 1000000008, saf := { testAt := [(6, 8)], onTest := [(0, 8)] } }, by decide⟩,
    ⟨3, true, { quiet.set (SAF_CH.STATE 3) 1 with ltc := 50008, saf := { test := some (3, true), testAt := [(7, 8)] } }, by decide⟩,
    ⟨3, true, { quiet.setB SAF_STATUS.READY true |>.set (SAF_CH.STATE 3) 1 |>.setB (EVT_SRC_CFG.EN 116) true with ltc := 250008, saf := { test := some (3, true), testAt := [(7, 8)] } }, by decide⟩,
    ⟨3, true, { quiet.setB SAF_STATUS.READY true |>.set (SAF_CH.STATE 3) 2 with ltc := 250008, saf := { test := some (3, true), testAt := [(7, 8)], faults := [(.stuck2 3, true)] } }, by decide⟩,
    ⟨3, 80, { quiet.setB SAF_STATUS.READY true |>.set (SAF_CH.STATE 3) 1 |>.setB (EVT_SRC_CFG.EN 117) true with ltc := 5000080, img := [(SAF_CCFG 3, 0x80000005)], saf := { onAt := [(3, 80)] } }, by decide⟩,
    ⟨3, 80, { quiet.setB SAF_STATUS.READY true |>.set (SAF_CH.STATE 3) 1 |>.setB (EVT_SRC_CFG.EN 117) true with ltc := 5000080, img := [(SAF_CCFG 3, 0xA0000005)], saf := { closedAt := [(3, 80)] } }, by decide⟩,
    ⟨3, 80, { quiet.setB SAF_STATUS.READY true |>.setB (EVT_SRC_CFG.EN 117) true |>.set (SAF_CH.STATE 3) 2 with ltc := 5000080, img := [(SAF_CCFG 3, 0x80000005)], saf := { openAt := [(3, 80)] } }, by decide⟩,
    ⟨7, 80, { quiet.setB SAF_STATUS.READY true |>.set (SAF_CH.STATE 3) 1 |>.setB (EVT_SRC_CFG.EN 114) true with ltc := 5000080, img := [(SAF_MAP, 0x80000000), (SAF_PCFG 7, 5)], saf := { transSince := [(7, 80)] } }, by decide⟩,
    ⟨8900, quiet.setB SAF_STATUS.READY true, by decide⟩⟩

/-- States and operands that meet the hypotheses of PairsMirrorsAndPartnerTripAndRearmChannels, clause by clause. -/
theorem wit_PairsMirrorsAndPartnerTripAndRearmChannels :
    (∃ (pair : Fin 8) (stamp : Nat) (s : State), s.safReady = true ∧ s.masked false = false ∧ s.pairRun pair.val = true ∧ bitAt (s.get (TMS_CAP_CFG.EDGE 5)) 0 = false) ∧
    (∃ (pair : Fin 8) (memberB : Bool) (reading : Fin 3) (stamp : Nat) (s : State), ((s.safReady = false ∨ s.masked memberB = true))) ∧
    (∃ (stp : Fin 2) (s : State), s.safReady = true ∧ s.pulseDue stp.val = true) ∧
    (∃ (stp : Fin 2) (failed : BitVec 8) (t0 : Nat) (p : Nat) (s : State), s.safReady = true ∧ tget s.saf.maskAt stp.val = some t0 ∧ s.safElapsed t0 250000 = true ∧ p < 8 ∧ bitAt (tgetD s.saf.tested stp.val 0) p = true ∧ bitAt failed.toNat p = true ∧ s.faultListed (.xs p) = false ∧ bitAt (s.get (TMS_CAP_CFG.EDGE 5)) 0 = false) ∧
    (∃ (who : Fin 9) (t0 : Nat) (s : State), s.safReady = true ∧ (if who.val = 8 then s.saf.partnerRun else tget s.saf.runSince who.val) = some t0 ∧ s.safElapsed t0 (s.imgFld (if who.val = 8 then SAF_DEG_CFG.P_REARM else SAF_PCFG.T_REARM who.val) * 10000000) = true) ∧
    (∃ (c : Fin 4) (closed : Bool) (s : State), s.safReady = true ∧ s.safFbUse c.val = true) ∧
    (∃ (sstate : BitVec 8) (sseq : BitVec 8) (pad : BitVec 16) (scrc : Word) (s : State), s.safReady = true ∧ s.loaded 7 = true ∧ s.safScrc sstate.toNat sseq.toNat pad.toNat = scrc.toNat ∧ s.saf.partnerSeq ≠ some sseq.toNat ∧ bitAt sstate.toNat 0 = true) ∧
    (∃ (sstate : BitVec 8) (sseq : BitVec 8) (pad : BitVec 16) (scrc : Word) (s : State), s.safReady = true ∧ s.loaded 7 = true ∧ s.safScrc sstate.toNat sseq.toNat pad.toNat = scrc.toNat ∧ s.saf.partnerSeq ≠ some sseq.toNat ∧ bitAt sstate.toNat 0 = false) ∧
    (∃ (t0 : Nat) (s : State), s.safReady = true ∧ s.saf.partnerAt = some t0 ∧ s.safElapsed t0 5000000 = true ∧ s.faultPresent .partnerLost = false) :=
  ⟨⟨7, 790, { quiet.setB SAF_STATUS.READY true |>.set (SAF_CH.STATE 3) 1 |>.set (SAF_CH.STATE 0) 0 |>.setB (EVT_SRC_CFG.EN 113) true |>.set (TMS_CAP_CFG.EDGE 5) 0 with ltc := 800, img := [(SAF_MAP, 0x90000000)], saf := { pins := { sinA := 128, sinB := [(7, 1)] }, effA := 128, effB := [(7, 1)], rearmed := 128, runSince := [(7, 8)] } }, by decide⟩,
    ⟨7, true, 1, 790, quiet, by decide⟩,
    ⟨1, { quiet.setB SAF_STATUS.READY true with ltc := 19800016, saf := { stpAt := [(0, 8), (1, 16)], effA := 128, effB := [(7, 1)] } }, by decide⟩,
    ⟨1, 0x81, 8, 7, { quiet.setB SAF_STATUS.READY true |>.set (SAF_CH.STATE 3) 1 |>.setB (EVT_SRC_CFG.EN 115) true |>.set (TMS_CAP_CFG.EDGE 5) 0 with ltc := 250008, img := [(SAF_MAP, 0x90000000)], saf := { maskAt := [(1, 8)], tested := [(1, 0x80)], pins := { sinA := 128, sinB := [(7, 1)] }, effA := 128, effB := [(7, 1)] } }, by decide⟩,
    ⟨7, 8, { quiet.setB SAF_STATUS.READY true |>.set (SAF_CH.STATE 3) 2 |>.set (SAF_CH.STATE 0) 2 |>.setB (EVT_SRC_CFG.EN 121) true |>.setB (EVT_SRC_CFG.EN 122) true with ltc := 10000008, img := [(SAF_MAP, 0x90000000), (SAF_PCFG 7, 0x10005), (SAF_CCFG 3, 0x40000000)], saf := { effA := 128, effB := [(7, 1)], runSince := [(7, 8)] } }, by decide⟩,
    ⟨3, true, { quiet.setB SAF_STATUS.READY true with img := [(SAF_CCFG 3, 0x80000005)], saf := { openAt := [(3, 80)] } }, by decide⟩,
    ⟨1, 6, 0, BitVec.ofNat 32 (quiet.safScrc 1 6 0), { (quiet.setLoaded 7 true).setB SAF_STATUS.READY true |>.set (SAF_CH.STATE 3) 1 |>.setB (EVT_SRC_CFG.EN 113) true |>.setB (EVT_SRC_CFG.EN 123) true with ltc := 80, img := [(SAF_CCFG 3, 0x10000005)], saf := { partnerSeq := some 5 } }, by decide⟩,
    ⟨0, 6, 0, BitVec.ofNat 32 (quiet.safScrc 0 6 0), { (quiet.setLoaded 7 true).setB SAF_STATUS.READY true with ltc := 80, saf := { partnerSeq := some 5, faults := [(.partnerLost, true)] } }, by decide⟩,
    ⟨8, { quiet.setB SAF_STATUS.READY true with ltc := 5000008, saf := { partnerAt := some 8, partnerRun := some 8, rearmed := 256 } }, by decide⟩⟩

/-- States and operands that meet the hypotheses of MailboxRequestsAreServedAndAnswered, clause by clause. -/
theorem wit_MailboxRequestsAreServedAndAnswered :
    (∃ (seq : Nat) (c : Nat) (s : State), s.saf.req = some (seq, c, 1) ∧ c < 4 ∧ s.chState c = safOFF ∧ s.energiseCode c = 0) ∧
    (∃ (seq : Nat) (c : Nat) (s : State), s.saf.req = some (seq, c, 1) ∧ s.energiseCode c ≠ 0) ∧
    (∃ (seq : Nat) (arg : Nat) (s : State), s.saf.req = some (seq, arg, 2) ∧ 0 < arg ∧ arg < 16) ∧
    (∃ (seq : Nat) (c : Nat) (s : State), s.saf.req = some (seq, 2 ^ c, 3) ∧ c < 4 ∧ s.chState c = safTRIPPED ∧ s.getB (SAF_CH.ARMABLE c) = true) ∧
    (∃ (seq : Nat) (s : State), s.saf.req = some (seq, 16, 3) ∧ s.saf.faults ≠ [] ∧ s.saf.faults.all (fun x => !x.2) = true) ∧
    (∃ (seq : Nat) (arg : Nat) (s : State), s.saf.req = some (seq, arg, 4)) ∧
    (∃ (seq : Nat) (arg : Nat) (op : Nat) (s : State), s.saf.req = some (seq, arg, op) ∧ ((op = 0 ∨ 4 < op))) :=
  ⟨⟨9, 3, { quiet.setB SAF_STATUS.READY true |>.set (SAF_CH.STATE 3) 0 |>.setB SAF_MBX_RSP.PEND true |>.setB (EVT_SRC_CFG.EN 112) true with ltc := 80, saf := { req := some (9, 3, 1) } }, by decide⟩,
    ⟨9, 3, { quiet.setB SAF_STATUS.READY true |>.set (SAF_CH.STATE 3) 2 |>.setB (EVT_SRC_CFG.EN 112) true with ltc := 80, saf := { req := some (9, 3, 1) } }, by decide⟩,
    ⟨9, 9, { quiet.setB SAF_STATUS.READY true |>.set (SAF_CH.STATE 3) 1 |>.set (SAF_CH.STATE 2) 1 |>.setB (EVT_SRC_CFG.EN 112) true with ltc := 80, saf := { req := some (9, 9, 2) } }, by decide⟩,
    ⟨9, 3, { quiet.setB SAF_STATUS.READY true |>.set (SAF_CH.STATE 3) 2 |>.setB (SAF_CH.ARMABLE 3) true |>.setB (EVT_SRC_CFG.EN 122) true |>.setB (EVT_SRC_CFG.EN 112) true with ltc := 80, saf := { req := some (9, 8, 3) } }, by decide⟩,
    ⟨9, { quiet.setB SAF_STATUS.READY true |>.setB (EVT_SRC_CFG.EN 119) true |>.setB (EVT_SRC_CFG.EN 112) true with ltc := 80, saf := { req := some (9, 16, 3), faults := [(.selftest, false)], degFrom := some 8 } }, by decide⟩,
    ⟨9, 0xA5, { quiet.setB SAF_STATUS.READY true |>.setB (EVT_SRC_CFG.EN 112) true with ltc := 80, saf := { req := some (9, 0xA5, 4) } }, by decide⟩,
    ⟨255, 7, 5, { quiet.setB SAF_STATUS.READY true |>.setB (EVT_SRC_CFG.EN 112) true with ltc := 80, saf := { req := some (255, 7, 5) } }, by decide⟩⟩

/-- States and operands that meet the hypotheses of ReceiverChainsAntennasAndSearchesFollowChapter13, clause by clause. -/
theorem wit_ReceiverChainsAntennasAndSearchesFollowChapter13 :
    (∃ (c : Fin 4) (clips : BitVec 17) (power : BitVec 16) (mean : Option (BitVec 16)) (gain : BitVec 8) (pwr : Nat) (b : Nat) (n : Nat) (t0 : Nat) (s : State), s.chainRuns c.val = true ∧ some b = (match mean with | none => tget s.gnb.base c.val | some m => some (min m.toNat (tgetD s.gnb.base c.val m.toNat))) ∧ pwr = min 255 (power.toNat - b) ∧ s.getB (GNB_CHAIN_CFG.HOLD c.val) = false ∧ n = s.scNow / 1024 - tgetD s.gnb.agcAt c.val 0 ∧ ((20 * clips.toNat ≤ 81840 ∨ min 240 (max (s.get (GNB_CHAIN_STAT.GAIN c.val) - n) (min (s.get (GNB_CHAIN_STAT.GAIN c.val) + n) gain.toNat)) ≠ 0)) ∧ 60 < pwr ∧ tget s.gnb.jamFrom c.val = some t0 ∧ 100000000 ≤ s.since t0 ∧ s.getB (GNB_CHAIN_STAT.JAM c.val) = false) ∧
    (∃ (c : Fin 4) (clips : BitVec 17) (power : BitVec 16) (mean : Option (BitVec 16)) (gain : BitVec 8) (pwr : Nat) (b : Nat) (n : Nat) (s : State), s.chainRuns c.val = true ∧ some b = (match mean with | none => tget s.gnb.base c.val | some m => some (min m.toNat (tgetD s.gnb.base c.val m.toNat))) ∧ pwr = min 255 (power.toNat - b) ∧ s.getB (GNB_CHAIN_CFG.HOLD c.val) = false ∧ n = s.scNow / 1024 - tgetD s.gnb.agcAt c.val 0 ∧ 81840 < 20 * clips.toNat ∧ min 240 (max (s.get (GNB_CHAIN_STAT.GAIN c.val) - n) (min (s.get (GNB_CHAIN_STAT.GAIN c.val) + n) gain.toNat)) = 0 ∧ pwr ≤ 60 ∧ s.getB (GNB_CHAIN_STAT.SAT c.val) = false) ∧
    (∃ (c : Fin 4) (clips : BitVec 17) (power : BitVec 16) (mean : Option (BitVec 16)) (gain : BitVec 8) (pwr : Nat) (b : Nat) (s : State), s.chainRuns c.val = true ∧ some b = (match mean with | none => tget s.gnb.base c.val | some m => some (min m.toNat (tgetD s.gnb.base c.val m.toNat))) ∧ pwr = min 255 (power.toNat - b) ∧ s.getB (GNB_CHAIN_CFG.HOLD c.val) = true ∧ ((20 * clips.toNat ≤ 81840 ∨ s.get (GNB_CHAIN_STAT.GAIN c.val) ≠ 0)) ∧ 60 < pwr ∧ tget s.gnb.jamFrom c.val = none) ∧
    (∃ (c : Fin 4) (clips : BitVec 17) (power : BitVec 16) (gain : BitVec 8) (s : State), s.chainRuns c.val = true ∧ tget s.gnb.base c.val = none ∧ s.getB (GNB_CHAIN_CFG.HOLD c.val) = true ∧ ((20 * clips.toNat ≤ 81840 ∨ s.get (GNB_CHAIN_STAT.GAIN c.val) ≠ 0)) ∧ s.getB (GNB_CHAIN_STAT.JAM c.val) = true) ∧
    (∃ (c : Fin 4) (j : Fin 4) (freq : BitVec 13) (level : BitVec 8) (width : BitVec 8) (s : State), s.chainRuns c.val = true ∧ s.get (GNB_NOTCH.MODE c.val j.val) = 2 ∧ ((∀ i ∈ List.range 4, i ≠ j.val → s.get (GNB_NOTCH.MODE c.val i) ≠ 2)) ∧ tget s.gnb.interf c.val = none ∧ 10 ≤ level.toNat ∧ width.toNat < 100 ∧ s.getB (GNB_NOTCH.LOCK c.val j.val) = false) ∧
    (∃ (c : Fin 4) (j : Fin 4) (k : Fin 4) (f : Nat) (p : Nat) (g : BitVec 13) (q : BitVec 8) (width : BitVec 8) (s : State), s.chainRuns c.val = true ∧ j.val < k.val ∧ s.get (GNB_NOTCH.MODE c.val j.val) = 2 ∧ s.get (GNB_NOTCH.MODE c.val k.val) = 2 ∧ ((∀ i ∈ List.range 4, i ≠ j.val → i ≠ k.val → s.get (GNB_NOTCH.MODE c.val i) ≠ 2)) ∧ tget s.gnb.interf c.val = some [(f, p)] ∧ f ≠ g.toNat ∧ f < 8192 ∧ 10 ≤ p ∧ p < q.toNat ∧ width.toNat < 100) ∧
    (∃ (c : Fin 4) (j : Fin 4) (f : BitVec 13) (p : Nat) (level : BitVec 8) (width : BitVec 8) (s : State), s.chainRuns c.val = true ∧ s.get (GNB_NOTCH.MODE c.val j.val) = 2 ∧ ((∀ i ∈ List.range 4, i ≠ j.val → s.get (GNB_NOTCH.MODE c.val i) ≠ 2)) ∧ tget s.gnb.interf c.val = some [(f.toNat, p)] ∧ ((level.toNat < 10 ∨ 100 ≤ width.toNat)) ∧ s.getB (GNB_NOTCH.LOCK c.val j.val) = true) ∧
    (∃ (a : Fin 2) (ma : BitVec 8) (s : State), s.getB (GNB_ANT.ON a.val) = true ∧ 150 < ma.toNat ∧ s.getB (GNB_ANT.SHORT a.val) = false) ∧
    (∃ (a : Fin 2) (ma : BitVec 8) (s : State), s.getB (GNB_ANT.ON a.val) = true ∧ ma.toNat < 2 ∧ s.getB (GNB_ANT.OPEN a.val) = false) ∧
    (∃ (a : Fin 2) (ma : BitVec 8) (s : State), s.getB (GNB_ANT.ON a.val) = true ∧ 2 ≤ ma.toNat ∧ ma.toNat ≤ 150) ∧
    (∃ (core : Fin 8) (a : Fin 2) (value : Word) (s : State), bitAt value.toNat 31 = true ∧ s.getB (GNB_ANT.BIAS_EN a.val) = false ∧ s.getB GNB_CTRL.ENABLE = true) ∧
    (∃ (ring : Fin 2) (e : Entry) (chain : Nat) (sig : Nat) (prn : Nat) (coh : Nat) (ncoh : Nat) (bins : Nat) (step : Nat) (addr : Nat) (k : Nat) (s : State), s.ready 0x08 ring.val 0 e ∧ ring.val = 1 ∧ s.gnb.searches.length < 8 ∧ tfree s.gnb.searches 8 = some k ∧ (s.cmdOf 0x08 ring.val e).arg 16 1 = chain ∧ (s.cmdOf 0x08 ring.val e).arg 17 1 = sig ∧ (s.cmdOf 0x08 ring.val e).arg 18 2 = prn ∧ (s.cmdOf 0x08 ring.val e).arg 20 1 = coh ∧ (s.cmdOf 0x08 ring.val e).arg 21 1 = ncoh ∧ (s.cmdOf 0x08 ring.val e).arg 22 2 = bins ∧ (s.cmdOf 0x08 ring.val e).arg 28 4 = step ∧ (s.cmdOf 0x08 ring.val e).arg 32 8 = addr ∧ (s.cmdOf 0x08 ring.val e).arg 40 8 = 0 ∧ chain ≤ 3 ∧ sig ≤ 9 ∧ prnOk sig prn = true ∧ 1 ≤ coh ∧ coh ≤ 10 ∧ coh % sigP sig = 0 ∧ 1 ≤ ncoh ∧ coh * ncoh ≤ 20 ∧ 1 ≤ bins ∧ bins ≤ 512 ∧ 1 ≤ step ∧ step ≤ 5000 ∧ addr % 64 = 0 ∧ s.inWins 0x08 addr 64 = true ∧ s.getB (GNB_CHAIN_CFG.EN chain) = true ∧ sigUpper sig = decide (chain % 2 = 0)) ∧
    (∃ (k : Fin 8) (bin : Fin 512) (code : Word) (dop : Word) (peak : Word) (second : Word) (noise : Word) (cn0 : BitVec 16) (x : Search) (y : Taken) (s : State), tget s.gnb.searches k.val = some x ∧ x.start + x.samples ≤ s.scNow ∧ x.finds bin.val code.toNat dop.toNat peak.toNat second.toNat noise.toNat = true ∧ (s.ring 0x08 1).taken = [y] ∧ y.id = x.id ∧ ((x.addr + 64 ≤ s.complAddr 0x08 1 ∨ s.complAddr 0x08 1 + 16 ≤ x.addr))) ∧
    (∃ (s : State), s.getB GNB_CTRL.ENABLE = true) :=
  ⟨⟨3, 9, 68, none, 1, 61, 7, 7992, 8, { ((quiet.setB GNB_CTRL.ENABLE true).setB (GNB_CHAIN_CFG.EN 3) true).setB (EVT_SRC_CFG.EN 134) true with ltc := 100000008, gnb := { scStart := some 8, base := [(3, 7)], jamFrom := [(3, 8)] } }, by decide⟩,
    ⟨3, 4093, 67, none, 0, 60, 7, 7992, { ((quiet.setB GNB_CTRL.ENABLE true).setB (GNB_CHAIN_CFG.EN 3) true).setB (EVT_SRC_CFG.EN 134) true with ltc := 100000008, gnb := { scStart := some 8, base := [(3, 7)], jamFrom := [(3, 8)] } }, by decide⟩,
    ⟨3, 9, 68, none, 1, 61, 7, { (((quiet.setB GNB_CTRL.ENABLE true).setB (GNB_CHAIN_CFG.EN 3) true).setB (EVT_SRC_CFG.EN 134) true).setB (GNB_CHAIN_CFG.HOLD 3) true with ltc := 100000008, gnb := { scStart := some 8, base := [(3, 7)] } }, by decide⟩,
    ⟨3, 9, 61, 1, { (((quiet.setB GNB_CTRL.ENABLE true).setB (GNB_CHAIN_CFG.EN 3) true).setB (GNB_CHAIN_STAT.JAM 3) true).setB (GNB_CHAIN_CFG.HOLD 3) true with ltc := 100000008, gnb := { scStart := some 8 } }, by decide⟩,
    ⟨3, 3, 8191, 10, 99, (((quiet.setB GNB_CTRL.ENABLE true).setB (GNB_CHAIN_CFG.EN 3) true).setB (EVT_SRC_CFG.EN 135) true).set (GNB_NOTCH.MODE 3 3) 2, by decide⟩,
    ⟨3, 1, 3, 8191, 10, 5, 11, 0, { ((((quiet.setB GNB_CTRL.ENABLE true).setB (GNB_CHAIN_CFG.EN 3) true).setB (EVT_SRC_CFG.EN 135) true).set (GNB_NOTCH.MODE 3 3) 2).set (GNB_NOTCH.MODE 3 1) 2 with gnb := { interf := [(3, [(8191, 10)])] } }, by decide⟩,
    ⟨3, 3, 8191, 12, 9, 0, { ((((quiet.setB GNB_CTRL.ENABLE true).setB (GNB_CHAIN_CFG.EN 3) true).setB (EVT_SRC_CFG.EN 135) true).set (GNB_NOTCH.MODE 3 3) 2).setB (GNB_NOTCH.LOCK 3 3) true with gnb := { interf := [(3, [(8191, 12)])] } }, by decide⟩,
    ⟨1, 151, (quiet.setB (GNB_ANT.ON 1) true).setB (EVT_SRC_CFG.EN 133) true, by decide⟩,
    ⟨1, 1, (quiet.setB (GNB_ANT.ON 1) true).setB (EVT_SRC_CFG.EN 133) true, by decide⟩,
    ⟨1, 2, (quiet.setB (GNB_ANT.ON 1) true).setB (GNB_ANT.OPEN 1) true, by decide⟩,
    ⟨7, 1, 0x90000000, ((quiet.setB GNB_CTRL.ENABLE true).setB (GNB_ANT.BIAS_EN 1) false).setB (GNB_ANT.SHORT 1) true, by decide⟩,
    ⟨1, { flags := 1, handle := 0, tag := 9, args := 0x200000001388000000000200020a00320401 }, 1, 4, 50, 10, 2, 512, 5000, 0x2000, 1, { (ringOn 8 1).setB (GNB_CHAIN_CFG.EN 1) true |>.setReg (blkBase 8 + 0x48) 1 with ltc := 8000, gnb := { scStart := some 0, searches := [(0, { id := 0, chain := 1, sig := 4, prn := 1, addr := 0, start := 0, samples := 1, dopMin := 0, dopStep := 1, bins := 1 })] } }, by unfold State.ready State.ringFree; decide⟩,
    ⟨7, 4, 0x01345678, 0xFFFFFFFE, 77, 5, 4, 4500, { id := 3, chain := 1, sig := 4, prn := 12, addr := 0x2000, start := 4297000000, samples := 81840, dopMin := -4, dopStep := 1, bins := 5 }, { id := 3, opcode := 16, handle := 0, tag := 0x1122334455667788, irq := true, done := none }, { (quiet.setReg (CRING_BASE_LO 8 1) 4096).setB (EVT_SRC_CFG.EN 129) true with ltc := 60000000000, gnb := { scStart := some 1000, sats := [(1, 4297000001, some 4297000002)], searches := [(7, { id := 3, chain := 1, sig := 4, prn := 12, addr := 0x2000, start := 4297000000, samples := 81840, dopMin := -4, dopStep := 1, bins := 5 })] }, rings := [(8 * 32 + 1, { nextId := 4, taken := [{ id := 3, opcode := 16, handle := 0, tag := 0x1122334455667788, irq := true, done := none }] })] }, by decide⟩,
    ⟨{ (quiet.setB GNB_CTRL.ENABLE true).setB (GNB_ANT.ON 1) true |>.set (GNB_ANT.MA 1) 30 |>.set (GNB_CH_STAT.STATE 511) 2 |>.set GNB_STATUS.CHANNELS 1 with ltc := 8000, gnb := { scStart := some 1000, chans := [(511, { handle := 0, chain := 0, sig := 0, prn := 1, irq := false, startSc := 0, sc0 := 0, phase := 0, code := 0, freq := 0, rate := 1, intMs := 1, spacing := 1, secPh := 0 })] } }, by decide⟩⟩

/-- States and operands that meet the hypotheses of TrackingChannelsSteersAndMeasurementsFollowChapters13And14, clause by clause. -/
theorem wit_TrackingChannelsSteersAndMeasurementsFollowChapters13And14 :
    (∃ (ring : Fin 2) (e : Entry) (chain : Nat) (sig : Nat) (prn : Nat) (ms : Nat) (sp : Nat) (rate : Nat) (sec : Nat) (ph : Nat) (x : Nat) (s : State), s.ready 0x08 ring.val 0 e ∧ ring.val = 0 ∧ tfree s.gnb.chans 512 = some x ∧ (s.cmdOf 0x08 ring.val e).arg 16 1 = chain ∧ (s.cmdOf 0x08 ring.val e).arg 17 1 = sig ∧ (s.cmdOf 0x08 ring.val e).arg 18 2 = prn ∧ (s.cmdOf 0x08 ring.val e).arg 20 1 = ms ∧ (s.cmdOf 0x08 ring.val e).arg 21 1 = sp ∧ (s.cmdOf 0x08 ring.val e).arg 22 1 ≤ 1 ∧ (s.cmdOf 0x08 ring.val e).arg 24 8 = 0 ∧ (s.cmdOf 0x08 ring.val e).arg 32 8 = ph ∧ signExtended48 ((s.cmdOf 0x08 ring.val e).arg 40 8) = true ∧ (s.cmdOf 0x08 ring.val e).arg 48 4 = rate ∧ (s.cmdOf 0x08 ring.val e).arg 52 2 = sec ∧ chain ≤ 3 ∧ sig ≤ 9 ∧ prnOk sig prn = true ∧ intOk sig ms = true ∧ 1 ≤ sp ∧ sp ≤ 16 ∧ ph < sigMod sig ∧ 1 ≤ rate ∧ rate ≤ 0x7FFFFFFF ∧ secOk sig sec = true ∧ secNeeded sig ms sec = false ∧ s.getB (GNB_CHAIN_CFG.EN chain) = true ∧ sigUpper sig = decide (chain % 2 = 0)) ∧
    (∃ (ring : Fin 2) (e : Entry) (x : Nat) (d : Nat) (ch : Chan) (s : State), s.ready 0x08 ring.val 0 e ∧ ring.val = 0 ∧ s.checkHandle 3 s.chanLive e.handle.toNat = none ∧ hIndex e.handle.toNat = x ∧ tget s.gnb.chans x = some ch ∧ ch.next < 2 ^ 31 ∧ (s.cmdOf 0x08 ring.val e).arg 16 4 = ch.next + d ∧ d < 1000 ∧ (s.cmdOf 0x08 ring.val e).arg 20 1 = 1 ∧ signExtended48 ((s.cmdOf 0x08 ring.val e).arg 24 8) = true ∧ s.getB (GNB_CHAIN_CFG.EN ch.chain) = true ∧ ch.steer = none ∧ ((d = 0 → s.gnsNow + 16 ≤ 2 * ch.nextSc))) ∧
    (∃ (ring : Fin 2) (e : Entry) (x : Nat) (d : Nat) (ch : Chan) (s : State), s.ready 0x08 ring.val 0 e ∧ ring.val = 0 ∧ s.checkHandle 3 s.chanLive e.handle.toNat = none ∧ hIndex e.handle.toNat = x ∧ tget s.gnb.chans x = some ch ∧ ch.next < 2 ^ 31 ∧ 1 ≤ d ∧ (s.cmdOf 0x08 ring.val e).arg 16 4 + d = ch.next ∧ (s.cmdOf 0x08 ring.val e).arg 20 1 = 1 ∧ signExtended48 ((s.cmdOf 0x08 ring.val e).arg 24 8) = true ∧ s.getB (GNB_CHAIN_CFG.EN ch.chain) = true ∧ ch.steer = none ∧ s.reg SYS_DET_STATUS = 0#32) ∧
    (∃ (ring : Fin 2) (e : Entry) (x : Nat) (s : State), s.ready 0x08 ring.val 0 e ∧ ring.val = 0 ∧ s.checkHandle 3 s.chanLive e.handle.toNat = none ∧ hIndex e.handle.toNat = x) ∧
    (∃ (ring : Fin 2) (e : Entry) (x : Nat) (ch : Chan) (s : State), s.ready 0x08 ring.val 0 e ∧ ring.val = 0 ∧ s.checkHandle 3 s.chanLive e.handle.toNat = none ∧ hIndex e.handle.toNat = x ∧ tget s.gnb.chans x = some ch ∧ (s.cmdOf 0x08 ring.val e).arg 16 1 ≤ 1) ∧
    (∃ (x : Fin 512) (gain : BitVec 8) (n : Nat) (ch : Chan) (s : State), tget s.gnb.chans x.val = some ch ∧ ch.next = 0 ∧ ch.startSc ≤ s.scNow ∧ ch.steer = none ∧ ch.chain ≤ 3 ∧ s.boundaryBefore x.val ch = false ∧ s.getB (GNB_CHAIN_CFG.HOLD ch.chain) = false ∧ n = s.scNow / 1024 - tgetD s.gnb.agcAt ch.chain 0) ∧
    (∃ (x : Fin 512) (gain : BitVec 8) (n : Nat) (ch : Chan) (s : State), tget s.gnb.chans x.val = some ch ∧ ch.next ≠ 0 ∧ ch.nextSc ≤ s.scNow ∧ ch.steer = none ∧ s.accFill < s.accMod / 2 ∧ ch.chain ≤ 3 ∧ s.boundaryBefore x.val ch = false ∧ s.getB (GNB_CHAIN_CFG.HOLD ch.chain) = false ∧ n = s.scNow / 1024 - tgetD s.gnb.agcAt ch.chain 0) ∧
    (∃ (x : Fin 512) (gain : BitVec 8) (ch : Chan) (s : State), tget s.gnb.chans x.val = some ch ∧ ch.next ≠ 0 ∧ ch.nextSc ≤ s.scNow ∧ ch.steer = none ∧ ch.chain ≤ 3 ∧ s.boundaryBefore x.val ch = false ∧ s.accMod / 2 ≤ s.accFill) ∧
    (∃ (x : Fin 512) (n : Nat) (gain : BitVec 8) (ch : Chan) (s : State), tget s.gnb.chans x.val = some ch ∧ ((n ≠ ch.next ∨ s.scNow < ch.nextSc))) ∧
    (∃ (t0 : Nat) (s : State), s.gnb.accFrom = some t0 ∧ s.getB GNB_CTRL.ENABLE = true ∧ s.get GNB_ACC_CFG.TMO ≠ 0 ∧ s.get GNB_ACC_CFG.TMO * 10000 ≤ s.since t0) ∧
    (∃ (s : State), s.msOn = true ∧ s.gnb.lastNom < s.msNumber s.mtNow) ∧
    (∃ (st : Strobe) (rest : List Strobe) (s : State), s.gnb.strobes = st :: rest ∧ st.ltcL ≤ s.now ∧ s.msMod / 2 < s.msFill + st.chans.length + 1) ∧
    (∃ (st : Strobe) (rest : List Strobe) (s : State), s.gnb.strobes = st :: rest ∧ st.ltcL ≤ s.now ∧ st.chans = [] ∧ s.msFill + 1 ≤ s.msMod / 2) :=
  ⟨⟨0, { flags := 1, handle := 0, tag := 9, args := 0xffff7ffffffffffffffffffffffb000003feffffffff00000000000000000001101400ca0702 }, 2, 7, 202, 20, 16, 0x7FFFFFFF, 0xFFFF, 4393751543807, 0, { (ringOn 8 0).setB (GNB_CHAIN_CFG.EN 2) true |>.setB (EVT_SRC_CFG.EN 128) true with ltc := 8000, gnb := { scStart := some 0, chans := [(1, chan0)] } }, by unfold State.ready State.ringFree; decide⟩,
    ⟨0, { flags := 1, handle := 0x0C0001FF, tag := 9, args := 0xFFFFFFFFFFFFFFFE0000000100000007 }, 511, 2, chan0, { (ringOn 8 0).setB (GNB_CHAIN_CFG.EN 2) true with gnb := { scStart := some 0, chans := [(511, chan0)] } }, by unfold State.ready State.ringFree; decide⟩,
    ⟨0, { flags := 1, handle := 0x0C0001FF, tag := 9, args := 0xFFFFFFFFFFFFFFFE0000000100000002 }, 511, 3, chan0, { ((ringOn 8 0).setB (GNB_CHAIN_CFG.EN 2) true).setB (EVT_SRC_CFG.EN 132) true with gnb := { scStart := some 0, chans := [(511, chan0)] } }, by unfold State.ready State.ringFree; decide⟩,
    ⟨0, { flags := 1, handle := 0x0C0001FF, tag := 9, args := 0 }, 511, { (ringOn 8 0).set (GNB_CH_STAT.STATE 511) 2 with gnb := { scStart := some 0, chans := [(3, chan0), (511, chan0)] } }, by unfold State.ready State.ringFree; decide⟩,
    ⟨0, { flags := 1, handle := 0x0C0001FF, tag := 9, args := 1 }, 511, chan0, { (ringOn 8 0) with gnb := { scStart := some 0, chans := [(511, chan0)] } }, by unfold State.ready State.ringFree; decide⟩,
    ⟨511, 7, 0, { chan0 with next := 0, startSc := 9, sc0 := 9 }, { quiet with ltc := 8000, gnb := { scStart := some 0, chans := [(511, { chan0 with next := 0, startSc := 9, sc0 := 9 })] } }, by decide⟩,
    ⟨511, 7, 639, chan0, { (quiet.set GNB_ACC_CFG.LEN 8).set GNB_ACC_PI.PI 511 |>.set GNB_ACC_CI.CI 256 |>.setReg GNB_ACC_BASE_LO 0x10000 with ltc := 8000000, gnb := { scStart := some 0, chans := [(511, chan0)] } }, by decide⟩,
    ⟨511, 7, chan0, { (quiet.set GNB_ACC_CFG.LEN 8).set GNB_ACC_PI.PI 511 |>.set GNB_ACC_CI.CI 255 |>.setB (EVT_SRC_CFG.EN 131) true with ltc := 8000000, gnb := { scStart := some 0, chans := [(511, chan0)] } }, by decide⟩,
    ⟨511, 2, 7, chan0, { quiet with ltc := 8000000, gnb := { scStart := some 0, chans := [(511, chan0)] } }, by decide⟩,
    ⟨8, { (quiet.setB GNB_CTRL.ENABLE true).set GNB_ACC_CFG.TMO 1 |>.setB (EVT_SRC_CFG.EN 130) true with ltc := 10008, gnb := { accFrom := some 8 } }, by decide⟩,
    ⟨{ (quiet.setB GNB_CTRL.ENABLE true).setB GNB_MS_CFG.MS_EN true |>.set GNB_MS_CFG.PER_MS 10 with ltc := 1200000, gnb := { scStart := some 0, lastNom := -5, chans := [(511, chan0)] } }, by decide⟩,
    ⟨strobe0, [], { (quiet.set GNB_MS_CFG.MLEN 10).set GNB_MS_PI.PI 1024 |>.setB (EVT_SRC_CFG.EN 145) true with ltc := 4008, gnb := { strobes := [strobe0] } }, by decide⟩,
    ⟨strobe0, [], { (quiet.set GNB_MS_CFG.MLEN 10).set GNB_MS_PI.PI 1023 |>.setReg GNB_MS_BASE_LO 0x10000 |>.setB (EVT_SRC_CFG.EN 144) true with ltc := 4008, gnb := { strobes := [strobe0] } }, by decide⟩⟩

/-- States and operands that meet the hypotheses of CameraLinksAndSensorControlFollowChapter15, clause by clause. -/
theorem wit_CameraLinksAndSensorControlFollowChapter15 :
    (∃ (l : Fin 4) (gear : Fin 8) (s : State), s.getB CAM_CTRL.ENABLE = true ∧ s.getB (CAM_LNK_CFG.EN l.val) = true ∧ s.getB (CAM_LNK_CFG.POC_EN l.val) = true ∧ 1 ≤ gear.val ∧ gear.val ≤ 5 ∧ gear.val ≤ s.get (CAM_LNK_CFG.GEAR_MAX l.val) ∧ s.getB (CAM_LNK_STAT.UP l.val) = false) ∧
    (∃ (l : Fin 4) (gear : Fin 8) (s : State), s.getB (CAM_LNK_STAT.UP l.val) = true) ∧
    (∃ (l : Fin 4) (s : State), s.getB (CAM_LNK_STAT.POC_ON l.val) = true ∧ s.getB (CAM_LNK_STAT.POC_SHORT l.val) = false) ∧
    (∃ (l : Fin 4) (ma : BitVec 9) (s : State), s.getB (CAM_LNK_STAT.POC_ON l.val) = true ∧ s.getB (CAM_LNK_STAT.POC_OPEN l.val) = false ∧ ma.toNat < 10) ∧
    (∃ (l : Fin 4) (ma : BitVec 9) (s : State), s.getB (CAM_LNK_STAT.POC_ON l.val) = true ∧ 10 ≤ ma.toNat) ∧
    (∃ (core : Fin 8) (l : Fin 4) (value : Word) (s : State), s.closed (CAM_LNK_CFG l.val) = false ∧ s.getB CAM_CTRL.ENABLE = true ∧ s.lnkInSvc l.val = true ∧ bitAt value.toNat 31 = true) ∧
    (∃ (core : Fin 8) (l : Fin 4) (value : Word) (s : State), s.closed (CAM_LNK_CFG l.val) = false ∧ s.getB CAM_CTRL.ENABLE = false) ∧
    (∃ (core : Fin 8) (l : Fin 4) (value : Word) (s : State), s.closed (CAM_LNK_CFG l.val) = false ∧ s.getB CAM_CTRL.ENABLE = true ∧ s.lnkInSvc l.val = false ∧ ((bitAt value.toNat 31 = true ∨ bitAt value.toNat 30 = true))) ∧
    (∃ (src : Fin 16) (s : State), s.getB (CAM_LNK_STAT.UP (src.val / 4)) = true) ∧
    (∃ (src : Fin 16) (k : Nat) (f : CamFrame) (s : State), s.getB (CAM_LNK_STAT.UP (src.val / 4)) = true ∧ tget s.cam.openSrc src.val = some (some k) ∧ tget s.cam.frames k = some f) ∧
    (∃ (src : Fin 16) (s : State), s.getB (CAM_LNK_STAT.UP (src.val / 4)) = true ∧ tget s.cam.openSrc src.val = none) ∧
    (∃ (core : Fin 8) (l : Fin 4) (value : Word) (s : State), s.closed (CAM_LNK_CCI_CMD l.val) = false ∧ bitAt value.toNat 31 = true ∧ s.getB (CAM_LNK_CCI_STAT.BUSY l.val) = false ∧ s.getB (CAM_LNK_STAT.UP l.val) = true) ∧
    (∃ (core : Fin 8) (l : Fin 4) (value : Word) (s : State), s.closed (CAM_LNK_CCI_CMD l.val) = false ∧ bitAt value.toNat 31 = true ∧ ((s.getB (CAM_LNK_CCI_STAT.BUSY l.val) = true ∨ s.getB (CAM_LNK_STAT.UP l.val) = false))) ∧
    (∃ (l : Fin 4) (result : Fin 3) (data : Word) (x : CciTx) (s : State), tget s.cam.cci l.val = some x ∧ x.n ≤ 4) ∧
    (∃ (s : State), s.getB CAM_CTRL.ENABLE = true) :=
  ⟨⟨3, 5, (((quiet.setB CAM_CTRL.ENABLE true).setB (CAM_LNK_CFG.EN 3) true).setB (CAM_LNK_CFG.POC_EN 3) true).set (CAM_LNK_CFG.GEAR_MAX 3) 5 |>.setB (EVT_SRC_CFG.EN 167) true, by decide⟩,
    ⟨3, 0, { (quiet.setB (CAM_LNK_STAT.UP 3) true).set (CAM_LNK_STAT.GEAR 3) 5 |>.setB (EVT_SRC_CFG.EN 167) true with cam := { openSrc := [(3, none), (14, some 2)], frames := [(2, frame0)], ctxs := [(31, ctx0)] } }, by decide⟩,
    ⟨3, (quiet.setB (CAM_LNK_STAT.POC_ON 3) true).setB (EVT_SRC_CFG.EN 169) true, by decide⟩,
    ⟨3, 9, (quiet.setB (CAM_LNK_STAT.POC_ON 3) true).setB (EVT_SRC_CFG.EN 169) true, by decide⟩,
    ⟨3, 10, (quiet.setB (CAM_LNK_STAT.POC_ON 3) true).setB (CAM_LNK_STAT.POC_OPEN 3) true, by decide⟩,
    ⟨7, 3, 0xC000070F, { quiet.setB CAM_CTRL.ENABLE true with img := [(CAM_LNK_CAP 3, 1)] }, by decide⟩,
    ⟨7, 3, 0xC000070F, quiet, by decide⟩,
    ⟨7, 3, 0x4000070F, quiet.setB CAM_CTRL.ENABLE true, by decide⟩,
    ⟨15, (quiet.setB (CAM_LNK_STAT.UP 3) true).setB (EVT_SRC_CFG.EN 168) true, by decide⟩,
    ⟨14, 2, frame0, { (quiet.setB (CAM_LNK_STAT.UP 3) true).setB (EVT_SRC_CFG.EN 168) true with cam := { openSrc := [(14, some 2)], frames := [(2, frame0)] } }, by decide⟩,
    ⟨14, (quiet.setB (CAM_LNK_STAT.UP 3) true).set (CAM_LNK_ERR.HDR_LOST 3) 255, by decide⟩,
    ⟨7, 3, 0xF0120007, (quiet.setB (CAM_LNK_STAT.UP 3) true).setB (CAM_LNK_CCI_STAT.DONE 3) true, by decide⟩,
    ⟨7, 3, 0xF0120007, quiet, by decide⟩,
    ⟨3, 0, 0x12345678, { read := true, n := 3, dev := 0x12, target := 7, data := [] }, { (quiet.setB (CAM_LNK_CCI_STAT.BUSY 3) true).setReg (CAM_LNK_CCI_DATA 3) 0xAABBCCDD |>.setB (EVT_SRC_CFG.EN 173) true with cam := { cci := [(3, { read := true, n := 3, dev := 0x12, target := 7, data := [] })] } }, by decide⟩,
    ⟨{ (quiet.setB CAM_CTRL.ENABLE true).setB (CAM_LNK_STAT.UP 3) true |>.setB (CAM_LNK_STAT.POC_ON 0) true |>.setB (CAM_PL_STAT.BUSY 5) true |>.setB (CAM_CTX_STAT.LIVE 31) true with cam := { openSrc := [(14, some 2)], frames := [(2, frame0)], ctxs := [(31, ctx0)], pipes := [(5, { run := some 2 })] } }, by decide⟩⟩

/-- States and operands that meet the hypotheses of FramesOpenFillPassTheirPipelineAndLeaveARecord, clause by clause. -/
theorem wit_FramesOpenFillPassTheirPipelineAndLeaveARecord :
    (∃ (src : Fin 16) (no : BitVec 16) (x : Nat) (b : Nat) (j : Nat) (bs : List Nat) (c : CamCtx) (s : State), s.getB CAM_CTRL.ENABLE = true ∧ s.getB (CAM_LNK_STAT.UP (src.val / 4)) = true ∧ bitAt (s.get (CAM_LNK_CFG.VC_EN (src.val / 4))) (src.val % 4) = true ∧ tget s.cam.openSrc src.val = none ∧ (s.cam.ctxs.find? fun e => e.2.src = src.val && e.2.dying.isNone && no.toNat % e.2.fselMod = e.2.fsel) = some (x, c) ∧ c.stb = 0xFF ∧ c.ofmt ≠ 0 ∧ c.bufs = b :: bs ∧ ((c.fen = 0 ∨ s.loaded 4 = true ∧ s.busy 4 = false)) ∧ (s.camPipe c.pl).run = some j) ∧
    (∃ (src : Fin 16) (no : BitVec 16) (x : Nat) (b : Nat) (j : Nat) (bs : List Nat) (c : CamCtx) (s : State), s.getB CAM_CTRL.ENABLE = true ∧ s.getB (CAM_LNK_STAT.UP (src.val / 4)) = true ∧ bitAt (s.get (CAM_LNK_CFG.VC_EN (src.val / 4))) (src.val % 4) = true ∧ tget s.cam.openSrc src.val = none ∧ (s.cam.ctxs.find? fun e => e.2.src = src.val && e.2.dying.isNone && no.toNat % e.2.fselMod = e.2.fsel) = some (x, c) ∧ c.stb = 0xFF ∧ c.ofmt ≠ 0 ∧ c.bufs = b :: bs ∧ c.newPal = false ∧ c.fen ≠ 0 ∧ s.loaded 4 = false ∧ (s.camPipe c.pl).run = some j) ∧
    (∃ (src : Fin 16) (no : BitVec 16) (s : State), s.getB CAM_CTRL.ENABLE = true ∧ s.getB (CAM_LNK_STAT.UP (src.val / 4)) = true ∧ bitAt (s.get (CAM_LNK_CFG.VC_EN (src.val / 4))) (src.val % 4) = true ∧ tget s.cam.openSrc src.val = none ∧ (s.cam.ctxs.find? fun e => e.2.src = src.val && e.2.dying.isNone && no.toNat % e.2.fselMod = e.2.fsel) = none) ∧
    (∃ (src : Fin 16) (k : Nat) (f : CamFrame) (s : State), s.getB CAM_CTRL.ENABLE = true ∧ s.getB (CAM_LNK_STAT.UP (src.val / 4)) = true ∧ bitAt (s.get (CAM_LNK_CFG.VC_EN (src.val / 4))) (src.val % 4) = true ∧ tget s.cam.openSrc src.val = some (some k) ∧ tget s.cam.frames k = some f) ∧
    (∃ (src : Fin 16) (s : State), s.getB CAM_CTRL.ENABLE = true ∧ s.getB (CAM_LNK_STAT.UP (src.val / 4)) = true ∧ bitAt (s.get (CAM_LNK_CFG.VC_EN (src.val / 4))) (src.val % 4) = true ∧ tget s.cam.openSrc src.val = none) ∧
    (∃ (src : Fin 16) (dt : BitVec 6) (payload : List Byte) (k : Nat) (f : CamFrame) (c : CamCtx) (s : State), s.getB CAM_CTRL.ENABLE = true ∧ s.getB (CAM_LNK_STAT.UP (src.val / 4)) = true ∧ bitAt (s.get (CAM_LNK_CFG.VC_EN (src.val / 4))) (src.val % 4) = true ∧ dtBits dt.toNat ≠ 0 ∧ tget s.cam.openSrc src.val = some (some k) ∧ tget s.cam.frames k = some f ∧ s.camCtx f.ctx = some c ∧ f.lines < c.height ∧ linePixels c.dt payload = c.width ∧ ((f.st = .waiting ∨ f.st = .running)) ∧ s.storeUsed (c.src / 4) + c.lineUnits ≤ 4194304) ∧
    (∃ (src : Fin 16) (dt : BitVec 6) (payload : List Byte) (k : Nat) (f : CamFrame) (c : CamCtx) (s : State), s.getB CAM_CTRL.ENABLE = true ∧ s.getB (CAM_LNK_STAT.UP (src.val / 4)) = true ∧ bitAt (s.get (CAM_LNK_CFG.VC_EN (src.val / 4))) (src.val % 4) = true ∧ dtBits dt.toNat ≠ 0 ∧ tget s.cam.openSrc src.val = some (some k) ∧ tget s.cam.frames k = some f ∧ s.camCtx f.ctx = some c ∧ c.height ≤ f.lines) ∧
    (∃ (src : Fin 16) (dt : BitVec 6) (payload : List Byte) (s : State), s.getB CAM_CTRL.ENABLE = true ∧ s.getB (CAM_LNK_STAT.UP (src.val / 4)) = true ∧ bitAt (s.get (CAM_LNK_CFG.VC_EN (src.val / 4))) (src.val % 4) = true ∧ dtBits dt.toNat ≠ 0 ∧ tget s.cam.openSrc src.val = some none) ∧
    (∃ (src : Fin 16) (dt : BitVec 6) (payload : List Byte) (crcOk : Bool) (s : State), s.getB CAM_CTRL.ENABLE = true ∧ s.getB (CAM_LNK_STAT.UP (src.val / 4)) = true ∧ ((bitAt (s.get (CAM_LNK_CFG.VC_EN (src.val / 4))) (src.val % 4) = false ∨ dtBits dt.toNat = 0))) ∧
    (∃ (src : Fin 16) (k : Nat) (f : CamFrame) (c : CamCtx) (s : State), tget s.cam.openSrc src.val = some (some k) ∧ tget s.cam.frames k = some f ∧ s.camCtx f.ctx = some c ∧ c.fto ≠ 0 ∧ c.fto * 1000000 ≤ s.since f.fsAt) ∧
    (∃ (p : Fin 8) (k : Nat) (f : CamFrame) (c : CamCtx) (line : List Byte) (rest : List (Option (List Byte))) (s : State), (s.camPipe p.val).run = some k ∧ tget s.cam.frames k = some f ∧ s.camCtx f.ctx = some c ∧ f.store = some line :: rest ∧ (s.camPipe p.val).readyAt ≤ s.now ∧ f.entered = 0 ∧ f.pal.runs 1 c.dt c.cfa = false) ∧
    (∃ (p : Fin 8) (k : Nat) (b : Nat) (f : CamFrame) (c : CamCtx) (line : List Byte) (a : PixRow) (bytes : List Byte) (rest : List (Option (List Byte))) (s : State), (s.camPipe p.val).run = some k ∧ tget s.cam.frames k = some f ∧ s.camCtx f.ctx = some c ∧ f.store = some line :: rest ∧ (s.camPipe p.val).readyAt ≤ s.now ∧ f.entered = 1 ∧ f.win = [a] ∧ f.undef = false ∧ f.tabs = s.palTables f.pal c.dt c.cfa ∧ f.fen = false ∧ f.buf = some b ∧ c.ltab = false ∧ bytes = rowBytes c.ofmt (backStages f.pal f.tabs c.dt c.cfa c.width 0 (some (frontStages f.pal f.tabs c.dt c.cfa c.width c.height 1 (fun i => Config.freeValue (s.free + i)) (rawRow c.dt c.width line))) (some a) (some (frontStages f.pal f.tabs c.dt c.cfa c.width c.height 1 (fun i => Config.freeValue (s.free + i)) (rawRow c.dt c.width line))) (fun i => Config.freeValue (s.free + c.width + i))) ∧ s.inWins 0x09 b bytes.length = true) ∧
    (∃ (p : Fin 8) (k : Nat) (f : CamFrame) (s : State), (s.camPipe p.val).run = none ∧ s.pipeNext p.val = some k ∧ tget s.cam.frames k = some f) ∧
    (∃ (p : Fin 8) (k : Nat) (f : CamFrame) (c : CamCtx) (s : State), (s.camPipe p.val).run = some k ∧ tget s.cam.frames k = some f ∧ s.camCtx f.ctx = some c ∧ f.store = [] ∧ (s.camPipe p.val).readyAt ≤ s.now ∧ ((f.closed.isSome = true ∨ c.height ≤ f.entered))) ∧
    (∃ (k : Nat) (d : Nat) (f : CamFrame) (c : CamCtx) (s : State), s.cam.frames = [(k, f)] ∧ f.dueAt = some d ∧ d ≤ s.now ∧ s.camCtx f.ctx = some c ∧ f.fen = false ∧ s.frFill < s.frMod / 2 ∧ c.dying = none ∧ f.lines = c.height ∧ f.flags = 0 ∧ s.cam.recGap = false ∧ f.ctx < 32) ∧
    (∃ (k : Nat) (d : Nat) (f : CamFrame) (c : CamCtx) (s : State), s.cam.frames = [(k, f)] ∧ f.dueAt = some d ∧ d ≤ s.now ∧ s.camCtx f.ctx = some c ∧ f.fen = false ∧ s.frMod / 2 ≤ s.frFill ∧ c.dying = none) :=
  ⟨⟨14, 9, 31, 0x4000, 1, [0x8000], { ctx0 with bufs := [0x4000, 0x8000] }, { (quiet.setB CAM_CTRL.ENABLE true).setB (CAM_LNK_STAT.UP 3) true |>.set (CAM_LNK_CFG.VC_EN 3) 4 with ltc := 8000, cam := { ctxs := [(31, { ctx0 with bufs := [0x4000, 0x8000] })], pipes := [(5, { run := some 1 })], nextFrame := 2 } }, by decide⟩,
    ⟨14, 9, 31, 0, 1, [], { ctx0 with bufs := [0], newPal := false, fen := 0x14000000 }, { (quiet.setB CAM_CTRL.ENABLE true).setB (CAM_LNK_STAT.UP 3) true |>.set (CAM_LNK_CFG.VC_EN 3) 4 |>.setB (EVT_SRC_CFG.EN 170) true with ltc := 8000, cam := { ctxs := [(31, { ctx0 with bufs := [0], newPal := false, fen := 0x14000000 })], pipes := [(5, { run := some 1 })], nextFrame := 2 } }, by decide⟩,
    ⟨14, 9, { (quiet.setB CAM_CTRL.ENABLE true).setB (CAM_LNK_STAT.UP 3) true |>.set (CAM_LNK_CFG.VC_EN 3) 4 |>.setB (EVT_SRC_CFG.EN 171) true with cam := { ctxs := [(31, { ctx0 with fselMod := 2 })] } }, by decide⟩,
    ⟨14, 2, frame0, { (quiet.setB CAM_CTRL.ENABLE true).setB (CAM_LNK_STAT.UP 3) true |>.set (CAM_LNK_CFG.VC_EN 3) 4 with ltc := 8000, cam := { openSrc := [(14, some 2)], frames := [(2, frame0)], ctxs := [(31, ctx0)] } }, by decide⟩,
    ⟨14, (quiet.setB CAM_CTRL.ENABLE true).setB (CAM_LNK_STAT.UP 3) true |>.set (CAM_LNK_CFG.VC_EN 3) 4, by decide⟩,
    ⟨14, 0x2A, [1, 2, 3, 4], 2, { frame0 with lines := 1 }, ctx0, { (quiet.setB CAM_CTRL.ENABLE true).setB (CAM_LNK_STAT.UP 3) true |>.set (CAM_LNK_CFG.VC_EN 3) 4 with cam := { openSrc := [(14, some 2)], frames := [(2, { frame0 with lines := 1 })], ctxs := [(31, ctx0)] } }, by decide⟩,
    ⟨14, 0x2A, [1, 2, 3, 4], 2, { frame0 with lines := 2 }, ctx0, { (quiet.setB CAM_CTRL.ENABLE true).setB (CAM_LNK_STAT.UP 3) true |>.set (CAM_LNK_CFG.VC_EN 3) 4 with cam := { openSrc := [(14, some 2)], frames := [(2, { frame0 with lines := 2 })], ctxs := [(31, ctx0)] } }, by decide⟩,
    ⟨14, 0x2D, [1, 2, 3, 4], { (quiet.setB CAM_CTRL.ENABLE true).setB (CAM_LNK_STAT.UP 3) true |>.set (CAM_LNK_CFG.VC_EN 3) 4 |>.setB (EVT_SRC_CFG.EN 168) true with cam := { openSrc := [(14, none)] } }, by decide⟩,
    ⟨14, 0x2D, [1, 2, 3, 4], false, (quiet.setB CAM_CTRL.ENABLE true).setB (CAM_LNK_STAT.UP 3) true |>.set (CAM_LNK_CFG.VC_EN 3) 0 |>.setB (EVT_SRC_CFG.EN 168) true, by decide⟩,
    ⟨14, 2, frame0, ctx0, { quiet with ltc := 10001000, cam := { openSrc := [(14, some 2)], frames := [(2, frame0)], ctxs := [(31, ctx0)] } }, by decide⟩,
    ⟨5, 2, { frame0 with st := .running, lines := 2, store := [some [1, 2, 3, 4], none] }, ctx0, [1, 2, 3, 4], [none], { quiet with ltc := 8000, cam := { pipes := [(5, { run := some 2, readyAt := 8000 })], frames := [(2, { frame0 with st := .running, lines := 2, store := [some [1, 2, 3, 4], none] })], ctxs := [(31, ctx0)] } }, by decide⟩,
    ⟨5, 2, 0x4000, { frame0 with st := .running, lines := 2, buf := some 0x4000, entered := 1, win := [[[256], [512], [65535], [0]]], store := [some [1, 2, 3, 4]] }, ctx0, [1, 2, 3, 4], [[256], [512], [65535], [0]], [1, 2, 255, 0], [], { (quiet.set (CAM_DWIN_SIZE.MIB 3) 1) with ltc := 8000, cam := { pipes := [(5, { run := some 2, readyAt := 8000 })], frames := [(2, { frame0 with st := .running, lines := 2, buf := some 0x4000, entered := 1, win := [[[256], [512], [65535], [0]]], store := [some [1, 2, 3, 4]] })], ctxs := [(31, ctx0)] } }, by decide⟩,
    ⟨5, 2, frame0, { quiet with ltc := 8000, cam := { pipes := [(5, { last := some 31 })], frames := [(2, frame0)], ctxs := [(31, ctx0)] } }, by decide⟩,
    ⟨5, 2, { frame0 with st := .running, lines := 2, buf := some 0x4000, entered := 2, win := [[[256], [512], [65535], [0]], [[256], [512], [65535], [0]]] }, ctx0, { quiet with ltc := 8000, cam := { pipes := [(5, { run := some 2, readyAt := 8000 })], frames := [(2, { frame0 with st := .running, lines := 2, buf := some 0x4000, entered := 2, win := [[[256], [512], [65535], [0]], [[256], [512], [65535], [0]]] }), (3, frame0)], ctxs := [(31, ctx0)] } }, by decide⟩,
    ⟨2, 9000, { frame0 with st := .released 9000, closed := some 8000, lines := 2 }, ctx0, { (quiet.set CAM_FR_CFG.FLEN 8).set CAM_FR_PI.PI 511 |>.set CAM_FR_CI.CI 256 |>.setReg CAM_FR_BASE_LO 0x10000 |>.setB (EVT_SRC_CFG.EN 161) true with ltc := 9000, cam := { frames := [(2, { frame0 with st := .released 9000, closed := some 8000, lines := 2 })], ctxs := [(31, ctx0)] } }, by decide⟩,
    ⟨2, 8000, { frame0 with st := .dropped, closed := some 8000 }, ctx0, { (quiet.set CAM_FR_CFG.FLEN 8).set CAM_FR_PI.PI 511 |>.set CAM_FR_CI.CI 255 |>.setB (EVT_SRC_CFG.EN 162) true with ltc := 9000, cam := { frames := [(2, { frame0 with st := .dropped, closed := some 8000 })], ctxs := [(31, ctx0)] } }, by decide⟩⟩

/-- States and operands that meet the hypotheses of CameraContextCommandsFollowChapter15, clause by clause. -/
theorem wit_CameraContextCommandsFollowChapter15 :
    (∃ (ring : Fin 1) (e : Entry) (x : Nat) (s : State), s.ready 0x09 ring.val 0 e ∧ opCtxCreate.lowestOfCodes (s.ctxCodes (s.cmdOf 0x09 ring.val e)) = none ∧ tfree s.cam.ctxs 32 = some x) ∧
    (∃ (ring : Fin 1) (e : Entry) (code : Nat) (s : State), s.ready 0x09 ring.val 0 e ∧ opCtxCreate.lowestOfCodes (s.ctxCodes (s.cmdOf 0x09 ring.val e)) = some code) ∧
    (∃ (ring : Fin 1) (e : Entry) (x : Nat) (c : CamCtx) (s : State), s.ready 0x09 ring.val 0 e ∧ s.checkHandle 4 s.camLive e.handle.toNat = none ∧ hIndex e.handle.toNat = x ∧ s.camCtx x = some c ∧ (s.cam.frames.any fun f => decide (f.2.ctx = x)) = false) ∧
    (∃ (ring : Fin 1) (e : Entry) (x : Nat) (k : Nat) (c : CamCtx) (f : CamFrame) (s : State), s.ready 0x09 ring.val 0 e ∧ s.checkHandle 4 s.camLive e.handle.toNat = none ∧ hIndex e.handle.toNat = x ∧ s.camCtx x = some c ∧ s.cam.frames = [(k, f)] ∧ f.ctx = x ∧ f.st = .waiting) ∧
    (∃ (ring : Fin 1) (e : Entry) (x : Nat) (a : Nat) (c : CamCtx) (s : State), s.ready 0x09 ring.val 0 e ∧ s.checkHandle 4 s.camLive e.handle.toNat = none ∧ hIndex e.handle.toNat = x ∧ s.camCtx x = some c ∧ (s.cmdOf 0x09 ring.val e).arg 16 8 = a ∧ s.palRangeOk { addr := a, hdr := memBytes s.dram a 256 } = true ∧ Pal.formatOk { addr := a, hdr := memBytes s.dram a 256 } = true) ∧
    (∃ (ring : Fin 1) (e : Entry) (x : Nat) (a : Nat) (c : CamCtx) (s : State), s.ready 0x09 ring.val 0 e ∧ s.checkHandle 4 s.camLive e.handle.toNat = none ∧ hIndex e.handle.toNat = x ∧ s.camCtx x = some c ∧ (s.cmdOf 0x09 ring.val e).arg 16 8 = a ∧ ((s.palRangeOk { addr := a, hdr := memBytes s.dram a 256 } = false ∨ Pal.formatOk { addr := a, hdr := memBytes s.dram a 256 } = false))) ∧
    (∃ (ring : Fin 1) (e : Entry) (x : Nat) (a : Nat) (c : CamCtx) (s : State), s.ready 0x09 ring.val 0 e ∧ s.checkHandle 4 s.camLive e.handle.toNat = none ∧ hIndex e.handle.toNat = x ∧ s.camCtx x = some c ∧ (s.cmdOf 0x09 ring.val e).arg 16 8 = a ∧ a % 64 = 0 ∧ s.inWins 0x09 a (c.bufSize c.pal) = true ∧ c.bufs.length < 16 ∧ x < 32) ∧
    (∃ (ring : Fin 1) (e : Entry) (x : Nat) (a : Nat) (c : CamCtx) (s : State), s.ready 0x09 ring.val 0 e ∧ s.checkHandle 4 s.camLive e.handle.toNat = none ∧ hIndex e.handle.toNat = x ∧ s.camCtx x = some c ∧ (s.cmdOf 0x09 ring.val e).arg 16 8 = a ∧ a % 64 = 0 ∧ s.inWins 0x09 a (c.bufSize c.pal) = true ∧ 16 ≤ c.bufs.length) ∧
    (∃ (ring : Fin 1) (e : Entry) (x : Nat) (p : Nat) (c : CamCtx) (s : State), s.ready 0x09 ring.val 0 e ∧ s.checkHandle 4 s.camLive e.handle.toNat = none ∧ hIndex e.handle.toNat = x ∧ s.camCtx x = some c ∧ (((s.cmdOf 0x09 ring.val e).arg 16 1 ≤ 7 ∧ p = (s.cmdOf 0x09 ring.val e).arg 16 1 ∨ (s.cmdOf 0x09 ring.val e).arg 16 1 = 0xFF ∧ p = s.defaultPl c.src)) ∧ s.pipeLoad p + (if p = c.pl then 0 else c.width * c.height * c.maxFps) ≤ 12000000000) :=
  ⟨⟨0, { flags := 1, handle := 0, tag := 9, args := 0x50098968003e8012c0438078003090304ff042b0e }, 0, { (ringOn 9 0).setReg (CAM_CTX_STAT 0) 0x99 |>.setB (EVT_SRC_CFG.EN 160) true with img := [(CAM_LNK_CAP 3, 1), (CAM_SRC_DEF 14, 0x80000006)], cam := { ctxs := [(31, { ctx0 with src := 13 })] } }, by unfold State.ready State.ringFree; decide⟩,
    ⟨0, { flags := 1, handle := 0, tag := 9, args := 0x50098968003e8012c0438078003090304ff042b0e }, 8, (ringOn 9 0).setB (EVT_SRC_CFG.EN 160) true, by unfold State.ready State.ringFree; decide⟩,
    ⟨0, { flags := 1, handle := 0x1000001F, tag := 9, args := 0 }, 31, ctx0, { (ringOn 9 0).setB (CAM_CTX_STAT.LIVE 31) true with cam := { ctxs := [(31, ctx0)] } }, by unfold State.ready State.ringFree; decide⟩,
    ⟨0, { flags := 1, handle := 0x1000001F, tag := 9, args := 0 }, 31, 2, { ctx0 with bufs := [64] }, { frame0 with store := [none] }, { (ringOn 9 0).setB (CAM_CTX_STAT.LIVE 31) true with cam := { ctxs := [(31, { ctx0 with bufs := [64] })], frames := [(2, { frame0 with store := [none] })] } }, by unfold State.ready State.ringFree; decide⟩,
    ⟨0, { flags := 1, handle := 0x1000001F, tag := 9, args := 0 }, 31, 0, { ctx0 with palAddr := 64, newPal := false }, { (ringOn 9 0) with cam := { ctxs := [(31, { ctx0 with palAddr := 64, newPal := false })] } }, by unfold State.ready State.ringFree; decide⟩,
    ⟨0, { flags := 1, handle := 0x1000001F, tag := 9, args := 1 }, 31, 1, ctx0, { (ringOn 9 0) with cam := { ctxs := [(31, ctx0)] } }, by unfold State.ready State.ringFree; decide⟩,
    ⟨0, { flags := 1, handle := 0x1000001F, tag := 9, args := 0x4000 }, 31, 0x4000, { ctx0 with bufs := [64] }, { ((ringOn 9 0).set (CAM_DWIN_SIZE.MIB 3) 1) with cam := { ctxs := [(31, { ctx0 with bufs := [64] })] } }, by unfold State.ready State.ringFree; decide⟩,
    ⟨0, { flags := 1, handle := 0x1000001F, tag := 9, args := 0x4000 }, 31, 0x4000, { ctx0 with bufs := List.replicate 16 64 }, { ((ringOn 9 0).set (CAM_DWIN_SIZE.MIB 3) 1) with cam := { ctxs := [(31, { ctx0 with bufs := List.replicate 16 64 })] } }, by unfold State.ready State.ringFree; decide⟩,
    ⟨0, { flags := 1, handle := 0x1000001F, tag := 9, args := 7 }, 31, 7, ctx0, { (ringOn 9 0) with cam := { ctxs := [(31, ctx0)] } }, by unfold State.ready State.ringFree; decide⟩⟩

/-- States and operands that meet the hypotheses of FencePackagesAndStreamsFollowChapter16, clause by clause. -/
theorem wit_FencePackagesAndStreamsFollowChapter16 :
    (∃ (ring : Fin 17) (e : Entry) (slot : Nat) (a : Nat) (d : Nat) (s : State), s.ready 0x0A ring.val 0 e ∧ ring.val = 0 ∧ s.busy 4 = false ∧ (s.cmdOf 0x0A ring.val e).arg 16 1 = slot ∧ (s.cmdOf 0x0A ring.val e).arg 24 8 = a ∧ (s.cmdOf 0x0A ring.val e).arg 32 8 = d ∧ slot ≤ 7 ∧ a % 4096 = 0 ∧ d % 64 = 0 ∧ s.inWins 0x0A a 256 = true ∧ s.inWins 0x0A (a + 256) (natLE (memBytes s.dram (a + 28) 4)) = true ∧ ((natLE (memBytes s.dram (a + 40) 8) = 0 ∨ s.inWins 0x0A d (natLE (memBytes s.dram (a + 40) 8)) = true)) ∧ Pkg.rangeOk { hdr := memBytes s.dram a 256, hdrAddr := a, dramAddr := d, load := none } = true ∧ Pkg.formatOk { hdr := memBytes s.dram a 256, hdrAddr := a, dramAddr := d, load := none } = true ∧ tget s.fen.pkgs slot = none ∧ State.sramUsed { s with fen := { s.fen with pkgs := tput s.fen.pkgs slot { hdr := memBytes s.dram a 256, hdrAddr := a, dramAddr := d, load := some (s.ring 0x0A ring.val).nextId } } } ≤ 33554432) ∧
    (∃ (slot : Fin 8) (p : Pkg) (x : Taken) (s : State), tget s.fen.pkgs slot.val = some p ∧ p.load = some x.id ∧ (s.ring 0x0A 0).taken = [x]) ∧
    (∃ (ring : Fin 17) (e : Entry) (slot : Nat) (s : State), s.ready 0x0A ring.val 0 e ∧ ring.val = 0 ∧ s.busy 4 = false ∧ (s.cmdOf 0x0A ring.val e).arg 16 1 = slot ∧ slot ≤ 7 ∧ (s.pkg slot).isSome = true ∧ (s.fen.streams.any fun x => decide (x.2.slot = slot)) = false) ∧
    (∃ (ring : Fin 17) (e : Entry) (s : State), s.ready 0x0A ring.val 0 e ∧ ring.val ≠ 0) ∧
    (∃ (ring : Fin 17) (e : Entry) (x : Nat) (r : Nat) (slot : Nat) (kind : Nat) (i : Nat) (p : Pkg) (s : State), s.ready 0x0A ring.val 0 e ∧ ring.val = 0 ∧ s.busy 4 = false ∧ tfree s.fen.streams 16 = some x ∧ (s.cmdOf 0x0A ring.val e).arg 16 1 = r ∧ (s.cmdOf 0x0A ring.val e).arg 17 1 = slot ∧ (s.cmdOf 0x0A ring.val e).arg 18 1 = kind ∧ s.checkHandle 0x0D s.reqLive ((s.cmdOf 0x0A ring.val e).arg 20 4) = none ∧ hIndex ((s.cmdOf 0x0A ring.val e).arg 20 4) = i ∧ slot ≤ 7 ∧ r ≠ 0 ∧ r ≤ 16 ∧ kind ≤ 2 ∧ i < 20 ∧ s.reqBound i = false ∧ s.pkg slot = some p ∧ (s.setStr x { ring := r, slot := slot, kind := kind, req := i }).sramUsed ≤ 33554432 ∧ s.ringUsed 0x0A r = true ∧ s.strOnRing r = none ∧ bitAt p.inKinds kind = true ∧ p.fault = false) ∧
    (∃ (ring : Fin 17) (e : Entry) (x : Nat) (q : FenStream) (s : State), s.ready 0x0A ring.val 0 e ∧ ring.val = 0 ∧ s.busy 4 = false ∧ s.checkHandle 5 s.strLive e.handle.toNat = none ∧ hIndex e.handle.toNat = x ∧ tget s.fen.streams x = some q ∧ q.jobs = [] ∧ 1 ≤ q.ring ∧ q.ring ≤ 16 ∧ s.arbHolds q.req = false) ∧
    (∃ (ring : Fin 17) (e : Entry) (x : Nat) (q : FenStream) (j : FenJob) (y : Taken) (s : State), s.ready 0x0A ring.val 0 e ∧ ring.val = 0 ∧ s.busy 4 = false ∧ s.checkHandle 5 s.strLive e.handle.toNat = none ∧ hIndex e.handle.toNat = x ∧ tget s.fen.streams x = some q ∧ q.jobs = [j] ∧ 1 ≤ q.ring ∧ q.ring ≤ 16 ∧ s.arbHolds q.req = false ∧ (s.ring 0x0A q.ring).taken = [y] ∧ y.id = j.id ∧ ((s.complAddr 0x0A ring.val + 16 ≤ s.complAddr 0x0A q.ring ∨ s.complAddr 0x0A q.ring + 16 ≤ s.complAddr 0x0A ring.val))) ∧
    (∃ (k : Fin 8) (p : Pkg) (s : State), s.pkg k.val = some p ∧ s.fen.run = none) ∧
    (∃ (r : FenRun) (q : FenStream) (j : FenJob) (y : Taken) (s : State), s.fen.run = some r ∧ tget s.fen.streams r.stream = some q ∧ q.jobs = [j] ∧ (s.ring 0x0A q.ring).taken = [y] ∧ y.id = j.id ∧ q.ring ≤ 16) ∧
    (∃ (s : State), s.getB FEN_CTRL.ENABLE = true) :=
  ⟨⟨0, { flags := 1, handle := 0, tag := 9, args := 0x10000000000000000007 }, 7, 0x1000, 0, { (ringOn 10 0).set (FEN_DWIN_SIZE.MIB 3) 1 with dram := [(4096, 70), (4097, 78), (4098, 80), (4099, 75), (4100, 1), (4103, 1), (4104, 52), (4105, 18), (4108, 1), (4109, 7), (4110, 4), (4112, 2), (4114, 1), (4116, 8), (4120, 4), (4124, 64), (4128, 32), (4132, 176), (4133, 4)] }, by unfold State.ready State.ringFree; decide⟩,
    ⟨7, { pkg0 with load := some 3 }, { id := 3, opcode := 1, handle := 0, tag := 0x1122334455667788, irq := true, done := none }, { quiet.setReg (CRING_BASE_LO 10 0) 4096 with fen := { pkgs := [(7, { pkg0 with load := some 3 })] }, rings := [(10 * 32, { nextId := 4, taken := [{ id := 3, opcode := 1, handle := 0, tag := 0x1122334455667788, irq := true, done := none }] })] }, by decide⟩,
    ⟨0, { flags := 1, handle := 0, tag := 9, args := 7 }, 7, { (ringOn 10 0).setB (FEN_PKG.LOADED 7) true with fen := { pkgs := [(7, pkg0)], streams := [(0, { str0 with slot := 6 })], lastPkg := some 7 } }, by unfold State.ready State.ringFree; decide⟩,
    ⟨16, { flags := 1, handle := 0, tag := 9, args := 7 }, (ringOn 10 16).setB (EVT_SRC_CFG.EN 193) true, by unfold State.ready State.ringFree; decide⟩,
    ⟨0, { flags := 1, handle := 0, tag := 9, args := 0x3400001300020710 }, 0, 16, 7, 2, 19, pkg0, { (ringOn 10 0).setReg (RING_BASE_LO 10 16) 0x8000 |>.setB (ARB_REQ.LIVE 19) true with fen := { pkgs := [(7, pkg0)] } }, by unfold State.ready State.ringFree; decide⟩,
    ⟨0, { flags := 1, handle := 0x1400000F, tag := 9, args := 0 }, 15, str0, { (ringOn 10 0).setReg (RING_BASE_LO 10 16) 0x8000 |>.setB (ARB_REQ.LIVE 19) true |>.setB (ARB_REQ.PEND 19) true |>.set (RING_PI 10 16) 511 |>.set (CRING_CI 10 16) 300 with fen := { pkgs := [(7, pkg0)], streams := [(15, str0)] }, arb := { since := [(19, 8)] }, rings := [(10 * 32 + 16, { seq := 7 })] }, by unfold State.ready State.ringFree; decide⟩,
    ⟨0, { flags := 1, handle := 0x1400000F, tag := 9, args := 0 }, 15, { str0 with jobs := [job0] }, job0, { id := 4, opcode := 16, handle := 0x1400000F, tag := 77, irq := true, done := none }, { (ringOn 10 0).setReg (RING_BASE_LO 10 16) 0x8000 |>.setReg (CRING_BASE_LO 10 16) 0xC000 |>.setB (ARB_REQ.PEND 19) true |>.set (CRING_PI 10 16) 511 with fen := { pkgs := [(7, pkg0)], streams := [(15, { str0 with jobs := [job0] })] }, arb := { since := [(19, 8)] }, rings := [(10 * 32 + 16, { seq := 7, nextId := 5, taken := [{ id := 4, opcode := 16, handle := 0x1400000F, tag := 77, irq := true, done := none }] })] }, by unfold State.ready State.ringFree; decide⟩,
    ⟨7, pkg0, { quiet.setB (EVT_SRC_CFG.EN 196) true with fen := { pkgs := [(7, pkg0)] } }, by decide⟩,
    ⟨{ stream := 15, at0 := 0, start := 2400, stall := 0, section0 := [] }, { str0 with jobs := [job0], jseq := 0xFFFFFFFF }, job0, { id := 4, opcode := 16, handle := 0x1400000F, tag := 77, irq := true, done := none }, { (quiet.setReg (CRING_BASE_LO 10 16) 0xC000).setB (EVT_SRC_CFG.EN 196) true |>.setB (ARB_STAT.GRANTED 0) true |>.set (ARB_STAT.OWNER 0) 19 with fen := { pkgs := [(7, pkg0)], streams := [(15, { str0 with jobs := [job0], jseq := 0xFFFFFFFF })], run := some { stream := 15, at0 := 0, start := 2400, stall := 0, section0 := [] } }, rings := [(10 * 32 + 16, { seq := 7, nextId := 5, taken := [{ id := 4, opcode := 16, handle := 0x1400000F, tag := 77, irq := true, done := none }] })] }, by decide⟩,
    ⟨{ quiet.setB FEN_CTRL.ENABLE true |>.setB (FEN_STR.LIVE 15) true |>.setB (FEN_PKG.LOADED 7) true with fen := { pkgs := [(7, pkg0)], streams := [(15, { str0 with jobs := [job0] })] } }, by decide⟩⟩

/-- States and operands that meet the hypotheses of FenceJobsAskRunAndWriteTheirOutput, clause by clause. -/
theorem wit_FenceJobsAskRunAndWriteTheirOutput :
    (∃ (ring : Fin 17) (e : Entry) (x : Nat) (q : FenStream) (p : Pkg) (s : State), s.ready 0x0A ring.val 0 e ∧ s.strOnRing ring.val = some (x, q) ∧ s.pkg q.slot = some p ∧ q.kind = 0 ∧ q.jobs = [] ∧ (s.cmdOf 0x0A ring.val e).arg 24 8 % 64 = 0 ∧ s.inWins 0x0A ((s.cmdOf 0x0A ring.val e).arg 24 8) (64 + p.outBytes) = true ∧ s.inWins 0x0A ((s.cmdOf 0x0A ring.val e).arg 16 8) p.inBytes = true ∧ s.checkHandle 5 s.strLive e.handle.toNat = none ∧ hIndex e.handle.toNat = x ∧ tget s.arb.since q.req = none ∧ q.req < 20) ∧
    (∃ (ring : Fin 17) (e : Entry) (x : Nat) (q : FenStream) (p : Pkg) (s : State), s.ready 0x0A ring.val 0x0100 e ∧ s.strOnRing ring.val = some (x, q) ∧ s.pkg q.slot = some p ∧ q.kind = 0 ∧ bitAt e.flags.toNat 8 = true ∧ (s.cmdOf 0x0A ring.val e).arg 24 8 % 64 = 0 ∧ s.inWins 0x0A ((s.cmdOf 0x0A ring.val e).arg 24 8) (64 + p.outBytes) = true ∧ s.inWins 0x0A ((s.cmdOf 0x0A ring.val e).arg 16 8) p.inBytes = true ∧ s.checkHandle 5 s.strLive e.handle.toNat = none ∧ hIndex e.handle.toNat = x ∧ s.getB (ARB_CFG.FREEZE 0) = true) ∧
    (∃ (x : Fin 16) (q : FenStream) (j : FenJob) (rest : List FenJob) (s : State), tget s.fen.streams x.val = some q ∧ q.jobs = j :: rest ∧ j.ready = true ∧ tget s.arb.since q.req = none) ∧
    (∃ (i : Nat) (x : Nat) (q : FenStream) (p : Pkg) (j : FenJob) (rest : List FenJob) (s : State), s.getB (ARB_CFG.FREEZE 0) = false ∧ s.arb.newClass = [] ∧ s.arbGranted 0 = false ∧ s.arbBest 0 = some i ∧ (s.fen.streams.find? fun y => y.2.req = i) = some (x, q) ∧ s.pkg q.slot = some p ∧ q.jobs = j :: rest ∧ q.kind = 0 ∧ i < 20) ∧
    (∃ (x : Fin 16) (r : FenRun) (q : FenStream) (p : Pkg) (j : FenJob) (y : Taken) (s : State), s.fen.run = some r ∧ r.stream = x.val ∧ tget s.fen.streams x.val = some q ∧ q.jobs = [j] ∧ s.pkg q.slot = some p ∧ s.fenCommit = true ∧ p.fault = false ∧ q.kind = 0 ∧ j.frame = none ∧ s.fus.srcs = [] ∧ (s.ring 0x0A q.ring).taken = [y] ∧ y.id = j.id ∧ q.ring ≤ 16 ∧ ((j.outAddr + 64 + p.outBytes ≤ s.complAddr 0x0A q.ring ∨ s.complAddr 0x0A q.ring + 16 ≤ j.outAddr))) ∧
    (∃ (x : Fin 16) (r : FenRun) (q : FenStream) (p : Pkg) (j : FenJob) (y : Taken) (s : State), s.fen.run = some r ∧ r.stream = x.val ∧ tget s.fen.streams x.val = some q ∧ q.jobs = [j] ∧ s.pkg q.slot = some p ∧ s.fenCommit = true ∧ p.fault = true ∧ (s.ring 0x0A q.ring).taken = [y] ∧ y.id = j.id ∧ q.ring ≤ 16) :=
  ⟨⟨16, { flags := 1, handle := 0x1400000F, tag := 9, args := 0xDDD00000000000000050000000000009000000000000000800000 }, 15, str0, pkg0, { (ringOn 10 16).set (FEN_DWIN_SIZE.MIB 0) 4096 with ltc := 80, fen := { pkgs := [(7, pkg0)], streams := [(15, str0)] } }, by unfold State.ready State.ringFree; decide⟩,
    ⟨16, { flags := 257, handle := 0x1400000F, tag := 9, args := 0x9000000000000000800000 }, 15, str0, pkg0, { (ringOn 10 16).set (FEN_DWIN_SIZE.MIB 0) 4096 |>.setB (ARB_CFG.FREEZE 0) true with ltc := 80, fen := { pkgs := [(7, pkg0)], streams := [(15, str0)] } }, by unfold State.ready State.ringFree; decide⟩,
    ⟨15, { str0 with jobs := [job0] }, job0, [], { quiet with ltc := 80, fen := { pkgs := [(7, pkg0)], streams := [(15, { str0 with jobs := [job0] })] } }, by decide⟩,
    ⟨19, 15, { str0 with jobs := [{ job0 with input := none, grantLtc := none }] }, pkg0, { job0 with input := none, grantLtc := none }, [], { (quiet.setB (ARB_REQ.LIVE 19) true).setB (ARB_REQ.PEND 19) true |>.setLoaded 4 true with ltc := 80, fen := { pkgs := [(7, pkg0)], streams := [(15, { str0 with jobs := [{ job0 with input := none, grantLtc := none }] })], lastPkg := some 7 }, arb := { since := [(19, 8)] } }, by decide⟩,
    ⟨15, { stream := 15, at0 := 1000, start := 2400, stall := 0, section0 := [] }, { str0 with jobs := [job0], jseq := 0xFFFFFFFF }, pkg0, job0, { id := 4, opcode := 16, handle := 0x1400000F, tag := 77, irq := true, done := none }, { (quiet.setReg (CRING_BASE_LO 10 16) 0xC000).setB (ARB_STAT.GRANTED 0) true |>.set (ARB_STAT.OWNER 0) 19 with ltc := 4000, fen := { pkgs := [(7, pkg0)], streams := [(15, { str0 with jobs := [job0], jseq := 0xFFFFFFFF })], run := some { stream := 15, at0 := 1000, start := 2400, stall := 0, section0 := [] } }, rings := [(10 * 32 + 16, { seq := 7, nextId := 5, taken := [{ id := 4, opcode := 16, handle := 0x1400000F, tag := 77, irq := true, done := none }] })], arb := { since := [(19, 8)] } }, by decide⟩,
    ⟨15, { stream := 15, at0 := 1000, start := 2400, stall := 0, section0 := [] }, { str0 with jobs := [job0] }, { pkg0 with fault := true }, job0, { id := 4, opcode := 16, handle := 0x1400000F, tag := 77, irq := true, done := none }, { (quiet.setReg (CRING_BASE_LO 10 16) 0xC000).setB (ARB_STAT.GRANTED 0) true |>.set (ARB_STAT.OWNER 0) 19 with ltc := 4000, fen := { pkgs := [(7, { pkg0 with fault := true })], streams := [(15, { str0 with jobs := [job0] })], run := some { stream := 15, at0 := 1000, start := 2400, stall := 0, section0 := [] } }, rings := [(10 * 32 + 16, { seq := 7, nextId := 5, taken := [{ id := 4, opcode := 16, handle := 0x1400000F, tag := 77, irq := true, done := none }] })], arb := { since := [(19, 8)] } }, by decide⟩⟩

/-- States and operands that meet the hypotheses of ArbitersGrantRevokeFreezeAndStarveByClass, clause by clause. -/
theorem wit_ArbitersGrantRevokeFreezeAndStarveByClass :
    (∃ (a : Fin 2) (i : Nat) (s : State), s.getB (ARB_CFG.FREEZE a.val) = false ∧ s.arb.newClass = [] ∧ s.arbGranted a.val = false ∧ s.arbBest a.val = some i ∧ i ≠ 21 ∧ i < 24 ∧ (s.fen.streams.find? fun y => y.2.req = i) = none) ∧
    (∃ (i : Nat) (j : Nat) (s : State), s.getB (ARB_CFG.FREEZE 1) = false ∧ s.arb.newClass = [] ∧ s.arbGranted 1 = true ∧ s.arbOwner 1 = j ∧ ((j = 22 ∨ j = 23)) ∧ s.arbBest 1 = some i ∧ s.arbClass j < s.arbClass i ∧ i = 20) ∧
    (∃ (i : Nat) (j : Nat) (x : Nat) (y : Nat) (q : FenStream) (q2 : FenStream) (p : Pkg) (h : FenJob) (h2 : FenJob) (rest : List FenJob) (rest2 : List FenJob) (r : FenRun) (s : State), s.getB (ARB_CFG.FREEZE 0) = false ∧ s.arb.newClass = [] ∧ s.arbGranted 0 = true ∧ s.arbOwner 0 = j ∧ s.arbBest 0 = some i ∧ s.arbClass j < s.arbClass i ∧ i < 20 ∧ j < 20 ∧ i ≠ j ∧ s.fen.run = some r ∧ s.fenCommit = false ∧ r.stream = y ∧ x ≠ y ∧ tget s.fen.streams y = some q2 ∧ q2.req = j ∧ q2.jobs = h2 :: rest2 ∧ tsorted s.fen.streams = true ∧ ((∀ e ∈ s.fen.streams, e.2.req = i → e.1 = x)) ∧ tget s.fen.streams x = some q ∧ q.req = i ∧ s.pkg q.slot = some p ∧ q.jobs = h :: rest ∧ q.kind = 0) ∧
    (∃ (s : State), s.arb.newClass = [] ∧ s.arbGranted 0 = true ∧ s.get (ARB_STAT.CLASS 0) = s.arbClass (s.arbOwner 0) ∧ s.fenCommit = true) ∧
    (∃ (a : Fin 2) (s : State), s.getB (ARB_CFG.FREEZE a.val) = true) ∧
    (∃ (cm : Bool) (s : State), cm ≠ s.fenCommit) ∧
    (∃ (i : Fin 24) (t0 : Nat) (s : State), tget s.arb.since i.val = some t0 ∧ s.getB (ARB_REQ.LIVE i.val) = true ∧ tgetD s.arb.limit i.val 0 ≠ 0 ∧ tgetD s.arb.limit i.val 0 * 1000 < s.since t0 ∧ s.getB (ARB_REQ.STARVE i.val) = false) ∧
    (∃ (core : Fin 8) (value : Word) (s : State), bitAt value.toNat 31 = true ∧ tget s.arb.since 23 = none) ∧
    (∃ (core : Fin 8) (value : Word) (s : State), bitAt value.toNat 31 = false ∧ s.arbHolds 23 = true ∧ s.getB (ARB_CFG.FREEZE 1) = false) ∧
    (∃ (ring : Fin 1) (e : Entry) (i : Nat) (s : State), s.ready 0x0B ring.val 0 e ∧ (s.cmdOf 0x0B ring.val e).arg 16 1 ≤ 1 ∧ (s.cmdOf 0x0B ring.val e).arg 17 1 ≤ 3 ∧ (s.cmdOf 0x0B ring.val e).arg 18 1 ≤ 3 ∧ (((s.cmdOf 0x0B ring.val e).arg 16 1 = 0 ∧ (s.cmdOf 0x0B ring.val e).arg 18 1 = 0 ∧ ((List.range 20).find? fun j => !s.reqLive j) = some i ∨ (s.cmdOf 0x0B ring.val e).arg 16 1 = 1 ∧ i = 20 + (s.cmdOf 0x0B ring.val e).arg 18 1 ∧ s.reqLive i = false))) ∧
    (∃ (ring : Fin 1) (e : Entry) (i : Nat) (s : State), s.ready 0x0B ring.val 0 e ∧ s.checkHandle 0x0D s.reqLive e.handle.toNat = none ∧ hIndex e.handle.toNat = i ∧ s.reqBound i = false) ∧
    (∃ (ring : Fin 1) (e : Entry) (i : Nat) (s : State), s.ready 0x0B ring.val 0 e ∧ s.checkHandle 0x0D s.reqLive e.handle.toNat = none ∧ hIndex e.handle.toNat = i ∧ (s.cmdOf 0x0B ring.val e).arg 16 1 ≤ 3) ∧
    (∃ (i : Nat) (c : Nat) (l : Nat) (a : Fin 2) (s : State), s.getB (ARB_CFG.FREEZE a.val) = false ∧ s.arb.newClass = [(i, (c, l))] ∧ i ∈ arbIndices a.val ∧ c ≤ 3 ∧ s.arb.since = [] ∧ s.arbGranted a.val = false) :=
  ⟨⟨1, 23, { (quiet.setB (ARB_REQ.LIVE 23) true).setB (ARB_REQ.PEND 23) true |>.set (ARB_REQ.CLASS 23) 3 with ltc := 80, arb := { since := [(22, 8), (23, 8)] } }, by decide⟩,
    ⟨20, 23, { (quiet.setB (ARB_REQ.LIVE 20) true).set (ARB_REQ.CLASS 20) 3 |>.setB (ARB_REQ.PEND 20) true |>.setB (ARB_STAT.GRANTED 1) true |>.set (ARB_STAT.OWNER 1) 23 |>.setB ARB_HREQ.GRANT true |>.setB (EVT_SRC_CFG.EN 212) true with ltc := 80, arb := { since := [(20, 16), (23, 8)] } }, by decide⟩,
    ⟨2, 19, 3, 15, { str0 with ring := 4, req := 2, jobs := [{ job0 with input := none, grantLtc := none }] }, { str0 with jobs := [job0] }, pkg0, { job0 with input := none, grantLtc := none }, job0, [], [], { stream := 15, at0 := 1000, start := 2400, stall := 0, section0 := [] }, { (quiet.setB (ARB_REQ.LIVE 19) true).setB (ARB_REQ.LIVE 2) true |>.set (ARB_REQ.CLASS 2) 2 |>.setB (ARB_REQ.PEND 2) true |>.setB (ARB_STAT.GRANTED 0) true |>.set (ARB_STAT.OWNER 0) 19 |>.setLoaded 4 true |>.setB (EVT_SRC_CFG.EN 194) true with ltc := 1008, fen := { pkgs := [(7, pkg0)], streams := [(3, { str0 with ring := 4, req := 2, jobs := [{ job0 with input := none, grantLtc := none }] }), (15, { str0 with jobs := [job0] })], run := some { stream := 15, at0 := 1000, start := 2400, stall := 0, section0 := [] }, lastPkg := some 7 }, arb := { since := [(2, 1000), (19, 8)] } }, by decide⟩,
    ⟨{ (quiet.setB (ARB_REQ.LIVE 19) true).setB (ARB_REQ.LIVE 2) true |>.set (ARB_REQ.CLASS 2) 2 |>.setB (ARB_REQ.PEND 2) true |>.setB (ARB_STAT.GRANTED 0) true |>.set (ARB_STAT.OWNER 0) 19 |>.setLoaded 4 true with ltc := 9008, fen := { pkgs := [(7, pkg0)], streams := [(3, { str0 with ring := 4, req := 2, jobs := [job0] }), (15, { str0 with jobs := [job0] })], run := some { stream := 15, at0 := 1000, start := 2400, stall := 0, section0 := [] }, lastPkg := some 7 }, arb := { since := [(2, 1000), (19, 8)] } }, by decide⟩,
    ⟨1, { quiet.setB (ARB_CFG.FREEZE 1) true with arb := { since := [(23, 8)] } }, by decide⟩,
    ⟨true, quiet, by decide⟩,
    ⟨23, 8, { (quiet.setB (ARB_REQ.LIVE 23) true).setB (EVT_SRC_CFG.EN 209) true with ltc := 5016, arb := { since := [(23, 8)], limit := [(23, 5)] } }, by decide⟩,
    ⟨7, 0xA0000000, quiet.setB ARB_HREQ.REVOKED true, by decide⟩,
    ⟨7, 0, { quiet.setB ARB_HREQ.REQ true |>.setB ARB_HREQ.GRANT true |>.setB (ARB_STAT.GRANTED 1) true |>.set (ARB_STAT.OWNER 1) 23 with arb := { since := [(23, 8)], grantAt := [(1, 9)] } }, by decide⟩,
    ⟨0, { flags := 1, handle := 0, tag := 9, args := 0x0000006400030301 }, 23, ringOn 11 0, by unfold State.ready State.ringFree; decide⟩,
    ⟨0, { flags := 1, handle := 0x34000017, tag := 9, args := 0 }, 23, { ringOn 11 0 |>.setB (ARB_REQ.LIVE 23) true with arb := { limit := [(23, 9)] } }, by unfold State.ready State.ringFree; decide⟩,
    ⟨0, { flags := 1, handle := 0x34000017, tag := 9, args := 0x0000006400000003 }, 23, ringOn 11 0 |>.setB (ARB_REQ.LIVE 23) true, by unfold State.ready State.ringFree; decide⟩,
    ⟨23, 3, 7, 1, { quiet with arb := { newClass := [(23, (3, 7))] } }, by decide⟩⟩

/-- States and operands that meet the hypotheses of CanvasSourcesTakeContributionsByTheirStamp, clause by clause. -/
theorem wit_CanvasSourcesTakeContributionsByTheirStamp :
    (∃ (ring : Fin 1) (e : Entry) (x : Nat) (kind : Nat) (feed : Nat) (order : Nat) (iclass : Nat) (weight : Nat) (opt : Nat) (lb : Nat) (link : Nat) (maxp : Nat) (s : State), s.ready 0x0C ring.val 0 e ∧ tfree s.fus.srcs 24 = some x ∧ (s.cmdOf 0x0C ring.val e).arg 16 1 = kind ∧ (s.cmdOf 0x0C ring.val e).arg 17 1 = feed ∧ (s.cmdOf 0x0C ring.val e).arg 18 1 = order ∧ (s.cmdOf 0x0C ring.val e).arg 19 1 = iclass ∧ (s.cmdOf 0x0C ring.val e).arg 20 1 = weight ∧ (s.cmdOf 0x0C ring.val e).arg 21 1 = opt ∧ (s.cmdOf 0x0C ring.val e).arg 22 2 = lb ∧ (s.cmdOf 0x0C ring.val e).arg 24 4 = link ∧ (s.cmdOf 0x0C ring.val e).arg 28 4 = 0 ∧ (s.cmdOf 0x0C ring.val e).arg 32 4 = maxp ∧ ((kind = 4 ∧ feed = 1 ∧ link = 0 ∨ feed = 0 ∧ (kind = 1 ∨ kind = 3 ∨ kind = 5) ∧ link = 0 ∨ feed = 0 ∧ kind = 2 ∧ link ≤ 7 ∨ feed = 1 ∧ (kind = 2 ∨ kind = 6) ∧ link ≤ 7 ∧ s.busy 7 = false ∧ s.loaded 7 = true)) ∧ order ≤ 23 ∧ iclass ≤ 3 ∧ ((kind = 3 ∨ kind = 4 ∨ kind = 5 ∨ weight ≠ 0)) ∧ opt ≤ 3 ∧ ((kind = 1 ∨ kind = 2 ∨ kind = 6 ∨ opt = 0)) ∧ 1 ≤ lb ∧ lb ≤ 1000 ∧ maxp ≤ 262144 ∧ (s.fus.srcs.any fun f => decide (f.2.order = order)) = false ∧ (s.fus.srcs.any fun f => decide (feed = 1) && f.2.feed = 1 && f.2.kind = kind && (f.2.link = link || kind = 4)) = false ∧ lb * 1000000 < s.fusW + s.fusD) ∧
    (∃ (ring : Fin 1) (e : Entry) (x : Nat) (p : Nat) (v : FusSrc) (s : State), s.ready 0x0C ring.val 0 e ∧ tfree s.fus.srcs 24 = some x ∧ (s.cmdOf 0x0C ring.val e).arg 16 1 = 3 ∧ (s.cmdOf 0x0C ring.val e).arg 17 1 = 0 ∧ (s.cmdOf 0x0C ring.val e).arg 18 1 ≤ 23 ∧ (s.cmdOf 0x0C ring.val e).arg 19 1 ≤ 3 ∧ (s.cmdOf 0x0C ring.val e).arg 21 1 = 0 ∧ 1 ≤ (s.cmdOf 0x0C ring.val e).arg 22 2 ∧ (s.cmdOf 0x0C ring.val e).arg 22 2 ≤ 1000 ∧ (s.cmdOf 0x0C ring.val e).arg 24 4 = 0 ∧ (s.cmdOf 0x0C ring.val e).arg 28 4 = 0 ∧ (s.cmdOf 0x0C ring.val e).arg 32 4 ≤ 262144 ∧ s.fus.srcs = [(p, v)] ∧ v.order = (s.cmdOf 0x0C ring.val e).arg 18 1) ∧
    (∃ (ring : Fin 1) (e : Entry) (x : Nat) (s : State), s.ready 0x0C ring.val 0 e ∧ s.checkHandle 6 s.fusLive e.handle.toNat = none ∧ hIndex e.handle.toNat = x) ∧
    (∃ (ring : Fin 1) (e : Entry) (x : Nat) (a : Nat) (n : Nat) (tov : Nat) (v : FusSrc) (s : State), s.ready 0x0C ring.val 0 e ∧ s.checkHandle 6 s.fusLive e.handle.toNat = none ∧ hIndex e.handle.toNat = x ∧ s.fusSrc x = some v ∧ v.grid = true ∧ v.feed = 0 ∧ (s.cmdOf 0x0C ring.val e).arg 16 8 = a ∧ a % 64 = 0 ∧ s.inWins 0x0C a 64 = true ∧ s.dramN a 4 = n ∧ s.inWins 0x0C a (64 + 48 * n) = true ∧ n ≤ v.maxPts ∧ s.dramN (a + 8) 8 = tov ∧ s.isFuture tov = false ∧ ((s.fusOpen tov = true ∨ s.fusAhead tov = true)) ∧ s.fusLate tov = false ∧ s.now ≤ tov + v.lb * 1000000) ∧
    (∃ (ring : Fin 1) (e : Entry) (x : Nat) (a : Nat) (n : Nat) (tov : Nat) (l : Nat) (v : FusSrc) (s : State), s.ready 0x0C ring.val 0 e ∧ s.checkHandle 6 s.fusLive e.handle.toNat = none ∧ hIndex e.handle.toNat = x ∧ s.fusSrc x = some v ∧ v.grid = true ∧ v.feed = 0 ∧ (s.cmdOf 0x0C ring.val e).arg 16 8 = a ∧ a % 64 = 0 ∧ s.inWins 0x0C a 64 = true ∧ s.dramN a 4 = n ∧ s.inWins 0x0C a (64 + 48 * n) = true ∧ n ≤ v.maxPts ∧ s.dramN (a + 8) 8 = tov ∧ s.isFuture tov = false ∧ s.fusOpen tov = false ∧ s.fusAhead tov = false ∧ s.fusNewest = some l ∧ tov + s.fusW ≤ l ∧ s.fusLate tov = true ∧ s.now ≤ tov + v.lb * 1000000 ∧ s.getB (FUS_S_STAT.LATE_F x) = false ∧ s.reg SYS_DET_STATUS = 0#32) ∧
    (∃ (ring : Fin 1) (e : Entry) (x : Nat) (a : Nat) (tov : Nat) (v : FusSrc) (s : State), s.ready 0x0C ring.val 0 e ∧ s.checkHandle 6 s.fusLive e.handle.toNat = none ∧ hIndex e.handle.toNat = x ∧ s.fusSrc x = some v ∧ v.kind = 3 ∧ v.feed = 0 ∧ (s.cmdOf 0x0C ring.val e).arg 16 8 = a ∧ a % 64 = 0 ∧ s.inWins 0x0C a 64 = true ∧ s.dramN a 1 = 1 ∧ s.dramN (a + 1) 1 % 4 = 3 ∧ s.dramN (a + 8) 8 = tov ∧ s.isFuture tov = false ∧ s.fus.insts = [] ∧ s.now ≤ tov + v.lb * 1000000) ∧
    (∃ (ring : Fin 1) (e : Entry) (x : Nat) (a : Nat) (tov : Nat) (v : FusSrc) (s : State), s.ready 0x0C ring.val 0 e ∧ s.checkHandle 6 s.fusLive e.handle.toNat = none ∧ hIndex e.handle.toNat = x ∧ s.fusSrc x = some v ∧ v.kind = 3 ∧ v.feed = 0 ∧ (s.cmdOf 0x0C ring.val e).arg 16 8 = a ∧ a % 64 = 0 ∧ s.inWins 0x0C a 64 = true ∧ s.dramN a 1 = 1 ∧ s.dramN (a + 8) 8 = tov ∧ s.now + 1000000000 < tov ∧ s.getB (FUS_S_STAT.FUT_F x) = false) ∧
    (∃ (f : FusFeed) (rest : List FusFeed) (x : Nat) (v : FusSrc) (tov : Nat) (s : State), s.fus.inbox = f :: rest ∧ s.fedSource f.kind f.link = some (x, v) ∧ s.fusSrc x = some v ∧ s.dramN f.addr 4 ≤ v.maxPts ∧ (match f.tov with | some u => fromSigned 64 ((u : Int) + v.tovOfs) | none => s.dramN (f.addr + 8) 8) = tov ∧ s.isFuture tov = false ∧ s.fus.insts = [] ∧ s.now ≤ tov + v.lb * 1000000) ∧
    (∃ (f : FusFeed) (rest : List FusFeed) (x : Nat) (v : FusSrc) (s : State), s.fus.inbox = f :: rest ∧ s.fedSource f.kind f.link = some (x, v) ∧ v.maxPts < s.dramN f.addr 4 ∧ s.getB (FUS_S_STAT.UNUSED_F x) = false) ∧
    (∃ (gx : BitVec 16) (gy : BitVec 16) (gz : BitVec 16) (ax : BitVec 16) (ay : BitVec 16) (az : BitVec 16) (s : State), s.loaded 5 = true ∧ (s.fus.imuAt.any fun x => decide (s.now / 1000000 * 1000000 ≤ x)) = false ∧ (s.fus.srcs.find? fun e => decide (e.2.kind = 4)) = none) ∧
    (∃ (gx : BitVec 16) (gy : BitVec 16) (gz : BitVec 16) (ax : BitVec 16) (ay : BitVec 16) (az : BitVec 16) (x : Nat) (v : FusSrc) (w : Int) (s : State), s.loaded 5 = true ∧ s.fus.imuAt = none ∧ (s.fus.srcs.find? fun e => decide (e.2.kind = 4)) = some (x, v) ∧ s.fusSrc x = some v ∧ s.fus.insts = [] ∧ w = (((s.calOf x).at 6 * gx.toInt + (s.calOf x).at 7 * gy.toInt + (s.calOf x).at 8 * gz.toInt) * 1000).fdiv (32768 * 360) ∧ -2147483648 ≤ w ∧ w < 2147483648 ∧ s.now ≤ s.now / 1000000 * 1000000 + v.lb * 1000000 ∧ s.now < 2 ^ 64) ∧
    (∃ (core : Fin 8) (x : Fin 24) (value : Word) (s : State), s.closed (FUS_S_CAL_CTRL x.val) = false ∧ s.fusLive x.val = true ∧ bitAt value.toNat 31 = true) ∧
    (∃ (core : Fin 8) (x : Fin 24) (v : FusSrc) (value : Word) (s : State), s.closed (FUS_S_VOTE x.val) = false ∧ s.fusSrc x.val = some v ∧ v.grid = true ∧ bitAt value.toNat 31 = true) ∧
    (∃ (s : State), s.getB FUS_CTRL.ENABLE = true) :=
  ⟨⟨0, { flags := 1, handle := 0, tag := 9, args := 0x40000000000000000000700c803ff02170102 }, 0, 2, 1, 23, 2, 255, 3, 200, 7, 0x40000, { ((ringOn 12 0).setLoaded 7 true).setReg (FUS_S_CNT 0) 7 |>.set FUS_INST_CFG.W_MS 150 |>.set FUS_INST_CFG.D_MS 51 with fus := { srcs := [(23, src0)] } }, by unfold State.ready State.ringFree; decide⟩,
    ⟨0, { flags := 1, handle := 0, tag := 9, args := 0xc8000000000003 }, 0, 5, src0, { (ringOn 12 0) with fus := { srcs := [(5, src0)] } }, by unfold State.ready State.ringFree; decide⟩,
    ⟨0, { flags := 1, handle := 0x18000017, tag := 9, args := 0 }, 23, { (ringOn 12 0).setB (FUS_S_STAT.LIVE 23) true with fus := { srcs := [(5, src0), (23, src0)], motion := [{ src := 23, tov := 0, at0 := 0, v := none, w := none }, { src := 5, tov := 0, at0 := 0, v := none, w := none }] } }, by unfold State.ready State.ringFree; decide⟩,
    ⟨0, { flags := 1, handle := 0x18000017, tag := 9, args := 0x8000 }, 23, 0x8000, 1, 0x0102, { src0 with kind := 1 }, { (ringOn 12 0).set (FUS_DWIN_SIZE.MIB 3) 1 with ltc := 800, dram := [(0x8000, 1), (0x8008, 2), (0x8009, 1), (0x8040, 7)], fus := { srcs := [(23, { src0 with kind := 1 })] } }, by unfold State.ready State.ringFree; decide⟩,
    ⟨0, { flags := 1, handle := 0x18000017, tag := 9, args := 0x8000 }, 23, 0x8000, 1, 0x0102, 60000000, { src0 with kind := 1, lb := 100 }, { (ringOn 12 0).set (FUS_DWIN_SIZE.MIB 3) 1 |>.setB (EVT_SRC_CFG.EN 219) true |>.set FUS_INST_CFG.W_MS 50 with ltc := 80000000, dram := [(0x8000, 1), (0x8008, 2), (0x8009, 1), (0x8040, 7)], fus := { srcs := [(23, { src0 with kind := 1, lb := 100 })], insts := [(0x0105, 0), (60000000, 1)], closed := 1 } }, by unfold State.ready State.ringFree; decide⟩,
    ⟨0, { flags := 1, handle := 0x18000017, tag := 9, args := 0x8000 }, 23, 0x8000, 0x0102, { src0 with kind := 3 }, { (ringOn 12 0).set (FUS_DWIN_SIZE.MIB 3) 1 with ltc := 800, dram := [(0x8000, 1), (0x8001, 3), (0x8008, 2), (0x8009, 1), (0x8010, 255), (0x8011, 255), (0x8012, 255), (0x8013, 255), (0x8014, 7)], fus := { srcs := [(23, { src0 with kind := 3 })] } }, by unfold State.ready State.ringFree; decide⟩,
    ⟨0, { flags := 1, handle := 0x18000017, tag := 9, args := 0x8000 }, 23, 0x8000, 0x01000000000000, { src0 with kind := 3 }, { (ringOn 12 0).set (FUS_DWIN_SIZE.MIB 3) 1 |>.setB (EVT_SRC_CFG.EN 225) true with ltc := 800, dram := [(0x8000, 1), (0x800E, 1)], fus := { srcs := [(23, { src0 with kind := 3 })] } }, by unfold State.ready State.ringFree; decide⟩,
    ⟨{ kind := 1, link := 5, addr := 0x8000, tov := some 1000 }, [], 23, { src0 with kind := 1, feed := 1, link := 5, tovOfs := -10 }, 990, { quiet with ltc := 800, dram := [(0x8000, 1), (0x8040, 7)], fus := { inbox := [{ kind := 1, link := 5, addr := 0x8000, tov := some 1000 }], srcs := [(23, { src0 with kind := 1, feed := 1, link := 5, tovOfs := -10 })] } }, by decide⟩,
    ⟨{ kind := 2, link := 5, addr := 0x8000, tov := none }, [], 23, { src0 with kind := 2, feed := 1, link := 5 }, { quiet.setB (EVT_SRC_CFG.EN 224) true with ltc := 800, dram := [(0x8000, 65)], fus := { inbox := [{ kind := 2, link := 5, addr := 0x8000, tov := none }], srcs := [(23, { src0 with kind := 2, feed := 1, link := 5 })] } }, by decide⟩,
    ⟨0xFFFF, 2, 3, 4, 5, 0x8000, { quiet.setLoaded 5 true with ltc := 5000000999999, fus := { imuAt := some 4999999000000 } }, by decide⟩,
    ⟨0xFFFF, 2, 0x8000, 4, 5, 0x8000, 23, { src0 with kind := 4, lb := 5 }, (-8334), { (quiet.setLoaded 5 true).setReg (FUS_S_CAL 23 6) 0 |>.setReg (FUS_S_CAL 23 8) 3000 with ltc := 5000000999999, fus := { srcs := [(23, { src0 with kind := 4, lb := 5 })] } }, by decide⟩,
    ⟨7, 23, 0x80000000, { quiet with fus := { srcs := [(23, src0)] } }, by decide⟩,
    ⟨7, 23, { src0 with kind := 6 }, 0x80000000, { quiet with fus := { srcs := [(23, { src0 with kind := 6 })] } }, by decide⟩,
    ⟨{ quiet.setB FUS_CTRL.ENABLE true |>.setB FUS_STATUS.RUN true |>.setB (FUS_S_STAT.LIVE 23) true |>.set FUS_STATUS.SOURCES 1 with fus := { srcs := [(23, src0)], imuAt := some 8 } }, by decide⟩⟩

/-- States and operands that meet the hypotheses of CanvasInstantsAreTakenClosedAndPublished, clause by clause. -/
theorem wit_CanvasInstantsAreTakenClosedAndPublished :
    (∃ (s : State), s.fusOn = true ∧ s.fus.lastNom < s.fusNumber s.mtNow ∧ s.fus.bodies = []) ∧
    (∃ (s : State), s.fusOn = true ∧ s.fusNumber s.mtNow ≤ s.fus.lastNom) ∧
    (∃ (l : Nat) (m : Int) (s : State), s.fus.insts[s.fus.closed]? = some (l, m) ∧ s.enabled 0x0C = true ∧ l + s.fusD ≤ s.now ∧ s.fus.srcs = [] ∧ s.fus.bodies = [] ∧ s.fus.motion = []) ∧
    (∃ (l : Nat) (x : Nat) (m : Int) (v : FusSrc) (s : State), s.fus.insts[s.fus.closed]? = some (l, m) ∧ s.enabled 0x0C = true ∧ l + s.fusD ≤ s.now ∧ s.fus.srcs = [(x, v)] ∧ v.grid = false ∧ s.fus.bodies = [] ∧ s.getB (FUS_S_CAL_CTRL.PEND x) = true) ∧
    (∃ (p : FusPub) (rest : List FusPub) (s : State), s.fus.pubs = p :: rest ∧ p.started = false) ∧
    (∃ (p : FusPub) (rest : List FusPub) (pl : List Byte) (s : State), s.fus.pubs = p :: rest ∧ p.started = true ∧ s.reg FUS_HEAD = 0#32 ∧ (if p.n = 0 then [] else memBytes s.dram (s.fusBuf (s.fusBufOf (p.n - 1))) s.fusGrid.bufLen) = p.prev ∧ planes s.fusGrid (p.n = 0) p.decay p.pose p.cells p.tiles p.prev = pl ∧ ((s.fus.insts[p.n + 1]?).any fun i => decide (i.1 + s.fusD < s.now)) = false ∧ s.fusRecFill < s.fusRecMod / 2 ∧ ((s.get64 FUS_REC_BASE_LO FUS_REC_BASE_HI + 64 * (s.get FUS_REC_PI.PI % (s.fusRecMod / 2)) + 64 ≤ s.fusBuf (s.fusBufOf p.n) ∨ s.fusBuf (s.fusBufOf p.n) + pl.length ≤ s.get64 FUS_REC_BASE_LO FUS_REC_BASE_HI + 64 * (s.get FUS_REC_PI.PI % (s.fusRecMod / 2)))) ∧ p.l < 2 ^ 64) ∧
    (∃ (p : FusPub) (rest : List FusPub) (pl : List Byte) (s : State), s.fus.pubs = p :: rest ∧ p.started = true ∧ s.reg FUS_HEAD = 0#32 ∧ (if p.n = 0 then [] else memBytes s.dram (s.fusBuf (s.fusBufOf (p.n - 1))) s.fusGrid.bufLen) = p.prev ∧ planes s.fusGrid (p.n = 0) p.decay p.pose p.cells p.tiles p.prev = pl ∧ s.fusRecMod / 2 ≤ s.fusRecFill) :=
  ⟨⟨{ (quiet.setB (enableFld 12) true).setB FUS_STATUS.RUN true |>.set FUS_INST_CFG.P_MS 50 with ltc := 8000, fus := { lastNom := -7 } }, by decide⟩,
    ⟨{ (quiet.setB (enableFld 12) true).setB FUS_STATUS.RUN true |>.set FUS_INST_CFG.P_MS 50 with ltc := 8000, fus := { lastNom := 7 } }, by decide⟩,
    ⟨1000, -50, { (quiet.setB (enableFld 12) true).set FUS_INST_CFG.D_MS 5 |>.set FUS_CARRY.DECAY 7 with ltc := 5001000, img := [(FUS_GRID_CAP, 0x19010020)], fus := { insts := [(500, -100), (1000, -50)], closed := 1, skipped := 70000, back := true } }, by decide⟩,
    ⟨1000, 23, -50, { src0 with kind := 3 }, { (quiet.setB (enableFld 12) true).set FUS_INST_CFG.D_MS 5 |>.setB (FUS_S_CAL_CTRL.PEND 23) true |>.setReg (FUS_S_CALN 23 11) 7 |>.set (FUS_S_CALV.CALV 23) 65535 with ltc := 5001000, fus := { insts := [(1000, -50)], srcs := [(23, { src0 with kind := 3 })] } }, by decide⟩,
    ⟨pub0, [], { quiet with fus := { pubs := [pub0] } }, by decide⟩,
    ⟨{ pub0 with started := true }, [], [], { quiet.set FUS_REC_CFG.RLEN 6 |>.set FUS_REC_PI.PI 127 |>.set FUS_REC_CI.CI 64 |>.setReg FUS_REC_BASE_LO 0x10000 |>.setReg FUS_CV_BASE_LO 0x100000 |>.set FUS_CV_CFG.NBUF 3 |>.setB (EVT_SRC_CFG.EN 217) true |>.setB (EVT_SRC_CFG.EN 228) true with ltc := 8000, fus := { pubs := [{ pub0 with started := true }], gap := true } }, by decide⟩,
    ⟨{ pub0 with started := true }, [], [], { quiet.set FUS_REC_CFG.RLEN 6 |>.set FUS_REC_PI.PI 127 |>.set FUS_REC_CI.CI 63 |>.setReg FUS_REC_BASE_LO 0x10000 |>.setReg FUS_CV_BASE_LO 0x100000 |>.set FUS_CV_CFG.NBUF 3 |>.setB (EVT_SRC_CFG.EN 218) true with ltc := 8000, fus := { pubs := [{ pub0 with started := true }] } }, by decide⟩⟩

/-- States and operands that meet the hypotheses of YieldWindowsTilesAndLayersFollowChapter19, clause by clause. -/
theorem wit_YieldWindowsTilesAndLayersFollowChapter19 :
    (∃ (e : Nat) (w : Nat) (f : FlowWin) (x : Nat) (s : State), s.enabled 0x0D = true ∧ s.yld.nextE = some e ∧ e + s.get YLD_CFG.CD_MS * 1000000 ≤ s.now ∧ (s.inp.flowQ.find? fun g => decide (g.endLtc = e)) = some f ∧ s.loaded 0 = true ∧ s.getB YLD_MOIST_CFG.MODE = false ∧ s.yld.poses = [] ∧ s.yld.layers = [] ∧ (∀ n ∈ List.range 8, s.getB (YLD_LOSS.EN n) = false) ∧ s.get YLD_HDR_CFG.WMODE = 0 ∧ s.arbHolds 21 = false ∧ f.valid = true ∧ F.mul (F.mul f.flow (F.ofNat 10000)) (s.reg YLD_CAL).toNat = x ∧ F.isNan x = false ∧ F.isInf x = false ∧ (if (F.parts x).1 < 0 then 0 else min 2147483647 (if 0 ≤ (F.parts x).2 then (F.parts x).1.natAbs * 2 ^ (F.parts x).2.toNat else F.rneShift (F.parts x).1.natAbs (-(F.parts x).2).toNat false)) = w) ∧
    (∃ (e : Nat) (s : State), s.enabled 0x0D = true ∧ s.yld.nextE = some e ∧ e + s.get YLD_CFG.CD_MS * 1000000 ≤ s.now ∧ (s.inp.flowQ.find? fun g => decide (g.endLtc = e)) = none ∧ s.yld.flow = none ∧ s.getB YLD_MOIST_CFG.MODE = false ∧ s.yld.poses = [] ∧ s.yld.layers = [] ∧ (∀ n ∈ List.range 8, s.getB (YLD_LOSS.EN n) = false) ∧ s.get YLD_HDR_CFG.WMODE = 0 ∧ s.arbHolds 21 = false ∧ s.reg SYS_DET_STATUS = 0#32) ∧
    (∃ (e : Nat) (w : Nat) (m : Nat) (f : FlowWin) (a : YldPose) (l : Nat) (v : YldLayer) (x : Nat) (k : Nat) (s : State), s.enabled 0x0D = true ∧ s.yld.nextE = some e ∧ e + s.get YLD_CFG.CD_MS * 1000000 ≤ s.now ∧ (s.inp.flowQ.find? fun g => decide (g.endLtc = e)) = some f ∧ s.loaded 0 = true ∧ s.getB YLD_MOIST_CFG.MODE = false ∧ s.yld.poses = [a] ∧ a.tov ≤ s.yldP e ∧ a.at0 < e + s.get YLD_CFG.CD_MS * 1000000 ∧ s.yld.layers = [(l, v)] ∧ v.tiles = [] ∧ v.waits = [] ∧ 2 ≤ v.nslot ∧ (∀ n ∈ List.range 8, s.getB (YLD_LOSS.EN n) = false) ∧ s.get YLD_HDR_CFG.WMODE = 0 ∧ 1 ≤ s.get YLD_HDR_CFG.HDR_W ∧ s.get YLD_HDR_CFG.HDR_W ≤ v.cellMm ∧ s.arbHolds 21 = false ∧ f.valid = true ∧ F.mul (F.mul f.flow (F.ofNat 10000)) (s.reg YLD_CAL).toNat = x ∧ F.isNan x = false ∧ F.isInf x = false ∧ (if (F.parts x).1 < 0 then 0 else min 2147483647 (if 0 ≤ (F.parts x).2 then (F.parts x).1.natAbs * 2 ^ (F.parts x).2.toNat else F.rneShift (F.parts x).1.natAbs (-(F.parts x).2).toNat false)) = w ∧ min 10000 (s.get YLD_MOIST_CFG.FIX) = m ∧ (floorDivNat a.n v.cellMm % 64).toNat * 64 + (floorDivNat a.e v.cellMm % 64).toNat = k) ∧
    (∃ (l : Nat) (n : Nat) (v : YldLayer) (q : YldTile) (s : State), s.enabled 0x0D = true ∧ s.arbHolds 21 = true ∧ s.yld.layers = [(l, v)] ∧ v.tiles = [q] ∧ q.closed = some n ∧ v.waits = [] ∧ v.wpos + 1 < v.slots ∧ s.getB (ARB_CFG.FREEZE 1) = false ∧ l < 8) ∧
    (∃ (ring : Fin 1) (e : Entry) (x : Nat) (cell : Nat) (ns : Nat) (cache : Nat) (lba : Nat) (slots : Nat) (s : State), s.ready 0x0D ring.val 0 e ∧ tfree s.yld.layers 8 = some x ∧ (s.cmdOf 0x0D ring.val e).arg 16 2 = cell ∧ (s.cmdOf 0x0D ring.val e).arg 18 2 = ns ∧ (s.cmdOf 0x0D ring.val e).arg 24 8 = cache ∧ (s.cmdOf 0x0D ring.val e).arg 32 8 = lba ∧ (s.cmdOf 0x0D ring.val e).arg 40 4 = slots ∧ 250 ≤ cell ∧ cell ≤ 10000 ∧ 2 ≤ ns ∧ ns ≤ 64 ∧ cache % 4096 = 0 ∧ s.inWins 0x0D cache (ns * 102400) = true ∧ 1 ≤ slots ∧ slots ≤ 16777216 ∧ (s.yld.layers.any fun d => overlaps (lba, 25 * slots) (d.2.lba, 25 * d.2.slots)) = false) ∧
    (∃ (ring : Fin 1) (e : Entry) (x : Nat) (v : YldLayer) (s : State), s.ready 0x0D ring.val 0 e ∧ s.checkHandle 0x0C s.yldLive e.handle.toNat = none ∧ hIndex e.handle.toNat = x ∧ s.yldLayer x = some v) ∧
    (∃ (ring : Fin 1) (e : Entry) (x : Nat) (v : YldLayer) (s : State), s.ready 0x0D ring.val 0 e ∧ s.checkHandle 0x0C s.yldLive e.handle.toNat = none ∧ hIndex e.handle.toNat = x ∧ s.yldLayer x = some v ∧ v.waits = []) ∧
    (∃ (ring : Fin 1) (e : Entry) (p : YldPose) (s : State), s.ready 0x0D ring.val 0 e ∧ (s.cmdOf 0x0D ring.val e).arg 16 8 = p.tov ∧ toSigned 64 ((s.cmdOf 0x0D ring.val e).arg 24 8) = p.e ∧ toSigned 64 ((s.cmdOf 0x0D ring.val e).arg 32 8) = p.n ∧ (s.cmdOf 0x0D ring.val e).arg 40 4 = p.psi ∧ (s.cmdOf 0x0D ring.val e).arg 44 4 = p.v ∧ p.at0 = s.now ∧ p.tov ≤ s.now ∧ (s.yld.poses.any fun q => decide (p.tov ≤ q.tov)) = false ∧ (s.yldDue.any fun c => decide (p.tov ≤ s.yldP c)) = false) ∧
    (∃ (ring : Fin 1) (e : Entry) (p : YldPose) (c : Nat) (s : State), s.ready 0x0D ring.val 0 e ∧ (s.cmdOf 0x0D ring.val e).arg 16 8 = p.tov ∧ toSigned 64 ((s.cmdOf 0x0D ring.val e).arg 24 8) = p.e ∧ toSigned 64 ((s.cmdOf 0x0D ring.val e).arg 32 8) = p.n ∧ (s.cmdOf 0x0D ring.val e).arg 40 4 = p.psi ∧ (s.cmdOf 0x0D ring.val e).arg 44 4 = p.v ∧ p.at0 = s.now ∧ p.tov ≤ s.now ∧ (s.yld.poses.any fun q => decide (p.tov ≤ q.tov)) = false ∧ s.yldDue = some c ∧ p.tov ≤ s.yldP c ∧ s.reg SYS_DET_STATUS = 0#32) ∧
    (∃ (ring : Fin 1) (e : Entry) (s : State), s.ready 0x0D ring.val 0 e ∧ ((s.now < (s.cmdOf 0x0D ring.val e).arg 16 8 ∨ (s.yld.poses.any fun q => decide ((s.cmdOf 0x0D ring.val e).arg 16 8 ≤ q.tov)) = true))) ∧
    (∃ (s : State), s.getB YLD_CTRL.ENABLE = true) :=
  ⟨⟨20000000000, 20000, flow0, 0x469C4000, { ((quiet.setB (enableFld 13) true).setLoaded 0 true).set YLD_CFG.CD_MS 100 |>.setReg YLD_CAL 0x3F800000 |>.setB (EVT_SRC_CFG.EN 245) true with ltc := 20100000000, inp := { flowQ := [flow0] }, yld := { nextE := some 20000000000, unmapMg := 985000 } }, by decide⟩,
    ⟨20000000000, { ((quiet.setB (enableFld 13) true).setLoaded 0 true).set YLD_CFG.CD_MS 100 |>.setB (EVT_SRC_CFG.EN 242) true with ltc := 20100000000, yld := { nextE := some 20000000000 } }, by decide⟩,
    ⟨20000000000, 20000, 1400, flow0, { tov := 9000000000, e := -1, n := 330000, psi := 5, v := 3000, at0 := 0 }, 7, layer0, 0x469C4000, 191, { ((quiet.setB (enableFld 13) true).setLoaded 0 true).set YLD_CFG.CD_MS 100 |>.set YLD_CFG.TD_MS 10000 |>.set YLD_MOIST_CFG.FIX 1400 |>.set YLD_HDR_CFG.HDR_W 5000 |>.setReg YLD_CAL 0x3F800000 with ltc := 20100000000, inp := { flowQ := [flow0] }, yld := { nextE := some 20000000000, poses := [{ tov := 9000000000, e := -1, n := 330000, psi := 5, v := 3000, at0 := 0 }], layers := [(7, layer0)] } }, by decide⟩,
    ⟨7, 0, { layer0 with tiles := [tile0], wpos := 3, tseq := 0xFFFFFFFF }, tile0, { (quiet.setB (enableFld 13) true).setB (ARB_STAT.GRANTED 1) true |>.set (ARB_STAT.OWNER 1) 21 |>.setB (EVT_SRC_CFG.EN 241) true with ltc := 20, yld := { layers := [(7, { layer0 with tiles := [tile0], wpos := 3, tseq := 0xFFFFFFFF })] }, dram := [(0x100000 + 102400 + 64, 7)] }, by decide⟩,
    ⟨0, { flags := 1, handle := 0, tag := 9, args := 0xa0000000000030d4000000000002000000000004d00022710 }, 0, 10000, 2, 0x200000, 200000, 10, { (ringOn 13 0).set (YLD_DWIN_SIZE.MIB 1) 3 with yld := { layers := [(7, { layer0 with lba := 199750 })] } }, by unfold State.ready State.ringFree; decide⟩,
    ⟨0, { flags := 1, handle := 0x30000007, tag := 9, args := 0 }, 7, layer0, { (ringOn 13 0) with yld := { layers := [(7, layer0)] } }, by unfold State.ready State.ringFree; decide⟩,
    ⟨0, { flags := 1, handle := 0x30000007, tag := 9, args := 0 }, 7, layer0, { (ringOn 13 0) with yld := { layers := [(7, layer0)] } }, by unfold State.ready State.ringFree; decide⟩,
    ⟨0, { flags := 1, handle := 0, tag := 9, args := 0xbb8000000050000000000050910ffffffffffffffff0000000218711a00 }, { tov := 9000000000, e := -1, n := 330000, psi := 5, v := 3000, at0 := 9000000000 }, { (ringOn 13 0) with ltc := 9000000000, yld := { poses := [{ tov := 8000000000, e := 0, n := 0, psi := 0, v := 0, at0 := 0 }] } }, by unfold State.ready State.ringFree; decide⟩,
    ⟨0, { flags := 1, handle := 0, tag := 9, args := 0xbb8000000050000000000050910ffffffffffffffff0000000218711a00 }, { tov := 9000000000, e := -1, n := 330000, psi := 5, v := 3000, at0 := 29000000000 }, 20000000000, { (ringOn 13 0).set YLD_CFG.TD_MS 10000 |>.set YLD_CFG.CD_MS 100 |>.setB (EVT_SRC_CFG.EN 242) true with ltc := 29000000000, yld := { poses := [], lastE := some 20000000000 } }, by unfold State.ready State.ringFree; decide⟩,
    ⟨0, { flags := 1, handle := 0, tag := 9, args := 0xbb8000000050000000000050910ffffffffffffffff0000000218711a00 }, { (ringOn 13 0) with ltc := 9000000000, yld := { poses := [{ tov := 9000000000, e := 0, n := 0, psi := 0, v := 0, at0 := 0 }] } }, by unfold State.ready State.ringFree; decide⟩,
    ⟨{ quiet.setB YLD_CTRL.ENABLE true |>.setB (YLD_L_STAT.LIVE 7) true |>.set YLD_STATUS.LAYERS 1 |>.setB (ARB_STAT.GRANTED 1) true |>.set (ARB_STAT.OWNER 1) 21 with yld := { layers := [(7, layer0)] }, inp := { flowQ := [flow0] } }, by decide⟩⟩

/-- States and operands that meet the hypotheses of CanControllersCountErrorsSendAndRecover, clause by clause. -/
theorem wit_CanControllersCountErrorsSendAndRecover :
    (∃ (n : Fin 8) (kind : Fin 3) (r : Nat) (s : State), s.canLive n.val = true ∧ kind ≠ 0 ∧ r = (if kind = 1 then 1 else 8)) ∧
    (∃ (n : Fin 8) (s : State), s.canOn n.val = true ∧ s.get (BUS_C_STAT.STATE n.val) = 3) ∧
    (∃ (n : Fin 8) (s : State), s.canOn n.val = true ∧ 255 < s.get (BUS_C_STAT.TEC n.val) ∧ s.get (BUS_C_STAT.STATE n.val) < 2 ∧ s.wireHeld n.val none = false) ∧
    (∃ (n : Fin 8) (x : Nat) (o : CanObj) (s : State), s.canOn n.val = true ∧ 255 < s.get (BUS_C_STAT.TEC n.val) ∧ s.get (BUS_C_STAT.STATE n.val) < 2 ∧ s.bus.objs = [(x, o)] ∧ o.ctrl = n.val ∧ o.noRetry = true ∧ o.dying = none ∧ x < 2048) ∧
    (∃ (n : Fin 8) (s : State), s.canOn n.val = true ∧ s.get (BUS_C_STAT.STATE n.val) = 2 ∧ (s.busCtl n.val).recovering = true) ∧
    (∃ (core : Fin 8) (n : Fin 8) (value : Word) (s : State), s.closed (BUS_C_STAT n.val) = false ∧ bitAt value.toNat 31 = true ∧ s.canOn n.val = true ∧ s.get (BUS_C_STAT.STATE n.val) = 2) ∧
    (∃ (n : Fin 8) (s : State), s.canOn n.val = true ∧ s.get (BUS_C_STAT.STATE n.val) < 2 ∧ s.wireHeld n.val none = false) ∧
    (∃ (n : Fin 8) (s : State), s.canOn n.val = true) ∧
    (∃ (core : Fin 8) (x : Fin 2048) (o : CanObj) (value : Word) (s : State), s.closed (BUS_OBJ_CTRL x.val) = false ∧ s.busObj x.val = some o ∧ o.tx = true ∧ bitAt value.toNat 0 = true ∧ bitAt value.toNat 1 = false ∧ s.getB (BUS_OBJ_STAT.PEND x.val) = false ∧ (((s.reg (BUS_OBJ_REC x.val 1)).toNat % 4 = 0 ∨ s.getB (BUS_C_CFG.FD_EN o.ctrl) = true)) ∧ s.get (BUS_C_CFG.MODE o.ctrl) ≠ 1) ∧
    (∃ (core : Fin 8) (x : Fin 2048) (o : CanObj) (value : Word) (s : State), s.closed (BUS_OBJ_CTRL x.val) = false ∧ s.busObj x.val = some o ∧ o.tx = true ∧ bitAt value.toNat 0 = true ∧ bitAt value.toNat 1 = false ∧ s.getB (BUS_OBJ_STAT.PEND x.val) = false ∧ (((s.reg (BUS_OBJ_REC x.val 1)).toNat % 4 = 0 ∨ s.getB (BUS_C_CFG.FD_EN o.ctrl) = true)) ∧ s.get (BUS_C_CFG.MODE o.ctrl) = 1) ∧
    (∃ (core : Fin 8) (x : Fin 2048) (o : CanObj) (value : Word) (s : State), s.closed (BUS_OBJ_CTRL x.val) = false ∧ s.busObj x.val = some o ∧ o.tx = true ∧ bitAt value.toNat 0 = true ∧ bitAt value.toNat 1 = false ∧ ((s.getB (BUS_OBJ_STAT.PEND x.val) = true ∨ (s.reg (BUS_OBJ_REC x.val 1)).toNat % 4 ≠ 0 ∧ s.getB (BUS_C_CFG.FD_EN o.ctrl) = false))) ∧
    (∃ (core : Fin 8) (x : Fin 2048) (o : CanObj) (value : Word) (s : State), s.closed (BUS_OBJ_CTRL x.val) = false ∧ s.busObj x.val = some o ∧ o.tx = true ∧ o.ctrl < 8 ∧ bitAt value.toNat 0 = false ∧ bitAt value.toNat 1 = true ∧ s.getB (BUS_OBJ_STAT.PEND x.val) = true) ∧
    (∃ (n : Fin 8) (x : Fin 2048) (sof : Nat) (o : CanObj) (s : State), s.canLive n.val = true ∧ s.get (BUS_C_CFG.MODE n.val) = 0 ∧ s.busObj x.val = some o ∧ o.tx = true ∧ o.ctrl = n.val ∧ s.getB (BUS_OBJ_STAT.PEND x.val) = true ∧ s.objFirst x.val o sof = true ∧ s.wireHeld n.val (some x.val) = false ∧ o.dying = none ∧ s.get (BUS_C_STAT.STATE n.val) = 0 ∧ s.get (BUS_C_STAT.TEC n.val) ≤ 127 ∧ s.get (BUS_C_STAT.REC n.val) ≤ 127) ∧
    (∃ (n : Fin 8) (sof : Nat) (f : TpTx) (rest : List TpTx) (s : State), s.canLive n.val = true ∧ s.get (BUS_C_CFG.MODE n.val) = 0 ∧ (s.busCtl n.val).txq = f :: rest ∧ f.sess = none ∧ s.wireHeld n.val none = false ∧ s.get (BUS_C_STAT.STATE n.val) = 0 ∧ s.get (BUS_C_STAT.TEC n.val) ≤ 127 ∧ s.get (BUS_C_STAT.REC n.val) ≤ 127) ∧
    (∃ (n : Fin 8) (x : Fin 2048) (o : CanObj) (s : State), s.canLive n.val = true ∧ s.get (BUS_C_CFG.MODE n.val) ≠ 1 ∧ s.busObj x.val = some o ∧ o.tx = true ∧ o.ctrl = n.val ∧ s.getB (BUS_OBJ_STAT.PEND x.val) = true ∧ s.wireHeld n.val (some x.val) = false ∧ o.dying = none ∧ o.single = true) ∧
    (∃ (n : Fin 8) (x : Fin 2048) (o : CanObj) (s : State), s.canLive n.val = true ∧ s.get (BUS_C_CFG.MODE n.val) ≠ 1 ∧ s.busObj x.val = some o ∧ o.tx = true ∧ o.ctrl = n.val ∧ s.getB (BUS_OBJ_STAT.PEND x.val) = true ∧ s.wireHeld n.val (some x.val) = false ∧ o.dying = none ∧ o.single = false ∧ o.noRetry = false ∧ 2 ≤ (o.clash.filter fun c => decide (s.now < c + 1000000000)).length) ∧
    (∃ (s : State), s.getB BUS_CTRL.ENABLE = true) :=
  ⟨⟨7, 2, 8, { (quiet.setB (enableFld 14) true).setB (BUS_C_CFG.EN 7) true |>.set (BUS_C_STAT.STATE 7) 0 |>.set (BUS_C_STAT.REC 7) 120 |>.setB (EVT_SRC_CFG.EN 293) true with img := [(BUS_C_CAP 7, 7)] }, by decide⟩,
    ⟨7, { (quiet.setB (enableFld 14) true).setB (BUS_C_CFG.EN 7) true |>.set (BUS_C_STAT.STATE 7) 3 with img := [(BUS_C_CAP 7, 7)] }, by decide⟩,
    ⟨7, { (quiet.setB (enableFld 14) true).setB (BUS_C_CFG.EN 7) true |>.set (BUS_C_STAT.STATE 7) 1 |>.set (BUS_C_STAT.TEC 7) 256 |>.setB (BUS_C_CFG.AUTO_REC 7) true |>.setB (EVT_SRC_CFG.EN 293) true with img := [(BUS_C_CAP 7, 7)] }, by decide⟩,
    ⟨7, 2047, { obj0 with tx := true, ctrl := 7, irq := true, noRetry := true }, { (quiet.setB (enableFld 14) true).setB (BUS_C_CFG.EN 7) true |>.set (BUS_C_STAT.STATE 7) 1 |>.set (BUS_C_STAT.TEC 7) 256 |>.setB (BUS_OBJ_STAT.PEND 2047) true |>.setB (EVT_SRC_CFG.EN 292) true with img := [(BUS_C_CAP 7, 7)], bus := { objs := [(2047, { obj0 with tx := true, ctrl := 7, irq := true, noRetry := true })] } }, by decide⟩,
    ⟨7, { (quiet.setB (enableFld 14) true).setB (BUS_C_CFG.EN 7) true |>.set (BUS_C_STAT.STATE 7) 2 |>.set (BUS_C_STAT.TEC 7) 256 |>.setB (EVT_SRC_CFG.EN 293) true with img := [(BUS_C_CAP 7, 7)], bus := { ctls := [(7, { recovering := true })] } }, by decide⟩,
    ⟨0, 7, 0x80000000, { (quiet.setB (enableFld 14) true).setB (BUS_C_CFG.EN 7) true |>.set (BUS_C_STAT.STATE 7) 2 with img := [(BUS_C_CAP 7, 7)] }, by decide⟩,
    ⟨7, { (quiet.setB (enableFld 14) true).setB (BUS_C_CFG.EN 7) true |>.set (BUS_C_STAT.STATE 7) 1 |>.set (BUS_C_ALERT.ALERT 7) 0x80 |>.setB (EVT_SRC_CFG.EN 293) true |>.setB (EVT_SRC_CFG.EN 295) true with img := [(BUS_C_CAP 7, 7)] }, by decide⟩,
    ⟨7, { (quiet.setB (enableFld 14) true).setB (BUS_C_CFG.EN 7) true |>.set (BUS_C_ALERT.ALERT 7) 0x80 |>.setB (EVT_SRC_CFG.EN 295) true with img := [(BUS_C_CAP 7, 7)] }, by decide⟩,
    ⟨0, 2047, { obj0 with tx := true }, 1, { quiet with ltc := 88, bus := { objs := [(2047, { obj0 with tx := true })] } }, by decide⟩,
    ⟨0, 2047, { obj0 with tx := true, ctrl := 7, irq := true }, 1, { quiet.set (BUS_C_CFG.MODE 7) 1 |>.setB (EVT_SRC_CFG.EN 292) true with ltc := 88, bus := { objs := [(2047, { obj0 with tx := true, ctrl := 7, irq := true })] } }, by decide⟩,
    ⟨0, 2047, { obj0 with tx := true }, 1, { quiet.setReg (BUS_OBJ_REC 2047 1) 1 with ltc := 88, bus := { objs := [(2047, { obj0 with tx := true })] } }, by decide⟩,
    ⟨0, 2047, { obj0 with tx := true, ctrl := 7, irq := true }, 2, { (quiet.setB (BUS_OBJ_STAT.PEND 2047) true).setB (EVT_SRC_CFG.EN 292) true with bus := { objs := [(2047, { obj0 with tx := true, ctrl := 7, irq := true })] } }, by decide⟩,
    ⟨7, 2047, 0x100000002, { obj0 with tx := true, ctrl := 7, irq := true }, { (quiet.setB (BUS_OBJ_STAT.PEND 2047) true).setB (EVT_SRC_CFG.EN 292) true |>.setB (enableFld 14) true |>.setB (BUS_C_CFG.EN 7) true |>.set (BUS_C_STAT.STATE 7) 0 |>.set (BUS_C_STAT.TEC 7) 8 with img := [(BUS_C_CAP 7, 7)], bus := { objs := [(2047, { obj0 with tx := true, ctrl := 7, irq := true })] } }, by decide⟩,
    ⟨7, 5, { sess := none, id := 7, data := [] }, [], { quiet.setB (enableFld 14) true |>.setB (BUS_C_CFG.EN 7) true |>.set (BUS_C_STAT.STATE 7) 0 with img := [(BUS_C_CAP 7, 7)], bus := { ctls := [(7, { txq := [{ sess := none, id := 7, data := [] }] })] } }, by decide⟩,
    ⟨7, 2047, { obj0 with tx := true, ctrl := 7, irq := true, single := true }, { (quiet.setB (BUS_OBJ_STAT.PEND 2047) true).setB (EVT_SRC_CFG.EN 292) true |>.setB (EVT_SRC_CFG.EN 293) true |>.setB (enableFld 14) true |>.setB (BUS_C_CFG.EN 7) true |>.set (BUS_C_STAT.STATE 7) 0 |>.set (BUS_C_STAT.TEC 7) 120 with img := [(BUS_C_CAP 7, 7)], bus := { objs := [(2047, { obj0 with tx := true, ctrl := 7, irq := true, single := true })] } }, by decide⟩,
    ⟨7, 2047, { obj0 with tx := true, ctrl := 7, clash := [1, 2] }, { (quiet.setB (BUS_OBJ_STAT.PEND 2047) true).setB (EVT_SRC_CFG.EN 295) true |>.setB (enableFld 14) true |>.setB (BUS_C_CFG.EN 7) true |>.set (BUS_C_STAT.STATE 7) 0 |>.setReg (BUS_OBJ_REC 2047 0) 0x7654321 with ltc := 88, img := [(BUS_C_CAP 7, 7)], bus := { objs := [(2047, { obj0 with tx := true, ctrl := 7, clash := [1, 2] })] } }, by decide⟩,
    ⟨{ quiet.setB BUS_CTRL.ENABLE true |>.setB (BUS_OBJ_STAT.LIVE 2047) true |>.setB (BUS_Q_STAT.LIVE 7) true |>.set (BUS_C_STAT.STATE 3) 1 |>.set BUS_STATUS.OBJECTS 1 with bus := { objs := [(2047, obj0)], queues := [(7, canq0)] } }, by decide⟩⟩

/-- States and operands that meet the hypotheses of CanFramesReachTheirObjectOrQueueAndCommandsMakeThem, clause by clause. -/
theorem wit_CanFramesReachTheirObjectOrQueueAndCommandsMakeThem :
    (∃ (n : Fin 8) (ident : BitVec 31) (fdf : Bool) (brs : Bool) (esi : Bool) (dlc : Fin 16) (data : List Byte) (sof : Nat) (x : Nat) (f : CanFrame) (o : CanObj) (s : State), s.canLive n.val = true ∧ s.get (BUS_C_CFG.MODE n.val) ≠ 2 ∧ f = CanFrame.tidy { id := ident.toNat, fdf := fdf, brs := brs, esi := esi, dlc := dlc.val, data := data, sof := sof } ∧ f.legal = true ∧ ((s.getB (BUS_C_CFG.FD_EN n.val) = true ∨ fdf = false)) ∧ (s.tpOn n.val && isTp f.id) = false ∧ (s.bus.objs.any fun e => decide (e.2.ctrl = n.val) && e.2.tx && idKey e.2.id = idKey f.id) = false ∧ (s.bus.objs.find? fun e => decide (e.2.ctrl = n.val) && !e.2.tx && idKey e.2.id = idKey f.id) = some (x, o) ∧ o.queue = none ∧ x < 2048 ∧ (s.reg YLD_MOIST_OBJ).toNat ≠ s.handle 7 x ∧ s.get (BUS_C_STAT.REC n.val) ≤ 127 ∧ s.getB (BUS_OBJ_STAT.NEW x) = false) ∧
    (∃ (n : Fin 8) (ident : BitVec 31) (fdf : Bool) (brs : Bool) (esi : Bool) (dlc : Fin 16) (data : List Byte) (sof : Nat) (x : Nat) (f : CanFrame) (o : CanObj) (s : State), s.canLive n.val = true ∧ s.get (BUS_C_CFG.MODE n.val) ≠ 2 ∧ f = CanFrame.tidy { id := ident.toNat, fdf := fdf, brs := brs, esi := esi, dlc := dlc.val, data := data, sof := sof } ∧ f.legal = true ∧ ((s.getB (BUS_C_CFG.FD_EN n.val) = true ∨ fdf = false)) ∧ (s.tpOn n.val && isTp f.id) = false ∧ (s.bus.objs.find? fun e => decide (e.2.ctrl = n.val) && !e.2.tx && idKey e.2.id = idKey f.id) = some (x, o) ∧ o.ctrl < 8 ∧ x < 2048 ∧ s.getB (BUS_OBJ_STAT.NEW x) = true ∧ s.getB (BUS_OBJ_STAT.LOST x) = false ∧ bitAt (s.get (BUS_C_ALERT.ALERT o.ctrl)) 1 = false) ∧
    (∃ (n : Fin 8) (ident : BitVec 31) (fdf : Bool) (brs : Bool) (esi : Bool) (dlc : Fin 16) (data : List Byte) (sof : Nat) (x : Nat) (q : Nat) (f : CanFrame) (o : CanObj) (v : CanQueue) (s : State), s.canLive n.val = true ∧ s.get (BUS_C_CFG.MODE n.val) ≠ 2 ∧ f = CanFrame.tidy { id := ident.toNat, fdf := fdf, brs := brs, esi := esi, dlc := dlc.val, data := data, sof := sof } ∧ f.legal = true ∧ ((s.getB (BUS_C_CFG.FD_EN n.val) = true ∨ fdf = false)) ∧ (s.tpOn n.val && isTp f.id) = false ∧ (s.bus.objs.any fun e => decide (e.2.ctrl = n.val) && e.2.tx && idKey e.2.id = idKey f.id) = false ∧ (s.bus.objs.find? fun e => decide (e.2.ctrl = n.val) && !e.2.tx && idKey e.2.id = idKey f.id) = some (x, o) ∧ o.queue = some q ∧ s.busQueue q = some v ∧ v.ctrl = n.val ∧ s.qFill q < 256 ∧ q < 8 ∧ x < 2048 ∧ (s.reg YLD_MOIST_OBJ).toNat ≠ s.handle 7 x ∧ s.get (BUS_C_STAT.REC n.val) ≤ 127 ∧ s.getB (BUS_OBJ_STAT.NEW x) = false) ∧
    (∃ (n : Fin 8) (ident : BitVec 31) (fdf : Bool) (brs : Bool) (esi : Bool) (dlc : Fin 16) (data : List Byte) (sof : Nat) (s : State), s.canLive n.val = true ∧ s.get (BUS_C_CFG.MODE n.val) ≠ 2 ∧ ((s.getB (BUS_C_CFG.FD_EN n.val) = true ∨ fdf = false)) ∧ (fdf && bitAt ident.toNat 30) = false ∧ (s.tpOn n.val && isTp ident.toNat) = false ∧ s.bus.objs = [] ∧ s.bus.queues = [] ∧ s.get (BUS_C_STAT.TEC n.val) ≤ 127) ∧
    (∃ (n : Fin 8) (ident : BitVec 31) (fdf : Bool) (brs : Bool) (esi : Bool) (dlc : Fin 16) (data : List Byte) (sof : Nat) (q : Nat) (f : CanFrame) (v : CanQueue) (s : State), s.canLive n.val = true ∧ s.get (BUS_C_CFG.MODE n.val) ≠ 2 ∧ f = CanFrame.tidy { id := ident.toNat, fdf := fdf, brs := brs, esi := esi, dlc := dlc.val, data := data, sof := sof } ∧ f.legal = true ∧ ((s.getB (BUS_C_CFG.FD_EN n.val) = true ∨ fdf = false)) ∧ (s.tpOn n.val && isTp f.id) = false ∧ s.bus.objs = [] ∧ (s.bus.queues.find? fun e => decide (e.2.ctrl = n.val) && (((f.id % 2 ^ 30) ^^^ (e.2.qid % 2 ^ 30)) &&& (e.2.mask % 2 ^ 30)) = 0) = some (q, v) ∧ s.busQueue q = some v ∧ v.ctrl = n.val ∧ s.get (BUS_C_STAT.REC n.val) ≤ 127 ∧ s.qFill q < 256) ∧
    (∃ (n : Fin 8) (ident : BitVec 31) (fdf : Bool) (brs : Bool) (esi : Bool) (dlc : Fin 16) (data : List Byte) (sof : Nat) (q : Nat) (f : CanFrame) (v : CanQueue) (s : State), s.canLive n.val = true ∧ s.get (BUS_C_CFG.MODE n.val) ≠ 2 ∧ f = CanFrame.tidy { id := ident.toNat, fdf := fdf, brs := brs, esi := esi, dlc := dlc.val, data := data, sof := sof } ∧ f.legal = true ∧ ((s.getB (BUS_C_CFG.FD_EN n.val) = true ∨ fdf = false)) ∧ (s.tpOn n.val && isTp f.id) = false ∧ s.bus.objs = [] ∧ (s.bus.queues.find? fun e => decide (e.2.ctrl = n.val) && (((f.id % 2 ^ 30) ^^^ (e.2.qid % 2 ^ 30)) &&& (e.2.mask % 2 ^ 30)) = 0) = some (q, v) ∧ s.busQueue q = some v ∧ v.ctrl = n.val ∧ s.get (BUS_C_STAT.REC n.val) ≤ 127 ∧ 256 ≤ s.qFill q) ∧
    (∃ (ring : Fin 8) (e : Entry) (x : Nat) (n : Nat) (dir : Nat) (opt : Nat) (ident : Nat) (qh : Nat) (s : State), s.ready 0x0E ring.val 0 e ∧ tfree s.bus.objs 2048 = some x ∧ (s.cmdOf 0x0E ring.val e).arg 16 1 = n ∧ (s.cmdOf 0x0E ring.val e).arg 17 1 = dir ∧ (s.cmdOf 0x0E ring.val e).arg 18 1 = opt ∧ (s.cmdOf 0x0E ring.val e).arg 20 4 = ident ∧ (s.cmdOf 0x0E ring.val e).arg 24 4 = qh ∧ ((qh = 0 ∨ dir = 0 ∧ s.checkHandle 8 (fun i => (s.busQueue i).isSome) qh = none ∧ ((s.busQueue (hIndex qh)).any fun v => decide (v.ctrl = n)) = true)) ∧ n ≤ 7 ∧ dir ≤ 1 ∧ opt ≤ 3 ∧ ((dir = 1 ∨ opt ≤ 1)) ∧ bitAt ident 31 = false ∧ ((bitAt ident 29 = true ∨ ident % 2 ^ 29 < 2 ^ 11)) ∧ s.canOn n = true ∧ (s.bus.objs.any fun f => decide (f.2.ctrl = n) && f.2.tx = decide (dir = 1) && idKey f.2.id = idKey ident) = false) ∧
    (∃ (ring : Fin 8) (e : Entry) (x : Nat) (o : CanObj) (s : State), s.ready 0x0E ring.val 0 e ∧ s.checkHandle 7 s.objLive e.handle.toNat = none ∧ hIndex e.handle.toNat = x ∧ s.busObj x = some o ∧ s.getB (BUS_OBJ_STAT.PEND x) = false) ∧
    (∃ (ring : Fin 8) (e : Entry) (x : Nat) (o : CanObj) (s : State), s.ready 0x0E ring.val 0 e ∧ s.checkHandle 7 s.objLive e.handle.toNat = none ∧ hIndex e.handle.toNat = x ∧ s.busObj x = some o ∧ s.getB (BUS_OBJ_STAT.PEND x) = true) ∧
    (∃ (ring : Fin 8) (e : Entry) (q : Nat) (n : Nat) (irq : Nat) (thr : Nat) (base : Nat) (s : State), s.ready 0x0E ring.val 0 e ∧ tfree s.bus.queues 8 = some q ∧ (s.cmdOf 0x0E ring.val e).arg 16 1 = n ∧ (s.cmdOf 0x0E ring.val e).arg 17 1 = irq ∧ (s.cmdOf 0x0E ring.val e).arg 18 2 = thr ∧ (s.cmdOf 0x0E ring.val e).arg 32 8 = base ∧ n ≤ 7 ∧ irq ≤ 1 ∧ thr ≤ 256 ∧ base % 4096 = 0 ∧ s.inWins 0x0E base 24576 = true ∧ s.canOn n = true) ∧
    (∃ (ring : Fin 8) (e : Entry) (q : Nat) (v : CanQueue) (s : State), s.ready 0x0E ring.val 0 e ∧ s.checkHandle 8 (fun i => (s.busQueue i).isSome) e.handle.toNat = none ∧ hIndex e.handle.toNat = q ∧ s.busQueue q = some v ∧ (s.bus.objs.any fun f => decide (f.2.queue = some q)) = false ∧ ((List.range 8).any fun n => s.tpOn n && decide (s.get (BUS_C_CFG.TPQ n) = q)) = false) :=
  ⟨⟨7, 0x7FF, false, false, true, 8, [1, 2, 3, 4, 5, 6, 7, 8, 9], 0x1122334455, 2047, CanFrame.tidy { id := 0x7FF, fdf := false, brs := false, esi := true, dlc := 8, data := [1, 2, 3, 4, 5, 6, 7, 8, 9], sof := 0x1122334455 }, { obj0 with ctrl := 7, id := 0x7FF }, { (quiet.setB (enableFld 14) true).setB (BUS_C_CFG.EN 7) true |>.set (BUS_C_STAT.STATE 7) 0 |>.set (BUS_C_STAT.REC 7) 127 with img := [(BUS_C_CAP 7, 7)], bus := { objs := [(5, obj0), (2047, { obj0 with ctrl := 7, id := 0x7FF })], ctls := [(7, { fseq := 0xFFFFFFFF })] } }, by decide⟩,
    ⟨7, 0x7FF, false, false, true, 8, [1, 2, 3], 5, 2047, CanFrame.tidy { id := 0x7FF, fdf := false, brs := false, esi := true, dlc := 8, data := [1, 2, 3], sof := 5 }, { obj0 with ctrl := 7, id := 0x7FF }, { (quiet.setB (enableFld 14) true).setB (BUS_C_CFG.EN 7) true |>.set (BUS_C_STAT.STATE 7) 0 |>.setB (BUS_OBJ_STAT.NEW 2047) true |>.setB (EVT_SRC_CFG.EN 295) true with img := [(BUS_C_CAP 7, 7)], bus := { objs := [(2047, { obj0 with ctrl := 7, id := 0x7FF })] } }, by decide⟩,
    ⟨7, 0x7FF, true, true, true, 9, [1, 2, 3, 4, 5, 6, 7, 8, 9, 10, 11, 12], 5, 2047, 7, CanFrame.tidy { id := 0x7FF, fdf := true, brs := true, esi := true, dlc := 9, data := [1, 2, 3, 4, 5, 6, 7, 8, 9, 10, 11, 12], sof := 5 }, { obj0 with ctrl := 7, id := 0x7FF, queue := some 7 }, canq0, { (quiet.setB (enableFld 14) true).setB (BUS_C_CFG.EN 7) true |>.set (BUS_C_STAT.STATE 7) 0 |>.setB (BUS_C_CFG.FD_EN 7) true |>.set (BUS_Q_PI.PI 7) 511 |>.set (BUS_Q_CI.CI 7) 256 |>.setB (EVT_SRC_CFG.EN 291) true with img := [(BUS_C_CAP 7, 7)], bus := { objs := [(2047, { obj0 with ctrl := 7, id := 0x7FF, queue := some 7 })], queues := [(7, canq0)] } }, by decide⟩,
    ⟨7, 0x7FF, true, false, true, 8, [1, 2, 3], 5, { (quiet.setB (enableFld 14) true).setB (BUS_C_CFG.EN 7) true |>.set (BUS_C_STAT.STATE 7) 1 |>.set (BUS_C_STAT.REC 7) 128 |>.setB (EVT_SRC_CFG.EN 293) true |>.setB (BUS_C_CFG.FD_EN 7) true with img := [(BUS_C_CAP 7, 7)] }, by decide⟩,
    ⟨7, 0x27654321, false, false, true, 8, [1, 2, 3, 4, 5, 6, 7, 8], 5, 7, CanFrame.tidy { id := 0x27654321, fdf := false, brs := false, esi := true, dlc := 8, data := [1, 2, 3, 4, 5, 6, 7, 8], sof := 5 }, canq0, { (quiet.setB (enableFld 14) true).setB (BUS_C_CFG.EN 7) true |>.set (BUS_C_STAT.STATE 7) 0 |>.set (BUS_Q_PI.PI 7) 511 |>.set (BUS_Q_CI.CI 7) 256 |>.setB (EVT_SRC_CFG.EN 291) true with img := [(BUS_C_CAP 7, 7)], bus := { queues := [(6, { canq0 with ctrl := 6 }), (7, canq0)] } }, by decide⟩,
    ⟨7, 0x27654321, false, false, true, 8, [1, 2, 3, 4, 5, 6, 7, 8], 5, 7, CanFrame.tidy { id := 0x27654321, fdf := false, brs := false, esi := true, dlc := 8, data := [1, 2, 3, 4, 5, 6, 7, 8], sof := 5 }, canq0, { (quiet.setB (enableFld 14) true).setB (BUS_C_CFG.EN 7) true |>.set (BUS_C_STAT.STATE 7) 0 |>.set (BUS_Q_PI.PI 7) 511 |>.set (BUS_Q_CI.CI 7) 255 |>.setB (EVT_SRC_CFG.EN 295) true with img := [(BUS_C_CAP 7, 7)], bus := { queues := [(6, { canq0 with ctrl := 6 }), (7, canq0)] } }, by decide⟩,
    ⟨7, { flags := 1, handle := 0, tag := 9, args := 0x2765432100030107 }, 0, 7, 1, 3, 0x27654321, 0, { (ringOn 14 7).setB (BUS_C_CFG.EN 7) true |>.setReg (BUS_OBJ_REC 0 9) 7 with img := [(BUS_C_CAP 7, 7)], bus := { objs := [(1, { obj0 with ctrl := 7, id := 0x27654321 })] } }, by unfold State.ready State.ringFree; decide⟩,
    ⟨7, { flags := 1, handle := 0x1C0007FF, tag := 9, args := 0 }, 2047, obj0, { (ringOn 14 7).setB (BUS_OBJ_STAT.LIVE 2047) true with bus := { objs := [(2047, obj0)] } }, by unfold State.ready State.ringFree; decide⟩,
    ⟨7, { flags := 1, handle := 0x1C0007FF, tag := 9, args := 0 }, 2047, obj0, { (ringOn 14 7).setB (BUS_OBJ_STAT.LIVE 2047) true |>.setB (BUS_OBJ_STAT.PEND 2047) true with bus := { objs := [(2047, obj0)] } }, by unfold State.ready State.ringFree; decide⟩,
    ⟨7, { flags := 1, handle := 0, tag := 9, args := 0x8000000000003fffffff2765432101000107 }, 0, 7, 1, 256, 0x8000, { (ringOn 14 7).setB (BUS_C_CFG.EN 7) true |>.set (BUS_DWIN_SIZE.MIB 1) 1 |>.set (BUS_Q_PI.PI 0) 7 with img := [(BUS_C_CAP 7, 7)], bus := { queues := [(1, canq0)] } }, by unfold State.ready State.ringFree; decide⟩,
    ⟨7, { flags := 1, handle := 0x20000007, tag := 9, args := 0 }, 7, canq0, { (ringOn 14 7).setB (BUS_Q_STAT.LIVE 7) true with bus := { queues := [(7, canq0)] } }, by unfold State.ready State.ringFree; decide⟩⟩

/-- States and operands that meet the hypotheses of TransportSessionsOpenCarryTimeOutAndAreDelivered, clause by clause. -/
theorem wit_TransportSessionsOpenCarryTimeOutAndAreDelivered :
    (∃ (n : Fin 8) (ident : BitVec 29) (data : List Byte) (sof : Nat) (w : Nat) (da : Nat) (sa : Nat) (sz : Nat) (mp : Nat) (pgn : Nat) (k : Nat) (s : State), s.canLive n.val = true ∧ s.get (BUS_C_CFG.MODE n.val) ≠ 2 ∧ s.tpOn n.val = true ∧ w = ident.toNat + 2 ^ 29 ∧ isTp w = true ∧ bitsOf w 16 8 = 0xEC ∧ bitsOf w 8 8 = da ∧ w % 256 = sa ∧ data.length = 8 ∧ natLE (data.take 1) = 16 ∧ natLE ((data.drop 1).take 2) = sz ∧ natLE ((data.drop 4).take 1) = mp ∧ natLE ((data.drop 5).take 3) % 2 ^ 18 = pgn ∧ 9 ≤ sz ∧ sz ≤ 1785 ∧ s.ownAddr n.val da = true ∧ s.bus.objs = [] ∧ s.bus.sess = [] ∧ (s.busCtl n.val).cm = [] ∧ 1 ≤ s.get (BUS_C_TPLIM.RATE n.val) ∧ 1 ≤ s.get (BUS_C_TPLIM.SRCMAX n.val) ∧ sz ≤ s.get BUS_TP_RXMAX.RXMAX ∧ s.get (BUS_C_STAT.REC n.val) ≤ 127 ∧ min (min mp (s.get (BUS_C_TPLIM.CTSMAX n.val))) ((sz + 6) / 7) = k) ∧
    (∃ (n : Fin 8) (ident : BitVec 29) (data : List Byte) (sof : Nat) (w : Nat) (da : Nat) (sa : Nat) (i : Nat) (q : TpSess) (s : State), s.canLive n.val = true ∧ s.get (BUS_C_CFG.MODE n.val) ≠ 2 ∧ s.tpOn n.val = true ∧ w = ident.toNat + 2 ^ 29 ∧ isTp w = true ∧ bitsOf w 16 8 = 0xEB ∧ bitsOf w 8 8 = da ∧ da ≠ 0xFF ∧ w % 256 = sa ∧ data.length = 8 ∧ s.bus.objs = [] ∧ s.bus.sess = [(i, q)] ∧ q.ctrl = n.val ∧ q.rx = true ∧ (q.timer.any fun l => decide (l.1 + l.2 * 1000000 < s.now)) = false ∧ q.kind = 0 ∧ q.result = none ∧ q.peer = sa ∧ q.own = da ∧ q.base + natLE (data.take 1) = q.next ∧ 1 ≤ q.next ∧ q.next < q.blockEnd ∧ q.next < q.total ∧ s.get (BUS_C_STAT.REC n.val) ≤ 127) ∧
    (∃ (n : Fin 8) (ident : BitVec 29) (data : List Byte) (sof : Nat) (w : Nat) (da : Nat) (sa : Nat) (i : Nat) (q : TpSess) (s : State), s.canLive n.val = true ∧ s.get (BUS_C_CFG.MODE n.val) ≠ 2 ∧ s.tpOn n.val = true ∧ w = ident.toNat + 2 ^ 29 ∧ isTp w = true ∧ bitsOf w 16 8 = 0xEB ∧ bitsOf w 8 8 = da ∧ da ≠ 0xFF ∧ w % 256 = sa ∧ data.length = 8 ∧ s.bus.objs = [] ∧ s.bus.sess = [(i, q)] ∧ q.ctrl = n.val ∧ q.rx = true ∧ (q.timer.any fun l => decide (l.1 + l.2 * 1000000 < s.now)) = false ∧ q.kind = 0 ∧ q.result = none ∧ q.peer = sa ∧ q.own = da ∧ q.base + natLE (data.take 1) = q.next ∧ 1 ≤ q.next ∧ q.next ≤ q.blockEnd ∧ q.next = q.total ∧ s.get (BUS_C_STAT.REC n.val) ≤ 127 ∧ (s.busCtl n.val).txq = []) ∧
    (∃ (n : Fin 8) (ident : BitVec 29) (data : List Byte) (sof : Nat) (w : Nat) (s : State), s.canLive n.val = true ∧ s.get (BUS_C_CFG.MODE n.val) ≠ 2 ∧ s.tpOn n.val = true ∧ w = ident.toNat + 2 ^ 29 ∧ isTp w = true ∧ bitsOf w 16 8 = 0xEB ∧ data.length = 8 ∧ s.bus.objs = [] ∧ s.bus.sess = [] ∧ s.get (BUS_C_STAT.REC n.val) ≤ 127) ∧
    (∃ (i : Fin 32) (q : TpSess) (t0 : Nat) (ms : Nat) (s : State), s.busSess i.val = some q ∧ q.timer = some (t0, ms) ∧ q.result = none ∧ t0 + ms * 1000000 ≤ s.now ∧ q.kind = 0 ∧ q.ctrl < 8 ∧ (s.busCtl q.ctrl).txq = []) ∧
    (∃ (i : Fin 32) (q : TpSess) (t0 : Nat) (ms : Nat) (s : State), s.busSess i.val = some q ∧ q.timer = some (t0, ms) ∧ q.result = none ∧ t0 + ms * 1000000 ≤ s.now ∧ q.kind = 1 ∧ q.rx = true ∧ q.ctrl < 8) ∧
    (∃ (i : Fin 32) (q : TpSess) (g : Nat) (s : State), s.busSess i.val = some q ∧ q.gap = some g ∧ g + q.gapMs * 1000000 ≤ s.now) ∧
    (∃ (i : Fin 32) (q : TpSess) (r : Nat) (v : CanQueue) (s : State), s.busSess i.val = some q ∧ q.result = some r ∧ q.entry = none ∧ s.busQueue (s.get (BUS_C_CFG.TPQ q.ctrl)) = some v ∧ s.qFill (s.get (BUS_C_CFG.TPQ q.ctrl)) < 256 ∧ q.ctrl < 8) ∧
    (∃ (ring : Fin 8) (e : Entry) (i : Nat) (n : Nat) (bam : Nat) (sa : Nat) (da : Nat) (prio : Nat) (pgn : Nat) (len : Nat) (buf : Nat) (kind : Nat) (s : State), s.ready 0x0E ring.val 0 e ∧ (s.bus.sess.any fun e => e.2.timer.any fun l => decide (l.1 + l.2 * 1000000 < s.now)) = false ∧ tfree s.bus.sess 32 = some i ∧ (s.cmdOf 0x0E ring.val e).arg 16 1 = n ∧ (s.cmdOf 0x0E ring.val e).arg 17 1 = bam ∧ (s.cmdOf 0x0E ring.val e).arg 18 1 = sa ∧ (s.cmdOf 0x0E ring.val e).arg 19 1 = da ∧ (s.cmdOf 0x0E ring.val e).arg 20 1 = prio ∧ (s.cmdOf 0x0E ring.val e).arg 24 4 = pgn ∧ (s.cmdOf 0x0E ring.val e).arg 28 4 = len ∧ (s.cmdOf 0x0E ring.val e).arg 32 8 = buf ∧ n ≤ 7 ∧ prio ≤ 7 ∧ pgn < 2 ^ 18 ∧ 9 ≤ len ∧ len ≤ 117440505 ∧ ((bam = 0 ∨ bam = 1 ∧ len ≤ 1785 ∧ da = 0xFF)) ∧ s.inWins 0x0E buf len = true ∧ s.tpOn n = true ∧ s.ownAddr n sa = true ∧ ((bam = 1 ∨ (s.tpFind n fun q => !q.rx && q.kind ≠ 1 && q.own = sa && q.peer = da) = none)) ∧ kind = (if bam = 1 then 1 else if 1785 < len then 2 else 0)) ∧
    (∃ (ring : Fin 8) (e : Entry) (i : Nat) (q : TpSess) (s : State), s.ready 0x0E ring.val 0 e ∧ s.checkHandle 9 (fun j => (s.busSess j).isSome) e.handle.toNat = none ∧ hIndex e.handle.toNat = i ∧ s.busSess i = some q ∧ q.result = none ∧ (s.bus.sess.any fun e => e.2.timer.any fun l => decide (l.1 + l.2 * 1000000 < s.now)) = false ∧ q.kind ≠ 1 ∧ q.ctrl < 8 ∧ (s.busCtl q.ctrl).txq = []) ∧
    (∃ (ring : Fin 8) (e : Entry) (i : Nat) (q : TpSess) (s : State), s.ready 0x0E ring.val 0 e ∧ s.checkHandle 9 (fun j => (s.busSess j).isSome) e.handle.toNat = none ∧ hIndex e.handle.toNat = i ∧ s.busSess i = some q ∧ q.result = none ∧ (s.bus.sess.any fun e => e.2.timer.any fun l => decide (l.1 + l.2 * 1000000 < s.now)) = false ∧ q.kind = 1 ∧ q.ctrl < 8) ∧
    (∃ (ring : Fin 8) (e : Entry) (i : Nat) (t0 : Nat) (ms : Nat) (q : TpSess) (s : State), s.ready 0x0E ring.val 0 e ∧ s.checkHandle 9 (fun j => (s.busSess j).isSome) e.handle.toNat = none ∧ hIndex e.handle.toNat = i ∧ s.bus.sess = [(i, q)] ∧ q.result = none ∧ q.timer = some (t0, ms) ∧ t0 + ms * 1000000 < s.now ∧ q.kind ≠ 1 ∧ q.ctrl < 8) :=
  ⟨⟨7, 0x1CEC2133, [16, 0xF9, 0x06, 255, 16, 0x00, 0xEF, 0x00], 3000000005, 0x3CEC2133, 0x21, 0x33, 1785, 16, 0xEF00, 8, { (quiet.setB (enableFld 14) true).setB (BUS_C_CFG.EN 7) true |>.set (BUS_C_STAT.STATE 7) 0 |>.setReg (BUS_C_TPADDR 7) 0xFEFE21FE |>.set (BUS_C_TPLIM.RATE 7) 1 |>.set (BUS_C_TPLIM.SRCMAX 7) 1 |>.set (BUS_C_TPLIM.CTSMAX 7) 8 |>.set BUS_TP_RXMAX.RXMAX 1785 |>.setReg BUS_TP_RXBASE_LO 0x10000 with img := [(BUS_C_CAP 7, 7)] }, by decide⟩,
    ⟨7, 0x1CEB2133, [2, 10, 11, 12, 13, 14, 15, 16], 3000000005, 0x3CEB2133, 0x21, 0x33, 31, { sess0 with next := 2, blockEnd := 4 }, { (quiet.setB (enableFld 14) true).setB (BUS_C_CFG.EN 7) true |>.set (BUS_C_STAT.STATE 7) 0 with img := [(BUS_C_CAP 7, 7)], bus := { sess := [(31, { sess0 with next := 2, blockEnd := 4 })] } }, by decide⟩,
    ⟨7, 0x1CEB2133, [3, 10, 11, 12, 13, 14, 15, 16], 3000000005, 0x3CEB2133, 0x21, 0x33, 31, { sess0 with next := 3, blockEnd := 4 }, { (quiet.setB (enableFld 14) true).setB (BUS_C_CFG.EN 7) true |>.set (BUS_C_STAT.STATE 7) 0 with img := [(BUS_C_CAP 7, 7)], bus := { sess := [(31, { sess0 with next := 3, blockEnd := 4 })] } }, by decide⟩,
    ⟨7, 0x1CEB2133, [3, 10, 11, 12, 13, 14, 15, 16], 5, 0x3CEB2133, { (quiet.setB (enableFld 14) true).setB (BUS_C_CFG.EN 7) true |>.set (BUS_C_STAT.STATE 7) 0 with img := [(BUS_C_CAP 7, 7)] }, by decide⟩,
    ⟨31, { sess0 with timer := some (1000, 750) }, 1000, 750, { quiet.setB (EVT_SRC_CFG.EN 294) true with ltc := 750001000, bus := { sess := [(31, { sess0 with timer := some (1000, 750) })] } }, by decide⟩,
    ⟨31, { sess0 with kind := 1, timer := some (1000, 750) }, 1000, 750, { quiet.setB (EVT_SRC_CFG.EN 294) true with ltc := 750001000, bus := { sess := [(31, { sess0 with kind := 1, timer := some (1000, 750) })] } }, by decide⟩,
    ⟨31, { sess0 with kind := 1, rx := false, gap := some 1000, next := 2 }, 1000, { quiet with ltc := 50001000, bus := { sess := [(31, { sess0 with kind := 1, rx := false, gap := some 1000, next := 2 })] } }, by decide⟩,
    ⟨31, { sess0 with result := some 0, next := 4 }, 0, canq0, { (quiet.set (BUS_C_CFG.TPQ 7) 7).set (BUS_Q_PI.PI 7) 511 |>.set (BUS_Q_CI.CI 7) 256 |>.setB (EVT_SRC_CFG.EN 294) true |>.setB (EVT_SRC_CFG.EN 291) true with bus := { sess := [(31, { sess0 with result := some 0, next := 4 })], queues := [(7, canq0)] } }, by decide⟩,
    ⟨7, { flags := 1, handle := 0, tag := 9, args := 0x8000000006f90003ef0000000006ff210107 }, 0, 7, 1, 0x21, 0xFF, 6, 0x3EF00, 1785, 0x8000, 1, { (ringOn 14 7).setB (BUS_C_CFG.EN 7) true |>.set (BUS_DWIN_SIZE.MIB 1) 1024 |>.setReg (BUS_C_TPADDR 7) 0xFEFE21FE with img := [(BUS_C_CAP 7, 7)], bus := { sess := [(1, sess0)] } }, by unfold State.ready State.ringFree; decide⟩,
    ⟨7, { flags := 1, handle := 0x2400001F, tag := 9, args := 0 }, 31, sess0, { (ringOn 14 7).setB (EVT_SRC_CFG.EN 294) true with bus := { sess := [(31, sess0)] } }, by unfold State.ready State.ringFree; decide⟩,
    ⟨7, { flags := 1, handle := 0x2400001F, tag := 9, args := 0 }, 31, { sess0 with kind := 1 }, { (ringOn 14 7).setB (EVT_SRC_CFG.EN 294) true with bus := { sess := [(31, { sess0 with kind := 1 })], ctls := [(7, { txq := [{ sess := some 31, id := 7, data := [] }] })] } }, by unfold State.ready State.ringFree; decide⟩,
    ⟨7, { flags := 1, handle := 0x2400001F, tag := 9, args := 0 }, 31, 1000, 750, { sess0 with timer := some (1000, 750) }, { (ringOn 14 7).setB (EVT_SRC_CFG.EN 294) true with ltc := 750001008, bus := { sess := [(31, { sess0 with timer := some (1000, 750) })] } }, by unfold State.ready State.ringFree; decide⟩⟩

/-- States and operands that meet the hypotheses of SwitchForwardsPolicesAndLearnsAndGptpIsObserved, clause by clause. -/
theorem wit_SwitchForwardsPolicesAndLearnsAndGptpIsObserved :
    (∃ (p : Fin 4) (frame : List Byte) (ok : Bool) (full : BitVec 16) (stamp : Nat) (s : State), s.portUp p.val = true ∧ ((ok = false ∨ frame.length < 60 ∨ 1518 < frame.length))) ∧
    (∃ (p : Fin 4) (frame : List Byte) (full : BitVec 16) (stamp : Nat) (level : Nat) (rate : Nat) (cap : Nat) (s : State), s.portUp p.val = true ∧ 60 ≤ frame.length ∧ frame.length ≤ 1518 ∧ s.get (ETH_POL.RATE p.val) = rate ∧ rate ≠ 0 ∧ cap = s.get (ETH_POL.BURST p.val) * 1024 * 8 * 1000 ∧ level = (match tget s.eth.pol p.val with | some (l, u) => min cap (l + rate * (s.now - u)) | none => cap) ∧ level < (frame.length + 4) * 8 * 1000) ∧
    (∃ (p : Fin 4) (frame : List Byte) (full : BitVec 16) (stamp : Nat) (level : Nat) (rate : Nat) (cap : Nat) (s : State), s.portUp p.val = true ∧ 60 ≤ frame.length ∧ frame.length ≤ 1518 ∧ s.get (ETH_POL.RATE p.val) = rate ∧ rate ≠ 0 ∧ cap = s.get (ETH_POL.BURST p.val) * 1024 * 8 * 1000 ∧ level = (match tget s.eth.pol p.val with | some (l, u) => min cap (l + rate * (s.now - u)) | none => cap) ∧ (frame.length + 4) * 8 * 1000 ≤ level ∧ s.vlanOf (parseFrame (s.get (ETH_PORT_CFG.PVID p.val)) frame).vid = none) ∧
    (∃ (p : Fin 4) (frame : List Byte) (full : BitVec 16) (stamp : Nat) (s : State), s.portUp p.val = true ∧ 60 ≤ frame.length ∧ frame.length ≤ 1518 ∧ s.get (ETH_POL.RATE p.val) = 0 ∧ ((s.vlanOf (parseFrame (s.get (ETH_PORT_CFG.PVID p.val)) frame).vid).all fun i => !s.vlanMember i p.val) = true) ∧
    (∃ (p : Fin 4) (frame : List Byte) (full : BitVec 16) (stamp : Nat) (i : Nat) (q : Nat) (at' : Nat) (f : SwFrame) (s : State), s.portUp p.val = true ∧ 60 ≤ frame.length ∧ frame.length ≤ 1518 ∧ s.get (ETH_POL.RATE p.val) = 0 ∧ f = parseFrame (s.get (ETH_PORT_CFG.PVID p.val)) frame ∧ s.vlanOf f.vid = some i ∧ s.vlanMember i p.val = true ∧ isGroup f.src = false ∧ s.eth.macs.length < 1024 ∧ f.dst ≠ s.ownMac ∧ isGroup f.dst = false ∧ f.src ≠ f.dst ∧ tget s.eth.macs (macKey f.vid f.dst) = some (q, at') ∧ q < 4 ∧ q ≠ p.val ∧ s.vlanMember i q = true ∧ s.portUp q = true ∧ ((s.get ETH_SW_CFG.AGE_S = 0 ∨ s.now ≤ at' + s.get ETH_SW_CFG.AGE_S * 1000000000)) ∧ ((bitAt full.toNat (4 * q + f.pcp / 2) = false ∨ tgetD s.eth.egress (4 * q + f.pcp / 2) [] = [])) ∧ (((tget s.eth.wire q).isSome = true ∨ tgetD s.eth.egress (4 * q) [] = [] ∧ tgetD s.eth.egress (4 * q + 1) [] = [] ∧ tgetD s.eth.egress (4 * q + 2) [] = [] ∧ tgetD s.eth.egress (4 * q + 3) [] = []))) ∧
    (∃ (p : Fin 4) (frame : List Byte) (full : BitVec 16) (stamp : Nat) (i : Nat) (q : Nat) (at' : Nat) (f : SwFrame) (s : State), s.portUp p.val = true ∧ 60 ≤ frame.length ∧ frame.length ≤ 1518 ∧ s.get (ETH_POL.RATE p.val) = 0 ∧ f = parseFrame (s.get (ETH_PORT_CFG.PVID p.val)) frame ∧ s.vlanOf f.vid = some i ∧ s.vlanMember i p.val = true ∧ isGroup f.src = false ∧ 1024 ≤ s.eth.macs.length ∧ tget s.eth.macs (macKey f.vid f.src) = none ∧ f.dst ≠ s.ownMac ∧ isGroup f.dst = false ∧ tget s.eth.macs (macKey f.vid f.dst) = some (q, at') ∧ q < 4 ∧ q ≠ p.val ∧ s.vlanMember i q = true ∧ s.portUp q = true ∧ bitAt full.toNat (4 * q + f.pcp / 2) = true ∧ tgetD s.eth.egress (4 * q + f.pcp / 2) [] ≠ [] ∧ ((s.get ETH_SW_CFG.AGE_S = 0 ∨ (s.eth.macs.all fun e => decide (s.now ≤ e.2.2 + s.get ETH_SW_CFG.AGE_S * 1000000000)) = true))) ∧
    (∃ (p : Fin 4) (frame : List Byte) (full : BitVec 16) (stamp : Nat) (i : Nat) (f : SwFrame) (s : State), s.portUp p.val = true ∧ 60 ≤ frame.length ∧ frame.length ≤ 1518 ∧ s.get (ETH_POL.RATE p.val) = 0 ∧ f = parseFrame (s.get (ETH_PORT_CFG.PVID p.val)) frame ∧ s.vlanOf f.vid = some i ∧ s.vlanMember i p.val = true ∧ s.eth.macs.length < 1024 ∧ f.dst = 0xFFFFFFFFFFFF ∧ s.ownMac ≠ f.dst ∧ full = 0 ∧ s.vlanMember i 4 = false) ∧
    (∃ (p : Fin 4) (frame : List Byte) (full : BitVec 16) (stamp : Nat) (i : Nat) (f : SwFrame) (e : List Byte) (s : State), s.portUp p.val = true ∧ 60 ≤ frame.length ∧ frame.length ≤ 1518 ∧ s.get (ETH_POL.RATE p.val) = 0 ∧ f = parseFrame (s.get (ETH_PORT_CFG.PVID p.val)) frame ∧ s.vlanOf f.vid = some i ∧ s.vlanMember i p.val = true ∧ s.vlanMember i 4 = true ∧ isGroup f.src = true ∧ f.dst = s.ownMac ∧ f.etype ≠ 0x88F7 ∧ s.udpOf f = none ∧ s.ringFull ETH_HRX_PI.PI ETH_HRX_CI.CI ETH_HRX_CFG.HLEN = false ∧ e = bytesLE 2 (f.bytes (s.vlanUntag i 4)).length ++ bytesLE 1 p.val ++ bytesLE 5 0 ++ bytesLE 8 stamp ++ bytesLE 48 0 ++ f.bytes (s.vlanUntag i 4)) ∧
    (∃ (p : Fin 4) (frame : List Byte) (full : BitVec 16) (stamp : Nat) (i : Nat) (f : SwFrame) (s : State), s.portUp p.val = true ∧ 60 ≤ frame.length ∧ frame.length ≤ 1518 ∧ s.get (ETH_POL.RATE p.val) = 0 ∧ f = parseFrame (s.get (ETH_PORT_CFG.PVID p.val)) frame ∧ s.vlanOf f.vid = some i ∧ s.vlanMember i p.val = true ∧ s.vlanMember i 4 = true ∧ isGroup f.src = true ∧ f.dst = s.ownMac ∧ f.etype ≠ 0x88F7 ∧ s.udpOf f = none ∧ s.ringFull ETH_HRX_PI.PI ETH_HRX_CI.CI ETH_HRX_CFG.HLEN = true) ∧
    (∃ (vid : BitVec 12) (mac : BitVec 48) (port : Nat) (at' : Nat) (s : State), tget s.eth.macs (macKey vid.toNat mac.toNat) = some (port, at') ∧ s.get ETH_SW_CFG.AGE_S ≠ 0 ∧ at' + s.get ETH_SW_CFG.AGE_S * 1000000000 ≤ s.now) ∧
    (∃ (vid : BitVec 12) (mac : BitVec 48) (port : Nat) (at' : Nat) (s : State), tget s.eth.macs (macKey vid.toNat mac.toNat) = some (port, at') ∧ ((s.get ETH_SW_CFG.AGE_S = 0 ∨ s.now < at' + s.get ETH_SW_CFG.AGE_S * 1000000000))) ∧
    (∃ (seq : BitVec 16) (origin : Nat) (stamp : Nat) (corr : BitVec 64) (m16 : Int) (s : State), s.gptpOn = true ∧ s.getB ETH_GPTP_STAT.AS_CAP = true ∧ s.obsReason 2 stamp = 0 ∧ m16 = ((origin : Int) - 315964819000000000 + s.get ETH_GPTP_STAT.PDELAY) * 65536 + corr.toInt) ∧
    (∃ (seq : BitVec 16) (origin : Nat) (stamp : Nat) (corr : BitVec 64) (s : State), s.gptpOn = true ∧ s.getB ETH_GPTP_STAT.AS_CAP = true ∧ s.obsReason 2 stamp ≠ 0) ∧
    (∃ (seq : BitVec 16) (origin : Nat) (stamp : Nat) (corr : BitVec 64) (s : State), s.gptpOn = true ∧ s.getB ETH_GPTP_STAT.AS_CAP = true) ∧
    (∃ (seq : BitVec 16) (origin : Nat) (l : Nat) (corr : BitVec 64) (m16 : Int) (rest : List GptpSync) (s : State), s.gptpOn = true ∧ s.eth.syncs = { seq := seq.toNat, l := l } :: rest ∧ s.now ≤ l + 100000000 ∧ s.obsReason 2 l = 0 ∧ m16 = ((origin : Int) - 315964819000000000 + s.get ETH_GPTP_STAT.PDELAY) * 65536 + corr.toInt) ∧
    (∃ (s : State), s.eth.syncs ≠ []) ∧
    (∃ (delay : BitVec 16) (s : State), s.gptpOn = true ∧ (s.eth.pdAt.all fun t => decide (t + 1000000000 ≤ s.now)) = true) ∧
    (∃ (delay : BitVec 16) (a : Bool) (s : State), s.enabled 0x0F = true ∧ s.getB ETH_GPTP_CFG.GPTP_EN = true ∧ s.eth.pd = [a, false, false] ∧ (s.eth.pdAt.all fun t => decide (t + 1000000000 ≤ s.now)) = true ∧ s.getB ETH_GPTP_STAT.AS_CAP = true) ∧
    (∃ (a : Nat) (s : State), s.enabled 0x0F = true ∧ s.getB ETH_GPTP_CFG.GPTP_EN = false ∧ s.eth.gapSaid = false ∧ s.eth.lastObs = some a ∧ a + 3000000000 < s.now) ∧
    (∃ (s : State), s.enabled 0x0F = true ∧ s.getB ETH_GPTP_CFG.GPTP_EN = true ∧ s.eth.lastObs = none) ∧
    (∃ (p : Fin 4) (up : Bool) (s : State), s.portOn p.val = true ∧ s.getB (ETH_PORT_STAT.LINK p.val) = !up ∧ ((up = true ∨ s.get ETH_GPTP_CFG.GPTP_PORT ≠ p.val))) ∧
    (∃ (p : Fin 4) (s : State), s.portOn p.val = true ∧ s.getB (ETH_PORT_STAT.LINK p.val) = true ∧ s.get ETH_GPTP_CFG.GPTP_PORT = p.val) ∧
    (∃ (s : State), s.getB ETH_CTRL.ENABLE = true ∧ s.eth.wire = [] ∧ s.eth.egress = []) ∧
    (∃ (p : Nat) (f : EgFrame) (x : Taken) (s : State), s.getB ETH_CTRL.ENABLE = true ∧ s.eth.wire = [(p, f)] ∧ s.eth.egress = [] ∧ f.cmd = some x.id ∧ (s.ring 0x0F 0).taken = [x] ∧ x.done = none) :=
  ⟨⟨3, List.replicate 59 7, true, 0, 4, (((quiet.setB (enableFld 15) true).setB (ETH_PORT_CFG.EN 3) true).setB (ETH_PORT_STAT.LINK 3) true).set (ETH_PORT_STAT.ERR 3) 255, by decide⟩,
    ⟨3, List.replicate 60 7, 0, 4, 511000, 1000, 8192000, { (((quiet.setB (enableFld 15) true).setB (ETH_PORT_CFG.EN 3) true).setB (ETH_PORT_STAT.LINK 3) true).setReg (ETH_POL 3) 0x3E80001 |>.setB (EVT_SRC_CFG.EN 301) true with ltc := 1010, eth := { pol := [(3, (1000, 500))] } }, by decide⟩,
    ⟨3, List.replicate 60 7, 0, 4, 8192000, 1000, 8192000, { (((quiet.setB (enableFld 15) true).setB (ETH_PORT_CFG.EN 3) true).setB (ETH_PORT_STAT.LINK 3) true).setReg (ETH_POL 3) 0x3E80001 with ltc := 1010 }, by decide⟩,
    ⟨3, List.replicate 60 7, 0, 4, ((quiet.setB (enableFld 15) true).setB (ETH_PORT_CFG.EN 3) true).setB (ETH_PORT_STAT.LINK 3) true |>.setReg (ETH_VLAN 15) 0x80170001, by decide⟩,
    ⟨3, [2, 0, 0, 0, 0, 5, 2, 0, 0, 0, 0, 9, 0x81, 0, 0xA0, 7, 0x12, 0x34] ++ List.replicate 42 7, 0xFFF3, 4, 15, 0, 3, { dst := 0x020000000005, src := 0x020000000009, vid := 7, pcp := 5, etype := 0x1234, body := List.replicate 42 7 }, { ((quiet.setB (enableFld 15) true).setReg (ETH_PORT_CFG 3) 0x80000001).setReg (ETH_PORT_CFG 0) 0x80000001 |>.setB (ETH_PORT_STAT.LINK 3) true |>.setB (ETH_PORT_STAT.LINK 0) true |>.setReg (ETH_VLAN 15) 0x80090007 with ltc := 9, eth := { macs := [(0x7020000000005, (0, 3))] } }, by decide⟩,
    ⟨3, [2, 0, 0, 0, 0, 5, 2, 0, 0, 0, 0, 9, 0x81, 0, 0xA0, 7, 0x12, 0x34] ++ List.replicate 42 7, 4, 4, 15, 0, 3, { dst := 0x020000000005, src := 0x020000000009, vid := 7, pcp := 5, etype := 0x1234, body := List.replicate 42 7 }, { ((quiet.setB (enableFld 15) true).setReg (ETH_PORT_CFG 3) 0x80000001).setReg (ETH_PORT_CFG 0) 0x80000001 |>.setB (ETH_PORT_STAT.LINK 3) true |>.setB (ETH_PORT_STAT.LINK 0) true |>.setReg (ETH_VLAN 15) 0x80090007 with ltc := 9, eth := { macs := (0x7020000000005, (0, 3)) :: List.replicate 1023 (0x7020000000006, (0, 3)), egress := [(2, [{ data := [2], cmd := none }])] } }, by decide⟩,
    ⟨1, [0xFF, 0xFF, 0xFF, 0xFF, 0xFF, 0xFF, 2, 0, 0, 0, 0, 9, 0x12, 0x34] ++ List.replicate 46 7, 0, 4, 2, { dst := 0xFFFFFFFFFFFF, src := 0x020000000009, vid := 1, pcp := 0, etype := 0x1234, body := List.replicate 46 7 }, { ((quiet.setB (enableFld 15) true).setB (ETH_PORT_CFG.EN 1) true).setB (ETH_PORT_CFG.EN 0) true |>.setB (ETH_PORT_STAT.LINK 1) true |>.setB (ETH_PORT_STAT.LINK 0) true |>.setReg (ETH_VLAN 2) 0x800F0001 with eth := { wire := [(0, { data := [1], cmd := none })] } }, by decide⟩,
    ⟨3, [2, 0, 0, 0, 0, 5, 3, 0, 0, 0, 0, 9, 0x81, 0, 0xA0, 7, 0x12, 0x34] ++ List.replicate 42 7, 0, 4, 15, { dst := 0x020000000005, src := 0x030000000009, vid := 7, pcp := 5, etype := 0x1234, body := List.replicate 42 7 }, [60, 0, 3, 0, 0, 0, 0, 0, 4, 0, 0, 0, 0, 0, 0, 0] ++ List.replicate 48 0 ++ [2, 0, 0, 0, 0, 5, 3, 0, 0, 0, 0, 9, 0x81, 0, 0xA0, 7, 0x12, 0x34] ++ List.replicate 42 7, (quiet.setB (enableFld 15) true).setReg (ETH_PORT_CFG 3) 0x80000001 |>.setB (ETH_PORT_STAT.LINK 3) true |>.setReg (ETH_VLAN 15) 0x80180007 |>.setReg ETH_MAC_LO 5 |>.setReg ETH_MAC_HI 0x200 |>.setReg ETH_HRX_PI 127 |>.setReg ETH_HRX_CI 64 |>.setB (EVT_SRC_CFG.EN 304) true, by decide⟩,
    ⟨3, [2, 0, 0, 0, 0, 5, 3, 0, 0, 0, 0, 9, 0x81, 0, 0xA0, 7, 0x12, 0x34] ++ List.replicate 42 7, 0, 4, 15, { dst := 0x020000000005, src := 0x030000000009, vid := 7, pcp := 5, etype := 0x1234, body := List.replicate 42 7 }, { (quiet.setB (enableFld 15) true).setReg (ETH_PORT_CFG 3) 0x80000001 |>.setB (ETH_PORT_STAT.LINK 3) true |>.setReg (ETH_VLAN 15) 0x80180007 |>.setReg ETH_MAC_LO 5 |>.setReg ETH_MAC_HI 0x200 |>.setReg ETH_HRX_PI 127 |>.setReg ETH_HRX_CI 63 |>.setB (EVT_SRC_CFG.EN 305) true |>.set ETH_SW_CFG.AGE_S 1 with ltc := 2000000000, eth := { macs := [(0x7020000000005, (0, 3))] } }, by decide⟩,
    ⟨7, 0x020000000005, 2, 3, { quiet.set ETH_SW_CFG.AGE_S 1 with ltc := 1000000003, eth := { macs := [(0x7020000000005, (2, 3)), (0x7020000000006, (2, 3))] } }, by decide⟩,
    ⟨7, 0x020000000005, 2, 3, { quiet with ltc := 1000000003, eth := { macs := [(0x7020000000005, (2, 3)), (0x7020000000006, (2, 3))] } }, by decide⟩,
    ⟨3, 315964819000000100, 900, 0x18000, 10059776, { (quiet.setB (enableFld 15) true).setB (ETH_PORT_CFG.EN 2) true |>.setB (ETH_PORT_STAT.LINK 2) true |>.setReg ETH_GPTP_CFG 0x82000320 |>.setReg ETH_GPTP_STAT 0x80000034 |>.setB TMS_CTRL.ENABLE true |>.setReg TMS_SRC_CFG 0x20 with ltc := 1000 }, by decide⟩,
    ⟨3, 315964819000000100, 900, 0x18000, { (quiet.setB (enableFld 15) true).setB (ETH_PORT_CFG.EN 2) true |>.setB (ETH_PORT_STAT.LINK 2) true |>.setReg ETH_GPTP_CFG 0x82000320 |>.setReg ETH_GPTP_STAT 0x80000034 |>.setB (EVT_SRC_CFG.EN 31) true |>.setB (EVT_SRC_CFG.EN 302) true with ltc := 3000001000, eth := { lastObs := some 7 } }, by decide⟩,
    ⟨3, 0, 900, 0, { (quiet.setB (enableFld 15) true).setB (ETH_PORT_CFG.EN 2) true |>.setB (ETH_PORT_STAT.LINK 2) true |>.setReg ETH_GPTP_CFG 0x82000320 |>.setReg ETH_GPTP_STAT 0x80000034 with ltc := 1000 }, by decide⟩,
    ⟨3, 315964819000000100, 900, 0xFFFFFFFFFFFFFFFF, 9961471, [{ seq := 4, l := 950 }], { (quiet.setB (enableFld 15) true).setB (ETH_PORT_CFG.EN 2) true |>.setB (ETH_PORT_STAT.LINK 2) true |>.setReg ETH_GPTP_CFG 0x82000320 |>.setReg ETH_GPTP_STAT 0x80000034 |>.setB TMS_CTRL.ENABLE true |>.setReg TMS_SRC_CFG 0x20 with ltc := 1000, eth := { syncs := [{ seq := 3, l := 900 }, { seq := 4, l := 950 }] } }, by decide⟩,
    ⟨{ quiet with ltc := 100000901, eth := { syncs := [{ seq := 3, l := 900 }, { seq := 4, l := 901 }] } }, by decide⟩,
    ⟨800, { (quiet.setB (enableFld 15) true).setB (ETH_PORT_CFG.EN 2) true |>.setB (ETH_PORT_STAT.LINK 2) true |>.setReg ETH_GPTP_CFG 0x82000320 |>.setB (EVT_SRC_CFG.EN 302) true with ltc := 1000000007, eth := { pd := [true, false, false], pdAt := some 7 } }, by decide⟩,
    ⟨800, true, { (quiet.setB (enableFld 15) true).setReg ETH_GPTP_CFG 0x82000320 |>.setReg ETH_GPTP_STAT 0x80000034 |>.setB (EVT_SRC_CFG.EN 302) true with ltc := 1000000007, eth := { pd := [true, false, false], pdAt := some 7 } }, by decide⟩,
    ⟨5, { (quiet.setB (enableFld 15) true).setB (EVT_SRC_CFG.EN 302) true with ltc := 3000000006, eth := { lastObs := some 5 } }, by decide⟩,
    ⟨{ (quiet.setB (enableFld 15) true).setB (EVT_SRC_CFG.EN 302) true |>.setReg ETH_GPTP_CFG 0x82000033 |>.setReg ETH_GPTP_STAT 0x80000034 with eth := { pd := [true] } }, by decide⟩,
    ⟨3, true, (quiet.setB (enableFld 15) true).setB (ETH_PORT_CFG.EN 3) true |>.setB (EVT_SRC_CFG.EN 300) true, by decide⟩,
    ⟨3, { (quiet.setB (enableFld 15) true).setB (ETH_PORT_CFG.EN 3) true |>.setB (EVT_SRC_CFG.EN 300) true |>.setB (ETH_PORT_STAT.LINK 3) true |>.setReg ETH_GPTP_CFG 0x83000033 |>.setReg ETH_GPTP_STAT 0x80000034 |>.setB (EVT_SRC_CFG.EN 302) true with eth := { pd := [true], syncs := [{ seq := 3, l := 900 }] } }, by decide⟩,
    ⟨{ (quiet.setB ETH_CTRL.ENABLE true).setB (ETH_PORT_CFG.EN 3) true |>.setB (EVT_SRC_CFG.EN 300) true |>.setB (ETH_PORT_STAT.LINK 3) true |>.setReg ETH_GPTP_CFG 0x83000033 |>.setReg ETH_GPTP_STAT 0x80000034 |>.setB (EVT_SRC_CFG.EN 302) true with eth := { pd := [true], syncs := [{ seq := 3, l := 900 }] } }, by decide⟩,
    ⟨3, { data := [1], cmd := some 5 }, { id := 5, opcode := 6, handle := 0, tag := 9, irq := true, done := none }, { ringOn 15 0 |>.setB (ETH_PORT_CFG.EN 3) true |>.setB (ETH_PORT_STAT.LINK 3) true with rings := [(15 * 32, { nextId := 6, taken := [{ id := 5, opcode := 6, handle := 0, tag := 9, irq := true, done := none }] })], eth := { wire := [(3, { data := [1], cmd := some 5 })] } }, by decide⟩⟩

/-- States and operands that meet the hypotheses of FleetDatagramsKeysAndLidarBodiesAreCarried, clause by clause. -/
theorem wit_FleetDatagramsKeysAndLidarBodiesAreCarried :
    (∃ (f : Fin 8) (sweep : Nat) (off : Nat) (total : Nat) (data : List Byte) (payload : List Byte) (a : Nat) (s : State), s.enabled 0x0F = true ∧ s.getB (ETH_FLOW_CFG.EN f.val) = true ∧ 16 ≤ payload.length ∧ natLE (payload.take 4) = sweep ∧ natLE ((payload.drop 4).take 4) = off ∧ natLE ((payload.drop 8).take 4) = total ∧ payload.drop 16 = data ∧ off + data.length ≤ total ∧ off + data.length ≤ s.get (ETH_FLOW_BUF.BUF_KB f.val) * 1024 ∧ data.length < total ∧ tget s.eth.bodies (2 * f.val) = none ∧ tget s.eth.bodies (2 * f.val + 1) = none ∧ a = s.get64 (ETH_FLOW_BASE_LO f.val) (ETH_FLOW_BASE_HI f.val) ∧ s.fusHolds a = false) ∧
    (∃ (f : Fin 8) (sweep : Nat) (off : Nat) (total : Nat) (data : List Byte) (payload : List Byte) (a : Nat) (r : Rasm) (s : State), s.enabled 0x0F = true ∧ s.getB (ETH_FLOW_CFG.EN f.val) = true ∧ natLE (payload.take 4) = sweep ∧ natLE ((payload.drop 4).take 4) = off ∧ natLE ((payload.drop 8).take 4) = total ∧ payload.drop 16 = data ∧ off + data.length ≤ total ∧ off + data.length ≤ s.get (ETH_FLOW_BUF.BUF_KB f.val) * 1024 ∧ tget s.eth.bodies (2 * f.val) = none ∧ tget s.eth.bodies (2 * f.val + 1) = some r ∧ r.sweep = sweep ∧ r.total = some total ∧ { r with got := r.got ++ [(off, data.length)] : Rasm }.complete = true ∧ a = s.get64 (ETH_FLOW_BASE_LO f.val) (ETH_FLOW_BASE_HI f.val) + s.get (ETH_FLOW_BUF.BUF_KB f.val) * 1024) ∧
    (∃ (f : Fin 8) (sweep : Nat) (off : Nat) (total : Nat) (data : List Byte) (payload : List Byte) (a : Nat) (b : Nat) (r : Rasm) (s : State), s.enabled 0x0F = true ∧ s.getB (ETH_FLOW_CFG.EN f.val) = true ∧ 16 ≤ payload.length ∧ natLE (payload.take 4) = sweep ∧ natLE ((payload.drop 4).take 4) = off ∧ natLE ((payload.drop 8).take 4) = total ∧ payload.drop 16 = data ∧ off + data.length ≤ total ∧ off + data.length ≤ s.get (ETH_FLOW_BUF.BUF_KB f.val) * 1024 ∧ data.length < total ∧ tget s.eth.bodies (2 * f.val) = some r ∧ r.sweep ≠ sweep ∧ tget s.eth.bodies (2 * f.val + 1) = none ∧ a = s.get64 (ETH_FLOW_BASE_LO f.val) (ETH_FLOW_BASE_HI f.val) ∧ b = a + s.get (ETH_FLOW_BUF.BUF_KB f.val) * 1024 ∧ s.fusHolds a = false ∧ s.fusHolds b = false) ∧
    (∃ (f : Fin 8) (payload : List Byte) (r : Rasm) (s : State), s.enabled 0x0F = true ∧ s.getB (ETH_FLOW_CFG.EN f.val) = true ∧ tget s.eth.bodies (2 * f.val) = some r ∧ natLE (payload.take 4) = r.sweep ∧ r.total ≠ some (natLE ((payload.drop 8).take 4))) ∧
    (∃ (f : Fin 8) (payload : List Byte) (a : Nat) (s : State), s.enabled 0x0F = true ∧ s.getB (ETH_FLOW_CFG.EN f.val) = true ∧ tget s.eth.bodies (2 * f.val) = none ∧ tget s.eth.bodies (2 * f.val + 1) = none ∧ 16 ≤ payload.length ∧ natLE ((payload.drop 4).take 4) + (payload.length - 16) ≤ natLE ((payload.drop 8).take 4) ∧ natLE ((payload.drop 4).take 4) + (payload.length - 16) ≤ s.get (ETH_FLOW_BUF.BUF_KB f.val) * 1024 ∧ a = s.get64 (ETH_FLOW_BASE_LO f.val) (ETH_FLOW_BASE_HI f.val) ∧ s.fusHolds a = true ∧ s.fusHolds (a + s.get (ETH_FLOW_BUF.BUF_KB f.val) * 1024) = true) ∧
    (∃ (d : List Byte) (stamp : Nat) (s : State), s.enabled 0x0F = true ∧ ((natLE (d.take 4) ≠ 0x314C4654 ∨ natLE ((d.drop 4).take 2) ≠ 1 ∨ 1400 < natLE ((d.drop 6).take 2) ∨ d.length ≠ 36 + natLE ((d.drop 6).take 2)))) ∧
    (∃ (d : List Byte) (stamp : Nat) (len : Nat) (s : State), s.enabled 0x0F = true ∧ natLE (d.take 4) = 0x314C4654 ∧ natLE ((d.drop 4).take 2) = 1 ∧ natLE ((d.drop 6).take 2) = len ∧ len ≤ 1400 ∧ d.length = 36 + len ∧ (s.eth.peers.find? fun e => e.2.id = natLE ((d.drop 8).take 4)) = none) ∧
    (∃ (d : List Byte) (stamp : Nat) (len : Nat) (seq : Nat) (i : Nat) (p : Peer) (s : State), s.enabled 0x0F = true ∧ natLE (d.take 4) = 0x314C4654 ∧ natLE ((d.drop 4).take 2) = 1 ∧ natLE ((d.drop 6).take 2) = len ∧ len ≤ 1400 ∧ d.length = 36 + len ∧ (s.eth.peers.find? fun e => e.2.id = natLE ((d.drop 8).take 4)) = some (i, p) ∧ natLE ((d.drop 12).take 8) = seq ∧ ((seq = p.high ∨ seq + 1024 ≤ p.high ∨ p.seen.contains seq = true))) ∧
    (∃ (d : List Byte) (e : List Byte) (stamp : Nat) (len : Nat) (seq : Nat) (i : Nat) (p : Peer) (k : Nat × Nat) (s : State), s.enabled 0x0F = true ∧ natLE (d.take 4) = 0x314C4654 ∧ natLE ((d.drop 4).take 2) = 1 ∧ natLE ((d.drop 6).take 2) = len ∧ len ≤ 1400 ∧ d.length = 36 + len ∧ (s.eth.peers.find? fun e => e.2.id = natLE ((d.drop 8).take 4)) = some (i, p) ∧ natLE ((d.drop 12).take 8) = seq ∧ seq ≠ p.high ∧ p.high < seq + 1024 ∧ p.seen.contains seq = false ∧ tget s.nv.keys p.rxKey = some k ∧ s.ringFull ETH_FLT_RX_PI.PI ETH_FLT_RX_CI.CI ETH_FLT_RX_CFG.RLEN = false ∧ e = bytesLE 4 (s.handle 0x0A i) ++ bytesLE 2 len ++ bytesLE 2 0 ++ bytesLE 8 seq ++ bytesLE 8 stamp ++ bytesLE 40 0) ∧
    (∃ (d : List Byte) (stamp : Nat) (len : Nat) (seq : Nat) (i : Nat) (p : Peer) (s : State), s.enabled 0x0F = true ∧ natLE (d.take 4) = 0x314C4654 ∧ natLE ((d.drop 4).take 2) = 1 ∧ natLE ((d.drop 6).take 2) = len ∧ len ≤ 1400 ∧ d.length = 36 + len ∧ (s.eth.peers.find? fun e => e.2.id = natLE ((d.drop 8).take 4)) = some (i, p) ∧ natLE ((d.drop 12).take 8) = seq ∧ seq ≠ p.high ∧ p.high < seq + 1024 ∧ p.seen.contains seq = false ∧ tget s.nv.keys p.rxKey = none) ∧
    (∃ (d : List Byte) (stamp : Nat) (len : Nat) (seq : Nat) (i : Nat) (p : Peer) (k : Nat × Nat) (s : State), s.enabled 0x0F = true ∧ natLE (d.take 4) = 0x314C4654 ∧ natLE ((d.drop 4).take 2) = 1 ∧ natLE ((d.drop 6).take 2) = len ∧ len ≤ 1400 ∧ d.length = 36 + len ∧ (s.eth.peers.find? fun e => e.2.id = natLE ((d.drop 8).take 4)) = some (i, p) ∧ natLE ((d.drop 12).take 8) = seq ∧ seq ≠ p.high ∧ p.high < seq + 1024 ∧ p.seen.contains seq = false ∧ tget s.nv.keys p.rxKey = some k ∧ s.ringFull ETH_FLT_RX_PI.PI ETH_FLT_RX_CI.CI ETH_FLT_RX_CFG.RLEN = true) ∧
    (∃ (ring : Fin 1) (e : Entry) (x : Nat) (pid : Nat) (tx : Nat) (rx : Nat) (port : Nat) (vid : Nat) (s : State), s.ready 0x0F ring.val 0 e ∧ tfree s.eth.peers 64 = some x ∧ (s.cmdOf 0x0F ring.val e).arg 16 4 = pid ∧ (s.cmdOf 0x0F ring.val e).arg 20 1 = tx ∧ (s.cmdOf 0x0F ring.val e).arg 21 1 = rx ∧ (s.cmdOf 0x0F ring.val e).arg 22 1 = port ∧ (s.cmdOf 0x0F ring.val e).arg 30 2 = vid ∧ tx ≤ 63 ∧ rx ≤ 63 ∧ port ≤ 3 ∧ vid ≤ 4095 ∧ s.portOn port = true ∧ (tget s.nv.keys tx).isSome = true ∧ (tget s.nv.keys rx).isSome = true ∧ s.getB (ETH_KEY_STAT.SPENT tx) = false ∧ (s.eth.peers.any fun e => e.2.id = pid) = false) ∧
    (∃ (ring : Fin 1) (e : Entry) (x : Nat) (s : State), s.ready 0x0F ring.val 0 e ∧ s.checkHandle 0x0A s.peerLive e.handle.toNat = none ∧ hIndex e.handle.toNat = x) ∧
    (∃ (ring : Fin 1) (e : Entry) (x : Nat) (buf : Nat) (len : Nat) (seq : Nat) (k : Nat) (ep : Nat) (c : Nat) (h : List Byte) (p : Peer) (s : State), s.ready 0x0F ring.val 0 e ∧ s.checkHandle 0x0A s.peerLive e.handle.toNat = none ∧ hIndex e.handle.toNat = x ∧ tget s.eth.peers x = some p ∧ (s.cmdOf 0x0F ring.val e).arg 16 8 = buf ∧ (s.cmdOf 0x0F ring.val e).arg 24 2 = len ∧ len ≤ 1400 ∧ s.inWins 0x0F buf len = true ∧ s.portOn p.port = true ∧ s.portUp p.port = true ∧ tget s.nv.keys p.txKey = some (k, ep) ∧ tget s.eth.counts p.txKey = some c ∧ c ≤ 0xFFFFFFFF ∧ seq = ep * 2 ^ 32 + c ∧ h = bytesLE 4 0x314C4654 ++ bytesLE 2 1 ++ bytesLE 2 len ++ bytesLE 4 (s.reg ETH_FLT_CFG).toNat ++ bytesLE 8 seq ∧ (tget s.eth.wire p.port).isSome = true) ∧
    (∃ (ring : Fin 1) (e : Entry) (x : Nat) (buf : Nat) (len : Nat) (seq : Nat) (k : Nat) (ep : Nat) (h : List Byte) (p : Peer) (s : State), s.ready 0x0F ring.val 0 e ∧ s.checkHandle 0x0A s.peerLive e.handle.toNat = none ∧ hIndex e.handle.toNat = x ∧ tget s.eth.peers x = some p ∧ (s.cmdOf 0x0F ring.val e).arg 16 8 = buf ∧ (s.cmdOf 0x0F ring.val e).arg 24 2 = len ∧ len ≤ 1400 ∧ s.inWins 0x0F buf len = true ∧ s.portOn p.port = true ∧ s.portUp p.port = true ∧ tget s.nv.keys p.txKey = some (k, ep) ∧ ((tget s.eth.counts p.txKey).all fun n => decide (0xFFFFFFFF < n)) = true ∧ ep ≠ 0xFFFFFFFF ∧ seq = (ep + 1) * 2 ^ 32 ∧ h = bytesLE 4 0x314C4654 ++ bytesLE 2 1 ++ bytesLE 2 len ++ bytesLE 4 (s.reg ETH_FLT_CFG).toNat ++ bytesLE 8 seq ∧ (tget s.eth.wire p.port).isSome = true) ∧
    (∃ (ring : Fin 1) (e : Entry) (x : Nat) (buf : Nat) (len : Nat) (k : Nat) (p : Peer) (s : State), s.ready 0x0F ring.val 0 e ∧ s.checkHandle 0x0A s.peerLive e.handle.toNat = none ∧ hIndex e.handle.toNat = x ∧ tget s.eth.peers x = some p ∧ p.txKey ≤ 63 ∧ (s.cmdOf 0x0F ring.val e).arg 16 8 = buf ∧ (s.cmdOf 0x0F ring.val e).arg 24 2 = len ∧ len ≤ 1400 ∧ s.inWins 0x0F buf len = true ∧ s.portOn p.port = true ∧ s.portUp p.port = true ∧ tget s.nv.keys p.txKey = some (k, 0xFFFFFFFF) ∧ ((tget s.eth.counts p.txKey).all fun n => decide (0xFFFFFFFF < n)) = true ∧ s.getB (ETH_KEY_STAT.SPENT p.txKey) = false) ∧
    (∃ (ring : Fin 1) (e : Entry) (k : Nat) (s : State), s.ready 0x0F ring.val 0 e ∧ (s.cmdOf 0x0F ring.val e).arg 16 1 = k ∧ k ≤ 63 ∧ s.nv.lifeCycle = 0) ∧
    (∃ (ring : Fin 1) (e : Entry) (k : Nat) (s : State), s.ready 0x0F ring.val 0 e ∧ (s.cmdOf 0x0F ring.val e).arg 16 1 = k ∧ k ≤ 63 ∧ s.openLifeCycle = true) ∧
    (∃ (ring : Fin 1) (e : Entry) (k : Nat) (s : State), s.ready 0x0F ring.val 0 e ∧ (s.cmdOf 0x0F ring.val e).arg 16 1 = k ∧ k ≤ 63 ∧ s.openLifeCycle = false) ∧
    (∃ (ring : Fin 1) (e : Entry) (p : Nat) (q : Nat) (buf : Nat) (len : Nat) (s : State), s.ready 0x0F ring.val 0 e ∧ (s.cmdOf 0x0F ring.val e).arg 16 1 = p ∧ (s.cmdOf 0x0F ring.val e).arg 24 8 = buf ∧ (s.cmdOf 0x0F ring.val e).arg 32 2 = len ∧ p ≤ 3 ∧ 60 ≤ len ∧ len ≤ 1518 ∧ s.inWins 0x0F buf len = true ∧ s.portUp p = true ∧ (parseFrame 0 (memBytes s.dram buf len)).pcp / 2 = q ∧ (((tget s.eth.wire p).isSome = true ∨ tgetD s.eth.egress (4 * p) [] = [] ∧ tgetD s.eth.egress (4 * p + 1) [] = [] ∧ tgetD s.eth.egress (4 * p + 2) [] = [] ∧ tgetD s.eth.egress (4 * p + 3) [] = []))) ∧
    (∃ (p : Fin 4) (f : EgFrame) (x : Taken) (s : State), s.portUp p.val = true ∧ tget s.eth.wire p.val = some f ∧ f.cmd = some x.id ∧ (s.ring 0x0F 0).taken = [x] ∧ x.done = none ∧ tgetD s.eth.egress (4 * p.val) [] = [] ∧ tgetD s.eth.egress (4 * p.val + 1) [] = [] ∧ tgetD s.eth.egress (4 * p.val + 2) [] = [] ∧ tgetD s.eth.egress (4 * p.val + 3) [] = []) ∧
    (∃ (p : Fin 4) (f : EgFrame) (g : EgFrame) (rest : List EgFrame) (s : State), s.portUp p.val = true ∧ tget s.eth.wire p.val = some f ∧ f.cmd = none ∧ tgetD s.eth.egress (4 * p.val + 3) [] = g :: rest) :=
  ⟨⟨7, 3, 62, 64, [5, 6], [3, 0, 0, 0, 62, 0, 0, 0, 64, 0, 0, 0, 0, 0, 0, 0, 5, 6], 0x10000, quiet.setB (enableFld 15) true |>.setReg (ETH_FLOW_CFG 7) 0x80000000 |>.setReg (ETH_FLOW_BASE_LO 7) 0x10000, by decide⟩,
    ⟨7, 3, 0, 4, [5, 6], [3, 0, 0, 0, 0, 0, 0, 0, 4, 0, 0, 0, 0, 0, 0, 0, 5, 6], 0x11000, { sweep := 3, total := some 4, got := [(2, 2)] }, { quiet.setB (enableFld 15) true |>.setReg (ETH_FLOW_CFG 7) 0x80000000 |>.setReg (ETH_FLOW_BASE_LO 7) 0x10000 with eth := { bodies := [(15, { sweep := 3, total := some 4, got := [(2, 2)] })] }, fus := { srcs := [(2, { src0 with kind := 2, feed := 1, link := 7 })] } }, by decide⟩,
    ⟨7, 3, 62, 64, [5, 6], [3, 0, 0, 0, 62, 0, 0, 0, 64, 0, 0, 0, 0, 0, 0, 0, 5, 6], 0x10000, 0x11000, { sweep := 4, total := some 64, got := [(0, 63)] }, { quiet.setB (enableFld 15) true |>.setReg (ETH_FLOW_CFG 7) 0x80000000 |>.setReg (ETH_FLOW_BASE_LO 7) 0x10000 |>.setB (EVT_SRC_CFG.EN 303) true with eth := { bodies := [(14, { sweep := 4, total := some 64, got := [(0, 63)] })] } }, by decide⟩,
    ⟨7, [4, 0, 0, 0, 62, 0, 0, 0, 65, 0, 0, 0, 0, 0, 0, 0, 5, 6], { sweep := 4, total := some 64, got := [(0, 63)] }, { quiet.setB (enableFld 15) true |>.setReg (ETH_FLOW_CFG 7) 0x80000000 |>.setReg (ETH_FLOW_CNT 7) 0xFF with eth := { bodies := [(14, { sweep := 4, total := some 64, got := [(0, 63)] })] } }, by decide⟩,
    ⟨7, [3, 0, 0, 0, 62, 0, 0, 0, 64, 0, 0, 0, 0, 0, 0, 0, 5, 6], 0x10000, { quiet.setB (enableFld 15) true |>.setReg (ETH_FLOW_CFG 7) 0x80000000 |>.setReg (ETH_FLOW_BASE_LO 7) 0x10000 with fus := { inbox := [{ kind := 2, link := 7, addr := 0x10000, tov := none }, { kind := 2, link := 7, addr := 0x11000, tov := none }] } }, by decide⟩,
    ⟨[0x54, 0x46, 0x4C, 0x31, 1, 0, 1, 0] ++ List.replicate 28 0, 4, quiet.setB (enableFld 15) true |>.setB (EVT_SRC_CFG.EN 299) true, by decide⟩,
    ⟨[0x54, 0x46, 0x4C, 0x31, 1, 0, 1, 0, 9, 0, 0, 0] ++ List.replicate 25 0, 4, 1, { quiet.setB (enableFld 15) true |>.setB (EVT_SRC_CFG.EN 299) true with eth := { peers := [(63, { peer0 with id := 8 })] } }, by decide⟩,
    ⟨[0x54, 0x46, 0x4C, 0x31, 1, 0, 1, 0, 9, 0, 0, 0] ++ [0, 0, 0, 0, 7, 0, 0, 0] ++ List.replicate 17 0, 4, 1, 0x700000000, 63, { peer0 with id := 9, high := 0x700000400, seen := [0x7000003FC, 0x700000400] }, { quiet.setB (enableFld 15) true |>.setB (EVT_SRC_CFG.EN 299) true with eth := { peers := [(63, { peer0 with id := 9, high := 0x700000400, seen := [0x7000003FC, 0x700000400] })] } }, by decide⟩,
    ⟨[0x54, 0x46, 0x4C, 0x31, 1, 0, 1, 0, 9, 0, 0, 0] ++ [6, 4, 0, 0, 7, 0, 0, 0] ++ List.replicate 17 0, [63, 0, 0, 0x28, 1, 0, 0, 0, 6, 4, 0, 0, 7, 0, 0, 0, 4] ++ List.replicate 47 0, 4, 1, 0x700000406, 63, { peer0 with id := 9, high := 0x700000400, seen := [0x7000003FC, 0x700000400] }, (7, 3), { quiet.setB (enableFld 15) true |>.setB (EVT_SRC_CFG.EN 299) true |>.setReg ETH_FLT_RX_PI 127 |>.setReg ETH_FLT_RX_CI 64 |>.setB (EVT_SRC_CFG.EN 297) true with eth := { peers := [(63, { peer0 with id := 9, high := 0x700000400, seen := [0x7000003FC, 0x700000400] })] }, nv := { keys := [(peer0.rxKey, (7, 3))] } }, by decide⟩,
    ⟨[0x54, 0x46, 0x4C, 0x31, 1, 0, 1, 0, 9, 0, 0, 0] ++ [6, 4, 0, 0, 7, 0, 0, 0] ++ List.replicate 17 0, 4, 1, 0x700000406, 63, { peer0 with id := 9, high := 0x700000400, seen := [0x7000003FC, 0x700000400] }, { quiet.setB (enableFld 15) true |>.setB (EVT_SRC_CFG.EN 299) true with eth := { peers := [(63, { peer0 with id := 9, high := 0x700000400, seen := [0x7000003FC, 0x700000400] })] } }, by decide⟩,
    ⟨[0x54, 0x46, 0x4C, 0x31, 1, 0, 1, 0, 9, 0, 0, 0] ++ [6, 4, 0, 0, 7, 0, 0, 0] ++ List.replicate 17 0, 4, 1, 0x700000406, 63, { peer0 with id := 9, high := 0x700000400, seen := [0x7000003FC, 0x700000400] }, (7, 3), { quiet.setB (enableFld 15) true |>.setReg ETH_FLT_RX_PI 64 |>.setB (EVT_SRC_CFG.EN 298) true with eth := { peers := [(63, { peer0 with id := 9, high := 0x700000400, seen := [0x7000003FC, 0x700000400] })] }, nv := { keys := [(peer0.rxKey, (7, 3))] } }, by decide⟩,
    ⟨0, { flags := 1, handle := 0, tag := 9, args := 0x1388c0a800010fff0500000000020003023f00000009 }, 1, 9, 63, 2, 3, 4095, { ringOn 15 0 |>.setB (ETH_PORT_CFG.EN 3) true with nv := { keys := [(2, (7, 3)), (63, (8, 4))] }, eth := { peers := [(0, { peer0 with id := 8 })] } }, by unfold State.ready State.ringFree; decide⟩,
    ⟨0, { flags := 1, handle := 0x2800003F, tag := 9, args := 0 }, 63, { ringOn 15 0 with eth := { peers := [(0, { peer0 with id := 8 }), (63, peer0)] } }, by unfold State.ready State.ringFree; decide⟩,
    ⟨0, { flags := 1, handle := 0x2800003F, tag := 9, args := 0x20000000000002000 }, 63, 0x2000, 2, 0x400000005, 8, 4, 5, [0x54, 0x46, 0x4C, 0x31, 1, 0, 2, 0, 3, 0, 0, 0, 5, 0, 0, 0, 4, 0, 0, 0], peer0, { ringOn 15 0 |>.setB (ETH_PORT_CFG.EN 3) true |>.setB (ETH_PORT_STAT.LINK 3) true |>.setReg ETH_FLT_CFG 3 |>.set (ETH_DWIN_SIZE.MIB 0) 1 with dram := [(0x2000, 7)], nv := { keys := [(63, (8, 4))] }, eth := { peers := [(63, peer0)], counts := [(63, 5)], wire := [(3, { data := [1], cmd := none })] } }, by unfold State.ready State.ringFree; decide⟩,
    ⟨0, { flags := 1, handle := 0x2800003F, tag := 9, args := 0x20000000000002000 }, 63, 0x2000, 2, 0x500000000, 8, 4, [0x54, 0x46, 0x4C, 0x31, 1, 0, 2, 0, 3, 0, 0, 0, 0, 0, 0, 0, 5, 0, 0, 0], peer0, { ringOn 15 0 |>.setB (ETH_PORT_CFG.EN 3) true |>.setB (ETH_PORT_STAT.LINK 3) true |>.setReg ETH_FLT_CFG 3 |>.set (ETH_DWIN_SIZE.MIB 0) 1 with dram := [(0x2000, 7)], nv := { keys := [(63, (8, 4))] }, eth := { peers := [(63, peer0)], counts := [], wire := [(3, { data := [1], cmd := none })] } }, by unfold State.ready State.ringFree; decide⟩,
    ⟨0, { flags := 1, handle := 0x2800003F, tag := 9, args := 0x20000000000002000 }, 63, 0x2000, 2, 8, peer0, { ringOn 15 0 |>.setB (ETH_PORT_CFG.EN 3) true |>.setB (ETH_PORT_STAT.LINK 3) true |>.setB (EVT_SRC_CFG.EN 306) true |>.set (ETH_DWIN_SIZE.MIB 0) 1 with dram := [(0x2000, 7)], nv := { keys := [(63, (8, 0xFFFFFFFF))] }, eth := { peers := [(63, peer0)], counts := [(63, 0x100000000)] } }, by unfold State.ready State.ringFree; decide⟩,
    ⟨0, { flags := 1, handle := 0, tag := 9, args := 0x1122334455000000000000003f }, 63, { ringOn 15 0 |>.setB (ETH_KEY_STAT.SPENT 63) true with nv := { keys := [(63, (8, 0xFFFFFFFF))] }, eth := { counts := [(63, 0x100000000)] } }, by unfold State.ready State.ringFree; decide⟩,
    ⟨0, { flags := 1, handle := 0, tag := 9, args := 0x1122334455000000000000003f }, 63, { ringOn 15 0 |>.setB (ETH_KEY_STAT.SPENT 63) true |>.setB (ETH_KEY_STAT.FULL 63) true with nv := { lifeCycle := 1, keys := [(63, (8, 0xFFFFFFFF))] }, eth := { counts := [(63, 0x100000000)] } }, by unfold State.ready State.ringFree; decide⟩,
    ⟨0, { flags := 1, handle := 0, tag := 9, args := 0x1122334455000000000000003f }, 63, { ringOn 15 0 |>.setB (ETH_KEY_STAT.FULL 63) true with nv := { lifeCycle := 2, keys := [(63, (8, 0xFFFFFFFF))] } }, by unfold State.ready State.ringFree; decide⟩,
    ⟨0, { flags := 1, handle := 0, tag := 9, args := 0x3c00000000000020000000000000000003 }, 3, 0, 0x2000, 60, { ringOn 15 0 |>.setB (ETH_PORT_CFG.EN 3) true |>.setB (ETH_PORT_STAT.LINK 3) true |>.set (ETH_DWIN_SIZE.MIB 0) 1 with dram := [(0x2000, 7)] }, by unfold State.ready State.ringFree; decide⟩,
    ⟨3, { data := [1], cmd := some 5 }, { id := 5, opcode := 6, handle := 0, tag := 9, irq := true, done := none }, { ringOn 15 0 |>.setB (ETH_PORT_CFG.EN 3) true |>.setB (ETH_PORT_STAT.LINK 3) true with rings := [(15 * 32, { nextId := 6, taken := [{ id := 5, opcode := 6, handle := 0, tag := 9, irq := true, done := none }] })], eth := { wire := [(3, { data := [1], cmd := some 5 })] } }, by decide⟩,
    ⟨3, { data := [1], cmd := none }, { data := [3], cmd := some 7 }, [{ data := [4], cmd := none }], { (quiet.setB (enableFld 15) true).setB (ETH_PORT_CFG.EN 3) true |>.setB (ETH_PORT_STAT.LINK 3) true with eth := { wire := [(3, { data := [1], cmd := none })], egress := [(12, [{ data := [2], cmd := none }]), (15, [{ data := [3], cmd := some 7 }, { data := [4], cmd := none }])] } }, by decide⟩⟩

/-- States and operands that meet the hypotheses of PairModulesCycleJoinKeepTimeAndCarryCells, clause by clause. -/
theorem wit_PairModulesCycleJoinKeepTimeAndCarryCells :
    (∃ (s : State), s.enabled 0x10 = true ∧ s.now % 100000 = 0 ∧ s.pair.cycAt ≠ some s.now ∧ s.lanesTrue = true ∧ s.pair.sends = [] ∧ s.pair.cyc < 65536) ∧
    (∃ (i : Fin 64) (l : Nat) (v : Nat) (s : State), s.enabled 0x10 = true ∧ s.now % 100000 = 0 ∧ s.pair.cycAt ≠ some s.now ∧ s.lanesTrue = true ∧ s.pairJoined = true ∧ s.getB (PAIR_SIGO.EN i.val) = true ∧ ((tget s.cle.slots (s.get (PAIR_SIGO.SLOT i.val))).all fun c => decide (c.applied ≠ 0)) = true ∧ latestAt (tgetD s.cle.hist (s.get (PAIR_SIGO.SLOT i.val)) []) 2000 s.now = some (l, v)) ∧
    (∃ (x : PairSend) (n : Nat) (s : State), s.enabled 0x10 = true ∧ s.now % 100000 = 0 ∧ s.pair.cycAt ≠ some s.now ∧ s.lanesTrue = true ∧ s.pair.sends = [x] ∧ 0 < x.pos ∧ x.pos < x.len ∧ x.len - x.pos = n ∧ n ≤ 48) ∧
    (∃ (s : State), s.enabled 0x10 = true ∧ s.now % 100000 = 0 ∧ s.pair.cycAt ≠ some s.now ∧ s.get PAIR_STAT.LANE_UP ≠ 0 ∧ (∀ l ∈ List.range 2, ((tget s.pair.heard l).all fun x => decide (x + 1000000 < s.now)) = true) ∧ s.pair.sends = [] ∧ s.pair.bodies = []) ∧
    (∃ (lane : Fin 2) (cell : List Byte) (stamp : Nat) (s : State), s.pairLane lane.val = true ∧ s.lanesTrue = true ∧ cellOk cell = false) ∧
    (∃ (lane : Fin 2) (cell : List Byte) (stamp : Nat) (s : State), s.pairLane lane.val = true ∧ s.lanesTrue = true ∧ cellOk cell = true ∧ natLE (cell.take 1) ≠ 1) ∧
    (∃ (lane : Fin 2) (s : State), s.pairLane lane.val = true) ∧
    (∃ (lane : Fin 2) (cell : List Byte) (stamp : Nat) (cyc : Nat) (ident : Nat) (why : Nat) (s : State), s.pairLane lane.val = true ∧ s.lanesTrue = true ∧ cellOk cell = true ∧ natLE (cell.take 1) = 1 ∧ cellN cell 2 2 = cyc ∧ (s.pair.heads.any fun h => decide (h.cyc = cyc)) = false ∧ s.get PAIR_CFG.ROLE = 0 ∧ tget s.pair.sent (cellN cell 52 2) = none ∧ s.get PAIR_STAT.STATE ≠ 2 ∧ ident = (s.reg (STR_IDENT 0)).toNat + 2 ^ 32 * (s.reg (STR_IDENT 1)).toNat + 2 ^ 64 * (s.reg (STR_IDENT 2)).toNat + 2 ^ 96 * (s.reg (STR_IDENT 3)).toNat ∧ (why = (if cellN cell 1 1 % 2 = 0 then 1 else if cellN cell 4 16 ≠ ident then 2 else if cellN cell 20 8 = s.manN s.nv.active 8 8 ∨ s.manN s.nv.active 16 8 ≠ 0 ∧ cellN cell 28 8 = s.manN s.nv.active 16 8 then 0 else 3))) ∧
    (∃ (lane : Fin 2) (cell : List Byte) (stamp : Nat) (x : Taken) (y : PairSend) (s : State), s.pairLane lane.val = true ∧ s.lanesTrue = true ∧ cellOk cell = true ∧ natLE (cell.take 1) = 1 ∧ (s.pair.heads.any fun h => decide (h.cyc = cellN cell 2 2)) = false ∧ s.get PAIR_CFG.ROLE = cellN cell 1 1 % 2 ∧ s.get PAIR_STAT.STATE = 2 ∧ s.pair.bodies = [] ∧ s.pair.sends = [y] ∧ y.id = x.id ∧ (s.ring 0x10 0).taken = [x] ∧ x.done = none) ∧
    (∃ (lane : Fin 2) (cell : List Byte) (stamp : Nat) (tx : Nat) (l : List Int) (d : Int) (o : Int) (s : State), s.pairLane lane.val = true ∧ s.lanesTrue = true ∧ cellOk cell = true ∧ natLE (cell.take 1) = 1 ∧ (s.pair.heads.any fun h => decide (h.cyc = cellN cell 2 2)) = false ∧ s.get PAIR_CFG.ROLE = 1 ∧ cellN cell 1 1 % 2 = 0 ∧ s.joinWhy cell = 0 ∧ s.get PAIR_STAT.STATE = 2 ∧ 16 ≤ s.pair.good ∧ tget s.pair.sent (cellN cell 52 2) = some tx ∧ l = (s.pair.trips ++ [(stamp : Int) - tx - cellN cell 54 4]).drop (s.pair.trips.length - 15) ∧ d = l.foldl (· + ·) 0 / (2 * l.length) ∧ 0 ≤ d ∧ d < 2 ^ 32 ∧ o = (cellN cell 36 8 : Int) + d - s.mtAt stamp ∧ -(2 ^ 31) ≤ o ∧ o < 2 ^ 31 ∧ s.obsReason 3 stamp = 0) ∧
    (∃ (lane : Fin 2) (cell : List Byte) (h : PairHead) (rest : List PairHead) (j : Nat) (s : State), s.pairLane lane.val = true ∧ s.lanesTrue = true ∧ cellOk cell = true ∧ natLE (cell.take 1) = 2 ∧ cellN cell 1 1 = j ∧ j ≤ 5 ∧ s.pair.heads = h :: rest ∧ h.cyc = cellN cell 2 2 ∧ (rest.all fun g => decide (g.cyc ≠ h.cyc)) = true ∧ bitAt h.seen j = false ∧ s.pairJoined = true ∧ s.pairHeld = false) ∧
    (∃ (lane : Fin 2) (cell : List Byte) (s : State), s.pairLane lane.val = true ∧ s.lanesTrue = true ∧ cellOk cell = true ∧ natLE (cell.take 1) = 2 ∧ (s.pair.heads.all fun h => decide (h.cyc ≠ cellN cell 2 2)) = true) ∧
    (∃ (lane : Fin 2) (cell : List Byte) (h : PairHead) (rest : List PairHead) (j : Nat) (s : State), s.pairLane lane.val = true ∧ s.lanesTrue = true ∧ cellOk cell = true ∧ natLE (cell.take 1) = 2 ∧ cellN cell 1 1 = j ∧ j ≤ 5 ∧ s.pair.heads = h :: rest ∧ h.cyc = cellN cell 2 2 ∧ ((s.pairJoined = false ∨ s.pairHeld = true))) ∧
    (∃ (lane : Fin 2) (cell : List Byte) (k : Nat) (a : Nat) (s : State), s.pairLane lane.val = true ∧ s.lanesTrue = true ∧ cellOk cell = true ∧ natLE (cell.take 1) = 3 ∧ s.pairJoined = true ∧ cellN cell 1 1 = k ∧ k ≤ 7 ∧ s.pair.bulk.contains (cellN cell 2 2, k, cellN cell 4 4, cellN cell 8 4) = false ∧ cellN cell 8 4 = 0 ∧ tget s.pair.bodies (2 * k) = none ∧ tget s.pair.bodies (2 * k + 1) = none ∧ a = s.get64 PAIR_CVI_BASE_LO PAIR_CVI_BASE_HI + 2 * 1024 * s.get PAIR_CVI_BUF.BUF_KB * k ∧ s.fusHolds a = false ∧ 1 ≤ s.get PAIR_CVI_BUF.BUF_KB) ∧
    (∃ (lane : Fin 2) (cell : List Byte) (k : Nat) (off : Nat) (n : Nat) (tot : Nat) (a : Nat) (r : Rasm) (s : State), s.pairLane lane.val = true ∧ s.lanesTrue = true ∧ cellOk cell = true ∧ natLE (cell.take 1) = 3 ∧ s.pairJoined = true ∧ cellN cell 1 1 = k ∧ k ≤ 7 ∧ s.pair.bulk.contains (cellN cell 2 2, k, cellN cell 4 4, cellN cell 8 4) = false ∧ cellN cell 8 4 = off ∧ 16 ≤ off ∧ tget s.pair.bodies (2 * k) = some r ∧ r.sweep = cellN cell 4 4 ∧ r.total = some tot ∧ off < tot ∧ n = min 48 (tot - off) ∧ off + n ≤ s.get PAIR_CVI_BUF.BUF_KB * 1024 ∧ { r with got := r.got ++ [(off, n)] : Rasm }.complete = true ∧ a = s.get64 PAIR_CVI_BASE_LO PAIR_CVI_BASE_HI + 2 * 1024 * s.get PAIR_CVI_BUF.BUF_KB * k) ∧
    (∃ (lane : Fin 2) (s : State), s.enabled 0x10 = true ∧ ((tget s.pair.heard lane.val).all fun t => decide (t + 1000000 < s.now)) = true ∧ s.getB ⟨PAIR_STAT, 24 + lane.val, 1⟩ = true ∧ s.getB ⟨PAIR_STAT, 24 + (1 - lane.val), 1⟩ = true) ∧
    (∃ (lane : Fin 2) (s : State), s.enabled 0x10 = true ∧ ((tget s.pair.heard lane.val).all fun t => decide (t + 1000000 < s.now)) = true ∧ s.getB ⟨PAIR_STAT, 24 + lane.val, 1⟩ = true ∧ s.getB ⟨PAIR_STAT, 24 + (1 - lane.val), 1⟩ = false ∧ s.pair.bodies = [] ∧ s.pair.sends = []) ∧
    (∃ (ring : Fin 1) (e : Entry) (k : Nat) (a : Nat) (len : Nat) (s : State), s.ready 0x10 ring.val 0 e ∧ s.lanesTrue = true ∧ (s.cmdOf 0x10 ring.val e).arg 16 1 = k ∧ (s.cmdOf 0x10 ring.val e).arg 24 8 = a ∧ k ≤ 7 ∧ a % 64 = 0 ∧ len = 64 + 48 * memNat s.dram a 4 ∧ s.inWins 0x10 a len = true ∧ s.inWins 0x10 a 64 = true ∧ s.pairJoined = true) ∧
    (∃ (ring : Fin 1) (e : Entry) (k : Nat) (a : Nat) (len : Nat) (s : State), s.ready 0x10 ring.val 0 e ∧ s.lanesTrue = true ∧ (s.cmdOf 0x10 ring.val e).arg 16 1 = k ∧ (s.cmdOf 0x10 ring.val e).arg 24 8 = a ∧ k ≤ 7 ∧ a % 64 = 0 ∧ len = 64 + 48 * memNat s.dram a 4 ∧ s.inWins 0x10 a len = true ∧ s.inWins 0x10 a 64 = true ∧ s.pairJoined = false) ∧
    (∃ (y : PairSend) (rest : List PairSend) (x : Taken) (s : State), s.pair.sends = y :: rest ∧ y.len ≤ y.pos ∧ y.id = x.id ∧ (s.ring 0x10 0).taken = [x] ∧ x.done = none) ∧
    (∃ (s : State), s.getB PAIR_CTRL.ENABLE = true ∧ s.pair.sends = [] ∧ s.pair.bodies = []) ∧
    (∃ (k : Nat) (r : Rasm) (s : State), s.getB PAIR_CTRL.ENABLE = true ∧ s.pair.sends = [] ∧ s.pair.bodies = [(k, r)]) ∧
    (∃ (x : Taken) (y : PairSend) (s : State), s.getB PAIR_CTRL.ENABLE = true ∧ s.pair.sends = [y] ∧ s.pair.bodies = [] ∧ y.id = x.id ∧ (s.ring 0x10 0).taken = [x] ∧ x.done = none) :=
  ⟨⟨{ quiet.setB (enableFld 16) true |>.setB PAIR_CFG.ROLE true with ltc := 200000, pair := { cyc := 65535, sseq := 255, cycAt := some 100000 } }, by decide⟩,
    ⟨63, 198000, 0x3F3DF3B6, { quiet.setB (enableFld 16) true |>.set PAIR_STAT.STATE 2 |>.set PAIR_STAT.LANE_UP 3 |>.setReg (PAIR_SIGO 63) 0x8000005F with ltc := 200000, pair := { cycAt := some 100000, heard := [(0, 150000), (1, 150000)] }, cle := { hist := [(95, [(197000, 1), (198000, 0x3F3DF3B6), (198001, 7)])] } }, by decide⟩,
    ⟨{ id := 1, link := 7, addr := 0x4000, body := 3, len := 112, mt := 9, pos := 96 }, 16, { quiet.setB (enableFld 16) true with ltc := 200000, dram := [(0x4060, 5), (0x406F, 6), (0x4070, 7)], pair := { sends := [{ id := 1, link := 7, addr := 0x4000, body := 3, len := 112, mt := 9, pos := 96 }] } }, by decide⟩,
    ⟨{ quiet.setB (enableFld 16) true |>.set PAIR_STAT.STATE 2 |>.set PAIR_STAT.LANE_UP 3 |>.setB (EVT_SRC_CFG.EN 313) true |>.setB (EVT_SRC_CFG.EN 314) true with ltc := 2000000, pair := { heard := [(0, 999999)] } }, by decide⟩,
    ⟨1, List.replicate 64 1, 4, quiet.setB (enableFld 16) true |>.set PAIR_CFG.LANE_EN 2 |>.setB (EVT_SRC_CFG.EN 318) true, by decide⟩,
    ⟨1, pairSig0 4 17 0x801, 4, quiet.setB (enableFld 16) true |>.set PAIR_CFG.LANE_EN 2, by decide⟩,
    ⟨1, quiet.setB (enableFld 16) true |>.set PAIR_CFG.LANE_EN 2 |>.setB (EVT_SRC_CFG.EN 318) true, by decide⟩,
    ⟨1, pairHead0 1 17 0x5000 9 100, 4, 17, 0, 0, { quiet.setB (enableFld 16) true |>.set PAIR_CFG.LANE_EN 2 |>.setB (EVT_SRC_CFG.EN 313) true |>.setB (EVT_SRC_CFG.EN 314) true |>.set PAIR_STAT.STATE 1 |>.set PAIR_STAT.LANE_UP 1 with ltc := 900, pair := { heard := [(0, 7)], good := 15, heads := [{ cyc := 16, rel := 0, seen := 3 }] } }, by decide⟩,
    ⟨1, pairHead0 0 17 0x5000 9 100, 4, { id := 5, opcode := 1, handle := 0, tag := 9, irq := true, done := none }, { id := 5, link := 7, addr := 0x4000, body := 3, len := 112, mt := 9, pos := 96 }, { quiet.setB (enableFld 16) true |>.set PAIR_CFG.LANE_EN 2 |>.setB (EVT_SRC_CFG.EN 313) true |>.set PAIR_STAT.STATE 2 |>.set PAIR_STAT.LANE_UP 1 |>.setReg (CRING_BASE_LO 16 0) 4096 with ltc := 900, rings := [(16 * 32, { nextId := 6, taken := [{ id := 5, opcode := 1, handle := 0, tag := 9, irq := true, done := none }] })], pair := { heard := [(0, 7)], good := 16, sends := [{ id := 5, link := 7, addr := 0x4000, body := 3, len := 112, mt := 9, pos := 96 }] } }, by decide⟩,
    ⟨0, pairHead0 0 20 5000 9 100, 3000, 2000, [900], 450, 2450, { quiet.setB (enableFld 16) true |>.set PAIR_CFG.LANE_EN 3 |>.setB PAIR_CFG.ROLE true |>.setB (EVT_SRC_CFG.EN 315) true |>.set PAIR_STAT.STATE 2 |>.set PAIR_STAT.LANE_UP 2 |>.set TMS_SRC_CFG.PRI_PAIR 1 |>.setB TMS_CTRL.ENABLE true with ltc := 3100, pair := { heard := [(1, 7)], good := 16, sent := [(9, 2000)] } }, by decide⟩,
    ⟨0, pairSig0 4 17 0x801, { cyc := 17, rel := 500, seen := 3 }, [{ cyc := 18, rel := 600, seen := 0 }], 4, { quiet.setB (enableFld 16) true |>.set PAIR_CFG.LANE_EN 1 |>.set PAIR_STAT.STATE 2 |>.set PAIR_STAT.LANE_UP 1 |>.setB (EVT_SRC_CFG.EN 316) true with ltc := 501, pair := { heard := [(0, 7)], heads := [{ cyc := 17, rel := 500, seen := 3 }, { cyc := 18, rel := 600, seen := 0 }], rx := [(48, [(1, 2)]), (50, [(1, 2)])] } }, by decide⟩,
    ⟨0, pairSig0 4 17 0x801, { quiet.setB (enableFld 16) true |>.set PAIR_CFG.LANE_EN 1 |>.set PAIR_STAT.STATE 2 |>.set PAIR_STAT.LANE_UP 1 with ltc := 501, pair := { heard := [(0, 7)], heads := [{ cyc := 18, rel := 600, seen := 0 }] } }, by decide⟩,
    ⟨0, pairSig0 4 17 0x801, { cyc := 17, rel := 500, seen := 3 }, [], 4, { quiet.setB (enableFld 16) true |>.set PAIR_CFG.LANE_EN 1 |>.set PAIR_STAT.STATE 2 |>.set PAIR_STAT.LANE_UP 1 with ltc := 501, pair := { heard := [(0, 7)], trust := false, heads := [{ cyc := 17, rel := 500, seen := 3 }], rx := [(48, [(1, 2)]), (50, [(1, 2)])] } }, by decide⟩,
    ⟨1, pairBulk0 7 3 0, 7, 0x1E000, { quiet.setB (enableFld 16) true |>.set PAIR_CFG.LANE_EN 3 |>.set PAIR_STAT.STATE 2 |>.set PAIR_STAT.LANE_UP 1 |>.setReg PAIR_CVI_BASE_LO 0x10000 with pair := { heard := [(0, 7)], bulk := [(16, 7, 3, 0)] } }, by decide⟩,
    ⟨1, pairBulk0 7 3 48, 7, 48, 16, 64, 0x1E000, { sweep := 3, total := some 64, got := [(0, 48)] }, { quiet.setB (enableFld 16) true |>.set PAIR_CFG.LANE_EN 3 |>.set PAIR_STAT.STATE 2 |>.set PAIR_STAT.LANE_UP 1 |>.setReg PAIR_CVI_BASE_LO 0x10000 with dram := [(0x1E008, 0x55)], pair := { heard := [(0, 7)], bodies := [(14, { sweep := 3, total := some 64, got := [(0, 48)] })] }, fus := { srcs := [(2, { src0 with kind := 6, feed := 1, link := 7 })] } }, by decide⟩,
    ⟨1, { quiet.setB (enableFld 16) true |>.set PAIR_STAT.LANE_UP 3 |>.setB (EVT_SRC_CFG.EN 314) true with ltc := 1000005, pair := { heard := [(1, 4)] } }, by decide⟩,
    ⟨1, { quiet.setB (enableFld 16) true |>.set PAIR_STAT.LANE_UP 2 |>.set PAIR_STAT.STATE 2 |>.setB (EVT_SRC_CFG.EN 314) true |>.setB (EVT_SRC_CFG.EN 313) true with ltc := 1000005, pair := { good := 16, heard := [(1, 4)] } }, by decide⟩,
    ⟨0, { flags := 1, handle := 0, tag := 9, args := 0x40000000000000000007 }, 7, 0x4000, 112, { ringOn 16 0 |>.set PAIR_STAT.STATE 2 |>.set PAIR_STAT.LANE_UP 1 |>.set (PAIR_DWIN_SIZE.MIB 1) 1 with dram := [(0x4000, 1), (0x4008, 7)], pair := { heard := [(0, 0)], bodyNo := [(7, 2)] } }, by unfold State.ready State.ringFree; decide⟩,
    ⟨0, { flags := 1, handle := 0, tag := 9, args := 0x40000000000000000007 }, 7, 0x4000, 112, { ringOn 16 0 |>.set PAIR_STAT.STATE 1 |>.set PAIR_STAT.LANE_UP 1 |>.set (PAIR_DWIN_SIZE.MIB 1) 1 with dram := [(0x4000, 1), (0x4008, 7)], pair := { heard := [(0, 0)] } }, by unfold State.ready State.ringFree; decide⟩,
    ⟨{ id := 5, link := 7, addr := 0x4000, body := 3, len := 112, mt := 9, pos := 144 }, [], { id := 5, opcode := 1, handle := 0, tag := 9, irq := true, done := none }, { quiet.setB (enableFld 16) true |>.setReg (CRING_BASE_LO 16 0) 4096 with rings := [(16 * 32, { nextId := 6, taken := [{ id := 5, opcode := 1, handle := 0, tag := 9, irq := true, done := none }] })], pair := { sends := [{ id := 5, link := 7, addr := 0x4000, body := 3, len := 112, mt := 9, pos := 144 }] } }, by decide⟩,
    ⟨{ quiet.setB PAIR_CTRL.ENABLE true |>.set PAIR_STAT.LANE_UP 3 |>.set PAIR_STAT.STATE 2 |>.setB (EVT_SRC_CFG.EN 314) true |>.setB (EVT_SRC_CFG.EN 313) true with ltc := 1000005, pair := { good := 16, heard := [(1, 4)] } }, by decide⟩,
    ⟨14, { sweep := 3, total := some 64, got := [(0, 48)] }, { quiet.setB PAIR_CTRL.ENABLE true |>.set PAIR_STAT.LANE_UP 3 |>.set PAIR_STAT.STATE 2 |>.setB (EVT_SRC_CFG.EN 317) true with pair := { bodies := [(14, { sweep := 3, total := some 64, got := [(0, 48)] })] } }, by decide⟩,
    ⟨{ id := 5, opcode := 1, handle := 0, tag := 9, irq := true, done := none }, { id := 5, link := 7, addr := 0x4000, body := 3, len := 112, mt := 9, pos := 96 }, { ringOn 16 0 |>.set PAIR_STAT.LANE_UP 3 |>.set PAIR_STAT.STATE 2 with rings := [(16 * 32, { nextId := 6, taken := [{ id := 5, opcode := 1, handle := 0, tag := 9, irq := true, done := none }] })], pair := { sends := [{ id := 5, link := 7, addr := 0x4000, body := 3, len := 112, mt := 9, pos := 96 }] } }, by decide⟩⟩

/-- States and operands that meet the hypotheses of PanelPowersUpRefreshesAndPowersDownInOrder, clause by clause. -/
theorem wit_PanelPowersUpRefreshesAndPowersDownInOrder :
    (∃ (ring : Fin 1) (e : Entry) (s : State), s.ready 0x11 ring.val 0 e ∧ s.pnl.op = none ∧ s.panelTrue = true ∧ s.get PNL_STAT.STATE = 4) ∧
    (∃ (ring : Fin 1) (e : Entry) (tv : Int) (b : Nat) (o : PnlOp) (s : State), s.ready 0x11 ring.val 0 e ∧ s.pnl.op = none ∧ s.panelTrue = true ∧ s.get PNL_STAT.STATE ≠ 4 ∧ s.pnlTemp = some tv ∧ s.pnl.pdet = true ∧ b < 8 ∧ s.wfAddr b ≠ 0 ∧ toSigned 16 (memNat s.dram (s.wfAddr b + 10) 2) ≤ tv ∧ tv < toSigned 16 (memNat s.dram (s.wfAddr b + 12) 2) ∧ (((List.range b).all fun c => decide (s.wfAddr c = 0 ∨ tv < toSigned 16 (memNat s.dram (s.wfAddr c + 10) 2) ∨ toSigned 16 (memNat s.dram (s.wfAddr c + 12) 2) ≤ tv)) = true) ∧ o = { kind := 1, id := (s.ring 0x11 ring.val).nextId, wf := s.wfAddr b, hdr := memBytes s.dram (s.wfAddr b) 64 } ∧ s.wfBad o = 0) ∧
    (∃ (ring : Fin 1) (e : Entry) (tv : Int) (s : State), s.ready 0x11 ring.val 0 e ∧ s.pnl.op = none ∧ s.panelTrue = true ∧ s.get PNL_STAT.STATE ≠ 4 ∧ s.pnlTemp = some tv ∧ s.pnl.pdet = true ∧ (((List.range 8).all fun c => decide (s.wfAddr c = 0 ∨ tv < toSigned 16 (memNat s.dram (s.wfAddr c + 10) 2) ∨ toSigned 16 (memNat s.dram (s.wfAddr c + 12) 2) ≤ tv)) = true)) ∧
    (∃ (ring : Fin 1) (e : Entry) (tv : Int) (s : State), s.ready 0x11 ring.val 0 e ∧ s.pnl.op = none ∧ s.panelTrue = true ∧ s.get PNL_STAT.STATE ≠ 4 ∧ s.pnlTemp = some tv ∧ s.pnl.pdet = false) ∧
    (∃ (o : PnlOp) (rail : Fin 5) (s : State), s.enabled 0x11 = true ∧ s.pnl.op = some o ∧ s.panelTrue = true ∧ s.railDue = true ∧ s.get PNL_STAT.STATE = 1 ∧ rail.val = s.pnl.rails ∧ rail.val < 4) ∧
    (∃ (o : PnlOp) (s : State), s.enabled 0x11 = true ∧ s.pnl.op = some o ∧ s.panelTrue = true ∧ s.railDue = true ∧ s.get PNL_STAT.STATE = 1 ∧ s.pnl.rails = 4 ∧ s.getB KA_FLAGS.ORDERLY = false) ∧
    (∃ (o : PnlOp) (n : Nat) (s : State), s.enabled 0x11 = true ∧ s.pnl.op = some o ∧ s.panelTrue = true ∧ s.railDue = true ∧ s.get PNL_STAT.STATE = 1 ∧ s.pnl.rails = 4 ∧ s.getB KA_FLAGS.ORDERLY = true ∧ n = max (o.len 16 0) (o.len 16 1) ∧ n ≠ 0) ∧
    (∃ (o : PnlOp) (fb : Nat) (fi : Nat) (s : State), s.enabled 0x11 = true ∧ s.pnl.op = some o ∧ s.panelTrue = true ∧ s.frameDue = some (fb, fi) ∧ s.get PNL_STAT.STATE = 2 ∧ o.frame + 1 < o.frames) ∧
    (∃ (o : PnlOp) (n : Nat) (fb : Nat) (fi : Nat) (s : State), s.enabled 0x11 = true ∧ s.pnl.op = some o ∧ s.panelTrue = true ∧ s.frameDue = some (fb, fi) ∧ s.get PNL_STAT.STATE = 2 ∧ o.frames ≤ o.frame + 1 ∧ n = max (o.len 16 0) (o.len 16 1) ∧ n ≠ 0) ∧
    (∃ (o : PnlOp) (tr : Nat → Nat) (fb : Nat) (fi : Nat) (s : State), s.enabled 0x11 = true ∧ s.pnl.op = some o ∧ s.panelTrue = true ∧ s.frameDue = some (fb, fi) ∧ ((s.get PNL_STAT.STATE = 3 ∨ s.get PNL_STAT.STATE = 5)) ∧ o.frame + 1 < o.frames ∧ o.x0 + o.rw ≤ s.get PNL_GEOM.W ∧ ((List.range (s.get PNL_GEOM.W * s.get PNL_GEOM.H)).all fun k => decide (tr k = if s.get PNL_STAT.STATE = 3 then 16 else 4 * (s.pix k).state + (s.pix k).target)) = true ∧ o.y0 + o.rh ≤ s.get PNL_GEOM.H ∧ ((s.pnlCells o).all fun k => decide (s.wfCode o.wf (tr k) (s.pix k).v o.frame < 3 ∧ -2000 < (s.pix k).ledger ∧ (s.pix k).ledger < 2000)) = true ∧ o.vsh ≤ 40 ∧ o.vsl ≤ 40) ∧
    (∃ (o : PnlOp) (k : Nat) (c : Nat) (fb : Nat) (fi : Nat) (s : State), s.enabled 0x11 = true ∧ s.pnl.op = some o ∧ s.panelTrue = true ∧ s.frameDue = some (fb, fi) ∧ s.get PNL_STAT.STATE = 5 ∧ o.frame + 1 < o.frames ∧ o.rw = 1 ∧ o.rh = 1 ∧ k = o.y0 * s.get PNL_GEOM.W + o.x0 ∧ c = s.wfCode o.wf (4 * (s.pix k).state + (s.pix k).target) (s.pix k).v o.frame ∧ o.frame < o.len (4 * (s.pix k).state + (s.pix k).target) (s.pix k).v ∧ c < 3 ∧ 2047 < (s.pix k).ledger + o.delta c) ∧
    (∃ (o : PnlOp) (x : Taken) (fb : Nat) (fi : Nat) (s : State), s.enabled 0x11 = true ∧ s.pnl.op = some o ∧ s.panelTrue = true ∧ s.frameDue = some (fb, fi) ∧ s.get PNL_STAT.STATE = 3 ∧ o.frames ≤ o.frame + 1 ∧ o.rh = 0 ∧ o.kind ≠ 0 ∧ (s.ring 0x11 0).taken = [x] ∧ x.id = o.id ∧ x.done = none) ∧
    (∃ (ring : Fin 1) (e : Entry) (tv : Int) (b : Nat) (a : Nat) (x0 : Nat) (y0 : Nat) (rw : Nat) (rh : Nat) (w : Nat) (h : Nat) (o : PnlOp) (s : State), s.ready 0x11 ring.val 0 e ∧ s.pnl.op = none ∧ s.panelTrue = true ∧ s.get PNL_STAT.STATE = 4 ∧ s.pnlTemp = some tv ∧ s.pnlBand tv = some b ∧ w = s.get PNL_GEOM.W ∧ h = s.get PNL_GEOM.H ∧ a = (s.cmdOf 0x11 ring.val e).arg 16 8 ∧ x0 = (s.cmdOf 0x11 ring.val e).arg 24 2 ∧ y0 = (s.cmdOf 0x11 ring.val e).arg 26 2 ∧ rw = (if (s.cmdOf 0x11 ring.val e).arg 28 2 = 0 then w - x0 else (s.cmdOf 0x11 ring.val e).arg 28 2) ∧ rh = (if (s.cmdOf 0x11 ring.val e).arg 30 2 = 0 then h - y0 else (s.cmdOf 0x11 ring.val e).arg 30 2) ∧ x0 % 8 = 0 ∧ rw % 8 = 0 ∧ x0 + rw ≤ w ∧ y0 + rh ≤ h ∧ s.inWins 0x11 a (h * s.pnlStride) = true ∧ o = { kind := 3, id := (s.ring 0x11 ring.val).nextId, x0 := x0, y0 := y0, rw := rw, rh := rh, wf := s.wfAddr b, hdr := memBytes s.dram (s.wfAddr b) 64 } ∧ s.wfBad o = 0 ∧ ((s.pnlCells o).any fun k => decide (0 < o.len (4 * (s.pix k).state + bitsOf (memByte s.dram (a + k / w * s.pnlStride + k % w / 4)).toNat (2 * (k % w % 4)) 2) 0 ∧ 0 < o.len (4 * (s.pix k).state + bitsOf (memByte s.dram (a + k / w * s.pnlStride + k % w / 4)).toNat (2 * (k % w % 4)) 2) 1)) = true) ∧
    (∃ (ring : Fin 1) (e : Entry) (s : State), s.ready 0x11 ring.val 0 e ∧ s.pnl.op = none ∧ s.panelTrue = true ∧ s.get PNL_STAT.STATE ≠ 4 ∧ (s.cmdOf 0x11 ring.val e).arg 24 8 = 0 ∧ s.get PNL_GEOM.W % 8 = 0 ∧ s.inWins 0x11 ((s.cmdOf 0x11 ring.val e).arg 16 8) (s.get PNL_GEOM.H * s.pnlStride) = true) ∧
    (∃ (ring : Fin 1) (e : Entry) (s : State), s.ready 0x11 ring.val 0 e ∧ s.pnl.op = none ∧ s.panelTrue = true ∧ (s.cmdOf 0x11 ring.val e).arg 24 2 % 8 ≠ 0) ∧
    (∃ (o : PnlOp) (x : Taken) (fb : Nat) (fi : Nat) (s : State), s.enabled 0x11 = true ∧ s.pnl.op = some o ∧ s.panelTrue = true ∧ s.frameDue = some (fb, fi) ∧ o.kind = 3 ∧ s.get PNL_STAT.STATE = 5 ∧ o.frames ≤ o.frame + 1 ∧ o.x0 + o.rw ≤ s.get PNL_GEOM.W ∧ o.y0 + o.rh ≤ s.get PNL_GEOM.H ∧ ((s.pnlCells o).all fun k => decide (o.len (4 * (s.pix k).state + (s.pix k).target) (s.pix k).v ≤ o.frame)) = true ∧ (s.ring 0x11 0).taken = [x] ∧ x.id = o.id ∧ x.done = none) ∧
    (∃ (ring : Fin 1) (e : Entry) (s : State), s.ready 0x11 ring.val 0 e ∧ s.pnl.op = none ∧ s.panelTrue = true ∧ s.get PNL_STAT.STATE ≠ 4) ∧
    (∃ (ring : Fin 1) (e : Entry) (tv : Int) (b : Nat) (o : PnlOp) (s : State), s.ready 0x11 ring.val 0 e ∧ s.pnl.op = none ∧ s.panelTrue = true ∧ s.get PNL_STAT.STATE = 4 ∧ (s.cmdOf 0x11 ring.val e).arg 16 8 = 0 ∧ s.pnlTemp = some tv ∧ s.pnlBand tv = some b ∧ o = { kind := 2, id := (s.ring 0x11 ring.val).nextId, wf := s.wfAddr b, hdr := memBytes s.dram (s.wfAddr b) 64 } ∧ s.wfBad o = 0) ∧
    (∃ (o : PnlOp) (fb : Nat) (fi : Nat) (s : State), s.enabled 0x11 = true ∧ s.pnl.op = some o ∧ s.panelTrue = true ∧ s.frameDue = some (fb, fi) ∧ s.get PNL_STAT.STATE = 6 ∧ o.x0 + o.rw ≤ s.get PNL_GEOM.W ∧ o.y0 + o.rh ≤ s.get PNL_GEOM.H ∧ 0 < o.vsh ∧ o.vsh ≤ 1000 ∧ 0 < o.vsl ∧ o.vsl ≤ 1000 ∧ ((s.pnlCells o).all fun k => decide (-2048 ≤ (s.pix k).ledger ∧ (s.pix k).ledger ≤ 2047)) = true) ∧
    (∃ (o : PnlOp) (rail : Fin 5) (s : State), s.enabled 0x11 = true ∧ s.pnl.op = some o ∧ s.panelTrue = true ∧ s.railDue = true ∧ s.get PNL_STAT.STATE = 7 ∧ rail.val + 1 = s.pnl.rails ∧ 1 ≤ rail.val) ∧
    (∃ (o : PnlOp) (x : Taken) (s : State), s.enabled 0x11 = true ∧ s.pnl.op = some o ∧ s.panelTrue = true ∧ s.railDue = true ∧ s.get PNL_STAT.STATE = 7 ∧ s.pnl.rails = 1 ∧ o.kind ≠ 0 ∧ (s.ring 0x11 0).taken = [x] ∧ x.id = o.id ∧ x.done = none) ∧
    (∃ (ring : Fin 1) (e : Entry) (tv : Int) (b : Nat) (o : PnlOp) (s : State), s.ready 0x11 ring.val 0 e ∧ s.pnl.op = none ∧ s.panelTrue = true ∧ s.get PNL_STAT.STATE = 4 ∧ s.pnlTemp = some tv ∧ s.pnlBand tv = some b ∧ o = { kind := 4, id := (s.ring 0x11 ring.val).nextId, wf := s.wfAddr b, hdr := memBytes s.dram (s.wfAddr b) 64 } ∧ s.wfBad o = 0) ∧
    (∃ (ring : Fin 1) (e : Entry) (tv : Int) (b : Nat) (a : Nat) (w : Nat) (h : Nat) (o : PnlOp) (s : State), s.ready 0x11 ring.val 0 e ∧ s.pnl.op = none ∧ s.panelTrue = true ∧ s.get PNL_STAT.STATE = 4 ∧ s.pnlTemp = some tv ∧ s.pnlBand tv = some b ∧ w = s.get PNL_GEOM.W ∧ h = s.get PNL_GEOM.H ∧ a = (s.cmdOf 0x11 ring.val e).arg 16 8 ∧ a ≠ 0 ∧ s.inWins 0x11 a (h * s.pnlStride) = true ∧ o = { kind := 2, id := (s.ring 0x11 ring.val).nextId, park := a, x0 := 0, y0 := 0, rw := w, rh := h, wf := s.wfAddr b, hdr := memBytes s.dram (s.wfAddr b) 64 } ∧ s.wfBad o = 0 ∧ ((s.pnlCells o).any fun k => decide (0 < o.len (4 * (s.pix k).state + bitsOf (memByte s.dram (a + k / w * s.pnlStride + k % w / 4)).toNat (2 * (k % w % 4)) 2) 0 ∧ 0 < o.len (4 * (s.pix k).state + bitsOf (memByte s.dram (a + k / w * s.pnlStride + k % w / 4)).toNat (2 * (k % w % 4)) 2) 1)) = true) ∧
    (∃ (o : PnlOp) (q : PnlOp) (tv : Int) (b : Nat) (fb : Nat) (fi : Nat) (s : State), s.enabled 0x11 = true ∧ s.pnl.op = some o ∧ s.panelTrue = true ∧ s.frameDue = some (fb, fi) ∧ o.kind = 2 ∧ s.get PNL_STAT.STATE = 5 ∧ o.frames ≤ o.frame + 1 ∧ o.rh = 0 ∧ s.pnlTemp = some tv ∧ s.pnlBand tv = some b ∧ q = { o with wf := s.wfAddr b, hdr := memBytes s.dram (s.wfAddr b) 64, x0 := 0, y0 := 0, frame := 0, frames := s.get PNL_SEQ.SETTLE_FR, rw := s.get PNL_GEOM.W, rh := s.get PNL_GEOM.H } ∧ s.wfBad q = 0) ∧
    (∃ (ring : Fin 1) (e : Entry) (s : State), s.ready 0x11 ring.val 0 e ∧ s.pnl.op = none ∧ s.panelTrue = true ∧ s.get PNL_STAT.STATE ≠ 4) ∧
    (∃ (o : PnlOp) (x : Taken) (s : State), s.panelTrue = false ∧ s.pnl.op = some o ∧ o.kind ≠ 0 ∧ (s.ring 0x11 0).taken = [x] ∧ x.id = o.id ∧ x.done = none) ∧
    (∃ (o : PnlOp) (fb : Nat) (n : Nat) (s : State), s.enabled 0x11 = true ∧ s.pnl.op = some o ∧ s.panelTrue = true ∧ s.pnl.frameAt = some (fb, n) ∧ (s.now + 7 - fb) * s.get PNL_TIM.FRATE < n * 1000000000) ∧
    (∃ (o : PnlOp) (x : Nat) (rail : Fin 5) (s : State), s.pnl.op = some o ∧ s.panelTrue = true ∧ s.pnl.railAt = some x ∧ s.now + 7 < x + 500000) :=
  ⟨⟨0, { flags := 1, handle := 0, tag := 9, args := 0 }, ringOn 17 0 |>.set PNL_STAT.STATE 4, by unfold State.ready State.ringFree; decide⟩,
    ⟨0, { flags := 1, handle := 0, tag := 9, args := 0 }, 50, 7, { kind := 1, id := 0, wf := 0x2000, hdr := wftHdr0 }, { ringOn 17 0 |>.setReg (PNL_WF_LO 7) 0x2000 |>.setReg (PNL_WF_LO 6) 0x4000 |>.set PNL_TEMP.T 50 with dram := wft0, pnl := { pdet := true } }, by unfold State.ready State.ringFree; decide⟩,
    ⟨0, { flags := 1, handle := 0, tag := 9, args := 0 }, 100, { ringOn 17 0 |>.setReg (PNL_WF_LO 7) 0x2000 |>.set PNL_TEMP.T 100 |>.setB (EVT_SRC_CFG.EN 323) true with dram := wft0, pnl := { pdet := true } }, by unfold State.ready State.ringFree; decide⟩,
    ⟨0, { flags := 1, handle := 0, tag := 9, args := 0 }, -3, ringOn 17 0 |>.set PNL_TEMP.T 0xFFD, by unfold State.ready State.ringFree; decide⟩,
    ⟨pop0, 3, { quiet.setB (enableFld 17) true |>.set PNL_STAT.STATE 1 with ltc := 500100, pnl := { op := some pop0, rails := 3, vddp := true, pdet := true, railAt := some 100 } }, by decide⟩,
    ⟨pop0, { quiet.setB (enableFld 17) true |>.set PNL_STAT.STATE 1 with ltc := 500100, pnl := { op := some pop0, rails := 4, vddp := true, pdet := true, railAt := some 100 } }, by decide⟩,
    ⟨pop0, 2, { quiet.setB (enableFld 17) true |>.set PNL_STAT.STATE 1 |>.setB KA_FLAGS.ORDERLY true |>.set PNL_GEOM.W 8 |>.set PNL_GEOM.H 2 with ltc := 500100, dram := wft0, pnl := { op := some pop0, rails := 4, vddp := true, pdet := true, railAt := some 100, pix := [(3, { ledger := -50 }), (15, { ledger := 50 })] } }, by decide⟩,
    ⟨{ pop0 with frames := 50, frame := 48 }, 7, 1, { quiet.setB (enableFld 17) true |>.set PNL_STAT.STATE 2 with ltc := 25000007, pnl := { frameAt := some (7, 1), op := some { pop0 with frames := 50, frame := 48 }, rails := 5, vddp := true, pdet := true } }, by decide⟩,
    ⟨{ pop0 with frames := 50, frame := 49 }, 2, 7, 1, { quiet.setB (enableFld 17) true |>.set PNL_STAT.STATE 2 |>.set PNL_GEOM.W 8 |>.set PNL_GEOM.H 2 |>.setB (EVT_SRC_CFG.EN 326) true with ltc := 25000007, dram := wft0, pnl := { frameAt := some (7, 1), op := some { pop0 with frames := 50, frame := 49 }, rails := 5, vddp := true, pdet := true, pix := [(3, { ledger := -50 }), (15, { ledger := 50 })] } }, by decide⟩,
    ⟨{ pop0 with frames := 2, x0 := 0, y0 := 1, rw := 8, rh := 1 }, fun _ => 16, 7, 1, { quiet.setB (enableFld 17) true |>.set PNL_STAT.STATE 3 |>.set PNL_GEOM.W 8 |>.set PNL_GEOM.H 2 with ltc := 25000007, dram := wft0, pnl := { frameAt := some (7, 1), op := some { pop0 with frames := 2, x0 := 0, y0 := 1, rw := 8, rh := 1 }, rails := 5, vddp := true, pdet := true, pix := [(3, { ledger := -50 }), (14, { ledger := -5 }), (15, { ledger := 50, v := 1 })] } }, by decide⟩,
    ⟨{ pop0 with frames := 2, x0 := 7, y0 := 1, rw := 1, rh := 1 }, 15, 1, 7, 1, { quiet.setB (enableFld 17) true |>.set PNL_STAT.STATE 5 |>.set PNL_GEOM.W 8 |>.set PNL_GEOM.H 2 |>.setB (EVT_SRC_CFG.EN 325) true with ltc := 25000007, dram := wft0, pnl := { frameAt := some (7, 1), op := some { pop0 with frames := 2, x0 := 7, y0 := 1, rw := 1, rh := 1 }, rails := 5, vddp := true, pdet := true, pix := [(15, { ledger := 2040, state := 0, target := 3 })] } }, by decide⟩,
    ⟨{ pop0 with frames := 2, frame := 1 }, { id := 5, opcode := 1, handle := 0, tag := 9, irq := true, done := none }, 7, 1, { quiet.setB (enableFld 17) true |>.set PNL_STAT.STATE 3 |>.setReg (CRING_BASE_LO 17 0) 65536 |>.set PNL_GEOM.W 8 |>.set PNL_GEOM.H 2 |>.setB (EVT_SRC_CFG.EN 321) true with ltc := 25000007, rings := [(17 * 32, { nextId := 6, taken := [{ id := 5, opcode := 1, handle := 0, tag := 9, irq := true, done := none }] })], pnl := { frameAt := some (7, 1), op := some { pop0 with frames := 2, frame := 1 }, rails := 5, vddp := true, pdet := true, pix := [(15, { ledger := 2040, state := 2, target := 3 })] } }, by decide⟩,
    ⟨0, { flags := 1, handle := 0, tag := 9, args := 0x100080000000000100000 }, 50, 7, 0x100000, 8, 1, 8, 2, 16, 3, { kind := 3, id := 0, x0 := 8, y0 := 1, rw := 8, rh := 2, wf := 0x2000, hdr := wftHdr0 }, { ringOn 17 0 |>.setReg (PNL_WF_LO 7) 0x2000 |>.set PNL_STAT.STATE 4 |>.set PNL_TEMP.T 50 |>.set PNL_GEOM.W 16 |>.set PNL_GEOM.H 3 |>.set (PNL_DWIN_SIZE.MIB 1) 2 with dram := wft0 ++ [(0x100042, 0x03), (0x100083, 0xC0)], pnl := { pdet := true, pix := [(31, { state := 1, ledger := 100 }), (47, { ledger := 40 })] } }, by unfold State.ready State.ringFree; decide⟩,
    ⟨0, { flags := 1, handle := 0, tag := 9, args := 0 }, ringOn 17 0 |>.set (PNL_DWIN_SIZE.MIB 1) 2, by unfold State.ready State.ringFree; decide⟩,
    ⟨0, { flags := 1, handle := 0, tag := 9, args := 0xC0000000000000000 }, ringOn 17 0 |>.set (PNL_DWIN_SIZE.MIB 1) 2, by unfold State.ready State.ringFree; decide⟩,
    ⟨{ pop0 with kind := 3, frames := 2, frame := 2, x0 := 0, y0 := 1, rw := 8, rh := 1 }, { id := 5, opcode := 3, handle := 0, tag := 9, irq := true, done := none }, 7, 1, { quiet.setB (enableFld 17) true |>.set PNL_STAT.STATE 5 |>.setReg (CRING_BASE_LO 17 0) 65536 |>.set PNL_GEOM.W 8 |>.set PNL_GEOM.H 2 with ltc := 25000007, rings := [(17 * 32, { nextId := 6, taken := [{ id := 5, opcode := 3, handle := 0, tag := 9, irq := true, done := none }] })], pnl := { frameAt := some (7, 1), op := some { pop0 with kind := 3, frames := 2, frame := 2, x0 := 0, y0 := 1, rw := 8, rh := 1 }, rails := 5, vddp := true, pdet := true, pix := [(3, { state := 1, target := 2 }), (15, { ledger := 2040, state := 2, target := 3 })] } }, by decide⟩,
    ⟨0, { flags := 1, handle := 0, tag := 9, args := 0 }, { ringOn 17 0 with pnl := { faulted := true } }, by unfold State.ready State.ringFree; decide⟩,
    ⟨0, { flags := 1, handle := 0, tag := 9, args := 0 }, 50, 7, { kind := 2, id := 0, wf := 0x2000, hdr := wftHdr0 }, { ringOn 17 0 |>.setReg (PNL_WF_LO 7) 0x2000 |>.set PNL_STAT.STATE 4 |>.set PNL_TEMP.T 50 with dram := wft0, pnl := { pdet := true } }, by unfold State.ready State.ringFree; decide⟩,
    ⟨{ pop0 with kind := 2, frames := 60, frame := 2, x0 := 0, y0 := 0, rw := 8, rh := 2 }, 7, 1, { quiet.setB (enableFld 17) true |>.set PNL_STAT.STATE 6 |>.set PNL_GEOM.W 8 |>.set PNL_GEOM.H 2 with ltc := 25000007, pnl := { frameAt := some (7, 1), op := some { pop0 with kind := 2, frames := 60, frame := 2, x0 := 0, y0 := 0, rw := 8, rh := 2 }, rails := 5, vddp := true, pdet := true, pix := [(3, { ledger := 7 }), (4, { ledger := 8 }), (5, { ledger := -7 }), (15, { ledger := -8 })] } }, by decide⟩,
    ⟨pop0, 4, { quiet.setB (enableFld 17) true |>.set PNL_STAT.STATE 7 with ltc := 500100, pnl := { op := some pop0, rails := 5, vddp := true, pdet := true, railAt := some 100 } }, by decide⟩,
    ⟨{ pop0 with kind := 2 }, { id := 5, opcode := 2, handle := 0, tag := 9, irq := true, done := none }, { quiet.setB (enableFld 17) true |>.set PNL_STAT.STATE 7 |>.setReg (CRING_BASE_LO 17 0) 65536 |>.setB (EVT_SRC_CFG.EN 327) true with ltc := 500100, rings := [(17 * 32, { nextId := 6, taken := [{ id := 5, opcode := 2, handle := 0, tag := 9, irq := true, done := none }] })], pnl := { op := some { pop0 with kind := 2 }, rails := 1, vddp := true, pdet := true, railAt := some 100 } }, by decide⟩,
    ⟨0, { flags := 1, handle := 0, tag := 9, args := 0 }, 50, 7, { kind := 4, id := 0, wf := 0x2000, hdr := wftHdr0 }, { ringOn 17 0 |>.setReg (PNL_WF_LO 7) 0x2000 |>.set PNL_STAT.STATE 4 |>.set PNL_TEMP.T 50 with dram := wft0, pnl := { pdet := true } }, by unfold State.ready State.ringFree; decide⟩,
    ⟨0, { flags := 1, handle := 0, tag := 9, args := 0x100000 }, 50, 7, 0x100000, 16, 3, { kind := 2, id := 0, park := 0x100000, x0 := 0, y0 := 0, rw := 16, rh := 3, wf := 0x2000, hdr := wftHdr0 }, { ringOn 17 0 |>.setReg (PNL_WF_LO 7) 0x2000 |>.set PNL_STAT.STATE 4 |>.set PNL_TEMP.T 50 |>.set PNL_GEOM.W 16 |>.set PNL_GEOM.H 3 |>.set (PNL_DWIN_SIZE.MIB 1) 2 with dram := wft0 ++ [(0x100042, 0x03), (0x100083, 0xC0)], pnl := { pdet := true, pix := [(31, { state := 1, ledger := 100 }), (47, { ledger := 40 })] } }, by unfold State.ready State.ringFree; decide⟩,
    ⟨{ pop0 with kind := 2 }, { pop0 with kind := 2, frames := 60, rw := 8, rh := 2 }, 50, 7, 7, 1, { quiet.setB (enableFld 17) true |>.setReg (PNL_WF_LO 7) 0x2000 |>.set PNL_STAT.STATE 5 |>.set PNL_TEMP.T 50 |>.set PNL_GEOM.W 8 |>.set PNL_GEOM.H 2 with ltc := 25000007, dram := wft0, pnl := { frameAt := some (7, 1), pdet := true, op := some { pop0 with kind := 2 } } }, by decide⟩,
    ⟨0, { flags := 1, handle := 0, tag := 9, args := 0 }, ringOn 17 0, by unfold State.ready State.ringFree; decide⟩,
    ⟨{ pop0 with kind := 3 }, { id := 5, opcode := 3, handle := 0, tag := 9, irq := true, done := none }, { quiet.setB (enableFld 17) true |>.set PNL_STAT.STATE 5 |>.setReg (CRING_BASE_LO 17 0) 65536 |>.setB (EVT_SRC_CFG.EN 322) true with ltc := 10000006, rings := [(17 * 32, { nextId := 6, taken := [{ id := 5, opcode := 3, handle := 0, tag := 9, irq := true, done := none }] })], pnl := { op := some { pop0 with kind := 3 }, rails := 5, vddp := true, pdetAt := 5 } }, by decide⟩,
    ⟨pop0, 7, 1, { quiet.setB (enableFld 17) true |>.set PNL_STAT.STATE 2 with ltc := 19999000, pnl := { frameAt := some (7, 1), op := some pop0, rails := 5, vddp := true, pdet := true } }, by decide⟩,
    ⟨pop0, 100, 3, { quiet.setB (enableFld 17) true |>.set PNL_STAT.STATE 1 with ltc := 500080, pnl := { op := some pop0, rails := 3, vddp := true, pdet := true, railAt := some 100 } }, by decide⟩⟩

/-- States and operands that meet the hypotheses of PanelFaultsTemperatureAndFrontlightActAsStated, clause by clause. -/
theorem wit_PanelFaultsTemperatureAndFrontlightActAsStated :
    (∃ (o : PnlOp) (rail : Fin 5) (x : Taken) (s : State), s.enabled 0x11 = true ∧ s.get PNL_STAT.STATE ≠ 0 ∧ ((rail.val < s.pnl.rails ∨ s.get PNL_STAT.STATE = 1 ∧ rail.val = s.pnl.rails)) ∧ s.pnl.op = some o ∧ o.kind ≠ 0 ∧ (s.ring 0x11 0).taken = [x] ∧ x.id = o.id ∧ x.done = none) ∧
    (∃ (rail : Fin 5) (s : State), s.enabled 0x11 = true ∧ s.get PNL_STAT.STATE = 4 ∧ rail.val < s.pnl.rails ∧ s.pnl.op = none) ∧
    (∃ (s : State), s.enabled 0x11 = true ∧ s.pnl.vddp = true ∧ s.pnl.pdet = false ∧ s.pnl.pdetAt + 10000000 ≤ s.now ∧ s.pnl.op = none) ∧
    (∃ (o : PnlOp) (x : Taken) (s : State), s.enabled 0x11 = true ∧ s.pnl.vddp = true ∧ s.pnl.pdet = false ∧ s.pnl.pdetAt + 10000000 ≤ s.now ∧ s.pnl.op = some o ∧ o.kind ≠ 0 ∧ (s.ring 0x11 0).taken = [x] ∧ x.id = o.id ∧ x.done = none) ∧
    (∃ (present : Bool) (s : State), s.pnl.pdet = !present ∧ s.panelTrue = true) ∧
    (∃ (v : BitVec 12) (s : State), s.enabled 0x11 = true) ∧
    (∃ (s : State), s.enabled 0x11 = true ∧ s.getB PNL_STAT.TEMP_FAULT = false) ∧
    (∃ (s : State), s.enabled 0x11 = true ∧ s.getB PNL_FL.FL_EN = true ∧ s.get PNL_STAT.STATE = 4 ∧ s.pnl.flOff = false ∧ 0 < s.get PNL_FL.MA) ∧
    (∃ (s : State), s.enabled 0x11 = true ∧ s.getB PNL_FL.FL_EN = true ∧ s.get PNL_STAT.STATE = 4 ∧ s.pnl.flOff = false ∧ 10 < s.get PNL_FL.MA) ∧
    (∃ (core : Fin 8) (value : Word) (s : State), s.closed PNL_FL = false) ∧
    (∃ (s : State), s.getB PNL_CTRL.ENABLE = true ∧ s.pnl.op = none) ∧
    (∃ (o : PnlOp) (x : Taken) (s : State), s.getB PNL_CTRL.ENABLE = true ∧ s.pnl.op = some o ∧ o.kind ≠ 0 ∧ (s.ring 0x11 0).taken = [x] ∧ x.id = o.id ∧ x.done = none) :=
  ⟨⟨{ pop0 with kind := 3 }, 4, { id := 5, opcode := 3, handle := 0, tag := 9, irq := true, done := none }, { quiet.setB (enableFld 17) true |>.set PNL_STAT.STATE 5 |>.setReg (CRING_BASE_LO 17 0) 65536 |>.setB (EVT_SRC_CFG.EN 321) true with rings := [(17 * 32, { nextId := 6, taken := [{ id := 5, opcode := 3, handle := 0, tag := 9, irq := true, done := none }] })], pnl := { op := some { pop0 with kind := 3 }, rails := 5, vddp := true, pdet := true } }, by decide⟩,
    ⟨0, { quiet.setB (enableFld 17) true |>.set PNL_STAT.STATE 4 |>.setB (EVT_SRC_CFG.EN 321) true with pnl := { rails := 5, vddp := true, pdet := true } }, by decide⟩,
    ⟨{ quiet.setB (enableFld 17) true |>.set PNL_STAT.STATE 4 |>.setB (EVT_SRC_CFG.EN 322) true with ltc := 10000005, pnl := { rails := 5, vddp := true, pdetAt := 5 } }, by decide⟩,
    ⟨{ pop0 with kind := 3 }, { id := 5, opcode := 3, handle := 0, tag := 9, irq := true, done := none }, { quiet.setB (enableFld 17) true |>.set PNL_STAT.STATE 5 |>.setReg (CRING_BASE_LO 17 0) 65536 |>.setB (EVT_SRC_CFG.EN 322) true with ltc := 10000005, rings := [(17 * 32, { nextId := 6, taken := [{ id := 5, opcode := 3, handle := 0, tag := 9, irq := true, done := none }] })], pnl := { op := some { pop0 with kind := 3 }, rails := 5, vddp := true, pdetAt := 5 } }, by decide⟩,
    ⟨true, { quiet.setB (EVT_SRC_CFG.EN 322) true with ltc := 70 }, by decide⟩,
    ⟨0xFF0, quiet.setB (enableFld 17) true |>.setB PNL_STAT.TEMP_FAULT true, by decide⟩,
    ⟨quiet.setB (enableFld 17) true |>.setB (EVT_SRC_CFG.EN 323) true, by decide⟩,
    ⟨quiet.setB (enableFld 17) true |>.setReg PNL_FL 0x80000001 |>.set PNL_STAT.STATE 4 |>.setB (EVT_SRC_CFG.EN 324) true, by decide⟩,
    ⟨quiet.setB (enableFld 17) true |>.setReg PNL_FL 0x8000000B |>.set PNL_STAT.STATE 4 |>.setB (EVT_SRC_CFG.EN 324) true, by decide⟩,
    ⟨3, 0x8000015E, { quiet.setB PNL_STAT.FL_OPEN true with pnl := { flOff := true } }, by decide⟩,
    ⟨{ quiet.setB PNL_CTRL.ENABLE true |>.set PNL_STAT.STATE 4 with pnl := { rails := 5, vddp := true, pdet := true } }, by decide⟩,
    ⟨{ pop0 with kind := 3 }, { id := 5, opcode := 3, handle := 0, tag := 9, irq := true, done := none }, { quiet.setB PNL_CTRL.ENABLE true |>.set PNL_STAT.STATE 5 |>.setReg (CRING_BASE_LO 17 0) 65536 with rings := [(17 * 32, { nextId := 6, taken := [{ id := 5, opcode := 3, handle := 0, tag := 9, irq := true, done := none }] })], pnl := { op := some { pop0 with kind := 3 }, rails := 5, vddp := true, pdet := true } }, by decide⟩⟩

/-- States and operands that meet the hypotheses of RecorderStreamsFoldCloseAndExportRecords, clause by clause. -/
theorem wit_RecorderStreamsFoldCloseAndExportRecords :
    (∃ (s : State), s.enabled 0x12 = true ∧ s.getB REC_STATUS.READY = false ∧ (s.rcd.streams.all fun e => decide (383 < e.2.evt)) = true) ∧
    (∃ (ring : Fin 1) (e : Entry) (x : Nat) (kind : Nat) (sev : Nat) (n : Nat) (opt : Nat) (w : Nat) (per : Nat) (gr : Nat) (ev : Nat) (p : Nat) (s : State), s.ready 0x12 ring.val 0 e ∧ s.getB REC_STATUS.READY = true ∧ tfree s.rcd.streams 256 = some x ∧ (s.cmdOf 0x12 ring.val e).arg 16 1 = kind ∧ (s.cmdOf 0x12 ring.val e).arg 17 1 = sev ∧ (s.cmdOf 0x12 ring.val e).arg 18 1 = n ∧ (s.cmdOf 0x12 ring.val e).arg 19 1 = opt ∧ (s.cmdOf 0x12 ring.val e).arg 28 4 = w ∧ (s.cmdOf 0x12 ring.val e).arg 32 2 = per ∧ (s.cmdOf 0x12 ring.val e).arg 34 2 = gr ∧ (s.cmdOf 0x12 ring.val e).arg 36 2 = ev ∧ ((kind = 1 ∧ 1 ≤ n ∧ n ≤ 32 ∧ 1 ≤ w ∧ w ≤ 0x7FFFFFFF ∧ ev = 0xFFFF ∨ kind = 2 ∧ n = 0 ∧ w = 0 ∧ (s.cmdOf 0x12 ring.val e).arg 24 4 = 0 ∧ ev = 0xFFFF ∨ kind = 3 ∧ 1 ≤ n ∧ n ≤ 8 ∧ w = 0 ∧ (s.cmdOf 0x12 ring.val e).arg 24 4 = 0 ∧ (ev ≤ 383 ∧ ev ≠ 336 ∨ ev = 0xFFFF))) ∧ sev ≤ 3 ∧ opt ≤ 1 ∧ 1 ≤ per ∧ 1 ≤ gr ∧ gr ≤ 10000 ∧ p = per * 1000000000 ∧ (s.rcd.streams.all fun e => decide (e.2.evt ≠ 336)) = true) ∧
    (∃ (ring : Fin 1) (e : Entry) (x : Nat) (v : Nat) (stamp : Nat) (i : Nat) (r : RecStream) (a : List RecWin) (b : List RecWin) (w : RecWin) (s : State), s.ready 0x12 ring.val 0 e ∧ s.getB REC_STATUS.READY = true ∧ s.checkHandle 0x0B s.recLive e.handle.toNat = none ∧ hIndex e.handle.toNat = x ∧ tget s.rcd.streams x = some r ∧ r.kind = 1 ∧ (s.cmdOf 0x12 ring.val e).arg 16 4 = v ∧ (s.cmdOf 0x12 ring.val e).arg 20 1 = 0 ∧ stamp = (if (s.cmdOf 0x12 ring.val e).arg 24 8 = 0 then s.now else (s.cmdOf 0x12 ring.val e).arg 24 8) ∧ stamp ≤ s.now ∧ s.now < r.next ∧ r.wins = a ++ w :: b ∧ (((a ++ b).all fun u => decide (stamp < u.opn ∨ u.close ≤ stamp)) = true) ∧ w.opn ≤ stamp ∧ stamp < w.close ∧ s.now < w.close + r.grace ∧ i = (toSigned 32 v - r.lo).toNat / r.width ∧ (s.rcd.streams.all fun e => decide (e.2.evt ≠ 336)) = true) ∧
    (∃ (ring : Fin 1) (e : Entry) (x : Nat) (v : Nat) (stamp : Nat) (j : Nat) (r : RecStream) (a : List RecWin) (b : List RecWin) (w : RecWin) (s : State), s.ready 0x12 ring.val 0 e ∧ s.getB REC_STATUS.READY = true ∧ s.checkHandle 0x0B s.recLive e.handle.toNat = none ∧ hIndex e.handle.toNat = x ∧ tget s.rcd.streams x = some r ∧ ((r.kind = 2 ∧ j = 0 ∨ r.kind = 3 ∧ j < r.n)) ∧ (s.cmdOf 0x12 ring.val e).arg 16 4 = v ∧ (s.cmdOf 0x12 ring.val e).arg 20 1 = j ∧ stamp = (if (s.cmdOf 0x12 ring.val e).arg 24 8 = 0 then s.now else (s.cmdOf 0x12 ring.val e).arg 24 8) ∧ stamp ≤ s.now ∧ s.now < r.next ∧ r.wins = a ++ w :: b ∧ (((a ++ b).all fun u => decide (stamp < u.opn ∨ u.close ≤ stamp)) = true) ∧ w.opn ≤ stamp ∧ stamp < w.close ∧ s.now < w.close + r.grace ∧ (s.rcd.streams.all fun e => decide (e.2.evt ≠ 336)) = true) ∧
    (∃ (ring : Fin 1) (e : Entry) (x : Nat) (stamp : Nat) (r : RecStream) (s : State), s.ready 0x12 ring.val 0 e ∧ s.getB REC_STATUS.READY = true ∧ s.checkHandle 0x0B s.recLive e.handle.toNat = none ∧ hIndex e.handle.toNat = x ∧ tget s.rcd.streams x = some r ∧ (if r.kind = 3 then (s.cmdOf 0x12 ring.val e).arg 20 1 < r.n else (s.cmdOf 0x12 ring.val e).arg 20 1 = 0) ∧ stamp = (s.cmdOf 0x12 ring.val e).arg 24 8 ∧ stamp ≠ 0 ∧ stamp ≤ s.now ∧ s.now < r.next ∧ ((r.wins.all fun w => decide (stamp < w.opn ∨ w.close ≤ stamp ∨ w.close + r.grace ≤ s.now)) = true) ∧ s.reg SYS_DET_STATUS ≠ 0#32) ∧
    (∃ (ring : Fin 1) (e : Entry) (s : State), s.ready 0x12 ring.val 0 e ∧ s.checkHandle 0x0B s.recLive e.handle.toNat = none ∧ s.now < (s.cmdOf 0x12 ring.val e).arg 24 8) ∧
    (∃ (x : Nat) (k : Nat) (r : RecStream) (u : RecStream) (w : RecWin) (rest : List RecWin) (s : State), s.enabled 0x12 = true ∧ s.rcd.streams = [(x, r)] ∧ u = r.upTo s.now ∧ u.wins = w :: rest ∧ w.close + u.grace ≤ s.now ∧ (rest.all fun v => decide (s.now < v.close + u.grace)) = true ∧ tfree s.rcd.slots 8192 = some k ∧ 383 < r.evt) ∧
    (∃ (ring : Fin 1) (e : Entry) (x : Nat) (k : Nat) (r : RecStream) (a : List RecWin) (w : RecWin) (s : State), s.ready 0x12 ring.val 0 e ∧ s.getB REC_STATUS.READY = true ∧ s.checkHandle 0x0B s.recLive e.handle.toNat = none ∧ hIndex e.handle.toNat = x ∧ tget s.rcd.streams x = some r ∧ s.now < r.next ∧ s.recDue = none ∧ r.wins = a ++ [w] ∧ tfree s.rcd.slots 8192 = some k ∧ (s.rcd.streams.all fun e => decide (383 < e.2.evt)) = true) ∧
    (∃ (ring : Fin 1) (e : Entry) (x : Nat) (k : Nat) (r : RecStream) (w : RecWin) (s : State), s.ready 0x12 ring.val 0 e ∧ s.getB REC_STATUS.READY = true ∧ s.checkHandle 0x0B s.recLive e.handle.toNat = none ∧ hIndex e.handle.toNat = x ∧ tget s.rcd.streams x = some r ∧ s.now < r.next ∧ s.recDue = none ∧ r.wins = [w] ∧ tfree s.rcd.slots 8192 = some k ∧ (s.rcd.streams.all fun e => decide (383 < e.2.evt)) = true) ∧
    (∃ (ring : Fin 1) (e : Entry) (lba : Nat) (n : Nat) (s : State), s.ready 0x12 ring.val 0 e ∧ s.getB REC_STATUS.READY = true ∧ s.rcd.run = none ∧ (s.cmdOf 0x12 ring.val e).arg 16 8 = lba ∧ (s.cmdOf 0x12 ring.val e).arg 24 4 = n ∧ 1 ≤ n ∧ n ≤ 512 ∧ tget s.arb.since 20 = none ∧ (s.rcd.streams.all fun e => decide (383 < e.2.evt)) = true) ∧
    (∃ (x : RecExport) (l : List Nat) (s : State), s.rcd.run = some x ∧ s.arbHolds 20 = true ∧ s.getB (ARB_CFG.FREEZE 1) = false ∧ l = recInOrder s.rcd.slots x.fromNum (16 * x.maxBlk) ∧ (s.rcd.streams.all fun e => decide (383 < e.2.evt)) = true ∧ l.length < 2 ^ 32 ∧ s.recDue = none) ∧
    (∃ (s : State), s.getB REC_CTRL.ENABLE = true ∧ s.rcd.streams = [] ∧ s.rcd.run = none ∧ s.recDue = none) ∧
    (∃ (x : Nat) (k : Nat) (r : RecStream) (w : RecWin) (s : State), s.getB REC_CTRL.ENABLE = true ∧ s.rcd.streams = [(x, r)] ∧ s.now < r.next ∧ r.wins = [w] ∧ s.rcd.run = none ∧ tfree s.rcd.slots 8192 = some k ∧ 383 < r.evt ∧ x < 256 ∧ s.recDue = none) :=
  ⟨⟨{ quiet.setB REC_CTRL.ENABLE true |>.setB (EVT_SRC_CFG.EN 342) true |>.setB (EVT_SRC_CFG.EN 343) true with mram := memPut (memPuts [] (recSlotAt 8191) (quiet.recBytes 2 9 rs0 { opn := 5, close := 9 } false)) (recSlotAt 3 + 4) 5 }, by decide⟩,
    ⟨0, { flags := 1, handle := 0, tag := 9, args := 0xffff03e80e1000000032fffffe700000004d01200301 }, 1, 1, 3, 32, 1, 50, 3600, 1000, 0xFFFF, 3600000000000, { ringOn 18 0 |>.setB REC_STATUS.READY true with ltc := 5000000000000, rcd := { streams := [(0, rs0), (7, rs0)] } }, by unfold State.ready State.ringFree; decide⟩,
    ⟨0, { flags := 1, handle := 0x2C0000FF, tag := 9, args := 0x960000000000000359 }, 255, 857, 150, 25, { rs0 with wins := [{ opn := 100, close := 200, bins := [(25, 0xFFFFFFFF)] }, { opn := 200, close := 300 }] }, [], [{ opn := 200, close := 300 }], { opn := 100, close := 200, bins := [(25, 0xFFFFFFFF)] }, { ringOn 18 0 |>.setB REC_STATUS.READY true with ltc := 209, rcd := { streams := [(255, { rs0 with wins := [{ opn := 100, close := 200, bins := [(25, 0xFFFFFFFF)] }, { opn := 200, close := 300 }] })] } }, by unfold State.ready State.ringFree; decide⟩,
    ⟨0, { flags := 1, handle := 0x2C0000FF, tag := 9, args := 0x960000000700000359 }, 255, 857, 150, 7, { rs0 with kind := 3, n := 8, wins := [{ opn := 100, close := 200, cnts := [(7, 0xFFFFFFFFFFFFFFF0)] }, { opn := 200, close := 300 }] }, [], [{ opn := 200, close := 300 }], { opn := 100, close := 200, cnts := [(7, 0xFFFFFFFFFFFFFFF0)] }, { ringOn 18 0 |>.setB REC_STATUS.READY true with ltc := 209, rcd := { streams := [(255, { rs0 with kind := 3, n := 8, wins := [{ opn := 100, close := 200, cnts := [(7, 0xFFFFFFFFFFFFFFF0)] }, { opn := 200, close := 300 }] })] } }, by unfold State.ready State.ringFree; decide⟩,
    ⟨0, { flags := 1, handle := 0x2C0000FF, tag := 9, args := 0x960000000000000359 }, 255, 150, { rs0 with wins := [{ opn := 200, close := 300 }] }, { ringOn 18 0 |>.setB REC_STATUS.READY true |>.setReg SYS_DET_STATUS 1 |>.setB (EVT_SRC_CFG.EN 340) true with ltc := 210, rcd := { streams := [(255, { rs0 with wins := [{ opn := 200, close := 300 }] })] } }, by unfold State.ready State.ringFree; decide⟩,
    ⟨0, { flags := 1, handle := 0x2C0000FF, tag := 9, args := 0x960000000000000359 }, { ringOn 18 0 |>.setB REC_STATUS.READY true with ltc := 149, rcd := { streams := [(255, { rs0 with wins := [{ opn := 100, close := 200 }] })] } }, by unfold State.ready State.ringFree; decide⟩,
    ⟨255, 1, { rs0 with irq := true, next := 200, wins := [{ opn := 100, close := 200, nval := 3, under := 2, ovr := 1, sat := true }] }, { rs0 with irq := true, next := 300, wins := [{ opn := 100, close := 200, nval := 3, under := 2, ovr := 1, sat := true }, { opn := 200, close := 300 }] }, { opn := 100, close := 200, nval := 3, under := 2, ovr := 1, sat := true }, [{ opn := 200, close := 300 }], { quiet.setB REC_CTRL.ENABLE true |>.setB REC_STATUS.READY true |>.setReg REC_RNUM_LO 7 |>.setB (EVT_SRC_CFG.EN 337) true with ltc := 210, mram := [(0x200103, 9), (0x200104, 5), (0x200200, 3)], rcd := { slots := [(0, (6, 1))], streams := [(255, { rs0 with irq := true, next := 200, wins := [{ opn := 100, close := 200, nval := 3, under := 2, ovr := 1, sat := true }] })] } }, by decide⟩,
    ⟨0, { flags := 1, handle := 0x2C0000FF, tag := 9, args := 0 }, 255, 0, { rs0 with kind := 3, n := 2, wins := [{ opn := 100, close := 200, nval := 3, cnts := [(1, 77)] }] }, [], { opn := 100, close := 200, nval := 3, cnts := [(1, 77)] }, { ringOn 18 0 |>.setB REC_STATUS.READY true |>.setReg REC_RNUM_LO 7 with ltc := 150, rcd := { slots := [(1, (6, 1))], streams := [(255, { rs0 with kind := 3, n := 2, wins := [{ opn := 100, close := 200, nval := 3, cnts := [(1, 77)] }] })] } }, by unfold State.ready State.ringFree; decide⟩,
    ⟨0, { flags := 1, handle := 0x2C0000FF, tag := 9, args := 0 }, 255, 0, { rs0 with kind := 2, n := 0, wins := [{ opn := 100, close := 200 }] }, { opn := 100, close := 200 }, { ringOn 18 0 |>.setB REC_STATUS.READY true |>.setReg REC_RNUM_LO 7 |>.setB (REC_S_STAT.LIVE 255) true with ltc := 150, rcd := { slots := [(1, (6, 1))], streams := [(255, { rs0 with kind := 2, n := 0, wins := [{ opn := 100, close := 200 }] })] } }, by unfold State.ready State.ringFree; decide⟩,
    ⟨0, { flags := 1, handle := 0, tag := 9, args := 0x700000000000002000000000000030d40 }, 200000, 512, ringOn 18 0 |>.setB REC_STATUS.READY true, by unfold State.ready State.ringFree; decide⟩,
    ⟨{ lba := 5, maxBlk := 1, fromNum := 7 }, [9, 3], { quiet.setB (ARB_STAT.GRANTED 1) true |>.set (ARB_STAT.OWNER 1) 20 |>.setB (EVT_SRC_CFG.EN 338) true |>.setB REC_STATUS.EXP true with mram := memPut (memPut [] (recSlotAt 3 + 8) 8) (recSlotAt 9 + 255) 3, arb := { since := [(20, 5)] }, rcd := { run := some { lba := 5, maxBlk := 1, fromNum := 7 }, slots := [(3, (8, 1)), (4, (6, 1)), (9, (7, 0))] } }, by decide⟩,
    ⟨quiet.setB REC_CTRL.ENABLE true |>.setB REC_STATUS.READY true, by decide⟩,
    ⟨255, 0, { rs0 with kind := 2, n := 0, wins := [{ opn := 100, close := 200 }] }, { opn := 100, close := 200 }, { quiet.setB REC_CTRL.ENABLE true |>.setB REC_STATUS.READY true |>.setReg REC_RNUM_LO 7 |>.setB (REC_S_STAT.LIVE 255) true with ltc := 150, rcd := { slots := [(1, (6, 1))], streams := [(255, { rs0 with kind := 2, n := 0, wins := [{ opn := 100, close := 200 }] })] } }, by decide⟩⟩

/-- States and operands that meet the hypotheses of PackagesAreCheckedStagedVarnishedAndConfirmed, clause by clause. -/
theorem wit_PackagesAreCheckedStagedVarnishedAndConfirmed :
    (∃ (ring : Fin 1) (e : Entry) (s : State), s.ready 0x13 ring.val 0 e ∧ s.upd.staging.isSome = true) ∧
    (∃ (ring : Fin 1) (e : Entry) (a : Nat) (len : Nat) (s : State), s.ready 0x13 ring.val 0 e ∧ (s.cmdOf 0x13 ring.val e).arg 16 8 = a ∧ (s.cmdOf 0x13 ring.val e).arg 24 8 = len ∧ s.upd.staging = none ∧ s.get UPD_PEND.PEND = 0 ∧ ((s.nv.trial = true ∨ s.nv.trial = false ∧ (len < 4096 ∨ a % 4096 ≠ 0 ∨ s.inWins 0x13 a len = false ∨ memNat s.dram (a + 24) 8 ≠ len)))) ∧
    (∃ (ring : Fin 1) (e : Entry) (a : Nat) (len : Nat) (key : Nat) (lc : Nat) (s : State), s.ready 0x13 ring.val 0 e ∧ (s.cmdOf 0x13 ring.val e).arg 16 8 = a ∧ (s.cmdOf 0x13 ring.val e).arg 24 8 = len ∧ s.upd.staging = none ∧ s.get UPD_PEND.PEND = 0 ∧ s.nv.trial = false ∧ 4096 ≤ len ∧ a % 4096 = 0 ∧ s.inWins 0x13 a len = true ∧ memNat s.dram (a + 24) 8 = len ∧ memNat s.dram a 4 = 0x314B5055 ∧ memNat s.dram (a + 4) 2 = 1 ∧ memNat s.dram (a + 6) 2 = 0x100 ∧ memNat s.dram (a + 256) 4 = 0x314E414D ∧ memNat s.dram (a + 260) 2 = 1 ∧ s.nv.lifeCycle = lc ∧ bitAt (memNat s.dram (a + 19) 1) lc = true ∧ lc ≠ 4 ∧ ((lc = 3 → memNat s.dram (a + 18) 1 = 0)) ∧ bitAt (memNat s.dram (a + 8) 2) (if s.part = .h24 then 0 else 1) = true ∧ memNat s.dram (a + 10) 1 = 0x0C ∧ memNat s.dram (a + 11) 1 = 0 ∧ s.get UPD_DEVINFO.BOARD < 32 ∧ bitAt (memNat s.dram (a + 12) 4) (s.get UPD_DEVINFO.BOARD) = true ∧ tget s.nv.otp (memNat s.dram (a + 18) 1) = some key ∧ tget s.arb.since 22 = none) ∧
    (∃ (g : Staging) (u : UpdEntry) (a : Nat) (b : List Byte) (s : State), s.upd.staging = some g ∧ g.abort = none ∧ s.arbHolds 22 = true ∧ s.getB (ARB_CFG.FREEZE 1) = false ∧ a = 1 - s.nv.active ∧ manEntries g.man = [u] ∧ g.man.length = 128 ∧ 5 ≤ u.ty ∧ 1 ≤ u.off ∧ fieldN g.man 29 1 % 2 = 1 ∧ b = memBytes s.dram (g.addr + 4096 * u.off) u.len) ∧
    (∃ (g : Staging) (u : UpdEntry) (s : State), s.upd.staging = some g ∧ g.abort = none ∧ s.arbHolds 22 = true ∧ s.getB (ARB_CFG.FREEZE 1) = false ∧ manEntries g.man = [u]) ∧
    (∃ (g : Staging) (u : UpdEntry) (x : Taken) (s : State), s.upd.staging = some g ∧ g.abort = some x.id ∧ (s.ring 0x13 0).taken = [x] ∧ x.done = none ∧ s.arbHolds 22 = true ∧ s.getB (ARB_CFG.FREEZE 1) = false ∧ manEntries g.man = [u]) ∧
    (∃ (ring : Fin 1) (e : Entry) (g : Staging) (s : State), s.ready 0x13 ring.val 0 e ∧ s.upd.staging = some g ∧ g.abort = none) ∧
    (∃ (ring : Fin 1) (e : Entry) (s : State), s.ready 0x13 ring.val 0 e ∧ s.upd.staging = none) ∧
    (∃ (ring : Fin 1) (e : Entry) (a : Nat) (s : State), s.ready 0x13 ring.val 0 e ∧ s.upd.staging = none ∧ s.getB STR_RLD_STAT.BUSY = false ∧ s.nv.inact = .staged ∧ a = 1 - s.nv.active) ∧
    (∃ (ring : Fin 1) (e : Entry) (s : State), s.ready 0x13 ring.val 0 e ∧ (((s.upd.staging.isSome || s.getB STR_RLD_STAT.BUSY) = true ∨ s.nv.inact ≠ .staged))) ∧
    (∃ (ring : Fin 1) (e : Entry) (s : State), s.ready 0x13 ring.val 0 e ∧ s.nv.trial = true) ∧
    (∃ (ring : Fin 1) (e : Entry) (s : State), s.ready 0x13 ring.val 0 e ∧ s.nv.trial = false) ∧
    (∃ (pkg : List Byte) (key : Nat) (u : UpdEntry) (s : State), s.sys.mode = .recovery ∧ s.nv.lifeCycle ≤ 2 ∧ s.upd.staging = none ∧ s.get UPD_PEND.PEND = 0 ∧ s.nv.trial = false ∧ 4096 ≤ pkg.length ∧ fieldN pkg 24 8 = pkg.length ∧ fieldN pkg 0 4 = 0x314B5055 ∧ fieldN pkg 4 2 = 1 ∧ fieldN pkg 6 2 = 0x100 ∧ fieldN pkg 16 2 = 128 ∧ fieldN pkg 256 4 = 0x314E414D ∧ fieldN pkg 260 2 = 1 ∧ fieldN pkg 285 1 % 2 = 1 ∧ bitAt (fieldN pkg 19 1) s.nv.lifeCycle = true ∧ bitAt (fieldN pkg 8 2) (if s.part = .h24 then 0 else 1) = true ∧ fieldN pkg 10 1 = 0x0C ∧ fieldN pkg 11 1 = 0 ∧ s.get UPD_DEVINFO.BOARD < 32 ∧ bitAt (fieldN pkg 12 4) (s.get UPD_DEVINFO.BOARD) = true ∧ tget s.nv.otp (fieldN pkg 18 1) = some key ∧ fieldN pkg 262 2 = 1 ∧ u = manEntry ((pkg.drop 256).take 128) 0 ∧ 5 ≤ u.ty) :=
  ⟨⟨0, { flags := 1, handle := 0, tag := 9, args := 0x20000000000000200000 }, { ringOn 19 0 with upd := { staging := some stg0 } }, by unfold State.ready State.ringFree; decide⟩,
    ⟨0, { flags := 1, handle := 0, tag := 9, args := 0x20000000000000200000 }, 0x200000, 8192, { ringOn 19 0 |>.set UPD_DWIN_SIZE.MIB 4 with dram := [(0x200019, 0x21)] }, by unfold State.ready State.ringFree; decide⟩,
    ⟨0, { flags := 1, handle := 0, tag := 9, args := 0x20000000000000200000 }, 0x200000, 8192, 5, 2, { ringOn 19 0 |>.set UPD_DWIN_SIZE.MIB 4 with dram := upkg0, nv := { lifeCycle := 2, otp := [(1, 5)], inact := .staged } }, by unfold State.ready State.ringFree; decide⟩,
    ⟨stg0, { ty := 6, ix := 0, version := 0, off := 1, len := 2, digest := 77 }, 1, [9, 8], { quiet.setB (ARB_STAT.GRANTED 1) true |>.set (ARB_STAT.OWNER 1) 22 |>.setB UPD_STAT.STAGING true |>.setB (EVT_SRC_CFG.EN 346) true |>.setB (EVT_SRC_CFG.EN 345) true with dram := [(0x201000, 9), (0x201001, 8)], arb := { since := [(22, 5)] }, upd := { staging := some stg0 } }, by decide⟩,
    ⟨stg0, { ty := 6, ix := 0, version := 0, off := 1, len := 2, digest := 77 }, { quiet.setB (ARB_STAT.GRANTED 1) true |>.set (ARB_STAT.OWNER 1) 22 |>.setB UPD_STAT.STAGING true |>.setB (EVT_SRC_CFG.EN 346) true with arb := { since := [(22, 5)] }, upd := { staging := some stg0 } }, by decide⟩,
    ⟨{ stg0 with abort := some 5 }, { ty := 6, ix := 0, version := 0, off := 1, len := 2, digest := 77 }, { id := 5, opcode := 2, handle := 0, tag := 9, irq := true, done := none }, { quiet.setB (ARB_STAT.GRANTED 1) true |>.set (ARB_STAT.OWNER 1) 22 |>.setB UPD_STAT.STAGING true |>.setReg (CRING_BASE_LO 19 0) 4096 with rings := [(19 * 32, { nextId := 6, taken := [{ id := 5, opcode := 2, handle := 0, tag := 9, irq := true, done := none }] })], arb := { since := [(22, 5)] }, upd := { staging := some { stg0 with abort := some 5 } } }, by decide⟩,
    ⟨0, { flags := 1, handle := 0, tag := 9, args := 0 }, stg0, { ringOn 19 0 with upd := { staging := some stg0 } }, by unfold State.ready State.ringFree; decide⟩,
    ⟨0, { flags := 1, handle := 0, tag := 9, args := 0 }, ringOn 19 0, by unfold State.ready State.ringFree; decide⟩,
    ⟨0, { flags := 1, handle := 0, tag := 9, args := 0 }, 1, { ringOn 19 0 |>.setB (EVT_SRC_CFG.EN 347) true |>.setB (EVT_SRC_CFG.EN 351) true |>.set UPD_PEND.PEND 0x003 |>.setB ⟨STR_STATUS, 16, 1⟩ true |>.setReg STR_STATUS 0x3FF0000 with str := { digests := [(1, 7), (9, 8)] }, nv := { inact := .staged } }, by unfold State.ready State.ringFree; decide⟩,
    ⟨0, { flags := 1, handle := 0, tag := 9, args := 0 }, { ringOn 19 0 with nv := { inact := .previous } }, by unfold State.ready State.ringFree; decide⟩,
    ⟨0, { flags := 1, handle := 0, tag := 9, args := 0 }, { ringOn 19 0 with nv := { trial := true, active := 1, minSvn := 11, slotSvn := [(1, 12)] } }, by unfold State.ready State.ringFree; decide⟩,
    ⟨0, { flags := 1, handle := 0, tag := 9, args := 0 }, ringOn 19 0, by unfold State.ready State.ringFree; decide⟩,
    ⟨upkgBytes0 ++ List.replicate 7808 0, 5, { ty := 6, ix := 0, version := 0, off := 1, len := 2, digest := 77 }, { quiet with sys := { mode := .recovery }, nv := { otp := [(1, 5)] } }, by rw [List.length_append, List.length_replicate]; decide⟩⟩

/-- States and operands that meet the hypotheses of LifeCycleKeysAndTheServicePortActAsStated, clause by clause. -/
theorem wit_LifeCycleKeysAndTheServicePortActAsStated :
    (∃ (ring : Fin 1) (e : Entry) (g : Nat) (s : State), s.ready 0x13 ring.val 0 e ∧ s.upd.staging = none ∧ (s.cmdOf 0x13 ring.val e).arg 16 1 = g ∧ ((s.nv.lifeCycle = 0 ∧ g = 1 ∨ s.nv.lifeCycle = 1 ∧ g = 2 ∨ s.nv.lifeCycle ≤ 3 ∧ g = 4))) ∧
    (∃ (ring : Fin 1) (e : Entry) (g : Nat) (s : State), s.ready 0x13 ring.val 0 e ∧ s.upd.staging = none ∧ (s.cmdOf 0x13 ring.val e).arg 16 1 = g ∧ lcPath s.nv.lifeCycle g = none) ∧
    (∃ (ring : Fin 1) (e : Entry) (g : Nat) (a : Nat) (key : Nat) (s : State), s.ready 0x13 ring.val 0 e ∧ s.upd.staging = none ∧ (s.cmdOf 0x13 ring.val e).arg 16 1 = g ∧ (s.cmdOf 0x13 ring.val e).arg 24 8 = a ∧ ((s.nv.lifeCycle = 2 ∧ g = 3 ∨ s.nv.lifeCycle = 3 ∧ g = 2)) ∧ tget s.nv.otp 0 = some key ∧ memNat s.dram a 4 = 0x3154434C ∧ memNat s.dram (a + 4) 1 = s.nv.lifeCycle ∧ memNat s.dram (a + 5) 1 = g ∧ memNat s.dram (a + 6) 1 = 0 ∧ memNat s.dram (a + 8) 8 = s.get64 UPD_DEVID_LO UPD_DEVID_HI ∧ (∀ i ∈ List.range 4, memNat s.dram (a + 16 + 4 * i) 4 = (s.reg (UPD_NONCE i)).toNat)) ∧
    (∃ (ring : Fin 1) (e : Entry) (k : Nat) (a : Nat) (s : State), s.ready 0x13 ring.val 0 e ∧ (s.cmdOf 0x13 ring.val e).arg 16 1 = k ∧ (s.cmdOf 0x13 ring.val e).arg 24 8 = a ∧ s.nv.lifeCycle = 0 ∧ 1 ≤ k ∧ k ≤ 3 ∧ tget s.nv.otp k = none) ∧
    (∃ (ring : Fin 1) (e : Entry) (s : State), s.ready 0x13 ring.val 0 e ∧ ((s.nv.lifeCycle ≠ 0 ∨ (s.cmdOf 0x13 ring.val e).arg 16 1 = 0 ∨ 3 < (s.cmdOf 0x13 ring.val e).arg 16 1))) ∧
    (∃ (data : List Byte) (d : List Byte) (cap : Nat) (rcv : Nat) (a : Nat) (s : State), s.getB UPD_USB.EN = true ∧ s.getB UPD_USB.CONN = true ∧ s.getB UPD_USB.DONE = false ∧ cap = s.get UPD_USB_LEN.LEN * 1048576 ∧ rcv = s.get UPD_USB_RCV.RCV ∧ d = data.take (cap - rcv) ∧ a = s.get64 UPD_USB_BASE_LO UPD_USB_BASE_HI + rcv ∧ rcv + d.length < 2 ^ 32 ∧ s.inWins 0x13 a d.length = true) ∧
    (∃ (data : List Byte) (d : List Byte) (cap : Nat) (rcv : Nat) (a : Nat) (s : State), s.getB UPD_USB.EN = true ∧ s.getB UPD_USB.CONN = true ∧ s.getB UPD_USB.DONE = false ∧ cap = s.get UPD_USB_LEN.LEN * 1048576 ∧ rcv = s.get UPD_USB_RCV.RCV ∧ d = data.take (cap - rcv) ∧ a = s.get64 UPD_USB_BASE_LO UPD_USB_BASE_HI + rcv ∧ rcv + d.length < 2 ^ 32 ∧ s.inWins 0x13 a d.length = false) ∧
    (∃ (present : Bool) (s : State), s.upd.vbus = !present) ∧
    (∃ (s : State), s.getB UPD_CTRL.ENABLE = true ∧ s.upd.staging = none) ∧
    (∃ (g : Staging) (s : State), s.getB UPD_CTRL.ENABLE = true ∧ s.upd.staging = some g ∧ g.abort = none ∧ s.arbHolds 22 = false) :=
  ⟨⟨0, { flags := 1, handle := 0, tag := 9, args := 4 }, 4, { ringOn 19 0 with nv := { lifeCycle := 3 } }, by unfold State.ready State.ringFree; decide⟩,
    ⟨0, { flags := 1, handle := 0, tag := 9, args := 0 }, 0, { ringOn 19 0 with nv := { lifeCycle := 2 } }, by unfold State.ready State.ringFree; decide⟩,
    ⟨0, { flags := 1, handle := 0, tag := 9, args := 0x80000000000000000003 }, 3, 0x8000, 6, { ringOn 19 0 |>.setReg (UPD_NONCE 3) 7 |>.setReg UPD_DEVID_HI 3 with dram := [(0x8000, 0x4C), (0x8001, 0x43), (0x8002, 0x54), (0x8003, 0x31), (0x8004, 2), (0x8005, 3), (0x800C, 3), (0x801C, 7)], nv := { lifeCycle := 2, otp := [(0, 6)] } }, by unfold State.ready State.ringFree; decide⟩,
    ⟨0, { flags := 1, handle := 0, tag := 9, args := 0x80000000000000000003 }, 3, 0x8000, { ringOn 19 0 with nv := { otp := [(0, 6)] } }, by unfold State.ready State.ringFree; decide⟩,
    ⟨0, { flags := 1, handle := 0, tag := 9, args := 4 }, ringOn 19 0, by unfold State.ready State.ringFree; decide⟩,
    ⟨[1, 2, 3], [1, 2], 1048576, 1048574, 0x101FFE, quiet.setReg UPD_USB 0xC0000000 |>.set UPD_DWIN_SIZE.MIB 4 |>.setReg UPD_USB_LEN 1 |>.setReg UPD_USB_RCV 1048574 |>.setReg UPD_USB_BASE_LO 0x2000 |>.setB (EVT_SRC_CFG.EN 350) true, by decide⟩,
    ⟨[1, 2, 3], [1, 2], 1048576, 1048574, 0x101FFE, quiet.setReg UPD_USB 0xC0000000 |>.set UPD_DWIN_SIZE.MIB 1 |>.setReg UPD_USB_LEN 1 |>.setReg UPD_USB_RCV 1048574 |>.setReg UPD_USB_BASE_LO 0x2000 |>.setB (EVT_SRC_CFG.EN 350) true, by decide⟩,
    ⟨true, quiet.setB UPD_USB.EN true, by decide⟩,
    ⟨quiet.setB UPD_CTRL.ENABLE true, by decide⟩,
    ⟨stg0, { quiet.setB UPD_CTRL.ENABLE true |>.setB UPD_STAT.STAGING true |>.setB (ARB_REQ.PEND 22) true with arb := { since := [(22, 5)] }, upd := { staging := some stg0 } }, by decide⟩⟩

end Sys2Proof.Tests
end

section
/-! PROOFS. The statements of spec/00_scope.md: every step keeps the canonical form of the model's data (R6, Table 3-4), and what an
access of a core does (R7, R9, R10, R14, R101, R103, R109). -/

namespace Sys2Proof.Machine

/-! ### Every command keeps canonical forms -/

/-- The laws of the commands put together: a command changes at most what `touches` lists for it, and keeps canonical forms. -/
theorem exec_upd (i : Instr) (s : State) : OutUpd (touches i).1 (touches i).2 s (exec i s) := by
  cases i with
  | regWrite core addr value => exact execRegWrite_mut core addr value s
  | badAccess core addr size isWrite => exact execBadAccess_mut core addr size isWrite s
  | rcRead core addr => exact execRcRead_mut core addr s
  | dramReadUe reader addr => exact execDramReadUe_mut reader addr s
  | vsupUndervoltage mv => exact execVsupUndervoltage_mut mv s
  | vsupUvClear mv => exact execVsupUvClear_mut mv s
  | vsupOvervoltage mv => exact execVsupOvervoltage_mut mv s
  | vsupOvClear mv => exact execVsupOvClear_mut mv s
  | powerOnReset => exact execPowerOnReset_mut s
  | resetHoldEnd => exact execResetHoldEnd_mut s
  | oscillatorsReady => exact execOscillatorsReady_mut s
  | pllLock => exact execPllLock_mut s
  | safetyDomainReady ok safe => exact execSafetyDomainReady_mut ok safe s
  | dramReady => exact execDramReady_mut s
  | gessoDone readErr => exact execGessoDone_mut readErr s
  | hostFirmwareLoaded ok => exact execHostFirmwareLoaded_mut ok s
  | runEntry => exact execRunEntry_mut s
  | startRegionLoadEnd readErr caps => exact execStartRegionLoadEnd_mut readErr caps s
  | nrstAssert => exact execNrstAssert_mut s
  | moduleResetAssert src => exact execModuleResetAssert_mut src s
  | moduleResetRelease => exact execModuleResetRelease_mut s
  | keepAliveLoss => exact execKeepAliveLoss_mut s
  | vkaLow => exact execVkaLow_mut s
  | ignEdge wakePin rise => exact execIgnEdge_mut wakePin rise s
  | vlvSupplyLoss => exact execVlvSupplyLoss_mut s
  | vlvSupplyRecover => exact execVlvSupplyRecover_mut s
  | boostDischargeChangeover => exact execBoostDischargeChangeover_mut s
  | thermalUpdate tj tbp => exact execThermalUpdate_mut tj tbp s
  | wdtKick core value => exact execWdtKick_mut core value s
  | wdtPeriodWrite core value => exact execWdtPeriodWrite_mut core value s
  | wdtEarly => exact execWdtEarly_mut s
  | wdtExpire => exact execWdtExpire_mut s
  | blockReset core value => exact execBlockReset_mut core value s
  | blkRstDone => exact execBlkRstDone_mut s
  | idleRequest core value => exact execIdleRequest_mut core value s
  | idleExit => exact execIdleExit_mut s
  | parkRequest core value => exact execParkRequest_mut core value s
  | standbyRequest core value => exact execStandbyRequest_mut core value s
  | powerStateEntryDone => exact execPowerStateEntryDone_mut s
  | parkExit readErr => exact execParkExit_mut readErr s
  | canWake bus => exact execCanWake_mut bus s
  | opsecTick => exact execOpsecTick_mut s
  | kaMirrorWrite => exact execKaMirrorWrite_mut s
  | kaWritePropagate => exact execKaWritePropagate_mut s
  | enableSet core blk value => exact execEnableSet_mut core blk value s
  | checkEnqueue blk => exact execCheckEnqueue_mut blk s
  | checkEnd => exact execCheckEnd_mut s
  | reloadRequest core value => exact execReloadRequest_mut core value s
  | reloadCheckEnd readErr => exact execReloadCheckEnd_mut readErr s
  | reloadStopEnd => exact execReloadStopEnd_mut s
  | reloadLoadEnd readErr => exact execReloadLoadEnd_mut readErr s
  | reloadBind caps => exact execReloadBind_mut caps s
  | cfgCorr => exact execCfgCorr_mut s
  | cfgUncorr region => exact execCfgUncorr_mut region s
  | safeRegionUpset => exact execSafeRegionUpset_mut s
  | commandTake blk ring => exact execCommandTake_mut blk ring s
  | nop blk ring e => exact OutUpd.comp (execNop_mut blk ring e s) rfl rfl (Upd.refl s)
  | unknownOpcode blk ring opcode e => exact OutUpd.comp (execUnknownOpcode_mut blk ring opcode e s) rfl rfl (Upd.refl s)
  | evtSet core src value => exact execEvtSet_mut core src value s
  | tmsSnapshotRead core => exact execTmsSnapshotRead_mut core s
  | obsPush core value => exact execObsPush_mut core value s
  | obsEffect => exact execObsEffect_mut s
  | slewEnd => exact execSlewEnd_mut s
  | mtSecond => exact execMtSecond_mut s
  | tpulseFall => exact execTpulseFall_mut s
  | tpulseShort => exact execTpulseShort_mut s
  | sourceInvalid => exact execSourceInvalid_mut s
  | sourceSwitch => exact execSourceSwitch_mut s
  | holdoverExpire => exact execHoldoverExpire_mut s
  | tmsDisable => exact execTmsDisable_mut s
  | captureEdge ch rise stamp => exact execCaptureEdge_mut ch rise stamp s
  | capPop core ch => exact execCapPop_mut core ch s
  | ainSamplePublish n frames stamp => exact execAinSamplePublish_mut n frames stamp s
  | ainShunt n => exact execAinShunt_mut n s
  | ainRearm core n value => exact execAinRearm_mut core n value s
  | ainRawRead core n => exact execAinRawRead_mut core n s
  | pinEdge n rise both stamp held => exact execPinEdge_mut n rise both stamp held s
  | pinGateEnd n => exact execPinGateEnd_mut n s
  | pinStall n => exact execPinStall_mut n s
  | pinWeak n => exact execPinWeak_mut n s
  | pinValRead core n => exact execPinValRead_mut core n s
  | lacSample n sample => exact execLacSample_mut n sample s
  | lacWin n => exact execLacWin_mut n s
  | lacOpen n => exact execLacOpen_mut n s
  | lacCntRead core n => exact execLacCntRead_mut core n s
  | flowWindowEnd => exact execFlowWindowEnd_mut s
  | flowStatRead core => exact execFlowStatRead_mut core s
  | ssupFault k => exact execSsupFault_mut k s
  | ssupEnable core value => exact execSsupEnable_mut core value s
  | aoutFault n => exact execAoutFault_mut n s
  | dinEdge n edge => exact execDinEdge_mut n edge s
  | inpDisable => exact execInpDisable_mut s
  | cleStrobe => exact execCleStrobe_mut s
  | cleEvaluate slot => exact execCleEvaluate_mut slot s
  | clePhasePoint slot => exact execClePhasePoint_mut slot s
  | slotCreate ring e => exact execSlotCreate_mut ring e s
  | slotDestroy ring e => exact execSlotDestroy_mut ring e s
  | slotStart ring e => exact execSlotStart_mut ring e s
  | slotStop ring e => exact execSlotStop_mut ring e s
  | coefLive core slot word value => exact execCoefLive_mut core slot word value s
  | cleHostSourceWrite core slot meas value => exact execCleHostSourceWrite_mut core slot meas value s
  | cleSampleRead core slot => exact execCleSampleRead_mut core slot s
  | cleFrameRead core => exact execCleFrameRead_mut core s
  | cleDisable => exact execCleDisable_mut s
  | vdrTick samples vbst => exact execVdrTick_mut samples vbst s
  | fastRel k => exact execFastRel_mut k s
  | outputOvercurrent k => exact execOutputOvercurrent_mut k s
  | outputStb k => exact execOutputStb_mut k s
  | outputOpen k => exact execOutputOpen_mut k s
  | rmsWindowEnd => exact execRmsWindowEnd_mut s
  | bankOvercurrent b => exact execBankOvercurrent_mut b s
  | vdrFaultClear core reg value => exact execVdrFaultClear_mut core reg value s
  | vdrOutCfgWrite core k value => exact execVdrOutCfgWrite_mut core k value s
  | vdrSenseRead core k => exact execVdrSenseRead_mut core k s
  | boostChargeStart vbst => exact execBoostChargeStart_mut vbst s
  | boostChargeStop vbst => exact execBoostChargeStop_mut vbst s
  | bstOvp vbst => exact execBstOvp_mut vbst s
  | vdrDisable => exact execVdrDisable_mut s
  | strokeWaitEnd k => exact execStrokeWaitEnd_mut k s
  | strokeRampEnd k => exact execStrokeRampEnd_mut k s
  | wcurTimeout k => exact execWcurTimeout_mut k s
  | wtrgTimeout k => exact execWtrgTimeout_mut k s
  | boostNrdy k => exact execBoostNrdy_mut k s
  | strokeTriggerEdge n stamp => exact execStrokeTriggerEdge_mut n stamp s
  | softTrigger core value => exact execSoftTrigger_mut core value s
  | strokeStart ring e => exact execStrokeStart_mut ring e s
  | strokeCancel ring e => exact execStrokeCancel_mut ring e s
  | strokeStartDue x => exact execStrokeStartDue_mut x s
  | deferExpire x => exact execDeferExpire_mut x s
  | vdrCtxRead core k => exact execVdrCtxRead_mut core k s
  | sinPinChange pair memberB reading stamp => exact execSinPinChange_mut pair memberB reading stamp s
  | pairDisc pair => exact execPairDisc_mut pair s
  | stpPulse stp => exact execStpPulse_mut stp s
  | stpMaskEnd stp failed => exact execStpMaskEnd_mut stp failed s
  | rearmComplete who => exact execRearmComplete_mut who s
  | switchTest c upper => exact execSwitchTest_mut c upper s
  | switchTestEnd c ok => exact execSwitchTestEnd_mut c ok s
  | soutOvercurrent c => exact execSoutOvercurrent_mut c s
  | sfbChange c closed => exact execSfbChange_mut c closed s
  | feedbackTimeout c which => exact execFeedbackTimeout_mut c which s
  | lockstepMismatch => exact execLockstepMismatch_mut s
  | selftest pass => exact execSelftest_mut pass s
  | safetyResetRequest => exact execSafetyResetRequest_mut s
  | degExpire => exact execDegExpire_mut s
  | partnerSafetyField sstate sseq pad scrc => exact execPartnerSafetyField_mut sstate sseq pad scrc s
  | partnerLost => exact execPartnerLost_mut s
  | mbxEnergise => exact execMbxEnergise_mut s
  | mbxRelease => exact execMbxRelease_mut s
  | mbxAck => exact execMbxAck_mut s
  | mbxReset => exact execMbxReset_mut s
  | mbxUnknownOp => exact execMbxUnknownOp_mut s
  | rfInterf c clips power mean gain => exact execRfInterf_mut c clips power mean gain s
  | notchLock c freq level width => exact execNotchLock_mut c freq level width s
  | antFault a ma => exact execAntFault_mut a ma s
  | antBiasEnable core a value => exact execAntBiasEnable_mut core a value s
  | acqStart ring e => exact execAcqStart_mut ring e s
  | acqDone k bin code dop peak second noise cn0 => exact execAcqDone_mut k bin code dop peak second noise cn0 s
  | chCreate ring e => exact execChCreate_mut ring e s
  | gnbSteer ring e => exact execGnbSteer_mut ring e s
  | chDestroy ring e => exact execChDestroy_mut ring e s
  | chResolve ring e => exact execChResolve_mut ring e s
  | channelBoundary x n gain => exact execChannelBoundary_mut x n gain s
  | accTimeout => exact execAccTimeout_mut s
  | gnbDisable => exact execGnbDisable_mut s
  | gnbScRead core which => exact execGnbScRead_mut core which s
  | measStrobe => exact execMeasStrobe_mut s
  | measBlockWrite => exact execMeasBlockWrite_mut s
  | camLink l up gear => exact execCamLink_mut l up gear s
  | pocShort l => exact execPocShort_mut l s
  | pocOpen l ma => exact execPocOpen_mut l ma s
  | linkCfgWrite core l value => exact execLinkCfgWrite_mut core l value s
  | csiPacket src hdr => exact execCsiPacket_mut src hdr s
  | frameStart src no => exact execFrameStart_mut src no s
  | frameEnd src => exact execFrameEnd_mut src s
  | linePacket src dt payload crcOk => exact execLinePacket_mut src dt payload crcOk s
  | frameTimeout src => exact execFrameTimeout_mut src s
  | pipelineLine p => exact execPipelineLine_mut p s
  | pipelineSwitch p => exact execPipelineSwitch_mut p s
  | camFrame => exact execCamFrame_mut s
  | cciStart core l value => exact execCciStart_mut core l value s
  | cciEnd l result data => exact execCciEnd_mut l result data s
  | ctxCreate ring e => exact execCtxCreate_mut ring e s
  | ctxDestroy ring e => exact execCtxDestroy_mut ring e s
  | ctxPalette ring e => exact execCtxPalette_mut ring e s
  | bufGive ring e => exact execBufGive_mut ring e s
  | ctxBind ring e => exact execCtxBind_mut ring e s
  | camCtxRead core x => exact execCamCtxRead_mut core x s
  | camDisable => exact execCamDisable_mut s
  | pkgLoad ring e => exact execPkgLoad_mut ring e s
  | pkgLoadDone slot => exact execPkgLoadDone_mut slot s
  | pkgUnload ring e => exact execPkgUnload_mut ring e s
  | fenStreamCreate ring e => exact execFenStreamCreate_mut ring e s
  | fenStreamDestroy ring e => exact execFenStreamDestroy_mut ring e s
  | fenJob ring e => exact execFenJob_mut ring e s
  | jobRequest x => exact execJobRequest_mut x s
  | jobComplete x => exact execJobComplete_mut x s
  | fenSramCorrected => exact execFenSramCorrected_mut s
  | sramUe slot => exact execSramUe_mut slot s
  | fenDisable => exact execFenDisable_mut s
  | arbDecide a commit => exact execArbDecide_mut a commit s
  | arbFreeze core a value => exact execArbFreeze_mut core a value s
  | arbStarve k => exact execArbStarve_mut k s
  | hostArbRequest core value => exact execHostArbRequest_mut core value s
  | reqCreate ring e => exact execReqCreate_mut ring e s
  | reqDestroy ring e => exact execReqDestroy_mut ring e s
  | reqClass ring e => exact execReqClass_mut ring e s
  | srcCreate ring e => exact execSrcCreate_mut ring e s
  | srcDestroy ring e => exact execSrcDestroy_mut ring e s
  | fusSubmit ring e => exact execFusSubmit_mut ring e s
  | contributionArrive => exact execContributionArrive_mut s
  | imuSample gx gy gz ax ay az => exact execImuSample_mut gx gy gz ax ay az s
  | fusImuRead core => exact execFusImuRead_mut core s
  | instantBoundary => exact execInstantBoundary_mut s
  | instantClose => exact execInstantClose_mut s
  | publicationStart => exact execPublicationStart_mut s
  | instantEnd => exact execInstantEnd_mut s
  | calCommit core x value => exact execCalCommit_mut core x value s
  | voteReadmit core x value => exact execVoteReadmit_mut core x value s
  | fusCalvRead core x => exact execFusCalvRead_mut core x s
  | fusDisable => exact execFusDisable_mut s
  | yldCompute => exact execYldCompute_mut s
  | yldTile => exact execYldTile_mut s
  | layerCreate ring e => exact execLayerCreate_mut ring e s
  | layerDestroy ring e => exact execLayerDestroy_mut ring e s
  | yldPose ring e => exact execYldPose_mut ring e s
  | yldFlush ring e => exact execYldFlush_mut ring e s
  | yldDisable => exact execYldDisable_mut s
  | canFrameRx n id fdf brs esi dlc data sof => exact execCanFrameRx_mut n id fdf brs esi dlc data sof s
  | canTxDone n x sof => exact execCanTxDone_mut n x sof s
  | canTxError n x kind => exact execCanTxError_mut n x kind s
  | busOff n => exact execBusOff_mut n s
  | busOffRecovered n => exact execBusOffRecovered_mut n s
  | busRecover core n value => exact execBusRecover_mut core n value s
  | txdDom n => exact execTxdDom_mut n s
  | busDom n => exact execBusDom_mut n s
  | objSend core x value => exact execObjSend_mut core x value s
  | objAbort core x value => exact execObjAbort_mut core x value s
  | busObjRead core x => exact execBusObjRead_mut core x s
  | tpFrameRx n id data sof => exact execTpFrameRx_mut n id data sof s
  | tpTimeout k => exact execTpTimeout_mut k s
  | bamGap k => exact execBamGap_mut k s
  | tpDelivery k => exact execTpDelivery_mut k s
  | objCreate ring e => exact execObjCreate_mut ring e s
  | objDestroy ring e => exact execObjDestroy_mut ring e s
  | qCreate ring e => exact execQCreate_mut ring e s
  | qDestroy ring e => exact execQDestroy_mut ring e s
  | tpSend ring e => exact execTpSend_mut ring e s
  | tpAbort ring e => exact execTpAbort_mut ring e s
  | busDisable => exact execBusDisable_mut s
  | ethFrameRx p frame fcsOk full stamp => exact execEthFrameRx_mut p frame fcsOk full stamp s
  | macAgeOut vid mac => exact execMacAgeOut_mut vid mac s
  | gptpSync twoStep seq origin corr stamp => exact execGptpSync_mut twoStep seq origin corr stamp s
  | gptpFollowUp seq origin corr => exact execGptpFollowUp_mut seq origin corr s
  | followUpTimeout => exact execFollowUpTimeout_mut s
  | pdelayReq ok delay => exact execPdelayReq_mut ok delay s
  | gptpState => exact execGptpState_mut s
  | lidarFragment f payload => exact execLidarFragment_mut f payload s
  | fltRx payload stamp => exact execFltRx_mut payload stamp s
  | peerCreate ring e => exact execPeerCreate_mut ring e s
  | peerDestroy ring e => exact execPeerDestroy_mut ring e s
  | fleetSend ring e => exact execFleetSend_mut ring e s
  | keyLoad ring e => exact execKeyLoad_mut ring e s
  | keyErase ring e => exact execKeyErase_mut ring e s
  | frameTx ring e => exact execFrameTx_mut ring e s
  | ethTxComplete p => exact execEthTxComplete_mut p s
  | ethLinkChange p up => exact execEthLinkChange_mut p up s
  | ethDisable => exact execEthDisable_mut s
  | pairCycle => exact execPairCycle_mut s
  | headRx lane cell stamp => exact execHeadRx_mut lane cell stamp s
  | sigRx lane cell => exact execSigRx_mut lane cell s
  | bulkRx lane cell => exact execBulkRx_mut lane cell s
  | laneTimeout lane => exact execLaneTimeout_mut lane s
  | bodySend ring e => exact execBodySend_mut ring e s
  | bodySendDone => exact execBodySendDone_mut s
  | pairDisable => exact execPairDisable_mut s
  | pnlPowerOn ring e => exact execPnlPowerOn_mut ring e s
  | pnlPowerOff ring e => exact execPnlPowerOff_mut ring e s
  | pnlRefresh ring e => exact execPnlRefresh_mut ring e s
  | pnlDischarge ring e => exact execPnlDischarge_mut ring e s
  | pnlRailReady rail => exact execPnlRailReady_mut rail s
  | pnlFrame => exact execPnlFrame_mut s
  | railFault rail => exact execRailFault_mut rail s
  | panelRemoved => exact execPanelRemoved_mut s
  | ptempMeasure t => exact execPtempMeasure_mut t s
  | flFault short => exact execFlFault_mut short s
  | flEnableWrite core value => exact execFlEnableWrite_mut core value s
  | pnlDisable => exact execPnlDisable_mut s
  | recScanEnd => exact execRecScanEnd_mut s
  | recStreamCreate ring e => exact execRecStreamCreate_mut ring e s
  | recStreamDestroy ring e => exact execRecStreamDestroy_mut ring e s
  | recPut ring e => exact execRecPut_mut ring e s
  | recFlush ring e => exact execRecFlush_mut ring e s
  | recExport ring e => exact execRecExport_mut ring e s
  | expDone => exact execExpDone_mut s
  | recWindowClose => exact execRecWindowClose_mut s
  | recDisable => exact execRecDisable_mut s
  | updStage ring e => exact execUpdStage_mut ring e s
  | stagingEnd stop => exact execStagingEnd_mut stop s
  | updAbort ring e => exact execUpdAbort_mut ring e s
  | updVarnish ring e => exact execUpdVarnish_mut ring e s
  | updConfirm ring e => exact execUpdConfirm_mut ring e s
  | lcChange ring e => exact execLcChange_mut ring e s
  | keyProg ring e => exact execKeyProg_mut ring e s
  | usbEnable core value => exact execUsbEnable_mut core value s
  | usbData data => exact execUsbData_mut data s
  | usbRecovery pkg stop => exact execUsbRecovery_mut pkg stop s
  | updDisable => exact execUpdDisable_mut s
  | vlvSupplyReturn => exact execVlvSupplyReturn_mut s
  | ssupLimit k ovr => exact execSsupLimit_mut k ovr s
  | canRxError n kind => exact execCanRxError_mut n kind s
  | canBusIntegration n => exact execCanBusIntegration_mut n s
  | antOpenClear a ma => exact execAntOpenClear_mut a ma s
  | pocOpenClear l ma => exact execPocOpenClear_mut l ma s
  | pairCellCrcFail lane => exact execPairCellCrcFail_mut lane s
  | pdetChange present => exact execPdetChange_mut present s
  | pnlRailDown rail => exact execPnlRailDown_mut rail s
  | usbVbusChange present => exact execUsbVbusChange_mut present s

theorem step_keeps_wf {s t : State} (hs : s.wf = true) (h : step s = .next t) : t.wf = true := by
  unfold step at h
  split at h
  · cases h
    exact (State_refEdge_mut s).wf hs
  · exact (exec_upd _ _ t h).wf hs

/-- Settles O5: the REF edge leaves registers and memories alone, and each command keeps their canonical form by its `Upd` law. -/
theorem everyStepKeepsTheCanonicalForm : Obligations.EveryStepKeepsTheCanonicalForm :=
  fun _ _ hs h => step_keeps_wf hs h

/-! ### Writes of a core -/

section Writes
variable {core a : Nat} {v : Word} {s : State}

theorem hostWrite_bad (hg : goodAddr a = false) : s.hostWrite core a v = s.busError core := by
  simp [State.hostWrite, hg]

theorem hostWrite_closed (hg : goodAddr a = true) (hc : s.closed a = true) : s.hostWrite core a v = { s with access := .none } := by
  have hc' : State.closed { s with access := .none } a = true := hc
  simp [State.hostWrite, hg, hc']

theorem hostWrite_open (hg : goodAddr a = true) (hc : s.closed a = false) :
    s.hostWrite core a v = State.regWrite a v { s with access := .none } := by
  have hc' : State.closed { s with access := .none } a = false := hc
  simp [State.hostWrite, hg, hc']

/-- A good access leaves no bus error behind: no register's rule writes the record of the access. -/
theorem hostWrite_access (hg : goodAddr a = true) : (s.hostWrite core a v).access = .none := by
  cases hc : s.closed a with
  | true => rw [hostWrite_closed hg hc]
  | false =>
    rw [hostWrite_open hg hc]
    exact (State_regWrite_mut a v _).same .access (by decide)

theorem regWrite_plain (hs : s.specialWrite a v = none) (he : (hasEnable (blkOf a) && decide (a = blkBase (blkOf a))) = false) :
    s.regWrite a v = s.plainWrite a v := by
  simp [State.regWrite, hs, he]

theorem plainWrite_unmapped (hd : findDesc a = none) : s.plainWrite a v = s := by
  simp [State.plainWrite, hd]

end Writes

/-- The word `old` after a write of `v` that reaches the bits of `m` and clears those of `c` where `v` has 1 (R7). -/
def maskedWrite (old v : Word) (m c : Nat) : Word :=
  ((old &&& ~~~(BitVec.ofNat 32 m)) ||| (v &&& BitVec.ofNat 32 m)) &&& ~~~(v &&& BitVec.ofNat 32 c)

theorem getLsbD_maskedWrite (old v : Word) (m c : Nat) {i : Nat} (hi : i < 32) :
    (maskedWrite old v m c).getLsbD i =
      if c.testBit i ∧ v.getLsbD i then false else if m.testBit i then v.getLsbD i else old.getLsbD i := by
  simp only [maskedWrite, BitVec.getLsbD_and, BitVec.getLsbD_or, BitVec.getLsbD_not, BitVec.getLsbD_ofNat, hi, decide_true, Bool.true_and]
  cases c.testBit i <;> cases m.testBit i <;> simp [Bool.and_comm]

/-- The bits a write of a register reaches: RW, and RWL while its block is not locked (R7, R103). -/
theorem plainWrite_mapped {a : Nat} {v : Word} {d : RegDesc} {s : State} (hd : findDesc a = some d)
    (he : (hasEnable (blkOf a) && decide (a = blkBase (blkOf a))) = false) :
    s.plainWrite a v = s.setReg a (maskedWrite (s.reg a) v (d.rw ||| if s.locked (blkOf a) then 0 else d.rwl) d.w1c) := by
  simp only [State.plainWrite, hd, he, maskedWrite, Bool.false_eq_true, if_false]

/-- A bit is RW, or RWL in a block that is not locked. -/
theorem testBit_writable (rw rwl : Nat) (l : Bool) (i : Nat) :
    (rw ||| if l then 0 else rwl).testBit i = true ↔ rw.testBit i = true ∨ (rwl.testBit i = true ∧ l = false) := by
  cases l <;> simp

theorem keeps_access (s : State) (r : BusResult) : s.keeps [.access] [] { s with access := r } :=
  keeps_of_same (fun p hp => by cases p <;> simp [State.same] at hp ⊢) rfl rfl rfl

/-- Settles O10: a write without a rule of its own is `plainWrite`, whose masks are the access codes; a closed window takes none. -/
theorem registerWritesFollowTheAccessCodes : Obligations.RegisterWritesFollowTheAccessCodes := by
  refine ⟨fun core a v d s hg hc hd hs he => ?_, fun core a v s hg hc hd hs he => ?_, fun core a v s hg hc => ?_⟩
  · refine ⟨_, congrArg Host.Outcome.next ((hostWrite_open hg hc).trans ((regWrite_plain (hs _) he).trans (plainWrite_mapped hd he))), ?_, ?_, fun i hi => ?_⟩
    · exact keeps_trans (keeps_mono (keeps_access s .none) (by simp) (by simp)) (keeps_mono (keeps_setReg _ a _) (by simp) (by simp))
    · exact (keeps_setReg _ a _).1 .access (by simp)
    · rw [reg_setReg_self, getLsbD_maskedWrite _ _ _ _ hi]
      simp only [testBit_writable]
      rfl
  · exact ⟨_, congrArg Host.Outcome.next ((hostWrite_open hg hc).trans ((regWrite_plain (hs _) he).trans (plainWrite_unmapped hd))), keeps_access s .none⟩
  · exact ⟨_, congrArg Host.Outcome.next (hostWrite_closed hg hc), keeps_access s .none⟩

/-! ### Reads of a core -/

/-- A read of core `core`: it got a value, and only latched companions and registers of the windows `W` changed. -/
structure ReadIn (core : Nat) (W : List Nat) (s t : State) : Prop where
  upd : Upd [.latch, .access] (some W) s t
  value : ∃ w, t.access = .value core w

/-- The same of a read that a latch rule may answer. -/
def OptReadIn (core : Nat) (W : List Nat) (s : State) (o : Option State) : Prop := ∀ t, o = some t → ReadIn core W s t

theorem OptReadIn.ofNone {core : Nat} {W : List Nat} {s : State} : OptReadIn core W s none := fun _ h => nomatch h

theorem OptReadIn.ofSome {core : Nat} {W : List Nat} {s t : State} (h : ReadIn core W s t) : OptReadIn core W s (some t) := by
  rintro u ⟨⟩; exact h

theorem OptReadIn.ite {core : Nat} {W : List Nat} {s : State} {c : Prop} [Decidable c] {o p : Option State} (ho : c → OptReadIn core W s o)
    (hp : OptReadIn core W s p) : OptReadIn core W s (if c then o else p) := by
  split
  · exact ho ‹c›
  · exact hp

/-- A latching read that changes no register. -/
theorem OptReadIn.latching {core w : Nat} {s t : State} (h : Upd [.latch, .access] (some []) s t) (hv : ∃ x, t.access = .value core x) :
    OptReadIn core [w] s (some t) := .ofSome ⟨h.mono rfl rfl, hv⟩

/-- A read that clears fields of its own window. -/
theorem OptReadIn.clearing {core w x : Nat} {s t : State} (h : Upd [.latch, .access] (some [w]) s t) (hw : x = w) (hv : ∃ y, t.access = .value core y) :
    OptReadIn core [x] s (some t) := by
  subst hw; exact .ofSome ⟨h, hv⟩

/-- Companions latched one by one, and a value. -/
theorem OptReadIn.companions {core w : Nat} {s : State} (f : Nat → Word) (bs : List Nat) (v : Word) :
    OptReadIn core [w] s (some ((bs.foldl (fun (t : State) b => t.latchFor core b (f b)) s).answer core v)) :=
  .latching (Upd.comp (State_answer_mut ..) (by decide) rfl
    (Upd.foldl _ (fun _ _ _ hy => Upd.comp (State_latchFor_mut ..) (by decide) rfl hy) (Upd.refl s))) ⟨_, rfl⟩

theorem readGnb_value (core which : Nat) (s : State) : ∃ w, (s.readGnb core which).access = .value core w := by
  match which with
  | 0 => exact ⟨_, rfl⟩
  | 1 => exact ⟨_, rfl⟩
  | n + 2 => exact ⟨_, rfl⟩

theorem readObj_value (core x : Nat) (s : State) : ∃ w, (s.readObj core x).access = .value core w := by
  unfold State.readObj
  split <;> exact ⟨_, rfl⟩

/-- An address between two of one window lies in it. -/
theorem windowOf_between {lo a n : Nat} (h : (decide (lo ≤ a) && decide (a < lo + n)) = true) (hn : windowOf (lo + n) = windowOf lo) :
    windowOf a = windowOf lo := by
  simp only [Bool.and_eq_true, decide_eq_true_eq] at h
  simp only [windowOf] at *
  omega

/-- The reads with a rule of their own: each answers and stays in the window of its register. -/
theorem latchRead_readIn (core a : Nat) (s : State) : OptReadIn core [windowOf a] s (s.latchRead core a) := by
  unfold State.latchRead
  dsimp only
  refine .ite (fun _ => .latching (State_readLtc_mut ..) ⟨_, rfl⟩) ?_
  refine .ite (fun h => .clearing (State_readTpStat_mut ..) (h ▸ rfl) ⟨_, rfl⟩) ?_
  refine .ite (fun _ => .latching (State_readAinRaw_mut ..) ⟨_, rfl⟩) ?_
  refine .ite (fun _ => .latching (State_readPinVal_mut ..) ⟨_, rfl⟩) ?_
  refine .ite (fun _ => .latching (State_readLacCnt_mut ..) ⟨_, rfl⟩) ?_
  refine .ite (fun _ => .latching (State_readFlowStat_mut ..) ⟨_, rfl⟩) ?_
  refine .ite (fun _ => .latching (State_readFrame_mut ..) ⟨_, rfl⟩) ?_
  refine .ite (fun _ => .latching (State_readSample_mut ..) ⟨_, rfl⟩) ?_
  refine .ite (fun _ => .latching (State_readSense_mut ..) ⟨_, rfl⟩) ?_
  refine .ite (fun _ => .latching (State_readCtx_mut ..) ⟨_, rfl⟩) ?_
  refine .ite (fun h => .clearing (State_readGnb_mut ..) (h ▸ rfl) (readGnb_value ..)) ?_
  refine .ite (fun h => .clearing (State_readGnb_mut ..) (h ▸ rfl) (readGnb_value ..)) ?_
  refine .ite (fun h => .clearing (State_readGnb_mut ..) (windowOf_between (Bool.and_eq_true_iff.1 h).1 rfl) (readGnb_value ..)) ?_
  refine .ite (fun h => .clearing (State_readCamCtx_mut ..) (windowOf_between (Bool.and_eq_true_iff.1 h).1 rfl) ⟨_, rfl⟩) ?_
  refine .ite (fun _ => .companions _ _ _) ?_
  refine .ite (fun _ => .companions _ _ _) ?_
  refine .ite (fun _ => .companions _ _ _) ?_
  exact .ite (fun h => .clearing (State_readObj_mut ..) (windowOf_between (Bool.and_eq_true_iff.1 h).1 rfl) (readObj_value ..)) .ofNone

section Reads
variable {core a : Nat} {s : State}

theorem clearRc_mapped {d : RegDesc} (hd : findDesc a = some d) : (s.clearRc a).reg a = s.reg a &&& ~~~(BitVec.ofNat 32 d.rc) := by
  by_cases h : d.rc = 0
  · simp only [State.clearRc, hd, h, if_true, BitVec.not_zero, BitVec.and_allOnes]
  · simp [State.clearRc, hd, h]

theorem clearRc_unmapped (hd : findDesc a = none) : s.clearRc a = s := by
  simp [State.clearRc, hd]

/-- Either nothing, or a write of the register read. -/
theorem clearRc_cases (a : Nat) (s : State) : s.clearRc a = s ∨ ∃ w, s.clearRc a = s.setReg a w := by
  unfold State.clearRc
  split
  · split
    · exact .inl rfl
    · exact .inr ⟨_, rfl⟩
  · exact .inl rfl

theorem clearRc_upd (a : Nat) (s : State) : Upd [] (some [windowOf a]) s (s.clearRc a) := by
  obtain h | ⟨w, h⟩ := clearRc_cases a s <;> rw [h]
  · exact Upd.refl s
  · exact State_setReg_mut a w s rfl

theorem get_clearRc_apart (s : State) {g : Fld} (h : g.apart (wordAt a)) : (s.clearRc a).get g = s.get g := by
  obtain hc | ⟨w, hc⟩ := clearRc_cases a s <;> rw [hc]
  exact get_setReg_apart s a g w h

theorem hostRead_bad (hg : goodAddr a = false) : s.hostRead core a = s.busError core := by
  simp [State.hostRead, hg]

theorem hostRead_hidden (hg : goodAddr a = true) (h : s.closed a = true ∨ s.freeWindow a = true) : s.hostRead core a = s.answer core 0#32 := by
  simp [State.hostRead, hg, h]

theorem hostRead_latching {t : State} (hg : goodAddr a = true) (hc : s.closed a = false) (hf : s.freeWindow a = false)
    (hl : s.latchRead core a = some t) : s.hostRead core a = t := by
  simp [State.hostRead, hg, hc, hf, hl]

theorem hostRead_plain (hg : goodAddr a = true) (hc : s.closed a = false) (hf : s.freeWindow a = false) (hl : s.latchRead core a = none) :
    s.hostRead core a = (s.clearRc a).answer core (s.coreView core a) := by
  simp [State.hostRead, hg, hc, hf, hl]

theorem hostRead_readIn (hg : goodAddr a = true) : ReadIn core [windowOf a] s (s.hostRead core a) := by
  by_cases h : s.closed a = true ∨ s.freeWindow a = true
  · rw [hostRead_hidden hg h]
    exact ⟨(State_answer_mut ..).mono rfl rfl, _, rfl⟩
  · obtain ⟨hc, hf⟩ : s.closed a = false ∧ s.freeWindow a = false := by simpa using h
    cases hl : s.latchRead core a with
    | some t =>
      rw [hostRead_latching hg hc hf hl]
      exact latchRead_readIn core a s t hl
    | none =>
      rw [hostRead_plain hg hc hf hl]
      exact ⟨(State_answer_mut ..).comp rfl rfl ((clearRc_upd a s).mono rfl (by simp [winSub])), _, rfl⟩

end Reads

/-! ### Bus errors -/

theorem only_access (s : State) (r : BusResult) : s.only [.access] [] { s with access := r } :=
  ⟨(keeps_access s r).1, fun _ _ => rfl, rfl, rfl⟩

theorem execBadAccess_error {core : Fin 8} {addr size : Nat} (w : Bool) {s : State} (hl : 0xC0000000 ≤ addr) (hh : addr < 0xE0000000)
    (hs : size = 4 → goodAddr addr = false) : execBadAccess core addr size w s = .next (s.busError core.val) := by
  have hn : (decide (size = 4) && goodAddr addr) = false := by
    by_cases h : size = 4
    · simp [hs h]
    · simp [h]
  simp only [execBadAccess, hl, hh, hn, decide_true, Bool.not_false, Bool.and_true, if_true]

/-- Settles O18: every other access is `busError`; an aligned one in a window is answered by the register's own rule, in its window. -/
theorem otherAccessesEndInABusErrorOnly : Obligations.OtherAccessesEndInABusErrorOnly := by
  refine ⟨fun core addr size w s hl hh hs => ?_, fun core addr v s hg => ?_, fun core addr s hg => ?_, fun core addr v s hg => ?_,
    fun core addr s hg => ?_⟩
  · exact ⟨_, execBadAccess_error w hl hh hs, rfl, only_access s _⟩
  · exact ⟨_, congrArg Host.Outcome.next (hostWrite_bad hg), rfl, only_access s _⟩
  · exact ⟨_, congrArg Host.Outcome.next (hostRead_bad hg), rfl, only_access s _⟩
  · refine next_of (exec_upd _ s) rfl fun hu => ⟨fun c => ?_, within_of hu⟩
    rw [hostWrite_access hg]
    exact BusResult.noConfusion
  · obtain ⟨hu, hv⟩ := hostRead_readIn (core := core.val) (s := s) hg
    exact ⟨_, rfl, hv, within_of hu⟩

/-! ### Reads that clear, and reads that meet an error -/

theorem execDramReadUe_core {core : Fin 8} {addr : Nat} {s : State} (h : addr < dramSize) :
    execDramReadUe (some core) addr s = .next ((s.busError core.val).raise 5) := by
  simp [execDramReadUe, h]

theorem execDramReadUe_block {addr : Nat} {s : State} (h : addr < dramSize) : execDramReadUe none addr s = .next (s.raise 5) := by
  simp [execDramReadUe, h]

theorem only_raise (s : State) (n : Nat) : s.only [.rcd, .cyc] (raiseFlds n) (s.raise n) :=
  only_of (State_raise_mut n s) rfl fun _ hg => get_raise_apart s n _ hg

/-- Settles O19: a plain read is `clearRc` and an answer of what the core sees; a hidden window answers 0; an uncorrectable error is
source 5, and to a core a bus error. -/
theorem readsAnswerClearRcFieldsAndMeetErrors : Obligations.ReadsAnswerClearRcFieldsAndMeetErrors := by
  refine ⟨fun core addr s hg hc hf hl => ?_, fun core addr s hg h => ?_, fun core addr s h => ?_, fun addr s h => ?_⟩
  · refine ⟨_, congrArg Host.Outcome.next (hostRead_plain hg hc hf hl), rfl, ?_, ?_⟩
    · change (s.clearRc addr).reg addr = _
      cases hd : findDesc addr with
      | some d => exact clearRc_mapped hd
      | none => rw [clearRc_unmapped hd]
    · refine only_trans (t := s.clearRc addr) ?_ (only_mono (only_access _ _) (by simp) (by simp))
      exact only_of (clearRc_upd addr s) rfl fun g hg => get_clearRc_apart s (hg _ (by simp))
  · exact ⟨_, congrArg Host.Outcome.next (hostRead_hidden hg h), rfl, only_access s _⟩
  · refine ⟨_, execDramReadUe_core h, (State_raise_mut 5 _).same .access (by decide), raised_of rfl rfl rfl rfl, ?_⟩
    exact only_trans (only_mono (only_access s _) (by simp) (by simp)) (only_mono (only_raise _ 5) (by simp) (by simp))
  · exact ⟨_, execDramReadUe_block h, raised_raise s 5, only_raise s 5⟩

end Sys2Proof.Machine
end

section
/-! PROOFS. The statements of spec/01_architecture.md: the write of ENABLE, the queue of checks, and what the end of a check leaves
(R29, R101, R103, R127). -/

namespace Sys2Proof.Machine

/-! ### The control register of a block -/

theorem hasEnable_bounds {b : Nat} (h : hasEnable b = true) : 3 ≤ b ∧ b ≤ 0x13 := by
  simpa [hasEnable] using h

theorem blkBase_eq {b : Nat} (h : hasEnable b = true) : blkBase b = 0xC0000000 + b * 0x1000000 := by
  have := hasEnable_bounds h
  simp only [blkBase]; split_ifs <;> omega

theorem windowOf_blkBase {b : Nat} (h : hasEnable b = true) : windowOf (blkBase b) = 0xC0 + b := by
  rw [blkBase_eq h, windowOf]; omega

theorem blkOf_blkBase {b : Nat} (h : hasEnable b = true) : blkOf (blkBase b) = b := by
  obtain ⟨h3, h13⟩ := hasEnable_bounds h
  interval_cases b <;> rfl

theorem goodAddr_blkBase {b : Nat} (h : hasEnable b = true) : goodAddr (blkBase b) = true := by
  obtain ⟨h3, h13⟩ := hasEnable_bounds h
  interval_cases b <;> rfl

/-- No chapter gives the write of a control register a rule beside R29, R103 and R127. -/
theorem specialWrite_blkBase {b : Nat} (h : hasEnable b = true) (v : Word) (s : State) : s.specialWrite (blkBase b) v = none := by
  obtain ⟨h3, h13⟩ := hasEnable_bounds h
  interval_cases b <;> rfl

/-- ENABLE is no W1C bit. -/
theorem w1c_blkBase {b : Nat} (h : hasEnable b = true) {d : RegDesc} (hd : findDesc (blkBase b) = some d) : d.w1c.testBit 0 = false := by
  have hall : ((findDesc (blkBase b)).all fun d => !d.w1c.testBit 0) = true := by
    obtain ⟨h3, h13⟩ := hasEnable_bounds h
    interval_cases b <;> rfl
  simpa [hd] using hall

theorem enabled_eq (s : State) (b : Nat) : s.enabled b = (s.reg (blkBase b)).getLsbD 0 := by
  simp [State.enabled, State.getB, State.get, enableFld, bitsOf_zero_lo, BitVec.getLsbD]

/-- The plain part of a write of a control register leaves ENABLE as it was. -/
theorem enabled_plainWrite {b : Nat} (h : hasEnable b = true) (v : Word) (s : State) : (s.plainWrite (blkBase b) v).enabled b = s.enabled b := by
  cases hd : findDesc (blkBase b) with
  | none => rw [plainWrite_unmapped hd]
  | some d =>
    simp only [State.plainWrite, hd, blkOf_blkBase h, h, decide_true, Bool.and_true, if_true, enabled_eq, reg_setReg_self]
    refine (getLsbD_maskedWrite (s.reg (blkBase b)) v _ d.w1c (by decide)).trans ?_
    simp [w1c_blkBase h hd]

theorem get_plainWrite_apart (s : State) (a : Nat) (v : Word) (g : Fld) (h : g.apart (wordAt a)) : (s.plainWrite a v).get g = s.get g := by
  unfold State.plainWrite
  split
  · rfl
  · exact get_setReg_apart _ _ _ _ h

theorem inFlight_of_rings {s t : State} (h : t.rings = s.rings) (b : Nat) : t.inFlight b = s.inFlight b := by
  simp only [State.inFlight, ring_of_rings h]

/-- A core's write of `v` to the control register of block `b`, but for its effect on ENABLE. -/
def State.ctlWritten (b : Nat) (v : Word) (s : State) : State := State.plainWrite (blkBase b) v { s with access := .none }

section Written
variable {b : Nat} {v : Word} {s : State}

theorem execEnableSet_open {core : Fin 8} {blk : Fin 21} (h : hasEnable blk.val = true) (hc : s.closed (blkBase blk.val) = false) :
    exec (.enableSet core blk v) s = .next ((s.ctlWritten blk.val v).writeEnable blk.val (bitAt v.toNat 0)) := by
  refine congrArg Host.Outcome.next ?_
  simp only [h, if_true]
  rw [hostWrite_open (goodAddr_blkBase h) hc]
  simp [State.regWrite, specialWrite_blkBase h, blkOf_blkBase h, h, State.ctlWritten]

theorem ctlWritten_upd : Upd [.access] none s (s.ctlWritten b v) :=
  (State_plainWrite_mut ..).comp rfl rfl (P := [.access]) ⟨(keeps_access s .none).1, fun _ _ => rfl, id, rfl, rfl⟩

theorem only_ctlWritten : s.only [.access] [wordAt (blkBase b)] (s.ctlWritten b v) :=
  only_of ctlWritten_upd rfl fun _ hg => get_plainWrite_apart _ _ _ _ (hg _ (by simp))

theorem ctlWritten_str : (s.ctlWritten b v).str = s.str := ctlWritten_upd.same .str (by decide)
theorem ctlWritten_ltc : (s.ctlWritten b v).ltc = s.ltc := ctlWritten_upd.same .ltc (by decide)

theorem enabled_ctlWritten (h : hasEnable b = true) : (s.ctlWritten b v).enabled b = s.enabled b := enabled_plainWrite h v _

theorem inFlight_ctlWritten : (s.ctlWritten b v).inFlight b = s.inFlight b := inFlight_of_rings (ctlWritten_upd.same .rings (by decide)) b

/-- The results of checks lie outside every control register. -/
theorem chkRes_ne_blkBase (h : hasEnable b = true) : STR_CHK_RES b ≠ blkBase b := by
  have := hasEnable_bounds h
  simp only [blkBase_eq h, STR_CHK_RES]; omega

theorem run_ctlWritten (h : hasEnable b = true) : (s.ctlWritten b v).getB (STR_CHK_RES.RUN b) = s.getB (STR_CHK_RES.RUN b) :=
  getB_of_get (only_ctlWritten.2.1 _ fun f hf => .inl (by rw [List.mem_singleton.1 hf]; exact chkRes_ne_blkBase h))

end Written

/-! ### Asking for a check (R29, R103, R127) -/

/-- The state with another queue of checks. -/
def State.withStr (x : StrState) (s : State) : State := { s with str := x }

theorem only_withStr (s : State) (x : StrState) : s.only [.str] [] (s.withStr x) :=
  ⟨fun p hp => by cases p <;> simp [State.same, State.withStr] at hp ⊢, fun _ _ => rfl, rfl, rfl⟩

section Ask
variable {b : Nat} {s : State}

theorem writeEnable_same {v : Bool} (h : s.enabled b = v) : s.writeEnable b v = s := by
  simp [State.writeEnable, h]

theorem writeEnable_held (h : hasEnable b = true) (he : s.enabled b = false) (hr : s.getB (STR_CHK_RES.RUN b) = false) (hf : s.inFlight b = true) :
    s.writeEnable b true = (s.setB (STR_CHK_RES.RUN b) true).withStr { s.str with held := s.str.held ++ [b] } := by
  have hf' : (s.setB (STR_CHK_RES.RUN b) true).inFlight b = true := (inFlight_of_rings (by simp) b).trans hf
  simp only [State.writeEnable, h, he, hr, hf', Bool.not_true, Bool.false_or, Bool.false_eq_true, decide_false, if_false, if_true, setB_str, State.withStr]

theorem writeEnable_queued (h : hasEnable b = true) (he : s.enabled b = false) (hr : s.getB (STR_CHK_RES.RUN b) = false) (hf : s.inFlight b = false) :
    s.writeEnable b true = (s.setB (STR_CHK_RES.RUN b) true).queueCheck b := by
  have hf' : (s.setB (STR_CHK_RES.RUN b) true).inFlight b = false := (inFlight_of_rings (by simp) b).trans hf
  simp only [State.writeEnable, h, he, hr, hf', Bool.not_true, Bool.false_or, Bool.false_eq_true, decide_false, if_false, if_true]

/-- The first check to land in its REF cycle goes behind all others. -/
theorem queueCheck_first {u : State} (hs : u.str = s.str) (hn : u.ltc = s.ltc) (h : s.str.landAt ≠ s.ltc) :
    u.queueCheck b = u.withStr { s.str with checks := s.str.checks ++ [b], landAt := s.ltc, landed := 1 } := by
  simp [State.queueCheck, State.withStr, hs, hn, h]

/-- A check that lands behind those of `new` in one REF cycle goes among them by block number. -/
theorem queueCheck_among {u : State} {old new : List Nat} (hs : u.str = s.str) (hn : u.ltc = s.ltc) (h : s.str.landAt = s.ltc)
    (hc : s.str.checks = old ++ new) (hl : s.str.landed = new.length) :
    u.queueCheck b = u.withStr { s.str with
      checks := old ++ (new.filter fun x => decide (x < b)) ++ b :: (new.filter fun x => !decide (x < b)), landed := new.length + 1 } := by
  simp [State.queueCheck, State.withStr, hs, hn, h, hc, hl]

/-- What every ENABLE write that asks for a check leaves, whatever it does to the queues `x`. -/
theorem asked_check (v : Word) (x : StrState) (h : hasEnable b = true) (he : s.enabled b = false) :
    let t := ((s.ctlWritten b v).setB (STR_CHK_RES.RUN b) true).withStr x
    t.getB (STR_CHK_RES.RUN b) = true ∧ t.enabled b = false ∧ t.str = x ∧
      s.only [.access, .str] [STR_CHK_RES.RUN b, wordAt (blkBase b)] t := by
  have hu : ((s.ctlWritten b v).setB (STR_CHK_RES.RUN b) true).only [.str] [] _ := only_withStr _ x
  have hw : s.only [.access] [wordAt (blkBase b)] (s.ctlWritten b v) := only_ctlWritten
  refine ⟨?_, ?_, rfl, ?_⟩
  · rw [getB_of_get (hu.2.1 _ (by simp))]
    exact getB_setB_self _ (STR_CHK_RES.RUN b) true (by simp [STR_CHK_RES.RUN]) rfl
  · rw [State.enabled, getB_of_get (hu.2.1 _ (by simp)), getB_setB_ne _ (STR_CHK_RES.RUN b) (enableFld b) _ (.inl (chkRes_ne_blkBase h).symm)]
    exact (enabled_ctlWritten h).trans he
  · refine only_trans (only_mono hw (by simp) (by simp)) (only_trans ?_ (only_mono hu (by simp) (by simp)))
    exact only_of (setB_any ..) rfl fun g hg => get_setB_apart _ _ _ _ (hg _ (by simp)) (by simp [STR_CHK_RES.RUN])

end Ask

section AskExec
variable {core : Fin 8} {blk : Fin 21} {v : Word} {s : State} (h : hasEnable blk.val = true) (hc : s.closed (blkBase blk.val) = false)
  (he : s.enabled blk.val = false) (hr : s.getB (STR_CHK_RES.RUN blk.val) = false) (hv : bitAt v.toNat 0 = true)
include h hc he hr hv

/-- A check asked for while commands of the block are in flight is held. -/
theorem execEnableSet_holds (hf : s.inFlight blk.val = true) : ∃ t, exec (.enableSet core blk v) s = .next t ∧
    t.getB (STR_CHK_RES.RUN blk.val) = true ∧ t.enabled blk.val = false ∧ t.str = { s.str with held := s.str.held ++ [blk.val] } ∧
      s.only [.access, .str] [STR_CHK_RES.RUN blk.val, wordAt (blkBase blk.val)] t := by
  refine ⟨_, (execEnableSet_open h hc).trans ?_, asked_check v _ h he⟩
  rw [hv, writeEnable_held h ((enabled_ctlWritten h).trans he) ((run_ctlWritten h).trans hr) (inFlight_ctlWritten.trans hf), ctlWritten_str]

/-- Any other goes into the queue, which becomes `x`. -/
theorem execEnableSet_queues {x : StrState} (hf : s.inFlight blk.val = false)
    (hx : ∀ u : State, u.str = s.str → u.ltc = s.ltc → u.queueCheck blk.val = u.withStr x) : ∃ t, exec (.enableSet core blk v) s = .next t ∧
    t.getB (STR_CHK_RES.RUN blk.val) = true ∧ t.enabled blk.val = false ∧ t.str = x ∧
      s.only [.access, .str] [STR_CHK_RES.RUN blk.val, wordAt (blkBase blk.val)] t := by
  refine ⟨_, (execEnableSet_open h hc).trans ?_, asked_check v x h he⟩
  rw [hv, writeEnable_queued h ((enabled_ctlWritten h).trans he) ((run_ctlWritten h).trans hr) (inFlight_ctlWritten.trans hf),
    hx _ (by simp only [setB_str, ctlWritten_str]) (by simp only [setB_ltc, ctlWritten_ltc])]

end AskExec

theorem execCheckEnqueue_held {blk : Fin 21} {s : State} (hh : blk.val ∈ s.str.held) (hf : s.inFlight blk.val = false) :
    exec (.checkEnqueue blk) s =
      .next (s.withStr { s.str with held := s.str.held.filter (· ≠ blk.val), checks := s.str.checks ++ [blk.val], landed := 0 }) := by
  refine congrArg Host.Outcome.next ?_
  simp [State.withStr, hh, hf]

/-! ### The result of a check (R29, R103) -/

/-- What STR_CHK_RES and STR_CHK_DET of block `b` show in `t` after a check that began in `s`. -/
structure CheckShown (b : Nat) (pass : Bool) (code off : Nat) (s t : State) : Prop where
  run : t.getB (STR_CHK_RES.RUN b) = false
  pass : t.getB (STR_CHK_RES.PASS b) = pass
  count : t.get (STR_CHK_RES.COUNT b) = (s.get (STR_CHK_RES.COUNT b) + 1) % 256
  reason : t.get (STR_CHK_RES.REASON b) = (b * 256 + code) % 65536
  offset : t.get (STR_CHK_DET.OFFSET b) = off % 2 ^ (STR_CHK_DET.OFFSET b).width

/-- A check is shown by two registers alone. -/
theorem CheckShown.congr {b code off : Nat} {pass : Bool} {s u t : State} (h : CheckShown b pass code off s u)
    (hr : t.reg (STR_CHK_RES b) = u.reg (STR_CHK_RES b)) (hd : t.reg (STR_CHK_DET b) = u.reg (STR_CHK_DET b)) : CheckShown b pass code off s t :=
  ⟨(getB_congr (STR_CHK_RES.RUN b) hr).trans h.run, (getB_congr (STR_CHK_RES.PASS b) hr).trans h.pass,
    (get_congr (STR_CHK_RES.COUNT b) hr).trans h.count, (get_congr (STR_CHK_RES.REASON b) hr).trans h.reason,
    (get_congr (STR_CHK_DET.OFFSET b) hd).trans h.offset⟩

theorem chkDet_ne_chkRes (b c : Nat) : STR_CHK_DET b ≠ STR_CHK_RES c := by
  simp only [STR_CHK_DET, STR_CHK_RES]; omega

theorem windowOf_chkRes (b : Nat) : windowOf (STR_CHK_RES b) = 0xC2 := by
  simp only [windowOf, STR_CHK_RES]; omega

theorem windowOf_chkDet (b : Nat) : windowOf (STR_CHK_DET b) = 0xC2 := by
  simp only [windowOf, STR_CHK_DET]; omega

theorem windowOf_raiseRegs {n a : Nat} (h : a ∈ raiseRegs n) : windowOf a = 0xC1 := by
  simp only [raiseRegs, List.mem_cons, List.not_mem_nil, or_false, EVT_SRC_STAT, EVT_SRC_LTC_LO, EVT_SRC_LTC_HI] at h
  rw [windowOf]; omega

/-- A register of another window than EVT's is not a source's. -/
theorem notMem_raiseRegs {n a w : Nat} (h : windowOf a = w) (hw : w ≠ 0xC1) : a ∉ raiseRegs n :=
  fun ha => hw (h.symm.trans (windowOf_raiseRegs ha))

section Result
variable (b code off : Nat) (pass : Bool) (s : State)

theorem checkResult_shown : CheckShown b pass code off s (s.checkResult b pass code off) := by
  have hraise (u : State) : CheckShown b pass code off s u → CheckShown b pass code off s (u.raise 16) := fun h =>
    h.congr (reg_raise_ne _ (notMem_raiseRegs (windowOf_chkRes b) (by decide))) (reg_raise_ne _ (notMem_raiseRegs (windowOf_chkDet b) (by decide)))
  have hres (u : State) (v : Nat) : (u.set (STR_CHK_DET.OFFSET b) v).reg (STR_CHK_RES b) = u.reg (STR_CHK_RES b) :=
    reg_set_ne _ _ (chkDet_ne_chkRes b b).symm
  refine hraise _ ⟨?_, ?_, ?_, ?_, get_set_self _ _ _ (Nat.le_of_ble_eq_true rfl)⟩
  · rw [getB_congr (STR_CHK_RES.RUN b) (hres _ _), getB_set_ne _ _ _ _ (.inr ⟨?_, .inr ?_⟩), State.wrapInc, getB_set_ne _ _ _ _ (.inr ⟨?_, .inr ?_⟩),
      getB_setB_ne _ _ _ _ (.inr ⟨?_, .inr ?_⟩), getB_setB_self _ _ _ ?_ rfl]
    all_goals exact Nat.le_of_ble_eq_true rfl
  · rw [getB_congr (STR_CHK_RES.PASS b) (hres _ _), getB_set_ne _ _ _ _ (.inr ⟨?_, .inr ?_⟩), State.wrapInc, getB_set_ne _ _ _ _ (.inr ⟨?_, .inr ?_⟩),
      getB_setB_self _ _ _ ?_ rfl]
    all_goals exact Nat.le_of_ble_eq_true rfl
  · rw [get_congr (STR_CHK_RES.COUNT b) (hres _ _), get_set_ne _ _ _ _ (.inr ⟨?_, .inr ?_⟩), get_wrapInc_self _ _ ?_,
      get_setB_ne _ _ _ _ (.inr ⟨?_, .inl ?_⟩), get_setB_ne _ _ _ _ (.inr ⟨?_, .inl ?_⟩)]
    · rfl
    all_goals exact Nat.le_of_ble_eq_true rfl
  · rw [get_congr (STR_CHK_RES.REASON b) (hres _ _)]
    exact get_set_self _ _ _ (Nat.le_of_ble_eq_true rfl)

theorem get_checkResult_apart (g : Fld) (h : ∀ f ∈ [wordAt (STR_CHK_RES b), wordAt (STR_CHK_DET b)] ++ raiseFlds 16, g.apart f) :
    (s.checkResult b pass code off).get g = s.get g := by
  have hr : g.apart (wordAt (STR_CHK_RES b)) := h _ (by simp)
  have hd : g.apart (wordAt (STR_CHK_DET b)) := h _ (by simp)
  have hres (u : State) (w : Word) : (u.setReg (STR_CHK_RES b) w).get g = u.get g := get_setReg_apart u _ g w hr
  refine (get_raise_apart _ 16 g fun f hf => h f (by simp [hf])).trans ((get_setReg_apart _ _ g _ hd).trans ?_)
  exact (hres _ _).trans ((hres _ _).trans ((hres _ _).trans (hres _ _)))

theorem only_checkResult : s.only [.rcd, .cyc] ([wordAt (STR_CHK_RES b), wordAt (STR_CHK_DET b)] ++ raiseFlds 16) (s.checkResult b pass code off) :=
  only_of (State_checkResult_mut ..) rfl (get_checkResult_apart b code off pass s)

/-- The registers a check's result can write. -/
theorem reg_checkResult {a : Nat} (hr : a ≠ STR_CHK_RES b) (hd : a ≠ STR_CHK_DET b) (he : a ∉ raiseRegs 16) :
    (s.checkResult b pass code off).reg a = s.reg a := by
  refine (keeps_of_only (only_checkResult b code off pass s)).2.1 a ?_
  simp only [raiseRegs, List.mem_cons, List.not_mem_nil, or_false, not_or] at he
  simpa [raiseFlds, wordAt, EVT_SRC_STAT.PEND, EVT_SRC_STAT.MULTI, hr, hd] using he

theorem checkResult_raised : s.raised 16 (s.checkResult b pass code off) := by
  have hr := windowOf_chkRes b
  have hu := State_set_step (f := STR_CHK_DET.OFFSET b) (v := off) (State_set_step (f := STR_CHK_RES.REASON b) (v := b * 256 + code)
    (State_wrapInc_step (f := STR_CHK_RES.COUNT b) (State_setB_step (f := STR_CHK_RES.PASS b) (v := pass) (State_setB_step (f := STR_CHK_RES.RUN b)
      (v := false) (Upd.refl (P := []) (W := some [0xC2]) s) rfl hr) rfl hr) rfl hr) rfl hr) rfl (windowOf_chkDet b)
  have hw (a : Nat) (ha : windowOf a = 0xC1) : ¬ winHas (some [0xC2]) a := fun h => by simpa [ha] using h _ rfl
  exact raised_of hu.part (hu.same .ltc (by simp)) (hu.reg _ (hw _ rfl)) (hu.reg _ (hw _ rfl))

end Result

/-! ### A check that fails -/

/-- The state after the failure of block `b`'s check. -/
def State.checkFailed (b code off : Nat) (s : State) : State := (s.checkResult b false code off).raise 17

theorem execCheckEnd_fails {b code off : Nat} {rest : List Nat} {s : State} (hq : s.str.checks = b :: rest)
    (hp : pickFailure ((s.withStr { s.str with checks := rest }).blkTests b) = some (code, off)) :
    exec .checkEnd s = .next ((s.withStr { s.str with checks := rest }).checkFailed b code off) := by
  change execCheckEnd s = _
  simp only [execCheckEnd, hq]
  rw [show ({ s with str := { s.str with checks := rest } } : State) = s.withStr { s.str with checks := rest } from rfl, hp]
  rfl

theorem enable_ne_checkFields {b : Nat} (hb : b < 21) :
    blkBase b ∉ ([wordAt (STR_CHK_RES b), wordAt (STR_CHK_DET b)] ++ raiseFlds 16 ++ raiseFlds 17).map (·.addr) := by
  interval_cases b <;> decide

section Fails
variable (b code off : Nat) (s : State)

theorem only_checkFailed : s.only [.rcd, .cyc] ([wordAt (STR_CHK_RES b), wordAt (STR_CHK_DET b)] ++ raiseFlds 16 ++ raiseFlds 17)
    (s.checkFailed b code off) :=
  only_trans (only_mono (only_checkResult ..) (fun _ h => h) (fun _ h => List.mem_append_left _ h))
    (only_mono (only_raise _ 17) (fun _ h => h) (fun _ h => List.mem_append_right _ h))

theorem only_checkFailed_withStr (x : StrState) :
    s.only [.str, .rcd, .cyc] ([wordAt (STR_CHK_RES b), wordAt (STR_CHK_DET b)] ++ raiseFlds 16 ++ raiseFlds 17) ((s.withStr x).checkFailed b code off) :=
  only_trans (only_mono (only_withStr s x) (by simp) (by simp)) (only_mono (only_checkFailed ..) (by simp) (fun _ h => h))

theorem checkFailed_shown : CheckShown b false code off s (s.checkFailed b code off) :=
  (checkResult_shown b code off false s).congr (reg_raise_ne _ (notMem_raiseRegs (windowOf_chkRes b) (by decide)))
    (reg_raise_ne _ (notMem_raiseRegs (windowOf_chkDet b) (by decide)))

theorem checkFailed_raised16 : s.raised 16 (s.checkFailed b code off) :=
  raised_mono (checkResult_raised b code off false s) fun a ha => reg_raise_ne _ (by revert a; decide)

theorem checkFailed_raised17 : s.raised 17 (s.checkFailed b code off) := by
  have hu := State_checkResult_mut b false code off s
  have hk (a : Nat) (h : windowOf a = 0xC1) (h16 : a ∉ raiseRegs 16) : (s.checkResult b false code off).reg a = s.reg a :=
    reg_checkResult b code off false s (fun e => by rw [e, windowOf_chkRes] at h; cases h) (fun e => by rw [e, windowOf_chkDet] at h; cases h) h16
  exact raised_of hu.part (hu.same .ltc (by simp)) (hk _ rfl (by decide)) (hk _ rfl (by decide))

end Fails

/-- The queue of checks changes nothing that a check's result or a raise looks at. -/
theorem CheckShown.of_withStr {b code off : Nat} {pass : Bool} {s t : State} {x : StrState} (h : CheckShown b pass code off (s.withStr x) t) :
    CheckShown b pass code off s t := ⟨h.run, h.pass, h.count, h.reason, h.offset⟩

theorem raised_of_withStr {s t : State} {x : StrState} {n : Nat} (h : (s.withStr x).raised n t) : s.raised n t := h

/-! ### The rings of a block at a pass (R118, R122, R127) -/

theorem ringCount_le (b : Nat) : ringCount b ≤ 17 := by
  unfold ringCount; split <;> decide

/-- The register groups of two rings of a block share no register. -/
theorem ringG_apart {b r q : Nat} (hr : r < ringCount b) (hq : q < ringCount b) (h : q ≠ r) :
    ringG b r + 0x20 ≤ ringG b q ∨ ringG b q + 0x20 ≤ ringG b r := by
  have := ringCount_le b
  simp only [ringG, Bool.and_eq_true, decide_eq_true_eq]; split_ifs <;> omega

/-- The register groups of a block's rings lie in its window, past its control register. -/
theorem ringG_bounds {b r : Nat} (hr : r < ringCount b) : blkBase b + 0x100 ≤ ringG b r ∧ ringG b r < blkBase b + 0x420 := by
  have := ringCount_le b
  simp only [ringG, Bool.and_eq_true, decide_eq_true_eq]; split_ifs <;> omega

/-- The addresses of a ring's four indices. -/
def idxRegs (b r : Nat) : List Nat := [ringG b r + 0x10, ringG b r + 0x14, ringG b r + 0x18, ringG b r + 0x1C]

/-- A ring holds nothing and its four indices are 0. -/
structure RingEmpty (b r : Nat) (t : State) : Prop where
  ring : t.ring b r = {}
  pi : t.get (RING_PI b r) = 0
  ci : t.get (RING_CI b r) = 0
  cpi : t.get (CRING_PI b r) = 0
  cci : t.get (CRING_CI b r) = 0

theorem RingEmpty.congr {b r : Nat} {u t : State} (h : RingEmpty b r u) (hr : t.ring b r = u.ring b r) (hg : ∀ a ∈ idxRegs b r, t.reg a = u.reg a) :
    RingEmpty b r t :=
  ⟨hr.trans h.ring, (get_congr (RING_PI b r) (hg _ (by simp [idxRegs, RING_PI]))).trans h.pi,
    (get_congr (RING_CI b r) (hg _ (by simp [idxRegs, RING_CI]))).trans h.ci, (get_congr (CRING_PI b r) (hg _ (by simp [idxRegs, CRING_PI]))).trans h.cpi,
    (get_congr (CRING_CI b r) (hg _ (by simp [idxRegs, CRING_CI]))).trans h.cci⟩

/-- One ring emptied, as `ringsZero` empties each. -/
def State.emptyRing (b : Nat) (s : State) (r : Nat) : State :=
  ((((s.set (RING_PI b r) 0).set (RING_CI b r) 0).set (CRING_PI b r) 0).set (CRING_CI b r) 0).setRing b r {}

theorem ringsZero_eq (b : Nat) (s : State) : s.ringsZero b = (List.range (ringCount b)).foldl (State.emptyRing b) s := rfl

theorem ring_setRing_ne (s : State) {b r c q : Nat} (g : Ring) (h : c * 32 + q ≠ b * 32 + r) : (s.setRing b r g).ring c q = s.ring c q := by
  simp [State.ring, State.setRing, tgetD, tget_tput, h]

section RingZero
variable (b r : Nat) (s : State)

theorem emptyRing_empty : RingEmpty b r (s.emptyRing b r) := by
  have hset (u : State) (f : Fld) (hw : f.lo + f.width ≤ 32) : (u.set f 0).get f = 0 := (get_set_self u f 0 hw).trans (Nat.zero_mod _)
  have hring (u : State) (f : Fld) : (u.setRing b r {}).get f = u.get f := get_of_regs rfl f
  refine ⟨ring_setRing_self _ b r {}, ?_, ?_, ?_, ?_⟩ <;> rw [State.emptyRing, hring]
  · rw [get_set_ne _ (CRING_CI b r), get_set_ne _ (CRING_PI b r), get_set_ne _ (RING_CI b r), hset] <;> simp [RING_PI, RING_CI, CRING_PI, CRING_CI]
  · rw [get_set_ne _ (CRING_CI b r), get_set_ne _ (CRING_PI b r), hset] <;> simp [RING_CI, CRING_PI, CRING_CI]
  · rw [get_set_ne _ (CRING_CI b r), hset] <;> simp [CRING_PI, CRING_CI]
  · rw [hset]; simp [CRING_CI]

theorem emptyRing_keeps : s.keeps [.rings] (idxRegs b r) (s.emptyRing b r) := by
  have h (u : State) (f : Fld) (hf : f.addr ∈ idxRegs b r) : u.keeps [.rings] (idxRegs b r) (u.set f 0) :=
    keeps_mono (keeps_set u f 0) (by simp) (by simpa using hf)
  have hp := h s (RING_PI b r) (by simp [idxRegs, RING_PI])
  have hc := keeps_trans hp (h _ (RING_CI b r) (by simp [idxRegs, RING_CI]))
  have hcp := keeps_trans hc (h _ (CRING_PI b r) (by simp [idxRegs, CRING_PI]))
  have hcc := keeps_trans hcp (h _ (CRING_CI b r) (by simp [idxRegs, CRING_CI]))
  exact keeps_trans hcc (keeps_mono (keeps_setRing _ b r {}) (fun _ h => h) (by simp))

theorem ring_emptyRing_ne {c q : Nat} (h : c * 32 + q ≠ b * 32 + r) : (s.emptyRing b r).ring c q = s.ring c q :=
  (ring_setRing_ne _ _ h).trans (ring_of_rings (by simp) c q)

end RingZero

/-- A loop keeps what each of its rounds keeps. -/
theorem foldl_keeps {α : Type} {P : State → Prop} {f : State → α → State} {l : List α} {s : State} (h : ∀ u x, x ∈ l → P u → P (f u x)) (h0 : P s) :
    P (l.foldl f s) := by
  induction l generalizing s with
  | nil => exact h0
  | cons x l ih => exact ih (fun u y hy => h u y (List.mem_cons_of_mem x hy)) (h s x List.mem_cons_self h0)

/-- A loop leaves for each of its rounds what the round brings about and no later one undoes. -/
theorem foldl_range_each {P : Nat → State → Prop} {f : State → Nat → State} {n : Nat} {s : State} (hset : ∀ u r, r < n → P r (f u r))
    (hkeep : ∀ u r q, r < q → q < n → P r u → P r (f u q)) {r : Nat} (hr : r < n) : P r ((List.range n).foldl f s) := by
  induction n with
  | zero => exact absurd hr (by omega)
  | succ n ih =>
    rw [List.range_succ, List.foldl_append]
    rcases Nat.lt_succ_iff_lt_or_eq.1 hr with h | rfl
    · exact hkeep _ r n h (by omega) (ih (fun u r hr => hset u r (by omega)) (fun u r q hq hn => hkeep u r q hq (by omega)) h)
    · exact hset _ r (by omega)

section RingsZero
variable {b : Nat} (s : State)

theorem ringsZero_empty {r : Nat} (hr : r < ringCount b) : RingEmpty b r (s.ringsZero b) := by
  have hle := ringCount_le b
  rw [ringsZero_eq]
  refine foldl_range_each (P := RingEmpty b) (fun u r _ => emptyRing_empty b r u) (fun u r q hrq hq he => ?_) hr
  refine he.congr (ring_emptyRing_ne b q u (by omega)) fun a ha => (emptyRing_keeps b q u).2.1 a fun hm => ?_
  have := ringG_apart (r := r) (q := q) (by omega) hq (by omega)
  simp only [idxRegs, List.mem_cons, List.not_mem_nil, or_false] at ha hm
  omega

theorem ring_ringsZero_ne {c r : Nat} (hc : c ≠ b) (hr : r < 32) : (s.ringsZero b).ring c r = s.ring c r := by
  have hle := ringCount_le b
  rw [ringsZero_eq]
  exact foldl_keeps (P := fun u => u.ring c r = s.ring c r) (fun u q hq hu => (ring_emptyRing_ne b q u (by have := List.mem_range.1 hq; omega)).trans hu) rfl

/-- Only ring indices are written. -/
theorem reg_ringsZero {a : Nat} (h : ∀ r, r < ringCount b → a ∉ idxRegs b r) : (s.ringsZero b).reg a = s.reg a := by
  rw [ringsZero_eq]
  exact foldl_keeps (P := fun u => u.reg a = s.reg a) (fun u q hq hu => ((emptyRing_keeps b q u).2.1 a (h q (List.mem_range.1 hq))).trans hu) rfl

theorem idxRegs_bounds {r a : Nat} (hr : r < ringCount b) (ha : a ∈ idxRegs b r) : blkBase b + 0x100 ≤ a ∧ a < blkBase b + 0x1000 := by
  have := ringG_bounds hr
  simp only [idxRegs, List.mem_cons, List.not_mem_nil, or_false] at ha
  omega

theorem ringsZero_upd (h : hasEnable b = true) : Upd [.rings] (some [0xC0 + b]) s (s.ringsZero b) := by
  have hu := State_ringsZero_mut b s
  refine ⟨hu.same, fun a ha => reg_ringsZero s fun r hr hm => ha ?_, hu.wf, hu.part, hu.pending⟩
  have := idxRegs_bounds hr hm
  rintro _ ⟨⟩
  rw [blkBase_eq h] at this
  simp only [windowOf, List.mem_singleton]; omega

theorem enabled_ringsZero : (s.ringsZero b).enabled b = s.enabled b := by
  rw [enabled_eq, enabled_eq, reg_ringsZero s fun r hr hm => by have := idxRegs_bounds hr hm; omega]

end RingsZero

/-! ### What a passed check starts (R127) -/

/-- An address at the offset of a control register, or past it at one of the first rings' registers, below offset `n`. -/
def ctlOffset (n a : Nat) : Prop := a % 0x1000000 = 0 ∨ (0x100 ≤ a % 0x1000000 ∧ a % 0x1000000 < n)

/-- A loop leaves a register that each of its rounds leaves. -/
theorem reg_foldl {α : Type} {f : State → α → State} {l : List α} {s : State} {a : Nat} (h : ∀ u x, (f u x).reg a = u.reg a) :
    (l.foldl f s).reg a = s.reg a :=
  foldl_keeps (P := fun u => u.reg a = s.reg a) (fun u x _ hu => (h u x).trans hu) rfl

section Starts
variable {s : State} {a : Nat}

section TwoRings
variable (h : ctlOffset 0x140 a)
include h

theorem reg_tmsStart : s.tmsStart.reg a = s.reg a :=
  reg_set_ne s 0 (by simp only [ctlOffset, TMS_TP_STAT.SEQ, TMS_TP_STAT] at *; omega)

theorem reg_cleStart : s.cleStart.reg a = s.reg a := by
  simp only [ctlOffset] at h
  unfold State.cleStart
  rw [reg_setB_ne _ _ (by simp only [CLE_STATUS.GRID, CLE_STATUS]; omega),
    reg_set64_ne _ _ (by simp only [CLE_GRID_LTC_LO]; omega) (by simp only [CLE_GRID_LTC_HI]; omega)]
  rfl

theorem reg_setBias (n : Nat) (on : Bool) : (s.setBias n on).reg a = s.reg a := by
  have hn : a ≠ GNB_ANT n := by simp only [ctlOffset, GNB_ANT] at *; omega
  unfold State.setBias
  dsimp only
  split
  · exact reg_setB_ne _ _ hn
  · rw [reg_set_ne _ _ hn, reg_setB_ne _ _ hn, reg_setB_ne _ _ hn]

theorem reg_gnbCounts : s.gnbCounts.reg a = s.reg a := by
  have hn : a ≠ GNB_STATUS := by simp only [ctlOffset, GNB_STATUS] at *; omega
  rw [State.gnbCounts, reg_set_ne _ _ hn, reg_set_ne _ _ hn]

theorem reg_gnbStart : s.gnbStart.reg a = s.reg a := by
  have hap : a ≠ GNB_ACC_PI := by simp only [ctlOffset, GNB_ACC_PI] at *; omega
  have hac : a ≠ GNB_ACC_CI := by simp only [ctlOffset, GNB_ACC_CI] at *; omega
  have hmp : a ≠ GNB_MS_PI := by simp only [ctlOffset, GNB_MS_PI] at *; omega
  have hmc : a ≠ GNB_MS_CI := by simp only [ctlOffset, GNB_MS_CI] at *; omega
  unfold State.gnbStart
  rw [reg_gnbCounts h, reg_foldl fun u n => reg_setBias h n _, reg_set_ne _ _ hmc, reg_set_ne _ _ hmp, reg_set_ne _ _ hac, reg_set_ne _ _ hap]
  rfl

theorem reg_camShow : s.camShow.reg a = s.reg a := by
  have hs : a ≠ CAM_STATUS := by simp only [ctlOffset, CAM_STATUS] at *; omega
  have hl (l : Nat) : a ≠ CAM_LNK_STORE l := by simp only [ctlOffset, CAM_LNK_STORE] at *; omega
  have hp (p : Nat) : a ≠ CAM_PL_STAT p := by simp only [ctlOffset, CAM_PL_STAT] at *; omega
  have hx (x : Nat) : a ≠ CAM_CTX_STAT x := by simp only [ctlOffset, CAM_CTX_STAT] at *; omega
  have hc (x : Nat) : a ≠ CAM_CTX_CSEQ x := by simp only [ctlOffset, CAM_CTX_CSEQ] at *; omega
  unfold State.camShow
  refine (reg_foldl fun u x => ?_).trans ((reg_foldl fun u p => ?_).trans ((reg_foldl fun u l => ?_).trans ?_))
  · split
    · rw [reg_set_ne _ _ (hx x), reg_set_ne _ _ (hx x), reg_set_ne _ _ (hx x), reg_setB_ne _ _ (hx x)]
    · rw [reg_setReg_ne _ _ (hc x), reg_setReg_ne _ _ (hx x)]
  · dsimp only
    split
    · rw [reg_set_ne _ _ (hp p), reg_setB_ne _ _ (hp p), reg_set_ne _ _ (hp p)]
    · rw [reg_set_ne _ _ (hp p), reg_setB_ne _ _ (hp p), reg_set_ne _ _ (hp p)]
  · dsimp only
    split
    · rw [reg_set_ne _ _ (hl l), reg_set_ne _ _ (hl l)]
    · rw [reg_set_ne _ _ (hl l)]
  · rw [reg_set_ne _ _ hs, reg_set_ne _ _ hs]

theorem reg_setPoc (l : Nat) (on : Bool) : (s.setPoc l on).reg a = s.reg a := by
  have hn : a ≠ CAM_LNK_STAT l := by simp only [ctlOffset, CAM_LNK_STAT] at *; omega
  unfold State.setPoc
  dsimp only
  split
  · exact reg_setB_ne _ _ hn
  · rw [reg_set_ne _ _ hn, reg_setB_ne _ _ hn, reg_setB_ne _ _ hn]

theorem reg_camStart : s.camStart.reg a = s.reg a := by
  have hpi : a ≠ CAM_FR_PI := by simp only [ctlOffset, CAM_FR_PI] at *; omega
  have hci : a ≠ CAM_FR_CI := by simp only [ctlOffset, CAM_FR_CI] at *; omega
  unfold State.camStart
  rw [reg_camShow h, reg_foldl fun u l => ?_]
  · exact (reg_set_ne _ _ hci).trans (reg_set_ne _ _ hpi)
  · split
    · exact reg_setPoc h l true
    · rfl

theorem reg_fusShow : s.fusShow.reg a = s.reg a := by
  have hs : a ≠ FUS_STATUS := by simp only [ctlOffset, FUS_STATUS] at *; omega
  rw [State.fusShow, reg_setB_ne _ _ hs, reg_set_ne _ _ hs]

theorem reg_fusStart : s.fusStart.reg a = s.reg a := by
  have hs : a ≠ FUS_STATUS := by simp only [ctlOffset, FUS_STATUS] at *; omega
  have hpi : a ≠ FUS_REC_PI := by simp only [ctlOffset, FUS_REC_PI] at *; omega
  have hci : a ≠ FUS_REC_CI := by simp only [ctlOffset, FUS_REC_CI] at *; omega
  unfold State.fusStart
  rw [reg_fusShow h, reg_setB_ne _ _ hs, reg_set_ne _ _ hci, reg_set_ne _ _ hpi]
  rfl

theorem reg_yldShow : s.yldShow.reg a = s.reg a := by
  have hs : a ≠ YLD_STATUS := by simp only [ctlOffset, YLD_STATUS] at *; omega
  have hl (x : Nat) : a ≠ YLD_L_STAT x := by simp only [ctlOffset, YLD_L_STAT] at *; omega
  have hw (x : Nat) : a ≠ YLD_L_WPOS x := by simp only [ctlOffset, YLD_L_WPOS] at *; omega
  have ht (x : Nat) : a ≠ YLD_L_TSEQ x := by simp only [ctlOffset, YLD_L_TSEQ] at *; omega
  unfold State.yldShow
  refine (reg_foldl fun u x => ?_).trans ?_
  · dsimp only
    split
    · rw [reg_set_ne _ _ (ht x), reg_set_ne _ _ (hw x), reg_set_ne _ _ (hl x), reg_set_ne _ _ (hl x), reg_setB_ne _ _ (hl x), reg_setB_ne _ _ (hl x)]
    · rw [reg_setReg_ne _ _ (ht x), reg_setReg_ne _ _ (hw x), reg_setReg_ne _ _ (hl x)]
  · rw [reg_setB_ne _ _ hs, reg_set_ne _ _ hs, reg_set_ne _ _ hs]

theorem reg_yldStart : s.yldStart.reg a = s.reg a := by
  rw [State.yldStart, reg_yldShow h]
  rfl

theorem reg_ethStart : s.ethStart.reg a = s.reg a := by
  have hfp : a ≠ ETH_FLT_RX_PI := by simp only [ctlOffset, ETH_FLT_RX_PI] at *; omega
  have hfc : a ≠ ETH_FLT_RX_CI := by simp only [ctlOffset, ETH_FLT_RX_CI] at *; omega
  have hhp : a ≠ ETH_HRX_PI := by simp only [ctlOffset, ETH_HRX_PI] at *; omega
  have hhc : a ≠ ETH_HRX_CI := by simp only [ctlOffset, ETH_HRX_CI] at *; omega
  have hk (k : Nat) : a ≠ ETH_KEY_STAT k := by simp only [ctlOffset, ETH_KEY_STAT] at *; omega
  unfold State.ethStart
  refine (reg_foldl fun u k => reg_setB_ne u _ (hk k)).trans ?_
  rw [reg_set_ne _ _ hhc, reg_set_ne _ _ hhp, reg_set_ne _ _ hfc, reg_set_ne _ _ hfp]
  rfl

theorem reg_recStart : s.recStart.reg a = s.reg a :=
  reg_setB_ne { s with rcd := {} } false (by simp only [ctlOffset, REC_STATUS.READY, REC_STATUS] at *; omega)

end TwoRings

theorem reg_busStart (h : ctlOffset 0x200 a) : s.busStart.reg a = s.reg a := by
  have hs : a ≠ BUS_STATUS := by simp only [ctlOffset, BUS_STATUS] at *; omega
  have hc (n : Nat) : a ≠ BUS_C_STAT n := by simp only [ctlOffset, BUS_C_STAT] at *; omega
  unfold State.busStart
  rw [State.busShow, reg_set_ne _ _ hs, reg_set_ne _ _ hs, reg_set_ne _ _ hs, reg_foldl fun u n => ?_]
  · rfl
  · rw [reg_set_ne _ _ (hc n), reg_set_ne _ _ (hc n), reg_set_ne _ _ (hc n)]

end Starts

/-- The parts of the state that a passed check of block `b` starts. -/
def startParts (b : Nat) : List Comp :=
  blkParts b ++ if b = 0x0D then [.inp] else if b = 0x10 then [.free] else if b = 0x13 then [.rcd, .cyc] else []

/-- The window whose registers a passed check of block `b` starts: the block's, for UPD that of its events (R518). -/
def startWindow (b : Nat) : Nat := if b = 0x13 then 0xC1 else 0xC0 + b

theorem blkStart_upd (b : Nat) (s : State) : Upd (startParts b) (some [startWindow b]) s (s.blkStart b) := by
  unfold State.blkStart
  split
  · exact State_tmsStart_mut s
  · exact (State_inpStart_mut s).mono rfl rfl
  · exact State_cleStart_mut s
  · exact State_gnbStart_mut s
  · exact State_camStart_mut s
  · exact State_fusStart_mut s
  · exact (State_yldStart_mut s).mono rfl rfl
  · exact State_busStart_mut s
  · exact State_ethStart_mut s
  · exact (State_pairStart_mut s).mono rfl rfl
  · exact (State_pnlStart_mut s).mono rfl rfl
  · exact State_recStart_mut s
  · exact (State_updStart_mut s).mono rfl rfl
  · exact Upd.refl s

/-- The registers a pass sets by itself: ENABLE and the ring indices. -/
def ctlReg (b a : Nat) : Prop := a = blkBase b ∨ ∃ r, r < ringCount b ∧ a ∈ idxRegs b r

theorem windowOf_ctlReg {b a : Nat} (h : hasEnable b = true) (ha : ctlReg b a) : windowOf a = 0xC0 + b := by
  obtain rfl | ⟨r, hr, hm⟩ := ha
  · exact windowOf_blkBase h
  · have := idxRegs_bounds hr hm
    rw [blkBase_eq h] at this
    simp only [windowOf]; omega

/-- All ring registers but those of FEN's job rings follow each other from offset 0x100. -/
theorem ctlOffset_ctlReg {b a n : Nat} (h : hasEnable b = true) (hb : b ≠ 0x0A) (hn : 0x100 + 0x20 * ringCount b ≤ n) (ha : ctlReg b a) : ctlOffset n a := by
  have hle := ringCount_le b
  have := hasEnable_bounds h
  obtain rfl | ⟨r, hr, hm⟩ := ha
  · rw [blkBase_eq h]; left; omega
  · simp only [idxRegs, List.mem_cons, List.not_mem_nil, or_false, ringG, hb, decide_false, Bool.false_and, Bool.false_eq_true, if_false, blkBase_eq h] at hm
    right; omega

/-- No block's start touches what the pass has set. -/
theorem reg_blkStart_ctlReg {b a : Nat} (h : hasEnable b = true) (ha : ctlReg b a) (s : State) : (s.blkStart b).reg a = s.reg a := by
  have hwin := windowOf_ctlReg h ha
  have hoff (hb : b ≠ 0x0A) (hr : 0x100 + 0x20 * ringCount b ≤ 0x140) := ctlOffset_ctlReg h hb hr ha
  have hout {P : List Comp} {l : List Nat} {t : State} (hu : Upd P (some l) s t) (hl : 0xC0 + b ∉ l) : t.reg a = s.reg a :=
    hu.reg a fun hw => hl (hwin ▸ hw l rfl)
  have hbus (hb : b = 0x0E) : ctlOffset 0x200 a := ctlOffset_ctlReg h (by omega) (by subst hb; decide) ha
  clear ha hwin h
  unfold State.blkStart
  split
  · exact reg_tmsStart (hoff (by decide) (by decide))
  · exact hout (State_inpStart_mut s) (by decide)
  · exact reg_cleStart (hoff (by decide) (by decide))
  · exact reg_gnbStart (hoff (by decide) (by decide))
  · exact reg_camStart (hoff (by decide) (by decide))
  · exact reg_fusStart (hoff (by decide) (by decide))
  · exact reg_yldStart (hoff (by decide) (by decide))
  · exact reg_busStart (hbus rfl)
  · exact reg_ethStart (hoff (by decide) (by decide))
  · exact hout (State_pairStart_mut s) (by decide)
  · exact hout (State_pnlStart_mut s) (by decide)
  · exact reg_recStart (hoff (by decide) (by decide))
  · exact hout (State_updStart_mut s) (by decide)
  · rfl

theorem reg_updStart {a : Nat} (h1 : a ∉ raiseRegs 348) (h2 : a ∉ raiseRegs 349) (s : State) : s.updStart.reg a = s.reg a := by
  simp only [State.updStart, reg_ite, reg_raise_ne _ h1, reg_raise_ne _ h2, ite_self]

/-- No block's start raises source 16. -/
theorem reg_blkStart_source16 {b a : Nat} (h : hasEnable b = true) (ha : a ∈ raiseRegs 16) (s : State) : (s.blkStart b).reg a = s.reg a := by
  by_cases hb : b = 0x13
  · subst hb
    exact reg_updStart (by revert a; decide) (by revert a; decide) s
  · have := hasEnable_bounds h
    refine (blkStart_upd b s).reg a fun hw => ?_
    have hm := hw _ rfl
    rw [windowOf_raiseRegs ha, startWindow, if_neg hb, List.mem_singleton] at hm
    omega

/-- A block after its pass: enabled, its rings empty, and started. -/
def State.opened (b : Nat) (s : State) : State := ((s.setB (enableFld b) true).ringsZero b).blkStart b

section Opened
variable {b : Nat} (h : hasEnable b = true) (s : State)
include h

theorem opened_upd : Upd (.rings :: startParts b) (some [0xC0 + b, startWindow b]) s (s.opened b) := by
  have h1 : Upd (.rings :: startParts b) (some [0xC0 + b, startWindow b]) s (s.setB (enableFld b) true) :=
    State_setB_step (Upd.refl s) (by simp [winSub]) (windowOf_blkBase h)
  have h2 := Upd.comp (ringsZero_upd (s.setB (enableFld b) true) h) (by simp) (by simp [winSub]) h1
  exact Upd.comp (blkStart_upd b ((s.setB (enableFld b) true).ringsZero b)) (by simp +contextual) (by simp [winSub]) h2

theorem rings_opened : (s.opened b).rings = ((s.setB (enableFld b) true).ringsZero b).rings := by
  refine (blkStart_upd b _).same .rings ?_
  obtain ⟨h3, h13⟩ := hasEnable_bounds h
  interval_cases b <;> decide

theorem enabled_opened : (s.opened b).enabled b = true := by
  rw [enabled_eq, State.opened, reg_blkStart_ctlReg h (.inl rfl), ← enabled_eq, enabled_ringsZero]
  exact getB_setB_self s (enableFld b) true (Nat.le_of_ble_eq_true rfl) rfl

theorem opened_empty {r : Nat} (hr : r < ringCount b) : RingEmpty b r (s.opened b) :=
  (ringsZero_empty _ hr).congr (ring_of_rings (rings_opened h s) b r) fun _ ha => reg_blkStart_ctlReg h (.inr ⟨r, hr, ha⟩) _

theorem ring_opened_ne {c r : Nat} (hc : c ≠ b) (hr : r < 32) : (s.opened b).ring c r = s.ring c r :=
  (ring_of_rings (rings_opened h s) c r).trans ((ring_ringsZero_ne _ hc hr).trans (ring_of_rings (by simp) c r))

/-- Outside the block's window only UPD's events change. -/
theorem reg_opened {a : Nat} (ha : windowOf a ≠ 0xC0 + b) (he : windowOf a = 0xC1 → b ≠ 0x13) : (s.opened b).reg a = s.reg a := by
  refine (opened_upd h s).reg a fun hw => ?_
  have hm := hw _ rfl
  simp only [startWindow, List.mem_cons, List.not_mem_nil, or_false, ha, false_or] at hm
  split at hm
  · exact he hm ‹_›
  · exact ha hm

theorem reg_opened_source16 {a : Nat} (ha : a ∈ raiseRegs 16) : (s.opened b).reg a = s.reg a := by
  have hw := windowOf_raiseRegs ha
  have hb := hasEnable_bounds h
  have hne : ¬ winHas (some [0xC0 + b]) a := fun hm => by have := hm _ rfl; rw [hw, List.mem_singleton] at this; omega
  rw [State.opened, reg_blkStart_source16 h ha, (ringsZero_upd _ h).reg a hne]
  exact (State_setB_mut (enableFld b) true s (windowOf_blkBase h)).reg a hne

end Opened

/-! ### A check that passes -/

/-- The state after the pass of block `b`'s check. -/
def State.checkPassed (b : Nat) (s : State) : State := (s.checkResult b true 0 0).opened b

theorem execCheckEnd_passes {b : Nat} {rest : List Nat} {s : State} (hq : s.str.checks = b :: rest)
    (hp : pickFailure ((s.withStr { s.str with checks := rest }).blkTests b) = none) :
    exec .checkEnd s = .next ((s.withStr { s.str with checks := rest }).checkPassed b) := by
  change execCheckEnd s = _
  simp only [execCheckEnd, hq]
  rw [show ({ s with str := { s.str with checks := rest } } : State) = s.withStr { s.str with checks := rest } from rfl, hp]
  rfl

/-- The parts of the state that a pass of block `b` may change beside the queue of checks. -/
def passParts (b : Nat) : List Comp := [.rings, .rcd, .cyc] ++ startParts b

theorem notMem_passParts {b : Nat} {p : Comp} (hp : p ∉ [Comp.str, .rings, .rcd, .cyc] ++ blkParts b) (hy : b = 0x0D → p ≠ .inp)
    (hf : b = 0x10 → p ≠ .free) : p ∉ passParts b := by
  simp only [List.mem_append, List.mem_cons, List.not_mem_nil, or_false, not_or] at hp
  obtain ⟨⟨-, hr, hrcd, hcyc⟩, hb⟩ := hp
  simp only [passParts, startParts, List.mem_cons, List.mem_append, hr, hrcd, hcyc, hb, List.not_mem_nil, false_or]
  split_ifs with h1 h2
  · simpa using hy h1
  · simpa using hf h2
  · simp [hrcd, hcyc]
  · simp

theorem str_notMem_passParts (b : Nat) : Comp.str ∉ passParts b := by
  have hb : Comp.str ∉ blkParts b := by unfold blkParts; split <;> decide
  simp only [passParts, startParts, List.mem_cons, List.mem_append, hb, List.not_mem_nil, reduceCtorEq, false_or]
  split_ifs <;> decide

section Passes
variable {b : Nat} (h : hasEnable b = true) (s : State)
include h

theorem checkPassed_shown : CheckShown b true 0 0 s (s.checkPassed b) := by
  have hb := hasEnable_bounds h
  have hw {a : Nat} (ha : windowOf a = 0xC2) : (s.checkPassed b).reg a = (s.checkResult b true 0 0).reg a :=
    reg_opened h _ (by omega) (by omega)
  exact (checkResult_shown b 0 0 true s).congr (hw (windowOf_chkRes b)) (hw (windowOf_chkDet b))

theorem checkPassed_raised : s.raised 16 (s.checkPassed b) :=
  raised_mono (checkResult_raised b 0 0 true s) fun _ ha => reg_opened_source16 h _ ha

theorem ring_checkPassed_ne (x : StrState) {c r : Nat} (hc : c ≠ b) (hr : r < 32) : ((s.withStr x).checkPassed b).ring c r = s.ring c r :=
  (ring_opened_ne h _ hc hr).trans (ring_of_rings ((State_checkResult_mut b true 0 0 (s.withStr x)).same .rings (by decide)) c r)

theorem reg_checkPassed_ne (x : StrState) {a : Nat} (hr : a ≠ STR_CHK_RES b) (hd : a ≠ STR_CHK_DET b) (he : a ∉ raiseRegs 16)
    (hw : windowOf a ≠ 0xC0 + b) (hu : windowOf a = 0xC1 → b ≠ 0x13) : ((s.withStr x).checkPassed b).reg a = s.reg a :=
  (reg_opened h _ hw hu).trans (reg_checkResult b 0 0 true (s.withStr x) hr hd he)

theorem checkPassed_upd : Upd (passParts b) none s (s.checkPassed b) := by
  have h1 := (State_checkResult_mut b true 0 0 s).mono (Q := passParts b) (V := none) (by simp [passParts]) rfl
  exact Upd.comp (opened_upd h (s.checkResult b true 0 0)) (by simp +contextual [passParts]) rfl h1

end Passes

/-- Settles O16: the write of ENABLE by what `writeEnable` and `queueCheck` do behind the plain write, the end of a check by its result and,
for a pass, by what `opened` may change: no block's start touches ENABLE, the ring indices or source 16. -/
theorem checksAndEnableDoAsR29R103AndR127Say : Obligations.ChecksAndEnableDoAsR29R103AndR127Say := by
  refine ⟨fun core blk v s h hc he hr hv hf => execEnableSet_holds h hc he hr hv hf,
    fun core blk v s h hc he hr hv hf hl => execEnableSet_queues h hc he hr hv hf fun u hs hn => queueCheck_first hs hn hl,
    fun core blk v old new s h hc he hr hv hf hl hq hn => execEnableSet_queues h hc he hr hv hf fun u hs ht => queueCheck_among hs ht hl hq hn,
    fun core blk v s h hc hv => ?_, fun blk s hh hf => ⟨_, execCheckEnqueue_held hh hf, rfl, only_withStr s _⟩,
    fun b code off rest s hq hb hp => ?_, fun b rest s hq h hp => ?_⟩
  · refine ⟨_, execEnableSet_open h hc, ?_⟩
    rw [writeEnable_same ((enabled_ctlWritten h).trans hv)]
    exact ⟨enabled_ctlWritten h, only_ctlWritten⟩
  · have hs := (checkFailed_shown b code off (s.withStr { s.str with checks := rest })).of_withStr
    have ho := only_checkFailed_withStr b code off s { s.str with checks := rest }
    refine ⟨_, execCheckEnd_fails hq hp, (only_checkFailed b code off _).1 .str (by simp), hs.run, hs.pass, hs.count, hs.reason, hs.offset,
      raised_of_withStr (checkFailed_raised16 b code off _), raised_of_withStr (checkFailed_raised17 b code off _), ?_, ho⟩
    rw [enabled_eq, enabled_eq, (keeps_of_only ho).2.1 _ (enable_ne_checkFields hb)]
  · have hb := hasEnable_bounds h
    have hs := (checkPassed_shown h (s.withStr { s.str with checks := rest })).of_withStr
    have hu := checkPassed_upd h (s.withStr { s.str with checks := rest })
    have he {r : Nat} (hr : r < ringCount b) := opened_empty h ((s.withStr { s.str with checks := rest }).checkResult b true 0 0) hr
    refine ⟨_, execCheckEnd_passes hq hp, hu.same .str (str_notMem_passParts b), enabled_opened h _, hs.run, hs.pass, hs.count, ?_, hs.offset,
      raised_of_withStr (checkPassed_raised h _), fun r hr => ⟨(he hr).ring, (he hr).pi, (he hr).ci, (he hr).cpi, (he hr).cci⟩,
      fun c r hc hr => ring_checkPassed_ne h s _ hc hr, fun a hw hm => ?_, fun a hw hr hd => ?_, fun a hw hm hu => ?_, fun p hp hy hf => ?_, hu.part, hu.pending⟩
    · rw [hs.reason]; omega
    · simp only [List.mem_cons, List.not_mem_nil, or_false, not_or] at hm
      obtain ⟨h1, h2⟩ := hm
      exact reg_checkPassed_ne h s _ (fun e => h2 (e ▸ windowOf_chkRes b)) (fun e => h2 (e ▸ windowOf_chkDet b)) (fun e => h1 (windowOf_raiseRegs e)) hw
        fun e => absurd e h1
    · exact reg_checkPassed_ne h s _ hr hd (notMem_raiseRegs hw (by decide)) (by omega) (by omega)
    · exact reg_checkPassed_ne h s _ (fun e => by rw [e, windowOf_chkRes] at hw; cases hw) (fun e => by rw [e, windowOf_chkDet] at hw; cases hw) hm
        (by omega) fun _ => hu
    · exact same_trans ((only_withStr s _).1 p fun hm => hp (by simp [List.mem_singleton.1 hm])) (hu.same p (notMem_passParts hp hy hf))

end Sys2Proof.Machine
end

section
/-! PROOFS. The statements of spec/02_connectors_power.md: what the commands of the supplies and temperatures show in SYS_SUPPLY and
SYS_TEMP, and the events they raise where a bit changes (R50, R53, R54, R57, R62). -/

namespace Sys2Proof.Machine

/-! ### What lies before a raise, and raises of a source that is pending -/

theorem apart_symm {f g : Fld} (h : f.apart g) : g.apart f := h.imp Ne.symm Or.symm

theorem only_set (s : State) {f : Fld} (v : Nat) (hf : f.lo + f.width ≤ 32) : s.only [] [f] (s.set f v) :=
  only_of (set_any f v s) rfl fun _ hg => get_set_apart s f _ v (hg _ (by simp)) hf

theorem windowOf_srcCfg (n : Nat) : windowOf (EVT_SRC_CFG n) = 0xC1 := by
  simp only [windowOf, EVT_SRC_CFG]; omega

/-- A register in none of the fields' windows. -/
theorem reg_of_only {s u : State} {ps : List Comp} {fs : List Fld} (h : s.only ps fs u) {a w : Nat} (ha : windowOf a = w)
    (hw : ∀ f ∈ fs, windowOf f.addr ≠ w) : u.reg a = s.reg a :=
  (keeps_of_only h).2.1 a fun hm => by
    obtain ⟨f, hf, rfl⟩ := List.mem_map.1 hm
    exact hw f hf ha

/-- Operations outside EVT before a raise leave what the raise is measured from. -/
theorem raised_of_only {s u t : State} {ps : List Comp} {fs : List Fld} {n : Nat} (h : s.only ps fs u) (hl : Comp.ltc ∉ ps)
    (hw : ∀ f ∈ fs, windowOf f.addr ≠ 0xC1) (hr : u.raised n t) : s.raised n t := by
  have hen : u.getB (EVT_SRC_CFG.EN n) = s.getB (EVT_SRC_CFG.EN n) := getB_congr _ (reg_of_only h (windowOf_srcCfg n) hw)
  have hpend : u.getB (EVT_SRC_STAT.PEND n) = s.getB (EVT_SRC_STAT.PEND n) :=
    getB_congr _ (reg_of_only h (windowOf_raiseRegs (n := n) (by simp [raiseRegs, EVT_SRC_STAT.PEND])) hw)
  have hnever : u.neverRaised n = s.neverRaised n := by simp only [State.neverRaised, State.noGnss, h.2.2.1]
  have hnow : u.now = s.now := now_of_ltc (h.1 .ltc hl)
  simpa only [State.raised, State.raisedAt, hen, hpend, hnever, hnow] using hr

/-- A raise of a source that is pending keeps its stamp: it writes the status register alone (R129). -/
theorem reg_raise_of_pend {u : State} {n a : Nat} (hp : u.getB (EVT_SRC_STAT.PEND n) = true) (ha : a ≠ EVT_SRC_STAT n) :
    (u.raise n).reg a = u.reg a := by
  have hcount (b : Nat) : (u.rcdRaise n u.now).reg b = u.reg b := (keeps_rcdRaise u n u.now).2.1 b (by simp)
  have hnote (c : Bool) (b : Nat) : ((u.rcdRaise n u.now).noteRaise n u.now c).reg b = u.reg b :=
    ((keeps_noteRaise _ n u.now c).2.1 b (by simp)).trans (hcount b)
  simp only [State.raise, State.raiseAt, getB_congr _ (hnote _ _), hp, if_true]
  split
  · rfl
  · split
    · exact (reg_setB_ne _ _ ha).trans (hnote _ _)
    · exact hcount _

/-- A source raised twice at one LTC shows what one raise asks for. -/
theorem raised_raise_again {s u : State} {n : Nat} (hp : u.part = s.part) (hc : u.reg (EVT_SRC_CFG n) = s.reg (EVT_SRC_CFG n))
    (h : s.raised n u) : s.raised n (u.raise n) := by
  intro hn hen
  obtain ⟨hpend, hstamp, -⟩ := h hn hen
  have hn' : u.neverRaised n = false := by simpa [State.neverRaised, State.noGnss, hp] using hn
  have hen' : u.getB (EVT_SRC_CFG.EN n) = true := (getB_congr (EVT_SRC_CFG.EN n) hc).trans hen
  obtain ⟨hpend', -, hmulti⟩ := raised_raise u n hn' hen'
  refine ⟨hpend', fun h0 => ?_, fun _ => hmulti hpend⟩
  rw [get64_congr _ _ (reg_raise_of_pend hpend ?_) (reg_raise_of_pend hpend ?_)]
  · exact hstamp h0
  · simp only [EVT_SRC_LTC_LO, EVT_SRC_STAT]; omega
  · simp only [EVT_SRC_LTC_HI, EVT_SRC_STAT]; omega

/-! ### A bit whose change raises a source (R57, R62) -/

/-- The bit `f` becomes `v`, and source `n` is raised if that changes it. -/
def State.changeBit (n : Nat) (f : Fld) (v : Bool) (s : State) : State := if s.getB f = v then s else (s.setB f v).raise n

/-- One bit of a register outside EVT. -/
structure IsFlag (f : Fld) : Prop where
  width : f.width = 1
  top : f.lo + f.width ≤ 32
  window : windowOf f.addr ≠ 0xC1

section Change
variable {n : Nat} {f g : Fld} {v : Bool} {s u : State}

theorem changeBit_same (h : s.getB f = v) : s.changeBit n f v = s := if_pos h

theorem changeBit_changed (h : s.getB f ≠ v) : s.changeBit n f v = (s.setB f v).raise n := if_neg h

variable (hf : IsFlag f)
include hf

theorem only_setB_flag (s : State) (v : Bool) : s.only [] [f] (s.setB f v) := only_set s _ hf.top

theorem getB_changeBit_self (n : Nat) (v : Bool) (s : State) : (s.changeBit n f v).getB f = v := by
  by_cases h : s.getB f = v
  · rw [changeBit_same h, h]
  · rw [changeBit_changed h, getB_raise_ne _ f (notMem_raiseRegs rfl hf.window), getB_setB_self s f v hf.top hf.width]

theorem only_changeBit (n : Nat) (v : Bool) (s : State) : s.only [.rcd, .cyc] (f :: raiseFlds n) (s.changeBit n f v) := by
  by_cases h : s.getB f = v
  · rw [changeBit_same h]
    exact only_refl s _ _
  · rw [changeBit_changed h]
    exact only_trans (only_mono (only_setB_flag hf s v) (by simp) (by simp)) (only_mono (only_raise _ n) (fun _ h => h) (by simp +contextual))

theorem get_changeBit_apart (n : Nat) (v : Bool) (s : State) (h : g.apart f) (hg : windowOf g.addr ≠ 0xC1) : (s.changeBit n f v).get g = s.get g := by
  refine (only_changeBit hf n v s).2.1 g fun x hx => ?_
  rcases List.mem_cons.1 hx with rfl | hx
  · exact h
  · refine .inl fun he => hg (windowOf_raiseRegs (n := n) ?_)
    rw [he]
    simp only [raiseFlds, List.mem_cons, List.not_mem_nil, or_false] at hx
    rcases hx with rfl | rfl | rfl | rfl <;> simp [raiseRegs, wordAt, EVT_SRC_STAT.PEND, EVT_SRC_STAT.MULTI]

theorem raised_changeBit (h : s.getB f ≠ v) : s.raised n (s.changeBit n f v) := by
  rw [changeBit_changed h]
  exact raised_of_only (only_setB_flag hf s v) (by simp) (by simp [hf.window]) (raised_raise _ n)

/-- A bit that changes, or does not, after its source was raised. -/
theorem raised_changeBit_again (hp : u.part = s.part) (hc : u.reg (EVT_SRC_CFG n) = s.reg (EVT_SRC_CFG n)) (h : s.raised n u) :
    s.raised n (u.changeBit n f v) := by
  by_cases hv : u.getB f = v
  · rwa [changeBit_same hv]
  · rw [changeBit_changed hv]
    have hset {a : Nat} (ha : windowOf a = 0xC1) : (u.setB f v).reg a = u.reg a :=
      reg_of_only (only_setB_flag hf u v) ha (by simp [hf.window])
    exact raised_raise_again ((only_setB_flag hf u v).2.2.1.trans hp) ((hset (windowOf_srcCfg n)).trans hc)
      (raised_mono h fun a ha => hset (windowOf_raiseRegs ha))

end Change

theorem supplyFlag_eq (f : Fld) (s : State) : s.supplyFlag f = s.changeBit 6 f true := rfl

/-! ### VSUP (R50, R57) -/

/-- SYS_SUPPLY shows VSUP as `mv`, and the bit `f` of a threshold as `v`. -/
def State.showVsup (mv : Nat) (f : Fld) (v : Bool) (s : State) : State := (s.set SYS_SUPPLY.VSUP_MV mv).setB f v

section Vsup
variable {f w : Fld} (hf : IsFlag f) (hm : f.apart SYS_SUPPLY.VSUP_MV)
include hf hm

theorem showVsup_shows (mv : Nat) (v : Bool) (s : State) :
    (s.showVsup mv f v).get SYS_SUPPLY.VSUP_MV = mv % 65536 ∧ (s.showVsup mv f v).getB f = v ∧
      s.only [] [SYS_SUPPLY.VSUP_MV, f] (s.showVsup mv f v) := by
  refine ⟨?_, getB_setB_self _ f v hf.top hf.width, ?_⟩
  · exact (get_setB_apart _ f _ v (apart_symm hm) hf.top).trans (get_set_self s _ mv (by decide))
  · exact only_trans (only_mono (only_set s mv (by decide)) (by simp) (by simp)) (only_mono (only_setB_flag hf _ v) (by simp) (by simp))

/-- A threshold crossed, with its warning bit `w`. -/
theorem showVsup_warns (hw : IsFlag w) (hwm : w.apart SYS_SUPPLY.VSUP_MV) (hwf : w.apart f) (mv : Nat) (s : State) :
    let t := (s.showVsup mv f true).supplyFlag w
    t.get SYS_SUPPLY.VSUP_MV = mv % 65536 ∧ t.getB f = true ∧ t.getB w = true ∧ (s.getB w = false → s.raised 6 t) ∧
      (s.getB w = true → s.only [] [SYS_SUPPLY.VSUP_MV, f] t) ∧ s.only [.rcd, .cyc] ([SYS_SUPPLY.VSUP_MV, f, w] ++ raiseFlds 6) t := by
  obtain ⟨hmv, hshown, honly⟩ := showVsup_shows hf hm mv true s
  have hold : (s.showVsup mv f true).getB w = s.getB w := getB_of_get (honly.2.1 w (by simp [hwm, hwf]))
  simp only [supplyFlag_eq]
  refine ⟨?_, ?_, getB_changeBit_self hw .., fun h => ?_, fun h => ?_, ?_⟩
  · rw [get_changeBit_apart hw _ _ _ (apart_symm hwm) (by decide), hmv]
  · rw [getB_of_get (get_changeBit_apart hw _ _ _ (apart_symm hwf) hf.window), hshown]
  · refine raised_of_only honly (by simp) ?_ (raised_changeBit hw (by simp [hold, h]))
    simp only [List.mem_cons, List.not_mem_nil, or_false, forall_eq_or_imp, forall_eq]
    exact ⟨by decide, hf.window⟩
  · rwa [changeBit_same (hold.trans h)]
  · exact only_trans (only_mono honly (by simp) (by simp)) (only_mono (only_changeBit hw 6 true _) (fun _ h => h) (by simp +contextual))

end Vsup

/-- Before READY the safety domain takes no supply warning (R267). -/
theorem safSupplyWarn_notReady {s : State} (h : s.safReady = false) (uv : Bool) : s.safSupplyWarn uv = s := by
  cases uv
  · simp [State.safSupplyWarn, h]
  · simp [State.safSupplyWarn, State.safFault, State.safActs, h]

theorem safReady_of_only {s t : State} {ps : List Comp} {fs : List Fld} (h : s.only ps fs t) (hw : ∀ f ∈ fs, f.addr ≠ SAF_STATUS) :
    t.safReady = s.safReady := getB_of_get (h.2.1 SAF_STATUS.READY fun f hf => .inl (hw f hf).symm)

theorem isFlag_uv : IsFlag SYS_SUPPLY.UV := ⟨rfl, by decide, by decide⟩
theorem isFlag_ov : IsFlag SYS_SUPPLY.OV := ⟨rfl, by decide, by decide⟩
theorem isFlag_uvWarn : IsFlag SYS_SUPPLY.UV_WARN := ⟨rfl, by decide, by decide⟩
theorem isFlag_ovWarn : IsFlag SYS_SUPPLY.OV_WARN := ⟨rfl, by decide, by decide⟩

theorem execVsupUndervoltage_notReady {mv : Nat} {s : State} (h : s.safReady = false) :
    exec (.vsupUndervoltage mv) s = .next ((s.showVsup mv SYS_SUPPLY.UV true).supplyFlag SYS_SUPPLY.UV_WARN) := by
  obtain ⟨-, -, -, -, -, honly⟩ := showVsup_warns isFlag_uv (.inr (by decide)) isFlag_uvWarn (.inr (by decide)) (.inr (by decide)) mv s
  exact congrArg Host.Outcome.next (safSupplyWarn_notReady ((safReady_of_only honly (by decide)).trans h) true)

theorem execVsupUvClear_notReady {mv : Nat} {s : State} (h : s.safReady = false) :
    exec (.vsupUvClear mv) s = .next (s.showVsup mv SYS_SUPPLY.UV false) := by
  obtain ⟨-, -, honly⟩ := showVsup_shows isFlag_uv (.inr (by decide)) mv false s
  exact congrArg Host.Outcome.next (safSupplyWarn_notReady ((safReady_of_only honly (by decide)).trans h) false)

/-! ### VBAT_VLV (R54) -/

/-- What VDR keeps of the loss of its supply while no output of it ticks: the converter stops and its capacitor discharges (R60). -/
def State.vlvIdleLoss (s : State) : State :=
  { s.boostDischarge with vdr := { s.vdr with recovery := none, discharge := s.vdr.discharge.started } }

theorem only_withVdr (s : State) (x : VdrState) : s.only [.vdr] [] { s with vdr := x } :=
  ⟨fun p hp => by cases p <;> simp [State.same] at hp ⊢, fun _ _ => rfl, rfl, rfl⟩

theorem isFlag_vlvOk : IsFlag SYS_SUPPLY.VLV_OK := ⟨rfl, by decide, by decide⟩
theorem isFlag_vlvLoss : IsFlag SYS_SUPPLY.VLV_LOSS := ⟨rfl, by decide, by decide⟩
theorem isFlag_bstOn : IsFlag VDR_STATUS.BST_ON := ⟨rfl, by decide, by decide⟩

theorem only_boostDischarge (s : State) : s.only [.vdr] [VDR_STATUS.BST_ON] s.boostDischarge :=
  only_trans (t := s.vdrBoostOff) (only_mono (only_setB_flag isFlag_bstOn s false) (by simp) (by simp))
    (only_mono (only_withVdr s.vdrBoostOff _) (by simp) (by simp))

theorem only_vlvIdleLoss (s : State) : s.only [.vdr] [VDR_STATUS.BST_ON] s.vlvIdleLoss :=
  only_trans (only_boostDischarge s) (only_mono (only_withVdr s.boostDischarge _) (by simp) (by simp))

theorem getB_bstOn_vlvIdleLoss (s : State) : s.vlvIdleLoss.getB VDR_STATUS.BST_ON = false := by
  have hloss : s.vlvIdleLoss.get VDR_STATUS.BST_ON = s.boostDischarge.get VDR_STATUS.BST_ON := (only_withVdr s.boostDischarge _).2.1 _ (by simp)
  have hoff : s.boostDischarge.get VDR_STATUS.BST_ON = s.vdrBoostOff.get VDR_STATUS.BST_ON := (only_withVdr s.vdrBoostOff _).2.1 _ (by simp)
  rw [getB_of_get (hloss.trans hoff)]
  exact getB_setB_self s _ false isFlag_bstOn.top rfl

theorem vdr_vlvIdleLoss (s : State) : s.vlvIdleLoss.vdr = { s.vdr with recovery := none, discharge := s.vdr.discharge.started } := rfl

/-- VDR ticks or not by STR_STATUS and its outputs. -/
theorem vdrTicks_congr {s t : State} (hr : t.get STR_STATUS.LOADED = s.get STR_STATUS.LOADED) (hb : t.get STR_STATUS.BUSY = s.get STR_STATUS.BUSY)
    (ho : t.vdr.outs = s.vdr.outs) : t.vdrTicks = s.vdrTicks := by
  simp only [State.vdrTicks, State.loaded, State.busy, State.vdrConducting, State.vlo, hr, hb, ho]

theorem vdrSupplyLoss_idle {s : State} (h : s.vdrTicks = false) : s.vdrSupplyLoss = s.vlvIdleLoss := by
  have hkept (g : Fld) (hg : g.addr = STR_STATUS) : s.vlvIdleLoss.get g = s.get g :=
    (only_vlvIdleLoss s).2.1 g fun f hf => .inl (by rw [hg, List.mem_singleton.1 hf]; decide)
  have ht : s.vlvIdleLoss.vdrTicks = false :=
    (vdrTicks_congr (hkept _ rfl) (hkept _ rfl) (by rw [vdr_vlvIdleLoss])).trans h
  exact if_pos (congrArg Bool.not ht)

/-- SYS_SUPPLY after the loss: VLV_LOSS is set where a bank switch is closed. -/
def State.vlvLossShown (s : State) : State :=
  (s.setB SYS_SUPPLY.VLV_OK false).changeBit 6 SYS_SUPPLY.VLV_LOSS (s.getB SYS_SUPPLY.VLV_LOSS || s.anyBankClosed)

theorem getB_vlvLoss_setVlvOk (s : State) (v : Bool) : (s.setB SYS_SUPPLY.VLV_OK v).getB SYS_SUPPLY.VLV_LOSS = s.getB SYS_SUPPLY.VLV_LOSS :=
  getB_setB_ne s _ _ v (.inr (by decide))

theorem only_vlvLossShown (s : State) : s.only [.rcd, .cyc] ([SYS_SUPPLY.VLV_OK, SYS_SUPPLY.VLV_LOSS] ++ raiseFlds 6) s.vlvLossShown :=
  only_trans (only_mono (only_setB_flag isFlag_vlvOk s false) (by simp) (by simp))
    (only_mono (only_changeBit isFlag_vlvLoss 6 _ _) (fun _ h => h) (by simp +contextual))

theorem execVlvSupplyLoss_idle {s : State} (h : s.vdrTicks = false) : exec .vlvSupplyLoss s = .next s.vlvLossShown.vlvIdleLoss := by
  have hshown : (if s.anyBankClosed then (s.setB SYS_SUPPLY.VLV_OK false).supplyFlag SYS_SUPPLY.VLV_LOSS else s.setB SYS_SUPPLY.VLV_OK false) =
      s.vlvLossShown := by
    cases hc : s.anyBankClosed
    · simp [State.vlvLossShown, hc, changeBit_same (getB_vlvLoss_setVlvOk s false)]
    · simp [State.vlvLossShown, hc, supplyFlag_eq]
  have hkept (g : Fld) (hg : g.addr = STR_STATUS) : s.vlvLossShown.get g = s.get g :=
    get_congr g (reg_of_only (w := 0xC2) (only_vlvLossShown s) (by rw [hg]; decide) (by decide))
  have ht : s.vlvLossShown.vdrTicks = false :=
    (vdrTicks_congr (hkept _ rfl) (hkept _ rfl) (congrArg VdrState.outs ((only_vlvLossShown s).1 .vdr (by simp)))).trans h
  exact congrArg Host.Outcome.next ((congrArg State.vdrSupplyLoss hshown).trans (vdrSupplyLoss_idle ht))

theorem vlvSupplyLoss_shows {s : State} (h : s.vdrTicks = false) : ∃ t, exec .vlvSupplyLoss s = .next t ∧
      t.getB SYS_SUPPLY.VLV_OK = false ∧ t.getB SYS_SUPPLY.VLV_LOSS = (s.getB SYS_SUPPLY.VLV_LOSS || s.anyBankClosed) ∧
      (s.getB SYS_SUPPLY.VLV_LOSS = false → s.anyBankClosed = true → s.raised 6 t) ∧
      t.getB VDR_STATUS.BST_ON = false ∧ t.vdr = { s.vdr with recovery := none, discharge := s.vdr.discharge.started } ∧
      s.only [.vdr, .rcd, .cyc] ([SYS_SUPPLY.VLV_OK, SYS_SUPPLY.VLV_LOSS, VDR_STATUS.BST_ON] ++ raiseFlds 6) t := by
  have hidle (g : Fld) (hg : g.addr = SYS_SUPPLY) : s.vlvLossShown.vlvIdleLoss.getB g = s.vlvLossShown.getB g :=
    getB_of_get ((only_vlvIdleLoss _).2.1 g fun f hf => .inl (by rw [hg, List.mem_singleton.1 hf]; decide))
  have hvdr : s.vlvLossShown.vdr = s.vdr := (only_vlvLossShown s).1 .vdr (by simp)
  refine ⟨_, execVlvSupplyLoss_idle h, ?_, ?_, fun hl hc => ?_, getB_bstOn_vlvIdleLoss _, ?_, ?_⟩
  · rw [hidle _ rfl, State.vlvLossShown, getB_of_get (get_changeBit_apart isFlag_vlvLoss _ _ _ (.inr (by decide)) (by decide)),
      getB_setB_self _ _ _ isFlag_vlvOk.top rfl]
  · rw [hidle _ rfl, State.vlvLossShown, getB_changeBit_self isFlag_vlvLoss]
  · have hraised : s.raised 6 s.vlvLossShown :=
      raised_of_only (only_setB_flag isFlag_vlvOk s false) (by simp) (by decide)
        (raised_changeBit isFlag_vlvLoss (by simp [getB_vlvLoss_setVlvOk, hl, hc]))
    exact raised_mono hraised fun a ha => reg_of_only (only_vlvIdleLoss _) (windowOf_raiseRegs ha) (by decide)
  · rw [vdr_vlvIdleLoss, hvdr]
  · exact only_trans (only_mono (only_vlvLossShown s) (by simp) (by simp +contextual)) (only_mono (only_vlvIdleLoss _) (by simp) (by simp))

theorem vlvSupplyReturn_shows (s : State) : ∃ t, exec .vlvSupplyReturn s = .next t ∧ t.getB SYS_SUPPLY.VLV_OK = true ∧
    t.vdr = { s.vdr with recovery := some s.now } ∧ s.only [.vdr] [SYS_SUPPLY.VLV_OK] t := by
  have hok := only_setB_flag isFlag_vlvOk s true
  have hvdr : (s.setB SYS_SUPPLY.VLV_OK true).only [.vdr] [] (s.setB SYS_SUPPLY.VLV_OK true).vdrSupplyReturn :=
    only_withVdr (s.setB SYS_SUPPLY.VLV_OK true) _
  refine ⟨_, rfl, ?_, ?_, only_trans (only_mono hok (by simp) (by simp)) (only_mono hvdr (by simp) (by simp))⟩
  · exact (getB_of_get (hvdr.2.1 _ (by simp))).trans (getB_setB_self s _ true isFlag_vlvOk.top rfl)
  · simp only [State.vdrSupplyReturn, setB_vdr, now_of_ltc (setB_ltc ..)]

/-! ### Temperatures (R62) -/

/-- THROTTLE at the temperature `t`, in units of 0.125 °C. -/
def throttleAt (t : Int) (old : Bool) : Bool := if 960 ≤ t then true else if t < 920 then false else old

/-- SYS_TEMP with both temperatures. -/
def State.showTemps (tj tbp : BitVec 12) (s : State) : State := (s.set SYS_TEMP.TJ tj.toNat).set SYS_TEMP.TBP tbp.toNat

theorem isFlag_warn : IsFlag SYS_TEMP.WARN := ⟨rfl, by decide, by decide⟩
theorem isFlag_throttle : IsFlag SYS_TEMP.THROTTLE := ⟨rfl, by decide, by decide⟩

section Temps
variable (tj tbp : BitVec 12) (s : State)

theorem only_showTemps : s.only [] [SYS_TEMP.TJ, SYS_TEMP.TBP] (s.showTemps tj tbp) :=
  only_trans (only_mono (only_set s _ (by decide)) (by simp) (by simp)) (only_mono (only_set _ _ (by decide)) (by simp) (by simp))

theorem get_tj_showTemps : (s.showTemps tj tbp).get SYS_TEMP.TJ = tj.toNat := by
  rw [State.showTemps, get_set_apart _ _ _ _ (.inr (by decide)) (by decide), get_set_self _ _ _ (by decide)]
  exact Nat.mod_eq_of_lt tj.isLt

theorem get_tbp_showTemps : (s.showTemps tj tbp).get SYS_TEMP.TBP = tbp.toNat := by
  rw [State.showTemps, get_set_self _ _ _ (by decide)]
  exact Nat.mod_eq_of_lt tbp.isLt

theorem getB_showTemps {g : Fld} (h1 : g.apart SYS_TEMP.TJ) (h2 : g.apart SYS_TEMP.TBP) : (s.showTemps tj tbp).getB g = s.getB g :=
  getB_of_get ((only_showTemps tj tbp s).2.1 g (by simp [h1, h2]))

/-- The state in which WARN has followed the temperatures. -/
def State.warnStep (tj tbp : BitVec 12) (s : State) : State :=
  (s.showTemps tj tbp).changeBit 8 SYS_TEMP.WARN (s.getB SYS_TEMP.WARN || decide (880 ≤ tj.toInt))

/-- The state in which THROTTLE has followed too. -/
def State.throttleStep (tj tbp : BitVec 12) (s : State) : State :=
  (s.warnStep tj tbp).changeBit 8 SYS_TEMP.THROTTLE (throttleAt tj.toInt (s.getB SYS_TEMP.THROTTLE))

theorem getB_warn_showTemps : (s.showTemps tj tbp).getB SYS_TEMP.WARN = s.getB SYS_TEMP.WARN :=
  getB_showTemps tj tbp s (.inr (by decide)) (.inr (by decide))

theorem getB_throttle_warnStep : (s.warnStep tj tbp).getB SYS_TEMP.THROTTLE = s.getB SYS_TEMP.THROTTLE :=
  (getB_of_get (get_changeBit_apart isFlag_warn 8 _ _ (.inr (by decide)) (by decide))).trans
    (getB_showTemps tj tbp s (.inr (by decide)) (.inr (by decide)))

theorem only_warnStep : s.only [.rcd, .cyc] ([SYS_TEMP.TJ, SYS_TEMP.TBP, SYS_TEMP.WARN] ++ raiseFlds 8) (s.warnStep tj tbp) :=
  only_trans (only_mono (only_showTemps tj tbp s) (by simp) (by simp))
    (only_mono (only_changeBit isFlag_warn 8 _ _) (fun _ h => h) (by simp +contextual))

theorem only_throttleStep :
    s.only [.rcd, .cyc] ([SYS_TEMP.TJ, SYS_TEMP.TBP, SYS_TEMP.WARN, SYS_TEMP.THROTTLE] ++ raiseFlds 8) (s.throttleStep tj tbp) :=
  only_trans (only_mono (only_warnStep tj tbp s) (fun _ h => h) (by simp +contextual))
    (only_mono (only_changeBit isFlag_throttle 8 _ _) (fun _ h => h) (by simp +contextual))

/-- The other fields of SYS_TEMP pass both steps. -/
theorem get_throttleStep {g : Fld} (h1 : g.apart SYS_TEMP.WARN) (h2 : g.apart SYS_TEMP.THROTTLE) (hg : windowOf g.addr ≠ 0xC1) :
    (s.throttleStep tj tbp).get g = (s.showTemps tj tbp).get g :=
  (get_changeBit_apart isFlag_throttle 8 _ _ h2 hg).trans (get_changeBit_apart isFlag_warn 8 _ _ h1 hg)

theorem getB_warn_throttleStep : (s.throttleStep tj tbp).getB SYS_TEMP.WARN = (s.getB SYS_TEMP.WARN || decide (880 ≤ tj.toInt)) :=
  (getB_of_get (get_changeBit_apart isFlag_throttle 8 _ _ (.inr (by decide)) (by decide))).trans (getB_changeBit_self isFlag_warn 8 _ _)

theorem getB_throttle_throttleStep : (s.throttleStep tj tbp).getB SYS_TEMP.THROTTLE = throttleAt tj.toInt (s.getB SYS_TEMP.THROTTLE) :=
  getB_changeBit_self isFlag_throttle 8 _ _

variable {tj tbp s}

/-- A change of either bit raises source 8, a change of both twice. -/
theorem raised_throttleStep (h : (s.getB SYS_TEMP.WARN || decide (880 ≤ tj.toInt)) ≠ s.getB SYS_TEMP.WARN ∨
    throttleAt tj.toInt (s.getB SYS_TEMP.THROTTLE) ≠ s.getB SYS_TEMP.THROTTLE) : s.raised 8 (s.throttleStep tj tbp) := by
  refine raised_of_only (only_showTemps tj tbp s) (by simp) (by decide) ?_
  by_cases hw : s.getB SYS_TEMP.WARN = (s.getB SYS_TEMP.WARN || decide (880 ≤ tj.toInt))
  · have ht : s.warnStep tj tbp = s.showTemps tj tbp := changeBit_same ((getB_warn_showTemps tj tbp s).trans hw)
    have hne := h.resolve_left (not_not.2 hw.symm)
    rw [State.throttleStep, ← ht]
    exact raised_changeBit isFlag_throttle (by rw [getB_throttle_warnStep]; exact hne.symm)
  · have hraised : (s.showTemps tj tbp).raised 8 (s.warnStep tj tbp) :=
      raised_changeBit isFlag_warn (by rwa [getB_warn_showTemps])
    have hk := keeps_of_only (only_changeBit isFlag_warn 8 (s.getB SYS_TEMP.WARN || decide (880 ≤ tj.toInt)) (s.showTemps tj tbp))
    exact raised_changeBit_again isFlag_throttle hk.2.2.1 (hk.2.1 _ (by decide)) hraised

theorem ite_warn_eq_changeBit (u : State) (t : Int) :
    (if 880 ≤ t && !u.getB SYS_TEMP.WARN then (u.setB SYS_TEMP.WARN true).raise 8 else u) =
      u.changeBit 8 SYS_TEMP.WARN (u.getB SYS_TEMP.WARN || decide (880 ≤ t)) := by
  cases hw : u.getB SYS_TEMP.WARN <;> by_cases h : 880 ≤ t <;> simp [State.changeBit, hw, h]

theorem ite_throttle_eq_changeBit (u : State) (t : Int) :
    (if 960 ≤ t && !u.getB SYS_TEMP.THROTTLE then (u.setB SYS_TEMP.THROTTLE true).raise 8
      else if t < 920 && u.getB SYS_TEMP.THROTTLE then (u.setB SYS_TEMP.THROTTLE false).raise 8 else u) =
      u.changeBit 8 SYS_TEMP.THROTTLE (throttleAt t (u.getB SYS_TEMP.THROTTLE)) := by
  by_cases hi : 960 ≤ t
  · have hn : ¬ t < 920 := by omega
    cases hw : u.getB SYS_TEMP.THROTTLE <;> simp [State.changeBit, throttleAt, hw, hi, hn]
  · by_cases hl : t < 920
    · cases hw : u.getB SYS_TEMP.THROTTLE <;> simp [State.changeBit, throttleAt, hw, hi, hl]
    · simp [State.changeBit, throttleAt, hi, hl]

theorem execThermalUpdate_cool (h : tj.toInt < 1040) : exec (.thermalUpdate tj tbp) s = .next (s.throttleStep tj tbp) := by
  have hn : ¬ 1040 ≤ tj.toInt := by omega
  have hcool (u : State) : u.safTherm (decide (1040 ≤ tj.toInt)) = u := by simp [State.safTherm, hn]
  change execThermalUpdate tj tbp s = _
  simp only [execThermalUpdate, hcool]
  rw [← State.showTemps, ite_warn_eq_changeBit, getB_warn_showTemps, ← State.warnStep, ite_throttle_eq_changeBit, getB_throttle_warnStep,
    ← State.throttleStep]

end Temps

/-! ### VKA (R53) -/

theorem vkaLow_shows {s : State} (h : s.sys.mode = .por ∨ s.sys.mode = .standby) :
    ∃ t, exec .vkaLow s = .next t ∧ t.ka = { s.ka with vkaLow := true } ∧ s.only [.ka] [] t := by
  refine ⟨{ s with ka := { s.ka with vkaLow := true } }, ?_, rfl, fun p hp => ?_, fun _ _ => rfl, rfl, rfl⟩
  · change execVkaLow s = _
    simp [execVkaLow, h]
  · cases p <;> simp [State.same] at hp ⊢

/-- Settles O11: each command shows its field and then changes a bit by `changeBit`, which raises the source where the bit changes. -/
theorem suppliesAndTemperaturesShowFlagAndRaise : Obligations.SuppliesAndTemperaturesShowFlagAndRaise := by
  refine ⟨fun mv s h => ⟨_, execVsupUndervoltage_notReady h, ?_⟩, fun mv s h => ⟨_, execVsupUvClear_notReady h, ?_⟩,
    fun mv s => ⟨_, rfl, ?_⟩, fun mv s => ⟨_, rfl, ?_⟩, fun _ h => vlvSupplyLoss_shows h,
    vlvSupplyReturn_shows, fun tj tbp s h => ⟨_, execThermalUpdate_cool h, ?_, ?_, ?_, ?_, fun hc => ?_, only_throttleStep tj tbp s⟩,
    fun _ h => vkaLow_shows h⟩
  · exact showVsup_warns isFlag_uv (.inr (by decide)) isFlag_uvWarn (.inr (by decide)) (.inr (by decide)) mv s
  · exact showVsup_shows isFlag_uv (.inr (by decide)) mv false s
  · exact showVsup_warns isFlag_ov (.inr (by decide)) isFlag_ovWarn (.inr (by decide)) (.inr (by decide)) mv s
  · exact showVsup_shows isFlag_ov (.inr (by decide)) mv false s
  · rw [get_throttleStep tj tbp s (.inr (by decide)) (.inr (by decide)) (by decide), get_tj_showTemps]
  · rw [get_throttleStep tj tbp s (.inr (by decide)) (.inr (by decide)) (by decide), get_tbp_showTemps]
  · exact getB_warn_throttleStep tj tbp s
  · exact getB_throttle_throttleStep tj tbp s
  · rw [getB_warn_throttleStep, getB_throttle_throttleStep] at hc
    exact raised_throttleStep hc

end Sys2Proof.Machine
end

section
/-! PROOFS. The statements of spec/05_handles_rings_events.md: raises and the claim of the event controller (R129 to R131), and how
command rings take entries and write their completions (R116, R120, R122 to R125, R127). -/

namespace Sys2Proof.Machine

/-! ### A raise, by what it finds (R129) -/

theorem stat_ne_ltc (n m : Nat) : EVT_SRC_STAT n ≠ EVT_SRC_LTC_LO m ∧ EVT_SRC_STAT n ≠ EVT_SRC_LTC_HI m := by
  simp only [EVT_SRC_STAT, EVT_SRC_LTC_LO, EVT_SRC_LTC_HI]; omega

theorem ltcLo_ne_ltcHi (n : Nat) : EVT_SRC_LTC_LO n ≠ EVT_SRC_LTC_HI n := by
  simp only [EVT_SRC_LTC_LO, EVT_SRC_LTC_HI]; omega

/-- The three fields a raise that finds PEND 0 writes. -/
def latchFlds (n : Nat) : List Fld := [EVT_SRC_STAT.PEND n, wordAt (EVT_SRC_LTC_LO n), wordAt (EVT_SRC_LTC_HI n)]

/-- An operation that leaves every register leaves every field. -/
theorem only_of_keeps {s t : State} {ps : List Comp} (h : s.keeps ps [] t) : s.only ps [] t :=
  ⟨h.1, fun g _ => get_congr g (h.2.1 _ (by simp)), h.2.2⟩

theorem only_set64 (s : State) (lo hi v : Nat) : s.only [] [wordAt lo, wordAt hi] (s.set64 lo hi v) :=
  ⟨(keeps_set64 s lo hi v).1, fun _ hg => get_set64_apart s lo hi v _ (hg _ (by simp)) (hg _ (by simp)), by simp, by simp⟩

section Raise
variable {n : Nat} {s : State}

theorem only_setPend (s : State) (n : Nat) (v : Bool) : s.only [] [EVT_SRC_STAT.PEND n] (s.setB (EVT_SRC_STAT.PEND n) v) :=
  only_set s _ (by simp [EVT_SRC_STAT.PEND])

theorem only_setMulti (s : State) (n : Nat) (v : Bool) : s.only [] [EVT_SRC_STAT.MULTI n] (s.setB (EVT_SRC_STAT.MULTI n) v) :=
  only_set s _ (by simp [EVT_SRC_STAT.MULTI])

theorem getB_setMulti_self (s : State) (n : Nat) (v : Bool) : (s.setB (EVT_SRC_STAT.MULTI n) v).getB (EVT_SRC_STAT.MULTI n) = v :=
  getB_setB_self s _ v (by simp [EVT_SRC_STAT.MULTI]) rfl

theorem getB_setPend_self (s : State) (n : Nat) (v : Bool) : (s.setB (EVT_SRC_STAT.PEND n) v).getB (EVT_SRC_STAT.PEND n) = v :=
  getB_setB_self s _ v (by simp [EVT_SRC_STAT.PEND]) rfl

theorem getB_pend_setMulti (s : State) (n : Nat) (v : Bool) : (s.setB (EVT_SRC_STAT.MULTI n) v).getB (EVT_SRC_STAT.PEND n) = s.getB (EVT_SRC_STAT.PEND n) :=
  getB_of_get ((only_setMulti s n v).2.1 _ (by simp [Fld.apart, EVT_SRC_STAT.PEND, EVT_SRC_STAT.MULTI]))

theorem getB_multi_setPend (s : State) (n : Nat) (v : Bool) : (s.setB (EVT_SRC_STAT.PEND n) v).getB (EVT_SRC_STAT.MULTI n) = s.getB (EVT_SRC_STAT.MULTI n) :=
  getB_of_get ((only_setPend s n v).2.1 _ (by simp [Fld.apart, EVT_SRC_STAT.PEND, EVT_SRC_STAT.MULTI]))

/-- A field of the status register does not see the latch. -/
theorem getB_stat_setLatch (s : State) {g : Fld} {l : Nat} (hg : g.addr = EVT_SRC_STAT n) :
    (s.set64 (EVT_SRC_LTC_LO n) (EVT_SRC_LTC_HI n) l).getB g = s.getB g :=
  getB_congr g (reg_set64_ne s l (hg ▸ (stat_ne_ltc n n).1) (hg ▸ (stat_ne_ltc n n).2))

theorem raise_lost (h : s.neverRaised n = true) : s.raise n = s := if_pos h

/-- An enabled raise is counted by REC and noted for its REF cycle before it shows. -/
def State.raiseNoted (n : Nat) (s : State) : State := (s.rcdRaise n s.now).noteRaise n s.now (s.getB (EVT_SRC_STAT.PEND n))

theorem only_raiseNoted (s : State) : s.only [.rcd, .cyc] [] (s.raiseNoted n) :=
  only_trans (only_mono (only_of_keeps (keeps_rcdRaise s n s.now)) (by simp) (by simp))
    (only_mono (only_of_keeps (keeps_noteRaise _ n s.now _)) (by simp) (by simp))

/-- A raise of an enabled source (R129). -/
theorem raise_enabled (hn : s.neverRaised n = false) (hen : s.getB (EVT_SRC_CFG.EN n) = true) :
    s.raise n = if s.getB (EVT_SRC_STAT.PEND n) then (s.raiseNoted n).setB (EVT_SRC_STAT.MULTI n) true
      else ((s.raiseNoted n).setB (EVT_SRC_STAT.PEND n) true).set64 (EVT_SRC_LTC_LO n) (EVT_SRC_LTC_HI n) s.now := by
  have hcount (g : Fld) : (s.rcdRaise n s.now).getB g = s.getB g := getB_of_get (get_of_regs (rcdRaise_regs ..) g)
  have hnote (c : Bool) (g : Fld) : ((s.rcdRaise n s.now).noteRaise n s.now c).getB g = s.getB g := hcount g
  simp only [State.raise, State.raiseAt, hn, hcount, hen, hnote, State.raiseNoted, Bool.false_eq_true, if_false, if_true]

theorem only_raise_of_pend (hn : s.neverRaised n = false) (hen : s.getB (EVT_SRC_CFG.EN n) = true) (hp : s.getB (EVT_SRC_STAT.PEND n) = true) :
    s.only [.rcd, .cyc] [EVT_SRC_STAT.MULTI n] (s.raise n) := by
  rw [raise_enabled hn hen, if_pos hp]
  exact only_trans (only_mono (only_raiseNoted s) (fun _ h => h) (by simp)) (only_mono (only_setMulti _ n true) (by simp) (by simp))

theorem only_raise_of_clear (hn : s.neverRaised n = false) (hen : s.getB (EVT_SRC_CFG.EN n) = true) (hp : s.getB (EVT_SRC_STAT.PEND n) = false) :
    s.only [.rcd, .cyc] (latchFlds n) (s.raise n) := by
  rw [raise_enabled hn hen, if_neg (by simp [hp])]
  exact only_trans (only_mono (only_raiseNoted s) (fun _ h => h) (by simp))
    (only_trans (only_mono (only_setPend _ n true) (by simp) (by simp [latchFlds])) (only_mono (only_set64 ..) (by simp) (by simp [latchFlds])))

end Raise

/-! ### A write of EVT_SRC_STAT (R8, R129, R130) -/

theorem windowOf_srcStat (n : Nat) : windowOf (EVT_SRC_STAT n) = 0xC1 := windowOf_raiseRegs (n := n) (by simp [raiseRegs])

theorem blkOf_srcStat (n : Nat) : blkOf (EVT_SRC_STAT n) = 0x14 := by
  have h : EVT_SRC_STAT n / 0x1000000 = 0xC1 := windowOf_srcStat n
  simp only [blkOf, h]

theorem goodAddr_srcStat (n : Nat) : goodAddr (EVT_SRC_STAT n) = true := by
  have hlo : 0xC0000000 ≤ EVT_SRC_STAT n := by simp only [EVT_SRC_STAT]; omega
  have hhi : EVT_SRC_STAT n < 0xD5000000 := by simp only [EVT_SRC_STAT]; omega
  have halign : EVT_SRC_STAT n % 4 = 0 := by simp only [EVT_SRC_STAT]; omega
  simp [goodAddr, hlo, hhi, halign]

/-- EVT is a fixed block: its window never reconfigures (R101). -/
theorem closed_srcStat (n : Nat) (s : State) : s.closed (EVT_SRC_STAT n) = false := by
  have h : EVT_SRC_STAT n / 0x1000000 = 0xC1 := windowOf_srcStat n
  simp [State.closed, State.reconfiguring, blkOf_srcStat, regionOf, h]

/-- Of EVT's addresses, a source's status register falls to `writeSrcStat`. -/
theorem fixedWrite_srcStat {n : Nat} (hn : n < 384) (v : Word) (s : State) : s.fixedWrite (EVT_SRC_STAT n) v = some (s.writeSrcStat n v) := by
  have ha : EVT_SRC_STAT n = 0xC1001004 + 16 * n := by simp only [EVT_SRC_STAT]; omega
  have hne (a : Nat) (h : a < 0xC1001004 ∨ 0xC1002804 ≤ a) : EVT_SRC_STAT n ≠ a := by omega
  have hpend : ¬ EVT_SRC_STAT n < EVT_PEND 0 + 0x4 * 12 := by rw [ha]; simp only [EVT_PEND]; omega
  have hlo : EVT_SRC_STAT 0 ≤ EVT_SRC_STAT n := by rw [ha]; simp only [EVT_SRC_STAT]; omega
  have hhi : EVT_SRC_STAT n < EVT_SRC_STAT 0 + 0x10 * 384 := by rw [ha]; simp only [EVT_SRC_STAT]; omega
  have hword : EVT_SRC_STAT n % 16 = 4 := by omega
  have hidx : (EVT_SRC_STAT n - EVT_SRC_STAT 0) / 16 = n := by rw [ha]; simp only [EVT_SRC_STAT]; omega
  rw [State.fixedWrite, if_neg (hne SYS_DET_STATUS (by decide)), if_neg (hne SYS_WDT_CFG (by decide)), if_neg (hne SYS_WDT_KICK (by decide)),
    if_neg (hne SYS_BLK_RST (by decide)), if_neg (hne SYS_PWR_REQ (by decide)), if_neg (hne KA_FLAGS (by decide)), if_neg (hne STR_RLD_CTRL (by decide)),
    if_neg (by simp [hpend]), if_pos (by simp [hlo, hhi, hword]), hidx]

theorem specialWrite_srcStat {n : Nat} (hn : n < 384) (v : Word) (s : State) : s.specialWrite (EVT_SRC_STAT n) v = some (s.writeSrcStat n v) := by
  have hnone (f : Nat → Nat → Fld) : ringAt 0x14 f (EVT_SRC_STAT n) = none := rfl
  simp only [State.specialWrite, blkOf_srcStat, hnone, fixedWrite_srcStat hn]

/-- The write takes effect on the state in which the access has been answered. -/
theorem execEvtSet_eq (core : Fin 8) (src : Fin 384) (v : Word) (s : State) :
    exec (.evtSet core src v) s = .next (State.writeSrcStat src.val v { s with access := .none }) := by
  refine congrArg Host.Outcome.next ?_
  rw [hostWrite_open (goodAddr_srcStat _) (closed_srcStat _ s)]
  simp [State.regWrite, specialWrite_srcStat src.isLt]

/-- The access that a core's write leaves, and what the write does behind it. -/
theorem only_of_answered {s t : State} {ps : List Comp} {fs : List Fld} (h : State.only ps fs { s with access := .none } t) : s.only (.access :: ps) fs t :=
  only_trans (only_mono (only_access s .none) (by simp) (by simp)) (only_mono h (by simp +contextual) (fun _ h => h))

section SrcStat
variable {n : Nat} {s : State}

theorem writeSrcStat_set (n : Nat) (s : State) : s.writeSrcStat n 4 = if s.getB (EVT_SRC_CFG.EN n) then s.raise n else s := by
  simp [State.writeSrcStat, bitAt, State.when]

theorem writeSrcStat_clear (n : Nat) (s : State) : s.writeSrcStat n 3 = (s.clearMulti n).clearPend n := by
  simp [State.writeSrcStat, bitAt]

theorem writeSrcStat_clear_set (n : Nat) (s : State) :
    s.writeSrcStat n 5 = if (s.clearPend n).getB (EVT_SRC_CFG.EN n) then ((s.clearPend n).raise n).setB (EVT_SRC_STAT.MULTI n) false else s.clearPend n := by
  simp [State.writeSrcStat, bitAt, State.when]

/-- What a REF cycle has raised is not seen in the registers. -/
theorem raised_cycle_congr {s t : State} (hl : t.ltc = s.ltc) (hc : t.cyc = s.cyc) : t.cycle.raised = s.cycle.raised := by
  simp only [State.cycle, hl, hc]
  split <;> rfl

theorem clearPend_unraised (h : tget s.cycle.raised n = none) : s.clearPend n = s.setB (EVT_SRC_STAT.PEND n) false := by
  simp only [State.clearPend, h]

theorem clearPend_raised {l : Nat} {again : Bool} (h : tget s.cycle.raised n = some (l, again)) :
    s.clearPend n = (s.setB (EVT_SRC_STAT.MULTI n) false).set64 (EVT_SRC_LTC_LO n) (EVT_SRC_LTC_HI n) l := by
  simp only [State.clearPend, h]

theorem clearMulti_unraised (h : tget s.cycle.raised n = none) : s.clearMulti n = s.setB (EVT_SRC_STAT.MULTI n) false := by
  simp only [State.clearMulti, h]

/-- Either nothing, or MULTI clears. -/
theorem clearMulti_cases (n : Nat) (s : State) : s.clearMulti n = s ∨ s.clearMulti n = s.setB (EVT_SRC_STAT.MULTI n) false := by
  unfold State.clearMulti
  split
  · exact .inl rfl
  · exact .inr rfl

theorem only_clearMulti (n : Nat) (s : State) : s.only [] [EVT_SRC_STAT.MULTI n] (s.clearMulti n) := by
  obtain h | h := clearMulti_cases n s <;> rw [h]
  · exact only_refl ..
  · exact only_setMulti s n false

theorem clear_unraised (h : tget s.cycle.raised n = none) :
    s.writeSrcStat n 3 = (s.setB (EVT_SRC_STAT.MULTI n) false).setB (EVT_SRC_STAT.PEND n) false := by
  rw [writeSrcStat_clear, clearMulti_unraised h, clearPend_unraised]
  rwa [raised_cycle_congr (setB_ltc ..) (setB_cyc ..)]

theorem clear_raised {l : Nat} {again : Bool} (h : tget s.cycle.raised n = some (l, again)) :
    s.writeSrcStat n 3 = ((s.clearMulti n).setB (EVT_SRC_STAT.MULTI n) false).set64 (EVT_SRC_LTC_LO n) (EVT_SRC_LTC_HI n) l := by
  have honly := only_clearMulti n s
  rw [writeSrcStat_clear, clearPend_raised (again := again)]
  rwa [raised_cycle_congr (honly.1 .ltc (by simp)) (honly.1 .cyc (by simp))]

end SrcStat

section Sets
variable {n : Nat} {s : State} (hn : s.neverRaised n = false) (hen : s.getB (EVT_SRC_CFG.EN n) = true)
include hn hen

theorem set_latches (hp : s.getB (EVT_SRC_STAT.PEND n) = false) :
    (s.writeSrcStat n 4).getB (EVT_SRC_STAT.PEND n) = true ∧
      (s.writeSrcStat n 4).get64 (EVT_SRC_LTC_LO n) (EVT_SRC_LTC_HI n) = s.now ∧ s.only [.rcd, .cyc] (latchFlds n) (s.writeSrcStat n 4) := by
  rw [writeSrcStat_set, if_pos hen]
  obtain ⟨hpend, hstamp, -⟩ := raised_raise s n hn hen
  exact ⟨hpend, hstamp hp, only_raise_of_clear hn hen hp⟩

theorem set_marks (hp : s.getB (EVT_SRC_STAT.PEND n) = true) :
    (s.writeSrcStat n 4).getB (EVT_SRC_STAT.MULTI n) = true ∧ s.only [.rcd, .cyc] [EVT_SRC_STAT.MULTI n] (s.writeSrcStat n 4) := by
  rw [writeSrcStat_set, if_pos hen]
  obtain ⟨-, -, hmulti⟩ := raised_raise s n hn hen
  exact ⟨hmulti hp, only_raise_of_pend hn hen hp⟩

/-- A clear of PEND together with SET raises the source that was cleared. -/
theorem clear_set_latches (h : tget s.cycle.raised n = none) :
    (s.writeSrcStat n 5).getB (EVT_SRC_STAT.PEND n) = true ∧ (s.writeSrcStat n 5).getB (EVT_SRC_STAT.MULTI n) = false ∧
      (s.writeSrcStat n 5).get64 (EVT_SRC_LTC_LO n) (EVT_SRC_LTC_HI n) = s.now ∧ s.only [.rcd, .cyc] (raiseFlds n) (s.writeSrcStat n 5) := by
  let u := s.setB (EVT_SRC_STAT.PEND n) false
  have hclear : s.clearPend n = u := clearPend_unraised h
  have hen' : u.getB (EVT_SRC_CFG.EN n) = true := by
    rw [getB_congr (EVT_SRC_CFG.EN n) (reg_setB_ne s false ?_), hen]
    simp only [EVT_SRC_CFG.EN, EVT_SRC_CFG, EVT_SRC_STAT.PEND, EVT_SRC_STAT]; omega
  have hn' : u.neverRaised n = false := by simpa [u, State.neverRaised, State.noGnss] using hn
  have hp : u.getB (EVT_SRC_STAT.PEND n) = false := getB_setPend_self s n false
  obtain ⟨hpend, hstamp, -⟩ := raised_raise u n hn' hen'
  rw [writeSrcStat_clear_set, hclear, if_pos hen']
  refine ⟨(getB_pend_setMulti _ n false).trans hpend, getB_setMulti_self _ n false, ?_, ?_⟩
  · rw [get64_congr _ _ (reg_setB_ne _ _ (stat_ne_ltc n n).1.symm) (reg_setB_ne _ _ (stat_ne_ltc n n).2.symm), hstamp hp]
    exact now_of_ltc (setB_ltc ..)
  · have hraise := only_mono (qs := [.rcd, .cyc]) (us := raiseFlds n) (only_raise_of_clear hn' hen' hp) (fun _ h => h) (by simp [latchFlds, raiseFlds])
    exact only_trans (only_mono (only_setPend s n false) (by simp) (by simp [raiseFlds]))
      (only_trans hraise (only_mono (only_setMulti _ n false) (by simp) (by simp [raiseFlds])))

end Sets

/-! ### The claim (R131) -/

/-- Source `n` is claimed before source `m`: a higher PRIO, or the same and no higher number. -/
def State.claimedBefore (s : State) (n m : Nat) : Prop :=
  s.get (EVT_SRC_CFG.PRIO m) < s.get (EVT_SRC_CFG.PRIO n) ∨ (s.get (EVT_SRC_CFG.PRIO m) = s.get (EVT_SRC_CFG.PRIO n) ∧ n ≤ m)

/-- One source looked at: the best so far, as its number plus 1 and its PRIO, gives way to a deliverable one of higher PRIO. -/
def State.claimStep (s : State) (c : Nat) (best : Nat × Nat) (n : Nat) : Nat × Nat :=
  if s.deliverable c n && (best.1 = 0 || best.2 < s.get (EVT_SRC_CFG.PRIO n)) then (n + 1, s.get (EVT_SRC_CFG.PRIO n)) else best

theorem claim_eq (s : State) (c : Nat) : s.claim c = ((List.range 384).foldl (s.claimStep c) (0, 0)).1 := rfl

/-- `best` is the claim among the sources below `k`. -/
structure BestBelow (s : State) (c k : Nat) (best : Nat × Nat) : Prop where
  none : best.1 = 0 → ∀ n, n < k → s.deliverable c n = false
  some : ∀ n, best.1 = n + 1 → n < k ∧ s.deliverable c n = true ∧ best.2 = s.get (EVT_SRC_CFG.PRIO n) ∧
    ∀ m, m < k → s.deliverable c m = true → s.claimedBefore n m

theorem bestBelow_claimStep {s : State} {c k : Nat} {best : Nat × Nat} (h : BestBelow s c k best) : BestBelow s c (k + 1) (s.claimStep c best k) := by
  unfold State.claimStep
  split
  · next hk =>
    simp only [Bool.and_eq_true, Bool.or_eq_true, decide_eq_true_eq] at hk
    obtain ⟨hdel, hbest⟩ := hk
    refine ⟨fun h0 => absurd h0 (by simp), fun n hn => ?_⟩
    obtain rfl : k = n := by simpa using hn
    refine ⟨by omega, hdel, rfl, fun m hm hd => ?_⟩
    rcases Nat.lt_succ_iff_lt_or_eq.1 hm with hlt | rfl
    · rcases hb : best.1 with _ | p
      · exact absurd hd (by simp [h.none hb m hlt])
      · obtain ⟨-, -, hprio, hbefore⟩ := h.some p hb
        have hhigher : best.2 < s.get (EVT_SRC_CFG.PRIO k) := hbest.resolve_left (by omega)
        exact .inl (by rcases hbefore m hlt hd with h | h <;> omega)
    · exact .inr ⟨rfl, Nat.le_refl _⟩
  · next hk =>
    simp only [Bool.and_eq_true, Bool.or_eq_true, decide_eq_true_eq, not_and, not_or, Nat.not_lt] at hk
    refine ⟨fun h0 n hn => ?_, fun n hn => ?_⟩
    · rcases Nat.lt_succ_iff_lt_or_eq.1 hn with hlt | rfl
      · exact h.none h0 n hlt
      · exact Bool.eq_false_iff.2 fun hd => (hk hd).1 h0
    · obtain ⟨hlt, hdel, hprio, hbefore⟩ := h.some n hn
      refine ⟨by omega, hdel, hprio, fun m hm hd => ?_⟩
      rcases Nat.lt_succ_iff_lt_or_eq.1 hm with hmk | rfl
      · exact hbefore m hmk hd
      · have := (hk hd).2
        unfold State.claimedBefore
        omega

theorem bestBelow_foldl (s : State) (c k : Nat) : BestBelow s c k ((List.range k).foldl (s.claimStep c) (0, 0)) := by
  induction k with
  | zero => exact ⟨fun _ n hn => absurd hn (by omega), fun n hn => absurd hn (by simp)⟩
  | succ k ih =>
    rw [List.range_succ, List.foldl_append]
    exact bestBelow_claimStep ih

/-- Settles O20: SET is a raise of the source as its EN and PEND stand; a clear meets the raises of its REF cycle; the claim is the best of
all sources. -/
theorem raisesLatchMarkAndAreLostAsR129Says : Obligations.RaisesLatchMarkAndAreLostAsR129Says := by
  refine ⟨fun core src s hn hen hp => ⟨_, execEvtSet_eq core src 4 s, ?_⟩, fun core src s hn hen hp => ⟨_, execEvtSet_eq core src 4 s, ?_⟩,
    fun core src s hlost => ⟨_, execEvtSet_eq core src 4 s, ?_⟩, fun core src s hr => ⟨_, execEvtSet_eq core src 3 s, ?_⟩,
    fun core src l again s hr => ⟨_, execEvtSet_eq core src 3 s, ?_⟩, fun core src s hn hen hr => ⟨_, execEvtSet_eq core src 5 s, ?_⟩, fun c s => ?_⟩
  · obtain ⟨hpend, hstamp, honly⟩ := set_latches (s := { s with access := .none }) hn hen hp
    exact ⟨hpend, hstamp, only_of_answered honly⟩
  · obtain ⟨hmulti, honly⟩ := set_marks (s := { s with access := .none }) hn hen hp
    exact ⟨hmulti, only_of_answered honly⟩
  · have hsame : State.writeSrcStat src.val 4 { s with access := .none } = { s with access := .none } := by
      rw [writeSrcStat_set]
      split
      · next hen => exact raise_lost (hlost.resolve_right (Bool.not_eq_false _ ▸ hen))
      · rfl
    rw [hsame]
    exact only_access s .none
  · rw [clear_unraised (s := { s with access := .none }) hr]
    refine ⟨getB_setPend_self .., (getB_multi_setPend ..).trans (getB_setMulti_self ..), only_of_answered ?_⟩
    exact only_trans (only_mono (only_setMulti _ _ false) (by simp) (by simp)) (only_mono (only_setPend _ _ false) (by simp) (by simp))
  · rw [clear_raised (s := { s with access := .none }) hr]
    refine ⟨(getB_stat_setLatch _ rfl).trans (getB_setMulti_self ..), get64_set64_self _ _ _ l (ltcLo_ne_ltcHi _), only_of_answered ?_⟩
    exact only_trans (only_trans (only_mono (only_clearMulti ..) (by simp) (by simp)) (only_mono (only_setMulti _ _ false) (by simp) (by simp)))
      (only_mono (only_set64 ..) (by simp) (by simp))
  · obtain ⟨hpend, hmulti, hstamp, honly⟩ := clear_set_latches (s := { s with access := .none }) hn hen hr
    exact ⟨hpend, hmulti, hstamp, only_of_answered honly⟩
  · rw [claim_eq]
    obtain ⟨hnone, hsome⟩ := bestBelow_foldl s c 384
    refine ⟨hnone, fun n hn => ?_⟩
    obtain ⟨hlt, hdel, -, hbefore⟩ := hsome n hn
    exact ⟨hlt, hdel, hbefore⟩

/-! ### The registers of a ring beside those its completion event writes -/

theorem ringG_ne_jobPend {b r k : Nat} (h : r < ringCount b) (hk : k < 0x20) : ringG b r + k ≠ FEN_JOB_PEND := by
  have := (ringG_bounds h).1
  have : blkBase b % 0x1000000 = 0 := by simp only [blkBase]; split_ifs <;> omega
  have := (ringG_bounds h).2
  simp only [FEN_JOB_PEND]; omega

theorem windowOf_ringG {b r k : Nat} (h : r < ringCount b) (hk : k < 0x20) : windowOf (ringG b r + k) ≠ 0xC1 := by
  have := (ringG_ge b r h).1
  simp only [windowOf]; omega

/-- A field of a ring's group, CRING_PI apart, is none that a completion of the ring can write. -/
theorem apart_complFlds {b r k : Nat} {g : Fld} (h : r < ringCount b) (ha : g.addr = ringG b r + k) (hk : k < 0x20) (hne : k ≠ 0x18) :
    ∀ f ∈ complFlds b r, g.apart f := by
  intro f hf
  have hsrc (a : Nat) (hm : a ∈ raiseRegs (complSource b r)) : g.addr ≠ a := by
    rintro rfl
    exact windowOf_ringG h hk (ha ▸ windowOf_raiseRegs hm)
  simp only [complFlds, raiseFlds, List.mem_cons, List.not_mem_nil, or_false] at hf
  rcases hf with rfl | rfl | rfl | rfl | rfl | rfl
  · exact .inl (by simp only [ha, CRING_PI]; omega)
  · exact .inl (by rw [ha]; exact ringG_ne_jobPend h hk)
  all_goals exact .inl (hsrc _ (by simp [raiseRegs, EVT_SRC_STAT.PEND, EVT_SRC_STAT.MULTI, wordAt]))

/-! ### The completion event (R125) -/

/-- FEN_JOB_PEND's bit of a job ring. -/
def jobPend (r : Nat) : Fld := ⟨FEN_JOB_PEND, r - 1, 1⟩

theorem completionEvent_eq_raise {b r : Nat} (hr : r < ringCount b) (h : b ≠ 0x0A ∨ r = 0) (s : State) :
    s.completionEvent b r = s.raise (complSource b r) := by
  unfold ringCount at hr
  unfold State.completionEvent complSource
  split at hr
  case h_4 =>
    have h0 : r = 0 := h.resolve_left (by simp)
    subst h0; rfl
  case h_15 => omega
  all_goals rfl

theorem completionEvent_job {r : Nat} (h : r ≠ 0) (s : State) :
    s.completionEvent 0x0A r = if s.getB (jobPend r) then s else (s.setB (jobPend r) true).raise 193 := if_neg h

theorem isFlag_jobPend {r : Nat} (hr : r < ringCount 0x0A) : IsFlag (jobPend r) := by
  have h17 : r < 17 := hr
  refine ⟨rfl, ?_, (by decide : windowOf FEN_JOB_PEND ≠ 0xC1)⟩
  change r - 1 + 1 ≤ 32
  omega

/-- The event of a completion raises the ring's source, unless it finds a job ring's bit set. -/
theorem raised_completionEvent {b r : Nat} {s : State} (hr : r < ringCount b) (h : b ≠ 0x0A ∨ r = 0 ∨ s.getB (jobPend r) = false) :
    s.raised (complSource b r) (s.completionEvent b r) := by
  by_cases hj : b ≠ 0x0A ∨ r = 0
  · rw [completionEvent_eq_raise hr hj]
    exact raised_raise s _
  · obtain ⟨rfl, h0⟩ : b = 0x0A ∧ r ≠ 0 := by simpa using hj
    have hclear : s.getB (jobPend r) = false := by simpa [h0] using h
    have hsrc : complSource 0x0A r = 193 := if_neg h0
    have hev : s.completionEvent 0x0A r = s.changeBit 193 (jobPend r) true := by
      rw [completionEvent_job h0, changeBit_changed (by simp [hclear]), if_neg (by simp [hclear])]
    rw [hsrc, hev]
    exact raised_changeBit (isFlag_jobPend hr) (by simp [hclear])

theorem getB_jobPend_completionEvent {r : Nat} (s : State) (hr : r < ringCount 0x0A) (h0 : r ≠ 0) : (s.completionEvent 0x0A r).getB (jobPend r) = true := by
  have hev : s.completionEvent 0x0A r = s.changeBit 193 (jobPend r) true := completionEvent_job h0 s
  rw [hev]
  exact getB_changeBit_self (isFlag_jobPend hr) 193 true s

/-! ### Writing a completion (R121 to R123, R125) -/

/-- The SEQ of a ring's next completion (R122). -/
def State.nextComplSeq (s : State) (b r : Nat) : Nat := if (s.ring b r).seq = 0xFFFF then 1 else (s.ring b r).seq + 1

theorem nextComplSeq_bounds {s : State} {b r : Nat} (h : (s.ring b r).seq ≤ 0xFFFF) : 1 ≤ s.nextComplSeq b r ∧ s.nextComplSeq b r ≤ 0xFFFF := by
  unfold State.nextComplSeq; split <;> omega

/-- The state between a completion's entry and its event: the entry is in DRAM, SEQ and CRING_PI have moved on (R123). -/
def State.completionStored (b r : Nat) (x : Taken) (reason handle : Nat) (s : State) : State :=
  ((s.setRing b r { s.ring b r with seq := s.nextComplSeq b r }).dramPuts (s.complAddr b r)
    (bytesLE 8 x.tag ++ bytesLE 4 handle ++ bytesLE 2 reason ++ bytesLE 2 (s.nextComplSeq b r))).set (CRING_PI b r) (s.get (CRING_PI b r) + 1)

theorem only_setRing (s : State) (b r : Nat) (g : Ring) : s.only [.rings] [] (s.setRing b r g) := only_of_keeps (keeps_setRing s b r g)

section Written
variable {b r : Nat} {s : State} (x : Taken) (reason handle : Nat)

theorem writeCompletion_event (h : x.irq = true ∨ reason % 256 ≠ 0) :
    s.writeCompletion b r x reason handle = (s.completionStored b r x reason handle).completionEvent b r :=
  if_pos (by simpa using h)

theorem writeCompletion_quiet (h : x.irq = false ∧ reason % 256 = 0) :
    s.writeCompletion b r x reason handle = s.completionStored b r x reason handle :=
  if_neg (by simp [h])

theorem only_completionStored : s.only [.dram, .rings] [CRING_PI b r] (s.completionStored b r x reason handle) :=
  only_trans (only_mono (only_setRing s b r _) (by simp) (by simp))
    (only_trans (only_mono (only_of_keeps (keeps_dramPuts ..)) (by simp) (by simp)) (only_mono (only_set _ _ (by simp [CRING_PI])) (by simp) (by simp)))

/-- A completion moves its ring's SEQ on, and nothing else of the ring. -/
theorem ring_writeCompletion : (s.writeCompletion b r x reason handle).ring b r = { s.ring b r with seq := s.nextComplSeq b r } := by
  have hstored : (s.completionStored b r x reason handle).ring b r = { s.ring b r with seq := s.nextComplSeq b r } :=
    (ring_of_rings (set_rings ..) b r).trans (ring_setRing_self s b r _)
  by_cases h : x.irq = true ∨ reason % 256 ≠ 0
  · rw [writeCompletion_event x reason handle h, ring_of_rings (completionEvent_rings ..), hstored]
  · rw [writeCompletion_quiet x reason handle (by simpa using h), hstored]

theorem only_writeCompletion (hr : r < ringCount b) : s.only [.dram, .rings, .rcd, .cyc] (complFlds b r) (s.writeCompletion b r x reason handle) :=
  only_of (writeCompletion_any ..) rfl fun g hg => get_writeCompletion_apart s b r x reason handle hr g hg

/-- A completion stores its sixteen bytes and no other. -/
theorem dramKept_writeCompletion : s.dramKept (s.complAddr b r) 16 (s.writeCompletion b r x reason handle) := by
  intro a ha
  rw [writeCompletion_dram]
  exact memByte_memPuts_ne _ _ _ _ (by simpa [length_bytesLE] using ha)

/-- The entry that a completion stores reads back (Table 5-5). -/
theorem writeCompletion_reads :
    memBytes (s.writeCompletion b r x reason handle).dram (s.complAddr b r) 8 = bytesLE 8 x.tag ∧
      memNat (s.writeCompletion b r x reason handle).dram (s.complAddr b r + 8) 4 = handle % 2 ^ 32 ∧
      memNat (s.writeCompletion b r x reason handle).dram (s.complAddr b r + 12) 2 = reason % 2 ^ 16 ∧
      memNat (s.writeCompletion b r x reason handle).dram (s.complAddr b r + 14) 2 = s.nextComplSeq b r % 2 ^ 16 := by
  rw [writeCompletion_dram]
  exact completion_reads s.dram (s.complAddr b r) x.tag handle reason (s.nextComplSeq b r)

end Written

/-- Settles O21: the SEQ stored and remembered is `nextComplSeq`; a passed check empties every ring. -/
theorem completionsCarrySeqWithoutZero : Obligations.CompletionsCarrySeqWithoutZero := by
  refine ⟨fun s b r x reason handle _ hle => ?_, fun b r s hr => ?_⟩
  · obtain ⟨hpos, hmax⟩ := nextComplSeq_bounds hle
    obtain ⟨-, -, -, hmem⟩ := writeCompletion_reads (s := s) (b := b) (r := r) x reason handle
    have hring : ((s.writeCompletion b r x reason handle).ring b r).seq = s.nextComplSeq b r := by rw [ring_writeCompletion]
    refine ⟨hmem.trans (Nat.mod_eq_of_lt (by omega)), ?_, hring, hring.le.trans hmax⟩
    exact Nat.ne_of_gt hpos
  · obtain ⟨hring, hpi, hci, hcpi, hcci⟩ := ringsZero_empty s hr
    exact ⟨by rw [hring], hpi, hci, hcpi, hcci⟩

/-- Settles O22: the entry is stored whatever it says; the event follows where IRQ or the reason asks for it. -/
theorem completionEventsAreRaisedForIrqOrReason : Obligations.CompletionEventsAreRaisedForIrqOrReason := by
  intro s b r x reason handle hr
  have hstored := only_completionStored (s := s) (b := b) (r := r) x reason handle
  refine ⟨fun hev hjob => ?_, fun hev hb h0 => ?_, fun hq => ?_, writeCompletion_pi s b r x reason handle hr,
    dramKept_writeCompletion x reason handle, only_writeCompletion x reason handle hr⟩
  · have hbit : (s.completionStored b r x reason handle).getB (jobPend r) = s.getB (jobPend r) :=
      getB_of_get (hstored.2.1 _ (by simpa using .inl (ringG_ne_jobPend hr (k := 0x18) (by decide)).symm))
    rw [writeCompletion_event x reason handle hev]
    refine raised_of_only hstored (by simp) (by simpa [CRING_PI] using windowOf_ringG hr (k := 0x18) (by decide)) (raised_completionEvent hr ?_)
    rwa [hbit]
  · subst hb
    rw [writeCompletion_event x reason handle hev]
    exact getB_jobPend_completionEvent _ hr h0
  · rw [writeCompletion_quiet x reason handle hq]
    exact hstored

/-! ### Completions go out in the order taken (R124) -/

/-- The bytes from `x` on lie outside those that were written. -/
theorem memBytes_of_dramKept {s t : State} {a n x k : Nat} (h : s.dramKept a n t) (hx : x + k ≤ a ∨ a + n ≤ x) :
    memBytes t.dram x k = memBytes s.dram x k :=
  memBytes_congr k _ _ x fun y _ _ => h y (by omega)

theorem memNat_of_dramKept {s t : State} {a n x k : Nat} (h : s.dramKept a n t) (hx : x + k ≤ a ∨ a + n ≤ x) :
    memNat t.dram x k = memNat s.dram x k :=
  congrArg natLE (memBytes_of_dramKept h hx)

section Order
variable {b r : Nat} {s : State}

/-- Where CRING_CI has stayed at or before CRING_PI, completions go to the place of CRING_PI. -/
theorem complAddr_of_pi (h : (s.ring b r).oddCi = false) :
    s.complAddr b r = s.get64 (CRING_BASE_LO b r) (CRING_BASE_HI b r) + 16 * (s.get (CRING_PI b r) % 256) := by
  simp [State.complAddr, State.complSlot, h]

theorem cringBase_writeCompletion (x : Taken) (reason handle : Nat) (hr : r < ringCount b) :
    (s.writeCompletion b r x reason handle).get64 (CRING_BASE_LO b r) (CRING_BASE_HI b r) = s.get64 (CRING_BASE_LO b r) (CRING_BASE_HI b r) := by
  have hkept := (only_writeCompletion (s := s) x reason handle hr).2.1
  exact get64_congr _ _ (reg_of_get (hkept _ (apart_complFlds (k := 0x08) hr rfl (by decide) (by decide))))
    (reg_of_get (hkept _ (apart_complFlds (k := 0x0C) hr rfl (by decide) (by decide))))

/-- The place of the completion after next. -/
theorem complAddr_writeCompletion (x : Taken) (reason handle : Nat) (hr : r < ringCount b) (h : (s.ring b r).oddCi = false) :
    (s.writeCompletion b r x reason handle).complAddr b r =
      s.get64 (CRING_BASE_LO b r) (CRING_BASE_HI b r) + 16 * ((s.get (CRING_PI b r) + 1) % 256) := by
  rw [complAddr_of_pi (by rw [ring_writeCompletion]; exact h), cringBase_writeCompletion x reason handle hr, writeCompletion_pi s b r x reason handle hr,
    Nat.mod_mod_of_dvd _ (by decide : 256 ∣ 512)]

/-- Consecutive completions have places of their own. -/
theorem complAddr_apart {pi base : Nat} : base + 16 * (pi % 256) + 16 ≤ base + 16 * ((pi + 1) % 256) ∨
    base + 16 * ((pi + 1) % 256) + 16 ≤ base + 16 * (pi % 256) := by
  omega

/-- The end of command `id`, noted at its place in flight. -/
def markDone (id reason handle : Nat) (l : List Taken) : List Taken := l.map fun y => if y.id = id then { y with done := some (reason, handle) } else y

/-- The end of a command behind one that still runs is noted, and no more. -/
theorem completeId_behind {x : Taken} {xs : List Taken} {id : Nat} (reason handle : Nat) (hl : (s.ring b r).taken = x :: xs) (hx : x.done = none)
    (hid : x.id ≠ id) :
    s.completeId b r id reason handle = s.setRing b r { s.ring b r with taken := x :: markDone id reason handle xs } := by
  simp [State.completeId, hl, hid, flushTaken, hx, markDone]

/-- The state with both completions of the two commands in flight written, the earlier one's first. -/
def State.bothWritten (b r : Nat) (x y : Taken) (rx hx ry hy : Nat) (s : State) : State :=
  (s.writeCompletion b r { x with done := some (rx, hx) } rx hx).writeCompletion b r y ry hy

theorem completeId_first_of_two {x y : Taken} {ry hy : Nat} (rx hx : Nat) (hl : (s.ring b r).taken = [x, y]) (hid : x.id ≠ y.id)
    (hd : y.done = some (ry, hy)) :
    s.completeId b r x.id rx hx =
      (s.bothWritten b r x y rx hx ry hy).setRing b r { (s.bothWritten b r x y rx hx ry hy).ring b r with taken := [] } := by
  simp [State.completeId, hl, hid.symm, flushTaken, hd, State.bothWritten]

theorem only_completeId (id reason handle : Nat) (hr : r < ringCount b) :
    s.only [.dram, .rings, .rcd, .cyc] (complFlds b r) (s.completeId b r id reason handle) :=
  only_of (completeId_any ..) rfl fun g hg => get_completeId_apart s b r id reason handle hr g hg

theorem get_cringPi_bothWritten (x y : Taken) (rx hx ry hy : Nat) (hr : r < ringCount b) :
    (s.bothWritten b r x y rx hx ry hy).get (CRING_PI b r) = (s.get (CRING_PI b r) + 2) % 512 := by
  rw [State.bothWritten, writeCompletion_pi _ b r _ _ _ hr, writeCompletion_pi s b r _ _ _ hr]
  omega

/-- What both completions leave in DRAM, the second at `q`. -/
theorem dram_bothWritten (x y : Taken) (rx hx ry hy : Nat) (hr : r < ringCount b) (hodd : (s.ring b r).oddCi = false) :
    let m := (s.bothWritten b r x y rx hx ry hy).dram
    let q := s.get64 (CRING_BASE_LO b r) (CRING_BASE_HI b r) + 16 * ((s.get (CRING_PI b r) + 1) % 256)
    memBytes m (s.complAddr b r) 8 = bytesLE 8 x.tag ∧ memNat m (s.complAddr b r + 12) 2 = rx % 65536 ∧
      memBytes m q 8 = bytesLE 8 y.tag ∧ memNat m (q + 12) 2 = ry % 65536 ∧
      ∀ a, a < s.complAddr b r ∨ s.complAddr b r + 16 ≤ a → a < q ∨ q + 16 ≤ a → memByte m a = memByte s.dram a := by
  intro m q
  let x' : Taken := { x with done := some (rx, hx) }
  have hq : (s.writeCompletion b r x' rx hx).complAddr b r = q := complAddr_writeCompletion _ rx hx hr hodd
  have hapart : s.complAddr b r + 16 ≤ q ∨ q + 16 ≤ s.complAddr b r := by
    rw [complAddr_of_pi hodd]; exact complAddr_apart
  have hfirst : s.dramKept (s.complAddr b r) 16 (s.writeCompletion b r x' rx hx) := dramKept_writeCompletion _ rx hx
  have hsecond : (s.writeCompletion b r x' rx hx).dramKept q 16 (s.bothWritten b r x y rx hx ry hy) := by
    rw [← hq]; exact dramKept_writeCompletion y ry hy
  obtain ⟨htx, -, hrx, -⟩ := writeCompletion_reads (s := s) (b := b) (r := r) x' rx hx
  obtain ⟨hty, -, hry, -⟩ := writeCompletion_reads (s := s.writeCompletion b r x' rx hx) (b := b) (r := r) y ry hy
  rw [hq] at hty hry
  exact ⟨(memBytes_of_dramKept hsecond (by omega)).trans htx, (memNat_of_dramKept hsecond (by omega)).trans hrx, hty, hry,
    fun a h1 h2 => (hsecond a h2).trans (hfirst a h1)⟩

end Order

/-- Settles O23: an end behind a running command is only noted; the end of the earlier of two writes its entry and then the later one's. -/
theorem completionsGoOutInTheOrderTaken : Obligations.CompletionsGoOutInTheOrderTaken := by
  refine ⟨fun s b r x xs id reason handle hl hd hid => ?_, fun s b r x y rx hx ry hy hr hl hid hd hodd => ?_⟩
  · rw [completeId_behind reason handle hl hd hid]
    exact ⟨only_setRing .., by rw [ring_setRing_self]; rfl⟩
  · have hall := only_completeId (s := s) x.id rx hx hr
    obtain ⟨htx, hrx, hty, hry, hkept⟩ := dram_bothWritten x y rx hx ry hy hr hodd
    rw [completeId_first_of_two rx hx hl hid hd] at hall ⊢
    exact ⟨by rw [ring_setRing_self], get_cringPi_bothWritten x y rx hx ry hy hr, htx, hrx, hty, hry, hkept, hall⟩

/-! ### Taking an entry (R116, R120, R123, R127, R527) -/

section Taking
variable {b r opcode code mask : Nat} {e : Entry} {s v : State}

/-- A fitted block runs the operation of an entry whose reserved FLAGS bits are 0. -/
theorem runEntry_accepted (op : Cmd → State → State) (hn : s.notFitted b = false)
    (hf : e.flags.toNat % 4 + (e.flags.toNat &&& (mask &&& 0xFF00)) = e.flags.toNat) :
    s.runEntry b r opcode mask e op = op (s.enlist b r opcode e).1 (s.enlist b r opcode e).2 := by
  have hn' : (s.enlist b r opcode e).2.notFitted b = false := hn
  simp only [State.runEntry, hn', hf, Bool.false_eq_true, if_false, if_true]

/-- A free ring lets an entry be taken, fenced or not, that the block's chapter does not hold. -/
theorem mayRun_of_ringFree (h : s.ringFree b r) (hh : s.blockHolds b r opcode = false) (fence : Bool) : s.mayRun b r opcode fence = true := by
  obtain ⟨hen, hr, hused, hflight, hroom, hspaced⟩ := h
  simp [State.mayRun, hen, hr, hused, hflight, hroom, hspaced, hh]

/-- The state with the entry taken: the spacing runs and the command is in flight. -/
def State.entryTaken (b r opcode : Nat) (e : Entry) (s : State) : State := ((s.restSpacing b r opcode).enlist b r opcode e).2

theorem only_entryTaken : s.only [.rings] [] (s.entryTaken b r opcode e) :=
  only_trans (only_setRing s b r _) (only_setRing (s.restSpacing b r opcode) b r _)

theorem ring_restSpacing : (s.restSpacing b r opcode).ring b r = { s.ring b r with readyAt := s.nextReady b r opcode } :=
  ring_setRing_self s b r _

theorem complAddr_congr {u : State} (hl : u.ltc = s.ltc) (hseq : (u.ring b r).seq = (s.ring b r).seq) (hodd : (u.ring b r).oddCi = (s.ring b r).oddCi)
    (hpi : u.get (CRING_PI b r) = s.get (CRING_PI b r))
    (hbase : u.get64 (CRING_BASE_LO b r) (CRING_BASE_HI b r) = s.get64 (CRING_BASE_LO b r) (CRING_BASE_HI b r)) : u.complAddr b r = s.complAddr b r := by
  simp only [State.complAddr, complSlot_congr b r hl hseq hodd hpi, hbase]

theorem complAddr_entryTaken : (s.entryTaken b r opcode e).complAddr b r = s.complAddr b r := by
  have hring : (s.entryTaken b r opcode e).ring b r =
      { (s.restSpacing b r opcode).ring b r with
        taken := ((s.restSpacing b r opcode).ring b r).taken ++ [(s.restSpacing b r opcode).takenOf b r opcode e],
        nextId := ((s.restSpacing b r opcode).ring b r).nextId + 1 } := ring_setRing_self _ b r _
  rw [ring_restSpacing] at hring
  exact complAddr_congr (only_entryTaken.1 .ltc (by simp)) (by rw [hring]) (by rw [hring]) rfl rfl

/-- What `t` shows of the entry `e` that ring `r` took and ended in `s` with the reason `code` and the entry's own handle. -/
def State.entryEnded (b r code : Nat) (e : Entry) (s t : State) : Prop :=
  s.completed b r e code e.handle.toNat t ∧ s.dramKept (s.complAddr b r) 16 t ∧ s.only [.dram, .rings, .rcd, .cyc] (complFlds b r) t

/-- The entry taken by an idle ring and ended at once. -/
theorem entryEnded_finish (hr : r < ringCount b) (hl : (s.ring b r).taken = []) (hc : b * 256 + code < 2 ^ 16) :
    s.entryEnded b r code e (((s.restSpacing b r opcode).enlist b r opcode e).1.finish code (s.entryTaken b r opcode e)) := by
  have hl' : ((s.restSpacing b r opcode).ring b r).taken = [] := by rw [ring_restSpacing]; exact hl
  refine ⟨complTag_restSpacing (completed_completeId code e.handle.toNat hr rfl hc hl' rfl fun _ _ => rfl), ?_, ?_⟩
  · have hkept := dramKept_completeId (u := s.entryTaken b r opcode e) (b * 256 + code) e.handle.toNat hl' rfl
    rw [complAddr_entryTaken] at hkept
    exact hkept
  · exact only_trans (only_mono only_entryTaken (by simp) (by simp)) (only_completeId _ _ _ hr)

/-- A ready ring ends an entry whose operation ends it with `code`. -/
theorem entryEnded_runRow (h : s.ready b r 0 e) (hh : s.blockHolds b r opcode = false) (hc : b * 256 + code < 2 ^ 16) :
    s.entryEnded b r code e (s.runRow b r opcode 0 e fun c => c.finish code) := by
  have hfree := h.1
  obtain ⟨-, hr, -, hl, -, -⟩ := hfree
  rw [runRow_ready h opcode hh]
  exact entryEnded_finish hr hl hc

/-! ### CI moves on -/

theorem apart_ringCi (hr : r < ringCount b) : ∀ f ∈ complFlds b r, (RING_CI b r).apart f :=
  apart_complFlds (k := 0x14) hr rfl (by decide) (by decide)

/-- Another field of the ring's group does not see CI. -/
theorem get_setRingCi {n k : Nat} {g : Fld} (ha : g.addr = ringG b r + k) (hk : k ≠ 0x14) : (s.set (RING_CI b r) n).get g = s.get g :=
  get_set_ne s _ g n (.inl (by simp only [ha, RING_CI]; omega))

theorem complAddr_setRingCi (n : Nat) : (s.set (RING_CI b r) n).complAddr b r = s.complAddr b r := by
  have hring : (s.set (RING_CI b r) n).ring b r = s.ring b r := ring_of_rings (set_rings ..) b r
  refine complAddr_congr (set_ltc ..) (by rw [hring]) (by rw [hring]) (get_setRingCi (k := 0x18) rfl (by decide)) (get64_congr _ _ ?_ ?_)
  · exact reg_set_ne s n (by simp [CRING_BASE_LO, RING_CI])
  · exact reg_set_ne s n (by simp [CRING_BASE_HI, RING_CI])

/-- The end of an entry, measured from before CI moved on. -/
theorem entryEnded_of_setRingCi {n : Nat} {t : State} (h : (s.set (RING_CI b r) n).entryEnded b r code e t) :
    s.completed b r e code e.handle.toNat t ∧ s.dramKept (s.complAddr b r) 16 t ∧
      s.only [.dram, .rings, .rcd, .cyc] (RING_CI b r :: complFlds b r) t := by
  obtain ⟨hcompl, hkept, honly⟩ := h
  have hring : (s.set (RING_CI b r) n).ring b r = s.ring b r := ring_of_rings (set_rings ..) b r
  have hpi : (s.set (RING_CI b r) n).get (CRING_PI b r) = s.get (CRING_PI b r) := get_setRingCi (k := 0x18) rfl (by decide)
  refine ⟨?_, ?_, ?_⟩
  · simpa only [State.completed, State.complTag, complAddr_setRingCi, hring, hpi] using hcompl
  · rw [complAddr_setRingCi] at hkept
    exact fun a ha => (hkept a ha).trans (by rw [set_dram])
  · exact only_trans (only_mono (only_set s n (by simp [RING_CI])) (by simp) (by simp)) (only_mono honly (fun _ h => h) (by simp +contextual))

/-- Address of the entry at CI. -/
def State.nextEntryAddr (s : State) (b r : Nat) : Nat := s.get64 (RING_BASE_LO b r) (RING_BASE_HI b r) + 64 * (s.get (RING_CI b r) % 256)

theorem takeEntry_held (hodd : (s.ring b r).odd = false) (he : s.entryAt (s.nextEntryAddr b r) = (opcode, e))
    (hm : s.mayTake b r opcode (bitAt e.flags.toNat 1) = false) : s.takeEntry b r = s := by
  unfold State.nextEntryAddr at he
  simp [State.takeEntry, hodd, he, hm]

theorem takeEntry_taken (hodd : (s.ring b r).odd = false) (he : s.entryAt (s.nextEntryAddr b r) = (opcode, e))
    (hm : s.mayTake b r opcode (bitAt e.flags.toNat 1) = true) :
    s.takeEntry b r = ((s.set (RING_CI b r) (s.get (RING_CI b r) + 1)).restSpacing b r opcode).runEntry b r opcode (entryOp b opcode).1 e (entryOp b opcode).2 := by
  unfold State.nextEntryAddr at he
  simp [State.takeEntry, hodd, he, hm]

/-- A ready ring that takes a NOP moves CI on and ends it with OK. -/
theorem takeEntry_nop (h : s.ready b r 0 e) (hh : s.blockHolds b r 0 = false) (hodd : (s.ring b r).odd = false)
    (hp : s.get (RING_PI b r) ≠ s.get (RING_CI b r)) (he : s.entryAt (s.nextEntryAddr b r) = (0, e)) (hc : b * 256 + 0x00 < 2 ^ 16) :
    (s.takeEntry b r).get (RING_CI b r) = (s.get (RING_CI b r) + 1) % 512 ∧
      s.completed b r e 0x00 e.handle.toNat (s.takeEntry b r) ∧ s.dramKept (s.complAddr b r) 16 (s.takeEntry b r) ∧
      s.only [.dram, .rings, .rcd, .cyc] (RING_CI b r :: complFlds b r) (s.takeEntry b r) := by
  obtain ⟨hfree, hfit, hflags⟩ := h
  have hm : s.mayTake b r 0 (bitAt e.flags.toNat 1) = true := by simp [State.mayTake, hp, mayRun_of_ringFree hfree hh]
  obtain ⟨-, hr, -, hl, -, -⟩ := hfree
  let v := s.set (RING_CI b r) (s.get (RING_CI b r) + 1)
  have hrun : s.takeEntry b r = ((v.restSpacing b r 0).enlist b r 0 e).1.finish 0x00 (v.entryTaken b r 0 e) := by
    rw [takeEntry_taken hodd he hm]
    exact runEntry_accepted _ hfit hflags
  have hlv : (v.ring b r).taken = [] := (congrArg Ring.taken (ring_of_rings (set_rings ..) b r)).trans hl
  have hended : v.entryEnded b r 0x00 e (s.takeEntry b r) := hrun ▸ entryEnded_finish hr hlv hc
  have hfromCi := entryEnded_of_setRingCi hended
  obtain ⟨-, -, -, hkept, -⟩ := hended
  refine ⟨?_, hfromCi⟩
  rw [hkept _ (apart_ringCi hr)]
  exact get_set_self s _ _ (by simp [RING_CI])

end Taking

theorem execUnknownOpcode_eq {blk : Fin 21} {ring : Fin 17} {opcode : BitVec 16} {e : Entry} {s : State} (h0 : opcode.toNat ≠ 0)
    (hn : opOf blk.val opcode.toNat = none) :
    exec (.unknownOpcode blk ring opcode e) s = .next (s.runRow blk.val ring.val opcode.toNat 0 e opUnknown) := by
  change execUnknownOpcode blk ring opcode e s = _
  simp [execUnknownOpcode, h0, hn]

/-- Settles O24: NOP and an unknown opcode end their entry at once, and COMMAND_TAKE runs the one at CI behind the move of CI. -/
theorem entriesAreTakenAndNopsAndUnknownOpcodesComplete : Obligations.EntriesAreTakenAndNopsAndUnknownOpcodesComplete := by
  have hcode (blk : Fin 21) {code : Nat} (h : code < 256) : blk.val * 256 + code < 2 ^ 16 := by omega
  refine ⟨fun blk ring e s h hh => ⟨_, rfl, ?_⟩, fun blk ring opcode e s h hh h0 hn => ⟨_, execUnknownOpcode_eq h0 hn, ?_⟩,
    fun blk ring e s h hh hodd hp he => ⟨_, rfl, ?_⟩, fun blk ring opcode e s hodd he hm => ⟨_, rfl, ?_⟩⟩
  · exact entryEnded_runRow h hh (hcode blk (by decide))
  · exact entryEnded_runRow h hh (hcode blk (by decide))
  · exact takeEntry_nop h hh hodd hp he (hcode blk (by decide))
  · exact takeEntry_held hodd he hm

end Sys2Proof.Machine
end

section
/-! PROOFS. The statements of spec/06_time_base.md: what a REF edge with no command waiting does (R133, log entry 22), and what the
module holds at reset (R7, R133, Table 3-4). -/

namespace Sys2Proof.Machine

/-! ### A REF edge (R133) -/

/-- What changes at most parts, and no register, keeps every register. -/
theorem Upd.keeps {P : List Comp} {s t : State} (h : Upd P (some []) s t) : s.keeps P [] t :=
  ⟨h.same, fun a _ => h.reg a fun hw => absurd (hw _ rfl) (by simp), h.part, h.pending⟩

theorem step_of_no_command {s : State} (h : s.pending = []) : step s = .next s.refEdge := by
  simp only [step, h]

/-- The four modes that hold LTC (Table 3-4), and every other. -/
theorem refEdge_ltc (s : State) :
    s.refEdge.ltc = if s.sys.mode = .por ∨ s.sys.mode = .osc ∨ s.sys.mode = .resetHeld ∨ s.sys.mode = .standby then s.ltc else s.ltc + 8 := by
  simp only [State.refEdge, Bool.or_eq_true, decide_eq_true_eq, or_assoc]
  split <;> rfl

/-- Settles O2: the step is `refEdge`, which changes LTC alone. -/
theorem idleStepCountsEightNanoseconds : Obligations.IdleStepCountsEightNanoseconds :=
  fun s h => ⟨s.refEdge, step_of_no_command h, (State_refEdge_mut s).keeps, refEdge_ltc s⟩

/-! ### Registers at reset (R7) -/

/-- The register file of `State.reset` lists the factory's two registers alone. -/
theorem reg_reset {a : Nat} (hlba : a ≠ UPD_SLOT_LBA_LO 1) (hblks : a ≠ UPD_SLOT_BLKS) : State.reset.reg a = resetOf a := by
  have hnone : tget State.reset.regs a = none := by simp [State.reset, tget_cons, hlba, hblks]
  simp [State.reg, hnone]

theorem loaded_reset (r : Nat) : State.reset.loaded r = false := by
  have hloaded : State.reset.get STR_STATUS.LOADED = 0 := by decide
  simp [State.loaded, bitAt, hloaded]

/-- No window above 0xD4 holds a register (Table 1-1). -/
theorem resetOf_above {a : Nat} (h : 0xD5 ≤ windowOf a) : resetOf a = 0#32 := by
  have hw : windowRegs a = [] := by
    unfold windowOf at h
    unfold windowRegs
    split
    case h_22 => rfl
    all_goals omega
  simp [resetOf, findDesc, hw]

/-- Bit 0 of a control register is 0 in every block's table; a number past the blocks' has no window. -/
theorem enabled_reset (b : Nat) : State.reset.enabled b = false := by
  by_cases hb : b < 0x15
  · have hblocks : ∀ x < 0x15, State.reset.enabled x = false := by decide
    exact hblocks b hb
  · have hbase : blkBase b = 0xC0000000 + b * 0x1000000 := by
      rw [blkBase, if_neg (by omega), if_neg (by omega)]
    have hreg : State.reset.reg (blkBase b) = 0#32 := by
      rw [reg_reset (by simp only [UPD_SLOT_LBA_LO]; omega) (by simp only [UPD_SLOT_BLKS]; omega), resetOf_above (by simp only [windowOf]; omega)]
    simp [State.enabled, State.getB, State.get, enableFld, hreg, bitsOf]

/-- Settles O3: nothing but the factory's two registers is listed, and the tables give the values of the rest. -/
theorem resetReadsTheResetColumn : Obligations.ResetReadsTheResetColumn := by
  refine ⟨rfl, rfl, rfl, rfl, rfl, rfl, rfl, rfl, loaded_reset, enabled_reset, fun a => reg_reset, ?_⟩
  decide

end Sys2Proof.Machine
end

section
/-! PROOFS. The statements of spec/07_machine_inputs.md: what a latching read answers and keeps for its core (R152, R157, R161, R162),
analog samples, shunts and flow windows (R150 to R155, R162), and sensor supplies, analog outputs and digital inputs (R163 to R165). -/

namespace Sys2Proof.Machine

/-! ### One operation after another -/

theorem only_seq {s t u : State} {ps qs : List Comp} {fs gs : List Fld} (h : s.only ps fs t) (h' : t.only qs gs u) : s.only (ps ++ qs) (fs ++ gs) u :=
  only_trans (only_mono h (fun _ hp => List.mem_append_left _ hp) fun _ hf => List.mem_append_left _ hf)
    (only_mono h' (fun _ hp => List.mem_append_right _ hp) fun _ hf => List.mem_append_right _ hf)

/-- A raise behind operations outside EVT: what a statement asks of the source and of the rest. -/
theorem raise_behind {s u : State} {ps : List Comp} {fs : List Fld} (n : Nat) (h : s.only ps fs u) (hl : Comp.ltc ∉ ps)
    (hw : ∀ f ∈ fs, windowOf f.addr ≠ 0xC1) : s.raised n (u.raise n) ∧ s.only (ps ++ [.rcd, .cyc]) (fs ++ raiseFlds n) (u.raise n) :=
  ⟨raised_of_only h hl hw (raised_raise u n), only_seq h (only_raise u n)⟩

theorem get_raise_outside (u : State) (n : Nat) {g : Fld} (hg : windowOf g.addr ≠ 0xC1) : (u.raise n).get g = u.get g :=
  get_raise_ne u g (notMem_raiseRegs rfl hg)

theorem getB_raise_outside (u : State) (n : Nat) {g : Fld} (hg : windowOf g.addr ≠ 0xC1) : (u.raise n).getB g = u.getB g :=
  getB_of_get (get_raise_outside u n hg)

/-- The state with other facts behind INP's registers. -/
def State.withInp (x : InpState) (s : State) : State := { s with inp := x }

theorem only_withInp (x : InpState) (s : State) : s.only [.inp] [] (s.withInp x) :=
  ⟨fun p hp => by cases p <;> simp [State.same, State.withInp] at hp ⊢, fun _ _ => rfl, rfl, rfl⟩

section WithInp
variable (x : InpState) (s : State)

@[simp] theorem inp_withInp : (s.withInp x).inp = x := rfl
@[simp] theorem reg_withInp (a : Nat) : (s.withInp x).reg a = s.reg a := rfl
@[simp] theorem get_withInp (f : Fld) : (s.withInp x).get f = s.get f := rfl
@[simp] theorem getB_withInp (f : Fld) : (s.withInp x).getB f = s.getB f := rfl
@[simp] theorem set_withInp (f : Fld) (v : Nat) : (s.withInp x).set f v = (s.set f v).withInp x := rfl
@[simp] theorem withInp_withInp (y : InpState) : (s.withInp x).withInp y = s.withInp y := rfl

end WithInp

theorem windowOf_inp {a : Nat} (hl : 0xC4000000 ≤ a) (hu : a < 0xC5000000) : windowOf a ≠ 0xC1 := by
  simp only [windowOf]; omega

/-- INP runs by its ENABLE and the IO region's LOADED. -/
theorem inpOn_of_only {s t : State} {ps : List Comp} {fs : List Fld} (h : s.only ps fs t) (hf : ∀ f ∈ fs, f.addr ≠ INP_CTRL ∧ f.addr ≠ STR_STATUS) :
    t.inpOn = s.inpOn := by
  have hen : t.getB (enableFld 4) = s.getB (enableFld 4) := getB_of_get (h.2.1 _ fun f hm => .inl (hf f hm).1.symm)
  have hld : t.get STR_STATUS.LOADED = s.get STR_STATUS.LOADED := h.2.1 _ fun f hm => .inl (hf f hm).2.symm
  simp only [State.inpOn, State.enabled, State.loaded, hen, hld]

/-! ### Sensor supplies (R163) -/

/-- The bits of INP_SSUP for supply `i`: in limit, and off by a fault. -/
def ssupLimitBit (i : Nat) : Fld := ⟨INP_SSUP, 16 + i, 1⟩
def ssupFaultBit (i : Nat) : Fld := ⟨INP_SSUP, 8 + i, 1⟩

theorem window_ssup : windowOf INP_SSUP ≠ 0xC1 := by decide

theorem isFlag_ssupLimitBit {i : Nat} (hi : i < 6) : IsFlag (ssupLimitBit i) :=
  ⟨rfl, by simp only [ssupLimitBit]; omega, window_ssup⟩

theorem isFlag_ssupFaultBit {i : Nat} (hi : i < 6) : IsFlag (ssupFaultBit i) :=
  ⟨rfl, by simp only [ssupFaultBit]; omega, window_ssup⟩

section Supplies
variable {i : Nat} {s : State}

theorem supplyLimit_shows {ovr : Bool} (hi : i < 6) (x : InpState) :
    let t := (s.withInp x).setB (ssupLimitBit i) ovr
    t.getB (ssupLimitBit i) = ovr ∧ t.inp = x ∧ s.only [.inp] [ssupLimitBit i] t :=
  ⟨getB_setB_self _ _ ovr (isFlag_ssupLimitBit hi).top rfl, setB_inp .., only_seq (only_withInp x s) (only_setB_flag (isFlag_ssupLimitBit hi) _ ovr)⟩

theorem execSsupLimit_changes {i : Fin 6} {ovr : Bool} (hon : s.supplyOn i.val = true) (hne : ovr ≠ bitAt (s.get INP_SSUP.LIMIT) i.val) :
    exec (.ssupLimit i ovr) s = .next ((s.withInp { s.inp with
      limitAt := tput s.inp.limitAt i.val s.now, supPast := s.inp.supPast ++ [(i.val, s.now, s.supplyBad i.val)] }).setB (ssupLimitBit i.val) ovr) := by
  change execSsupLimit i ovr s = _
  rw [execSsupLimit, if_pos (by simp [hon, hne])]
  rfl

/-- What a fault leaves in INP_SSUP. -/
def State.ssupFaulted (i : Nat) (s : State) : State := (s.setB (ssupLimitBit i) false).setB (ssupFaultBit i) true

theorem apart_ssupBits {i j : Nat} (hi : i < 6) : (ssupLimitBit j).apart (ssupFaultBit i) :=
  .inr (.inr (by simp only [ssupLimitBit, ssupFaultBit]; omega))

theorem only_ssupFaulted (hi : i < 6) (s : State) : s.only [] [ssupLimitBit i, ssupFaultBit i] (s.ssupFaulted i) :=
  only_seq (only_setB_flag (isFlag_ssupLimitBit hi) s false) (only_setB_flag (isFlag_ssupFaultBit hi) _ true)

theorem ssupFaulted_shows (hi : i < 6) (s : State) : (s.ssupFaulted i).getB (ssupLimitBit i) = false ∧
    (s.ssupFaulted i).getB (ssupFaultBit i) = true ∧ (s.ssupFaulted i).get INP_SSUP.EN = s.get INP_SSUP.EN := by
  refine ⟨?_, getB_setB_self _ _ true (isFlag_ssupFaultBit hi).top rfl, (only_ssupFaulted hi s).2.1 _ ?_⟩
  · refine (getB_of_get (get_setB_apart _ _ _ true (apart_ssupBits hi) (isFlag_ssupFaultBit hi).top)).trans ?_
    exact getB_setB_self _ _ false (isFlag_ssupLimitBit hi).top rfl
  · simp only [List.mem_cons, List.not_mem_nil, or_false, forall_eq_or_imp, forall_eq]
    exact ⟨.inr (.inl (by simp only [INP_SSUP.EN, ssupLimitBit]; omega)), .inr (.inl (by simp only [INP_SSUP.EN, ssupFaultBit]; omega))⟩

theorem execSsupFault_due {i : Fin 6} (hon : s.supplyOn i.val = true) (hlim : bitAt (s.get INP_SSUP.LIMIT) i.val = true)
    (hdue : 10000000 ≤ s.since (tgetD s.inp.limitAt i.val 0)) :
    exec (.ssupFault i) s = .next (((s.withInp { s.inp with
      supOff := putBits s.inp.supOff i.val 1 1, supPast := s.inp.supPast ++ [(i.val, s.now, true)] }).ssupFaulted i.val).raise 360) := by
  have hbad : s.supplyBad i.val = true := by simp [State.supplyBad, hlim]
  change execSsupFault i s = _
  rw [execSsupFault, if_pos (by simp [hon, hlim, hdue]), State.noteSupply, hbad]
  rfl

/-- A supply whose fault bit is set is off. -/
theorem supplyOn_off {x : Nat} (h : s.inp.supOff = putBits x i 1 1) : s.supplyOn i = false := by
  have hbit : bitAt s.inp.supOff i = true := by
    rw [h, bitAt_eq_testBit, testBit_putBits]; simp
  simp [State.supplyOn, hbit]

/-! ### A write of INP_SSUP (R163) -/

theorem noteSupplies (l : List Nat) (s : State) : l.foldl (fun (u : State) i => u.noteSupply i) s =
    s.withInp { s.inp with supPast := s.inp.supPast ++ l.map fun k => (k, s.now, s.supplyBad k) } := by
  induction l generalizing s with
  | nil => simp [State.withInp]
  | cons i l ih =>
    rw [List.foldl_cons, ih, List.map_cons, ← List.singleton_append, ← List.append_assoc]
    rfl

/-- The three fields of INP_SSUP set. -/
def State.showSsup (en flt lim : Nat) (s : State) : State := ((s.set INP_SSUP.FAULT flt).set INP_SSUP.EN en).set INP_SSUP.LIMIT lim

/-- What INP keeps behind INP_SSUP after a write of `value`. -/
def State.ssupKept (value : Word) (s : State) : InpState :=
  { s.inp with
    supOff := s.inp.supOff &&& (63 - (value.toNat % 64 &&& (63 - s.get INP_SSUP.EN)))
    supPast := s.inp.supPast ++ (List.range 6).map fun k => (k, s.now, s.supplyBad k) }

theorem writeSsup_eq (value : Word) (s : State) : s.writeSsup value = (s.showSsup (value.toNat % 64)
    (s.get INP_SSUP.FAULT &&& (63 - bitsOf value.toNat 8 6)) (s.get INP_SSUP.LIMIT &&& (value.toNat % 64))).withInp (s.ssupKept value) := by
  have hlim (v : Nat) : (s.set INP_SSUP.FAULT v).get INP_SSUP.LIMIT = s.get INP_SSUP.LIMIT := get_set_apart _ _ _ _ (.inr (by decide)) (by decide)
  have hinp (f : Fld) (v : Nat) (u : State) : (u.set f v).inp = u.inp := set_inp ..
  unfold State.writeSsup
  rw [noteSupplies]
  change State.withInp _ (State.set _ _ _) = _
  simp only [set_withInp, get_withInp, hlim, withInp_withInp, inp_withInp]
  rfl

theorem only_showSsup (en flt lim : Nat) (s : State) : s.only [] [INP_SSUP.FAULT, INP_SSUP.EN, INP_SSUP.LIMIT] (s.showSsup en flt lim) :=
  only_seq (only_seq (only_set s flt (by decide)) (only_set _ en (by decide))) (only_set _ lim (by decide))

theorem showSsup_shows (en flt lim : Nat) (s : State) : (s.showSsup en flt lim).get INP_SSUP.EN = en % 64 ∧
    (s.showSsup en flt lim).get INP_SSUP.FAULT = flt % 64 ∧ (s.showSsup en flt lim).get INP_SSUP.LIMIT = lim % 64 := by
  refine ⟨?_, ?_, get_set_self _ _ lim (by decide)⟩
  · rw [State.showSsup, get_set_apart _ _ _ _ (.inr (by decide)) (by decide)]
    exact get_set_self _ _ en (by decide)
  · rw [State.showSsup, get_set_apart _ _ _ _ (.inr (by decide)) (by decide), get_set_apart _ _ _ _ (.inr (by decide)) (by decide)]
    exact get_set_self _ _ flt (by decide)

theorem execSsupEnable_open {core : Fin 8} {value : Word} (hc : s.closed INP_SSUP = false) :
    exec (.ssupEnable core value) s = .next (State.writeSsup value { s with access := .none }) := by
  have hspecial (u : State) : u.specialWrite INP_SSUP value = some (u.writeSsup value) := rfl
  refine congrArg Host.Outcome.next ((hostWrite_open rfl hc).trans ?_)
  simp only [State.regWrite, hspecial]

theorem and_mod_of_lt {a b : Nat} (h : a < 64) : (a &&& b) % 64 = a &&& b := Nat.mod_eq_of_lt (Nat.lt_of_le_of_lt Nat.and_le_left h)

theorem testBit_63_sub {r i : Nat} (hr : r < 64) (hi : i < 6) : (63 - r).testBit i = !r.testBit i := by
  have h : 63 - r = 2 ^ 6 - (r + 1) := by omega
  rw [h, Nat.testBit_two_pow_sub_succ hr]
  simp [hi]

/-- A bit of EN written from 0 to 1 takes back that its supply is off. -/
theorem bitAt_supOff_risen {off old new : Nat} (hi : i < 6) (ho : bitAt old i = false) (hn : bitAt new i = true) (hlt : old < 64) (hnew : new < 64) :
    bitAt (off &&& (63 - (new &&& (63 - old)))) i = false := by
  rw [bitAt_eq_testBit] at ho hn ⊢
  have hrise : (new &&& (63 - old)) < 64 := Nat.lt_of_le_of_lt Nat.and_le_left hnew
  simp [testBit_63_sub hrise hi, testBit_63_sub hlt hi, ho, hn]

theorem bitAt_mod_64 {v : Nat} (hi : i < 6) : bitAt (v % 64) i = bitAt v i := by
  have h : v % 64 = v % 2 ^ 6 := rfl
  rw [bitAt_eq_testBit, bitAt_eq_testBit, h, Nat.testBit_mod_two_pow]
  simp [hi]

theorem writeSsup_shows {value : Word} (hi : i < 6) (hon : s.inpOn = true) (hold : bitAt (s.get INP_SSUP.EN) i = false)
    (hnew : bitAt value.toNat i = true) :
    let t := s.writeSsup value
    t.supplyOn i = true ∧ t.get INP_SSUP.EN = value.toNat % 64 ∧ t.get INP_SSUP.FAULT = s.get INP_SSUP.FAULT &&& (63 - bitsOf value.toNat 8 6) ∧
      t.get INP_SSUP.LIMIT = s.get INP_SSUP.LIMIT &&& (value.toNat % 64) ∧ t.inp = s.ssupKept value ∧
      s.only [.inp] [INP_SSUP.FAULT, INP_SSUP.EN, INP_SSUP.LIMIT] t := by
  rw [writeSsup_eq]
  generalize hu : s.showSsup _ _ _ = u
  obtain ⟨hen, hflt, hlim⟩ := showSsup_shows (value.toNat % 64) (s.get INP_SSUP.FAULT &&& (63 - bitsOf value.toNat 8 6))
    (s.get INP_SSUP.LIMIT &&& (value.toNat % 64)) s
  have hshow := only_showSsup (value.toNat % 64) (s.get INP_SSUP.FAULT &&& (63 - bitsOf value.toNat 8 6))
    (s.get INP_SSUP.LIMIT &&& (value.toNat % 64)) s
  rw [hu] at hen hflt hlim hshow
  rw [Nat.mod_mod] at hen
  rw [and_mod_of_lt (bitsOf_lt ..)] at hflt hlim
  have hboth : s.only [.inp] [INP_SSUP.FAULT, INP_SSUP.EN, INP_SSUP.LIMIT] (u.withInp (s.ssupKept value)) := only_seq hshow (only_withInp _ u)
  have hon' : (u.withInp (s.ssupKept value)).inpOn = true := (inpOn_of_only hboth (by decide)).trans hon
  have hoff : bitAt (s.ssupKept value).supOff i = false :=
    bitAt_supOff_risen hi hold (by rwa [bitAt_mod_64 hi]) (bitsOf_lt ..) (Nat.mod_lt _ (by decide))
  refine ⟨?_, by rw [get_withInp, hen], by rw [get_withInp, hflt], by rw [get_withInp, hlim], rfl, hboth⟩
  simp [State.supplyOn, hon', hen, hoff, bitAt_mod_64 hi, hnew]

end Supplies

/-! ### Analog outputs and digital inputs (R164, R165) -/

theorem isFlag_aoutFault (n : Nat) : IsFlag (INP_AOUT.FAULT n) :=
  ⟨rfl, Nat.le_of_ble_eq_true rfl, windowOf_inp (by simp only [INP_AOUT.FAULT, INP_AOUT]; omega) (by simp only [INP_AOUT.FAULT, INP_AOUT]; omega)⟩

theorem execAoutFault_driven {n : Fin 8} {s : State} (hon : s.inpOn = true) (hen : s.getB (INP_AOUT.EN n.val) = true)
    (hf : s.getB (INP_AOUT.FAULT n.val) = false) : exec (.aoutFault n) s = .next ((s.setB (INP_AOUT.FAULT n.val) true).raise 361) := by
  change execAoutFault n s = _
  rw [execAoutFault, if_pos (by simp [hon, hen, hf])]

/-- The level of digital input `n` in INP_DIN. -/
def dinLevel (n : Nat) : Fld := ⟨INP_DIN, n, 1⟩

theorem window_din : windowOf INP_DIN ≠ 0xC1 := by decide

theorem isFlag_dinLevel {n : Nat} (hn : n < 16) : IsFlag (dinLevel n) :=
  ⟨rfl, by simp only [dinLevel]; omega, window_din⟩

theorem dinIrq_ne_din : INP_DIN_IRQ ≠ INP_DIN := by decide

section Din
variable {n : Fin 16} {rise : Bool} {held : Nat} {s : State}

/-- INP_DIN_IRQ selects the edge. -/
def State.dinSelected (n : Nat) (rise : Bool) (s : State) : Bool := bitAt (s.get (if rise then INP_DIN_IRQ.RISE else INP_DIN_IRQ.FALL)) n

theorem execDinEdge_lasting (hon : s.inpOn = true) (hne : s.getB (dinLevel n.val) ≠ rise)
    (hheld : 20 + 1000 * s.inpGet INP_DIN_CFG.DEB (s.now - 1000 * held) ≤ held) :
    exec (.dinEdge n ⟨rise, held⟩) s =
      .next (if s.dinSelected n.val rise then (s.setB (dinLevel n.val) rise).raise 362 else s.setB (dinLevel n.val) rise) := by
  have hirq (g : Fld) (hg : g.addr = INP_DIN_IRQ) : (s.setB (dinLevel n.val) rise).get g = s.get g :=
    get_setB_apart _ _ _ _ (.inl (hg ▸ dinIrq_ne_din)) (isFlag_dinLevel n.isLt).top
  have hsel : (s.setB (dinLevel n.val) rise).dinSelected n.val rise = s.dinSelected n.val rise :=
    congrArg (bitAt · n.val) (hirq _ (by cases rise <;> rfl))
  have hkept : ¬ ((!s.inpOn || decide (s.getB (dinLevel n.val) = rise) || decide (held < 20 + 1000 * s.inpGet INP_DIN_CFG.DEB (s.now - 1000 * held))) = true) := by
    simp [hon, hne, hheld]
  rw [← hsel]
  change execDinEdge n ⟨rise, held⟩ s = _
  exact if_neg hkept

theorem execDinEdge_ignored
    (h : s.getB (dinLevel n.val) = rise ∨ held < 20 + 1000 * s.inpGet INP_DIN_CFG.DEB (s.now - 1000 * held)) :
    exec (.dinEdge n ⟨rise, held⟩) s = .next s := by
  have hign : (!s.inpOn || decide (s.getB (dinLevel n.val) = rise) || decide (held < 20 + 1000 * s.inpGet INP_DIN_CFG.DEB (s.now - 1000 * held))) = true := by
    rcases h with h | h <;> simp [h]
  exact if_pos hign

theorem dinEdge_shows (hon : s.inpOn = true) (hne : s.getB (dinLevel n.val) ≠ rise)
    (hheld : 20 + 1000 * s.inpGet INP_DIN_CFG.DEB (s.now - 1000 * held) ≤ held) :
    ∃ t, exec (.dinEdge n ⟨rise, held⟩) s = .next t ∧ t.getB (dinLevel n.val) = rise ∧ (s.dinSelected n.val rise = true → s.raised 362 t) ∧
      (s.dinSelected n.val rise = false → s.only [] [dinLevel n.val] t) ∧ s.only [.rcd, .cyc] (dinLevel n.val :: raiseFlds 362) t := by
  have hflag := isFlag_dinLevel n.isLt
  have hset := only_setB_flag hflag s rise
  have hlevel : (s.setB (dinLevel n.val) rise).getB (dinLevel n.val) = rise := getB_setB_self s _ rise hflag.top rfl
  obtain ⟨hraised, honly⟩ := raise_behind 362 hset (by simp) (by simp [hflag.window])
  refine ⟨_, execDinEdge_lasting hon hne hheld, ?_⟩
  cases hsel : s.dinSelected n.val rise with
  | true => exact ⟨(getB_raise_outside _ _ hflag.window).trans hlevel, fun _ => hraised, fun h => absurd h (by decide), honly⟩
  | false => exact ⟨hlevel, fun h => absurd h (by decide), fun _ => hset, only_mono hset (by simp) (by simp)⟩

end Din

/-! ### Disabling INP (R163) -/

theorem inpDisable_shows (s : State) : s.inpDisable.getB INP_CTRL.ENABLE = false ∧ s.inpDisable.get INP_SSUP.LIMIT = 0 ∧
    s.only [] [INP_CTRL.ENABLE, INP_SSUP.LIMIT] s.inpDisable := by
  refine ⟨?_, get_set_self _ _ 0 (by decide), only_seq (only_set s _ (by decide)) (only_set _ 0 (by decide))⟩
  exact (getB_of_get (get_set_apart _ _ _ 0 (.inl (by decide)) (by decide))).trans (getB_setB_self s _ false (by decide) rfl)

/-- Settles O30: each command is a write of its own bits of INP's registers, and a raise behind it where the statement asks for one. -/
theorem sensorSuppliesOutputsAndDigitalInputsFollowR163ToR165 : Obligations.SensorSuppliesOutputsAndDigitalInputsFollowR163ToR165 := by
  refine ⟨fun i ovr s hon hne => ⟨_, execSsupLimit_changes hon hne, supplyLimit_shows i.isLt _⟩, fun i s hon hlim hdue => ?_,
    fun core value i s hc hon hold hnew => ?_, fun n s hon hen hf => ?_,
    fun n rise held s hon hne hheld => dinEdge_shows hon hne hheld, fun n rise held s h => ⟨s, execDinEdge_ignored h, rfl⟩, fun s h => ?_⟩
  · obtain ⟨hlimit, hfault, hen⟩ := ssupFaulted_shows i.isLt (s.withInp { s.inp with
      supOff := putBits s.inp.supOff i.val 1 1, supPast := s.inp.supPast ++ [(i.val, s.now, true)] })
    have hlf := isFlag_ssupLimitBit i.isLt
    have hff := isFlag_ssupFaultBit i.isLt
    obtain ⟨hraised, honly⟩ := raise_behind 360 (only_seq (only_withInp _ s) (only_ssupFaulted i.isLt _)) (by simp) (by simp [hlf.window, hff.window])
    have hinp (x : InpState) : (((s.withInp x).ssupFaulted i.val).raise 360).inp = x := by
      rw [raise_inp, State.ssupFaulted, setB_inp, setB_inp]; rfl
    refine ⟨_, execSsupFault_due hon hlim hdue, supplyOn_off (congrArg InpState.supOff (hinp _)), hinp _, ?_, ?_, ?_, hraised, honly⟩
    · exact (getB_raise_outside _ _ hlf.window).trans hlimit
    · exact (getB_raise_outside _ _ hff.window).trans hfault
    · exact (get_raise_outside _ _ (by decide)).trans hen
  · obtain ⟨hsup, hen, hflt, hlim, hinp, honly⟩ := writeSsup_shows (s := { s with access := .none }) i.isLt hon hold hnew
    exact ⟨_, execSsupEnable_open hc, hsup, hen, hflt, hlim, hinp, only_mono (only_of_answered honly) (by simp) (by simp)⟩
  · have hflag := isFlag_aoutFault n.val
    obtain ⟨hraised, honly⟩ := raise_behind 361 (only_setB_flag hflag s true) (by simp) (by simp [hflag.window])
    exact ⟨_, execAoutFault_driven hon hen hf, (getB_raise_outside _ _ hflag.window).trans (getB_setB_self s _ true hflag.top rfl), hraised, honly⟩
  · exact ⟨s.inpDisable, congrArg Host.Outcome.next (if_pos h), inpDisable_shows s⟩

/-! ### The filter and what a sample publishes (R152, R155) -/

theorem next_ainFrames (ovs : Nat) (l : List (Nat × Nat)) (a : Ain) : (ainFrames ovs l a).next = a.next := by
  induction l generalizing a with
  | nil => rfl
  | cons x l ih => exact ih _

theorem ainCode_lt (y : Nat) : ainCode y < 65536 := by
  simp only [ainCode, satTo]; split <;> omega

theorem b2n_le (b : Bool) : b2n b ≤ 1 := by cases b <;> decide

/-- CODE and FLAGS of a sample fit their fields. -/
theorem ainNextCode_lt (s : State) (n : Nat) (frames : List Nat) : s.ainNextCode n frames < 65536 := by
  unfold State.ainNextCode
  split
  · decide
  · exact ainCode_lt _

theorem ainFlags_lt (s : State) (n code : Nat) : s.ainFlags n code < 16 := by
  have h3 := b2n_le (s.ain n).shunt
  have h2 := b2n_le (s.ratioLost n)
  have h1 := b2n_le (decide (s.inpGet (INP_AIN_LIM.HI n) (s.frameStart (s.ain n).next) < code))
  have h0 := b2n_le (decide (code < s.inpGet (INP_AIN_LIM.LO n) (s.frameStart (s.ain n).next)))
  simp only [State.ainFlags]
  omega

/-- The fields a sample shows. -/
def ainFlds (n : Nat) : List Fld := [INP_AIN_RAW.CODE n, INP_AIN_RAW.FLAGS n, INP_AIN_RAW.SEQ n, wordAt (INP_AIN_VAL n)]

/-- They lie in the two registers of the input's sample. -/
theorem addr_ainFlds {n : Nat} {f : Fld} (hf : f ∈ ainFlds n) : f.addr = INP_AIN_RAW n ∨ f.addr = INP_AIN_VAL n := by
  simp only [ainFlds, List.mem_cons, List.not_mem_nil, or_false] at hf
  rcases hf with rfl | rfl | rfl | rfl
  · exact .inl rfl
  · exact .inl rfl
  · exact .inl rfl
  · exact .inr rfl

theorem ain_bounds (n : Nat) : ∀ a ∈ [INP_AIN_RAW n, INP_AIN_VAL n, INP_AIN_FLT n], 0xC4001000 ≤ a ∧ a < 0xC4001600 := by
  simp only [List.mem_cons, List.not_mem_nil, or_false, forall_eq_or_imp, forall_eq, INP_AIN_RAW, INP_AIN_VAL, INP_AIN_FLT]
  omega

theorem ainFlds_bounds {n : Nat} {f : Fld} (hf : f ∈ ainFlds n) : 0xC4001000 ≤ f.addr ∧ f.addr < 0xC4001600 :=
  ain_bounds n _ (by rcases addr_ainFlds hf with h | h <;> simp [h])

theorem window_ainFlds {n : Nat} {f : Fld} (hf : f ∈ ainFlds n) : windowOf f.addr ≠ 0xC1 :=
  windowOf_inp (by have := ainFlds_bounds hf; omega) (by have := ainFlds_bounds hf; omega)

theorem ainRegs_ne (n : Nat) : INP_AIN_VAL n ≠ INP_AIN_RAW n ∧ INP_AIN_FLT n ≠ INP_AIN_RAW n ∧ INP_AIN_FLT n ≠ INP_AIN_VAL n := by
  simp only [INP_AIN_RAW, INP_AIN_VAL, INP_AIN_FLT]; omega

theorem sticky_apart_ainFlds (n : Nat) : ∀ f ∈ ainFlds n, (INP_AIN_FLT.STICKY n).apart f := fun f hf => by
  obtain ⟨-, hraw, hval⟩ := ainRegs_ne n
  rcases addr_ainFlds hf with h | h
  · exact .inl (h ▸ hraw)
  · exact .inl (h ▸ hval)

/-- INP_AIN_RAW and INP_AIN_VAL with a new sample. -/
def State.showAin (n code flags : Nat) (val : Word) (s : State) : State :=
  (((s.set (INP_AIN_RAW.CODE n) code).set (INP_AIN_RAW.FLAGS n) flags).wrapInc (INP_AIN_RAW.SEQ n)).setReg (INP_AIN_VAL n) val

theorem only_setReg (s : State) (a : Nat) (w : Word) : s.only [] [wordAt a] (s.setReg a w) :=
  ⟨(keeps_setReg s a w).1, fun _ hg => get_setReg_apart s a _ w (hg _ (by simp)), (keeps_setReg s a w).2.2⟩

theorem only_wrapInc (s : State) {f : Fld} (h : f.lo + f.width ≤ 32) : s.only [] [f] (s.wrapInc f) := only_set s _ h

section Sample
variable {n code flags : Nat} {val : Word} {s : State}

theorem only_showAin : s.only [] (ainFlds n) (s.showAin n code flags val) :=
  only_seq (only_seq (only_seq (only_set s code (Nat.le_of_ble_eq_true rfl)) (only_set _ flags (Nat.le_of_ble_eq_true rfl)))
    (only_wrapInc _ (Nat.le_of_ble_eq_true rfl))) (only_setReg _ _ val)

theorem showAin_shows (hc : code < 65536) (hf : flags < 16) :
    (s.showAin n code flags val).get (INP_AIN_RAW.CODE n) = code ∧ (s.showAin n code flags val).get (INP_AIN_RAW.FLAGS n) = flags ∧
      (s.showAin n code flags val).get (INP_AIN_RAW.SEQ n) = (s.get (INP_AIN_RAW.SEQ n) + 1) % 256 ∧
      (s.showAin n code flags val).reg (INP_AIN_VAL n) = val := by
  let u := s.set (INP_AIN_RAW.CODE n) code
  let v := u.set (INP_AIN_RAW.FLAGS n) flags
  have hval (g : Fld) (hg : g.addr = INP_AIN_RAW n) : (s.showAin n code flags val).get g = (v.wrapInc (INP_AIN_RAW.SEQ n)).get g :=
    get_setReg_ne _ _ g val (by rw [hg]; exact (ainRegs_ne n).1.symm)
  refine ⟨?_, ?_, ?_, reg_setReg_self ..⟩
  · rw [hval _ rfl, get_wrapInc_apart _ _ _ (.inr (.inl (Nat.le_of_ble_eq_true rfl))) (Nat.le_of_ble_eq_true rfl),
      get_set_apart _ _ _ _ (.inr (.inl (Nat.le_of_ble_eq_true rfl))) (Nat.le_of_ble_eq_true rfl), get_set_self _ _ _ (Nat.le_of_ble_eq_true rfl)]
    exact Nat.mod_eq_of_lt hc
  · rw [hval _ rfl, get_wrapInc_apart _ _ _ (.inr (.inr (Nat.le_of_ble_eq_true rfl))) (Nat.le_of_ble_eq_true rfl),
      get_set_self _ _ _ (Nat.le_of_ble_eq_true rfl)]
    exact Nat.mod_eq_of_lt hf
  · rw [hval _ rfl, get_wrapInc_self _ _ (Nat.le_of_ble_eq_true rfl), get_set_apart _ _ _ _ (.inr (.inl (Nat.le_of_ble_eq_true rfl))) (Nat.le_of_ble_eq_true rfl),
      get_set_apart _ _ _ _ (.inr (.inr (Nat.le_of_ble_eq_true rfl))) (Nat.le_of_ble_eq_true rfl)]
    rfl

end Sample

/-! ### Several raises of one source (R129) -/

/-- Source `n` raised once for each of `l` that `p` names. -/
def State.raiseEach (n : Nat) (p : Nat → Bool) (l : List Nat) (s : State) : State :=
  l.foldl (fun (u : State) i => if p i then u.raise n else u) s

theorem windowOf_raiseFlds {n : Nat} {f : Fld} (hf : f ∈ raiseFlds n) : windowOf f.addr = 0xC1 := by
  refine windowOf_raiseRegs (n := n) ?_
  simp only [raiseFlds, List.mem_cons, List.not_mem_nil, or_false] at hf
  rcases hf with rfl | rfl | rfl | rfl <;> simp [raiseRegs, wordAt, EVT_SRC_STAT.PEND, EVT_SRC_STAT.MULTI]

section RaiseEach
variable {n : Nat} {p : Nat → Bool} {s u : State}

theorem raiseEach_cons (n : Nat) (p : Nat → Bool) (i : Nat) (l : List Nat) (s : State) :
    s.raiseEach n p (i :: l) = (if p i then s.raise n else s).raiseEach n p l := rfl

theorem only_raiseEach (n : Nat) (p : Nat → Bool) (l : List Nat) (s : State) : s.only [.rcd, .cyc] (raiseFlds n) (s.raiseEach n p l) := by
  induction l generalizing s with
  | nil => exact only_refl ..
  | cons i l ih =>
    rw [raiseEach_cons]
    split
    · exact only_trans (only_raise s n) (ih _)
    · exact ih _

theorem raiseEach_none {l : List Nat} (h : ∀ i ∈ l, p i = false) : s.raiseEach n p l = s := by
  induction l with
  | nil => rfl
  | cons i l ih => rw [raiseEach_cons, h i (by simp), if_neg (by decide), ih fun j hj => h j (by simp [hj])]

/-- EN of a source passes its raises. -/
theorem reg_srcCfg_raise (u : State) (n : Nat) : (u.raise n).reg (EVT_SRC_CFG n) = u.reg (EVT_SRC_CFG n) :=
  reg_raise_ne u (by simp [raiseRegs, EVT_SRC_CFG, EVT_SRC_STAT, EVT_SRC_LTC_LO, EVT_SRC_LTC_HI])

/-- More raises of a source that was raised. -/
theorem raised_raiseEach_again (l : List Nat) (hp : u.part = s.part) (hc : u.reg (EVT_SRC_CFG n) = s.reg (EVT_SRC_CFG n)) (h : s.raised n u) :
    s.raised n (u.raiseEach n p l) := by
  induction l generalizing u with
  | nil => exact h
  | cons i l ih =>
    rw [raiseEach_cons]
    split
    · exact ih ((raise_part ..).trans hp) ((reg_srcCfg_raise u n).trans hc) (raised_raise_again hp hc h)
    · exact ih hp hc h

theorem raised_raiseEach {l : List Nat} (h : ∃ i ∈ l, p i = true) : s.raised n (s.raiseEach n p l) := by
  induction l with
  | nil => obtain ⟨i, hi, -⟩ := h; exact absurd hi (by simp)
  | cons i l ih =>
    rw [raiseEach_cons]
    split
    · exact raised_raiseEach_again l (raise_part ..) (reg_srcCfg_raise s n) (raised_raise s n)
    · next hn =>
      obtain ⟨j, hj, hpj⟩ := h
      rcases List.mem_cons.1 hj with rfl | hj
      · exact absurd hpj hn
      · exact ih ⟨j, hj, hpj⟩

end RaiseEach

/-! ### Sticky bits (R155) -/

/-- A word with a field put as it is. -/
theorem putBits_bitsOf (v lo n : Nat) : putBits v lo n (bitsOf v lo n) = v := by
  apply Nat.eq_of_testBit_eq
  intro i
  rw [testBit_putBits, testBit_bitsOf]
  split
  · rfl
  · split
    · next h h' =>
      have hi : lo + (i - lo) = i := by omega
      have hn : i - lo < n := by omega
      simp [hi, hn]
    · rfl

/-- A field set as it is changes nothing. -/
theorem only_set_get (s : State) (f : Fld) : s.only [] [] (s.set f (s.get f)) := by
  have hword : BitVec.ofNat 32 (putBits (s.reg f.addr).toNat f.lo f.width (s.get f)) = s.reg f.addr := by
    rw [State.get, putBits_bitsOf]
    simp
  refine ⟨(keeps_setReg s f.addr _).1, fun g _ => get_congr g ?_, (keeps_setReg s f.addr _).2.2⟩
  rw [State.set, hword, reg_setReg]
  split
  · next h => rw [h]
  · rfl

section Sticky
variable {n flags : Nat} {s : State}

/-- The flags that were not sticky before. -/
def newFlags (flags old i : Nat) : Bool := bitAt flags i && !bitAt old i

theorem ainSticky_eq (n flags : Nat) (s : State) : s.ainSticky n flags =
    (s.set (INP_AIN_FLT.STICKY n) (s.get (INP_AIN_FLT.STICKY n) ||| flags)).raiseEach 352 (newFlags flags (s.get (INP_AIN_FLT.STICKY n))) (List.range 4) := rfl

theorem window_sticky (n : Nat) : windowOf (INP_AIN_FLT.STICKY n).addr ≠ 0xC1 := by
  have h := ain_bounds n (INP_AIN_FLT n) (by simp)
  exact windowOf_inp (Nat.le_trans (by decide) h.1) (Nat.lt_trans h.2 (by decide))

theorem only_setSticky (s : State) (n v : Nat) : s.only [] [INP_AIN_FLT.STICKY n] (s.set (INP_AIN_FLT.STICKY n) v) :=
  only_set s v (Nat.le_of_ble_eq_true rfl)

theorem only_ainSticky (n flags : Nat) (s : State) : s.only [.rcd, .cyc] (INP_AIN_FLT.STICKY n :: raiseFlds 352) (s.ainSticky n flags) := by
  rw [ainSticky_eq]
  exact only_seq (only_setSticky s n _) (only_raiseEach ..)

theorem get_ainSticky_outside (n flags : Nat) (s : State) {g : Fld} (hg : windowOf g.addr ≠ 0xC1) (ha : g.apart (INP_AIN_FLT.STICKY n)) :
    (s.ainSticky n flags).get g = s.get g := by
  refine (only_ainSticky n flags s).2.1 g fun f hf => ?_
  rcases List.mem_cons.1 hf with rfl | hf
  · exact ha
  · exact .inl fun he => hg (he ▸ windowOf_raiseFlds hf)

theorem get_sticky_ainSticky (hf : flags < 16) : (s.ainSticky n flags).get (INP_AIN_FLT.STICKY n) = s.get (INP_AIN_FLT.STICKY n) ||| flags := by
  have hor : s.get (INP_AIN_FLT.STICKY n) ||| flags < 16 := Nat.or_lt_two_pow (n := 4) (bitsOf_lt ..) hf
  rw [ainSticky_eq, (only_raiseEach ..).2.1 _ fun f hf => .inl fun he => window_sticky n (he ▸ windowOf_raiseFlds hf),
    get_set_self _ _ _ (Nat.le_of_ble_eq_true rfl)]
  exact Nat.mod_eq_of_lt hor

/-- Where no flag is new, the sticky bits stay. -/
theorem or_eq_of_noNewFlag {old : Nat} (hf : flags < 16) (h : ∀ i ∈ List.range 4, newFlags flags old i = false) : old ||| flags = old := by
  apply Nat.eq_of_testBit_eq
  intro i
  rw [Nat.testBit_or]
  by_cases hi : i < 4
  · have := h i (List.mem_range.2 hi)
    rw [newFlags, bitAt_eq_testBit, bitAt_eq_testBit] at this
    cases hb : flags.testBit i <;> cases ho : old.testBit i <;> simp_all
  · have hlow : flags.testBit i = false := Nat.testBit_lt_two_pow (Nat.lt_of_lt_of_le (m := 2 ^ 4) hf (Nat.pow_le_pow_right (by decide) (by omega)))
    simp [hlow]

theorem raised_ainSticky (hf : flags < 16) (hne : s.get (INP_AIN_FLT.STICKY n) ||| flags ≠ s.get (INP_AIN_FLT.STICKY n)) :
    s.raised 352 (s.ainSticky n flags) := by
  have hnew : ∃ i ∈ List.range 4, newFlags flags (s.get (INP_AIN_FLT.STICKY n)) i = true := by
    by_contra hno
    exact hne (or_eq_of_noNewFlag hf fun i hi => Bool.eq_false_iff.2 fun h => hno ⟨i, hi, h⟩)
  exact raised_of_only (only_setSticky s n _) (by simp) (by simp [window_sticky]) (raised_raiseEach hnew)

theorem only_ainSticky_zero (n : Nat) (s : State) : s.only [] [] (s.ainSticky n 0) := by
  have hset : s.get (INP_AIN_FLT.STICKY n) ||| 0 = s.get (INP_AIN_FLT.STICKY n) := Nat.or_zero _
  rw [ainSticky_eq, raiseEach_none (by simp [newFlags, bitAt]), hset]
  exact only_set_get s _

end Sticky

/-! ### The next sample (R150 to R155, R162) -/

/-- The flow windows with a sample in them: the one that holds its stamp, where the flow chain is on this input. -/
def State.flowWith (n code flags stamp : Nat) (s : State) : Tbl (Nat × Nat × Bool) :=
  if s.getB INP_FLOW_CFG.EN = true ∧ s.get INP_FLOW_CFG.SRC = n then
    tput s.inp.flow (stamp / 10000000) ((tgetD s.inp.flow (stamp / 10000000) (0, 0, false)).1 + code,
      (tgetD s.inp.flow (stamp / 10000000) (0, 0, false)).2.1 + 1, (tgetD s.inp.flow (stamp / 10000000) (0, 0, false)).2.2 || decide (flags ≠ 0))
  else s.inp.flow

theorem flowSample_eq (n code flags stamp : Nat) (s : State) :
    s.flowSample n code flags stamp = s.withInp { s.inp with flow := s.flowWith n code flags stamp } := by
  unfold State.flowSample State.flowWith
  by_cases h : s.getB INP_FLOW_CFG.EN = true ∧ s.get INP_FLOW_CFG.SRC = n
  · rw [if_pos (by simp [h]), if_pos h]
    rfl
  · rw [if_neg (by simpa using h), if_neg h]
    rfl

theorem flowWith_congr {n code flags stamp : Nat} {s u : State} (hf : u.inp.flow = s.inp.flow) (hg : ∀ g : Fld, g.addr = INP_FLOW_CFG → u.get g = s.get g) :
    u.flowWith n code flags stamp = s.flowWith n code flags stamp := by
  rw [State.flowWith, State.flowWith, getB_of_get (hg INP_FLOW_CFG.EN rfl), hg INP_FLOW_CFG.SRC rfl, hf]

section Publish
variable (n : Nat) (frames : List Nat) (stamp : Nat) (s : State)

/-- The input behind its registers after its next sample. -/
def State.ainTaken : Ain :=
  { s.ainNext n frames with stamp := stamp, next := (s.ain n).next + s.get (INP_AIN_CFG.DIV n), tok := s.inp.pubs + 1 }

/-- INP behind its registers then, but for the flow windows. -/
def State.ainKept : InpState := { s.inp with pubs := s.inp.pubs + 1, ains := tput s.inp.ains n (s.ainTaken n frames stamp) }

/-- The state in which a sample with this CODE is shown, and the one in which its flags have become sticky. -/
def State.ainShown (code : Nat) : State :=
  (s.withInp (s.ainKept n frames stamp)).showAin n code (s.ainFlags n code) (BitVec.ofNat 32 (s.ainVal n code))

def State.ainStuck (code : Nat) : State := (s.ainShown n frames stamp code).ainSticky n (s.ainFlags n code)

/-- The state after the sample. -/
def State.ainPublished (code : Nat) : State :=
  (s.ainStuck n frames stamp code).withInp { s.ainKept n frames stamp with flow := s.flowWith n code (s.ainFlags n code) stamp }

variable {n frames stamp s} {code : Nat}

theorem only_ainShown : s.only [.inp] (ainFlds n) (s.ainShown n frames stamp code) := only_seq (only_withInp _ s) only_showAin

theorem only_ainStuck : s.only [.inp, .rcd, .cyc] (ainFlds n ++ INP_AIN_FLT.STICKY n :: raiseFlds 352) (s.ainStuck n frames stamp code) :=
  only_seq only_ainShown (only_ainSticky n _ _)

theorem inp_ainStuck : (s.ainStuck n frames stamp code).inp = s.ainKept n frames stamp :=
  ((only_ainSticky n _ _).1 .inp (by simp)).trans ((only_showAin.1 .inp (by simp)).trans rfl)

/-- FLOW_CFG passes a sample. -/
theorem get_flowCfg_ainStuck {g : Fld} (hg : g.addr = INP_FLOW_CFG) : (s.ainStuck n frames stamp code).get g = s.get g := by
  refine (get_ainSticky_outside n _ _ (by rw [hg]; decide) (.inl ?_)).trans (only_ainShown.2.1 g fun f hf => .inl ?_)
  · have := (ain_bounds n (INP_AIN_FLT n) (by simp)).2
    simp only [hg, INP_FLOW_CFG, INP_AIN_FLT.STICKY]; omega
  · have := (ainFlds_bounds hf).2
    simp only [hg, INP_FLOW_CFG]; omega

theorem execAinSamplePublish_due {n : Fin 48} (h : s.ainDue n.val frames stamp = true) :
    exec (.ainSamplePublish n frames stamp) s = .next (s.ainPublished n.val frames stamp (s.ainNextCode n.val frames)) := by
  have hnext : (s.ainNext n.val frames).next = (s.ain n.val).next := next_ainFrames ..
  have hflow := flowSample_eq n.val (s.ainNextCode n.val frames) (s.ainFlags n.val (s.ainNextCode n.val frames)) stamp
    (s.ainStuck n.val frames stamp (s.ainNextCode n.val frames))
  rw [inp_ainStuck, flowWith_congr (s := s) (by rw [inp_ainStuck]; rfl) fun g hg => get_flowCfg_ainStuck hg] at hflow
  change execAinSamplePublish n frames stamp s = _
  rw [execAinSamplePublish, if_neg (by simp [h]), State.ainPublished, ← hflow, State.ainStuck, State.ainShown, State.ainKept, State.ainTaken, ← hnext]
  rfl

/-- What the registers show after the sample: the sticky flags are in a register of their own. -/
theorem get_ainFlds_ainPublished {g : Fld} (hg : g.addr = INP_AIN_RAW n ∨ g.addr = INP_AIN_VAL n) :
    (s.ainPublished n frames stamp code).get g = (s.ainShown n frames stamp code).get g := by
  have hb : 0xC4001000 ≤ g.addr ∧ g.addr < 0xC4001600 := ain_bounds n _ (by rcases hg with h | h <;> simp [h])
  refine get_ainSticky_outside n _ _ (windowOf_inp (Nat.le_trans (by decide) hb.1) (Nat.lt_trans hb.2 (by decide))) (.inl ?_)
  obtain ⟨-, hraw, hval⟩ := ainRegs_ne n
  rcases hg with h | h
  · exact h ▸ hraw.symm
  · exact h ▸ hval.symm

theorem ain_ainPublished : (s.ainPublished n frames stamp code).ain n = s.ainTaken n frames stamp := by
  change tgetD (tput s.inp.ains n (s.ainTaken n frames stamp)) n {} = _
  simp [tgetD]

theorem ainPublished_shows (hc : code < 65536) :
    let t := s.ainPublished n frames stamp code
    let f := s.ainFlags n code
    t.get (INP_AIN_RAW.CODE n) = code ∧ t.get (INP_AIN_RAW.FLAGS n) = f ∧ t.get (INP_AIN_RAW.SEQ n) = (s.get (INP_AIN_RAW.SEQ n) + 1) % 256 ∧
      t.reg (INP_AIN_VAL n) = BitVec.ofNat 32 (s.ainVal n code) ∧
      t.get (INP_AIN_FLT.STICKY n) = s.get (INP_AIN_FLT.STICKY n) ||| f ∧
      (s.get (INP_AIN_FLT.STICKY n) ||| f ≠ s.get (INP_AIN_FLT.STICKY n) → s.raised 352 t) := by
  obtain ⟨hcode, hflags, hseq, hval⟩ := showAin_shows (n := n) (val := BitVec.ofNat 32 (s.ainVal n code))
    (s := s.withInp (s.ainKept n frames stamp)) hc (ainFlags_lt s n code)
  have hold : (s.ainShown n frames stamp code).get (INP_AIN_FLT.STICKY n) = s.get (INP_AIN_FLT.STICKY n) :=
    only_ainShown.2.1 _ (sticky_apart_ainFlds n)
  refine ⟨(get_ainFlds_ainPublished (.inl rfl)).trans hcode, (get_ainFlds_ainPublished (.inl rfl)).trans hflags,
    (get_ainFlds_ainPublished (.inl rfl)).trans hseq, (reg_of_get (get_ainFlds_ainPublished (.inr rfl))).trans hval, ?_, fun hne => ?_⟩
  · exact (get_sticky_ainSticky (ainFlags_lt ..)).trans (by rw [hold])
  · exact raised_of_only only_ainShown (by simp) (fun f => window_ainFlds) (raised_ainSticky (ainFlags_lt ..) (by rwa [hold]))

theorem only_ainPublished : s.only [.inp, .rcd, .cyc] (ainFlds n ++ INP_AIN_FLT.STICKY n :: raiseFlds 352) (s.ainPublished n frames stamp code) :=
  only_trans only_ainStuck (only_mono (only_withInp _ _) (by simp) (by simp))

/-- A sample without a flag touches no sticky bit. -/
theorem only_ainPublished_unflagged (h : s.ainFlags n code = 0) : s.only [.inp] (ainFlds n) (s.ainPublished n frames stamp code) := by
  have hstuck : (s.ainShown n frames stamp code).only [] [] (s.ainStuck n frames stamp code) := by
    rw [State.ainStuck, h]
    exact only_ainSticky_zero n _
  exact only_mono (only_seq (only_seq only_ainShown hstuck) (only_withInp _ _)) (by simp) (by simp)

end Publish

/-! ### Shunts (R155) -/

section Shunt
variable {n : Nat} {s : State}

/-- Bit 3 of FLAGS: the shunt is open. -/
def ainShuntBit (n : Nat) : Fld := ⟨INP_AIN_RAW n, 31, 1⟩

theorem window_ainRaw (n : Nat) : windowOf (INP_AIN_RAW n) ≠ 0xC1 := by
  have h := ain_bounds n (INP_AIN_RAW n) (by simp)
  exact windowOf_inp (Nat.le_trans (by decide) h.1) (Nat.lt_trans h.2 (by decide))

theorem isFlag_ainShuntBit (n : Nat) : IsFlag (ainShuntBit n) := ⟨rfl, Nat.le_of_ble_eq_true rfl, window_ainRaw n⟩

/-- The input reads CODE 0 with SHUNT set. -/
def State.showShunt (n : Nat) (s : State) : State := (s.set (INP_AIN_RAW.CODE n) 0).setB (ainShuntBit n) true

theorem only_showShunt : s.only [] [INP_AIN_RAW.CODE n, ainShuntBit n] (s.showShunt n) :=
  only_seq (only_set s 0 (Nat.le_of_ble_eq_true rfl)) (only_setB_flag (isFlag_ainShuntBit n) _ true)

theorem showShunt_shows : (s.showShunt n).get (INP_AIN_RAW.CODE n) = 0 ∧ (s.showShunt n).getB (ainShuntBit n) = true := by
  refine ⟨?_, getB_setB_self _ _ true (isFlag_ainShuntBit n).top rfl⟩
  rw [State.showShunt, get_setB_apart _ _ _ _ (.inr (.inl (Nat.le_of_ble_eq_true rfl))) (isFlag_ainShuntBit n).top]
  exact get_set_self s _ 0 (Nat.le_of_ble_eq_true rfl)

theorem execAinShunt_opens {n : Fin 48} (hon : s.inpOn = true) (hm : s.imgFld (INP_AIN_CFG.MODE n.val) = 3) (hs : (s.ain n.val).shunt = false) :
    exec (.ainShunt n) s =
      .next (((s.withInp { s.inp with ains := tput s.inp.ains n.val { s.ain n.val with shunt := true } }).showShunt n.val).raise 353) := by
  change execAinShunt n s = _
  rw [execAinShunt, if_pos (by simp [hon, hm, hs])]
  rfl

theorem ainShunt_shows {n : Fin 48} (hon : s.inpOn = true) (hm : s.imgFld (INP_AIN_CFG.MODE n.val) = 3) (hs : (s.ain n.val).shunt = false) :
    ∃ t, exec (.ainShunt n) s = .next t ∧ t.inp = { s.inp with ains := tput s.inp.ains n.val { s.ain n.val with shunt := true } } ∧
      t.get (INP_AIN_RAW.CODE n.val) = 0 ∧ t.getB (ainShuntBit n.val) = true ∧ s.raised 353 t ∧
      s.only [.inp, .rcd, .cyc] ([INP_AIN_RAW.CODE n.val, ainShuntBit n.val] ++ raiseFlds 353) t := by
  let x := { s.inp with ains := tput s.inp.ains n.val { s.ain n.val with shunt := true } }
  have hwin := window_ainRaw n.val
  obtain ⟨hcode, hbit⟩ := showShunt_shows (n := n.val) (s := s.withInp x)
  obtain ⟨hraised, honly⟩ := raise_behind 353 (only_seq (only_withInp x s) (only_showShunt (n := n.val))) (by simp) (by simp [INP_AIN_RAW.CODE, ainShuntBit, hwin])
  refine ⟨_, execAinShunt_opens hon hm hs, ?_, (get_raise_outside _ _ (g := INP_AIN_RAW.CODE n.val) hwin).trans hcode,
    (getB_raise_outside _ _ (g := ainShuntBit n.val) hwin).trans hbit, hraised, honly⟩
  rw [raise_inp]
  exact only_showShunt.1 .inp (by simp)

/-! ### A write of INP_AIN_FLT (R155) -/

theorem goodAddr_ainFlt (n : Nat) : goodAddr (INP_AIN_FLT n) = true := by
  have h := ain_bounds n (INP_AIN_FLT n) (by simp)
  have halign : INP_AIN_FLT n % 4 = 0 := by simp only [INP_AIN_FLT]; omega
  simp only [goodAddr, halign, Bool.and_eq_true, decide_eq_true_eq, and_true]
  omega

theorem specialWrite_ainFlt {n : Nat} (hn : n < 48) (v : Word) (s : State) : s.specialWrite (INP_AIN_FLT n) v = some (s.writeAinFlt n v) := by
  have ha : INP_AIN_FLT n = 0xC4001018 + 32 * n := by simp only [INP_AIN_FLT]; omega
  have hblk : blkOf (INP_AIN_FLT n) = 4 := by
    have h : INP_AIN_FLT n / 0x1000000 = 0xC4 := by omega
    simp only [blkOf, h]
    rfl
  have hnone (f : Nat → Nat → Fld) : ringAt 4 f (INP_AIN_FLT n) = none := rfl
  have hne : INP_AIN_FLT n ≠ INP_SSUP := by simp only [ha, INP_SSUP]; omega
  have hoff : INP_AIN_FLT n - 0xC4000000 = 0x1018 + 32 * n := by omega
  have hin : (decide (0x1000 ≤ 0x1018 + 32 * n) && decide (0x1018 + 32 * n < 0x1600) && decide ((0x1018 + 32 * n) % 32 = 0x18)) = true := by
    simp only [Bool.and_eq_true, decide_eq_true_eq]; omega
  have hidx : (0x1018 + 32 * n - 0x1000) / 32 = n := by omega
  simp only [State.specialWrite, hblk, hnone]
  rw [State.inpWrite, if_neg hne, hoff, if_pos hin, hidx]

theorem execAinRearm_open {core : Fin 8} {n : Fin 48} {v : Word} (hc : s.closed (INP_AIN_FLT n.val) = false) :
    exec (.ainRearm core n v) s = .next (State.writeAinFlt n.val v { s with access := .none }) := by
  refine congrArg Host.Outcome.next ((hostWrite_open (goodAddr_ainFlt _) hc).trans ?_)
  simp only [State.regWrite, specialWrite_ainFlt n.isLt]

theorem ainRearm_shows {core : Fin 8} {n : Fin 48} {v : Word} (hc : s.closed (INP_AIN_FLT n.val) = false) (hv : bitAt v.toNat 31 = true) :
    ∃ t, exec (.ainRearm core n v) s = .next t ∧ t.inp = { s.inp with ains := tput s.inp.ains n.val { s.ain n.val with shunt := false } } ∧
      t.get (INP_AIN_FLT.STICKY n.val) = s.get (INP_AIN_FLT.STICKY n.val) &&& (15 - v.toNat % 16) ∧
      s.only [.access, .inp] [INP_AIN_FLT.STICKY n.val] t := by
  let u : State := { s with access := .none }
  let w := s.get (INP_AIN_FLT.STICKY n.val) &&& (15 - v.toNat % 16)
  let x := { s.inp with ains := tput s.inp.ains n.val { s.ain n.val with shunt := false } }
  have hwrite : u.writeAinFlt n.val v = (u.set (INP_AIN_FLT.STICKY n.val) w).withInp x := if_pos hv
  have hlt : w < 16 := Nat.lt_of_le_of_lt Nat.and_le_left (bitsOf_lt ..)
  refine ⟨_, (execAinRearm_open hc).trans (congrArg _ hwrite), rfl, ?_, only_of_answered (only_seq (only_setSticky u n.val w) (only_withInp x _))⟩
  exact (get_set_self u _ w (Nat.le_of_ble_eq_true rfl)).trans (Nat.mod_eq_of_lt hlt)

end Shunt

/-! ### Flow windows (R162) -/

section Flow
variable {s : State}

/-- The registers of the crop flow with a window's result. -/
def State.showFlow (val : Word) (cnt : Nat) (valid : Bool) (fin : Nat) (s : State) : State :=
  ((((s.setReg INP_FLOW_VAL val).set INP_FLOW_STAT.CNT cnt).setB INP_FLOW_STAT.VALID valid).wrapInc INP_FLOW_STAT.SEQ).set64 INP_FLOW_LTC_LO INP_FLOW_LTC_HI fin

def flowFlds : List Fld :=
  [wordAt INP_FLOW_VAL, INP_FLOW_STAT.CNT, INP_FLOW_STAT.VALID, INP_FLOW_STAT.SEQ, wordAt INP_FLOW_LTC_LO, wordAt INP_FLOW_LTC_HI]

theorem only_showFlow (val : Word) (cnt : Nat) (valid : Bool) (fin : Nat) (s : State) : s.only [] flowFlds (s.showFlow val cnt valid fin) :=
  only_seq (only_seq (only_seq (only_seq (only_setReg s _ val) (only_set _ cnt (by decide))) (only_set _ (b2n valid) (by decide)))
    (only_wrapInc _ (by decide))) (only_set64 ..)

theorem showFlow_shows (val : Word) {cnt : Nat} (hc : cnt < 65536) (valid : Bool) (fin : Nat) (s : State) :
    let t := s.showFlow val cnt valid fin
    t.reg INP_FLOW_VAL = val ∧ t.get INP_FLOW_STAT.CNT = cnt ∧ t.getB INP_FLOW_STAT.VALID = valid ∧
      t.get INP_FLOW_STAT.SEQ = (s.get INP_FLOW_STAT.SEQ + 1) % 256 ∧ t.get64 INP_FLOW_LTC_LO INP_FLOW_LTC_HI = fin % 2 ^ 64 := by
  let u := s.setReg INP_FLOW_VAL val
  let v := u.set INP_FLOW_STAT.CNT cnt
  let w := v.setB INP_FLOW_STAT.VALID valid
  have hstamp (g : Fld) (hg : g.addr = INP_FLOW_STAT) : (s.showFlow val cnt valid fin).get g = (w.wrapInc INP_FLOW_STAT.SEQ).get g :=
    get_congr g (reg_set64_ne _ _ (by rw [hg]; decide) (by rw [hg]; decide))
  refine ⟨?_, ?_, ?_, ?_, get64_set64_self _ _ _ _ (by decide)⟩
  · rw [State.showFlow, reg_set64_ne _ _ (by decide) (by decide), State.wrapInc, reg_set_ne _ _ (by decide), reg_setB_ne _ _ (by decide),
      reg_set_ne _ _ (by decide), reg_setReg_self]
  · rw [hstamp _ rfl, get_wrapInc_apart _ _ _ (.inr (by decide)) (by decide), get_setB_apart _ _ _ _ (.inr (by decide)) (by decide),
      get_set_self _ _ _ (by decide)]
    exact Nat.mod_eq_of_lt hc
  · rw [getB_of_get (hstamp _ rfl), getB_of_get (get_wrapInc_apart _ _ _ (.inr (by decide)) (by decide)), getB_setB_self _ _ _ (by decide) rfl]
  · rw [hstamp _ rfl, get_wrapInc_self _ _ (by decide), get_setB_apart _ _ _ _ (.inr (by decide)) (by decide),
      get_set_apart _ _ _ _ (.inr (by decide)) (by decide), get_setReg_ne _ _ _ _ (by decide)]
    rfl

theorem showFlow_withInp (x : InpState) (val : Word) (cnt : Nat) (valid : Bool) (fin : Nat) (s : State) :
    (s.withInp x).showFlow val cnt valid fin = (s.showFlow val cnt valid fin).withInp x := by
  have hreg (u : State) (a : Nat) (w : Word) : (u.withInp x).setReg a w = (u.setReg a w).withInp x := rfl
  simp only [State.showFlow, State.setB, State.wrapInc, State.set64, hreg, set_withInp, get_withInp]

/-- INP behind its registers once window `flowNext` has gone out as `w`. -/
def State.flowKept (w : FlowWin) (s : State) : InpState :=
  { s.inp with
    flow := tdel s.inp.flow s.inp.flowNext
    flowNext := s.inp.flowNext + 1
    flowQ := if s.enabled 0x0D then s.inp.flowQ ++ [w] else s.inp.flowQ }

/-- The state after it, but for the raise. -/
def State.flowShown (cnt : Nat) (w : FlowWin) (s : State) : State :=
  (s.withInp (s.flowKept w)).showFlow (BitVec.ofNat 32 w.flow) cnt w.valid w.endLtc

theorem only_flowShown (cnt : Nat) (w : FlowWin) (s : State) : s.only [.inp] flowFlds (s.flowShown cnt w) :=
  only_seq (only_withInp _ s) (only_showFlow ..)

theorem inp_flowShown (cnt : Nat) (w : FlowWin) (s : State) : (s.flowShown cnt w).inp = s.flowKept w := (only_showFlow ..).1 .inp (by simp)

/-- The result of a window: the flow of its samples with the settings with which it began. -/
def State.flowResult (sum n : Nat) (bad : Bool) (s : State) : FlowWin :=
  let b := max (s.inp.flowNext * 10000000) s.inp.start
  let src := s.get INP_FLOW_CFG.SRC
  { flow := if n = 0 then F.zero else flowValue sum n (s.inpAt (INP_AIN_GAIN src) b).toNat (s.inpAt (INP_AIN_OFS src) b).toNat
      (s.inpAt INP_FLOW_TARE b).toNat (s.inpAt INP_FLOW_K b).toNat
    valid := decide (n ≠ 0) && !bad
    endLtc := (s.inp.flowNext + 1) * 10000000 }

/-- A window handed to YLD. -/
def State.flowHanded (w : FlowWin) (s : State) : State :=
  if s.enabled 0x0D then s.withInp { s.inp with flowQ := s.inp.flowQ ++ [w] } else s

theorem flowHanded_withInp (x : InpState) (w : FlowWin) (s : State) :
    (s.withInp x).flowHanded w = s.withInp { x with flowQ := if s.enabled 0x0D then x.flowQ ++ [w] else x.flowQ } := by
  unfold State.flowHanded
  by_cases hy : s.enabled 0x0D = true
  · rw [if_pos hy]
    exact if_pos hy
  · rw [if_neg hy]
    exact if_neg hy

theorem flowHanded_showFlow (cnt : Nat) (w : FlowWin) (s : State) :
    ((s.withInp { s.inp with flow := tdel s.inp.flow s.inp.flowNext, flowNext := s.inp.flowNext + 1 }).showFlow
      (BitVec.ofNat 32 w.flow) cnt w.valid w.endLtc).flowHanded w = s.flowShown cnt w := by
  have hen : (s.showFlow (BitVec.ofNat 32 w.flow) cnt w.valid w.endLtc).enabled 0x0D = s.enabled 0x0D :=
    getB_of_get ((only_showFlow ..).2.1 _ fun f hf => .inl (by revert f; decide))
  rw [State.flowShown, showFlow_withInp, showFlow_withInp, flowHanded_withInp, hen, State.flowKept]

theorem execFlowWindowEnd_due {sum n : Nat} {bad : Bool} (hdue : s.flowDue = true) (hw : tgetD s.inp.flow s.inp.flowNext (0, 0, false) = (sum, n, bad)) :
    exec .flowWindowEnd s = .next (if s.getB INP_FLOW_STAT.VALID && !(s.flowResult sum n bad).valid then
      (s.flowShown n (s.flowResult sum n bad)).raise 359 else s.flowShown n (s.flowResult sum n bad)) := by
  change execFlowWindowEnd s = _
  rw [execFlowWindowEnd, if_neg (by simp [hdue]), hw, ← flowHanded_showFlow]
  rfl

theorem flowWindowEnd_shows {sum n : Nat} {bad : Bool} (hdue : s.flowDue = true)
    (hw : tgetD s.inp.flow s.inp.flowNext (0, 0, false) = (sum, n, bad)) (hn : n < 65536) :
    let w := s.flowResult sum n bad
    ∃ t, exec .flowWindowEnd s = .next t ∧ t.reg INP_FLOW_VAL = BitVec.ofNat 32 w.flow ∧ t.get INP_FLOW_STAT.CNT = n ∧
      t.getB INP_FLOW_STAT.VALID = w.valid ∧ t.get INP_FLOW_STAT.SEQ = (s.get INP_FLOW_STAT.SEQ + 1) % 256 ∧
      t.get64 INP_FLOW_LTC_LO INP_FLOW_LTC_HI = w.endLtc % 2 ^ 64 ∧ t.inp = s.flowKept w ∧
      (s.getB INP_FLOW_STAT.VALID = true → w.valid = false → s.raised 359 t) ∧ s.only [.inp, .rcd, .cyc] (flowFlds ++ raiseFlds 359) t := by
  intro w
  have hshown := only_flowShown n w s
  obtain ⟨hval, hcnt, hvalid, hseq, hstamp⟩ := showFlow_shows (BitVec.ofNat 32 w.flow) hn w.valid w.endLtc (s.withInp (s.flowKept w))
  refine ⟨_, execFlowWindowEnd_due hdue hw, ?_⟩
  by_cases hr : (s.getB INP_FLOW_STAT.VALID && !w.valid) = true
  · obtain ⟨hraised, honly⟩ := raise_behind 359 hshown (by simp) (by decide)
    have hreg {a : Nat} (ha : windowOf a = 0xC4) : ((s.flowShown n w).raise 359).reg a = (s.flowShown n w).reg a :=
      reg_raise_ne _ (notMem_raiseRegs ha (by decide))
    rw [if_pos hr]
    exact ⟨(hreg (by decide)).trans hval, (get_raise_outside _ _ (by decide)).trans hcnt, (getB_raise_outside _ _ (by decide)).trans hvalid,
      (get_raise_outside _ _ (by decide)).trans hseq, (get64_congr _ _ (hreg (by decide)) (hreg (by decide))).trans hstamp,
      (raise_inp ..).trans (inp_flowShown ..), fun _ _ => hraised, honly⟩
  · rw [if_neg hr]
    exact ⟨hval, hcnt, hvalid, hseq, hstamp, inp_flowShown .., fun h h' => absurd (by simp [h, h']) hr, only_mono hshown (by simp) (by simp +contextual)⟩

end Flow

/-- Settles O28: a sample is shown, then its flags stick and it enters its flow window; shunts, REARM and flow windows write their own fields. -/
theorem analogSamplesAndFlowWindowsPublishTheirValues : Obligations.AnalogSamplesAndFlowWindowsPublishTheirValues := by
  refine ⟨fun n frames stamp c f g o a s hdue ha hc hf hg ho => ?_, fun ovs k sum rest a => rfl, fun n s hon hm hs => ainShunt_shows hon hm hs,
    fun core n v s hclosed hv => ainRearm_shows hclosed hv, fun sum n b src bad ok v s hdue hw hn hb hsrc hok hv => ?_⟩
  · subst ha hg ho
    obtain rfl : c = s.ainNextCode n.val frames := hc
    subst hf
    obtain ⟨hcode, hflags, hseq, hval, hsticky, hraised⟩ := ainPublished_shows (n := n.val) (frames := frames) (stamp := stamp)
      (ainNextCode_lt s n.val frames)
    refine ⟨_, execAinSamplePublish_due hdue, ain_ainPublished, ?_, hcode, hflags, hseq, hval, hsticky, hraised, rfl, only_ainPublished_unflagged,
      only_ainPublished⟩
    rw [ain_ainPublished]
    rfl
  · subst hb hsrc hok hv
    exact flowWindowEnd_shows hdue hw hn

/-! ### Addresses within bounds -/

section Bounds
variable {lo hi a : Nat} (hl : lo ≤ a) (hh : a < hi)
include hl hh

theorem ne_of_bounds {c : Nat} (h : c < lo ∨ hi ≤ c) : (a = c) = False := eq_false (by omega)

theorem between_of_bounds {l u : Nat} (h : u ≤ lo ∨ hi ≤ l) : (decide (l ≤ a) && decide (a < u)) = false := by
  simp only [Bool.and_eq_false_iff, decide_eq_false_iff_not]
  omega

/-- Outside the windows of slots, sources, objects and queues no register is hidden (R192). -/
theorem freeWindow_of_bounds (h : hi ≤ 0xC5100000 ∨ (0xC5160000 ≤ lo ∧ hi ≤ 0xCC100000) ∨ (0xCC101800 ≤ lo ∧ hi ≤ 0xCE000800)) (s : State) :
    s.freeWindow a = false := by
  rw [State.freeWindow, between_of_bounds hl hh (by omega), between_of_bounds hl hh (by omega), between_of_bounds hl hh (by omega),
    between_of_bounds hl hh (by omega)]
  rfl

end Bounds

/-- A register of an array is within the array, at its index. -/
theorem array_within {b st cnt n : Nat} (hn : n < cnt) (hst : 0 < st) : let a := b + st * n
    b ≤ a ∧ a < b + st * cnt ∧ (decide (b ≤ a) && decide (a < b + st * cnt) && decide ((a - b) % st = 0)) = true ∧ (a - b) / st = n := by
  intro a
  have hsub : a - b = st * n := Nat.add_sub_cancel_left ..
  have hlow : b ≤ a := Nat.le_add_right ..
  have hhigh : a < b + st * cnt := Nat.add_lt_add_left (Nat.mul_lt_mul_of_pos_left hn hst) b
  refine ⟨hlow, hhigh, ?_, by rw [hsub, Nat.mul_div_cancel_left _ hst]⟩
  rw [decide_eq_true hlow, decide_eq_true hhigh, hsub, Nat.mul_mod_right]
  rfl

/-- Bounds of addresses in one window of the peripherals. -/
structure WindowBounds (lo hi : Nat) : Prop where
  low : 0xC0000000 ≤ lo
  high : hi ≤ 0xD5000000
  window : windowOf lo = windowOf (hi - 1)

section Window
variable {lo hi a : Nat} (g : WindowBounds lo hi) (hl : lo ≤ a) (hh : a < hi)
include g hl hh

theorem WindowBounds.windowOf_eq : windowOf a = windowOf lo := by
  have := g.window
  simp only [windowOf] at *
  omega

theorem WindowBounds.goodAddr (h4 : a % 4 = 0) : goodAddr a = true := by
  have hlow := g.low
  have hhigh := g.high
  simp only [Machine.goodAddr, Bool.and_eq_true, decide_eq_true_eq]
  omega

end Window

/-! ### The register table within bounds -/

/-- A line of the register table has no register in `[lo, hi)`. -/
def RegDesc.away (lo hi : Nat) (d : RegDesc) : Bool := decide (0 < d.s1) && (decide (d.base + d.s1 * d.n1 ≤ lo) || decide (hi ≤ d.base))

theorem windowRegs_congr {a b : Nat} (h : windowOf a = windowOf b) : windowRegs a = windowRegs b := by
  have h' : a / 0x1000000 = b / 0x1000000 := h
  simp only [windowRegs, h']

/-- A line that covers an address is not away from it. -/
theorem not_away_of_covers {d : RegDesc} {lo hi a : Nat} (hl : lo ≤ a) (hh : a < hi) (hc : d.covers a = true) : d.away lo hi = false := by
  simp only [RegDesc.covers, Bool.and_eq_true, decide_eq_true_eq] at hc
  obtain ⟨⟨⟨hbase, hn⟩, -⟩, -⟩ := hc
  rw [RegDesc.away, Bool.and_eq_false_iff, Bool.or_eq_false_iff, decide_eq_false_iff_not, decide_eq_false_iff_not, decide_eq_false_iff_not]
  by_cases hs : 0 < d.s1
  · have hlt : a - d.base < d.s1 * d.n1 := by
      rw [Nat.mul_comm]
      exact (Nat.div_lt_iff_lt_mul hs).1 hn
    exact .inr ⟨by omega, by omega⟩
  · exact .inl hs

/-- What all lines of a window satisfy that are not away from `[lo, hi)`, the line of an address in it satisfies. -/
theorem findDesc_of_bounds {P : RegDesc → Bool} {lo hi a : Nat} (hl : lo ≤ a) (hh : a < hi) (hw : windowOf a = windowOf lo)
    (hall : ((windowRegs lo).all fun d => P d || d.away lo hi) = true) {d : RegDesc} (hd : findDesc a = some d) : P d = true := by
  have hfind : (windowRegs a).find? (·.covers a) = some d := hd
  have hmem : d ∈ windowRegs lo := windowRegs_congr hw ▸ List.mem_of_find?_eq_some hfind
  have hcov : d.covers a = true := List.find?_some (p := (RegDesc.covers · a)) hfind
  simpa [not_away_of_covers hl hh hcov] using List.all_eq_true.1 hall d hmem

/-- A register of a one-level array has a line. -/
theorem findDesc_array {b st cnt n : Nat} (hst : 0 < st) (hn : n < cnt) (hw : windowOf (b + st * n) = windowOf b)
    (hany : ((windowRegs b).any fun d => decide (d.base = b ∧ d.s1 = st ∧ d.n1 = cnt ∧ d.s2 = 4 ∧ d.n2 = 1)) = true) :
    (findDesc (b + st * n)).isSome = true := by
  obtain ⟨d, hd, hshape⟩ := List.any_eq_true.1 hany
  obtain ⟨hbase, hs1, hn1, hs2, hn2⟩ := of_decide_eq_true hshape
  have hcov : d.covers (b + st * n) = true := by
    simp [RegDesc.covers, hbase, hs1, hn1, hs2, hn2, Nat.mul_div_cancel_left _ hst, hn]
  rw [findDesc, windowRegs_congr hw, List.find?_isSome]
  exact ⟨d, hd, hcov⟩

/-! ### Registers that show something held elsewhere -/

/-- Their addresses, as bounds (`State.shown`). -/
def shownBounds : List (Nat × Nat) :=
  [(SYS_ID, SYS_ID + 1), (EVT_PEND 0, EVT_PEND 0 + 0x4 * 12), (EVT_CLAIM 0, EVT_CLAIM 0 + 0x4 * 8), (TMS_LTC_LO, TMS_LTC_LO + 1),
    (TMS_STATUS, TMS_STATUS + 1), (CLE_FRAME_LO, CLE_FRAME_LO + 1), (CLE_FRAME_HI, CLE_FRAME_HI + 1),
    (CLE_LATE_MAP 0, CLE_LATE_MAP 0 + 0x4 * 3), (VDR_STATUS, VDR_STATUS + 1), (VDR_BANK_STAT 0, VDR_BANK_STAT 0 + 0x10 * 16),
    (SAF_STATUS, SAF_STATUS + 1), (GNB_SC_LO, GNB_SC_LO + 0x18), (FEN_STR 0, FEN_STR 0 + 0x8 * 16), (ARB_WAIT 0, ARB_WAIT 0 + 0x8 * 24),
    (BUS_C_CAP 0, BUS_C_CAP 0 + 1), (BUS_C_CAP 1, BUS_C_CAP 1 + 1), (ETH_KEY_STAT 0, ETH_KEY_STAT 0 + 0x4 * 64), (PNL_STAT, PNL_STAT + 1),
    (REC_S_NVAL 0, REC_S_NVAL 0 + 0x10 * 256), (REC_SLOT 0 0, REC_SLOT 0 0 + 0x100 * 8192), (UPD_STAT, UPD_STAT + 1), (UPD_LC, UPD_LC + 1),
    (UPD_SVN, UPD_SVN + 1), (UPD_KEY 0, UPD_KEY 0 + 0x4 * 4), (UPD_SET 0, UPD_SET 0 + 0x4 * 507904)]

theorem shown_none {a : Nat} (h : ∀ r ∈ shownBounds, a < r.1 ∨ r.2 ≤ a) (s : State) : s.shown a = none := by
  have hne {c : Nat} (hc : (c, c + 1) ∈ shownBounds) : (a = c) = False := eq_false (by have := h _ hc; simp only at this; omega)
  have hne' {c : Nat} (hc : (c, c + 1) ∈ shownBounds) : (c = a) = False := eq_false (by have := h _ hc; simp only at this; omega)
  have hout {l u : Nat} (hlu : (l, u) ∈ shownBounds) : (decide (l ≤ a) && decide (a < u)) = false := by
    have := h _ hlu
    simp only [Bool.and_eq_false_iff, decide_eq_false_iff_not]
    omega
  simp (disch := decide) only [State.shown, hne, hne', hout, Bool.false_and, Bool.false_or, decide_false, Bool.false_eq_true, if_false]

theorem and_ones (w : Word) : w &&& 0xFFFFFFFF#32 = w := BitVec.and_allOnes

/-- Bounds within which every register is held at its address: none shows something else or bits of the image. -/
structure HeldBounds (lo hi : Nat) : Prop extends WindowBounds lo hi where
  noImage : ((windowRegs lo).all fun d => decide (d.img = 0) || d.away lo hi) = true
  notShown : (shownBounds.all fun r => decide (hi ≤ r.1) || decide (r.2 ≤ lo)) = true

section Held
variable {lo hi a : Nat} (g : HeldBounds lo hi) (hl : lo ≤ a) (hh : a < hi)
include g hl hh

theorem HeldBounds.liveReg {s : State} (hf : s.freeWindow a = false) (hd : (findDesc a).isSome = true) : s.liveReg a = s.reg a := by
  obtain ⟨d, hd⟩ := Option.isSome_iff_exists.1 hd
  have himg : d.img = 0 := of_decide_eq_true (findDesc_of_bounds hl hh (g.toWindowBounds.windowOf_eq hl hh) g.noImage hd)
  have hshown : s.shown a = none := shown_none (fun r hr => by
    have := List.all_eq_true.1 g.notShown r hr
    simp only [Bool.or_eq_true, decide_eq_true_eq] at this
    omega) s
  simpa [State.liveReg, hf, hshown, hd, himg] using and_ones (s.reg a)

end Held

/-! ### Companions latched for a core (R7) -/

/-- The companions `bs` latched for a core, each as `f` gives it. -/
def State.latchAll (core : Nat) (f : Nat → Word) (bs : List Nat) (s : State) : State := bs.foldl (fun (t : State) b => t.latchFor core b (f b)) s

section LatchAll
variable {core : Nat} {f : Nat → Word} {bs : List Nat} {s : State}

theorem latchAll_cons (core : Nat) (f : Nat → Word) (b : Nat) (bs : List Nat) (s : State) :
    s.latchAll core f (b :: bs) = (s.latchFor core b (f b)).latchAll core f bs := rfl

theorem only_latchFor (s : State) (core a : Nat) (w : Word) : s.only [.latch] [] (s.latchFor core a w) :=
  only_of (State_latchFor_mut core a w s) rfl fun _ _ => rfl

theorem only_latchAll (core : Nat) (f : Nat → Word) (bs : List Nat) (s : State) : s.only [.latch] [] (s.latchAll core f bs) := by
  induction bs generalizing s with
  | nil => exact only_refl ..
  | cons b bs ih => exact only_trans (only_latchFor s core b (f b)) (ih _)

theorem latch_latchAll_ne {k : Nat} (h : ∀ b ∈ bs, k ≠ core * 2 ^ 32 + b) : tget (s.latchAll core f bs).latch k = tget s.latch k := by
  induction bs generalizing s with
  | nil => rfl
  | cons b bs ih =>
    rw [latchAll_cons, ih fun x hx => h x (by simp [hx]), State.latchFor, tget_tput, if_neg (h b (by simp))]

theorem latch_latchAll_mem {x : Nat} (hx : x ∈ bs) : tget (s.latchAll core f bs).latch (core * 2 ^ 32 + x) = some (f x) := by
  induction bs generalizing s with
  | nil => exact absurd hx (by simp)
  | cons b bs ih =>
    rw [latchAll_cons]
    by_cases hm : x ∈ bs
    · exact ih hm
    · obtain rfl : x = b := (List.mem_cons.1 hx).resolve_right hm
      have hapart : ∀ y ∈ bs, core * 2 ^ 32 + x ≠ core * 2 ^ 32 + y := fun y hy he => hm (Nat.add_left_cancel he ▸ hy)
      rw [latch_latchAll_ne hapart]
      exact tget_tput_self ..

theorem latchAll_congr {g : Nat → Word} (h : ∀ x ∈ bs, f x = g x) (core : Nat) (s : State) : s.latchAll core f bs = s.latchAll core g bs := by
  induction bs generalizing s with
  | nil => rfl
  | cons b bs ih => rw [latchAll_cons, latchAll_cons, h b (by simp), ih fun x hx => h x (by simp [hx])]

/-- Companions latched one after another, each as it stands. -/
theorem foldl_latchFor_reg (core : Nat) (g : Nat → Nat) (l : List Nat) (s : State) :
    l.foldl (fun (t : State) j => t.latchFor core (g j) (t.reg (g j))) s = s.latchAll core s.reg (l.map g) := by
  induction l generalizing s with
  | nil => rfl
  | cons j l ih => rw [List.foldl_cons, ih, List.map_cons, latchAll_cons]; rfl

end LatchAll

/-! ### What a core reads of a companion (R7, R209) -/

/-- The second status register of a slot, of which a latch covers only a part. -/
def isXstat (a : Nat) : Bool := decide (0xC5100000 ≤ a) && decide (a < 0xC5160000) && decide (a % 0x1000 = 0xB8)

theorem isXstat_of_bounds {lo hi a : Nat} (hl : lo ≤ a) (hh : a < hi) (h : hi ≤ 0xC5100000 ∨ 0xC5160000 ≤ lo) : isXstat a = false := by
  rw [isXstat, between_of_bounds hl hh (by omega)]
  rfl

/-- A word with the bits of `m` taken from itself. -/
theorem or_and_self (w m : Word) : (w &&& ~~~m) ||| (w &&& m) = w := by
  rw [← BitVec.and_or_distrib_left]
  have hones : ~~~m ||| m = BitVec.allOnes 32 := by
    ext i hi
    cases m[i] <;> simp
  rw [hones, BitVec.and_allOnes]

theorem xstatMix_self (w : Word) : xstatMix w w = w := by
  have hmask : 0x3FFF0000#32 = ~~~0xC000FFFF#32 := by decide
  rw [xstatMix, hmask, or_and_self]

/-- A latched word that the register still shows is what the core reads. -/
theorem coreView_of_live {t : State} {core a : Nat} {w : Word} (h : tget t.latch (core * 2 ^ 32 + a) = some w) (hlive : t.liveReg a = w) :
    t.coreView core a = w := by
  simp only [State.coreView, h, hlive, xstatMix_self, or_and_self, ite_self]

/-- Where the register has no RC field, the latched word is what the core reads. -/
theorem coreView_of_noRc {t : State} {core a : Nat} {w : Word} (h : tget t.latch (core * 2 ^ 32 + a) = some w) (hx : isXstat a = false)
    (hrc : ∀ d, findDesc a = some d → d.rc = 0) : t.coreView core a = w := by
  simp only [State.coreView, h]
  rw [if_neg (by simpa [isXstat] using hx)]
  cases hd : findDesc a with
  | none => simpa using and_ones w
  | some d => simpa [hrc d hd] using and_ones w

/-- Once latched by a read that changes at most `fs`, the companion `x` reads `w` for that core. -/
def State.companion (fs : List Fld) (x : Nat) (w : Word) (s : State) : Prop :=
  ∀ (core : Nat) (t : State), s.only [.latch, .access] fs t → tget t.latch (core * 2 ^ 32 + x) = some w → t.coreView core x = w

section Companion
variable {lo hi x : Nat} {fs : List Fld} {s t : State}

theorem freeWindow_of_only (h : s.only [.latch, .access] fs t) (a : Nat) : t.freeWindow a = s.freeWindow a := by
  have hcle : t.cle = s.cle := h.1 .cle (by simp)
  have hfus : t.fus = s.fus := h.1 .fus (by simp)
  have hbus : t.bus = s.bus := h.1 .bus (by simp)
  simp only [State.freeWindow, State.slotLive, State.fusLive, State.fusSrc, State.busObj, hcle, hfus, hbus]

theorem companion_of_noRc {w : Word} (g : WindowBounds lo hi) (hl : lo ≤ x) (hh : x < hi) (hx : isXstat x = false)
    (hall : ((windowRegs lo).all fun d => decide (d.rc = 0) || d.away lo hi) = true) : s.companion fs x w := fun _ _ _ hlatch =>
  coreView_of_noRc hlatch hx fun _ hd => of_decide_eq_true (findDesc_of_bounds hl hh (g.windowOf_eq hl hh) hall hd)

/-- A held register is a companion, whether or not a line of the table covers it and has RC fields. -/
theorem companion_of_held (g : HeldBounds lo hi) (hl : lo ≤ x) (hh : x < hi) (hf : s.freeWindow x = false) (hfs : ∀ f ∈ fs, f.addr ≠ x)
    (hx : isXstat x = false ∨ (findDesc x).isSome = true) : s.companion fs x (s.reg x) := fun core t honly hlatch => by
  have hreg : t.reg x = s.reg x := (keeps_of_only honly).2.1 x fun hm => by
    obtain ⟨f, hf, he⟩ := List.mem_map.1 hm
    exact hfs f hf he
  cases hd : findDesc x with
  | some d => exact coreView_of_live hlatch ((g.liveReg hl hh ((freeWindow_of_only honly x).trans hf) (by simp [hd])).trans hreg)
  | none => exact coreView_of_noRc hlatch (hx.resolve_right (by simp [hd])) (by simp [hd])

end Companion

/-! ### A latching read -/

/-- What a read leaves that answers `v`, latches `bs` for the core as `f` gives them, and changes at most `fs`. -/
structure State.Latched (s : State) (core : Fin 8) (v : Word) (bs : List Nat) (f : Nat → Word) (fs : List Fld) (t : State) : Prop where
  access : t.access = .value core.val v
  seen : ∀ x ∈ bs, t.coreView core.val x = f x
  others : ∀ c : Fin 8, ∀ a, c ≠ core → a < 2 ^ 32 → tget t.latch (c.val * 2 ^ 32 + a) = tget s.latch (c.val * 2 ^ 32 + a)
  only : s.only [.latch, .access] fs t

section LatchingRead
variable {core : Fin 8} {f : Nat → Word} {bs : List Nat} {v : Word} {fs : List Fld} {lo hi : Nat} {s t : State}

theorem latched_of (g : WindowBounds lo hi) (hin : ∀ x ∈ bs, lo ≤ x ∧ x < hi) (hacc : t.access = .value core.val v)
    (hlatch : t.latch = (s.latchAll core.val f bs).latch) (honly : s.only [.latch, .access] fs t) (hcomp : ∀ x ∈ bs, s.companion fs x (f x)) :
    s.Latched core v bs f fs t where
  access := hacc
  seen x hx := hcomp x hx core.val t honly (by rw [hlatch, latch_latchAll_mem hx])
  others c a hc ha := by
    rw [hlatch, latch_latchAll_ne fun x hx he => hc (Fin.ext ?_)]
    have := (hin x hx).2
    have := g.high
    omega
  only := honly

/-- A read that latches and answers, and clears nothing. -/
theorem only_latchingRead (core : Nat) (f : Nat → Word) (bs : List Nat) (v : Word) (s : State) :
    s.only [.latch, .access] [] ((s.latchAll core f bs).answer core v) :=
  only_seq (only_latchAll core f bs s) (only_access _ _)

theorem latched_noRc (v : Word) (f : Nat → Word) (g : WindowBounds lo hi) (hin : ∀ x ∈ bs, lo ≤ x ∧ x < hi) (hx : hi ≤ 0xC5100000 ∨ 0xC5160000 ≤ lo)
    (hall : ((windowRegs lo).all fun d => decide (d.rc = 0) || d.away lo hi) = true) :
    s.Latched core v bs f [] ((s.latchAll core.val f bs).answer core.val v) :=
  latched_of g hin rfl rfl (only_latchingRead ..) fun x hm => by
    obtain ⟨hl, hh⟩ := hin x hm
    exact companion_of_noRc g hl hh (isXstat_of_bounds hl hh hx) hall

theorem latched_held (v : Word) (g : HeldBounds lo hi) (hin : ∀ x ∈ bs, lo ≤ x ∧ x < hi) (hf : ∀ x ∈ bs, s.freeWindow x = false)
    (hx : ∀ x ∈ bs, isXstat x = false ∨ (findDesc x).isSome = true) :
    s.Latched core v bs s.reg [] ((s.latchAll core.val s.reg bs).answer core.val v) :=
  latched_of g.toWindowBounds hin rfl rfl (only_latchingRead ..) fun x hm => companion_of_held g (hin x hm).1 (hin x hm).2 (hf x hm) (by simp) (hx x hm)

/-- What a clause asks of a read that ends in `t`. -/
theorem State.Latched.next {a : Nat} (h : s.Latched core v bs f fs t) (hr : s.hostRead core.val a = t) :
    ∃ t, Host.Outcome.next (s.hostRead core.val a) = (.next t : Out) ∧ t.access = .value core.val v ∧ (∀ x ∈ bs, t.coreView core.val x = f x) ∧
      (∀ c : Fin 8, ∀ a, c ≠ core → a < 2 ^ 32 → tget t.latch (c.val * 2 ^ 32 + a) = tget s.latch (c.val * 2 ^ 32 + a)) ∧
      s.only [.latch, .access] fs t :=
  ⟨t, congrArg Host.Outcome.next hr, h.access, h.seen, h.others, h.only⟩

/-- The same of a read with one companion. -/
theorem State.Latched.nextOne {a x : Nat} (h : s.Latched core v [x] f fs t) (hr : s.hostRead core.val a = t) :
    ∃ t, Host.Outcome.next (s.hostRead core.val a) = (.next t : Out) ∧ t.access = .value core.val v ∧ t.coreView core.val x = f x ∧
      (∀ c : Fin 8, ∀ a, c ≠ core → a < 2 ^ 32 → tget t.latch (c.val * 2 ^ 32 + a) = tget s.latch (c.val * 2 ^ 32 + a)) ∧
      s.only [.latch, .access] fs t :=
  ⟨t, congrArg Host.Outcome.next hr, h.access, h.seen x (by simp), h.others, h.only⟩

/-- A read of a register of an array that `latchRead` finds among the reads with a latch. -/
theorem hostRead_array {b st cnt n a core : Nat} {r : Nat → State} (ha : a = b + st * n) (hn : n < cnt) (hc : s.closed a = false)
    (hf : b ≤ a → a < b + st * cnt → s.freeWindow a = false)
    (hr : b ≤ a → a < b + st * cnt → (decide (b ≤ a) && decide (a < b + st * cnt) && decide ((a - b) % st = 0)) = true →
      s.latchRead core a = some (r ((a - b) / st)))
    (hst : 0 < st := by decide) (g : WindowBounds b (b + st * cnt) := by constructor <;> decide) (h4 : b % 4 = 0 ∧ st % 4 = 0 := by decide) :
    s.hostRead core a = r n := by
  subst ha
  obtain ⟨hl, hh, hin, hidx⟩ := array_within (b := b) hn hst
  have hmul : st * n % 4 = 0 := by rw [Nat.mul_mod, h4.2, Nat.zero_mul, Nat.zero_mod]
  exact hostRead_latching (g.goodAddr hl hh (by omega)) hc (hf hl hh) ((hr hl hh hin).trans (by rw [hidx]))

end LatchingRead

/-! ### The reads of INP (R152, R157, R161, R162) -/

section InpReads
variable {core : Fin 8} {s : State} {n : Nat}

theorem ainRead_latched (n : Nat) (s : State) :
    s.Latched core (s.reg (INP_AIN_RAW n)) [INP_AIN_VAL n] s.reg [] (s.readAinRaw core.val n) :=
  latched_noRc (lo := 0xC4001000) (hi := 0xC4001600) _ _ (by constructor <;> decide) (fun x hx => ain_bounds n x (by simp [List.mem_singleton.1 hx]))
    (by decide) (by decide)

theorem hostRead_ainRaw (hn : n < 48) (hc : s.closed (INP_AIN_RAW n) = false) :
    s.hostRead core.val (INP_AIN_RAW n) = s.readAinRaw core.val n :=
  hostRead_array (b := INP_AIN_RAW 0) (st := 0x20) (cnt := 48) (r := fun n => s.readAinRaw core.val n) (by simp only [INP_AIN_RAW]; omega) hn hc
    (fun hl hh => freeWindow_of_bounds hl hh (by decide) s) fun hl hh hin => by
      simp (disch := decide) only [State.latchRead, ne_of_bounds hl hh, ↓reduceIte, hin]

theorem pinRead_latched (n : Nat) (s : State) :
    s.Latched core (s.reg (INP_PIN_VAL n)) [INP_PIN_STAT n, INP_PIN_LTC_LO n, INP_PIN_LTC_HI n] s.reg [] (s.readPinVal core.val n) := by
  have hin : ∀ x ∈ [INP_PIN_STAT n, INP_PIN_LTC_LO n, INP_PIN_LTC_HI n], 0xC4002000 ≤ x ∧ x < 0xC4002300 := by
    simp only [List.mem_cons, List.not_mem_nil, or_false, forall_eq_or_imp, forall_eq, INP_PIN_STAT, INP_PIN_LTC_LO, INP_PIN_LTC_HI]
    omega
  have hheld : HeldBounds 0xC4002000 0xC4002300 := ⟨⟨by decide, by decide, by decide⟩, by decide, by decide⟩
  exact latched_held _ hheld hin (fun x hx => freeWindow_of_bounds (hin x hx).1 (hin x hx).2 (by decide) s)
    fun x hx => .inl (isXstat_of_bounds (hin x hx).1 (hin x hx).2 (by decide))

theorem hostRead_pinVal (hn : n < 24) (hc : s.closed (INP_PIN_VAL n) = false) :
    s.hostRead core.val (INP_PIN_VAL n) = s.readPinVal core.val n :=
  hostRead_array (b := INP_PIN_VAL 0) (st := 0x20) (cnt := 24) (r := fun n => s.readPinVal core.val n) (by simp only [INP_PIN_VAL]; omega) hn hc
    (fun hl hh => freeWindow_of_bounds hl hh (by decide) s) fun hl hh hin => by
      simp (disch := decide) only [State.latchRead, ne_of_bounds hl hh, between_of_bounds hl hh, Bool.false_and, Bool.false_eq_true, ↓reduceIte, hin]

theorem lacRead_latched (n : Nat) (s : State) :
    s.Latched core (s.reg (INP_LAC_CNT n)) [INP_LAC_PEAK n, INP_LAC_LTC_LO n, INP_LAC_LTC_HI n] s.reg [] (s.readLacCnt core.val n) := by
  have hin : ∀ x ∈ [INP_LAC_PEAK n, INP_LAC_LTC_LO n, INP_LAC_LTC_HI n], 0xC4003000 ≤ x ∧ x < 0xC4003100 := by
    simp only [List.mem_cons, List.not_mem_nil, or_false, forall_eq_or_imp, forall_eq, INP_LAC_PEAK, INP_LAC_LTC_LO, INP_LAC_LTC_HI]
    omega
  exact latched_noRc _ s.reg (by constructor <;> decide) hin (by decide) (by decide)

theorem hostRead_lacCnt (hn : n < 8) (hc : s.closed (INP_LAC_CNT n) = false) :
    s.hostRead core.val (INP_LAC_CNT n) = s.readLacCnt core.val n :=
  hostRead_array (b := INP_LAC_CNT 0) (st := 0x20) (cnt := 8) (r := fun n => s.readLacCnt core.val n) (by simp only [INP_LAC_CNT]; omega) hn hc
    (fun hl hh => freeWindow_of_bounds hl hh (by decide) s) fun hl hh hin => by
      simp (disch := decide) only [State.latchRead, ne_of_bounds hl hh, between_of_bounds hl hh, Bool.false_and, Bool.false_eq_true, ↓reduceIte, hin]

theorem flowRead_latched (s : State) :
    s.Latched core (s.reg INP_FLOW_STAT) [INP_FLOW_VAL, INP_FLOW_LTC_LO, INP_FLOW_LTC_HI] s.reg [] (s.readFlowStat core.val) :=
  latched_noRc (lo := INP_FLOW_VAL) (hi := INP_FLOW_LTC_HI + 4) _ s.reg (by constructor <;> decide) (by decide) (by decide) (by decide)

theorem hostRead_flowStat (hc : s.closed INP_FLOW_STAT = false) : s.hostRead core.val INP_FLOW_STAT = s.readFlowStat core.val :=
  hostRead_latching rfl hc rfl rfl

end InpReads

/-! ### The reads of CLE (R168, R186, R209) -/

section CleReads
variable {core : Fin 8} {s : State} {n : Nat}

theorem frameRead_latched (s : State) :
    s.Latched core (BitVec.ofNat 32 s.frameNow) [CLE_FRAME_HI] (fun _ => BitVec.ofNat 32 (s.frameNow / 2 ^ 32)) [] (s.readFrame core.val) :=
  latched_noRc (lo := CLE_FRAME_HI) (hi := CLE_FRAME_HI + 4) _ (fun _ => BitVec.ofNat 32 (s.frameNow / 2 ^ 32)) (by constructor <;> decide)
    (by decide) (by decide) (by decide)

theorem hostRead_frameLo (hc : s.closed CLE_FRAME_LO = false) : s.hostRead core.val CLE_FRAME_LO = s.readFrame core.val :=
  hostRead_latching rfl hc rfl rfl

/-- The window of a live slot is there. -/
theorem freeWindow_slot {a : Nat} (hn : n < 96) (hl : 0xC5100000 + 0x1000 * n ≤ a) (hh : a < 0xC5100000 + 0x1000 * n + 0x1000) (hlive : s.slotLive n = true) :
    s.freeWindow a = false := by
  have hin : (decide (0xC5100000 ≤ a) && decide (a < 0xC5160000)) = true := by
    rw [decide_eq_true (by omega), decide_eq_true (by omega)]
    rfl
  have hidx : (a - 0xC5100000) / 0x1000 = n := by omega
  rw [State.freeWindow, if_pos hin, hidx, hlive]
  rfl

theorem readSample_eq (hs : (s.slot n).snap = []) :
    s.readSample core.val n = (s.latchAll core.val s.reg (sampleCompanions n)).answer core.val (s.reg (CLE_S_SAMPLE n)) := by
  simp only [State.readSample, hs, sampleCompanions, List.isEmpty_nil, if_true, List.map_cons, List.map_nil, List.zip_cons_cons, List.zip_nil_left,
    List.foldl_cons, List.foldl_nil, BitVec.ofNat_toNat, BitVec.setWidth_eq]
  rfl

theorem sampleRead_latched (hn : n < 96) (hlive : s.slotLive n = true) (hs : (s.slot n).snap = []) :
    s.Latched core (s.reg (CLE_S_SAMPLE n)) (sampleCompanions n) s.reg [] (s.readSample core.val n) := by
  have hin : ∀ x ∈ sampleCompanions n, 0xC5100000 + 0x1000 * n ≤ x ∧ x < 0xC5100000 + 0x1000 * n + 0x1000 ∧
      (x % 0x1000 = 0xB8 → x = 0xC51000B8 + 0x1000 * n) := by
    simp only [sampleCompanions, List.mem_cons, List.not_mem_nil, or_false, forall_eq_or_imp, forall_eq, CLE_S_OUT, CLE_S_OUT_LTC_LO, CLE_S_OUT_LTC_HI,
      CLE_S_REF, CLE_S_MEAS, CLE_S_INTEG, CLE_S_DERIV, CLE_S_XSTAT]
    omega
  have hheld : HeldBounds 0xC5100000 0xC5160000 := ⟨⟨by decide, by decide, by decide⟩, by decide, by decide⟩
  rw [readSample_eq hs]
  refine latched_held _ hheld (fun x hx => ?_) (fun x hx => freeWindow_slot hn (hin x hx).1 (hin x hx).2.1 hlive) fun x hx => ?_
  · obtain ⟨hl, hh, -⟩ := hin x hx
    omega
  · by_cases h : x % 0x1000 = 0xB8
    · rw [(hin x hx).2.2 h]
      exact .inr (findDesc_array (cnt := 96) (by decide) hn (by simp only [windowOf]; omega) (by decide))
    · exact .inl (by simp [isXstat, h])

theorem hostRead_sample (hn : n < 96) (hc : s.closed (CLE_S_SAMPLE n) = false) (hlive : s.slotLive n = true) :
    s.hostRead core.val (CLE_S_SAMPLE n) = s.readSample core.val n :=
  hostRead_array (b := CLE_S_SAMPLE 0) (st := 0x1000) (cnt := 96) (r := fun n => s.readSample core.val n) (by simp only [CLE_S_SAMPLE]; omega) hn hc
    (fun _ _ => freeWindow_slot hn (by simp only [CLE_S_SAMPLE]; omega) (by simp only [CLE_S_SAMPLE]; omega) hlive) fun hl hh hin => by
      simp (disch := decide) only [State.latchRead, ne_of_bounds hl hh, between_of_bounds hl hh, Bool.false_and, Bool.false_eq_true, ↓reduceIte, hin]

end CleReads

/-! ### The reads of VDR (R212, R228) -/

section VdrReads
variable {core : Fin 8} {s : State} {n : Nat}

theorem senseRead_latched (n : Nat) (s : State) :
    s.Latched core (s.reg (VDR_OUT_SENSE n)) [VDR_OUT_RELT n] s.reg [] (s.readSense core.val n) := by
  have hin : ∀ x ∈ [VDR_OUT_RELT n], 0xC6001000 ≤ x ∧ x < 0xC6001800 := by
    simp only [List.mem_singleton, forall_eq, VDR_OUT_RELT]
    omega
  exact latched_noRc _ s.reg (by constructor <;> decide) hin (by decide) (by decide)

theorem hostRead_sense (hn : n < 64) (hc : s.closed (VDR_OUT_SENSE n) = false) :
    s.hostRead core.val (VDR_OUT_SENSE n) = s.readSense core.val n :=
  hostRead_array (b := VDR_OUT_SENSE 0) (st := 0x20) (cnt := 64) (r := fun n => s.readSense core.val n) (by simp only [VDR_OUT_SENSE]; omega) hn hc
    (fun hl hh => freeWindow_of_bounds hl hh (by decide) s) fun hl hh hin => by
      simp (disch := decide) only [State.latchRead, ne_of_bounds hl hh, between_of_bounds hl hh, Bool.false_and, Bool.false_eq_true, ↓reduceIte, hin]

theorem ctxRead_latched (n : Nat) (s : State) :
    s.Latched core (s.reg (VDR_CTX_STAT n)) [VDR_CTX_RUN n, VDR_CTX_LTC_LO n, VDR_CTX_LTC_HI n, VDR_CTX_REQ n] s.reg [] (s.readCtx core.val n) := by
  have hin : ∀ x ∈ [VDR_CTX_RUN n, VDR_CTX_LTC_LO n, VDR_CTX_LTC_HI n, VDR_CTX_REQ n], 0xC6002000 ≤ x ∧ x < 0xC6002800 := by
    simp only [List.mem_cons, List.not_mem_nil, or_false, forall_eq_or_imp, forall_eq, VDR_CTX_RUN, VDR_CTX_LTC_LO, VDR_CTX_LTC_HI, VDR_CTX_REQ]
    omega
  exact latched_noRc _ s.reg (by constructor <;> decide) hin (by decide) (by decide)

theorem hostRead_ctx (hn : n < 64) (hc : s.closed (VDR_CTX_STAT n) = false) :
    s.hostRead core.val (VDR_CTX_STAT n) = s.readCtx core.val n :=
  hostRead_array (b := VDR_CTX_STAT 0) (st := 0x20) (cnt := 64) (r := fun n => s.readCtx core.val n) (by simp only [VDR_CTX_STAT]; omega) hn hc
    (fun hl hh => freeWindow_of_bounds hl hh (by decide) s) fun hl hh hin => by
      simp (disch := decide) only [State.latchRead, ne_of_bounds hl hh, between_of_bounds hl hh, Bool.false_and, Bool.false_eq_true, ↓reduceIte, hin]

end VdrReads

/-! ### The reads of GNB (R279) -/

section GnbReads
variable {core : Fin 8} {s : State} {n : Nat}

/-- GNB lies in no region: its window never reconfigures (R101). -/
theorem closed_gnb {a : Nat} (ha : windowOf a = 0xC8) (s : State) : s.closed a = false := by
  have h : a / 0x1000000 = 0xC8 := ha
  simp [State.closed, State.reconfiguring, blkOf, regionOf, h]

theorem scRead_latched (s : State) :
    s.Latched core (s.gnbScView.reg GNB_SC_LO) [GNB_SC_HI] s.gnbScView.reg [] (s.readGnb core.val 0) :=
  latched_noRc (lo := GNB_SC_HI) (hi := GNB_SC_HI + 4) _ s.gnbScView.reg (by constructor <;> decide) (by decide) (by decide) (by decide)

theorem hostRead_sc (s : State) : s.hostRead core.val GNB_SC_LO = s.readGnb core.val 0 :=
  hostRead_latching rfl (closed_gnb rfl s) rfl rfl

theorem markRead_latched (s : State) :
    s.Latched core (s.gnbScView.reg GNB_MARK_SC_LO) [GNB_MARK_SC_HI, GNB_MARK_LTC_LO, GNB_MARK_LTC_HI] s.gnbScView.reg [] (s.readGnb core.val 1) :=
  latched_noRc (lo := GNB_MARK_SC_HI) (hi := GNB_MARK_LTC_HI + 4) _ s.gnbScView.reg (by constructor <;> decide) (by decide) (by decide) (by decide)

theorem hostRead_mark (s : State) : s.hostRead core.val GNB_MARK_SC_LO = s.readGnb core.val 1 :=
  hostRead_latching rfl (closed_gnb rfl s) rfl rfl

theorem chRead_latched (n : Nat) (s : State) : s.Latched core (s.reg (GNB_CH_STAT n)) [GNB_CH_BOUND n] s.reg [] (s.readGnb core.val (2 + n)) := by
  have hin : ∀ x ∈ [GNB_CH_BOUND n], 0xC8100000 ≤ x ∧ x < 0xC8102000 := by
    simp only [List.mem_singleton, forall_eq, GNB_CH_BOUND]
    omega
  rw [Nat.add_comm]
  exact latched_noRc _ s.reg (by constructor <;> decide) hin (by decide) (by decide)

theorem hostRead_ch (hn : n < 512) (s : State) : s.hostRead core.val (GNB_CH_STAT n) = s.readGnb core.val (2 + n) :=
  hostRead_array (b := GNB_CH_STAT 0) (st := 0x10) (cnt := 512) (r := fun n => s.readGnb core.val (2 + n)) (by simp only [GNB_CH_STAT]; omega) hn
    (closed_gnb (by simp only [windowOf, GNB_CH_STAT]; omega) s) (fun hl hh => freeWindow_of_bounds hl hh (by decide) s) fun hl hh hin => by
      simp (disch := decide) only [State.latchRead, ne_of_bounds hl hh, between_of_bounds hl hh, Bool.false_and, Bool.false_eq_true, ↓reduceIte, hin]

end GnbReads

/-! ### The read of CAM -/

section CamRead
variable {core : Fin 8} {s : State} {n : Nat}

theorem camRead_latched (n : Nat) (s : State) :
    s.Latched core (s.reg (CAM_CTX_STAT n)) [CAM_CTX_CSEQ n] s.reg [CAM_CTX_STAT.PAL_SKIP n] (s.readCamCtx core.val n) := by
  have hin : ∀ x ∈ [CAM_CTX_CSEQ n], 0xC9100000 ≤ x ∧ x < 0xC9100400 := by
    simp only [List.mem_singleton, forall_eq, CAM_CTX_CSEQ]
    omega
  have hne : CAM_CTX_STAT n ≠ CAM_CTX_CSEQ n := by simp only [CAM_CTX_STAT, CAM_CTX_CSEQ]; omega
  have hheld : HeldBounds 0xC9100000 0xC9100400 := ⟨⟨by decide, by decide, by decide⟩, by decide, by decide⟩
  refine latched_of hheld.toWindowBounds hin (set_access ..) (set_latch ..)
    (only_seq (only_latchingRead core.val s.reg [CAM_CTX_CSEQ n] _ s) (only_set _ 0 (Nat.le_of_ble_eq_true rfl))) fun x hx => ?_
  obtain ⟨hl, hh⟩ := hin x hx
  exact companion_of_held hheld hl hh (freeWindow_of_bounds hl hh (by decide) s)
    (fun f hf => by rw [List.mem_singleton.1 hf, List.mem_singleton.1 hx]; exact hne) (.inl (isXstat_of_bounds hl hh (by decide)))

theorem palSkip_readCamCtx (core n : Nat) (s : State) : (s.readCamCtx core n).get (CAM_CTX_STAT.PAL_SKIP n) = 0 :=
  (get_set_self _ _ _ (Nat.le_of_ble_eq_true rfl)).trans (Nat.zero_mod _)

theorem hostRead_camCtx (hn : n < 32) (hc : s.closed (CAM_CTX_STAT n) = false) :
    s.hostRead core.val (CAM_CTX_STAT n) = s.readCamCtx core.val n :=
  hostRead_array (b := CAM_CTX_STAT 0) (st := 0x20) (cnt := 32) (r := fun n => s.readCamCtx core.val n) (by simp only [CAM_CTX_STAT]; omega) hn hc
    (fun hl hh => freeWindow_of_bounds hl hh (by decide) s) fun hl hh hin => by
      simp (disch := decide) only [State.latchRead, ne_of_bounds hl hh, between_of_bounds hl hh, Bool.false_and, Bool.false_eq_true, ↓reduceIte, hin]

end CamRead

/-! ### The reads of FUS (R377, R407) -/

section FusReads
variable {core : Fin 8} {s : State} {n : Nat}

def fusImuRegs : List Nat := [FUS_IMU1, FUS_IMU2, FUS_IMU_LTC_LO, FUS_IMU_LTC_HI]

theorem liveReg_imu {a : Nat} (ha : a ∈ FUS_IMU0 :: fusImuRegs) (s : State) : s.liveReg a = s.reg a := by
  have hheld : HeldBounds FUS_IMU0 (FUS_IMU_LTC_HI + 4) := ⟨⟨by decide, by decide, by decide⟩, by decide, by decide⟩
  have hin : ∀ x ∈ FUS_IMU0 :: fusImuRegs, (FUS_IMU0 ≤ x ∧ x < FUS_IMU_LTC_HI + 4) ∧ (findDesc x).isSome = true := by decide
  obtain ⟨⟨hl, hh⟩, hd⟩ := hin a ha
  exact hheld.liveReg hl hh (freeWindow_of_bounds hl hh (by decide) s) hd

theorem imuRead_latched (s : State) :
    s.Latched core (s.reg FUS_IMU0) fusImuRegs s.reg [] ((s.latchAll core.val s.reg fusImuRegs).answer core.val (s.reg FUS_IMU0)) :=
  latched_noRc (lo := FUS_IMU0) (hi := FUS_IMU_LTC_HI + 4) _ _ (by constructor <;> decide) (by decide) (by decide) (by decide)

theorem hostRead_imu (hc : s.closed FUS_IMU0 = false) :
    s.hostRead core.val FUS_IMU0 = (s.latchAll core.val s.reg fusImuRegs).answer core.val (s.reg FUS_IMU0) := by
  have hread : s.hostRead core.val FUS_IMU0 = (s.latchAll core.val s.liveReg fusImuRegs).answer core.val (s.liveReg FUS_IMU0) :=
    hostRead_latching rfl hc rfl rfl
  rw [hread, liveReg_imu (by simp), latchAll_congr fun _ hx => liveReg_imu (List.mem_cons_of_mem _ hx) s]

def fusEstRegs (n : Nat) : List Nat :=
  [FUS_S_EST_ROLL n, FUS_S_EST_PITCH n, FUS_S_EST_YAW n, FUS_S_EST_TX n, FUS_S_EST_TY n, FUS_S_EST_TZ n, FUS_S_RF_USED n]

theorem fusEst_bounds (hn : n < 24) : ∀ x ∈ FUS_S_CALV n :: fusEstRegs n, 0xCC10001C + 0x100 * n ≤ x ∧ x < 0xCC10003C + 0x100 * n ∧ x % 4 = 0 := by
  simp only [fusEstRegs, List.mem_cons, List.not_mem_nil, or_false, forall_eq_or_imp, forall_eq, FUS_S_CALV, FUS_S_EST_ROLL, FUS_S_EST_PITCH, FUS_S_EST_YAW,
    FUS_S_EST_TX, FUS_S_EST_TY, FUS_S_EST_TZ, FUS_S_RF_USED]
  omega

/-- The window of a live source is there. -/
theorem freeWindow_source {a : Nat} (hn : n < 24) (ha : a ∈ FUS_S_CALV n :: fusEstRegs n) (hlive : s.fusLive n = true) : s.freeWindow a = false := by
  obtain ⟨hl, hh, -⟩ := fusEst_bounds hn a ha
  have hslot : (decide (0xC5100000 ≤ a) && decide (a < 0xC5160000)) = false := between_of_bounds hl hh (by omega)
  have hin : (decide (0xCC100000 ≤ a) && decide (a < 0xCC101800)) = true := by
    rw [decide_eq_true (by omega), decide_eq_true (by omega)]
    rfl
  have hidx : (a - 0xCC100000) / 0x100 = n := by omega
  rw [State.freeWindow, hslot, if_neg (by decide), if_pos hin, hidx, hlive]
  rfl

theorem findDesc_fusEst {a : Nat} (hn : n < 24) (ha : a ∈ FUS_S_CALV n :: fusEstRegs n) : (findDesc a).isSome = true := by
  obtain ⟨hl, hh, h4⟩ := fusEst_bounds hn a ha
  obtain ⟨k, hk, rfl⟩ : ∃ k < 8, a = 0xCC10001C + 4 * k + 0x100 * n := ⟨(a - 0xCC10001C - 0x100 * n) / 4, by omega, by omega⟩
  have hany : ∀ k < 8, ((windowRegs (0xCC10001C + 4 * k)).any fun d =>
      decide (d.base = 0xCC10001C + 4 * k ∧ d.s1 = 0x100 ∧ d.n1 = 24 ∧ d.s2 = 4 ∧ d.n2 = 1)) = true := by decide
  exact findDesc_array (cnt := 24) (by decide) hn (by simp only [windowOf]; omega) (hany k hk)

theorem heldBounds_sources : HeldBounds 0xCC100000 0xCC101800 := ⟨⟨by decide, by decide, by decide⟩, by decide, by decide⟩

theorem liveReg_fusEst {a : Nat} (hn : n < 24) (ha : a ∈ FUS_S_CALV n :: fusEstRegs n) (hlive : s.fusLive n = true) : s.liveReg a = s.reg a := by
  obtain ⟨hl, hh, -⟩ := fusEst_bounds hn a ha
  exact heldBounds_sources.liveReg (by omega) (by omega) (freeWindow_source hn ha hlive) (findDesc_fusEst hn ha)

theorem calvRead_latched (hn : n < 24) (hlive : s.fusLive n = true) :
    s.Latched core (s.reg (FUS_S_CALV n)) (fusEstRegs n) s.reg [] ((s.latchAll core.val s.reg (fusEstRegs n)).answer core.val (s.reg (FUS_S_CALV n))) := by
  have hin : ∀ x ∈ fusEstRegs n, 0xCC100000 ≤ x ∧ x < 0xCC101800 := fun x hx => by
    obtain ⟨hl, hh, -⟩ := fusEst_bounds hn x (List.mem_cons_of_mem _ hx)
    omega
  exact latched_held _ heldBounds_sources hin (fun x hx => freeWindow_source hn (List.mem_cons_of_mem _ hx) hlive)
    fun x hx => .inl (isXstat_of_bounds (hin x hx).1 (hin x hx).2 (by decide))

theorem hostRead_calv (hn : n < 24) (hc : s.closed (FUS_S_CALV n) = false) (hlive : s.fusLive n = true) :
    s.hostRead core.val (FUS_S_CALV n) = (s.latchAll core.val s.reg (fusEstRegs n)).answer core.val (s.reg (FUS_S_CALV n)) := by
  have hread : s.hostRead core.val (FUS_S_CALV n) = (s.latchAll core.val s.liveReg (fusEstRegs n)).answer core.val (s.liveReg (FUS_S_CALV n)) :=
    hostRead_array (b := FUS_S_CALV 0) (st := 0x100) (cnt := 24)
      (r := fun k => (s.latchAll core.val s.liveReg (fusEstRegs k)).answer core.val (s.liveReg (FUS_S_CALV n))) (by simp only [FUS_S_CALV]; omega) hn hc
      (fun _ _ => freeWindow_source hn (by simp) hlive) fun hl hh hin => by
        simp (disch := decide) only [State.latchRead, ne_of_bounds hl hh, between_of_bounds hl hh, Bool.false_and, Bool.false_eq_true, ↓reduceIte, hin]
        rfl
  rw [hread, liveReg_fusEst hn (by simp) hlive, latchAll_congr fun _ hx => liveReg_fusEst hn (List.mem_cons_of_mem _ hx) hlive]

end FusReads

/-! ### The read of BUS (R435) -/

section BusRead
variable {core : Fin 8} {s : State} {n : Nat} {o : CanObj}

def objRcFlds (n : Nat) : List Fld := [BUS_OBJ_STAT.NEW n, BUS_OBJ_STAT.LOST n, BUS_OBJ_STAT.DONE n, BUS_OBJ_STAT.FAILED n]

/-- The flags of an object that a read of BUS_OBJ_STAT clears. -/
def State.objCleared (n : Nat) (s : State) : State :=
  (((s.setB (BUS_OBJ_STAT.NEW n) false).setB (BUS_OBJ_STAT.LOST n) false).setB (BUS_OBJ_STAT.DONE n) false).setB (BUS_OBJ_STAT.FAILED n) false

theorem only_objCleared (n : Nat) (s : State) : s.only [] (objRcFlds n) (s.objCleared n) := by
  have hclear (u : State) {f : Fld} (hf : f.lo + f.width ≤ 32) : u.only [] [f] (u.setB f false) := only_set u _ hf
  exact only_seq (only_seq (only_seq (hclear _ (Nat.le_of_ble_eq_true rfl)) (hclear _ (Nat.le_of_ble_eq_true rfl))) (hclear _ (Nat.le_of_ble_eq_true rfl)))
    (hclear _ (Nat.le_of_ble_eq_true rfl))

theorem objCleared_clears (n : Nat) (s : State) : (s.objCleared n).getB (BUS_OBJ_STAT.NEW n) = false ∧ (s.objCleared n).getB (BUS_OBJ_STAT.LOST n) = false ∧
    (s.objCleared n).getB (BUS_OBJ_STAT.DONE n) = false ∧ (s.objCleared n).getB (BUS_OBJ_STAT.FAILED n) = false := by
  have hself (u : State) {i : Nat} (hi : i < 32) : (u.setB ⟨BUS_OBJ_STAT n, i, 1⟩ false).getB ⟨BUS_OBJ_STAT n, i, 1⟩ = false :=
    getB_setB_self u _ _ hi rfl
  have hkept {u : State} {i j : Nat} (hi : i < 32) (hj : j < i) (h : u.getB ⟨BUS_OBJ_STAT n, j, 1⟩ = false) :
      (u.setB ⟨BUS_OBJ_STAT n, i, 1⟩ false).getB ⟨BUS_OBJ_STAT n, j, 1⟩ = false :=
    (getB_of_get (get_setB_apart u ⟨BUS_OBJ_STAT n, i, 1⟩ ⟨BUS_OBJ_STAT n, j, 1⟩ _ (.inr (.inl hj)) hi)).trans h
  refine ⟨hkept ?_ ?_ (hkept ?_ ?_ (hkept ?_ ?_ (hself _ ?_))), hkept ?_ ?_ (hkept ?_ ?_ (hself _ ?_)), hkept ?_ ?_ (hself _ ?_), hself _ ?_⟩ <;> decide

theorem readObj_eq (ho : s.busObj n = some o) : s.readObj core.val n =
    ((s.latchAll core.val s.reg ((List.range 22).map (BUS_OBJ_REC n))).objCleared n).answer core.val (s.reg (BUS_OBJ_STAT n)) := by
  simp only [State.readObj, ho]
  rw [foldl_latchFor_reg]
  rfl

theorem freeWindow_object {a : Nat} (hn : n < 2048) (hl : 0xCE100000 + 0x80 * n ≤ a) (hh : a < 0xCE100000 + 0x80 * n + 0x80) (ho : s.busObj n = some o) :
    s.freeWindow a = false := by
  have hslot : (decide (0xC5100000 ≤ a) && decide (a < 0xC5160000)) = false := between_of_bounds hl hh (by omega)
  have hsrc : (decide (0xCC100000 ≤ a) && decide (a < 0xCC101800)) = false := between_of_bounds hl hh (by omega)
  have hin : (decide (0xCE100000 ≤ a) && decide (a < 0xCE140000)) = true := by
    rw [decide_eq_true (by omega), decide_eq_true (by omega)]
    rfl
  have hidx : (a - 0xCE100000) / 128 = n := by omega
  rw [State.freeWindow, hslot, if_neg (by decide), hsrc, if_neg (by decide), if_pos hin, hidx, ho]
  rfl

theorem objRead_latched (hn : n < 2048) (ho : s.busObj n = some o) :
    s.Latched core (s.reg (BUS_OBJ_STAT n)) ((List.range 22).map (BUS_OBJ_REC n)) s.reg (objRcFlds n) (s.readObj core.val n) := by
  have hin : ∀ x ∈ (List.range 22).map (BUS_OBJ_REC n), 0xCE100000 + 0x80 * n + 0x20 ≤ x ∧ x < 0xCE100000 + 0x80 * n + 0x80 := by
    simp only [List.forall_mem_map, BUS_OBJ_REC]
    omega
  have hheld : HeldBounds 0xCE100000 0xCE140000 := ⟨⟨by decide, by decide, by decide⟩, by decide, by decide⟩
  have haddr : ∀ f ∈ objRcFlds n, f.addr = 0xCE100000 + 0x80 * n := by
    simp only [objRcFlds, List.mem_cons, List.not_mem_nil, or_false, forall_eq_or_imp, forall_eq, BUS_OBJ_STAT.NEW, BUS_OBJ_STAT.LOST, BUS_OBJ_STAT.DONE,
      BUS_OBJ_STAT.FAILED, BUS_OBJ_STAT]
    omega
  rw [readObj_eq ho]
  refine latched_of hheld.toWindowBounds (fun x hx => ?_) rfl (by simp only [State.answer, State.objCleared, setB_latch])
    (only_seq (only_seq (only_latchAll ..) (only_objCleared n _)) (only_access ..)) fun x hx => ?_
  · have := hin x hx
    omega
  · obtain ⟨hl, hh⟩ := hin x hx
    exact companion_of_held hheld (by omega) (by omega) (freeWindow_object hn (by omega) hh ho) (fun f hf => by rw [haddr f hf]; omega)
      (.inl (isXstat_of_bounds hl hh (by omega)))

theorem hostRead_obj (hn : n < 2048) (hc : s.closed (BUS_OBJ_STAT n) = false) (ho : s.busObj n = some o) :
    s.hostRead core.val (BUS_OBJ_STAT n) = s.readObj core.val n :=
  hostRead_array (b := BUS_OBJ_STAT 0) (st := 0x80) (cnt := 2048) (r := fun n => s.readObj core.val n) (by simp only [BUS_OBJ_STAT]; omega) hn hc
    (fun _ _ => freeWindow_object hn (by simp only [BUS_OBJ_STAT]; omega) (by simp only [BUS_OBJ_STAT]; omega) ho) fun hl hh hin => by
      simp (disch := decide) only [State.latchRead, ne_of_bounds hl hh, between_of_bounds hl hh, Bool.false_and, Bool.false_eq_true, ↓reduceIte, hin]

theorem readObj_clears (ho : s.busObj n = some o) (core : Fin 8) : let t := s.readObj core.val n
    t.getB (BUS_OBJ_STAT.NEW n) = false ∧ t.getB (BUS_OBJ_STAT.LOST n) = false ∧ t.getB (BUS_OBJ_STAT.DONE n) = false ∧
      t.getB (BUS_OBJ_STAT.FAILED n) = false := by
  have hanswer (u : State) (core : Nat) (w : Word) (f : Fld) : (u.answer core w).getB f = u.getB f := rfl
  intro t
  simp only [t, readObj_eq ho, hanswer]
  exact objCleared_clears ..

end BusRead

/-- Settles O27: each read answers the register and latches its companions for the reading core; CAM and BUS clear their RC fields. -/
theorem latchedReadsAnswerOneSampleToTheReadingCore : Obligations.LatchedReadsAnswerOneSampleToTheReadingCore := by
  refine ⟨fun core n s hc => ?_, fun core n s hc => ?_, fun core n s hc => ?_, fun core s hc => ?_, fun core s hc => ?_, fun core n s hc hlive hsnap => ?_,
    fun core n s hc => ?_, fun core n s hc => ?_, fun core s => ?_, fun core s => ?_, fun core which s hw => ?_, fun core n s hc => ?_, fun core s hc => ?_,
    fun core n s hc hlive => ?_, fun core n o s hc ho => ?_⟩
  · exact (ainRead_latched n.val s).nextOne (hostRead_ainRaw n.isLt hc)
  · exact (pinRead_latched n.val s).next (hostRead_pinVal n.isLt hc)
  · exact (lacRead_latched n.val s).next (hostRead_lacCnt n.isLt hc)
  · exact (flowRead_latched s).next (hostRead_flowStat hc)
  · exact (frameRead_latched s).nextOne (hostRead_frameLo hc)
  · exact (sampleRead_latched n.isLt hlive hsnap).next (hostRead_sample n.isLt hc hlive)
  · exact (senseRead_latched n.val s).nextOne (hostRead_sense n.isLt hc)
  · exact (ctxRead_latched n.val s).next (hostRead_ctx n.isLt hc)
  · exact (scRead_latched s).nextOne (hostRead_sc s)
  · exact (markRead_latched s).next (hostRead_mark s)
  · obtain ⟨_ | _ | n, hn⟩ := which
    · exact absurd hw (by simp)
    · exact absurd hw (by simp)
    · exact (chRead_latched n s).nextOne (hostRead_ch (Nat.lt_of_add_lt_add_right hn) s)
  · have h := camRead_latched (core := core) n.val s
    exact ⟨_, congrArg Host.Outcome.next (hostRead_camCtx n.isLt hc), h.access, h.seen _ (by simp), palSkip_readCamCtx .., h.others, h.only⟩
  · exact (imuRead_latched s).next (hostRead_imu hc)
  · exact (calvRead_latched n.isLt hlive).next (hostRead_calv n.isLt hc hlive)
  · have h := objRead_latched (core := core) n.isLt ho
    obtain ⟨hnew, hlost, hdone, hfailed⟩ := readObj_clears ho core
    exact ⟨_, congrArg Host.Outcome.next (hostRead_obj n.isLt hc ho), h.access, fun j hj => h.seen _ (List.mem_map_of_mem hj), hnew, hlost, hdone, hfailed,
      h.others, h.only⟩

end Sys2Proof.Machine
end

section
/-! PROOFS. The statements of spec/10_valve_outputs.md: a fast release need not leave its output open at the end of its tick, for the
tick serves the due start requests after its releases (R211, R219, R241, R244). -/

namespace Sys2Proof.Machine

theorem execFastRel_due {k : AtTick 64} {s : State} (h : s.fastDue k.i.val s.tickNow = true) :
    exec (.fastRel k) s = .next (s.vdrTick k.samples k.vbst) :=
  congrArg Host.Outcome.next (if_pos h)

/-- A start of program 0 on output 0, due at the tick stamped 20,000. -/
def startDueAtFastRel : StartReq :=
  { out := 0, prog := 0, due := 20000, lateDrop := false, preempt := false, at0 := 8, ring := 0, seq := 0, deferred := false }

/-- A running module at LTC 20,000. Output 0, in STROKE mode, has been in end decay for the 10 µs of its DEC_LIM, its current of 1.0 A far
above REL_MA. Its bank defers no start (DEF_LIM = 0, R241), and one is due on it. -/
def startMeetsFastRel : State :=
  let s := ((State.reset.set STR_STATUS.BUSY 0).setLoaded 2 true).setB SYS_SUPPLY.VLV_OK true
  let s := ((s.setB VDR_CTRL.ENABLE true).set (VDR_OUT_CFG.MODE 0) 3).set (VDR_CTX_STAT.STATE 0) 2
  { (s.set (VDR_BANK_CFG.DEC_LIM 0) 1).set (VDR_STK_BANK.DEF_LIM 0) 0 with
    ltc := 20000
    sys := { s.sys with mode := .run }
    vdr := { outs := [(0, { active := true, run := 3, decay := some 10000, samples := [(19000, 400)] })], lastTick := 19000 }
    stk := { reqs := [(0, startDueAtFastRel)] } }

/-- No other output decays, so no other fast release is due. -/
theorem fastDue_startMeetsFastRel {j : Nat} (h : j ≠ 0) (t : Nat) : startMeetsFastRel.fastDue j t = false := by
  have hidle : (startMeetsFastRel.vlo j).decay = none := by
    simp [State.vlo, startMeetsFastRel, tgetD, tget_cons, h]
  rw [State.fastDue, hidle]

/-- The sample that the releases judge is 400 codes, 1.0 A. -/
theorem sampleAt_startMeetsFastRel :
    (startMeetsFastRel.sampleAll startMeetsFastRel.tickNow [(0, 400)]).sampleAt 0 (startMeetsFastRel.tickNow - 1000) = some 400 := by
  decide +kernel

set_option maxRecDepth 20000 in
/-- The releases open the low side of output 0, and the start behind them in the same tick closes it again: the whole tick, evaluated. -/
theorem active_startMeetsFastRel : ((startMeetsFastRel.vdrTick [(0, 400)] 0).vlo 0).active = true := by
  decide +kernel

/-- Refutes O33: its clause on fast releases lets a start be due on the same output at the same tick. With DEF_LIM = 0 that stroke starts
behind the release, and the output is active after the tick. -/
theorem not_outputsBanksAndBoostConverterFollowChapter10 : ¬ Obligations.OutputsBanksAndBoostConverterFollowChapter10 := by
  intro h
  obtain ⟨-, -, hfast, -⟩ := h
  have hdue : startMeetsFastRel.fastDue 0 startMeetsFastRel.tickNow = true := by decide
  have hcurrent (c : Nat)
      (hc : (startMeetsFastRel.sampleAll startMeetsFastRel.tickNow [(0, 400)]).sampleAt 0 (startMeetsFastRel.tickNow - 1000) = some c) :
      Frac.lt (codeFrac c) (maFrac (startMeetsFastRel.get (VDR_OUT_CFG.REL_MA 0))) = false := by
    obtain rfl : 400 = c := Option.some.inj (sampleAt_startMeetsFastRel.symm.trans hc)
    decide
  obtain ⟨t, hexec, -, hinactive, -⟩ := hfast 0 [(0, 400)] 0 startMeetsFastRel (by decide) (by decide) hdue rfl hcurrent
    (fun j _ hj => fastDue_startMeetsFastRel hj _) (by decide)
  have htick : startMeetsFastRel.vdrTick [(0, 400)] 0 = t :=
    Host.Outcome.next.inj ((execFastRel_due (k := ⟨0, [(0, 400)], 0⟩) hdue).symm.trans hexec)
  rw [← htick] at hinactive
  exact Bool.false_ne_true (hinactive.symm.trans active_startMeetsFastRel)

end Sys2Proof.Machine
end

section
/-! PROOFS. The statements of spec/12_safety_unit.md on the pairs, the mirrors and the partner (R251 to R258, R263, R467) and on the mailbox
(R258, R260, R265, R269): first what the operations of the safety domain share, then each command. -/

namespace Sys2Proof.Machine

/-! ### Fields that share no bit -/

/-- `Fld.apart` as a Boolean. -/
def Fld.isApart (g f : Fld) : Bool := decide (g.addr ≠ f.addr) || (decide (g.lo + g.width ≤ f.lo) || decide (f.lo + f.width ≤ g.lo))

theorem apart_of_isApart {g f : Fld} (h : g.isApart f = true) : g.apart f := by
  simpa only [Fld.isApart, Fld.apart, Bool.or_eq_true, decide_eq_true_eq] using h

theorem apart_all {g : Fld} {fs : List Fld} (h : fs.all g.isApart = true) : ∀ f ∈ fs, g.apart f :=
  fun f hf => apart_of_isApart (List.all_eq_true.1 h f hf)

/-- A field that is none of those written reads as before. -/
theorem State.only.get {s t : State} {ps : List Comp} {fs : List Fld} (h : s.only ps fs t) {g : Fld} (hg : fs.all g.isApart = true) : t.get g = s.get g :=
  h.2.1 g (apart_all hg)

theorem State.only.getB {s t : State} {ps : List Comp} {fs : List Fld} (h : s.only ps fs t) {g : Fld} (hg : fs.all g.isApart = true) : t.getB g = s.getB g :=
  getB_of_get (h.get hg)

/-- The fields outside a window, or among those that may differ, are all that `State.onlyBut` asks of. -/
theorem onlyBut_of_only {s t : State} {ps qs : List Comp} {fs gs : List Fld} {a n : Nat} (h : s.only ps fs t) (hp : ∀ p ∈ ps, p ∈ qs)
    (hf : ∀ f ∈ fs, (a ≤ f.addr ∧ f.addr < a + n) ∨ f ∈ gs) : s.onlyBut qs gs a n t := by
  refine ⟨fun p hq => h.1 p fun hm => hq (hp p hm), fun g hg hgs => h.2.1 g fun f hm => ?_, h.2.2⟩
  rcases hf f hm with hin | hin
  · exact .inl fun he => by omega
  · exact hgs f hin

theorem only_withSaf (s : State) (x : SafState) : s.only [.saf] [] { s with saf := x } :=
  ⟨fun p hp => by cases p <;> simp [State.same] at hp ⊢, fun _ _ => rfl, rfl, rfl⟩

theorem only_withTms (s : State) (x : TmsState) : s.only [.tms] [] { s with tms := x } :=
  ⟨fun p hp => by cases p <;> simp [State.same] at hp ⊢, fun _ _ => rfl, rfl, rfl⟩

theorem only_withSys (s : State) (x : SysState) : s.only [.sys] [] { s with sys := x } :=
  ⟨fun p hp => by cases p <;> simp [State.same] at hp ⊢, fun _ _ => rfl, rfl, rfl⟩

theorem only_drawn (s : State) : s.only [.free] [] s.drawn := only_of_keeps (keeps_drawn s)

/-! ### Runs of raises (R129) -/

/-- Source `n` was raised between `s` and `t`, and if it was pending its stamp stands. -/
def State.raisedKeeping (n : Nat) (s t : State) : Prop :=
  s.raised n t ∧ (s.neverRaised n = false → s.getB (EVT_SRC_CFG.EN n) = true → s.getB (EVT_SRC_STAT.PEND n) = true →
    t.get64 (EVT_SRC_LTC_LO n) (EVT_SRC_LTC_HI n) = s.get64 (EVT_SRC_LTC_LO n) (EVT_SRC_LTC_HI n))

/-- Between `s` and `t`, at one LTC, each source stayed as it was or was raised. -/
structure EvtRun (s t : State) : Prop where
  part : t.part = s.part
  ltc : t.ltc = s.ltc
  cfg : ∀ n, t.reg (EVT_SRC_CFG n) = s.reg (EVT_SRC_CFG n)
  src : ∀ n, n < 384 → (∀ a ∈ raiseRegs n, t.reg a = s.reg a) ∨ s.raisedKeeping n t

theorem EvtRun.refl (s : State) : EvtRun s s := ⟨rfl, rfl, fun _ => rfl, fun _ _ => .inl fun _ _ => rfl⟩

section Evt
variable {s t u : State} {n : Nat}

theorem EvtRun.neverRaised (h : EvtRun s t) (n : Nat) : t.neverRaised n = s.neverRaised n := by
  simp only [State.neverRaised, State.noGnss, h.part]

theorem EvtRun.en (h : EvtRun s t) (n : Nat) : t.getB (EVT_SRC_CFG.EN n) = s.getB (EVT_SRC_CFG.EN n) := getB_congr _ (h.cfg n)

theorem pend_of_regs (h : ∀ a ∈ raiseRegs n, t.reg a = s.reg a) : t.getB (EVT_SRC_STAT.PEND n) = s.getB (EVT_SRC_STAT.PEND n) :=
  getB_congr _ (h _ (by simp [raiseRegs, EVT_SRC_STAT.PEND]))

theorem stamp_of_regs (h : ∀ a ∈ raiseRegs n, t.reg a = s.reg a) :
    t.get64 (EVT_SRC_LTC_LO n) (EVT_SRC_LTC_HI n) = s.get64 (EVT_SRC_LTC_LO n) (EVT_SRC_LTC_HI n) :=
  get64_congr _ _ (h _ (by simp [raiseRegs])) (h _ (by simp [raiseRegs]))

/-- A source raised behind a run that left it alone. -/
theorem raisedKeeping_behind (h : EvtRun s t) (hr : ∀ a ∈ raiseRegs n, t.reg a = s.reg a) (hu : t.raisedKeeping n u) : s.raisedKeeping n u := by
  obtain ⟨hraised, hkeep⟩ := hu
  have hp := pend_of_regs hr
  constructor
  · simpa only [State.raised, State.raisedAt, h.neverRaised, h.en, hp, now_of_ltc h.ltc] using hraised
  · rw [h.neverRaised, h.en, hp, stamp_of_regs hr] at hkeep
    exact hkeep

/-- A raised source that a run leaves alone. -/
theorem raisedKeeping_before (h : s.raisedKeeping n t) (hr : ∀ a ∈ raiseRegs n, u.reg a = t.reg a) : s.raisedKeeping n u :=
  ⟨raised_mono h.1 hr, fun hn he hp => (stamp_of_regs hr).trans (h.2 hn he hp)⟩

/-- A source raised twice: the first raise gives the stamp, the second MULTI. -/
theorem raisedKeeping_twice (h : EvtRun s t) (h1 : s.raisedKeeping n t) (h2 : t.raisedKeeping n u) : s.raisedKeeping n u := by
  obtain ⟨hr1, hk1⟩ := h1
  obtain ⟨hr2, hk2⟩ := h2
  rw [h.neverRaised, h.en] at hk2
  simp only [State.raised, State.raisedAt, h.neverRaised, h.en] at hr2
  refine ⟨fun hn he => ?_, fun hn he hp => ?_⟩
  · obtain ⟨hp1, hs1, -⟩ := hr1 hn he
    obtain ⟨hp2, -, hm2⟩ := hr2 hn he
    exact ⟨hp2, fun h0 => (hk2 hn he hp1).trans (hs1 h0), fun _ => hm2 hp1⟩
  · exact (hk2 hn he (hr1 hn he).1).trans (hk1 hn he hp)

theorem EvtRun.trans (h : EvtRun s t) (h' : EvtRun t u) : EvtRun s u := by
  refine ⟨h'.part.trans h.part, h'.ltc.trans h.ltc, fun n => (h'.cfg n).trans (h.cfg n), fun n hn => ?_⟩
  rcases h.src n hn with h1 | h1 <;> rcases h'.src n hn with h2 | h2
  · exact .inl fun a ha => (h2 a ha).trans (h1 a ha)
  · exact .inr (raisedKeeping_behind h h1 h2)
  · exact .inr (raisedKeeping_before h1 h2)
  · exact .inr (raisedKeeping_twice h h1 h2)

theorem evtRun_of_only {ps : List Comp} {fs : List Fld} (h : s.only ps fs t) (hl : Comp.ltc ∉ ps) (hw : ∀ f ∈ fs, windowOf f.addr ≠ 0xC1) : EvtRun s t :=
  ⟨h.2.2.1, h.1 .ltc hl, fun n => reg_of_only h (windowOf_srcCfg n) hw, fun _ _ => .inl fun _ ha => reg_of_only h (windowOf_raiseRegs ha) hw⟩

theorem raisedKeeping_raise (s : State) (n : Nat) : s.raisedKeeping n (s.raise n) :=
  ⟨raised_raise s n, fun _ _ hp => get64_congr _ _ (reg_raise_of_pend hp (stat_ne_ltc n n).1.symm) (reg_raise_of_pend hp (stat_ne_ltc n n).2.symm)⟩

theorem cfg_notMem_raiseRegs (n m : Nat) : EVT_SRC_CFG n ∉ raiseRegs m := by
  simp only [raiseRegs, List.mem_cons, List.not_mem_nil, or_false, EVT_SRC_CFG, EVT_SRC_STAT, EVT_SRC_LTC_LO, EVT_SRC_LTC_HI]; omega

theorem notMem_raiseRegs_other {m a : Nat} (hn : n < 384) (hm : m < 384) (h : n ≠ m) (ha : a ∈ raiseRegs n) : a ∉ raiseRegs m := by
  simp only [raiseRegs, List.mem_cons, List.not_mem_nil, or_false, EVT_SRC_STAT, EVT_SRC_LTC_LO, EVT_SRC_LTC_HI] at ha ⊢; omega

theorem evtRun_raise (s : State) {m : Nat} (hm : m < 384) : EvtRun s (s.raise m) := by
  refine ⟨raise_part .., raise_ltc .., fun n => reg_raise_ne s (cfg_notMem_raiseRegs n m), fun n hn => ?_⟩
  by_cases h : n = m
  · exact h ▸ .inr (raisedKeeping_raise s n)
  · exact .inl fun a ha => reg_raise_ne s (notMem_raiseRegs_other hn hm h ha)

/-- A raise behind a run is a raise since its start. -/
theorem EvtRun.raised_raise (h : EvtRun s t) (hn : n < 384) : s.raised n (t.raise n) := by
  rcases h.src n hn with h1 | h1
  · exact (raisedKeeping_behind h h1 (raisedKeeping_raise t n)).1
  · exact raised_raise_again h.part (h.cfg n) h1.1

/-- What was raised in a first run still is after a second. -/
theorem EvtRun.raised_first (h : EvtRun t u) (h0 : EvtRun s t) (hn : n < 384) (hr : s.raised n t) : s.raised n u := by
  rcases h.src n hn with h1 | h1
  · exact raised_mono hr h1
  · intro hnr he
    obtain ⟨hp1, hs1, -⟩ := hr hnr he
    obtain ⟨hp2, -, hm2⟩ := h1.1 ((h0.neverRaised n).trans hnr) ((h0.en n).trans he)
    exact ⟨hp2, fun h0' => (h1.2 ((h0.neverRaised n).trans hnr) ((h0.en n).trans he) hp1).trans (hs1 h0'), fun _ => hm2 hp1⟩

/-- What is raised in a second run is raised since the start of the first. -/
theorem EvtRun.raised_second (h0 : EvtRun s t) (h : EvtRun t u) (hn : n < 384) (hr : t.raised n u) : s.raised n u := by
  rcases h0.src n hn with h1 | h1
  · have hp := pend_of_regs h1
    simpa only [State.raised, State.raisedAt, h0.neverRaised, h0.en, hp, now_of_ltc h0.ltc] using hr
  · exact h.raised_first h0 hn h1.1

end Evt

/-! ### What arming, opening and tripping leave of the safety domain -/

/-- Faults whose clearing condition an opening, a mirror or the end of what they cover brings about (Table 12-2). -/
def SafFault.easable : SafFault → Bool
  | .degExpired | .weld _ | .pullin _ | .drop _ => true
  | _ => false

/-- `m` lists the faults of `l`, and at most easable ones of them have cleared. -/
structure Eased (l m : List (SafFault × Bool)) : Prop where
  names : m.map (·.1) = l.map (·.1)
  firm : ∀ f : SafFault, f.easable = false → m.contains (f, true) = l.contains (f, true)

theorem Eased.refl (l : List (SafFault × Bool)) : Eased l l := ⟨rfl, fun _ _ => rfl⟩

theorem Eased.trans {l m n : List (SafFault × Bool)} (h : Eased l m) (h' : Eased m n) : Eased l n :=
  ⟨h'.names.trans h.names, fun f hf => (h'.firm f hf).trans (h.firm f hf)⟩

theorem contains_map_of_fixed {l : List (SafFault × Bool)} {g : SafFault × Bool → SafFault × Bool} {f : SafFault} (hname : ∀ x, (g x).1 = x.1)
    (hfix : ∀ x : SafFault × Bool, x.1 = f → g x = x) : (l.map g).contains (f, true) = l.contains (f, true) := by
  rw [Bool.eq_iff_iff, List.contains_iff_mem, List.contains_iff_mem, List.mem_map]
  constructor
  · rintro ⟨x, hx, hg⟩
    have hxf : x.1 = f := (hname x).symm.trans (congrArg Prod.fst hg)
    rw [hfix x hxf] at hg
    exact hg ▸ hx
  · exact fun h => ⟨_, h, hfix _ rfl⟩

theorem eased_map {l : List (SafFault × Bool)} {g : SafFault × Bool → SafFault × Bool} (hname : ∀ x, (g x).1 = x.1)
    (hfix : ∀ x : SafFault × Bool, x.1.easable = false → g x = x) : Eased l (l.map g) :=
  ⟨by simp [List.map_map, Function.comp_def, hname], fun _ hf => contains_map_of_fixed hname fun x hx => hfix x (hx ▸ hf)⟩

/-- Between `f` and `g` channels were armed and, with `opens`, tripped or released: the readings, masks, times, the partner and the request
are as they were, and at most easable faults have cleared. -/
structure SafKept (opens : Bool) (f g : SafState) : Prop where
  rest : g = { f with armedOnce := g.armedOnce, onAt := g.onAt, openAt := g.openAt, closedAt := g.closedAt, pulled := g.pulled, tripAt := g.tripAt,
                      test := g.test, faults := g.faults }
  shut : opens = false → g = { f with armedOnce := g.armedOnce, faults := g.faults }
  eased : Eased f.faults g.faults

theorem SafKept.refl (o : Bool) (f : SafState) : SafKept o f f := ⟨rfl, fun _ => rfl, .refl _⟩

theorem SafKept.trans {o : Bool} {f g h : SafState} (a : SafKept o f g) (b : SafKept o g h) : SafKept o f h := by
  refine ⟨?_, fun ho => ?_, a.eased.trans b.eased⟩
  · rw [b.rest, a.rest]
  · rw [b.shut ho, a.shut ho]

theorem SafKept.opening {o : Bool} {f g : SafState} (a : SafKept false f g) : SafKept o f g := ⟨a.rest, fun _ => a.shut rfl, a.eased⟩

/-- What a run of such operations writes: the fields `fs`, the safety domain as `SafKept` says, and raises. -/
structure SafRun (opens : Bool) (fs : List Fld) (s t : State) : Prop where
  only : s.only [.saf, .rcd, .cyc] fs t
  evt : EvtRun s t
  kept : SafKept opens s.saf t.saf

section Run
variable {o : Bool} {fs gs : List Fld} {s t u : State}

theorem SafRun.refl (o : Bool) (fs : List Fld) (s : State) : SafRun o fs s s := ⟨only_refl .., .refl _, .refl ..⟩

theorem SafRun.trans (h : SafRun o fs s t) (h' : SafRun o fs t u) : SafRun o fs s u :=
  ⟨only_trans h.only h'.only, h.evt.trans h'.evt, h.kept.trans h'.kept⟩

theorem SafRun.mono (h : SafRun o fs s t) (hf : ∀ f ∈ fs, f ∈ gs) : SafRun o gs s t := ⟨only_mono h.only (fun _ hp => hp) hf, h.evt, h.kept⟩

theorem SafRun.opening (h : SafRun false fs s t) : SafRun o fs s t := ⟨h.only, h.evt, h.kept.opening⟩

/-- One operation after another. -/
theorem SafRun.seq (h : SafRun o fs s t) (h' : SafRun o gs t u) : SafRun o (fs ++ gs) s u :=
  (h.mono fun _ hf => List.mem_append_left _ hf).trans (h'.mono fun _ hf => List.mem_append_right _ hf)

theorem SafRun.foldl {α : Type} {f : State → α → State} {l : List α} (h : ∀ u x, x ∈ l → SafRun o fs u (f u x)) (s : State) :
    SafRun o fs s (l.foldl f s) :=
  foldl_keeps (P := SafRun o fs s) (fun u x hx hu => hu.trans (h u x hx)) (.refl ..)

theorem safRun_of_only (h : s.only [] fs t) (hw : ∀ f ∈ fs, windowOf f.addr ≠ 0xC1) : SafRun o fs s t :=
  ⟨only_mono h (by simp) (fun _ hf => hf), evtRun_of_only h (by simp) hw, h.1 .saf (by simp) ▸ .refl ..⟩

/-- A write of a field of SAF's window. -/
theorem safRun_set (s : State) {f : Fld} (v : Nat) (hf : f.lo + f.width ≤ 32) (hw : windowOf f.addr ≠ 0xC1) : SafRun o [f] s (s.set f v) :=
  safRun_of_only (only_set s v hf) (by simpa using hw)

theorem safRun_setB (s : State) {f : Fld} (v : Bool) (hf : f.lo + f.width ≤ 32) (hw : windowOf f.addr ≠ 0xC1) : SafRun o [f] s (s.setB f v) :=
  safRun_set s _ hf hw

theorem safRun_bump (s : State) {f : Fld} (n : Nat) (hf : f.lo + f.width ≤ 32) (hw : windowOf f.addr ≠ 0xC1) : SafRun o [f] s (s.bump f n) :=
  safRun_set s _ hf hw

theorem safRun_withSaf (s : State) {x : SafState} (h : SafKept o s.saf x) : SafRun o [] s { s with saf := x } :=
  ⟨only_mono (only_withSaf s x) (by simp) (by simp), evtRun_of_only (only_withSaf s x) (by simp) (by simp), h⟩

theorem safRun_raise (s : State) {n : Nat} (hn : n < 384) : SafRun o (raiseFlds n) s (s.raise n) :=
  ⟨only_mono (only_raise s n) (by simp) (fun _ hf => hf), evtRun_raise s hn, by rw [raise_saf]; exact .refl ..⟩

/-- An operation that writes no register. -/
theorem get_of_only_nil {ps : List Comp} (h : s.only ps [] t) (g : Fld) : t.get g = s.get g := h.2.1 g (by simp)

theorem SafRun.img (h : SafRun o fs s t) : t.img = s.img := h.only.1 .img (by simp)

theorem SafRun.now (h : SafRun o fs s t) : t.now = s.now := now_of_ltc h.evt.ltc

end Run

/-! ### Readings that such a run leaves -/

section Same
variable {o : Bool} {s t : State}

theorem SafKept.effA {f g : SafState} (h : SafKept o f g) : g.effA = f.effA := (congrArg SafState.effA h.rest).trans rfl
theorem SafKept.effB {f g : SafState} (h : SafKept o f g) : g.effB = f.effB := (congrArg SafState.effB h.rest).trans rfl
theorem SafKept.pins {f g : SafState} (h : SafKept o f g) : g.pins = f.pins := (congrArg SafState.pins h.rest).trans rfl
theorem SafKept.rearmed {f g : SafState} (h : SafKept o f g) : g.rearmed = f.rearmed := (congrArg SafState.rearmed h.rest).trans rfl
theorem SafKept.partnerRun {f g : SafState} (h : SafKept o f g) : g.partnerRun = f.partnerRun := (congrArg SafState.partnerRun h.rest).trans rfl
theorem SafKept.partnerAt {f g : SafState} (h : SafKept o f g) : g.partnerAt = f.partnerAt := (congrArg SafState.partnerAt h.rest).trans rfl
theorem SafKept.degFrom {f g : SafState} (h : SafKept o f g) : g.degFrom = f.degFrom := (congrArg SafState.degFrom h.rest).trans rfl

theorem safMask_congr (h : t.img = s.img) (p : Nat) : t.safMask p = s.safMask p := by simp only [State.safMask, State.image, h]
theorem imgFld_congr (h : t.img = s.img) (f : Fld) : t.imgFld f = s.imgFld f := by simp only [State.imgFld, State.image, h]
theorem safFbUse_congr (h : t.img = s.img) (c : Nat) : t.safFbUse c = s.safFbUse c := by simp only [State.safFbUse, imgFld_congr h]

theorem faultMask_congr (h : t.img = s.img) (f : SafFault) : t.faultMask f = s.faultMask f := by
  cases f <;> simp only [State.faultMask, safMask_congr h]

theorem pairState_kept (h : SafKept o s.saf t.saf) (p : Nat) : t.pairState p = s.pairState p := by
  simp only [State.pairState, h.effA, h.effB]

theorem faultPresent_kept (h : SafKept o s.saf t.saf) {f : SafFault} (hf : f.easable = false) : t.faultPresent f = s.faultPresent f := h.eased.firm f hf

theorem pairRun_kept (h : SafKept o s.saf t.saf) (p : Nat) : t.pairRun p = s.pairRun p := by
  simp only [State.pairRun, pairState_kept h, faultPresent_kept h (f := .xs p) rfl]

theorem faultListed_eq (s : State) (f : SafFault) : s.faultListed f = (s.saf.faults.map (·.1)).any (fun x => decide (x = f)) := by
  simp [State.faultListed, List.any_map, Function.comp_def]

theorem faultListed_kept (h : SafKept o s.saf t.saf) (f : SafFault) : t.faultListed f = s.faultListed f := by
  simp only [faultListed_eq, h.eased.names]

/-- What the conditions of ARMABLE look at (R258). -/
theorem armable_kept (h : SafKept o s.saf t.saf) (himg : t.img = s.img) (hready : t.safReady = s.safReady) {c : Nat} (hst : t.chState c = s.chState c) :
    t.armable c = s.armable c := by
  have hall (u : State) : (u.saf.faults.all fun x => !bitAt (u.faultMask x.1) c) = (u.saf.faults.map (·.1)).all (fun f => !bitAt (u.faultMask f) c) := by
    simp [List.all_map, Function.comp_def]
  have hblocks : (t.saf.faults.all fun x => !bitAt (t.faultMask x.1) c) = (s.saf.faults.all fun x => !bitAt (s.faultMask x.1) c) := by
    rw [hall, hall, h.eased.names]
    simp only [faultMask_congr himg]
  simp only [State.armable, hblocks, hready, hst, safMask_congr himg, pairRun_kept h, h.rearmed, imgFld_congr himg, h.partnerRun,
    safFbUse_congr himg, State.safFbClosed, h.pins]

end Same

theorem maskOf_lt {α : Type} (l : List α) (f : α → Bool) : maskOf l f < 2 ^ l.length := by
  induction l with
  | nil => exact Nat.one_pos
  | cons x l ih =>
    have hb : b2n (f x) ≤ 1 := b2n_le _
    simp only [maskOf, List.foldr_cons, List.length_cons, Nat.pow_succ] at ih ⊢
    omega

theorem bitAt_maskOf {α : Type} (l : List α) (f : α → Bool) (i : Nat) : bitAt (maskOf l f) i = l[i]?.any f := by
  induction l generalizing i with
  | nil => simp [maskOf, bitAt]
  | cons x l ih =>
    have hcons : maskOf (x :: l) f = 2 * maskOf l f + b2n (f x) := rfl
    rw [hcons]
    cases i with
    | zero => cases hx : f x <;> simp [bitAt, b2n, hx]
    | succ i =>
      have hhalf : (2 * maskOf l f + b2n (f x)) / 2 = maskOf l f := by
        have hb : b2n (f x) ≤ 1 := b2n_le _
        omega
      rw [List.getElem?_cons_succ, ← ih, bitAt, bitAt, Nat.pow_succ', ← Nat.div_div_eq_div_mul, hhalf]

theorem bitAt_maskOf_range {n i : Nat} (h : i < n) (f : Nat → Bool) : bitAt (maskOf (List.range n) f) i = f i := by
  simp [bitAt_maskOf, h]

/-! ### The mirror (R268) -/

/-- The four parts of the mirror: SAF_STATUS, SAF_PAIR, one SAF_CH each, SAF_FAULT. -/
def State.mirrorStatus (s : State) : State :=
  let s := (s.setB SAF_STATUS.DEGRADED s.saf.degFrom.isSome).setB SAF_STATUS.LATCHED s.anyLatched
  (s.setB SAF_STATUS.PARTNER s.saf.partnerAt.isSome).set SAF_STATUS.DEG_LEFT s.degLeft

def State.mirrorPairs (s : State) : State :=
  if s.safReady then s.set SAF_PAIR.STATES
    ((List.range 8).foldr (fun p v => 16 * v + (s.pairState p + 4 * b2n (s.faultPresent (.disc p)) + 8 * b2n (s.faultPresent (.xs p)))) 0)
  else s

/-- The faults of a channel in SAF_CH, as one field. -/
def chFaultBits (c : Nat) : Fld := ⟨SAF_CH c, 0, 6⟩

def State.mirrorCh (s : State) (c : Nat) : State :=
  let s := s.setB (SAF_CH.FB c) (s.safReady && s.safFbUse c && s.safFbClosed c)
  s.set (chFaultBits c) (maskOf [SafFault.weld c, .pullin c, .drop c, .oc c, .stuck1 c, .stuck2 c] s.faultListed)

/-- The present faults in SAF_FAULT, as one field. -/
def faultBits : Fld := ⟨SAF_FAULT, 0, 7⟩

def State.mirrorFaults (s : State) : State :=
  (s.set faultBits (maskOf safModuleFaults s.faultPresent)).set SAF_FAULT.CLEARED (maskOf safModuleFaults fun f => s.saf.faults.contains (f, false))

theorem safMirror_eq (s : State) : s.safMirror = ((List.range 4).foldl State.mirrorCh s.mirrorStatus.mirrorPairs).mirrorFaults := rfl

def statusFlds : List Fld := [SAF_STATUS.DEGRADED, SAF_STATUS.LATCHED, SAF_STATUS.PARTNER, SAF_STATUS.DEG_LEFT]
def mirrorChFlds : List Fld := (List.range 4).flatMap fun c => [SAF_CH.FB c, chFaultBits c]
def mirrorFaultFlds : List Fld := [faultBits, SAF_FAULT.CLEARED]

theorem windowOf_ch (c : Nat) : windowOf (SAF_CH c) ≠ 0xC1 := by
  simp only [windowOf, SAF_CH]; omega

section Mirror
variable {o : Bool} (s : State)

theorem mirrorStatus_run : SafRun o statusFlds s s.mirrorStatus :=
  (((safRun_setB s _ (by decide) (by decide)).seq (safRun_setB _ _ (by decide) (by decide))).seq (safRun_setB _ _ (by decide) (by decide))).seq
    (safRun_set _ _ (by decide) (by decide))

theorem mirrorPairs_run : SafRun o [SAF_PAIR.STATES] s s.mirrorPairs := by
  unfold State.mirrorPairs
  split
  · exact safRun_set s _ (by decide) (by decide)
  · exact .refl ..

theorem mirrorCh_run (c : Nat) : SafRun o [SAF_CH.FB c, chFaultBits c] s (s.mirrorCh c) :=
  (safRun_setB s (f := SAF_CH.FB c) _ (by simp [SAF_CH.FB]) (windowOf_ch c)).seq
    (safRun_set _ (f := chFaultBits c) _ (by simp [chFaultBits]) (windowOf_ch c))

theorem mirrorChs_run : SafRun o mirrorChFlds s ((List.range 4).foldl State.mirrorCh s) :=
  .foldl (fun u c hc => (mirrorCh_run u c).mono fun _ hf => List.mem_flatMap.2 ⟨c, hc, hf⟩) s

theorem mirrorFaults_run : SafRun o mirrorFaultFlds s s.mirrorFaults :=
  (safRun_set s _ (by decide) (by decide)).seq (safRun_set _ _ (by decide) (by decide))

/-- The fields of the mirror that follow the safety domain's state. -/
def mirrorFlds : List Fld := statusFlds ++ [SAF_PAIR.STATES] ++ mirrorChFlds ++ mirrorFaultFlds

theorem safMirror_run : SafRun o mirrorFlds s s.safMirror :=
  (((mirrorStatus_run s).seq (mirrorPairs_run _)).seq (mirrorChs_run _)).seq (mirrorFaults_run _)

theorem safReady_run {fs : List Fld} {s t : State} (h : SafRun o fs s t) (hf : fs.all SAF_STATUS.READY.isApart = true) : t.safReady = s.safReady :=
  h.only.getB hf

theorem safMirror_degraded : s.safMirror.getB SAF_STATUS.DEGRADED = s.saf.degFrom.isSome := by
  rw [safMirror_eq]
  have hset : s.mirrorStatus.getB SAF_STATUS.DEGRADED = s.saf.degFrom.isSome :=
    ((((safRun_setB (o := true) _ _ (by decide) (by decide)).seq (safRun_setB _ _ (by decide) (by decide))).seq
      (safRun_set _ _ (by decide) (by decide))).only.getB (by decide)).trans (getB_setB_self s _ _ (by decide) rfl)
  exact ((((mirrorPairs_run (o := true) _).seq (mirrorChs_run _)).seq (mirrorFaults_run _)).only.getB (by decide)).trans hset

theorem safMirror_partner : s.safMirror.getB SAF_STATUS.PARTNER = s.saf.partnerAt.isSome := by
  rw [safMirror_eq]
  have hset : s.mirrorStatus.getB SAF_STATUS.PARTNER = s.saf.partnerAt.isSome :=
    ((safRun_set (o := true) _ _ (by decide) (by decide)).only.getB (by decide)).trans
      ((getB_setB_self _ _ _ (by decide) rfl).trans (by simp))
  exact ((((mirrorPairs_run (o := true) _).seq (mirrorChs_run _)).seq (mirrorFaults_run _)).only.getB (by decide)).trans hset

end Mirror

/-- What one round of a loop over the channels brings about, and the rounds of the others leave, holds after the loop. -/
theorem foldl_range_once {Q R : State → Prop} {f : State → Nat → State} {n c : Nat} {s : State} (hbefore : ∀ u d, d < n → d ≠ c → Q u → Q (f u d))
    (hround : ∀ u, Q u → R (f u c)) (hafter : ∀ u d, d < n → d ≠ c → R u → R (f u d)) (hc : c < n) (hs : Q s) : R ((List.range n).foldl f s) := by
  have hsplit : ∀ m ≤ n, (m ≤ c → Q ((List.range m).foldl f s)) ∧ (c < m → R ((List.range m).foldl f s)) := by
    intro m hm
    induction m with
    | zero => exact ⟨fun _ => hs, fun h => absurd h (by omega)⟩
    | succ m ih =>
      obtain ⟨hq, hr⟩ := ih (by omega)
      rw [List.range_succ, List.foldl_append]
      refine ⟨fun h => hbefore _ m (by omega) (by omega) (hq (by omega)), fun h => ?_⟩
      rcases Nat.lt_succ_iff_lt_or_eq.1 h with h | rfl
      · exact hafter _ m (by omega) (by omega) (hr h)
      · exact hround _ (hq (by omega))
  exact (hsplit n (by omega)).2 hc

section MirrorCh
variable {s : State} {c : Nat}

theorem mirrorCh_fb (u : State) : (u.mirrorCh c).getB (SAF_CH.FB c) = (u.safReady && u.safFbUse c && u.safFbClosed c) := by
  refine (getB_of_get (get_set_apart _ _ _ _ ?_ ?_)).trans (getB_setB_self _ _ _ ?_ rfl)
  · exact .inr (.inr (by simp [SAF_CH.FB, chFaultBits]))
  · simp [chFaultBits]
  · simp [SAF_CH.FB]

theorem safMirror_fb (hc : c < 4) : s.safMirror.getB (SAF_CH.FB c) = (s.safReady && s.safFbUse c && s.safFbClosed c) := by
  rw [safMirror_eq]
  have hfront : SafRun true (statusFlds ++ [SAF_PAIR.STATES]) s s.mirrorStatus.mirrorPairs := (mirrorStatus_run s).seq (mirrorPairs_run _)
  have hloop : ((List.range 4).foldl State.mirrorCh s.mirrorStatus.mirrorPairs).getB (SAF_CH.FB c) = (s.safReady && s.safFbUse c && s.safFbClosed c) := by
    have hother (u : State) (d : Nat) (hd : d < 4) (hne : d ≠ c) : (u.mirrorCh d).getB (SAF_CH.FB c) = u.getB (SAF_CH.FB c) := by
      refine getB_of_get ((mirrorCh_run (o := true) u d).only.2.1 _ ?_)
      have haddr : SAF_CH c ≠ SAF_CH d := by simp only [SAF_CH]; omega
      simp only [List.mem_cons, List.not_mem_nil, or_false, forall_eq_or_imp, forall_eq]
      exact ⟨.inl haddr, .inl haddr⟩
    refine foldl_range_once (Q := SafRun true (statusFlds ++ [SAF_PAIR.STATES] ++ mirrorChFlds) s)
      (fun u d hd _ hu => hu.trans ((mirrorCh_run u d).mono fun f hf => ?_)) (fun u hu => ?_) (fun u d hd hne hu => (hother u d hd hne).trans hu) hc
      (hfront.mono fun _ hf => List.mem_append_left _ hf)
    · exact List.mem_append_right _ (List.mem_flatMap.2 ⟨d, List.mem_range.2 hd, hf⟩)
    · rw [mirrorCh_fb, safReady_run hu (by decide), safFbUse_congr hu.img, State.safFbClosed, hu.kept.pins, State.safFbClosed]
  exact ((mirrorFaults_run (o := true) _).only.getB (by simp [mirrorFaultFlds, Fld.isApart, SAF_CH.FB, faultBits, SAF_FAULT.CLEARED, SAF_CH, SAF_FAULT])).trans hloop

/-- A bit of a field that is read whole. -/
theorem getB_bit_of_get {f : Fld} {i : Nat} (hi : i < f.width) : s.getB ⟨f.addr, f.lo + i, 1⟩ = bitAt (s.get f) i := by
  rw [bitAt_eq_testBit, State.get, testBit_bitsOf, decide_eq_true hi, Bool.true_and, Nat.testBit_eq_decide_div_mod_eq]
  rfl

theorem safMirror_partnerLost : s.safMirror.getB SAF_FAULT.PARTNER_LOST = s.faultPresent .partnerLost := by
  have hfront := ((mirrorStatus_run (o := true) s).seq (mirrorPairs_run _)).seq (mirrorChs_run _)
  have hbits : s.safMirror.get faultBits = maskOf safModuleFaults ((List.range 4).foldl State.mirrorCh s.mirrorStatus.mirrorPairs).faultPresent := by
    rw [safMirror_eq, State.mirrorFaults, get_set_apart _ _ _ _ (apart_of_isApart (by decide)) (by decide), get_set_self _ _ _ (by decide)]
    exact Nat.mod_eq_of_lt (maskOf_lt ..)
  rw [show SAF_FAULT.PARTNER_LOST = ⟨faultBits.addr, faultBits.lo + 4, 1⟩ from rfl, getB_bit_of_get (by decide), hbits, bitAt_maskOf, show safModuleFaults[4]? = some .partnerLost from rfl,
    Option.any_some, faultPresent_kept hfront.kept rfl]

end MirrorCh

/-! ### Arming (R258, R259) -/

/-- PULLIN, DROP and WELD of a channel, cleared as its mirror reads (Table 12-2). -/
def clearFeedback (ok closed : Bool) (c : Nat) (x : SafFault × Bool) : SafFault × Bool :=
  if (ok && (x.1 = .pullin c || x.1 = .drop c)) || (closed && x.1 = .weld c) then (x.1, false) else x

theorem fbClear_eq (c : Nat) (s : State) : s.fbClear c = if !s.safFbUse c then s else { s with saf := { s.saf with
    faults := s.saf.faults.map (clearFeedback (s.safFbClosed c != decide (s.chState c = safON)) (s.safFbClosed c) c) } } := rfl

theorem eased_clearFeedback (ok closed : Bool) (c : Nat) (l : List (SafFault × Bool)) : Eased l (l.map (clearFeedback ok closed c)) := by
  refine eased_map (fun x => ?_) fun x hx => ?_
  · unfold clearFeedback
    split <;> rfl
  · refine if_neg fun h => ?_
    simp only [Bool.or_eq_true, Bool.and_eq_true, decide_eq_true_eq] at h
    rcases h with ⟨-, h | h⟩ | ⟨-, h⟩ <;> rw [h] at hx <;> exact absurd hx (by simp [SafFault.easable])

theorem safRun_faults {o : Bool} (s : State) {l : List (SafFault × Bool)} (h : Eased s.saf.faults l) :
    SafRun o [] s { s with saf := { s.saf with faults := l } } :=
  safRun_withSaf s ⟨rfl, fun _ => rfl, h⟩

theorem fbClear_run {o : Bool} (c : Nat) (s : State) : SafRun o [] s (s.fbClear c) := by
  rw [fbClear_eq]
  split
  · exact .refl ..
  · exact safRun_faults s (eased_clearFeedback ..)

theorem bitAt_putBits_ne {v i j x : Nat} (h : i ≠ j) : bitAt (putBits v j 1 x) i = bitAt v i := by
  rw [bitAt_eq_testBit, bitAt_eq_testBit, testBit_putBits]
  split
  · rfl
  · exact if_neg (by omega)

theorem bitAt_putBits_self (v i x : Nat) : bitAt (putBits v i 1 x) i = x.testBit 0 := by
  simp [bitAt_eq_testBit, testBit_putBits]

/-- The channel has been armed since the safety reset (R259). -/
def State.noteArmed (c : Nat) (s : State) : State := { s with saf := { s.saf with armedOnce := putBits s.saf.armedOnce c 1 1 } }

theorem noteArmed_run {o : Bool} (c : Nat) (s : State) : SafRun o [] s (s.noteArmed c) := safRun_withSaf s ⟨rfl, fun _ => rfl, .refl _⟩

/-- The part of `State.armCh` before its event. -/
def State.armQuietly (c : Nat) (s : State) : State := State.fbClear c (State.setCh c safOFF (State.setB (SAF_CH.ARMABLE c) false (s.noteArmed c)))

theorem armCh_eq (c : Nat) (s : State) : s.armCh c = (s.armQuietly c).raise 122 := rfl

/-- SAF_CH.STATE and ARMABLE of a channel. -/
def armFlds (c : Nat) : List Fld := [SAF_CH.STATE c, SAF_CH.ARMABLE c]

theorem state_top (c : Nat) : (SAF_CH.STATE c).lo + (SAF_CH.STATE c).width ≤ 32 := by simp [SAF_CH.STATE]
theorem armable_top (c : Nat) : (SAF_CH.ARMABLE c).lo + (SAF_CH.ARMABLE c).width ≤ 32 := by simp [SAF_CH.ARMABLE]
theorem state_apart_armable (c : Nat) : (SAF_CH.STATE c).apart (SAF_CH.ARMABLE c) := .inr (.inr (by simp [SAF_CH.STATE, SAF_CH.ARMABLE]))

theorem apart_armFlds {c d : Nat} (hc : c < 4) (hd : d < 4) (h : d ≠ c) {g : Fld} (hg : g.addr = SAF_CH c) : ∀ f ∈ armFlds d, g.apart f := by
  have haddr : SAF_CH c ≠ SAF_CH d := by simp only [SAF_CH]; omega
  simp only [armFlds, List.mem_cons, List.not_mem_nil, or_false, forall_eq_or_imp, forall_eq]
  exact ⟨.inl (hg ▸ haddr), .inl (hg ▸ haddr)⟩

/-- A field of SAF's window shares no bit with a source's. -/
theorem apart_raiseFlds {g : Fld} (hg : windowOf g.addr ≠ 0xC1) (n : Nat) : ∀ f ∈ raiseFlds n, g.apart f :=
  fun _ hf => .inl fun he => hg (he ▸ windowOf_raiseFlds hf)

theorem chState_raise (s : State) (n c : Nat) : (s.raise n).chState c = s.chState c := get_raise_apart s n _ (apart_raiseFlds (windowOf_ch c) n)

theorem armFlag_raise (s : State) (n c : Nat) : (s.raise n).getB (SAF_CH.ARMABLE c) = s.getB (SAF_CH.ARMABLE c) :=
  getB_of_get (get_raise_apart s n _ (apart_raiseFlds (windowOf_ch c) n))

section Arm
variable {o : Bool} (c : Nat) (s : State)

theorem armQuietly_run : SafRun o (armFlds c) s (s.armQuietly c) := by
  refine SafRun.mono ((((noteArmed_run c s).seq (safRun_setB _ (f := SAF_CH.ARMABLE c) false (armable_top c) (windowOf_ch c))).seq
    (safRun_set _ (f := SAF_CH.STATE c) safOFF (state_top c) (windowOf_ch c))).seq (fbClear_run c _)) ?_
  simp [armFlds]

theorem armCh_run : SafRun o (armFlds c ++ raiseFlds 122) s (s.armCh c) := (armQuietly_run c s).seq (safRun_raise _ (by decide))

theorem armCh_shows : (s.armCh c).chState c = safOFF ∧ (s.armCh c).getB (SAF_CH.ARMABLE c) = false ∧ s.raised 122 (s.armCh c) := by
  refine ⟨?_, ?_, (armQuietly_run (o := true) c s).evt.raised_raise (by decide)⟩
  · rw [armCh_eq, chState_raise]
    exact (get_of_only_nil (fbClear_run (o := true) c _).only _).trans (get_set_self _ (SAF_CH.STATE c) safOFF (state_top c))
  · rw [armCh_eq, armFlag_raise]
    refine (getB_of_get (get_of_only_nil (fbClear_run (o := true) c _).only _)).trans ?_
    exact (getB_of_get (get_set_apart _ _ _ _ (apart_symm (state_apart_armable c)) (state_top c))).trans (getB_setB_self _ _ false (armable_top c) rfl)

end Arm

/-! ### The bookkeeping after every happening (R258, R259, R264) -/

/-- DEG_EXPIRED clears with the faults it covered. -/
def State.clearExpired (s : State) : State :=
  if s.faultPresent .degExpired && s.saf.covered.all (fun f => !s.faultPresent f) then
    { s with saf := { s.saf with faults := s.saf.faults.map fun (x : SafFault × Bool) => if x.1 = .degExpired then (x.1, false) else x } }
  else s

/-- A channel whose conditions hold shows ARMABLE. -/
def State.showArmable (c : Nat) (s : State) : State :=
  if s.getB (SAF_CH.ARMABLE c) then s else (s.setB (SAF_CH.ARMABLE c) true).raise 121

/-- The channel may arm itself: START_ACK is 0, and it has not been armed since the safety reset (R259). -/
def State.armsItself (s : State) (c : Nat) : Bool := s.imgFld (SAF_CCFG.START_ACK c) = 0 && !bitAt s.saf.armedOnce c

/-- The bookkeeping of one channel. -/
def State.evalCh (s : State) (c : Nat) : State :=
  if s.armable c then
    if (s.showArmable c).armsItself c then (s.showArmable c).armCh c else s.showArmable c
  else s.setB (SAF_CH.ARMABLE c) false

theorem safEval_ready {s : State} (h : s.safReady = true) : s.safEval = ((List.range 4).foldl State.evalCh s.clearExpired).safMirror := by
  unfold State.safEval
  rw [if_neg (by simp [h])]
  rfl

theorem safEval_notReady {s : State} (h : s.safReady = false) : s.safEval = s.safMirror := if_pos (by simp [h])

/-- What the bookkeeping writes: SAF_CH.STATE and ARMABLE, sources 121 and 122, and the mirror. -/
def evalLoopFlds : List Fld := (List.range 4).flatMap armFlds ++ raiseFlds 121 ++ raiseFlds 122
def evalFlds : List Fld := evalLoopFlds ++ mirrorFlds

section Eval
variable {o : Bool} (c : Nat) (s : State)

theorem clearExpired_run : SafRun o [] s s.clearExpired := by
  unfold State.clearExpired
  split
  · refine safRun_faults s (eased_map (fun x => by split <;> rfl) fun x hx => if_neg fun h => ?_)
    rw [h] at hx
    exact absurd hx (by decide)
  · exact .refl ..

theorem showArmable_run : SafRun o (SAF_CH.ARMABLE c :: raiseFlds 121) s (s.showArmable c) := by
  unfold State.showArmable
  split
  · exact .refl ..
  · exact (safRun_setB s (f := SAF_CH.ARMABLE c) true (armable_top c) (windowOf_ch c)).seq (safRun_raise _ (by decide))

theorem evalCh_run : SafRun o (armFlds c ++ raiseFlds 121 ++ raiseFlds 122) s (s.evalCh c) := by
  unfold State.evalCh
  split
  · split
    · refine ((showArmable_run c s).mono ?_).trans ((armCh_run c _).mono ?_)
      · simp +contextual [armFlds]
      · simp only [List.mem_append]
        tauto
    · exact (showArmable_run c s).mono (by simp +contextual [armFlds])
  · exact (safRun_setB s (f := SAF_CH.ARMABLE c) false (armable_top c) (windowOf_ch c)).mono (by simp [armFlds])

theorem armedOnce_armCh : (s.armCh c).saf.armedOnce = putBits s.saf.armedOnce c 1 1 := by
  rw [armCh_eq, raise_saf, State.armQuietly, fbClear_eq]
  split <;> simp [State.setCh, State.noteArmed]

theorem saf_showArmable : (s.showArmable c).saf = s.saf := by
  unfold State.showArmable
  split <;> simp

theorem armedOnce_evalCh_other {d : Nat} (h : d ≠ c) : bitAt (s.evalCh d).saf.armedOnce c = bitAt s.saf.armedOnce c := by
  unfold State.evalCh
  split
  · split
    · rw [armedOnce_armCh, saf_showArmable, bitAt_putBits_ne h.symm]
    · rw [saf_showArmable]
  · rw [setB_saf]

end Eval

/-! ### What the bookkeeping does to a channel -/

section EvalRun
variable {o : Bool} (s : State)

theorem evalCh_loopRun {d : Nat} (hd : d < 4) (u : State) : SafRun o evalLoopFlds u (u.evalCh d) := by
  refine (evalCh_run d u).mono fun f hf => ?_
  simp only [evalLoopFlds, List.mem_append, List.mem_flatMap, List.mem_range] at hf ⊢
  rcases hf with (hf | hf) | hf
  · exact .inl (.inl ⟨d, hd, hf⟩)
  · exact .inl (.inr hf)
  · exact .inr hf

theorem evalLoop_run : SafRun o evalLoopFlds s ((List.range 4).foldl State.evalCh s) :=
  .foldl (fun u _ hd => evalCh_loopRun (List.mem_range.1 hd) u) s

theorem safEval_run : SafRun o evalFlds s s.safEval := by
  cases h : s.safReady with
  | true =>
    rw [safEval_ready h]
    exact (((clearExpired_run s).seq (evalLoop_run _)).seq (safMirror_run _))
  | false =>
    rw [safEval_notReady h]
    exact (safMirror_run s).mono fun _ hf => List.mem_append_right _ hf

/-- What a loop ahead of the mirror leaves for it to show. -/
theorem safEval_mirrors : ∃ u, SafRun o evalLoopFlds s u ∧ s.safEval = u.safMirror := by
  cases h : s.safReady with
  | true => exact ⟨_, ((clearExpired_run s).mono (by simp)).trans (evalLoop_run _), safEval_ready h⟩
  | false => exact ⟨s, .refl .., safEval_notReady h⟩

theorem safEval_degraded : s.safEval.getB SAF_STATUS.DEGRADED = s.saf.degFrom.isSome := by
  obtain ⟨u, hu, he⟩ := safEval_mirrors (o := true) s
  rw [he, safMirror_degraded, hu.kept.degFrom]

theorem safEval_partner : s.safEval.getB SAF_STATUS.PARTNER = s.saf.partnerAt.isSome := by
  obtain ⟨u, hu, he⟩ := safEval_mirrors (o := true) s
  rw [he, safMirror_partner, hu.kept.partnerAt]

theorem safEval_partnerLost : s.safEval.getB SAF_FAULT.PARTNER_LOST = s.faultPresent .partnerLost := by
  obtain ⟨u, hu, he⟩ := safEval_mirrors (o := true) s
  rw [he, safMirror_partnerLost, faultPresent_kept hu.kept rfl]

theorem safEval_fb {c : Nat} (hc : c < 4) : s.safEval.getB (SAF_CH.FB c) = (s.safReady && s.safFbUse c && s.safFbClosed c) := by
  obtain ⟨u, hu, he⟩ := safEval_mirrors (o := true) s
  rw [he, safMirror_fb hc, safReady_run hu (by decide), safFbUse_congr hu.img, State.safFbClosed, hu.kept.pins, State.safFbClosed]

end EvalRun

/-- A field of SAF_CH that the mirror does not write. -/
theorem get_safMirror_ch (s : State) {c : Nat} {g : Fld} (hg : g = SAF_CH.STATE c ∨ g = SAF_CH.ARMABLE c) : s.safMirror.get g = s.get g := by
  have hall : ∀ d : Fin 4, mirrorFlds.all (SAF_CH.STATE d).isApart = true ∧ mirrorFlds.all (SAF_CH.ARMABLE d).isApart = true := by decide
  have hmod (i : Nat) : SAF_CH i = SAF_CH (i % 4) := by simp [SAF_CH]
  obtain ⟨hstate, hflag⟩ := hall ⟨c % 4, Nat.mod_lt _ (by decide)⟩
  rcases hg with rfl | rfl
  · exact (safMirror_run (o := true) s).only.get (by rw [SAF_CH.STATE, hmod]; exact hstate)
  · exact (safMirror_run (o := true) s).only.get (by rw [SAF_CH.ARMABLE, hmod]; exact hflag)

/-- `u` shows channel `c` as `s` does, after bookkeeping on other channels. -/
structure SameCh (c : Nat) (s u : State) : Prop where
  run : SafRun false evalLoopFlds s u
  state : u.chState c = s.chState c
  flag : u.getB (SAF_CH.ARMABLE c) = s.getB (SAF_CH.ARMABLE c)
  once : bitAt u.saf.armedOnce c = bitAt s.saf.armedOnce c

section EvalCh
variable {s u : State} {c d : Nat}

theorem SameCh.armable (h : SameCh c s u) : u.armable c = s.armable c :=
  armable_kept h.run.kept h.run.img (safReady_run h.run (by decide)) h.state

theorem get_evalCh_other (hc : c < 4) (hd : d < 4) (hne : d ≠ c) {g : Fld} (hg : g.addr = SAF_CH c) (u : State) : (u.evalCh d).get g = u.get g := by
  refine (evalCh_run (o := true) d u).only.2.1 g fun f hf => ?_
  simp only [List.mem_append] at hf
  rcases hf with (hf | hf) | hf
  · exact apart_armFlds hc hd hne hg f hf
  · exact apart_raiseFlds (hg ▸ windowOf_ch c) 121 f hf
  · exact apart_raiseFlds (hg ▸ windowOf_ch c) 122 f hf

theorem SameCh.evalOther (h : SameCh c s u) (hc : c < 4) (hd : d < 4) (hne : d ≠ c) : SameCh c s (u.evalCh d) :=
  ⟨h.run.trans (evalCh_loopRun hd u), (get_evalCh_other hc hd hne rfl u).trans h.state,
    (getB_of_get (get_evalCh_other hc hd hne rfl u)).trans h.flag, (armedOnce_evalCh_other c u hne).trans h.once⟩

theorem sameCh_clearExpired (c : Nat) (s : State) : SameCh c s s.clearExpired := by
  have hrun := clearExpired_run (o := false) s
  refine ⟨hrun.mono (by simp), get_of_only_nil hrun.only _, getB_of_get (get_of_only_nil hrun.only _), ?_⟩
  unfold State.clearExpired
  split <;> rfl

/-- The bookkeeping leaves channel `c` of a state as the round of `c` made it. -/
theorem safEval_round {R : State → Prop} (hready : s.safReady = true) (hc : c < 4) (hround : ∀ u, SameCh c s u → R (u.evalCh c))
    (hafter : ∀ u d, d < 4 → d ≠ c → R u → R (u.evalCh d)) : ∃ u, R u ∧ s.safEval = u.safMirror :=
  ⟨_, foldl_range_once (Q := SameCh c s) (fun _ _ hd hne hu => hu.evalOther hc hd hne) hround hafter hc (sameCh_clearExpired c s), safEval_ready hready⟩

/-- A channel whose conditions do not hold keeps its state and is not ARMABLE. -/
theorem safEval_unarmable (hc : c < 4) (h : s.armable c = false) : s.safEval.chState c = s.chState c ∧
    (s.safReady = true ∨ s.getB (SAF_CH.ARMABLE c) = false → s.safEval.getB (SAF_CH.ARMABLE c) = false) := by
  cases hready : s.safReady with
  | false =>
    rw [safEval_notReady hready]
    exact ⟨get_safMirror_ch s (.inl rfl), fun hf => (getB_of_get (get_safMirror_ch s (.inr rfl))).trans (hf.resolve_left (by decide))⟩
  | true =>
    obtain ⟨u, ⟨hstate, hflag⟩, he⟩ := safEval_round (R := fun u => u.chState c = s.chState c ∧ u.getB (SAF_CH.ARMABLE c) = false) hready hc
      (fun u hu => by
        rw [State.evalCh, if_neg (by simp [hu.armable, h])]
        exact ⟨(get_setB_apart _ _ _ _ (state_apart_armable c) (armable_top c)).trans hu.state, getB_setB_self _ _ false (armable_top c) rfl⟩)
      (fun u d hd hne hu => ⟨(get_evalCh_other hc hd hne rfl u).trans hu.1, (getB_of_get (get_evalCh_other hc hd hne rfl u)).trans hu.2⟩)
    rw [he]
    exact ⟨(get_safMirror_ch u (.inl rfl)).trans hstate, fun _ => (getB_of_get (get_safMirror_ch u (.inr rfl))).trans hflag⟩

theorem chState_safEval (hc : c < 4) (h : s.armable c = false) : s.safEval.chState c = s.chState c := (safEval_unarmable hc h).1

/-- Only a tripped channel is armable. -/
theorem armable_of_chState (h : s.chState c ≠ safTRIPPED) : s.armable c = false := by simp [State.armable, h]

theorem chState_of_armable (h : s.armable c = true) : s.chState c = safTRIPPED :=
  Decidable.byContradiction fun hne => Bool.false_ne_true ((armable_of_chState hne).symm.trans h)

theorem safReady_of_armable (h : s.armable c = true) : s.safReady = true := by
  cases hr : s.safReady
  · simp [State.armable, hr] at h
  · rfl

theorem armsItself_showArmable (c : Nat) (s : State) : (s.showArmable c).armsItself c = s.armsItself c := by
  simp only [State.armsItself, imgFld_congr (showArmable_run (o := true) c s).img, saf_showArmable]

theorem SameCh.armsItself (h : SameCh c s u) : u.armsItself c = s.armsItself c := by
  simp only [State.armsItself, imgFld_congr h.run.img, h.once]

theorem showArmable_shows (c : Nat) (s : State) : (s.showArmable c).chState c = s.chState c ∧ (s.showArmable c).getB (SAF_CH.ARMABLE c) = true ∧
    (s.getB (SAF_CH.ARMABLE c) = false → s.raised 121 (s.showArmable c)) := by
  unfold State.showArmable
  split
  · rename_i h
    exact ⟨rfl, h, fun h0 => absurd (h.symm.trans h0) (by decide)⟩
  · have hset := safRun_setB (o := true) s (f := SAF_CH.ARMABLE c) true (armable_top c) (windowOf_ch c)
    refine ⟨(chState_raise ..).trans (get_setB_apart _ _ _ _ (state_apart_armable c) (armable_top c)), ?_, fun _ => hset.evt.raised_raise (by decide)⟩
    exact (armFlag_raise ..).trans (getB_setB_self _ _ true (armable_top c) rfl)

/-- A channel whose conditions hold and that does not arm itself shows ARMABLE, with source 121 where it did not before. -/
theorem safEval_armable (hc : c < 4) (h : s.armable c = true) (hself : s.armsItself c = false) : s.safEval.chState c = safTRIPPED ∧
    s.safEval.getB (SAF_CH.ARMABLE c) = true ∧ (s.getB (SAF_CH.ARMABLE c) = false → s.raised 121 s.safEval) := by
  obtain ⟨u, ⟨hrun, hstate, hflag, hraised⟩, he⟩ := safEval_round (s := s) (c := c) (R := fun u => SafRun false evalLoopFlds s u ∧ u.chState c = safTRIPPED ∧
      u.getB (SAF_CH.ARMABLE c) = true ∧ (s.getB (SAF_CH.ARMABLE c) = false → s.raised 121 u)) (safReady_of_armable h) hc
    (fun u hu => by
      obtain ⟨hstate, hflag, hraised⟩ := showArmable_shows c u
      have heq : u.evalCh c = u.showArmable c := by
        rw [State.evalCh, if_pos (hu.armable.trans h), if_neg (by simp [armsItself_showArmable, hu.armsItself, hself])]
      have hrun := evalCh_loopRun (o := false) hc u
      rw [heq] at hrun ⊢
      exact ⟨hu.run.trans hrun, (hstate.trans hu.state).trans (chState_of_armable h), hflag, fun h0 =>
        hu.run.evt.raised_second hrun.evt (by decide) (hraised (hu.flag.trans h0))⟩)
    (fun u d hd hne ⟨hrun, hstate, hflag, hraised⟩ => by
      have hd' := evalCh_loopRun (o := false) hd u
      exact ⟨hrun.trans hd', (get_evalCh_other hc hd hne rfl u).trans hstate, (getB_of_get (get_evalCh_other hc hd hne rfl u)).trans hflag,
        fun h0 => hd'.evt.raised_first hrun.evt (by decide) (hraised h0)⟩)
  rw [he]
  exact ⟨(get_safMirror_ch u (.inl rfl)).trans hstate, (getB_of_get (get_safMirror_ch u (.inr rfl))).trans hflag,
    fun h0 => (safMirror_run (o := true) u).evt.raised_first hrun.evt (by decide) (hraised h0)⟩

/-- A channel whose conditions hold and that arms itself goes to OFF, with source 122. -/
theorem safEval_armsItself (hc : c < 4) (h : s.armable c = true) (hself : s.armsItself c = true) : s.safEval.chState c = safOFF ∧ s.raised 122 s.safEval := by
  obtain ⟨u, ⟨hrun, hstate, hraised⟩, he⟩ := safEval_round (s := s) (c := c)
    (R := fun u => SafRun false evalLoopFlds s u ∧ u.chState c = safOFF ∧ s.raised 122 u) (safReady_of_armable h) hc
    (fun u hu => by
      obtain ⟨hstate, -, hraised⟩ := armCh_shows c (u.showArmable c)
      have heq : u.evalCh c = (u.showArmable c).armCh c := by
        rw [State.evalCh, if_pos (hu.armable.trans h), if_pos (by rw [armsItself_showArmable, hu.armsItself, hself])]
      have hrun := evalCh_loopRun (o := false) hc u
      rw [heq] at hrun ⊢
      have hshow := (showArmable_run (o := false) c u).evt
      exact ⟨hu.run.trans hrun, hstate, (hu.run.evt.trans hshow).raised_second (armCh_run (o := true) c _).evt (by decide) hraised⟩)
    (fun u d hd hne ⟨hrun, hstate, hraised⟩ => by
      have hd' := evalCh_loopRun (o := false) hd u
      exact ⟨hrun.trans hd', (get_evalCh_other hc hd hne rfl u).trans hstate, hd'.evt.raised_first hrun.evt (by decide) hraised⟩)
  rw [he]
  exact ⟨(get_safMirror_ch u (.inl rfl)).trans hstate, (safMirror_run (o := true) u).evt.raised_first hrun.evt (by decide) hraised⟩

end EvalCh

/-! ### Tripping and releasing (R257, R260) -/

theorem openCh_run (c : Nat) (wasOn : Bool) (s : State) : SafRun true [] s (s.openCh c wasOn) :=
  safRun_withSaf s ⟨rfl, (nomatch ·), .refl _⟩

def tripChFlds (c : Nat) : List Fld := [SAF_CH.STATE c, SAF_CH.CAUSE c, SAF_CH.PAIR c, SAF_CH.ARMABLE c, SAF_CNT.TRIPS]

/-- What a trip shows of its channel in SAF_CH. -/
def State.showTrip (cause pair c : Nat) (s : State) : State :=
  let s := (s.setCh c safTRIPPED).set (SAF_CH.CAUSE c) cause
  (if cause = 2 then s.set (SAF_CH.PAIR c) pair else s).setB (SAF_CH.ARMABLE c) false

/-- The trip is counted, and its stamp kept for the channel. -/
def State.countTrip (c stamp : Nat) (s : State) : State :=
  let s := s.bump SAF_CNT.TRIPS 1
  { s with saf := { s.saf with tripAt := tput s.saf.tripAt c stamp } }

/-- One channel of a trip. -/
def State.tripCh (cause pair stamp : Nat) (s : State) (c : Nat) : State :=
  (State.openCh c (decide (s.chState c = safON)) ((s.showTrip cause pair c).countTrip c stamp)).fbClear c

/-- Where two pairs fire at one instant, the lower one is shown. -/
def State.samePair (mask cause pair stamp : Nat) (s : State) : State :=
  if cause = 2 then (List.range 4).foldl (fun s c => if bitAt mask c then s.samePairTrip c pair stamp else s) s else s

/-- The channels that a trip takes out of ON and OFF. -/
def State.tripsCh (s : State) (mask c : Nat) : Bool := bitAt mask c && s.chState c ≠ safTRIPPED

theorem safTrip_eq (mask cause pair stamp : Nat) (s : State) : s.safTrip mask cause pair stamp =
    if ((List.range 4).filter ((s.samePair mask cause pair stamp).tripsCh mask)).isEmpty then s.samePair mask cause pair stamp
    else ((((List.range 4).filter ((s.samePair mask cause pair stamp).tripsCh mask)).foldl (State.tripCh cause pair stamp)
      (s.samePair mask cause pair stamp)).set64 SAF_TRIP_LTC_LO SAF_TRIP_LTC_HI stamp).raise 113 := rfl

def tripFlds : List Fld :=
  (List.range 4).flatMap tripChFlds ++ [wordAt SAF_TRIP_LTC_LO, wordAt SAF_TRIP_LTC_HI] ++ raiseFlds 113

section Trip
variable {mask cause pair stamp c d : Nat} (s u : State)

theorem samePairTrip_run (o : Bool) (c pair stamp : Nat) : SafRun o [SAF_CH.PAIR c] s (s.samePairTrip c pair stamp) := by
  unfold State.samePairTrip
  split
  · exact safRun_set s (f := SAF_CH.PAIR c) pair (by simp [SAF_CH.PAIR]) (windowOf_ch c)
  · exact .refl ..

theorem samePair_run (o : Bool) (mask cause pair stamp : Nat) :
    SafRun o ((List.range 4).map SAF_CH.PAIR) s (s.samePair mask cause pair stamp) := by
  unfold State.samePair
  split
  · refine .foldl (fun u c hc => ?_) s
    split
    · exact (samePairTrip_run u o c pair stamp).mono (by simpa using ⟨c, List.mem_range.1 hc, rfl⟩)
    · exact .refl ..
  · exact .refl ..

theorem showTrip_run (o : Bool) (cause pair c : Nat) :
    SafRun o [SAF_CH.STATE c, SAF_CH.CAUSE c, SAF_CH.PAIR c, SAF_CH.ARMABLE c] s (s.showTrip cause pair c) := by
  have hfront : SafRun o [SAF_CH.STATE c, SAF_CH.CAUSE c] s ((s.setCh c safTRIPPED).set (SAF_CH.CAUSE c) cause) :=
    (safRun_set s (f := SAF_CH.STATE c) _ (state_top c) (windowOf_ch c)).seq (safRun_set _ (f := SAF_CH.CAUSE c) _ (by simp [SAF_CH.CAUSE]) (windowOf_ch c))
  refine SafRun.trans (t := if cause = 2 then _ else _) ?_
    ((safRun_setB _ (f := SAF_CH.ARMABLE c) false (armable_top c) (windowOf_ch c)).mono (by simp))
  split
  · exact (hfront.seq (safRun_set _ (f := SAF_CH.PAIR c) pair (by simp [SAF_CH.PAIR]) (windowOf_ch c))).mono (by simp +contextual)
  · exact hfront.mono (by simp +contextual)

theorem countTrip_run (c stamp : Nat) : SafRun true [SAF_CNT.TRIPS] s (s.countTrip c stamp) :=
  (safRun_bump s 1 (by decide) (by decide)).seq (safRun_withSaf _ ⟨rfl, (nomatch ·), .refl _⟩)

/-- What stands behind the registers of a trip: the switches open and the mirror is awaited. -/
theorem openTripped_run (stamp c : Nat) (wasOn : Bool) : SafRun true [SAF_CNT.TRIPS] s (State.fbClear c (State.openCh c wasOn (s.countTrip c stamp))) :=
  ((countTrip_run s c stamp).seq (openCh_run c wasOn _)).seq (fbClear_run c _)

theorem tripCh_run (cause pair stamp c : Nat) : SafRun true (tripChFlds c) s (s.tripCh cause pair stamp c) :=
  (showTrip_run s true cause pair c).seq (openTripped_run _ stamp c _)

/-- A channel that a trip takes from ON or OFF. -/
structure TripShown (cause pair c : Nat) (t : State) : Prop where
  tripped : t.chState c = safTRIPPED
  showsCause : t.get (SAF_CH.CAUSE c) = cause % 8
  showsPair : cause = 2 → t.get (SAF_CH.PAIR c) = pair % 8

theorem TripShown.congr {s t : State} (h : TripShown cause pair c s) (hg : ∀ g : Fld, g ∈ [SAF_CH.STATE c, SAF_CH.CAUSE c, SAF_CH.PAIR c] → t.get g = s.get g) :
    TripShown cause pair c t :=
  ⟨(hg _ (by simp)).trans h.tripped, (hg _ (by simp)).trans h.showsCause, fun h2 => (hg _ (by simp)).trans (h.showsPair h2)⟩

theorem tripCh_shown (cause pair stamp c : Nat) : TripShown cause pair c (s.tripCh cause pair stamp c) := by
  have hshow : TripShown cause pair c (s.showTrip cause pair c) := by
    unfold State.showTrip
    split
    · refine ⟨?_, ?_, fun _ => ?_⟩ <;>
        simp [State.chState, State.setCh, State.setB, get_set_self, get_set_ne, SAF_CH.STATE, SAF_CH.CAUSE, SAF_CH.PAIR, SAF_CH.ARMABLE, safTRIPPED]
    · refine ⟨?_, ?_, fun h => absurd h ‹_›⟩ <;>
        simp [State.chState, State.setCh, State.setB, get_set_self, get_set_ne, SAF_CH.STATE, SAF_CH.CAUSE, SAF_CH.ARMABLE, safTRIPPED]
  refine hshow.congr fun g hg => (openTripped_run _ stamp c _).only.2.1 g ?_
  have haddr : SAF_CH c ≠ SAF_CNT := by simp only [SAF_CH, SAF_CNT]; omega
  simp only [List.mem_cons, List.not_mem_nil, or_false] at hg
  rcases hg with rfl | rfl | rfl <;> simp [Fld.apart, SAF_CH.STATE, SAF_CH.CAUSE, SAF_CH.PAIR, SAF_CNT.TRIPS, haddr]

theorem get_tripCh_other (hc : c < 4) (hd : d < 4) (hne : d ≠ c) {g : Fld} (hg : g.addr = SAF_CH c) : (u.tripCh cause pair stamp d).get g = u.get g := by
  refine (tripCh_run u cause pair stamp d).only.2.1 g ?_
  have haddr : SAF_CH c ≠ SAF_CH d ∧ SAF_CH c ≠ SAF_CNT := by simp only [SAF_CH, SAF_CNT]; omega
  simp [tripChFlds, Fld.apart, hg, SAF_CH.STATE, SAF_CH.CAUSE, SAF_CH.PAIR, SAF_CH.ARMABLE, SAF_CNT.TRIPS, haddr.1, haddr.2]

theorem tripLoop_run (p : Nat → Bool) : SafRun true ((List.range 4).flatMap tripChFlds) s (((List.range 4).filter p).foldl (State.tripCh cause pair stamp) s) :=
  .foldl (fun u c hc => (tripCh_run u cause pair stamp c).mono fun _ hf => List.mem_flatMap.2 ⟨c, (List.mem_filter.1 hc).1, hf⟩) s

theorem setStamp_run (o : Bool) (stamp : Nat) :
    SafRun o [wordAt SAF_TRIP_LTC_LO, wordAt SAF_TRIP_LTC_HI] s (s.set64 SAF_TRIP_LTC_LO SAF_TRIP_LTC_HI stamp) :=
  safRun_of_only (only_set64 ..) (by decide)

theorem samePair_tripRun (mask cause pair stamp : Nat) : SafRun true tripFlds s (s.samePair mask cause pair stamp) := by
  refine (samePair_run s true mask cause pair stamp).mono fun f hf => ?_
  obtain ⟨c, hc, rfl⟩ := List.mem_map.1 hf
  exact List.mem_append_left _ (List.mem_append_left _ (List.mem_flatMap.2 ⟨c, hc, by simp [tripChFlds]⟩))

theorem safTrip_run (mask cause pair stamp : Nat) : SafRun true tripFlds s (s.safTrip mask cause pair stamp) := by
  rw [safTrip_eq]
  split
  · exact samePair_tripRun s mask cause pair stamp
  · exact (samePair_tripRun s mask cause pair stamp).trans (((tripLoop_run _ _).seq (setStamp_run _ true stamp)).seq (safRun_raise _ (by decide)))

theorem chState_samePair (mask cause pair stamp c : Nat) : (s.samePair mask cause pair stamp).chState c = s.chState c := by
  refine (samePair_run s true mask cause pair stamp).only.2.1 _ fun f hf => ?_
  obtain ⟨d, -, rfl⟩ := List.mem_map.1 hf
  exact .inr (.inr (by simp [SAF_CH.STATE, SAF_CH.PAIR]))

theorem tripLoop_eq (p : Nat → Bool) :
    ((List.range 4).filter p).foldl (State.tripCh cause pair stamp) s = (List.range 4).foldl (fun u d => if p d then u.tripCh cause pair stamp d else u) s :=
  List.foldl_filter ..

theorem chState_tripLoop_other {p : Nat → Bool} (hc : c < 4) (hp : p c = false) {g : Fld} (hg : g.addr = SAF_CH c) :
    (((List.range 4).filter p).foldl (State.tripCh cause pair stamp) s).get g = s.get g := by
  refine foldl_keeps (P := fun u => u.get g = s.get g) (fun u d hd hu => ?_) rfl
  obtain ⟨hd4, hpd⟩ := List.mem_filter.1 hd
  refine (get_tripCh_other u hc (List.mem_range.1 hd4) (fun h => ?_) hg).trans hu
  rw [h, hp] at hpd
  exact absurd hpd (by decide)

theorem tripLoop_shown {p : Nat → Bool} (hc : c < 4) (hp : p c = true) :
    TripShown cause pair c (((List.range 4).filter p).foldl (State.tripCh cause pair stamp) s) := by
  rw [tripLoop_eq]
  refine foldl_range_once (Q := fun _ => True) (fun _ _ _ _ _ => trivial) (fun u _ => ?_) (fun u d hd hne hu => ?_) hc trivial
  · rw [if_pos hp]
    exact tripCh_shown u cause pair stamp c
  · split
    · refine hu.congr fun g hg => get_tripCh_other u hc hd hne ?_
      simp only [List.mem_cons, List.not_mem_nil, or_false] at hg
      rcases hg with rfl | rfl | rfl <;> rfl
    · exact hu

/-- The stamp and the event of a trip leave SAF_CH. -/
theorem get_ch_stamped {g : Fld} (hg : g.addr = SAF_CH c) : ((s.set64 SAF_TRIP_LTC_LO SAF_TRIP_LTC_HI stamp).raise 113).get g = s.get g := by
  have haddr : SAF_CH c ≠ SAF_TRIP_LTC_LO ∧ SAF_CH c ≠ SAF_TRIP_LTC_HI := by simp only [SAF_CH, SAF_TRIP_LTC_LO, SAF_TRIP_LTC_HI]; omega
  exact (get_raise_apart _ _ _ (apart_raiseFlds (hg ▸ windowOf_ch c) 113)).trans
    (get_set64_apart _ _ _ _ _ (.inl (hg ▸ haddr.1)) (.inl (hg ▸ haddr.2)))

/-- A tripped channel stays tripped through a trip. -/
theorem chState_safTrip_tripped (hc : c < 4) (h : s.chState c = safTRIPPED) : (s.safTrip mask cause pair stamp).chState c = safTRIPPED := by
  have hstill := (chState_samePair s mask cause pair stamp c).trans h
  rw [safTrip_eq]
  split
  · exact hstill
  · refine (get_ch_stamped _ rfl).trans ((chState_tripLoop_other _ hc ?_ rfl).trans hstill)
    simp [State.tripsCh, hstill]

/-- A trip of an ON or OFF channel (R257). -/
theorem safTrip_trips (hc : c < 4) (hm : bitAt mask c = true) (h : s.chState c ≠ safTRIPPED) :
    TripShown cause pair c (s.safTrip mask cause pair stamp) ∧
      (s.safTrip mask cause pair stamp).get64 SAF_TRIP_LTC_LO SAF_TRIP_LTC_HI = stamp % 2 ^ 64 ∧ s.raised 113 (s.safTrip mask cause pair stamp) := by
  have hp : (s.samePair mask cause pair stamp).tripsCh mask c = true := by simp [State.tripsCh, hm, chState_samePair, h]
  have hhit : ((List.range 4).filter ((s.samePair mask cause pair stamp).tripsCh mask)).isEmpty = false := by
    rw [List.isEmpty_eq_false_iff_exists_mem]
    exact ⟨c, List.mem_filter.2 ⟨List.mem_range.2 hc, hp⟩⟩
  rw [safTrip_eq, hhit, if_neg (by decide)]
  refine ⟨(tripLoop_shown _ hc hp).congr fun g hg => get_ch_stamped (c := c) _ ?_, ?_, ?_⟩
  · simp only [List.mem_cons, List.not_mem_nil, or_false] at hg
    rcases hg with rfl | rfl | rfl <;> rfl
  · exact (get64_congr _ _ (reg_raise_ne _ (notMem_raiseRegs rfl (by decide))) (reg_raise_ne _ (notMem_raiseRegs rfl (by decide)))).trans
      (get64_set64_self _ _ _ stamp (by decide))
  · exact (((samePair_run s true mask cause pair stamp).evt.trans (tripLoop_run _ _).evt).trans (setStamp_run _ true stamp).evt).raised_raise (by decide)

theorem chState_safTrip (hc : c < 4) (hm : bitAt mask c = true) : (s.safTrip mask cause pair stamp).chState c = safTRIPPED := by
  by_cases h : s.chState c = safTRIPPED
  · exact chState_safTrip_tripped s hc h
  · exact (safTrip_trips s hc hm h).1.tripped

end Trip

section Release
variable {c d : Nat} (s : State)

theorem releaseCh_on (h : s.chState c = safON) : s.releaseCh c = State.fbClear c (State.openCh c true (s.setCh c safOFF)) := if_pos h

theorem releaseCh_run (c : Nat) : SafRun true [SAF_CH.STATE c] s (s.releaseCh c) := by
  by_cases h : s.chState c = safON
  · rw [releaseCh_on s h]
    exact ((safRun_set s (f := SAF_CH.STATE c) safOFF (state_top c) (windowOf_ch c)).seq (openCh_run c true _)).seq (fbClear_run c _)
  · rw [State.releaseCh, if_neg h]
    exact .refl ..

theorem chState_releaseCh (h : s.chState c = safON) : (s.releaseCh c).chState c = safOFF := by
  rw [releaseCh_on s h]
  exact (get_of_only_nil ((openCh_run c true _).seq (fbClear_run c _)).only _).trans (get_set_self s (SAF_CH.STATE c) safOFF (state_top c))

theorem chState_releaseCh_other (hc : c < 4) (hd : d < 4) (hne : d ≠ c) : (s.releaseCh d).chState c = s.chState c := by
  refine (releaseCh_run s d).only.2.1 _ fun f hf => ?_
  exact apart_armFlds hc hd hne rfl f (by rw [List.mem_singleton.1 hf]; simp [armFlds])

end Release

/-! ### The mailbox (R269, Table 12-3) -/

/-- A register of SAF's window. -/
def Fld.inSaf (f : Fld) : Bool := decide (0xC7000000 ≤ f.addr) && decide (f.addr < 0xC7000000 + 0x1000000)

theorem safOnlyBut {s t : State} {ps qs : List Comp} {fs gs : List Fld} (h : s.only ps fs t) (hp : ∀ p ∈ ps, p ∈ qs)
    (hf : fs.all (fun f => f.inSaf || gs.contains f) = true) : s.onlyBut qs gs 0xC7000000 0x1000000 t := by
  refine onlyBut_of_only h hp fun f hm => ?_
  have hin := List.all_eq_true.1 hf f hm
  simpa only [Fld.inSaf, Bool.or_eq_true, Bool.and_eq_true, decide_eq_true_eq, List.contains_iff_mem] using hin

/-- What an answer writes. -/
def answerFlds : List Fld := [SAF_MBX_RSP.SEQ, SAF_MBX_RSP.REASON, SAF_MBX_RSP.PEND] ++ raiseFlds 112

/-- SEQ and REASON of an answer, behind which PEND falls. -/
def State.showAnswer (seq code : Nat) (s : State) : State := (s.set SAF_MBX_RSP.SEQ seq).set SAF_MBX_RSP.REASON (0x0700 + code)

def State.noRequest (s : State) : State := { s with saf := { s.saf with req := none } }

theorem mbxAnswer_eq (seq code : Nat) (s : State) :
    s.mbxAnswer seq code = (((s.showAnswer seq code).noRequest).setB SAF_MBX_RSP.PEND false).raise 112 := rfl

theorem only_noRequest (s : State) : s.only [.saf] [] s.noRequest := only_withSaf s _

/-- An answer shows SEQ, REASON and PEND 0, raises source 112 and ends the request. -/
theorem mbxAnswer_shows (seq code : Nat) (s : State) : (s.mbxAnswer seq code).saf = { s.saf with req := none } ∧
    (s.mbxAnswer seq code).get SAF_MBX_RSP.SEQ = seq % 256 ∧ (s.mbxAnswer seq code).get SAF_MBX_RSP.REASON = (0x0700 + code) % 65536 ∧
    (s.mbxAnswer seq code).getB SAF_MBX_RSP.PEND = false ∧ s.only [.saf, .rcd, .cyc] answerFlds (s.mbxAnswer seq code) ∧
    EvtRun s (s.mbxAnswer seq code) ∧ s.raised 112 (s.mbxAnswer seq code) := by
  have hshown : s.only [] [SAF_MBX_RSP.SEQ, SAF_MBX_RSP.REASON] (s.showAnswer seq code) := only_seq (only_set s _ (by decide)) (only_set _ _ (by decide))
  have hquiet : s.only [.saf] [SAF_MBX_RSP.SEQ, SAF_MBX_RSP.REASON, SAF_MBX_RSP.PEND] ((s.showAnswer seq code).noRequest.setB SAF_MBX_RSP.PEND false) :=
    only_seq (only_seq hshown (only_noRequest _)) (only_set _ _ (by decide))
  have hpend : ((s.showAnswer seq code).noRequest.only [] [SAF_MBX_RSP.PEND]) ((s.showAnswer seq code).noRequest.setB SAF_MBX_RSP.PEND false) :=
    only_set _ _ (by decide)
  have hevt := evtRun_of_only hquiet (by simp) (by decide)
  rw [mbxAnswer_eq]
  refine ⟨?_, ?_, ?_, ?_, only_seq hquiet (only_raise ..), hevt.trans (evtRun_raise _ (by decide)), hevt.raised_raise (by decide)⟩
  · simp [State.noRequest, State.showAnswer]
  · rw [get_raise_outside _ _ (by decide), hpend.get (by decide), get_of_only_nil (only_noRequest _), State.showAnswer,
      get_set_apart _ _ _ _ (apart_of_isApart (by decide)) (by decide), get_set_self _ _ _ (by decide)]
    rfl
  · rw [get_raise_outside _ _ (by decide), hpend.get (by decide), get_of_only_nil (only_noRequest _), State.showAnswer, get_set_self _ _ _ (by decide)]
    rfl
  · rw [getB_raise_outside _ _ (by decide), getB_setB_self _ _ _ (by decide) rfl]

/-- Between `s` and `t` the request under way was answered: `u` is what its operation made of `s`. -/
structure Served (seq code : Nat) (s u t : State) : Prop where
  req : t.saf.req = none
  seqShown : t.get SAF_MBX_RSP.SEQ = seq % 256
  reason : t.get SAF_MBX_RSP.REASON = (0x0700 + code) % 65536
  pend : t.getB SAF_MBX_RSP.PEND = false
  raised : s.raised 112 t
  kept : SafKept false { u.saf with req := none } t.saf
  only : u.only [.saf, .rcd, .cyc] (answerFlds ++ evalFlds) t
  evt : EvtRun u t
  degraded : t.getB SAF_STATUS.DEGRADED = u.saf.degFrom.isSome
  held : ∀ c, c < 4 → u.chState c ≠ safTRIPPED → t.chState c = u.chState c ∧
    (u.getB (SAF_CH.ARMABLE c) = false → t.getB (SAF_CH.ARMABLE c) = false)

theorem answerFlds_apart (c : Nat) : answerFlds.all (SAF_CH.STATE c).isApart = true ∧ answerFlds.all (SAF_CH.ARMABLE c).isApart = true := by
  have hall : ∀ d : Fin 4, answerFlds.all (SAF_CH.STATE d).isApart = true ∧ answerFlds.all (SAF_CH.ARMABLE d).isApart = true := by decide
  have hmod (i : Nat) : SAF_CH i = SAF_CH (i % 4) := by simp [SAF_CH]
  rw [SAF_CH.STATE, SAF_CH.ARMABLE, hmod]
  exact hall ⟨c % 4, Nat.mod_lt _ (by decide)⟩

theorem served_answer {s u : State} (h : EvtRun s u) (seq code : Nat) : Served seq code s u (u.mbxAnswer seq code).safEval := by
  obtain ⟨hsaf, hseq, hreason, hpend, honly, hevt, hraised⟩ := mbxAnswer_shows seq code u
  have hrun := safEval_run (o := false) (u.mbxAnswer seq code)
  have hkept := hrun.kept
  rw [hsaf] at hkept
  refine ⟨(congrArg SafState.req hkept.rest).trans rfl, (hrun.only.get (by decide)).trans hseq, (hrun.only.get (by decide)).trans hreason,
    (hrun.only.getB (by decide)).trans hpend, hrun.evt.raised_first (h.trans hevt) (by decide) (h.raised_second hevt (by decide) hraised), hkept,
    only_trans (only_mono honly (fun _ hp => hp) fun _ hf => List.mem_append_left _ hf)
      (only_mono hrun.only (fun _ hp => hp) fun _ hf => List.mem_append_right _ hf), hevt.trans hrun.evt, ?_, fun c hc hst => ?_⟩
  · rw [safEval_degraded, hsaf]
  · obtain ⟨hastate, haflag⟩ := answerFlds_apart c
    have hstate : (u.mbxAnswer seq code).chState c = u.chState c := honly.get hastate
    have hunarmable : (u.mbxAnswer seq code).armable c = false := armable_of_chState (hstate ▸ hst)
    obtain ⟨hst', hflag'⟩ := safEval_unarmable hc hunarmable
    exact ⟨hst'.trans hstate, fun hf => hflag' (.inr ((honly.getB haflag).trans hf))⟩

theorem mbxServe_of {s : State} {seq arg op : Nat} {f : Nat → Bool} {act : Nat → State → Nat × State} (hreq : s.saf.req = some (seq, arg, op))
    (hf : f op = true) : s.mbxServe f act = ((act arg s).2.mbxAnswer seq (act arg s).1).safEval := by
  simp only [State.mbxServe, hreq, hf, if_true]

/-! #### ENERGISE and RELEASE (R260) -/

theorem energiseCode_le (s : State) (c : Nat) : s.energiseCode c ≤ 0x24 := by
  have hcodes : ∀ a b d e : Bool, lowestCode [(a, 0x20), (b, 0x21), (d, 0x23), (e, 0x24)] ≤ 0x24 := by decide
  unfold State.energiseCode
  split
  · decide
  · split
    · decide
    · exact hcodes ..

theorem energise_refused {s : State} {c : Nat} (h : s.energiseCode c ≠ 0) : s.energise c = (s.energiseCode c, s) := if_pos (by simp [h])

/-- The times of a channel that goes ON. -/
def State.noteOn (c : Nat) (s : State) : State :=
  { s with saf := { s.saf with onAt := tput s.saf.onAt c s.now, openAt := tdel s.saf.openAt c, pulled := putBits s.saf.pulled c 1 0 } }

theorem noteOn_run (c : Nat) (s : State) : SafRun true [] s (s.noteOn c) := safRun_withSaf s ⟨rfl, (nomatch ·), .refl _⟩

def State.energised (c : Nat) (s : State) : State := State.fbClear c ((s.setCh c safON).noteOn c)

theorem energise_accepted {s : State} {c : Nat} (h : s.energiseCode c = 0) (hoff : s.chState c ≠ safON) : s.energise c = (0, s.energised c) := by
  unfold State.energise
  rw [if_neg (by simp [h, hoff])]
  rfl

/-- SAF_CH.STATE of the four channels. -/
def stateFlds : List Fld := (List.range 4).map SAF_CH.STATE

theorem mem_stateFlds {c : Nat} (hc : c < 4) : ∀ f ∈ [SAF_CH.STATE c], f ∈ stateFlds := by
  simpa [stateFlds] using ⟨c, hc, rfl⟩

theorem energised_run (c : Nat) (s : State) : SafRun true [SAF_CH.STATE c] s (s.energised c) :=
  ((safRun_set s (f := SAF_CH.STATE c) safON (state_top c) (windowOf_ch c)).seq (noteOn_run c _)).seq (fbClear_run c _)

theorem energised_shows (c : Nat) (s : State) : (s.energised c).chState c = safON ∧ tget (s.energised c).saf.onAt c = some s.now := by
  have hclear := fbClear_run (o := false) c ((s.setCh c safON).noteOn c)
  have hset : (s.setCh c safON).get (SAF_CH.STATE c) = safON := get_set_self s (SAF_CH.STATE c) safON (state_top c)
  have hnow : (s.setCh c safON).now = s.now := (safRun_set (o := true) s (f := SAF_CH.STATE c) safON (state_top c) (windowOf_ch c)).now
  constructor
  · rw [State.chState, State.energised, get_of_only_nil hclear.only, get_of_only_nil (noteOn_run c _).only, hset]
  · rw [State.energised, hclear.kept.shut rfl]
    simp only [State.noteOn, tget_tput_self, hnow]

/-- The channels that `arg` names are released. -/
def State.releaseNamed (arg : Nat) (s : State) : State := (List.range 4).foldl (fun s c => if bitAt arg c then s.releaseCh c else s) s

theorem mbxRelease_named {s : State} {arg : Nat} (h0 : 0 < arg) (h16 : arg < 16) : s.mbxRelease arg = (0, s.releaseNamed arg) :=
  if_neg (by simp; omega)

theorem releaseNamed_run (arg : Nat) (s : State) : SafRun true stateFlds s (s.releaseNamed arg) := by
  refine .foldl (fun u c hc => ?_) s
  split
  · exact (releaseCh_run u c).mono (mem_stateFlds (List.mem_range.1 hc))
  · exact .refl ..

theorem chState_releaseNamed {s : State} {arg c : Nat} (hc : c < 4) (hon : s.chState c = safON) :
    (s.releaseNamed arg).chState c = if bitAt arg c then safOFF else safON := by
  have hother (x : Nat) (u : State) (d : Nat) (hd : d < 4) (hne : d ≠ c) (hu : u.chState c = x) : (if bitAt arg d then u.releaseCh d else u).chState c = x := by
    split
    · exact (chState_releaseCh_other u hc hd hne).trans hu
    · exact hu
  refine foldl_range_once (Q := fun u => u.chState c = safON) (R := fun u => u.chState c = if bitAt arg c then safOFF else safON)
    (hother _) (fun u hu => ?_) (hother _) hc hon
  split
  · exact chState_releaseCh u hu
  · exact hu

/-! #### ACK (R258, R265) -/

theorem bitAt_two_pow (c d : Nat) : bitAt (2 ^ c) d = decide (c = d) := by rw [bitAt_eq_testBit, Nat.testBit_two_pow]

theorem mbxAck_channel {s : State} {c : Nat} (hc : c < 4) (hst : s.chState c = safTRIPPED) (harm : s.getB (SAF_CH.ARMABLE c) = true) :
    s.mbxAck (2 ^ c) = (0, s.armCh c) := by
  have hnamed : (List.range 4).filter (fun d => bitAt (2 ^ c) d && decide (s.chState d = safTRIPPED)) = [c] := by
    simp only [bitAt_two_pow]
    interval_cases c <;> simp [List.range_succ, hst]
  have hbits : 2 ^ c / 32 = 0 ∧ bitAt (2 ^ c) 4 = false := by interval_cases c <;> decide
  unfold State.mbxAck
  simp [hbits.1, hbits.2, hnamed, hst, harm, lowestCode]

theorem ackFaults_all {s : State} (h : s.saf.faults.all (fun x => !x.2) = true) :
    s.ackFaults = if s.saf.degFrom.isSome then { s with saf := { s.saf with faults := [], degFrom := none } }.raise 119
      else { s with saf := { s.saf with faults := [] } } := by
  have hnone : s.saf.faults.filter (·.2) = [] := List.filter_eq_nil_iff.2 fun x hx => by simpa using List.all_eq_true.1 h x hx
  simp [State.ackFaults, hnone]

theorem mbxAck_faults {s : State} (hne : s.saf.faults ≠ []) (h : s.saf.faults.all (fun x => !x.2) = true) : s.mbxAck 16 = (0, s.ackFaults.safEval) := by
  have hnamed : (List.range 4).filter (fun d => bitAt 16 d && decide (s.chState d = safTRIPPED)) = [] := by
    simp [List.range_succ, bitAt]
  have hstay : s.saf.faults.any (·.2) = false := by
    rw [List.any_eq_false]
    exact fun x hx => by simpa using List.all_eq_true.1 h x hx
  have hbit : bitAt 16 4 = true := by decide
  unfold State.mbxAck
  simp [hnamed, hstay, hbit, hne, lowestCode]

/-! #### The commands of the mailbox -/

section Commands
variable {s : State} {seq arg : Nat}

theorem execMbxEnergise_serves {c : Nat} (h : s.saf.req = some (seq, c, 1)) :
    exec .mbxEnergise s = .next ((s.energise c).2.mbxAnswer seq (s.energise c).1).safEval :=
  congrArg Host.Outcome.next (mbxServe_of h (by decide))

theorem execMbxRelease_serves (h : s.saf.req = some (seq, arg, 2)) :
    exec .mbxRelease s = .next ((s.mbxRelease arg).2.mbxAnswer seq (s.mbxRelease arg).1).safEval :=
  congrArg Host.Outcome.next (mbxServe_of h (by decide))

theorem execMbxAck_serves (h : s.saf.req = some (seq, arg, 3)) :
    exec .mbxAck s = .next ((s.mbxAck arg).2.mbxAnswer seq (s.mbxAck arg).1).safEval :=
  congrArg Host.Outcome.next (mbxServe_of h (by decide))

theorem execMbxReset_serves (h : s.saf.req = some (seq, arg, 4)) :
    exec .mbxReset s = .next ((s.mbxReset arg).2.mbxAnswer seq (s.mbxReset arg).1).safEval :=
  congrArg Host.Outcome.next (mbxServe_of h (by decide))

theorem execMbxUnknownOp_serves {op : Nat} (h : s.saf.req = some (seq, arg, op)) (hop : op = 0 ∨ 4 < op) :
    exec .mbxUnknownOp s = .next (s.mbxAnswer seq 5).safEval :=
  congrArg Host.Outcome.next (mbxServe_of h (by simpa using hop))

/-- What an answer on the way of `u` may have changed. -/
theorem Served.onlyBut {code : Nat} {u t : State} {ps qs : List Comp} {fs gs : List Fld} (h : Served seq code s u t) (hu : s.only ps fs u)
    (hp : ∀ p ∈ ps ++ [.saf, .rcd, .cyc], p ∈ qs) (hf : (fs ++ (answerFlds ++ evalFlds)).all (fun f => f.inSaf || gs.contains f) = true) :
    s.onlyBut qs gs 0xC7000000 0x1000000 t :=
  safOnlyBut (only_seq hu h.only) hp hf

theorem ackFaults_run (h : s.saf.faults.all (fun x => !x.2) = true) :
    s.only [.saf, .rcd, .cyc] (raiseFlds 119) s.ackFaults ∧ EvtRun s s.ackFaults ∧ s.ackFaults.saf.faults = [] ∧ s.ackFaults.saf.degFrom = none ∧
      (s.saf.degFrom.isSome = true → s.raised 119 s.ackFaults) := by
  have hevt (x : SafState) : EvtRun s { s with saf := x } := evtRun_of_only (only_withSaf s x) (by simp) (by simp)
  rw [ackFaults_all h]
  split
  · exact ⟨only_seq (only_withSaf s _) (only_raise _ 119), (hevt _).trans (evtRun_raise _ (by decide)), by simp, by simp,
      fun _ => (hevt _).raised_raise (by decide)⟩
  · rename_i hd
    exact ⟨only_mono (only_withSaf s _) (by simp) (by simp), hevt _, rfl, by simpa using hd, fun h => absurd h hd⟩

/-- Settles O37: what the request's operation makes of the state, and behind it the answer and the bookkeeping (`Served`), which arms none
but tripped channels. -/
theorem mailboxRequestsAreServedAndAnswered : Obligations.MailboxRequestsAreServedAndAnswered := by
  refine ⟨fun seq c s hreq hc hoff hcode => ?_, fun seq c s hreq hcode => ?_, fun seq arg s hreq h0 h16 => ?_, fun seq c s hreq hc hst harm => ?_,
    fun seq s hreq hne hall => ?_, fun seq arg s hreq => ?_, fun seq arg op s hreq hop => ?_⟩
  · have hrun := energised_run c s
    obtain ⟨hon, honAt⟩ := energised_shows c s
    have hserved := served_answer hrun.evt seq 0
    refine ⟨_, execMbxEnergise_serves hreq, ?_⟩
    rw [energise_accepted hcode (by rw [hoff]; decide)]
    refine ⟨(hserved.held c hc (by rw [hon]; decide)).1.trans hon, ?_, hserved.req, hserved.seqShown, hserved.reason, hserved.pend, hserved.raised,
      hserved.onlyBut (hrun.mono (mem_stateFlds hc)).only (by simp) (by decide)⟩
    rw [hserved.kept.shut rfl]
    exact honAt
  · have hserved := served_answer (.refl s) seq (s.energiseCode c)
    have hle := energiseCode_le s c
    refine ⟨_, execMbxEnergise_serves hreq, ?_⟩
    rw [energise_refused hcode]
    refine ⟨hserved.req, hserved.seqShown, hserved.reason.trans (by omega), hserved.pend, hserved.raised, ?_,
      hserved.onlyBut (only_refl s [] []) (by simp) (by decide)⟩
    rw [hserved.kept.shut rfl]
  · have hrun := releaseNamed_run arg s
    have hserved := served_answer hrun.evt seq 0
    refine ⟨_, execMbxRelease_serves hreq, ?_⟩
    rw [mbxRelease_named h0 h16]
    have hstate (c : Nat) (hc : c < 4) (hon : s.chState c = safON) :
        ((s.releaseNamed arg).mbxAnswer seq 0).safEval.chState c = if bitAt arg c then safOFF else safON := by
      have hrel := chState_releaseNamed (arg := arg) hc hon
      exact (hserved.held c hc (by rw [hrel]; split <;> decide)).1.trans hrel
    exact ⟨fun c hc hb hon => by rw [hstate c hc hon, if_pos hb], fun c hc hb hon => by rw [hstate c hc hon, if_neg (by simp [hb])], hserved.req,
      hserved.seqShown, hserved.reason, hserved.pend, hserved.raised, hserved.onlyBut hrun.only (by simp) (by decide)⟩
  · have hrun := armCh_run (o := true) c s
    obtain ⟨hoff, hflag, hraised⟩ := armCh_shows c s
    have hserved := served_answer hrun.evt seq 0
    refine ⟨_, execMbxAck_serves hreq, ?_⟩
    rw [mbxAck_channel hc hst harm]
    obtain ⟨hst', hflag'⟩ := hserved.held c hc (by rw [hoff]; decide)
    have honly : s.only [.saf, .rcd, .cyc] ((List.range 4).flatMap armFlds ++ raiseFlds 122) (s.armCh c) := by
      refine (hrun.mono fun f hf => ?_).only
      simp only [List.mem_append, List.mem_flatMap, List.mem_range] at hf ⊢
      exact hf.imp_left fun hf => ⟨c, hc, hf⟩
    exact ⟨hst'.trans hoff, hflag' hflag, hserved.evt.raised_first hrun.evt (by decide) hraised, hserved.req, hserved.seqShown, hserved.reason,
      hserved.pend, hserved.raised, hserved.onlyBut honly (by simp) (by decide)⟩
  · obtain ⟨honly, hevt, hnone, hdeg, hraised⟩ := ackFaults_run hall
    have hrun := safEval_run (o := false) s.ackFaults
    have hserved := served_answer (hevt.trans hrun.evt) seq 0
    refine ⟨_, execMbxAck_serves hreq, ?_⟩
    rw [mbxAck_faults hne hall]
    have hdeg' : s.ackFaults.safEval.saf.degFrom = none := hrun.kept.degFrom.trans hdeg
    have hnames := hrun.kept.eased.names
    refine ⟨?_, hserved.kept.degFrom.trans hdeg', fun hd => ?_, hserved.degraded.trans (by simp [hdeg']), hserved.reason, hserved.pend, hserved.raised,
      hserved.onlyBut (only_seq honly hrun.only) (by simp) (by decide)⟩
    · have hnames' := hserved.kept.eased.names
      rw [hnames, hnone] at hnames'
      exact List.map_eq_nil_iff.1 hnames'
    · exact (hrun.evt.trans hserved.evt).raised_first hevt (by decide) (hraised hd)
  · refine ⟨_, execMbxReset_serves hreq, ?_⟩
    by_cases harg : arg = 0xA5
    · have honly : s.only [.sys] [] { s with sys := { s.sys with safeReq := true } } := only_withSys s _
      have hserved := served_answer (evtRun_of_only honly (by simp) (by simp)) seq 0
      rw [show s.mbxReset arg = (0, { s with sys := { s.sys with safeReq := true } }) from if_pos harg, if_pos harg, if_pos harg]
      exact ⟨hserved.reason, hserved.only.1 .sys (by simp), hserved.req, hserved.seqShown, hserved.pend, hserved.raised,
        hserved.onlyBut honly (by simp) (by decide)⟩
    · have hserved := served_answer (.refl s) seq 5
      rw [show s.mbxReset arg = (5, s) from if_neg harg, if_neg harg, if_neg harg]
      exact ⟨hserved.reason, hserved.only.1 .sys (by simp), hserved.req, hserved.seqShown, hserved.pend, hserved.raised,
        hserved.onlyBut (only_refl s [] []) (by simp) (by decide)⟩
  · have hserved := served_answer (.refl s) seq 5
    exact ⟨_, execMbxUnknownOp_serves hreq hop, hserved.reason, hserved.req, hserved.seqShown, hserved.pend, hserved.raised,
      hserved.onlyBut (only_refl s [] []) (by simp) (by decide)⟩

end Commands

/-! ### Inputs and the trip path (R251, R252, R255, R256) -/

/-- A pair out of RUN keeps its channels from being armable (R258). -/
theorem armable_of_pair {s : State} {p c : Nat} (hp : p < 8) (hm : bitAt (s.safMask p) c = true) (h : (s.pairRun p && bitAt s.saf.rearmed p) = false) :
    s.armable c = false := by
  have hpairs : ((List.range 8).all fun q => !bitAt (s.safMask q) c || (s.pairRun q && bitAt s.saf.rearmed q)) = false := by
    rw [List.all_eq_false]
    exact ⟨p, List.mem_range.2 hp, by simp [hm, h]⟩
  simp [State.armable, hpairs]

/-- The pins after a change of reading (Table 12-1): on SINnA, between the thresholds, the reading holds. -/
def pinsAfter (p : Nat) (memberB : Bool) (r : Nat) (f : SafPins) : SafPins :=
  if memberB then { f with sinB := tput f.sinB p r } else if r = 1 then f else { f with sinA := putBits f.sinA p 1 (r / 2) }

def State.notePin (p : Nat) (memberB : Bool) (r : Nat) (s : State) : State := { s with saf := { s.saf with pins := pinsAfter p memberB r s.saf.pins } }

theorem execSinPinChange_eq (pair : Fin 8) (memberB : Bool) (reading : Fin 3) (stamp : Nat) (s : State) : exec (.sinPinChange pair memberB reading stamp) s =
    .next (if s.safReady && !s.masked memberB then ((s.notePin pair.val memberB reading.val).takeMember pair.val memberB stamp).safEval
      else s.notePin pair.val memberB reading.val) := rfl

/-- A pin that changes under a mask or before READY is remembered alone. -/
theorem notePin_shows (p : Nat) (memberB : Bool) (r : Fin 3) (s : State) : let t := s.notePin p memberB r.val
    t.saf = { s.saf with pins := t.saf.pins } ∧ t.saf.pins.sfb = s.saf.pins.sfb ∧ (memberB = true → tgetD t.saf.pins.sinB p 0 = r.val) ∧
    (memberB = false → r.val ≠ 1 → bitAt t.saf.pins.sinA p = decide (r.val = 2)) ∧ s.only [.saf] [] t := by
  refine ⟨rfl, ?_, fun h => ?_, fun h hr => ?_, only_withSaf s _⟩
  · simp only [State.notePin, pinsAfter]
    split
    · rfl
    · split <;> rfl
  · subst h
    simp [State.notePin, pinsAfter, tgetD]
  · have hread : ∀ r : Fin 3, r.val ≠ 1 → (r.val / 2).testBit 0 = decide (r.val = 2) := by decide
    subst h
    simp only [State.notePin, pinsAfter, if_neg hr, Bool.false_eq_true, if_false, bitAt_putBits_self, hread r hr]

/-- What a pair that leaves RUN for TRANSIT leaves of its times (R253, R258). -/
def State.leaveRun (p : Nat) (s : State) : State :=
  { s with saf := { s.saf with transSince := tput s.saf.transSince p s.now, runSince := tdel s.saf.runSince p, rearmed := putBits s.saf.rearmed p 1 0 } }

/-- The trip path of a pair: capture channel 5 and the channels of its mask (R147, R256). -/
def State.tripPath (p stamp : Nat) (s : State) : State := if s.safMask p ≠ 0 then (s.captureEdge 5 true stamp).safTrip (s.safMask p) 2 p stamp else s

theorem pairMoved_leaves {s : State} {p st0 stamp : Nat} (hst : s.pairState p = 2) (hst0 : st0 ≠ 2) :
    s.pairMoved p true st0 stamp = (s.leaveRun p).tripPath p stamp := by
  have hrun : s.pairRun p = false := by simp [State.pairRun, hst]
  unfold State.pairMoved
  simp only [hst, hrun, hst0.symm, Bool.false_and, Bool.not_false, Bool.true_and, Bool.and_true, Bool.false_eq_true, if_true, if_false, decide_eq_true_eq,
    (by decide : ¬ (2 : Nat) = 0)]
  rfl

/-- The last rising edges of a channel, with one more. -/
def risesAfter (l : List Nat) (stamp : Nat) : List Nat := (if l.length < 8 then l else l.tail) ++ [stamp]

/-- An edge on a channel whose EDGE does not select it is only kept among the rising edges. -/
def State.noteRise (c stamp : Nat) (s : State) : State :=
  { s with tms := { s.tms with rises := tput s.tms.rises c (risesAfter (tgetD s.tms.rises c []) stamp) } }

theorem captureEdge_unselected {s : State} {c : Nat} (stamp : Nat) (h : bitAt (s.get (TMS_CAP_CFG.EDGE c)) 0 = false) :
    s.captureEdge c true stamp = s.noteRise c stamp := by
  have hsel : (!bitAt ((s.noteRise c stamp).get (TMS_CAP_CFG.EDGE c)) 0) = true := congrArg not h
  exact if_pos hsel

/-- Parts that the trip path of a pair can touch. -/
structure PathRun (s t : State) : Prop where
  only : s.only [.tms, .saf, .rcd, .cyc] tripFlds t
  evt : EvtRun s t
  kept : SafKept true s.saf t.saf

/-- A rising edge on channel 5 that is not selected, and a trip. -/
theorem edgeTrip_run {s : State} {stamp : Nat} (h : bitAt (s.get (TMS_CAP_CFG.EDGE 5)) 0 = false) (mask p : Nat) :
    PathRun s ((s.captureEdge 5 true stamp).safTrip mask 2 p stamp) := by
  rw [captureEdge_unselected stamp h]
  have hrise : s.only [.tms] [] (s.noteRise 5 stamp) := only_withTms s _
  have htrip := safTrip_run (s.noteRise 5 stamp) mask 2 p stamp
  exact ⟨only_mono (only_seq hrise htrip.only) (by simp) (by simp), (evtRun_of_only hrise (by simp) (by simp)).trans htrip.evt, htrip.kept⟩

theorem tripPath_run {s : State} {p stamp : Nat} (h : bitAt (s.get (TMS_CAP_CFG.EDGE 5)) 0 = false) : PathRun s (s.tripPath p stamp) := by
  unfold State.tripPath
  split
  · exact edgeTrip_run h _ p
  · exact ⟨only_refl .., .refl _, .refl ..⟩

/-- The trip path of a pair that leaves RUN (R256, R257). -/
theorem tripPath_trips {s : State} {p stamp c : Nat} (h : bitAt (s.get (TMS_CAP_CFG.EDGE 5)) 0 = false) (hc : c < 4) (hm : bitAt (s.safMask p) c = true) :
    (s.tripPath p stamp).chState c = safTRIPPED ∧ (s.chState c ≠ safTRIPPED → TripShown 2 p c (s.tripPath p stamp) ∧
      (s.tripPath p stamp).get64 SAF_TRIP_LTC_LO SAF_TRIP_LTC_HI = stamp % 2 ^ 64 ∧ s.raised 113 (s.tripPath p stamp)) := by
  have hmask : s.safMask p ≠ 0 := fun h0 => by simp [h0, bitAt] at hm
  have hrise : s.only [.tms] [] (s.noteRise 5 stamp) := only_withTms s _
  have heq : s.tripPath p stamp = (s.noteRise 5 stamp).safTrip (s.safMask p) 2 p stamp := by
    rw [State.tripPath, if_pos hmask, captureEdge_unselected stamp h]
  rw [heq]
  refine ⟨chState_safTrip _ hc hm, fun hst => ?_⟩
  obtain ⟨hshown, hstamp, hraised⟩ := safTrip_trips (cause := 2) (pair := p) (stamp := stamp) (s.noteRise 5 stamp) hc hm hst
  exact ⟨hshown, hstamp, raised_of_only hrise (by simp) (by simp) hraised⟩

/-- The trip path takes the reading OPEN of SINnA. -/
def State.openA (p : Nat) (s : State) : State := { s with saf := { s.saf with effA := putBits s.saf.effA p 1 0 } }

theorem takeMember_open {s : State} {p stamp : Nat} (hopen : bitAt s.saf.pins.sinA p = false) (hrun : s.pairRun p = true) :
    s.takeMember p false stamp = ((s.openA p).leaveRun p).tripPath p stamp ∧ (s.openA p).pairState p = 2 := by
  have hst : s.pairState p = 1 := by simp [State.pairRun] at hrun; exact hrun.1
  have htransit : (s.openA p).pairState p = 2 := by
    have hbit : bitAt (s.openA p).saf.effA p = false := by simp [State.openA, bitAt_putBits_self]
    have hb : tgetD (s.openA p).saf.effB p 0 = 1 := by
      unfold State.pairState at hst
      split at hst
      · assumption
      · exact absurd hst (by decide)
      · exact absurd hst (by decide)
    simp only [State.pairState, hbit, hb]
  refine ⟨?_, htransit⟩
  rw [← pairMoved_leaves htransit (st0 := 1) (by decide)]
  simp only [State.takeMember, hrun, hst, hopen, b2n, Bool.false_eq_true, if_false]
  rfl

/-- SAF_CH's CAUSE and PAIR and the stamp of the last trip pass the bookkeeping. -/
theorem safEval_keepsTrip (s : State) (c : Nat) : s.safEval.get (SAF_CH.CAUSE c) = s.get (SAF_CH.CAUSE c) ∧ s.safEval.get (SAF_CH.PAIR c) = s.get (SAF_CH.PAIR c) ∧
    s.safEval.get64 SAF_TRIP_LTC_LO SAF_TRIP_LTC_HI = s.get64 SAF_TRIP_LTC_LO SAF_TRIP_LTC_HI := by
  have hrun := (safEval_run (o := true) s).only
  have hall : ∀ d : Fin 4, evalFlds.all (SAF_CH.CAUSE d).isApart = true ∧ evalFlds.all (SAF_CH.PAIR d).isApart = true := by decide
  have hmod (i : Nat) : SAF_CH i = SAF_CH (i % 4) := by simp [SAF_CH]
  obtain ⟨hcause, hpair⟩ := hall ⟨c % 4, Nat.mod_lt _ (by decide)⟩
  refine ⟨?_, ?_, get64_congr _ _ (reg_of_get (hrun.get (by decide))) (reg_of_get (hrun.get (by decide)))⟩
  · rw [SAF_CH.CAUSE, hmod]; exact hrun.get hcause
  · rw [SAF_CH.PAIR, hmod]; exact hrun.get hpair

/-- The bookkeeping behind an operation that ran the trip path of pair `p`, which is out of RUN. -/
theorem chState_safEval_blocked {s : State} {p c : Nat} (hp : p < 8) (hc : c < 4) (hm : bitAt (s.safMask p) c = true) (hrun : s.pairRun p = false) :
    s.safEval.chState c = s.chState c := chState_safEval hc (armable_of_pair hp hm (by simp [hrun]))

/-- An OPEN reading of SINnA on a pair in RUN with no mask open (R252, R256, R257). -/
theorem openReading_trips {s : State} {p stamp : Nat} (hp : p < 8) (hrun : s.pairRun p = true) (hedge : bitAt (s.get (TMS_CAP_CFG.EDGE 5)) 0 = false) :
    let t := ((s.notePin p false 0).takeMember p false stamp).safEval
    t.pairState p = 2 ∧ t.pairRun p = false ∧ bitAt t.saf.rearmed p = false ∧ tget t.saf.transSince p = some s.now ∧
    (∀ c, c < 4 → bitAt (s.safMask p) c = true → t.chState c = safTRIPPED) ∧
    (∀ c, c < 4 → bitAt (s.safMask p) c = true → s.chState c ≠ safTRIPPED → t.get (SAF_CH.CAUSE c) = 2 ∧ t.get (SAF_CH.PAIR c) = p ∧
      t.get64 SAF_TRIP_LTC_LO SAF_TRIP_LTC_HI = stamp % 2 ^ 64 ∧ s.raised 113 t) ∧
    s.onlyBut [.tms, .saf, .rcd, .cyc] (raiseFlds 113 ++ raiseFlds 121 ++ raiseFlds 122) 0xC7000000 0x1000000 t := by
  have hopen : bitAt (s.notePin p false 0).saf.pins.sinA p = false := by simp [State.notePin, pinsAfter, bitAt_putBits_self]
  obtain ⟨heq, htransit⟩ := takeMember_open (stamp := stamp) hopen (s := s.notePin p false 0) hrun
  have hu : s.only [.saf] [] (((s.notePin p false 0).openA p).leaveRun p) := only_trans (only_trans (only_withSaf s _) (only_withSaf _ _)) (only_withSaf _ _)
  have hevt : EvtRun s (((s.notePin p false 0).openA p).leaveRun p) := evtRun_of_only hu (by simp) (by simp)
  have hst : (((s.notePin p false 0).openA p).leaveRun p).pairState p = 2 := htransit
  have hclear : bitAt (((s.notePin p false 0).openA p).leaveRun p).saf.rearmed p = false := by simp [State.leaveRun, bitAt_putBits_self]
  have hsince : tget (((s.notePin p false 0).openA p).leaveRun p).saf.transSince p = some s.now := by
    simp only [State.leaveRun, tget_tput_self]
    exact congrArg some (now_of_ltc rfl)
  have hedge' : bitAt ((((s.notePin p false 0).openA p).leaveRun p).get (TMS_CAP_CFG.EDGE 5)) 0 = false := hedge
  have hmask : (((s.notePin p false 0).openA p).leaveRun p).safMask p = s.safMask p := rfl
  have hch (c : Nat) : (((s.notePin p false 0).openA p).leaveRun p).chState c = s.chState c := rfl
  rw [heq]
  generalize ((s.notePin p false 0).openA p).leaveRun p = u at hu hevt hst hclear hsince hedge' hmask hch
  have hpath := tripPath_run (p := p) (stamp := stamp) hedge'
  have heval := safEval_run (o := true) (u.tripPath p stamp)
  have hkept := hpath.kept.trans heval.kept
  have hst' : (u.tripPath p stamp).safEval.pairState p = 2 := (pairState_kept hkept p).trans hst
  have himg : (u.tripPath p stamp).safMask p = s.safMask p := (safMask_congr (hpath.only.1 .img (by simp)) p).trans hmask
  have hrun' : (u.tripPath p stamp).pairRun p = false := by simp [State.pairRun, pairState_kept hpath.kept, hst]
  have hblocked (c : Nat) (hc : c < 4) (hm : bitAt (s.safMask p) c = true) :
      (u.tripPath p stamp).safEval.chState c = (u.tripPath p stamp).chState c := chState_safEval_blocked hp hc (himg ▸ hm) hrun'
  refine ⟨hst', by simp [State.pairRun, hst'], by rw [hkept.rearmed, hclear], ?_, fun c hc hm => ?_, fun c hc hm hne => ?_, ?_⟩
  · rw [show (u.tripPath p stamp).safEval.saf.transSince = u.saf.transSince from (congrArg SafState.transSince hkept.rest).trans rfl, hsince]
  · exact (hblocked c hc hm).trans (tripPath_trips hedge' hc (hmask ▸ hm)).1
  · obtain ⟨hshown, hstamp, hraised⟩ := (tripPath_trips (stamp := stamp) hedge' hc (hmask ▸ hm)).2 ((hch c).symm ▸ hne)
    obtain ⟨hcause, hpair, hltc⟩ := safEval_keepsTrip (u.tripPath p stamp) c
    refine ⟨hcause.trans hshown.showsCause, (hpair.trans (hshown.showsPair rfl)).trans (Nat.mod_eq_of_lt hp), hltc.trans hstamp, ?_⟩
    exact heval.evt.raised_first (hevt.trans hpath.evt) (by decide) (hevt.raised_second hpath.evt (by decide) hraised)
  · exact safOnlyBut (only_seq (only_seq hu hpath.only) heval.only) (by simp) (by decide)

/-! ### Test pulses (R254, R255) -/

/-- A pulse that is due masks the members its STP feeds and notes those to test. -/
theorem stpPulse_masks {s : State} {stp : Fin 2} (hready : s.safReady = true) (hdue : s.pulseDue stp.val = true) :
    ∃ t, exec (.stpPulse stp) s = .next t ∧ t.masked (decide (stp.val = 1)) = true ∧ tget t.saf.maskAt stp.val = some s.now ∧
    (∀ p, p < 8 → bitAt (tgetD t.saf.tested stp.val 0) p = s.pulseTests stp.val p) ∧ tget t.saf.stpAt stp.val = some s.now ∧ s.only [.saf] [] t := by
  have hnumber : ∀ i : Fin 2, b2n (decide (i.val = 1)) = i.val := by decide
  have hstp : b2n (decide (stp.val = 1)) = stp.val := hnumber stp
  have hexec : exec (.stpPulse stp) s = .next { s with saf := { s.saf with
      maskAt := tput s.saf.maskAt stp.val s.now, tested := tput s.saf.tested stp.val (maskOf (List.range 8) fun p => s.pulseTests stp.val p),
      stpAt := tput s.saf.stpAt stp.val s.now } } := if_neg (by simp [hready, hdue])
  refine ⟨_, hexec, ?_, tget_tput_self .., fun p hp => ?_, tget_tput_self .., only_withSaf s _⟩
  · simp [State.masked, hstp]
  · rw [tgetD, tget_tput_self, Option.getD_some, bitAt_maskOf_range hp]

/-! ### Re-arming (R258, R259) -/

/-- A re-arm time has completed. -/
def State.noteRearmed (w : Nat) (s : State) : State := { s with saf := { s.saf with rearmed := putBits s.saf.rearmed w 1 1 } }

theorem execRearmComplete_passed {who : Fin 9} {t0 : Nat} {s : State} (hsince : (if who.val = 8 then s.saf.partnerRun else tget s.saf.runSince who.val) = some t0)
    (hpast : s.safElapsed t0 (s.imgFld (if who.val = 8 then SAF_DEG_CFG.P_REARM else SAF_PCFG.T_REARM who.val) * 10000000) = true) :
    exec (.rearmComplete who) s = .next (s.noteRearmed who.val).safEval := by
  change execRearmComplete who s = _
  simp only [execRearmComplete, hsince, hpast, if_true]
  rfl

/-- The bookkeeping after a change behind SAF's registers. -/
theorem safEval_after {s u : State} (h : s.only [.saf] [] u) : EvtRun s u ∧ EvtRun u u.safEval ∧ SafKept false u.saf u.safEval.saf ∧
    s.onlyBut [.saf, .rcd, .cyc] (raiseFlds 121 ++ raiseFlds 122) 0xC7000000 0x1000000 u.safEval := by
  have heval := safEval_run (o := false) u
  exact ⟨evtRun_of_only h (by simp) (by simp), heval.evt, heval.kept, safOnlyBut (only_seq h heval.only) (by simp) (by decide)⟩

theorem rearmComplete_arms {s : State} {w : Nat} : let t := (s.noteRearmed w).safEval
    t.saf.rearmed = putBits s.saf.rearmed w 1 1 ∧
    (∀ c, c < 4 → (s.noteRearmed w).armable c = true → s.imgFld (SAF_CCFG.START_ACK c) = 1 →
      t.getB (SAF_CH.ARMABLE c) = true ∧ t.chState c = safTRIPPED ∧ (s.getB (SAF_CH.ARMABLE c) = false → s.raised 121 t)) ∧
    (∀ c, c < 4 → (s.noteRearmed w).armable c = true → s.imgFld (SAF_CCFG.START_ACK c) = 0 → bitAt s.saf.armedOnce c = false →
      t.chState c = safOFF ∧ s.raised 122 t) ∧
    s.onlyBut [.saf, .rcd, .cyc] (raiseFlds 121 ++ raiseFlds 122) 0xC7000000 0x1000000 t := by
  obtain ⟨hevt, heval, hkept, honly⟩ := safEval_after (u := s.noteRearmed w) (only_withSaf s _)
  have hself (c : Nat) : (s.noteRearmed w).armsItself c = (decide (s.imgFld (SAF_CCFG.START_ACK c) = 0) && !bitAt s.saf.armedOnce c) := rfl
  refine ⟨hkept.rearmed, fun c hc harm hack => ?_, fun c hc harm hack honce => ?_, honly⟩
  · obtain ⟨hst, hflag, hraised⟩ := safEval_armable hc harm ((hself c).trans (by simp [hack]))
    exact ⟨hflag, hst, fun h => hevt.raised_second heval (by decide) (hraised h)⟩
  · obtain ⟨hst, hraised⟩ := safEval_armsItself hc harm ((hself c).trans (by simp [hack, honce]))
    exact ⟨hst, hevt.raised_second heval (by decide) hraised⟩

/-! ### Mirrors (R263) -/

/-- What a mirror contact that closes or opens leaves behind the registers. -/
def sfbAfter (c : Nat) (closed on : Bool) (now : Nat) (f : SafState) : SafState :=
  let f := { f with pins := { f.pins with sfb := putBits f.pins.sfb c 1 (b2n closed) } }
  if closed then { f with openAt := tdel f.openAt c, closedAt := if on && bitAt f.pulled c then tput f.closedAt c now else f.closedAt }
  else { f with closedAt := tdel f.closedAt c, pulled := if on then putBits f.pulled c 1 1 else f.pulled }

def State.noteSfb (c : Nat) (closed : Bool) (s : State) : State := { s with saf := sfbAfter c closed (decide (s.chState c = safON)) s.now s.saf }

theorem execSfbChange_used {c : Fin 4} {closed : Bool} {s : State} (hready : s.safReady = true) (huse : s.safFbUse c.val = true) :
    exec (.sfbChange c closed) s = .next ((s.noteSfb c.val closed).fbClear c.val).safEval := by
  change execSfbChange c closed s = _
  unfold execSfbChange
  refine (if_neg ?_).trans ?_
  · change ¬ (!s.safReady || !s.safFbUse c.val) = true
    simp [hready, huse]
  · cases closed <;> rfl

theorem sfbChange_shows {s : State} {c : Nat} {closed : Bool} (hc : c < 4) (hready : s.safReady = true) (huse : s.safFbUse c = true) :
    let t := ((s.noteSfb c closed).fbClear c).safEval
    t.getB (SAF_CH.FB c) = closed ∧ t.safFbClosed c = closed ∧ (closed = true → tget t.saf.openAt c = none) ∧
    (closed = false → s.chState c = safON → bitAt t.saf.pulled c = true) ∧
    s.onlyBut [.saf, .rcd, .cyc] (raiseFlds 121 ++ raiseFlds 122) 0xC7000000 0x1000000 t := by
  have hclear := fbClear_run (o := false) c (s.noteSfb c closed)
  have hnote : s.only [.saf] [] (s.noteSfb c closed) := only_withSaf s _
  have hfront : s.only [.saf] [] ((s.noteSfb c closed).fbClear c) := by
    refine only_trans hnote ?_
    rw [fbClear_eq]
    split
    · exact only_refl ..
    · exact only_withSaf _ _
  obtain ⟨-, -, hkept, honly⟩ := safEval_after hfront
  have hshut := (hclear.kept.trans hkept).shut rfl
  have hclosed : (s.noteSfb c closed).safFbClosed c = closed := by
    cases closed <;> simp [State.safFbClosed, State.noteSfb, sfbAfter, b2n, bitAt_putBits_self]
  have hclosed' : ((s.noteSfb c closed).fbClear c).safFbClosed c = closed := by rw [State.safFbClosed, hclear.kept.pins]; exact hclosed
  refine ⟨?_, ?_, fun h => ?_, fun h hon => ?_, honly⟩
  · rw [safEval_fb _ hc, hclosed', safReady_run hclear (by decide), safFbUse_congr hclear.img,
      show (s.noteSfb c closed).safReady = true from hready, show (s.noteSfb c closed).safFbUse c = true from huse]
    rfl
  · rw [State.safFbClosed, hkept.pins]
    exact hclosed'
  · subst h
    rw [show _ = (s.noteSfb c true).saf.openAt from (congrArg SafState.openAt hshut).trans rfl]
    simp [State.noteSfb, sfbAfter]
  · subst h
    rw [show _ = (s.noteSfb c false).saf.pulled from (congrArg SafState.pulled hshut).trans rfl]
    simp [State.noteSfb, sfbAfter, hon, bitAt_putBits_self]

/-! ### The partner (R467) -/

theorem faultPresent_safCleared_self (s : State) (f : SafFault) : (s.safCleared f).faultPresent f = false := by
  refine Bool.eq_false_iff.2 fun h => ?_
  rw [State.faultPresent, List.contains_iff_mem] at h
  obtain ⟨x, -, hx⟩ := List.mem_map.1 h
  split at hx
  · exact absurd (congrArg Prod.snd hx) (by simp)
  · rename_i hne
    exact hne (congrArg Prod.fst hx)

/-- A fault becomes present at the end of the list. -/
def State.listFault (f : SafFault) (s : State) : State :=
  { s with saf := { s.saf with faults := (s.saf.faults.filter fun (x : SafFault × Bool) => x.1 ≠ f) ++ [(f, true)] } }

theorem faultPresent_listFault_self (s : State) (f : SafFault) : (s.listFault f).faultPresent f = true := by
  simp [State.faultPresent, State.listFault]

/-- A partner field with this SSEQ is accepted. -/
def State.hearPartner (sseq : Nat) (s : State) : State :=
  { s with saf := { s.saf with partnerSeq := some sseq, partnerAt := some s.now } }.safCleared .partnerLost

/-- The partner reads STOP, or is lost: its re-arm time starts anew. -/
def State.partnerDown (s : State) : State := { s with saf := { s.saf with partnerRun := none, rearmed := putBits s.saf.rearmed 8 1 0 } }

/-- The partner reads RUN: its re-arm time runs. -/
def State.partnerUp (s : State) : State := { s with saf := { s.saf with partnerRun := some (s.saf.partnerRun.getD s.now) } }

/-- The channels with PTRIP. -/
def State.ptripMask (s : State) : Nat := maskOf (List.range 4) fun c => s.imgFld (SAF_CCFG.PTRIP c) = 1

/-- A trip of the partner finds a channel out of TRIPPED. -/
def State.ptripHits (s : State) : Bool := (List.range 4).any fun c => bitAt s.ptripMask c && s.chState c ≠ safTRIPPED

/-- The trip of the partner's STOP. -/
def State.partnerTrip (s : State) : State :=
  if s.ptripHits then (s.drawn.safTrip s.ptripMask 3 0 s.fineNow).raise 123 else s.drawn.safTrip s.ptripMask 3 0 s.fineNow

section Field
variable {s : State} {sstate sseq : BitVec 8} {pad : BitVec 16} {scrc : Word}

theorem execPartnerSafetyField_accepted (hready : s.safReady = true) (hnet : s.loaded 7 = true) (hcrc : s.safScrc sstate.toNat sseq.toNat pad.toNat = scrc.toNat)
    (hseq : s.saf.partnerSeq ≠ some sseq.toNat) : exec (.partnerSafetyField sstate sseq pad scrc) s =
      .next (if bitAt sstate.toNat 0 then (s.hearPartner sseq.toNat).partnerDown.partnerTrip.safEval else (s.hearPartner sseq.toNat).partnerUp.safEval) := by
  change execPartnerSafetyField sstate sseq pad scrc s = _
  unfold execPartnerSafetyField
  rw [if_neg (by simp [hready, hnet, hcrc, hseq])]
  cases bitAt sstate.toNat 0 <;> rfl

end Field

theorem only_hearPartner (s : State) (sseq : Nat) : s.only [.saf] [] (s.hearPartner sseq) := only_withSaf s _

section Trip
variable {s : State} {c : Nat}

theorem bitAt_ptripMask (hc : c < 4) : bitAt s.ptripMask c = decide (s.imgFld (SAF_CCFG.PTRIP c) = 1) := bitAt_maskOf_range hc _

def partnerTripFlds : List Fld := tripFlds ++ raiseFlds 123

theorem partnerTrip_run (s : State) : s.only [.free, .saf, .rcd, .cyc] partnerTripFlds s.partnerTrip ∧ EvtRun s s.partnerTrip ∧ SafKept true s.saf s.partnerTrip.saf := by
  have hdrawn : EvtRun s s.drawn := evtRun_of_only (only_drawn s) (by simp) (by simp)
  have htrip := safTrip_run s.drawn s.ptripMask 3 0 s.fineNow
  have hpart : ∀ {t : State}, SafRun true partnerTripFlds s.drawn t →
      s.only [.free, .saf, .rcd, .cyc] partnerTripFlds t ∧ EvtRun s t ∧ SafKept true s.saf t.saf := fun h =>
    ⟨only_mono (only_seq (only_drawn s) h.only) (by simp) (by simp), hdrawn.trans h.evt, h.kept⟩
  unfold State.partnerTrip
  split
  · exact hpart (htrip.seq (safRun_raise _ (by decide)))
  · exact hpart (htrip.mono fun _ hf => List.mem_append_left _ hf)

theorem get_partnerTrip_ch {g : Fld} (hg : g.addr = SAF_CH c) : s.partnerTrip.get g = (s.drawn.safTrip s.ptripMask 3 0 s.fineNow).get g := by
  unfold State.partnerTrip
  split
  · exact get_raise_apart _ _ _ (apart_raiseFlds (hg ▸ windowOf_ch c) 123)
  · rfl

theorem chState_partnerTrip (hc : c < 4) (hp : s.imgFld (SAF_CCFG.PTRIP c) = 1) : s.partnerTrip.chState c = safTRIPPED :=
  (get_partnerTrip_ch rfl).trans (chState_safTrip _ hc (by simp [bitAt_ptripMask hc, hp]))

theorem partnerTrip_trips (hc : c < 4) (hp : s.imgFld (SAF_CCFG.PTRIP c) = 1) (hst : s.chState c ≠ safTRIPPED) :
    s.partnerTrip.get (SAF_CH.CAUSE c) = 3 ∧ s.raised 113 s.partnerTrip ∧ s.raised 123 s.partnerTrip := by
  have hm : bitAt s.ptripMask c = true := by simp [bitAt_ptripMask hc, hp]
  have hhits : s.ptripHits = true := List.any_eq_true.2 ⟨c, List.mem_range.2 hc, by simp [hm, hst]⟩
  obtain ⟨hshown, -, hraised⟩ := safTrip_trips (cause := 3) (pair := 0) (stamp := s.fineNow) s.drawn hc hm hst
  have hdrawn : EvtRun s s.drawn := evtRun_of_only (only_drawn s) (by simp) (by simp)
  have htrip := (safTrip_run s.drawn s.ptripMask 3 0 s.fineNow).evt
  refine ⟨(get_partnerTrip_ch rfl).trans hshown.showsCause, ?_, ?_⟩ <;> rw [State.partnerTrip, if_pos hhits]
  · exact (evtRun_raise _ (by decide)).raised_first (hdrawn.trans htrip) (by decide) (hdrawn.raised_second htrip (by decide) hraised)
  · exact (hdrawn.trans htrip).raised_raise (by decide)

/-- While the partner's re-arm time does not run, a channel with PTRIP is not armable (R258). -/
theorem armable_of_partner (hp : s.imgFld (SAF_CCFG.PTRIP c) = 1) (hrun : s.saf.partnerRun = none) : s.armable c = false := by
  simp [State.armable, hp, hrun]

end Trip

theorem partnerStop_trips (s : State) (sseq : Nat) : let t := (s.hearPartner sseq).partnerDown.partnerTrip.safEval
    t.saf.partnerSeq = some sseq ∧ t.saf.partnerAt = some s.now ∧ t.saf.partnerRun = none ∧ t.getB SAF_STATUS.PARTNER = true ∧
    (∀ c, c < 4 → s.imgFld (SAF_CCFG.PTRIP c) = 1 → t.chState c = safTRIPPED) ∧
    (∀ c, c < 4 → s.imgFld (SAF_CCFG.PTRIP c) = 1 → s.chState c ≠ safTRIPPED → t.get (SAF_CH.CAUSE c) = 3 ∧ s.raised 113 t ∧ s.raised 123 t) ∧
    s.onlyBut [.free, .saf, .rcd, .cyc] (raiseFlds 113 ++ raiseFlds 121 ++ raiseFlds 122 ++ raiseFlds 123) 0xC7000000 0x1000000 t := by
  have hu : s.only [.saf] [] (s.hearPartner sseq).partnerDown := only_trans (only_hearPartner s sseq) (only_withSaf _ _)
  have hevt : EvtRun s (s.hearPartner sseq).partnerDown := evtRun_of_only hu (by simp) (by simp)
  have hseq : (s.hearPartner sseq).partnerDown.saf.partnerSeq = some sseq := rfl
  have hat : (s.hearPartner sseq).partnerDown.saf.partnerAt = some s.now := rfl
  have hdown : (s.hearPartner sseq).partnerDown.saf.partnerRun = none := rfl
  have himg : (s.hearPartner sseq).partnerDown.img = s.img := rfl
  have hch (c : Nat) : (s.hearPartner sseq).partnerDown.chState c = s.chState c := rfl
  generalize (s.hearPartner sseq).partnerDown = u at *
  obtain ⟨honly, hrun, hkept⟩ := partnerTrip_run u
  have heval := safEval_run (o := true) u.partnerTrip
  have hall := hkept.trans heval.kept
  have hptrip {c : Nat} (hp : s.imgFld (SAF_CCFG.PTRIP c) = 1) : u.imgFld (SAF_CCFG.PTRIP c) = 1 := (imgFld_congr himg _).trans hp
  refine ⟨?_, hall.partnerAt.trans hat, hall.partnerRun.trans hdown, ?_, fun c hc hp => ?_, fun c hc hp hst => ?_, ?_⟩
  · exact (congrArg SafState.partnerSeq hall.rest).trans hseq
  · rw [safEval_partner, hkept.partnerAt, hat]
    rfl
  · have hblocked : u.partnerTrip.armable c = false :=
      armable_of_partner ((imgFld_congr (honly.1 .img (by simp)) _).trans (hptrip hp)) (hkept.partnerRun.trans hdown)
    exact (chState_safEval hc hblocked).trans (chState_partnerTrip hc (hptrip hp))
  · obtain ⟨hcause, h113, h123⟩ := partnerTrip_trips hc (hptrip hp) (hch c ▸ hst)
    have hfirst {n : Nat} (hn : n < 384) (hr : u.raised n u.partnerTrip) : s.raised n u.partnerTrip.safEval :=
      heval.evt.raised_first (hevt.trans hrun) hn (hevt.raised_second hrun hn hr)
    exact ⟨(safEval_keepsTrip _ c).1.trans hcause, hfirst (by decide) h113, hfirst (by decide) h123⟩
  · exact safOnlyBut (only_seq (only_seq hu honly) heval.only) (by simp) (by decide)

theorem partnerRuns_shows (s : State) (sseq : Nat) : let t := (s.hearPartner sseq).partnerUp.safEval
    t.saf.partnerSeq = some sseq ∧ t.saf.partnerAt = some s.now ∧ t.saf.partnerRun = some (s.saf.partnerRun.getD s.now) ∧
    t.faultPresent .partnerLost = false ∧ s.onlyBut [.saf, .rcd, .cyc] (raiseFlds 121 ++ raiseFlds 122) 0xC7000000 0x1000000 t := by
  have hu : s.only [.saf] [] (s.hearPartner sseq).partnerUp := only_trans (only_hearPartner s sseq) (only_withSaf _ _)
  have hclear : (s.hearPartner sseq).partnerUp.faultPresent .partnerLost = false := faultPresent_safCleared_self _ _
  have hseq : (s.hearPartner sseq).partnerUp.saf.partnerSeq = some sseq := rfl
  have hat : (s.hearPartner sseq).partnerUp.saf.partnerAt = some s.now := rfl
  have hup : (s.hearPartner sseq).partnerUp.saf.partnerRun = some (s.saf.partnerRun.getD s.now) := rfl
  obtain ⟨-, -, hkept, honly⟩ := safEval_after hu
  exact ⟨(congrArg SafState.partnerSeq hkept.rest).trans hseq, hkept.partnerAt.trans hat, hkept.partnerRun.trans hup,
    (faultPresent_kept hkept rfl).trans hclear, honly⟩

/-! ### Degraded mode (R265) -/

/-- Degraded mode runs, since its first fault. -/
def State.degSince (s : State) : State := { s with saf := { s.saf with degFrom := some (s.saf.degFrom.getD s.now) } }

/-- The channels with DEG = 0 are released. -/
def State.releaseUnfit (s : State) : State := (List.range 4).foldl (fun s c => if s.imgFld (SAF_CCFG.DEG c) = 0 then s.releaseCh c else s) s

theorem releaseUnfit_run (s : State) : SafRun true stateFlds s s.releaseUnfit := by
  refine .foldl (fun u c hc => ?_) s
  split
  · exact (releaseCh_run u c).mono (mem_stateFlds (List.mem_range.1 hc))
  · exact .refl ..

theorem degEnter_run (s : State) : SafRun true (raiseFlds 118 ++ stateFlds) s.degSince s.degEnter := by
  cases hfrom : s.saf.degFrom with
  | some t =>
    have hsame : s.degSince = s := by rw [State.degSince, hfrom, Option.getD_some, ← hfrom]
    rw [State.degEnter, if_pos (by simp [hfrom]), hsame]
    exact .refl ..
  | none =>
    have hstart : s.degEnter = (s.degSince.raise 118).releaseUnfit := by
      rw [State.degEnter, if_neg (by simp [hfrom]), State.degSince, hfrom]
      rfl
    rw [hstart]
    exact (safRun_raise _ (by decide)).seq (releaseUnfit_run _)

theorem safFault_partnerLost {s : State} (hready : s.safReady = true) (hf : s.faultPresent .partnerLost = false) :
    s.safFault .partnerLost = (s.listFault .partnerLost).degEnter.safEval := by
  unfold State.safFault
  rw [if_neg (by simp [State.safActs, hready, hf, SafFault.latched])]
  rfl

/-- No field has come for 5 ms. -/
def State.partnerGone (s : State) : State := { s with saf := { s.saf with partnerAt := none } }.partnerDown

theorem execPartnerLost_passed {t0 : Nat} {s : State} (hat : s.saf.partnerAt = some t0) (hpast : s.safElapsed t0 5000000 = true) :
    exec .partnerLost s = .next (s.partnerGone.safFault .partnerLost) := by
  change execPartnerLost s = _
  simp only [execPartnerLost, hat, hpast, if_true]
  rfl

theorem partnerLost_shows {s : State} (hready : s.safReady = true) (hf : s.faultPresent .partnerLost = false) : let t := s.partnerGone.safFault .partnerLost
    t.faultPresent .partnerLost = true ∧ t.saf.partnerAt = none ∧ t.saf.partnerRun = none ∧ bitAt t.saf.rearmed 8 = false ∧
    t.getB SAF_FAULT.PARTNER_LOST = true ∧ t.saf.degFrom = some (s.saf.degFrom.getD s.now) ∧
    s.onlyBut [.saf, .rcd, .cyc] (raiseFlds 118 ++ raiseFlds 121 ++ raiseFlds 122) 0xC7000000 0x1000000 t := by
  have hu : s.only [.saf] [] (s.partnerGone.listFault .partnerLost).degSince := only_withSaf s _
  have hpresent : (s.partnerGone.listFault .partnerLost).degSince.faultPresent .partnerLost = true := faultPresent_listFault_self _ _
  have hat : (s.partnerGone.listFault .partnerLost).degSince.saf.partnerAt = none := rfl
  have hdown : (s.partnerGone.listFault .partnerLost).degSince.saf.partnerRun = none := rfl
  have hrearmed : bitAt (s.partnerGone.listFault .partnerLost).degSince.saf.rearmed 8 = false := bitAt_putBits_self _ _ _
  have hfrom : (s.partnerGone.listFault .partnerLost).degSince.saf.degFrom = some (s.saf.degFrom.getD s.now) := rfl
  have henter := degEnter_run (s.partnerGone.listFault .partnerLost)
  have heval := safEval_run (o := true) (s.partnerGone.listFault .partnerLost).degEnter
  have hkept := henter.kept.trans heval.kept
  have hstill := (faultPresent_kept henter.kept (f := .partnerLost) rfl).trans hpresent
  rw [safFault_partnerLost (s := s.partnerGone) hready hf]
  refine ⟨(faultPresent_kept heval.kept rfl).trans hstill, hkept.partnerAt.trans hat, hkept.partnerRun.trans hdown, by rw [hkept.rearmed, hrearmed], ?_,
    hkept.degFrom.trans hfrom, ?_⟩
  · rw [safEval_partnerLost, hstill]
  · exact safOnlyBut (only_seq (only_seq hu henter.only) heval.only) (by simp) (by decide)

/-! ### The end of a mask (R254, R255) -/

section Faults
variable {s t : State} {f g : SafFault}

theorem faults_congr (h : ∀ b, (f, b) ∈ t.saf.faults ↔ (f, b) ∈ s.saf.faults) : t.faultListed f = s.faultListed f ∧ t.faultPresent f = s.faultPresent f := by
  have hlisted (u : State) : u.faultListed f = true ↔ ∃ b, (f, b) ∈ u.saf.faults := by simp [State.faultListed]
  have hpresent (u : State) : u.faultPresent f = true ↔ (f, true) ∈ u.saf.faults := List.contains_iff_mem
  exact ⟨by rw [Bool.eq_iff_iff, hlisted, hlisted, exists_congr h], by rw [Bool.eq_iff_iff, hpresent, hpresent, h true]⟩

theorem mem_listFault_other (h : g ≠ f) (b : Bool) : (g, b) ∈ (s.listFault f).saf.faults ↔ (g, b) ∈ s.saf.faults := by
  simp [State.listFault, h]

theorem mem_safCleared_other (h : g ≠ f) (b : Bool) : (g, b) ∈ (s.safCleared f).saf.faults ↔ (g, b) ∈ s.saf.faults := by
  refine List.mem_map.trans ⟨fun ⟨x, hx, he⟩ => ?_, fun hx => ⟨(g, b), hx, if_neg h⟩⟩
  split at he
  · exact absurd (congrArg Prod.fst he).symm h
  · exact he ▸ hx

theorem faultPresent_of_unlisted (h : s.faultListed f = false) : s.faultPresent f = false := by
  rw [State.faultListed, List.any_eq_false] at h
  refine Bool.eq_false_iff.2 fun hp => ?_
  rw [State.faultPresent, List.contains_iff_mem] at hp
  exact h _ hp (by simp)

end Faults

/-- What an operation at the end of a mask touches; other masks stay. -/
structure PulseRun (fs : List Fld) (s t : State) : Prop where
  only : s.only [.free, .tms, .saf, .rcd, .cyc] fs t
  evt : EvtRun s t
  masks : t.saf.maskAt = s.saf.maskAt

/-- XS of pair `p` is as it was, and the channels it holds TRIPPED stay so. -/
structure SameXs (p : Nat) (s t : State) : Prop where
  listed : t.faultListed (.xs p) = s.faultListed (.xs p)
  present : t.faultPresent (.xs p) = s.faultPresent (.xs p)
  img : t.img = s.img
  held : s.faultPresent (.xs p) = true → ∀ c, c < 4 → bitAt (s.safMask p) c = true → s.chState c = safTRIPPED → t.chState c = safTRIPPED

/-- An operation behind the registers that leaves XS of pair `p` alone. -/
structure Behind (p : Nat) (s t : State) : Prop where
  only : s.only [.free, .tms, .saf] [] t
  masks : t.saf.maskAt = s.saf.maskAt
  faults : ∀ b, (SafFault.xs p, b) ∈ t.saf.faults ↔ (SafFault.xs p, b) ∈ s.saf.faults

section Rules
variable {p : Nat} {fs gs : List Fld} {s t u : State}

theorem PulseRun.refl (fs : List Fld) (s : State) : PulseRun fs s s := ⟨only_refl .., .refl _, rfl⟩

theorem PulseRun.trans (h : PulseRun fs s t) (h' : PulseRun fs t u) : PulseRun fs s u :=
  ⟨only_trans h.only h'.only, h.evt.trans h'.evt, h'.masks.trans h.masks⟩

theorem PulseRun.mono (h : PulseRun fs s t) (hf : ∀ f ∈ fs, f ∈ gs) : PulseRun gs s t := ⟨only_mono h.only (fun _ hp => hp) hf, h.evt, h.masks⟩

theorem PulseRun.seq (h : PulseRun fs s t) (h' : PulseRun gs t u) : PulseRun (fs ++ gs) s u :=
  (h.mono fun _ hf => List.mem_append_left _ hf).trans (h'.mono fun _ hf => List.mem_append_right _ hf)

theorem pulseRun_quiet (h : s.only [.free, .tms, .saf] [] t) (hm : t.saf.maskAt = s.saf.maskAt) : PulseRun [] s t :=
  ⟨only_mono h (by simp) (by simp), evtRun_of_only h (by simp) (by simp), hm⟩

theorem SafKept.maskAt {o : Bool} {f g : SafState} (h : SafKept o f g) : g.maskAt = f.maskAt := (congrArg SafState.maskAt h.rest).trans rfl

theorem SafRun.pulse {o : Bool} (h : SafRun o fs s t) : PulseRun fs s t := ⟨only_mono h.only (by simp) (fun _ hf => hf), h.evt, h.kept.maskAt⟩

theorem SameXs.refl (p : Nat) (s : State) : SameXs p s s := ⟨rfl, rfl, rfl, fun _ _ _ _ h => h⟩

theorem SameXs.trans (h : SameXs p s t) (h' : SameXs p t u) : SameXs p s u :=
  ⟨h'.listed.trans h.listed, h'.present.trans h.present, h'.img.trans h.img, fun hp c hc hm hst =>
    h'.held (h.present.trans hp) c hc ((safMask_congr h.img p).symm ▸ hm) (h.held hp c hc hm hst)⟩

/-- Trips, and writes that leave SAF_CH.STATE. -/
theorem sameXs_of_kept {o : Bool} (h : SafKept o s.saf t.saf) (himg : t.img = s.img)
    (hst : ∀ c, c < 4 → s.chState c = safTRIPPED → t.chState c = safTRIPPED) : SameXs p s t :=
  ⟨faultListed_kept h _, faultPresent_kept h rfl, himg, fun _ c hc _ => hst c hc⟩

theorem Behind.refl (p : Nat) (s : State) : Behind p s s := ⟨only_refl .., rfl, fun _ => .rfl⟩

theorem Behind.trans (h : Behind p s t) (h' : Behind p t u) : Behind p s u :=
  ⟨only_trans h.only h'.only, h'.masks.trans h.masks, fun b => (h'.faults b).trans (h.faults b)⟩

theorem Behind.pulse (h : Behind p s t) : PulseRun [] s t := pulseRun_quiet h.only h.masks

theorem Behind.sameXs (h : Behind p s t) : SameXs p s t := by
  obtain ⟨hlisted, hpresent⟩ := faults_congr h.faults
  exact ⟨hlisted, hpresent, h.only.1 .img (by simp), fun _ c _ _ hst => (get_of_only_nil h.only _).trans hst⟩

theorem behind_withSaf (s : State) {x : SafState} (hm : x.maskAt = s.saf.maskAt)
    (hf : ∀ b, (SafFault.xs p, b) ∈ x.faults ↔ (SafFault.xs p, b) ∈ s.saf.faults) : Behind p s { s with saf := x } :=
  ⟨only_mono (only_withSaf s x) (by simp) (by simp), hm, hf⟩

theorem behind_drawn (p : Nat) (s : State) : Behind p s s.drawn := ⟨only_mono (only_drawn s) (by simp) (by simp), rfl, fun _ => .rfl⟩

theorem behind_safCleared {f : SafFault} (h : SafFault.xs p ≠ f) (s : State) : Behind p s (s.safCleared f) :=
  behind_withSaf s rfl (mem_safCleared_other h)

theorem behind_listFault {f : SafFault} (h : SafFault.xs p ≠ f) (s : State) : Behind p s (s.listFault f) :=
  behind_withSaf s rfl (mem_listFault_other h)

end Rules

/-! #### The readings that a mask held back (R255) -/

/-- The start of TRANSIT follows the state of a pair. -/
def State.noteTransit (q st0 : Nat) (s : State) : State :=
  if s.pairState q = st0 then s
  else { s with saf := { s.saf with transSince := if s.pairState q = 2 then tput s.saf.transSince q s.now else tdel s.saf.transSince q } }

/-- The re-arm time follows whether a pair counts as RUN. -/
def State.noteRun (q : Nat) (was run : Bool) (s : State) : State :=
  if run && !was then { s with saf := { s.saf with runSince := tput s.saf.runSince q s.now } }
  else if !run then { s with saf := { s.saf with runSince := tdel s.saf.runSince q, rearmed := putBits s.saf.rearmed q 1 0 } }
  else s

/-- A pair that leaves RUN trips the channels it maps. -/
def State.leftRun (q : Nat) (left : Bool) (stamp : Nat) (s : State) : State :=
  if left && s.safMask q ≠ 0 then (s.captureEdge 5 true stamp).safTrip (s.safMask q) 2 q stamp else s

theorem pairMoved_eq (q : Nat) (was : Bool) (st0 stamp : Nat) (s : State) : s.pairMoved q was st0 stamp =
    if s.pairState q = 0 then (((s.noteTransit q st0).noteRun q was (s.pairRun q)).leftRun q (was && !s.pairRun q) stamp).safCleared (.disc q)
    else ((s.noteTransit q st0).noteRun q was (s.pairRun q)).leftRun q (was && !s.pairRun q) stamp := rfl

section Members
variable {p q : Nat} {s : State}

theorem behind_noteTransit (q st0 : Nat) (s : State) : Behind p s (s.noteTransit q st0) := by
  unfold State.noteTransit
  split
  · exact .refl ..
  · exact behind_withSaf s rfl fun _ => .rfl

theorem behind_noteRun (q : Nat) (was run : Bool) (s : State) : Behind p s (s.noteRun q was run) := by
  unfold State.noteRun
  split
  · exact behind_withSaf s rfl fun _ => .rfl
  · split
    · exact behind_withSaf s rfl fun _ => .rfl
    · exact .refl ..

theorem leftRun_run (left : Bool) (stamp : Nat) (h : bitAt (s.get (TMS_CAP_CFG.EDGE 5)) 0 = false) :
    PulseRun tripFlds s (s.leftRun q left stamp) ∧ SameXs p s (s.leftRun q left stamp) := by
  unfold State.leftRun
  split
  · have hrun := edgeTrip_run (stamp := stamp) h (s.safMask q) q
    refine ⟨⟨only_mono hrun.only (by simp) (fun _ hf => hf), hrun.evt, hrun.kept.maskAt⟩,
      sameXs_of_kept hrun.kept (hrun.only.1 .img (by simp)) fun c hc hst => ?_⟩
    rw [captureEdge_unselected stamp h]
    exact chState_safTrip_tripped _ hc hst
  · exact ⟨.refl .., .refl ..⟩

/-- The reading of a member that the trip path takes. -/
def State.readMember (q : Nat) (memberB : Bool) (s : State) : State :=
  if memberB then { s with saf := { s.saf with effB := tput s.saf.effB q (tgetD s.saf.pins.sinB q 0) } }
  else { s with saf := { s.saf with effA := putBits s.saf.effA q 1 (b2n (bitAt s.saf.pins.sinA q)) } }

theorem behind_readMember (q : Nat) (memberB : Bool) (s : State) : Behind p s (s.readMember q memberB) := by
  unfold State.readMember
  split <;> exact behind_withSaf s rfl fun _ => .rfl

theorem takeMember_run (memberB : Bool) (stamp : Nat) (h : bitAt (s.get (TMS_CAP_CFG.EDGE 5)) 0 = false) :
    PulseRun tripFlds s (s.takeMember q memberB stamp) ∧ SameXs p s (s.takeMember q memberB stamp) := by
  have heq : s.takeMember q memberB stamp = (s.readMember q memberB).pairMoved q (s.pairRun q) (s.pairState q) stamp := rfl
  rw [heq, pairMoved_eq]
  generalize (s.readMember q memberB).pairRun q = run
  have hfront : Behind p s (((s.readMember q memberB).noteTransit q (s.pairState q)).noteRun q (s.pairRun q) run) :=
    ((behind_readMember ..).trans (behind_noteTransit ..)).trans (behind_noteRun ..)
  generalize ((s.readMember q memberB).noteTransit q (s.pairState q)).noteRun q (s.pairRun q) run = u at hfront ⊢
  have hedge : bitAt (u.get (TMS_CAP_CFG.EDGE 5)) 0 = false := (get_of_only_nil hfront.only _).symm ▸ h
  obtain ⟨hrun, hsame⟩ := leftRun_run (p := p) (q := q) (s.pairRun q && !run) stamp hedge
  have hpath : PulseRun tripFlds s (u.leftRun q (s.pairRun q && !run) stamp) := hfront.pulse.seq hrun
  split
  · have hclear := behind_safCleared (p := p) (f := .disc q) (by simp) (u.leftRun q (s.pairRun q && !run) stamp)
    exact ⟨hpath.trans (hclear.pulse.mono (by simp)), (hfront.sameXs.trans hsame).trans hclear.sameXs⟩
  · exact ⟨hpath, hfront.sameXs.trans hsame⟩

/-- The readings of all pairs. -/
theorem takeMembers_run (memberB : Bool) (stamp : Nat) (h : bitAt (s.get (TMS_CAP_CFG.EDGE 5)) 0 = false) :
    PulseRun tripFlds s ((List.range 8).foldl (fun s q => s.takeMember q memberB stamp) s) ∧
    SameXs p s ((List.range 8).foldl (fun s q => s.takeMember q memberB stamp) s) := by
  refine foldl_keeps (P := fun u => PulseRun tripFlds s u ∧ SameXs p s u) (fun u q _ ⟨hu, hsame⟩ => ?_) ⟨.refl .., .refl ..⟩
  have hedge := hu.only.get (g := TMS_CAP_CFG.EDGE 5) (by decide)
  obtain ⟨hu', hsame'⟩ := takeMember_run (s := u) (q := q) (p := p) memberB stamp (hedge.symm ▸ h)
  exact ⟨hu.trans hu', hsame.trans hsame'⟩

end Members

/-! #### XS (R254) -/

/-- The counts of passed pulses of a pair start anew. -/
def State.dropPasses (q : Nat) (s : State) : State := { s with saf := { s.saf with xsPass := tdel (tdel s.saf.xsPass (2 * q)) (2 * q + 1) } }

/-- XS of a pair is set. -/
def State.setXs (q : Nat) (s : State) : State :=
  let s := (s.drawn.listFault (.xs q)).raise 115
  { s with saf := { s.saf with runSince := tdel s.saf.runSince q, rearmed := putBits s.saf.rearmed q 1 0,
                               xsPass := tdel (tdel s.saf.xsPass (2 * q)) (2 * q + 1) } }

def xsFlds : List Fld := raiseFlds 115 ++ tripFlds ++ evalFlds

section Xs
variable {p q : Nat} {s : State}

theorem safFault_xs (hready : s.safReady = true) (hf : s.faultPresent (.xs q) = false) :
    s.safFault (.xs q) = ((s.setXs q).safTrip ((s.setXs q).safMask q) 4 0 s.fineNow).safEval := by
  unfold State.safFault
  rw [if_neg (by simp [State.safActs, hready, hf, SafFault.latched])]
  rfl

theorem setXs_run (q : Nat) (s : State) : PulseRun (raiseFlds 115) s (s.setXs q) ∧ s.raised 115 (s.setXs q) := by
  have hlist : PulseRun [] s (s.drawn.listFault (.xs q)) :=
    pulseRun_quiet (only_mono (only_seq (only_drawn s) (only_withSaf s.drawn _)) (by simp) (by simp)) rfl
  have hraise := safRun_raise (o := true) (s.drawn.listFault (.xs q)) (n := 115) (by decide)
  have hback : ((s.drawn.listFault (.xs q)).raise 115).only [.free, .tms, .saf] [] (s.setXs q) := only_mono (only_withSaf _ _) (by simp) (by simp)
  have hquiet := pulseRun_quiet hback rfl
  exact ⟨(hlist.seq hraise.pulse).trans (hquiet.mono (by simp)), hquiet.evt.raised_first (hlist.evt.trans hraise.evt) (by decide) (hlist.evt.raised_raise (by decide))⟩

theorem faultPresent_setXs_self (q : Nat) (s : State) : (s.setXs q).faultPresent (.xs q) = true := by
  have hraised : (s.setXs q).saf.faults = ((s.drawn.listFault (.xs q)).raise 115).saf.faults := rfl
  rw [State.faultPresent, hraised, raise_saf]
  exact faultPresent_listFault_self s.drawn (.xs q)

theorem setXs_sameXs (h : q ≠ p) (s : State) : SameXs p s (s.setXs q) := by
  have hraise := safRun_raise (o := true) (s.drawn.listFault (.xs q)) (n := 115) (by decide)
  have hraised : SameXs p (s.drawn.listFault (.xs q)) ((s.drawn.listFault (.xs q)).raise 115) :=
    sameXs_of_kept hraise.kept hraise.img fun c _ hst => (chState_raise _ 115 c).trans hst
  have hback : Behind p ((s.drawn.listFault (.xs q)).raise 115) (s.setXs q) := behind_withSaf _ rfl fun _ => .rfl
  exact (((behind_drawn p s).trans (behind_listFault (by simpa using h.symm) _)).sameXs.trans hraised).trans hback.sameXs

/-- A pair with XS is no pair in RUN. -/
theorem pairRun_of_xs (h : s.faultPresent (.xs p) = true) : s.pairRun p = false := by simp [State.pairRun, h]

/-- The bookkeeping under XS of pair `p`. -/
theorem safEval_sameXs (hp : p < 8) (s : State) : SameXs p s s.safEval := by
  have heval := safEval_run (o := true) s
  exact ⟨faultListed_kept heval.kept _, faultPresent_kept heval.kept rfl, heval.img,
    fun hx c hc hm hst => (chState_safEval_blocked hp hc hm (pairRun_of_xs hx)).trans hst⟩

theorem safFault_xs_run (hready : s.safReady = true) (hf : s.faultPresent (.xs q) = false) : PulseRun xsFlds s (s.safFault (.xs q)) := by
  rw [safFault_xs hready hf]
  exact ((setXs_run q s).1.seq (safTrip_run ..).pulse).seq (safEval_run (o := true) _).pulse

theorem safFault_xs_sameXs (hp : p < 8) (hne : q ≠ p) (hready : s.safReady = true) (hf : s.faultPresent (.xs q) = false) : SameXs p s (s.safFault (.xs q)) := by
  have htrip := safTrip_run (s.setXs q) ((s.setXs q).safMask q) 4 0 s.fineNow
  rw [safFault_xs hready hf]
  exact ((setXs_sameXs hne s).trans (sameXs_of_kept htrip.kept htrip.img fun c hc hst => chState_safTrip_tripped _ hc hst)).trans (safEval_sameXs hp _)

/-- XS that arises is present, raises 115 and trips. -/
theorem safFault_xs_shows (hq : q < 8) (hready : s.safReady = true) (hf : s.faultPresent (.xs q) = false) : let t := s.safFault (.xs q)
    t.faultPresent (.xs q) = true ∧ s.raised 115 t ∧ ∀ c, c < 4 → bitAt (s.safMask q) c = true → t.chState c = safTRIPPED := by
  obtain ⟨hset, hraised⟩ := setXs_run q s
  have htrip := safTrip_run (s.setXs q) ((s.setXs q).safMask q) 4 0 s.fineNow
  have hpresent := (faultPresent_kept htrip.kept (f := .xs q) rfl).trans (faultPresent_setXs_self q s)
  have hmask : (s.setXs q).safMask q = s.safMask q := safMask_congr (hset.only.1 .img (by simp)) q
  have heval := safEval_sameXs hq ((s.setXs q).safTrip ((s.setXs q).safMask q) 4 0 s.fineNow)
  rw [safFault_xs hready hf]
  refine ⟨heval.present.trans hpresent, ?_, fun c hc hm => ?_⟩
  · exact (htrip.evt.trans (safEval_run (o := true) _).evt).raised_first hset.evt (by decide) hraised
  · have hm' : bitAt ((s.setXs q).safMask q) c = true := hmask.symm ▸ hm
    exact heval.held hpresent c hc ((safMask_congr htrip.img q).symm ▸ hm') (chState_safTrip _ hc hm')

theorem behind_xsPassed (hne : q ≠ p) (stp : Nat) (s : State) : Behind p s (s.xsPassed stp q) := by
  unfold State.xsPassed
  have hcount : Behind p s { s with saf := { s.saf with xsPass := tmod s.saf.xsPass (2 * q + stp) 0 (· + 1) } } := behind_withSaf s rfl fun _ => .rfl
  split
  · dsimp only
    split
    · have hclear := hcount.trans (behind_safCleared (f := .xs q) (by simpa using hne.symm) _)
      split
      · exact hclear.trans (behind_withSaf _ rfl fun _ => .rfl)
      · exact hclear
    · exact hcount
  · exact .refl ..

end Xs

/-! #### The rounds of a pulse -/

/-- The mask of an STP ends. -/
def State.endMask (stp : Nat) (s : State) : State :=
  { s with saf := { s.saf with maskAt := tdel s.saf.maskAt stp, tested := tdel s.saf.tested stp } }.drawn

/-- A pair at the end of a pulse: its member was not tested, failed, or passed. -/
def State.pulseRound (stp tested failed : Nat) (s : State) (q : Nat) : State :=
  if !bitAt tested q then s else if bitAt failed q then ((s.dropPasses q).bump SAF_CNT.TEST_FAIL 1).safFault (.xs q) else s.xsPassed stp q

/-- All pairs take the readings that the mask held back. -/
def State.takeMembers (memberB : Bool) (stamp : Nat) (s : State) : State := (List.range 8).foldl (fun s q => s.takeMember q memberB stamp) s

theorem execStpMaskEnd_passed {stp : Fin 2} {failed : BitVec 8} {t0 : Nat} {s : State} (hmask : tget s.saf.maskAt stp.val = some t0)
    (hpast : s.safElapsed t0 250000 = true) : exec (.stpMaskEnd stp failed) s =
      .next ((List.range 8).foldl (State.pulseRound stp.val (tgetD s.saf.tested stp.val 0) failed.toNat)
        ((s.endMask stp.val).takeMembers (decide (stp.val = 1)) s.fineNow)).safEval := by
  change execStpMaskEnd stp failed s = _
  simp only [execStpMaskEnd, hmask, hpast, Bool.not_true, Bool.false_eq_true, if_false]
  rfl

theorem endMask_run (stp p : Nat) (s : State) : s.only [.free, .saf] [] (s.endMask stp) ∧ SameXs p s (s.endMask stp) ∧ tget (s.endMask stp).saf.maskAt stp = none := by
  have hnote : s.only [.saf] [] { s with saf := { s.saf with maskAt := tdel s.saf.maskAt stp, tested := tdel s.saf.tested stp } } := only_withSaf s _
  have honly := only_mono (only_seq hnote (only_drawn _)) (qs := [.free, .saf]) (us := []) (by simp) (by simp)
  exact ⟨honly, ⟨rfl, rfl, rfl, fun _ _ _ _ h => h⟩, tget_tdel_self ..⟩

/-- What the rounds of a pulse write. -/
def roundFlds : List Fld := SAF_CNT.TEST_FAIL :: xsFlds

theorem satTo_eq_min (m n : Nat) : satTo m n = min m n := by
  unfold satTo
  split <;> omega

/-- A failed test is counted. -/
def State.countFail (q : Nat) (s : State) : State := (s.dropPasses q).bump SAF_CNT.TEST_FAIL 1

section Rounds
variable {stp tested failed p q : Nat} {s u : State}

theorem behind_dropPasses (q : Nat) (s : State) : Behind p s (s.dropPasses q) := behind_withSaf s rfl fun _ => .rfl

theorem countFail_run (p q : Nat) (s : State) : PulseRun [SAF_CNT.TEST_FAIL] s (s.countFail q) ∧ SameXs p s (s.countFail q) ∧
    (s.countFail q).safReady = s.safReady ∧ (s.countFail q).get SAF_CNT.TEST_FAIL = min 255 (s.get SAF_CNT.TEST_FAIL + 1) := by
  have hdrop := behind_dropPasses (p := p) q s
  have hbump := safRun_bump (o := true) (s.dropPasses q) 1 (f := SAF_CNT.TEST_FAIL) (by decide) (by decide)
  have hst (c : Nat) : (s.countFail q).chState c = (s.dropPasses q).chState c := by
    refine get_bump_apart _ _ _ _ (.inl ?_) (by decide)
    simp only [SAF_CH.STATE, SAF_CH, SAF_CNT.TEST_FAIL, SAF_CNT]
    omega
  refine ⟨hdrop.pulse.seq hbump.pulse, hdrop.sameXs.trans (sameXs_of_kept hbump.kept hbump.img fun c _ h => (hst c).trans h), ?_, ?_⟩
  · exact (safReady_run hbump (by decide)).trans (getB_of_get (get_of_only_nil hdrop.only _))
  · refine (get_bump_self _ _ _ (by decide)).trans ?_
    rw [get_of_only_nil hdrop.only]
    exact satTo_eq_min _ _

theorem pulseRound_untested (h : bitAt tested q = false) (s : State) : s.pulseRound stp tested failed q = s := by
  rw [State.pulseRound, if_pos (by simp [h])]

theorem pulseRound_failed (ht : bitAt tested q = true) (hf : bitAt failed q = true) (s : State) :
    s.pulseRound stp tested failed q = (s.countFail q).safFault (.xs q) := by
  rw [State.pulseRound, if_neg (by simp [ht]), if_pos hf, State.countFail]

theorem safFault_present {f : SafFault} (h : s.faultPresent f = true) : s.safFault f = s := by
  unfold State.safFault
  exact if_pos (by simp [h])

/-- The round of another pair. -/
theorem pulseRound_other (hp : p < 8) (hne : q ≠ p) (hready : s.safReady = true) :
    PulseRun roundFlds s (s.pulseRound stp tested failed q) ∧ SameXs p s (s.pulseRound stp tested failed q) := by
  cases ht : bitAt tested q with
  | false =>
    rw [pulseRound_untested ht]
    exact ⟨.refl .., .refl ..⟩
  | true =>
    cases hf : bitAt failed q with
    | true =>
      rw [pulseRound_failed ht hf]
      obtain ⟨hcount, hsame, hr, -⟩ := countFail_run p q s
      cases hx : (s.countFail q).faultPresent (.xs q) with
      | true =>
        rw [safFault_present hx]
        exact ⟨hcount.mono (by simp [roundFlds]), hsame⟩
      | false => exact ⟨hcount.seq (safFault_xs_run (hr.trans hready) hx), hsame.trans (safFault_xs_sameXs hp hne (hr.trans hready) hx)⟩
    | false =>
      have hpassed : s.pulseRound stp tested failed q = s.xsPassed stp q := by
        rw [State.pulseRound, if_neg (by simp [ht]), if_neg (by simp [hf])]
      have hbehind := behind_xsPassed hne stp s
      rw [hpassed]
      exact ⟨hbehind.pulse.mono (by simp), hbehind.sameXs⟩

/-- After the round of a pair that failed: XS stands and has tripped its channels. -/
structure XsShown (p : Nat) (s u : State) : Prop where
  run : PulseRun roundFlds s u
  img : u.img = s.img
  present : u.faultPresent (.xs p) = true
  tripped : ∀ c, c < 4 → bitAt (s.safMask p) c = true → u.chState c = safTRIPPED
  raised : s.raised 115 u

/-- The round of a pair whose tested member did not fall. -/
theorem pulseRound_sets (hp : p < 8) (ht : bitAt tested p = true) (hf : bitAt failed p = true) (hready : s.safReady = true) (hx : s.faultPresent (.xs p) = false) :
    XsShown p s (s.pulseRound stp tested failed p) ∧
    (s.pulseRound stp tested failed p).get SAF_CNT.TEST_FAIL = min 255 (s.get SAF_CNT.TEST_FAIL + 1) := by
  obtain ⟨hcount, hsame, hr, hfail⟩ := countFail_run p p s
  have hx' := hsame.present.trans hx
  have hrun := safFault_xs_run (hr.trans hready) hx'
  obtain ⟨hpresent, hraised, htripped⟩ := safFault_xs_shows hp (hr.trans hready) hx'
  rw [pulseRound_failed ht hf]
  exact ⟨⟨hcount.seq hrun, (hrun.only.1 .img (by simp)).trans hsame.img, hpresent, fun c hc hm => htripped c hc ((safMask_congr hsame.img p).symm ▸ hm),
    hcount.evt.raised_second hrun.evt (by decide) hraised⟩, (hrun.only.get (by decide)).trans hfail⟩

theorem ready_of_pulseRun (h : PulseRun roundFlds s u) : u.safReady = s.safReady := h.only.getB (by decide)

/-- XS stays through the round of another pair. -/
theorem XsShown.roundOther (h : XsShown p s u) (hp : p < 8) (hne : q ≠ p) (hready : s.safReady = true) : XsShown p s (u.pulseRound stp tested failed q) := by
  obtain ⟨hrun, hsame⟩ := pulseRound_other (stp := stp) (tested := tested) (failed := failed) hp hne ((ready_of_pulseRun h.run).trans hready)
  exact ⟨h.run.trans hrun, hsame.img.trans h.img, hsame.present.trans h.present,
    fun c hc hm => hsame.held h.present c hc ((safMask_congr h.img p).symm ▸ hm) (h.tripped c hc hm), hrun.evt.raised_first h.run.evt (by decide) h.raised⟩

/-- The rounds of all pairs, of which `p` failed. -/
theorem pulseRounds_shown (hp : p < 8) (ht : bitAt tested p = true) (hf : bitAt failed p = true) (hready : s.safReady = true) (hx : s.faultPresent (.xs p) = false) :
    XsShown p s ((List.range 8).foldl (State.pulseRound stp tested failed) s) := by
  refine foldl_range_once (Q := fun u => PulseRun roundFlds s u ∧ SameXs p s u) (fun u q _ hne hu => ?_) (fun u hu => ?_)
    (fun u q _ hne hu => hu.roundOther hp hne hready) hp ⟨.refl .., .refl ..⟩
  · obtain ⟨hrun, hsame⟩ := pulseRound_other (stp := stp) (tested := tested) (failed := failed) hp hne ((ready_of_pulseRun hu.1).trans hready)
    exact ⟨hu.1.trans hrun, hu.2.trans hsame⟩
  · obtain ⟨hrun, hsame⟩ := hu
    obtain ⟨hset, -⟩ := pulseRound_sets (stp := stp) hp ht hf ((ready_of_pulseRun hrun).trans hready) (hsame.present.trans hx)
    exact ⟨hrun.trans hset.run, hset.img.trans hsame.img, hset.present, fun c hc hm => hset.tripped c hc ((safMask_congr hsame.img p).symm ▸ hm),
      hrun.evt.raised_second hset.run.evt (by decide) hset.raised⟩

/-- The rounds are that of the one pair whose member was tested. -/
theorem pulseRounds_once (hp : p < 8) (h : ∀ q ∈ List.range 8, q ≠ p → bitAt tested q = false) (s : State) :
    (List.range 8).foldl (State.pulseRound stp tested failed) s = s.pulseRound stp tested failed p := by
  refine foldl_range_once (Q := fun u => u = s) (R := fun u => u = s.pulseRound stp tested failed p) (fun u q hq hne hu => ?_) (fun u hu => hu ▸ rfl)
    (fun u q hq hne hu => ?_) hp rfl <;> rwa [pulseRound_untested (h q (List.mem_range.2 hq) hne)]

end Rounds

/-- The end of a mask at which a tested member of pair `p` has not fallen (R254, R255). -/
theorem stpMaskEnd_sets {stp : Fin 2} {failed : BitVec 8} {t0 p : Nat} {s : State} (hready : s.safReady = true) (hmask : tget s.saf.maskAt stp.val = some t0)
    (hpast : s.safElapsed t0 250000 = true) (hp : p < 8) (ht : bitAt (tgetD s.saf.tested stp.val 0) p = true) (hf : bitAt failed.toNat p = true)
    (hlisted : s.faultListed (.xs p) = false) (hedge : bitAt (s.get (TMS_CAP_CFG.EDGE 5)) 0 = false) :
    ∃ t, exec (.stpMaskEnd stp failed) s = .next t ∧ t.faultPresent (.xs p) = true ∧ t.pairRun p = false ∧ s.raised 115 t ∧
    ((∀ q ∈ List.range 8, q ≠ p → bitAt (tgetD s.saf.tested stp.val 0) q = false) → t.get SAF_CNT.TEST_FAIL = min 255 (s.get SAF_CNT.TEST_FAIL + 1)) ∧
    (∀ c, c < 4 → bitAt (s.safMask p) c = true → t.chState c = safTRIPPED) ∧ tget t.saf.maskAt stp.val = none ∧
    s.onlyBut [.free, .tms, .saf, .rcd, .cyc] (raiseFlds 113 ++ raiseFlds 115 ++ raiseFlds 121 ++ raiseFlds 122) 0xC7000000 0x1000000 t := by
  rw [execStpMaskEnd_passed hmask hpast]
  obtain ⟨hend, hendXs, hnone⟩ := endMask_run stp.val p s
  obtain ⟨htake, htakeXs⟩ := takeMembers_run (s := s.endMask stp.val) (p := p) (decide (stp.val = 1)) s.fineNow ((get_of_only_nil hend _).symm ▸ hedge)
  change PulseRun tripFlds _ ((s.endMask stp.val).takeMembers (decide (stp.val = 1)) s.fineNow) at htake
  change SameXs p _ ((s.endMask stp.val).takeMembers (decide (stp.val = 1)) s.fineNow) at htakeXs
  generalize (s.endMask stp.val).takeMembers (decide (stp.val = 1)) s.fineNow = u at htake htakeXs
  have honly := only_seq hend htake.only
  have hevt : EvtRun s u := (evtRun_of_only hend (by simp) (by simp)).trans htake.evt
  have hxs := hendXs.trans htakeXs
  have hready' : u.safReady = true := (honly.getB (by decide)).trans hready
  have hunset : u.faultPresent (.xs p) = false := hxs.present.trans (faultPresent_of_unlisted hlisted)
  have hshown := pulseRounds_shown (stp := stp.val) hp ht hf hready' hunset
  have honce := pulseRounds_once (tested := tgetD s.saf.tested stp.val 0) (stp := stp.val) (failed := failed.toNat) (p := p) hp
  have hfail := (pulseRound_sets (stp := stp.val) hp ht hf hready' hunset).2
  refine ⟨_, rfl, ?_⟩
  generalize hv : (List.range 8).foldl (State.pulseRound stp.val (tgetD s.saf.tested stp.val 0) failed.toNat) u = v at hshown
  have heval := safEval_run (o := true) v
  have hevalXs := safEval_sameXs hp v
  have hpresent := hevalXs.present.trans hshown.present
  refine ⟨hpresent, pairRun_of_xs hpresent, ?_, fun hother => ?_, fun c hc hm => ?_, ?_, ?_⟩
  · exact hevt.raised_second (hshown.run.evt.trans heval.evt) (by decide) (heval.evt.raised_first hshown.run.evt (by decide) hshown.raised)
  · rw [heval.only.get (by decide), ← hv, honce hother, hfail, honly.get (by decide)]
  · have hm' : bitAt (u.safMask p) c = true := (safMask_congr hxs.img p).symm ▸ hm
    exact hevalXs.held hshown.present c hc ((safMask_congr hshown.img p).symm ▸ hm') (hshown.tripped c hc hm')
  · rw [heval.kept.maskAt, hshown.run.masks, htake.masks, hnone]
  · exact safOnlyBut (only_seq (only_seq honly hshown.run.only) heval.only) (by simp) (by decide)

/-- Settles O36: each happening of a pair, a pulse, a re-arm time, a mirror or the partner is a change behind the registers, the trip path
or a fault, and the bookkeeping, which arms no channel that a pair, XS or the partner still blocks. -/
theorem pairsMirrorsAndPartnerTripAndRearmChannels : Obligations.PairsMirrorsAndPartnerTripAndRearmChannels := by
  unfold Obligations.PairsMirrorsAndPartnerTripAndRearmChannels
  refine ⟨fun pair stamp s hready hopen hrun hedge => ?_, fun pair memberB reading stamp s hblocked => ?_, fun stp s hready hdue => stpPulse_masks hready hdue,
    fun stp failed t0 p s hready hmask hpast hp ht hf hlisted hedge => stpMaskEnd_sets hready hmask hpast hp ht hf hlisted hedge,
    fun who t0 s _ hsince hpast => ⟨_, execRearmComplete_passed hsince hpast, rearmComplete_arms⟩,
    fun c closed s hready huse => ⟨_, execSfbChange_used hready huse, sfbChange_shows c.isLt hready huse⟩,
    fun sstate sseq pad scrc s hready hnet hcrc hseq hstop => ?_, fun sstate sseq pad scrc s hready hnet hcrc hseq hstop => ?_,
    fun t0 s hready hat hpast hf => ⟨_, execPartnerLost_passed hat hpast, partnerLost_shows hready hf⟩⟩
  · refine ⟨_, (execSinPinChange_eq ..).trans ?_, openReading_trips pair.isLt hrun hedge⟩
    rw [if_pos (by simp [hready, hopen])]
    rfl
  · refine ⟨_, (execSinPinChange_eq ..).trans ?_, notePin_shows pair.val memberB reading s⟩
    rw [if_neg]
    rcases hblocked with h | h <;> simp [h]
  · refine ⟨_, (execPartnerSafetyField_accepted hready hnet hcrc hseq).trans ?_, partnerStop_trips s sseq.toNat⟩
    rw [if_pos hstop]
  · refine ⟨_, (execPartnerSafetyField_accepted hready hnet hcrc hseq).trans ?_, partnerRuns_shows s sseq.toNat⟩
    rw [if_neg (by simp [hstop])]

end Sys2Proof.Machine
end

section
/-! PROOFS. The statements of spec/13_gnss_baseband.md on receiver chains, notches and antennas (R274 to R276): what a report of a chain, an
interferer and an antenna's current show, flag and raise. -/

namespace Sys2Proof.Machine

/-! ### What stands behind GNB's registers -/

/-- The state with other facts behind GNB's registers. -/
def State.withGnb (x : GnbState) (s : State) : State := { s with gnb := x }

theorem only_withGnb (x : GnbState) (s : State) : s.only [.gnb] [] (s.withGnb x) :=
  ⟨fun p hp => by cases p <;> simp [State.same, State.withGnb] at hp ⊢, fun _ _ => rfl, rfl, rfl⟩

section WithGnb
variable (x : GnbState) (s : State)

@[simp] theorem gnb_withGnb : (s.withGnb x).gnb = x := rfl
@[simp] theorem get_withGnb (f : Fld) : (s.withGnb x).get f = s.get f := rfl
@[simp] theorem getB_withGnb (f : Fld) : (s.withGnb x).getB f = s.getB f := rfl
@[simp] theorem set_withGnb (f : Fld) (v : Nat) : (s.withGnb x).set f v = (s.set f v).withGnb x := rfl

end WithGnb

/-- Fields of one register, the one below the other. -/
theorem apart_below {g f : Fld} (h : g.lo + g.width ≤ f.lo) : g.apart f := .inr (.inl h)
theorem apart_above {g f : Fld} (h : f.lo + f.width ≤ g.lo) : g.apart f := .inr (.inr h)

/-- A field above others of its register. -/
theorem apart_of_above {g : Fld} {fs : List Fld} (h : (fs.all fun f => decide (f.lo + f.width ≤ g.lo)) = true) : ∀ f ∈ fs, g.apart f :=
  fun f hf => apart_above (of_decide_eq_true (List.all_eq_true.1 h f hf))

theorem windowOf_gnb {a : Nat} (hl : 0xC8000000 ≤ a) (hu : a < 0xC9000000) : windowOf a ≠ 0xC1 := by
  simp only [windowOf]; omega

/-! ### The AGC and the baseline of a chain (R274) -/

section Chain
variable {c g : Nat} {s : State}

/-- The gain that the AGC of chain `c` can read now where `g` is reported: no further from the one before than its steps since reach. -/
def State.gainReached (c g : Nat) (s : State) : Nat :=
  let n := s.scNow / 1024 - tgetD s.gnb.agcAt c 0
  min 240 (max (s.get (GNB_CHAIN_STAT.GAIN c) - n) (min (s.get (GNB_CHAIN_STAT.GAIN c) + n) g))

/-- The strobes whose SL is still ahead take the gain over. -/
def State.strobesTaking (c g : Nat) (s : State) : List Strobe :=
  s.gnb.strobes.map fun x => if s.now ≤ x.ltcL then { x with gains := tput x.gains c g } else x

theorem gainReached_lt (c g : Nat) (s : State) : s.gainReached c g < 2 ^ 8 := by
  simp only [State.gainReached]; omega

theorem agc_held (h : s.getB (GNB_CHAIN_CFG.HOLD c) = true) :
    s.agc c g = s.withGnb { s.gnb with agcAt := tput s.gnb.agcAt c (s.scNow / 1024) } :=
  if_pos h

theorem agc_moved (h : s.getB (GNB_CHAIN_CFG.HOLD c) = false) :
    s.agc c g = (s.set (GNB_CHAIN_STAT.GAIN c) (s.gainReached c g)).withGnb
      { s.gnb with agcAt := tput s.gnb.agcAt c (s.scNow / 1024), strobes := s.strobesTaking c (s.gainReached c g) } :=
  if_neg (Bool.eq_false_iff.1 h)

theorem base_agc (c g : Nat) (s : State) : (s.agc c g).gnb.base = s.gnb.base := by
  cases h : s.getB (GNB_CHAIN_CFG.HOLD c)
  · rw [agc_moved h, gnb_withGnb]
  · rw [agc_held h, gnb_withGnb]

/-- The baseline that a report brings: the lowest mean of a second, where one has ended since ENABLE. -/
def baseReported (c : Nat) (mean : Option (BitVec 16)) (t : Tbl Nat) : Option Nat :=
  match mean with
  | none => tget t c
  | some m => some (min m.toNat (tgetD t c m.toNat))

/-- The table of baselines after a report that leaves `b` in force. -/
def basesAfter (c b : Nat) (mean : Option (BitVec 16)) (t : Tbl Nat) : Tbl Nat := if mean.isSome then tput t c b else t

variable {mean : Option (BitVec 16)} {b : Nat}

theorem takeMean_eq (h : some b = baseReported c mean s.gnb.base) :
    s.takeMean c (mean.map (·.toNat)) = s.withGnb { s.gnb with base := basesAfter c b mean s.gnb.base } := by
  cases mean with
  | none => rfl
  | some m => cases h; rfl

theorem tget_basesAfter {t : Tbl Nat} (h : some b = baseReported c mean t) : tget (basesAfter c b mean t) c = some b := by
  cases mean with
  | none => exact h.symm
  | some m => exact tget_tput_self ..

theorem showPwr_based {b : Nat} (h : tget s.gnb.base c = some b) (p : Nat) : s.showPwr c p = s.set (GNB_CHAIN_STAT.PWR c) (min 255 (p - b)) := by
  simp only [State.showPwr, h, satTo_eq_min]

theorem showPwr_unbased (h : tget s.gnb.base c = none) (p : Nat) : s.showPwr c p = (s.set (GNB_CHAIN_STAT.PWR c) (s.fresh 8)).drawn := by
  simp only [State.showPwr, h]

/-- What a report shows of a chain before its flags: gain, baseline and power. -/
def State.chainShown (c g : Nat) (mean : Option (BitVec 16)) (p : Nat) (s : State) : State :=
  ((s.agc c g).takeMean c (mean.map (·.toNat))).showPwr c p

theorem chainShown_eq (hb : some b = baseReported c mean s.gnb.base) (p : Nat) :
    s.chainShown c g mean p = ((s.agc c g).set (GNB_CHAIN_STAT.PWR c) (min 255 (p - b))).withGnb
      { (s.agc c g).gnb with base := basesAfter c b mean s.gnb.base } := by
  have hu : some b = baseReported c mean (s.agc c g).gnb.base := by rw [base_agc]; exact hb
  rw [State.chainShown, takeMean_eq hu, showPwr_based (tget_basesAfter hu), base_agc, set_withGnb]

theorem chainShown_moved (hhold : s.getB (GNB_CHAIN_CFG.HOLD c) = false) (hb : some b = baseReported c mean s.gnb.base) (p : Nat) :
    s.chainShown c g mean p = ((s.set (GNB_CHAIN_STAT.GAIN c) (s.gainReached c g)).set (GNB_CHAIN_STAT.PWR c) (min 255 (p - b))).withGnb
      { s.gnb with agcAt := tput s.gnb.agcAt c (s.scNow / 1024), base := basesAfter c b mean s.gnb.base, strobes := s.strobesTaking c (s.gainReached c g) } := by
  rw [chainShown_eq hb, agc_moved hhold]; rfl

theorem chainShown_held (hhold : s.getB (GNB_CHAIN_CFG.HOLD c) = true) (hb : some b = baseReported c mean s.gnb.base) (p : Nat) :
    s.chainShown c g mean p = (s.set (GNB_CHAIN_STAT.PWR c) (min 255 (p - b))).withGnb
      { s.gnb with agcAt := tput s.gnb.agcAt c (s.scNow / 1024), base := basesAfter c b mean s.gnb.base } := by
  rw [chainShown_eq hb, agc_held hhold]; rfl

theorem chainShown_unbased (hhold : s.getB (GNB_CHAIN_CFG.HOLD c) = true) (hb : tget s.gnb.base c = none) (p : Nat) :
    s.chainShown c g none p = ((s.set (GNB_CHAIN_STAT.PWR c) (s.fresh 8)).drawn).withGnb
      { s.gnb with agcAt := tput s.gnb.agcAt c (s.scNow / 1024) } := by
  rw [State.chainShown, showPwr_unbased (by rw [show State.takeMean c _ (s.agc c g) = s.agc c g from rfl, base_agc]; exact hb), agc_held hhold]
  rfl

theorem window_chainStat (c : Nat) : windowOf (GNB_CHAIN_STAT c) ≠ 0xC1 :=
  windowOf_gnb (by simp only [GNB_CHAIN_STAT]; omega) (by simp only [GNB_CHAIN_STAT]; omega)

theorem isFlag_jam (c : Nat) : IsFlag (GNB_CHAIN_STAT.JAM c) := ⟨rfl, Nat.le_of_ble_eq_true rfl, window_chainStat c⟩
theorem isFlag_sat (c : Nat) : IsFlag (GNB_CHAIN_STAT.SAT c) := ⟨rfl, Nat.le_of_ble_eq_true rfl, window_chainStat c⟩

theorem only_setGain (v : Nat) (s : State) : s.only [] [GNB_CHAIN_STAT.GAIN c] (s.set (GNB_CHAIN_STAT.GAIN c) v) := only_set _ _ (Nat.le_of_ble_eq_true rfl)
theorem only_setPwr (v : Nat) (s : State) : s.only [] [GNB_CHAIN_STAT.PWR c] (s.set (GNB_CHAIN_STAT.PWR c) v) := only_set _ _ (Nat.le_of_ble_eq_true rfl)

theorem get_setPwr_self {v : Nat} (hv : v < 2 ^ 8) (s : State) : (s.set (GNB_CHAIN_STAT.PWR c) v).get (GNB_CHAIN_STAT.PWR c) = v :=
  (get_set_self _ _ _ (Nat.le_of_ble_eq_true rfl)).trans (Nat.mod_eq_of_lt hv)

/-- What a chain shows whose gain moves. -/
theorem chainShown_moved_reads (hhold : s.getB (GNB_CHAIN_CFG.HOLD c) = false) (hb : some b = baseReported c mean s.gnb.base) (p : Nat) :
    (s.chainShown c g mean p).get (GNB_CHAIN_STAT.PWR c) = min 255 (p - b) ∧
      (s.chainShown c g mean p).get (GNB_CHAIN_STAT.GAIN c) = s.gainReached c g ∧
      (s.chainShown c g mean p).gnb = { s.gnb with
        agcAt := tput s.gnb.agcAt c (s.scNow / 1024), base := basesAfter c b mean s.gnb.base, strobes := s.strobesTaking c (s.gainReached c g) } ∧
      s.only [.gnb] [GNB_CHAIN_STAT.PWR c, GNB_CHAIN_STAT.GAIN c] (s.chainShown c g mean p) := by
  rw [chainShown_moved hhold hb, get_withGnb, get_withGnb]
  refine ⟨get_setPwr_self (by omega) _, ?_, rfl, ?_⟩
  · rw [get_set_apart _ _ _ _ (apart_below (Nat.le_of_ble_eq_true rfl)) (Nat.le_of_ble_eq_true rfl), get_set_self _ _ _ (Nat.le_of_ble_eq_true rfl)]
    exact Nat.mod_eq_of_lt (gainReached_lt c g s)
  · exact only_mono (only_seq (only_seq (only_setGain _ s) (only_setPwr _ _)) (only_withGnb _ _)) (by simp) (by simp)

/-- What a chain shows whose gain is frozen. -/
theorem chainShown_held_reads (hhold : s.getB (GNB_CHAIN_CFG.HOLD c) = true) (hb : some b = baseReported c mean s.gnb.base) (p : Nat) :
    (s.chainShown c g mean p).get (GNB_CHAIN_STAT.PWR c) = min 255 (p - b) ∧
      (s.chainShown c g mean p).gnb = { s.gnb with agcAt := tput s.gnb.agcAt c (s.scNow / 1024), base := basesAfter c b mean s.gnb.base } ∧
      s.only [.gnb] [GNB_CHAIN_STAT.PWR c] (s.chainShown c g mean p) := by
  rw [chainShown_held hhold hb, get_withGnb]
  exact ⟨get_setPwr_self (by omega) _, rfl, only_seq (only_setPwr _ s) (only_withGnb _ _)⟩

theorem free_drawn (s : State) : s.drawn.free = s.free + 1 := rfl
theorem free_withGnb (x : GnbState) (s : State) : (s.withGnb x).free = s.free := rfl

/-- What a chain shows that has no baseline yet. -/
theorem chainShown_unbased_reads (hhold : s.getB (GNB_CHAIN_CFG.HOLD c) = true) (hb : tget s.gnb.base c = none) (p : Nat) :
    (s.chainShown c g none p).get (GNB_CHAIN_STAT.PWR c) = s.fresh 8 ∧ (s.chainShown c g none p).free = s.free + 1 ∧
      (s.chainShown c g none p).gnb = { s.gnb with agcAt := tput s.gnb.agcAt c (s.scNow / 1024) } ∧
      s.only [.gnb, .free] [GNB_CHAIN_STAT.PWR c] (s.chainShown c g none p) := by
  rw [chainShown_unbased hhold hb, get_withGnb, get_of_only_nil (only_drawn _)]
  exact ⟨get_setPwr_self (Nat.mod_lt _ (Nat.two_pow_pos 8)) s, by rw [free_withGnb, free_drawn, set_free], rfl,
    only_mono (only_seq (only_seq (only_setPwr _ s) (only_drawn _)) (only_withGnb _ _)) (by simp) (by simp)⟩

/-! ### SAT and JAM (R274) -/

/-- PWR is more than 15 dB above the baseline. -/
def State.pwrHigh (c : Nat) (s : State) : Bool := decide (60 < s.get (GNB_CHAIN_STAT.PWR c))

/-- The LTC from which PWR has stayed high is noted, or forgotten. -/
def State.noteHigh (c : Nat) (s : State) : State :=
  s.withGnb { s.gnb with jamFrom := if s.pwrHigh c then tput s.gnb.jamFrom c (tgetD s.gnb.jamFrom c s.now) else tdel s.gnb.jamFrom c }

def State.satDue (c clips : Nat) (s : State) : Bool :=
  decide (81840 < 20 * clips) && s.get (GNB_CHAIN_STAT.GAIN c) = 0 && !s.getB (GNB_CHAIN_STAT.SAT c)

def State.jamDue (c : Nat) (s : State) : Bool :=
  s.pwrHigh c && decide (100000000 ≤ s.since (tgetD s.gnb.jamFrom c s.now)) && !s.getB (GNB_CHAIN_STAT.JAM c)

/-- The flags of a chain after the window whose readings it shows. -/
def State.flagChain (c clips : Nat) (s : State) : State :=
  let sat := s.satDue c clips
  let jam := s.jamDue c
  let u := if sat then ((s.noteHigh c).satOn c).setB (GNB_CHAIN_STAT.SAT c) true else s.noteHigh c
  let u := if jam then u.setB (GNB_CHAIN_STAT.JAM c) true else u
  if sat || jam then u.raise 134 else u

theorem execRfInterf_runs {c : Fin 4} {clips : BitVec 17} {power : BitVec 16} {gain : BitVec 8} (h : s.chainRuns c.val = true) :
    exec (.rfInterf c clips power mean gain) s = .next ((s.chainShown c.val gain.toNat mean power.toNat).flagChain c.val clips.toNat) :=
  if_neg (by simp [h])

variable {clips : Nat}

theorem satDue_false (h : 20 * clips ≤ 81840 ∨ s.get (GNB_CHAIN_STAT.GAIN c) ≠ 0) : s.satDue c clips = false := by
  rcases h with h | h
  · simp [State.satDue, Nat.not_lt.2 h]
  · simp [State.satDue, h]

theorem jamDue_flagged (h : s.getB (GNB_CHAIN_STAT.JAM c) = true) : s.jamDue c = false := by simp [State.jamDue, h]

theorem jamDue_low (h : s.get (GNB_CHAIN_STAT.PWR c) ≤ 60) : s.jamDue c = false := by simp [State.jamDue, State.pwrHigh, Nat.not_lt.2 h]

/-- PWR that has only now risen has not stayed high. -/
theorem jamDue_fresh (h : tget s.gnb.jamFrom c = none) : s.jamDue c = false := by
  have hsince : s.since s.now = 0 := by simp only [State.since]; omega
  simp [State.jamDue, tgetD, h, hsince]

theorem flagChain_quiet (hsat : s.satDue c clips = false) (hjam : s.jamDue c = false) : s.flagChain c clips = s.noteHigh c := by
  simp [State.flagChain, hsat, hjam]

theorem flagChain_jam (hsat : s.satDue c clips = false) (hhigh : 60 < s.get (GNB_CHAIN_STAT.PWR c)) {t0 : Nat} (hfrom : tget s.gnb.jamFrom c = some t0)
    (hlong : 100000000 ≤ s.since t0) (hflag : s.getB (GNB_CHAIN_STAT.JAM c) = false) :
    s.flagChain c clips = (s.noteHigh c).changeBit 134 (GNB_CHAIN_STAT.JAM c) true := by
  have hjam : s.jamDue c = true := by simp [State.jamDue, State.pwrHigh, hhigh, tgetD, hfrom, hlong, hflag]
  rw [changeBit_changed (by rw [State.noteHigh, getB_withGnb, hflag]; decide)]
  simp [State.flagChain, hsat, hjam]

theorem flagChain_sat (hclips : 81840 < 20 * clips) (hgain : s.get (GNB_CHAIN_STAT.GAIN c) = 0) (hflag : s.getB (GNB_CHAIN_STAT.SAT c) = false)
    (hjam : s.jamDue c = false) : s.flagChain c clips = ((s.noteHigh c).satOn c).changeBit 134 (GNB_CHAIN_STAT.SAT c) true := by
  have hsat : s.satDue c clips = true := by simp [State.satDue, hclips, hgain, hflag]
  rw [changeBit_changed (by rw [show ((s.noteHigh c).satOn c).getB _ = s.getB _ from rfl, hflag]; decide)]
  simp [State.flagChain, hsat, hjam]

theorem gnb_changeBit {n : Nat} {f : Fld} (hf : IsFlag f) (v : Bool) (s : State) : (s.changeBit n f v).gnb = s.gnb :=
  (only_changeBit hf n v s).1 .gnb (by simp)

/-- A flag of a chain that goes to 1 behind what the report shows. -/
theorem chainFlag_shows {f : Fld} {fs : List Fld} {v : State} (hf : IsFlag f) (hv : s.only [.gnb] fs v) (hw : ∀ g ∈ fs, windowOf g.addr ≠ 0xC1)
    (h0 : v.getB f = false) :
    (v.changeBit 134 f true).getB f = true ∧ s.raised 134 (v.changeBit 134 f true) ∧
      s.only [.rcd, .cyc, .gnb] (f :: fs ++ raiseFlds 134) (v.changeBit 134 f true) := by
  refine ⟨getB_changeBit_self hf 134 true v, raised_of_only hv (by simp) hw (raised_changeBit hf (by rw [h0]; decide)), ?_⟩
  exact only_mono (only_seq hv (only_changeBit hf 134 true v)) (by simp) (by simp +contextual [or_imp])

theorem window_shown : ∀ g ∈ [GNB_CHAIN_STAT.PWR c, GNB_CHAIN_STAT.GAIN c], windowOf g.addr ≠ 0xC1 := by
  intro g hg
  rcases List.mem_pair.1 hg with rfl | rfl <;> exact window_chainStat c

variable {u : State}

theorem only_noteHigh (c : Nat) (s : State) : s.only [.gnb] [] (s.noteHigh c) := only_withGnb _ s

/-- 100 ms of PWR above 15 dB set JAM. -/
theorem flagChain_jam_shows {t0 : Nat} (hu : s.only [.gnb] [GNB_CHAIN_STAT.PWR c, GNB_CHAIN_STAT.GAIN c] u)
    (hquiet : 20 * clips ≤ 81840 ∨ u.get (GNB_CHAIN_STAT.GAIN c) ≠ 0) (hhigh : 60 < u.get (GNB_CHAIN_STAT.PWR c)) (hfrom : tget u.gnb.jamFrom c = some t0)
    (hlong : 100000000 ≤ s.since t0) (hflag : s.getB (GNB_CHAIN_STAT.JAM c) = false) :
    let t := u.flagChain c clips
    t.getB (GNB_CHAIN_STAT.JAM c) = true ∧ t.get (GNB_CHAIN_STAT.PWR c) = u.get (GNB_CHAIN_STAT.PWR c) ∧
      t.get (GNB_CHAIN_STAT.GAIN c) = u.get (GNB_CHAIN_STAT.GAIN c) ∧ s.raised 134 t ∧ t.gnb = { u.gnb with jamFrom := t.gnb.jamFrom } ∧
      s.only [.rcd, .cyc, .gnb] ([GNB_CHAIN_STAT.JAM c, GNB_CHAIN_STAT.PWR c, GNB_CHAIN_STAT.GAIN c] ++ raiseFlds 134) t := by
  have hu0 : u.getB (GNB_CHAIN_STAT.JAM c) = false := (getB_of_get (hu.2.1 _ (apart_of_above rfl))).trans hflag
  have hnow : u.now = s.now := now_of_ltc (hu.1 .ltc (by simp))
  have hsince : u.since t0 = s.since t0 := by simp only [State.since, hnow]
  have hv : s.only [.gnb] [GNB_CHAIN_STAT.PWR c, GNB_CHAIN_STAT.GAIN c] (u.noteHigh c) := only_trans hu (only_mono (only_noteHigh c u) (by simp) (by simp))
  obtain ⟨hset, hraised, honly⟩ := chainFlag_shows (isFlag_jam c) hv window_shown hu0
  have hkept {x : Fld} (hx : x.lo + x.width ≤ 30) (hw : windowOf x.addr ≠ 0xC1) :
      ((u.noteHigh c).changeBit 134 (GNB_CHAIN_STAT.JAM c) true).get x = u.get x :=
    get_changeBit_apart (isFlag_jam c) _ _ _ (apart_below hx) hw
  rw [flagChain_jam (satDue_false hquiet) hhigh hfrom (by rw [hsince]; exact hlong) hu0]
  refine ⟨hset, hkept (Nat.le_of_ble_eq_true rfl) (window_chainStat c), hkept (Nat.le_of_ble_eq_true rfl) (window_chainStat c), hraised, ?_, honly⟩
  rw [gnb_changeBit (isFlag_jam c)]
  rfl

/-- Clipping at gain 0 sets SAT. -/
theorem flagChain_sat_shows (hu : s.only [.gnb] [GNB_CHAIN_STAT.PWR c, GNB_CHAIN_STAT.GAIN c] u) (hclips : 81840 < 20 * clips)
    (hgain : u.get (GNB_CHAIN_STAT.GAIN c) = 0) (hlow : u.get (GNB_CHAIN_STAT.PWR c) ≤ 60) (hflag : s.getB (GNB_CHAIN_STAT.SAT c) = false) :
    let t := u.flagChain c clips
    t.getB (GNB_CHAIN_STAT.SAT c) = true ∧ t.get (GNB_CHAIN_STAT.PWR c) = u.get (GNB_CHAIN_STAT.PWR c) ∧
      t.get (GNB_CHAIN_STAT.GAIN c) = u.get (GNB_CHAIN_STAT.GAIN c) ∧ s.raised 134 t ∧
      t.gnb = { u.gnb with jamFrom := tdel u.gnb.jamFrom c, sats := u.gnb.sats ++ [(c, u.scNow, none)] } ∧
      s.only [.rcd, .cyc, .gnb] ([GNB_CHAIN_STAT.SAT c, GNB_CHAIN_STAT.PWR c, GNB_CHAIN_STAT.GAIN c] ++ raiseFlds 134) t := by
  have hu0 : u.getB (GNB_CHAIN_STAT.SAT c) = false := (getB_of_get (hu.2.1 _ (apart_of_above rfl))).trans hflag
  have hhigh : u.pwrHigh c = false := by simp [State.pwrHigh, Nat.not_lt.2 hlow]
  have hv : s.only [.gnb] [GNB_CHAIN_STAT.PWR c, GNB_CHAIN_STAT.GAIN c] ((u.noteHigh c).satOn c) :=
    only_trans hu (only_mono (only_withGnb _ u) (by simp) (by simp))
  obtain ⟨hset, hraised, honly⟩ := chainFlag_shows (isFlag_sat c) hv window_shown hu0
  have hkept {x : Fld} (hx : x.lo + x.width ≤ 31) (hw : windowOf x.addr ≠ 0xC1) :
      (((u.noteHigh c).satOn c).changeBit 134 (GNB_CHAIN_STAT.SAT c) true).get x = u.get x :=
    get_changeBit_apart (isFlag_sat c) _ _ _ (apart_below hx) hw
  rw [flagChain_sat hclips hgain hu0 (jamDue_low hlow)]
  refine ⟨hset, hkept (Nat.le_of_ble_eq_true rfl) (window_chainStat c), hkept (Nat.le_of_ble_eq_true rfl) (window_chainStat c), hraised, ?_, honly⟩
  rw [gnb_changeBit (isFlag_sat c)]
  simp [State.satOn, State.noteHigh, State.withGnb, hhigh, State.scNow, State.gnsNs, State.now]

end Chain

/-! What a report of a chain comes to -/

section Report
variable {c g p clips b t0 : Nat} {mean : Option (BitVec 16)} {s : State}

/-- PWR that has stayed over 15 dB for 100 ms, of a chain whose gain the AGC moves. -/
theorem chain_jams (hhold : s.getB (GNB_CHAIN_CFG.HOLD c) = false) (hb : some b = baseReported c mean s.gnb.base)
    (hquiet : 20 * clips ≤ 81840 ∨ s.gainReached c g ≠ 0) (hhigh : 60 < min 255 (p - b)) (hfrom : tget s.gnb.jamFrom c = some t0)
    (hlong : 100000000 ≤ s.since t0) (hflag : s.getB (GNB_CHAIN_STAT.JAM c) = false) :
    let t := (s.chainShown c g mean p).flagChain c clips
    t.getB (GNB_CHAIN_STAT.JAM c) = true ∧ t.get (GNB_CHAIN_STAT.PWR c) = min 255 (p - b) ∧ t.get (GNB_CHAIN_STAT.GAIN c) = s.gainReached c g ∧
      s.raised 134 t ∧ t.gnb = { s.gnb with
        agcAt := tput s.gnb.agcAt c (s.scNow / 1024), base := basesAfter c b mean s.gnb.base, jamFrom := t.gnb.jamFrom, sats := t.gnb.sats, strobes := t.gnb.strobes } ∧
      t.gnb.sats = s.gnb.sats ∧ t.gnb.strobes = s.strobesTaking c (t.get (GNB_CHAIN_STAT.GAIN c)) ∧
      s.only [.rcd, .cyc, .gnb] ([GNB_CHAIN_STAT.JAM c, GNB_CHAIN_STAT.PWR c, GNB_CHAIN_STAT.GAIN c] ++ raiseFlds 134) t := by
  obtain ⟨hpwr, hgain, hgnb, honly⟩ := chainShown_moved_reads (g := g) hhold hb p
  rw [← hgain] at hquiet
  rw [← hpwr] at hhigh
  obtain ⟨hjam, hp, hg, hraised, ht, ho⟩ := flagChain_jam_shows honly hquiet hhigh (by rw [hgnb]; exact hfrom) hlong hflag
  rw [hgnb] at ht
  refine ⟨hjam, hp.trans hpwr, hg.trans hgain, hraised, ?_, (congrArg GnbState.sats ht :), ?_, ho⟩
  · rw [ht]
  · rw [hg.trans hgain]; exact (congrArg GnbState.strobes ht :)

/-- Clipping of a chain whose gain has reached 0. -/
theorem chain_saturates (hhold : s.getB (GNB_CHAIN_CFG.HOLD c) = false) (hb : some b = baseReported c mean s.gnb.base)
    (hclips : 81840 < 20 * clips) (hzero : s.gainReached c g = 0) (hlow : min 255 (p - b) ≤ 60) (hflag : s.getB (GNB_CHAIN_STAT.SAT c) = false) :
    let t := (s.chainShown c g mean p).flagChain c clips
    t.getB (GNB_CHAIN_STAT.SAT c) = true ∧ t.get (GNB_CHAIN_STAT.PWR c) = min 255 (p - b) ∧ t.get (GNB_CHAIN_STAT.GAIN c) = 0 ∧
      s.raised 134 t ∧ t.gnb = { s.gnb with
        agcAt := tput s.gnb.agcAt c (s.scNow / 1024), base := basesAfter c b mean s.gnb.base, jamFrom := t.gnb.jamFrom, sats := t.gnb.sats, strobes := t.gnb.strobes } ∧
      t.gnb.sats = s.gnb.sats ++ [(c, s.scNow, none)] ∧ tget t.gnb.jamFrom c = none ∧ t.gnb.strobes = s.strobesTaking c (t.get (GNB_CHAIN_STAT.GAIN c)) ∧
      s.only [.rcd, .cyc, .gnb] ([GNB_CHAIN_STAT.SAT c, GNB_CHAIN_STAT.PWR c, GNB_CHAIN_STAT.GAIN c] ++ raiseFlds 134) t := by
  obtain ⟨hpwr, hgain, hgnb, honly⟩ := chainShown_moved_reads (g := g) hhold hb p
  rw [← hpwr] at hlow
  have hsc : (s.chainShown c g mean p).scNow = s.scNow := by
    rw [State.scNow, State.gnsNs, hgnb, now_of_ltc (honly.1 .ltc (by simp))]; rfl
  obtain ⟨hsat, hp, hg, hraised, ht, ho⟩ := flagChain_sat_shows honly hclips (hgain.trans hzero) hlow hflag
  rw [hsc, hgnb] at ht
  refine ⟨hsat, hp.trans hpwr, hg.trans (hgain.trans hzero), hraised, ?_, (congrArg GnbState.sats ht :), ?_, ?_, ho⟩
  · rw [ht]
  · rw [ht]; exact tget_tdel_self ..
  · rw [hg.trans hgain]; exact (congrArg GnbState.strobes ht :)

/-- PWR over 15 dB in its first window, of a chain on hold. -/
theorem chain_rises (hhold : s.getB (GNB_CHAIN_CFG.HOLD c) = true) (hb : some b = baseReported c mean s.gnb.base)
    (hquiet : 20 * clips ≤ 81840 ∨ s.get (GNB_CHAIN_STAT.GAIN c) ≠ 0) (hhigh : 60 < min 255 (p - b)) (hfrom : tget s.gnb.jamFrom c = none) :
    let t := (s.chainShown c g mean p).flagChain c clips
    t.get (GNB_CHAIN_STAT.PWR c) = min 255 (p - b) ∧
      t.gnb = { s.gnb with agcAt := tput s.gnb.agcAt c (s.scNow / 1024), base := basesAfter c b mean s.gnb.base, jamFrom := tput s.gnb.jamFrom c s.now } ∧
      s.only [.gnb] [GNB_CHAIN_STAT.PWR c] t := by
  obtain ⟨hpwr, hgnb, honly⟩ := chainShown_held_reads (g := g) hhold hb p
  have hgain : (s.chainShown c g mean p).get (GNB_CHAIN_STAT.GAIN c) = s.get (GNB_CHAIN_STAT.GAIN c) :=
    honly.2.1 _ fun f hf => List.mem_singleton.1 hf ▸ apart_below (Nat.le_of_ble_eq_true rfl)
  have hnow : (s.chainShown c g mean p).now = s.now := now_of_ltc (honly.1 .ltc (by simp))
  generalize s.chainShown c g mean p = u at hpwr hgnb honly hgain hnow
  have hu : tget u.gnb.jamFrom c = none := by rw [hgnb]; exact hfrom
  have hpwrHigh : u.pwrHigh c = true := by rw [State.pwrHigh, hpwr]; exact decide_eq_true hhigh
  rw [flagChain_quiet (satDue_false (hgain ▸ hquiet)) (jamDue_fresh hu)]
  refine ⟨hpwr, ?_, only_trans honly (only_mono (only_noteHigh c u) (by simp) (by simp))⟩
  rw [State.noteHigh, gnb_withGnb, if_pos hpwrHigh, tgetD, hu, hnow, hgnb]
  rfl

/-- A chain without a baseline reads a free PWR. -/
theorem chain_unbased (hhold : s.getB (GNB_CHAIN_CFG.HOLD c) = true) (hb : tget s.gnb.base c = none)
    (hquiet : 20 * clips ≤ 81840 ∨ s.get (GNB_CHAIN_STAT.GAIN c) ≠ 0) (hflag : s.getB (GNB_CHAIN_STAT.JAM c) = true) :
    let t := (s.chainShown c g none p).flagChain c clips
    t.get (GNB_CHAIN_STAT.PWR c) = s.fresh 8 ∧ t.free = s.free + 1 ∧
      t.gnb = { s.gnb with agcAt := tput s.gnb.agcAt c (s.scNow / 1024), jamFrom := t.gnb.jamFrom } ∧ s.only [.gnb, .free] [GNB_CHAIN_STAT.PWR c] t := by
  obtain ⟨hpwr, hfree, hgnb, honly⟩ := chainShown_unbased_reads (g := g) hhold hb p
  have hgain : (s.chainShown c g none p).get (GNB_CHAIN_STAT.GAIN c) = s.get (GNB_CHAIN_STAT.GAIN c) :=
    honly.2.1 _ fun f hf => List.mem_singleton.1 hf ▸ apart_below (Nat.le_of_ble_eq_true rfl)
  have hjam : (s.chainShown c g none p).getB (GNB_CHAIN_STAT.JAM c) = true := (getB_of_get (honly.2.1 _ (apart_of_above rfl))).trans hflag
  generalize s.chainShown c g none p = u at hpwr hfree hgnb honly hgain hjam
  rw [flagChain_quiet (satDue_false (hgain ▸ hquiet)) (jamDue_flagged hjam)]
  refine ⟨hpwr, hfree, ?_, only_trans honly (only_mono (only_noteHigh c u) (by simp) (by simp))⟩
  rw [State.noteHigh, gnb_withGnb, hgnb]

end Report

/-! ### Notches (R275) -/

section Notch
variable {c j k : Nat} {s : State}

theorem window_notch (c j : Nat) : windowOf (GNB_NOTCH c j) ≠ 0xC1 :=
  windowOf_gnb (by simp only [GNB_NOTCH]; omega) (by simp only [GNB_NOTCH]; omega)

theorem isFlag_lock (c j : Nat) : IsFlag (GNB_NOTCH.LOCK c j) := ⟨rfl, Nat.le_of_ble_eq_true rfl, window_notch c j⟩

/-- A MODE 2 notch takes the interferer it is left: it locks to its frequency, or to none. -/
def State.pointNotch (c j : Nat) (o : Option (Nat × Nat)) (s : State) : State :=
  match o with
  | none => s.setLock c j false
  | some x => (s.setLock c j true).set (GNB_NOTCH.FREQ c j) x.1

theorem only_setLock (c j : Nat) (v : Bool) (s : State) : s.only [.rcd, .cyc] (GNB_NOTCH.LOCK c j :: raiseFlds 135) (s.setLock c j v) :=
  only_changeBit (isFlag_lock c j) 135 v s

theorem only_setFreq (c j v : Nat) (s : State) : s.only [] [GNB_NOTCH.FREQ c j] (s.set (GNB_NOTCH.FREQ c j) v) := only_set _ _ (Nat.le_of_ble_eq_true rfl)

theorem only_pointNotch_some (x : Nat × Nat) (s : State) :
    s.only [.rcd, .cyc] ([GNB_NOTCH.LOCK c j, GNB_NOTCH.FREQ c j] ++ raiseFlds 135) (s.pointNotch c j (some x)) :=
  only_mono (only_seq (only_setLock c j true s) (only_setFreq c j x.1 _)) (by simp) (by simp +contextual [or_imp])

theorem only_pointNotch (o : Option (Nat × Nat)) (s : State) :
    s.only [.rcd, .cyc] ([GNB_NOTCH.LOCK c j, GNB_NOTCH.FREQ c j] ++ raiseFlds 135) (s.pointNotch c j o) := by
  cases o with
  | none => exact only_mono (only_setLock c j false s) (fun _ h => h) (by simp +contextual [or_imp])
  | some x => exact only_pointNotch_some x s

theorem get_mode_pointNotch (o : Option (Nat × Nat)) (i : Nat) (s : State) : (s.pointNotch c j o).get (GNB_NOTCH.MODE c i) = s.get (GNB_NOTCH.MODE c i) := by
  refine (only_pointNotch o s).2.1 _ fun f hf => ?_
  rcases List.mem_append.1 hf with hf | hf
  · exact apart_of_above (fs := [GNB_NOTCH.LOCK c j, GNB_NOTCH.FREQ c j]) rfl f hf
  · exact apart_raiseFlds (window_notch c i) 135 f hf

theorem getB_lock_pointNotch (o : Option (Nat × Nat)) (s : State) : (s.pointNotch c j o).getB (GNB_NOTCH.LOCK c j) = o.isSome := by
  cases o with
  | none => exact getB_changeBit_self (isFlag_lock c j) 135 false s
  | some x =>
    exact (getB_of_get (get_set_apart _ _ _ _ (apart_above (Nat.le_of_ble_eq_true rfl)) (Nat.le_of_ble_eq_true rfl))).trans
      (getB_changeBit_self (isFlag_lock c j) 135 true s)

theorem get_freq_pointNotch {x : Nat × Nat} (hx : x.1 < 2 ^ 13) (s : State) : (s.pointNotch c j (some x)).get (GNB_NOTCH.FREQ c j) = x.1 :=
  (get_set_self _ _ _ (Nat.le_of_ble_eq_true rfl)).trans (Nat.mod_eq_of_lt hx)

/-- A notch that gains or loses its interferer raises 135. -/
theorem raised_pointNotch {o : Option (Nat × Nat)} (h : s.getB (GNB_NOTCH.LOCK c j) ≠ o.isSome) : s.raised 135 (s.pointNotch c j o) := by
  cases o with
  | none => exact raised_changeBit (isFlag_lock c j) h
  | some x =>
    refine raised_mono (raised_changeBit (isFlag_lock c j) (v := true) h) fun a ha => reg_set_ne _ _ fun he => window_notch c j ?_
    rw [← windowOf_raiseRegs ha, he]; rfl

/-! A chain's notches in turn -/

theorem follow_skip {js : List Nat} (l : List (Nat × Nat)) (h : s.get (GNB_NOTCH.MODE c j) ≠ 2) : s.follow c (j :: js) l = s.follow c js l :=
  if_pos h

theorem follow_point {js : List Nat} (l : List (Nat × Nat)) (h : s.get (GNB_NOTCH.MODE c j) = 2) :
    s.follow c (j :: js) l = (s.pointNotch c j l.head?).follow c js l.tail :=
  (if_neg (not_not.2 h)).trans (by cases l <;> rfl)

theorem follow_none {js : List Nat} (l : List (Nat × Nat)) (h : ∀ i ∈ js, s.get (GNB_NOTCH.MODE c i) ≠ 2) : s.follow c js l = s := by
  induction js with
  | nil => rfl
  | cons i js ih => rw [follow_skip l (h i List.mem_cons_self), ih fun x hx => h x (List.mem_cons_of_mem i hx)]

/-- The one MODE 2 notch of a chain takes the strongest interferer. -/
theorem follow_one {js : List Nat} (l : List (Nat × Nat)) (hs : js.Pairwise (· < ·)) (hj : j ∈ js) (hm : s.get (GNB_NOTCH.MODE c j) = 2)
    (ho : ∀ i ∈ js, i ≠ j → s.get (GNB_NOTCH.MODE c i) ≠ 2) : s.follow c js l = s.pointNotch c j l.head? := by
  induction js with
  | nil => cases hj
  | cons i js ih =>
    obtain ⟨hi, hs⟩ := List.pairwise_cons.1 hs
    by_cases hij : i = j
    · subst hij
      rw [follow_point l hm, follow_none]
      intro x hx
      rw [get_mode_pointNotch]
      exact ho x (List.mem_cons_of_mem i hx) (Nat.ne_of_gt (hi x hx))
    · rw [follow_skip l (ho i List.mem_cons_self hij)]
      exact ih hs ((List.mem_cons.1 hj).resolve_left (Ne.symm hij)) fun x hx => ho x (List.mem_cons_of_mem i hx)

/-- Of two MODE 2 notches the lower takes the strongest interferer and the other the next. -/
theorem follow_two {js : List Nat} (l : List (Nat × Nat)) (hs : js.Pairwise (· < ·)) (hj : j ∈ js) (hk : k ∈ js) (hjk : j < k)
    (hmj : s.get (GNB_NOTCH.MODE c j) = 2) (hmk : s.get (GNB_NOTCH.MODE c k) = 2)
    (ho : ∀ i ∈ js, i ≠ j → i ≠ k → s.get (GNB_NOTCH.MODE c i) ≠ 2) :
    s.follow c js l = (s.pointNotch c j l.head?).pointNotch c k l.tail.head? := by
  induction js with
  | nil => cases hj
  | cons i js ih =>
    obtain ⟨hi, hs⟩ := List.pairwise_cons.1 hs
    by_cases hij : i = j
    · subst hij
      rw [follow_point l hmj]
      refine follow_one l.tail hs ((List.mem_cons.1 hk).resolve_left (Nat.ne_of_gt hjk)) ((get_mode_pointNotch ..).trans hmk) fun x hx hxk => ?_
      rw [get_mode_pointNotch]
      exact ho x (List.mem_cons_of_mem i hx) (Nat.ne_of_gt (hi x hx)) hxk
    · have hj' := (List.mem_cons.1 hj).resolve_left (Ne.symm hij)
      have hik : i ≠ k := Nat.ne_of_lt (Nat.lt_trans (hi j hj') hjk)
      rw [follow_skip l (ho i List.mem_cons_self hij hik)]
      exact ih hs hj' ((List.mem_cons.1 hk).resolve_left (Ne.symm hik)) fun x hx => ho x (List.mem_cons_of_mem i hx)

/-- The interferers of a chain after a report, and its notches behind them. -/
def State.noteInterf (c : Nat) (l : List (Nat × Nat)) (s : State) : State := s.withGnb { s.gnb with interf := tput s.gnb.interf c l }

theorem refollow_runs (h : s.chainRuns c = true) : s.refollow c = s.follow c (List.range 4) (tgetD s.gnb.interf c []) := if_pos h

theorem refollow_noteInterf (h : s.chainRuns c = true) (l : List (Nat × Nat)) :
    (s.noteInterf c l).refollow c = (s.noteInterf c l).follow c (List.range 4) l := by
  rw [refollow_runs (s := s.noteInterf c l) h, State.noteInterf, gnb_withGnb, tgetD, tget_tput_self, Option.getD_some]

theorem execNotchLock_runs {c : Fin 4} {freq : BitVec 13} {level width : BitVec 8} {l : List (Nat × Nat)} (h : s.chainRuns c.val = true)
    (hl : interferer freq.toNat level.toNat width.toNat (tgetD s.gnb.interf c.val []) = l) :
    exec (.notchLock c freq level width) s = .next ((s.noteInterf c.val l).follow c.val (List.range 4) l) := by
  subst hl
  exact (if_neg (by simp [h])).trans (congrArg Host.Outcome.next (refollow_noteInterf h _))

theorem interferer_first {f level width : Nat} (hl : 10 ≤ level) (hw : width < 100) : interferer f level width [] = [(f, level)] := by
  simp [interferer, hl, hw, putStrong]

theorem interferer_stronger {f p g level width : Nat} (hne : f ≠ g) (hp : 10 ≤ p) (hlt : p < level) (hw : width < 100) :
    interferer g level width [(f, p)] = [(g, level), (f, p)] := by
  simp [interferer, hne, hw, putStrong, hlt, (by omega : 10 ≤ level)]

theorem interferer_gone {f p level width : Nat} (h : level < 10 ∨ 100 ≤ width) : interferer f level width [(f, p)] = [] := by
  have : ¬(10 ≤ level ∧ width < 100) := by omega
  simp [interferer, this]

theorem only_noteInterf (c : Nat) (l : List (Nat × Nat)) (s : State) : s.only [.gnb] [] (s.noteInterf c l) := only_withGnb _ s

theorem gnb_pointNotch (o : Option (Nat × Nat)) (s : State) : (s.pointNotch c j o).gnb = s.gnb := (only_pointNotch o s).1 .gnb (by simp)

/-- A notch reads on while another of its chain moves. -/
theorem get_pointNotch_other (hj : j < 4) (hk : k < 4) (hjk : j ≠ k) (o : Option (Nat × Nat)) (s : State) {g : Fld} (hg : g.addr = GNB_NOTCH c j) :
    (s.pointNotch c k o).get g = s.get g := by
  refine (only_pointNotch o s).2.1 _ fun f hf => ?_
  rcases List.mem_append.1 hf with hf | hf
  · have hne : GNB_NOTCH c j ≠ GNB_NOTCH c k := by simp only [GNB_NOTCH]; omega
    rcases List.mem_pair.1 hf with rfl | rfl <;> exact .inl (hg ▸ hne)
  · exact apart_raiseFlds (hg ▸ window_notch c j) 135 f hf

/-- The one MODE 2 notch of a chain finds an interferer. -/
theorem notch_gains {x : Nat × Nat} (hj : j < 4) (hm : s.get (GNB_NOTCH.MODE c j) = 2) (ho : ∀ i ∈ List.range 4, i ≠ j → s.get (GNB_NOTCH.MODE c i) ≠ 2)
    (hx : x.1 < 2 ^ 13) (hlock : s.getB (GNB_NOTCH.LOCK c j) = false) :
    let t := (s.noteInterf c [x]).follow c (List.range 4) [x]
    t.getB (GNB_NOTCH.LOCK c j) = true ∧ t.get (GNB_NOTCH.FREQ c j) = x.1 ∧ s.raised 135 t ∧
      t.gnb = { s.gnb with interf := tput s.gnb.interf c [x] } ∧
      s.only [.rcd, .cyc, .gnb] ([GNB_NOTCH.LOCK c j, GNB_NOTCH.FREQ c j] ++ raiseFlds 135) t := by
  rw [follow_one (s := s.noteInterf c [x]) [x] List.pairwise_lt_range (List.mem_range.2 hj) hm ho, List.head?_cons]
  have hnote := only_noteInterf c [x] s
  refine ⟨getB_lock_pointNotch _ _, get_freq_pointNotch hx _, raised_of_only hnote (by simp) (by simp) (raised_pointNotch ?_), gnb_pointNotch _ _,
    only_mono (only_seq hnote (only_pointNotch _ _)) (by simp) (fun _ h => h)⟩
  rw [State.noteInterf, getB_withGnb, hlock]
  exact Bool.false_ne_true

/-- The one MODE 2 notch of a chain loses its interferer. -/
theorem notch_loses (hj : j < 4) (hm : s.get (GNB_NOTCH.MODE c j) = 2) (ho : ∀ i ∈ List.range 4, i ≠ j → s.get (GNB_NOTCH.MODE c i) ≠ 2)
    (hlock : s.getB (GNB_NOTCH.LOCK c j) = true) :
    let t := (s.noteInterf c []).follow c (List.range 4) []
    t.getB (GNB_NOTCH.LOCK c j) = false ∧ s.raised 135 t ∧ t.gnb = { s.gnb with interf := tput s.gnb.interf c [] } ∧
      s.only [.rcd, .cyc, .gnb] ([GNB_NOTCH.LOCK c j] ++ raiseFlds 135) t := by
  rw [follow_one (s := s.noteInterf c []) [] List.pairwise_lt_range (List.mem_range.2 hj) hm ho, List.head?_nil]
  have hnote := only_noteInterf c [] s
  refine ⟨getB_lock_pointNotch _ _, raised_of_only hnote (by simp) (by simp) (raised_pointNotch ?_), gnb_pointNotch _ _,
    only_mono (only_seq hnote (only_setLock c j false _)) (by simp) (fun _ h => h)⟩
  rw [State.noteInterf, getB_withGnb, hlock]
  decide

/-- Two MODE 2 notches of a chain and two interferers, the stronger first. -/
theorem notches_share {x y : Nat × Nat} (hk : k < 4) (hjk : j < k) (hmj : s.get (GNB_NOTCH.MODE c j) = 2) (hmk : s.get (GNB_NOTCH.MODE c k) = 2)
    (ho : ∀ i ∈ List.range 4, i ≠ j → i ≠ k → s.get (GNB_NOTCH.MODE c i) ≠ 2) (hx : x.1 < 2 ^ 13) (hy : y.1 < 2 ^ 13) :
    let t := (s.noteInterf c [x, y]).follow c (List.range 4) [x, y]
    t.getB (GNB_NOTCH.LOCK c j) = true ∧ t.get (GNB_NOTCH.FREQ c j) = x.1 ∧ t.getB (GNB_NOTCH.LOCK c k) = true ∧ t.get (GNB_NOTCH.FREQ c k) = y.1 ∧
      t.gnb = { s.gnb with interf := tput s.gnb.interf c [x, y] } ∧
      s.only [.rcd, .cyc, .gnb] ([GNB_NOTCH.LOCK c j, GNB_NOTCH.FREQ c j, GNB_NOTCH.LOCK c k, GNB_NOTCH.FREQ c k] ++ raiseFlds 135) t := by
  have hj : j < 4 := by omega
  rw [follow_two (s := s.noteInterf c [x, y]) [x, y] List.pairwise_lt_range (List.mem_range.2 hj) (List.mem_range.2 hk) hjk hmj hmk ho,
    List.head?_cons, List.tail_cons, List.head?_cons]
  have hkept {g : Fld} (hg : g.addr = GNB_NOTCH c j) (u : State) : (u.pointNotch c k (some y)).get g = u.get g :=
    get_pointNotch_other hj hk (Nat.ne_of_lt hjk) _ u hg
  refine ⟨(getB_of_get (hkept rfl _)).trans (getB_lock_pointNotch _ _), (hkept rfl _).trans (get_freq_pointNotch hx _), getB_lock_pointNotch _ _,
    get_freq_pointNotch hy _, (gnb_pointNotch _ _).trans (gnb_pointNotch _ _), ?_⟩
  exact only_mono (only_seq (only_noteInterf c _ s) (only_seq (only_pointNotch _ _) (only_pointNotch _ _))) (by simp) (by simp +contextual [or_imp])

end Notch

/-! ### Antennas (R276) -/

section Ant
variable {a ma : Nat} {s : State}

theorem window_ant (a : Nat) : windowOf (GNB_ANT a) ≠ 0xC1 := windowOf_gnb (by simp only [GNB_ANT]; omega) (by simp only [GNB_ANT]; omega)

theorem isFlag_on (a : Nat) : IsFlag (GNB_ANT.ON a) := ⟨rfl, Nat.le_of_ble_eq_true rfl, window_ant a⟩
theorem isFlag_open (a : Nat) : IsFlag (GNB_ANT.OPEN a) := ⟨rfl, Nat.le_of_ble_eq_true rfl, window_ant a⟩
theorem isFlag_short (a : Nat) : IsFlag (GNB_ANT.SHORT a) := ⟨rfl, Nat.le_of_ble_eq_true rfl, window_ant a⟩
theorem isFlag_biasEn (a : Nat) : IsFlag (GNB_ANT.BIAS_EN a) := ⟨rfl, Nat.le_of_ble_eq_true rfl, window_ant a⟩

theorem only_setMa (a v : Nat) (s : State) : s.only [] [GNB_ANT.MA a] (s.set (GNB_ANT.MA a) v) := only_set _ _ (Nat.le_of_ble_eq_true rfl)

theorem get_setMa_self {v : Nat} (hv : v < 2 ^ 8) (s : State) : (s.set (GNB_ANT.MA a) v).get (GNB_ANT.MA a) = v :=
  (get_set_self _ _ _ (Nat.le_of_ble_eq_true rfl)).trans (Nat.mod_eq_of_lt hv)

theorem get_setB_above {f g : Fld} (hf : IsFlag f) (h : f.lo + f.width ≤ g.lo) (v : Bool) (s : State) : (s.setB f v).get g = s.get g :=
  get_setB_apart _ _ _ _ (apart_above h) hf.top

theorem get_setB_below {f g : Fld} (hf : IsFlag f) (h : g.lo + g.width ≤ f.lo) (v : Bool) (s : State) : (s.setB f v).get g = s.get g :=
  get_setB_apart _ _ _ _ (apart_below h) hf.top

/-- The bias of an antenna is off: no current, and OPEN, which follows the current, is clear. -/
def State.cutBias (a : Nat) (s : State) : State := ((s.set (GNB_ANT.MA a) 0).setB (GNB_ANT.ON a) false).setB (GNB_ANT.OPEN a) false

theorem cutBias_shows (a : Nat) (s : State) : (s.cutBias a).getB (GNB_ANT.ON a) = false ∧ (s.cutBias a).getB (GNB_ANT.OPEN a) = false ∧
    (s.cutBias a).get (GNB_ANT.MA a) = 0 ∧ s.only [] [GNB_ANT.MA a, GNB_ANT.ON a, GNB_ANT.OPEN a] (s.cutBias a) := by
  have hon := isFlag_on a
  have hopen := isFlag_open a
  refine ⟨?_, getB_setB_self _ _ _ hopen.top rfl, ?_, only_seq (only_seq (only_setMa a 0 s) (only_setB_flag hon _ _)) (only_setB_flag hopen _ _)⟩
  · exact (getB_of_get (get_setB_above hopen (Nat.le_of_ble_eq_true rfl) _ _)).trans (getB_setB_self _ _ _ hon.top rfl)
  · rw [State.cutBias, get_setB_below hopen (Nat.le_of_ble_eq_true rfl), get_setB_below hon (Nat.le_of_ble_eq_true rfl), get_setMa_self (by decide)]

theorem biasCurrent_short (hon : s.getB (GNB_ANT.ON a) = true) (hma : 150 < ma) (hshort : s.getB (GNB_ANT.SHORT a) = false) :
    s.biasCurrent a ma = (s.cutBias a).changeBit 133 (GNB_ANT.SHORT a) true := by
  have hcut : (s.cutBias a).getB (GNB_ANT.SHORT a) = false :=
    (getB_of_get ((cutBias_shows a s).2.2.2.2.1 _ (by simp [Fld.apart, GNB_ANT.SHORT, GNB_ANT.MA, GNB_ANT.ON, GNB_ANT.OPEN]))).trans hshort
  rw [changeBit_changed (by rw [hcut]; decide)]
  simp [State.biasCurrent, hon, hma, hshort, State.cutBias]

theorem biasCurrent_open (hon : s.getB (GNB_ANT.ON a) = true) (hma : ma < 2) (hopen : s.getB (GNB_ANT.OPEN a) = false) :
    s.biasCurrent a ma = (s.set (GNB_ANT.MA a) ma).changeBit 133 (GNB_ANT.OPEN a) true := by
  have hset : (s.set (GNB_ANT.MA a) ma).getB (GNB_ANT.OPEN a) = false :=
    (getB_of_get ((only_setMa a ma s).2.1 _ (apart_of_above rfl))).trans hopen
  rw [changeBit_changed (by rw [hset]; decide)]
  rw [State.biasCurrent, if_neg (by simp [hon]), if_neg (by omega), if_pos hma]
  simp [hopen]

theorem biasCurrent_fed (hon : s.getB (GNB_ANT.ON a) = true) (hlo : 2 ≤ ma) (hhi : ma ≤ 150) :
    s.biasCurrent a ma = (s.set (GNB_ANT.MA a) ma).setB (GNB_ANT.OPEN a) false := by
  simp [State.biasCurrent, hon, Nat.not_lt.2 hlo, Nat.not_lt.2 hhi]

/-- Over 150 mA (R45). -/
theorem antFault_shorts (hon : s.getB (GNB_ANT.ON a) = true) (hma : 150 < ma) (hshort : s.getB (GNB_ANT.SHORT a) = false) :
    let t := s.biasCurrent a ma
    t.getB (GNB_ANT.ON a) = false ∧ t.getB (GNB_ANT.SHORT a) = true ∧ t.getB (GNB_ANT.OPEN a) = false ∧ t.get (GNB_ANT.MA a) = 0 ∧ s.raised 133 t ∧
      s.only [.rcd, .cyc] ([GNB_ANT.ON a, GNB_ANT.SHORT a, GNB_ANT.OPEN a, GNB_ANT.MA a] ++ raiseFlds 133) t := by
  obtain ⟨hoff, hopen, hzero, honly⟩ := cutBias_shows a s
  have hf := isFlag_short a
  have hcut : (s.cutBias a).getB (GNB_ANT.SHORT a) = false :=
    (getB_of_get (honly.2.1 _ (by simp [Fld.apart, GNB_ANT.SHORT, GNB_ANT.MA, GNB_ANT.ON, GNB_ANT.OPEN]))).trans hshort
  rw [biasCurrent_short hon hma hshort]
  have hkept {g : Fld} (h : g.apart (GNB_ANT.SHORT a)) (hg : windowOf g.addr ≠ 0xC1) :=
    get_changeBit_apart hf 133 true (s.cutBias a) h hg
  refine ⟨(getB_of_get (hkept (apart_above (Nat.le_of_ble_eq_true rfl)) (window_ant a))).trans hoff, getB_changeBit_self hf _ _ _,
    (getB_of_get (hkept (apart_above (Nat.le_of_ble_eq_true rfl)) (window_ant a))).trans hopen,
    (hkept (apart_below (Nat.le_of_ble_eq_true rfl)) (window_ant a)).trans hzero,
    raised_of_only honly (by simp) ?_ (raised_changeBit hf (by rw [hcut]; decide)),
    only_mono (only_seq honly (only_changeBit hf _ _ _)) (by simp) (by simp +contextual [or_imp])⟩
  simp only [List.mem_cons, List.not_mem_nil, or_false, forall_eq_or_imp, forall_eq]
  exact ⟨window_ant a, window_ant a, window_ant a⟩

/-- Under 2 mA (R45). -/
theorem antFault_opens (hon : s.getB (GNB_ANT.ON a) = true) (hma : ma < 2) (hopen : s.getB (GNB_ANT.OPEN a) = false) :
    let t := s.biasCurrent a ma
    t.getB (GNB_ANT.OPEN a) = true ∧ t.get (GNB_ANT.MA a) = ma ∧ s.raised 133 t ∧ s.only [.rcd, .cyc] ([GNB_ANT.OPEN a, GNB_ANT.MA a] ++ raiseFlds 133) t := by
  have hf := isFlag_open a
  have honly := only_setMa a ma s
  have hset : (s.set (GNB_ANT.MA a) ma).getB (GNB_ANT.OPEN a) = false := (getB_of_get (honly.2.1 _ (apart_of_above rfl))).trans hopen
  rw [biasCurrent_open hon hma hopen]
  refine ⟨getB_changeBit_self hf _ _ _, (get_changeBit_apart hf _ _ _ (apart_below (Nat.le_of_ble_eq_true rfl)) (window_ant a)).trans (get_setMa_self (by omega) s),
    raised_of_only honly (by simp) (fun f hf => List.mem_singleton.1 hf ▸ window_ant a) (raised_changeBit hf (by rw [hset]; decide)),
    only_mono (only_seq honly (only_changeBit hf _ _ _)) (by simp) (by simp +contextual [or_imp])⟩

/-- From 2 to 150 mA. -/
theorem antOpen_clears (hon : s.getB (GNB_ANT.ON a) = true) (hlo : 2 ≤ ma) (hhi : ma ≤ 150) :
    let t := s.biasCurrent a ma
    t.getB (GNB_ANT.OPEN a) = false ∧ t.get (GNB_ANT.MA a) = ma ∧ s.only [] [GNB_ANT.OPEN a, GNB_ANT.MA a] t := by
  have hf := isFlag_open a
  rw [biasCurrent_fed hon hlo hhi]
  exact ⟨getB_setB_self _ _ _ hf.top rfl, (get_setB_below hf (Nat.le_of_ble_eq_true rfl) _ _).trans (get_setMa_self (by omega) s),
    only_mono (only_seq (only_setMa a ma s) (only_setB_flag hf _ _)) (by simp) (by simp)⟩

/-! The write of GNB_ANT -/

theorem specialWrite_ant (a : Fin 2) (v : Word) (s : State) : s.specialWrite (GNB_ANT a.val) v = some (s.writeAnt a.val v) := by
  match a with
  | 0 => rfl
  | 1 => rfl

theorem execAntBiasEnable_eq (core : Fin 8) (a : Fin 2) (v : Word) (s : State) :
    exec (.antBiasEnable core a v) s = .next (State.writeAnt a.val v { s with access := .none }) := by
  have hgood : goodAddr (GNB_ANT a.val) = true :=
    match a with
    | 0 => rfl
    | 1 => rfl
  have hclosed : State.closed { s with access := .none } (GNB_ANT a.val) = false := closed_gnb (by simp only [windowOf, GNB_ANT]; omega) _
  refine congrArg Host.Outcome.next ?_
  simp only [State.hostWrite, hgood, hclosed, State.regWrite, specialWrite_ant, Bool.not_true, Bool.false_eq_true, if_false]

/-- SHORT is W1C. -/
def State.clearShort (a : Nat) (w : Bool) (s : State) : State := if w then s.setB (GNB_ANT.SHORT a) false else s

theorem getB_clearShort (a : Nat) (w : Bool) (s : State) : (s.clearShort a w).getB (GNB_ANT.SHORT a) = (s.getB (GNB_ANT.SHORT a) && !w) := by
  cases w
  · simp [State.clearShort]
  · simpa [State.clearShort] using getB_setB_self s _ false (isFlag_short a).top rfl

theorem only_clearShort (a : Nat) (w : Bool) (s : State) : s.only [] [GNB_ANT.SHORT a] (s.clearShort a w) := by
  cases w
  · exact only_refl s _ _
  · exact only_setB_flag (isFlag_short a) s false

/-- BIAS_EN from 0 to 1 while GNB runs. -/
theorem writeAnt_switches {v : Word} (hv : bitAt v.toNat 31 = true) (hen : s.getB (GNB_ANT.BIAS_EN a) = false) (hrun : s.getB GNB_CTRL.ENABLE = true) :
    let t := s.writeAnt a v
    t.getB (GNB_ANT.BIAS_EN a) = true ∧ t.getB (GNB_ANT.ON a) = true ∧
      t.getB (GNB_ANT.SHORT a) = (s.getB (GNB_ANT.SHORT a) && !bitAt v.toNat 28) ∧
      s.only [] [GNB_ANT.BIAS_EN a, GNB_ANT.ON a, GNB_ANT.SHORT a] t := by
  let u := (s.setB (GNB_ANT.BIAS_EN a) true).clearShort a (bitAt v.toNat 28)
  have hset := only_setB_flag (isFlag_biasEn a) s true
  have hshort := only_clearShort a (bitAt v.toNat 28) (s.setB (GNB_ANT.BIAS_EN a) true)
  have hctrl : ∀ f ∈ [GNB_ANT.BIAS_EN a, GNB_ANT.SHORT a], GNB_CTRL.ENABLE.apart f := by
    simp only [List.mem_cons, List.not_mem_nil, or_false, forall_eq_or_imp, forall_eq, Fld.apart, GNB_CTRL.ENABLE, GNB_CTRL, GNB_ANT.BIAS_EN,
      GNB_ANT.SHORT, GNB_ANT]
    omega
  have hu : u.getB GNB_CTRL.ENABLE = true := (getB_of_get ((only_seq hset hshort).2.1 _ hctrl)).trans hrun
  have hw : s.writeAnt a v = u.setB (GNB_ANT.ON a) true := by
    rw [State.writeAnt, hv, hen]
    refine if_neg (?_ : ¬(!u.getB GNB_CTRL.ENABLE || decide (false = true)) = true)
    rw [hu]
    decide
  have hon := isFlag_on a
  rw [hw]
  refine ⟨?_, getB_setB_self _ _ _ hon.top rfl, ?_, only_mono (only_seq (only_seq hset hshort) (only_setB_flag hon _ _)) (by simp) (by simp)⟩
  · refine (getB_of_get ((get_setB_above hon (Nat.le_of_ble_eq_true rfl) _ _).trans (hshort.2.1 _ (apart_of_above rfl)))).trans ?_
    exact getB_setB_self _ _ _ (isFlag_biasEn a).top rfl
  · rw [getB_of_get (get_setB_below hon (Nat.le_of_ble_eq_true rfl) _ _), getB_clearShort,
      getB_of_get (get_setB_below (isFlag_biasEn a) (Nat.le_of_ble_eq_true rfl) _ _)]

end Ant

end Sys2Proof.Machine
end

section
/-! PROOFS. The statements of spec/13_gnss_baseband.md on searches (R280 to R282) and on the end of GNB's work (R296): a search
holds its engine until its record stands, and nothing is left of channels, searches, strobes, locks and biases once GNB is disabled. -/

namespace Sys2Proof.Machine

/-! ### The counts of GNB_STATUS -/

section Counts
variable {s : State}

theorem only_gnbCounts (s : State) : s.only [] [GNB_STATUS.CHANNELS, GNB_STATUS.SEARCHES] s.gnbCounts :=
  only_seq (only_set s _ (Nat.le_of_ble_eq_true rfl)) (only_set _ _ (Nat.le_of_ble_eq_true rfl))

theorem get_searches_gnbCounts (s : State) : s.gnbCounts.get GNB_STATUS.SEARCHES = s.gnb.searches.length % 16 :=
  get_set_self _ _ _ (Nat.le_of_ble_eq_true rfl)

theorem get_channels_gnbCounts (s : State) : s.gnbCounts.get GNB_STATUS.CHANNELS = s.gnb.chans.length % 1024 :=
  (get_set_apart _ _ _ _ (apart_above (Nat.le_of_ble_eq_true rfl)) (Nat.le_of_ble_eq_true rfl)).trans (get_set_self _ _ _ (Nat.le_of_ble_eq_true rfl))

end Counts

/-! ### A search starts (R280) -/

section Start
variable {s : State}

theorem lowestOf_none {l : List (Bool × Nat)} (h : ∀ x ∈ l, x.1 = false) : lowestOf l = none := by
  have hl : l.filter (·.1) = [] := List.filter_eq_nil_iff.2 fun x hx => by simp [h x hx]
  rw [lowestOf, hl]
  rfl

theorem startCodes_zero (s : State) : ∀ x ∈ s.startCodes 0, x.1 = false := by
  simp [State.startCodes]

/-- The arguments of Table 13-4 pass every check of R280. -/
structure AcqArgs (s : State) (c : Cmd) : Prop where
  ring : c.ring = 1
  flags : flagsHigh c = false
  chain : c.arg 16 1 ≤ 3
  sig : c.arg 17 1 ≤ 9
  prn : prnOk (c.arg 17 1) (c.arg 18 2) = true
  coh : 1 ≤ c.arg 20 1 ∧ c.arg 20 1 ≤ 10
  period : c.arg 20 1 % sigP (c.arg 17 1) = 0
  ncoh : 1 ≤ c.arg 21 1
  budget : c.arg 20 1 * c.arg 21 1 ≤ 20
  bins : 1 ≤ c.arg 22 2 ∧ c.arg 22 2 ≤ 512
  step : 1 ≤ c.arg 28 4 ∧ c.arg 28 4 ≤ 5000
  align : c.arg 32 8 % 64 = 0
  wins : s.inWins 0x08 (c.arg 32 8) 64 = true
  enabled : s.getB (GNB_CHAIN_CFG.EN (c.arg 16 1)) = true
  band : sigUpper (c.arg 17 1) = decide (c.arg 16 1 % 2 = 0)
  start : c.arg 40 8 = 0

/-- The search that an ACQ_START asks for. -/
def Cmd.search (c : Cmd) (s : State) : Search where
  id := c.id
  chain := c.arg 16 1
  sig := c.arg 17 1
  prn := c.arg 18 2
  addr := c.arg 32 8
  start := s.startSample (c.arg 40 8)
  samples := c.arg 20 1 * c.arg 21 1 * 81840
  dopMin := toSigned 32 (c.arg 24 4)
  dopStep := c.arg 28 4
  bins := c.arg 22 2

/-- An engine holds a search. -/
def State.holdSearch (k : Nat) (x : Search) (s : State) : State := s.withGnb { s.gnb with searches := tput s.gnb.searches k x }

theorem opAcqStart_accepted {c : Cmd} {k : Nat} (h : AcqArgs s c) (hk : tfree s.gnb.searches 8 = some k) :
    opAcqStart c s = (s.holdSearch k (c.search s)).gnbCounts := by
  obtain ⟨hring, hflags, hchain, hsig, hprn, ⟨hcoh, hcoh'⟩, hper, hncoh, hbudget, ⟨hbins, hbins'⟩, ⟨hstep, hstep'⟩, halign, hwins, hen, hband, hstart⟩ := h
  have hncoh' : c.arg 21 1 ≤ 20 := (Nat.le_mul_of_pos_left _ hcoh).trans hbudget
  unfold opAcqStart
  dsimp only
  rw [lowestOf_none, hk]
  · rfl
  · intro x hx
    rcases List.mem_append.1 hx with hx | hx
    · simp only [List.mem_cons, List.not_mem_nil, or_false] at hx
      rcases hx with rfl | rfl | rfl | rfl
      · simp [Nat.not_lt.2, *]
        omega
      · simp [hbudget]
      · simp [hen, hband]
      · simp [hring]
    · exact startCodes_zero s x (hstart ▸ hx)

theorem flags_lt_of_ready {b r : Nat} {e : Entry} (h : s.ready b r 0 e) : e.flags.toNat < 4 := by
  obtain ⟨-, -, hflags⟩ := h
  simp at hflags
  omega

theorem flagsHigh_of_ready {b r : Nat} {e : Entry} (h : s.ready b r 0 e) {c : Cmd} (hc : c.e = e) : flagsHigh c = false := by
  simp [flagsHigh, hc, Nat.div_eq_of_lt (Nat.lt_trans (flags_lt_of_ready h) (by decide : 4 < 256))]

/-- An entry without reserved FLAGS bits passes whatever mask its opcode has. -/
theorem ready_mask {b r : Nat} {e : Entry} (h : s.ready b r 0 e) (mask : Nat) : s.ready b r mask e := by
  have hlt := flags_lt_of_ready h
  obtain ⟨hfree, hfit, -⟩ := h
  have hlow : ∀ x < 4, x &&& 0xFF00 = 0 := by decide
  refine ⟨hfree, hfit, ?_⟩
  rw [Nat.and_comm mask, ← Nat.and_assoc, hlow _ hlt, Nat.zero_and, Nat.add_zero, Nat.mod_eq_of_lt hlt]

/-- An idle ring with the entry in flight. -/
theorem ring_entryTaken {b r opcode : Nat} {e : Entry} (hl : (s.ring b r).taken = []) : s.started b r opcode e (s.entryTaken b r opcode e) := by
  have hring := ring_restSpacing (s := s) (b := b) (r := r) (opcode := opcode)
  rw [State.started, State.entryTaken, State.enlist, ring_setRing_self, hring]
  simp only [hl, List.nil_append, State.takenOf]

theorem blockHolds_acq {r : Nat} (h : s.gnb.searches.length < 8) : s.blockHolds 0x08 r 0x10 = false := by
  unfold State.blockHolds
  split <;> simp_all

theorem execAcqStart_accepted {ring : Fin 2} {e : Entry} {k : Nat} (h : s.ready 0x08 ring.val 0 e) (hroom : s.gnb.searches.length < 8)
    (hargs : AcqArgs s (s.cmdOf 0x08 ring.val e)) (hk : tfree s.gnb.searches 8 = some k) :
    exec (.acqStart ring e) s =
      .next ((s.entryTaken 0x08 ring.val 0x10 e).holdSearch k ((s.cmdOf 0x08 ring.val e).search s)).gnbCounts := by
  have hid : ((s.restSpacing 0x08 ring.val 0x10).enlist 0x08 ring.val 0x10 e).1 = s.cmdOf 0x08 ring.val e := by
    simp only [State.enlist, State.cmdOf, ring_restSpacing]
  obtain ⟨hring, hflags, hchain, hsig, hprn, hcoh, hper, hncoh, hbudget, hbins, hstep, halign, hwins, hen, hband, hstart⟩ := hargs
  have hargs' : AcqArgs (s.entryTaken 0x08 ring.val 0x10 e) (s.cmdOf 0x08 ring.val e) :=
    ⟨hring, hflags, hchain, hsig, hprn, hcoh, hper, hncoh, hbudget, hbins, hstep, halign, hwins, hen, hband, hstart⟩
  refine congrArg Host.Outcome.next ((runRow_ready (ready_mask h _) _ (blockHolds_acq hroom) _).trans ?_)
  rw [hid]
  exact opAcqStart_accepted hargs' hk

/-- The search is held by the engine and its command is in flight. -/
theorem acqStart_shows {r k : Nat} {e : Entry} (x : Search) (hl : (s.ring 0x08 r).taken = []) :
    let t := ((s.entryTaken 0x08 r 0x10 e).holdSearch k x).gnbCounts
    s.started 0x08 r 0x10 e t ∧ tget t.gnb.searches k = some x ∧ (∀ a, a ≠ k → tget t.gnb.searches a = tget s.gnb.searches a) ∧
      t.get GNB_STATUS.SEARCHES = t.gnb.searches.length % 16 ∧ s.only [.rings, .gnb] [GNB_STATUS.CHANNELS, GNB_STATUS.SEARCHES] t := by
  intro t
  have hgnb : t.gnb.searches = tput s.gnb.searches k x := congrArg GnbState.searches ((only_gnbCounts _).1 .gnb (by simp))
  refine ⟨?_, by rw [hgnb, tget_tput_self], fun a ha => by rw [hgnb, tget_tput, if_neg ha], ?_,
    only_seq (only_seq only_entryTaken (only_withGnb _ _)) (only_gnbCounts _)⟩
  · exact (ring_of_rings ((only_gnbCounts _).1 .rings (by simp)) 0x08 r).trans (ring_entryTaken hl)
  · exact (get_searches_gnbCounts _).trans (by rw [hgnb]; rfl)

end Start

/-! ### Bytes in memory -/

theorem bytesLE_add (n k v : Nat) : bytesLE (n + k) v = bytesLE n v ++ bytesLE k (v / 256 ^ n) := by
  induction n generalizing v with
  | zero => simp [bytesLE]
  | succ n ih => rw [Nat.succ_add, bytesLE, ih, bytesLE, List.cons_append, Nat.div_div_eq_div_mul, Nat.pow_succ']

/-- Two runs of bytes stored one behind the other read back each by itself. -/
theorem memBytes_memPuts_append (l l' : List Byte) (m : List Host.Cell) (a : Nat) :
    memBytes (memPuts m a (l ++ l')) a l.length = l ∧ memBytes (memPuts m a (l ++ l')) (a + l.length) l'.length = l' := by
  rw [memPuts_append]
  refine ⟨(memBytes_congr _ _ _ _ fun x hl hu => memByte_memPuts_ne _ _ _ _ (.inl hu)).trans (memBytes_memPuts l m a), memBytes_memPuts l' _ _⟩

/-! ### A command in flight alone on its ring ends -/

section Ended
variable {b r code : Nat} {x : Taken} {s : State}

theorem completeSelf_only (hl : (s.ring b r).taken = [x]) :
    s.completeSelf b r x.id code =
      (s.writeCompletion b r { x with done := some (b * 256 + code, x.handle) } (b * 256 + code) x.handle).setRing b r
        { (s.writeCompletion b r { x with done := some (b * 256 + code, x.handle) } (b * 256 + code) x.handle).ring b r with taken := [] } := by
  rw [State.completeSelf, completeId_only s b r x.id _ _ x hl rfl, hl]
  simp

theorem ended_completeSelf (hr : r < ringCount b) (hc : b * 256 + code < 2 ^ 16) (hl : (s.ring b r).taken = [x]) :
    s.ended b r x code x.handle (s.completeSelf b r x.id code) := by
  obtain ⟨htag, hhandle, hreason, hseq⟩ :=
    writeCompletion_reads (s := s) (b := b) (r := r) { x with done := some (b * 256 + code, x.handle) } (b * 256 + code) x.handle
  rw [completeSelf_only hl, State.ended, State.complTag, setRing_dram, get_of_only_nil (only_setRing ..)]
  refine ⟨congrArg Ring.taken (ring_setRing_self ..), htag, hhandle, hreason.trans (Nat.mod_eq_of_lt hc), hseq, writeCompletion_pi s b r _ _ _ hr⟩

theorem dramKept_completeSelf (hl : (s.ring b r).taken = [x]) : s.dramKept (s.complAddr b r) 16 (s.completeSelf b r x.id code) := by
  rw [completeSelf_only hl, State.dramKept, setRing_dram]
  exact dramKept_writeCompletion _ _ _

theorem only_completeSelf (id : Nat) (hr : r < ringCount b) : s.only [.dram, .rings, .rcd, .cyc] (complFlds b r) (s.completeSelf b r id code) :=
  only_completeId _ _ _ hr

end Ended

/-! ### A search ends (R281, R282) -/

section Done
variable {k : Nat} {x : Search} {y : Taken} {s : State}

/-- The result record of Table 13-5, up to the low half of START_SC and from its high half on. -/
def Search.recordHead (x : Search) (bin code dop peak second noise cn0 : Nat) (sat : Bool) : List Byte :=
  bytesLE 1 x.sig ++ bytesLE 1 x.chain ++ bytesLE 2 x.prn ++ bytesLE 4 code ++ bytesLE 4 dop ++ bytesLE 4 peak ++ bytesLE 4 second ++ bytesLE 4 noise ++
    bytesLE 2 cn0 ++ bytesLE 2 (b2n sat + 2 * b2n (decide (bin = 0) || decide (bin + 1 = x.bins))) ++ bytesLE 4 x.start

def Search.recordTail (x : Search) (ltc : Nat) : List Byte := bytesLE 4 (x.start / 2 ^ 32) ++ bytesLE 8 ltc ++ bytesLE 20 0

/-- The engine is free and the record stands in memory; the command has not ended yet. -/
def State.recordStored (k : Nat) (x : Search) (l : List Byte) (s : State) : State :=
  (s.withGnb { s.gnb with searches := tdel s.gnb.searches k }).dramPuts x.addr l

theorem execAcqDone_found {k : Fin 8} {bin : Fin 512} {code dop peak second noise : Word} {cn0 : BitVec 16} (hx : tget s.gnb.searches k.val = some x)
    (hend : x.start + x.samples ≤ s.scNow) (hfinds : x.finds bin.val code.toNat dop.toNat peak.toNat second.toNat noise.toNat = true) :
    exec (.acqDone k bin code dop peak second noise cn0) s =
      .next ((s.recordStored k.val x (x.recordHead bin.val code.toNat dop.toNat peak.toNat second.toNat noise.toNat cn0.toNat
        (s.satIn x.chain x.start (x.start + x.samples - 1)) ++ x.recordTail (s.sampleLtc x.start))).completeSelf 0x08 1 x.id 0x00).gnbCounts := by
  have hstart : bytesLE 8 x.start = bytesLE 4 x.start ++ bytesLE 4 (x.start / 2 ^ 32) := bytesLE_add 4 4 x.start
  have hdef : exec (.acqDone k bin code dop peak second noise cn0) s = execAcqDone k bin code dop peak second noise cn0 s := rfl
  rw [hdef, execAcqDone, hx]
  simp only [Nat.not_lt.2 hend, hfinds, decide_false, Bool.not_true, Bool.or_false, Bool.false_eq_true, if_false, State.recordStored,
    Search.recordHead, Search.recordTail, hstart, List.append_assoc]
  rfl

theorem ended_gnbCounts {code h : Nat} {v : State} (he : s.ended 0x08 1 y code h v) : s.ended 0x08 1 y code h v.gnbCounts := by
  have hcount := only_gnbCounts v
  obtain ⟨htaken, htag, hhandle, hreason, hseq, hpi⟩ := he
  rw [State.ended, State.complTag, hcount.1 .dram (by simp), ring_of_rings (hcount.1 .rings (by simp)), hcount.get (by decide)]
  exact ⟨htaken, htag, hhandle, hreason, hseq, hpi⟩

theorem only_recordStored (l : List Byte) : s.only [.dram, .gnb] [] (s.recordStored k x l) :=
  only_mono (only_seq (only_withGnb _ s) (only_of_keeps (keeps_dramPuts ..))) (by simp) (fun _ h => h)

/-- What stands after a search has ended with the record `l ++ l'`. -/
theorem searchEnded_shows {l l' : List Byte} (hl : l.length = 32) (hl' : l'.length = 32) (hy : (s.ring 0x08 1).taken = [y])
    (haway : x.addr + 64 ≤ s.complAddr 0x08 1 ∨ s.complAddr 0x08 1 + 16 ≤ x.addr) :
    let t := ((s.recordStored k x (l ++ l')).completeSelf 0x08 1 y.id 0x00).gnbCounts
    memBytes t.dram x.addr 32 = l ∧ memBytes t.dram (x.addr + 32) 32 = l' ∧ s.ended 0x08 1 y 0x00 y.handle t ∧
      t.gnb = { s.gnb with searches := tdel s.gnb.searches k } ∧ t.get GNB_STATUS.SEARCHES = t.gnb.searches.length % 16 ∧
      (∀ a, (a < x.addr ∨ x.addr + 64 ≤ a) → (a < s.complAddr 0x08 1 ∨ s.complAddr 0x08 1 + 16 ≤ a) → memByte t.dram a = memByte s.dram a) ∧
      s.only [.dram, .rings, .rcd, .cyc, .gnb] (complFlds 0x08 1 ++ [GNB_STATUS.CHANNELS, GNB_STATUS.SEARCHES]) t := by
  intro t
  let u := s.recordStored k x (l ++ l')
  let v := u.completeSelf 0x08 1 y.id 0x00
  have hu : u.dram = memPuts s.dram x.addr (l ++ l') := rfl
  have hcount := only_gnbCounts v
  have hdram : t.dram = v.dram := hcount.1 .dram (by simp)
  have hkept : u.dramKept (s.complAddr 0x08 1) 16 v := dramKept_completeSelf (s := u) hy
  have hended : s.ended 0x08 1 y 0x00 y.handle v := ended_completeSelf (s := u) (by decide) (by decide) hy
  obtain ⟨hhead, htail⟩ := memBytes_memPuts_append l l' s.dram x.addr
  rw [hl] at hhead htail
  rw [hl'] at htail
  have hgnb : t.gnb = { s.gnb with searches := tdel s.gnb.searches k } := (hcount.1 .gnb (by simp)).trans (completeSelf_gnb ..)
  refine ⟨?_, ?_, ?_, hgnb, ?_, fun a ha hc => ?_, ?_⟩
  · rw [hdram, memBytes_of_dramKept hkept (by omega), hu, hhead]
  · rw [hdram, memBytes_of_dramKept hkept (by omega), hu, htail]
  · exact ended_gnbCounts hended
  · rw [hgnb]
    exact (get_searches_gnbCounts v).trans (by rw [completeSelf_gnb]; rfl)
  · rw [hdram, hkept a hc, hu]
    exact memByte_memPuts_ne _ _ _ _ (by rw [List.length_append]; omega)
  · exact only_mono (only_seq (only_seq (only_recordStored _) (only_completeSelf _ (by decide))) hcount) (by simp) (fun _ h => h)

end Done

/-! ### GNB's work ends (R296) -/

/-- No sample count runs, and no channel, search or strobe is left. -/
structure GnbState.Idle (x : GnbState) : Prop where
  scStart : x.scStart = none
  chans : x.chans = []
  searches : x.searches = []
  strobes : x.strobes = []

section Fold
variable {α : Type} {P : State → Prop} {f : State → α → State} {l : List α} {s : State}

/-- What one round of a loop brings about and no round undoes holds after it. -/
theorem foldl_of_mem {x : α} (hset : ∀ u, P (f u x)) (hkeep : ∀ u y, P u → P (f u y)) (hx : x ∈ l) : P (l.foldl f s) := by
  induction l generalizing s with
  | nil => cases hx
  | cons y l ih =>
    rcases List.mem_cons.1 hx with rfl | hx
    · exact foldl_keeps (P := P) (s := f s x) (fun u z _ => hkeep u z) (hset s)
    · exact ih hx

/-- A fact that each round of a loop leaves as it is. -/
theorem foldl_same {β : Type} {g : State → β} (h : ∀ u x, g (f u x) = g u) : g (l.foldl f s) = g s :=
  foldl_keeps (P := fun u => g u = g s) (fun u x _ hu => (h u x).trans hu) rfl

end Fold

section Keys
variable {α : Type} {t : Tbl α} {k : Nat}

theorem mem_keys_of_tget (h : (tget t k).isSome = true) : k ∈ t.map (·.1) := by
  induction t with
  | nil => cases h
  | cons e t ih =>
    obtain ⟨i, v⟩ := e
    by_cases hk : k = i
    · exact List.mem_cons.2 (.inl hk)
    · rw [tget_cons, if_neg hk] at h
      exact List.mem_cons_of_mem _ (ih h)

theorem keys_tmap (f : Nat → α → α) : (tmap t f).map (·.1) = t.map (·.1) := by
  simp [tmap, Function.comp_def]

end Keys

section Blocks
variable {s : State}

/-- The indices that hold a channel. -/
def State.chanKeys (s : State) : List Nat := s.gnb.chans.map (·.1)

theorem chanKeys_congr {t : State} (h : t.gnb.chans = s.gnb.chans) : t.chanKeys = s.chanKeys := by
  rw [State.chanKeys, h, State.chanKeys]

theorem chanKeys_notePrev (h : Nat) (p : Bool × Bool × Nat) (s : State) : (s.notePrev h p).chanKeys = s.chanKeys := by
  simp only [State.chanKeys, State.notePrev, keys_tmap]

theorem chans_raise (n : Nat) (s : State) : (s.raise n).gnb.chans = s.gnb.chans := congrArg GnbState.chans (raise_gnb s n)

theorem chanKeys_putMeas (st : Strobe) (i : Nat) (c : Chan) (s : State) : (s.putMeas st i c).chanKeys = s.chanKeys := by
  have hraise (b : Bool) (u : State) : (if b then u.raise 147 else u).chanKeys = u.chanKeys := by
    cases b
    · rfl
    · exact chanKeys_congr (chans_raise 147 u)
  unfold State.putMeas
  dsimp only
  rw [hraise, chanKeys_notePrev]
  exact chanKeys_congr (congrArg GnbState.chans (dramPuts_gnb ..))

/-- Blocks that are written leave the channels where they are. -/
theorem chanKeys_measBlock (s : State) : s.measBlock.chanKeys = s.chanKeys := by
  unfold State.measBlock
  split
  · rfl
  · split
    · rfl
    · dsimp only
      split
      · split
        · simp only [State.chanKeys, raise_gnb, bump_gnb]
        · simp only [State.chanKeys, bump_gnb]
      · refine (show _ = State.chanKeys _ by simp only [State.chanKeys, raise_gnb, set_gnb]; rfl).trans
          ((foldl_same (g := State.chanKeys) fun u e => chanKeys_putMeas ..).trans ?_)
        simp only [State.chanKeys, dramPuts_gnb]

end Blocks

/-! LOCK of a chain's notches goes to 0 -/

section Unlock
variable {c : Nat} {s : State}

/-- A notch loses its lock for good where others lose theirs. -/
theorem getB_lock_setLock {i j d : Nat} (h : s.getB (GNB_NOTCH.LOCK c j) = false) : (s.setLock d i false).getB (GNB_NOTCH.LOCK c j) = false := by
  by_cases he : GNB_NOTCH d i = GNB_NOTCH c j
  · have hf : GNB_NOTCH.LOCK d i = GNB_NOTCH.LOCK c j := congrArg (Fld.mk · 29 1) he
    exact hf ▸ getB_changeBit_self (isFlag_lock d i) 135 false s
  · have happart : (GNB_NOTCH.LOCK c j).apart (GNB_NOTCH.LOCK d i) := .inl (Ne.symm he)
    exact (getB_of_get (get_changeBit_apart (isFlag_lock d i) 135 false s happart (window_notch c j))).trans h

theorem getB_lock_unlock_self {j : Nat} (hj : j < 4) (c : Nat) (s : State) : (s.unlock c).getB (GNB_NOTCH.LOCK c j) = false :=
  foldl_of_mem (P := fun u => u.getB (GNB_NOTCH.LOCK c j) = false) (fun u => getB_changeBit_self (isFlag_lock c j) 135 false u)
    (fun _ _ => getB_lock_setLock) (List.mem_range.2 hj)

theorem getB_lock_unlock {d j : Nat} (h : s.getB (GNB_NOTCH.LOCK c j) = false) : (s.unlock d).getB (GNB_NOTCH.LOCK c j) = false :=
  foldl_keeps (P := fun u => u.getB (GNB_NOTCH.LOCK c j) = false) (fun _ _ _ => getB_lock_setLock) h

end Unlock

/-! ### What stays of GNB when its work ends (R296) -/

section Off
variable {s t : State}

/-- GNB is disabled and idle. -/
structure State.GnbOff (s : State) : Prop where
  disabled : s.getB GNB_CTRL.ENABLE = false
  idle : s.gnb.Idle

theorem gnbOff_of_only {fs : List Fld} {ps : List Comp} (h : s.only ps fs t) (hp : Comp.gnb ∉ ps) (hf : ∀ f ∈ fs, GNB_CTRL.ENABLE.apart f) (hs : s.GnbOff) :
    t.GnbOff :=
  ⟨(getB_of_get (h.2.1 _ hf)).trans hs.disabled, (h.1 .gnb hp : t.gnb = s.gnb) ▸ hs.idle⟩

theorem gnbOff_setLock (c j : Nat) (hs : s.GnbOff) : (s.setLock c j false).GnbOff := by
  refine gnbOff_of_only (only_setLock c j false s) (by simp) (fun f hf => ?_) hs
  rcases List.mem_cons.1 hf with rfl | hf
  · exact .inl (by simp only [GNB_CTRL.ENABLE, GNB_CTRL, GNB_NOTCH.LOCK, GNB_NOTCH]; omega)
  · exact apart_raiseFlds (by decide) 135 f hf

theorem gnbOff_unlock (c : Nat) (hs : s.GnbOff) : (s.unlock c).GnbOff :=
  foldl_keeps (fun _ j _ => gnbOff_setLock c j) ⟨hs.disabled, hs.idle.scStart, hs.idle.chans, hs.idle.searches, hs.idle.strobes⟩

theorem only_setBias (a : Nat) (s : State) : s.only [] [GNB_ANT.ON a, GNB_ANT.OPEN a, GNB_ANT.MA a] (s.setBias a false) :=
  only_seq (only_seq (only_setB_flag (isFlag_on a) s false) (only_setB_flag (isFlag_open a) _ false)) (only_setMa a 0 _)

/-! The channels' registers go to their reset values -/

theorem showChan_free (h : s.gnb.chans = []) (x : Nat) : s.showChan x = s.wipeRegs (GNB_CH_STAT x) 16 := by
  rw [State.showChan, h]
  rfl

theorem reg_wipeRegs (a n b : Nat) (s : State) : (s.wipeRegs a n).reg b = if a ≤ b ∧ b < a + n then resetOf b else s.reg b := by
  simp only [State.reg, State.wipeRegs]
  rw [tget_filter (fun e => !(decide (a ≤ e) && decide (e < a + n)))]
  by_cases h : a ≤ b ∧ b < a + n
  · simp [h]
  · rw [if_neg h, if_pos (by simp only [not_and_or] at h; simpa using h)]

theorem foldl_showChan {l : List Nat} (h : s.gnb.chans = []) : l.foldl (fun u x => u.showChan x) s = l.foldl (fun u x => u.wipeRegs (GNB_CH_STAT x) 16) s := by
  induction l generalizing s with
  | nil => rfl
  | cons x l ih => rw [List.foldl_cons, List.foldl_cons, showChan_free h, ih ((congrArg GnbState.chans (wipeRegs_gnb ..)).trans h)]

/-- The status registers of channels as they go to their reset values. -/
def State.wipeChans (l : List Nat) (s : State) : State := l.foldl (fun u x => u.wipeRegs (GNB_CH_STAT x) 16) s

theorem reg_wipeChans_mem {l : List Nat} {x b : Nat} (hx : x ∈ l) (hl : GNB_CH_STAT x ≤ b) (hu : b < GNB_CH_STAT x + 16) :
    (s.wipeChans l).reg b = resetOf b := by
  refine foldl_of_mem (P := fun u => u.reg b = resetOf b) (fun u => ?_) (fun u y hu => ?_) hx
  · rw [reg_wipeRegs, if_pos ⟨hl, hu⟩]
  · rw [reg_wipeRegs, hu, ite_self]

theorem reg_wipeChans_below {l : List Nat} {b : Nat} (hb : b < 0xC8100000) : (s.wipeChans l).reg b = s.reg b := by
  refine reg_foldl fun u x => ?_
  rw [reg_wipeRegs, if_neg (by simp only [GNB_CH_STAT]; omega)]

theorem gnb_wipeChans (l : List Nat) : (s.wipeChans l).gnb = s.gnb := foldl_same (g := State.gnb) fun u x => wipeRegs_gnb u (GNB_CH_STAT x) 16

theorem resetOf_chStat (x : Nat) : resetOf (GNB_CH_STAT x) = 0#32 := by
  have hl : 0xC8100000 ≤ GNB_CH_STAT x := by simp only [GNB_CH_STAT]; omega
  have hh : GNB_CH_STAT x < 0xC8102000 := by simp only [GNB_CH_STAT]; omega
  cases hd : findDesc (GNB_CH_STAT x) with
  | none => simp only [resetOf, hd]
  | some d =>
    have hw : windowOf (GNB_CH_STAT x) = windowOf 0xC8100000 := by simp only [windowOf]; omega
    have hzero : decide (d.reset = 0) = true := findDesc_of_bounds (P := fun d => decide (d.reset = 0)) hl hh hw (by decide) hd
    simp only [resetOf, hd, of_decide_eq_true hzero]

/-! ### GNB is disabled (R296) -/

/-- Its strobes' blocks are written and its searches' commands have ended, and what stands behind its registers is as it was. -/
def State.worksEnded (s : State) : State :=
  let u := ((s.gnb.strobes.foldl (fun u _ => u.measBlock) s).gnbScView).setB GNB_CTRL.ENABLE false
  u.gnb.searches.foldl (fun u x => (u.completeSelf 0x08 1 x.2.id (u.freshCode [0x20, 0x21, 0x22, 0x23, 0x24])).drawn) u

/-- Nothing is left of its work. -/
def State.idled (s : State) : State :=
  s.withGnb { s.gnb with scStart := none, chans := [], searches := [], accFrom := none, strobes := [], jamFrom := [], base := [] }

theorem gnbDisable_eq (s : State) : s.gnbDisable =
    ((List.range 2).foldl (fun u a => u.setBias a false)
      (s.worksEnded.chanKeys.foldl (fun u x => u.showChan x) ((List.range 4).foldl (fun u c => u.unlock c) s.worksEnded.idled))).gnbCounts := rfl

theorem disabled_worksEnded (s : State) : s.worksEnded.getB GNB_CTRL.ENABLE = false := by
  refine foldl_keeps (P := fun u => u.getB GNB_CTRL.ENABLE = false) (fun u x _ hu => ?_) (getB_setB_self _ _ _ (Nat.le_of_ble_eq_true rfl) rfl)
  rw [getB_of_get (get_of_only_nil (only_drawn _) _), (only_completeSelf (b := 0x08) (r := 1) x.2.id (by decide)).getB (by decide), hu]

theorem chanKeys_worksEnded (s : State) : s.worksEnded.chanKeys = s.chanKeys := by
  refine (foldl_same (g := State.chanKeys) fun u x => chanKeys_congr ?_).trans ?_
  · exact congrArg GnbState.chans (completeSelf_gnb ..)
  · have hview := (State_gnbScView_mut (s.gnb.strobes.foldl (fun u _ => u.measBlock) s)).same .gnb (by simp)
    exact (chanKeys_congr ((congrArg GnbState.chans (setB_gnb ..)).trans (congrArg GnbState.chans hview))).trans
      (foldl_same (g := State.chanKeys) fun u _ => chanKeys_measBlock u)

theorem gnbOff_idled (h : s.getB GNB_CTRL.ENABLE = false) : s.idled.GnbOff := ⟨h, rfl, rfl, rfl, rfl⟩

/-- Its chains' notches are unlocked. -/
def State.chainsUnlocked (s : State) : State := (List.range 4).foldl (fun u c => u.unlock c) s

theorem gnbOff_chainsUnlocked (h : s.GnbOff) : s.chainsUnlocked.GnbOff := foldl_keeps (fun _ c _ => gnbOff_unlock c) h

theorem getB_lock_chainsUnlocked {c j : Nat} (hc : c < 4) (hj : j < 4) : s.chainsUnlocked.getB (GNB_NOTCH.LOCK c j) = false :=
  foldl_of_mem (P := fun u => u.getB (GNB_NOTCH.LOCK c j) = false) (getB_lock_unlock_self hj c) (fun _ _ => getB_lock_unlock) (List.mem_range.2 hc)

/-- Both biases are off. -/
def State.biasesOff (s : State) : State := (List.range 2).foldl (fun u a => u.setBias a false) s

theorem gnb_biasesOff (s : State) : s.biasesOff.gnb = s.gnb := foldl_same (g := State.gnb) fun u a => (only_setBias a u).1 .gnb (by simp)

theorem reg_biasesOff {b : Nat} (h : ∀ a, b ≠ GNB_ANT a) : s.biasesOff.reg b = s.reg b :=
  reg_foldl fun u a => by
    rw [State.setBias, if_neg Bool.false_ne_true, reg_set_ne _ _ (h a), reg_setB_ne _ _ (h a), reg_setB_ne _ _ (h a)]

theorem setBias_shows (a : Nat) (s : State) : (s.setBias a false).getB (GNB_ANT.ON a) = false ∧ (s.setBias a false).get (GNB_ANT.MA a) = 0 := by
  refine ⟨?_, get_setMa_self (by decide) _⟩
  refine (getB_of_get (get_set_apart _ _ _ _ (apart_above (Nat.le_of_ble_eq_true rfl)) (Nat.le_of_ble_eq_true rfl))).trans ?_
  exact (getB_of_get (get_setB_above (isFlag_open a) (Nat.le_of_ble_eq_true rfl) _ _)).trans (getB_setB_self _ _ _ (isFlag_on a).top rfl)

theorem biasesOff_shows {a : Nat} (ha : a < 2) : s.biasesOff.getB (GNB_ANT.ON a) = false ∧ s.biasesOff.get (GNB_ANT.MA a) = 0 := by
  refine foldl_range_each (P := fun a u => u.getB (GNB_ANT.ON a) = false ∧ u.get (GNB_ANT.MA a) = 0) (fun u r _ => setBias_shows r u)
    (fun u r q hrq hq hu => ?_) ha
  have hne : GNB_ANT r ≠ GNB_ANT q := by simp only [GNB_ANT]; omega
  have happart {g : Fld} (hg : g.addr = GNB_ANT r) : ∀ f ∈ [GNB_ANT.ON q, GNB_ANT.OPEN q, GNB_ANT.MA q], g.apart f := by
    simp only [List.mem_cons, List.not_mem_nil, or_false, forall_eq_or_imp, forall_eq]
    exact ⟨.inl (hg ▸ hne), .inl (hg ▸ hne), .inl (hg ▸ hne)⟩
  exact ⟨(getB_of_get ((only_setBias q u).2.1 _ (happart rfl))).trans hu.1, ((only_setBias q u).2.1 _ (happart rfl)).trans hu.2⟩

/-! What GNB shows when it is disabled -/

theorem gnbDisable_stages (s : State) :
    s.gnbDisable = (s.worksEnded.idled.chainsUnlocked.wipeChans s.chanKeys).biasesOff.gnbCounts := by
  have hoff := gnbOff_chainsUnlocked (gnbOff_idled (disabled_worksEnded s))
  rw [gnbDisable_eq, chanKeys_worksEnded]
  exact congrArg (fun u => State.gnbCounts (State.biasesOff u)) (foldl_showChan hoff.idle.chans)

theorem reg_endedBelow {l : List Nat} {b : Nat} (hb : b < 0xC8100000) (hant : ∀ a, b ≠ GNB_ANT a) (hstat : b ≠ GNB_STATUS) :
    (s.wipeChans l).biasesOff.gnbCounts.reg b = s.reg b := by
  rw [State.gnbCounts, reg_set_ne _ _ hstat, reg_set_ne _ _ hstat, reg_biasesOff hant, reg_wipeChans_below hb]

/-- Disabling GNB leaves no channel, search, strobe, LOCK or bias. -/
theorem gnbDisable_shows (s : State) :
    s.gnbDisable.GnbOff ∧ (∀ i, i < 16 → s.gnbDisable.getB (GNB_NOTCH.LOCK (i / 4) (i % 4)) = false) ∧
      s.gnbDisable.get GNB_STATUS.CHANNELS = 0 ∧ s.gnbDisable.get GNB_STATUS.SEARCHES = 0 ∧
      (∀ a, a < 2 → s.gnbDisable.getB (GNB_ANT.ON a) = false ∧ s.gnbDisable.get (GNB_ANT.MA a) = 0) ∧
      ∀ x, (tget s.gnb.chans x).isSome = true →
        s.gnbDisable.reg (GNB_CH_STAT x) = 0#32 ∧ s.gnbDisable.reg (GNB_CH_BOUND x) = resetOf (GNB_CH_BOUND x) := by
  have hoff := gnbOff_chainsUnlocked (gnbOff_idled (disabled_worksEnded s))
  have hlock {c j : Nat} := getB_lock_chainsUnlocked (s := s.worksEnded.idled) (c := c) (j := j)
  rw [gnbDisable_stages]
  generalize s.worksEnded.idled.chainsUnlocked = u at hoff hlock
  have hgnb : (u.wipeChans s.chanKeys).biasesOff.gnb = u.gnb := (gnb_biasesOff _).trans (gnb_wipeChans _)
  have hcounts := only_gnbCounts (u.wipeChans s.chanKeys).biasesOff
  have hend : (u.wipeChans s.chanKeys).biasesOff.gnbCounts.gnb = u.gnb := (hcounts.1 .gnb (by simp)).trans hgnb
  refine ⟨⟨?_, hend ▸ hoff.idle⟩, fun i hi => ?_, ?_, ?_, fun a ha => ?_, fun x hx => ?_⟩
  · refine (getB_congr _ (reg_endedBelow ?_ ?_ ?_)).trans hoff.disabled
    · decide
    · simp only [GNB_CTRL.ENABLE, GNB_CTRL, GNB_ANT]; omega
    · decide
  · refine (getB_congr _ (reg_endedBelow ?_ ?_ ?_)).trans (hlock (by omega) (by omega))
    · simp only [GNB_NOTCH.LOCK, GNB_NOTCH]; omega
    · simp only [GNB_NOTCH.LOCK, GNB_NOTCH, GNB_ANT]; omega
    · simp only [GNB_NOTCH.LOCK, GNB_NOTCH, GNB_STATUS]; omega
  · rw [get_channels_gnbCounts, hgnb, hoff.idle.chans]; rfl
  · rw [get_searches_gnbCounts, hgnb, hoff.idle.searches]; rfl
  · have happart {g : Fld} (hg : g.addr = GNB_ANT a) : ∀ f ∈ [GNB_STATUS.CHANNELS, GNB_STATUS.SEARCHES], g.apart f := by
      have hne : GNB_ANT a ≠ GNB_STATUS := by simp only [GNB_ANT, GNB_STATUS]; omega
      simp only [List.mem_cons, List.not_mem_nil, or_false, forall_eq_or_imp, forall_eq]
      exact ⟨.inl (hg ▸ hne), .inl (hg ▸ hne)⟩
    obtain ⟨hon, hma⟩ := biasesOff_shows (s := u.wipeChans s.chanKeys) ha
    exact ⟨(getB_of_get (hcounts.2.1 _ (happart rfl))).trans hon, (hcounts.2.1 _ (happart rfl)).trans hma⟩
  · have hreg {b : Nat} (hl : GNB_CH_STAT x ≤ b) (hu : b < GNB_CH_STAT x + 16) :
        (u.wipeChans s.chanKeys).biasesOff.gnbCounts.reg b = resetOf b := by
      have hb : 0xC8100000 ≤ b := Nat.le_trans (by simp only [GNB_CH_STAT]; omega) hl
      have hstat : b ≠ GNB_STATUS := by simp only [GNB_STATUS]; omega
      rw [State.gnbCounts, reg_set_ne _ _ hstat, reg_set_ne _ _ hstat, reg_biasesOff (by simp only [GNB_ANT]; omega),
        reg_wipeChans_mem (l := s.chanKeys) (mem_keys_of_tget hx) hl hu]
    refine ⟨(hreg (by omega) (by omega)).trans (resetOf_chStat x), hreg ?_ ?_⟩ <;> simp only [GNB_CH_STAT, GNB_CH_BOUND] <;> omega

end Off

/-- Settles O38, clause by clause: a report of a chain shows its readings before its flags, the notches point at what is left of the interferers, an
antenna's current cuts or opens its bias, and a search holds an engine from its entry to its record. -/
theorem receiverChainsAntennasAndSearchesFollowChapter13 : Obligations.ReceiverChainsAntennasAndSearchesFollowChapter13 := by
  unfold Obligations.ReceiverChainsAntennasAndSearchesFollowChapter13
  refine ⟨?jam, ?sat, ?rises, ?unbased, ?gains, ?share, ?loses, ?short, ?opens, ?clears, ?biasEnable, ?acqStart, ?acqDone, ?disable⟩
  case jam =>
    intro c clips power mean gain pwr b n t0 s hrun hb hp hhold hn hquiet hhigh hfrom hlong hflag
    subst hp hn
    exact ⟨_, execRfInterf_runs hrun, chain_jams hhold hb hquiet hhigh hfrom hlong hflag⟩
  case sat =>
    intro c clips power mean gain pwr b n s hrun hb hp hhold hn hclips hzero hlow hflag
    subst hp hn
    exact ⟨_, execRfInterf_runs hrun, chain_saturates hhold hb hclips hzero hlow hflag⟩
  case rises =>
    intro c clips power mean gain pwr b s hrun hb hp hhold hquiet hhigh hfrom
    subst hp
    exact ⟨_, execRfInterf_runs hrun, chain_rises hhold hb hquiet hhigh hfrom⟩
  case unbased =>
    intro c clips power gain s hrun hb hhold hquiet hflag
    exact ⟨_, execRfInterf_runs hrun, chain_unbased hhold hb hquiet hflag⟩
  case gains =>
    intro c j freq level width s hrun hmode hothers hnone hlevel hwidth hlock
    have hl : interferer freq.toNat level.toNat width.toNat (tgetD s.gnb.interf c.val []) = [(freq.toNat, level.toNat)] := by
      rw [tgetD, hnone]; exact interferer_first hlevel hwidth
    exact ⟨_, execNotchLock_runs hrun hl, notch_gains j.isLt hmode hothers freq.isLt hlock⟩
  case share =>
    intro c j k f p g q width s hrun hjk hmj hmk hothers hone hne hf hp hlt hwidth
    have hl : interferer g.toNat q.toNat width.toNat (tgetD s.gnb.interf c.val []) = [(g.toNat, q.toNat), (f, p)] := by
      rw [tgetD, hone]; exact interferer_stronger hne hp hlt hwidth
    exact ⟨_, execNotchLock_runs hrun hl, notches_share k.isLt hjk hmj hmk hothers g.isLt hf⟩
  case loses =>
    intro c j f p level width s hrun hmode hothers hone hgone hlock
    have hl : interferer f.toNat level.toNat width.toNat (tgetD s.gnb.interf c.val []) = [] := by
      rw [tgetD, hone]; exact interferer_gone hgone
    exact ⟨_, execNotchLock_runs hrun hl, notch_loses j.isLt hmode hothers hlock⟩
  case short => exact fun a ma s hon hma hshort => ⟨_, rfl, antFault_shorts hon hma hshort⟩
  case opens => exact fun a ma s hon hma hopen => ⟨_, rfl, antFault_opens hon hma hopen⟩
  case clears =>
    intro a ma s hon hlo hhi
    exact ⟨_, congrArg Host.Outcome.next (if_pos hlo), antOpen_clears hon hlo hhi⟩
  case biasEnable =>
    intro core a v s hv hen hrun
    obtain ⟨hbias, hon, hshort, honly⟩ := writeAnt_switches (s := { s with access := .none }) hv hen hrun
    exact ⟨_, execAntBiasEnable_eq core a v s, hbias, hon, hshort, only_seq (only_access s .none) honly⟩
  case acqStart =>
    intro ring e chain sig prn coh ncoh bins step addr k s hready hring hroom hk hchain hsig hprn hcoh hncoh hbins hstep haddr hstart
    subst hchain hsig hprn hcoh hncoh hbins hstep haddr
    intro hchain hsig hprn hcoh hcoh' hper hncoh hbudget hbins hbins' hstep hstep' halign hwins hen hband
    have hargs : AcqArgs s (s.cmdOf 0x08 ring.val e) :=
      ⟨hring, flagsHigh_of_ready hready rfl, hchain, hsig, hprn, ⟨hcoh, hcoh'⟩, hper, hncoh, hbudget, ⟨hbins, hbins'⟩, ⟨hstep, hstep'⟩, halign, hwins,
        hen, hband, hstart⟩
    have hbegin : s.startSample ((s.cmdOf 0x08 ring.val e).arg 40 8) = (s.scNow + 16368 + 81839) / 81840 * 81840 := by rw [hstart]; rfl
    have ⟨⟨_, _, _, hidle, _⟩, _⟩ := hready
    obtain ⟨hstarted, hheld, hrest⟩ := acqStart_shows (k := k) (e := e) ((s.cmdOf 0x08 ring.val e).search s) hidle
    exact ⟨_, execAcqStart_accepted hready hroom hargs hk, hstarted, hheld.trans (by rw [Cmd.search, hbegin]; rfl), hrest⟩
  case acqDone =>
    intro k bin code dop peak second noise cn0 x y s hx hend hfinds hy hid haway
    have hexec := execAcqDone_found (cn0 := cn0) hx hend hfinds
    rw [← hid] at hexec
    obtain ⟨hhead, htail, hended, hgnb, hcount, hmem, honly⟩ := searchEnded_shows (k := k.val) (x := x)
      (l := x.recordHead bin.val code.toNat dop.toNat peak.toNat second.toNat noise.toNat cn0.toNat (s.satIn x.chain x.start (x.start + x.samples - 1)))
      (l' := x.recordTail (s.sampleLtc x.start)) (by simp [Search.recordHead, length_bytesLE]) (by simp [Search.recordTail, length_bytesLE]) hy haway
    exact ⟨_, hexec, hhead, htail, hended, by rw [hgnb]; exact tget_tdel_self .., hgnb, hcount, hmem, honly⟩
  case disable =>
    intro s hrun
    have hexec : exec .gnbDisable s = .next s.gnbDisable := congrArg Host.Outcome.next (if_pos hrun)
    obtain ⟨⟨hoff, hsc, hchans, hsearches, hstrobes⟩, hlock, hchannels, hcount, hant, hch⟩ := gnbDisable_shows s
    exact ⟨_, hexec, hoff, hsc, hchans, hsearches, hstrobes, hlock, hchannels, hcount, hant, fun x _ => hch x,
      within_of (exec_upd .gnbDisable s _ hexec)⟩

end Sys2Proof.Machine
end

section
/-! PROOFS. The statements of spec/15_camera_pipeline.md: a frame that CTX_DESTROY drops gives up the arrival stamps of its lines with the
lines themselves (R328, R333, R341). -/

namespace Sys2Proof.Machine

/-! ### CTX_DESTROY of a context with a waiting frame (R341) -/

/-- A waiting frame as CTX_DESTROY drops it: neither lines nor their stamps are left. -/
def CamFrame.destroyed (f : CamFrame) : CamFrame := { f.flag frDESTROY with st := .dropped, store := [], stamps := [] }

/-- A dropped frame keeps its stamps only where there were none. -/
theorem stamps_nil_of_destroyed {k : Nat} {f : CamFrame} (h : [(k, f.destroyed)] = [(k, { f.flag 15 with st := .dropped, store := [] })]) :
    f.stamps = [] := by
  have hstamps : [[]] = [f.stamps] := congrArg (List.map fun e : Nat × CamFrame => e.2.stamps) h
  exact (List.head_eq_of_cons_eq hstamps).symm

section Destroy
variable {c : Cmd} {s : State} {x k : Nat} {t : CamCtx} {f : CamFrame}

theorem cam_camShow (s : State) : s.camShow.cam = s.cam := (State_camShow_mut s).same .cam (by simp)

theorem dropFrame_lone (h : s.cam.frames = [(k, f)]) :
    s.dropFrame k frDESTROY = { s with cam := { s.cam with frames := [(k, f.destroyed)] } } := by
  simp [State.dropFrame, State.modFrame, State.setFrame, h, tget_cons, tput, CamFrame.destroyed]

/-- A context outlives its destruction while a frame of it is left. -/
theorem ctxMaybeFree_held (h : (s.cam.frames.any fun e => decide (e.2.ctx = x)) = true) : s.ctxMaybeFree x = s := by
  unfold State.ctxMaybeFree
  split
  · split
    · rw [if_pos h]
    · rfl
  · rfl

theorem frames_opCtxDestroy_waiting (hlive : s.checkHandle 4 s.camLive c.handle = none) (hx : hIndex c.handle = x) (ht : s.camCtx x = some t)
    (hframes : s.cam.frames = [(k, f)]) (hf : f.ctx = x) (hst : f.st = .waiting) : (opCtxDestroy c s).cam.frames = [(k, f.destroyed)] := by
  have hctx : f.destroyed.ctx = x := hf
  have hdropped : State.camCtx { s with cam := { s.cam with frames := [(k, f.destroyed)] } } x = some t := ht
  simp only [opCtxDestroy, hlive, hx, hframes, hf, hst, decide_true, Bool.and_self, List.filter_cons_of_pos, List.filter_nil, List.map_cons,
    List.map_nil, List.foldl_cons, List.foldl_nil, dropFrame_lone hframes, hdropped]
  rw [cam_camShow, ctxMaybeFree_held (by simp [State.setCtxC, hctx])]
  rfl

theorem execCtxDestroy_ready {ring : Fin 1} {e : Entry} (h : s.ready 0x09 ring.val 0 e) :
    exec (.ctxDestroy ring e) s = .next (opCtxDestroy (s.cmdOf 0x09 ring.val e) (s.entryTaken 0x09 ring.val 2 e)) := by
  have hid : ((s.restSpacing 0x09 ring.val 2).enlist 0x09 ring.val 2 e).1 = s.cmdOf 0x09 ring.val e := by
    simp only [State.enlist, State.cmdOf, ring_restSpacing]
  exact congrArg Host.Outcome.next ((runRow_ready h 2 rfl _).trans (by rw [hid]; rfl))

theorem frames_execCtxDestroy_waiting {ring : Fin 1} {e : Entry} {u : State} (h : s.ready 0x09 ring.val 0 e)
    (hlive : s.checkHandle 4 s.camLive e.handle.toNat = none) (hx : hIndex e.handle.toNat = x) (ht : s.camCtx x = some t)
    (hframes : s.cam.frames = [(k, f)]) (hf : f.ctx = x) (hst : f.st = .waiting) (hexec : exec (.ctxDestroy ring e) s = .next u) :
    u.cam.frames = [(k, f.destroyed)] := by
  obtain rfl := Host.Outcome.next.inj ((execCtxDestroy_ready h).symm.trans hexec)
  exact frames_opCtxDestroy_waiting hlive hx ht hframes hf hst

end Destroy

/-! ### A destruction that meets a stored line -/

/-- A context of source 14 for frames of two lines of four RAW8 pixels with LTAB, and one buffer. -/
def linedCtx : CamCtx :=
  { src := 14, dt := 0x2A, cfa := 0, pl := 5, fselMod := 1, fsel := 0, irq := true, ltab := true, ofmt := 1, stb := 0xFF, width := 4, height := 2
    maxFps := 300, fto := 10, roOfs := 100, stbWin := 0, palAddr := 0, palHdr := [], fen := 0, bufs := [0x8000] }

/-- The frame that a frame start at LTC 1,000 opens for context 31, with the line that arrived at LTC 1,504. -/
def linedFrame : CamFrame := (newFrame 7 31 linedCtx 1000 900 false false).keep linedCtx 4 1504 [1, 2, 3, 4]

/-- CAM is enabled with its command ring in use; the frame waits in its context. -/
def destroyMeetsLine : State :=
  let s := ((State.reset.set STR_STATUS.BUSY 0).setLoaded 3 true).setB CAM_CTRL.ENABLE true
  { (s.setReg (RING_BASE_LO 0x09 0) 0x4000#32).setReg (CRING_BASE_LO 0x09 0) 0x1000#32 with
    ltc := 2000
    sys := { s.sys with mode := .run }
    cam := { ctxs := [(31, { linedCtx with newPal := false, bufs := [], cseq := 1 })], openSrc := [(14, some 2)], frames := [(2, linedFrame)], nextFrame := 3 } }

/-- CTX_DESTROY of context 31. -/
def destroyEntry : Entry := { flags := 1, handle := 0x1000001F, tag := 9, args := 0 }

theorem ready_destroyMeetsLine : destroyMeetsLine.ready 0x09 (0 : Fin 1).val 0 destroyEntry := by
  unfold State.ready State.ringFree
  decide

/-- The line's stamp, its arrival less RO_OFS, stands in the frame until the drop. -/
theorem stamps_linedFrame : linedFrame.stamps = [(0, 1404)] := rfl

/-- Refutes O42: its clause on CTX_DESTROY of a context with a waiting frame lets nothing but DROP_DESTROY, the state and the stored lines
of that frame change. The frame here has stored a line, so it has a stamp, and the drop removes that too. -/
theorem not_cameraContextCommandsFollowChapter15 : ¬ Obligations.CameraContextCommandsFollowChapter15 := by
  intro h
  obtain ⟨-, -, -, hdestroy, -⟩ := h
  have hlive : destroyMeetsLine.checkHandle 4 destroyMeetsLine.camLive destroyEntry.handle.toNat = none := by decide
  have hindex : hIndex destroyEntry.handle.toNat = 31 := by decide
  obtain ⟨t, hexec, -, -, hframes, -⟩ := hdestroy 0 destroyEntry 31 2 _ linedFrame destroyMeetsLine ready_destroyMeetsLine hlive hindex rfl rfl rfl rfl
  have hdropped : t.cam.frames = [(2, linedFrame.destroyed)] :=
    frames_execCtxDestroy_waiting ready_destroyMeetsLine hlive hindex rfl rfl rfl rfl hexec
  have hstamps : linedFrame.stamps = [] := stamps_nil_of_destroyed (hdropped.symm.trans hframes)
  exact absurd (stamps_linedFrame.symm.trans hstamps) (by decide)

end Sys2Proof.Machine
end

section
/-! PROOFS. The statements of spec/00_scope.md and spec/03_start_reset_retention.md on every command: what a step runs, the canonical reset,
that every command is answered, and that it stays in its frame. -/

namespace Sys2Proof.Machine

/-- Settles O1: a step of a waiting queue is the run of its first command. -/
theorem stepRunsTheFirstCommand : Obligations.StepRunsTheFirstCommand := fun _ _ _ => rfl

/-- Settles O4: the reset state is a finite datum, whose order the kernel checks. -/
theorem resetIsCanonical : Obligations.ResetIsCanonical := by
  unfold Obligations.ResetIsCanonical
  decide

/-- Settles O7: the frame of each command is its `Upd` law. -/
theorem everyCommandStaysInItsFrame : Obligations.EveryCommandStaysInItsFrame :=
  fun i s t h => within_of (exec_upd i s t h)

/-- The answer is a next state. -/
def Answered (o : Out) : Prop := ∃ t, o = .next t

theorem answered_next (t : State) : Answered (.next t) := ⟨t, rfl⟩

/-- A command that chooses ends every branch of its choice in a next state; the others are one next state as they stand. -/
theorem exec_answered (i : Instr) (s : State) : Answered (exec i s) := by
  cases i
  case sourceInvalid | tpulseFall | arbStarve | pkgLoadDone | jobComplete | recScanEnd | expDone | contributionArrive | imuSample | instantClose |
      publicationStart | instantEnd | yldCompute | yldTile | busOffRecovered | tpDelivery | canTxDone | canTxError | tpTimeout | bamGap | camLink |
      pocShort | pocOpen | csiPacket | cciEnd | pipelineSwitch | frameStart | frameEnd | frameTimeout | linePacket | camFrame | rfInterf | notchLock |
      acqDone | accTimeout | channelBoundary | ssupLimit | ssupFault | ainSamplePublish | pinEdge | pinGateEnd | pinStall | lacSample | lacWin |
      flowWindowEnd | dinEdge | cleStrobe | macAgeOut | pdelayReq | ethFrameRx | ethTxComplete | ethLinkChange | safetyResetRequest | degExpire |
      pairDisc | stpPulse | stpMaskEnd | rearmComplete | switchTestEnd | sfbChange | feedbackTimeout | partnerSafetyField | partnerLost | pairCycle |
      bodySendDone | flFault | pdetChange | ptempMeasure | pnlFrame | pnlRailReady | pnlRailDown | stagingEnd | usbData | bstOvp | outputOvercurrent |
      outputStb | bankOvercurrent | vlvSupplyRecover | startRegionLoadEnd | reloadCheckEnd | reloadStopEnd | reloadLoadEnd | reloadBind | cfgUncorr |
      safetyDomainReady | gessoDone | hostFirmwareLoaded | usbRecovery | runEntry | moduleResetAssert | keepAliveLoss | ignEdge | wdtEarly |
      blkRstDone | powerStateEntryDone | parkExit | opsecTick | checkEnd =>
    simp only [exec, execSourceInvalid, execTpulseFall, execArbStarve, execPkgLoadDone, execJobComplete, execRecScanEnd, execExpDone, execContributionArrive,
      execImuSample, execInstantClose, execPublicationStart, execInstantEnd, execYldCompute, execYldTile, execBusOffRecovered, execTpDelivery,
      execCanTxDone, execCanTxError, execTpTimeout, execBamGap, execCamLink, execPocShort, execPocOpen, execCsiPacket, execCciEnd, execPipelineSwitch,
      execFrameStart, execFrameEnd, execFrameTimeout, execLinePacket, execCamFrame, execRfInterf, execNotchLock, execAcqDone, execAccTimeout,
      execChannelBoundary, execSsupLimit, execSsupFault, execAinSamplePublish, execPinEdge, execPinGateEnd, execPinStall, execLacSample, execLacWin,
      execFlowWindowEnd, execDinEdge, execCleStrobe, execMacAgeOut, execPdelayReq, execEthFrameRx, execEthTxComplete, execEthLinkChange,
      execSafetyResetRequest, execDegExpire, execPairDisc, execStpPulse, execStpMaskEnd, execRearmComplete, execSwitchTestEnd, execSfbChange,
      execFeedbackTimeout, execPartnerSafetyField, execPartnerLost, execPairCycle, execBodySendDone, execFlFault, execPdetChange, execPtempMeasure,
      execPnlFrame, execPnlRailReady, execPnlRailDown, execStagingEnd, execUsbData, execBstOvp, execOutputOvercurrent, execOutputStb,
      execBankOvercurrent, execVlvSupplyRecover, execStartRegionLoadEnd, execReloadCheckEnd, execReloadStopEnd, execReloadLoadEnd, execReloadBind,
      execCfgUncorr, execSafetyDomainReady, execGessoDone, execHostFirmwareLoaded, execUsbRecovery, execRunEntry, execModuleResetAssert,
      execKeepAliveLoss, execIgnEdge, execWdtEarly, execBlkRstDone, execPowerStateEntryDone, execParkExit, execOpsecTick, execCheckEnd]
    repeat' split
    all_goals exact answered_next _
  all_goals exact answered_next _

/-- Settles O6: every branch of every command ends in a next state, and the `Upd` law keeps part number and queue. -/
theorem everyCommandIsAnswered : Obligations.EveryCommandIsAnswered := by
  intro i s
  obtain ⟨t, ht⟩ := exec_answered i s
  have hu := exec_upd i s t ht
  exact ⟨t, ht, hu.part, hu.pending⟩

end Sys2Proof.Machine
end

section
/-! PROOFS. The statements of spec/25_update_lifecycle.md on what only grows: MIN_SVN never falls, a programmed key slot keeps its key, and the
life cycle moves to the pending target alone (R516, R520, R521). -/

set_option Elab.async false

namespace Sys2Proof.Machine

/-- MIN_SVN is no lower, the one-time key slots hold what they held, and the life cycle is as before. -/
structure NvKept (s t : State) : Prop where
  minSvn : s.nv.minSvn ≤ t.nv.minSvn
  otp : ∀ k p, tget s.nv.otp k = some p → tget t.nv.otp k = some p
  lifeCycle : t.nv.lifeCycle = s.nv.lifeCycle

theorem nvKept_of_nv {s t : State} (h : t.nv = s.nv) : NvKept s t := by
  constructor <;> simp [h]

theorem nvKept_refl (s : State) : NvKept s s := nvKept_of_nv rfl

theorem NvKept.trans {s t u : State} (h : NvKept s t) (h' : NvKept t u) : NvKept s u :=
  ⟨h.minSvn.trans h'.minSvn, fun k p hp => h'.otp k p (h.otp k p hp), h'.lifeCycle.trans h.lifeCycle⟩

/-- What does not list the system area keeps it. -/
theorem nvKept_of_upd {P : List Comp} {W : Option (List Nat)} {s t : State} (h : Upd P W s t) (hp : Comp.nv ∉ P := by decide) : NvKept s t :=
  nvKept_of_nv (h.same .nv hp)

/-- A change of the system area that leaves the three parts alone, whatever it does beside it. -/
theorem nvKept_of_parts {s t : State} (hm : t.nv.minSvn = s.nv.minSvn) (ho : t.nv.otp = s.nv.otp) (hl : t.nv.lifeCycle = s.nv.lifeCycle) :
    NvKept s t := ⟨hm ▸ Nat.le_refl _, fun _ _ h => ho ▸ h, hl⟩

theorem nvKept_set (f : Fld) (v : Nat) (s : State) : NvKept s (s.set f v) := nvKept_of_nv (set_nv ..)

theorem nvKept_setB (f : Fld) (v : Bool) (s : State) : NvKept s (s.setB f v) := nvKept_of_nv (setB_nv ..)

theorem nvKept_finish (c : Cmd) (code : Nat) (s : State) : NvKept s (c.finish code s) := nvKept_of_upd (finish_any c code s)

/-! ### Commands of UPD (R510 to R521) -/

theorem nvKept_placeComponent (a : Nat) (e : UpdEntry) (b : List Byte) (s : State) : NvKept s (s.placeComponent a e b) := by
  have hcounted := nvKept_set UPD_PROG.KIB (satTo (2 ^ 26 - 1) (s.get UPD_PROG.KIB + ceilDiv b.length 1024)) s
  unfold State.placeComponent
  dsimp only
  generalize s.set UPD_PROG.KIB (satTo (2 ^ 26 - 1) (s.get UPD_PROG.KIB + ceilDiv b.length 1024)) = u at hcounted ⊢
  refine hcounted.trans ?_
  split
  · exact nvKept_of_parts rfl rfl rfl
  · split <;> exact nvKept_of_parts rfl rfl rfl

theorem nvKept_stageNamed (a : Nat) (rd : PkgRead) (stop : Option Nat) (es done : List UpdEntry) (s : State) :
    NvKept s (State.stageNamed a rd stop es done s).2.2 := by
  induction es generalizing done s with
  | nil => exact nvKept_refl s
  | cons e es ih =>
    unfold State.stageNamed
    refine (nvKept_set UPD_PROG.ENTRY done.length s).trans ?_
    dsimp only
    split
    · exact nvKept_refl _
    · split
      · exact nvKept_refl _
      · exact (nvKept_placeComponent ..).trans (ih _ _)

theorem nvKept_stageCarry (a : Nat) (hdr : List Byte) (stop : Option Nat) (ks : List (Nat × Nat)) (done : List UpdEntry) (s : State) :
    NvKept s (State.stageCarry a hdr stop ks done s).2.2 := by
  induction ks generalizing done s with
  | nil => exact nvKept_refl s
  | cons k ks ih =>
    unfold State.stageCarry
    dsimp only
    split
    · exact ih _ _
    · refine (nvKept_set UPD_PROG.ENTRY 0x3F s).trans ?_
      split
      · exact nvKept_refl _
      · split
        · exact nvKept_refl _
        · split
          · exact nvKept_refl _
          · split
            · exact nvKept_refl _
            · exact (nvKept_placeComponent ..).trans (ih _ _)

/-- A package that is FULL carries nothing (R512). -/
theorem nvKept_carried {a : Nat} {hdr : List Byte} {stop : Option Nat} {ks : List (Nat × Nat)} {done all : List UpdEntry} {u v : State} {c : Option Nat}
    {full : Prop} [Decidable full] (h : (if full then (none, done, u) else State.stageCarry a hdr stop ks done u) = (c, all, v)) : NvKept u v := by
  split at h
  · cases h; exact nvKept_refl u
  · have hcarry := nvKept_stageCarry a hdr stop ks done u
    rw [h] at hcarry
    exact hcarry

theorem nvKept_stageRun (a : Nat) (man : List Byte) (rd : PkgRead) (stop : Option Nat) (s : State) : NvKept s (s.stageRun a man rd stop).2 := by
  have hnamed := nvKept_stageNamed a rd stop (manEntries man) [] s
  unfold State.stageRun
  dsimp only
  split
  · next h => rw [h] at hnamed; exact hnamed
  · next done u h =>
    rw [h] at hnamed
    split
    · next h' => exact hnamed.trans (nvKept_carried h')
    · next h' =>
      refine (hnamed.trans (nvKept_carried h')).trans ?_
      generalize (if hasEntry done (3, 0) = true then _ else _ : List Byte) = hdr
      split
      · exact nvKept_refl _
      · exact nvKept_of_nv rfl

theorem nvKept_opStage (c : Cmd) (s : State) (_ : c.blk = 0x13) : NvKept s (opStage c s) := by
  unfold opStage
  dsimp only
  split
  · refine NvKept.trans ?_ (nvKept_finish c 0 _)
    refine NvKept.trans ?_ (nvKept_of_upd (State_arbRequest_mut ..))
    refine NvKept.trans ?_ (nvKept_set UPD_PROG.ENTRY 0 _)
    refine NvKept.trans ?_ (nvKept_set UPD_PROG.KIB 0 _)
    refine NvKept.trans ?_ (nvKept_setB UPD_STAT.STAGING true _)
    exact nvKept_of_parts rfl rfl rfl
  · exact nvKept_finish c _ s

theorem nvKept_opVarnish (c : Cmd) (s : State) (_ : c.blk = 0x13) : NvKept s (opVarnish c s) := by
  unfold opVarnish
  split
  · exact nvKept_finish c _ s
  · split
    · exact nvKept_finish c _ s
    · refine NvKept.trans ?_ (nvKept_finish c 0 _)
      refine NvKept.trans ?_ (nvKept_of_upd (State_raise_mut ..))
      refine NvKept.trans ?_ (nvKept_of_upd (State_pendVarnish_mut _))
      exact nvKept_of_parts rfl rfl rfl

theorem nvKept_opConfirm (c : Cmd) (s : State) (_ : c.blk = 0x13) : NvKept s (opConfirm c s) := by
  unfold opConfirm
  split
  · exact nvKept_finish c _ s
  · refine NvKept.trans ?_ (nvKept_finish c 0 _)
    exact ⟨Nat.le_max_left .., fun _ _ h => h, rfl⟩

theorem nvKept_opLcChange (c : Cmd) (s : State) (_ : c.blk = 0x13) : NvKept s (opLcChange c s) := by
  unfold opLcChange
  refine NvKept.trans ?_ (nvKept_of_upd (State_newNonce_mut _))
  split
  · exact nvKept_finish c _ s
  · split
    · exact nvKept_finish c _ s
    · split
      · exact nvKept_finish c _ s
      · refine NvKept.trans ?_ (nvKept_finish c 0 _)
        exact nvKept_of_parts rfl rfl rfl

/-- KEY_PROG writes only a slot that holds no key (R521). -/
theorem nvKept_opKeyProg (c : Cmd) (s : State) (_ : c.blk = 0x13) : NvKept s (opKeyProg c s) := by
  unfold opKeyProg
  dsimp only
  split
  · exact nvKept_finish c _ s
  · split
    · exact nvKept_finish c _ s
    · split
      · exact nvKept_finish c _ s
      · next hempty =>
        refine NvKept.trans ?_ (nvKept_finish c 0 _)
        refine ⟨Nat.le_refl _, fun k p hp => ?_, rfl⟩
        have hk : k ≠ c.arg 16 1 := by rintro rfl; simp [hp] at hempty
        simpa only [tget_tput, if_neg hk] using hp

/-! ### Commands of ETH (R455) -/

theorem nvKept_nextSeq (slot key ep : Nat) (s : State) : NvKept s (s.nextSeq slot key ep).2 := by
  unfold State.nextSeq
  split
  · exact nvKept_of_nv rfl
  · split
    · exact nvKept_of_upd (State_keySpent_mut ..)
    · split
      · exact nvKept_of_upd ((State_drawn_mut s).mono (Q := [.free, .rcd, .cyc]) (V := none) rfl rfl |>.trans ((State_raise_mut 306 _).mono rfl rfl))
      · exact nvKept_of_parts rfl rfl rfl

theorem nvKept_opFleetSend (c : Cmd) (s : State) (_ : c.blk = 0x0F) : NvKept s (opFleetSend c s) := by
  unfold opFleetSend
  dsimp only
  split
  case h_3 p _ _ =>
    split
    · exact nvKept_finish c _ s
    · split
      · exact nvKept_finish c _ s
      · split
        · exact nvKept_finish c _ s
        · next key ep _ =>
          split
          · exact nvKept_finish c _ s
          · have hseq := nvKept_nextSeq p.txKey key ep s
            split
            · next h => rw [h] at hseq; exact hseq.trans (nvKept_finish c _ _)
            · next h => rw [h] at hseq; exact hseq.trans (nvKept_of_upd (State_egressPut_mut ..))
  all_goals exact nvKept_finish c _ s

theorem nvKept_keyShown (c : Cmd) (k : Nat) (s : State) : NvKept s (c.finish 0x00 ((s.keyShow k).setB (ETH_KEY_STAT.SPENT k) false)) :=
  ((nvKept_setB (ETH_KEY_STAT.FULL k) _ s).trans (nvKept_setB (ETH_KEY_STAT.SPENT k) false _)).trans (nvKept_finish c 0 _)

theorem nvKept_opKeyLoad (c : Cmd) (s : State) (_ : c.blk = 0x0F) : NvKept s (opKeyLoad c s) := by
  unfold opKeyLoad
  dsimp only
  split
  · exact nvKept_finish c _ s
  · split
    · exact nvKept_finish c _ s
    · refine NvKept.trans ?_ (nvKept_keyShown c _ _)
      exact nvKept_of_parts rfl rfl rfl

theorem nvKept_opKeyErase (c : Cmd) (s : State) (_ : c.blk = 0x0F) : NvKept s (opKeyErase c s) := by
  unfold opKeyErase
  dsimp only
  split
  · exact nvKept_finish c _ s
  · split
    · exact nvKept_finish c _ s
    · refine NvKept.trans ?_ (nvKept_keyShown c _ _)
      exact nvKept_of_parts rfl rfl rfl

/-! ### Entries of a ring -/

theorem nvKept_controlOnly {op : Cmd → State → State} (c : Cmd) (s : State) (hc : c.blk = 0x0A) (h : ∀ c u, c.blk = 0x0A → NvKept u (op c u)) :
    NvKept s (controlOnly op c s) := by
  unfold controlOnly
  split
  · exact h c s hc
  · exact nvKept_finish c 5 s

/-- Every operation of the command table, on a command of its block. -/
theorem nvKept_opOf {b opcode mask : Nat} {op : Cmd → State → State} (c : Cmd) (u : State) (h : opOf b opcode = some (mask, op)) (hc : c.blk = b) :
    NvKept u (op c u) := by
  unfold opOf at h
  split at h
  · cases h; exact nvKept_of_upd (opSlotCreate_mut c u hc)
  · cases h; exact nvKept_of_upd (opSlotDestroy_mut c u hc)
  · cases h; exact nvKept_of_upd (opSlotStart_mut c u hc)
  · cases h; exact nvKept_of_upd (opSlotStop_mut c u hc)
  · cases h; exact nvKept_of_upd (opStart_mut c u hc)
  · cases h; exact nvKept_of_upd (opCancel_mut c u hc)
  · cases h; exact nvKept_of_upd (opChCreate_mut c u hc)
  · cases h; exact nvKept_of_upd (opSteer_mut c u hc)
  · cases h; exact nvKept_of_upd (opChDestroy_mut c u hc)
  · cases h; exact nvKept_of_upd (opChResolve_mut c u hc)
  · cases h; exact nvKept_of_upd (opAcqStart_mut c u hc)
  · cases h; exact nvKept_of_upd (opCtxCreate_mut c u hc)
  · cases h; exact nvKept_of_upd (opCtxDestroy_mut c u hc)
  · cases h; exact nvKept_of_upd (opCtxPalette_mut c u hc)
  · cases h; exact nvKept_of_upd (opBufGive_mut c u hc)
  · cases h; exact nvKept_of_upd (opCtxBind_mut c u hc)
  · cases h; exact nvKept_controlOnly c u hc fun c u hc => nvKept_of_upd (opPkgLoad_mut c u hc)
  · cases h; exact nvKept_controlOnly c u hc fun c u hc => nvKept_of_upd (opPkgUnload_mut c u hc)
  · cases h; exact nvKept_controlOnly c u hc fun c u hc => nvKept_of_upd (opStreamCreate_mut c u hc)
  · cases h; exact nvKept_controlOnly c u hc fun c u hc => nvKept_of_upd (opStreamDestroy_mut c u hc)
  · cases h; exact nvKept_of_upd (opFenJob_mut c u hc)
  · cases h; exact nvKept_of_upd (opReqCreate_mut c u hc)
  · cases h; exact nvKept_of_upd (opReqDestroy_mut c u hc)
  · cases h; exact nvKept_of_upd (opReqClass_mut c u hc)
  · cases h; exact nvKept_of_upd (opSrcCreate_mut c u hc)
  · cases h; exact nvKept_of_upd (opSrcDestroy_mut c u hc)
  · cases h; exact nvKept_of_upd (opFusSubmit_mut c u hc)
  · cases h; exact nvKept_of_upd (opLayerCreate_mut c u hc)
  · cases h; exact nvKept_of_upd (opLayerDestroy_mut c u hc)
  · cases h; exact nvKept_of_upd (opYldPose_mut c u hc)
  · cases h; exact nvKept_of_upd (opYldFlush_mut c u hc)
  · cases h; exact nvKept_of_upd (opObjCreate_mut c u hc)
  · cases h; exact nvKept_of_upd (opObjDestroy_mut c u hc)
  · cases h; exact nvKept_of_upd (opQCreate_mut c u hc)
  · cases h; exact nvKept_of_upd (opQDestroy_mut c u hc)
  · cases h; exact nvKept_of_upd (opTpSend_mut c u hc)
  · cases h; exact nvKept_of_upd (opTpAbort_mut c u hc)
  · cases h; exact nvKept_of_upd (opPeerCreate_mut c u hc)
  · cases h; exact nvKept_of_upd (opPeerDestroy_mut c u hc)
  · cases h; exact nvKept_opFleetSend c u hc
  · cases h; exact nvKept_opKeyLoad c u hc
  · cases h; exact nvKept_opKeyErase c u hc
  · cases h; exact nvKept_of_upd (opFrameTx_mut c u hc)
  · cases h; exact nvKept_of_upd (opBodySend_mut c u hc)
  · cases h; exact nvKept_of_upd (opPnlPowerOn_mut c u hc)
  · cases h; exact nvKept_of_upd (opPnlPowerOff_mut c u hc)
  · cases h; exact nvKept_of_upd (opPnlRefresh_mut c u hc)
  · cases h; exact nvKept_of_upd (opPnlDischarge_mut c u hc)
  · cases h; exact nvKept_of_upd (opRecCreate_mut c u hc)
  · cases h; exact nvKept_of_upd (opRecDestroy_mut c u hc)
  · cases h; exact nvKept_of_upd (opRecPut_mut c u hc)
  · cases h; exact nvKept_of_upd (opRecFlush_mut c u hc)
  · cases h; exact nvKept_of_upd (opRecExport_mut c u hc)
  · cases h; exact nvKept_opStage c u hc
  · cases h; exact nvKept_of_upd (opUpdAbort_mut c u hc)
  · cases h; exact nvKept_opVarnish c u hc
  · cases h; exact nvKept_opConfirm c u hc
  · cases h; exact nvKept_opLcChange c u hc
  · cases h; exact nvKept_opKeyProg c u hc
  · cases h

theorem nvKept_entryOp (b opcode : Nat) (c : Cmd) (u : State) (hc : c.blk = b) : NvKept u ((entryOp b opcode).2 c u) := by
  unfold entryOp
  split
  · exact nvKept_finish c 0 u
  · cases h : opOf b opcode with
    | none => exact nvKept_finish c 5 u
    | some x => exact nvKept_opOf c u h hc

theorem nvKept_runEntry {b r opcode mask : Nat} {e : Entry} {op : Cmd → State → State} (s : State) (h : ∀ c u, c.blk = b → NvKept u (op c u)) :
    NvKept s (s.runEntry b r opcode mask e op) := by
  have hlisted : NvKept s (s.enlist b r opcode e).2 := nvKept_of_nv rfl
  unfold State.runEntry
  dsimp only
  split
  · exact hlisted.trans (nvKept_of_upd (refuse_any ..))
  · split
    · exact hlisted.trans (h _ _ rfl)
    · exact hlisted.trans (nvKept_of_upd (refuse_any ..))

theorem nvKept_runRow {b r opcode mask : Nat} {e : Entry} {op : Cmd → State → State} (s : State) (h : ∀ c u, c.blk = b → NvKept u (op c u)) :
    NvKept s (s.runRow b r opcode mask e op) := by
  unfold State.runRow
  split
  · exact (nvKept_of_upd (State_restSpacing_mut b r opcode s)).trans (nvKept_runEntry _ h)
  · exact nvKept_refl s

/-- An entry that may run is taken off its ring and run; one that may not leaves the state. -/
theorem nvKept_taken (b r opcode mask : Nat) (v : Nat) (may : Bool) (e : Entry) (u : State) :
    NvKept u (if !may then u else ((u.set (RING_CI b r) v).restSpacing b r opcode).runEntry b r opcode mask e (entryOp b opcode).2) := by
  split
  · exact nvKept_refl u
  · refine NvKept.trans ?_ (nvKept_runEntry (op := (entryOp b opcode).2) _ fun c w hc => nvKept_entryOp b opcode c w hc)
    exact (nvKept_set (RING_CI b r) v u).trans (nvKept_of_upd (State_restSpacing_mut ..))

theorem nvKept_takeEntry (b r : Nat) (s : State) : NvKept s (s.takeEntry b r) := by
  have hdrawn : NvKept s (if (s.ring b r).odd then s.drawn else s) := by split <;> exact nvKept_of_nv rfl
  exact hdrawn.trans (nvKept_taken ..)

/-! ### Start-up, resets and power states -/

theorem nvKept_fallBack (s : State) : NvKept s s.fallBack :=
  NvKept.trans (t := { s with nv := { s.nv with active := 1 - s.nv.active, trial := false, inact := .invalid } }) (nvKept_of_parts rfl rfl rfl)
    (nvKept_setB UPD_STAT.FELLBACK true _)

theorem nvKept_resolveSlot (s : State) : NvKept s s.resolveSlot := by
  unfold State.resolveSlot
  split
  · split
    · exact nvKept_of_parts rfl rfl rfl
    · exact nvKept_fallBack s
  · exact nvKept_refl s

/-- What a cold start counts in the KA window (R66, R72). -/
def State.coldCounted (s : State) : State :=
  let s := s.recordCold
  let s := { s with ka := { s.ka with pwrcyc := satTo 0xFFFFFFFF (s.ka.pwrcyc + 1) } }
  let s := s.setReg KA_PWRCYC (BitVec.ofNat 32 s.ka.pwrcyc)
  let s := if s.ka.vkaLow then s.supplyFlag SYS_SUPPLY.VKA_LOW else s
  { s with ka := { s.ka with vkaLow := false } }

/-- What phase 2 has recorded before the slot pointer is resolved. -/
def State.startRecorded (cold module : Bool) (s : State) : State :=
  let s := if cold then s.coldCounted else s
  if module then s.recordModule else s

theorem phase2End_eq (cold module : Bool) (s : State) :
    s.phase2End cold module =
      { (({ s with ltc := 0 }).startRecorded cold module).resolveSlot.settingsCheck.newNonce with sys := { mode := .starting } } := rfl

theorem nvKept_coldCounted (s : State) : NvKept s s.coldCounted := by
  unfold State.coldCounted
  refine (nvKept_of_upd (State_recordCold_mut s)).trans ?_
  generalize s.recordCold = u
  dsimp only
  generalize satTo 0xFFFFFFFF (u.ka.pwrcyc + 1) = n
  have hshown : NvKept u (({ u with ka := { u.ka with pwrcyc := n } } : State).setReg KA_PWRCYC (BitVec.ofNat 32 n)) :=
    nvKept_of_nv (setReg_nv ..)
  refine hshown.trans ?_
  generalize State.setReg KA_PWRCYC (BitVec.ofNat 32 n) _ = v
  split
  · exact (nvKept_of_upd (State_supplyFlag_mut SYS_SUPPLY.VKA_LOW v rfl)).trans (nvKept_of_nv rfl)
  · exact nvKept_of_nv rfl

theorem nvKept_startRecorded (cold module : Bool) (s : State) : NvKept s (s.startRecorded cold module) := by
  have hcold : NvKept s (if cold then s.coldCounted else s) := by
    cases cold
    · exact nvKept_refl s
    · exact nvKept_coldCounted s
  refine hcold.trans ?_
  cases module
  · exact nvKept_refl _
  · exact nvKept_of_upd (State_recordModule_mut _)

theorem nvKept_phase2End (cold module : Bool) (s : State) : NvKept s (s.phase2End cold module) := by
  rw [phase2End_eq]
  have hstart : NvKept s (({ s with ltc := 0 } : State).startRecorded cold module) :=
    NvKept.trans (t := { s with ltc := 0 }) (nvKept_of_nv rfl) (nvKept_startRecorded cold module _)
  generalize ({ s with ltc := 0 } : State).startRecorded cold module = u at hstart ⊢
  have hchecked := (nvKept_resolveSlot u).trans (nvKept_of_upd (State_settingsCheck_mut _))
  have hnonce := hchecked.trans (nvKept_of_upd (State_newNonce_mut _))
  generalize u.resolveSlot.settingsCheck.newNonce = v at hnonce ⊢
  exact (hstart.trans hnonce).trans (nvKept_of_nv rfl)

theorem nv_unloadAll (l : List Nat) (s : State) : (l.foldl (fun (u : State) r => u.unloadRegion r) s).nv = s.nv := by
  induction l generalizing s with
  | nil => rfl
  | cons r l ih => exact (ih _).trans ((State_unloadRegion_mut r s).same .nv (by decide))

theorem nvKept_restartPhase3 (s : State) : NvKept s s.restartPhase3 := by
  have hback := (nvKept_fallBack s).trans (nvKept_of_upd (State_settingsCheck_mut _))
  unfold State.restartPhase3
  generalize s.fallBack.settingsCheck = u at hback ⊢
  dsimp only
  have hun := (nvKept_of_upd (State_blockWiped_mut 0x07 u)).trans (nvKept_of_nv (nv_unloadAll (List.range 10) (u.blockWiped 0x07)))
  generalize (List.range 10).foldl (fun (u : State) r => u.unloadRegion r) (u.blockWiped 0x07) = v at hun ⊢
  have hshown := (nvKept_set STR_STATUS.BUSY 0x1FF v).trans (nvKept_setB STR_STATUS.BOOT_DONE false _)
  generalize (v.set STR_STATUS.BUSY 0x1FF).setB STR_STATUS.BOOT_DONE false = w at hshown ⊢
  exact ((hback.trans hun).trans hshown).trans (nvKept_of_nv rfl)

theorem nvKept_writeMirror (s : State) : NvKept s s.writeMirror := nvKept_of_parts rfl rfl rfl

/-! ### The commands that may change the system area -/

theorem nvKept_stagingOff (s : State) : NvKept s s.stagingOff := nvKept_of_upd (State_stagingOff_mut s)

/-- The answer keeps the three parts of the system area. -/
def OutKept (s : State) (o : Out) : Prop := ∀ t, o = .next t → NvKept s t

theorem outKept_next {s t : State} (h : NvKept s t) : OutKept s (.next t) := fun _ ht => by cases ht; exact h

theorem outKept_stagingEnd (stop : Option (Fin 64)) (s : State) : OutKept s (execStagingEnd stop s) := by
  unfold execStagingEnd
  split
  · exact outKept_next (nvKept_refl s)
  · next g _ =>
    split
    · exact outKept_next (nvKept_refl s)
    · dsimp only
      have hrun := nvKept_stageRun (1 - s.nv.active) g.man (fun o n => memBytes s.dram (g.addr + o) n) (stop.map (·.val)) s
      generalize s.stageRun (1 - s.nv.active) g.man (fun o n => memBytes s.dram (g.addr + o) n) (stop.map (·.val)) = run at hrun ⊢
      obtain ⟨code, u⟩ := run
      dsimp only at hrun ⊢
      have hoff := hrun.trans (nvKept_stagingOff u)
      split
      · exact outKept_next hoff
      · have hreason := hoff.trans (nvKept_set UPD_STAT.REASON (0x1300 + code) u.stagingOff)
        refine outKept_next (hreason.trans ?_)
        generalize u.stagingOff.set UPD_STAT.REASON (0x1300 + code) = v
        split
        · refine NvKept.trans ?_ (nvKept_of_upd (State_raise_mut 345 _))
          exact nvKept_of_parts rfl rfl rfl
        · exact nvKept_of_upd (State_raise_mut 346 v)

theorem outKept_usbRecovery (pkg : List Byte) (stop : Option (Fin 64)) (s : State) : OutKept s (execUsbRecovery pkg stop s) := by
  unfold execUsbRecovery
  dsimp only
  split
  · exact outKept_next (nvKept_refl s)
  · split
    · have hrun := nvKept_stageRun 0 ((pkg.drop 256).take (fieldN ((pkg.drop 0).take 256) 16 2)) (fun o n => (pkg.drop o).take n)
        (stop.map fun (n : Fin 64) => n.val) { s with nv := { s.nv with inact := .invalid } }
      generalize State.stageRun 0 _ _ _ _ = run at hrun ⊢
      obtain ⟨code, u⟩ := run
      have hstaged : NvKept s u := NvKept.trans (t := { s with nv := { s.nv with inact := .invalid } }) (nvKept_of_parts rfl rfl rfl) hrun
      split
      · exact outKept_next (hstaged.trans (nvKept_set UPD_STAT.REASON _ u))
      · refine outKept_next (hstaged.trans ?_)
        refine NvKept.trans ?_ (nvKept_of_upd (State_assertModuleReset_mut 5 _))
        exact nvKept_of_parts rfl rfl rfl
    · exact outKept_next (nvKept_set UPD_STAT.REASON _ s)

theorem nvKept_recovery (s : State) : NvKept s (State.usbShow { s with sys := { s.sys with mode := .recovery } }) :=
  NvKept.trans (t := { s with sys := { s.sys with mode := .recovery } }) (nvKept_of_nv rfl) (nvKept_of_upd (State_usbShow_mut _))

theorem outKept_hostFirmwareLoaded (ok : Bool) (s : State) : OutKept s (execHostFirmwareLoaded ok s) := by
  unfold execHostFirmwareLoaded
  split
  · split
    · exact outKept_next (nvKept_recovery s)
    · split
      · exact outKept_next (nvKept_of_nv rfl)
      · split
        · exact outKept_next (nvKept_restartPhase3 s)
        · exact outKept_next (nvKept_recovery s)
  · exact outKept_next (nvKept_refl s)

theorem nvKept_parkEntered {s u : State} (h : NvKept s u) : NvKept s (u.parkOff.setB SYS_PWR_STAT.BUSY false) :=
  (h.trans (nvKept_of_upd (State_parkOff_mut u))).trans (nvKept_setB SYS_PWR_STAT.BUSY false _)

theorem nvKept_sys {s u : State} (y : SysState) (h : NvKept s u) : NvKept s { u with sys := y } := h.trans (nvKept_of_nv rfl)

theorem nvKept_standby {s u : State} (wake : Bool) (h : NvKept s u) :
    NvKept s (if wake then u.wipeModule.leaveStandby else { u.wipeModule with sys := { mode := .standby } }) := by
  have hwiped := h.trans (nvKept_of_upd (State_wipeModule_mut u))
  split
  · exact hwiped.trans (nvKept_of_upd (State_leaveStandby_mut _))
  · exact nvKept_sys _ hwiped

theorem outKept_powerStateEntryDone (s : State) : OutKept s (execPowerStateEntryDone s) := by
  unfold execPowerStateEntryDone
  split
  · exact outKept_next (nvKept_refl s)
  · split
    · exact outKept_next (nvKept_refl s)
    · have hmirror := (nvKept_of_upd (State_safEntryWelds_mut s)).trans (nvKept_writeMirror _)
      generalize s.safEntryWelds.writeMirror = u at hmirror ⊢
      dsimp only
      split
      · exact outKept_next (nvKept_standby _ hmirror)
      · exact outKept_next (nvKept_sys _ (nvKept_parkEntered hmirror))

/-- The Gesso pass of a pending life-cycle change moves to its target and ends it (R83, R520); with none pending nothing changes. -/
theorem lifeCycleGesso_moves (s : State) :
    s.lifeCycleGesso.nv.minSvn = s.nv.minSvn ∧ s.lifeCycleGesso.nv.otp = s.nv.otp ∧
    (s.lifeCycleGesso.nv.lifeCycle = s.nv.lifeCycle ∨ (s.nv.lcTarget = some s.lifeCycleGesso.nv.lifeCycle ∧ s.lifeCycleGesso.nv.lcTarget = none)) := by
  unfold State.lifeCycleGesso
  split
  · exact ⟨rfl, rfl, .inl rfl⟩
  · next t ht => exact ⟨rfl, rfl, .inr ⟨ht, rfl⟩⟩

/-- What a command may do to MIN_SVN, the one-time key slots and the life cycle. -/
def NvMoves (s t : State) : Prop :=
  s.nv.minSvn ≤ t.nv.minSvn ∧ (∀ k p, tget s.nv.otp k = some p → tget t.nv.otp k = some p) ∧
  (t.nv.lifeCycle = s.nv.lifeCycle ∨ (s.nv.lcTarget = some t.nv.lifeCycle ∧ t.nv.lcTarget = none))

theorem NvKept.moves {s t : State} (h : NvKept s t) : NvMoves s t := ⟨h.minSvn, h.otp, .inl h.lifeCycle⟩

theorem nvMoves_gessoDone {readErr : Bool} {s t : State} (h : execGessoDone readErr s = .next t) : NvMoves s t := by
  unfold execGessoDone at h
  split at h
  · cases h
    generalize hu : ({ s with dram := [], sys := { s.sys with gesso := true } } : State) = u
    have hnv : u.nv = s.nv := by rw [← hu]
    have hboot := (State_bootStart_mut 0x1FF readErr u.lifeCycleGesso).same .nv (by decide)
    obtain ⟨hmin, hotp, hlife⟩ := lifeCycleGesso_moves u
    have hboot : (State.bootStart 0x1FF readErr u.lifeCycleGesso).nv = u.lifeCycleGesso.nv := hboot
    unfold NvMoves
    rw [hboot, hmin, hotp, ← hnv]
    exact ⟨Nat.le_refl _, fun _ _ hp => hp, hlife⟩
  · cases h; exact (nvKept_refl s).moves

/-- What a command whose frame holds no system area does to it: nothing. -/
theorem nvMoves_of_frame {i : Instr} {s t : State} (h : exec i s = .next t) (hf : (touches i).1.elem .nv = false) : NvMoves s t :=
  (nvKept_of_upd (exec_upd i s t h) (by simpa using hf)).moves

/-- Settles O9: the commands whose frame holds the system area, one by one; only the Gesso pass moves the life cycle. -/
theorem rollbackLimitAndFuseKeysNeverGoBack : Obligations.RollbackLimitAndFuseKeysNeverGoBack := by
  intro i s t h
  show NvMoves s t
  cases i
  case oscillatorsReady => exact ((outKept_next (by split <;> [exact nvKept_phase2End ..; exact nvKept_refl s])) t h).moves
  case moduleResetRelease => exact ((outKept_next (by split <;> [exact nvKept_phase2End ..; exact nvKept_refl s])) t h).moves
  case gessoDone => exact nvMoves_gessoDone h
  case hostFirmwareLoaded => exact (outKept_hostFirmwareLoaded _ s t h).moves
  case powerStateEntryDone => exact (outKept_powerStateEntryDone s t h).moves
  case kaMirrorWrite => exact ((outKept_next (by split <;> [exact nvKept_writeMirror s; exact nvKept_refl s])) t h).moves
  case commandTake => exact (outKept_next (nvKept_takeEntry ..) t h).moves
  case fleetSend => exact (outKept_next (nvKept_runRow s nvKept_opFleetSend) t h).moves
  case keyLoad => exact (outKept_next (nvKept_runRow s nvKept_opKeyLoad) t h).moves
  case keyErase => exact (outKept_next (nvKept_runRow s nvKept_opKeyErase) t h).moves
  case updStage => exact (outKept_next (nvKept_runRow s nvKept_opStage) t h).moves
  case stagingEnd => exact (outKept_stagingEnd _ s t h).moves
  case updVarnish => exact (outKept_next (nvKept_runRow s nvKept_opVarnish) t h).moves
  case updConfirm => exact (outKept_next (nvKept_runRow s nvKept_opConfirm) t h).moves
  case keyProg => exact (outKept_next (nvKept_runRow s nvKept_opKeyProg) t h).moves
  case lcChange => exact (outKept_next (nvKept_runRow s nvKept_opLcChange) t h).moves
  case usbRecovery => exact (outKept_usbRecovery _ _ s t h).moves
  all_goals exact nvMoves_of_frame h rfl

end Sys2Proof.Machine
end

section
/-! PROOFS. The statements of spec/16_feature_engine_arbiters.md on the arbiters (R359 to R365): what a grant, the end of a grant and a
revocation show, and which request a decision takes. -/

namespace Sys2Proof.Machine

/-! ### Frames, one operation at a time -/

section Frames
variable {s u t : State} {ps qs : List Comp} {fs gs : List Fld}

/-- An operation inside the frame keeps the frame. -/
theorem only_then (h : s.only ps fs u) (h' : u.only qs gs t) (hp : ∀ p ∈ qs, p ∈ ps) (hf : ∀ f ∈ gs, f ∈ fs) : s.only ps fs t :=
  only_trans h (only_mono h' hp hf)

theorem only_then_set {f : Fld} (h : s.only ps fs u) (v : Nat) (hf : f ∈ fs) (hw : f.lo + f.width ≤ 32) : s.only ps fs (u.set f v) :=
  only_then h (only_set u v hw) (by simp) (by simpa using hf)

theorem only_then_setB {f : Fld} (h : s.only ps fs u) (v : Bool) (hf : f ∈ fs) (hw : f.lo + f.width ≤ 32) : s.only ps fs (u.setB f v) :=
  only_then_set h _ hf hw

theorem only_then_raise (h : s.only ps fs u) (n : Nat) (hr : .rcd ∈ ps) (hc : .cyc ∈ ps) (hf : ∀ f ∈ raiseFlds n, f ∈ fs) : s.only ps fs (u.raise n) :=
  only_then h (only_raise u n) (by simp [hr, hc]) hf

/-- A field that the frame does not name. -/
theorem getB_of_only {g : Fld} (h : s.only ps fs t) (hg : ∀ f ∈ fs, g.apart f) : t.getB g = s.getB g := getB_of_get (h.2.1 g hg)

theorem apart_of_addr {g f : Fld} (h : g.addr ≠ f.addr) : g.apart f := .inl h

/-- A field of another window than a frame's. -/
theorem apart_of_window {g : Fld} (h : ∀ f ∈ fs, windowOf f.addr ≠ windowOf g.addr) : ∀ f ∈ fs, g.apart f :=
  fun f hf => .inl fun he => h f hf (congrArg windowOf he.symm)

theorem window_raiseFlds {n : Nat} : ∀ f ∈ raiseFlds n, windowOf f.addr = 0xC1 := by
  intro f hf
  refine windowOf_raiseRegs (n := n) ?_
  simp only [raiseFlds, List.mem_cons, List.not_mem_nil, or_false] at hf
  rcases hf with rfl | rfl | rfl | rfl <;> simp [raiseRegs, wordAt, EVT_SRC_STAT.PEND, EVT_SRC_STAT.MULTI]

theorem windows_all {w : Nat} (h : (fs.all fun f => decide (windowOf f.addr ≠ w)) = true) : ∀ f ∈ fs, windowOf f.addr ≠ w :=
  fun f hf => of_decide_eq_true (List.all_eq_true.1 h f hf)

/-- Operations outside EVT after a raise leave what the raise has shown. -/
theorem raised_then {n : Nat} (h : s.raised n u) (h' : u.only ps fs t) (hw : ∀ f ∈ fs, windowOf f.addr ≠ 0xC1) : s.raised n t :=
  raised_mono h fun _ ha => reg_of_only h' (windowOf_raiseRegs ha) hw

theorem now_of_only (h : s.only ps fs u) (hp : .ltc ∉ ps) : u.now = s.now := now_of_ltc (h.1 .ltc hp)

end Frames

/-! ### What stands behind the arbiters' registers -/

/-- The state with other facts behind ARB's registers. -/
def State.withArb (x : ArbState) (s : State) : State := { s with arb := x }

theorem only_withArb (x : ArbState) (s : State) : s.only [.arb] [] (s.withArb x) :=
  ⟨fun p hp => by cases p <;> simp [State.same, State.withArb] at hp ⊢, fun _ _ => rfl, rfl, rfl⟩

theorem only_then_withArb {s u : State} {ps : List Comp} {fs : List Fld} (h : s.only ps fs u) (x : ArbState) (hp : .arb ∈ ps) :
    s.only ps fs (u.withArb x) := only_then h (only_withArb x u) (by simpa using hp) (by simp)

section WithArb
variable (x : ArbState) (s : State)

@[simp] theorem arb_withArb : (s.withArb x).arb = x := rfl
@[simp] theorem get_withArb (f : Fld) : (s.withArb x).get f = s.get f := rfl
@[simp] theorem getB_withArb (f : Fld) : (s.withArb x).getB f = s.getB f := rfl
@[simp] theorem arbHolds_withArb (i : Nat) : (s.withArb x).arbHolds i = s.arbHolds i := rfl
@[simp] theorem now_withArb : (s.withArb x).now = s.now := rfl

end WithArb

section Fields
variable {s : State}

theorem window_arb {a : Nat} (hl : 0xCB000000 ≤ a) (hu : a < 0xCC000000) : windowOf a = 0xCB := by simp only [windowOf]; omega

theorem window_arbStat (a : Nat) : windowOf (ARB_STAT a) = 0xCB := window_arb (by simp only [ARB_STAT]; omega) (by simp only [ARB_STAT]; omega)
theorem window_arbReq (i : Nat) : windowOf (ARB_REQ i) = 0xCB := window_arb (by simp only [ARB_REQ]; omega) (by simp only [ARB_REQ]; omega)

theorem arbOf_lt (i : Nat) : arbOf i < 2 := by unfold arbOf; split <;> decide

theorem arbStat_ne_arbReq (a i : Nat) : ARB_STAT a ≠ ARB_REQ i := by simp only [ARB_STAT, ARB_REQ]; omega
theorem arbStat_ne_arbHreq (a : Nat) : ARB_STAT a ≠ ARB_HREQ := by simp only [ARB_STAT, ARB_HREQ]; omega
theorem arbStat_ne_arbCfg (a b : Nat) : ARB_STAT a ≠ ARB_CFG b := by simp only [ARB_STAT, ARB_CFG]; omega
theorem arbStat_ne_arbCnt (a b : Nat) : ARB_STAT a ≠ ARB_CNT b := by simp only [ARB_STAT, ARB_CNT]; omega
theorem arbReq_ne_arbHreq (i : Nat) : ARB_REQ i ≠ ARB_HREQ := by simp only [ARB_REQ, ARB_HREQ]; omega
theorem arbReq_ne_arbCnt (i a : Nat) : ARB_REQ i ≠ ARB_CNT a := by simp only [ARB_REQ, ARB_CNT]; omega
theorem arbReq_ne_arbCfg (i a : Nat) : ARB_REQ i ≠ ARB_CFG a := by simp only [ARB_REQ, ARB_CFG]; omega
theorem arbCnt_ne_arbHreq (a : Nat) : ARB_CNT a ≠ ARB_HREQ := by simp only [ARB_CNT, ARB_HREQ]; omega
theorem arbCfg_ne_arbHreq (a : Nat) : ARB_CFG a ≠ ARB_HREQ := by simp only [ARB_CFG, ARB_HREQ]; omega
theorem arbCfg_ne_arbCnt (a b : Nat) : ARB_CFG a ≠ ARB_CNT b := by simp only [ARB_CFG, ARB_CNT]; omega

theorem arbReq_inj {i j : Nat} (hi : i < 24) (hj : j < 24) (h : ARB_REQ i = ARB_REQ j) : i = j := by
  simp only [ARB_REQ] at h; omega

theorem arbStat_inj {a b : Nat} (ha : a < 2) (hb : b < 2) (h : ARB_STAT a = ARB_STAT b) : a = b := by
  simp only [ARB_STAT] at h; omega

end Fields

end Sys2Proof.Machine
end

section
/-! PROOFS. The arbiters: the grant of an arbiter, and what a decision takes (R359). -/

namespace Sys2Proof.Machine

/-! ### The grant (R359) -/

section Grant
variable {i : Nat} {s : State}

/-- The grant shown in ARB_STAT. -/
def State.grantShown (i : Nat) (s : State) : State :=
  ((s.setB (ARB_STAT.GRANTED (arbOf i)) true).set (ARB_STAT.OWNER (arbOf i)) i).set (ARB_STAT.CLASS (arbOf i)) (s.arbClass i)

/-- The arbiter of requester `i` notes when its grant began. -/
def State.grantNoted (i : Nat) (s : State) : State := s.withArb { s.arb with grantAt := tput s.arb.grantAt (arbOf i) s.now }

/-- Requester `i` holds the grant and is pending no more. -/
def State.granted (i : Nat) (s : State) : State := (s.grantShown i).grantNoted i |>.setB (ARB_REQ.PEND i) false

theorem arbGrant_eq (i : Nat) (s : State) : s.arbGrant i = if i = 23 then (s.granted i).setB ARB_HREQ.GRANT true else s.granted i := rfl

theorem arbClass_lt (i : Nat) (s : State) : s.arbClass i < 4 := by
  unfold State.arbClass
  split
  · exact bitsOf_lt _ _ 2
  · decide

theorem grantShown_reads (hi : i < 24) (s : State) :
    (s.grantShown i).getB (ARB_STAT.GRANTED (arbOf i)) = true ∧ (s.grantShown i).get (ARB_STAT.OWNER (arbOf i)) = i ∧
      (s.grantShown i).get (ARB_STAT.CLASS (arbOf i)) = s.arbClass i := by
  have hclass := arbClass_lt i s
  unfold State.grantShown
  refine ⟨?_, ?_, ?_⟩
  · rw [getB_of_get (get_set_apart _ _ _ _ (.inr (.inr (Nat.le_of_ble_eq_true rfl))) (Nat.le_of_ble_eq_true rfl)),
      getB_of_get (get_set_apart _ _ _ _ (.inr (.inr (Nat.le_of_ble_eq_true rfl))) (Nat.le_of_ble_eq_true rfl))]
    exact getB_setB_self _ _ _ (Nat.le_of_ble_eq_true rfl) rfl
  · rw [get_set_apart _ _ _ _ (.inr (.inr (Nat.le_of_ble_eq_true rfl))) (Nat.le_of_ble_eq_true rfl), get_set_self _ _ _ (Nat.le_of_ble_eq_true rfl)]
    exact Nat.mod_eq_of_lt (Nat.lt_trans hi (Nat.le_of_ble_eq_true rfl))
  · rw [get_set_self _ _ _ (Nat.le_of_ble_eq_true rfl)]
    exact Nat.mod_eq_of_lt hclass

theorem only_grantShown (i : Nat) (s : State) :
    s.only [] [ARB_STAT.GRANTED (arbOf i), ARB_STAT.OWNER (arbOf i), ARB_STAT.CLASS (arbOf i)] (s.grantShown i) :=
  only_then_set (only_then_set (only_then_setB (only_refl s _ _) true (by simp) (Nat.le_of_ble_eq_true rfl)) i (by simp) (Nat.le_of_ble_eq_true rfl)) _
    (by simp) (Nat.le_of_ble_eq_true rfl)

theorem only_grantNoted (i : Nat) (s : State) : s.only [.arb] [] (s.grantNoted i) := only_withArb ..

theorem only_granted (i : Nat) (s : State) :
    s.only [.arb] [ARB_STAT.GRANTED (arbOf i), ARB_STAT.OWNER (arbOf i), ARB_STAT.CLASS (arbOf i), ARB_REQ.PEND i] (s.granted i) :=
  only_then_setB (only_then (only_mono (only_grantShown i s) (by simp) (by simp +contextual [or_imp])) (only_grantNoted i _) (by simp) (by simp)) false (by simp)
    (Nat.le_of_ble_eq_true rfl)

theorem arb_granted (i : Nat) (s : State) : (s.granted i).arb = { s.arb with grantAt := tput s.arb.grantAt (arbOf i) s.now } := by
  have harb : (s.grantShown i).arb = s.arb := (only_grantShown i s).1 .arb (by simp)
  have hltc : (s.grantShown i).ltc = s.ltc := (only_grantShown i s).1 .ltc (by simp)
  rw [State.granted, setB_arb, State.grantNoted, arb_withArb, harb, now_of_ltc hltc]

theorem get_granted_stat {f : Fld} (hf : ∃ a, f.addr = ARB_STAT a) (i : Nat) (s : State) : (s.granted i).get f = (s.grantShown i).get f := by
  obtain ⟨a, ha⟩ := hf
  have happart : f.apart (ARB_REQ.PEND i) := .inl (by rw [ha]; exact arbStat_ne_arbReq a i)
  rw [State.granted, get_setB_apart _ _ _ _ happart (Nat.le_of_ble_eq_true rfl), State.grantNoted, get_withArb]

/-- What a grant shows. -/
theorem granted_reads (hi : i < 24) (s : State) :
    (s.granted i).arbGranted (arbOf i) = true ∧ (s.granted i).arbOwner (arbOf i) = i ∧
      (s.granted i).get (ARB_STAT.CLASS (arbOf i)) = s.arbClass i ∧ (s.granted i).getB (ARB_REQ.PEND i) = false := by
  obtain ⟨hgranted, howner, hclass⟩ := grantShown_reads hi s
  exact ⟨(getB_of_get (get_granted_stat ⟨_, rfl⟩ i s)).trans hgranted, (get_granted_stat ⟨_, rfl⟩ i s).trans howner,
    (get_granted_stat ⟨_, rfl⟩ i s).trans hclass, getB_setB_self _ _ _ (Nat.le_of_ble_eq_true rfl) rfl⟩

/-- GRANT of the host is shown where the requester is the host's. -/
theorem arbGrant_shows (hi : i < 24) (s : State) :
    let t := s.arbGrant i
    t.arbGranted (arbOf i) = true ∧ t.arbOwner (arbOf i) = i ∧ t.get (ARB_STAT.CLASS (arbOf i)) = s.arbClass i ∧ t.getB (ARB_REQ.PEND i) = false ∧
      (i = 23 → t.getB ARB_HREQ.GRANT = true) ∧ t.arb = { s.arb with grantAt := tput s.arb.grantAt (arbOf i) s.now } ∧
      s.only [.arb] ([ARB_STAT.GRANTED (arbOf i), ARB_STAT.OWNER (arbOf i), ARB_STAT.CLASS (arbOf i), ARB_REQ.PEND i] ++
        (if i = 23 then [ARB_HREQ.GRANT] else [])) t := by
  intro t
  have ht : t = if i = 23 then (s.granted i).setB ARB_HREQ.GRANT true else s.granted i := arbGrant_eq i s
  obtain ⟨hgranted, howner, hclass, hpend⟩ := granted_reads hi s
  have honly := only_granted i s
  clear_value t
  by_cases hhost : i = 23
  · have hkept {f : Fld} (hf : f.addr ≠ ARB_HREQ) : t.get f = (s.granted i).get f := by
      rw [ht, if_pos hhost]
      exact get_setB_apart _ _ _ _ (.inl hf) (Nat.le_of_ble_eq_true rfl)
    refine ⟨(getB_of_get (hkept (arbStat_ne_arbHreq _))).trans hgranted, (hkept (arbStat_ne_arbHreq _)).trans howner,
      (hkept (arbStat_ne_arbHreq _)).trans hclass, (getB_of_get (hkept (arbReq_ne_arbHreq _))).trans hpend, fun _ => ?_, ?_, ?_⟩
    · rw [ht, if_pos hhost]
      exact getB_setB_self _ _ _ (Nat.le_of_ble_eq_true rfl) rfl
    · rw [ht, if_pos hhost, setB_arb, arb_granted]
    · rw [ht, if_pos hhost, if_pos hhost]
      exact only_then_setB (only_mono honly (by simp) (by simp +contextual [or_imp])) true (by simp) (Nat.le_of_ble_eq_true rfl)
  · rw [if_neg hhost] at ht
    rw [ht, if_neg hhost]
    exact ⟨hgranted, howner, hclass, hpend, fun h => absurd h hhost, arb_granted i s, only_mono honly (by simp) (by simp)⟩

end Grant

/-! ### What a decision takes (R359) -/

section Decide
variable {a i : Nat} {s : State}

/-- The class and the limit that a REQ_CLASS left for requester `i` take force. -/
def State.classTaken (s : State) (i : Nat) : State :=
  match tget s.arb.newClass i with
  | some (c, l) => (s.withArb { s.arb with newClass := tdel s.arb.newClass i, limit := tput s.arb.limit i l }).set (ARB_REQ.CLASS i) c
  | none => s

/-- CLASS of the grant follows its owner's. -/
def State.ownerClassShown (a : Nat) (s : State) : State :=
  if s.arbGranted a then s.set (ARB_STAT.CLASS a) (s.arbClass (s.arbOwner a)) else s

theorem arbApply_eq (a : Nat) (s : State) : s.arbApply a = ((arbIndices a).foldl State.classTaken s).ownerClassShown a := rfl

theorem classTaken_none {i : Nat} (h : tget s.arb.newClass i = none) : s.classTaken i = s := by simp only [State.classTaken, h]

theorem arbApply_none (hnew : s.arb.newClass = []) (a : Nat) : s.arbApply a = s.ownerClassShown a := by
  have hfold : (arbIndices a).foldl State.classTaken s = s := by
    induction arbIndices a with
    | nil => rfl
    | cons i l ih => rw [List.foldl_cons, classTaken_none (by rw [hnew]; rfl), ih]
  rw [arbApply_eq, hfold]

theorem execArbDecide_eq (a : Fin 2) (s : State) : exec (.arbDecide a s.fenCommit) s = .next (s.arbDecide a.val) := by
  refine congrArg Host.Outcome.next ?_
  simp

/-- An arbiter without a grant gives it to its best request. -/
theorem arbDecide_idle (hthaw : s.getB (ARB_CFG.FREEZE a) = false) (hnew : s.arb.newClass = []) (hidle : s.arbGranted a = false)
    (hbest : s.arbBest a = some i) : s.arbDecide a = s.giveGrant i := by
  have hrank : s.arbOutranked a = false := by simp [State.arbOutranked, hidle]
  have happly : s.arbApply a = s := (arbApply_none hnew a).trans (if_neg (by simp [hidle]))
  unfold State.arbDecide
  simp [hthaw, happly, hrank, hidle, hbest]

theorem giveGrant_plain (hlayer : i ≠ 21) (hstream : (s.fen.streams.find? fun y => y.2.req = i) = none) : s.giveGrant i = s.arbGrant i := by
  have hfen : (s.arbGrant i).fen = s.fen := (State_arbGrant_mut i s).same .fen (by decide)
  have hno : (s.arbGrant i).fenGranted i = s.arbGrant i := by simp only [State.fenGranted, hfen, hstream]
  unfold State.giveGrant
  dsimp only
  rw [hno, if_neg hlayer, ite_self]

end Decide

end Sys2Proof.Machine
end

section
/-! PROOFS. What FEN's registers show of its packages, streams and run (chapter 16, the register tables of FEN): a layer for the statements on
FEN and on the arbiters. -/

namespace Sys2Proof.Machine

section Words
variable {s t : State} {ps : List Comp} {f : Fld}

/-- A frame of one field, said by its register. -/
theorem only_word (h : s.only ps [f] t) (hw : f.lo + f.width ≤ 32) : s.only ps [wordAt f.addr] t :=
  ⟨h.1, fun g hg => h.2.1 g fun x hx => by
    rw [List.mem_singleton.1 hx]
    rcases hg _ (List.mem_singleton_self _) with ha | ha | ha
    · exact .inl ha
    · exact .inr (.inl (Nat.le_trans ha (Nat.zero_le _)))
    · exact .inr (.inr (Nat.le_trans hw ha)), h.2.2⟩

theorem only_set_word (s : State) (v : Nat) (hw : f.lo + f.width ≤ 32) : s.only [] [wordAt f.addr] (s.set f v) := only_word (only_set s v hw) hw

theorem only_then_word {u : State} {fs : List Fld} (h : s.only ps fs u) (v : Nat) (hf : wordAt f.addr ∈ fs) (hw : f.lo + f.width ≤ 32) :
    s.only ps fs (u.set f v) := only_then h (only_set_word u v hw) (by simp) (by simpa using hf)

theorem only_then_setReg {u : State} {fs : List Fld} {a : Nat} (h : s.only ps fs u) (w : Word) (hf : wordAt a ∈ fs) : s.only ps fs (u.setReg a w) :=
  only_then h (only_setReg u a w) (by simp) (by simpa using hf)

/-- A loop whose rounds stay in the frame. -/
theorem only_foldl {α : Type} {f : State → α → State} {l : List α} {fs : List Fld} (h : ∀ u : State, ∀ x ∈ l, u.only ps fs (f u x)) (s : State) :
    s.only ps fs (l.foldl f s) := by
  induction l generalizing s with
  | nil => exact only_refl ..
  | cons x l ih => exact only_trans (h s x (by simp)) (ih (fun u y hy => h u y (by simp [hy])) _)

end Words

/-! ### What FEN shows -/

/-- FEN's counts of packages and streams, and its free SRAM. -/
def State.fenCountsShown (s : State) : State :=
  let u := (s.set FEN_STATUS.PKGS ((List.range 8).foldr (fun i m => 2 * m + b2n (s.pkg i).isSome) 0)).set FEN_STATUS.STREAMS s.fen.streams.length
  u.set FEN_SRAM.FREE ((sramSize - u.sramUsed) / 1024)

/-- Whether a job runs, and of which stream. -/
def State.fenRunShown (s : State) : State :=
  match s.fen.run with
  | some r => (s.setB FEN_STATUS.RUN true).set FEN_STATUS.STREAM r.stream
  | none => (s.setB FEN_STATUS.RUN false).set FEN_STATUS.STREAM 0

/-- The package of a slot. -/
def State.pkgShown (s : State) (i : Nat) : State :=
  match s.pkg i with
  | some p =>
    (((s.setB (FEN_PKG.LOADED i) true).setB (FEN_PKG.FAULT i) p.fault).set (FEN_PKG.USERS i) (s.fen.streams.filter fun x => x.2.slot = i).length).set
      (FEN_PKG_ID.PKG_ID i) p.id
  | none => (s.setReg (FEN_PKG i) 0#32).setReg (FEN_PKG_ID i) 0#32

/-- A stream. -/
def State.strShown (s : State) (x : Nat) : State :=
  match tget s.fen.streams x with
  | some t =>
    ((((s.setB (FEN_STR.LIVE x) true).set (FEN_STR.STATE x) (s.fenState x t)).set (FEN_STR.RING x) t.ring).set (FEN_STR.SLOT x) t.slot).set (FEN_STR_JSEQ.JSEQ x) t.jseq
  | none => (s.setReg (FEN_STR x) 0#32).setReg (FEN_STR_JSEQ x) 0#32

theorem fenShow_eq (s : State) :
    s.fenShow = (List.range 16).foldl State.strShown ((List.range 8).foldl State.pkgShown s.fenCountsShown.fenRunShown) := rfl

theorem only_fenCountsShown (s : State) : s.only [] [FEN_STATUS.PKGS, FEN_STATUS.STREAMS, FEN_SRAM.FREE] s.fenCountsShown :=
  only_then_set (only_then_set (only_then_set (only_refl s _ _) _ (by simp) (Nat.le_of_ble_eq_true rfl)) _ (by simp) (Nat.le_of_ble_eq_true rfl)) _ (by simp)
    (Nat.le_of_ble_eq_true rfl)

theorem only_fenRunShown (s : State) : s.only [] [FEN_STATUS.RUN, FEN_STATUS.STREAM] s.fenRunShown := by
  unfold State.fenRunShown
  split <;> exact only_then_set (only_then_setB (only_refl s _ _) _ (by simp) (Nat.le_of_ble_eq_true rfl)) _ (by simp) (Nat.le_of_ble_eq_true rfl)

theorem only_pkgShown (s : State) (i : Nat) : s.only [] [wordAt (FEN_PKG i), wordAt (FEN_PKG_ID i)] (s.pkgShown i) := by
  unfold State.pkgShown
  split
  · next p _ =>
    have hloaded := only_then_word (f := FEN_PKG.LOADED i) (only_refl s [] [wordAt (FEN_PKG i), wordAt (FEN_PKG_ID i)]) (b2n true) (by simp [FEN_PKG.LOADED])
      (Nat.le_of_ble_eq_true rfl)
    have hfault := only_then_word (f := FEN_PKG.FAULT i) hloaded (b2n p.fault) (by simp [FEN_PKG.FAULT]) (Nat.le_of_ble_eq_true rfl)
    exact only_then_word (f := FEN_PKG_ID.PKG_ID i) (only_then_word (f := FEN_PKG.USERS i) hfault _ (by simp [FEN_PKG.USERS]) (Nat.le_of_ble_eq_true rfl)) _
      (by simp [FEN_PKG_ID.PKG_ID]) (Nat.le_of_ble_eq_true rfl)
  · exact only_then_setReg (only_then_setReg (only_refl s _ _) _ (by simp)) _ (by simp)

theorem only_strShown (s : State) (x : Nat) : s.only [] [wordAt (FEN_STR x), wordAt (FEN_STR_JSEQ x)] (s.strShown x) := by
  unfold State.strShown
  split
  · next q _ =>
    have hlive := only_then_word (f := FEN_STR.LIVE x) (only_refl s [] [wordAt (FEN_STR x), wordAt (FEN_STR_JSEQ x)]) (b2n true) (by simp [FEN_STR.LIVE])
      (Nat.le_of_ble_eq_true rfl)
    have hstate := only_then_word (f := FEN_STR.STATE x) hlive (s.fenState x q) (by simp [FEN_STR.STATE]) (Nat.le_of_ble_eq_true rfl)
    have hring := only_then_word (f := FEN_STR.RING x) hstate q.ring (by simp [FEN_STR.RING]) (Nat.le_of_ble_eq_true rfl)
    exact only_then_word (f := FEN_STR_JSEQ.JSEQ x) (only_then_word (f := FEN_STR.SLOT x) hring _ (by simp [FEN_STR.SLOT]) (Nat.le_of_ble_eq_true rfl)) _
      (by simp [FEN_STR_JSEQ.JSEQ]) (Nat.le_of_ble_eq_true rfl)
  · exact only_then_setReg (only_then_setReg (only_refl s _ _) _ (by simp)) _ (by simp)

/-- The counts and the run, before packages and streams are shown. -/
def State.fenHeadShown (s : State) : State := s.fenCountsShown.fenRunShown

/-- With the packages shown, before the streams are. -/
def State.fenPkgsShown (s : State) : State := (List.range 8).foldl State.pkgShown s.fenHeadShown

theorem fenShow_streams (s : State) : s.fenShow = (List.range 16).foldl State.strShown s.fenPkgsShown := rfl

def fenHeadFlds : List Fld := [FEN_STATUS.PKGS, FEN_STATUS.STREAMS, FEN_STATUS.RUN, FEN_STATUS.STREAM, FEN_SRAM.FREE]
def fenPkgFlds : List Fld := (List.range 8).flatMap fun i => [wordAt (FEN_PKG i), wordAt (FEN_PKG_ID i)]
def fenStrFlds : List Fld := (List.range 16).flatMap fun x => [wordAt (FEN_STR x), wordAt (FEN_STR_JSEQ x)]

theorem fenShowFlds_eq : fenShowFlds = fenHeadFlds ++ fenPkgFlds ++ fenStrFlds := rfl

theorem only_fenHeadShown (s : State) : s.only [] fenHeadFlds s.fenHeadShown :=
  only_then (only_mono (only_fenCountsShown s) (by simp) (by simp +contextual [fenHeadFlds, or_imp])) (only_fenRunShown _) (by simp) (by simp [fenHeadFlds])

theorem only_pkgsShown (s : State) : s.only [] fenPkgFlds ((List.range 8).foldl State.pkgShown s) :=
  only_foldl (fun u i hi => only_mono (only_pkgShown u i) (by simp) fun f hf => by rw [fenPkgFlds, List.mem_flatMap]; exact ⟨i, hi, hf⟩) s

theorem only_strsShown (s : State) : s.only [] fenStrFlds ((List.range 16).foldl State.strShown s) :=
  only_foldl (fun u x hx => only_mono (only_strShown u x) (by simp) fun f hf => by rw [fenStrFlds, List.mem_flatMap]; exact ⟨x, hx, hf⟩) s

theorem only_fenPkgsShown (s : State) : s.only [] (fenHeadFlds ++ fenPkgFlds) s.fenPkgsShown :=
  only_seq (only_fenHeadShown s) (only_pkgsShown _)

theorem only_fenShow (s : State) : s.only [] fenShowFlds s.fenShow := only_seq (only_fenPkgsShown s) (only_strsShown _)

/-! ### What is read there -/

section Shown
variable {s : State}

theorem fen_fenShow (s : State) : s.fenShow.fen = s.fen := (only_fenShow s).1 .fen (by simp)

/-- A round of a loop that brings about what no other round undoes. -/
theorem foldl_round {P Q : State → Prop} {f : State → Nat → State} {l : List Nat} {x : Nat} (hx : x ∈ l) (hQ : ∀ u y, Q u → Q (f u y))
    (hround : ∀ u, Q u → P (f u x)) (hkeep : ∀ u y, y ∈ l → y ≠ x → P u → P (f u y)) (hs : Q s) : P (l.foldl f s) := by
  induction l generalizing s with
  | nil => cases hx
  | cons y l ih =>
    by_cases hl : x ∈ l
    · exact ih hl (fun u z hz => hkeep u z (List.mem_cons_of_mem _ hz)) (hQ s y hs)
    · obtain rfl := (List.mem_cons.1 hx).resolve_right hl
      rw [List.foldl_cons]
      exact foldl_keeps (P := P) (fun u z hz hu => hkeep u z (List.mem_cons_of_mem _ hz) (fun he => hl (by rw [← he]; exact hz)) hu) (hround s hs)

theorem fenStr_apart {x y : Nat} (hx : x < 16) (hy : y < 16) (h : y ≠ x) {f : Fld} (hf : f.addr = FEN_STR x ∨ f.addr = FEN_STR_JSEQ x) :
    ∀ g ∈ [wordAt (FEN_STR y), wordAt (FEN_STR_JSEQ y)], f.apart g := by
  intro g hg
  refine .inl ?_
  simp only [List.mem_cons, List.not_mem_nil, or_false] at hg
  rcases hg with rfl | rfl <;> rcases hf with hf | hf <;> simp only [hf, wordAt, FEN_STR, FEN_STR_JSEQ] <;> omega

theorem fenPkg_apart {i j : Nat} (hi : i < 8) (hj : j < 8) (h : j ≠ i) {f : Fld} (hf : f.addr = FEN_PKG i ∨ f.addr = FEN_PKG_ID i) :
    ∀ g ∈ [wordAt (FEN_PKG j), wordAt (FEN_PKG_ID j)], f.apart g := by
  intro g hg
  refine .inl ?_
  simp only [List.mem_cons, List.not_mem_nil, or_false] at hg
  rcases hg with rfl | rfl <;> rcases hf with hf | hf <;> simp only [hf, wordAt, FEN_PKG, FEN_PKG_ID] <;> omega

theorem addr_fenPkgFlds : ∀ g ∈ fenPkgFlds, 0xCA000400 ≤ g.addr ∧ g.addr < 0xCA000440 := by decide
theorem addr_fenStrFlds : ∀ g ∈ fenStrFlds, 0xCA000500 ≤ g.addr ∧ g.addr < 0xCA000580 := by decide

/-- What a stream's round shows, said of a state between. -/
theorem strShown_some {x : Nat} {q : FenStream} {u : State} (hq : tget u.fen.streams x = some q) :
    (u.strShown x).getB (FEN_STR.LIVE x) = true ∧ (u.strShown x).get (FEN_STR.RING x) = q.ring % 32 ∧ (u.strShown x).get (FEN_STR.SLOT x) = q.slot % 8 ∧
      (u.strShown x).get (FEN_STR_JSEQ.JSEQ x) = q.jseq % 2 ^ 32 := by
  have hne : FEN_STR x ≠ FEN_STR_JSEQ x := by simp only [FEN_STR, FEN_STR_JSEQ]; omega
  have hshown : u.strShown x = ((((u.setB (FEN_STR.LIVE x) true).set (FEN_STR.STATE x) (u.fenState x q)).set (FEN_STR.RING x) q.ring).set
      (FEN_STR.SLOT x) q.slot).set (FEN_STR_JSEQ.JSEQ x) q.jseq := by simp only [State.strShown, hq]
  rw [hshown]
  refine ⟨?_, ?_, ?_, get_set_self _ _ _ (Nat.le_of_ble_eq_true rfl)⟩
  · rw [getB_of_get (get_set_apart _ _ _ _ (.inl hne) (Nat.le_of_ble_eq_true rfl)),
      getB_of_get (get_set_apart _ _ _ _ (.inr (.inr (Nat.le_of_ble_eq_true rfl))) (Nat.le_of_ble_eq_true rfl)),
      getB_of_get (get_set_apart _ _ _ _ (.inr (.inr (Nat.le_of_ble_eq_true rfl))) (Nat.le_of_ble_eq_true rfl)),
      getB_of_get (get_set_apart _ _ _ _ (.inr (.inr (Nat.le_of_ble_eq_true rfl))) (Nat.le_of_ble_eq_true rfl))]
    exact getB_setB_self _ _ _ (Nat.le_of_ble_eq_true rfl) rfl
  · rw [get_set_apart _ _ _ _ (.inl hne) (Nat.le_of_ble_eq_true rfl),
      get_set_apart _ _ _ _ (.inr (.inr (Nat.le_of_ble_eq_true rfl))) (Nat.le_of_ble_eq_true rfl)]
    exact get_set_self _ _ _ (Nat.le_of_ble_eq_true rfl)
  · rw [get_set_apart _ _ _ _ (.inl hne) (Nat.le_of_ble_eq_true rfl)]
    exact get_set_self _ _ _ (Nat.le_of_ble_eq_true rfl)

theorem strShown_none {x : Nat} {u : State} (hq : tget u.fen.streams x = none) :
    (u.strShown x).reg (FEN_STR x) = 0#32 ∧ (u.strShown x).reg (FEN_STR_JSEQ x) = 0#32 := by
  have hne : FEN_STR x ≠ FEN_STR_JSEQ x := by simp only [FEN_STR, FEN_STR_JSEQ]; omega
  have hshown : u.strShown x = (u.setReg (FEN_STR x) 0#32).setReg (FEN_STR_JSEQ x) 0#32 := by simp only [State.strShown, hq]
  rw [hshown]
  exact ⟨(reg_setReg_ne _ _ hne).trans (reg_setReg_self ..), reg_setReg_self ..⟩

theorem pkgShown_some {i : Nat} {p : Pkg} {u : State} (hp : u.pkg i = some p) :
    (u.pkgShown i).getB (FEN_PKG.LOADED i) = true ∧ (u.pkgShown i).getB (FEN_PKG.FAULT i) = p.fault ∧
      (u.pkgShown i).get (FEN_PKG_ID.PKG_ID i) = p.id % 2 ^ 32 := by
  have hne : FEN_PKG i ≠ FEN_PKG_ID i := by simp only [FEN_PKG, FEN_PKG_ID]; omega
  have hshown : u.pkgShown i = (((u.setB (FEN_PKG.LOADED i) true).setB (FEN_PKG.FAULT i) p.fault).set (FEN_PKG.USERS i)
      (u.fen.streams.filter fun x => x.2.slot = i).length).set (FEN_PKG_ID.PKG_ID i) p.id := by simp only [State.pkgShown, hp]
  rw [hshown]
  refine ⟨?_, ?_, get_set_self _ _ _ (Nat.le_of_ble_eq_true rfl)⟩
  · rw [getB_of_get (get_set_apart _ _ _ _ (.inl hne) (Nat.le_of_ble_eq_true rfl)),
      getB_of_get (get_set_apart _ _ _ _ (.inr (.inr (Nat.le_of_ble_eq_true rfl))) (Nat.le_of_ble_eq_true rfl)),
      getB_of_get (get_setB_apart _ _ _ _ (.inr (.inr (Nat.le_of_ble_eq_true rfl))) (Nat.le_of_ble_eq_true rfl))]
    exact getB_setB_self _ _ _ (Nat.le_of_ble_eq_true rfl) rfl
  · rw [getB_of_get (get_set_apart _ _ _ _ (.inl hne) (Nat.le_of_ble_eq_true rfl)),
      getB_of_get (get_set_apart _ _ _ _ (.inr (.inr (Nat.le_of_ble_eq_true rfl))) (Nat.le_of_ble_eq_true rfl))]
    exact getB_setB_self _ _ _ (Nat.le_of_ble_eq_true rfl) rfl

theorem pkgShown_none {i : Nat} {u : State} (hp : u.pkg i = none) :
    (u.pkgShown i).reg (FEN_PKG i) = 0#32 ∧ (u.pkgShown i).reg (FEN_PKG_ID i) = 0#32 := by
  have hne : FEN_PKG i ≠ FEN_PKG_ID i := by simp only [FEN_PKG, FEN_PKG_ID]; omega
  have hshown : u.pkgShown i = (u.setReg (FEN_PKG i) 0#32).setReg (FEN_PKG_ID i) 0#32 := by simp only [State.pkgShown, hp]
  rw [hshown]
  exact ⟨(reg_setReg_ne _ _ hne).trans (reg_setReg_self ..), reg_setReg_self ..⟩

theorem fen_strShown (u : State) (x : Nat) : (u.strShown x).fen = u.fen := (only_strShown u x).1 .fen (by simp)
theorem fen_pkgShown (u : State) (i : Nat) : (u.pkgShown i).fen = u.fen := (only_pkgShown u i).1 .fen (by simp)
theorem fen_fenHeadShown (s : State) : s.fenHeadShown.fen = s.fen := (only_fenHeadShown s).1 .fen (by simp)
theorem fen_fenPkgsShown (s : State) : s.fenPkgsShown.fen = s.fen := (only_fenPkgsShown s).1 .fen (by simp)

theorem pkg_congr {s u : State} (h : u.fen = s.fen) (i : Nat) : u.pkg i = s.pkg i := by simp only [State.pkg, h]

/-- A field of stream `x`'s registers is what its round shows. -/
theorem read_fenShow_str {x : Nat} (hx : x < 16) {P : State → Prop} (hround : ∀ u : State, u.fen = s.fen → P (u.strShown x))
    (hkeep : ∀ u t : State, t.reg (FEN_STR x) = u.reg (FEN_STR x) → t.reg (FEN_STR_JSEQ x) = u.reg (FEN_STR_JSEQ x) → P u → P t) : P s.fenShow := by
  rw [fenShow_streams]
  refine foldl_round (P := P) (Q := fun u => u.fen = s.fen) (List.mem_range.2 hx) (fun u y hu => (fen_strShown u y).trans hu) hround ?_ (fen_fenPkgsShown s)
  intro u y hy hne hP
  have hother := (only_strShown u y).2.1
  exact hkeep u _ (reg_of_get (hother _ (fenStr_apart hx (List.mem_range.1 hy) hne (.inl rfl))))
    (reg_of_get (hother _ (fenStr_apart hx (List.mem_range.1 hy) hne (.inr rfl)))) hP

/-- A stream as FEN shows it. -/
theorem fenShow_stream {x : Nat} (hx : x < 16) {q : FenStream} (hq : tget s.fen.streams x = some q) :
    s.fenShow.getB (FEN_STR.LIVE x) = true ∧ s.fenShow.get (FEN_STR.RING x) = q.ring % 32 ∧ s.fenShow.get (FEN_STR.SLOT x) = q.slot % 8 ∧
      s.fenShow.get (FEN_STR_JSEQ.JSEQ x) = q.jseq % 2 ^ 32 := by
  refine read_fenShow_str (P := fun u => u.getB (FEN_STR.LIVE x) = true ∧ u.get (FEN_STR.RING x) = q.ring % 32 ∧ u.get (FEN_STR.SLOT x) = q.slot % 8 ∧
      u.get (FEN_STR_JSEQ.JSEQ x) = q.jseq % 2 ^ 32) hx (fun u hu => strShown_some (by rw [hu, hq])) ?_
  rintro u t hstr hjseq ⟨hlive, hring, hslot, hseq⟩
  exact ⟨(getB_congr _ hstr).trans hlive, (get_congr _ hstr).trans hring, (get_congr _ hstr).trans hslot, (get_congr _ hjseq).trans hseq⟩

/-- An index that holds no stream shows zeros. -/
theorem fenShow_no_stream {x : Nat} (hx : x < 16) (hq : tget s.fen.streams x = none) :
    s.fenShow.reg (FEN_STR x) = 0#32 ∧ s.fenShow.reg (FEN_STR_JSEQ x) = 0#32 := by
  refine read_fenShow_str (P := fun u => u.reg (FEN_STR x) = 0#32 ∧ u.reg (FEN_STR_JSEQ x) = 0#32) hx (fun u hu => strShown_none (by rw [hu, hq])) ?_
  rintro u t hstr hjseq ⟨hz, hz'⟩
  exact ⟨hstr.trans hz, hjseq.trans hz'⟩

theorem reg_strsShown_pkg (i : Nat) (u : State) :
    ((List.range 16).foldl State.strShown u).reg (FEN_PKG i) = u.reg (FEN_PKG i) ∧
      ((List.range 16).foldl State.strShown u).reg (FEN_PKG_ID i) = u.reg (FEN_PKG_ID i) := by
  have hother := (only_strsShown u).2.1
  refine ⟨reg_of_get (hother _ fun g hg => .inl ?_), reg_of_get (hother _ fun g hg => .inl ?_)⟩ <;>
    · have := addr_fenStrFlds g hg
      simp only [wordAt, FEN_PKG, FEN_PKG_ID]
      omega

/-- A field of slot `i`'s registers is what its round shows. -/
theorem read_fenShow_pkg {i : Nat} (hi : i < 8) {P : State → Prop} (hround : ∀ u : State, u.fen = s.fen → P (u.pkgShown i))
    (hkeep : ∀ u t : State, t.reg (FEN_PKG i) = u.reg (FEN_PKG i) → t.reg (FEN_PKG_ID i) = u.reg (FEN_PKG_ID i) → P u → P t) : P s.fenShow := by
  rw [fenShow_streams]
  obtain ⟨hpkg, hid⟩ := reg_strsShown_pkg i s.fenPkgsShown
  refine hkeep _ _ hpkg hid ?_
  refine foldl_round (P := P) (Q := fun u => u.fen = s.fen) (List.mem_range.2 hi) (fun u j hu => (fen_pkgShown u j).trans hu) hround ?_ (fen_fenHeadShown s)
  intro u j hj hne hP
  have hother := (only_pkgShown u j).2.1
  exact hkeep u _ (reg_of_get (hother _ (fenPkg_apart hi (List.mem_range.1 hj) hne (.inl rfl))))
    (reg_of_get (hother _ (fenPkg_apart hi (List.mem_range.1 hj) hne (.inr rfl)))) hP

/-- A usable package as FEN shows it. -/
theorem fenShow_package {i : Nat} (hi : i < 8) {p : Pkg} (hp : s.pkg i = some p) :
    s.fenShow.getB (FEN_PKG.LOADED i) = true ∧ s.fenShow.getB (FEN_PKG.FAULT i) = p.fault ∧ s.fenShow.get (FEN_PKG_ID.PKG_ID i) = p.id % 2 ^ 32 := by
  refine read_fenShow_pkg (P := fun u => u.getB (FEN_PKG.LOADED i) = true ∧ u.getB (FEN_PKG.FAULT i) = p.fault ∧ u.get (FEN_PKG_ID.PKG_ID i) = p.id % 2 ^ 32) hi
    (fun u hu => pkgShown_some ((pkg_congr hu i).trans hp)) ?_
  rintro u t hpkg hpid ⟨hloaded, hfault, hid⟩
  exact ⟨(getB_congr _ hpkg).trans hloaded, (getB_congr _ hpkg).trans hfault, (get_congr _ hpid).trans hid⟩

/-- A slot without a usable package shows zeros. -/
theorem fenShow_no_package {i : Nat} (hi : i < 8) (hp : s.pkg i = none) : s.fenShow.reg (FEN_PKG i) = 0#32 ∧ s.fenShow.reg (FEN_PKG_ID i) = 0#32 := by
  refine read_fenShow_pkg (P := fun u => u.reg (FEN_PKG i) = 0#32 ∧ u.reg (FEN_PKG_ID i) = 0#32) hi
    (fun u hu => pkgShown_none ((pkg_congr hu i).trans hp)) ?_
  rintro u t hpkg hpid ⟨hz, hz'⟩
  exact ⟨hpkg.trans hz, hpid.trans hz'⟩

/-- The head registers are as the first rounds show them. -/
theorem get_fenShow_head {f : Fld} (hf : f.addr = FEN_STATUS) : s.fenShow.get f = s.fenHeadShown.get f := by
  rw [fenShow_streams, State.fenPkgsShown]
  refine ((only_strsShown _).2.1 f fun g hg => .inl ?_).trans ((only_pkgsShown _).2.1 f fun g hg => .inl ?_)
  · have := addr_fenStrFlds g hg
    rw [hf, FEN_STATUS]
    omega
  · have := addr_fenPkgFlds g hg
    rw [hf, FEN_STATUS]
    omega

/-- The run as FEN shows it. -/
theorem fenShow_run {r : FenRun} (hr : s.fen.run = some r) : s.fenShow.getB FEN_STATUS.RUN = true ∧ s.fenShow.get FEN_STATUS.STREAM = r.stream % 16 := by
  have hfen : s.fenCountsShown.fen = s.fen := (only_fenCountsShown s).1 .fen (by simp)
  have hshown : s.fenHeadShown = (s.fenCountsShown.setB FEN_STATUS.RUN true).set FEN_STATUS.STREAM r.stream := by
    simp only [State.fenHeadShown, State.fenRunShown, hfen, hr]
  rw [getB_of_get (get_fenShow_head rfl), get_fenShow_head rfl, hshown]
  refine ⟨?_, get_set_self _ _ _ (Nat.le_of_ble_eq_true rfl)⟩
  rw [getB_of_get (get_set_apart _ _ _ _ (.inr (.inr (Nat.le_of_ble_eq_true rfl))) (Nat.le_of_ble_eq_true rfl))]
  exact getB_setB_self _ _ _ (Nat.le_of_ble_eq_true rfl) rfl

theorem fenShow_no_run (hr : s.fen.run = none) : s.fenShow.getB FEN_STATUS.RUN = false := by
  have hfen : s.fenCountsShown.fen = s.fen := (only_fenCountsShown s).1 .fen (by simp)
  have hshown : s.fenHeadShown = (s.fenCountsShown.setB FEN_STATUS.RUN false).set FEN_STATUS.STREAM 0 := by
    simp only [State.fenHeadShown, State.fenRunShown, hfen, hr]
  rw [getB_of_get (get_fenShow_head rfl), hshown, getB_of_get (get_set_apart _ _ _ _ (.inr (.inr (Nat.le_of_ble_eq_true rfl))) (Nat.le_of_ble_eq_true rfl))]
  exact getB_setB_self _ _ _ (Nat.le_of_ble_eq_true rfl) rfl

/-- The number of streams and the mask of usable packages. -/
theorem fenShow_counts (s : State) : s.fenShow.get FEN_STATUS.STREAMS = s.fen.streams.length % 32 ∧
    s.fenShow.get FEN_STATUS.PKGS = (List.range 8).foldr (fun i m => 2 * m + b2n (s.pkg i).isSome) 0 % 256 := by
  have hrun := (only_fenRunShown s.fenCountsShown).2.1
  have hbelow : ∀ f : Fld, f.lo + f.width ≤ 24 → ∀ g ∈ [FEN_STATUS.RUN, FEN_STATUS.STREAM], f.apart g := by
    intro f hf g hg
    simp only [List.mem_cons, List.not_mem_nil, or_false] at hg
    rcases hg with rfl | rfl <;> refine .inr (.inl (Nat.le_trans hf (Nat.le_of_ble_eq_true rfl)))
  rw [get_fenShow_head rfl, get_fenShow_head rfl, State.fenHeadShown, hrun _ (hbelow _ (Nat.le_of_ble_eq_true rfl)),
    hrun _ (hbelow _ (Nat.le_of_ble_eq_true rfl)), State.fenCountsShown]
  have hsram {f : Fld} (hf : f.addr = FEN_STATUS) : f.apart FEN_SRAM.FREE := .inl (by rw [hf]; decide)
  refine ⟨?_, ?_⟩
  · rw [get_set_apart _ _ _ _ (hsram rfl) (Nat.le_of_ble_eq_true rfl)]
    exact get_set_self _ _ _ (Nat.le_of_ble_eq_true rfl)
  · rw [get_set_apart _ _ _ _ (hsram rfl) (Nat.le_of_ble_eq_true rfl),
      get_set_apart _ _ _ _ (.inr (.inr (Nat.le_of_ble_eq_true rfl))) (Nat.le_of_ble_eq_true rfl)]
    exact get_set_self _ _ _ (Nat.le_of_ble_eq_true rfl)

end Shown

end Sys2Proof.Machine
end

section
/-! PROOFS. The arbiters: the end of a grant and a revocation (R359, R360, R362). -/

namespace Sys2Proof.Machine

/-! ### The grant ends (R359, R362) -/

section Free
variable {a i : Nat} {s : State}

/-- No grant shown in ARB_STAT. -/
def State.grantCleared (a : Nat) (s : State) : State := ((s.setB (ARB_STAT.GRANTED a) false).set (ARB_STAT.OWNER a) 0).set (ARB_STAT.CLASS a) 0

/-- When the grant began is forgotten. -/
def State.grantForgotten (a : Nat) (s : State) : State := s.withArb { s.arb with grantAt := tdel s.arb.grantAt a }

/-- The host's GRANT follows its grant. -/
def State.hostUngranted (i : Nat) (s : State) : State := if i = 23 then s.setB ARB_HREQ.GRANT false else s

/-- The grant has ended, before DRAINED follows. -/
def State.grantEnded (a : Nat) (s : State) : State := ((s.grantCleared a).grantForgotten a).hostUngranted (s.arbOwner a)

theorem arbFree_eq (a : Nat) (s : State) : s.arbFree a = (s.grantEnded a).arbDrained a := rfl

theorem only_grantCleared (a : Nat) (s : State) :
    s.only [] [ARB_STAT.GRANTED a, ARB_STAT.OWNER a, ARB_STAT.CLASS a] (s.grantCleared a) :=
  only_then_set (only_then_set (only_then_setB (only_refl s _ _) false (by simp) (Nat.le_of_ble_eq_true rfl)) 0 (by simp) (Nat.le_of_ble_eq_true rfl)) 0
    (by simp) (Nat.le_of_ble_eq_true rfl)

theorem getB_granted_grantCleared (a : Nat) (s : State) : (s.grantCleared a).getB (ARB_STAT.GRANTED a) = false := by
  rw [State.grantCleared, getB_of_get (get_set_apart _ _ _ _ (.inr (.inr (Nat.le_of_ble_eq_true rfl))) (Nat.le_of_ble_eq_true rfl)),
    getB_of_get (get_set_apart _ _ _ _ (.inr (.inr (Nat.le_of_ble_eq_true rfl))) (Nat.le_of_ble_eq_true rfl))]
  exact getB_setB_self _ _ _ (Nat.le_of_ble_eq_true rfl) rfl

theorem only_grantForgotten (a : Nat) (s : State) : s.only [.arb] [] (s.grantForgotten a) := only_withArb ..

theorem only_hostUngranted (i : Nat) (s : State) : s.only [] (if i = 23 then [ARB_HREQ.GRANT] else []) (s.hostUngranted i) := by
  unfold State.hostUngranted
  split
  · exact only_set s _ (Nat.le_of_ble_eq_true rfl)
  · exact only_refl ..

/-- The fields that the end of a grant of owner `i` writes. -/
def grantFlds (a i : Nat) : List Fld := [ARB_STAT.GRANTED a, ARB_STAT.OWNER a, ARB_STAT.CLASS a] ++ if i = 23 then [ARB_HREQ.GRANT] else []

theorem only_grantEnded (a : Nat) (s : State) : s.only [.arb] (grantFlds a (s.arbOwner a)) (s.grantEnded a) :=
  only_mono (only_seq (only_seq (only_grantCleared a s) (only_grantForgotten a _)) (only_hostUngranted _ _)) (by simp) (by simp [grantFlds])

theorem arb_hostUngranted (i : Nat) (s : State) : (s.hostUngranted i).arb = s.arb := (only_hostUngranted i s).1 .arb (by simp)

theorem arb_grantEnded (a : Nat) (s : State) : (s.grantEnded a).arb = { s.arb with grantAt := tdel s.arb.grantAt a } := by
  have harb : (s.grantCleared a).arb = s.arb := (only_grantCleared a s).1 .arb (by simp)
  rw [State.grantEnded, arb_hostUngranted, State.grantForgotten, arb_withArb, harb]

theorem arbGranted_grantEnded (a : Nat) (s : State) : (s.grantEnded a).arbGranted a = false := by
  have hforgot : ((s.grantCleared a).grantForgotten a).getB (ARB_STAT.GRANTED a) = false := by
    rw [State.grantForgotten, getB_withArb, getB_granted_grantCleared]
  refine (getB_of_only (only_hostUngranted _ _) fun f hf => ?_).trans hforgot
  split at hf
  · rw [List.mem_singleton.1 hf]
    exact .inl (arbStat_ne_arbHreq a)
  · cases hf

theorem hostGrant_grantEnded (h : s.arbOwner a = 23) : (s.grantEnded a).getB ARB_HREQ.GRANT = false := by
  rw [State.grantEnded, h]
  exact getB_setB_self _ _ _ (Nat.le_of_ble_eq_true rfl) rfl

/-! DRAINED follows FREEZE and the grant. -/

/-- DRAINED as it has to be. -/
def State.drained (a : Nat) (s : State) : Bool := s.getB (ARB_CFG.FREEZE a) && !s.arbGranted a

theorem arbDrained_eq (a : Nat) (s : State) :
    s.arbDrained a = if s.drained a && !s.getB (ARB_STAT.DRAINED a) then (s.setB (ARB_STAT.DRAINED a) (s.drained a)).raise (210 + a)
      else s.setB (ARB_STAT.DRAINED a) (s.drained a) := rfl

theorem arbDrained_thawed (h : s.getB (ARB_CFG.FREEZE a) = false) : s.arbDrained a = s.setB (ARB_STAT.DRAINED a) false := by
  have hd : s.drained a = false := by simp [State.drained, h]
  rw [arbDrained_eq, hd]
  rfl

theorem only_setDrained (a : Nat) (v : Bool) (s : State) : s.only [] [ARB_STAT.DRAINED a] (s.setB (ARB_STAT.DRAINED a) v) :=
  only_set s _ (Nat.le_of_ble_eq_true rfl)

theorem only_arbDrained (a : Nat) (s : State) : s.only [.rcd, .cyc] (ARB_STAT.DRAINED a :: raiseFlds (210 + a)) (s.arbDrained a) := by
  rw [arbDrained_eq]
  have hset := only_mono (only_setDrained a (s.drained a) s) (qs := [.rcd, .cyc]) (us := ARB_STAT.DRAINED a :: raiseFlds (210 + a)) (by simp) (by simp)
  split
  · exact only_then_raise hset _ (by simp) (by simp) (by simp +contextual)
  · exact hset

theorem getB_drained_arbDrained (a : Nat) (s : State) : (s.arbDrained a).getB (ARB_STAT.DRAINED a) = s.drained a := by
  have hself := getB_setB_self s (ARB_STAT.DRAINED a) (s.drained a) (Nat.le_of_ble_eq_true rfl) rfl
  rw [arbDrained_eq]
  split
  · exact (getB_raise_outside _ _ (by rw [show (ARB_STAT.DRAINED a).addr = ARB_STAT a from rfl, window_arbStat]; decide)).trans hself
  · exact hself

/-- A grant that ends while its arbiter is not frozen. -/
theorem arbFree_thawed (h : s.getB (ARB_CFG.FREEZE a) = false) : s.arbFree a = (s.grantEnded a).setB (ARB_STAT.DRAINED a) false := by
  rw [arbFree_eq]
  refine arbDrained_thawed ((getB_of_only (only_grantEnded a s) fun f hf => .inl ?_).trans h)
  simp only [grantFlds, List.mem_append, List.mem_cons, List.not_mem_nil, or_false] at hf
  rcases hf with (rfl | rfl | rfl) | hf
  · exact (arbStat_ne_arbCfg a a).symm
  · exact (arbStat_ne_arbCfg a a).symm
  · exact (arbStat_ne_arbCfg a a).symm
  · split at hf
    · rw [List.mem_singleton.1 hf]
      exact arbCfg_ne_arbHreq a
    · cases hf

theorem only_arbFree_thawed (h : s.getB (ARB_CFG.FREEZE a) = false) :
    s.only [.arb] (ARB_STAT.DRAINED a :: grantFlds a (s.arbOwner a)) (s.arbFree a) := by
  rw [arbFree_thawed h]
  exact only_then_setB (only_mono (only_grantEnded a s) (by simp) (by simp +contextual)) false (by simp) (Nat.le_of_ble_eq_true rfl)

theorem arbGranted_arbFree (a : Nat) (s : State) : (s.arbFree a).arbGranted a = false := by
  rw [arbFree_eq]
  refine (getB_of_only (only_arbDrained a _) fun f hf => ?_).trans (arbGranted_grantEnded a s)
  rcases List.mem_cons.1 hf with rfl | hf
  · exact .inr (.inr (Nat.le_of_ble_eq_true rfl))
  · exact apart_of_window (g := ARB_STAT.GRANTED a) (fs := raiseFlds (210 + a)) (fun f hf => by
      rw [window_raiseFlds f hf, show (ARB_STAT.GRANTED a).addr = ARB_STAT a from rfl, window_arbStat]; decide) f hf

theorem arb_arbFree (a : Nat) (s : State) : (s.arbFree a).arb = { s.arb with grantAt := tdel s.arb.grantAt a } := by
  have harb : ((s.grantEnded a).arbDrained a).arb = (s.grantEnded a).arb := (only_arbDrained a _).1 .arb (by simp)
  rw [arbFree_eq, harb, arb_grantEnded]

end Free

/-! ### The grant is revoked (R360) -/

section Revoke
variable {a i j : Nat} {s : State}

/-- The request of the former owner stays pending, and the revocation counts. -/
def State.revokeCounted (a i : Nat) (s : State) : State := (s.setB (ARB_REQ.PEND i) true).bump (ARB_CNT.REVOKE a) 1

/-- The host's REVOKED. -/
def State.hostRevoked (i : Nat) (s : State) : State := if i = 23 then s.setB ARB_HREQ.REVOKED true else s

theorem arbRevoke_eq (a : Nat) (s : State) :
    s.arbRevoke a = if a = 1 then (((s.arbFree a).revokeCounted a (s.arbOwner a)).hostRevoked (s.arbOwner a)).raise 212
      else ((s.arbFree a).revokeCounted a (s.arbOwner a)).hostRevoked (s.arbOwner a) := rfl

theorem only_revokeCounted (a i : Nat) (s : State) : s.only [] [ARB_REQ.PEND i, ARB_CNT.REVOKE a] (s.revokeCounted a i) :=
  only_then_set (only_then_setB (only_refl s _ _) true (by simp) (Nat.le_of_ble_eq_true rfl)) _ (by simp) (Nat.le_of_ble_eq_true rfl)

theorem only_hostRevoked (i : Nat) (s : State) : s.only [] (if i = 23 then [ARB_HREQ.REVOKED] else []) (s.hostRevoked i) := by
  unfold State.hostRevoked
  split
  · exact only_set s _ (Nat.le_of_ble_eq_true rfl)
  · exact only_refl ..

/-- A revocation before its event. -/
def State.revoked (a : Nat) (s : State) : State := ((s.arbFree a).revokeCounted a (s.arbOwner a)).hostRevoked (s.arbOwner a)

/-- The fields a revocation writes, but for DRAINED's event and its own. -/
def revokeFlds (a i : Nat) : List Fld :=
  [ARB_STAT.DRAINED a] ++ grantFlds a i ++ [ARB_REQ.PEND i, ARB_CNT.REVOKE a] ++ if i = 23 then [ARB_HREQ.REVOKED] else []

theorem only_revoked (h : s.getB (ARB_CFG.FREEZE a) = false) : s.only [.arb] (revokeFlds a (s.arbOwner a)) (s.revoked a) :=
  only_mono (only_seq (only_seq (only_arbFree_thawed h) (only_revokeCounted a _ _)) (only_hostRevoked _ _)) (by simp) (by simp [revokeFlds])

theorem arb_revoked (a : Nat) (s : State) : (s.revoked a).arb = { s.arb with grantAt := tdel s.arb.grantAt a } := by
  have hcount : ((s.arbFree a).revokeCounted a (s.arbOwner a)).arb = (s.arbFree a).arb := (only_revokeCounted ..).1 .arb (by simp)
  have hhost : (s.revoked a).arb = ((s.arbFree a).revokeCounted a (s.arbOwner a)).arb := (only_hostRevoked ..).1 .arb (by simp)
  rw [hhost, hcount, arb_arbFree]

/-- What a revocation leaves of the fields that the host's REVOKED does not hold. -/
theorem get_hostRevoked {f : Fld} (hf : f.addr ≠ ARB_HREQ) (i : Nat) (s : State) : (s.hostRevoked i).get f = s.get f := by
  refine (only_hostRevoked i s).2.1 f fun g hg => ?_
  split at hg
  · rw [List.mem_singleton.1 hg]
    exact .inl hf
  · cases hg

theorem revoked_reads (h : s.getB (ARB_CFG.FREEZE a) = false) :
    (s.revoked a).arbGranted a = false ∧ (s.revoked a).getB (ARB_REQ.PEND (s.arbOwner a)) = true ∧
      (s.revoked a).get (ARB_CNT.REVOKE a) = min 65535 (s.get (ARB_CNT.REVOKE a) + 1) := by
  have hcnt : (s.arbFree a).get (ARB_CNT.REVOKE a) = s.get (ARB_CNT.REVOKE a) := by
    refine (only_arbFree_thawed h).2.1 _ fun f hf => .inl ?_
    simp only [grantFlds, List.mem_append, List.mem_cons, List.not_mem_nil, or_false] at hf
    rcases hf with rfl | (rfl | rfl | rfl) | hf
    · exact (arbStat_ne_arbCnt a a).symm
    · exact (arbStat_ne_arbCnt a a).symm
    · exact (arbStat_ne_arbCnt a a).symm
    · exact (arbStat_ne_arbCnt a a).symm
    · split at hf
      · rw [List.mem_singleton.1 hf]
        exact arbCnt_ne_arbHreq a
      · cases hf
  refine ⟨?_, ?_, ?_⟩
  · refine (getB_of_get (get_hostRevoked (arbStat_ne_arbHreq a) _ _)).trans ((getB_of_only (only_revokeCounted ..) fun f hf => .inl ?_).trans
      (arbGranted_arbFree a s))
    simp only [List.mem_cons, List.not_mem_nil, or_false] at hf
    rcases hf with rfl | rfl
    · exact arbStat_ne_arbReq a _
    · exact arbStat_ne_arbCnt a a
  · refine (getB_of_get (get_hostRevoked (arbReq_ne_arbHreq _) _ _)).trans
      ((getB_of_get (get_bump_apart _ _ _ _ (.inl (arbReq_ne_arbCnt _ _)) (Nat.le_of_ble_eq_true rfl))).trans ?_)
    exact getB_setB_self _ _ _ (Nat.le_of_ble_eq_true rfl) rfl
  · refine (get_hostRevoked (arbCnt_ne_arbHreq a) _ _).trans ((get_bump_self _ _ _ (Nat.le_of_ble_eq_true rfl)).trans ?_)
    rw [get_setB_apart _ _ _ _ (.inl (arbReq_ne_arbCnt _ _).symm) (Nat.le_of_ble_eq_true rfl), hcnt, satTo_eq_min]
    rfl

theorem revoked_host (h : s.arbOwner a = 23) : (s.revoked a).getB ARB_HREQ.REVOKED = true ∧ (s.revoked a).getB ARB_HREQ.GRANT = false := by
  have hrev : s.revoked a = (((s.arbFree a).revokeCounted a 23)).setB ARB_HREQ.REVOKED true := by
    unfold State.revoked
    rw [h]
    rfl
  rw [hrev]
  refine ⟨getB_setB_self _ _ _ (Nat.le_of_ble_eq_true rfl) rfl, ?_⟩
  refine (getB_of_get (get_setB_apart _ _ _ _ (.inr (.inr (Nat.le_of_ble_eq_true rfl))) (Nat.le_of_ble_eq_true rfl))).trans
    ((getB_of_only (only_revokeCounted ..) fun f hf => .inl ?_).trans ?_)
  · simp only [List.mem_cons, List.not_mem_nil, or_false] at hf
    rcases hf with rfl | rfl
    · exact (arbReq_ne_arbHreq _).symm
    · exact (arbCnt_ne_arbHreq a).symm
  · rw [arbFree_eq]
    refine (getB_of_only (only_arbDrained a _) fun f hf => .inl ?_).trans (hostGrant_grantEnded h)
    rcases List.mem_cons.1 hf with rfl | hf
    · exact (arbStat_ne_arbHreq a).symm
    · intro he
      have := window_raiseFlds f hf
      rw [← he] at this
      exact absurd this (by decide)

end Revoke

/-! ### The best request (R359) -/

section Best
variable {a i j : Nat} {s u : State}

/-- A request of a higher class goes before, then one raised earlier. -/
def State.goesBefore (s : State) (i j : Nat) : Prop :=
  s.arbClass j < s.arbClass i ∨ s.arbClass i = s.arbClass j ∧ tgetD s.arb.since i 0 < tgetD s.arb.since j 0

/-- The better of the best request so far and of `i`. -/
def State.outdo (s : State) (b : Option Nat) (i : Nat) : Option Nat :=
  match b with
  | none => some i
  | some j => if s.arbClass j < s.arbClass i || (s.arbClass i = s.arbClass j && tgetD s.arb.since i 0 < tgetD s.arb.since j 0) then some i else some j

theorem arbBest_eq (s : State) (a : Nat) : s.arbBest a = ((arbIndices a).filter s.arbEligible).foldl s.outdo none := rfl

theorem outdo_some_pos (h : s.goesBefore i j) : s.outdo (some j) i = some i := by
  unfold State.goesBefore at h
  exact if_pos (by simpa using h)

theorem outdo_some_neg (h : ¬ s.goesBefore i j) : s.outdo (some j) i = some j := by
  unfold State.goesBefore at h
  exact if_neg (by simpa using h)

/-- The best of the requests with that of `j` among them: the same, or `j` itself, before which none of the others goes. -/
def State.BestWith (s : State) (j : Nat) (b b' : Option Nat) : Prop :=
  b' = b ∨ b' = some j ∧ ∀ k, b = some k → ¬ s.goesBefore k j

theorem bestWith_other {b b' : Option Nat} (h : s.BestWith j b b') (m : Nat) : s.BestWith j (s.outdo b m) (s.outdo b' m) := by
  rcases h with rfl | ⟨rfl, hb⟩
  · exact .inl rfl
  · by_cases hm : s.goesBefore m j
    · refine .inl ?_
      rw [outdo_some_pos hm]
      cases b with
      | none => rfl
      | some k =>
        have hk := hb k rfl
        exact (outdo_some_pos (by unfold State.goesBefore at *; omega)).symm
    · rw [outdo_some_neg hm]
      refine .inr ⟨rfl, fun k hk => ?_⟩
      cases b with
      | none => cases hk; exact hm
      | some l =>
        by_cases hl : s.goesBefore m l
        · rw [outdo_some_pos hl] at hk; cases hk; exact hm
        · rw [outdo_some_neg hl] at hk; exact hb k hk

theorem bestWith_self {b b' : Option Nat} (h : s.BestWith j b b') : s.BestWith j b (s.outdo b' j) := by
  rcases h with rfl | ⟨rfl, hb⟩
  · cases b' with
    | none => exact .inr ⟨rfl, fun k hk => by cases hk⟩
    | some k =>
      by_cases hk : s.goesBefore j k
      · rw [outdo_some_pos hk]
        exact .inr ⟨rfl, fun l hl => by cases hl; unfold State.goesBefore at *; omega⟩
      · exact .inl (outdo_some_neg hk)
  · by_cases hj : s.goesBefore j j
    · exact .inr ⟨outdo_some_pos hj, hb⟩
    · exact .inr ⟨outdo_some_neg hj, hb⟩

/-- A request beside those that a decision weighs changes nothing where the best goes before it. -/
theorem bestWith_filter {p q : Nat → Bool} (hq : ∀ k, k ≠ j → q k = p k) (hp : p j = false) (l : List Nat) :
    ∀ b b', s.BestWith j b b' → s.BestWith j ((l.filter p).foldl s.outdo b) ((l.filter q).foldl s.outdo b') := by
  induction l with
  | nil => exact fun b b' h => h
  | cons k l ih =>
    intro b b' h
    by_cases hk : k = j
    · subst hk
      rw [List.filter_cons_of_neg (by simp [hp])]
      cases hqk : q k with
      | false => rw [List.filter_cons_of_neg (by simp [hqk])]; exact ih b b' h
      | true => rw [List.filter_cons_of_pos hqk]; exact ih _ _ (bestWith_self h)
    · cases hpk : p k with
      | false =>
        rw [List.filter_cons_of_neg (by simp [hpk]), List.filter_cons_of_neg (by simp [hq k hk, hpk])]
        exact ih b b' h
      | true =>
        rw [List.filter_cons_of_pos hpk, List.filter_cons_of_pos (by rw [hq k hk, hpk])]
        exact ih _ _ (bestWith_other h k)

/-- The best request stays the best where a grant of a lower class ends whose request stays pending. -/
theorem arbBest_freed (hsince : u.arb.since = s.arb.since) (hclass : ∀ k, u.arbClass k = s.arbClass k)
    (heligible : ∀ k, k ≠ j → u.arbEligible k = s.arbEligible k) (hheld : s.arbHolds j = true) (hbest : s.arbBest a = some i)
    (hbelow : s.arbClass j < s.arbClass i) : u.arbBest a = some i := by
  have hout : u.outdo = s.outdo := by
    funext b k
    cases b with
    | none => rfl
    | some l => simp only [State.outdo, hclass, hsince]
  have hp : s.arbEligible j = false := by simp [State.arbEligible, hheld]
  have hwith := bestWith_filter (s := s) heligible hp (arbIndices a) none none (.inl rfl)
  rw [arbBest_eq] at hbest
  rw [arbBest_eq, hout]
  rw [hbest] at hwith
  rcases hwith with h | ⟨-, h⟩
  · exact h
  · exact absurd (.inl hbelow) (h i rfl)

end Best

end Sys2Proof.Machine
end

section
/-! PROOFS. The arbiters: a decision seen through its frame, and the revocation of the writers of ARB1 (R360, R361). -/

namespace Sys2Proof.Machine

/-! ### What a decision weighs, seen through a frame -/

section Weighed
variable {s u : State} {ps : List Comp} {fs : List Fld} {k a : Nat}

theorem arbClass_of_only (h : s.only ps fs u) (hreq : ∀ f ∈ fs, (ARB_REQ.LIVE k).apart f ∧ (ARB_REQ.CLASS k).apart f) : u.arbClass k = s.arbClass k := by
  simp only [State.arbClass, getB_of_only h fun f hf => (hreq f hf).1, h.2.1 _ fun f hf => (hreq f hf).2]

theorem region_of_only (h : s.only ps fs u) (hstr : ∀ f ∈ fs, windowOf f.addr ≠ 0xC2) (r : Nat) : u.loaded r = s.loaded r ∧ u.busy r = s.busy r := by
  have happart (g : Fld) (hg : windowOf g.addr = 0xC2) : u.get g = s.get g := h.2.1 g (apart_of_window (by simpa [hg] using hstr))
  exact ⟨by rw [State.loaded, happart _ rfl, State.loaded], by rw [State.busy, happart _ rfl, State.busy]⟩

theorem arbEligible_of_only (h : s.only ps fs u) (hsince : u.arb.since = s.arb.since) (hreq : ∀ f ∈ fs, (ARB_REQ.LIVE k).apart f)
    (hstr : ∀ f ∈ fs, windowOf f.addr ≠ 0xC2) (hholds : u.arbHolds k = s.arbHolds k) : u.arbEligible k = s.arbEligible k := by
  obtain ⟨hload, hbusy⟩ := region_of_only h hstr 4
  simp only [State.arbEligible, hsince, hholds, hload, hbusy, getB_of_only h hreq]

theorem arbHolds_of_only (h : s.only ps fs u) (hstat : ∀ f ∈ fs, (ARB_STAT.GRANTED (arbOf k)).apart f ∧ (ARB_STAT.OWNER (arbOf k)).apart f) :
    u.arbHolds k = s.arbHolds k := by
  simp only [State.arbHolds, State.arbGranted, State.arbOwner, getB_of_only h fun f hf => (hstat f hf).1, h.2.1 _ fun f hf => (hstat f hf).2]
  rfl

end Weighed

section Shown
variable {a i j : Nat} {s : State}

theorem only_ownerClassShown (a : Nat) (s : State) : s.only [] [ARB_STAT.CLASS a] (s.ownerClassShown a) := by
  unfold State.ownerClassShown
  split
  · exact only_set s _ (Nat.le_of_ble_eq_true rfl)
  · exact only_refl ..

/-- CLASS of the grant is none of the things that a decision weighs. -/
theorem ownerClassShown_weighs (a : Nat) (s : State) :
    (∀ b, (s.ownerClassShown a).arbGranted b = s.arbGranted b ∧ (s.ownerClassShown a).arbOwner b = s.arbOwner b) ∧
    (∀ k, (s.ownerClassShown a).arbClass k = s.arbClass k ∧ (s.ownerClassShown a).arbEligible k = s.arbEligible k) := by
  have honly := only_ownerClassShown a s
  have hstat (b : Nat) : ∀ f ∈ [ARB_STAT.CLASS a], (ARB_STAT.GRANTED b).apart f ∧ (ARB_STAT.OWNER b).apart f := by
    simp only [List.mem_singleton, forall_eq]
    exact ⟨.inr (.inr (Nat.le_of_ble_eq_true rfl)), .inr (.inr (Nat.le_of_ble_eq_true rfl))⟩
  have hreq (k : Nat) : ∀ f ∈ [ARB_STAT.CLASS a], (ARB_REQ.LIVE k).apart f ∧ (ARB_REQ.CLASS k).apart f := by
    simp only [List.mem_singleton, forall_eq]
    exact ⟨.inl (arbStat_ne_arbReq a k).symm, .inl (arbStat_ne_arbReq a k).symm⟩
  have hstr : ∀ f ∈ [ARB_STAT.CLASS a], windowOf f.addr ≠ 0xC2 := by
    simp only [List.mem_singleton, forall_eq]
    rw [show (ARB_STAT.CLASS a).addr = ARB_STAT a from rfl, window_arbStat]
    decide
  refine ⟨fun b => ⟨getB_of_only honly fun f hf => (hstat b f hf).1, honly.2.1 _ fun f hf => (hstat b f hf).2⟩, fun k => ⟨arbClass_of_only honly (hreq k), ?_⟩⟩
  exact arbEligible_of_only honly (congrArg ArbState.since (honly.1 .arb (by simp))) (fun f hf => (hreq k f hf).1) hstr (arbHolds_of_only honly (hstat _))

theorem arbBest_ownerClassShown (a b : Nat) (s : State) : (s.ownerClassShown a).arbBest b = s.arbBest b := by
  obtain ⟨-, hweigh⟩ := ownerClassShown_weighs a s
  have hsince : (s.ownerClassShown a).arb.since = s.arb.since := congrArg ArbState.since ((only_ownerClassShown a s).1 .arb (by simp))
  have hout : (s.ownerClassShown a).outdo = s.outdo := by
    funext b k
    cases b with
    | none => rfl
    | some l => simp only [State.outdo, fun k => (hweigh k).1, hsince]
  have hel : (s.ownerClassShown a).arbEligible = s.arbEligible := funext fun k => (hweigh k).2
  rw [arbBest_eq, hout, hel, ← arbBest_eq]

theorem fenCommit_of_fen {s u : State} (hf : u.fen = s.fen) (hl : u.ltc = s.ltc) : u.fenCommit = s.fenCommit := by
  simp only [State.fenCommit, hf, pkg_congr hf, State.since, now_of_ltc hl]
  rfl

/-- What an arbiter does once a grant is revoked. -/
def State.decideAgain (a : Nat) (u : State) : State :=
  if u.arbGranted a then u
  else match u.arbBest a with
    | some i => u.giveGrant i
    | none => u

theorem decideAgain_free (hfree : s.arbGranted a = false) (hbest : s.arbBest a = some i) : s.decideAgain a = s.giveGrant i := by
  simp only [State.decideAgain, hfree, hbest, Bool.false_eq_true, if_false]

/-- A decision that takes the grant from a lower class. -/
theorem arbDecide_outranked (hthaw : s.getB (ARB_CFG.FREEZE a) = false) (hnew : s.arb.newClass = []) (hgrant : s.arbGranted a = true)
    (hbest : s.arbBest a = some i) (hbelow : s.arbClass (s.arbOwner a) < s.arbClass i) (hcommit : a = 0 → s.fenCommit = false) :
    s.arbDecide a = ((s.ownerClassShown a).revokeGrant a).decideAgain a := by
  have honly := only_ownerClassShown a s
  obtain ⟨hstat, hweigh⟩ := ownerClassShown_weighs a s
  obtain ⟨hgranted, howner⟩ := hstat a
  have hrank : (s.ownerClassShown a).arbOutranked a = true := by
    simp [State.arbOutranked, hgranted, howner, arbBest_ownerClassShown, hbest, hgrant, (hweigh _).1, hbelow]
  have hno : (s.ownerClassShown a).fenCommit = s.fenCommit := fenCommit_of_fen (honly.1 .fen (by simp)) (honly.1 .ltc (by simp))
  have hgo : (decide (a = 0) && (s.ownerClassShown a).fenCommit) = false := by
    rw [hno]
    by_cases h0 : a = 0
    · simp [h0, hcommit h0]
    · simp [h0]
  unfold State.arbDecide
  rw [arbApply_none hnew]
  simp only [hthaw, Bool.false_eq_true, if_false, hrank, hgo, Bool.not_false, Bool.and_true, if_true]
  rfl

/-- What an arbiter weighs after a revocation: the former owner's request beside the others. -/
theorem revoked_weighs (hthaw : s.getB (ARB_CFG.FREEZE a) = false) (hgrant : s.arbGranted a = true) (ha : a < 2) :
    (s.revoked a).arb.since = s.arb.since ∧ (∀ k, (s.revoked a).arbClass k = s.arbClass k) ∧
      (∀ k, k ≠ s.arbOwner a → (s.revoked a).arbEligible k = s.arbEligible k) := by
  have honly := only_revoked hthaw
  have hfield : ∀ f ∈ revokeFlds a (s.arbOwner a), (f.addr = ARB_STAT a ∨ f.addr = ARB_CNT a ∨ f.addr = ARB_HREQ) ∨ f = ARB_REQ.PEND (s.arbOwner a) := by
    intro f hf
    simp only [revokeFlds, grantFlds, List.mem_append, List.mem_cons, List.not_mem_nil, or_false] at hf
    rcases hf with ((rfl | (rfl | rfl | rfl) | hf) | rfl | rfl) | hf
    · exact .inl (.inl rfl)
    · exact .inl (.inl rfl)
    · exact .inl (.inl rfl)
    · exact .inl (.inl rfl)
    · split at hf
      · rw [List.mem_singleton.1 hf]; exact .inl (.inr (.inr rfl))
      · cases hf
    · exact .inr rfl
    · exact .inl (.inr (.inl rfl))
    · split at hf
      · rw [List.mem_singleton.1 hf]; exact .inl (.inr (.inr rfl))
      · cases hf
  have hreq (k : Nat) : ∀ f ∈ revokeFlds a (s.arbOwner a), (ARB_REQ.LIVE k).apart f ∧ (ARB_REQ.CLASS k).apart f := by
    intro f hf
    rcases hfield f hf with hf | rfl
    · have hne : ARB_REQ k ≠ f.addr := by
        rcases hf with hf | hf | hf <;> rw [hf]
        · exact (arbStat_ne_arbReq a k).symm
        · exact arbReq_ne_arbCnt k a
        · exact arbReq_ne_arbHreq k
      exact ⟨.inl hne, .inl hne⟩
    · exact ⟨.inr (.inr (Nat.le_of_ble_eq_true rfl)), .inr (.inl (Nat.le_of_ble_eq_true rfl))⟩
  have hstr : ∀ f ∈ revokeFlds a (s.arbOwner a), windowOf f.addr ≠ 0xC2 := by
    intro f hf
    rcases hfield f hf with (hf | hf | hf) | rfl
    · rw [hf, window_arbStat]; decide
    · rw [hf, windowOf, ARB_CNT]; omega
    · rw [hf]; decide
    · rw [show (ARB_REQ.PEND (s.arbOwner a)).addr = ARB_REQ (s.arbOwner a) from rfl, window_arbReq]; decide
  have hsince : (s.revoked a).arb.since = s.arb.since := by rw [arb_revoked]
  refine ⟨hsince, fun k => arbClass_of_only honly (hreq k), fun k hk => ?_⟩
  refine arbEligible_of_only honly hsince (fun f hf => (hreq k f hf).1) hstr ?_
  by_cases hka : arbOf k = a
  · simp only [State.arbHolds, hka, (revoked_reads hthaw).1, Bool.false_and, hgrant, Bool.true_and]
    exact (decide_eq_false (Ne.symm hk)).symm
  · refine arbHolds_of_only honly fun f hf => ?_
    have hne : ARB_STAT (arbOf k) ≠ f.addr := by
      rcases hfield f hf with (hf | hf | hf) | rfl
      · rw [hf]; exact fun he => hka (arbStat_inj (arbOf_lt k) ha he)
      · rw [hf]; exact arbStat_ne_arbCnt _ _
      · rw [hf]; exact arbStat_ne_arbHreq _
      · exact arbStat_ne_arbReq _ _
    exact ⟨.inl hne, .inl hne⟩

end Shown

/-! ### ARB1 revokes the update writer's or the host's grant (R361) -/

section Storage
variable {i j : Nat} {s : State}

theorem execArbDecide_one (s : State) : exec (.arbDecide 1 s.fenCommit) s = .next (s.arbDecide 1) := execArbDecide_eq 1 s

/-- The update writer and the host go on with their request pending. -/
theorem revokeGrant_writer (hj : s.arbOwner 1 = 22 ∨ s.arbOwner 1 = 23) : s.revokeGrant 1 = (s.revoked 1).raise 212 := by
  have hrev : s.arbRevoke 1 = (s.revoked 1).raise 212 := by rw [arbRevoke_eq]; rfl
  unfold State.revokeGrant
  rcases hj with hj | hj <;> simp only [hj, hrev] <;> rfl

theorem raise_weighs (n : Nat) (s : State) :
    (s.raise n).arb.since = s.arb.since ∧ (∀ k, (s.raise n).arbClass k = s.arbClass k) ∧ (∀ k, (s.raise n).arbEligible k = s.arbEligible k) := by
  have honly := only_raise s n
  have haway {g : Fld} (hg : windowOf g.addr ≠ 0xC1) : ∀ f ∈ raiseFlds n, g.apart f :=
    apart_of_window fun f hf => by rw [window_raiseFlds f hf]; exact Ne.symm hg
  have hreq (k : Nat) : windowOf (ARB_REQ k) ≠ 0xC1 := by rw [window_arbReq]; decide
  have hstat (k : Nat) : windowOf (ARB_STAT k) ≠ 0xC1 := by rw [window_arbStat]; decide
  have hsince : (s.raise n).arb.since = s.arb.since := congrArg ArbState.since (honly.1 .arb (by simp))
  refine ⟨hsince, fun k => arbClass_of_only honly fun f hf => ⟨haway (hreq k) f hf, haway (hreq k) f hf⟩, fun k => ?_⟩
  exact arbEligible_of_only honly hsince (haway (hreq k)) (fun f hf => by rw [window_raiseFlds f hf]; decide)
    (arbHolds_of_only honly fun f hf => ⟨haway (hstat _) f hf, haway (hstat _) f hf⟩)

/-- What ARB1 shows once it has revoked a writer's grant, before it grants again. -/
theorem writerRevoked_shows (hthaw : s.getB (ARB_CFG.FREEZE 1) = false) (hgrant : s.arbGranted 1 = true) (howner : s.arbOwner 1 = j)
    (hj : j = 22 ∨ j = 23) (hbest : s.arbBest 1 = some i) (hbelow : s.arbClass j < s.arbClass i) :
    let u := s.revokeGrant 1
    u.arbGranted 1 = false ∧ u.arbBest 1 = some i ∧ u.arbClass i = s.arbClass i ∧ u.get (ARB_CNT.REVOKE 1) = min 65535 (s.get (ARB_CNT.REVOKE 1) + 1) ∧
      u.getB (ARB_REQ.PEND j) = true ∧ (j = 23 → u.getB ARB_HREQ.REVOKED = true ∧ u.getB ARB_HREQ.GRANT = false) ∧ u.arb.since = s.arb.since ∧
      s.raised 212 u ∧ s.only [.arb, .rcd, .cyc] (revokeFlds 1 j ++ raiseFlds 212) u := by
  intro u
  have hu : u = (s.revoked 1).raise 212 := revokeGrant_writer (by rw [howner]; exact hj)
  clear_value u
  rw [hu]
  obtain ⟨hfree, hpend, hcount⟩ := revoked_reads hthaw
  obtain ⟨hsince, hclass, hel⟩ := revoked_weighs hthaw hgrant (by decide)
  obtain ⟨hsince', hclass', hel'⟩ := raise_weighs 212 (s.revoked 1)
  have honly := only_revoked hthaw
  rw [howner] at hpend hel honly
  have hout {g : Fld} (hg : windowOf g.addr ≠ 0xC1) : ((s.revoked 1).raise 212).getB g = (s.revoked 1).getB g := getB_raise_outside _ _ hg
  have hheld : s.arbHolds j = true := by
    have harb : arbOf j = 1 := by rcases hj with rfl | rfl <;> rfl
    simp [State.arbHolds, harb, hgrant, howner]
  have hwin : ∀ f ∈ revokeFlds 1 j, windowOf f.addr ≠ 0xC1 := by
    rcases hj with rfl | rfl <;> decide
  refine ⟨(hout (by decide)).trans hfree, ?_, (hclass' i).trans (hclass i), (get_raise_outside _ _ (by decide)).trans hcount, ?_, ?_, hsince'.trans hsince,
    raised_of_only honly (by simp) hwin (raised_raise _ 212), only_mono (only_seq honly (only_raise _ 212)) (by simp) (by simp)⟩
  · exact arbBest_freed (hsince'.trans hsince) (fun k => (hclass' k).trans (hclass k)) (fun k hk => (hel' k).trans (hel k hk)) hheld hbest hbelow
  · exact (hout (by rw [show (ARB_REQ.PEND j).addr = ARB_REQ j from rfl, window_arbReq]; decide)).trans hpend
  · rintro rfl
    obtain ⟨hrev, hgr⟩ := revoked_host howner
    exact ⟨(hout (by decide)).trans hrev, (hout (by decide)).trans hgr⟩

end Storage

end Sys2Proof.Machine
end

section
/-! PROOFS. The arbiters: a storage grant that a request of a higher class takes (R360, R361). -/

namespace Sys2Proof.Machine

section Storage
variable {i j : Nat} {s : State}

theorem giveGrant_storage (hi : 20 ≤ i) (hlayer : i ≠ 21) : s.giveGrant i = s.arbGrant i := by
  unfold State.giveGrant
  dsimp only
  rw [if_neg (Nat.not_lt.2 hi), if_neg hlayer]

/-- ARB1 takes its grant from the update writer or the host for the recorder's request. -/
theorem storageGrantMoves (hthaw : s.getB (ARB_CFG.FREEZE 1) = false) (hnew : s.arb.newClass = []) (hgrant : s.arbGranted 1 = true)
    (howner : s.arbOwner 1 = j) (hj : j = 22 ∨ j = 23) (hbest : s.arbBest 1 = some 20) (hbelow : s.arbClass j < s.arbClass 20) :
    ∃ t, exec (.arbDecide 1 s.fenCommit) s = .next t ∧ t.arbOwner 1 = 20 ∧ t.arbGranted 1 = true ∧ t.get (ARB_STAT.CLASS 1) = s.arbClass 20 ∧
      t.get (ARB_CNT.REVOKE 1) = min 65535 (s.get (ARB_CNT.REVOKE 1) + 1) ∧ t.getB (ARB_REQ.PEND j) = true ∧ t.getB (ARB_REQ.PEND 20) = false ∧
      t.arb.since = s.arb.since ∧ s.raised 212 t ∧ (j = 23 → t.getB ARB_HREQ.REVOKED = true ∧ t.getB ARB_HREQ.GRANT = false) ∧
      s.only [.arb, .rcd, .cyc] ([ARB_STAT.GRANTED 1, ARB_STAT.OWNER 1, ARB_STAT.CLASS 1, ARB_STAT.DRAINED 1, ARB_CNT.REVOKE 1, ARB_REQ.PEND 20,
        ARB_REQ.PEND j, ARB_HREQ.REVOKED, ARB_HREQ.GRANT] ++ raiseFlds 212) t := by
  have hshown := only_ownerClassShown 1 s
  obtain ⟨hstat, hweigh⟩ := ownerClassShown_weighs 1 s
  have hthaw' : (s.ownerClassShown 1).getB (ARB_CFG.FREEZE 1) = false := (getB_of_only hshown (apart_all rfl)).trans hthaw
  have hcnt : (s.ownerClassShown 1).get (ARB_CNT.REVOKE 1) = s.get (ARB_CNT.REVOKE 1) := hshown.2.1 _ (apart_all rfl)
  have hsince : (s.ownerClassShown 1).arb.since = s.arb.since := congrArg ArbState.since (hshown.1 .arb (by simp))
  obtain ⟨hfree, hbest', hclass, hcount, hpend, hhost, hsince', hraised, honly⟩ := writerRevoked_shows hthaw' ((hstat 1).1.trans hgrant)
    ((hstat 1).2.trans howner) hj ((arbBest_ownerClassShown 1 1 s).trans hbest) (by rw [(hweigh _).1, (hweigh _).1]; exact hbelow)
  generalize hu : (s.ownerClassShown 1).revokeGrant 1 = u at *
  obtain ⟨hg, ho, hc, hp, -, harb, hgonly⟩ := arbGrant_shows (i := 20) (by decide) u
  have hdecide : s.arbDecide 1 = u.arbGrant 20 := by
    rw [arbDecide_outranked hthaw hnew hgrant hbest (by rw [howner]; exact hbelow) (fun h => absurd h (by decide)), hu, decideAgain_free hfree hbest',
      giveGrant_storage (by decide) (by decide)]
  have hall := only_mono (only_seq (only_seq hshown honly) hgonly) (qs := [.arb, .rcd, .cyc])
    (us := [ARB_STAT.GRANTED 1, ARB_STAT.OWNER 1, ARB_STAT.CLASS 1, ARB_STAT.DRAINED 1, ARB_CNT.REVOKE 1, ARB_REQ.PEND 20,
        ARB_REQ.PEND j, ARB_HREQ.REVOKED, ARB_HREQ.GRANT] ++ raiseFlds 212) (by simp) (by rcases hj with rfl | rfl <;> decide)
  have hkept {f : Fld} (hf : ∀ g ∈ [ARB_STAT.GRANTED 1, ARB_STAT.OWNER 1, ARB_STAT.CLASS 1, ARB_REQ.PEND 20], f.apart g) :
      (u.arbGrant 20).get f = u.get f := hgonly.2.1 f hf
  refine ⟨_, execArbDecide_one s, ?_⟩
  rw [hdecide]
  refine ⟨ho, hg, hc.trans (hclass.trans (hweigh 20).1), (hkept (apart_all rfl)).trans (hcount.trans (by rw [hcnt])), ?_, hp, ?_, ?_, ?_, hall⟩
  · exact (getB_of_get (hkept (by rcases hj with rfl | rfl <;> exact apart_all rfl))).trans hpend
  · rw [harb]; exact hsince'.trans hsince
  · exact raised_then (raised_of_only hshown (by simp) (windows_all rfl) hraised) hgonly (windows_all rfl)
  · intro h
    exact ⟨(getB_of_get (hkept (apart_all rfl))).trans (hhost h).1, (getB_of_get (hkept (apart_all rfl))).trans (hhost h).2⟩

end Storage

end Sys2Proof.Machine
end

section
/-! PROOFS. The arbiters: what a grant and a revocation do to FEN behind ARB0 (R358, R360). -/

namespace Sys2Proof.Machine

/-! ### FEN behind ARB0 (R358, R360) -/

/-- The state with other facts behind FEN's registers. -/
def State.withFen (x : FenState) (s : State) : State := { s with fen := x }

theorem only_withFen (x : FenState) (s : State) : s.only [.fen] [] (s.withFen x) :=
  ⟨fun p hp => by cases p <;> simp [State.same, State.withFen] at hp ⊢, fun _ _ => rfl, rfl, rfl⟩

section WithFen
variable (x : FenState) (s : State)

@[simp] theorem fen_withFen : (s.withFen x).fen = x := rfl
@[simp] theorem get_withFen (f : Fld) : (s.withFen x).get f = s.get f := rfl
@[simp] theorem getB_withFen (f : Fld) : (s.withFen x).getB f = s.getB f := rfl
@[simp] theorem withFen_withFen (y : FenState) : (s.withFen y).withFen x = s.withFen x := rfl
@[simp] theorem dram_withFen : (s.withFen x).dram = s.dram := rfl
@[simp] theorem arb_withFen : (s.withFen x).arb = s.arb := rfl
@[simp] theorem arbHolds_withFen (i : Nat) : (s.withFen x).arbHolds i = s.arbHolds i := rfl

end WithFen

section Halted
variable {s : State} {r : FenRun} {q : FenStream} {j : FenJob} {rest : List FenJob}

/-- A running job that halts counts the revocation (R360). -/
def FenJob.halted (j : FenJob) : FenJob := { j with revokes := satTo 0xFFFF (j.revokes + 1) }

/-- FEN with its run halted. -/
def FenState.halted (x : FenState) (y : Nat) (q : FenStream) (j : FenJob) (rest : List FenJob) : FenState :=
  { x with run := none, streams := tput x.streams y { q with jobs := j.halted :: rest } }

/-- The halt as FEN shows, counts and raises it. -/
def State.haltShown (s : State) : State := ((s.bump FEN_CNT.REVOKE 1).raise 194).fenShow

theorem fenRevoked_eq (hr : s.fen.run = some r) (hq : tget s.fen.streams r.stream = some q) (hj : q.jobs = j :: rest) :
    s.fenRevoked = (s.withFen (s.fen.halted r.stream q j rest)).haltShown := by
  simp only [State.fenRevoked, hr, hq, hj]
  rfl

theorem only_haltShown (s : State) : s.only [.rcd, .cyc] (FEN_CNT.REVOKE :: raiseFlds 194 ++ fenShowFlds) s.haltShown :=
  only_mono (only_seq (only_seq (only_set s (f := FEN_CNT.REVOKE) _ (Nat.le_of_ble_eq_true rfl)) (only_raise _ 194)) (only_fenShow _)) (by simp) (by simp)

theorem window_fenShowFlds : ∀ f ∈ fenShowFlds, windowOf f.addr = 0xCA := by decide

theorem fenCnt_apart_fenShowFlds : fenShowFlds.all FEN_CNT.REVOKE.isApart = true := by decide

theorem haltShown_shows (s : State) : s.haltShown.get FEN_CNT.REVOKE = min 65535 (s.get FEN_CNT.REVOKE + 1) ∧ s.raised 194 s.haltShown := by
  have hset := only_set s (f := FEN_CNT.REVOKE) (satTo (2 ^ 16 - 1) (s.get FEN_CNT.REVOKE + 1)) (Nat.le_of_ble_eq_true rfl)
  have hshow := only_fenShow ((s.bump FEN_CNT.REVOKE 1).raise 194)
  refine ⟨?_, raised_then (raised_of_only hset (by simp) (windows_all rfl) (raised_raise _ 194)) hshow
    fun f hf => by rw [window_fenShowFlds f hf]; decide⟩
  refine (hshow.get fenCnt_apart_fenShowFlds).trans ((get_raise_outside _ _ (by decide)).trans ?_)
  rw [get_bump_self _ _ _ (Nat.le_of_ble_eq_true rfl), satTo_eq_min]
  rfl

end Halted

section Started
variable {s : State} {i x : Nat} {q : FenStream} {p : Pkg} {j : FenJob} {rest : List FenJob}

/-- The head job as its grant starts it. -/
def FenJob.started (j : FenJob) (p : Pkg) (s : State) : FenJob :=
  { j with grantLtc := some (j.grantLtc.getD s.now), input := some (j.input.getD (memBytes s.dram j.inAddr p.inBytes)) }

/-- The run that a grant starts. -/
def FenStream.runFrom (q : FenStream) (x : Nat) (p : Pkg) (s : State) : FenRun :=
  { stream := x, at0 := s.now, start := if s.fen.lastPkg = some q.slot then 600 else 2400, stall := Config.freeValue s.free,
    section0 := memBytes s.dram p.dramAddr p.dramLen }

/-- FEN with the head job of a stream running. -/
def FenState.running (f : FenState) (x : Nat) (q : FenStream) (j : FenJob) (rest : List FenJob) (r : FenRun) : FenState :=
  { f with streams := tput f.streams x { q with jobs := j :: rest }, run := some r, lastPkg := some q.slot }

/-- The head job as a grant finds it: a DRAM job's input is copied at its first grant. -/
def FenStream.fed (q : FenStream) (j : FenJob) (p : Pkg) (s : State) : FenJob :=
  { j with
    grantLtc := some (j.grantLtc.getD s.now)
    input := if q.kind = 0 && j.input.isNone then some (memBytes s.dram j.inAddr p.inBytes) else j.input }

theorem fed_dram (hkind : q.kind = 0) (j : FenJob) (p : Pkg) (s : State) : q.fed j p s = j.started p s := by
  simp only [FenStream.fed, FenJob.started, hkind]
  cases j.input <;> rfl

/-- FEN's start of the head job of a stream. -/
def State.jobStarted (x : Nat) (q : FenStream) (j : FenJob) (rest : List FenJob) (p : Pkg) (s : State) : State :=
  (s.drawn.withFen (s.fen.running x q (q.fed j p s) rest (q.runFrom x p s))).fenShow

theorem fenGranted_eq (hfind : (s.fen.streams.find? fun y => y.2.req = i) = some (x, q)) (hp : s.pkg q.slot = some p) (hj : q.jobs = j :: rest) :
    s.fenGranted i = s.jobStarted x q j rest p := by
  unfold State.fenGranted
  rw [hfind]
  dsimp only
  rw [hj, hp]
  rfl

theorem giveGrant_job (hi : i < 20) : s.giveGrant i = (s.arbGrant i).fenGranted i := by
  unfold State.giveGrant
  dsimp only
  rw [if_pos hi]

end Started

section Tables
variable {α : Type} {t : Tbl α} {k : Nat} {v : α}

theorem mem_of_tget (h : tget t k = some v) : (k, v) ∈ t := by
  induction t with
  | nil => cases h
  | cons e t ih =>
    obtain ⟨l, w⟩ := e
    rw [tget_cons] at h
    split at h
    · next hk => cases h; rw [hk]; exact List.mem_cons_self
    · exact List.mem_cons_of_mem _ (ih h)

theorem tget_of_mem (hs : tsorted t = true) (h : (k, v) ∈ t) : tget t k = some v := by
  induction t with
  | nil => cases h
  | cons e t ih =>
    obtain ⟨l, w⟩ := e
    obtain ⟨habove, hs⟩ := (tsorted_cons l w t).1 hs
    rw [tget_cons]
    rcases List.mem_cons.1 h with he | h
    · cases he; exact if_pos rfl
    · rw [if_neg (Nat.ne_of_gt (habove _ h))]
      exact ih hs h

/-- In a table that rises, the one entry that meets a test is the first that does. -/
theorem find?_of_only {f : Nat × α → Bool} (hs : tsorted t = true) (hk : tget t k = some v) (hf : f (k, v) = true)
    (hother : ∀ e ∈ t, f e = true → e.1 = k) : t.find? f = some (k, v) := by
  cases hfind : t.find? f with
  | none => exact absurd hf (by simpa using List.find?_eq_none.1 hfind _ (mem_of_tget hk))
  | some e =>
    obtain ⟨l, w⟩ := e
    have hmem := List.mem_of_find?_eq_some hfind
    obtain rfl : l = k := hother _ hmem (List.find?_some hfind)
    have := (tget_of_mem hs hmem).symm.trans hk
    rw [Option.some.inj this]

end Tables

end Sys2Proof.Machine
end

section
/-! PROOFS. The arbiters: a job's grant that a request of a higher class takes (R358, R360). -/

namespace Sys2Proof.Machine

section JobMoves
variable {s u : State} {i j x y : Nat} {q q2 : FenStream} {p : Pkg} {h h2 : FenJob} {rest rest2 : List FenJob} {r : FenRun}

/-- Operations outside ARB and STR leave what a decision weighs. -/
theorem weighs_of_window {ps : List Comp} {fs : List Fld} (h : s.only ps fs u) (hp : .arb ∉ ps)
    (hw : ∀ f ∈ fs, windowOf f.addr ≠ 0xCB ∧ windowOf f.addr ≠ 0xC2) :
    u.arb = s.arb ∧ (∀ k, u.arbClass k = s.arbClass k) ∧ (∀ k, u.arbEligible k = s.arbEligible k) ∧ (∀ a, u.arbGranted a = s.arbGranted a) := by
  have haway {g : Fld} (hg : windowOf g.addr = 0xCB) : ∀ f ∈ fs, g.apart f := apart_of_window fun f hf => by rw [hg]; exact (hw f hf).1
  have harb : u.arb = s.arb := h.1 .arb hp
  refine ⟨harb, fun k => arbClass_of_only h fun f hf => ⟨haway (window_arbReq k) f hf, haway (window_arbReq k) f hf⟩, fun k => ?_,
    fun a => getB_of_only h (haway (window_arbStat a))⟩
  exact arbEligible_of_only h (by rw [harb]) (haway (window_arbReq k)) (fun f hf => (hw f hf).2)
    (arbHolds_of_only h fun f hf => ⟨haway (window_arbStat _) f hf, haway (window_arbStat _) f hf⟩)

theorem window_haltFlds : ∀ f ∈ FEN_CNT.REVOKE :: raiseFlds 194 ++ fenShowFlds, windowOf f.addr ≠ 0xCB ∧ windowOf f.addr ≠ 0xC2 := by
  intro f hf
  rcases List.mem_append.1 hf with hf | hf
  · rcases List.mem_cons.1 hf with rfl | hf
    · decide
    · rw [window_raiseFlds f hf]; decide
  · rw [window_fenShowFlds f hf]; decide

theorem arbRevoke_fen (s : State) : s.arbRevoke 0 = s.revoked 0 := rfl

/-- ARB0's grant revoked and the running job halted. -/
def State.jobHalted (y : Nat) (q2 : FenStream) (h2 : FenJob) (rest2 : List FenJob) (s : State) : State :=
  ((s.revoked 0).withFen (s.fen.halted y q2 h2 rest2)).haltShown

theorem revokeGrant_job (hr : s.fen.run = some r) (hy : r.stream = y) (hq : tget s.fen.streams y = some q2) (hj : q2.jobs = h2 :: rest2) :
    s.revokeGrant 0 = s.jobHalted y q2 h2 rest2 := by
  have hfen : (s.revoked 0).fen = s.fen := (State_arbRevoke_mut 0 s).same .fen (by decide)
  have hgo : s.revokeGrant 0 = (s.revoked 0).fenRevoked := by
    unfold State.revokeGrant
    rw [arbRevoke_fen]
    rfl
  rw [hgo, fenRevoked_eq (r := r) (by rw [hfen, hr]) (by rw [hfen, hy, hq]) hj, hfen, hy]
  rfl

/-- The fields that a halted job's grant leaves changed. -/
def jobHaltFlds (j : Nat) : List Fld := revokeFlds 0 j ++ (FEN_CNT.REVOKE :: raiseFlds 194 ++ fenShowFlds)

theorem only_jobHalted (hthaw : s.getB (ARB_CFG.FREEZE 0) = false) (howner : s.arbOwner 0 = j) :
    s.only [.arb, .fen, .rcd, .cyc] (jobHaltFlds j) (s.jobHalted y q2 h2 rest2) := by
  have hrev := only_revoked hthaw
  rw [howner] at hrev
  exact only_mono (only_seq (only_seq hrev (only_withFen _ _)) (only_haltShown _)) (by simp) (by simp [jobHaltFlds])

theorem arbEligible_withFen (x : FenState) (s : State) (k : Nat) : (s.withFen x).arbEligible k = s.arbEligible k := rfl
theorem arbClass_withFen (x : FenState) (s : State) (k : Nat) : (s.withFen x).arbClass k = s.arbClass k := rfl

theorem jobHalted_eq (y : Nat) (q2 : FenStream) (h2 : FenJob) (rest2 : List FenJob) (s : State) :
    s.jobHalted y q2 h2 rest2 = ((s.revoked 0).withFen (s.fen.halted y q2 h2 rest2)).haltShown := rfl

theorem jobHalted_shows (hthaw : s.getB (ARB_CFG.FREEZE 0) = false) (hgrant : s.arbGranted 0 = true) (howner : s.arbOwner 0 = j) (hj : j < 20)
    (hbest : s.arbBest 0 = some i) (hbelow : s.arbClass j < s.arbClass i) :
    ∀ u, u = s.jobHalted y q2 h2 rest2 → u.arbGranted 0 = false ∧ u.arbBest 0 = some i ∧ u.get (ARB_CNT.REVOKE 0) = min 65535 (s.get (ARB_CNT.REVOKE 0) + 1) ∧
      u.get FEN_CNT.REVOKE = min 65535 (s.get FEN_CNT.REVOKE + 1) ∧ u.getB (ARB_REQ.PEND j) = true ∧ u.arb.since = s.arb.since ∧
      s.raised 194 u ∧ u.fen = s.fen.halted y q2 h2 rest2 := by
  rintro u hu
  rw [jobHalted_eq] at hu
  obtain ⟨hfree, hpend, hcount⟩ := revoked_reads hthaw
  obtain ⟨hsince, hclass, hel⟩ := revoked_weighs hthaw hgrant (by decide)
  have hrev := only_revoked hthaw
  rw [howner] at hpend hel hrev
  have hheld : s.arbHolds j = true := by simp [State.arbHolds, arbOf, hj, hgrant, howner]
  have hwin : ∀ f ∈ revokeFlds 0 j, windowOf f.addr ≠ 0xC1 ∧ windowOf f.addr ≠ 0xCA := by
    have hne : j ≠ 23 := by omega
    simp only [revokeFlds, grantFlds, if_neg hne, List.append_nil, List.mem_append, List.mem_cons, List.not_mem_nil, or_false]
    rintro f ((rfl | rfl | rfl | rfl) | rfl | rfl)
    case inr.inl => rw [show (ARB_REQ.PEND j).addr = ARB_REQ j from rfl, window_arbReq]; decide
    all_goals decide
  have hmid := only_seq hrev (only_withFen (s.fen.halted y q2 h2 rest2) (s.revoked 0))
  generalize hv : (s.revoked 0).withFen (s.fen.halted y q2 h2 rest2) = v at hmid hu
  have hlast := only_haltShown v
  obtain ⟨harb', hclass', hel', hgr'⟩ := weighs_of_window hlast (by simp) window_haltFlds
  obtain ⟨hcnt, hraised⟩ := haltShown_shows v
  have haway {g : Fld} (hg : windowOf g.addr = 0xCB) : v.haltShown.get g = v.get g :=
    hlast.2.1 g (apart_of_window fun f hf => by rw [hg]; exact (window_haltFlds f hf).1)
  have hvget (g : Fld) : v.get g = (s.revoked 0).get g := by rw [← hv, get_withFen]
  have hvel (k : Nat) : v.arbEligible k = (s.revoked 0).arbEligible k := by rw [← hv, arbEligible_withFen]
  have hvclass (k : Nat) : v.arbClass k = (s.revoked 0).arbClass k := by rw [← hv, arbClass_withFen]
  have hvarb : v.arb = (s.revoked 0).arb := by rw [← hv, arb_withFen]
  rw [hu]
  refine ⟨(hgr' 0).trans ((getB_of_get (hvget _)).trans hfree), ?_, (haway (by decide)).trans ((hvget _).trans hcount), ?_, ?_, ?_, ?_, ?_⟩
  · exact arbBest_freed (by rw [harb', hvarb, hsince]) (fun k => (hclass' k).trans ((hvclass k).trans (hclass k)))
      (fun k hk => (hel' k).trans ((hvel k).trans (hel k hk))) hheld hbest hbelow
  · rw [hcnt, hmid.2.1 FEN_CNT.REVOKE (apart_of_window fun f hf => (hwin f (by simpa using hf)).2)]
  · exact (getB_of_get ((haway (by rw [show (ARB_REQ.PEND j).addr = ARB_REQ j from rfl, window_arbReq])).trans (hvget _))).trans hpend
  · rw [harb', hvarb, hsince]
  · exact raised_of_only hmid (by simp) (fun f hf => (hwin f (by simpa using hf)).1) hraised
  · have hfen : v.haltShown.fen = v.fen := hlast.1 .fen (by simp)
    rw [hfen, ← hv, fen_withFen]

theorem window_jobHaltFlds (hj : j < 20) : ∀ f ∈ jobHaltFlds j, windowOf f.addr = 0xCB ∨ windowOf f.addr = 0xC1 ∨ windowOf f.addr = 0xCA := by
  have hne : j ≠ 23 := by omega
  simp only [jobHaltFlds, revokeFlds, grantFlds, if_neg hne, List.append_nil, List.mem_append, List.mem_cons, List.not_mem_nil, or_false]
  rintro f (((rfl | rfl | rfl | rfl) | rfl | rfl) | (rfl | hf) | hf)
  case inl.inr.inl => exact .inl (window_arbReq j)
  case inr.inl.inr => exact .inr (.inl (window_raiseFlds f hf))
  case inr.inr => exact .inr (.inr (window_fenShowFlds f hf))
  all_goals decide

/-- The better request's job is the only one of its requester. -/
theorem find?_halted (hs : tsorted s.fen.streams = true) (hx : tget s.fen.streams x = some q) (hreq : q.req = i)
    (hreq2 : q2.req = j) (hij : i ≠ j) (hxy : x ≠ y) (honly : ∀ e ∈ s.fen.streams, e.2.req = i → e.1 = x) :
    ((s.fen.halted y q2 h2 rest2).streams.find? fun e => e.2.req = i) = some (x, q) := by
  have hsort := tsorted_tput hs y { q2 with jobs := h2.halted :: rest2 }
  refine find?_of_only hsort ((tget_tput ..).trans ((if_neg hxy).trans hx)) (by simpa using hreq) fun e he hreqe => ?_
  obtain ⟨k, v⟩ := e
  have hk := tget_of_mem hsort he
  rw [tget_tput] at hk
  split at hk
  · cases hk
    exact absurd ((of_decide_eq_true hreqe).symm.trans hreq2) hij
  · exact honly _ (mem_of_tget hk) (of_decide_eq_true hreqe)

/-- The job that FEN starts under the better request. -/
theorem jobStarted_shows (v : State) (x : Nat) (q : FenStream) (j : FenJob) (rest : List FenJob) (p : Pkg) :
    (v.jobStarted x q j rest p).fen = v.fen.running x q (q.fed j p v) rest (q.runFrom x p v) ∧ (v.jobStarted x q j rest p).free = v.free + 1 ∧
      v.only [.fen, .free] fenShowFlds (v.jobStarted x q j rest p) := by
  have hshow := only_fenShow (v.drawn.withFen (v.fen.running x q (q.fed j p v) rest (q.runFrom x p v)))
  have hfree : (v.jobStarted x q j rest p).free = v.free + 1 := hshow.1 .free (by simp)
  exact ⟨fen_fenShow _, hfree, only_mono (only_seq (only_seq (only_drawn v) (only_withFen _ _)) hshow) (by simp) (by simp)⟩

theorem only_jobMoves_flds (hj : j < 20) :
    ∀ f ∈ ([ARB_STAT.CLASS 0] ++ jobHaltFlds j) ++ ([ARB_STAT.GRANTED 0, ARB_STAT.OWNER 0, ARB_STAT.CLASS 0, ARB_REQ.PEND i] ++ fenShowFlds),
      f ∈ [ARB_STAT.GRANTED 0, ARB_STAT.OWNER 0, ARB_STAT.CLASS 0, ARB_CNT.REVOKE 0, ARB_REQ.PEND i, ARB_REQ.PEND j, ARB_STAT.DRAINED 0, FEN_CNT.REVOKE] ++
        fenShowFlds ++ raiseFlds 194 := by
  have hne : j ≠ 23 := by omega
  simp only [jobHaltFlds, revokeFlds, grantFlds, if_neg hne, List.append_nil, List.mem_append, List.mem_cons, List.not_mem_nil, or_false]
  tauto

/-- ARB0 takes its grant from a running job for a job of a higher class. -/
theorem jobGrantMoves (hthaw : s.getB (ARB_CFG.FREEZE 0) = false) (hnew : s.arb.newClass = []) (hgrant : s.arbGranted 0 = true) (howner : s.arbOwner 0 = j)
    (hbest : s.arbBest 0 = some i) (hbelow : s.arbClass j < s.arbClass i) (hi : i < 20) (hj : j < 20) (hij : i ≠ j) (hrun : s.fen.run = some r)
    (hcommit : s.fenCommit = false) (hy : r.stream = y) (hxy : x ≠ y) (hq2 : tget s.fen.streams y = some q2) (hreq2 : q2.req = j)
    (hjobs2 : q2.jobs = h2 :: rest2) (hs : tsorted s.fen.streams = true) (honly : ∀ e ∈ s.fen.streams, e.2.req = i → e.1 = x)
    (hq : tget s.fen.streams x = some q) (hreq : q.req = i) (hp : s.pkg q.slot = some p) (hjobs : q.jobs = h :: rest) :
    ∃ t, exec (.arbDecide 0 s.fenCommit) s = .next t ∧
    t.arbOwner 0 = i ∧ t.arbGranted 0 = true ∧ t.get (ARB_CNT.REVOKE 0) = min 65535 (s.get (ARB_CNT.REVOKE 0) + 1) ∧
    t.get FEN_CNT.REVOKE = min 65535 (s.get FEN_CNT.REVOKE + 1) ∧ s.raised 194 t ∧ t.arb.since = s.arb.since ∧
    t.getB (ARB_REQ.PEND j) = true ∧ t.getB (ARB_REQ.PEND i) = false ∧
    tget t.fen.streams y = some { q2 with jobs := { h2 with revokes := satTo 0xFFFF (h2.revokes + 1) } :: rest2 } ∧
    t.fen.run = some { stream := x, at0 := s.now, start := (if s.fen.lastPkg = some q.slot then 600 else 2400), stall := Config.freeValue s.free, section0 := memBytes s.dram p.dramAddr p.dramLen } ∧
    t.free = s.free + 1 ∧
    s.only [.arb, .fen, .free, .rcd, .cyc] ([ARB_STAT.GRANTED 0, ARB_STAT.OWNER 0, ARB_STAT.CLASS 0, ARB_CNT.REVOKE 0, ARB_REQ.PEND i, ARB_REQ.PEND j,
      ARB_STAT.DRAINED 0, FEN_CNT.REVOKE] ++ fenShowFlds ++ raiseFlds 194) t := by
  -- the decision up to the revocation
  have hshown := only_ownerClassShown 0 s
  obtain ⟨hstat, hweigh⟩ := ownerClassShown_weighs 0 s
  have hwfen : (s.ownerClassShown 0).fen = s.fen := hshown.1 .fen (by simp)
  have hdecide : s.arbDecide 0 = (((s.ownerClassShown 0).revokeGrant 0).decideAgain 0) :=
    arbDecide_outranked hthaw hnew hgrant hbest (by rw [howner]; exact hbelow) (fun _ => hcommit)
  have hthaw' : (s.ownerClassShown 0).getB (ARB_CFG.FREEZE 0) = false := (hshown.getB rfl).trans hthaw
  have hhalt := revokeGrant_job (s := s.ownerClassShown 0) (y := y) (by rw [hwfen]; exact hrun) hy (by rw [hwfen]; exact hq2) hjobs2
  obtain ⟨hfree, hbest', hcount, hfcount, hpend, hsince, hraised, hfen⟩ := jobHalted_shows hthaw' ((hstat 0).1.trans hgrant) ((hstat 0).2.trans howner) hj
    ((arbBest_ownerClassShown 0 0 s).trans hbest) (by rw [(hweigh _).1, (hweigh _).1]; exact hbelow) _ hhalt
  have honlyu := only_seq hshown (only_jobHalted (q2 := q2) (h2 := h2) (rest2 := rest2) (y := y) hthaw' ((hstat 0).2.trans howner))
  rw [← hhalt] at honlyu
  rw [hwfen] at hfen
  have hsince' : (s.ownerClassShown 0).arb.since = s.arb.since := congrArg ArbState.since (hshown.1 .arb (by simp))
  generalize (s.ownerClassShown 0).revokeGrant 0 = u at hdecide hfree hbest' hcount hfcount hpend hsince hraised hfen honlyu
  -- the grant and the job that starts
  obtain ⟨hg, ho, -, hpi, -, harb, hgonly⟩ := arbGrant_shows (i := i) (by omega) u
  have hzero : arbOf i = 0 := if_pos hi
  rw [hzero] at hg ho hgonly
  rw [if_neg (by omega : i ≠ 23), List.append_nil] at hgonly
  have hgfen : (u.arbGrant i).fen = s.fen.halted y q2 h2 rest2 := (hgonly.1 .fen (by simp)).trans hfen
  have hpkg : (u.arbGrant i).pkg q.slot = some p := by
    rw [show (u.arbGrant i).pkg q.slot = s.pkg q.slot by simp only [State.pkg, hgfen, FenState.halted]]
    exact hp
  have hstart : (u.arbGrant i).fenGranted i = (u.arbGrant i).jobStarted x q h rest p :=
    fenGranted_eq (by rw [hgfen]; exact find?_halted hs hq hreq hreq2 hij hxy honly) hpkg hjobs
  rw [decideAgain_free hfree hbest', giveGrant_job hi, hstart] at hdecide
  have hsu := only_seq honlyu hgonly
  generalize u.arbGrant i = v at hg ho hpi harb hgonly hgfen hdecide hsu
  obtain ⟨htfen, htfree, htonly⟩ := jobStarted_shows v x q h rest p
  have hall := only_mono (only_seq honlyu (only_seq hgonly htonly)) (qs := [.arb, .fen, .free, .rcd, .cyc]) (by simp) (only_jobMoves_flds hj)
  have hnow : v.now = s.now := now_of_only hsu (by simp)
  have hdram : v.dram = s.dram := hsu.1 .dram (by simp)
  have hvfree : v.free = s.free := hsu.1 .free (by simp)
  generalize v.jobStarted x q h rest p = t at hdecide htfen htfree htonly hall
  have hv {f : Fld} (hf : windowOf f.addr = 0xCB) : t.get f = v.get f :=
    htonly.2.1 f (apart_of_window fun g hg => by rw [window_fenShowFlds g hg, hf]; decide)
  have hu {f : Fld} (hf : ∀ g ∈ [ARB_STAT.GRANTED 0, ARB_STAT.OWNER 0, ARB_STAT.CLASS 0, ARB_REQ.PEND i], f.apart g) : v.get f = u.get f := hgonly.2.1 f hf
  refine ⟨t, (execArbDecide_eq 0 s).trans (congrArg _ hdecide), (hv (by decide)).trans ho, (getB_of_get (hv (by decide))).trans hg, ?_, ?_, ?_, ?_, ?_, ?_,
    ?_, ?_, htfree.trans (by rw [hvfree]), hall⟩
  · refine (hv (by decide)).trans ((hu fun g hg => .inl ?_).trans (hcount.trans ?_))
    · simp only [List.mem_cons, List.not_mem_nil, or_false] at hg
      rcases hg with rfl | rfl | rfl | rfl
      case inr.inr.inr => exact (arbReq_ne_arbCnt i 0).symm
      all_goals decide
    · rw [hshown.get rfl]
  · refine (htonly.get fenCnt_apart_fenShowFlds).trans ((hu ?_).trans (hfcount.trans ?_))
    · refine apart_of_window fun g hg => ?_
      simp only [List.mem_cons, List.not_mem_nil, or_false] at hg
      rcases hg with rfl | rfl | rfl | rfl
      case inr.inr.inr => rw [show (ARB_REQ.PEND i).addr = ARB_REQ i from rfl, window_arbReq]; decide
      all_goals decide
    · rw [hshown.get rfl]
  · refine raised_then (raised_of_only hshown (by simp) (windows_all rfl) hraised) (only_seq hgonly htonly) fun g hg => ?_
    simp only [List.mem_append, List.mem_cons, List.not_mem_nil, or_false] at hg
    rcases hg with (rfl | rfl | rfl | rfl) | hg
    case inl.inr.inr.inr => rw [show (ARB_REQ.PEND i).addr = ARB_REQ i from rfl, window_arbReq]; decide
    case inr => rw [window_fenShowFlds g hg]; decide
    all_goals decide
  · have htarb : t.arb = v.arb := htonly.1 .arb (by simp)
    rw [htarb, harb]
    exact hsince.trans hsince'
  · refine (getB_of_get ((hv (window_arbReq j)).trans (hu fun g hg => .inl ?_))).trans hpend
    simp only [List.mem_cons, List.not_mem_nil, or_false] at hg
    rcases hg with rfl | rfl | rfl | rfl
    case inr.inr.inr => exact fun he => hij (arbReq_inj (by omega) (by omega) he.symm)
    all_goals exact (arbStat_ne_arbReq 0 j).symm
  · exact (getB_of_get (hv (window_arbReq i))).trans hpi
  · rw [htfen, hgfen]
    exact (tget_tput ..).trans ((if_neg (Ne.symm hxy)).trans (tget_tput_self ..))
  · rw [htfen, hgfen, FenState.running, FenStream.runFrom, hnow, hgfen, hvfree, hdram]
    rfl

end JobMoves

end Sys2Proof.Machine
end

section
/-! PROOFS. How a command that its ring runs at once ends behind the work it does (R116, R123, Table 5-5): a layer for the statements on
commands. -/

namespace Sys2Proof.Machine

section RingEnds
variable {b r opcode code h : Nat} {e : Entry} {s u v : State} {ps : List Comp} {fs : List Fld}

/-- The command that an idle ring gives its block. -/
theorem enlist_cmd : ((s.restSpacing b r opcode).enlist b r opcode e).1 = s.cmdOf b r e := by
  simp only [State.enlist, State.cmdOf, ring_restSpacing]

/-- A row's operation, run at once on the state with its entry taken. -/
theorem runRow_runs {mask : Nat} (hready : s.ready b r mask e) (hh : s.blockHolds b r opcode = false) (op : Cmd → State → State) :
    s.runRow b r opcode mask e op = op (s.cmdOf b r e) (s.entryTaken b r opcode e) := by
  rw [runRow_ready hready opcode hh, enlist_cmd]
  rfl

theorem idle_of_ready {mask : Nat} (hready : s.ready b r mask e) : (s.ring b r).taken = [] := hready.1.2.2.2.1

theorem ring_lt_of_ready {mask : Nat} (hready : s.ready b r mask e) : r < ringCount b := hready.1.2.1

/-- Fields outside a ring's group of registers. -/
def offRing (b r : Nat) (fs : List Fld) : Prop := ∀ f ∈ fs, f.addr < ringG b r ∨ ringG b r + 0x20 ≤ f.addr

theorem reg_of_offRing (hv : s.only ps fs u) (hoff : offRing b r fs) {a : Nat} (hl : ringG b r ≤ a) (hu : a < ringG b r + 0x20) : u.reg a = s.reg a :=
  (keeps_of_only hv).2.1 a fun hm => by
    obtain ⟨f, hf, rfl⟩ := List.mem_map.1 hm
    rcases hoff f hf with h | h <;> omega

theorem ringRegs_of_offRing (hv : s.only ps fs u) (hoff : offRing b r fs) :
    ∀ a, a = (CRING_PI b r).addr ∨ a = CRING_BASE_LO b r ∨ a = CRING_BASE_HI b r → u.reg a = s.reg a := by
  rintro a (rfl | rfl | rfl) <;>
    exact reg_of_offRing hv hoff (by simp only [CRING_PI, CRING_BASE_LO, CRING_BASE_HI]; omega) (by simp only [CRING_PI, CRING_BASE_LO, CRING_BASE_HI]; omega)

/-- Work that leaves the rings, LTC and the ring's registers leaves the place of the next completion. -/
theorem complAddr_of_only (hv : s.only ps fs u) (hl : .ltc ∉ ps) (hrings : .rings ∉ ps) (hoff : offRing b r fs) : u.complAddr b r = s.complAddr b r := by
  have hring : u.ring b r = s.ring b r := ring_of_rings (hv.1 .rings hrings) b r
  have hregs := ringRegs_of_offRing (b := b) (r := r) hv hoff
  exact complAddr_congr (hv.1 .ltc hl) (by rw [hring]) (by rw [hring]) (get_congr _ (hregs _ (.inl rfl)))
    (get64_congr _ _ (hregs _ (.inr (.inl rfl))) (hregs _ (.inr (.inr rfl))))

/-- What a command shows that its ring runs and ends at once, behind work outside the ring. -/
theorem completed_behind (hr : r < ringCount b) (hidle : (s.ring b r).taken = []) (hc : b * 256 + code < 2 ^ 16)
    (hv : (s.entryTaken b r opcode e).only ps fs u) (hl : .ltc ∉ ps) (hrings : .rings ∉ ps) (hoff : offRing b r fs) :
    s.completed b r e code h (u.completeId b r (s.cmdOf b r e).id (b * 256 + code) h) := by
  have hidle' : ((s.restSpacing b r opcode).ring b r).taken = [] := by rw [ring_restSpacing]; exact hidle
  have hdone := completed_completeId (s := s.restSpacing b r opcode) (u := u) (opcode := opcode) (e := e) code h hr (hv.1 .ltc hl) hc hidle'
    (hv.1 .rings hrings) fun a ha => (ringRegs_of_offRing hv hoff a ha).trans rfl
  rw [enlist_cmd] at hdone
  exact complTag_restSpacing hdone

theorem dramKept_behind (hidle : (s.ring b r).taken = []) (hv : (s.entryTaken b r opcode e).only ps fs u) (hl : .ltc ∉ ps) (hrings : .rings ∉ ps)
    (hoff : offRing b r fs) (reason : Nat) : u.dramKept (s.complAddr b r) 16 (u.completeId b r (s.cmdOf b r e).id reason h) := by
  have hidle' : ((s.restSpacing b r opcode).ring b r).taken = [] := by rw [ring_restSpacing]; exact hidle
  have hkept := dramKept_completeId (s := s.restSpacing b r opcode) (u := u) (opcode := opcode) (e := e) reason h hidle' (hv.1 .rings hrings)
  rw [enlist_cmd, complAddr_of_only hv hl hrings hoff, complAddr_entryTaken] at hkept
  exact hkept

/-- A command's end: its completion, the memory beside it, and what may differ. -/
theorem ends_behind (hr : r < ringCount b) (hidle : (s.ring b r).taken = []) (hc : b * 256 + code < 2 ^ 16)
    (hv : (s.entryTaken b r opcode e).only ps fs u) (hl : .ltc ∉ ps) (hrings : .rings ∉ ps) (hdram : .dram ∉ ps) (hoff : offRing b r fs) :
    s.completed b r e code h (u.completeId b r (s.cmdOf b r e).id (b * 256 + code) h) ∧
      s.dramKept (s.complAddr b r) 16 (u.completeId b r (s.cmdOf b r e).id (b * 256 + code) h) ∧
      s.only ([.dram, .rings, .rcd, .cyc] ++ ps) (complFlds b r ++ fs) (u.completeId b r (s.cmdOf b r e).id (b * 256 + code) h) := by
  have hd : u.dram = s.dram := hv.1 .dram hdram
  refine ⟨completed_behind hr hidle hc hv hl hrings hoff, fun x hx => ?_, ?_⟩
  · rw [dramKept_behind hidle hv hl hrings hoff _ x hx, hd]
  · exact only_mono (only_seq (only_seq only_entryTaken hv) (only_completeId (s := u) _ _ _ hr)) (by simp +contextual [or_imp]) (by simp +contextual [or_imp])

/-- A part beside the completion's own that its end leaves alone. -/
theorem same_completeId (id reason : Nat) (hr : r < ringCount b) {c : Comp} (hcomp : c ∉ [Comp.dram, .rings, .rcd, .cyc]) :
    u.same (u.completeId b r id reason h) c := (only_completeId (s := u) id reason h hr).1 c hcomp

/-- A field beside the completion's own. -/
theorem get_completeId (id reason : Nat) (hr : r < ringCount b) {g : Fld} (hg : ∀ f ∈ complFlds b r, g.apart f) :
    (u.completeId b r id reason h).get g = u.get g := get_completeId_apart u b r id reason h hr g hg

/-- A field of a block's window outside its ring groups and the event controller. -/
theorem apart_complFlds_of_addr {g : Fld} (hring : g.addr ≠ (CRING_PI b r).addr) (hjob : g.addr ≠ FEN_JOB_PEND) (hevt : windowOf g.addr ≠ 0xC1) :
    ∀ f ∈ complFlds b r, g.apart f := by
  intro f hf
  rcases List.mem_cons.1 hf with rfl | hf
  · exact .inl hring
  · rcases List.mem_cons.1 hf with rfl | hf
    · exact .inl hjob
    · exact apart_raiseFlds hevt _ f hf

end RingEnds

end Sys2Proof.Machine
end

section
/-! PROOFS. The arbiters: decisions that change nothing, the writes of ARB_CFG and ARB_HREQ, and STARVE (R361 to R363). -/

namespace Sys2Proof.Machine

/-! ### Decisions that change nothing (R358, R362) -/

section Nothing
variable {a : Nat} {s : State}

/-- A job in its commit phase is not revoked. -/
theorem commitHolds (hnew : s.arb.newClass = []) (hgrant : s.arbGranted 0 = true)
    (hclass : s.get (ARB_STAT.CLASS 0) = s.arbClass (s.arbOwner 0)) (hcommit : s.fenCommit = true) :
    ∃ t, exec (.arbDecide 0 true) s = .next t ∧ s.only [] [] t := by
  have hexec : exec (.arbDecide 0 true) s = .next (s.arbDecide 0) := by
    have := execArbDecide_eq 0 s
    rw [hcommit] at this
    exact this
  have happly : s.arbApply 0 = s.set (ARB_STAT.CLASS 0) (s.get (ARB_STAT.CLASS 0)) := by
    rw [arbApply_none hnew, State.ownerClassShown, if_pos hgrant, hclass]
  have hsame := only_set_get s (ARB_STAT.CLASS 0)
  rw [← happly] at hsame
  have hgranted : (s.arbApply 0).arbGranted 0 = true := (getB_of_get (get_of_only_nil hsame _)).trans hgrant
  have hno : (s.arbApply 0).fenCommit = true := (fenCommit_of_fen (hsame.1 .fen (by simp)) (hsame.1 .ltc (by simp))).trans hcommit
  refine ⟨_, hexec, ?_⟩
  unfold State.arbDecide
  split
  · exact only_refl ..
  · simp only [hno, hgranted, decide_true, Bool.and_self, Bool.not_true, Bool.and_false, Bool.false_eq_true, if_false, if_true]
    exact hsame

theorem frozenHolds {a : Fin 2} (h : s.getB (ARB_CFG.FREEZE a.val) = true) : ∃ t, exec (.arbDecide a s.fenCommit) s = .next t ∧ s.only [] [] t := by
  refine ⟨_, execArbDecide_eq a s, ?_⟩
  rw [State.arbDecide, if_pos h]
  exact only_refl ..

theorem commitMismatch {cm : Bool} (h : cm ≠ s.fenCommit) : ∃ t, exec (.arbDecide 0 cm) s = .next t ∧ t = s :=
  ⟨s, congrArg Host.Outcome.next (if_pos (by simpa using h)), rfl⟩

end Nothing

/-! ### Writes of ARB_CFG and ARB_HREQ (R361, R362) -/

section Writes
variable {s : State}

/-- No region reconfigures ARB's window. -/
theorem closed_arb {a : Nat} (hl : 0xCB000000 ≤ a) (hu : a < 0xCC000000) (s : State) : s.closed a = false := by
  have hw : a / 0x1000000 = 0xCB := by omega
  have hregion : regionOf (blkOf a) = none := by
    simp only [blkOf, hw]
    decide
  simp [State.closed, State.reconfiguring, hregion, hw]

/-- The record of an access that meets no error. -/
def State.accessed (s : State) : State := { s with access := .none }

theorem only_accessed (s : State) : s.only [.access] [] s.accessed := only_access s .none

theorem hostWrite_special {core a : Nat} {v : Word} {t : State} (hgood : goodAddr a = true) (hopen : s.closed a = false)
    (hspecial : s.accessed.specialWrite a v = some t) : s.hostWrite core a v = t := by
  rw [hostWrite_open hgood hopen]
  simp only [State.regWrite, show State.specialWrite a v { s with access := .none } = some t from hspecial]

theorem specialWrite_arbCfg (a : Fin 2) (v : Word) (s : State) : s.specialWrite (ARB_CFG a.val) v = some (s.writeArbCfg a.val v) :=
  match a with
  | 0 => rfl
  | 1 => rfl

theorem specialWrite_arbHreq (v : Word) (s : State) : s.specialWrite ARB_HREQ v = some (s.writeHreq v) := rfl

theorem execArbFreeze_eq (core : Fin 8) (a : Fin 2) (v : Word) (s : State) : exec (.arbFreeze core a v) s = .next (s.accessed.writeArbCfg a.val v) := by
  have ha : 0xCB000000 ≤ ARB_CFG a.val ∧ ARB_CFG a.val < 0xCC000000 := by simp only [ARB_CFG]; omega
  have hgood : goodAddr (ARB_CFG a.val) = true :=
    match a with
    | 0 => rfl
    | 1 => rfl
  exact congrArg Host.Outcome.next (hostWrite_special hgood (closed_arb ha.1 ha.2 s) (specialWrite_arbCfg a v _))

theorem execHostArbRequest_eq (core : Fin 8) (v : Word) (s : State) : exec (.hostArbRequest core v) s = .next (s.accessed.writeHreq v) :=
  congrArg Host.Outcome.next (hostWrite_special rfl (closed_arb (by decide) (by decide) s) (specialWrite_arbHreq v _))

theorem window_drained (a : Nat) : windowOf (ARB_STAT.DRAINED a).addr ≠ 0xC1 := by
  rw [show (ARB_STAT.DRAINED a).addr = ARB_STAT a from rfl, window_arbStat]; decide

theorem window_freeze (a : Nat) : windowOf (ARB_CFG.FREEZE a).addr ≠ 0xC1 := by
  simp only [ARB_CFG.FREEZE, windowOf, ARB_CFG]; omega

/-- DRAINED that goes to 1 raises its event. -/
theorem raised_arbDrained {a : Nat} (hd : s.drained a = true) (h0 : s.getB (ARB_STAT.DRAINED a) = false) : s.raised (210 + a) (s.arbDrained a) := by
  rw [arbDrained_eq, hd, h0]
  exact raised_of_only (only_setDrained a true s) (by simp) (by simpa using window_drained a) (raised_raise _ _)

theorem freezeActs (core : Fin 8) (a : Fin 2) (value : Word) (s : State) : ∃ t, exec (.arbFreeze core a value) s = .next t ∧
    t.getB (ARB_CFG.FREEZE a.val) = bitAt value.toNat 0 ∧ t.getB (ARB_STAT.DRAINED a.val) = (bitAt value.toNat 0 && !s.arbGranted a.val) ∧
    (bitAt value.toNat 0 = true → s.arbGranted a.val = false → s.getB (ARB_STAT.DRAINED a.val) = false → s.raised (210 + a.val) t) ∧
    s.only [.access, .rcd, .cyc] ([ARB_CFG.FREEZE a.val, ARB_STAT.DRAINED a.val] ++ raiseFlds (210 + a.val)) t := by
  have hset : s.only [.access] [ARB_CFG.FREEZE a.val] (s.accessed.setB (ARB_CFG.FREEZE a.val) (bitAt value.toNat 0)) :=
    only_then_setB (only_mono (only_accessed s) (by simp) (by simp)) _ (by simp) (Nat.le_of_ble_eq_true rfl)
  have hfreeze : (s.accessed.setB (ARB_CFG.FREEZE a.val) (bitAt value.toNat 0)).getB (ARB_CFG.FREEZE a.val) = bitAt value.toNat 0 :=
    getB_setB_self _ _ _ (Nat.le_of_ble_eq_true rfl) rfl
  have haway {f : Fld} (hf : f.addr = ARB_STAT a.val) : ∀ g ∈ [ARB_CFG.FREEZE a.val], f.apart g := by
    simp only [List.mem_singleton, forall_eq]
    exact .inl (by rw [hf]; exact arbStat_ne_arbCfg _ _)
  have hgranted := getB_of_only hset (haway (f := ARB_STAT.GRANTED a.val) rfl)
  have hwas := getB_of_only hset (haway (f := ARB_STAT.DRAINED a.val) rfl)
  refine ⟨_, execArbFreeze_eq core a value s, ?_⟩
  rw [State.writeArbCfg]
  generalize s.accessed.setB (ARB_CFG.FREEZE a.val) (bitAt value.toNat 0) = u at hset hfreeze hgranted hwas
  have hdrained : u.drained a.val = (bitAt value.toNat 0 && !s.arbGranted a.val) := by simp only [State.drained, hfreeze, State.arbGranted, hgranted]
  have hlast := only_arbDrained a.val u
  refine ⟨(getB_of_only hlast fun f hf => ?_).trans hfreeze, (getB_drained_arbDrained _ u).trans hdrained, fun hv hg h0 => ?_,
    only_mono (only_seq hset hlast) (by simp) (by simp)⟩
  · rcases List.mem_cons.1 hf with rfl | hf
    · exact .inl (arbStat_ne_arbCfg _ _).symm
    · exact apart_raiseFlds (window_freeze _) _ f hf
  · refine raised_of_only hset (by simp) (by simpa using window_freeze _) (raised_arbDrained ?_ (hwas.trans h0))
    rw [hdrained, hv, hg]
    rfl

/-- The write of ARB_HREQ, up to what REQ asks for. -/
def State.hreqWritten (v : Word) (s : State) : State :=
  (if bitAt v.toNat 29 then s.setB ARB_HREQ.REVOKED false else s).setB ARB_HREQ.REQ (bitAt v.toNat 31)

theorem writeHreq_eq (v : Word) (s : State) :
    s.writeHreq v = if bitAt v.toNat 31 then (s.hreqWritten v).arbRequest 23 else (s.hreqWritten v).arbRelease 23 := rfl

theorem only_hreqWritten (v : Word) (s : State) : s.only [] [ARB_HREQ.REQ, ARB_HREQ.REVOKED] (s.hreqWritten v) := by
  unfold State.hreqWritten
  refine only_then_setB ?_ _ (by simp) (Nat.le_of_ble_eq_true rfl)
  split
  · exact only_then_setB (only_refl ..) _ (by simp) (Nat.le_of_ble_eq_true rfl)
  · exact only_refl ..

theorem hreqWritten_reads (v : Word) (s : State) : (s.hreqWritten v).getB ARB_HREQ.REQ = bitAt v.toNat 31 ∧
    (s.hreqWritten v).getB ARB_HREQ.REVOKED = (s.getB ARB_HREQ.REVOKED && !bitAt v.toNat 29) := by
  unfold State.hreqWritten
  refine ⟨getB_setB_self _ _ _ (Nat.le_of_ble_eq_true rfl) rfl, ?_⟩
  rw [getB_of_get (get_setB_apart _ _ _ _ (apart_below (Nat.le_of_ble_eq_true rfl)) (Nat.le_of_ble_eq_true rfl))]
  cases bitAt v.toNat 29
  · simp
  · simp only [if_true, Bool.not_true, Bool.and_false]
    exact getB_setB_self _ _ _ (Nat.le_of_ble_eq_true rfl) rfl

/-- A request is noted with its first-raise LTC. -/
def State.requested (i : Nat) (s : State) : State :=
  (s.withArb { s.arb with since := tput s.arb.since i s.now }).setB (ARB_REQ.PEND i) true

theorem arbRequest_new {i : Nat} (h : tget s.arb.since i = none) : s.arbRequest i = s.requested i := by
  unfold State.arbRequest
  rw [h]
  rfl

theorem only_requested (i : Nat) (s : State) : s.only [.arb] [ARB_REQ.PEND i] (s.requested i) :=
  only_then_setB (only_then_withArb (only_refl ..) _ (by simp)) _ (by simp) (Nat.le_of_ble_eq_true rfl)

theorem requested_reads (i : Nat) (s : State) :
    (s.requested i).arb = { s.arb with since := tput s.arb.since i s.now } ∧ (s.requested i).getB (ARB_REQ.PEND i) = true :=
  ⟨by rw [State.requested, setB_arb, arb_withArb], getB_setB_self _ _ _ (Nat.le_of_ble_eq_true rfl) rfl⟩

theorem hostRequests (core : Fin 8) {value : Word} (hreq : bitAt value.toNat 31 = true) (hnone : tget s.arb.since 23 = none) :
    ∃ t, exec (.hostArbRequest core value) s = .next t ∧ t.getB ARB_HREQ.REQ = true ∧ t.getB (ARB_REQ.PEND 23) = true ∧
    t.getB ARB_HREQ.REVOKED = (s.getB ARB_HREQ.REVOKED && !bitAt value.toNat 29) ∧ t.arb = { s.arb with since := tput s.arb.since 23 s.now } ∧
    s.only [.access, .arb] [ARB_HREQ.REQ, ARB_HREQ.REVOKED, ARB_REQ.PEND 23] t := by
  have hwritten := only_seq (only_accessed s) (only_hreqWritten value s.accessed)
  obtain ⟨hr, hrev⟩ := hreqWritten_reads value s.accessed
  have harb : (s.accessed.hreqWritten value).arb = s.arb := hwritten.1 .arb (by simp)
  have hnow : (s.accessed.hreqWritten value).now = s.now := now_of_only hwritten (by simp)
  refine ⟨_, execHostArbRequest_eq core value s, ?_⟩
  rw [writeHreq_eq, if_pos hreq, arbRequest_new (by rw [harb]; exact hnone)]
  generalize s.accessed.hreqWritten value = u at hwritten hr hrev harb hnow
  have honly := only_requested 23 u
  obtain ⟨htarb, hpend⟩ := requested_reads 23 u
  exact ⟨(honly.getB rfl).trans (hr.trans hreq), hpend, (honly.getB rfl).trans hrev, by rw [htarb, harb, hnow],
    only_mono (only_seq hwritten honly) (by simp) (by simp)⟩

/-- A request is withdrawn. -/
def State.unrequested (i : Nat) (s : State) : State :=
  (s.withArb { s.arb with since := tdel s.arb.since i }).setB (ARB_REQ.PEND i) false

theorem arbRelease_eq (i : Nat) (s : State) : s.arbRelease i = (if s.arbHolds i then s.arbFree (arbOf i) else s).unrequested i := rfl

theorem only_unrequested (i : Nat) (s : State) : s.only [.arb] [ARB_REQ.PEND i] (s.unrequested i) :=
  only_then_setB (only_then_withArb (only_refl ..) _ (by simp)) _ (by simp) (Nat.le_of_ble_eq_true rfl)

theorem unrequested_reads (i : Nat) (s : State) :
    (s.unrequested i).arb = { s.arb with since := tdel s.arb.since i } ∧ (s.unrequested i).getB (ARB_REQ.PEND i) = false :=
  ⟨by rw [State.unrequested, setB_arb, arb_withArb], getB_setB_self _ _ _ (Nat.le_of_ble_eq_true rfl) rfl⟩

theorem hostReleases (core : Fin 8) {value : Word} (hreq : bitAt value.toNat 31 = false) (hheld : s.arbHolds 23 = true)
    (hthaw : s.getB (ARB_CFG.FREEZE 1) = false) :
    ∃ t, exec (.hostArbRequest core value) s = .next t ∧ t.getB ARB_HREQ.REQ = false ∧ t.getB ARB_HREQ.GRANT = false ∧
    t.arbGranted 1 = false ∧ t.getB (ARB_REQ.PEND 23) = false ∧ t.arb = { s.arb with grantAt := tdel s.arb.grantAt 1, since := tdel s.arb.since 23 } ∧
    s.only [.access, .arb] [ARB_HREQ.REQ, ARB_HREQ.REVOKED, ARB_HREQ.GRANT, ARB_REQ.PEND 23, ARB_STAT.GRANTED 1, ARB_STAT.OWNER 1, ARB_STAT.CLASS 1,
      ARB_STAT.DRAINED 1] t := by
  have hwritten := only_seq (only_accessed s) (only_hreqWritten value s.accessed)
  obtain ⟨hr, -⟩ := hreqWritten_reads value s.accessed
  have harb : (s.accessed.hreqWritten value).arb = s.arb := hwritten.1 .arb (by simp)
  have hthaw' : (s.accessed.hreqWritten value).getB (ARB_CFG.FREEZE 1) = false := (hwritten.getB rfl).trans hthaw
  have hheld' : (s.accessed.hreqWritten value).arbHolds 23 = true :=
    (arbHolds_of_only hwritten fun f hf => by
      revert f
      simp only [List.nil_append, List.mem_cons, List.not_mem_nil, or_false, forall_eq_or_imp, forall_eq]
      exact ⟨⟨.inl (by decide), .inl (by decide)⟩, .inl (by decide), .inl (by decide)⟩).trans hheld
  refine ⟨_, execHostArbRequest_eq core value s, ?_⟩
  rw [writeHreq_eq, if_neg (by rw [hreq]; decide), arbRelease_eq, if_pos hheld']
  generalize s.accessed.hreqWritten value = u at hwritten hr harb hthaw' hheld'
  have howner : u.arbOwner 1 = 23 := by
    have := hheld'
    simp only [State.arbHolds, Bool.and_eq_true, decide_eq_true_eq] at this
    exact this.2
  have hfree := only_arbFree_thawed hthaw'
  rw [howner] at hfree
  have hgrant : (u.arbFree 1).getB ARB_HREQ.GRANT = false := by
    rw [arbFree_thawed hthaw']
    exact (getB_of_get (get_setB_apart _ _ _ _ (.inl (by decide)) (Nat.le_of_ble_eq_true rfl))).trans (hostGrant_grantEnded howner)
  have hnone := arbGranted_arbFree 1 u
  have hfarb := arb_arbFree 1 u
  rw [show arbOf 23 = 1 from rfl]
  generalize u.arbFree 1 = v at hfree hgrant hnone hfarb
  have honly := only_unrequested 23 v
  obtain ⟨htarb, hpend⟩ := unrequested_reads 23 v
  have hreq1 : (State.unrequested 23 v).getB ARB_HREQ.REQ = v.getB ARB_HREQ.REQ := honly.getB rfl
  have hreq2 : v.getB ARB_HREQ.REQ = u.getB ARB_HREQ.REQ := hfree.getB rfl
  have hgrant1 : (State.unrequested 23 v).getB ARB_HREQ.GRANT = v.getB ARB_HREQ.GRANT := honly.getB rfl
  have hnone1 : (State.unrequested 23 v).arbGranted 1 = v.arbGranted 1 := honly.getB (g := ARB_STAT.GRANTED 1) rfl
  exact ⟨by rw [hreq1, hreq2, hr, hreq], hgrant1.trans hgrant, hnone1.trans hnone, hpend,
    by rw [htarb, hfarb, harb], only_mono (only_seq (only_seq hwritten hfree) honly) (by simp) (by decide)⟩

end Writes

/-! ### STARVE (R363) -/

theorem requestStarves {i : Fin 24} {t0 : Nat} {s : State} (hsince : tget s.arb.since i.val = some t0) (hlive : s.getB (ARB_REQ.LIVE i.val) = true)
    (hlimit : tgetD s.arb.limit i.val 0 ≠ 0) (hlong : tgetD s.arb.limit i.val 0 * 1000 < s.since t0) (hno : s.getB (ARB_REQ.STARVE i.val) = false) :
    ∃ t, exec (.arbStarve i) s = .next t ∧ t.getB (ARB_REQ.STARVE i.val) = true ∧ s.raised (208 + arbOf i.val) t ∧
      s.only [.rcd, .cyc] (ARB_REQ.STARVE i.val :: raiseFlds (208 + arbOf i.val)) t := by
  have hexec : exec (.arbStarve i) s = .next ((s.setB (ARB_REQ.STARVE i.val) true).raise (208 + arbOf i.val)) := by
    rw [show exec (.arbStarve i) s = execArbStarve i s from rfl, execArbStarve]
    simp [hsince, hlive, hlimit, hlong, hno]
  have hwin : windowOf (ARB_REQ.STARVE i.val).addr ≠ 0xC1 := by
    rw [show (ARB_REQ.STARVE i.val).addr = ARB_REQ i.val from rfl, window_arbReq]; decide
  have hset : s.only [] [ARB_REQ.STARVE i.val] (s.setB (ARB_REQ.STARVE i.val) true) := only_set s _ (Nat.le_of_ble_eq_true rfl)
  obtain ⟨hraised, honly⟩ := raise_behind (208 + arbOf i.val) hset (by simp) (by simpa using hwin)
  exact ⟨_, hexec, (getB_raise_outside _ _ hwin).trans (getB_setB_self _ _ _ (Nat.le_of_ble_eq_true rfl) rfl), hraised, honly⟩

end Sys2Proof.Machine
end

section
/-! PROOFS. What commands on objects share (R113, R114): the checks of a handle, and the generation that a creation gives. -/

namespace Sys2Proof.Machine

section Objects
variable {c i h : Nat} {live live' : Nat → Bool} {s t u : State} {ps : List Comp} {fs : List Fld}

theorem gen_of_gens (h : t.gens = s.gens) (c i : Nat) : t.gen c i = s.gen c i := by simp only [State.gen, h]

theorem checkHandle_congr (hdebug : t.getB SYS_DEBUG.HCHK = s.getB SYS_DEBUG.HCHK) (hgens : t.gens = s.gens) (hlive : ∀ i, live' i = live i) :
    t.checkHandle c live' h = s.checkHandle c live h := by
  obtain rfl : live' = live := funext hlive
  simp only [State.checkHandle, hdebug, gen_of_gens hgens]

/-- A command finds a handle as it stood before its entry was taken. -/
theorem checkHandle_entryTaken {b r opcode : Nat} {e : Entry} (hlive : ∀ i, live' i = live i) :
    (s.entryTaken b r opcode e).checkHandle c live' h = s.checkHandle c live h :=
  checkHandle_congr (getB_of_get (get_of_only_nil only_entryTaken _)) (only_entryTaken.1 .gens (by simp)) hlive

theorem only_advGen (c i : Nat) (s : State) : s.only [.gens] [] (s.advGen c i) :=
  ⟨fun p hp => by cases p <;> simp [State.same, State.advGen] at hp ⊢, fun _ _ => rfl, rfl, rfl⟩

theorem gen_advGen (c i : Nat) (s : State) : (s.advGen c i).gen c i = (s.gen c i + 1) % 1024 := by
  simp only [State.gen, State.advGen, tgetD, tget_tput_self, Option.getD_some]

theorem handle_of_gens (h : t.gens = s.gens) (c i : Nat) : t.handle c i = s.handle c i := by simp only [State.handle, gen_of_gens h]

/-- A creation ends as a command with its new handle. -/
theorem created_eq (b r h : Nat) (e : Entry) (s u : State) :
    (s.cmdOf b r e).created h u = u.completeId b r (s.cmdOf b r e).id (b * 256 + 0) h := by
  rw [Cmd.created, Nat.add_zero]
  rfl

end Objects

end Sys2Proof.Machine
end

section
/-! PROOFS. The arbiters: the first grant, the commands of ARB, and the statement on the arbiters (R359, R364). -/

namespace Sys2Proof.Machine

/-! ### The first grant, and REQ_CLASS at a decision (R359, R364) -/

section Decisions
variable {s : State}

/-- The best request is granted. -/
theorem bestGranted {a : Fin 2} {i : Nat} (hthaw : s.getB (ARB_CFG.FREEZE a.val) = false) (hnew : s.arb.newClass = []) (hidle : s.arbGranted a.val = false)
    (hbest : s.arbBest a.val = some i) (hlayer : i ≠ 21)
    (hstream : (s.fen.streams.find? fun y => y.2.req = i) = none) :
    exec (.arbDecide a s.fenCommit) s = .next (s.arbGrant i) := by
  rw [execArbDecide_eq, arbDecide_idle hthaw hnew hidle hbest]
  exact congrArg Host.Outcome.next (giveGrant_plain hlayer hstream)

/-- A requester's pending class and limit, in force. -/
def State.classSet (i c l : Nat) (s : State) : State :=
  (s.withArb { s.arb with newClass := tdel s.arb.newClass i, limit := tput s.arb.limit i l }).set (ARB_REQ.CLASS i) c

theorem classTaken_some {i c l : Nat} (h : tget s.arb.newClass i = some (c, l)) : s.classTaken i = s.classSet i c l := by
  simp only [State.classTaken, h, State.classSet]

theorem only_classSet (i c l : Nat) (s : State) : s.only [.arb] [ARB_REQ.CLASS i] (s.classSet i c l) :=
  only_then_set (only_then_withArb (only_refl ..) _ (by simp)) _ (by simp) (Nat.le_of_ble_eq_true rfl)

theorem arb_classSet (i c l : Nat) (s : State) : (s.classSet i c l).arb = { s.arb with newClass := tdel s.arb.newClass i, limit := tput s.arb.limit i l } := by
  rw [State.classSet, set_arb, arb_withArb]

theorem foldl_classTaken_none {l : List Nat} (h : s.arb.newClass = []) : l.foldl State.classTaken s = s := by
  induction l with
  | nil => rfl
  | cons i l ih => rw [List.foldl_cons, classTaken_none (by rw [h]; rfl), ih]

/-- Where one requester has a pending class, that one alone takes force. -/
theorem foldl_classTaken_one {l : List Nat} {i c lim : Nat} (hi : i ∈ l) (h : s.arb.newClass = [(i, (c, lim))]) :
    l.foldl State.classTaken s = s.classSet i c lim := by
  induction l with
  | nil => simp at hi
  | cons j l ih =>
    rw [List.foldl_cons]
    by_cases hj : j = i
    · subst hj
      rw [classTaken_some (c := c) (l := lim) (by rw [h]; simp [tget_cons])]
      exact foldl_classTaken_none (by rw [arb_classSet, h]; simp [tdel])
    · rw [classTaken_none (by rw [h, tget_cons]; simp [hj]), ih ((List.mem_cons.1 hi).resolve_left (Ne.symm hj))]

theorem arbBest_none {a : Nat} (h : s.arb.since = []) : s.arbBest a = none := by
  have hnone : (arbIndices a).filter s.arbEligible = [] := List.filter_eq_nil_iff.2 fun i _ => by simp [State.arbEligible, h]
  rw [State.arbBest, hnone]
  rfl

theorem newClassTakesForce {i c l : Nat} {a : Fin 2} (hthaw : s.getB (ARB_CFG.FREEZE a.val) = false) (hnew : s.arb.newClass = [(i, (c, l))])
    (hi : i ∈ arbIndices a.val) (hc : c ≤ 3) (hsince : s.arb.since = []) (hidle : s.arbGranted a.val = false) :
    ∃ t, exec (.arbDecide a s.fenCommit) s = .next t ∧ t.get (ARB_REQ.CLASS i) = c ∧ t.arb = { s.arb with newClass := [], limit := tput s.arb.limit i l } ∧
      s.only [.arb] [ARB_REQ.CLASS i] t := by
  have honly := only_classSet i c l s
  have hgranted : (s.classSet i c l).arbGranted a.val = false :=
    (getB_of_only honly (by simpa using .inl (arbStat_ne_arbReq _ _))).trans hidle
  have happly : s.arbApply a.val = s.classSet i c l := by
    rw [arbApply_eq, foldl_classTaken_one hi hnew, State.ownerClassShown, if_neg (by simp [hgranted])]
  have hbest : (s.classSet i c l).arbBest a.val = none := arbBest_none (by rw [arb_classSet]; exact hsince)
  have hexec : exec (.arbDecide a s.fenCommit) s = .next (s.classSet i c l) := by
    have hrank : (s.classSet i c l).arbOutranked a.val = false := by simp [State.arbOutranked, hgranted]
    rw [execArbDecide_eq, State.arbDecide]
    simp [hthaw, happly, hrank, hgranted, hbest]
  refine ⟨_, hexec, ?_, by rw [arb_classSet, hnew]; simp [tdel], honly⟩
  rw [State.classSet, get_set_self _ _ _ (Nat.le_of_ble_eq_true rfl)]
  exact Nat.mod_eq_of_lt (by simp only [ARB_REQ.CLASS]; omega)

end Decisions

/-! ### The commands (R364) -/

section Commands
variable {s : State} {e : Entry} {i : Nat}

theorem ringG_arb : ringG 0x0B 0 = 0xCB000100 := rfl

theorem offRing_arbReq {fs : List Fld} (h : ∀ f ∈ fs, ∃ i, f.addr = ARB_REQ i) : offRing 0x0B 0 fs := by
  intro f hf
  obtain ⟨i, hi⟩ := h f hf
  rw [hi, ringG_arb]
  exact .inr (by simp only [ARB_REQ]; omega)

theorem apart_compl_arbReq {f : Fld} (i : Nat) (hf : f.addr = ARB_REQ i) : ∀ g ∈ complFlds 0x0B 0, f.apart g := by
  refine apart_complFlds_of_addr ?_ ?_ ?_ <;> rw [hf]
  · rw [CRING_PI, ringG_arb]; simp only [ARB_REQ]; omega
  · simp only [ARB_REQ, FEN_JOB_PEND]; omega
  · rw [window_arbReq]; decide

/-- LIVE, CLASS and STARVE of a requester. -/
def reqFlds (i : Nat) : List Fld := [ARB_REQ.LIVE i, ARB_REQ.CLASS i, ARB_REQ.STARVE i]

theorem addr_reqFlds : ∀ f ∈ reqFlds i, f.addr = ARB_REQ i := by simp [reqFlds, ARB_REQ.LIVE, ARB_REQ.CLASS, ARB_REQ.STARVE]

/-- A command of ARB ends behind its work on its requester's fields: its completion, the memory beside it, its frame, and what the work left. -/
theorem arbEnds {u : State} {ps : List Comp} (ring : Fin 1) {opcode h : Nat} (hready : s.ready 0x0B ring.val 0 e)
    (hv : (s.entryTaken 0x0B ring.val opcode e).only ps (reqFlds i) u) (hps : ∀ p ∈ ps, p = .arb ∨ p = .gens) :
    let t := u.completeId 0x0B ring.val (s.cmdOf 0x0B ring.val e).id (0x0B * 256 + 0) h
    s.completed 0x0B ring.val e 0x00 h t ∧ s.dramKept (s.complAddr 0x0B ring.val) 16 t ∧
      s.only ([.dram, .rings, .rcd, .cyc] ++ ps) (complFlds 0x0B ring.val ++ reqFlds i) t ∧ t.arb = u.arb ∧ t.gens = u.gens ∧
      ∀ f ∈ reqFlds i, t.get f = u.get f := by
  obtain rfl : ring = 0 := Subsingleton.elim _ _
  intro t
  have hno (p : Comp) (h : p ≠ .arb ∧ p ≠ .gens) : p ∉ ps := fun hp => (hps p hp).elim h.1 h.2
  obtain ⟨hdone, hkept, honly⟩ := ends_behind (code := 0) (h := h) (ring_lt_of_ready hready) (idle_of_ready hready) (by decide) hv (hno .ltc (by simp))
    (hno .rings (by simp)) (hno .dram (by simp)) (offRing_arbReq fun f hf => ⟨i, addr_reqFlds f hf⟩)
  refine ⟨hdone, hkept, honly, same_completeId (c := .arb) _ _ (ring_lt_of_ready hready) (by simp),
    same_completeId (c := .gens) _ _ (ring_lt_of_ready hready) (by simp), fun f hf => ?_⟩
  exact get_completeId _ _ (ring_lt_of_ready hready) (apart_compl_arbReq i (addr_reqFlds f hf))

/-- A requester is made. -/
def State.reqMade (i cls limit : Nat) (s : State) : State :=
  let u := (((s.advGen 0x0D i).setB (ARB_REQ.LIVE i) true).set (ARB_REQ.CLASS i) cls).setB (ARB_REQ.STARVE i) false
  u.withArb { u.arb with limit := tput u.arb.limit i limit, newClass := tdel u.arb.newClass i }

theorem only_reqMade (i cls limit : Nat) (s : State) : s.only [.gens, .arb] (reqFlds i) (s.reqMade i cls limit) := by
  have hgen : s.only [.gens, .arb] (reqFlds i) (s.advGen 0x0D i) := only_mono (only_advGen 0x0D i s) (by simp) (by simp)
  exact only_then_withArb (only_then_setB (only_then_set (only_then_setB hgen true (by simp [reqFlds]) (Nat.le_of_ble_eq_true rfl)) cls (by simp [reqFlds])
    (Nat.le_of_ble_eq_true rfl)) false (by simp [reqFlds]) (Nat.le_of_ble_eq_true rfl)) _ (by simp)

theorem reqMade_reads {cls : Nat} (hcls : cls ≤ 3) (limit : Nat) (s : State) :
    let u := s.reqMade i cls limit
    u.arb = { s.arb with limit := tput s.arb.limit i limit, newClass := tdel s.arb.newClass i } ∧ u.gen 0x0D i = (s.gen 0x0D i + 1) % 1024 ∧
      u.getB (ARB_REQ.LIVE i) = true ∧ u.get (ARB_REQ.CLASS i) = cls ∧ u.getB (ARB_REQ.STARVE i) = false := by
  intro u
  have hu : u = s.reqMade i cls limit := rfl
  clear_value u
  rw [hu, State.reqMade]
  refine ⟨?_, ?_, ?_, ?_, ?_⟩
  · simp only [arb_withArb, setB_arb, set_arb, advGen_arb]
  · exact (gen_of_gens (by simp only [State.withArb, setB_gens, set_gens]) _ _).trans (gen_advGen ..)
  · rw [getB_withArb, getB_of_get (get_setB_apart _ _ _ _ (.inr (.inr (Nat.le_of_ble_eq_true rfl))) (Nat.le_of_ble_eq_true rfl)),
      getB_of_get (get_set_apart _ _ _ _ (.inr (.inr (Nat.le_of_ble_eq_true rfl))) (Nat.le_of_ble_eq_true rfl))]
    exact getB_setB_self _ _ _ (Nat.le_of_ble_eq_true rfl) rfl
  · rw [get_withArb, get_setB_apart _ _ _ _ (.inr (.inl (Nat.le_of_ble_eq_true rfl))) (Nat.le_of_ble_eq_true rfl),
      get_set_self _ _ _ (Nat.le_of_ble_eq_true rfl)]
    exact Nat.mod_eq_of_lt (by simp only [ARB_REQ.CLASS]; omega)
  · rw [getB_withArb]
    exact getB_setB_self _ _ _ (Nat.le_of_ble_eq_true rfl) rfl

/-- A requester may be made at index `i`: the lowest free one of ARB0, or the one that ARB1 gives the kind (R364). -/
def State.reqFree (c : Cmd) (i : Nat) (s : State) : Prop :=
  c.arg 16 1 = 0 ∧ c.arg 18 1 = 0 ∧ ((List.range 20).find? fun j => !s.reqLive j) = some i ∨ c.arg 16 1 = 1 ∧ i = 20 + c.arg 18 1 ∧ s.reqLive i = false

theorem opReqCreate_eq {c : Cmd} (hcls : c.arg 17 1 ≤ 3) (hwho : c.arg 18 1 ≤ 3) (hfree : s.reqFree c i) :
    opReqCreate c s = c.created ((s.reqMade i (c.arg 17 1) (c.arg 20 4)).handle 0x0D i) (s.reqMade i (c.arg 17 1) (c.arg 20 4)) := by
  have hindex : (if c.arg 16 1 = 0 then (List.range 20).find? fun j => !s.reqLive j else some (20 + c.arg 18 1)) = some i := by
    rcases hfree with ⟨h0, -, hf⟩ | ⟨h1, hi, -⟩
    · rw [if_pos h0, hf]
    · rw [if_neg (by omega), hi]
  have hlive : s.reqLive i = false := by
    rcases hfree with ⟨-, -, hf⟩ | ⟨-, -, hl⟩
    · simpa using List.find?_some hf
    · exact hl
  have hargs : (decide (1 < c.arg 16 1) || decide (3 < c.arg 17 1) || decide (3 < c.arg 18 1) || decide (c.arg 16 1 = 0) && decide (c.arg 18 1 ≠ 0)) = false := by
    simp only [Bool.or_eq_false_iff, Bool.and_eq_false_iff, decide_eq_false_iff_not]
    rcases hfree with ⟨h0, h1, -⟩ | ⟨h1, -, -⟩ <;> omega
  unfold opReqCreate
  simp only [hindex, hargs, hlive, Bool.false_eq_true, if_false]
  rfl

theorem requesterMade (ring : Fin 1) {e : Entry} (hready : s.ready 0x0B ring.val 0 e)
    (hcls : (s.cmdOf 0x0B ring.val e).arg 17 1 ≤ 3) (hwho : (s.cmdOf 0x0B ring.val e).arg 18 1 ≤ 3) (hfree : s.reqFree (s.cmdOf 0x0B ring.val e) i) :
    ∃ t, exec (.reqCreate ring e) s = .next t ∧
    s.completed 0x0B ring.val e 0x00 (t.handle 0x0D i) t ∧ s.dramKept (s.complAddr 0x0B ring.val) 16 t ∧ t.gen 0x0D i = (s.gen 0x0D i + 1) % 1024 ∧
    t.getB (ARB_REQ.LIVE i) = true ∧ t.get (ARB_REQ.CLASS i) = (s.cmdOf 0x0B ring.val e).arg 17 1 ∧ t.getB (ARB_REQ.STARVE i) = false ∧
    t.arb = { s.arb with limit := tput s.arb.limit i ((s.cmdOf 0x0B ring.val e).arg 20 4), newClass := tdel s.arb.newClass i } ∧
    s.only [.dram, .rings, .gens, .arb, .rcd, .cyc] (complFlds 0x0B ring.val ++ [ARB_REQ.LIVE i, ARB_REQ.CLASS i, ARB_REQ.STARVE i]) t := by
  have hfree' : (s.entryTaken 0x0B ring.val 1 e).reqFree (s.cmdOf 0x0B ring.val e) i := hfree
  have hexec : exec (.reqCreate ring e) s = .next _ :=
    congrArg Host.Outcome.next ((runRow_runs hready rfl opReqCreate).trans (opReqCreate_eq hcls hwho hfree'))
  rw [created_eq] at hexec
  obtain ⟨harb, hgen, hlive, hclass, hstarve⟩ := reqMade_reads (i := i) hcls ((s.cmdOf 0x0B ring.val e).arg 20 4) (s.entryTaken 0x0B ring.val 1 e)
  have honly := only_reqMade i ((s.cmdOf 0x0B ring.val e).arg 17 1) ((s.cmdOf 0x0B ring.val e).arg 20 4) (s.entryTaken 0x0B ring.val 1 e)
  generalize (s.entryTaken 0x0B ring.val 1 e).reqMade i _ _ = u at hexec harb hgen hlive hclass hstarve honly
  obtain ⟨hdone, hkept, hframe, htarb, htgens, hreads⟩ := arbEnds (h := u.handle 0x0D i) ring hready honly (by simp)
  refine ⟨_, hexec, ?_, hkept, ?_, ?_, ?_, ?_, ?_, only_mono hframe (by simp +contextual [or_imp]) (by simp [reqFlds])⟩
  · rw [handle_of_gens htgens 0x0D i]
    exact hdone
  · exact (gen_of_gens htgens _ _).trans hgen
  · exact (getB_of_get (hreads _ (by simp [reqFlds]))).trans hlive
  · exact (hreads _ (by simp [reqFlds])).trans hclass
  · exact (getB_of_get (hreads _ (by simp [reqFlds]))).trans hstarve
  · exact htarb.trans harb

/-- A requester is freed. -/
def State.reqFreed (i : Nat) (s : State) : State :=
  (((s.withArb { s.arb with limit := tdel s.arb.limit i, newClass := tdel s.arb.newClass i }).setB (ARB_REQ.LIVE i) false).setB (ARB_REQ.STARVE i) false).set
    (ARB_REQ.CLASS i) 0

theorem only_reqFreed (i : Nat) (s : State) : s.only [.arb] (reqFlds i) (s.reqFreed i) := by
  have harb : s.only [.arb] (reqFlds i) (s.withArb { s.arb with limit := tdel s.arb.limit i, newClass := tdel s.arb.newClass i }) :=
    only_mono (only_withArb ..) (by simp) (by simp)
  exact only_then_set (only_then_setB (only_then_setB harb false (by simp [reqFlds]) (Nat.le_of_ble_eq_true rfl)) false (by simp [reqFlds])
    (Nat.le_of_ble_eq_true rfl)) 0 (by simp [reqFlds]) (Nat.le_of_ble_eq_true rfl)

theorem reqFreed_reads (i : Nat) (s : State) :
    let u := s.reqFreed i
    u.arb = { s.arb with limit := tdel s.arb.limit i, newClass := tdel s.arb.newClass i } ∧ u.getB (ARB_REQ.LIVE i) = false ∧
      u.get (ARB_REQ.CLASS i) = 0 ∧ u.getB (ARB_REQ.STARVE i) = false := by
  intro u
  have hu : u = s.reqFreed i := rfl
  clear_value u
  rw [hu, State.reqFreed]
  refine ⟨by simp only [set_arb, setB_arb, arb_withArb], ?_, ?_, ?_⟩
  · rw [getB_of_get (get_set_apart _ _ _ _ (.inr (.inr (Nat.le_of_ble_eq_true rfl))) (Nat.le_of_ble_eq_true rfl)),
      getB_of_get (get_setB_apart _ _ _ _ (.inr (.inr (Nat.le_of_ble_eq_true rfl))) (Nat.le_of_ble_eq_true rfl))]
    exact getB_setB_self _ _ _ (Nat.le_of_ble_eq_true rfl) rfl
  · exact get_set_self _ _ _ (Nat.le_of_ble_eq_true rfl)
  · rw [getB_of_get (get_set_apart _ _ _ _ (.inr (.inr (Nat.le_of_ble_eq_true rfl))) (Nat.le_of_ble_eq_true rfl))]
    exact getB_setB_self _ _ _ (Nat.le_of_ble_eq_true rfl) rfl

/-- A handle of a requester passes its checks where its entry is taken. -/
theorem reqHandle_entryTaken {r opcode : Nat} (h : s.checkHandle 0x0D s.reqLive e.handle.toNat = none) :
    (s.entryTaken 0x0B r opcode e).checkHandle 0x0D (s.entryTaken 0x0B r opcode e).reqLive (s.cmdOf 0x0B r e).handle = none :=
  (checkHandle_entryTaken fun _ => rfl).trans h

theorem requesterFreed (ring : Fin 1) (hready : s.ready 0x0B ring.val 0 e) (hhandle : s.checkHandle 0x0D s.reqLive e.handle.toNat = none)
    (hi : hIndex e.handle.toNat = i) (hunbound : s.reqBound i = false) :
    ∃ t, exec (.reqDestroy ring e) s = .next t ∧
    s.completed 0x0B ring.val e 0x00 e.handle.toNat t ∧ s.dramKept (s.complAddr 0x0B ring.val) 16 t ∧ t.getB (ARB_REQ.LIVE i) = false ∧
    t.get (ARB_REQ.CLASS i) = 0 ∧ t.getB (ARB_REQ.STARVE i) = false ∧
    t.arb = { s.arb with limit := tdel s.arb.limit i, newClass := tdel s.arb.newClass i } ∧
    s.only [.dram, .rings, .arb, .rcd, .cyc] (complFlds 0x0B ring.val ++ [ARB_REQ.LIVE i, ARB_REQ.CLASS i, ARB_REQ.STARVE i]) t := by
  have hop : opReqDestroy (s.cmdOf 0x0B ring.val e) (s.entryTaken 0x0B ring.val 2 e) =
      (s.cmdOf 0x0B ring.val e).finish 0x00 ((s.entryTaken 0x0B ring.val 2 e).reqFreed i) := by
    have hbound : (s.entryTaken 0x0B ring.val 2 e).reqBound i = false := hunbound
    have hindex : hIndex (s.cmdOf 0x0B ring.val e).handle = i := hi
    simp only [opReqDestroy, reqHandle_entryTaken hhandle, hindex, hbound, Bool.false_eq_true, if_false]
    rfl
  have hexec : exec (.reqDestroy ring e) s = .next _ := congrArg Host.Outcome.next ((runRow_runs hready rfl opReqDestroy).trans hop)
  obtain ⟨harb, hlive, hclass, hstarve⟩ := reqFreed_reads i (s.entryTaken 0x0B ring.val 2 e)
  have honly := only_reqFreed i (s.entryTaken 0x0B ring.val 2 e)
  generalize (s.entryTaken 0x0B ring.val 2 e).reqFreed i = u at hexec harb hlive hclass hstarve honly
  obtain ⟨hdone, hkept, hframe, htarb, -, hreads⟩ := arbEnds (h := e.handle.toNat) ring hready honly (by simp)
  exact ⟨_, hexec, hdone, hkept, (getB_of_get (hreads _ (by simp [reqFlds]))).trans hlive, (hreads _ (by simp [reqFlds])).trans hclass,
    (getB_of_get (hreads _ (by simp [reqFlds]))).trans hstarve, htarb.trans harb, only_mono hframe (by simp) (by simp [reqFlds])⟩

theorem requesterReclassed (ring : Fin 1) (hready : s.ready 0x0B ring.val 0 e) (hhandle : s.checkHandle 0x0D s.reqLive e.handle.toNat = none)
    (hi : hIndex e.handle.toNat = i) (hcls : (s.cmdOf 0x0B ring.val e).arg 16 1 ≤ 3) :
    ∃ t, exec (.reqClass ring e) s = .next t ∧
    s.completed 0x0B ring.val e 0x00 e.handle.toNat t ∧ s.dramKept (s.complAddr 0x0B ring.val) 16 t ∧
    t.arb = { s.arb with newClass := tput s.arb.newClass i ((s.cmdOf 0x0B ring.val e).arg 16 1, (s.cmdOf 0x0B ring.val e).arg 20 4) } ∧
    s.only [.dram, .rings, .arb, .rcd, .cyc] (complFlds 0x0B ring.val) t := by
  have hop : opReqClass (s.cmdOf 0x0B ring.val e) (s.entryTaken 0x0B ring.val 3 e) =
      (s.cmdOf 0x0B ring.val e).finish 0x00 ((s.entryTaken 0x0B ring.val 3 e).withArb
        { s.arb with newClass := tput s.arb.newClass i ((s.cmdOf 0x0B ring.val e).arg 16 1, (s.cmdOf 0x0B ring.val e).arg 20 4) }) := by
    have hindex : hIndex (s.cmdOf 0x0B ring.val e).handle = i := hi
    simp only [opReqClass, reqHandle_entryTaken hhandle, hindex, if_neg (Nat.not_lt.2 hcls)]
    rfl
  have hexec : exec (.reqClass ring e) s = .next _ := congrArg Host.Outcome.next ((runRow_runs hready rfl opReqClass).trans hop)
  obtain rfl : ring = 0 := Subsingleton.elim _ _
  obtain ⟨hdone, hkept, hframe⟩ := ends_behind (b := 0x0B) (r := 0) (code := 0) (h := e.handle.toNat) (by decide) (idle_of_ready hready) (by decide)
    (only_withArb { s.arb with newClass := tput s.arb.newClass i ((s.cmdOf 0x0B 0 e).arg 16 1, (s.cmdOf 0x0B 0 e).arg 20 4) } (s.entryTaken 0x0B 0 3 e))
    (by simp) (by simp) (by simp) (by simp [offRing])
  exact ⟨_, hexec, hdone, hkept, same_completeId (b := 0x0B) (r := 0) (c := .arb) _ _ (by decide) (by simp), only_mono hframe (by simp) (by simp)⟩

end Commands

/-! ### The statement -/

/-- Settles O45: the arbiters grant, revoke, freeze and starve by class, and their requesters are made, changed and freed (R359 to R365). -/
theorem arbitersGrantRevokeFreezeAndStarveByClass : Obligations.ArbitersGrantRevokeFreezeAndStarveByClass := by
  unfold Obligations.ArbitersGrantRevokeFreezeAndStarveByClass
  refine ⟨fun a i s hthaw hnew hidle hbest hlayer hi hstream => ⟨_, bestGranted hthaw hnew hidle hbest hlayer hstream, arbGrant_shows hi s⟩,
    ?_, ?_, fun s => commitHolds, fun a s => frozenHolds, fun cm s => commitMismatch, freezeActs, fun i t0 s => requestStarves,
    fun core value s => hostRequests core, fun core value s => hostReleases core, fun ring e i s hready _ hcls hwho hfree => requesterMade ring hready hcls hwho hfree,
    fun ring e i s => requesterFreed ring, fun ring e i s => requesterReclassed ring, fun i c l a s => newClassTakesForce⟩
  · intro i j s hthaw hnew hgrant howner hj hbest hbelow hi
    subst hi
    exact storageGrantMoves hthaw hnew hgrant howner hj hbest hbelow
  · intro i j x y q q2 p h h2 rest rest2 r s hthaw hnew hgrant howner hbest hbelow hi hj hij hrun hcommit hy hxy hq2 hreq2 hjobs2 hs hone hq hreq hp hjobs _
    exact jobGrantMoves hthaw hnew hgrant howner hbest hbelow hi hj hij hrun hcommit hy hxy hq2 hreq2 hjobs2 hs hone hq hreq hp hjobs

end Sys2Proof.Machine
end

section
/-! PROOFS. How a command in flight ends by itself (R123, R124), behind work before it and ahead of work after it: a layer for the statements on
commands that run. -/

namespace Sys2Proof.Machine

section SelfEnds
variable {b r code h tag : Nat} {x : Taken} {s t u v : State} {ps : List Comp} {fs : List Fld}

/-- The place and the number of ring `r`'s next completion are the same in both states. -/
def State.sameCompletion (b r : Nat) (s u : State) : Prop :=
  u.complAddr b r = s.complAddr b r ∧ (u.ring b r).seq = (s.ring b r).seq ∧ u.get (CRING_PI b r) = s.get (CRING_PI b r)

theorem sameCompletion_trans (h : s.sameCompletion b r u) (h' : u.sameCompletion b r v) : s.sameCompletion b r v :=
  ⟨h'.1.trans h.1, h'.2.1.trans h.2.1, h'.2.2.trans h.2.2⟩

/-- Work outside the ring's registers that leaves the ring. -/
theorem sameCompletion_of_ring (hv : s.only ps fs u) (hl : .ltc ∉ ps) (hring : u.ring b r = s.ring b r) (hoff : offRing b r fs) : s.sameCompletion b r u := by
  have hregs := ringRegs_of_offRing (b := b) (r := r) hv hoff
  have hpi : u.get (CRING_PI b r) = s.get (CRING_PI b r) := get_congr _ (hregs _ (.inl rfl))
  exact ⟨complAddr_congr (hv.1 .ltc hl) (by rw [hring]) (by rw [hring]) hpi (get64_congr _ _ (hregs _ (.inr (.inl rfl))) (hregs _ (.inr (.inr rfl)))),
    by rw [hring], hpi⟩

theorem sameCompletion_of_only (hv : s.only ps fs u) (hl : .ltc ∉ ps) (hrings : .rings ∉ ps) (hoff : offRing b r fs) : s.sameCompletion b r u :=
  sameCompletion_of_ring hv hl (ring_of_rings (hv.1 .rings hrings) b r) hoff

theorem sameCompletion_entryTaken {e : Entry} {opcode : Nat} (hidle : (s.ring b r).taken = []) : s.sameCompletion b r (s.entryTaken b r opcode e) := by
  have hring : (s.entryTaken b r opcode e).ring b r = _ := ring_entryTaken (opcode := opcode) (e := e) hidle
  exact ⟨complAddr_entryTaken, by rw [hring], rfl⟩

/-- A completion entry written behind other work. -/
theorem complTag_behind (hsame : s.sameCompletion b r u) (ht : u.complTag b r tag code h t) : s.complTag b r tag code h t := by
  obtain ⟨haddr, hseq, hpi⟩ := hsame
  rw [State.complTag, haddr, hseq, hpi] at ht
  exact ht

/-- A completion entry stays through work outside DRAM and the ring's registers. -/
theorem complTag_then (ht : s.complTag b r tag code h t) (hv : t.only ps fs v) (hdram : .dram ∉ ps) (hoff : offRing b r fs) :
    s.complTag b r tag code h v := by
  have hd : v.dram = t.dram := hv.1 .dram hdram
  have hpi : v.get (CRING_PI b r) = t.get (CRING_PI b r) := get_congr _ (ringRegs_of_offRing hv hoff _ (.inl rfl))
  rw [State.complTag, hd, hpi]
  exact ht

/-- The one command in flight ends by itself. -/
theorem selfEnds_of (hr : r < ringCount b) (hc : b * 256 + code < 2 ^ 16) (htaken : (u.ring b r).taken = [x]) (hsame : s.sameCompletion b r u) :
    s.ended b r x code x.handle (u.completeSelf b r x.id code) ∧ u.dramKept (s.complAddr b r) 16 (u.completeSelf b r x.id code) := by
  obtain ⟨hgone, htag⟩ := ended_completeSelf hr hc htaken
  exact ⟨⟨hgone, complTag_behind hsame htag⟩, hsame.1 ▸ dramKept_completeSelf htaken⟩

/-- A command that its ring has just taken is the one that ends. -/
theorem finish_eq {e : Entry} {opcode : Nat} (htaken : (u.ring b r).taken = [s.takenOf b r opcode e]) :
    (s.cmdOf b r e).finish code u = u.completeSelf b r (s.takenOf b r opcode e).id code := by
  rw [State.completeSelf, htaken]
  simp only [List.find?_cons_of_pos, decide_true, Option.map_some, Option.getD_some]
  rfl

/-- The command that an idle ring took ends behind work that leaves the ring. -/
theorem finishes {e : Entry} {opcode : Nat} (hr : r < ringCount b) (hc : b * 256 + code < 2 ^ 16) (hidle : (s.ring b r).taken = [])
    (hsame : (s.entryTaken b r opcode e).sameCompletion b r u) (hring : u.ring b r = (s.entryTaken b r opcode e).ring b r) :
    s.completed b r e code e.handle.toNat ((s.cmdOf b r e).finish code u) ∧ u.dramKept (s.complAddr b r) 16 ((s.cmdOf b r e).finish code u) := by
  have htaken : (u.ring b r).taken = [s.takenOf b r opcode e] := by rw [hring, ring_entryTaken hidle]
  rw [finish_eq htaken]
  obtain ⟨hended, hkept⟩ := selfEnds_of hr hc htaken (sameCompletion_trans (sameCompletion_entryTaken hidle) hsame)
  exact ⟨hended.2, hkept⟩

theorem ended_then (ht : s.ended b r x code h t) (hv : t.only ps fs v) (hdram : .dram ∉ ps) (hrings : .rings ∉ ps) (hoff : offRing b r fs) :
    s.ended b r x code h v :=
  ⟨by rw [ring_of_rings (hv.1 .rings hrings)]; exact ht.1, complTag_then ht.2 hv hdram hoff⟩

/-- DRAM beside some bytes stays through work that leaves DRAM. -/
theorem dramKept_then {a n : Nat} (ht : s.dramKept a n t) (hv : t.dram = v.dram) : s.dramKept a n v := fun y hy => by rw [← hv]; exact ht y hy

/-- A command in flight ends by itself behind work outside its ring. -/
theorem selfEnds (hr : r < ringCount b) (hc : b * 256 + code < 2 ^ 16) (htaken : (s.ring b r).taken = [x]) (hv : s.only ps fs u) (hl : .ltc ∉ ps)
    (hrings : .rings ∉ ps) (hdram : .dram ∉ ps) (hoff : offRing b r fs) :
    s.ended b r x code x.handle (u.completeSelf b r x.id code) ∧ s.dramKept (s.complAddr b r) 16 (u.completeSelf b r x.id code) ∧
      s.only ([.dram, .rings, .rcd, .cyc] ++ ps) (complFlds b r ++ fs) (u.completeSelf b r x.id code) := by
  have htaken' : (u.ring b r).taken = [x] := by rw [ring_of_rings (hv.1 .rings hrings)]; exact htaken
  obtain ⟨hended, hkept⟩ := selfEnds_of hr hc htaken' (sameCompletion_of_only (b := b) (r := r) hv hl hrings hoff)
  refine ⟨hended, fun y hy => ?_, only_mono (only_seq hv (only_completeSelf x.id hr)) ?_ ?_⟩
  · rw [← hv.1 .dram hdram]
    exact hkept y hy
  · simp +contextual [or_imp]
  · simp +contextual [or_imp]

/-- A command in flight ends by itself between work outside its ring. -/
theorem selfEnds_then {qs : List Comp} {gs : List Fld} (hr : r < ringCount b) (hc : b * 256 + code < 2 ^ 16) (htaken : (s.ring b r).taken = [x])
    (hv : s.only ps fs u) (hl : .ltc ∉ ps) (hrings : .rings ∉ ps) (hdram : .dram ∉ ps) (hoff : offRing b r fs)
    (hw : (u.completeSelf b r x.id code).only qs gs v) (hrings' : .rings ∉ qs) (hdram' : .dram ∉ qs) (hoff' : offRing b r gs) :
    s.ended b r x code x.handle v ∧ s.dramKept (s.complAddr b r) 16 v ∧
      s.only ([.dram, .rings, .rcd, .cyc] ++ ps ++ qs) (complFlds b r ++ fs ++ gs) v := by
  obtain ⟨hended, hkept, honly⟩ := selfEnds hr hc htaken hv hl hrings hdram hoff
  exact ⟨ended_then hended hw hdram' hrings' hoff', dramKept_then hkept (hw.1 .dram hdram').symm, only_seq honly hw⟩

/-! Another ring than the one a command ends on. -/

theorem ring_writeCompletion_ne {c k reason : Nat} (hne : c * 32 + k ≠ b * 32 + r) (y : Taken) :
    (s.writeCompletion b r y reason h).ring c k = s.ring c k := by
  have hstored : (s.completionStored b r y reason h).ring c k = s.ring c k := (ring_of_rings (set_rings ..) c k).trans (ring_setRing_ne s _ hne)
  by_cases hev : y.irq = true ∨ reason % 256 ≠ 0
  · rw [writeCompletion_event y reason h hev, ring_of_rings (completionEvent_rings ..), hstored]
  · rw [writeCompletion_quiet y reason h (by simpa using hev), hstored]

theorem ring_flushTaken_ne {c k : Nat} (hne : c * 32 + k ≠ b * 32 + r) (l : List Taken) (s : State) : (flushTaken b r l s).2.ring c k = s.ring c k := by
  induction l generalizing s with
  | nil => rfl
  | cons y l ih =>
    unfold flushTaken
    split
    · rfl
    · rw [ih, ring_writeCompletion_ne hne]

theorem ring_completeId_ne {c k : Nat} (hne : c * 32 + k ≠ b * 32 + r) (id reason h : Nat) (s : State) :
    (s.completeId b r id reason h).ring c k = s.ring c k := by
  unfold State.completeId
  exact (ring_setRing_ne _ _ hne).trans (ring_flushTaken_ne hne _ s)

theorem ring_entryTaken_ne {c k opcode : Nat} {e : Entry} (hne : c * 32 + k ≠ b * 32 + r) : (s.entryTaken b r opcode e).ring c k = s.ring c k :=
  (ring_setRing_ne _ _ hne).trans (ring_setRing_ne _ _ hne)

theorem dramKept_of_dram {a n : Nat} (hd : u.dram = s.dram) (ht : u.dramKept a n t) : s.dramKept a n t := fun y hy => by rw [← hd]; exact ht y hy

/-- A command that enters flight and waits for its effect. -/
theorem started_of_only {e : Entry} {opcode : Nat} (hidle : (s.ring b r).taken = []) (hv : (s.entryTaken b r opcode e).only ps fs u)
    (hrings : .rings ∉ ps) : s.started b r opcode e u := by
  have := ring_entryTaken (opcode := opcode) (e := e) hidle
  rw [State.started, ring_of_rings (hv.1 .rings hrings)]
  exact this

end SelfEnds

end Sys2Proof.Machine
end

section
/-! PROOFS. Raises beside raises (R129): a layer for the statements in which one command raises several sources. -/

namespace Sys2Proof.Machine

section Sources
variable {n m : Nat} {s t u : State} {ps : List Comp} {fs gs : List Fld}

/-- Fields that hold nothing of source `n`. -/
def offSource (n : Nat) (fs : List Fld) : Prop := ∀ f ∈ fs, f.addr ≠ EVT_SRC_CFG n ∧ f.addr ∉ raiseRegs n

theorem offSource_of_window (h : ∀ f ∈ fs, windowOf f.addr ≠ 0xC1) : offSource n fs := fun f hf =>
  ⟨fun he => h f hf (he ▸ windowOf_srcCfg n), fun hm => h f hf (windowOf_raiseRegs hm)⟩

theorem offSource_append (h : offSource n fs) (h' : offSource n gs) : offSource n (fs ++ gs) := fun f hf => (List.mem_append.1 hf).elim (h f) (h' f)

theorem offSource_cons {f : Fld} (hf : windowOf f.addr ≠ 0xC1) (h : offSource n fs) : offSource n (f :: fs) :=
  offSource_append (offSource_of_window (fs := [f]) (by simpa using hf)) h

/-- Another source's fields. -/
theorem offSource_raiseFlds (h : m % 384 ≠ n % 384) : offSource n (raiseFlds m) := by
  intro f hf
  simp only [raiseFlds, List.mem_cons, List.not_mem_nil, or_false] at hf
  rcases hf with rfl | rfl | rfl | rfl <;>
    simp only [raiseRegs, wordAt, EVT_SRC_STAT.PEND, EVT_SRC_STAT.MULTI, EVT_SRC_CFG, EVT_SRC_STAT, EVT_SRC_LTC_LO, EVT_SRC_LTC_HI, List.mem_cons,
      List.not_mem_nil, or_false] <;> omega

theorem offSource_nil : offSource n [] := by simp [offSource]

theorem reg_of_offSource (h : s.only ps fs u) (hoff : offSource n fs) {a : Nat} (ha : a = EVT_SRC_CFG n ∨ a ∈ raiseRegs n) : u.reg a = s.reg a :=
  (keeps_of_only h).2.1 a fun hm => by
    obtain ⟨f, hf, rfl⟩ := List.mem_map.1 hm
    rcases ha with ha | ha
    · exact (hoff f hf).1 ha
    · exact (hoff f hf).2 ha

/-- A raise behind work that leaves its source. -/
theorem raised_behind (h : s.only ps fs u) (hl : .ltc ∉ ps) (hoff : offSource n fs) : s.raised n (u.raise n) :=
  raised_of h.2.2.1 (h.1 .ltc hl) (reg_of_offSource h hoff (.inl rfl)) (reg_of_offSource h hoff (.inr (by simp [raiseRegs])))

/-- Work that leaves the source, after its raise. -/
theorem raised_ahead (h : s.raised n u) (h' : u.only ps fs t) (hoff : offSource n fs) : s.raised n t :=
  raised_mono h fun _ ha => reg_of_offSource h' hoff (.inr ha)

/-- A raise seen from before work that leaves its source. -/
theorem raised_before (h : s.only ps fs u) (hl : .ltc ∉ ps) (hoff : offSource n fs) (hr : u.raised n t) : s.raised n t := by
  have hcfg : u.getB (EVT_SRC_CFG.EN n) = s.getB (EVT_SRC_CFG.EN n) := getB_congr _ (reg_of_offSource h hoff (.inl rfl))
  have hpend : u.getB (EVT_SRC_STAT.PEND n) = s.getB (EVT_SRC_STAT.PEND n) :=
    getB_congr _ (reg_of_offSource h hoff (.inr (by simp [raiseRegs, EVT_SRC_STAT.PEND])))
  have hnever : u.neverRaised n = s.neverRaised n := by simp only [State.neverRaised, State.noGnss, h.2.2.1]
  have hnow : u.now = s.now := now_of_only h hl
  intro hn he
  have := hr (hnever.trans hn) (hcfg.trans he)
  rwa [hpend, hnow] at this

end Sources

end Sys2Proof.Machine
end

section
/-! PROOFS. FEN's packages (R349 to R352): the statement of chapter 16 on them. -/

namespace Sys2Proof.Machine

/-! ### Bytes of a memory -/

section Bytes

theorem memBytes_drop (m : List Host.Cell) (a n k : Nat) : (memBytes m a n).drop k = memBytes m (a + k) (n - k) := by
  induction k generalizing a n with
  | zero => rfl
  | succ k ih =>
    cases n with
    | zero => simp [memBytes]
    | succ n => rw [memBytes, List.drop_succ_cons, ih, Nat.add_sub_add_right, Nat.add_assoc, Nat.add_comm 1 k]

theorem memBytes_take (m : List Host.Cell) (a : Nat) {n l : Nat} (h : l ≤ n) : (memBytes m a n).take l = memBytes m a l := by
  induction l generalizing a n with
  | zero => simp [memBytes]
  | succ l ih =>
    cases n with
    | zero => omega
    | succ n => rw [memBytes, memBytes, List.take_succ_cons, ih _ (by omega)]

/-- A field of a header read from memory is read there. -/
theorem pkgField_memBytes {p : Pkg} {m : List Host.Cell} {a o n : Nat} (hp : p.hdr = memBytes m a 256) (h : o + n ≤ 256) :
    p.f o n = natLE (memBytes m (a + o) n) := by
  rw [Pkg.f, hp, memBytes_drop, memBytes_take _ _ (by omega)]

theorem natLE_lt (l : List Byte) : natLE l < 256 ^ l.length := by
  induction l with
  | nil => decide
  | cons b l ih =>
    have := b.isLt
    rw [natLE, List.length_cons, Nat.pow_succ]
    omega

theorem pkgField_lt (p : Pkg) (o n : Nat) : p.f o n < 256 ^ n :=
  Nat.lt_of_lt_of_le (natLE_lt _) (Nat.pow_le_pow_right (by decide) (List.length_take_le ..))

end Bytes

theorem get_of_reg_zero {s : State} {f : Fld} (h : s.reg f.addr = 0#32) : s.get f = 0 := by
  rw [State.get, h]
  simp [bitsOf]

theorem getB_of_reg_zero {s : State} {f : Fld} (h : s.reg f.addr = 0#32) : s.getB f = false := by
  rw [State.getB, get_of_reg_zero h]
  rfl

/-! ### Commands of FEN -/

section Fence
variable {s u : State} {e : Entry}

theorem ringG_fen_zero : ringG 0x0A 0 = 0xCA000100 := rfl

theorem ringG_fen {r : Nat} (h : 0 < r) : ringG 0x0A r = 0xCA000200 + 0x20 * ((r - 1) % 32) := by
  have hr : (decide (0x0A = 0x0A) && decide (1 ≤ r)) = true := by simpa using Nat.succ_le_of_lt h
  rw [ringG, if_pos hr, show blkBase 0x0A = 0xCA000000 from rfl, ← Nat.add_assoc]

/-- FEN's own fields are outside its ring groups. -/
theorem offRing_fenShowFlds {r : Nat} (hr : r ≤ 16) : offRing 0x0A r fenShowFlds := by
  have haddr : ∀ f ∈ fenShowFlds, f.addr < 0xCA000100 ∨ 0xCA000400 ≤ f.addr := by decide
  intro f hf
  have hring : 0xCA000100 ≤ ringG 0x0A r ∧ ringG 0x0A r + 0x20 ≤ 0xCA000400 := by
    rcases Nat.eq_zero_or_pos r with rfl | h
    · decide
    · rw [ringG_fen h]
      omega
  rcases haddr f hf with h | h <;> omega

/-- An opcode of the control ring, run there. -/
theorem controlRow_runs {opcode : Nat} (hready : s.ready 0x0A 0 0 e) (hh : s.blockHolds 0x0A 0 opcode = false) (op : Cmd → State → State) :
    s.runRow 0x0A 0 opcode 0 e (controlOnly op) = op (s.cmdOf 0x0A 0 e) (s.entryTaken 0x0A 0 opcode e) :=
  runRow_runs hready hh _

end Fence

/-! ### Packages load and unload (R351) -/

section Packages
variable {s : State} {e : Entry} {slot : Nat}

/-- The package that a load begins. -/
def State.loading (s : State) (a d id : Nat) : Pkg := { hdr := memBytes s.dram a 256, hdrAddr := a, dramAddr := d, load := some id }

/-- A load's range check (R351). -/
def State.loadOutside (s : State) (slot a d : Nat) (p : Pkg) : Bool :=
  7 < slot || a % 4096 ≠ 0 || d % 64 ≠ 0 || !s.inWins 0x0A a 256
    || (s.inWins 0x0A a 256 && (!s.inWins 0x0A (a + 256) p.sramW || (p.dramLen ≠ 0 && !s.inWins 0x0A d p.dramLen) || !p.rangeOk))

/-- FEN with another package in a slot. -/
def State.withPkg (slot : Nat) (p : Pkg) (s : State) : State := s.withFen { s.fen with pkgs := tput s.fen.pkgs slot p }

theorem opPkgLoad_eq (c : Cmd) (s : State) : opPkgLoad c s =
    (if s.busy 4 then c.finish 0x02 s
    else if s.loadOutside (c.arg 16 1) (c.arg 24 8) (c.arg 32 8) (s.loading (c.arg 24 8) (c.arg 32 8) c.id) then c.finish 0x05 s
    else if (tget s.fen.pkgs (c.arg 16 1)).isSome then c.finish 0x08 s
    else if !(s.loading (c.arg 24 8) (c.arg 32 8) c.id).formatOk then c.finish 0x0E s
    else if sramSize < (s.withPkg (c.arg 16 1) (s.loading (c.arg 24 8) (c.arg 32 8) c.id)).sramUsed then c.finish 0x20 s
    else (s.withPkg (c.arg 16 1) (s.loading (c.arg 24 8) (c.arg 32 8) c.id)).fenShow) := rfl

theorem loadOutside_false {a d : Nat} {p : Pkg} (hslots : slot ≤ 7) (haligned : a % 4096 = 0) (hdaligned : d % 64 = 0)
    (hhead : s.inWins 0x0A a 256 = true) (hbody : s.inWins 0x0A (a + 256) p.sramW = true)
    (hsection : p.dramLen = 0 ∨ s.inWins 0x0A d p.dramLen = true) (hrange : p.rangeOk = true) : s.loadOutside slot a d p = false := by
  rcases hsection with h | h <;> simp [State.loadOutside, hhead, hbody, h, hrange, haligned, hdaligned, hslots]

theorem packageLoads (ring : Fin 17) {e : Entry} {a d : Nat} (hready : s.ready 0x0A ring.val 0 e) (hring : ring.val = 0) (hbusy : s.busy 4 = false)
    (hslot : (s.cmdOf 0x0A ring.val e).arg 16 1 = slot) (ha : (s.cmdOf 0x0A ring.val e).arg 24 8 = a) (hd : (s.cmdOf 0x0A ring.val e).arg 32 8 = d)
    (hslots : slot ≤ 7) (haligned : a % 4096 = 0) (hdaligned : d % 64 = 0) (hhead : s.inWins 0x0A a 256 = true)
    (hbody : s.inWins 0x0A (a + 256) (natLE (memBytes s.dram (a + 28) 4)) = true)
    (hsection : natLE (memBytes s.dram (a + 40) 8) = 0 ∨ s.inWins 0x0A d (natLE (memBytes s.dram (a + 40) 8)) = true)
    (hrange : Pkg.rangeOk { hdr := memBytes s.dram a 256, hdrAddr := a, dramAddr := d, load := none } = true)
    (hformat : Pkg.formatOk { hdr := memBytes s.dram a 256, hdrAddr := a, dramAddr := d, load := none } = true)
    (hfree : tget s.fen.pkgs slot = none) (hfits : (s.withPkg slot (s.loading a d (s.ring 0x0A ring.val).nextId)).sramUsed ≤ 33554432) :
    ∃ t, exec (.pkgLoad ring e) s = .next t ∧ s.started 0x0A ring.val 1 e t ∧
      t.fen = { s.fen with pkgs := tput s.fen.pkgs slot (s.loading a d (s.ring 0x0A ring.val).nextId) } ∧
      t.getB (FEN_PKG.LOADED slot) = false ∧ s.only [.rings, .fen] fenShowFlds t := by
  obtain rfl : ring = 0 := Fin.ext hring
  obtain ⟨u, hu⟩ : ∃ u, u = s.entryTaken 0x0A 0 1 e := ⟨_, rfl⟩
  have hw : u.only [.fen] [] (u.withPkg slot (s.loading a d (s.ring 0x0A 0).nextId)) := only_withFen ..
  have htaken : s.only [.rings] [] u := hu ▸ only_entryTaken
  have hload : u.loading a d (s.cmdOf 0x0A 0 e).id = s.loading a d (s.ring 0x0A 0).nextId := by
    rw [State.loading, htaken.1 .dram (by simp)]
    rfl
  have hsramW : (s.loading a d (s.ring 0x0A 0).nextId).sramW = natLE (memBytes s.dram (a + 28) 4) := pkgField_memBytes rfl (by decide)
  have hdramLen : (s.loading a d (s.ring 0x0A 0).nextId).dramLen = natLE (memBytes s.dram (a + 40) 8) := pkgField_memBytes rfl (by decide)
  have hin : u.loadOutside slot a d (s.loading a d (s.ring 0x0A 0).nextId) = false := by
    rw [hu]
    exact loadOutside_false (s := s.entryTaken 0x0A 0 1 e) hslots haligned hdaligned hhead (by rw [hsramW]; exact hbody) (by rw [hdramLen]; exact hsection) hrange
  have hop : opPkgLoad (s.cmdOf 0x0A 0 e) u = (u.withPkg slot (s.loading a d (s.ring 0x0A 0).nextId)).fenShow := by
    have hfree' : (tget u.fen.pkgs slot).isSome = false := by rw [hu]; exact Option.isSome_eq_false_iff.2 (Option.isNone_iff_eq_none.2 hfree)
    have hfits' : (u.withPkg slot (s.loading a d (s.ring 0x0A 0).nextId)).sramUsed ≤ sramSize := by rw [hu]; exact hfits
    have hformat' : (s.loading a d (s.ring 0x0A 0).nextId).formatOk = true := hformat
    have hbusy' : u.busy 4 = false := by rw [hu]; exact hbusy
    rw [opPkgLoad_eq, show (s.cmdOf 0x0A 0 e).arg 16 1 = slot from hslot, show (s.cmdOf 0x0A 0 e).arg 24 8 = a from ha,
      show (s.cmdOf 0x0A 0 e).arg 32 8 = d from hd, hload, hin, hfree', hformat', hbusy']
    simp only [Bool.false_eq_true, Bool.not_true, if_false, if_neg (Nat.not_lt.2 hfits')]
  have hexec : exec (.pkgLoad 0 e) s = .next (u.withPkg slot (s.loading a d (s.ring 0x0A 0).nextId)).fenShow := by
    rw [← hop, hu]
    exact congrArg Host.Outcome.next (controlRow_runs hready rfl opPkgLoad)
  have hfen : (u.withPkg slot (s.loading a d (s.ring 0x0A 0).nextId)).fen =
      { s.fen with pkgs := tput s.fen.pkgs slot (s.loading a d (s.ring 0x0A 0).nextId) } := by rw [hu]; rfl
  have hnone : (u.withPkg slot (s.loading a d (s.ring 0x0A 0).nextId)).pkg slot = none := by
    rw [State.pkg, hfen, tget_tput_self]
    rfl
  generalize u.withPkg slot (s.loading a d (s.ring 0x0A 0).nextId) = v at hexec hfen hnone hw
  have honly := only_seq hw (only_fenShow v)
  refine ⟨_, hexec, ?_, (fen_fenShow v).trans hfen, ?_, only_mono (only_seq htaken honly) (by simp) (by simp)⟩
  · exact started_of_only (idle_of_ready hready) (hu ▸ honly) (by simp)
  · exact getB_of_reg_zero (f := FEN_PKG.LOADED slot) (fenShow_no_package (by omega) hnone).1

/-- FEN with a package usable: its body stands in SRAM, and no job of an earlier package in the slot counts as the last one's. -/
def FenState.usable (x : FenState) (slot : Nat) (p : Pkg) (body : List Byte) : FenState :=
  { x with
    pkgs := tput x.pkgs slot { p with load := none, body := body }
    lastPkg := if x.lastPkg = some slot then none else x.lastPkg }

def FenState.unloaded (x : FenState) (slot : Nat) : FenState := { x with pkgs := tdel x.pkgs slot }

/-- The digests of a package's header and of the body in memory match (R351). -/
def Pkg.verified (p : Pkg) (body : List Byte) : Prop := Config.sha384 body = p.f 64 48 ∧ Config.sha384 (p.hdr.take 208) = p.f 208 48

theorem execPkgLoadDone_eq {slot : Fin 8} {p : Pkg} {id : Nat} {body : List Byte} (hp : tget s.fen.pkgs slot.val = some p) (hload : p.load = some id)
    (hbody : memBytes s.dram (p.hdrAddr + 256) p.sramW = body) :
    (p.verified body → exec (.pkgLoadDone slot) s = .next (((s.withFen (s.fen.usable slot.val p body)).completeSelf 0x0A 0 id 0x00).fenShow)) ∧
      (¬ p.verified body → exec (.pkgLoadDone slot) s = .next (((s.withFen (s.fen.unloaded slot.val)).completeSelf 0x0A 0 id 0x24).fenShow)) := by
  have hexec : exec (.pkgLoadDone slot) s = execPkgLoadDone slot s := rfl
  simp only [hexec, execPkgLoadDone, hp, hload, hbody, Pkg.verified, Bool.and_eq_true, decide_eq_true_eq]
  exact ⟨fun h => if_pos h, fun h => if_neg h⟩

/-- A load in flight on the control ring ends, as FEN then shows it. -/
theorem loadEnds {x : Taken} {code : Nat} (hc : 0x0A * 256 + code < 2 ^ 16) (htaken : (s.ring 0x0A 0).taken = [x]) (f : FenState) :
    let t := ((s.withFen f).completeSelf 0x0A 0 x.id code).fenShow
    s.ended 0x0A 0 x code x.handle t ∧ s.dramKept (s.complAddr 0x0A 0) 16 t ∧ t.fen = f ∧
      s.only [.dram, .rings, .fen, .rcd, .cyc] (complFlds 0x0A 0 ++ fenShowFlds) t := by
  intro t
  obtain ⟨hended, hkept, honly⟩ := selfEnds_then (v := t) (by decide) hc htaken (only_withFen f s) (by simp) (by simp) (by simp) (by simp [offRing])
    (only_fenShow _) (by simp) (by simp) (offRing_fenShowFlds (by decide))
  exact ⟨hended, hkept, (fen_fenShow _).trans (completeSelf_fen ..), only_mono honly (by simp +contextual [or_imp]) (by simp)⟩

theorem packageLoaded (slot : Fin 8) {p : Pkg} {x : Taken} (hp : tget s.fen.pkgs slot.val = some p) (hload : p.load = some x.id)
    (htaken : (s.ring 0x0A 0).taken = [x]) : ∃ t, exec (.pkgLoadDone slot) s = .next t ∧
    (Config.sha384 (memBytes s.dram (p.hdrAddr + 256) p.sramW) = p.f 64 48 ∧ Config.sha384 (p.hdr.take 208) = p.f 208 48 →
      t.pkg slot.val = some { p with load := none, body := memBytes s.dram (p.hdrAddr + 256) p.sramW } ∧ s.ended 0x0A 0 x 0x00 x.handle t ∧ t.getB (FEN_PKG.LOADED slot.val) = true ∧ t.get (FEN_PKG_ID.PKG_ID slot.val) = p.id ∧ t.fen.lastPkg = (if s.fen.lastPkg = some slot.val then none else s.fen.lastPkg)) ∧
    (¬(Config.sha384 (memBytes s.dram (p.hdrAddr + 256) p.sramW) = p.f 64 48 ∧ Config.sha384 (p.hdr.take 208) = p.f 208 48) →
      tget t.fen.pkgs slot.val = none ∧ s.ended 0x0A 0 x 0x24 x.handle t ∧ t.reg (FEN_PKG slot.val) = 0#32) ∧
    s.dramKept (s.complAddr 0x0A 0) 16 t ∧ s.only [.dram, .rings, .fen, .rcd, .cyc] (complFlds 0x0A 0 ++ fenShowFlds) t := by
  obtain ⟨hgood, hbad⟩ := execPkgLoadDone_eq hp hload rfl
  by_cases hv : p.verified (memBytes s.dram (p.hdrAddr + 256) p.sramW)
  · obtain ⟨hended, hkept, hfen, honly⟩ := loadEnds (code := 0x00) (by decide) htaken (s.fen.usable slot.val p (memBytes s.dram (p.hdrAddr + 256) p.sramW))
    have hpkg : ((s.withFen (s.fen.usable slot.val p (memBytes s.dram (p.hdrAddr + 256) p.sramW))).completeSelf 0x0A 0 x.id 0x00).pkg slot.val =
        some { p with load := none, body := memBytes s.dram (p.hdrAddr + 256) p.sramW } := by
      rw [State.pkg, completeSelf_fen, fen_withFen, FenState.usable, tget_tput_self]
      rfl
    obtain ⟨hloaded, -, hid⟩ := fenShow_package slot.isLt hpkg
    exact ⟨_, hgood hv, fun _ => ⟨(pkg_congr (fen_fenShow _) _).trans hpkg, hended, hloaded, hid.trans (Nat.mod_eq_of_lt (pkgField_lt p 8 4)),
      congrArg FenState.lastPkg hfen⟩, fun h => absurd hv h, hkept, honly⟩
  · obtain ⟨hended, hkept, hfen, honly⟩ := loadEnds (code := 0x24) (by decide) htaken (s.fen.unloaded slot.val)
    have hnone : ((s.withFen (s.fen.unloaded slot.val)).completeSelf 0x0A 0 x.id 0x24).pkg slot.val = none := by
      rw [State.pkg, completeSelf_fen, fen_withFen, FenState.unloaded, tget_tdel_self]
    exact ⟨_, hbad hv, fun h => absurd h hv, fun _ => ⟨by rw [hfen]; exact tget_tdel_self .., hended, (fenShow_no_package slot.isLt hnone).1⟩, hkept, honly⟩

/-- FEN with a slot emptied by PKG_UNLOAD. -/
def FenState.emptied (x : FenState) (slot : Nat) : FenState :=
  { x with pkgs := tdel x.pkgs slot, lastPkg := if x.lastPkg = some slot then none else x.lastPkg }

theorem opPkgUnload_eq (c : Cmd) (s : State) : opPkgUnload c s =
    (if s.busy 4 then c.finish 0x02 s
    else if 7 < c.arg 16 1 then c.finish 0x05 s
    else if s.fen.streams.any (fun x => x.2.slot = c.arg 16 1) then c.finish 0x21 s
    else if (s.pkg (c.arg 16 1)).isNone then c.finish 0x25 s
    else c.finish 0x00 (s.withFen (s.fen.emptied (c.arg 16 1))).fenShow) := rfl

/-- Registers that FEN shows stand when its command ends. -/
theorem reg_fen_finish {c : Cmd} {u : State} {code a : Nat} (hblk : c.blk = 0x0A) (hr : c.ring ≤ 16) (hl : 0xCA000400 ≤ a) (hu : a < 0xCB000000) :
    (c.finish code u).reg a = u.reg a := by
  have hr' : c.ring < ringCount c.blk := by rw [hblk]; exact Nat.lt_succ_of_le hr
  refine reg_of_get (get_completeId (g := wordAt a) _ _ hr' (apart_complFlds_of_addr ?_ ?_ ?_))
  · rw [hblk]
    simp only [wordAt, CRING_PI]
    rcases Nat.eq_zero_or_pos c.ring with h | h
    · rw [h, ringG_fen_zero]; omega
    · rw [ringG_fen h]; omega
  · simp only [wordAt, FEN_JOB_PEND]; omega
  · simp only [wordAt, windowOf]; omega

theorem packageUnloads (ring : Fin 17) (hready : s.ready 0x0A ring.val 0 e) (hring : ring.val = 0) (hbusy : s.busy 4 = false)
    (hslot : (s.cmdOf 0x0A ring.val e).arg 16 1 = slot) (hslots : slot ≤ 7) (hpkg : (s.pkg slot).isSome = true)
    (hunused : (s.fen.streams.any fun x => decide (x.2.slot = slot)) = false) : ∃ t, exec (.pkgUnload ring e) s = .next t ∧
    s.completed 0x0A ring.val e 0x00 e.handle.toNat t ∧ s.dramKept (s.complAddr 0x0A ring.val) 16 t ∧
    t.fen = { s.fen with pkgs := tdel s.fen.pkgs slot, lastPkg := if s.fen.lastPkg = some slot then none else s.fen.lastPkg } ∧
    t.reg (FEN_PKG slot) = 0#32 ∧ t.reg (FEN_PKG_ID slot) = 0#32 ∧ s.only [.dram, .rings, .fen, .rcd, .cyc] (complFlds 0x0A ring.val ++ fenShowFlds) t := by
  obtain rfl : ring = 0 := Fin.ext hring
  obtain ⟨u, hu⟩ : ∃ u, u = s.entryTaken 0x0A 0 2 e := ⟨_, rfl⟩
  have hfen : u.fen = s.fen := by rw [hu]; rfl
  have hop : opPkgUnload (s.cmdOf 0x0A 0 e) u = (s.cmdOf 0x0A 0 e).finish 0x00 (u.withFen (s.fen.emptied slot)).fenShow := by
    have hbusy' : u.busy 4 = false := by rw [hu]; exact hbusy
    have hpkg' : (u.pkg slot).isNone = false := by rw [pkg_congr hfen]; simpa [Option.isSome_iff_ne_none] using hpkg
    rw [opPkgUnload_eq, show (s.cmdOf 0x0A 0 e).arg 16 1 = slot from hslot, hfen, hpkg', hbusy', hunused]
    simp only [Bool.false_eq_true, if_false, if_neg (Nat.not_lt.2 hslots)]
  have hexec : exec (.pkgUnload 0 e) s = .next ((s.cmdOf 0x0A 0 e).finish 0x00 (u.withFen (s.fen.emptied slot)).fenShow) := by
    rw [← hop, hu]
    exact congrArg Host.Outcome.next (controlRow_runs hready rfl opPkgUnload)
  have hnone : (u.withFen (s.fen.emptied slot)).pkg slot = none := by
    rw [State.pkg, fen_withFen, FenState.emptied, tget_tdel_self]
  have hwork := only_seq (only_withFen (s.fen.emptied slot) u) (only_fenShow _)
  obtain ⟨hzero, hzero'⟩ := fenShow_no_package (Nat.lt_succ_of_le hslots) hnone
  have hfen' : (u.withFen (s.fen.emptied slot)).fenShow.fen = s.fen.emptied slot := fen_fenShow _
  generalize (u.withFen (s.fen.emptied slot)).fenShow = v at hexec hzero hzero' hwork hfen'
  rw [hu] at hwork
  obtain ⟨hdone, hkept, honly⟩ := ends_behind (code := 0) (h := e.handle.toNat) (by decide) (idle_of_ready hready) (by decide) hwork (by simp) (by simp)
    (by simp) (offRing_fenShowFlds (by decide))
  refine ⟨_, hexec, hdone, hkept, ?_, ?_, ?_, only_mono honly (by simp) (by simp)⟩
  · exact (same_completeId (b := 0x0A) (r := 0) (c := .fen) _ _ (by decide) (by simp)).trans hfen'
  · exact (reg_fen_finish rfl (Nat.zero_le 16) (by simp only [FEN_PKG]; omega) (by simp only [FEN_PKG]; omega)).trans hzero
  · exact (reg_fen_finish rfl (Nat.zero_le 16) (by simp only [FEN_PKG_ID]; omega) (by simp only [FEN_PKG_ID]; omega)).trans hzero'

theorem loadOnJobRing (ring : Fin 17) (hready : s.ready 0x0A ring.val 0 e) (hring : ring.val ≠ 0) :
    ∃ t, exec (.pkgLoad ring e) s = .next t ∧ s.completed 0x0A ring.val e 0x05 e.handle.toNat t ∧
    s.dramKept (s.complAddr 0x0A ring.val) 16 t ∧ s.only [.dram, .rings, .rcd, .cyc] (complFlds 0x0A ring.val) t := by
  have hrow : s.runRow 0x0A ring.val 1 0 e (controlOnly opPkgLoad) = (s.cmdOf 0x0A ring.val e).finish 0x05 (s.entryTaken 0x0A ring.val 1 e) :=
    (runRow_runs hready rfl _).trans (if_neg hring)
  obtain ⟨hdone, hkept, honly⟩ := ends_behind (opcode := 1) (code := 5) (h := e.handle.toNat) (ring_lt_of_ready hready) (idle_of_ready hready) (by decide)
    (only_refl _ [] []) (by simp) (by simp) (by simp) (by simp [offRing])
  exact ⟨_, congrArg Host.Outcome.next hrow, hdone, hkept, only_mono honly (by simp) (by simp)⟩

/-! ### SRAM errors (R347) -/

theorem sramCorrected (s : State) : ∃ t, exec .fenSramCorrected s = .next t ∧ t.get FEN_CNT.CORR = min 255 (s.get FEN_CNT.CORR + 1) ∧ s.raised 195 t ∧
    s.only [.rcd, .cyc] (FEN_CNT.CORR :: raiseFlds 195) t := by
  have hset := only_set s (f := FEN_CNT.CORR) (satTo (2 ^ 8 - 1) (s.get FEN_CNT.CORR + 1)) (Nat.le_of_ble_eq_true rfl)
  obtain ⟨hraised, honly⟩ := raise_behind 195 hset (by simp) (windows_all rfl)
  refine ⟨_, rfl, (get_raise_outside _ _ (by decide)).trans ?_, hraised, honly⟩
  rw [get_bump_self _ _ _ (Nat.le_of_ble_eq_true rfl), satTo_eq_min]
  rfl

/-- The package whose body an uncorrectable error hit is marked. -/
def State.sramMarked (slot : Option (Fin 8)) (s : State) : State :=
  match slot with
  | some k =>
    match s.pkg k.val with
    | some p => s.withPkg k.val { p with fault := true }
    | none => s
  | none => s

/-- The job that runs ends with 0x27. -/
def State.sramHalted (s : State) : State :=
  match s.fen.run with
  | some r => s.jobEnd r.stream 0x27
  | none => s

theorem execSramUe_eq (slot : Option (Fin 8)) (s : State) : exec (.sramUe slot) s = .next ((((s.sramMarked slot).sramHalted).raise 196).fenShow) := rfl

theorem sramMarked_some {k : Fin 8} {p : Pkg} (hp : s.pkg k.val = some p) : s.sramMarked (some k) = s.withPkg k.val { p with fault := true } := by
  rw [State.sramMarked, hp]

theorem packageFaults (k : Fin 8) {p : Pkg} (hp : s.pkg k.val = some p) (hidle : s.fen.run = none) : ∃ t, exec (.sramUe (some k)) s = .next t ∧
    s.raised 196 t ∧ t.fen = { s.fen with pkgs := tput s.fen.pkgs k.val { p with fault := true } } ∧
    t.getB (FEN_PKG.FAULT k.val) = true ∧ s.only [.fen, .rcd, .cyc] (fenShowFlds ++ raiseFlds 196) t := by
  have hexec : exec (.sramUe (some k)) s = .next (((s.withPkg k.val { p with fault := true }).raise 196).fenShow) := by
    rw [execSramUe_eq, sramMarked_some hp, State.sramHalted, show (s.withPkg k.val { p with fault := true }).fen.run = none from hidle]
  have hwith : s.only [.fen] [] (s.withPkg k.val { p with fault := true }) := only_withFen ..
  obtain ⟨hraised, honly⟩ := raise_behind 196 hwith (by simp) (by simp)
  have hfen : ((s.withPkg k.val { p with fault := true }).raise 196).fen = { s.fen with pkgs := tput s.fen.pkgs k.val { p with fault := true } } :=
    (only_raise _ 196).1 .fen (by simp)
  have hload : p.load = none := by
    simp only [State.pkg] at hp
    split at hp
    · next q hq =>
      split at hp
      · next hl => cases hp; exact Option.isNone_iff_eq_none.1 hl
      · cases hp
    · cases hp
  have hpkg : ((s.withPkg k.val { p with fault := true }).raise 196).pkg k.val = some { p with fault := true } := by
    rw [State.pkg, hfen, tget_tput_self]
    simp [hload]
  generalize (s.withPkg k.val { p with fault := true }).raise 196 = u at hexec hraised honly hfen hpkg
  obtain ⟨-, hfault, -⟩ := fenShow_package k.isLt hpkg
  exact ⟨_, hexec, raised_then hraised (only_fenShow u) (fun f hf => by rw [window_fenShowFlds f hf]; decide), (fen_fenShow u).trans hfen, hfault,
    only_mono (only_seq honly (only_fenShow u)) (by simp) (by simp +contextual [or_imp])⟩

end Packages

end Sys2Proof.Machine
end

section
/-! PROOFS. FEN's streams (R352 to R354): they are created, destroyed, and leave their ring and requester free. -/

namespace Sys2Proof.Machine

/-! ### A requester's release (R359) -/

section Release
variable {i : Nat} {s u : State}

/-- The fields that the release of requester `i` can write. -/
def releaseFlds (i : Nat) (s : State) : List Fld :=
  ARB_REQ.PEND i :: grantFlds (arbOf i) (s.arbOwner (arbOf i)) ++ ARB_STAT.DRAINED (arbOf i) :: raiseFlds (210 + arbOf i)

theorem only_arbRelease (i : Nat) (s : State) : s.only [.arb, .rcd, .cyc] (releaseFlds i s) (s.arbRelease i) := by
  rw [arbRelease_eq]
  split
  · rw [arbFree_eq]
    exact only_mono (only_seq (only_seq (only_grantEnded _ s) (only_arbDrained _ _)) (only_unrequested i _)) (by simp +contextual [or_imp])
      (by simp +contextual [releaseFlds, or_imp])
  · exact only_mono (only_unrequested i s) (by simp) (by simp [releaseFlds])

theorem window_grantFlds (a i : Nat) : ∀ f ∈ grantFlds a i, windowOf f.addr = 0xCB := by
  intro f hf
  simp only [grantFlds, List.mem_append, List.mem_cons, List.not_mem_nil, or_false] at hf
  rcases hf with (rfl | rfl | rfl) | hf
  · exact window_arbStat a
  · exact window_arbStat a
  · exact window_arbStat a
  · split at hf
    · rw [List.mem_singleton.1 hf]
      decide
    · cases hf

/-- A release writes ARB's registers and its event's. -/
theorem window_releaseFlds (i : Nat) (s : State) : ∀ f ∈ releaseFlds i s, windowOf f.addr = 0xCB ∨ windowOf f.addr = 0xC1 := by
  intro f hf
  simp only [releaseFlds, List.cons_append, List.mem_cons, List.mem_append] at hf
  rcases hf with rfl | hf | rfl | hf
  · exact .inl (window_arbReq i)
  · exact .inl (window_grantFlds _ _ f hf)
  · exact .inl (window_arbStat _)
  · exact .inr (window_raiseFlds f hf)

/-- A requester that released its grant does not hold it. -/
theorem arbRelease_shows (i : Nat) (s : State) : (s.arbRelease i).arbHolds i = false ∧ (s.arbRelease i).arb.since = tdel s.arb.since i ∧
    (s.arbRelease i).getB (ARB_REQ.PEND i) = false := by
  rw [arbRelease_eq]
  obtain ⟨harb, hpend⟩ := unrequested_reads i (if s.arbHolds i then s.arbFree (arbOf i) else s)
  refine ⟨?_, ?_, hpend⟩
  · have hholds := arbHolds_of_only (k := i) (only_unrequested i (if s.arbHolds i then s.arbFree (arbOf i) else s)) fun f hf => by
      rw [List.mem_singleton.1 hf]
      exact ⟨.inl (arbStat_ne_arbReq _ _), .inl (arbStat_ne_arbReq _ _)⟩
    rw [hholds]
    split
    · simp [State.arbHolds, arbGranted_arbFree]
    · next h => simpa using h
  · rw [harb]
    split
    · rw [arb_arbFree]
    · rfl

/-- A requester without a grant only withdraws its request. -/
theorem arbRelease_waiting (h : s.arbHolds i = false) : s.arbRelease i = s.unrequested i := by
  rw [arbRelease_eq, if_neg (by simp [h])]

end Release

/-! ### What a stream's end does (R354) -/

section StreamEnd
variable {s u : State} {x r : Nat} {q : FenStream}

/-- The running job of stream `x` halts. -/
def State.runStopped (x : Nat) (s : State) : State :=
  if s.fen.run.any (fun (r : FenRun) => r.stream = x) then s.withFen { s.fen with run := none } else s

/-- The stream is no more. -/
def State.strGone (x : Nat) (s : State) : State := s.withFen { s.fen with streams := tdel s.fen.streams x }

/-- The stream's jobs complete with STREAM_GONE. -/
def State.jobsGone (q : FenStream) (s : State) : State := q.jobs.foldl (fun s j => s.completeSelf 0x0A q.ring j.id 0x26) s

theorem strEnd_eq (hq : tget s.fen.streams x = some q) :
    s.strEnd x = ((((s.runStopped x).arbRelease q.req).jobsGone q).strGone x).ringZero 0x0A q.ring := by
  simp only [State.strEnd, hq]
  rfl

theorem only_runStopped (x : Nat) (s : State) : s.only [.fen] [] (s.runStopped x) := by
  unfold State.runStopped
  split
  · exact only_withFen ..
  · exact only_refl ..

theorem streams_runStopped (x : Nat) (s : State) : (s.runStopped x).fen.streams = s.fen.streams ∧ (s.runStopped x).fen.pkgs = s.fen.pkgs := by
  unfold State.runStopped
  split <;> exact ⟨rfl, rfl⟩

/-- The indices of a ring. -/
def ringIdxFlds (b r : Nat) : List Fld := [RING_PI b r, RING_CI b r, CRING_PI b r, CRING_CI b r]

/-- The four indices of a ring at 0. -/
def State.indicesZero (b r : Nat) (s : State) : State := (((s.set (RING_PI b r) 0).set (RING_CI b r) 0).set (CRING_PI b r) 0).set (CRING_CI b r) 0

theorem ringZero_eq (b r : Nat) (s : State) :
    s.ringZero b r = (s.indicesZero b r).setRing b r { (s.indicesZero b r).ring b r with seq := 0 } := rfl

theorem only_indicesZero (b r : Nat) (s : State) : s.only [] (ringIdxFlds b r) (s.indicesZero b r) :=
  only_then_set (only_then_set (only_then_set (only_then_set (only_refl s _ _) 0 (by simp [ringIdxFlds]) (Nat.le_of_ble_eq_true rfl)) 0
    (by simp [ringIdxFlds]) (Nat.le_of_ble_eq_true rfl)) 0 (by simp [ringIdxFlds]) (Nat.le_of_ble_eq_true rfl)) 0 (by simp [ringIdxFlds])
    (Nat.le_of_ble_eq_true rfl)

theorem only_ringZero (b r : Nat) (s : State) : s.only [.rings] (ringIdxFlds b r) (s.ringZero b r) := by
  rw [ringZero_eq]
  exact only_mono (only_seq (only_indicesZero b r s) (only_setRing _ b r _)) (by simp) (by simp)

theorem get_ringZero {f : Fld} (hf : f ∈ ringIdxFlds 0x0A r) : (s.ringZero 0x0A r).get f = 0 := by
  have hempty := emptyRing_empty 0x0A r s
  have hregs : (s.ringZero 0x0A r).get f = (s.emptyRing 0x0A r).get f := get_of_regs rfl f
  rw [hregs]
  simp only [ringIdxFlds, List.mem_cons, List.not_mem_nil, or_false] at hf
  rcases hf with rfl | rfl | rfl | rfl
  · exact hempty.pi
  · exact hempty.ci
  · exact hempty.cpi
  · exact hempty.cci

theorem ring_ringZero (b r : Nat) (s : State) : (s.ringZero b r).ring b r = { s.ring b r with seq := 0 } := by
  rw [ringZero_eq, ring_setRing_self, ring_of_rings ((only_indicesZero b r s).1 .rings (by simp))]

theorem ring_ringZero_ne {b r c k : Nat} (h : c * 32 + k ≠ b * 32 + r) (s : State) : (s.ringZero b r).ring c k = s.ring c k := by
  rw [ringZero_eq, ring_setRing_ne _ _ h, ring_of_rings ((only_indicesZero b r s).1 .rings (by simp))]

theorem addr_ringIdxFlds {r : Nat} (hl : 1 ≤ r) (hu : r ≤ 16) : ∀ f ∈ ringIdxFlds 0x0A r, 0xCA000200 ≤ f.addr ∧ f.addr < 0xCA000400 := by
  intro f hf
  simp only [ringIdxFlds, RING_PI, RING_CI, CRING_PI, CRING_CI, List.mem_cons, List.not_mem_nil, or_false, ringG_fen hl] at hf
  rcases hf with rfl | rfl | rfl | rfl <;> dsimp only <;> omega

/-- The stream gone and its ring at 0, as FEN then shows it. -/
def State.strClosed (x r : Nat) (s : State) : State := ((s.strGone x).ringZero 0x0A r).fenShow

theorem only_strClosed (x r : Nat) (s : State) : s.only [.fen, .rings] (ringIdxFlds 0x0A r ++ fenShowFlds) (s.strClosed x r) :=
  only_mono (only_seq (only_seq (only_withFen _ s) (only_ringZero 0x0A r _)) (only_fenShow _)) (by simp) (by simp)

theorem strClosed_shows (hl : 1 ≤ r) (hu : r ≤ 16) (x : Nat) (s : State) :
    (∀ f ∈ ringIdxFlds 0x0A r, (s.strClosed x r).get f = 0) ∧ (s.strClosed x r).ring 0x0A r = { s.ring 0x0A r with seq := 0 } ∧
      (∀ k, k < 32 → k ≠ r → (s.strClosed x r).ring 0x0A k = s.ring 0x0A k) ∧
      (s.strClosed x r).fen = { s.fen with streams := tdel s.fen.streams x } := by
  have hshow := only_fenShow ((s.strGone x).ringZero 0x0A r)
  have hrings := hshow.1 .rings (by simp)
  have hfen : ((s.strGone x).ringZero 0x0A r).fen = { s.fen with streams := tdel s.fen.streams x } := (only_ringZero 0x0A r (s.strGone x)).1 .fen (by simp)
  refine ⟨fun f hf => ?_, ?_, fun k hk hne => ?_, (fen_fenShow _).trans hfen⟩
  · rw [State.strClosed, ← get_ringZero (s := s.strGone x) hf]
    refine hshow.2.1 f fun g hg => .inl ?_
    have haddr : ∀ f ∈ fenShowFlds, f.addr < 0xCA000100 ∨ 0xCA000400 ≤ f.addr := by decide
    have := addr_ringIdxFlds hl hu f hf
    have := haddr g hg
    omega
  · rw [State.strClosed, ring_of_rings hrings, ring_ringZero]
    rfl
  · rw [State.strClosed, ring_of_rings hrings, ring_ringZero_ne (by omega)]
    rfl

end StreamEnd

end Sys2Proof.Machine
end

section
/-! PROOFS. FEN: STREAM_CREATE, STREAM_DESTROY, the end of a running job and the disabling (R351 to R354, R358, R366), and the statement of
chapter 16 on packages and streams. -/

namespace Sys2Proof.Machine

/-! ### STREAM_CREATE (R351 to R353) -/

section Create
variable {s u : State} {e : Entry} {x : Nat}

/-- Registers that FEN shows stand when a command of FEN ends. -/
theorem reg_fen_completeId {r id reason h a : Nat} (hr : r ≤ 16) (hl : 0xCA000400 ≤ a) (hu : a < 0xCB000000) :
    (u.completeId 0x0A r id reason h).reg a = u.reg a := by
  refine reg_of_get (get_completeId (g := wordAt a) _ _ (Nat.lt_succ_of_le hr) (apart_complFlds_of_addr ?_ ?_ ?_))
  · simp only [wordAt, CRING_PI]
    rcases Nat.eq_zero_or_pos r with h | h
    · rw [h, ringG_fen_zero]; omega
    · rw [ringG_fen h]; omega
  · simp only [wordAt, FEN_JOB_PEND]; omega
  · simp only [wordAt, windowOf]; omega

/-- The stream that a STREAM_CREATE asks for. -/
def Cmd.stream (c : Cmd) : FenStream := { ring := c.arg 16 1, slot := c.arg 17 1, kind := c.arg 18 1, req := hIndex (c.arg 20 4) }

/-- The stream made. -/
def State.strMade (x : Nat) (q : FenStream) (s : State) : State := ((s.setStr x q).advGen 5 x).fenShow

/-- The last checks of a STREAM_CREATE: the package. -/
def State.strPackaged (c : Cmd) (x : Nat) (s : State) : State :=
  match s.pkg (c.arg 17 1) with
  | none => c.failed 0x25 s
  | some p =>
    if !bitAt p.inKinds (c.arg 18 1) then c.failed 0x23 s
    else if p.fault then c.failed 0x25 s
    else c.created (((s.setStr x c.stream).advGen 5 x).handle 5 x) (s.strMade x c.stream)

theorem opStreamCreate_eq (c : Cmd) (hx : tfree s.fen.streams 16 = some x) : opStreamCreate c s =
    (if s.busy 4 then c.failed 0x02 s
    else if (s.checkHandle 0x0D s.reqLive (c.arg 20 4)).isSome then c.failed 0x03 s
    else if 7 < c.arg 17 1 || c.arg 16 1 = 0 || 16 < c.arg 16 1 || 2 < c.arg 18 1 then c.failed 0x05 s
    else if 20 ≤ hIndex (c.arg 20 4) || s.reqBound (hIndex (c.arg 20 4)) then c.failed 0x08 s
    else if (s.pkg (c.arg 17 1)).isSome && sramSize < (s.setStr x c.stream).sramUsed then c.failed 0x20 s
    else if !s.ringUsed 0x0A (c.arg 16 1) || (s.strOnRing (c.arg 16 1)).isSome then c.failed 0x22 s
    else s.strPackaged c x) := by
  unfold opStreamCreate
  rw [hx]
  rfl

theorem only_strMade (x : Nat) (q : FenStream) (s : State) : s.only [.fen, .gens] fenShowFlds (s.strMade x q) :=
  only_mono (only_seq (only_seq (only_withFen _ s) (only_advGen 5 x _)) (only_fenShow _)) (by simp) (by simp)

theorem strMade_shows (hx : x < 16) {q : FenStream} (s : State) (hring : q.ring ≤ 16) (hslot : q.slot ≤ 7) :
    (s.strMade x q).fen = { s.fen with streams := tput s.fen.streams x q } ∧ (s.strMade x q).getB (FEN_STR.LIVE x) = true ∧
      (s.strMade x q).get (FEN_STR.RING x) = q.ring ∧ (s.strMade x q).get (FEN_STR.SLOT x) = q.slot ∧ (s.strMade x q).gen 5 x = (s.gen 5 x + 1) % 1024 := by
  have hfen : ((s.setStr x q).advGen 5 x).fen = { s.fen with streams := tput s.fen.streams x q } := rfl
  obtain ⟨hlive, hr, hs, -⟩ := fenShow_stream (s := (s.setStr x q).advGen 5 x) (q := q) hx (by rw [hfen]; exact tget_tput_self ..)
  have hgen := gen_of_gens ((only_fenShow ((s.setStr x q).advGen 5 x)).1 .gens (by simp)) 5 x
  exact ⟨(fen_fenShow _).trans hfen, hlive, hr.trans (Nat.mod_eq_of_lt (by omega)), hs.trans (Nat.mod_eq_of_lt (by omega)),
    hgen.trans (gen_advGen 5 x (s.setStr x q))⟩

theorem tfree_lt {α : Type} {t : Tbl α} {n : Nat} (h : tfree t n = some x) : x < n := List.mem_range.1 (List.mem_of_find?_eq_some h)

section Accepted
variable {c : Cmd} {p : Pkg}

/-- A STREAM_CREATE that meets no code of R351 and R353. -/
structure State.strAllowed (s : State) (c : Cmd) (p : Pkg) : Prop where
  busy : s.busy 4 = false
  handle : s.checkHandle 0x0D s.reqLive (c.arg 20 4) = none
  slot : c.arg 17 1 ≤ 7
  ring : c.arg 16 1 ≠ 0 ∧ c.arg 16 1 ≤ 16
  kind : c.arg 18 1 ≤ 2
  req : hIndex (c.arg 20 4) < 20
  unbound : s.reqBound (hIndex (c.arg 20 4)) = false
  pkg : s.pkg (c.arg 17 1) = some p
  used : s.ringUsed 0x0A (c.arg 16 1) = true
  unused : s.strOnRing (c.arg 16 1) = none
  kindOk : bitAt p.inKinds (c.arg 18 1) = true
  sound : p.fault = false

theorem opStreamCreate_allowed (h : s.strAllowed c p) (hx : tfree s.fen.streams 16 = some x) (hfits : (s.setStr x c.stream).sramUsed ≤ sramSize) :
    opStreamCreate c s = c.created ((s.strMade x c.stream).handle 5 x) (s.strMade x c.stream) := by
  obtain ⟨hr0, hr16⟩ := h.ring
  have hranges : (decide (7 < c.arg 17 1) || decide (c.arg 16 1 = 0) || decide (16 < c.arg 16 1) || decide (2 < c.arg 18 1)) = false := by
    simp [h.slot, hr0, hr16, h.kind]
  have hbound : (decide (20 ≤ hIndex (c.arg 20 4)) || s.reqBound (hIndex (c.arg 20 4))) = false := by simp [h.unbound, h.req]
  have hsram : ((s.pkg (c.arg 17 1)).isSome && decide (sramSize < (s.setStr x c.stream).sramUsed)) = false := by simp [Nat.not_lt.2 hfits]
  have hrings : (!s.ringUsed 0x0A (c.arg 16 1) || (s.strOnRing (c.arg 16 1)).isSome) = false := by simp [h.used, h.unused]
  have hgens : (s.strMade x c.stream).handle 5 x = ((s.setStr x c.stream).advGen 5 x).handle 5 x := handle_of_gens ((only_fenShow _).1 .gens (by simp)) 5 x
  rw [opStreamCreate_eq c hx, h.busy, h.handle, hranges, hbound, hsram, hrings, State.strPackaged, h.pkg, hgens]
  simp only [Option.isSome_none, Bool.false_eq_true, if_false, h.kindOk, h.sound, Bool.not_true]

theorem strAllowed_entryTaken (h : s.strAllowed c p) (opcode : Nat) : (s.entryTaken 0x0A 0 opcode e).strAllowed c p :=
  { h with handle := (checkHandle_entryTaken fun _ => rfl).trans h.handle }

theorem streamMade {e : Entry} (hready : s.ready 0x0A 0 0 e) (hallowed : s.strAllowed (s.cmdOf 0x0A 0 e) p) (hx : tfree s.fen.streams 16 = some x)
    (hfits : (s.setStr x (s.cmdOf 0x0A 0 e).stream).sramUsed ≤ sramSize) : ∃ t, exec (.fenStreamCreate 0 e) s = .next t ∧
    s.completed 0x0A 0 e 0x00 (t.handle 5 x) t ∧ s.dramKept (s.complAddr 0x0A 0) 16 t ∧ t.gen 5 x = (s.gen 5 x + 1) % 1024 ∧
    t.fen = { s.fen with streams := tput s.fen.streams x (s.cmdOf 0x0A 0 e).stream } ∧ t.getB (FEN_STR.LIVE x) = true ∧
    t.get (FEN_STR.RING x) = (s.cmdOf 0x0A 0 e).arg 16 1 ∧ t.get (FEN_STR.SLOT x) = (s.cmdOf 0x0A 0 e).arg 17 1 ∧
    s.only [.dram, .rings, .gens, .fen, .rcd, .cyc] (complFlds 0x0A 0 ++ fenShowFlds) t := by
  have hop := opStreamCreate_allowed (s := s.entryTaken 0x0A 0 3 e) (strAllowed_entryTaken hallowed 3) hx hfits
  have hexec : exec (.fenStreamCreate 0 e) s = .next _ := congrArg Host.Outcome.next ((controlRow_runs hready rfl opStreamCreate).trans hop)
  obtain ⟨hfen, hlive, hsr, hss, hgen⟩ := strMade_shows (tfree_lt hx) (q := (s.cmdOf 0x0A 0 e).stream) (s.entryTaken 0x0A 0 3 e) hallowed.ring.2 hallowed.slot
  have hwork := only_strMade x (s.cmdOf 0x0A 0 e).stream (s.entryTaken 0x0A 0 3 e)
  generalize (s.entryTaken 0x0A 0 3 e).strMade x (s.cmdOf 0x0A 0 e).stream = v at hexec hfen hlive hsr hss hgen hwork
  rw [created_eq] at hexec
  obtain ⟨hdone, hkept, honly⟩ := ends_behind (b := 0x0A) (r := 0) (code := 0) (h := v.handle 5 x) (by decide) (idle_of_ready hready) (by decide) hwork
    (by simp) (by simp) (by simp) (offRing_fenShowFlds (by decide))
  have hgens := same_completeId (u := v) (b := 0x0A) (r := 0) (c := .gens) (s.cmdOf 0x0A 0 e).id (0x0A * 256 + 0) (h := v.handle 5 x) (by decide) (by simp)
  have hstr : (v.completeId 0x0A 0 (s.cmdOf 0x0A 0 e).id (0x0A * 256 + 0) (v.handle 5 x)).reg (FEN_STR x) = v.reg (FEN_STR x) :=
    reg_fen_completeId (Nat.zero_le 16) (by simp only [FEN_STR]; omega) (by simp only [FEN_STR]; omega)
  refine ⟨_, hexec, ?_, hkept, ?_, ?_, ?_, ?_, ?_, only_mono honly (by simp +contextual [or_imp]) (by simp)⟩
  · rw [handle_of_gens hgens 5 x]
    exact hdone
  · exact (gen_of_gens hgens 5 x).trans hgen
  · exact (same_completeId (u := v) (b := 0x0A) (r := 0) (c := .fen) _ _ (by decide) (by simp)).trans hfen
  · exact (getB_congr _ hstr).trans hlive
  · exact (get_congr _ hstr).trans hsr
  · exact (get_congr _ hstr).trans hss

end Accepted

theorem streamCreated (ring : Fin 17) {r slot kind i : Nat} {p : Pkg} (hready : s.ready 0x0A ring.val 0 e) (hring : ring.val = 0) (hbusy : s.busy 4 = false)
    (hx : tfree s.fen.streams 16 = some x) (hr : (s.cmdOf 0x0A ring.val e).arg 16 1 = r) (hslot : (s.cmdOf 0x0A ring.val e).arg 17 1 = slot)
    (hkind : (s.cmdOf 0x0A ring.val e).arg 18 1 = kind) (hhandle : s.checkHandle 0x0D s.reqLive ((s.cmdOf 0x0A ring.val e).arg 20 4) = none)
    (hi : hIndex ((s.cmdOf 0x0A ring.val e).arg 20 4) = i) (hslots : slot ≤ 7) (hr0 : r ≠ 0) (hr16 : r ≤ 16) (hkinds : kind ≤ 2) (hi20 : i < 20)
    (hunbound : s.reqBound i = false) (hpkg : s.pkg slot = some p)
    (hfits : (s.setStr x { ring := r, slot := slot, kind := kind, req := i }).sramUsed ≤ 33554432) (hused : s.ringUsed 0x0A r = true)
    (hon : s.strOnRing r = none) (hkindOk : bitAt p.inKinds kind = true) (hfault : p.fault = false) : ∃ t, exec (.fenStreamCreate ring e) s = .next t ∧
    s.completed 0x0A ring.val e 0x00 (t.handle 5 x) t ∧ s.dramKept (s.complAddr 0x0A ring.val) 16 t ∧ t.gen 5 x = (s.gen 5 x + 1) % 1024 ∧
    t.fen = { s.fen with streams := tput s.fen.streams x { ring := r, slot := slot, kind := kind, req := i } } ∧ t.getB (FEN_STR.LIVE x) = true ∧
    t.get (FEN_STR.RING x) = r ∧ t.get (FEN_STR.SLOT x) = slot ∧
    s.only [.dram, .rings, .gens, .fen, .rcd, .cyc] (complFlds 0x0A ring.val ++ fenShowFlds) t := by
  obtain rfl : ring = 0 := Fin.ext hring
  subst hr hslot hkind hi
  exact streamMade hready ⟨hbusy, hhandle, hslots, ⟨hr0, hr16⟩, hkinds, hi20, hunbound, hpkg, hused, hon, hkindOk, hfault⟩ hx hfits

end Create

end Sys2Proof.Machine
end

section
/-! PROOFS. FEN: STREAM_DESTROY (R354). -/

namespace Sys2Proof.Machine

section Destroy
variable {s u w : State} {e : Entry} {x r : Nat} {q : FenStream} {ps : List Comp} {fs : List Fld}

theorem opStreamDestroy_live {c : Cmd} (hbusy : s.busy 4 = false) (hhandle : s.checkHandle 5 s.strLive c.handle = none) (hx : hIndex c.handle = x)
    (hq : tget s.fen.streams x = some q) :
    opStreamDestroy c s = c.finish 0x00 ((((s.runStopped x).arbRelease q.req).jobsGone q).strClosed x q.ring) := by
  simp only [opStreamDestroy, hbusy, hhandle, hx, Bool.false_eq_true, if_false, strEnd_eq hq]
  rfl

/-- The ring of a stream is not the control ring, in its registers. -/
theorem ringIdx_apart_complFlds (hl : 1 ≤ r) (hu : r ≤ 16) {f : Fld} (hf : f ∈ ringIdxFlds 0x0A r) : ∀ g ∈ complFlds 0x0A 0, f.apart g := by
  have haddr := addr_ringIdxFlds hl hu f hf
  refine apart_complFlds_of_addr ?_ ?_ ?_
  · simp only [CRING_PI, ringG_fen_zero]; omega
  · simp only [FEN_JOB_PEND]; omega
  · simp only [windowOf]; omega

theorem offRing_zero_ringIdx (hl : 1 ≤ r) (hu : r ≤ 16) : offRing 0x0A 0 (ringIdxFlds 0x0A r) := by
  intro f hf
  have haddr := addr_ringIdxFlds hl hu f hf
  rw [ringG_fen_zero]
  omega

/-- STREAM_DESTROY behind the release and the jobs' ends: the stream is gone, its ring stands at 0 and the command ends. -/
theorem destroyEnds (hidle : (s.ring 0x0A 0).taken = []) (hl : 1 ≤ r) (hu : r ≤ 16) (hw : (s.entryTaken 0x0A 0 4 e).only ps fs w) (hltc : .ltc ∉ ps)
    (hring : w.ring 0x0A 0 = (s.entryTaken 0x0A 0 4 e).ring 0x0A 0) (hoff : offRing 0x0A 0 fs) :
    let t := (s.cmdOf 0x0A 0 e).finish 0x00 (w.strClosed x r)
    s.completed 0x0A 0 e 0x00 e.handle.toNat t ∧ w.dramKept (s.complAddr 0x0A 0) 16 t ∧ (∀ f ∈ ringIdxFlds 0x0A r, t.get f = 0) ∧
      t.ring 0x0A r = { w.ring 0x0A r with seq := 0 } ∧ t.fen = { w.fen with streams := tdel w.fen.streams x } ∧
      w.only [.dram, .rings, .fen, .rcd, .cyc] (complFlds 0x0A 0 ++ ringIdxFlds 0x0A r ++ fenShowFlds) t := by
  intro t
  obtain ⟨hzero, hringr, hringk, hfen⟩ := strClosed_shows (s := w) hl hu x
  have hclosed := only_strClosed x r w
  have hkeep : (w.strClosed x r).ring 0x0A 0 = (s.entryTaken 0x0A 0 4 e).ring 0x0A 0 := (hringk 0 (by decide) (by omega)).trans hring
  have hoff' : offRing 0x0A 0 (ringIdxFlds 0x0A r ++ fenShowFlds) := by
    intro f hf
    rcases List.mem_append.1 hf with hf | hf
    · exact offRing_zero_ringIdx hl hu f hf
    · exact offRing_fenShowFlds (by decide) f hf
  have hsame := sameCompletion_trans (sameCompletion_of_ring (b := 0x0A) (r := 0) hw hltc hring hoff)
    (sameCompletion_of_ring hclosed (by simp) (hringk 0 (by decide) (by omega)) hoff')
  obtain ⟨hdone, hkept⟩ := finishes (code := 0x00) (by decide) (by decide) hidle hsame hkeep
  have htring : t.ring 0x0A r = (w.strClosed x r).ring 0x0A r := ring_completeId_ne (b := 0x0A) (r := 0) (by omega) _ _ _ _
  have honly := only_completeId (s := w.strClosed x r) (b := 0x0A) (r := 0) (s.cmdOf 0x0A 0 e).id (0x0A * 256 + 0x00) e.handle.toNat (by decide)
  refine ⟨hdone, dramKept_of_dram (hclosed.1 .dram (by simp)) hkept, fun f hf => ?_, htring.trans hringr, ?_, ?_⟩
  · exact (get_completeId _ _ (by decide) (ringIdx_apart_complFlds hl hu hf)).trans (hzero f hf)
  · exact (honly.1 .fen (by simp)).trans hfen
  · exact only_mono (only_seq hclosed honly) (by simp) (by simp +contextual [or_imp])

/-- The stream's run halted and its requester released, before its jobs end. -/
def State.strReleased (x : Nat) (q : FenStream) (s : State) : State := (s.runStopped x).unrequested q.req

theorem arbRelease_runStopped (h : s.arbHolds q.req = false) : (s.runStopped x).arbRelease q.req = s.strReleased x q :=
  arbRelease_waiting ((arbHolds_of_only (only_runStopped x s) (by simp)).trans h)

theorem only_strReleased (x : Nat) (q : FenStream) (s : State) : s.only [.fen, .arb] [ARB_REQ.PEND q.req] (s.strReleased x q) :=
  only_mono (only_seq (only_runStopped x s) (only_unrequested q.req _)) (by simp) (by simp)

theorem strReleased_shows (x : Nat) (q : FenStream) (s : State) : (s.strReleased x q).arb = { s.arb with since := tdel s.arb.since q.req } ∧
    (s.strReleased x q).getB (ARB_REQ.PEND q.req) = false ∧ (s.strReleased x q).fen.streams = s.fen.streams ∧ (s.strReleased x q).fen.pkgs = s.fen.pkgs := by
  obtain ⟨harb, hpend⟩ := unrequested_reads q.req (s.runStopped x)
  obtain ⟨hstreams, hpkgs⟩ := streams_runStopped x s
  have hfen : (s.strReleased x q).fen = (s.runStopped x).fen := (only_unrequested q.req _).1 .fen (by simp)
  exact ⟨harb.trans (by rw [(only_runStopped x s).1 .arb (by simp)]), hpend, (congrArg FenState.streams hfen).trans hstreams,
    (congrArg FenState.pkgs hfen).trans hpkgs⟩

theorem offRing_pend (r i : Nat) (hr : r ≤ 16) : offRing 0x0A r [ARB_REQ.PEND i] := by
  intro f hf
  rw [List.mem_singleton.1 hf, show (ARB_REQ.PEND i).addr = ARB_REQ i from rfl]
  have hring : ringG 0x0A r + 0x20 ≤ 0xCA000400 := by
    rcases Nat.eq_zero_or_pos r with rfl | h
    · decide
    · rw [ringG_fen h]; omega
  simp only [ARB_REQ]
  omega

theorem window_ringFen (hu : r ≤ 16) : ∀ a, ringG 0x0A r ≤ a → a < ringG 0x0A r + 0x20 → windowOf a = 0xCA := by
  intro a ha hb
  have hring : 0xCA000100 ≤ ringG 0x0A r ∧ ringG 0x0A r + 0x20 ≤ 0xCA000400 := by
    rcases Nat.eq_zero_or_pos r with rfl | h
    · decide
    · rw [ringG_fen h]; omega
  simp only [windowOf]
  omega

theorem window_ringIdxFlds (hu : r ≤ 16) : ∀ f ∈ ringIdxFlds 0x0A r, windowOf f.addr = 0xCA := by
  intro f hf
  simp only [ringIdxFlds, RING_PI, RING_CI, CRING_PI, CRING_CI, List.mem_cons, List.not_mem_nil, or_false] at hf
  rcases hf with rfl | rfl | rfl | rfl <;> exact window_ringFen hu _ (by dsimp only; omega) (by dsimp only; omega)

/-- A completion of FEN writes FEN's registers and its event's. -/
theorem window_complFlds_fen (hu : r ≤ 16) : ∀ f ∈ complFlds 0x0A r, windowOf f.addr ≠ 0xCB := by
  intro f hf
  rcases List.mem_cons.1 hf with rfl | hf
  · rw [window_ringIdxFlds hu (CRING_PI 0x0A r) (by simp [ringIdxFlds])]; decide
  · rcases List.mem_cons.1 hf with rfl | hf
    · exact show windowOf FEN_JOB_PEND ≠ 0xCB by decide
    · rw [window_raiseFlds f hf]; decide

theorem window_destroyFlds (hu : r ≤ 16) : ∀ f ∈ complFlds 0x0A 0 ++ ringIdxFlds 0x0A r ++ fenShowFlds, windowOf f.addr ≠ 0xCB := by
  intro f hf
  rcases List.mem_append.1 hf with hf | hf
  · rcases List.mem_append.1 hf with hf | hf
    · exact window_complFlds_fen (by decide) f hf
    · rw [window_ringIdxFlds hu f hf]; decide
  · rw [window_fenShowFlds f hf]; decide

/-- The fields of the destroyed stream's ring do not hold ARB's. -/
theorem arb_apart_destroyFlds {f : Fld} (hf : windowOf f.addr = 0xCB) (hu : r ≤ 16) :
    ∀ g ∈ complFlds 0x0A 0 ++ ringIdxFlds 0x0A r ++ fenShowFlds, f.apart g :=
  apart_of_window fun g hg => by rw [hf]; exact window_destroyFlds hu g hg

/-- The grant shown in ARB_STAT is apart from fields outside ARB's window. -/
theorem stat_apart {fs : List Fld} (h : ∀ f ∈ fs, windowOf f.addr ≠ 0xCB) (a : Nat) :
    ∀ f ∈ fs, (ARB_STAT.GRANTED a).apart f ∧ (ARB_STAT.OWNER a).apart f := by
  intro f hf
  have hne : ARB_STAT a ≠ f.addr := fun he => h f hf (he ▸ window_arbStat a)
  exact ⟨.inl hne, .inl hne⟩

theorem strHandle_entryTaken {opcode k : Nat} (h : s.checkHandle 5 s.strLive e.handle.toNat = none) :
    (s.entryTaken 0x0A k opcode e).checkHandle 5 (s.entryTaken 0x0A k opcode e).strLive (s.cmdOf 0x0A k e).handle = none :=
  (checkHandle_entryTaken fun _ => rfl).trans h

/-- STREAM_DESTROY, run on the control ring. -/
theorem execStreamDestroy_eq (hready : s.ready 0x0A 0 0 e) (hbusy : s.busy 4 = false) (hhandle : s.checkHandle 5 s.strLive e.handle.toNat = none)
    (hx : hIndex e.handle.toNat = x) (hq : tget s.fen.streams x = some q) (hno : s.arbHolds q.req = false) :
    exec (.fenStreamDestroy 0 e) s =
      .next ((s.cmdOf 0x0A 0 e).finish 0x00 ((((s.entryTaken 0x0A 0 4 e).strReleased x q).jobsGone q).strClosed x q.ring)) := by
  have hop := opStreamDestroy_live (s := s.entryTaken 0x0A 0 4 e) (c := s.cmdOf 0x0A 0 e) hbusy (strHandle_entryTaken hhandle) hx hq
  rw [arbRelease_runStopped (show (s.entryTaken 0x0A 0 4 e).arbHolds q.req = false from hno)] at hop
  exact congrArg Host.Outcome.next ((controlRow_runs hready rfl opStreamDestroy).trans hop)

theorem streamDestroyed (ring : Fin 17) (hready : s.ready 0x0A ring.val 0 e) (hring : ring.val = 0) (hbusy : s.busy 4 = false)
    (hhandle : s.checkHandle 5 s.strLive e.handle.toNat = none) (hx : hIndex e.handle.toNat = x) (hq : tget s.fen.streams x = some q) (hjobs : q.jobs = [])
    (hl : 1 ≤ q.ring) (hu : q.ring ≤ 16) (hno : s.arbHolds q.req = false) : ∃ t, exec (.fenStreamDestroy ring e) s = .next t ∧
    s.completed 0x0A ring.val e 0x00 e.handle.toNat t ∧ s.dramKept (s.complAddr 0x0A ring.val) 16 t ∧ tget t.fen.streams x = none ∧ t.fen.pkgs = s.fen.pkgs ∧
    t.get (RING_PI 0x0A q.ring) = 0 ∧ t.get (RING_CI 0x0A q.ring) = 0 ∧ t.get (CRING_PI 0x0A q.ring) = 0 ∧ t.get (CRING_CI 0x0A q.ring) = 0 ∧ (t.ring 0x0A q.ring).seq = 0 ∧
    t.arb = { s.arb with since := tdel s.arb.since q.req } ∧ t.getB (ARB_REQ.PEND q.req) = false ∧
    s.only [.dram, .rings, .fen, .arb, .rcd, .cyc] (complFlds 0x0A ring.val ++ fenShowFlds ++ [ARB_REQ.PEND q.req, RING_PI 0x0A q.ring, RING_CI 0x0A q.ring, CRING_PI 0x0A q.ring, CRING_CI 0x0A q.ring]) t := by
  obtain rfl : ring = 0 := Fin.ext hring
  have hexec := execStreamDestroy_eq hready hbusy hhandle hx hq hno
  rw [State.jobsGone, hjobs, List.foldl_nil] at hexec
  have hwork := only_strReleased x q (s.entryTaken 0x0A 0 4 e)
  obtain ⟨harb, hpend, -, hpkgs⟩ := strReleased_shows x q (s.entryTaken 0x0A 0 4 e)
  generalize (s.entryTaken 0x0A 0 4 e).strReleased x q = w at hexec hwork harb hpend hpkgs
  obtain ⟨hdone, hkept, hzero, hseq, hfen, honly⟩ := destroyEnds (x := x) (idle_of_ready hready) hl hu hwork (by simp)
    (ring_of_rings (hwork.1 .rings (by simp)) 0x0A 0) (offRing_pend 0 _ (by decide))
  refine ⟨_, hexec, hdone, dramKept_of_dram (hwork.1 .dram (by simp)) hkept, ?_, ?_, hzero _ (by simp [ringIdxFlds]), hzero _ (by simp [ringIdxFlds]),
    hzero _ (by simp [ringIdxFlds]), hzero _ (by simp [ringIdxFlds]), ?_, ?_, ?_, ?_⟩
  · rw [hfen]
    exact tget_tdel_self ..
  · exact (congrArg FenState.pkgs hfen).trans hpkgs
  · exact congrArg Ring.seq hseq
  · exact (honly.1 .arb (by simp)).trans harb
  · exact (getB_of_only honly (arb_apart_destroyFlds (window_arbReq _) hu)).trans hpend
  · refine only_mono (only_seq (only_seq only_entryTaken hwork) honly) (by simp) ?_
    simp +contextual [or_imp, ringIdxFlds]

/-- The stream's one job ends with STREAM_GONE. -/
theorem jobsGone_one {j : FenJob} {y : Taken} (hl : 1 ≤ q.ring) (hu : q.ring ≤ 16) (hjobs : q.jobs = [j]) (hv : s.only ps fs u) (hltc : .ltc ∉ ps)
    (hring : u.ring 0x0A q.ring = s.ring 0x0A q.ring) (hdram : .dram ∉ ps) (hoff : offRing 0x0A q.ring fs) (htaken : (s.ring 0x0A q.ring).taken = [y])
    (hid : y.id = j.id) : s.ended 0x0A q.ring y 0x26 y.handle (u.jobsGone q) ∧ s.dramKept (s.complAddr 0x0A q.ring) 16 (u.jobsGone q) ∧
      u.only [.dram, .rings, .rcd, .cyc] (complFlds 0x0A q.ring) (u.jobsGone q) ∧ (u.jobsGone q).ring 0x0A 0 = u.ring 0x0A 0 := by
  have hgone : u.jobsGone q = u.completeSelf 0x0A q.ring y.id 0x26 := by rw [State.jobsGone, hjobs, hid]; rfl
  obtain ⟨hended, hkept⟩ := selfEnds_of (code := 0x26) (b := 0x0A) (r := q.ring) (Nat.lt_succ_of_le hu) (by decide) (hring ▸ htaken)
    (sameCompletion_of_ring hv hltc hring hoff)
  rw [hgone]
  refine ⟨hended, dramKept_of_dram (hv.1 .dram hdram) hkept, only_completeSelf _ (Nat.lt_succ_of_le hu), ring_completeId_ne (by omega) _ _ _ _⟩

theorem offRing_zero_complFlds (hl : 1 ≤ r) (hu : r ≤ 16) : offRing 0x0A 0 (complFlds 0x0A r) := by
  intro f hf
  rw [ringG_fen_zero]
  rcases List.mem_cons.1 hf with rfl | hf
  · have := addr_ringIdxFlds hl hu (CRING_PI 0x0A r) (by simp [ringIdxFlds])
    omega
  · rcases List.mem_cons.1 hf with rfl | hf
    · exact .inl (show FEN_JOB_PEND < 0xCA000100 by decide)
    · have := window_raiseFlds f hf
      simp only [windowOf] at this
      omega

theorem streamDestroyedWithJob (ring : Fin 17) {j : FenJob} {y : Taken} (hready : s.ready 0x0A ring.val 0 e) (hring : ring.val = 0) (hbusy : s.busy 4 = false)
    (hhandle : s.checkHandle 5 s.strLive e.handle.toNat = none) (hx : hIndex e.handle.toNat = x) (hq : tget s.fen.streams x = some q) (hjobs : q.jobs = [j])
    (hl : 1 ≤ q.ring) (hu : q.ring ≤ 16) (hno : s.arbHolds q.req = false) (htaken : (s.ring 0x0A q.ring).taken = [y]) (hid : y.id = j.id)
    (hapart : s.complAddr 0x0A ring.val + 16 ≤ s.complAddr 0x0A q.ring ∨ s.complAddr 0x0A q.ring + 16 ≤ s.complAddr 0x0A ring.val) :
    ∃ t, exec (.fenStreamDestroy ring e) s = .next t ∧
    s.completed 0x0A ring.val e 0x00 e.handle.toNat t ∧ memBytes t.dram (s.complAddr 0x0A q.ring) 8 = bytesLE 8 y.tag ∧ memNat t.dram (s.complAddr 0x0A q.ring + 12) 2 = 0x0A26 ∧ (t.ring 0x0A q.ring).taken = [] ∧
    tget t.fen.streams x = none ∧ t.get (CRING_PI 0x0A q.ring) = 0 ∧ t.arbHolds q.req = false ∧
    (∀ a, (a < s.complAddr 0x0A ring.val ∨ s.complAddr 0x0A ring.val + 16 ≤ a) → (a < s.complAddr 0x0A q.ring ∨ s.complAddr 0x0A q.ring + 16 ≤ a) → memByte t.dram a = memByte s.dram a) ∧
    s.within [.dram, .cyc, .rings, .fen, .arb, .rcd] (some [0xC1, 0xCA, 0xCB]) t := by
  obtain rfl : ring = 0 := Fin.ext hring
  have hexec := execStreamDestroy_eq hready hbusy hhandle hx hq hno
  have hwithin := within_of (execFenStreamDestroy_mut 0 e s _ hexec)
  have hreleased := only_strReleased x q (s.entryTaken 0x0A 0 4 e)
  generalize (s.entryTaken 0x0A 0 4 e).strReleased x q = w at hexec hwithin hreleased
  have hwork := only_seq only_entryTaken hreleased
  have hwring : w.ring 0x0A q.ring = s.ring 0x0A q.ring :=
    (ring_of_rings (hreleased.1 .rings (by simp)) _ _).trans (ring_entryTaken_ne (by omega))
  obtain ⟨hended, hgone, hjobsOnly, hzeroRing⟩ := jobsGone_one hl hu hjobs hwork (by simp) hwring (by simp) (by simpa using offRing_pend q.ring q.req hu) htaken hid
  generalize w.jobsGone q = v at hexec hwithin hended hgone hjobsOnly hzeroRing
  have hwork' := only_seq hreleased hjobsOnly
  have hoff : offRing 0x0A 0 ([ARB_REQ.PEND q.req] ++ complFlds 0x0A q.ring) := fun f hf =>
    (List.mem_append.1 hf).elim (offRing_pend 0 q.req (by decide) f) (offRing_zero_complFlds hl hu f)
  obtain ⟨hdone, hkept, hzero, hring', hfen, honly⟩ := destroyEnds (x := x) (idle_of_ready hready) hl hu hwork' (by simp)
    (hzeroRing.trans (ring_of_rings (hreleased.1 .rings (by simp)) 0x0A 0)) hoff
  obtain ⟨hempty, htag, -, hreason, -, -⟩ := hended
  generalize (s.cmdOf 0x0A 0 e).finish 0x00 (v.strClosed x q.ring) = t at hexec hwithin hdone hkept hzero hring' hfen honly
  have hholds : t.arbHolds q.req = s.arbHolds q.req :=
    (arbHolds_of_only honly (stat_apart (window_destroyFlds hu) _)).trans ((arbHolds_of_only hjobsOnly (stat_apart (window_complFlds_fen hu) _)).trans
      (arbHolds_of_only hwork fun f hf => by
        rw [List.mem_singleton.1 hf]
        exact ⟨.inl (arbStat_ne_arbReq _ _), .inl (arbStat_ne_arbReq _ _)⟩))
  have haway : s.complAddr 0x0A 0 + 16 ≤ s.complAddr 0x0A q.ring ∨ s.complAddr 0x0A q.ring + 16 ≤ s.complAddr 0x0A 0 := hapart
  refine ⟨_, hexec, hdone, ?_, ?_, ?_, ?_, hzero _ (by simp [ringIdxFlds]), ?_, ?_, hwithin⟩
  · exact (memBytes_of_dramKept hkept (by omega)).trans htag
  · exact (memNat_of_dramKept hkept (by omega)).trans hreason
  · rw [hring']
    exact hempty
  · rw [hfen]
    exact tget_tdel_self ..
  · exact hholds.trans hno
  · intro a h0 hr
    exact (hkept a h0).trans (hgone a hr)

end Destroy

end Sys2Proof.Machine
end

section
/-! PROOFS. FEN: the end of a running job (R347, R358) and the disabling (R366), and the statement of chapter 16 on packages and streams. -/

namespace Sys2Proof.Machine

/-! ### A running job ends (R358) -/

section JobEnd
variable {s : State} {x code : Nat} {q : FenStream} {j : FenJob} {y : Taken}

/-- The input areas of a stream without the one of an ended job. -/
def FenStream.areasLeft (q : FenStream) (j : FenJob) : Tbl (List (List Byte)) :=
  match j.frame with
  | some k => tdel q.areas k
  | none => q.areas

/-- A stream whose one job has ended. -/
def FenStream.jobDone (q : FenStream) (j : FenJob) : FenStream := { q with jobs := [], jseq := (q.jseq + 1) % 2 ^ 32, areas := q.areasLeft j }

/-- FEN with the one job of a stream ended. -/
def FenState.jobDone (f : FenState) (x : Nat) (q : FenStream) (j : FenJob) : FenState :=
  { f with streams := tput f.streams x (q.jobDone j), run := none }

/-- The job's end after its requester's release. -/
def State.jobReleased (x : Nat) (q : FenStream) (j : FenJob) (s : State) : State := (s.withFen (s.fen.jobDone x q j)).arbRelease q.req

theorem fenRequest_idle {t : FenStream} (hq : tget s.fen.streams x = some t) (hjobs : t.jobs = []) : s.fenRequest x = s := by
  simp only [State.fenRequest, hq, hjobs]

theorem fen_jobReleased (x : Nat) (q : FenStream) (j : FenJob) (s : State) : (s.jobReleased x q j).fen = s.fen.jobDone x q j :=
  (only_arbRelease q.req _).1 .fen (by simp)

theorem jobEnd_one (hq : tget s.fen.streams x = some q) (hjobs : q.jobs = [j]) :
    s.jobEnd x code = ((s.jobReleased x q j).completeSelf 0x0A q.ring j.id code).fenShow := by
  have hidle : ((s.jobReleased x q j).completeSelf 0x0A q.ring j.id code).fenRequest x = (s.jobReleased x q j).completeSelf 0x0A q.ring j.id code :=
    fenRequest_idle (t := q.jobDone j) (by rw [completeSelf_fen, fen_jobReleased]; exact tget_tput_self ..) rfl
  rw [← hidle]
  simp only [State.jobEnd, hq, hjobs]
  rfl

theorem offRing_releaseFlds {r : Nat} (hr : r ≤ 16) (i : Nat) (s : State) : offRing 0x0A r (releaseFlds i s) := by
  intro f hf
  have hring : 0xCA000100 ≤ ringG 0x0A r ∧ ringG 0x0A r + 0x20 ≤ 0xCA000400 := by
    rcases Nat.eq_zero_or_pos r with rfl | h
    · decide
    · rw [ringG_fen h]; omega
  rcases window_releaseFlds i s f hf with hw | hw <;> simp only [windowOf] at hw <;> omega

/-- What FEN and ARB show once the one job of a stream has ended. -/
theorem jobEnd_shows (hq : tget s.fen.streams x = some q) (hjobs : q.jobs = [j]) (hr : q.ring ≤ 16) (hc : 0x0A * 256 + code < 2 ^ 16)
    (htaken : (s.ring 0x0A q.ring).taken = [y]) (hid : y.id = j.id) :
    let t := s.jobEnd x code
    s.ended 0x0A q.ring y code y.handle t ∧ s.dramKept (s.complAddr 0x0A q.ring) 16 t ∧ t.fen = s.fen.jobDone x q j ∧ t.arbHolds q.req = false ∧
      tget t.arb.since q.req = none ∧ (x < 16 → t.get (FEN_STR_JSEQ.JSEQ x) = (q.jseq + 1) % 2 ^ 32) ∧
      s.only [.dram, .rings, .fen, .arb, .rcd, .cyc] (complFlds 0x0A q.ring ++ releaseFlds q.req s ++ fenShowFlds) t := by
  intro t
  have ht : t = ((s.jobReleased x q j).completeSelf 0x0A q.ring y.id code).fenShow := by rw [hid]; exact jobEnd_one hq hjobs
  have hrelease : (s.withFen (s.fen.jobDone x q j)).only [.arb, .rcd, .cyc] (releaseFlds q.req s) (s.jobReleased x q j) := only_arbRelease q.req _
  have hwork := only_seq (only_withFen (s.fen.jobDone x q j) s) hrelease
  obtain ⟨hended, hkept, honly⟩ := selfEnds_then (code := code) (Nat.lt_succ_of_le hr) hc htaken hwork (by simp) (by simp) (by simp)
    (offRing_releaseFlds hr _ _) (only_fenShow _) (by simp) (by simp) (offRing_fenShowFlds hr)
  have hfen := fen_jobReleased x q j s
  obtain ⟨hholds, hsince, -⟩ := arbRelease_shows q.req (s.withFen (s.fen.jobDone x q j))
  have hcompl := only_completeSelf (s := s.jobReleased x q j) (b := 0x0A) (r := q.ring) (code := code) y.id (Nat.lt_succ_of_le hr)
  have hshow := only_fenShow ((s.jobReleased x q j).completeSelf 0x0A q.ring y.id code)
  have hfen' : ((s.jobReleased x q j).completeSelf 0x0A q.ring y.id code).fen = s.fen.jobDone x q j := (completeSelf_fen ..).trans hfen
  rw [ht]
  refine ⟨hended, hkept, (fen_fenShow _).trans hfen', ?_, ?_, fun hx => ?_, only_mono honly (by simp +contextual [or_imp]) (by simp)⟩
  · exact (arbHolds_of_only hshow (stat_apart (fun f hf => by rw [window_fenShowFlds f hf]; decide) _)).trans
      ((arbHolds_of_only hcompl (stat_apart (window_complFlds_fen hr) _)).trans hholds)
  · have harb : (((s.jobReleased x q j).completeSelf 0x0A q.ring y.id code).fenShow).arb = (s.jobReleased x q j).arb :=
      (hshow.1 .arb (by simp)).trans (hcompl.1 .arb (by simp))
    rw [harb, State.jobReleased, hsince]
    exact tget_tdel_self ..
  · obtain ⟨-, -, -, hjseq⟩ := fenShow_stream (s := (s.jobReleased x q j).completeSelf 0x0A q.ring y.id code) (q := q.jobDone j) hx
      (by rw [hfen']; exact tget_tput_self ..)
    exact hjseq.trans (Nat.mod_mod ..)

/-- FEN's completions raise 192 or 193. -/
theorem offSource_complFlds_fen {r n : Nat} (hr : r ≤ 16) (hn : n % 384 ≠ 192 ∧ n % 384 ≠ 193) : offSource n (complFlds 0x0A r) := by
  have hsource : complSource 0x0A r % 384 ≠ n % 384 := by
    simp only [complSource]
    split <;> omega
  refine offSource_cons ?_ (offSource_cons (show windowOf FEN_JOB_PEND ≠ 0xC1 by decide) (offSource_raiseFlds hsource))
  rw [window_ringIdxFlds hr (CRING_PI 0x0A r) (by simp [ringIdxFlds])]
  decide

/-- A release raises 210 or 211. -/
theorem offSource_releaseFlds {n : Nat} (i : Nat) (s : State) (hn : n % 384 ≠ 210 ∧ n % 384 ≠ 211) : offSource n (releaseFlds i s) := by
  have harb := arbOf_lt i
  refine offSource_append (fs := ARB_REQ.PEND i :: grantFlds (arbOf i) (s.arbOwner (arbOf i))) (offSource_of_window fun f hf => ?_) (offSource_cons ?_ (offSource_raiseFlds (by omega)))
  · rcases List.mem_cons.1 hf with rfl | hf
    · rw [show (ARB_REQ.PEND i).addr = ARB_REQ i from rfl, window_arbReq]; decide
    · rw [window_grantFlds _ _ f hf]; decide
  · exact window_drained _

/-- An uncorrectable SRAM error ends the job that runs (R347). -/
theorem runningJobFails {r : FenRun} (hrun : s.fen.run = some r) (hq : tget s.fen.streams r.stream = some q) (hjobs : q.jobs = [j])
    (htaken : (s.ring 0x0A q.ring).taken = [y]) (hid : y.id = j.id) (hr : q.ring ≤ 16) :
    ∃ t, exec (.sramUe none) s = .next t ∧ s.raised 196 t ∧ s.ended 0x0A q.ring y 0x27 y.handle t ∧ t.fen.run = none ∧ (tget t.fen.streams r.stream).map (·.jobs) = some [] ∧
    (tget t.fen.streams r.stream).map (·.jseq) = some ((q.jseq + 1) % 2 ^ 32) ∧ t.arbHolds q.req = false ∧
    s.dramKept (s.complAddr 0x0A q.ring) 16 t ∧ s.within [.dram, .cyc, .rings, .fen, .arb, .rcd] (some [0xC1, 0xCA, 0xCB]) t := by
  have hexec : exec (.sramUe none) s = .next ((s.jobEnd r.stream 0x27).raise 196).fenShow := by
    rw [execSramUe_eq, State.sramMarked, State.sramHalted, hrun]
  have hwithin := within_of (execSramUe_mut none s _ hexec)
  obtain ⟨hended, hkept, hfen, hholds, -, -, honly⟩ := jobEnd_shows (code := 0x27) hq hjobs hr (by decide) htaken hid
  have hraised : s.raised 196 ((s.jobEnd r.stream 0x27).raise 196) :=
    raised_behind honly (by simp) (offSource_append (offSource_append (offSource_complFlds_fen hr (by decide)) (offSource_releaseFlds _ _ (by decide)))
      (offSource_of_window fun f hf => by rw [window_fenShowFlds f hf]; decide))
  generalize s.jobEnd r.stream 0x27 = u at hexec hwithin hended hkept hfen hholds hraised
  have hraise := only_raise u 196
  have hshow := only_fenShow (u.raise 196)
  have hfen' : (u.raise 196).fenShow.fen = s.fen.jobDone r.stream q j := ((fen_fenShow _).trans (hraise.1 .fen (by simp))).trans hfen
  have hoff : offRing 0x0A q.ring (raiseFlds 196) := by
    intro f hf
    have hw := window_raiseFlds f hf
    have hring : 0xCA000100 ≤ ringG 0x0A q.ring := (ringG_bounds (b := 0x0A) (Nat.lt_succ_of_le hr)).1
    simp only [windowOf] at hw
    omega
  refine ⟨_, hexec, raised_then hraised hshow fun f hf => by rw [window_fenShowFlds f hf]; decide, ?_, ?_, ?_, ?_, ?_, ?_, hwithin⟩
  · exact ended_then (ended_then hended hraise (by simp) (by simp) hoff) hshow (by simp) (by simp) (offRing_fenShowFlds hr)
  · rw [hfen']; rfl
  · rw [hfen', FenState.jobDone, tget_tput_self]; rfl
  · rw [hfen', FenState.jobDone, tget_tput_self]; rfl
  · exact (arbHolds_of_only hshow (stat_apart (fun f hf => by rw [window_fenShowFlds f hf]; decide) _)).trans
      ((arbHolds_of_only hraise (stat_apart (fun f hf => by rw [window_raiseFlds f hf]; decide) _)).trans hholds)
  · exact dramKept_then (dramKept_then hkept (hraise.1 .dram (by simp)).symm) (hshow.1 .dram (by simp)).symm

end JobEnd

/-! ### Disabling (R366) -/

section Disable
variable {s : State} {b r : Nat}

/-- FEN_CTRL is no register of a completion. -/
theorem fenCtrl_writeCompletion (y : Taken) (reason h : Nat) (s : State) : (s.writeCompletion 0x0A r y reason h).reg FEN_CTRL = s.reg FEN_CTRL := by
  have hpi : FEN_CTRL ≠ (CRING_PI 0x0A r).addr := by
    rcases Nat.eq_zero_or_pos r with rfl | hr
    · decide
    · simp only [CRING_PI, ringG_fen hr, FEN_CTRL]; omega
  have hstored : (s.completionStored 0x0A r y reason h).reg FEN_CTRL = s.reg FEN_CTRL := reg_set_ne _ _ hpi
  have hevent (u : State) : (u.completionEvent 0x0A r).reg FEN_CTRL = u.reg FEN_CTRL := by
    have hraise (n : Nat) (v : State) : (v.raise n).reg FEN_CTRL = v.reg FEN_CTRL := reg_raise_ne v (notMem_raiseRegs rfl (by decide))
    simp only [State.completionEvent]
    split
    · exact hraise _ _
    · split
      · rfl
      · exact (hraise _ _).trans (reg_set_ne u _ (show FEN_CTRL ≠ FEN_JOB_PEND by decide))
  by_cases hev : y.irq = true ∨ reason % 256 ≠ 0
  · rw [writeCompletion_event y reason h hev, hevent, hstored]
  · rw [writeCompletion_quiet y reason h (by simpa using hev), hstored]

theorem fenCtrl_completeSelf (id code : Nat) (s : State) : (s.completeSelf 0x0A r id code).reg FEN_CTRL = s.reg FEN_CTRL := by
  have hflush (l : List Taken) : ∀ u : State, (flushTaken 0x0A r l u).2.reg FEN_CTRL = u.reg FEN_CTRL := by
    induction l with
    | nil => exact fun u => rfl
    | cons y l ih =>
      intro u
      unfold flushTaken
      split
      · rfl
      · rw [ih, fenCtrl_writeCompletion]
  unfold State.completeSelf State.completeId
  exact hflush _ s

theorem fenCtrl_ringZero (r : Nat) (s : State) : (s.ringZero 0x0A r).reg FEN_CTRL = s.reg FEN_CTRL := by
  refine (keeps_of_only (only_ringZero 0x0A r s)).2.1 _ fun hm => ?_
  have hring : 0xCA000100 ≤ ringG 0x0A r := by
    rcases Nat.eq_zero_or_pos r with rfl | h
    · decide
    · rw [ringG_fen h]; omega
  simp only [ringIdxFlds, RING_PI, RING_CI, CRING_PI, CRING_CI, List.map_cons, List.map_nil, List.mem_cons, List.not_mem_nil, or_false, FEN_CTRL] at hm
  omega

theorem fenCtrl_arbRelease (i : Nat) (s : State) : (s.arbRelease i).reg FEN_CTRL = s.reg FEN_CTRL :=
  (State_arbRelease_mut i s).reg _ fun h => by have := h _ rfl; revert this; decide

theorem fenCtrl_strEnd (x : Nat) (s : State) : (s.strEnd x).reg FEN_CTRL = s.reg FEN_CTRL := by
  cases hq : tget s.fen.streams x with
  | none => simp only [State.strEnd, hq]
  | some q =>
    rw [strEnd_eq hq, fenCtrl_ringZero]
    have hgone : ∀ u : State, (u.jobsGone q).reg FEN_CTRL = u.reg FEN_CTRL := fun u =>
      foldl_keeps (P := fun v => v.reg FEN_CTRL = u.reg FEN_CTRL) (fun v j _ hv => (fenCtrl_completeSelf _ _ v).trans hv) rfl
    have hstop : (s.runStopped x).reg FEN_CTRL = s.reg FEN_CTRL := (keeps_of_only (only_runStopped x s)).2.1 _ (by simp)
    exact (hgone _).trans ((fenCtrl_arbRelease _ _).trans hstop)

/-- A load in flight ends with a free reason. -/
def State.loadEnded (s : State) (p : Nat × Pkg) : State :=
  match p.2.load with
  | some id => (s.completeSelf 0x0A 0 id (s.freshCode [0x20, 0x21, 0x22, 0x23, 0x24, 0x25, 0x26, 0x27])).drawn
  | none => s

/-- FEN with its streams ended. -/
def State.strsEnded (s : State) : State := (s.fen.streams.map (·.1)).foldl (fun s x => s.strEnd x) s

/-- FEN with its streams and its loads ended. -/
def State.fenEnded (s : State) : State := s.strsEnded.fen.pkgs.foldl State.loadEnded s.strsEnded

theorem fenDisable_eq (s : State) : s.fenDisable = (((s.setB FEN_CTRL.ENABLE false).fenEnded).withFen {}).fenShow := rfl

theorem fenCtrl_fenEnded (s : State) : s.fenEnded.reg FEN_CTRL = s.reg FEN_CTRL := by
  have hstrs : s.strsEnded.reg FEN_CTRL = s.reg FEN_CTRL :=
    foldl_keeps (P := fun u => u.reg FEN_CTRL = s.reg FEN_CTRL) (fun u x _ hu => (fenCtrl_strEnd x u).trans hu) rfl
  refine foldl_keeps (P := fun u => u.reg FEN_CTRL = s.reg FEN_CTRL) (fun u p _ hu => ?_) hstrs
  unfold State.loadEnded
  split
  · exact (fenCtrl_completeSelf _ _ u).trans hu
  · exact hu

theorem fenDisabled (hon : s.getB FEN_CTRL.ENABLE = true) : ∃ t, exec .fenDisable s = .next t ∧ t.getB FEN_CTRL.ENABLE = false ∧ t.fen = {} ∧
    (∀ x, x < 16 → t.reg (FEN_STR x) = 0#32) ∧ (∀ i, i < 8 → t.reg (FEN_PKG i) = 0#32) ∧
    t.get FEN_STATUS.STREAMS = 0 ∧ t.get FEN_STATUS.PKGS = 0 ∧ t.getB FEN_STATUS.RUN = false ∧
    s.within [.dram, .free, .cyc, .rings, .fen, .arb, .rcd] (some [0xC1, 0xCA, 0xCB]) t := by
  have hexec : exec .fenDisable s = .next (((s.setB FEN_CTRL.ENABLE false).fenEnded).withFen {}).fenShow := by
    rw [← fenDisable_eq]
    exact congrArg Host.Outcome.next (if_pos hon)
  have hwithin := within_of (execFenDisable_mut s _ hexec)
  have hctrl : ((s.setB FEN_CTRL.ENABLE false).fenEnded.withFen {}).getB FEN_CTRL.ENABLE = false := by
    rw [getB_withFen, getB_congr (FEN_CTRL.ENABLE) (fenCtrl_fenEnded (s.setB FEN_CTRL.ENABLE false))]
    exact getB_setB_self _ _ _ (Nat.le_of_ble_eq_true rfl) rfl
  have hfen : ((s.setB FEN_CTRL.ENABLE false).fenEnded.withFen {}).fen = {} := rfl
  generalize (s.setB FEN_CTRL.ENABLE false).fenEnded.withFen {} = u at hexec hwithin hctrl hfen
  have hpkg (i : Nat) : u.pkg i = none := by rw [State.pkg, hfen]; rfl
  obtain ⟨hstreams, hpkgs⟩ := fenShow_counts u
  refine ⟨_, hexec, ?_, (fen_fenShow u).trans hfen, fun x hx => (fenShow_no_stream hx (by rw [hfen]; rfl)).1, fun i hi => (fenShow_no_package hi (hpkg i)).1,
    hstreams.trans (by rw [hfen]; rfl), hpkgs.trans (by simp only [hpkg]; rfl), fenShow_no_run (by rw [hfen]), hwithin⟩
  exact (getB_of_only (only_fenShow u) (apart_all rfl)).trans hctrl

end Disable

/-! ### The statement -/

/-- Settles O43: packages load, are verified and unload, streams are created and destroyed, and errors and the disabling end jobs. -/
theorem fencePackagesAndStreamsFollowChapter16 : Obligations.FencePackagesAndStreamsFollowChapter16 := by
  unfold Obligations.FencePackagesAndStreamsFollowChapter16
  exact ⟨fun ring e slot a d s => packageLoads ring, fun slot p x s => packageLoaded slot, fun ring e slot s => packageUnloads ring,
    fun ring e s => loadOnJobRing ring, fun ring e x r slot kind i p s => streamCreated ring, fun ring e x q s => streamDestroyed ring,
    fun ring e x q j y s => streamDestroyedWithJob ring, sramCorrected, fun k p s => packageFaults k, fun r q j y s => runningJobFails, fun s => fenDisabled⟩

end Sys2Proof.Machine
end

section
/-! PROOFS. FEN's jobs (R355 to R358, R367): they queue and ask, start under their grant, and write their output in their commit phase. -/

namespace Sys2Proof.Machine

/-! ### A job queues and asks (R355, R356) -/

section Ask
variable {s : State} {e : Entry} {x : Nat} {q : FenStream} {p : Pkg} {j : FenJob} {rest : List FenJob}

/-- A ready head job that finds no request raises one. -/
theorem fenRequest_new (hq : tget s.fen.streams x = some q) (hjobs : q.jobs = j :: rest) (hready : j.ready = true) (hsince : tget s.arb.since q.req = none) :
    s.fenRequest x = (s.requested q.req).fenShow := by
  simp only [State.fenRequest, hq, hjobs, hready, if_true, arbRequest_new hsince]

/-- What a raised request shows, and FEN with it. -/
theorem askedShown (i : Nat) (s : State) : ((s.requested i).fenShow).arb = { s.arb with since := tput s.arb.since i s.now } ∧
    ((s.requested i).fenShow).getB (ARB_REQ.PEND i) = true ∧ ((s.requested i).fenShow).fen = s.fen ∧
    s.only [.arb] (ARB_REQ.PEND i :: fenShowFlds) ((s.requested i).fenShow) := by
  obtain ⟨harb, hpend⟩ := requested_reads i s
  have hask := only_requested i s
  have hshow := only_fenShow (s.requested i)
  refine ⟨(hshow.1 .arb (by simp)).trans harb, ?_, (fen_fenShow _).trans (hask.1 .fen (by simp)), only_mono (only_seq hask hshow) (by simp) (by simp)⟩
  refine (getB_of_only hshow (apart_of_window fun f hf => ?_)).trans hpend
  rw [window_fenShowFlds f hf, show (ARB_REQ.PEND i).addr = ARB_REQ i from rfl, window_arbReq]
  decide

theorem headJobAsks (x : Fin 16) (hq : tget s.fen.streams x.val = some q) (hjobs : q.jobs = j :: rest) (hready : j.ready = true)
    (hsince : tget s.arb.since q.req = none) : ∃ t, exec (.jobRequest x) s = .next t ∧
    t.arb = { s.arb with since := tput s.arb.since q.req s.now } ∧ t.getB (ARB_REQ.PEND q.req) = true ∧ s.only [.arb] (ARB_REQ.PEND q.req :: fenShowFlds) t := by
  obtain ⟨harb, hpend, -, honly⟩ := askedShown q.req s
  exact ⟨_, congrArg Host.Outcome.next (fenRequest_new hq hjobs hready hsince), harb, hpend, honly⟩

/-- The range check of a JOB (R355). -/
def State.jobOutside (s : State) (c : Cmd) (q : FenStream) (p : Pkg) : Bool :=
  c.arg 24 8 % 64 ≠ 0 || !s.inWins 0x0A (c.arg 24 8) (64 + p.outBytes) || (q.kind = 0 && !s.inWins 0x0A (c.arg 16 8) p.inBytes)

/-- The job that a JOB entry asks for. -/
def Cmd.job (c : Cmd) (q : FenStream) : FenJob :=
  { id := c.id, tag := c.e.tag.toNat, inAddr := c.arg 16 8, outAddr := c.arg 24 8, stamp := if q.kind = 0 then c.arg 32 8 else 0,
    param := c.arg 40 24, ready := q.kind = 0, input := none }

theorem opFenJob_eq {c : Cmd} (hon : s.strOnRing c.ring = some (x, q)) (hp : s.pkg q.slot = some p) : opFenJob c s =
    (if (s.checkHandle 5 s.strLive c.handle).isSome || hIndex c.handle ≠ x then c.finish 0x03 s
    else if s.jobOutside c q p then c.finish 0x05 s
    else if c.flag 8 && s.getB (ARB_CFG.FREEZE 0) then c.finish 0x0A s
    else (s.setStr x { q with jobs := q.jobs ++ [c.job q] }).fenRequest x) := by
  simp only [opFenJob, hon, hp]
  rfl

/-- A DRAM job with no code of R355 but perhaps that of its flag. -/
structure State.jobAllowed (s : State) (c : Cmd) (x : Nat) (q : FenStream) (p : Pkg) : Prop where
  on : s.strOnRing c.ring = some (x, q)
  pkg : s.pkg q.slot = some p
  kind : q.kind = 0
  aligned : c.arg 24 8 % 64 = 0
  outWin : s.inWins 0x0A (c.arg 24 8) (64 + p.outBytes) = true
  inWin : s.inWins 0x0A (c.arg 16 8) p.inBytes = true
  handle : s.checkHandle 5 s.strLive c.handle = none
  index : hIndex c.handle = x

theorem opFenJob_allowed {c : Cmd} (h : s.jobAllowed c x q p) : opFenJob c s =
    (if c.flag 8 && s.getB (ARB_CFG.FREEZE 0) then c.finish 0x0A s else (s.setStr x { q with jobs := q.jobs ++ [c.job q] }).fenRequest x) := by
  have hhandle : ((s.checkHandle 5 s.strLive c.handle).isSome || decide (hIndex c.handle ≠ x)) = false := by simp [h.handle, h.index]
  have hrange : s.jobOutside c q p = false := by simp [State.jobOutside, h.aligned, h.outWin, h.inWin]
  rw [opFenJob_eq h.on h.pkg, hhandle, hrange]
  rfl

theorem jobAllowed_entryTaken {k opcode : Nat} (h : s.jobAllowed (s.cmdOf 0x0A k e) x q p) :
    (s.entryTaken 0x0A k opcode e).jobAllowed (s.cmdOf 0x0A k e) x q p :=
  { h with handle := (checkHandle_entryTaken fun _ => rfl).trans h.handle }

theorem jobQueues (ring : Fin 17) (hready : s.ready 0x0A ring.val 0 e) (hon : s.strOnRing ring.val = some (x, q)) (hp : s.pkg q.slot = some p)
    (hkind : q.kind = 0) (hjobs : q.jobs = []) (haligned : (s.cmdOf 0x0A ring.val e).arg 24 8 % 64 = 0)
    (hout : s.inWins 0x0A ((s.cmdOf 0x0A ring.val e).arg 24 8) (64 + p.outBytes) = true)
    (hin : s.inWins 0x0A ((s.cmdOf 0x0A ring.val e).arg 16 8) p.inBytes = true) (hhandle : s.checkHandle 5 s.strLive e.handle.toNat = none)
    (hx : hIndex e.handle.toNat = x) (hsince : tget s.arb.since q.req = none) : ∃ t, exec (.fenJob ring e) s = .next t ∧ s.started 0x0A ring.val 0x10 e t ∧
    tget t.fen.streams x = some { q with jobs := [{ id := (s.ring 0x0A ring.val).nextId, tag := e.tag.toNat, inAddr := (s.cmdOf 0x0A ring.val e).arg 16 8, outAddr := (s.cmdOf 0x0A ring.val e).arg 24 8, stamp := (s.cmdOf 0x0A ring.val e).arg 32 8, param := (s.cmdOf 0x0A ring.val e).arg 40 24, ready := true, input := none }] } ∧
    t.arb = { s.arb with since := tput s.arb.since q.req s.now } ∧ t.getB (ARB_REQ.PEND q.req) = true ∧ s.only [.rings, .fen, .arb] (ARB_REQ.PEND q.req :: fenShowFlds) t := by
  have hallowed := jobAllowed_entryTaken (opcode := 0x10) (State.jobAllowed.mk (c := s.cmdOf 0x0A ring.val e) hon hp hkind haligned hout hin hhandle hx)
  have hflag : (s.cmdOf 0x0A ring.val e).flag 8 = false := by
    have hlt := flags_lt_of_ready hready
    have hbit : ∀ n < 4, bitAt n 8 = false := by decide
    exact hbit _ hlt
  have hop := opFenJob_allowed hallowed
  rw [hflag, Bool.false_and, if_neg Bool.false_ne_true, hjobs, List.nil_append] at hop
  have hset : (s.entryTaken 0x0A ring.val 0x10 e).only [.fen] [] ((s.entryTaken 0x0A ring.val 0x10 e).setStr x { q with jobs := [(s.cmdOf 0x0A ring.val e).job q] }) :=
    only_withFen ..
  have hstr : tget ((s.entryTaken 0x0A ring.val 0x10 e).setStr x { q with jobs := [(s.cmdOf 0x0A ring.val e).job q] }).fen.streams x =
      some { q with jobs := [(s.cmdOf 0x0A ring.val e).job q] } := tget_tput_self ..
  have hjob : (s.cmdOf 0x0A ring.val e).job q = { id := (s.ring 0x0A ring.val).nextId, tag := e.tag.toNat, inAddr := (s.cmdOf 0x0A ring.val e).arg 16 8, outAddr := (s.cmdOf 0x0A ring.val e).arg 24 8, stamp := (s.cmdOf 0x0A ring.val e).arg 32 8, param := (s.cmdOf 0x0A ring.val e).arg 40 24, ready := true, input := none } := by
    rw [Cmd.job, if_pos hkind, hkind]
    rfl
  have hexec : exec (.fenJob ring e) s = .next _ := congrArg Host.Outcome.next ((runRow_runs (ready_mask hready 0x0100) rfl opFenJob).trans hop)
  have harbu : ((s.entryTaken 0x0A ring.val 0x10 e).setStr x { q with jobs := [(s.cmdOf 0x0A ring.val e).job q] }).arb = s.arb := rfl
  have hnowu : ((s.entryTaken 0x0A ring.val 0x10 e).setStr x { q with jobs := [(s.cmdOf 0x0A ring.val e).job q] }).now = s.now := rfl
  generalize (s.entryTaken 0x0A ring.val 0x10 e).setStr x { q with jobs := [(s.cmdOf 0x0A ring.val e).job q] } = u at hexec hset hstr harbu hnowu
  rw [fenRequest_new hstr rfl (by rw [hjob]) (by rw [harbu]; exact hsince)] at hexec
  obtain ⟨harb, hpend, hfen, honly⟩ := askedShown q.req u
  have hall := only_seq hset honly
  refine ⟨_, hexec, started_of_only (idle_of_ready hready) hall (by simp), ?_, ?_, hpend, only_mono (only_seq only_entryTaken hall) (by simp) (by simp)⟩
  · rw [hfen, ← hjob]
    exact hstr
  · rw [harb, harbu, hnowu]

theorem frozenJobRefused (ring : Fin 17) (hready : s.ready 0x0A ring.val 0x0100 e) (hon : s.strOnRing ring.val = some (x, q)) (hp : s.pkg q.slot = some p)
    (hkind : q.kind = 0) (hflag : bitAt e.flags.toNat 8 = true) (haligned : (s.cmdOf 0x0A ring.val e).arg 24 8 % 64 = 0)
    (hout : s.inWins 0x0A ((s.cmdOf 0x0A ring.val e).arg 24 8) (64 + p.outBytes) = true)
    (hin : s.inWins 0x0A ((s.cmdOf 0x0A ring.val e).arg 16 8) p.inBytes = true) (hhandle : s.checkHandle 5 s.strLive e.handle.toNat = none)
    (hx : hIndex e.handle.toNat = x) (hfrozen : s.getB (ARB_CFG.FREEZE 0) = true) : ∃ t, exec (.fenJob ring e) s = .next t ∧
    s.completed 0x0A ring.val e 0x0A e.handle.toNat t ∧ s.dramKept (s.complAddr 0x0A ring.val) 16 t ∧ s.only [.dram, .rings, .rcd, .cyc] (complFlds 0x0A ring.val) t := by
  have hallowed := jobAllowed_entryTaken (opcode := 0x10) (State.jobAllowed.mk (c := s.cmdOf 0x0A ring.val e) hon hp hkind haligned hout hin hhandle hx)
  have hop := opFenJob_allowed hallowed
  have hrefused : ((s.cmdOf 0x0A ring.val e).flag 8 && (s.entryTaken 0x0A ring.val 0x10 e).getB (ARB_CFG.FREEZE 0)) = true := by
    rw [show (s.cmdOf 0x0A ring.val e).flag 8 = true from hflag, show (s.entryTaken 0x0A ring.val 0x10 e).getB (ARB_CFG.FREEZE 0) = true from hfrozen]
    rfl
  rw [if_pos hrefused] at hop
  obtain ⟨hdone, hkept, honly⟩ := ends_behind (opcode := 0x10) (code := 0x0A) (h := e.handle.toNat) (ring_lt_of_ready hready) (idle_of_ready hready) (by decide)
    (only_refl _ [] []) (by simp) (by simp) (by simp) (by simp [offRing])
  exact ⟨_, congrArg Host.Outcome.next ((runRow_runs hready rfl opFenJob).trans hop), hdone, hkept, only_mono honly (by simp) (by simp)⟩

end Ask

/-! ### The grant starts the head job (R358) -/

section Start
variable {s : State} {i x : Nat} {q : FenStream} {p : Pkg} {j : FenJob} {rest : List FenJob}

theorem headJobStarts (hthaw : s.getB (ARB_CFG.FREEZE 0) = false) (hnew : s.arb.newClass = []) (hidle : s.arbGranted 0 = false) (hbest : s.arbBest 0 = some i)
    (hfind : (s.fen.streams.find? fun y => y.2.req = i) = some (x, q)) (hp : s.pkg q.slot = some p) (hjobs : q.jobs = j :: rest) (hkind : q.kind = 0)
    (hi : i < 20) : ∃ t, exec (.arbDecide 0 s.fenCommit) s = .next t ∧
    t.arbHolds i = true ∧ t.fen.run = some { stream := x, at0 := s.now, start := (if s.fen.lastPkg = some q.slot then 600 else 2400), stall := Config.freeValue s.free, section0 := memBytes s.dram p.dramAddr p.dramLen } ∧
    tget t.fen.streams x = some { q with jobs := { j with grantLtc := some (j.grantLtc.getD s.now), input := some (j.input.getD (memBytes s.dram j.inAddr p.inBytes)) } :: rest } ∧
    t.getB FEN_STATUS.RUN = true ∧ t.get FEN_STATUS.STREAM = x % 16 ∧ t.free = s.free + 1 ∧ t.fen.lastPkg = some q.slot ∧
    s.only [.arb, .fen, .free] ([ARB_STAT.GRANTED 0, ARB_STAT.OWNER 0, ARB_STAT.CLASS 0, ARB_REQ.PEND i] ++ fenShowFlds) t := by
  have hof : arbOf i = 0 := if_pos hi
  obtain ⟨hgranted, howner, -, -, -, -, hgrant⟩ := arbGrant_shows (i := i) (by omega) s
  rw [hof, if_neg (by omega), List.append_nil] at hgrant
  rw [hof] at hgranted howner
  have hfen : (s.arbGrant i).fen = s.fen := hgrant.1 .fen (by simp)
  have hnow : (s.arbGrant i).now = s.now := now_of_only hgrant (by simp)
  have hfree : (s.arbGrant i).free = s.free := hgrant.1 .free (by simp)
  have hdram : (s.arbGrant i).dram = s.dram := hgrant.1 .dram (by simp)
  have hexec : exec (.arbDecide 0 s.fenCommit) s = .next ((s.arbGrant i).jobStarted x q j rest p) := by
    rw [execArbDecide_eq]
    exact congrArg Host.Outcome.next ((arbDecide_idle hthaw hnew hidle hbest).trans ((giveGrant_job hi).trans
      (fenGranted_eq (by rw [hfen]; exact hfind) ((pkg_congr hfen _).trans hp) hjobs)))
  obtain ⟨htfen, htfree, hstart⟩ := jobStarted_shows (s.arbGrant i) x q j rest p
  have hrun : ((s.arbGrant i).drawn.withFen ((s.arbGrant i).fen.running x q (q.fed j p (s.arbGrant i)) rest (q.runFrom x p (s.arbGrant i)))).fen.run =
      some (q.runFrom x p (s.arbGrant i)) := rfl
  obtain ⟨hshown, hstream⟩ := fenShow_run hrun
  refine ⟨_, hexec, ?_, ?_, ?_, hshown, hstream, htfree.trans (by rw [hfree]), congrArg FenState.lastPkg htfen, only_mono (only_seq hgrant hstart) (by simp) (by simp)⟩
  · have hstat := stat_apart (fs := fenShowFlds) (fun f hf => by rw [window_fenShowFlds f hf]; decide) (arbOf i)
    rw [arbHolds_of_only hstart hstat]
    simp [State.arbHolds, hof, hgranted, howner]
  · rw [htfen, FenState.running, FenStream.runFrom, hfen, hnow, hfree, hdram]
  · rw [htfen, FenState.running, tget_tput_self, fed_dram hkind, FenJob.started, hnow, hdram]

end Start

/-! ### The commit phase (R358, R367) -/

section Commit
variable {s : State} {x : Fin 16} {r : FenRun} {q : FenStream} {p : Pkg} {j : FenJob} {y : Taken}

/-- The payload that a job's commit writes, and whether its DRAM section stands as at its start. -/
def State.jobPayload (r : FenRun) (p : Pkg) (j : FenJob) (s : State) : Nat :=
  if memBytes s.dram p.dramAddr p.dramLen = r.section0 then Config.fenResult p.body r.section0 (j.input.getD []) j.param else Config.freeValue s.free

/-- The state behind the choice of the payload: a free value is drawn for a section that changed. -/
def State.payloadDrawn (r : FenRun) (p : Pkg) (s : State) : State := if memBytes s.dram p.dramAddr p.dramLen = r.section0 then s else s.drawn

/-- The output written. -/
def State.jobWritten (x : Nat) (r : FenRun) (q : FenStream) (p : Pkg) (j : FenJob) (s : State) : State :=
  (s.payloadDrawn r p).dramPuts j.outAddr ((s.payloadDrawn r p).jobOutput x q j p (s.jobPayload r p j))

theorem fusFeed_none {kind link addr : Nat} {tov : Option Nat} (h : s.fus.srcs = []) : s.fusFeed kind link addr tov = s := by
  simp [State.fusFeed, State.fedSource, h]

theorem fus_jobEnd (x code : Nat) (s : State) : (s.jobEnd x code).fus = s.fus := (State_jobEnd_mut x code s).same .fus (by decide)

theorem only_payloadDrawn (r : FenRun) (p : Pkg) (s : State) : s.only [.free] [] (s.payloadDrawn r p) := by
  unfold State.payloadDrawn
  split
  · exact only_refl ..
  · exact only_drawn s

theorem upd_payloadDrawn (r : FenRun) (p : Pkg) (s : State) :
    Upd [.dram, .free, .cyc, .rings, .fen, .arb, .rcd] (some [0xC1, 0xCA, 0xCB]) s (s.payloadDrawn r p) := by
  unfold State.payloadDrawn
  split
  · exact Upd.refl s
  · exact (State_drawn_mut s).mono (by decide) rfl

theorem free_payloadDrawn (r : FenRun) (p : Pkg) (s : State) :
    (s.payloadDrawn r p).free = s.free + (if memBytes s.dram p.dramAddr p.dramLen = r.section0 then 0 else 1) := by
  unfold State.payloadDrawn
  split <;> rfl

/-- The payload and the state behind its choice. -/
def State.payloadOf (r : FenRun) (p : Pkg) (j : FenJob) (s : State) : Nat × State :=
  if decide (memBytes s.dram p.dramAddr p.dramLen = r.section0) then (Config.fenResult p.body r.section0 (j.input.getD []) j.param, s)
  else (Config.freeValue s.free, s.drawn)

/-- The output written, the job ended, and the output handed on to FUS and YLD. -/
def State.outputSent (x : Nat) (q : FenStream) (j : FenJob) (p : Pkg) (payload : Nat) (s : State) : State :=
  let bytes := s.jobOutput x q j p payload
  let u := ((s.dramPuts j.outAddr bytes).jobEnd x 0x00).fusFeed 1 (s.handle 5 x) (j.outAddr + 64) (some j.stamp)
  if q.kind = 2 && s.handle 5 x = (u.reg FUS_HEAD).toNat then u.yldHead j.lk (bytes.drop 64) else u

theorem execJobComplete_eq (hrun : s.fen.run = some r) (hq : tget s.fen.streams x.val = some q) (hjobs : q.jobs = [j]) (hp : s.pkg q.slot = some p) :
    exec (.jobComplete x) s =
      (if r.stream ≠ x.val || !s.fenCommit then .next s
      else if p.fault then .next (s.jobEnd x.val 0x27)
      else .next ((s.payloadOf r p j).2.outputSent x.val q j p (s.payloadOf r p j).1)) := by
  rw [show exec (.jobComplete x) s = execJobComplete x s from rfl, execJobComplete]
  simp only [hrun, hq, hjobs, hp]
  rfl

theorem payloadOf_eq (r : FenRun) (p : Pkg) (j : FenJob) (s : State) : s.payloadOf r p j = (s.jobPayload r p j, s.payloadDrawn r p) := by
  unfold State.payloadOf State.jobPayload State.payloadDrawn
  split
  · next h => rw [if_pos (of_decide_eq_true h), if_pos (of_decide_eq_true h)]
  · next h => rw [if_neg (by simpa using h), if_neg (by simpa using h)]

theorem outputSent_unfed {payload : Nat} (hkind : q.kind = 0) (hsrcs : s.fus.srcs = []) (x : Nat) :
    s.outputSent x q j p payload = (s.dramPuts j.outAddr (s.jobOutput x q j p payload)).jobEnd x 0x00 := by
  have hfeed : ((s.dramPuts j.outAddr (s.jobOutput x q j p payload)).jobEnd x 0x00).fusFeed 1 (s.handle 5 x) (j.outAddr + 64) (some j.stamp) =
      (s.dramPuts j.outAddr (s.jobOutput x q j p payload)).jobEnd x 0x00 := fusFeed_none (by rw [fus_jobEnd]; exact hsrcs)
  simp only [State.outputSent, hfeed, hkind]
  rfl

theorem execJobComplete_runs (hrun : s.fen.run = some r) (hx : r.stream = x.val) (hq : tget s.fen.streams x.val = some q) (hjobs : q.jobs = [j])
    (hp : s.pkg q.slot = some p) (hcommit : s.fenCommit = true) :
    (p.fault = true → exec (.jobComplete x) s = .next (s.jobEnd x.val 0x27)) ∧
      (p.fault = false → q.kind = 0 → s.fus.srcs = [] → exec (.jobComplete x) s = .next ((s.jobWritten x.val r q p j).jobEnd x.val 0x00)) := by
  have hnow : (decide (r.stream ≠ x.val) || !s.fenCommit) = false := by simp [hx, hcommit]
  rw [execJobComplete_eq hrun hq hjobs hp, hnow, if_neg Bool.false_ne_true, payloadOf_eq]
  refine ⟨fun hfault => if_pos hfault, fun hfault hkind hsrcs => ?_⟩
  have hsrcs' : (s.payloadDrawn r p).fus.srcs = [] := by rw [(only_payloadDrawn r p s).1 .fus (by simp)]; exact hsrcs
  rw [hfault, if_neg Bool.false_ne_true, outputSent_unfed hkind hsrcs']
  rfl

/-- Table 16-5, cut at its halves. -/
theorem jobOutput_eq (s : State) (x : Nat) (q : FenStream) (j : FenJob) (p : Pkg) (payload : Nat) : s.jobOutput x q j p payload =
    (bytesLE 4 (s.handle 5 x) ++ bytesLE 4 ((q.jseq + 1) % 2 ^ 32) ++ bytesLE 8 j.tag ++ bytesLE 8 j.stamp ++ bytesLE 8 (j.grantLtc.getD 0)) ++
      ((bytesLE 8 s.now ++ bytesLE 4 p.id ++ bytesLE 2 j.flags ++ bytesLE 2 j.revokes ++ bytesLE 4 j.cseq ++ bytesLE 4 p.outBytes ++ bytesLE 8 0) ++
        bytesLE p.outBytes payload) := by
  simp only [State.jobOutput, List.append_assoc]

/-- Three runs of bytes stored one behind the other read back each by itself, and nothing else changes. -/
theorem memBytes_memPuts_three {l₁ l₂ l₃ : List Byte} {n₁ n₂ n₃ : Nat} (h₁ : l₁.length = n₁) (h₂ : l₂.length = n₂) (h₃ : l₃.length = n₃) (m : List Host.Cell)
    (a : Nat) : memBytes (memPuts m a (l₁ ++ (l₂ ++ l₃))) a n₁ = l₁ ∧ memBytes (memPuts m a (l₁ ++ (l₂ ++ l₃))) (a + n₁) n₂ = l₂ ∧
      memBytes (memPuts m a (l₁ ++ (l₂ ++ l₃))) (a + n₁ + n₂) n₃ = l₃ := by
  subst h₁ h₂ h₃
  obtain ⟨hfirst, -⟩ := memBytes_memPuts_append l₁ (l₂ ++ l₃) m a
  obtain ⟨hsecond, hthird⟩ := memBytes_memPuts_append l₂ l₃ (memPuts m a l₁) (a + l₁.length)
  rw [← memPuts_append] at hsecond hthird
  exact ⟨hfirst, hsecond, hthird⟩

theorem only_dramPuts (a : Nat) (bs : List Byte) (s : State) : s.only [.dram] [] (s.dramPuts a bs) := only_of_keeps (keeps_dramPuts ..)

theorem only_jobWritten (x : Nat) (r : FenRun) (q : FenStream) (p : Pkg) (j : FenJob) (s : State) : s.only [.free, .dram] [] (s.jobWritten x r q p j) :=
  only_seq (only_payloadDrawn r p s) (only_dramPuts ..)

/-- What the commit has written. -/
theorem jobWritten_reads (x : Nat) (r : FenRun) (q : FenStream) (p : Pkg) (j : FenJob) (s : State) :
    let m := (s.jobWritten x r q p j).dram
    memBytes m j.outAddr 32 = bytesLE 4 (s.handle 5 x) ++ bytesLE 4 ((q.jseq + 1) % 2 ^ 32) ++ bytesLE 8 j.tag ++ bytesLE 8 j.stamp ++ bytesLE 8 (j.grantLtc.getD 0) ∧
      memBytes m (j.outAddr + 32) 32 = bytesLE 8 s.now ++ bytesLE 4 p.id ++ bytesLE 2 j.flags ++ bytesLE 2 j.revokes ++ bytesLE 4 j.cseq ++ bytesLE 4 p.outBytes ++ bytesLE 8 0 ∧
      memBytes m (j.outAddr + 64) p.outBytes = bytesLE p.outBytes (s.jobPayload r p j) ∧
      ∀ a, a < j.outAddr ∨ j.outAddr + 64 + p.outBytes ≤ a → memByte m a = memByte s.dram a := by
  have hdrawn := only_payloadDrawn r p s
  have hm : (s.jobWritten x r q p j).dram = memPuts s.dram j.outAddr ((s.payloadDrawn r p).jobOutput x q j p (s.jobPayload r p j)) := by
    rw [State.jobWritten, State.dramPuts, hdrawn.1 .dram (by simp)]
  have hlen : ((s.payloadDrawn r p).jobOutput x q j p (s.jobPayload r p j)).length = 64 + p.outBytes := by
    simp only [State.jobOutput, List.length_append, length_bytesLE]
  obtain ⟨hfirst, hsecond, hthird⟩ := memBytes_memPuts_three
    (l₁ := bytesLE 4 (s.handle 5 x) ++ bytesLE 4 ((q.jseq + 1) % 2 ^ 32) ++ bytesLE 8 j.tag ++ bytesLE 8 j.stamp ++ bytesLE 8 (j.grantLtc.getD 0))
    (l₂ := bytesLE 8 s.now ++ bytesLE 4 p.id ++ bytesLE 2 j.flags ++ bytesLE 2 j.revokes ++ bytesLE 4 j.cseq ++ bytesLE 4 p.outBytes ++ bytesLE 8 0)
    (l₃ := bytesLE p.outBytes (s.jobPayload r p j)) (n₁ := 32) (n₂ := 32) (n₃ := p.outBytes) (by simp only [List.length_append, length_bytesLE])
    (by simp only [List.length_append, length_bytesLE]) (length_bytesLE ..) s.dram j.outAddr
  have hout : (s.payloadDrawn r p).jobOutput x q j p (s.jobPayload r p j) = _ := jobOutput_eq ..
  rw [handle_of_gens (hdrawn.1 .gens (by simp)), now_of_only hdrawn (by simp)] at hout
  intro m
  refine ⟨?_, ?_, ?_, fun a ha => ?_⟩
  · rw [show m = _ from hm, hout]; exact hfirst
  · rw [show m = _ from hm, hout]; exact hsecond
  · rw [show m = _ from hm, hout]; exact hthird
  · rw [show m = _ from hm]
    exact memByte_memPuts_ne _ _ _ _ (by rw [hlen]; omega)

theorem jobCommits (hrun : s.fen.run = some r) (hx : r.stream = x.val) (hq : tget s.fen.streams x.val = some q) (hjobs : q.jobs = [j])
    (hp : s.pkg q.slot = some p) (hcommit : s.fenCommit = true) (hfault : p.fault = false) (hkind : q.kind = 0) (hframe : j.frame = none)
    (hsrcs : s.fus.srcs = []) (htaken : (s.ring 0x0A q.ring).taken = [y]) (hid : y.id = j.id) (hr : q.ring ≤ 16)
    (haway : j.outAddr + 64 + p.outBytes ≤ s.complAddr 0x0A q.ring ∨ s.complAddr 0x0A q.ring + 16 ≤ j.outAddr) : ∃ t, exec (.jobComplete x) s = .next t ∧
    memBytes t.dram j.outAddr 32 = bytesLE 4 (s.handle 5 x.val) ++ bytesLE 4 ((q.jseq + 1) % 2 ^ 32) ++ bytesLE 8 j.tag ++ bytesLE 8 j.stamp ++ bytesLE 8 (j.grantLtc.getD 0) ∧
    memBytes t.dram (j.outAddr + 32) 32 = bytesLE 8 s.now ++ bytesLE 4 p.id ++ bytesLE 2 j.flags ++ bytesLE 2 j.revokes ++ bytesLE 4 j.cseq ++ bytesLE 4 p.outBytes ++ bytesLE 8 0 ∧
    memBytes t.dram (j.outAddr + 64) p.outBytes = bytesLE p.outBytes (if memBytes s.dram p.dramAddr p.dramLen = r.section0 then Config.fenResult p.body r.section0 (j.input.getD []) j.param else Config.freeValue s.free) ∧ s.ended 0x0A q.ring y 0x00 y.handle t ∧
    t.fen.run = none ∧ tget t.fen.streams x.val = some { q with jobs := [], jseq := (q.jseq + 1) % 2 ^ 32 } ∧ t.get (FEN_STR_JSEQ.JSEQ x.val) = (q.jseq + 1) % 2 ^ 32 ∧ t.arbHolds q.req = false ∧ tget t.arb.since q.req = none ∧
    (∀ a, (a < j.outAddr ∨ j.outAddr + 64 + p.outBytes ≤ a) → (a < s.complAddr 0x0A q.ring ∨ s.complAddr 0x0A q.ring + 16 ≤ a) → memByte t.dram a = memByte s.dram a) ∧
    t.free = s.free + (if memBytes s.dram p.dramAddr p.dramLen = r.section0 then 0 else 1) ∧ s.within [.dram, .free, .cyc, .rings, .fen, .arb, .rcd] (some [0xC1, 0xCA, 0xCB]) t := by
  have hexec := (execJobComplete_runs hrun hx hq hjobs hp hcommit).2 hfault hkind hsrcs
  have hwritten := only_jobWritten x.val r q p j s
  obtain ⟨hfirst, hsecond, hthird, hkept⟩ := jobWritten_reads x.val r q p j s
  have hwithin : s.within [.dram, .free, .cyc, .rings, .fen, .arb, .rcd] (some [0xC1, 0xCA, 0xCB]) ((s.jobWritten x.val r q p j).jobEnd x.val 0x00) :=
    within_of ((State_jobEnd_mut x.val 0x00 _).comp (by decide) rfl ((State_dramPuts_mut _ _ _).comp (by decide) rfl (upd_payloadDrawn r p s)))
  have hfreeu : (s.jobWritten x.val r q p j).free = _ := free_payloadDrawn r p s
  have hfenu : (s.jobWritten x.val r q p j).fen = s.fen := hwritten.1 .fen (by simp)
  have hringu : (s.jobWritten x.val r q p j).ring 0x0A q.ring = s.ring 0x0A q.ring := ring_of_rings (hwritten.1 .rings (by simp)) _ _
  generalize s.jobWritten x.val r q p j = u at hexec hwritten hfirst hsecond hthird hkept hwithin hfreeu hfenu hringu
  have hsame : s.sameCompletion 0x0A q.ring u := sameCompletion_of_ring hwritten (by simp) hringu (by simp [offRing])
  obtain ⟨⟨hgone, htag⟩, hdram, hfen, hholds, hsince, hjseq, honly⟩ :=
    jobEnd_shows (s := u) (code := 0x00) (by rw [hfenu]; exact hq) hjobs hr (by decide) (by rw [hringu]; exact htaken) hid
  rw [hsame.1] at hdram
  have hareas : q.areasLeft j = q.areas := by simp only [FenStream.areasLeft, hframe]
  refine ⟨_, hexec, (memBytes_of_dramKept hdram (by omega)).trans hfirst, (memBytes_of_dramKept hdram (by omega)).trans hsecond,
    (memBytes_of_dramKept hdram (by omega)).trans hthird, ⟨hgone, complTag_behind hsame htag⟩, ?_, ?_, hjseq x.isLt, hholds, hsince, ?_, ?_, hwithin⟩
  · rw [hfen]; rfl
  · rw [hfen, FenState.jobDone, tget_tput_self, FenStream.jobDone, hareas]
  · exact fun a h1 h2 => (hdram a h2).trans (hkept a h1)
  · exact (honly.1 .free (by simp)).trans hfreeu

theorem faultyJobEnds (hrun : s.fen.run = some r) (hx : r.stream = x.val) (hq : tget s.fen.streams x.val = some q) (hjobs : q.jobs = [j])
    (hp : s.pkg q.slot = some p) (hcommit : s.fenCommit = true) (hfault : p.fault = true) (htaken : (s.ring 0x0A q.ring).taken = [y]) (hid : y.id = j.id)
    (hr : q.ring ≤ 16) : ∃ t, exec (.jobComplete x) s = .next t ∧
    s.ended 0x0A q.ring y 0x27 y.handle t ∧ s.dramKept (s.complAddr 0x0A q.ring) 16 t ∧ t.fen.run = none ∧ (tget t.fen.streams x.val).map (·.jobs) = some [] ∧ t.arbHolds q.req = false ∧
    s.within [.dram, .cyc, .rings, .fen, .arb, .rcd] (some [0xC1, 0xCA, 0xCB]) t := by
  have hexec := (execJobComplete_runs hrun hx hq hjobs hp hcommit).1 hfault
  obtain ⟨hended, hdram, hfen, hholds, -, -, -⟩ := jobEnd_shows (code := 0x27) hq hjobs hr (by decide) htaken hid
  refine ⟨_, hexec, hended, hdram, ?_, ?_, hholds, within_of (State_jobEnd_mut x.val 0x27 s)⟩
  · rw [hfen]; rfl
  · rw [hfen, FenState.jobDone, tget_tput_self]; rfl

end Commit

/-! ### The statement -/

/-- Settles O44: a job queues on its stream and asks ARB0, its grant starts it, and its commit phase writes its output. -/
theorem fenceJobsAskRunAndWriteTheirOutput : Obligations.FenceJobsAskRunAndWriteTheirOutput := by
  unfold Obligations.FenceJobsAskRunAndWriteTheirOutput
  refine ⟨fun ring e x q p s hready hon hp hkind hjobs haligned hout hin hhandle hx hsince _ =>
      jobQueues ring hready hon hp hkind hjobs haligned hout hin hhandle hx hsince,
    fun ring e x q p s => frozenJobRefused ring, fun x q j rest s => headJobAsks x, fun i x q p j rest s => headJobStarts, fun x r q p j y s => jobCommits,
    fun x r q p j y s => faultyJobEnds⟩

end Sys2Proof.Machine
end

section
/-! PROOFS. UPD's life cycle, keys and service port (R513, R520 to R522): the statement of chapter 25 on them. -/

namespace Sys2Proof.Machine

/-! ### What stands behind UPD's registers -/

section With
variable {s u t : State} {ps : List Comp} {fs : List Fld}

/-- The state with other MRAM facts. -/
def State.withNv (x : NvState) (s : State) : State := { s with nv := x }

/-- The state with a module reset asked for. -/
def State.safeAsked (s : State) : State := { s with sys := { s.sys with safeReq := true } }

theorem only_withNv (x : NvState) (s : State) : s.only [.nv] [] (s.withNv x) :=
  ⟨fun p hp => by cases p <;> simp [State.same, State.withNv] at hp ⊢, fun _ _ => rfl, rfl, rfl⟩

theorem only_safeAsked (s : State) : s.only [.sys] [] s.safeAsked :=
  ⟨fun p hp => by cases p <;> simp [State.same, State.safeAsked] at hp ⊢, fun _ _ => rfl, rfl, rfl⟩

end With

/-! ### The nonce (R520) -/

section Nonce
variable {s : State}

/-- One word of the nonce takes a free value. -/
def State.nonceWord (s : State) (i : Nat) : State := (s.setReg (UPD_NONCE i) (BitVec.ofNat 32 (s.fresh 32))).drawn

def nonceFlds : List Fld := [wordAt (UPD_NONCE 0), wordAt (UPD_NONCE 1), wordAt (UPD_NONCE 2), wordAt (UPD_NONCE 3)]

theorem newNonce_eq (s : State) : s.newNonce = (((s.nonceWord 0).nonceWord 1).nonceWord 2).nonceWord 3 := rfl

theorem only_nonceWord (s : State) {i : Nat} (hi : wordAt (UPD_NONCE i) ∈ nonceFlds) : s.only [.free] nonceFlds (s.nonceWord i) :=
  only_then (only_then_setReg (only_refl s _ _) _ hi) (only_drawn _) (by simp) (by simp)

theorem only_newNonce (s : State) : s.only [.free] nonceFlds s.newNonce := by
  rw [newNonce_eq]
  exact only_trans (only_trans (only_trans (only_nonceWord s (by simp [nonceFlds])) (only_nonceWord _ (by simp [nonceFlds])))
    (only_nonceWord _ (by simp [nonceFlds]))) (only_nonceWord _ (by simp [nonceFlds]))

theorem reg_nonceWord_ne {i a : Nat} (h : a ≠ UPD_NONCE i) (s : State) : (s.nonceWord i).reg a = s.reg a := reg_setReg_ne s _ h

theorem newNonce_shows (s : State) : s.newNonce.free = s.free + 4 ∧ s.newNonce.reg (UPD_NONCE 0) = BitVec.ofNat 32 (s.fresh 32) := by
  refine ⟨rfl, ?_⟩
  rw [newNonce_eq, reg_nonceWord_ne (by decide), reg_nonceWord_ne (by decide), reg_nonceWord_ne (by decide)]
  exact reg_setReg_self s _ _

end Nonce

/-! ### LC_CHANGE and KEY_PROG (R520, R521) -/

section Commands
variable {s u : State} {e : Entry} {code : Nat} {ps : List Comp}

/-- A command of UPD ends behind work that writes no register. -/
theorem updEnds (hready : s.ready 0x13 0 0 e) {opcode : Nat} (hc : 0x13 * 256 + code < 2 ^ 16) (hv : (s.entryTaken 0x13 0 opcode e).only ps [] u)
    (hps : .ltc ∉ ps ∧ .rings ∉ ps ∧ .dram ∉ ps) :
    let t := (s.cmdOf 0x13 0 e).finish code u
    s.completed 0x13 0 e code e.handle.toNat t ∧ s.dramKept (s.complAddr 0x13 0) 16 t ∧ s.only ([.dram, .rings, .rcd, .cyc] ++ ps) (complFlds 0x13 0) t ∧
      u.only [.dram, .rings, .rcd, .cyc] (complFlds 0x13 0) t := by
  intro t
  obtain ⟨hdone, hkept, honly⟩ := ends_behind (code := code) (h := e.handle.toNat) (ring_lt_of_ready hready) (idle_of_ready hready) hc hv hps.1 hps.2.1 hps.2.2
    (by simp [offRing])
  exact ⟨hdone, hkept, only_mono honly (by simp) (by simp), only_completeId _ _ _ (by decide)⟩

/-- A nonce drawn behind a command's end. -/
theorem nonceEnds {t : State} {h : Nat} (hdone : s.completed 0x13 0 e code h t) (hkept : s.dramKept (s.complAddr 0x13 0) 16 t)
    (honly : s.only ps (complFlds 0x13 0) t) (hfree : .free ∉ ps) :
    s.completed 0x13 0 e code h t.newNonce ∧ s.dramKept (s.complAddr 0x13 0) 16 t.newNonce ∧ t.newNonce.free = s.free + 4 ∧
      t.newNonce.reg (UPD_NONCE 0) = BitVec.ofNat 32 (s.fresh 32) ∧ t.newNonce.nv = t.nv ∧ t.newNonce.sys = t.sys ∧
      s.only (ps ++ [.free]) (complFlds 0x13 0 ++ nonceFlds) t.newNonce := by
  have hnonce := only_newNonce t
  have hoff : offRing 0x13 0 nonceFlds := by
    have haddr : ∀ f ∈ nonceFlds, f.addr < ringG 0x13 0 ∨ ringG 0x13 0 + 0x20 ≤ f.addr := by decide
    exact haddr
  have htfree : t.free = s.free := honly.1 .free hfree
  obtain ⟨hfour, hword⟩ := newNonce_shows t
  exact ⟨complTag_then hdone hnonce (by simp) hoff, dramKept_then hkept (hnonce.1 .dram (by simp)).symm, hfour.trans (by rw [htfree]),
    hword.trans (by rw [State.fresh, State.fresh, htfree]), hnonce.1 .nv (by simp), hnonce.1 .sys (by simp), only_seq honly hnonce⟩

/-- The work of an LC_CHANGE before its nonce. -/
def State.lcChanged (c : Cmd) (s : State) : State :=
  if s.upd.staging.isSome then c.finish 0x0F s
  else
    match lcPath s.nv.lifeCycle (c.arg 16 1) with
    | none => c.finish 0x2C s
    | some tok =>
      if tok && !s.tokenOk (memBytes s.dram (c.arg 24 8) 256) (c.arg 16 1) then c.finish 0x2D s
      else c.finish 0x00 ((s.withNv { s.nv with lcTarget := some (c.arg 16 1) }).safeAsked)

theorem opLcChange_eq (c : Cmd) (s : State) : opLcChange c s = (s.lcChanged c).newNonce := rfl

theorem execLcChange_eq (hready : s.ready 0x13 0 0 e) :
    exec (.lcChange 0 e) s = .next (((s.entryTaken 0x13 0 5 e).lcChanged (s.cmdOf 0x13 0 e)).newNonce) :=
  congrArg Host.Outcome.next ((runRow_runs hready rfl opLcChange).trans (opLcChange_eq _ _))

/-- An LC_CHANGE that a transition without a token, or with a right one, takes. -/
theorem lcChanged_taken {c : Cmd} {tok : Bool} (hstaging : s.upd.staging = none) (hpath : lcPath s.nv.lifeCycle (c.arg 16 1) = some tok)
    (htok : tok = true → s.tokenOk (memBytes s.dram (c.arg 24 8) 256) (c.arg 16 1) = true) :
    s.lcChanged c = c.finish 0x00 ((s.withNv { s.nv with lcTarget := some (c.arg 16 1) }).safeAsked) := by
  have hright : (tok && !s.tokenOk (memBytes s.dram (c.arg 24 8) 256) (c.arg 16 1)) = false := by
    cases tok
    · rfl
    · simp [htok rfl]
  rw [State.lcChanged, hstaging, hpath]
  simp only [Option.isSome_none, Bool.false_eq_true, if_false, hright]

theorem lcChanged_wrong {c : Cmd} (hstaging : s.upd.staging = none) (hpath : lcPath s.nv.lifeCycle (c.arg 16 1) = some true)
    (htok : s.tokenOk (memBytes s.dram (c.arg 24 8) 256) (c.arg 16 1) = false) : s.lcChanged c = c.finish 0x2D s := by
  rw [State.lcChanged, hstaging, hpath]
  simp only [Option.isSome_none, Bool.false_eq_true, if_false, htok, Bool.not_false, Bool.and_self, if_true]

theorem lcChanged_barred {c : Cmd} (hstaging : s.upd.staging = none) (hpath : lcPath s.nv.lifeCycle (c.arg 16 1) = none) : s.lcChanged c = c.finish 0x2C s := by
  rw [State.lcChanged, hstaging, hpath]
  simp only [Option.isSome_none, Bool.false_eq_true, if_false]

/-- What a taken transition leaves. -/
theorem lcTaken_shows (hready : s.ready 0x13 0 0 e) {tok : Bool} (hstaging : s.upd.staging = none)
    (hpath : lcPath s.nv.lifeCycle ((s.cmdOf 0x13 0 e).arg 16 1) = some tok)
    (htok : tok = true → s.tokenOk (memBytes s.dram ((s.cmdOf 0x13 0 e).arg 24 8) 256) ((s.cmdOf 0x13 0 e).arg 16 1) = true) :
    ∃ t, exec (.lcChange 0 e) s = .next t ∧ s.completed 0x13 0 e 0x00 e.handle.toNat t ∧ s.dramKept (s.complAddr 0x13 0) 16 t ∧
      t.nv = { s.nv with lcTarget := some ((s.cmdOf 0x13 0 e).arg 16 1) } ∧ t.sys = { s.sys with safeReq := true } ∧ t.free = s.free + 4 ∧
      t.reg (UPD_NONCE 0) = BitVec.ofNat 32 (s.fresh 32) ∧ s.only [.dram, .rings, .nv, .sys, .free, .rcd, .cyc] (complFlds 0x13 0 ++ nonceFlds) t := by
  have hexec := execLcChange_eq hready
  rw [lcChanged_taken (s := s.entryTaken 0x13 0 5 e) hstaging hpath htok] at hexec
  have hwork := only_seq (only_withNv { s.nv with lcTarget := some ((s.cmdOf 0x13 0 e).arg 16 1) } (s.entryTaken 0x13 0 5 e)) (only_safeAsked _)
  obtain ⟨hdone, hkept, honly, hend⟩ := updEnds (code := 0x00) hready (by decide) hwork (by simp)
  obtain ⟨hdone', hkept', hfree, hnonce, hnv, hsys, hframe⟩ := nonceEnds hdone hkept honly (by simp)
  exact ⟨_, hexec, hdone', hkept', hnv.trans (hend.1 .nv (by simp)), hsys.trans (hend.1 .sys (by simp)), hfree, hnonce, only_mono hframe (by simp +contextual [or_imp]) (by simp)⟩

/-- What a refused transition leaves. -/
theorem lcRefused_shows (hready : s.ready 0x13 0 0 e) (hc : 0x13 * 256 + code < 2 ^ 16)
    (hlc : (s.entryTaken 0x13 0 5 e).lcChanged (s.cmdOf 0x13 0 e) = (s.cmdOf 0x13 0 e).finish code (s.entryTaken 0x13 0 5 e)) :
    ∃ t, exec (.lcChange 0 e) s = .next t ∧ s.completed 0x13 0 e code e.handle.toNat t ∧ s.dramKept (s.complAddr 0x13 0) 16 t ∧
      t.free = s.free + 4 ∧ t.reg (UPD_NONCE 0) = BitVec.ofNat 32 (s.fresh 32) ∧ s.only [.dram, .rings, .free, .rcd, .cyc] (complFlds 0x13 0 ++ nonceFlds) t := by
  have hexec := execLcChange_eq hready
  rw [hlc] at hexec
  obtain ⟨hdone, hkept, honly, -⟩ := updEnds (code := code) hready hc (only_refl _ [] []) (by simp)
  obtain ⟨hdone', hkept', hfree, hnonce, -, -, hframe⟩ := nonceEnds hdone hkept honly (by simp)
  exact ⟨_, hexec, hdone', hkept', hfree, hnonce, only_mono hframe (by simp +contextual [or_imp]) (by simp)⟩

end Commands

section Transitions
variable {s : State} {e : Entry} {g a key : Nat}

theorem lifeCycleMoves (ring : Fin 1) (hready : s.ready 0x13 ring.val 0 e) (hstaging : s.upd.staging = none) (hg : (s.cmdOf 0x13 ring.val e).arg 16 1 = g)
    (hpath : s.nv.lifeCycle = 0 ∧ g = 1 ∨ s.nv.lifeCycle = 1 ∧ g = 2 ∨ s.nv.lifeCycle ≤ 3 ∧ g = 4) : ∃ t, exec (.lcChange ring e) s = .next t ∧
    s.completed 0x13 ring.val e 0x00 e.handle.toNat t ∧ s.dramKept (s.complAddr 0x13 ring.val) 16 t ∧ t.nv = { s.nv with lcTarget := some g } ∧ t.sys = { s.sys with safeReq := true } ∧ t.free = s.free + 4 ∧ t.reg (UPD_NONCE 0) = BitVec.ofNat 32 (s.fresh 32) ∧
    s.only [.dram, .rings, .nv, .sys, .free, .rcd, .cyc] (complFlds 0x13 ring.val ++ [wordAt (UPD_NONCE 0), wordAt (UPD_NONCE 1), wordAt (UPD_NONCE 2), wordAt (UPD_NONCE 3)]) t := by
  obtain rfl : ring = 0 := Subsingleton.elim _ _
  subst hg
  have hpath' : lcPath s.nv.lifeCycle ((s.cmdOf 0x13 0 e).arg 16 1) = some false := by
    rcases hpath with ⟨hlc, hg⟩ | ⟨hlc, hg⟩ | ⟨hlc, hg⟩
    · rw [hlc, show (s.cmdOf 0x13 0 e).arg 16 1 = 1 from hg]; rfl
    · rw [hlc, show (s.cmdOf 0x13 0 e).arg 16 1 = 2 from hg]; rfl
    · rw [show (s.cmdOf 0x13 0 e).arg 16 1 = 4 from hg]
      have hfour : ∀ l ≤ 3, lcPath l 4 = some false := by decide
      exact hfour _ hlc
  exact lcTaken_shows hready hstaging hpath' (fun h => absurd h (by decide))

theorem lifeCycleBarred (ring : Fin 1) (hready : s.ready 0x13 ring.val 0 e) (hstaging : s.upd.staging = none) (hg : (s.cmdOf 0x13 ring.val e).arg 16 1 = g)
    (hpath : lcPath s.nv.lifeCycle g = none) : ∃ t, exec (.lcChange ring e) s = .next t ∧
    s.completed 0x13 ring.val e 0x2C e.handle.toNat t ∧ s.dramKept (s.complAddr 0x13 ring.val) 16 t ∧ t.free = s.free + 4 ∧ t.reg (UPD_NONCE 0) = BitVec.ofNat 32 (s.fresh 32) ∧
    s.only [.dram, .rings, .free, .rcd, .cyc] (complFlds 0x13 ring.val ++ [wordAt (UPD_NONCE 0), wordAt (UPD_NONCE 1), wordAt (UPD_NONCE 2), wordAt (UPD_NONCE 3)]) t := by
  obtain rfl : ring = 0 := Subsingleton.elim _ _
  subst hg
  exact lcRefused_shows hready (by decide) (lcChanged_barred (s := s.entryTaken 0x13 0 5 e) hstaging hpath)

theorem fieldN_memBytes (m : List Host.Cell) (a : Nat) {o n k : Nat} (h : o + n ≤ k) : fieldN (memBytes m a k) o n = memNat m (a + o) n := by
  rw [fieldN, memBytes_drop, memBytes_take _ _ (by omega), memNat]

theorem fieldBE_memBytes (m : List Host.Cell) (a : Nat) {o n k : Nat} (h : o + n ≤ k) : fieldBE (memBytes m a k) o n = natBE (memBytes m (a + o) n) := by
  rw [fieldBE, memBytes_drop, memBytes_take _ _ (by omega)]

theorem memBytes_add (m : List Host.Cell) (a n k : Nat) : memBytes m a (n + k) = memBytes m a n ++ memBytes m (a + n) k := by
  induction n generalizing a with
  | zero => simp [memBytes]
  | succ n ih => rw [Nat.succ_add, memBytes, memBytes, ih, List.cons_append, Nat.succ_add a, ← Nat.add_succ]

theorem natLE_append (l l' : List Byte) : natLE (l ++ l') = natLE l + 256 ^ l.length * natLE l' := by
  induction l with
  | nil => simp [natLE]
  | cons b l ih => rw [List.cons_append, natLE, natLE, ih, List.length_cons, Nat.pow_succ]; ring

theorem length_memBytes (m : List Host.Cell) (a n : Nat) : (memBytes m a n).length = n := by
  induction n generalizing a with
  | zero => rfl
  | succ n ih => rw [memBytes, List.length_cons, ih]

/-- A value in memory, by its first word and the rest. -/
theorem memNat_word (m : List Host.Cell) (a n : Nat) : memNat m a (4 + n) = memNat m a 4 + 2 ^ 32 * memNat m (a + 4) n := by
  rw [memNat, memBytes_add, natLE_append, length_memBytes]
  rfl

/-- The nonce in memory, word by word. -/
theorem memNat_nonce {f : Nat → Nat} {m : List Host.Cell} {b : Nat} (h : ∀ i ∈ List.range 4, memNat m (b + 4 * i) 4 = f i) :
    memNat m b 16 = (List.range 4).foldr (fun i v => f i + 2 ^ 32 * v) 0 := by
  have h0 := h 0 (by decide)
  have h1 := h 1 (by decide)
  have h2 := h 2 (by decide)
  have h3 := h 3 (by decide)
  rw [show 16 = 4 + (4 + (4 + (4 + 0))) from rfl, memNat_word, memNat_word, memNat_word, memNat_word, show memNat m (b + 4 + 4 + 4 + 4) 0 = 0 from rfl]
  simp only [Nat.mul_zero, Nat.mul_one, Nat.add_zero, Nat.reduceMul] at h0 h1 h2 h3
  rw [h0, h1, show b + 4 + 4 = b + 8 from rfl, h2, show b + 8 + 4 = b + 12 from rfl, h3]
  rfl

/-- The token at `a` but for its signature (Table 25-8). -/
structure State.tokenFor (s : State) (a g key : Nat) : Prop where
  key : tget s.nv.otp 0 = some key
  magic : memNat s.dram a 4 = 0x3154434C
  source : memNat s.dram (a + 4) 1 = s.nv.lifeCycle
  target : memNat s.dram (a + 5) 1 = g
  zero : memNat s.dram (a + 6) 1 = 0
  device : memNat s.dram (a + 8) 8 = s.get64 UPD_DEVID_LO UPD_DEVID_HI
  nonce : ∀ i ∈ List.range 4, memNat s.dram (a + 16 + 4 * i) 4 = (s.reg (UPD_NONCE i)).toNat

/-- The signature of the token at `a`. -/
def State.tokenSigned (s : State) (a key : Nat) : Bool :=
  Config.ecdsaVerify key (memBytes s.dram a 160) (natBE (memBytes s.dram (a + 160) 48)) (natBE (memBytes s.dram (a + 208) 48))

theorem tokenOk_eq (h : s.tokenFor a g key) : s.tokenOk (memBytes s.dram a 256) g = s.tokenSigned a key := by
  have hnonce : memNat s.dram (a + 16) 16 = (List.range 4).foldr (fun i v => (s.reg (UPD_NONCE i)).toNat + 2 ^ 32 * v) 0 := memNat_nonce h.nonce
  simp only [State.tokenOk, h.key, fieldN_memBytes _ _ (show 0 + 4 ≤ 256 by decide), fieldN_memBytes _ _ (show 4 + 1 ≤ 256 by decide),
    fieldN_memBytes _ _ (show 5 + 1 ≤ 256 by decide), fieldN_memBytes _ _ (show 6 + 1 ≤ 256 by decide), fieldN_memBytes _ _ (show 8 + 8 ≤ 256 by decide),
    fieldN_memBytes _ _ (show 16 + 16 ≤ 256 by decide), fieldBE_memBytes _ _ (show 160 + 48 ≤ 256 by decide), fieldBE_memBytes _ _ (show 208 + 48 ≤ 256 by decide),
    memBytes_take _ _ (show 160 ≤ 256 by decide), Nat.add_zero, h.magic, h.source, h.target, h.zero, h.device, hnonce, decide_true, Bool.true_and, State.tokenSigned]

theorem lifeCycleByToken (ring : Fin 1) (hready : s.ready 0x13 ring.val 0 e) (hstaging : s.upd.staging = none) (hg : (s.cmdOf 0x13 ring.val e).arg 16 1 = g)
    (ha : (s.cmdOf 0x13 ring.val e).arg 24 8 = a) (hpath : s.nv.lifeCycle = 2 ∧ g = 3 ∨ s.nv.lifeCycle = 3 ∧ g = 2) (htoken : s.tokenFor a g key) :
    ∃ t, exec (.lcChange ring e) s = .next t ∧ s.dramKept (s.complAddr 0x13 ring.val) 16 t ∧
    (s.tokenSigned a key = true → s.completed 0x13 ring.val e 0x00 e.handle.toNat t ∧ t.nv = { s.nv with lcTarget := some g } ∧ t.sys = { s.sys with safeReq := true }) ∧
    (s.tokenSigned a key = false → s.completed 0x13 ring.val e 0x2D e.handle.toNat t ∧ t.nv = s.nv ∧ t.sys = s.sys) ∧
    t.free = s.free + 4 ∧ t.reg (UPD_NONCE 0) = BitVec.ofNat 32 (s.fresh 32) ∧
    s.only [.dram, .rings, .nv, .sys, .free, .rcd, .cyc] (complFlds 0x13 ring.val ++ [wordAt (UPD_NONCE 0), wordAt (UPD_NONCE 1), wordAt (UPD_NONCE 2), wordAt (UPD_NONCE 3)]) t := by
  obtain rfl : ring = 0 := Subsingleton.elim _ _
  subst hg ha
  have hpath' : lcPath s.nv.lifeCycle ((s.cmdOf 0x13 0 e).arg 16 1) = some true := by
    rcases hpath with ⟨hlc, hg⟩ | ⟨hlc, hg⟩
    · rw [hlc, show (s.cmdOf 0x13 0 e).arg 16 1 = 3 from hg]; rfl
    · rw [hlc, show (s.cmdOf 0x13 0 e).arg 16 1 = 2 from hg]; rfl
  have hok := tokenOk_eq htoken
  cases hsigned : s.tokenSigned ((s.cmdOf 0x13 0 e).arg 24 8) key with
  | true =>
    obtain ⟨t, hexec, hdone, hkept, hnv, hsys, hfree, hnonce, honly⟩ := lcTaken_shows hready hstaging hpath' fun _ => hok.trans hsigned
    exact ⟨t, hexec, hkept, fun _ => ⟨hdone, hnv, hsys⟩, fun h => absurd (hsigned.symm.trans h) (by decide), hfree, hnonce, honly⟩
  | false =>
    obtain ⟨t, hexec, hdone, hkept, hfree, hnonce, honly⟩ := lcRefused_shows (code := 0x2D) hready (by decide)
      (lcChanged_wrong (s := s.entryTaken 0x13 0 5 e) hstaging hpath' (hok.trans hsigned))
    exact ⟨t, hexec, hkept, fun h => absurd (hsigned.symm.trans h) (by decide),
      fun _ => ⟨hdone, honly.1 .nv (by simp), honly.1 .sys (by simp)⟩, hfree, hnonce, only_mono honly (by simp +contextual [or_imp]) (by simp [nonceFlds])⟩

end Transitions

section Keys
variable {s : State} {e : Entry} {k a : Nat}

theorem opKeyProg_eq (c : Cmd) (s : State) : opKeyProg c s =
    (if s.nv.lifeCycle ≠ 0 then c.finish 0x0B s
    else if c.arg 16 1 = 0 || 3 < c.arg 16 1 || !Config.onCurve (natBE (memBytes s.dram (c.arg 24 8) 96)) then c.finish 0x05 s
    else if (tget s.nv.otp (c.arg 16 1)).isSome then c.finish 0x08 s
    else c.finish 0x00 (s.withNv { s.nv with otp := tput s.nv.otp (c.arg 16 1) (natBE (memBytes s.dram (c.arg 24 8) 96)) })) := rfl

theorem execKeyProg_eq (hready : s.ready 0x13 0 0 e) : exec (.keyProg 0 e) s = .next (opKeyProg (s.cmdOf 0x13 0 e) (s.entryTaken 0x13 0 6 e)) :=
  congrArg Host.Outcome.next (runRow_runs hready rfl opKeyProg)

/-- A KEY_PROG that ends with a code and does nothing else. -/
theorem keyRefused_shows (hready : s.ready 0x13 0 0 e) {code : Nat} (hc : 0x13 * 256 + code < 2 ^ 16)
    (hop : opKeyProg (s.cmdOf 0x13 0 e) (s.entryTaken 0x13 0 6 e) = (s.cmdOf 0x13 0 e).finish code (s.entryTaken 0x13 0 6 e)) :
    ∃ t, exec (.keyProg 0 e) s = .next t ∧ s.completed 0x13 0 e code e.handle.toNat t ∧ s.dramKept (s.complAddr 0x13 0) 16 t ∧
      s.only [.dram, .rings, .rcd, .cyc] (complFlds 0x13 0) t := by
  obtain ⟨hdone, hkept, honly, -⟩ := updEnds (code := code) hready hc (only_refl _ [] []) (by simp)
  exact ⟨_, (execKeyProg_eq hready).trans (congrArg Host.Outcome.next hop), hdone, hkept, only_mono honly (by simp) (by simp)⟩

theorem keyProgrammed (ring : Fin 1) (hready : s.ready 0x13 ring.val 0 e) (hk : (s.cmdOf 0x13 ring.val e).arg 16 1 = k)
    (ha : (s.cmdOf 0x13 ring.val e).arg 24 8 = a) (hlc : s.nv.lifeCycle = 0) (h1 : 1 ≤ k) (h3 : k ≤ 3) (hempty : tget s.nv.otp k = none) :
    ∃ t, exec (.keyProg ring e) s = .next t ∧
    s.dramKept (s.complAddr 0x13 ring.val) 16 t ∧ (Config.onCurve (natBE (memBytes s.dram a 96)) = true → s.completed 0x13 ring.val e 0x00 e.handle.toNat t ∧ t.nv = { s.nv with otp := tput s.nv.otp k (natBE (memBytes s.dram a 96)) }) ∧
    (Config.onCurve (natBE (memBytes s.dram a 96)) = false → s.completed 0x13 ring.val e 0x05 e.handle.toNat t ∧ t.nv = s.nv) ∧ s.only [.dram, .rings, .nv, .rcd, .cyc] (complFlds 0x13 ring.val) t := by
  obtain rfl : ring = 0 := Subsingleton.elim _ _
  subst hk ha
  have hop := opKeyProg_eq (s.cmdOf 0x13 0 e) (s.entryTaken 0x13 0 6 e)
  rw [if_neg (by exact not_not_intro hlc)] at hop
  have h1' : ¬ (s.cmdOf 0x13 0 e).arg 16 1 = 0 := Nat.one_le_iff_ne_zero.1 h1
  have h3' : ¬ 3 < (s.cmdOf 0x13 0 e).arg 16 1 := Nat.not_lt.2 h3
  cases hcurve : Config.onCurve (natBE (memBytes s.dram ((s.cmdOf 0x13 0 e).arg 24 8) 96)) with
  | true =>
    rw [if_neg (by simp [h1', h3', show Config.onCurve (natBE (memBytes (s.entryTaken 0x13 0 6 e).dram ((s.cmdOf 0x13 0 e).arg 24 8) 96)) = true from hcurve]),
      if_neg (by rw [show tget (s.entryTaken 0x13 0 6 e).nv.otp ((s.cmdOf 0x13 0 e).arg 16 1) = none from hempty]; decide)] at hop
    obtain ⟨hdone, hkept, honly, hend⟩ := updEnds (code := 0x00) hready (by decide) (only_withNv _ (s.entryTaken 0x13 0 6 e)) (by simp)
    exact ⟨_, (execKeyProg_eq hready).trans (congrArg Host.Outcome.next hop), hkept, fun _ => ⟨hdone, hend.1 .nv (by simp)⟩,
      fun h => absurd (hcurve.symm.trans h) (by decide), only_mono honly (by simp) (by simp)⟩
  | false =>
    rw [if_pos (by simp [show Config.onCurve (natBE (memBytes (s.entryTaken 0x13 0 6 e).dram ((s.cmdOf 0x13 0 e).arg 24 8) 96)) = false from hcurve])] at hop
    obtain ⟨t, hexec, hdone, hkept, honly⟩ := keyRefused_shows (code := 0x05) hready (by decide) hop
    exact ⟨t, hexec, hkept, fun h => absurd (hcurve.symm.trans h) (by decide), fun _ => ⟨hdone, honly.1 .nv (by simp)⟩, only_mono honly (by simp) (by simp)⟩

theorem keyRefused (ring : Fin 1) (hready : s.ready 0x13 ring.val 0 e)
    (hbad : s.nv.lifeCycle ≠ 0 ∨ (s.cmdOf 0x13 ring.val e).arg 16 1 = 0 ∨ 3 < (s.cmdOf 0x13 ring.val e).arg 16 1) : ∃ t, exec (.keyProg ring e) s = .next t ∧
    s.completed 0x13 ring.val e (if s.nv.lifeCycle ≠ 0 then 0x0B else 0x05) e.handle.toNat t ∧ s.dramKept (s.complAddr 0x13 ring.val) 16 t ∧ s.only [.dram, .rings, .rcd, .cyc] (complFlds 0x13 ring.val) t := by
  obtain rfl : ring = 0 := Subsingleton.elim _ _
  have hop := opKeyProg_eq (s.cmdOf 0x13 0 e) (s.entryTaken 0x13 0 6 e)
  by_cases hlc : s.nv.lifeCycle ≠ 0
  · rw [if_pos (by exact hlc)] at hop
    rw [if_pos hlc]
    exact keyRefused_shows hready (by decide) hop
  · have hslot : (s.cmdOf 0x13 0 e).arg 16 1 = 0 ∨ 3 < (s.cmdOf 0x13 0 e).arg 16 1 := hbad.resolve_left hlc
    rw [if_neg (by exact hlc), if_pos (by simp only [Bool.or_eq_true, decide_eq_true_eq]; exact .inl hslot)] at hop
    rw [if_neg hlc]
    exact keyRefused_shows hready (by decide) hop

end Keys

end Sys2Proof.Machine
end

section
/-! PROOFS. UPD's service USB port and its disabling (R513, R522), and the statement of chapter 25 on the life cycle, the keys and the port. -/

namespace Sys2Proof.Machine

/-! ### The port (R522) -/

section Usb
variable {s u : State}

/-- Nothing reconfigures the window of a block that no region holds. -/
theorem closed_updUsb (s : State) : s.closed UPD_USB = false := by
  have hregion : regionOf (blkOf UPD_USB) = none := by decide
  simp only [State.closed, State.reconfiguring, hregion, Bool.false_or, Bool.and_eq_false_iff]
  exact .inl (by decide)

theorem execUsbEnable_eq (core : Fin 8) (v : Word) (s : State) : exec (.usbEnable core v) s = .next (s.accessed.writeUsb v) :=
  congrArg Host.Outcome.next (hostWrite_special rfl (closed_updUsb s) rfl)

/-- A rising EN clears what was received. -/
def State.usbCleared (en : Bool) (s : State) : State := if en && !s.getB UPD_USB.EN then (s.set UPD_USB_RCV.RCV 0).setB UPD_USB.DONE false else s

theorem writeUsb_eq (v : Word) (s : State) : s.writeUsb v = ((s.usbCleared (bitAt v.toNat 31)).setB UPD_USB.EN (bitAt v.toNat 31)).usbShow := rfl

theorem only_usbCleared (en : Bool) (s : State) : s.only [] [UPD_USB.DONE, UPD_USB_RCV.RCV] (s.usbCleared en) := by
  unfold State.usbCleared
  split
  · exact only_then_setB (only_then_set (only_refl s _ _) 0 (by simp) (Nat.le_of_ble_eq_true rfl)) false (by simp) (Nat.le_of_ble_eq_true rfl)
  · exact only_refl ..

theorem usbCleared_reads (en : Bool) (s : State) :
    (s.usbCleared en).get UPD_USB_RCV.RCV = (if en = true ∧ s.getB UPD_USB.EN = false then 0 else s.get UPD_USB_RCV.RCV) ∧
      (s.usbCleared en).getB UPD_USB.DONE = (if en = true ∧ s.getB UPD_USB.EN = false then false else s.getB UPD_USB.DONE) := by
  unfold State.usbCleared
  by_cases h : en = true ∧ s.getB UPD_USB.EN = false
  · rw [if_pos (by simp [h.1, h.2]), if_pos h, if_pos h]
    refine ⟨?_, getB_setB_self _ _ _ (Nat.le_of_ble_eq_true rfl) rfl⟩
    rw [get_setB_apart _ _ _ _ (.inl (by decide)) (Nat.le_of_ble_eq_true rfl), get_set_self _ _ _ (Nat.le_of_ble_eq_true rfl)]
    rfl
  · rw [if_neg (by simpa using h), if_neg h, if_neg h]
    exact ⟨rfl, rfl⟩

theorem only_usbShow (s : State) : s.only [] [UPD_USB.CONN] s.usbShow := only_set s _ (Nat.le_of_ble_eq_true rfl)

theorem conn_usbShow (s : State) : s.usbShow.getB UPD_USB.CONN = (s.upd.vbus && decide (s.nv.lifeCycle ≠ 4) && (s.getB UPD_USB.EN || decide (s.sys.mode = .recovery))) :=
  getB_setB_self _ _ _ (Nat.le_of_ble_eq_true rfl) rfl

theorem portEnabled (core : Fin 8) (value : Word) (s : State) : ∃ t, exec (.usbEnable core value) s = .next t ∧ t.getB UPD_USB.EN = bitAt value.toNat 31 ∧
    t.getB UPD_USB.CONN = (s.upd.vbus && decide (s.nv.lifeCycle ≠ 4) && (bitAt value.toNat 31 || decide (s.sys.mode = .recovery))) ∧
    t.get UPD_USB_RCV.RCV = (if bitAt value.toNat 31 = true ∧ s.getB UPD_USB.EN = false then 0 else s.get UPD_USB_RCV.RCV) ∧
    t.getB UPD_USB.DONE = (if bitAt value.toNat 31 = true ∧ s.getB UPD_USB.EN = false then false else s.getB UPD_USB.DONE) ∧ s.only [.access] [UPD_USB.EN, UPD_USB.CONN, UPD_USB.DONE, UPD_USB_RCV.RCV] t := by
  have hclear := only_seq (only_accessed s) (only_usbCleared (bitAt value.toNat 31) s.accessed)
  obtain ⟨hrcv, hdone⟩ := usbCleared_reads (bitAt value.toNat 31) s.accessed
  refine ⟨_, (execUsbEnable_eq core value s).trans (congrArg Host.Outcome.next (writeUsb_eq value s.accessed)), ?_⟩
  generalize s.accessed.usbCleared (bitAt value.toNat 31) = u at hclear hrcv hdone
  have hset : u.only [] [UPD_USB.EN] (u.setB UPD_USB.EN (bitAt value.toNat 31)) := only_set u _ (Nat.le_of_ble_eq_true rfl)
  have hen : (u.setB UPD_USB.EN (bitAt value.toNat 31)).getB UPD_USB.EN = bitAt value.toNat 31 := getB_setB_self _ _ _ (Nat.le_of_ble_eq_true rfl) rfl
  generalize u.setB UPD_USB.EN (bitAt value.toNat 31) = v at hset hen
  have hshow := only_usbShow v
  have hall := only_seq hclear hset
  have hv {c : Comp} (hc : c ≠ .access) : s.same v c := hall.1 c (by simpa using hc)
  refine ⟨(hshow.getB rfl).trans hen, (conn_usbShow v).trans ?_, (hshow.get rfl).trans ((hset.get rfl).trans hrcv),
    (hshow.getB rfl).trans ((hset.getB rfl).trans hdone), only_mono (only_seq hall hshow) (by simp) (by simp +contextual [or_imp])⟩
  rw [hen, show v.upd = s.upd from hv (c := .upd) (by simp), show v.nv = s.nv from hv (c := .nv) (by simp), show v.sys = s.sys from hv (c := .sys) (by simp)]

/-- Received bytes counted. -/
def State.usbCounted (n : Nat) (s : State) : State := s.set UPD_USB_RCV.RCV n

/-- The end of a transfer noted. -/
def State.usbEnded (last : Bool) (s : State) : State := if last then (s.setB UPD_USB.DONE true).raise 350 else s

theorem execUsbData_eq {data d : List Byte} {cap rcv a : Nat} (hen : s.getB UPD_USB.EN = true) (hconn : s.getB UPD_USB.CONN = true)
    (hdone : s.getB UPD_USB.DONE = false) (hcap : cap = s.get UPD_USB_LEN.LEN * 1048576) (hrcv : rcv = s.get UPD_USB_RCV.RCV) (hd : d = data.take (cap - rcv))
    (ha : a = s.get64 UPD_USB_BASE_LO UPD_USB_BASE_HI + rcv) :
    exec (.usbData data) s = .next (((s.blockPuts 0x13 a d).usbCounted (rcv + d.length)).usbEnded (data.isEmpty || decide (cap ≤ rcv + d.length))) := by
  subst hd ha hcap hrcv
  rw [show exec (.usbData data) s = execUsbData data s from rfl, execUsbData, hen, hconn, hdone]
  rfl

/-- What a packet's count and end show. -/
theorem usbCounted_shows {n : Nat} (hn : n < 2 ^ 32) (last : Bool) (hdone : s.getB UPD_USB.DONE = false) :
    let t := (s.usbCounted n).usbEnded last
    t.get UPD_USB_RCV.RCV = n ∧ t.getB UPD_USB.DONE = last ∧ (t.getB UPD_USB.DONE = true → s.raised 350 t) ∧
      s.only [.rcd, .cyc] ([UPD_USB_RCV.RCV, UPD_USB.DONE] ++ raiseFlds 350) t := by
  intro t
  have hcount : s.only [] [UPD_USB_RCV.RCV, UPD_USB.DONE] (s.usbCounted n) := only_then_set (only_refl s _ _) n (by simp) (Nat.le_of_ble_eq_true rfl)
  have hrcv : (s.usbCounted n).get UPD_USB_RCV.RCV = n := (get_set_self _ _ _ (Nat.le_of_ble_eq_true rfl)).trans (Nat.mod_eq_of_lt hn)
  have hkeep : (s.usbCounted n).getB UPD_USB.DONE = false := (getB_of_get (get_set_apart _ _ _ _ (.inl (by decide)) (Nat.le_of_ble_eq_true rfl))).trans hdone
  cases last with
  | false => exact ⟨hrcv, hkeep, fun h => absurd (hkeep.symm.trans h) (by decide), only_mono hcount (by simp) (by simp +contextual [or_imp])⟩
  | true =>
    have hset := only_then_setB hcount true (f := UPD_USB.DONE) (by simp) (Nat.le_of_ble_eq_true rfl)
    obtain ⟨hraised, honly⟩ := raise_behind 350 hset (by simp) (windows_all rfl)
    have hlast : ((s.usbCounted n).setB UPD_USB.DONE true).getB UPD_USB.DONE = true := getB_setB_self _ _ _ (Nat.le_of_ble_eq_true rfl) rfl
    have hrcv' : ((s.usbCounted n).setB UPD_USB.DONE true).get UPD_USB_RCV.RCV = n :=
      (get_setB_apart _ _ _ _ (.inl (by decide)) (Nat.le_of_ble_eq_true rfl)).trans hrcv
    exact ⟨(get_raise_outside _ _ (by decide)).trans hrcv', (getB_raise_outside _ _ (by decide)).trans hlast, fun _ => hraised, honly⟩

theorem lastPacket_eq (data d : List Byte) (cap rcv : Nat) :
    (data.isEmpty || decide (cap ≤ rcv + d.length)) = decide (data = [] ∨ cap ≤ rcv + d.length) := by
  cases data <;> simp

theorem packetStored {data d : List Byte} {cap rcv a : Nat} (hen : s.getB UPD_USB.EN = true) (hconn : s.getB UPD_USB.CONN = true)
    (hdone : s.getB UPD_USB.DONE = false) (hcap : cap = s.get UPD_USB_LEN.LEN * 1048576) (hrcv : rcv = s.get UPD_USB_RCV.RCV) (hd : d = data.take (cap - rcv))
    (ha : a = s.get64 UPD_USB_BASE_LO UPD_USB_BASE_HI + rcv) (hsize : rcv + d.length < 2 ^ 32) (hin : s.inWins 0x13 a d.length = true) :
    ∃ t, exec (.usbData data) s = .next t ∧ memBytes t.dram a d.length = d ∧ s.dramKept a d.length t ∧ t.get UPD_USB_RCV.RCV = rcv + d.length ∧ t.getB UPD_USB.DONE = decide (data = [] ∨ cap ≤ rcv + d.length) ∧
    (t.getB UPD_USB.DONE = true → s.raised 350 t) ∧ s.only [.dram, .rcd, .cyc] ([UPD_USB_RCV.RCV, UPD_USB.DONE] ++ raiseFlds 350) t := by
  have hexec := execUsbData_eq hen hconn hdone hcap hrcv hd ha
  rw [lastPacket_eq, State.blockPuts, if_pos hin] at hexec
  have hputs := only_dramPuts a d s
  have hbytes : memBytes (s.dramPuts a d).dram a d.length = d := memBytes_memPuts d s.dram a
  have hkept : s.dramKept a d.length (s.dramPuts a d) := fun x hx => memByte_memPuts_ne _ _ _ _ hx
  generalize s.dramPuts a d = u at hexec hputs hbytes hkept
  obtain ⟨hr, hdn, hraised, honly⟩ := usbCounted_shows (s := u) hsize (decide (data = [] ∨ cap ≤ rcv + d.length)) ((getB_of_get (get_of_only_nil hputs _)).trans hdone)
  have hdram := honly.1 .dram (by simp)
  exact ⟨_, hexec, by rw [hdram]; exact hbytes, dramKept_then hkept hdram.symm, hr, hdn, fun h => raised_of_only hputs (by simp) (by simp) (hraised h),
    only_mono (only_seq hputs honly) (by simp) (by simp)⟩

theorem packetOutside {data d : List Byte} {cap rcv a : Nat} (hen : s.getB UPD_USB.EN = true) (hconn : s.getB UPD_USB.CONN = true)
    (hdone : s.getB UPD_USB.DONE = false) (hcap : cap = s.get UPD_USB_LEN.LEN * 1048576) (hrcv : rcv = s.get UPD_USB_RCV.RCV) (hd : d = data.take (cap - rcv))
    (ha : a = s.get64 UPD_USB_BASE_LO UPD_USB_BASE_HI + rcv) (hsize : rcv + d.length < 2 ^ 32) (hout : s.inWins 0x13 a d.length = false) :
    ∃ t, exec (.usbData data) s = .next t ∧ t.get UPD_USB_RCV.RCV = rcv + d.length ∧ t.getB UPD_USB.DONE = decide (data = [] ∨ cap ≤ rcv + d.length) ∧
    (t.getB UPD_USB.DONE = true → s.raised 350 t) ∧ s.only [.rcd, .cyc] ([UPD_USB_RCV.RCV, UPD_USB.DONE] ++ raiseFlds 350) t := by
  have hexec := execUsbData_eq hen hconn hdone hcap hrcv hd ha
  rw [lastPacket_eq, State.blockPuts, if_neg (by simp [hout])] at hexec
  exact ⟨_, hexec, usbCounted_shows hsize _ hdone⟩

/-- The state with VBUS as given. -/
def State.withVbus (present : Bool) (s : State) : State := { s with upd := { s.upd with vbus := present } }

theorem only_withVbus (present : Bool) (s : State) : s.only [.upd] [] (s.withVbus present) :=
  ⟨fun p hp => by cases p <;> simp [State.same, State.withVbus] at hp ⊢, fun _ _ => rfl, rfl, rfl⟩

theorem vbusChanges (present : Bool) (s : State) : ∃ t, exec (.usbVbusChange present) s = .next t ∧ t.upd = { s.upd with vbus := present } ∧
    t.getB UPD_USB.CONN = (present && decide (s.nv.lifeCycle ≠ 4) && (s.getB UPD_USB.EN || decide (s.sys.mode = .recovery))) ∧ s.only [.upd] [UPD_USB.CONN] t := by
  have hshow := only_usbShow (s.withVbus present)
  exact ⟨(s.withVbus present).usbShow, rfl, hshow.1 .upd (by simp), conn_usbShow _, only_mono (only_seq (only_withVbus present s) hshow) (by simp) (by simp)⟩

end Usb

/-! ### Disabling (R513) -/

section Disable
variable {s : State}

theorem updDisabledIdle (hon : s.getB UPD_CTRL.ENABLE = true) (hidle : s.upd.staging = none) :
    ∃ t, exec .updDisable s = .next t ∧ t.getB UPD_CTRL.ENABLE = false ∧ s.only [] [UPD_CTRL.ENABLE] t := by
  have hidle' : (s.setB UPD_CTRL.ENABLE false).upd.staging.isSome = false := by rw [setB_upd, hidle]; rfl
  have hexec : exec .updDisable s = .next (s.setB UPD_CTRL.ENABLE false) := by
    rw [show exec .updDisable s = execUpdDisable s from rfl, execUpdDisable, if_pos hon, State.updDisable, State.updAbandon, hidle']
    rfl
  exact ⟨_, hexec, getB_setB_self _ _ _ (Nat.le_of_ble_eq_true rfl) rfl, only_set s _ (Nat.le_of_ble_eq_true rfl)⟩

/-- The state with no staging. -/
def State.unstaged (s : State) : State := { s with upd := { s.upd with staging := none } }

theorem only_unstaged (s : State) : s.only [.upd] [] s.unstaged :=
  ⟨fun p hp => by cases p <;> simp [State.same, State.unstaged] at hp ⊢, fun _ _ => rfl, rfl, rfl⟩

/-- The staging off, as UPD shows it. -/
def State.stagingHidden (s : State) : State := s.unstaged.setB UPD_STAT.STAGING false

theorem only_stagingHidden (s : State) : s.only [.upd] [UPD_STAT.STAGING] s.stagingHidden :=
  only_then_setB (only_mono (only_unstaged s) (by simp) (by simp)) false (by simp) (Nat.le_of_ble_eq_true rfl)

theorem stagingOff_waiting {g : Staging} (hg : s.upd.staging = some g) (habort : g.abort = none) : s.stagingOff = s.stagingHidden.arbRelease 22 := by
  simp only [State.stagingOff, hg, habort]
  rfl

theorem updDisabledStaging {g : Staging} (hon : s.getB UPD_CTRL.ENABLE = true) (hg : s.upd.staging = some g) (habort : g.abort = none)
    (hno : s.arbHolds 22 = false) : ∃ t, exec .updDisable s = .next t ∧ t.getB UPD_CTRL.ENABLE = false ∧ t.upd.staging = none ∧ t.getB UPD_STAT.STAGING = false ∧
    t.arb = { s.arb with since := tdel s.arb.since 22 } ∧ t.getB (ARB_REQ.PEND 22) = false ∧ t.nv = s.nv ∧ s.only [.upd, .arb] [UPD_CTRL.ENABLE, UPD_STAT.STAGING, ARB_REQ.PEND 22] t := by
  have hoff : s.only [] [UPD_CTRL.ENABLE] (s.setB UPD_CTRL.ENABLE false) := only_set s _ (Nat.le_of_ble_eq_true rfl)
  have hen : (s.setB UPD_CTRL.ENABLE false).getB UPD_CTRL.ENABLE = false := getB_setB_self _ _ _ (Nat.le_of_ble_eq_true rfl) rfl
  have hg' : (s.setB UPD_CTRL.ENABLE false).upd.staging = some g := by rw [setB_upd, hg]
  have hexec : exec .updDisable s = .next (s.setB UPD_CTRL.ENABLE false).stagingOff := by
    rw [show exec .updDisable s = execUpdDisable s from rfl, execUpdDisable, if_pos hon, State.updDisable, State.updAbandon, if_pos (by rw [hg']; rfl)]
  rw [stagingOff_waiting hg' habort] at hexec
  generalize s.setB UPD_CTRL.ENABLE false = u at hoff hen hg' hexec
  have hhide := only_seq hoff (only_stagingHidden u)
  have hstaging : u.stagingHidden.upd.staging = none := by rw [State.stagingHidden, setB_upd]; rfl
  have hshown : u.stagingHidden.getB UPD_STAT.STAGING = false := getB_setB_self _ _ _ (Nat.le_of_ble_eq_true rfl) rfl
  have hen' : u.stagingHidden.getB UPD_CTRL.ENABLE = false := ((only_stagingHidden u).getB rfl).trans hen
  have harb : u.stagingHidden.arb = s.arb := hhide.1 .arb (by simp)
  have hno' : u.stagingHidden.arbHolds 22 = false := (arbHolds_of_only hhide (stat_apart (by decide) _)).trans hno
  rw [arbRelease_waiting hno'] at hexec
  generalize u.stagingHidden = v at hexec hhide hstaging hshown hen' harb
  have hrel := only_unrequested 22 v
  obtain ⟨hva, hpend⟩ := unrequested_reads 22 v
  have hen1 : (State.unrequested 22 v).getB UPD_CTRL.ENABLE = v.getB UPD_CTRL.ENABLE := hrel.getB rfl
  have hst1 : (State.unrequested 22 v).getB UPD_STAT.STAGING = v.getB UPD_STAT.STAGING := hrel.getB rfl
  refine ⟨_, hexec, hen1.trans hen', ?_, hst1.trans hshown, by rw [hva, harb], hpend, ?_, only_mono (only_seq hhide hrel) (by simp) (by simp)⟩
  · exact (congrArg UpdState.staging (hrel.1 .upd (by simp))).trans hstaging
  · exact (hrel.1 .nv (by simp)).trans (hhide.1 .nv (by simp))

end Disable

/-! ### The statement -/

/-- Settles O59: LC_CHANGE and KEY_PROG act by Tables 25-7 and 25-8, the port receives while it is enabled, and disabling UPD abandons a staging. -/
theorem lifeCycleKeysAndTheServicePortActAsStated : Obligations.LifeCycleKeysAndTheServicePortActAsStated := by
  unfold Obligations.LifeCycleKeysAndTheServicePortActAsStated
  refine ⟨fun ring e g s => lifeCycleMoves ring, fun ring e g s => lifeCycleBarred ring, ?_, fun ring e k a s => keyProgrammed ring, fun ring e s => keyRefused ring,
    portEnabled, fun data d cap rcv a s => packetStored, fun data d cap rcv a s => packetOutside, fun present s _ => vbusChanges present s,
    fun s => updDisabledIdle, fun g s => updDisabledStaging⟩
  intro ring e g a key s hready hstaging hg ha hpath hkey hmagic hsource htarget hzero hdevice hnonce
  exact lifeCycleByToken ring hready hstaging hg ha hpath ⟨hkey, hmagic, hsource, htarget, hzero, hdevice, hnonce⟩

end Sys2Proof.Machine
end

section
/-! PROOFS. PNL's faults, readings, frontlight and disabling (R477 to R479, R490, R495): the statement of chapter 23 on them. -/

namespace Sys2Proof.Machine

/-! ### The rails drop (R490) -/

section Drop
variable {s u : State} {ps : List Comp} {fs : List Fld} {code : Nat} {o : PnlOp} {x : Taken}

theorem offRing_all {b r : Nat} (h : (fs.all fun f => decide (f.addr < ringG b r ∨ ringG b r + 0x20 ≤ f.addr)) = true) : offRing b r fs :=
  fun f hf => of_decide_eq_true (List.all_eq_true.1 h f hf)

/-- The state with other facts behind PNL's registers. -/
def State.withPnl (x : PnlState) (s : State) : State := { s with pnl := x }

theorem only_withPnl (x : PnlState) (s : State) : s.only [.pnl] [] (s.withPnl x) :=
  ⟨fun p hp => by cases p <;> simp [State.same, State.withPnl] at hp ⊢, fun _ _ => rfl, rfl, rfl⟩

/-- The panel with its rails dropped and no command. -/
def PnlState.down (p : PnlState) : PnlState := { p with op := none, rails := 0, vddp := false, railAt := none, frameAt := none, parkAt := none }

/-- The panel after a fault. -/
def PnlState.faultDown (p : PnlState) : PnlState := { p.down with faulted := true }

/-- The state with PNL off and the facts `x`. -/
def State.pnlOff (x : PnlState) (s : State) : State := (s.withPnl x).set PNL_STAT.STATE 0

theorem pnlOff_shows (x : PnlState) (s : State) :
    (s.pnlOff x).pnl = x ∧ (s.pnlOff x).get PNL_STAT.STATE = 0 ∧ s.only [.pnl] [PNL_STAT.STATE] (s.pnlOff x) :=
  ⟨set_pnl _ _ _, get_set_self _ _ _ (Nat.le_of_ble_eq_true rfl),
    only_then_set (only_mono (only_withPnl x s) (by simp) (by simp)) 0 (by simp) (Nat.le_of_ble_eq_true rfl)⟩

theorem pnlDrop_eq (s : State) : s.pnlDrop = s.pnlOff s.pnl.down := rfl

/-- The command `o` leaves the panel. -/
def State.opGone (s : State) : State := s.withPnl { s.pnl with op := none }

theorem pnlFinish_eq (hkind : o.kind ≠ 0) : s.pnlFinish o code = s.opGone.completeSelf 0x11 0 o.id code :=
  if_neg hkind

theorem pnlFault_idle (h : s.pnl.op = none) : s.pnlFault code = s.pnlOff s.pnl.faultDown := by
  rw [State.pnlFault, h]
  rfl

theorem pnlFault_running (h : s.pnl.op = some o) (hkind : o.kind ≠ 0) :
    s.pnlFault code = (s.opGone.completeSelf 0x11 0 o.id code).pnlOff s.pnl.faultDown := by
  have hpnl : (s.opGone.completeSelf 0x11 0 o.id code).pnl = s.opGone.pnl := completeSelf_pnl ..
  rw [State.pnlFault, h]
  simp only [pnlFinish_eq hkind]
  rw [pnlDrop_eq, hpnl]
  rfl

/-- The command in progress ends and the panel goes off. -/
theorem opEnds_off (p : PnlState) (hc : 0x11 * 256 + code < 2 ^ 16) (htaken : (s.ring 0x11 0).taken = [x]) (hid : x.id = o.id)
    (hv : s.only ps fs u) (hl : .ltc ∉ ps ∧ .rings ∉ ps ∧ .dram ∉ ps) (hoff : offRing 0x11 0 fs) :
    let t := (u.opGone.completeSelf 0x11 0 o.id code).pnlOff p
    s.ended 0x11 0 x code x.handle t ∧ s.dramKept (s.complAddr 0x11 0) 16 t ∧ t.pnl = p ∧ t.get PNL_STAT.STATE = 0 ∧
      s.only ([.dram, .rings, .rcd, .cyc, .pnl] ++ ps) (PNL_STAT.STATE :: complFlds 0x11 0 ++ fs) t := by
  intro t
  obtain ⟨hp, hst, honly⟩ := pnlOff_shows p (u.opGone.completeSelf 0x11 0 o.id code)
  have hgone := only_seq hv (only_withPnl { u.pnl with op := none } u)
  rw [← hid] at hp hst honly
  obtain ⟨hended, hkept, hall⟩ := selfEnds_then (code := code) (by decide) hc htaken hgone (by simp [hl.1]) (by simp [hl.2.1]) (by simp [hl.2.2])
    (by simpa using hoff) honly (by simp) (by simp) (offRing_all rfl)
  have ht : t = (u.opGone.completeSelf 0x11 0 x.id code).pnlOff p := by rw [hid]
  rw [ht]
  exact ⟨hended, hkept, hp, hst, only_mono hall (by simp +contextual [or_imp]) (by simp +contextual [or_imp])⟩

theorem offSource_complFlds (n : Nat) (h : n % 384 ≠ 320) : offSource n (complFlds 0x11 0) :=
  offSource_cons (by decide) (offSource_cons (by decide) (offSource_raiseFlds (by show 320 ≠ _; omega)))

end Drop

/-! ### Rail faults and removal (R490) -/

section Faults
variable {s : State} {o : PnlOp} {x : Taken} {rail : Fin 5}

/-- The bit of RAIL_F of a rail. -/
def railBit (rail : Fin 5) : Fld := ⟨PNL_STAT, 16 + rail.val, 1⟩

theorem railBit_fits (rail : Fin 5) : (railBit rail).lo + (railBit rail).width ≤ 32 := by
  have := rail.isLt
  simp only [railBit]
  omega

theorem railBit_apart (rail : Fin 5) : (railBit rail).apart PNL_STAT.STATE := by
  have := rail.isLt
  refine .inr (.inl ?_)
  simp only [railBit, PNL_STAT.STATE]
  omega

/-- A fault of rail `rail` set in its bit. -/
def State.railSet (rail : Fin 5) (s : State) : State := s.set (railBit rail) 1

theorem railSet_shows (rail : Fin 5) (s : State) : (s.railSet rail).getB (railBit rail) = true ∧ (s.railSet rail).pnl = s.pnl ∧ s.only [] [railBit rail] (s.railSet rail) :=
  ⟨getB_setB_self (b := true) _ _ (railBit_fits rail) rfl, set_pnl _ _ _, only_set s 1 (railBit_fits rail)⟩

theorem execRailFault_eq (hon : s.enabled 0x11 = true) (hst : s.get PNL_STAT.STATE ≠ 0)
    (hrail : rail.val < s.pnl.rails ∨ s.get PNL_STAT.STATE = 1 ∧ rail.val = s.pnl.rails) :
    exec (.railFault rail) s = .next (((s.railSet rail).pnlFault 0x23).raise 321) := by
  refine congrArg Host.Outcome.next (if_pos ?_)
  have hst' : s.pnlState ≠ 0 := hst
  have hrail' : rail.val < s.pnl.rails ∨ s.pnlState = 1 ∧ rail.val = s.pnl.rails := hrail
  simpa [hon, hst'] using hrail'

/-- The bit of a rail through work beside it. -/
theorem railFaulted {t u : State} {ps : List Comp} {fs : List Fld} (hbit : s.getB (railBit rail) = true) (honly : s.only ps fs u)
    (hoff : ∀ f ∈ fs, (railBit rail).apart f) (ht : u.only [.rcd, .cyc] (raiseFlds 321) t) : bitAt (t.get PNL_STAT.RAIL_F) rail.val = true := by
  rw [← getB_bit_of_get (f := PNL_STAT.RAIL_F) rail.isLt]
  exact (getB_of_only ht (apart_of_window (by decide : ∀ f ∈ raiseFlds 321, windowOf f.addr ≠ windowOf PNL_STAT))).trans ((getB_of_only honly hoff).trans hbit)

theorem railFaultEnds (hon : s.enabled 0x11 = true) (hst : s.get PNL_STAT.STATE ≠ 0) (hrail : rail.val < s.pnl.rails ∨ s.get PNL_STAT.STATE = 1 ∧ rail.val = s.pnl.rails)
    (hop : s.pnl.op = some o) (hkind : o.kind ≠ 0) (htaken : (s.ring 0x11 0).taken = [x]) (hid : x.id = o.id) : ∃ t, exec (.railFault rail) s = .next t ∧
    bitAt (t.get PNL_STAT.RAIL_F) rail.val = true ∧ s.ended 0x11 0 x 0x23 x.handle t ∧ s.dramKept (s.complAddr 0x11 0) 16 t ∧ t.pnl = s.pnl.faultDown ∧
    t.get PNL_STAT.STATE = 0 ∧ s.raised 321 t ∧ s.only [.dram, .rings, .pnl, .rcd, .cyc] ([⟨PNL_STAT, 16 + rail.val, 1⟩, PNL_STAT.STATE] ++ complFlds 0x11 0 ++ raiseFlds 321) t := by
  have hexec := execRailFault_eq hon hst hrail
  obtain ⟨hbit, hpnl, hset⟩ := railSet_shows rail s
  rw [pnlFault_running (hpnl ▸ hop) hkind, hpnl] at hexec
  obtain ⟨hended, hkept, hp, hstate, honly⟩ := opEnds_off (u := s.railSet rail) (code := 0x23) s.pnl.faultDown (by decide) htaken hid hset (by simp)
    (fun f hf => by rw [List.mem_singleton.1 hf]; exact .inl (show PNL_STAT < ringG 0x11 0 by decide))
  have hgone := only_withPnl { (s.railSet rail).pnl with op := none } (s.railSet rail)
  have hbeside : (s.railSet rail).only ([.pnl] ++ [.dram, .rings, .rcd, .cyc] ++ [.pnl]) (([] ++ complFlds 0x11 0) ++ [PNL_STAT.STATE]) _ :=
    only_seq (only_seq hgone (only_completeSelf (b := 0x11) (r := 0) (code := 0x23) o.id (by decide))) (pnlOff_shows s.pnl.faultDown _).2.2
  change (s.railSet rail).only _ _ (((s.railSet rail).opGone.completeSelf 0x11 0 o.id 0x23).pnlOff s.pnl.faultDown) at hbeside
  generalize ((s.railSet rail).opGone.completeSelf 0x11 0 o.id 0x23).pnlOff s.pnl.faultDown = u at hexec hended hkept hp hstate honly hbeside
  have hraise := only_raise u 321
  have hoff : ∀ f ∈ ([] ++ complFlds 0x11 0) ++ [PNL_STAT.STATE], (railBit rail).apart f := by
    intro f hf
    rcases List.mem_append.1 hf with hf | hf
    · have hne : ∀ f ∈ ([] ++ complFlds 0x11 0 : List Fld), PNL_STAT ≠ f.addr := by decide
      exact .inl (hne f hf)
    · rw [List.mem_singleton.1 hf]
      exact railBit_apart rail
  have hsource : offSource 321 (PNL_STAT.STATE :: complFlds 0x11 0 ++ [railBit rail]) :=
    offSource_append (offSource_cons (by decide) (offSource_complFlds 321 (by decide))) (offSource_of_window (by simp [railBit, windowOf, PNL_STAT]))
  exact ⟨_, hexec, railFaulted hbit hbeside hoff hraise, ended_then hended hraise (by simp) (by simp) (offRing_all rfl), dramKept_then hkept (hraise.1 .dram (by simp)).symm,
    (raise_pnl u 321).trans hp, (get_raise_outside _ _ (by decide)).trans hstate, raised_behind honly (by simp) hsource,
    only_mono (only_seq honly hraise) (by simp) (by simp +contextual [or_imp, railBit])⟩

theorem railFaultIdle (hon : s.enabled 0x11 = true) (hst : s.get PNL_STAT.STATE = 4) (hrail : rail.val < s.pnl.rails) (hop : s.pnl.op = none) :
    ∃ t, exec (.railFault rail) s = .next t ∧
    bitAt (t.get PNL_STAT.RAIL_F) rail.val = true ∧ t.pnl = s.pnl.faultDown ∧ t.get PNL_STAT.STATE = 0 ∧ s.raised 321 t ∧
    s.only [.pnl, .rcd, .cyc] ([⟨PNL_STAT, 16 + rail.val, 1⟩, PNL_STAT.STATE] ++ raiseFlds 321) t := by
  have hexec := execRailFault_eq hon (by simp [hst]) (.inl hrail)
  obtain ⟨hbit, hpnl, hset⟩ := railSet_shows rail s
  rw [pnlFault_idle (hpnl ▸ hop), hpnl] at hexec
  obtain ⟨hp, hstate, honly⟩ := pnlOff_shows s.pnl.faultDown (s.railSet rail)
  generalize (s.railSet rail).pnlOff s.pnl.faultDown = u at hexec hp hstate honly
  have hraise := only_raise u 321
  obtain ⟨hraised, hall⟩ := raise_behind 321 (only_seq hset honly) (by simp) (by simp [railBit, windowOf, PNL_STAT, PNL_STAT.STATE])
  exact ⟨_, hexec, railFaulted hbit honly (by simpa using railBit_apart rail) hraise, (raise_pnl u 321).trans hp,
    (get_raise_outside _ _ (by decide)).trans hstate, hraised, only_mono hall (by simp) (by simp +contextual [railBit])⟩

theorem execPanelRemoved_eq (hon : s.enabled 0x11 = true) (hv : s.pnl.vddp = true) (hpdet : s.pnl.pdet = false) (hat : s.pnl.pdetAt + 10000000 ≤ s.now) :
    exec .panelRemoved s = .next ((s.pnlFault 0x20).raise 322) :=
  congrArg Host.Outcome.next (if_pos (by simp [hon, hv, hpdet, hat]))

theorem removedIdle (hon : s.enabled 0x11 = true) (hv : s.pnl.vddp = true) (hpdet : s.pnl.pdet = false) (hat : s.pnl.pdetAt + 10000000 ≤ s.now)
    (hop : s.pnl.op = none) : ∃ t, exec .panelRemoved s = .next t ∧
    t.pnl = s.pnl.faultDown ∧ t.get PNL_STAT.STATE = 0 ∧ s.raised 322 t ∧ s.only [.pnl, .rcd, .cyc] (PNL_STAT.STATE :: raiseFlds 322) t := by
  have hexec := execPanelRemoved_eq hon hv hpdet hat
  rw [pnlFault_idle hop] at hexec
  obtain ⟨hp, hstate, honly⟩ := pnlOff_shows s.pnl.faultDown s
  generalize s.pnlOff s.pnl.faultDown = u at hexec hp hstate honly
  obtain ⟨hraised, hall⟩ := raise_behind 322 honly (by simp) (windows_all rfl)
  exact ⟨_, hexec, (raise_pnl u 322).trans hp, (get_raise_outside _ _ (by decide)).trans hstate, hraised, hall⟩

theorem removedEnds (hon : s.enabled 0x11 = true) (hv : s.pnl.vddp = true) (hpdet : s.pnl.pdet = false) (hat : s.pnl.pdetAt + 10000000 ≤ s.now)
    (hop : s.pnl.op = some o) (hkind : o.kind ≠ 0) (htaken : (s.ring 0x11 0).taken = [x]) (hid : x.id = o.id) : ∃ t, exec .panelRemoved s = .next t ∧
    s.ended 0x11 0 x 0x20 x.handle t ∧ s.dramKept (s.complAddr 0x11 0) 16 t ∧ t.pnl = s.pnl.faultDown ∧ t.get PNL_STAT.STATE = 0 ∧ s.raised 322 t ∧
    s.only [.dram, .rings, .pnl, .rcd, .cyc] (PNL_STAT.STATE :: complFlds 0x11 0 ++ raiseFlds 322) t := by
  have hexec := execPanelRemoved_eq hon hv hpdet hat
  rw [pnlFault_running hop hkind] at hexec
  obtain ⟨hended, hkept, hp, hstate, honly⟩ := opEnds_off (u := s) (code := 0x20) s.pnl.faultDown (by decide) htaken hid (only_refl s [] []) (by simp) (by simp [offRing])
  generalize (s.opGone.completeSelf 0x11 0 o.id 0x20).pnlOff s.pnl.faultDown = u at hexec hended hkept hp hstate honly
  have hraise := only_raise u 322
  have hsource : offSource 322 (PNL_STAT.STATE :: complFlds 0x11 0 ++ []) :=
    offSource_append (offSource_cons (by decide) (offSource_complFlds 322 (by decide))) offSource_nil
  exact ⟨_, hexec, ended_then hended hraise (by simp) (by simp) (offRing_all rfl), dramKept_then hkept (hraise.1 .dram (by simp)).symm,
    (raise_pnl u 322).trans hp, (get_raise_outside _ _ (by decide)).trans hstate, raised_behind honly (by simp) hsource,
    only_mono (only_seq honly hraise) (by simp) (by simp +contextual)⟩

end Faults

/-! ### Presence and temperature (R479, R495) -/

section Readings
variable {s : State}

theorem pnlSweep_of_true (h : s.panelTrue = true) : s.pnlSweep = s := by
  refine if_neg ?_
  rw [State.panelTrue, Bool.not_eq_true'] at h
  rw [h]
  decide

/-- The state with the presence pin as given. -/
def State.withPdet (present : Bool) (s : State) : State := s.withPnl { s.pnl with pdet := present, pdetAt := s.now }

theorem presenceChanges (present : Bool) (hpin : s.pnl.pdet = !present) (htrue : s.panelTrue = true) : ∃ t, exec (.pdetChange present) s = .next t ∧
    t.pnl = { s.pnl with pdet := present, pdetAt := s.now } ∧ t.getB PNL_STAT.PDET = present ∧ s.raised 322 t ∧ s.only [.pnl, .rcd, .cyc] (PNL_STAT.PDET :: raiseFlds 322) t := by
  have hexec : exec (.pdetChange present) s = .next (((s.pnlSweep.withPdet present).setB PNL_STAT.PDET present).raise 322) :=
    if_neg (by rw [hpin]; cases present <;> decide)
  rw [pnlSweep_of_true htrue] at hexec
  have hset := only_then_setB (only_mono (us := [PNL_STAT.PDET]) (only_withPnl { s.pnl with pdet := present, pdetAt := s.now } s) (fun _ h => h) (by simp)) present
    (f := PNL_STAT.PDET) (by simp) (Nat.le_of_ble_eq_true rfl)
  have hbit : ((s.withPdet present).setB PNL_STAT.PDET present).getB PNL_STAT.PDET = present := getB_setB_self _ _ _ (Nat.le_of_ble_eq_true rfl) rfl
  obtain ⟨hraised, honly⟩ := raise_behind 322 hset (by simp) (windows_all rfl)
  exact ⟨_, hexec, (raise_pnl _ _).trans (setB_pnl _ _ _), (getB_raise_outside _ _ (by decide)).trans hbit, hraised, honly⟩

theorem temperatureRead (v : BitVec 12) (hon : s.enabled 0x11 = true) : ∃ t, exec (.ptempMeasure (some v)) s = .next t ∧ t.get PNL_TEMP.T = v.toNat ∧
    t.getB PNL_STAT.TEMP_FAULT = false ∧ s.only [] [PNL_TEMP.T, PNL_STAT.TEMP_FAULT] t := by
  have hexec : exec (.ptempMeasure (some v)) s = .next ((s.set PNL_TEMP.T v.toNat).setB PNL_STAT.TEMP_FAULT false) := if_neg (by simp [hon])
  have hset := only_then_set (only_refl s [] [PNL_TEMP.T, PNL_STAT.TEMP_FAULT]) v.toNat (f := PNL_TEMP.T) (by simp) (Nat.le_of_ble_eq_true rfl)
  have hval : (s.set PNL_TEMP.T v.toNat).get PNL_TEMP.T = v.toNat := (get_set_self _ _ _ (Nat.le_of_ble_eq_true rfl)).trans (Nat.mod_eq_of_lt v.isLt)
  exact ⟨_, hexec, (get_setB_apart _ _ _ _ (.inl (by decide)) (Nat.le_of_ble_eq_true rfl)).trans hval, getB_setB_self _ _ _ (Nat.le_of_ble_eq_true rfl) rfl,
    only_then_setB hset _ (by simp) (Nat.le_of_ble_eq_true rfl)⟩

/-- A one-bit field of PNL that a fault sets with its event. -/
theorem faultBit_shows {f : Fld} {n : Nat} (hw : f.lo + f.width ≤ 32) (hone : f.width = 1) (hwin : windowOf f.addr ≠ 0xC1) :
    let t := (s.setB f true).raise n
    t.getB f = true ∧ s.raised n t ∧ t.pnl = s.pnl ∧ s.only [.rcd, .cyc] (f :: raiseFlds n) t := by
  intro t
  obtain ⟨hraised, honly⟩ := raise_behind n (only_set s (f := f) (b2n true) hw) (by simp) (by simpa using hwin)
  exact ⟨(getB_raise_outside _ _ hwin).trans (getB_setB_self _ _ _ hw hone), hraised, (raise_pnl _ _).trans (setB_pnl _ _ _), honly⟩

theorem thermistorFault (hon : s.enabled 0x11 = true) (hbit : s.getB PNL_STAT.TEMP_FAULT = false) : ∃ t, exec (.ptempMeasure none) s = .next t ∧
    t.getB PNL_STAT.TEMP_FAULT = true ∧ s.raised 323 t ∧ s.only [.rcd, .cyc] (PNL_STAT.TEMP_FAULT :: raiseFlds 323) t := by
  have hexec : exec (.ptempMeasure none) s = .next (if s.getB PNL_STAT.TEMP_FAULT then s else (s.setB PNL_STAT.TEMP_FAULT true).raise 323) :=
    if_neg (by simp [hon])
  rw [if_neg (by simp [hbit])] at hexec
  obtain ⟨hset, hraised, -, honly⟩ := faultBit_shows (s := s) (f := PNL_STAT.TEMP_FAULT) (n := 323) (Nat.le_of_ble_eq_true rfl) rfl (by decide)
  exact ⟨_, hexec, hset, hraised, honly⟩

end Readings

/-! ### The frontlight (R478) -/

section Frontlight
variable {s : State}

/-- A lit frontlight's current. -/
theorem flMa_lit (hen : s.getB PNL_FL.FL_EN = true) (hst : s.get PNL_STAT.STATE = 4) (hon : s.pnl.flOff = false) :
    s.flMa = if s.getB SYS_SUPPLY.UV then min 100 (s.get PNL_FL.MA) else s.get PNL_FL.MA :=
  if_pos (by simp [hen, hon, State.pnlState, hst])

theorem lit_over {n : Nat} (hn : n < 100) (hen : s.getB PNL_FL.FL_EN = true) (hst : s.get PNL_STAT.STATE = 4) (hon : s.pnl.flOff = false) (hma : n < s.get PNL_FL.MA) :
    n < s.flMa := by
  rw [flMa_lit hen hst hon]
  split
  · exact Nat.lt_min.2 ⟨hn, hma⟩
  · exact hma

/-- A fault bit set once, with its event. -/
def State.flSet (f : Fld) (s : State) : State := if s.getB f then s else (s.setB f true).raise 324

theorem flSet_shows {f : Fld} (hw : f.lo + f.width ≤ 32) (hone : f.width = 1) (hwin : windowOf f.addr ≠ 0xC1) :
    (s.flSet f).getB f = true ∧ (s.getB f = false → s.raised 324 (s.flSet f)) ∧ (s.flSet f).pnl = s.pnl ∧ s.only [.rcd, .cyc] (f :: raiseFlds 324) (s.flSet f) := by
  by_cases h : s.getB f = true
  · rw [State.flSet, if_pos h]
    exact ⟨h, fun h' => absurd (h.symm.trans h') (by decide), rfl, only_refl ..⟩
  · rw [State.flSet, if_neg h]
    obtain ⟨hset, hraised, hpnl, honly⟩ := faultBit_shows (s := s) (n := 324) hw hone hwin
    exact ⟨hset, fun _ => hraised, hpnl, honly⟩

theorem frontlightOpen (hon : s.enabled 0x11 = true) (hen : s.getB PNL_FL.FL_EN = true) (hst : s.get PNL_STAT.STATE = 4) (hoff : s.pnl.flOff = false)
    (hma : 0 < s.get PNL_FL.MA) : ∃ t, exec (.flFault false) s = .next t ∧
    t.getB PNL_STAT.FL_OPEN = true ∧ (s.getB PNL_STAT.FL_OPEN = false → s.raised 324 t) ∧ s.only [.rcd, .cyc] (PNL_STAT.FL_OPEN :: raiseFlds 324) t := by
  have hlit := lit_over (by decide) hen hst hoff hma
  have hexec : exec (.flFault false) s = .next (s.flSet PNL_STAT.FL_OPEN) := if_neg (by simp [hon]; omega)
  obtain ⟨hset, hraised, -, honly⟩ := flSet_shows (s := s) (f := PNL_STAT.FL_OPEN) (Nat.le_of_ble_eq_true rfl) rfl (by decide)
  exact ⟨_, hexec, hset, hraised, honly⟩

/-- The frontlight dark after a short. -/
def State.flDark (s : State) : State := s.withPnl { s.pnl with flOff := true }

theorem frontlightShort (hon : s.enabled 0x11 = true) (hen : s.getB PNL_FL.FL_EN = true) (hst : s.get PNL_STAT.STATE = 4) (hoff : s.pnl.flOff = false)
    (hma : 10 < s.get PNL_FL.MA) : ∃ t, exec (.flFault true) s = .next t ∧
    t.getB PNL_STAT.FL_SHORT = true ∧ (s.getB PNL_STAT.FL_SHORT = false → s.raised 324 t) ∧ t.pnl = { s.pnl with flOff := true } ∧ t.flMa = 0 ∧
    s.only [.pnl, .rcd, .cyc] (PNL_STAT.FL_SHORT :: raiseFlds 324) t := by
  have hlit := lit_over (by decide) hen hst hoff hma
  have hexec : exec (.flFault true) s = .next (s.flSet PNL_STAT.FL_SHORT).flDark := if_neg (by simp [hon]; omega)
  obtain ⟨hset, hraised, hpnl, honly⟩ := flSet_shows (s := s) (f := PNL_STAT.FL_SHORT) (Nat.le_of_ble_eq_true rfl) rfl (by decide)
  generalize s.flSet PNL_STAT.FL_SHORT = u at hexec hset hraised hpnl honly
  have hdark : u.only [.pnl] [] u.flDark := only_withPnl { u.pnl with flOff := true } u
  exact ⟨_, hexec, (getB_of_only hdark (by simp)).trans hset, fun h => raised_then (hraised h) hdark (by simp),
    show { u.pnl with flOff := true } = _ by rw [hpnl], if_neg (by simp [State.flDark, State.withPnl]), only_mono (only_seq honly hdark) (by simp) (by simp)⟩

/-- The stages of a write of PNL_FL: the current, the end of a shutdown, the open bit. -/
def State.flCurrent (n : Nat) (s : State) : State := if n ≤ 350 then s.set PNL_FL.MA n else s

def State.flLit (en : Bool) (s : State) : State := if en && !s.getB PNL_FL.FL_EN then s.withPnl { s.pnl with flOff := false } else s

def State.flClosed (en : Bool) (s : State) : State := if en then s else s.setB PNL_STAT.FL_OPEN false

theorem writeFl_eq (v : Word) (s : State) : s.writeFl v =
    (((s.flCurrent (v.toNat % 512)).flLit (bitAt v.toNat 31)).flClosed (bitAt v.toNat 31)).setB PNL_FL.FL_EN (bitAt v.toNat 31) := rfl

theorem flCurrent_shows (v : Nat) (s : State) : (s.flCurrent (v % 512)).get PNL_FL.MA = (if v % 512 ≤ 350 then v % 512 else s.get PNL_FL.MA) ∧
    s.only [] [PNL_FL.MA] (s.flCurrent (v % 512)) := by
  by_cases h : v % 512 ≤ 350
  · rw [State.flCurrent, if_pos h, if_pos h]
    exact ⟨(get_set_self _ _ _ (Nat.le_of_ble_eq_true rfl)).trans (Nat.mod_mod _ _), only_set s _ (Nat.le_of_ble_eq_true rfl)⟩
  · rw [State.flCurrent, if_neg h, if_neg h]
    exact ⟨rfl, only_refl ..⟩

theorem flLit_shows (en : Bool) (s : State) :
    (s.flLit en).pnl = (if en = true ∧ s.getB PNL_FL.FL_EN = false then { s.pnl with flOff := false } else s.pnl) ∧ s.only [.pnl] [] (s.flLit en) := by
  by_cases h : en = true ∧ s.getB PNL_FL.FL_EN = false
  · rw [State.flLit, if_pos (by simp [h.1, h.2]), if_pos h]
    exact ⟨rfl, only_withPnl _ _⟩
  · rw [State.flLit, if_neg (by simpa using h), if_neg h]
    exact ⟨rfl, only_refl ..⟩

theorem flClosed_shows (en : Bool) (s : State) :
    (s.flClosed en).getB PNL_STAT.FL_OPEN = (en && s.getB PNL_STAT.FL_OPEN) ∧ s.only [] [PNL_STAT.FL_OPEN] (s.flClosed en) := by
  cases en
  · exact ⟨getB_setB_self _ _ _ (Nat.le_of_ble_eq_true rfl) rfl, only_set s _ (Nat.le_of_ble_eq_true rfl)⟩
  · exact ⟨rfl, only_refl ..⟩

theorem frontlightWritten (core : Fin 8) (value : Word) (hopen : s.closed PNL_FL = false) : ∃ t, exec (.flEnableWrite core value) s = .next t ∧
    t.getB PNL_FL.FL_EN = bitAt value.toNat 31 ∧
    t.get PNL_FL.MA = (if value.toNat % 512 ≤ 350 then value.toNat % 512 else s.get PNL_FL.MA) ∧
    t.pnl = (if bitAt value.toNat 31 = true ∧ s.getB PNL_FL.FL_EN = false then { s.pnl with flOff := false } else s.pnl) ∧
    t.getB PNL_STAT.FL_OPEN = (bitAt value.toNat 31 && s.getB PNL_STAT.FL_OPEN) ∧ s.only [.access, .pnl] [PNL_FL.FL_EN, PNL_FL.MA, PNL_STAT.FL_OPEN] t := by
  have hexec : exec (.flEnableWrite core value) s = .next (s.accessed.writeFl value) := congrArg Host.Outcome.next (hostWrite_special rfl hopen rfl)
  rw [writeFl_eq] at hexec
  obtain ⟨hma, honly⟩ := flCurrent_shows value.toNat s.accessed
  have hall := only_seq (only_accessed s) honly
  have hen := honly.getB (g := PNL_FL.FL_EN) rfl
  have hopn := honly.getB (g := PNL_STAT.FL_OPEN) rfl
  have hpnl : _ = s.accessed.pnl := honly.1 .pnl (by simp)
  generalize s.accessed.flCurrent (value.toNat % 512) = u at hexec hma honly hall hen hopn hpnl
  obtain ⟨hpnl', honly'⟩ := flLit_shows (bitAt value.toNat 31) u
  have hall' := only_seq hall honly'
  have hma' := get_of_only_nil honly' PNL_FL.MA
  have hopn' : (u.flLit (bitAt value.toNat 31)).getB PNL_STAT.FL_OPEN = u.getB PNL_STAT.FL_OPEN := honly'.getB rfl
  rw [hpnl, hen] at hpnl'
  generalize u.flLit (bitAt value.toNat 31) = v at hexec hpnl' hall' hma' hopn'
  obtain ⟨hcl, honly''⟩ := flClosed_shows (bitAt value.toNat 31) v
  have hma'' : (v.flClosed (bitAt value.toNat 31)).get PNL_FL.MA = v.get PNL_FL.MA := honly''.get rfl
  have hpnl'' : (v.flClosed (bitAt value.toNat 31)).pnl = v.pnl := honly''.1 .pnl (by simp)
  have hall'' := only_seq hall' honly''
  generalize v.flClosed (bitAt value.toNat 31) = w at hexec hcl hma'' hpnl'' hall''
  have hset := only_set w (f := PNL_FL.FL_EN) (b2n (bitAt value.toNat 31)) (Nat.le_of_ble_eq_true rfl)
  refine ⟨_, hexec, getB_setB_self _ _ _ (Nat.le_of_ble_eq_true rfl) rfl, ?_, ?_, ?_, only_mono (only_seq hall'' hset) (by simp) (by simp)⟩
  · exact (hset.get rfl).trans (hma''.trans (hma'.trans hma))
  · exact (setB_pnl _ _ _).trans (hpnl''.trans hpnl')
  · exact (hset.getB rfl).trans (hcl.trans (by rw [hopn', hopn]; rfl))

end Frontlight

/-! ### Disabling (R490) -/

section Disable
variable {s : State} {o : PnlOp} {x : Taken}

/-- ENABLE at 0. -/
def State.pnlUnset (s : State) : State := s.setB PNL_CTRL.ENABLE false

theorem pnlUnset_shows (s : State) : s.pnlUnset.getB PNL_CTRL.ENABLE = false ∧ s.pnlUnset.pnl = s.pnl ∧ s.only [] [PNL_CTRL.ENABLE] s.pnlUnset :=
  ⟨getB_setB_self _ _ _ (Nat.le_of_ble_eq_true rfl) rfl, setB_pnl _ _ _, only_set s _ (Nat.le_of_ble_eq_true rfl)⟩

theorem execPnlDisable_eq (hon : s.getB PNL_CTRL.ENABLE = true) : exec .pnlDisable s = .next s.pnlDisable := congrArg Host.Outcome.next (if_pos hon)

theorem pnlDisable_idle (h : s.pnl.op = none) : s.pnlDisable = s.pnlUnset.pnlOff s.pnl.down := by
  rw [State.pnlDisable, show (s.setB PNL_CTRL.ENABLE false).pnl.op = none by rw [setB_pnl]; exact h]
  exact (pnlDrop_eq s.pnlUnset).trans (by rw [(pnlUnset_shows s).2.1])

theorem pnlDisable_running (h : s.pnl.op = some o) (hkind : o.kind ≠ 0) :
    s.pnlDisable = (s.pnlUnset.opGone.completeSelf 0x11 0 o.id (s.pnlUnset.freshCode [0x20, 0x21, 0x22, 0x23, 0x24])).drawn.pnlOff s.pnl.down := by
  rw [State.pnlDisable, show (s.setB PNL_CTRL.ENABLE false).pnl.op = some o by rw [setB_pnl]; exact h]
  simp only [pnlFinish_eq hkind]
  rw [pnlDrop_eq]
  have hpnl : (s.pnlUnset.opGone.completeSelf 0x11 0 o.id (s.pnlUnset.freshCode [0x20, 0x21, 0x22, 0x23, 0x24])).drawn.pnl = s.pnlUnset.opGone.pnl :=
    (drawn_pnl _).trans (completeSelf_pnl ..)
  exact congrArg (State.pnlOff · _) ((congrArg PnlState.down hpnl).trans (by rw [State.opGone, (pnlUnset_shows s).2.1]; rfl))

theorem disabledIdle (hon : s.getB PNL_CTRL.ENABLE = true) (hop : s.pnl.op = none) : ∃ t, exec .pnlDisable s = .next t ∧ t.getB PNL_CTRL.ENABLE = false ∧
    t.pnl = s.pnl.down ∧ t.get PNL_STAT.STATE = 0 ∧ s.only [.pnl] [PNL_CTRL.ENABLE, PNL_STAT.STATE] t := by
  have hexec := execPnlDisable_eq hon
  rw [pnlDisable_idle hop] at hexec
  obtain ⟨hen, -, hunset⟩ := pnlUnset_shows s
  obtain ⟨hp, hstate, honly⟩ := pnlOff_shows s.pnl.down s.pnlUnset
  exact ⟨_, hexec, (honly.getB rfl).trans hen, hp, hstate, only_mono (only_seq hunset honly) (by simp) (by simp)⟩

theorem freshCode_lt (s : State) : 0x11 * 256 + s.freshCode [0x20, 0x21, 0x22, 0x23, 0x24] < 2 ^ 16 := by
  have hcodes : ∀ i < 21, 0x11 * 256 + (List.range 16 ++ [0x20, 0x21, 0x22, 0x23, 0x24]).getD i 0 < 2 ^ 16 := by decide
  exact hcodes _ (Nat.mod_lt _ (by decide))

theorem disabledEnds (hon : s.getB PNL_CTRL.ENABLE = true) (hop : s.pnl.op = some o) (hkind : o.kind ≠ 0) (htaken : (s.ring 0x11 0).taken = [x]) (hid : x.id = o.id) :
    ∃ t, exec .pnlDisable s = .next t ∧ t.getB PNL_CTRL.ENABLE = false ∧ s.ended 0x11 0 x (s.freshCode [0x20, 0x21, 0x22, 0x23, 0x24]) x.handle t ∧
    s.dramKept (s.complAddr 0x11 0) 16 t ∧ t.pnl = s.pnl.down ∧ t.get PNL_STAT.STATE = 0 ∧ t.free = s.free + 1 ∧
    s.only [.dram, .rings, .pnl, .rcd, .cyc, .free] ([PNL_CTRL.ENABLE, PNL_STAT.STATE] ++ complFlds 0x11 0) t := by
  have hexec := execPnlDisable_eq hon
  obtain ⟨hen, hpnl, hunset⟩ := pnlUnset_shows s
  have hcode : s.pnlUnset.freshCode [0x20, 0x21, 0x22, 0x23, 0x24] = s.freshCode [0x20, 0x21, 0x22, 0x23, 0x24] := rfl
  have hlt := freshCode_lt s
  rw [pnlDisable_running hop hkind, hcode] at hexec
  generalize s.freshCode [0x20, 0x21, 0x22, 0x23, 0x24] = code at hexec hlt
  have hgone := only_seq hunset (only_withPnl { s.pnlUnset.pnl with op := none } s.pnlUnset)
  rw [← hid] at hexec
  have hend : s.pnlUnset.opGone.only [.dram, .rings, .rcd, .cyc] (complFlds 0x11 0) (s.pnlUnset.opGone.completeSelf 0x11 0 x.id code) :=
    only_completeSelf x.id (by decide)
  have hoff := only_seq (only_drawn (s.pnlUnset.opGone.completeSelf 0x11 0 x.id code)) (pnlOff_shows s.pnl.down _).2.2
  obtain ⟨hended, hkept, hall⟩ := selfEnds_then (code := code) (by decide) hlt htaken hgone (by simp) (by simp) (by simp) (offRing_all rfl) hoff (by simp) (by simp) (offRing_all rfl)
  obtain ⟨hp, hstate, honly⟩ := pnlOff_shows s.pnl.down (s.pnlUnset.opGone.completeSelf 0x11 0 x.id code).drawn
  have hfree : (s.pnlUnset.opGone.completeSelf 0x11 0 x.id code).free = s.free := (hend.1 .free (by simp)).trans rfl
  refine ⟨_, hexec, (honly.getB rfl).trans ((hend.getB rfl).trans hen), hended, hkept, hp, hstate,
    (honly.1 .free (by simp)).trans (congrArg (· + 1) hfree), only_mono hall (by simp +contextual [or_imp]) (by simp +contextual [or_imp])⟩

end Disable

/-- Settles O56: a fault's drop of the rails, once with a command that ends and once without; readings, frontlight and disabling by the stages of their work. -/
theorem panelFaultsTemperatureAndFrontlightActAsStated : Obligations.PanelFaultsTemperatureAndFrontlightActAsStated := by
  unfold Obligations.PanelFaultsTemperatureAndFrontlightActAsStated
  exact ⟨fun _ _ _ _ hon hst hrail hop hkind htaken hid _ => railFaultEnds hon hst hrail hop hkind htaken hid,
    fun _ _ hon hst hrail hop => railFaultIdle hon hst hrail hop,
    fun _ hon hv hpdet hat hop => removedIdle hon hv hpdet hat hop,
    fun _ _ _ hon hv hpdet hat hop hkind htaken hid _ => removedEnds hon hv hpdet hat hop hkind htaken hid,
    fun present _ hpin htrue => presenceChanges present hpin htrue,
    fun v _ hon => temperatureRead v hon,
    fun _ hon hbit => thermistorFault hon hbit,
    fun _ hon hen hst hoff hma => frontlightOpen hon hen hst hoff hma,
    fun _ hon hen hst hoff hma => frontlightShort hon hen hst hoff hma,
    fun core value _ hopen => frontlightWritten core value hopen,
    fun _ hon hop => disabledIdle hon hop,
    fun _ _ _ hon hop hkind htaken hid _ => disabledEnds hon hop hkind htaken hid⟩

end Sys2Proof.Machine
end

section
/-! PROOFS. BUS: what its controllers, objects and sends write, once for each operation (R430, R431, R435, R438): a layer for the statements of
chapter 20. -/

namespace Sys2Proof.Machine

/-! ### Fields -/

section Apart
variable {s t u : State} {fs gs : List Fld} {g : Fld} {ps : List Comp}

theorem apart_append (h : ∀ f ∈ fs, g.apart f) (h' : ∀ f ∈ gs, g.apart f) : ∀ f ∈ fs ++ gs, g.apart f :=
  fun f hf => (List.mem_append.1 hf).elim (h f) (h' f)

theorem apart_raise (hg : windowOf g.addr ≠ 0xC1) (n : Nat) : ∀ f ∈ raiseFlds n, g.apart f :=
  apart_of_window fun _ hf => (windowOf_raiseFlds hf).symm ▸ hg.symm

/-- A field beside those in front of a raise. -/
theorem apart_raised (h : ∀ f ∈ fs, g.apart f) (hg : windowOf g.addr ≠ 0xC1) (n : Nat) : ∀ f ∈ fs ++ raiseFlds n, g.apart f :=
  apart_append h (apart_raise hg n)

theorem windowOf_busCtl {a : Nat} (h : 0xCE000000 ≤ a) (h' : a < 0xCF000000) : windowOf a = 0xCE := by
  simp only [windowOf]; omega

/-- The registers of the controllers lie below those of the objects. -/
theorem ctlStat_in (n : Nat) : 0xCE000000 ≤ BUS_C_STAT n ∧ BUS_C_STAT n < 0xCE100000 := by simp only [BUS_C_STAT]; omega

theorem ctlAlert_in (n : Nat) : 0xCE000000 ≤ BUS_C_ALERT n ∧ BUS_C_ALERT n < 0xCE100000 := by simp only [BUS_C_ALERT]; omega

theorem objStat_in (x : Nat) : 0xCE100000 ≤ BUS_OBJ_STAT x ∧ BUS_OBJ_STAT x < 0xCF000000 := by simp only [BUS_OBJ_STAT]; omega

theorem window_ctlStat (n : Nat) : windowOf (BUS_C_STAT n) ≠ 0xC1 := by simp only [windowOf, BUS_C_STAT]; omega

theorem window_ctlAlert (n : Nat) : windowOf (BUS_C_ALERT n) ≠ 0xC1 := by simp only [windowOf, BUS_C_ALERT]; omega

theorem window_objStat (x : Nat) : windowOf (BUS_OBJ_STAT x) ≠ 0xC1 := by simp only [windowOf, BUS_OBJ_STAT]; omega

theorem window_objRec (x j : Nat) : windowOf (BUS_OBJ_REC x j) ≠ 0xC1 := by simp only [windowOf, BUS_OBJ_REC]; omega

theorem ctlStat_ne_alert (n m : Nat) : BUS_C_STAT n ≠ BUS_C_ALERT m := by simp only [BUS_C_STAT, BUS_C_ALERT]; omega

theorem objStat_ne_ctlStat (x n : Nat) : BUS_OBJ_STAT x ≠ BUS_C_STAT n := by simp only [BUS_C_STAT, BUS_OBJ_STAT]; omega

theorem objStat_ne_alert (x n : Nat) : BUS_OBJ_STAT x ≠ BUS_C_ALERT n := by simp only [BUS_C_ALERT, BUS_OBJ_STAT]; omega

theorem objStat_ne_rec (x y j : Nat) : BUS_OBJ_STAT x ≠ BUS_OBJ_REC y j := by simp only [BUS_OBJ_REC, BUS_OBJ_STAT]; omega

theorem objRec_ne_ctlStat (x j n : Nat) : BUS_OBJ_REC x j ≠ BUS_C_STAT n := by simp only [BUS_C_STAT, BUS_OBJ_REC]; omega

theorem objRec_ne_alert (x j n : Nat) : BUS_OBJ_REC x j ≠ BUS_C_ALERT n := by simp only [BUS_C_ALERT, BUS_OBJ_REC]; omega

/-- A register that the fields of a frame do not hold. -/
theorem reg_of_addrs (h : s.only ps fs u) {a : Nat} (ha : ∀ f ∈ fs, a ≠ f.addr) : u.reg a = s.reg a :=
  (keeps_of_only h).2.1 a fun hm => by
    obtain ⟨f, hf, he⟩ := List.mem_map.1 hm
    exact ha f hf he.symm

theorem ne_raiseFlds {a n : Nat} (ha : windowOf a ≠ 0xC1) : ∀ f ∈ raiseFlds n, a ≠ f.addr :=
  fun _ hf he => ha (he ▸ windowOf_raiseFlds hf)

end Apart

/-! ### Bits of a field written through the field -/

theorem set_bit {f : Fld} {i : Nat} (h : i < f.width) (s : State) :
    s.set f (putBits (s.get f) i 1 1) = s.setB ⟨f.addr, f.lo + i, 1⟩ true := by
  refine congrArg (s.setReg f.addr ·) (congrArg (BitVec.ofNat 32) (Nat.eq_of_testBit_eq fun k => ?_))
  simp only [testBit_putBits, State.get, testBit_bitsOf, b2n, if_true]
  by_cases hlow : k < f.lo + i
  · rw [if_pos hlow]
    by_cases hbelow : k < f.lo
    · rw [if_pos hbelow]
    · rw [if_neg hbelow, if_pos (by omega), if_pos (by omega), decide_eq_true (by omega), Bool.true_and, Nat.add_sub_cancel' (by omega)]
  · rw [if_neg hlow, if_neg (by omega)]
    by_cases hbit : k < f.lo + i + 1
    · rw [if_pos hbit, if_pos (by omega), if_neg (by omega), if_pos (by omega), Nat.sub_sub]
    · rw [if_neg hbit]
      by_cases hin : k < f.lo + f.width
      · rw [if_pos hin, if_neg (by omega), if_neg (by omega), decide_eq_true (by omega), Bool.true_and, Nat.add_sub_cancel' (by omega)]
      · rw [if_neg hin]

/-! ### Controllers (R430, R431) -/

section Controllers
variable {s u : State} {n b v : Nat} {ps : List Comp} {fs : List Fld}

/-- Bit `b` of BUS_C_ALERT(n). -/
def alertBit (n b : Nat) : Fld := ⟨BUS_C_ALERT n, b, 1⟩

theorem isFlag_alertBit (n : Nat) (hb : b < 8) : IsFlag (alertBit n b) := ⟨rfl, by simp only [alertBit]; omega, window_ctlAlert n⟩

theorem getB_alertBit (hb : b < 8) : s.getB (alertBit n b) = bitAt (s.get (BUS_C_ALERT.ALERT n)) b := by
  rw [← getB_bit_of_get (f := BUS_C_ALERT.ALERT n) hb]
  simp only [BUS_C_ALERT.ALERT, Nat.zero_add]
  rfl

theorem canAlert_eq (hb : b < 8) (n : Nat) (s : State) : s.canAlert n b = s.changeBit (253 + 6 * n) (alertBit n b) true := by
  have hset := set_bit (f := BUS_C_ALERT.ALERT n) hb s
  simp only [State.canAlert, State.changeBit, getB_alertBit hb, hset]
  simp only [BUS_C_ALERT.ALERT, Nat.zero_add]
  rfl

theorem evtRun_changeBit {f : Fld} {m : Nat} (hf : IsFlag f) (hm : m < 384) (w : Bool) (s : State) : EvtRun s (s.changeBit m f w) := by
  by_cases h : s.getB f = w
  · rw [changeBit_same h]
    exact .refl s
  · rw [changeBit_changed h]
    exact (evtRun_of_only (only_setB_flag hf s w) (by simp) (by simp [hf.window])).trans (evtRun_raise _ hm)

/-- What an alert leaves. -/
theorem canAlert_shows (hb : b < 8) (n : Nat) (s : State) :
    s.only [.rcd, .cyc] (alertBit n b :: raiseFlds (253 + 6 * n)) (s.canAlert n b) ∧ bitAt ((s.canAlert n b).get (BUS_C_ALERT.ALERT n)) b = true ∧
      (bitAt (s.get (BUS_C_ALERT.ALERT n)) b = false → s.raised (253 + 6 * n) (s.canAlert n b)) ∧ (n < 8 → EvtRun s (s.canAlert n b)) := by
  have hflag := isFlag_alertBit n hb
  rw [canAlert_eq hb, ← getB_alertBit hb, ← getB_alertBit hb]
  refine ⟨only_changeBit hflag .., getB_changeBit_self hflag .., fun h => raised_changeBit hflag (by simp [h]), fun hn => evtRun_changeBit hflag (by omega) ..⟩

/-- A new state of a controller. -/
theorem setCanState_shows (hv : v < 4) (n : Nat) (s : State) :
    s.only [.rcd, .cyc] (BUS_C_STAT.STATE n :: raiseFlds (251 + 6 * n)) (s.setCanState n v) ∧ (s.setCanState n v).get (BUS_C_STAT.STATE n) = v ∧
      (s.get (BUS_C_STAT.STATE n) ≠ v → s.raised (251 + 6 * n) (s.setCanState n v)) ∧ (n < 8 → EvtRun s (s.setCanState n v)) := by
  have hwin : windowOf (BUS_C_STAT.STATE n).addr ≠ 0xC1 := window_ctlStat n
  by_cases h : s.get (BUS_C_STAT.STATE n) = v
  · rw [State.setCanState, if_pos h]
    exact ⟨only_refl .., h, fun h' => absurd h h', fun _ => .refl s⟩
  · rw [State.setCanState, if_neg h]
    have hset := only_set s (f := BUS_C_STAT.STATE n) v (Nat.le_of_ble_eq_true rfl)
    obtain ⟨hraised, honly⟩ := raise_behind (251 + 6 * n) hset (by simp) (by simpa using hwin)
    refine ⟨honly, (get_raise_outside _ _ hwin).trans ((get_set_self _ _ _ (Nat.le_of_ble_eq_true rfl)).trans (Nat.mod_eq_of_lt hv)), fun _ => hraised, fun hn => ?_⟩
    exact (evtRun_of_only hset (by simp) (by simpa using hwin)).trans (evtRun_raise _ (by omega))

theorem setCanState_same (h : s.get (BUS_C_STAT.STATE n) = v) : s.setCanState n v = s := if_pos h

/-- The state that a controller's counters give it. -/
def State.errPassive (n : Nat) (s : State) : Nat := if 127 < s.get (BUS_C_STAT.TEC n) || 127 < s.get (BUS_C_STAT.REC n) then 1 else 0

theorem errPassive_lt (n : Nat) (s : State) : s.errPassive n < 4 := by
  unfold State.errPassive
  split <;> decide

theorem canErrState_eq (h : s.get (BUS_C_STAT.STATE n) < 2) : s.canErrState n = s.setCanState n (s.errPassive n) := if_neg (by omega)

/-- A new count of errors, with what it means for the controller's state. -/
theorem errCounted {f : Fld} (hst : s.get (BUS_C_STAT.STATE n) < 2) (haddr : f.addr = BUS_C_STAT n) (hw : f.lo + f.width ≤ 32)
    (hapart : f.lo + f.width ≤ 24 ∨ 26 ≤ f.lo) (v : Nat) :
    let t := (s.set f v).canErrState n
    t.get f = v % 2 ^ f.width ∧ t.get (BUS_C_STAT.STATE n) = (s.set f v).errPassive n ∧
      (t.get (BUS_C_STAT.STATE n) ≠ s.get (BUS_C_STAT.STATE n) → s.raised (251 + 6 * n) t) ∧
      s.only [.rcd, .cyc] ([f, BUS_C_STAT.STATE n] ++ raiseFlds (251 + 6 * n)) t ∧ (n < 8 → EvtRun s t) := by
  intro t
  have hwin : windowOf f.addr ≠ 0xC1 := haddr ▸ window_ctlStat n
  have hset := only_set s (f := f) v hw
  have hbeside : (BUS_C_STAT.STATE n).apart f := .inr (by simp only [BUS_C_STAT.STATE]; omega)
  have hkeep : (s.set f v).get (BUS_C_STAT.STATE n) = s.get (BUS_C_STAT.STATE n) := hset.2.1 _ (by simpa using hbeside)
  have hval : (s.set f v).get f = v % 2 ^ f.width := get_set_self _ _ _ hw
  have ht : t = (s.set f v).setCanState n ((s.set f v).errPassive n) := canErrState_eq (by rw [hkeep]; exact hst)
  clear_value t
  subst ht
  obtain ⟨honly, hstate, hraised, hevt⟩ := setCanState_shows (errPassive_lt n (s.set f v)) n (s.set f v)
  have hapart' : f.apart (BUS_C_STAT.STATE n) := .inr (by simp only [BUS_C_STAT.STATE]; omega)
  refine ⟨(honly.2.1 _ ?_).trans hval, hstate, fun hne => ?_, only_mono (only_seq hset honly) (by simp) (by simp), fun hn => ?_⟩
  · exact fun g hg => (List.mem_cons.1 hg).elim (fun h => h ▸ hapart') (apart_raise hwin _ g)
  · rw [hstate, ← hkeep] at hne
    exact raised_of_only hset (by simp) (by simpa using hwin) (hraised hne.symm)
  · exact (evtRun_of_only hset (by simp) (by simpa using hwin)).trans (hevt hn)

/-- A lower count that leaves the controller error-active. -/
theorem errLowered {f : Fld} (hst : s.get (BUS_C_STAT.STATE n) = 0) (hw : f.lo + f.width ≤ 32)
    (hapart : f.lo + f.width ≤ 24 ∨ 26 ≤ f.lo) (v : Nat) (hpassive : (s.set f v).errPassive n = 0) : (s.set f v).canErrState n = s.set f v := by
  have hbeside : (BUS_C_STAT.STATE n).apart f := .inr (by simp only [BUS_C_STAT.STATE]; omega)
  have hkeep : (s.set f v).get (BUS_C_STAT.STATE n) = s.get (BUS_C_STAT.STATE n) := (only_set s (f := f) v hw).2.1 _ (by simpa using hbeside)
  rw [canErrState_eq (by omega), hpassive, setCanState_same (by omega)]

theorem get_state_of_live (h : s.canLive n = true) : s.get (BUS_C_STAT.STATE n) < 2 := by
  simp only [State.canLive, Bool.and_eq_true, decide_eq_true_eq] at h
  exact h.1.2

theorem canOn_of_live (h : s.canLive n = true) : s.canOn n = true := by
  simp only [State.canLive, Bool.and_eq_true] at h
  exact h.1.1

/-- The state with other facts behind BUS's registers. -/
def State.withBus (x : BusState) (s : State) : State := { s with bus := x }

theorem only_withBus (x : BusState) (s : State) : s.only [.bus] [] (s.withBus x) :=
  ⟨fun p hp => by cases p <;> simp [State.same, State.withBus] at hp ⊢, fun _ _ => rfl, rfl, rfl⟩

theorem only_setCtl (n : Nat) (v : CanCtl) (s : State) : s.only [.bus] [] (s.setCtl n v) := only_withBus _ s

theorem only_setObj (x : Nat) (o : CanObj) (s : State) : s.only [.bus] [] (s.setObj x o) := only_withBus _ s

theorem busCtl_setCtl (n : Nat) (v : CanCtl) (s : State) : (s.setCtl n v).busCtl n = v := by
  simp only [State.busCtl, State.setCtl, tgetD, tget_tput_self, Option.getD_some]

theorem busObj_setObj (x : Nat) (o : CanObj) (s : State) : (s.setObj x o).busObj x = some o := tget_tput_self ..

theorem busObj_of_bus (h : u.bus = s.bus) (x : Nat) : u.busObj x = s.busObj x := by simp only [State.busObj, h]

theorem busCtl_of_bus (h : u.bus = s.bus) (n : Nat) : u.busCtl n = s.busCtl n := by simp only [State.busCtl, h]

/-- What a bus-off starts, once no object is known to be on the wire. -/
def State.busOffStarted (n : Nat) (s : State) : State :=
  (s.setCtl n { s.busCtl n with recovering := s.getB (BUS_C_CFG.AUTO_REC n) }).setCanState n 2

theorem goBusOff_free (h : s.wireHeld n none = false) : s.goBusOff n = s.busOffStarted n := by
  have hnone : ∀ e ∈ s.bus.objs, (e.2.ctrl = n && e.2.wired) = false := fun e he => by
    have := List.any_eq_false.1 h e he
    simpa using this
  have hfold : s.bus.objs.foldl (fun (u : State) e => if e.2.ctrl = n && e.2.wired then u.objStopped e.1 e.2 else u) s = s :=
    foldl_keeps (P := fun u => u = s) (fun u e he hu => by rw [if_neg (by rw [hnone e he]; decide), hu]) rfl
  rw [State.goBusOff, hfold]
  rfl

theorem busOffStarted_shows (n : Nat) (s : State) :
    s.only [.bus, .rcd, .cyc] (BUS_C_STAT.STATE n :: raiseFlds (251 + 6 * n)) (s.busOffStarted n) ∧
      (s.busOffStarted n).get (BUS_C_STAT.STATE n) = 2 ∧ ((s.busOffStarted n).busCtl n).recovering = s.getB (BUS_C_CFG.AUTO_REC n) ∧
      (s.busOffStarted n).bus = { s.bus with ctls := tput s.bus.ctls n { s.busCtl n with recovering := s.getB (BUS_C_CFG.AUTO_REC n) } } ∧
      (s.get (BUS_C_STAT.STATE n) < 2 → s.raised (251 + 6 * n) (s.busOffStarted n)) ∧ (n < 8 → EvtRun s (s.busOffStarted n)) := by
  have hctl := only_setCtl n { s.busCtl n with recovering := s.getB (BUS_C_CFG.AUTO_REC n) } s
  have hrec := busCtl_setCtl n { s.busCtl n with recovering := s.getB (BUS_C_CFG.AUTO_REC n) } s
  have hbus : (s.setCtl n { s.busCtl n with recovering := s.getB (BUS_C_CFG.AUTO_REC n) }).bus =
    { s.bus with ctls := tput s.bus.ctls n { s.busCtl n with recovering := s.getB (BUS_C_CFG.AUTO_REC n) } } := rfl
  have hkeep := get_of_only_nil hctl (BUS_C_STAT.STATE n)
  unfold State.busOffStarted
  generalize s.setCtl n { s.busCtl n with recovering := s.getB (BUS_C_CFG.AUTO_REC n) } = u at hctl hrec hbus hkeep
  obtain ⟨honly, hstate, hraised, hevt⟩ := setCanState_shows (v := 2) (by decide) n u
  have hbus' : (u.setCanState n 2).bus = u.bus := honly.1 .bus (by simp)
  exact ⟨only_mono (only_seq hctl honly) (by simp) (by simp), hstate, by rw [busCtl_of_bus hbus', hrec], hbus'.trans hbus,
    fun h => raised_of_only hctl (by simp) (by simp) (hraised (by omega)), fun hn => (evtRun_of_only hctl (by simp) (by simp)).trans (hevt hn)⟩

end Controllers

/-! ### Objects (R435, R438) -/

section Objects
variable {s u : State} {x n : Nat} {o : CanObj}

/-- The result bit of a transmit object. -/
def objBit (x : Nat) (done : Bool) : Fld := if done then BUS_OBJ_STAT.DONE x else BUS_OBJ_STAT.FAILED x

theorem isFlag_objBit (x : Nat) (done : Bool) : IsFlag (objBit x done) := by
  cases done <;> exact ⟨rfl, Nat.le_of_ble_eq_true rfl, window_objStat x⟩

theorem isFlag_pend (x : Nat) : IsFlag (BUS_OBJ_STAT.PEND x) := ⟨rfl, Nat.le_of_ble_eq_true rfl, window_objStat x⟩

theorem pend_apart_objBit (x : Nat) (done : Bool) : (BUS_OBJ_STAT.PEND x).apart (objBit x done) := by
  cases done <;> exact .inr (.inr (Nat.le_of_ble_eq_true rfl))

/-- A result of a send, before its event. -/
def State.objMarked (x : Nat) (done : Bool) (s : State) : State := (s.setB (BUS_OBJ_STAT.PEND x) false).setB (objBit x done) true

theorem objResult_eq (x : Nat) (o : CanObj) (done : Bool) (s : State) :
    s.objResult x o done = if o.irq then (s.objMarked x done).raise (250 + 6 * o.ctrl) else s.objMarked x done := rfl

theorem objMarked_shows (x : Nat) (done : Bool) (s : State) : s.only [] [BUS_OBJ_STAT.PEND x, objBit x done] (s.objMarked x done) ∧
    (s.objMarked x done).getB (BUS_OBJ_STAT.PEND x) = false ∧ (s.objMarked x done).getB (objBit x done) = true := by
  have hbit := isFlag_objBit x done
  have hset := only_setB_flag hbit (s.setB (BUS_OBJ_STAT.PEND x) false) true
  exact ⟨only_mono (only_seq (only_setB_flag (isFlag_pend x) s false) hset) (by simp) (by simp),
    (getB_of_only hset (by simpa using pend_apart_objBit x done)).trans (getB_setB_self _ _ _ (isFlag_pend x).top rfl), getB_setB_self _ _ _ hbit.top hbit.width⟩

/-- What the result of a send leaves. -/
theorem objResult_shows (x : Nat) (o : CanObj) (done : Bool) (s : State) :
    s.only [.rcd, .cyc] ([BUS_OBJ_STAT.PEND x, objBit x done] ++ raiseFlds (250 + 6 * o.ctrl)) (s.objResult x o done) ∧
      (s.objResult x o done).getB (BUS_OBJ_STAT.PEND x) = false ∧ (s.objResult x o done).getB (objBit x done) = true ∧
      (o.irq = true → s.raised (250 + 6 * o.ctrl) (s.objResult x o done)) ∧ (o.ctrl < 8 → EvtRun s (s.objResult x o done)) := by
  obtain ⟨honly, hpend, hbit⟩ := objMarked_shows x done s
  have hwin : ∀ f ∈ [BUS_OBJ_STAT.PEND x, objBit x done], windowOf f.addr ≠ 0xC1 := by
    simpa using ⟨(isFlag_pend x).window, (isFlag_objBit x done).window⟩
  rw [objResult_eq]
  have hevt := evtRun_of_only honly (by simp) hwin
  by_cases hirq : o.irq = true
  · rw [if_pos hirq]
    obtain ⟨hraised, hall⟩ := raise_behind (250 + 6 * o.ctrl) honly (by simp) hwin
    exact ⟨hall, (getB_raise_outside _ _ (isFlag_pend x).window).trans hpend, (getB_raise_outside _ _ (isFlag_objBit x done).window).trans hbit,
      fun _ => hraised, fun hn => hevt.trans (evtRun_raise _ (by omega))⟩
  · rw [if_neg hirq]
    exact ⟨only_mono honly (by simp) (by simp +contextual), hpend, hbit, fun h => absurd h hirq, fun _ => hevt⟩

/-- An object that makes no further attempt and is not being destroyed. -/
theorem objStopped_eq (h : o.dying = none) : s.objStopped x o = (s.setObj x { o with noRetry := false }).objResult x { o with noRetry := false } false :=
  if_neg (by simp [h])

theorem objStopped_shows (h : o.dying = none) :
    s.only [.bus, .rcd, .cyc] ([BUS_OBJ_STAT.PEND x, BUS_OBJ_STAT.FAILED x] ++ raiseFlds (250 + 6 * o.ctrl)) (s.objStopped x o) ∧
      (s.objStopped x o).getB (BUS_OBJ_STAT.PEND x) = false ∧ (s.objStopped x o).getB (BUS_OBJ_STAT.FAILED x) = true ∧
      (s.objStopped x o).bus = { s.bus with objs := tput s.bus.objs x { o with noRetry := false } } ∧
      (o.irq = true → s.raised (250 + 6 * o.ctrl) (s.objStopped x o)) ∧ (o.ctrl < 8 → EvtRun s (s.objStopped x o)) := by
  rw [objStopped_eq h]
  have hset := only_setObj x { o with noRetry := false } s
  have hbus : (s.setObj x { o with noRetry := false }).bus = { s.bus with objs := tput s.bus.objs x { o with noRetry := false } } := rfl
  generalize s.setObj x { o with noRetry := false } = u at hset hbus
  obtain ⟨honly, hpend, hbit, hraised, hevt⟩ := objResult_shows x { o with noRetry := false } false u
  exact ⟨only_mono (only_seq hset honly) (by simp) (fun _ hf => hf), hpend, hbit, (honly.1 .bus (by simp)).trans hbus,
    fun hi => raised_of_only hset (by simp) (by simp) (hraised hi), fun hn => (evtRun_of_only hset (by simp) (by simp)).trans (hevt hn)⟩

end Objects

end Sys2Proof.Machine
end

section
/-! PROOFS. BUS: error counts, bus-off, alerts and the writes of the host (R430, R431, R435, R438) for the statement of chapter 20. -/

namespace Sys2Proof.Machine

/-! ### Errors, bus-off and recovery (R430) -/

section BusOff
variable {s : State} {x : Nat} {o : CanObj}

/-- The weight of a receive error. -/
def rxWeight (kind : Fin 3) : Nat := if kind = 1 then 1 else 8

theorem execCanRxError_eq {n : Fin 8} {kind : Fin 3} (hlive : s.canLive n.val = true) (hkind : kind ≠ 0) : exec (.canRxError n kind) s =
    .next ((s.set (BUS_C_STAT.REC n.val) (min 255 (s.get (BUS_C_STAT.REC n.val) + rxWeight kind))).canErrState n.val) := by
  have hcases : ∀ k : Fin 3, k ≠ 0 → k = 1 ∨ k = 2 := by decide
  rw [← satTo_eq_min]
  rcases hcases kind hkind with rfl | rfl
  · exact congrArg Host.Outcome.next (if_pos (by rw [hlive]; decide))
  · exact congrArg Host.Outcome.next (if_pos (by rw [hlive]; decide))

theorem receiveErrorCounted (n : Fin 8) (kind : Fin 3) {r : Nat} (hlive : s.canLive n.val = true) (hkind : kind ≠ 0) (hr : r = (if kind = 1 then 1 else 8)) :
    ∃ t, exec (.canRxError n kind) s = .next t ∧
    t.get (BUS_C_STAT.REC n.val) = min 255 (s.get (BUS_C_STAT.REC n.val) + r) ∧ t.get (BUS_C_STAT.STATE n.val) = (if 127 < s.get (BUS_C_STAT.TEC n.val) ∨ 127 < s.get (BUS_C_STAT.REC n.val) + r then 1 else 0) ∧
    (t.get (BUS_C_STAT.STATE n.val) ≠ s.get (BUS_C_STAT.STATE n.val) → s.raised (251 + 6 * n.val) t) ∧ s.only [.rcd, .cyc] ([BUS_C_STAT.REC n.val, BUS_C_STAT.STATE n.val] ++ raiseFlds (251 + 6 * n.val)) t := by
  subst hr
  have hexec := execCanRxError_eq hlive hkind
  obtain ⟨hrec, hstate, hraised, honly, -⟩ := errCounted (f := BUS_C_STAT.REC n.val) (get_state_of_live hlive) rfl (Nat.le_of_ble_eq_true rfl) (.inl (Nat.le_of_ble_eq_true rfl))
    (min 255 (s.get (BUS_C_STAT.REC n.val) + rxWeight kind))
  have hlt : min 255 (s.get (BUS_C_STAT.REC n.val) + rxWeight kind) < 2 ^ (BUS_C_STAT.REC n.val).width := by
    show _ < 2 ^ 8
    omega
  refine ⟨_, hexec, hrec.trans (Nat.mod_eq_of_lt hlt), hstate.trans ?_, hraised, honly⟩
  have htec : (s.set (BUS_C_STAT.REC n.val) (min 255 (s.get (BUS_C_STAT.REC n.val) + rxWeight kind))).get (BUS_C_STAT.TEC n.val) = s.get (BUS_C_STAT.TEC n.val) :=
    get_set_apart _ _ _ _ (.inr (.inr (Nat.le_of_ble_eq_true rfl))) (Nat.le_of_ble_eq_true rfl)
  rw [State.errPassive, htec, get_set_self _ _ _ (Nat.le_of_ble_eq_true rfl), Nat.mod_eq_of_lt hlt]
  have hcond : (decide (127 < s.get (BUS_C_STAT.TEC n.val)) || decide (127 < min 255 (s.get (BUS_C_STAT.REC n.val) + rxWeight kind))) = true ↔
      (127 < s.get (BUS_C_STAT.TEC n.val) ∨ 127 < s.get (BUS_C_STAT.REC n.val) + rxWeight kind) := by
    rw [Bool.or_eq_true, decide_eq_true_eq, decide_eq_true_eq]
    omega
  exact if_congr hcond rfl rfl

theorem integrated (n : Fin 8) (hon : s.canOn n.val = true) (hst : s.get (BUS_C_STAT.STATE n.val) = 3) :
    ∃ t, exec (.canBusIntegration n) s = .next t ∧ t.get (BUS_C_STAT.STATE n.val) = 0 ∧ s.only [] [BUS_C_STAT.STATE n.val] t :=
  ⟨s.set (BUS_C_STAT.STATE n.val) 0, congrArg Host.Outcome.next (if_pos (by simp [hon, hst])), get_set_self _ _ _ (Nat.le_of_ble_eq_true rfl), only_set s 0 (Nat.le_of_ble_eq_true rfl)⟩

theorem execBusOff_eq {n : Fin 8} (hon : s.canOn n.val = true) (htec : 255 < s.get (BUS_C_STAT.TEC n.val)) (hst : s.get (BUS_C_STAT.STATE n.val) < 2) :
    exec (.busOff n) s = .next (s.goBusOff n.val) := congrArg Host.Outcome.next (if_pos (by simp [hon, htec, hst]))

theorem wentBusOff (n : Fin 8) (hon : s.canOn n.val = true) (htec : 255 < s.get (BUS_C_STAT.TEC n.val)) (hst : s.get (BUS_C_STAT.STATE n.val) < 2)
    (hheld : s.wireHeld n.val none = false) : ∃ t, exec (.busOff n) s = .next t ∧ t.get (BUS_C_STAT.STATE n.val) = 2 ∧
    (t.busCtl n.val).recovering = s.getB (BUS_C_CFG.AUTO_REC n.val) ∧ s.raised (251 + 6 * n.val) t ∧ s.only [.bus, .rcd, .cyc] (BUS_C_STAT.STATE n.val :: raiseFlds (251 + 6 * n.val)) t := by
  have hexec := execBusOff_eq hon htec hst
  rw [goBusOff_free hheld] at hexec
  obtain ⟨honly, hstate, hrec, -, hraised, -⟩ := busOffStarted_shows n.val s
  exact ⟨_, hexec, hstate, hrec, hraised hst, honly⟩

/-- The one object of the controller, on the wire, is stopped first. -/
theorem goBusOff_wired {n : Nat} (hobjs : s.bus.objs = [(x, o)]) (hctrl : o.ctrl = n) (hno : o.noRetry = true) :
    s.goBusOff n = (s.objStopped x o).busOffStarted n := by
  have hw : (o.ctrl = n && o.wired) = true := by simp [hctrl, CanObj.wired, hno]
  rw [State.goBusOff, hobjs]
  simp only [List.foldl_cons, List.foldl_nil, if_pos hw]
  rfl

theorem wentBusOffWired (n : Fin 8) (hon : s.canOn n.val = true) (htec : 255 < s.get (BUS_C_STAT.TEC n.val)) (hst : s.get (BUS_C_STAT.STATE n.val) < 2)
    (hobjs : s.bus.objs = [(x, o)]) (hctrl : o.ctrl = n.val) (hno : o.noRetry = true) (hdying : o.dying = none) :
    ∃ t, exec (.busOff n) s = .next t ∧ t.get (BUS_C_STAT.STATE n.val) = 2 ∧ t.getB (BUS_OBJ_STAT.PEND x) = false ∧ t.getB (BUS_OBJ_STAT.FAILED x) = true ∧ (o.irq = true → s.raised (250 + 6 * n.val) t) ∧ s.raised (251 + 6 * n.val) t ∧
    t.busObj x = some { o with noRetry := false } ∧ s.only [.bus, .rcd, .cyc] ([BUS_C_STAT.STATE n.val, BUS_OBJ_STAT.PEND x, BUS_OBJ_STAT.FAILED x] ++ raiseFlds (250 + 6 * n.val) ++ raiseFlds (251 + 6 * n.val)) t := by
  have hexec := execBusOff_eq hon htec hst
  rw [goBusOff_wired hobjs hctrl hno] at hexec
  obtain ⟨honly, hpend, hfailed, hbus, hraised, hevt⟩ := objStopped_shows (s := s) (x := x) hdying
  rw [hctrl] at honly hraised hevt
  have hkeep : (s.objStopped x o).get (BUS_C_STAT.STATE n.val) = s.get (BUS_C_STAT.STATE n.val) := by
    refine honly.2.1 _ (apart_raised ?_ (window_ctlStat _) _)
    simpa using ⟨apart_of_addr (objStat_ne_ctlStat x n.val).symm, apart_of_addr (objStat_ne_ctlStat x n.val).symm⟩
  generalize s.objStopped x o = u at hexec honly hpend hfailed hbus hraised hevt hkeep
  obtain ⟨honly', hstate, -, hbus', hraised', hevt'⟩ := busOffStarted_shows n.val u
  have hbeside : u.getB (BUS_OBJ_STAT.PEND x) = (u.busOffStarted n.val).getB (BUS_OBJ_STAT.PEND x) ∧ u.getB (BUS_OBJ_STAT.FAILED x) = (u.busOffStarted n.val).getB (BUS_OBJ_STAT.FAILED x) := by
    refine ⟨(getB_of_only honly' ?_).symm, (getB_of_only honly' ?_).symm⟩
    · exact fun f hf => (List.mem_cons.1 hf).elim (fun h => h ▸ apart_of_addr (objStat_ne_ctlStat x n.val)) (apart_raise (window_objStat x) _ f)
    · exact fun f hf => (List.mem_cons.1 hf).elim (fun h => h ▸ apart_of_addr (objStat_ne_ctlStat x n.val)) (apart_raise (window_objStat x) _ f)
  refine ⟨_, hexec, hstate, hbeside.1 ▸ hpend, hbeside.2 ▸ hfailed, fun hi => (hevt' n.isLt).raised_first (hevt n.isLt) (by omega) (hraised hi),
    (hevt n.isLt).raised_second (hevt' n.isLt) (by omega) (hraised' (by omega)), ?_, only_mono (only_seq honly honly') (by simp) (by simp +contextual [or_imp])⟩
  rw [State.busObj, hbus', hbus]
  exact tget_tput_self ..

theorem recovered (n : Fin 8) (hon : s.canOn n.val = true) (hst : s.get (BUS_C_STAT.STATE n.val) = 2) (hrec : (s.busCtl n.val).recovering = true) :
    ∃ t, exec (.busOffRecovered n) s = .next t ∧ t.get (BUS_C_STAT.STATE n.val) = 0 ∧
    t.get (BUS_C_STAT.TEC n.val) = 0 ∧ t.get (BUS_C_STAT.REC n.val) = 0 ∧ (t.busCtl n.val).recovering = false ∧ s.raised (251 + 6 * n.val) t ∧
    s.only [.bus, .rcd, .cyc] ([BUS_C_STAT.STATE n.val, BUS_C_STAT.TEC n.val, BUS_C_STAT.REC n.val] ++ raiseFlds (251 + 6 * n.val)) t := by
  have hexec : exec (.busOffRecovered n) s = .next ((((s.setCtl n.val { s.busCtl n.val with recovering := false }).set (BUS_C_STAT.TEC n.val) 0).set
      (BUS_C_STAT.REC n.val) 0).setCanState n.val 0) := if_pos (by simp [hon, hst, hrec])
  have hctl := only_setCtl n.val { s.busCtl n.val with recovering := false } s
  have hoff : (s.setCtl n.val { s.busCtl n.val with recovering := false }).busCtl n.val = { s.busCtl n.val with recovering := false } := busCtl_setCtl ..
  generalize s.setCtl n.val { s.busCtl n.val with recovering := false } = u at hexec hctl hoff
  have hset := only_set u (f := BUS_C_STAT.TEC n.val) 0 (Nat.le_of_ble_eq_true rfl)
  have hset' := only_set (u.set (BUS_C_STAT.TEC n.val) 0) (f := BUS_C_STAT.REC n.val) 0 (Nat.le_of_ble_eq_true rfl)
  have htec : ((u.set (BUS_C_STAT.TEC n.val) 0).set (BUS_C_STAT.REC n.val) 0).get (BUS_C_STAT.TEC n.val) = 0 :=
    (get_set_apart _ _ _ _ (.inr (.inr (Nat.le_of_ble_eq_true rfl))) (Nat.le_of_ble_eq_true rfl)).trans (get_set_self _ _ _ (Nat.le_of_ble_eq_true rfl))
  have hrecz : ((u.set (BUS_C_STAT.TEC n.val) 0).set (BUS_C_STAT.REC n.val) 0).get (BUS_C_STAT.REC n.val) = 0 := get_set_self _ _ _ (Nat.le_of_ble_eq_true rfl)
  have hall := only_seq hctl (only_seq hset hset')
  have hkeep : ((u.set (BUS_C_STAT.TEC n.val) 0).set (BUS_C_STAT.REC n.val) 0).get (BUS_C_STAT.STATE n.val) = s.get (BUS_C_STAT.STATE n.val) :=
    hall.2.1 _ (by simpa using ⟨.inr (.inr (Nat.le_of_ble_eq_true rfl)), .inr (.inr (Nat.le_of_ble_eq_true rfl))⟩)
  have hbus : ((u.set (BUS_C_STAT.TEC n.val) 0).set (BUS_C_STAT.REC n.val) 0).bus = u.bus := (set_bus ..).trans (set_bus ..)
  generalize (u.set (BUS_C_STAT.TEC n.val) 0).set (BUS_C_STAT.REC n.val) 0 = v at hexec htec hrecz hall hkeep hbus
  obtain ⟨honly, hstate, hraised, -⟩ := setCanState_shows (v := 0) (by decide) n.val v
  have hcount {g : Fld} (ha : g.addr = BUS_C_STAT n.val) (hg : g.apart (BUS_C_STAT.STATE n.val)) : (v.setCanState n.val 0).get g = v.get g :=
    honly.2.1 g fun f hf => (List.mem_cons.1 hf).elim (fun h => h ▸ hg) (apart_raise (ha ▸ window_ctlStat _) _ f)
  refine ⟨_, hexec, hstate, (hcount rfl (.inr (.inl (Nat.le_of_ble_eq_true rfl)))).trans htec, (hcount rfl (.inr (.inl (Nat.le_of_ble_eq_true rfl)))).trans hrecz, ?_,
    raised_of_only hall (by simp) (by simpa using ⟨window_ctlStat n.val, window_ctlStat n.val⟩) (hraised (by omega)), only_mono (only_seq hall honly) (by simp) (by simp +contextual [or_imp])⟩
  rw [busCtl_of_bus (honly.1 .bus (by simp)), busCtl_of_bus hbus, hoff]

/-! ### Dominant timeouts (R431) -/

theorem txDominant (n : Fin 8) (hon : s.canOn n.val = true) (hst : s.get (BUS_C_STAT.STATE n.val) < 2) (hheld : s.wireHeld n.val none = false) :
    ∃ t, exec (.txdDom n) s = .next t ∧ bitAt (t.get (BUS_C_ALERT.ALERT n.val)) 3 = true ∧ t.get (BUS_C_STAT.STATE n.val) = 2 ∧
    (t.busCtl n.val).recovering = s.getB (BUS_C_CFG.AUTO_REC n.val) ∧ s.raised (251 + 6 * n.val) t ∧ (bitAt (s.get (BUS_C_ALERT.ALERT n.val)) 3 = false → s.raised (253 + 6 * n.val) t) ∧
    s.only [.bus, .rcd, .cyc] ([⟨BUS_C_ALERT n.val, 3, 1⟩, BUS_C_STAT.STATE n.val] ++ raiseFlds (251 + 6 * n.val) ++ raiseFlds (253 + 6 * n.val)) t := by
  have hexec : exec (.txdDom n) s = .next ((s.canAlert n.val 3).goBusOff n.val) := congrArg Host.Outcome.next (if_pos (by
    rw [hon]
    simp only [Bool.true_and, decide_eq_true_eq]
    omega))
  obtain ⟨honly, halert, hraised, hevt⟩ := canAlert_shows (b := 3) (by decide) n.val s
  have hbus : (s.canAlert n.val 3).bus = s.bus := honly.1 .bus (by simp)
  have hcfg : (s.canAlert n.val 3).getB (BUS_C_CFG.AUTO_REC n.val) = s.getB (BUS_C_CFG.AUTO_REC n.val) :=
    getB_of_only honly fun f hf => (List.mem_cons.1 hf).elim
      (fun h => h ▸ apart_of_addr (by simp only [BUS_C_CFG.AUTO_REC, BUS_C_CFG, alertBit, BUS_C_ALERT]; omega))
      (apart_raise (by simp only [windowOf, BUS_C_CFG.AUTO_REC, BUS_C_CFG]; omega) _ f)
  have hkeep : (s.canAlert n.val 3).get (BUS_C_STAT.STATE n.val) = s.get (BUS_C_STAT.STATE n.val) :=
    honly.2.1 _ fun f hf => (List.mem_cons.1 hf).elim (fun h => h ▸ apart_of_addr (ctlStat_ne_alert _ _)) (apart_raise (window_ctlStat _) _ f)
  have hheld' : (s.canAlert n.val 3).wireHeld n.val none = false := by rw [State.wireHeld, hbus]; exact hheld
  rw [goBusOff_free hheld'] at hexec
  generalize s.canAlert n.val 3 = u at hexec honly halert hraised hevt hcfg hkeep
  obtain ⟨honly', hstate, hrec, -, hraised', hevt'⟩ := busOffStarted_shows n.val u
  have halert' : (u.busOffStarted n.val).get (BUS_C_ALERT.ALERT n.val) = u.get (BUS_C_ALERT.ALERT n.val) :=
    honly'.2.1 _ fun f hf => (List.mem_cons.1 hf).elim (fun h => h ▸ apart_of_addr (ctlStat_ne_alert _ _).symm) (apart_raise (window_ctlAlert _) _ f)
  refine ⟨_, hexec, by rw [halert']; exact halert, hstate, hrec.trans hcfg, (hevt n.isLt).raised_second (hevt' n.isLt) (by omega) (hraised' (by omega)),
    fun h => (hevt' n.isLt).raised_first (hevt n.isLt) (by omega) (hraised h), only_mono (only_seq honly honly') (by simp) (by simp +contextual [or_imp, alertBit])⟩

theorem busDominant (n : Fin 8) (hon : s.canOn n.val = true) : ∃ t, exec (.busDom n) s = .next t ∧ bitAt (t.get (BUS_C_ALERT.ALERT n.val)) 4 = true ∧
    (bitAt (s.get (BUS_C_ALERT.ALERT n.val)) 4 = false → s.raised (253 + 6 * n.val) t) ∧
    s.only [.rcd, .cyc] (⟨BUS_C_ALERT n.val, 4, 1⟩ :: raiseFlds (253 + 6 * n.val)) t := by
  obtain ⟨honly, halert, hraised, -⟩ := canAlert_shows (b := 4) (by decide) n.val s
  exact ⟨_, congrArg Host.Outcome.next (if_pos hon), halert, hraised, honly⟩

end BusOff

/-! ### Writes of the host (R430, R435, R438) -/

section Writes
variable {s : State} {o : CanObj} {core : Fin 8} {value : Word}

theorem blkOf_bus {a : Nat} (hl : 0xCE000000 ≤ a) (hu : a < 0xCF000000) : blkOf a = 0x0E := by
  have h : a / 0x1000000 = 0xCE := by omega
  simp only [blkOf, h]
  rfl

/-- No ring register of BUS lies from its controllers on. -/
theorem ringAt_bus {a : Nat} (hl : 0xCE001000 ≤ a) : ringAt 0x0E RING_PI a = none ∧ ringAt 0x0E CRING_CI a = none := by
  have hpi : ∀ r ∈ List.range 8, (RING_PI 0x0E r).addr < 0xCE001000 := by decide
  have hci : ∀ r ∈ List.range 8, (CRING_CI 0x0E r).addr < 0xCE001000 := by decide
  refine ⟨List.find?_eq_none.2 fun r hr => ?_, List.find?_eq_none.2 fun r hr => ?_⟩
  · have := hpi r hr
    simp only [decide_eq_true_eq]
    omega
  · have := hci r hr
    simp only [decide_eq_true_eq]
    omega

theorem specialWrite_bus {a : Nat} (hl : 0xCE001000 ≤ a) (hu : a < 0xCF000000) (v : Word) (s : State) : s.specialWrite a v = s.busWrite a v := by
  obtain ⟨hpi, hci⟩ := ringAt_bus hl
  simp only [State.specialWrite, blkOf_bus (by omega : 0xCE000000 ≤ a) hu, hpi, hci]

theorem busWrite_ctlStat (n : Fin 8) (v : Word) (s : State) : s.busWrite (BUS_C_STAT n.val) v = some (s.writeRecover n.val v) :=
  match n with
  | 0 | 1 | 2 | 3 | 4 | 5 | 6 | 7 => rfl

theorem busWrite_objCtrl (x : Fin 2048) (v : Word) (s : State) : s.busWrite (BUS_OBJ_CTRL x.val) v = some (s.writeObjCtrl x.val v) := by
  have three {p q r : Prop} [Decidable p] [Decidable q] [Decidable r] (h : ¬ (p ∧ q ∧ r)) : ¬ (decide p && decide q && decide r) = true := by
    simpa [and_assoc] using h
  have hx := x.isLt
  have ha : BUS_OBJ_CTRL x.val = 0xCE100004 + 128 * x.val := by simp only [BUS_OBJ_CTRL]; omega
  have hq : ¬ (BUS_Q_CI 0 ≤ 0xCE100004 + 128 * x.val ∧ 0xCE100004 + 128 * x.val < BUS_Q_CI 0 + 0x20 * 8 ∧ (0xCE100004 + 128 * x.val - BUS_Q_CI 0) % 32 = 0) := by
    simp only [BUS_Q_CI]; omega
  have hst : ¬ (BUS_C_STAT 0 ≤ 0xCE100004 + 128 * x.val ∧ 0xCE100004 + 128 * x.val < BUS_C_STAT 0 + 0x100 * 8 ∧ (0xCE100004 + 128 * x.val - BUS_C_STAT 0) % 256 = 0) := by
    simp only [BUS_C_STAT]; omega
  have hcfg : ¬ (BUS_C_CFG 0 ≤ 0xCE100004 + 128 * x.val ∧ 0xCE100004 + 128 * x.val < BUS_C_CFG 0 + 0x100 * 8 ∧ (0xCE100004 + 128 * x.val - BUS_C_CFG 0) % 256 = 0) := by
    simp only [BUS_C_CFG]; omega
  have htp : ¬ (BUS_C_TPLIM 0 ≤ 0xCE100004 + 128 * x.val ∧ 0xCE100004 + 128 * x.val < BUS_C_TPLIM 0 + 0x100 * 8 ∧ (0xCE100004 + 128 * x.val - BUS_C_TPLIM 0) % 256 = 0) := by
    simp only [BUS_C_TPLIM]; omega
  have hobj : BUS_OBJ_STAT 0 ≤ 0xCE100004 + 128 * x.val ∧ 0xCE100004 + 128 * x.val < BUS_OBJ_STAT 0 + 0x80 * 2048 := by simp only [BUS_OBJ_STAT]; omega
  have hidx : (0xCE100004 + 128 * x.val - BUS_OBJ_STAT 0) / 128 = x.val := by simp only [BUS_OBJ_STAT]; omega
  have hoff : (0xCE100004 + 128 * x.val - BUS_OBJ_STAT 0) % 128 = 4 := by simp only [BUS_OBJ_STAT]; omega
  rw [ha, State.busWrite, if_neg (three hq), if_neg (three hst), if_neg (three hcfg),
    if_neg (three htp), if_pos (by rw [Bool.and_eq_true, decide_eq_true_eq, decide_eq_true_eq]; exact hobj)]
  simp only [hidx, hoff, if_true]

theorem goodAddr_bus {a : Nat} (hl : 0xCE000000 ≤ a) (hu : a < 0xCF000000) (h4 : a % 4 = 0) : goodAddr a = true := by
  simp only [goodAddr, h4, Bool.and_eq_true, decide_eq_true_eq, and_true]
  omega

theorem execBusRecover_eq {n : Fin 8} (hopen : s.closed (BUS_C_STAT n.val) = false) : exec (.busRecover core n value) s = .next (s.accessed.writeRecover n.val value) := by
  obtain ⟨hl, hu⟩ := ctlStat_in n.val
  have hl' : 0xCE001000 ≤ BUS_C_STAT n.val := by simp only [BUS_C_STAT]; omega
  exact congrArg Host.Outcome.next (hostWrite_special (goodAddr_bus hl (by omega) (by simp only [BUS_C_STAT]; omega)) hopen
    ((specialWrite_bus hl' (by omega) _ _).trans (busWrite_ctlStat ..)))

theorem objCtrl_in (x : Nat) : 0xCE001000 ≤ BUS_OBJ_CTRL x ∧ BUS_OBJ_CTRL x < 0xCF000000 ∧ BUS_OBJ_CTRL x % 4 = 0 := by simp only [BUS_OBJ_CTRL]; omega

theorem hostWrite_objCtrl (x : Fin 2048) (hopen : s.closed (BUS_OBJ_CTRL x.val) = false) :
    s.hostWrite core.val (BUS_OBJ_CTRL x.val) value = s.accessed.writeObjCtrl x.val value := by
  obtain ⟨hl, hu, h4⟩ := objCtrl_in x.val
  exact hostWrite_special (goodAddr_bus (by omega) hu h4) hopen ((specialWrite_bus hl hu _ _).trans (busWrite_objCtrl ..))

theorem recoverAsked (n : Fin 8) (hopen : s.closed (BUS_C_STAT n.val) = false) (hbit : bitAt value.toNat 31 = true) (hon : s.canOn n.val = true)
    (hst : s.get (BUS_C_STAT.STATE n.val) = 2) : ∃ t, exec (.busRecover core n value) s = .next t ∧
    t.bus = { s.bus with ctls := tput s.bus.ctls n.val { s.busCtl n.val with recovering := true } } ∧ s.only [.access, .bus] [] t := by
  have hexec : exec (.busRecover core n value) s = .next _ := execBusRecover_eq hopen
  rw [State.writeRecover, if_pos (by
    have hon' : s.accessed.canOn n.val = true := hon
    have hst' : s.accessed.get (BUS_C_STAT.STATE n.val) = 2 := hst
    rw [hbit, hon', hst']; decide)] at hexec
  exact ⟨_, hexec, rfl, only_mono (only_seq (only_accessed s) (only_setCtl n.val _ s.accessed)) (by simp) (by simp)⟩

/-- What a write of SEND does to a transmit object. -/
def State.objAsked (x : Nat) (o : CanObj) (s : State) : State :=
  if s.getB (BUS_OBJ_STAT.PEND x) || ((s.reg (BUS_OBJ_REC x 1)).toNat % 4 ≠ 0 && !s.getB (BUS_C_CFG.FD_EN o.ctrl)) then s.bump (BUS_C_CNT.WIGN o.ctrl) 1
  else if s.get (BUS_C_CFG.MODE o.ctrl) = 1 then s.objResult x o false
  else (s.setObj x { o with pendAt := s.now, noRetry := false }).setB (BUS_OBJ_STAT.PEND x) true

theorem writeObjCtrl_send {x : Nat} (hobj : s.busObj x = some o) (htx : o.tx = true) (h0 : bitAt value.toNat 0 = true) (h1 : bitAt value.toNat 1 = false) :
    s.writeObjCtrl x value = s.objAsked x o := by
  simp only [State.writeObjCtrl, State.objAsked, hobj, htx, h0, h1, Bool.not_true, Bool.false_eq_true, if_false, Bool.false_and]

/-- What a write of ABORT does to a pending transmit object. -/
def State.objAborted (x : Nat) (o : CanObj) (s : State) : State :=
  if s.onWire x o then (s.setObj x { o with noRetry := true }).drawn else (s.objResult x o false).drawn

theorem writeObjCtrl_abort {x : Nat} (hobj : s.busObj x = some o) (htx : o.tx = true) (h0 : bitAt value.toNat 0 = false) (h1 : bitAt value.toNat 1 = true)
    (hpend : s.getB (BUS_OBJ_STAT.PEND x) = true) : s.writeObjCtrl x value = s.objAborted x o := by
  simp only [State.writeObjCtrl, State.objAborted, hobj, htx, h0, h1, Bool.not_true, Bool.not_false, Bool.false_eq_true, if_false, Bool.true_and, if_true, hpend]

variable {x : Fin 2048}

theorem execObjSend_eq (hopen : s.closed (BUS_OBJ_CTRL x.val) = false) (hobj : s.busObj x.val = some o) (htx : o.tx = true) (h0 : bitAt value.toNat 0 = true)
    (h1 : bitAt value.toNat 1 = false) : exec (.objSend core x value) s = .next (s.accessed.objAsked x.val o) :=
  congrArg Host.Outcome.next (((if_pos h0).trans (hostWrite_objCtrl x hopen)).trans (writeObjCtrl_send (s := s.accessed) hobj htx h0 h1))

theorem sendPending (hopen : s.closed (BUS_OBJ_CTRL x.val) = false) (hobj : s.busObj x.val = some o) (htx : o.tx = true) (h0 : bitAt value.toNat 0 = true)
    (h1 : bitAt value.toNat 1 = false) (hpend : s.getB (BUS_OBJ_STAT.PEND x.val) = false)
    (hfd : (s.reg (BUS_OBJ_REC x.val 1)).toNat % 4 = 0 ∨ s.getB (BUS_C_CFG.FD_EN o.ctrl) = true) (hmode : s.get (BUS_C_CFG.MODE o.ctrl) ≠ 1) :
    ∃ t, exec (.objSend core x value) s = .next t ∧
    t.getB (BUS_OBJ_STAT.PEND x.val) = true ∧ t.busObj x.val = some { o with pendAt := s.now, noRetry := false } ∧ s.only [.access, .bus] [BUS_OBJ_STAT.PEND x.val] t := by
  have hexec := execObjSend_eq (core := core) hopen hobj htx h0 h1
  have hpend' : s.accessed.getB (BUS_OBJ_STAT.PEND x.val) = false := hpend
  have hfd' : (decide ((s.accessed.reg (BUS_OBJ_REC x.val 1)).toNat % 4 ≠ 0) && !s.accessed.getB (BUS_C_CFG.FD_EN o.ctrl)) = false := by
    rcases hfd with h | h
    · have h' : (s.accessed.reg (BUS_OBJ_REC x.val 1)).toNat % 4 = 0 := h
      simp [h']
    · have h' : s.accessed.getB (BUS_C_CFG.FD_EN o.ctrl) = true := h
      simp [h']
  have hmode' : s.accessed.get (BUS_C_CFG.MODE o.ctrl) ≠ 1 := hmode
  rw [State.objAsked, hpend', hfd', if_neg (by decide), if_neg hmode'] at hexec
  have hset := only_seq (only_accessed s) (only_setObj x.val { o with pendAt := s.now, noRetry := false } s.accessed)
  exact ⟨_, hexec, getB_setB_self _ _ _ (Nat.le_of_ble_eq_true rfl) rfl, (busObj_of_bus (setB_bus ..) _).trans (busObj_setObj ..),
    only_mono (only_seq hset (only_setB_flag (isFlag_pend x.val) _ true)) (by simp) (by simp)⟩

theorem sendListening (hopen : s.closed (BUS_OBJ_CTRL x.val) = false) (hobj : s.busObj x.val = some o) (htx : o.tx = true) (h0 : bitAt value.toNat 0 = true)
    (h1 : bitAt value.toNat 1 = false) (hpend : s.getB (BUS_OBJ_STAT.PEND x.val) = false)
    (hfd : (s.reg (BUS_OBJ_REC x.val 1)).toNat % 4 = 0 ∨ s.getB (BUS_C_CFG.FD_EN o.ctrl) = true) (hmode : s.get (BUS_C_CFG.MODE o.ctrl) = 1) :
    ∃ t, exec (.objSend core x value) s = .next t ∧
    t.getB (BUS_OBJ_STAT.FAILED x.val) = true ∧ (o.irq = true → s.raised (250 + 6 * o.ctrl) t) ∧
    s.only [.access, .rcd, .cyc] ([BUS_OBJ_STAT.PEND x.val, BUS_OBJ_STAT.FAILED x.val] ++ raiseFlds (250 + 6 * o.ctrl)) t := by
  have hexec := execObjSend_eq (core := core) hopen hobj htx h0 h1
  have hpend' : s.accessed.getB (BUS_OBJ_STAT.PEND x.val) = false := hpend
  have hfd' : (decide ((s.accessed.reg (BUS_OBJ_REC x.val 1)).toNat % 4 ≠ 0) && !s.accessed.getB (BUS_C_CFG.FD_EN o.ctrl)) = false := by
    rcases hfd with h | h
    · have h' : (s.accessed.reg (BUS_OBJ_REC x.val 1)).toNat % 4 = 0 := h
      simp [h']
    · have h' : s.accessed.getB (BUS_C_CFG.FD_EN o.ctrl) = true := h
      simp [h']
  have hmode' : s.accessed.get (BUS_C_CFG.MODE o.ctrl) = 1 := hmode
  rw [State.objAsked, hpend', hfd', if_neg (by decide), if_pos hmode'] at hexec
  obtain ⟨honly, -, hbit, hraised, -⟩ := objResult_shows x.val o false s.accessed
  exact ⟨_, hexec, hbit, fun hi => raised_of_only (only_accessed s) (by simp) (by simp) (hraised hi), only_mono (only_seq (only_accessed s) honly) (by simp) (fun _ hf => hf)⟩

theorem sendIgnored (hopen : s.closed (BUS_OBJ_CTRL x.val) = false) (hobj : s.busObj x.val = some o) (htx : o.tx = true) (h0 : bitAt value.toNat 0 = true)
    (h1 : bitAt value.toNat 1 = false)
    (hbad : s.getB (BUS_OBJ_STAT.PEND x.val) = true ∨ (s.reg (BUS_OBJ_REC x.val 1)).toNat % 4 ≠ 0 ∧ s.getB (BUS_C_CFG.FD_EN o.ctrl) = false) :
    ∃ t, exec (.objSend core x value) s = .next t ∧
    t.get (BUS_C_CNT.WIGN o.ctrl) = min 65535 (s.get (BUS_C_CNT.WIGN o.ctrl) + 1) ∧ s.only [.access] [BUS_C_CNT.WIGN o.ctrl] t := by
  have hexec := execObjSend_eq (core := core) hopen hobj htx h0 h1
  have hbad' : (s.accessed.getB (BUS_OBJ_STAT.PEND x.val) ||
      (decide ((s.accessed.reg (BUS_OBJ_REC x.val 1)).toNat % 4 ≠ 0) && !s.accessed.getB (BUS_C_CFG.FD_EN o.ctrl))) = true := by
    rcases hbad with h | ⟨h, h'⟩
    · have hp : s.accessed.getB (BUS_OBJ_STAT.PEND x.val) = true := h
      simp [hp]
    · have hr : (s.accessed.reg (BUS_OBJ_REC x.val 1)).toNat % 4 ≠ 0 := h
      have hf : s.accessed.getB (BUS_C_CFG.FD_EN o.ctrl) = false := h'
      simp [hr, hf]
  rw [State.objAsked, if_pos hbad'] at hexec
  refine ⟨_, hexec, (get_bump_self _ _ _ (Nat.le_of_ble_eq_true rfl)).trans (satTo_eq_min ..), ?_⟩
  exact only_mono (only_seq (only_accessed s) (only_set s.accessed (f := BUS_C_CNT.WIGN o.ctrl) _ (Nat.le_of_ble_eq_true rfl))) (by simp) (by simp)

theorem abortAsked (hopen : s.closed (BUS_OBJ_CTRL x.val) = false) (hobj : s.busObj x.val = some o) (htx : o.tx = true) (h0 : bitAt value.toNat 0 = false)
    (h1 : bitAt value.toNat 1 = true) (hpend : s.getB (BUS_OBJ_STAT.PEND x.val) = true) : ∃ t, exec (.objAbort core x value) s = .next t ∧ t.free = s.free + 1 ∧
    (s.onWire x.val o = false → t.getB (BUS_OBJ_STAT.PEND x.val) = false ∧ t.getB (BUS_OBJ_STAT.FAILED x.val) = true ∧ (o.irq = true → s.raised (250 + 6 * o.ctrl) t)) ∧
    (s.onWire x.val o = true → t.busObj x.val = some { o with noRetry := true } ∧ t.getB (BUS_OBJ_STAT.PEND x.val) = true) ∧
    s.only [.access, .bus, .free, .rcd, .cyc] ([BUS_OBJ_STAT.PEND x.val, BUS_OBJ_STAT.FAILED x.val] ++ raiseFlds (250 + 6 * o.ctrl)) t := by
  have hexec : exec (.objAbort core x value) s = .next _ :=
    congrArg Host.Outcome.next (((if_pos h1).trans (hostWrite_objCtrl x hopen)).trans (writeObjCtrl_abort (s := s.accessed) hobj htx h0 h1 hpend))
  have hwire : s.accessed.onWire x.val o = s.onWire x.val o := rfl
  by_cases h : s.onWire x.val o = true
  · rw [State.objAborted, if_pos (hwire.trans h)] at hexec
    have hset := only_seq (only_accessed s) (only_setObj x.val { o with noRetry := true } s.accessed)
    refine ⟨_, hexec, rfl, fun h' => absurd (h.symm.trans h') (by decide), fun _ => ⟨busObj_setObj .., hpend⟩,
      only_mono (only_seq hset (only_drawn _)) (by simp) (by simp)⟩
  · rw [State.objAborted, if_neg (by rw [hwire]; exact h)] at hexec
    obtain ⟨honly, hp, hbit, hraised, -⟩ := objResult_shows x.val o false s.accessed
    have hfree : (s.accessed.objResult x.val o false).free = s.free := honly.1 .free (by simp)
    have hdraw := only_drawn (s.accessed.objResult x.val o false)
    refine ⟨_, hexec, congrArg (· + 1) hfree, fun _ => ⟨hp, hbit, fun hi => raised_of_only (only_accessed s) (by simp) (by simp) (raised_then (hraised hi) hdraw (by simp))⟩,
      fun h' => absurd h' h, only_mono (only_seq (only_seq (only_accessed s) honly) hdraw) (by simp) (by simp [objBit])⟩

end Writes

end Sys2Proof.Machine
end

section
/-! PROOFS. BUS: the ends of sends and the disabling (R430, R438, R439, R445), and the statement of chapter 20 on controllers and sends. -/

namespace Sys2Proof.Machine

/-! ### Sends that end (R438, R439) -/

section Sends
variable {s u : State} {n : Fin 8} {x : Fin 2048} {o : CanObj} {sof : Nat}

/-- A pending transmit object that may be the one on the wire. -/
structure State.objSends (s : State) (n : Fin 8) (x : Fin 2048) (o : CanObj) : Prop where
  live : s.canLive n.val = true
  obj : s.busObj x.val = some o
  tx : o.tx = true
  ctrl : o.ctrl = n.val
  pend : s.getB (BUS_OBJ_STAT.PEND x.val) = true
  held : s.wireHeld n.val (some x.val) = false
  dying : o.dying = none

/-- The stamp of a send in the object's record. -/
def State.objStamped (x sof : Nat) (s : State) : State :=
  (s.setReg (BUS_OBJ_REC x 4) (BitVec.ofNat 32 sof)).setReg (BUS_OBJ_REC x 5) (BitVec.ofNat 32 (sof / 2 ^ 32))

theorem objDies_none (x : Nat) (h : o.dying = none) (s : State) : s.objDies x o = s := by
  rw [State.objDies, h]

theorem objSent_eq (x : Nat) (h : o.dying = none) (s : State) :
    s.objSent x o sof = ((s.objStamped x sof).setObj x { o with noRetry := false }).objResult x o true :=
  objDies_none (o := { o with noRetry := false }) x h _

theorem objStamped_shows (x : Nat) (s : State) : s.only [] [wordAt (BUS_OBJ_REC x 4), wordAt (BUS_OBJ_REC x 5)] (s.objStamped x sof) ∧
    ((s.objStamped x sof).reg (BUS_OBJ_REC x 4)).toNat = sof % 2 ^ 32 ∧ ((s.objStamped x sof).reg (BUS_OBJ_REC x 5)).toNat = sof / 2 ^ 32 % 2 ^ 32 := by
  have hne : BUS_OBJ_REC x 4 ≠ BUS_OBJ_REC x 5 := by simp only [BUS_OBJ_REC]; omega
  refine ⟨only_then_setReg (only_then_setReg (only_refl s _ _) _ (by simp)) _ (by simp), ?_, ?_⟩
  · rw [State.objStamped, reg_setReg_ne _ _ hne, reg_setReg_self]
    rfl
  · rw [State.objStamped, reg_setReg_self]
    rfl

/-- The send of object `x` has been acknowledged. -/
theorem objSent_shows (x : Nat) (h : o.dying = none) (hctrl : o.ctrl = n.val) (s : State) :
    s.only [.bus, .rcd, .cyc] ([BUS_OBJ_STAT.PEND x, BUS_OBJ_STAT.DONE x, wordAt (BUS_OBJ_REC x 4), wordAt (BUS_OBJ_REC x 5)] ++ raiseFlds (250 + 6 * n.val)) (s.objSent x o sof) ∧
      (s.objSent x o sof).getB (BUS_OBJ_STAT.PEND x) = false ∧ (s.objSent x o sof).getB (BUS_OBJ_STAT.DONE x) = true ∧
      ((s.objSent x o sof).reg (BUS_OBJ_REC x 4)).toNat = sof % 2 ^ 32 ∧ ((s.objSent x o sof).reg (BUS_OBJ_REC x 5)).toNat = sof / 2 ^ 32 % 2 ^ 32 ∧
      (o.irq = true → s.raised (250 + 6 * n.val) (s.objSent x o sof)) ∧ (s.objSent x o sof).busObj x = some { o with noRetry := false } := by
  obtain ⟨honly, h4, h5⟩ := objStamped_shows (sof := sof) x s
  rw [objSent_eq x h, ← hctrl]
  have hset := only_seq honly (only_setObj x { o with noRetry := false } (s.objStamped x sof))
  have hobj := busObj_setObj x { o with noRetry := false } (s.objStamped x sof)
  have h4' : (((s.objStamped x sof).setObj x { o with noRetry := false }).reg (BUS_OBJ_REC x 4)).toNat = sof % 2 ^ 32 := h4
  have h5' : (((s.objStamped x sof).setObj x { o with noRetry := false }).reg (BUS_OBJ_REC x 5)).toNat = sof / 2 ^ 32 % 2 ^ 32 := h5
  generalize (s.objStamped x sof).setObj x { o with noRetry := false } = u at hset hobj h4' h5'
  obtain ⟨hresult, hpend, hdone, hraised, -⟩ := objResult_shows x o true u
  have hrec (j : Nat) : (u.objResult x o true).reg (BUS_OBJ_REC x j) = u.reg (BUS_OBJ_REC x j) := by
    refine reg_of_addrs hresult fun f hf => ?_
    rcases List.mem_append.1 hf with hf | hf
    · rcases List.mem_cons.1 hf with rfl | hf
      · exact (objStat_ne_rec x x j).symm
      · rw [List.mem_singleton.1 hf]
        exact (objStat_ne_rec x x j).symm
    · exact ne_raiseFlds (window_objRec x j) f hf
  have hwin : ∀ f ∈ [wordAt (BUS_OBJ_REC x 4), wordAt (BUS_OBJ_REC x 5)] ++ [], windowOf f.addr ≠ 0xC1 := by
    simpa using ⟨window_objRec x 4, window_objRec x 5⟩
  exact ⟨only_mono (only_seq hset hresult) (by simp) (by simp +contextual [or_imp, objBit]), hpend, hdone, by rw [hrec]; exact h4', by rw [hrec]; exact h5',
    fun hi => raised_of_only hset (by simp) hwin (hraised hi), (busObj_of_bus (hresult.1 .bus (by simp)) x).trans hobj⟩

theorem execCanTxDone_obj (h : s.objSends n x o) (hmode : s.get (BUS_C_CFG.MODE n.val) = 0) (hfirst : s.objFirst x.val o sof = true) :
    exec (.canTxDone n (some x) sof) s = .next ((s.objSent x.val o sof).tecDown n.val) := by
  change execCanTxDone n (some x) sof s = _
  simp only [execCanTxDone, hmode, h.live, h.obj, h.tx, h.ctrl, h.pend, h.held, hfirst, Bool.not_true, Bool.or_self, ne_eq, not_true_eq_false, decide_false, Bool.false_eq_true, if_false,
    Nat.zero_ne_one, OfNat.zero_ne_ofNat]

/-- TEC one lower on an error-active controller. -/
theorem tecDown_shows {n : Nat} (hst : u.get (BUS_C_STAT.STATE n) = 0) (htec : u.get (BUS_C_STAT.TEC n) ≤ 127) (hrec : u.get (BUS_C_STAT.REC n) ≤ 127) :
    u.only [] [BUS_C_STAT.TEC n] (u.tecDown n) ∧ (u.tecDown n).get (BUS_C_STAT.TEC n) = u.get (BUS_C_STAT.TEC n) - 1 := by
  have hval : (u.set (BUS_C_STAT.TEC n) (u.get (BUS_C_STAT.TEC n) - 1)).get (BUS_C_STAT.TEC n) = u.get (BUS_C_STAT.TEC n) - 1 :=
    (get_set_self _ _ _ (Nat.le_of_ble_eq_true rfl)).trans (Nat.mod_eq_of_lt (by show _ < 2 ^ 9; omega))
  have hrec' : (u.set (BUS_C_STAT.TEC n) (u.get (BUS_C_STAT.TEC n) - 1)).get (BUS_C_STAT.REC n) = u.get (BUS_C_STAT.REC n) :=
    get_set_apart _ _ _ _ (.inr (.inl (Nat.le_of_ble_eq_true rfl))) (Nat.le_of_ble_eq_true rfl)
  have hpassive : (u.set (BUS_C_STAT.TEC n) (u.get (BUS_C_STAT.TEC n) - 1)).errPassive n = 0 := by
    rw [State.errPassive, hval, hrec', if_neg]
    simp only [Bool.or_eq_true, decide_eq_true_eq]
    omega
  have heq : u.tecDown n = u.set (BUS_C_STAT.TEC n) (u.get (BUS_C_STAT.TEC n) - 1) :=
    errLowered (f := BUS_C_STAT.TEC n) hst (Nat.le_of_ble_eq_true rfl) (.inl (Nat.le_of_ble_eq_true rfl)) _ hpassive
  rw [heq]
  exact ⟨only_set u _ (Nat.le_of_ble_eq_true rfl), hval⟩

theorem sendAcknowledged (hlive : s.canLive n.val = true) (hmode : s.get (BUS_C_CFG.MODE n.val) = 0) (hobj : s.busObj x.val = some o) (htx : o.tx = true)
    (hctrl : o.ctrl = n.val) (hpend : s.getB (BUS_OBJ_STAT.PEND x.val) = true) (hfirst : s.objFirst x.val o sof = true)
    (hheld : s.wireHeld n.val (some x.val) = false) (hdying : o.dying = none) (hst : s.get (BUS_C_STAT.STATE n.val) = 0)
    (htec : s.get (BUS_C_STAT.TEC n.val) ≤ 127) (hrec : s.get (BUS_C_STAT.REC n.val) ≤ 127) : ∃ t, exec (.canTxDone n (some x) sof) s = .next t ∧
    t.getB (BUS_OBJ_STAT.PEND x.val) = false ∧ t.getB (BUS_OBJ_STAT.DONE x.val) = true ∧ (t.reg (BUS_OBJ_REC x.val 4)).toNat = sof % 2 ^ 32 ∧ (t.reg (BUS_OBJ_REC x.val 5)).toNat = sof / 2 ^ 32 % 2 ^ 32 ∧
    t.get (BUS_C_STAT.TEC n.val) = s.get (BUS_C_STAT.TEC n.val) - 1 ∧ (o.irq = true → s.raised (250 + 6 * n.val) t) ∧ t.busObj x.val = some { o with noRetry := false } ∧
    s.only [.bus, .rcd, .cyc] ([BUS_OBJ_STAT.PEND x.val, BUS_OBJ_STAT.DONE x.val, wordAt (BUS_OBJ_REC x.val 4), wordAt (BUS_OBJ_REC x.val 5), BUS_C_STAT.TEC n.val] ++ raiseFlds (250 + 6 * n.val)) t := by
  have hexec := execCanTxDone_obj ⟨hlive, hobj, htx, hctrl, hpend, hheld, hdying⟩ hmode hfirst
  obtain ⟨honly, hp, hd, h4, h5, hraised, ho⟩ := objSent_shows (sof := sof) x.val hdying hctrl s
  have hctl {g : Fld} (hg : g.addr = BUS_C_STAT n.val) : (s.objSent x.val o sof).get g = s.get g := by
    refine honly.2.1 g (apart_raised ?_ (hg ▸ window_ctlStat _) _)
    simp only [List.mem_cons, List.not_mem_nil, or_false, forall_eq_or_imp, forall_eq]
    exact ⟨.inl (hg ▸ (objStat_ne_ctlStat _ _).symm), .inl (hg ▸ (objStat_ne_ctlStat _ _).symm), .inl (hg ▸ (objRec_ne_ctlStat _ _ _).symm),
      .inl (hg ▸ (objRec_ne_ctlStat _ _ _).symm)⟩
  have hst' := (hctl (g := BUS_C_STAT.STATE n.val) rfl).trans hst
  have htec' := hctl (g := BUS_C_STAT.TEC n.val) rfl
  have hrec' := hctl (g := BUS_C_STAT.REC n.val) rfl
  generalize s.objSent x.val o sof = u at hexec honly hp hd h4 h5 hraised ho hst' htec' hrec'
  obtain ⟨hdown, hval⟩ := tecDown_shows hst' (by omega) (by omega)
  have hreg {a : Nat} (ha : a ≠ BUS_C_STAT n.val) : (u.tecDown n.val).reg a = u.reg a := reg_of_addrs hdown (fun f hf => by rw [List.mem_singleton.1 hf]; exact ha)
  refine ⟨_, hexec, (getB_congr _ (hreg (objStat_ne_ctlStat _ _))).trans hp, (getB_congr _ (hreg (objStat_ne_ctlStat _ _))).trans hd,
    by rw [hreg (objRec_ne_ctlStat _ _ _)]; exact h4, by rw [hreg (objRec_ne_ctlStat _ _ _)]; exact h5, hval.trans (by rw [htec']),
    fun hi => raised_then (hraised hi) hdown (fun f hf => by rw [List.mem_singleton.1 hf]; exact window_ctlStat n.val), (busObj_of_bus (hdown.1 .bus (by simp)) _).trans ho,
    only_mono (only_seq honly hdown) (by simp) (by simp +contextual [or_imp])⟩

/-- The frames that wait in the engine of controller `n`, but the first. -/
def State.txqRest (n : Nat) (rest : List TpTx) (s : State) : State := s.setCtl n { s.busCtl n with txq := rest }

theorem tpSent_none {f : TpTx} (h : f.sess = none) (sof : Nat) (s : State) : s.tpSent f sof = s := by
  rw [State.tpSent, h]

theorem execCanTxDone_engine {f : TpTx} {rest : List TpTx} (hlive : s.canLive n.val = true) (hmode : s.get (BUS_C_CFG.MODE n.val) = 0)
    (hq : (s.busCtl n.val).txq = f :: rest) (hsess : f.sess = none) (hheld : s.wireHeld n.val none = false) :
    exec (.canTxDone n none sof) s = .next ((s.txqRest n.val rest).tecDown n.val) := by
  change execCanTxDone n none sof s = _
  simp only [execCanTxDone, hmode, hlive, hq, hheld, tpSent_none hsess, State.txqRest, Bool.not_true, Bool.or_self, decide_false, Bool.false_eq_true, if_false,
    Nat.zero_ne_one, OfNat.zero_ne_ofNat]

theorem engineAcknowledged {f : TpTx} {rest : List TpTx} (hlive : s.canLive n.val = true) (hmode : s.get (BUS_C_CFG.MODE n.val) = 0)
    (hq : (s.busCtl n.val).txq = f :: rest) (hsess : f.sess = none) (hheld : s.wireHeld n.val none = false) (hst : s.get (BUS_C_STAT.STATE n.val) = 0)
    (htec : s.get (BUS_C_STAT.TEC n.val) ≤ 127) (hrec : s.get (BUS_C_STAT.REC n.val) ≤ 127) : ∃ t, exec (.canTxDone n none sof) s = .next t ∧ (t.busCtl n.val).txq = rest ∧
    t.get (BUS_C_STAT.TEC n.val) = s.get (BUS_C_STAT.TEC n.val) - 1 ∧ s.only [.bus] [BUS_C_STAT.TEC n.val] t := by
  have hexec := execCanTxDone_engine (sof := sof) hlive hmode hq hsess hheld
  have hset : s.only [.bus] [] (s.txqRest n.val rest) := only_setCtl n.val _ s
  have hctl : ((s.txqRest n.val rest).busCtl n.val).txq = rest := congrArg CanCtl.txq (busCtl_setCtl ..)
  obtain ⟨hdown, hval⟩ := tecDown_shows (u := s.txqRest n.val rest) (n := n.val) hst htec hrec
  exact ⟨_, hexec, by rw [busCtl_of_bus (hdown.1 .bus (by simp))]; exact hctl, hval, only_mono (only_seq hset hdown) (by simp) (by simp)⟩

theorem execCanTxError_obj {kind : Fin 4} (h : s.objSends n x o) (hmode : s.get (BUS_C_CFG.MODE n.val) ≠ 1) :
    exec (.canTxError n (some x) kind) s = .next ((s.tecUp n.val kind.val).objError x.val o (decide (kind.val = 3))) := by
  change execCanTxError n (some x) kind s = _
  have hm : decide (s.get (BUS_C_CFG.MODE n.val) = 1) = false := decide_eq_false hmode
  simp only [execCanTxError, hm, h.live, h.obj, h.tx, h.ctrl, h.pend, h.held, Bool.not_true, Bool.or_self, ne_eq, not_true_eq_false, decide_false, Bool.false_eq_true, if_false]

/-- TEC eight higher. -/
theorem tecUp_shows {n kind : Nat} (hkind : 2 ≤ kind) (hst : s.get (BUS_C_STAT.STATE n) < 2) :
    (s.tecUp n kind).get (BUS_C_STAT.TEC n) = min 511 (s.get (BUS_C_STAT.TEC n) + 8) ∧
      (s.tecUp n kind).get (BUS_C_STAT.STATE n) = (if 127 < s.get (BUS_C_STAT.TEC n) + 8 ∨ 127 < s.get (BUS_C_STAT.REC n) then 1 else 0) ∧
      ((s.tecUp n kind).get (BUS_C_STAT.STATE n) ≠ s.get (BUS_C_STAT.STATE n) → s.raised (251 + 6 * n) (s.tecUp n kind)) ∧
      s.only [.rcd, .cyc] ([BUS_C_STAT.TEC n, BUS_C_STAT.STATE n] ++ raiseFlds (251 + 6 * n)) (s.tecUp n kind) ∧ (n < 8 → EvtRun s (s.tecUp n kind)) := by
  have heq : s.tecUp n kind = (s.set (BUS_C_STAT.TEC n) (min 511 (s.get (BUS_C_STAT.TEC n) + 8))).canErrState n := by
    rw [State.tecUp, if_neg, satTo_eq_min]
    simp only [Bool.or_eq_true, Bool.and_eq_true, decide_eq_true_eq]
    omega
  have hlt : min 511 (s.get (BUS_C_STAT.TEC n) + 8) < 2 ^ (BUS_C_STAT.TEC n).width := by
    show _ < 2 ^ 9
    omega
  have hrec : (s.set (BUS_C_STAT.TEC n) (min 511 (s.get (BUS_C_STAT.TEC n) + 8))).get (BUS_C_STAT.REC n) = s.get (BUS_C_STAT.REC n) :=
    get_set_apart _ _ _ _ (.inr (.inl (Nat.le_of_ble_eq_true rfl))) (Nat.le_of_ble_eq_true rfl)
  obtain ⟨htec, hstate, hraised, honly, hevt⟩ := errCounted (f := BUS_C_STAT.TEC n) hst rfl (Nat.le_of_ble_eq_true rfl) (.inl (Nat.le_of_ble_eq_true rfl))
    (min 511 (s.get (BUS_C_STAT.TEC n) + 8))
  rw [State.errPassive, hrec, get_set_self _ _ _ (Nat.le_of_ble_eq_true rfl), Nat.mod_eq_of_lt hlt] at hstate
  rw [heq]
  refine ⟨htec.trans (Nat.mod_eq_of_lt hlt), hstate.trans (if_congr ?_ rfl rfl), hraised, honly, hevt⟩
  rw [Bool.or_eq_true, decide_eq_true_eq, decide_eq_true_eq]
  omega

theorem objError_single (hsingle : o.single = true) (y : Nat) (s : State) : s.objError y o false = (s.setObj y o).objStopped y o := by
  have heq : s.objError y o false = if o.single || o.wired then (s.setObj y o).objStopped y o else s.setObj y o := rfl
  rw [heq, hsingle, Bool.true_or, if_pos rfl]

theorem singleFailed (hlive : s.canLive n.val = true) (hmode : s.get (BUS_C_CFG.MODE n.val) ≠ 1) (hobj : s.busObj x.val = some o) (htx : o.tx = true)
    (hctrl : o.ctrl = n.val) (hpend : s.getB (BUS_OBJ_STAT.PEND x.val) = true) (hheld : s.wireHeld n.val (some x.val) = false) (hdying : o.dying = none)
    (hsingle : o.single = true) : ∃ t, exec (.canTxError n (some x) 2) s = .next t ∧ t.get (BUS_C_STAT.TEC n.val) = min 511 (s.get (BUS_C_STAT.TEC n.val) + 8) ∧
    t.get (BUS_C_STAT.STATE n.val) = (if 127 < s.get (BUS_C_STAT.TEC n.val) + 8 ∨ 127 < s.get (BUS_C_STAT.REC n.val) then 1 else 0) ∧
    (t.get (BUS_C_STAT.STATE n.val) ≠ s.get (BUS_C_STAT.STATE n.val) → s.raised (251 + 6 * n.val) t) ∧
    t.getB (BUS_OBJ_STAT.PEND x.val) = false ∧ t.getB (BUS_OBJ_STAT.FAILED x.val) = true ∧ (o.irq = true → s.raised (250 + 6 * n.val) t) ∧
    s.only [.bus, .rcd, .cyc] ([BUS_OBJ_STAT.PEND x.val, BUS_OBJ_STAT.FAILED x.val, BUS_C_STAT.TEC n.val, BUS_C_STAT.STATE n.val] ++ raiseFlds (250 + 6 * n.val) ++ raiseFlds (251 + 6 * n.val)) t := by
  have hexec : exec (.canTxError n (some x) 2) s = .next ((s.tecUp n.val 2).objError x.val o false) := execCanTxError_obj ⟨hlive, hobj, htx, hctrl, hpend, hheld, hdying⟩ hmode
  rw [objError_single hsingle] at hexec
  obtain ⟨htec, hstate, hraised, honly, hevt⟩ := tecUp_shows (n := n.val) (kind := 2) (by decide) (get_state_of_live hlive)
  generalize s.tecUp n.val 2 = u at hexec htec hstate hraised honly hevt
  have hset := only_setObj x.val o u
  have hevt' := (hevt n.isLt).trans (evtRun_of_only hset (by simp) (by simp))
  have hraised' : u.get (BUS_C_STAT.STATE n.val) ≠ s.get (BUS_C_STAT.STATE n.val) → s.raised (251 + 6 * n.val) (u.setObj x.val o) :=
    fun h => raised_then (hraised h) hset (by simp)
  have hall := only_seq honly hset
  have htec' := (hset.2.1 (BUS_C_STAT.TEC n.val) (by simp)).trans htec
  have hstate' := (hset.2.1 (BUS_C_STAT.STATE n.val) (by simp)).trans hstate
  rw [hstate] at hraised'
  generalize u.setObj x.val o = v at hexec hevt' hraised' hall htec' hstate'
  obtain ⟨hstop, hp, hf, -, hraised2, hevt2⟩ := objStopped_shows (s := v) (x := x.val) hdying
  rw [hctrl] at hstop hraised2 hevt2
  have hctl {g : Fld} (hg : g.addr = BUS_C_STAT n.val) : (v.objStopped x.val o).get g = v.get g := by
    refine hstop.2.1 g (apart_raised ?_ (hg ▸ window_ctlStat _) _)
    simp only [List.mem_cons, List.not_mem_nil, or_false, forall_eq_or_imp, forall_eq]
    exact ⟨.inl (hg ▸ (objStat_ne_ctlStat _ _).symm), .inl (hg ▸ (objStat_ne_ctlStat _ _).symm)⟩
  have hstate2 := (hctl (g := BUS_C_STAT.STATE n.val) rfl).trans hstate'
  refine ⟨_, hexec, (hctl rfl).trans htec', hstate2, fun h => (hevt2 n.isLt).raised_first hevt' (by omega) (hraised' (by rw [← hstate2]; exact h)), hp, hf,
    fun hi => hevt'.raised_second (hevt2 n.isLt) (by omega) (hraised2 hi), only_mono (only_seq hall hstop) (by simp) (by simp +contextual [or_imp])⟩

/-- A third clash in the last second, noted for the controller (R439). -/
def State.clashNoted (x : Nat) (o : CanObj) (s : State) : State := (s.set (BUS_C_CLASH.ID o.ctrl) (idKey (s.objId x))).canAlert o.ctrl 0

/-- The object with a clash now. -/
def State.clashed (s : State) (o : CanObj) : CanObj := { o with clash := (o.clash.filter fun c => decide (s.now < c + 1000000000)) ++ [s.now] }

theorem objError_clash (hsingle : o.single = false) (hno : o.noRetry = false) (hdying : o.dying = none)
    (hthree : 2 ≤ (o.clash.filter fun c => decide (s.now < c + 1000000000)).length) (y : Nat) :
    s.objError y o true = (s.setObj y (s.clashed o)).clashNoted y (s.clashed o) := by
  have heq : s.objError y o true = if o.single || o.wired then
      (if true && decide (3 ≤ (s.clashed o).clash.length) then (s.setObj y (s.clashed o)).clashNoted y (s.clashed o) else s.setObj y (s.clashed o)).objStopped y (s.clashed o)
      else if true && decide (3 ≤ (s.clashed o).clash.length) then (s.setObj y (s.clashed o)).clashNoted y (s.clashed o) else s.setObj y (s.clashed o) := rfl
  have hlen : 3 ≤ (s.clashed o).clash.length := by
    rw [State.clashed, List.length_append, List.length_singleton]
    omega
  have hwired : (o.single || o.wired) = false := by simp [CanObj.wired, hsingle, hno, hdying]
  rw [heq, if_neg (by rw [hwired]; decide), if_pos (by rw [Bool.true_and, decide_eq_true_eq]; exact hlen)]

theorem idKey_lt (id : Nat) : idKey id < 2 ^ 30 := by
  unfold idKey
  split <;> omega

theorem clashNoted_shows (y : Nat) (hctrl : o.ctrl = n.val) (s : State) :
    s.only [.rcd, .cyc] ([BUS_C_CLASH.ID n.val, alertBit n.val 0] ++ raiseFlds (253 + 6 * n.val)) (s.clashNoted y o) ∧
      (s.clashNoted y o).get (BUS_C_CLASH.ID n.val) = idKey (s.objId y) ∧ bitAt ((s.clashNoted y o).get (BUS_C_ALERT.ALERT n.val)) 0 = true ∧
      (bitAt (s.get (BUS_C_ALERT.ALERT n.val)) 0 = false → s.raised (253 + 6 * n.val) (s.clashNoted y o)) ∧ EvtRun s (s.clashNoted y o) := by
  have hwin : windowOf (BUS_C_CLASH.ID n.val).addr ≠ 0xC1 := by simp only [windowOf, BUS_C_CLASH.ID, BUS_C_CLASH]; omega
  have hne : BUS_C_ALERT n.val ≠ BUS_C_CLASH n.val := by simp only [BUS_C_ALERT, BUS_C_CLASH]; omega
  rw [State.clashNoted, hctrl]
  have hset := only_set s (f := BUS_C_CLASH.ID n.val) (idKey (s.objId y)) (Nat.le_of_ble_eq_true rfl)
  have hid : (s.set (BUS_C_CLASH.ID n.val) (idKey (s.objId y))).get (BUS_C_CLASH.ID n.val) = idKey (s.objId y) :=
    (get_set_self _ _ _ (Nat.le_of_ble_eq_true rfl)).trans (Nat.mod_eq_of_lt (idKey_lt _))
  have halert : (s.set (BUS_C_CLASH.ID n.val) (idKey (s.objId y))).get (BUS_C_ALERT.ALERT n.val) = s.get (BUS_C_ALERT.ALERT n.val) :=
    get_congr _ (reg_set_ne _ _ hne)
  generalize s.set (BUS_C_CLASH.ID n.val) (idKey (s.objId y)) = u at hset hid halert
  obtain ⟨honly, hbit, hraised, hevt⟩ := canAlert_shows (b := 0) (by decide) n.val u
  rw [halert] at hraised
  have hkeep : (u.canAlert n.val 0).get (BUS_C_CLASH.ID n.val) = u.get (BUS_C_CLASH.ID n.val) :=
    honly.2.1 _ fun f hf => (List.mem_cons.1 hf).elim (fun h => h ▸ .inl hne.symm) (apart_raise hwin _ f)
  exact ⟨only_mono (only_seq hset honly) (by simp) (by simp), hkeep.trans hid, hbit, fun h => raised_of_only hset (by simp) (by simpa using hwin) (hraised h),
    (evtRun_of_only hset (by simp) (by simpa using hwin)).trans (hevt n.isLt)⟩

theorem thirdClash (hlive : s.canLive n.val = true) (hmode : s.get (BUS_C_CFG.MODE n.val) ≠ 1) (hobj : s.busObj x.val = some o) (htx : o.tx = true)
    (hctrl : o.ctrl = n.val) (hpend : s.getB (BUS_OBJ_STAT.PEND x.val) = true) (hheld : s.wireHeld n.val (some x.val) = false) (hdying : o.dying = none)
    (hsingle : o.single = false) (hno : o.noRetry = false) (hthree : 2 ≤ (o.clash.filter fun c => decide (s.now < c + 1000000000)).length) :
    ∃ t, exec (.canTxError n (some x) 3) s = .next t ∧
    t.get (BUS_C_CLASH.ID n.val) = idKey (s.objId x.val) ∧ bitAt (t.get (BUS_C_ALERT.ALERT n.val)) 0 = true ∧ (bitAt (s.get (BUS_C_ALERT.ALERT n.val)) 0 = false → s.raised (253 + 6 * n.val) t) ∧
    t.getB (BUS_OBJ_STAT.PEND x.val) = true ∧ t.busObj x.val = some { o with clash := (o.clash.filter fun c => decide (s.now < c + 1000000000)) ++ [s.now] } ∧
    t.get (BUS_C_STAT.TEC n.val) = min 511 (s.get (BUS_C_STAT.TEC n.val) + 8) ∧ s.only [.bus, .rcd, .cyc] ([BUS_C_STAT.TEC n.val, BUS_C_STAT.STATE n.val, BUS_C_CLASH.ID n.val, ⟨BUS_C_ALERT n.val, 0, 1⟩] ++ raiseFlds (251 + 6 * n.val) ++ raiseFlds (253 + 6 * n.val)) t := by
  have hexec : exec (.canTxError n (some x) 3) s = .next ((s.tecUp n.val 3).objError x.val o true) := execCanTxError_obj ⟨hlive, hobj, htx, hctrl, hpend, hheld, hdying⟩ hmode
  obtain ⟨htec, -, -, honly, hevt⟩ := tecUp_shows (n := n.val) (kind := 3) (by decide) (get_state_of_live hlive)
  have hbeside {a : Nat} (ha : a ≠ BUS_C_STAT n.val) (hwin : windowOf a ≠ 0xC1) : (s.tecUp n.val 3).reg a = s.reg a := by
    refine reg_of_addrs honly fun f hf => ?_
    rcases List.mem_append.1 hf with hf | hf
    · rcases List.mem_cons.1 hf with rfl | hf
      · exact ha
      · rw [List.mem_singleton.1 hf]
        exact ha
    · exact ne_raiseFlds hwin f hf
  have hid : (s.tecUp n.val 3).objId x.val = s.objId x.val := congrArg BitVec.toNat (hbeside (objRec_ne_ctlStat _ _ _) (window_objRec _ _))
  have hpend' : (s.tecUp n.val 3).getB (BUS_OBJ_STAT.PEND x.val) = true := (getB_congr _ (hbeside (objStat_ne_ctlStat _ _) (window_objStat _))).trans hpend
  have halert : (s.tecUp n.val 3).get (BUS_C_ALERT.ALERT n.val) = s.get (BUS_C_ALERT.ALERT n.val) := get_congr _ (hbeside (ctlStat_ne_alert _ _).symm (window_ctlAlert _))
  have hnow : (s.tecUp n.val 3).now = s.now := now_of_only honly (by simp)
  generalize s.tecUp n.val 3 = u at hexec htec honly hevt hid hpend' halert hnow
  rw [objError_clash hsingle hno hdying (by rw [hnow]; exact hthree)] at hexec
  have hset := only_seq honly (only_setObj x.val (u.clashed o) u)
  have hobj' := busObj_setObj x.val (u.clashed o) u
  have hevt' := (hevt n.isLt).trans (evtRun_of_only (only_setObj x.val (u.clashed o) u) (by simp) (by simp))
  have hclash : u.clashed o = { o with clash := (o.clash.filter fun c => decide (s.now < c + 1000000000)) ++ [s.now] } := by rw [State.clashed, hnow]
  have hkept (f : Fld) : (u.setObj x.val (u.clashed o)).get f = u.get f := (only_setObj x.val (u.clashed o) u).2.1 f (by simp)
  have htec' := (hkept (BUS_C_STAT.TEC n.val)).trans htec
  have hid' : (u.setObj x.val (u.clashed o)).objId x.val = s.objId x.val :=
    (congrArg BitVec.toNat (reg_of_addrs (only_setObj x.val (u.clashed o) u) (by simp))).trans hid
  have hpend'' : (u.setObj x.val (u.clashed o)).getB (BUS_OBJ_STAT.PEND x.val) = true := (getB_of_get (hkept _)).trans hpend'
  have halert' := (hkept (BUS_C_ALERT.ALERT n.val)).trans halert
  have hctrl' : (u.clashed o).ctrl = n.val := hctrl
  replace hobj' := hobj'.trans (congrArg some hclash)
  generalize u.clashed o = o' at hexec hset hobj' hevt' htec' hid' hpend'' halert' hctrl'
  generalize u.setObj x.val o' = v at hexec hset hobj' hevt' htec' hid' hpend'' halert'
  obtain ⟨hnote, hcid, hbit, hraised, hevt2⟩ := clashNoted_shows x.val hctrl' v
  have hreg {a : Nat} (ha : a ≠ BUS_C_CLASH n.val) (ha' : a ≠ BUS_C_ALERT n.val) (hwin : windowOf a ≠ 0xC1) : (v.clashNoted x.val o').reg a = v.reg a := by
    refine reg_of_addrs hnote fun f hf => ?_
    rcases List.mem_append.1 hf with hf | hf
    · rcases List.mem_cons.1 hf with rfl | hf
      · exact ha
      · rw [List.mem_singleton.1 hf]
        exact ha'
    · exact ne_raiseFlds hwin f hf
  refine ⟨_, hexec, by rw [hcid, hid'], hbit, fun h => hevt'.raised_second hevt2 (by omega) (hraised (by rw [halert']; exact h)),
    (getB_congr _ (hreg ?_ (objStat_ne_alert _ _) (window_objStat _))).trans hpend'', (busObj_of_bus (hnote.1 .bus (by simp)) _).trans hobj',
    (get_congr _ (hreg ?_ (ctlStat_ne_alert _ _) (window_ctlStat _))).trans htec', only_mono (only_seq hset hnote) (by simp) (by simp +contextual [or_imp, alertBit])⟩
  · simp only [BUS_OBJ_STAT.PEND, BUS_OBJ_STAT, BUS_C_CLASH]; omega
  · simp only [BUS_C_STAT.TEC, BUS_C_STAT, BUS_C_CLASH]; omega

end Sends

end Sys2Proof.Machine
end

section
/-! PROOFS. BUS: its disabling (R127, R445), and the statement of chapter 20 on controllers and sends. -/

namespace Sys2Proof.Machine

section Disable
variable {s u : State} {x q a : Nat}

/-! ### Completions of BUS, on any ring -/

theorem reg_completionStored_ne {b r reason h : Nat} (y : Taken) (ha : a ≠ (CRING_PI b r).addr) : (s.completionStored b r y reason h).reg a = s.reg a :=
  reg_set_ne _ _ ha

theorem reg_writeCompletion_bus {r reason h : Nat} (y : Taken) (ha : a ≠ (CRING_PI 0x0E r).addr) (hwin : windowOf a ≠ 0xC1) :
    (s.writeCompletion 0x0E r y reason h).reg a = s.reg a := by
  by_cases hev : y.irq = true ∨ reason % 256 ≠ 0
  · rw [writeCompletion_event y reason h hev]
    exact (reg_raise_ne (n := 248 + 6 * r) _ fun hm => hwin (windowOf_raiseRegs hm)).trans (reg_completionStored_ne y ha)
  · rw [writeCompletion_quiet y reason h (by simpa using hev)]
    exact reg_completionStored_ne y ha

theorem reg_flushTaken_bus {r : Nat} (ha : a ≠ (CRING_PI 0x0E r).addr) (hwin : windowOf a ≠ 0xC1) (l : List Taken) (s : State) :
    (flushTaken 0x0E r l s).2.reg a = s.reg a := by
  induction l generalizing s with
  | nil => rfl
  | cons y l ih =>
    unfold flushTaken
    split
    · rfl
    · rw [ih, reg_writeCompletion_bus y ha hwin]

/-- Registers of BUS outside its rings, as a command ends. -/
theorem reg_completeSelf_bus {r id code : Nat} (ha : a ≠ (CRING_PI 0x0E r).addr) (hwin : windowOf a ≠ 0xC1) :
    (s.completeSelf 0x0E r id code).reg a = s.reg a := by
  unfold State.completeSelf State.completeId
  exact reg_flushTaken_bus ha hwin _ s

/-- The ring registers of BUS lie between its control and its queues. -/
theorem cringPi_bus (r : Nat) : 0xCE000100 ≤ (CRING_PI 0x0E r).addr ∧ (CRING_PI 0x0E r).addr < 0xCE000600 := by
  have hbase : blkBase 0x0E = 0xCE000000 := rfl
  simp only [CRING_PI, ringG, hbase]
  split <;> omega

/-! ### The stages of the disabling -/

/-- A register that no object of BUS, no queue and no ring holds. -/
theorem reg_objGone (ha : a < 0xCE100000) (ha' : a ≠ BUS_STATUS) (y : Nat) (s : State) : (s.objGone y).reg a = s.reg a := by
  have hwipe : (s.wipeRegs (BUS_OBJ_STAT y) 0x80).reg a = s.reg a := by
    have := objStat_in y
    rw [reg_wipeRegs, if_neg (by omega)]
  exact (reg_set_ne _ _ ha').trans ((reg_set_ne _ _ ha').trans ((reg_set_ne _ _ ha').trans hwipe))

theorem reg_objDies (ha : a < 0xCE000100 ∨ 0xCE000600 ≤ a) (hin : 0xCE000000 ≤ a ∧ a < 0xCE100000) (ha' : a ≠ BUS_STATUS) (y : Nat) (o : CanObj) (s : State) :
    (s.objDies y o).reg a = s.reg a := by
  unfold State.objDies
  split
  · rename_i r id hdying
    have := cringPi_bus r
    exact (reg_completeSelf_bus (by omega) (by simp only [windowOf]; omega)).trans (reg_objGone hin.2 ha' y s)
  · rfl

/-- The objects that are being destroyed end. -/
def State.objsEnded (s : State) : State := s.bus.objs.foldl (fun u e => u.objDies e.1 e.2) s

/-- The other objects go. -/
def State.objsGone (s : State) : State := (s.bus.objs.map (·.1)).foldl (fun u x => u.objGone x) s

/-- The queues go. -/
def State.queuesGone (s : State) : State := (s.bus.queues.map (·.1)).foldl (fun u q => u.wipeRegs (BUS_Q_STAT q) 0x20) s

/-- The controllers go back to integration. -/
def State.ctlsOff (s : State) : State := (List.range 8).foldl (fun u n => u.set (BUS_C_STAT.STATE n) 3) s

def State.busUnset (s : State) : State := s.setB BUS_CTRL.ENABLE false

theorem busDisable_eq (s : State) : s.busDisable = ((s.busUnset.objsEnded.objsGone.queuesGone.ctlsOff).withBus {}).busShow := rfl

/-! What the first stages leave alone. -/

theorem reg_objsEnded (ha : a < 0xCE000100 ∨ 0xCE000600 ≤ a) (hin : 0xCE000000 ≤ a ∧ a < 0xCE100000) (ha' : a ≠ BUS_STATUS) (s : State) :
    s.objsEnded.reg a = s.reg a := reg_foldl fun u e => reg_objDies ha hin ha' e.1 e.2 u

theorem reg_objsGone (hin : a < 0xCE100000) (ha' : a ≠ BUS_STATUS) (s : State) : s.objsGone.reg a = s.reg a :=
  reg_foldl fun u x => reg_objGone hin ha' x u

theorem qStat_in (q : Nat) : 0xCE000800 ≤ BUS_Q_STAT q ∧ BUS_Q_STAT q + 0x20 ≤ 0xCE000900 := by simp only [BUS_Q_STAT]; omega

theorem reg_queuesGone (ha : a < 0xCE000800 ∨ 0xCE000900 ≤ a) (s : State) : s.queuesGone.reg a = s.reg a := by
  refine reg_foldl fun u q => ?_
  have := qStat_in q
  rw [reg_wipeRegs, if_neg (by omega)]

theorem reg_ctlsOff (ha : ∀ n, a ≠ BUS_C_STAT n) (s : State) : s.ctlsOff.reg a = s.reg a := reg_foldl fun u n => reg_set_ne u _ (ha n)

theorem reg_busShow (ha : a ≠ BUS_STATUS) (s : State) : s.busShow.reg a = s.reg a :=
  (reg_set_ne _ _ ha).trans ((reg_set_ne _ _ ha).trans (reg_set_ne _ _ ha))

/-- What BUS_STATUS shows of a state without objects, sessions and queues. -/
theorem busShow_counts (s : State) : (s.withBus {}).busShow.get BUS_STATUS.OBJECTS = 0 ∧ (s.withBus {}).busShow.get BUS_STATUS.SESSIONS = 0 ∧
    (s.withBus {}).busShow.get BUS_STATUS.QUEUES = 0 := by
  refine ⟨?_, ?_, get_set_self _ _ _ (Nat.le_of_ble_eq_true rfl)⟩
  · refine (get_set_apart _ _ _ _ (.inr (.inr (Nat.le_of_ble_eq_true rfl))) (Nat.le_of_ble_eq_true rfl)).trans ?_
    exact (get_set_apart _ _ _ _ (.inr (.inr (Nat.le_of_ble_eq_true rfl))) (Nat.le_of_ble_eq_true rfl)).trans (get_set_self _ _ _ (Nat.le_of_ble_eq_true rfl))
  · exact (get_set_apart _ _ _ _ (.inr (.inr (Nat.le_of_ble_eq_true rfl))) (Nat.le_of_ble_eq_true rfl)).trans (get_set_self _ _ _ (Nat.le_of_ble_eq_true rfl))

theorem state_ctlsOff {n : Nat} (hn : n < 8) (s : State) : s.ctlsOff.get (BUS_C_STAT.STATE n) = 3 := by
  refine foldl_of_mem (P := fun u => u.get (BUS_C_STAT.STATE n) = 3) (fun u => get_set_self _ _ _ (Nat.le_of_ble_eq_true rfl)) (fun u m hu => ?_) (List.mem_range.2 hn)
  by_cases h : BUS_C_STAT m = BUS_C_STAT n
  · have hf : BUS_C_STAT.STATE m = BUS_C_STAT.STATE n := congrArg (fun a => (⟨a, 24, 2⟩ : Fld)) h
    rw [hf]
    exact get_set_self _ _ _ (Nat.le_of_ble_eq_true rfl)
  · exact (get_congr _ (reg_set_ne _ _ (Ne.symm h))).trans hu

/-! Objects and queues. -/

theorem key_of_tget {α : Type} {t : Tbl α} {k : Nat} {v : α} (h : tget t k = some v) : k ∈ t.map (·.1) := by
  induction t with
  | nil => simp [tget] at h
  | cons e t ih =>
    rw [List.map_cons, List.mem_cons]
    by_cases hk : k = e.1
    · exact .inl hk
    · refine .inr (ih ?_)
      simpa [tget, hk] using h

theorem resetOf_objStat (x : Nat) : resetOf (BUS_OBJ_STAT x) = 0#32 := by
  have hl : 0xCE100000 ≤ BUS_OBJ_STAT x := (objStat_in x).1
  have hh : BUS_OBJ_STAT x < 0xCE140000 := by simp only [BUS_OBJ_STAT]; omega
  cases hd : findDesc (BUS_OBJ_STAT x) with
  | none => simp only [resetOf, hd]
  | some d =>
    have hw : windowOf (BUS_OBJ_STAT x) = windowOf 0xCE100000 := by simp only [windowOf]; omega
    have hzero : decide (d.reset = 0) = true := findDesc_of_bounds (P := fun d => decide (d.reset = 0)) hl hh hw (by decide) hd
    simp only [resetOf, hd, of_decide_eq_true hzero]

theorem resetOf_qStat (q : Nat) : resetOf (BUS_Q_STAT q) = 0#32 := by
  have hl := (qStat_in q).1
  have hh : BUS_Q_STAT q < 0xCE000900 := by have := qStat_in q; omega
  cases hd : findDesc (BUS_Q_STAT q) with
  | none => simp only [resetOf, hd]
  | some d =>
    have hw : windowOf (BUS_Q_STAT q) = windowOf 0xCE000800 := by simp only [windowOf]; omega
    have hzero : decide (d.reset = 0) = true := findDesc_of_bounds (P := fun d => decide (d.reset = 0)) hl hh hw (by decide) hd
    simp only [resetOf, hd, of_decide_eq_true hzero]

/-- The register of object `x` reads zero: it is not live. -/
def State.objBlank (x : Nat) (u : State) : Prop := u.reg (BUS_OBJ_STAT x) = 0#32

theorem objBlank_objGone_self (x : Nat) (s : State) : (s.objGone x).objBlank x := by
  have hwipe : (s.wipeRegs (BUS_OBJ_STAT x) 0x80).reg (BUS_OBJ_STAT x) = 0#32 := by
    rw [reg_wipeRegs, if_pos (by omega), resetOf_objStat]
  have hne : BUS_OBJ_STAT x ≠ BUS_STATUS := by simp only [BUS_OBJ_STAT, BUS_STATUS]; omega
  exact (reg_busShow hne _).trans hwipe

theorem objBlank_objGone (x y : Nat) (h : s.objBlank x) : (s.objGone y).objBlank x := by
  have hwipe : (s.wipeRegs (BUS_OBJ_STAT y) 0x80).reg (BUS_OBJ_STAT x) = 0#32 := by
    rw [reg_wipeRegs, resetOf_objStat]
    split
    · rfl
    · exact h
  have hne : BUS_OBJ_STAT x ≠ BUS_STATUS := by simp only [BUS_OBJ_STAT, BUS_STATUS]; omega
  exact (reg_busShow hne _).trans hwipe

theorem bus_objGone (y : Nat) (s : State) : (s.objGone y).bus = { s.bus with objs := tdel s.bus.objs y } := rfl

theorem reg_completeSelf_obj {r id code : Nat} (x : Nat) : (s.completeSelf 0x0E r id code).reg (BUS_OBJ_STAT x) = s.reg (BUS_OBJ_STAT x) := by
  have := cringPi_bus r
  have := objStat_in x
  exact reg_completeSelf_bus (by omega) (window_objStat x)

theorem objBlank_objDies (x y : Nat) (o : CanObj) (h : s.objBlank x) : (s.objDies y o).objBlank x := by
  unfold State.objDies
  split
  · exact (reg_completeSelf_obj x).trans (objBlank_objGone x y h)
  · exact h

/-- Object `x` is there as before, or its register reads zero. -/
def State.objKept (x : Nat) (s u : State) : Prop := u.busObj x = s.busObj x ∨ u.objBlank x

theorem objKept_objDies (y : Nat) (o : CanObj) (h : s.objKept x u) : s.objKept x (u.objDies y o) := by
  rcases h with h | h
  · cases hd : o.dying with
    | none => exact .inl (by rw [objDies_none y hd]; exact h)
    | some d =>
      have heq : u.objDies y o = (u.objGone y).completeSelf 0x0E d.1 d.2 0x00 := by rw [State.objDies, hd]
      rw [heq]
      by_cases hxy : x = y
      · exact .inr ((reg_completeSelf_obj x).trans (hxy ▸ objBlank_objGone_self x u))
      · refine .inl ?_
        rw [busObj_of_bus (completeSelf_bus ..), State.busObj, bus_objGone, tget_tdel, if_neg hxy]
        exact h
  · exact .inr (objBlank_objDies x y o h)

theorem objKept_objsEnded (x : Nat) (s : State) : s.objKept x s.objsEnded :=
  foldl_keeps (P := fun u => s.objKept x u) (fun _ e _ h => objKept_objDies e.1 e.2 h) (.inl rfl)

/-- An object's register once all objects have gone. -/
theorem objBlank_objsGone (h : (s.busObj x).isSome = true ∨ s.objBlank x) : s.objsGone.objBlank x := by
  rcases h with h | h
  · obtain ⟨o, ho⟩ := Option.isSome_iff_exists.1 h
    exact foldl_of_mem (P := fun u : State => u.objBlank x) (fun u => objBlank_objGone_self x u) (fun u y hu => objBlank_objGone x y hu)
      (key_of_tget ho)
  · exact foldl_keeps (P := fun u : State => u.objBlank x) (fun u y _ hu => objBlank_objGone x y hu) h

theorem bus_objsEnded (s : State) : s.objsEnded.bus.queues = s.bus.queues := by
  refine foldl_same (g := fun u : State => u.bus.queues) fun u e => ?_
  unfold State.objDies
  split
  · rw [completeSelf_bus]
    exact (congrArg BusState.queues (bus_objGone e.1 u)).trans rfl
  · rfl

theorem bus_objsGone (s : State) : s.objsGone.bus.queues = s.bus.queues := 
  foldl_same (g := fun u : State => u.bus.queues) fun u x => (congrArg BusState.queues (bus_objGone x u)).trans rfl

theorem qBlank_queuesGone (h : (s.busQueue q).isSome = true) : s.queuesGone.reg (BUS_Q_STAT q) = 0#32 := by
  obtain ⟨v, hv⟩ := Option.isSome_iff_exists.1 h
  refine foldl_of_mem (P := fun u : State => u.reg (BUS_Q_STAT q) = 0#32) (fun u => ?_) (fun u p hu => ?_) (key_of_tget hv)
  · rw [reg_wipeRegs, if_pos (by omega), resetOf_qStat]
  · rw [reg_wipeRegs, resetOf_qStat, hu, ite_self]

theorem execBusDisable_eq (hon : s.getB BUS_CTRL.ENABLE = true) : exec .busDisable s = .next s.busDisable := congrArg Host.Outcome.next (if_pos hon)

theorem reg_withBus (x : BusState) (s : State) (a : Nat) : (s.withBus x).reg a = s.reg a := rfl

theorem bus_busShow (s : State) : s.busShow.bus = s.bus := (set_bus ..).trans ((set_bus ..).trans (set_bus ..))

theorem bus_busDisable (s : State) : s.busDisable.bus = {} := by
  rw [busDisable_eq]
  generalize s.busUnset.objsEnded.objsGone.queuesGone.ctlsOff = u
  exact bus_busShow (u.withBus {})

theorem counts_busDisable (s : State) : s.busDisable.get BUS_STATUS.OBJECTS = 0 ∧ s.busDisable.get BUS_STATUS.SESSIONS = 0 ∧ s.busDisable.get BUS_STATUS.QUEUES = 0 := by
  rw [busDisable_eq]
  exact busShow_counts _

theorem state_busDisable {n : Nat} (hn : n < 8) (s : State) : s.busDisable.get (BUS_C_STAT.STATE n) = 3 := by
  have hne : BUS_C_STAT n ≠ BUS_STATUS := by simp only [BUS_C_STAT, BUS_STATUS]; omega
  rw [busDisable_eq]
  generalize s.busUnset.objsEnded.objsGone.queuesGone = u
  have hoff := state_ctlsOff hn u
  generalize u.ctlsOff = v at hoff
  exact (get_congr _ ((reg_busShow hne (v.withBus {})).trans (reg_withBus ..))).trans hoff

/-- Behind the queues' end a register of an object or a queue stays. -/
theorem reg_busDisable_late {a : Nat} (hc : ∀ n, a ≠ BUS_C_STAT n) (hs : a ≠ BUS_STATUS) : s.busDisable.reg a = s.busUnset.objsEnded.objsGone.queuesGone.reg a := by
  rw [busDisable_eq]
  generalize s.busUnset.objsEnded.objsGone.queuesGone = u
  have hoff := reg_ctlsOff hc u
  generalize u.ctlsOff = v at hoff
  exact ((reg_busShow hs (v.withBus {})).trans (reg_withBus ..)).trans hoff

theorem busDisabled (hon : s.getB BUS_CTRL.ENABLE = true) : ∃ t, exec .busDisable s = .next t ∧ t.getB BUS_CTRL.ENABLE = false ∧ t.bus = {} ∧ t.get BUS_STATUS.OBJECTS = 0 ∧
    t.get BUS_STATUS.SESSIONS = 0 ∧ t.get BUS_STATUS.QUEUES = 0 ∧
    (∀ n, n < 8 → t.get (BUS_C_STAT.STATE n) = 3) ∧ (∀ x, x < 2048 → (s.busObj x).isSome = true → t.getB (BUS_OBJ_STAT.LIVE x) = false) ∧ (∀ q, q < 8 → (s.busQueue q).isSome = true → t.getB (BUS_Q_STAT.LIVE q) = false) ∧
    s.within [.latch, .dram, .cyc, .rings, .bus, .rcd] (some [0xC1, 0xCE]) t := by
  have hexec := execBusDisable_eq hon
  obtain ⟨hobjs, hsess, hqueues⟩ := counts_busDisable s
  refine ⟨_, hexec, ?_, bus_busDisable s, hobjs, hsess, hqueues, fun n hn => ?_, fun x _ hx => ?_, fun q _ hq => ?_, within_of (execBusDisable_mut s _ hexec)⟩
  · have hreg : s.busDisable.reg BUS_CTRL = s.busUnset.reg BUS_CTRL := by
      refine (reg_busDisable_late (fun n => ?_) (by decide)).trans ((reg_queuesGone (.inl (by decide)) _).trans
        ((reg_objsGone (by decide) (by decide) _).trans (reg_objsEnded (.inl (by decide)) (by decide) (by decide) _)))
      simp only [BUS_CTRL, BUS_C_STAT]
      omega
    exact (getB_congr BUS_CTRL.ENABLE hreg).trans (getB_setB_self _ _ _ (Nat.le_of_ble_eq_true rfl) rfl)
  · exact state_busDisable hn s
  · have hblank : s.busUnset.objsEnded.objsGone.objBlank x := by
      refine objBlank_objsGone ((objKept_objsEnded x s.busUnset).imp (fun h => ?_) id)
      rw [h, State.busUnset, busObj_of_bus (setB_bus ..)]
      exact hx
    have hin := objStat_in x
    refine getB_of_reg_zero ((reg_busDisable_late (fun n => objStat_ne_ctlStat x n) ?_).trans ((reg_queuesGone (.inr ?_) _).trans hblank))
    · show BUS_OBJ_STAT x ≠ BUS_STATUS
      simp only [BUS_STATUS]
      omega
    · show _ ≤ BUS_OBJ_STAT x
      omega
  · have hin := qStat_in q
    have hq' : (s.busUnset.objsEnded.objsGone.busQueue q).isSome = true := by
      rw [State.busQueue, bus_objsGone, bus_objsEnded, State.busUnset, setB_bus]
      exact hq
    refine getB_of_reg_zero ((reg_busDisable_late (fun n => ?_) ?_).trans (qBlank_queuesGone hq'))
    · show BUS_Q_STAT q ≠ BUS_C_STAT n
      simp only [BUS_C_STAT]
      omega
    · show BUS_Q_STAT q ≠ BUS_STATUS
      simp only [BUS_STATUS]
      omega

end Disable

/-- Settles O49: the layer says once what an error count, an alert, a state and a result write; each clause is one of them behind the guards it names. -/
theorem canControllersCountErrorsSendAndRecover : Obligations.CanControllersCountErrorsSendAndRecover := by
  unfold Obligations.CanControllersCountErrorsSendAndRecover
  exact ⟨fun n kind _ _ hlive hkind hr => receiveErrorCounted n kind hlive hkind hr,
    fun n _ hon hst => integrated n hon hst,
    fun n _ hon htec hst hheld => wentBusOff n hon htec hst hheld,
    fun n _ _ _ hon htec hst hobjs hctrl hno hdying _ => wentBusOffWired n hon htec hst hobjs hctrl hno hdying,
    fun n _ hon hst hrec => recovered n hon hst hrec,
    fun _ n _ _ hopen hbit hon hst => recoverAsked n hopen hbit hon hst,
    fun n _ hon hst hheld => txDominant n hon hst hheld,
    fun n _ hon => busDominant n hon,
    fun _ _ _ _ _ hopen hobj htx h0 h1 hpend hfd hmode => sendPending hopen hobj htx h0 h1 hpend hfd hmode,
    fun _ _ _ _ _ hopen hobj htx h0 h1 hpend hfd hmode => sendListening hopen hobj htx h0 h1 hpend hfd hmode,
    fun _ _ _ _ _ hopen hobj htx h0 h1 hbad => sendIgnored hopen hobj htx h0 h1 hbad,
    fun _ _ _ _ _ hopen hobj htx _ h0 h1 hpend => abortAsked hopen hobj htx h0 h1 hpend,
    fun _ _ _ _ _ hlive hmode hobj htx hctrl hpend hfirst hheld hdying hst htec hrec =>
      sendAcknowledged hlive hmode hobj htx hctrl hpend hfirst hheld hdying hst htec hrec,
    fun _ _ _ _ _ hlive hmode hq hsess hheld hst htec hrec => engineAcknowledged hlive hmode hq hsess hheld hst htec hrec,
    fun _ _ _ _ hlive hmode hobj htx hctrl hpend hheld hdying hsingle => singleFailed hlive hmode hobj htx hctrl hpend hheld hdying hsingle,
    fun _ _ _ _ hlive hmode hobj htx hctrl hpend hheld hdying hsingle hno hthree => thirdClash hlive hmode hobj htx hctrl hpend hheld hdying hsingle hno hthree,
    fun _ hon => busDisabled hon⟩

end Sys2Proof.Machine
end

section
/-! PROOFS. Runs of operations with their raises, and determinism violations (R24, R26, R129): a layer for the statements on late and dropped inputs. -/

namespace Sys2Proof.Machine

/-! ### Runs -/

/-- Between `s` and `t` at most the parts `ps` and the fields `fs` changed, and each source stayed or was raised at the LTC of `s`. -/
structure Ran (ps : List Comp) (fs : List Fld) (s t : State) : Prop where
  only : s.only ps fs t
  evt : EvtRun s t

section Runs
variable {s t u : State} {ps qs : List Comp} {fs gs : List Fld} {n : Nat}

theorem Ran.refl (ps : List Comp) (fs : List Fld) (s : State) : Ran ps fs s s := ⟨only_refl .., .refl s⟩

theorem Ran.seq (h : Ran ps fs s t) (h' : Ran qs gs t u) : Ran (ps ++ qs) (fs ++ gs) s u := ⟨only_seq h.only h'.only, h.evt.trans h'.evt⟩

theorem Ran.mono (h : Ran ps fs s t) (hp : ∀ p ∈ ps, p ∈ qs) (hf : ∀ f ∈ fs, f ∈ gs) : Ran qs gs s t := ⟨only_mono h.only hp hf, h.evt⟩

theorem ran_of_only (h : s.only ps fs t) (hl : .ltc ∉ ps) (hw : ∀ f ∈ fs, windowOf f.addr ≠ 0xC1) : Ran ps fs s t := ⟨h, evtRun_of_only h hl hw⟩

/-- A raise of any source, listed or not. -/
theorem evtRun_raise_any (s : State) (m : Nat) : EvtRun s (s.raise m) := by
  by_cases hm : m < 384
  · exact evtRun_raise s hm
  · have hnever : s.neverRaised m = true := by
      have hlisted : (listedSources.any fun r => decide (r.1 ≤ m) && decide (m ≤ r.2)) = false := List.any_eq_false.2 fun r hr => by
        have hall : ∀ r ∈ listedSources, r.2 ≤ 383 := by decide
        have := hall r hr
        simp only [Bool.and_eq_true, decide_eq_true_eq, not_and]
        omega
      simp [State.neverRaised, hlisted]
    rw [raise_lost hnever]
    exact .refl s

theorem ran_raise (s : State) (m : Nat) : Ran [.rcd, .cyc] (raiseFlds m) s (s.raise m) := ⟨only_raise s m, evtRun_raise_any s m⟩

theorem ran_changeBit {f : Fld} (hf : IsFlag f) (m : Nat) (v : Bool) (s : State) : Ran [.rcd, .cyc] (f :: raiseFlds m) s (s.changeBit m f v) := by
  refine ⟨only_changeBit hf m v s, ?_⟩
  by_cases h : s.getB f = v
  · rw [changeBit_same h]
    exact .refl s
  · rw [changeBit_changed h]
    exact (evtRun_of_only (only_setB_flag hf s v) (by simp) (by simp [hf.window])).trans (evtRun_raise_any ..)

theorem ran_set (s : State) {f : Fld} (v : Nat) (hf : f.lo + f.width ≤ 32) (hw : windowOf f.addr ≠ 0xC1) : Ran [] [f] s (s.set f v) :=
  ran_of_only (only_set s v hf) (by simp) (by simpa using hw)

end Runs

/-! ### Violations (R24, R26) -/

section Det
variable {s : State} {f : Fld}

/-- A violation noted in its REF cycle. -/
def State.violNoted (f : Fld) (s : State) : State := { s with cyc := { s.cycle with detNew := putBits s.cycle.detNew f.lo f.width 1 } }

theorem only_violNoted (f : Fld) (s : State) : s.only [.cyc] [] (s.violNoted f) :=
  ⟨fun p hp => by cases p <;> simp [State.same, State.violNoted] at hp ⊢, fun _ _ => rfl, rfl, rfl⟩

theorem detViol_first (h : s.reg SYS_DET_STATUS = 0#32) : s.detViol f = ((s.violNoted f).setB f true).detLatch := by
  have hfirst : decide (s.reg SYS_DET_STATUS = 0#32) = true := decide_eq_true h
  unfold State.detViol
  rw [hfirst]
  rfl

theorem detViol_again (h : s.reg SYS_DET_STATUS ≠ 0#32) : s.detViol f = (s.violNoted f).setB f true := by
  have hfirst : decide (s.reg SYS_DET_STATUS = 0#32) = false := decide_eq_false h
  unfold State.detViol
  rw [hfirst]
  rfl

/-- The fields that a violation can write beside its own. -/
def firstFlds : List Fld := [wordAt SYS_DET_FIRST_LO, wordAt SYS_DET_FIRST_HI] ++ raiseFlds 4

/-- One of the bits of SYS_DET_STATUS. -/
structure IsViol (f : Fld) : Prop where
  addr : f.addr = SYS_DET_STATUS
  width : f.width = 1
  top : f.lo + f.width ≤ 32

theorem IsViol.window (h : IsViol f) : windowOf f.addr ≠ 0xC1 := by rw [h.addr]; decide

theorem IsViol.apart_first (h : IsViol f) : ∀ g ∈ [wordAt SYS_DET_FIRST_LO, wordAt SYS_DET_FIRST_HI], f.apart g := by
  simp only [List.mem_cons, List.not_mem_nil, or_false, forall_eq_or_imp, forall_eq]
  exact ⟨.inl (h.addr ▸ (by decide : SYS_DET_STATUS ≠ SYS_DET_FIRST_LO)), .inl (h.addr ▸ (by decide : SYS_DET_STATUS ≠ SYS_DET_FIRST_HI))⟩

theorem ran_violSet (hf : IsViol f) (s : State) : Ran [.cyc] [f] s ((s.violNoted f).setB f true) :=
  ran_of_only (only_mono (only_seq (only_violNoted f s) (only_set (s.violNoted f) (f := f) (b2n true) hf.top)) (by simp) (by simp)) (by simp)
    (by simpa using hf.window)

/-- The latch of the first violation. -/
def State.firstLatched (s : State) : State := s.set64 SYS_DET_FIRST_LO SYS_DET_FIRST_HI s.now

theorem detLatch_eq (s : State) : s.detLatch = s.firstLatched.raise 4 := rfl

theorem firstLatched_shows (s : State) : Ran [] [wordAt SYS_DET_FIRST_LO, wordAt SYS_DET_FIRST_HI] s s.firstLatched ∧
    s.firstLatched.get64 SYS_DET_FIRST_LO SYS_DET_FIRST_HI = s.now := by
  have honly : s.only [] [wordAt SYS_DET_FIRST_LO, wordAt SYS_DET_FIRST_HI] s.firstLatched :=
    only_then_setReg (only_then_setReg (only_refl s _ _) _ (by simp)) _ (by simp)
  exact ⟨ran_of_only honly (by simp) (windows_all rfl), (get64_set64_self _ _ _ _ (by decide)).trans (Nat.mod_mod _ _)⟩

/-- What a violation leaves. -/
theorem detViol_shows (hf : IsViol f) (s : State) : Ran [.rcd, .cyc] (f :: firstFlds) s (s.detViol f) ∧ (s.detViol f).getB f = true := by
  have hset := ran_violSet hf s
  have hbit : ((s.violNoted f).setB f true).getB f = true := getB_setB_self _ _ _ hf.top hf.width
  by_cases h : s.reg SYS_DET_STATUS = 0#32
  · rw [detViol_first h, detLatch_eq]
    generalize (s.violNoted f).setB f true = u at hset hbit
    obtain ⟨hfirst, -⟩ := firstLatched_shows u
    have hlate := hfirst.seq (ran_raise u.firstLatched 4)
    exact ⟨(hset.seq hlate).mono (by simp) (by simp [firstFlds]), (getB_of_only hlate.only (apart_raised hf.apart_first hf.window 4)).trans hbit⟩
  · rw [detViol_again h]
    exact ⟨hset.mono (by simp) (by simp), hbit⟩

/-- What the first violation leaves. -/
theorem detViol_firstShows (hf : IsViol f) (h : s.reg SYS_DET_STATUS = 0#32) :
    (s.detViol f).get64 SYS_DET_FIRST_LO SYS_DET_FIRST_HI = s.now ∧ s.raised 4 (s.detViol f) := by
  have hset := ran_violSet hf s
  have hnow := now_of_only hset.only (by simp)
  rw [detViol_first h, detLatch_eq]
  generalize (s.violNoted f).setB f true = u at hset hnow
  obtain ⟨hfirst, hstamp⟩ := firstLatched_shows u
  refine ⟨?_, (hset.evt.trans hfirst.evt).raised_raise (by decide)⟩
  rw [get64_congr _ _ (reg_raise_ne _ (by decide)) (reg_raise_ne _ (by decide)), hstamp, hnow]

end Det

end Sys2Proof.Machine
end

section
/-! PROOFS. BUS: what a received frame writes on its way to its object or queue (R434 to R437): a layer for the statement of chapter 20 on frames. -/

namespace Sys2Proof.Machine

/-! ### Frames (R427, Table 20-1) -/

section Frames
variable {f : CanFrame}

theorem bitAt_tidy (h : f.id < 2 ^ 31) : bitAt f.tidy.id 30 = bitAt f.id 30 := by
  unfold CanFrame.tidy
  by_cases h29 : bitAt f.id 29 = true
  · simp only [if_pos h29, Nat.mod_eq_of_lt h]
  · simp only [if_neg h29]
    have hlt : f.id / 2 ^ 30 < 2 := by omega
    have hone : f.id / 2 ^ 30 % 2 = f.id / 2 ^ 30 := Nat.mod_eq_of_lt hlt
    simp only [bitAt, b2n, decide_eq_true_eq, hone]
    congr 1
    rw [eq_iff_iff]
    split <;> omega

theorem legal_tidy (h : f.id < 2 ^ 31) : f.tidy.legal = f.legal := by
  unfold CanFrame.legal
  rw [bitAt_tidy h]
  rfl

theorem isTp_tidy (h : isTp f.id = false) : isTp f.tidy.id = false := by
  unfold CanFrame.tidy
  by_cases h29 : bitAt f.id 29 = true
  · simp only [if_pos h29]
    have hbits : ∀ k n, k + n ≤ 31 → bitsOf (f.id % 2 ^ 31) k n = bitsOf f.id k n := fun k n hkn => Nat.eq_of_testBit_eq fun i => by
      simp only [testBit_bitsOf, Nat.testBit_mod_two_pow]
      by_cases hi : i < n
      · simp [hi, show k + i < 31 by omega]
      · simp [hi]
    have hbit : bitAt (f.id % 2 ^ 31) 29 = bitAt f.id 29 := by
      rw [bitAt_eq_testBit, bitAt_eq_testBit, Nat.testBit_mod_two_pow]
      simp
    rw [isTp, hbits 24 2 (by omega), hbits 16 8 (by omega), hbit]
    exact h
  · simp only [if_neg h29]
    have hbit : bitAt (f.id % 2 ^ 11 + b2n (bitAt f.id 30) * 2 ^ 30) 29 = false := by
      cases bitAt f.id 30
      · exact decide_eq_false (by show ¬ (f.id % 2 ^ 11 + 0 * 2 ^ 30) / 2 ^ 29 % 2 = 1; omega)
      · exact decide_eq_false (by show ¬ (f.id % 2 ^ 11 + 1 * 2 ^ 30) / 2 ^ 29 % 2 = 1; omega)
    rw [isTp, hbit]
    rfl

theorem dlcLen_le (fdf : Bool) (dlc : Nat) : dlcLen fdf dlc ≤ 64 := by
  unfold dlcLen
  split
  · omega
  · split
    · omega
    · split <;> omega

theorem length_record (f : CanFrame) (n k : Nat) : (f.record n k).length = 96 := by
  have hlen : f.len ≤ 64 := by
    unfold CanFrame.len
    split
    · omega
    · exact dlcLen_le ..
  have htake : (f.data.take f.len).length ≤ 64 := by
    rw [List.length_take]
    omega
  simp only [CanFrame.record, List.length_append, length_bytesLE, List.length_replicate]
  omega

end Frames

theorem window_one {g : Fld} (h : windowOf g.addr ≠ 0xC1) : ∀ f ∈ [g], windowOf f.addr ≠ 0xC1 := fun f hf => by
  rw [List.mem_singleton.1 hf]
  exact h

/-! ### Queues (R437) -/

section Queues
variable {s u : State} {q : Nat} {v : CanQueue} {entry : List Byte}

theorem qPi_in (q : Nat) : 0xCE000800 ≤ BUS_Q_PI q ∧ BUS_Q_PI q < 0xCE000900 := by simp only [BUS_Q_PI]; omega

theorem window_qPi (q : Nat) : windowOf (BUS_Q_PI q) ≠ 0xC1 := by simp only [windowOf, BUS_Q_PI]; omega

theorem window_qStat (q : Nat) : windowOf (BUS_Q_STAT q) ≠ 0xC1 := by simp only [windowOf, BUS_Q_STAT]; omega

/-- An entry stored, before its event. -/
def State.qStored (q a : Nat) (entry : List Byte) (s : State) : State := (s.dramPuts a entry).set (BUS_Q_PI.PI q) (s.get (BUS_Q_PI.PI q) + 1)

theorem qPut_eq (h : s.busQueue q = some v) : s.qPut q entry =
    (s.qStored q (v.base + 96 * (s.get (BUS_Q_PI.PI q) % 256)) entry).qReached v (s.qFill q) (s.qFill q + 1) true := by
  unfold State.qPut
  rw [h]
  rfl

/-- A fill of a queue that reaches its threshold. -/
def CanQueue.hits (v : CanQueue) (a b : Nat) (e : Bool) : Bool := if v.thr = 0 then e else decide (a < v.thr) && decide (v.thr ≤ b)

theorem qReached_eq (v : CanQueue) (a b : Nat) (e : Bool) (s : State) : s.qReached v a b e = if v.irq && v.hits a b e then s.raise (249 + 6 * v.ctrl) else s := rfl

theorem ran_qReached (v : CanQueue) (a b : Nat) (e : Bool) (s : State) : Ran [.rcd, .cyc] (raiseFlds (249 + 6 * v.ctrl)) s (s.qReached v a b e) := by
  rw [qReached_eq]
  split
  · exact ran_raise ..
  · exact .refl ..

/-- What an entry put into a queue leaves. -/
theorem qPut_shows (h : s.busQueue q = some v) (hlen : entry.length = 96) :
    Ran [.dram, .rcd, .cyc] ([BUS_Q_PI.PI q] ++ raiseFlds (249 + 6 * v.ctrl)) s (s.qPut q entry) ∧
      memBytes (s.qPut q entry).dram (v.base + 96 * (s.get (BUS_Q_PI.PI q) % 256)) 96 = entry ∧
      s.dramKept (v.base + 96 * (s.get (BUS_Q_PI.PI q) % 256)) 96 (s.qPut q entry) ∧ (s.qPut q entry).get (BUS_Q_PI.PI q) = (s.get (BUS_Q_PI.PI q) + 1) % 512 ∧
      (v.irq = true → (v.thr = 0 ∨ s.qFill q + 1 = v.thr) → s.raised (249 + 6 * v.ctrl) (s.qPut q entry)) := by
  rw [qPut_eq h]
  generalize v.base + 96 * (s.get (BUS_Q_PI.PI q) % 256) = a
  have hbytes : memBytes (s.qStored q a entry).dram a 96 = entry := by
    rw [← hlen]
    exact memBytes_memPuts entry s.dram a
  have hkept : s.dramKept a 96 (s.qStored q a entry) := fun x hx => memByte_memPuts_ne _ _ _ _ (by rw [hlen]; exact hx)
  have hpi : (s.qStored q a entry).get (BUS_Q_PI.PI q) = (s.get (BUS_Q_PI.PI q) + 1) % 512 := get_set_self _ _ _ (Nat.le_of_ble_eq_true rfl)
  have honly : s.only [.dram] [BUS_Q_PI.PI q] (s.qStored q a entry) :=
    only_mono (only_seq (only_dramPuts a entry s) (only_set (s.dramPuts a entry) (f := BUS_Q_PI.PI q) _ (Nat.le_of_ble_eq_true rfl))) (by simp) (by simp)
  have hrun := ran_of_only honly (by simp) (window_one (window_qPi q))
  generalize s.qStored q a entry = u at hbytes hkept hpi honly hrun
  have hreach := ran_qReached v (s.qFill q) (s.qFill q + 1) true u
  have hdram : (u.qReached v (s.qFill q) (s.qFill q + 1) true).dram = u.dram := hreach.only.1 .dram (by simp)
  refine ⟨(hrun.seq hreach).mono (by simp) (by simp), by rw [hdram]; exact hbytes, dramKept_then hkept hdram.symm,
    (hreach.only.2.1 _ (apart_raise (window_qPi q) _)).trans hpi, fun hirq hthr => ?_⟩
  have hcond : (v.irq && v.hits (s.qFill q) (s.qFill q + 1) true) = true := by
    rw [hirq, Bool.true_and, CanQueue.hits]
    split
    · rfl
    · rw [Bool.and_eq_true, decide_eq_true_eq, decide_eq_true_eq]
      omega
  rw [qReached_eq, if_pos hcond]
  exact raised_of_only honly (by simp) (window_one (window_qPi q)) (raised_raise u _)

theorem ran_qPut (q : Nat) (entry : List Byte) (s : State) (h : s.busQueue q = some v) :
    Ran [.dram, .rcd, .cyc] ([BUS_Q_PI.PI q] ++ raiseFlds (249 + 6 * v.ctrl)) s (s.qPut q entry) := by
  rw [qPut_eq h]
  generalize v.base + 96 * (s.get (BUS_Q_PI.PI q) % 256) = a
  have honly : s.only [.dram] [BUS_Q_PI.PI q] (s.qStored q a entry) :=
    only_mono (only_seq (only_dramPuts a entry s) (only_set (s.dramPuts a entry) (f := BUS_Q_PI.PI q) _ (Nat.le_of_ble_eq_true rfl))) (by simp) (by simp)
  have hrun := ran_of_only honly (by simp) (window_one (window_qPi q))
  exact (hrun.seq (ran_qReached ..)).mono (by simp) (by simp)

theorem qFrame_room (h : s.busQueue q = some v) (hroom : s.qFill q < 256) : s.qFrame q entry = s.qPut q entry := by
  unfold State.qFrame
  rw [h]
  exact if_neg (by omega)

theorem qFrame_full (h : s.busQueue q = some v) (hfull : 256 ≤ s.qFill q) : s.qFrame q entry = (s.bump (BUS_Q_STAT.Q_DROP q) 1).canAlert v.ctrl 2 := by
  unfold State.qFrame
  rw [h]
  exact if_pos hfull

theorem ran_canAlert {b : Nat} (hb : b < 8) (n : Nat) (s : State) : Ran [.rcd, .cyc] (alertBit n b :: raiseFlds (253 + 6 * n)) s (s.canAlert n b) := by
  rw [canAlert_eq hb]
  exact ran_changeBit (isFlag_alertBit n hb) ..

/-- The fields of a queue that a frame can write. -/
def queueFlds (q n : Nat) : List Fld :=
  [BUS_Q_PI.PI q, BUS_Q_STAT.Q_DROP q, alertBit n 2] ++ raiseFlds (249 + 6 * n) ++ raiseFlds (253 + 6 * n)

theorem ran_qDropped (q n : Nat) (s : State) :
    Ran [.rcd, .cyc] ([BUS_Q_STAT.Q_DROP q, alertBit n 2] ++ raiseFlds (253 + 6 * n)) s ((s.bump (BUS_Q_STAT.Q_DROP q) 1).canAlert n 2) :=
  ((ran_set s (f := BUS_Q_STAT.Q_DROP q) _ (Nat.le_of_ble_eq_true rfl) (window_qStat q)).seq (ran_canAlert (by decide) n (s.bump (BUS_Q_STAT.Q_DROP q) 1))).mono
    (by simp) (by simp)

theorem ran_qFrame (h : s.busQueue q = some v) (entry : List Byte) : Ran [.dram, .rcd, .cyc] (queueFlds q v.ctrl) s (s.qFrame q entry) := by
  by_cases hroom : s.qFill q < 256
  · rw [qFrame_room h hroom]
    exact (ran_qPut q entry s h).mono (by simp) (by simp +contextual [queueFlds, or_imp])
  · rw [qFrame_full h (by omega)]
    exact (ran_qDropped q v.ctrl s).mono (by simp) (by simp +contextual [queueFlds, or_imp])

end Queues

/-! ### The record of an object (R435) -/

section Records
variable {s u : State} {x : Nat} {o : CanObj} {bytes : List Byte}

def recordFlds (x : Nat) : List Fld := (List.range 22).map fun j => wordAt (BUS_OBJ_REC x j)

theorem foldl_of_mem_list {α : Type} {P : State → Prop} {f : State → α → State} {l : List α} {y : α} (hset : ∀ u, P (f u y)) (hkeep : ∀ u z, z ∈ l → P u → P (f u z))
    (hy : y ∈ l) (s : State) : P (l.foldl f s) := by
  induction l generalizing s with
  | nil => cases hy
  | cons z l ih =>
    rcases List.mem_cons.1 hy with rfl | hy
    · exact foldl_keeps (P := P) (s := f s y) (fun u w hw => hkeep u w (List.mem_cons_of_mem _ hw)) (hset s)
    · exact ih (fun u w hw => hkeep u w (List.mem_cons_of_mem _ hw)) hy _

/-- One word of a record. -/
def State.recWord (x : Nat) (bytes : List Byte) (s : State) (j : Nat) : State :=
  s.setReg (BUS_OBJ_REC x j) (BitVec.ofNat 32 (natLE ((bytes.drop (4 * j)).take 4)))

theorem putRecord_eq (x : Nat) (bytes : List Byte) (s : State) : s.putRecord x bytes = (List.range 22).foldl (State.recWord x bytes) s := rfl

theorem reg_recWord_self (x j : Nat) (bytes : List Byte) (s : State) :
    (s.recWord x bytes j).reg (BUS_OBJ_REC x j) = BitVec.ofNat 32 (natLE ((bytes.drop (4 * j)).take 4)) := reg_setReg_self ..

theorem putRecord_shows (x : Nat) (bytes : List Byte) (s : State) : s.only [] (recordFlds x) (s.putRecord x bytes) ∧
    ∀ j, j < 22 → (s.putRecord x bytes).reg (BUS_OBJ_REC x j) = BitVec.ofNat 32 (natLE ((bytes.drop (4 * j)).take 4)) := by
  rw [putRecord_eq]
  refine ⟨foldl_keeps (P := fun u => s.only [] (recordFlds x) u) (fun u j hj hu => ?_) (only_refl ..), fun j hj => ?_⟩
  · exact only_then_setReg hu _ (List.mem_map_of_mem hj)
  · refine foldl_of_mem_list (P := fun u => u.reg (BUS_OBJ_REC x j) = BitVec.ofNat 32 (natLE ((bytes.drop (4 * j)).take 4))) (fun u => reg_recWord_self x j bytes u)
      (fun u k hk hu => ?_) (List.mem_range.2 hj) s
    have hk' := List.mem_range.1 hk
    by_cases hkj : k = j
    · rw [hkj]
      exact reg_recWord_self x j bytes u
    · refine (reg_setReg_ne _ _ ?_).trans hu
      simp only [BUS_OBJ_REC]
      omega

theorem recordFlds_in {x : Nat} : ∀ f ∈ recordFlds x, 0xCE100000 ≤ f.addr ∧ f.addr < 0xCF000000 ∧ f.addr ≠ BUS_OBJ_STAT x := by
  intro f hf
  obtain ⟨j, hj, rfl⟩ := List.mem_map.1 hf
  simp only [wordAt, BUS_OBJ_REC, BUS_OBJ_STAT]
  omega

theorem isFlag_new (x : Nat) : IsFlag (BUS_OBJ_STAT.NEW x) := ⟨rfl, Nat.le_of_ble_eq_true rfl, window_objStat x⟩

/-- A frame's record and NEW. -/
def State.recordNew (x : Nat) (bytes : List Byte) (s : State) : State := (s.putRecord x bytes).setB (BUS_OBJ_STAT.NEW x) true

theorem recordNew_shows (x : Nat) (bytes : List Byte) (s : State) : Ran [] (BUS_OBJ_STAT.NEW x :: recordFlds x) s (s.recordNew x bytes) ∧
    (s.recordNew x bytes).getB (BUS_OBJ_STAT.NEW x) = true ∧
    ∀ j, j < 22 → (s.recordNew x bytes).reg (BUS_OBJ_REC x j) = BitVec.ofNat 32 (natLE ((bytes.drop (4 * j)).take 4)) := by
  obtain ⟨honly, hwords⟩ := putRecord_shows x bytes s
  have hset := only_seq honly (only_setB_flag (isFlag_new x) (s.putRecord x bytes) true)
  refine ⟨(ran_of_only hset (by simp) fun f hf => ?_).mono (by simp) (by simp +contextual [or_imp]), getB_setB_self _ _ _ (Nat.le_of_ble_eq_true rfl) rfl, fun j hj => ?_⟩
  · rcases List.mem_append.1 hf with hf | hf
    · have := recordFlds_in f hf
      simp only [windowOf]
      omega
    · rw [List.mem_singleton.1 hf]
      exact (isFlag_new x).window
  · exact (reg_setB_ne _ _ (objStat_ne_rec x x j).symm).trans (hwords j hj)

end Records

/-! ### Receiving (R430, R433, R434) -/

section Receive
variable {s u : State} {n x : Nat} {f : CanFrame} {o : CanObj}

theorem recDown_low (h : s.get (BUS_C_STAT.REC n) ≤ 127) : s.recDown n = s.set (BUS_C_STAT.REC n) (s.get (BUS_C_STAT.REC n) - 1) := if_neg (by omega)

/-- REC one lower. -/
theorem recDown_shows (h : s.get (BUS_C_STAT.REC n) ≤ 127) : Ran [] [BUS_C_STAT.REC n] s (s.recDown n) ∧
    (s.recDown n).get (BUS_C_STAT.REC n) = s.get (BUS_C_STAT.REC n) - 1 := by
  rw [recDown_low h]
  exact ⟨ran_set s _ (Nat.le_of_ble_eq_true rfl) (window_ctlStat n),
    (get_set_self _ _ _ (Nat.le_of_ble_eq_true rfl)).trans (Nat.mod_eq_of_lt (by show _ < 2 ^ 8; omega))⟩

/-- A free value of REC from 119 to 127. -/
def State.recDrawn (n : Nat) (s : State) : State := s.set (BUS_C_STAT.REC n) (119 + Config.freeValue s.free % 9)

theorem recDown_high (h : 127 < s.get (BUS_C_STAT.REC n)) : s.recDown n = (s.recDrawn n).drawn.canErrState n := if_pos h

/-- REC from the passive range. -/
theorem recDown_passive (h : 127 < s.get (BUS_C_STAT.REC n)) (hst : s.get (BUS_C_STAT.STATE n) < 2) :
    Ran [.free, .rcd, .cyc] ([BUS_C_STAT.REC n, BUS_C_STAT.STATE n] ++ raiseFlds (251 + 6 * n)) s (s.recDown n) ∧
      119 ≤ (s.recDown n).get (BUS_C_STAT.REC n) ∧ (s.recDown n).get (BUS_C_STAT.REC n) ≤ 127 ∧
      (s.get (BUS_C_STAT.TEC n) ≤ 127 → (s.recDown n).get (BUS_C_STAT.STATE n) = 0 ∧ (s.get (BUS_C_STAT.STATE n) = 1 → s.raised (251 + 6 * n) (s.recDown n))) := by
  rw [recDown_high h]
  have hset : s.only [] [BUS_C_STAT.REC n] (s.recDrawn n) := only_set s _ (Nat.le_of_ble_eq_true rfl)
  have hval : (s.recDrawn n).get (BUS_C_STAT.REC n) = 119 + Config.freeValue s.free % 9 :=
    (get_set_self _ _ _ (Nat.le_of_ble_eq_true rfl)).trans (Nat.mod_eq_of_lt (by show _ < 2 ^ 8; omega))
  have hdraw := only_seq hset (only_drawn (s.recDrawn n))
  have hval' : (s.recDrawn n).drawn.get (BUS_C_STAT.REC n) = 119 + Config.freeValue s.free % 9 := hval
  have htec : (s.recDrawn n).drawn.get (BUS_C_STAT.TEC n) = s.get (BUS_C_STAT.TEC n) := hdraw.2.1 _ (by simpa using .inr (.inr (Nat.le_of_ble_eq_true rfl)))
  have hstate : (s.recDrawn n).drawn.get (BUS_C_STAT.STATE n) = s.get (BUS_C_STAT.STATE n) := hdraw.2.1 _ (by simpa using .inr (.inr (Nat.le_of_ble_eq_true rfl)))
  have hrun : Ran [.free] [BUS_C_STAT.REC n] s (s.recDrawn n).drawn := ran_of_only (only_mono hdraw (by simp) (by simp)) (by simp) (window_one (window_ctlStat n))
  generalize (s.recDrawn n).drawn = u at hval' htec hstate hrun
  rw [canErrState_eq (by omega)]
  obtain ⟨honly, hnew, hraised, -⟩ := setCanState_shows (errPassive_lt n u) n u
  have herr : Ran [.rcd, .cyc] (BUS_C_STAT.STATE n :: raiseFlds (251 + 6 * n)) u (u.setCanState n (u.errPassive n)) := by
    refine ⟨honly, ?_⟩
    unfold State.setCanState
    split
    · exact .refl u
    · exact ((ran_set u _ (Nat.le_of_ble_eq_true rfl) (window_ctlStat n)).seq (ran_raise ..)).evt
  have hrec : (u.setCanState n (u.errPassive n)).get (BUS_C_STAT.REC n) = u.get (BUS_C_STAT.REC n) :=
    honly.2.1 _ fun g hg => (List.mem_cons.1 hg).elim (fun h => h ▸ .inr (.inl (Nat.le_of_ble_eq_true rfl))) (apart_raise (window_ctlStat n) _ g)
  refine ⟨(hrun.seq herr).mono (by simp) (by simp), by omega, by omega, fun ht => ?_⟩
  have hactive : u.errPassive n = 0 := if_neg (by rw [Bool.or_eq_true, decide_eq_true_eq, decide_eq_true_eq]; omega)
  rw [hactive] at hnew hraised ⊢
  exact ⟨hnew, fun h1 => raised_of_only hrun.only (by simp) (window_one (window_ctlStat n)) (hraised (by omega))⟩

theorem ran_recDown (hst : s.get (BUS_C_STAT.STATE n) < 2) :
    Ran [.free, .rcd, .cyc] ([BUS_C_STAT.REC n, BUS_C_STAT.STATE n] ++ raiseFlds (251 + 6 * n)) s (s.recDown n) := by
  by_cases h : 127 < s.get (BUS_C_STAT.REC n)
  · exact (recDown_passive h hst).1
  · exact (recDown_shows (by omega)).1.mono (by simp) (by simp)

/-- The engine's use of a controller, by what it reads. -/
theorem tpOn_congr (himg : u.img = s.img) (hctl : u.reg BUS_CTRL = s.reg BUS_CTRL) (hcfg : u.reg (BUS_C_CFG n) = s.reg (BUS_C_CFG n)) : u.tpOn n = s.tpOn n := by
  have hen : u.enabled 0x0E = s.enabled 0x0E := getB_congr _ hctl
  have hcap (g : Fld) : u.imgFld g = s.imgFld g := by simp only [State.imgFld, State.image, himg]
  have hcen : u.getB (BUS_C_CFG.EN n) = s.getB (BUS_C_CFG.EN n) := getB_congr _ hcfg
  simp only [State.tpOn, State.canOn, State.canInsvc, hen, hcap, hcen]

theorem ownRx_none (h : (s.bus.objs.any fun e => decide (e.2.ctrl = n) && e.2.tx && idKey e.2.id = idKey f.id) = false) : s.ownRx n f = s := if_neg (by rw [h]; decide)

theorem ran_ownRx (n : Nat) (f : CanFrame) (s : State) : Ran [.rcd, .cyc] (alertBit n 7 :: raiseFlds (253 + 6 * n)) s (s.ownRx n f) := by
  unfold State.ownRx
  split
  · exact ran_canAlert (by decide) n s
  · exact .refl ..

/-- A frame that the engine does not take is stored. -/
theorem canRx_stored {g : CanFrame} (h : ((s.ownRx n g.tidy).tpOn n && isTp g.tidy.id) = false) : s.canRx n g = (s.ownRx n g.tidy).canStore n g.tidy := by
  have heq : s.canRx n g = if (s.ownRx n g.tidy).tpOn n && isTp g.tidy.id then (s.ownRx n g.tidy).tpExpire.tpRx n g.tidy else (s.ownRx n g.tidy).canStore n g.tidy := rfl
  rw [heq, if_neg (by rw [h]; decide)]

/-- The next frame number of a controller. -/
def State.nextFrame (s : State) (n : Nat) : Nat := ((s.busCtl n).fseq + 1) % 2 ^ 32

def State.frameCounted (n : Nat) (s : State) : State := s.setCtl n { s.busCtl n with fseq := s.nextFrame n }

theorem canStore_object (h : (s.bus.objs.find? fun e => decide (e.2.ctrl = n) && !e.2.tx && idKey e.2.id = idKey f.id) = some (x, o)) :
    s.canStore n f = (s.frameCounted n).objStore x o f (f.record n (s.nextFrame n)) := by
  unfold State.canStore
  simp only [h]
  rfl

theorem canStore_queue {q : Nat} {v : CanQueue} (hobjs : s.bus.objs = [])
    (h : (s.bus.queues.find? fun e => decide (e.2.ctrl = n) && (((f.id % 2 ^ 30) ^^^ (e.2.qid % 2 ^ 30)) &&& (e.2.mask % 2 ^ 30)) = 0) = some (q, v)) :
    s.canStore n f = if 256 ≤ s.qFill q then s.qFrame q (f.record n (s.nextFrame n)) else (s.frameCounted n).qFrame q (f.record n (s.nextFrame n)) := by
  unfold State.canStore
  simp only [hobjs, List.find?_nil, h]
  rfl

theorem canStore_none (hobjs : s.bus.objs = []) (hqueues : s.bus.queues = []) : s.canStore n f = s.bump (BUS_C_CNT.NOMATCH n) 1 := by
  unfold State.canStore
  simp only [hobjs, hqueues, List.find?_nil]

end Receive

end Sys2Proof.Machine
end

section
/-! PROOFS. BUS: received frames (R430, R434 to R437) for the statement of chapter 20 on frames. -/

namespace Sys2Proof.Machine

section Received
variable {s u : State} {n : Fin 8} {ident : BitVec 31} {fdf brs esi : Bool} {dlc : Fin 16} {data : List Byte} {sof x q : Nat} {f : CanFrame} {o : CanObj} {v : CanQueue}

/-- The frame as it stands on the wire. -/
def wireFrame (ident : BitVec 31) (fdf brs esi : Bool) (dlc : Fin 16) (data : List Byte) (sof : Nat) : CanFrame :=
  { id := ident.toNat, fdf := fdf, brs := brs, esi := esi, dlc := dlc.val, data := data, sof := sof }

theorem execCanFrameRx_eq (hlive : s.canLive n.val = true) (hmode : s.get (BUS_C_CFG.MODE n.val) ≠ 2) (hlegal : (wireFrame ident fdf brs esi dlc data sof).legal = true)
    (hfd : s.getB (BUS_C_CFG.FD_EN n.val) = true ∨ fdf = false) :
    exec (.canFrameRx n ident fdf brs esi dlc data sof) s = .next ((s.recDown n.val).canRx n.val (wireFrame ident fdf brs esi dlc data sof)) := by
  refine congrArg Host.Outcome.next (if_pos ?_)
  change (s.canLive n.val && decide (s.get (BUS_C_CFG.MODE n.val) ≠ 2) && (wireFrame ident fdf brs esi dlc data sof).legal && (s.getB (BUS_C_CFG.FD_EN n.val) || !fdf)) = true
  rw [hlive, decide_eq_true hmode, hlegal]
  rcases hfd with h | h
  · rw [h]; rfl
  · rw [h, Bool.not_false, Bool.or_true]; rfl

theorem wireFrame_lt : (wireFrame ident fdf brs esi dlc data sof).id < 2 ^ 31 := ident.isLt

/-- A register of BUS that no error count holds. -/
theorem reg_recDown {a : Nat} (hst : s.get (BUS_C_STAT.STATE n.val) < 2) (ha : a ≠ BUS_C_STAT n.val) (hwin : windowOf a ≠ 0xC1) : (s.recDown n.val).reg a = s.reg a := by
  refine reg_of_addrs (ran_recDown hst).only fun f hf => ?_
  rcases List.mem_append.1 hf with hf | hf
  · rcases List.mem_cons.1 hf with rfl | hf
    · exact ha
    · rw [List.mem_singleton.1 hf]
      exact ha
  · exact ne_raiseFlds hwin f hf

theorem cfg_ne_ctlStat (n m : Nat) : BUS_C_CFG n ≠ BUS_C_STAT m ∧ BUS_C_CFG n ≠ BUS_C_ALERT m ∧ windowOf (BUS_C_CFG n) ≠ 0xC1 := by
  simp only [BUS_C_CFG, BUS_C_STAT, BUS_C_ALERT, windowOf]
  omega

theorem tpOn_recDown (hst : s.get (BUS_C_STAT.STATE n.val) < 2) : (s.recDown n.val).tpOn n.val = s.tpOn n.val := by
  obtain ⟨h1, -, h3⟩ := cfg_ne_ctlStat n.val n.val
  refine tpOn_congr ((ran_recDown hst).only.1 .img (by simp)) (reg_recDown hst ?_ (by decide)) (reg_recDown hst h1 h3)
  simp only [BUS_CTRL, BUS_C_STAT]
  omega

theorem tpOn_ownRx (m : Nat) (g : CanFrame) (s : State) : (s.ownRx m g).tpOn m = s.tpOn m := by
  obtain ⟨-, h2, h3⟩ := cfg_ne_ctlStat m m
  have hrun := (ran_ownRx m g s).only
  have hreg {a : Nat} (ha : a ≠ BUS_C_ALERT m) (hwin : windowOf a ≠ 0xC1) : (s.ownRx m g).reg a = s.reg a :=
    reg_of_addrs hrun fun f hf => (List.mem_cons.1 hf).elim (fun h => h ▸ ha) (ne_raiseFlds hwin f)
  refine tpOn_congr (hrun.1 .img (by simp)) (hreg ?_ (by decide)) (hreg h2 h3)
  simp only [BUS_CTRL, BUS_C_ALERT]
  omega

/-- What reaches a controller outside the engine. -/
structure State.frameTaken (s : State) (n : Fin 8) (ident : BitVec 31) (fdf brs esi : Bool) (dlc : Fin 16) (data : List Byte) (sof : Nat) (f : CanFrame) : Prop where
  live : s.canLive n.val = true
  mode : s.get (BUS_C_CFG.MODE n.val) ≠ 2
  frame : f = (wireFrame ident fdf brs esi dlc data sof).tidy
  legal : f.legal = true
  fd : s.getB (BUS_C_CFG.FD_EN n.val) = true ∨ fdf = false
  engine : (s.tpOn n.val && isTp f.id) = false

theorem State.frameTaken.stored (h : s.frameTaken n ident fdf brs esi dlc data sof f) :
    exec (.canFrameRx n ident fdf brs esi dlc data sof) s = .next (((s.recDown n.val).ownRx n.val f).canStore n.val f) := by
  obtain ⟨hlive, hmode, hframe, hlegal, hfd, hengine⟩ := h
  subst hframe
  rw [legal_tidy wireFrame_lt] at hlegal
  have htp : (((s.recDown n.val).ownRx n.val (wireFrame ident fdf brs esi dlc data sof).tidy).tpOn n.val && isTp (wireFrame ident fdf brs esi dlc data sof).tidy.id) = false := by
    rw [tpOn_ownRx, tpOn_recDown (get_state_of_live hlive)]
    exact hengine
  exact (execCanFrameRx_eq hlive hmode hlegal hfd).trans (congrArg Host.Outcome.next (canRx_stored htp))

/-- A frame with no transmit object's identifier. -/
theorem State.frameTaken.storedOther (h : s.frameTaken n ident fdf brs esi dlc data sof f)
    (hown : (s.bus.objs.any fun e => decide (e.2.ctrl = n.val) && e.2.tx && idKey e.2.id = idKey f.id) = false) :
    exec (.canFrameRx n ident fdf brs esi dlc data sof) s = .next ((s.recDown n.val).canStore n.val f) := by
  have hbus : (s.recDown n.val).bus = s.bus := (ran_recDown (get_state_of_live h.live)).only.1 .bus (by simp)
  have hexec := h.stored
  rw [ownRx_none (by rw [hbus]; exact hown)] at hexec
  exact hexec

/-! ### Into an object -/

theorem objLost_new (h : s.getB (BUS_OBJ_STAT.NEW x) = false) : s.objLost x o = s := if_neg (by rw [h]; decide)

/-- A frame in an object, before its queue. -/
def State.objRecorded (x : Nat) (o : CanObj) (bytes : List Byte) (s : State) : State := (s.objLost x o).recordNew x bytes

theorem objStore_eq (x : Nat) (o : CanObj) (f : CanFrame) (bytes : List Byte) (s : State) : s.objStore x o f bytes =
    if (((s.objRecorded x o bytes).objQueue o bytes).reg YLD_MOIST_OBJ).toNat = ((s.objRecorded x o bytes).objQueue o bytes).handle 7 x then
      ((s.objRecorded x o bytes).objQueue o bytes).yldMoist f.sof (f.data.take f.len) else (s.objRecorded x o bytes).objQueue o bytes := rfl

theorem objQueue_none (h : o.queue = none) (bytes : List Byte) (s : State) : s.objQueue o bytes = s := by
  unfold State.objQueue
  rw [h]

theorem objQueue_some (h : o.queue = some q) (bytes : List Byte) (s : State) : s.objQueue o bytes = s.qFrame q bytes := by
  unfold State.objQueue
  rw [h]

/-- A frame that is no moisture frame, in an object whose last frame was read. -/
theorem objStore_plain {bytes : List Byte} (hnew : s.getB (BUS_OBJ_STAT.NEW x) = false)
    (hmoist : (((s.recordNew x bytes).objQueue o bytes).reg YLD_MOIST_OBJ).toNat ≠ ((s.recordNew x bytes).objQueue o bytes).handle 7 x) :
    s.objStore x o f bytes = (s.recordNew x bytes).objQueue o bytes := by
  rw [objStore_eq, State.objRecorded, objLost_new hnew, if_neg hmoist]

/-- Before the record: REC is one lower and the frame is counted. -/
def State.rxCounted (n : Nat) (s : State) : State := (s.recDown n).frameCounted n

theorem rxCounted_shows {n : Nat} (hrec : s.get (BUS_C_STAT.REC n) ≤ 127) :
    Ran [.bus] [BUS_C_STAT.REC n] s (s.rxCounted n) ∧ (s.rxCounted n).get (BUS_C_STAT.REC n) = s.get (BUS_C_STAT.REC n) - 1 ∧
      (s.rxCounted n).bus = { s.bus with ctls := tput s.bus.ctls n { s.busCtl n with fseq := s.nextFrame n } } ∧ (s.recDown n).nextFrame n = s.nextFrame n := by
  obtain ⟨hrun, hval⟩ := recDown_shows hrec
  have hbus : (s.recDown n).bus = s.bus := hrun.only.1 .bus (by simp)
  have hnext : (s.recDown n).nextFrame n = s.nextFrame n := by rw [State.nextFrame, busCtl_of_bus hbus, State.nextFrame]
  have hset := ran_of_only (only_setCtl n { (s.recDown n).busCtl n with fseq := (s.recDown n).nextFrame n } (s.recDown n)) (by simp) (by simp)
  refine ⟨(hrun.seq hset).mono (by simp) (by simp), hval, ?_, hnext⟩
  rw [State.rxCounted, State.frameCounted, busCtl_of_bus hbus, hnext, State.setCtl, hbus]

theorem moistObj_out : windowOf YLD_MOIST_OBJ = 0xCD := rfl

/-- The moisture object is read from outside BUS. -/
theorem moist_of_only {ps : List Comp} {fs : List Fld} (h : s.only ps fs u) (hg : .gens ∉ ps) (hw : ∀ f ∈ fs, windowOf f.addr ≠ 0xCD)
    (hm : (s.reg YLD_MOIST_OBJ).toNat ≠ s.handle 7 x) : (u.reg YLD_MOIST_OBJ).toNat ≠ u.handle 7 x := by
  have hreg : u.reg YLD_MOIST_OBJ = s.reg YLD_MOIST_OBJ := reg_of_addrs h fun f hf he => hw f hf (he ▸ moistObj_out)
  rw [hreg, handle_of_gens (h.1 .gens hg)]
  exact hm

theorem window_raise_ne (n : Nat) {w : Nat} (hw : w ≠ 0xC1) : ∀ f ∈ raiseFlds n, windowOf f.addr ≠ w := fun _ hf he => hw (he ▸ windowOf_raiseFlds hf)

theorem window_objFlds (x n : Nat) : ∀ f ∈ BUS_OBJ_STAT.NEW x :: recordFlds x ++ [BUS_C_STAT.REC n], windowOf f.addr = 0xCE := by
  intro f hf
  rcases List.mem_append.1 hf with hf | hf
  · rcases List.mem_cons.1 hf with rfl | hf
    · have := objStat_in x
      simp only [BUS_OBJ_STAT.NEW, windowOf]
      omega
    · have := recordFlds_in f hf
      simp only [windowOf]
      omega
  · rw [List.mem_singleton.1 hf]
    have := ctlStat_in n
    simp only [BUS_C_STAT.REC, windowOf]
    omega

/-- A received frame in its object, with its number. -/
theorem rxRecorded {bytes : List Byte} {n : Nat} (hrec : s.get (BUS_C_STAT.REC n) ≤ 127) :
    let t := (s.rxCounted n).recordNew x bytes
    Ran [.bus] (BUS_OBJ_STAT.NEW x :: recordFlds x ++ [BUS_C_STAT.REC n]) s t ∧ t.getB (BUS_OBJ_STAT.NEW x) = true ∧
      (∀ j, j < 22 → t.reg (BUS_OBJ_REC x j) = BitVec.ofNat 32 (natLE ((bytes.drop (4 * j)).take 4))) ∧
      t.bus = { s.bus with ctls := tput s.bus.ctls n { s.busCtl n with fseq := s.nextFrame n } } ∧ t.get (BUS_C_STAT.REC n) = s.get (BUS_C_STAT.REC n) - 1 := by
  intro t
  obtain ⟨hrun, hval, hbus, -⟩ := rxCounted_shows hrec
  obtain ⟨hrun', hnew, hwords⟩ := recordNew_shows x bytes (s.rxCounted n)
  have hkeep : t.get (BUS_C_STAT.REC n) = (s.rxCounted n).get (BUS_C_STAT.REC n) := by
    refine get_congr _ (reg_of_addrs hrun'.only fun f hf => ?_)
    rcases List.mem_cons.1 hf with rfl | hf
    · exact (objStat_ne_ctlStat x n).symm
    · have := recordFlds_in f hf
      have := ctlStat_in n
      show BUS_C_STAT n ≠ _
      omega
  exact ⟨(hrun.seq hrun').mono (by simp) (by simp +contextual [or_imp]), hnew, hwords, (hrun'.only.1 .bus (by simp)).trans hbus, hkeep.trans hval⟩

theorem frameInObject (h : s.frameTaken n ident fdf brs esi dlc data sof f)
    (hown : (s.bus.objs.any fun e => decide (e.2.ctrl = n.val) && e.2.tx && idKey e.2.id = idKey f.id) = false)
    (hhit : (s.bus.objs.find? fun e => decide (e.2.ctrl = n.val) && !e.2.tx && idKey e.2.id = idKey f.id) = some (x, o)) (hq : o.queue = none)
    (hmoist : (s.reg YLD_MOIST_OBJ).toNat ≠ s.handle 7 x) (hrec : s.get (BUS_C_STAT.REC n.val) ≤ 127) (hnew : s.getB (BUS_OBJ_STAT.NEW x) = false) :
    ∃ t, exec (.canFrameRx n ident fdf brs esi dlc data sof) s = .next t ∧
    (∀ j, j < 22 → t.reg (BUS_OBJ_REC x j) = BitVec.ofNat 32 (natLE (((CanFrame.record f n.val (((s.busCtl n.val).fseq + 1) % 2 ^ 32)).drop (4 * j)).take 4))) ∧
    t.getB (BUS_OBJ_STAT.NEW x) = true ∧ t.bus = { s.bus with ctls := tput s.bus.ctls n.val { s.busCtl n.val with fseq := ((s.busCtl n.val).fseq + 1) % 2 ^ 32 } } ∧ t.get (BUS_C_STAT.REC n.val) = s.get (BUS_C_STAT.REC n.val) - 1 ∧
    s.only [.bus] ([BUS_OBJ_STAT.NEW x, BUS_C_STAT.REC n.val] ++ (List.range 22).map fun j => wordAt (BUS_OBJ_REC x j)) t := by
  have hexec := h.storedOther hown
  have hbus : (s.recDown n.val).bus = s.bus := (recDown_shows hrec).1.only.1 .bus (by simp)
  obtain ⟨hcrun, -, -, hnext⟩ := rxCounted_shows hrec
  rw [canStore_object (by rw [hbus]; exact hhit), hnext] at hexec
  obtain ⟨hrun, hn, hwords, hb, hr⟩ := rxRecorded (s := s) (x := x) (bytes := f.record n.val (s.nextFrame n.val)) hrec
  have hnew' : (s.rxCounted n.val).getB (BUS_OBJ_STAT.NEW x) = false :=
    (getB_of_only hcrun.only (by simpa using apart_of_addr (objStat_ne_ctlStat x n.val))).trans hnew
  have hquiet := moist_of_only hrun.only (by simp) (fun g hg he => by rw [window_objFlds x n.val g hg] at he; exact absurd he (by decide)) hmoist
  have hstore := objStore_plain (s := s.rxCounted n.val) (x := x) (o := o) (f := f) (bytes := f.record n.val (s.nextFrame n.val)) hnew' (by rw [objQueue_none hq]; exact hquiet)
  rw [objQueue_none hq] at hstore
  exact ⟨_, hexec.trans (congrArg Host.Outcome.next hstore), hwords, hn, hb, hr, only_mono hrun.only (fun _ h => h) (by simp +contextual [or_imp, recordFlds])⟩

theorem qFill_of_regs (hpi : u.reg (BUS_Q_PI q) = s.reg (BUS_Q_PI q)) (hci : u.reg (BUS_Q_CI q) = s.reg (BUS_Q_CI q)) : u.qFill q = s.qFill q := by
  have h1 : u.get (BUS_Q_PI.PI q) = s.get (BUS_Q_PI.PI q) := get_congr _ hpi
  have h2 : u.get (BUS_Q_CI.CI q) = s.get (BUS_Q_CI.CI q) := get_congr _ hci
  rw [State.qFill, State.qFill, h1, h2]

theorem qReg_ne_objFlds {a : Nat} (ha : 0xCE000800 ≤ a ∧ a < 0xCE000900) (x n : Nat) : ∀ f ∈ BUS_OBJ_STAT.NEW x :: recordFlds x ++ [BUS_C_STAT.REC n], a ≠ f.addr := by
  intro f hf
  rcases List.mem_append.1 hf with hf | hf
  · rcases List.mem_cons.1 hf with rfl | hf
    · have := objStat_in x
      show a ≠ BUS_OBJ_STAT x
      omega
    · have := recordFlds_in f hf
      omega
  · rw [List.mem_singleton.1 hf]
    show a ≠ BUS_C_STAT n
    simp only [BUS_C_STAT]
    omega

theorem qCi_in (q : Nat) : 0xCE000800 ≤ BUS_Q_CI q ∧ BUS_Q_CI q < 0xCE000900 := by simp only [BUS_Q_CI]; omega

theorem frameInObjectAndQueue (h : s.frameTaken n ident fdf brs esi dlc data sof f)
    (hown : (s.bus.objs.any fun e => decide (e.2.ctrl = n.val) && e.2.tx && idKey e.2.id = idKey f.id) = false)
    (hhit : (s.bus.objs.find? fun e => decide (e.2.ctrl = n.val) && !e.2.tx && idKey e.2.id = idKey f.id) = some (x, o)) (hq : o.queue = some q)
    (hv : s.busQueue q = some v) (hctrl : v.ctrl = n.val) (hroom : s.qFill q < 256)
    (hmoist : (s.reg YLD_MOIST_OBJ).toNat ≠ s.handle 7 x) (hrec : s.get (BUS_C_STAT.REC n.val) ≤ 127) (hnew : s.getB (BUS_OBJ_STAT.NEW x) = false) :
    ∃ t, exec (.canFrameRx n ident fdf brs esi dlc data sof) s = .next t ∧ t.getB (BUS_OBJ_STAT.NEW x) = true ∧
    memBytes t.dram (v.base + 96 * (s.get (BUS_Q_PI.PI q) % 256)) 96 = CanFrame.record f n.val (((s.busCtl n.val).fseq + 1) % 2 ^ 32) ∧ s.dramKept (v.base + 96 * (s.get (BUS_Q_PI.PI q) % 256)) 96 t ∧
    t.get (BUS_Q_PI.PI q) = (s.get (BUS_Q_PI.PI q) + 1) % 512 ∧ (v.irq = true → (v.thr = 0 ∨ s.qFill q + 1 = v.thr) → s.raised (249 + 6 * n.val) t) ∧
    s.only [.dram, .bus, .rcd, .cyc] ([BUS_OBJ_STAT.NEW x, BUS_C_STAT.REC n.val, BUS_Q_PI.PI q] ++ ((List.range 22).map fun j => wordAt (BUS_OBJ_REC x j)) ++ raiseFlds (249 + 6 * n.val)) t := by
  have hexec := h.storedOther hown
  have hbus : (s.recDown n.val).bus = s.bus := (recDown_shows hrec).1.only.1 .bus (by simp)
  obtain ⟨hcrun, -, -, hnext⟩ := rxCounted_shows hrec
  rw [canStore_object (by rw [hbus]; exact hhit), hnext] at hexec
  obtain ⟨hrun, hn, -, hb, -⟩ := rxRecorded (s := s) (x := x) (bytes := f.record n.val (s.nextFrame n.val)) hrec
  have hnew' : (s.rxCounted n.val).getB (BUS_OBJ_STAT.NEW x) = false :=
    (getB_of_only hcrun.only (by simpa using apart_of_addr (objStat_ne_ctlStat x n.val))).trans hnew
  have hlen := length_record f n.val (s.nextFrame n.val)
  have hstore := objStore_plain (s := s.rxCounted n.val) (x := x) (o := o) (f := f) (bytes := f.record n.val (s.nextFrame n.val)) hnew'
  rw [objQueue_some hq] at hstore
  replace hexec := fun hm => hexec.trans (congrArg Host.Outcome.next (hstore hm))
  change _ → exec _ s = .next (((s.rxCounted n.val).recordNew x (f.record n.val (s.nextFrame n.val))).qFrame q (f.record n.val (s.nextFrame n.val))) at hexec
  have hpireg := reg_of_addrs hrun.only (qReg_ne_objFlds (qPi_in q) x n.val)
  have hfill := qFill_of_regs hpireg (reg_of_addrs hrun.only (qReg_ne_objFlds (qCi_in q) x n.val))
  have hdram : ((s.rxCounted n.val).recordNew x (f.record n.val (s.nextFrame n.val))).dram = s.dram := hrun.only.1 .dram (by simp)
  have hmoist' := moist_of_only hrun.only (by simp) (fun g hg he => by rw [window_objFlds x n.val g hg] at he; exact absurd he (by decide)) hmoist
  generalize (s.rxCounted n.val).recordNew x (f.record n.val (s.nextFrame n.val)) = u at hexec hrun hn hb hpireg hfill hdram hmoist'
  have hv' : u.busQueue q = some v := by
    rw [State.busQueue, hb]
    exact hv
  have hpi : u.get (BUS_Q_PI.PI q) = s.get (BUS_Q_PI.PI q) := get_congr _ hpireg
  rw [qFrame_room hv' (by omega)] at hexec
  obtain ⟨hput, hbytes, hkept, hnewpi, hraised⟩ := qPut_shows hv' hlen
  rw [hctrl] at hput hraised
  rw [hpi] at hbytes hkept hnewpi
  have hwput : ∀ g ∈ [BUS_Q_PI.PI q] ++ raiseFlds (249 + 6 * n.val), windowOf g.addr ≠ 0xCD := by
    intro g hg
    rcases List.mem_append.1 hg with hg | hg
    · rw [List.mem_singleton.1 hg]
      simp only [BUS_Q_PI.PI, BUS_Q_PI, windowOf]
      omega
    · exact window_raise_ne _ (by decide) g hg
  have hnewkeep : (u.qPut q (f.record n.val (s.nextFrame n.val))).getB (BUS_OBJ_STAT.NEW x) = u.getB (BUS_OBJ_STAT.NEW x) := by
    refine getB_of_only hput.only (apart_raised ?_ (window_objStat x) _)
    have := objStat_in x
    have := qPi_in q
    simpa using apart_of_addr (show BUS_OBJ_STAT x ≠ BUS_Q_PI q by omega)
  refine ⟨_, hexec (moist_of_only hput.only (by simp) hwput hmoist'), hnewkeep.trans hn, hbytes, fun y hy => (hkept y hy).trans (by rw [hdram]), hnewpi,
    fun hirq hthr => hrun.evt.raised_second hput.evt (by omega) (hraised hirq (by rw [hfill]; exact hthr)),
    only_mono (only_seq hrun.only hput.only) (by simp) (by simp +contextual [or_imp, recordFlds])⟩

/-! ### Into no object -/

theorem noObjects {g : Nat × CanObj → Bool} (h : s.bus.objs = []) : s.bus.objs.any g = false := by rw [h]; rfl

theorem frameUnmatched (hlive : s.canLive n.val = true) (hmode : s.get (BUS_C_CFG.MODE n.val) ≠ 2) (hfd : s.getB (BUS_C_CFG.FD_EN n.val) = true ∨ fdf = false)
    (hremote : (fdf && bitAt ident.toNat 30) = false) (htp : (s.tpOn n.val && isTp ident.toNat) = false) (hobjs : s.bus.objs = []) (hqueues : s.bus.queues = [])
    (htec : s.get (BUS_C_STAT.TEC n.val) ≤ 127) : ∃ t, exec (.canFrameRx n ident fdf brs esi dlc data sof) s = .next t ∧
    t.get (BUS_C_CNT.NOMATCH n.val) = min 65535 (s.get (BUS_C_CNT.NOMATCH n.val) + 1) ∧
    (s.get (BUS_C_STAT.REC n.val) ≤ 127 → t.get (BUS_C_STAT.REC n.val) = s.get (BUS_C_STAT.REC n.val) - 1 ∧ t.free = s.free) ∧
    (127 < s.get (BUS_C_STAT.REC n.val) → 119 ≤ t.get (BUS_C_STAT.REC n.val) ∧ t.get (BUS_C_STAT.REC n.val) ≤ 127 ∧ t.get (BUS_C_STAT.STATE n.val) = 0 ∧ (s.get (BUS_C_STAT.STATE n.val) = 1 → s.raised (251 + 6 * n.val) t)) ∧
    s.only [.free, .rcd, .cyc] ([BUS_C_CNT.NOMATCH n.val, BUS_C_STAT.REC n.val, BUS_C_STAT.STATE n.val] ++ raiseFlds (251 + 6 * n.val)) t := by
  have hst := get_state_of_live hlive
  have hlegal : (wireFrame ident fdf brs esi dlc data sof).legal = true := by
    show (!(fdf && bitAt ident.toNat 30)) = true
    rw [hremote]
    rfl
  have hengine : (s.tpOn n.val && isTp (wireFrame ident fdf brs esi dlc data sof).tidy.id) = false := by
    rcases Bool.and_eq_false_iff.1 htp with ht | ht
    · rw [ht, Bool.false_and]
    · rw [isTp_tidy (f := wireFrame ident fdf brs esi dlc data sof) ht, Bool.and_false]
  have htaken : s.frameTaken n ident fdf brs esi dlc data sof (wireFrame ident fdf brs esi dlc data sof).tidy :=
    ⟨hlive, hmode, rfl, by rw [legal_tidy wireFrame_lt]; exact hlegal, hfd, hengine⟩
  have hexec := htaken.storedOther (noObjects hobjs)
  have hrun := ran_recDown hst
  have hbus : (s.recDown n.val).bus = s.bus := hrun.only.1 .bus (by simp)
  have hcnt : (s.recDown n.val).get (BUS_C_CNT.NOMATCH n.val) = s.get (BUS_C_CNT.NOMATCH n.val) := by
    refine get_congr _ (reg_recDown hst ?_ ?_)
    · simp only [BUS_C_CNT.NOMATCH, BUS_C_CNT, BUS_C_STAT]; omega
    · simp only [BUS_C_CNT.NOMATCH, BUS_C_CNT, windowOf]; omega
  have hlow := fun h : s.get (BUS_C_STAT.REC n.val) ≤ 127 => (⟨(recDown_shows h).2, (recDown_shows h).1.only.1 .free (by simp)⟩ :
    (s.recDown n.val).get (BUS_C_STAT.REC n.val) = s.get (BUS_C_STAT.REC n.val) - 1 ∧ (s.recDown n.val).free = s.free)
  have hhigh := fun h : 127 < s.get (BUS_C_STAT.REC n.val) => (recDown_passive h hst).2
  rw [canStore_none (by rw [hbus]; exact hobjs) (by rw [hbus]; exact hqueues)] at hexec
  generalize s.recDown n.val = u at hexec hrun hcnt hlow hhigh
  have hbump : u.only [] [BUS_C_CNT.NOMATCH n.val] (u.bump (BUS_C_CNT.NOMATCH n.val) 1) := only_set u _ (Nat.le_of_ble_eq_true rfl)
  have hne : BUS_C_STAT n.val ≠ BUS_C_CNT n.val := by simp only [BUS_C_CNT, BUS_C_STAT]; omega
  have hreg : (u.bump (BUS_C_CNT.NOMATCH n.val) 1).reg (BUS_C_STAT n.val) = u.reg (BUS_C_STAT n.val) := reg_set_ne _ _ hne
  have hrec : (u.bump (BUS_C_CNT.NOMATCH n.val) 1).get (BUS_C_STAT.REC n.val) = u.get (BUS_C_STAT.REC n.val) := get_congr _ hreg
  have hstate : (u.bump (BUS_C_CNT.NOMATCH n.val) 1).get (BUS_C_STAT.STATE n.val) = u.get (BUS_C_STAT.STATE n.val) := get_congr _ hreg
  have hfree : (u.bump (BUS_C_CNT.NOMATCH n.val) 1).free = u.free := hbump.1 .free (by simp)
  have hwin : windowOf (BUS_C_CNT.NOMATCH n.val).addr ≠ 0xC1 := by simp only [BUS_C_CNT.NOMATCH, BUS_C_CNT, windowOf]; omega
  refine ⟨_, hexec, ?_, fun h => ?_, fun h => ?_, only_mono (only_seq hrun.only hbump) (by simp) (by simp +contextual [or_imp])⟩
  · rw [get_bump_self _ _ _ (Nat.le_of_ble_eq_true rfl), satTo_eq_min, hcnt]
    rfl
  · rw [hrec, hfree]
    exact hlow h
  · obtain ⟨h1, h2, h3⟩ := hhigh h
    rw [hrec, hstate]
    exact ⟨h1, h2, (h3 htec).1, fun h => raised_then ((h3 htec).2 h) hbump (window_one hwin)⟩

theorem frameInQueue (h : s.frameTaken n ident fdf brs esi dlc data sof f) (hobjs : s.bus.objs = [])
    (hhit : (s.bus.queues.find? fun e => decide (e.2.ctrl = n.val) && (((f.id % 2 ^ 30) ^^^ (e.2.qid % 2 ^ 30)) &&& (e.2.mask % 2 ^ 30)) = 0) = some (q, v))
    (hv : s.busQueue q = some v) (hctrl : v.ctrl = n.val) (hrec : s.get (BUS_C_STAT.REC n.val) ≤ 127) (hroom : s.qFill q < 256) :
    ∃ t, exec (.canFrameRx n ident fdf brs esi dlc data sof) s = .next t ∧
    memBytes t.dram (v.base + 96 * (s.get (BUS_Q_PI.PI q) % 256)) 96 = CanFrame.record f n.val (((s.busCtl n.val).fseq + 1) % 2 ^ 32) ∧
    s.dramKept (v.base + 96 * (s.get (BUS_Q_PI.PI q) % 256)) 96 t ∧ t.get (BUS_Q_PI.PI q) = (s.get (BUS_Q_PI.PI q) + 1) % 512 ∧ (v.irq = true → (v.thr = 0 ∨ s.qFill q + 1 = v.thr) → s.raised (249 + 6 * n.val) t) ∧
    s.only [.dram, .bus, .rcd, .cyc] ([BUS_Q_PI.PI q, BUS_C_STAT.REC n.val] ++ raiseFlds (249 + 6 * n.val)) t := by
  have hexec := h.storedOther (noObjects hobjs)
  have hdown := (recDown_shows hrec).1
  have hbus : (s.recDown n.val).bus = s.bus := hdown.only.1 .bus (by simp)
  obtain ⟨hrun, -, hb, hnext⟩ := rxCounted_shows hrec
  have hqreg {a : Nat} (ha : 0xCE000800 ≤ a ∧ a < 0xCE000900) : a ≠ BUS_C_STAT n.val := by
    simp only [BUS_C_STAT]
    omega
  have hfill0 : (s.recDown n.val).qFill q = s.qFill q :=
    qFill_of_regs (reg_of_addrs hdown.only (fun g hg => by rw [List.mem_singleton.1 hg]; exact hqreg (qPi_in q))) (reg_of_addrs hdown.only (fun g hg => by rw [List.mem_singleton.1 hg]; exact hqreg (qCi_in q)))
  rw [canStore_queue (by rw [hbus]; exact hobjs) (by rw [hbus]; exact hhit), if_neg (by omega), hnext] at hexec
  change exec _ s = .next ((s.rxCounted n.val).qFrame q (f.record n.val (s.nextFrame n.val))) at hexec
  have hpireg := reg_of_addrs hrun.only (a := BUS_Q_PI q) (fun g hg => by rw [List.mem_singleton.1 hg]; exact hqreg (qPi_in q))
  have hfill := qFill_of_regs hpireg (reg_of_addrs hrun.only (a := BUS_Q_CI q) (fun g hg => by rw [List.mem_singleton.1 hg]; exact hqreg (qCi_in q)))
  have hdram : (s.rxCounted n.val).dram = s.dram := hrun.only.1 .dram (by simp)
  generalize s.rxCounted n.val = u at hexec hrun hb hpireg hfill hdram
  have hv' : u.busQueue q = some v := by
    rw [State.busQueue, hb]
    exact hv
  have hpi : u.get (BUS_Q_PI.PI q) = s.get (BUS_Q_PI.PI q) := get_congr _ hpireg
  rw [qFrame_room hv' (by omega)] at hexec
  obtain ⟨hput, hbytes, hkept, hnewpi, hraised⟩ := qPut_shows hv' (length_record f n.val (s.nextFrame n.val))
  rw [hctrl] at hput hraised
  rw [hpi] at hbytes hkept hnewpi
  exact ⟨_, hexec, hbytes, fun y hy => (hkept y hy).trans (by rw [hdram]), hnewpi,
    fun hirq hthr => hrun.evt.raised_second hput.evt (by omega) (hraised hirq (by rw [hfill]; exact hthr)),
    only_mono (only_seq hrun.only hput.only) (by simp) (by simp +contextual [or_imp])⟩

theorem frameDropped (h : s.frameTaken n ident fdf brs esi dlc data sof f) (hobjs : s.bus.objs = [])
    (hhit : (s.bus.queues.find? fun e => decide (e.2.ctrl = n.val) && (((f.id % 2 ^ 30) ^^^ (e.2.qid % 2 ^ 30)) &&& (e.2.mask % 2 ^ 30)) = 0) = some (q, v))
    (hv : s.busQueue q = some v) (hctrl : v.ctrl = n.val) (hrec : s.get (BUS_C_STAT.REC n.val) ≤ 127) (hfull : 256 ≤ s.qFill q) :
    ∃ t, exec (.canFrameRx n ident fdf brs esi dlc data sof) s = .next t ∧ t.get (BUS_Q_STAT.Q_DROP q) = min 65535 (s.get (BUS_Q_STAT.Q_DROP q) + 1) ∧
    bitAt (t.get (BUS_C_ALERT.ALERT n.val)) 2 = true ∧ (bitAt (s.get (BUS_C_ALERT.ALERT n.val)) 2 = false → s.raised (253 + 6 * n.val) t) ∧
    s.only [.rcd, .cyc] ([BUS_Q_STAT.Q_DROP q, BUS_C_STAT.REC n.val, ⟨BUS_C_ALERT n.val, 2, 1⟩] ++ raiseFlds (253 + 6 * n.val)) t := by
  have hexec := h.storedOther (noObjects hobjs)
  have hdown := (recDown_shows hrec).1
  have hbus : (s.recDown n.val).bus = s.bus := hdown.only.1 .bus (by simp)
  have hqreg {a : Nat} (ha : 0xCE000800 ≤ a ∧ a < 0xCE000900) : a ≠ BUS_C_STAT n.val := by
    simp only [BUS_C_STAT]
    omega
  have hqstat : 0xCE000800 ≤ BUS_Q_STAT q ∧ BUS_Q_STAT q < 0xCE000900 := by have := qStat_in q; omega
  have hfill : (s.recDown n.val).qFill q = s.qFill q :=
    qFill_of_regs (reg_of_addrs hdown.only (fun g hg => by rw [List.mem_singleton.1 hg]; exact hqreg (qPi_in q))) (reg_of_addrs hdown.only (fun g hg => by rw [List.mem_singleton.1 hg]; exact hqreg (qCi_in q)))
  rw [canStore_queue (by rw [hbus]; exact hobjs) (by rw [hbus]; exact hhit), if_pos (by omega)] at hexec
  have hv' : (s.recDown n.val).busQueue q = some v := by
    rw [State.busQueue, hbus]
    exact hv
  rw [qFrame_full hv' (by omega), hctrl] at hexec
  have hdrop : (s.recDown n.val).get (BUS_Q_STAT.Q_DROP q) = s.get (BUS_Q_STAT.Q_DROP q) := get_congr _ (reg_of_addrs hdown.only (fun g hg => by rw [List.mem_singleton.1 hg]; exact hqreg hqstat))
  have halert : (s.recDown n.val).get (BUS_C_ALERT.ALERT n.val) = s.get (BUS_C_ALERT.ALERT n.val) :=
    get_congr _ (reg_of_addrs hdown.only (fun g hg => by rw [List.mem_singleton.1 hg]; exact (ctlStat_ne_alert n.val n.val).symm))
  generalize s.recDown n.val = u at hexec hdown hdrop halert
  have hset := only_set u (f := BUS_Q_STAT.Q_DROP q) (satTo (2 ^ 16 - 1) (u.get (BUS_Q_STAT.Q_DROP q) + 1)) (Nat.le_of_ble_eq_true rfl)
  change u.only [] [BUS_Q_STAT.Q_DROP q] (u.bump (BUS_Q_STAT.Q_DROP q) 1) at hset
  have hcount : (u.bump (BUS_Q_STAT.Q_DROP q) 1).get (BUS_Q_STAT.Q_DROP q) = min 65535 (s.get (BUS_Q_STAT.Q_DROP q) + 1) := by
    rw [get_bump_self _ _ _ (Nat.le_of_ble_eq_true rfl), satTo_eq_min, hdrop]
    rfl
  have hne : BUS_C_ALERT n.val ≠ BUS_Q_STAT q := by
    have := qStat_in q
    simp only [BUS_C_ALERT]
    omega
  have halert' : (u.bump (BUS_Q_STAT.Q_DROP q) 1).get (BUS_C_ALERT.ALERT n.val) = s.get (BUS_C_ALERT.ALERT n.val) := (get_congr _ (reg_set_ne _ _ hne)).trans halert
  have hall := only_seq hdown.only hset
  generalize u.bump (BUS_Q_STAT.Q_DROP q) 1 = w at hexec hset hcount halert' hall
  obtain ⟨honly, hbit, hraised, -⟩ := canAlert_shows (b := 2) (by decide) n.val w
  have hkeep : (w.canAlert n.val 2).get (BUS_Q_STAT.Q_DROP q) = w.get (BUS_Q_STAT.Q_DROP q) :=
    honly.2.1 _ fun g hg => (List.mem_cons.1 hg).elim (fun h => h ▸ .inl hne.symm) (apart_raise (window_qStat q) _ g)
  have hwin : ∀ g ∈ [BUS_C_STAT.REC n.val] ++ [BUS_Q_STAT.Q_DROP q], windowOf g.addr ≠ 0xC1 := by
    intro g hg
    rcases List.mem_append.1 hg with hg | hg
    · exact window_one (window_ctlStat n.val) g hg
    · exact window_one (window_qStat q) g hg
  exact ⟨_, hexec, hkeep.trans hcount, hbit, fun h => raised_of_only hall (by simp) hwin (hraised (by rw [halert']; exact h)),
    only_mono (only_seq hall honly) (by simp) (by simp +contextual [or_imp, alertBit])⟩

end Received

end Sys2Proof.Machine
end

section
/-! PROOFS. YLD: a lateness (R422), as BUS, INP and FEN meet it: a layer for the statements of chapters 19 and 20. -/

namespace Sys2Proof.Machine

section Late
variable {s : State}

/-- The fields that a lateness of YLD can write. -/
def lateFlds : List Fld := YLD_CNT.LATE :: SYS_DET_STATUS.YLD_LATE :: firstFlds ++ raiseFlds 242

theorem isViol_yldLate : IsViol SYS_DET_STATUS.YLD_LATE := ⟨rfl, rfl, by decide⟩

/-- What a lateness leaves. -/
theorem yldLate_shows (s : State) : Ran [.rcd, .cyc] lateFlds s s.yldLate ∧ s.yldLate.get YLD_CNT.LATE = min 65535 (s.get YLD_CNT.LATE + 1) ∧
    s.yldLate.getB SYS_DET_STATUS.YLD_LATE = true ∧ s.raised 242 s.yldLate := by
  have hrun := ran_set s (f := YLD_CNT.LATE) (satTo (2 ^ 16 - 1) (s.get YLD_CNT.LATE + 1)) (by decide) (by decide)
  change Ran [] [YLD_CNT.LATE] s (s.bump YLD_CNT.LATE 1) at hrun
  have hcount : (s.bump YLD_CNT.LATE 1).get YLD_CNT.LATE = min 65535 (s.get YLD_CNT.LATE + 1) := by
    rw [get_bump_self _ _ _ (by decide), satTo_eq_min]
    rfl
  unfold State.yldLate
  generalize s.bump YLD_CNT.LATE 1 = u at hrun hcount
  obtain ⟨hviol, hbit⟩ := detViol_shows isViol_yldLate u
  have hkeep : (u.detViol SYS_DET_STATUS.YLD_LATE).get YLD_CNT.LATE = u.get YLD_CNT.LATE := hviol.only.get rfl
  generalize u.detViol SYS_DET_STATUS.YLD_LATE = v at hviol hbit hkeep
  have hboth := hrun.seq hviol
  exact ⟨(hboth.seq (ran_raise v 242)).mono (by simp) (by simp +contextual [lateFlds]),
    ((get_raise_outside _ _ (by decide)).trans hkeep).trans hcount, (getB_raise_outside _ _ (by decide)).trans hbit, hboth.evt.raised_raise (by decide)⟩

theorem ran_late_if (b : Bool) (s : State) : Ran [.rcd, .cyc] lateFlds s (if b then s.yldLate else s) := by
  split
  · exact (yldLate_shows s).1
  · exact .refl ..

def State.withYld (x : YldState) (s : State) : State := { s with yld := x }

theorem only_withYld (x : YldState) (s : State) : s.only [.yld] [] (s.withYld x) :=
  ⟨fun p hp => by cases p <;> simp [State.same, State.withYld] at hp ⊢, fun _ _ => rfl, rfl, rfl⟩

theorem ran_withYld (x : YldState) (s : State) : Ran [.yld] [] s (s.withYld x) := ran_of_only (only_withYld x s) (by simp) (by simp)

/-- A moisture frame of an object (R436). -/
theorem ran_yldMoist (sof : Nat) (data : List Byte) (s : State) : Ran [.yld, .rcd, .cyc] lateFlds s (s.yldMoist sof data) := by
  unfold State.yldMoist
  split
  · exact .refl ..
  · exact ((ran_withYld _ s).seq (ran_late_if _ _)).mono (by simp) (by simp)

end Late

end Sys2Proof.Machine
end

section
/-! PROOFS. BUS: a frame that its object had to lose one for (R435): for the statement of chapter 20 on frames. -/

namespace Sys2Proof.Machine

section Lost
variable {s u : State} {n : Fin 8} {ident : BitVec 31} {fdf brs esi : Bool} {dlc : Fin 16} {data : List Byte} {sof x : Nat} {f : CanFrame} {o : CanObj} {bytes : List Byte}

theorem isFlag_lost (x : Nat) : IsFlag (BUS_OBJ_STAT.LOST x) := ⟨rfl, Nat.le_of_ble_eq_true rfl, window_objStat x⟩

/-- What the loss of a frame leaves. -/
theorem objLost_shows (hnew : s.getB (BUS_OBJ_STAT.NEW x) = true) (hlost : s.getB (BUS_OBJ_STAT.LOST x) = false)
    (halert : bitAt (s.get (BUS_C_ALERT.ALERT o.ctrl)) 1 = false) :
    Ran [.rcd, .cyc] (BUS_OBJ_STAT.LOST x :: alertBit o.ctrl 1 :: raiseFlds (253 + 6 * o.ctrl)) s (s.objLost x o) ∧ (s.objLost x o).getB (BUS_OBJ_STAT.LOST x) = true ∧
      bitAt ((s.objLost x o).get (BUS_C_ALERT.ALERT o.ctrl)) 1 = true ∧ s.raised (253 + 6 * o.ctrl) (s.objLost x o) := by
  have heq : s.objLost x o = (s.canAlert o.ctrl 1).setB (BUS_OBJ_STAT.LOST x) true := by
    unfold State.objLost
    rw [if_pos hnew, if_neg (by rw [hlost]; decide)]
  obtain ⟨honly, hbit, hraised, -⟩ := canAlert_shows (b := 1) (by decide) o.ctrl s
  have hrun := ran_canAlert (b := 1) (by decide) o.ctrl s
  rw [heq]
  generalize s.canAlert o.ctrl 1 = v at honly hbit hraised hrun
  have hset := only_setB_flag (isFlag_lost x) v true
  have hne : BUS_C_ALERT o.ctrl ≠ BUS_OBJ_STAT x := by
    have := objStat_in x
    simp only [BUS_C_ALERT]
    omega
  refine ⟨(hrun.seq (ran_of_only hset (by simp) (window_one (window_objStat x)))).mono (by simp) (by simp +contextual [or_imp]),
    getB_setB_self _ _ _ (Nat.le_of_ble_eq_true rfl) rfl, ?_, raised_then (hraised halert) hset (window_one (window_objStat x))⟩
  rw [show (v.setB (BUS_OBJ_STAT.LOST x) true).get (BUS_C_ALERT.ALERT o.ctrl) = v.get (BUS_C_ALERT.ALERT o.ctrl) from get_congr _ (reg_setB_ne _ _ hne)]
  exact hbit

/-- The fields that the queue of an object can write for a frame. -/
def objQueueFlds (s : State) (o : CanObj) : List Fld := ((o.queue.bind fun q => (s.busQueue q).map fun v => queueFlds q v.ctrl).getD [])

theorem qFrame_absent {q : Nat} (h : s.busQueue q = none) : s.qFrame q bytes = s := by
  unfold State.qFrame
  rw [h]

theorem ran_objQueue (o : CanObj) (bytes : List Byte) (s : State) : Ran [.dram, .rcd, .cyc] (objQueueFlds s o) s (s.objQueue o bytes) := by
  cases hq : o.queue with
  | none =>
    rw [objQueue_none hq]
    exact .refl ..
  | some q =>
    rw [objQueue_some hq]
    cases hv : s.busQueue q with
    | none =>
      rw [qFrame_absent hv]
      exact .refl ..
    | some v =>
      refine (ran_qFrame hv bytes).mono (fun _ h => h) ?_
      simp [objQueueFlds, hq, hv]

/-- A queue's fields keep an object's status, and set no bit of an alert but bit 2. -/
theorem apart_objQueueFlds {g : Fld} (hq : ∀ q v, g.apart (BUS_Q_PI.PI q) ∧ g.apart (BUS_Q_STAT.Q_DROP q) ∧ g.apart (alertBit v 2)) (hwin : windowOf g.addr ≠ 0xC1)
    (s : State) (o : CanObj) : ∀ f ∈ objQueueFlds s o, g.apart f := by
  intro f hf
  cases hqu : o.queue with
  | none => simp [objQueueFlds, hqu] at hf
  | some q =>
    cases hv : s.busQueue q with
    | none => simp [objQueueFlds, hqu, hv] at hf
    | some v =>
      simp only [objQueueFlds, hqu, hv, Option.bind_some, Option.map_some, Option.getD_some, queueFlds] at hf
      obtain ⟨h1, h2, h3⟩ := hq q v.ctrl
      refine apart_raised (apart_raised ?_ hwin _) hwin _ f hf
      simp only [List.mem_cons, List.not_mem_nil, or_false, forall_eq_or_imp, forall_eq]
      exact ⟨h1, h2, h3⟩

theorem apart_lateFlds {g : Fld} (h : windowOf g.addr = 0xCE) : ∀ f ∈ lateFlds, g.apart f := by
  refine apart_of_window fun f hf => ?_
  have hall : ∀ f ∈ lateFlds, windowOf f.addr ≠ 0xCE := windows_all rfl
  rw [h]
  exact hall f hf

theorem windowCe_objStat (x : Nat) : windowOf (BUS_OBJ_STAT x) = 0xCE := by
  have := objStat_in x
  simp only [windowOf]
  omega

theorem objStat_apart_queue (x q v lo w : Nat) :
    (⟨BUS_OBJ_STAT x, lo, w⟩ : Fld).apart (BUS_Q_PI.PI q) ∧ (⟨BUS_OBJ_STAT x, lo, w⟩ : Fld).apart (BUS_Q_STAT.Q_DROP q) ∧ (⟨BUS_OBJ_STAT x, lo, w⟩ : Fld).apart (alertBit v 2) := by
  have hx := objStat_in x
  have h1 := qPi_in q
  have h2 := qStat_in q
  refine ⟨.inl ?_, .inl ?_, .inl ?_⟩
  · show BUS_OBJ_STAT x ≠ BUS_Q_PI q
    omega
  · show BUS_OBJ_STAT x ≠ BUS_Q_STAT q
    omega
  · show BUS_OBJ_STAT x ≠ BUS_C_ALERT v
    simp only [BUS_C_ALERT]
    omega

theorem alert_apart_queue (n q v : Nat) :
    (alertBit n 1).apart (BUS_Q_PI.PI q) ∧ (alertBit n 1).apart (BUS_Q_STAT.Q_DROP q) ∧ (alertBit n 1).apart (alertBit v 2) := by
  have h1 := qPi_in q
  have h2 := qStat_in q
  refine ⟨.inl ?_, .inl ?_, .inr (.inl (Nat.le_of_ble_eq_true rfl))⟩
  · show BUS_C_ALERT n ≠ BUS_Q_PI q
    simp only [BUS_C_ALERT, BUS_Q_PI]
    omega
  · show BUS_C_ALERT n ≠ BUS_Q_STAT q
    simp only [BUS_C_ALERT, BUS_Q_STAT]
    omega

/-- An object's store of a frame behind the loss of one. -/
theorem objStore_lost (hn : o.ctrl < 8) (hnew : s.getB (BUS_OBJ_STAT.NEW x) = true) (hlost : s.getB (BUS_OBJ_STAT.LOST x) = false)
    (halert : bitAt (s.get (BUS_C_ALERT.ALERT o.ctrl)) 1 = false) :
    (s.objStore x o f bytes).getB (BUS_OBJ_STAT.NEW x) = true ∧ (s.objStore x o f bytes).getB (BUS_OBJ_STAT.LOST x) = true ∧
      bitAt ((s.objStore x o f bytes).get (BUS_C_ALERT.ALERT o.ctrl)) 1 = true ∧ s.raised (253 + 6 * o.ctrl) (s.objStore x o f bytes) ∧
      EvtRun s (s.objStore x o f bytes) ∧ (o.queue = none → (s.objStore x o f bytes).dram = s.dram) := by
  obtain ⟨hloss, hlost', halert', hraised⟩ := objLost_shows hnew hlost halert
  rw [objStore_eq, State.objRecorded]
  simp only [← getB_alertBit (b := 1) (by decide)] at halert' ⊢
  have hdram : (s.objLost x o).dram = s.dram := hloss.only.1 .dram (by simp)
  generalize s.objLost x o = v at hloss hlost' halert' hraised hdram
  obtain ⟨hrec, hnew', -⟩ := recordNew_shows x bytes v
  have hlost2 : (v.recordNew x bytes).getB (BUS_OBJ_STAT.LOST x) = true := by
    refine (getB_of_only hrec.only fun g hg => ?_).trans hlost'
    rcases List.mem_cons.1 hg with rfl | hg
    · exact .inr (.inr (Nat.le_of_ble_eq_true rfl))
    · exact .inl (recordFlds_in g hg).2.2.symm
  have halert2 : (v.recordNew x bytes).getB (alertBit o.ctrl 1) = true := by
    refine (getB_of_only hrec.only fun g hg => .inl ?_).trans halert'
    have hx := objStat_in x
    show BUS_C_ALERT o.ctrl ≠ _
    rcases List.mem_cons.1 hg with rfl | hg
    · show BUS_C_ALERT o.ctrl ≠ BUS_OBJ_STAT x
      simp only [BUS_C_ALERT]
      omega
    · have := recordFlds_in g hg
      simp only [BUS_C_ALERT]
      omega
  have hdram2 : (v.recordNew x bytes).dram = s.dram := (hrec.only.1 .dram (by simp)).trans hdram
  generalize v.recordNew x bytes = w at hrec hnew' hlost2 halert2 hdram2
  have hqueue := ran_objQueue o bytes w
  have hnew3 := (getB_of_only hqueue.only (apart_objQueueFlds (fun q m => objStat_apart_queue x q m 0 1) (window_objStat x) w o)).trans hnew'
  have hlost3 := (getB_of_only hqueue.only (apart_objQueueFlds (fun q m => objStat_apart_queue x q m 1 1) (window_objStat x) w o)).trans hlost2
  have halert3 := (getB_of_only hqueue.only (apart_objQueueFlds (fun q m => alert_apart_queue o.ctrl q m) (window_ctlAlert o.ctrl) w o)).trans halert2
  have hdram3 : o.queue = none → (w.objQueue o bytes).dram = s.dram := fun hq => by rw [objQueue_none hq]; exact hdram2
  generalize w.objQueue o bytes = y at hqueue hnew3 hlost3 halert3 hdram3
  have hevt3 : EvtRun s y := hloss.evt.trans (hrec.evt.trans hqueue.evt)
  have hraised3 : s.raised (253 + 6 * o.ctrl) y := (hrec.evt.trans hqueue.evt).raised_first hloss.evt (by omega) hraised
  split
  · have hmoist := ran_yldMoist f.sof (f.data.take f.len) y
    have hwin : windowOf (BUS_C_ALERT o.ctrl) = 0xCE := by simp only [BUS_C_ALERT, windowOf]; omega
    exact ⟨(getB_of_only hmoist.only (apart_lateFlds (windowCe_objStat x))).trans hnew3, (getB_of_only hmoist.only (apart_lateFlds (windowCe_objStat x))).trans hlost3,
      (getB_of_only hmoist.only (apart_lateFlds hwin)).trans halert3,
      hmoist.evt.raised_first hevt3 (by omega) hraised3, hevt3.trans hmoist.evt, fun hq => (hmoist.only.1 .dram (by simp)).trans (hdram3 hq)⟩
  · exact ⟨hnew3, hlost3, halert3, hraised3, hevt3, hdram3⟩

/-- What reaches the object, before it. -/
theorem ran_beforeStore (hst : s.get (BUS_C_STAT.STATE n.val) < 2) (f : CanFrame) :
    Ran [.free, .bus, .rcd, .cyc] ([BUS_C_STAT.REC n.val, BUS_C_STAT.STATE n.val, alertBit n.val 7] ++ raiseFlds (251 + 6 * n.val) ++ raiseFlds (253 + 6 * n.val)) s
      (((s.recDown n.val).ownRx n.val f).frameCounted n.val) := by
  have h := ((ran_recDown hst).seq (ran_ownRx n.val f (s.recDown n.val))).seq
    (ran_of_only (only_setCtl n.val { ((s.recDown n.val).ownRx n.val f).busCtl n.val with fseq := ((s.recDown n.val).ownRx n.val f).nextFrame n.val } _) (by simp) (by simp))
  exact h.mono (by simp) (by simp +contextual [or_imp])

theorem frameLost (h : s.frameTaken n ident fdf brs esi dlc data sof f)
    (hhit : (s.bus.objs.find? fun e => decide (e.2.ctrl = n.val) && !e.2.tx && idKey e.2.id = idKey f.id) = some (x, o)) (hn : o.ctrl < 8)
    (hnew : s.getB (BUS_OBJ_STAT.NEW x) = true) (hlost : s.getB (BUS_OBJ_STAT.LOST x) = false) (halert : bitAt (s.get (BUS_C_ALERT.ALERT o.ctrl)) 1 = false) :
    ∃ t, exec (.canFrameRx n ident fdf brs esi dlc data sof) s = .next t ∧
    t.getB (BUS_OBJ_STAT.NEW x) = true ∧ t.getB (BUS_OBJ_STAT.LOST x) = true ∧ bitAt (t.get (BUS_C_ALERT.ALERT o.ctrl)) 1 = true ∧ s.raised (253 + 6 * o.ctrl) t ∧
    (o.queue = none → t.dram = s.dram) ∧ s.within [.dram, .free, .cyc, .yld, .bus, .rcd] (some [0xC0, 0xC1, 0xCD, 0xCE]) t := by
  have hctrl : o.ctrl = n.val := by
    have := List.find?_some hhit
    simp only [Bool.and_eq_true, decide_eq_true_eq] at this
    exact this.1.1
  have hexec := h.stored
  have hst := get_state_of_live h.live
  have hupd : Upd [.dram, .free, .cyc, .yld, .bus, .rcd] (some [0xC0, 0xC1, 0xCD, 0xCE]) s (((s.recDown n.val).ownRx n.val f).canStore n.val f) :=
    (State_canStore_mut ..).comp (by decide) (by decide) ((State_ownRx_mut ..).comp (by decide) (by decide) ((State_recDown_mut n.val s).mono (by decide) (by decide)))
  have hbus : ((s.recDown n.val).ownRx n.val f).bus = s.bus := ((ran_ownRx n.val f _).only.1 .bus (by simp)).trans ((ran_recDown hst).only.1 .bus (by simp))
  rw [canStore_object (by rw [hbus]; exact hhit)] at hexec hupd
  have hrun := ran_beforeStore hst f
  generalize ((s.recDown n.val).ownRx n.val f).nextFrame n.val = k at hexec hupd
  generalize ((s.recDown n.val).ownRx n.val f).frameCounted n.val = v at hexec hupd hrun
  have hobj (lo w : Nat) : ∀ g ∈ [BUS_C_STAT.REC n.val, BUS_C_STAT.STATE n.val, alertBit n.val 7] ++ raiseFlds (251 + 6 * n.val) ++ raiseFlds (253 + 6 * n.val),
      (⟨BUS_OBJ_STAT x, lo, w⟩ : Fld).apart g := by
    refine apart_raised (apart_raised ?_ (window_objStat x) _) (window_objStat x) _
    have hx := objStat_in x
    have hca : BUS_OBJ_STAT x ≠ BUS_C_ALERT n.val := by simp only [BUS_C_ALERT]; omega
    simp only [List.mem_cons, List.not_mem_nil, or_false, forall_eq_or_imp, forall_eq]
    exact ⟨.inl (objStat_ne_ctlStat x n.val), .inl (objStat_ne_ctlStat x n.val), .inl hca⟩
  have hbit : ∀ g ∈ [BUS_C_STAT.REC n.val, BUS_C_STAT.STATE n.val, alertBit n.val 7] ++ raiseFlds (251 + 6 * n.val) ++ raiseFlds (253 + 6 * n.val),
      (alertBit n.val 1).apart g := by
    refine apart_raised (apart_raised ?_ (window_ctlAlert n.val) _) (window_ctlAlert n.val) _
    simp only [List.mem_cons, List.not_mem_nil, or_false, forall_eq_or_imp, forall_eq]
    exact ⟨.inl (ctlStat_ne_alert _ _).symm, .inl (ctlStat_ne_alert _ _).symm, .inr (.inl (Nat.le_of_ble_eq_true rfl))⟩
  have halert' : bitAt (v.get (BUS_C_ALERT.ALERT o.ctrl)) 1 = false := by
    rw [← getB_alertBit (b := 1) (by decide)] at halert ⊢
    rw [hctrl] at halert ⊢
    exact (getB_of_only hrun.only hbit).trans halert
  obtain ⟨h1, h2, h3, h4, hevt, h5⟩ := objStore_lost (f := f) (bytes := f.record n.val k) hn ((getB_of_only hrun.only (hobj 0 1)).trans hnew)
    ((getB_of_only hrun.only (hobj 1 1)).trans hlost) halert'
  exact ⟨_, hexec, h1, h2, h3, hrun.evt.raised_second hevt (by omega) h4, fun hq => (h5 hq).trans (hrun.only.1 .dram (by simp)), within_of hupd⟩

end Lost

end Sys2Proof.Machine
end

section
/-! PROOFS. Registers that go to their reset values (R69, R70) as a frame: a layer for the statements on objects, queues and sources. -/

namespace Sys2Proof.Machine

section Wiped
variable {s u : State} {a n b x : Nat} {ps : List Comp} {fs : List Fld}

/-- The words from `a` to `a + n`. -/
def regionFlds (a n : Nat) : List Fld := (List.range n).map fun k => wordAt (a + k)

theorem mem_regionFlds {f : Fld} (h : f ∈ regionFlds a n) : a ≤ f.addr ∧ f.addr < a + n := by
  obtain ⟨k, hk, rfl⟩ := List.mem_map.1 h
  have := List.mem_range.1 hk
  simp only [wordAt]
  omega

theorem wordAt_region (hl : a ≤ b) (hu : b < a + n) : wordAt b ∈ regionFlds a n :=
  List.mem_map.2 ⟨b - a, List.mem_range.2 (by omega), by rw [Nat.add_sub_cancel' hl]⟩

/-- A field beside its whole register has no bits. -/
theorem get_apart_wordAt {g : Fld} (h : g.apart (wordAt g.addr)) (s t : State) : t.get g = s.get g := by
  have hone : ∀ v : State, v.get g = (v.setReg g.addr 0#32).get g := fun v => (get_setReg_apart v g.addr g 0#32 h).symm
  rw [hone t, hone s, State.get, State.get, reg_setReg_self, reg_setReg_self]

theorem only_wipeRegs (a n : Nat) (s : State) : s.only [.latch] (regionFlds a n) (s.wipeRegs a n) := by
  refine ⟨fun p hp => by cases p <;> simp [State.same, State.wipeRegs] at hp ⊢, fun g hg => ?_, rfl, rfl⟩
  by_cases hin : a ≤ g.addr ∧ g.addr < a + n
  · exact get_apart_wordAt (hg _ (wordAt_region hin.1 hin.2)) s _
  · exact get_congr _ (by rw [reg_wipeRegs, if_neg hin])

/-- A word of a wiped region, written later. -/
theorem only_then_region (h : s.only ps fs u) {f : Fld} (v : Nat) (hf : ∀ g ∈ regionFlds a n, g ∈ fs) (hl : a ≤ f.addr) (hu : f.addr < a + n)
    (hw : f.lo + f.width ≤ 32) : s.only ps fs (u.set f v) := only_then_word h v (hf _ (wordAt_region hl hu)) hw

theorem offRing_region {c r : Nat} (h : a + n ≤ ringG c r ∨ ringG c r + 0x20 ≤ a) : offRing c r (regionFlds a n) := fun f hf => by
  have := mem_regionFlds hf
  omega

end Wiped

end Sys2Proof.Machine
end

section
/-! PROOFS. BUS: objects and queues are made and destroyed (R113, R433, R437, Table 20-4), and the statement of chapter 20 on frames. -/

namespace Sys2Proof.Machine

/-! ### The end of a command of BUS -/

section Ends
variable {s u : State} {ps : List Comp} {fs : List Fld} {r code h opcode a : Nat} {e : Entry}

theorem ringG_bus (r : Nat) : 0xCE000100 ≤ ringG 0x0E r ∧ ringG 0x0E r + 0x20 ≤ 0xCE000600 := by
  have hbase : blkBase 0x0E = 0xCE000000 := rfl
  simp only [ringG, hbase]
  split <;> omega

def busShowFlds : List Fld := [BUS_STATUS.OBJECTS, BUS_STATUS.SESSIONS, BUS_STATUS.QUEUES]

theorem only_busShow (s : State) : s.only [] busShowFlds s.busShow :=
  only_mono (only_seq (only_seq (only_set s _ (by decide)) (only_set _ _ (by decide))) (only_set _ _ (by decide))) (by simp) (by simp [busShowFlds])

theorem offRing_busShowFlds (r : Nat) : offRing 0x0E r busShowFlds := fun f hf => by
  have hall : ∀ f ∈ busShowFlds, f.addr < 0xCE000100 := by decide
  have := hall f hf
  have := ringG_bus r
  omega

theorem reg_bus_completeId {id reason : Nat} (hr : r < 8) (hin : 0xCE000600 ≤ a ∧ a < 0xCF000000) : (u.completeId 0x0E r id reason h).reg a = u.reg a := by
  have := cringPi_bus r
  refine reg_of_get (get_completeId (g := wordAt a) _ _ hr (apart_complFlds_of_addr ?_ ?_ ?_))
  · show a ≠ _
    omega
  · simp only [wordAt, FEN_JOB_PEND]; omega
  · simp only [wordAt, windowOf]; omega

/-- How a command of BUS ends behind its work. -/
theorem busEnds (hready : s.ready 0x0E r 0 e) (hc : 0x0E * 256 + code < 2 ^ 16) (hv : (s.entryTaken 0x0E r opcode e).only ps fs u)
    (hp : .ltc ∉ ps ∧ .rings ∉ ps ∧ .dram ∉ ps) (hoff : offRing 0x0E r fs) :
    let t := u.completeId 0x0E r (s.cmdOf 0x0E r e).id (0x0E * 256 + code) h
    s.completed 0x0E r e code h t ∧ s.dramKept (s.complAddr 0x0E r) 16 t ∧ s.only ([.dram, .rings, .rcd, .cyc] ++ ps) (complFlds 0x0E r ++ fs) t ∧
      (∀ a, 0xCE000600 ≤ a → a < 0xCF000000 → t.reg a = u.reg a) ∧ t.bus = u.bus ∧ t.gens = u.gens := by
  have hr := ring_lt_of_ready hready
  obtain ⟨hdone, hkept, honly⟩ := ends_behind (code := code) (h := h) hr (idle_of_ready hready) hc hv hp.1 hp.2.1 hp.2.2 hoff
  exact ⟨hdone, hkept, honly, fun a hl hu => reg_bus_completeId hr ⟨hl, hu⟩, same_completeId _ _ hr (c := .bus) (by simp), same_completeId _ _ hr (c := .gens) (by simp)⟩

end Ends

/-! ### OBJ_CREATE -/

section Objects
variable {s u : State} {x n dir id : Nat} {o : CanObj} {e : Entry} {c : Cmd}

theorem objRegion (x : Nat) : 0xCE100000 ≤ BUS_OBJ_STAT x ∧ BUS_OBJ_STAT x + 0x80 ≤ 0xCE140000 := by
  simp only [BUS_OBJ_STAT]
  omega

theorem offRing_objRegion (x r : Nat) : offRing 0x0E r (regionFlds (BUS_OBJ_STAT x) 0x80) := by
  have := objRegion x
  have := ringG_bus r
  exact offRing_region (by omega)

theorem objRec_in (x j : Nat) : BUS_OBJ_STAT x ≤ BUS_OBJ_REC x j ∧ BUS_OBJ_REC x j < BUS_OBJ_STAT x + 0x80 := by
  simp only [BUS_OBJ_STAT, BUS_OBJ_REC]
  omega

/-- The identifier of a transmit object stands in its record. -/
def State.objNamed (x n id dir : Nat) (s : State) : State :=
  if dir = 1 then (s.setReg (BUS_OBJ_REC x 0) (BitVec.ofNat 32 id)).setReg (BUS_OBJ_REC x 2) (BitVec.ofNat 32 n) else s

/-- The status of a new object. -/
def State.objShown (x n dir : Nat) (s : State) : State := ((s.setB (BUS_OBJ_STAT.LIVE x) true).set (BUS_OBJ_STAT.DIR x) dir).set (BUS_OBJ_STAT.CTRL x) n

/-- A new object, before its registers. -/
def State.objPlaced (x : Nat) (o : CanObj) (s : State) : State := ((s.wipeRegs (BUS_OBJ_STAT x) 0x80).advGen 7 x).setObj x o

def State.objMade (x : Nat) (o : CanObj) (id dir : Nat) (s : State) : State := ((s.objPlaced x o).objShown x o.ctrl dir).objNamed x o.ctrl id dir

/-- The object that an OBJ_CREATE asks for. -/
def Cmd.obj (c : Cmd) : CanObj :=
  { ctrl := c.arg 16 1, tx := decide (c.arg 17 1 = 1), irq := bitAt (c.arg 18 1) 0, single := bitAt (c.arg 18 1) 1, id := c.arg 20 4,
    queue := if c.arg 24 4 = 0 then none else some (hIndex (c.arg 24 4)) }

/-- The queue named by an OBJ_CREATE does not stand. -/
def State.objBadQueue (s : State) (c : Cmd) : Bool := decide (c.arg 24 4 ≠ 0) && (s.checkHandle 8 (fun i => (s.busQueue i).isSome) (c.arg 24 4)).isSome

/-- The ranges of an OBJ_CREATE. -/
def Cmd.objRanges (c : Cmd) : Bool :=
  decide (7 < c.arg 16 1) || decide (1 < c.arg 17 1) || decide (3 < c.arg 18 1) || (decide (c.arg 17 1 = 0) && bitAt (c.arg 18 1) 1) || bitAt (c.arg 20 4) 31
    || (!bitAt (c.arg 20 4) 29 && decide (c.arg 20 4 % 2 ^ 29 ≥ 2 ^ 11)) || (decide (c.arg 17 1 = 1) && decide (c.arg 24 4 ≠ 0))

theorem opObjCreate_eq (hx : tfree s.bus.objs 2048 = some x) : opObjCreate c s =
    if s.objBadQueue c then c.failed 0x03 s
    else if c.objRanges then c.failed 0x05 s
    else if !s.canOn (c.arg 16 1) || (decide (c.arg 24 4 ≠ 0) && (s.busQueue (hIndex (c.arg 24 4))).any fun v => decide (v.ctrl ≠ c.arg 16 1)) then c.failed 0x08 s
    else if s.bus.objs.any (fun e => decide (e.2.ctrl = c.arg 16 1) && ((e.2.tx = true) = (c.arg 17 1 = 1)) && idKey e.2.id = idKey (c.arg 20 4)) then c.failed 0x20 s
    else c.created ((s.objMade x c.obj (c.arg 20 4) (c.arg 17 1)).handle 7 x) (s.objMade x c.obj (c.arg 20 4) (c.arg 17 1)).busShow := by
  unfold opObjCreate
  simp only [hx]
  rfl

theorem only_objNamed (h : s.only [.latch, .gens, .bus] (regionFlds (BUS_OBJ_STAT x) 0x80) u) :
    s.only [.latch, .gens, .bus] (regionFlds (BUS_OBJ_STAT x) 0x80) (u.objNamed x n id dir) := by
  unfold State.objNamed
  have hrec (j : Nat) := wordAt_region (objRec_in x j).1 (objRec_in x j).2
  split
  · exact only_then_setReg (only_then_setReg h _ (hrec 0)) _ (hrec 2)
  · exact h

theorem only_objMade (x : Nat) (o : CanObj) (id dir : Nat) (s : State) : s.only [.latch, .gens, .bus] (regionFlds (BUS_OBJ_STAT x) 0x80) (s.objMade x o id dir) := by
  have hplaced : s.only [.latch, .gens, .bus] (regionFlds (BUS_OBJ_STAT x) 0x80) (s.objPlaced x o) :=
    only_mono (only_seq (only_seq (only_wipeRegs (BUS_OBJ_STAT x) 0x80 s) (only_advGen 7 x _)) (only_setObj x o _)) (by simp) (by simp)
  exact only_objNamed (only_then_region (only_then_region (only_then_region hplaced (f := BUS_OBJ_STAT.LIVE x) _ (fun _ h => h) (Nat.le_refl _) (Nat.lt_add_of_pos_right (by decide))
    (Nat.le_of_ble_eq_true rfl)) (f := BUS_OBJ_STAT.DIR x) _ (fun _ h => h) (Nat.le_refl _) (Nat.lt_add_of_pos_right (by decide)) (Nat.le_of_ble_eq_true rfl))
    (f := BUS_OBJ_STAT.CTRL x) _ (fun _ h => h) (Nat.le_refl _) (Nat.lt_add_of_pos_right (by decide)) (Nat.le_of_ble_eq_true rfl))

theorem stat_objPlaced (x : Nat) (o : CanObj) (s : State) : (s.objPlaced x o).reg (BUS_OBJ_STAT x) = 0#32 := by
  have hwipe : (s.wipeRegs (BUS_OBJ_STAT x) 0x80).reg (BUS_OBJ_STAT x) = 0#32 := by
    rw [reg_wipeRegs, if_pos (by omega), resetOf_objStat]
  exact hwipe

/-- What the status of a new object shows. -/
theorem objShown_shows (h : s.reg (BUS_OBJ_STAT x) = 0#32) (hn : n ≤ 7) (hdir : dir ≤ 1) :
    (s.objShown x n dir).getB (BUS_OBJ_STAT.LIVE x) = true ∧ (s.objShown x n dir).get (BUS_OBJ_STAT.DIR x) = dir ∧ (s.objShown x n dir).get (BUS_OBJ_STAT.CTRL x) = n ∧
      (s.objShown x n dir).getB (BUS_OBJ_STAT.PEND x) = false ∧ (s.objShown x n dir).getB (BUS_OBJ_STAT.NEW x) = false := by
  have hlow (g : Fld) (ha : g.addr = BUS_OBJ_STAT x) (hg : g.lo + g.width ≤ 24) : (s.objShown x n dir).getB g = false := by
    have h1 : (s.objShown x n dir).get g = s.get g :=
      (get_set_apart _ _ _ _ (.inr (.inl hg)) (Nat.le_of_ble_eq_true rfl)).trans
        ((get_set_apart _ _ _ _ (.inr (.inl (Nat.le_trans hg (by show 24 ≤ 30; decide)))) (Nat.le_of_ble_eq_true rfl)).trans
          (get_set_apart _ _ _ _ (.inr (.inl (Nat.le_trans hg (by show 24 ≤ 31; decide)))) (Nat.le_of_ble_eq_true rfl)))
    exact (getB_of_get h1).trans (getB_of_reg_zero (by rw [ha]; exact h))
  refine ⟨?_, ?_, ?_, hlow _ rfl (Nat.le_of_ble_eq_true rfl), hlow _ rfl (Nat.le_of_ble_eq_true rfl)⟩
  · have h1 : (s.objShown x n dir).get (BUS_OBJ_STAT.LIVE x) = (s.setB (BUS_OBJ_STAT.LIVE x) true).get (BUS_OBJ_STAT.LIVE x) :=
      (get_set_apart _ _ _ _ (.inr (.inr (Nat.le_of_ble_eq_true rfl))) (Nat.le_of_ble_eq_true rfl)).trans
        (get_set_apart _ _ _ _ (.inr (.inr (Nat.le_of_ble_eq_true rfl))) (Nat.le_of_ble_eq_true rfl))
    exact (getB_of_get h1).trans (getB_setB_self _ _ _ (Nat.le_of_ble_eq_true rfl) rfl)
  · refine (get_set_apart _ _ _ _ (.inr (.inr (Nat.le_of_ble_eq_true rfl))) (Nat.le_of_ble_eq_true rfl)).trans
      ((get_set_self _ _ _ (Nat.le_of_ble_eq_true rfl)).trans (Nat.mod_eq_of_lt (by show dir < 2 ^ 1; omega)))
  · exact (get_set_self _ _ _ (Nat.le_of_ble_eq_true rfl)).trans (Nat.mod_eq_of_lt (by show n < 2 ^ 3; omega))

theorem stat_objNamed : (s.objNamed x n id dir).reg (BUS_OBJ_STAT x) = s.reg (BUS_OBJ_STAT x) := by
  unfold State.objNamed
  split
  · exact (reg_setReg_ne _ _ (objStat_ne_rec x x 2)).trans (reg_setReg_ne _ _ (objStat_ne_rec x x 0))
  · rfl

theorem named_objNamed (hid : id < 2 ^ 32) (hdir : dir = 1) : ((s.objNamed x n id dir).reg (BUS_OBJ_REC x 0)).toNat = id := by
  rw [State.objNamed, if_pos hdir, reg_setReg_ne _ _ (by simp only [BUS_OBJ_REC]; omega), reg_setReg_self, BitVec.toNat_ofNat, Nat.mod_eq_of_lt hid]

theorem bus_objMade (x : Nat) (o : CanObj) (id dir : Nat) (s : State) :
    (s.objMade x o id dir).bus = { s.bus with objs := tput s.bus.objs x o } ∧ (s.objMade x o id dir).gen 7 x = (s.gen 7 x + 1) % 1024 := by
  have hnamed (u : State) : (u.objNamed x o.ctrl id dir).bus = u.bus ∧ (u.objNamed x o.ctrl id dir).gens = u.gens := by
    unfold State.objNamed
    split
    · exact ⟨(setReg_bus ..).trans (setReg_bus ..), (setReg_gens ..).trans (setReg_gens ..)⟩
    · exact ⟨rfl, rfl⟩
  have hshown (u : State) : (u.objShown x o.ctrl dir).bus = u.bus ∧ (u.objShown x o.ctrl dir).gens = u.gens :=
    ⟨(set_bus ..).trans ((set_bus ..).trans (setB_bus ..)), (set_gens ..).trans ((set_gens ..).trans (setB_gens ..))⟩
  unfold State.objMade
  have hbus : (s.objPlaced x o).bus = { s.bus with objs := tput s.bus.objs x o } := rfl
  have hgen : (s.objPlaced x o).gen 7 x = (s.gen 7 x + 1) % 1024 := gen_advGen 7 x (s.wipeRegs (BUS_OBJ_STAT x) 0x80)
  generalize s.objPlaced x o = u at hbus hgen
  obtain ⟨hb, hg⟩ := hshown u
  generalize u.objShown x o.ctrl dir = v at hb hg
  exact ⟨(hnamed v).1.trans (hb.trans hbus), (gen_of_gens (hnamed v).2 7 x).trans ((gen_of_gens hg 7 x).trans hgen)⟩

end Objects

end Sys2Proof.Machine
end

section
/-! PROOFS. BUS: OBJ_CREATE, OBJ_DESTROY, Q_CREATE and Q_DESTROY as commands (R113, R433, R437, Table 20-4), and the statement of chapter 20 on frames. -/

namespace Sys2Proof.Machine

section Create
variable {s u : State} {ring : Fin 8} {e : Entry} {x n dir opt ident qh : Nat} {c : Cmd}

theorem objRanges_false (hn : c.arg 16 1 ≤ 7) (hdir : c.arg 17 1 ≤ 1) (hopt : c.arg 18 1 ≤ 3) (hsingle : c.arg 17 1 = 1 ∨ c.arg 18 1 ≤ 1) (hid : bitAt (c.arg 20 4) 31 = false)
    (hstd : bitAt (c.arg 20 4) 29 = true ∨ c.arg 20 4 % 2 ^ 29 < 2 ^ 11) (hq : c.arg 24 4 = 0 ∨ c.arg 17 1 = 0) : c.objRanges = false := by
  have h1 : (decide (c.arg 17 1 = 0) && bitAt (c.arg 18 1) 1) = false := by
    rcases hsingle with h | h
    · simp [h]
    · have : bitAt (c.arg 18 1) 1 = false := decide_eq_false (by omega)
      simp [this]
  have h2 : (!bitAt (c.arg 20 4) 29 && decide (c.arg 20 4 % 2 ^ 29 ≥ 2 ^ 11)) = false := by
    rcases hstd with h | h
    · simp [h]
    · rw [decide_eq_false (Nat.not_le.2 h), Bool.and_false]
  have h3 : (decide (c.arg 17 1 = 1) && decide (c.arg 24 4 ≠ 0)) = false := by
    rcases hq with h | h <;> simp [h]
  unfold Cmd.objRanges
  rw [h1, h2, h3, hid, decide_eq_false (Nat.not_lt.2 hn), decide_eq_false (Nat.not_lt.2 hdir), decide_eq_false (Nat.not_lt.2 hopt)]
  rfl

theorem decide_prop_eq (b : Bool) (p : Prop) [Decidable p] : decide ((b = true) = p) = decide (b = decide p) :=
  decide_eq_decide.2 (by cases b <;> simp)

/-- An OBJ_CREATE that meets no code. -/
structure State.objAllowed (s : State) (c : Cmd) : Prop where
  queue : c.arg 24 4 = 0 ∨ c.arg 17 1 = 0 ∧ s.checkHandle 8 (fun i => (s.busQueue i).isSome) (c.arg 24 4) = none ∧
    ((s.busQueue (hIndex (c.arg 24 4))).any fun v => decide (v.ctrl = c.arg 16 1)) = true
  ranges : c.objRanges = false
  on : s.canOn (c.arg 16 1) = true
  unused : (s.bus.objs.any fun e => decide (e.2.ctrl = c.arg 16 1) && e.2.tx = decide (c.arg 17 1 = 1) && idKey e.2.id = idKey (c.arg 20 4)) = false

theorem opObjCreate_allowed (hx : tfree s.bus.objs 2048 = some x) (h : s.objAllowed c) :
    opObjCreate c s = c.created ((s.objMade x c.obj (c.arg 20 4) (c.arg 17 1)).handle 7 x) (s.objMade x c.obj (c.arg 20 4) (c.arg 17 1)).busShow := by
  obtain ⟨hqueue, hranges, hon, hunused⟩ := h
  have hbad : s.objBadQueue c = false := by
    unfold State.objBadQueue
    rcases hqueue with h | ⟨-, h, -⟩
    · simp [h]
    · rw [h]; simp
  have hother : (decide (c.arg 24 4 ≠ 0) && (s.busQueue (hIndex (c.arg 24 4))).any fun v => decide (v.ctrl ≠ c.arg 16 1)) = false := by
    rcases hqueue with h | ⟨-, -, h⟩
    · simp [h]
    · cases hv : s.busQueue (hIndex (c.arg 24 4)) with
      | none => simp
      | some v =>
        rw [hv] at h
        have hv' : v.ctrl = c.arg 16 1 := by simpa using h
        simp [hv']
  have hused : (s.bus.objs.any fun e => decide (e.2.ctrl = c.arg 16 1) && decide ((e.2.tx = true) = (c.arg 17 1 = 1)) && decide (idKey e.2.id = idKey (c.arg 20 4))) = false := by
    rw [← hunused]
    simp only [decide_prop_eq]
  rw [opObjCreate_eq hx, hbad, hranges, hon, hother, hused]
  rfl

theorem objAllowed_entryTaken {r opcode : Nat} (h : s.objAllowed c) : (s.entryTaken 0x0E r opcode e).objAllowed c :=
  ⟨h.queue.imp id fun ⟨h1, h2, h3⟩ => ⟨h1, (checkHandle_entryTaken fun _ => rfl).trans h2, h3⟩, h.ranges, h.on, h.unused⟩

theorem arg_lt (c : Cmd) (o n : Nat) : c.arg o n < 2 ^ (8 * n) := Nat.mod_lt _ (Nat.two_pow_pos _)

/-- What stands after an object was made. -/
theorem objMade_shows {id : Nat} {o : CanObj} (hn : o.ctrl ≤ 7) (hdir : dir ≤ 1) (hid : id < 2 ^ 32) (s : State) :
    let t := (s.objMade x o id dir).busShow
    t.getB (BUS_OBJ_STAT.LIVE x) = true ∧ t.get (BUS_OBJ_STAT.DIR x) = dir ∧ t.get (BUS_OBJ_STAT.CTRL x) = o.ctrl ∧
      t.getB (BUS_OBJ_STAT.PEND x) = false ∧ t.getB (BUS_OBJ_STAT.NEW x) = false ∧ (dir = 1 → (t.reg (BUS_OBJ_REC x 0)).toNat = id) := by
  obtain ⟨hlive, hd, hc, hpend, hnew⟩ := objShown_shows (stat_objPlaced x o s) hn hdir
  unfold State.objMade
  generalize (s.objPlaced x o).objShown x o.ctrl dir = u at hlive hd hc hpend hnew
  have hin := objRegion x
  have hrec := objRec_in x 0
  have hreg : (u.objNamed x o.ctrl id dir).busShow.reg (BUS_OBJ_STAT x) = u.reg (BUS_OBJ_STAT x) :=
    (reg_busShow (by simp only [BUS_STATUS]; omega) _).trans stat_objNamed
  have hname : (u.objNamed x o.ctrl id dir).busShow.reg (BUS_OBJ_REC x 0) = (u.objNamed x o.ctrl id dir).reg (BUS_OBJ_REC x 0) :=
    reg_busShow (by simp only [BUS_STATUS]; omega) _
  have hid' := fun h => named_objNamed (s := u) (x := x) (n := o.ctrl) (dir := dir) hid h
  rw [← hname] at hid'
  generalize (u.objNamed x o.ctrl id dir).busShow = t at hreg hid'
  exact ⟨(getB_congr _ hreg).trans hlive, (get_congr _ hreg).trans hd, (get_congr _ hreg).trans hc, (getB_congr _ hreg).trans hpend, (getB_congr _ hreg).trans hnew, hid'⟩

theorem objMadeAs (hready : s.ready 0x0E ring.val 0 e) (hx : tfree s.bus.objs 2048 = some x) (h : s.objAllowed (s.cmdOf 0x0E ring.val e))
    (hn : (s.cmdOf 0x0E ring.val e).arg 16 1 ≤ 7) (hdir : (s.cmdOf 0x0E ring.val e).arg 17 1 ≤ 1) : ∃ t, exec (.objCreate ring e) s = .next t ∧
    s.completed 0x0E ring.val e 0x00 (t.handle 7 x) t ∧ s.dramKept (s.complAddr 0x0E ring.val) 16 t ∧ t.gen 7 x = (s.gen 7 x + 1) % 1024 ∧
    t.bus = { s.bus with objs := tput s.bus.objs x (s.cmdOf 0x0E ring.val e).obj } ∧
    t.getB (BUS_OBJ_STAT.LIVE x) = true ∧ t.get (BUS_OBJ_STAT.DIR x) = (s.cmdOf 0x0E ring.val e).arg 17 1 ∧ t.get (BUS_OBJ_STAT.CTRL x) = (s.cmdOf 0x0E ring.val e).arg 16 1 ∧
    t.getB (BUS_OBJ_STAT.PEND x) = false ∧ t.getB (BUS_OBJ_STAT.NEW x) = false ∧
    ((s.cmdOf 0x0E ring.val e).arg 17 1 = 1 → (t.reg (BUS_OBJ_REC x 0)).toNat = (s.cmdOf 0x0E ring.val e).arg 20 4) ∧
    s.onlyBut [.latch, .dram, .rings, .gens, .bus, .rcd, .cyc] (complFlds 0x0E ring.val ++ busShowFlds) (BUS_OBJ_STAT x) 0x80 t := by
  have hop := opObjCreate_allowed (s := s.entryTaken 0x0E ring.val 1 e) hx (objAllowed_entryTaken h)
  have hexec : exec (.objCreate ring e) s = .next _ := congrArg Host.Outcome.next ((runRow_runs hready rfl opObjCreate).trans hop)
  obtain ⟨hb, hg⟩ := bus_objMade x (s.cmdOf 0x0E ring.val e).obj ((s.cmdOf 0x0E ring.val e).arg 20 4) ((s.cmdOf 0x0E ring.val e).arg 17 1) (s.entryTaken 0x0E ring.val 1 e)
  obtain ⟨hlive, hd, hc, hpend, hnew, hname⟩ := objMade_shows (x := x) (o := (s.cmdOf 0x0E ring.val e).obj) hn hdir (arg_lt (s.cmdOf 0x0E ring.val e) 20 4)
    (s.entryTaken 0x0E ring.val 1 e)
  have hmade := only_objMade x (s.cmdOf 0x0E ring.val e).obj ((s.cmdOf 0x0E ring.val e).arg 20 4) ((s.cmdOf 0x0E ring.val e).arg 17 1) (s.entryTaken 0x0E ring.val 1 e)
  generalize (s.entryTaken 0x0E ring.val 1 e).objMade x (s.cmdOf 0x0E ring.val e).obj ((s.cmdOf 0x0E ring.val e).arg 20 4) ((s.cmdOf 0x0E ring.val e).arg 17 1) = u
    at hexec hb hg hlive hd hc hpend hnew hname hmade
  have hshow := only_seq hmade (only_busShow u)
  have hgens : u.busShow.gens = u.gens := (only_busShow u).1 .gens (by simp)
  have hbus := (bus_busShow u).trans hb
  rw [← handle_of_gens hgens 7 x, created_eq] at hexec
  generalize u.busShow = v at hexec hlive hd hc hpend hnew hname hshow hgens hbus
  obtain ⟨hdone, hkept, honly, hregs, hbus', hgens'⟩ := busEnds (code := 0) (h := v.handle 7 x) hready (by decide) hshow (by simp) fun f hf =>
    (List.mem_append.1 hf).elim (offRing_objRegion x ring.val f) (offRing_busShowFlds ring.val f)
  have hin := objRegion x
  have hrec := objRec_in x 0
  have hstat := hregs (BUS_OBJ_STAT x) (by omega) (by omega)
  refine ⟨_, hexec, by rw [handle_of_gens hgens' 7 x]; exact hdone, hkept, ?_, hbus'.trans hbus, (getB_congr _ hstat).trans hlive, (get_congr _ hstat).trans hd,
    (get_congr _ hstat).trans hc, (getB_congr _ hstat).trans hpend, (getB_congr _ hstat).trans hnew, fun h1 => ?_, onlyBut_of_only honly (by simp) fun f hf => ?_⟩
  · exact (gen_of_gens hgens' 7 x).trans ((gen_of_gens hgens 7 x).trans hg)
  · rw [hregs _ (by omega) (by omega)]
    exact hname h1
  · rw [List.mem_append, List.mem_append] at hf
    rcases hf with hf | hf | hf
    · exact .inr (List.mem_append_left _ hf)
    · exact .inl (mem_regionFlds hf)
    · exact .inr (List.mem_append_right _ hf)

theorem objCreated (hready : s.ready 0x0E ring.val 0 e) (hx : tfree s.bus.objs 2048 = some x) (h16 : (s.cmdOf 0x0E ring.val e).arg 16 1 = n) (h17 : (s.cmdOf 0x0E ring.val e).arg 17 1 = dir)
    (h18 : (s.cmdOf 0x0E ring.val e).arg 18 1 = opt) (h20 : (s.cmdOf 0x0E ring.val e).arg 20 4 = ident) (h24 : (s.cmdOf 0x0E ring.val e).arg 24 4 = qh)
    (hq : qh = 0 ∨ dir = 0 ∧ s.checkHandle 8 (fun i => (s.busQueue i).isSome) qh = none ∧ ((s.busQueue (hIndex qh)).any fun v => decide (v.ctrl = n)) = true)
    (hn : n ≤ 7) (hdir : dir ≤ 1) (hopt : opt ≤ 3) (hsingle : dir = 1 ∨ opt ≤ 1) (hid : bitAt ident 31 = false) (hstd : bitAt ident 29 = true ∨ ident % 2 ^ 29 < 2 ^ 11)
    (hon : s.canOn n = true) (hunused : (s.bus.objs.any fun f => decide (f.2.ctrl = n) && f.2.tx = decide (dir = 1) && idKey f.2.id = idKey ident) = false) :
    ∃ t, exec (.objCreate ring e) s = .next t ∧
    s.completed 0x0E ring.val e 0x00 (t.handle 7 x) t ∧ s.dramKept (s.complAddr 0x0E ring.val) 16 t ∧ t.gen 7 x = (s.gen 7 x + 1) % 1024 ∧
    t.bus = { s.bus with objs := tput s.bus.objs x { ctrl := n, tx := decide (dir = 1), irq := bitAt opt 0, single := bitAt opt 1, id := ident, queue := (if qh = 0 then none else some (hIndex qh)) } } ∧
    t.getB (BUS_OBJ_STAT.LIVE x) = true ∧ t.get (BUS_OBJ_STAT.DIR x) = dir ∧ t.get (BUS_OBJ_STAT.CTRL x) = n ∧ t.getB (BUS_OBJ_STAT.PEND x) = false ∧ t.getB (BUS_OBJ_STAT.NEW x) = false ∧
    (dir = 1 → (t.reg (BUS_OBJ_REC x 0)).toNat = ident) ∧ s.onlyBut [.latch, .dram, .rings, .gens, .bus, .rcd, .cyc] (complFlds 0x0E ring.val ++ [BUS_STATUS.OBJECTS, BUS_STATUS.SESSIONS, BUS_STATUS.QUEUES]) (BUS_OBJ_STAT x) 0x80 t := by
  subst h16 h17 h18 h20 h24
  exact objMadeAs hready hx ⟨hq, objRanges_false hn hdir hopt hsingle hid hstd (hq.imp id And.left), hon, hunused⟩ hn hdir

end Create
end Sys2Proof.Machine
end

section
/-! PROOFS. BUS: OBJ_DESTROY, Q_CREATE and Q_DESTROY (R113, R433, R437, Table 20-4), and the statement of chapter 20 on frames. -/

namespace Sys2Proof.Machine

section Destroy
variable {s u : State} {ring : Fin 8} {e : Entry} {x : Nat} {o : CanObj} {c : Cmd} {ps : List Comp} {fs : List Fld}

/-- An object's registers and place are gone. -/
theorem only_objGone (x : Nat) (s : State) : s.only [.latch, .bus] (regionFlds (BUS_OBJ_STAT x) 0x80 ++ busShowFlds) (s.objGone x) :=
  only_mono (only_seq (only_seq (only_wipeRegs (BUS_OBJ_STAT x) 0x80 s) (only_withBus { s.bus with objs := tdel s.bus.objs x } _)) (only_busShow _)) (by simp) (by simp)

theorem reg_objGone_region {a : Nat} (hl : BUS_OBJ_STAT x ≤ a) (hu : a < BUS_OBJ_STAT x + 0x80) (s : State) : (s.objGone x).reg a = resetOf a := by
  have hin := objRegion x
  have hwipe : (s.wipeRegs (BUS_OBJ_STAT x) 0x80).reg a = resetOf a := by rw [reg_wipeRegs, if_pos ⟨hl, hu⟩]
  exact (reg_busShow (by simp only [BUS_STATUS]; omega) _).trans hwipe

theorem checkHandle_objLive {r opcode h : Nat} : (s.entryTaken 0x0E r opcode e).checkHandle 7 (s.entryTaken 0x0E r opcode e).objLive h = s.checkHandle 7 s.objLive h :=
  checkHandle_entryTaken fun _ => rfl

/-- What an OBJ_DESTROY of a live object does. -/
theorem opObjDestroy_eq (hh : s.checkHandle 7 s.objLive c.handle = none) (ho : s.busObj (hIndex c.handle) = some o) : opObjDestroy c s =
    if s.getB (BUS_OBJ_STAT.PEND (hIndex c.handle)) then
      if s.onWire (hIndex c.handle) o then (s.setObj (hIndex c.handle) { o with dying := some (c.ring, c.id) }).drawn else c.finish 0x00 (s.drawn.objGone (hIndex c.handle))
    else c.finish 0x00 (s.objGone (hIndex c.handle)) := by
  unfold opObjDestroy
  rw [hh, ho]

theorem offRing_objGone (x r : Nat) : offRing 0x0E r (regionFlds (BUS_OBJ_STAT x) 0x80 ++ busShowFlds) := fun f hf =>
  (List.mem_append.1 hf).elim (offRing_objRegion x r f) (offRing_busShowFlds r f)

theorem objDestroyed (hready : s.ready 0x0E ring.val 0 e) (hh : s.checkHandle 7 s.objLive e.handle.toNat = none) (hx : hIndex e.handle.toNat = x) (ho : s.busObj x = some o)
    (hpend : s.getB (BUS_OBJ_STAT.PEND x) = false) : ∃ t, exec (.objDestroy ring e) s = .next t ∧ s.completed 0x0E ring.val e 0x00 e.handle.toNat t ∧
    s.dramKept (s.complAddr 0x0E ring.val) 16 t ∧ t.bus = { s.bus with objs := tdel s.bus.objs x } ∧
    (∀ a, BUS_OBJ_STAT x ≤ a → a < BUS_OBJ_STAT x + 0x80 → t.reg a = resetOf a) ∧
    s.onlyBut [.latch, .dram, .rings, .bus, .rcd, .cyc] (complFlds 0x0E ring.val ++ [BUS_STATUS.OBJECTS, BUS_STATUS.SESSIONS, BUS_STATUS.QUEUES]) (BUS_OBJ_STAT x) 0x80 t := by
  subst hx
  have hop := (opObjDestroy_eq (s := s.entryTaken 0x0E ring.val 2 e) (c := s.cmdOf 0x0E ring.val e) (checkHandle_objLive.trans hh) ho).trans
    (if_neg (by rw [show (s.entryTaken 0x0E ring.val 2 e).getB (BUS_OBJ_STAT.PEND (hIndex (s.cmdOf 0x0E ring.val e).handle)) = false from hpend]; decide))
  have hexec : exec (.objDestroy ring e) s = .next _ := congrArg Host.Outcome.next ((runRow_runs hready rfl opObjDestroy).trans hop)
  have hgone := only_objGone (hIndex e.handle.toNat) (s.entryTaken 0x0E ring.val 2 e)
  have hregs := fun a hl hu => reg_objGone_region (x := hIndex e.handle.toNat) (a := a) hl hu (s.entryTaken 0x0E ring.val 2 e)
  have hbus := bus_objGone (hIndex e.handle.toNat) (s.entryTaken 0x0E ring.val 2 e)
  change exec _ s = .next ((s.cmdOf 0x0E ring.val e).finish 0x00 ((s.entryTaken 0x0E ring.val 2 e).objGone (hIndex e.handle.toNat))) at hexec
  generalize (s.entryTaken 0x0E ring.val 2 e).objGone (hIndex e.handle.toNat) = v at hexec hgone hregs hbus
  obtain ⟨hdone, hkept, honly, hregs', hbus', -⟩ := busEnds (code := 0) (h := e.handle.toNat) hready (by decide) hgone (by simp) (offRing_objGone _ _)
  have hin := objRegion (hIndex e.handle.toNat)
  refine ⟨_, hexec, hdone, hkept, hbus'.trans hbus, fun a hl hu => (hregs' a (by omega) (by omega)).trans (hregs a hl hu), onlyBut_of_only honly (by simp) fun f hf => ?_⟩
  rw [List.mem_append, List.mem_append] at hf
  rcases hf with hf | hf | hf
  · exact .inr (List.mem_append_left _ hf)
  · exact .inl (mem_regionFlds hf)
  · exact .inr (List.mem_append_right _ hf)

theorem only_drawn_setObj (x : Nat) (o : CanObj) (s : State) : s.only [.bus, .free] [] (s.setObj x o).drawn :=
  only_mono (only_seq (only_setObj x o s) (only_drawn _)) (by simp) (by simp)

theorem objDestroyedPending (hready : s.ready 0x0E ring.val 0 e) (hh : s.checkHandle 7 s.objLive e.handle.toNat = none) (hx : hIndex e.handle.toNat = x) (ho : s.busObj x = some o)
    (hpend : s.getB (BUS_OBJ_STAT.PEND x) = true) :
    ∃ t, exec (.objDestroy ring e) s = .next t ∧ t.free = s.free + 1 ∧ (s.onWire x o = true → s.started 0x0E ring.val 2 e t ∧ t.busObj x = some { o with dying := some (ring.val, (s.ring 0x0E ring.val).nextId) }) ∧
    (s.onWire x o = false → s.completed 0x0E ring.val e 0x00 e.handle.toNat t ∧ t.busObj x = none ∧ t.getB (BUS_OBJ_STAT.LIVE x) = false) ∧ s.dramKept (s.complAddr 0x0E ring.val) 16 t ∧
    s.within [.latch, .dram, .free, .cyc, .rings, .bus, .rcd] (some [0xC1, 0xCE]) t := by
  subst hx
  have hop := (opObjDestroy_eq (s := s.entryTaken 0x0E ring.val 2 e) (c := s.cmdOf 0x0E ring.val e) (checkHandle_objLive.trans hh) ho).trans (if_pos hpend)
  have hexec : exec (.objDestroy ring e) s = .next _ := congrArg Host.Outcome.next ((runRow_runs hready rfl opObjDestroy).trans hop)
  have hwire : (s.entryTaken 0x0E ring.val 2 e).onWire (hIndex (s.cmdOf 0x0E ring.val e).handle) o = s.onWire (hIndex e.handle.toNat) o := rfl
  rw [hwire] at hexec
  have hwithin := within_of (execObjDestroy_mut ring e s _ hexec)
  cases hw : s.onWire (hIndex e.handle.toNat) o with
  | true =>
    rw [hw, if_pos rfl] at hexec hwithin
    have honly := only_drawn_setObj (hIndex e.handle.toNat) { o with dying := some (ring.val, (s.ring 0x0E ring.val).nextId) } (s.entryTaken 0x0E ring.val 2 e)
    have hobj : (((s.entryTaken 0x0E ring.val 2 e).setObj (hIndex e.handle.toNat) { o with dying := some (ring.val, (s.ring 0x0E ring.val).nextId) }).drawn).busObj
        (hIndex e.handle.toNat) = some { o with dying := some (ring.val, (s.ring 0x0E ring.val).nextId) } := tget_tput_self ..
    refine ⟨_, hexec, rfl, fun _ => ⟨started_of_only (idle_of_ready hready) honly (by simp), hobj⟩, fun h => (by simp at h), fun y hy => ?_, hwithin⟩
    exact congrArg (fun m => memByte m y) (honly.1 .dram (by simp))
  | false =>
    rw [hw, if_neg (by decide)] at hexec hwithin
    have hgone := only_seq (only_drawn (s.entryTaken 0x0E ring.val 2 e)) (only_objGone (hIndex e.handle.toNat) (s.entryTaken 0x0E ring.val 2 e).drawn)
    have hblank := objBlank_objGone_self (hIndex e.handle.toNat) (s.entryTaken 0x0E ring.val 2 e).drawn
    have hbus := bus_objGone (hIndex e.handle.toNat) (s.entryTaken 0x0E ring.val 2 e).drawn
    have hfree : ((s.entryTaken 0x0E ring.val 2 e).drawn.objGone (hIndex e.handle.toNat)).free = s.free + 1 :=
      (only_objGone (hIndex e.handle.toNat) (s.entryTaken 0x0E ring.val 2 e).drawn).1 .free (by simp)
    change exec _ s = .next ((s.cmdOf 0x0E ring.val e).finish 0x00 ((s.entryTaken 0x0E ring.val 2 e).drawn.objGone (hIndex e.handle.toNat))) at hexec
    change s.within _ _ ((s.cmdOf 0x0E ring.val e).finish 0x00 ((s.entryTaken 0x0E ring.val 2 e).drawn.objGone (hIndex e.handle.toNat))) at hwithin
    generalize (s.entryTaken 0x0E ring.val 2 e).drawn.objGone (hIndex e.handle.toNat) = v at hexec hgone hblank hbus hfree hwithin
    obtain ⟨hdone, hkept, honly, hregs', hbus', -⟩ := busEnds (code := 0) (h := e.handle.toNat) hready (by decide) hgone (by simp) (offRing_objGone _ _)
    have hin := objRegion (hIndex e.handle.toNat)
    have hfree' := same_completeId (u := v) (b := 0x0E) (r := ring.val) (c := .free) (s.cmdOf 0x0E ring.val e).id (0x0E * 256 + 0) (h := e.handle.toNat) (ring_lt_of_ready hready) (by simp)
    refine ⟨_, hexec, hfree'.trans hfree, fun h => (by simp at h), fun _ => ⟨hdone, ?_, getB_of_reg_zero ((hregs' (BUS_OBJ_STAT _) (by omega) (by omega)).trans hblank)⟩, hkept, hwithin⟩
    refine (busObj_of_bus hbus' _).trans ?_
    rw [State.busObj, hbus]
    exact (tget_tdel ..).trans (if_pos rfl)

end Destroy

/-! ### Queues -/

section Queues
variable {s u : State} {ring : Fin 8} {e : Entry} {q n : Nat} {v : CanQueue} {c : Cmd}

theorem qRegion (q : Nat) : 0xCE000800 ≤ BUS_Q_STAT q ∧ BUS_Q_STAT q + 0x20 ≤ 0xCE000900 := qStat_in q

theorem offRing_qRegion (q r : Nat) : offRing 0x0E r (regionFlds (BUS_Q_STAT q) 0x20) := by
  have := qRegion q
  have := ringG_bus r
  exact offRing_region (by omega)

def State.qPlaced (q : Nat) (v : CanQueue) (s : State) : State :=
  ((s.wipeRegs (BUS_Q_STAT q) 0x20).advGen 8 q).withBus { s.bus with queues := tput s.bus.queues q v }

def State.qShown (q n : Nat) (s : State) : State := (s.setB (BUS_Q_STAT.LIVE q) true).set (BUS_Q_STAT.CTRL q) n

/-- The queue that a Q_CREATE asks for. -/
def Cmd.queue (c : Cmd) : CanQueue :=
  { ctrl := c.arg 16 1, irq := decide (c.arg 17 1 = 1), thr := c.arg 18 2, qid := c.arg 20 4, mask := c.arg 24 4, base := c.arg 32 8 }

/-- The ranges of a Q_CREATE. -/
def State.qRanges (s : State) (c : Cmd) : Bool :=
  decide (7 < c.arg 16 1) || decide (1 < c.arg 17 1) || decide (256 < c.arg 18 2) || decide (c.arg 32 8 % 4096 ≠ 0) || !s.inWins 0x0E (c.arg 32 8) 24576

theorem opQCreate_eq (hq : tfree s.bus.queues 8 = some q) : opQCreate c s =
    if s.qRanges c then c.failed 0x05 s else if !s.canOn (c.arg 16 1) then c.failed 0x08 s
    else c.created ((s.qPlaced q c.queue).handle 8 q) ((s.qPlaced q c.queue).qShown q (c.arg 16 1)).busShow := by
  unfold opQCreate
  simp only [hq]
  rfl

theorem only_qMade (q n : Nat) (v : CanQueue) (s : State) : s.only [.latch, .gens, .bus] (regionFlds (BUS_Q_STAT q) 0x20 ++ busShowFlds) ((s.qPlaced q v).qShown q n).busShow := by
  have hplaced : s.only [.latch, .gens, .bus] (regionFlds (BUS_Q_STAT q) 0x20) (s.qPlaced q v) :=
    only_mono (only_seq (only_seq (only_wipeRegs (BUS_Q_STAT q) 0x20 s) (only_advGen 8 q _)) (only_withBus _ _)) (by simp) (by simp)
  have hshown := only_then_region (only_then_region hplaced (f := BUS_Q_STAT.LIVE q) (b2n true) (fun _ h => h) (Nat.le_refl _) (Nat.lt_add_of_pos_right (by decide))
    (Nat.le_of_ble_eq_true rfl)) (f := BUS_Q_STAT.CTRL q) n (fun _ h => h) (Nat.le_refl _) (Nat.lt_add_of_pos_right (by decide)) (Nat.le_of_ble_eq_true rfl)
  exact only_mono (only_seq hshown (only_busShow _)) (by simp) (fun _ h => h)

theorem resetOf_qReg {a : Nat} (hl : 0xCE000800 ≤ a) (hu : a < 0xCE000900) : resetOf a = 0#32 := by
  cases hd : findDesc a with
  | none => simp only [resetOf, hd]
  | some d =>
    have hw : windowOf a = windowOf 0xCE000800 := by simp only [windowOf]; omega
    have hzero : decide (d.reset = 0) = true := findDesc_of_bounds (P := fun d => decide (d.reset = 0)) hl hu hw (by decide) hd
    simp only [resetOf, hd, of_decide_eq_true hzero]

/-- What stands after a queue was made. -/
theorem qMade_shows (hn : n ≤ 7) (v : CanQueue) (s : State) : let t := ((s.qPlaced q v).qShown q n).busShow
    t.getB (BUS_Q_STAT.LIVE q) = true ∧ t.get (BUS_Q_STAT.CTRL q) = n ∧ t.get (BUS_Q_PI.PI q) = 0 ∧ t.get (BUS_Q_CI.CI q) = 0 ∧ t.get (BUS_Q_STAT.Q_DROP q) = 0 ∧
      t.bus = { s.bus with queues := tput s.bus.queues q v } ∧ t.gens = (s.qPlaced q v).gens := by
  have hin := qRegion q
  have hzero : ∀ a, BUS_Q_STAT q ≤ a → a < BUS_Q_STAT q + 0x20 → (s.qPlaced q v).reg a = 0#32 := fun a hl hu => by
    have hwipe : (s.wipeRegs (BUS_Q_STAT q) 0x20).reg a = 0#32 := by rw [reg_wipeRegs, if_pos ⟨hl, hu⟩, resetOf_qReg (by omega) (by omega)]
    exact hwipe
  have hbus : (s.qPlaced q v).bus = { s.bus with queues := tput s.bus.queues q v } := rfl
  generalize s.qPlaced q v = u at hzero hbus
  have hshow : ∀ a, BUS_Q_STAT q ≤ a → (u.qShown q n).busShow.reg a = (u.qShown q n).reg a := fun a ha => reg_busShow (by simp only [BUS_STATUS]; omega) _
  have hother : ∀ a, BUS_Q_STAT q < a → (u.qShown q n).reg a = u.reg a := fun a ha =>
    (reg_set_ne _ _ (show a ≠ BUS_Q_STAT q by omega)).trans (reg_setB_ne _ _ (show a ≠ BUS_Q_STAT q by omega))
  have hpi : BUS_Q_PI q = BUS_Q_STAT q + 4 := by simp only [BUS_Q_PI, BUS_Q_STAT]; omega
  have hci : BUS_Q_CI q = BUS_Q_STAT q + 8 := by simp only [BUS_Q_CI, BUS_Q_STAT]; omega
  refine ⟨?_, ?_, ?_, ?_, ?_, ?_, ?_⟩
  · have h1 : (u.qShown q n).get (BUS_Q_STAT.LIVE q) = (u.setB (BUS_Q_STAT.LIVE q) true).get (BUS_Q_STAT.LIVE q) :=
      get_set_apart _ _ _ _ (.inr (.inr (Nat.le_of_ble_eq_true rfl))) (Nat.le_of_ble_eq_true rfl)
    exact (getB_congr _ (hshow _ (Nat.le_refl _))).trans ((getB_of_get h1).trans (getB_setB_self _ _ _ (Nat.le_of_ble_eq_true rfl) rfl))
  · exact (get_congr _ (hshow _ (Nat.le_refl _))).trans ((get_set_self _ _ _ (Nat.le_of_ble_eq_true rfl)).trans (Nat.mod_eq_of_lt (by show n < 2 ^ 3; omega)))
  · exact get_of_reg_zero ((hshow (BUS_Q_PI q) (by omega)).trans ((hother (BUS_Q_PI q) (by omega)).trans (hzero (BUS_Q_PI q) (by omega) (by omega))))
  · exact get_of_reg_zero ((hshow (BUS_Q_CI q) (by omega)).trans ((hother (BUS_Q_CI q) (by omega)).trans (hzero (BUS_Q_CI q) (by omega) (by omega))))
  · have h1 : (u.qShown q n).get (BUS_Q_STAT.Q_DROP q) = u.get (BUS_Q_STAT.Q_DROP q) :=
      (get_set_apart _ _ _ _ (.inr (.inl (Nat.le_of_ble_eq_true rfl))) (Nat.le_of_ble_eq_true rfl)).trans
        (get_set_apart _ _ _ _ (.inr (.inl (Nat.le_of_ble_eq_true rfl))) (Nat.le_of_ble_eq_true rfl))
    exact (get_congr _ (hshow _ (Nat.le_refl _))).trans (h1.trans (get_of_reg_zero (hzero _ (Nat.le_refl _) (by show BUS_Q_STAT q < _; omega))))
  · exact (bus_busShow _).trans (((set_bus ..).trans (setB_bus ..)).trans hbus)
  · exact ((only_busShow _).1 .gens (by simp)).trans ((set_gens ..).trans (setB_gens ..))

theorem qMadeAs (hready : s.ready 0x0E ring.val 0 e) (hq : tfree s.bus.queues 8 = some q) (hranges : s.qRanges (s.cmdOf 0x0E ring.val e) = false)
    (hn : (s.cmdOf 0x0E ring.val e).arg 16 1 ≤ 7) (hon : s.canOn ((s.cmdOf 0x0E ring.val e).arg 16 1) = true) : ∃ t, exec (.qCreate ring e) s = .next t ∧
    s.completed 0x0E ring.val e 0x00 (t.handle 8 q) t ∧ s.dramKept (s.complAddr 0x0E ring.val) 16 t ∧ t.gen 8 q = (s.gen 8 q + 1) % 1024 ∧
    t.bus = { s.bus with queues := tput s.bus.queues q (s.cmdOf 0x0E ring.val e).queue } ∧
    t.getB (BUS_Q_STAT.LIVE q) = true ∧ t.get (BUS_Q_STAT.CTRL q) = (s.cmdOf 0x0E ring.val e).arg 16 1 ∧ t.get (BUS_Q_PI.PI q) = 0 ∧ t.get (BUS_Q_CI.CI q) = 0 ∧ t.get (BUS_Q_STAT.Q_DROP q) = 0 ∧
    s.onlyBut [.latch, .dram, .rings, .gens, .bus, .rcd, .cyc] (complFlds 0x0E ring.val ++ [BUS_STATUS.OBJECTS, BUS_STATUS.SESSIONS, BUS_STATUS.QUEUES]) (BUS_Q_STAT q) 0x20 t := by
  have hop := (opQCreate_eq (s := s.entryTaken 0x0E ring.val 3 e) (c := s.cmdOf 0x0E ring.val e) hq).trans
    ((if_neg (by rw [show (s.entryTaken 0x0E ring.val 3 e).qRanges _ = false from hranges]; decide)).trans
      (if_neg (by rw [show (s.entryTaken 0x0E ring.val 3 e).canOn _ = true from hon]; decide)))
  have hexec : exec (.qCreate ring e) s = .next _ := congrArg Host.Outcome.next ((runRow_runs hready rfl opQCreate).trans hop)
  have hmade := only_qMade q ((s.cmdOf 0x0E ring.val e).arg 16 1) (s.cmdOf 0x0E ring.val e).queue (s.entryTaken 0x0E ring.val 3 e)
  obtain ⟨hlive, hc, hpi, hci, hdrop, hbus, hgens⟩ := qMade_shows (q := q) hn (s.cmdOf 0x0E ring.val e).queue (s.entryTaken 0x0E ring.val 3 e)
  have hgen : ((s.entryTaken 0x0E ring.val 3 e).qPlaced q (s.cmdOf 0x0E ring.val e).queue).gen 8 q = (s.gen 8 q + 1) % 1024 := gen_advGen 8 q (s.wipeRegs (BUS_Q_STAT q) 0x20)
  rw [← handle_of_gens hgens 8 q, created_eq] at hexec
  rw [← gen_of_gens hgens 8 q] at hgen
  generalize (((s.entryTaken 0x0E ring.val 3 e).qPlaced q (s.cmdOf 0x0E ring.val e).queue).qShown q ((s.cmdOf 0x0E ring.val e).arg 16 1)).busShow = w at hexec hmade hlive hc hpi hci hdrop hbus hgen
  obtain ⟨hdone, hkept, honly, hregs, hbus', hgens'⟩ := busEnds (code := 0) (h := w.handle 8 q) hready (by decide) hmade (by simp) fun f hf =>
    (List.mem_append.1 hf).elim (offRing_qRegion q ring.val f) (offRing_busShowFlds ring.val f)
  have hin := qRegion q
  have hpi' : BUS_Q_PI q = BUS_Q_STAT q + 4 := by simp only [BUS_Q_PI, BUS_Q_STAT]; omega
  have hci' : BUS_Q_CI q = BUS_Q_STAT q + 8 := by simp only [BUS_Q_CI, BUS_Q_STAT]; omega
  have hstat := hregs (BUS_Q_STAT q) (by omega) (by omega)
  refine ⟨_, hexec, by rw [handle_of_gens hgens' 8 q]; exact hdone, hkept, (gen_of_gens hgens' 8 q).trans hgen, hbus'.trans hbus, (getB_congr _ hstat).trans hlive,
    (get_congr _ hstat).trans hc, (get_congr _ (hregs (BUS_Q_PI q) (by omega) (by omega))).trans hpi, (get_congr _ (hregs (BUS_Q_CI q) (by omega) (by omega))).trans hci,
    (get_congr _ hstat).trans hdrop, onlyBut_of_only honly (by simp) fun f hf => ?_⟩
  rw [List.mem_append, List.mem_append] at hf
  rcases hf with hf | hf | hf
  · exact .inr (List.mem_append_left _ hf)
  · exact .inl (mem_regionFlds hf)
  · exact .inr (List.mem_append_right _ hf)

theorem qCreated {irq thr base : Nat} (hready : s.ready 0x0E ring.val 0 e) (hq : tfree s.bus.queues 8 = some q) (h16 : (s.cmdOf 0x0E ring.val e).arg 16 1 = n)
    (h17 : (s.cmdOf 0x0E ring.val e).arg 17 1 = irq) (h18 : (s.cmdOf 0x0E ring.val e).arg 18 2 = thr) (h32 : (s.cmdOf 0x0E ring.val e).arg 32 8 = base)
    (hn : n ≤ 7) (hirq : irq ≤ 1) (hthr : thr ≤ 256) (haligned : base % 4096 = 0) (hwin : s.inWins 0x0E base 24576 = true) (hon : s.canOn n = true) :
    ∃ t, exec (.qCreate ring e) s = .next t ∧
    s.completed 0x0E ring.val e 0x00 (t.handle 8 q) t ∧ s.dramKept (s.complAddr 0x0E ring.val) 16 t ∧ t.gen 8 q = (s.gen 8 q + 1) % 1024 ∧
    t.bus = { s.bus with queues := tput s.bus.queues q { ctrl := n, irq := decide (irq = 1), thr := thr, qid := (s.cmdOf 0x0E ring.val e).arg 20 4, mask := (s.cmdOf 0x0E ring.val e).arg 24 4, base := base } } ∧
    t.getB (BUS_Q_STAT.LIVE q) = true ∧ t.get (BUS_Q_STAT.CTRL q) = n ∧ t.get (BUS_Q_PI.PI q) = 0 ∧ t.get (BUS_Q_CI.CI q) = 0 ∧ t.get (BUS_Q_STAT.Q_DROP q) = 0 ∧
    s.onlyBut [.latch, .dram, .rings, .gens, .bus, .rcd, .cyc] (complFlds 0x0E ring.val ++ [BUS_STATUS.OBJECTS, BUS_STATUS.SESSIONS, BUS_STATUS.QUEUES]) (BUS_Q_STAT q) 0x20 t := by
  subst h16 h17 h18 h32
  exact qMadeAs hready hq (by simp [State.qRanges, hn, hirq, hthr, haligned, hwin]) hn hon

/-- A queue's registers and place are gone. -/
def State.qGone (q : Nat) (s : State) : State := ((s.wipeRegs (BUS_Q_STAT q) 0x20).withBus { s.bus with queues := tdel s.bus.queues q }).busShow

theorem opQDestroy_eq (hh : s.checkHandle 8 (fun i => (s.busQueue i).isSome) c.handle = none) : opQDestroy c s =
    if s.bus.objs.any (fun e => decide (e.2.queue = some (hIndex c.handle))) || (List.range 8).any (fun n => s.tpOn n && decide (s.get (BUS_C_CFG.TPQ n) = hIndex c.handle)) then
      c.finish 0x22 s else c.finish 0x00 (s.qGone (hIndex c.handle)) := by
  unfold opQDestroy
  rw [hh]
  rfl

theorem qDestroyed (hready : s.ready 0x0E ring.val 0 e) (hh : s.checkHandle 8 (fun i => (s.busQueue i).isSome) e.handle.toNat = none) (hq : hIndex e.handle.toNat = q)
    (hobjs : (s.bus.objs.any fun f => decide (f.2.queue = some q)) = false) (htp : ((List.range 8).any fun n => s.tpOn n && decide (s.get (BUS_C_CFG.TPQ n) = q)) = false) :
    ∃ t, exec (.qDestroy ring e) s = .next t ∧
    s.completed 0x0E ring.val e 0x00 e.handle.toNat t ∧ s.dramKept (s.complAddr 0x0E ring.val) 16 t ∧ t.bus = { s.bus with queues := tdel s.bus.queues q } ∧ (∀ a, BUS_Q_STAT q ≤ a → a < BUS_Q_STAT q + 0x20 → t.reg a = resetOf a) ∧
    s.onlyBut [.latch, .dram, .rings, .bus, .rcd, .cyc] (complFlds 0x0E ring.val ++ [BUS_STATUS.OBJECTS, BUS_STATUS.SESSIONS, BUS_STATUS.QUEUES]) (BUS_Q_STAT q) 0x20 t := by
  subst hq
  have hused : ((s.entryTaken 0x0E ring.val 4 e).bus.objs.any (fun f => decide (f.2.queue = some (hIndex (s.cmdOf 0x0E ring.val e).handle))) ||
      (List.range 8).any (fun n => (s.entryTaken 0x0E ring.val 4 e).tpOn n && decide ((s.entryTaken 0x0E ring.val 4 e).get (BUS_C_CFG.TPQ n) = hIndex (s.cmdOf 0x0E ring.val e).handle))) = false := by
    rw [Bool.or_eq_false_iff]
    exact ⟨hobjs, htp⟩
  have hop := (opQDestroy_eq (s := s.entryTaken 0x0E ring.val 4 e) (c := s.cmdOf 0x0E ring.val e) ((checkHandle_entryTaken fun _ => rfl).trans hh)).trans
    (if_neg (by rw [hused]; decide))
  have hexec : exec (.qDestroy ring e) s = .next _ := congrArg Host.Outcome.next ((runRow_runs hready rfl opQDestroy).trans hop)
  have hgone : (s.entryTaken 0x0E ring.val 4 e).only [.latch, .bus] (regionFlds (BUS_Q_STAT (hIndex e.handle.toNat)) 0x20 ++ busShowFlds)
      ((s.entryTaken 0x0E ring.val 4 e).qGone (hIndex e.handle.toNat)) :=
    only_mono (only_seq (only_seq (only_wipeRegs _ 0x20 _) (only_withBus _ _)) (only_busShow _)) (by simp) (by simp)
  have hin := qRegion (hIndex e.handle.toNat)
  have hregs : ∀ a, BUS_Q_STAT (hIndex e.handle.toNat) ≤ a → a < BUS_Q_STAT (hIndex e.handle.toNat) + 0x20 →
      ((s.entryTaken 0x0E ring.val 4 e).qGone (hIndex e.handle.toNat)).reg a = resetOf a := fun a hl hu => by
    have hwipe : ((s.entryTaken 0x0E ring.val 4 e).wipeRegs (BUS_Q_STAT (hIndex e.handle.toNat)) 0x20).reg a = resetOf a := by rw [reg_wipeRegs, if_pos ⟨hl, hu⟩]
    exact (reg_busShow (by simp only [BUS_STATUS]; omega) _).trans ((reg_withBus ..).trans hwipe)
  have hbus : ((s.entryTaken 0x0E ring.val 4 e).qGone (hIndex e.handle.toNat)).bus = { s.bus with queues := tdel s.bus.queues (hIndex e.handle.toNat) } := bus_busShow _
  change exec _ s = .next ((s.cmdOf 0x0E ring.val e).finish 0x00 ((s.entryTaken 0x0E ring.val 4 e).qGone (hIndex e.handle.toNat))) at hexec
  generalize (s.entryTaken 0x0E ring.val 4 e).qGone (hIndex e.handle.toNat) = w at hexec hgone hregs hbus
  obtain ⟨hdone, hkept, honly, hregs', hbus', -⟩ := busEnds (code := 0) (h := e.handle.toNat) hready (by decide) hgone (by simp) fun f hf =>
    (List.mem_append.1 hf).elim (offRing_qRegion _ ring.val f) (offRing_busShowFlds ring.val f)
  refine ⟨_, hexec, hdone, hkept, hbus'.trans hbus, fun a hl hu => (hregs' a (by omega) (by omega)).trans (hregs a hl hu), onlyBut_of_only honly (by simp) fun f hf => ?_⟩
  rw [List.mem_append, List.mem_append] at hf
  rcases hf with hf | hf | hf
  · exact .inr (List.mem_append_left _ hf)
  · exact .inl (mem_regionFlds hf)
  · exact .inr (List.mem_append_right _ hf)

end Queues

/-- Settles O50: a received frame's way is followed stage by stage (the count, its object or queue, the record), and a command's by what it writes before it ends. -/
theorem canFramesReachTheirObjectOrQueueAndCommandsMakeThem : Obligations.CanFramesReachTheirObjectOrQueueAndCommandsMakeThem := by
  unfold Obligations.CanFramesReachTheirObjectOrQueueAndCommandsMakeThem
  exact ⟨fun n ident fdf brs esi dlc data sof x f o s hlive hmode hf hlegal hfd htp hown hhit hq _ hmoist hrec hnew =>
      frameInObject ⟨hlive, hmode, hf, hlegal, hfd, htp⟩ hown hhit hq hmoist hrec hnew,
    fun n ident fdf brs esi dlc data sof x f o s hlive hmode hf hlegal hfd htp hhit hn _ hnew hlost halert =>
      frameLost ⟨hlive, hmode, hf, hlegal, hfd, htp⟩ hhit hn hnew hlost halert,
    fun n ident fdf brs esi dlc data sof x q f o v s hlive hmode hf hlegal hfd htp hown hhit hq hv hctrl hroom _ _ hmoist hrec hnew =>
      frameInObjectAndQueue ⟨hlive, hmode, hf, hlegal, hfd, htp⟩ hown hhit hq hv hctrl hroom hmoist hrec hnew,
    fun n ident fdf brs esi dlc data sof s hlive hmode hfd hremote htp hobjs hqueues htec => frameUnmatched hlive hmode hfd hremote htp hobjs hqueues htec,
    fun n ident fdf brs esi dlc data sof q f v s hlive hmode hf hlegal hfd htp hobjs hhit hv hctrl hrec hroom =>
      frameInQueue ⟨hlive, hmode, hf, hlegal, hfd, htp⟩ hobjs hhit hv hctrl hrec hroom,
    fun n ident fdf brs esi dlc data sof q f v s hlive hmode hf hlegal hfd htp hobjs hhit hv hctrl hrec hfull =>
      frameDropped ⟨hlive, hmode, hf, hlegal, hfd, htp⟩ hobjs hhit hv hctrl hrec hfull,
    fun ring e x n dir opt ident qh s hready hx h16 h17 h18 h20 h24 hq hn hdir hopt hsingle hid hstd hon hunused =>
      objCreated hready hx h16 h17 h18 h20 h24 hq hn hdir hopt hsingle hid hstd hon hunused,
    fun ring e x o s hready hh hx ho hpend => objDestroyed hready hh hx ho hpend,
    fun ring e x o s hready hh hx ho hpend => objDestroyedPending hready hh hx ho hpend,
    fun ring e q n irq thr base s hready hq h16 h17 h18 h32 hn hirq hthr haligned hwin hon => qCreated hready hq h16 h17 h18 h32 hn hirq hthr haligned hwin hon,
    fun ring e q v s hready hh hq _ hobjs htp => qDestroyed hready hh hq hobjs htp⟩

end Sys2Proof.Machine
end

section
/-! PROOFS. FUS: the statement of chapter 17 on sources and contributions fails at a second IMU source. -/

namespace Sys2Proof.Machine

/-- A running module with Canvas enabled, the first ring of Canvas in use, an acceptance window of 150 ms, and an IMU source that is no direct feed:
SRC_CREATE makes no such source (R373), but the statement does not ask that `s` be reachable. -/
def hostFedImu : State :=
  { ((((State.reset.set STR_STATUS.BUSY 0).setB (enableFld 0x0C) true).setReg (RING_BASE_LO 0x0C 0) 0x4000#32).setReg (CRING_BASE_LO 0x0C 0) 4096#32).set FUS_INST_CFG.W_MS 150 with
    sys := { mode := .run, safe := true, fw := true, wdtOn := true }
    fus := { srcs := [(5, { kind := 4, feed := 0, order := 0, iclass := 0, weight := 0, opt := 0, lb := 1, link := 0, tovOfs := 0, maxPts := 64 })] } }

/-- A SRC_CREATE of an IMU source. -/
def imuEntry : Entry := { flags := 0, handle := 0, tag := 9, args := 0x0001000003020104 }

/-- A source of the kind asked for stands: DUPLICATE. -/
theorem opSrcCreate_secondImu {c : Cmd} {s : State} {x : Nat} (hkind : c.arg 16 1 = 4) (hfeed : c.arg 17 1 = 1) (horder : c.arg 18 1 ≤ 23) (hiclass : c.arg 19 1 ≤ 3)
    (hopt : c.arg 21 1 = 0) (hlb : c.arg 22 2 = 1) (hlink : c.arg 24 4 = 0) (hofs : c.arg 28 4 = 0) (hmax : c.arg 32 4 = 0) (hfree : tfree s.fus.srcs 24 = some x)
    (hunused : (s.fus.srcs.any fun e => decide (e.2.order = c.arg 18 1)) = false)
    (himu : (s.fus.srcs.any fun e => decide (e.2.kind = 4)) = true) : opSrcCreate c s = c.failed 0x21 s := by
  unfold opSrcCreate
  simp only [hkind, hfeed, hopt, hlb, hlink, hofs, hmax, hfree, State.linkRegion, opSrcCreate.go, hunused]
  simp [himu, horder, hiclass]

theorem opSrcCreate_hostFedImu : opSrcCreate (hostFedImu.cmdOf 0x0C 0 imuEntry) (hostFedImu.entryTaken 0x0C 0 1 imuEntry) =
    (hostFedImu.cmdOf 0x0C 0 imuEntry).failed 0x21 (hostFedImu.entryTaken 0x0C 0 1 imuEntry) :=
  opSrcCreate_secondImu (x := 0) (by decide) (by decide) (by decide) (by decide) (by decide) (by decide) (by decide) (by decide) (by decide) (by decide) (by decide) (by decide)

theorem ready_hostFedImu : hostFedImu.ready 0x0C 0 0 imuEntry := by
  unfold State.ready State.ringFree
  decide

/-- Refutes O46: a SRC_CREATE of a second IMU source ends with 0x21 whatever the FEED of the first, and the first clause excludes only one with FEED 1. -/
theorem not_canvasSourcesTakeContributionsByTheirStamp : ¬ Obligations.CanvasSourcesTakeContributionsByTheirStamp := by
  unfold Obligations.CanvasSourcesTakeContributionsByTheirStamp
  rintro ⟨hcreate, -⟩
  obtain ⟨t, hexec, -, -, -, hfus, -⟩ := hcreate 0 imuEntry 0 4 1 2 3 0 0 1 0 0 hostFedImu ready_hostFedImu (by decide) (by decide) (by decide) (by decide) (by decide) (by decide)
    (by decide) (by decide) (by decide) (by decide) (by decide) (by decide) (by decide) (by decide) (by decide) (by decide) (by decide) (by decide) (by decide) (by decide)
    (by decide) (by decide) (by decide)
  have hrun : exec (.srcCreate 0 imuEntry) hostFedImu = .next _ :=
    congrArg Host.Outcome.next ((runRow_runs ready_hostFedImu rfl opSrcCreate).trans opSrcCreate_hostFedImu)
  obtain rfl := Host.Outcome.next.inj (hrun.symm.trans hexec)
  have hsame : ((hostFedImu.cmdOf 0x0C 0 imuEntry).failed 0x21 (hostFedImu.entryTaken 0x0C 0 1 imuEntry)).fus = hostFedImu.fus :=
    same_completeId (b := 0x0C) (r := 0) (c := .fus) (hostFedImu.cmdOf 0x0C 0 imuEntry).id (0x0C * 256 + 0x21) (by decide) (by simp)
  have hlen := congrArg (fun f : FusState => f.srcs.length) (hsame.symm.trans hfus)
  exact absurd hlen (by decide)

end Sys2Proof.Machine
end

section
/-! PROOFS. ETH: the statement of chapter 21 on the switch and 802.1AS fails at the third refused observation: REJ has two bits. -/

namespace Sys2Proof.Machine

/-- A running module with ETH enabled, 802.1AS on port 0 with its link up and asCapable, TMS disabled, and three observations refused. -/
def threeRefused : State :=
  { (((((State.reset.setB (enableFld 0x0F) true).setB ETH_GPTP_CFG.GPTP_EN true).setB (ETH_PORT_CFG.EN 0) true).setB (ETH_PORT_STAT.LINK 0) true).setB ETH_GPTP_STAT.AS_CAP true).set TMS_STATUS.REJ 3 with
    sys := { mode := .run, safe := true, fw := true, wdtOn := true } }

/-- Refutes O52: TMS_STATUS.REJ holds two bits, so a fourth refused observation leaves it at 3, and the clause asks for 4. -/
theorem not_switchForwardsPolicesAndLearnsAndGptpIsObserved : ¬ Obligations.SwitchForwardsPolicesAndLearnsAndGptpIsObserved := by
  unfold Obligations.SwitchForwardsPolicesAndLearnsAndGptpIsObserved
  rintro ⟨-, -, -, -, -, -, -, -, -, -, -, -, hrefused, -⟩
  obtain ⟨t, -, hrej, -⟩ := hrefused 0 0 0 0 threeRefused (by decide) (by decide) (by decide)
  have hthree : threeRefused.get TMS_STATUS.REJ = 3 := by decide
  have hlt : t.get TMS_STATUS.REJ < 2 ^ 2 := Nat.mod_lt _ (by decide)
  rw [hthree] at hrej
  omega

end Sys2Proof.Machine
end

section
/-! PROOFS. ETH: lidar fragments (R454): for the statement of chapter 21 on datagrams and bodies. -/

namespace Sys2Proof.Machine

section Lidar
variable {s u : State} {f off n : Nat} {data payload : List Byte} {r : Rasm}

def State.withEth (x : EthState) (s : State) : State := { s with eth := x }

theorem only_withEth (x : EthState) (s : State) : s.only [.eth] [] (s.withEth x) :=
  ⟨fun p hp => by cases p <;> simp [State.same, State.withEth] at hp ⊢, fun _ _ => rfl, rfl, rfl⟩

/-- Canvas with a body signalled to it. -/
def State.fedFus (s : State) (kind link addr : Nat) (tov : Option Nat) : FusState :=
  if (s.fedSource kind link).isSome then { s.fus with inbox := s.fus.inbox ++ [{ kind := kind, link := link, addr := addr, tov := tov }] } else s.fus

theorem fusFeed_shows (kind link addr : Nat) (tov : Option Nat) (s : State) :
    s.only [.fus] [] (s.fusFeed kind link addr tov) ∧ (s.fusFeed kind link addr tov).fus = s.fedFus kind link addr tov := by
  unfold State.fusFeed State.fedFus
  split
  · exact ⟨⟨fun p hp => by cases p <;> simp [State.same] at hp ⊢, fun _ _ => rfl, rfl, rfl⟩, rfl⟩
  · exact ⟨only_refl .., rfl⟩

/-- Four bytes of a fragment's header. -/
def lidarWord (payload : List Byte) (o : Nat) : Nat := natLE ((payload.drop o).take 4)

/-- A fragment past its body's end or its buffer's. -/
def State.lidarBeyond (s : State) (f : Nat) (payload : List Byte) : Bool :=
  decide (lidarWord payload 8 < lidarWord payload 4 + (payload.drop 16).length) ||
    decide (s.get (ETH_FLOW_BUF.BUF_KB f) * 1024 < lidarWord payload 4 + (payload.drop 16).length)

/-- A fragment of the body `r` in buffer `b`. -/
def State.lidarPlaced (f b off : Nat) (data : List Byte) (r : Rasm) (s : State) : State :=
  if ({ r with got := r.got ++ [(off, data.length)] } : Rasm).complete then
    ((s.dramPuts (s.flowAddr f b + off) data).withEth { s.eth with bodies := tdel s.eth.bodies (2 * f + b) }).fusFeed 2 f (s.flowAddr f b) none
  else (s.dramPuts (s.flowAddr f b + off) data).withEth { s.eth with bodies := tput s.eth.bodies (2 * f + b) { r with got := r.got ++ [(off, data.length)] } }

/-- A fragment of a body not begun, with both buffers free of bodies. -/
theorem lidarRx_first (h0 : tget s.eth.bodies (2 * f) = none) (h1 : tget s.eth.bodies (2 * f + 1) = none) : s.lidarRx f payload =
    if decide (payload.length < 16) || s.lidarBeyond f payload then s.bump (ETH_FLOW_CNT.BAD f) 1
    else if s.fusHolds (s.flowAddr f 0) && s.fusHolds (s.flowAddr f 1) then s.bump (ETH_FLOW_CNT.BUSY f) 1
    else s.lidarPlaced f (if s.fusHolds (s.flowAddr f 0) then 1 else 0) (lidarWord payload 4) (payload.drop 16)
      { sweep := lidarWord payload 0, total := some (lidarWord payload 8), got := [] } := by
  unfold State.lidarRx
  simp only [Nat.add_zero, h0, h1, List.find?_cons, List.find?_nil, Option.any_none, Option.isSome_none, List.foldl_cons, List.foldl_nil, Bool.false_and, Bool.false_eq_true, if_false]
  rfl

/-- A fragment of the body in the first buffer. -/
theorem lidarRx_begun0 (h0 : tget s.eth.bodies (2 * f) = some r) (hsweep : r.sweep = lidarWord payload 0) : s.lidarRx f payload =
    if decide (r.total ≠ some (lidarWord payload 8)) || s.lidarBeyond f payload then s.bump (ETH_FLOW_CNT.BAD f) 1
    else s.lidarPlaced f 0 (lidarWord payload 4) (payload.drop 16) r := by
  unfold State.lidarRx
  simp only [Nat.add_zero, h0, List.find?_cons, Option.any_some]
  rw [show decide (r.sweep = natLE (List.take 4 (List.drop 0 payload))) = true from decide_eq_true hsweep]
  dsimp only
  simp only [Nat.add_zero, h0]
  rfl

/-- A fragment of the body in the second buffer. -/
theorem lidarRx_begun1 (h0 : tget s.eth.bodies (2 * f) = none) (h1 : tget s.eth.bodies (2 * f + 1) = some r) (hsweep : r.sweep = lidarWord payload 0) : s.lidarRx f payload =
    if decide (r.total ≠ some (lidarWord payload 8)) || s.lidarBeyond f payload then s.bump (ETH_FLOW_CNT.BAD f) 1
    else s.lidarPlaced f 1 (lidarWord payload 4) (payload.drop 16) r := by
  unfold State.lidarRx
  simp only [Nat.add_zero, h0, h1, List.find?_cons, Option.any_some, Option.any_none]
  rw [show decide (r.sweep = natLE (List.take 4 (List.drop 0 payload))) = true from decide_eq_true hsweep]
  dsimp only
  simp only [h1]
  rfl

/-- A fragment of another body than the one in the first buffer. -/
theorem lidarRx_other0 (h0 : tget s.eth.bodies (2 * f) = some r) (h1 : tget s.eth.bodies (2 * f + 1) = none) (hsweep : r.sweep ≠ lidarWord payload 0)
    (hheld0 : s.fusHolds (s.flowAddr f 0) = false) (hheld1 : s.fusHolds (s.flowAddr f 1) = false) : s.lidarRx f payload =
    if decide (payload.length < 16) || s.lidarBeyond f payload then s.bump (ETH_FLOW_CNT.BAD f) 1
    else (s.flowIncomp f 0).lidarPlaced f 1 (lidarWord payload 4) (payload.drop 16) { sweep := lidarWord payload 0, total := some (lidarWord payload 8), got := [] } := by
  unfold State.lidarRx
  simp only [Nat.add_zero, h0, h1, List.find?_cons, List.find?_nil, Option.any_some, Option.any_none]
  rw [show decide (r.sweep = natLE (List.take 4 (List.drop 0 payload))) = false from decide_eq_false hsweep]
  dsimp only [List.foldl_cons, List.foldl_nil]
  simp only [Nat.add_zero, h0, h1, hheld0, hheld1, Option.isSome_some, Option.isNone_none, Option.isSome_none, Bool.false_and, Bool.false_eq_true, if_false, if_true,
    Bool.not_false, Bool.true_and]
  rfl

end Lidar

end Sys2Proof.Machine
end

section
/-! PROOFS. ETH: bodies of lidar fragments (R454), from `State.lidarRx`'s equations: for the statement of chapter 21 on datagrams and bodies. -/

namespace Sys2Proof.Machine

section Placed
variable {s : State} {f b off : Nat} {data payload : List Byte} {r : Rasm}

/-- A body with one more fragment. -/
def Rasm.grown (r : Rasm) (off n : Nat) : Rasm := { r with got := r.got ++ [(off, n)] }

theorem memBytes_dramPuts (a : Nat) (bs : List Byte) (s : State) : memBytes (s.dramPuts a bs).dram a bs.length = bs := memBytes_memPuts ..

theorem dramKept_dramPuts (a : Nat) (bs : List Byte) (s : State) : s.dramKept a bs.length (s.dramPuts a bs) := fun x hx => memByte_memPuts_ne bs _ a x hx

/-- A fragment that does not end its body. -/
theorem lidarPlaced_part (h : (r.grown off data.length).complete = false) : s.lidarPlaced f b off data r =
    (s.dramPuts (s.flowAddr f b + off) data).withEth { s.eth with bodies := tput s.eth.bodies (2 * f + b) (r.grown off data.length) } := by
  unfold Rasm.grown at h ⊢
  rw [State.lidarPlaced, if_neg (by simp [h])]

/-- The fragment that ends its body. -/
theorem lidarPlaced_whole (h : (r.grown off data.length).complete = true) : s.lidarPlaced f b off data r =
    ((s.dramPuts (s.flowAddr f b + off) data).withEth { s.eth with bodies := tdel s.eth.bodies (2 * f + b) }).fusFeed 2 f (s.flowAddr f b) none := by
  unfold Rasm.grown at h
  rw [State.lidarPlaced, if_pos h]

/-- One fragment ends at the end of its ranges. -/
theorem coveredFrom_one {n m off len : Nat} (h : off + len ≤ n) (hlen : len < n) : coveredFrom [(off, len)] n (m + 1) 0 = false := by
  by_cases h0 : off = 0
  · subst h0
    have hstop : ∀ j, coveredFrom [(0, len)] n j len = false := fun j => by
      cases j with
      | zero => simpa [coveredFrom] using hlen
      | succ j => simp [coveredFrom]; omega
    by_cases hz : len = 0
    · simp [coveredFrom, hz]; omega
    · simp only [coveredFrom, List.find?_cons, List.find?_nil]
      rw [if_neg (by omega)]
      simp [Nat.pos_of_ne_zero hz, hstop]
  · simp [coveredFrom, h0]; omega

theorem complete_first {sweep total len : Nat} (h : off + len ≤ total) (hlen : len < total) :
    (({ sweep := sweep, total := some total, got := [] } : Rasm).grown off len).complete = false := coveredFrom_one h hlen

theorem flowAddr_zero : s.flowAddr f 0 = s.get64 (ETH_FLOW_BASE_LO f) (ETH_FLOW_BASE_HI f) := by simp [State.flowAddr]

theorem flowAddr_one : s.flowAddr f 1 = s.get64 (ETH_FLOW_BASE_LO f) (ETH_FLOW_BASE_HI f) + s.get (ETH_FLOW_BUF.BUF_KB f) * 1024 := by simp [State.flowAddr]

/-- A fragment inside its body and its buffer. -/
theorem lidarBeyond_false {total : Nat} (hoff : lidarWord payload 4 = off) (htotal : lidarWord payload 8 = total) (hdata : payload.drop 16 = data)
    (hin : off + data.length ≤ total) (hsize : off + data.length ≤ s.get (ETH_FLOW_BUF.BUF_KB f) * 1024) : s.lidarBeyond f payload = false := by
  simp only [State.lidarBeyond, hoff, htotal, hdata, Bool.or_eq_false_iff, decide_eq_false_iff_not, Nat.not_lt]
  exact ⟨hin, hsize⟩

end Placed

section Fragment
variable {s : State} {f : Fin 8} {sweep off total a b : Nat} {data payload : List Byte} {r : Rasm}

theorem exec_lidarFragment (hon : s.enabled 0x0F = true) (hflow : s.getB (ETH_FLOW_CFG.EN f.val) = true) :
    exec (.lidarFragment f payload) s = .next (s.lidarRx f.val payload) := by
  change Host.Outcome.next (if s.enabled 0x0F && s.getB (ETH_FLOW_CFG.EN f.val) then s.lidarRx f.val payload else s) = _
  rw [hon, hflow]
  rfl

/-- A fragment of a body not begun. -/
theorem lidarRx_opens (hlen : 16 ≤ payload.length) (hsweep : lidarWord payload 0 = sweep) (hoff : lidarWord payload 4 = off) (htotal : lidarWord payload 8 = total)
    (hdata : payload.drop 16 = data) (hin : off + data.length ≤ total) (hsize : off + data.length ≤ s.get (ETH_FLOW_BUF.BUF_KB f.val) * 1024)
    (hpart : data.length < total) (h0 : tget s.eth.bodies (2 * f.val) = none) (h1 : tget s.eth.bodies (2 * f.val + 1) = none)
    (ha : a = s.get64 (ETH_FLOW_BASE_LO f.val) (ETH_FLOW_BASE_HI f.val)) (hheld : s.fusHolds a = false) : s.lidarRx f.val payload =
    (s.dramPuts (a + off) data).withEth { s.eth with bodies := tput s.eth.bodies (2 * f.val) { sweep := sweep, total := some total, got := [(off, data.length)] } } := by
  rw [lidarRx_first h0 h1, lidarBeyond_false hoff htotal hdata hin hsize, decide_eq_false (Nat.not_lt.2 hlen), flowAddr_zero, ← ha, hheld]
  simp only [Bool.or_self, Bool.false_and, Bool.false_eq_true, if_false, hsweep, hoff, htotal, hdata]
  rw [lidarPlaced_part (complete_first hin hpart), flowAddr_zero, ← ha]
  rfl

/-- The bytes of a fragment. -/
theorem placed_shows (a : Nat) (data : List Byte) (x : EthState) (s : State) : memBytes ((s.dramPuts a data).withEth x).dram a data.length = data ∧
    s.dramKept a data.length ((s.dramPuts a data).withEth x) ∧ s.only [.dram, .eth] [] ((s.dramPuts a data).withEth x) :=
  ⟨memBytes_dramPuts a data s, dramKept_dramPuts a data s, only_mono (only_seq (only_dramPuts a data s) (only_withEth x _)) (by simp) (by simp)⟩

/-- A fragment opens a free buffer. -/
theorem lidar_opens (hon : s.enabled 0x0F = true) (hflow : s.getB (ETH_FLOW_CFG.EN f.val) = true) (hlen : 16 ≤ payload.length) (hsweep : natLE (payload.take 4) = sweep)
    (hoff : natLE ((payload.drop 4).take 4) = off) (htotal : natLE ((payload.drop 8).take 4) = total) (hdata : payload.drop 16 = data) (hin : off + data.length ≤ total)
    (hsize : off + data.length ≤ s.get (ETH_FLOW_BUF.BUF_KB f.val) * 1024) (hpart : data.length < total) (h0 : tget s.eth.bodies (2 * f.val) = none)
    (h1 : tget s.eth.bodies (2 * f.val + 1) = none) (ha : a = s.get64 (ETH_FLOW_BASE_LO f.val) (ETH_FLOW_BASE_HI f.val)) (hheld : s.fusHolds a = false) :
    ∃ t, exec (.lidarFragment f payload) s = .next t ∧
    t.eth = { s.eth with bodies := tput s.eth.bodies (2 * f.val) { sweep := sweep, total := some total, got := [(off, data.length)] } } ∧
    memBytes t.dram (a + off) data.length = data ∧ s.dramKept (a + off) data.length t ∧ s.only [.dram, .eth] [] t := by
  refine ⟨_, (exec_lidarFragment hon hflow).trans (congrArg Host.Outcome.next (lidarRx_opens hlen hsweep hoff htotal hdata hin hsize hpart h0 h1 ha hheld)), rfl, ?_⟩
  exact placed_shows ..

/-- The fragment that ends the body of the second buffer. -/
theorem lidar_ends (hon : s.enabled 0x0F = true) (hflow : s.getB (ETH_FLOW_CFG.EN f.val) = true) (hsweep : natLE (payload.take 4) = sweep)
    (hoff : natLE ((payload.drop 4).take 4) = off) (htotal : natLE ((payload.drop 8).take 4) = total) (hdata : payload.drop 16 = data) (hin : off + data.length ≤ total)
    (hsize : off + data.length ≤ s.get (ETH_FLOW_BUF.BUF_KB f.val) * 1024) (h0 : tget s.eth.bodies (2 * f.val) = none)
    (h1 : tget s.eth.bodies (2 * f.val + 1) = some r) (hr : r.sweep = sweep) (hrt : r.total = some total) (hwhole : (r.grown off data.length).complete = true)
    (ha : a = s.get64 (ETH_FLOW_BASE_LO f.val) (ETH_FLOW_BASE_HI f.val) + s.get (ETH_FLOW_BUF.BUF_KB f.val) * 1024) :
    ∃ t, exec (.lidarFragment f payload) s = .next t ∧ t.eth = { s.eth with bodies := tdel s.eth.bodies (2 * f.val + 1) } ∧
    memBytes t.dram (a + off) data.length = data ∧ s.dramKept (a + off) data.length t ∧ t.fus = s.fedFus 2 f.val a none ∧ s.only [.dram, .eth, .fus] [] t := by
  have hword : r.sweep = lidarWord payload 0 := hr.trans hsweep.symm
  have hrx : s.lidarRx f.val payload = ((s.dramPuts (a + off) data).withEth { s.eth with bodies := tdel s.eth.bodies (2 * f.val + 1) }).fusFeed 2 f.val a none := by
    have htot : lidarWord payload 8 = total := htotal
    have hof : lidarWord payload 4 = off := hoff
    rw [lidarRx_begun1 h0 h1 hword, lidarBeyond_false hoff htotal hdata hin hsize, htot, decide_eq_false (by simp [hrt]), hof, hdata]
    simp only [Bool.or_self, Bool.false_eq_true, if_false]
    rw [lidarPlaced_whole hwhole, flowAddr_one, ← ha]
  obtain ⟨hbytes, hkept, honly⟩ := placed_shows (a + off) data { s.eth with bodies := tdel s.eth.bodies (2 * f.val + 1) } s
  refine ⟨_, (exec_lidarFragment hon hflow).trans (congrArg Host.Outcome.next hrx), ?_⟩
  have heth : ((s.dramPuts (a + off) data).withEth { s.eth with bodies := tdel s.eth.bodies (2 * f.val + 1) }).eth = { s.eth with bodies := tdel s.eth.bodies (2 * f.val + 1) } := rfl
  have hfed : ((s.dramPuts (a + off) data).withEth { s.eth with bodies := tdel s.eth.bodies (2 * f.val + 1) }).fedFus 2 f.val a none = s.fedFus 2 f.val a none := rfl
  generalize (s.dramPuts (a + off) data).withEth { s.eth with bodies := tdel s.eth.bodies (2 * f.val + 1) } = u at hbytes hkept honly heth hfed
  obtain ⟨hfus, hshow⟩ := fusFeed_shows 2 f.val a none u
  have hdram : (u.fusFeed 2 f.val a none).dram = u.dram := hfus.1 .dram (by simp)
  exact ⟨(hfus.1 .eth (by simp)).trans heth, by rw [hdram]; exact hbytes, dramKept_then hkept hdram.symm, hshow.trans hfed, only_mono (only_seq honly hfus) (by simp) (by simp)⟩

/-- What a discarded body leaves. -/
theorem flowIncomp_shows (f : Fin 8) (s : State) :
    s.only [.eth, .rcd, .cyc] (ETH_FLOW_CNT.INCOMP f.val :: raiseFlds 303) (s.flowIncomp f.val 0) ∧ s.raised 303 (s.flowIncomp f.val 0) ∧
    (s.flowIncomp f.val 0).get (ETH_FLOW_CNT.INCOMP f.val) = min 65535 (s.get (ETH_FLOW_CNT.INCOMP f.val) + 1) ∧
    (s.flowIncomp f.val 0).eth = { s.eth with bodies := tdel s.eth.bodies (2 * f.val) } := by
  have hwin : windowOf (ETH_FLOW_CNT.INCOMP f.val).addr ≠ 0xC1 := by
    have := f.isLt
    simp only [ETH_FLOW_CNT.INCOMP, ETH_FLOW_CNT, windowOf]
    omega
  have hcounted := only_seq (only_withEth { s.eth with bodies := tdel s.eth.bodies (2 * f.val) } s)
    (only_set (f := ETH_FLOW_CNT.INCOMP f.val) (s.withEth { s.eth with bodies := tdel s.eth.bodies (2 * f.val) }) (satTo (2 ^ 16 - 1) (s.get (ETH_FLOW_CNT.INCOMP f.val) + 1))
      (Nat.le_of_ble_eq_true rfl))
  have hcnt : ((s.withEth { s.eth with bodies := tdel s.eth.bodies (2 * f.val) }).bump (ETH_FLOW_CNT.INCOMP f.val) 1).get (ETH_FLOW_CNT.INCOMP f.val) =
      min 65535 (s.get (ETH_FLOW_CNT.INCOMP f.val) + 1) := by
    rw [get_bump_self _ _ _ (Nat.le_of_ble_eq_true rfl), satTo_eq_min]
    rfl
  have heth : ((s.withEth { s.eth with bodies := tdel s.eth.bodies (2 * f.val) }).bump (ETH_FLOW_CNT.INCOMP f.val) 1).eth =
      { s.eth with bodies := tdel s.eth.bodies (2 * f.val) } := rfl
  change s.only _ _ ((s.withEth { s.eth with bodies := tdel s.eth.bodies (2 * f.val) }).bump (ETH_FLOW_CNT.INCOMP f.val) 1) at hcounted
  change s.only _ _ (((s.withEth { s.eth with bodies := tdel s.eth.bodies (2 * f.val) }).bump (ETH_FLOW_CNT.INCOMP f.val) 1).raise 303) ∧
    s.raised 303 (((s.withEth { s.eth with bodies := tdel s.eth.bodies (2 * f.val) }).bump (ETH_FLOW_CNT.INCOMP f.val) 1).raise 303) ∧
    (((s.withEth { s.eth with bodies := tdel s.eth.bodies (2 * f.val) }).bump (ETH_FLOW_CNT.INCOMP f.val) 1).raise 303).get _ = _ ∧
    (((s.withEth { s.eth with bodies := tdel s.eth.bodies (2 * f.val) }).bump (ETH_FLOW_CNT.INCOMP f.val) 1).raise 303).eth = _
  generalize (s.withEth { s.eth with bodies := tdel s.eth.bodies (2 * f.val) }).bump (ETH_FLOW_CNT.INCOMP f.val) 1 = u at hcounted hcnt heth
  have hrun : Ran [.eth] [ETH_FLOW_CNT.INCOMP f.val] s u := ran_of_only (only_mono hcounted (by simp) (by simp)) (by simp) (window_one hwin)
  refine ⟨(hrun.seq (ran_raise u 303)).mono (by simp) (by simp) |>.only, hrun.evt.raised_raise (by decide), (get_raise_outside _ _ hwin).trans hcnt, ?_⟩
  exact ((only_raise u 303).1 .eth (by simp)).trans heth

/-- A fragment of another body discards the first buffer's. -/
theorem lidar_discards (hon : s.enabled 0x0F = true) (hflow : s.getB (ETH_FLOW_CFG.EN f.val) = true) (hlen : 16 ≤ payload.length) (hsweep : natLE (payload.take 4) = sweep)
    (hoff : natLE ((payload.drop 4).take 4) = off) (htotal : natLE ((payload.drop 8).take 4) = total) (hdata : payload.drop 16 = data) (hin : off + data.length ≤ total)
    (hsize : off + data.length ≤ s.get (ETH_FLOW_BUF.BUF_KB f.val) * 1024) (hpart : data.length < total) (h0 : tget s.eth.bodies (2 * f.val) = some r) (hr : r.sweep ≠ sweep)
    (h1 : tget s.eth.bodies (2 * f.val + 1) = none) (ha : a = s.get64 (ETH_FLOW_BASE_LO f.val) (ETH_FLOW_BASE_HI f.val))
    (hb : b = a + s.get (ETH_FLOW_BUF.BUF_KB f.val) * 1024) (hheld : s.fusHolds a = false) (hheld1 : s.fusHolds b = false) :
    ∃ t, exec (.lidarFragment f payload) s = .next t ∧
    t.eth = { s.eth with bodies := tput (tdel s.eth.bodies (2 * f.val)) (2 * f.val + 1) { sweep := sweep, total := some total, got := [(off, data.length)] } } ∧
    t.get (ETH_FLOW_CNT.INCOMP f.val) = min 65535 (s.get (ETH_FLOW_CNT.INCOMP f.val) + 1) ∧ s.raised 303 t ∧
    memBytes t.dram (b + off) data.length = data ∧ s.dramKept (b + off) data.length t ∧ s.only [.dram, .eth, .rcd, .cyc] (ETH_FLOW_CNT.INCOMP f.val :: raiseFlds 303) t := by
  obtain ⟨hincomp, hraised, hcnt, heth⟩ := flowIncomp_shows f s
  have hwin : ∀ g, g ∈ [ETH_FLOW_BASE_LO f.val, ETH_FLOW_BASE_HI f.val, ETH_FLOW_BUF f.val] → ∀ x ∈ ETH_FLOW_CNT.INCOMP f.val :: raiseFlds 303, g ≠ x.addr := by
    intro g hg x hx
    have := f.isLt
    have hw : windowOf g ≠ 0xC1 ∧ g ≠ ETH_FLOW_CNT f.val := by
      simp only [List.mem_cons, List.not_mem_nil, or_false] at hg
      simp only [windowOf]
      rcases hg with rfl | rfl | rfl <;> simp only [ETH_FLOW_BASE_LO, ETH_FLOW_BASE_HI, ETH_FLOW_BUF, ETH_FLOW_CNT] <;> omega
    rcases List.mem_cons.1 hx with rfl | hx
    · exact hw.2
    · exact ne_raiseFlds hw.1 x hx
  have haddr : (s.flowIncomp f.val 0).flowAddr f.val 1 = b := by
    have hlo : (s.flowIncomp f.val 0).reg (ETH_FLOW_BASE_LO f.val) = s.reg (ETH_FLOW_BASE_LO f.val) := reg_of_addrs hincomp (hwin _ (by simp))
    have hhi : (s.flowIncomp f.val 0).reg (ETH_FLOW_BASE_HI f.val) = s.reg (ETH_FLOW_BASE_HI f.val) := reg_of_addrs hincomp (hwin _ (by simp))
    have hkb : (s.flowIncomp f.val 0).get (ETH_FLOW_BUF.BUF_KB f.val) = s.get (ETH_FLOW_BUF.BUF_KB f.val) :=
      hincomp.2.1 _ fun x hx => .inl (hwin (ETH_FLOW_BUF f.val) (by simp) x hx)
    rw [flowAddr_one, State.get64, hlo, hhi, hkb, hb, ha]
    rfl
  have hdram : (s.flowIncomp f.val 0).dram = s.dram := hincomp.1 .dram (by simp)
  have hrx : s.lidarRx f.val payload = (s.flowIncomp f.val 0).lidarPlaced f.val 1 off data { sweep := sweep, total := some total, got := [] } := by
    have hword : r.sweep ≠ lidarWord payload 0 := fun he => hr (he.trans hsweep)
    have hsw : lidarWord payload 0 = sweep := hsweep
    have htot : lidarWord payload 8 = total := htotal
    have hof : lidarWord payload 4 = off := hoff
    rw [lidarRx_other0 h0 h1 hword (by rw [flowAddr_zero, ← ha]; exact hheld) (by rw [flowAddr_one, ← ha, ← hb]; exact hheld1),
      lidarBeyond_false hoff htotal hdata hin hsize, decide_eq_false (Nat.not_lt.2 hlen), hsw, hof, htot, hdata]
    rfl
  rw [lidarPlaced_part (complete_first hin hpart), haddr] at hrx
  generalize s.flowIncomp f.val 0 = u at hincomp hraised hcnt heth haddr hdram hrx
  rw [heth] at hrx
  refine ⟨_, (exec_lidarFragment hon hflow).trans (congrArg Host.Outcome.next hrx), rfl, ?_⟩
  obtain ⟨hbytes, hkept, honly⟩ := placed_shows (b + off) data
    { s.eth with bodies := tput (tdel s.eth.bodies (2 * f.val)) (2 * f.val + 1) { sweep := sweep, total := some total, got := [(off, data.length)] } } u
  exact ⟨(get_of_only_nil honly _).trans hcnt, raised_then hraised honly (by simp), hbytes, dramKept_of_dram hdram hkept,
    only_mono (only_seq hincomp honly) (by simp) (by simp)⟩

/-- A fragment that differs in the length of its body. -/
theorem lidar_bad (hon : s.enabled 0x0F = true) (hflow : s.getB (ETH_FLOW_CFG.EN f.val) = true) (h0 : tget s.eth.bodies (2 * f.val) = some r)
    (hsweep : natLE (payload.take 4) = r.sweep) (htotal : r.total ≠ some (natLE ((payload.drop 8).take 4))) :
    ∃ t, exec (.lidarFragment f payload) s = .next t ∧ t.get (ETH_FLOW_CNT.BAD f.val) = min 255 (s.get (ETH_FLOW_CNT.BAD f.val) + 1) ∧ s.only [] [ETH_FLOW_CNT.BAD f.val] t := by
  have hrx : s.lidarRx f.val payload = s.bump (ETH_FLOW_CNT.BAD f.val) 1 := by
    have hother : r.total ≠ some (lidarWord payload 8) := htotal
    rw [lidarRx_begun0 h0 hsweep.symm, decide_eq_true hother]
    rfl
  refine ⟨_, (exec_lidarFragment hon hflow).trans (congrArg Host.Outcome.next hrx), ?_, only_set _ _ (Nat.le_of_ble_eq_true rfl)⟩
  rw [get_bump_self _ _ _ (Nat.le_of_ble_eq_true rfl), satTo_eq_min]
  rfl

/-- Both buffers held. -/
theorem lidar_busy (hon : s.enabled 0x0F = true) (hflow : s.getB (ETH_FLOW_CFG.EN f.val) = true) (h0 : tget s.eth.bodies (2 * f.val) = none)
    (h1 : tget s.eth.bodies (2 * f.val + 1) = none) (hlen : 16 ≤ payload.length)
    (hin : natLE ((payload.drop 4).take 4) + (payload.length - 16) ≤ natLE ((payload.drop 8).take 4))
    (hsize : natLE ((payload.drop 4).take 4) + (payload.length - 16) ≤ s.get (ETH_FLOW_BUF.BUF_KB f.val) * 1024)
    (ha : a = s.get64 (ETH_FLOW_BASE_LO f.val) (ETH_FLOW_BASE_HI f.val)) (hheld : s.fusHolds a = true)
    (hheld1 : s.fusHolds (a + s.get (ETH_FLOW_BUF.BUF_KB f.val) * 1024) = true) :
    ∃ t, exec (.lidarFragment f payload) s = .next t ∧ t.get (ETH_FLOW_CNT.BUSY f.val) = min 255 (s.get (ETH_FLOW_CNT.BUSY f.val) + 1) ∧ s.only [] [ETH_FLOW_CNT.BUSY f.val] t := by
  rw [← List.length_drop] at hin hsize
  have hrx : s.lidarRx f.val payload = s.bump (ETH_FLOW_CNT.BUSY f.val) 1 := by
    rw [lidarRx_first h0 h1, lidarBeyond_false rfl rfl rfl hin hsize, decide_eq_false (Nat.not_lt.2 hlen), flowAddr_zero, flowAddr_one, ← ha, hheld, hheld1]
    rfl
  refine ⟨_, (exec_lidarFragment hon hflow).trans (congrArg Host.Outcome.next hrx), ?_, only_set _ _ (Nat.le_of_ble_eq_true rfl)⟩
  rw [get_bump_self _ _ _ (Nat.le_of_ble_eq_true rfl), satTo_eq_min]
  rfl

end Fragment

end Sys2Proof.Machine
end

section
/-! PROOFS. ETH: fleet datagrams (R457), the tests in their order: for the statement of chapter 21 on datagrams and bodies. -/

namespace Sys2Proof.Machine

section Datagram
variable {s : State} {d e : List Byte} {stamp len seq i n : Nat} {p : Peer} {k : Nat × Nat}

theorem exec_fltRx (hon : s.enabled 0x0F = true) : exec (.fltRx d stamp) s = .next (s.fltRx d stamp) := by
  change Host.Outcome.next (if s.enabled 0x0F then s.fltRx d stamp else s) = _
  rw [hon]
  rfl

/-- What a count of refused datagrams leaves. -/
theorem fltDrop_shows {f : Fld} (hf : f.lo + f.width ≤ 32) (hwidth : f.width = 8) (hwin : windowOf f.addr ≠ 0xC1) (s : State) :
    (s.fltDrop f).get f = min 255 (s.get f + 1) ∧ (s.get f = 0 → s.raised 299 (s.fltDrop f)) ∧ s.only [.rcd, .cyc] (f :: raiseFlds 299) (s.fltDrop f) := by
  have hcount : ∀ u : State, u.get f = s.get f → (u.bump f 1).get f = min 255 (s.get f + 1) := fun u hu => by
    rw [get_bump_self _ _ _ hf, satTo_eq_min, hwidth, hu]
    rfl
  by_cases h0 : s.get f = 0
  · rw [State.fltDrop, if_pos h0]
    have hbumped := only_set (f := f) (s.raise 299) (satTo (2 ^ f.width - 1) ((s.raise 299).get f + 1)) hf
    exact ⟨hcount _ (get_raise_outside _ _ hwin), fun _ => raised_then (raised_raise s 299) hbumped (window_one hwin),
      only_mono (only_seq (only_raise s 299) hbumped) (by simp) (by simp +contextual [or_imp])⟩
  · rw [State.fltDrop, if_neg h0]
    exact ⟨hcount s rfl, fun h => absurd h h0, only_mono (only_set _ _ hf) (by simp) (by simp)⟩

/-- A datagram that is none of the fleet's. -/
theorem fltRx_malformed (h : natLE (d.take 4) ≠ 0x314C4654 ∨ natLE ((d.drop 4).take 2) ≠ 1 ∨ 1400 < natLE ((d.drop 6).take 2) ∨ d.length ≠ 36 + natLE ((d.drop 6).take 2)) :
    s.fltRx d stamp = s.fltDrop ETH_FLT_CNT.FMT := by
  unfold State.fltRx
  exact if_pos (by simpa [or_assoc] using h)

/-- A datagram of the fleet's form, with `len` bytes sealed. -/
structure IsFleet (d : List Byte) (len : Nat) : Prop where
  magic : natLE (d.take 4) = 0x314C4654
  version : natLE ((d.drop 4).take 2) = 1
  sealedLen : natLE ((d.drop 6).take 2) = len
  short : len ≤ 1400
  size : d.length = 36 + len

/-- The plain text of a datagram that the key of slot `k` opens. -/
def State.fltPlain (d : List Byte) (len k : Nat) (s : State) : Option (List Byte) :=
  (tget s.nv.keys k).bind fun k => Config.aesGcmOpen k.1 (natLE ((d.drop 8).take 12)) (d.take 20) ((d.drop 20).take len) (d.drop (20 + len))

/-- The 64 bytes in front of a datagram's plain text. -/
def State.fltEntry (i len seq stamp : Nat) (s : State) : List Byte :=
  bytesLE 4 (s.handle 0x0A i) ++ bytesLE 2 len ++ bytesLE 2 0 ++ bytesLE 8 seq ++ bytesLE 8 stamp ++ bytesLE 40 0

/-- The place of the next entry of the fleet's receive ring. -/
def State.fltSlot (s : State) : Nat := s.get64 ETH_FLT_RX_BASE_LO ETH_FLT_RX_BASE_HI + 1536 * (s.get ETH_FLT_RX_PI.PI % 2 ^ s.get ETH_FLT_RX_CFG.RLEN)

/-- A record of the receive ring with its slot filled up. -/
def fltFilled (e : List Byte) : List Byte := e ++ List.replicate (1536 - e.length) 0#8

/-- A datagram of the peer in slot `i`, accepted. -/
def State.fltTaken (e : List Byte) (i seq : Nat) (p : Peer) (s : State) : State :=
  (((s.dramPuts s.fltSlot (fltFilled e)).set ETH_FLT_RX_PI.PI ((s.get ETH_FLT_RX_PI.PI + 1) % (2 * 2 ^ s.get ETH_FLT_RX_CFG.RLEN))).withEth
    { s.eth with peers := tput s.eth.peers i (p.accept seq) }).raise 297

theorem fltRx_unknown (h : IsFleet d len) (hpeer : (s.eth.peers.find? fun e => e.2.id = natLE ((d.drop 8).take 4)) = none) :
    s.fltRx d stamp = s.fltDrop ETH_FLT_CNT.NOPEER := by
  obtain ⟨hmagic, hver, hlen, hshort, hsize⟩ := h
  unfold State.fltRx
  rw [if_neg (by simp [hmagic, hver, hlen, hshort, hsize])]
  simp only [hpeer]

/-- A datagram of a known peer. -/
theorem fltRx_known (h : IsFleet d len) (hpeer : (s.eth.peers.find? fun e => e.2.id = natLE ((d.drop 8).take 4)) = some (i, p)) (hseq : natLE ((d.drop 12).take 8) = seq)
    (hreplay : p.replay seq = true) : s.fltRx d stamp = s.fltDrop ETH_FLT_CNT.REPLAY := by
  obtain ⟨hmagic, hver, hlen, hshort, hsize⟩ := h
  unfold State.fltRx
  rw [if_neg (by simp [hmagic, hver, hlen, hshort, hsize])]
  simp only [hpeer, hseq, hreplay, if_true]

/-- A datagram that its peer's key does not open. -/
theorem fltRx_closed (h : IsFleet d len) (hpeer : (s.eth.peers.find? fun e => e.2.id = natLE ((d.drop 8).take 4)) = some (i, p)) (hseq : natLE ((d.drop 12).take 8) = seq)
    (hreplay : p.replay seq = false) (hplain : s.fltPlain d len p.rxKey = none) : s.fltRx d stamp = s.fltDrop ETH_FLT_CNT.AUTH := by
  obtain ⟨hmagic, hver, hlen, hshort, hsize⟩ := h
  unfold State.fltRx
  rw [if_neg (by simp [hmagic, hver, hlen, hshort, hsize])]
  unfold State.fltPlain at hplain
  cases hkey : tget s.nv.keys p.rxKey with
  | none => simp [hpeer, hseq, hreplay, hkey]
  | some k =>
    rw [hkey, Option.bind_some] at hplain
    simp [hpeer, hseq, hreplay, hkey, hlen, hplain]

/-- A datagram that its peer's key opens. -/
theorem fltRx_opened {l : List Byte} (h : IsFleet d len) (hpeer : (s.eth.peers.find? fun e => e.2.id = natLE ((d.drop 8).take 4)) = some (i, p))
    (hseq : natLE ((d.drop 12).take 8) = seq) (hreplay : p.replay seq = false) (hplain : s.fltPlain d len p.rxKey = some l) (hl : l.length = len) : s.fltRx d stamp =
    if s.ringFull ETH_FLT_RX_PI.PI ETH_FLT_RX_CI.CI ETH_FLT_RX_CFG.RLEN then (s.bump ETH_FLT_CNT2.RXDROP 1).raise 298
    else s.fltTaken (s.fltEntry i len seq stamp ++ l) i seq p := by
  subst hl
  obtain ⟨hmagic, hver, hlen, hshort, hsize⟩ := h
  have hhalf : 2 * 2 ^ s.get ETH_FLT_RX_CFG.RLEN / 2 = 2 ^ s.get ETH_FLT_RX_CFG.RLEN := Nat.mul_div_cancel_left _ (by decide)
  unfold State.fltRx
  rw [if_neg (by simp [hmagic, hver, hlen, hshort, hsize])]
  unfold State.fltPlain at hplain
  cases hkey : tget s.nv.keys p.rxKey with
  | none => simp [hkey] at hplain
  | some k =>
    rw [hkey, Option.bind_some] at hplain
    simp only [hpeer, hseq, hreplay, hkey, hlen, hplain, Bool.false_eq_true, if_false, List.take_length]
    simp only [State.ringPut, hhalf]
    rfl

theorem length_fltEntry : (s.fltEntry i len seq stamp).length = 64 := by simp [State.fltEntry, length_bytesLE]

/-- What an accepted datagram leaves. -/
theorem fltTaken_shows (hn : e.length = n) (hle : n ≤ 1536) :
    memBytes (s.fltTaken e i seq p).dram s.fltSlot n = e ∧ s.dramKept s.fltSlot 1536 (s.fltTaken e i seq p) ∧
    (s.fltTaken e i seq p).eth = { s.eth with peers := tput s.eth.peers i (p.accept seq) } ∧
    (s.get ETH_FLT_RX_CFG.RLEN ≤ 10 → (s.fltTaken e i seq p).get ETH_FLT_RX_PI.PI = (s.get ETH_FLT_RX_PI.PI + 1) % (2 * 2 ^ s.get ETH_FLT_RX_CFG.RLEN)) ∧
    s.raised 297 (s.fltTaken e i seq p) ∧ s.only [.dram, .eth, .rcd, .cyc] (ETH_FLT_RX_PI.PI :: raiseFlds 297) (s.fltTaken e i seq p) := by
  have hfill : (fltFilled e).length = 1536 := by simp [fltFilled, hn]; omega
  unfold State.fltTaken
  generalize s.fltSlot = a
  have hbytes : memBytes (s.dramPuts a (fltFilled e)).dram a n = e := by
    rw [← memBytes_take _ _ hle, ← hfill, memBytes_dramPuts, fltFilled, ← hn, List.take_left]
  have hkept : s.dramKept a 1536 (s.dramPuts a (fltFilled e)) := hfill ▸ dramKept_dramPuts a (fltFilled e) s
  have honly := only_dramPuts a (fltFilled e) s
  generalize s.dramPuts a (fltFilled e) = u at hbytes hkept honly
  have hpi : s.get ETH_FLT_RX_CFG.RLEN ≤ 10 → (u.set ETH_FLT_RX_PI.PI ((s.get ETH_FLT_RX_PI.PI + 1) % (2 * 2 ^ s.get ETH_FLT_RX_CFG.RLEN))).get ETH_FLT_RX_PI.PI =
      (s.get ETH_FLT_RX_PI.PI + 1) % (2 * 2 ^ s.get ETH_FLT_RX_CFG.RLEN) := fun hr => by
    rw [get_set_self _ _ _ (by decide)]
    refine Nat.mod_eq_of_lt (Nat.lt_of_lt_of_le (Nat.mod_lt _ (by positivity)) ?_)
    calc 2 * 2 ^ s.get ETH_FLT_RX_CFG.RLEN ≤ 2 * 2 ^ 10 := Nat.mul_le_mul_left _ (Nat.pow_le_pow_right (by decide) hr)
      _ = 2 ^ ETH_FLT_RX_PI.PI.width := by decide
  generalize (s.get ETH_FLT_RX_PI.PI + 1) % (2 * 2 ^ s.get ETH_FLT_RX_CFG.RLEN) = v at hpi
  have hset : s.only [.dram] [ETH_FLT_RX_PI.PI] (u.set ETH_FLT_RX_PI.PI v) :=
    only_mono (only_seq honly (only_set (f := ETH_FLT_RX_PI.PI) u v (by decide))) (by simp) (by simp)
  have hdram : (u.set ETH_FLT_RX_PI.PI v).dram = u.dram := rfl
  generalize u.set ETH_FLT_RX_PI.PI v = w at hpi hset hdram
  rw [← hdram] at hbytes
  have hkept' := dramKept_then hkept hdram.symm
  have hwith := only_withEth { s.eth with peers := tput s.eth.peers i (p.accept seq) } w
  have hpi' : s.get ETH_FLT_RX_CFG.RLEN ≤ 10 → (w.withEth { s.eth with peers := tput s.eth.peers i (p.accept seq) }).get ETH_FLT_RX_PI.PI = v := hpi
  have hbytes' : memBytes (w.withEth { s.eth with peers := tput s.eth.peers i (p.accept seq) }).dram a n = e := hbytes
  have hkept'' : s.dramKept a 1536 (w.withEth { s.eth with peers := tput s.eth.peers i (p.accept seq) }) := hkept'
  have heth : (w.withEth { s.eth with peers := tput s.eth.peers i (p.accept seq) }).eth = { s.eth with peers := tput s.eth.peers i (p.accept seq) } := rfl
  generalize w.withEth { s.eth with peers := tput s.eth.peers i (p.accept seq) } = x at hwith hpi' hbytes' hkept'' heth
  have hrun : Ran [.dram, .eth] [ETH_FLT_RX_PI.PI] s x := ran_of_only (only_mono (only_seq hset hwith) (by simp) (by simp)) (by simp) (by simp; decide)
  have hraise := only_raise x 297
  have hdram' : (x.raise 297).dram = x.dram := hraise.1 .dram (by simp)
  exact ⟨by rw [hdram']; exact hbytes', dramKept_then hkept'' hdram'.symm, (hraise.1 .eth (by simp)).trans heth,
    fun hr => (get_raise_outside _ _ (by decide)).trans (hpi' hr), hrun.evt.raised_raise (by decide), only_mono (only_seq hrun.only hraise) (by simp) (by simp)⟩

/-- FMT. -/
theorem flt_malformed (hon : s.enabled 0x0F = true)
    (h : natLE (d.take 4) ≠ 0x314C4654 ∨ natLE ((d.drop 4).take 2) ≠ 1 ∨ 1400 < natLE ((d.drop 6).take 2) ∨ d.length ≠ 36 + natLE ((d.drop 6).take 2)) :
    ∃ t, exec (.fltRx d stamp) s = .next t ∧ t.get ETH_FLT_CNT.FMT = min 255 (s.get ETH_FLT_CNT.FMT + 1) ∧ (s.get ETH_FLT_CNT.FMT = 0 → s.raised 299 t) ∧
    s.only [.rcd, .cyc] (ETH_FLT_CNT.FMT :: raiseFlds 299) t :=
  ⟨_, (exec_fltRx hon).trans (congrArg Host.Outcome.next (fltRx_malformed h)), fltDrop_shows (by decide) rfl (by decide) s⟩

/-- NOPEER. -/
theorem flt_unknown (hon : s.enabled 0x0F = true) (h : IsFleet d len) (hpeer : (s.eth.peers.find? fun e => e.2.id = natLE ((d.drop 8).take 4)) = none) :
    ∃ t, exec (.fltRx d stamp) s = .next t ∧ t.get ETH_FLT_CNT.NOPEER = min 255 (s.get ETH_FLT_CNT.NOPEER + 1) ∧ (s.get ETH_FLT_CNT.NOPEER = 0 → s.raised 299 t) ∧
    s.only [.rcd, .cyc] (ETH_FLT_CNT.NOPEER :: raiseFlds 299) t :=
  ⟨_, (exec_fltRx hon).trans (congrArg Host.Outcome.next (fltRx_unknown h hpeer)), fltDrop_shows (by decide) rfl (by decide) s⟩

/-- REPLAY. -/
theorem flt_replayed (hon : s.enabled 0x0F = true) (h : IsFleet d len) (hpeer : (s.eth.peers.find? fun e => e.2.id = natLE ((d.drop 8).take 4)) = some (i, p))
    (hseq : natLE ((d.drop 12).take 8) = seq) (hreplay : seq = p.high ∨ seq + 1024 ≤ p.high ∨ p.seen.contains seq = true) :
    ∃ t, exec (.fltRx d stamp) s = .next t ∧ t.get ETH_FLT_CNT.REPLAY = min 255 (s.get ETH_FLT_CNT.REPLAY + 1) ∧ (s.get ETH_FLT_CNT.REPLAY = 0 → s.raised 299 t) ∧
    s.only [.rcd, .cyc] (ETH_FLT_CNT.REPLAY :: raiseFlds 299) t := by
  have hrefused : p.replay seq = true := by simpa [Peer.replay, or_assoc] using hreplay
  exact ⟨_, (exec_fltRx hon).trans (congrArg Host.Outcome.next (fltRx_known h hpeer hseq hrefused)), fltDrop_shows (by decide) rfl (by decide) s⟩

theorem replay_new (hnew : seq ≠ p.high) (hwin : p.high < seq + 1024) (hseen : p.seen.contains seq = false) : p.replay seq = false := by
  simp only [Peer.replay, hseen, Bool.or_false, Bool.or_eq_false_iff, decide_eq_false_iff_not, Nat.not_le]
  exact ⟨hnew, hwin⟩

/-- AUTH. -/
theorem flt_closed (hon : s.enabled 0x0F = true) (h : IsFleet d len) (hpeer : (s.eth.peers.find? fun e => e.2.id = natLE ((d.drop 8).take 4)) = some (i, p))
    (hseq : natLE ((d.drop 12).take 8) = seq) (hreplay : p.replay seq = false) (hplain : s.fltPlain d len p.rxKey = none) :
    ∃ t, exec (.fltRx d stamp) s = .next t ∧ t.get ETH_FLT_CNT.AUTH = min 255 (s.get ETH_FLT_CNT.AUTH + 1) ∧ (s.get ETH_FLT_CNT.AUTH = 0 → s.raised 299 t) ∧
    s.only [.rcd, .cyc] (ETH_FLT_CNT.AUTH :: raiseFlds 299) t :=
  ⟨_, (exec_fltRx hon).trans (congrArg Host.Outcome.next (fltRx_closed h hpeer hseq hreplay hplain)), fltDrop_shows (by decide) rfl (by decide) s⟩

/-- What the peer's key opens. -/
def fltText (d : List Byte) (len k : Nat) : List Byte := (List.range len).map (Config.gcmPlain k (natLE ((d.drop 8).take 12)) (d.take 20) ((d.drop 20).take len))

theorem length_fltText (d : List Byte) (len k : Nat) : (fltText d len k).length = len := by simp [fltText]

theorem fltPlain_of_closed {x : Nat} (hkey : tget s.nv.keys x = some k)
    (hopens : Config.gcmOpens k.1 (natLE ((d.drop 8).take 12)) (d.take 20) ((d.drop 20).take len) (d.drop (20 + len)) = false) : s.fltPlain d len x = none := by
  rw [State.fltPlain, hkey, Option.bind_some, Config.aesGcmOpen, if_neg (by simp [hopens])]

theorem fltPlain_of_opens {x : Nat} (h : IsFleet d len) (hkey : tget s.nv.keys x = some k)
    (hopens : Config.gcmOpens k.1 (natLE ((d.drop 8).take 12)) (d.take 20) ((d.drop 20).take len) (d.drop (20 + len)) = true) :
    s.fltPlain d len x = some (fltText d len k.1) := by
  have hcipher : ((d.drop 20).take len).length = len := by
    rw [List.length_take, List.length_drop, h.size]
    omega
  rw [State.fltPlain, hkey, Option.bind_some, Config.aesGcmOpen, if_pos hopens, hcipher, fltText]

/-- AUTH, or the datagram's entry. -/
theorem flt_accepted (hon : s.enabled 0x0F = true) (h : IsFleet d len) (hpeer : (s.eth.peers.find? fun e => e.2.id = natLE ((d.drop 8).take 4)) = some (i, p))
    (hseq : natLE ((d.drop 12).take 8) = seq) (hreplay : p.replay seq = false) (hkey : tget s.nv.keys p.rxKey = some k)
    (hroom : s.ringFull ETH_FLT_RX_PI.PI ETH_FLT_RX_CI.CI ETH_FLT_RX_CFG.RLEN = false) (he : e = s.fltEntry i len seq stamp) : ∃ t, exec (.fltRx d stamp) s = .next t ∧
    (Config.gcmOpens k.1 (natLE ((d.drop 8).take 12)) (d.take 20) ((d.drop 20).take len) (d.drop (20 + len)) = false →
      t.get ETH_FLT_CNT.AUTH = min 255 (s.get ETH_FLT_CNT.AUTH + 1) ∧ (s.get ETH_FLT_CNT.AUTH = 0 → s.raised 299 t) ∧ s.only [.rcd, .cyc] (ETH_FLT_CNT.AUTH :: raiseFlds 299) t) ∧
    (Config.gcmOpens k.1 (natLE ((d.drop 8).take 12)) (d.take 20) ((d.drop 20).take len) (d.drop (20 + len)) = true →
      memBytes t.dram s.fltSlot (64 + len) = e ++ fltText d len k.1 ∧ s.dramKept s.fltSlot 1536 t ∧ t.eth = { s.eth with peers := tput s.eth.peers i (p.accept seq) } ∧
      (s.get ETH_FLT_RX_CFG.RLEN ≤ 10 → t.get ETH_FLT_RX_PI.PI = (s.get ETH_FLT_RX_PI.PI + 1) % (2 * 2 ^ s.get ETH_FLT_RX_CFG.RLEN)) ∧ s.raised 297 t ∧
      s.only [.dram, .eth, .rcd, .cyc] (ETH_FLT_RX_PI.PI :: raiseFlds 297) t) := by
  subst he
  cases hopens : Config.gcmOpens k.1 (natLE ((d.drop 8).take 12)) (d.take 20) ((d.drop 20).take len) (d.drop (20 + len)) with
  | false =>
    obtain ⟨t, hexec, hshows⟩ := flt_closed (stamp := stamp) hon h hpeer hseq hreplay (fltPlain_of_closed hkey hopens)
    exact ⟨t, hexec, fun _ => hshows, fun hf => absurd hf (by decide)⟩
  | true =>
    have hrx := (fltRx_opened (stamp := stamp) h hpeer hseq hreplay (fltPlain_of_opens h hkey hopens) (length_fltText ..)).trans (if_neg (by simp [hroom]))
    have hlen : (s.fltEntry i len seq stamp ++ fltText d len k.1).length = 64 + len := by rw [List.length_append, length_fltEntry, length_fltText]
    exact ⟨_, (exec_fltRx hon).trans (congrArg Host.Outcome.next hrx), fun hf => absurd hf (by decide), fun _ => fltTaken_shows hlen (by have := h.short; omega)⟩

/-- RXDROP. -/
theorem flt_full (hon : s.enabled 0x0F = true) (h : IsFleet d len) (hpeer : (s.eth.peers.find? fun e => e.2.id = natLE ((d.drop 8).take 4)) = some (i, p))
    (hseq : natLE ((d.drop 12).take 8) = seq) (hreplay : p.replay seq = false) (hkey : tget s.nv.keys p.rxKey = some k)
    (hfull : s.ringFull ETH_FLT_RX_PI.PI ETH_FLT_RX_CI.CI ETH_FLT_RX_CFG.RLEN = true) : ∃ t, exec (.fltRx d stamp) s = .next t ∧
    (Config.gcmOpens k.1 (natLE ((d.drop 8).take 12)) (d.take 20) ((d.drop 20).take len) (d.drop (20 + len)) = true →
      t.get ETH_FLT_CNT2.RXDROP = min 65535 (s.get ETH_FLT_CNT2.RXDROP + 1) ∧ s.raised 298 t ∧ s.only [.rcd, .cyc] (ETH_FLT_CNT2.RXDROP :: raiseFlds 298) t) := by
  refine ⟨_, exec_fltRx hon, fun hopens => ?_⟩
  rw [fltRx_opened (stamp := stamp) h hpeer hseq hreplay (fltPlain_of_opens h hkey hopens) (length_fltText ..), if_pos hfull]
  have hrun := ran_set s (f := ETH_FLT_CNT2.RXDROP) (satTo (2 ^ 16 - 1) (s.get ETH_FLT_CNT2.RXDROP + 1)) (by decide) (by decide)
  have hcount : (s.bump ETH_FLT_CNT2.RXDROP 1).get ETH_FLT_CNT2.RXDROP = min 65535 (s.get ETH_FLT_CNT2.RXDROP + 1) := by
    rw [get_bump_self _ _ _ (by decide), satTo_eq_min]
    rfl
  exact ⟨(get_raise_outside _ _ (by decide)).trans hcount, hrun.evt.raised_raise (by decide), ((hrun.seq (ran_raise _ 298)).mono (by simp) (by simp)).only⟩

end Datagram

end Sys2Proof.Machine
end

section
/-! PROOFS. ETH: peers and key slots (Table 21-4), and how a command of ETH ends: for the statement of chapter 21 on datagrams and bodies. -/

namespace Sys2Proof.Machine

section Ends
variable {s u : State} {ps : List Comp} {fs : List Fld} {code h opcode : Nat} {e : Entry} {g : Fld}

/-- A field of ETH past its ring's registers. -/
theorem apart_complFlds_eth (hg : 0xCF000120 ≤ g.addr ∧ g.addr < 0xD0000000) : ∀ f ∈ complFlds 0x0F 0, g.apart f := by
  have hpi : (CRING_PI 0x0F 0).addr = 0xCF000118 := by decide
  have hjob : FEN_JOB_PEND = 0xCA000010 := by decide
  exact apart_complFlds_of_addr (by omega) (by omega) (by simp only [windowOf]; omega)

theorem offRing_eth (h : ∀ f ∈ fs, f.addr < 0xCF000100 ∨ 0xCF000120 ≤ f.addr) : offRing 0x0F 0 fs := h

/-- How a command of ETH ends behind its work. -/
theorem ethEnds (hready : s.ready 0x0F 0 0 e) (hc : 0x0F * 256 + code < 2 ^ 16) (hv : (s.entryTaken 0x0F 0 opcode e).only ps fs u)
    (hp : .ltc ∉ ps ∧ .rings ∉ ps ∧ .dram ∉ ps) (hoff : offRing 0x0F 0 fs) :
    let t := u.completeId 0x0F 0 (s.cmdOf 0x0F 0 e).id (0x0F * 256 + code) h
    s.completed 0x0F 0 e code h t ∧ s.dramKept (s.complAddr 0x0F 0) 16 t ∧ s.only ([.dram, .rings, .rcd, .cyc] ++ ps) (complFlds 0x0F 0 ++ fs) t ∧
      u.only [.dram, .rings, .rcd, .cyc] (complFlds 0x0F 0) t := by
  have hr := ring_lt_of_ready hready
  obtain ⟨hdone, hkept, honly⟩ := ends_behind (code := code) (h := h) hr (idle_of_ready hready) hc hv hp.1 hp.2.1 hp.2.2 hoff
  exact ⟨hdone, hkept, honly, only_completeId _ _ _ hr⟩

/-- A command of ETH that ends with nothing done. -/
theorem ethRefused (hready : s.ready 0x0F 0 0 e) (hc : 0x0F * 256 + code < 2 ^ 16) :
    let t := (s.cmdOf 0x0F 0 e).finish code (s.entryTaken 0x0F 0 opcode e)
    s.completed 0x0F 0 e code e.handle.toNat t ∧ s.dramKept (s.complAddr 0x0F 0) 16 t ∧ s.only [.dram, .rings, .rcd, .cyc] (complFlds 0x0F 0) t := by
  obtain ⟨hdone, hkept, honly, -⟩ := ethEnds (h := e.handle.toNat) hready hc (only_refl (s.entryTaken 0x0F 0 opcode e) [] []) (by simp) (by simp [offRing])
  exact ⟨hdone, hkept, only_mono honly (by simp) (by simp)⟩

end Ends

/-! ### Peers -/

section Peers
variable {s : State} {c : Cmd} {e : Entry} {x : Nat} {ring : Fin 1}

/-- The peer that a PEER_CREATE asks for. -/
def Cmd.peer (c : Cmd) : Peer :=
  { id := c.arg 16 4, txKey := c.arg 20 1, rxKey := c.arg 21 1, port := c.arg 22 1, mac := natBE (bytesLE 6 (c.arg 24 6)), vid := c.arg 30 2, ip := c.arg 32 4,
    udp := c.arg 36 2 }

/-- A PEER_CREATE with no code of Table 21-4. -/
structure State.peerAllowed (s : State) (p : Peer) : Prop where
  txSlot : p.txKey ≤ 63
  rxSlot : p.rxKey ≤ 63
  port : p.port ≤ 3
  vid : p.vid ≤ 4095
  portOn : s.portOn p.port = true
  txHeld : (tget s.nv.keys p.txKey).isSome = true
  rxHeld : (tget s.nv.keys p.rxKey).isSome = true
  unspent : s.getB (ETH_KEY_STAT.SPENT p.txKey) = false
  single : (s.eth.peers.any fun e => e.2.id = p.id) = false

theorem opPeerCreate_allowed (hx : tfree s.eth.peers 64 = some x) (h : s.peerAllowed c.peer) :
    opPeerCreate c s = c.created ((s.advGen 0x0A x).handle 0x0A x) ((s.advGen 0x0A x).withEth { s.eth with peers := tput s.eth.peers x c.peer }) := by
  obtain ⟨htx, hrx, hport, hvid, hon, hth, hrh, hspent, hsingle⟩ := h
  unfold opPeerCreate
  simp only [hx]
  rw [if_neg (by simp only [Bool.or_eq_true, decide_eq_true_eq]; exact fun h => by rcases h with ((h | h) | h) | h <;> exact Nat.not_lt.2 ‹_› h),
    if_neg, if_neg, if_neg, if_neg]
  · rfl
  · exact fun h => Bool.noConfusion (hsingle.symm.trans h)
  · exact fun h => Bool.noConfusion (hspent.symm.trans h)
  · rw [← Option.not_isSome, ← Option.not_isSome, Bool.or_eq_true, Bool.not_eq_true', Bool.not_eq_true']
    rintro (h | h)
    · exact Bool.noConfusion (h.symm.trans hth)
    · exact Bool.noConfusion (h.symm.trans hrh)
  · rw [Bool.not_eq_true']
    exact fun h => Bool.noConfusion (h.symm.trans hon)

theorem peerCreated (hready : s.ready 0x0F ring.val 0 e) (hx : tfree s.eth.peers 64 = some x) (h : s.peerAllowed (s.cmdOf 0x0F ring.val e).peer) :
    ∃ t, exec (.peerCreate ring e) s = .next t ∧
    s.completed 0x0F ring.val e 0x00 (t.handle 0x0A x) t ∧ s.dramKept (s.complAddr 0x0F ring.val) 16 t ∧ t.gen 0x0A x = (s.gen 0x0A x + 1) % 1024 ∧
    t.eth = { s.eth with peers := tput s.eth.peers x (s.cmdOf 0x0F ring.val e).peer } ∧ s.only [.dram, .rings, .gens, .eth, .rcd, .cyc] (complFlds 0x0F ring.val) t := by
  obtain rfl : ring = 0 := Subsingleton.elim _ _
  change s.ready 0x0F 0 0 e at hready
  change s.peerAllowed (s.cmdOf 0x0F 0 e).peer at h
  have hallowed : (s.entryTaken 0x0F 0 1 e).peerAllowed (s.cmdOf 0x0F 0 e).peer :=
    ⟨h.txSlot, h.rxSlot, h.port, h.vid, h.portOn, h.txHeld, h.rxHeld, h.unspent, h.single⟩
  have hexec : exec (.peerCreate 0 e) s = .next _ :=
    congrArg Host.Outcome.next ((runRow_runs hready rfl opPeerCreate).trans (opPeerCreate_allowed (s := s.entryTaken 0x0F 0 1 e) hx hallowed))
  have hmade := only_seq (only_advGen 0x0A x (s.entryTaken 0x0F 0 1 e))
    (only_withEth { s.eth with peers := tput s.eth.peers x (s.cmdOf 0x0F 0 e).peer } ((s.entryTaken 0x0F 0 1 e).advGen 0x0A x))
  have hgen : (((s.entryTaken 0x0F 0 1 e).advGen 0x0A x).withEth { s.eth with peers := tput s.eth.peers x (s.cmdOf 0x0F 0 e).peer }).gen 0x0A x =
      (s.gen 0x0A x + 1) % 1024 := gen_advGen 0x0A x (s.entryTaken 0x0F 0 1 e)
  have heth : (((s.entryTaken 0x0F 0 1 e).advGen 0x0A x).withEth { s.eth with peers := tput s.eth.peers x (s.cmdOf 0x0F 0 e).peer }).eth =
      { s.eth with peers := tput s.eth.peers x (s.cmdOf 0x0F 0 e).peer } := rfl
  change exec (.peerCreate 0 e) s = .next ((s.cmdOf 0x0F 0 e).created
    ((((s.entryTaken 0x0F 0 1 e).advGen 0x0A x).withEth { s.eth with peers := tput s.eth.peers x (s.cmdOf 0x0F 0 e).peer }).handle 0x0A x)
    (((s.entryTaken 0x0F 0 1 e).advGen 0x0A x).withEth { s.eth with peers := tput s.eth.peers x (s.cmdOf 0x0F 0 e).peer })) at hexec
  generalize ((s.entryTaken 0x0F 0 1 e).advGen 0x0A x).withEth { s.eth with peers := tput s.eth.peers x (s.cmdOf 0x0F 0 e).peer } = u at hexec hmade hgen heth
  rw [created_eq] at hexec
  obtain ⟨hdone, hkept, honly, hrest⟩ := ethEnds (code := 0) (h := u.handle 0x0A x) hready (by decide) hmade (by simp) (by simp [offRing])
  have hgens := hrest.1 .gens (by simp)
  refine ⟨_, hexec, ?_, hkept, (gen_of_gens hgens 0x0A x).trans hgen, (hrest.1 .eth (by simp)).trans heth, only_mono honly (by simp) (by simp)⟩
  rw [handle_of_gens hgens]
  exact hdone

theorem peerDestroyed (hready : s.ready 0x0F ring.val 0 e) (hcheck : s.checkHandle 0x0A s.peerLive e.handle.toNat = none) (hx : hIndex e.handle.toNat = x) :
    ∃ t, exec (.peerDestroy ring e) s = .next t ∧
    s.completed 0x0F ring.val e 0x00 e.handle.toNat t ∧ s.dramKept (s.complAddr 0x0F ring.val) 16 t ∧ t.eth = { s.eth with peers := tdel s.eth.peers x } ∧
    s.only [.dram, .rings, .eth, .rcd, .cyc] (complFlds 0x0F ring.val) t := by
  obtain rfl : ring = 0 := Subsingleton.elim _ _
  change s.ready 0x0F 0 0 e at hready
  have hlive : (s.entryTaken 0x0F 0 2 e).checkHandle 0x0A (s.entryTaken 0x0F 0 2 e).peerLive e.handle.toNat = none := (checkHandle_entryTaken fun _ => rfl).trans hcheck
  have hop : opPeerDestroy (s.cmdOf 0x0F 0 e) (s.entryTaken 0x0F 0 2 e) =
      (s.cmdOf 0x0F 0 e).finish 0x00 ((s.entryTaken 0x0F 0 2 e).withEth { s.eth with peers := tdel s.eth.peers x }) := by
    have hlive' : (s.entryTaken 0x0F 0 2 e).checkHandle 0x0A (s.entryTaken 0x0F 0 2 e).peerLive (s.cmdOf 0x0F 0 e).handle = none := hlive
    unfold opPeerDestroy
    rw [hlive', ← hx]
    rfl
  have hexec : exec (.peerDestroy 0 e) s = .next _ := congrArg Host.Outcome.next ((runRow_runs hready rfl opPeerDestroy).trans hop)
  obtain ⟨hdone, hkept, honly, hrest⟩ := ethEnds (code := 0) (h := e.handle.toNat) hready (by decide)
    (only_withEth { s.eth with peers := tdel s.eth.peers x } (s.entryTaken 0x0F 0 2 e)) (by simp) (by simp [offRing])
  exact ⟨_, hexec, hdone, hkept, hrest.1 .eth (by simp), only_mono honly (by simp) (by simp)⟩

end Peers

/-! ### Key slots -/

section Keys
variable {s : State} {c : Cmd} {e : Entry} {k : Nat} {ring : Fin 1} {keys : Tbl (Nat × Nat)} {counts : Tbl Nat}

/-- A slot's key and its count of datagrams, with KEY_STAT. -/
def State.keyHeld (k : Nat) (keys : Tbl (Nat × Nat)) (counts : Tbl Nat) (s : State) : State :=
  (((s.withNv { s.nv with keys := keys }).withEth { s.eth with counts := counts }).setB (ETH_KEY_STAT.FULL k) (tget keys k).isSome).setB (ETH_KEY_STAT.SPENT k) false

theorem keyStat_addr (k : Nat) : 0xCF000400 ≤ ETH_KEY_STAT k ∧ ETH_KEY_STAT k < 0xCF000500 := by
  simp only [ETH_KEY_STAT]
  omega

theorem only_keyHeld (k : Nat) (keys : Tbl (Nat × Nat)) (counts : Tbl Nat) (s : State) :
    s.only [.nv, .eth] [ETH_KEY_STAT.FULL k, ETH_KEY_STAT.SPENT k] (s.keyHeld k keys counts) :=
  only_mono (only_seq (only_seq (only_seq (only_withNv { s.nv with keys := keys } s) (only_withEth { s.eth with counts := counts } _))
    (only_set (f := ETH_KEY_STAT.FULL k) _ (b2n (tget keys k).isSome) (Nat.le_of_ble_eq_true rfl))) (only_set (f := ETH_KEY_STAT.SPENT k) _ (b2n false) (Nat.le_of_ble_eq_true rfl)))
    (by simp) (by simp)

theorem keyHeld_shows (k : Nat) (keys : Tbl (Nat × Nat)) (counts : Tbl Nat) (s : State) : (s.keyHeld k keys counts).nv = { s.nv with keys := keys } ∧
    (s.keyHeld k keys counts).eth = { s.eth with counts := counts } ∧ (s.keyHeld k keys counts).getB (ETH_KEY_STAT.FULL k) = (tget keys k).isSome ∧
    (s.keyHeld k keys counts).getB (ETH_KEY_STAT.SPENT k) = false := by
  refine ⟨(setB_nv ..).trans ((setB_nv ..).trans rfl), (setB_eth ..).trans ((setB_eth ..).trans rfl), ?_, getB_setB_self _ _ _ (Nat.le_of_ble_eq_true rfl) rfl⟩
  exact (getB_of_get (get_set_apart _ _ _ _ (.inr (.inr (Nat.le_of_ble_eq_true rfl))) (Nat.le_of_ble_eq_true rfl))).trans
    (getB_setB_self _ _ _ (Nat.le_of_ble_eq_true rfl) rfl)

theorem opKeyLoad_eq (hk : c.arg 16 1 = k) (hle : k ≤ 63) (hlc : s.nv.lifeCycle = 0) :
    opKeyLoad c s = c.finish 0x00 (s.keyHeld k (tput s.nv.keys k (c.arg 24 32, 0)) (tdel s.eth.counts k)) := by
  unfold opKeyLoad
  simp only [hk]
  rw [if_neg (by omega), if_neg (by simp [hlc])]
  rfl

theorem opKeyErase_eq (hk : c.arg 16 1 = k) (hle : k ≤ 63) (hlc : s.openLifeCycle = true) :
    opKeyErase c s = c.finish 0x00 (s.keyHeld k (tdel s.nv.keys k) (tdel s.eth.counts k)) := by
  unfold opKeyErase
  simp only [hk]
  rw [if_neg (by omega), if_neg (by simp [hlc])]
  rfl

/-- A command that changes a slot's key ends. -/
theorem keyEnds {opcode : Nat} (hready : s.ready 0x0F 0 0 e) (k : Nat) (keys : Tbl (Nat × Nat)) (counts : Tbl Nat) :
    let t := (s.cmdOf 0x0F 0 e).finish 0x00 ((s.entryTaken 0x0F 0 opcode e).keyHeld k keys counts)
    s.completed 0x0F 0 e 0x00 e.handle.toNat t ∧ s.dramKept (s.complAddr 0x0F 0) 16 t ∧ t.nv = { s.nv with keys := keys } ∧ t.eth = { s.eth with counts := counts } ∧
    t.getB (ETH_KEY_STAT.FULL k) = (tget keys k).isSome ∧ t.getB (ETH_KEY_STAT.SPENT k) = false ∧
    s.only [.dram, .rings, .nv, .eth, .rcd, .cyc] ([ETH_KEY_STAT.FULL k, ETH_KEY_STAT.SPENT k] ++ complFlds 0x0F 0) t := by
  have haddr := keyStat_addr k
  have hwork := only_keyHeld k keys counts (s.entryTaken 0x0F 0 opcode e)
  obtain ⟨hnv, heth, hfull, hspent⟩ := keyHeld_shows k keys counts (s.entryTaken 0x0F 0 opcode e)
  have hoff : offRing 0x0F 0 [ETH_KEY_STAT.FULL k, ETH_KEY_STAT.SPENT k] := offRing_eth (by
    intro f hf
    have hf' : f.addr = ETH_KEY_STAT k := by
      simp only [List.mem_cons, List.not_mem_nil, or_false] at hf
      rcases hf with rfl | rfl <;> rfl
    omega)
  generalize (s.entryTaken 0x0F 0 opcode e).keyHeld k keys counts = u at hwork hnv heth hfull hspent
  obtain ⟨hdone, hkept, honly, hrest⟩ := ethEnds (code := 0) (h := e.handle.toNat) hready (by decide) hwork (by simp) hoff
  exact ⟨hdone, hkept, (hrest.1 .nv (by simp)).trans hnv, (hrest.1 .eth (by simp)).trans heth,
    (getB_of_get (hrest.2.1 _ (apart_complFlds_eth (g := ETH_KEY_STAT.FULL k) ⟨Nat.le_trans (by decide) haddr.1, Nat.lt_trans haddr.2 (by decide)⟩))).trans hfull,
    (getB_of_get (hrest.2.1 _ (apart_complFlds_eth (g := ETH_KEY_STAT.SPENT k) ⟨Nat.le_trans (by decide) haddr.1, Nat.lt_trans haddr.2 (by decide)⟩))).trans hspent,
    only_mono honly (by simp) (by simp +contextual [or_imp])⟩

theorem keyLoaded (hready : s.ready 0x0F ring.val 0 e) (hk : (s.cmdOf 0x0F ring.val e).arg 16 1 = k) (hle : k ≤ 63) (hlc : s.nv.lifeCycle = 0) :
    ∃ t, exec (.keyLoad ring e) s = .next t ∧
    s.completed 0x0F ring.val e 0x00 e.handle.toNat t ∧ s.dramKept (s.complAddr 0x0F ring.val) 16 t ∧
    t.nv = { s.nv with keys := tput s.nv.keys k ((s.cmdOf 0x0F ring.val e).arg 24 32, 0) } ∧ t.eth = { s.eth with counts := tdel s.eth.counts k } ∧
    t.getB (ETH_KEY_STAT.FULL k) = true ∧ t.getB (ETH_KEY_STAT.SPENT k) = false ∧
    s.only [.dram, .rings, .nv, .eth, .rcd, .cyc] ([ETH_KEY_STAT.FULL k, ETH_KEY_STAT.SPENT k] ++ complFlds 0x0F ring.val) t := by
  obtain rfl : ring = 0 := Subsingleton.elim _ _
  change s.ready 0x0F 0 0 e at hready
  have hexec : exec (.keyLoad 0 e) s = .next _ :=
    congrArg Host.Outcome.next ((runRow_runs hready rfl opKeyLoad).trans (opKeyLoad_eq (s := s.entryTaken 0x0F 0 4 e) hk hle hlc))
  obtain ⟨hdone, hkept, hnv, heth, hfull, hspent, honly⟩ := keyEnds (opcode := 4) hready k (tput s.nv.keys k ((s.cmdOf 0x0F 0 e).arg 24 32, 0)) (tdel s.eth.counts k)
  exact ⟨_, hexec, hdone, hkept, hnv, heth, hfull.trans (by rw [tget_tput_self, Option.isSome_some]), hspent, honly⟩

theorem keyErased (hready : s.ready 0x0F ring.val 0 e) (hk : (s.cmdOf 0x0F ring.val e).arg 16 1 = k) (hle : k ≤ 63) (hlc : s.openLifeCycle = true) :
    ∃ t, exec (.keyErase ring e) s = .next t ∧
    s.completed 0x0F ring.val e 0x00 e.handle.toNat t ∧ s.dramKept (s.complAddr 0x0F ring.val) 16 t ∧ t.nv = { s.nv with keys := tdel s.nv.keys k } ∧
    t.eth = { s.eth with counts := tdel s.eth.counts k } ∧ t.getB (ETH_KEY_STAT.FULL k) = false ∧ t.getB (ETH_KEY_STAT.SPENT k) = false ∧
    s.only [.dram, .rings, .nv, .eth, .rcd, .cyc] ([ETH_KEY_STAT.FULL k, ETH_KEY_STAT.SPENT k] ++ complFlds 0x0F ring.val) t := by
  obtain rfl : ring = 0 := Subsingleton.elim _ _
  change s.ready 0x0F 0 0 e at hready
  have hexec : exec (.keyErase 0 e) s = .next _ :=
    congrArg Host.Outcome.next ((runRow_runs hready rfl opKeyErase).trans (opKeyErase_eq (s := s.entryTaken 0x0F 0 5 e) hk hle hlc))
  obtain ⟨hdone, hkept, hnv, heth, hfull, hspent, honly⟩ := keyEnds (opcode := 5) hready k (tdel s.nv.keys k) (tdel s.eth.counts k)
  exact ⟨_, hexec, hdone, hkept, hnv, heth, hfull.trans (by rw [tget_tdel_self, Option.isSome_none]), hspent, honly⟩

theorem keyErase_closed (hready : s.ready 0x0F ring.val 0 e) (hk : (s.cmdOf 0x0F ring.val e).arg 16 1 = k) (hle : k ≤ 63) (hlc : s.openLifeCycle = false) :
    ∃ t, exec (.keyErase ring e) s = .next t ∧
    s.completed 0x0F ring.val e 0x0B e.handle.toNat t ∧ s.dramKept (s.complAddr 0x0F ring.val) 16 t ∧ s.only [.dram, .rings, .rcd, .cyc] (complFlds 0x0F ring.val) t := by
  obtain rfl : ring = 0 := Subsingleton.elim _ _
  change s.ready 0x0F 0 0 e at hready
  have hop : opKeyErase (s.cmdOf 0x0F 0 e) (s.entryTaken 0x0F 0 5 e) = (s.cmdOf 0x0F 0 e).finish 0x0B (s.entryTaken 0x0F 0 5 e) := by
    have hlc' : (s.entryTaken 0x0F 0 5 e).openLifeCycle = false := hlc
    have hk' : (s.cmdOf 0x0F 0 e).arg 16 1 = k := hk
    unfold opKeyErase
    simp only [hk']
    rw [if_neg (by omega), if_pos (by simp [hlc'])]
  have hexec : exec (.keyErase 0 e) s = .next _ := congrArg Host.Outcome.next ((runRow_runs hready rfl opKeyErase).trans hop)
  exact ⟨_, hexec, ethRefused hready (by decide)⟩

end Keys

end Sys2Proof.Machine
end

section
/-! PROOFS. ETH: sequences, SEND and FRAME_TX, and the frame on the wire (R449, R455, R456): for the statement of chapter 21 on datagrams and bodies. -/

namespace Sys2Proof.Machine

/-! ### The wire of a port -/

section Wire
variable {s : State} {p q : Nat} {f : EgFrame} {rest : List EgFrame}

theorem wireLoad_loaded (h : (tget s.eth.wire p).isSome = true) : s.wireLoad p = s := by
  rw [State.wireLoad, if_pos h]

theorem wireLoad_idle (h : (tget s.eth.wire p).isSome = false) (h0 : tgetD s.eth.egress (4 * p) [] = []) (h1 : tgetD s.eth.egress (4 * p + 1) [] = [])
    (h2 : tgetD s.eth.egress (4 * p + 2) [] = []) (h3 : tgetD s.eth.egress (4 * p + 3) [] = []) : s.wireLoad p = s := by
  rw [State.wireLoad, if_neg (by simp [h])]
  simp [h0, h1, h2, h3]

/-- The highest queue of a port that is not empty. -/
theorem find_queue (hq : q < 4) (hf : tgetD s.eth.egress (4 * p + q) [] = f :: rest) (hup : ∀ j, q < j → j < 4 → tgetD s.eth.egress (4 * p + j) [] = []) :
    ([3, 2, 1, 0].find? fun j => !(tgetD s.eth.egress (4 * p + j) []).isEmpty) = some q := by
  have hempty (j : Nat) (h : q < j ∧ j < 4) : (!(tgetD s.eth.egress (4 * p + j) []).isEmpty) = false := by rw [hup j h.1 h.2]; rfl
  have hfull : (!(tgetD s.eth.egress (4 * p + q) []).isEmpty) = true := by rw [hf]; rfl
  match q, hq with
  | 3, _ => rw [List.find?_cons_of_pos (by exact hfull)]
  | 2, _ => rw [List.find?_cons_of_neg (by simp [hempty 3]), List.find?_cons_of_pos (by exact hfull)]
  | 1, _ => rw [List.find?_cons_of_neg (by simp [hempty 3]), List.find?_cons_of_neg (by simp [hempty 2]), List.find?_cons_of_pos (by exact hfull)]
  | 0, _ =>
    rw [List.find?_cons_of_neg (by simp [hempty 3]), List.find?_cons_of_neg (by simp [hempty 2]), List.find?_cons_of_neg (by simp [hempty 1]),
      List.find?_cons_of_pos (by exact hfull)]

theorem wireLoad_takes (h : (tget s.eth.wire p).isSome = false) (hq : q < 4) (hf : tgetD s.eth.egress (4 * p + q) [] = f :: rest)
    (hup : ∀ j, q < j → j < 4 → tgetD s.eth.egress (4 * p + j) [] = []) :
    s.wireLoad p = s.withEth { s.eth with wire := tput s.eth.wire p f, egress := tput s.eth.egress (4 * p + q) rest } := by
  rw [State.wireLoad, if_neg (by simp [h])]
  simp only [find_queue hq hf hup, hf]
  rfl

theorem only_wireLoad (p : Nat) (s : State) : s.only [.eth] [] (s.wireLoad p) := by
  unfold State.wireLoad
  split
  · exact only_refl ..
  · split
    · exact only_refl ..
    · split
      · exact only_withEth _ s
      · exact only_refl ..

theorem tgetD_tput {α : Type} (t : Tbl α) (i j : Nat) (v d : α) : tgetD (tput t i v) j d = if j = i then v else tgetD t j d := by
  simp only [tgetD, tget_tput]
  split <;> rfl

/-- A queue with one more frame. -/
def State.queued (p q : Nat) (f : EgFrame) (s : State) : State :=
  s.withEth { s.eth with egress := tput s.eth.egress (4 * p + q) (tgetD s.eth.egress (4 * p + q) [] ++ [f]) }

theorem egressPut_eq : s.egressPut p q f = (s.queued p q f).wireLoad p := rfl

theorem egressPut_waits (h : (tget s.eth.wire p).isSome = true) : s.egressPut p q f = s.queued p q f := wireLoad_loaded (s := s.queued p q f) h

theorem only_egressPut : s.only [.eth] [] (s.egressPut p q f) :=
  only_mono (only_seq (only_withEth _ s) (only_wireLoad p (s.queued p q f))) (by simp) (by simp)

/-- A frame of an idle port goes on its wire at once. -/
theorem egressPut_leaves (h : (tget s.eth.wire p).isSome = false) (hq : q < 4) (hempty : ∀ j, j < 4 → tgetD s.eth.egress (4 * p + j) [] = []) :
    tget (s.egressPut p q f).eth.wire p = some f ∧ tgetD (s.egressPut p q f).eth.egress (4 * p + q) [] = [] := by
  have hown : tgetD (s.queued p q f).eth.egress (4 * p + q) [] = f :: [] := by
    change tgetD (tput s.eth.egress (4 * p + q) (tgetD s.eth.egress (4 * p + q) [] ++ [f])) _ _ = _
    rw [tgetD_tput, if_pos rfl, hempty q hq]
    rfl
  have hothers (j : Nat) (hj : q < j) (hj' : j < 4) : tgetD (s.queued p q f).eth.egress (4 * p + j) [] = [] := by
    change tgetD (tput s.eth.egress (4 * p + q) (tgetD s.eth.egress (4 * p + q) [] ++ [f])) _ _ = _
    rw [tgetD_tput, if_neg (by omega), hempty j hj']
  rw [egressPut_eq, wireLoad_takes (s := s.queued p q f) h hq hown hothers]
  generalize s.queued p q f = u
  exact ⟨tget_tput_self .., by rw [State.withEth, tgetD_tput, if_pos rfl]⟩

end Wire

/-! ### Sequences (R455, R456) -/

section Sequences
variable {s : State} {slot key ep n : Nat}

theorem epochDue_of_all (h : ((tget s.eth.counts slot).all fun n => decide (0xFFFFFFFF < n)) = true) : s.epochDue slot = true := by
  unfold State.epochDue
  cases hc : tget s.eth.counts slot with
  | none => rfl
  | some c => simpa [hc] using h

theorem nextSeq_counted (hn : tget s.eth.counts slot = some n) (hle : n ≤ 0xFFFFFFFF) :
    s.nextSeq slot key ep = (some (ep * 2 ^ 32 + n), s.withEth { s.eth with counts := tput s.eth.counts slot (n + 1) }) := by
  have hdue : s.epochDue slot = false := by
    unfold State.epochDue
    simp only [hn, decide_eq_false_iff_not]
    omega
  rw [State.nextSeq, hdue, if_pos (by rfl), tgetD, hn]
  rfl

/-- The state with a slot's new epoch. -/
def State.epochTaken (slot key ep : Nat) (s : State) : State :=
  (s.drawn.withNv { s.nv with keys := tput s.nv.keys slot (key, ep + 1) }).withEth { s.eth with counts := tput s.eth.counts slot 1 }

theorem nextSeq_stored (hdue : s.epochDue slot = true) (hep : ep ≠ 0xFFFFFFFF) (hfresh : s.fresh 1 ≠ 1) :
    s.nextSeq slot key ep = (some ((ep + 1) * 2 ^ 32), s.epochTaken slot key ep) := by
  rw [State.nextSeq, hdue, if_neg (by decide), if_neg hep, if_neg hfresh]
  rfl

theorem nextSeq_unstored (hdue : s.epochDue slot = true) (hep : ep ≠ 0xFFFFFFFF) (hfresh : s.fresh 1 = 1) :
    s.nextSeq slot key ep = (none, s.drawn.raise 306) := by
  rw [State.nextSeq, hdue, if_neg (by decide), if_neg hep, if_pos hfresh]

theorem nextSeq_spent (hdue : s.epochDue slot = true) (hspent : s.getB (ETH_KEY_STAT.SPENT slot) = false) :
    s.nextSeq slot key 0xFFFFFFFF = (none, (s.setB (ETH_KEY_STAT.SPENT slot) true).raise 306) := by
  rw [State.nextSeq, hdue, if_neg (by decide), if_pos rfl, State.keySpent, if_neg (by simp [hspent])]

theorem only_epochTaken (slot key ep : Nat) (s : State) : s.only [.free, .nv, .eth] [] (s.epochTaken slot key ep) :=
  only_mono (only_seq (only_seq (only_drawn s) (only_withNv _ _)) (only_withEth _ _)) (by simp) (by simp)

end Sequences

/-! ### SEND -/

section Send
variable {s u : State} {c : Cmd} {e : Entry} {x buf len seq k ep n : Nat} {h : List Byte} {p : Peer} {ring : Fin 1}

/-- A SEND that comes as far as its sequence. -/
structure State.sendReady (s : State) (c : Cmd) (p : Peer) (buf len k ep : Nat) : Prop where
  live : s.checkHandle 0x0A s.peerLive c.handle = none
  peer : tget s.eth.peers (hIndex c.handle) = some p
  bufArg : c.arg 16 8 = buf
  lenArg : c.arg 24 2 = len
  short : len ≤ 1400
  inWins : s.inWins 0x0F buf len = true
  portOn : s.portOn p.port = true
  portUp : s.portUp p.port = true
  key : tget s.nv.keys p.txKey = some (k, ep)

/-- The head of a datagram. -/
def State.fleetHead (s : State) (len seq : Nat) : List Byte :=
  bytesLE 4 0x314C4654 ++ bytesLE 2 1 ++ bytesLE 2 len ++ bytesLE 4 (s.reg ETH_FLT_CFG).toNat ++ bytesLE 8 seq

/-- The frame of a sealed datagram. -/
def State.fleetBytes (s : State) (p : Peer) (k buf len : Nat) (h : List Byte) : List Byte :=
  (s.fleetFrame p (h ++ (Config.aesGcmSeal k (natLE (h.drop 8)) h (memBytes s.dram buf len)).1 ++ (Config.aesGcmSeal k (natLE (h.drop 8)) h (memBytes s.dram buf len)).2)).bytes
    ((s.vlanOf p.vid).any fun i => s.vlanUntag i p.port)

theorem opFleetSend_queued (hs : s.sendReady c p buf len k ep) (hseq : s.nextSeq p.txKey k ep = (some seq, u)) :
    opFleetSend c s = u.egressPut p.port 0 { data := u.fleetBytes p k buf len (u.fleetHead len seq), cmd := some c.id } := by
  obtain ⟨hlive, hpeer, hbuf, hlen, hshort, hwin, hon, hup, hkey⟩ := hs
  unfold opFleetSend
  simp only [hlive, hpeer, hbuf, hlen, hwin, hon, hup, hkey, hseq, decide_eq_false (Nat.not_lt.2 hshort)]
  rfl

theorem opFleetSend_refused (hs : s.sendReady c p buf len k ep) (hseq : s.nextSeq p.txKey k ep = (none, u)) : opFleetSend c s = c.finish 0x22 u := by
  obtain ⟨hlive, hpeer, hbuf, hlen, hshort, hwin, hon, hup, hkey⟩ := hs
  unfold opFleetSend
  simp only [hlive, hpeer, hbuf, hlen, hwin, hon, hup, hkey, hseq, decide_eq_false (Nat.not_lt.2 hshort)]
  rfl

theorem sendReady_entryTaken (hs : s.sendReady c p buf len k ep) : (s.entryTaken 0x0F 0 3 e).sendReady c p buf len k ep :=
  ⟨(checkHandle_entryTaken fun _ => rfl).trans hs.live, hs.peer, hs.bufArg, hs.lenArg, hs.short, hs.inWins, hs.portOn, hs.portUp, hs.key⟩

theorem exec_fleetSend (hready : s.ready 0x0F 0 0 e) : exec (.fleetSend 0 e) s = .next (opFleetSend (s.cmdOf 0x0F 0 e) (s.entryTaken 0x0F 0 3 e)) :=
  congrArg Host.Outcome.next (runRow_runs hready rfl opFleetSend)

/-- A sealed datagram waits behind the frame on the wire. -/
theorem fleetQueued (hready : s.ready 0x0F 0 0 e) {ps : List Comp} (hv : (s.entryTaken 0x0F 0 3 e).only ps [] u) (hp : .rings ∉ ps)
    (hwire : (tget u.eth.wire p.port).isSome = true) (f : EgFrame) :
    s.started 0x0F 0 3 e (u.egressPut p.port 0 f) ∧ s.only ([.rings, .eth] ++ ps) [] (u.egressPut p.port 0 f) ∧
      (u.egressPut p.port 0 f).eth = { u.eth with egress := tput u.eth.egress (4 * p.port) (tgetD u.eth.egress (4 * p.port) [] ++ [f]) } := by
  have hput := only_egressPut (s := u) (p := p.port) (q := 0) (f := f)
  refine ⟨started_of_only (idle_of_ready hready) (only_seq hv hput) (by simp [hp]), only_mono (only_seq (only_seq only_entryTaken hv) hput) (by simp +contextual [or_imp]) (by simp), ?_⟩
  rw [egressPut_waits hwire]
  rfl

theorem sent_counted (hready : s.ready 0x0F ring.val 0 e) (hs : s.sendReady (s.cmdOf 0x0F ring.val e) p buf len k ep) (hn : tget s.eth.counts p.txKey = some n)
    (hle : n ≤ 0xFFFFFFFF) (hseq : seq = ep * 2 ^ 32 + n) (hh : h = s.fleetHead len seq) (hwire : (tget s.eth.wire p.port).isSome = true) :
    ∃ t, exec (.fleetSend ring e) s = .next t ∧ s.started 0x0F ring.val 3 e t ∧
    t.eth = { s.eth with counts := tput s.eth.counts p.txKey (n + 1), egress := tput s.eth.egress (4 * p.port) (tgetD s.eth.egress (4 * p.port) [] ++
      [{ data := s.fleetBytes p k buf len h, cmd := some (s.ring 0x0F ring.val).nextId }]) } ∧ s.only [.rings, .eth] [] t := by
  obtain rfl : ring = 0 := Subsingleton.elim _ _
  change s.ready 0x0F 0 0 e at hready
  change s.sendReady (s.cmdOf 0x0F 0 e) p buf len k ep at hs
  have hop := opFleetSend_queued (sendReady_entryTaken (e := e) hs) (nextSeq_counted (s := s.entryTaken 0x0F 0 3 e) hn hle)
  have hwork := only_withEth { s.eth with counts := tput s.eth.counts p.txKey (n + 1) } (s.entryTaken 0x0F 0 3 e)
  have hexec := (exec_fleetSend hready).trans (congrArg Host.Outcome.next hop)
  obtain ⟨hstarted, honly, heth⟩ := fleetQueued (p := p) hready hwork (by simp) hwire
    { data := s.fleetBytes p k buf len h, cmd := some (s.ring 0x0F 0).nextId }
  rw [← hseq] at hexec
  subst hh
  exact ⟨_, hexec, hstarted, heth, only_mono honly (by simp) (by simp)⟩

theorem offSource_complFlds_eth : offSource 306 (complFlds 0x0F 0) :=
  offSource_cons (by decide) (offSource_cons (by decide) (offSource_raiseFlds (by decide)))

/-- The write of the new epoch failed. -/
theorem send_unstored (hready : s.ready 0x0F 0 0 e) (hs : s.sendReady (s.cmdOf 0x0F 0 e) p buf len k ep)
    (hdue : ((tget s.eth.counts p.txKey).all fun n => decide (0xFFFFFFFF < n)) = true) (hep : ep ≠ 0xFFFFFFFF) (hfresh : s.fresh 1 = 1) :
    ∃ t, exec (.fleetSend 0 e) s = .next t ∧ t.free = s.free + 1 ∧ s.completed 0x0F 0 e 0x22 e.handle.toNat t ∧ s.raised 306 t ∧ t.nv = s.nv ∧ t.eth = s.eth ∧
    s.dramKept (s.complAddr 0x0F 0) 16 t ∧ s.only [.dram, .rings, .free, .rcd, .cyc] (complFlds 0x0F 0 ++ raiseFlds 306) t := by
  have hdue' : (s.entryTaken 0x0F 0 3 e).epochDue p.txKey = true := epochDue_of_all hdue
  have hop := opFleetSend_refused (sendReady_entryTaken (e := e) hs) (nextSeq_unstored (s := s.entryTaken 0x0F 0 3 e) hdue' hep hfresh)
  have hexec := (exec_fleetSend hready).trans (congrArg Host.Outcome.next hop)
  have hwork := only_seq (only_drawn (s.entryTaken 0x0F 0 3 e)) (only_raise _ 306)
  have hfree : ((s.entryTaken 0x0F 0 3 e).drawn.raise 306).free = s.free + 1 := raise_free ..
  have hraised : s.raised 306 ((s.entryTaken 0x0F 0 3 e).drawn.raise 306) := raised_of rfl rfl rfl rfl
  generalize (s.entryTaken 0x0F 0 3 e).drawn.raise 306 = u at hexec hwork hfree hraised
  have hoff : offRing 0x0F 0 (raiseFlds 306) := fun f hf => by
    have hw := windowOf_raiseFlds hf
    have hg : ringG 0x0F 0 = 0xCF000100 := by decide
    simp only [windowOf] at hw
    omega
  obtain ⟨hdone, hkept, honly, hrest⟩ := ethEnds (code := 0x22) (h := e.handle.toNat) hready (by decide) hwork (by simp) hoff
  have hkeep : s.only _ _ u := only_seq only_entryTaken hwork
  exact ⟨_, hexec, (hrest.1 .free (by simp)).trans hfree, hdone, raised_ahead hraised hrest offSource_complFlds_eth,
    (hrest.1 .nv (by simp)).trans (hkeep.1 .nv (by simp)), (hrest.1 .eth (by simp)).trans (hkeep.1 .eth (by simp)), hkept, only_mono honly (by simp) (by simp)⟩

theorem epochTaken_shows (k ep : Nat) (p : Peer) (s : State) : (s.epochTaken p.txKey k ep).free = s.free + 1 ∧
    (s.epochTaken p.txKey k ep).nv = { s.nv with keys := tput s.nv.keys p.txKey (k, ep + 1) } ∧
    (s.epochTaken p.txKey k ep).eth = { s.eth with counts := tput s.eth.counts p.txKey 1 } ∧
    (∀ h, (s.epochTaken p.txKey k ep).fleetBytes p k buf len h = s.fleetBytes p k buf len h) ∧ ∀ seq, (s.epochTaken p.txKey k ep).fleetHead len seq = s.fleetHead len seq :=
  ⟨rfl, rfl, rfl, fun _ => rfl, fun _ => rfl⟩

theorem fleetBytes_entryTaken : (s.entryTaken 0x0F 0 3 e).fleetBytes p k buf len h = s.fleetBytes p k buf len h := rfl

theorem fleetHead_entryTaken : (s.entryTaken 0x0F 0 3 e).fleetHead len seq = s.fleetHead len seq := rfl

/-- A datagram under a new epoch. -/
theorem send_stored (hready : s.ready 0x0F 0 0 e) (hs : s.sendReady (s.cmdOf 0x0F 0 e) p buf len k ep)
    (hdue : ((tget s.eth.counts p.txKey).all fun n => decide (0xFFFFFFFF < n)) = true) (hep : ep ≠ 0xFFFFFFFF) (hfresh : s.fresh 1 ≠ 1)
    (hwire : (tget s.eth.wire p.port).isSome = true) : ∃ t, exec (.fleetSend 0 e) s = .next t ∧ t.free = s.free + 1 ∧ s.started 0x0F 0 3 e t ∧
    t.nv = { s.nv with keys := tput s.nv.keys p.txKey (k, ep + 1) } ∧
    t.eth = { s.eth with counts := tput s.eth.counts p.txKey 1, egress := tput s.eth.egress (4 * p.port) (tgetD s.eth.egress (4 * p.port) [] ++
      [{ data := s.fleetBytes p k buf len (s.fleetHead len ((ep + 1) * 2 ^ 32)), cmd := some (s.ring 0x0F 0).nextId }]) } ∧ s.only [.rings, .nv, .eth, .free] [] t := by
  have hdue' : (s.entryTaken 0x0F 0 3 e).epochDue p.txKey = true := epochDue_of_all hdue
  have hop := opFleetSend_queued (sendReady_entryTaken (e := e) hs) (nextSeq_stored (s := s.entryTaken 0x0F 0 3 e) hdue' hep hfresh)
  have hexec := (exec_fleetSend hready).trans (congrArg Host.Outcome.next hop)
  have hwork := only_epochTaken p.txKey k ep (s.entryTaken 0x0F 0 3 e)
  obtain ⟨hfree, hnv, heth, hbytes, hhead⟩ := epochTaken_shows (buf := buf) (len := len) k ep p (s.entryTaken 0x0F 0 3 e)
  change _ = s.free + 1 at hfree
  change _ = { s.nv with keys := tput s.nv.keys p.txKey (k, ep + 1) } at hnv
  change _ = { s.eth with counts := tput s.eth.counts p.txKey 1 } at heth
  have hid : (s.cmdOf 0x0F 0 e).id = (s.ring 0x0F 0).nextId := rfl
  rw [hbytes, hhead, fleetBytes_entryTaken, fleetHead_entryTaken, hid] at hexec
  generalize (s.entryTaken 0x0F 0 3 e).epochTaken p.txKey k ep = u at hexec hwork hfree hnv heth
  generalize s.fleetBytes p k buf len (s.fleetHead len ((ep + 1) * 2 ^ 32)) = l at hexec
  obtain ⟨hstarted, honly, hput⟩ := fleetQueued (p := p) hready hwork (by simp) (by rw [heth]; exact hwire) { data := l, cmd := some (s.ring 0x0F 0).nextId }
  have hwait := only_egressPut (s := u) (p := p.port) (q := 0) (f := { data := l, cmd := some (s.ring 0x0F 0).nextId })
  rw [heth] at hput
  exact ⟨_, hexec, (hwait.1 .free (by simp)).trans hfree, hstarted, (hwait.1 .nv (by simp)).trans hnv, hput, only_mono honly (by simp) (by simp)⟩

theorem sent_epoch (hready : s.ready 0x0F ring.val 0 e) (hs : s.sendReady (s.cmdOf 0x0F ring.val e) p buf len k ep)
    (hdue : ((tget s.eth.counts p.txKey).all fun n => decide (0xFFFFFFFF < n)) = true) (hep : ep ≠ 0xFFFFFFFF) (hseq : seq = (ep + 1) * 2 ^ 32)
    (hh : h = s.fleetHead len seq) (hwire : (tget s.eth.wire p.port).isSome = true) : ∃ t, exec (.fleetSend ring e) s = .next t ∧ t.free = s.free + 1 ∧
    (s.fresh 1 ≠ 1 → s.started 0x0F ring.val 3 e t ∧ t.nv = { s.nv with keys := tput s.nv.keys p.txKey (k, ep + 1) } ∧ t.dram = s.dram ∧
      t.eth = { s.eth with counts := tput s.eth.counts p.txKey 1, egress := tput s.eth.egress (4 * p.port) (tgetD s.eth.egress (4 * p.port) [] ++
        [{ data := s.fleetBytes p k buf len h, cmd := some (s.ring 0x0F ring.val).nextId }]) }) ∧
    (s.fresh 1 = 1 → s.completed 0x0F ring.val e 0x22 e.handle.toNat t ∧ s.raised 306 t ∧ t.nv = s.nv ∧ t.eth = s.eth) ∧ s.dramKept (s.complAddr 0x0F ring.val) 16 t ∧
    s.only [.dram, .rings, .nv, .eth, .free, .rcd, .cyc] (complFlds 0x0F ring.val ++ raiseFlds 306) t := by
  obtain rfl : ring = 0 := Subsingleton.elim _ _
  subst hh hseq
  by_cases hfresh : s.fresh 1 = 1
  · obtain ⟨t, hexec, hfree, hdone, hraised, hnv, heth, hkept, honly⟩ := send_unstored hready hs hdue hep hfresh
    exact ⟨t, hexec, hfree, fun hne => absurd hfresh hne, fun _ => ⟨hdone, hraised, hnv, heth⟩, hkept, only_mono honly (by simp) (fun _ hf => hf)⟩
  · obtain ⟨t, hexec, hfree, hstarted, hnv, heth, honly⟩ := send_stored hready hs hdue hep hfresh hwire
    have hdram : t.dram = s.dram := honly.1 .dram (by simp)
    exact ⟨t, hexec, hfree, fun _ => ⟨hstarted, hnv, hdram, heth⟩, fun h1 => absurd h1 hfresh, fun y _ => by rw [hdram], only_mono honly (by simp) (by simp)⟩

theorem send_spent (hready : s.ready 0x0F ring.val 0 e) (hs : s.sendReady (s.cmdOf 0x0F ring.val e) p buf len k 0xFFFFFFFF)
    (hdue : ((tget s.eth.counts p.txKey).all fun n => decide (0xFFFFFFFF < n)) = true) (hspent : s.getB (ETH_KEY_STAT.SPENT p.txKey) = false) :
    ∃ t, exec (.fleetSend ring e) s = .next t ∧
    s.completed 0x0F ring.val e 0x22 e.handle.toNat t ∧ s.dramKept (s.complAddr 0x0F ring.val) 16 t ∧ t.getB (ETH_KEY_STAT.SPENT p.txKey) = true ∧ s.raised 306 t ∧
    s.only [.dram, .rings, .rcd, .cyc] (ETH_KEY_STAT.SPENT p.txKey :: complFlds 0x0F ring.val ++ raiseFlds 306) t := by
  obtain rfl : ring = 0 := Subsingleton.elim _ _
  change s.ready 0x0F 0 0 e at hready
  change s.sendReady (s.cmdOf 0x0F 0 e) p buf len k 0xFFFFFFFF at hs
  have haddr := keyStat_addr p.txKey
  have hwin : windowOf (ETH_KEY_STAT.SPENT p.txKey).addr ≠ 0xC1 := by
    simp only [ETH_KEY_STAT.SPENT, windowOf]
    omega
  have hop := opFleetSend_refused (sendReady_entryTaken (e := e) hs) (nextSeq_spent (s := s.entryTaken 0x0F 0 3 e) (epochDue_of_all hdue) hspent)
  have hexec := (exec_fleetSend hready).trans (congrArg Host.Outcome.next hop)
  have hset := only_set (f := ETH_KEY_STAT.SPENT p.txKey) (s.entryTaken 0x0F 0 3 e) (b2n true) (Nat.le_of_ble_eq_true rfl)
  have hbit : ((s.entryTaken 0x0F 0 3 e).setB (ETH_KEY_STAT.SPENT p.txKey) true).getB (ETH_KEY_STAT.SPENT p.txKey) = true :=
    getB_setB_self _ _ _ (Nat.le_of_ble_eq_true rfl) rfl
  change (s.entryTaken 0x0F 0 3 e).only _ _ ((s.entryTaken 0x0F 0 3 e).setB (ETH_KEY_STAT.SPENT p.txKey) true) at hset
  generalize (s.entryTaken 0x0F 0 3 e).setB (ETH_KEY_STAT.SPENT p.txKey) true = v at hexec hset hbit
  have hwork := only_seq hset (only_raise v 306)
  have hbit' := (getB_raise_outside v 306 hwin).trans hbit
  have hraised : s.raised 306 (v.raise 306) := raised_of_only (only_seq only_entryTaken hset) (by simp) (window_one hwin) (raised_raise v 306)
  generalize v.raise 306 = u at hexec hwork hbit' hraised
  have hoff : offRing 0x0F 0 (ETH_KEY_STAT.SPENT p.txKey :: raiseFlds 306) := fun f hf => by
    have hg : ringG 0x0F 0 = 0xCF000100 := by decide
    rcases List.mem_cons.1 hf with rfl | hf
    · have hf' : (ETH_KEY_STAT.SPENT p.txKey).addr = ETH_KEY_STAT p.txKey := rfl
      omega
    · have hw := windowOf_raiseFlds hf
      simp only [windowOf] at hw
      omega
  obtain ⟨hdone, hkept, honly, hrest⟩ := ethEnds (code := 0x22) (h := e.handle.toNat) hready (by decide) hwork (by simp) hoff
  exact ⟨_, hexec, hdone, hkept,
    (getB_of_get (hrest.2.1 _ (apart_complFlds_eth (g := ETH_KEY_STAT.SPENT p.txKey) ⟨Nat.le_trans (by decide) haddr.1, Nat.lt_trans haddr.2 (by decide)⟩))).trans hbit',
    raised_ahead hraised hrest offSource_complFlds_eth, only_mono honly (by simp) (by simp +contextual [or_imp])⟩

end Send

end Sys2Proof.Machine
end

section
/-! PROOFS. ETH: FRAME_TX and the frame that has left (R449, R456), and the statement of chapter 21 on datagrams and bodies. -/

namespace Sys2Proof.Machine

section FrameTx
variable {s : State} {c : Cmd} {e : Entry} {p q buf len : Nat} {ring : Fin 1} {l : List Byte}

/-- A tag's priority has three bits. -/
theorem pcp_lt (v : Nat) (l : List Byte) : (parseFrame v l).pcp < 8 := by
  have hbe : natBE ((l.drop 14).take 2) < 2 ^ 16 := by
    refine Nat.lt_of_lt_of_le (natLE_lt _) (Nat.le_trans (Nat.pow_le_pow_right (by decide) ?_) (by decide : 256 ^ 2 ≤ 2 ^ 16))
    simp
  unfold parseFrame
  dsimp only
  split
  · change _ / 8192 < 8
    omega
  · exact Nat.zero_lt_succ 7

theorem opFrameTx_eq (hp : c.arg 16 1 = p) (hbuf : c.arg 24 8 = buf) (hlen : c.arg 32 2 = len) (hle : p ≤ 3) (hmin : 60 ≤ len) (hmax : len ≤ 1518)
    (hwin : s.inWins 0x0F buf len = true) (hup : s.portUp p = true) :
    opFrameTx c s = s.egressPut p ((parseFrame 0 (memBytes s.dram buf len)).pcp / 2) { data := memBytes s.dram buf len, cmd := some c.id } := by
  have hon : s.portOn p = true := (Bool.and_eq_true_iff.1 hup).1
  have h1 : decide (3 < p) = false := decide_eq_false (by omega)
  have h2 : decide (len < 60) = false := decide_eq_false (by omega)
  have h3 : decide (1518 < len) = false := decide_eq_false (by omega)
  unfold opFrameTx
  simp only [hp, hbuf, hlen, h1, h2, h3, hwin, hup, hon]
  rfl

theorem frameSent (hready : s.ready 0x0F ring.val 0 e) (hp : (s.cmdOf 0x0F ring.val e).arg 16 1 = p) (hbuf : (s.cmdOf 0x0F ring.val e).arg 24 8 = buf)
    (hlen : (s.cmdOf 0x0F ring.val e).arg 32 2 = len) (hle : p ≤ 3) (hmin : 60 ≤ len) (hmax : len ≤ 1518) (hwin : s.inWins 0x0F buf len = true) (hup : s.portUp p = true)
    (hq : (parseFrame 0 (memBytes s.dram buf len)).pcp / 2 = q)
    (hwire : (tget s.eth.wire p).isSome = true ∨ tgetD s.eth.egress (4 * p) [] = [] ∧ tgetD s.eth.egress (4 * p + 1) [] = [] ∧ tgetD s.eth.egress (4 * p + 2) [] = [] ∧
      tgetD s.eth.egress (4 * p + 3) [] = []) : ∃ t, exec (.frameTx ring e) s = .next t ∧ s.started 0x0F ring.val 6 e t ∧
    ((tget s.eth.wire p).isSome = true → t.eth = { s.eth with egress := tput s.eth.egress (4 * p + q) (tgetD s.eth.egress (4 * p + q) [] ++
      [{ data := memBytes s.dram buf len, cmd := some (s.ring 0x0F ring.val).nextId }]) }) ∧
    ((tget s.eth.wire p).isSome = false → tget t.eth.wire p = some { data := memBytes s.dram buf len, cmd := some (s.ring 0x0F ring.val).nextId } ∧
      tgetD t.eth.egress (4 * p + q) [] = []) ∧ s.only [.rings, .eth] [] t := by
  obtain rfl : ring = 0 := Subsingleton.elim _ _
  change s.ready 0x0F 0 0 e at hready
  have hop := opFrameTx_eq (s := s.entryTaken 0x0F 0 6 e) hp hbuf hlen hle hmin hmax hwin hup
  have hexec : exec (.frameTx 0 e) s = .next _ := congrArg Host.Outcome.next ((runRow_runs hready rfl opFrameTx).trans hop)
  have hdram : (s.entryTaken 0x0F 0 6 e).dram = s.dram := rfl
  have hid : (s.cmdOf 0x0F 0 e).id = (s.ring 0x0F 0).nextId := rfl
  have heth : (s.entryTaken 0x0F 0 6 e).eth = s.eth := rfl
  have hlt : q < 4 := by have := pcp_lt 0 (memBytes s.dram buf len); omega
  have hidle := idle_of_ready hready
  have hput := only_egressPut (s := s.entryTaken 0x0F 0 6 e) (p := p) (q := q) (f := { data := memBytes s.dram buf len, cmd := some (s.ring 0x0F 0).nextId })
  have hstarted := started_of_only hidle hput (by simp)
  have honly := only_seq only_entryTaken hput
  change exec (.frameTx 0 e) s = .next ((s.entryTaken 0x0F 0 6 e).egressPut p ((parseFrame 0 (memBytes (s.entryTaken 0x0F 0 6 e).dram buf len)).pcp / 2)
    { data := memBytes (s.entryTaken 0x0F 0 6 e).dram buf len, cmd := some (s.cmdOf 0x0F 0 e).id }) at hexec
  rw [hdram, hid, hq] at hexec
  generalize s.entryTaken 0x0F 0 6 e = u at hexec heth hput hstarted honly
  generalize memBytes s.dram buf len = l at hexec hput hstarted honly
  refine ⟨_, hexec, hstarted, fun h => ?_, fun h => ?_, only_mono honly (by simp) (by simp)⟩
  · rw [egressPut_waits (by rw [heth]; exact h), State.queued, heth]
    rfl
  · obtain ⟨h0, h1, h2, h3⟩ := hwire.resolve_left (by simp [h])
    refine egressPut_leaves (by rw [heth]; exact h) hlt fun j hj => ?_
    rw [heth]
    match j, hj with
    | 0, _ => exact h0
    | 1, _ => exact h1
    | 2, _ => exact h2
    | 3, _ => exact h3

end FrameTx

section Sent
variable {s : State} {p : Fin 4} {f g : EgFrame} {x : Taken} {rest : List EgFrame}

/-- The frame on the wire of a port has left. -/
def State.wireFreed (p : Nat) (s : State) : State := s.withEth { s.eth with wire := tdel s.eth.wire p }

theorem exec_ethTxComplete_command {id : Nat} (hup : s.portUp p.val = true) (hwire : tget s.eth.wire p.val = some f) (hcmd : f.cmd = some id) :
    exec (.ethTxComplete p) s = .next (((s.wireFreed p.val).completeSelf 0x0F 0 id 0x00).wireLoad p.val) := by
  change execEthTxComplete p s = _
  unfold execEthTxComplete
  simp only [hwire, hup, hcmd]
  rfl

theorem exec_ethTxComplete_plain (hup : s.portUp p.val = true) (hwire : tget s.eth.wire p.val = some f) (hcmd : f.cmd = none) :
    exec (.ethTxComplete p) s = .next ((s.wireFreed p.val).wireLoad p.val) := by
  change execEthTxComplete p s = _
  unfold execEthTxComplete
  simp only [hwire, hup, hcmd]
  rfl

/-- A SEND or FRAME_TX ends as its frame has left. -/
theorem frameLeft_command (hup : s.portUp p.val = true) (hwire : tget s.eth.wire p.val = some f) (hcmd : f.cmd = some x.id) (htaken : (s.ring 0x0F 0).taken = [x])
    (h0 : tgetD s.eth.egress (4 * p.val) [] = []) (h1 : tgetD s.eth.egress (4 * p.val + 1) [] = []) (h2 : tgetD s.eth.egress (4 * p.val + 2) [] = [])
    (h3 : tgetD s.eth.egress (4 * p.val + 3) [] = []) : ∃ t, exec (.ethTxComplete p) s = .next t ∧ s.ended 0x0F 0 x 0x00 x.handle t ∧
    s.dramKept (s.complAddr 0x0F 0) 16 t ∧ t.eth = { s.eth with wire := tdel s.eth.wire p.val } ∧ s.only [.dram, .rings, .eth, .rcd, .cyc] (complFlds 0x0F 0) t := by
  have hexec := exec_ethTxComplete_command hup hwire hcmd
  obtain ⟨hended, hkept, honly⟩ := selfEnds (b := 0x0F) (r := 0) (code := 0) (by decide) (by decide) htaken (only_withEth { s.eth with wire := tdel s.eth.wire p.val } s)
    (by simp) (by simp) (by simp) (by simp [offRing])
  have hself := only_completeSelf (s := s.withEth { s.eth with wire := tdel s.eth.wire p.val }) (b := 0x0F) (r := 0) (code := 0) x.id (by decide)
  have heth : ((s.withEth { s.eth with wire := tdel s.eth.wire p.val }).completeSelf 0x0F 0 x.id 0).eth = { s.eth with wire := tdel s.eth.wire p.val } :=
    (hself.1 .eth (by simp)).trans rfl
  change exec (.ethTxComplete p) s = .next (((s.withEth { s.eth with wire := tdel s.eth.wire p.val }).completeSelf 0x0F 0 x.id 0).wireLoad p.val) at hexec
  generalize (s.withEth { s.eth with wire := tdel s.eth.wire p.val }).completeSelf 0x0F 0 x.id 0 = t at hexec hended hkept honly heth
  have hnone : (tget t.eth.wire p.val).isSome = false := by rw [heth, tget_tdel_self, Option.isSome_none]
  rw [wireLoad_idle hnone (by rw [heth]; exact h0) (by rw [heth]; exact h1) (by rw [heth]; exact h2) (by rw [heth]; exact h3)] at hexec
  exact ⟨t, hexec, hended, hkept, heth, only_mono honly (by simp) (by simp)⟩

/-- The next frame follows one that has left. -/
theorem frameLeft_next (hup : s.portUp p.val = true) (hwire : tget s.eth.wire p.val = some f) (hcmd : f.cmd = none)
    (hq : tgetD s.eth.egress (4 * p.val + 3) [] = g :: rest) : ∃ t, exec (.ethTxComplete p) s = .next t ∧
    tget t.eth.wire p.val = some g ∧ t.eth.egress = tput s.eth.egress (4 * p.val + 3) rest ∧ s.only [.eth] [] t := by
  have hnone : (tget (s.wireFreed p.val).eth.wire p.val).isSome = false := by
    change (tget (tdel s.eth.wire p.val) p.val).isSome = false
    rw [tget_tdel_self, Option.isSome_none]
  have hload := wireLoad_takes (s := s.wireFreed p.val) hnone (by decide : 3 < 4) hq (fun j h3 h4 => absurd h3 (by omega))
  have honly := only_seq (only_withEth { s.eth with wire := tdel s.eth.wire p.val } s) (only_wireLoad p.val (s.wireFreed p.val))
  refine ⟨_, exec_ethTxComplete_plain hup hwire hcmd, ?_, ?_, only_mono honly (by simp) (by simp)⟩
  · rw [hload]
    exact tget_tput_self ..
  · rw [hload]
    rfl

end Sent

/-- Settles O53, lidar fragments from `State.lidarRx`'s equations, datagrams test by test (`IsFleet`, `State.fltPlain`), and commands through how a command
of ETH ends (`ethEnds`). -/
theorem fleetDatagramsKeysAndLidarBodiesAreCarried : Obligations.FleetDatagramsKeysAndLidarBodiesAreCarried := by
  unfold Obligations.FleetDatagramsKeysAndLidarBodiesAreCarried
  refine ⟨?_, ?_, ?_, ?_, ?_, ?_, ?_, ?_, ?_, ?_, ?_, ?_, ?_, ?_, ?_, ?_, ?_, ?_, ?_, ?_, ?_, ?_⟩
  · intro f sweep off total data payload a s hon hflow hlen hsweep hoff htotal hdata hin hsize hpart h0 h1 ha hheld
    exact lidar_opens hon hflow hlen hsweep hoff htotal hdata hin hsize hpart h0 h1 ha hheld
  · intro f sweep off total data payload a r s hon hflow hsweep hoff htotal hdata hin hsize h0 h1 hr hrt hwhole ha
    exact lidar_ends hon hflow hsweep hoff htotal hdata hin hsize h0 h1 hr hrt hwhole ha
  · intro f sweep off total data payload a b r s hon hflow hlen hsweep hoff htotal hdata hin hsize hpart h0 hr h1 ha hb hheld hheld1
    exact lidar_discards hon hflow hlen hsweep hoff htotal hdata hin hsize hpart h0 hr h1 ha hb hheld hheld1
  · intro f payload r s hon hflow h0 hsweep htotal
    exact lidar_bad hon hflow h0 hsweep htotal
  · intro f payload a s hon hflow h0 h1 hlen hin hsize ha hheld hheld1
    exact lidar_busy hon hflow h0 h1 hlen hin hsize ha hheld hheld1
  · intro d stamp s hon h
    exact flt_malformed hon h
  · intro d stamp len s hon hmagic hver hlen hshort hsize hpeer
    exact flt_unknown hon ⟨hmagic, hver, hlen, hshort, hsize⟩ hpeer
  · intro d stamp len seq i p s hon hmagic hver hlen hshort hsize hpeer hseq hreplay
    exact flt_replayed hon ⟨hmagic, hver, hlen, hshort, hsize⟩ hpeer hseq hreplay
  · intro d e stamp len seq i p k s hon hmagic hver hlen hshort hsize hpeer hseq hnew hwin hseen hkey hroom he
    exact flt_accepted hon ⟨hmagic, hver, hlen, hshort, hsize⟩ hpeer hseq (replay_new hnew hwin hseen) hkey hroom he
  · intro d stamp len seq i p s hon hmagic hver hlen hshort hsize hpeer hseq hnew hwin hseen hkey
    exact flt_closed hon ⟨hmagic, hver, hlen, hshort, hsize⟩ hpeer hseq (replay_new hnew hwin hseen) (by rw [State.fltPlain, hkey]; rfl)
  · intro d stamp len seq i p k s hon hmagic hver hlen hshort hsize hpeer hseq hnew hwin hseen hkey hfull
    exact flt_full hon ⟨hmagic, hver, hlen, hshort, hsize⟩ hpeer hseq (replay_new hnew hwin hseen) hkey hfull
  · rintro ring e x pid tx rx port vid s hready hx rfl rfl rfl rfl rfl htx hrx hport hvid hon hth hrh hspent hsingle
    exact peerCreated hready hx ⟨htx, hrx, hport, hvid, hon, hth, hrh, hspent, hsingle⟩
  · intro ring e x s hready hcheck hx
    exact peerDestroyed hready hcheck hx
  · rintro ring e x buf len seq k ep c h p s hready hcheck rfl hpeer hbuf hlen hshort hwin hon hup hkey hn hle hseq hh hwire
    exact sent_counted hready ⟨hcheck, hpeer, hbuf, hlen, hshort, hwin, hon, hup, hkey⟩ hn hle hseq hh hwire
  · rintro ring e x buf len seq k ep h p s hready hcheck rfl hpeer hbuf hlen hshort hwin hon hup hkey hdue hep hseq hh hwire
    exact sent_epoch hready ⟨hcheck, hpeer, hbuf, hlen, hshort, hwin, hon, hup, hkey⟩ hdue hep hseq hh hwire
  · rintro ring e x buf len k p s hready hcheck rfl hpeer - hbuf hlen hshort hwin hon hup hkey hdue hspent
    exact send_spent hready ⟨hcheck, hpeer, hbuf, hlen, hshort, hwin, hon, hup, hkey⟩ hdue hspent
  · intro ring e k s hready hk hle hlc
    exact keyLoaded hready hk hle hlc
  · intro ring e k s hready hk hle hlc
    exact keyErased hready hk hle hlc
  · intro ring e k s hready hk hle hlc
    exact keyErase_closed hready hk hle hlc
  · intro ring e p q buf len s hready hp hbuf hlen hle hmin hmax hwin hup hq hwire
    exact frameSent hready hp hbuf hlen hle hmin hmax hwin hup hq hwire
  · intro p f x s hup hwire hcmd htaken _ h0 h1 h2 h3
    exact frameLeft_command hup hwire hcmd htaken h0 h1 h2 h3
  · intro p f g rest s hup hwire hcmd hq
    exact frameLeft_next hup hwire hcmd hq

end Sys2Proof.Machine
end

section
/-! PROOFS. YLD: what its registers show of its layers, and its request on ARB1 (R424): a layer for the statement of chapter 19. -/

namespace Sys2Proof.Machine

section Shown
variable {s u : State} {x : Nat} {v : YldLayer} {ps : List Comp} {fs : List Fld}

theorem yldLayer_of_yld (h : u.yld = s.yld) (x : Nat) : u.yldLayer x = s.yldLayer x := by simp only [State.yldLayer, h]

/-- What the three words of a layer show. -/
def State.yldRow (s : State) (x : Nat) : State :=
  match s.yldLayer x with
  | some v => ((((((s.setB (YLD_L_STAT.LIVE x) true).setB (YLD_L_STAT.LOG_FULL x) v.full).set (YLD_L_STAT.OPEN x) v.openTiles.length).set (YLD_L_STAT.CLOSED x)
    v.closedTiles.length).set (YLD_L_WPOS.WPOS x) v.wpos).set (YLD_L_TSEQ.TSEQ x) v.tseq)
  | none => ((s.setReg (YLD_L_STAT x) 0#32).setReg (YLD_L_WPOS x) 0#32).setReg (YLD_L_TSEQ x) 0#32

/-- The counts of YLD_STATUS. -/
def State.yldCounted (s : State) : State :=
  (s.set YLD_STATUS.LAYERS s.yld.layers.length).set YLD_STATUS.CLOSED (s.yld.layers.foldl (fun a e => a + e.2.closedTiles.length) 0)

/-- YLD_STATUS. -/
def State.yldTop (s : State) : State := s.yldCounted.setB YLD_STATUS.WRITING (s.yldCounted.arbHolds 21 && s.yldCounted.yldWritable)

theorem yldShow_eq (s : State) : s.yldShow = (List.range 8).foldl State.yldRow s.yldTop := rfl

theorem only_yldTop (s : State) : s.only [] [YLD_STATUS.LAYERS, YLD_STATUS.CLOSED, YLD_STATUS.WRITING] s.yldTop :=
  only_then_setB (only_then_set (only_then_set (only_refl ..) _ (by simp) (by decide)) _ (by simp) (by decide)) _ (by simp) (by decide)

def yldRowFlds (x : Nat) : List Fld := [wordAt (YLD_L_STAT x), wordAt (YLD_L_WPOS x), wordAt (YLD_L_TSEQ x)]

theorem yldRow_some (h : s.yldLayer x = some v) : s.yldRow x =
    ((((((s.setB (YLD_L_STAT.LIVE x) true).setB (YLD_L_STAT.LOG_FULL x) v.full).set (YLD_L_STAT.OPEN x) v.openTiles.length).set (YLD_L_STAT.CLOSED x)
    v.closedTiles.length).set (YLD_L_WPOS.WPOS x) v.wpos).set (YLD_L_TSEQ.TSEQ x) v.tseq) := by rw [State.yldRow, h]

theorem yldRow_none (h : s.yldLayer x = none) :
    s.yldRow x = ((s.setReg (YLD_L_STAT x) 0#32).setReg (YLD_L_WPOS x) 0#32).setReg (YLD_L_TSEQ x) 0#32 := by rw [State.yldRow, h]

theorem only_yldRow (x : Nat) (s : State) : s.only [] (yldRowFlds x) (s.yldRow x) := by
  cases h : s.yldLayer x with
  | none =>
    rw [yldRow_none h]
    exact only_then_setReg (only_then_setReg (only_then_setReg (only_refl ..) _ (by simp [yldRowFlds])) _ (by simp [yldRowFlds])) _ (by simp [yldRowFlds])
  | some v =>
    rw [yldRow_some h]
    have hstat : wordAt (YLD_L_STAT x) ∈ yldRowFlds x := by simp [yldRowFlds]
    have hle : ∀ {n m : Nat}, Nat.ble n m = true → n ≤ m := Nat.le_of_ble_eq_true
    exact only_then_word (only_then_word (only_then_word (only_then_word (only_then_word (only_then_word (only_refl ..) (f := YLD_L_STAT.LIVE x) _ hstat (hle rfl))
      (f := YLD_L_STAT.LOG_FULL x) _ hstat (hle rfl)) (f := YLD_L_STAT.OPEN x) _ hstat (hle rfl)) (f := YLD_L_STAT.CLOSED x) _ hstat (hle rfl))
      (f := YLD_L_WPOS.WPOS x) _ (by simp [yldRowFlds, YLD_L_WPOS.WPOS]) (hle rfl)) (f := YLD_L_TSEQ.TSEQ x) _ (by simp [yldRowFlds, YLD_L_TSEQ.TSEQ]) (hle rfl)

theorem only_yldShow (s : State) : s.only [] yldShowFlds s.yldShow := by
  rw [yldShow_eq]
  refine only_trans (only_mono (only_yldTop s) (by simp) (by simp [yldShowFlds])) (only_foldl (fun u x hx => only_mono (only_yldRow x u) (by simp) fun f hf => ?_) _)
  exact List.mem_append_right _ (List.mem_flatMap.2 ⟨x, hx, hf⟩)

theorem window_yldShowFlds : ∀ f ∈ yldShowFlds, windowOf f.addr = 0xCD := by decide

theorem yld_yldShow (s : State) : s.yldShow.yld = s.yld := (only_yldShow s).1 .yld (by simp)

/-- Another layer's words. -/
theorem apart_yldRow {y a : Nat} (hx : x < 8) (hy : y < 8) (hne : y ≠ x) (ha : a = YLD_L_STAT x ∨ a = YLD_L_WPOS x ∨ a = YLD_L_TSEQ x) : ∀ f ∈ yldRowFlds y, a ≠ f.addr := by
  intro f hf
  simp only [yldRowFlds, List.mem_cons, List.not_mem_nil, or_false] at hf
  rcases hf with rfl | rfl | rfl <;> rcases ha with rfl | rfl | rfl <;> simp only [wordAt, YLD_L_STAT, YLD_L_WPOS, YLD_L_TSEQ] <;> omega

/-- What a layer's row sets, all the rows leave. -/
theorem yldShow_row (hx : x < 8) {P : State → Prop} (hset : ∀ u : State, u.yld = s.yld → P (u.yldRow x))
    (hkeep : ∀ u w : State, (∀ a, a = YLD_L_STAT x ∨ a = YLD_L_WPOS x ∨ a = YLD_L_TSEQ x → w.reg a = u.reg a) → P u → P w) : P s.yldShow := by
  rw [yldShow_eq]
  have hyld : s.yldTop.yld = s.yld := (only_yldTop s).1 .yld (by simp)
  have hrow (u : State) (y : Nat) : (u.yldRow y).yld = u.yld := (only_yldRow y u).1 .yld (by simp)
  generalize s.yldTop = v at hyld
  have hsplit : List.range 8 = List.range x ++ (x :: (List.range (7 - x)).map fun k => x + 1 + k) := by
    have h : x = 0 ∨ x = 1 ∨ x = 2 ∨ x = 3 ∨ x = 4 ∨ x = 5 ∨ x = 6 ∨ x = 7 := by omega
    rcases h with rfl | rfl | rfl | rfl | rfl | rfl | rfl | rfl <;> rfl
  rw [hsplit, List.foldl_append, List.foldl_cons]
  have hbefore : ((List.range x).foldl State.yldRow v).yld = s.yld := (foldl_same (g := fun u : State => u.yld) fun u y => hrow u y).trans hyld
  generalize (List.range x).foldl State.yldRow v = w at hbefore
  refine foldl_keeps (P := P) (fun u y hy hu => ?_) (hset w hbefore)
  obtain ⟨k, hk, rfl⟩ := List.mem_map.1 hy
  have hk' := List.mem_range.1 hk
  exact hkeep u _ (fun a ha => reg_of_addrs (only_yldRow _ u) (apart_yldRow hx (by omega) (by omega) ha)) hu

/-- What YLD shows of a layer. -/
theorem yldShow_some (hx : x < 8) (h : s.yldLayer x = some v) : s.yldShow.getB (YLD_L_STAT.LIVE x) = true ∧ s.yldShow.getB (YLD_L_STAT.LOG_FULL x) = v.full ∧
    s.yldShow.get (YLD_L_WPOS.WPOS x) = v.wpos % 2 ^ 25 ∧ s.yldShow.get (YLD_L_TSEQ.TSEQ x) = v.tseq % 2 ^ 32 := by
  have hle : ∀ {n m : Nat}, Nat.ble n m = true → n ≤ m := Nat.le_of_ble_eq_true
  have haddr : YLD_L_STAT x ≠ YLD_L_WPOS x ∧ YLD_L_STAT x ≠ YLD_L_TSEQ x ∧ YLD_L_WPOS x ≠ YLD_L_TSEQ x := by
    simp only [YLD_L_STAT, YLD_L_WPOS, YLD_L_TSEQ]; omega
  obtain ⟨hsw, hst, hwt⟩ := haddr
  refine yldShow_row hx (P := fun u => u.getB (YLD_L_STAT.LIVE x) = true ∧ u.getB (YLD_L_STAT.LOG_FULL x) = v.full ∧ u.get (YLD_L_WPOS.WPOS x) = v.wpos % 2 ^ 25 ∧
    u.get (YLD_L_TSEQ.TSEQ x) = v.tseq % 2 ^ 32) (fun u hu => ?_) fun u w hreg hP => ?_
  · rw [yldRow_some ((yldLayer_of_yld hu x).trans h)]
    refine ⟨?_, ?_, ?_, get_set_self _ _ _ (hle rfl)⟩
    · refine (getB_of_get ?_).trans (getB_setB_self u (YLD_L_STAT.LIVE x) true (hle rfl) rfl)
      exact (get_set_apart _ _ _ _ (.inl hst) (hle rfl)).trans ((get_set_apart _ _ _ _ (.inl hsw) (hle rfl)).trans ((get_set_apart _ _ _ _ (.inr (.inr (hle rfl))) (hle rfl)).trans
        ((get_set_apart _ _ _ _ (.inr (.inr (hle rfl))) (hle rfl)).trans (get_setB_apart _ _ _ _ (.inr (.inr (hle rfl))) (hle rfl)))))
    · refine (getB_of_get ?_).trans (getB_setB_self (u.setB (YLD_L_STAT.LIVE x) true) (YLD_L_STAT.LOG_FULL x) v.full (hle rfl) rfl)
      exact (get_set_apart _ _ _ _ (.inl hst) (hle rfl)).trans ((get_set_apart _ _ _ _ (.inl hsw) (hle rfl)).trans ((get_set_apart _ _ _ _ (.inr (.inr (hle rfl))) (hle rfl)).trans
        (get_set_apart _ _ _ _ (.inr (.inr (hle rfl))) (hle rfl))))
    · exact (get_set_apart _ _ _ _ (.inl hwt) (hle rfl)).trans (get_set_self _ _ _ (hle rfl))
  · obtain ⟨hlive, hfull, hwpos, htseq⟩ := hP
    exact ⟨(getB_congr _ (hreg _ (.inl rfl))).trans hlive, (getB_congr _ (hreg _ (.inl rfl))).trans hfull, (get_congr _ (hreg _ (.inr (.inl rfl)))).trans hwpos,
      (get_congr _ (hreg _ (.inr (.inr rfl)))).trans htseq⟩

/-- What YLD shows where no layer stands. -/
theorem yldShow_none (hx : x < 8) (h : s.yldLayer x = none) :
    s.yldShow.reg (YLD_L_STAT x) = 0#32 ∧ s.yldShow.reg (YLD_L_WPOS x) = 0#32 ∧ s.yldShow.reg (YLD_L_TSEQ x) = 0#32 := by
  have haddr : YLD_L_STAT x ≠ YLD_L_WPOS x ∧ YLD_L_STAT x ≠ YLD_L_TSEQ x ∧ YLD_L_WPOS x ≠ YLD_L_TSEQ x := by
    simp only [YLD_L_STAT, YLD_L_WPOS, YLD_L_TSEQ]; omega
  obtain ⟨hsw, hst, hwt⟩ := haddr
  refine yldShow_row hx (P := fun u => u.reg (YLD_L_STAT x) = 0#32 ∧ u.reg (YLD_L_WPOS x) = 0#32 ∧ u.reg (YLD_L_TSEQ x) = 0#32) (fun u hu => ?_) fun u w hreg hP => ?_
  · rw [yldRow_none ((yldLayer_of_yld hu x).trans h)]
    exact ⟨by rw [reg_setReg_ne _ _ hst, reg_setReg_ne _ _ hsw, reg_setReg_self], by rw [reg_setReg_ne _ _ hwt, reg_setReg_self], reg_setReg_self ..⟩
  · obtain ⟨hstat, hwpos, htseq⟩ := hP
    exact ⟨(hreg _ (.inl rfl)).trans hstat, (hreg _ (.inr (.inl rfl))).trans hwpos, (hreg _ (.inr (.inr rfl))).trans htseq⟩

theorem layers_yldShow (s : State) : s.yldShow.get YLD_STATUS.LAYERS = s.yld.layers.length % 16 := by
  have htop : s.yldTop.get YLD_STATUS.LAYERS = s.yld.layers.length % 16 :=
    (get_setB_apart _ _ _ _ (.inr (.inl (by decide))) (by decide)).trans ((get_set_apart _ _ _ _ (.inr (.inl (by decide))) (by decide)).trans (get_set_self _ _ _ (by decide)))
  rw [yldShow_eq]
  refine foldl_keeps (P := fun u => u.get YLD_STATUS.LAYERS = s.yld.layers.length % 16) (fun u x _ hu => ?_) htop
  refine ((only_yldRow x u).2.1 _ fun f hf => .inl ?_).trans hu
  simp only [yldRowFlds, List.mem_cons, List.not_mem_nil, or_false] at hf
  rcases hf with rfl | rfl | rfl <;> simp only [wordAt, YLD_L_STAT, YLD_L_WPOS, YLD_L_TSEQ, YLD_STATUS.LAYERS, YLD_STATUS] <;> omega

/-! ### The request on ARB1 -/

/-- With nothing to write and no grant, YLD only withdraws its request. -/
theorem yldArb_idle (hw : s.yldWritable = false) (hheld : s.arbHolds 21 = false) : s.yldArb = (s.unrequested 21).yldShow := by
  rw [State.yldArb, if_neg (by simp [hw]), arbRelease_waiting hheld]

theorem only_yldArb_idle (hw : s.yldWritable = false) (hheld : s.arbHolds 21 = false) : s.only [.arb] (ARB_REQ.PEND 21 :: yldShowFlds) s.yldArb := by
  rw [yldArb_idle hw hheld]
  exact only_mono (only_seq (only_unrequested 21 s) (only_yldShow _)) (by simp) (by simp)

end Shown

end Sys2Proof.Machine
end

section
/-! PROOFS. YLD: a window's compute (R416 to R422) with no layer, and with one: for the statement of chapter 19. -/

namespace Sys2Proof.Machine

section Window
variable {s u : State} {f : FlowWin} {e w n x : Nat}

/-- The state in which a window is computed. -/
def State.yldBegun (f : FlowWin) (e : Nat) (s : State) : State := s.withYld { s.yld with lastE := some e, flow := some f, nextE := some (e + 10000000) }

/-- What later windows cannot need is dropped. -/
def State.yldPruned (p : Nat) (s : State) : State := s.withYld { s.yld with
  lacs := s.yld.lacs.filter fun w => decide (p - 2000000000 ≤ w.endLtc) || !(s.yld.lacs.any fun u => u.input = w.input && decide (w.endLtc < u.endLtc))
  heads := s.yld.heads.filter fun h => decide (p ≤ h.1) || !(s.yld.heads.any fun k => decide (h.1 < k.1 ∧ k.1 ≤ p)) }

/-- A loop of pairs whose rounds leave the pair. -/
theorem foldl_fixed {α β : Type} {f : β → α → β} {l : List α} {b : β} (h : ∀ y ∈ l, f b y = b) : l.foldl f b = b := by
  induction l with
  | nil => rfl
  | cons y l ih =>
    rw [List.foldl_cons, h y (by simp)]
    exact ih fun z hz => h z (by simp [hz])

theorem yldLoss_off (h : ∀ n ∈ List.range 8, s.getB (YLD_LOSS.EN n) = false) (l : Nat) : s.yldLoss l = (0, s) := by
  unfold State.yldLoss
  refine foldl_fixed fun n hn => ?_
  simp only [h n hn, Bool.not_false, if_true]

theorem yldM_fixed (h : s.getB YLD_MOIST_CFG.MODE = false) (l due : Nat) : s.yldM l due = (min 10000 (s.get YLD_MOIST_CFG.FIX), false, s) := by
  rw [State.yldM, h]
  rfl

theorem yldWidth_full (h : s.get YLD_HDR_CFG.WMODE = 0) (p due : Nat) : s.yldWidth p due = (s.get YLD_HDR_CFG.HDR_W, false, s) := by
  rw [State.yldWidth, h]
  rfl

/-- The wet mass that the flow and the calibration give. -/
def wetOf (x : Nat) : Nat := if (F.parts x).1 < 0 then 0 else
  min 2147483647 (if 0 ≤ (F.parts x).2 then (F.parts x).1.natAbs * 2 ^ (F.parts x).2.toNat else F.rneShift (F.parts x).1.natAbs (-(F.parts x).2).toNat false)

theorem yldWet_number (hv : f.valid = true) (hx : F.mul (F.mul f.flow (F.ofNat 10000)) (s.reg YLD_CAL).toNat = x) (hnan : F.isNan x = false) (hinf : F.isInf x = false) :
    s.yldWet f = (wetOf x, s) := by
  unfold State.yldWet
  rw [hv, hx]
  simp only [hnan, hinf]
  rfl

theorem yldWet_invalid (hv : f.valid = false) : s.yldWet f = (0, s) := by
  rw [State.yldWet, hv]
  rfl

theorem yldCloses_none (h : s.yld.layers = []) (e : Nat) : s.yldCloses e = s := by
  rw [State.yldCloses, h]
  rfl

theorem yldWritable_none (h : s.yld.layers = []) : s.yldWritable = false := by
  rw [State.yldWritable, h]
  rfl

/-- A window with no pose and no layer only adds to the unmapped mass. -/
theorem yldWindow_unmapped (hposes : s.yld.poses = []) (hlayers : s.yld.layers = []) (hmode : s.getB YLD_MOIST_CFG.MODE = false)
    (hloss : ∀ n ∈ List.range 8, s.getB (YLD_LOSS.EN n) = false) (hw : s.get YLD_HDR_CFG.WMODE = 0) (hwet : (s.yldBegun f e).yldWet f = (w, s.yldBegun f e)) :
    s.yldWindow f e = (((s.yldBegun f e).addUnmap w).yldPruned (s.yldP e)).yldArb := by
  have hlayers' : (s.yldBegun f e).yld.layers = [] := hlayers
  have hposes' : (s.yldBegun f e).yld.poses = [] := hposes
  have hloss' := yldLoss_off (s := s.yldBegun f e) hloss
  have hm := yldM_fixed (s := s.yldBegun f e) hmode
  have hwidth := yldWidth_full (s := s.yldBegun f e) hw
  unfold State.yldWindow
  extract_lets p due src s1 s2
  have h2 : s2 = s.yldBegun f e := yldCloses_none (s := s.yldBegun f e) hlayers e
  rw [h2, hwet]
  dsimp only
  rw [hm]
  dsimp only
  rw [hloss']
  dsimp only
  rw [hwidth]
  dsimp only
  rw [hposes']
  simp only [List.filter_nil, poseA, poseB, List.getLast?_nil, List.find?_nil]
  have hu : ((s.yldBegun f e).addUnmap w).yld.layers = [] := by
    rw [State.addUnmap, raise_yld, State.bump, set_yld]
    exact hlayers
  generalize (s.yldBegun f e).addUnmap w = u at hu ⊢
  change State.yldArb (List.foldl _ _ (List.map (fun x : Nat × YldLayer => x.1) u.yld.layers)) = _
  have hmap : List.map (fun x : Nat × YldLayer => x.1) u.yld.layers = [] := by rw [hu]; rfl
  rw [hmap]
  rfl

end Window

end Sys2Proof.Machine
end

section
/-! PROOFS. YLD: windows that map nothing (R417, R420, R422): for the statement of chapter 19. -/

namespace Sys2Proof.Machine

section Unmapped
variable {s u : State} {f : FlowWin} {e w x : Nat}

/-- What mass that is not mapped leaves. -/
theorem addUnmap_shows (w : Nat) (s : State) : Ran [.yld, .rcd, .cyc] (YLD_UNMAP.KG :: raiseFlds 245) s (s.addUnmap w) ∧
    (s.addUnmap w).yld = { s.yld with unmapMg := (s.yld.unmapMg + w) % 1000000 } ∧
    (s.addUnmap w).get YLD_UNMAP.KG = min 4294967295 (s.get YLD_UNMAP.KG + (s.yld.unmapMg + w) / 1000000) ∧ s.raised 245 (s.addUnmap w) := by
  have hwith := ran_withYld { s.yld with unmapMg := (s.yld.unmapMg + w) % 1000000 } s
  have hyld : (s.withYld { s.yld with unmapMg := (s.yld.unmapMg + w) % 1000000 }).yld = { s.yld with unmapMg := (s.yld.unmapMg + w) % 1000000 } := rfl
  have hkg : (s.withYld { s.yld with unmapMg := (s.yld.unmapMg + w) % 1000000 }).get YLD_UNMAP.KG = s.get YLD_UNMAP.KG := rfl
  change Ran _ _ s (((s.withYld { s.yld with unmapMg := (s.yld.unmapMg + w) % 1000000 }).bump YLD_UNMAP.KG ((s.yld.unmapMg + w) / 1000000)).raise 245) ∧
    (((s.withYld { s.yld with unmapMg := (s.yld.unmapMg + w) % 1000000 }).bump YLD_UNMAP.KG ((s.yld.unmapMg + w) / 1000000)).raise 245).yld = _ ∧
    (((s.withYld { s.yld with unmapMg := (s.yld.unmapMg + w) % 1000000 }).bump YLD_UNMAP.KG ((s.yld.unmapMg + w) / 1000000)).raise 245).get _ = _ ∧
    s.raised 245 (((s.withYld { s.yld with unmapMg := (s.yld.unmapMg + w) % 1000000 }).bump YLD_UNMAP.KG ((s.yld.unmapMg + w) / 1000000)).raise 245)
  generalize s.withYld { s.yld with unmapMg := (s.yld.unmapMg + w) % 1000000 } = v at hwith hyld hkg
  generalize (s.yld.unmapMg + w) / 1000000 = k
  have hcount : (v.bump YLD_UNMAP.KG k).get YLD_UNMAP.KG = min 4294967295 (s.get YLD_UNMAP.KG + k) := by
    rw [get_bump_self _ _ _ (by decide), satTo_eq_min, hkg]
    rfl
  have hbump := ran_set v (f := YLD_UNMAP.KG) (satTo (2 ^ 32 - 1) (v.get YLD_UNMAP.KG + k)) (by decide) (by decide)
  change Ran [] [YLD_UNMAP.KG] v (v.bump YLD_UNMAP.KG k) at hbump
  have hyld' : (v.bump YLD_UNMAP.KG k).yld = v.yld := hbump.only.1 .yld (by simp)
  generalize v.bump YLD_UNMAP.KG k = y at hcount hbump hyld'
  have hrun := hwith.seq hbump
  exact ⟨(hrun.seq (ran_raise y 245)).mono (by simp) (by simp), ((only_raise y 245).1 .yld (by simp)).trans (hyld'.trans hyld),
    (get_raise_outside _ _ (by decide)).trans hcount, hrun.evt.raised_raise (by decide)⟩

/-- The fields that a window with no pose can write. -/
def unmappedFlds : List Fld := [YLD_UNMAP.KG, ARB_REQ.PEND 21] ++ yldShowFlds ++ raiseFlds 245

theorem window_arbYld : ∀ f ∈ ARB_REQ.PEND 21 :: yldShowFlds, windowOf f.addr ≠ 0xC1 := by decide

theorem kg_apart : ∀ f ∈ ARB_REQ.PEND 21 :: yldShowFlds, YLD_UNMAP.KG.addr ≠ f.addr := by decide

/-- What a window with no pose and no layer leaves. -/
theorem unmapped_shows (hlayers : s.yld.layers = []) (hheld : s.arbHolds 21 = false) (p : Nat) :
    let t := (((s.yldBegun f e).addUnmap w).yldPruned p).yldArb
    Ran [.yld, .arb, .rcd, .cyc] unmappedFlds s t ∧ t.yld.lastE = some e ∧ t.yld.nextE = some (e + 10000000) ∧ t.yld.flow = some f ∧
      t.yld.unmapMg = (s.yld.unmapMg + w) % 1000000 ∧ t.get YLD_UNMAP.KG = min 4294967295 (s.get YLD_UNMAP.KG + (s.yld.unmapMg + w) / 1000000) ∧ s.raised 245 t := by
  have hbegun := ran_withYld { s.yld with lastE := some e, flow := some f, nextE := some (e + 10000000) } s
  obtain ⟨hunmap, hyld, hkg, -⟩ := addUnmap_shows w (s.yldBegun f e)
  have hraised := hunmap.evt
  have hlast : ((s.yldBegun f e).addUnmap w).yld.lastE = some e := by rw [hyld]; rfl
  have hnext : ((s.yldBegun f e).addUnmap w).yld.nextE = some (e + 10000000) := by rw [hyld]; rfl
  have hflow : ((s.yldBegun f e).addUnmap w).yld.flow = some f := by rw [hyld]; rfl
  have hmg : ((s.yldBegun f e).addUnmap w).yld.unmapMg = (s.yld.unmapMg + w) % 1000000 := by rw [hyld]; rfl
  have hlay : ((s.yldBegun f e).addUnmap w).yld.layers = [] := by rw [hyld]; exact hlayers
  have hkg' : ((s.yldBegun f e).addUnmap w).get YLD_UNMAP.KG = min 4294967295 (s.get YLD_UNMAP.KG + (s.yld.unmapMg + w) / 1000000) := hkg
  have hr : s.raised 245 ((s.yldBegun f e).addUnmap w) := raised_before hbegun.only (by simp) (by simp [offSource]) (addUnmap_shows w (s.yldBegun f e)).2.2.2
  have hrun : Ran _ _ s ((s.yldBegun f e).addUnmap w) := hbegun.seq hunmap
  generalize (s.yldBegun f e).addUnmap w = u at hunmap hlast hnext hflow hmg hlay hkg' hr hrun
  have hpruned : Ran [.yld] [] u (u.yldPruned p) := ran_withYld _ u
  have hlast' : (u.yldPruned p).yld.lastE = some e := hlast
  have hnext' : (u.yldPruned p).yld.nextE = some (e + 10000000) := hnext
  have hflow' : (u.yldPruned p).yld.flow = some f := hflow
  have hmg' : (u.yldPruned p).yld.unmapMg = (s.yld.unmapMg + w) % 1000000 := hmg
  have hlay' : (u.yldPruned p).yld.layers = [] := hlay
  generalize u.yldPruned p = v at hpruned hlast' hnext' hflow' hmg' hlay'
  have hrun' := hrun.seq hpruned
  have hheld' : v.arbHolds 21 = false := (arbHolds_of_only hrun'.only (stat_apart (by decide) _)).trans hheld
  have harb : Ran [.arb] (ARB_REQ.PEND 21 :: yldShowFlds) v v.yldArb := ran_of_only (only_yldArb_idle (yldWritable_none hlay') hheld') (by simp) window_arbYld
  have hyld' : v.yldArb.yld = v.yld := harb.only.1 .yld (by simp)
  have hkeep : v.yldArb.get YLD_UNMAP.KG = v.get YLD_UNMAP.KG := harb.only.2.1 _ fun g hg => .inl (kg_apart g hg)
  have hsame : v.get YLD_UNMAP.KG = u.get YLD_UNMAP.KG := get_of_only_nil hpruned.only _
  intro t
  refine ⟨(hrun'.seq harb).mono (by simp) (by simp +contextual [unmappedFlds, or_imp]), ?_, ?_, ?_, ?_, (hkeep.trans hsame).trans hkg', ?_⟩
  · rw [hyld', hlast']
  · rw [hyld', hnext']
  · rw [hyld', hflow']
  · rw [hyld', hmg']
  · exact raised_then (raised_then hr hpruned.only (by simp)) harb.only window_arbYld

/-! ### The window due (R416) -/

/-- What INP delivered up to the window that ends at `e` is taken. -/
def State.yldTaken (e : Nat) (s : State) : State :=
  (s.withYld { s.yld with lacs := s.yld.lacs ++ s.inp.lacQ }).withInp { s.inp with lacQ := [], flowQ := s.inp.flowQ.filter fun f => decide (e < f.endLtc) }

/-- The flow held for a window that INP did not deliver. -/
def State.yldHeld (e : Nat) (s : State) : FlowWin := { (s.yld.flow.getD { flow := 0, valid := false, endLtc := e }) with endLtc := e }

theorem exec_yldCompute_due (hon : s.enabled 0x0D = true) (hnext : s.yld.nextE = some e) (hdue : e + s.get YLD_CFG.CD_MS * 1000000 ≤ s.now)
    (hmode : s.getB YLD_MOIST_CFG.MODE = false) : exec .yldCompute s =
    .next ((if (s.inp.flowQ.find? fun f => f.endLtc = e).isNone || !s.loaded 0 then (s.yldTaken e).yldLate else s.yldTaken e).yldWindow
      ((s.inp.flowQ.find? fun f => f.endLtc = e).getD (s.yldHeld e)) e) := by
  change execYldCompute s = _
  unfold execYldCompute
  rw [if_neg (by simp [hon])]
  extract_lets inp yld s1 cd next inp1
  have hnext' : next = some e := by simp only [next, s1, yld, hnext]
  rw [hnext']
  dsimp -zeta only
  have hnow : ¬ s1.now < e + cd := Nat.not_lt.2 hdue
  rw [if_neg hnow]
  extract_lets got s2 absent s3 src held
  have habsent : absent = !s.loaded 0 := by
    have hmode' : s2.getB YLD_MOIST_CFG.MODE = false := hmode
    simp only [absent, hmode', Bool.false_and, Bool.or_false]
    rfl
  have hs3 : s3 = if got.isNone || !s.loaded 0 then (s.yldTaken e).yldLate else s.yldTaken e := by
    simp only [s3, habsent]
    rfl
  have hyld : s3.yld = (s.yldTaken e).yld := by
    rw [hs3]
    exact (ran_late_if _ _).only.1 .yld (by simp)
  have hheld : held = s.yldHeld e := by
    simp only [held, src, hyld]
    rfl
  rw [hheld, hs3]

/-- What taking the deliveries leaves. -/
theorem only_yldTaken (e : Nat) (s : State) : s.only [.yld, .inp] [] (s.yldTaken e) :=
  only_mono (only_seq (only_withYld _ s) (only_withInp _ _)) (by simp) (by simp)

theorem flowQ_yldTaken (e : Nat) (s : State) : ∀ g ∈ (s.yldTaken e).inp.flowQ, e < g.endLtc := fun _ hg => of_decide_eq_true (List.mem_filter.1 hg).2

/-- A window with a flow and no pose. -/
theorem compute_unmapped (hon : s.enabled 0x0D = true) (hnext : s.yld.nextE = some e) (hdue : e + s.get YLD_CFG.CD_MS * 1000000 ≤ s.now)
    (hgot : (s.inp.flowQ.find? fun g => decide (g.endLtc = e)) = some f) (hload : s.loaded 0 = true) (hmode : s.getB YLD_MOIST_CFG.MODE = false)
    (hposes : s.yld.poses = []) (hlayers : s.yld.layers = []) (hloss : ∀ n ∈ List.range 8, s.getB (YLD_LOSS.EN n) = false) (hwm : s.get YLD_HDR_CFG.WMODE = 0)
    (hheld : s.arbHolds 21 = false) (hv : f.valid = true) (hx : F.mul (F.mul f.flow (F.ofNat 10000)) (s.reg YLD_CAL).toNat = x) (hnan : F.isNan x = false)
    (hinf : F.isInf x = false) (hw : wetOf x = w) :
    ∃ t, exec .yldCompute s = .next t ∧ t.yld.lastE = some e ∧ t.yld.nextE = some (e + 10000000) ∧ t.yld.flow = some f ∧ t.yld.unmapMg = (s.yld.unmapMg + w) % 1000000 ∧
    t.get YLD_UNMAP.KG = min 4294967295 (s.get YLD_UNMAP.KG + (s.yld.unmapMg + w) / 1000000) ∧ s.raised 245 t ∧ (∀ g ∈ t.inp.flowQ, e < g.endLtc) ∧
    s.only [.yld, .inp, .arb, .rcd, .cyc] unmappedFlds t := by
  have hexec := exec_yldCompute_due hon hnext hdue hmode
  rw [hgot, hload] at hexec
  simp only [Option.isNone_some, Bool.not_true, Bool.or_self, Bool.false_eq_true, if_false, Option.getD_some] at hexec
  have htaken := only_yldTaken e s
  have hflowQ := flowQ_yldTaken e s
  have hmg : (s.yldTaken e).yld.unmapMg = s.yld.unmapMg := rfl
  have hwet : ((s.yldTaken e).yldBegun f e).yldWet f = (w, (s.yldTaken e).yldBegun f e) := hw ▸ yldWet_number (s := (s.yldTaken e).yldBegun f e) hv hx hnan hinf
  have hwin := yldWindow_unmapped (s := s.yldTaken e) (f := f) (e := e) (w := w) hposes hlayers hmode hloss hwm hwet
  obtain ⟨hrun, hlast, hnext', hflow, hunmap, hkg, hraised⟩ := unmapped_shows (s := s.yldTaken e) (f := f) (e := e) (w := w) hlayers hheld ((s.yldTaken e).yldP e)
  rw [← hwin, hmg] at hunmap
  rw [← hwin] at hrun hlast hnext' hflow hraised
  rw [← hwin, get_of_only_nil htaken, hmg] at hkg
  have hinp : ((s.yldTaken e).yldWindow f e).inp = (s.yldTaken e).inp := hrun.only.1 .inp (by simp)
  exact ⟨_, hexec, hlast, hnext', hflow, hunmap, hkg, raised_before htaken (by simp) offSource_nil hraised, by rw [hinp]; exact hflowQ,
    only_mono (only_seq htaken hrun.only) (by simp) (by simp)⟩

/-- A field beside the count of late inputs and beside SYS. -/
theorem apart_late_of_addr {g : Fld} (hcnt : g.addr ≠ YLD_CNT) (hw : windowOf g.addr ≠ 0xC0) (hw' : windowOf g.addr ≠ 0xC1) : ∀ h ∈ lateFlds, g.apart h := by
  have hwin : windowOf SYS_DET_STATUS = 0xC0 ∧ windowOf SYS_DET_FIRST_LO = 0xC0 ∧ windowOf SYS_DET_FIRST_HI = 0xC0 := by decide
  obtain ⟨h1, h2, h3⟩ := hwin
  intro h hh
  simp only [lateFlds, firstFlds, List.cons_append, List.mem_cons, List.mem_append, List.nil_append] at hh
  rcases hh with rfl | rfl | rfl | rfl | hh | hh
  · exact .inl hcnt
  · exact .inl fun he => hw (he ▸ h1)
  · exact .inl fun he => hw (he ▸ h2)
  · exact .inl fun he => hw (he ▸ h3)
  · exact apart_raise hw' 4 h hh
  · exact apart_raise hw' 242 h hh

/-- A first violation of YLD. -/
theorem yldLate_first (h : s.reg SYS_DET_STATUS = 0#32) : s.yldLate.get64 SYS_DET_FIRST_LO SYS_DET_FIRST_HI = s.now ∧ s.raised 4 s.yldLate := by
  have hcounted := ran_set s (f := YLD_CNT.LATE) (satTo (2 ^ 16 - 1) (s.get YLD_CNT.LATE + 1)) (by decide) (by decide)
  change Ran [] [YLD_CNT.LATE] s (s.bump YLD_CNT.LATE 1) at hcounted
  have hstat : (s.bump YLD_CNT.LATE 1).reg SYS_DET_STATUS = 0#32 := (reg_of_addrs hcounted.only (by decide)).trans h
  unfold State.yldLate
  generalize s.bump YLD_CNT.LATE 1 = u at hcounted hstat
  obtain ⟨hstamp, hraised⟩ := detViol_firstShows isViol_yldLate hstat
  have hraise := only_raise (u.detViol SYS_DET_STATUS.YLD_LATE) 242
  refine ⟨?_, raised_before hcounted.only (by simp) (offSource_of_window (window_one (by decide)))
    (raised_ahead hraised hraise (offSource_raiseFlds (by decide)))⟩
  rw [get64_congr _ _ (reg_raise_ne _ (by decide)) (reg_raise_ne _ (by decide)), hstamp, now_of_only hcounted.only (by simp)]

/-- A window that INP did not deliver. -/
theorem compute_absent (hon : s.enabled 0x0D = true) (hnext : s.yld.nextE = some e) (hdue : e + s.get YLD_CFG.CD_MS * 1000000 ≤ s.now)
    (hgot : (s.inp.flowQ.find? fun g => decide (g.endLtc = e)) = none) (hflow : s.yld.flow = none) (hmode : s.getB YLD_MOIST_CFG.MODE = false)
    (hposes : s.yld.poses = []) (hlayers : s.yld.layers = []) (hloss : ∀ n ∈ List.range 8, s.getB (YLD_LOSS.EN n) = false) (hwm : s.get YLD_HDR_CFG.WMODE = 0)
    (hheld : s.arbHolds 21 = false) (hdet : s.reg SYS_DET_STATUS = 0#32) :
    ∃ t, exec .yldCompute s = .next t ∧ t.yld.lastE = some e ∧ t.yld.nextE = some (e + 10000000) ∧ t.get YLD_CNT.LATE = min 65535 (s.get YLD_CNT.LATE + 1) ∧
    t.getB SYS_DET_STATUS.YLD_LATE = true ∧ t.get64 SYS_DET_FIRST_LO SYS_DET_FIRST_HI = s.now ∧ s.raised 242 t ∧ s.raised 4 t ∧
    s.only [.yld, .inp, .arb, .rcd, .cyc] (lateFlds ++ unmappedFlds) t := by
  have hexec := exec_yldCompute_due hon hnext hdue hmode
  have hinv : (s.yldHeld e).valid = false := by rw [State.yldHeld, hflow]; rfl
  rw [hgot] at hexec
  simp only [Option.isNone_none, Bool.true_or, if_true, Option.getD_none] at hexec
  have htaken := only_yldTaken e s
  have hposes' : (s.yldTaken e).yld.poses = [] := hposes
  have hlayers' : (s.yldTaken e).yld.layers = [] := hlayers
  obtain ⟨hlate, hcnt, hbit, hraised⟩ := yldLate_shows (s.yldTaken e)
  obtain ⟨hstamp, hraised4⟩ := yldLate_first (s := s.yldTaken e) hdet
  have hrun : Ran _ _ s (s.yldTaken e).yldLate := (ran_of_only htaken (by simp) (by simp)).seq hlate
  have hyld : (s.yldTaken e).yldLate.yld = (s.yldTaken e).yld := hlate.only.1 .yld (by simp)
  have hcnt' : (s.yldTaken e).yldLate.get YLD_CNT.LATE = min 65535 (s.get YLD_CNT.LATE + 1) := hcnt
  have hstamp' : (s.yldTaken e).yldLate.get64 SYS_DET_FIRST_LO SYS_DET_FIRST_HI = s.now := hstamp
  have hraised' := raised_before htaken (by simp) offSource_nil hraised
  have hraised4' := raised_before htaken (by simp) offSource_nil hraised4
  generalize s.yldHeld e = f at hexec hinv
  generalize (s.yldTaken e).yldLate = u at hexec hcnt' hbit hstamp' hraised' hraised4' hrun hyld
  have hkeep {g : Fld} (hcnt : g.addr ≠ YLD_CNT) (hw : windowOf g.addr ≠ 0xC0) (hw' : windowOf g.addr ≠ 0xC1) : u.get g = s.get g :=
    hrun.only.2.1 g (apart_late_of_addr hcnt hw hw')
  have hwin := yldWindow_unmapped (s := u) (f := f) (e := e) (w := 0) (by rw [hyld, hposes']) (by rw [hyld, hlayers'])
    ((getB_of_get (hkeep (by decide) (by decide) (by decide))).trans hmode)
    (fun n hn => (getB_of_get (hkeep (by revert n; decide) (by revert n; decide) (by revert n; decide))).trans (hloss n hn))
    ((hkeep (by decide) (by decide) (by decide)).trans hwm) (yldWet_invalid hinv)
  have hheld' : u.arbHolds 21 = false := (arbHolds_of_only hrun.only (stat_apart (by decide) _)).trans hheld
  obtain ⟨hmap, hlast, hnext', -⟩ := unmapped_shows (s := u) (f := f) (e := e) (w := 0) (by rw [hyld, hlayers']) hheld' (u.yldP e)
  rw [← hwin] at hmap hlast hnext'
  generalize u.yldWindow f e = t at hexec hmap hlast hnext'
  have hregs (a : Nat) (ha : ∀ g ∈ unmappedFlds, a ≠ g.addr) : t.reg a = u.reg a := reg_of_addrs hmap.only ha
  have hoff : ∀ n, n % 384 ≠ 245 → offSource n unmappedFlds := fun n hn =>
    offSource_append (fs := [YLD_UNMAP.KG, ARB_REQ.PEND 21] ++ yldShowFlds) (offSource_of_window (by decide)) (offSource_raiseFlds (by omega))
  exact ⟨t, hexec, hlast, hnext', (get_congr _ (hregs _ (by decide))).trans hcnt', (getB_congr _ (hregs _ (by decide))).trans hbit,
    (get64_congr _ _ (hregs _ (by decide)) (hregs _ (by decide))).trans hstamp', raised_ahead hraised' hmap.only (hoff 242 (by decide)),
    raised_ahead hraised4' hmap.only (hoff 4 (by decide)), only_mono (only_seq hrun.only hmap.only) (by simp) (by simp)⟩

end Unmapped

end Sys2Proof.Machine
end

section
/-! PROOFS. YLD: a window with one pose and one layer opens its tile (R417, R420, R421): for the statement of chapter 19. -/

namespace Sys2Proof.Machine

section OneLayer
variable {s u : State} {f : FlowWin} {e l : Nat} {v : YldLayer}

/-- The only layer, put again. -/
theorem setLayer_only (h : s.yld.layers = [(l, v)]) (v' : YldLayer) : s.setLayer l v' = s.withYld { s.yld with layers := [(l, v')] } := by
  have hput : tput s.yld.layers l v' = [(l, v')] := by rw [h]; simp [tput]
  rw [State.setLayer, hput]
  rfl

theorem setLayer_same (h : s.yld.layers = [(l, v)]) : s.setLayer l v = s := by
  rw [setLayer_only h, ← h]
  rfl

theorem yldLayer_only (h : s.yld.layers = [(l, v)]) : s.yldLayer l = some v := by simp [State.yldLayer, h, tget]

theorem close_nil (ht : v.tiles = []) (flags closes : Nat) (p : YldTile → Bool) : v.close flags closes p = (v, closes, []) := by
  have hopen : v.openTiles = [] := by rw [YldLayer.openTiles, ht]; rfl
  have hv : { v with tiles := [] } = v := by rw [← ht]
  simp only [YldLayer.close, hopen, ht, List.filter_nil, List.map_nil, List.length_nil, Nat.add_zero, hv]

/-- A layer with no tile and no waiting command has nothing to close. -/
theorem yldCloses_idle (h : s.yld.layers = [(l, v)]) (ht : v.tiles = []) (hw : v.waits = []) (e : Nat) : s.yldCloses e = s := by
  have hwaits : (v.waits.any fun w => w.tiles.isNone) = false := by rw [hw]; rfl
  have hclose : ∀ p, s.yldClose l 0 p = (s, []) := fun p => by
    rw [State.yldClose, yldLayer_only h]
    dsimp only
    rw [close_nil ht, setLayer_same h]
  have hlayers : s.yld.layers.map (fun x => x.1) = [l] := by rw [h]; rfl
  unfold State.yldCloses
  simp only [hlayers, List.foldl_cons, List.foldl_nil, yldLayer_only h, hwaits, hclose, Bool.false_eq_true, if_false]

/-- A layer with no waiting command has none to end. -/
theorem yldEnds_idle (h : s.yld.layers = [(l, v)]) (hw : v.waits = []) : s.yldEnds l = s := by
  have hv : { v with waits := [] } = v := by rw [← hw]
  unfold State.yldEnds
  simp only [yldLayer_only h, hw, List.any_nil, Bool.and_false, Bool.false_eq_true, if_false, List.filter_nil, List.foldl_nil, hv, setLayer_same h]

end OneLayer

section Parts
variable {cell width : Nat}

/-- A width within a cell makes one part. -/
theorem yldParts_one (hmin : 1 ≤ width) (hle : width ≤ cell) (e n : Int) (psi wet dry loss area m flags : Nat) :
    yldParts cell width e n psi wet dry loss area m flags = [{ e := e, n := n, wet := wet, dry := dry, loss := loss, area := area, m := m, flags := flags }] := by
  have hk : max 1 (ceilDiv width cell) = 1 := by
    have : ceilDiv width cell = 1 := by
      rw [ceilDiv, Nat.div_eq_iff (by omega)]
      omega
    rw [this]
    rfl
  unfold yldParts
  rw [hk]
  simp [splitPart]

theorem sub_floor_eq_mod (a : Int) : a - 64 * floorDivNat a 64 = a % 64 := by
  rw [floorDivNat, Int.fdiv_eq_ediv_of_nonneg a (by decide)]
  omega

end Parts

section Opened
variable {s u : State} {f : FlowWin} {e l k : Nat} {v : YldLayer} {te tn : Int} {q : YldPart}

/-- A tile just opened in the first buffer. -/
def tileOpened (te tn : Int) (e : Nat) : YldTile := { te := te, tn := tn, buf := some 0, first := e, last := e }

/-- A cell with its first part. -/
def YldPart.cell (q : YldPart) : YldCell :=
  { wet := q.wet, dry := q.dry, loss := q.loss, area := q.area % 2 ^ 64, moist := q.wet * q.m, nwin := 1, flags := q.flags }

/-- A tile with its first part. -/
def tilePart (te tn : Int) (e k : Nat) (q : YldPart) : YldTile :=
  { te := te, tn := tn, buf := some 0, first := e, last := e, nwin := 1, wet := q.wet, cells := [(k, q.cell)] }

/-- A layer with its first tile open, its buffer zeroed. -/
def State.yldFirst (l e : Nat) (v : YldLayer) (te tn : Int) (s : State) : State :=
  ({ s with dram := memZero s.dram (v.cache + yldStride * 0) yldStride } : State).setLayer l { v with tiles := [tileOpened te tn e] }

theorem yldOpen_first (h : s.yld.layers = [(l, v)]) (ht : v.tiles = []) (hn : 2 ≤ v.nslot) : s.yldOpen l te tn e = some (s.yldFirst l e v te tn) := by
  have hlayer := yldLayer_only h
  have hopen : v.openTiles = [] := by rw [YldLayer.openTiles, ht]; rfl
  have hfree : v.freeBuf = some 0 := by
    obtain ⟨n, hn'⟩ : ∃ n, v.nslot = n + 1 := ⟨v.nslot - 1, by omega⟩
    rw [YldLayer.freeBuf, ht, hn', List.range_succ_eq_map]
    rfl
  have hlayer' : ({ s with dram := memZero s.dram (v.cache + yldStride * 0) yldStride } : State).yldLayer l = some v := hlayer
  unfold State.yldOpen
  simp only [hlayer, hopen, hfree, List.any_nil, Bool.false_eq_true, if_false, hlayer', ht, List.nil_append]
  rfl

/-- The first part of a layer. -/
def State.yldPlaced (l e k : Nat) (v : YldLayer) (te tn : Int) (q : YldPart) (s : State) : State :=
  ((s.yldFirst l e v te tn).setLayer l { v with tiles := [tilePart te tn e k q] }).dramPuts (v.cache + yldStride * 0 + 64 + 24 * k) q.cell.bytes

theorem layers_setLayer (v' : YldLayer) (h : s.yld.layers = [(l, v)]) : (s.setLayer l v').yld.layers = [(l, v')] := by
  rw [setLayer_only h]
  rfl

theorem layers_yldFirst (h : s.yld.layers = [(l, v)]) : (s.yldFirst l e v te tn).yld.layers = [(l, { v with tiles := [tileOpened te tn e] })] :=
  layers_setLayer (s := { s with dram := memZero s.dram (v.cache + yldStride * 0) yldStride }) _ h

theorem yldPart_first (h : s.yld.layers = [(l, v)]) (ht : v.tiles = []) (hn : 2 ≤ v.nslot) (hte : floorDivNat (floorDivNat q.e v.cellMm) 64 = te)
    (htn : floorDivNat (floorDivNat q.n v.cellMm) 64 = tn)
    (hk : (floorDivNat q.n v.cellMm % 64).toNat * 64 + (floorDivNat q.e v.cellMm % 64).toNat = k) : s.yldPart l e q = s.yldPlaced l e k v te tn q := by
  have hk' : ((floorDivNat q.n v.cellMm - 64 * tn) * 64 + (floorDivNat q.e v.cellMm - 64 * te)).toNat = k := by
    rw [← hte, ← htn, sub_floor_eq_mod, sub_floor_eq_mod, ← hk]
    omega
  have hfirst := yldLayer_only (layers_yldFirst (te := te) (tn := tn) (e := e) h)
  have hop := yldOpen_first (te := te) (tn := tn) (e := e) h ht hn
  unfold State.yldPart
  simp only [yldLayer_only h, hte, htn, hop, hfirst, hk']
  simp [tileOpened, tmod, tgetD, tget, tput, satTo, YldLayer.openTiles, State.yldPlaced, tilePart, YldPart.cell]

theorem length_cellBytes (c : YldCell) : c.bytes.length = 24 := by simp [YldCell.bytes, length_bytesLE]

/-- What the first part of a layer leaves. -/
theorem yldPlaced_shows (h : s.yld.layers = [(l, v)]) (hk : k < 4096) :
    s.only [.dram, .yld] [] (s.yldPlaced l e k v te tn q) ∧
    (s.yldPlaced l e k v te tn q).yld = { s.yld with layers := [(l, { v with tiles := [tilePart te tn e k q] })] } ∧
    memBytes (s.yldPlaced l e k v te tn q).dram (v.cache + 64 + 24 * k) 24 = q.cell.bytes ∧ s.dramKept v.cache 102400 (s.yldPlaced l e k v te tn q) := by
  have hlayers := layers_yldFirst (te := te) (tn := tn) (e := e) h
  have hlen := length_cellBytes q.cell
  have hfirst : (s.yldFirst l e v te tn).yld = { s.yld with layers := [(l, { v with tiles := [tileOpened te tn e] })] } := by
    rw [State.yldFirst, setLayer_only (s := { s with dram := memZero s.dram (v.cache + yldStride * 0) yldStride }) h]
    rfl
  have hdram : (s.yldFirst l e v te tn).dram = memZero s.dram v.cache 102400 := rfl
  have honly : s.only [.dram, .yld] [] (s.yldFirst l e v te tn) :=
    ⟨fun p hp => by cases p <;> simp [State.same, State.yldFirst, State.setLayer] at hp ⊢, fun _ _ => rfl, rfl, rfl⟩
  have haddr : v.cache + yldStride * 0 + 64 + 24 * k = v.cache + 64 + 24 * k := rfl
  rw [State.yldPlaced, setLayer_only hlayers, haddr]
  generalize s.yldFirst l e v te tn = u at hlayers hfirst hdram honly
  have hwith := only_withYld { u.yld with layers := [(l, { v with tiles := [tilePart te tn e k q] })] } u
  have hyld : (u.withYld { u.yld with layers := [(l, { v with tiles := [tilePart te tn e k q] })] }).yld =
      { s.yld with layers := [(l, { v with tiles := [tilePart te tn e k q] })] } := by rw [State.withYld, hfirst]
  have hdram' : (u.withYld { u.yld with layers := [(l, { v with tiles := [tilePart te tn e k q] })] }).dram = memZero s.dram v.cache 102400 := hdram
  generalize u.withYld { u.yld with layers := [(l, { v with tiles := [tilePart te tn e k q] })] } = w at hwith hyld hdram'
  refine ⟨only_mono (only_seq (only_seq honly hwith) (only_dramPuts _ _ w)) (by simp) (by simp), hyld, ?_, fun x hx => ?_⟩
  · rw [← hlen]
    exact memBytes_dramPuts ..
  · rw [dramKept_dramPuts _ _ w x (by omega), hdram', memByte_memZero, if_neg (by omega)]

end Opened

section Mapped
variable {s : State} {f : FlowWin} {e l k w m x : Nat} {v : YldLayer} {a : YldPose} {te tn : Int}

/-- The part that a window puts at a pose, with the header's whole width. -/
def wholePart (a : YldPose) (wet m width : Nat) : YldPart :=
  { e := a.e, n := a.n, wet := wet, dry := wet * (10000 - m) / 10000, loss := 0, area := width * a.v / 100, m := m, flags := 2 }

theorem known_one {due : Nat} (h : a.at0 < due) : [a].filter (fun q => decide (q.at0 < due)) = [a] := by simp [h]

theorem poseA_one {p : Nat} (h : a.tov ≤ p) : poseA [a] p = some a := by simp [poseA, h]

theorem poseB_one {p : Nat} (h : a.tov ≤ p) : poseB [a] p = none := by simp [poseB, h]

/-- A window with one pose on one layer. -/
theorem yldWindow_mapped (hposes : s.yld.poses = [a]) (htov : a.tov ≤ s.yldP e) (hat : a.at0 < e + s.get YLD_CFG.CD_MS * 1000000) (hlayers : s.yld.layers = [(l, v)])
    (ht : v.tiles = []) (hwaits : v.waits = []) (hn : 2 ≤ v.nslot) (hmode : s.getB YLD_MOIST_CFG.MODE = false)
    (hloss : ∀ n ∈ List.range 8, s.getB (YLD_LOSS.EN n) = false) (hwm : s.get YLD_HDR_CFG.WMODE = 0) (hmin : 1 ≤ s.get YLD_HDR_CFG.HDR_W)
    (hle : s.get YLD_HDR_CFG.HDR_W ≤ v.cellMm) (hv : f.valid = true) (hwet : (s.yldBegun f e).yldWet f = (w, s.yldBegun f e))
    (hm : min 10000 (s.get YLD_MOIST_CFG.FIX) = m) (hte : floorDivNat (floorDivNat a.e v.cellMm) 64 = te) (htn : floorDivNat (floorDivNat a.n v.cellMm) 64 = tn)
    (hk : (floorDivNat a.n v.cellMm % 64).toNat * 64 + (floorDivNat a.e v.cellMm % 64).toNat = k) :
    s.yldWindow f e = (((s.yldBegun f e).yldPlaced l e k v te tn (wholePart a w m (s.get YLD_HDR_CFG.HDR_W))).yldPruned (s.yldP e)).yldArb := by
  have hlayers' : (s.yldBegun f e).yld.layers = [(l, v)] := hlayers
  have hposes' : (s.yldBegun f e).yld.poses = [a] := hposes
  have hloss' := yldLoss_off (s := s.yldBegun f e) hloss
  have hmoist (c due : Nat) : (s.yldBegun f e).yldM c due = (m, false, s.yldBegun f e) := hm ▸ yldM_fixed (s := s.yldBegun f e) hmode c due
  have hwidth (p due : Nat) : (s.yldBegun f e).yldWidth p due = (s.get YLD_HDR_CFG.HDR_W, false, s.yldBegun f e) := yldWidth_full (s := s.yldBegun f e) hwm p due
  have hpart := yldPart_first (e := e) (q := wholePart a w m (s.get YLD_HDR_CFG.HDR_W)) hlayers' ht hn hte htn hk
  have hk' : k < 4096 := by omega
  obtain ⟨-, hyld, -⟩ := yldPlaced_shows (e := e) (te := te) (tn := tn) (q := wholePart a w m (s.get YLD_HDR_CFG.HDR_W)) hlayers' hk'
  have hdying : ((s.yldBegun f e).yldLayer l).any (fun v => v.dying) = false := by
    rw [yldLayer_only hlayers']
    simp [YldLayer.dying, hwaits]
  have hflags : b2n (!f.valid) + 2 * b2n (none : Option YldPose).isNone + 4 * b2n false + 8 * b2n false = 2 := by rw [hv]; rfl
  unfold State.yldWindow
  extract_lets p due src s1 s2
  have h2 : s2 = s.yldBegun f e := yldCloses_idle (s := s.yldBegun f e) hlayers' ht hwaits e
  rw [h2, hwet]
  dsimp only
  rw [hmoist]
  dsimp only
  rw [hloss']
  dsimp only
  rw [hwidth]
  dsimp only
  have hknown : (s.yldBegun f e).yld.poses.filter (fun q => decide (q.at0 < due)) = [a] := (congrArg _ hposes').trans (known_one hat)
  have ha : poseA [a] p = some a := poseA_one htov
  have hb : poseB [a] p = none := poseB_one htov
  have hcells : (s.yldBegun f e).yld.layers.map (fun l => (l.1, l.2.cellMm)) = [(l, v.cellMm)] := by rw [hlayers']; rfl
  rw [hknown, ha, hb, hcells]
  dsimp only
  rw [hflags]
  simp only [List.foldl_cons, List.foldl_nil, Option.any_none, Bool.false_eq_true, if_false, hdying, yldParts_one hmin hle]
  have hpart' : (s.yldBegun f e).yldPart l e
      { e := a.e, n := a.n, wet := w, dry := w * (10000 - m) / 10000, loss := 0, area := s.get YLD_HDR_CFG.HDR_W * a.v / 100, m := m, flags := 2 } = _ := hpart
  rw [hpart']
  generalize (s.yldBegun f e).yldPlaced l e k v te tn (wholePart a w m (s.get YLD_HDR_CFG.HDR_W)) = u at hyld ⊢
  have hlay : u.yld.layers = [(l, { v with tiles := [tilePart te tn e k (wholePart a w m (s.get YLD_HDR_CFG.HDR_W))] })] := by rw [hyld]
  have hmap : List.map (fun x : Nat × YldLayer => x.1) u.yld.layers = [l] := by rw [hlay]; rfl
  change State.yldArb (List.foldl _ _ (List.map (fun x : Nat × YldLayer => x.1) u.yld.layers)) = _
  rw [hmap, List.foldl_cons, List.foldl_nil]
  exact congrArg State.yldArb (yldEnds_idle (s := u.yldPruned p) hlay hwaits)

end Mapped

end Sys2Proof.Machine
end

section
/-! PROOFS. YLD: a mapped window's compute, and a tile's writing (R420 to R424): for the statement of chapter 19. -/

namespace Sys2Proof.Machine

section Mapped
variable {s : State} {f : FlowWin} {e l k w m x : Nat} {v : YldLayer} {a : YldPose} {te tn : Int}

/-- A layer with one open tile has none to write. -/
theorem yldWritable_open {q : YldTile} (h : s.yld.layers = [(l, v)]) (ht : v.tiles = [q]) (hq : q.closed = none) : s.yldWritable = false := by
  have hclosed : v.closedTiles = [] := by simp [YldLayer.closedTiles, ht, hq]
  rw [State.yldWritable, h, List.any_cons, List.any_nil, hclosed]
  simp

/-- What a mapped window leaves. -/
theorem mapped_shows {q : YldPart} (hlayers : s.yld.layers = [(l, v)]) (hk : k < 4096) (hheld : s.arbHolds 21 = false) (p : Nat) :
    let t := (((s.yldBegun f e).yldPlaced l e k v te tn q).yldPruned p).yldArb
    t.yld.lastE = some e ∧ t.yld.nextE = some (e + 10000000) ∧ t.yld.layers = [(l, { v with tiles := [tilePart te tn e k q] })] ∧
      memBytes t.dram (v.cache + 64 + 24 * k) 24 = q.cell.bytes ∧ s.dramKept v.cache 102400 t ∧ s.only [.dram, .yld, .arb] (ARB_REQ.PEND 21 :: yldShowFlds) t := by
  have hlayers' : (s.yldBegun f e).yld.layers = [(l, v)] := hlayers
  obtain ⟨honly, hyld, hbytes, hkept⟩ := yldPlaced_shows (e := e) (te := te) (tn := tn) (q := q) hlayers' hk
  have hlast : ((s.yldBegun f e).yldPlaced l e k v te tn q).yld.lastE = some e := by rw [hyld]; rfl
  have hnext : ((s.yldBegun f e).yldPlaced l e k v te tn q).yld.nextE = some (e + 10000000) := by rw [hyld]; rfl
  have hlay : ((s.yldBegun f e).yldPlaced l e k v te tn q).yld.layers = [(l, { v with tiles := [tilePart te tn e k q] })] := by rw [hyld]
  have hkept' : s.dramKept v.cache 102400 ((s.yldBegun f e).yldPlaced l e k v te tn q) := hkept
  have hrun := only_seq (only_withYld { s.yld with lastE := some e, flow := some f, nextE := some (e + 10000000) } s) honly
  generalize (s.yldBegun f e).yldPlaced l e k v te tn q = u at hlast hnext hlay hbytes hkept' hrun
  have hpruned : u.only [.yld] [] (u.yldPruned p) := only_withYld _ u
  have hlast' : (u.yldPruned p).yld.lastE = some e := hlast
  have hnext' : (u.yldPruned p).yld.nextE = some (e + 10000000) := hnext
  have hlay' : (u.yldPruned p).yld.layers = [(l, { v with tiles := [tilePart te tn e k q] })] := hlay
  have hdram : (u.yldPruned p).dram = u.dram := rfl
  generalize u.yldPruned p = y at hpruned hlast' hnext' hlay' hdram
  have hrun' := only_seq hrun hpruned
  have hheld' : y.arbHolds 21 = false := (arbHolds_of_only hrun' (by simp)).trans hheld
  have harb := only_yldArb_idle (yldWritable_open hlay' rfl rfl) hheld'
  have hyld' : y.yldArb.yld = y.yld := harb.1 .yld (by simp)
  have hdram' : y.yldArb.dram = u.dram := (harb.1 .dram (by simp)).trans hdram
  intro t
  refine ⟨?_, ?_, ?_, ?_, dramKept_then hkept' hdram'.symm, only_mono (only_seq hrun' harb) (by simp) (by simp)⟩
  · rw [hyld', hlast']
  · rw [hyld', hnext']
  · rw [hyld', hlay']
  · rw [hdram', hbytes]

/-- A window with one pose, one layer and a width within a cell. -/
theorem compute_mapped (hon : s.enabled 0x0D = true) (hnext : s.yld.nextE = some e) (hdue : e + s.get YLD_CFG.CD_MS * 1000000 ≤ s.now)
    (hgot : (s.inp.flowQ.find? fun g => decide (g.endLtc = e)) = some f) (hload : s.loaded 0 = true) (hmode : s.getB YLD_MOIST_CFG.MODE = false)
    (hposes : s.yld.poses = [a]) (htov : a.tov ≤ s.yldP e) (hat : a.at0 < e + s.get YLD_CFG.CD_MS * 1000000) (hlayers : s.yld.layers = [(l, v)])
    (ht : v.tiles = []) (hwaits : v.waits = []) (hn : 2 ≤ v.nslot) (hloss : ∀ n ∈ List.range 8, s.getB (YLD_LOSS.EN n) = false) (hwm : s.get YLD_HDR_CFG.WMODE = 0)
    (hmin : 1 ≤ s.get YLD_HDR_CFG.HDR_W) (hle : s.get YLD_HDR_CFG.HDR_W ≤ v.cellMm) (hheld : s.arbHolds 21 = false) (hv : f.valid = true)
    (hx : F.mul (F.mul f.flow (F.ofNat 10000)) (s.reg YLD_CAL).toNat = x) (hnan : F.isNan x = false) (hinf : F.isInf x = false) (hw : wetOf x = w)
    (hm : min 10000 (s.get YLD_MOIST_CFG.FIX) = m)
    (hk : (floorDivNat a.n v.cellMm % 64).toNat * 64 + (floorDivNat a.e v.cellMm % 64).toNat = k) :
    ∃ t, exec .yldCompute s = .next t ∧ t.yld.lastE = some e ∧ t.yld.nextE = some (e + 10000000) ∧
    (tget t.yld.layers l).map (·.tiles) =
      some [tilePart (floorDivNat (floorDivNat a.e v.cellMm) 64) (floorDivNat (floorDivNat a.n v.cellMm) 64) e k (wholePart a w m (s.get YLD_HDR_CFG.HDR_W))] ∧
    memBytes t.dram (v.cache + 64 + 24 * k) 24 = (wholePart a w m (s.get YLD_HDR_CFG.HDR_W)).cell.bytes ∧
    s.dramKept v.cache 102400 t ∧ s.only [.dram, .yld, .inp, .arb] (ARB_REQ.PEND 21 :: yldShowFlds) t := by
  have hexec := exec_yldCompute_due hon hnext hdue hmode
  rw [hgot, hload] at hexec
  simp only [Option.isNone_some, Bool.not_true, Bool.or_self, Bool.false_eq_true, if_false, Option.getD_some] at hexec
  have htaken := only_yldTaken e s
  have hdram : (s.yldTaken e).dram = s.dram := htaken.1 .dram (by simp)
  have hwidth : (s.yldTaken e).get YLD_HDR_CFG.HDR_W = s.get YLD_HDR_CFG.HDR_W := get_of_only_nil htaken _
  have hk' : k < 4096 := by omega
  have hwet : ((s.yldTaken e).yldBegun f e).yldWet f = (w, (s.yldTaken e).yldBegun f e) := hw ▸ yldWet_number (s := (s.yldTaken e).yldBegun f e) hv hx hnan hinf
  have hwin := yldWindow_mapped (s := s.yldTaken e) hposes htov hat hlayers ht hwaits hn hmode hloss hwm hmin hle hv hwet hm rfl rfl hk
  rw [hwidth] at hwin
  obtain ⟨hlast, hnext', hlay, hbytes, hkept, honly⟩ := mapped_shows (s := s.yldTaken e) (f := f) (e := e) (te := floorDivNat (floorDivNat a.e v.cellMm) 64)
    (tn := floorDivNat (floorDivNat a.n v.cellMm) 64) (q := wholePart a w m (s.get YLD_HDR_CFG.HDR_W)) hlayers hk' hheld ((s.yldTaken e).yldP e)
  rw [← hwin] at hlast hnext' hlay hbytes hkept honly
  exact ⟨_, hexec, hlast, hnext', by rw [hlay]; simp [tget], hbytes, dramKept_of_dram hdram hkept, only_mono (only_seq htaken honly) (by simp) (by simp)⟩

end Mapped

section Written
variable {s : State} {l n : Nat} {v : YldLayer} {q : YldTile}

/-- The release of a grant that no freeze waits for. -/
theorem only_arbRelease_thawed (hheld : s.arbHolds 21 = true) (hthaw : s.getB (ARB_CFG.FREEZE 1) = false) :
    s.only [.arb] [ARB_REQ.PEND 21, ARB_STAT.GRANTED 1, ARB_STAT.OWNER 1, ARB_STAT.CLASS 1, ARB_STAT.DRAINED 1] (s.arbRelease 21) := by
  have howner : s.arbOwner 1 = 21 := by
    have := hheld
    simp only [State.arbHolds, Bool.and_eq_true, decide_eq_true_eq] at this
    exact this.2
  have hfree := only_arbFree_thawed hthaw
  rw [howner] at hfree
  rw [arbRelease_eq, if_pos hheld]
  exact only_mono (only_seq hfree (only_unrequested 21 _)) (by simp) (by decide)

/-- A layer whose oldest closed tile has been written. -/
def YldLayer.tileWritten (v : YldLayer) : YldLayer := { v with wpos := v.wpos + 1, tseq := (v.tseq + 1) % 2 ^ 32, tiles := [] }

def State.withUfs (m : List Host.Cell) (s : State) : State := { s with ufs := m }

theorem only_withUfs (m : List Host.Cell) (s : State) : s.only [.ufs] [] (s.withUfs m) :=
  ⟨fun p hp => by cases p <;> simp [State.same, State.withUfs] at hp ⊢, fun _ _ => rfl, rfl, rfl⟩

/-- A tile's record in the log. -/
def State.tileLogged (l : Nat) (v : YldLayer) (q : YldTile) (s : State) : State :=
  s.withUfs (memPuts s.ufs ((v.lba + 25 * v.wpos) * 4096) (s.tileRecord l v q))

theorem exec_yldTile_one (hon : s.enabled 0x0D = true) (hheld : s.arbHolds 21 = true) (hlayers : s.yld.layers = [(l, v)]) (ht : v.tiles = [q]) (hq : q.closed = some n)
    (hroom : v.wpos + 1 < v.slots) :
    exec .yldTile s = .next ((((((s.tileLogged l v q).setLayer l v.tileWritten).raise 241).yldEnds l).arbRelease 21).yldArb) := by
  have hfull : v.full = false := decide_eq_false (by omega)
  have hfull' : v.tileWritten.full = false := decide_eq_false (Nat.not_le.2 hroom)
  have hnext : s.nextTile = some (l, v, q, n) := by
    simp only [State.nextTile, hlayers, List.foldl_cons, List.foldl_nil, hfull, Bool.false_eq_true, if_false, ht, hq]
  have hleft : [q].filter (fun u => decide (u.closed ≠ some n)) = [] := by simp [hq]
  change execYldTile s = _
  unfold execYldTile
  rw [if_neg (by simp [hon, hheld])]
  simp only [hnext, ht, hq, hleft]
  change Host.Outcome.next (((State.yldEnds l (if v.tileWritten.full then _ else _)).arbRelease 21).yldArb) = _
  rw [hfull', if_neg (by decide)]
  rfl

theorem only_tileLogged (l : Nat) (v : YldLayer) (q : YldTile) (s : State) : s.only [.ufs] [] (s.tileLogged l v q) := only_withUfs _ s

/-- YLD once a tile has been written: its grant is released. -/
def State.tileReleased (l : Nat) (s : State) : State := ((s.yldEnds l).arbRelease 21).yldArb

/-- The fields that the release of ARB1 without a freeze can write. -/
def thawedFlds : List Fld := [ARB_REQ.PEND 21, ARB_STAT.GRANTED 1, ARB_STAT.OWNER 1, ARB_STAT.CLASS 1, ARB_STAT.DRAINED 1]

theorem window_thawedFlds : ∀ f ∈ thawedFlds ++ yldShowFlds, windowOf f.addr ≠ 0xC1 := by decide

theorem yldWritable_empty {y : YldLayer} (h : s.yld.layers = [(l, y)]) (ht : y.tiles = []) : s.yldWritable = false := by
  have hclosed : y.closedTiles = [] := by rw [YldLayer.closedTiles, ht]; rfl
  rw [State.yldWritable, h, List.any_cons, List.any_nil, hclosed, Bool.or_false]
  exact Bool.and_false _

/-- What a request withdrawn shows. -/
theorem withdrawn_shows {y : YldLayer} (hlayers : s.yld.layers = [(l, y)]) (ht : y.tiles = []) (hfree : s.arbHolds 21 = false) (hl : l < 8) :
    s.yldArb.arbHolds 21 = false ∧ s.yldArb.get (YLD_L_TSEQ.TSEQ l) = y.tseq % 2 ^ 32 ∧ s.yldArb.get (YLD_L_WPOS.WPOS l) = y.wpos % 2 ^ 25 := by
  rw [yldArb_idle (yldWritable_empty hlayers ht) hfree]
  have hun := only_unrequested 21 s
  have hlayer : (s.unrequested 21).yldLayer l = some y := (yldLayer_of_yld (hun.1 .yld (by simp)) l).trans (yldLayer_only hlayers)
  have hfree' : (s.unrequested 21).arbHolds 21 = false := (arbHolds_of_only hun fun f hf => by
    rw [List.mem_singleton.1 hf]
    exact ⟨.inl (arbStat_ne_arbReq _ 21), .inl (arbStat_ne_arbReq _ 21)⟩).trans hfree
  generalize s.unrequested 21 = w at hlayer hfree'
  obtain ⟨-, -, hwpos, htseq⟩ := yldShow_some hl hlayer
  exact ⟨(arbHolds_of_only (only_yldShow w) (stat_apart (fun f hf => by rw [window_yldShowFlds f hf]; decide) _)).trans hfree', htseq, hwpos⟩

/-- What the release after a tile's writing leaves. -/
theorem tileReleased_shows {y : YldLayer} (hlayers : s.yld.layers = [(l, y)]) (hw : y.waits = []) (ht : y.tiles = []) (hheld : s.arbHolds 21 = true)
    (hthaw : s.getB (ARB_CFG.FREEZE 1) = false) (hl : l < 8) : (s.tileReleased l).arbHolds 21 = false ∧ (s.tileReleased l).get (YLD_L_TSEQ.TSEQ l) = y.tseq % 2 ^ 32 ∧
    (s.tileReleased l).get (YLD_L_WPOS.WPOS l) = y.wpos % 2 ^ 25 ∧ s.only [.arb] (thawedFlds ++ yldShowFlds) (s.tileReleased l) := by
  rw [State.tileReleased, yldEnds_idle hlayers hw]
  have hrel : s.only [.arb] thawedFlds (s.arbRelease 21) := only_arbRelease_thawed hheld hthaw
  obtain ⟨hfree, -, -⟩ := arbRelease_shows 21 s
  have hlay : (s.arbRelease 21).yld.layers = [(l, y)] := (congrArg YldState.layers (hrel.1 .yld (by simp))).trans hlayers
  generalize s.arbRelease 21 = u at hrel hfree hlay
  obtain ⟨hholds, htseq, hwpos⟩ := withdrawn_shows hlay ht hfree hl
  have harb := only_yldArb_idle (yldWritable_empty hlay ht) hfree
  exact ⟨hholds, htseq, hwpos, only_mono (only_seq hrel harb) (by simp) fun f hf => by
    rcases List.mem_append.1 hf with hf | hf
    · exact List.mem_append_left _ hf
    · rcases List.mem_cons.1 hf with rfl | hf
      · exact List.mem_append_left _ List.mem_cons_self
      · exact List.mem_append_right _ hf⟩

/-- A tile's record is in the log, and its event raised. -/
def State.tileStored (l : Nat) (v : YldLayer) (q : YldTile) (s : State) : State := ((s.tileLogged l v q).setLayer l v.tileWritten).raise 241

theorem tileStored_shows (hlayers : s.yld.layers = [(l, v)]) : s.only [.ufs, .yld, .rcd, .cyc] (raiseFlds 241) (s.tileStored l v q) ∧
    memBytes (s.tileStored l v q).ufs ((v.lba + 25 * v.wpos) * 4096) (s.tileRecord l v q).length = s.tileRecord l v q ∧
    (s.tileStored l v q).yld.layers = [(l, v.tileWritten)] ∧ s.raised 241 (s.tileStored l v q) := by
  rw [State.tileStored, State.tileLogged]
  generalize s.tileRecord l v q = record
  have hlogged := only_withUfs (memPuts s.ufs ((v.lba + 25 * v.wpos) * 4096) record) s
  have hbytes : memBytes (s.withUfs (memPuts s.ufs ((v.lba + 25 * v.wpos) * 4096) record)).ufs ((v.lba + 25 * v.wpos) * 4096) record.length = record := memBytes_memPuts ..
  have hlay0 : (s.withUfs (memPuts s.ufs ((v.lba + 25 * v.wpos) * 4096) record)).yld.layers = [(l, v)] := hlayers
  rw [setLayer_only hlay0]
  generalize s.withUfs (memPuts s.ufs ((v.lba + 25 * v.wpos) * 4096) record) = u at hlogged hbytes
  have hwith := only_withYld { u.yld with layers := [(l, v.tileWritten)] } u
  have hlay1 : (u.withYld { u.yld with layers := [(l, v.tileWritten)] }).yld.layers = [(l, v.tileWritten)] := rfl
  have hufs : (u.withYld { u.yld with layers := [(l, v.tileWritten)] }).ufs = u.ufs := rfl
  generalize u.withYld { u.yld with layers := [(l, v.tileWritten)] } = w at hwith hlay1 hufs
  have hput := only_seq hlogged hwith
  have hraise := only_raise w 241
  have hufs2 : (w.raise 241).ufs = w.ufs := hraise.1 .ufs (by simp)
  exact ⟨only_mono (only_seq hput hraise) (by simp) (by simp), by rw [hufs2, hufs, hbytes], (congrArg YldState.layers (hraise.1 .yld (by simp))).trans hlay1,
    raised_behind hput (by simp) (by simp [offSource])⟩

/-- The next closed tile is written. -/
theorem tile_written (hon : s.enabled 0x0D = true) (hheld : s.arbHolds 21 = true) (hlayers : s.yld.layers = [(l, v)]) (ht : v.tiles = [q]) (hq : q.closed = some n)
    (hwaits : v.waits = []) (hroom : v.wpos + 1 < v.slots) (hthaw : s.getB (ARB_CFG.FREEZE 1) = false) (hl : l < 8) : ∃ t, exec .yldTile s = .next t ∧
    memBytes t.ufs ((v.lba + 25 * v.wpos) * 4096) (s.tileRecord l v q).length = s.tileRecord l v q ∧ t.yld.layers = [(l, v.tileWritten)] ∧
    t.get (YLD_L_TSEQ.TSEQ l) = (v.tseq + 1) % 2 ^ 32 ∧ t.get (YLD_L_WPOS.WPOS l) = (v.wpos + 1) % 2 ^ 25 ∧ s.raised 241 t ∧ t.arbHolds 21 = false ∧
    s.only [.ufs, .yld, .arb, .rcd, .cyc] (thawedFlds ++ yldShowFlds ++ raiseFlds 241) t := by
  have hexec : exec .yldTile s = .next ((s.tileStored l v q).tileReleased l) := exec_yldTile_one hon hheld hlayers ht hq hroom
  obtain ⟨hrun, hbytes, hlay, hraised⟩ := tileStored_shows (q := q) hlayers
  generalize s.tileRecord l v q = record at hbytes
  generalize s.tileStored l v q = y at hexec hrun hbytes hlay hraised
  have hheld' : y.arbHolds 21 = true := (arbHolds_of_only hrun (stat_apart (by decide) _)).trans hheld
  have hthaw' : y.getB (ARB_CFG.FREEZE 1) = false := (getB_of_get (hrun.2.1 _ (apart_of_window (by decide)))).trans hthaw
  obtain ⟨hfree, htseq, hwpos, hrel⟩ := tileReleased_shows hlay hwaits rfl hheld' hthaw' hl
  have hufs : (y.tileReleased l).ufs = y.ufs := hrel.1 .ufs (by simp)
  have hyld : (y.tileReleased l).yld = y.yld := hrel.1 .yld (by simp)
  exact ⟨_, hexec, by rw [hufs, hbytes], by rw [hyld, hlay], htseq.trans (Nat.mod_mod _ _), hwpos, raised_then hraised hrel window_thawedFlds, hfree,
    only_mono (only_seq hrun hrel) (by simp) fun f hf => (List.mem_append.1 hf).elim (List.mem_append_right _) (List.mem_append_left _)⟩

end Written

end Sys2Proof.Machine
end

section
/-! PROOFS. YLD: commands on layers and poses (Table 19-3) and disabling (R425), and the statement of chapter 19. -/

namespace Sys2Proof.Machine

/-! ### The end of a command of YLD -/

section Ends
variable {s u : State} {ps : List Comp} {fs : List Fld} {code h opcode : Nat} {e : Entry}

/-- How a command of YLD ends behind its work. -/
theorem yldEnded (hready : s.ready 0x0D 0 0 e) (hc : 0x0D * 256 + code < 2 ^ 16) (hv : (s.entryTaken 0x0D 0 opcode e).only ps fs u)
    (hp : .ltc ∉ ps ∧ .rings ∉ ps ∧ .dram ∉ ps) (hoff : offRing 0x0D 0 fs) :
    let t := u.completeId 0x0D 0 (s.cmdOf 0x0D 0 e).id (0x0D * 256 + code) h
    s.completed 0x0D 0 e code h t ∧ s.dramKept (s.complAddr 0x0D 0) 16 t ∧ s.only ([.dram, .rings, .rcd, .cyc] ++ ps) (complFlds 0x0D 0 ++ fs) t ∧
      u.only [.dram, .rings, .rcd, .cyc] (complFlds 0x0D 0) t := by
  have hr := ring_lt_of_ready hready
  obtain ⟨hdone, hkept, honly⟩ := ends_behind (code := code) (h := h) hr (idle_of_ready hready) hc hv hp.1 hp.2.1 hp.2.2 hoff
  exact ⟨hdone, hkept, honly, only_completeId _ _ _ hr⟩

theorem offRing_yldShowFlds : offRing 0x0D 0 yldShowFlds := offRing_all rfl

end Ends

/-! ### LAYER_CREATE -/

section Create
variable {s : State} {c : Cmd} {e : Entry} {x cell ns cache lba slots : Nat} {ring : Fin 1}

/-- The layer that a LAYER_CREATE asks for. -/
def Cmd.layer (c : Cmd) : YldLayer :=
  { cellMm := c.arg 16 2, nslot := c.arg 18 2, cropId := c.arg 20 4, cache := c.arg 24 8, lba := c.arg 32 8, slots := c.arg 40 4 }

/-- A LAYER_CREATE with no code of Table 19-3 but for the place of its slots. -/
structure State.layerAllowed (s : State) (c : Cmd) : Prop where
  cellMin : 250 ≤ c.arg 16 2
  cellMax : c.arg 16 2 ≤ 10000
  slotMin : 2 ≤ c.arg 18 2
  slotMax : c.arg 18 2 ≤ 64
  aligned : c.arg 24 8 % 4096 = 0
  inWins : s.inWins 0x0D (c.arg 24 8) (c.arg 18 2 * yldStride) = true
  logMin : 1 ≤ c.arg 40 4
  logMax : c.arg 40 4 ≤ 16777216
  apart : (s.yld.layers.any fun d => overlaps (c.arg 32 8, 25 * c.arg 40 4) (d.2.lba, 25 * d.2.slots)) = false

/-- A layer made. -/
def State.layerMade (x : Nat) (v : YldLayer) (s : State) : State := (s.advGen 0x0C x).setLayer x v

theorem opLayerCreate_eq (hx : tfree s.yld.layers 8 = some x) (h : s.layerAllowed c) : opLayerCreate c s =
    if inDataPart (c.arg 32 8) (25 * c.arg 40 4) then c.created ((s.layerMade x c.layer).handle 0x0C x) (s.layerMade x c.layer).yldShow else c.failed 0x05 s := by
  obtain ⟨hcmin, hcmax, hnmin, hnmax, halign, hwin, hlmin, hlmax, hapart⟩ := h
  have h1 : decide (c.arg 16 2 < 250) = false := decide_eq_false (by omega)
  have h2 : decide (10000 < c.arg 16 2) = false := decide_eq_false (by omega)
  have h3 : decide (c.arg 18 2 < 2) = false := decide_eq_false (by omega)
  have h4 : decide (64 < c.arg 18 2) = false := decide_eq_false (by omega)
  have h5 : decide (c.arg 24 8 % 4096 ≠ 0) = false := decide_eq_false (by omega)
  have h6 : decide (c.arg 40 4 = 0) = false := decide_eq_false (by omega)
  have h7 : decide (16777216 < c.arg 40 4) = false := decide_eq_false (by omega)
  unfold opLayerCreate
  simp only [hx, h1, h2, h3, h4, h5, h6, h7, hwin, hapart, Bool.not_true, Bool.or_self, Bool.false_or, Bool.false_eq_true, if_false]
  cases inDataPart (c.arg 32 8) (25 * c.arg 40 4) <;> rfl

theorem only_setLayer (x : Nat) (v : YldLayer) (s : State) : s.only [.yld] [] (s.setLayer x v) := only_withYld _ s

theorem layerMade_shows (x : Nat) (v : YldLayer) (s : State) : s.only [.gens, .yld] [] (s.layerMade x v) ∧
    (s.layerMade x v).yld = { s.yld with layers := tput s.yld.layers x v } ∧ (s.layerMade x v).gen 0x0C x = (s.gen 0x0C x + 1) % 1024 :=
  ⟨only_mono (only_seq (only_advGen 0x0C x s) (only_setLayer x v _)) (by simp) (by simp), rfl, gen_advGen 0x0C x s⟩

/-- A field of YLD past its ring's registers. -/
theorem apart_complFlds_yld {g : Fld} (hg : 0xCD000120 ≤ g.addr ∧ g.addr < 0xCE000000) : ∀ f ∈ complFlds 0x0D 0, g.apart f := by
  have hpi : (CRING_PI 0x0D 0).addr = 0xCD000118 := by decide
  have hjob : FEN_JOB_PEND = 0xCA000010 := by decide
  exact apart_complFlds_of_addr (by omega) (by omega) (by simp only [windowOf]; omega)

theorem layerAddr (x : Nat) : 0xCD100000 ≤ YLD_L_STAT x ∧ YLD_L_STAT x < 0xCD100080 ∧ 0xCD100000 ≤ YLD_L_WPOS x ∧ YLD_L_WPOS x < 0xCD100084 := by
  simp only [YLD_L_STAT, YLD_L_WPOS]
  omega

theorem layerCreated (hready : s.ready 0x0D ring.val 0 e) (hx : tfree s.yld.layers 8 = some x) (h : s.layerAllowed (s.cmdOf 0x0D ring.val e)) :
    ∃ t, exec (.layerCreate ring e) s = .next t ∧ s.dramKept (s.complAddr 0x0D ring.val) 16 t ∧
    (inDataPart ((s.cmdOf 0x0D ring.val e).arg 32 8) (25 * (s.cmdOf 0x0D ring.val e).arg 40 4) = true → s.completed 0x0D ring.val e 0x00 (t.handle 0x0C x) t ∧
      t.gen 0x0C x = (s.gen 0x0C x + 1) % 1024 ∧ t.yld = { s.yld with layers := tput s.yld.layers x (s.cmdOf 0x0D ring.val e).layer } ∧
      t.getB (YLD_L_STAT.LIVE x) = true ∧ t.getB (YLD_L_STAT.LOG_FULL x) = false ∧ t.get (YLD_L_WPOS.WPOS x) = 0) ∧
    (inDataPart ((s.cmdOf 0x0D ring.val e).arg 32 8) (25 * (s.cmdOf 0x0D ring.val e).arg 40 4) = false → s.completed 0x0D ring.val e 0x05 0 t ∧ t.yld = s.yld) ∧
    s.only [.dram, .rings, .gens, .yld, .rcd, .cyc] (complFlds 0x0D ring.val ++ yldShowFlds) t := by
  obtain rfl : ring = 0 := Subsingleton.elim _ _
  change s.ready 0x0D 0 0 e at hready
  change s.layerAllowed (s.cmdOf 0x0D 0 e) at h
  have hallowed : (s.entryTaken 0x0D 0 1 e).layerAllowed (s.cmdOf 0x0D 0 e) :=
    ⟨h.cellMin, h.cellMax, h.slotMin, h.slotMax, h.aligned, h.inWins, h.logMin, h.logMax, h.apart⟩
  have hexec : exec (.layerCreate 0 e) s = .next _ :=
    congrArg Host.Outcome.next ((runRow_runs hready rfl opLayerCreate).trans (opLayerCreate_eq (s := s.entryTaken 0x0D 0 1 e) hx hallowed))
  cases hpart : inDataPart ((s.cmdOf 0x0D 0 e).arg 32 8) (25 * (s.cmdOf 0x0D 0 e).arg 40 4) with
  | false =>
    rw [hpart, if_neg (by decide)] at hexec
    obtain ⟨hdone, hkept, honly, hrest⟩ := yldEnded (code := 5) (h := 0) hready (by decide) (only_refl (s.entryTaken 0x0D 0 1 e) [] []) (by simp) (by simp [offRing])
    exact ⟨_, hexec, hkept, fun hf => absurd (hpart.symm.trans hf) (by decide), fun _ => ⟨hdone, honly.1 .yld (by simp)⟩, only_mono honly (by simp) (by simp +contextual)⟩
  | true =>
    have hfull : (s.cmdOf 0x0D 0 e).layer.full = false := decide_eq_false (Nat.not_le.2 h.logMin)
    rw [hpart, if_pos rfl] at hexec
    obtain ⟨hmade, hyld, hgen⟩ := layerMade_shows x (s.cmdOf 0x0D 0 e).layer (s.entryTaken 0x0D 0 1 e)
    have hlayer : ((s.entryTaken 0x0D 0 1 e).layerMade x (s.cmdOf 0x0D 0 e).layer).yldLayer x = some (s.cmdOf 0x0D 0 e).layer := by
      rw [State.yldLayer, hyld]
      exact tget_tput_self ..
    change _ = { s.yld with layers := tput s.yld.layers x (s.cmdOf 0x0D 0 e).layer } at hyld
    change _ = (s.gen 0x0C x + 1) % 1024 at hgen
    have hwpos0 : (s.cmdOf 0x0D 0 e).layer.wpos = 0 := rfl
    generalize hv : (s.cmdOf 0x0D 0 e).layer = v at hexec hmade hyld hgen hlayer hfull hwpos0
    generalize (s.entryTaken 0x0D 0 1 e).layerMade x v = u at hexec hmade hyld hgen hlayer
    obtain ⟨hlive, hlogfull, hwpos, -⟩ := yldShow_some (tfree_lt hx) hlayer
    have hshow := only_seq hmade (only_yldShow u)
    have hgens : u.yldShow.gens = u.gens := (only_yldShow u).1 .gens (by simp)
    have hyld' := (yld_yldShow u).trans hyld
    rw [← handle_of_gens hgens 0x0C x, created_eq] at hexec
    generalize u.yldShow = w at hexec hlive hlogfull hwpos hshow hgens hyld'
    obtain ⟨hdone, hkept, honly, hrest⟩ := yldEnded (code := 0) (h := w.handle 0x0C x) hready (by decide) hshow (by simp) (offRing_yldShowFlds)
    have haddr := layerAddr x
    have hgens' := hrest.1 .gens (by simp)
    refine ⟨_, hexec, hkept, fun _ => ⟨by rw [handle_of_gens hgens' 0x0C x]; exact hdone, (gen_of_gens hgens' 0x0C x).trans ((gen_of_gens hgens 0x0C x).trans hgen),
      ((hrest.1 .yld (by simp)).trans hyld').trans (by rw [← hv]; rfl), ?_, ?_, ?_⟩, fun hf => absurd (hpart.symm.trans hf) (by decide), only_mono honly (by simp) (by simp)⟩
    · exact (getB_of_get (hrest.2.1 _ (apart_complFlds_yld ⟨Nat.le_trans (by decide) haddr.1, Nat.lt_trans haddr.2.1 (by decide)⟩))).trans hlive
    · exact ((getB_of_get (hrest.2.1 _ (apart_complFlds_yld ⟨Nat.le_trans (by decide) haddr.1, Nat.lt_trans haddr.2.1 (by decide)⟩))).trans hlogfull).trans hfull
    · refine ((hrest.2.1 _ (apart_complFlds_yld ⟨Nat.le_trans (by decide) haddr.2.2.1, Nat.lt_trans haddr.2.2.2 (by decide)⟩)).trans hwpos).trans ?_
      rw [hwpos0]
      rfl

end Create

/-! ### LAYER_DESTROY and FLUSH -/

section Wait
variable {s : State} {c : Cmd} {e : Entry} {x : Nat} {v : YldLayer} {ring : Fin 1}

theorem opLayerDestroy_eq (hcheck : s.checkHandle 0x0C s.yldLive c.handle = none) (hv : s.yldLayer (hIndex c.handle) = some v) :
    opLayerDestroy c s = s.setLayer (hIndex c.handle) { v with waits := v.waits ++ [{ id := c.id, destroy := true, tiles := none }] } := by
  unfold opLayerDestroy
  simp only [hcheck, hv]

theorem opYldFlush_eq (hcheck : s.checkHandle 0x0C s.yldLive c.handle = none) (hv : s.yldLayer (hIndex c.handle) = some v) (hw : v.waits = []) :
    opYldFlush c s = s.setLayer (hIndex c.handle) { v with waits := [{ id := c.id, destroy := false, tiles := none }] } := by
  unfold opYldFlush
  simp only [hcheck, hv, hw, List.any_nil, Bool.false_eq_true, if_false, List.nil_append]

/-- A command that waits on a layer has started. -/
theorem waits_shows {opcode : Nat} (hready : s.ready 0x0D 0 0 e) (v : YldLayer) : s.started 0x0D 0 opcode e ((s.entryTaken 0x0D 0 opcode e).setLayer x v) ∧
    ((s.entryTaken 0x0D 0 opcode e).setLayer x v).yld = { s.yld with layers := tput s.yld.layers x v } ∧
    s.only [.rings, .yld] [] ((s.entryTaken 0x0D 0 opcode e).setLayer x v) := by
  have hset := only_setLayer x v (s.entryTaken 0x0D 0 opcode e)
  exact ⟨started_of_only (idle_of_ready hready) hset (by simp), rfl, only_mono (only_seq only_entryTaken hset) (by simp) (by simp)⟩

theorem layerHandle {opcode : Nat} (h : s.checkHandle 0x0C s.yldLive e.handle.toNat = none) :
    (s.entryTaken 0x0D 0 opcode e).checkHandle 0x0C (s.entryTaken 0x0D 0 opcode e).yldLive e.handle.toNat = none := (checkHandle_entryTaken fun _ => rfl).trans h

theorem layerDestroyed (hready : s.ready 0x0D ring.val 0 e) (hcheck : s.checkHandle 0x0C s.yldLive e.handle.toNat = none) (hx : hIndex e.handle.toNat = x)
    (hv : s.yldLayer x = some v) : ∃ t, exec (.layerDestroy ring e) s = .next t ∧ s.started 0x0D ring.val 2 e t ∧
    t.yld = { s.yld with layers := tput s.yld.layers x { v with waits := v.waits ++ [{ id := (s.ring 0x0D ring.val).nextId, destroy := true, tiles := none }] } } ∧
    s.only [.rings, .yld] [] t := by
  obtain rfl : ring = 0 := Subsingleton.elim _ _
  change s.ready 0x0D 0 0 e at hready
  subst hx
  have hop := opLayerDestroy_eq (c := s.cmdOf 0x0D 0 e) (layerHandle (opcode := 2) hcheck) hv
  have hexec : exec (.layerDestroy 0 e) s = .next _ := congrArg Host.Outcome.next ((runRow_runs hready rfl opLayerDestroy).trans hop)
  exact ⟨_, hexec, waits_shows hready _⟩

theorem yldFlushed (hready : s.ready 0x0D ring.val 0 e) (hcheck : s.checkHandle 0x0C s.yldLive e.handle.toNat = none) (hx : hIndex e.handle.toNat = x)
    (hv : s.yldLayer x = some v) (hw : v.waits = []) : ∃ t, exec (.yldFlush ring e) s = .next t ∧ s.started 0x0D ring.val 4 e t ∧
    t.yld = { s.yld with layers := tput s.yld.layers x { v with waits := [{ id := (s.ring 0x0D ring.val).nextId, destroy := false, tiles := none }] } } ∧
    s.only [.rings, .yld] [] t := by
  obtain rfl : ring = 0 := Subsingleton.elim _ _
  change s.ready 0x0D 0 0 e at hready
  subst hx
  have hop := opYldFlush_eq (c := s.cmdOf 0x0D 0 e) (layerHandle (opcode := 4) hcheck) hv hw
  have hexec : exec (.yldFlush 0 e) s = .next _ := congrArg Host.Outcome.next ((runRow_runs hready rfl opYldFlush).trans hop)
  exact ⟨_, hexec, waits_shows hready _⟩

end Wait

/-! ### POSE (R417) -/

section Pose
variable {s : State} {c : Cmd} {e : Entry} {p : YldPose} {d : Nat} {ring : Fin 1}

/-- The pose that a POSE gives. -/
def Cmd.pose (c : Cmd) (now : Nat) : YldPose :=
  { tov := c.arg 16 8, e := toSigned 64 (c.arg 24 8), n := toSigned 64 (c.arg 32 8), psi := c.arg 40 4, v := c.arg 44 4, at0 := now }

/-- The state with a pose more, those older than 30 s gone. -/
def State.posed (p : YldPose) (s : State) : State :=
  s.withYld { s.yld with poses := (s.yld.poses.filter fun q => decide (p.tov ≤ q.tov + 30000000000)) ++ [p] }

theorem opYldPose_eq : opYldPose c s =
    if s.now < c.arg 16 8 then c.finish 0x05 s
    else if s.yld.poses.any (fun q => decide (c.arg 16 8 ≤ q.tov)) then c.finish 0x21 s
    else c.finish 0x00 (if (s.posed (c.pose s.now)).yldDue.any fun e => decide (c.arg 16 8 ≤ (s.posed (c.pose s.now)).yldP e) then (s.posed (c.pose s.now)).yldLate
      else s.posed (c.pose s.now)) := rfl

/-- POSE's arguments. -/
theorem pose_of_args {now : Nat} (h1 : c.arg 16 8 = p.tov) (h2 : toSigned 64 (c.arg 24 8) = p.e) (h3 : toSigned 64 (c.arg 32 8) = p.n) (h4 : c.arg 40 4 = p.psi)
    (h5 : c.arg 44 4 = p.v) (h6 : p.at0 = now) : c.pose now = p := by
  cases p
  simp only [Cmd.pose, YldPose.mk.injEq]
  exact ⟨h1, h2, h3, h4, h5, h6.symm⟩

/-- A pose in the order of its stamp. -/
theorem opYldPose_taken (hpose : c.pose s.now = p) (hnow : p.tov ≤ s.now) (hold : (s.yld.poses.any fun q => decide (p.tov ≤ q.tov)) = false) : opYldPose c s =
    c.finish 0x00 (if s.yldDue.any fun e => decide (p.tov ≤ s.yldP e) then (s.posed p).yldLate else s.posed p) := by
  have htov : c.arg 16 8 = p.tov := congrArg YldPose.tov hpose
  rw [opYldPose_eq, htov, if_neg (Nat.not_lt.2 hnow), hold, if_neg (by decide), hpose]
  rfl

theorem only_posed (p : YldPose) (s : State) : s.only [.yld] [] (s.posed p) := only_withYld _ s

theorem exec_yldPose (hready : s.ready 0x0D 0 0 e) : exec (.yldPose 0 e) s = .next (opYldPose (s.cmdOf 0x0D 0 e) (s.entryTaken 0x0D 0 3 e)) :=
  congrArg Host.Outcome.next (runRow_runs hready rfl opYldPose)

/-- A pose before its windows. -/
theorem posed_timely (hready : s.ready 0x0D ring.val 0 e) (hpose : (s.cmdOf 0x0D ring.val e).pose s.now = p) (hnow : p.tov ≤ s.now)
    (hold : (s.yld.poses.any fun q => decide (p.tov ≤ q.tov)) = false) (hdue : (s.yldDue.any fun c => decide (p.tov ≤ s.yldP c)) = false) :
    ∃ t, exec (.yldPose ring e) s = .next t ∧ s.completed 0x0D ring.val e 0x00 e.handle.toNat t ∧ s.dramKept (s.complAddr 0x0D ring.val) 16 t ∧
    t.yld = { s.yld with poses := (s.yld.poses.filter fun q => decide (p.tov ≤ q.tov + 30000000000)) ++ [p] } ∧
    s.only [.dram, .rings, .yld, .rcd, .cyc] (complFlds 0x0D ring.val) t := by
  obtain rfl : ring = 0 := Subsingleton.elim _ _
  change s.ready 0x0D 0 0 e at hready
  have hdue' : ((s.entryTaken 0x0D 0 3 e).yldDue.any fun c => decide (p.tov ≤ (s.entryTaken 0x0D 0 3 e).yldP c)) = false := hdue
  have hop := opYldPose_taken (s := s.entryTaken 0x0D 0 3 e) hpose hnow hold
  rw [hdue', if_neg (by decide)] at hop
  have hwork := only_posed p (s.entryTaken 0x0D 0 3 e)
  have hyld : ((s.entryTaken 0x0D 0 3 e).posed p).yld = { s.yld with poses := (s.yld.poses.filter fun q => decide (p.tov ≤ q.tov + 30000000000)) ++ [p] } := rfl
  have hexec := (exec_yldPose hready).trans (congrArg Host.Outcome.next hop)
  generalize (s.entryTaken 0x0D 0 3 e).posed p = u at hexec hwork hyld
  obtain ⟨hdone, hkept, honly, hrest⟩ := yldEnded (code := 0) (h := e.handle.toNat) hready (by decide) hwork (by simp) (by simp [offRing])
  exact ⟨_, hexec, hdone, hkept, (hrest.1 .yld (by simp)).trans hyld, only_mono honly (by simp) (by simp)⟩

theorem offRing_lateFlds : offRing 0x0D 0 lateFlds := offRing_all rfl

theorem offSource_complFlds_yld {n : Nat} (hn : n % 384 ≠ complSource 0x0D 0 % 384) : offSource n (complFlds 0x0D 0) :=
  offSource_cons (by decide) (offSource_cons (by decide) (offSource_raiseFlds (fun h => hn h.symm)))

/-- A pose behind a window that would have used it. -/
theorem posed_late (hready : s.ready 0x0D ring.val 0 e) (hpose : (s.cmdOf 0x0D ring.val e).pose s.now = p) (hnow : p.tov ≤ s.now)
    (hold : (s.yld.poses.any fun q => decide (p.tov ≤ q.tov)) = false) (hdue : s.yldDue = some d) (hlate : p.tov ≤ s.yldP d) (hdet : s.reg SYS_DET_STATUS = 0#32) :
    ∃ t, exec (.yldPose ring e) s = .next t ∧ s.completed 0x0D ring.val e 0x00 e.handle.toNat t ∧ s.dramKept (s.complAddr 0x0D ring.val) 16 t ∧
    t.yld = { s.yld with poses := (s.yld.poses.filter fun q => decide (p.tov ≤ q.tov + 30000000000)) ++ [p] } ∧
    t.get YLD_CNT.LATE = min 65535 (s.get YLD_CNT.LATE + 1) ∧ t.getB SYS_DET_STATUS.YLD_LATE = true ∧ s.raised 242 t ∧ s.raised 4 t ∧
    s.only [.dram, .rings, .yld, .rcd, .cyc] (complFlds 0x0D ring.val ++ lateFlds) t := by
  obtain rfl : ring = 0 := Subsingleton.elim _ _
  change s.ready 0x0D 0 0 e at hready
  have hdue' : ((s.entryTaken 0x0D 0 3 e).yldDue.any fun c => decide (p.tov ≤ (s.entryTaken 0x0D 0 3 e).yldP c)) = true := by
    change (s.yldDue.any fun c => decide (p.tov ≤ s.yldP c)) = true
    rw [hdue]
    exact decide_eq_true hlate
  have hop := opYldPose_taken (s := s.entryTaken 0x0D 0 3 e) hpose hnow hold
  rw [hdue', if_pos rfl] at hop
  have hexec := (exec_yldPose hready).trans (congrArg Host.Outcome.next hop)
  have hposed := only_posed p (s.entryTaken 0x0D 0 3 e)
  have hyld : ((s.entryTaken 0x0D 0 3 e).posed p).yld = { s.yld with poses := (s.yld.poses.filter fun q => decide (p.tov ≤ q.tov + 30000000000)) ++ [p] } := rfl
  have hcnt0 : ((s.entryTaken 0x0D 0 3 e).posed p).get YLD_CNT.LATE = s.get YLD_CNT.LATE := rfl
  have hdet' : ((s.entryTaken 0x0D 0 3 e).posed p).reg SYS_DET_STATUS = 0#32 := hdet
  generalize (s.entryTaken 0x0D 0 3 e).posed p = u at hexec hposed hyld hcnt0 hdet'
  obtain ⟨hrun, hcnt, hbit, hraised⟩ := yldLate_shows u
  obtain ⟨-, hraised4⟩ := yldLate_first hdet'
  have hyld' : u.yldLate.yld = u.yld := hrun.only.1 .yld (by simp)
  have hwork := only_seq hposed hrun.only
  have hr : s.raised 242 u.yldLate := raised_before (only_seq only_entryTaken hposed) (by simp) offSource_nil hraised
  have hr4 : s.raised 4 u.yldLate := raised_before (only_seq only_entryTaken hposed) (by simp) offSource_nil hraised4
  generalize u.yldLate = w at hexec hcnt hbit hyld' hwork hr hr4
  obtain ⟨hdone, hkept, honly, hrest⟩ := yldEnded (code := 0) (h := e.handle.toNat) hready (by decide) hwork (by simp) (by simpa using offRing_lateFlds)
  exact ⟨_, hexec, hdone, hkept, (hrest.1 .yld (by simp)).trans (hyld'.trans hyld),
    (hrest.2.1 _ (apart_complFlds_of_addr (by decide) (by decide) (by decide))).trans (by rw [hcnt, hcnt0]),
    (getB_of_get (hrest.2.1 _ (apart_complFlds_of_addr (by decide) (by decide) (by decide)))).trans hbit,
    raised_ahead hr hrest (offSource_complFlds_yld (by decide)), raised_ahead hr4 hrest (offSource_complFlds_yld (by decide)), only_mono honly (by simp) (by simp)⟩

/-- A pose of the future, or one not behind the last. -/
theorem posed_refused (hready : s.ready 0x0D ring.val 0 e)
    (h : s.now < (s.cmdOf 0x0D ring.val e).arg 16 8 ∨ (s.yld.poses.any fun q => decide ((s.cmdOf 0x0D ring.val e).arg 16 8 ≤ q.tov)) = true) :
    ∃ t, exec (.yldPose ring e) s = .next t ∧ s.completed 0x0D ring.val e (if s.now < (s.cmdOf 0x0D ring.val e).arg 16 8 then 0x05 else 0x21) e.handle.toNat t ∧
    s.dramKept (s.complAddr 0x0D ring.val) 16 t ∧ s.only [.dram, .rings, .rcd, .cyc] (complFlds 0x0D ring.val) t := by
  obtain rfl : ring = 0 := Subsingleton.elim _ _
  change s.ready 0x0D 0 0 e at hready
  have hop : opYldPose (s.cmdOf 0x0D 0 e) (s.entryTaken 0x0D 0 3 e) =
      (s.cmdOf 0x0D 0 e).finish (if s.now < (s.cmdOf 0x0D 0 e).arg 16 8 then 0x05 else 0x21) (s.entryTaken 0x0D 0 3 e) := by
    have hnow : (s.entryTaken 0x0D 0 3 e).now = s.now := rfl
    rw [opYldPose_eq, hnow]
    by_cases hlt : s.now < (s.cmdOf 0x0D 0 e).arg 16 8
    · rw [if_pos hlt, if_pos hlt]
    · have hany : ((s.entryTaken 0x0D 0 3 e).yld.poses.any fun q => decide ((s.cmdOf 0x0D 0 e).arg 16 8 ≤ q.tov)) = true := h.resolve_left hlt
      rw [if_neg hlt, if_pos hany, if_neg hlt]
  have hexec := (exec_yldPose hready).trans (congrArg Host.Outcome.next hop)
  have hc : 0x0D * 256 + (if s.now < (s.cmdOf 0x0D 0 e).arg 16 8 then 0x05 else 0x21) < 2 ^ 16 := by split <;> decide
  obtain ⟨hdone, hkept, honly, -⟩ := yldEnded (h := e.handle.toNat) hready hc (only_refl (s.entryTaken 0x0D 0 3 e) [] []) (by simp) (by simp [offRing])
  exact ⟨_, hexec, hdone, hkept, only_mono honly (by simp) (by simp)⟩

end Pose

end Sys2Proof.Machine
end

section
/-! PROOFS. YLD: disabling (R425), and the statement of chapter 19. -/

namespace Sys2Proof.Machine

section Disable
variable {s u : State}

/-- One command in flight ends for a free reason. -/
def State.yldDropped (s : State) (i : Nat) : State := (s.completeSelf 0x0D 0 i (s.freshCode [0x20, 0x21])).drawn

/-- YLD's commands in flight have ended, and its request on ARB1 is withdrawn. -/
def State.yldStopped (s : State) : State :=
  (((s.setB YLD_CTRL.ENABLE false).yld.layers.flatMap fun e => e.2.waits.map (·.id)).foldl State.yldDropped (s.setB YLD_CTRL.ENABLE false)).arbRelease 21

def State.yldBlank (s : State) : State := (s.withYld {}).withInp { s.inp with flowQ := [], lacQ := [] }

theorem yldDisable_eq (s : State) : s.yldDisable = s.yldStopped.yldBlank.yldShow := rfl

theorem only_yldDropped (s : State) (i : Nat) : s.only [.dram, .rings, .rcd, .cyc, .free] (complFlds 0x0D 0) (s.yldDropped i) :=
  only_mono (only_seq (only_completeSelf i (by decide)) (only_drawn _)) (by simp) (by simp)

theorem yldStopped_shows (s : State) : s.yldStopped.getB YLD_CTRL.ENABLE = false ∧ s.yldStopped.inp = s.inp ∧ s.yldStopped.arbHolds 21 = false := by
  have hoff : (s.setB YLD_CTRL.ENABLE false).getB YLD_CTRL.ENABLE = false := getB_setB_self _ _ _ (by decide) rfl
  have hinp : (s.setB YLD_CTRL.ENABLE false).inp = s.inp := setB_inp ..
  unfold State.yldStopped
  generalize s.setB YLD_CTRL.ENABLE false = u at hoff hinp
  generalize (u.yld.layers.flatMap fun e => e.2.waits.map (·.id)) = l
  have hdropped : u.only [.dram, .rings, .rcd, .cyc, .free] (complFlds 0x0D 0) (l.foldl State.yldDropped u) := only_foldl (fun w i _ => only_yldDropped w i) u
  generalize l.foldl State.yldDropped u = w at hdropped
  have hrel := only_arbRelease 21 w
  have hoff1 := (getB_of_get (hdropped.2.1 _ (apart_complFlds_of_addr (g := YLD_CTRL.ENABLE) (by decide) (by decide) (by decide)))).trans hoff
  refine ⟨(getB_of_get (hrel.2.1 _ fun f hf => .inl fun he => ?_)).trans hoff1, (hrel.1 .inp (by simp)).trans ((hdropped.1 .inp (by simp)).trans hinp), (arbRelease_shows 21 w).1⟩
  have hw : windowOf YLD_CTRL.ENABLE.addr = 0xCD := by decide
  rcases window_releaseFlds 21 w f hf with h | h <;> rw [← he, hw] at h <;> exact absurd h (by decide)

theorem only_yldBlank (s : State) : s.only [.yld, .inp] [] s.yldBlank :=
  only_mono (only_seq (only_withYld {} s) (only_withInp _ _)) (by simp) (by simp)

theorem yldDisabled (hon : s.getB YLD_CTRL.ENABLE = true) : ∃ t, exec .yldDisable s = .next t ∧ t.getB YLD_CTRL.ENABLE = false ∧ t.yld = {} ∧
    t.inp = { s.inp with flowQ := [], lacQ := [] } ∧ t.get YLD_STATUS.LAYERS = 0 ∧
    (∀ x, x < 8 → t.reg (YLD_L_STAT x) = 0#32 ∧ t.reg (YLD_L_WPOS x) = 0#32 ∧ t.reg (YLD_L_TSEQ x) = 0#32) ∧ t.arbHolds 21 = false ∧
    s.within [.dram, .free, .cyc, .rings, .inp, .yld, .arb, .rcd] (some [0xC1, 0xCB, 0xCD]) t := by
  have hexec : exec .yldDisable s = .next s.yldDisable := congrArg Host.Outcome.next (if_pos hon)
  have hwithin := within_of ((execYldDisable_mut s _ hexec).mono (Q := [.dram, .free, .cyc, .rings, .inp, .yld, .arb, .rcd]) (V := some [0xC1, 0xCB, 0xCD]) (by decide) rfl)
  obtain ⟨hoff, hinp, hfree⟩ := yldStopped_shows s
  rw [yldDisable_eq] at hexec hwithin
  generalize s.yldStopped = u at hexec hwithin hoff hinp hfree
  have hyld1 : u.yldBlank.yld = {} := rfl
  have hinp1 : u.yldBlank.inp = { u.inp with flowQ := [], lacQ := [] } := rfl
  have hoff1 : u.yldBlank.getB YLD_CTRL.ENABLE = false := (getB_of_get (get_of_only_nil (only_yldBlank u) _)).trans hoff
  have hfree1 : u.yldBlank.arbHolds 21 = false := (arbHolds_of_only (only_yldBlank u) (by simp)).trans hfree
  generalize u.yldBlank = w at hexec hwithin hyld1 hinp1 hoff1 hfree1
  have hshow := only_yldShow w
  refine ⟨_, hexec, ?_, (yld_yldShow w).trans hyld1, ?_, ?_, fun x hx => yldShow_none hx ?_, ?_, hwithin⟩
  · have hctl : ∀ f ∈ yldShowFlds, YLD_CTRL.ENABLE.addr ≠ f.addr := by decide
    exact (getB_of_get (hshow.2.1 _ fun f hf => .inl (hctl f hf))).trans hoff1
  · rw [← hinp]
    exact (hshow.1 .inp (by simp)).trans hinp1
  · rw [layers_yldShow, hyld1]
    rfl
  · rw [State.yldLayer, hyld1]
    rfl
  · exact (arbHolds_of_only hshow (stat_apart (fun f hf => by rw [window_yldShowFlds f hf]; decide) _)).trans hfree1

end Disable

/-- Settles O48, windows from `State.yldWindow`'s equations with no layer and with one, what YLD shows through `yldShow_some`, and commands through how a
command of YLD ends (`yldEnded`). -/
theorem yieldWindowsTilesAndLayersFollowChapter19 : Obligations.YieldWindowsTilesAndLayersFollowChapter19 := by
  unfold Obligations.YieldWindowsTilesAndLayersFollowChapter19
  refine ⟨?_, ?_, ?_, ?_, ?_, ?_, ?_, ?_, ?_, ?_, ?_⟩
  · intro e w f x s hon hnext hdue hgot hload hmode hposes hlayers hloss hwm hheld hv hx hnan hinf hw
    exact compute_unmapped hon hnext hdue hgot hload hmode hposes hlayers hloss hwm hheld hv hx hnan hinf hw
  · intro e s hon hnext hdue hgot hflow hmode hposes hlayers hloss hwm hheld hdet
    obtain ⟨t, hexec, hlast, hnext', hcnt, hbit, hstamp, hr, hr4, honly⟩ := compute_absent hon hnext hdue hgot hflow hmode hposes hlayers hloss hwm hheld hdet
    exact ⟨t, hexec, hlast, hnext', hcnt, hbit, hstamp, hr, hr4, only_mono honly (fun _ h => h) (by simp +contextual [lateFlds, firstFlds, unmappedFlds, or_imp])⟩
  · rintro e w m f a l v x k s hon hnext hdue hgot hload hmode hposes htov hat hlayers ht hwaits hn hloss hwm hmin hle hheld hv hx hnan hinf hw hm hk
    exact compute_mapped hon hnext hdue hgot hload hmode hposes htov hat hlayers ht hwaits hn hloss hwm hmin hle hheld hv hx hnan hinf hw hm hk
  · intro l n v q s hon hheld hlayers ht hq hwaits hroom hthaw hl
    exact tile_written hon hheld hlayers ht hq hwaits hroom hthaw hl
  · rintro ring e x cell ns cache lba slots s hready hx rfl rfl rfl rfl rfl hcmin hcmax hnmin hnmax halign hwin hlmin hlmax hapart
    exact layerCreated hready hx ⟨hcmin, hcmax, hnmin, hnmax, halign, hwin, hlmin, hlmax, hapart⟩
  · intro ring e x v s hready hcheck hx hv
    exact layerDestroyed hready hcheck hx hv
  · intro ring e x v s hready hcheck hx hv hw
    exact yldFlushed hready hcheck hx hv hw
  · intro ring e p s hready h1 h2 h3 h4 h5 h6 hnow hold hdue
    exact posed_timely hready (pose_of_args h1 h2 h3 h4 h5 h6) hnow hold hdue
  · intro ring e p c s hready h1 h2 h3 h4 h5 h6 hnow hold hdue hlate hdet
    obtain ⟨t, hexec, hdone, hkept, hyld, hcnt, hbit, hr, hr4, honly⟩ := posed_late hready (pose_of_args h1 h2 h3 h4 h5 h6) hnow hold hdue hlate hdet
    exact ⟨t, hexec, hdone, hkept, hyld, hcnt, hbit, hr, hr4, only_mono honly (fun _ h => h) (by simp +contextual [lateFlds, firstFlds, or_imp])⟩
  · intro ring e s hready h
    exact posed_refused hready h
  · exact fun _ hon => yldDisabled hon

end Sys2Proof.Machine
end

section
/-! PROOFS. PAIR's lanes, its STATE and the end of what it carries (R462, R464, R473): the layer below the statement of chapter 22. -/

namespace Sys2Proof.Machine

section Lanes
variable {s t u : State} {l v : Nat} {x : PairState}

/-- The state with other facts behind PAIR's registers. -/
def State.withPair (x : PairState) (s : State) : State := { s with pair := x }

@[simp] theorem pair_withPair (x : PairState) (s : State) : (s.withPair x).pair = x := rfl

@[simp] theorem get_withPair (x : PairState) (f : Fld) (s : State) : (s.withPair x).get f = s.get f := rfl

theorem only_withPair (x : PairState) (s : State) : s.only [.pair] [] (s.withPair x) :=
  ⟨fun p hp => by cases p <;> simp [State.same, State.withPair] at hp ⊢, fun _ _ => rfl, rfl, rfl⟩

theorem ran_withPair (x : PairState) (s : State) : Ran [.pair] [] s (s.withPair x) := ran_of_only (only_withPair x s) (by simp) (by simp)

theorem pair_of_only {ps : List Comp} {fs : List Fld} (h : s.only ps fs t) (hp : .pair ∉ ps) : t.pair = s.pair := h.1 .pair hp

/-! ### Fields within fields -/

/-- Every field of `fs` lies in one of `gs`. -/
def inFlds (fs gs : List Fld) : Prop := ∀ f ∈ fs, ∃ g ∈ gs, f.addr = g.addr ∧ g.lo ≤ f.lo ∧ f.lo + f.width ≤ g.lo + g.width

theorem only_within {ps : List Comp} {fs gs : List Fld} (h : s.only ps fs t) (hin : inFlds fs gs) : s.only ps gs t := by
  refine ⟨h.1, fun g hg => h.2.1 g fun f hf => ?_, h.2.2⟩
  obtain ⟨w, hw, haddr, hlo, hhi⟩ := hin f hf
  rcases hg w hw with h | h | h
  · exact .inl fun he => h (he.trans haddr)
  · exact .inr (.inl (by omega))
  · exact .inr (.inr (by omega))

theorem Ran.within {ps : List Comp} {fs gs : List Fld} (h : Ran ps fs s t) (hin : inFlds fs gs) : Ran ps gs s t := ⟨only_within h.only hin, h.evt⟩

theorem inFlds_append {fs gs hs : List Fld} (h : inFlds fs hs) (h' : inFlds gs hs) : inFlds (fs ++ gs) hs :=
  fun f hf => (List.mem_append.1 hf).elim (h f) (h' f)

theorem inFlds_of_mem {fs gs : List Fld} (h : ∀ f ∈ fs, f ∈ gs) : inFlds fs gs := fun f hf => ⟨f, h f hf, rfl, by simp, by simp⟩

/-! ### Lanes UP -/

/-- The bit that shows lane `l` UP. -/
def laneFld (l : Nat) : Fld := ⟨PAIR_STAT, 24 + l, 1⟩

theorem isFlag_lane (hl : l < 2) : IsFlag (laneFld l) := ⟨rfl, by simp only [laneFld]; omega, by simp only [laneFld]; decide⟩

theorem inFlds_lane (hl : l < 2) {gs : List Fld} (hg : PAIR_STAT.LANE_UP ∈ gs) : inFlds [laneFld l] gs := fun f hf => by
  rw [List.mem_singleton.1 hf]
  exact ⟨_, hg, rfl, by simp only [laneFld, PAIR_STAT.LANE_UP]; omega, by simp only [laneFld, PAIR_STAT.LANE_UP]; omega⟩

theorem setLane_eq (l : Nat) (up : Bool) (s : State) : s.setLane l up = s.changeBit 314 (laneFld l) up := rfl

/-- What a lane's change leaves. -/
theorem setLane_shows (hl : l < 2) (up : Bool) (s : State) : Ran [.rcd, .cyc] (laneFld l :: raiseFlds 314) s (s.setLane l up) ∧
    (s.setLane l up).getB (laneFld l) = up ∧ (s.getB (laneFld l) ≠ up → s.raised 314 (s.setLane l up)) := by
  rw [setLane_eq]
  exact ⟨ran_changeBit (isFlag_lane hl) _ _ _, getB_changeBit_self (isFlag_lane hl) .., raised_changeBit (isFlag_lane hl)⟩

theorem setLane_same {up : Bool} (h : s.getB (laneFld l) = up) : s.setLane l up = s := by rw [setLane_eq, changeBit_same h]

/-- LANE_UP is 0 exactly where both lanes are down. -/
theorem laneUp_eq_zero (s : State) : s.get PAIR_STAT.LANE_UP = 0 ↔ s.getB (laneFld 0) = false ∧ s.getB (laneFld 1) = false := by
  have hclear (f : Fld) : s.getB f = false ↔ s.get f ≠ 1 := decide_eq_false_iff_not
  rw [hclear, hclear]
  simp only [State.get, laneFld, PAIR_STAT.LANE_UP, bitsOf, Nat.reducePow, Nat.reduceAdd]
  omega

/-- The other lane stays. -/
theorem setLane_other {k : Nat} (hl : l < 2) (hne : k ≠ l) (up : Bool) (s : State) : (s.setLane l up).getB (laneFld k) = s.getB (laneFld k) := by
  have hapart : (laneFld k).apart (laneFld l) := .inr (by simp only [laneFld]; omega)
  exact getB_of_get (get_changeBit_apart (isFlag_lane hl) 314 up s hapart (by simp only [laneFld]; decide))

/-! ### STATE -/

/-- STATE shows `v`, and source 313 tells a change. -/
def State.told (v : Nat) (s : State) : State := if s.get PAIR_STAT.STATE = v then s else (s.set PAIR_STAT.STATE v).raise 313

theorem told_same (h : s.get PAIR_STAT.STATE = v) : s.told v = s := if_pos h

theorem told_changed (h : s.get PAIR_STAT.STATE ≠ v) : s.told v = (s.set PAIR_STAT.STATE v).raise 313 := if_neg h

theorem told_shows (hv : v < 4) (s : State) : Ran [.rcd, .cyc] (PAIR_STAT.STATE :: raiseFlds 313) s (s.told v) ∧ (s.told v).get PAIR_STAT.STATE = v ∧
    (s.get PAIR_STAT.STATE ≠ v → s.raised 313 (s.told v)) := by
  by_cases h : s.get PAIR_STAT.STATE = v
  · rw [told_same h]
    exact ⟨.refl .., h, (absurd h ·)⟩
  · have hset := ran_set s (f := PAIR_STAT.STATE) v (by decide) (by decide)
    rw [told_changed h]
    refine ⟨(hset.seq (ran_raise _ 313)).mono (by simp) (by simp +contextual), ?_, fun _ => hset.evt.raised_raise (by decide)⟩
    rw [get_raise_outside _ _ (by decide), get_set_self _ _ _ (by decide)]
    exact Nat.mod_eq_of_lt hv

theorem setPairState_same (h : s.get PAIR_STAT.STATE = v) : s.setPairState v = s := if_pos h

/-- Leaving JOINED ends what PAIR carries. -/
theorem setPairState_leave (h : s.get PAIR_STAT.STATE = 2) (hv : v ≠ 2) : s.setPairState v = (s.told v).pairLeave := by
  rw [told_changed (by rw [h]; exact hv.symm), State.setPairState, if_neg (by rw [h]; exact hv.symm), if_pos h]

/-- Another change to UNJOINED or DOWN. -/
theorem setPairState_apart (h : s.get PAIR_STAT.STATE ≠ 2) (hv : v ≠ 2) : s.setPairState v = s.told v := by
  by_cases hsame : s.get PAIR_STAT.STATE = v
  · rw [setPairState_same hsame, told_same hsame]
  · rw [told_changed hsame, State.setPairState, if_neg hsame, if_neg h, if_neg hv]

theorem setPairState_join (h : s.get PAIR_STAT.STATE ≠ 2) : s.setPairState 2 = (s.told 2).withPair { (s.told 2).pair with lost := false } := by
  rw [told_changed h, State.setPairState, if_neg h, if_neg h, if_pos rfl]
  rfl

/-! ### Leaving -/

/-- Nothing is carried any more. -/
def PairState.ended (p : PairState) : PairState := { p with bodies := [], sends := [], bulk := [], skipped := [] }

theorem pairLeave_eq (s : State) : s.pairLeave =
    let u := s.pair.bodies.foldl (fun (s : State) _ => s.cvDrop) s
    let v := u.pair.sends.foldl (fun (s : State) x => s.completeSelf 0x10 0 x.id 0x0D) u
    v.withPair v.pair.ended := rfl

theorem cvDrop_pair (s : State) : s.cvDrop.pair = s.pair := by unfold State.cvDrop; simp

theorem pairLeave_idle (hb : s.pair.bodies = []) (hs : s.pair.sends = []) : s.pairLeave = s.withPair s.pair.ended := by
  rw [pairLeave_eq, hb]
  simp only [List.foldl_nil, hs]

theorem pairLeave_body {b : Nat × Rasm} (hb : s.pair.bodies = [b]) (hs : s.pair.sends = []) : s.pairLeave = s.cvDrop.withPair s.pair.ended := by
  rw [pairLeave_eq, hb]
  simp only [List.foldl_nil, List.foldl_cons, cvDrop_pair, hs]

theorem pairLeave_send {y : PairSend} (hb : s.pair.bodies = []) (hs : s.pair.sends = [y]) :
    s.pairLeave = (s.completeSelf 0x10 0 y.id 0x0D).withPair s.pair.ended := by
  rw [pairLeave_eq, hb]
  simp only [List.foldl_nil, hs, List.foldl_cons, completeSelf_pair]

/-- Leaving twice is leaving once. -/
theorem pairLeave_twice (s : State) : s.pairLeave.pairLeave = s.pairLeave := by
  rw [pairLeave_idle (s := s.pairLeave) rfl rfl]
  rfl

/-- What a discarded body leaves. -/
theorem cvDrop_shows (s : State) : Ran [.rcd, .cyc] (PAIR_CNT.CV_DROP :: raiseFlds 317) s s.cvDrop ∧
    s.cvDrop.get PAIR_CNT.CV_DROP = min 65535 (s.get PAIR_CNT.CV_DROP + 1) ∧ s.raised 317 s.cvDrop := by
  have hset := ran_set s (f := PAIR_CNT.CV_DROP) (satTo (2 ^ 16 - 1) (s.get PAIR_CNT.CV_DROP + 1)) (by decide) (by decide)
  change Ran [] [PAIR_CNT.CV_DROP] s (s.bump PAIR_CNT.CV_DROP 1) at hset
  refine ⟨(hset.seq (ran_raise _ 317)).mono (by simp) (by simp +contextual), ?_, hset.evt.raised_raise (by decide)⟩
  rw [State.cvDrop, get_raise_outside _ _ (by decide), get_bump_self _ _ _ (by decide), satTo_eq_min]
  rfl

/-! ### No lane UP -/

/-- PAIR's facts as the last lane goes down. -/
def State.quieted (s : State) : PairState := { s.pair with lost := s.pairJoined || s.pair.lost, good := 0, heads := [] }

theorem pairJoined_eq (s : State) : s.pairJoined = decide (s.get PAIR_STAT.STATE = 2) := rfl

theorem pairDown_up (h : s.get PAIR_STAT.LANE_UP ≠ 0) : s.pairDown = s := if_pos h

theorem pairDown_eq (h : s.get PAIR_STAT.LANE_UP = 0) : s.pairDown = (s.withPair s.quieted).setPairState 0 := by
  rw [State.pairDown, if_neg (by simpa using h), State.quieted]
  cases s.pairJoined <;> rfl

/-- The last lane goes down while JOINED. -/
theorem pairDown_joined (h : s.get PAIR_STAT.LANE_UP = 0) (hj : s.get PAIR_STAT.STATE = 2) :
    s.pairDown = ((s.withPair s.quieted).told 0).pairLeave := by
  rw [pairDown_eq h, setPairState_leave (by simpa using hj) (by decide)]

theorem pairDown_apart (h : s.get PAIR_STAT.LANE_UP = 0) (hj : s.get PAIR_STAT.STATE ≠ 2) : s.pairDown = (s.withPair s.quieted).told 0 := by
  rw [pairDown_eq h, setPairState_apart (by simpa using hj) (by decide)]

/-- With nothing carried on, DOWN is one work. -/
theorem pairDown_pairLeave (h : s.get PAIR_STAT.LANE_UP = 0) : s.pairDown.pairLeave = ((s.withPair s.quieted).told 0).pairLeave := by
  by_cases hj : s.get PAIR_STAT.STATE = 2
  · rw [pairDown_joined h hj, pairLeave_twice]
  · rw [pairDown_apart h hj]

/-- The work of DOWN before anything carried ends. -/
theorem quietTold_shows (s : State) : let t := (s.withPair s.quieted).told 0
    Ran [.pair, .rcd, .cyc] (PAIR_STAT.STATE :: raiseFlds 313) s t ∧ t.get PAIR_STAT.STATE = 0 ∧ (s.get PAIR_STAT.STATE ≠ 0 → s.raised 313 t) ∧
      t.pair = s.quieted := by
  obtain ⟨hrun, hstate, hraised⟩ := told_shows (v := 0) (by decide) (s.withPair s.quieted)
  have hquiet := ran_withPair s.quieted s
  exact ⟨hquiet.seq hrun, hstate, fun h => hquiet.evt.raised_second hrun.evt (by decide) (hraised (by rwa [get_withPair])), pair_of_only hrun.only (by simp)⟩

/-- What stands as the last lane goes down with nothing carried. -/
structure LanesDown (s t : State) : Prop where
  ran : Ran [.pair, .rcd, .cyc] (PAIR_STAT.STATE :: raiseFlds 313) s t
  state : t.get PAIR_STAT.STATE = 0
  told : s.get PAIR_STAT.STATE ≠ 0 → s.raised 313 t
  good : t.pair.good = 0
  lost : s.get PAIR_STAT.STATE = 2 → t.pair.lost = true
  heads : t.pair.heads = []
  heard : t.pair.heard = s.pair.heard
  sends : t.pair.sends = []

theorem pairDown_shows (h : s.get PAIR_STAT.LANE_UP = 0) (hb : s.pair.bodies = []) (hs : s.pair.sends = []) : LanesDown s s.pairDown := by
  obtain ⟨hrun, hstate, hraised, hpair⟩ := quietTold_shows s
  by_cases hj : s.get PAIR_STAT.STATE = 2
  · rw [pairDown_joined h hj]
    generalize (s.withPair s.quieted).told 0 = u at hrun hstate hraised hpair
    have hlost : s.quieted.lost = true := by simp [State.quieted, pairJoined_eq, hj]
    rw [pairLeave_idle (by rw [hpair]; exact hb) (by rw [hpair]; exact hs), hpair]
    have hend := ran_withPair s.quieted.ended u
    exact ⟨(hrun.seq hend).mono (by simp) (by simp), by rw [get_withPair, hstate], fun h => hend.evt.raised_first hrun.evt (by decide) (hraised h), rfl, fun _ => hlost, rfl, rfl, rfl⟩
  · rw [pairDown_apart h hj]
    generalize (s.withPair s.quieted).told 0 = u at hrun hstate hraised hpair
    exact ⟨hrun, hstate, hraised, by rw [hpair]; rfl, (absurd · hj), by rw [hpair]; rfl, by rw [hpair]; rfl, by rw [hpair]; exact hs⟩

/-- DOWN already: nothing more happens. -/
theorem pairDown_still (hstate : s.get PAIR_STAT.STATE = 0) (hgood : s.pair.good = 0) (hheads : s.pair.heads = []) : s.pairDown = s := by
  by_cases h : s.get PAIR_STAT.LANE_UP = 0
  · have hquiet : s.quieted = s.pair := by
      have hjoined : s.pairJoined = false := by simp [pairJoined_eq, hstate]
      rw [State.quieted, hjoined, Bool.false_or, ← hgood, ← hheads]
    rw [pairDown_eq h, setPairState_same (by simpa using hstate), hquiet]
    rfl
  · exact pairDown_up h

/-! ### The sweep (R462) -/

/-- Lane `l` has been silent for 1,000,000 ns. -/
def State.laneSilent (l : Nat) (s : State) : Bool := (tget s.pair.heard l).all fun t => decide (t + 1000000 < s.now)

theorem laneQuiet_silent (h : s.laneSilent l = true) : s.laneQuiet l = (s.setLane l false).pairDown := if_pos h

theorem laneQuiet_heard (h : s.laneSilent l = false) : s.laneQuiet l = s := if_neg (by rw [State.laneSilent] at h; simp [h])

/-- A stamp at most `d` old is not older than `d`. -/
theorem not_silent_of_heard {o : Option Nat} {now d : Nat} (h : (o.any fun x => decide (now ≤ x + d)) = true) :
    (o.all fun x => decide (x + d < now)) = false := by
  cases o with
  | none => simp at h
  | some x =>
    simp only [Option.any_some, Option.all_some, decide_eq_true_eq, decide_eq_false_iff_not, Nat.not_lt] at h ⊢
    exact h

/-- Where the lanes show what is true, a lane's sweep leaves everything. -/
theorem laneQuiet_true (h : s.lanesTrue = true) (hl : l < 2) : s.laneQuiet l = s := by
  rw [State.lanesTrue, Bool.and_eq_true, List.all_eq_true] at h
  obtain ⟨hlanes, hdown⟩ := h
  have hlane := hlanes l (List.mem_range.2 hl)
  by_cases hsilent : s.laneSilent l = true
  · have hoff : s.getB (laneFld l) = false := by
      rw [Bool.or_eq_true] at hlane
      rcases hlane with h | h
      · simpa [laneFld] using h
      · exact absurd hsilent (by rw [State.laneSilent, not_silent_of_heard h]; decide)
    rw [laneQuiet_silent hsilent, setLane_same hoff]
    rw [Bool.or_eq_true, decide_eq_true_eq, decide_eq_true_eq] at hdown
    rcases hdown with h | ⟨hstate, hgood, hheads⟩
    · exact pairDown_up h
    · exact pairDown_still hstate hgood hheads
  · exact laneQuiet_heard (by simpa using hsilent)

theorem laneSweep_true (h : s.lanesTrue = true) : s.laneSweep = s := by
  rw [State.laneSweep, laneQuiet_true h (by decide), laneQuiet_true h (by decide)]

end Lanes

end Sys2Proof.Machine
end

section
/-! PROOFS. PAIR: cells that no one takes, lanes that go silent and the block's disabling (R462, R464, R473): the statement of chapter 22 on them. -/

namespace Sys2Proof.Machine

section Cells
variable {s t u : State} {l ty : Nat} {cell : List Byte} {f : State → State}

theorem cellIn_bad (hlane : s.pairLane l = true) (hok : cellOk cell = false) : s.cellIn l ty cell f = s.laneSweep.cellDrop l := by
  simp [State.cellIn, hlane, hok]

theorem cellIn_other (hlane : s.pairLane l = true) (hok : cellOk cell = true) (hty : natLE (cell.take 1) ≠ ty) : s.cellIn l ty cell f = s.laneSweep := by
  simp [State.cellIn, hlane, hok, hty]

/-- A cell of its type reaches its taker. -/
theorem cellIn_taken (hlane : s.pairLane l = true) (htrue : s.lanesTrue = true) (hok : cellOk cell = true) (hty : natLE (cell.take 1) = ty) :
    s.cellIn l ty cell f = f s := by
  simp [State.cellIn, hlane, hok, hty, laneSweep_true htrue]

theorem top_laneCrc (l : Nat) : (PAIR_LANE.CRC l).lo + (PAIR_LANE.CRC l).width ≤ 32 := by simp [PAIR_LANE.CRC]

theorem window_laneCrc (l : Nat) : windowOf (PAIR_LANE.CRC l).addr ≠ 0xC1 := by
  simp only [PAIR_LANE.CRC, PAIR_LANE, windowOf]
  omega

/-- What a copy dropped for its CRC leaves (R462). -/
theorem cellDrop_shows (l : Nat) (s : State) : (s.cellDrop l).get (PAIR_LANE.CRC l) = min 65535 (s.get (PAIR_LANE.CRC l) + 1) ∧
    (s.get (PAIR_LANE.CRC l) = 0 → s.raised 318 (s.cellDrop l)) ∧ s.only [.rcd, .cyc] (PAIR_LANE.CRC l :: raiseFlds 318) (s.cellDrop l) := by
  have hbump (u : State) : u.only [] [PAIR_LANE.CRC l] (u.bump (PAIR_LANE.CRC l) 1) := only_set u _ (top_laneCrc l)
  have hself (u : State) : (u.bump (PAIR_LANE.CRC l) 1).get (PAIR_LANE.CRC l) = min 65535 (u.get (PAIR_LANE.CRC l) + 1) := by
    rw [get_bump_self _ _ _ (top_laneCrc l), satTo_eq_min]
    rfl
  unfold State.cellDrop
  split
  · refine ⟨by rw [hself, get_raise_outside _ _ (window_laneCrc l)],
      fun _ => raised_then (raised_raise s 318) (hbump _) (by simpa using window_laneCrc l), ?_⟩
    exact only_mono (only_seq (only_raise s 318) (hbump _)) (by simp) (by simp +contextual [or_imp])
  · next h => exact ⟨hself s, (absurd · h), only_mono (hbump s) (by simp) (by simp)⟩

theorem headRx_bad {lane : Fin 2} {stamp : Nat} (hlane : s.pairLane lane.val = true) (htrue : s.lanesTrue = true) (hok : cellOk cell = false) :
    ∃ t, exec (.headRx lane cell stamp) s = .next t ∧ t.get (PAIR_LANE.CRC lane.val) = min 65535 (s.get (PAIR_LANE.CRC lane.val) + 1) ∧
      (s.get (PAIR_LANE.CRC lane.val) = 0 → s.raised 318 t) ∧ s.only [.rcd, .cyc] (PAIR_LANE.CRC lane.val :: raiseFlds 318) t :=
  ⟨s.cellDrop lane.val, congrArg Host.Outcome.next ((cellIn_bad hlane hok).trans (by rw [laneSweep_true htrue])), cellDrop_shows ..⟩

theorem headRx_other {lane : Fin 2} {stamp : Nat} (hlane : s.pairLane lane.val = true) (htrue : s.lanesTrue = true) (hok : cellOk cell = true)
    (hty : natLE (cell.take 1) ≠ 1) : ∃ t, exec (.headRx lane cell stamp) s = .next t ∧ t = s :=
  ⟨s, congrArg Host.Outcome.next ((cellIn_other hlane hok hty).trans (laneSweep_true htrue)), rfl⟩

theorem cellCrcFails {lane : Fin 2} (hlane : s.pairLane lane.val = true) :
    ∃ t, exec (.pairCellCrcFail lane) s = .next t ∧ t.get (PAIR_LANE.CRC lane.val) = min 65535 (s.get (PAIR_LANE.CRC lane.val) + 1) ∧
      (s.get (PAIR_LANE.CRC lane.val) = 0 → s.raised 318 t) ∧ s.only [.rcd, .cyc] (PAIR_LANE.CRC lane.val :: raiseFlds 318) t :=
  ⟨s.cellDrop lane.val, congrArg Host.Outcome.next (if_pos hlane), cellDrop_shows ..⟩

end Cells

/-! ### Lanes that go silent -/

section Silent
variable {s t u : State} {lane : Fin 2}

theorem laneTimeout_eq (hen : s.enabled 0x10 = true) (hsilent : s.laneSilent lane.val = true) :
    exec (.laneTimeout lane) s = .next (s.setLane lane.val false).pairDown :=
  congrArg Host.Outcome.next ((if_pos hen).trans (laneQuiet_silent hsilent))

theorem other_lane_ne : 1 - lane.val ≠ lane.val := by omega

/-- A lane goes down beside one that is UP. -/
theorem laneTimeout_one (hen : s.enabled 0x10 = true) (hsilent : s.laneSilent lane.val = true) (hup : s.getB (laneFld lane.val) = true)
    (hother : s.getB (laneFld (1 - lane.val)) = true) : ∃ t, exec (.laneTimeout lane) s = .next t ∧
      t.getB (laneFld lane.val) = false ∧ s.raised 314 t ∧ s.only [.rcd, .cyc] (laneFld lane.val :: raiseFlds 314) t := by
  obtain ⟨hrun, hdown, hraised⟩ := setLane_shows lane.isLt false s
  have hkeep : (s.setLane lane.val false).getB (laneFld (1 - lane.val)) = true := (setLane_other lane.isLt other_lane_ne false s).trans hother
  have hsome : (s.setLane lane.val false).get PAIR_STAT.LANE_UP ≠ 0 := by
    rw [ne_eq, laneUp_eq_zero]
    rintro ⟨h0, h1⟩
    rcases (by omega : lane.val = 0 ∨ lane.val = 1) with h | h <;> simp_all
  exact ⟨s.setLane lane.val false, by rw [laneTimeout_eq hen hsilent, pairDown_up hsome], hdown, hraised (by simp [hup]), hrun.only⟩

/-- What stands after a lane goes down and then the pair. -/
theorem lastLane_shows {fs : List Fld} (hrun : Ran [.rcd, .cyc] fs s u) (hstat : ∀ f ∈ fs, PAIR_STAT.STATE.apart f) (hdown : LanesDown u t) :
    Ran [.pair, .rcd, .cyc] (fs ++ PAIR_STAT.STATE :: raiseFlds 313) s t ∧ (s.get PAIR_STAT.STATE ≠ 0 → s.raised 313 t) ∧
      (s.get PAIR_STAT.STATE = 2 → t.pair.lost = true) := by
  have hstate : u.get PAIR_STAT.STATE = s.get PAIR_STAT.STATE := hrun.only.2.1 _ hstat
  exact ⟨(hrun.seq hdown.ran).mono (by simp) (by simp), fun h => hrun.evt.raised_second hdown.ran.evt (by decide) (hdown.told (by rwa [hstate])),
    fun h => hdown.lost (by rwa [hstate])⟩

theorem apart_lane {l : Nat} (hl : l < 2) : ∀ f ∈ laneFld l :: raiseFlds 314, PAIR_STAT.STATE.apart f := by
  intro f hf
  rcases List.mem_cons.1 hf with rfl | hf
  · exact .inr (.inr (by simp only [laneFld, PAIR_STAT.STATE]; omega))
  · exact apart_raiseFlds (by decide) 314 f hf

/-- The last lane goes down. -/
theorem laneTimeout_last (hen : s.enabled 0x10 = true) (hsilent : s.laneSilent lane.val = true) (hup : s.getB (laneFld lane.val) = true)
    (hother : s.getB (laneFld (1 - lane.val)) = false) (hb : s.pair.bodies = []) (hs : s.pair.sends = []) : ∃ t, exec (.laneTimeout lane) s = .next t ∧
      t.getB (laneFld lane.val) = false ∧ s.raised 314 t ∧ t.get PAIR_STAT.STATE = 0 ∧ (s.get PAIR_STAT.STATE ≠ 0 → s.raised 313 t) ∧ t.pair.good = 0 ∧
      (s.get PAIR_STAT.STATE = 2 → t.pair.lost = true) ∧
      s.only [.pair, .rcd, .cyc] ([laneFld lane.val, PAIR_STAT.STATE] ++ raiseFlds 313 ++ raiseFlds 314) t := by
  obtain ⟨hrun, hdown, hraised⟩ := setLane_shows lane.isLt false s
  have hkeep : (s.setLane lane.val false).getB (laneFld (1 - lane.val)) = false := (setLane_other lane.isLt other_lane_ne false s).trans hother
  have hexec := laneTimeout_eq hen hsilent
  generalize s.setLane lane.val false = u at hrun hdown hraised hkeep hexec
  have hnone : u.get PAIR_STAT.LANE_UP = 0 := by
    rw [laneUp_eq_zero]
    rcases (by omega : lane.val = 0 ∨ lane.val = 1) with h | h <;> simp_all
  have hpair : u.pair = s.pair := pair_of_only hrun.only (by simp)
  have hoff := pairDown_shows hnone (by rw [hpair, hb]) (by rw [hpair, hs])
  obtain ⟨hall, htold, hlost⟩ := lastLane_shows hrun (apart_lane lane.isLt) hoff
  have hbit : u.pairDown.getB (laneFld lane.val) = u.getB (laneFld lane.val) := by
    refine getB_of_only hoff.ran.only fun f hf => ?_
    rcases List.mem_cons.1 hf with rfl | hf
    · exact .inr (.inl (by simp only [laneFld, PAIR_STAT.STATE]; omega))
    · exact apart_raiseFlds (by simp only [laneFld]; decide) 313 f hf
  exact ⟨u.pairDown, hexec, hbit.trans hdown, hoff.ran.evt.raised_first hrun.evt (by decide) (hraised (by simp [hup])), hoff.state, htold, hoff.good, hlost,
    only_mono hall.only (by simp) (by simp +contextual [or_imp])⟩

end Silent

/-! ### Disabling (R473) -/

section Disable
variable {s t u : State} {x : Taken} {y : PairSend}

/-- Both lanes down. -/
def State.bothDown (s : State) : State := (s.setLane 0 false).setLane 1 false

theorem bothDown_shows (s : State) : Ran [.rcd, .cyc] (PAIR_STAT.LANE_UP :: raiseFlds 314) s s.bothDown ∧ s.bothDown.get PAIR_STAT.LANE_UP = 0 ∧
    (s.get PAIR_STAT.LANE_UP ≠ 0 → s.raised 314 s.bothDown) := by
  unfold State.bothDown
  obtain ⟨hrun0, hdown0, hraised0⟩ := setLane_shows (l := 0) (by decide) false s
  have hother0 := setLane_other (l := 0) (k := 1) (by decide) (by decide) false s
  generalize s.setLane 0 false = v at hrun0 hdown0 hraised0 hother0
  obtain ⟨hrun1, hdown1, hraised1⟩ := setLane_shows (l := 1) (by decide) false v
  have hother1 := setLane_other (l := 1) (k := 0) (by decide) (by decide) false v
  generalize v.setLane 1 false = w at hrun1 hdown1 hraised1 hother1
  have hlane (l : Nat) (hl : l < 2) : inFlds (laneFld l :: raiseFlds 314) (PAIR_STAT.LANE_UP :: raiseFlds 314) :=
    inFlds_append (inFlds_lane hl (by simp)) (inFlds_of_mem fun _ => List.mem_cons_of_mem _)
  refine ⟨((hrun0.seq hrun1).mono (by simp) fun _ h => h).within (inFlds_append (hlane 0 (by decide)) (hlane 1 (by decide))),
    (laneUp_eq_zero w).2 ⟨hother1.trans hdown0, hdown1⟩, fun hup => ?_⟩
  by_cases h0 : s.getB (laneFld 0) = false
  · have h1 : s.getB (laneFld 1) ≠ false := fun h1 => hup ((laneUp_eq_zero s).2 ⟨h0, h1⟩)
    exact hrun0.evt.raised_second hrun1.evt (by decide) (hraised1 (by rwa [hother0]))
  · exact hrun1.evt.raised_first hrun0.evt (by decide) (hraised0 h0)

/-- ENABLE cleared and both lanes down. -/
def State.lanesOff (s : State) : State := (s.setB PAIR_CTRL.ENABLE false).bothDown

/-- What PAIR writes as its lanes go down. -/
def offFlds : List Fld := [PAIR_CTRL.ENABLE, PAIR_STAT.LANE_UP] ++ raiseFlds 314

theorem lanesOff_shows (s : State) : Ran [.rcd, .cyc] offFlds s s.lanesOff ∧ s.lanesOff.getB PAIR_CTRL.ENABLE = false ∧
    s.lanesOff.get PAIR_STAT.LANE_UP = 0 ∧ (s.get PAIR_STAT.LANE_UP ≠ 0 → s.raised 314 s.lanesOff) := by
  have hen := ran_set s (f := PAIR_CTRL.ENABLE) (b2n false) (by decide) (by decide)
  have hclear : (s.setB PAIR_CTRL.ENABLE false).getB PAIR_CTRL.ENABLE = false := getB_setB_self _ _ _ (by decide) rfl
  change Ran [] [PAIR_CTRL.ENABLE] s (s.setB PAIR_CTRL.ENABLE false) at hen
  unfold State.lanesOff
  generalize s.setB PAIR_CTRL.ENABLE false = u at hen hclear
  obtain ⟨hrun, hdown, hraised⟩ := bothDown_shows u
  have hup : u.get PAIR_STAT.LANE_UP = s.get PAIR_STAT.LANE_UP := hen.only.2.1 _ (apart_all rfl)
  exact ⟨(hen.seq hrun).mono (by simp) (by simp +contextual [offFlds]), (getB_of_only hrun.only (apart_all rfl)).trans hclear, hdown,
    fun h => hen.evt.raised_second hrun.evt (by decide) (hraised (by rwa [hup]))⟩

/-- PAIR off, with what it carries still there. -/
def State.pairOff (s : State) : State := (s.lanesOff.withPair s.lanesOff.quieted).told 0

theorem pairDisable_eq (hon : s.getB PAIR_CTRL.ENABLE = true) : exec .pairDisable s = .next s.pairOff.pairLeave :=
  congrArg Host.Outcome.next ((if_pos hon).trans (pairDown_pairLeave (lanesOff_shows s).2.2.1))

/-- What stands with PAIR off. -/
structure PairOff (s t : State) : Prop where
  ran : Ran [.pair, .rcd, .cyc] ([PAIR_CTRL.ENABLE, PAIR_STAT.LANE_UP, PAIR_STAT.STATE] ++ raiseFlds 313 ++ raiseFlds 314) s t
  enable : t.getB PAIR_CTRL.ENABLE = false
  lanes : t.get PAIR_STAT.LANE_UP = 0
  state : t.get PAIR_STAT.STATE = 0
  told : s.get PAIR_STAT.STATE ≠ 0 → s.raised 313 t
  fell : s.get PAIR_STAT.LANE_UP ≠ 0 → s.raised 314 t

theorem pairOff_shows (s : State) : PairOff s s.pairOff ∧ s.pairOff.pair.bodies = s.pair.bodies ∧ s.pairOff.pair.sends = s.pair.sends := by
  obtain ⟨hrun, henable, hlanes, hraised⟩ := lanesOff_shows s
  have hpair : s.lanesOff.pair = s.pair := pair_of_only hrun.only (by simp)
  have hstat : ∀ f ∈ offFlds, PAIR_STAT.STATE.apart f := by
    simp only [offFlds, List.mem_append, List.mem_cons, List.not_mem_nil, or_false]
    rintro f ((rfl | rfl) | hf)
    · exact .inl (by decide)
    · exact .inr (.inr (by decide))
    · exact apart_raiseFlds (by decide) 314 f hf
  have hstate : s.lanesOff.get PAIR_STAT.STATE = s.get PAIR_STAT.STATE := hrun.only.2.1 _ hstat
  obtain ⟨htold, hdown, h313, hquiet⟩ := quietTold_shows s.lanesOff
  change Ran _ _ _ s.pairOff at htold
  change s.pairOff.get _ = 0 at hdown
  change _ → s.lanesOff.raised 313 s.pairOff at h313
  change s.pairOff.pair = _ at hquiet
  have hbits : ∀ g : Fld, windowOf g.addr ≠ 0xC1 → g.apart PAIR_STAT.STATE → ∀ f ∈ PAIR_STAT.STATE :: raiseFlds 313, g.apart f := fun g hg hs f hf => by
    rcases List.mem_cons.1 hf with rfl | hf
    · exact hs
    · exact apart_raiseFlds hg 313 f hf
  generalize s.pairOff = t at htold hdown h313 hquiet
  refine ⟨⟨(hrun.seq htold).mono (by simp) (by simp +contextual [offFlds, or_imp]), ?_, ?_, hdown, ?_, ?_⟩, ?_, ?_⟩
  · rw [getB_of_only htold.only (hbits _ (by decide) (.inl (by decide))), henable]
  · rw [htold.only.2.1 _ (hbits _ (by decide) (.inr (.inl (by decide)))), hlanes]
  · exact fun h => hrun.evt.raised_second htold.evt (by decide) (h313 (by rwa [hstate]))
  · exact fun h => htold.evt.raised_first hrun.evt (by decide) (hraised h)
  · rw [hquiet, ← hpair]
    rfl
  · rw [hquiet, ← hpair]
    rfl

theorem pairDisabled_idle (hon : s.getB PAIR_CTRL.ENABLE = true) (hs : s.pair.sends = []) (hb : s.pair.bodies = []) :
    ∃ t, exec .pairDisable s = .next t ∧ t.getB PAIR_CTRL.ENABLE = false ∧ t.get PAIR_STAT.LANE_UP = 0 ∧ t.get PAIR_STAT.STATE = 0 ∧
      (s.get PAIR_STAT.STATE ≠ 0 → s.raised 313 t) ∧ (s.get PAIR_STAT.LANE_UP ≠ 0 → s.raised 314 t) ∧
      s.only [.pair, .rcd, .cyc] ([PAIR_CTRL.ENABLE, PAIR_STAT.LANE_UP, PAIR_STAT.STATE] ++ raiseFlds 313 ++ raiseFlds 314) t := by
  obtain ⟨hoff, hbodies, hsends⟩ := pairOff_shows s
  have hexec := pairDisable_eq hon
  rw [pairLeave_idle (hbodies.trans hb) (hsends.trans hs)] at hexec
  generalize s.pairOff = u at hoff hexec
  have hend := ran_withPair u.pair.ended u
  exact ⟨_, hexec, hoff.enable, hoff.lanes, hoff.state, fun h => hend.evt.raised_first hoff.ran.evt (by decide) (hoff.told h),
    fun h => hend.evt.raised_first hoff.ran.evt (by decide) (hoff.fell h), only_mono (only_seq hoff.ran.only hend.only) (by simp) (by simp)⟩

theorem pairDisabled_body {k : Nat} {r : Rasm} (hon : s.getB PAIR_CTRL.ENABLE = true) (hs : s.pair.sends = []) (hb : s.pair.bodies = [(k, r)]) :
    ∃ t, exec .pairDisable s = .next t ∧ t.getB PAIR_CTRL.ENABLE = false ∧ t.get PAIR_STAT.STATE = 0 ∧ t.pair.bodies = [] ∧
      t.get PAIR_CNT.CV_DROP = min 65535 (s.get PAIR_CNT.CV_DROP + 1) ∧ s.raised 317 t ∧
      s.only [.pair, .rcd, .cyc] ([PAIR_CTRL.ENABLE, PAIR_STAT.LANE_UP, PAIR_STAT.STATE, PAIR_CNT.CV_DROP] ++ raiseFlds 313 ++ raiseFlds 314 ++ raiseFlds 317) t := by
  obtain ⟨hoff, hbodies, hsends⟩ := pairOff_shows s
  have hexec := pairDisable_eq hon
  rw [pairLeave_body (hbodies.trans hb) (hsends.trans hs)] at hexec
  generalize s.pairOff = u at hoff hexec
  have hcount : u.get PAIR_CNT.CV_DROP = s.get PAIR_CNT.CV_DROP := hoff.ran.only.2.1 _ fun f hf => by
    simp only [List.mem_append, List.mem_cons, List.not_mem_nil, or_false] at hf
    rcases hf with ((rfl | rfl | rfl) | hf) | hf
    · exact .inl (by decide)
    · exact .inl (by decide)
    · exact .inl (by decide)
    · exact apart_raiseFlds (by decide) 313 f hf
    · exact apart_raiseFlds (by decide) 314 f hf
  obtain ⟨hdrop, hcv, h317⟩ := cvDrop_shows u
  have hkept (g : Fld) (hg : g.addr ≠ PAIR_CNT) (hw : windowOf g.addr ≠ 0xC1) : u.cvDrop.get g = u.get g := hdrop.only.2.1 g fun f hf => by
    rcases List.mem_cons.1 hf with rfl | hf
    · exact .inl hg
    · exact apart_raiseFlds hw 317 f hf
  have hend := ran_withPair u.pair.ended u.cvDrop
  exact ⟨_, hexec, (getB_of_get (hkept _ (by decide) (by decide))).trans hoff.enable, (hkept PAIR_STAT.STATE (by decide) (by decide)).trans hoff.state, rfl,
    hcv.trans (by rw [hcount]), hend.evt.raised_first (hoff.ran.evt.trans hdrop.evt) (by decide) (hoff.ran.evt.raised_second hdrop.evt (by decide) h317),
    only_mono (only_seq (only_seq hoff.ran.only hdrop.only) hend.only) (by simp) (by simp +contextual [or_imp])⟩

theorem pairDisabled_send (hon : s.getB PAIR_CTRL.ENABLE = true) (hs : s.pair.sends = [y]) (hb : s.pair.bodies = []) (hid : y.id = x.id)
    (htaken : (s.ring 0x10 0).taken = [x]) : ∃ t, exec .pairDisable s = .next t ∧
      t.getB PAIR_CTRL.ENABLE = false ∧ t.get PAIR_STAT.STATE = 0 ∧ t.pair.sends = [] ∧ s.ended 0x10 0 x 0x0D x.handle t ∧ s.dramKept (s.complAddr 0x10 0) 16 t ∧
      s.only [.dram, .rings, .pair, .rcd, .cyc] (complFlds 0x10 0 ++ [PAIR_CTRL.ENABLE, PAIR_STAT.LANE_UP, PAIR_STAT.STATE] ++ raiseFlds 313 ++ raiseFlds 314) t := by
  obtain ⟨hoff, hbodies, hsends⟩ := pairOff_shows s
  have hexec := pairDisable_eq hon
  rw [pairLeave_send (hbodies.trans hb) (hsends.trans hs), hid] at hexec
  generalize s.pairOff = u at hoff hexec
  obtain ⟨hended, hkept, honly⟩ := selfEnds_then (b := 0x10) (r := 0) (code := 0x0D) (by decide) (by decide) htaken hoff.ran.only (by simp) (by simp) (by simp)
    (offRing_all rfl) (only_withPair u.pair.ended _) (by simp) (by simp) (by simp [offRing])
  have hdone := only_completeSelf (s := u) (b := 0x10) (r := 0) (code := 0x0D) x.id (by decide)
  have hout (g : Fld) (hg : g.addr = PAIR_CTRL ∨ g.addr = PAIR_STAT) : (u.completeSelf 0x10 0 x.id 0x0D).get g = u.get g := by
    rcases hg with hg | hg
    · exact hdone.2.1 g (apart_complFlds_of_addr (by rw [hg]; decide) (by rw [hg]; decide) (by rw [hg]; decide))
    · exact hdone.2.1 g (apart_complFlds_of_addr (by rw [hg]; decide) (by rw [hg]; decide) (by rw [hg]; decide))
  exact ⟨_, hexec, (getB_of_get (hout PAIR_CTRL.ENABLE (.inl rfl))).trans hoff.enable, (hout PAIR_STAT.STATE (.inr rfl)).trans hoff.state, rfl, hended, hkept,
    only_mono honly (by simp) (by simp +contextual)⟩

end Disable

end Sys2Proof.Machine
end

section
/-! PROOFS. PAIR's HEADs: what the first copy of one sets, and the join checks (R462, R464): the statement of chapter 22 on them. -/

namespace Sys2Proof.Machine

section Heads
variable {s t u w : State} {l stamp : Nat} {cell : List Byte} {lane : Fin 2}

/-- The HEAD that a cell brings. -/
def State.headOf (s : State) (c : List Byte) : PairHead :=
  { cyc := cellN c 2 2, rel := s.ltcOfMt (cellN c 36 8) + s.get PAIR_CFG.RLS_DLY * 1000, seen := 0 }

/-- PAIR's facts with a lane heard. -/
def State.heardOn (l : Nat) (s : State) : PairState := { s.pair with heard := tput s.pair.heard l s.now }

/-- PAIR's facts with a HEAD taken. -/
def PairState.taking (p : PairState) (h : PairHead) (stamp : Nat) (trust : Bool) : PairState :=
  { p with heads := (p.heads ++ [h]).drop ((p.heads ++ [h]).length - 4), last := some (h.cyc, stamp), trust := trust }

/-- The lane is UP, heard now. -/
def State.laneHeard (l : Nat) (s : State) : State := (s.withPair (s.heardOn l)).setLane l true

/-- A HEAD noted, before its time and its checks. -/
def State.headNoted (c : List Byte) (stamp : Nat) (s : State) : State :=
  (s.withPair (s.pair.taking (s.headOf c) stamp (bitAt (cellN c 1 1) 2))).set PAIR_STAT.CYC (cellN c 2 2)

theorem headRx_eq (c : List Byte) (stamp : Nat) (s : State) : s.headRx c stamp = ((s.headNoted c stamp).pairTime c stamp).pairJoin c := rfl

/-- The work of the first copy of a HEAD, up to its time. -/
def State.headSeen (l : Nat) (c : List Byte) (stamp : Nat) (s : State) : State := (s.laneHeard l).headNoted c stamp

theorem headRx_first (hlane : s.pairLane lane.val = true) (htrue : s.lanesTrue = true) (hok : cellOk cell = true) (hty : natLE (cell.take 1) = 1)
    (hnew : (s.pair.heads.any fun h => decide (h.cyc = cellN cell 2 2)) = false) :
    exec (.headRx lane cell stamp) s = .next (((s.headSeen lane.val cell stamp).pairTime cell stamp).pairJoin cell) := by
  have hpair : (s.laneHeard lane.val).pair = s.heardOn lane.val := pair_of_only (setLane_shows lane.isLt true _).1.only (by simp)
  refine congrArg Host.Outcome.next ((cellIn_taken hlane htrue hok hty).trans ((if_neg ?_).trans (headRx_eq ..)))
  change ¬ ((s.laneHeard lane.val).pair.heads.any _) = true
  rw [hpair]
  simpa [State.heardOn] using hnew

/-- A relation read through work outside TMS. -/
theorem ltcOfMt_of_only {ps : List Comp} {fs : List Fld} (h : s.only ps fs u) (hw : ∀ f ∈ fs, windowOf f.addr ≠ 0xC3) (m : Nat) :
    u.ltcOfMt m = s.ltcOfMt m := by
  have hreg {a : Nat} (ha : windowOf a = 0xC3) : u.reg a = s.reg a := reg_of_only h ha hw
  have href : u.relRef = s.relRef := get64_congr _ _ (hreg (by decide)) (hreg (by decide))
  have hoff : u.relOff = s.relOff := congrArg (toSigned 64) (get64_congr _ _ (hreg (by decide)) (hreg (by decide)))
  have hrate : u.relRate = s.relRate := by rw [State.relRate, State.relRate, hreg (by decide)]
  rw [State.ltcOfMt, State.ltcOfMt, href, hoff, hrate]

/-- What a HEAD writes up to its time. -/
def headFlds (l : Nat) : List Fld := [laneFld l, PAIR_STAT.CYC] ++ raiseFlds 314

theorem apart_headFlds {g : Fld} (hlane : g.apart (laneFld l)) (hcyc : g.apart PAIR_STAT.CYC) (hw : windowOf g.addr ≠ 0xC1) : ∀ f ∈ headFlds l, g.apart f := by
  simp only [headFlds, List.mem_append, List.mem_cons, List.not_mem_nil, or_false]
  rintro f ((rfl | rfl) | hf)
  · exact hlane
  · exact hcyc
  · exact apart_raiseFlds hw 314 f hf

theorem apart_headFlds_of_addr {g : Fld} (hg : g.addr ≠ PAIR_STAT) (hw : windowOf g.addr ≠ 0xC1) : ∀ f ∈ headFlds l, g.apart f :=
  apart_headFlds (.inl hg) (.inl hg) hw

theorem windows_headFlds {v : Nat} (hp : v ≠ 0xD0) (hc : v ≠ 0xC1) : ∀ f ∈ headFlds l, windowOf f.addr ≠ v := by
  simp only [headFlds, List.mem_append, List.mem_cons, List.not_mem_nil, or_false]
  rintro f ((rfl | rfl) | hf)
  · exact fun h => hp (h.symm.trans (by simp only [laneFld]; decide))
  · exact fun h => hp (h.symm.trans (by decide))
  · exact fun h => hc (h.symm.trans (window_raiseFlds f hf))

/-- What the first copy of a HEAD leaves before its time and its checks. -/
theorem headSeen_shows (hl : l < 2) (c : List Byte) (stamp : Nat) (s : State) : let t := s.headSeen l c stamp
    Ran [.pair, .rcd, .cyc] (headFlds l) s t ∧ t.getB (laneFld l) = true ∧ (s.getB (laneFld l) = false → s.raised 314 t) ∧
      t.get PAIR_STAT.CYC = cellN c 2 2 % 65536 ∧ t.pair = (s.heardOn l).taking (s.headOf c) stamp (bitAt (cellN c 1 1) 2) := by
  have hheard := ran_withPair (s.heardOn l) s
  obtain ⟨hlane, hup, hraised⟩ := setLane_shows hl true (s.withPair (s.heardOn l))
  have hpair : (s.laneHeard l).pair = s.heardOn l := pair_of_only hlane.only (by simp)
  change Ran _ _ _ (s.laneHeard l) at hlane
  change (s.laneHeard l).getB _ = _ at hup
  change _ → State.raised _ _ (s.laneHeard l) at hraised
  have hrun := hheard.seq hlane
  unfold State.headSeen
  generalize s.laneHeard l = u at hlane hup hraised hpair hrun
  have hof : u.headOf c = s.headOf c := by
    have hdly : u.get PAIR_CFG.RLS_DLY = s.get PAIR_CFG.RLS_DLY := hrun.only.2.1 _ fun f hf => by
      rcases List.mem_cons.1 hf with rfl | hf
      · exact .inl (by simp only [laneFld]; decide)
      · exact apart_raiseFlds (by decide) 314 f hf
    have hmt := ltcOfMt_of_only (m := cellN c 36 8) hrun.only fun f hf => by
      rcases List.mem_cons.1 hf with rfl | hf
      · simp only [laneFld]; decide
      · rw [window_raiseFlds f hf]; decide
    rw [State.headOf, State.headOf, hdly, hmt]
  have hnote := (ran_withPair (u.pair.taking (u.headOf c) stamp (bitAt (cellN c 1 1) 2)) u).seq
    (ran_set (u.withPair (u.pair.taking (u.headOf c) stamp (bitAt (cellN c 1 1) 2))) (f := PAIR_STAT.CYC) (cellN c 2 2) (by decide) (by decide))
  change Ran _ _ u (u.headNoted c stamp) at hnote
  refine ⟨(hrun.seq hnote).mono (by simp) (by simp +contextual [headFlds, or_imp]), ?_, fun hoff => ?_, get_set_self _ _ _ (by decide), ?_⟩
  · rw [getB_of_only hnote.only, hup]
    intro f hf
    rw [List.nil_append, List.mem_singleton] at hf
    rw [hf]
    exact .inr (.inr (by simp only [laneFld, PAIR_STAT.CYC]; omega))
  · exact hnote.evt.raised_first hrun.evt (by decide) (hheard.evt.raised_second hlane.evt (by decide) (hraised (by
      change s.getB (laneFld l) ≠ true
      simp [hoff])))
  · rw [State.headNoted, set_pair, pair_withPair, hof, hpair]

end Heads

/-! ### The join checks -/

section Join
variable {s t u w : State} {c : List Byte} {g : Nat}

theorem joinWhy_lt (s : State) (c : List Byte) : s.joinWhy c < 4 := by
  unfold State.joinWhy
  dsimp only
  split
  · decide
  · split
    · decide
    · split <;> decide

/-- The checks read nothing that PAIR writes beside its configuration. -/
theorem joinWhy_of_only {ps : List Comp} {fs : List Fld} (h : s.only ps fs u) (hp : .nv ∉ ps ∧ .ufs ∉ ps) (hrole : ∀ f ∈ fs, PAIR_CFG.ROLE.apart f)
    (hw : ∀ f ∈ fs, windowOf f.addr ≠ 0xC2) (hw' : ∀ f ∈ fs, windowOf f.addr ≠ 0xD3) (c : List Byte) : u.joinWhy c = s.joinWhy c := by
  have hnv : u.nv = s.nv := h.1 .nv hp.1
  have hufs : u.ufs = s.ufs := h.1 .ufs hp.2
  have hget : u.get PAIR_CFG.ROLE = s.get PAIR_CFG.ROLE := h.2.1 _ hrole
  have hident : (List.range 4).foldr (fun i v => (u.reg (STR_IDENT i)).toNat + 2 ^ 32 * v) 0 =
      (List.range 4).foldr (fun i v => (s.reg (STR_IDENT i)).toNat + 2 ^ 32 * v) 0 := by
    have hreg (i : Nat) (hi : i < 4) : u.reg (STR_IDENT i) = s.reg (STR_IDENT i) := reg_of_only h (by
      rcases (by omega : i = 0 ∨ i = 1 ∨ i = 2 ∨ i = 3) with rfl | rfl | rfl | rfl <;> decide) hw
    simp only [List.range, List.range.loop, List.foldr, hreg 0 (by decide), hreg 1 (by decide), hreg 2 (by decide), hreg 3 (by decide)]
  have hbase (a : Nat) : u.slotBase a = s.slotBase a := congrArg (· * 4096) (get64_congr _ _
    (reg_of_only h (w := 0xD3) (by simp only [UPD_SLOT_LBA_LO, windowOf]; omega) hw') (reg_of_only h (w := 0xD3) (by simp only [UPD_SLOT_LBA_HI, windowOf]; omega) hw'))
  have hman (a o n : Nat) : u.manN a o n = s.manN a o n := by rw [State.manN, State.manN, hbase, hufs]
  unfold State.joinWhy
  dsimp only
  rw [hident, hget, hnv, hman, hman]

/-- The result of the checks, with `g` HEADs in a row. -/
def State.judged (c : List Byte) (g : Nat) (s : State) : State := (s.set PAIR_STAT.WHY (s.joinWhy c)).withPair { s.pair with good := g }

theorem pairJoin_fails (h : s.joinWhy c ≠ 0) : s.pairJoin c = (s.judged c 0).setPairState 1 := by
  rw [State.pairJoin, if_pos h, State.judged]
  simp only [set_pair]
  rfl

theorem pairJoin_passes (h : s.joinWhy c = 0) :
    s.pairJoin c = (s.judged c (min 16 (s.pair.good + 1))).setPairState (if 15 ≤ s.pair.good then 2 else 1) := by
  have hmany : (if 16 ≤ min 16 (s.pair.good + 1) then 2 else 1) = if 15 ≤ s.pair.good then 2 else 1 := by
    split <;> split <;> omega
  rw [State.pairJoin, if_neg (by simpa using h), ← hmany, State.judged]
  simp only [set_pair, satTo_eq_min]
  rfl

theorem judged_shows (c : List Byte) (g : Nat) (s : State) : Ran [.pair] [PAIR_STAT.WHY] s (s.judged c g) ∧
    (s.judged c g).get PAIR_STAT.WHY = s.joinWhy c ∧ (s.judged c g).pair = { s.pair with good := g } := by
  have hset := ran_set s (f := PAIR_STAT.WHY) (s.joinWhy c) (by decide) (by decide)
  refine ⟨(hset.seq (ran_withPair _ _)).mono (by simp) (by simp), ?_, rfl⟩
  rw [State.judged, get_withPair, get_set_self s PAIR_STAT.WHY (s.joinWhy c) (by decide)]
  exact Nat.mod_eq_of_lt (joinWhy_lt s c)

/-- What a change of STATE leaves where the modules were not joined. -/
theorem setPairState_shows {v : Nat} (hv : v < 4) (h : s.get PAIR_STAT.STATE ≠ 2) :
    Ran [.pair, .rcd, .cyc] (PAIR_STAT.STATE :: raiseFlds 313) s (s.setPairState v) ∧ (s.setPairState v).get PAIR_STAT.STATE = v ∧
      (s.get PAIR_STAT.STATE ≠ v → s.raised 313 (s.setPairState v)) ∧
      (s.setPairState v).pair = { s.pair with lost := (s.setPairState v).pair.lost } := by
  obtain ⟨hrun, hstate, hraised⟩ := told_shows hv s
  have hpair : (s.told v).pair = s.pair := pair_of_only hrun.only (by simp)
  by_cases hjoin : v = 2
  · subst hjoin
    rw [setPairState_join h, hpair]
    generalize s.told 2 = u at hrun hstate hraised
    have hend := ran_withPair { s.pair with lost := false } u
    exact ⟨(hrun.seq hend).mono (by simp) (by simp), by rw [get_withPair, hstate], fun h => hend.evt.raised_first hrun.evt (by decide) (hraised h), rfl⟩
  · rw [setPairState_apart h hjoin]
    exact ⟨hrun.mono (by simp) (by simp), hstate, hraised, by rw [hpair]⟩

/-- What a result of the checks and the change of STATE after it leave. -/
theorem judgedTo_shows (c : List Byte) (g : Nat) {v : Nat} (hv : v < 4) (h : s.get PAIR_STAT.STATE ≠ 2) (ht : (s.judged c g).setPairState v = t) :
    Ran [.pair, .rcd, .cyc] ([PAIR_STAT.WHY, PAIR_STAT.STATE] ++ raiseFlds 313) s t ∧ t.get PAIR_STAT.WHY = s.joinWhy c ∧
      t.get PAIR_STAT.STATE = v ∧ (t.get PAIR_STAT.STATE ≠ s.get PAIR_STAT.STATE → s.raised 313 t) ∧
      t.pair = { s.pair with good := g, lost := t.pair.lost } := by
  obtain ⟨hjudge, hwhy, hgood⟩ := judged_shows c g s
  generalize s.judged c g = u at hjudge hwhy hgood ht
  have hkeep : u.get PAIR_STAT.STATE = s.get PAIR_STAT.STATE := hjudge.only.2.1 _ fun f hf => List.mem_singleton.1 hf ▸ .inr (.inr (by decide))
  obtain ⟨hrun, hstate, hraised, hpair⟩ := setPairState_shows hv (by rwa [hkeep])
  rw [ht] at hrun hstate hraised hpair
  refine ⟨(hjudge.seq hrun).mono (by simp) (by simp), ?_, hstate, fun hne => ?_, by rw [hpair, hgood]⟩
  · rw [hrun.only.2.1 _ fun f hf => ?_, hwhy]
    rcases List.mem_cons.1 hf with rfl | hf
    · exact .inr (.inl (by decide))
    · exact apart_raiseFlds (by decide) 313 f hf
  · refine hjudge.evt.raised_second hrun.evt (by decide) (hraised fun he => hne ?_)
    rw [hstate, ← hkeep, he]

/-- How many HEADs in a row pass with this one. -/
def State.goodNext (c : List Byte) (s : State) : Nat := if s.joinWhy c = 0 then min 16 (s.pair.good + 1) else 0

theorem pairJoin_eq (c : List Byte) (s : State) :
    s.pairJoin c = (s.judged c (s.goodNext c)).setPairState (if s.joinWhy c = 0 ∧ 15 ≤ s.pair.good then 2 else 1) := by
  by_cases hwhy : s.joinWhy c = 0
  · rw [pairJoin_passes hwhy, State.goodNext, if_pos hwhy]
    simp only [hwhy, true_and]
  · rw [pairJoin_fails hwhy, State.goodNext, if_neg hwhy, if_neg fun h => hwhy h.1]

end Join

/-! ### HEADs on the LEAD, and HEADs that end JOINED -/

section Lead
variable {s t u w : State} {cell : List Byte} {lane : Fin 2} {stamp : Nat}

/-- A HEAD without a round trip brings the LEAD no time. -/
theorem pairTime_lead (hrole : s.get PAIR_CFG.ROLE = 0) (htrip : tget s.pair.sent (cellN cell 52 2) = none) : s.pairTime cell stamp = s := by
  have hnone : s.pairTrip cell stamp = none := by rw [State.pairTrip, htrip]; rfl
  simp [State.pairTime, hrole, hnone]

/-- A HEAD of the same role brings no time. -/
theorem pairTime_clash (hrole : s.get PAIR_CFG.ROLE = cellN cell 1 1 % 2) : s.pairTime cell stamp = s := if_pos hrole.symm

/-- The identity of the structure, as R464 compares it. -/
theorem joinWhy_lead {ident : Nat} (hrole : s.get PAIR_CFG.ROLE = 0)
    (hident : ident = (s.reg (STR_IDENT 0)).toNat + 2 ^ 32 * (s.reg (STR_IDENT 1)).toNat + 2 ^ 64 * (s.reg (STR_IDENT 2)).toNat +
      2 ^ 96 * (s.reg (STR_IDENT 3)).toNat) :
    s.joinWhy cell = (if cellN cell 1 1 % 2 = 0 then 1 else if cellN cell 4 16 ≠ ident then 2 else
      if cellN cell 20 8 = s.manN s.nv.active 8 8 ∨ s.manN s.nv.active 16 8 ≠ 0 ∧ cellN cell 28 8 = s.manN s.nv.active 16 8 then 0 else 3) := by
  have hfold : (List.range 4).foldr (fun i v => (s.reg (STR_IDENT i)).toNat + 2 ^ 32 * v) 0 = ident := by
    rw [hident]
    simp only [List.range, List.range.loop, List.foldr]
    omega
  unfold State.joinWhy
  dsimp only
  rw [hfold, hrole]
  simp only [Bool.or_eq_true, Bool.and_eq_true, decide_eq_true_eq]

theorem joinWhy_clash (hrole : s.get PAIR_CFG.ROLE = cellN cell 1 1 % 2) : s.joinWhy cell = 1 := if_pos hrole.symm

theorem headKeeps_config {ps : List Comp} (h : s.only ps (headFlds lane.val) u) : u.get PAIR_CFG.ROLE = s.get PAIR_CFG.ROLE :=
  h.2.1 _ (apart_headFlds_of_addr (by decide) (by decide))

theorem headKeeps_why (h : s.only [.pair, .rcd, .cyc] (headFlds lane.val) u) (c : List Byte) : u.joinWhy c = s.joinWhy c :=
  joinWhy_of_only h (by simp) (apart_headFlds_of_addr (by decide) (by decide)) (windows_headFlds (by decide) (by decide))
    (windows_headFlds (by decide) (by decide)) c

theorem headKeeps_state {ps : List Comp} (h : s.only ps (headFlds lane.val) u) : u.get PAIR_STAT.STATE = s.get PAIR_STAT.STATE :=
  h.2.1 _ (apart_headFlds (.inr (.inr (by simp only [laneFld, PAIR_STAT.STATE]; omega))) (.inr (.inr (by decide))) (by decide))

theorem cellN_lt (c : List Byte) (o : Nat) : cellN c o 2 < 65536 := by
  have h := natLE_lt ((c.drop o).take 2)
  have hlen : ((c.drop o).take 2).length ≤ 2 := List.length_take_le ..
  calc cellN c o 2 < 256 ^ ((c.drop o).take 2).length := h
    _ ≤ 256 ^ 2 := Nat.pow_le_pow_right (by decide) hlen
    _ = 65536 := by decide

theorem getLast_taking (p : PairState) (h : PairHead) (stamp : Nat) (trust : Bool) : (p.taking h stamp trust).heads.getLast? = some h := by
  have hlen : (p.heads ++ [h]).length - 4 < (p.heads ++ [h]).length := by simp
  rw [PairState.taking, List.getLast?_drop, if_neg (by omega), List.getLast?_append]
  rfl

end Lead

end Sys2Proof.Machine
end

section
/-! PROOFS. PAIR's join on the LEAD and a HEAD that ends JOINED (R464, R472): the statement of chapter 22 on them. -/

namespace Sys2Proof.Machine

section Lead
variable {s t u w : State} {cell : List Byte} {lane : Fin 2} {stamp cyc ident why : Nat}

/-- A HEAD judged on the LEAD, whose modules are not joined. -/
theorem headRx_joins (hlane : s.pairLane lane.val = true) (htrue : s.lanesTrue = true) (hok : cellOk cell = true) (hty : natLE (cell.take 1) = 1)
    (hcyc : cellN cell 2 2 = cyc) (hnew : (s.pair.heads.any fun h => decide (h.cyc = cyc)) = false) (hrole : s.get PAIR_CFG.ROLE = 0)
    (htrip : tget s.pair.sent (cellN cell 52 2) = none) (hstate : s.get PAIR_STAT.STATE ≠ 2) (hwhy : s.joinWhy cell = why) :
    ∃ t, exec (.headRx lane cell stamp) s = .next t ∧ t.get PAIR_STAT.WHY = why ∧ t.pair.good = (if why = 0 then min 16 (s.pair.good + 1) else 0) ∧
      t.get PAIR_STAT.STATE = (if why = 0 ∧ 15 ≤ s.pair.good then 2 else 1) ∧ (t.get PAIR_STAT.STATE ≠ s.get PAIR_STAT.STATE → s.raised 313 t) ∧
      t.getB (laneFld lane.val) = true ∧ (s.getB (laneFld lane.val) = false → s.raised 314 t) ∧ t.get PAIR_STAT.CYC = cyc ∧
      t.pair.last = some (cyc, stamp) ∧ t.pair.trust = bitAt (cellN cell 1 1) 2 ∧ tget t.pair.heard lane.val = some s.now ∧
      t.pair.heads.getLast? = some { cyc := cyc, rel := s.ltcOfMt (cellN cell 36 8) + s.get PAIR_CFG.RLS_DLY * 1000, seen := 0 } ∧
      s.only [.pair, .rcd, .cyc] ([laneFld lane.val, PAIR_STAT.CYC, PAIR_STAT.WHY, PAIR_STAT.STATE] ++ raiseFlds 313 ++ raiseFlds 314) t := by
  subst hcyc
  obtain ⟨hrun, hup, hfell, hcyc, hpair⟩ := headSeen_shows lane.isLt cell stamp s
  have hexec := headRx_first (stamp := stamp) hlane htrue hok hty hnew
  generalize s.headSeen lane.val cell stamp = w at hrun hup hfell hcyc hpair hexec
  have hsent : w.pair.sent = s.pair.sent := by rw [hpair]; rfl
  have hgood : w.pair.good = s.pair.good := by rw [hpair]; rfl
  rw [pairTime_lead ((headKeeps_config hrun.only).trans hrole) (by rw [hsent, htrip]), pairJoin_eq] at hexec
  have hwhyw : w.joinWhy cell = why := (headKeeps_why hrun.only cell).trans hwhy
  have hstatew := headKeeps_state hrun.only
  have hv : (if w.joinWhy cell = 0 ∧ 15 ≤ w.pair.good then 2 else 1) < 4 := by split <;> decide
  obtain ⟨hjoin, hwhyt, hstatet, hraised, hpairt⟩ := judgedTo_shows cell (w.goodNext cell) hv (by rwa [hstatew]) rfl
  generalize (w.judged cell (w.goodNext cell)).setPairState (if w.joinWhy cell = 0 ∧ 15 ≤ w.pair.good then 2 else 1) = t at hexec hjoin hwhyt hstatet hraised hpairt
  have hkeep (g : Fld) (hg : g.addr = PAIR_STAT) (hlo : g.lo + g.width ≤ 28) : t.get g = w.get g := hjoin.only.2.1 g fun f hf => by
    simp only [List.mem_append, List.mem_cons, List.not_mem_nil, or_false] at hf
    rcases hf with (rfl | rfl) | hf
    · exact .inr (.inl hlo)
    · exact .inr (.inl (by simp only [PAIR_STAT.STATE]; omega))
    · exact apart_raiseFlds (by rw [hg]; decide) 313 f hf
  refine ⟨t, hexec, by rw [hwhyt, hwhyw], ?_, by rw [hstatet, hwhyw, hgood], fun hne => ?_, ?_, fun hoff => ?_, ?_, ?_, ?_, ?_, ?_, ?_⟩
  · rw [hpairt, State.goodNext, hwhyw, hgood]
  · exact hrun.evt.raised_second hjoin.evt (by decide) (hraised (by rwa [hstatew]))
  · exact (getB_of_get (hkeep (laneFld lane.val) rfl (by simp only [laneFld]; omega))).trans hup
  · exact hjoin.evt.raised_first hrun.evt (by decide) (hfell hoff)
  · rw [hkeep PAIR_STAT.CYC rfl (by decide), hcyc, Nat.mod_eq_of_lt (cellN_lt cell 2)]
  · rw [hpairt, hpair]
    rfl
  · rw [hpairt, hpair]
    rfl
  · rw [hpairt, hpair]
    exact tget_tput_self _ _ _
  · rw [hpairt, hpair]
    exact getLast_taking (s.heardOn lane.val) (s.headOf cell) stamp (bitAt (cellN cell 1 1) 2)
  · exact only_mono (only_seq hrun.only hjoin.only) (by simp) (by simp +contextual [headFlds, or_imp])

/-- A HEAD of the own role ends JOINED, and the body being sent with it. -/
theorem headRx_leaves {x : Taken} {y : PairSend} (hlane : s.pairLane lane.val = true) (htrue : s.lanesTrue = true) (hok : cellOk cell = true)
    (hty : natLE (cell.take 1) = 1) (hnew : (s.pair.heads.any fun h => decide (h.cyc = cellN cell 2 2)) = false)
    (hrole : s.get PAIR_CFG.ROLE = cellN cell 1 1 % 2) (hstate : s.get PAIR_STAT.STATE = 2) (hb : s.pair.bodies = []) (hs : s.pair.sends = [y])
    (hid : y.id = x.id) (htaken : (s.ring 0x10 0).taken = [x]) : ∃ t, exec (.headRx lane cell stamp) s = .next t ∧
      t.get PAIR_STAT.WHY = 1 ∧ t.get PAIR_STAT.STATE = 1 ∧ s.raised 313 t ∧ s.ended 0x10 0 x 0x0D x.handle t ∧ s.dramKept (s.complAddr 0x10 0) 16 t ∧
      t.pair.sends = [] ∧ t.pair.good = 0 ∧
      s.only [.dram, .rings, .pair, .rcd, .cyc]
        (complFlds 0x10 0 ++ [laneFld lane.val, PAIR_STAT.CYC, PAIR_STAT.WHY, PAIR_STAT.STATE] ++ raiseFlds 313 ++ raiseFlds 314) t := by
  obtain ⟨hrun, -, -, -, hpair⟩ := headSeen_shows lane.isLt cell stamp s
  have hexec := headRx_first (stamp := stamp) hlane htrue hok hty hnew
  generalize s.headSeen lane.val cell stamp = w at hrun hpair hexec
  have hrolew := (headKeeps_config hrun.only).trans hrole
  have hwhyw := joinWhy_clash hrolew
  rw [pairTime_clash hrolew, pairJoin_fails (by rw [hwhyw]; decide)] at hexec
  obtain ⟨hjudge, hwhy, hgood⟩ := judged_shows cell 0 w
  generalize w.judged cell 0 = v at hjudge hwhy hgood hexec
  have hstatev : v.get PAIR_STAT.STATE = 2 :=
    (hjudge.only.2.1 _ fun f hf => List.mem_singleton.1 hf ▸ .inr (.inr (by decide))).trans ((headKeeps_state hrun.only).trans hstate)
  rw [setPairState_leave hstatev (by decide)] at hexec
  obtain ⟨htold, hstateu, hraised⟩ := told_shows (v := 1) (by decide) v
  have hpairu : (v.told 1).pair = { w.pair with good := 0 } := (pair_of_only htold.only (by simp)).trans hgood
  generalize v.told 1 = u at htold hstateu hraised hpairu hexec
  rw [pairLeave_send (by rw [hpairu, hpair]; exact hb) (by rw [hpairu, hpair]; exact hs), hid] at hexec
  have hall := (hrun.seq hjudge).seq htold
  have h313 : s.raised 313 u := (hrun.evt.trans hjudge.evt).raised_second htold.evt (by decide) (hraised (by rw [hstatev]; decide))
  have hwhyu : u.get PAIR_STAT.WHY = 1 := by
    rw [htold.only.2.1 _ fun f hf => ?_, hwhy, hwhyw]
    rcases List.mem_cons.1 hf with rfl | hf
    · exact .inr (.inl (by decide))
    · exact apart_raiseFlds (by decide) 313 f hf
  have hoffr : offRing 0x10 0 (headFlds lane.val ++ [PAIR_STAT.WHY] ++ PAIR_STAT.STATE :: raiseFlds 313) := by
    intro f hf
    simp only [headFlds, List.mem_append, List.mem_cons, List.not_mem_nil, or_false] at hf
    rcases hf with (((rfl | rfl) | hf) | rfl) | (rfl | hf)
    · exact .inl (by simp only [laneFld]; decide)
    · exact .inl (by decide)
    · exact offRing_all (b := 0x10) (r := 0) (fs := raiseFlds 314) rfl f hf
    · exact .inl (by decide)
    · exact .inl (by decide)
    · exact offRing_all (b := 0x10) (r := 0) (fs := raiseFlds 313) rfl f hf
  obtain ⟨hended, hkept, honly⟩ := selfEnds_then (b := 0x10) (r := 0) (code := 0x0D) (by decide) (by decide) htaken hall.only (by simp) (by simp) (by simp)
    hoffr (only_withPair u.pair.ended _) (by simp) (by simp) (by simp [offRing])
  have hdone := only_completeSelf (s := u) (b := 0x10) (r := 0) (code := 0x0D) x.id (by decide)
  have hout (g : Fld) (hg : g.addr = PAIR_STAT) : (u.completeSelf 0x10 0 x.id 0x0D).get g = u.get g :=
    hdone.2.1 g (apart_complFlds_of_addr (by rw [hg]; decide) (by rw [hg]; decide) (by rw [hg]; decide))
  have hsource : offSource 313 (complFlds 0x10 0) :=
    offSource_cons (by decide) (offSource_cons (by simp only [FEN_JOB_PEND, windowOf]; decide) (offSource_raiseFlds (by decide)))
  exact ⟨_, hexec, by rw [get_withPair, hout PAIR_STAT.WHY rfl, hwhyu], by rw [get_withPair, hout PAIR_STAT.STATE rfl, hstateu],
    raised_ahead (raised_ahead h313 hdone hsource) (only_withPair _ _) offSource_nil, hended, hkept, rfl, by rw [pair_withPair, hpairu]; rfl,
    only_mono honly (by simp) (by simp +contextual [headFlds, or_imp])⟩

end Lead

end Sys2Proof.Machine
end

section
/-! PROOFS. The time a HEAD brings to the FOLLOW: link delay, OFS, UNTRUST and the observation (R465, R466): the statement of chapter 22 on them. -/

namespace Sys2Proof.Machine

/-! ### Signed fields -/

section Signed

theorem fromSigned_nonneg {n : Nat} {i : Int} (h0 : 0 ≤ i) (h : i < 2 ^ n) : fromSigned n i = i.toNat := by
  rw [fromSigned, Int.emod_eq_of_lt h0 (by exact_mod_cast h)]

theorem fromSigned_lt (n : Nat) (i : Int) : fromSigned n i < 2 ^ n := by
  have hpos : (0 : Int) < (2 ^ n : Nat) := by exact_mod_cast Nat.two_pow_pos n
  have h0 := Int.emod_nonneg i (ne_of_gt hpos)
  have h1 := Int.emod_lt_of_pos i hpos
  rw [fromSigned]
  omega

/-- A value within 32 signed bits stands in 64. -/
theorem toSigned_fromSigned_64 {i : Int} (hlo : -(2 ^ 31) ≤ i) (hhi : i < 2 ^ 31) : toSigned 64 (fromSigned 64 i) = i := by
  simp only [toSigned, fromSigned]
  omega

end Signed

section Follow
variable {s t u w : State} {c : List Byte} {stamp tx : Nat} {l : List Int} {d o : Int}

/-- The trips and the delay that a round trip leaves. -/
def State.tripNoted (l : List Int) (d : Int) (s : State) : State := (s.withPair { s.pair with trips := l }).set PAIR_DLY.DLY (fromSigned 32 d)

/-- HEADs in a row with a small offset, with one of `o`. -/
def State.okNext (o : Int) (s : State) : Nat := if o.natAbs ≤ 1000 then s.pair.okTime + 1 else 0

/-- UNTRUST after an offset of `o`. -/
def State.untrusts (o : Int) (s : State) : Bool :=
  if 2000 < o.natAbs then true else if o.natAbs ≤ 1000 ∧ 15 ≤ s.pair.okTime then false else s.getB PAIR_STAT.UNTRUST

/-- The count of HEADs with a small offset set. -/
def State.withOk (n : Nat) (s : State) : State := s.withPair { s.pair with okTime := n }

/-- OFS shows `o`. -/
def State.ofsShown (o : Int) (s : State) : State := (s.set PAIR_OFS.OFS (fromSigned 32 o)).withOk (s.okNext o)

/-- OFS and UNTRUST after an offset. -/
def State.offsetNoted (o : Int) (s : State) : State := (s.ofsShown o).changeBit 315 PAIR_STAT.UNTRUST (s.untrusts o)

/-- How the model counts an offset and judges UNTRUST. -/
def State.okJudged (o : Int) (s : State) : State :=
  if 2000 < o.natAbs then
    if (s.withOk 0).getB PAIR_STAT.UNTRUST then s.withOk 0 else ((s.withOk 0).setB PAIR_STAT.UNTRUST true).raise 315
  else if (s.withOk (s.okNext o)).getB PAIR_STAT.UNTRUST && decide (16 ≤ s.okNext o) then
    ((s.withOk (s.okNext o)).setB PAIR_STAT.UNTRUST false).raise 315
  else s.withOk (s.okNext o)

theorem getB_withOk (n : Nat) (f : Fld) (s : State) : (s.withOk n).getB f = s.getB f := rfl

theorem okJudged_eq (o : Int) (s : State) : s.okJudged o = (s.withOk (s.okNext o)).changeBit 315 PAIR_STAT.UNTRUST (s.untrusts o) := by
  have hbit := getB_withOk (s.okNext o) PAIR_STAT.UNTRUST s
  by_cases hbig : 2000 < o.natAbs
  · have hnext : s.okNext o = 0 := if_neg (by omega)
    rw [State.okJudged, if_pos hbig, State.untrusts, if_pos hbig, ← hnext]
    rfl
  · have hmany : 16 ≤ s.okNext o ↔ o.natAbs ≤ 1000 ∧ 15 ≤ s.pair.okTime := by
      unfold State.okNext
      split <;> omega
    rw [State.okJudged, if_neg hbig, State.untrusts, if_neg hbig]
    generalize s.withOk (s.okNext o) = u at hbit
    by_cases hgood : o.natAbs ≤ 1000 ∧ 15 ≤ s.pair.okTime
    · rw [if_pos hgood, decide_eq_true (hmany.2 hgood), Bool.and_true]
      by_cases hun : u.getB PAIR_STAT.UNTRUST = true
      · rw [if_pos hun, changeBit_changed (by rw [hun]; decide)]
      · rw [if_neg hun, changeBit_same (by simpa using hun)]
    · rw [if_neg hgood, decide_eq_false (mt hmany.1 hgood), Bool.and_false, if_neg (by decide), ← hbit, changeBit_same rfl]

/-- The state with an observation of source 3 taken in a cycle of each ten. -/
def State.obsNoted (c : List Byte) (stamp m : Nat) (s : State) : State := if cellN c 2 2 % 10 = 0 then s.acceptObs 3 stamp m 0 else s

theorem pairTrip_some (htx : tget s.pair.sent (cellN c 52 2) = some tx)
    (hl : l = (s.pair.trips ++ [(stamp : Int) - tx - cellN c 54 4]).drop (s.pair.trips.length - 15)) (hd : d = l.foldl (· + ·) 0 / (2 * l.length)) :
    s.pairTrip c stamp = some (s.tripNoted l d) := by
  have hmap (k : List Int) (hk : k = s.pair.trips ++ [(stamp : Int) - tx - cellN c 54 4]) :
      s.pairTrip c stamp = some (s.tripNoted (k.drop (k.length - 16)) (((k.drop (k.length - 16)).foldl (· + ·) 0).fdiv (2 * (k.drop (k.length - 16)).length))) := by
    rw [State.pairTrip, htx, hk]
    rfl
  have hdrop : (s.pair.trips ++ [(stamp : Int) - tx - cellN c 54 4]).drop
      ((s.pair.trips ++ [(stamp : Int) - tx - cellN c 54 4]).length - 16) = l := by
    rw [hl, List.length_append, List.length_singleton]
    exact congrArg (fun k => List.drop k _) (by omega)
  rw [hmap _ rfl, hdrop, Int.fdiv_eq_ediv_of_nonneg _ (by positivity), ← hd]

/-- OFS in 32 bits, and UNTRUST by it. -/
theorem pairOffset_eq (ho : (((cellN c 36 8 + s.get PAIR_DLY.DLY : Nat) : Int) - s.mtAt stamp) = o) (hlo : -(2 ^ 31) ≤ o) (hhi : o < 2 ^ 31) :
    s.pairOffset c stamp = s.offsetNoted o := by
  have hin : (-(2 ^ 31) ≤ o && o < 2 ^ 31) = true := by rw [Bool.and_eq_true, decide_eq_true_eq, decide_eq_true_eq]; exact ⟨hlo, hhi⟩
  have hbit : (s.set PAIR_OFS.OFS (fromSigned 32 o)).getB PAIR_STAT.UNTRUST = s.getB PAIR_STAT.UNTRUST :=
    getB_of_get (get_set_apart s PAIR_OFS.OFS _ _ (.inl (by decide)) (by decide))
  have hjudged : s.pairOffset c stamp = (s.set PAIR_OFS.OFS (fromSigned 32 o)).okJudged o := by
    unfold State.pairOffset
    dsimp only
    rw [ho, toSigned_fromSigned_64 hlo hhi, if_pos hin]
    rfl
  rw [hjudged, okJudged_eq, State.offsetNoted, State.ofsShown, State.okNext, State.okNext, State.untrusts, State.untrusts, set_pair, hbit]

theorem isFlag_untrust : IsFlag PAIR_STAT.UNTRUST := ⟨rfl, by decide, by decide⟩

theorem tripNoted_shows (l : List Int) (s : State) (h0 : 0 ≤ d) (h32 : d < 2 ^ 32) : Ran [.pair] [PAIR_DLY.DLY] s (s.tripNoted l d) ∧
    (s.tripNoted l d).get PAIR_DLY.DLY = d.toNat ∧ (s.tripNoted l d).pair = { s.pair with trips := l } := by
  have hset := ran_set (s.withPair { s.pair with trips := l }) (f := PAIR_DLY.DLY) (fromSigned 32 d) (by decide) (by decide)
  refine ⟨((ran_withPair _ s).seq hset).mono (by simp) (by simp), ?_, by rw [State.tripNoted, set_pair, pair_withPair]⟩
  rw [State.tripNoted, get_set_self _ _ _ (by decide), fromSigned_nonneg h0 h32]
  exact Nat.mod_eq_of_lt (by change d.toNat < 2 ^ 32; omega)

theorem ofsShown_shows (o : Int) (s : State) : Ran [.pair] [PAIR_OFS.OFS] s (s.ofsShown o) ∧ (s.ofsShown o).get PAIR_OFS.OFS = fromSigned 32 o ∧
    (s.ofsShown o).pair = { s.pair with okTime := s.okNext o } := by
  unfold State.ofsShown State.withOk
  rw [set_pair]
  have hset := ran_set s (f := PAIR_OFS.OFS) (fromSigned 32 o) (by decide) (by decide)
  refine ⟨(hset.seq (ran_withPair _ _)).mono (by simp) (by simp), ?_, rfl⟩
  rw [get_withPair, get_set_self _ _ _ (by decide)]
  exact Nat.mod_eq_of_lt (fromSigned_lt 32 o)

theorem offsetNoted_shows (o : Int) (s : State) : let t := s.offsetNoted o
    Ran [.pair, .rcd, .cyc] ([PAIR_OFS.OFS, PAIR_STAT.UNTRUST] ++ raiseFlds 315) s t ∧ t.get PAIR_OFS.OFS = fromSigned 32 o ∧
      t.getB PAIR_STAT.UNTRUST = s.untrusts o ∧ (t.getB PAIR_STAT.UNTRUST ≠ s.getB PAIR_STAT.UNTRUST → s.raised 315 t) ∧
      t.pair = { s.pair with okTime := s.okNext o } := by
  obtain ⟨hshow, hofs, hpair⟩ := ofsShown_shows o s
  have hbit : (s.ofsShown o).getB PAIR_STAT.UNTRUST = s.getB PAIR_STAT.UNTRUST :=
    getB_of_only hshow.only fun f hf => List.mem_singleton.1 hf ▸ .inl (by decide)
  unfold State.offsetNoted
  generalize s.ofsShown o = u at hshow hofs hpair hbit
  have hrun := ran_changeBit isFlag_untrust 315 (s.untrusts o) u
  have hself := getB_changeBit_self isFlag_untrust 315 (s.untrusts o) u
  have hraised : u.getB PAIR_STAT.UNTRUST ≠ s.untrusts o → u.raised 315 (u.changeBit 315 PAIR_STAT.UNTRUST (s.untrusts o)) := raised_changeBit isFlag_untrust
  have hkeep := get_changeBit_apart (g := PAIR_OFS.OFS) isFlag_untrust 315 (s.untrusts o) u (.inl (by decide)) (by decide)
  generalize u.changeBit 315 PAIR_STAT.UNTRUST (s.untrusts o) = v at hrun hself hraised hkeep
  refine ⟨(hshow.seq hrun).mono (by simp) (by simp +contextual), hkeep.trans hofs, hself, fun hne => ?_, (pair_of_only hrun.only (by simp)).trans hpair⟩
  exact hshow.evt.raised_second hrun.evt (by decide) (hraised (by rw [hbit, ← hself]; exact hne.symm))

/-- MT read through work outside TMS. -/
theorem mtAt_of_only {ps : List Comp} {fs : List Fld} (h : s.only ps fs u) (hw : ∀ f ∈ fs, windowOf f.addr ≠ 0xC3) (m : Nat) : u.mtAt m = s.mtAt m := by
  have hreg {a : Nat} (ha : windowOf a = 0xC3) : u.reg a = s.reg a := reg_of_only h ha hw
  have href : u.relRef = s.relRef := get64_congr _ _ (hreg (by decide)) (hreg (by decide))
  have hoff : u.relOff = s.relOff := congrArg (toSigned 64) (get64_congr _ _ (hreg (by decide)) (hreg (by decide)))
  have hrate : u.relRate = s.relRate := by rw [State.relRate, State.relRate, hreg (by decide)]
  rw [State.mtAt, State.mtAt, href, hoff, hrate]

/-- Whether an observation is taken, through work outside TMS. -/
theorem obsReason_of_only {ps : List Comp} {fs : List Fld} (h : s.only ps fs u) (hp : .tms ∉ ps ∧ .ltc ∉ ps) (hw : ∀ f ∈ fs, windowOf f.addr ≠ 0xC3)
    (m : Nat) : u.obsReason 3 m = s.obsReason 3 m := by
  have hget {f : Fld} (hf : windowOf f.addr = 0xC3) : u.get f = s.get f := get_congr _ (reg_of_only h hf hw)
  have hen : u.getB TMS_CTRL.ENABLE = s.getB TMS_CTRL.ENABLE := getB_of_get (hget (by decide))
  have hpri : u.tmsPri 3 = s.tmsPri 3 := hget (by decide)
  have htms : u.tms = s.tms := h.1 .tms hp.1
  rw [State.obsReason, State.obsReason, hen, hpri, htms, now_of_only h hp.2]

/-- The work of a HEAD's time on the FOLLOW. -/
theorem pairTime_follow (hrole : s.get PAIR_CFG.ROLE = 1) (hlead : cellN c 1 1 % 2 = 0) (htrip : s.pairTrip c stamp = some u)
    (hoffset : u.pairOffset c stamp = t) (htrips : t.pair.trips ≠ []) (hobs : t.obsReason 3 stamp = 0) :
    s.pairTime c stamp = t.obsNoted c stamp ((cellN c 36 8 + t.get PAIR_DLY.DLY) % 2 ^ 64) := by
  have hne : ¬ cellN c 1 1 % 2 = s.get PAIR_CFG.ROLE := by rw [hlead, hrole]; decide
  have hmany : t.pair.trips.isEmpty = false := by simpa using htrips
  unfold State.pairTime
  rw [if_neg hne, htrip, hrole]
  simp only [if_true, hoffset, hmany, decide_true, Bool.true_and, Bool.not_false, Bool.and_true, decide_eq_true_eq, State.obsNoted, State.deliverObs, hobs]

end Follow

end Sys2Proof.Machine
end

section
/-! PROOFS. A HEAD's time on the joined FOLLOW, put together (R465, R466): the statement of chapter 22 on it. -/

namespace Sys2Proof.Machine

section Follow
variable {s t u w : State} {cell : List Byte} {lane : Fin 2} {stamp tx : Nat} {l : List Int} {d o : Int}

/-- What a HEAD's time writes on the FOLLOW. -/
def timeFlds : List Fld := [PAIR_DLY.DLY, PAIR_OFS.OFS, PAIR_STAT.UNTRUST] ++ raiseFlds 315

/-- The observation that a HEAD gives. -/
def headObs (c : List Byte) (stamp : Nat) (d : Int) (now : Nat) : Obs :=
  { l := stamp, m := (cellN c 36 8 + d.toNat) % 2 ^ 64, frac := 0, effectAt := (now / 1000000 + 1) * 1000000 }

theorem only_acceptObs (src l m frac : Nat) (s : State) : s.only [.tms] [] (s.acceptObs src l m frac) := only_withTms s _

theorem obsNoted_shows (c : List Byte) (stamp : Nat) (s : State) (hd : s.get PAIR_DLY.DLY = d.toNat) :
    let t := s.obsNoted c stamp ((cellN c 36 8 + s.get PAIR_DLY.DLY) % 2 ^ 64)
    Ran [.tms] [] s t ∧ tget t.tms.obs 3 = (if cellN c 2 2 % 10 = 0 then some (headObs c stamp d s.now) else tget s.tms.obs 3) := by
  unfold State.obsNoted
  rw [hd]
  split
  · exact ⟨ran_of_only (only_acceptObs ..) (by simp) (by simp), tget_tput_self ..⟩
  · exact ⟨.refl .., rfl⟩

/-- What a HEAD's time leaves on the FOLLOW. -/
structure TimeTaken (c : List Byte) (stamp : Nat) (l : List Int) (d o : Int) (s t : State) : Prop where
  ran : Ran [.pair, .rcd, .cyc, .tms] timeFlds s t
  dly : t.get PAIR_DLY.DLY = d.toNat
  ofs : t.get PAIR_OFS.OFS = fromSigned 32 o
  untrust : t.getB PAIR_STAT.UNTRUST = s.untrusts o
  told : t.getB PAIR_STAT.UNTRUST ≠ s.getB PAIR_STAT.UNTRUST → s.raised 315 t
  pair : t.pair = { s.pair with trips := l, okTime := s.okNext o }
  obs : tget t.tms.obs 3 = if cellN c 2 2 % 10 = 0 then some (headObs c stamp d s.now) else tget s.tms.obs 3

theorem pairTime_shows (hrole : s.get PAIR_CFG.ROLE = 1) (hlead : cellN cell 1 1 % 2 = 0) (htx : tget s.pair.sent (cellN cell 52 2) = some tx)
    (hl : l = (s.pair.trips ++ [(stamp : Int) - tx - cellN cell 54 4]).drop (s.pair.trips.length - 15)) (hd : d = l.foldl (· + ·) 0 / (2 * l.length))
    (h0 : 0 ≤ d) (h32 : d < 2 ^ 32) (ho : o = (cellN cell 36 8 : Int) + d - s.mtAt stamp) (hlo : -(2 ^ 31) ≤ o) (hhi : o < 2 ^ 31)
    (hobs : s.obsReason 3 stamp = 0) : TimeTaken cell stamp l d o s (s.pairTime cell stamp) := by
  have htrip := pairTrip_some htx hl hd
  obtain ⟨hrun1, hdly1, hpair1⟩ := tripNoted_shows l s h0 h32
  generalize s.tripNoted l d = u at htrip hrun1 hdly1 hpair1
  have hoffset : u.pairOffset cell stamp = u.offsetNoted o := by
    refine pairOffset_eq ?_ hlo hhi
    rw [hdly1, mtAt_of_only hrun1.only (windows_all rfl), ho]
    omega
  have hbit1 : u.getB PAIR_STAT.UNTRUST = s.getB PAIR_STAT.UNTRUST := getB_of_only hrun1.only (apart_all rfl)
  have hun1 : u.untrusts o = s.untrusts o := by rw [State.untrusts, State.untrusts, hbit1, hpair1]
  have hok1 : u.okNext o = s.okNext o := by rw [State.okNext, State.okNext, hpair1]
  obtain ⟨hrun2, hofs2, huntrust2, htold2, hpair2⟩ := offsetNoted_shows o u
  generalize u.offsetNoted o = v at hoffset hrun2 hofs2 huntrust2 htold2 hpair2
  have hboth := hrun1.seq hrun2
  have hdly2 : v.get PAIR_DLY.DLY = d.toNat := (hrun2.only.2.1 _ (apart_all rfl)).trans hdly1
  have htms2 : v.tms = s.tms := hboth.only.1 .tms (by simp)
  have hnow2 : v.now = s.now := now_of_only hboth.only (by simp)
  have hpairv : v.pair = { s.pair with trips := l, okTime := s.okNext o } := by rw [hpair2, hpair1, hok1]
  have htrips : v.pair.trips ≠ [] := by
    rw [hpairv]
    intro hnil
    have : (s.pair.trips ++ [(stamp : Int) - tx - cellN cell 54 4]).length ≤ s.pair.trips.length - 15 := List.drop_eq_nil_iff.1 (hl.symm.trans hnil)
    simp only [List.length_append, List.length_singleton] at this
    omega
  rw [pairTime_follow hrole hlead htrip hoffset htrips (by rw [obsReason_of_only hboth.only (by simp) (windows_all rfl), hobs])]
  obtain ⟨hrun3, hobs3⟩ := obsNoted_shows cell stamp v hdly2
  rw [htms2, hnow2] at hobs3
  generalize v.obsNoted cell stamp ((cellN cell 36 8 + v.get PAIR_DLY.DLY) % 2 ^ 64) = t at hrun3 hobs3
  have hkeep (f : Fld) : t.get f = v.get f := hrun3.only.2.1 f (by simp)
  have huntrust : t.getB PAIR_STAT.UNTRUST = s.untrusts o := by rw [getB_of_get (hkeep _), huntrust2, hun1]
  refine ⟨(hboth.seq hrun3).mono (by simp) (by simp +contextual [timeFlds]), (hkeep _).trans hdly2, (hkeep _).trans hofs2, huntrust, fun hne => ?_,
    (pair_of_only hrun3.only (by simp)).trans hpairv, hobs3⟩
  refine hrun3.evt.raised_first hboth.evt (by decide) (hrun1.evt.raised_second hrun2.evt (by decide) (htold2 ?_))
  rw [hbit1, huntrust2, hun1, ← huntrust]
  exact hne

/-- A HEAD of the LEAD gives the joined FOLLOW its time. -/
theorem headRx_times (hlane : s.pairLane lane.val = true) (htrue : s.lanesTrue = true) (hok : cellOk cell = true) (hty : natLE (cell.take 1) = 1)
    (hnew : (s.pair.heads.any fun h => decide (h.cyc = cellN cell 2 2)) = false) (hrole : s.get PAIR_CFG.ROLE = 1) (hlead : cellN cell 1 1 % 2 = 0)
    (hwhy : s.joinWhy cell = 0) (hstate : s.get PAIR_STAT.STATE = 2) (hgood : 16 ≤ s.pair.good) (htx : tget s.pair.sent (cellN cell 52 2) = some tx)
    (hl : l = (s.pair.trips ++ [(stamp : Int) - tx - cellN cell 54 4]).drop (s.pair.trips.length - 15)) (hd : d = l.foldl (· + ·) 0 / (2 * l.length))
    (h0 : 0 ≤ d) (h32 : d < 2 ^ 32) (ho : o = (cellN cell 36 8 : Int) + d - s.mtAt stamp) (hlo : -(2 ^ 31) ≤ o) (hhi : o < 2 ^ 31)
    (hobs : s.obsReason 3 stamp = 0) : ∃ t, exec (.headRx lane cell stamp) s = .next t ∧
      (t.get PAIR_DLY.DLY : Int) = d ∧ t.get PAIR_OFS.OFS = fromSigned 32 o ∧ t.pair.trips = l ∧
      t.getB PAIR_STAT.UNTRUST = (if 2000 < o.natAbs then true else if o.natAbs ≤ 1000 ∧ 15 ≤ s.pair.okTime then false else s.getB PAIR_STAT.UNTRUST) ∧
      (t.getB PAIR_STAT.UNTRUST ≠ s.getB PAIR_STAT.UNTRUST → s.raised 315 t) ∧
      t.pair.okTime = (if o.natAbs ≤ 1000 then s.pair.okTime + 1 else 0) ∧
      tget t.tms.obs 3 = (if cellN cell 2 2 % 10 = 0 then
        some { l := stamp, m := (cellN cell 36 8 + d.toNat) % 2 ^ 64, frac := 0, effectAt := (s.now / 1000000 + 1) * 1000000 } else tget s.tms.obs 3) ∧
      s.only [.pair, .rcd, .cyc, .tms]
        ([laneFld lane.val, PAIR_STAT.CYC, PAIR_STAT.WHY, PAIR_STAT.UNTRUST, PAIR_DLY.DLY, PAIR_OFS.OFS] ++ raiseFlds 314 ++ raiseFlds 315) t := by
  obtain ⟨hrun, -, -, -, hpair⟩ := headSeen_shows lane.isLt cell stamp s
  have hexec := headRx_first (stamp := stamp) hlane htrue hok hty hnew
  generalize s.headSeen lane.val cell stamp = w at hrun hpair hexec
  have hsent : w.pair.sent = s.pair.sent := by rw [hpair]; rfl
  have htrips : w.pair.trips = s.pair.trips := by rw [hpair]; rfl
  have hokt : w.pair.okTime = s.pair.okTime := by rw [hpair]; rfl
  have hgoodw : w.pair.good = s.pair.good := by rw [hpair]; rfl
  have htms : w.tms = s.tms := hrun.only.1 .tms (by simp)
  have hnow : w.now = s.now := now_of_only hrun.only (by simp)
  have hbit : w.getB PAIR_STAT.UNTRUST = s.getB PAIR_STAT.UNTRUST := getB_of_only hrun.only
    (apart_headFlds (.inr (.inr (by simp only [laneFld, PAIR_STAT.UNTRUST]; omega))) (.inr (.inr (by decide))) (by decide))
  have hmt := mtAt_of_only (m := stamp) hrun.only (windows_headFlds (by decide) (by decide))
  have hobsw := obsReason_of_only (m := stamp) hrun.only (by simp) (windows_headFlds (by decide) (by decide))
  have htime := pairTime_shows (s := w) (cell := cell) (stamp := stamp) ((headKeeps_config hrun.only).trans hrole) hlead (by rw [hsent]; exact htx)
    (by rw [htrips]; exact hl) hd h0 h32 (by rw [hmt]; exact ho) hlo hhi (hobsw.trans hobs)
  generalize w.pairTime cell stamp = u at htime hexec
  have hwhyu : u.joinWhy cell = 0 := ((joinWhy_of_only htime.ran.only (by simp) (apart_all rfl) (windows_all rfl) (windows_all rfl) cell).trans
    (headKeeps_why hrun.only cell)).trans hwhy
  have hstateu : u.get PAIR_STAT.STATE = 2 := (htime.ran.only.2.1 _ (apart_all rfl)).trans ((headKeeps_state hrun.only).trans hstate)
  have hgoodu : u.pair.good = s.pair.good := by rw [htime.pair]; exact hgoodw
  obtain ⟨hjudge, -, hpairt⟩ := judged_shows cell (min 16 (u.pair.good + 1)) u
  rw [pairJoin_passes hwhyu, if_pos (by omega), setPairState_same ((hjudge.only.2.1 _ (apart_all rfl)).trans hstateu)] at hexec
  generalize u.judged cell (min 16 (u.pair.good + 1)) = t at hexec hjudge hpairt
  have hkeep (f : Fld) (hf : (f.isApart PAIR_STAT.WHY) = true) : t.get f = u.get f := hjudge.only.2.1 f (apart_all (by simp [hf]))
  have hun : t.getB PAIR_STAT.UNTRUST = u.getB PAIR_STAT.UNTRUST := getB_of_get (hkeep _ rfl)
  have htmst : t.tms = u.tms := hjudge.only.1 .tms (by simp)
  refine ⟨t, hexec, ?_, (hkeep _ rfl).trans htime.ofs, ?_, ?_, fun hne => ?_, ?_, ?_, ?_⟩
  · rw [hkeep _ rfl, htime.dly]
    omega
  · rw [hpairt, htime.pair]
  · rw [hun, htime.untrust, State.untrusts, hbit, hokt]
  · refine hjudge.evt.raised_first (hrun.evt.trans htime.ran.evt) (by decide) (hrun.evt.raised_second htime.ran.evt (by decide) (htime.told ?_))
    rw [← hun, hbit]
    exact hne
  · rw [hpairt, htime.pair, State.okNext, hokt]
  · rw [htmst, htime.obs, htms, hnow]
    rfl
  · exact only_mono (only_seq (only_seq hrun.only htime.ran.only) hjudge.only) (by simp) (by simp +contextual [headFlds, timeFlds, or_imp])

end Follow

end Sys2Proof.Machine
end

section
/-! PROOFS. PAIR's SIG cells: the values they give the loops (R469): the statement of chapter 22 on them. -/

namespace Sys2Proof.Machine

/-! ### Received values -/

section Values
variable {rx : Tbl (List (Nat × Nat))} {rel i k : Nat} {val : Nat → Nat} {key : Nat → Nat}

/-- A value of signal `i`, among the 16 kept. -/
def rxPut (i rel v : Nat) (rx : Tbl (List (Nat × Nat))) : Tbl (List (Nat × Nat)) :=
  tput rx i ((tgetD rx i [] ++ [(rel, v)]).drop ((tgetD rx i [] ++ [(rel, v)]).length - 16))

/-- The values of the signals `key b`, for each `b` listed. -/
def rxPuts (key val : Nat → Nat) (rel : Nat) (bs : List Nat) (rx : Tbl (List (Nat × Nat))) : Tbl (List (Nat × Nat)) :=
  bs.foldl (fun rx b => rxPut (key b) rel (val b) rx) rx

theorem getLast_rxPut (i rel v : Nat) (rx : Tbl (List (Nat × Nat))) : (tgetD (rxPut i rel v rx) i []).getLast? = some (rel, v) := by
  rw [rxPut, tgetD_tput, if_pos rfl, List.getLast?_drop, if_neg (by simp), List.getLast?_append]
  rfl

theorem tget_rxPut_ne {v : Nat} (h : k ≠ i) : tget (rxPut i rel v rx) k = tget rx k := (tget_tput ..).trans (if_neg h)

/-- A signal without a value stays. -/
theorem tget_rxPuts_ne {bs : List Nat} (h : ∀ b ∈ bs, key b ≠ k) : tget (rxPuts key val rel bs rx) k = tget rx k := by
  induction bs generalizing rx with
  | nil => rfl
  | cons b bs ih => exact (ih fun b' hb' => h b' (List.mem_cons_of_mem _ hb')).trans (tget_rxPut_ne (h b List.mem_cons_self).symm)

/-- A signal with a value shows it last. -/
theorem getLast_rxPuts (hinj : ∀ b b', key b = key b' → b = b') {bs : List Nat} {b : Nat} (hb : b ∈ bs) :
    (tgetD (rxPuts key val rel bs rx) (key b) []).getLast? = some (rel, val b) := by
  induction bs generalizing rx with
  | nil => simp at hb
  | cons a bs ih =>
    by_cases hmem : b ∈ bs
    · exact ih hmem
    · obtain rfl : b = a := (List.mem_cons.1 hb).resolve_right hmem
      have hkeep : tget (rxPuts key val rel bs (rxPut (key b) rel (val b) rx)) (key b) = tget (rxPut (key b) rel (val b) rx) (key b) :=
        tget_rxPuts_ne fun b' hb' he => hmem (hinj _ _ he ▸ hb')
      change ((tget (rxPuts key val rel bs (rxPut (key b) rel (val b) rx)) (key b)).getD []).getLast? = _
      rw [hkeep]
      exact getLast_rxPut ..

end Values

section Sig
variable {s t u : State} {cell : List Byte} {lane : Fin 2} {h : PairHead} {rest : List PairHead} {j : Nat}

/-- The signals that a SIG cell gives a value. -/
def sigBits (cell : List Byte) (j : Nat) : List Nat := (List.range (if j = 5 then 4 else 12)).filter fun b => bitAt (cellN cell 4 2) b

theorem mem_sigBits {b : Nat} (hj : j ≤ 5) : b ∈ sigBits cell j ↔ (b < 12 ∧ 12 * j + b < 64) ∧ bitAt (cellN cell 4 2) b = true := by
  rw [sigBits, List.mem_filter, List.mem_range]
  refine and_congr_left fun _ => ?_
  split <;> omega

/-- The received values after a SIG cell. -/
def State.rxAfter (cell : List Byte) (j rel : Nat) (s : State) : Tbl (List (Nat × Nat)) :=
  rxPuts (fun b => 12 * j + b) (fun b => cellN cell (8 + 4 * b) 4) rel (sigBits cell j) s.pair.rx

theorem foldl_sigPut (j rel : Nat) (bs : List Nat) (s : State) :
    bs.foldl (fun s b => s.sigPut (12 * j + b) rel (cellN cell (8 + 4 * b) 4)) s =
      s.withPair { s.pair with rx := rxPuts (fun b => 12 * j + b) (fun b => cellN cell (8 + 4 * b) 4) rel bs s.pair.rx } := by
  induction bs generalizing s with
  | nil => rfl
  | cons b bs ih => exact ih _

/-- PAIR's HEADs with SIG index `j` of the first one taken. -/
def PairState.sigSeen (p : PairState) (h : PairHead) (rest : List PairHead) (j : Nat) : PairState :=
  { p with heads := { h with seen := putBits h.seen j 1 1 } :: rest }

theorem find_head (hheads : s.pair.heads = h :: rest) (hcyc : h.cyc = cellN cell 2 2) :
    (s.pair.heads.find? fun g => decide (g.cyc = cellN cell 2 2)) = some h := by
  rw [hheads, List.find?_cons_of_pos (by simpa using hcyc)]

/-- Other HEADs keep their SIG indices. -/
theorem map_seen (hrest : (rest.all fun g => decide (g.cyc ≠ h.cyc)) = true) :
    ((h :: rest).map fun g => if g.cyc = h.cyc then { g with seen := putBits g.seen j 1 1 } else g) = { h with seen := putBits h.seen j 1 1 } :: rest := by
  rw [List.map_cons, if_pos rfl]
  exact congrArg _ ((List.map_congr_left fun g hg => if_neg (of_decide_eq_true (List.all_eq_true.1 hrest g hg))).trans (List.map_id _))

/-- The first valid copy of a SIG cell whose HEAD is known, up to its values. -/
theorem sigIn_new (hj : cellN cell 1 1 = j) (hle : j ≤ 5) (hheads : s.pair.heads = h :: rest) (hcyc : h.cyc = cellN cell 2 2)
    (hrest : (rest.all fun g => decide (g.cyc ≠ h.cyc)) = true) (hnew : bitAt h.seen j = false) (hjoin : s.pairJoined = true) (hheld : s.pairHeld = false) :
    s.sigIn cell = let u := s.withPair { s.pair.sigSeen h rest j with rx := s.rxAfter cell j h.rel }
      if h.rel < u.now then (u.bump PAIR_CNT.SIG_LATE 1).raise 316 else u := by
  have hj' : ¬ (decide (5 < j) || bitAt h.seen j) = true := by simp [hnew]; omega
  unfold State.sigIn
  rw [find_head hheads hcyc, hj]
  dsimp only
  rw [if_neg hj', hheads, map_seen hrest]
  change (if (!s.pairJoined || s.pairHeld) = true then _ else _) = _
  rw [hjoin, hheld, if_neg (by decide), foldl_sigPut]
  rfl

/-- What a late SIG cell adds. -/
theorem sigLate_shows (u : State) : Ran [.rcd, .cyc] (PAIR_CNT.SIG_LATE :: raiseFlds 316) u ((u.bump PAIR_CNT.SIG_LATE 1).raise 316) ∧
    ((u.bump PAIR_CNT.SIG_LATE 1).raise 316).get PAIR_CNT.SIG_LATE = min 65535 (u.get PAIR_CNT.SIG_LATE + 1) ∧
    u.raised 316 ((u.bump PAIR_CNT.SIG_LATE 1).raise 316) := by
  have hset := ran_set u (f := PAIR_CNT.SIG_LATE) (satTo (2 ^ 16 - 1) (u.get PAIR_CNT.SIG_LATE + 1)) (by decide) (by decide)
  change Ran [] [PAIR_CNT.SIG_LATE] u (u.bump PAIR_CNT.SIG_LATE 1) at hset
  refine ⟨(hset.seq (ran_raise _ 316)).mono (by simp) (by simp +contextual), ?_, hset.evt.raised_raise (by decide)⟩
  rw [get_raise_outside _ _ (by decide), get_bump_self _ _ _ (by decide), satTo_eq_min]
  rfl

/-- A SIG cell gives its values. -/
theorem sigRx_puts (hlane : s.pairLane lane.val = true) (htrue : s.lanesTrue = true) (hok : cellOk cell = true) (hty : natLE (cell.take 1) = 2)
    (hj : cellN cell 1 1 = j) (hle : j ≤ 5) (hheads : s.pair.heads = h :: rest) (hcyc : h.cyc = cellN cell 2 2)
    (hrest : (rest.all fun g => decide (g.cyc ≠ h.cyc)) = true) (hnew : bitAt h.seen j = false) (hjoin : s.pairJoined = true) (hheld : s.pairHeld = false) :
    ∃ t, exec (.sigRx lane cell) s = .next t ∧ t.pair.heads = { h with seen := putBits h.seen j 1 1 } :: rest ∧
      (∀ b, b < 12 → 12 * j + b < 64 → bitAt (cellN cell 4 2) b = true →
        (tgetD t.pair.rx (12 * j + b) []).getLast? = some (h.rel, cellN cell (8 + 4 * b) 4)) ∧
      (∀ i, i < 64 → (i / 12 ≠ j ∨ bitAt (cellN cell 4 2) (i % 12) = false) → tget t.pair.rx i = tget s.pair.rx i) ∧
      t.get PAIR_CNT.SIG_LATE = (if h.rel < s.now then min 65535 (s.get PAIR_CNT.SIG_LATE + 1) else s.get PAIR_CNT.SIG_LATE) ∧
      (h.rel < s.now → s.raised 316 t) ∧ s.only [.pair, .rcd, .cyc] (PAIR_CNT.SIG_LATE :: raiseFlds 316) t := by
  have hexec : exec (.sigRx lane cell) s = .next _ :=
    congrArg Host.Outcome.next ((cellIn_taken hlane htrue hok hty).trans (sigIn_new hj hle hheads hcyc hrest hnew hjoin hheld))
  have hput := ran_withPair { s.pair.sigSeen h rest j with rx := s.rxAfter cell j h.rel } s
  have hlast (b : Nat) (hb : b < 12) (h64 : 12 * j + b < 64) (hbit : bitAt (cellN cell 4 2) b = true) :
      (tgetD (s.rxAfter cell j h.rel) (12 * j + b) []).getLast? = some (h.rel, cellN cell (8 + 4 * b) 4) :=
    getLast_rxPuts (key := fun b => 12 * j + b) (val := fun b => cellN cell (8 + 4 * b) 4) (fun _ _ he => by simpa using he)
      ((mem_sigBits hle).2 ⟨⟨hb, h64⟩, hbit⟩)
  have hsame (i : Nat) (_ : i < 64) (hi : i / 12 ≠ j ∨ bitAt (cellN cell 4 2) (i % 12) = false) : tget (s.rxAfter cell j h.rel) i = tget s.pair.rx i :=
    tget_rxPuts_ne fun b hb he => by
      obtain ⟨⟨hlt, -⟩, hbit⟩ := (mem_sigBits hle).1 hb
      rcases hi with hi | hi
      · omega
      · rw [← he, show (12 * j + b) % 12 = b by omega, hbit] at hi
        exact Bool.noConfusion hi
  have hget : (s.withPair { s.pair.sigSeen h rest j with rx := s.rxAfter cell j h.rel }).get PAIR_CNT.SIG_LATE = s.get PAIR_CNT.SIG_LATE := rfl
  have hnow : (s.withPair { s.pair.sigSeen h rest j with rx := s.rxAfter cell j h.rel }).now = s.now := rfl
  have hpair := pair_withPair { s.pair.sigSeen h rest j with rx := s.rxAfter cell j h.rel } s
  generalize s.withPair { s.pair.sigSeen h rest j with rx := s.rxAfter cell j h.rel } = u at hexec hput hget hnow hpair
  dsimp only at hexec
  rw [hnow] at hexec
  by_cases hlate : h.rel < s.now
  · rw [if_pos hlate] at hexec
    obtain ⟨hrun, hcount, hraised⟩ := sigLate_shows u
    generalize (u.bump PAIR_CNT.SIG_LATE 1).raise 316 = t at hexec hrun hcount hraised
    have hpairt : t.pair = _ := (pair_of_only hrun.only (by simp)).trans hpair
    refine ⟨t, hexec, by rw [hpairt]; rfl, ?_, ?_, by rw [hcount, hget, if_pos hlate], fun _ => hput.evt.raised_second hrun.evt (by decide) hraised,
      only_mono (only_seq hput.only hrun.only) (by simp) (by simp)⟩
    · rw [hpairt]
      exact hlast
    · rw [hpairt]
      exact hsame
  · rw [if_neg hlate] at hexec
    refine ⟨u, hexec, by rw [hpair]; rfl, ?_, ?_, by rw [hget, if_neg hlate], (absurd · hlate), only_mono hput.only (by simp) (by simp)⟩
    · rw [hpair]
      exact hlast
    · rw [hpair]
      exact hsame

/-- A SIG cell without its HEAD. -/
theorem sigRx_unknown (hlane : s.pairLane lane.val = true) (htrue : s.lanesTrue = true) (hok : cellOk cell = true) (hty : natLE (cell.take 1) = 2)
    (hheads : (s.pair.heads.all fun h => decide (h.cyc ≠ cellN cell 2 2)) = true) : ∃ t, exec (.sigRx lane cell) s = .next t ∧ t = s := by
  have hnone : (s.pair.heads.find? fun h => decide (h.cyc = cellN cell 2 2)) = none :=
    List.find?_eq_none.2 fun h hh => by simpa using List.all_eq_true.1 hheads h hh
  have hin : s.sigIn cell = s := by
    unfold State.sigIn
    rw [hnone]
  exact ⟨s, congrArg Host.Outcome.next ((cellIn_taken hlane htrue hok hty).trans hin), rfl⟩

/-- A SIG cell while signals are held, or not joined. -/
theorem sigRx_held (hlane : s.pairLane lane.val = true) (htrue : s.lanesTrue = true) (hok : cellOk cell = true) (hty : natLE (cell.take 1) = 2)
    (hheads : s.pair.heads = h :: rest) (hcyc : h.cyc = cellN cell 2 2) (hheld : s.pairJoined = false ∨ s.pairHeld = true) :
    ∃ t, exec (.sigRx lane cell) s = .next t ∧ t.pair.rx = s.pair.rx ∧ s.only [.pair] [] t := by
  have hstop : (!s.pairJoined || s.pairHeld) = true := by rcases hheld with h | h <;> simp [h]
  have hexec : exec (.sigRx lane cell) s = .next (s.sigIn cell) := congrArg Host.Outcome.next (cellIn_taken hlane htrue hok hty)
  unfold State.sigIn at hexec
  rw [find_head hheads hcyc] at hexec
  dsimp only at hexec
  by_cases hseen : (decide (5 < cellN cell 1 1) || bitAt h.seen (cellN cell 1 1)) = true
  · rw [if_pos hseen] at hexec
    exact ⟨s, hexec, rfl, only_refl ..⟩
  · rw [if_neg hseen] at hexec
    exact ⟨_, hexec.trans (congrArg Host.Outcome.next (if_pos hstop)), rfl, only_withPair _ s⟩

end Sig

end Sys2Proof.Machine
end

section
/-! PROOFS. PAIR's BULK cells: bodies put together and handed to FUS (R471): the statement of chapter 22 on them. -/

namespace Sys2Proof.Machine

section Place
variable {s t u : State} {link b off n tot k a : Nat} {cell data : List Byte} {r : Rasm}

/-- A cell's bytes in a receive buffer. -/
def State.bulkStored (link b off n : Nat) (data : List Byte) (s : State) : State := s.dramPuts (s.cviAddr link b + off) (data.take n)

theorem bulkPlace_part (htot : r.total = some tot) (hn : n = min 48 (tot - off)) (h : (r.grown off n).complete = false) :
    s.bulkPlace link b off r data = (s.bulkStored link b off n data).withPair { s.pair with bodies := tput s.pair.bodies (2 * link + b) (r.grown off n) } := by
  have hpart : ¬ (r.grown off n).complete = true := by rw [h]; decide
  obtain ⟨sweep, total, got⟩ := r
  cases htot
  subst hn
  exact if_neg hpart

theorem bulkPlace_whole (htot : r.total = some tot) (hn : n = min 48 (tot - off)) (h : (r.grown off n).complete = true) :
    s.bulkPlace link b off r data = (s.bulkStored link b off n data).bodyIn link b := by
  obtain ⟨sweep, total, got⟩ := r
  cases htot
  subst hn
  exact if_pos h

/-- The base of a link's first buffer. -/
theorem cviAddr_zero (k : Nat) (s : State) : s.cviAddr k 0 = s.get64 PAIR_CVI_BASE_LO PAIR_CVI_BASE_HI + 2 * 1024 * s.get PAIR_CVI_BUF.BUF_KB * k := by
  rw [State.cviAddr]
  ring

/-- A body's header in its first cell. -/
theorem bulkLen_eq (cell : List Byte) : natLE (((cell.drop 12).take 48).take 4) = cellN cell 12 4 := by
  rw [List.take_take]
  rfl

/-- The first cell of a body, with both buffers free. -/
theorem bulkIn_opens (hlink : cellN cell 1 1 = k) (hoff : cellN cell 8 4 = 0) (h0 : tget s.pair.bodies (2 * k) = none)
    (h1 : tget s.pair.bodies (2 * k + 1) = none) (hheld : s.fusHolds (s.cviAddr k 0) = false) (hsize : 1 ≤ s.get PAIR_CVI_BUF.BUF_KB) :
    s.bulkIn cell = s.bulkPlace k 0 0 { sweep := cellN cell 4 4, total := some (64 + 48 * cellN cell 12 4), got := [] } ((cell.drop 12).take 48) := by
  have hfit : ¬ 1024 * s.get PAIR_CVI_BUF.BUF_KB < 0 + min 48 ((some (64 + 48 * cellN cell 12 4)).getD (0 + 48) - 0) := by
    have := Nat.min_le_left 48 ((some (64 + 48 * cellN cell 12 4)).getD (0 + 48) - 0)
    omega
  unfold State.bulkIn
  simp only [hlink, hoff, if_true, bulkLen_eq, Nat.add_zero, h0, h1, List.find?_cons, List.find?_nil, Option.any_none, hheld, Bool.false_and,
    Option.isSome_none, Bool.false_or, Bool.false_eq_true, if_false, List.foldl_cons, List.foldl_nil]
  exact if_neg hfit

/-- A further cell of the body in the first buffer. -/
theorem bulkIn_grows (hlink : cellN cell 1 1 = k) (hoff : cellN cell 8 4 = off) (hpos : off ≠ 0) (h0 : tget s.pair.bodies (2 * k) = some r)
    (hsweep : r.sweep = cellN cell 4 4) (htot : r.total = some tot) (hin : off < tot) (hn : n = min 48 (tot - off))
    (hsize : off + n ≤ s.get PAIR_CVI_BUF.BUF_KB * 1024) : s.bulkIn cell = s.bulkPlace k 0 off r ((cell.drop 12).take 48) := by
  have hsome : r.total.isNone = false := by rw [htot]; rfl
  have hr : ({ sweep := cellN cell 4 4, total := r.total, got := r.got } : Rasm) = r := by rw [← hsweep]
  have hfit : ¬ (1024 * s.get PAIR_CVI_BUF.BUF_KB < off + min 48 (tot - off)) := by rw [← hn]; omega
  have hmore : ¬ min 48 (tot - off) = 0 := by omega
  unfold State.bulkIn
  simp only [hlink, hoff, if_neg hpos, Nat.add_zero, h0, List.find?_cons, Option.any_some, hsweep, decide_true, hsome, Bool.false_eq_true, if_false]
  refine (if_neg ?_).trans (by rw [hr])
  simp [htot, hfit, hmore]

/-- What a whole body leaves while bodies are held. -/
theorem bodyIn_held (hheld : s.pairHeld = true) : s.bodyIn k 0 = (s.withPair { s.pair with bodies := tdel s.pair.bodies (2 * k) }).cvDrop := if_pos hheld

/-- The body with its TOV made local. -/
def State.tovLocal (a : Nat) (s : State) : State := s.dramPutN (a + 8) 8 (s.ltcOfMt (s.dramN (a + 8) 8))

theorem bodyIn_taken (hheld : s.pairHeld = false) : s.bodyIn k 0 =
    ((s.withPair { s.pair with bodies := tdel s.pair.bodies (2 * k) }).tovLocal (s.cviAddr k 0)).fusFeed 6 k (s.cviAddr k 0) none :=
  if_neg (by
    change ¬ s.pairHeld = true
    simp [hheld])

theorem ltcOfMt_lt (s : State) (m : Nat) : s.ltcOfMt m < 2 ^ 64 := fromSigned_lt 64 _

/-- What the change of TOV leaves. -/
theorem tovLocal_shows (a : Nat) (s : State) : memNat (s.tovLocal a).dram (a + 8) 8 = s.ltcOfMt (memNat s.dram (a + 8) 8) ∧ s.dramKept (a + 8) 8 (s.tovLocal a) ∧
    s.only [.dram] [] (s.tovLocal a) := by
  have hlen := length_bytesLE 8 (s.ltcOfMt (s.dramN (a + 8) 8))
  have hbytes := memBytes_dramPuts (a + 8) (bytesLE 8 (s.ltcOfMt (s.dramN (a + 8) 8))) s
  have hkept := dramKept_dramPuts (a + 8) (bytesLE 8 (s.ltcOfMt (s.dramN (a + 8) 8))) s
  rw [hlen] at hbytes hkept
  refine ⟨?_, hkept, only_dramPuts ..⟩
  change natLE (memBytes (s.dramPuts (a + 8) _).dram (a + 8) 8) = _
  rw [hbytes, natLE_bytesLE]
  exact Nat.mod_eq_of_lt (ltcOfMt_lt ..)

end Place

section Bulk
variable {s t u : State} {link b off n tot k a : Nat} {cell data : List Byte} {r : Rasm} {lane : Fin 2}

/-- The cells already taken, with this one, in this cycle and the one before. -/
def State.bulkKept (cell : List Byte) (s : State) : PairState :=
  { s.pair with bulk := (cellN cell 2 2, cellN cell 1 1, cellN cell 4 4, cellN cell 8 4) ::
      s.pair.bulk.filter fun k => decide (k.1 = cellN cell 2 2) || decide ((k.1 + 1) % 65536 = cellN cell 2 2) }

theorem bulkRx_first (hlane : s.pairLane lane.val = true) (htrue : s.lanesTrue = true) (hok : cellOk cell = true) (hty : natLE (cell.take 1) = 3)
    (hjoin : s.pairJoined = true) (hlink : cellN cell 1 1 = k) (hk : k ≤ 7)
    (hnew : s.pair.bulk.contains (cellN cell 2 2, k, cellN cell 4 4, cellN cell 8 4) = false) :
    exec (.bulkRx lane cell) s = .next ((s.withPair (s.bulkKept cell)).bulkIn cell) := by
  refine congrArg Host.Outcome.next ((cellIn_taken hlane htrue hok hty).trans (if_neg ?_))
  rw [hlink, hjoin, hnew]
  simp
  omega

theorem length_cellData (hok : cellOk cell = true) : ((cell.drop 12).take 48).length = 48 := by
  simp only [cellOk, Bool.and_eq_true, decide_eq_true_eq] at hok
  rw [List.length_take, List.length_drop, hok.1]
  rfl

/-- The bytes of a cell in its buffer. -/
theorem bulkStored_shows (hdata : data.length = 48) (hn : n ≤ 48) (ha : s.cviAddr k 0 = a) : memBytes (s.bulkStored k 0 off n data).dram (a + off) n = data.take n ∧
    s.dramKept (a + off) n (s.bulkStored k 0 off n data) ∧ s.only [.dram] [] (s.bulkStored k 0 off n data) := by
  have hlen : (data.take n).length = n := by rw [List.length_take, hdata]; omega
  have hbytes := memBytes_dramPuts (a + off) (data.take n) s
  have hkept := dramKept_dramPuts (a + off) (data.take n) s
  rw [hlen] at hbytes hkept
  unfold State.bulkStored
  rw [ha]
  exact ⟨hbytes, hkept, only_dramPuts ..⟩

/-- The first cell of a body opens a buffer. -/
theorem bulkRx_opens (hlane : s.pairLane lane.val = true) (htrue : s.lanesTrue = true) (hok : cellOk cell = true) (hty : natLE (cell.take 1) = 3)
    (hjoin : s.pairJoined = true) (hlink : cellN cell 1 1 = k) (hk : k ≤ 7)
    (hnew : s.pair.bulk.contains (cellN cell 2 2, k, cellN cell 4 4, cellN cell 8 4) = false) (hoff : cellN cell 8 4 = 0)
    (h0 : tget s.pair.bodies (2 * k) = none) (h1 : tget s.pair.bodies (2 * k + 1) = none)
    (ha : a = s.get64 PAIR_CVI_BASE_LO PAIR_CVI_BASE_HI + 2 * 1024 * s.get PAIR_CVI_BUF.BUF_KB * k) (hheld : s.fusHolds a = false)
    (hsize : 1 ≤ s.get PAIR_CVI_BUF.BUF_KB) : ∃ t, exec (.bulkRx lane cell) s = .next t ∧
      t.pair.bodies = tput s.pair.bodies (2 * k) { sweep := cellN cell 4 4, total := some (64 + 48 * cellN cell 12 4), got := [(0, 48)] } ∧
      memBytes t.dram a 48 = (cell.drop 12).take 48 ∧ s.dramKept a 48 t ∧ s.only [.dram, .pair] [] t := by
  have hexec := bulkRx_first hlane htrue hok hty hjoin hlink hk hnew
  have hkeep := only_withPair (s.bulkKept cell) s
  have hbodies : (s.withPair (s.bulkKept cell)).pair.bodies = s.pair.bodies := rfl
  have haddr : (s.withPair (s.bulkKept cell)).cviAddr k 0 = a := (cviAddr_zero k s).trans ha.symm
  have hholds : (s.withPair (s.bulkKept cell)).fusHolds a = false := hheld
  have hkb : 1 ≤ (s.withPair (s.bulkKept cell)).get PAIR_CVI_BUF.BUF_KB := hsize
  generalize s.withPair (s.bulkKept cell) = u at hexec hkeep hbodies haddr hholds hkb
  rw [bulkIn_opens hlink hoff (by rw [hbodies, h0]) (by rw [hbodies, h1]) (by rw [haddr, hholds]) hkb,
    bulkPlace_part (tot := 64 + 48 * cellN cell 12 4) (n := 48) rfl (by omega) (complete_first (by omega) (by omega))] at hexec
  obtain ⟨hbytes, hkept, honly⟩ := bulkStored_shows (off := 0) (length_cellData hok) (le_refl 48) haddr
  have hdram : u.dram = s.dram := hkeep.1 .dram (by simp)
  rw [List.take_take, Nat.min_self] at hbytes
  refine ⟨_, hexec, by rw [pair_withPair, ← hbodies]; rfl, hbytes, fun x hx => ?_, only_mono (only_seq (only_seq hkeep honly) (only_withPair _ _)) (by simp) (by simp)⟩
  exact (hkept x hx).trans (by rw [hdram])

/-- The last cell of a body, before the body is handed on. -/
theorem bulkRx_whole (hlane : s.pairLane lane.val = true) (htrue : s.lanesTrue = true) (hok : cellOk cell = true) (hty : natLE (cell.take 1) = 3)
    (hjoin : s.pairJoined = true) (hlink : cellN cell 1 1 = k) (hk : k ≤ 7)
    (hnew : s.pair.bulk.contains (cellN cell 2 2, k, cellN cell 4 4, cellN cell 8 4) = false) (hoff : cellN cell 8 4 = off) (hpos : 16 ≤ off)
    (h0 : tget s.pair.bodies (2 * k) = some r) (hsweep : r.sweep = cellN cell 4 4) (htot : r.total = some tot) (hin : off < tot) (hn : n = min 48 (tot - off))
    (hsize : off + n ≤ s.get PAIR_CVI_BUF.BUF_KB * 1024) (hwhole : (r.grown off n).complete = true)
    (ha : a = s.get64 PAIR_CVI_BASE_LO PAIR_CVI_BASE_HI + 2 * 1024 * s.get PAIR_CVI_BUF.BUF_KB * k) :
    ∃ u, exec (.bulkRx lane cell) s = .next (u.bodyIn k 0) ∧ memBytes u.dram (a + off) n = ((cell.drop 12).take 48).take n ∧ s.dramKept (a + off) n u ∧
      s.only [.dram, .pair] [] u ∧ u.pair = s.bulkKept cell := by
  have hexec := bulkRx_first hlane htrue hok hty hjoin hlink hk hnew
  have hkeep := only_withPair (s.bulkKept cell) s
  have hpair : (s.withPair (s.bulkKept cell)).pair = s.bulkKept cell := rfl
  have hbodies : (s.withPair (s.bulkKept cell)).pair.bodies = s.pair.bodies := rfl
  have haddr : (s.withPair (s.bulkKept cell)).cviAddr k 0 = a := (cviAddr_zero k s).trans ha.symm
  have hkb : off + n ≤ (s.withPair (s.bulkKept cell)).get PAIR_CVI_BUF.BUF_KB * 1024 := hsize
  generalize s.withPair (s.bulkKept cell) = u at hexec hkeep hpair hbodies haddr hkb
  rw [bulkIn_grows hlink hoff (by omega) (by rw [hbodies, h0]) hsweep htot hin hn hkb, bulkPlace_whole htot hn hwhole] at hexec
  obtain ⟨hbytes, hkept, honly⟩ := bulkStored_shows (off := off) (n := n) (length_cellData hok) (by omega) haddr
  have hdram : u.dram = s.dram := hkeep.1 .dram (by simp)
  exact ⟨_, hexec, hbytes, fun x hx => (hkept x hx).trans (by rw [hdram]), only_mono (only_seq hkeep honly) (by simp) (by simp),
    (pair_of_only honly (by simp)).trans hpair⟩

/-- What FUS gets of a whole body. -/
theorem bodyIn_feeds (hon : s.only [.dram, .pair] [] u) (hpair : u.pair = s.bulkKept cell) (hheld : s.pairHeld = false)
    (ha : a = s.get64 PAIR_CVI_BASE_LO PAIR_CVI_BASE_HI + 2 * 1024 * s.get PAIR_CVI_BUF.BUF_KB * k) : ∃ t, u.bodyIn k 0 = t ∧
      t.pair.bodies = tdel s.pair.bodies (2 * k) ∧ memNat t.dram (a + 8) 8 = s.ltcOfMt (memNat u.dram (a + 8) 8) ∧ u.dramKept (a + 8) 8 t ∧
      t.fus = s.fedFus 6 k a none ∧ s.only [.dram, .pair, .fus] [] t := by
  have hget (f : Fld) : u.get f = s.get f := hon.2.1 f (by simp)
  have hbase : u.get64 PAIR_CVI_BASE_LO PAIR_CVI_BASE_HI = s.get64 PAIR_CVI_BASE_LO PAIR_CVI_BASE_HI :=
    get64_congr _ _ (reg_of_addrs hon (by simp)) (reg_of_addrs hon (by simp))
  have haddr : u.cviAddr k 0 = a := by rw [cviAddr_zero, hbase, hget, ha]
  have hheldu : u.pairHeld = false := by
    rw [State.pairHeld, getB_of_get (hget PAIR_STAT.UNTRUST), hpair]
    exact hheld
  have hfus : u.fus = s.fus := hon.1 .fus (by simp)
  rw [bodyIn_taken hheldu, haddr]
  have hgone := only_withPair { u.pair with bodies := tdel u.pair.bodies (2 * k) } u
  have hbodies : (u.withPair { u.pair with bodies := tdel u.pair.bodies (2 * k) }).pair.bodies = tdel s.pair.bodies (2 * k) := by
    rw [pair_withPair, hpair]
    rfl
  generalize u.withPair { u.pair with bodies := tdel u.pair.bodies (2 * k) } = v at hgone hbodies
  obtain ⟨htov, hkept, honly⟩ := tovLocal_shows a v
  have hmt := ltcOfMt_of_only (m := memNat u.dram (a + 8) 8) (only_seq hon hgone) (by simp)
  have hdramv : v.dram = u.dram := hgone.1 .dram (by simp)
  generalize v.tovLocal a = w at htov hkept honly
  obtain ⟨hfeed, hfed⟩ := fusFeed_shows 6 k a none w
  have hfusw : w.fus = s.fus := (honly.1 .fus (by simp)).trans ((hgone.1 .fus (by simp)).trans hfus)
  have hfedw : w.fedFus 6 k a none = s.fedFus 6 k a none := by
    unfold State.fedFus State.fedSource
    rw [hfusw]
  generalize w.fusFeed 6 k a none = t at hfeed hfed
  have hdram : t.dram = w.dram := hfeed.1 .dram (by simp)
  refine ⟨t, rfl, ?_, ?_, fun x hx => ?_, hfed.trans hfedw, only_mono (only_seq (only_seq (only_seq hon hgone) honly) hfeed) (by simp) (by simp)⟩
  · rw [pair_of_only hfeed (by simp), pair_of_only honly (by simp), hbodies]
  · rw [hdram, htov, hdramv, hmt]
  · rw [hdram, hkept x hx, hdramv]

/-- The last cell of a body hands it to FUS, or drops it while bodies are held. -/
theorem bulkRx_ends (hlane : s.pairLane lane.val = true) (htrue : s.lanesTrue = true) (hok : cellOk cell = true) (hty : natLE (cell.take 1) = 3)
    (hjoin : s.pairJoined = true) (hlink : cellN cell 1 1 = k) (hk : k ≤ 7)
    (hnew : s.pair.bulk.contains (cellN cell 2 2, k, cellN cell 4 4, cellN cell 8 4) = false) (hoff : cellN cell 8 4 = off) (hpos : 16 ≤ off)
    (h0 : tget s.pair.bodies (2 * k) = some r) (hsweep : r.sweep = cellN cell 4 4) (htot : r.total = some tot) (hin : off < tot) (hn : n = min 48 (tot - off))
    (hsize : off + n ≤ s.get PAIR_CVI_BUF.BUF_KB * 1024) (hwhole : (r.grown off n).complete = true)
    (ha : a = s.get64 PAIR_CVI_BASE_LO PAIR_CVI_BASE_HI + 2 * 1024 * s.get PAIR_CVI_BUF.BUF_KB * k) :
    ∃ t, exec (.bulkRx lane cell) s = .next t ∧ t.pair.bodies = tdel s.pair.bodies (2 * k) ∧ memBytes t.dram (a + off) n = ((cell.drop 12).take 48).take n ∧
      (s.pairHeld = false → memNat t.dram (a + 8) 8 = s.ltcOfMt (memNat s.dram (a + 8) 8) ∧
        t.fus = (if (s.fedSource 6 k).isSome = true then
          { s.fus with inbox := s.fus.inbox ++ [{ kind := 6, link := k, addr := a, tov := none }] } else s.fus) ∧
        s.only [.dram, .pair, .fus] [] t) ∧
      (∀ c, (c < a + 8 ∨ a + 16 ≤ c) → (c < a + off ∨ a + off + n ≤ c) → memByte t.dram c = memByte s.dram c) ∧
      (s.pairHeld = true → t.get PAIR_CNT.CV_DROP = min 65535 (s.get PAIR_CNT.CV_DROP + 1) ∧ s.raised 317 t ∧ s.dramKept (a + off) n t ∧
        s.only [.dram, .pair, .rcd, .cyc] (PAIR_CNT.CV_DROP :: raiseFlds 317) t) := by
  obtain ⟨u, hexec, hbytes, hkept, honly, hpair⟩ := bulkRx_whole hlane htrue hok hty hjoin hlink hk hnew hoff hpos h0 hsweep htot hin hn hsize hwhole ha
  cases hheld : s.pairHeld with
  | false =>
    obtain ⟨t, ht, hbodies, htov, htkept, hfus, htonly⟩ := bodyIn_feeds honly hpair hheld ha
    rw [ht] at hexec
    have hbefore : memNat u.dram (a + 8) 8 = memNat s.dram (a + 8) 8 := memNat_of_dramKept hkept (.inl (by omega))
    refine ⟨t, hexec, hbodies, ?_, fun _ => ⟨by rw [htov, hbefore], hfus, htonly⟩, fun c hc hc' => (htkept c hc).trans (hkept c hc'), fun h => Bool.noConfusion h⟩
    rw [memBytes_of_dramKept htkept (.inr (by omega)), hbytes]
  | true =>
    have hheldu : u.pairHeld = true := by
      rw [State.pairHeld, getB_of_get (honly.2.1 PAIR_STAT.UNTRUST (by simp)), hpair]
      exact hheld
    rw [bodyIn_held hheldu, hpair] at hexec
    have hgone := ran_of_only (only_seq honly (only_withPair { s.bulkKept cell with bodies := tdel (s.bulkKept cell).bodies (2 * k) } u)) (by simp) (by simp)
    have hbodies : (u.withPair { s.bulkKept cell with bodies := tdel (s.bulkKept cell).bodies (2 * k) }).pair.bodies = tdel s.pair.bodies (2 * k) := rfl
    have hdram : (u.withPair { s.bulkKept cell with bodies := tdel (s.bulkKept cell).bodies (2 * k) }).dram = u.dram := rfl
    generalize u.withPair { s.bulkKept cell with bodies := tdel (s.bulkKept cell).bodies (2 * k) } = v at hexec hgone hbodies hdram
    obtain ⟨hdrop, hcount, hraised⟩ := cvDrop_shows v
    have hcv : v.get PAIR_CNT.CV_DROP = s.get PAIR_CNT.CV_DROP := hgone.only.2.1 _ (by simp)
    generalize v.cvDrop = t at hexec hdrop hcount hraised
    have hdramt : t.dram = u.dram := (hdrop.only.1 .dram (by simp)).trans hdram
    refine ⟨t, hexec, by rw [pair_of_only hdrop.only (by simp), hbodies], by rw [hdramt, hbytes], fun h => Bool.noConfusion h,
      fun c _ hc => by rw [hdramt, hkept c hc], fun _ => ⟨by rw [hcount, hcv], hgone.evt.raised_second hdrop.evt (by decide) hraised,
        dramKept_then hkept hdramt.symm, only_mono (only_seq hgone.only hdrop.only) (by simp) (by simp)⟩⟩

end Bulk

end Sys2Proof.Machine
end

section
/-! PROOFS. PAIR's BODY_SEND and its end (R470): the statement of chapter 22 on them. -/

namespace Sys2Proof.Machine

section Send
variable {s t u : State} {k a len : Nat} {e : Entry} {c : Cmd} {ring : Fin 1} {x : Taken} {y : PairSend} {rest : List PairSend}

/-- A body to be sent. -/
def State.bodyOf (s : State) (id link a len : Nat) : PairSend :=
  { id := id, link := link, addr := a, body := tgetD s.pair.bodyNo link 0 + 1, len := len, mt := fromSigned 64 (s.mtAt (memNat s.dram (a + 8) 8)), pos := 0 }

/-- PAIR's facts with a body queued. -/
def State.bodyQueued (s : State) (id link a len : Nat) : PairState :=
  { s.pair with sends := s.pair.sends ++ [s.bodyOf id link a len], bodyNo := tput s.pair.bodyNo link ((tgetD s.pair.bodyNo link 0 + 1) % 2 ^ 32) }

/-- A BODY_SEND with no code of R470. -/
theorem opBodySend_eq (htrue : s.lanesTrue = true) (hk : c.arg 16 1 = k) (ha : c.arg 24 8 = a) (hle : k ≤ 7) (halign : a % 64 = 0)
    (hlen : len = 64 + 48 * memNat s.dram a 4) (hin : s.inWins 0x10 a len = true) (hhead : s.inWins 0x10 a 64 = true) :
    opBodySend c s = if s.pairJoined then s.withPair (s.bodyQueued c.id k a len) else c.finish 0x0D s := by
  subst hlen
  have hgood : ¬ (decide (7 < k) || decide (a % 64 ≠ 0) || !s.inWins 0x10 a 64 || !s.inWins 0x10 a (64 + 48 * s.dramN a 4)) = true := by
    have hin' : s.inWins 0x10 a (64 + 48 * s.dramN a 4) = true := hin
    rw [hin', hhead, halign]
    simpa using hle
  unfold opBodySend
  dsimp only
  rw [laneSweep_true htrue, hk, ha, if_neg hgood]
  cases s.pairJoined <;> rfl

theorem bodySend_runs (hready : s.ready 0x10 0 0 e) (htrue : s.lanesTrue = true) (hk : (s.cmdOf 0x10 0 e).arg 16 1 = k)
    (ha : (s.cmdOf 0x10 0 e).arg 24 8 = a) (hle : k ≤ 7) (halign : a % 64 = 0) (hlen : len = 64 + 48 * memNat s.dram a 4)
    (hin : s.inWins 0x10 a len = true) (hhead : s.inWins 0x10 a 64 = true) : exec (.bodySend 0 e) s = .next
      (if s.pairJoined then (s.entryTaken 0x10 0 1 e).withPair (s.bodyQueued (s.ring 0x10 0).nextId k a len)
        else (s.cmdOf 0x10 0 e).finish 0x0D (s.entryTaken 0x10 0 1 e)) :=
  congrArg Host.Outcome.next ((runRow_runs hready rfl opBodySend).trans
    (opBodySend_eq (s := s.entryTaken 0x10 0 1 e) htrue hk ha hle halign hlen hin hhead))

theorem bodySend_queues (hready : s.ready 0x10 ring.val 0 e) (htrue : s.lanesTrue = true) (hk : (s.cmdOf 0x10 ring.val e).arg 16 1 = k)
    (ha : (s.cmdOf 0x10 ring.val e).arg 24 8 = a) (hle : k ≤ 7) (halign : a % 64 = 0) (hlen : len = 64 + 48 * memNat s.dram a 4)
    (hin : s.inWins 0x10 a len = true) (hhead : s.inWins 0x10 a 64 = true) (hjoin : s.pairJoined = true) :
    ∃ t, exec (.bodySend ring e) s = .next t ∧ s.started 0x10 ring.val 1 e t ∧ t.pair = s.bodyQueued (s.ring 0x10 ring.val).nextId k a len ∧
      s.only [.rings, .pair] [] t := by
  obtain rfl : ring = 0 := Subsingleton.elim _ _
  change s.ready 0x10 0 0 e at hready
  have hexec := bodySend_runs hready htrue hk ha hle halign hlen hin hhead
  rw [hjoin, if_pos rfl] at hexec
  have hput := only_withPair (s.bodyQueued (s.ring 0x10 0).nextId k a len) (s.entryTaken 0x10 0 1 e)
  exact ⟨_, hexec, started_of_only (idle_of_ready hready) hput (by simp), rfl, only_mono (only_seq (only_entryTaken) hput) (by simp) (by simp)⟩

theorem bodySend_unjoined (hready : s.ready 0x10 ring.val 0 e) (htrue : s.lanesTrue = true) (hk : (s.cmdOf 0x10 ring.val e).arg 16 1 = k)
    (ha : (s.cmdOf 0x10 ring.val e).arg 24 8 = a) (hle : k ≤ 7) (halign : a % 64 = 0) (hlen : len = 64 + 48 * memNat s.dram a 4)
    (hin : s.inWins 0x10 a len = true) (hhead : s.inWins 0x10 a 64 = true) (hjoin : s.pairJoined = false) :
    ∃ t, exec (.bodySend ring e) s = .next t ∧ s.completed 0x10 ring.val e 0x0D e.handle.toNat t ∧ s.dramKept (s.complAddr 0x10 ring.val) 16 t ∧
      s.only [.dram, .rings, .rcd, .cyc] (complFlds 0x10 ring.val) t := by
  obtain rfl : ring = 0 := Subsingleton.elim _ _
  change s.ready 0x10 0 0 e at hready
  have hexec := bodySend_runs hready htrue hk ha hle halign hlen hin hhead
  rw [hjoin, if_neg Bool.false_ne_true] at hexec
  obtain ⟨hdone, hkept, honly⟩ := ends_behind (code := 0x0D) (h := e.handle.toNat) (ring_lt_of_ready hready) (idle_of_ready hready) (by decide)
    (only_refl (s.entryTaken 0x10 0 1 e) [] []) (by simp) (by simp) (by simp) (by simp [offRing])
  exact ⟨_, hexec, hdone, hkept, only_mono honly (by simp) (by simp)⟩

/-- The last cell of the oldest body has left. -/
theorem bodySendDone_ends (hs : s.pair.sends = y :: rest) (hpos : y.len ≤ y.pos) (hid : y.id = x.id) (htaken : (s.ring 0x10 0).taken = [x]) :
    ∃ t, exec .bodySendDone s = .next t ∧ s.ended 0x10 0 x 0x00 x.handle t ∧ s.dramKept (s.complAddr 0x10 0) 16 t ∧
      t.pair = { s.pair with sends := rest } ∧ s.only [.dram, .rings, .pair, .rcd, .cyc] (complFlds 0x10 0) t := by
  have hexec : exec .bodySendDone s = .next ((s.withPair { s.pair with sends := rest }).completeSelf 0x10 0 x.id 0x00) := by
    change execBodySendDone s = _
    rw [execBodySendDone, hs, ← hid]
    exact congrArg Host.Outcome.next (if_pos hpos)
  obtain ⟨hended, hkept, honly⟩ := selfEnds (b := 0x10) (r := 0) (code := 0x00) (by decide) (by decide) htaken
    (only_withPair { s.pair with sends := rest } s) (by simp) (by simp) (by simp) (by simp [offRing])
  exact ⟨_, hexec, hended, hkept, completeSelf_pair .., only_mono honly (by simp) (by simp)⟩

end Send

end Sys2Proof.Machine
end

section
/-! PROOFS. Cells as bytes: what stands in a sealed cell (R462, Tables 22-1 to 22-3): a layer for the statement of chapter 22 on PAIR_CYCLE. -/

namespace Sys2Proof.Machine

/-! ### Bytes of cells -/

section Bytes
variable {a b : List Byte} {o n v : Nat}

@[simp] theorem cellN_append_left (h : o + n ≤ a.length) : cellN (a ++ b) o n = cellN a o n := by
  rw [cellN, cellN, List.drop_append_of_le_length (by omega), List.take_append_of_le_length (by rw [List.length_drop]; omega)]

@[simp] theorem cellN_append_right (h : a.length ≤ o) : cellN (a ++ b) o n = cellN b (o - a.length) n := by
  rw [cellN, cellN, List.drop_append, List.drop_eq_nil_of_le h, List.nil_append]

@[simp] theorem cellN_bytesLE (n v : Nat) : cellN (bytesLE n v) 0 n = v % 256 ^ n := by
  rw [cellN, List.drop_zero, List.take_of_length_le (by rw [length_bytesLE]), natLE_bytesLE]

end Bytes

/-! ### CRC-32 -/

section Crc

theorem crc32Bit_lt {c : Nat} (h : c < 2 ^ 32) : crc32Bit c < 2 ^ 32 := by
  unfold crc32Bit
  split
  · exact Nat.xor_lt_two_pow (by omega) (by decide)
  · omega

theorem crc32Byte_lt {c : Nat} (h : c < 2 ^ 32) (b : Byte) : (List.range 8).foldl (fun c _ => crc32Bit c) (c ^^^ b.toNat) < 2 ^ 32 := by
  have hx : c ^^^ b.toNat < 2 ^ 32 := Nat.xor_lt_two_pow h (by have := b.isLt; omega)
  generalize c ^^^ b.toNat = x at hx
  induction List.range 8 generalizing x with
  | nil => exact hx
  | cons _ l ih => exact ih _ (crc32Bit_lt hx)

theorem crc32_lt (l : List Byte) : crc32 l < 2 ^ 32 := by
  have hfold (c : Nat) (hc : c < 2 ^ 32) : l.foldl (fun c b => (List.range 8).foldl (fun c _ => crc32Bit c) (c ^^^ b.toNat)) c < 2 ^ 32 := by
    induction l generalizing c with
    | nil => exact hc
    | cons b l ih => exact ih _ (crc32Byte_lt hc b)
  exact Nat.xor_lt_two_pow (hfold _ (by decide)) (by decide)

/-- A sealed cell is a valid copy with its bytes. -/
structure Sealed (c body : List Byte) : Prop where
  len : c.length = 64
  crc : natLE (c.drop 60) = crc32 (c.take 60)
  field : ∀ o n, o + n ≤ 60 → cellN c o n = cellN body o n

theorem sealed_sealCell {body : List Byte} (h : body.length = 60) : Sealed (sealCell body) body := by
  refine ⟨by simp [sealCell, h, length_bytesLE], ?_, fun o n hn => cellN_append_left (by omega)⟩
  rw [sealCell, List.drop_left' h, List.take_left' h, natLE_bytesLE]
  exact Nat.mod_eq_of_lt (crc32_lt body)

end Crc

/-! ### Values and their bits -/

section Bits
variable {l : List (Option Nat)} {i : Nat}

/-- VALID of a list of values. -/
def validBits (l : List (Option Nat)) : Nat := l.foldr (fun o m => 2 * m + b2n o.isSome) 0

theorem b2n_lt (b : Bool) : b2n b < 2 := by cases b <;> decide

theorem bitAt_validBits (l : List (Option Nat)) (i : Nat) : bitAt (validBits l) i = ((l[i]?).getD none).isSome := by
  induction l generalizing i with
  | nil => simp [validBits, bitAt]
  | cons o l ih =>
    have hb := b2n_lt o.isSome
    change bitAt (2 * validBits l + b2n o.isSome) i = _
    cases i with
    | zero =>
      have hlow : (2 * validBits l + b2n o.isSome) % 2 = b2n o.isSome := by omega
      rw [bitAt, Nat.pow_zero, Nat.div_one, hlow]
      cases o <;> rfl
    | succ i =>
      have hhigh : (2 * validBits l + b2n o.isSome) / 2 = validBits l := by omega
      rw [bitAt, Nat.pow_succ', ← Nat.div_div_eq_div_mul, hhigh]
      exact ih i

theorem validBits_lt (l : List (Option Nat)) : validBits l < 2 ^ l.length := by
  induction l with
  | nil => decide
  | cons o l ih =>
    have hb := b2n_lt o.isSome
    change 2 * validBits l + b2n o.isSome < 2 ^ (l.length + 1)
    rw [Nat.pow_succ]
    omega

theorem validBits_none (h : ∀ o ∈ l, o = none) : validBits l = 0 := by
  induction l with
  | nil => rfl
  | cons o l ih =>
    change 2 * validBits l + b2n o.isSome = 0
    rw [h o List.mem_cons_self, ih fun o' h' => h o' (List.mem_cons_of_mem _ h')]
    rfl

/-- The values of a SIG cell as bytes. -/
def valueBytes (l : List (Option Nat)) : List Byte := l.flatMap fun o => bytesLE 4 (o.getD 0)

@[simp] theorem length_valueBytes (l : List (Option Nat)) : (valueBytes l).length = 4 * l.length := by
  simp [valueBytes, List.length_flatMap, length_bytesLE, Nat.mul_comm]

theorem cellN_valueBytes (h : i < l.length) : cellN (valueBytes l) (4 * i) 4 = ((l[i]?).getD none).getD 0 % 2 ^ 32 := by
  induction l generalizing i with
  | nil => simp at h
  | cons o l ih =>
    change cellN (bytesLE 4 (o.getD 0) ++ valueBytes l) (4 * i) 4 = _
    cases i with
    | zero =>
      rw [cellN_append_left (by simp [length_bytesLE]), Nat.mul_zero, cellN_bytesLE]
      rfl
    | succ i =>
      rw [cellN_append_right (by simp only [length_bytesLE]; omega), length_bytesLE, show 4 * (i + 1) - 4 = 4 * i by omega, ih (by simpa using h)]
      rfl

end Bits

end Sys2Proof.Machine
end

section
/-! PROOFS. The HEAD, SIG and BULK cells that a cycle makes (Tables 22-1 to 22-3): a layer for the statement of chapter 22 on PAIR_CYCLE. -/

namespace Sys2Proof.Machine

section Made
variable {s : State} {echo : Nat × Nat} {j b n : Nat} {x : PairSend}

/-! ### HEAD -/

/-- ROLE, JOINED and MT_TRUST of a HEAD. -/
def State.headFlags (s : State) : Nat := s.get PAIR_CFG.ROLE + 2 * b2n s.pairJoined + 4 * b2n (!s.getB PAIR_STAT.UNTRUST)

/-- The state of the safety field. -/
def State.headSafe (s : State) : Nat := b2n s.safSendsStop + 2 * b2n s.saf.degFrom.isSome

/-- The identity of the structure as bytes. -/
def State.identBytes (s : State) : List Byte := (List.range 4).flatMap fun i => bytesLE 4 (s.reg (STR_IDENT i)).toNat

@[simp] theorem length_identBytes (s : State) : s.identBytes.length = 16 := by
  simp [State.identBytes, length_bytesLE, List.range, List.range.loop]

/-- The bytes of a HEAD before its CRC. -/
def State.headBody (s : State) (echo : Nat × Nat) : List Byte :=
  bytesLE 1 1 ++ bytesLE 1 s.headFlags ++ bytesLE 2 s.pair.cyc ++ s.identBytes ++ bytesLE 8 (s.manN s.nv.active 8 8) ++ bytesLE 8 (s.manN s.nv.active 16 8) ++
    bytesLE 8 (fromSigned 64 s.mtNow) ++ bytesLE 1 s.headSafe ++ bytesLE 1 s.pair.sseq ++ bytesLE 2 0 ++ bytesLE 4 (s.safScrc s.headSafe s.pair.sseq 0) ++
    bytesLE 2 echo.1 ++ bytesLE 4 echo.2 ++ bytesLE 2 0

theorem headCell_eq (s : State) (echo : Nat × Nat) : s.headCell echo = sealCell (s.headBody echo) := rfl

theorem length_headBody (s : State) (echo : Nat × Nat) : (s.headBody echo).length = 60 := by
  simp [State.headBody, length_bytesLE]

theorem headFlags_lt (s : State) : s.headFlags < 8 := by
  have hrole : s.get PAIR_CFG.ROLE < 2 := Nat.mod_lt _ (by decide)
  have hj := b2n_lt s.pairJoined
  have hu := b2n_lt (!s.getB PAIR_STAT.UNTRUST)
  unfold State.headFlags
  omega

/-- What stands in a HEAD. -/
structure HeadMade (s : State) (echo : Nat × Nat) (c : List Byte) : Prop where
  len : c.length = 64
  crc : natLE (c.drop 60) = crc32 (c.take 60)
  type : cellN c 0 1 = 1
  flags : cellN c 1 1 = s.headFlags
  cyc : cellN c 2 2 = s.pair.cyc % 65536
  mt : cellN c 36 8 = fromSigned 64 s.mtNow
  sseq : cellN c 45 1 = s.pair.sseq % 256
  echoCyc : cellN c 52 2 = echo.1 % 2 ^ 16
  echoRes : cellN c 54 4 = echo.2 % 2 ^ 32

theorem headCell_made (s : State) (echo : Nat × Nat) : HeadMade s echo (s.headCell echo) := by
  rw [headCell_eq]
  have hseal := sealed_sealCell (length_headBody s echo)
  have hflags := headFlags_lt s
  have hmt := fromSigned_lt 64 s.mtNow
  refine ⟨hseal.len, hseal.crc, ?_, ?_, ?_, ?_, ?_, ?_, ?_⟩
  all_goals rw [hseal.field _ _ (by decide)]
  · simp [State.headBody, length_bytesLE]
  · simp [State.headBody, length_bytesLE]
    omega
  · simp [State.headBody, length_bytesLE]
  · simp [State.headBody, length_bytesLE]
    omega
  · simp [State.headBody, length_bytesLE]
  · simp [State.headBody, length_bytesLE]
  · simp [State.headBody, length_bytesLE]

/-! ### SIG -/

/-- The values of SIG cell `j`. -/
def State.sigValues (s : State) (j : Nat) : List (Option Nat) :=
  (List.range 12).map fun b => if 12 * j + b < 64 then s.sigOut (12 * j + b) else none

@[simp] theorem length_sigValues (s : State) (j : Nat) : (s.sigValues j).length = 12 := by simp [State.sigValues]

/-- The bytes of a SIG cell before its CRC. -/
def State.sigBody (s : State) (j : Nat) : List Byte :=
  bytesLE 1 2 ++ bytesLE 1 j ++ bytesLE 2 s.pair.cyc ++ bytesLE 2 (validBits (s.sigValues j)) ++ bytesLE 2 0 ++ valueBytes (s.sigValues j) ++ bytesLE 4 0

theorem sigCell_eq (s : State) (j : Nat) : s.sigCell j = sealCell (s.sigBody j) := rfl

theorem length_sigBody (s : State) (j : Nat) : (s.sigBody j).length = 60 := by
  simp [State.sigBody, length_bytesLE]

/-- What stands in a SIG cell. -/
structure SigMade (s : State) (j : Nat) (c : List Byte) : Prop where
  len : c.length = 64
  crc : natLE (c.drop 60) = crc32 (c.take 60)
  type : cellN c 0 1 = 2
  index : cellN c 1 1 = j % 256
  cyc : cellN c 2 2 = s.pair.cyc % 65536
  valid : cellN c 4 2 = validBits (s.sigValues j)
  value : ∀ b, b < 12 → cellN c (8 + 4 * b) 4 = (((s.sigValues j)[b]?).getD none).getD 0 % 2 ^ 32

theorem sigCell_made (s : State) (j : Nat) : SigMade s j (s.sigCell j) := by
  rw [sigCell_eq]
  have hseal := sealed_sealCell (length_sigBody s j)
  have hvalid : validBits (s.sigValues j) < 4096 := by
    have := validBits_lt (s.sigValues j)
    rwa [length_sigValues] at this
  refine ⟨hseal.len, hseal.crc, ?_, ?_, ?_, ?_, fun b hb => ?_⟩
  all_goals rw [hseal.field _ _ (by omega)]
  · simp [State.sigBody, length_bytesLE]
  · simp [State.sigBody, length_bytesLE]
  · simp [State.sigBody, length_bytesLE]
  · simp [State.sigBody, length_bytesLE]
    omega
  · rw [State.sigBody, cellN_append_left (by simp [length_bytesLE]; omega),
      cellN_append_right (by simp [length_bytesLE])]
    rw [← cellN_valueBytes (by rw [length_sigValues]; exact hb)]
    exact congrArg (cellN _ · 4) (by simp [length_bytesLE])

/-- A value that a SIG cell shows. -/
theorem sigValues_get (hb : b < 12) : ((s.sigValues j)[b]?).getD none = if 12 * j + b < 64 then s.sigOut (12 * j + b) else none := by
  rw [State.sigValues, List.getElem?_map, List.getElem?_range hb]
  rfl

theorem sigOut_unjoined (h : s.pairJoined = false) (i : Nat) : s.sigOut i = none := by simp [State.sigOut, h]

theorem sigValues_unjoined (h : s.pairJoined = false) (j : Nat) : validBits (s.sigValues j) = 0 := by
  refine validBits_none fun o ho => ?_
  obtain ⟨b, -, rfl⟩ := List.mem_map.1 ho
  split
  · exact sigOut_unjoined h _
  · rfl

/-- The value of a signal in service. -/
theorem sigOut_some {i l v : Nat} (hjoin : s.pairJoined = true) (hen : s.getB (PAIR_SIGO.EN i) = true)
    (happlied : ((tget s.cle.slots (s.get (PAIR_SIGO.SLOT i))).all fun c => decide (c.applied ≠ 0)) = true)
    (hlatest : latestAt (tgetD s.cle.hist (s.get (PAIR_SIGO.SLOT i)) []) 2000 s.now = some (l, v)) : s.sigOut i = some v := by
  have hnone : ((tget s.cle.slots (s.get (PAIR_SIGO.SLOT i))).any fun c => decide (c.applied = 0)) = false := by
    cases hslot : tget s.cle.slots (s.get (PAIR_SIGO.SLOT i)) with
    | none => rfl
    | some c => simpa [hslot] using happlied
  unfold State.sigOut
  dsimp only
  rw [hjoin, hen, hnone, hlatest]
  rfl

/-! ### BULK -/

/-- The bytes of a later BULK cell before its CRC. -/
def State.bulkBody (s : State) (x : PairSend) (raw : List Byte) : List Byte :=
  bytesLE 1 3 ++ bytesLE 1 x.link ++ bytesLE 2 s.pair.cyc ++ bytesLE 4 x.body ++ bytesLE 4 x.pos ++ raw ++ List.replicate (48 - raw.length) 0#8

theorem bulkCell_later (hpos : 0 < x.pos) :
    s.bulkCell x = sealCell (s.bulkBody x (memBytes s.dram (x.addr + x.pos) (min 48 (x.len - x.pos)))) := by
  unfold State.bulkCell
  dsimp only
  rw [if_neg (by omega)]
  rfl

/-- What stands in a later BULK cell. -/
structure BulkMade (x : PairSend) (raw : List Byte) (c : List Byte) : Prop where
  type : cellN c 0 1 = 3
  link : cellN c 1 1 = x.link % 256
  body : cellN c 4 4 = x.body % 2 ^ 32
  pos : cellN c 8 4 = x.pos % 2 ^ 32
  data : (c.drop 12).take 48 = raw ++ List.replicate (48 - raw.length) 0#8

theorem bulkCell_made (hpos : 0 < x.pos) (hn : n = x.len - x.pos) (h48 : n ≤ 48) :
    BulkMade x (memBytes s.dram (x.addr + x.pos) n) (s.bulkCell x) := by
  rw [bulkCell_later hpos, ← hn, Nat.min_eq_right h48]
  have hraw : (memBytes s.dram (x.addr + x.pos) n).length = n := length_memBytes ..
  generalize memBytes s.dram (x.addr + x.pos) n = raw at hraw
  have hpad : (raw ++ List.replicate (48 - raw.length) 0#8).length = 48 := by rw [List.length_append, List.length_replicate, hraw]; omega
  have hbody : s.bulkBody x raw = (bytesLE 1 3 ++ bytesLE 1 x.link ++ bytesLE 2 s.pair.cyc ++ bytesLE 4 x.body ++ bytesLE 4 x.pos) ++
      (raw ++ List.replicate (48 - raw.length) 0#8) := by rw [State.bulkBody, List.append_assoc]
  generalize hdata : raw ++ List.replicate (48 - raw.length) 0#8 = data at hpad hbody
  have hlen : (s.bulkBody x raw).length = 60 := by rw [hbody]; simp [length_bytesLE, hpad]
  have hseal := sealed_sealCell hlen
  refine ⟨?_, ?_, ?_, ?_, ?_⟩
  iterate 4
    · rw [hseal.field _ _ (by decide), hbody]
      simp [length_bytesLE]
  · rw [sealCell, hbody, List.append_assoc, List.drop_left' (by simp [length_bytesLE]), List.take_left' hpad, hdata]

end Made

end Sys2Proof.Machine
end

section
/-! PROOFS. PAIR's cycle (R463, R465, R468, R470): the statement of chapter 22 on PAIR_CYCLE. -/

namespace Sys2Proof.Machine

section Cycle
variable {s t u v w : State} {echo : Nat × Nat} {x : PairSend} {n : Nat}

/-! ### The cycle as one work -/

/-- The cells of a cycle that starts now. -/
def State.cycleCells (s : State) (echo : Nat × Nat) : List (List Byte) :=
  s.headCell echo :: ((List.range 6).map s.sigCell ++ (s.bulkCells 169 s.pair.sends).1)

/-- PAIR's facts after a cycle. -/
def State.cyclePair (s : State) (echo : Nat × Nat) : PairState :=
  { s.pair with
    out := s.cycleCells echo, sends := (s.bulkCells 169 s.pair.sends).2, sent := tput s.pair.sent s.pair.cyc s.now, cyc := (s.pair.cyc + 1) % 65536,
    sseq := (s.pair.sseq + 1) % 256, cycAt := some s.now }

theorem pairCycle_eq (hen : s.enabled 0x10 = true) (hnow : s.now % 100000 = 0) (hat : s.pair.cycAt ≠ some s.now) :
    exec .pairCycle s = .next (s.laneSweep.pairEcho.2.withPair (s.laneSweep.pairEcho.2.cyclePair s.laneSweep.pairEcho.1)) := by
  have hgo : ¬ (!s.enabled 0x10 || decide (s.now % 100000 ≠ 0) || decide (s.pair.cycAt = some s.now)) = true := by simp [hen, hnow, hat]
  change execPairCycle s = _
  rw [execPairCycle, if_neg hgo]
  generalize s.laneSweep = u
  dsimp only
  generalize u.pairEcho.2 = v
  rfl

/-- The echo of a cycle, and the free values drawn for it. -/
theorem pairEcho_shows (s : State) : s.only [.free] [] s.pairEcho.2 ∧ s.pairEcho.2.free = s.free + (if s.pair.last.isNone = true then 2 else 0) ∧
    (s.pair.last.isSome = true → s.pairEcho.1 = ((s.pair.last.getD (0, 0)).1, s.since (s.pair.last.getD (0, 0)).2)) := by
  unfold State.pairEcho
  cases s.pair.last with
  | none => exact ⟨only_mono (only_seq (only_drawn s) (only_drawn s.drawn)) (by simp) (by simp), rfl, fun h => Bool.noConfusion h⟩
  | some h => exact ⟨only_refl .., rfl, fun _ => rfl⟩

/-- Work that draws free values alone leaves what cells show. -/
structure SameCells (s v : State) : Prop where
  only : s.only [.free] [] v
  pair : v.pair = s.pair
  get : ∀ f, v.get f = s.get f
  now : v.now = s.now
  dram : v.dram = s.dram
  cle : v.cle = s.cle

theorem sameCells (h : s.only [.free] [] v) : SameCells s v :=
  ⟨h, pair_of_only h (by simp), fun f => h.2.1 f (by simp), now_of_only h (by simp), h.1 .dram (by simp), h.1 .cle (by simp)⟩

theorem SameCells.joined (h : SameCells s v) : v.pairJoined = s.pairJoined := by rw [pairJoined_eq, pairJoined_eq, h.get]

theorem SameCells.flags (h : SameCells s v) : v.headFlags = s.headFlags := by
  rw [State.headFlags, State.headFlags, h.get, h.joined, getB_of_get (h.get PAIR_STAT.UNTRUST)]

theorem SameCells.mt (h : SameCells s v) : v.mtNow = s.mtNow := by rw [State.mtNow, State.mtNow, h.now, mtAt_of_only h.only (by simp)]

/-! ### BULK cells of the bodies waiting -/

theorem bulkCells_done {l : List PairSend} (h : (l.find? fun x => decide (x.pos < x.len)) = none) (n : Nat) (s : State) : s.bulkCells n l = ([], l) := by
  cases n with
  | zero => rfl
  | succ n =>
    unfold State.bulkCells
    rw [h]

theorem bulkCells_last (hlt : x.pos < x.len) (hle : x.len ≤ x.pos + 48) (n : Nat) (s : State) :
    s.bulkCells (n + 1) [x] = ([s.bulkCell x], [{ x with pos := x.pos + 48 }]) := by
  have hfind : ([x].find? fun x => decide (x.pos < x.len)) = some x := List.find?_cons_of_pos (by simpa using hlt)
  have hnone : (([x].map fun y => if y.id = x.id then { y with pos := y.pos + 48 } else y).find? fun x => decide (x.pos < x.len)) = none := by
    simpa using hle
  unfold State.bulkCells
  rw [hfind]
  dsimp only
  rw [bulkCells_done hnone]
  simp

/-- SIG cell `j` of a cycle. -/
theorem cycleCells_sig {j : Nat} (hj : j < 6) (s : State) (echo : Nat × Nat) : (s.cycleCells echo).getD (1 + j) [] = s.sigCell j := by
  rw [State.cycleCells, Nat.add_comm, List.getD_cons_succ, List.getD_append _ _ _ _ (by simpa using hj), List.getD_eq_getElem?_getD, List.getElem?_map,
    List.getElem?_range hj]
  rfl

/-- The first BULK cell of a cycle. -/
theorem cycleCells_bulk {c : List Byte} (h : (s.bulkCells 169 s.pair.sends).1 = [c]) (echo : Nat × Nat) : (s.cycleCells echo).getD 7 [] = c := by
  rw [State.cycleCells, h]
  rfl

/-! ### Cycles -/

/-- What a cycle leaves where the lanes show what is true. -/
theorem pairCycle_runs (hen : s.enabled 0x10 = true) (hnow : s.now % 100000 = 0) (hat : s.pair.cycAt ≠ some s.now) (htrue : s.lanesTrue = true) :
    ∃ v, SameCells s v ∧ v.free = s.free + (if s.pair.last.isNone = true then 2 else 0) ∧
      (s.pair.last.isSome = true → s.pairEcho.1 = ((s.pair.last.getD (0, 0)).1, s.since (s.pair.last.getD (0, 0)).2)) ∧
      exec .pairCycle s = .next (v.withPair (v.cyclePair s.pairEcho.1)) := by
  have hexec := pairCycle_eq hen hnow hat
  rw [laneSweep_true htrue] at hexec
  obtain ⟨honly, hfree, hecho⟩ := pairEcho_shows s
  exact ⟨_, sameCells honly, hfree, hecho, hexec⟩

theorem only_cycled (h : SameCells s v) (echo : Nat × Nat) : s.only [.pair, .free] [] (v.withPair (v.cyclePair echo)) :=
  only_mono (only_seq h.only (only_withPair (v.cyclePair echo) v)) (by simp) (by simp)

theorem headFlags_eq (s : State) : s.headFlags = s.get PAIR_CFG.ROLE + (if s.pairJoined then 2 else 0) + (if s.getB PAIR_STAT.UNTRUST then 0 else 4) := by
  unfold State.headFlags
  cases s.pairJoined <;> cases s.getB PAIR_STAT.UNTRUST <;> rfl

/-- A valid cell of the cycle with CYC `cyc`. -/
theorem cycleCells_valid (hsends : s.pair.sends = []) (hcyc : s.pair.cyc < 65536) (echo : Nat × Nat) :
    ((s.cycleCells echo).all fun c => decide (c.length = 64 ∧ natLE (c.drop 60) = crc32 (c.take 60) ∧ cellN c 2 2 = s.pair.cyc)) = true := by
  have hmod := Nat.mod_eq_of_lt hcyc
  refine List.all_eq_true.2 fun c hc => decide_eq_true ?_
  rw [State.cycleCells, hsends, bulkCells_done rfl, List.append_nil] at hc
  rcases List.mem_cons.1 hc with rfl | hc
  · have hmade := headCell_made s echo
    exact ⟨hmade.len, hmade.crc, hmade.cyc.trans hmod⟩
  · obtain ⟨j, -, rfl⟩ := List.mem_map.1 hc
    have hmade := sigCell_made s j
    exact ⟨hmade.len, hmade.crc, hmade.cyc.trans hmod⟩

/-- The cells of a cycle without a body. -/
theorem cycleCells_idle (hsends : s.pair.sends = []) (echo : Nat × Nat) : s.cycleCells echo = s.headCell echo :: (List.range 6).map s.sigCell := by
  rw [State.cycleCells, hsends, bulkCells_done rfl, List.append_nil]

theorem sigCells_types (s : State) : ((List.range 6).map s.sigCell).map (fun c => cellN c 0 1) = [2, 2, 2, 2, 2, 2] := by
  rw [List.map_map]
  exact List.map_congr_left (g := fun _ => 2) fun j _ => (sigCell_made s j).type

theorem sigCells_indices (s : State) : ((List.range 6).map s.sigCell).map (fun c => cellN c 1 1) = [0, 1, 2, 3, 4, 5] := by
  rw [List.map_map]
  exact List.map_congr_left (g := fun j => j % 256) fun j _ => (sigCell_made s j).index

/-- A cycle with no body to send. -/
theorem pairCycle_idle (hen : s.enabled 0x10 = true) (hnow : s.now % 100000 = 0) (hat : s.pair.cycAt ≠ some s.now) (htrue : s.lanesTrue = true)
    (hsends : s.pair.sends = []) (hcyc : s.pair.cyc < 65536) : ∃ t, exec .pairCycle s = .next t ∧ t.pair.cyc = (s.pair.cyc + 1) % 65536 ∧
      t.pair.sseq = (s.pair.sseq + 1) % 256 ∧ tget t.pair.sent s.pair.cyc = some s.now ∧ t.pair.cycAt = some s.now ∧ t.pair.out.length = 7 ∧
      t.pair.out.map (fun c => cellN c 0 1) = [1, 2, 2, 2, 2, 2, 2] ∧
      (t.pair.out.all fun c => decide (c.length = 64 ∧ natLE (c.drop 60) = crc32 (c.take 60) ∧ cellN c 2 2 = s.pair.cyc)) = true ∧
      ((t.pair.out.drop 1).map fun c => cellN c 1 1) = [0, 1, 2, 3, 4, 5] ∧
      (s.pair.last.isSome = true → (t.pair.out.take 1).map (fun c => (cellN c 52 2, cellN c 54 4)) =
        [((s.pair.last.getD (0, 0)).1 % 2 ^ 16, s.since (s.pair.last.getD (0, 0)).2 % 2 ^ 32)]) ∧
      (t.pair.out.take 1).map (fun c => (cellN c 1 1, cellN c 36 8, cellN c 45 1)) =
        [(s.get PAIR_CFG.ROLE + (if s.pairJoined then 2 else 0) + (if s.getB PAIR_STAT.UNTRUST then 0 else 4), fromSigned 64 s.mtNow, s.pair.sseq % 256)] ∧
      (s.pairJoined = false → ((t.pair.out.drop 1).all fun c => decide (cellN c 4 2 = 0)) = true) ∧
      t.free = s.free + (if s.pair.last.isNone = true then 2 else 0) ∧ s.only [.pair, .free] [] t := by
  obtain ⟨v, hv, hfree, hecho, hexec⟩ := pairCycle_runs hen hnow hat htrue
  generalize s.pairEcho.1 = echo at hecho hexec
  have hidle : v.pair.sends = [] := by rw [hv.pair, hsends]
  have hhead := headCell_made v echo
  have hout : (v.withPair (v.cyclePair echo)).pair.out = v.headCell echo :: (List.range 6).map v.sigCell := cycleCells_idle hidle echo
  have hvalid := cycleCells_valid (s := v) hidle (by rw [hv.pair]; exact hcyc) echo
  refine ⟨_, hexec, by rw [← hv.pair]; rfl, by rw [← hv.pair]; rfl, ?_, by rw [← hv.now]; rfl, by rw [hout]; simp, ?_, by rw [← hv.pair]; exact hvalid, ?_,
    fun hlast => ?_, ?_, fun hun => ?_, hfree, only_cycled hv echo⟩
  · rw [← hv.pair, ← hv.now]
    exact tget_tput_self ..
  · rw [hout, List.map_cons, sigCells_types, hhead.type]
  · rw [hout]
    exact sigCells_indices v
  · rw [hout]
    change [(cellN (v.headCell echo) 52 2, cellN (v.headCell echo) 54 4)] = _
    rw [hhead.echoCyc, hhead.echoRes, hecho hlast]
  · rw [hout]
    change [(cellN (v.headCell echo) 1 1, cellN (v.headCell echo) 36 8, cellN (v.headCell echo) 45 1)] = _
    rw [hhead.flags, hhead.mt, hhead.sseq, hv.flags, hv.mt, hv.pair, headFlags_eq]
  · rw [hout]
    refine List.all_eq_true.2 fun c hc => decide_eq_true ?_
    obtain ⟨j, -, rfl⟩ := List.mem_map.1 hc
    rw [(sigCell_made v j).valid, sigValues_unjoined (hv.joined.trans hun)]

/-- A cycle carries the value of a signal in service. -/
theorem pairCycle_signal {i : Fin 64} {l a : Nat} (hen : s.enabled 0x10 = true) (hnow : s.now % 100000 = 0) (hat : s.pair.cycAt ≠ some s.now)
    (htrue : s.lanesTrue = true) (hjoin : s.pairJoined = true) (hon : s.getB (PAIR_SIGO.EN i.val) = true)
    (happlied : ((tget s.cle.slots (s.get (PAIR_SIGO.SLOT i.val))).all fun c => decide (c.applied ≠ 0)) = true)
    (hlatest : latestAt (tgetD s.cle.hist (s.get (PAIR_SIGO.SLOT i.val)) []) 2000 s.now = some (l, a)) : ∃ t, exec .pairCycle s = .next t ∧
      bitAt (cellN (t.pair.out.getD (1 + i.val / 12) []) 4 2) (i.val % 12) = true ∧
      cellN (t.pair.out.getD (1 + i.val / 12) []) (8 + 4 * (i.val % 12)) 4 = a % 2 ^ 32 ∧ s.only [.pair, .free] [] t := by
  obtain ⟨v, hv, -, -, hexec⟩ := pairCycle_runs hen hnow hat htrue
  have hout : (v.withPair (v.cyclePair s.pairEcho.1)).pair.out.getD (1 + i.val / 12) [] = v.sigCell (i.val / 12) := cycleCells_sig (by omega) v _
  have hmade := sigCell_made v (i.val / 12)
  have hsig : v.sigOut i.val = some a := sigOut_some (l := l) (hv.joined.trans hjoin) ((getB_of_get (hv.get _)).trans hon) (by rw [hv.cle, hv.get]; exact happlied)
    (by rw [hv.cle, hv.get, hv.now]; exact hlatest)
  have hvalue : ((v.sigValues (i.val / 12))[i.val % 12]?).getD none = some a := by
    rw [sigValues_get (by omega), Nat.div_add_mod, if_pos i.isLt, hsig]
  refine ⟨_, hexec, ?_, ?_, only_cycled hv _⟩
  · rw [hout, hmade.valid, bitAt_validBits, hvalue]
    rfl
  · rw [hout, hmade.value _ (by omega), hvalue]
    rfl

/-- A cycle carries the last cell of the one body waiting. -/
theorem pairCycle_body (hen : s.enabled 0x10 = true) (hnow : s.now % 100000 = 0) (hat : s.pair.cycAt ≠ some s.now) (htrue : s.lanesTrue = true)
    (hsends : s.pair.sends = [x]) (hpos : 0 < x.pos) (hlt : x.pos < x.len) (hn : x.len - x.pos = n) (h48 : n ≤ 48) : ∃ t, exec .pairCycle s = .next t ∧
      t.pair.sends = [{ x with pos := x.pos + 48 }] ∧ t.pair.out.length = 8 ∧ cellN (t.pair.out.getD 7 []) 0 1 = 3 ∧
      cellN (t.pair.out.getD 7 []) 1 1 = x.link % 256 ∧ cellN (t.pair.out.getD 7 []) 4 4 = x.body % 2 ^ 32 ∧
      cellN (t.pair.out.getD 7 []) 8 4 = x.pos % 2 ^ 32 ∧
      ((t.pair.out.getD 7 []).drop 12).take 48 = memBytes s.dram (x.addr + x.pos) n ++ List.replicate (48 - n) 0 ∧ s.only [.pair, .free] [] t := by
  obtain ⟨v, hv, -, -, hexec⟩ := pairCycle_runs hen hnow hat htrue
  have hbulk : v.bulkCells 169 v.pair.sends = ([v.bulkCell x], [{ x with pos := x.pos + 48 }]) := by
    rw [hv.pair, hsends]
    exact bulkCells_last hlt (by omega) 168 v
  have hmade := bulkCell_made (s := v) hpos hn.symm h48
  have hcells : (v.bulkCells 169 v.pair.sends).1 = [v.bulkCell x] := by rw [hbulk]
  have hout : (v.withPair (v.cyclePair s.pairEcho.1)).pair.out.getD 7 [] = v.bulkCell x := cycleCells_bulk hcells _
  have hlen : (v.cycleCells s.pairEcho.1).length = 8 := by rw [State.cycleCells, hcells]; simp
  have hsent : (v.bulkCells 169 v.pair.sends).2 = [{ x with pos := x.pos + 48 }] := by rw [hbulk]
  refine ⟨_, hexec, hsent, hlen, ?_, ?_, ?_, ?_, ?_, only_cycled hv _⟩
  · rw [hout, hmade.type]
  · rw [hout, hmade.link]
  · rw [hout, hmade.body]
  · rw [hout, hmade.pos]
  · rw [hout, hmade.data, length_memBytes, hv.dram]
    rfl

end Cycle

end Sys2Proof.Machine
end

section
/-! PROOFS. A cycle that finds every lane silent (R462, R463), and the statement of chapter 22 on PAIR. -/

namespace Sys2Proof.Machine

section Silent
variable {s t u v w : State} {l : Nat}

theorem laneSilent_of (hheard : u.pair.heard = s.pair.heard) (hnow : u.now = s.now) (l : Nat) : u.laneSilent l = s.laneSilent l := by
  rw [State.laneSilent, State.laneSilent, hheard, hnow]

/-- With every lane silent the sweep takes both lanes down at once. -/
theorem laneSweep_silent (h0 : s.laneSilent 0 = true) (h1 : s.laneSilent 1 = true) (hb : s.pair.bodies = [])
    (hs : s.pair.sends = []) : s.laneSweep = s.bothDown.pairDown := by
  rw [State.laneSweep, laneQuiet_silent h0, State.bothDown]
  obtain ⟨hrun, hdown, -⟩ := setLane_shows (l := 0) (by decide) false s
  have hother : (s.setLane 0 false).getB (laneFld 1) = s.getB (laneFld 1) := setLane_other (by decide) (by decide) false s
  generalize s.setLane 0 false = u at hrun hdown hother
  have hpair : u.pair = s.pair := pair_of_only hrun.only (by simp)
  have hnow : u.now = s.now := now_of_only hrun.only (by simp)
  by_cases hlast : u.get PAIR_STAT.LANE_UP = 0
  · have hoff : u.getB (laneFld 1) = false := ((laneUp_eq_zero u).1 hlast).2
    have hgone := pairDown_shows hlast (by rw [hpair, hb]) (by rw [hpair, hs])
    rw [setLane_same hoff]
    generalize u.pairDown = v at hgone
    have hsilent : v.laneSilent 1 = true :=
      (laneSilent_of (hgone.heard.trans (by rw [hpair])) ((now_of_only hgone.ran.only (by simp)).trans hnow) 1).trans h1
    have hstill : v.getB (laneFld 1) = false := by
      refine (getB_of_only hgone.ran.only fun f hf => ?_).trans hoff
      rcases List.mem_cons.1 hf with rfl | hf
      · exact .inr (.inl (by decide))
      · exact apart_raiseFlds (by simp only [laneFld]; decide) 313 f hf
    rw [laneQuiet_silent hsilent, setLane_same hstill, pairDown_still hgone.state hgone.good hgone.heads]
  · rw [pairDown_up hlast, laneQuiet_silent ((laneSilent_of (by rw [hpair]) hnow 1).trans h1)]

/-- What a cycle leaves that finds every lane silent. -/
theorem pairCycle_silent (hen : s.enabled 0x10 = true) (hnow : s.now % 100000 = 0) (hat : s.pair.cycAt ≠ some s.now)
    (hup : s.get PAIR_STAT.LANE_UP ≠ 0) (hsilent : ∀ l ∈ List.range 2, s.laneSilent l = true) (hs : s.pair.sends = []) (hb : s.pair.bodies = []) :
    ∃ t, exec .pairCycle s = .next t ∧ t.get PAIR_STAT.LANE_UP = 0 ∧ s.raised 314 t ∧ t.get PAIR_STAT.STATE = 0 ∧
      (s.get PAIR_STAT.STATE ≠ 0 → s.raised 313 t) ∧ (s.get PAIR_STAT.STATE = 2 → t.pair.lost = true) ∧ t.pair.cycAt = some s.now ∧
      (t.pair.out.take 1).map (fun c => cellN c 1 1 / 2 % 2) = [0] ∧
      s.only [.pair, .free, .rcd, .cyc] ([PAIR_STAT.LANE_UP, PAIR_STAT.STATE] ++ raiseFlds 313 ++ raiseFlds 314) t := by
  have hexec := pairCycle_eq hen hnow hat
  rw [laneSweep_silent (hsilent 0 (by simp)) (hsilent 1 (by simp)) hb hs] at hexec
  obtain ⟨hrun, hnone, hraised⟩ := bothDown_shows s
  generalize s.bothDown = u at hrun hnone hraised hexec
  have hpair : u.pair = s.pair := pair_of_only hrun.only (by simp)
  have hoff := pairDown_shows hnone (by rw [hpair, hb]) (by rw [hpair, hs])
  obtain ⟨hall, htold, hlost⟩ := lastLane_shows hrun (apart_all rfl) hoff
  have h314 := hoff.ran.evt.raised_first hrun.evt (by decide) (hraised hup)
  have hlanes : u.pairDown.get PAIR_STAT.LANE_UP = 0 := (hoff.ran.only.2.1 _ (apart_all rfl)).trans hnone
  generalize u.pairDown = w at hoff hall htold hlost h314 hlanes hexec
  obtain ⟨hecho, -, -⟩ := pairEcho_shows w
  have hsame := sameCells hecho
  generalize w.pairEcho.2 = v at hecho hsame hexec
  generalize w.pairEcho.1 = echo at hexec
  have hnowv : v.now = s.now := hsame.now.trans (now_of_only hall.only (by simp))
  have hend := ran_of_only (only_seq hecho (only_withPair (v.cyclePair echo) v)) (by simp) (by simp)
  have hunjoined : v.pairJoined = false := by rw [hsame.joined, pairJoined_eq, hoff.state]; rfl
  have hout : (v.withPair (v.cyclePair echo)).pair.out.take 1 = [v.headCell echo] := rfl
  refine ⟨_, hexec, (hsame.get _).trans hlanes, hend.evt.raised_first hall.evt (by decide) h314, (hsame.get _).trans hoff.state,
    fun h => hend.evt.raised_first hall.evt (by decide) (htold h), fun h => ?_, by rw [← hnowv]; rfl, ?_, ?_⟩
  · rw [← hlost h, ← hsame.pair]
    rfl
  · have hrole : v.get PAIR_CFG.ROLE < 2 := Nat.mod_lt _ (by decide)
    have hflags := headFlags_eq v
    rw [hunjoined, if_neg Bool.false_ne_true] at hflags
    rw [hout, List.map_singleton, (headCell_made v echo).flags, hflags]
    refine congrArg (fun k => [k]) ?_
    split <;> omega
  · exact only_mono (only_seq hall.only hend.only) (by simp) (by simp +contextual [or_imp])

end Silent

/-- Settles O54: lanes, HEADs, cells and bodies leave what chapter 22 says of them, each from the equation of its own operation, the sweep of silent
lanes being no work where the lanes show what is true. -/
theorem pairModulesCycleJoinKeepTimeAndCarryCells : Obligations.PairModulesCycleJoinKeepTimeAndCarryCells := by
  unfold Obligations.PairModulesCycleJoinKeepTimeAndCarryCells
  refine ⟨?_, ?_, ?_, ?_, ?_, ?_, ?_, ?_, ?_, ?_, ?_, ?_, ?_, ?_, ?_, ?_, ?_, ?_, ?_, ?_, ?_, ?_, ?_⟩
  · exact fun s hen hnow hat htrue hs hcyc => pairCycle_idle hen hnow hat htrue hs hcyc
  · exact fun i l v s hen hnow hat htrue hjoin hon happlied hlatest => pairCycle_signal hen hnow hat htrue hjoin hon happlied hlatest
  · exact fun x n s hen hnow hat htrue hs hpos hlt hn h48 => pairCycle_body hen hnow hat htrue hs hpos hlt hn h48
  · exact fun s hen hnow hat hup hsilent hs hb => pairCycle_silent hen hnow hat hup hsilent hs hb
  · exact fun lane cell stamp s hlane htrue hok => headRx_bad hlane htrue hok
  · exact fun lane cell stamp s hlane htrue hok hty => headRx_other hlane htrue hok hty
  · exact fun lane s hlane => cellCrcFails hlane
  · exact fun lane cell stamp cyc ident why s hlane htrue hok hty hcyc hnew hrole htrip hstate hident hwhy =>
      headRx_joins hlane htrue hok hty hcyc hnew hrole htrip hstate ((joinWhy_lead hrole hident).trans hwhy.symm)
  · exact fun lane cell stamp x y s hlane htrue hok hty hnew hrole hstate hb hs hid htaken _ => headRx_leaves hlane htrue hok hty hnew hrole hstate hb hs hid htaken
  · exact fun lane cell stamp tx l d o s hlane htrue hok hty hnew hrole hlead hwhy hstate hgood htx hl hd h0 h32 ho hlo hhi hobs =>
      headRx_times hlane htrue hok hty hnew hrole hlead hwhy hstate hgood htx hl hd h0 h32 ho hlo hhi hobs
  · exact fun lane cell h rest j s hlane htrue hok hty hj hle hheads hcyc hrest hnew hjoin hheld =>
      sigRx_puts hlane htrue hok hty hj hle hheads hcyc hrest hnew hjoin hheld
  · exact fun lane cell s hlane htrue hok hty hheads => sigRx_unknown hlane htrue hok hty hheads
  · exact fun lane cell h rest j s hlane htrue hok hty _ _ hheads hcyc hheld => sigRx_held hlane htrue hok hty hheads hcyc hheld
  · exact fun lane cell k a s hlane htrue hok hty hjoin hlink hk hnew hoff h0 h1 ha hheld hsize =>
      bulkRx_opens hlane htrue hok hty hjoin hlink hk hnew hoff h0 h1 ha hheld hsize
  · exact fun lane cell k off n tot a r s hlane htrue hok hty hjoin hlink hk hnew hoff hpos h0 hsweep htot hin hn hsize hwhole ha =>
      bulkRx_ends hlane htrue hok hty hjoin hlink hk hnew hoff hpos h0 hsweep htot hin hn hsize hwhole ha
  · exact fun lane s hen hsilent hup hother => laneTimeout_one hen hsilent hup hother
  · exact fun lane s hen hsilent hup hother hb hs => laneTimeout_last hen hsilent hup hother hb hs
  · exact fun ring e k a len s hready htrue hk ha hle halign hlen hin hhead hjoin => bodySend_queues hready htrue hk ha hle halign hlen hin hhead hjoin
  · exact fun ring e k a len s hready htrue hk ha hle halign hlen hin hhead hjoin => bodySend_unjoined hready htrue hk ha hle halign hlen hin hhead hjoin
  · exact fun y rest x s hs hpos hid htaken _ => bodySendDone_ends hs hpos hid htaken
  · exact fun s hon hs hb => pairDisabled_idle hon hs hb
  · exact fun k r s hon hs hb => pairDisabled_body hon hs hb
  · exact fun x y s hon hs hb hid htaken _ => pairDisabled_send hon hs hb hid htaken

end Sys2Proof.Machine
end
